-- ==== Sys2Proof/Word.lean ====
section
/-! DEFINITION. The word types of the block: a register word (R11: registers are 32-bit), a byte, the two time
formats (R2, R5) and the position of a field inside a word. -/

namespace Sys2Proof.Machine

/-- A 32-bit register word. -/
abbrev Word := BitVec 32

/-- A byte of a frame, of a DMA buffer or of DRAM. -/
abbrev Byte := BitVec 8

/-- T96 (R2): seconds in [95:48], nanoseconds in [47:16], fraction in [15:0]. -/
abbrev T96 := BitVec 96

/-- Tick64 (R5): time in units of 1/65,536 ns, modulo 2^64. -/
abbrev Tick64 := BitVec 64

/-- The 192-bit state of one Tripod copy (R68). -/
abbrev Copy := BitVec 192

/-- A field of a word: its lowest bit and its width. -/
structure Fld where
  lo : Nat
  w : Nat
  deriving DecidableEq, Repr

/-- A table of values by key, in ascending key order, listing only the keys whose value differs from the
table's default (see Machine/Bits.lean). -/
abbrev Tbl (α : Type) := List (Nat × α)

end Sys2Proof.Machine
end

