-- ==== Sys2Proof/Syntax.lean ====
section
/-! DEFINITION. The commands the block takes: one constructor of `Instr` for each row of
spec/opcode_table.json, in the table's order, with the operands the row's rules give it. -/

namespace Sys2Proof

open Sys2Proof.Machine

/-- Who makes an access: PCIe function F0 or F1, the I²C target (R38), or the boot pack (R425). -/
inductive Src
  | f0 | f1 | i2c | boot
  deriving DecidableEq, Repr

/-- Clock domains of R34. -/
inductive Dom
  | register
  | timescale
  | core
  | lane (n : Nat)
  | guyLane
  | emberBridge
  deriving DecidableEq, Repr

/-- The loops of R148. -/
inductive Loop
  | hk
  | jpll
  | core
  | dram
  | lane (n : Nat)
  deriving DecidableEq, Repr

/-- Where a reference event lies on the line side of the FEC (R179): the line bits from the first bit of a gearbox word
to the first bit of a codeword that opens with an alignment marker, the 257-bit blocks of data from that marker to the
event's own, and the event's bit in its block. -/
structure FecPlace where
  lead : Nat
  blocks : Nat
  bit : Nat
  deriving DecidableEq, Repr

/-- What the lane hands to the stamping unit for one reference event (R178 to R180, R183). -/
structure StampIn where
  /-- The coarse sample of the phase of the edge of W after the last tick, in 1/4,096 ns (R181). -/
  phi : Int
  /-- Timescale ticks from the detector's latest sample to the edge of W (R180). -/
  age : Nat
  /-- Without FEC: line bits from the first bit of W to the reference event. -/
  bits : Nat
  /-- With FEC: the place of the reference event. -/
  fec : FecPlace
  /-- PCS clock cycles since the last tick before a gap of the timescale. -/
  cycles : Nat
  /-- On receipt with FEC: the reference event lies in a codeword marked uncorrectable (R179). -/
  fecBad : Bool
  deriving DecidableEq, Repr

/-- The wiring faults of R488, by the bit of `IOP_PINp_STATUS` that shows them. -/
inductive PinFault
  | gndP | supP | gndN | supN | legs | opened | reversed
  deriving DecidableEq, Repr

/-- The contents of the one-time-programmable memory (R434). -/
structure Otp where
  /-- Transmit and receive fixed delays by lane and mode: index 2 × port + FEC. -/
  lanes : List (Word × Word)
  /-- Guyline lane 0's transmit and receive delays. -/
  guy : Word × Word
  /-- Event input delays, by channel. -/
  events : List Word
  /-- Delay-line trims, by interpolator. -/
  trims : List Nat
  /-- Output path delays and relay path delays, by output. -/
  paths : List Word
  relays : List Word
  /-- The offset of the hottest temperature sensor. -/
  temp : BitVec 16
  uid : BitVec 64
  rev : BitVec 16
  deriving DecidableEq, Repr

/-- How a frame's reception ends: in order, with PCS errors in the bytes at the offsets, with an uncorrectable codeword,
or truncated after `n` bytes (R231, R256). -/
inductive RxEnd
  | good | pcs (at_ : List Nat) | uncorr | trunc (n : Nat)
  deriving DecidableEq, Repr

/-- The header of a copy read back: good, corrected, or beyond correction in both places (R275). -/
inductive SpillHead
  | ok | corrected | lost
  deriving DecidableEq, Repr

/-- When a swap falls (R347): at the opening of a window of unit `m`, at a 1 ms point, or forced after 1 s without
one. -/
inductive SwapAt
  | opening (m : Nat) | point | forced
  deriving DecidableEq, Repr

/-- What SETTLE_US has elapsed for: a loop since its relock, with the register-clock cycles from the last tick before the
gap to the first after it (R152, R154), or an output since its change of frequency (R165). -/
inductive Settle
  | loop (l : Loop) (cycles : Nat) | output (n : Fin 10)
  deriving DecidableEq, Repr

/-- What reaches Guyline's stream (R375, R379): a message as received, or a row: the line bits of its blocks in logical
lanes 0 to 3, the number of data blocks sent since the last marker, and the lane's part of the row's receipt stamp. -/
inductive StreamBad
  | message (m : List Byte) | row (lanes : List (List Bool)) (block : Nat) (x : StampIn)
  deriving DecidableEq, Repr

/-- The commands, in the table's order. -/
inductive Instr
  /-- REGISTER_WRITE (R27): a write request of the words from `addr` on; `whole`: every byte enable is set. -/
  | registerWrite (src : Src) (addr : Nat) (whole : Bool) (words : List Word)
  /-- WRITE_ONCE (R44): a write to a write-once register. -/
  | writeOnce (src : Src) (addr : Nat) (v : Word)
  /-- READ_CLEAR (R26): a read of `len` bytes from byte address `addr` on. -/
  | readClear (src : Src) (addr : Nat) (len : Nat)
  /-- READ_LOW_WORD (R31): a read of `len` bytes from the low word of a pair on. -/
  | readLowWord (src : Src) (addr : Nat) (len : Nat)
  /-- WRITE_LOW_WORD (R33): the low word of a pair. -/
  | writeLowWord (addr : Nat) (v : Word)
  /-- WRITE_HIGH_WORD (R33): the high word of a pair. -/
  | writeHighWord (addr : Nat) (v : Word)
  /-- BUS_TIMEOUT (R36): the oldest access of engine `src` that waits. -/
  | busTimeout (src : Src)
  /-- DOMAIN_LIVE_AGAIN (R36): the crossing into domain `d` answers. -/
  | domainLiveAgain (d : Dom)
  /-- CROSSING_RESET (R43): the crossing of block `block`, reset from the block side or from the host side. -/
  | crossingReset (block : Fin 18) (blockSide : Bool)
  /-- PCIE_RESET (R24). -/
  | pcieReset
  /-- PCIE_LINK_DOWN (R24). -/
  | pcieLinkDown
  /-- FUNCTION_LEVEL_RESET_F0 (R24). -/
  | functionLevelResetF0
  /-- FUNCTION_LEVEL_RESET_F1 (R24). -/
  | functionLevelResetF1
  /-- CFG_SCAN_COMMIT (R51): `v`: the other bits of the word written. -/
  | cfgScanCommit (v : Word)
  /-- CFG_SCAN_UNFREEZE (R52): `v`: the other bits of the word written. -/
  | cfgScanUnfreeze (v : Word)
  /-- CFG_SCAN_COMPLETE (R51): `upsets`: what upsets had flipped when the scan read it, by address and mask. -/
  | cfgScanComplete (upsets : List (Nat × Word))
  /-- FQ_POP (R59): `v`: the other bits of the word written. -/
  | fqPop (v : Word)
  /-- DMA_RING_ENABLE (R60): `v`: the other bits of the word written. -/
  | dmaRingEnable (k : Fin 3) (v : Word)
  /-- DMA_TAIL_WRITE (R61). -/
  | dmaTailWrite (k : Fin 3) (v : Word)
  /-- DMA_DESCRIPTOR_DONE (R62): bytes 0 to 11 of the descriptor at HEAD. -/
  | dmaDescriptorDone (k : Fin 3) (desc : List Byte)
  /-- DMA_HOLDOFF_EXPIRY (R62). -/
  | dmaHoldoffExpiry (k : Fin 3)
  /-- DMA_PCIE_ERROR (R63). -/
  | dmaPcieError (k : Fin 3)
  /-- I2C_ADDRESS_WRITE (R65): the 7-bit target address and the three address bytes, most significant first. -/
  | i2cAddressWrite (dev : BitVec 7) (b2 : Byte) (b1 : Byte) (b0 : Byte)
  /-- I2C_READ (R65): `n` bytes from the target of 7-bit address `dev`. -/
  | i2cRead (dev : BitVec 7) (n : Nat)
  /-- DIE_TEMP_CONVERSION (R494): the hottest sensor in 1/16 °C before its offset, and the code of `OSC_TEMP`. -/
  | dieTempConversion (raw : Int) (code : Nat)
  /-- TIMESCALE_TICK (R69): the bits that upsets flip in each copy on this tick. -/
  | timescaleTick (u0 : Copy) (u1 : Copy) (u2 : Copy)
  /-- SECOND_EVENT (R83). -/
  | secondEvent
  /-- TSC_NOW_CAPTURE (R72): a read of `len` bytes from `TSC_NOW_T0` on. -/
  | tscNowCapture (src : Src) (len : Nat)
  /-- IMMEDIATE_STEP (R75): `v`: the other bits of the word written. -/
  | immediateStep (v : Word)
  /-- SECOND_ALIGNED_STEP (R75): `v`: the other bits of the word written. -/
  | secondAlignedStep (v : Word)
  /-- ABSOLUTE_SET (R75): `v`: the other bits of the word written. -/
  | absoluteSet (v : Word)
  /-- STEP_CANCEL (R78): `v`: the other bits of the word written. -/
  | stepCancel (v : Word)
  /-- STEP_APPLY (R77). -/
  | stepApply
  /-- CLR_SUSPECT (R91): `v`: the other bits of the word written. -/
  | clrSuspect (v : Word)
  /-- COPY_RESTORE (R92): copy `copy`; `v`: the other bits of the word written. -/
  | copyRestore (copy : Fin 3) (v : Word)
  /-- COPY_FENCE_CMD (R92): copy `copy`; `v`: the other bits of the word written. -/
  | copyFenceCmd (copy : Fin 3) (v : Word)
  /-- TRIPOD_INJECT (R93): `v`: the other bits of the word written. -/
  | tripodInject (v : Word)
  /-- OSC_FREQ_MISMATCH (R97): the frequency measured, in kHz. -/
  | oscFreqMismatch (khz : Nat)
  /-- OSC_FREQ_CHANGE (R156). -/
  | oscFreqChange (v : Word)
  /-- WARM_GATE (R98): the result of a 1 s gate of the judging candidate, in 10^-12. -/
  | warmGate (y : Int)
  /-- WARM_TIMEOUT (R98). -/
  | warmTimeout
  /-- OSC_WARM_CHANGE (R99): the level of `OSC_WARM`. -/
  | oscWarmChange (level : Bool)
  /-- REF_INPUT_EDGE (R102): input `n`; `ahead`: real time of the divided edge after the present tick, in units of
  1/65,536 ns. -/
  | refInputEdge (n : Fin 4) (ahead : Nat)
  /-- REF_INPUT_STUCK (R103). -/
  | refInputStuck (n : Fin 4)
  /-- REF_OVERRUN_INTERVAL (R104). -/
  | refOverrunInterval (n : Fin 4)
  /-- REF_IN_REARM (R104). -/
  | refInRearm (v : Word)
  /-- ACTIVITY_INTERVAL (R106): candidate `k`. -/
  | activityInterval (k : Fin 30)
  /-- FREQ_GATE (R107): candidate `k`; `raw`: its mean fractional frequency against OSC_IN over the gate, in 10^-15; the
  PTP candidate has the servo's. -/
  | freqGate (k : Fin 30) (raw : Int)
  /-- HOLDOFF_EXPIRY (R111): candidate `k`. -/
  | holdoffExpiry (k : Fin 30)
  /-- WTR_EXPIRY (R118): priority entry `e`. -/
  | wtrExpiry (e : Fin 16)
  /-- ESMC_RX (R113). -/
  | esmcRx (port : Fin 24) (frame : List Byte)
  /-- ESMC_TIMEOUT (R113). -/
  | esmcTimeout (port : Fin 24)
  /-- ESMC_TX_INFO (R115). -/
  | esmcTxInfo (port : Fin 24)
  /-- ESMC_TX_EVENT (R115). -/
  | esmcTxEvent (port : Fin 24)
  /-- SELECTOR_DECISION (R120): the steering loop's phase error in Tick64 units, target less timescale, and its RATE. -/
  | selectorDecision (err : Int) (rate : Int)
  /-- TARGET_MEASURED (R121). -/
  | targetMeasured
  /-- MODEL_EVAL (R130). -/
  | modelEval
  /-- FIT_INTERVAL_END (R133). -/
  | fitIntervalEnd
  /-- MODEL_LOAD (R137): `v`: the other bits of the word written. -/
  | modelLoad (v : Word)
  /-- MODEL_CLEAR (R136): `v`: the other bits of the word written. -/
  | modelClear (v : Word)
  /-- TEMP_AXIS_CHANGE (R135). -/
  | tempAxisChange (v : Word)
  /-- HOLDOVER_QUAL_LOST (R138): 60 s in an unlearned bin; else HOLD_S has been exceeded. -/
  | holdoverQualLost (bin : Bool)
  /-- EMBER_TRIM_UPDATE (R141): the Ember cycles counted over 1,024 s. -/
  | emberTrimUpdate (count : Nat)
  /-- EMBER_RESYNC (R141): at the first opportunity or after 1,024 s; else as asked for. -/
  | emberResync (periodic : Bool)
  /-- EMBER_RESYNC_CMD (R141): `v`: the other bits of the word written. -/
  | emberResyncCmd (v : Word)
  /-- EMBER_INVALIDATE (R143): `v`: the other bits of the word written. -/
  | emberInvalidate (v : Word)
  /-- EMBER_SUPPLY_LOW (R143). -/
  | emberSupplyLow
  /-- EMBER_COLD_START (R143). -/
  | emberColdStart
  /-- MAIN_POWER_LOSS (R413). -/
  | mainPowerLoss
  /-- MAIN_POWER_PRESENT (R413). -/
  | mainPowerPresent
  /-- EMBER_SEED (R144). -/
  | emberSeed
  /-- EMBER_XTAL_STOP (R146). -/
  | emberXtalStop
  /-- PLL_LOCK (R151). -/
  | pllLock (l : Loop)
  /-- PLL_LOCK_LOSS (R151): DETAIL of R174: 0 cycle slip, 1 frequency error, 2 reference stopped; `sent`: the bytes sent
  of a frame in transmission on a lane (R184). -/
  | pllLockLoss (l : Loop) (cause : Fin 3) (sent : Option Nat)
  /-- DOMAIN_GATED (R152). -/
  | domainGated (d : Dom)
  /-- SETTLE_EXPIRY (R152). -/
  | settleExpiry (what : Settle)
  /-- SYN_UPDATE_GO (R164): `v`: the other bits of the word written. -/
  | synUpdateGo (v : Word)
  /-- SYN_UPDATE_APPLY (R164). -/
  | synUpdateApply
  /-- CLAIM_SOURCE_SWITCH (R171). -/
  | claimSourceSwitch
  /-- PD_SAMPLE (R180): port 24 is lane 0 of Guyline; `raw`: the phase in 1/4,096 ns, modulo one tick. -/
  | pdSample (port : Fin 25) (tx : Bool) (raw : Fin 8192)
  /-- LANE_UNLOCK (R184): lanes 24 to 27 are Guyline's; `sent`: the bytes sent of a frame in transmission. -/
  | laneUnlock (lane : Fin 28) (sent : Option Nat)
  /-- LOOPBACK_GO (R187): `v`: the other bits of the word written. -/
  | loopbackGo (port : Fin 24) (v : Word)
  /-- LOOPBACK_ABORT (R187): `v`: the other bits of the word written. -/
  | loopbackAbort (port : Fin 24) (v : Word)
  /-- LOOPBACK_FRAME_TX (R187). -/
  | loopbackFrameTx (port : Fin 24) (x : StampIn)
  /-- LOOPBACK_FRAME_RETURN (R187): `q`: the sequence number of the calibration frame. -/
  | loopbackFrameReturn (port : Fin 24) (q : Nat) (x : StampIn)
  /-- LOOPBACK_FRAME_TIMEOUT (R187): `q`: the sequence number of the calibration frame. -/
  | loopbackFrameTimeout (port : Fin 24) (q : Nat)
  /-- LOOPBACK_DONE (R187). -/
  | loopbackDone (port : Fin 24)
  /-- LINK_DELAY_EXCHANGE (R188): the four stamps; `bad`: a stamp is unusable, or the timescale was moved between the
  local ones. -/
  | linkDelayExchange (port : Fin 24) (t1 : Tick64) (t2 : Tick64) (t3 : Tick64) (t4 : Tick64) (bad : Bool)
  /-- FTEMP_NOW_WRITE (R192). -/
  | ftempNowWrite (port : Fin 24) (v : Word)
  /-- FTEMP_STALE (R192). -/
  | ftempStale (port : Fin 24)
  /-- PTS_FIFO_POP (R197): `v`: the other bits of the word written. -/
  | ptsFifoPop (port : Fin 24) (v : Word)
  /-- ANNOUNCE_RX (R208): the PTP message. -/
  | announceRx (port : Fin 24) (msg : List Byte)
  /-- SYNC_RX (R218): the PTP message, and the lane's part of its receipt stamp. -/
  | syncRx (port : Fin 24) (msg : List Byte) (x : StampIn)
  /-- FOLLOW_UP_RX (R218): the PTP message. -/
  | followUpRx (port : Fin 24) (msg : List Byte)
  /-- DELAY_REQ_RX (R207): the PTP message, and the lane's part of its receipt stamp. -/
  | delayReqRx (port : Fin 24) (msg : List Byte) (x : StampIn)
  /-- DELAY_RESP_TX (R206). -/
  | delayRespTx (port : Fin 24)
  /-- DELAY_RESP_RX (R207): the PTP message. -/
  | delayRespRx (port : Fin 24) (msg : List Byte)
  /-- PDELAY_REQ_RX (R207): the PTP message, and the lane's part of its receipt stamp. -/
  | pdelayReqRx (port : Fin 24) (msg : List Byte) (x : StampIn)
  /-- PDELAY_RESP_TX (R206): the lane's part of its departure stamp. -/
  | pdelayRespTx (port : Fin 24) (x : StampIn)
  /-- PDELAY_RESP_RX (R207): the PTP message, and the lane's part of its receipt stamp. -/
  | pdelayRespRx (port : Fin 24) (msg : List Byte) (x : StampIn)
  /-- PDELAY_RESP_FOLLOW_UP_RX (R207): the PTP message. -/
  | pdelayRespFollowUpRx (port : Fin 24) (msg : List Byte)
  /-- PTP_MGMT_RX (R202). -/
  | ptpMgmtRx (port : Fin 24)
  /-- SYNC_TX (R206). -/
  | syncTx (port : Fin 24) (x : StampIn)
  /-- ANNOUNCE_TX (R209). -/
  | announceTx (port : Fin 24)
  /-- FOLLOW_UP_TX (R206). -/
  | followUpTx (port : Fin 24)
  /-- DELAY_REQ_TX (R206). -/
  | delayReqTx (port : Fin 24) (x : StampIn)
  /-- PDELAY_REQ_TX (R206). -/
  | pdelayReqTx (port : Fin 24) (x : StampIn)
  /-- CLAIM_ANNOUNCE (R213). -/
  | claimAnnounce
  /-- ANNOUNCE_TIMEOUT (R205). -/
  | announceTimeout (port : Fin 24)
  /-- FOLLOW_UP_TIMEOUT (R218). -/
  | followUpTimeout (port : Fin 24)
  /-- VALID_OFFSET_LAPSE (R219). -/
  | validOffsetLapse
  /-- SERVO_FREEZE (R223). -/
  | servoFreeze
  /-- TIGHT_SERVO_TICK (R221). -/
  | tightServoTick
  /-- PCS_BLOCK_LOCK_LOSS (R205): `signal`: a receive signal is still present. -/
  | pcsBlockLockLoss (port : Fin 24) (signal : Bool)
  /-- PCS_BLOCK_LOCK_GAIN (R205). -/
  | pcsBlockLockGain (port : Fin 24)
  /-- MAC_MODE_CHANGE (R471). -/
  | macModeChange (port : Fin 24) (v : Word)
  /-- FRAME_RECEIVE (R280): the frame as it arrives, FCS last. -/
  | frameReceive (port : Fin 24) (x : StampIn) (frame : List Byte)
  /-- FRAME_LOOKUP (R242): port 24 is the host. -/
  | frameLookup (port : Fin 25)
  /-- FRAME_END (R234). -/
  | frameEnd (port : Fin 24) (how : RxEnd) (corr : Nat)
  /-- LEARNING_SWEEP (R243): the entry, by its place in the table. -/
  | learningSweep (entry : Fin 65536)
  /-- TABLE_STAGE_WRITE (R244): a word of an entry other than its commit word. -/
  | tableStageWrite (addr : Nat) (v : Word)
  /-- TABLE_COMMIT (R244): the commit word of an entry. -/
  | tableCommit (addr : Nat) (v : Word)
  /-- FWD_DRAIN (R247): `v`: the other bits of the word written. -/
  | fwdDrain (v : Word)
  /-- DRAIN_DONE (R247). -/
  | drainDone
  /-- HOST_FRAME_INGEST (R259): bytes 0 to 11 of the next descriptor, and host memory from its BUF_ADDR on. -/
  | hostFrameIngest (desc : List Byte) (mem : List Byte)
  /-- HOST_FRAME_DELIVER (R260). -/
  | hostFrameDeliver
  /-- EGRESS_SELECT (R270): port 24 is the host. -/
  | egressSelect (port : Fin 25) (x : StampIn)
  /-- AGE_SCAN (R290). -/
  | ageScan
  /-- SPILL_WRITE (R276): queue `q`. -/
  | spillWrite (q : Fin 200)
  /-- SPILL_READBACK (R277): queue `q`; what the read of the header gives. -/
  | spillReadback (q : Fin 200) (head : SpillHead)
  /-- SLICE_STALL_THRESHOLD (R282). -/
  | sliceStallThreshold
  /-- PFC_TX (R286). -/
  | pfcTx (port : Fin 24)
  /-- PFC_REFRESH (R286). -/
  | pfcRefresh (port : Fin 24)
  /-- PFC_RX (R287). -/
  | pfcRx (port : Fin 24) (frame : List Byte)
  /-- PAUSE_EXPIRY (R287): priority `p`. -/
  | pauseExpiry (port : Fin 24) (p : Fin 8)
  /-- CLAUSE31_PAUSE_RX (R285). -/
  | clause31PauseRx (port : Fin 24) (frame : List Byte)
  /-- DRAM_TRAINING_DONE (R428): the channels whose training failed, as a mask. -/
  | dramTrainingDone (bad : Fin 4)
  /-- HERD_PLACE (R304). -/
  | herdPlace
  /-- HERD_DEPARTURE_DECISION (R303). -/
  | herdDepartureDecision (port : Fin 24) (x : StampIn)
  /-- HERD_ADMISSION_SWEEP (R313). -/
  | herdAdmissionSweep
  /-- JOURNAL_ENABLE (R329): `v`: the other bits of the word written. -/
  | journalEnable (v : Word)
  /-- JOURNAL_DISABLE (R329): `v`: the other bits of the word written. -/
  | journalDisable (v : Word)
  /-- RECORD_WRITE (R328). -/
  | recordWrite
  /-- LOSS_RECORD (R330). -/
  | lossRecord
  /-- JOURNAL_FIRE (R331): `v`: the other bits of the word written. -/
  | journalFire (v : Word)
  /-- SPOOR_TRIG_EDGE (R331): a falling edge; the time for which the level holds, in ns. -/
  | spoorTrigEdge (fall : Bool) (ns : Nat)
  /-- JOURNAL_FREEZE (R332). -/
  | journalFreeze
  /-- JOURNAL_REARM (R332): `v`: the other bits of the word written. -/
  | journalRearm (v : Word)
  /-- JOURNAL_FETCH (R333): `v`: the other bits of the word written. -/
  | journalFetch (v : Word)
  /-- FETCH_DONE (R333). -/
  | fetchDone
  /-- JOURNAL_BUFFER_DONE (R334): bytes 0 to 11 of the next descriptor. -/
  | journalBufferDone (desc : List Byte)
  /-- JOURNAL_BUFFER_IDLE (R334): bytes 0 to 11 of the next descriptor. -/
  | journalBufferIdle (desc : List Byte)
  /-- RD_COUNT_WRITE (R335): the pair's value, its low word written first. -/
  | rdCountWrite (n : BitVec 64)
  /-- TDC_EDGE (R344): input `e` at its ball; `code`: the interpolator's; `since`: ps since the previous selected edge;
  `hold`: ns until the input returns, if it does. -/
  | tdcEdge (e : Fin 8) (rise : Bool) (code : Nat) (since : Nat) (hold : Option Nat)
  /-- TDC_STAMP_CONVERSION (R344): channel `e`. -/
  | tdcStampConversion (e : Fin 8)
  /-- TDC_CAL_CYCLE_DONE (R345): interpolator B or A of channel `e`, and the two sums of its cycle. -/
  | tdcCalCycleDone (e : Fin 8) (b : Bool) (s1 : Nat) (s2 : Nat)
  /-- TDC_INTERPOLATOR_SWAP (R347): channel `e`. -/
  | tdcInterpolatorSwap (e : Fin 8) (at_ : SwapAt)
  /-- TDC_STUCK (R351): channel `e`. -/
  | tdcStuck (e : Fin 8)
  /-- TDC_OVERRUN_INTERVAL (R352): channel `e`. -/
  | tdcOverrunInterval (e : Fin 8)
  /-- TDC_REARM (R352). -/
  | tdcRearm (v : Word)
  /-- TDC_FIFO_POP (R353): channel `e`; `v`: the other bits of the word written. -/
  | tdcFifoPop (e : Fin 8) (v : Word)
  /-- TDC_WINDOW_START (R355): unit `m`. -/
  | tdcWindowStart (m : Fin 4)
  /-- TDC_WINDOW_CLOSE (R356): unit `m`. -/
  | tdcWindowClose (m : Fin 4)
  /-- GUY_ENABLE (R374): `v`: the other bits of the word written. -/
  | guyEnable (v : Word)
  /-- GUY_DISABLE (R374): `v`: the other bits of the word written. -/
  | guyDisable (v : Word)
  /-- GUY_LANE_LOS (R372): lane `l`; declared, or cleared. -/
  | guyLaneLos (l : Fin 4) (b : Bool)
  /-- GUY_LANE_LOL (R372): lane `l`; declared, or cleared. -/
  | guyLaneLol (l : Fin 4) (b : Bool)
  /-- GUY_BLOCK_LOCK (R372): lane `l`; gained, or lost; its SYNC words arrive complemented. -/
  | guyBlockLock (l : Fin 4) (gained : Bool) (compl : Bool)
  /-- GUY_MARKER_RX (R373): the marker of each physical lane, and the bit time of its arrival. -/
  | guyMarkerRx (l : List (BitVec 70 × Nat))
  /-- GUY_ALIGN_TIMEOUT (R374). -/
  | guyAlignTimeout
  /-- GUY_STREAM_ERROR (R379). -/
  | guyStreamError (bad : StreamBad)
  /-- CLAIM_MSG_RX (R377): the whole message, CHECK included. -/
  | claimMsgRx (msg : List Byte)
  /-- HEARTBEAT_RX (R395): the whole message, CHECK included. -/
  | heartbeatRx (msg : List Byte)
  /-- TIME_MSG_RX (R381): the whole message, CHECK included, and the lane's part of its row's receipt stamp. -/
  | timeMsgRx (msg : List Byte) (x : StampIn)
  /-- COMMIT_RX (R404): the whole message, CHECK included. -/
  | commitRx (msg : List Byte)
  /-- MIRROR_MSG_RX (R404): the whole message, CHECK included. -/
  | mirrorMsgRx (msg : List Byte)
  /-- CKPT_MSG_RX (R404): the whole message, CHECK included. -/
  | ckptMsgRx (msg : List Byte)
  /-- BATCH_APPLY (R404). -/
  | batchApply
  /-- CLAIM_MSG_TX (R394). -/
  | claimMsgTx
  /-- HEARTBEAT_TX (R395). -/
  | heartbeatTx
  /-- TIME_MSG_TX (R380): the lane's part of its departure stamp. -/
  | timeMsgTx (x : StampIn)
  /-- GUY_TIME_STALE (R381). -/
  | guyTimeStale
  /-- MIRROR_BATCH_START (R402). -/
  | mirrorBatchStart
  /-- CHECKPOINT_START (R403). -/
  | checkpointStart
  /-- CLAIM_WIRE_FRAME (R390): the 80 bits as they arrive on the pin. -/
  | claimWireFrame (f : BitVec 80)
  /-- WIRE_STALE (R390). -/
  | wireStale
  /-- BECOME_HIGHER (R392). -/
  | becomeHigher
  /-- HEARTBEAT_TIMEOUT (R396). -/
  | heartbeatTimeout
  /-- INIT_WAIT_EXPIRY (R397). -/
  | initWaitExpiry
  /-- PAIR_ENABLE (R397): `v`: the other bits of the word written. -/
  | pairEnable (v : Word)
  /-- PAIR_DISABLE (R397): `v`: the other bits of the word written. -/
  | pairDisable (v : Word)
  /-- CHECKPOINT_APPLY_DONE (R406). -/
  | checkpointApplyDone
  /-- HANDOVER (R399): `v`: the other bits of the word written. -/
  | handover (v : Word)
  /-- RELEASE (R397): `v`: the other bits of the word written. -/
  | release (v : Word)
  /-- RESET_ASSERT (R415). -/
  | resetAssert
  /-- RESET_RELEASE (R417): `I2C_ADDR1` and `I2C_ADDR0`. -/
  | resetRelease (straps : Fin 4)
  /-- RAIL_FAULT (R416): 0 `VDD`, 1 `VDDA_LN`, 2 `VDDA_HV`, 3 `VIO_18`. -/
  | railFault (rail : Fin 4)
  /-- RAIL_RECOVERY (R416). -/
  | railRecovery
  /-- OTP_READ_DONE (R418): `ok`: the CRC is correct. -/
  | otpReadDone (ok : Bool) (otp : Otp)
  /-- FLASH_DISCOVERY_DONE (R421): the JEDEC identifier, log2 of the size, and the first 64 bytes of the flash. -/
  | flashDiscoveryDone (found : Bool) (jedec : BitVec 24) (size : Nat) (head : List Byte)
  /-- BOOT_CLOCK_TIMEOUT (R417). -/
  | bootClockTimeout
  /-- PACK_VERIFY_DONE (R431): the bytes of the pack, header included. -/
  | packVerifyDone (pack : List Byte)
  /-- BOOT_PACK_WRITE (R425): `again`: what the second read of the entry gave, where it differs from the first. -/
  | bootPackWrite (again : Option (Nat × Word))
  /-- BOOT_PACK_WAIT (R425). -/
  | bootPackWait
  /-- PACK_APPLY_DONE (R432): `mismatch`: a recomputed SCRC differs. -/
  | packApplyDone (mismatch : Bool)
  /-- BOOT_RETRY (R417): `v`: the other bits of the word written. -/
  | bootRetry (v : Word)
  /-- FLASH_CMD_GO (R437): `v`: the other bits of the word written. -/
  | flashCmdGo (v : Word)
  /-- FLASH_CMD_DONE (R437): `data`: what the command read. -/
  | flashCmdDone (data : List Byte)
  /-- PMC_SNAP (R444): `v`: the other bits of the word written. -/
  | pmcSnap (v : Word)
  /-- PMC_CLEAR (R444): `v`: the other bits of the word written. -/
  | pmcClear (v : Word)
  /-- PMC_FREEZE (R445). -/
  | pmcFreeze (v : Word)
  /-- PMC_SELECT_CHANGE (R446): group `g`, counter `k`. -/
  | pmcSelectChange (g : Fin 3) (k : Fin 8) (v : Word)
  /-- PMC_COUNTER_WRAP (R447): group `g`; counter 0 is its cycle counter. -/
  | pmcCounterWrap (g : Fin 3) (j : Fin 9)
  /-- PMC_USER_WRITE_DENIED (R448): the offset in the window of F1. -/
  | pmcUserWriteDenied (off : Fin 32768) (v : Word)
  /-- F1_STATUS_WRITE (R23): the offset in the status window of F1. -/
  | f1StatusWrite (off : Fin 256) (v : Word)
  /-- PIN_FAULT_DECLARE (R488): pin `p`. -/
  | pinFaultDeclare (p : Fin 36) (f : PinFault)
  /-- PIN_FAULT_CLEAR (R488): pin `p`. -/
  | pinFaultClear (p : Fin 36) (f : PinFault)
  /-- PIN_REVERSED (R489): pin `p`. -/
  | pinReversed (p : Fin 36)
  /-- SHORT_RETEST (R491): output `n`; the short is gone. -/
  | shortRetest (n : Fin 10) (gone : Bool)
  /-- UNMAPPED_READ (R29): a read of `len` bytes from `addr` on. -/
  | unmappedRead (src : Src) (addr : Nat) (len : Nat)
  /-- RELAY_INPUT_EDGE (R172): relay input `n`; a rising edge, or a falling one; `ahead`: its real time after the
  present tick, in units of 1/65,536 ns. -/
  | relayInputEdge (n : Fin 10) (rise : Bool) (ahead : Nat)
  /-- OSC_FREQ_OK_RESTORED (R97). -/
  | oscFreqOkRestored
  deriving DecidableEq, Repr

end Sys2Proof
end

