-- ==== Sys2Proof/Decode.lean ====
section
/-! DEFINITION. What a word spells.  No row of the spec's table of commands has bits (its rows list no fields), so no
word spells a command. -/

namespace Sys2Proof

/-- The command that the word `w` of `nbits` bits spells: none, since the table gives no row any bits. -/
def decodeTableWord (_nbits _w : Nat) : Option Instr := none

end Sys2Proof
end

