-- ==== Sys2Proof/Machine/RegMap.lean ====
section
/-! DEFINITION. The register map of BAR0 (spec/18_register_map.md R450 to R471 and the field tables of
chapters 02 to 19): the byte address of every register and the position of every field.
`R.<REGISTER>` is a BAR0 byte address; an array register takes its index or indices.
`F.<REGISTER>_<FIELD>` is a field of that register (lowest bit, width). -/

namespace Sys2Proof.Machine

abbrev R.HIF_ID : Nat := 0x0
abbrev R.HIF_ACCESS_FAULT : Nat := 0x14
abbrev R.HIF_ACCESS_ADDR : Nat := 0x18
abbrev R.HIF_BUS_TIMEOUT : Nat := 0x10
abbrev R.HIF_XRESET_COUNT : Nat := 0x1C
abbrev R.HIF_LOCK : Nat := 0x4
abbrev R.HIF_CFG_CRC_CTRL : Nat := 0x20
abbrev R.HIF_CFG_CRC_COMMIT : Nat := 0x24
abbrev R.HIF_CFG_CRC_STATUS : Nat := 0x28
abbrev R.HIF_CFG_CRC_REF : Nat := 0x2C
abbrev R.HIF_CFG_CRC_LAST : Nat := 0x30
abbrev R.HIF_SUMMARY : Nat := 0x40
abbrev R.HIF_IRQ_EN : Nat := 0x44
abbrev R.HIF_RAW : Nat := 0x48
abbrev R.HIF_RAW_EN : Nat := 0x4C
abbrev R.HIF_FQ_REC0 : Nat := 0x50
abbrev R.HIF_FQ_REC1 : Nat := 0x54
abbrev R.HIF_FQ_REC2 : Nat := 0x58
abbrev R.HIF_FQ_REC3 : Nat := 0x5C
abbrev R.HIF_FQ_POP : Nat := 0x60
abbrev R.HIF_FQ_STATUS : Nat := 0x64
abbrev R.HIF_TEMP : Nat := 0x70
abbrev R.TSC_CTRL : Nat := 0x20000
abbrev R.TSC_STATUS : Nat := 0x20004
abbrev R.TSC_RAW : Nat := 0x20008
abbrev R.TSC_RAW_EN : Nat := 0x2000C
abbrev R.TSC_NOW_T0 : Nat := 0x20010
abbrev R.TSC_NOW_T1 : Nat := 0x20014
abbrev R.TSC_NOW_T2 : Nat := 0x20018
abbrev R.TSC_NOW_TICK_LO : Nat := 0x2001C
abbrev R.TSC_NOW_TICK_HI : Nat := 0x20020
abbrev R.TSC_RATE_HOST_LO : Nat := 0x20024
abbrev R.TSC_RATE_HOST_HI : Nat := 0x20028
abbrev R.TSC_RATE_EFF_LO : Nat := 0x2002C
abbrev R.TSC_RATE_EFF_HI : Nat := 0x20030
abbrev R.TSC_STEP_LO : Nat := 0x20034
abbrev R.TSC_STEP_HI : Nat := 0x20038
abbrev R.TSC_SET_T0 : Nat := 0x2003C
abbrev R.TSC_SET_T1 : Nat := 0x20040
abbrev R.TSC_SET_T2 : Nat := 0x20044
abbrev R.TSC_STEP_CTRL : Nat := 0x20048
abbrev R.TSC_STEP_STATUS : Nat := 0x2004C
abbrev R.TSC_OFFSET_ACC_LO : Nat := 0x20050
abbrev R.TSC_OFFSET_ACC_HI : Nat := 0x20054
abbrev R.TSC_LAST_STEP_LO : Nat := 0x20058
abbrev R.TSC_LAST_STEP_HI : Nat := 0x2005C
abbrev R.TSC_TRIPOD_CTRL : Nat := 0x20060
abbrev R.TSC_TRIPOD_INJECT : Nat := 0x20064
abbrev R.TSC_DISAGREE_CNT : Nat := 0x20068
abbrev R.REF_CTRL : Nat := 0x30000
abbrev R.REF_STATUS : Nat := 0x30004
abbrev R.REF_RAW : Nat := 0x30008
abbrev R.REF_RAW_EN : Nat := 0x3000C
abbrev R.REF_OSC_CFG : Nat := 0x30010
abbrev R.REF_OSC_STATUS : Nat := 0x30014
abbrev R.REF_GUARD : Nat := 0x30018
abbrev R.REF_SLEW_MAX : Nat := 0x3001C
abbrev R.REF_TIMERS : Nat := 0x30020
abbrev R.REF_LOCK : Nat := 0x30024
abbrev R.REF_LOOP : Nat := 0x30028
abbrev R.REF_FREQ_ACCEPT : Nat := 0x30030
abbrev R.REF_FREQ_REJECT : Nat := 0x30034
abbrev R.REF_FREQ_COARSE : Nat := 0x30038
abbrev R.REF_DRIFT : Nat := 0x3003C
abbrev R.REF_PHASE_LIM : Nat := 0x30040
abbrev R.REF_PHASE_WIN : Nat := 0x30044
abbrev R.REF_ACT : Nat := 0x30048
abbrev R.REF_ESMC_TX_EN : Nat := 0x30050
abbrev R.REF_ESMC_HOLD_QL : Nat := 0x30054
abbrev R.REF_PQL0 : Nat := 0x30060
abbrev R.REF_PQL1 : Nat := 0x30064
abbrev R.REF_PQL2 : Nat := 0x30068
abbrev R.REF_INn_CFG (n : Nat) : Nat := 0x30080 + 0x10 * n
abbrev R.REF_INn_FREQ (n : Nat) : Nat := 0x30084 + 0x10 * n
abbrev R.REF_INn_DIV (n : Nat) : Nat := 0x30088 + 0x10 * n
abbrev R.REF_INn_DELAY (n : Nat) : Nat := 0x3008C + 0x10 * n
abbrev R.REF_IN_REARM : Nat := 0x300C0
abbrev R.REF_PRIOn (n : Nat) : Nat := 0x30100 + 0x4 * n
abbrev R.REF_CANDk_STATUS (n : Nat) : Nat := 0x30200 + 0x4 * n
abbrev R.REF_CANDk_FREQ (n : Nat) : Nat := 0x30280 + 0x4 * n
abbrev R.HLD_CTRL : Nat := 0x38000
abbrev R.HLD_STATUS : Nat := 0x38004
abbrev R.HLD_RAW : Nat := 0x38008
abbrev R.HLD_RAW_EN : Nat := 0x3800C
abbrev R.HLD_QUAL : Nat := 0x38010
abbrev R.HLD_QUAL_HOLD : Nat := 0x38014
abbrev R.HLD_ANCHOR : Nat := 0x38018
abbrev R.HLD_TEMP_AXIS : Nat := 0x3801C
abbrev R.HLD_TEMP_NOW : Nat := 0x38020
abbrev R.HLD_F_LO : Nat := 0x38024
abbrev R.HLD_F_HI : Nat := 0x38028
abbrev R.HLD_A1 : Nat := 0x3802C
abbrev R.HLD_A2 : Nat := 0x38030
abbrev R.HLD_AGE_S : Nat := 0x38034
abbrev R.HLD_RESID : Nat := 0x38038
abbrev R.HLD_ELAPSED : Nat := 0x3803C
abbrev R.HLD_LAST_ERR_LO : Nat := 0x38040
abbrev R.HLD_LAST_ERR_HI : Nat := 0x38044
abbrev R.HLD_RATE_LO : Nat := 0x38048
abbrev R.HLD_RATE_HI : Nat := 0x3804C
abbrev R.HLD_PRE_F_LO : Nat := 0x38050
abbrev R.HLD_PRE_F_HI : Nat := 0x38054
abbrev R.HLD_PRE_A1 : Nat := 0x38058
abbrev R.HLD_PRE_A2 : Nat := 0x3805C
abbrev R.HLD_PRE_AGE_S : Nat := 0x38060
abbrev R.HLD_EMB_CFG : Nat := 0x38064
abbrev R.HLD_TTABb (n : Nat) : Nat := 0x38100 + 0x4 * n
abbrev R.HLD_PRE_TTABb (n : Nat) : Nat := 0x38180 + 0x4 * n
abbrev R.HLD_EMB_TIME_LO : Nat := 0x38400
abbrev R.HLD_EMB_TIME_HI : Nat := 0x38404
abbrev R.HLD_EMB_TRIM : Nat := 0x38408
abbrev R.HLD_EMB_STATUS : Nat := 0x3840C
abbrev R.HLD_EMB_FAIL_LO : Nat := 0x38410
abbrev R.HLD_EMB_FAIL_HI : Nat := 0x38414
abbrev R.HLD_EMB_CTRL : Nat := 0x38418
abbrev R.SYN_CTRL : Nat := 0x40000
abbrev R.SYN_STATUS : Nat := 0x40004
abbrev R.SYN_RAW : Nat := 0x40008
abbrev R.SYN_RAW_EN : Nat := 0x4000C
abbrev R.SYN_SETTLE : Nat := 0x40010
abbrev R.SYN_UPDATE : Nat := 0x40014
abbrev R.SYN_BRIDGE_LO : Nat := 0x40018
abbrev R.SYN_BRIDGE_HI : Nat := 0x4001C
abbrev R.SYN_On_CFG (n : Nat) : Nat := 0x40100 + 0x20 * n
abbrev R.SYN_On_INT (n : Nat) : Nat := 0x40104 + 0x20 * n
abbrev R.SYN_On_FRAC (n : Nat) : Nat := 0x40108 + 0x20 * n
abbrev R.SYN_On_DELAY (n : Nat) : Nat := 0x4010C + 0x20 * n
abbrev R.SYN_On_GUARD (n : Nat) : Nat := 0x40110 + 0x20 * n
abbrev R.SYN_On_WIDTH (n : Nat) : Nat := 0x40114 + 0x20 * n
abbrev R.SYN_On_COUNT (n : Nat) : Nat := 0x40118 + 0x20 * n
abbrev R.SYN_On_STATUS (n : Nat) : Nat := 0x4011C + 0x20 * n
abbrev R.PTS_CFG (n : Nat) : Nat := 0x50000 + 0x400 * n
abbrev R.PTS_STATUS (n : Nat) : Nat := 0x50004 + 0x400 * n
abbrev R.PTS_RAW (n : Nat) : Nat := 0x50008 + 0x400 * n
abbrev R.PTS_RAW_EN (n : Nat) : Nat := 0x5000C + 0x400 * n
abbrev R.PTS_TX_DLY_FAC (n : Nat) : Nat := 0x50010 + 0x400 * n
abbrev R.PTS_RX_DLY_FAC (n : Nat) : Nat := 0x50014 + 0x400 * n
abbrev R.PTS_TX_DLY_USER (n : Nat) : Nat := 0x50018 + 0x400 * n
abbrev R.PTS_RX_DLY_USER (n : Nat) : Nat := 0x5001C + 0x400 * n
abbrev R.PTS_TX_DLY_EFF (n : Nat) : Nat := 0x50020 + 0x400 * n
abbrev R.PTS_RX_DLY_EFF (n : Nat) : Nat := 0x50024 + 0x400 * n
abbrev R.PTS_ASYM (n : Nat) : Nat := 0x50028 + 0x400 * n
abbrev R.PTS_FTEMP_K (n : Nat) : Nat := 0x5002C + 0x400 * n
abbrev R.PTS_FTEMP_CAL (n : Nat) : Nat := 0x50030 + 0x400 * n
abbrev R.PTS_FTEMP_NOW (n : Nat) : Nat := 0x50034 + 0x400 * n
abbrev R.PTS_LD_CFG (n : Nat) : Nat := 0x50038 + 0x400 * n
abbrev R.PTS_LD_CNT (n : Nat) : Nat := 0x5003C + 0x400 * n
abbrev R.PTS_LD_MEAN_LO (n : Nat) : Nat := 0x50040 + 0x400 * n
abbrev R.PTS_LD_MEAN_HI (n : Nat) : Nat := 0x50044 + 0x400 * n
abbrev R.PTS_LD_IN_LO (n : Nat) : Nat := 0x50048 + 0x400 * n
abbrev R.PTS_LD_IN_HI (n : Nat) : Nat := 0x5004C + 0x400 * n
abbrev R.PTS_LD_OUT_LO (n : Nat) : Nat := 0x50050 + 0x400 * n
abbrev R.PTS_LD_OUT_HI (n : Nat) : Nat := 0x50054 + 0x400 * n
abbrev R.PTS_PD_PHASE (n : Nat) : Nat := 0x50058 + 0x400 * n
abbrev R.PTS_LOOP_CTRL (n : Nat) : Nat := 0x5005C + 0x400 * n
abbrev R.PTS_LOOP_STATUS (n : Nat) : Nat := 0x50060 + 0x400 * n
abbrev R.PTS_LOOP_MEAN_LO (n : Nat) : Nat := 0x50064 + 0x400 * n
abbrev R.PTS_LOOP_MEAN_HI (n : Nat) : Nat := 0x50068 + 0x400 * n
abbrev R.PTS_LOOP_SPAN (n : Nat) : Nat := 0x5006C + 0x400 * n
abbrev R.PTS_FIFO_HEAD0 (n : Nat) : Nat := 0x50070 + 0x400 * n
abbrev R.PTS_FIFO_HEAD1 (n : Nat) : Nat := 0x50074 + 0x400 * n
abbrev R.PTS_FIFO_HEAD2 (n : Nat) : Nat := 0x50078 + 0x400 * n
abbrev R.PTS_FIFO_HEAD3 (n : Nat) : Nat := 0x5007C + 0x400 * n
abbrev R.PTS_FIFO_POP (n : Nat) : Nat := 0x50080 + 0x400 * n
abbrev R.PTS_FIFO_STATUS (n : Nat) : Nat := 0x50084 + 0x400 * n
abbrev R.PTS_ONESTEP_CNT (n : Nat) : Nat := 0x50088 + 0x400 * n
abbrev R.PTP_CTRL : Nat := 0x60000
abbrev R.PTP_STATUS : Nat := 0x60004
abbrev R.PTP_RAW : Nat := 0x60008
abbrev R.PTP_RAW_EN : Nat := 0x6000C
abbrev R.PTP_CLOCK_ID_LO : Nat := 0x60010
abbrev R.PTP_CLOCK_ID_HI : Nat := 0x60014
abbrev R.PTP_SERVO_CFG : Nat := 0x60018
abbrev R.PTP_ACCEPT : Nat := 0x6001C
abbrev R.PTP_OFFSET_LO : Nat := 0x60020
abbrev R.PTP_OFFSET_HI : Nat := 0x60024
abbrev R.PTP_RATE_LO : Nat := 0x60028
abbrev R.PTP_RATE_HI : Nat := 0x6002C
abbrev R.PTP_TX_QUAL : Nat := 0x60030
abbrev R.PTP_TX_TIME : Nat := 0x60034
abbrev R.PTP_TX_HOLD : Nat := 0x60038
abbrev R.PTP_UTC : Nat := 0x6003C
abbrev R.PTP_CLAIM_ORG : Nat := 0x60040
abbrev R.PTP_CLAIM_GRPg (n : Nat) : Nat := 0x60050 + 0x4 * n
abbrev R.PTP_CLAIM_WINg (n : Nat) : Nat := 0x60060 + 0x4 * n
abbrev R.PTP_Pn_CFG (n : Nat) : Nat := 0x60400 + 0x40 * n
abbrev R.PTP_Pn_INTV (n : Nat) : Nat := 0x60404 + 0x40 * n
abbrev R.PTP_Pn_MASTER_LO (n : Nat) : Nat := 0x60408 + 0x40 * n
abbrev R.PTP_Pn_MASTER_HI (n : Nat) : Nat := 0x6040C + 0x40 * n
abbrev R.PTP_Pn_MASTER_PORT (n : Nat) : Nat := 0x60410 + 0x40 * n
abbrev R.PTP_Pn_STATUS (n : Nat) : Nat := 0x60414 + 0x40 * n
abbrev R.PTP_Pn_RAW (n : Nat) : Nat := 0x60418 + 0x40 * n
abbrev R.PTP_Pn_RAW_EN (n : Nat) : Nat := 0x6041C + 0x40 * n
abbrev R.PTP_Pn_PARENT_LO (n : Nat) : Nat := 0x60420 + 0x40 * n
abbrev R.PTP_Pn_PARENT_HI (n : Nat) : Nat := 0x60424 + 0x40 * n
abbrev R.PTP_Pn_PARENT_PORT (n : Nat) : Nat := 0x60428 + 0x40 * n
abbrev R.PTP_Pn_CLAIM (n : Nat) : Nat := 0x6042C + 0x40 * n
abbrev R.PTP_Pn_CNT_MSG (n : Nat) : Nat := 0x60430 + 0x40 * n
abbrev R.PTP_Pn_CNT_ERR (n : Nat) : Nat := 0x60434 + 0x40 * n
abbrev R.FWD_CTRL : Nat := 0x100000
abbrev R.FWD_STATUS : Nat := 0x100004
abbrev R.FWD_RAW : Nat := 0x100008
abbrev R.FWD_RAW_EN : Nat := 0x10000C
abbrev R.FWD_HASH_CFG : Nat := 0x100010
abbrev R.FWD_AGE : Nat := 0x100014
abbrev R.FWD_EPOCH : Nat := 0x100018
abbrev R.FWD_DRAIN : Nat := 0x10001C
abbrev R.FWD_RED_POOL : Nat := 0x100020
abbrev R.FWD_RED_FORGET : Nat := 0x100024
abbrev R.FWD_CNT_RXBAD : Nat := 0x100030
abbrev R.FWD_CNT_STOMP : Nat := 0x100034
abbrev R.FWD_CNT_FILTER : Nat := 0x100038
abbrev R.FWD_CNT_LEARN_FAIL : Nat := 0x10003C
abbrev R.FWD_CNT_DUP : Nat := 0x100040
abbrev R.FWD_CNT_STREAM_MISS : Nat := 0x100044
abbrev R.FWD_CNT_STAGE_ABORT : Nat := 0x100048
abbrev R.FWD_CNT_UNTRACKED : Nat := 0x10004C
abbrev R.FWD_CNT_WRONG_LAN : Nat := 0x100050
abbrev R.FWD_LAGg_MEMBERS (n : Nat) : Nat := 0x100080 + 0x4 * n
abbrev R.FWD_LAGg_ACTIVE (n : Nat) : Nat := 0x1000A0 + 0x4 * n
abbrev R.FWD_REDr_CFG (n : Nat) : Nat := 0x1000C0 + 0x4 * n
abbrev R.FWD_PORTn_CFG (n : Nat) : Nat := 0x100400 + 0x10 * n
abbrev R.FWD_PORTn_PCPMAP (n : Nat) : Nat := 0x100404 + 0x10 * n
abbrev R.FWD_PORTn_STATE (n : Nat) : Nat := 0x100408 + 0x10 * n
abbrev R.FWD_VLANv_MEMBER (n : Nat) : Nat := 0x110000 + 0x10 * n
abbrev R.FWD_VLANv_UNTAG (n : Nat) : Nat := 0x110004 + 0x10 * n
abbrev R.FWD_VLANv_CTRL (n : Nat) : Nat := 0x110008 + 0x10 * n
abbrev R.QUE_CTRL : Nat := 0x200000
abbrev R.QUE_STATUS : Nat := 0x200004
abbrev R.QUE_RAW : Nat := 0x200008
abbrev R.QUE_RAW_EN : Nat := 0x20000C
abbrev R.QUE_HERD_CELLS : Nat := 0x200010
abbrev R.QUE_SHARED : Nat := 0x200014
abbrev R.QUE_SHARED_FREE : Nat := 0x200018
abbrev R.QUE_HEADROOM_SUM : Nat := 0x20001C
abbrev R.QUE_POOL_HYST : Nat := 0x200020
abbrev R.QUE_SPILL_CFG : Nat := 0x200024
abbrev R.QUE_STALL_CFG : Nat := 0x200028
abbrev R.QUE_DRAM_CFG : Nat := 0x200030
abbrev R.QUE_PART : Nat := 0x200034
abbrev R.QUE_DRAM_STATUS : Nat := 0x200038
abbrev R.QUE_SPILL_USED : Nat := 0x20003C
abbrev R.QUE_AGE_LIMITc (n : Nat) : Nat := 0x200100 + 0x4 * n
abbrev R.QUE_Pn_PFC_CFG (n : Nat) : Nat := 0x200400 + 0x20 * n
abbrev R.QUE_Pn_XOFF (n : Nat) : Nat := 0x200404 + 0x20 * n
abbrev R.QUE_Pn_XON (n : Nat) : Nat := 0x200408 + 0x20 * n
abbrev R.QUE_Pn_HEADROOM (n : Nat) : Nat := 0x20040C + 0x20 * n
abbrev R.QUE_Pn_CNT_PFC (n : Nat) : Nat := 0x200410 + 0x20 * n
abbrev R.QUE_Pn_CNT_AGED (n : Nat) : Nat := 0x200414 + 0x20 * n
abbrev R.QUE_Pn_CNT_REFUSED (n : Nat) : Nat := 0x200418 + 0x20 * n
abbrev R.QUE_Pn_PAUSE_STATUS (n : Nat) : Nat := 0x20041C + 0x20 * n
abbrev R.QUE_Qq_MIN (n : Nat) : Nat := 0x201000 + 0x4 * n
abbrev R.QUE_Qq_ONDIE (n : Nat) : Nat := 0x201400 + 0x4 * n
abbrev R.QUE_Qq_SPILL (n : Nat) : Nat := 0x201800 + 0x4 * n
abbrev R.QUE_INn_Up (n k : Nat) : Nat := 0x202000 + 0x20 * n + 0x4 * k
abbrev R.HRD_CTRL : Nat := 0x280000
abbrev R.HRD_CAL : Nat := 0x280004
abbrev R.HRD_RAW : Nat := 0x280008
abbrev R.HRD_RAW_EN : Nat := 0x28000C
abbrev R.HRD_NODE_ID : Nat := 0x280010
abbrev R.HRD_EARLY : Nat := 0x280014
abbrev R.HRD_CNT_LATE : Nat := 0x280020
abbrev R.HRD_CNT_DISCARD : Nat := 0x280024
abbrev R.HRD_CNT_PASSED : Nat := 0x280028
abbrev R.HRD_CNT_DEFER : Nat := 0x28002C
abbrev R.HRD_CNT_TAG_BAD : Nat := 0x280030
abbrev R.HRD_CNT_FOREIGN : Nat := 0x280034
abbrev R.HRD_CNT_CLAIM : Nat := 0x280038
abbrev R.HRD_CNT_OVERSIZE : Nat := 0x28003C
abbrev R.HRD_LAST_LATE : Nat := 0x280040
abbrev R.HRD_BUDGETb (n : Nat) : Nat := 0x280100 + 0x4 * n
abbrev R.HRD_PORTn_CFG (n : Nat) : Nat := 0x280400 + 0x10 * n
abbrev R.HRD_PORTn_RESV (n : Nat) : Nat := 0x280404 + 0x10 * n
abbrev R.HRD_PORTn_STATUS (n : Nat) : Nat := 0x280408 + 0x10 * n
abbrev R.SPR_CTRL : Nat := 0x300000
abbrev R.SPR_STATUS : Nat := 0x300004
abbrev R.SPR_RAW : Nat := 0x300008
abbrev R.SPR_RAW_EN : Nat := 0x30000C
abbrev R.SPR_CMD : Nat := 0x300010
abbrev R.SPR_SIZE : Nat := 0x300014
abbrev R.SPR_BASE : Nat := 0x300018
abbrev R.SPR_WR_COUNT_LO : Nat := 0x300020
abbrev R.SPR_WR_COUNT_HI : Nat := 0x300024
abbrev R.SPR_RD_COUNT_LO : Nat := 0x300028
abbrev R.SPR_RD_COUNT_HI : Nat := 0x30002C
abbrev R.SPR_TRIG_COUNT_LO : Nat := 0x300030
abbrev R.SPR_TRIG_COUNT_HI : Nat := 0x300034
abbrev R.SPR_POST : Nat := 0x300038
abbrev R.SPR_TRIG_EN : Nat := 0x30003C
abbrev R.SPR_TRIG_FAULT_MASK : Nat := 0x300040
abbrev R.SPR_TRIG_ADDR : Nat := 0x300044
abbrev R.SPR_TRIG_STATUS : Nat := 0x300048
abbrev R.SPR_SEL : Nat := 0x300050
abbrev R.SPR_SEL_PORT_IN : Nat := 0x300054
abbrev R.SPR_SEL_PORT_OUT : Nat := 0x300058
abbrev R.SPR_SEL_TDC : Nat := 0x30005C
abbrev R.SPR_UNC : Nat := 0x300060
abbrev R.SPR_CNT_LOST_SEL : Nat := 0x300070
abbrev R.SPR_CNT_LOST_MAND : Nat := 0x300074
abbrev R.SPR_CNT_FROZEN : Nat := 0x300078
abbrev R.SPR_FETCH_IDX_LO : Nat := 0x300080
abbrev R.SPR_FETCH_IDX_HI : Nat := 0x300084
abbrev R.SPR_FETCH_STATUS : Nat := 0x300088
abbrev R.SPR_FETCH_Wk (n : Nat) : Nat := 0x300090 + 0x4 * n
abbrev R.TDC_CTRL : Nat := 0x380000
abbrev R.TDC_STATUS : Nat := 0x380004
abbrev R.TDC_RAW : Nat := 0x380008
abbrev R.TDC_RAW_EN : Nat := 0x38000C
abbrev R.TDC_REARM : Nat := 0x380010
abbrev R.TDC_En_CFG (n : Nat) : Nat := 0x380100 + 0x20 * n
abbrev R.TDC_En_DLY_FAC (n : Nat) : Nat := 0x380104 + 0x20 * n
abbrev R.TDC_En_DLY_USER (n : Nat) : Nat := 0x380108 + 0x20 * n
abbrev R.TDC_En_DLY_EFF (n : Nat) : Nat := 0x38010C + 0x20 * n
abbrev R.TDC_En_STATUS (n : Nat) : Nat := 0x380110 + 0x20 * n
abbrev R.TDC_En_CAL_S1 (n : Nat) : Nat := 0x380114 + 0x20 * n
abbrev R.TDC_En_CAL_SPAN (n : Nat) : Nat := 0x380118 + 0x20 * n
abbrev R.TDC_En_LIMITS (n : Nat) : Nat := 0x38011C + 0x20 * n
abbrev R.TDC_En_FIFO_LO (n : Nat) : Nat := 0x380200 + 0x10 * n
abbrev R.TDC_En_FIFO_HI (n : Nat) : Nat := 0x380204 + 0x10 * n
abbrev R.TDC_En_FIFO_STATUS (n : Nat) : Nat := 0x380208 + 0x10 * n
abbrev R.TDC_En_FIFO_POP (n : Nat) : Nat := 0x38020C + 0x10 * n
abbrev R.TDC_En_CNT (n : Nat) : Nat := 0x380280 + 0x4 * n
abbrev R.TDC_En_EVENTS (n : Nat) : Nat := 0x3802A0 + 0x4 * n
abbrev R.TDC_Mm_CFG (n : Nat) : Nat := 0x380400 + 0x80 * n
abbrev R.TDC_Mm_OPEN (n : Nat) : Nat := 0x380404 + 0x80 * n
abbrev R.TDC_Mm_CLOSE (n : Nat) : Nat := 0x380408 + 0x80 * n
abbrev R.TDC_Mm_STAT_N (n : Nat) : Nat := 0x38040C + 0x80 * n
abbrev R.TDC_Mm_STATUS (n : Nat) : Nat := 0x380410 + 0x80 * n
abbrev R.TDC_Mm_CNT (n : Nat) : Nat := 0x380414 + 0x80 * n
abbrev R.TDC_Mm_STAT_USED (n : Nat) : Nat := 0x380418 + 0x80 * n
abbrev R.TDC_Mm_STAT_PROG (n : Nat) : Nat := 0x38041C + 0x80 * n
abbrev R.TDC_Mm_LIM_MIN_LO (n : Nat) : Nat := 0x380420 + 0x80 * n
abbrev R.TDC_Mm_LIM_MIN_HI (n : Nat) : Nat := 0x380424 + 0x80 * n
abbrev R.TDC_Mm_LIM_MAX_LO (n : Nat) : Nat := 0x380428 + 0x80 * n
abbrev R.TDC_Mm_LIM_MAX_HI (n : Nat) : Nat := 0x38042C + 0x80 * n
abbrev R.TDC_Mm_LAST_LO (n : Nat) : Nat := 0x380430 + 0x80 * n
abbrev R.TDC_Mm_LAST_HI (n : Nat) : Nat := 0x380434 + 0x80 * n
abbrev R.TDC_Mm_MEAN_LO (n : Nat) : Nat := 0x380438 + 0x80 * n
abbrev R.TDC_Mm_MEAN_HI (n : Nat) : Nat := 0x38043C + 0x80 * n
abbrev R.TDC_Mm_SD_LO (n : Nat) : Nat := 0x380440 + 0x80 * n
abbrev R.TDC_Mm_SD_HI (n : Nat) : Nat := 0x380444 + 0x80 * n
abbrev R.TDC_Mm_MIN_LO (n : Nat) : Nat := 0x380448 + 0x80 * n
abbrev R.TDC_Mm_MIN_HI (n : Nat) : Nat := 0x38044C + 0x80 * n
abbrev R.TDC_Mm_MAX_LO (n : Nat) : Nat := 0x380450 + 0x80 * n
abbrev R.TDC_Mm_MAX_HI (n : Nat) : Nat := 0x380454 + 0x80 * n
abbrev R.GUY_CTRL : Nat := 0x3C0000
abbrev R.GUY_STATUS : Nat := 0x3C0004
abbrev R.GUY_RAW : Nat := 0x3C0008
abbrev R.GUY_RAW_EN : Nat := 0x3C000C
abbrev R.GUY_SKEW : Nat := 0x3C0010
abbrev R.GUY_LANE_MAP : Nat := 0x3C0014
abbrev R.GUY_TX_DLY_FAC : Nat := 0x3C0018
abbrev R.GUY_RX_DLY_FAC : Nat := 0x3C001C
abbrev R.GUY_TX_DLY_USER : Nat := 0x3C0020
abbrev R.GUY_RX_DLY_USER : Nat := 0x3C0024
abbrev R.GUY_TX_DLY_EFF : Nat := 0x3C0028
abbrev R.GUY_RX_DLY_EFF : Nat := 0x3C002C
abbrev R.GUY_OFFSET_LO : Nat := 0x3C0030
abbrev R.GUY_OFFSET_HI : Nat := 0x3C0034
abbrev R.GUY_PARTNER : Nat := 0x3C0038
abbrev R.GUY_CNT_ERR : Nat := 0x3C003C
abbrev R.GUY_CNT_DOWN : Nat := 0x3C0040
abbrev R.RUT_CTRL : Nat := 0x3D0000
abbrev R.RUT_PAIR : Nat := 0x3D0004
abbrev R.RUT_TIMERS : Nat := 0x3D0008
abbrev R.RUT_COPY : Nat := 0x3D000C
abbrev R.RUT_STATUS : Nat := 0x3D0010
abbrev R.RUT_RAW : Nat := 0x3D0014
abbrev R.RUT_RAW_EN : Nat := 0x3D0018
abbrev R.RUT_CLAIM : Nat := 0x3D001C
abbrev R.RUT_PARTNER_CLAIM : Nat := 0x3D0020
abbrev R.RUT_CMD : Nat := 0x3D0024
abbrev R.RUT_APPLIED : Nat := 0x3D0028
abbrev R.RUT_CNT : Nat := 0x3D002C
abbrev R.RUT_LAST_SWITCH : Nat := 0x3D0030
abbrev R.BOOT_STATUS : Nat := 0x10000
abbrev R.BOOT_RAW : Nat := 0x10004
abbrev R.BOOT_RAW_EN : Nat := 0x10008
abbrev R.BOOT_CMD : Nat := 0x1000C
abbrev R.BOOT_RESET_CAUSE : Nat := 0x10010
abbrev R.BOOT_TIME : Nat := 0x10014
abbrev R.BOOT_PACK_ID : Nat := 0x10018
abbrev R.BOOT_PACK_LEN : Nat := 0x1001C
abbrev R.BOOT_FAIL_OFFSET : Nat := 0x10020
abbrev R.BOOT_FAIL_CRC_STORED : Nat := 0x10024
abbrev R.BOOT_FAIL_CRC_CALC : Nat := 0x10028
abbrev R.BOOT_FLASH_INFO : Nat := 0x10030
abbrev R.BOOT_FLASH_CTRL : Nat := 0x10034
abbrev R.BOOT_FLASH_ADDR : Nat := 0x10038
abbrev R.BOOT_FLASH_STATUS : Nat := 0x1003C
abbrev R.BOOT_FLASH_BUFk (n : Nat) : Nat := 0x10100 + 0x4 * n
abbrev R.CAL_OTP_STATUS : Nat := 0x18000
abbrev R.CAL_UID_LO : Nat := 0x18004
abbrev R.CAL_UID_HI : Nat := 0x18008
abbrev R.CAL_TEMP_FAC : Nat := 0x1800C
abbrev R.CAL_TEMP_USER : Nat := 0x18010
abbrev R.CAL_TEMP_EFF : Nat := 0x18014
abbrev R.CAL_On_PATH (n : Nat) : Nat := 0x18040 + 0x4 * n
abbrev R.CAL_On_RLY (n : Nat) : Nat := 0x18080 + 0x4 * n
abbrev R.PMC_Gg_CYCLE_LO (n : Nat) : Nat := 0x80000 + 0x100 * n
abbrev R.PMC_Gg_CYCLE_HI (n : Nat) : Nat := 0x80004 + 0x100 * n
abbrev R.PMC_Gg_CNTk_LO (n k : Nat) : Nat := 0x80008 + 0x100 * n + 0x8 * k
abbrev R.PMC_Gg_CNTk_HI (n k : Nat) : Nat := 0x8000C + 0x100 * n + 0x8 * k
abbrev R.PMC_Gg_SNAP_CYCLE_LO (n : Nat) : Nat := 0x80400 + 0x100 * n
abbrev R.PMC_Gg_SNAP_CYCLE_HI (n : Nat) : Nat := 0x80404 + 0x100 * n
abbrev R.PMC_Gg_SNAP_CNTk_LO (n k : Nat) : Nat := 0x80408 + 0x100 * n + 0x8 * k
abbrev R.PMC_Gg_SNAP_CNTk_HI (n k : Nat) : Nat := 0x8040C + 0x100 * n + 0x8 * k
abbrev R.PMC_Gg_SELk (n k : Nat) : Nat := 0x80048 + 0x100 * n + 0x4 * k
abbrev R.PMC_SNAP : Nat := 0x80800
abbrev R.PMC_CTRL : Nat := 0x80804
abbrev R.PMC_OVF : Nat := 0x80808
abbrev R.PMC_OVF_IE : Nat := 0x8080C
abbrev R.PMC_RAW : Nat := 0x80810
abbrev R.PMC_RAW_EN : Nat := 0x80814
abbrev R.PMC_SNAP_SEQ : Nat := 0x80818
abbrev R.PMC_SNAP_TIME_LO : Nat := 0x80820
abbrev R.PMC_SNAP_TIME_HI : Nat := 0x80824
abbrev R.PMC_USER_EN : Nat := 0x88000
abbrev R.MAC_Pn_CFG (n : Nat) : Nat := 0x400000 + 0x4000 * n
abbrev R.MAC_Pn_STATUS (n : Nat) : Nat := 0x400004 + 0x4000 * n
abbrev R.MAC_Pn_RAW (n : Nat) : Nat := 0x400008 + 0x4000 * n
abbrev R.MAC_Pn_RAW_EN (n : Nat) : Nat := 0x40000C + 0x4000 * n
abbrev R.MAC_Pn_RX_FRAMES (n : Nat) : Nat := 0x400010 + 0x4000 * n
abbrev R.MAC_Pn_TX_FRAMES (n : Nat) : Nat := 0x400014 + 0x4000 * n
abbrev R.MAC_Pn_PCS_ERR (n : Nat) : Nat := 0x400018 + 0x4000 * n
abbrev R.MAC_Pn_FEC_CORR (n : Nat) : Nat := 0x40001C + 0x4000 * n
abbrev R.MAC_Pn_FEC_UNCORR (n : Nat) : Nat := 0x400020 + 0x4000 * n
abbrev R.IOP_CTRL : Nat := 0x3E0000
abbrev R.IOP_STATUS : Nat := 0x3E0004
abbrev R.IOP_RAW : Nat := 0x3E0008
abbrev R.IOP_RAW_EN : Nat := 0x3E000C
abbrev R.IOP_PINp_CFG (n : Nat) : Nat := 0x3E0100 + 0x8 * n
abbrev R.IOP_PINp_STATUS (n : Nat) : Nat := 0x3E0104 + 0x8 * n
abbrev R.HIF_DMAk_BASE_LO (n : Nat) : Nat := 0x100 + 0x40 * n
abbrev R.HIF_DMAk_BASE_HI (n : Nat) : Nat := 0x104 + 0x40 * n
abbrev R.HIF_DMAk_SIZE (n : Nat) : Nat := 0x108 + 0x40 * n
abbrev R.HIF_DMAk_CTRL (n : Nat) : Nat := 0x10C + 0x40 * n
abbrev R.HIF_DMAk_TAIL (n : Nat) : Nat := 0x110 + 0x40 * n
abbrev R.HIF_DMAk_HEAD (n : Nat) : Nat := 0x114 + 0x40 * n
abbrev R.HIF_DMAk_WB_LO (n : Nat) : Nat := 0x118 + 0x40 * n
abbrev R.HIF_DMAk_WB_HI (n : Nat) : Nat := 0x11C + 0x40 * n
abbrev R.HIF_DMAk_STATUS (n : Nat) : Nat := 0x120 + 0x40 * n

abbrev F.HIF_ID_PART : Fld := ⟨16, 16⟩
abbrev F.HIF_ID_STEPPING : Fld := ⟨8, 8⟩
abbrev F.HIF_ID_FAMILY : Fld := ⟨4, 4⟩
abbrev F.HIF_ACCESS_FAULT_TIMEOUT : Fld := ⟨24, 8⟩
abbrev F.HIF_ACCESS_FAULT_LOCKED_WR : Fld := ⟨16, 8⟩
abbrev F.HIF_ACCESS_FAULT_UNMAPPED : Fld := ⟨8, 8⟩
abbrev F.HIF_ACCESS_FAULT_NARROW_WR : Fld := ⟨0, 8⟩
abbrev F.HIF_ACCESS_ADDR_SOURCE : Fld := ⟨30, 2⟩
abbrev F.HIF_ACCESS_ADDR_KIND : Fld := ⟨28, 2⟩
abbrev F.HIF_ACCESS_ADDR_ADDR : Fld := ⟨0, 24⟩
abbrev F.HIF_BUS_TIMEOUT_TIMEOUT_US : Fld := ⟨0, 14⟩
abbrev F.HIF_XRESET_COUNT_COUNT : Fld := ⟨0, 16⟩
abbrev F.HIF_LOCK_LOCK : Fld := ⟨0, 1⟩
abbrev F.HIF_CFG_CRC_CTRL_ACTION : Fld := ⟨0, 2⟩
abbrev F.HIF_CFG_CRC_COMMIT_UNFREEZE : Fld := ⟨1, 1⟩
abbrev F.HIF_CFG_CRC_COMMIT_COMMIT : Fld := ⟨0, 1⟩
abbrev F.HIF_CFG_CRC_STATUS_FROZEN : Fld := ⟨2, 1⟩
abbrev F.HIF_CFG_CRC_STATUS_STATE : Fld := ⟨0, 2⟩
abbrev F.HIF_CFG_CRC_REF_REF : Fld := ⟨0, 32⟩
abbrev F.HIF_CFG_CRC_LAST_LAST : Fld := ⟨0, 32⟩
abbrev F.HIF_SUMMARY_FQ : Fld := ⟨18, 1⟩
abbrev F.HIF_SUMMARY_MAC : Fld := ⟨17, 1⟩
abbrev F.HIF_SUMMARY_IOP : Fld := ⟨16, 1⟩
abbrev F.HIF_SUMMARY_RUT : Fld := ⟨15, 1⟩
abbrev F.HIF_SUMMARY_GUY : Fld := ⟨14, 1⟩
abbrev F.HIF_SUMMARY_TDC : Fld := ⟨13, 1⟩
abbrev F.HIF_SUMMARY_SPR : Fld := ⟨12, 1⟩
abbrev F.HIF_SUMMARY_HRD : Fld := ⟨11, 1⟩
abbrev F.HIF_SUMMARY_QUE : Fld := ⟨10, 1⟩
abbrev F.HIF_SUMMARY_FWD : Fld := ⟨9, 1⟩
abbrev F.HIF_SUMMARY_PMC : Fld := ⟨8, 1⟩
abbrev F.HIF_SUMMARY_PTP : Fld := ⟨7, 1⟩
abbrev F.HIF_SUMMARY_PTS : Fld := ⟨6, 1⟩
abbrev F.HIF_SUMMARY_SYN : Fld := ⟨5, 1⟩
abbrev F.HIF_SUMMARY_HLD : Fld := ⟨4, 1⟩
abbrev F.HIF_SUMMARY_REF : Fld := ⟨3, 1⟩
abbrev F.HIF_SUMMARY_TSC : Fld := ⟨2, 1⟩
abbrev F.HIF_SUMMARY_BOOT : Fld := ⟨1, 1⟩
abbrev F.HIF_SUMMARY_HIF : Fld := ⟨0, 1⟩
abbrev F.HIF_IRQ_EN_EN : Fld := ⟨0, 19⟩
abbrev F.HIF_RAW_XRESET : Fld := ⟨7, 1⟩
abbrev F.HIF_RAW_CRC_MISMATCH : Fld := ⟨6, 1⟩
abbrev F.HIF_RAW_TIMEOUT : Fld := ⟨5, 1⟩
abbrev F.HIF_RAW_LOCKED_WR : Fld := ⟨4, 1⟩
abbrev F.HIF_RAW_NARROW_WR : Fld := ⟨3, 1⟩
abbrev F.HIF_RAW_UNMAPPED : Fld := ⟨2, 1⟩
abbrev F.HIF_RAW_FQ_OVERFLOW : Fld := ⟨1, 1⟩
abbrev F.HIF_RAW_LINK_DOWN : Fld := ⟨0, 1⟩
abbrev F.HIF_RAW_EN_EN : Fld := ⟨0, 8⟩
abbrev F.HIF_FQ_REC0_WORD : Fld := ⟨0, 32⟩
abbrev F.HIF_FQ_REC1_WORD : Fld := ⟨0, 32⟩
abbrev F.HIF_FQ_REC2_WORD : Fld := ⟨0, 32⟩
abbrev F.HIF_FQ_REC3_WORD : Fld := ⟨0, 32⟩
abbrev F.HIF_FQ_POP_POP : Fld := ⟨0, 1⟩
abbrev F.HIF_FQ_STATUS_OVERFLOW : Fld := ⟨16, 16⟩
abbrev F.HIF_FQ_STATUS_DEPTH : Fld := ⟨0, 6⟩
abbrev F.HIF_TEMP_DIE_TEMP : Fld := ⟨0, 16⟩
abbrev F.TSC_CTRL_STEER : Fld := ⟨0, 1⟩
abbrev F.TSC_STATUS_SUSPECT : Fld := ⟨5, 1⟩
abbrev F.TSC_STATUS_MODE : Fld := ⟨4, 1⟩
abbrev F.TSC_STATUS_FENCED : Fld := ⟨0, 3⟩
abbrev F.TSC_RAW_REFUSED : Fld := ⟨7, 1⟩
abbrev F.TSC_RAW_FAR_RANGE : Fld := ⟨6, 1⟩
abbrev F.TSC_RAW_NO_MAJORITY : Fld := ⟨5, 1⟩
abbrev F.TSC_RAW_DUPLEX_MISMATCH : Fld := ⟨4, 1⟩
abbrev F.TSC_RAW_FENCE : Fld := ⟨3, 1⟩
abbrev F.TSC_RAW_DISAGREE : Fld := ⟨2, 1⟩
abbrev F.TSC_RAW_STEP_DONE : Fld := ⟨1, 1⟩
abbrev F.TSC_RAW_SECOND : Fld := ⟨0, 1⟩
abbrev F.TSC_RAW_EN_EN : Fld := ⟨0, 8⟩
abbrev F.TSC_NOW_T0_WORD : Fld := ⟨0, 32⟩
abbrev F.TSC_NOW_T1_WORD : Fld := ⟨0, 32⟩
abbrev F.TSC_NOW_T2_WORD : Fld := ⟨0, 32⟩
abbrev F.TSC_NOW_TICK_LO_TICK : Fld := ⟨0, 32⟩
abbrev F.TSC_NOW_TICK_HI_TICK : Fld := ⟨0, 32⟩
abbrev F.TSC_RATE_HOST_LO_RATE : Fld := ⟨0, 32⟩
abbrev F.TSC_RATE_HOST_HI_RATE : Fld := ⟨0, 32⟩
abbrev F.TSC_RATE_EFF_LO_RATE : Fld := ⟨0, 32⟩
abbrev F.TSC_RATE_EFF_HI_RATE : Fld := ⟨0, 32⟩
abbrev F.TSC_STEP_LO_STEP : Fld := ⟨0, 32⟩
abbrev F.TSC_STEP_HI_STEP : Fld := ⟨0, 32⟩
abbrev F.TSC_SET_T0_WORD : Fld := ⟨0, 32⟩
abbrev F.TSC_SET_T1_WORD : Fld := ⟨0, 32⟩
abbrev F.TSC_SET_T2_WORD : Fld := ⟨0, 32⟩
abbrev F.TSC_STEP_CTRL_CANCEL : Fld := ⟨3, 1⟩
abbrev F.TSC_STEP_CTRL_GO : Fld := ⟨2, 1⟩
abbrev F.TSC_STEP_CTRL_MODE : Fld := ⟨0, 2⟩
abbrev F.TSC_STEP_STATUS_REFUSED : Fld := ⟨16, 16⟩
abbrev F.TSC_STEP_STATUS_LAST_SRC : Fld := ⟨4, 3⟩
abbrev F.TSC_STEP_STATUS_PENDING : Fld := ⟨0, 1⟩
abbrev F.TSC_OFFSET_ACC_LO_OFFSET : Fld := ⟨0, 32⟩
abbrev F.TSC_OFFSET_ACC_HI_OFFSET : Fld := ⟨0, 32⟩
abbrev F.TSC_LAST_STEP_LO_STEP : Fld := ⟨0, 32⟩
abbrev F.TSC_LAST_STEP_HI_STEP : Fld := ⟨0, 32⟩
abbrev F.TSC_TRIPOD_CTRL_CLR_SUSPECT : Fld := ⟨11, 1⟩
abbrev F.TSC_TRIPOD_CTRL_RESTORE : Fld := ⟨8, 3⟩
abbrev F.TSC_TRIPOD_CTRL_FENCE : Fld := ⟨4, 3⟩
abbrev F.TSC_TRIPOD_INJECT_ARM : Fld := ⟨31, 1⟩
abbrev F.TSC_TRIPOD_INJECT_COPY : Fld := ⟨8, 2⟩
abbrev F.TSC_TRIPOD_INJECT_BIT : Fld := ⟨0, 8⟩
abbrev F.TSC_DISAGREE_CNT_DUPLEX : Fld := ⟨24, 8⟩
abbrev F.TSC_DISAGREE_CNT_COPY2 : Fld := ⟨16, 8⟩
abbrev F.TSC_DISAGREE_CNT_COPY1 : Fld := ⟨8, 8⟩
abbrev F.TSC_DISAGREE_CNT_COPY0 : Fld := ⟨0, 8⟩
abbrev F.REF_CTRL_FORCE_EN : Fld := ⟨8, 1⟩
abbrev F.REF_CTRL_FORCE_ENTRY : Fld := ⟨4, 4⟩
abbrev F.REF_CTRL_REVERTIVE : Fld := ⟨1, 1⟩
abbrev F.REF_CTRL_ENABLE : Fld := ⟨0, 1⟩
abbrev F.REF_STATUS_SEL_ENTRY : Fld := ⟨16, 4⟩
abbrev F.REF_STATUS_SEL_CLASS : Fld := ⟨14, 2⟩
abbrev F.REF_STATUS_SEL_CAND : Fld := ⟨8, 6⟩
abbrev F.REF_STATUS_GUARDING : Fld := ⟨7, 1⟩
abbrev F.REF_STATUS_FORCED : Fld := ⟨6, 1⟩
abbrev F.REF_STATUS_OSC_READY : Fld := ⟨5, 1⟩
abbrev F.REF_STATUS_COND : Fld := ⟨3, 2⟩
abbrev F.REF_STATUS_STATE : Fld := ⟨0, 3⟩
abbrev F.REF_RAW_OSC_FREQ_ERR : Fld := ⟨11, 1⟩
abbrev F.REF_RAW_OVR_DISABLE : Fld := ⟨10, 1⟩
abbrev F.REF_RAW_OVERRUN : Fld := ⟨9, 1⟩
abbrev F.REF_RAW_STUCK : Fld := ⟨8, 1⟩
abbrev F.REF_RAW_WARM : Fld := ⟨7, 1⟩
abbrev F.REF_RAW_COND_CHANGE : Fld := ⟨6, 1⟩
abbrev F.REF_RAW_GUARD : Fld := ⟨5, 1⟩
abbrev F.REF_RAW_HOLDOVER_ENTRY : Fld := ⟨4, 1⟩
abbrev F.REF_RAW_SWITCH : Fld := ⟨3, 1⟩
abbrev F.REF_RAW_LOCK : Fld := ⟨2, 1⟩
abbrev F.REF_RAW_DISQUAL : Fld := ⟨1, 1⟩
abbrev F.REF_RAW_QUALIFY : Fld := ⟨0, 1⟩
abbrev F.REF_RAW_EN_EN : Fld := ⟨0, 12⟩
abbrev F.REF_OSC_CFG_WARM_TIMEOUT_S : Fld := ⟨16, 16⟩
abbrev F.REF_OSC_CFG_MASK_SELF : Fld := ⟨3, 1⟩
abbrev F.REF_OSC_CFG_MASK_PIN : Fld := ⟨2, 1⟩
abbrev F.REF_OSC_CFG_FREQ : Fld := ⟨0, 2⟩
abbrev F.REF_OSC_STATUS_BY_TIMEOUT : Fld := ⟨4, 1⟩
abbrev F.REF_OSC_STATUS_FREQ_OK : Fld := ⟨3, 1⟩
abbrev F.REF_OSC_STATUS_SELF_WARM : Fld := ⟨2, 1⟩
abbrev F.REF_OSC_STATUS_PIN : Fld := ⟨1, 1⟩
abbrev F.REF_OSC_STATUS_READY : Fld := ⟨0, 1⟩
abbrev F.REF_GUARD_GUARD_NS : Fld := ⟨0, 29⟩
abbrev F.REF_SLEW_MAX_SLEW_MAX : Fld := ⟨0, 14⟩
abbrev F.REF_TIMERS_WTR_S : Fld := ⟨16, 16⟩
abbrev F.REF_TIMERS_HOLDOFF_S : Fld := ⟨0, 16⟩
abbrev F.REF_LOCK_LOCK_NS : Fld := ⟨16, 16⟩
abbrev F.REF_LOCK_LOCK_S : Fld := ⟨8, 8⟩
abbrev F.REF_LOOP_BW_TIME : Fld := ⟨8, 4⟩
abbrev F.REF_LOOP_BW_PHASE : Fld := ⟨4, 4⟩
abbrev F.REF_LOOP_BW_FREQ : Fld := ⟨0, 4⟩
abbrev F.REF_FREQ_ACCEPT_LIMIT : Fld := ⟨0, 24⟩
abbrev F.REF_FREQ_REJECT_LIMIT : Fld := ⟨0, 24⟩
abbrev F.REF_FREQ_COARSE_LIMIT : Fld := ⟨0, 24⟩
abbrev F.REF_DRIFT_LIMIT : Fld := ⟨0, 16⟩
abbrev F.REF_PHASE_LIM_REJECT_NS : Fld := ⟨16, 16⟩
abbrev F.REF_PHASE_LIM_ACCEPT_NS : Fld := ⟨0, 16⟩
abbrev F.REF_PHASE_WIN_WINDOW_S : Fld := ⟨0, 16⟩
abbrev F.REF_ACT_ACCEPT : Fld := ⟨8, 8⟩
abbrev F.REF_ACT_REJECT : Fld := ⟨0, 8⟩
abbrev F.REF_ESMC_TX_EN_EN : Fld := ⟨0, 24⟩
abbrev F.REF_ESMC_HOLD_QL_PTP_QL : Fld := ⟨4, 4⟩
abbrev F.REF_ESMC_HOLD_QL_HOLD_QL : Fld := ⟨0, 4⟩
abbrev F.REF_PQL0_QL : Fld := ⟨0, 32⟩
abbrev F.REF_PQL1_QL : Fld := ⟨0, 32⟩
abbrev F.REF_PQL2_QL : Fld := ⟨0, 32⟩
abbrev F.REF_INn_CFG_STUCK_MS : Fld := ⟨20, 12⟩
abbrev F.REF_INn_CFG_OVR_LIMIT : Fld := ⟨12, 8⟩
abbrev F.REF_INn_CFG_QL_FIXED : Fld := ⟨8, 4⟩
abbrev F.REF_INn_CFG_OVR_DIS_EN : Fld := ⟨7, 1⟩
abbrev F.REF_INn_CFG_EDGE : Fld := ⟨6, 1⟩
abbrev F.REF_INn_CFG_SIG : Fld := ⟨4, 2⟩
abbrev F.REF_INn_CFG_MODE : Fld := ⟨0, 2⟩
abbrev F.REF_INn_FREQ_NOM_HZ : Fld := ⟨0, 30⟩
abbrev F.REF_INn_DIV_DIV : Fld := ⟨0, 20⟩
abbrev F.REF_INn_DELAY_DELAY : Fld := ⟨0, 32⟩
abbrev F.REF_IN_REARM_REARM : Fld := ⟨0, 4⟩
abbrev F.REF_PRIOn_QL_MIN : Fld := ⟨12, 4⟩
abbrev F.REF_PRIOn_ENABLE : Fld := ⟨6, 1⟩
abbrev F.REF_PRIOn_CAND : Fld := ⟨0, 6⟩
abbrev F.REF_CANDk_STATUS_QL : Fld := ⟨12, 4⟩
abbrev F.REF_CANDk_STATUS_QUALIFIED : Fld := ⟨11, 1⟩
abbrev F.REF_CANDk_STATUS_HOLDOFF : Fld := ⟨10, 1⟩
abbrev F.REF_CANDk_STATUS_PHASE_FAIL : Fld := ⟨9, 1⟩
abbrev F.REF_CANDk_STATUS_DRIFT_FAIL : Fld := ⟨8, 1⟩
abbrev F.REF_CANDk_STATUS_FREQ_FAIL : Fld := ⟨7, 1⟩
abbrev F.REF_CANDk_STATUS_FREQ_UNDECIDED : Fld := ⟨6, 1⟩
abbrev F.REF_CANDk_STATUS_ACT_FAIL : Fld := ⟨5, 1⟩
abbrev F.REF_CANDk_STATUS_STUCK : Fld := ⟨4, 1⟩
abbrev F.REF_CANDk_STATUS_OVR_DISABLED : Fld := ⟨3, 1⟩
abbrev F.REF_CANDk_STATUS_COMPANION : Fld := ⟨2, 1⟩
abbrev F.REF_CANDk_STATUS_CLASS : Fld := ⟨0, 2⟩
abbrev F.REF_CANDk_FREQ_Y : Fld := ⟨0, 32⟩
abbrev F.HLD_CTRL_TEMP_SRC : Fld := ⟨10, 1⟩
abbrev F.HLD_CTRL_LOAD : Fld := ⟨9, 1⟩
abbrev F.HLD_CTRL_CLEAR : Fld := ⟨8, 1⟩
abbrev F.HLD_CTRL_ANCHOR_EN : Fld := ⟨7, 1⟩
abbrev F.HLD_CTRL_USE : Fld := ⟨4, 3⟩
abbrev F.HLD_CTRL_LEARN : Fld := ⟨0, 4⟩
abbrev F.HLD_STATUS_SAMPLES : Fld := ⟨16, 16⟩
abbrev F.HLD_STATUS_ERR_VALID : Fld := ⟨6, 1⟩
abbrev F.HLD_STATUS_TEMP_OUT : Fld := ⟨5, 1⟩
abbrev F.HLD_STATUS_EPISODE_QUAL : Fld := ⟨4, 1⟩
abbrev F.HLD_STATUS_MODEL_QUAL : Fld := ⟨3, 1⟩
abbrev F.HLD_STATUS_LOG_VALID : Fld := ⟨2, 1⟩
abbrev F.HLD_STATUS_AGE_VALID : Fld := ⟨1, 1⟩
abbrev F.HLD_STATUS_FREQ_VALID : Fld := ⟨0, 1⟩
abbrev F.HLD_RAW_EMB_SEEDED : Fld := ⟨5, 1⟩
abbrev F.HLD_RAW_EMB_LOST : Fld := ⟨4, 1⟩
abbrev F.HLD_RAW_FIT_DONE : Fld := ⟨3, 1⟩
abbrev F.HLD_RAW_UNQUALIFIED : Fld := ⟨2, 1⟩
abbrev F.HLD_RAW_EXIT : Fld := ⟨1, 1⟩
abbrev F.HLD_RAW_ENTRY : Fld := ⟨0, 1⟩
abbrev F.HLD_RAW_EN_EN : Fld := ⟨0, 6⟩
abbrev F.HLD_QUAL_SPAN_H : Fld := ⟨16, 16⟩
abbrev F.HLD_QUAL_RESID : Fld := ⟨0, 16⟩
abbrev F.HLD_QUAL_HOLD_HOLD_S : Fld := ⟨0, 22⟩
abbrev F.HLD_ANCHOR_ANCHOR_S : Fld := ⟨0, 8⟩
abbrev F.HLD_TEMP_AXIS_TSTART : Fld := ⟨16, 16⟩
abbrev F.HLD_TEMP_AXIS_TBIN : Fld := ⟨0, 16⟩
abbrev F.HLD_TEMP_NOW_OSC_CODE : Fld := ⟨16, 12⟩
abbrev F.HLD_TEMP_NOW_DIE : Fld := ⟨0, 16⟩
abbrev F.HLD_F_LO_F : Fld := ⟨0, 32⟩
abbrev F.HLD_F_HI_F : Fld := ⟨0, 32⟩
abbrev F.HLD_A1_A : Fld := ⟨0, 32⟩
abbrev F.HLD_A2_A : Fld := ⟨0, 32⟩
abbrev F.HLD_AGE_S_VALUE : Fld := ⟨0, 32⟩
abbrev F.HLD_RESID_VALUE : Fld := ⟨0, 32⟩
abbrev F.HLD_ELAPSED_VALUE : Fld := ⟨0, 32⟩
abbrev F.HLD_LAST_ERR_LO_ERR : Fld := ⟨0, 32⟩
abbrev F.HLD_LAST_ERR_HI_ERR : Fld := ⟨0, 32⟩
abbrev F.HLD_RATE_LO_RATE : Fld := ⟨0, 32⟩
abbrev F.HLD_RATE_HI_RATE : Fld := ⟨0, 32⟩
abbrev F.HLD_PRE_F_LO_F : Fld := ⟨0, 32⟩
abbrev F.HLD_PRE_F_HI_F : Fld := ⟨0, 32⟩
abbrev F.HLD_PRE_A1_VALUE : Fld := ⟨0, 32⟩
abbrev F.HLD_PRE_A2_VALUE : Fld := ⟨0, 32⟩
abbrev F.HLD_PRE_AGE_S_VALUE : Fld := ⟨0, 32⟩
abbrev F.HLD_EMB_CFG_NO_XTAL : Fld := ⟨2, 1⟩
abbrev F.HLD_EMB_CFG_NO_SUPPLY : Fld := ⟨1, 1⟩
abbrev F.HLD_EMB_CFG_SYNC_EN : Fld := ⟨0, 1⟩
abbrev F.HLD_TTABb_COUNT : Fld := ⟨24, 8⟩
abbrev F.HLD_TTABb_C : Fld := ⟨0, 16⟩
abbrev F.HLD_PRE_TTABb_C : Fld := ⟨0, 16⟩
abbrev F.HLD_EMB_TIME_LO_SEC : Fld := ⟨15, 17⟩
abbrev F.HLD_EMB_TIME_LO_CYCLES : Fld := ⟨0, 15⟩
abbrev F.HLD_EMB_TIME_HI_SEC : Fld := ⟨0, 31⟩
abbrev F.HLD_EMB_TRIM_TRIM : Fld := ⟨0, 12⟩
abbrev F.HLD_EMB_STATUS_LOST : Fld := ⟨2, 1⟩
abbrev F.HLD_EMB_STATUS_VALID : Fld := ⟨1, 1⟩
abbrev F.HLD_EMB_STATUS_SYNCED : Fld := ⟨0, 1⟩
abbrev F.HLD_EMB_FAIL_LO_TIME : Fld := ⟨0, 32⟩
abbrev F.HLD_EMB_FAIL_HI_TIME : Fld := ⟨0, 32⟩
abbrev F.HLD_EMB_CTRL_INVALIDATE : Fld := ⟨1, 1⟩
abbrev F.HLD_EMB_CTRL_RESYNC : Fld := ⟨0, 1⟩
abbrev F.SYN_CTRL_ALIGN_GRID : Fld := ⟨4, 1⟩
abbrev F.SYN_CTRL_JPLL_BW : Fld := ⟨0, 2⟩
abbrev F.SYN_STATUS_PENDING : Fld := ⟨15, 1⟩
abbrev F.SYN_STATUS_BRIDGE_COARSE : Fld := ⟨9, 1⟩
abbrev F.SYN_STATUS_HK_FALLBACK : Fld := ⟨8, 1⟩
abbrev F.SYN_STATUS_DRAM_HOLD : Fld := ⟨7, 1⟩
abbrev F.SYN_STATUS_CORE_HOLD : Fld := ⟨6, 1⟩
abbrev F.SYN_STATUS_JPLL_HOLD : Fld := ⟨5, 1⟩
abbrev F.SYN_STATUS_DRAM_LOCK : Fld := ⟨3, 1⟩
abbrev F.SYN_STATUS_CORE_LOCK : Fld := ⟨2, 1⟩
abbrev F.SYN_STATUS_JPLL_LOCK : Fld := ⟨1, 1⟩
abbrev F.SYN_STATUS_HPLL_LOCK : Fld := ⟨0, 1⟩
abbrev F.SYN_RAW_CLAIM_SWITCH : Fld := ⟨8, 1⟩
abbrev F.SYN_RAW_RELAY_DROP : Fld := ⟨7, 1⟩
abbrev F.SYN_RAW_BRIDGE : Fld := ⟨6, 1⟩
abbrev F.SYN_RAW_RELOCK : Fld := ⟨5, 1⟩
abbrev F.SYN_RAW_HK_FALLBACK : Fld := ⟨4, 1⟩
abbrev F.SYN_RAW_DRAM_UNLOCK : Fld := ⟨3, 1⟩
abbrev F.SYN_RAW_CORE_UNLOCK : Fld := ⟨2, 1⟩
abbrev F.SYN_RAW_JPLL_UNLOCK : Fld := ⟨1, 1⟩
abbrev F.SYN_RAW_UPDATE_DONE : Fld := ⟨0, 1⟩
abbrev F.SYN_RAW_EN_EN : Fld := ⟨0, 9⟩
abbrev F.SYN_SETTLE_SETTLE_US : Fld := ⟨0, 16⟩
abbrev F.SYN_UPDATE_GO : Fld := ⟨0, 1⟩
abbrev F.SYN_BRIDGE_LO_M : Fld := ⟨0, 32⟩
abbrev F.SYN_BRIDGE_HI_M : Fld := ⟨0, 32⟩
abbrev F.SYN_On_CFG_EN : Fld := ⟨31, 1⟩
abbrev F.SYN_On_CFG_SIG : Fld := ⟨26, 2⟩
abbrev F.SYN_On_CFG_MODE : Fld := ⟨24, 2⟩
abbrev F.SYN_On_CFG_GATE_COND : Fld := ⟨20, 3⟩
abbrev F.SYN_On_CFG_CLAIM_MODE : Fld := ⟨18, 2⟩
abbrev F.SYN_On_CFG_RLY_FINE : Fld := ⟨0, 11⟩
abbrev F.SYN_On_INT_INT : Fld := ⟨0, 32⟩
abbrev F.SYN_On_FRAC_FRAC : Fld := ⟨0, 24⟩
abbrev F.SYN_On_DELAY_COARSE : Fld := ⟨11, 21⟩
abbrev F.SYN_On_DELAY_FINE : Fld := ⟨0, 11⟩
abbrev F.SYN_On_GUARD_MARGIN_PPM : Fld := ⟨0, 20⟩
abbrev F.SYN_On_WIDTH_WIDTH : Fld := ⟨0, 28⟩
abbrev F.SYN_On_COUNT_COUNT : Fld := ⟨0, 32⟩
abbrev F.SYN_On_STATUS_DROPS : Fld := ⟨16, 16⟩
abbrev F.SYN_On_STATUS_STAGED : Fld := ⟨7, 1⟩
abbrev F.SYN_On_STATUS_SOURCE : Fld := ⟨6, 1⟩
abbrev F.SYN_On_STATUS_CLAIM_HIGH : Fld := ⟨5, 1⟩
abbrev F.SYN_On_STATUS_REALIGN : Fld := ⟨4, 1⟩
abbrev F.SYN_On_STATUS_SETTLING : Fld := ⟨3, 1⟩
abbrev F.SYN_On_STATUS_GATE_CAUSE : Fld := ⟨0, 3⟩
abbrev F.PTS_CFG_FIFO_EN : Fld := ⟨3, 1⟩
abbrev F.PTS_CFG_ONESTEP_EN : Fld := ⟨2, 1⟩
abbrev F.PTS_CFG_FTEMP_EN : Fld := ⟨1, 1⟩
abbrev F.PTS_CFG_PD_EN : Fld := ⟨0, 1⟩
abbrev F.PTS_STATUS_LD_VALID : Fld := ⟨11, 1⟩
abbrev F.PTS_STATUS_FEC : Fld := ⟨10, 1⟩
abbrev F.PTS_STATUS_BLOCK_LOCK : Fld := ⟨9, 1⟩
abbrev F.PTS_STATUS_LANE_LOCK : Fld := ⟨8, 1⟩
abbrev F.PTS_STATUS_TX_PD : Fld := ⟨4, 2⟩
abbrev F.PTS_STATUS_RX_PD : Fld := ⟨0, 2⟩
abbrev F.PTS_RAW_FTEMP_STALE : Fld := ⟨7, 1⟩
abbrev F.PTS_RAW_LD_RESTART : Fld := ⟨6, 1⟩
abbrev F.PTS_RAW_LOOP_DONE : Fld := ⟨5, 1⟩
abbrev F.PTS_RAW_FIFO_OVERFLOW : Fld := ⟨4, 1⟩
abbrev F.PTS_RAW_ONESTEP_REFUSED : Fld := ⟨3, 1⟩
abbrev F.PTS_RAW_PD_SLIP : Fld := ⟨2, 1⟩
abbrev F.PTS_RAW_PD_TRACK : Fld := ⟨1, 1⟩
abbrev F.PTS_RAW_LANE_UNLOCK : Fld := ⟨0, 1⟩
abbrev F.PTS_RAW_EN_EN : Fld := ⟨0, 8⟩
abbrev F.PTS_TX_DLY_FAC_DELAY : Fld := ⟨0, 32⟩
abbrev F.PTS_RX_DLY_FAC_DELAY : Fld := ⟨0, 32⟩
abbrev F.PTS_TX_DLY_USER_DELAY : Fld := ⟨0, 32⟩
abbrev F.PTS_RX_DLY_USER_DELAY : Fld := ⟨0, 32⟩
abbrev F.PTS_TX_DLY_EFF_DELAY : Fld := ⟨0, 32⟩
abbrev F.PTS_RX_DLY_EFF_DELAY : Fld := ⟨0, 32⟩
abbrev F.PTS_ASYM_ASYM : Fld := ⟨0, 32⟩
abbrev F.PTS_FTEMP_K_K : Fld := ⟨0, 16⟩
abbrev F.PTS_FTEMP_CAL_T_CAL : Fld := ⟨16, 16⟩
abbrev F.PTS_FTEMP_CAL_TIMEOUT_S : Fld := ⟨0, 16⟩
abbrev F.PTS_FTEMP_NOW_T_NOW : Fld := ⟨0, 16⟩
abbrev F.PTS_LD_CFG_OUTLIER_PS : Fld := ⟨16, 16⟩
abbrev F.PTS_LD_CFG_LOG2_N : Fld := ⟨0, 4⟩
abbrev F.PTS_LD_CNT_OUTLIERS : Fld := ⟨16, 16⟩
abbrev F.PTS_LD_CNT_DISCARDS : Fld := ⟨0, 16⟩
abbrev F.PTS_LD_MEAN_LO_DELAY : Fld := ⟨0, 32⟩
abbrev F.PTS_LD_MEAN_HI_DELAY : Fld := ⟨0, 32⟩
abbrev F.PTS_LD_IN_LO_DELAY : Fld := ⟨0, 32⟩
abbrev F.PTS_LD_IN_HI_DELAY : Fld := ⟨0, 32⟩
abbrev F.PTS_LD_OUT_LO_DELAY : Fld := ⟨0, 32⟩
abbrev F.PTS_LD_OUT_HI_DELAY : Fld := ⟨0, 32⟩
abbrev F.PTS_PD_PHASE_TX_PHASE : Fld := ⟨16, 13⟩
abbrev F.PTS_PD_PHASE_RX_PHASE : Fld := ⟨0, 13⟩
abbrev F.PTS_LOOP_CTRL_N : Fld := ⟨16, 16⟩
abbrev F.PTS_LOOP_CTRL_ABORT : Fld := ⟨1, 1⟩
abbrev F.PTS_LOOP_CTRL_GO : Fld := ⟨0, 1⟩
abbrev F.PTS_LOOP_STATUS_ACCEPTED : Fld := ⟨16, 16⟩
abbrev F.PTS_LOOP_STATUS_LOST : Fld := ⟨8, 8⟩
abbrev F.PTS_LOOP_STATUS_RUNNING : Fld := ⟨1, 1⟩
abbrev F.PTS_LOOP_STATUS_VALID : Fld := ⟨0, 1⟩
abbrev F.PTS_LOOP_MEAN_LO_MEAN : Fld := ⟨0, 32⟩
abbrev F.PTS_LOOP_MEAN_HI_MEAN : Fld := ⟨0, 32⟩
abbrev F.PTS_LOOP_SPAN_SPAN : Fld := ⟨0, 32⟩
abbrev F.PTS_FIFO_HEAD0_WORD : Fld := ⟨0, 32⟩
abbrev F.PTS_FIFO_HEAD1_WORD : Fld := ⟨0, 32⟩
abbrev F.PTS_FIFO_HEAD2_WORD : Fld := ⟨0, 32⟩
abbrev F.PTS_FIFO_HEAD3_WORD : Fld := ⟨0, 32⟩
abbrev F.PTS_FIFO_POP_POP : Fld := ⟨0, 1⟩
abbrev F.PTS_FIFO_STATUS_OVERFLOW : Fld := ⟨16, 16⟩
abbrev F.PTS_FIFO_STATUS_DEPTH : Fld := ⟨0, 7⟩
abbrev F.PTS_ONESTEP_CNT_REFUSED : Fld := ⟨16, 16⟩
abbrev F.PTS_ONESTEP_CNT_INSERTED : Fld := ⟨0, 16⟩
abbrev F.PTP_CTRL_DOMAIN : Fld := ⟨8, 8⟩
abbrev F.PTP_CTRL_FOLLOW : Fld := ⟨2, 1⟩
abbrev F.PTP_CTRL_EN : Fld := ⟨0, 1⟩
abbrev F.PTP_STATUS_RX_FLAGS : Fld := ⟨10, 6⟩
abbrev F.PTP_STATUS_FIRST_DONE : Fld := ⟨9, 1⟩
abbrev F.PTP_STATUS_VALID : Fld := ⟨8, 1⟩
abbrev F.PTP_STATUS_SERVO : Fld := ⟨5, 2⟩
abbrev F.PTP_STATUS_SERVO_PORT : Fld := ⟨0, 5⟩
abbrev F.PTP_RAW_FAR_OFFSET : Fld := ⟨6, 1⟩
abbrev F.PTP_RAW_NO_WINNER : Fld := ⟨5, 1⟩
abbrev F.PTP_RAW_WINNER_CHANGE : Fld := ⟨4, 1⟩
abbrev F.PTP_RAW_VALID_LOST : Fld := ⟨3, 1⟩
abbrev F.PTP_RAW_FROZEN : Fld := ⟨2, 1⟩
abbrev F.PTP_RAW_FIRST_STEP : Fld := ⟨1, 1⟩
abbrev F.PTP_RAW_SERVO_CHANGE : Fld := ⟨0, 1⟩
abbrev F.PTP_RAW_EN_EN : Fld := ⟨0, 7⟩
abbrev F.PTP_CLOCK_ID_LO_ID : Fld := ⟨0, 32⟩
abbrev F.PTP_CLOCK_ID_HI_ID : Fld := ⟨0, 32⟩
abbrev F.PTP_SERVO_CFG_STEP_NS : Fld := ⟨12, 20⟩
abbrev F.PTP_SERVO_CFG_FIRST_N : Fld := ⟨8, 4⟩
abbrev F.PTP_SERVO_CFG_BW_TIGHT : Fld := ⟨4, 4⟩
abbrev F.PTP_SERVO_CFG_BW_STD : Fld := ⟨0, 4⟩
abbrev F.PTP_ACCEPT_CLASS_MAX : Fld := ⟨8, 8⟩
abbrev F.PTP_ACCEPT_STEPS_MAX : Fld := ⟨0, 8⟩
abbrev F.PTP_OFFSET_LO_OFFSET : Fld := ⟨0, 32⟩
abbrev F.PTP_OFFSET_HI_OFFSET : Fld := ⟨0, 32⟩
abbrev F.PTP_RATE_LO_RATE : Fld := ⟨0, 32⟩
abbrev F.PTP_RATE_HI_RATE : Fld := ⟨0, 32⟩
abbrev F.PTP_TX_QUAL_PRIORITY1 : Fld := ⟨24, 8⟩
abbrev F.PTP_TX_QUAL_PRIORITY2 : Fld := ⟨16, 8⟩
abbrev F.PTP_TX_QUAL_CLASS : Fld := ⟨8, 8⟩
abbrev F.PTP_TX_QUAL_ACCURACY : Fld := ⟨0, 8⟩
abbrev F.PTP_TX_TIME_VARIANCE : Fld := ⟨16, 16⟩
abbrev F.PTP_TX_TIME_TIME_SOURCE : Fld := ⟨8, 8⟩
abbrev F.PTP_TX_TIME_FLAGS : Fld := ⟨0, 6⟩
abbrev F.PTP_TX_HOLD_CLASS_HOLD : Fld := ⟨8, 8⟩
abbrev F.PTP_TX_HOLD_CLASS_FREE : Fld := ⟨0, 8⟩
abbrev F.PTP_UTC_RX_OFFSET : Fld := ⟨16, 16⟩
abbrev F.PTP_UTC_TX_OFFSET : Fld := ⟨0, 16⟩
abbrev F.PTP_CLAIM_ORG_ORG_ID : Fld := ⟨0, 24⟩
abbrev F.PTP_CLAIM_GRPg_PAIR_ID : Fld := ⟨16, 16⟩
abbrev F.PTP_CLAIM_GRPg_WIN_VALID : Fld := ⟨5, 1⟩
abbrev F.PTP_CLAIM_GRPg_WIN_PORT : Fld := ⟨0, 5⟩
abbrev F.PTP_CLAIM_WINg_CLAIM : Fld := ⟨0, 32⟩
abbrev F.PTP_Pn_CFG_ROLE : Fld := ⟨30, 2⟩
abbrev F.PTP_Pn_CFG_PROFILE : Fld := ⟨29, 1⟩
abbrev F.PTP_Pn_CFG_TRANSPORT : Fld := ⟨27, 2⟩
abbrev F.PTP_Pn_CFG_DELAY_MECH : Fld := ⟨26, 1⟩
abbrev F.PTP_Pn_CFG_TWO_STEP : Fld := ⟨25, 1⟩
abbrev F.PTP_Pn_CFG_ALL_NONFWD : Fld := ⟨24, 1⟩
abbrev F.PTP_Pn_CFG_CLAIM_GRP : Fld := ⟨20, 3⟩
abbrev F.PTP_Pn_CFG_SLAVE_PRIO : Fld := ⟨16, 4⟩
abbrev F.PTP_Pn_CFG_VLAN_EN : Fld := ⟨15, 1⟩
abbrev F.PTP_Pn_CFG_VLAN_PCP : Fld := ⟨12, 3⟩
abbrev F.PTP_Pn_CFG_VLAN_VID : Fld := ⟨0, 12⟩
abbrev F.PTP_Pn_INTV_LOG_SYNC : Fld := ⟨24, 8⟩
abbrev F.PTP_Pn_INTV_LOG_DELAY : Fld := ⟨16, 8⟩
abbrev F.PTP_Pn_INTV_LOG_ANN : Fld := ⟨8, 8⟩
abbrev F.PTP_Pn_INTV_ANN_TIMEOUT : Fld := ⟨0, 8⟩
abbrev F.PTP_Pn_MASTER_LO_ID : Fld := ⟨0, 32⟩
abbrev F.PTP_Pn_MASTER_HI_ID : Fld := ⟨0, 32⟩
abbrev F.PTP_Pn_MASTER_PORT_CHECK_EN : Fld := ⟨16, 1⟩
abbrev F.PTP_Pn_MASTER_PORT_PORT_NUM : Fld := ⟨0, 16⟩
abbrev F.PTP_Pn_STATUS_WINNER : Fld := ⟨15, 1⟩
abbrev F.PTP_Pn_STATUS_CLAIM_VALID : Fld := ⟨14, 1⟩
abbrev F.PTP_Pn_STATUS_TIGHT_OK : Fld := ⟨13, 1⟩
abbrev F.PTP_Pn_STATUS_SERVO : Fld := ⟨12, 1⟩
abbrev F.PTP_Pn_STATUS_STATE : Fld := ⟨0, 3⟩
abbrev F.PTP_Pn_RAW_SAMPLE_DISCARD : Fld := ⟨7, 1⟩
abbrev F.PTP_Pn_RAW_FOREIGN_MASTER : Fld := ⟨6, 1⟩
abbrev F.PTP_Pn_RAW_TIGHT_FALLBACK : Fld := ⟨5, 1⟩
abbrev F.PTP_Pn_RAW_CLAIM_BAD : Fld := ⟨4, 1⟩
abbrev F.PTP_Pn_RAW_PARENT_CHANGE : Fld := ⟨3, 1⟩
abbrev F.PTP_Pn_RAW_ANN_REJECT : Fld := ⟨2, 1⟩
abbrev F.PTP_Pn_RAW_ANN_TIMEOUT : Fld := ⟨1, 1⟩
abbrev F.PTP_Pn_RAW_ANN_ACCEPT : Fld := ⟨0, 1⟩
abbrev F.PTP_Pn_RAW_EN_EN : Fld := ⟨0, 8⟩
abbrev F.PTP_Pn_PARENT_LO_ID : Fld := ⟨0, 32⟩
abbrev F.PTP_Pn_PARENT_HI_ID : Fld := ⟨0, 32⟩
abbrev F.PTP_Pn_PARENT_PORT_STEPS : Fld := ⟨16, 8⟩
abbrev F.PTP_Pn_PARENT_PORT_PORT_NUM : Fld := ⟨0, 16⟩
abbrev F.PTP_Pn_CLAIM_CLAIM : Fld := ⟨0, 32⟩
abbrev F.PTP_Pn_CNT_MSG_ANN_REJECTED : Fld := ⟨16, 16⟩
abbrev F.PTP_Pn_CNT_MSG_SYNC_RX : Fld := ⟨0, 16⟩
abbrev F.PTP_Pn_CNT_ERR_CLAIM_BAD : Fld := ⟨24, 8⟩
abbrev F.PTP_Pn_CNT_ERR_TIMEOUTS : Fld := ⟨16, 8⟩
abbrev F.PTP_Pn_CNT_ERR_DISCARDED : Fld := ⟨0, 16⟩
abbrev F.FWD_CTRL_LEARN_EN : Fld := ⟨1, 1⟩
abbrev F.FWD_CTRL_EN : Fld := ⟨0, 1⟩
abbrev F.FWD_STATUS_POOL_FREE : Fld := ⟨16, 15⟩
abbrev F.FWD_STATUS_DRAIN_PENDING : Fld := ⟨2, 1⟩
abbrev F.FWD_STATUS_FC_STAGED : Fld := ⟨1, 1⟩
abbrev F.FWD_STATUS_FE_STAGED : Fld := ⟨0, 1⟩
abbrev F.FWD_RAW_UNTRACKED : Fld := ⟨9, 1⟩
abbrev F.FWD_RAW_WRONG_LAN : Fld := ⟨8, 1⟩
abbrev F.FWD_RAW_STREAM_MISS : Fld := ⟨7, 1⟩
abbrev F.FWD_RAW_LAG_EMPTY : Fld := ⟨6, 1⟩
abbrev F.FWD_RAW_POOL_EMPTY : Fld := ⟨5, 1⟩
abbrev F.FWD_RAW_DRAIN_DONE : Fld := ⟨4, 1⟩
abbrev F.FWD_RAW_STAGE_ABORT : Fld := ⟨3, 1⟩
abbrev F.FWD_RAW_LEARN_FAIL : Fld := ⟨2, 1⟩
abbrev F.FWD_RAW_RX_BAD : Fld := ⟨1, 1⟩
abbrev F.FWD_RAW_STOMP : Fld := ⟨0, 1⟩
abbrev F.FWD_RAW_EN_EN : Fld := ⟨0, 10⟩
abbrev F.FWD_HASH_CFG_FIELDS : Fld := ⟨0, 7⟩
abbrev F.FWD_AGE_PERIOD_S : Fld := ⟨0, 16⟩
abbrev F.FWD_EPOCH_CURRENT : Fld := ⟨0, 16⟩
abbrev F.FWD_DRAIN_DRAIN : Fld := ⟨0, 1⟩
abbrev F.FWD_RED_POOL_COUNT : Fld := ⟨16, 15⟩
abbrev F.FWD_RED_POOL_FIRST : Fld := ⟨0, 14⟩
abbrev F.FWD_RED_FORGET_FORGET_MS : Fld := ⟨0, 16⟩
abbrev F.FWD_CNT_RXBAD_COUNT : Fld := ⟨0, 32⟩
abbrev F.FWD_CNT_STOMP_COUNT : Fld := ⟨0, 32⟩
abbrev F.FWD_CNT_FILTER_COUNT : Fld := ⟨0, 32⟩
abbrev F.FWD_CNT_LEARN_FAIL_COUNT : Fld := ⟨0, 32⟩
abbrev F.FWD_CNT_DUP_COUNT : Fld := ⟨0, 32⟩
abbrev F.FWD_CNT_STREAM_MISS_COUNT : Fld := ⟨0, 32⟩
abbrev F.FWD_CNT_STAGE_ABORT_COUNT : Fld := ⟨0, 32⟩
abbrev F.FWD_CNT_UNTRACKED_COUNT : Fld := ⟨0, 32⟩
abbrev F.FWD_CNT_WRONG_LAN_COUNT : Fld := ⟨0, 32⟩
abbrev F.FWD_LAGg_MEMBERS_PORTS : Fld := ⟨0, 24⟩
abbrev F.FWD_LAGg_ACTIVE_PORTS : Fld := ⟨0, 24⟩
abbrev F.FWD_REDr_CFG_MODE : Fld := ⟨16, 2⟩
abbrev F.FWD_REDr_CFG_PORT_B : Fld := ⟨8, 5⟩
abbrev F.FWD_REDr_CFG_PORT_A : Fld := ⟨0, 5⟩
abbrev F.FWD_PORTn_CFG_CT_EN : Fld := ⟨31, 1⟩
abbrev F.FWD_PORTn_CFG_LEARN_EN : Fld := ⟨30, 1⟩
abbrev F.FWD_PORTn_CFG_INGRESS_FILTER : Fld := ⟨29, 1⟩
abbrev F.FWD_PORTn_CFG_DEF_PCP : Fld := ⟨16, 3⟩
abbrev F.FWD_PORTn_CFG_PVID : Fld := ⟨0, 12⟩
abbrev F.FWD_PORTn_PCPMAP_MAP : Fld := ⟨0, 24⟩
abbrev F.FWD_PORTn_STATE_STATE : Fld := ⟨0, 2⟩
abbrev F.FWD_VLANv_MEMBER_VALID : Fld := ⟨31, 1⟩
abbrev F.FWD_VLANv_MEMBER_MEMBER : Fld := ⟨0, 25⟩
abbrev F.FWD_VLANv_UNTAG_UNTAG : Fld := ⟨0, 25⟩
abbrev F.FWD_VLANv_CTRL_FLOOD_UNKNOWN : Fld := ⟨1, 1⟩
abbrev F.FWD_VLANv_CTRL_LEARN_EN : Fld := ⟨0, 1⟩
abbrev F.QUE_CTRL_POOL_XOFF_EN : Fld := ⟨1, 1⟩
abbrev F.QUE_CTRL_SPILL_EN : Fld := ⟨0, 1⟩
abbrev F.QUE_STATUS_DRAM_READY : Fld := ⟨3, 1⟩
abbrev F.QUE_STATUS_SPILL_FULL : Fld := ⟨2, 1⟩
abbrev F.QUE_STATUS_POOL_XOFF : Fld := ⟨1, 1⟩
abbrev F.QUE_STATUS_LOSSLESS_OK : Fld := ⟨0, 1⟩
abbrev F.QUE_RAW_SPILL_CORRECTED : Fld := ⟨6, 1⟩
abbrev F.QUE_RAW_MEM_AGED : Fld := ⟨5, 1⟩
abbrev F.QUE_RAW_REFUSED : Fld := ⟨4, 1⟩
abbrev F.QUE_RAW_POOL_XOFF : Fld := ⟨3, 1⟩
abbrev F.QUE_RAW_SPILL_FULL : Fld := ⟨2, 1⟩
abbrev F.QUE_RAW_STALL : Fld := ⟨1, 1⟩
abbrev F.QUE_RAW_AGED : Fld := ⟨0, 1⟩
abbrev F.QUE_RAW_EN_EN : Fld := ⟨0, 7⟩
abbrev F.QUE_HERD_CELLS_CELLS : Fld := ⟨0, 17⟩
abbrev F.QUE_SHARED_CELLS : Fld := ⟨0, 17⟩
abbrev F.QUE_SHARED_FREE_CELLS : Fld := ⟨0, 17⟩
abbrev F.QUE_HEADROOM_SUM_CELLS : Fld := ⟨0, 21⟩
abbrev F.QUE_POOL_HYST_CELLS : Fld := ⟨0, 16⟩
abbrev F.QUE_SPILL_CFG_HEAD_KEEP : Fld := ⟨16, 16⟩
abbrev F.QUE_SPILL_CFG_SPILL_TH : Fld := ⟨0, 16⟩
abbrev F.QUE_STALL_CFG_STALL_NS : Fld := ⟨0, 16⟩
abbrev F.QUE_DRAM_CFG_RANKS : Fld := ⟨3, 1⟩
abbrev F.QUE_DRAM_CFG_DENSITY : Fld := ⟨0, 2⟩
abbrev F.QUE_PART_CKPT : Fld := ⟨20, 10⟩
abbrev F.QUE_PART_JOURNAL : Fld := ⟨10, 10⟩
abbrev F.QUE_PART_SPILL : Fld := ⟨0, 10⟩
abbrev F.QUE_DRAM_STATUS_CORRECTED : Fld := ⟨16, 16⟩
abbrev F.QUE_DRAM_STATUS_SELF_REFRESH : Fld := ⟨1, 1⟩
abbrev F.QUE_DRAM_STATUS_TRAINED : Fld := ⟨0, 1⟩
abbrev F.QUE_SPILL_USED_CELLS : Fld := ⟨0, 26⟩
abbrev F.QUE_AGE_LIMITc_LIMIT_US : Fld := ⟨0, 24⟩
abbrev F.QUE_Pn_PFC_CFG_QUANTA : Fld := ⟨16, 16⟩
abbrev F.QUE_Pn_PFC_CFG_TX_EN : Fld := ⟨8, 8⟩
abbrev F.QUE_Pn_PFC_CFG_RX_EN : Fld := ⟨0, 8⟩
abbrev F.QUE_Pn_XOFF_XOFF_TH : Fld := ⟨0, 24⟩
abbrev F.QUE_Pn_XON_XON_TH : Fld := ⟨0, 24⟩
abbrev F.QUE_Pn_HEADROOM_H : Fld := ⟨0, 16⟩
abbrev F.QUE_Pn_CNT_PFC_RX_PAUSE : Fld := ⟨16, 16⟩
abbrev F.QUE_Pn_CNT_PFC_TX_XOFF : Fld := ⟨0, 16⟩
abbrev F.QUE_Pn_CNT_AGED_COUNT : Fld := ⟨0, 32⟩
abbrev F.QUE_Pn_CNT_REFUSED_COUNT : Fld := ⟨0, 32⟩
abbrev F.QUE_Pn_PAUSE_STATUS_RX_PAUSED : Fld := ⟨8, 8⟩
abbrev F.QUE_Pn_PAUSE_STATUS_TX_XOFF : Fld := ⟨0, 8⟩
abbrev F.QUE_Qq_MIN_CELLS : Fld := ⟨0, 17⟩
abbrev F.QUE_Qq_ONDIE_CELLS : Fld := ⟨0, 18⟩
abbrev F.QUE_Qq_SPILL_CELLS : Fld := ⟨0, 26⟩
abbrev F.QUE_INn_Up_CELLS : Fld := ⟨0, 26⟩
abbrev F.HRD_CTRL_EN : Fld := ⟨0, 1⟩
abbrev F.HRD_CAL_PEAK : Fld := ⟨16, 14⟩
abbrev F.HRD_CAL_USED : Fld := ⟨0, 14⟩
abbrev F.HRD_RAW_CLAIM_DISCARD : Fld := ⟨9, 1⟩
abbrev F.HRD_RAW_OVERSIZE : Fld := ⟨8, 1⟩
abbrev F.HRD_RAW_HOP_SAT : Fld := ⟨7, 1⟩
abbrev F.HRD_RAW_CAL_FULL : Fld := ⟨6, 1⟩
abbrev F.HRD_RAW_ADMIT_OVER : Fld := ⟨5, 1⟩
abbrev F.HRD_RAW_FOREIGN : Fld := ⟨4, 1⟩
abbrev F.HRD_RAW_TAG_BAD : Fld := ⟨3, 1⟩
abbrev F.HRD_RAW_PASSED : Fld := ⟨2, 1⟩
abbrev F.HRD_RAW_DISCARD : Fld := ⟨1, 1⟩
abbrev F.HRD_RAW_LATE : Fld := ⟨0, 1⟩
abbrev F.HRD_RAW_EN_EN : Fld := ⟨0, 10⟩
abbrev F.HRD_NODE_ID_NODE_ID : Fld := ⟨0, 16⟩
abbrev F.HRD_EARLY_EARLY_US : Fld := ⟨0, 16⟩
abbrev F.HRD_CNT_LATE_COUNT : Fld := ⟨0, 32⟩
abbrev F.HRD_CNT_DISCARD_COUNT : Fld := ⟨0, 32⟩
abbrev F.HRD_CNT_PASSED_COUNT : Fld := ⟨0, 32⟩
abbrev F.HRD_CNT_DEFER_COUNT : Fld := ⟨0, 32⟩
abbrev F.HRD_CNT_TAG_BAD_COUNT : Fld := ⟨0, 32⟩
abbrev F.HRD_CNT_FOREIGN_COUNT : Fld := ⟨0, 32⟩
abbrev F.HRD_CNT_CLAIM_COUNT : Fld := ⟨0, 32⟩
abbrev F.HRD_CNT_OVERSIZE_COUNT : Fld := ⟨0, 32⟩
abbrev F.HRD_LAST_LATE_REASON : Fld := ⟨28, 4⟩
abbrev F.HRD_LAST_LATE_PORT : Fld := ⟨16, 5⟩
abbrev F.HRD_LAST_LATE_FC : Fld := ⟨0, 14⟩
abbrev F.HRD_BUDGETb_TRIG_SET : Fld := ⟨31, 1⟩
abbrev F.HRD_BUDGETb_L_US : Fld := ⟨0, 12⟩
abbrev F.HRD_PORTn_CFG_CLAIM_IN : Fld := ⟨2, 1⟩
abbrev F.HRD_PORTn_CFG_CLAIM_GATE : Fld := ⟨1, 1⟩
abbrev F.HRD_PORTn_CFG_EDGE : Fld := ⟨0, 1⟩
abbrev F.HRD_PORTn_RESV_KBPS : Fld := ⟨0, 25⟩
abbrev F.HRD_PORTn_STATUS_OVER : Fld := ⟨31, 1⟩
abbrev F.HRD_PORTn_STATUS_ENTRIES : Fld := ⟨0, 14⟩
abbrev F.SPR_CTRL_MODE : Fld := ⟨1, 1⟩
abbrev F.SPR_CTRL_EN : Fld := ⟨0, 1⟩
abbrev F.SPR_STATUS_FIFO : Fld := ⟨16, 13⟩
abbrev F.SPR_STATUS_LOSSING : Fld := ⟨5, 1⟩
abbrev F.SPR_STATUS_WRAPPED : Fld := ⟨4, 1⟩
abbrev F.SPR_STATUS_FULL : Fld := ⟨3, 1⟩
abbrev F.SPR_STATUS_STATE : Fld := ⟨0, 3⟩
abbrev F.SPR_RAW_FETCH_DONE : Fld := ⟨6, 1⟩
abbrev F.SPR_RAW_EXTRA_TRIG : Fld := ⟨5, 1⟩
abbrev F.SPR_RAW_OVERRUN : Fld := ⟨4, 1⟩
abbrev F.SPR_RAW_FULL : Fld := ⟨3, 1⟩
abbrev F.SPR_RAW_LOSS : Fld := ⟨2, 1⟩
abbrev F.SPR_RAW_FROZEN : Fld := ⟨1, 1⟩
abbrev F.SPR_RAW_TRIGGER : Fld := ⟨0, 1⟩
abbrev F.SPR_RAW_EN_EN : Fld := ⟨0, 7⟩
abbrev F.SPR_CMD_FETCH : Fld := ⟨2, 1⟩
abbrev F.SPR_CMD_REARM : Fld := ⟨1, 1⟩
abbrev F.SPR_CMD_FIRE : Fld := ⟨0, 1⟩
abbrev F.SPR_SIZE_N : Fld := ⟨0, 29⟩
abbrev F.SPR_BASE_BASE : Fld := ⟨0, 10⟩
abbrev F.SPR_WR_COUNT_LO_COUNT : Fld := ⟨0, 32⟩
abbrev F.SPR_WR_COUNT_HI_COUNT : Fld := ⟨0, 32⟩
abbrev F.SPR_RD_COUNT_LO_COUNT : Fld := ⟨0, 32⟩
abbrev F.SPR_RD_COUNT_HI_COUNT : Fld := ⟨0, 32⟩
abbrev F.SPR_TRIG_COUNT_LO_COUNT : Fld := ⟨0, 32⟩
abbrev F.SPR_TRIG_COUNT_HI_COUNT : Fld := ⟨0, 32⟩
abbrev F.SPR_POST_POST : Fld := ⟨0, 29⟩
abbrev F.SPR_TRIG_EN_TDC_MASK : Fld := ⟨16, 8⟩
abbrev F.SPR_TRIG_EN_PIN_EDGE : Fld := ⟨8, 1⟩
abbrev F.SPR_TRIG_EN_HERD : Fld := ⟨4, 1⟩
abbrev F.SPR_TRIG_EN_REG : Fld := ⟨3, 1⟩
abbrev F.SPR_TRIG_EN_PIN : Fld := ⟨2, 1⟩
abbrev F.SPR_TRIG_EN_TDC : Fld := ⟨1, 1⟩
abbrev F.SPR_TRIG_EN_FAULT : Fld := ⟨0, 1⟩
abbrev F.SPR_TRIG_FAULT_MASK_MASK : Fld := ⟨0, 18⟩
abbrev F.SPR_TRIG_ADDR_ADDR : Fld := ⟨2, 22⟩
abbrev F.SPR_TRIG_STATUS_EXTRA : Fld := ⟨16, 16⟩
abbrev F.SPR_TRIG_STATUS_SOURCE : Fld := ⟨0, 4⟩
abbrev F.SPR_SEL_REG_LEVEL : Fld := ⟨18, 2⟩
abbrev F.SPR_SEL_DROPS : Fld := ⟨17, 1⟩
abbrev F.SPR_SEL_HERD_ALL : Fld := ⟨16, 1⟩
abbrev F.SPR_SEL_OUT_CLASS : Fld := ⟨8, 8⟩
abbrev F.SPR_SEL_IN_CLASS : Fld := ⟨0, 8⟩
abbrev F.SPR_SEL_PORT_IN_PORTS : Fld := ⟨0, 25⟩
abbrev F.SPR_SEL_PORT_OUT_PORTS : Fld := ⟨0, 25⟩
abbrev F.SPR_SEL_TDC_KINDS : Fld := ⟨8, 4⟩
abbrev F.SPR_SEL_TDC_CHANNELS : Fld := ⟨0, 8⟩
abbrev F.SPR_UNC_HOLD_PS_PER_S : Fld := ⟨16, 16⟩
abbrev F.SPR_UNC_LOCKED_PS : Fld := ⟨0, 16⟩
abbrev F.SPR_CNT_LOST_SEL_COUNT : Fld := ⟨0, 32⟩
abbrev F.SPR_CNT_LOST_MAND_COUNT : Fld := ⟨0, 32⟩
abbrev F.SPR_CNT_FROZEN_COUNT : Fld := ⟨0, 32⟩
abbrev F.SPR_FETCH_IDX_LO_INDEX : Fld := ⟨0, 32⟩
abbrev F.SPR_FETCH_IDX_HI_INDEX : Fld := ⟨0, 32⟩
abbrev F.SPR_FETCH_STATUS_RESULT : Fld := ⟨1, 2⟩
abbrev F.SPR_FETCH_STATUS_BUSY : Fld := ⟨0, 1⟩
abbrev F.SPR_FETCH_Wk_WORD : Fld := ⟨0, 32⟩
abbrev F.TDC_CTRL_EN : Fld := ⟨0, 1⟩
abbrev F.TDC_STATUS_DISABLED : Fld := ⟨16, 8⟩
abbrev F.TDC_STATUS_STUCK : Fld := ⟨8, 8⟩
abbrev F.TDC_STATUS_IN_SERVICE : Fld := ⟨0, 8⟩
abbrev F.TDC_RAW_CAL_FAIL : Fld := ⟨9, 1⟩
abbrev F.TDC_RAW_GAP : Fld := ⟨8, 1⟩
abbrev F.TDC_RAW_FIFO_OVERFLOW : Fld := ⟨7, 1⟩
abbrev F.TDC_RAW_GLITCH : Fld := ⟨6, 1⟩
abbrev F.TDC_RAW_STUCK : Fld := ⟨5, 1⟩
abbrev F.TDC_RAW_OVR_DISABLE : Fld := ⟨4, 1⟩
abbrev F.TDC_RAW_OVERRUN : Fld := ⟨3, 1⟩
abbrev F.TDC_RAW_DEAD : Fld := ⟨2, 1⟩
abbrev F.TDC_RAW_STAT_DONE : Fld := ⟨1, 1⟩
abbrev F.TDC_RAW_WEV : Fld := ⟨0, 1⟩
abbrev F.TDC_RAW_EN_EN : Fld := ⟨0, 10⟩
abbrev F.TDC_REARM_REARM : Fld := ⟨0, 8⟩
abbrev F.TDC_En_CFG_EN : Fld := ⟨31, 1⟩
abbrev F.TDC_En_CFG_SIG : Fld := ⟨29, 2⟩
abbrev F.TDC_En_CFG_TERM : Fld := ⟨28, 1⟩
abbrev F.TDC_En_CFG_EDGE : Fld := ⟨26, 2⟩
abbrev F.TDC_En_CFG_OVR_DIS_EN : Fld := ⟨25, 1⟩
abbrev F.TDC_En_CFG_FIFO_EN : Fld := ⟨24, 1⟩
abbrev F.TDC_En_DLY_FAC_DELAY : Fld := ⟨0, 32⟩
abbrev F.TDC_En_DLY_USER_DELAY : Fld := ⟨0, 32⟩
abbrev F.TDC_En_DLY_EFF_DELAY : Fld := ⟨0, 32⟩
abbrev F.TDC_En_STATUS_SWAPS : Fld := ⟨16, 16⟩
abbrev F.TDC_En_STATUS_IN_SERVICE : Fld := ⟨6, 1⟩
abbrev F.TDC_En_STATUS_LEVEL : Fld := ⟨5, 1⟩
abbrev F.TDC_En_STATUS_CAL_B : Fld := ⟨4, 1⟩
abbrev F.TDC_En_STATUS_CAL_A : Fld := ⟨3, 1⟩
abbrev F.TDC_En_STATUS_ACTIVE : Fld := ⟨2, 1⟩
abbrev F.TDC_En_STATUS_DISABLED : Fld := ⟨1, 1⟩
abbrev F.TDC_En_STATUS_STUCK : Fld := ⟨0, 1⟩
abbrev F.TDC_En_CAL_S1_VALUE : Fld := ⟨0, 21⟩
abbrev F.TDC_En_CAL_SPAN_VALUE : Fld := ⟨0, 21⟩
abbrev F.TDC_En_LIMITS_STUCK_MS : Fld := ⟨16, 16⟩
abbrev F.TDC_En_LIMITS_OVR_LIMIT : Fld := ⟨8, 8⟩
abbrev F.TDC_En_LIMITS_FILT : Fld := ⟨0, 8⟩
abbrev F.TDC_En_FIFO_LO_WORD : Fld := ⟨0, 32⟩
abbrev F.TDC_En_FIFO_HI_WORD : Fld := ⟨0, 32⟩
abbrev F.TDC_En_FIFO_STATUS_OVERFLOW : Fld := ⟨16, 16⟩
abbrev F.TDC_En_FIFO_STATUS_DEPTH : Fld := ⟨0, 6⟩
abbrev F.TDC_En_FIFO_POP_POP : Fld := ⟨0, 1⟩
abbrev F.TDC_En_CNT_GLITCH : Fld := ⟨24, 8⟩
abbrev F.TDC_En_CNT_OVERRUN : Fld := ⟨16, 8⟩
abbrev F.TDC_En_CNT_DEAD : Fld := ⟨0, 16⟩
abbrev F.TDC_En_EVENTS_COUNT : Fld := ⟨0, 32⟩
abbrev F.TDC_Mm_CFG_EN : Fld := ⟨31, 1⟩
abbrev F.TDC_Mm_CFG_MODE : Fld := ⟨29, 2⟩
abbrev F.TDC_Mm_CFG_STOPS : Fld := ⟨28, 1⟩
abbrev F.TDC_Mm_CFG_START : Fld := ⟨24, 4⟩
abbrev F.TDC_Mm_CFG_STOP : Fld := ⟨20, 3⟩
abbrev F.TDC_Mm_CFG_WEV_EN : Fld := ⟨0, 11⟩
abbrev F.TDC_Mm_OPEN_NS : Fld := ⟨0, 32⟩
abbrev F.TDC_Mm_CLOSE_NS : Fld := ⟨0, 32⟩
abbrev F.TDC_Mm_STAT_N_N : Fld := ⟨0, 21⟩
abbrev F.TDC_Mm_STATUS_WINDOW : Fld := ⟨16, 16⟩
abbrev F.TDC_Mm_STATUS_SEQ : Fld := ⟨8, 8⟩
abbrev F.TDC_Mm_STATUS_WIN_OPEN : Fld := ⟨0, 1⟩
abbrev F.TDC_Mm_CNT_WEV : Fld := ⟨16, 16⟩
abbrev F.TDC_Mm_CNT_STAT_OVF : Fld := ⟨0, 16⟩
abbrev F.TDC_Mm_STAT_USED_COUNT : Fld := ⟨0, 21⟩
abbrev F.TDC_Mm_STAT_PROG_COUNT : Fld := ⟨0, 21⟩
abbrev F.TDC_Mm_LIM_MIN_LO_VALUE : Fld := ⟨0, 32⟩
abbrev F.TDC_Mm_LIM_MIN_HI_VALUE : Fld := ⟨0, 32⟩
abbrev F.TDC_Mm_LIM_MAX_LO_VALUE : Fld := ⟨0, 32⟩
abbrev F.TDC_Mm_LIM_MAX_HI_VALUE : Fld := ⟨0, 32⟩
abbrev F.TDC_Mm_LAST_LO_VALUE : Fld := ⟨0, 32⟩
abbrev F.TDC_Mm_LAST_HI_VALUE : Fld := ⟨0, 32⟩
abbrev F.TDC_Mm_MEAN_LO_VALUE : Fld := ⟨0, 32⟩
abbrev F.TDC_Mm_MEAN_HI_VALUE : Fld := ⟨0, 32⟩
abbrev F.TDC_Mm_SD_LO_VALUE : Fld := ⟨0, 32⟩
abbrev F.TDC_Mm_SD_HI_VALUE : Fld := ⟨0, 32⟩
abbrev F.TDC_Mm_MIN_LO_VALUE : Fld := ⟨0, 32⟩
abbrev F.TDC_Mm_MIN_HI_VALUE : Fld := ⟨0, 32⟩
abbrev F.TDC_Mm_MAX_LO_VALUE : Fld := ⟨0, 32⟩
abbrev F.TDC_Mm_MAX_HI_VALUE : Fld := ⟨0, 32⟩
abbrev F.GUY_CTRL_TIME_EN : Fld := ⟨2, 1⟩
abbrev F.GUY_CTRL_POL_AUTO : Fld := ⟨1, 1⟩
abbrev F.GUY_CTRL_EN : Fld := ⟨0, 1⟩
abbrev F.GUY_STATUS_STATE : Fld := ⟨16, 2⟩
abbrev F.GUY_STATUS_POL_INV : Fld := ⟨12, 4⟩
abbrev F.GUY_STATUS_BLOCK_LOCK : Fld := ⟨8, 4⟩
abbrev F.GUY_STATUS_LOL : Fld := ⟨4, 4⟩
abbrev F.GUY_STATUS_LOS : Fld := ⟨0, 4⟩
abbrev F.GUY_RAW_TIME_STALE : Fld := ⟨5, 1⟩
abbrev F.GUY_RAW_POL : Fld := ⟨4, 1⟩
abbrev F.GUY_RAW_SKEW_ERR : Fld := ⟨3, 1⟩
abbrev F.GUY_RAW_MSG_BAD : Fld := ⟨2, 1⟩
abbrev F.GUY_RAW_DOWN : Fld := ⟨1, 1⟩
abbrev F.GUY_RAW_UP : Fld := ⟨0, 1⟩
abbrev F.GUY_RAW_EN_EN : Fld := ⟨0, 6⟩
abbrev F.GUY_SKEW_SKEW : Fld := ⟨0, 32⟩
abbrev F.GUY_LANE_MAP_MAP : Fld := ⟨0, 8⟩
abbrev F.GUY_TX_DLY_FAC_DELAY : Fld := ⟨0, 32⟩
abbrev F.GUY_RX_DLY_FAC_DELAY : Fld := ⟨0, 32⟩
abbrev F.GUY_TX_DLY_USER_DELAY : Fld := ⟨0, 32⟩
abbrev F.GUY_RX_DLY_USER_DELAY : Fld := ⟨0, 32⟩
abbrev F.GUY_TX_DLY_EFF_DELAY : Fld := ⟨0, 32⟩
abbrev F.GUY_RX_DLY_EFF_DELAY : Fld := ⟨0, 32⟩
abbrev F.GUY_OFFSET_LO_OFFSET : Fld := ⟨0, 32⟩
abbrev F.GUY_OFFSET_HI_OFFSET : Fld := ⟨0, 32⟩
abbrev F.GUY_PARTNER_QL : Fld := ⟨12, 4⟩
abbrev F.GUY_PARTNER_COND : Fld := ⟨8, 2⟩
abbrev F.GUY_PARTNER_CAND : Fld := ⟨0, 6⟩
abbrev F.GUY_CNT_ERR_BLOCK_ERR : Fld := ⟨16, 16⟩
abbrev F.GUY_CNT_ERR_MSG_BAD : Fld := ⟨0, 16⟩
abbrev F.GUY_CNT_DOWN_ALIGN_FAIL : Fld := ⟨16, 16⟩
abbrev F.GUY_CNT_DOWN_DOWNS : Fld := ⟨0, 16⟩
abbrev F.RUT_CTRL_INIT_WAIT : Fld := ⟨16, 16⟩
abbrev F.RUT_CTRL_RANK : Fld := ⟨8, 4⟩
abbrev F.RUT_CTRL_UNIT_ID : Fld := ⟨4, 4⟩
abbrev F.RUT_CTRL_MODE : Fld := ⟨1, 1⟩
abbrev F.RUT_CTRL_PAIR_EN : Fld := ⟨0, 1⟩
abbrev F.RUT_PAIR_PAIR_ID : Fld := ⟨0, 16⟩
abbrev F.RUT_TIMERS_HB_TIMEOUT : Fld := ⟨16, 16⟩
abbrev F.RUT_TIMERS_HB_PERIOD_US : Fld := ⟨0, 16⟩
abbrev F.RUT_COPY_CKPT_MS : Fld := ⟨16, 16⟩
abbrev F.RUT_COPY_MIRROR_US : Fld := ⟨0, 16⟩
abbrev F.RUT_STATUS_VALID_FC : Fld := ⟨16, 15⟩
abbrev F.RUT_STATUS_PARTNER_STATE : Fld := ⟨13, 3⟩
abbrev F.RUT_STATUS_WIRE_FRESH : Fld := ⟨12, 1⟩
abbrev F.RUT_STATUS_HB_OK : Fld := ⟨11, 1⟩
abbrev F.RUT_STATUS_MIRROR_OVER : Fld := ⟨10, 1⟩
abbrev F.RUT_STATUS_HANDOVER_PENDING : Fld := ⟨9, 1⟩
abbrev F.RUT_STATUS_HIGHER : Fld := ⟨8, 1⟩
abbrev F.RUT_STATUS_READY : Fld := ⟨4, 1⟩
abbrev F.RUT_STATUS_STATE : Fld := ⟨0, 3⟩
abbrev F.RUT_RAW_MIRROR_OVER : Fld := ⟨10, 1⟩
abbrev F.RUT_RAW_CONFLICT : Fld := ⟨9, 1⟩
abbrev F.RUT_RAW_HANDOVER_REFUSED : Fld := ⟨8, 1⟩
abbrev F.RUT_RAW_WIRE_LOST : Fld := ⟨7, 1⟩
abbrev F.RUT_RAW_CKPT_DISCARD : Fld := ⟨6, 1⟩
abbrev F.RUT_RAW_BATCH_DISCARD : Fld := ⟨5, 1⟩
abbrev F.RUT_RAW_DEMOTED : Fld := ⟨4, 1⟩
abbrev F.RUT_RAW_BECAME_LOWER : Fld := ⟨3, 1⟩
abbrev F.RUT_RAW_BECAME_HIGHER : Fld := ⟨2, 1⟩
abbrev F.RUT_RAW_HB_FAIL : Fld := ⟨1, 1⟩
abbrev F.RUT_RAW_TAKEOVER : Fld := ⟨0, 1⟩
abbrev F.RUT_RAW_EN_EN : Fld := ⟨0, 11⟩
abbrev F.RUT_CLAIM_CLAIM : Fld := ⟨0, 32⟩
abbrev F.RUT_PARTNER_CLAIM_CLAIM : Fld := ⟨0, 32⟩
abbrev F.RUT_CMD_RELEASE : Fld := ⟨1, 1⟩
abbrev F.RUT_CMD_HANDOVER : Fld := ⟨0, 1⟩
abbrev F.RUT_APPLIED_IDENTITY : Fld := ⟨0, 32⟩
abbrev F.RUT_CNT_TAKEOVERS : Fld := ⟨24, 8⟩
abbrev F.RUT_CNT_HB_FAILS : Fld := ⟨16, 8⟩
abbrev F.RUT_CNT_DISCARDS : Fld := ⟨0, 16⟩
abbrev F.RUT_LAST_SWITCH_US : Fld := ⟨0, 32⟩
abbrev F.BOOT_STATUS_SECTION : Fld := ⟨16, 12⟩
abbrev F.BOOT_STATUS_REASON : Fld := ⟨8, 8⟩
abbrev F.BOOT_STATUS_APPLIED : Fld := ⟨7, 1⟩
abbrev F.BOOT_STATUS_STATE : Fld := ⟨0, 4⟩
abbrev F.BOOT_RAW_FLASH_REFUSED : Fld := ⟨4, 1⟩
abbrev F.BOOT_RAW_FLASH_DONE : Fld := ⟨3, 1⟩
abbrev F.BOOT_RAW_RETRY_REFUSED : Fld := ⟨2, 1⟩
abbrev F.BOOT_RAW_FAIL : Fld := ⟨1, 1⟩
abbrev F.BOOT_RAW_RUN : Fld := ⟨0, 1⟩
abbrev F.BOOT_RAW_EN_EN : Fld := ⟨0, 5⟩
abbrev F.BOOT_CMD_RETRY : Fld := ⟨0, 1⟩
abbrev F.BOOT_RESET_CAUSE_POWER_ON : Fld := ⟨4, 1⟩
abbrev F.BOOT_RESET_CAUSE_VIO : Fld := ⟨3, 1⟩
abbrev F.BOOT_RESET_CAUSE_VDDA : Fld := ⟨2, 1⟩
abbrev F.BOOT_RESET_CAUSE_VDD : Fld := ⟨1, 1⟩
abbrev F.BOOT_RESET_CAUSE_PIN : Fld := ⟨0, 1⟩
abbrev F.BOOT_TIME_US : Fld := ⟨0, 32⟩
abbrev F.BOOT_PACK_ID_VALUE : Fld := ⟨0, 32⟩
abbrev F.BOOT_PACK_LEN_VALUE : Fld := ⟨0, 32⟩
abbrev F.BOOT_FAIL_OFFSET_VALUE : Fld := ⟨0, 32⟩
abbrev F.BOOT_FAIL_CRC_STORED_VALUE : Fld := ⟨0, 32⟩
abbrev F.BOOT_FAIL_CRC_CALC_VALUE : Fld := ⟨0, 32⟩
abbrev F.BOOT_FLASH_INFO_SIZE_LOG2 : Fld := ⟨24, 8⟩
abbrev F.BOOT_FLASH_INFO_JEDEC_ID : Fld := ⟨0, 24⟩
abbrev F.BOOT_FLASH_CTRL_GO : Fld := ⟨31, 1⟩
abbrev F.BOOT_FLASH_CTRL_DIR : Fld := ⟨30, 1⟩
abbrev F.BOOT_FLASH_CTRL_WIDTH : Fld := ⟨28, 2⟩
abbrev F.BOOT_FLASH_CTRL_ADDR_BYTES : Fld := ⟨26, 2⟩
abbrev F.BOOT_FLASH_CTRL_DUMMY : Fld := ⟨22, 4⟩
abbrev F.BOOT_FLASH_CTRL_LEN : Fld := ⟨8, 9⟩
abbrev F.BOOT_FLASH_CTRL_OPCODE : Fld := ⟨0, 8⟩
abbrev F.BOOT_FLASH_ADDR_ADDR : Fld := ⟨0, 32⟩
abbrev F.BOOT_FLASH_STATUS_REFUSED : Fld := ⟨16, 16⟩
abbrev F.BOOT_FLASH_STATUS_BUSY : Fld := ⟨0, 1⟩
abbrev F.BOOT_FLASH_BUFk_DATA : Fld := ⟨0, 32⟩
abbrev F.CAL_OTP_STATUS_REV : Fld := ⟨16, 16⟩
abbrev F.CAL_OTP_STATUS_CRC_OK : Fld := ⟨1, 1⟩
abbrev F.CAL_OTP_STATUS_READ_DONE : Fld := ⟨0, 1⟩
abbrev F.CAL_UID_LO_UID : Fld := ⟨0, 32⟩
abbrev F.CAL_UID_HI_UID : Fld := ⟨0, 32⟩
abbrev F.CAL_TEMP_FAC_OFFSET : Fld := ⟨0, 16⟩
abbrev F.CAL_TEMP_USER_OFFSET : Fld := ⟨0, 16⟩
abbrev F.CAL_TEMP_EFF_OFFSET : Fld := ⟨0, 16⟩
abbrev F.CAL_On_PATH_DELAY : Fld := ⟨0, 32⟩
abbrev F.CAL_On_RLY_DELAY : Fld := ⟨0, 32⟩
abbrev F.PMC_Gg_CYCLE_LO_COUNT : Fld := ⟨0, 32⟩
abbrev F.PMC_Gg_CYCLE_HI_COUNT : Fld := ⟨0, 16⟩
abbrev F.PMC_Gg_CNTk_LO_COUNT : Fld := ⟨0, 32⟩
abbrev F.PMC_Gg_CNTk_HI_COUNT : Fld := ⟨0, 16⟩
abbrev F.PMC_Gg_SNAP_CYCLE_LO_COUNT : Fld := ⟨0, 32⟩
abbrev F.PMC_Gg_SNAP_CYCLE_HI_COUNT : Fld := ⟨0, 16⟩
abbrev F.PMC_Gg_SNAP_CNTk_LO_COUNT : Fld := ⟨0, 32⟩
abbrev F.PMC_Gg_SNAP_CNTk_HI_COUNT : Fld := ⟨0, 16⟩
abbrev F.PMC_Gg_SELk_EVENT : Fld := ⟨0, 5⟩
abbrev F.PMC_SNAP_CLEAR : Fld := ⟨1, 1⟩
abbrev F.PMC_SNAP_SNAP : Fld := ⟨0, 1⟩
abbrev F.PMC_CTRL_FREEZE : Fld := ⟨0, 1⟩
abbrev F.PMC_OVF_BITS : Fld := ⟨0, 27⟩
abbrev F.PMC_OVF_IE_BITS : Fld := ⟨0, 27⟩
abbrev F.PMC_RAW_SNAP_DONE : Fld := ⟨1, 1⟩
abbrev F.PMC_RAW_OVF : Fld := ⟨0, 1⟩
abbrev F.PMC_RAW_EN_SNAP_DONE : Fld := ⟨1, 1⟩
abbrev F.PMC_RAW_EN_OVF : Fld := ⟨0, 1⟩
abbrev F.PMC_SNAP_SEQ_SEQ : Fld := ⟨0, 32⟩
abbrev F.PMC_SNAP_TIME_LO_TICK : Fld := ⟨0, 32⟩
abbrev F.PMC_SNAP_TIME_HI_TICK : Fld := ⟨0, 32⟩
abbrev F.PMC_USER_EN_DENIED : Fld := ⟨16, 16⟩
abbrev F.PMC_USER_EN_GROUPS : Fld := ⟨0, 3⟩
abbrev F.MAC_Pn_CFG_FEC : Fld := ⟨1, 1⟩
abbrev F.MAC_Pn_CFG_EN : Fld := ⟨0, 1⟩
abbrev F.MAC_Pn_STATUS_FEC_LOCK : Fld := ⟨2, 1⟩
abbrev F.MAC_Pn_STATUS_BLOCK_LOCK : Fld := ⟨1, 1⟩
abbrev F.MAC_Pn_STATUS_SIGNAL : Fld := ⟨0, 1⟩
abbrev F.MAC_Pn_RAW_FEC_UNCORR : Fld := ⟨2, 1⟩
abbrev F.MAC_Pn_RAW_LOCK_LOST : Fld := ⟨1, 1⟩
abbrev F.MAC_Pn_RAW_LINK_UP : Fld := ⟨0, 1⟩
abbrev F.MAC_Pn_RAW_EN_EN : Fld := ⟨0, 3⟩
abbrev F.MAC_Pn_RX_FRAMES_COUNT : Fld := ⟨0, 32⟩
abbrev F.MAC_Pn_TX_FRAMES_COUNT : Fld := ⟨0, 32⟩
abbrev F.MAC_Pn_PCS_ERR_COUNT : Fld := ⟨0, 32⟩
abbrev F.MAC_Pn_FEC_CORR_COUNT : Fld := ⟨0, 32⟩
abbrev F.MAC_Pn_FEC_UNCORR_COUNT : Fld := ⟨0, 32⟩
abbrev F.IOP_CTRL_SHORT_OFF : Fld := ⟨1, 1⟩
abbrev F.IOP_CTRL_DIAG_OFF : Fld := ⟨0, 1⟩
abbrev F.IOP_STATUS_OVERTEMP : Fld := ⟨8, 1⟩
abbrev F.IOP_STATUS_FAULTS : Fld := ⟨0, 6⟩
abbrev F.IOP_RAW_POL_CORRECTED : Fld := ⟨5, 1⟩
abbrev F.IOP_RAW_OVERTEMP : Fld := ⟨4, 1⟩
abbrev F.IOP_RAW_REVERSED : Fld := ⟨3, 1⟩
abbrev F.IOP_RAW_OPEN : Fld := ⟨2, 1⟩
abbrev F.IOP_RAW_LEG_SHORT : Fld := ⟨1, 1⟩
abbrev F.IOP_RAW_SHORT : Fld := ⟨0, 1⟩
abbrev F.IOP_RAW_EN_EN : Fld := ⟨0, 6⟩
abbrev F.IOP_PINp_CFG_SE : Fld := ⟨8, 1⟩
abbrev F.IOP_PINp_CFG_POL_HINT : Fld := ⟨2, 2⟩
abbrev F.IOP_PINp_CFG_POL_AUTO : Fld := ⟨1, 1⟩
abbrev F.IOP_PINp_CFG_MASK : Fld := ⟨0, 1⟩
abbrev F.IOP_PINp_STATUS_OFF : Fld := ⟨9, 1⟩
abbrev F.IOP_PINp_STATUS_POL_INV : Fld := ⟨8, 1⟩
abbrev F.IOP_PINp_STATUS_REVERSED : Fld := ⟨7, 1⟩
abbrev F.IOP_PINp_STATUS_OPEN : Fld := ⟨6, 1⟩
abbrev F.IOP_PINp_STATUS_LEG_SHORT : Fld := ⟨5, 1⟩
abbrev F.IOP_PINp_STATUS_SHORT_SUP_N : Fld := ⟨3, 1⟩
abbrev F.IOP_PINp_STATUS_SHORT_GND_N : Fld := ⟨2, 1⟩
abbrev F.IOP_PINp_STATUS_SHORT_SUP_P : Fld := ⟨1, 1⟩
abbrev F.IOP_PINp_STATUS_SHORT_GND_P : Fld := ⟨0, 1⟩
abbrev F.HIF_DMAk_BASE_LO_BASE : Fld := ⟨6, 26⟩
abbrev F.HIF_DMAk_BASE_HI_BASE : Fld := ⟨0, 32⟩
abbrev F.HIF_DMAk_SIZE_LOG2_ENTRIES : Fld := ⟨0, 5⟩
abbrev F.HIF_DMAk_CTRL_HOLDOFF_US : Fld := ⟨16, 16⟩
abbrev F.HIF_DMAk_CTRL_IRQ_EN : Fld := ⟨1, 1⟩
abbrev F.HIF_DMAk_CTRL_ENABLE : Fld := ⟨0, 1⟩
abbrev F.HIF_DMAk_TAIL_TAIL : Fld := ⟨0, 16⟩
abbrev F.HIF_DMAk_HEAD_HEAD : Fld := ⟨0, 16⟩
abbrev F.HIF_DMAk_WB_LO_WB : Fld := ⟨2, 30⟩
abbrev F.HIF_DMAk_WB_HI_WB : Fld := ⟨0, 32⟩
abbrev F.HIF_DMAk_STATUS_DESC_ERR : Fld := ⟨2, 1⟩
abbrev F.HIF_DMAk_STATUS_PCIE_ERR : Fld := ⟨1, 1⟩
abbrev F.HIF_DMAk_STATUS_RUNNING : Fld := ⟨0, 1⟩

end Sys2Proof.Machine
end

