-- ==== Sys2Proof/Machine/Bits.lean ====
section
/-! DEFINITION. Bit fields, sign conversion, saturation, byte order, CRCs and sparse tables: the helpers the
meanings share. -/

namespace Sys2Proof.Machine

/-! ### Fields of a word -/

/-- The value of field `f` of `v`. -/
def Fld.get (f : Fld) (v : Word) : Nat := (v.toNat >>> f.lo) % 2 ^ f.w

/-- `v` with field `f` set to `n` (taken modulo the field's width). -/
def Fld.put (f : Fld) (v : Word) (n : Nat) : Word :=
  BitVec.ofNat 32 (v.toNat - (f.get v) <<< f.lo + (n % 2 ^ f.w) <<< f.lo)

/-- Bit `i` of a word. -/
def bit (v : Word) (i : Nat) : Bool := (v.toNat >>> i) % 2 == 1

/-- The value of bits [hi:lo] of a natural number. -/
def bitsOf (n hi lo : Nat) : Nat := (n >>> lo) % 2 ^ (hi + 1 - lo)

/-- 1 for true, 0 for false. -/
def b2n (b : Bool) : Nat := if b then 1 else 0

/-- Bit `i` of a natural number used as a mask. -/
def maskBit (n i : Nat) : Bool := (n >>> i) % 2 == 1

/-- `n` with bit `i` set. -/
def maskSet (n i : Nat) : Nat := if maskBit n i then n else n + 2 ^ i

/-- `n` with bit `i` clear. -/
def maskClr (n i : Nat) : Nat := if maskBit n i then n - 2 ^ i else n

/-- The bits of a mask below `k` that are set, ascending. -/
def maskBits (n k : Nat) : List Nat := (List.range k).filter (maskBit n)

/-- How many of the bits of a mask below `k` are set. -/
def popCount (n k : Nat) : Nat := (maskBits n k).length

/-! ### Signed values -/

/-- The two's-complement value of the low `w` bits of `n`. -/
def sx (w n : Nat) : Int :=
  let m := n % 2 ^ w
  if m < 2 ^ (w - 1) then (m : Int) else (m : Int) - 2 ^ w

/-- The low `w` bits of an integer in two's complement. -/
def enc (w : Nat) (i : Int) : Nat := (i % (2 ^ w : Int)).toNat

/-- `i` limited to the range `lo` to `hi`. -/
def clampI (lo hi i : Int) : Int := if i < lo then lo else if hi < i then hi else i

/-- `i` limited to the signed range of `w` bits. -/
def satS (w : Nat) (i : Int) : Int := clampI (-(2 ^ (w - 1))) (2 ^ (w - 1) - 1) i

/-- `n` limited to `w` unsigned bits. -/
def satU (w n : Nat) : Nat := min n (2 ^ w - 1)

/-- Quotient rounded to nearest, ties away from zero. -/
def divRound (a : Int) (b : Int) : Int :=
  if b = 0 then 0
  else
    let n := if b < 0 then -a else a
    let d := b.natAbs
    if n < 0 then -(((2 * (-n) + d) / (2 * d) : Int)) else (2 * n + d) / (2 * d)

/-- Quotient rounded to nearest, ties to even. -/
def divEven (a : Int) (b : Nat) : Int :=
  if b = 0 then 0
  else
    let q := a / (b : Int)
    let r := a % (b : Int)
    if 2 * r < b then q else if (b : Int) < 2 * r then q + 1 else if q % 2 = 0 then q else q + 1

/-- Integer square root, by bisection on `fuel` bits. -/
def isqrtAux (n : Nat) : Nat → Nat → Nat
  | 0, r => r
  | k + 1, r => if (r + 2 ^ k) * (r + 2 ^ k) ≤ n then isqrtAux n k (r + 2 ^ k) else isqrtAux n k r

/-- The integer part of the square root of `n`, for `n` below 2^256. -/
def isqrt (n : Nat) : Nat := isqrtAux n 128 0

/-! ### Time formats -/

/-- Seconds of a T96 value (R2). -/
def tSec (t : T96) : Nat := t.toNat / 2 ^ 48

/-- Nanoseconds of a T96 value (R2). -/
def tNs (t : T96) : Nat := (t.toNat / 2 ^ 16) % 2 ^ 32

/-- Fraction of a T96 value (R2). -/
def tFrac (t : T96) : Nat := t.toNat % 2 ^ 16

/-- The T96 value with the given fields. -/
def mkT96 (sec ns frac : Nat) : T96 :=
  BitVec.ofNat 96 ((sec % 2 ^ 48) * 2 ^ 48 + (ns % 2 ^ 32) * 2 ^ 16 + frac % 2 ^ 16)

/-- Tick64 of a T96 value (R5). -/
def tickOf (t : T96) : Tick64 :=
  BitVec.ofNat 64 ((tSec t * 1000000000 + tNs t) * 65536 + tFrac t)

/-- The signed difference of two Tick64 values (R6). -/
def tickDiff (a b : Tick64) : Int := sx 64 (a - b).toNat

/-- The exact separation a − b of two T96 values in Tick64 units, seconds taken modulo 2^48 as the signed value
of smaller magnitude; equal magnitudes give far-past (R7). -/
def t96Sep (a b : T96) : Int :=
  let whole : Int := (2 : Int) ^ 48 * 65536000000000
  let ia : Int := ((tSec a * 1000000000 + tNs a) * 65536 + tFrac a : Nat)
  let ib : Int := ((tSec b * 1000000000 + tNs b) * 65536 + tFrac b : Nat)
  let m := (ia - ib) % whole
  if 2 * m < whole then m else m - whole

/-- The difference of two T96 values as R7 gives it: the signed Tick64 amount and the far-range flag. -/
def t96Diff (a b : T96) : Int × Bool :=
  let d := t96Sep a b
  if (2 : Int) ^ 63 ≤ d then (2 ^ 63 - 1, true)
  else if d ≤ -(2 ^ 63 : Int) then (-(2 ^ 63 : Int) + 1, true)
  else (d, false)

/-- The three 32-bit words of a T96 value in ascending address order (R3). -/
def t96Word (t : T96) (i : Nat) : Word := BitVec.ofNat 32 (t.toNat / 2 ^ (32 * i))

/-- `ns` nanoseconds in Tick64 units. -/
def nsTicks (ns : Int) : Int := ns * 65536

/-! ### Bytes -/

/-- `n` as `k` bytes, least significant first (R10: registers and DRAM structures). -/
def leBytes : Nat → Nat → List Byte
  | 0, _ => []
  | k + 1, n => BitVec.ofNat 8 n :: leBytes k (n / 256)

/-- The number that little-endian bytes spell. -/
def leNat : List Byte → Nat
  | [] => 0
  | b :: r => b.toNat + 256 * leNat r

/-- `n` as `k` bytes, most significant first (R10: fields inside frames). -/
def beBytes (k n : Nat) : List Byte := (leBytes k n).reverse

/-- The number that network-order bytes spell. -/
def beNat (l : List Byte) : Nat := leNat l.reverse

/-- `n` bytes of `l` from offset `o`. -/
def slice (l : List Byte) (o n : Nat) : List Byte := (l.drop o).take n

/-- The network-order number in bytes `o` to `o + n - 1` of `l`. -/
def beAt (l : List Byte) (o n : Nat) : Nat := beNat (slice l o n)

/-! ### CRCs -/

/-- One reflected CRC bit step with polynomial `p` over the low bit. -/
def crcStep (p c : Nat) : Nat := if c % 2 = 1 then (c / 2) ^^^ p else c / 2

/-- Eight reflected CRC bit steps. -/
def crc8steps (p c : Nat) : Nat :=
  crcStep p (crcStep p (crcStep p (crcStep p (crcStep p (crcStep p (crcStep p (crcStep p c)))))))

/-- A reflected CRC register after the bytes of `l`. -/
def crcFold (p : Nat) : Nat → List Byte → Nat
  | c, [] => c
  | c, b :: r => crcFold p (crc8steps p (c ^^^ b.toNat)) r

/-- CRC-32C of RFC 3720 (R50). -/
def crc32c (l : List Byte) : Nat := (crcFold 0x82F63B78 0xFFFFFFFF l) ^^^ 0xFFFFFFFF

/-- The frame check sequence of IEEE Std 802.3 over the bytes of a frame before its FCS. -/
def fcsOf (l : List Byte) : Nat := (crcFold 0xEDB88320 0xFFFFFFFF l) ^^^ 0xFFFFFFFF

/-- One most-significant-bit-first step of a 16-bit CRC with polynomial `p`. -/
def crc16Step (p c : Nat) : Nat := if c / 2 ^ 15 % 2 = 1 then ((c * 2) % 2 ^ 16) ^^^ p else c * 2 % 2 ^ 16

/-- A most-significant-bit-first 16-bit CRC register after the bytes of `l`. -/
def crc16Fold (p : Nat) : Nat → List Byte → Nat
  | c, [] => c
  | c, b :: r =>
    let s := crc16Step p
    crc16Fold p (s (s (s (s (s (s (s (s (c ^^^ (b.toNat * 256)))))))))) r

/-! ### Sparse tables -/

/-- The value of key `k`: the listed one, or the default `d`. -/
def Tbl.get {α : Type} (d : α) : Tbl α → Nat → α
  | [], _ => d
  | (k', v) :: r, k => if k = k' then v else Tbl.get d r k

/-- The table without key `k`. -/
def Tbl.drop {α : Type} (k : Nat) : Tbl α → Tbl α
  | [] => []
  | (k', v) :: r => if k = k' then Tbl.drop k r else (k', v) :: Tbl.drop k r

/-- The table with `v` listed for key `k`, in ascending key order, `k` not listed before. -/
def Tbl.ins {α : Type} (k : Nat) (v : α) : Tbl α → Tbl α
  | [] => [(k, v)]
  | (k', v') :: r => if k < k' then (k, v) :: (k', v') :: r else (k', v') :: Tbl.ins k v r

/-- The table with value `v` for key `k`; a value equal to the default `d` is not listed. -/
def Tbl.set {α : Type} [DecidableEq α] (d : α) (t : Tbl α) (k : Nat) (v : α) : Tbl α :=
  if v = d then Tbl.drop k t else Tbl.ins k v (Tbl.drop k t)

/-- The canonical form: keys strictly rising from above `b`, no value equal to its key's default. -/
def Tbl.wfFrom {α : Type} [DecidableEq α] (dflt : Nat → α) : Option Nat → Tbl α → Bool
  | _, [] => true
  | b, (k, v) :: r =>
    (match b with | none => true | some m => decide (m < k)) && decide (v ≠ dflt k) && Tbl.wfFrom dflt (some k) r

/-- The canonical form of a whole table. -/
def Tbl.wf {α : Type} [DecidableEq α] (dflt : Nat → α) (t : Tbl α) : Bool := Tbl.wfFrom dflt none t

/-- `l` padded with zero bytes to at least `n`. -/
def padTo (n : Nat) (l : List Byte) : List Byte := l ++ List.replicate (n - l.length) 0#8

/-- The bytes of a frame with its FCS, least significant byte first. -/
def withFcs (l : List Byte) : List Byte := l ++ leBytes 4 (fcsOf l)

end Sys2Proof.Machine
end

