-- ==== Sys2Proof/Machine/RegRows.lean ====
section
/-! DEFINITION. What each register of BAR0 is: its fields with their access types (R11), reset values (R13) and
legal values (R48), its clock domain (R34), and whether it is exempt from the host write lock (R454).
One list of rows per block, in the order of chapter 18. Reserved fields are omitted: they read 0 and
ignore writes (R12). -/

namespace Sys2Proof.Machine

/-- Access types of R11. -/
inductive Acc
  | rw | ro | rcr | rcs | w1 | wt | rl | rh
  deriving DecidableEq, Repr

/-- The legal values of a field (R48).  `.dep`: the bound depends on another field or on the register's
index; `clampDep` in Machine/Clamp.lean states it. -/
inductive Legal
  | any
  | range (lo hi : Nat)
  | srange (lo hi : Int)
  | upTo (max : Nat)
  | dep
  deriving DecidableEq, Repr

/-- One row of a field table. -/
structure Field where
  name : String
  hi : Nat
  lo : Nat
  acc : Acc
  reset : Nat
  legal : Legal
  deriving DecidableEq, Repr


/-- One register, or one array of registers (first address, stride and count; second stride and count). -/
structure RegRow where
  name : String
  base : Nat
  stride : Nat
  count : Nat
  stride2 : Nat
  count2 : Nat
  exempt : Bool
  fields : List Field
  deriving DecidableEq, Repr

/-- Register rows of the `HIF_` block. -/
def rowsHif_0 : List RegRow := [
  ⟨"HIF_ID", 0x0, 0x0, 1, 0x0, 1, false, [
    ⟨"PART", 31, 16, .ro, 0x2416, .any⟩,
    ⟨"STEPPING", 15, 8, .ro, 0xB0, .any⟩,
    ⟨"FAMILY", 7, 4, .ro, 0x1, .any⟩]⟩,
  ⟨"HIF_ACCESS_FAULT", 0x14, 0x0, 1, 0x0, 1, false, [
    ⟨"TIMEOUT", 31, 24, .rcr, 0x0, .any⟩,
    ⟨"LOCKED_WR", 23, 16, .rcr, 0x0, .any⟩,
    ⟨"UNMAPPED", 15, 8, .rcr, 0x0, .any⟩,
    ⟨"NARROW_WR", 7, 0, .rcr, 0x0, .any⟩]⟩,
  ⟨"HIF_ACCESS_ADDR", 0x18, 0x0, 1, 0x0, 1, false, [
    ⟨"SOURCE", 31, 30, .ro, 0x0, .any⟩,
    ⟨"KIND", 29, 28, .ro, 0x0, .any⟩,
    ⟨"ADDR", 23, 0, .ro, 0x0, .any⟩]⟩,
  ⟨"HIF_BUS_TIMEOUT", 0x10, 0x0, 1, 0x0, 1, false, [
    ⟨"TIMEOUT_US", 13, 0, .rw, 0x64, .range 10 10000⟩]⟩,
  ⟨"HIF_XRESET_COUNT", 0x1C, 0x0, 1, 0x0, 1, false, [
    ⟨"COUNT", 15, 0, .rcr, 0x0, .any⟩]⟩,
  ⟨"HIF_LOCK", 0x4, 0x0, 1, 0x0, 1, false, [
    ⟨"LOCK", 0, 0, .w1, 0x0, .any⟩]⟩,
  ⟨"HIF_CFG_CRC_CTRL", 0x20, 0x0, 1, 0x0, 1, false, [
    ⟨"ACTION", 1, 0, .rw, 0x0, .upTo 2⟩]⟩,
  ⟨"HIF_CFG_CRC_COMMIT", 0x24, 0x0, 1, 0x0, 1, true, [
    ⟨"UNFREEZE", 1, 1, .wt, 0x0, .any⟩,
    ⟨"COMMIT", 0, 0, .wt, 0x0, .any⟩]⟩,
  ⟨"HIF_CFG_CRC_STATUS", 0x28, 0x0, 1, 0x0, 1, false, [
    ⟨"FROZEN", 2, 2, .ro, 0x0, .any⟩,
    ⟨"STATE", 1, 0, .ro, 0x0, .any⟩]⟩,
  ⟨"HIF_CFG_CRC_REF", 0x2C, 0x0, 1, 0x0, 1, false, [
    ⟨"REF", 31, 0, .ro, 0x0, .any⟩]⟩,
  ⟨"HIF_CFG_CRC_LAST", 0x30, 0x0, 1, 0x0, 1, false, [
    ⟨"LAST", 31, 0, .ro, 0x0, .any⟩]⟩,
  ⟨"HIF_SUMMARY", 0x40, 0x0, 1, 0x0, 1, false, [
    ⟨"FQ", 18, 18, .rcs, 0x0, .any⟩,
    ⟨"MAC", 17, 17, .rcs, 0x0, .any⟩,
    ⟨"IOP", 16, 16, .rcs, 0x0, .any⟩,
    ⟨"RUT", 15, 15, .rcs, 0x0, .any⟩,
    ⟨"GUY", 14, 14, .rcs, 0x0, .any⟩,
    ⟨"TDC", 13, 13, .rcs, 0x0, .any⟩,
    ⟨"SPR", 12, 12, .rcs, 0x0, .any⟩,
    ⟨"HRD", 11, 11, .rcs, 0x0, .any⟩,
    ⟨"QUE", 10, 10, .rcs, 0x0, .any⟩,
    ⟨"FWD", 9, 9, .rcs, 0x0, .any⟩,
    ⟨"PMC", 8, 8, .rcs, 0x0, .any⟩,
    ⟨"PTP", 7, 7, .rcs, 0x0, .any⟩,
    ⟨"PTS", 6, 6, .rcs, 0x0, .any⟩,
    ⟨"SYN", 5, 5, .rcs, 0x0, .any⟩,
    ⟨"HLD", 4, 4, .rcs, 0x0, .any⟩,
    ⟨"REF", 3, 3, .rcs, 0x0, .any⟩,
    ⟨"TSC", 2, 2, .rcs, 0x0, .any⟩,
    ⟨"BOOT", 1, 1, .rcs, 0x0, .any⟩,
    ⟨"HIF", 0, 0, .rcs, 0x0, .any⟩]⟩,
  ⟨"HIF_IRQ_EN", 0x44, 0x0, 1, 0x0, 1, true, [
    ⟨"EN", 18, 0, .rw, 0x0, .any⟩]⟩,
  ⟨"HIF_RAW", 0x48, 0x0, 1, 0x0, 1, false, [
    ⟨"XRESET", 7, 7, .rcr, 0x0, .any⟩,
    ⟨"CRC_MISMATCH", 6, 6, .rcr, 0x0, .any⟩,
    ⟨"TIMEOUT", 5, 5, .rcr, 0x0, .any⟩,
    ⟨"LOCKED_WR", 4, 4, .rcr, 0x0, .any⟩,
    ⟨"NARROW_WR", 3, 3, .rcr, 0x0, .any⟩,
    ⟨"UNMAPPED", 2, 2, .rcr, 0x0, .any⟩,
    ⟨"FQ_OVERFLOW", 1, 1, .rcr, 0x0, .any⟩,
    ⟨"LINK_DOWN", 0, 0, .rcr, 0x0, .any⟩]⟩]

/-- Register rows of the `HIF_` block. -/
def rowsHif_1 : List RegRow := [
  ⟨"HIF_RAW_EN", 0x4C, 0x0, 1, 0x0, 1, true, [
    ⟨"EN", 7, 0, .rw, 0xFF, .any⟩]⟩,
  ⟨"HIF_FQ_REC0", 0x50, 0x0, 1, 0x0, 1, false, [
    ⟨"WORD", 31, 0, .ro, 0x0, .any⟩]⟩,
  ⟨"HIF_FQ_REC1", 0x54, 0x0, 1, 0x0, 1, false, [
    ⟨"WORD", 31, 0, .ro, 0x0, .any⟩]⟩,
  ⟨"HIF_FQ_REC2", 0x58, 0x0, 1, 0x0, 1, false, [
    ⟨"WORD", 31, 0, .ro, 0x0, .any⟩]⟩,
  ⟨"HIF_FQ_REC3", 0x5C, 0x0, 1, 0x0, 1, false, [
    ⟨"WORD", 31, 0, .ro, 0x0, .any⟩]⟩,
  ⟨"HIF_FQ_POP", 0x60, 0x0, 1, 0x0, 1, true, [
    ⟨"POP", 0, 0, .wt, 0x0, .any⟩]⟩,
  ⟨"HIF_FQ_STATUS", 0x64, 0x0, 1, 0x0, 1, false, [
    ⟨"OVERFLOW", 31, 16, .rcr, 0x0, .any⟩,
    ⟨"DEPTH", 5, 0, .ro, 0x0, .any⟩]⟩,
  ⟨"HIF_TEMP", 0x70, 0x0, 1, 0x0, 1, false, [
    ⟨"DIE_TEMP", 15, 0, .ro, 0x0, .any⟩]⟩,
  ⟨"HIF_DMAk_BASE_LO", 0x100, 0x40, 3, 0x0, 1, true, [
    ⟨"BASE", 31, 6, .rw, 0x0, .any⟩]⟩,
  ⟨"HIF_DMAk_BASE_HI", 0x104, 0x40, 3, 0x0, 1, true, [
    ⟨"BASE", 31, 0, .rw, 0x0, .any⟩]⟩,
  ⟨"HIF_DMAk_SIZE", 0x108, 0x40, 3, 0x0, 1, true, [
    ⟨"LOG2_ENTRIES", 4, 0, .rw, 0x4, .range 4 16⟩]⟩,
  ⟨"HIF_DMAk_CTRL", 0x10C, 0x40, 3, 0x0, 1, true, [
    ⟨"HOLDOFF_US", 31, 16, .rw, 0x0, .any⟩,
    ⟨"IRQ_EN", 1, 1, .rw, 0x0, .any⟩,
    ⟨"ENABLE", 0, 0, .rw, 0x0, .any⟩]⟩,
  ⟨"HIF_DMAk_TAIL", 0x110, 0x40, 3, 0x0, 1, true, [
    ⟨"TAIL", 15, 0, .rw, 0x0, .dep⟩]⟩,
  ⟨"HIF_DMAk_HEAD", 0x114, 0x40, 3, 0x0, 1, true, [
    ⟨"HEAD", 15, 0, .ro, 0x0, .any⟩]⟩]

/-- Register rows of the `HIF_` block. -/
def rowsHif_2 : List RegRow := [
  ⟨"HIF_DMAk_WB_LO", 0x118, 0x40, 3, 0x0, 1, true, [
    ⟨"WB", 31, 2, .rw, 0x0, .any⟩]⟩,
  ⟨"HIF_DMAk_WB_HI", 0x11C, 0x40, 3, 0x0, 1, true, [
    ⟨"WB", 31, 0, .rw, 0x0, .any⟩]⟩,
  ⟨"HIF_DMAk_STATUS", 0x120, 0x40, 3, 0x0, 1, true, [
    ⟨"DESC_ERR", 2, 2, .rcr, 0x0, .any⟩,
    ⟨"PCIE_ERR", 1, 1, .rcr, 0x0, .any⟩,
    ⟨"RUNNING", 0, 0, .ro, 0x0, .any⟩]⟩]

/-- All register rows of the `HIF_` block. -/
def rowsHif : List RegRow := rowsHif_0 ++ rowsHif_1 ++ rowsHif_2

/-- Register rows of the `TSC_` block. -/
def rowsTsc_0 : List RegRow := [
  ⟨"TSC_CTRL", 0x20000, 0x0, 1, 0x0, 1, false, [
    ⟨"STEER", 0, 0, .rw, 0x0, .any⟩]⟩,
  ⟨"TSC_STATUS", 0x20004, 0x0, 1, 0x0, 1, false, [
    ⟨"SUSPECT", 5, 5, .ro, 0x0, .any⟩,
    ⟨"MODE", 4, 4, .ro, 0x0, .any⟩,
    ⟨"FENCED", 2, 0, .ro, 0x0, .any⟩]⟩,
  ⟨"TSC_RAW", 0x20008, 0x0, 1, 0x0, 1, false, [
    ⟨"REFUSED", 7, 7, .rcr, 0x0, .any⟩,
    ⟨"FAR_RANGE", 6, 6, .rcr, 0x0, .any⟩,
    ⟨"NO_MAJORITY", 5, 5, .rcr, 0x0, .any⟩,
    ⟨"DUPLEX_MISMATCH", 4, 4, .rcr, 0x0, .any⟩,
    ⟨"FENCE", 3, 3, .rcr, 0x0, .any⟩,
    ⟨"DISAGREE", 2, 2, .rcr, 0x0, .any⟩,
    ⟨"STEP_DONE", 1, 1, .rcr, 0x0, .any⟩,
    ⟨"SECOND", 0, 0, .rcr, 0x0, .any⟩]⟩,
  ⟨"TSC_RAW_EN", 0x2000C, 0x0, 1, 0x0, 1, false, [
    ⟨"EN", 7, 0, .rw, 0xFC, .any⟩]⟩,
  ⟨"TSC_NOW_T0", 0x20010, 0x0, 1, 0x0, 1, false, [
    ⟨"WORD", 31, 0, .rl, 0x0, .any⟩]⟩,
  ⟨"TSC_NOW_T1", 0x20014, 0x0, 1, 0x0, 1, false, [
    ⟨"WORD", 31, 0, .rh, 0x0, .any⟩]⟩,
  ⟨"TSC_NOW_T2", 0x20018, 0x0, 1, 0x0, 1, false, [
    ⟨"WORD", 31, 0, .rh, 0x0, .any⟩]⟩,
  ⟨"TSC_NOW_TICK_LO", 0x2001C, 0x0, 1, 0x0, 1, false, [
    ⟨"TICK", 31, 0, .rl, 0x0, .any⟩]⟩,
  ⟨"TSC_NOW_TICK_HI", 0x20020, 0x0, 1, 0x0, 1, false, [
    ⟨"TICK", 31, 0, .rh, 0x0, .any⟩]⟩,
  ⟨"TSC_RATE_HOST_LO", 0x20024, 0x0, 1, 0x0, 1, false, [
    ⟨"RATE", 31, 0, .rw, 0x0, .any⟩]⟩,
  ⟨"TSC_RATE_HOST_HI", 0x20028, 0x0, 1, 0x0, 1, false, [
    ⟨"RATE", 31, 0, .rw, 0x0, .any⟩]⟩,
  ⟨"TSC_RATE_EFF_LO", 0x2002C, 0x0, 1, 0x0, 1, false, [
    ⟨"RATE", 31, 0, .rl, 0x0, .any⟩]⟩,
  ⟨"TSC_RATE_EFF_HI", 0x20030, 0x0, 1, 0x0, 1, false, [
    ⟨"RATE", 31, 0, .rh, 0x0, .any⟩]⟩,
  ⟨"TSC_STEP_LO", 0x20034, 0x0, 1, 0x0, 1, false, [
    ⟨"STEP", 31, 0, .rw, 0x0, .any⟩]⟩]

/-- Register rows of the `TSC_` block. -/
def rowsTsc_1 : List RegRow := [
  ⟨"TSC_STEP_HI", 0x20038, 0x0, 1, 0x0, 1, false, [
    ⟨"STEP", 31, 0, .rw, 0x0, .any⟩]⟩,
  ⟨"TSC_SET_T0", 0x2003C, 0x0, 1, 0x0, 1, false, [
    ⟨"WORD", 31, 0, .rw, 0x0, .any⟩]⟩,
  ⟨"TSC_SET_T1", 0x20040, 0x0, 1, 0x0, 1, false, [
    ⟨"WORD", 31, 0, .rw, 0x0, .any⟩]⟩,
  ⟨"TSC_SET_T2", 0x20044, 0x0, 1, 0x0, 1, false, [
    ⟨"WORD", 31, 0, .rw, 0x0, .any⟩]⟩,
  ⟨"TSC_STEP_CTRL", 0x20048, 0x0, 1, 0x0, 1, false, [
    ⟨"CANCEL", 3, 3, .wt, 0x0, .any⟩,
    ⟨"GO", 2, 2, .wt, 0x0, .any⟩,
    ⟨"MODE", 1, 0, .rw, 0x0, .upTo 2⟩]⟩,
  ⟨"TSC_STEP_STATUS", 0x2004C, 0x0, 1, 0x0, 1, false, [
    ⟨"REFUSED", 31, 16, .rcr, 0x0, .any⟩,
    ⟨"LAST_SRC", 6, 4, .ro, 0x0, .any⟩,
    ⟨"PENDING", 0, 0, .ro, 0x0, .any⟩]⟩,
  ⟨"TSC_OFFSET_ACC_LO", 0x20050, 0x0, 1, 0x0, 1, false, [
    ⟨"OFFSET", 31, 0, .rl, 0x0, .any⟩]⟩,
  ⟨"TSC_OFFSET_ACC_HI", 0x20054, 0x0, 1, 0x0, 1, false, [
    ⟨"OFFSET", 31, 0, .rh, 0x0, .any⟩]⟩,
  ⟨"TSC_LAST_STEP_LO", 0x20058, 0x0, 1, 0x0, 1, false, [
    ⟨"STEP", 31, 0, .rl, 0x0, .any⟩]⟩,
  ⟨"TSC_LAST_STEP_HI", 0x2005C, 0x0, 1, 0x0, 1, false, [
    ⟨"STEP", 31, 0, .rh, 0x0, .any⟩]⟩,
  ⟨"TSC_TRIPOD_CTRL", 0x20060, 0x0, 1, 0x0, 1, false, [
    ⟨"CLR_SUSPECT", 11, 11, .wt, 0x0, .any⟩,
    ⟨"RESTORE", 10, 8, .wt, 0x0, .any⟩,
    ⟨"FENCE", 6, 4, .wt, 0x0, .any⟩]⟩,
  ⟨"TSC_TRIPOD_INJECT", 0x20064, 0x0, 1, 0x0, 1, false, [
    ⟨"ARM", 31, 31, .wt, 0x0, .any⟩,
    ⟨"COPY", 9, 8, .rw, 0x0, .upTo 2⟩,
    ⟨"BIT", 7, 0, .rw, 0x0, .upTo 191⟩]⟩,
  ⟨"TSC_DISAGREE_CNT", 0x20068, 0x0, 1, 0x0, 1, false, [
    ⟨"DUPLEX", 31, 24, .rcr, 0x0, .any⟩,
    ⟨"COPY2", 23, 16, .rcr, 0x0, .any⟩,
    ⟨"COPY1", 15, 8, .rcr, 0x0, .any⟩,
    ⟨"COPY0", 7, 0, .rcr, 0x0, .any⟩]⟩]

/-- All register rows of the `TSC_` block. -/
def rowsTsc : List RegRow := rowsTsc_0 ++ rowsTsc_1

/-- Register rows of the `REF_` block. -/
def rowsRef_0 : List RegRow := [
  ⟨"REF_CTRL", 0x30000, 0x0, 1, 0x0, 1, false, [
    ⟨"FORCE_EN", 8, 8, .rw, 0x0, .any⟩,
    ⟨"FORCE_ENTRY", 7, 4, .rw, 0x0, .any⟩,
    ⟨"REVERTIVE", 1, 1, .rw, 0x0, .any⟩,
    ⟨"ENABLE", 0, 0, .rw, 0x0, .any⟩]⟩,
  ⟨"REF_STATUS", 0x30004, 0x0, 1, 0x0, 1, false, [
    ⟨"SEL_ENTRY", 19, 16, .ro, 0x0, .any⟩,
    ⟨"SEL_CLASS", 15, 14, .ro, 0x0, .any⟩,
    ⟨"SEL_CAND", 13, 8, .ro, 0x0, .any⟩,
    ⟨"GUARDING", 7, 7, .ro, 0x0, .any⟩,
    ⟨"FORCED", 6, 6, .ro, 0x0, .any⟩,
    ⟨"OSC_READY", 5, 5, .ro, 0x0, .any⟩,
    ⟨"COND", 4, 3, .ro, 0x0, .any⟩,
    ⟨"STATE", 2, 0, .ro, 0x0, .any⟩]⟩,
  ⟨"REF_RAW", 0x30008, 0x0, 1, 0x0, 1, false, [
    ⟨"OSC_FREQ_ERR", 11, 11, .rcr, 0x0, .any⟩,
    ⟨"OVR_DISABLE", 10, 10, .rcr, 0x0, .any⟩,
    ⟨"OVERRUN", 9, 9, .rcr, 0x0, .any⟩,
    ⟨"STUCK", 8, 8, .rcr, 0x0, .any⟩,
    ⟨"WARM", 7, 7, .rcr, 0x0, .any⟩,
    ⟨"COND_CHANGE", 6, 6, .rcr, 0x0, .any⟩,
    ⟨"GUARD", 5, 5, .rcr, 0x0, .any⟩,
    ⟨"HOLDOVER_ENTRY", 4, 4, .rcr, 0x0, .any⟩,
    ⟨"SWITCH", 3, 3, .rcr, 0x0, .any⟩,
    ⟨"LOCK", 2, 2, .rcr, 0x0, .any⟩,
    ⟨"DISQUAL", 1, 1, .rcr, 0x0, .any⟩,
    ⟨"QUALIFY", 0, 0, .rcr, 0x0, .any⟩]⟩,
  ⟨"REF_RAW_EN", 0x3000C, 0x0, 1, 0x0, 1, false, [
    ⟨"EN", 11, 0, .rw, 0xFFE, .any⟩]⟩,
  ⟨"REF_OSC_CFG", 0x30010, 0x0, 1, 0x0, 1, false, [
    ⟨"WARM_TIMEOUT_S", 31, 16, .rw, 0x384, .any⟩,
    ⟨"MASK_SELF", 3, 3, .rw, 0x0, .any⟩,
    ⟨"MASK_PIN", 2, 2, .rw, 0x0, .any⟩,
    ⟨"FREQ", 1, 0, .rw, 0x0, .any⟩]⟩,
  ⟨"REF_OSC_STATUS", 0x30014, 0x0, 1, 0x0, 1, false, [
    ⟨"BY_TIMEOUT", 4, 4, .ro, 0x0, .any⟩,
    ⟨"FREQ_OK", 3, 3, .ro, 0x0, .any⟩,
    ⟨"SELF_WARM", 2, 2, .ro, 0x0, .any⟩,
    ⟨"PIN", 1, 1, .ro, 0x0, .any⟩,
    ⟨"READY", 0, 0, .ro, 0x0, .any⟩]⟩,
  ⟨"REF_GUARD", 0x30018, 0x0, 1, 0x0, 1, false, [
    ⟨"GUARD_NS", 28, 0, .rw, 0x3E8, .range 1 500000000⟩]⟩,
  ⟨"REF_SLEW_MAX", 0x3001C, 0x0, 1, 0x0, 1, false, [
    ⟨"SLEW_MAX", 13, 0, .rw, 0x64, .range 1 10000⟩]⟩,
  ⟨"REF_TIMERS", 0x30020, 0x0, 1, 0x0, 1, false, [
    ⟨"WTR_S", 31, 16, .rw, 0x12C, .range 0 3600⟩,
    ⟨"HOLDOFF_S", 15, 0, .rw, 0xA, .range 1 600⟩]⟩,
  ⟨"REF_LOCK", 0x30024, 0x0, 1, 0x0, 1, false, [
    ⟨"LOCK_NS", 31, 16, .rw, 0x64, .range 1 65535⟩,
    ⟨"LOCK_S", 15, 8, .rw, 0xA, .range 1 255⟩]⟩,
  ⟨"REF_LOOP", 0x30028, 0x0, 1, 0x0, 1, false, [
    ⟨"BW_TIME", 11, 8, .rw, 0x6, .upTo 12⟩,
    ⟨"BW_PHASE", 7, 4, .rw, 0x3, .upTo 12⟩,
    ⟨"BW_FREQ", 3, 0, .rw, 0x9, .upTo 12⟩]⟩,
  ⟨"REF_FREQ_ACCEPT", 0x30030, 0x0, 1, 0x0, 1, false, [
    ⟨"LIMIT", 23, 0, .rw, 0x3E8, .range 1 16777214⟩]⟩,
  ⟨"REF_FREQ_REJECT", 0x30034, 0x0, 1, 0x0, 1, false, [
    ⟨"LIMIT", 23, 0, .rw, 0x7D0, .dep⟩]⟩,
  ⟨"REF_FREQ_COARSE", 0x30038, 0x0, 1, 0x0, 1, false, [
    ⟨"LIMIT", 23, 0, .rw, 0x4630C0, .range 1 16777215⟩]⟩]

/-- Register rows of the `REF_` block. -/
def rowsRef_1 : List RegRow := [
  ⟨"REF_DRIFT", 0x3003C, 0x0, 1, 0x0, 1, false, [
    ⟨"LIMIT", 15, 0, .rw, 0x3E8, .range 1 65535⟩]⟩,
  ⟨"REF_PHASE_LIM", 0x30040, 0x0, 1, 0x0, 1, false, [
    ⟨"REJECT_NS", 31, 16, .rw, 0x64, .dep⟩,
    ⟨"ACCEPT_NS", 15, 0, .rw, 0x32, .range 1 65534⟩]⟩,
  ⟨"REF_PHASE_WIN", 0x30044, 0x0, 1, 0x0, 1, false, [
    ⟨"WINDOW_S", 15, 0, .rw, 0x3E8, .range 10 65535⟩]⟩,
  ⟨"REF_ACT", 0x30048, 0x0, 1, 0x0, 1, false, [
    ⟨"ACCEPT", 15, 8, .rw, 0x3, .range 1 255⟩,
    ⟨"REJECT", 7, 0, .rw, 0x2, .range 1 255⟩]⟩,
  ⟨"REF_ESMC_TX_EN", 0x30050, 0x0, 1, 0x0, 1, false, [
    ⟨"EN", 23, 0, .rw, 0x0, .any⟩]⟩,
  ⟨"REF_ESMC_HOLD_QL", 0x30054, 0x0, 1, 0x0, 1, false, [
    ⟨"PTP_QL", 7, 4, .rw, 0xF, .dep⟩,
    ⟨"HOLD_QL", 3, 0, .rw, 0xB, .dep⟩]⟩,
  ⟨"REF_PQL0", 0x30060, 0x0, 1, 0x0, 1, false, [
    ⟨"QL", 31, 0, .ro, 0xFFFFFFFF, .any⟩]⟩,
  ⟨"REF_PQL1", 0x30064, 0x0, 1, 0x0, 1, false, [
    ⟨"QL", 31, 0, .ro, 0xFFFFFFFF, .any⟩]⟩,
  ⟨"REF_PQL2", 0x30068, 0x0, 1, 0x0, 1, false, [
    ⟨"QL", 31, 0, .ro, 0xFFFFFFFF, .any⟩]⟩,
  ⟨"REF_INn_CFG", 0x30080, 0x10, 4, 0x0, 1, false, [
    ⟨"STUCK_MS", 31, 20, .rw, 0xBB8, .range 1 4095⟩,
    ⟨"OVR_LIMIT", 19, 12, .rw, 0x10, .range 1 255⟩,
    ⟨"QL_FIXED", 11, 8, .rw, 0xF, .dep⟩,
    ⟨"OVR_DIS_EN", 7, 7, .rw, 0x1, .any⟩,
    ⟨"EDGE", 6, 6, .rw, 0x0, .any⟩,
    ⟨"SIG", 5, 4, .rw, 0x0, .upTo 2⟩,
    ⟨"MODE", 1, 0, .rw, 0x0, .dep⟩]⟩,
  ⟨"REF_INn_FREQ", 0x30084, 0x10, 4, 0x0, 1, false, [
    ⟨"NOM_HZ", 29, 0, .rw, 0x989680, .range 1 800000000⟩]⟩,
  ⟨"REF_INn_DIV", 0x30088, 0x10, 4, 0x0, 1, false, [
    ⟨"DIV", 19, 0, .rw, 0x1, .dep⟩]⟩,
  ⟨"REF_INn_DELAY", 0x3008C, 0x10, 4, 0x0, 1, false, [
    ⟨"DELAY", 31, 0, .rw, 0x0, .any⟩]⟩,
  ⟨"REF_IN_REARM", 0x300C0, 0x0, 1, 0x0, 1, false, [
    ⟨"REARM", 3, 0, .wt, 0x0, .any⟩]⟩]

/-- Register rows of the `REF_` block. -/
def rowsRef_2 : List RegRow := [
  ⟨"REF_PRIOn", 0x30100, 0x4, 16, 0x0, 1, false, [
    ⟨"QL_MIN", 15, 12, .rw, 0xB, .dep⟩,
    ⟨"ENABLE", 6, 6, .rw, 0x0, .any⟩,
    ⟨"CAND", 5, 0, .rw, 0x0, .dep⟩]⟩,
  ⟨"REF_CANDk_STATUS", 0x30200, 0x4, 30, 0x0, 1, false, [
    ⟨"QL", 15, 12, .ro, 0xF, .any⟩,
    ⟨"QUALIFIED", 11, 11, .ro, 0x0, .any⟩,
    ⟨"HOLDOFF", 10, 10, .ro, 0x0, .any⟩,
    ⟨"PHASE_FAIL", 9, 9, .ro, 0x0, .any⟩,
    ⟨"DRIFT_FAIL", 8, 8, .ro, 0x0, .any⟩,
    ⟨"FREQ_FAIL", 7, 7, .ro, 0x0, .any⟩,
    ⟨"FREQ_UNDECIDED", 6, 6, .ro, 0x0, .any⟩,
    ⟨"ACT_FAIL", 5, 5, .ro, 0x0, .any⟩,
    ⟨"STUCK", 4, 4, .ro, 0x0, .any⟩,
    ⟨"OVR_DISABLED", 3, 3, .ro, 0x0, .any⟩,
    ⟨"COMPANION", 2, 2, .ro, 0x0, .any⟩,
    ⟨"CLASS", 1, 0, .ro, 0x0, .any⟩]⟩,
  ⟨"REF_CANDk_FREQ", 0x30280, 0x4, 30, 0x0, 1, false, [
    ⟨"Y", 31, 0, .ro, 0x0, .any⟩]⟩]

/-- All register rows of the `REF_` block. -/
def rowsRef : List RegRow := rowsRef_0 ++ rowsRef_1 ++ rowsRef_2

/-- Register rows of the `HLD_` block. -/
def rowsHld_0 : List RegRow := [
  ⟨"HLD_CTRL", 0x38000, 0x0, 1, 0x0, 1, false, [
    ⟨"TEMP_SRC", 10, 10, .rw, 0x0, .any⟩,
    ⟨"LOAD", 9, 9, .wt, 0x0, .any⟩,
    ⟨"CLEAR", 8, 8, .wt, 0x0, .any⟩,
    ⟨"ANCHOR_EN", 7, 7, .rw, 0x1, .any⟩,
    ⟨"USE", 6, 4, .rw, 0x7, .any⟩,
    ⟨"LEARN", 3, 0, .rw, 0xF, .any⟩]⟩,
  ⟨"HLD_STATUS", 0x38004, 0x0, 1, 0x0, 1, false, [
    ⟨"SAMPLES", 31, 16, .ro, 0x0, .any⟩,
    ⟨"ERR_VALID", 6, 6, .ro, 0x0, .any⟩,
    ⟨"TEMP_OUT", 5, 5, .ro, 0x0, .any⟩,
    ⟨"EPISODE_QUAL", 4, 4, .ro, 0x0, .any⟩,
    ⟨"MODEL_QUAL", 3, 3, .ro, 0x0, .any⟩,
    ⟨"LOG_VALID", 2, 2, .ro, 0x0, .any⟩,
    ⟨"AGE_VALID", 1, 1, .ro, 0x0, .any⟩,
    ⟨"FREQ_VALID", 0, 0, .ro, 0x0, .any⟩]⟩,
  ⟨"HLD_RAW", 0x38008, 0x0, 1, 0x0, 1, false, [
    ⟨"EMB_SEEDED", 5, 5, .rcr, 0x0, .any⟩,
    ⟨"EMB_LOST", 4, 4, .rcr, 0x0, .any⟩,
    ⟨"FIT_DONE", 3, 3, .rcr, 0x0, .any⟩,
    ⟨"UNQUALIFIED", 2, 2, .rcr, 0x0, .any⟩,
    ⟨"EXIT", 1, 1, .rcr, 0x0, .any⟩,
    ⟨"ENTRY", 0, 0, .rcr, 0x0, .any⟩]⟩,
  ⟨"HLD_RAW_EN", 0x3800C, 0x0, 1, 0x0, 1, false, [
    ⟨"EN", 5, 0, .rw, 0x17, .any⟩]⟩,
  ⟨"HLD_QUAL", 0x38010, 0x0, 1, 0x0, 1, false, [
    ⟨"SPAN_H", 31, 16, .rw, 0xA8, .range 6 2000⟩,
    ⟨"RESID", 15, 0, .rw, 0x1F4, .range 1 65535⟩]⟩,
  ⟨"HLD_QUAL_HOLD", 0x38014, 0x0, 1, 0x0, 1, false, [
    ⟨"HOLD_S", 21, 0, .rw, 0x15180, .range 60 2592000⟩]⟩,
  ⟨"HLD_ANCHOR", 0x38018, 0x0, 1, 0x0, 1, false, [
    ⟨"ANCHOR_S", 7, 0, .rw, 0x3C, .range 1 255⟩]⟩,
  ⟨"HLD_TEMP_AXIS", 0x3801C, 0x0, 1, 0x0, 1, false, [
    ⟨"TSTART", 31, 16, .rw, 0xFD80, .any⟩,
    ⟨"TBIN", 15, 0, .rw, 0x50, .range 1 4096⟩]⟩,
  ⟨"HLD_TEMP_NOW", 0x38020, 0x0, 1, 0x0, 1, false, [
    ⟨"OSC_CODE", 27, 16, .ro, 0x0, .any⟩,
    ⟨"DIE", 15, 0, .ro, 0x0, .any⟩]⟩,
  ⟨"HLD_F_LO", 0x38024, 0x0, 1, 0x0, 1, false, [
    ⟨"F", 31, 0, .rl, 0x0, .any⟩]⟩,
  ⟨"HLD_F_HI", 0x38028, 0x0, 1, 0x0, 1, false, [
    ⟨"F", 31, 0, .rh, 0x0, .any⟩]⟩,
  ⟨"HLD_A1", 0x3802C, 0x0, 1, 0x0, 1, false, [
    ⟨"A", 31, 0, .ro, 0x0, .any⟩]⟩,
  ⟨"HLD_A2", 0x38030, 0x0, 1, 0x0, 1, false, [
    ⟨"A", 31, 0, .ro, 0x0, .any⟩]⟩,
  ⟨"HLD_AGE_S", 0x38034, 0x0, 1, 0x0, 1, false, [
    ⟨"VALUE", 31, 0, .ro, 0x0, .any⟩]⟩]

/-- Register rows of the `HLD_` block. -/
def rowsHld_1 : List RegRow := [
  ⟨"HLD_RESID", 0x38038, 0x0, 1, 0x0, 1, false, [
    ⟨"VALUE", 31, 0, .ro, 0x0, .any⟩]⟩,
  ⟨"HLD_ELAPSED", 0x3803C, 0x0, 1, 0x0, 1, false, [
    ⟨"VALUE", 31, 0, .ro, 0x0, .any⟩]⟩,
  ⟨"HLD_LAST_ERR_LO", 0x38040, 0x0, 1, 0x0, 1, false, [
    ⟨"ERR", 31, 0, .rl, 0x0, .any⟩]⟩,
  ⟨"HLD_LAST_ERR_HI", 0x38044, 0x0, 1, 0x0, 1, false, [
    ⟨"ERR", 31, 0, .rh, 0x0, .any⟩]⟩,
  ⟨"HLD_RATE_LO", 0x38048, 0x0, 1, 0x0, 1, false, [
    ⟨"RATE", 31, 0, .rl, 0x0, .any⟩]⟩,
  ⟨"HLD_RATE_HI", 0x3804C, 0x0, 1, 0x0, 1, false, [
    ⟨"RATE", 31, 0, .rh, 0x0, .any⟩]⟩,
  ⟨"HLD_PRE_F_LO", 0x38050, 0x0, 1, 0x0, 1, false, [
    ⟨"F", 31, 0, .rw, 0x0, .any⟩]⟩,
  ⟨"HLD_PRE_F_HI", 0x38054, 0x0, 1, 0x0, 1, false, [
    ⟨"F", 31, 0, .rw, 0x0, .any⟩]⟩,
  ⟨"HLD_PRE_A1", 0x38058, 0x0, 1, 0x0, 1, false, [
    ⟨"VALUE", 31, 0, .rw, 0x0, .any⟩]⟩,
  ⟨"HLD_PRE_A2", 0x3805C, 0x0, 1, 0x0, 1, false, [
    ⟨"VALUE", 31, 0, .rw, 0x0, .any⟩]⟩,
  ⟨"HLD_PRE_AGE_S", 0x38060, 0x0, 1, 0x0, 1, false, [
    ⟨"VALUE", 31, 0, .rw, 0x0, .any⟩]⟩,
  ⟨"HLD_EMB_CFG", 0x38064, 0x0, 1, 0x0, 1, false, [
    ⟨"NO_XTAL", 2, 2, .rw, 0x0, .any⟩,
    ⟨"NO_SUPPLY", 1, 1, .rw, 0x0, .any⟩,
    ⟨"SYNC_EN", 0, 0, .rw, 0x1, .any⟩]⟩,
  ⟨"HLD_TTABb", 0x38100, 0x4, 32, 0x0, 1, false, [
    ⟨"COUNT", 31, 24, .ro, 0x0, .any⟩,
    ⟨"C", 15, 0, .ro, 0x0, .any⟩]⟩,
  ⟨"HLD_PRE_TTABb", 0x38180, 0x4, 32, 0x0, 1, false, [
    ⟨"C", 15, 0, .rw, 0x0, .any⟩]⟩]

/-- Register rows of the `HLD_` block. -/
def rowsHld_2 : List RegRow := [
  ⟨"HLD_EMB_TIME_LO", 0x38400, 0x0, 1, 0x0, 1, false, [
    ⟨"SEC", 31, 15, .rl, 0x0, .any⟩,
    ⟨"CYCLES", 14, 0, .rl, 0x0, .any⟩]⟩,
  ⟨"HLD_EMB_TIME_HI", 0x38404, 0x0, 1, 0x0, 1, false, [
    ⟨"SEC", 30, 0, .rh, 0x0, .any⟩]⟩,
  ⟨"HLD_EMB_TRIM", 0x38408, 0x0, 1, 0x0, 1, false, [
    ⟨"TRIM", 11, 0, .ro, 0x0, .any⟩]⟩,
  ⟨"HLD_EMB_STATUS", 0x3840C, 0x0, 1, 0x0, 1, false, [
    ⟨"LOST", 2, 2, .ro, 0x0, .any⟩,
    ⟨"VALID", 1, 1, .ro, 0x0, .any⟩,
    ⟨"SYNCED", 0, 0, .ro, 0x0, .any⟩]⟩,
  ⟨"HLD_EMB_FAIL_LO", 0x38410, 0x0, 1, 0x0, 1, false, [
    ⟨"TIME", 31, 0, .rl, 0x0, .any⟩]⟩,
  ⟨"HLD_EMB_FAIL_HI", 0x38414, 0x0, 1, 0x0, 1, false, [
    ⟨"TIME", 31, 0, .rh, 0x0, .any⟩]⟩,
  ⟨"HLD_EMB_CTRL", 0x38418, 0x0, 1, 0x0, 1, false, [
    ⟨"INVALIDATE", 1, 1, .wt, 0x0, .any⟩,
    ⟨"RESYNC", 0, 0, .wt, 0x0, .any⟩]⟩]

/-- All register rows of the `HLD_` block. -/
def rowsHld : List RegRow := rowsHld_0 ++ rowsHld_1 ++ rowsHld_2

/-- Register rows of the `SYN_` block. -/
def rowsSyn_0 : List RegRow := [
  ⟨"SYN_CTRL", 0x40000, 0x0, 1, 0x0, 1, false, [
    ⟨"ALIGN_GRID", 4, 4, .rw, 0x0, .any⟩,
    ⟨"JPLL_BW", 1, 0, .rw, 0x1, .any⟩]⟩,
  ⟨"SYN_STATUS", 0x40004, 0x0, 1, 0x0, 1, false, [
    ⟨"PENDING", 15, 15, .ro, 0x0, .any⟩,
    ⟨"BRIDGE_COARSE", 9, 9, .ro, 0x0, .any⟩,
    ⟨"HK_FALLBACK", 8, 8, .ro, 0x1, .any⟩,
    ⟨"DRAM_HOLD", 7, 7, .ro, 0x0, .any⟩,
    ⟨"CORE_HOLD", 6, 6, .ro, 0x0, .any⟩,
    ⟨"JPLL_HOLD", 5, 5, .ro, 0x0, .any⟩,
    ⟨"DRAM_LOCK", 3, 3, .ro, 0x0, .any⟩,
    ⟨"CORE_LOCK", 2, 2, .ro, 0x0, .any⟩,
    ⟨"JPLL_LOCK", 1, 1, .ro, 0x0, .any⟩,
    ⟨"HPLL_LOCK", 0, 0, .ro, 0x0, .any⟩]⟩,
  ⟨"SYN_RAW", 0x40008, 0x0, 1, 0x0, 1, false, [
    ⟨"CLAIM_SWITCH", 8, 8, .rcr, 0x0, .any⟩,
    ⟨"RELAY_DROP", 7, 7, .rcr, 0x0, .any⟩,
    ⟨"BRIDGE", 6, 6, .rcr, 0x0, .any⟩,
    ⟨"RELOCK", 5, 5, .rcr, 0x0, .any⟩,
    ⟨"HK_FALLBACK", 4, 4, .rcr, 0x0, .any⟩,
    ⟨"DRAM_UNLOCK", 3, 3, .rcr, 0x0, .any⟩,
    ⟨"CORE_UNLOCK", 2, 2, .rcr, 0x0, .any⟩,
    ⟨"JPLL_UNLOCK", 1, 1, .rcr, 0x0, .any⟩,
    ⟨"UPDATE_DONE", 0, 0, .rcr, 0x0, .any⟩]⟩,
  ⟨"SYN_RAW_EN", 0x4000C, 0x0, 1, 0x0, 1, false, [
    ⟨"EN", 8, 0, .rw, 0x1DE, .any⟩]⟩,
  ⟨"SYN_SETTLE", 0x40010, 0x0, 1, 0x0, 1, false, [
    ⟨"SETTLE_US", 15, 0, .rw, 0x3E8, .range 10 65535⟩]⟩,
  ⟨"SYN_UPDATE", 0x40014, 0x0, 1, 0x0, 1, false, [
    ⟨"GO", 0, 0, .wt, 0x0, .any⟩]⟩,
  ⟨"SYN_BRIDGE_LO", 0x40018, 0x0, 1, 0x0, 1, false, [
    ⟨"M", 31, 0, .rl, 0x0, .any⟩]⟩,
  ⟨"SYN_BRIDGE_HI", 0x4001C, 0x0, 1, 0x0, 1, false, [
    ⟨"M", 31, 0, .rh, 0x0, .any⟩]⟩,
  ⟨"SYN_On_CFG", 0x40100, 0x20, 10, 0x0, 1, false, [
    ⟨"EN", 31, 31, .rw, 0x0, .any⟩,
    ⟨"SIG", 27, 26, .rw, 0x0, .upTo 1⟩,
    ⟨"MODE", 25, 24, .rw, 0x0, .dep⟩,
    ⟨"GATE_COND", 22, 20, .rw, 0x3, .any⟩,
    ⟨"CLAIM_MODE", 19, 18, .rw, 0x0, .upTo 2⟩,
    ⟨"RLY_FINE", 10, 0, .rw, 0x0, .any⟩]⟩,
  ⟨"SYN_On_INT", 0x40104, 0x20, 10, 0x0, 1, false, [
    ⟨"INT", 31, 0, .rw, 0x40, .dep⟩]⟩,
  ⟨"SYN_On_FRAC", 0x40108, 0x20, 10, 0x0, 1, false, [
    ⟨"FRAC", 23, 0, .rw, 0x0, .dep⟩]⟩,
  ⟨"SYN_On_DELAY", 0x4010C, 0x20, 10, 0x0, 1, false, [
    ⟨"COARSE", 31, 11, .rw, 0x0, .range 0 1999999⟩,
    ⟨"FINE", 10, 0, .rw, 0x0, .range 0 2047⟩]⟩,
  ⟨"SYN_On_GUARD", 0x40110, 0x20, 10, 0x0, 1, false, [
    ⟨"MARGIN_PPM", 19, 0, .rw, 0x4E20, .range 100 100000⟩]⟩,
  ⟨"SYN_On_WIDTH", 0x40114, 0x20, 10, 0x0, 1, false, [
    ⟨"WIDTH", 27, 0, .rw, 0x4C4B40, .dep⟩]⟩]

/-- Register rows of the `SYN_` block. -/
def rowsSyn_1 : List RegRow := [
  ⟨"SYN_On_COUNT", 0x40118, 0x20, 10, 0x0, 1, false, [
    ⟨"COUNT", 31, 0, .rw, 0x0, .dep⟩]⟩,
  ⟨"SYN_On_STATUS", 0x4011C, 0x20, 10, 0x0, 1, false, [
    ⟨"DROPS", 31, 16, .rcr, 0x0, .any⟩,
    ⟨"STAGED", 7, 7, .ro, 0x0, .any⟩,
    ⟨"SOURCE", 6, 6, .ro, 0x0, .any⟩,
    ⟨"CLAIM_HIGH", 5, 5, .ro, 0x1, .any⟩,
    ⟨"REALIGN", 4, 4, .ro, 0x0, .any⟩,
    ⟨"SETTLING", 3, 3, .ro, 0x0, .any⟩,
    ⟨"GATE_CAUSE", 2, 0, .ro, 0x1, .any⟩]⟩]

/-- All register rows of the `SYN_` block. -/
def rowsSyn : List RegRow := rowsSyn_0 ++ rowsSyn_1

/-- Register rows of the `PTS_` block. -/
def rowsPts_0 : List RegRow := [
  ⟨"PTS_CFG", 0x50000, 0x400, 24, 0x0, 1, false, [
    ⟨"FIFO_EN", 3, 3, .rw, 0x1, .any⟩,
    ⟨"ONESTEP_EN", 2, 2, .rw, 0x1, .any⟩,
    ⟨"FTEMP_EN", 1, 1, .rw, 0x0, .any⟩,
    ⟨"PD_EN", 0, 0, .rw, 0x1, .any⟩]⟩,
  ⟨"PTS_STATUS", 0x50004, 0x400, 24, 0x0, 1, false, [
    ⟨"LD_VALID", 11, 11, .ro, 0x0, .any⟩,
    ⟨"FEC", 10, 10, .ro, 0x0, .any⟩,
    ⟨"BLOCK_LOCK", 9, 9, .ro, 0x0, .any⟩,
    ⟨"LANE_LOCK", 8, 8, .ro, 0x0, .any⟩,
    ⟨"TX_PD", 5, 4, .ro, 0x0, .any⟩,
    ⟨"RX_PD", 1, 0, .ro, 0x0, .any⟩]⟩,
  ⟨"PTS_RAW", 0x50008, 0x400, 24, 0x0, 1, false, [
    ⟨"FTEMP_STALE", 7, 7, .rcr, 0x0, .any⟩,
    ⟨"LD_RESTART", 6, 6, .rcr, 0x0, .any⟩,
    ⟨"LOOP_DONE", 5, 5, .rcr, 0x0, .any⟩,
    ⟨"FIFO_OVERFLOW", 4, 4, .rcr, 0x0, .any⟩,
    ⟨"ONESTEP_REFUSED", 3, 3, .rcr, 0x0, .any⟩,
    ⟨"PD_SLIP", 2, 2, .rcr, 0x0, .any⟩,
    ⟨"PD_TRACK", 1, 1, .rcr, 0x0, .any⟩,
    ⟨"LANE_UNLOCK", 0, 0, .rcr, 0x0, .any⟩]⟩,
  ⟨"PTS_RAW_EN", 0x5000C, 0x400, 24, 0x0, 1, false, [
    ⟨"EN", 7, 0, .rw, 0xD5, .any⟩]⟩,
  ⟨"PTS_TX_DLY_FAC", 0x50010, 0x400, 24, 0x0, 1, false, [
    ⟨"DELAY", 31, 0, .ro, 0x0, .any⟩]⟩,
  ⟨"PTS_RX_DLY_FAC", 0x50014, 0x400, 24, 0x0, 1, false, [
    ⟨"DELAY", 31, 0, .ro, 0x0, .any⟩]⟩,
  ⟨"PTS_TX_DLY_USER", 0x50018, 0x400, 24, 0x0, 1, false, [
    ⟨"DELAY", 31, 0, .rw, 0x0, .any⟩]⟩,
  ⟨"PTS_RX_DLY_USER", 0x5001C, 0x400, 24, 0x0, 1, false, [
    ⟨"DELAY", 31, 0, .rw, 0x0, .any⟩]⟩,
  ⟨"PTS_TX_DLY_EFF", 0x50020, 0x400, 24, 0x0, 1, false, [
    ⟨"DELAY", 31, 0, .ro, 0x0, .any⟩]⟩,
  ⟨"PTS_RX_DLY_EFF", 0x50024, 0x400, 24, 0x0, 1, false, [
    ⟨"DELAY", 31, 0, .ro, 0x0, .any⟩]⟩,
  ⟨"PTS_ASYM", 0x50028, 0x400, 24, 0x0, 1, false, [
    ⟨"ASYM", 31, 0, .rw, 0x0, .any⟩]⟩,
  ⟨"PTS_FTEMP_K", 0x5002C, 0x400, 24, 0x0, 1, false, [
    ⟨"K", 15, 0, .rw, 0x0, .any⟩]⟩,
  ⟨"PTS_FTEMP_CAL", 0x50030, 0x400, 24, 0x0, 1, false, [
    ⟨"T_CAL", 31, 16, .rw, 0x0, .any⟩,
    ⟨"TIMEOUT_S", 15, 0, .rw, 0x258, .range 1 65535⟩]⟩,
  ⟨"PTS_FTEMP_NOW", 0x50034, 0x400, 24, 0x0, 1, true, [
    ⟨"T_NOW", 15, 0, .rw, 0x0, .any⟩]⟩]

/-- Register rows of the `PTS_` block. -/
def rowsPts_1 : List RegRow := [
  ⟨"PTS_LD_CFG", 0x50038, 0x400, 24, 0x0, 1, false, [
    ⟨"OUTLIER_PS", 31, 16, .rw, 0x3E8, .range 1 65535⟩,
    ⟨"LOG2_N", 3, 0, .rw, 0x6, .range 0 10⟩]⟩,
  ⟨"PTS_LD_CNT", 0x5003C, 0x400, 24, 0x0, 1, false, [
    ⟨"OUTLIERS", 31, 16, .rcr, 0x0, .any⟩,
    ⟨"DISCARDS", 15, 0, .rcr, 0x0, .any⟩]⟩,
  ⟨"PTS_LD_MEAN_LO", 0x50040, 0x400, 24, 0x0, 1, false, [
    ⟨"DELAY", 31, 0, .rl, 0x0, .any⟩]⟩,
  ⟨"PTS_LD_MEAN_HI", 0x50044, 0x400, 24, 0x0, 1, false, [
    ⟨"DELAY", 31, 0, .rh, 0x0, .any⟩]⟩,
  ⟨"PTS_LD_IN_LO", 0x50048, 0x400, 24, 0x0, 1, false, [
    ⟨"DELAY", 31, 0, .rl, 0x0, .any⟩]⟩,
  ⟨"PTS_LD_IN_HI", 0x5004C, 0x400, 24, 0x0, 1, false, [
    ⟨"DELAY", 31, 0, .rh, 0x0, .any⟩]⟩,
  ⟨"PTS_LD_OUT_LO", 0x50050, 0x400, 24, 0x0, 1, false, [
    ⟨"DELAY", 31, 0, .rl, 0x0, .any⟩]⟩,
  ⟨"PTS_LD_OUT_HI", 0x50054, 0x400, 24, 0x0, 1, false, [
    ⟨"DELAY", 31, 0, .rh, 0x0, .any⟩]⟩,
  ⟨"PTS_PD_PHASE", 0x50058, 0x400, 24, 0x0, 1, false, [
    ⟨"TX_PHASE", 28, 16, .ro, 0x0, .any⟩,
    ⟨"RX_PHASE", 12, 0, .ro, 0x0, .any⟩]⟩,
  ⟨"PTS_LOOP_CTRL", 0x5005C, 0x400, 24, 0x0, 1, true, [
    ⟨"N", 31, 16, .rw, 0x400, .range 1 65535⟩,
    ⟨"ABORT", 1, 1, .wt, 0x0, .any⟩,
    ⟨"GO", 0, 0, .wt, 0x0, .any⟩]⟩,
  ⟨"PTS_LOOP_STATUS", 0x50060, 0x400, 24, 0x0, 1, false, [
    ⟨"ACCEPTED", 31, 16, .ro, 0x0, .any⟩,
    ⟨"LOST", 15, 8, .ro, 0x0, .any⟩,
    ⟨"RUNNING", 1, 1, .ro, 0x0, .any⟩,
    ⟨"VALID", 0, 0, .ro, 0x0, .any⟩]⟩,
  ⟨"PTS_LOOP_MEAN_LO", 0x50064, 0x400, 24, 0x0, 1, false, [
    ⟨"MEAN", 31, 0, .rl, 0x0, .any⟩]⟩,
  ⟨"PTS_LOOP_MEAN_HI", 0x50068, 0x400, 24, 0x0, 1, false, [
    ⟨"MEAN", 31, 0, .rh, 0x0, .any⟩]⟩,
  ⟨"PTS_LOOP_SPAN", 0x5006C, 0x400, 24, 0x0, 1, false, [
    ⟨"SPAN", 31, 0, .ro, 0x0, .any⟩]⟩]

/-- Register rows of the `PTS_` block. -/
def rowsPts_2 : List RegRow := [
  ⟨"PTS_FIFO_HEAD0", 0x50070, 0x400, 24, 0x0, 1, false, [
    ⟨"WORD", 31, 0, .ro, 0x0, .any⟩]⟩,
  ⟨"PTS_FIFO_HEAD1", 0x50074, 0x400, 24, 0x0, 1, false, [
    ⟨"WORD", 31, 0, .ro, 0x0, .any⟩]⟩,
  ⟨"PTS_FIFO_HEAD2", 0x50078, 0x400, 24, 0x0, 1, false, [
    ⟨"WORD", 31, 0, .ro, 0x0, .any⟩]⟩,
  ⟨"PTS_FIFO_HEAD3", 0x5007C, 0x400, 24, 0x0, 1, false, [
    ⟨"WORD", 31, 0, .ro, 0x0, .any⟩]⟩,
  ⟨"PTS_FIFO_POP", 0x50080, 0x400, 24, 0x0, 1, true, [
    ⟨"POP", 0, 0, .wt, 0x0, .any⟩]⟩,
  ⟨"PTS_FIFO_STATUS", 0x50084, 0x400, 24, 0x0, 1, false, [
    ⟨"OVERFLOW", 31, 16, .rcr, 0x0, .any⟩,
    ⟨"DEPTH", 6, 0, .ro, 0x0, .any⟩]⟩,
  ⟨"PTS_ONESTEP_CNT", 0x50088, 0x400, 24, 0x0, 1, false, [
    ⟨"REFUSED", 31, 16, .rcr, 0x0, .any⟩,
    ⟨"INSERTED", 15, 0, .rcr, 0x0, .any⟩]⟩]

/-- All register rows of the `PTS_` block. -/
def rowsPts : List RegRow := rowsPts_0 ++ rowsPts_1 ++ rowsPts_2

/-- Register rows of the `PTP_` block. -/
def rowsPtp_0 : List RegRow := [
  ⟨"PTP_CTRL", 0x60000, 0x0, 1, 0x0, 1, false, [
    ⟨"DOMAIN", 15, 8, .rw, 0x0, .any⟩,
    ⟨"FOLLOW", 2, 2, .rw, 0x1, .any⟩,
    ⟨"EN", 0, 0, .rw, 0x0, .any⟩]⟩,
  ⟨"PTP_STATUS", 0x60004, 0x0, 1, 0x0, 1, false, [
    ⟨"RX_FLAGS", 15, 10, .ro, 0x0, .any⟩,
    ⟨"FIRST_DONE", 9, 9, .ro, 0x0, .any⟩,
    ⟨"VALID", 8, 8, .ro, 0x0, .any⟩,
    ⟨"SERVO", 6, 5, .ro, 0x0, .any⟩,
    ⟨"SERVO_PORT", 4, 0, .ro, 0x1F, .any⟩]⟩,
  ⟨"PTP_RAW", 0x60008, 0x0, 1, 0x0, 1, false, [
    ⟨"FAR_OFFSET", 6, 6, .rcr, 0x0, .any⟩,
    ⟨"NO_WINNER", 5, 5, .rcr, 0x0, .any⟩,
    ⟨"WINNER_CHANGE", 4, 4, .rcr, 0x0, .any⟩,
    ⟨"VALID_LOST", 3, 3, .rcr, 0x0, .any⟩,
    ⟨"FROZEN", 2, 2, .rcr, 0x0, .any⟩,
    ⟨"FIRST_STEP", 1, 1, .rcr, 0x0, .any⟩,
    ⟨"SERVO_CHANGE", 0, 0, .rcr, 0x0, .any⟩]⟩,
  ⟨"PTP_RAW_EN", 0x6000C, 0x0, 1, 0x0, 1, false, [
    ⟨"EN", 6, 0, .rw, 0x7E, .any⟩]⟩,
  ⟨"PTP_CLOCK_ID_LO", 0x60010, 0x0, 1, 0x0, 1, false, [
    ⟨"ID", 31, 0, .rw, 0x0, .any⟩]⟩,
  ⟨"PTP_CLOCK_ID_HI", 0x60014, 0x0, 1, 0x0, 1, false, [
    ⟨"ID", 31, 0, .rw, 0x0, .any⟩]⟩,
  ⟨"PTP_SERVO_CFG", 0x60018, 0x0, 1, 0x0, 1, false, [
    ⟨"STEP_NS", 31, 12, .rw, 0x3E8, .range 1 1000000⟩,
    ⟨"FIRST_N", 11, 8, .rw, 0x4, .range 1 8⟩,
    ⟨"BW_TIGHT", 7, 4, .rw, 0x6, .upTo 12⟩,
    ⟨"BW_STD", 3, 0, .rw, 0x3, .upTo 12⟩]⟩,
  ⟨"PTP_ACCEPT", 0x6001C, 0x0, 1, 0x0, 1, false, [
    ⟨"CLASS_MAX", 15, 8, .rw, 0xF8, .any⟩,
    ⟨"STEPS_MAX", 7, 0, .rw, 0x10, .range 0 254⟩]⟩,
  ⟨"PTP_OFFSET_LO", 0x60020, 0x0, 1, 0x0, 1, false, [
    ⟨"OFFSET", 31, 0, .rl, 0x0, .any⟩]⟩,
  ⟨"PTP_OFFSET_HI", 0x60024, 0x0, 1, 0x0, 1, false, [
    ⟨"OFFSET", 31, 0, .rh, 0x0, .any⟩]⟩,
  ⟨"PTP_RATE_LO", 0x60028, 0x0, 1, 0x0, 1, false, [
    ⟨"RATE", 31, 0, .rl, 0x0, .any⟩]⟩,
  ⟨"PTP_RATE_HI", 0x6002C, 0x0, 1, 0x0, 1, false, [
    ⟨"RATE", 31, 0, .rh, 0x0, .any⟩]⟩,
  ⟨"PTP_TX_QUAL", 0x60030, 0x0, 1, 0x0, 1, false, [
    ⟨"PRIORITY1", 31, 24, .rw, 0x80, .any⟩,
    ⟨"PRIORITY2", 23, 16, .rw, 0x80, .any⟩,
    ⟨"CLASS", 15, 8, .rw, 0xF8, .any⟩,
    ⟨"ACCURACY", 7, 0, .rw, 0xFE, .any⟩]⟩,
  ⟨"PTP_TX_TIME", 0x60034, 0x0, 1, 0x0, 1, false, [
    ⟨"VARIANCE", 31, 16, .rw, 0xFFFF, .any⟩,
    ⟨"TIME_SOURCE", 15, 8, .rw, 0xA0, .any⟩,
    ⟨"FLAGS", 5, 0, .rw, 0x4, .any⟩]⟩]

/-- Register rows of the `PTP_` block. -/
def rowsPtp_1 : List RegRow := [
  ⟨"PTP_TX_HOLD", 0x60038, 0x0, 1, 0x0, 1, false, [
    ⟨"CLASS_HOLD", 15, 8, .rw, 0xBB, .any⟩,
    ⟨"CLASS_FREE", 7, 0, .rw, 0xF8, .any⟩]⟩,
  ⟨"PTP_UTC", 0x6003C, 0x0, 1, 0x0, 1, false, [
    ⟨"RX_OFFSET", 31, 16, .ro, 0x0, .any⟩,
    ⟨"TX_OFFSET", 15, 0, .rw, 0x25, .any⟩]⟩,
  ⟨"PTP_CLAIM_ORG", 0x60040, 0x0, 1, 0x0, 1, false, [
    ⟨"ORG_ID", 23, 0, .rw, 0x6AB257, .any⟩]⟩,
  ⟨"PTP_CLAIM_GRPg", 0x60050, 0x4, 4, 0x0, 1, false, [
    ⟨"PAIR_ID", 31, 16, .rw, 0x0, .any⟩,
    ⟨"WIN_VALID", 5, 5, .ro, 0x0, .any⟩,
    ⟨"WIN_PORT", 4, 0, .ro, 0x1F, .any⟩]⟩,
  ⟨"PTP_CLAIM_WINg", 0x60060, 0x4, 4, 0x0, 1, false, [
    ⟨"CLAIM", 31, 0, .ro, 0x0, .any⟩]⟩,
  ⟨"PTP_Pn_CFG", 0x60400, 0x40, 24, 0x0, 1, false, [
    ⟨"ROLE", 31, 30, .rw, 0x0, .any⟩,
    ⟨"PROFILE", 29, 29, .rw, 0x0, .any⟩,
    ⟨"TRANSPORT", 28, 27, .rw, 0x0, .upTo 2⟩,
    ⟨"DELAY_MECH", 26, 26, .rw, 0x0, .any⟩,
    ⟨"TWO_STEP", 25, 25, .rw, 0x0, .any⟩,
    ⟨"ALL_NONFWD", 24, 24, .rw, 0x0, .any⟩,
    ⟨"CLAIM_GRP", 22, 20, .rw, 0x0, .upTo 4⟩,
    ⟨"SLAVE_PRIO", 19, 16, .rw, 0x0, .any⟩,
    ⟨"VLAN_EN", 15, 15, .rw, 0x0, .any⟩,
    ⟨"VLAN_PCP", 14, 12, .rw, 0x0, .any⟩,
    ⟨"VLAN_VID", 11, 0, .rw, 0x1, .range 1 4094⟩]⟩,
  ⟨"PTP_Pn_INTV", 0x60404, 0x40, 24, 0x0, 1, false, [
    ⟨"LOG_SYNC", 31, 24, .rw, 0x0, .srange (-7) 4⟩,
    ⟨"LOG_DELAY", 23, 16, .rw, 0x0, .srange (-7) 5⟩,
    ⟨"LOG_ANN", 15, 8, .rw, 0x0, .srange (-3) 4⟩,
    ⟨"ANN_TIMEOUT", 7, 0, .rw, 0x3, .range 2 255⟩]⟩,
  ⟨"PTP_Pn_MASTER_LO", 0x60408, 0x40, 24, 0x0, 1, false, [
    ⟨"ID", 31, 0, .rw, 0x0, .any⟩]⟩,
  ⟨"PTP_Pn_MASTER_HI", 0x6040C, 0x40, 24, 0x0, 1, false, [
    ⟨"ID", 31, 0, .rw, 0x0, .any⟩]⟩,
  ⟨"PTP_Pn_MASTER_PORT", 0x60410, 0x40, 24, 0x0, 1, false, [
    ⟨"CHECK_EN", 16, 16, .rw, 0x0, .any⟩,
    ⟨"PORT_NUM", 15, 0, .rw, 0x0, .any⟩]⟩,
  ⟨"PTP_Pn_STATUS", 0x60414, 0x40, 24, 0x0, 1, false, [
    ⟨"WINNER", 15, 15, .ro, 0x0, .any⟩,
    ⟨"CLAIM_VALID", 14, 14, .ro, 0x0, .any⟩,
    ⟨"TIGHT_OK", 13, 13, .ro, 0x0, .any⟩,
    ⟨"SERVO", 12, 12, .ro, 0x0, .any⟩,
    ⟨"STATE", 2, 0, .ro, 0x0, .any⟩]⟩,
  ⟨"PTP_Pn_RAW", 0x60418, 0x40, 24, 0x0, 1, false, [
    ⟨"SAMPLE_DISCARD", 7, 7, .rcr, 0x0, .any⟩,
    ⟨"FOREIGN_MASTER", 6, 6, .rcr, 0x0, .any⟩,
    ⟨"TIGHT_FALLBACK", 5, 5, .rcr, 0x0, .any⟩,
    ⟨"CLAIM_BAD", 4, 4, .rcr, 0x0, .any⟩,
    ⟨"PARENT_CHANGE", 3, 3, .rcr, 0x0, .any⟩,
    ⟨"ANN_REJECT", 2, 2, .rcr, 0x0, .any⟩,
    ⟨"ANN_TIMEOUT", 1, 1, .rcr, 0x0, .any⟩,
    ⟨"ANN_ACCEPT", 0, 0, .rcr, 0x0, .any⟩]⟩,
  ⟨"PTP_Pn_RAW_EN", 0x6041C, 0x40, 24, 0x0, 1, false, [
    ⟨"EN", 7, 0, .rw, 0x3A, .any⟩]⟩,
  ⟨"PTP_Pn_PARENT_LO", 0x60420, 0x40, 24, 0x0, 1, false, [
    ⟨"ID", 31, 0, .rl, 0x0, .any⟩]⟩]

/-- Register rows of the `PTP_` block. -/
def rowsPtp_2 : List RegRow := [
  ⟨"PTP_Pn_PARENT_HI", 0x60424, 0x40, 24, 0x0, 1, false, [
    ⟨"ID", 31, 0, .rh, 0x0, .any⟩]⟩,
  ⟨"PTP_Pn_PARENT_PORT", 0x60428, 0x40, 24, 0x0, 1, false, [
    ⟨"STEPS", 23, 16, .ro, 0x0, .any⟩,
    ⟨"PORT_NUM", 15, 0, .ro, 0x0, .any⟩]⟩,
  ⟨"PTP_Pn_CLAIM", 0x6042C, 0x40, 24, 0x0, 1, false, [
    ⟨"CLAIM", 31, 0, .ro, 0x0, .any⟩]⟩,
  ⟨"PTP_Pn_CNT_MSG", 0x60430, 0x40, 24, 0x0, 1, false, [
    ⟨"ANN_REJECTED", 31, 16, .rcr, 0x0, .any⟩,
    ⟨"SYNC_RX", 15, 0, .rcr, 0x0, .any⟩]⟩,
  ⟨"PTP_Pn_CNT_ERR", 0x60434, 0x40, 24, 0x0, 1, false, [
    ⟨"CLAIM_BAD", 31, 24, .rcr, 0x0, .any⟩,
    ⟨"TIMEOUTS", 23, 16, .rcr, 0x0, .any⟩,
    ⟨"DISCARDED", 15, 0, .rcr, 0x0, .any⟩]⟩]

/-- All register rows of the `PTP_` block. -/
def rowsPtp : List RegRow := rowsPtp_0 ++ rowsPtp_1 ++ rowsPtp_2

/-- Register rows of the `FWD_` block. -/
def rowsFwd_0 : List RegRow := [
  ⟨"FWD_CTRL", 0x100000, 0x0, 1, 0x0, 1, false, [
    ⟨"LEARN_EN", 1, 1, .rw, 0x1, .any⟩,
    ⟨"EN", 0, 0, .rw, 0x0, .any⟩]⟩,
  ⟨"FWD_STATUS", 0x100004, 0x0, 1, 0x0, 1, false, [
    ⟨"POOL_FREE", 30, 16, .ro, 0x0, .any⟩,
    ⟨"DRAIN_PENDING", 2, 2, .ro, 0x0, .any⟩,
    ⟨"FC_STAGED", 1, 1, .ro, 0x0, .any⟩,
    ⟨"FE_STAGED", 0, 0, .ro, 0x0, .any⟩]⟩,
  ⟨"FWD_RAW", 0x100008, 0x0, 1, 0x0, 1, false, [
    ⟨"UNTRACKED", 9, 9, .rcr, 0x0, .any⟩,
    ⟨"WRONG_LAN", 8, 8, .rcr, 0x0, .any⟩,
    ⟨"STREAM_MISS", 7, 7, .rcr, 0x0, .any⟩,
    ⟨"LAG_EMPTY", 6, 6, .rcr, 0x0, .any⟩,
    ⟨"POOL_EMPTY", 5, 5, .rcr, 0x0, .any⟩,
    ⟨"DRAIN_DONE", 4, 4, .rcr, 0x0, .any⟩,
    ⟨"STAGE_ABORT", 3, 3, .rcr, 0x0, .any⟩,
    ⟨"LEARN_FAIL", 2, 2, .rcr, 0x0, .any⟩,
    ⟨"RX_BAD", 1, 1, .rcr, 0x0, .any⟩,
    ⟨"STOMP", 0, 0, .rcr, 0x0, .any⟩]⟩,
  ⟨"FWD_RAW_EN", 0x10000C, 0x0, 1, 0x0, 1, false, [
    ⟨"EN", 9, 0, .rw, 0x269, .any⟩]⟩,
  ⟨"FWD_HASH_CFG", 0x100010, 0x0, 1, 0x0, 1, false, [
    ⟨"FIELDS", 6, 0, .rw, 0x7F, .any⟩]⟩,
  ⟨"FWD_AGE", 0x100014, 0x0, 1, 0x0, 1, false, [
    ⟨"PERIOD_S", 15, 0, .rw, 0x12C, .any⟩]⟩,
  ⟨"FWD_EPOCH", 0x100018, 0x0, 1, 0x0, 1, false, [
    ⟨"CURRENT", 15, 0, .ro, 0x0, .any⟩]⟩,
  ⟨"FWD_DRAIN", 0x10001C, 0x0, 1, 0x0, 1, true, [
    ⟨"DRAIN", 0, 0, .wt, 0x0, .any⟩]⟩,
  ⟨"FWD_RED_POOL", 0x100020, 0x0, 1, 0x0, 1, false, [
    ⟨"COUNT", 30, 16, .rw, 0x0, .dep⟩,
    ⟨"FIRST", 13, 0, .rw, 0x0, .any⟩]⟩,
  ⟨"FWD_RED_FORGET", 0x100024, 0x0, 1, 0x0, 1, false, [
    ⟨"FORGET_MS", 15, 0, .rw, 0x190, .range 1 65535⟩]⟩,
  ⟨"FWD_CNT_RXBAD", 0x100030, 0x0, 1, 0x0, 1, false, [
    ⟨"COUNT", 31, 0, .rcr, 0x0, .any⟩]⟩,
  ⟨"FWD_CNT_STOMP", 0x100034, 0x0, 1, 0x0, 1, false, [
    ⟨"COUNT", 31, 0, .rcr, 0x0, .any⟩]⟩,
  ⟨"FWD_CNT_FILTER", 0x100038, 0x0, 1, 0x0, 1, false, [
    ⟨"COUNT", 31, 0, .rcr, 0x0, .any⟩]⟩,
  ⟨"FWD_CNT_LEARN_FAIL", 0x10003C, 0x0, 1, 0x0, 1, false, [
    ⟨"COUNT", 31, 0, .rcr, 0x0, .any⟩]⟩]

/-- Register rows of the `FWD_` block. -/
def rowsFwd_1 : List RegRow := [
  ⟨"FWD_CNT_DUP", 0x100040, 0x0, 1, 0x0, 1, false, [
    ⟨"COUNT", 31, 0, .rcr, 0x0, .any⟩]⟩,
  ⟨"FWD_CNT_STREAM_MISS", 0x100044, 0x0, 1, 0x0, 1, false, [
    ⟨"COUNT", 31, 0, .rcr, 0x0, .any⟩]⟩,
  ⟨"FWD_CNT_STAGE_ABORT", 0x100048, 0x0, 1, 0x0, 1, false, [
    ⟨"COUNT", 31, 0, .rcr, 0x0, .any⟩]⟩,
  ⟨"FWD_CNT_UNTRACKED", 0x10004C, 0x0, 1, 0x0, 1, false, [
    ⟨"COUNT", 31, 0, .rcr, 0x0, .any⟩]⟩,
  ⟨"FWD_CNT_WRONG_LAN", 0x100050, 0x0, 1, 0x0, 1, false, [
    ⟨"COUNT", 31, 0, .rcr, 0x0, .any⟩]⟩,
  ⟨"FWD_LAGg_MEMBERS", 0x100080, 0x4, 8, 0x0, 1, false, [
    ⟨"PORTS", 23, 0, .rw, 0x0, .any⟩]⟩,
  ⟨"FWD_LAGg_ACTIVE", 0x1000A0, 0x4, 8, 0x0, 1, true, [
    ⟨"PORTS", 23, 0, .rw, 0x0, .any⟩]⟩,
  ⟨"FWD_REDr_CFG", 0x1000C0, 0x4, 4, 0x0, 1, false, [
    ⟨"MODE", 17, 16, .rw, 0x0, .dep⟩,
    ⟨"PORT_B", 12, 8, .rw, 0x0, .upTo 23⟩,
    ⟨"PORT_A", 4, 0, .rw, 0x0, .upTo 23⟩]⟩,
  ⟨"FWD_PORTn_CFG", 0x100400, 0x10, 25, 0x0, 1, false, [
    ⟨"CT_EN", 31, 31, .rw, 0x1, .dep⟩,
    ⟨"LEARN_EN", 30, 30, .rw, 0x1, .any⟩,
    ⟨"INGRESS_FILTER", 29, 29, .rw, 0x1, .any⟩,
    ⟨"DEF_PCP", 18, 16, .rw, 0x0, .any⟩,
    ⟨"PVID", 11, 0, .rw, 0x1, .range 1 4094⟩]⟩,
  ⟨"FWD_PORTn_PCPMAP", 0x100404, 0x10, 25, 0x0, 1, false, [
    ⟨"MAP", 23, 0, .rw, 0xFAC688, .any⟩]⟩,
  ⟨"FWD_PORTn_STATE", 0x100408, 0x10, 25, 0x0, 1, true, [
    ⟨"STATE", 1, 0, .rw, 0x0, .dep⟩]⟩,
  ⟨"FWD_VLANv_MEMBER", 0x110000, 0x10, 4096, 0x0, 1, false, [
    ⟨"VALID", 31, 31, .rw, 0x0, .any⟩,
    ⟨"MEMBER", 24, 0, .rw, 0x0, .any⟩]⟩,
  ⟨"FWD_VLANv_UNTAG", 0x110004, 0x10, 4096, 0x0, 1, false, [
    ⟨"UNTAG", 24, 0, .rw, 0x0, .any⟩]⟩,
  ⟨"FWD_VLANv_CTRL", 0x110008, 0x10, 4096, 0x0, 1, false, [
    ⟨"FLOOD_UNKNOWN", 1, 1, .rw, 0x1, .any⟩,
    ⟨"LEARN_EN", 0, 0, .rw, 0x1, .any⟩]⟩]

/-- All register rows of the `FWD_` block. -/
def rowsFwd : List RegRow := rowsFwd_0 ++ rowsFwd_1

/-- Register rows of the `QUE_` block. -/
def rowsQue_0 : List RegRow := [
  ⟨"QUE_CTRL", 0x200000, 0x0, 1, 0x0, 1, false, [
    ⟨"POOL_XOFF_EN", 1, 1, .rw, 0x1, .any⟩,
    ⟨"SPILL_EN", 0, 0, .rw, 0x0, .any⟩]⟩,
  ⟨"QUE_STATUS", 0x200004, 0x0, 1, 0x0, 1, false, [
    ⟨"DRAM_READY", 3, 3, .ro, 0x0, .any⟩,
    ⟨"SPILL_FULL", 2, 2, .ro, 0x0, .any⟩,
    ⟨"POOL_XOFF", 1, 1, .ro, 0x0, .any⟩,
    ⟨"LOSSLESS_OK", 0, 0, .ro, 0x0, .any⟩]⟩,
  ⟨"QUE_RAW", 0x200008, 0x0, 1, 0x0, 1, false, [
    ⟨"SPILL_CORRECTED", 6, 6, .rcr, 0x0, .any⟩,
    ⟨"MEM_AGED", 5, 5, .rcr, 0x0, .any⟩,
    ⟨"REFUSED", 4, 4, .rcr, 0x0, .any⟩,
    ⟨"POOL_XOFF", 3, 3, .rcr, 0x0, .any⟩,
    ⟨"SPILL_FULL", 2, 2, .rcr, 0x0, .any⟩,
    ⟨"STALL", 1, 1, .rcr, 0x0, .any⟩,
    ⟨"AGED", 0, 0, .rcr, 0x0, .any⟩]⟩,
  ⟨"QUE_RAW_EN", 0x20000C, 0x0, 1, 0x0, 1, false, [
    ⟨"EN", 6, 0, .rw, 0x7E, .any⟩]⟩,
  ⟨"QUE_HERD_CELLS", 0x200010, 0x0, 1, 0x0, 1, false, [
    ⟨"CELLS", 16, 0, .rw, 0x2000, .dep⟩]⟩,
  ⟨"QUE_SHARED", 0x200014, 0x0, 1, 0x0, 1, false, [
    ⟨"CELLS", 16, 0, .ro, 0x16F80, .any⟩]⟩,
  ⟨"QUE_SHARED_FREE", 0x200018, 0x0, 1, 0x0, 1, false, [
    ⟨"CELLS", 16, 0, .ro, 0x16F80, .any⟩]⟩,
  ⟨"QUE_HEADROOM_SUM", 0x20001C, 0x0, 1, 0x0, 1, false, [
    ⟨"CELLS", 20, 0, .ro, 0x0, .any⟩]⟩,
  ⟨"QUE_POOL_HYST", 0x200020, 0x0, 1, 0x0, 1, false, [
    ⟨"CELLS", 15, 0, .rw, 0x800, .range 64 65535⟩]⟩,
  ⟨"QUE_SPILL_CFG", 0x200024, 0x0, 1, 0x0, 1, false, [
    ⟨"HEAD_KEEP", 31, 16, .rw, 0x100, .range 128 4096⟩,
    ⟨"SPILL_TH", 15, 0, .rw, 0x400, .range 128 65535⟩]⟩,
  ⟨"QUE_STALL_CFG", 0x200028, 0x0, 1, 0x0, 1, false, [
    ⟨"STALL_NS", 15, 0, .rw, 0x3E8, .range 100 65535⟩]⟩,
  ⟨"QUE_DRAM_CFG", 0x200030, 0x0, 1, 0x0, 1, false, [
    ⟨"RANKS", 3, 3, .w1, 0x0, .any⟩,
    ⟨"DENSITY", 1, 0, .w1, 0x0, .any⟩]⟩,
  ⟨"QUE_PART", 0x200034, 0x0, 1, 0x0, 1, false, [
    ⟨"CKPT", 29, 20, .w1, 0x0, .dep⟩,
    ⟨"JOURNAL", 19, 10, .w1, 0x0, .dep⟩,
    ⟨"SPILL", 9, 0, .w1, 0x0, .dep⟩]⟩,
  ⟨"QUE_DRAM_STATUS", 0x200038, 0x0, 1, 0x0, 1, false, [
    ⟨"CORRECTED", 31, 16, .rcr, 0x0, .any⟩,
    ⟨"SELF_REFRESH", 1, 1, .ro, 0x0, .any⟩,
    ⟨"TRAINED", 0, 0, .ro, 0x0, .any⟩]⟩]

/-- Register rows of the `QUE_` block. -/
def rowsQue_1 : List RegRow := [
  ⟨"QUE_SPILL_USED", 0x20003C, 0x0, 1, 0x0, 1, false, [
    ⟨"CELLS", 25, 0, .ro, 0x0, .any⟩]⟩,
  ⟨"QUE_AGE_LIMITc", 0x200100, 0x4, 8, 0x0, 1, false, [
    ⟨"LIMIT_US", 23, 0, .rw, 0xFFFFFF, .range 1 16777215⟩]⟩,
  ⟨"QUE_Pn_PFC_CFG", 0x200400, 0x20, 25, 0x0, 1, false, [
    ⟨"QUANTA", 31, 16, .rw, 0xFFFF, .dep⟩,
    ⟨"TX_EN", 15, 8, .rw, 0x0, .dep⟩,
    ⟨"RX_EN", 7, 0, .rw, 0xFF, .dep⟩]⟩,
  ⟨"QUE_Pn_XOFF", 0x200404, 0x20, 25, 0x0, 1, false, [
    ⟨"XOFF_TH", 23, 0, .rw, 0x1000, .dep⟩]⟩,
  ⟨"QUE_Pn_XON", 0x200408, 0x20, 25, 0x0, 1, false, [
    ⟨"XON_TH", 23, 0, .rw, 0x800, .dep⟩]⟩,
  ⟨"QUE_Pn_HEADROOM", 0x20040C, 0x20, 25, 0x0, 1, false, [
    ⟨"H", 15, 0, .rw, 0x9A, .dep⟩]⟩,
  ⟨"QUE_Pn_CNT_PFC", 0x200410, 0x20, 25, 0x0, 1, false, [
    ⟨"RX_PAUSE", 31, 16, .rcr, 0x0, .any⟩,
    ⟨"TX_XOFF", 15, 0, .rcr, 0x0, .any⟩]⟩,
  ⟨"QUE_Pn_CNT_AGED", 0x200414, 0x20, 25, 0x0, 1, false, [
    ⟨"COUNT", 31, 0, .rcr, 0x0, .any⟩]⟩,
  ⟨"QUE_Pn_CNT_REFUSED", 0x200418, 0x20, 25, 0x0, 1, false, [
    ⟨"COUNT", 31, 0, .rcr, 0x0, .any⟩]⟩,
  ⟨"QUE_Pn_PAUSE_STATUS", 0x20041C, 0x20, 25, 0x0, 1, false, [
    ⟨"RX_PAUSED", 15, 8, .ro, 0x0, .any⟩,
    ⟨"TX_XOFF", 7, 0, .ro, 0x0, .any⟩]⟩,
  ⟨"QUE_Qq_MIN", 0x201000, 0x4, 200, 0x0, 1, false, [
    ⟨"CELLS", 16, 0, .rw, 0x80, .dep⟩]⟩,
  ⟨"QUE_Qq_ONDIE", 0x201400, 0x4, 200, 0x0, 1, false, [
    ⟨"CELLS", 17, 0, .ro, 0x0, .any⟩]⟩,
  ⟨"QUE_Qq_SPILL", 0x201800, 0x4, 200, 0x0, 1, false, [
    ⟨"CELLS", 25, 0, .ro, 0x0, .any⟩]⟩,
  ⟨"QUE_INn_Up", 0x202000, 0x20, 25, 0x4, 8, false, [
    ⟨"CELLS", 25, 0, .ro, 0x0, .any⟩]⟩]

/-- All register rows of the `QUE_` block. -/
def rowsQue : List RegRow := rowsQue_0 ++ rowsQue_1

/-- Register rows of the `HRD_` block. -/
def rowsHrd_0 : List RegRow := [
  ⟨"HRD_CTRL", 0x280000, 0x0, 1, 0x0, 1, false, [
    ⟨"EN", 0, 0, .rw, 0x0, .any⟩]⟩,
  ⟨"HRD_CAL", 0x280004, 0x0, 1, 0x0, 1, false, [
    ⟨"PEAK", 29, 16, .rcr, 0x0, .any⟩,
    ⟨"USED", 13, 0, .ro, 0x0, .any⟩]⟩,
  ⟨"HRD_RAW", 0x280008, 0x0, 1, 0x0, 1, false, [
    ⟨"CLAIM_DISCARD", 9, 9, .rcr, 0x0, .any⟩,
    ⟨"OVERSIZE", 8, 8, .rcr, 0x0, .any⟩,
    ⟨"HOP_SAT", 7, 7, .rcr, 0x0, .any⟩,
    ⟨"CAL_FULL", 6, 6, .rcr, 0x0, .any⟩,
    ⟨"ADMIT_OVER", 5, 5, .rcr, 0x0, .any⟩,
    ⟨"FOREIGN", 4, 4, .rcr, 0x0, .any⟩,
    ⟨"TAG_BAD", 3, 3, .rcr, 0x0, .any⟩,
    ⟨"PASSED", 2, 2, .rcr, 0x0, .any⟩,
    ⟨"DISCARD", 1, 1, .rcr, 0x0, .any⟩,
    ⟨"LATE", 0, 0, .rcr, 0x0, .any⟩]⟩,
  ⟨"HRD_RAW_EN", 0x28000C, 0x0, 1, 0x0, 1, false, [
    ⟨"EN", 9, 0, .rw, 0x27A, .any⟩]⟩,
  ⟨"HRD_NODE_ID", 0x280010, 0x0, 1, 0x0, 1, false, [
    ⟨"NODE_ID", 15, 0, .rw, 0x0, .any⟩]⟩,
  ⟨"HRD_EARLY", 0x280014, 0x0, 1, 0x0, 1, false, [
    ⟨"EARLY_US", 15, 0, .rw, 0x1068, .range 100 65535⟩]⟩,
  ⟨"HRD_CNT_LATE", 0x280020, 0x0, 1, 0x0, 1, false, [
    ⟨"COUNT", 31, 0, .rcr, 0x0, .any⟩]⟩,
  ⟨"HRD_CNT_DISCARD", 0x280024, 0x0, 1, 0x0, 1, false, [
    ⟨"COUNT", 31, 0, .rcr, 0x0, .any⟩]⟩,
  ⟨"HRD_CNT_PASSED", 0x280028, 0x0, 1, 0x0, 1, false, [
    ⟨"COUNT", 31, 0, .rcr, 0x0, .any⟩]⟩,
  ⟨"HRD_CNT_DEFER", 0x28002C, 0x0, 1, 0x0, 1, false, [
    ⟨"COUNT", 31, 0, .rcr, 0x0, .any⟩]⟩,
  ⟨"HRD_CNT_TAG_BAD", 0x280030, 0x0, 1, 0x0, 1, false, [
    ⟨"COUNT", 31, 0, .rcr, 0x0, .any⟩]⟩,
  ⟨"HRD_CNT_FOREIGN", 0x280034, 0x0, 1, 0x0, 1, false, [
    ⟨"COUNT", 31, 0, .rcr, 0x0, .any⟩]⟩,
  ⟨"HRD_CNT_CLAIM", 0x280038, 0x0, 1, 0x0, 1, false, [
    ⟨"COUNT", 31, 0, .rcr, 0x0, .any⟩]⟩,
  ⟨"HRD_CNT_OVERSIZE", 0x28003C, 0x0, 1, 0x0, 1, false, [
    ⟨"COUNT", 31, 0, .rcr, 0x0, .any⟩]⟩]

/-- Register rows of the `HRD_` block. -/
def rowsHrd_1 : List RegRow := [
  ⟨"HRD_LAST_LATE", 0x280040, 0x0, 1, 0x0, 1, false, [
    ⟨"REASON", 31, 28, .ro, 0x0, .any⟩,
    ⟨"PORT", 20, 16, .ro, 0x0, .any⟩,
    ⟨"FC", 13, 0, .ro, 0x0, .any⟩]⟩,
  ⟨"HRD_BUDGETb", 0x280100, 0x4, 64, 0x0, 1, false, [
    ⟨"TRIG_SET", 31, 31, .rw, 0x0, .any⟩,
    ⟨"L_US", 11, 0, .rw, 0x64, .range 1 4095⟩]⟩,
  ⟨"HRD_PORTn_CFG", 0x280400, 0x10, 25, 0x0, 1, false, [
    ⟨"CLAIM_IN", 2, 2, .rw, 0x0, .any⟩,
    ⟨"CLAIM_GATE", 1, 1, .rw, 0x0, .any⟩,
    ⟨"EDGE", 0, 0, .rw, 0x0, .any⟩]⟩,
  ⟨"HRD_PORTn_RESV", 0x280404, 0x10, 25, 0x0, 1, false, [
    ⟨"KBPS", 24, 0, .ro, 0x0, .any⟩]⟩,
  ⟨"HRD_PORTn_STATUS", 0x280408, 0x10, 25, 0x0, 1, false, [
    ⟨"OVER", 31, 31, .ro, 0x0, .any⟩,
    ⟨"ENTRIES", 13, 0, .ro, 0x0, .any⟩]⟩]

/-- All register rows of the `HRD_` block. -/
def rowsHrd : List RegRow := rowsHrd_0 ++ rowsHrd_1

/-- Register rows of the `SPR_` block. -/
def rowsSpr_0 : List RegRow := [
  ⟨"SPR_CTRL", 0x300000, 0x0, 1, 0x0, 1, false, [
    ⟨"MODE", 1, 1, .rw, 0x0, .any⟩,
    ⟨"EN", 0, 0, .rw, 0x0, .dep⟩]⟩,
  ⟨"SPR_STATUS", 0x300004, 0x0, 1, 0x0, 1, false, [
    ⟨"FIFO", 28, 16, .ro, 0x0, .any⟩,
    ⟨"LOSSING", 5, 5, .ro, 0x0, .any⟩,
    ⟨"WRAPPED", 4, 4, .ro, 0x0, .any⟩,
    ⟨"FULL", 3, 3, .ro, 0x0, .any⟩,
    ⟨"STATE", 2, 0, .ro, 0x0, .any⟩]⟩,
  ⟨"SPR_RAW", 0x300008, 0x0, 1, 0x0, 1, false, [
    ⟨"FETCH_DONE", 6, 6, .rcr, 0x0, .any⟩,
    ⟨"EXTRA_TRIG", 5, 5, .rcr, 0x0, .any⟩,
    ⟨"OVERRUN", 4, 4, .rcr, 0x0, .any⟩,
    ⟨"FULL", 3, 3, .rcr, 0x0, .any⟩,
    ⟨"LOSS", 2, 2, .rcr, 0x0, .any⟩,
    ⟨"FROZEN", 1, 1, .rcr, 0x0, .any⟩,
    ⟨"TRIGGER", 0, 0, .rcr, 0x0, .any⟩]⟩,
  ⟨"SPR_RAW_EN", 0x30000C, 0x0, 1, 0x0, 1, false, [
    ⟨"EN", 6, 0, .rw, 0x1F, .any⟩]⟩,
  ⟨"SPR_CMD", 0x300010, 0x0, 1, 0x0, 1, true, [
    ⟨"FETCH", 2, 2, .wt, 0x0, .any⟩,
    ⟨"REARM", 1, 1, .wt, 0x0, .any⟩,
    ⟨"FIRE", 0, 0, .wt, 0x0, .any⟩]⟩,
  ⟨"SPR_SIZE", 0x300014, 0x0, 1, 0x0, 1, false, [
    ⟨"N", 28, 0, .ro, 0x0, .any⟩]⟩,
  ⟨"SPR_BASE", 0x300018, 0x0, 1, 0x0, 1, false, [
    ⟨"BASE", 9, 0, .ro, 0x0, .any⟩]⟩,
  ⟨"SPR_WR_COUNT_LO", 0x300020, 0x0, 1, 0x0, 1, false, [
    ⟨"COUNT", 31, 0, .rl, 0x0, .any⟩]⟩,
  ⟨"SPR_WR_COUNT_HI", 0x300024, 0x0, 1, 0x0, 1, false, [
    ⟨"COUNT", 31, 0, .rh, 0x0, .any⟩]⟩,
  ⟨"SPR_RD_COUNT_LO", 0x300028, 0x0, 1, 0x0, 1, true, [
    ⟨"COUNT", 31, 0, .rw, 0x0, .any⟩]⟩,
  ⟨"SPR_RD_COUNT_HI", 0x30002C, 0x0, 1, 0x0, 1, true, [
    ⟨"COUNT", 31, 0, .rw, 0x0, .any⟩]⟩,
  ⟨"SPR_TRIG_COUNT_LO", 0x300030, 0x0, 1, 0x0, 1, false, [
    ⟨"COUNT", 31, 0, .rl, 0x0, .any⟩]⟩,
  ⟨"SPR_TRIG_COUNT_HI", 0x300034, 0x0, 1, 0x0, 1, false, [
    ⟨"COUNT", 31, 0, .rh, 0x0, .any⟩]⟩,
  ⟨"SPR_POST", 0x300038, 0x0, 1, 0x0, 1, false, [
    ⟨"POST", 28, 0, .rw, 0x0, .dep⟩]⟩]

/-- Register rows of the `SPR_` block. -/
def rowsSpr_1 : List RegRow := [
  ⟨"SPR_TRIG_EN", 0x30003C, 0x0, 1, 0x0, 1, false, [
    ⟨"TDC_MASK", 23, 16, .rw, 0xFF, .any⟩,
    ⟨"PIN_EDGE", 8, 8, .rw, 0x0, .any⟩,
    ⟨"HERD", 4, 4, .rw, 0x0, .any⟩,
    ⟨"REG", 3, 3, .rw, 0x0, .any⟩,
    ⟨"PIN", 2, 2, .rw, 0x0, .any⟩,
    ⟨"TDC", 1, 1, .rw, 0x0, .any⟩,
    ⟨"FAULT", 0, 0, .rw, 0x1, .any⟩]⟩,
  ⟨"SPR_TRIG_FAULT_MASK", 0x300040, 0x0, 1, 0x0, 1, false, [
    ⟨"MASK", 17, 0, .rw, 0x3EFFF, .any⟩]⟩,
  ⟨"SPR_TRIG_ADDR", 0x300044, 0x0, 1, 0x0, 1, false, [
    ⟨"ADDR", 23, 2, .rw, 0x0, .any⟩]⟩,
  ⟨"SPR_TRIG_STATUS", 0x300048, 0x0, 1, 0x0, 1, false, [
    ⟨"EXTRA", 31, 16, .rcr, 0x0, .any⟩,
    ⟨"SOURCE", 3, 0, .ro, 0xF, .any⟩]⟩,
  ⟨"SPR_SEL", 0x300050, 0x0, 1, 0x0, 1, false, [
    ⟨"REG_LEVEL", 19, 18, .rw, 0x1, .upTo 2⟩,
    ⟨"DROPS", 17, 17, .rw, 0x1, .any⟩,
    ⟨"HERD_ALL", 16, 16, .rw, 0x1, .any⟩,
    ⟨"OUT_CLASS", 15, 8, .rw, 0x0, .any⟩,
    ⟨"IN_CLASS", 7, 0, .rw, 0x0, .any⟩]⟩,
  ⟨"SPR_SEL_PORT_IN", 0x300054, 0x0, 1, 0x0, 1, false, [
    ⟨"PORTS", 24, 0, .rw, 0x1FFFFFF, .any⟩]⟩,
  ⟨"SPR_SEL_PORT_OUT", 0x300058, 0x0, 1, 0x0, 1, false, [
    ⟨"PORTS", 24, 0, .rw, 0x1FFFFFF, .any⟩]⟩,
  ⟨"SPR_SEL_TDC", 0x30005C, 0x0, 1, 0x0, 1, false, [
    ⟨"KINDS", 11, 8, .rw, 0xF, .any⟩,
    ⟨"CHANNELS", 7, 0, .rw, 0x0, .any⟩]⟩,
  ⟨"SPR_UNC", 0x300060, 0x0, 1, 0x0, 1, false, [
    ⟨"HOLD_PS_PER_S", 31, 16, .rw, 0x5, .any⟩,
    ⟨"LOCKED_PS", 15, 0, .rw, 0x32, .range 1 65535⟩]⟩,
  ⟨"SPR_CNT_LOST_SEL", 0x300070, 0x0, 1, 0x0, 1, false, [
    ⟨"COUNT", 31, 0, .rcr, 0x0, .any⟩]⟩,
  ⟨"SPR_CNT_LOST_MAND", 0x300074, 0x0, 1, 0x0, 1, false, [
    ⟨"COUNT", 31, 0, .rcr, 0x0, .any⟩]⟩,
  ⟨"SPR_CNT_FROZEN", 0x300078, 0x0, 1, 0x0, 1, false, [
    ⟨"COUNT", 31, 0, .rcr, 0x0, .any⟩]⟩,
  ⟨"SPR_FETCH_IDX_LO", 0x300080, 0x0, 1, 0x0, 1, true, [
    ⟨"INDEX", 31, 0, .rw, 0x0, .any⟩]⟩,
  ⟨"SPR_FETCH_IDX_HI", 0x300084, 0x0, 1, 0x0, 1, true, [
    ⟨"INDEX", 31, 0, .rw, 0x0, .any⟩]⟩]

/-- Register rows of the `SPR_` block. -/
def rowsSpr_2 : List RegRow := [
  ⟨"SPR_FETCH_STATUS", 0x300088, 0x0, 1, 0x0, 1, false, [
    ⟨"RESULT", 2, 1, .ro, 0x0, .any⟩,
    ⟨"BUSY", 0, 0, .ro, 0x0, .any⟩]⟩,
  ⟨"SPR_FETCH_Wk", 0x300090, 0x4, 8, 0x0, 1, false, [
    ⟨"WORD", 31, 0, .ro, 0x0, .any⟩]⟩]

/-- All register rows of the `SPR_` block. -/
def rowsSpr : List RegRow := rowsSpr_0 ++ rowsSpr_1 ++ rowsSpr_2

/-- Register rows of the `TDC_` block. -/
def rowsTdc_0 : List RegRow := [
  ⟨"TDC_CTRL", 0x380000, 0x0, 1, 0x0, 1, false, [
    ⟨"EN", 0, 0, .rw, 0x0, .any⟩]⟩,
  ⟨"TDC_STATUS", 0x380004, 0x0, 1, 0x0, 1, false, [
    ⟨"DISABLED", 23, 16, .ro, 0x0, .any⟩,
    ⟨"STUCK", 15, 8, .ro, 0x0, .any⟩,
    ⟨"IN_SERVICE", 7, 0, .ro, 0x0, .any⟩]⟩,
  ⟨"TDC_RAW", 0x380008, 0x0, 1, 0x0, 1, false, [
    ⟨"CAL_FAIL", 9, 9, .rcr, 0x0, .any⟩,
    ⟨"GAP", 8, 8, .rcr, 0x0, .any⟩,
    ⟨"FIFO_OVERFLOW", 7, 7, .rcr, 0x0, .any⟩,
    ⟨"GLITCH", 6, 6, .rcr, 0x0, .any⟩,
    ⟨"STUCK", 5, 5, .rcr, 0x0, .any⟩,
    ⟨"OVR_DISABLE", 4, 4, .rcr, 0x0, .any⟩,
    ⟨"OVERRUN", 3, 3, .rcr, 0x0, .any⟩,
    ⟨"DEAD", 2, 2, .rcr, 0x0, .any⟩,
    ⟨"STAT_DONE", 1, 1, .rcr, 0x0, .any⟩,
    ⟨"WEV", 0, 0, .rcr, 0x0, .any⟩]⟩,
  ⟨"TDC_RAW_EN", 0x38000C, 0x0, 1, 0x0, 1, false, [
    ⟨"EN", 9, 0, .rw, 0x330, .any⟩]⟩,
  ⟨"TDC_REARM", 0x380010, 0x0, 1, 0x0, 1, true, [
    ⟨"REARM", 7, 0, .wt, 0x0, .any⟩]⟩,
  ⟨"TDC_En_CFG", 0x380100, 0x20, 8, 0x0, 1, false, [
    ⟨"EN", 31, 31, .rw, 0x0, .any⟩,
    ⟨"SIG", 30, 29, .rw, 0x0, .upTo 2⟩,
    ⟨"TERM", 28, 28, .rw, 0x1, .any⟩,
    ⟨"EDGE", 27, 26, .rw, 0x0, .upTo 2⟩,
    ⟨"OVR_DIS_EN", 25, 25, .rw, 0x1, .any⟩,
    ⟨"FIFO_EN", 24, 24, .rw, 0x0, .any⟩]⟩,
  ⟨"TDC_En_DLY_FAC", 0x380104, 0x20, 8, 0x0, 1, false, [
    ⟨"DELAY", 31, 0, .ro, 0x0, .any⟩]⟩,
  ⟨"TDC_En_DLY_USER", 0x380108, 0x20, 8, 0x0, 1, false, [
    ⟨"DELAY", 31, 0, .rw, 0x0, .any⟩]⟩,
  ⟨"TDC_En_DLY_EFF", 0x38010C, 0x20, 8, 0x0, 1, false, [
    ⟨"DELAY", 31, 0, .ro, 0x0, .any⟩]⟩,
  ⟨"TDC_En_STATUS", 0x380110, 0x20, 8, 0x0, 1, false, [
    ⟨"SWAPS", 31, 16, .ro, 0x0, .any⟩,
    ⟨"IN_SERVICE", 6, 6, .ro, 0x0, .any⟩,
    ⟨"LEVEL", 5, 5, .ro, 0x0, .any⟩,
    ⟨"CAL_B", 4, 4, .ro, 0x0, .any⟩,
    ⟨"CAL_A", 3, 3, .ro, 0x0, .any⟩,
    ⟨"ACTIVE", 2, 2, .ro, 0x0, .any⟩,
    ⟨"DISABLED", 1, 1, .ro, 0x0, .any⟩,
    ⟨"STUCK", 0, 0, .ro, 0x0, .any⟩]⟩,
  ⟨"TDC_En_CAL_S1", 0x380114, 0x20, 8, 0x0, 1, false, [
    ⟨"VALUE", 20, 0, .ro, 0x0, .any⟩]⟩,
  ⟨"TDC_En_CAL_SPAN", 0x380118, 0x20, 8, 0x0, 1, false, [
    ⟨"VALUE", 20, 0, .ro, 0x0, .any⟩]⟩,
  ⟨"TDC_En_LIMITS", 0x38011C, 0x20, 8, 0x0, 1, false, [
    ⟨"STUCK_MS", 31, 16, .rw, 0x0, .range 0 65535⟩,
    ⟨"OVR_LIMIT", 15, 8, .rw, 0x10, .range 1 255⟩,
    ⟨"FILT", 7, 0, .rw, 0x0, .dep⟩]⟩,
  ⟨"TDC_En_FIFO_LO", 0x380200, 0x10, 8, 0x0, 1, false, [
    ⟨"WORD", 31, 0, .rl, 0x0, .any⟩]⟩]

/-- Register rows of the `TDC_` block. -/
def rowsTdc_1 : List RegRow := [
  ⟨"TDC_En_FIFO_HI", 0x380204, 0x10, 8, 0x0, 1, false, [
    ⟨"WORD", 31, 0, .rh, 0x0, .any⟩]⟩,
  ⟨"TDC_En_FIFO_STATUS", 0x380208, 0x10, 8, 0x0, 1, false, [
    ⟨"OVERFLOW", 31, 16, .rcr, 0x0, .any⟩,
    ⟨"DEPTH", 5, 0, .ro, 0x0, .any⟩]⟩,
  ⟨"TDC_En_FIFO_POP", 0x38020C, 0x10, 8, 0x0, 1, true, [
    ⟨"POP", 0, 0, .wt, 0x0, .any⟩]⟩,
  ⟨"TDC_En_CNT", 0x380280, 0x4, 8, 0x0, 1, false, [
    ⟨"GLITCH", 31, 24, .rcr, 0x0, .any⟩,
    ⟨"OVERRUN", 23, 16, .rcr, 0x0, .any⟩,
    ⟨"DEAD", 15, 0, .rcr, 0x0, .any⟩]⟩,
  ⟨"TDC_En_EVENTS", 0x3802A0, 0x4, 8, 0x0, 1, false, [
    ⟨"COUNT", 31, 0, .ro, 0x0, .any⟩]⟩,
  ⟨"TDC_Mm_CFG", 0x380400, 0x80, 4, 0x0, 1, false, [
    ⟨"EN", 31, 31, .rw, 0x0, .any⟩,
    ⟨"MODE", 30, 29, .rw, 0x0, .upTo 1⟩,
    ⟨"STOPS", 28, 28, .rw, 0x0, .any⟩,
    ⟨"START", 27, 24, .rw, 0x0, .upTo 8⟩,
    ⟨"STOP", 22, 20, .rw, 0x1, .any⟩,
    ⟨"WEV_EN", 10, 0, .rw, 0x7FF, .any⟩]⟩,
  ⟨"TDC_Mm_OPEN", 0x380404, 0x80, 4, 0x0, 1, false, [
    ⟨"NS", 31, 0, .rw, 0x0, .dep⟩]⟩,
  ⟨"TDC_Mm_CLOSE", 0x380408, 0x80, 4, 0x0, 1, false, [
    ⟨"NS", 31, 0, .rw, 0x3E8, .dep⟩]⟩,
  ⟨"TDC_Mm_STAT_N", 0x38040C, 0x80, 4, 0x0, 1, false, [
    ⟨"N", 20, 0, .rw, 0x400, .range 1 1048576⟩]⟩,
  ⟨"TDC_Mm_STATUS", 0x380410, 0x80, 4, 0x0, 1, false, [
    ⟨"WINDOW", 31, 16, .ro, 0x0, .any⟩,
    ⟨"SEQ", 15, 8, .ro, 0x0, .any⟩,
    ⟨"WIN_OPEN", 0, 0, .ro, 0x0, .any⟩]⟩,
  ⟨"TDC_Mm_CNT", 0x380414, 0x80, 4, 0x0, 1, false, [
    ⟨"WEV", 31, 16, .rcr, 0x0, .any⟩,
    ⟨"STAT_OVF", 15, 0, .rcr, 0x0, .any⟩]⟩,
  ⟨"TDC_Mm_STAT_USED", 0x380418, 0x80, 4, 0x0, 1, false, [
    ⟨"COUNT", 20, 0, .ro, 0x0, .any⟩]⟩,
  ⟨"TDC_Mm_STAT_PROG", 0x38041C, 0x80, 4, 0x0, 1, false, [
    ⟨"COUNT", 20, 0, .ro, 0x0, .any⟩]⟩,
  ⟨"TDC_Mm_LIM_MIN_LO", 0x380420, 0x80, 4, 0x0, 1, false, [
    ⟨"VALUE", 31, 0, .rw, 0x0, .any⟩]⟩]

/-- Register rows of the `TDC_` block. -/
def rowsTdc_2 : List RegRow := [
  ⟨"TDC_Mm_LIM_MIN_HI", 0x380424, 0x80, 4, 0x0, 1, false, [
    ⟨"VALUE", 31, 0, .rw, 0x80000000, .any⟩]⟩,
  ⟨"TDC_Mm_LIM_MAX_LO", 0x380428, 0x80, 4, 0x0, 1, false, [
    ⟨"VALUE", 31, 0, .rw, 0xFFFFFFFF, .any⟩]⟩,
  ⟨"TDC_Mm_LIM_MAX_HI", 0x38042C, 0x80, 4, 0x0, 1, false, [
    ⟨"VALUE", 31, 0, .rw, 0x7FFFFFFF, .any⟩]⟩,
  ⟨"TDC_Mm_LAST_LO", 0x380430, 0x80, 4, 0x0, 1, false, [
    ⟨"VALUE", 31, 0, .rl, 0x0, .any⟩]⟩,
  ⟨"TDC_Mm_LAST_HI", 0x380434, 0x80, 4, 0x0, 1, false, [
    ⟨"VALUE", 31, 0, .rh, 0x0, .any⟩]⟩,
  ⟨"TDC_Mm_MEAN_LO", 0x380438, 0x80, 4, 0x0, 1, false, [
    ⟨"VALUE", 31, 0, .rl, 0x0, .any⟩]⟩,
  ⟨"TDC_Mm_MEAN_HI", 0x38043C, 0x80, 4, 0x0, 1, false, [
    ⟨"VALUE", 31, 0, .rh, 0x0, .any⟩]⟩,
  ⟨"TDC_Mm_SD_LO", 0x380440, 0x80, 4, 0x0, 1, false, [
    ⟨"VALUE", 31, 0, .rl, 0x0, .any⟩]⟩,
  ⟨"TDC_Mm_SD_HI", 0x380444, 0x80, 4, 0x0, 1, false, [
    ⟨"VALUE", 31, 0, .rh, 0x0, .any⟩]⟩,
  ⟨"TDC_Mm_MIN_LO", 0x380448, 0x80, 4, 0x0, 1, false, [
    ⟨"VALUE", 31, 0, .rl, 0x0, .any⟩]⟩,
  ⟨"TDC_Mm_MIN_HI", 0x38044C, 0x80, 4, 0x0, 1, false, [
    ⟨"VALUE", 31, 0, .rh, 0x0, .any⟩]⟩,
  ⟨"TDC_Mm_MAX_LO", 0x380450, 0x80, 4, 0x0, 1, false, [
    ⟨"VALUE", 31, 0, .rl, 0x0, .any⟩]⟩,
  ⟨"TDC_Mm_MAX_HI", 0x380454, 0x80, 4, 0x0, 1, false, [
    ⟨"VALUE", 31, 0, .rh, 0x0, .any⟩]⟩]

/-- All register rows of the `TDC_` block. -/
def rowsTdc : List RegRow := rowsTdc_0 ++ rowsTdc_1 ++ rowsTdc_2

/-- Register rows of the `GUY_` block. -/
def rowsGuy_0 : List RegRow := [
  ⟨"GUY_CTRL", 0x3C0000, 0x0, 1, 0x0, 1, false, [
    ⟨"TIME_EN", 2, 2, .rw, 0x1, .any⟩,
    ⟨"POL_AUTO", 1, 1, .rw, 0x1, .any⟩,
    ⟨"EN", 0, 0, .rw, 0x0, .any⟩]⟩,
  ⟨"GUY_STATUS", 0x3C0004, 0x0, 1, 0x0, 1, false, [
    ⟨"STATE", 17, 16, .ro, 0x0, .any⟩,
    ⟨"POL_INV", 15, 12, .ro, 0x0, .any⟩,
    ⟨"BLOCK_LOCK", 11, 8, .ro, 0x0, .any⟩,
    ⟨"LOL", 7, 4, .ro, 0x0, .any⟩,
    ⟨"LOS", 3, 0, .ro, 0x0, .any⟩]⟩,
  ⟨"GUY_RAW", 0x3C0008, 0x0, 1, 0x0, 1, false, [
    ⟨"TIME_STALE", 5, 5, .rcr, 0x0, .any⟩,
    ⟨"POL", 4, 4, .rcr, 0x0, .any⟩,
    ⟨"SKEW_ERR", 3, 3, .rcr, 0x0, .any⟩,
    ⟨"MSG_BAD", 2, 2, .rcr, 0x0, .any⟩,
    ⟨"DOWN", 1, 1, .rcr, 0x0, .any⟩,
    ⟨"UP", 0, 0, .rcr, 0x0, .any⟩]⟩,
  ⟨"GUY_RAW_EN", 0x3C000C, 0x0, 1, 0x0, 1, false, [
    ⟨"EN", 5, 0, .rw, 0x2E, .any⟩]⟩,
  ⟨"GUY_SKEW", 0x3C0010, 0x0, 1, 0x0, 1, false, [
    ⟨"SKEW", 31, 0, .ro, 0x0, .any⟩]⟩,
  ⟨"GUY_LANE_MAP", 0x3C0014, 0x0, 1, 0x0, 1, false, [
    ⟨"MAP", 7, 0, .ro, 0xE4, .any⟩]⟩,
  ⟨"GUY_TX_DLY_FAC", 0x3C0018, 0x0, 1, 0x0, 1, false, [
    ⟨"DELAY", 31, 0, .ro, 0x0, .any⟩]⟩,
  ⟨"GUY_RX_DLY_FAC", 0x3C001C, 0x0, 1, 0x0, 1, false, [
    ⟨"DELAY", 31, 0, .ro, 0x0, .any⟩]⟩,
  ⟨"GUY_TX_DLY_USER", 0x3C0020, 0x0, 1, 0x0, 1, false, [
    ⟨"DELAY", 31, 0, .rw, 0x0, .any⟩]⟩,
  ⟨"GUY_RX_DLY_USER", 0x3C0024, 0x0, 1, 0x0, 1, false, [
    ⟨"DELAY", 31, 0, .rw, 0x0, .any⟩]⟩,
  ⟨"GUY_TX_DLY_EFF", 0x3C0028, 0x0, 1, 0x0, 1, false, [
    ⟨"DELAY", 31, 0, .ro, 0x0, .any⟩]⟩,
  ⟨"GUY_RX_DLY_EFF", 0x3C002C, 0x0, 1, 0x0, 1, false, [
    ⟨"DELAY", 31, 0, .ro, 0x0, .any⟩]⟩,
  ⟨"GUY_OFFSET_LO", 0x3C0030, 0x0, 1, 0x0, 1, false, [
    ⟨"OFFSET", 31, 0, .rl, 0x0, .any⟩]⟩,
  ⟨"GUY_OFFSET_HI", 0x3C0034, 0x0, 1, 0x0, 1, false, [
    ⟨"OFFSET", 31, 0, .rh, 0x0, .any⟩]⟩]

/-- Register rows of the `GUY_` block. -/
def rowsGuy_1 : List RegRow := [
  ⟨"GUY_PARTNER", 0x3C0038, 0x0, 1, 0x0, 1, false, [
    ⟨"QL", 15, 12, .ro, 0xF, .any⟩,
    ⟨"COND", 9, 8, .ro, 0x0, .any⟩,
    ⟨"CAND", 5, 0, .ro, 0x3F, .any⟩]⟩,
  ⟨"GUY_CNT_ERR", 0x3C003C, 0x0, 1, 0x0, 1, false, [
    ⟨"BLOCK_ERR", 31, 16, .rcr, 0x0, .any⟩,
    ⟨"MSG_BAD", 15, 0, .rcr, 0x0, .any⟩]⟩,
  ⟨"GUY_CNT_DOWN", 0x3C0040, 0x0, 1, 0x0, 1, false, [
    ⟨"ALIGN_FAIL", 31, 16, .rcr, 0x0, .any⟩,
    ⟨"DOWNS", 15, 0, .rcr, 0x0, .any⟩]⟩]

/-- All register rows of the `GUY_` block. -/
def rowsGuy : List RegRow := rowsGuy_0 ++ rowsGuy_1

/-- Register rows of the `RUT_` block. -/
def rowsRut : List RegRow := [
  ⟨"RUT_CTRL", 0x3D0000, 0x0, 1, 0x0, 1, false, [
    ⟨"INIT_WAIT", 31, 16, .rw, 0x32, .range 1 600⟩,
    ⟨"RANK", 11, 8, .rw, 0x1, .range 1 15⟩,
    ⟨"UNIT_ID", 7, 4, .rw, 0x0, .any⟩,
    ⟨"MODE", 1, 1, .rw, 0x0, .any⟩,
    ⟨"PAIR_EN", 0, 0, .rw, 0x0, .any⟩]⟩,
  ⟨"RUT_PAIR", 0x3D0004, 0x0, 1, 0x0, 1, false, [
    ⟨"PAIR_ID", 15, 0, .rw, 0x0, .any⟩]⟩,
  ⟨"RUT_TIMERS", 0x3D0008, 0x0, 1, 0x0, 1, false, [
    ⟨"HB_TIMEOUT", 31, 16, .rw, 0x1E, .range 10 20000⟩,
    ⟨"HB_PERIOD_US", 15, 0, .rw, 0x64, .range 10 65535⟩]⟩,
  ⟨"RUT_COPY", 0x3D000C, 0x0, 1, 0x0, 1, false, [
    ⟨"CKPT_MS", 31, 16, .rw, 0x64, .range 10 10000⟩,
    ⟨"MIRROR_US", 15, 0, .rw, 0x64, .range 100 10000⟩]⟩,
  ⟨"RUT_STATUS", 0x3D0010, 0x0, 1, 0x0, 1, false, [
    ⟨"VALID_FC", 30, 16, .ro, 0x0, .any⟩,
    ⟨"PARTNER_STATE", 15, 13, .ro, 0x7, .any⟩,
    ⟨"WIRE_FRESH", 12, 12, .ro, 0x0, .any⟩,
    ⟨"HB_OK", 11, 11, .ro, 0x0, .any⟩,
    ⟨"MIRROR_OVER", 10, 10, .ro, 0x0, .any⟩,
    ⟨"HANDOVER_PENDING", 9, 9, .ro, 0x0, .any⟩,
    ⟨"HIGHER", 8, 8, .ro, 0x1, .any⟩,
    ⟨"READY", 4, 4, .ro, 0x0, .any⟩,
    ⟨"STATE", 2, 0, .ro, 0x0, .any⟩]⟩,
  ⟨"RUT_RAW", 0x3D0014, 0x0, 1, 0x0, 1, false, [
    ⟨"MIRROR_OVER", 10, 10, .rcr, 0x0, .any⟩,
    ⟨"CONFLICT", 9, 9, .rcr, 0x0, .any⟩,
    ⟨"HANDOVER_REFUSED", 8, 8, .rcr, 0x0, .any⟩,
    ⟨"WIRE_LOST", 7, 7, .rcr, 0x0, .any⟩,
    ⟨"CKPT_DISCARD", 6, 6, .rcr, 0x0, .any⟩,
    ⟨"BATCH_DISCARD", 5, 5, .rcr, 0x0, .any⟩,
    ⟨"DEMOTED", 4, 4, .rcr, 0x0, .any⟩,
    ⟨"BECAME_LOWER", 3, 3, .rcr, 0x0, .any⟩,
    ⟨"BECAME_HIGHER", 2, 2, .rcr, 0x0, .any⟩,
    ⟨"HB_FAIL", 1, 1, .rcr, 0x0, .any⟩,
    ⟨"TAKEOVER", 0, 0, .rcr, 0x0, .any⟩]⟩,
  ⟨"RUT_RAW_EN", 0x3D0018, 0x0, 1, 0x0, 1, false, [
    ⟨"EN", 10, 0, .rw, 0x71B, .any⟩]⟩,
  ⟨"RUT_CLAIM", 0x3D001C, 0x0, 1, 0x0, 1, false, [
    ⟨"CLAIM", 31, 0, .ro, 0x0, .any⟩]⟩,
  ⟨"RUT_PARTNER_CLAIM", 0x3D0020, 0x0, 1, 0x0, 1, false, [
    ⟨"CLAIM", 31, 0, .ro, 0x0, .any⟩]⟩,
  ⟨"RUT_CMD", 0x3D0024, 0x0, 1, 0x0, 1, true, [
    ⟨"RELEASE", 1, 1, .wt, 0x0, .any⟩,
    ⟨"HANDOVER", 0, 0, .wt, 0x0, .any⟩]⟩,
  ⟨"RUT_APPLIED", 0x3D0028, 0x0, 1, 0x0, 1, false, [
    ⟨"IDENTITY", 31, 0, .ro, 0x0, .any⟩]⟩,
  ⟨"RUT_CNT", 0x3D002C, 0x0, 1, 0x0, 1, false, [
    ⟨"TAKEOVERS", 31, 24, .rcr, 0x0, .any⟩,
    ⟨"HB_FAILS", 23, 16, .rcr, 0x0, .any⟩,
    ⟨"DISCARDS", 15, 0, .rcr, 0x0, .any⟩]⟩,
  ⟨"RUT_LAST_SWITCH", 0x3D0030, 0x0, 1, 0x0, 1, false, [
    ⟨"US", 31, 0, .ro, 0x0, .any⟩]⟩]

/-- Register rows of the `BOOT_` and `CAL_` block. -/
def rowsBoot_0 : List RegRow := [
  ⟨"BOOT_STATUS", 0x10000, 0x0, 1, 0x0, 1, false, [
    ⟨"SECTION", 27, 16, .ro, 0xFFF, .any⟩,
    ⟨"REASON", 15, 8, .ro, 0x0, .any⟩,
    ⟨"APPLIED", 7, 7, .ro, 0x0, .any⟩,
    ⟨"STATE", 3, 0, .ro, 0x0, .any⟩]⟩,
  ⟨"BOOT_RAW", 0x10004, 0x0, 1, 0x0, 1, false, [
    ⟨"FLASH_REFUSED", 4, 4, .rcr, 0x0, .any⟩,
    ⟨"FLASH_DONE", 3, 3, .rcr, 0x0, .any⟩,
    ⟨"RETRY_REFUSED", 2, 2, .rcr, 0x0, .any⟩,
    ⟨"FAIL", 1, 1, .rcr, 0x0, .any⟩,
    ⟨"RUN", 0, 0, .rcr, 0x0, .any⟩]⟩,
  ⟨"BOOT_RAW_EN", 0x10008, 0x0, 1, 0x0, 1, false, [
    ⟨"EN", 4, 0, .rw, 0x1E, .any⟩]⟩,
  ⟨"BOOT_CMD", 0x1000C, 0x0, 1, 0x0, 1, true, [
    ⟨"RETRY", 0, 0, .wt, 0x0, .any⟩]⟩,
  ⟨"BOOT_RESET_CAUSE", 0x10010, 0x0, 1, 0x0, 1, false, [
    ⟨"POWER_ON", 4, 4, .ro, 0x0, .any⟩,
    ⟨"VIO", 3, 3, .ro, 0x0, .any⟩,
    ⟨"VDDA", 2, 2, .ro, 0x0, .any⟩,
    ⟨"VDD", 1, 1, .ro, 0x0, .any⟩,
    ⟨"PIN", 0, 0, .ro, 0x0, .any⟩]⟩,
  ⟨"BOOT_TIME", 0x10014, 0x0, 1, 0x0, 1, false, [
    ⟨"US", 31, 0, .ro, 0x0, .any⟩]⟩,
  ⟨"BOOT_PACK_ID", 0x10018, 0x0, 1, 0x0, 1, false, [
    ⟨"VALUE", 31, 0, .ro, 0x0, .any⟩]⟩,
  ⟨"BOOT_PACK_LEN", 0x1001C, 0x0, 1, 0x0, 1, false, [
    ⟨"VALUE", 31, 0, .ro, 0x0, .any⟩]⟩,
  ⟨"BOOT_FAIL_OFFSET", 0x10020, 0x0, 1, 0x0, 1, false, [
    ⟨"VALUE", 31, 0, .ro, 0x0, .any⟩]⟩,
  ⟨"BOOT_FAIL_CRC_STORED", 0x10024, 0x0, 1, 0x0, 1, false, [
    ⟨"VALUE", 31, 0, .ro, 0x0, .any⟩]⟩,
  ⟨"BOOT_FAIL_CRC_CALC", 0x10028, 0x0, 1, 0x0, 1, false, [
    ⟨"VALUE", 31, 0, .ro, 0x0, .any⟩]⟩,
  ⟨"BOOT_FLASH_INFO", 0x10030, 0x0, 1, 0x0, 1, false, [
    ⟨"SIZE_LOG2", 31, 24, .ro, 0x0, .any⟩,
    ⟨"JEDEC_ID", 23, 0, .ro, 0x0, .any⟩]⟩,
  ⟨"BOOT_FLASH_CTRL", 0x10034, 0x0, 1, 0x0, 1, true, [
    ⟨"GO", 31, 31, .wt, 0x0, .any⟩,
    ⟨"DIR", 30, 30, .rw, 0x0, .any⟩,
    ⟨"WIDTH", 29, 28, .rw, 0x0, .upTo 2⟩,
    ⟨"ADDR_BYTES", 27, 26, .rw, 0x0, .upTo 2⟩,
    ⟨"DUMMY", 25, 22, .rw, 0x0, .any⟩,
    ⟨"LEN", 16, 8, .rw, 0x0, .range 0 256⟩,
    ⟨"OPCODE", 7, 0, .rw, 0x0, .any⟩]⟩,
  ⟨"BOOT_FLASH_ADDR", 0x10038, 0x0, 1, 0x0, 1, true, [
    ⟨"ADDR", 31, 0, .rw, 0x0, .any⟩]⟩]

/-- Register rows of the `BOOT_` and `CAL_` block. -/
def rowsBoot_1 : List RegRow := [
  ⟨"BOOT_FLASH_STATUS", 0x1003C, 0x0, 1, 0x0, 1, false, [
    ⟨"REFUSED", 31, 16, .rcr, 0x0, .any⟩,
    ⟨"BUSY", 0, 0, .ro, 0x0, .any⟩]⟩,
  ⟨"BOOT_FLASH_BUFk", 0x10100, 0x4, 64, 0x0, 1, true, [
    ⟨"DATA", 31, 0, .rw, 0x0, .any⟩]⟩,
  ⟨"CAL_OTP_STATUS", 0x18000, 0x0, 1, 0x0, 1, false, [
    ⟨"REV", 31, 16, .ro, 0x0, .any⟩,
    ⟨"CRC_OK", 1, 1, .ro, 0x0, .any⟩,
    ⟨"READ_DONE", 0, 0, .ro, 0x0, .any⟩]⟩,
  ⟨"CAL_UID_LO", 0x18004, 0x0, 1, 0x0, 1, false, [
    ⟨"UID", 31, 0, .rl, 0x0, .any⟩]⟩,
  ⟨"CAL_UID_HI", 0x18008, 0x0, 1, 0x0, 1, false, [
    ⟨"UID", 31, 0, .rh, 0x0, .any⟩]⟩,
  ⟨"CAL_TEMP_FAC", 0x1800C, 0x0, 1, 0x0, 1, false, [
    ⟨"OFFSET", 15, 0, .ro, 0x0, .any⟩]⟩,
  ⟨"CAL_TEMP_USER", 0x18010, 0x0, 1, 0x0, 1, false, [
    ⟨"OFFSET", 15, 0, .rw, 0x0, .any⟩]⟩,
  ⟨"CAL_TEMP_EFF", 0x18014, 0x0, 1, 0x0, 1, false, [
    ⟨"OFFSET", 15, 0, .ro, 0x0, .any⟩]⟩,
  ⟨"CAL_On_PATH", 0x18040, 0x4, 10, 0x0, 1, false, [
    ⟨"DELAY", 31, 0, .ro, 0x0, .any⟩]⟩,
  ⟨"CAL_On_RLY", 0x18080, 0x4, 10, 0x0, 1, false, [
    ⟨"DELAY", 31, 0, .ro, 0x0, .any⟩]⟩]

/-- All register rows of the `BOOT_` block. -/
def rowsBoot : List RegRow := rowsBoot_0 ++ rowsBoot_1

/-- Register rows of the `PMC_` block. -/
def rowsPmc_0 : List RegRow := [
  ⟨"PMC_Gg_CYCLE_LO", 0x80000, 0x100, 3, 0x0, 1, true, [
    ⟨"COUNT", 31, 0, .rl, 0x0, .any⟩]⟩,
  ⟨"PMC_Gg_CYCLE_HI", 0x80004, 0x100, 3, 0x0, 1, true, [
    ⟨"COUNT", 15, 0, .rh, 0x0, .any⟩]⟩,
  ⟨"PMC_Gg_CNTk_LO", 0x80008, 0x100, 3, 0x8, 8, true, [
    ⟨"COUNT", 31, 0, .rl, 0x0, .any⟩]⟩,
  ⟨"PMC_Gg_CNTk_HI", 0x8000C, 0x100, 3, 0x8, 8, true, [
    ⟨"COUNT", 15, 0, .rh, 0x0, .any⟩]⟩,
  ⟨"PMC_Gg_SNAP_CYCLE_LO", 0x80400, 0x100, 3, 0x0, 1, true, [
    ⟨"COUNT", 31, 0, .rl, 0x0, .any⟩]⟩,
  ⟨"PMC_Gg_SNAP_CYCLE_HI", 0x80404, 0x100, 3, 0x0, 1, true, [
    ⟨"COUNT", 15, 0, .rh, 0x0, .any⟩]⟩,
  ⟨"PMC_Gg_SNAP_CNTk_LO", 0x80408, 0x100, 3, 0x8, 8, true, [
    ⟨"COUNT", 31, 0, .rl, 0x0, .any⟩]⟩,
  ⟨"PMC_Gg_SNAP_CNTk_HI", 0x8040C, 0x100, 3, 0x8, 8, true, [
    ⟨"COUNT", 15, 0, .rh, 0x0, .any⟩]⟩,
  ⟨"PMC_Gg_SELk", 0x80048, 0x100, 3, 0x4, 8, true, [
    ⟨"EVENT", 4, 0, .rw, 0x0, .dep⟩]⟩,
  ⟨"PMC_SNAP", 0x80800, 0x0, 1, 0x0, 1, true, [
    ⟨"CLEAR", 1, 1, .wt, 0x0, .any⟩,
    ⟨"SNAP", 0, 0, .wt, 0x0, .any⟩]⟩,
  ⟨"PMC_CTRL", 0x80804, 0x0, 1, 0x0, 1, true, [
    ⟨"FREEZE", 0, 0, .rw, 0x0, .any⟩]⟩,
  ⟨"PMC_OVF", 0x80808, 0x0, 1, 0x0, 1, true, [
    ⟨"BITS", 26, 0, .rcr, 0x0, .any⟩]⟩,
  ⟨"PMC_OVF_IE", 0x8080C, 0x0, 1, 0x0, 1, true, [
    ⟨"BITS", 26, 0, .rw, 0x0, .any⟩]⟩,
  ⟨"PMC_RAW", 0x80810, 0x0, 1, 0x0, 1, true, [
    ⟨"SNAP_DONE", 1, 1, .rcr, 0x0, .any⟩,
    ⟨"OVF", 0, 0, .rcr, 0x0, .any⟩]⟩]

/-- Register rows of the `PMC_` block. -/
def rowsPmc_1 : List RegRow := [
  ⟨"PMC_RAW_EN", 0x80814, 0x0, 1, 0x0, 1, true, [
    ⟨"SNAP_DONE", 1, 1, .rw, 0x0, .any⟩,
    ⟨"OVF", 0, 0, .rw, 0x1, .any⟩]⟩,
  ⟨"PMC_SNAP_SEQ", 0x80818, 0x0, 1, 0x0, 1, true, [
    ⟨"SEQ", 31, 0, .ro, 0x0, .any⟩]⟩,
  ⟨"PMC_SNAP_TIME_LO", 0x80820, 0x0, 1, 0x0, 1, true, [
    ⟨"TICK", 31, 0, .rl, 0x0, .any⟩]⟩,
  ⟨"PMC_SNAP_TIME_HI", 0x80824, 0x0, 1, 0x0, 1, true, [
    ⟨"TICK", 31, 0, .rh, 0x0, .any⟩]⟩,
  ⟨"PMC_USER_EN", 0x88000, 0x0, 1, 0x0, 1, false, [
    ⟨"DENIED", 31, 16, .rcr, 0x0, .any⟩,
    ⟨"GROUPS", 2, 0, .rw, 0x0, .any⟩]⟩]

/-- All register rows of the `PMC_` block. -/
def rowsPmc : List RegRow := rowsPmc_0 ++ rowsPmc_1

/-- Register rows of the `MAC_` block. -/
def rowsMac : List RegRow := [
  ⟨"MAC_Pn_CFG", 0x400000, 0x4000, 24, 0x0, 1, false, [
    ⟨"FEC", 1, 1, .rw, 0x0, .any⟩,
    ⟨"EN", 0, 0, .rw, 0x0, .any⟩]⟩,
  ⟨"MAC_Pn_STATUS", 0x400004, 0x4000, 24, 0x0, 1, false, [
    ⟨"FEC_LOCK", 2, 2, .ro, 0x0, .any⟩,
    ⟨"BLOCK_LOCK", 1, 1, .ro, 0x0, .any⟩,
    ⟨"SIGNAL", 0, 0, .ro, 0x0, .any⟩]⟩,
  ⟨"MAC_Pn_RAW", 0x400008, 0x4000, 24, 0x0, 1, false, [
    ⟨"FEC_UNCORR", 2, 2, .rcr, 0x0, .any⟩,
    ⟨"LOCK_LOST", 1, 1, .rcr, 0x0, .any⟩,
    ⟨"LINK_UP", 0, 0, .rcr, 0x0, .any⟩]⟩,
  ⟨"MAC_Pn_RAW_EN", 0x40000C, 0x4000, 24, 0x0, 1, false, [
    ⟨"EN", 2, 0, .rw, 0x6, .any⟩]⟩,
  ⟨"MAC_Pn_RX_FRAMES", 0x400010, 0x4000, 24, 0x0, 1, false, [
    ⟨"COUNT", 31, 0, .rcr, 0x0, .any⟩]⟩,
  ⟨"MAC_Pn_TX_FRAMES", 0x400014, 0x4000, 24, 0x0, 1, false, [
    ⟨"COUNT", 31, 0, .rcr, 0x0, .any⟩]⟩,
  ⟨"MAC_Pn_PCS_ERR", 0x400018, 0x4000, 24, 0x0, 1, false, [
    ⟨"COUNT", 31, 0, .rcr, 0x0, .any⟩]⟩,
  ⟨"MAC_Pn_FEC_CORR", 0x40001C, 0x4000, 24, 0x0, 1, false, [
    ⟨"COUNT", 31, 0, .rcr, 0x0, .any⟩]⟩,
  ⟨"MAC_Pn_FEC_UNCORR", 0x400020, 0x4000, 24, 0x0, 1, false, [
    ⟨"COUNT", 31, 0, .rcr, 0x0, .any⟩]⟩]

/-- Register rows of the `IOP_` block. -/
def rowsIop : List RegRow := [
  ⟨"IOP_CTRL", 0x3E0000, 0x0, 1, 0x0, 1, false, [
    ⟨"SHORT_OFF", 1, 1, .rw, 0x0, .any⟩,
    ⟨"DIAG_OFF", 0, 0, .rw, 0x0, .any⟩]⟩,
  ⟨"IOP_STATUS", 0x3E0004, 0x0, 1, 0x0, 1, false, [
    ⟨"OVERTEMP", 8, 8, .ro, 0x0, .any⟩,
    ⟨"FAULTS", 5, 0, .ro, 0x0, .any⟩]⟩,
  ⟨"IOP_RAW", 0x3E0008, 0x0, 1, 0x0, 1, false, [
    ⟨"POL_CORRECTED", 5, 5, .rcr, 0x0, .any⟩,
    ⟨"OVERTEMP", 4, 4, .rcr, 0x0, .any⟩,
    ⟨"REVERSED", 3, 3, .rcr, 0x0, .any⟩,
    ⟨"OPEN", 2, 2, .rcr, 0x0, .any⟩,
    ⟨"LEG_SHORT", 1, 1, .rcr, 0x0, .any⟩,
    ⟨"SHORT", 0, 0, .rcr, 0x0, .any⟩]⟩,
  ⟨"IOP_RAW_EN", 0x3E000C, 0x0, 1, 0x0, 1, false, [
    ⟨"EN", 5, 0, .rw, 0x1F, .any⟩]⟩,
  ⟨"IOP_PINp_CFG", 0x3E0100, 0x8, 36, 0x0, 1, false, [
    ⟨"SE", 8, 8, .rw, 0x0, .dep⟩,
    ⟨"POL_HINT", 3, 2, .rw, 0x0, .dep⟩,
    ⟨"POL_AUTO", 1, 1, .rw, 0x0, .dep⟩,
    ⟨"MASK", 0, 0, .rw, 0x0, .any⟩]⟩,
  ⟨"IOP_PINp_STATUS", 0x3E0104, 0x8, 36, 0x0, 1, false, [
    ⟨"OFF", 9, 9, .ro, 0x0, .any⟩,
    ⟨"POL_INV", 8, 8, .ro, 0x0, .any⟩,
    ⟨"REVERSED", 7, 7, .ro, 0x0, .any⟩,
    ⟨"OPEN", 6, 6, .ro, 0x0, .any⟩,
    ⟨"LEG_SHORT", 5, 5, .ro, 0x0, .any⟩,
    ⟨"SHORT_SUP_N", 3, 3, .ro, 0x0, .any⟩,
    ⟨"SHORT_GND_N", 2, 2, .ro, 0x0, .any⟩,
    ⟨"SHORT_SUP_P", 1, 1, .ro, 0x0, .any⟩,
    ⟨"SHORT_GND_P", 0, 0, .ro, 0x0, .any⟩]⟩]

end Sys2Proof.Machine
end

