-- ==== Sys2Proof/Machine/State.lean ====
section
/-! DEFINITION. The state of the block, as plain data: the registers by address, DRAM, the queue of waiting
commands, and the state that the spec describes and no register shows. -/

namespace Sys2Proof.Machine

/-! ### Host interface -/

/-- A binary64 number m × 2^e: 0 is ⟨0, 0⟩, any other has 2^52 ≤ |m| < 2^53. -/
structure Dbl where
  m : Int
  e : Int
  deriving DecidableEq, Repr

/-- A stamp with its flags (R176, R181), and the step segment of the voted time it was taken from (R321). -/
structure Stamp where
  t : T96
  coarse : Bool
  gap : Bool
  fecBad : Bool
  seg : Nat
  deriving DecidableEq, Repr

/-- A fault record (R57). -/
structure FaultRec where
  block : Nat
  code : Nat
  detail : Nat
  param : Nat
  time : Tick64
  deriving DecidableEq, Repr

/-- One 32-bit access (R28) that waits for its target domain's clock (R42): the word address, and for a read the first
byte lane and the number of lanes. -/
structure Access where
  src : Src
  addr : Nat
  write : Bool
  value : Word
  lane : Nat
  len : Nat
  deriving DecidableEq, Repr

/-- One journal record (R319): the header fields and the payload P0 and words 4 to 7. -/
structure Rec where
  time : Tick64
  far : Bool
  trig : Bool
  coarse : Bool
  gap : Bool
  xf : Bool
  seg : Nat
  typ : Nat
  node : Nat
  seq : Nat
  p0 : Nat
  w4 : Nat
  w5 : Nat
  w6 : Nat
  w7 : Nat
  deriving DecidableEq, Repr

/-- What waits for a descriptor of a DMA ring (R61): the bytes, the ring-specific DONE_STATUS bits, and bytes 0 to 11 of the
descriptor it was formed for; none of the last on ring 1, whose contents take the descriptor at HEAD. -/
structure Content where
  bytes : List Byte
  st : Nat
  desc : List Byte
  deriving DecidableEq, Repr

/-- A PCIe function (R21, R22): its identity, and the state of its configuration space that the block's own behaviour
uses. -/
structure PciFn where
  /-- Vendor ID, Device ID, class code and Revision ID (R22). -/
  vendor : BitVec 16
  device : BitVec 16
  cls : BitVec 24
  revision : BitVec 8
  /-- The size of its BAR in bytes (R22). -/
  bar : Nat
  /-- In D3hot; D0 otherwise (R21). -/
  d3hot : Bool
  /-- MSI-X Enable and Function Mask (R21; F0 only). -/
  msixEn : Bool
  msixMask : Bool
  /-- Advanced Error Reporting: the uncorrectable and the correctable error status (R21). -/
  aerUncor : Word
  aerCor : Word
  deriving DecidableEq, Repr

/-- F0 as the host's enumeration leaves it (R22): in D0 with MSI-X enabled and nothing masked, no error logged.
DESIGN CHOICE (notes/assumptions/39.md): no row of the table writes configuration space. -/
def PciFn.f0 : PciFn := ⟨0x1F9C#16, 0x2416#16, 0x020000#24, 0xB0#8, 2 ^ 24, false, true, false, 0#32, 0#32⟩

/-- F1 as the host's enumeration leaves it (R22); it raises no interrupts (R21). -/
def PciFn.f1 : PciFn := ⟨0x1F9C#16, 0x2417#16, 0x118000#24, 0xB0#8, 2 ^ 16, false, false, false, 0#32, 0#32⟩

/-- The host interface beyond its registers. -/
structure Hif where
  /-- The functions F0 and F1 (R21, R22). -/
  fn0 : PciFn
  fn1 : PciFn
  /-- The fault-record queue, oldest first, at most 32 (R59). -/
  fq : List FaultRec
  /-- Domains treated as dead (R36). -/
  dead : List Dom
  /-- Accesses that wait for a stopped domain, oldest first (R42). -/
  held : List Access
  /-- F0 requests that PCIe flow control holds, oldest first: the engine has its 16 posted writes (R38). -/
  flow : List Access
  /-- The I²C target's address pointer (R65). -/
  i2cAddr : Nat
  /-- Straps sampled at reset release (R64): `I2C_ADDR1`, `I2C_ADDR0`. -/
  i2cStrap : Nat
  /-- Contents waiting for a descriptor, per DMA ring (R61). -/
  ready : Tbl (List Content)
  /-- Register clock at each ring's last vector message (R62); 0 = none yet. -/
  lastMsg : Tbl Nat
  /-- Rings with a vector message that waits for HOLDOFF_US (R62). -/
  waitMsg : List Nat
  deriving DecidableEq, Repr

/-! ### Timescale -/

/-- A pending host step (R75). -/
inductive HostStep
  | imm (amount : Int)
  | aligned (amount : Int)
  | set (t : T96)
  deriving DecidableEq, Repr

/-- A step of an internal source (R79): relative, an absolute set, or a set to what the timescale is on that tick plus an
offset (R121). -/
inductive IntStep
  | rel (amount : Int)
  | set (t : T96)
  | aim (offset : Int)
  deriving DecidableEq, Repr

/-- Disagreement history of one copy (R87). -/
structure Hist where
  last1 : Nat
  last2 : Nat
  seen : Nat
  deriving DecidableEq, Repr

/-- The Tripod time core (R68 to R93). -/
structure Tsc where
  c0 : Copy
  c1 : Copy
  c2 : Copy
  /-- The voted state. -/
  voted : Copy
  /-- The tick-clock count (R87, R154). -/
  tick : Nat
  /-- The voted seconds carried on the tick just formed. -/
  carried : Bool
  /-- RATE supplied for the next tick (R71). -/
  newRate : Option Int
  /-- The pending host step. -/
  host : Option HostStep
  /-- A tick has been formed since the pending host step was accepted. -/
  hostRipe : Bool
  /-- Steps of internal sources for the next tick, with their source codes. -/
  intern : List (Nat × IntStep)
  /-- Steps of internal sources due on the tick just formed. -/
  due : List (Nat × IntStep)
  /-- Armed injection: copy and state bit (R93). -/
  inject : Option (Nat × Nat)
  /-- Copies to reload on the next tick (R92). -/
  restore : List Nat
  /-- Copies reloaded on the last tick; the device returns to triplex on the next (R92). -/
  rejoin : List Nat
  /-- The disagreement history of each copy (R87). -/
  h0 : Hist
  h1 : Hist
  h2 : Hist
  /-- Tick-clock count at which each fault code was last queued (R90). -/
  lastFault : Tbl (Option Nat)
  /-- The highest second signalled (R83). -/
  sigSec : Nat
  /-- Phase steps and bridges applied since reset release (R188, R218). -/
  breaks : Nat
  /-- The sum of RATE over all ticks since reset release, for the means of R132, R133 and R225. -/
  rateSum : Int
  deriving DecidableEq, Repr

/-! ### Journal -/

/-- Spoor beyond its registers (R319 to R335). -/
structure Spr where
  /-- The write FIFO, oldest first, at most 4,096 records (R330). -/
  fifo : List Rec
  /-- The next SEQ (R320). -/
  seq : Nat
  /-- SEG: applied steps recorded since reset release, modulo 8 (R321). -/
  seg : Nat
  /-- MODE in force since the last rise of EN (R329). -/
  fill : Bool
  /-- Losses since the previous LOSS record: selectable, mandatory, and the first record lost. -/
  lostSel : Nat
  lostMand : Nat
  lostFirst : Option Rec
  /-- The records formed in the present clock, each with the order of its source (R322) and whether it is marked
  "always". -/
  formed : List (Nat × Bool × Rec)
  /-- The index at which the journal freezes (R332); meaningful in POST. -/
  freezeAt : Nat
  /-- The trigger firing in this clock: source and TRIGGER word 4 (R331, R332). -/
  latch : Option (Nat × Nat)
  /-- The first loss after a LOSS record, found in this clock: DETAIL and PARAM of fault 0x01 (R330, R340). -/
  lossNew : Option (Nat × Nat)
  /-- The index a staging fetch copies (R333). -/
  fetch : Nat
  deriving DecidableEq, Repr

/-! ### Reference selection -/

/-- A monitor's verdict (R106 to R110). -/
inductive Verdict
  | none | accept | reject
  deriving DecidableEq, Repr

/-- One reference input (R102 to R104). -/
structure RefIn where
  /-- The stamp of the last divided edge. -/
  last : Option Tick64
  /-- Real time of the previous divided edge, lost or not, in units of 1/65,536 ns of the tick clock (R104, R106). -/
  prev : Option Nat
  /-- The input is stuck (R103), or disabled for its overruns (R104). -/
  stuck : Bool
  disabled : Bool
  /-- Edges lost in the present 1 ms interval. -/
  lost : Nat
  /-- The overrun count. -/
  overruns : Nat
  /-- In the present activity interval: edges, an edge inside its window, an edge outside every window (R106). -/
  count : Nat
  inside : Bool
  outside : Bool
  deriving DecidableEq, Repr

/-- One candidate's monitors and qualification (R105 to R112). -/
structure Cand where
  /-- Consecutive intervals that passed, and that failed (R106). -/
  passes : Nat
  fails : Nat
  /-- The verdicts of the activity, frequency, drift and phase monitors (R106 to R110). -/
  act : Verdict
  freq : Verdict
  drift : Verdict
  phase : Verdict
  /-- Frequency results, newest first (R109, R110). -/
  y : List Int
  /-- Hold-off runs. -/
  hold : Bool
  /-- The candidate is qualified (R111, R112). -/
  qual : Bool
  /-- The candidate is ineligible or inactive under R101. -/
  barred : Bool
  deriving DecidableEq, Repr

/-- A candidate after reset. -/
def Cand.reset : Cand := ⟨0, 0, .none, .none, .none, .none, [], false, false, false⟩

/-- An input after reset. -/
def RefIn.reset : RefIn := ⟨none, none, false, false, 0, 0, 0, false, false⟩

/-- Reference selection beyond its registers. -/
structure RefSel where
  /-- The reference inputs I0 to I3 (R102). -/
  ins : Tbl RefIn
  /-- The candidates 0 to 29 (R101). -/
  cands : Tbl Cand
  /-- `OSC_IN` was found off its frequency and has not been found within 5 % since (R97). -/
  oscBad : Bool
  /-- The last ten warm-up gate results, newest first, and the judging candidate they belong to (R98). -/
  gates : List Int
  judge : Option Nat
  /-- Seconds without a judging candidate (R98). -/
  noJudge : Nat
  /-- ACQUIRE was entered from HOLDOVER (R120, R125). -/
  fromHold : Bool
  /-- The target has been measured (R120, R121). -/
  measured : Bool
  /-- The selected or targeted entry has been withdrawn (R120). -/
  withdrawn : Bool
  /-- The entries whose candidate has been qualified without a break for WTR_S (R118). -/
  wtr : List Nat
  /-- The selected candidate is to be measured again because STEER returned to 0 in LOCKED (R124). -/
  remeasure : Bool
  /-- RATE when the clamped step was applied (R122). -/
  guardRate : Int
  /-- RATE comes from the holdover model (R130). -/
  modelRate : Bool
  /-- The candidate last selected in LOCKED (R126). -/
  lastSel : Nat
  /-- The QL sent on each port, for the change of R115; 16 before the first PDU. -/
  txQl : Tbl Nat
  /-- The target's first two offset samples, or second edges, of the present measurement: target less timescale, in
  Tick64 units (R121). -/
  offs : List Int
  /-- The phase error of the steering loop at the last decision, target less timescale, in Tick64 units (R120). -/
  err : Int
  /-- Decisions in a row with that error within LOCK_NS, and beyond 10 × LOCK_NS (R120). -/
  inLock : Nat
  outLock : Nat
  deriving DecidableEq, Repr

/-! ### Holdover and Ember -/

/-- A sample of a fit interval (R133): τ at the midpoint, ȳ in 10^-15, mean reading. -/
structure Sample where
  t : Int
  y : Int
  theta : Int
  deriving DecidableEq, Repr

/-- The holdover model and Ember beyond their registers. -/
structure Hld where
  /-- A model epoch is set, so τ counts (R131, R133). -/
  epoch : Bool
  /-- The sample ring, newest first, at most 1,024 (R133). -/
  ring : List Sample
  /-- t of the first sample since the last LOAD or CLEAR (R136). -/
  firstT : Option Int
  /-- The temperature table in 10^-15 (R134). -/
  table : Tbl Int
  /-- The bin of the first sample of the model, whose entry stays 0 (R134). -/
  anchorBin : Option Nat
  /-- The anchor in force, in 10^-15 × 2^-64 (R132). -/
  anchor : Int
  /-- RATE kept because neither a model nor a loop mean exists (R132). -/
  frozen : Option Int
  /-- A change of the temperature axis: the next sample sets a new epoch, and τ counts until then (R133, R135). -/
  renew : Bool
  /-- Where the present second began, as tick and sum of RATE, and whether the loop did not steer on one of its ticks
  (R132). -/
  secTick : Nat
  secRate : Int
  secOff : Bool
  /-- Per second, newest first: the sum of RATE over its ticks and their number when the loop steered throughout, and y_model
  in 10^-15 × 2^-64 (R132). -/
  history : List (Option (Int × Nat) × Int)
  /-- Where the present fit interval began, as tick, sum of RATE and phase error of the loop, and the sum and number of its
  readings (R133). -/
  fitTick : Nat
  fitRate : Int
  fitErr : Int
  tempSum : Int
  tempN : Nat
  /-- A holdover episode runs (R128). -/
  episode : Bool
  /-- A condition of R133 has failed in the present fit interval. -/
  broken : Bool
  /-- A resync is requested (R141). -/
  resyncDue : Bool
  /-- Ember's crystal phase within the present cycle, advanced by the register clock. -/
  emberAcc : Nat
  deriving DecidableEq, Repr

/-! ### Synthesis -/

/-- One output beyond its registers (R159 to R172).  Instants of its schedule are phases of the dividers (`Syn.phase`), in
units of 1/(10 × 2^48) ns; real times are in units of 1/65,536 ns, 2 ns to each timescale tick. -/
structure OutRun where
  /-- Under a frequency change: from GO to the apply (R165). -/
  change : Bool
  /-- SETTLE_US runs after the apply (R165). -/
  settling : Bool
  /-- The source the claim gate has moved the output to: the partner's claim is higher (R171). -/
  lower : Bool
  /-- The level of the output, and whether the relay input drives the present high phase (R163, R172). -/
  level : Bool
  byRelay : Bool
  /-- The source has changed and the output has not risen since (R171). -/
  fresh : Bool
  /-- The phase of the next scheduled rising edge, and of the falling edge that ends the present high phase. -/
  next : Option Nat
  fall : Nat
  /-- What of a shift is still to be made, and the lengthening of the period in progress (R168, R169). -/
  left : Nat
  stretch : Nat
  /-- Scheduled rising edges since A (R162). -/
  sent : Nat
  /-- Real time of the output's last rising and falling edge. -/
  lastRise : Option Nat
  lastFall : Option Nat
  deriving DecidableEq, Repr

/-- An output after reset (R163). -/
def OutRun.reset : OutRun :=
  { change := false, settling := false, lower := false, level := false, byRelay := false, fresh := false, next := none, fall := 0,
    left := 0, stretch := 0, sent := 0, lastRise := none, lastFall := none }

/-- Synthesis beyond its registers. -/
structure Syn where
  /-- The values in force, by the address of their staging register (R164). -/
  force : Tbl Word
  /-- The running schedule of each output (R159 to R172). -/
  outs : Tbl OutRun
  /-- Loops that have locked since reset release (R152). -/
  locked : List Loop
  /-- Loops that have relocked after a loss and whose SETTLE_US runs (R152). -/
  settling : List Loop
  /-- The housekeeping PLL was on its fallback during the present gap of the timescale (R154). -/
  gapCoarse : Bool
  /-- Lane PLLs that are locked (R148, R184). -/
  lanes : List Nat
  /-- The dividers' phase: the increments of every tick since reset release, which no step moves (R150), in units of
  1/(10 × 2^48) ns; and its advance on the last tick. -/
  phase : Nat
  advance : Nat
  /-- The second event has come on the present tick (R83, R164). -/
  second : Bool
  /-- The highest second the timescale has reached (R161). -/
  topSec : Nat
  /-- Tick-clock count from which the 2 µs of a pending update run: its GO, or the settling of the jitter-cleaning PLL
  (R164, R166). -/
  goTick : Nat
  deriving DecidableEq, Repr

/-! ### Port stamping -/

/-- One phase detector beyond its state (R180, R182): good samples in a row, and the last 64 samples, unwrapped,
newest first, in 1/4,096 ns. -/
structure Pd where
  /-- Samples in a row that agree with the prediction, and the samples kept, newest first (R180, R182). -/
  good : Nat
  hist : List Int
  deriving DecidableEq, Repr

/-- A loopback measurement (R187): frames sent, frames under way with their departure stamp, samples accepted. -/
structure Loopback where
  sent : Nat
  way : Tbl (Option Stamp)
  sum : Int
  least : Int
  most : Int
  deriving DecidableEq, Repr

/-- The stamping unit of one port beyond its registers. -/
structure Pts where
  /-- The receive and the transmit phase detector (R180). -/
  rx : Pd
  tx : Pd
  /-- Accepted link-delay samples, newest first (R189). -/
  ld : List Int
  /-- Rejections in a row (R189). -/
  outliers : Nat
  /-- The loopback measurement of the port (R187). -/
  loop : Loopback
  /-- The two-step FIFO: the four words of each record, oldest first (R196). -/
  fifo : List (Word × Word × Word × Word)
  deriving DecidableEq, Repr

/-- A stamping unit after reset. -/
def Pts.reset : Pts := ⟨⟨0, []⟩, ⟨0, []⟩, [], 0, ⟨0, [], 0, 0, 0⟩, []⟩

/-- The operation of a one-step request (R193): a stamp at byte offset `f`, or a residence time since `t0`. -/
inductive StepOp
  | stamp (f : Nat)
  | residence (t0 : Tick64)
  deriving DecidableEq, Repr

/-- A one-step request (R193): its operation, the offset of the correction field, and that of a checksum. -/
structure OneStep where
  op : StepOp
  corr : Nat
  sum : Option Nat
  deriving DecidableEq, Repr

/-! ### PTP -/

/-- A two-step Sync that waits for its Follow_Up (R218). -/
structure SyncWait where
  seq : Nat
  t2 : Stamp
  corr : Int
  breaks : Nat
  phase : Int
  delay : Int
  /-- The Sync's own correctionField or its parent makes its remote stamp unusable (R217). -/
  bad : Bool
  deriving DecidableEq, Repr

/-- An accepted Sync of the parent with its times, for the delay exchange (R217). -/
structure SyncTimes where
  t1 : Tick64
  t2 : Stamp
  usable : Bool
  breaks : Nat
  deriving DecidableEq, Repr

/-- A Delay_Req under way (R217). -/
structure DelayWait where
  seq : Nat
  t3 : Stamp
  breaks : Nat
  deriving DecidableEq, Repr

/-- A Pdelay_Req under way; after a two-step Pdelay_Resp, its receipt and t2 less corrections (R217). -/
structure PdelayWait where
  seq : Nat
  t1 : Stamp
  breaks : Nat
  resp : Option (Stamp × Tick64 × Bool)
  deriving DecidableEq, Repr

/-- A request waiting for its response (R206, R207): sequenceId, requesting port identity, correctionField, receipt. -/
structure RespWait where
  seq : Nat
  ident : Nat
  corr : Int
  t : Stamp
  deriving DecidableEq, Repr

/-- A follow-up waiting to leave (R206): it belongs to a Sync, or to a Pdelay_Resp. -/
structure FollowWait where
  pdelay : Bool
  seq : Nat
  ident : Nat
  corr : Int
  t : Stamp
  deriving DecidableEq, Repr

/-- One PTP port beyond its registers. -/
structure PtpPort where
  /-- The last accepted Announce (R209). -/
  ann : List Byte
  /-- Its valid claim TLV: PAIRED, TIGHT, PAIR_ID (R211, R214); none without one. -/
  claim : Option (Bool × Bool × Nat)
  /-- The two-step Sync that waits for its Follow_Up (R218). -/
  wait : Option SyncWait
  /-- Accepted Syncs, newest first, for a delay exchange under way (R217). -/
  syncs : List SyncTimes
  /-- The Delay_Req and the Pdelay_Req that wait for their responses (R207, R217). -/
  dreq : Option DelayWait
  pdreq : Option PdelayWait
  /-- Requests whose responses have not left, and follow-ups that have not, oldest first (R206). -/
  dresp : List RespWait
  pdresp : List RespWait
  follow : List FollowWait
  /-- Tick-clock count at the port's last accepted offset sample from its parent (R216, R219). -/
  last : Option Nat
  /-- The claim that the last Announce of the port carried (R213). -/
  told : Nat
  deriving DecidableEq, Repr

/-- A PTP port after reset. -/
def PtpPort.reset : PtpPort :=
  { ann := [], claim := none, wait := none, syncs := [], dreq := none, pdreq := none, dresp := [], pdresp := [], follow := [],
    last := none, told := 0 }

/-- The PTP engine beyond its registers. -/
structure Ptp where
  /-- The PTP state of each port (R205). -/
  ports : Tbl PtpPort
  /-- Next sequenceId, by port × 16 + message type (R206). -/
  seqs : Tbl Nat
  /-- The integral term of the servo (R224). -/
  integ : Dbl
  /-- The open-loop estimate f of R225. -/
  est : Dbl
  /-- Tick-clock count at the last accepted sample of the servo port (R219, R224). -/
  last : Option Nat
  /-- The first-lock rule waits, with the samples it has taken (R226). -/
  first : Option (List Int)
  /-- The selector has been in FREE_RUN since the first-lock rule last applied (R226). -/
  armed : Bool
  /-- Accepted samples of the present gate: tick and offset (R225). -/
  gate : List (Nat × Int)
  /-- The values of integ in the present gate, newest first, each with the tick from which it holds (R225). -/
  integs : List (Nat × Dbl)
  /-- Where the present gate began: tick, and the sum of RATE over all ticks before it (R225). -/
  gateTick : Nat
  gateRate : Int
  /-- The references o_ref, p_ref and d_ref of tight-link mode (R221). -/
  oRef : Int
  pRef : Int
  dRef : Int
  /-- The tight references have been rebased since TIGHT_OK rose or the servo port changed (R221, R228). -/
  based : Bool
  deriving DecidableEq, Repr

/-! ### Frames -/

/-- The headers a frame carries (R232). -/
structure Heads where
  /-- An 802.1Q tag follows the source address; its tag control information. -/
  vlan : Bool
  tci : Nat
  /-- An HSR tag is recognised. -/
  hsr : Bool
  /-- EtherType 0x88B5 stands where a Herd tag may stand; the tag is recognised, its check being right. -/
  herdType : Bool
  herd : Bool
  /-- Offset of the Herd tag's EtherType, or of the frame's own EtherType without one. -/
  herdAt : Nat
  /-- The frame's own EtherType and its offset. -/
  etype : Nat
  own : Nat
  /-- A PRP trailer is recognised: its sequence number and LanId. -/
  rct : Option (Nat × Nat)
  deriving DecidableEq, Repr

/-- What makes a frame a Herd frame at this node (R299, R300, R302). -/
structure HerdInfo where
  /-- What its tag carries or will carry: origin, node, flow, the trigger and late flags, hops and cumulated delay
  (R296). -/
  origin : Tick64
  node : Nat
  flow : Nat
  trig : Bool
  late : Bool
  hops : Nat
  cum : Nat
  /-- The budget L in µs of its lookup. -/
  budget : Nat
  /-- Its stamp cannot serve as an origin (R309 ORIGIN). -/
  badStamp : Bool
  deriving DecidableEq, Repr

/-- The account a frame's cells are charged to after its lookup (R266). -/
inductive Account
  | none | herd | min (q : Nat) | pool
  deriving DecidableEq, Repr

/-- What a lookup gave a frame (R235 to R254). -/
structure Looked where
  /-- The headers recognised (R232), and the VID (R235). -/
  heads : Heads
  vid : Nat
  /-- Class of R235. -/
  cls : Nat
  /-- The flow hash H (R237), and the table epoch it was looked up under (R245). -/
  hash : Nat
  epoch : Nat
  /-- Flow context, when a valid one is named. -/
  fc : Option Nat
  /-- Its flow context asks for departure stamps (R248). -/
  stampReq : Bool
  /-- LATE_POLICY is PASS_FLAGGED. -/
  latePass : Bool
  /-- The egress VID (R241 XLATE_EN). -/
  outVid : Nat
  /-- The redundancy group of the ingress port: its index. -/
  redIn : Option Nat
  /-- The groups the frame is sent into from elsewhere, each with the sequence number it takes; none = untracked. -/
  redOut : List (Nat × Option Nat)
  /-- Egress ports, and the reason code for P24 (R261). -/
  dests : List Nat
  reason : Nat
  /-- DETAIL [7:5] of FRAME_IN (R323). -/
  decision : Nat
  /-- Its source address is to be learnt (R243). -/
  learn : Bool
  /-- A Management or Signaling message for the host (R202). -/
  mgmt : Bool
  /-- What makes it a Herd frame, if it is one (R299). -/
  herd : Option HerdInfo
  deriving DecidableEq, Repr

/-- A frame that the device holds. -/
structure Frame where
  /-- Its number, in order of arrival. -/
  id : Nat
  /-- Ingress port 0 to 24. -/
  port : Nat
  /-- Ingress priority (R279). -/
  prio : Nat
  /-- The bytes as they arrive, FCS last. -/
  bytes : List Byte
  /-- Its arrival stamp (R176). -/
  stamp : Stamp
  /-- Its last byte has been received. -/
  whole : Bool
  /-- Its last byte came while the core domain was stopped and its judgement waits: the bytes with a PCS error (R153). -/
  ended : Option (List Nat)
  /-- Why it is not well-formed: 0 to 4 as in FRAME_STOMP (R324), 5 below 64 bytes (R231). -/
  bad : Option Nat
  /-- It lies in its lane's receive FIFO (R284). -/
  lane : Bool
  /-- Cells it holds: 64 until its last byte (R280), then ⌈L / 256⌉. -/
  cells : Nat
  /-- Cells charged to the landing reserve and, while it lands, to the shared pool (R266). -/
  landing : Nat
  landPool : Nat
  /-- The account its cells are charged to after the lookup (R266), and what the lookup found. -/
  account : Account
  look : Option Looked
  /-- The slice has handed it to the queue manager (R266). -/
  placed : Bool
  /-- Egress ports whose calendar copy waits for HERD_PLACE (R304). -/
  toPlace : List Nat
  /-- A DIRECT frame of ring 0, with its two-step tag when TS_REQ was set (R259). -/
  direct : Bool
  tag : Option Nat
  deriving DecidableEq, Repr

/-- A copy in an egress queue (R267, R289). -/
structure QCopy where
  /-- Its frame, egress port and class (R267). -/
  frame : Nat
  port : Nat
  cls : Nat
  /-- The microsecond count at which it was charged. -/
  e : Nat
  /-- It may leave cut-through (R255). -/
  cut : Bool
  /-- It lies in DRAM (R276). -/
  dram : Bool
  /-- The reason code of a copy for P24 (R261). -/
  reason : Nat
  deriving DecidableEq, Repr

/-- A copy in a calendar or pass list (R304, R311). -/
structure HCopy where
  /-- Its frame and egress port. -/
  frame : Nat
  port : Nat
  /-- The release time R (R302). -/
  r : Tick64
  /-- The slack at placement in Tick64 units (R309). -/
  slack : Int
  /-- Arrival order (R305). -/
  arr : Nat
  /-- The reason it was judged late with; 0 in the calendar. -/
  reason : Nat
  deriving DecidableEq, Repr

/-- A cut-through copy in transmission (R255, R256). -/
structure Sending where
  copy : QCopy
  stamp : Stamp
  deriving DecidableEq, Repr

/-- A table's staging buffer (R244): the entry's address and the words staged, by word index. -/
structure Staging where
  entry : Nat
  words : Tbl (Option Nat)
  deriving DecidableEq, Repr

/-- Forwarding, queues and Herd beyond their registers and tables. -/
structure Fwd where
  /-- The frames held, oldest first. -/
  frames : List Frame
  /-- The number the next frame gets. -/
  nextId : Nat
  /-- The queues 0 to 199, head first. -/
  queues : Tbl (List QCopy)
  /-- The calendar and the pass list of each port (R304, R311). -/
  cals : Tbl (List HCopy)
  passes : Tbl (List HCopy)
  /-- What each port is sending cut-through. -/
  sending : Tbl (Option Sending)
  /-- Frames at the end of each slice's pipeline that cannot be placed, oldest first (R283). -/
  stalled : Tbl (List Nat)
  /-- The stall cause of XOFF acts (R282). -/
  stallOn : Bool
  /-- Priorities in XOFF for the priority cause, by port (R282). -/
  prioX : Tbl Nat
  /-- The XOFF state last sent on each port (R286). -/
  pfcSent : Tbl Nat
  /-- Forwarding-entry and flow-context staging buffers. -/
  fe : Option Staging
  fc : Option Staging
  /-- Policer accrual: the core clock and the remainder at the last update, by context (R249). -/
  tokens : Tbl (Nat × Nat)
  /-- Frames the drain waits for (R247). -/
  drain : List Nat
  /-- Groups named while they have no active member (R251). -/
  lagEmpty : Nat
  /-- Register-clock cycle of the last refusal, and of the last failed Herd tag, by port (R280, R300). -/
  refused : Tbl (Option Nat)
  tagBad : Tbl (Option Nat)
  /-- D° + T of the port's previous calendar copy, in units of 1/25 of a Tick64 unit (R305). -/
  line : Tbl (Option Nat)
  /-- The departure stamp of the port's previous frame plus its line time, in the same units (R306). -/
  lineEnd : Tbl (Option Nat)
  /-- Ports in breach of the admission rule (R313). -/
  breach : Nat
  /-- A FULL judgement has been reported since the calendar last had room (R317). -/
  calFull : Bool
  deriving DecidableEq, Repr

/-! ### Event timing -/

/-- An edge in a capture FIFO (R344, R349): the raw code, the voted time and increment at the clock edge, the calibration
and delay in force, SWAPS, whether edges were lost before it, and the step segment. -/
structure TdcCap where
  code : Nat
  e : Tick64
  inc : Nat
  s1 : Int
  span : Int
  dly : Int
  swaps : Nat
  lost : Bool
  seg : Nat
  deriving DecidableEq, Repr

/-- One interpolator's calibration (R345, R347): s1 and span when valid, and whether it was completed since the
interpolator was last in service. -/
structure TdcCal where
  cal : Option (Int × Int)
  fresh : Bool
  deriving DecidableEq, Repr

/-- One channel beyond its registers (R344 to R353). -/
structure TdcChan where
  /-- The capture FIFO, oldest first. -/
  caps : List TdcCap
  /-- The last 128 unrounded stamps, newest first, each with its step segment, and the latest one that was overwritten (R356). -/
  hist : List (Tick64 × Nat)
  gone : Option Tick64
  /-- The host FIFO, oldest first: rounded stamp and LOST_BEFORE (R353). -/
  fifo : List (Tick64 × Bool)
  /-- The calibrations of the interpolators A and B (R345, R346). -/
  a : TdcCal
  b : TdcCal
  /-- Both interpolators calibrate together and the channel is out of service (R347): which of them still calibrate. -/
  calA : Bool
  calB : Bool
  /-- Edges lost in the present 1 ms interval (R352). -/
  lost : Nat
  /-- Edges were lost since the last capture, and since the last stamp pushed (R353). -/
  lostCap : Bool
  /-- The stamps that the last 128 lost edges would have had, newest first (R358, R359). -/
  lostAt : List Tick64
  lostPush : Bool
  /-- The next selected edge returns from a glitch (R350). -/
  back : Bool
  /-- The lack of a calibration has been reported (R346). -/
  noCal : Bool
  deriving DecidableEq, Repr

/-- A channel after reset. -/
def TdcChan.reset : TdcChan :=
  ⟨[], [], none, [], ⟨none, false⟩, ⟨none, false⟩, false, false, 0, false, [], false, false, false⟩

/-- A measurement window (R355 to R359). -/
structure TdcWin where
  start : Tick64
  /-- Stops, or edges, found; the first and the last of them. -/
  count : Nat
  first : Tick64
  last : Tick64
  /-- A phase step fell within the window (R364). -/
  stepped : Bool
  /-- An edge of the STOP channel was lost within it. -/
  lost : Bool
  /-- The STOP channel was out of service when it opened. -/
  noStop : Bool
  deriving DecidableEq, Repr

/-- One measurement unit beyond its registers (R354 to R363). -/
structure TdcUnit where
  /-- The open window (R355). -/
  win : Option TdcWin
  /-- Start instants that have not been taken yet, oldest first. -/
  starts : List Tick64
  /-- Of the present block: samples taken and used, the first sample x0, the sums of x - x0 and of its square, the
  least and the greatest sample (R362). -/
  n : Nat
  used : Nat
  x0 : Int
  sumD : Int
  sumD2 : Int
  mn : Int
  mx : Int
  deriving DecidableEq, Repr

/-- A unit after reset. -/
def TdcUnit.reset : TdcUnit := ⟨none, [], 0, 0, 0, 0, 0, 0, 0⟩

/-- Event timing beyond its registers. -/
structure Tdc where
  chans : Tbl TdcChan
  units : Tbl TdcUnit
  deriving DecidableEq, Repr

/-! ### Guyline and the pair -/

/-- Guyline beyond its registers (R368 to R381). -/
structure Guy where
  /-- MCOUNT of the last good marker. -/
  mcount : Nat
  /-- The next SEQ, by CLASS (R376). -/
  seqs : Tbl Nat
  /-- TIME messages sent, newest first: SEQ, departure stamp, phase steps and bridges applied before it (R381). -/
  sent : List (Nat × Stamp × Nat)
  /-- The partner's last valid TIME since the link entered UP: its receipt stamp, its SEQ, and the steps and bridges
  applied before it (R377, R380). -/
  last : Option (Stamp × Nat × Nat)
  /-- Register-clock cycle of the last stream error that queued a fault record (R379). -/
  lastErr : Option Nat
  /-- Lane 0's phase detectors and their states: 0 OFF, 1 ACQUIRE, 2 TRACK (R380). -/
  rx : Pd
  tx : Pd
  rxState : Nat
  txState : Nat
  /-- The bytes received of the message in progress; none while the stream is dropped to the next row pointer (R375,
  R379). -/
  stream : Option (List Byte)
  /-- The receipt stamp of the row in which that message began (R380). -/
  began : Stamp
  deriving DecidableEq, Repr

/-- A mirror batch or checkpoint that is being received (R404): its identity, target slot, messages, payload bytes, the
CRC register over the payloads, and the end of its data. -/
structure CopyRx where
  ident : Nat
  slot : Nat
  count : Nat
  bytes : Nat
  crc : Nat
  extent : Nat
  deriving DecidableEq, Repr

/-- The pair beyond its registers (R387 to R406). -/
structure Rut where
  /-- UNIT_ID, RANK, MODE and PAIR_ID in effect (R400). -/
  unit : Nat
  rank : Nat
  mode : Nat
  pairId : Nat
  /-- The EPOCH of the own claim (R389). -/
  epoch : Nat
  /-- EPOCH that a takeover raises the claim to once the checkpoint is applied (R406). -/
  next : Nat
  /-- The last accepted HEARTBEAT: claim, unit-state byte, configured RANK. -/
  beat : Option (Nat × Nat × Nat)
  /-- Its sending time, until it is forgotten (R395). -/
  sentAt : Option Tick64
  /-- A HEARTBEAT has been accepted since INIT was entered (R397). -/
  heard : Bool
  /-- The partner's claim from its latest CLAIM or HEARTBEAT message (R391). -/
  msgClaim : Option Nat
  /-- The wire claim last taken, and the claim of the frame before, when that was valid (R390). -/
  wire : Option Nat
  wireLast : Option Nat
  /-- Equal UNIT_ID values have been found since INIT was entered (R397). -/
  conflict : Bool
  /-- HANDOVER was set by the configuration scan (R397). -/
  byScan : Bool
  /-- Register-clock cycle of the heartbeat failure that led to the takeover (R406). -/
  failAt : Option Nat
  /-- A takeover whose gates have not opened yet (R406). -/
  taking : Bool
  /-- The checkpoint of a takeover is being applied (R406). -/
  applying : Bool
  /-- The own claim before its last change (R377). -/
  prevClaim : Nat
  /-- Copies being received, kind 0 mirror and 1 checkpoint (R404). -/
  mirror : Option CopyRx
  ckpt : Option CopyRx
  /-- A completed batch that is not applied yet: identity, staging slot, end of its data (R404). -/
  batch : Option (Nat × Nat × Nat)
  /-- The staging slot of the last applied batch (R404). -/
  applied : Option Nat
  /-- The checkpoint slot marked valid last, while it is (R404). -/
  valid : Option Nat
  /-- Identities of the copies last started, and the slot of the checkpoint last started (R402, R403). -/
  txMirror : Nat
  txCkpt : Nat
  txSlot : Nat
  deriving DecidableEq, Repr

/-! ### Reset and the boot pack -/

/-- One thing left to do in pass 2 (R425 to R432): a write, a pause in µs, or the comparison that ends a section, with
the section's number and its offset. -/
inductive PackOp
  | write (addr : Nat) (value : Word)
  | wait (us : Nat)
  | check (section_ offset : Nat)
  deriving DecidableEq, Repr

/-- Reset and the boot sequencer beyond their registers. -/
structure Boot where
  /-- `RESET_L` is low; a monitored rail is out of tolerance (R415, R416): either holds the device in reset. -/
  pinLow : Bool
  railBad : Bool
  /-- Ember takes main power as present (R413). -/
  power : Bool
  /-- SECTIONS of the header (R422). -/
  sections : Nat
  /-- What pass 2 has still to do (R430, R432). -/
  todo : List PackOp
  /-- DRAM initialisation runs, and has ended (R428). -/
  training : Bool
  trained : Bool
  /-- The factory transmit and receive delays of each port and mode, key 2 × port + FEC (R434). -/
  lanes : Tbl (Word × Word)
  /-- The interpolators' delay-line trims; empty: untrimmed (R418, R434). -/
  trims : List Nat
  deriving DecidableEq, Repr

/-- Reset and the boot sequencer after reset. -/
def Boot.reset : Boot :=
  { pinLow := false, railBad := false, power := true, sections := 0, todo := [], training := false, trained := false,
    lanes := [], trims := [] }

/-! ### Reasons to stop -/

/-- Faults: no meaning of the model ends in one. -/
inductive Fault
  /-- Raised by no meaning: every command of the block has an effect the spec gives it. Safe: a model that stops
  here proves nothing about what the hardware does next. -/
  | none
  deriving DecidableEq, Repr

/-- Refusals. -/
inductive Refusal
  /-- Raised by an arm of `exec` whose command has no meaning yet. Safe: nothing is proved of that command. -/
  | notModelled (mnemonic : String)
  deriving DecidableEq, Repr

/-! ### What the block sends out -/

/-- What leaves the block, in order: the record a test of the outside would see. -/
inductive Out
  /-- A message of MSI-X vector `v` (R56). -/
  | msi (v : Nat)
  /-- The completion of a read by `src` from byte address `a` on: the bytes returned. -/
  | readData (src : Src) (a : Nat) (bytes : List Byte)
  /-- Bytes written to host memory (R62). -/
  | hostMem (addr : Nat) (bytes : List Byte)
  /-- An ESMC PDU on port `n` with QL `ql`; `event` marks an event PDU (R115). -/
  | esmc (n : Nat) (ql : Nat) (event : Bool)
  /-- An edge of output `n` at real time `t`, in units of 1/65,536 ns since the tick clock's count of 0 (R159 to R172). -/
  | edge (n : Nat) (rise : Bool) (t : Nat)
  /-- A frame leaves port `n`: its bytes, FCS included. -/
  | frame (n : Nat) (bytes : List Byte)
  /-- The frame that left port `n` last is cut short after `k` bytes (R184). -/
  | cut (n : Nat) (k : Nat)
  /-- A row leaves on Guyline: its 1,920 bytes (R375). -/
  | guyRow (row : List Byte)
  /-- A marker leaves on Guyline's lane `n` (R369). -/
  | guyMarker (n : Nat) (m : BitVec 70)
  /-- Claim-wire frames leave from now on with this content (R389). -/
  | wire (f : BitVec 80)
  /-- A raw flash command with WIDTH `width`: opcode and address bytes, dummy cycles, the data sent, and how many bytes are
  read (R437). -/
  | flash (width : Nat) (head : List Byte) (dummy : Nat) (data : List Byte) (reads : Nat)
  deriving DecidableEq, Repr

/-! ### The whole state -/

/-- The state of the block. -/
structure State where
  /-- Registers, by BAR0 byte address; an address not listed holds its reset value. -/
  regs : Tbl Word
  /-- DRAM bytes by byte address; an address not listed reads 0. -/
  dram : List Host.Cell
  /-- The commands that wait, first in, first out. -/
  pending : List Instr
  /-- High-word shadows per source (R31): key source × 2^24 + address of the high word. -/
  rshadow : Tbl Word
  /-- Low-word write shadows (R33): key address of the low word. -/
  wshadow : Tbl (Option Word)
  /-- W1 registers written since reset release (R44). -/
  w1done : List Nat
  /-- Condition bits that hold (R53): key address of the raw status register. -/
  conds : Tbl Word
  /-- Domains whose clock is stopped (R42, R152). -/
  gated : List Dom
  /-- Register-clock cycles since reset release (R289). -/
  regClk : Nat
  /-- Core-clock cycles, in eighths. -/
  coreClk8 : Nat
  /-- What has left the block, oldest first. -/
  out : List Out
  /-- The model's own counter of free values drawn. -/
  freeIdx : Nat
  hif : Hif
  tsc : Tsc
  ref : RefSel
  hld : Hld
  spr : Spr
  syn : Syn
  pts : Tbl Pts
  ptp : Ptp
  fwd : Fwd
  tdc : Tdc
  guy : Guy
  rut : Rut
  boot : Boot
  deriving DecidableEq, Repr

/-- A Tripod copy after reset (R68, R417): zero seconds, zero sub-seconds, the nominal increment. -/
def Copy.reset : Copy := BitVec.ofNat 192 (2 ^ 49)

/-- The domains whose clock does not run right after reset: those of loops that have not locked yet (R417). -/
def gatedAtReset : List Dom := [.timescale, .core] ++ (List.range 24).map Dom.lane ++ [.guyLane]

/-- The registers that no reset value fixes, right after the first power-up: the causes POWER_ON and PIN (R416), and
Ember without a valid time (R143).  DESIGN CHOICE: notes/assumptions/1.md. -/
def regsAtReset : Tbl Word := [(R.BOOT_RESET_CAUSE, 0x11#32), (R.HLD_EMB_STATUS, 4#32)]

/-- The timescale after reset. -/
def Tsc.reset : Tsc :=
  { c0 := Copy.reset, c1 := Copy.reset, c2 := Copy.reset, voted := Copy.reset, tick := 0, carried := false, newRate := none,
    host := none, hostRipe := false, intern := [], due := [], inject := none, restore := [], rejoin := [],
    h0 := ⟨0, 0, 0⟩, h1 := ⟨0, 0, 0⟩, h2 := ⟨0, 0, 0⟩, lastFault := [], sigSec := 0, breaks := 0,
    rateSum := 0 }

/-- The journal after reset. -/
def Spr.reset : Spr :=
  { fifo := [], seq := 0, seg := 0, fill := false, lostSel := 0, lostMand := 0, lostFirst := none, formed := [], freezeAt := 0,
    latch := none, lossNew := none, fetch := 0 }

/-- Reference selection after reset. -/
def RefSel.reset : RefSel :=
  { ins := [], cands := [], oscBad := false, gates := [], judge := none, noJudge := 0, fromHold := false, measured := false,
    withdrawn := false, wtr := [], remeasure := false, guardRate := 0, modelRate := false, lastSel := 0, txQl := [],
    offs := [], err := 0, inLock := 0, outLock := 0 }

/-- Holdover and Ember after reset. -/
def Hld.reset : Hld :=
  { epoch := false, ring := [], firstT := none, table := [], anchorBin := none, anchor := 0, frozen := none, renew := false,
    secTick := 0, secRate := 0, secOff := false, history := [], fitTick := 0, fitRate := 0, fitErr := 0, tempSum := 0, tempN := 0,
    episode := false, broken := false, resyncDue := false, emberAcc := 0 }

/-- Synthesis after reset. -/
def Syn.reset : Syn :=
  { force := [], outs := [], locked := [], settling := [], gapCoarse := false, lanes := [], phase := 0, advance := 0,
    second := false, topSec := 0, goTick := 0 }

/-- The PTP engine after reset. -/
def Ptp.reset : Ptp :=
  { ports := [], seqs := [], integ := ⟨0, 0⟩, est := ⟨0, 0⟩, last := none, first := none, armed := true, gate := [],
    integs := [], gateTick := 0, gateRate := 0, oRef := 0, pRef := 0, dRef := 0, based := false }

/-- Forwarding, queues and Herd after reset. -/
def Fwd.reset : Fwd :=
  { frames := [], nextId := 0, queues := [], cals := [], passes := [], sending := [], stalled := [], stallOn := false,
    prioX := [], pfcSent := [], fe := none, fc := none, tokens := [], drain := [], lagEmpty := 0, refused := [], tagBad := [],
    line := [], lineEnd := [], breach := 0, calFull := false }

/-- Guyline after reset. -/
def Guy.reset : Guy :=
  { mcount := 0, seqs := [], sent := [], last := none, lastErr := none, rx := ⟨0, []⟩, tx := ⟨0, []⟩, rxState := 0,
    txState := 0, stream := none, began := ⟨0#96, false, false, false, 0⟩ }

/-- The pair after reset. -/
def Rut.reset : Rut :=
  { unit := 0, rank := 0, mode := 0, pairId := 0, epoch := 0, next := 0, beat := none, sentAt := none, heard := false,
    msgClaim := none, wire := none, wireLast := none, conflict := false, byScan := false, failAt := none, taking := false,
    applying := false, prevClaim := 0, mirror := none, ckpt := none, batch := none, applied := none, valid := none,
    txMirror := 0, txCkpt := 0, txSlot := 0 }

/-- The block right after the first release of reset: every register at its reset value (R13), no domain but the register
domain and Ember running, nothing held, the boot sequencer in OTP (R417), and no command waiting. -/
def State.reset : State :=
  { regs := regsAtReset, dram := [], pending := [], rshadow := [], wshadow := [], w1done := [], conds := [],
    gated := gatedAtReset, regClk := 0, coreClk8 := 0, out := [], freeIdx := 0,
    hif := { fn0 := PciFn.f0, fn1 := PciFn.f1, fq := [], dead := [], held := [], flow := [], i2cAddr := 0, i2cStrap := 0, ready := [], lastMsg := [], waitMsg := [] },
    tsc := Tsc.reset, ref := RefSel.reset, hld := Hld.reset, spr := Spr.reset,
    syn := Syn.reset,
    pts := [], ptp := Ptp.reset, fwd := Fwd.reset, tdc := { chans := [], units := [] }, guy := Guy.reset, rut := Rut.reset,
    boot := Boot.reset }

end Sys2Proof.Machine
end

