-- ==== Sys2Proof/Machine/Float.lean ====
section
/-! DEFINITION. IEEE 754 binary64 arithmetic, rounded to nearest with ties to even, for the servo of R224.  The
magnitudes that occur there need no subnormal numbers and no infinities. -/

namespace Sys2Proof.Machine

/-- The binary64 number nearest n / d. -/
def dblOf (n : Int) (d : Nat) : Dbl :=
  if n = 0 ∨ d = 0 then ⟨0, 0⟩
  else
    let a := n.natAbs
    let k0 : Int := (Nat.log2 a : Int) - Nat.log2 d - 52
    let num : Int → Nat := fun k => if k < 0 then a * 2 ^ (-k).toNat else a
    let den : Int → Nat := fun k => if k < 0 then d else d * 2 ^ k.toNat
    let k := if num k0 < 2 ^ 52 * den k0 then k0 - 1 else k0
    let q := divEven (num k) (den k)
    let r : Dbl := if q = 2 ^ 53 then ⟨2 ^ 52, k + 1⟩ else ⟨q, k⟩
    if n < 0 then ⟨-r.m, r.e⟩ else r

/-- The binary64 number nearest m × 2^e. -/
def dblScaled (m e : Int) : Dbl := if e < 0 then dblOf m (2 ^ (-e).toNat) else dblOf (m * 2 ^ e.toNat) 1

/-- The number as a fraction: numerator and denominator. -/
def dblFrac (x : Dbl) : Int × Nat := if x.e < 0 then (x.m, 2 ^ (-x.e).toNat) else (x.m * 2 ^ x.e.toNat, 1)

/-- Product. -/
def dblMul (x y : Dbl) : Dbl := dblScaled (x.m * y.m) (x.e + y.e)

/-- Sum. -/
def dblAdd (x y : Dbl) : Dbl :=
  let e := min x.e y.e
  dblScaled (x.m * 2 ^ (x.e - e).toNat + y.m * 2 ^ (y.e - e).toNat) e

/-- Quotient; 0 for a divisor of 0. -/
def dblDiv (x y : Dbl) : Dbl :=
  let p := dblFrac x
  let q := dblFrac y
  dblOf (p.1 * q.2 * (if q.1 < 0 then -1 else 1)) (p.2 * q.1.natAbs)

/-- `x` is at most `y`. -/
def dblLe (x y : Dbl) : Bool :=
  let p := dblFrac x
  let q := dblFrac y
  decide (p.1 * q.2 ≤ q.1 * p.2)

/-- `x × 2^k` rounded to the nearest integer, ties away from zero. -/
def dblRound (x : Dbl) (k : Int) : Int :=
  let p := dblFrac ⟨x.m, x.e + k⟩
  divRound p.1 p.2

end Sys2Proof.Machine
end

