-- ==== Sys2Proof/Config.lean ====
section
/-! DEFINITION. The free values: constants without a body, so that nothing can be proved of what they are. -/

namespace Sys2Proof

/-- The deviation (0, 1 or 2 for −1, 0, +1 units) of the n-th value that R134 computes in IEEE 754 binary64, whose
order of operations the spec does not state. -/
opaque Config.fitUlp : Nat → Fin 3

/-- The direction in which a mean whose rounding the spec does not state is rounded to a whole unit (R189). -/
opaque Config.roundUp : Nat → Bool

/-- The n-th value that an effect leaves in a field without the spec saying which. -/
opaque Config.freeWord : Nat → BitVec 32

/-- The MAC address from which port n sends its own frames, which the spec does not give. -/
opaque Config.portMac : Nat → BitVec 48

/-- The IPv4 and IPv6 addresses from which port n sends PTP messages, which the spec does not give. -/
opaque Config.portIp4 : Nat → BitVec 32
opaque Config.portIp6 : Nat → BitVec 128

/-- The fields of those IP headers that neither the spec nor the message fixes: DSCP and ECN, identification, time to live;
traffic class with flow label, hop limit. -/
opaque Config.ipTos : Nat → BitVec 8
opaque Config.ipIdent : Nat → BitVec 16
opaque Config.ipTtl : Nat → BitVec 8
opaque Config.ipFlow : Nat → BitVec 28
opaque Config.ipHops : Nat → BitVec 8

end Sys2Proof
end

