-- ==== Sys2Proof/Machine/Regs.lean ====
section
/-! DEFINITION. The register store: which address is which register (R452), what it holds after reset (R13),
and the one operation each that reads and writes a register or a field of it. -/

namespace Sys2Proof.Machine

/-! ### The map -/

/-- The register rows of the block an address belongs to (R451). -/
def rowsAt (a : Nat) : List RegRow :=
  if a < 0x10000 then rowsHif
  else if a < 0x20000 then rowsBoot
  else if a < 0x30000 then rowsTsc
  else if a < 0x38000 then rowsRef
  else if a < 0x40000 then rowsHld
  else if a < 0x50000 then rowsSyn
  else if a < 0x56000 then rowsPts
  else if a < 0x60000 then []
  else if a < 0x60A00 then rowsPtp
  else if a < 0x80000 then []
  else if a < 0x100000 then rowsPmc
  else if a < 0x200000 then rowsFwd
  else if a < 0x280000 then rowsQue
  else if a < 0x300000 then rowsHrd
  else if a < 0x380000 then rowsSpr
  else if a < 0x3C0000 then rowsTdc
  else if a < 0x3D0000 then rowsGuy
  else if a < 0x3E0000 then rowsRut
  else if a < 0x3F0000 then rowsIop
  else if a < 0x400000 then []
  else if a < 0x460000 then rowsMac
  else []

/-- The row covers address `a`. -/
def RegRow.hit (r : RegRow) (a : Nat) : Bool :=
  if a < r.base then false
  else if r.stride = 0 then a == r.base
  else
    let off := a - r.base
    let n := off / r.stride
    let m := off % r.stride
    decide (n < r.count) &&
      (if r.stride2 = 0 then m == 0 else decide (m % r.stride2 = 0) && decide (m / r.stride2 < r.count2))

/-- The register row of an address that a table of chapter 18 names as a register. -/
def rowAt (a : Nat) : Option RegRow := (rowsAt a).find? (fun r => r.hit a)

/-- The table windows: forwarding entries and flow contexts (R451). -/
def isTable (a : Nat) : Bool := decide (0x800000 ≤ a) && decide (a < 0xB00000)

/-- The MSI-X table (R22, R451). -/
def isMsixTable (a : Nat) : Bool := decide (0x8000 ≤ a) && decide (a < 0x8160)

/-- The MSI-X pending-bit array (R22, R451). -/
def isPba (a : Nat) : Bool := decide (0x9000 ≤ a) && decide (a < 0x9008)

/-- A word address that names something (R452). -/
def mapped (a : Nat) : Bool := (rowAt a).isSome || isTable a || isMsixTable a || isPba a

/-- The fields of the register at a word address. -/
def fieldsAt (a : Nat) : List Field :=
  match rowAt a with
  | some r => r.fields
  | none => []

/-- The value that the field resets of R13 form. -/
def resetOf (fs : List Field) : Nat := fs.foldl (fun v f => v + f.reset * 2 ^ f.lo) 0

/-- Reset values that differ along an array (R450: "one value per register in order"; R460, R464, R465), and the
mask bit of an MSI-X table entry, which the PCI Express Base Specification sets at reset. -/
def resetOverride (a : Nat) : Option Nat :=
  if a = R.SYN_On_INT 8 ∨ a = R.SYN_On_INT 9 then some 0x190
  else if 0x40100 ≤ a ∧ a < 0x40200 ∧ a % 0x20 = 0x14 then some 0
  else if a = R.FWD_PORTn_CFG 24 then some 0x60000001
  else if a = R.FWD_VLANv_CTRL 0 ∨ a = R.FWD_VLANv_CTRL 4095 then some 0
  else if 0x200700 ≤ a ∧ a < 0x200720 then some 0
  else if isMsixTable a ∧ a % 16 = 12 then some 1
  else none

/-- The value of every register after reset. -/
def regReset (a : Nat) : Word :=
  match resetOverride a with
  | some v => BitVec.ofNat 32 v
  | none => BitVec.ofNat 32 (resetOf (fieldsAt a))

/-! ### Reading and writing the store -/

/-- The register at word address `a`. -/
def State.reg (s : State) (a : Nat) : Word := Tbl.get (regReset a) s.regs a

/-- The state with register `a` holding `v`. -/
def State.setReg (s : State) (a : Nat) (v : Word) : State :=
  { s with regs := Tbl.set (regReset a) s.regs a v }

/-- Field `f` of register `a`. -/
def State.g (s : State) (a : Nat) (f : Fld) : Nat := f.get (s.reg a)

/-- Field `f` of register `a`, as a truth value. -/
def State.on (s : State) (a : Nat) (f : Fld) : Bool := s.g a f != 0

/-- The state with field `f` of register `a` holding `n`. -/
def State.p (s : State) (a : Nat) (f : Fld) (n : Nat) : State := s.setReg a (f.put (s.reg a) n)

/-- The state with the one-bit field `f` of register `a` holding `b`. -/
def State.pb (s : State) (a : Nat) (f : Fld) (b : Bool) : State := s.p a f (b2n b)

/-- Field `f` of register `a` raised by `n`, saturating at its largest value. -/
def State.satAdd (s : State) (a : Nat) (f : Fld) (n : Nat) : State :=
  s.p a f (min (s.g a f + n) (2 ^ f.w - 1))

/-- Field `f` of register `a` raised by one, saturating. -/
def State.inc (s : State) (a : Nat) (f : Fld) : State := s.satAdd a f 1

/-- The 64-bit value of the pair whose low word is at `lo` and high word at `lo + 4`. -/
def State.pair (s : State) (lo : Nat) : Nat := (s.reg lo).toNat + (s.reg (lo + 4)).toNat * 2 ^ 32

/-- The signed 64-bit value of a pair. -/
def State.pairI (s : State) (lo : Nat) : Int := sx 64 (s.pair lo)

/-- The state with the pair at `lo` holding `n` modulo 2^64. -/
def State.setPair (s : State) (lo : Nat) (n : Nat) : State :=
  (s.setReg lo (BitVec.ofNat 32 n)).setReg (lo + 4) (BitVec.ofNat 32 (n / 2 ^ 32))

/-- The state with the pair at `lo` holding the signed value `i`. -/
def State.setPairI (s : State) (lo : Nat) (i : Int) : State := s.setPair lo (enc 64 i)

/-- A register's whole word as a signed value. -/
def State.regI (s : State) (a : Nat) : Int := sx 32 (s.reg a).toNat

/-- The state with register `a` holding the signed value `i`. -/
def State.setRegI (s : State) (a : Nat) (i : Int) : State := s.setReg a (BitVec.ofNat 32 (enc 32 i))

/-- The state with register `a` holding `n`. -/
def State.setRegN (s : State) (a : Nat) (n : Nat) : State := s.setReg a (BitVec.ofNat 32 n)

/-- The state with the bits of `m` set in register `a`. -/
def State.orReg (s : State) (a : Nat) (m : Nat) : State := s.setReg a (s.reg a ||| BitVec.ofNat 32 m)

end Sys2Proof.Machine
end

