-- ==== Sys2Proof/Machine/Copies.lean ====
section
/-! DEFINITION. The copies of the time core as values (R68 to R70, R77), and what the steps due on a tick make of the voted
copy (R79): the time every consumer of that tick uses (R81). -/

namespace Sys2Proof.Machine

/-! ### One copy (R68 to R70, R77) -/

/-- One second in units of 2^-48 ns. -/
abbrev secUnits : Nat := 1000000000 * 2 ^ 48

/-- Seconds of a copy. -/
def cSec (c : Copy) : Nat := c.toNat / 2 ^ 144

/-- The sub-second value S of a copy, in units of 2^-48 ns (R69). -/
def cSub (c : Copy) : Nat := (c.toNat / 2 ^ 64) % 2 ^ 80

/-- The increment I of a copy. -/
def cInc (c : Copy) : Nat := c.toNat % 2 ^ 64

/-- The copy with the given seconds, sub-second value and increment. -/
def mkCopy (sec sub inc : Nat) : Copy :=
  BitVec.ofNat 192 ((sec % 2 ^ 48) * 2 ^ 144 + (sub % 2 ^ 80) * 2 ^ 64 + inc % 2 ^ 64)

/-- The sum S + I of a copy reaches a second (R69). -/
def cCarries (c : Copy) : Bool := decide (secUnits ≤ cSub c + cInc c)

/-- One tick of a copy (R69). -/
def cTick (c : Copy) : Copy :=
  let t := cSub c + cInc c
  if secUnits ≤ t then mkCopy (cSec c + 1) (t - secUnits) (cInc c) else mkCopy (cSec c) t (cInc c)

/-- The copy with RATE `r` (R70). -/
def cRate (r : Int) (c : Copy) : Copy := mkCopy (cSec c) (cSub c) (enc 64 (2 ^ 49 + r))

/-- The copy moved by a signed Tick64 amount, with seconds carry or borrow (R77). -/
def cStep (amount : Int) (c : Copy) : Copy :=
  let t := ((cSec c * secUnits + cSub c : Nat) + amount * 2 ^ 32) % ((2 ^ 48 * secUnits : Nat) : Int)
  mkCopy (t.toNat / secUnits) (t.toNat % secUnits) (cInc c)

/-- The copy set to a T96 value, subfraction cleared (R77). -/
def cSet (t : T96) (c : Copy) : Copy :=
  mkCopy (tSec t) (tNs t * 2 ^ 48 + tFrac t * 2 ^ 32) (cInc c)

/-- The T96 time of a copy (R72). -/
def cTime (c : Copy) : T96 := BitVec.ofNat 96 (c.toNat / 2 ^ 96)

/-- One second in Tick64 units. -/
abbrev secTicks : Int := 65536000000000

/-- A T96 value moved by a signed Tick64 amount. -/
def addT96 (t : T96) (a : Int) : T96 :=
  let whole : Int := 2 ^ 48 * secTicks
  let u := ((((tSec t * 1000000000 + tNs t) * 65536 + tFrac t : Nat) : Int) + a) % whole
  let n := u.toNat
  mkT96 (n / 65536 / 1000000000) (n / 65536 % 1000000000) (n % 65536)

/-! ### Steps due on a tick (R77, R79) -/

/-- The relative steps of `l`, ascending by source code. -/
def relSteps (l : List (Nat × IntStep)) : List (Nat × Int) :=
  let r := l.filterMap (fun p => match p.2 with | .rel a => some (p.1, a) | .set _ => none | .aim _ => none)
  (List.range 6).flatMap (fun c => r.filter (fun p => p.1 == c))

/-- The absolute sets of `l` on a tick whose voted time before any step is `t`, ascending by source code. -/
def setSteps (t : T96) (l : List (Nat × IntStep)) : List (Nat × T96) :=
  let r := l.filterMap (fun p => match p.2 with
    | .rel _ => none
    | .set v => some (p.1, v)
    | .aim off => some (p.1, addT96 t off))
  (List.range 6).flatMap (fun c => r.filter (fun p => p.1 == c))

/-- The pending host step falls on the tick just formed (R77). -/
def Tsc.hostDue (t : Tsc) : Bool :=
  t.hostRipe && (match t.host with
    | some (.aligned _) => t.carried
    | some _ => true
    | none => false)

/-- Some step falls on the tick just formed. -/
def Tsc.stepDue (t : Tsc) : Bool := t.hostDue || !t.due.isEmpty

/-- What host step `h` makes of a copy (R77). -/
def HostStep.move (h : HostStep) (c : Copy) : Copy :=
  match h with
  | .imm a => cStep a c
  | .aligned a => cStep a c
  | .set t => cSet t c

/-- The voted copy with the steps due on its tick applied: relative steps first, an absolute set last (R79). -/
def Tsc.dueCopy (t : Tsc) : Copy :=
  if t.stepDue then
    let v := (relSteps t.due).foldl (fun c p => cStep p.2 c) t.voted
    match setSteps (cTime t.voted) t.due with
    | [] => if t.hostDue then (match t.host with | some h => h.move v | none => v) else v
    | l => l.foldl (fun c p => cSet p.2 c) v
  else t.voted

/-- How many steps are due on the tick just formed. -/
def Tsc.dueCount (t : Tsc) : Nat :=
  (relSteps t.due).length + (match setSteps (cTime t.voted) t.due with | [] => b2n t.hostDue | l => l.length)

end Sys2Proof.Machine
end

