-- ==== Sys2Proof/Machine/Ops.lean ====
section
/-! DEFINITION. The operations every block shares: the voted time, raw status and condition bits (R53), journal
records and triggers (R319 to R332), fault records (R57 to R59), interrupts (R55, R56), performance counts
(R440) and DRAM bytes. A meaning builds its next state from these and closes with `done`, the end of the clock. -/

namespace Sys2Proof.Machine

/-! ### Time -/

/-- The voted time as T96 (R17, R72), with the steps that fall on its tick (R81). -/
def State.now (s : State) : T96 := cTime s.tsc.dueCopy

/-- SEG of the voted time (R321): the steps that fall on its tick count while their records are formed. -/
def State.seg (s : State) : Nat := (s.spr.seg + (if s.on R.SPR_CTRL F.SPR_CTRL_EN then s.tsc.dueCount else 0)) % 8

/-- The voted time as Tick64 (R73). -/
def State.nowTick (s : State) : Tick64 := tickOf s.now

/-- The voted RATE: the voted increment less 2^49 (R70). -/
def State.rate (s : State) : Int := ((s.tsc.voted.toNat % 2 ^ 64 : Nat) : Int) - 2 ^ 49

/-- The microsecond count of the register domain (R289). -/
def State.us (s : State) : Nat := s.regClk / 250 % 2 ^ 32

/-- The clock of domain `d` runs. -/
def State.runs (s : State) (d : Dom) : Bool := !(s.gated.contains d)

/-- A free value: the n-th draw of an unconstrained constant. -/
def State.drawn (s : State) : State := { s with freeIdx := s.freeIdx + 1 }

/-! ### Raw status -/

/-- Sets the event bit `f` of the raw status register `a` (R53). -/
def State.raw (s : State) (a : Nat) (f : Fld) : State := s.p a f 1

/-- Condition bit `f` of raw status register `a` starts or ceases to hold (R53). -/
def State.cond (s : State) (a : Nat) (f : Fld) (b : Bool) : State :=
  { s with conds := Tbl.set 0#32 s.conds a (f.put (Tbl.get 0#32 s.conds a) (b2n b)) }

/-- Condition bit `f` of raw status register `a` holds. -/
def State.condHolds (s : State) (a : Nat) (f : Fld) : Bool := f.get (Tbl.get 0#32 s.conds a) != 0

/-- The summary bit of the block whose raw status register lies at `a` (R55). -/
def rawBlock (a : Nat) : Option Nat :=
  if a = R.HIF_RAW then some 0
  else if a = R.BOOT_RAW then some 1
  else if a = R.TSC_RAW then some 2
  else if a = R.REF_RAW then some 3
  else if a = R.HLD_RAW then some 4
  else if a = R.SYN_RAW then some 5
  else if 0x50000 ≤ a ∧ a < 0x56000 ∧ a % 0x400 = 8 then some 6
  else if a = R.PTP_RAW ∨ (0x60400 ≤ a ∧ a < 0x60A00 ∧ a % 0x40 = 0x18) then some 7
  else if a = R.PMC_RAW then some 8
  else if a = R.FWD_RAW then some 9
  else if a = R.QUE_RAW then some 10
  else if a = R.HRD_RAW then some 11
  else if a = R.SPR_RAW then some 12
  else if a = R.TDC_RAW then some 13
  else if a = R.GUY_RAW then some 14
  else if a = R.RUT_RAW then some 15
  else if a = R.IOP_RAW then some 16
  else if 0x400000 ≤ a ∧ a < 0x460000 ∧ a % 0x4000 = 8 then some 17
  else none

/-- One raw status register takes the conditions that hold (R53). -/
def State.applyCond (s : State) (p : Nat × Word) : State :=
  if (rawBlock p.1).isSome then s.setReg p.1 (s.reg p.1 ||| p.2) else s

/-- The conditions that hold set their raw status bits, as they do on every clock (R53). -/
def State.applyConds (s : State) : State := s.conds.foldl State.applyCond s

/-- The summary bit that register `a` sets: its raw status bits that are both set and enabled (R55).  Every raw
status register is followed by its enables. -/
def State.summaryBit (s : State) (m : Nat) (p : Nat × Word) : Nat :=
  match rawBlock p.1 with
  | some n => if p.2 &&& s.reg (p.1 + 4) = 0#32 then m else maskSet m n
  | none => m

/-- `HIF_SUMMARY` (R55). -/
def State.summary (s : State) : Nat :=
  let m := s.regs.foldl s.summaryBit 0
  if s.hif.fq = [] then m else maskSet m 18

/-! ### Interrupts -/

/-- Vector `v` signals (R21, R56): a message, or its pending bit while the function or the MSI-X table masks it; nothing
while MSI-X is disabled or F0 is in D3hot. -/
def State.signal (s : State) (v : Nat) : State :=
  if !s.hif.fn0.msixEn || s.hif.fn0.d3hot then s
  else if s.hif.fn0.msixMask || bit (s.reg (0x800C + 16 * v)) 0 then s.orReg 0x9000 (2 ^ v)
  else { s with out := s.out ++ [.msi v] }

/-- `HIF_SUMMARY` AND `HIF_IRQ_EN`: the levels whose rise signals vectors 0 to 18 (R56). -/
def State.levels (s : State) : Nat :=
  let e := s.g R.HIF_IRQ_EN F.HIF_IRQ_EN_EN
  if e = 0 then 0 else s.summary &&& e

/-- Signals the vectors whose level has risen since `before` (R56). -/
def State.signalRises (s : State) (before : Nat) : State :=
  let after := s.levels
  if after = 0 then s
  else ((List.range 19).filter (fun n => maskBit after n && !maskBit before n)).foldl State.signal s

/-! ### The journal -/

/-- The 32 bytes of a record (R319). -/
def Rec.bytes (r : Rec) : List Byte :=
  leBytes 8 r.time.toNat ++
  leBytes 4 (r.node % 2 ^ 16 + (r.typ % 256) * 2 ^ 16 + (r.seg % 8) * 2 ^ 24 + b2n r.xf * 2 ^ 27 + b2n r.gap * 2 ^ 28 +
    b2n r.coarse * 2 ^ 29 + b2n r.trig * 2 ^ 30 + b2n r.far * 2 ^ 31) ++
  leBytes 4 (r.p0 % 2 ^ 16 + (r.seq % 2 ^ 16) * 2 ^ 16) ++
  leBytes 4 r.w4 ++ leBytes 4 r.w5 ++ leBytes 4 r.w6 ++ leBytes 4 r.w7

/-- A record of type `typ` at the present voted time; GAP marks a time in a gap of the timescale domain (R319). -/
def State.mkRec (s : State) (typ p0 w4 w5 w6 w7 : Nat) : Rec :=
  { time := s.nowTick, far := false, trig := false, coarse := false, gap := !s.runs .timescale, xf := false, seg := s.seg,
    typ := typ, node := s.g R.HRD_NODE_ID F.HRD_NODE_ID_NODE_ID, seq := 0, p0 := p0, w4 := w4, w5 := w5, w6 := w6,
    w7 := w7 }

/-- Journal states of R332. -/
abbrev sprOff : Nat := 0
abbrev sprArmed : Nat := 1
abbrev sprPost : Nat := 2
abbrev sprFrozen : Nat := 3

/-- The journal's STATE. -/
def State.sprState (s : State) : Nat := s.g R.SPR_STATUS F.SPR_STATUS_STATE

/-- The write FIFO holds `l`; `SPR_STATUS`.FIFO shows its length. -/
def State.setFifo (s : State) (l : List Rec) : State :=
  { s with spr := { s.spr with fifo := l } }.p R.SPR_STATUS F.SPR_STATUS_FIFO l.length

/-- A record that cannot enter the FIFO is lost and counted; the first loss after a LOSS record is reported
(R330). -/
def State.loseRec (s : State) (always : Bool) (r : Rec) : State :=
  let first := !(s.on R.SPR_STATUS F.SPR_STATUS_LOSSING)
  let s := if always then s.inc R.SPR_CNT_LOST_MAND F.SPR_CNT_LOST_MAND_COUNT
           else s.inc R.SPR_CNT_LOST_SEL F.SPR_CNT_LOST_SEL_COUNT
  let s := { s with spr := { s.spr with
    lostSel := s.spr.lostSel + b2n (!always), lostMand := s.spr.lostMand + b2n always,
    lostFirst := if first then some r else s.spr.lostFirst,
    lossNew := if first then some (b2n always, r.seq) else s.spr.lossNew } }
  if first then (s.raw R.SPR_RAW F.SPR_RAW_LOSS).p R.SPR_STATUS F.SPR_STATUS_LOSSING 1 else s

/-- A record of this clock takes SEQ and enters the write FIFO, is not written because the journal is frozen, or is lost
(R320, R325, R330). -/
def State.enterRec (s : State) (always : Bool) (r : Rec) : State :=
  let r := { r with seq := s.spr.seq }
  let s := { s with spr := { s.spr with seq := (s.spr.seq + 1) % 2 ^ 16 } }
  if s.sprState = sprFrozen then s.inc R.SPR_CNT_FROZEN F.SPR_CNT_FROZEN_COUNT
  else
    let used := s.spr.fifo.length
    if (if always then decide (4096 ≤ used) else decide (3584 ≤ used)) then s.loseRec always r
    else s.setFifo (s.spr.fifo ++ [r])

/-- Forms a record whose source has place `k` in R322, while EN is 1 (R325).  `always`: the record is marked "always" in
R324. -/
def State.pushRec (s : State) (k : Nat) (always : Bool) (r : Rec) : State :=
  if s.on R.SPR_CTRL F.SPR_CTRL_EN then { s with spr := { s.spr with formed := s.spr.formed ++ [(k, always, r)] } } else s

/-- The records formed in this clock enter the FIFO in the order of their sources, those of one source as formed
(R322). -/
def State.enterFormed (s : State) : State :=
  let l := s.spr.formed
  let s := { s with spr := { s.spr with formed := [] } }
  ((List.range 19).flatMap (fun k => l.filter (fun p => p.1 == k))).foldl (fun s p => s.enterRec p.2.1 p.2.2) s

/-- Trigger source `src` fires in this clock; of several, the lowest code forms the TRIGGER record (R331, R332). -/
def State.fire (s : State) (src detail : Nat) : State :=
  let l := match s.spr.latch with
    | none => some (src, detail)
    | some (c, d) => if src < c then some (src, detail) else some (c, d)
  { s with spr := { s.spr with latch := l } }

/-- Queues a fault record, or counts it as lost to a full queue (R59). -/
def State.pushFault (s : State) (f : FaultRec) : State :=
  if s.hif.fq.length < 32 then
    { s with hif := { s.hif with fq := s.hif.fq ++ [f] } }.p R.HIF_FQ_STATUS F.HIF_FQ_STATUS_DEPTH
      (s.hif.fq.length + 1)
  else
    (s.inc R.HIF_FQ_STATUS F.HIF_FQ_STATUS_OVERFLOW).raw R.HIF_RAW F.HIF_RAW_FQ_OVERFLOW

/-- The place in R322 of the faults of block `b`; PMC raises none, and stands last with Spoor. -/
def blockOrder (b : Nat) : Nat :=
  match b with
  | 0 => 17 | 1 => 2 | 2 => 1 | 3 => 3 | 4 => 4 | 5 => 5 | 6 => 7 | 7 => 6 | 9 => 11 | 10 => 13 | 11 => 14 | 13 => 15
  | 14 => 9 | 15 => 10 | 16 => 16 | 17 => 8 | _ => 18

/-- The onset of a fault: its fault record, its FAULT record in the journal, and trigger source 1 (R59, R324,
R331). -/
def State.faultCore (s : State) (block code detail param : Nat) : State :=
  let full := decide (32 ≤ s.hif.fq.length)
  let fires := s.on R.SPR_TRIG_EN F.SPR_TRIG_EN_FAULT &&
    maskBit (s.g R.SPR_TRIG_FAULT_MASK F.SPR_TRIG_FAULT_MASK_MASK) block
  let s := s.pushFault ⟨block, code, detail % 2 ^ 16, param % 2 ^ 32, s.nowTick⟩
  let r := s.mkRec 0x21 (detail % 2 ^ 16) (param % 2 ^ 32) (block * 2 ^ 24 + code * 2 ^ 16 + b2n full) 0 0
  let s := s.pushRec (blockOrder block) true { r with trig := fires }
  if fires then s.fire 1 (block * 2 ^ 24 + code * 2 ^ 16) else s

/-- Reports the first loss after a LOSS record with fault code 0x01 of the journal (R330, R340). -/
def State.lossCheck (s : State) : State :=
  match s.spr.lossNew with
  | none => s
  | some (d, q) => { s with spr := { s.spr with lossNew := none } }.faultCore 12 1 d q

/-- What was formed in this clock enters the FIFO; a first loss is reported, last (R322, R330). -/
def State.flush (s : State) : State := if s.spr.formed = [] then s else (s.enterFormed.lossCheck).enterFormed

/-- The place of a record's source in R322, by its type; FRAME_IN and FAULT take theirs from where they are formed. -/
def recOrder (typ : Nat) : Nat :=
  if typ = 0x20 ∨ typ = 0x10 then 1
  else if typ = 0x11 then 3
  else if typ = 0x12 ∨ typ = 0x13 then 4
  else if typ = 0x14 then 5
  else if typ = 0x15 ∨ typ = 0x26 then 6
  else if typ = 0x08 then 7
  else if typ = 0x25 then 10
  else if typ = 0x01 then 11
  else if typ = 0x02 ∨ typ = 0x03 ∨ typ = 0x05 ∨ typ = 0x06 then 13
  else if typ = 0x04 ∨ typ = 0x07 then 14
  else if typ = 0x30 then 15
  else if typ = 0x22 ∨ typ = 0x23 ∨ typ = 0x24 then 17
  else 18

/-- Forms a journal record. -/
def State.record (s : State) (always : Bool) (r : Rec) : State := s.pushRec (recOrder r.typ) always r

/-- Forms a record marked "always", at the present time. -/
def State.note (s : State) (typ p0 w4 w5 w6 w7 : Nat) : State :=
  s.record true (s.mkRec typ p0 w4 w5 w6 w7)

/-- The onset of a fault of block `block` (R59). -/
def State.fault (s : State) (block code detail param : Nat) : State := s.faultCore block code detail param

/-- The trigger latched in this clock acts under R332. -/
def State.takeTrigger (s : State) : State :=
  match s.spr.latch with
  | none => s
  | some (src, d) =>
    let s := { s with spr := { s.spr with latch := none } }
    let post := s.g R.SPR_POST F.SPR_POST_POST
    if s.sprState = sprArmed then
      let idx := s.pair R.SPR_WR_COUNT_LO + s.spr.fifo.length
      let t := (s.note 0x38 src d post 0 0).flush
      let written := decide (s.spr.fifo.length < t.spr.fifo.length)
      let t := { t with spr := { t.spr with freezeAt := idx + post + b2n written } }
      let t := t.setPair R.SPR_TRIG_COUNT_LO idx
      let t := t.p R.SPR_TRIG_STATUS F.SPR_TRIG_STATUS_SOURCE src
      let t := t.p R.SPR_STATUS F.SPR_STATUS_STATE sprPost
      t.raw R.SPR_RAW F.SPR_RAW_TRIGGER
    else if s.sprState = sprPost then
      let t := (s.note 0x38 (src + 16) d post 0 0).flush
      let t := t.inc R.SPR_TRIG_STATUS F.SPR_TRIG_STATUS_EXTRA
      t.raw R.SPR_RAW F.SPR_RAW_EXTRA_TRIG
    else if s.sprState = sprFrozen then
      let t := s.inc R.SPR_TRIG_STATUS F.SPR_TRIG_STATUS_EXTRA
      t.raw R.SPR_RAW F.SPR_RAW_EXTRA_TRIG
    else s

/-- The records of a clock enter the FIFO, and its trigger acts on the journal that holds them (R322, R332). -/
def State.clockRecs (s : State) : State := s.flush.takeTrigger.flush

/-! ### Performance counters -/

/-- Counter j of group g: 0 the cycle counter, 1 to 8 CNT0 to CNT7 (R440). -/
def pmcAddr (g j : Nat) : Nat := if j = 0 then R.PMC_Gg_CYCLE_LO g else R.PMC_Gg_CNTk_LO g (j - 1)

/-- Counter j of group g counts `n` events: 48 bits, with its `PMC_OVF` bit and `PMC_RAW`.OVF on a wrap (R440,
R447). -/
def State.pmcAdd (s : State) (g j n : Nat) : State :=
  let v := s.pair (pmcAddr g j) + n
  let s := s.setPair (pmcAddr g j) (v % 2 ^ 48)
  if v < 2 ^ 48 then s
  else
    let s := s.orReg R.PMC_OVF (2 ^ (9 * g + j))
    if bit (s.reg R.PMC_OVF_IE) (9 * g + j) then s.raw R.PMC_RAW F.PMC_RAW_OVF else s

/-- The counters count: the core domain runs and FREEZE is 0 (R440). -/
def State.pmcCounts (s : State) : Bool := s.runs .core && !(s.on R.PMC_CTRL F.PMC_CTRL_FREEZE)

/-- `n` events of select `code` in group `g` (R440, R441).  A select is 0 after reset, so only listed selects can
hold `code`. -/
def State.pmc (s : State) (g code n : Nat) : State :=
  if s.pmcCounts then
    s.regs.foldl (fun t (p : Nat × Word) =>
      if R.PMC_Gg_SELk g 0 ≤ p.1 ∧ p.1 < R.PMC_Gg_SELk g 8 ∧ p.2 = BitVec.ofNat 32 code then
        t.pmcAdd g ((p.1 - R.PMC_Gg_SELk g 0) / 4 + 1) n
      else t) s
  else s

/-! ### DRAM -/

/-- A byte of DRAM that nothing has written reads 0 (DESIGN CHOICE, notes/assumptions/4.md). -/
def dramReset (_ : Nat) : Byte := 0#8

/-- The canonical form of DRAM: addresses strictly rising, no byte listed at the value an unlisted byte reads. -/
def Memory.wf (m : List Host.Cell) : Bool := Tbl.wf dramReset m

/-- The byte of DRAM at `a`. -/
def State.dramByte (s : State) (a : Nat) : Byte := Tbl.get 0#8 s.dram a

/-- DRAM with byte `b` at `a`. -/
def State.setDramByte (s : State) (a : Nat) (b : Byte) : State := { s with dram := Tbl.set 0#8 s.dram a b }

/-- DRAM with the bytes of `l` from `a` upwards. -/
def State.dramWrite (s : State) : Nat → List Byte → State
  | _, [] => s
  | a, b :: r => (s.setDramByte a b).dramWrite (a + 1) r

/-- `n` bytes of DRAM from `a` upwards. -/
def State.dramRead (s : State) (a n : Nat) : List Byte := (List.range n).map (fun i => s.dramByte (a + i))

/-! ### The end of a clock -/

/-- What every clock does after its event: its records enter the journal and the latched trigger acts (R322, R332), conditions set their raw status bits
(R53), and summary levels that have risen since `s` signal their vectors (R56). -/
def endClock (s t : State) : State := (t.clockRecs.applyConds).signalRises s.levels

/-- The boot sequencer is in RUN; before, and in BOOT_FAIL, the device holds quiet (R419). -/
def State.running (s : State) : Bool := s.g R.BOOT_STATUS F.BOOT_STATUS_STATE == 7

/-- The device is held in reset by `RESET_L` or by a rail monitor (R415, R416). -/
def State.inReset (s : State) : Bool := s.boot.pinLow || s.boot.railBad

/-- The outcome of a command whose event takes `s` to `t`.  A device held in reset ignores its inputs (R415). -/
def done (s t : State) : Host.Outcome State Fault Refusal := .next (if s.inReset then s else endClock s t)

/-- Adds to what has left the block. -/
def State.emit (s : State) (o : Out) : State := { s with out := s.out ++ [o] }

end Sys2Proof.Machine
end

