-- ==== Sys2Proof/Machine/Timescale.lean ====
section
/-! DEFINITION. The timescale and the Tripod time core (spec/03_timescale_and_tripod.md). -/

namespace Sys2Proof.Machine

/-! ### Comparing copies (R85) -/

/-- Which parts of two copies differ: bit 0 seconds, bit 1 nanoseconds, bit 2 fraction or subfraction, bit 3
increment (R85). -/
def partMask (a b : Copy) : Nat :=
  b2n (cSec a != cSec b) + 2 * b2n (cSub a / 2 ^ 48 != cSub b / 2 ^ 48) +
    4 * b2n (cSub a % 2 ^ 48 != cSub b % 2 ^ 48) + 8 * b2n (cInc a != cInc b)

/-! ### The core's copies -/

/-- Copy `i`. -/
def Tsc.copy (t : Tsc) (i : Nat) : Copy := if i = 0 then t.c0 else if i = 1 then t.c1 else t.c2

/-- The core with copy `i` holding `c`. -/
def Tsc.setCopy (t : Tsc) (i : Nat) (c : Copy) : Tsc :=
  if i = 0 then { t with c0 := c } else if i = 1 then { t with c1 := c } else { t with c2 := c }

/-- The core with `f` applied to every copy. -/
def Tsc.mapCopies (t : Tsc) (f : Copy → Copy) : Tsc := { t with c0 := f t.c0, c1 := f t.c1, c2 := f t.c2 }

/-- Disagreement history of copy `i`. -/
def Tsc.hist (t : Tsc) (i : Nat) : Hist := if i = 0 then t.h0 else if i = 1 then t.h1 else t.h2

/-- The core with history `h` for copy `i`. -/
def Tsc.setHist (t : Tsc) (i : Nat) (h : Hist) : Tsc :=
  if i = 0 then { t with h0 := h } else if i = 1 then { t with h1 := h } else { t with h2 := h }

/-- The state with the time core `t`. -/
def State.setTsc (s : State) (t : Tsc) : State := { s with tsc := t }

/-- RATE within its legal range (R70). -/
def clampRate (r : Int) : Int := clampI (-(2 ^ 37)) (2 ^ 37) r

/-- Reference selection, with the servo and the model, supplies RATE; it is used while STEER is 0 (R71). -/
def State.supplyRate (s : State) (r : Int) : State :=
  if s.on R.TSC_CTRL F.TSC_CTRL_STEER then s else s.setTsc { s.tsc with newRate := some (clampRate r) }

/-- `TSC_RATE_HOST` supplies RATE; it is used while STEER is 1 (R71). -/
def State.supplyHostRate (s : State) : State :=
  if s.on R.TSC_CTRL F.TSC_CTRL_STEER then
    s.setTsc { s.tsc with newRate := some (clampRate (s.pairI R.TSC_RATE_HOST_LO)) }
  else s

/-- A fault of the Tripod block: each code is queued at most once per 500,000,000 ticks (R90). -/
def State.tscFault (s : State) (code detail param : Nat) : State :=
  let queue := match Tbl.get none s.tsc.lastFault code with
    | none => true
    | some t => decide (500000000 ≤ s.tsc.tick - t)
  if queue then
    (s.setTsc { s.tsc with lastFault := Tbl.set none s.tsc.lastFault code (some s.tsc.tick) }).fault 2 code detail param
  else s

/-- The device is in duplex. -/
def State.duplex (s : State) : Bool := s.on R.TSC_STATUS F.TSC_STATUS_MODE

/-- Copy `i` is fenced. -/
def State.fenced (s : State) (i : Nat) : Bool := maskBit (s.g R.TSC_STATUS F.TSC_STATUS_FENCED) i

/-- Excludes copy `i` from voting and enters duplex (R88 steps 1 to 3). -/
def State.fenceCopy (s : State) (i : Nat) : State :=
  let s := s.p R.TSC_STATUS F.TSC_STATUS_FENCED (maskSet (s.g R.TSC_STATUS F.TSC_STATUS_FENCED) i)
  let s := s.p R.TSC_STATUS F.TSC_STATUS_MODE 1
  s.raw R.TSC_RAW F.TSC_RAW_FENCE

/-- A TRIPOD record: kind, copy, part mask, and the masks of a no-majority tick (R324). -/
def State.tripod (s : State) (kind copy mask w4 : Nat) : State :=
  s.note 0x20 (kind + copy * 16 + mask * 256 + b2n s.duplex * 4096) w4 0 0 0

/-- A triplex disagreement of copy `i` (R84, R85, R87, R88). -/
def State.disagree (s : State) (i : Nat) : State :=
  let mask := partMask (s.tsc.copy i) s.tsc.voted
  let t := s.tsc.tick
  let h := s.tsc.hist i
  let fence := decide (h.seen = 2 ∧ t - h.last2 < 500000000)
  let s := s.setTsc ((s.tsc.setCopy i s.tsc.voted).setHist i ⟨t, h.last1, min (h.seen + 1) 2⟩)
  let s := if i = 0 then s.inc R.TSC_DISAGREE_CNT F.TSC_DISAGREE_CNT_COPY0
    else if i = 1 then s.inc R.TSC_DISAGREE_CNT F.TSC_DISAGREE_CNT_COPY1
    else s.inc R.TSC_DISAGREE_CNT F.TSC_DISAGREE_CNT_COPY2
  let s := (s.raw R.TSC_RAW F.TSC_RAW_DISAGREE).tripod 0 i mask 0
  if fence then ((s.fenceCopy i).tscFault 1 i (t - h.last2)).tripod 1 i mask 0 else s

/-- The masks of copies 0, 1 and 2 against E (R94). -/
def Tsc.masksTo (t : Tsc) (e : Copy) : Nat :=
  partMask t.c0 e + 16 * partMask t.c1 e + 256 * partMask t.c2 e

/-- A tick with no majority: the copies of `l` are reloaded from E, which is the voted state (R84, R89).  DESIGN CHOICE
(notes/assumptions/41.md): in duplex, where neither copy equals E, DUPLEX_MISMATCH is not set beside NO_MAJORITY, since
the row of R89 names neither it nor its count. -/
def State.noMajority (s : State) (l : List Nat) (e : Copy) : State :=
  let m := s.tsc.masksTo e
  let s := s.setTsc (l.foldl (fun t i => t.setCopy i e) { s.tsc with voted := e })
  let s := (s.raw R.TSC_RAW F.TSC_RAW_NO_MAJORITY).p R.TSC_STATUS F.TSC_STATUS_SUSPECT 1
  (s.tscFault 3 (b2n s.duplex) m).tripod 3 0 0 m

/-- A duplex mismatch: copy `bad` is reloaded from the voted state (R89). -/
def State.mismatch (s : State) (bad : Nat) : State :=
  let mask := partMask (s.tsc.copy bad) s.tsc.voted
  let s := s.setTsc (s.tsc.setCopy bad s.tsc.voted)
  let s := (s.inc R.TSC_DISAGREE_CNT F.TSC_DISAGREE_CNT_DUPLEX).raw R.TSC_RAW F.TSC_RAW_DUPLEX_MISMATCH
  (s.tscFault 2 bad mask).tripod 2 bad mask 0

/-- The voted state is `v`. -/
def State.setVoted (s : State) (v : Copy) : State := s.setTsc { s.tsc with voted := v }

/-- The vote of one tick with expected state `e` (R84, R89). -/
def State.vote (s : State) (e : Copy) : State :=
  let a := s.tsc.c0
  let b := s.tsc.c1
  let c := s.tsc.c2
  if s.duplex then
    let l := [0, 1, 2].filter (fun i => !(s.fenced i))
    match l with
    | [i, j] =>
      let x := s.tsc.copy i
      let y := s.tsc.copy j
      if x = y then s.setVoted x
      else if x = e then (s.setVoted x).mismatch j
      else if y = e then (s.setVoted y).mismatch i
      else s.noMajority l e
    | _ => s.setVoted e
  else if a = b then (if b = c then s.setVoted a else (s.setVoted a).disagree 2)
  else if a = c then (s.setVoted a).disagree 1
  else if b = c then (s.setVoted b).disagree 0
  else s.noMajority [0, 1, 2] e

/-- Copies reloaded on the previous tick return to the vote, and the device to triplex (R92). -/
def State.rejoinCopies (s : State) : State :=
  if s.tsc.rejoin = [] then s
  else
    let s := s.tsc.rejoin.foldl (fun s i =>
      s.p R.TSC_STATUS F.TSC_STATUS_FENCED (maskClr (s.g R.TSC_STATUS F.TSC_STATUS_FENCED) i)) s
    let s := s.p R.TSC_STATUS F.TSC_STATUS_MODE 0
    s.setTsc { s.tsc with rejoin := [] }

/-- Copies with RESTORE written are reloaded from the voted state and their histories cleared (R92). -/
def State.reloadCopies (s : State) : State :=
  let l := s.tsc.restore
  let t := l.foldl (fun t i => (t.setCopy i t.voted).setHist i ⟨0, 0, 0⟩) s.tsc
  let s := s.setTsc { t with restore := [], rejoin := l }
  l.foldl (fun s i => s.tripod 4 i 0 0) s

/-- The timescale moves by a tick that counts `n` and takes each copy through `adv`, `e` being what the voted copy becomes:
steps requested become due, upsets and an armed injection flip bits, and the copies are voted (R71, R77, R84, R92,
R93). -/
def State.formTick (s : State) (n : Nat) (adv : Copy → Copy) (carried : Bool) (u0 u1 u2 : Copy) : State :=
  let t := s.tsc
  let adv : Copy → Copy := fun c => match t.newRate with
    | none => adv c
    | some r => cRate r (adv c)
  let flip : Nat → Copy := fun i => match t.inject with
    | some (c, b) => if c = i then BitVec.ofNat 192 (2 ^ b) else 0#192
    | none => 0#192
  let e := adv t.voted
  let s := s.setTsc { t with
    c0 := adv t.c0 ^^^ u0 ^^^ flip 0, c1 := adv t.c1 ^^^ u1 ^^^ flip 1, c2 := adv t.c2 ^^^ u2 ^^^ flip 2,
    tick := t.tick + n, rateSum := t.rateSum + s.rate * n, carried := carried, newRate := none, inject := none,
    hostRipe := t.host.isSome, intern := [], due := t.due ++ t.intern }
  ((s.rejoinCopies).vote e).reloadCopies

/-- One tick of the timescale with upset masks for the three copies (R69 to R71, R84, R93). -/
def State.tickWith (s : State) (u0 u1 u2 : Copy) : State :=
  if !(s.runs .timescale) then s else s.formTick 1 cTick (cCarries s.tsc.voted) u0 u1 u2

/-! ### The second event -/

/-- U in ps for the present COND (R327). -/
def State.uncertainty (s : State) : Nat :=
  let locked := s.g R.SPR_UNC F.SPR_UNC_LOCKED_PS
  match s.g R.REF_STATUS F.REF_STATUS_COND with
  | 1 => locked
  | 2 => min (locked + s.g R.SPR_UNC F.SPR_UNC_HOLD_PS_PER_S * (s.reg R.HLD_ELAPSED).toNat) 0xFFFFFFFE
  | _ => 0xFFFFFFFF

/-- A TIME_QUALITY record, at a second event or at a change of COND (R324, R327). -/
def State.timeQuality (s : State) (second : Bool) : State :=
  let sec := tSec s.now
  s.note 0x16 (s.g R.REF_STATUS F.REF_STATUS_COND + 4 * b2n second) s.uncertainty (sec % 2 ^ 32) (sec / 2 ^ 32) 0

/-- The second event of R83: the voted seconds exceed the highest value signalled. -/
def State.secondEvent (s : State) : State :=
  if s.tsc.sigSec < tSec s.now then
    let s := s.setTsc { s.tsc with sigSec := tSec s.now }
    let s := { s with syn := { s.syn with second := true } }
    (s.raw R.TSC_RAW F.TSC_RAW_SECOND).timeQuality true
  else s

/-! ### Steps -/

/-- A refused step request or an ignored write (R76). -/
def State.refuseStep (s : State) : State :=
  (s.inc R.TSC_STEP_STATUS F.TSC_STEP_STATUS_REFUSED).raw R.TSC_RAW F.TSC_RAW_REFUSED

/-- Source code of a host step (`TSC_STEP_STATUS`.LAST_SRC). -/
def HostStep.code : HostStep → Nat
  | .imm _ => 0
  | .aligned _ => 1
  | .set _ => 2

/-- The host step pending is `h`; PENDING shows it. -/
def State.setHost (s : State) (h : Option HostStep) : State :=
  (s.setTsc { s.tsc with host := h, hostRipe := false }).p R.TSC_STEP_STATUS F.TSC_STEP_STATUS_PENDING (b2n h.isSome)

/-- A PHASE_STEP record (R324): times before and after, amount, source, CANCEL and FAR. -/
def State.phaseRec (s : State) (src : Nat) (cancel : Bool) (before after : Tick64) (amount : Int) (far : Bool) : State :=
  let a := enc 64 amount
  let r := s.mkRec 0x10 (src + 8 * b2n cancel) (before.toNat % 2 ^ 32) (before.toNat / 2 ^ 32) (a % 2 ^ 32) (a / 2 ^ 32)
  s.record true { r with time := after, far := far, seg := if cancel then r.seg else s.spr.seg }

/-- The voted time of the tick, without the steps due on it that have not been applied yet. -/
def State.raw96 (s : State) : T96 := cTime s.tsc.voted

/-- SEG advances with an applied step while its record is formed (R321). -/
def State.segUp (s : State) : State :=
  if s.on R.SPR_CTRL F.SPR_CTRL_EN then { s with spr := { s.spr with seg := (s.spr.seg + 1) % 8 } } else s

/-- Withdraws a pending host step (R78). -/
def State.cancelStep (s : State) : State :=
  match s.tsc.host with
  | none => s
  | some h =>
    let s := (s.setHost none).raw R.TSC_RAW F.TSC_RAW_STEP_DONE
    s.phaseRec h.code true s.nowTick s.nowTick 0 false

/-- The set value of `TSC_SET_T0` to `TSC_SET_T2` with nanoseconds clamped (R4). -/
def State.setValue (s : State) : T96 :=
  let n := (s.reg R.TSC_SET_T0).toNat + (s.reg R.TSC_SET_T1).toNat * 2 ^ 32 + (s.reg R.TSC_SET_T2).toNat * 2 ^ 64
  let t : T96 := BitVec.ofNat 96 n
  mkT96 (tSec t) (min (tNs t) 999999999) (tFrac t)

/-- The set registers hold `t` (R4: the clamped value is written back). -/
def State.storeSet (s : State) (t : T96) : State :=
  ((s.setReg R.TSC_SET_T0 (t96Word t 0)).setReg R.TSC_SET_T1 (t96Word t 1)).setReg R.TSC_SET_T2 (t96Word t 2)

/-- A GO with the MODE stored (R75, R76). -/
def State.requestStep (s : State) : State :=
  if s.tsc.host.isSome then s.refuseStep
  else
    match s.g R.TSC_STEP_CTRL F.TSC_STEP_CTRL_MODE with
    | 0 => s.setHost (some (.imm (s.pairI R.TSC_STEP_LO)))
    | 1 => s.setHost (some (.aligned (s.pairI R.TSC_STEP_LO)))
    | _ =>
      if s.on R.TSC_CTRL F.TSC_CTRL_STEER then (s.storeSet s.setValue).setHost (some (.set s.setValue))
      else s.refuseStep

/-- What a write of `TSC_STEP_CTRL` triggers: CANCEL first, then GO (R78). -/
def State.stepCtrlAct (s : State) (v : Word) : State :=
  let s := if F.TSC_STEP_CTRL_CANCEL.get v = 1 then s.cancelStep else s
  if F.TSC_STEP_CTRL_GO.get v = 1 then s.requestStep else s

/-- A step of an internal source for the next tick (R79): source 3 reference switch, 4 servo, 5 Ember seed. -/
def State.internalStep (s : State) (code : Nat) (st : IntStep) : State :=
  s.setTsc { s.tsc with intern := s.tsc.intern ++ [(code, st)] }

/-- Applies one relative step of source `code` to every copy and reports it (R77, R81). -/
def State.applyRel (s : State) (code : Nat) (amount : Int) : State :=
  let before := tickOf s.raw96
  let t := s.tsc.mapCopies (cStep amount)
  let s := s.setTsc { t with voted := cStep amount t.voted, breaks := t.breaks + 1 }
  let s := { s with syn := { s.syn with topSec := max s.syn.topSec (cSec s.tsc.voted) } }
  let s := s.segUp
  let s := (s.setPairI R.TSC_LAST_STEP_LO amount).p R.TSC_STEP_STATUS F.TSC_STEP_STATUS_LAST_SRC code
  (s.raw R.TSC_RAW F.TSC_RAW_STEP_DONE).phaseRec code false before (tickOf s.raw96) amount false

/-- Applies one absolute set of source `code` to every copy and reports it (R77, R81 to R83). -/
def State.applySet (s : State) (code : Nat) (v : T96) : State :=
  let old := s.raw96
  let t := s.tsc.mapCopies (cSet v)
  let s := s.setTsc { t with voted := cSet v t.voted, sigSec := tSec v, breaks := t.breaks + 1 }
  let s := { s with syn := { s.syn with topSec := tSec v } }
  let s := s.segUp
  let d := t96Diff s.raw96 old
  let s := (s.setPairI R.TSC_LAST_STEP_LO d.1).p R.TSC_STEP_STATUS F.TSC_STEP_STATUS_LAST_SRC code
  let s := if d.2 then s.raw R.TSC_RAW F.TSC_RAW_FAR_RANGE else s
  (s.raw R.TSC_RAW F.TSC_RAW_STEP_DONE).phaseRec code false (tickOf old) (tickOf s.raw96) d.1 d.2

/-- The pending host step falls on the tick just formed (R77). -/
def State.hostDue (s : State) : Bool := s.tsc.hostDue

/-- Some step falls on the tick just formed. -/
def State.stepDue (s : State) : Bool := s.tsc.stepDue

/-- Adds a host step of MODE 0 or 1 to `TSC_OFFSET_ACC` in automatic steering (R80). -/
def State.accOffset (s : State) (amount : Int) : State :=
  if s.on R.TSC_CTRL F.TSC_CTRL_STEER then s
  else s.setPairI R.TSC_OFFSET_ACC_LO (s.pairI R.TSC_OFFSET_ACC_LO + amount)

/-- Applies the host step (R77, R80). -/
def State.applyHost (s : State) (h : HostStep) : State :=
  match h with
  | .imm a => ((s.setHost none).applyRel 0 a).accOffset a
  | .aligned a => ((s.setHost none).applyRel 1 a).accOffset a
  | .set t => (s.setHost none).applySet 2 t

/-- The steps due on the tick just formed, internal sources before the host, an absolute set last (R79).  An
absolute set of an internal source cancels a pending host step, which counts as refused. -/
def State.applySteps (s : State) : State :=
  let l := s.tsc.due
  let dueHost := s.hostDue
  let sets := setSteps s.raw96 l
  let s := s.setTsc { s.tsc with due := [] }
  let s := (relSteps l).foldl (fun s p => s.applyRel p.1 p.2) s
  if sets.isEmpty then
    match s.tsc.host with
    | some h => if dueHost then s.applyHost h else s
    | none => s
  else
    let s := if s.tsc.host.isSome then (s.setHost none).refuseStep else s
    sets.foldl (fun s p => s.applySet p.1 p.2) s

/-! ### Tripod control (R91 to R93) -/

/-- CLR_SUSPECT (R91). -/
def State.clearSuspect (s : State) : State := s.p R.TSC_STATUS F.TSC_STATUS_SUSPECT 0

/-- RESTORE of the copies of mask `m`: those that are fenced are reloaded on the next tick (R92). -/
def State.restoreCopies (s : State) (m : Nat) : State :=
  let l := (maskBits m 3).filter (fun i => s.fenced i && !(s.tsc.restore.contains i) && !(s.tsc.rejoin.contains i))
  s.setTsc { s.tsc with restore := s.tsc.restore ++ l }

/-- FENCE of the copies of mask `m`: in triplex, the lowest-numbered of them is fenced (R92). -/
def State.fenceCopies (s : State) (m : Nat) : State :=
  (maskBits m 3).foldl (fun s i => if s.duplex then s else (s.fenceCopy i).tripod 5 i 0 0) s

/-- What a write of `TSC_TRIPOD_CTRL` triggers (R91, R92). -/
def State.tripodCtrlAct (s : State) (v : Word) : State :=
  let s := if F.TSC_TRIPOD_CTRL_CLR_SUSPECT.get v = 1 then s.clearSuspect else s
  let s := s.restoreCopies (F.TSC_TRIPOD_CTRL_RESTORE.get v)
  s.fenceCopies (F.TSC_TRIPOD_CTRL_FENCE.get v)

/-- What a write of `TSC_TRIPOD_INJECT` triggers: ARM injects once on the next tick (R93). -/
def State.injectAct (s : State) (v : Word) : State :=
  if F.TSC_TRIPOD_INJECT_ARM.get v = 1 then
    s.setTsc { s.tsc with inject := some (s.g R.TSC_TRIPOD_INJECT F.TSC_TRIPOD_INJECT_COPY,
      s.g R.TSC_TRIPOD_INJECT F.TSC_TRIPOD_INJECT_BIT) }
  else s

end Sys2Proof.Machine
end

