-- ==== Sys2Proof/Machine/Holdover.lean ====
section
/-! DEFINITION. The holdover model and the Ember domain (spec/05_holdover_and_ember.md). -/

namespace Sys2Proof.Machine

/-! ### Arithmetic of the model

y_model is held in units of 10^-15 × 2^-64. -/

/-- The terms 2 t^(2i+1)/(2i+1) from index `i` on, `n` of them, in units of 2^-96; `p` is t^(2i+1). -/
def lnSeries (t2 : Nat) : Nat → Nat → Nat → Nat
  | 0, _, _ => 0
  | n + 1, i, p => 2 * p / (2 * i + 1) + lnSeries t2 n (i + 1) (p * t2 / 2 ^ 96)

/-- ln(num/den) in units of 2^-64, for num ≥ den > 0: an atanh series after halving to the range 1 to 2. -/
def lnQ64 (num den : Nat) : Nat :=
  let k := Nat.log2 (num / den)
  let d := den * 2 ^ k
  let t := (num - d) * 2 ^ 96 / (num + d)
  (k * 0xB17217F7D1CF79ABC9E3B398 + lnSeries (t * t / 2 ^ 96) 48 0 t) / 2 ^ 32

/-- ln(1 + t / 86,400) in units of 2^-64; 0 for t ≤ 0. -/
def lnAge (t : Int) : Int := if t ≤ 0 then 0 else (lnQ64 (86400 + t.toNat) 86400 : Nat)

/-- Lower edge and width of the temperature axis (R135). -/
def State.tStart (s : State) : Int := sx 16 (s.g R.HLD_TEMP_AXIS F.HLD_TEMP_AXIS_TSTART)
def State.tBin (s : State) : Int := s.g R.HLD_TEMP_AXIS F.HLD_TEMP_AXIS_TBIN

/-- The reading selected by TEMP_SRC (R135). -/
def State.reading (s : State) : Int :=
  if s.on R.HLD_CTRL F.HLD_CTRL_TEMP_SRC then s.g R.HLD_TEMP_NOW F.HLD_TEMP_NOW_OSC_CODE
  else sx 16 (s.g R.HLD_TEMP_NOW F.HLD_TEMP_NOW_DIE)

/-- The bin of a reading (R135). -/
def State.binOf (s : State) (theta : Int) : Nat := (clampI 0 31 ((theta - s.tStart) / s.tBin)).toNat

/-- Twice the centre of bin `b`: the middle of the readings it covers. -/
def State.centre2 (s : State) (b : Nat) : Int := 2 * (s.tStart + b * s.tBin) + s.tBin - 1

/-- COUNT of bin `b`. -/
def State.binCount (s : State) (b : Nat) : Nat := s.g (R.HLD_TTABb b) F.HLD_TTABb_COUNT

/-- The entry of bin `b` in 10^-15. -/
def State.binC (s : State) (b : Nat) : Int := Tbl.get 0 s.hld.table b

/-- Bin `b` is learned (R135). -/
def State.learned (s : State) (b : Nat) : Bool := decide (4 ≤ s.binCount b)

/-- C(θ) in units of 10^-15 × 2^-64 (R135). -/
def State.cOf (s : State) (theta : Int) : Int :=
  let l := (List.range 32).filter s.learned
  let lo := (l.filter (fun b => decide (s.centre2 b ≤ 2 * theta))).getLast?
  let hi := (l.filter (fun b => decide (2 * theta < s.centre2 b))).head?
  match lo, hi with
  | none, none => 0
  | some a, none => s.binC a * 2 ^ 64
  | none, some b => s.binC b * 2 ^ 64
  | some a, some b =>
    s.binC a * 2 ^ 64 + (s.binC b - s.binC a) * 2 ^ 64 * (2 * theta - s.centre2 a) / (s.centre2 b - s.centre2 a)

/-- The frequency term F. -/
def State.fTerm (s : State) : Int := s.pairI R.HLD_F_LO

/-- y_model at age `t` and reading `theta`, with the terms of mask `use` (bit 0 linear, bit 1 logarithmic, bit 2
temperature) (R131). -/
def State.yTerms (s : State) (use : Nat) (t theta : Int) : Int :=
  s.fTerm * 2 ^ 64
    + (if maskBit use 0 then s.regI R.HLD_A1 * t * 2 ^ 64 / 1000 else 0)
    + (if maskBit use 1 then s.regI R.HLD_A2 * lnAge t else 0)
    + (if maskBit use 2 then s.cOf theta else 0)

/-- The model holds a valid frequency term (R108, R136). -/
def State.freqValid (s : State) : Bool := s.on R.HLD_STATUS F.HLD_STATUS_FREQ_VALID

/-- y_model now (R131, R132); 0 while FREQ_VALID is 0. -/
def State.yModel (s : State) : Int :=
  if s.freqValid then
    s.yTerms (s.g R.HLD_CTRL F.HLD_CTRL_USE) ((s.reg R.HLD_AGE_S).toNat : Int) s.reading
  else 0

/-- RATE for a fractional frequency in 10^-15 × 2^-64 (R132). -/
def rateOfY (y : Int) : Int := clampRate (-(divRound y (2 ^ 15 * 10 ^ 15)))

/-- The RATE the model gives now (R132). -/
def State.modelRateNow (s : State) : Int :=
  match s.hld.frozen with
  | some r => r
  | none => rateOfY (s.yModel + s.hld.anchor)

/-- The state with holdover state `h`. -/
def State.setHld (s : State) (h : Hld) : State := { s with hld := h }

/-- The loop, or the servo for the PTP candidate, steers the timescale (R132): ACQUIRE with the target measured, or LOCKED,
STEER 0, and RATE neither from the model nor withheld by a servo that does not track. -/
def State.loopSteers (s : State) : Bool :=
  let st := s.g R.REF_STATUS F.REF_STATUS_STATE
  (decide (st = 2) || decide (st = 1) && s.ref.measured) && !(s.on R.TSC_CTRL F.TSC_CTRL_STEER) && !s.ref.modelRate &&
    (decide (s.g R.REF_STATUS F.REF_STATUS_SEL_CAND ≠ 29) || decide (2 ≤ s.g R.PTP_STATUS F.PTP_STATUS_SERVO))

/-- A second with a tick on which the loop does not steer is no second of the loop mean (R132). -/
def State.steerTick (s : State) : State :=
  if s.loopSteers || s.hld.secOff then s else s.setHld { s.hld with secOff := true }

/-- The loop's RATE over the anchor window: the sum over the ticks of the seconds in which it steered, and their number
(R132). -/
def State.loopMean (s : State) : Int × Nat :=
  let w := (s.hld.history.drop 16).take (s.g R.HLD_ANCHOR F.HLD_ANCHOR_ANCHOR_S)
  (w.filterMap (fun p => p.1)).foldl (fun a p => (a.1 + p.1, a.2 + p.2)) (0, 0)

/-- Fixes the anchor at entry to SWITCH or HOLDOVER (R132). -/
def State.fixAnchor (s : State) : State :=
  let m := s.loopMean
  let mean : Int := -(m.1 * 10 ^ 15 * 2 ^ 15 / m.2)
  let yThen : Int := match s.hld.history.drop 16 with
    | p :: _ => p.2
    | [] => s.yModel
  let h := s.hld
  if s.freqValid then
    if s.on R.HLD_CTRL F.HLD_CTRL_ANCHOR_EN && decide (0 < m.2) then
      s.setHld { h with anchor := mean - yThen, frozen := none }
    else s.setHld { h with anchor := 0, frozen := none }
  else if 0 < m.2 then s.setHld { h with anchor := mean, frozen := none }
  else s.setHld { h with anchor := 0, frozen := some s.rate }

/-- A condition of R133 fails in the present fit interval. -/
def State.breakFit (s : State) : State := s.setHld { s.hld with broken := true }

/-! ### Episodes (R128, R129, R138) -/

/-- A HOLDOVER record (R324). -/
def State.holdRec (s : State) (kind : Nat) : State :=
  let e := if kind = 1 then s.pair R.HLD_LAST_ERR_LO else 0
  s.note 0x12 (kind + 4 * s.g R.HLD_STATUS F.HLD_STATUS_EPISODE_QUAL + 8 * s.g R.HLD_STATUS F.HLD_STATUS_ERR_VALID)
    (s.reg R.HLD_ELAPSED).toNat 0 (e % 2 ^ 32) (e / 2 ^ 32)

/-- A holdover episode begins (R128, R138). -/
def State.beginEpisode (s : State) : State :=
  if s.hld.episode then s
  else
    let q := s.on R.HLD_STATUS F.HLD_STATUS_MODEL_QUAL && decide (s.g R.HLD_CTRL F.HLD_CTRL_USE = 7)
    let s := s.setHld { s.hld with episode := true }
    let s := (s.setRegN R.HLD_ELAPSED 0).pb R.HLD_STATUS F.HLD_STATUS_EPISODE_QUAL q
    (s.raw R.HLD_RAW F.HLD_RAW_ENTRY).holdRec 0

/-- A holdover episode ends (R128, R138: EPISODE_QUAL is 0 outside an episode). -/
def State.endEpisode (s : State) : State :=
  if s.hld.episode then
    let s := s.setHld { s.hld with episode := false, anchor := 0, frozen := none }
    ((s.raw R.HLD_RAW F.HLD_RAW_EXIT).holdRec 1).p R.HLD_STATUS F.HLD_STATUS_EPISODE_QUAL 0
  else s

/-- The last error of an episode: the negated offset of a measured target (R129). -/
def State.storeErr (s : State) (offset : Int) : State :=
  (s.setPairI R.HLD_LAST_ERR_LO (satS 64 (-offset))).p R.HLD_STATUS F.HLD_STATUS_ERR_VALID 1

/-! ### Learning (R133, R134, R136) -/

/-- The deviation of the next binary64 value. -/
def State.ulp (s : State) : Int := ((Config.fitUlp s.freeIdx).val : Int) - 1

/-- The determinant of a 3 × 3 matrix given by rows. -/
def det3 (a b c d e f g h i : Rat) : Rat := a * (e * i - f * h) - b * (d * i - f * g) + c * (d * h - e * g)

/-- The value of basis `j` at age `t`: 1, t/1000 (so that A1 is in 10^-18/s), ln(1 + t/86,400) (R134). -/
def basis (t : Int) (j : Nat) : Rat :=
  if j = 0 then 1 else if j = 1 then (t : Rat) / 1000 else ((lnAge t : Int) : Rat) / 2 ^ 64

/-- The least-squares solution of z ~ Σ x_j basis_j over the samples for the fitted terms `f0`, `f1`, `f2`; a term
not fitted has solution 0 here (R134). -/
def leastSquares (f0 f1 f2 : Bool) (l : List (Int × Rat)) : Rat × Rat × Rat :=
  let on : Nat → Bool := fun j => if j = 0 then f0 else if j = 1 then f1 else f2
  let m : Nat → Nat → Rat := fun i j =>
    if on i && on j then (l.map (fun p => basis p.1 i * basis p.1 j)).sum
    else if i = j then 1 else 0
  let v : Nat → Rat := fun i => if on i then (l.map (fun p => basis p.1 i * p.2)).sum else 0
  let d := det3 (m 0 0) (m 0 1) (m 0 2) (m 1 0) (m 1 1) (m 1 2) (m 2 0) (m 2 1) (m 2 2)
  (det3 (v 0) (m 0 1) (m 0 2) (v 1) (m 1 1) (m 1 2) (v 2) (m 2 1) (m 2 2) / d,
   det3 (m 0 0) (v 0) (m 0 2) (m 1 0) (v 1) (m 1 2) (m 2 0) (v 2) (m 2 2) / d,
   det3 (m 0 0) (m 0 1) (v 0) (m 1 0) (m 1 1) (v 1) (m 2 0) (m 2 1) (v 2) / d)

/-- A rational rounded to nearest, ties away from zero. -/
def ratRound (q : Rat) : Int := divRound q.num q.den

/-- TEMP_OUT: the reading lies in an unlearned bin (R138). -/
def State.showTempOut (s : State) : State :=
  s.pb R.HLD_STATUS F.HLD_STATUS_TEMP_OUT (!(s.learned (s.binOf s.reading)))

/-- MODEL_QUAL (R136). -/
def State.refreshModelQual (s : State) : State :=
  let span : Int := match s.hld.firstT, s.hld.ring with
    | some a, x :: _ => x.t - a
    | _, _ => -1
  let ok := s.freqValid && s.on R.HLD_STATUS F.HLD_STATUS_AGE_VALID && s.on R.HLD_STATUS F.HLD_STATUS_LOG_VALID &&
    decide ((s.g R.HLD_QUAL F.HLD_QUAL_SPAN_H * 3600 : Nat) ≤ span) &&
    decide ((s.reg R.HLD_RESID).toNat ≤ s.g R.HLD_QUAL F.HLD_QUAL_RESID)
  s.pb R.HLD_STATUS F.HLD_STATUS_MODEL_QUAL ok

/-- The ring of samples is `l`; SAMPLES shows its length. -/
def State.setRing (s : State) (l : List Sample) : State :=
  (s.setHld { s.hld with ring := l }).p R.HLD_STATUS F.HLD_STATUS_SAMPLES l.length

/-- Entry `b` of the temperature table is `c` in 10^-15; the register shows 10^-13 rounded to nearest. -/
def State.setBin (s : State) (b : Nat) (c : Int) (count : Nat) : State :=
  let s := s.setHld { s.hld with table := Tbl.set 0 s.hld.table b c }
  (s.p (R.HLD_TTABb b) F.HLD_TTABb_C (enc 16 (satS 16 (divRound c 100)))).p (R.HLD_TTABb b) F.HLD_TTABb_COUNT count

/-- The newest sample updates the temperature table (R134): exactly while A1 and A2 are 0, else within the rounding of
binary64. -/
def State.learnTable (s : State) (x : Sample) : State :=
  let b := s.binOf x.theta
  if s.hld.anchorBin = some b then s
  else
    let r := (x.y * 2 ^ 64 - s.yTerms 3 x.t x.theta).tdiv (2 ^ 64)
    let n := min (s.binCount b + 1) 16
    let c := s.binC b + divRound (r - s.binC b) n
    let exact := decide (s.reg R.HLD_A1 = 0#32) && decide (s.reg R.HLD_A2 = 0#32)
    if exact then s.setBin b c (min (s.binCount b + 1) 255)
    else (s.setBin b (c + s.ulp) (min (s.binCount b + 1) 255)).drawn

/-- The refit after a sample (R134). -/
def State.refit (s : State) : State :=
  let learn := s.g R.HLD_CTRL F.HLD_CTRL_LEARN
  let ring := s.hld.ring
  let span : Int := match ring.head?, ring.getLast? with
    | some a, some b => a.t - b.t
    | _, _ => 0
  let f0 := maskBit learn 0
  let f1 := maskBit learn 1 && decide (21600 ≤ span)
  let f2 := maskBit learn 2 && decide (172800 ≤ span)
  let known : Int → Int := fun t =>
    (if f0 then 0 else s.fTerm * 2 ^ 64) + (if f1 then 0 else s.regI R.HLD_A1 * t * 2 ^ 64 / 1000) +
      (if f2 then 0 else s.regI R.HLD_A2 * lnAge t)
  let z := ring.map (fun x => (x.t, (((x.y * 2 ^ 64 - s.cOf x.theta - known x.t : Int) : Rat) / 2 ^ 64)))
  let sol := leastSquares f0 f1 f2 z
  let s := if f0 then (s.setPairI R.HLD_F_LO (satS 64 (ratRound sol.1 + s.ulp))).drawn else s
  let s := if f1 then ((s.setRegI R.HLD_A1 (satS 32 (ratRound sol.2.1 + s.ulp))).p R.HLD_STATUS
      F.HLD_STATUS_AGE_VALID 1).drawn else s
  let s := if f2 then ((s.setRegI R.HLD_A2 (satS 32 (ratRound sol.2.2 + s.ulp))).p R.HLD_STATUS
      F.HLD_STATUS_LOG_VALID 1).drawn else s
  let s := match ring with
    | x :: _ => if maskBit learn 3 then s.learnTable x else s
    | [] => s
  let sq := (ring.map (fun x => let d := (x.y * 2 ^ 64 - s.yTerms (s.g R.HLD_CTRL F.HLD_CTRL_USE) x.t x.theta).natAbs / 2 ^ 48; d * d)).sum
  let rms := isqrt (sq / ring.length)
  let resid := (divRound rms (10 * 2 ^ 16) + s.ulp).toNat
  let s := (s.setRegN R.HLD_RESID (satU 32 resid)).drawn
  (s.raw R.HLD_RAW F.HLD_RAW_FIT_DONE).refreshModelQual.showTempOut

/-- ȳ of the fit interval in 10^-15 (R133): the change of the timescale against the candidate over the interval, less the
mean RATE, rounded to nearest. -/
def State.fitMean (s : State) : Int :=
  let h := s.hld
  ratRound (-((s.tsc.rateSum - h.fitRate : Int) : Rat) * 10 ^ 15 / (2 ^ 49 * (s.tsc.tick - h.fitTick : Nat)) -
    ((s.ref.err - h.fitErr : Int) : Rat) * 10 ^ 15 / (1000 * secTicks : Int))

/-- θ̄ of the fit interval (R133), rounded to nearest. -/
def State.fitReading (s : State) : Int := if s.hld.tempN = 0 then s.reading else divRound s.hld.tempSum s.hld.tempN

/-- The next fit interval begins at once (R133). -/
def State.nextFit (s : State) : State :=
  s.setHld { s.hld with
    broken := false, fitTick := s.tsc.tick, fitRate := s.tsc.rateSum, fitErr := s.ref.err, tempSum := 0, tempN := 0 }

/-- The sample `y`, `theta` at the end of a fit interval, and the refit; the first one sets the model epoch, so that t is
500 (R133). -/
def State.fitSample (s : State) (y theta : Int) : State :=
  let s := if s.hld.epoch && !s.hld.renew then s
    else (s.setHld { s.hld with epoch := true, renew := false }).setRegN R.HLD_AGE_S 1000
  let t : Int := ((s.reg R.HLD_AGE_S).toNat : Int) - 500
  let x : Sample := ⟨t, y, theta⟩
  let s := s.setRing ((x :: s.hld.ring).take 1024)
  let s := s.setHld { s.hld with
    firstT := s.hld.firstT.or (some t),
    anchorBin := s.hld.anchorBin.or (some (s.binOf theta)) }
  (s.p R.HLD_STATUS F.HLD_STATUS_FREQ_VALID 1).refit

/-- The end of a fit interval: a sample and a refit, or nothing (R133). -/
def State.fitEnd (s : State) : State :=
  let locked := decide (s.g R.REF_STATUS F.REF_STATUS_STATE = 2)
  let ok := !s.hld.broken && locked && !(s.on R.TSC_CTRL F.TSC_CTRL_STEER) &&
    !(s.on R.REF_STATUS F.REF_STATUS_GUARDING) && decide (s.hld.fitTick < s.tsc.tick)
  if ok then s.nextFit.fitSample s.fitMean s.fitReading else s.nextFit

/-! ### Commands on the model (R130, R135 to R138) -/

/-- `k` seconds of the tick clock have passed: τ counts them once an epoch is set, and `HLD_ELAPSED` within an episode (R128,
R131). -/
def State.hldSeconds (s : State) (k : Nat) : State :=
  let s := if s.hld.epoch then s.setRegN R.HLD_AGE_S ((s.reg R.HLD_AGE_S).toNat + k) else s
  if s.hld.episode then s.setRegN R.HLD_ELAPSED ((s.reg R.HLD_ELAPSED).toNat + k) else s

/-- The means of the second that ends enter the history, and the reading the mean of the fit interval (R132, R133). -/
def State.endSecond (s : State) : State :=
  let h := s.hld
  let n := s.tsc.tick - h.secTick
  let mean := if h.secOff || n == 0 then none else some (s.tsc.rateSum - h.secRate, n)
  s.setHld { h with secTick := s.tsc.tick, secRate := s.tsc.rateSum, secOff := false, history := ((mean, s.yModel) :: h.history).take 272,
                    tempSum := h.tempSum + s.reading, tempN := h.tempN + 1 }

/-- One tick-clock second of the model (R128, R130); while the timescale is stopped no second comes, and those of the gap
count when it resumes (R153, R154). -/
def State.modelEval (s : State) : State :=
  if s.runs .timescale then
    let s := (s.hldSeconds 1).endSecond.showTempOut
    let s := s.setPairI R.HLD_RATE_LO s.modelRateNow
    if s.ref.modelRate then s.supplyRate s.modelRateNow else s
  else s

/-- LOAD (R137). -/
def State.loadModel (s : State) : State :=
  let s := s.setPair R.HLD_F_LO (s.pair R.HLD_PRE_F_LO)
  let s := (s.setReg R.HLD_A1 (s.reg R.HLD_PRE_A1)).setReg R.HLD_A2 (s.reg R.HLD_PRE_A2)
  let s := s.setReg R.HLD_AGE_S (s.reg R.HLD_PRE_AGE_S)
  let pre : Nat → Int := fun b => 100 * sx 16 (s.g (R.HLD_PRE_TTABb b) F.HLD_PRE_TTABb_C)
  let a := s.binOf s.reading
  let s := (List.range 32).foldl (fun s b => s.setBin b (pre b - pre a) 16) s
  let s := s.setPairI R.HLD_F_LO (s.fTerm + pre a)
  let s := (s.setHld { s.hld with epoch := true, renew := false, frozen := none, firstT := none, anchorBin := some a }).setRing []
  let s := s.p R.HLD_STATUS F.HLD_STATUS_FREQ_VALID 1
  let s := s.p R.HLD_STATUS F.HLD_STATUS_AGE_VALID 1
  (s.p R.HLD_STATUS F.HLD_STATUS_LOG_VALID 1).refreshModelQual.showTempOut

/-- Clears every COUNT and entry and the sample ring; the next sample sets a new epoch, and τ counts on until then (R135). -/
def State.clearTable (s : State) : State :=
  let s := (List.range 32).foldl (fun s b => s.setBin b 0 0) s
  ((s.setHld { s.hld with renew := true, firstT := none, anchorBin := none }).setRing []).refreshModelQual.showTempOut

/-- CLEAR (R136). -/
def State.clearModel (s : State) : State :=
  let s := s.clearTable
  let s := s.setHld { s.hld with epoch := false, renew := false }
  let s := ((s.setPair R.HLD_F_LO 0).setRegN R.HLD_A1 0).setRegN R.HLD_A2 0
  let s := s.setRegN R.HLD_AGE_S 0
  let s := s.p R.HLD_STATUS F.HLD_STATUS_FREQ_VALID 0
  let s := s.p R.HLD_STATUS F.HLD_STATUS_AGE_VALID 0
  let s := s.p R.HLD_STATUS F.HLD_STATUS_LOG_VALID 0
  s.p R.HLD_STATUS F.HLD_STATUS_MODEL_QUAL 0

/-- What a write of `HLD_CTRL` over the value `old` triggers: a change of TEMP_SRC, then CLEAR, then LOAD (R135 to
R137). -/
def State.hldCtrlAct (s : State) (old v : Word) : State :=
  let s := if F.HLD_CTRL_TEMP_SRC.get old = s.g R.HLD_CTRL F.HLD_CTRL_TEMP_SRC then s else s.clearTable
  let s := if F.HLD_CTRL_CLEAR.get v = 1 then s.clearModel else s
  if F.HLD_CTRL_LOAD.get v = 1 then s.loadModel else s

/-- What a write of `HLD_TEMP_AXIS` over the value `old` triggers (R135). -/
def State.tempAxisAct (s : State) (old : Word) : State :=
  if s.reg R.HLD_TEMP_AXIS = old then s else s.clearTable

/-- A qualified episode becomes unqualified (R138, R147): reason 1 HOLD_S exceeded, 2 unlearned bin for 60 s. -/
def State.loseQual (s : State) (reason : Nat) : State :=
  let s := (s.p R.HLD_STATUS F.HLD_STATUS_EPISODE_QUAL 0).raw R.HLD_RAW F.HLD_RAW_UNQUALIFIED
  (s.fault 4 1 reason (s.reg R.HLD_ELAPSED).toNat).holdRec 2

/-! ### Ember (R140 to R146, R505) -/

/-- Ember's time as seconds and cycles (`HLD_EMB_TIME`). -/
def State.emberTime (s : State) : Nat × Nat :=
  let v := s.pair R.HLD_EMB_TIME_LO
  (v / 2 ^ 15, v % 2 ^ 15)

/-- Ember counts `sec` seconds and `cyc` cycles. -/
def State.setEmberTime (s : State) (sec cyc : Nat) : State :=
  s.setPair R.HLD_EMB_TIME_LO ((sec % 2 ^ 48) * 2 ^ 15 + cyc)

/-- A flag of `HLD_EMB_STATUS`. -/
def State.emberFlag (s : State) (f : Fld) (b : Bool) : State := s.pb R.HLD_EMB_STATUS f b

/-- The conditions under which the device maintains Ember (R141, R505). -/
def State.emberMaintained (s : State) : Bool :=
  let c := s.g R.REF_STATUS F.REF_STATUS_COND
  decide (c = 1 ∨ c = 2) && s.on R.HLD_EMB_CFG F.HLD_EMB_CFG_SYNC_EN && !(s.on R.HLD_EMB_CFG F.HLD_EMB_CFG_NO_XTAL)

/-- The trim is corrected from the cycles counted over 1,024 s of timescale (R141). -/
def State.trimUpdate (s : State) (count : Nat) : State :=
  if s.emberMaintained then
    let t := sx 12 (s.g R.HLD_EMB_TRIM F.HLD_EMB_TRIM_TRIM) + (33554432 - (count : Int))
    s.p R.HLD_EMB_TRIM F.HLD_EMB_TRIM_TRIM (enc 12 (clampI (-2047) 2047 t))
  else s

/-- A resync at an Ember edge: the timescale rounded to the nearest cycle (R141, R143). -/
def State.resync (s : State) : State :=
  if s.emberMaintained then
    let t := s.now
    let c := (2 * ((tNs t * 65536 + tFrac t) * 32768) + 65536000000000) / (2 * 65536000000000)
    let s := if c < 32768 then s.setEmberTime (tSec t) c else s.setEmberTime (tSec t + 1) 0
    let s := s.setHld { s.hld with resyncDue := false, emberAcc := 0 }
    ((s.emberFlag F.HLD_EMB_STATUS_VALID true).emberFlag F.HLD_EMB_STATUS_SYNCED true).emberFlag
      F.HLD_EMB_STATUS_LOST false
  else s

/-- What a write of `HLD_EMB_CTRL` triggers (R141, R143). -/
def State.embCtrlAct (s : State) (v : Word) : State :=
  let s := if F.HLD_EMB_CTRL_INVALIDATE.get v = 1 then s.emberFlag F.HLD_EMB_STATUS_VALID false else s
  if F.HLD_EMB_CTRL_RESYNC.get v = 1 && s.emberMaintained then s.setHld { s.hld with resyncDue := true } else s

/-- Ember loses its only supply (R143). -/
def State.emberLost (s : State) : State :=
  (s.emberFlag F.HLD_EMB_STATUS_VALID false).emberFlag F.HLD_EMB_STATUS_LOST true

/-- Ember powers up from no supply (R143). -/
def State.emberCold (s : State) : State :=
  let s := (s.setPair R.HLD_EMB_TIME_LO 0).setPair R.HLD_EMB_FAIL_LO 0
  (s.setRegN R.HLD_EMB_TRIM 0).emberLost

/-- Ember stores its present count as the power-fail time (R143). -/
def State.storeFailTime (s : State) : State := s.setPair R.HLD_EMB_FAIL_LO (s.pair R.HLD_EMB_TIME_LO)

/-- No Ember edge for 1 ms (R146, R505). -/
def State.xtalStop (s : State) : State :=
  let s := s.emberFlag F.HLD_EMB_STATUS_VALID false
  if s.on R.HLD_EMB_CFG F.HLD_EMB_CFG_NO_XTAL then s else s.fault 4 3 0 (s.emberTime.1 % 2 ^ 32)

/-- The T96 time of an Ember count: seconds + cycles / 32,768 (R144). -/
def emberT96 (sec cyc : Nat) : T96 :=
  let u := cyc * 2000000000
  mkT96 sec (u / 65536) (u % 65536)

/-- The absolute set of the seed takes the step path, with source 5: it cancels a pending host step, which counts as
refused (R79, R144). -/
def State.seedSet (s : State) (v : T96) : State := (s.setTsc { s.tsc with due := s.tsc.due ++ [(5, .set v)] }).applySteps

/-- The seed of R144: an absolute set from Ember with its OUTAGE record, or none. -/
def State.seed (s : State) : State :=
  if s.on R.HLD_EMB_STATUS F.HLD_EMB_STATUS_VALID && !(s.on R.HLD_EMB_CFG F.HLD_EMB_CFG_NO_XTAL) then
    let e := s.emberTime
    let f := s.pair R.HLD_EMB_FAIL_LO
    let s := (s.seedSet (emberT96 e.1 e.2)).raw R.HLD_RAW F.HLD_RAW_EMB_SEEDED
    let fs := f / 2 ^ 15
    s.note 0x13 0 (fs % 2 ^ 32) ((f % 2 ^ 15) * 2 ^ 16 + fs / 2 ^ 32) (e.1 % 2 ^ 32) (e.1 / 2 ^ 32)
  else if s.on R.HLD_EMB_STATUS F.HLD_EMB_STATUS_LOST && !(s.on R.HLD_EMB_CFG F.HLD_EMB_CFG_NO_SUPPLY) then
    (s.raw R.HLD_RAW F.HLD_RAW_EMB_LOST).fault 4 2 0 0
  else s

end Sys2Proof.Machine
end

