-- ==== Sys2Proof/Machine/Reference.lean ====
section
/-! DEFINITION. The oscillator, the reference candidates, their monitors and qualification, ESMC, and the selector
(spec/04_reference_selection.md). -/

namespace Sys2Proof.Machine

/-- The state with reference selection `r`. -/
def State.setRef (s : State) (r : RefSel) : State := { s with ref := r }

/-- Candidate `k`. -/
def State.cand (s : State) (k : Nat) : Cand := Tbl.get Cand.reset s.ref.cands k

/-- The state with candidate `k` holding `c`. -/
def State.setCand (s : State) (k : Nat) (c : Cand) : State :=
  s.setRef { s.ref with cands := Tbl.set Cand.reset s.ref.cands k c }

/-- Input `n`. -/
def State.refIn (s : State) (n : Nat) : RefIn := Tbl.get RefIn.reset s.ref.ins n

/-- The state with input `n` holding `x`. -/
def State.setRefIn (s : State) (n : Nat) (x : RefIn) : State :=
  s.setRef { s.ref with ins := Tbl.set RefIn.reset s.ref.ins n x }

/-! ### Candidates (R100 to R102, R114) -/

/-- MODE of input `n`. -/
def State.inMode (s : State) (n : Nat) : Nat := s.g (R.REF_INn_CFG n) F.REF_INn_CFG_MODE

/-- Candidate `k` is an input that serves as companion of the input before it (R102). -/
def State.companion (s : State) (k : Nat) : Bool :=
  decide (k = 1) && decide (s.inMode 0 = 2) || decide (k = 3) && decide (s.inMode 2 = 2)

/-- The class of candidate `k`: 0 none, 1 FREQ, 2 PHASE, 3 TIME (R100, R102). -/
def State.candClass (s : State) (k : Nat) : Nat :=
  if k < 4 then (if s.companion k then 0 else if s.inMode k = 0 then 1 else 2)
  else if k < 28 then 1 else if k < 30 then 3 else 0

/-- The gate of candidate `k` in s (R107). -/
def State.gateS (s : State) (k : Nat) : Nat := if k < 4 ∧ s.inMode k = 1 then 16 else 1

/-- The QL received on port `n` (`REF_PQL`). -/
def State.portQl (s : State) (n : Nat) : Nat := ((s.reg (R.REF_PQL0 + 4 * (n / 8))).toNat >>> (4 * (n % 8))) % 16

/-- The QL of candidate `k` (R114). -/
def State.candQl (s : State) (k : Nat) : Nat :=
  if k < 4 then s.g (R.REF_INn_CFG k) F.REF_INn_CFG_QL_FIXED
  else if k < 28 then s.portQl (k - 4)
  else if k = 28 then s.g R.GUY_PARTNER F.GUY_PARTNER_QL
  else s.g R.REF_ESMC_HOLD_QL F.REF_ESMC_HOLD_QL_PTP_QL

/-- A received or configured SSM code as one of the supported values (R113). -/
def qlOf (c : Nat) : Nat := if c = 2 ∨ c = 4 ∨ c = 8 ∨ c = 11 then c else 15

/-- An input is stuck or disabled, its companion's state included (R103). -/
def State.inStuck (s : State) (k : Nat) : Bool :=
  decide (k < 4) && ((s.refIn k).stuck || (decide (s.inMode k = 2) && (s.refIn (k + 1)).stuck))

/-- Input `k`, or its companion, is disabled under R104. -/
def State.inDisabled (s : State) (k : Nat) : Bool :=
  decide (k < 4) && ((s.refIn k).disabled || (decide (s.inMode k = 2) && (s.refIn (k + 1)).disabled))

/-- The frequency monitor is undecided (R108). -/
def State.undecided (s : State) : Bool := !(s.on R.REF_STATUS F.REF_STATUS_OSC_READY) || !s.freqValid

/-! ### The priority table (R117 to R119) -/

/-- ENABLE of entry `e`. -/
def State.prioOn (s : State) (e : Nat) : Bool := s.on (R.REF_PRIOn e) F.REF_PRIOn_ENABLE

/-- CAND of entry `e`. -/
def State.prioCand (s : State) (e : Nat) : Nat := s.g (R.REF_PRIOn e) F.REF_PRIOn_CAND

/-- The lowest-numbered enabled entry that names candidate `k` (R117). -/
def State.entryOf (s : State) (k : Nat) : Option Nat :=
  (List.range 16).find? (fun e => s.prioOn e && decide (s.prioCand e = k))

/-- The quality level of candidate `k` is at least the QL_MIN of its entry; a candidate that no enabled entry names
meets this (R111).  A lower value is a better level (R113). -/
def State.qlOk (s : State) (k : Nat) : Bool :=
  match s.entryOf k with
  | none => true
  | some e => decide (s.candQl k ≤ s.g (R.REF_PRIOn e) F.REF_PRIOn_QL_MIN)

/-! ### Qualification (R111, R112) -/

/-- The conditions of R111, the hold-off apart. -/
def State.candOk (s : State) (k : Nat) : Bool :=
  let c := s.cand k
  decide (c.act = .accept) && !(s.inStuck k) && !(s.inDisabled k) && !c.barred && decide (s.candClass k ≠ 0) &&
    (if s.undecided then decide (c.freq ≠ .reject) && s.qlOk k
     else decide (c.freq = .accept) && decide (c.drift = .accept) && decide (c.phase = .accept))

/-- `REF_CANDk_STATUS` shows candidate `k`. -/
def State.showCand (s : State) (k : Nat) : State :=
  let c := s.cand k
  s.setRegN (R.REF_CANDk_STATUS k)
    (s.candClass k + 4 * b2n (s.companion k) + 8 * b2n (s.inDisabled k) + 16 * b2n (s.inStuck k) +
      32 * b2n (decide (c.act = .reject)) + 64 * b2n s.undecided + 128 * b2n (decide (c.freq = .reject)) +
      256 * b2n (decide (c.drift = .reject)) + 512 * b2n (decide (c.phase = .reject)) + 1024 * b2n c.hold +
      2048 * b2n c.qual + 4096 * s.candQl k)

/-- A SELECTOR record (R324): event, candidate, word 5, and STATE before. -/
def State.selRec (s : State) (before event cand w5 : Nat) : State :=
  let r := s.reg R.REF_STATUS
  s.note 0x11 (F.REF_STATUS_STATE.get r + before * 8 + F.REF_STATUS_COND.get r * 64 +
    F.REF_STATUS_SEL_ENTRY.get r * 256) (event * 2 ^ 24 + cand) w5 0 0

/-- The selector's STATE. -/
def State.selState (s : State) : Nat := s.g R.REF_STATUS F.REF_STATUS_STATE

/-- Candidate `k` is no longer qualified: the wait-to-restore of its entries starts anew (R118). -/
def State.wtrReset (s : State) (k : Nat) : State :=
  s.setRef { s.ref with wtr := s.ref.wtr.filter (fun e => s.prioCand e != k) }

/-- Candidate `k` is judged anew after a change of any of its conditions (R111, R112). -/
def State.judge (s : State) (k : Nat) : State :=
  let c := s.cand k
  let ok := s.candOk k
  let s := s.setCand k { c with qual := c.qual && ok, hold := !c.qual && ok }
  let s := if c.qual && !ok then (s.wtrReset k).raw R.REF_RAW F.REF_RAW_DISQUAL |>.selRec s.selState 7 k 0 else s
  s.showCand k

/-- Every candidate is judged anew. -/
def State.judgeAll (s : State) : State := (List.range 30).foldl State.judge s

/-- What a change of the holdover model from `s` to `t` means for the monitors: a change of FREQ_VALID ends or begins their
suspension at once (R108, R111). -/
def State.afterModel (s old : State) : State := if s.freqValid = old.freqValid then s else s.judgeAll

/-- The hold-off of candidate `k` has run for HOLDOFF_S (R111). -/
def State.holdoffExpiry (s : State) (k : Nat) : State :=
  let c := s.cand k
  if c.hold && s.candOk k then
    let s := (s.setCand k { c with hold := false, qual := true }).raw R.REF_RAW F.REF_RAW_QUALIFY
    (s.selRec s.selState 6 k 0).showCand k
  else s

/-- Candidate `k` is qualified. -/
def State.qualified (s : State) (k : Nat) : Bool := (s.cand k).qual

/-- An eligible entry: enabled, the one that counts for its candidate, and its candidate qualified (R117, R118). -/
def State.eligible (s : State) (e : Nat) : Bool :=
  s.prioOn e && decide (s.entryOf (s.prioCand e) = some e) && s.qualified (s.prioCand e)

/-- The entry chosen under R118 and R119: a forced entry, or the best eligible one. -/
def State.chosen (s : State) : Option Nat :=
  let f := s.g R.REF_CTRL F.REF_CTRL_FORCE_ENTRY
  if s.on R.REF_CTRL F.REF_CTRL_FORCE_EN && s.eligible f then some f
  else (List.range 16).find? s.eligible

/-! ### The oscillator (R97 to R99) -/

/-- OSC_READY is formed anew (R99). -/
def State.formReady (s : State) : State :=
  let pin := s.on R.REF_OSC_STATUS F.REF_OSC_STATUS_PIN || s.on R.REF_OSC_CFG F.REF_OSC_CFG_MASK_PIN
  let self := s.on R.REF_OSC_STATUS F.REF_OSC_STATUS_SELF_WARM || s.on R.REF_OSC_CFG F.REF_OSC_CFG_MASK_SELF
  let ready := pin && self && !s.ref.oscBad
  let was := s.on R.REF_STATUS F.REF_STATUS_OSC_READY
  let s := (s.pb R.REF_STATUS F.REF_STATUS_OSC_READY ready).pb R.REF_OSC_STATUS F.REF_OSC_STATUS_READY ready
  let s := if ready && !was then s.raw R.REF_RAW F.REF_RAW_WARM else s
  if ready = was then s else s.judgeAll

/-- `OSC_IN` measures more than 5 % from FREQ, at `khz` kHz (R97, R126). -/
def State.oscMismatch (s : State) (khz : Nat) : State :=
  let s := s.p R.REF_OSC_STATUS F.REF_OSC_STATUS_FREQ_OK 0
  if s.ref.oscBad then s
  else
    let s := (s.setRef { s.ref with oscBad := true }).cond R.REF_RAW F.REF_RAW_OSC_FREQ_ERR true
    (s.fault 3 1 (s.g R.REF_OSC_CFG F.REF_OSC_CFG_FREQ) khz).formReady

/-- `OSC_IN` measures within 5 % of FREQ again (R97). -/
def State.oscOk (s : State) : State :=
  let s := s.p R.REF_OSC_STATUS F.REF_OSC_STATUS_FREQ_OK 1
  ((s.setRef { s.ref with oscBad := false }).cond R.REF_RAW F.REF_RAW_OSC_FREQ_ERR false).formReady

/-- The judging candidate: that of the lowest-numbered enabled entry whose candidate passes its activity monitor
(R98). -/
def State.judging (s : State) : Option Nat :=
  ((List.range 16).find? (fun e => s.prioOn e && decide ((s.cand (s.prioCand e)).act = .accept))).map s.prioCand

/-- The history restarts when the judging candidate changes; the count without one returns to 0 when one appears
(R98). -/
def State.refreshJudging (s : State) : State :=
  let j := s.judging
  if j = s.ref.judge then s else s.setRef { s.ref with judge := j, gates := [], noJudge := 0 }

/-- The oscillator is judged warm; the judgement holds until reset (R98, R99). -/
def State.judgeWarm (s : State) (byTimeout : Bool) : State :=
  if s.on R.REF_OSC_STATUS F.REF_OSC_STATUS_SELF_WARM then s
  else
    let s := s.p R.REF_OSC_STATUS F.REF_OSC_STATUS_SELF_WARM 1
    (if byTimeout then s.p R.REF_OSC_STATUS F.REF_OSC_STATUS_BY_TIMEOUT 1 else s).formReady

/-- The spread of a list of results. -/
def spread (l : List Int) : Int :=
  match l with
  | [] => 0
  | x :: r => r.foldl max x - r.foldl min x

/-- A 1 s warm-up gate with result `y`, in units of 10^-12 (R98). -/
def State.warmGate (s : State) (y : Int) : State :=
  let s := s.refreshJudging
  match s.ref.judge with
  | none => s.setRef { s.ref with noJudge := s.ref.noJudge + 1 }
  | some _ =>
    let l := (y :: s.ref.gates).take 10
    let s := s.setRef { s.ref with gates := l }
    if l.length = 10 ∧ spread l ≤ 1000 then s.judgeWarm false else s

/-- The count without a judging candidate reaches WARM_TIMEOUT_S (R98). -/
def State.warmTimeout (s : State) : State :=
  let t := s.g R.REF_OSC_CFG F.REF_OSC_CFG_WARM_TIMEOUT_S
  let s := s.refreshJudging
  if decide (t ≠ 0) && s.ref.judge.isNone then (s.setRef { s.ref with noJudge := t }).judgeWarm true else s

/-- `OSC_WARM` has level `b` (R99). -/
def State.oscWarm (s : State) (b : Bool) : State := (s.pb R.REF_OSC_STATUS F.REF_OSC_STATUS_PIN b).formReady

/-! ### Inputs and monitors (R102 to R110) -/

/-- The candidate that input `n` serves: itself, or the input whose companion it is. -/
def State.candOfIn (s : State) (n : Nat) : Nat := if s.companion n then n - 1 else n

/-- The time of a divided edge in Tick64 units since second 0, `ahead` units of real time after the present tick: the
timescale at the edge, DELAY subtracted, rounded to 64 units, ties toward positive (R102). -/
def State.refTime (s : State) (n ahead : Nat) : Int :=
  let c := s.tsc.dueCopy
  let e : Nat := cSec c * secUnits + cSub c + ahead * cInc c / 131072
  ((e : Int) - s.regI (R.REF_INn_DELAY n) * 2 ^ 32 + 2 ^ 37) / 2 ^ 38 * 64

/-- The Tick64 stamp of that edge (R102). -/
def State.refStamp (s : State) (n ahead : Nat) : Tick64 := BitVec.ofNat 64 (enc 64 (s.refTime n ahead))

/-- The nominal frequency of input `n` in Hz before its divider (R102): 1 for a 1 PPS. -/
def State.nomHz (s : State) (n : Nat) : Nat :=
  if s.companion n || s.inMode n == 1 then 1 else s.g (R.REF_INn_FREQ n) F.REF_INn_FREQ_NOM_HZ

/-- DIV of input `n`. -/
def State.inDiv (s : State) (n : Nat) : Nat := s.g (R.REF_INn_DIV n) F.REF_INn_DIV_DIV

/-- An edge `d` units of 1/65,536 ns after the previous one lies within T/4 of a multiple of the nominal period T, which
is DIV/NOM_HZ (R106): the window of an interval, or of a later one when edges are missing. -/
def State.inWindow (s : State) (n d : Nat) : Bool :=
  let t := s.inDiv n * 65536000000000
  let x := d * s.nomHz n
  let j := max 1 ((2 * x + t) / (2 * t))
  decide (4 * (if x ≤ j * t then j * t - x else x - j * t) ≤ t)

/-- An interval of input `n` passes (R106): up to 1 kHz, an edge came in its window and none outside; above, between half
and twice the edges expected in 1 ms came. -/
def State.inputPass (s : State) (n : Nat) : Bool :=
  let x := s.refIn n
  let f := s.nomHz n
  let d := 1000 * s.inDiv n
  if f ≤ d then x.inside && !x.outside else decide (f ≤ 2 * x.count * d) && decide (x.count * d ≤ 2 * f)

/-- The PHASE candidate whose second edges come on input `n` (R102). -/
def State.secondOf (s : State) (n : Nat) : Option Nat :=
  if s.companion n then some (n - 1) else if s.inMode n = 1 then some n else none

/-- An offset reduced to the range −0.5 s exclusive to +0.5 s inclusive (R121). -/
def halfSecond (x : Int) : Int :=
  let m := x % secTicks
  if 2 * m ≤ secTicks then m else m - secTicks

/-- The target's offset is being measured (R120, R121, R124). -/
def State.measuring (s : State) : Bool :=
  let st := s.selState
  (decide (st = 1) && !s.ref.measured || decide (st = 3) || decide (st = 2) && s.ref.remeasure) &&
    decide (s.g R.REF_STATUS F.REF_STATUS_SEL_CLASS ≠ 1)

/-- Candidate `k` gives an offset sample or a second edge, target less timescale: one of the next two of a measurement of
it (R121). -/
def State.offsetSeen (s : State) (k : Nat) (off : Int) : State :=
  if s.measuring && decide (s.g R.REF_STATUS F.REF_STATUS_SEL_CAND = k) && decide (s.ref.offs.length < 2) then
    s.setRef { s.ref with offs := s.ref.offs ++ [off] }
  else s

/-- A divided edge of input `n` within 3.2 ns of the previous one is lost (R104). -/
def State.refLost (s : State) (n now : Nat) : State :=
  let x := s.refIn n
  (s.setRefIn n { x with prev := some now, lost := x.lost + 1, overruns := x.overruns + 1 }).raw R.REF_RAW F.REF_RAW_OVERRUN

/-- A divided edge of input `n` is kept: stamped, counted for activity, and measured when it marks a second (R102, R106,
R121). -/
def State.refKept (s : State) (n now ahead : Nat) : State :=
  let x := s.refIn n
  let hit := match x.prev with
    | none => false
    | some p => s.inWindow n (now - p)
  let s := s.setRefIn n { x with
    last := some (s.refStamp n ahead), prev := some now, count := x.count + 1
    inside := x.inside || hit, outside := x.outside || (x.prev.isSome && !hit) }
  match s.secondOf n with
  | some k => s.offsetSeen k (halfSecond (-(s.refTime n ahead)))
  | none => s

/-- A divided edge of input `n`, `ahead` units of 1/65,536 ns after the present tick: the level has changed, and the edge is
stamped, or lost within 3.2 ns of the previous one (R102 to R104); a disabled input gives no edge. -/
def State.refEdge (s : State) (n ahead : Nat) : State :=
  let now := s.tsc.tick * 131072 + ahead
  let s := s.setRefIn n { s.refIn n with stuck := false }
  let x := s.refIn n
  let close := match x.prev with
    | none => false
    | some p => decide (10 * (now - p) < 32 * 65536)
  let s := if x.disabled then s else if close then s.refLost n now else s.refKept n now ahead
  s.judge (s.candOfIn n)

/-- Input `n` has kept its level for STUCK_MS (R103). -/
def State.refStuck (s : State) (n : Nat) : State :=
  let x := s.refIn n
  if x.stuck then s
  else
    let k := s.candOfIn n
    let s := (s.setRefIn n { x with stuck := true }).raw R.REF_RAW F.REF_RAW_STUCK
    let s := s.setCand k { s.cand k with act := .reject, passes := 0 }
    (s.judge k).refreshJudging

/-- A 1 ms interval of input `n` ends (R104). -/
def State.refOverrun (s : State) (n : Nat) : State :=
  let x := s.refIn n
  let tooMany := s.on (R.REF_INn_CFG n) F.REF_INn_CFG_OVR_DIS_EN &&
    decide (s.g (R.REF_INn_CFG n) F.REF_INn_CFG_OVR_LIMIT < x.lost)
  if tooMany && !x.disabled then
    let s := (s.setRefIn n { x with lost := 0, disabled := true }).raw R.REF_RAW F.REF_RAW_OVR_DISABLE
    (s.fault 3 3 n x.lost).judge (s.candOfIn n)
  else s.setRefIn n { x with lost := 0 }

/-- REARM of the inputs of mask `m` (R104). -/
def State.refRearm (s : State) (m : Nat) : State :=
  (maskBits m 4).foldl (fun s n => (s.setRefIn n { s.refIn n with disabled := false, lost := 0 }).judge (s.candOfIn n)) s

/-- The activity interval of input `n` ends: its edges are counted anew (R106). -/
def State.clearEdges (s : State) (n : Nat) : State :=
  s.setRefIn n { s.refIn n with count := 0, inside := false, outside := false }

/-- An activity interval of candidate `k` passes or fails (R106). -/
def State.activity (s : State) (k : Nat) (pass : Bool) : State :=
  let c := s.cand k
  let c := if pass then { c with passes := c.passes + 1, fails := 0 } else { c with fails := c.fails + 1, passes := 0 }
  let act := if s.g R.REF_ACT F.REF_ACT_ACCEPT ≤ c.passes then .accept
    else if s.g R.REF_ACT F.REF_ACT_REJECT ≤ c.fails then .reject else c.act
  ((s.setCand k { c with act := act }).judge k).refreshJudging

/-- The slope of R109 over the newest 16 results, in units of 10^-15/s. -/
def slopeOf (l : List Int) (g : Nat) : Int :=
  (((l.take 8).foldl (· + ·) 0 - ((l.drop 8).take 8).foldl (· + ·) 0) * 1000).tdiv (64 * g)

/-- A verdict with hysteresis: reject above one bound, accept at or below the other, else unchanged. -/
def verdict (v : Verdict) (x rejectAbove acceptAt : Int) : Verdict :=
  if rejectAbove < x then .reject else if x ≤ acceptAt then .accept else v

/-- y of a gate in 10^-12, from the mean fractional frequency `raw` of the candidate against `OSC_IN` in 10^-15: the model
clock is `OSC_IN` less what the model predicts of it (R105, R107). -/
def State.gateResult (s : State) (raw : Int) : Int := satS 32 (divRound (raw * 2 ^ 64 + s.yModel) (1000 * 2 ^ 64))

/-- A gate of candidate `k` ends with result `y` (R107 to R110).  DESIGN CHOICE (notes/assumptions/13.md): where WINDOW_S is
no multiple of the gate, the phase monitor sums the whole gates within it; a MODE 1 input with WINDOW_S below 16 then sums
none, and p is 0. -/
def State.freqGate (s : State) (k : Nat) (y : Int) : State :=
  let g := s.gateS k
  let s := s.setRegI (R.REF_CANDk_FREQ k) y
  let c := s.cand k
  let l := (y :: c.y).take 65535
  let a := |y|
  let c := { c with y := l }
  let c :=
    if s.undecided then
      { c with freq := if (s.g R.REF_FREQ_COARSE F.REF_FREQ_COARSE_LIMIT : Int) < a then .reject
                       else if c.freq = .reject then .none else c.freq }
    else
      let lim := s.g R.REF_DRIFT F.REF_DRIFT_LIMIT
      let win := l.take (s.g R.REF_PHASE_WIN F.REF_PHASE_WIN_WINDOW_S / g)
      let p := |win.foldl (· + ·) 0 * (g : Int)|
      { c with
        freq := verdict c.freq a (s.g R.REF_FREQ_REJECT F.REF_FREQ_REJECT_LIMIT)
          (s.g R.REF_FREQ_ACCEPT F.REF_FREQ_ACCEPT_LIMIT)
        drift := if l.length < 16 then c.drift else verdict c.drift |slopeOf l g| lim ((lim / 2 : Nat) : Int)
        phase := verdict c.phase p (1000 * s.g R.REF_PHASE_LIM F.REF_PHASE_LIM_REJECT_NS)
          (1000 * s.g R.REF_PHASE_LIM F.REF_PHASE_LIM_ACCEPT_NS) }
  (s.setCand k c).judge k

/-- Eligibility or activity of the partner or PTP candidate under R101. -/
def State.setBarred (s : State) (k : Nat) (b : Bool) : State := (s.setCand k { s.cand k with barred := b }).judge k

/-! ### ESMC (R113 to R115) -/

/-- The QL of port `n` becomes `q`. -/
def State.setPortQl (s : State) (n q : Nat) : State :=
  let s := s.p (R.REF_PQL0 + 4 * (n / 8)) ⟨4 * (n % 8), 4⟩ q
  s.judge (n + 4)

/-- The selector selects a candidate whose QL is transmitted (R115).  DESIGN CHOICE (notes/assumptions/14.md): in SWITCH it
is the target that SEL_CAND shows. -/
def State.selects (s : State) : Bool := decide (s.selState = 2 ∨ s.selState = 3)

/-- The QL this unit transmits, but on the port of the selected clock (R115). -/
def State.ownQl (s : State) : Nat :=
  if s.selects then s.candQl (s.g R.REF_STATUS F.REF_STATUS_SEL_CAND)
  else s.g R.REF_ESMC_HOLD_QL F.REF_ESMC_HOLD_QL_HOLD_QL

/-- The QL that port `n` transmits: DNU on the port whose recovered clock is selected (R115). -/
def State.txQlOf (s : State) (n : Nat) : Nat :=
  if s.selects && decide (s.g R.REF_STATUS F.REF_STATUS_SEL_CAND = n + 4) then 15 else s.ownQl

/-- An ESMC PDU leaves on port `n`, when enabled (R115); an information PDU does not stand for the event PDU that a change
still owes. -/
def State.sendEsmc (s : State) (n : Nat) (event : Bool) : State :=
  if s.running && maskBit (s.g R.REF_ESMC_TX_EN F.REF_ESMC_TX_EN_EN) n then
    let q := s.txQlOf n
    let first := decide (Tbl.get 16 s.ref.txQl n = 16)
    let s := if event || first then s.setRef { s.ref with txQl := Tbl.set 16 s.ref.txQl n q } else s
    s.emit (.esmc n q event)
  else s

/-! ### The selector (R118 to R125) -/

/-- The timing condition (R125, R138). -/
def State.condNow (s : State) : Nat :=
  let hold := if s.on R.HLD_STATUS F.HLD_STATUS_EPISODE_QUAL then 2 else 3
  match s.selState with
  | 1 => if s.ref.fromHold then hold else 0
  | 2 => 1
  | 3 => 1
  | 4 => hold
  | _ => 0

/-- A change of COND is reported (R125, R324, R327). -/
def State.condChanged (s : State) (before : Nat) : State :=
  let s := s.raw R.REF_RAW F.REF_RAW_COND_CHANGE
  (s.selRec before 4 (s.g R.REF_STATUS F.REF_STATUS_SEL_CAND) 0).timeQuality false

/-- COND is brought up to date; a change is reported (R125, R324, R327). -/
def State.formCond (s : State) (before : Nat) : State :=
  let c := s.condNow
  if c = s.g R.REF_STATUS F.REF_STATUS_COND then s else (s.p R.REF_STATUS F.REF_STATUS_COND c).condChanged before

/-- FORCED is formed anew: the forced entry is the selected or targeted one (R119). -/
def State.formForced (s : State) : State :=
  s.pb R.REF_STATUS F.REF_STATUS_FORCED
    (s.on R.REF_CTRL F.REF_CTRL_FORCE_EN && (s.selState == 1 || s.selState == 2 || s.selState == 3) &&
      s.g R.REF_CTRL F.REF_CTRL_FORCE_ENTRY == s.g R.REF_STATUS F.REF_STATUS_SEL_ENTRY)

/-- The lock criterion starts anew (R120). -/
def State.clearLock (s : State) : State := s.setRef { s.ref with inLock := 0, outLock := 0 }

/-- The selector enters state `st`, with a SELECTOR record of event `ev` (0: none), which carries COND after (R120, R125,
R324). -/
def State.enterSel (s : State) (st ev : Nat) : State :=
  let before := s.selState
  let s := (s.p R.REF_STATUS F.REF_STATUS_STATE st).breakFit.clearLock.formForced
  let c := s.condNow
  let moved := decide (c ≠ s.g R.REF_STATUS F.REF_STATUS_COND)
  let s := s.p R.REF_STATUS F.REF_STATUS_COND c
  let s := if ev = 0 then s else s.selRec before ev (s.g R.REF_STATUS F.REF_STATUS_SEL_CAND) 0
  if moved then s.condChanged before else s

/-- Entry `e` becomes the target (R118, R119). -/
def State.setTarget (s : State) (e : Nat) : State :=
  let k := s.prioCand e
  let s := (s.p R.REF_STATUS F.REF_STATUS_SEL_ENTRY e).p R.REF_STATUS F.REF_STATUS_SEL_CAND k
  let s := (s.p R.REF_STATUS F.REF_STATUS_SEL_CLASS (s.candClass k)).formForced
  (s.setRef { s.ref with measured := false, withdrawn := false, remeasure := false, offs := [] }).clearLock

/-- RATE comes from the holdover model, or no longer does (R130). -/
def State.setModelRate (s : State) (b : Bool) : State := s.setRef { s.ref with modelRate := b }

/-- RATE from the holdover model, with its anchor fixed now (R130, R132). -/
def State.toModel (s : State) : State :=
  let s := (s.fixAnchor).setModelRate true
  s.supplyRate s.modelRateNow

/-- The selector enters LOCKED (R120, R128). -/
def State.toLocked (s : State) : State :=
  let k := s.g R.REF_STATUS F.REF_STATUS_SEL_CAND
  let s := s.setRef { s.ref with fromHold := false, modelRate := false, lastSel := k }
  ((s.raw R.REF_RAW F.REF_RAW_LOCK).enterSel 2 1).endEpisode

/-- The selector acquires entry `e` (R120): from HOLDOVER the model keeps supplying RATE while the target is
measured (R130); a FREQ target is not measured (R121, R129). -/
def State.toAcquire (s : State) (e : Nat) (fromHold : Bool) : State :=
  let s := (s.setTarget e).setRef { (s.setTarget e).ref with fromHold := fromHold, modelRate := fromHold }
  let freq := decide (s.g R.REF_STATUS F.REF_STATUS_SEL_CLASS = 1)
  let s := if freq then s.setRef { s.ref with measured := true, modelRate := false } else s
  let s := if freq && fromHold then s.p R.HLD_STATUS F.HLD_STATUS_ERR_VALID 0 else s
  s.enterSel 1 0

/-- The selector switches to entry `e`; `model`: RATE from the holdover model, else it stays on the selected candidate
(R120).  DESIGN CHOICE (notes/assumptions/14.md): GUARDING falls here, and on entry to HOLDOVER, since no remainder of a
clamped step is being removed any more. -/
def State.toSwitch (s : State) (e : Nat) (model : Bool) : State :=
  let s := if model then s.toModel else s.fixAnchor
  let s := (s.setTarget e).p R.REF_STATUS F.REF_STATUS_GUARDING 0
  (s.raw R.REF_RAW F.REF_RAW_SWITCH).enterSel 3 2

/-- The candidates that are not qualified, as a mask (R126). -/
def State.disqualMask (s : State) : Nat :=
  (List.range 30).foldl (fun m k => if s.qualified k then m else maskSet m k) 0

/-- RATE `r` held within SLEW_MAX of the RATE at a clamped step while GUARDING is 1 (R122). -/
def State.guardClamp (s : State) (r : Int) : Int :=
  let m : Int := s.g R.REF_SLEW_MAX F.REF_SLEW_MAX_SLEW_MAX * 2 ^ 49 / 1000000000
  if s.on R.REF_STATUS F.REF_STATUS_GUARDING then clampI (s.ref.guardRate - m) (s.ref.guardRate + m) r else r

/-- RATE from the holdover model, with the anchor it has (R132). -/
def State.keepModel (s : State) : State :=
  let s := s.setModelRate true
  s.supplyRate s.modelRateNow

/-- The selector enters HOLDOVER; `fault`: with fault code 0x02 (R120, R126, R128).  The anchor is fixed at entry; an episode
entered from SWITCH keeps that of SWITCH, and one that ACQUIRE returns to keeps its own (R128, R132).  DESIGN CHOICE
(notes/assumptions/14.md): SEL_ENTRY, SEL_CLASS and SEL_CAND keep showing the last target, here and after a return to
FREE_RUN. -/
def State.toHoldover (s : State) (fault : Bool) : State :=
  let s := if s.selState = 3 ∨ (s.selState = 1 ∧ s.ref.fromHold) then s.keepModel else s.toModel
  let s := s.p R.REF_STATUS F.REF_STATUS_GUARDING 0
  let s := (s.raw R.REF_RAW F.REF_RAW_HOLDOVER_ENTRY).beginEpisode
  let s := s.enterSel 4 3
  if fault then s.fault 3 2 s.ref.lastSel s.disqualMask else s

/-- RATE from the loop on candidate `k`: within SLEW_MAX of the RATE at a clamped step while GUARDING is 1 (R120, R122).
The PTP candidate's RATE comes from the servo. -/
def State.loopRate (s : State) (k : Nat) (r : Int) : State :=
  if k = 29 then s else s.supplyRate (s.guardClamp r)

/-- GUARDING falls when the remaining error is within LOCK_NS (R122). -/
def State.guardCheck (s : State) (err : Int) : State :=
  if s.on R.REF_STATUS F.REF_STATUS_GUARDING && decide (|err| ≤ nsTicks (s.g R.REF_LOCK F.REF_LOCK_LOCK_NS)) then
    (s.p R.REF_STATUS F.REF_STATUS_GUARDING 0).breakFit
  else s

/-- The decision's phase error enters the lock criterion (R120): how long it has stayed within LOCK_NS, or, the test not
being suspended by GUARDING, beyond 10 × LOCK_NS. -/
def State.lockCount (s : State) (err : Int) : State :=
  let w := nsTicks (s.g R.REF_LOCK F.REF_LOCK_LOCK_NS)
  let steers := decide (s.selState = 2) || decide (s.selState = 1) && s.ref.measured
  let guards := s.on R.REF_STATUS F.REF_STATUS_GUARDING
  s.setRef { s.ref with
    err := err
    inLock := if steers ∧ |err| ≤ w then s.ref.inLock + 1 else 0
    outLock := if steers ∧ !guards ∧ 10 * w < |err| then s.ref.outLock + 1 else 0 }

/-- Lock holds: the error has stayed within LOCK_NS for LOCK_S (R120). -/
def State.lockHolds (s : State) : Bool := decide (1000 * s.g R.REF_LOCK F.REF_LOCK_LOCK_S ≤ s.ref.inLock)

/-- Lock is lost: the error has been beyond 10 × LOCK_NS for 1 s without a break (R120). -/
def State.lockGone (s : State) : Bool := decide (1000 ≤ s.ref.outLock)

/-- The move due in LOCKED under R118 and R119: a forced entry, or a better entry after wait-to-restore. -/
def State.moveDue (s : State) : Option Nat :=
  let cur := s.g R.REF_STATUS F.REF_STATUS_SEL_ENTRY
  let f := s.g R.REF_CTRL F.REF_CTRL_FORCE_ENTRY
  if s.on R.REF_CTRL F.REF_CTRL_FORCE_EN && s.eligible f then (if f = cur then none else some f)
  else if s.on R.REF_CTRL F.REF_CTRL_REVERTIVE then
    (List.range cur).find? (fun e => s.eligible e && s.ref.wtr.contains e)
  else none

/-- The selected or targeted candidate is lost: disqualified, or its entry withdrawn (R120). -/
def State.targetLost (s : State) : Bool :=
  !(s.qualified (s.g R.REF_STATUS F.REF_STATUS_SEL_CAND)) || s.ref.withdrawn

/-- Loss of lock disqualifies the selected candidate (R111). -/
def State.dropSelected (s : State) : State :=
  let k := s.g R.REF_STATUS F.REF_STATUS_SEL_CAND
  let c := s.cand k
  if c.qual then
    let s := ((s.setCand k { c with qual := false, hold := false }).wtrReset k).raw R.REF_RAW F.REF_RAW_DISQUAL
    (s.selRec s.selState 7 k 0).showCand k
  else s

/-- The decision in ACQUIRE (R120). -/
def State.decideAcquire (s : State) (rate : Int) : State :=
  if s.targetLost then
    match s.chosen with
    | some e => s.toAcquire e s.ref.fromHold
    | none => if s.ref.fromHold then s.toHoldover false else s.enterSel 0 0
  else if s.lockHolds then s.toLocked
  else if s.ref.measured then s.loopRate (s.g R.REF_STATUS F.REF_STATUS_SEL_CAND) rate else s

/-- The decision in LOCKED (R120). -/
def State.decideLocked (s : State) (rate : Int) : State :=
  if s.targetLost || s.lockGone then
    let withdrawn := s.ref.withdrawn
    let s := if s.lockGone then s.dropSelected else s
    match s.chosen with
    | some e => s.toSwitch e true
    | none => s.toHoldover (!withdrawn)
  else
    match s.moveDue with
    | some e => s.toSwitch e false
    | none => s.loopRate (s.g R.REF_STATUS F.REF_STATUS_SEL_CAND) rate

/-- The decision in SWITCH (R120): a FREQ target is not measured, so the loop is handed to it at once (R121); until the
step of a revertive or forced move, RATE stays on the candidate last selected. -/
def State.decideSwitch (s : State) (rate : Int) : State :=
  if s.targetLost then
    let withdrawn := s.ref.withdrawn
    match s.chosen with
    | some e => (s.setTarget e).keepModel
    | none => s.toHoldover (!withdrawn)
  else if s.g R.REF_STATUS F.REF_STATUS_SEL_CLASS = 1 then s.toLocked
  else if s.ref.modelRate then s else s.loopRate s.ref.lastSel rate

/-- The decision of the selector once per millisecond (R120): `err` the phase error of the steering loop in Tick64 units,
target less timescale, `rate` the loop's RATE. -/
def State.selDecide (s : State) (err rate : Int) : State :=
  let s := (s.guardCheck err).lockCount err
  let st := s.selState
  if s.running && s.on R.REF_CTRL F.REF_CTRL_ENABLE then
    if st = 0 then
      match s.chosen with
      | some e => s.toAcquire e false
      | none => s
    else if st = 1 then s.decideAcquire rate
    else if st = 2 then s.decideLocked rate
    else if st = 3 then s.decideSwitch rate
    else
      match s.chosen with
      | some e => s.toAcquire e true
      | none => s
  else if st = 0 ∨ st = 4 then s
  else s.toHoldover false

/-- The candidate of entry `e` has been qualified for WTR_S: a revertive move to it is allowed (R118). -/
def State.wtrExpiry (s : State) (e : Nat) : State :=
  if s.prioOn e && s.qualified (s.prioCand e) && !s.ref.wtr.contains e then s.setRef { s.ref with wtr := e :: s.ref.wtr }
  else s

/-! ### Measuring the target (R121, R122, R124, R129) -/

/-- The target's offset from two measured offsets, with `TSC_OFFSET_ACC`, rounded to the nearest unit, ties toward
positive (R121). -/
def State.targetOffset (s : State) (o1 o2 : Int) : Int :=
  let acc := s.pairI R.TSC_OFFSET_ACC_LO
  if s.g R.REF_STATUS F.REF_STATUS_SEL_CLASS = 2 then
    halfSecond ((2 * o1 + halfSecond (o2 - o1) + 1) / 2 + acc)
  else (o1 + o2 + 1) / 2 + acc

/-- A step of source 3 through the slew guard (R122). -/
def State.guardedStep (s : State) (off : Int) : State :=
  let lim := nsTicks (s.g R.REF_GUARD F.REF_GUARD_GUARD_NS)
  if |off| ≤ lim then s.internalStep 3 (.rel off)
  else
    let a := if 0 < off then lim else -lim
    let s := (s.internalStep 3 (.rel a)).raw R.REF_RAW F.REF_RAW_GUARD
    let s := (s.p R.REF_STATUS F.REF_STATUS_GUARDING 1).setRef { s.ref with guardRate := s.rate }
    s.breakFit.selRec s.selState 5 (s.g R.REF_STATUS F.REF_STATUS_SEL_CAND) (enc 32 (divRound (off - a) 65536))

/-- The step that a measured offset causes (R121, R124). -/
def State.stepTarget (s : State) (off : Int) : State :=
  let free := decide (s.selState = 1) && !s.ref.fromHold
  let k := s.g R.REF_STATUS F.REF_STATUS_SEL_CAND
  if s.on R.TSC_CTRL F.TSC_CTRL_STEER then s
  else if free then
    if k = 29 then s
    else if s.g R.REF_STATUS F.REF_STATUS_SEL_CLASS = 3 then s.internalStep 3 (.aim off)
    else s.internalStep 3 (.rel off)
  else s.guardedStep off

/-- The target's offset measurement completes once its two samples or second edges have come: the step, and the loop is
handed to the target (R121, R122, R129). -/
def State.targetMeasured (s : State) : State :=
  match s.ref.offs with
  | [o1, o2] =>
    if s.measuring && !s.targetLost then
      let off := s.targetOffset o1 o2
      let st := s.selState
      let s := if st = 1 ∧ s.ref.fromHold then s.storeErr off else s
      let s := s.stepTarget off
      let s := (s.setRef { s.ref with measured := true, remeasure := false, modelRate := false, offs := [] }).clearLock
      if st = 3 then s.toLocked else s
    else s
  | _ => s

/-- A phase step of `d` moves the timescale under the offsets measured so far (R121). -/
def State.refStep (s : State) (d : Int) : State :=
  if s.ref.offs = [] then s else s.setRef { s.ref with offs := s.ref.offs.map (· - d) }

/-! ### What writes trigger -/

/-- A write of `REF_PRIOn` over the value `old`: withdrawal of the selected or targeted entry, and a new judgement
of the candidates it names (R111, R120). -/
def State.prioAct (s : State) (e : Nat) (old : Word) : State :=
  let wasOn := F.REF_PRIOn_ENABLE.get old = 1
  let gone := wasOn ∧ (!(s.prioOn e) ∨ F.REF_PRIOn_CAND.get old ≠ s.prioCand e)
  let used := s.selState ≠ 0 ∧ s.selState ≠ 4 ∧ s.g R.REF_STATUS F.REF_STATUS_SEL_ENTRY = e
  let s := if gone ∧ used then s.setRef { s.ref with withdrawn := true } else s
  let s := if gone then s.setRef { s.ref with wtr := s.ref.wtr.filter (fun x => x != e) } else s
  (s.judgeAll).refreshJudging

/-- A write of `TSC_CTRL` over the value `old` (R71, R124, R133). -/
def State.steerAct (s : State) (old : Word) : State :=
  let was := F.TSC_CTRL_STEER.get old
  let now := s.g R.TSC_CTRL F.TSC_CTRL_STEER
  if was = now then s
  else
    let s := s.breakFit
    if now = 1 then s.supplyHostRate
    else if s.selState = 2 then s.setRef { s.ref with remeasure := true, offs := [] }
    else s

end Sys2Proof.Machine
end

