-- ==== Sys2Proof/Machine/Synthesis.lean ====
section
/-! DEFINITION. Loops, gated domains and the clock outputs (spec/06_synthesis_and_clock_outputs.md). -/

namespace Sys2Proof.Machine

/-- Synthesis holds `y`. -/
def State.setSyn (s : State) (y : Syn) : State := { s with syn := y }

/-- Output `n` beyond its registers. -/
def State.outRun (s : State) (n : Nat) : OutRun := Tbl.get OutRun.reset s.syn.outs n

/-- The state with output `n` being `x`. -/
def State.setOutRun (s : State) (n : Nat) (x : OutRun) : State :=
  s.setSyn { s.syn with outs := Tbl.set OutRun.reset s.syn.outs n x }

/-- The value in force of staging register `a` (R164). -/
def State.inForce (s : State) (a : Nat) : Word := Tbl.get (regReset a) s.syn.force a

/-- The value `v` comes into force for staging register `a`. -/
def State.setForce (s : State) (a : Nat) (v : Word) : State :=
  s.setSyn { s.syn with force := Tbl.set (regReset a) s.syn.force a v }

/-- The staging registers of output `n`: `SYN_On_CFG` to `SYN_On_COUNT` (R164). -/
def stagingOf (n : Nat) : List Nat := (List.range 7).map (fun i => R.SYN_On_CFG n + 4 * i)

/-- The staged values of output `n` differ from those in force. -/
def State.staged (s : State) (n : Nat) : Bool := (stagingOf n).any (fun a => s.reg a != s.inForce a)

/-! ### Periods, in units of 1/(10 × 2^24) ns -/

/-- One nanosecond in these units. -/
abbrev nsUnits : Nat := 10 * 2 ^ 24

/-- The period that the words CFG, INT and FRAC of output `n` give (R157, R158, R161). -/
def periodOf (cfg int frac : Word) : Nat :=
  if F.SYN_On_CFG_MODE.get cfg = 1 then 1000000000 * nsUnits
  else int.toNat * 2 ^ 24 + F.SYN_On_FRAC_FRAC.get frac

/-- The delay that a DELAY word gives (R160). -/
def delayOf (v : Word) : Nat := F.SYN_On_DELAY_COARSE.get v * (2 * nsUnits) + F.SYN_On_DELAY_FINE.get v * 163840

/-- The period in force of output `n`. -/
def State.period (s : State) (n : Nat) : Nat :=
  periodOf (s.inForce (R.SYN_On_CFG n)) (s.inForce (R.SYN_On_INT n)) (s.inForce (R.SYN_On_FRAC n))

/-- The period staged for output `n`. -/
def State.stagedPeriod (s : State) (n : Nat) : Nat :=
  periodOf (s.reg (R.SYN_On_CFG n)) (s.reg (R.SYN_On_INT n)) (s.reg (R.SYN_On_FRAC n))

/-- Output `n` is enabled. -/
def State.outOn (s : State) (n : Nat) : Bool := F.SYN_On_CFG_EN.get (s.inForce (R.SYN_On_CFG n)) = 1

/-- The MODE in force of output `n`. -/
def State.outMode (s : State) (n : Nat) : Nat := F.SYN_On_CFG_MODE.get (s.inForce (R.SYN_On_CFG n))

/-- The largest legal WIDTH for MODE `m` and divider `d` in units of 2^-24 (R161, R162). -/
def widthMax (m d : Nat) : Nat := if m = 2 then (d + 20 * 2 ^ 24 - 1) / (20 * 2 ^ 24) - 1 else 250000000

/-! ### Claim gates and gate causes (R167, R170) -/

/-- This unit holds the higher claim; a unit outside a pair counts as holding it (R170). -/
def State.higher (s : State) : Bool := s.on R.RUT_STATUS F.RUT_STATUS_HIGHER

/-- The jitter-cleaning PLL is in frequency hold or settles after a relock (R167). -/
def State.jpllGates (s : State) : Bool :=
  s.on R.SYN_STATUS F.SYN_STATUS_JPLL_HOLD || s.syn.settling.contains .jpll

/-- COND is one that GATE_COND of output `n` names: bit 0 Unlocked, bit 1 unqualified holdover, bit 2 qualified
holdover (R167). -/
def State.condGates (s : State) (n : Nat) : Bool :=
  let m := F.SYN_On_CFG_GATE_COND.get (s.inForce (R.SYN_On_CFG n))
  match s.g R.REF_STATUS F.REF_STATUS_COND with
  | 0 => maskBit m 0
  | 3 => maskBit m 1
  | 2 => maskBit m 2
  | _ => false

/-- The claim gate holds output `n` low (R170). -/
def State.claimGates (s : State) (n : Nat) : Bool :=
  (s.outRun n).lower && F.SYN_On_CFG_CLAIM_MODE.get (s.inForce (R.SYN_On_CFG n)) = 1

/-- GATE_CAUSE of output `n`: the lowest code present (R167). -/
def State.gateCause (s : State) (n : Nat) : Nat :=
  if !(s.outOn n) then 1
  else if s.jpllGates then 2
  else if (s.outRun n).change || (s.outRun n).settling then 3
  else if s.condGates n then 4
  else if s.claimGates n then 5
  else 0

/-- Output `n` takes its signal from its relay input (R170, R171). -/
def State.relayed (s : State) (n : Nat) : Bool :=
  (s.outRun n).lower && F.SYN_On_CFG_CLAIM_MODE.get (s.inForce (R.SYN_On_CFG n)) = 2

/-! ### Phases and real time -/

/-- One nanosecond in units of 1/(10 × 2^48) ns. -/
abbrev nsFine : Nat := 10 * 2 ^ 48

/-- A period or delay in units of 1/(10 × 2^24) ns, in fine units. -/
def fineUnits (p : Nat) : Nat := p * 2 ^ 24

/-- The voted copy's time in fine units. -/
def cFine (c : Copy) : Nat := (cSec c * secUnits + cSub c) * 10

/-- The timescale of the present tick, with its steps, in fine units. -/
def State.nowFine (s : State) : Nat := cFine s.tsc.dueCopy

/-- The phase of the dividers at the timescale instant `t` (R150). -/
def State.phaseAt (s : State) (t : Nat) : Int := (s.syn.phase : Int) + ((t : Int) - (s.nowFine : Int))

/-- Real time at the present tick, in units of 1/65,536 ns: 2 ns to a tick. -/
def State.realNow (s : State) : Nat := s.tsc.tick * 131072

/-- The realignment of output `n` is in progress (R169). -/
def State.realigning (s : State) (n : Nat) : Bool :=
  let x := s.outRun n
  decide (0 < x.left) || decide (0 < x.stretch)

/-- The first instant of the schedule `a + k × p` at or after `t`. -/
def nextEdge (a p t : Nat) : Nat := if p = 0 ∨ t ≤ a then a else a + (t - a + p - 1) / p * p

/-- The high phase of an output in clock mode: half its period `p`, rounded to the 1/1024 ns grid (R159). -/
def halfPeriod (p : Nat) : Nat := let grid := nsFine / 1024; (p + grid) / (2 * grid) * grid

/-! ### The schedule of one output over a tick (R159 to R162, R167, R168) -/

/-- What one output's schedule is run with: its period and high phase in fine units, MODE, COUNT, whether its own signal
reaches the output, its period in units of 1/(10 × 2^24) ns and MARGIN_PPM for the guard, the phase before the tick, the
phase after it, the phase of one increment, and the real time before the tick. -/
structure OutCtx where
  p : Nat
  high : Nat
  mode : Nat
  count : Nat
  open_ : Bool
  guard : Nat
  margin : Nat
  ph0 : Nat
  ph1 : Nat
  inc : Nat
  real0 : Nat

/-- The real time of phase `e` within the tick. -/
def OutCtx.real (c : OutCtx) (e : Nat) : Nat := c.real0 + (e - c.ph0) * 131072 / (if c.inc = 0 then 1 else c.inc)

/-- A rising edge `since` after the last one comes sooner than 1/F_GUARD (R168). -/
def tooSoon (guard margin since : Nat) : Bool := decide (since * 2560 * (1000000 + margin) < guard * 1000000)

/-- How much phase is missing until 1/F_GUARD has passed since the last rising edge, for one at real time `t` (R168). -/
def OutCtx.short (c : OutCtx) (x : OutRun) (t : Nat) : Nat :=
  match x.lastRise with
  | none => 0
  | some r =>
    if tooSoon c.guard c.margin (t - r) then
      let k := 2560 * (1000000 + c.margin)
      ((c.guard * 1000000 + k - 1) / k - (t - r)) * c.inc / 131072 + 1
    else 0

/-- The schedule past its rising edge at phase `e`: the next follows after a period, lengthened by at most P / 4 while a
shift is left (R168).  A 1 PPS pulse has no successor until its second comes (R161). -/
def OutCtx.advance (c : OutCtx) (x : OutRun) (e : Nat) : OutRun :=
  let d := min x.left (c.p / 4)
  { x with next := if c.mode = 1 then none else some (e + c.p + d), left := x.left - d, stretch := d, sent := x.sent + 1 }

/-- The low phase that a change of source asks for has not passed by real time `t` (R171). -/
def OutCtx.lowShort (c : OutCtx) (x : OutRun) (t : Nat) : Bool :=
  x.fresh && (match x.lastFall with
    | some f => decide ((t - f) * 2560 * 2 < c.guard)
    | none => false)

/-- A scheduled rising edge at phase `e` (R159, R161, R162, R167, R168, R171): the schedule goes on, and the output rises
where nothing gates it, COUNT pulses have not been sent and it is low; an edge that would come sooner than 1/F_GUARD is put
off until then. -/
def OutCtx.rise (c : OutCtx) (x : OutRun) (e : Nat) : OutRun × List (Bool × Nat) :=
  let t := c.real e
  let y := c.advance x e
  if !c.open_ || x.level || (decide (c.count ≠ 0) && decide (c.count ≤ x.sent)) || c.lowShort x t then (y, [])
  else if 0 < c.short x t then
    ({ x with next := some (e + c.short x t), left := if c.p = 0 then 0 else (x.left + c.p - c.short x t % c.p) % c.p }, [])
  else ({ y with level := true, byRelay := false, fresh := false, fall := e + c.high, lastRise := some t }, [(true, t)])

/-- The edges of one output up to the end of the tick, in order; `fuel` bounds them. -/
def OutCtx.run (c : OutCtx) : Nat → OutRun → OutRun × List (Bool × Nat)
  | 0, x => (x, [])
  | k + 1, x =>
    let falls := x.level && !x.byRelay && decide (x.fall ≤ c.ph1) &&
      (match x.next with | some e => decide (x.fall ≤ e) | none => true)
    if falls then
      let t := c.real x.fall
      let r := c.run k { x with level := false, lastFall := some t }
      (r.1, (false, t) :: r.2)
    else
      match x.next with
      | none => (x, [])
      | some e =>
        if e ≤ c.ph1 then
          let a := c.rise x e
          let r := c.run k a.1
          (r.1, a.2 ++ r.2)
        else (x, [])

/-- The schedule across a gap: whole periods that lie within it pass, and a shift with them. -/
def OutCtx.skip (c : OutCtx) (x : OutRun) : OutRun :=
  match x.next with
  | some e =>
    if c.p ≠ 0 ∧ c.mode ≠ 1 ∧ e + 8 * (c.p + c.p / 4) < c.ph1 then
      let k := (c.ph1 - (e + x.left)) / c.p
      { x with next := some (e + x.left + k * c.p), left := 0, stretch := 0, sent := x.sent + k }
    else x
  | none => x

/-- `SYN_On_STATUS` as a read finds it: DROPS, with the rest formed from the present state. -/
def State.synStatus (s : State) (n : Nat) : Word :=
  let w := s.reg (R.SYN_On_STATUS n)
  let w := F.SYN_On_STATUS_STAGED.put w (b2n (s.staged n))
  let w := F.SYN_On_STATUS_SOURCE.put w (b2n (if (s.outRun n).level then (s.outRun n).byRelay else s.relayed n))
  let w := F.SYN_On_STATUS_CLAIM_HIGH.put w (b2n s.higher)
  let w := F.SYN_On_STATUS_REALIGN.put w (b2n (s.realigning n))
  let w := F.SYN_On_STATUS_SETTLING.put w (b2n ((s.outRun n).settling || s.syn.settling.contains .jpll))
  F.SYN_On_STATUS_GATE_CAUSE.put w (s.gateCause n)

/-- Output `n` runs in a mode whose edges follow the schedule of R159. -/
def State.follows (s : State) (n : Nat) : Bool := s.outOn n && s.outMode n != 1

/-- What output `n` is run with over the tick just formed. -/
def State.outCtx (s : State) (n : Nat) : OutCtx :=
  let p := s.period n
  let mode := s.outMode n
  { p := fineUnits p, mode := mode
    high := if mode = 0 then halfPeriod (fineUnits p)
      else F.SYN_On_WIDTH_WIDTH.get (s.inForce (R.SYN_On_WIDTH n)) * 2 * nsFine
    count := if mode = 2 then (s.inForce (R.SYN_On_COUNT n)).toNat else 0
    open_ := decide (s.gateCause n = 0) && !s.relayed n
    guard := p, margin := F.SYN_On_GUARD_MARGIN_PPM.get (s.inForce (R.SYN_On_GUARD n))
    ph0 := s.syn.phase - s.syn.advance, ph1 := s.syn.phase
    inc := 10 * cInc s.tsc.voted, real0 := s.realNow - s.syn.advance * 131072 / (10 * cInc s.tsc.voted) }

/-- A high phase that a relay source left behind ends within two periods of it (R171). -/
def State.relayEnds (s : State) (n : Nat) : Bool :=
  let x := s.outRun n
  x.level && x.byRelay && !s.relayed n &&
    (match x.lastRise with | some r => decide (2 * s.period n < (s.realNow - r) * 2560) | none => true)

/-- The edges `l` leave at output `n`. -/
def State.emitEdges (s : State) (n : Nat) (l : List (Bool × Nat)) : State :=
  { s with out := s.out ++ l.map (fun e => Out.edge n e.1 e.2) }

/-- Output `n` over the tick just formed. -/
def State.runOutput (s : State) (n : Nat) : State :=
  let x := s.outRun n
  if s.relayEnds n then
    (s.setOutRun n { x with level := false, lastFall := some s.realNow }).emitEdges n [(false, s.realNow)]
  else if x.next = none ∧ x.level = false then s
  else
    let c := s.outCtx n
    let r := c.run 16 (c.skip x)
    (s.setOutRun n r.1).emitEdges n r.2

/-- The second `sec` has been reached by counting, at the timescale instant `t`: the outputs in 1 PPS mode have a pulse at
it plus DELAY (R161). -/
def State.pulseSecond (s : State) (t : Nat) : State :=
  (List.range 10).foldl (fun s n =>
    if s.outOn n && s.outMode n == 1 then
      let e := s.phaseAt (t + fineUnits (delayOf (s.inForce (R.SYN_On_DELAY n))))
      s.setOutRun n { s.outRun n with next := some e.toNat }
    else s) s

/-- The dividers and outputs over a tick of `n` increments of the voted increment `inc` (R150, R159 to R168); `gap`: the
bridge.  A second that a bridge or a step passes over, or that was reached before, has no pulse (R161). -/
def State.outputsTick (s : State) (n inc : Nat) (gap : Bool) : State :=
  let s := s.setSyn { s.syn with phase := s.syn.phase + 10 * inc * n, advance := 10 * inc * n, second := false }
  let sec := cSec s.tsc.voted
  let stays := decide (sec ≤ cSec s.tsc.dueCopy)
  let pulse := !gap && s.tsc.carried && stays && decide (s.syn.topSec < sec)
  let s := if pulse then s.pulseSecond (sec * secUnits * 10 + (s.nowFine - cFine s.tsc.voted)) else s
  let s := if stays ∧ s.syn.topSec < sec then s.setSyn { s.syn with topSec := sec } else s
  (List.range 10).foldl State.runOutput s

/-- A phase step of `delta` Tick64 units moves output `n` to the stepped schedule (R169): the shift is
(−Δ) mod P, on top of what a realignment in progress still has to make. -/
def State.realignStep (s : State) (delta : Int) (n : Nat) : State :=
  let p := fineUnits (s.period n)
  if s.follows n && decide (p ≠ 0) then
    let x := s.outRun n
    s.setOutRun n { x with left := (((x.left : Int) - delta * (10 * 2 ^ 32)) % p).toNat }
  else s

/-- A phase step reaches every output (R81, R169). -/
def State.outputsStep (s : State) (delta : Int) : State := (List.range 10).foldl (fun s n => s.realignStep delta n) s

/-! ### Updates (R164 to R166) -/

/-- The update changes output `n` under R165: it enables it, changes MODE or SIG, or changes its frequency by more
than MARGIN_PPM of the frequency in force. -/
def State.freqChange (s : State) (n : Nat) : Bool :=
  let old := s.inForce (R.SYN_On_CFG n)
  let new := s.reg (R.SYN_On_CFG n)
  let d := s.period n
  let d' := s.stagedPeriod n
  let margin := F.SYN_On_GUARD_MARGIN_PPM.get (s.inForce (R.SYN_On_GUARD n))
  F.SYN_On_CFG_EN.get new = 1 &&
    (F.SYN_On_CFG_EN.get old = 0 || F.SYN_On_CFG_MODE.get new != F.SYN_On_CFG_MODE.get old ||
      F.SYN_On_CFG_SIG.get new != F.SYN_On_CFG_SIG.get old ||
      decide (margin * d' < ((d : Int) - d').natAbs * 1000000))

/-- Output `n` is under a frequency change of the pending update when its staged values make one, and gated then
(R165). -/
def State.markChange (s : State) (n : Nat) : State :=
  s.setOutRun n { s.outRun n with change := s.outOn n && s.freqChange n }

/-- GO: the update becomes pending and outputs under a frequency change are gated; while one is pending, GO has no
further effect (R164, R165). -/
def State.updateGo (s : State) : State :=
  if s.on R.SYN_STATUS F.SYN_STATUS_PENDING then s
  else
    let s := (List.range 10).foldl State.markChange (s.p R.SYN_STATUS F.SYN_STATUS_PENDING 1)
    s.setSyn { s.syn with goTick := s.tsc.tick }

/-- A staging register of output `n` has been written: while an update is pending, what it changes is judged anew
(R165). -/
def State.stagingAct (s : State) (n : Nat) : State :=
  if s.on R.SYN_STATUS F.SYN_STATUS_PENDING then s.markChange n else s

/-- The alignment instant at or before the present time: a second, or a whole millisecond (R164). -/
def State.gridInstant (s : State) : Nat :=
  let ns := if s.on R.SYN_CTRL F.SYN_CTRL_ALIGN_GRID then tNs s.now / 1000000 * 1000000 else 0
  (tSec s.now * 1000000000 + ns) * nsUnits

/-- At the apply, a staged WIDTH of O8 or O9 outside the range of the values being applied takes the nearest legal
value, and readback shows it (R162). -/
def State.clampWidth (s : State) (n : Nat) : State :=
  if n < 8 then s
  else
    let w := s.g (R.SYN_On_WIDTH n) F.SYN_On_WIDTH_WIDTH
    let d := (s.reg (R.SYN_On_INT n)).toNat * 2 ^ 24 + s.g (R.SYN_On_FRAC n) F.SYN_On_FRAC_FRAC
    let hi := widthMax (s.g (R.SYN_On_CFG n) F.SYN_On_CFG_MODE) d
    s.p (R.SYN_On_WIDTH n) F.SYN_On_WIDTH_WIDTH (max 1 (min w hi))

/-- The phase of the first rising edge, at or after the present tick, of the schedule staged for output `n` with alignment
instant `a`, in units of 1/(10 × 2^24) ns (R159). -/
def State.firstEdge (s : State) (a n : Nat) : Nat :=
  let p := fineUnits (s.stagedPeriod n)
  (s.phaseAt (nextEdge (fineUnits (a + delayOf (s.reg (R.SYN_On_DELAY n)))) p s.nowFine)).toNat

/-- The schedule of output `n` once its staged values are in force from the alignment instant `a` (R159, R161, R165, R168): a
running output reaches it by realignment, with the shift (new edge − old edge) mod P; one under a frequency change starts
on it, its settling ended by no earlier one; a disabled one goes low. -/
def State.newRun (s : State) (a n : Nat) : OutRun :=
  let x := s.outRun n
  let change := s.freqChange n
  let on_ := F.SYN_On_CFG_EN.get (s.reg (R.SYN_On_CFG n)) = 1
  let pps := F.SYN_On_CFG_MODE.get (s.reg (R.SYN_On_CFG n)) = 1
  let p := fineUnits (s.stagedPeriod n)
  let x := { x with change := false, settling := on_ && (change || x.settling), sent := 0 }
  if !on_ then { x with next := none, left := 0, stretch := 0, level := false }
  else if pps then { x with next := if change then none else x.next, left := 0, stretch := 0 }
  else
    match x.next with
    | some e =>
      if change ∨ p = 0 then { x with next := some (s.firstEdge a n), left := 0, stretch := 0 }
      else { x with left := (((s.firstEdge a n : Int) - e) % p).toNat }
    | none => { x with next := some (s.firstEdge a n), left := 0, stretch := 0 }

/-- Output `n` takes its staged values at the alignment instant `a` (R162, R164, R165, R168). -/
def State.applyOutput (s : State) (a n : Nat) : State :=
  let s := s.clampWidth n
  let was := (s.outRun n).level
  let x := s.newRun a n
  let x := if was && !x.level then { x with lastFall := some s.realNow } else x
  let s := (stagingOf n).foldl (fun s r => s.setForce r (s.reg r)) s
  (s.setOutRun n x).emitEdges n (if was && !x.level then [(false, s.realNow)] else [])

/-- The present tick holds an instant of the alignment grid (R164): the second event has come on it, or, with ALIGN_GRID 1,
its nanoseconds have passed a multiple of 1,000,000. -/
def State.gridTick (s : State) : Bool :=
  if s.on R.SYN_CTRL F.SYN_CTRL_ALIGN_GRID then
    decide (cSub s.tsc.voted % (1000000 * 2 ^ 48) < cInc s.tsc.voted)
  else s.syn.second

/-- Every output under a frequency change has gated: it is low (R164, R165). -/
def State.changesGated (s : State) : Bool :=
  (List.range 10).all (fun n => !(s.outRun n).change || !(s.outRun n).level)

/-- The pending update applies on the present tick (R164, R166): a grid instant at least 2 µs after GO, or after the
jitter-cleaning PLL has settled, at which every output under a frequency change has gated. -/
def State.applies (s : State) : Bool :=
  s.on R.SYN_STATUS F.SYN_STATUS_PENDING && s.runs .timescale && !s.jpllGates && s.gridTick &&
    decide (s.syn.goTick + 1000 ≤ s.tsc.tick) && s.changesGated

/-- The apply of a pending update (R164): not while the jitter-cleaning PLL is in hold or settles (R166). -/
def State.updateApply (s : State) : State :=
  if s.applies then
    let a := s.gridInstant
    let s := (List.range 10).foldl (fun s n => s.applyOutput a n) s
    (s.p R.SYN_STATUS F.SYN_STATUS_PENDING 0).raw R.SYN_RAW F.SYN_RAW_UPDATE_DONE
  else s

/-- The legs of output `n` (R163): low is the _P leg low and, for a differential output, the _N leg high; O8 and O9 are
single-ended. -/
def State.legs (s : State) (n : Nat) : Bool × Option Bool :=
  ((s.outRun n).level, if n < 8 then some (!(s.outRun n).level) else none)

/-! ### Claim switch and relay (R171, R172) -/

/-- The outputs with a claim gate move to the source of the unit that now holds the higher claim (R171): the present high
phase ends with a falling edge of the source that drives it, and the first rising edge comes from the new source. -/
def State.claimSwitch (s : State) : State :=
  let low := !s.higher
  let moved := (List.range 10).filter (fun n => (s.outRun n).lower != low)
  let gated := moved.any (fun n =>
    s.outOn n && F.SYN_On_CFG_CLAIM_MODE.get (s.inForce (R.SYN_On_CFG n)) != 0)
  let s := moved.foldl (fun s n => s.setOutRun n { s.outRun n with lower := low, fresh := true }) s
  if gated then s.raw R.SYN_RAW F.SYN_RAW_CLAIM_SWITCH else s

/-- The relay path of output `n`: 1.10 ns plus RLY_FINE / 1,024 ns, in units of 1/65,536 ns (R172). -/
def State.relayDelay (s : State) (n : Nat) : Nat :=
  72090 + F.SYN_On_CFG_RLY_FINE.get (s.inForce (R.SYN_On_CFG n)) * 64

/-- A rising edge of the relay input reaches output `n` at real time `t` (R168, R171, R172): dropped and counted where it
would come sooner than 1/F_GUARD. -/
def State.relayRise (s : State) (n t : Nat) : State :=
  let x := s.outRun n
  if s.running && s.relayed n && decide (s.gateCause n = 0) && !x.level then
    let margin := F.SYN_On_GUARD_MARGIN_PPM.get (s.inForce (R.SYN_On_GUARD n))
    let soon := match x.lastRise with | some r => tooSoon (s.period n) margin (t - r) | none => false
    if soon then (s.inc (R.SYN_On_STATUS n) F.SYN_On_STATUS_DROPS).raw R.SYN_RAW F.SYN_RAW_RELAY_DROP
    else if (s.outCtx n).lowShort x t then s
    else (s.setOutRun n { x with level := true, byRelay := true, fresh := false, lastRise := some t }).emitEdges n [(true, t)]
  else s

/-- A falling edge of the relay input reaches output `n` at real time `t`: it ends a high phase that the relay input
drives. -/
def State.relayFall (s : State) (n t : Nat) : State :=
  let x := s.outRun n
  if x.level && x.byRelay then (s.setOutRun n { x with level := false, lastFall := some t }).emitEdges n [(false, t)] else s

/-- An edge on relay input `RLY_On`, `ahead` units of 1/65,536 ns after the present tick (R172). -/
def State.relayEdge (s : State) (n : Nat) (rise : Bool) (ahead : Nat) : State :=
  let t := s.realNow + ahead + s.relayDelay n
  if rise then s.relayRise n t else s.relayFall n t

/-! ### Loops (R149 to R156) -/

/-- The LOCK and HOLD bits and the loss event of a loop with bits of its own. -/
def loopBits : Loop → Option (Fld × Option Fld × Fld)
  | .hk => some (F.SYN_STATUS_HPLL_LOCK, none, F.SYN_RAW_HK_FALLBACK)
  | .jpll => some (F.SYN_STATUS_JPLL_LOCK, some F.SYN_STATUS_JPLL_HOLD, F.SYN_RAW_JPLL_UNLOCK)
  | .core => some (F.SYN_STATUS_CORE_LOCK, some F.SYN_STATUS_CORE_HOLD, F.SYN_RAW_CORE_UNLOCK)
  | .dram => some (F.SYN_STATUS_DRAM_LOCK, some F.SYN_STATUS_DRAM_HOLD, F.SYN_RAW_DRAM_UNLOCK)
  | .lane _ => none

/-- The fault code of a loop's loss (R174). -/
def loopCode : Loop → Nat
  | .jpll => 1
  | .core => 2
  | .dram => 3
  | _ => 4

/-- The loop is locked. -/
def State.loopLocked (s : State) (l : Loop) : Bool :=
  match l with
  | .lane n => s.syn.lanes.contains n
  | _ => match loopBits l with
    | some (lock, _, _) => s.on R.SYN_STATUS lock
    | none => false

/-- The domains that a loop clocks and that are gated with it (R152). -/
def loopDoms : Loop → List Dom
  | .jpll => [.timescale]
  | .core => [.core]
  | .lane n => if n < 24 then [.lane n] else [.guyLane]
  | _ => []

/-- What shows that a loop is in frequency hold (R149, R151); the DRAM's, with both channels in self-refresh (R152,
R274). -/
def State.showHold (s : State) (l : Loop) : State :=
  match l with
  | .hk => s.p R.SYN_STATUS F.SYN_STATUS_HK_FALLBACK 1
  | .jpll => s.p R.SYN_STATUS F.SYN_STATUS_JPLL_HOLD 1
  | .core => s.p R.SYN_STATUS F.SYN_STATUS_CORE_HOLD 1
  | .dram => (s.p R.SYN_STATUS F.SYN_STATUS_DRAM_HOLD 1).p R.QUE_DRAM_STATUS F.QUE_DRAM_STATUS_SELF_REFRESH 1
  | .lane _ => s

/-- A loop other than a lane PLL loses lock (R149, R151, R152): hold, status, raw status and, unless `quiet`
(R156), the fault record with `cause`. -/
def State.loopLoss (s : State) (l : Loop) (cause : Nat) (quiet : Bool) : State :=
  match loopBits l with
  | none => s
  | some (lock, _, ev) =>
    if s.on R.SYN_STATUS lock then
      let s := ((s.p R.SYN_STATUS lock 0).raw R.SYN_RAW ev).showHold l
      let s := s.setSyn { s.syn with
        settling := s.syn.settling.erase l
        gapCoarse := s.syn.gapCoarse || (l == Loop.hk && !(s.runs .timescale)) }
      if quiet then s
      else s.fault 5 (loopCode l) (if l = .hk then 0 else cause) (tSec s.now % 2 ^ 32)
    else s

/-- A change of `REF_OSC_CFG`.FREQ puts all four `OSC_IN` loops into hold, locked or not (R156). -/
def State.oscFreqChange (s : State) : State :=
  [Loop.hk, .jpll, .core, .dram].foldl (fun s l => (s.loopLoss l 0 true).showHold l) s

/-- What a write of `REF_OSC_CFG` over the value `old` triggers (R99, R156). -/
def State.oscFreqAct (s : State) (old : Word) : State :=
  if F.REF_OSC_CFG_FREQ.get old = s.g R.REF_OSC_CFG F.REF_OSC_CFG_FREQ then s else s.oscFreqChange

/-- The domain starts or resumes. -/
def State.ungate (s : State) (d : Dom) : State := { s with gated := s.gated.erase d }

/-- Output `n` finishes the high phase its own signal is in, though no tick follows (R167). -/
def State.finishHigh (s : State) (n : Nat) : State :=
  let x := s.outRun n
  if x.level && !x.byRelay then
    let t := s.realNow + (x.fall - s.syn.phase) * 131072 / (10 * cInc s.tsc.voted)
    (s.setOutRun n { x with level := false, lastFall := some t }).emitEdges n [(false, t)]
  else s

/-- The domain's clock stops, its state held (R152, R153). -/
def State.gate (s : State) (d : Dom) : State :=
  if s.gated.contains d then s
  else
    let s := { s with gated := s.gated ++ [d] }
    if d = .timescale then
      (List.range 10).foldl State.finishHigh
        (s.setSyn { s.syn with gapCoarse := s.on R.SYN_STATUS F.SYN_STATUS_HK_FALLBACK })
    else s

/-- `n` increments added to a copy in one tick (R154). -/
def cBridge (n : Nat) (c : Copy) : Copy :=
  let total := cSub c + n * cInc c
  mkCopy (cSec c + total / secUnits) (total % secUnits) (cInc c)

/-- The bridge: on the first tick after a gap of `cycles` register-clock cycles each copy adds N increments, and M
is reported (R154). -/
def State.bridge (s : State) (cycles : Nat) : State :=
  let n := 2 * cycles
  if n = 0 then s
  else
    let v := s.tsc.voted
    let s := (s.formTick n (cBridge n) (decide (cSec (cBridge n v) ≠ cSec v)) 0#192 0#192 0#192).outputsTick n (cInc v) true
    let s := s.setTsc { s.tsc with breaks := s.tsc.breaks + 1 }
    let coarse := s.syn.gapCoarse
    let s := s.setPair R.SYN_BRIDGE_LO (n - 1)
    let s := (s.raw R.SYN_RAW F.SYN_RAW_BRIDGE).pb R.SYN_STATUS F.SYN_STATUS_BRIDGE_COARSE coarse
    let r := s.mkRec 0x14 (b2n coarse) ((n - 1) % 2 ^ 32) ((n - 1) / 2 ^ 32) 0 0
    s.record true { r with coarse := false }

end Sys2Proof.Machine
end

