-- ==== Sys2Proof/Machine/Stamping.lean ====
section
/-! DEFINITION. Port stamps, phase detectors, loopback, link delay, one-step insertion and the two-step FIFO
(spec/07_port_timestamping_and_phase_tracking.md). -/

namespace Sys2Proof.Machine

/-- The stamping unit of port `n` beyond its registers. -/
def State.ptsOf (s : State) (n : Nat) : Pts := Tbl.get Pts.reset s.pts n

/-- The state with the stamping unit of port `n` being `x`. -/
def State.setPts (s : State) (n : Nat) (x : Pts) : State := { s with pts := Tbl.set Pts.reset s.pts n x }

/-! ### Stamps (R178, R181, R183, R185) -/

/-- The effective transmit delay of port `n`: factory plus integrator, saturating (R185). -/
def State.txDelay (s : State) (n : Nat) : Int :=
  satS 32 (s.regI (R.PTS_TX_DLY_FAC n) + s.regI (R.PTS_TX_DLY_USER n))

/-- The effective receive delay of port `n` (R185). -/
def State.rxDelay (s : State) (n : Nat) : Int :=
  satS 32 (s.regI (R.PTS_RX_DLY_FAC n) + s.regI (R.PTS_RX_DLY_USER n))

/-- The state of the detector of one direction of port `n`: 0 OFF, 1 ACQUIRE, 2 TRACK (R182). -/
def State.pdState (s : State) (n : Nat) (tx : Bool) : Nat :=
  s.g (R.PTS_STATUS n) (if tx then F.PTS_STATUS_TX_PD else F.PTS_STATUS_RX_PD)

/-- A T96 value as a count of units of 1/65,536 ns. -/
def unitsOf (t : T96) : Int := (((tSec t * 1000000000 + tNs t) * 65536 + tFrac t : Nat) : Int)

/-- φ of a detector in TRACK whose samples are `l`, newest first, `age` ticks after the latest, as a fraction: the latest
sample advanced by the mean slope of the last 64, a sample standing for 500 ticks, within one tick (R180). -/
def pdPhase (l : List Int) (age : Nat) : Int × Int :=
  match l with
  | [] => (0, 1)
  | x :: r =>
    let k : Int := max r.length 1
    let num := x * k * 500 + (x - r.getLast?.getD x) * age
    (num.emod (8192 * k * 500), k * 500)

/-- φ of a stamp, as a fraction in 1/4,096 ns: the detector's while it is in TRACK (`st` 2), else the coarse sample (R180,
R181). -/
def phaseOf (st : Nat) (d : Pd) (x : StampIn) : Int × Int := if st = 2 then pdPhase d.hist x.age else (x.phi, 1)

/-- Line bits from the first bit of a gearbox word to the reference event, with FEC: 257 for each block, 140 for the parity
after every twenty, and an alignment marker in place of one block in 20,480 (R179).  The places of the marker are those of
IEEE Std 802.3 Clause 108 (PRESUMED, log 18). -/
def fecLineBits (f : FecPlace) : Nat :=
  let raw := f.blocks + 1 + f.blocks / 20479
  f.lead + 257 * raw + 140 * (raw / 20) + f.bit

/-- b of a stamp: line bits from the first bit of W to the reference event, a word being 64 bits (R178, R179). -/
def bitsToEvent (fec : Bool) (x : StampIn) : Nat := if fec then fecLineBits x.fec % 64 else x.bits % 64

/-- The sum E + (φ + b × UI) × I / 2^49 + `dly`, rounded to the nearest unit, ties away from zero (R178); `phi`: φ as a
fraction.  One UI is 2,097,152 / 825 units. -/
def State.stampSum (s : State) (phi : Int × Int) (b : Nat) (dly : Int) : Int :=
  let i : Int := 2 ^ 49 + s.rate
  let num := (phi.1 * 16 * 825 + (b : Int) * 2097152 * phi.2) * i
  let den : Int := 825 * 2 ^ 49 * phi.2
  divRound ((unitsOf s.now + dly) * den + num) den

/-- A stamp with delay `dly` from a detector `d` in state `st`: under R178, or in a gap of the timescale under R183. -/
def State.stampFrom (s : State) (st : Nat) (d : Pd) (fec : Bool) (dly : Int) (x : StampIn) : Stamp :=
  if s.runs .timescale then
    ⟨addT96 s.now (s.stampSum (phaseOf st d x) (bitsToEvent fec x) dly - unitsOf s.now), st != 2, false, fec && x.fecBad,
      s.seg⟩
  else
    ⟨addT96 s.now (divRound ((x.cycles : Int) * 2048 * 65536) 825), true, true, fec && x.fecBad, s.seg⟩

/-- A stamp of a reference event of port `n` with delay `dly` (R178 to R183). -/
def State.stampOf (s : State) (n : Nat) (tx : Bool) (dly : Int) (x : StampIn) : Stamp :=
  s.stampFrom (s.pdState n tx) (if tx then (s.ptsOf n).tx else (s.ptsOf n).rx) (s.on (R.MAC_Pn_CFG n) F.MAC_Pn_CFG_FEC) dly x

/-- The receive stamp of port `n` (R178). -/
def State.rxStamp (s : State) (n : Nat) (x : StampIn) : Stamp := s.stampOf n false (-(s.rxDelay n)) x

/-- The departure stamp of port `n` (R178). -/
def State.txStamp (s : State) (n : Nat) (x : StampIn) : Stamp := s.stampOf n true (s.txDelay n) { x with fecBad := false }

/-- A stamp at P24, which has no PCS (R177). -/
def State.hostStamp (s : State) : Stamp := ⟨s.now, true, !s.runs .timescale, false, s.seg⟩

/-- A stamp that carries no flag. -/
def stampClean (x : Stamp) : Bool := !x.coarse && !x.gap && !x.fecBad

/-! ### Phase detectors (R180, R182) -/

/-- The state with the detector of one direction of port `n` in state `st`. -/
def State.setPd (s : State) (n : Nat) (tx : Bool) (st : Nat) : State :=
  s.p (R.PTS_STATUS n) (if tx then F.PTS_STATUS_TX_PD else F.PTS_STATUS_RX_PD) st

/-- The detector of one direction of port `n`. -/
def State.pd (s : State) (n : Nat) (tx : Bool) : Pd := if tx then (s.ptsOf n).tx else (s.ptsOf n).rx

/-- The state with that detector being `d`. -/
def State.storePd (s : State) (n : Nat) (tx : Bool) (d : Pd) : State :=
  s.setPts n (if tx then { s.ptsOf n with tx := d } else { s.ptsOf n with rx := d })

/-- The detector may run: PD_EN, lane lock and, for the receive detector, block lock (R182). -/
def State.pdMay (s : State) (n : Nat) (tx : Bool) : Bool :=
  s.on (R.PTS_CFG n) F.PTS_CFG_PD_EN && s.on (R.PTS_STATUS n) F.PTS_STATUS_LANE_LOCK &&
    (tx || s.on (R.PTS_STATUS n) F.PTS_STATUS_BLOCK_LOCK)

/-- A detector leaves OFF when it may run, and returns to OFF when it may not (R182). -/
def State.pdRefresh (s : State) (n : Nat) (tx : Bool) : State :=
  if s.pdMay n tx then (if s.pdState n tx = 0 then (s.setPd n tx 1).storePd n tx ⟨0, []⟩ else s)
  else (s.setPd n tx 0).storePd n tx ⟨0, []⟩

/-- Both detectors of port `n`. -/
def State.pdRefreshBoth (s : State) (n : Nat) : State := (s.pdRefresh n false).pdRefresh n true

/-- Both detectors of port `n` go to OFF because the port's mode changed; they start again when they may (R182). -/
def State.pdModeChange (s : State) (n : Nat) : State := ((s.setPd n false 0).setPd n true 0).pdRefreshBoth n

/-- The prediction of the next sample, as a fraction: the latest advanced by the mean slope of the last 64 samples
(R180). -/
def pdPredict (l : List Int) : Option (Int × Int) :=
  match l with
  | [] => none
  | x :: r =>
    let k := r.length
    if k = 0 then some (x, 1)
    else some (x * k + (x - (r.getLast?.getD x)), k)

/-- A sample `raw`, modulo one tick in 1/4,096 ns, unwrapped to the value nearest its prediction (R180). -/
def pdUnwrap (l : List Int) (raw : Nat) : Int :=
  match pdPredict l with
  | none => raw
  | some (n, d) => raw + 8192 * divRound (n - raw * d) (8192 * d)

/-- The sample's distance from its prediction times the prediction's denominator, and that denominator. -/
def pdError (l : List Int) (x : Int) : Int × Int :=
  match pdPredict l with
  | none => (0, 1)
  | some (n, d) => (x * d - n, d)

/-- One sample of a detector (R180, R182). -/
def State.pdSample (s : State) (n : Nat) (tx : Bool) (raw : Nat) : State :=
  let st := s.pdState n tx
  if st = 0 then s
  else
    let d := s.pd n tx
    let x := pdUnwrap d.hist (raw % 8192)
    let err := pdError d.hist x
    let mag : Int := err.1.natAbs * 1000
    let near := decide (mag ≤ 4 * 4096 * err.2)
    let far := decide (20 * 4096 * err.2 < mag)
    let good := if near then d.good + 1 else 0
    let s := s.p (R.PTS_PD_PHASE n) (if tx then F.PTS_PD_PHASE_TX_PHASE else F.PTS_PD_PHASE_RX_PHASE) (raw % 8192)
    let s := s.storePd n tx ⟨good, (x :: d.hist).take 64⟩
    if st = 1 then
      if 1024 ≤ good then (s.setPd n tx 2).raw (R.PTS_RAW n) F.PTS_RAW_PD_TRACK else s
    else if far then
      let s := ((s.setPd n tx 1).storePd n tx ⟨0, (x :: d.hist).take 64⟩).raw (R.PTS_RAW n) F.PTS_RAW_PD_SLIP
      s.note 0x08 (if tx then 2 else 1) 0 (enc 32 (divRound err.1 err.2)) 0 (n * 2 ^ 11)
    else s

/-- The timescale domain resumes after a gap: detectors in ACQUIRE or TRACK start to acquire anew, as after a slip but
without its record (R182). -/
def State.pdGap (s : State) (n : Nat) : State :=
  [false, true].foldl (fun s tx =>
    if s.pdState n tx = 0 then s
    else ((s.setPd n tx 1).storePd n tx ⟨0, []⟩).raw (R.PTS_RAW n) F.PTS_RAW_PD_SLIP) s

/-- p of R221: the latest receive sample, unwrapped, in timescale units. -/
def State.rxPhase (s : State) (n : Nat) : Int :=
  let x := ((s.pd n false).hist.head?).getD 0
  divRound (x * 16 * (2 ^ 49 + s.rate)) (2 ^ 49)

/-! ### Link delay (R188 to R190) -/

/-- d_in and d_out from d_mean (R190). -/
def State.asymmetry (s : State) (n : Nat) : State :=
  let dMean := s.pairI (R.PTS_LD_MEAN_LO n)
  let k := sx 16 (s.g (R.PTS_FTEMP_K n) F.PTS_FTEMP_K_K)
  let dT := sx 16 (s.g (R.PTS_FTEMP_NOW n) F.PTS_FTEMP_NOW_T_NOW) -
    sx 16 (s.g (R.PTS_FTEMP_CAL n) F.PTS_FTEMP_CAL_T_CAL)
  let a := s.regI (R.PTS_ASYM n) * 16 + (if s.on (R.PTS_CFG n) F.PTS_CFG_FTEMP_EN then k * dT else 0)
  let delta := (dMean * a + 2 ^ 43) / 2 ^ 44
  (s.setPairI (R.PTS_LD_IN_LO n) (dMean + delta)).setPairI (R.PTS_LD_OUT_LO n) (dMean - delta)

/-- The quotient `num / den` rounded to a whole unit in a direction the spec leaves open. -/
def State.freeQuot (s : State) (num : Int) (den : Nat) : Int :=
  let q := num / (den : Int)
  if num % (den : Int) = 0 then q else if Config.roundUp s.freeIdx then q + 1 else q

/-- The window of port `n` holds the samples `l`; the mean and what follows from it (R189, R190). -/
def State.setWindow (s : State) (n : Nat) (l : List Int) : State :=
  let size := 2 ^ s.g (R.PTS_LD_CFG n) F.PTS_LD_CFG_LOG2_N
  let l := l.take size
  let s := s.setPts n { s.ptsOf n with ld := l, outliers := 0 }
  let s := (s.setPairI (R.PTS_LD_MEAN_LO n) (s.freeQuot (l.foldl (· + ·) 0) l.length)).drawn
  let s := if size ≤ l.length then s.p (R.PTS_STATUS n) F.PTS_STATUS_LD_VALID 1 else s
  s.asymmetry n

/-- LD_VALID falls and the window starts empty: the port's mode changed or block lock was lost (R189). -/
def State.clearWindow (s : State) (n : Nat) : State :=
  (s.setPts n { s.ptsOf n with ld := [], outliers := 0 }).p (R.PTS_STATUS n) F.PTS_STATUS_LD_VALID 0

/-- A delay sample (R189). -/
def State.ldSample (s : State) (n : Nat) (x : Int) : State :=
  let u := s.ptsOf n
  let d := x - s.pairI (R.PTS_LD_MEAN_LO n)
  let lim : Int := s.g (R.PTS_LD_CFG n) F.PTS_LD_CFG_OUTLIER_PS * 65536
  if s.on (R.PTS_STATUS n) F.PTS_STATUS_LD_VALID && decide (lim < |d| * 1000) then
    let s := s.inc (R.PTS_LD_CNT n) F.PTS_LD_CNT_OUTLIERS
    if u.outliers + 1 < 8 then s.setPts n { u with outliers := u.outliers + 1 }
    else
      let s := (s.clearWindow n).raw (R.PTS_RAW n) F.PTS_RAW_LD_RESTART
      (s.fault 6 2 n (enc 32 (divRound (d * 1000) 65536))).setWindow n [x]
  else s.setWindow n (x :: u.ld)

/-- A delay exchange of port `n`: discarded when a stamp is unusable or the timescale was moved between the local
stamps, else a sample (R188). -/
def State.ldExchange (s : State) (n : Nat) (t1 t2 t3 t4 : Tick64) (bad : Bool) : State :=
  if bad then s.inc (R.PTS_LD_CNT n) F.PTS_LD_CNT_DISCARDS
  else s.ldSample n ((tickDiff t4 t1 - tickDiff t3 t2 + 1) / 2)

/-- A write of `PTS_FTEMP_NOW` ends staleness (R192). -/
def State.ftempNowAct (s : State) (n : Nat) : State := s.cond (R.PTS_RAW n) F.PTS_RAW_FTEMP_STALE false

/-- No write of `PTS_FTEMP_NOW` for TIMEOUT_S (R192). -/
def State.ftempStale (s : State) (n : Nat) : State :=
  if s.on (R.PTS_CFG n) F.PTS_CFG_FTEMP_EN then s.cond (R.PTS_RAW n) F.PTS_RAW_FTEMP_STALE true else s

/-! ### Loopback (R187) -/

/-- A measurement runs on port `n`. -/
def State.looping (s : State) (n : Nat) : Bool :=
  decide (n < 24) && s.on (R.PTS_LOOP_STATUS n) F.PTS_LOOP_STATUS_RUNNING

/-- GO and ABORT of `PTS_LOOP_CTRL` (R187). -/
def State.loopGo (s : State) (n : Nat) : State :=
  if s.looping n then s
  else
    let s := s.setPts n { s.ptsOf n with loop := ⟨0, [], 0, 0, 0⟩ }
    s.setReg (R.PTS_LOOP_STATUS n) (F.PTS_LOOP_STATUS_RUNNING.put 0#32 1)

/-- ABORT ends the measurement at once with VALID 0 (R187). -/
def State.loopAbort (s : State) (n : Nat) : State :=
  if s.looping n then
    let s := s.p (R.PTS_LOOP_STATUS n) F.PTS_LOOP_STATUS_RUNNING 0
    s.p (R.PTS_LOOP_STATUS n) F.PTS_LOOP_STATUS_VALID 0
  else s

/-- What a write of `PTS_LOOP_CTRL` triggers (R187). -/
def State.loopCtrlAct (s : State) (n : Nat) (v : Word) : State :=
  let s := if F.PTS_LOOP_CTRL_ABORT.get v = 1 then s.loopAbort n else s
  if F.PTS_LOOP_CTRL_GO.get v = 1 then s.loopGo n else s

/-- The calibration frame of sequence `q` (R187), before its FCS. -/
def calFrame (q : Nat) : List Byte :=
  beBytes 12 0 ++ beBytes 2 0x88B5 ++ beBytes 4 q ++ List.replicate 42 0#8

/-- A calibration frame leaves port `n` (R187). -/
def State.loopTx (s : State) (n : Nat) (x : StampIn) : State :=
  let u := s.ptsOf n
  let q := u.loop.sent
  if s.running && s.looping n && decide (q < s.g (R.PTS_LOOP_CTRL n) F.PTS_LOOP_CTRL_N) then
    let body := calFrame q
    let s := s.setPts n { u with loop := { u.loop with
      sent := q + 1, way := Tbl.set none u.loop.way q (some (s.txStamp n x)) } }
    s.emit (.frame n (body ++ leBytes 4 (fcsOf body)))
  else s

/-- The calibration frame of sequence `q` returns (R187). -/
def State.loopRx (s : State) (n q : Nat) (x : StampIn) : State :=
  let u := s.ptsOf n
  match Tbl.get none u.loop.way q with
  | none => s
  | some d =>
    if s.looping n then
      let r := s.rxStamp n x
      let way := Tbl.drop q u.loop.way
      if stampClean d && stampClean r then
        let v := (t96Diff r.t d.t).1
        let first := s.g (R.PTS_LOOP_STATUS n) F.PTS_LOOP_STATUS_ACCEPTED = 0
        let l := { u.loop with way := way, sum := u.loop.sum + v
                               least := if first then v else min u.loop.least v
                               most := if first then v else max u.loop.most v }
        (s.setPts n { u with loop := l }).inc (R.PTS_LOOP_STATUS n) F.PTS_LOOP_STATUS_ACCEPTED
      else
        (s.setPts n { u with loop := { u.loop with way := way } }).inc (R.PTS_LOOP_STATUS n) F.PTS_LOOP_STATUS_LOST
    else s

/-- The calibration frame of sequence `q` has not returned within 2 ms (R187). -/
def State.loopTimeout (s : State) (n q : Nat) : State :=
  let u := s.ptsOf n
  if s.looping n && (Tbl.get none u.loop.way q).isSome then
    (s.setPts n { u with loop := { u.loop with way := Tbl.drop q u.loop.way } }).inc (R.PTS_LOOP_STATUS n)
      F.PTS_LOOP_STATUS_LOST
  else s

/-- Every frame has returned or timed out: results, VALID, LOOP_DONE, and the port returns to service (R187). -/
def State.loopDone (s : State) (n : Nat) : State :=
  let u := s.ptsOf n
  if s.looping n && u.loop.way.isEmpty && decide (u.loop.sent = s.g (R.PTS_LOOP_CTRL n) F.PTS_LOOP_CTRL_N) then
    let k := s.g (R.PTS_LOOP_STATUS n) F.PTS_LOOP_STATUS_ACCEPTED
    let s := if k = 0 then s
      else
        let s := s.setPairI (R.PTS_LOOP_MEAN_LO n) (divRound u.loop.sum k)
        (s.setRegN (R.PTS_LOOP_SPAN n) (satU 32 (u.loop.most - u.loop.least).toNat)).p (R.PTS_LOOP_STATUS n)
          F.PTS_LOOP_STATUS_VALID 1
    (s.p (R.PTS_LOOP_STATUS n) F.PTS_LOOP_STATUS_RUNNING 0).raw (R.PTS_RAW n) F.PTS_RAW_LOOP_DONE
  else s

/-! ### One-step insertion (R193 to R195) -/

/-- `l` with the bytes of `b` from offset `o` on. -/
def patch (l : List Byte) (o : Nat) (b : List Byte) : List Byte :=
  if o + b.length ≤ l.length then l.take o ++ b ++ l.drop (o + b.length) else l

/-- The sum of the 16-bit words of `l`, an odd byte padded with zero, from an even or odd offset. -/
def sum16 : Bool → List Byte → Nat
  | _, [] => 0
  | false, b :: r => b.toNat * 256 + sum16 true r
  | true, b :: r => b.toNat + sum16 false r

/-- End-around carries of a 16-bit ones'-complement sum; `fuel` bounds the carries. -/
def fold16 : Nat → Nat → Nat
  | 0, n => n % 65536
  | k + 1, n => if n < 65536 then n else fold16 k (n % 65536 + n / 65536)

/-- The checksum `c` after the bytes `old` at offset parity `odd` became `new` (RFC 1624, equation 3). -/
def adjustSum (c : Nat) (odd : Bool) (old new : List Byte) : Nat :=
  let neg := (2 * old.length + 2) * 65535 - sum16 odd old
  65535 - fold16 64 ((65535 - c) + neg + sum16 odd new)

/-- The ones'-complement checksum of `l`. -/
def inetSum (l : List Byte) : Nat := 65535 - fold16 64 (sum16 false l)

/-- What a one-step request writes (R193). -/
def stepEdits (r : OneStep) (l : List Byte) (t : T96) : List (Nat × List Byte) :=
  let add : Nat → Int → Nat × List Byte := fun c d =>
    (c, beBytes 8 (enc 64 (clampI (-(2 ^ 63)) (2 ^ 63 - 1) (sx 64 (beAt l c 8) + d))))
  match r.op with
  | .stamp f => [(f, beBytes 6 (tSec t) ++ beBytes 4 (tNs t)), add r.corr (tFrac t)]
  | .residence t0 => [add r.corr (tickDiff (tickOf t) t0)]

/-- One edit of a frame, its checksum at `k` kept up. -/
def stepEdit (k : Option Nat) (l : List Byte) (e : Nat × List Byte) : List Byte :=
  let new := patch l e.1 e.2
  match k with
  | none => new
  | some o => patch new o (beBytes 2 (adjustSum (beAt l o 2) ((e.1 + o) % 2 = 1) (slice l e.1 e.2.length) e.2))

/-- The FCS `f` carried through a change of the bytes before it (R195, R257): the CRC of the change is added. -/
def carryFcs (f : Nat) (old new : List Byte) : Nat := f ^^^ fcsOf old ^^^ fcsOf new

/-- A request is served: its fields lie between byte 14 and the FCS (R194).  `n` is the length before the FCS. -/
def stepFits (r : OneStep) (n : Nat) : Bool :=
  let ok : Nat → Nat → Bool := fun o w => decide (14 ≤ o) && decide (o + w ≤ n)
  (match r.op with | .stamp f => ok f 10 | .residence _ => true) && ok r.corr 8 &&
    (match r.sum with | none => true | some k => ok k 2)

/-- The checksum field that a request keeps up: one that holds zero is left at zero (R193). -/
def stepSum (r : OneStep) (l : List Byte) : Option Nat := r.sum.filter (fun k => beAt l k 2 != 0)

/-- The bytes before the FCS of a frame whose request is served (R193). -/
def stepInsert (r : OneStep) (l : List Byte) (t : T96) : List Byte := (stepEdits r l t).foldl (stepEdit (stepSum r l)) l

/-! ### The two-step FIFO (R196, R197) -/

/-- A record: the departure stamp and what R196 puts beside it. -/
def fifoRecord (t : Stamp) (ptp : Option (Nat × Nat × Nat)) (refused : Bool) (tag : Nat) :
    Word × Word × Word × Word :=
  let k := (tickOf t.t).toNat
  let h := match ptp with
    | none => 0
    | some (q, ty, d) => q % 65536 * 65536 + ty % 16 * 4096 + d % 256 * 16 + 8
  (BitVec.ofNat 32 k, BitVec.ofNat 32 (k / 2 ^ 32),
    BitVec.ofNat 32 (h + b2n refused * 4 + b2n t.gap * 2 + b2n t.coarse), BitVec.ofNat 32 (tag % 65536))

/-- The FIFO of port `n` holds `l`. -/
def State.setFifoOf (s : State) (n : Nat) (l : List (Word × Word × Word × Word)) : State :=
  (s.setPts n { s.ptsOf n with fifo := l }).p (R.PTS_FIFO_STATUS n) F.PTS_FIFO_STATUS_DEPTH l.length

/-- A record arrives (R197). -/
def State.pushStamp (s : State) (n : Nat) (r : Word × Word × Word × Word) : State :=
  let l := (s.ptsOf n).fifo
  if !(s.on (R.PTS_CFG n) F.PTS_CFG_FIFO_EN) then s
  else if l.length < 64 then s.setFifoOf n (l ++ [r])
  else (s.inc (R.PTS_FIFO_STATUS n) F.PTS_FIFO_STATUS_OVERFLOW).raw (R.PTS_RAW n) F.PTS_RAW_FIFO_OVERFLOW

/-- POP removes the oldest record; it is ignored when there is none (R197). -/
def State.popStamp (s : State) (n : Nat) : State :=
  match (s.ptsOf n).fifo with
  | [] => s
  | _ :: l => s.setFifoOf n l

/-- Word `i` of the oldest record; 0 when there is none (R197). -/
def State.stampHead (s : State) (n i : Nat) : Word :=
  match (s.ptsOf n).fifo with
  | [] => 0#32
  | r :: _ => if i = 0 then r.1 else if i = 1 then r.2.1 else if i = 2 then r.2.2.1 else r.2.2.2

/-- A departing frame's one-step request is served, or refused with its stamp in the two-step FIFO (R193 to R195).
`l` are the bytes before the FCS `f`. -/
def State.serveStep (s : State) (n : Nat) (r : OneStep) (l : List Byte) (f : Nat) (t : Stamp)
    (ptp : Option (Nat × Nat × Nat)) (tag : Nat) : State × List Byte × Nat :=
  if s.on (R.PTS_CFG n) F.PTS_CFG_ONESTEP_EN && stepFits r l.length then
    let l' := stepInsert r l t.t
    (s.inc (R.PTS_ONESTEP_CNT n) F.PTS_ONESTEP_CNT_INSERTED, l', carryFcs f l l')
  else
    let s := (s.inc (R.PTS_ONESTEP_CNT n) F.PTS_ONESTEP_CNT_REFUSED).raw (R.PTS_RAW n) F.PTS_RAW_ONESTEP_REFUSED
    (s.pushStamp n (fifoRecord t ptp true tag), l, f)

end Sys2Proof.Machine
end

