-- ==== Sys2Proof/Machine/Ptp.lean ====
section
/-! DEFINITION. The PTP engine and the servo (spec/08_ptp_engine_and_servo.md).  Messages are bytes from the first
byte of the PTP header, in the layout of IEEE Std 1588-2019 (R15, R201). -/

namespace Sys2Proof.Machine

/-- The engine holds `p`. -/
def State.setPtp (s : State) (p : Ptp) : State := { s with ptp := p }

/-- PTP port `n` beyond its registers. -/
def State.pport (s : State) (n : Nat) : PtpPort := Tbl.get PtpPort.reset s.ptp.ports n

/-- The state with PTP port `n` being `x`. -/
def State.setPport (s : State) (n : Nat) (x : PtpPort) : State :=
  s.setPtp { s.ptp with ports := Tbl.set PtpPort.reset s.ptp.ports n x }

/-! ### Port states and settings (R204, R205) -/

abbrev ptpInit : Nat := 0
abbrev ptpFaulty : Nat := 1
abbrev ptpMaster : Nat := 2
abbrev ptpPassive : Nat := 3
abbrev ptpListening : Nat := 4
abbrev ptpUncal : Nat := 5
abbrev ptpSlave : Nat := 6

/-- STATE of PTP port `n`. -/
def State.ptpState (s : State) (n : Nat) : Nat := s.g (R.PTP_Pn_STATUS n) F.PTP_Pn_STATUS_STATE

/-- The state with PTP port `n` in state `st`. -/
def State.setPtpState (s : State) (n st : Nat) : State := s.p (R.PTP_Pn_STATUS n) F.PTP_Pn_STATUS_STATE st

/-- A field of `PTP_Pn_CFG`. -/
def State.pcfg (s : State) (n : Nat) (f : Fld) : Nat := s.g (R.PTP_Pn_CFG n) f

/-- The claim group of port `n`. -/
def State.groupOf (s : State) (n : Nat) : Option Nat :=
  match s.pcfg n F.PTP_Pn_CFG_CLAIM_GRP with
  | 0 => none
  | g + 1 => some g

/-- clockIdentity (R206). -/
def State.clockId (s : State) : Nat := s.pair R.PTP_CLOCK_ID_LO

/-- The port identity of port `n`: clockIdentity with portNumber n + 1 (R206). -/
def State.portIdent (s : State) (n : Nat) : Nat := s.clockId * 65536 + (n + 1)

/-- The port identity of the parent of port `n`; 0 without one. -/
def State.parentOf (s : State) (n : Nat) : Nat :=
  s.pair (R.PTP_Pn_PARENT_LO n) * 65536 + s.g (R.PTP_Pn_PARENT_PORT n) F.PTP_Pn_PARENT_PORT_PORT_NUM

/-- The port sends and answers: the engine runs and the port is in neither INIT nor FAULTY (R205, R206). -/
def State.ptpSends (s : State) (n : Nat) : Bool :=
  s.running && s.on R.PTP_CTRL F.PTP_CTRL_EN && decide (2 ≤ s.ptpState n)

/-- A message or sample discarded by port `n` (R202, R207, R218). -/
def State.ptpDiscard (s : State) (n : Nat) : State := s.inc (R.PTP_Pn_CNT_ERR n) F.PTP_Pn_CNT_ERR_DISCARDED

/-- An offset sample discarded by port `n` (R218). -/
def State.dropSample (s : State) (n : Nat) : State :=
  (s.ptpDiscard n).raw (R.PTP_Pn_RAW n) F.PTP_Pn_RAW_SAMPLE_DISCARD

/-! ### The servo (R222 to R229) -/

abbrev servoIdle : Nat := 0
abbrev servoMeasure : Nat := 1
abbrev servoTrack : Nat := 2
abbrev servoFrozen : Nat := 3

/-- SERVO of `PTP_STATUS`. -/
def State.servo (s : State) : Nat := s.g R.PTP_STATUS F.PTP_STATUS_SERVO

/-- The servo enters state `st`. -/
def State.setServo (s : State) (st : Nat) : State := s.p R.PTP_STATUS F.PTP_STATUS_SERVO st

/-- The servo port; 31 = none. -/
def State.servoPort (s : State) : Nat := s.g R.PTP_STATUS F.PTP_STATUS_SERVO_PORT

/-- A valid offset (R219). -/
def State.ptpValid (s : State) : Bool := s.on R.PTP_STATUS F.PTP_STATUS_VALID

/-- A SERVO record: 0 FROZEN, 1 resumed, 2 servo port changed (R324). -/
def State.servoRec (s : State) (ev : Nat) : State :=
  let r := s.pair R.PTP_RATE_LO
  s.note 0x15 (s.servoPort + s.servo * 32 + ev * 256) (r % 2 ^ 32) (r / 2 ^ 32) 0 0

/-- Steering: reference selection has the PTP candidate as its target in ACQUIRE or LOCKED, and STEER is 0 (R223). -/
def State.steering (s : State) : Bool :=
  decide (s.selState = 1 ∨ s.selState = 2) && decide (s.g R.REF_STATUS F.REF_STATUS_SEL_CAND = 29) &&
    !(s.on R.TSC_CTRL F.TSC_CTRL_STEER)

/-- A gate of R225 begins now. -/
def State.startGate (s : State) : State :=
  s.setPtp { s.ptp with
    gate := [], integs := [(s.tsc.tick, s.ptp.integ)], gateTick := s.tsc.tick, gateRate := s.tsc.rateSum }

/-- The open-loop estimate starts from integ, and the servo measures (R223). -/
def State.servoMeasures (s : State) : State :=
  (s.setPtp { s.ptp with est := s.ptp.integ }).startGate.setServo servoMeasure

/-- The servo tracks from the open-loop estimate (R223, R226). -/
def State.servoTracks (s : State) : State :=
  (s.setPtp { s.ptp with integ := s.ptp.est, first := none }).startGate.setServo servoTrack

/-- The servo moves with steering: MEASURE to TRACK, the first-lock rule first when the selector has left FREE_RUN,
and back to MEASURE when steering ends (R223, R226). -/
def State.servoSteer (s : State) : State :=
  let free := decide (s.selState = 0)
  let s := if free then s.setPtp { s.ptp with armed := true, first := none } else s
  if s.servo = servoMeasure ∧ s.steering then
    if s.ptp.armed && decide (s.selState = 1) && !s.ref.fromHold then
      if s.ptp.first.isSome then s else s.setPtp { s.ptp with first := some [] }
    else s.servoTracks
  else if (s.servo = servoTrack ∨ s.servo = servoFrozen) ∧ !s.steering then s.servoMeasures
  else s

/-- The valid offset falls: the servo enters IDLE and keeps integ (R219, R223). -/
def State.loseValid (s : State) : State :=
  let s := if s.ptpValid then (s.p R.PTP_STATUS F.PTP_STATUS_VALID 0).raw R.PTP_RAW F.PTP_RAW_VALID_LOST else s
  (s.setPtp { s.ptp with first := none }).setServo servoIdle

/-- The candidate is disqualified at once, and a hold-off that runs is broken off (R111, R112, R118, R229). -/
def State.disqualify (s : State) (k : Nat) : State :=
  let c := s.cand k
  if c.qual || c.hold then
    let s := (s.setCand k { c with qual := false, hold := false }).wtrReset k
    let s := if c.qual then (s.raw R.REF_RAW F.REF_RAW_DISQUAL).selRec s.selState 7 k 0 else s
    s.showCand k
  else s

/-- Port `n` may be the servo port: in SLAVE and not a loser of its claim group (R216, R222). -/
def State.servoEligible (s : State) (n : Nat) : Bool :=
  decide (s.ptpState n = ptpSlave) &&
    ((s.groupOf n).isNone || s.on (R.PTP_Pn_STATUS n) F.PTP_Pn_STATUS_WINNER)

/-- The port that R222 chooses: lowest SLAVE_PRIO, then lowest number. -/
def State.bestServo (s : State) : Nat :=
  let l := (List.range 24).filter s.servoEligible
  match l with
  | [] => 31
  | x :: r => r.foldl (fun b n =>
      if s.pcfg n F.PTP_Pn_CFG_SLAVE_PRIO < s.pcfg b F.PTP_Pn_CFG_SLAVE_PRIO then n else b) x

/-- The flags octet of an Announce from the FLAGS layout of `PTP_TX_TIME`, or back: the bits in reverse order. -/
def flagSwap (f : Nat) : Nat := (List.range 6).foldl (fun m i => if maskBit f (5 - i) then m + 2 ^ i else m) 0

/-- The TAI−UTC offset and the flags of the servo port's last accepted Announce are shown (R210). -/
def State.showUtc (s : State) (n : Nat) : State :=
  let m := (s.pport n).ann
  if s.servoPort = n ∧ m ≠ [] then
    (s.p R.PTP_UTC F.PTP_UTC_RX_OFFSET (beAt m 44 2)).p R.PTP_STATUS F.PTP_STATUS_RX_FLAGS (flagSwap (beAt m 7 1 % 64))
  else s

/-- `k` × 2^LOG_SYNC s of port `n` in ticks (R219). -/
def State.syncTicks (s : State) (n k : Nat) : Nat :=
  let l := sx 8 (s.g (R.PTP_Pn_INTV n) F.PTP_Pn_INTV_LOG_SYNC)
  if l < 0 then k * 500000000 / 2 ^ (-l).toNat else k * 500000000 * 2 ^ l.toNat

/-- A valid offset begins when the servo port is in SLAVE and its last accepted sample is less than four Sync intervals
old; the servo leaves IDLE (R219, R223). -/
def State.formValid (s : State) : State :=
  let n := s.servoPort
  match (s.pport n).last with
  | none => s
  | some t =>
    if n < 24 ∧ !s.ptpValid ∧ s.ptpState n = ptpSlave ∧ s.tsc.tick - t < s.syncTicks n 4 then
      let s := (s.p R.PTP_STATUS F.PTP_STATUS_VALID 1).setPtp { s.ptp with last := some t }
      if s.servo = servoIdle then s.servoMeasures else s
    else s

/-- The servo port becomes `n` (31: none). -/
def State.setServoPort (s : State) (n : Nat) : State :=
  let old := s.servoPort
  let s := if old < 24 then s.p (R.PTP_Pn_STATUS old) F.PTP_Pn_STATUS_SERVO 0 else s
  let s := if n < 24 then s.p (R.PTP_Pn_STATUS n) F.PTP_Pn_STATUS_SERVO 1 else s
  let s := (s.p R.PTP_STATUS F.PTP_STATUS_SERVO_PORT n).raw R.PTP_RAW F.PTP_RAW_SERVO_CHANGE
  ((s.setPtp { s.ptp with based := false }).showUtc n).servoRec 2

/-- A master change (R229): the valid offset falls, the PTP candidate is disqualified, and without an eligible
SLAVE port fault code 0x01 is queued.  `old` is the last servo port. -/
def State.masterChange (s : State) (old : Nat) : State :=
  let s := (s.loseValid.disqualify 29).setPtp { s.loseValid.ptp with last := none }
  if s.bestServo = 31 then s.fault 7 1 old (tSec s.now % 2 ^ 32) else s

/-- The servo port is chosen when there is none, and kept while it stays eligible (R222, R229). -/
def State.chooseServo (s : State) : State :=
  let old := s.servoPort
  if old = 31 then
    if s.bestServo = 31 then s else (s.setServoPort s.bestServo).formValid
  else if s.servoEligible old then s
  else ((s.setServoPort s.bestServo).masterChange old).formValid

/-- Tight confirmation of port `n` (R220). -/
def State.tightEval (s : State) (n : Nat) : State :=
  let tight := match (s.pport n).claim with | some (_, t, _) => t | none => false
  let ok := decide (s.pcfg n F.PTP_Pn_CFG_PROFILE = 1) && decide (s.ptpState n = ptpSlave) && tight &&
    decide (s.pdState n false = 2)
  let was := s.on (R.PTP_Pn_STATUS n) F.PTP_Pn_STATUS_TIGHT_OK
  if ok = was then s
  else
    let s := s.pb (R.PTP_Pn_STATUS n) F.PTP_Pn_STATUS_TIGHT_OK ok
    let s := if s.servoPort = n then s.setPtp { s.ptp with based := false } else s
    if ok then s else s.raw (R.PTP_Pn_RAW n) F.PTP_Pn_RAW_TIGHT_FALLBACK

/-! ### Claim groups (R215, R216, R228) -/

/-- Port `n` competes in group `g` (R215). -/
def State.competes (s : State) (g n : Nat) : Bool :=
  decide (s.groupOf n = some g) && decide (s.ptpState n = ptpUncal ∨ s.ptpState n = ptpSlave) &&
    (match (s.pport n).claim with
      | some (paired, _, id) => paired && decide (id = s.g (R.PTP_CLAIM_GRPg g) F.PTP_CLAIM_GRPg_PAIR_ID)
      | none => false)

/-- The winner of group `g`: the higher claim, then the lower port number; 31 = none (R215). -/
def State.winnerOf (s : State) (g : Nat) : Nat :=
  match (List.range 24).filter (s.competes g) with
  | [] => 31
  | x :: r => r.foldl (fun b n => if (s.reg (R.PTP_Pn_CLAIM b)).toNat < (s.reg (R.PTP_Pn_CLAIM n)).toNat then n else b) x

/-- Group `g` is evaluated anew (R215, R228). -/
def State.groupEval (s : State) (g : Nat) : State :=
  let old := s.g (R.PTP_CLAIM_GRPg g) F.PTP_CLAIM_GRPg_WIN_PORT
  let oldClaim := (s.reg (R.PTP_CLAIM_WINg g)).toNat
  let new := s.winnerOf g
  let claim := if new = 31 then 0 else (s.reg (R.PTP_Pn_CLAIM new)).toNat
  let s := s.setRegN (R.PTP_CLAIM_WINg g) claim
  if new = old then s
  else
    let s := (s.p (R.PTP_CLAIM_GRPg g) F.PTP_CLAIM_GRPg_WIN_PORT new).p (R.PTP_CLAIM_GRPg g)
      F.PTP_CLAIM_GRPg_WIN_VALID (b2n (new != 31))
    let s := if old < 24 then s.p (R.PTP_Pn_STATUS old) F.PTP_Pn_STATUS_WINNER 0 else s
    let s := if new < 24 then s.p (R.PTP_Pn_STATUS new) F.PTP_Pn_STATUS_WINNER 1 else s
    let s := (s.raw R.PTP_RAW F.PTP_RAW_WINNER_CHANGE).note 0x26 g claim (new + old * 256) 0 0
    let s := if new = 31 then (s.raw R.PTP_RAW F.PTP_RAW_NO_WINNER).fault 7 2 g oldClaim else s
    if s.servoPort = old ∧ old ≠ 31 ∧ new < 24 ∧ s.ptpState new = ptpSlave then (s.setServoPort new).formValid else s

/-- What follows a change of port `n`: its group, its tight confirmation, the servo port, and the servo. -/
def State.ptpSettle (s : State) (n : Nat) : State :=
  let s := match s.groupOf n with | some g => s.groupEval g | none => s
  ((s.tightEval n).chooseServo).servoSteer

/-! ### Port state changes (R205) -/

/-- The parent of port `n` is cleared (R205). -/
def State.clearParent (s : State) (n : Nat) : State :=
  let s := (s.setPair (R.PTP_Pn_PARENT_LO n) 0).setRegN (R.PTP_Pn_PARENT_PORT n) 0
  let s := s.p (R.PTP_Pn_STATUS n) F.PTP_Pn_STATUS_CLAIM_VALID 0
  s.setPport n { s.pport n with claim := none, wait := none, syncs := [], dreq := none, last := none }

/-- Port `n` stops sending (R205). -/
def State.stopPort (s : State) (n : Nat) : State :=
  s.setPport n { s.pport n with dresp := [], pdresp := [], follow := [], pdreq := none }

/-- INIT ends when the engine runs, the port has a role, clockIdentity is set and the port has block lock (R205). -/
def State.leaveInit (s : State) (n : Nat) : State :=
  let role := s.pcfg n F.PTP_Pn_CFG_ROLE
  if s.ptpState n = ptpInit ∧ s.on R.PTP_CTRL F.PTP_CTRL_EN ∧ role ≠ 0 ∧ s.clockId ≠ 0 ∧
      s.on (R.PTS_STATUS n) F.PTS_STATUS_BLOCK_LOCK then
    s.setPtpState n (if role = 1 then ptpMaster else if role = 3 then ptpPassive else ptpListening)
  else s

/-- Port `n` returns to INIT (R205). -/
def State.toInit (s : State) (n : Nat) : State :=
  ((((s.setPtpState n ptpInit).stopPort n).clearParent n).leaveInit n).ptpSettle n

/-- Block lock of port `n` is lost (R205). -/
def State.ptpLockLost (s : State) (n : Nat) : State :=
  if s.ptpState n = ptpInit then s
  else (((s.setPtpState n ptpFaulty).stopPort n).clearParent n).ptpSettle n

/-- Block lock of port `n` is regained (R205). -/
def State.ptpLockGained (s : State) (n : Nat) : State :=
  let s := if s.ptpState n = ptpFaulty then s.setPtpState n ptpInit else s
  (s.leaveInit n).ptpSettle n

/-- LD_VALID of port `n` may have fallen (R205). -/
def State.ptpLdCheck (s : State) (n : Nat) : State :=
  if s.ptpState n = ptpSlave ∧ !(s.on (R.PTS_STATUS n) F.PTS_STATUS_LD_VALID) then
    (s.setPtpState n ptpUncal).ptpSettle n
  else s

/-- What a write of `PTP_CTRL` over the value `old` triggers (R205, R223). -/
def State.ptpCtrlAct (s : State) (_old : Word) : State :=
  if s.on R.PTP_CTRL F.PTP_CTRL_EN then (List.range 24).foldl (fun s n => (s.leaveInit n).ptpSettle n) s
  else
    let s := (List.range 24).foldl (fun s n => s.toInit n) s
    (s.setPtp { s.ptp with integ := ⟨0, 0⟩, est := ⟨0, 0⟩, first := none }).setServo servoIdle

/-- What a write of `PTP_Pn_CFG` over the value `old` triggers (R205, R215, R222). -/
def State.ptpCfgAct (s : State) (n : Nat) (old : Word) : State :=
  let new := s.reg (R.PTP_Pn_CFG n)
  let moved := [F.PTP_Pn_CFG_ROLE, F.PTP_Pn_CFG_PROFILE, F.PTP_Pn_CFG_TRANSPORT, F.PTP_Pn_CFG_DELAY_MECH].any
    (fun f => f.get old != f.get new)
  let s := if moved then s.toInit n else s
  let s := if F.PTP_Pn_CFG_CLAIM_GRP.get old = F.PTP_Pn_CFG_CLAIM_GRP.get new then s
    else (List.range 4).foldl State.groupEval s
  s.ptpSettle n

/-- What a write of `PTP_CLOCK_ID` triggers (R205). -/
def State.clockIdAct (s : State) : State := (List.range 24).foldl (fun s n => (s.leaveInit n).ptpSettle n) s

/-! ### Messages -/

/-- messageType of a message. -/
def msgType (m : List Byte) : Nat := beAt m 0 1 % 16

/-- The shortest message of a type (R202). -/
def msgMin (ty : Nat) : Nat :=
  if ty = 0 ∨ ty = 1 ∨ ty = 8 then 44
  else if ty = 2 ∨ ty = 3 ∨ ty = 9 ∨ ty = 10 then 54
  else if ty = 11 then 64
  else if ty = 12 then 44
  else if ty = 13 then 48
  else 34

/-- sourcePortIdentity of a message: clockIdentity and portNumber. -/
def msgSource (m : List Byte) : Nat := beAt m 20 10

/-- sequenceId. -/
def msgSeq (m : List Byte) : Nat := beAt m 30 2

/-- correctionField, in Tick64 units. -/
def msgCorr (m : List Byte) : Int := sx 64 (beAt m 8 8)

/-- The correctionField says that the true correction does not fit (R217). -/
def msgNoCorr (m : List Byte) : Bool := beAt m 8 8 == 0x7FFFFFFFFFFFFFFF

/-- The twoStepFlag. -/
def msgTwoStep (m : List Byte) : Bool := bitsOf (beAt m 6 1) 1 1 == 1

/-- The 10-byte timestamp at offset 34. -/
def msgTime (m : List Byte) : T96 := mkT96 (beAt m 34 6) (beAt m 40 4) 0

/-- requestingPortIdentity of a response. -/
def msgRequester (m : List Byte) : Nat := beAt m 44 10

/-- The message is one that port `n` consumes: its role is not DISABLED and the domain is the engine's (R202). -/
def State.consumes (s : State) (n : Nat) (m : List Byte) : Bool :=
  decide (s.pcfg n F.PTP_Pn_CFG_ROLE ≠ 0) && decide (beAt m 4 1 = s.g R.PTP_CTRL F.PTP_CTRL_DOMAIN)

/-- A consumed message is well-formed: versionPTP 2 and long enough (R202). -/
def msgOk (ty : Nat) (m : List Byte) : Bool := decide (beAt m 1 1 % 16 = 2) && decide (msgMin ty ≤ m.length)

/-- A consumed message of type `ty` on port `n`: discarded and counted when not well-formed, else given to `f`
(R202). -/
def State.onMessage (s : State) (n ty : Nat) (m : List Byte) (f : State → State) : State :=
  if s.consumes n m then (if msgOk ty m then f s else s.ptpDiscard n) else s

/-- A header with its body, sent by port `n` (R201, R206). -/
def State.message (s : State) (n ty : Nat) (flags : Nat) (corr : Int) (seq logInt : Nat) (body : List Byte) :
    List Byte :=
  let ctl := if ty = 0 then 0 else if ty = 1 then 1 else if ty = 8 then 2 else if ty = 9 then 3 else 5
  beBytes 1 ty ++ beBytes 1 0x12 ++ beBytes 2 (34 + body.length) ++
    beBytes 1 (s.g R.PTP_CTRL F.PTP_CTRL_DOMAIN) ++ beBytes 1 0 ++ beBytes 2 flags ++ beBytes 8 (enc 64 corr) ++
    beBytes 4 0 ++ beBytes 10 (s.portIdent n) ++ beBytes 2 seq ++ beBytes 1 ctl ++ beBytes 1 logInt ++ body

/-- A 10-byte timestamp. -/
def stampBytes (t : T96) : List Byte := beBytes 6 (tSec t) ++ beBytes 4 (tNs t)

/-- A peer-delay message (R206). -/
def isPeer (ty : Nat) : Bool := decide (ty = 2 ∨ ty = 3 ∨ ty = 10)

/-- A UDP datagram of a PTP message: port 319 for event messages, 320 for the others; `pseudo` is the pseudo-header without
its length (R201). -/
def ptpUdp (m pseudo : List Byte) : List Byte :=
  let p := if msgType m < 4 then 319 else 320
  let head := beBytes 2 p ++ beBytes 2 p ++ beBytes 2 (8 + m.length)
  let c := inetSum (pseudo ++ beBytes 2 (8 + m.length) ++ head ++ beBytes 2 0 ++ m)
  head ++ beBytes 2 (if c = 0 then 65535 else c) ++ m

/-- The IPv4 packet in which port `n` sends message `m` (R201). -/
def ptpIp4 (n : Nat) (m : List Byte) : List Byte :=
  let src := beBytes 4 (Config.portIp4 n).toNat
  let dst := beBytes 4 (if isPeer (msgType m) then 0xE000006B else 0xE0000181)
  let front := beBytes 1 0x45 ++ beBytes 1 (Config.ipTos n).toNat ++ beBytes 2 (28 + m.length) ++
    beBytes 2 (Config.ipIdent n).toNat ++ beBytes 2 0 ++ beBytes 1 (Config.ipTtl n).toNat ++ beBytes 1 17
  front ++ beBytes 2 (inetSum (front ++ beBytes 2 0 ++ src ++ dst)) ++ src ++ dst ++ ptpUdp m (src ++ dst ++ beBytes 2 17)

/-- The IPv6 packet in which port `n` sends message `m` (R201). -/
def ptpIp6 (n : Nat) (m : List Byte) : List Byte :=
  let src := beBytes 16 (Config.portIp6 n).toNat
  let dst := beBytes 16 (if isPeer (msgType m) then 0xFF02000000000000000000000000006B
    else 0xFF0E0000000000000000000000000181)
  beBytes 4 (6 * 2 ^ 28 + (Config.ipFlow n).toNat) ++ beBytes 2 (8 + m.length) ++ beBytes 1 17 ++
    beBytes 1 (Config.ipHops n).toNat ++ src ++ dst ++ ptpUdp m (src ++ dst ++ beBytes 2 17)

/-- The destination address of message type `ty` on transport `tr` (R201, R206). -/
def State.ptpDest (s : State) (n tr ty : Nat) : Nat :=
  let peer := isPeer ty
  if tr = 1 then (if peer then 0x01005E00006B else 0x01005E000181)
  else if tr = 2 then (if peer then 0x33330000006B else 0x333300000181)
  else if peer || s.pcfg n F.PTP_Pn_CFG_ALL_NONFWD == 1 then 0x0180C200000E else 0x011B19000000

/-- The offset of a message in the frame that carries it (R201). -/
def State.ptpAt (s : State) (n : Nat) : Nat :=
  let tr := s.pcfg n F.PTP_Pn_CFG_TRANSPORT
  (if s.pcfg n F.PTP_Pn_CFG_VLAN_EN = 1 then 18 else 14) + (if tr = 1 then 28 else if tr = 2 then 48 else 0)

/-- The frame in which port `n` sends message `m`, padded, without its FCS: transport, tag and address of the port (R201,
R206). -/
def State.ptpFrame (s : State) (n : Nat) (m : List Byte) : List Byte :=
  let tr := s.pcfg n F.PTP_Pn_CFG_TRANSPORT
  let tag := if s.pcfg n F.PTP_Pn_CFG_VLAN_EN = 1 then
      beBytes 2 0x8100 ++ beBytes 2 (s.pcfg n F.PTP_Pn_CFG_VLAN_PCP * 2 ^ 13 + s.pcfg n F.PTP_Pn_CFG_VLAN_VID)
    else []
  let rest := if tr = 1 then beBytes 2 0x0800 ++ ptpIp4 n m else if tr = 2 then beBytes 2 0x86DD ++ ptpIp6 n m
    else beBytes 2 0x88F7 ++ m
  padTo 60 (beBytes 6 (s.ptpDest n tr (msgType m)) ++ beBytes 6 (Config.portMac n).toNat ++ tag ++ rest)

/-- The message leaves port `n` (R201, R206). -/
def State.sendPtp (s : State) (n : Nat) (m : List Byte) : State :=
  s.emit (.frame n (withFcs (s.ptpFrame n m)))

/-- The next sequenceId of port `n` for type `ty` (R206). -/
def State.nextSeq (s : State) (n ty : Nat) : Nat := Tbl.get 0 s.ptp.seqs (16 * n + ty)

/-- That sequenceId has been used. -/
def State.useSeq (s : State) (n ty : Nat) : State :=
  s.setPtp { s.ptp with seqs := Tbl.set 0 s.ptp.seqs (16 * n + ty) ((s.nextSeq n ty + 1) % 65536) }

/-- A message of port `n` that carries a departure stamp leaves in one step: the stamp is inserted with the UDP checksum
and the FCS kept up, or the request is refused (R193 to R195).  `op`: the operation, a stamp going to offset 34 of the
message. -/
def State.sendOneStep (s : State) (n : Nat) (op : StepOp) (t : Stamp) (m : List Byte) : State :=
  let f := s.ptpFrame n m
  let o := s.ptpAt n
  let sum := if s.pcfg n F.PTP_Pn_CFG_TRANSPORT = 1 ∨ s.pcfg n F.PTP_Pn_CFG_TRANSPORT = 2 then some (o - 2) else none
  let r := s.serveStep n ⟨op, o + 8, sum⟩ f (fcsOf f) t (some (msgSeq m, msgType m, beAt m 4 1)) 0
  r.1.emit (.frame n (r.2.1 ++ leBytes 4 r.2.2))

/-! ### Sending (R206, R207, R209, R213) -/

/-- Sync leaves a MASTER port (R206). -/
def State.syncTx (s : State) (n : Nat) (x : StampIn) : State :=
  if s.ptpSends n ∧ s.ptpState n = ptpMaster then
    let t := s.txStamp n x
    let q := s.nextSeq n 0
    let s := s.useSeq n 0
    let log := s.g (R.PTP_Pn_INTV n) F.PTP_Pn_INTV_LOG_SYNC
    if s.pcfg n F.PTP_Pn_CFG_TWO_STEP = 1 then
      let s := s.sendPtp n (s.message n 0 0x0200 0 q log (beBytes 10 0))
      s.setPport n { s.pport n with follow := (s.pport n).follow ++ [⟨false, q, 0, 0, t⟩] }
    else s.sendOneStep n (.stamp (s.ptpAt n + 34)) t (s.message n 0 0 0 q log (beBytes 10 0))
  else s

/-- The oldest follow-up that waits on port `n` leaves (R206). -/
def State.followTx (s : State) (n : Nat) : State :=
  match (s.pport n).follow with
  | [] => s
  | f :: rest =>
    if s.ptpSends n then
      let corr := f.corr + tFrac f.t.t
      let s := s.setPport n { s.pport n with follow := rest }
      if f.pdelay then s.sendPtp n (s.message n 10 0 corr f.seq 0x7F (stampBytes f.t.t ++ beBytes 10 f.ident))
      else s.sendPtp n (s.message n 8 0 corr f.seq (s.g (R.PTP_Pn_INTV n) F.PTP_Pn_INTV_LOG_SYNC) (stampBytes f.t.t))
    else s

/-- This unit is part of a pair (R213). -/
def State.paired (s : State) : Bool := s.on R.RUT_CTRL F.RUT_CTRL_PAIR_EN

/-- The claim TLV of port `n` (R211 to R213). -/
def State.claimTlv (s : State) (n : Nat) : List Byte :=
  let pair := s.paired
  let tight := decide (s.pcfg n F.PTP_Pn_CFG_PROFILE = 1) && decide (s.pdState n true = 2)
  let body := beBytes 4 (if pair then (s.reg R.RUT_CLAIM).toNat else 0) ++
    beBytes 2 (if pair then s.rut.pairId else 0) ++ beBytes 1 (b2n pair * 128 + b2n tight * 64) ++
    beBytes 1 0
  if pair || decide (s.pcfg n F.PTP_Pn_CFG_PROFILE = 1) then
    beBytes 2 3 ++ beBytes 2 16 ++ beBytes 3 (s.g R.PTP_CLAIM_ORG F.PTP_CLAIM_ORG_ORG_ID) ++ beBytes 3 1 ++ body ++
      beBytes 2 (crc16Fold 0x1021 0xFFFF body)
  else []

/-- The clockClass sent: the own or followed one, replaced in holdover and while Unlocked (R209). -/
def State.classSent (s : State) (c : Nat) : Nat :=
  match s.g R.REF_STATUS F.REF_STATUS_COND with
  | 1 => c
  | 0 => s.g R.PTP_TX_HOLD F.PTP_TX_HOLD_CLASS_FREE
  | _ => s.g R.PTP_TX_HOLD F.PTP_TX_HOLD_CLASS_HOLD

/-- The Announce of port `n` (R209, R211). -/
def State.announce (s : State) (n : Nat) : List Byte :=
  let a := (s.pport s.servoPort).ann
  let log := s.g (R.PTP_Pn_INTV n) F.PTP_Pn_INTV_LOG_ANN
  let follow := s.on R.PTP_CTRL F.PTP_CTRL_FOLLOW && decide (s.servoPort < 24) &&
    decide (s.g R.REF_STATUS F.REF_STATUS_COND = 1)
  let q := s.nextSeq n 11
  if follow then
    let body := beBytes 10 0 ++ slice a 44 2 ++ beBytes 1 0 ++ slice a 47 1 ++
      beBytes 1 (s.classSent (beAt a 48 1)) ++ slice a 49 12 ++ beBytes 2 (beAt a 61 2 + 1) ++ slice a 63 1
    s.message n 11 (beAt a 7 1 % 64) 0 q log (body ++ s.claimTlv n)
  else
    let qf := s.g R.PTP_TX_QUAL
    let body := beBytes 10 0 ++ beBytes 2 (s.g R.PTP_UTC F.PTP_UTC_TX_OFFSET) ++ beBytes 1 0 ++
      beBytes 1 (qf F.PTP_TX_QUAL_PRIORITY1) ++ beBytes 1 (s.classSent (qf F.PTP_TX_QUAL_CLASS)) ++
      beBytes 1 (qf F.PTP_TX_QUAL_ACCURACY) ++ beBytes 2 (s.g R.PTP_TX_TIME F.PTP_TX_TIME_VARIANCE) ++
      beBytes 1 (qf F.PTP_TX_QUAL_PRIORITY2) ++ beBytes 8 s.clockId ++ beBytes 2 0 ++
      beBytes 1 (s.g R.PTP_TX_TIME F.PTP_TX_TIME_TIME_SOURCE)
    s.message n 11 (flagSwap (s.g R.PTP_TX_TIME F.PTP_TX_TIME_FLAGS)) 0 q log (body ++ s.claimTlv n)

/-- A MASTER port sends Announce (R206, R209). -/
def State.announceTx (s : State) (n : Nat) : State :=
  if s.ptpSends n ∧ s.ptpState n = ptpMaster then
    ((s.setPport n { s.pport n with told := (s.reg R.RUT_CLAIM).toNat }).sendPtp n (s.announce n)).useSeq n 11
  else s

/-- A SLAVE port sends Delay_Req (R206, R217). -/
def State.delayReqTx (s : State) (n : Nat) (x : StampIn) : State :=
  if s.ptpSends n ∧ s.pcfg n F.PTP_Pn_CFG_ROLE = 2 ∧ s.pcfg n F.PTP_Pn_CFG_DELAY_MECH = 0 then
    let t := s.txStamp n x
    let q := s.nextSeq n 1
    let s := s.sendPtp n (s.message n 1 0 0 q 0x7F (beBytes 10 0))
    let u := s.pport n
    (s.setPport n { u with dreq := some ⟨q, t, s.tsc.breaks⟩, syncs := u.syncs.take 1 }).useSeq n 1
  else s

/-- A port using peer delay sends Pdelay_Req (R204, R206). -/
def State.pdelayReqTx (s : State) (n : Nat) (x : StampIn) : State :=
  if s.ptpSends n ∧ s.pcfg n F.PTP_Pn_CFG_DELAY_MECH = 1 then
    let t := s.txStamp n x
    let q := s.nextSeq n 2
    let s := s.sendPtp n (s.message n 2 0 0 q 0x7F (beBytes 20 0))
    (s.setPport n { s.pport n with pdreq := some ⟨q, t, s.tsc.breaks, none⟩ }).useSeq n 2
  else s

/-- The Delay_Resp that has waited longest leaves (R206, R207): receiveTimestamp, and the request's correction less the
fraction. -/
def State.delayRespTx (s : State) (n : Nat) : State :=
  match (s.pport n).dresp with
  | [] => s
  | r :: rest =>
    if s.ptpSends n then
      let s := s.setPport n { s.pport n with dresp := rest }
      s.sendPtp n (s.message n 9 0 (r.corr - tFrac r.t.t) r.seq (s.g (R.PTP_Pn_INTV n) F.PTP_Pn_INTV_LOG_DELAY)
        (stampBytes r.t.t ++ beBytes 10 r.ident))
    else s

/-- The Pdelay_Resp that has waited longest leaves (R206, R207). -/
def State.pdelayRespTx (s : State) (n : Nat) (x : StampIn) : State :=
  match (s.pport n).pdresp with
  | [] => s
  | r :: rest =>
    if s.ptpSends n then
      let t := s.txStamp n x
      let s := s.setPport n { s.pport n with pdresp := rest }
      if s.pcfg n F.PTP_Pn_CFG_TWO_STEP = 1 then
        let s := s.sendPtp n (s.message n 3 0x0200 (-(tFrac r.t.t : Int)) r.seq 0x7F
          (stampBytes r.t.t ++ beBytes 10 r.ident))
        s.setPport n { s.pport n with follow := (s.pport n).follow ++ [⟨true, r.seq, r.ident, r.corr, t⟩] }
      else s.sendOneStep n (.residence (tickOf r.t.t)) t
        (s.message n 3 0 r.corr r.seq 0x7F (beBytes 10 0 ++ beBytes 10 r.ident))
    else s

/-! ### The servo update (R221, R224 to R227) -/

/-- The bandwidth of a code of R127, in Hz. -/
def bandwidth (c : Nat) : Dbl :=
  let l := [1, 2, 5, 10, 20, 50, 100, 200, 500, 1000, 2000, 5000, 10000]
  dblOf ((l.getD c 10000 : Nat) : Int) 1000

/-- RATE from a fractional frequency (R224). -/
def rateOf (y : Dbl) : Int := clampRate (-(dblRound y 49))

/-- The servo's RATE is `r`: `PTP_RATE` shows it, and the servo supplies it (R223, R224), its change held after a clamped
step (R122), and unless the holdover model still supplies RATE (R130). -/
def State.servoRate (s : State) (r : Int) : State :=
  let t := s.setPairI R.PTP_RATE_LO r
  if s.ref.modelRate then t else t.supplyRate (s.guardClamp r)

/-- One servo update with input `o` and interval `dt` (R224); the error is that against the target, of which the host steps
held in `TSC_OFFSET_ACC` are part (R80, R227). -/
def State.servoUpdate (s : State) (o : Int) (dt : Dbl) (code : Nat) : State :=
  let one := dblOf 1 1
  let b := bandwidth code
  let lim := dblDiv one (dblMul (dblOf 20 1) dt)
  let bw := if dt.m = 0 ∨ dblLe b lim then b else lim
  let two := dblOf 2 1
  let wn := dblMul (dblMul two (dblOf 3141592653589793 (10 ^ 15))) bw
  let e := dblDiv (dblOf (o - s.pairI R.TSC_OFFSET_ACC_LO) 1) (dblOf 65536000000000 1)
  let integ := dblAdd s.ptp.integ (dblMul (dblMul (dblMul wn wn) e) dt)
  let y := dblAdd (dblMul (dblMul two wn) e) integ
  let s := s.setPtp { s.ptp with integ := integ, integs := (s.tsc.tick, integ) :: s.ptp.integs }
  (s.setPairI R.PTP_OFFSET_LO o).servoRate (rateOf y)

/-- The servo port is tight-confirmed. -/
def State.servoTight (s : State) : Bool :=
  decide (s.servoPort < 24) && s.on (R.PTP_Pn_STATUS s.servoPort) F.PTP_Pn_STATUS_TIGHT_OK

/-- Every 1 ms, a tight-confirmed servo port forms its offset from the phase (R221). -/
def State.tightTick (s : State) : State :=
  if s.servoTight && s.ptp.based && decide (s.servo = servoTrack) then
    let n := s.servoPort
    let o := s.ptp.oRef + (s.rxPhase n - s.ptp.pRef) - (s.pairI (R.PTS_LD_IN_LO n) - s.ptp.dRef)
    s.servoUpdate (satS 64 o) (dblOf 1 1000) (s.g R.PTP_SERVO_CFG F.PTP_SERVO_CFG_BW_TIGHT)
  else s

/-- A phase step of `delta` moves o_ref, and the offsets that the gate and the first-lock mean hold, as it moves every
later sample (R221, R227). -/
def State.ptpStep (s : State) (delta : Int) : State :=
  s.setPtp { s.ptp with
    oRef := s.ptp.oRef + delta
    gate := s.ptp.gate.map (fun x => (x.1, x.2 + delta))
    first := s.ptp.first.map (fun l => l.map (· + delta)) }

/-- A message offset of a tight-confirmed servo port filters o_ref, or rebases the references; `p` and `d` were taken at its
t2 (R221). -/
def State.tightSample (s : State) (o p d : Int) : State :=
  if s.ptp.based then
    let r := o - (s.ptp.oRef + (p - s.ptp.pRef) - (d - s.ptp.dRef))
    s.setPtp { s.ptp with oRef := s.ptp.oRef + (r + 8) / 16 }
  else s.setPtp { s.ptp with oRef := o, pRef := p, dRef := d, based := true }

/-- The first-lock rule applies to the samples taken (R226); `master` is the master's time now. -/
def State.firstLock (s : State) (l : List Int) (master : T96) : State :=
  let m := divRound (l.foldl (· + ·) 0) l.length
  let small : Int := s.g R.PTP_SERVO_CFG F.PTP_SERVO_CFG_STEP_NS * 65536
  let s := if |m| ≤ small then s
    else if |m| ≤ 32768000000000 then s.internalStep 4 (.rel (-m))
    else (s.internalStep 4 (.set master)).fault 7 3 s.servoPort (tSec master % 2 ^ 32)
  let s := (s.p R.PTP_STATUS F.PTP_STATUS_FIRST_DONE 1).raw R.PTP_RAW F.PTP_RAW_FIRST_STEP
  (s.setPtp { s.ptp with armed := false }).servoTracks

/-- An accepted offset sample of the servo port (R219, R221, R223, R226). -/
def State.servoSample (s : State) (o p d : Int) (master : T96) : State :=
  let dt := match s.ptp.last with
    | none => dblOf 0 1
    | some t => dblOf ((s.tsc.tick - t : Nat) : Int) 500000000
  let s := (s.setPtp { s.ptp with last := some s.tsc.tick }).offsetSeen 29 (-o)
  let s := s.p R.PTP_STATUS F.PTP_STATUS_VALID 1
  let s := (if s.servo = servoIdle then s.servoMeasures else s).servoSteer
  let s := if s.servoTight then s.tightSample o p d else s
  if s.servo = servoMeasure then
    let s := s.setPtp { s.ptp with gate := (s.tsc.tick, o) :: s.ptp.gate }
    match s.ptp.first with
    | none => s
    | some l =>
      let l := l ++ [o]
      if s.g R.PTP_SERVO_CFG F.PTP_SERVO_CFG_FIRST_N ≤ l.length then s.firstLock l master
      else s.setPtp { s.ptp with first := some l }
  else
    let s := if s.servo = servoFrozen then (s.setServo servoTrack).servoRec 1 else s
    if s.servoTight then s else s.servoUpdate o dt (s.g R.PTP_SERVO_CFG F.PTP_SERVO_CFG_BW_STD)

/-- No sample for two Sync intervals: the servo freezes at RATE = integ (R223). -/
def State.servoFreeze (s : State) : State :=
  if s.servo = servoTrack then
    let s := (s.setServo servoFrozen).raw R.PTP_RAW F.PTP_RAW_FROZEN
    (s.servoRate (rateOf s.ptp.integ)).servoRec 0
  else s

/-- The least-squares slope of the gate's offsets, in Tick64 units per tick (R225). -/
def gateSlope (l : List (Nat × Int)) : Option Rat :=
  let n : Rat := (l.length : Nat)
  let st : Rat := l.foldl (fun a x => a + (x.1 : Nat)) 0
  let so : Rat := l.foldl (fun a x => a + x.2) 0
  let stt : Rat := l.foldl (fun a x => a + (x.1 : Nat) * (x.1 : Nat)) 0
  let sto : Rat := l.foldl (fun a x => a + (x.1 : Nat) * x.2) 0
  let d := n * stt - st * st
  if l.length < 2 ∨ d = 0 then none else some ((n * sto - st * so) / d)

/-- The value of a binary64 number. -/
def dblRat (x : Dbl) : Rat := let p := dblFrac x; (p.1 : Rat) / (p.2 : Nat)

/-- The sum of the values of `l`, newest first, each times the ticks for which it held up to `now`. -/
def heldSum : Nat → List (Nat × Dbl) → Rat
  | _, [] => 0
  | now, (t, v) :: r => dblRat v * (now - t : Nat) + heldSum t r

/-- The mean of integ over the present gate (R225). -/
def State.integMean (s : State) : Rat :=
  let n := s.tsc.tick - s.ptp.gateTick
  if n = 0 then dblRat s.ptp.integ else heldSum s.tsc.tick s.ptp.integs / n

/-- The open-loop frequency of the present gate: the slope of its offsets less the mean applied RATE (R225). -/
def State.gateFreq (s : State) : Option Rat :=
  (gateSlope s.ptp.gate).map fun q =>
    q / 131072 - ((s.tsc.rateSum - s.ptp.gateRate : Int) : Rat) / (s.tsc.tick - s.ptp.gateTick : Nat) / 2 ^ 49

/-- The PTP candidate's frequency result at the end of a 1 s gate, in 10^-12, and the next gate (R225). -/
def State.ptpGate (s : State) : Int × State :=
  let est : Dbl := if s.servo = servoMeasure then
      match s.gateFreq with
      | none => s.ptp.est
      | some q => dblOf q.num q.den
    else s.ptp.est
  let f : Rat := if s.servo = servoTrack ∨ s.servo = servoFrozen then s.integMean else dblRat est
  let ym : Rat := if s.freqValid then (s.yModel : Rat) / (10 ^ 15 * 2 ^ 64) else 0
  let y := (ym - f) * 10 ^ 12
  (divRound y.num y.den, (s.setPtp { s.ptp with est := est }).startGate)

/-! ### Offset samples (R217, R218) -/

/-- The sample of a Sync with receipt `t2`, departure `t1` and correction `c` at port `n` (R218); `p` and `d` were
taken at its receipt.  Every port keeps when it last accepted one, servo port or not (R216). -/
def State.offsetSample (s : State) (n : Nat) (t1 : T96) (t2 : Stamp) (c : Int) (breaks : Nat) (p d : Int) : State :=
  let dIn := s.pairI (R.PTS_LD_IN_LO n)
  let raw := t96Diff t2.t t1
  let o := raw.1 - c - dIn
  let far := raw.2 || decide (o ≠ satS 64 o)
  let o := satS 64 o
  let s := if far then s.raw R.PTP_RAW F.PTP_RAW_FAR_OFFSET else s
  let waits := s.ptp.first.isSome && decide (s.servoPort = n)
  if !(stampClean t2) || breaks != s.tsc.breaks || !(s.on (R.PTS_STATUS n) F.PTS_STATUS_LD_VALID) ||
      (far && !waits) then
    s.dropSample n
  else
    let s := if s.ptpState n = ptpUncal then (s.setPtpState n ptpSlave).ptpSettle n else s
    let s := s.setPport n { s.pport n with last := some s.tsc.tick }
    if s.servoPort = n then
      let m := addT96 t1 (c + dIn + unitsOf s.now - unitsOf t2.t)
      (s.servoSample o p d m).servoSteer
    else s

/-- The remote stamps of a message are unusable: its correctionField overflows, or the port runs tight-link mode and
its parent's last claim TLV has TIGHT 0 (R217). -/
def State.remoteBad (s : State) (n : Nat) (m : List Byte) : Bool :=
  msgNoCorr m || (decide (s.pcfg n F.PTP_Pn_CFG_PROFILE = 1) &&
    (match (s.pport n).claim with | some (_, t, _) => !t | none => false))

/-- The message comes from the parent of port `n`. -/
def State.fromParent (s : State) (n : Nat) (m : List Byte) : Bool :=
  decide (s.ptpState n = ptpUncal ∨ s.ptpState n = ptpSlave) && decide (msgSource m = s.parentOf n)

/-- Sync and Follow_Up on a port that does not follow them: counted on a MASTER port (R207). -/
def State.notFollowed (s : State) (n : Nat) : State := if s.ptpState n = ptpMaster then s.ptpDiscard n else s

/-- The times of a complete Sync are kept for the delay exchange, and its offset sample is formed (R217, R218); `bad`: its
remote stamp is unusable. -/
def State.syncDone (s : State) (n : Nat) (bad : Bool) (t1 : T96) (t2 : Stamp) (c : Int) (breaks : Nat) (p d : Int) :
    State :=
  let t1k : Tick64 := tickOf t1 + BitVec.ofNat 64 (enc 64 c)
  let u := s.pport n
  let old := if u.dreq.isSome then u.syncs else []
  let s := s.setPport n { u with wait := none, syncs := ⟨t1k, t2, !bad, breaks⟩ :: old }
  s.offsetSample n t1 t2 c breaks p d

/-- The two-step Sync that waits on port `n`, if one does, gets no Follow_Up: its sample is discarded (R218). -/
def State.dropWait (s : State) (n : Nat) : State :=
  match (s.pport n).wait with
  | none => s
  | some _ => (s.setPport n { s.pport n with wait := none }).dropSample n

/-- Sync arrives (R207, R218). -/
def State.syncRx (s : State) (n : Nat) (m : List Byte) (x : StampIn) : State :=
  s.onMessage n 0 m fun s =>
    let s := s.inc (R.PTP_Pn_CNT_MSG n) F.PTP_Pn_CNT_MSG_SYNC_RX
    let t2 := s.rxStamp n x
    let p := s.rxPhase n
    let d := s.pairI (R.PTS_LD_IN_LO n)
    if s.fromParent n m then
      let s := s.dropWait n
      let bad := s.remoteBad n m
      if msgTwoStep m then
        s.setPport n { s.pport n with wait := some ⟨msgSeq m, t2, msgCorr m, s.tsc.breaks, p, d, bad⟩ }
      else s.syncDone n bad (msgTime m) t2 (msgCorr m) s.tsc.breaks p d
    else s.notFollowed n

/-- Follow_Up arrives (R207, R218). -/
def State.followUpRx (s : State) (n : Nat) (m : List Byte) : State :=
  s.onMessage n 8 m fun s =>
    if s.fromParent n m then
      match (s.pport n).wait with
      | none => s
      | some w =>
        if w.seq = msgSeq m then
          s.syncDone n (w.bad || s.remoteBad n m) (msgTime m) w.t2 (w.corr + msgCorr m) w.breaks w.phase w.delay
        else s
    else s.notFollowed n

/-- No Follow_Up within the Sync interval (R218). -/
def State.followUpTimeout (s : State) (n : Nat) : State := s.dropWait n

/-- The last accepted sample of the servo port grows as old as four Sync intervals (R219). -/
def State.offsetLapse (s : State) : State :=
  let n := s.servoPort
  let s := if n < 24 then s.setPport n { s.pport n with last := none } else s
  if s.ptpValid then s.loseValid else s

/-! ### Delay messages (R207, R217) -/

/-- Delay_Req arrives: answered on a MASTER port (R207). -/
def State.delayReqRx (s : State) (n : Nat) (m : List Byte) (x : StampIn) : State :=
  s.onMessage n 1 m fun s =>
    if s.ptpState n = ptpMaster then
      s.setPport n { s.pport n with dresp := (s.pport n).dresp ++ [⟨msgSeq m, msgSource m, msgCorr m, s.rxStamp n x⟩] }
    else s

/-- Delay_Resp arrives: it completes the port's exchange when it matches, with the latest accepted Sync whose t2 precedes
t3, else it is counted (R207, R217). -/
def State.delayRespRx (s : State) (n : Nat) (m : List Byte) : State :=
  s.onMessage n 9 m fun s =>
    if 4 ≤ s.ptpState n then
      match (s.pport n).dreq with
      | none => s.ptpDiscard n
      | some w =>
        if msgRequester m = s.portIdent n ∧ msgSeq m = w.seq then
          let bad := s.remoteBad n m
          let sync := (s.pport n).syncs.find? (fun y => decide (0 < tickDiff (tickOf w.t3.t) (tickOf y.t2.t)))
          let s := s.setPport n { s.pport n with dreq := none }
          match sync with
          | none => s
          | some y =>
            let t4 : Tick64 := tickOf (msgTime m) - BitVec.ofNat 64 (enc 64 (msgCorr m))
            let bad := bad || !y.usable || !(stampClean y.t2) || !(stampClean w.t3) || y.breaks != w.breaks
            (s.ldExchange n y.t1 (tickOf y.t2.t) (tickOf w.t3.t) t4 bad).ptpLdCheck n
        else s.ptpDiscard n
    else s

/-- Pdelay_Req arrives: answered on any port that uses peer delay (R204, R207). -/
def State.pdelayReqRx (s : State) (n : Nat) (m : List Byte) (x : StampIn) : State :=
  s.onMessage n 2 m fun s =>
    if s.ptpSends n ∧ s.pcfg n F.PTP_Pn_CFG_DELAY_MECH = 1 then
      s.setPport n { s.pport n with pdresp := (s.pport n).pdresp ++ [⟨msgSeq m, msgSource m, msgCorr m, s.rxStamp n x⟩] }
    else s

/-- A peer-delay exchange of port `n` completes: `turn` is the peer's turnaround, t3 − t2 (R217). -/
def State.pdelayDone (s : State) (n : Nat) (w : PdelayWait) (t4 : Stamp) (turn : Tick64) (bad : Bool) : State :=
  let bad := bad || !(stampClean w.t1) || !(stampClean t4) || w.breaks != s.tsc.breaks
  let s := s.setPport n { s.pport n with pdreq := none }
  (s.ldExchange n (tickOf w.t1.t) 0 turn (tickOf t4.t) bad).ptpLdCheck n

/-- Pdelay_Resp arrives (R207, R217). -/
def State.pdelayRespRx (s : State) (n : Nat) (m : List Byte) (x : StampIn) : State :=
  s.onMessage n 3 m fun s =>
    match (s.pport n).pdreq with
    | none => s
    | some w =>
      if s.ptpSends n ∧ msgRequester m = s.portIdent n ∧ msgSeq m = w.seq ∧ w.resp.isNone then
        let t4 := s.rxStamp n x
        let bad := s.remoteBad n m || w.breaks != s.tsc.breaks
        let c : Tick64 := BitVec.ofNat 64 (enc 64 (msgCorr m))
        if msgTwoStep m then
          let w := { w with resp := some (t4, tickOf (msgTime m) - c, bad), breaks := s.tsc.breaks }
          s.setPport n { s.pport n with pdreq := some w }
        else s.pdelayDone n { w with breaks := s.tsc.breaks } t4 c bad
      else s

/-- Pdelay_Resp_Follow_Up arrives (R207, R217). -/
def State.pdelayFollowRx (s : State) (n : Nat) (m : List Byte) : State :=
  s.onMessage n 10 m fun s =>
    match (s.pport n).pdreq with
    | none => s
    | some w =>
      match w.resp with
      | none => s
      | some (t4, t2, bad) =>
        if s.ptpSends n ∧ msgRequester m = s.portIdent n ∧ msgSeq m = w.seq then
          let c : Tick64 := BitVec.ofNat 64 (enc 64 (msgCorr m))
          s.pdelayDone n { w with breaks := s.tsc.breaks } t4 (tickOf (msgTime m) + c - t2) (bad || s.remoteBad n m)
        else s

/-! ### Announce (R208, R210, R214) -/

/-- The TLVs from offset `o` on: type, and the bytes after it, length field included.  `fuel` bounds their number. -/
def tlvs : Nat → List Byte → List (Nat × List Byte)
  | 0, _ => []
  | k + 1, l =>
    if l.length < 4 then []
    else
      let n := beAt l 2 2
      (beAt l 0 2, slice l 2 (n + 2)) :: tlvs k (l.drop (4 + n))

/-- The claim TLVs of an Announce: type, organizationId and organizationSubType match (R214).  Each is given from its
lengthField on. -/
def State.claimTlvs (s : State) (m : List Byte) : List (List Byte) :=
  ((tlvs m.length (m.drop 64)).filter (fun t =>
    t.1 == 3 && beAt t.2 2 3 == s.g R.PTP_CLAIM_ORG F.PTP_CLAIM_ORG_ORG_ID && beAt t.2 5 3 == 1)).map (·.2)

/-- A claim TLV is valid (R212, R214). -/
def tlvOk (b : List Byte) : Bool :=
  beAt b 0 2 == 16 && b.length == 18 && beAt b 16 2 == crc16Fold 0x1021 0xFFFF (slice b 8 8)

/-- A claim TLV is counted in CLAIM_BAD (R214, R215). -/
def State.claimBad (s : State) (n : Nat) : State :=
  (s.inc (R.PTP_Pn_CNT_ERR n) F.PTP_Pn_CNT_ERR_CLAIM_BAD).raw (R.PTP_Pn_RAW n) F.PTP_Pn_RAW_CLAIM_BAD

/-- An Announce passes the checks of R208. -/
def State.announceOk (s : State) (n : Nat) (m : List Byte) : Bool :=
  let src := msgSource m
  decide (src / 65536 ≠ s.clockId) && decide (beAt m 61 2 ≤ s.g R.PTP_ACCEPT F.PTP_ACCEPT_STEPS_MAX) &&
    decide (beAt m 48 1 ≤ s.g R.PTP_ACCEPT F.PTP_ACCEPT_CLASS_MAX) &&
    (!(s.on (R.PTP_Pn_MASTER_PORT n) F.PTP_Pn_MASTER_PORT_CHECK_EN) ||
      decide (src = s.pair (R.PTP_Pn_MASTER_LO n) * 65536 +
        s.g (R.PTP_Pn_MASTER_PORT n) F.PTP_Pn_MASTER_PORT_PORT_NUM))

/-- The sender of an accepted Announce, its content and its claim are recorded (R205, R209, R214). -/
def State.recordAnnounce (s : State) (n : Nat) (m : List Byte) (tlv : Option (List Byte)) : State :=
  let src := msgSource m
  let s := s.setPair (R.PTP_Pn_PARENT_LO n) (src / 65536)
  let s := s.setRegN (R.PTP_Pn_PARENT_PORT n) (beAt m 61 2 % 256 * 65536 + src % 65536)
  let claim := tlv.map (fun b => (maskBit (beAt b 14 1) 7, maskBit (beAt b 14 1) 6, beAt b 12 2))
  let s := s.setPport n { s.pport n with ann := m, claim := claim }
  let s := s.pb (R.PTP_Pn_STATUS n) F.PTP_Pn_STATUS_CLAIM_VALID tlv.isSome
  match tlv with
  | some b => s.setRegN (R.PTP_Pn_CLAIM n) (beAt b 8 4)
  | none => s

/-- An Announce is accepted (R205, R208). -/
def State.acceptAnnounce (s : State) (n : Nat) (m : List Byte) (tlv : Option (List Byte)) : State :=
  let st := s.ptpState n
  let other := decide (s.parentOf n ≠ msgSource m)
  let old := s.servoPort
  let s := s.recordAnnounce n m tlv
  let s := if st = ptpListening then (s.setPtpState n ptpUncal).raw (R.PTP_Pn_RAW n) F.PTP_Pn_RAW_ANN_ACCEPT
    else if (st = ptpUncal ∨ st = ptpSlave) ∧ other then
      let s := s.setPport n { s.pport n with wait := none, syncs := [], dreq := none, last := none }
      let s := (s.setPtpState n ptpUncal).raw (R.PTP_Pn_RAW n) F.PTP_Pn_RAW_PARENT_CHANGE
      if old = n then s.chooseServo else s
    else s
  (s.showUtc n).ptpSettle n

/-- Announce arrives (R207, R208, R214, R215). -/
def State.announceRx (s : State) (n : Nat) (m : List Byte) : State :=
  s.onMessage n 11 m fun s =>
    let st := s.ptpState n
    if st = ptpMaster then s.raw (R.PTP_Pn_RAW n) F.PTP_Pn_RAW_FOREIGN_MASTER
    else if st < 3 then s
    else
      let l := s.claimTlvs m
      let s := (l.filter (fun b => !(tlvOk b))).foldl (fun s _ => s.claimBad n) s
      let tlv := (l.filter tlvOk).head?
      let foreign := match tlv, s.groupOf n with
        | some b, some g => beAt b 12 2 != s.g (R.PTP_CLAIM_GRPg g) F.PTP_CLAIM_GRPg_PAIR_ID
        | _, _ => false
      let s := if foreign then s.claimBad n else s
      if s.announceOk n m then s.acceptAnnounce n m tlv
      else (s.inc (R.PTP_Pn_CNT_MSG n) F.PTP_Pn_CNT_MSG_ANN_REJECTED).raw (R.PTP_Pn_RAW n) F.PTP_Pn_RAW_ANN_REJECT

/-- No accepted Announce for ANN_TIMEOUT intervals (R205). -/
def State.announceTimeout (s : State) (n : Nat) : State :=
  if s.ptpState n = ptpUncal ∨ s.ptpState n = ptpSlave then
    let s := (s.setPtpState n ptpListening).clearParent n
    let s := s.inc (R.PTP_Pn_CNT_ERR n) F.PTP_Pn_CNT_ERR_TIMEOUTS
    (s.raw (R.PTP_Pn_RAW n) F.PTP_Pn_RAW_ANN_TIMEOUT).ptpSettle n
  else s

end Sys2Proof.Machine
end

