-- ==== Sys2Proof/Machine/GuyCode.lean ====
section
/-! DEFINITION. The line code of Guyline (R368 to R371, R373), its messages (R376, R377) and the frame of the claim
wire (R389), as pure functions. -/

namespace Sys2Proof.Machine

/-! ### Bits -/

/-- The `k` low bits of `n`, most significant first. -/
def msbBits : Nat → Nat → List Bool
  | 0, _ => []
  | k + 1, n => maskBit n k :: msbBits k n

/-- The number that bits spell, most significant first. -/
def bitsNat (l : List Bool) : Nat := l.foldl (fun n b => 2 * n + b2n b) 0

/-! ### Markers (R369, R373) -/

/-- CHECK of a marker: the CRC-16 of R212 over bits [0:53] padded with two zero bits (R369). -/
def markerCheck (head : Nat) : Nat := crc16Fold 0x1021 0xFFFF (beBytes 7 (head * 4))

/-- The 70 marker bits, DATA bit 0 the most significant (R369). -/
def marker (lane count pair unit : Nat) : BitVec 70 :=
  let head := lane % 4 * 2 ^ 52 + count % 2 ^ 32 * 2 ^ 20 + pair % 2 ^ 16 * 2 ^ 4 + unit % 16
  BitVec.ofNat 70 (head * 2 ^ 16 + markerCheck head)

/-- LANE, MCOUNT and PAIR_ID of a marker. -/
def markerLane (m : BitVec 70) : Nat := m.toNat / 2 ^ 68 % 4
def markerCount (m : BitVec 70) : Nat := m.toNat / 2 ^ 36 % 2 ^ 32
def markerPair (m : BitVec 70) : Nat := m.toNat / 2 ^ 20 % 2 ^ 16

/-- CHECK of a marker is correct (R373). -/
def markerOk (m : BitVec 70) : Bool := m.toNat % 2 ^ 16 == markerCheck (m.toNat / 2 ^ 16)

/-! ### Scrambling (R370) -/

/-- SEED of logical lane `n`. -/
def guySeed (n : Nat) : Nat :=
  if n = 0 then 0x4f3a1c2d else if n = 1 then 0x2b6e0d71 else if n = 2 then 0x6719a4c3 else 0x3d85e29b

/-- The PRBS-31 bit that state `s` gives. -/
def prbsBit (s : Nat) : Bool := maskBit s 30 != maskBit s 27

/-- The state after one DATA bit. -/
def prbsNext (s : Nat) : Nat := (2 * s + b2n (prbsBit s)) % 2 ^ 31

/-- DATA bits scrambled, or descrambled, from state `s` on. -/
def scramble : Nat → List Bool → List Bool
  | _, [] => []
  | s, b :: r => (b != prbsBit s) :: scramble (prbsNext s) r

/-! ### Bit stuffing (R371) -/

/-- The line bits of DATA bits, after a run of `k` bits `p`: after 31 identical line bits their complement is
inserted. -/
def stuff : Bool → Nat → List Bool → List Bool
  | _, _, [] => []
  | p, k, b :: r =>
    let n := if b = p then k + 1 else 1
    if n = 31 then b :: (!b) :: stuff (!b) 1 r else b :: stuff b n r

/-- The `m` DATA bits of line bits, after a run of `k` bits `p`; none on a stuffing error or a short block. -/
def destuff : Bool → Nat → Nat → List Bool → Option (List Bool)
  | _, _, 0, _ => some []
  | _, _, _ + 1, [] => none
  | p, k, m + 1, b :: r =>
    let n := if b = p then k + 1 else 1
    if n = 31 then
      match r with
      | [] => none
      | c :: r => if c = b then none else (destuff c 1 m r).map (b :: ·)
    else (destuff b n m r).map (b :: ·)

/-! ### Blocks (R368) -/

/-- SYNC of a data block and of a marker block. -/
abbrev syncData : Nat := 0xE4B1
abbrev syncMarker : Nat := 0x8D72

/-- Identical bits at the end of a SYNC: the bit and the length of its run. -/
def syncRun (l : List Bool) : Bool × Nat :=
  l.foldl (fun x b => if b = x.1 then (x.1, x.2 + 1) else (b, 1)) (false, 0)

/-- `n` alternating bits, the first being the complement of `p`. -/
def fillBits : Nat → Bool → List Bool
  | 0, _ => []
  | n + 1, p => (!p) :: fillBits n (!p)

/-- The 4,096 line bits of a block with SYNC `sync` and DATA bits `data` (scrambled already). -/
def lineBlock (sync : Nat) (data : List Bool) : List Bool :=
  let h := msbBits 16 sync
  let run := syncRun h
  let body := h ++ stuff run.1 run.2 data
  body ++ fillBits (4096 - body.length) (body.getLast?.getD false)

/-- What a receiver makes of the line bits of a data block: a missing SYNC, a stuffing error, or the DATA bits. -/
inductive BlockRx
  | noSync
  | badStuff
  | data (l : List Bool)
  deriving DecidableEq, Repr

/-- One lane's data block of `m` DATA bits (R368, R371). -/
def blockRx (m : Nat) (l : List Bool) : BlockRx :=
  let h := l.take 16
  if h = msbBits 16 syncData then
    let run := syncRun h
    match destuff run.1 run.2 m (l.drop 16) with
    | some d => .data d
    | none => .badStuff
  else .noSync

/-! ### Rows (R375) -/

/-- DATA bits in a block (R368). -/
abbrev dataBits : Nat := 3840

/-- The scrambler's state after `n` DATA bits. -/
def prbsAfter : Nat → Nat → Nat
  | 0, s => s
  | n + 1, s => prbsAfter n (prbsNext s)

/-- The bytes that `n` bytes' worth of bits spell, most significant bit first. -/
def bitBytes : Nat → List Bool → List Byte
  | 0, _ => []
  | n + 1, l => BitVec.ofNat 8 (bitsNat (l.take 8)) :: bitBytes n (l.drop 8)

/-- The 480 bytes of logical lane `n` in a row from its scrambled DATA bits, in data block `block` after a marker
(R370). -/
def laneBytes (n block : Nat) (d : List Bool) : List Byte :=
  bitBytes 480 (scramble (prbsAfter (dataBits * block) (guySeed n)) d)

/-- The bytes of a row from its blocks, logical lane `n` first, in data block `block` after a marker (R375). -/
def rowBytes (block : Nat) : Nat → List BlockRx → List Byte
  | _, [] => []
  | n, .data d :: r => laneBytes n block d ++ rowBytes block (n + 1) r
  | n, _ :: r => rowBytes block (n + 1) r

/-- Stream bytes in a row, and the row pointer of one in which no header begins. -/
abbrev rowLen : Nat := 1918
abbrev noHeader : Nat := 0xFFFF

/-- The row pointer of a row. -/
def rowPointer (row : List Byte) : Nat := beAt row 0 2

/-- Where the messages `ms` begin in their stream, the first at `o`. -/
def headerStarts : Nat → List (List Byte) → List Nat
  | _, [] => []
  | o, m :: r => o :: headerStarts (o + m.length) r

/-- Row `k` of a stream `l` in which headers begin at `starts`, filler after its end. -/
def guyRow (starts : List Nat) (l : List Byte) (k : Nat) : List Byte :=
  let p := match starts.find? (fun o => decide (rowLen * k ≤ o) && decide (o < rowLen * (k + 1))) with
    | some o => o - rowLen * k
    | none => noHeader
  beBytes 2 p ++ padTo rowLen (slice l (rowLen * k) rowLen)

/-- The rows that carry the messages `ms`, one after another, and filler to the end of the last row (R375, R376, R378). -/
def rowsOf (ms : List (List Byte)) : List (List Byte) :=
  (List.range ((ms.flatten.length + (rowLen - 1)) / rowLen)).map (guyRow (headerStarts 0 ms) ms.flatten)

/-! ### Messages (R376, R377) -/

/-- The legal LEN of CLASS `c`: least and greatest; none for a CLASS without messages. -/
def msgLens (c : Nat) : Option (Nat × Nat) :=
  match c with
  | 1 => some (8, 8)
  | 2 => some (16, 16)
  | 3 => some (24, 24)
  | 4 => some (20, 20)
  | 5 => some (8, 4096)
  | 6 => some (8, 4096)
  | _ => none

/-- The bytes of a message of CLASS `c` with sequence number `q`. -/
def guyMessage (c q : Nat) (payload : List Byte) : List Byte :=
  let l := beBytes 1 (c * 16) ++ beBytes 1 0 ++ beBytes 2 payload.length ++ beBytes 4 q ++ payload
  l ++ beBytes 4 (crc32c l)

/-- What stands at the front of the stream (R376, R379): a message that is not whole yet, one that fails, or a whole one and
what follows it. -/
inductive Head
  | part
  | bad
  | whole (m rest : List Byte)
  deriving DecidableEq, Repr

/-- CLASS, SEQ and payload of a whole message; none when its CLASS, LEN or CHECK fails (R377, R379). -/
def guyParse (m : List Byte) : Option (Nat × Nat × List Byte) :=
  let c := beAt m 0 1 / 16
  let n := beAt m 2 2
  match msgLens c with
  | none => none
  | some (lo, hi) =>
    if lo ≤ n ∧ n ≤ hi ∧ m.length = n + 12 ∧ beAt m (8 + n) 4 = crc32c (m.take (8 + n)) then
      some (c, beAt m 4 4, slice m 8 n)
    else none

/-- The front of the stream `l`, which begins with a header. -/
def streamHead (l : List Byte) : Head :=
  if l.length < 4 then .part
  else
    let n := beAt l 2 2
    match msgLens (beAt l 0 1 / 16) with
    | none => .bad
    | some (lo, hi) =>
      if n < lo ∨ hi < n then .bad
      else if l.length < n + 12 then .part
      else if (guyParse (l.take (n + 12))).isSome then .whole (l.take (n + 12)) (l.drop (n + 12))
      else .bad

/-- The whole messages of the stream `l`, filler left out, and the part of a message behind them; none when a message
fails.  `fuel` bounds the messages and filler bytes. -/
def streamSplit : Nat → List Byte → List (List Byte) × Option (List Byte)
  | 0, _ => ([], none)
  | _ + 1, [] => ([], some [])
  | k + 1, b :: r =>
    if b = 0#8 then streamSplit k r
    else
      match streamHead (b :: r) with
      | .part => ([], some (b :: r))
      | .bad => ([], none)
      | .whole m rest => let x := streamSplit k rest; (m :: x.1, x.2)

/-- The payload of a message of CLASS `c`, with its SEQ. -/
def guyPayload (c : Nat) (m : List Byte) : Option (Nat × List Byte) :=
  match guyParse m with
  | some (k, q, p) => if k = c then some (q, p) else none
  | none => none

/-! ### The claim wire (R389) -/

/-- The 80 bits of a claim-wire frame. -/
def wireFrame (pair claim : Nat) : BitVec 80 :=
  let body := beBytes 2 pair ++ beBytes 4 claim
  BitVec.ofNat 80 (0x2DD4 * 2 ^ 64 + beNat body * 2 ^ 16 + crc16Fold 0x1021 0xFFFF body)

/-- The claim of a valid frame for PAIR_ID `pair`: SYNC, PAIR_ID and CHECK are right (R390). -/
def wireClaim (pair : Nat) (f : BitVec 80) : Option Nat :=
  let claim := f.toNat / 2 ^ 16 % 2 ^ 32
  if f = wireFrame (pair % 2 ^ 16) claim then some claim else none

end Sys2Proof.Machine
end

