-- ==== Sys2Proof/Machine/Frames.lean ====
section
/-! DEFINITION. The headers of a frame and the editing of a departing copy with its FCS carried through
(spec/09_forwarding_and_flow_tables.md R231, R232, R252, R256, R257; spec/11 R296, R297, R301). -/

namespace Sys2Proof.Machine

/-! ### Headers (R232) -/

/-- The Herd tag's check over its bytes 0 to 13 (R297), the tag following the EtherType at offset `o`. -/
def herdCheck (b : List Byte) (o : Nat) : Nat := crc16Fold 0x1021 0xFFFF (slice b (o + 2) 14)

/-- The headers of a frame on a port of a redundancy group of the given mode: 0 none, 1 PRP, 2 HSR (R232). -/
def headsOf (b : List Byte) (mode : Nat) : Heads :=
  let vlan := beAt b 12 2 == 0x8100
  let o1 := if vlan then 16 else 12
  let hsr := mode == 2 && beAt b o1 2 == 0x892F
  let o2 := if hsr then o1 + 6 else o1
  let isTag := beAt b o2 2 == 0x88B5
  let ok := isTag && decide (o2 + 22 ≤ b.length) && beAt b (o2 + 16) 2 == herdCheck b o2
  let o3 := if ok then o2 + 18 else o2
  let t := b.length - 10
  let size := beAt b (t + 2) 2 % 4096
  let rct := mode == 1 && decide (o1 + 12 ≤ b.length) && beAt b (t + 4) 2 == 0x88FB && size == b.length - 4 - (o1 + 2)
  { vlan := vlan, tci := if vlan then beAt b 14 2 else 0, hsr := hsr, herdType := isTag, herd := ok, herdAt := o2,
    etype := beAt b o3 2, own := o3, rct := if rct then some (beAt b t 2, beAt b (t + 2) 2 / 4096) else none }

/-- The group index of a redundancy group, with mode and ports. -/
def State.redMode (s : State) (r : Nat) : Nat := s.g (R.FWD_REDr_CFG r) F.FWD_REDr_CFG_MODE

/-- PORT_A of group `r`. -/
def State.redA (s : State) (r : Nat) : Nat := s.g (R.FWD_REDr_CFG r) F.FWD_REDr_CFG_PORT_A

/-- PORT_B of group `r`. -/
def State.redB (s : State) (r : Nat) : Nat := s.g (R.FWD_REDr_CFG r) F.FWD_REDr_CFG_PORT_B

/-- The redundancy group that port `n` belongs to (R252). -/
def State.redOf (s : State) (n : Nat) : Option Nat :=
  (List.range 4).find? (fun r => s.redMode r != 0 && (s.redA r == n || s.redB r == n))

/-- The mode under which port `n` recognises redundancy headers. -/
def State.portMode (s : State) (n : Nat) : Nat :=
  match s.redOf n with
  | some r => s.redMode r
  | none => 0

/-- A PTP message in a frame: its transport (0 Ethernet, 1 UDP over IPv4, 2 UDP over IPv6) and its bytes, sent to a
multicast address of R201. -/
def ptpIn (b : List Byte) (h : Heads) : Option (Nat × List Byte) :=
  let o := h.own + 2
  let udp : Nat → Bool := fun p => beAt b p 2 == 319 || beAt b p 2 == 320
  let body : Nat → List Byte := fun p => (b.drop p).take (b.length - 4 - p)
  if h.etype = 0x88F7 then
    if beAt b 0 6 = 0x011B19000000 ∨ beAt b 0 6 = 0x0180C200000E then some (0, body o) else none
  else if h.etype = 0x0800 then
    if beAt b o 1 = 0x45 ∧ beAt b (o + 9) 1 = 17 ∧ beAt b (o + 6) 2 % 0x4000 = 0 ∧
        (beAt b (o + 16) 4 = 0xE0000181 ∨ beAt b (o + 16) 4 = 0xE000006B) ∧ udp (o + 22) = true then
      some (1, body (o + 28))
    else none
  else if h.etype = 0x86DD then
    if beAt b (o + 6) 1 = 17 ∧ (beAt b (o + 24) 16 = 0xFF0E0000000000000000000000000181 ∨
        beAt b (o + 24) 16 = 0xFF02000000000000000000000000006B) ∧ udp (o + 42) = true then
      some (2, body (o + 48))
    else none
  else none

/-- The PTP message that port `n` consumes from the frame `b` (R202). -/
def State.ptpConsumed (s : State) (n : Nat) (b : List Byte) (h : Heads) : Option (List Byte) :=
  match ptpIn b h with
  | none => none
  | some (tr, m) =>
    let tagged := s.pcfg n F.PTP_Pn_CFG_VLAN_EN == 1
    if decide (n < 24) && s.consumes n m && s.pcfg n F.PTP_Pn_CFG_TRANSPORT == tr && h.vlan == tagged &&
        (!tagged || h.tci % 4096 == s.pcfg n F.PTP_Pn_CFG_VLAN_VID) then some m
    else none

/-- An ESMC PDU of ITU-T G.8264 (R113). -/
def isEsmc (b : List Byte) (h : Heads) : Bool :=
  h.etype == 0x8809 && beAt b (h.own + 2) 1 == 0x0A && beAt b (h.own + 3) 3 == 0x0019A7 && beAt b (h.own + 6) 2 == 1

/-- A frame to 01-80-C2-00-00-00 to 01-80-C2-00-00-0F (R233). -/
def isLinkLocal (b : List Byte) : Bool := beAt b 0 6 / 16 == 0x0180C200000

/-! ### FCS carry-through (R257) -/

/-- A run of a departing copy: bytes kept, perhaps changed; bytes inserted; bytes removed (R257). -/
inductive Piece
  | keep (old new : List Byte)
  | ins (bytes : List Byte)
  | del (bytes : List Byte)
  deriving DecidableEq, Repr

/-- One byte of the reflected CRC-32 of IEEE 802.3 (R257). -/
def fcsStep (r : Nat) (b : Nat) : Nat := crc8steps 0xEDB88320 (r ^^^ b)

/-- Register `r` after `k` zero bytes. -/
def fcsZeros : Nat → Nat → Nat
  | 0, r => r
  | k + 1, r => fcsZeros k (fcsStep r 0)

/-- Register d after kept bytes (R257). -/
def fcsKeep : Nat → List Byte → List Byte → Nat
  | d, o :: os, n :: ns => fcsKeep (fcsStep d (o.toNat ^^^ n.toNat)) os ns
  | d, _, _ => d

/-- The editor's registers (d, a) after a run (R257). -/
def pieceRegs (x : Nat × Nat) : Piece → Nat × Nat
  | .keep old new => (fcsKeep x.1 old new, crcFold 0xEDB88320 x.2 new)
  | .ins t => let a := crcFold 0xEDB88320 x.2 t; (x.1 ^^^ (x.2 ^^^ a), a)
  | .del u => let r := crcFold 0xEDB88320 x.2 u; (fcsZeros u.length x.1 ^^^ (x.2 ^^^ r), x.2)

/-- What a run sends. -/
def Piece.sent : Piece → List Byte
  | .keep _ new => new
  | .ins t => t
  | .del _ => []

/-- The bytes sent. -/
def sentBytes (l : List Piece) : List Byte := l.flatMap Piece.sent

/-- The FCS of a departing copy: the received FCS combined with d (R257). -/
def carriedFcs (fcs : Nat) (l : List Piece) : Nat := fcs ^^^ (l.foldl pieceRegs (0, 0xFFFFFFFF)).1

/-! ### The editor (R241, R252, R257, R301) -/

/-- What the editor does to one copy. -/
structure Edits where
  /-- The copy leaves with an 802.1Q tag; tag control information. -/
  tagged : Bool
  tci : Nat
  /-- A received HSR tag is removed. -/
  dropHsr : Bool
  /-- An HSR tag is inserted: PathId and sequence number. -/
  addHsr : Option (Nat × Nat)
  /-- A recognised Herd tag is removed. -/
  dropHerd : Bool
  /-- The Herd tag of a Herd copy to a core port: its 16 bytes. -/
  herd : Option (List Byte)
  dropRct : Bool
  /-- An RCT is added: LanId and sequence number. -/
  addRct : Option (Nat × Nat)
  deriving DecidableEq, Repr

/-- The runs of a copy of the received bytes `b` before the FCS, with headers `h`, edited under `e`.  Zero bytes fill a
copy that a removal would leave below 64 bytes with its FCS; an RCT stays in that case (R252, R257, R301). -/
def editPieces (b : List Byte) (h : Heads) (e : Edits) : List Piece :=
  let vtag := beBytes 2 0x8100 ++ beBytes 2 e.tci
  let o1 := if h.vlan then 16 else 12
  let vlan : List Piece :=
    if h.vlan then (if e.tagged then [.keep (slice b 12 4) vtag] else [.del (slice b 12 4)])
    else if e.tagged then [.ins vtag] else []
  let hsrOld := if h.hsr then slice b o1 6 else []
  let o2 := o1 + hsrOld.length
  let tagOld := if h.herd then slice b o2 18 else []
  let o3 := o2 + tagOld.length
  let tagNew := match e.herd with
    | some t => beBytes 2 0x88B5 ++ t
    | none => []
  let tag : List Piece :=
    if h.herd then
      (if e.dropHerd then [.del tagOld] else if e.herd.isSome then [.keep tagOld tagNew] else [.keep tagOld tagOld])
    else if e.herd.isSome then [.ins tagNew] else []
  let rest := b.drop o3
  let trailer := if h.rct.isSome then rest.drop (rest.length - 6) else []
  let payload := if h.rct.isSome then rest.take (rest.length - 6) else rest
  let vlanLen := (sentBytes vlan).length
  let tagLen := (sentBytes tag).length
  let hsrLen := (if h.hsr && !e.dropHsr then 6 else 0) + (if e.addHsr.isSome then 6 else 0)
  let bare := 12 + vlanLen + hsrLen + tagLen + payload.length + 4
  let keepRct := h.rct.isSome && (!e.dropRct || decide (bare < 64))
  let removed := (h.vlan && !e.tagged) || (h.hsr && e.dropHsr) || (h.herd && e.dropHerd)
  let rctLen := (if keepRct then 6 else 0) + (if e.addRct.isSome then 6 else 0)
  let pad := if removed then 64 - (bare + rctLen) else 0
  let hsr : List Piece :=
    (if h.hsr then (if e.dropHsr then [.del hsrOld] else [.keep hsrOld hsrOld]) else []) ++
    (match e.addHsr with
     | some (path, q) =>
       [.ins (beBytes 2 0x892F ++ beBytes 2 (path * 4096 + (tagLen + payload.length + 4) % 4096) ++ beBytes 2 q)]
     | none => [])
  let rctAdd : List Piece := match e.addRct with
    | some (lan, q) =>
      [.ins (beBytes 2 q ++ beBytes 2 (lan * 4096 + (hsrLen + tagLen + payload.length + pad + 6 - 2) % 4096) ++
        beBytes 2 0x88FB)]
    | none => []
  [.keep (b.take 12) (b.take 12)] ++ vlan ++ hsr ++ tag ++ [.keep payload payload] ++
    (if h.rct.isSome then (if keepRct then [.keep trailer trailer] else [.del trailer]) else []) ++
    (if pad = 0 then [] else [.ins (List.replicate pad 0#8)]) ++ rctAdd

/-- The tag of a Herd copy to a core port (R296, R301). -/
def herdTagBytes (i : HerdInfo) (late : Bool) : List Byte :=
  let body := beBytes 8 i.origin.toNat ++ beBytes 2 i.node ++
    beBytes 2 (b2n i.trig * 2 ^ 15 + b2n late * 2 ^ 14 + i.flow % 2 ^ 14) ++
    beBytes 2 (min (i.hops + 1) 15 * 4096 + min (i.cum + i.budget) 4095)
  body ++ beBytes 2 (crc16Fold 0x1021 0xFFFF body)

/-- Line time in units of 1/25 of a Tick64 unit of a frame of `n` bytes (R305): 2.56 ns is 4,194,304 of them. -/
def lineTime (n : Nat) : Nat := (n + 27) / 8 * 4194304

end Sys2Proof.Machine
end

