-- ==== Sys2Proof/Machine/Forwarding.lean ====
section
/-! DEFINITION. Classification, the forwarding table, flow contexts, aggregation and redundancy: what a slice makes of
a frame (spec/09_forwarding_and_flow_tables.md R231 to R254; spec/11 R295, R299, R300). -/

namespace Sys2Proof.Machine

/-! ### The tables (R240, R241, R244 to R248) -/

/-- A forwarding-table key (R240): KEY_TYPE, KEY_A, KEY_B and KEY_C as an entry holds them. -/
structure FKey where
  typ : Nat
  a : Nat
  b : Nat
  c : Nat
  deriving DecidableEq, Repr

/-- The key of an address in VLAN `vid`. -/
def keyAddr (vid mac : Nat) : FKey := ⟨0, vid, mac % 2 ^ 32, mac / 2 ^ 32⟩

/-- The key of a stream. -/
def keyStream (node flow : Nat) : FKey := ⟨1, node, flow, 0⟩

/-- The key of a redundancy source. -/
def keySource (r mac : Nat) : FKey := ⟨2, r, mac % 2 ^ 32, mac / 2 ^ 32⟩

/-- The nine bytes of a key (R240). -/
def FKey.bytes (k : FKey) : List Byte :=
  beBytes 1 k.typ ++ beBytes 2 k.a ++
    (if k.typ = 1 then beBytes 2 k.b ++ beBytes 4 0 else beBytes 2 k.c ++ beBytes 4 k.b)

/-- The bucket of a key (R240). -/
def FKey.bucket (k : FKey) : Nat := crc32c k.bytes % 2 ^ 14

/-- Entry `w` of bucket `b` (R240). -/
def entryAddr (b w : Nat) : Nat := 0x800000 + 32 * (4 * b + w)

/-- Word `i` of the table entry at `a`. -/
def State.tw (s : State) (a i : Nat) : Nat := (s.reg (a + 4 * i)).toNat

/-- The state with word `i` of the entry at `a` being `v`. -/
def State.setTw (s : State) (a i v : Nat) : State := s.setRegN (a + 4 * i) v

/-- The entry at `a` is valid. -/
def State.entryValid (s : State) (a : Nat) : Bool := maskBit (s.tw a 0) 31

/-- The entry at `a` is valid and holds key `k` (R240). -/
def State.matchEntry (s : State) (k : FKey) (a : Nat) : Bool :=
  let w0 := s.tw a 0
  maskBit w0 31 && bitsOf w0 27 26 == k.typ && bitsOf w0 15 0 == k.a && s.tw a 1 == k.b && bitsOf (s.tw a 2) 15 0 == k.c

/-- The valid entry of key `k`; of two, the lower way (R240). -/
def State.findEntry (s : State) (k : FKey) : Option Nat :=
  ((List.range 4).map (entryAddr k.bucket)).find? (s.matchEntry k)

/-- The lowest invalid way of the bucket of `k`. -/
def State.freeWay (s : State) (k : FKey) : Option Nat :=
  ((List.range 4).map (entryAddr k.bucket)).find? (fun a => !s.entryValid a)

/-- A lookup matches the entry at `a`: HIT is set (R241). -/
def State.touch (s : State) (a : Nat) : State := s.setTw a 0 (maskSet (s.tw a 0) 29)

/-- A table entry changes: the epoch advances (R245). -/
def State.epochUp (s : State) : State :=
  s.p R.FWD_EPOCH F.FWD_EPOCH_CURRENT (s.g R.FWD_EPOCH F.FWD_EPOCH_CURRENT + 1)

/-- The address of flow context `i` (R248). -/
def ctxAddr (i : Nat) : Nat := 0xA00000 + 64 * i

/-- Flow context `i` is valid. -/
def State.ctxValid (s : State) (i : Nat) : Bool := maskBit (s.tw (ctxAddr i) 0) 31

/-- State words 8 to 15 of a context become 0 (R248). -/
def State.clearCtx (s : State) (i : Nat) : State :=
  (List.range 8).foldl (fun s k => s.setTw (ctxAddr i) (8 + k) 0) s

/-- The flow context that an entry names, when it names a valid one (R241, R248). -/
def State.entryCtx (s : State) (a : Nat) : Option Nat :=
  let w := s.tw a 5
  let i := bitsOf w 13 0
  if maskBit w 31 && s.ctxValid i then some i else none

/-- The free contexts of the redundancy source pool (R254). -/
def State.poolFree (s : State) : List Nat :=
  let first := s.g R.FWD_RED_POOL F.FWD_RED_POOL_FIRST
  ((List.range (s.g R.FWD_RED_POOL F.FWD_RED_POOL_COUNT)).map (first + ·)).filter (fun i => !s.ctxValid i)

/-- The pool of redundancy sources is empty: the condition and, at its onset, the fault with DETAIL `detail` and PARAM
`param` (R254). -/
def State.poolEmpty (s : State) (detail param : Nat) : State :=
  if s.condHolds R.FWD_RAW F.FWD_RAW_POOL_EMPTY then s
  else (s.cond R.FWD_RAW F.FWD_RAW_POOL_EMPTY true).fault 9 1 detail param

/-- POOL_EMPTY after a write that may fill or empty the pool (R254).  Such a write has no untracked frame, and the DETAIL
and PARAM that name one are free values (log 23). -/
def State.poolCheck (s : State) : State :=
  if s.poolFree.isEmpty then
    if s.condHolds R.FWD_RAW F.FWD_RAW_POOL_EMPTY then s
    else ((s.poolEmpty ((Config.freeWord s.freeIdx).toNat % 2 ^ 16) (Config.freeWord (s.freeIdx + 1)).toNat).drawn).drawn
  else s.cond R.FWD_RAW F.FWD_RAW_POOL_EMPTY false

/-! ### The policer (R249) -/

/-- TOKENS of context `i` brought up to the present core clock (R249). -/
def State.accrue (s : State) (i : Nat) : State :=
  let a := ctxAddr i
  let clk := s.coreClk8 / 8
  let last := Tbl.get (0, 0) s.fwd.tokens i
  let s := { s with fwd := { s.fwd with tokens := Tbl.set (0, 0) s.fwd.tokens i (clk, 0) } }
  if maskBit (s.tw a 0) 31 && maskBit (s.tw a 0) 29 then
    let num := (clk - last.1) * (s.tw a 1) * 125 + last.2
    let t := sx 32 (s.tw a 8) + (num / 781250000 : Nat)
    let burst : Int := bitsOf (s.tw a 2) 23 0
    if burst ≤ t then s.setTw a 8 (enc 32 burst)
    else
      { s with fwd := { s.fwd with tokens := Tbl.set (0, 0) s.fwd.tokens i (clk, num % 781250000) } }.setTw a 8 (enc 32 t)
  else s

/-- The policer of context `i` on a frame of `n` bytes and class `cls` (R249): the class it leaves with. -/
def State.police (s : State) (i n cls slice : Nat) : State × Nat :=
  let a := ctxAddr i
  if !(maskBit (s.tw a 0) 29) then (s, cls)
  else
    let s := s.accrue i
    let t := sx 32 (s.tw a 8)
    if (n : Int) ≤ t then (s.setTw a 8 (enc 32 (t - n)), cls)
    else ((s.setTw a 15 (s.tw a 15 + 1)).pmc slice 0x0C 1, bitsOf (s.tw a 0) 28 26)

/-! ### Learning (R243) -/

/-- The aggregation group of port `n` (R251). -/
def State.lagOf (s : State) (n : Nat) : Option Nat :=
  if n < 24 then (List.range 8).find? (fun g => bit (s.reg (R.FWD_LAGg_MEMBERS g)) n) else none

/-- PORT_MASK and LAG_MASK that learning writes for ingress port `n`. -/
def State.learnPort (s : State) (n : Nat) : Nat × Nat :=
  match s.lagOf n with
  | some g => (0, 2 ^ g)
  | none => (2 ^ n, 0)

/-- An entry written by learning or by the pool: key `k`, VALID and LEARNED (R243, R254). -/
def State.writeLearned (s : State) (a : Nat) (k : FKey) (w3 w4 w5 : Nat) : State :=
  let s := s.setTw a 0 (2 ^ 31 + 2 ^ 28 + k.typ * 2 ^ 26 + k.a)
  let s := (s.setTw a 1 k.b).setTw a 2 k.c
  (((s.setTw a 3 w3).setTw a 4 w4).setTw a 5 w5).epochUp

/-- Learning from source address `mac` of a frame of VLAN `vid` that entered on port `n`, in slice `slice` (R243). -/
def State.learnFrom (s : State) (n vid mac slice : Nat) : State :=
  let k := keyAddr vid mac
  let pm := s.learnPort n
  match s.findEntry k with
  | some a =>
    let s := s.touch a
    let w0 := s.tw a 0
    if maskBit w0 30 || !maskBit w0 28 then s
    else if bitsOf (s.tw a 3) 24 0 = pm.1 ∧ bitsOf (s.tw a 4) 7 0 = pm.2 then s
    else
      let s := s.setTw a 3 (s.tw a 3 - bitsOf (s.tw a 3) 24 0 + pm.1)
      ((s.setTw a 4 (s.tw a 4 - bitsOf (s.tw a 4) 7 0 + pm.2)).epochUp).pmc slice 7 1
  | none =>
    match s.freeWay k with
    | some a => (s.writeLearned a k pm.1 pm.2 0).pmc slice 7 1
    | none =>
      ((s.inc R.FWD_CNT_LEARN_FAIL F.FWD_CNT_LEARN_FAIL_COUNT).raw R.FWD_RAW F.FWD_RAW_LEARN_FAIL).pmc slice 8 1

/-- The sweep visits the entry at `a`: it acts on a valid learned entry that is not STATIC, and not with PERIOD_S 0 (R241,
R243). -/
def State.sweepEntry (s : State) (a : Nat) : State :=
  let w0 := s.tw a 0
  if s.g R.FWD_AGE F.FWD_AGE_PERIOD_S = 0 ∨ !(maskBit w0 31 && maskBit w0 28) ∨ maskBit w0 30 then s
  else if maskBit w0 29 then (s.setTw a 0 (maskClr w0 29)).epochUp
  else
    let s := (s.setTw a 0 (maskClr (maskClr w0 31) 28)).epochUp
    if bitsOf w0 27 26 = 2 && maskBit (s.tw a 5) 31 then
      let c := ctxAddr (bitsOf (s.tw a 5) 13 0)
      (s.setTw c 0 (maskClr (s.tw c 0) 31)).poolCheck
    else s

/-! ### Redundancy sources (R253, R254) -/

/-- The duplicate window of context `i` on sequence number `q` (R253): the frame is accepted. -/
def State.window (s : State) (i q : Nat) : State × Bool :=
  let a := ctxAddr i
  let h : Nat := bitsOf (s.tw a 9) 31 16
  let w := s.tw a 10 + s.tw a 11 * 2 ^ 32
  let now32 : Nat := s.nowTick.toNat / 2 ^ 32
  let forget := (s.g R.FWD_RED_FORGET F.FWD_RED_FORGET_FORGET_MS * 65536000000 + (2 ^ 32 - 1)) / 2 ^ 32
  let ds := sx 16 (enc 16 ((q : Int) - h))
  let x : Nat × Nat × Bool :=
    if forget < enc 32 ((now32 : Int) - s.tw a 12) then (q, 1, true)
    else if 0 < ds then
      (q, if 64 ≤ ds then 1 else ((w * 2 ^ ds.toNat) % 2 ^ 64) ||| 1, true)
    else if -64 < ds then (h, maskSet w (-ds).toNat, !maskBit w (-ds).toNat)
    else (q, 1, true)
  let s := s.setTw a 9 (x.1 * 2 ^ 16 + bitsOf (s.tw a 9) 15 0)
  let s := (s.setTw a 10 (x.2.1 % 2 ^ 32)).setTw a 11 (x.2.1 / 2 ^ 32)
  (s.setTw a 12 now32, x.2.2)

/-- A frame of source `mac` to or from group `r` is untracked (R254). -/
def State.untracked (s : State) (r mac : Nat) : State :=
  let s := (s.inc R.FWD_CNT_UNTRACKED F.FWD_CNT_UNTRACKED_COUNT).raw R.FWD_RAW F.FWD_RAW_UNTRACKED
  if s.poolFree.isEmpty then s.poolEmpty r (mac % 2 ^ 32) else s

/-- A recirculation pass takes a slot of its own, which is wasted (R441, R442). -/
def State.recirc (s : State) (slice : Nat) : State := (s.pmc slice 0x0A 1).pmc slice 2 1

/-- The slot of frame `f` in `slice` is retired when the frame goes on, and wasted when it does not or is known not to be
well-formed (R442). -/
def State.slot (s : State) (f : Frame) (slice : Nat) (on : Bool) : State :=
  s.pmc slice (if on && f.bad.isNone then 1 else 2) 1

/-- The source context of `mac` in group `r`, by a type 2 lookup; a miss takes one from the pool (R253, R254).  A hit
without DD_EN or without a valid context gives none. -/
def State.sourceCtx (s : State) (r mac slice : Nat) : State × Option Nat :=
  let k := keySource r mac
  let s := s.recirc slice
  match s.findEntry k with
  | some a =>
    let s := (s.touch a).pmc slice 5 1
    match s.entryCtx a with
    | some i =>
      if maskBit (s.tw a 5) 30 then (s.setTw (ctxAddr i) 14 (s.tw (ctxAddr i) 14 + 1), some i) else (s, none)
    | none => (s, none)
  | none =>
    let s := s.pmc slice 6 1
    match s.poolFree, s.freeWay k with
    | i :: _, some a =>
      let s := s.writeLearned a k 0 0 (2 ^ 31 + 2 ^ 30 + i)
      let c := ctxAddr i
      let s := (s.clearCtx i).setTw c 0 (maskSet (s.tw c 0) 31)
      let s := s.setTw c 14 1
      (if s.poolFree.isEmpty then s.poolEmpty r (mac % 2 ^ 32) else s, some i)
    | _, _ => (s.untracked r mac, none)

/-- A frame from `mac` is sent into group `r`: it takes SEQ_TX and runs the window, or is untracked (R253). -/
def State.sendInto (s : State) (r mac slice : Nat) : State × Option Nat :=
  match s.sourceCtx r mac slice with
  | (s, none) => (s, none)
  | (s, some i) =>
    let a := ctxAddr i
    let q := bitsOf (s.tw a 9) 15 0
    let s := s.setTw a 9 (s.tw a 9 - q + (q + 1) % 2 ^ 16)
    ((s.window i q).1, some q)

/-! ### Destination sets (R242, R251, R252) -/

/-- What a lookup of the table, or a miss, gives (R242). -/
structure Route where
  ports : Nat
  lags : Nat
  action : Nat
  /-- CLASS when CLASS_EN. -/
  cls : Option Nat
  newVid : Option Nat
  fc : Option Nat
  /-- A type 0 hit. -/
  hit0 : Bool
  deriving DecidableEq, Repr

/-- The route of a hit on the entry at `a`. -/
def State.entryRoute (s : State) (a : Nat) (hit0 : Bool) : Route :=
  let w3 := s.tw a 3
  let w4 := s.tw a 4
  let w5 := s.tw a 5
  { ports := bitsOf w3 24 0, lags := bitsOf w4 7 0, action := bitsOf w3 31 30,
    cls := if maskBit w5 27 then some (bitsOf w5 26 24) else none,
    newVid := if maskBit w4 31 then some (bitsOf w4 27 16) else none, fc := s.entryCtx a, hit0 := hit0 }

/-- MEMBER of VLAN `v`. -/
def State.members (s : State) (v : Nat) : Nat := s.g (R.FWD_VLANv_MEMBER v) F.FWD_VLANv_MEMBER_MEMBER

/-- The lookup of R242, steps 1 to 5. -/
def State.route (s : State) (b : List Byte) (h : Heads) (vid slice : Nat) : State × Route :=
  let miss (s : State) : State × Route :=
    let s := s.pmc slice 6 1
    let group := beAt b 0 1 % 2 = 1
    let flood := group ∨ s.g (R.FWD_VLANv_CTRL vid) F.FWD_VLANv_CTRL_FLOOD_UNKNOWN = 1
    (s, ⟨if flood then s.members vid else 0, 0, 0, none, none, none, false⟩)
  let addr (s : State) : State × Route :=
    match s.findEntry (keyAddr vid (beAt b 0 6)) with
    | some a => let s := (s.touch a).pmc slice 5 1; (s, s.entryRoute a true)
    | none => miss s
  if h.herd then
    let t := h.herdAt + 2
    match s.findEntry (keyStream (beAt b (t + 8) 2) (beAt b (t + 10) 2 % 2 ^ 14)) with
    | some a => let s := (s.touch a).pmc slice 5 1; (s, s.entryRoute a false)
    | none =>
      let s := (s.inc R.FWD_CNT_STREAM_MISS F.FWD_CNT_STREAM_MISS_COUNT).raw R.FWD_RAW F.FWD_RAW_STREAM_MISS
      addr ((s.pmc slice 6 1).recirc slice)
  else addr s

/-- The active members of aggregation group `g`, in ascending order (R251). -/
def State.lagActive (s : State) (g : Nat) : List Nat :=
  (maskBits (s.g (R.FWD_LAGg_ACTIVE g) F.FWD_LAGg_ACTIVE_PORTS) 24).filter
    (maskBit (s.g (R.FWD_LAGg_MEMBERS g) F.FWD_LAGg_MEMBERS_PORTS))

/-- A write of MEMBERS or ACTIVE: a group that has an active member again may lack one anew (R251). -/
def State.lagAct (s : State) : State :=
  (List.range 8).foldl (fun s g =>
    if maskBit s.fwd.lagEmpty g && !(s.lagActive g).isEmpty then
      { s with fwd := { s.fwd with lagEmpty := maskClr s.fwd.lagEmpty g } }
    else s) s

/-- Aggregation group `g` in a destination set `m` (R251): its members removed, and one active member added. -/
def State.resolveLag (s : State) (m lags hash g : Nat) : State × Nat :=
  let mem := s.g (R.FWD_LAGg_MEMBERS g) F.FWD_LAGg_MEMBERS_PORTS
  let act := s.lagActive g
  let named := maskBit lags g || (m &&& mem) != 0
  if !named then (s, m)
  else
    let m := (maskBits m 25).foldl (fun x n => if maskBit mem n then maskClr x n else x) m
    match act[hash / 2 ^ 16 * act.length / 2 ^ 16]? with
    | some n => ({ s with fwd := { s.fwd with lagEmpty := maskClr s.fwd.lagEmpty g } }, maskSet m n)
    | none =>
      let first := !maskBit s.fwd.lagEmpty g
      let s := { s with fwd := { s.fwd with lagEmpty := maskSet s.fwd.lagEmpty g } }.raw R.FWD_RAW F.FWD_RAW_LAG_EMPTY
      (if first then s.fault 9 2 g mem else s, m)

/-- Redundancy group `r` in a destination set (R252): PORT_B removed; a copy to PORT_A leaves on both, with the
sequence number it takes.  `mac` is the source address. -/
def State.resolveRed (s : State) (m mac slice r : Nat) : State × Nat × Option (Nat × Option Nat) :=
  if s.redMode r = 0 then (s, m, none)
  else
    let a := s.redA r
    let b := s.redB r
    let m := maskClr m b
    if !maskBit m a then (s, m, none)
    else
      match s.sendInto r mac slice with
      | (s, some q) => (s, maskSet m b, some (r, some q))
      | (s, none) => if s.redMode r = 1 then (s, maskSet m b, some (r, none)) else (s, maskClr m a, none)

/-- All redundancy groups in turn. -/
def State.resolveReds (s : State) (m mac slice : Nat) : State × Nat × List (Nat × Option Nat) :=
  (List.range 4).foldl (fun (x : State × Nat × List (Nat × Option Nat)) r =>
    match x.1.resolveRed x.2.1 mac slice r with
    | (s, m, none) => (s, m, x.2.2)
    | (s, m, some e) => (s, m, x.2.2 ++ [e])) (s, m, [])

/-! ### What a slice makes of a frame (R235 to R254, R295, R299, R300) -/

/-- The flow hash (R237). -/
def State.flowHash (s : State) (b : List Byte) (h : Heads) (vid port : Nat) : Nat :=
  let fields := s.g R.FWD_HASH_CFG F.FWD_HASH_CFG_FIELDS
  let t := h.herdAt + 2
  let f : Nat → Nat → Nat → List Byte := fun i k v => beBytes k (if maskBit fields i then v else 0)
  crc32c (f 0 6 (beAt b 0 6) ++ f 1 6 (beAt b 6 6) ++ f 2 2 vid ++ f 3 2 h.etype ++
    f 4 2 (if h.herd then beAt b (t + 8) 2 else 0) ++ f 5 2 (if h.herd then beAt b (t + 10) 2 % 2 ^ 14 else 0) ++ f 6 1 port)

/-- A port's edge setting; P24 receives under the core rules (R300). -/
def State.edgePort (s : State) (n : Nat) : Bool :=
  decide (n < 24) && s.on (R.HRD_PORTn_CFG n) F.HRD_PORTn_CFG_EDGE

/-- A frame is filtered and counted (R236). -/
def State.filterFrame (s : State) : State := s.inc R.FWD_CNT_FILTER F.FWD_CNT_FILTER_COUNT

/-- A HERD_TAG record (R324): code 0 a foreign tag, 1 a failed check. -/
def State.herdTagRec (s : State) (f : Frame) (h : Heads) (code : Nat) : State :=
  let t := h.herdAt + 2
  let o := beAt f.bytes t 8
  let r := s.mkRec 0x07 (beAt f.bytes (t + 8) 2) (o % 2 ^ 32) (o / 2 ^ 32)
    (beAt f.bytes (t + 14) 2 * 2 ^ 16 + herdCheck f.bytes h.herdAt) (f.port * 2 ^ 11 + code)
  s.record true { r with time := tickOf f.stamp.t, coarse := f.stamp.coarse, gap := f.stamp.gap, seg := f.stamp.seg }

/-- A tag whose check fails on a core port (R300): counted, recorded, and a fault when none came on the port in the
preceding 1 ms. -/
def State.tagBad (s : State) (f : Frame) (h : Heads) : State :=
  let s := (s.inc R.HRD_CNT_TAG_BAD F.HRD_CNT_TAG_BAD_COUNT).raw R.HRD_RAW F.HRD_RAW_TAG_BAD
  let s := s.herdTagRec f h 1
  let last := Tbl.get none s.fwd.tagBad f.port
  let s' := { s with fwd := { s.fwd with tagBad := Tbl.set none s.fwd.tagBad f.port (some s.regClk) } }
  let quiet := match last with
    | none => true
    | some c => decide (250000 < s.regClk - c)
  if quiet then s'.fault 11 3 f.port (herdCheck f.bytes h.herdAt * 2 ^ 16 + beAt f.bytes (h.herdAt + 16) 2) else s'

/-- The Herd treatment of a frame whose context `i` has HERD_EN (R295, R299, R300): the values it carries, or none when
it stays ordinary. -/
def State.herdOf (s : State) (f : Frame) (h : Heads) (i : Nat) : State × Option HerdInfo :=
  let w3 := s.tw (ctxAddr i) 3
  let bud := R.HRD_BUDGETb (bitsOf w3 29 24)
  let l := s.g bud F.HRD_BUDGETb_L_US
  if !(s.on R.HRD_CTRL F.HRD_CTRL_EN) || !maskBit w3 31 then (s, none)
  else if s.edgePort f.port then
    if h.herdType then (s, none)
    else if 16366 < f.bytes.length then
      ((s.inc R.HRD_CNT_OVERSIZE F.HRD_CNT_OVERSIZE_COUNT).raw R.HRD_RAW F.HRD_RAW_OVERSIZE, none)
    else
      (s, some { origin := tickOf f.stamp.t, node := s.g R.HRD_NODE_ID F.HRD_NODE_ID_NODE_ID, flow := bitsOf w3 13 0,
                 trig := s.on bud F.HRD_BUDGETb_TRIG_SET, late := false, hops := 0, cum := 0, budget := l,
                 badStamp := f.stamp.coarse || f.stamp.gap })
  else if h.herd then
    let t := h.herdAt + 2
    let fl := beAt f.bytes (t + 10) 2
    let hc := beAt f.bytes (t + 12) 2
    (s, some { origin := BitVec.ofNat 64 (beAt f.bytes t 8), node := beAt f.bytes (t + 8) 2, flow := fl % 2 ^ 14,
               trig := maskBit fl 15, late := maskBit fl 14, hops := hc / 4096, cum := hc % 4096, budget := l,
               badStamp := false })
  else (s, none)

/-- The Herd trigger fires (R331 source 5). -/
def State.herdTrigs (s : State) (f : Frame) (i : HerdInfo) : Bool :=
  i.trig && !s.edgePort f.port && s.on R.SPR_TRIG_EN F.SPR_TRIG_EN_HERD

/-- The base of a lookup's result: nothing to do for the frame. -/
def Looked.nothing (h : Heads) (vid cls hash epoch : Nat) (redIn : Option Nat) (decision : Nat) (learn : Bool) : Looked :=
  { heads := h, vid := vid, cls := cls, hash := hash, epoch := epoch, fc := none, stampReq := false, latePass := false,
    outVid := vid, redIn := redIn, redOut := [], dests := [], reason := 0, decision := decision, learn := learn,
    mgmt := false, herd := none }

/-- The main lookup of a frame that ingress did not filter (R242, R248, R249, R251, R252).  `base` is its result so
far, `ring` the other ring port of an accepted HSR frame. -/
def State.lookupRoute (s : State) (f : Frame) (base : Looked) (ring : Option Nat) : State × Looked :=
  let b := f.bytes
  let h := base.heads
  let slice := base.hash % 2
  let inPort := match base.redIn with | some r => s.redA r | none => f.port
  match s.route b h base.vid slice with
  | (s, rt) =>
    let cls := rt.cls.getD base.cls
    let x : State × Option HerdInfo := match rt.fc with
      | some i => (s.setTw (ctxAddr i) 14 (s.tw (ctxAddr i) 14 + 1)).herdOf f h i
      | none => (s, none)
    let s := x.1
    let s := match x.2 with
      | some i =>
        let s := s.pmc slice 9 1
        if s.herdTrigs f i then s.fire 5 (i.node * 2 ^ 16 + i.flow) else s
      | none => s
    let y : State × Nat := match rt.fc, x.2 with
      | some i, none => s.police i b.length cls slice
      | _, _ => (s, cls)
    let s := y.1
    -- the final destination set (R242)
    let own := s.lagOf inPort
    let m := (maskBits rt.ports 25).foldl (fun m n =>
      if n == inPort || (s.lagOf n).isSome && s.lagOf n == own then maskClr m n
      else if !(maskBit (s.members base.vid) n) || s.g (R.FWD_PORTn_STATE n) F.FWD_PORTn_STATE_STATE != 3 then maskClr m n
      else m) rt.ports
    let lags := match own with | some g => maskClr rt.lags g | none => rt.lags
    let z := (List.range 8).foldl (fun (x : State × Nat) g => x.1.resolveLag x.2 lags base.hash g) (s, m)
    -- a frame that ACTION keeps from the ports is not sent into a group
    let w := if 2 ≤ rt.action then (z.1, z.2, []) else z.1.resolveReds z.2 (beAt b 6 6) slice
    let s := w.1
    let ringPort := match ring, base.redIn with
      | some n, some r =>
        if beAt b 0 1 % 2 = 0 && rt.hit0 && !(maskBit rt.ports (s.redA r) || maskBit rt.ports (s.redB r)) then none
        else some n
      | _, _ => none
    let m := match ringPort with | some n => maskSet w.2.1 n | none => w.2.1
    let reason := if rt.action = 1 ∧ !maskBit m 24 then 1 else 0
    let m := if rt.action = 1 then maskSet m 24 else if rt.action = 2 then 2 ^ 24 else if rt.action = 3 then 0 else m
    let s := if m = 0 then s.filterFrame else s
    let i := rt.fc.getD 0
    (s.slot f slice (decide (m ≠ 0)),
      { base with
        cls := y.2, fc := rt.fc, stampReq := rt.fc.isSome && maskBit (s.tw (ctxAddr i) 0) 30,
        latePass := rt.fc.isSome && maskBit (s.tw (ctxAddr i) 3) 30, outVid := rt.newVid.getD base.vid,
        redOut := w.2.2, dests := maskBits m 25, reason := reason,
        decision := if m = 0 then 1 else if rt.action = 2 then 2 else 0, herd := x.2 })

/-- The sequence number of a frame with a redundancy trailer or tag (R252, R253). -/
def redSeq (b : List Byte) (h : Heads) : Option Nat :=
  match h.rct with
  | some x => some x.1
  | none => if h.hsr then some (beAt b ((if h.vlan then 16 else 12) + 4) 2) else none

/-- The check of the LAN a redundancy trailer names against the port of redundancy pair `r` it came in at (R252). -/
def State.lanCheck (s : State) (r n : Nat) (h : Heads) : State :=
  match h.rct with
  | some x =>
    if x.2 = (if n = s.redA r then 0xA else 0xB) then s
    else (s.inc R.FWD_CNT_WRONG_LAN F.FWD_CNT_WRONG_LAN_COUNT).raw R.FWD_RAW F.FWD_RAW_WRONG_LAN
  | none => s

/-- A frame with sequence number `q` against the window of its source: a duplicate goes no further (R253). -/
def State.lookupSeq (s : State) (f : Frame) (base : Looked) (r q : Nat) : State × Looked :=
  let slice := base.hash % 2
  let x := s.sourceCtx r (beAt f.bytes 6 6) slice
  match x.2 with
  | none => x.1.lookupRoute f base none
  | some i =>
    let y := x.1.window i q
    if y.2 then
      y.1.lookupRoute f base (if base.heads.hsr then some (if f.port = y.1.redA r then y.1.redB r else y.1.redA r) else none)
    else ((y.1.inc R.FWD_CNT_DUP F.FWD_CNT_DUP_COUNT).pmc slice 2 1, base)

/-- A frame the earlier checks pass: a redundancy port's frame goes by its sequence number, every other frame is routed
(R252, R253). -/
def State.lookupRed (s : State) (f : Frame) (base : Looked) : State × Looked :=
  match base.redIn with
  | none => s.lookupRoute f base none
  | some r =>
    let s := s.lanCheck r f.port base.heads
    match redSeq f.bytes base.heads with
    | none => s.lookupRoute f base none
    | some q => s.lookupSeq f base r q

/-- What the slice makes of frame `f` (R233, R235, R236, R242, R252, R253, R299, R300). -/
def State.lookup (s : State) (f : Frame) : State × Looked :=
  let b := f.bytes
  let n := f.port
  let red := if n < 24 then s.redOf n else none
  let h := headsOf b (match red with | some r => s.redMode r | none => 0)
  let inPort := match red with | some r => s.redA r | none => n
  let cfg := R.FWD_PORTn_CFG n
  let vid := if h.vlan ∧ h.tci % 4096 ≠ 0 then h.tci % 4096 else s.g cfg F.FWD_PORTn_CFG_PVID
  let pcp := if h.vlan then h.tci / 2 ^ 13 else s.g cfg F.FWD_PORTn_CFG_DEF_PCP
  let cls := ((s.reg (R.FWD_PORTn_PCPMAP n)).toNat / 2 ^ (3 * pcp)) % 8
  let hash := s.flowHash b h vid n
  let slice := hash % 2
  let epoch := s.g R.FWD_EPOCH F.FWD_EPOCH_CURRENT
  let base := fun d l => Looked.nothing h vid cls hash epoch red d l
  let st := s.g (R.FWD_PORTn_STATE inPort) F.FWD_PORTn_STATE_STATE
  let vlanBad := !(s.on (R.FWD_VLANv_MEMBER vid) F.FWD_VLANv_MEMBER_VALID) ||
    (s.on (R.FWD_PORTn_CFG inPort) F.FWD_PORTn_CFG_INGRESS_FILTER && !maskBit (s.members vid) inPort)
  let learn := decide (2 ≤ st) && s.on R.FWD_CTRL F.FWD_CTRL_LEARN_EN && s.on (R.FWD_PORTn_CFG inPort) F.FWD_PORTn_CFG_LEARN_EN &&
    s.on (R.FWD_VLANv_CTRL vid) F.FWD_VLANv_CTRL_LEARN_EN && beAt b 6 1 % 2 == 0 && !vlanBad
  let hrd := s.on R.HRD_CTRL F.HRD_CTRL_EN
  match s.ptpConsumed n b h with
  | some m => (s.slot f slice true, { base 3 false with mgmt := msgType m == 0xC || msgType m == 0xD })
  | none =>
    if decide (n < 24) && isEsmc b h then (s.slot f slice true, base 3 false)
    else if isLinkLocal b then (s.slot f slice true, { base 2 false with dests := [24], reason := 2 })
    else if !(s.on R.FWD_CTRL F.FWD_CTRL_EN) || decide (st < 3) || vlanBad then
      ((s.filterFrame).pmc slice 2 1, base 1 learn)
    else if s.edgePort n && h.herd then
      let s := (s.inc R.HRD_CNT_FOREIGN F.HRD_CNT_FOREIGN_COUNT).raw R.HRD_RAW F.HRD_RAW_FOREIGN
      ((s.herdTagRec f h 0).pmc slice 2 1, base 1 learn)
    else if hrd && !s.edgePort n && h.herd && s.on (R.HRD_PORTn_CFG n) F.HRD_PORTn_CFG_CLAIM_IN &&
        !(decide (n < 24) && s.on (R.PTP_Pn_STATUS n) F.PTP_Pn_STATUS_WINNER) then
      let s := (s.inc R.HRD_CNT_CLAIM F.HRD_CNT_CLAIM_COUNT).raw R.HRD_RAW F.HRD_RAW_CLAIM_DISCARD
      ((s.filterFrame).pmc slice 2 1, base 1 learn)
    else
      let s := if hrd && !s.edgePort n && h.herdType && !h.herd then s.tagBad f h else s
      s.lookupRed f (base 0 learn)

/-! ### Staging and commit (R244, R245, R248) -/

/-- The window of a table address: the word size of an entry in bytes; 32 for forwarding entries, 64 for contexts. -/
def entrySize (a : Nat) : Nat := if a < 0xA00000 then 32 else 64

/-- The entry that a table address belongs to. -/
def tableEntry (a : Nat) : Nat := a - a % entrySize a

/-- The word index of a table address. -/
def tableWord (a : Nat) : Nat := a % entrySize a / 4

/-- The staging buffer of a window. -/
def State.staging (s : State) (a : Nat) : Option Staging := if a < 0xA00000 then s.fwd.fe else s.fwd.fc

/-- The staging buffer of a window becomes `x`; FE_STAGED or FC_STAGED follows (R244). -/
def State.setStaging (s : State) (a : Nat) (x : Option Staging) : State :=
  if a < 0xA00000 then
    { s with fwd := { s.fwd with fe := x } }.pb R.FWD_STATUS F.FWD_STATUS_FE_STAGED x.isSome
  else { s with fwd := { s.fwd with fc := x } }.pb R.FWD_STATUS F.FWD_STATUS_FC_STAGED x.isSome

/-- A staging buffer is discarded (R244). -/
def State.stageAbort (s : State) : State :=
  (s.inc R.FWD_CNT_STAGE_ABORT F.FWD_CNT_STAGE_ABORT_COUNT).raw R.FWD_RAW F.FWD_RAW_STAGE_ABORT

/-- A staged word with every field at a value it can hold (R48, R241, R248); `none`: writes of the word are ignored. -/
def stagedWord (a v : Nat) : Option Nat :=
  let i := tableWord a
  if a < 0xA00000 then
    if i = 0 then
      let typ := min (bitsOf v 27 26) 2
      some (bitsOf v 31 30 * 2 ^ 30 + typ * 2 ^ 26 + bitsOf v 15 0)
    else if i = 1 then some v
    else if i = 2 then some (bitsOf v 15 0)
    else if i = 3 then some (bitsOf v 31 30 * 2 ^ 30 + bitsOf v 24 0)
    else if i = 4 then
      some (bitsOf v 31 31 * 2 ^ 31 + min (max (bitsOf v 27 16) 1) 4094 * 2 ^ 16 + bitsOf v 7 0)
    else if i = 5 then some (bitsOf v 31 30 * 2 ^ 30 + bitsOf v 27 24 * 2 ^ 24 + bitsOf v 13 0)
    else if i = 6 then some 0
    else none
  else if i = 0 then some (bitsOf v 31 26 * 2 ^ 26)
  else if i = 1 then some (min (max v 1) 25000000)
  else if i = 2 then some (max (bitsOf v 23 0) 16384)
  else if i = 3 then some (bitsOf v 31 24 * 2 ^ 24 + bitsOf v 13 0)
  else if i = 4 then some (min v 25000000)
  else if i = 5 ∨ i = 6 then some 0
  else none

/-- A write to a word of an entry other than its commit word (R244). -/
def State.stageWrite (s : State) (a v : Nat) : State :=
  match stagedWord a v with
  | none => s
  | some w =>
    let fresh : Staging := ⟨tableEntry a, Tbl.set none [] (tableWord a) (some w)⟩
    match s.staging a with
    | none => s.setStaging a (some fresh)
    | some b =>
      if b.entry = tableEntry a then s.setStaging a (some { b with words := Tbl.set none b.words (tableWord a) (some w) })
      else s.stageAbort.setStaging a (some fresh)


/-- A write to the commit word of the entry that address `a` belongs to (R241, R244, R245, R248). -/
def State.commit (s : State) (a v : Nat) : State :=
  let e := tableEntry a
  let mine := match s.staging a with
    | some b => if b.entry = e then b.words else []
    | none => []
  let s := match s.staging a with
    | some b => if b.entry = e then s else s.stageAbort
    | none => s
  let s := s.setStaging a none
  if a < 0xA00000 then
    let keep := bitsOf (s.tw e 0) 28 28
    let s := mine.foldl (fun s p => match p.2 with | some w => s.setTw e p.1 w | none => s) s
    -- HIT is cleared; LEARNED stays only while VALID does
    let w0 := s.tw e 0
    let w0 := maskClr (maskClr w0 29) 28
    let s := s.setTw e 0 (if maskBit w0 31 ∧ keep = 1 then maskSet w0 28 else w0)
    let s := if bitsOf w0 27 26 = 1 then (s.setTw e 1 (s.tw e 1 % 2 ^ 14)).setTw e 2 0 else s
    s.epochUp
  else
    let i := (e - 0xA00000) / 64
    let had := !s.poolFree.isEmpty
    let s := s.accrue i
    let s := mine.foldl (fun s p => match p.2 with | some w => s.setTw e p.1 w | none => s) s
    let s := if v % 2 = 1 then s.clearCtx i else s
    if had && s.poolFree.isEmpty || s.condHolds R.FWD_RAW F.FWD_RAW_POOL_EMPTY then s.epochUp.poolCheck else s.epochUp

/-! ### The drain (R247) -/

/-- A write of DRAIN (R247). -/
def State.drainStart (s : State) : State :=
  let ids := (s.fwd.frames.filter (fun f => f.look.isSome)).map (fun f => f.id)
  { s with fwd := { s.fwd with drain := ids } }.p R.FWD_STATUS F.FWD_STATUS_DRAIN_PENDING 1

/-- Every descriptor the drain waits for has gone (R247). -/
def State.drainDone (s : State) : State :=
  if s.on R.FWD_STATUS F.FWD_STATUS_DRAIN_PENDING && s.fwd.drain.all (fun i => s.fwd.frames.all (fun f => f.id != i)) then
    ({ s with fwd := { s.fwd with drain := [] } }.p R.FWD_STATUS F.FWD_STATUS_DRAIN_PENDING 0).raw R.FWD_RAW
      F.FWD_RAW_DRAIN_DONE
  else s

end Sys2Proof.Machine
end

