-- ==== Sys2Proof/Machine/Queues.lean ====
section
/-! DEFINITION. Cells, admission, queues, back-pressure, spill, ageing and the departure of a copy
(spec/10_buffers_backpressure_and_ageing.md R264 to R293; spec/09 R234, R255, R257, R261). -/

namespace Sys2Proof.Machine

/-- The state with forwarding state `x`. -/
def State.setFwd (s : State) (x : Fwd) : State := { s with fwd := x }

/-- The state with frame `f` in place of the one with its id. -/
def State.setFrame (s : State) (f : Frame) : State :=
  s.setFwd { s.fwd with frames := s.fwd.frames.map (fun g => if g.id = f.id then f else g) }

/-- The frame with identity `i`. -/
def State.frameOf (s : State) (i : Nat) : Option Frame := s.fwd.frames.find? (fun f => f.id == i)

/-- Queue `q`, head first. -/
def State.queue (s : State) (q : Nat) : List QCopy := Tbl.get [] s.fwd.queues q

/-- The state with queue `q` holding `l`. -/
def State.setQueue (s : State) (q : Nat) (l : List QCopy) : State :=
  s.setFwd { s.fwd with queues := Tbl.set [] s.fwd.queues q l }

/-- The calendar of port `n`, in key order. -/
def State.cal (s : State) (n : Nat) : List HCopy := Tbl.get [] s.fwd.cals n

/-- The pass list of port `n`. -/
def State.passList (s : State) (n : Nat) : List HCopy := Tbl.get [] s.fwd.passes n

/-- The length of a frame (R231). -/
def Frame.len (f : Frame) : Nat := f.bytes.length

/-- The received FCS. -/
def Frame.fcs (f : Frame) : Nat := leNat (f.bytes.drop (f.len - 4))

/-- Cells of `n` bytes (R264). -/
def cellsOf (n : Nat) : Nat := (n + 255) / 256

/-! ### Cells (R264 to R269) -/

/-- The sum of the queue minimums: 128 each after reset (R265). -/
def State.minSum (s : State) : Nat :=
  s.regs.foldl (fun t (p : Nat × Word) =>
    if R.QUE_Qq_MIN 0 ≤ p.1 ∧ p.1 < R.QUE_Qq_MIN 200 then t + p.2.toNat - 128 else t) 25600

/-- The size of the shared pool (R265). -/
def State.shared (s : State) : Nat := 131072 - 3200 - s.g R.QUE_HERD_CELLS F.QUE_HERD_CELLS_CELLS - s.minSum

/-- Cells that frame `f` charges to the shared pool. -/
def Frame.poolCells (f : Frame) : Nat := f.landPool + (if f.account = .pool then f.cells else 0)

/-- Cells charged to the shared pool. -/
def State.poolUsed (s : State) : Nat := s.fwd.frames.foldl (fun t f => t + f.poolCells) 0

/-- Cells charged to account `a`. -/
def State.charged (s : State) (a : Account) : Nat :=
  s.fwd.frames.foldl (fun t f => if f.account = a then t + f.cells else t) 0

/-- Free cells of the shared pool (R265, R269). -/
def State.sharedFree (s : State) : Nat := s.shared - s.poolUsed

/-- The headroom sum (R288). -/
def State.headroomSum (s : State) : Nat :=
  (List.range 24).foldl (fun t n =>
    if s.g (R.QUE_Pn_PFC_CFG n) F.QUE_Pn_PFC_CFG_TX_EN = 0 then t
    else t + s.g (R.QUE_Pn_HEADROOM n) F.QUE_Pn_HEADROOM_H) 0

/-- LOSSLESS_OK (R288); at its reset value 0 until the core domain runs (DESIGN CHOICE, log 1). -/
def State.losslessOk (s : State) : Bool :=
  s.runs .core && decide (s.headroomSum + s.g R.QUE_POOL_HYST F.QUE_POOL_HYST_CELLS ≤ s.shared) &&
    s.on R.QUE_CTRL F.QUE_CTRL_POOL_XOFF_EN

/-- Free cells of the landing reserve of port `n` (R265, R266). -/
def State.landingFree (s : State) (n : Nat) : Nat :=
  128 - s.fwd.frames.foldl (fun t f => if f.port = n then t + f.landing else t) 0

/-- The usage U[n][p] changes by `d` (R279). -/
def State.usageAdd (s : State) (n p : Nat) (d : Int) : State :=
  let a := R.QUE_INn_Up n p
  s.setRegN a (enc 26 (((s.reg a).toNat : Int) + d))

/-- A cell count register changes by `d`. -/
def State.cellsAdd (s : State) (a : Nat) (d : Int) : State := s.setRegN a (((s.reg a).toNat : Int) + d).toNat

/-! ### XOFF (R282, R283) -/

/-- The priority cause on port `n`, with its hysteresis (R282). -/
def State.prioCause (s : State) (n : Nat) : Nat :=
  let was := Tbl.get 0 s.fwd.prioX n
  (List.range 8).foldl (fun m p =>
    let u := (s.reg (R.QUE_INn_Up n p)).toNat
    if s.g (R.QUE_Pn_XOFF n) F.QUE_Pn_XOFF_XOFF_TH ≤ u then maskSet m p
    else if maskBit was p && decide (s.g (R.QUE_Pn_XON n) F.QUE_Pn_XON_XON_TH < u) then maskSet m p
    else m) 0

/-- XOFF of port `n` formed anew (R282): the priority cause follows the usage, enabled or not. -/
def State.portXoff (s : State) (n : Nat) : State :=
  let en := s.g (R.QUE_Pn_PFC_CFG n) F.QUE_Pn_PFC_CFG_TX_EN
  let m := s.prioCause n
  let s := s.setFwd { s.fwd with prioX := Tbl.set 0 s.fwd.prioX n m }
  let all := s.on R.QUE_STATUS F.QUE_STATUS_POOL_XOFF || s.fwd.stallOn
  s.p (R.QUE_Pn_PAUSE_STATUS n) F.QUE_Pn_PAUSE_STATUS_TX_XOFF (if all then en else m &&& en)

/-- The causes of XOFF formed anew (R282). -/
def State.xoff (s : State) : State :=
  let free := s.sharedFree
  let sum := s.headroomSum
  let was := s.on R.QUE_STATUS F.QUE_STATUS_POOL_XOFF
  let now := s.on R.QUE_CTRL F.QUE_CTRL_POOL_XOFF_EN &&
    (decide (free ≤ sum) || (was && decide (free < sum + s.g R.QUE_POOL_HYST F.QUE_POOL_HYST_CELLS)))
  let s := s.pb R.QUE_STATUS F.QUE_STATUS_POOL_XOFF now
  let s := if now && !was then s.raw R.QUE_RAW F.QUE_RAW_POOL_XOFF else s
  let s := if s.fwd.stallOn && s.runs .core && s.fwd.stalled.isEmpty then s.setFwd { s.fwd with stallOn := false } else s
  (List.range 24).foldl State.portXoff s

/-! ### Copies in queues (R255, R266, R267, R289) -/

/-- The queue of a copy. -/
def QCopy.queue (c : QCopy) : Nat := 8 * c.port + c.cls

/-- Any data of port `n` lies in DRAM. -/
def State.portSpilled (s : State) (n : Nat) : Bool :=
  (List.range 8).any (fun c => (s.queue (8 * n + c)).any (fun x => x.dram))

/-- A copy of `f` to port `n` is sent cut-through when queued now (R255). -/
def State.cutsThrough (s : State) (f : Frame) (l : Looked) (n : Nat) : Bool :=
  let prpIn := match l.redIn with | some r => s.redMode r == 1 | none => false
  let adds := l.redOut.any (fun e => e.2.isSome && (s.redA e.1 == n || s.redB e.1 == n))
  decide (n < 24) && s.on (R.FWD_PORTn_CFG n) F.FWD_PORTn_CFG_CT_EN && l.herd.isNone &&
    (s.queue (8 * n + l.cls)).isEmpty && !s.portSpilled n && !adds && !prpIn && decide (f.port < 24) && !f.direct

/-- A copy of `f` joins the queue of port `n` (R266, R267, R289). -/
def State.enqueue (s : State) (f : Frame) (l : Looked) (n : Nat) : State :=
  let c : QCopy := { frame := f.id, port := n, cls := l.cls, e := s.us, cut := s.cutsThrough f l n, dram := false,
                     reason := if n = 24 then l.reason else 0 }
  let s := if c.cut then s.pmc (l.hash % 2) 0x0B 1 else s
  let s := s.setQueue c.queue (s.queue c.queue ++ [c])
  (s.cellsAdd (R.QUE_Qq_ONDIE c.queue) f.cells).pmc 2 1 1

/-- A copy leaves the counts of its queue. -/
def State.uncount (s : State) (c : QCopy) : State :=
  match s.frameOf c.frame with
  | none => s
  | some f =>
    if c.dram then
      (s.cellsAdd (R.QUE_Qq_SPILL c.queue) (-(f.cells : Int))).cellsAdd R.QUE_SPILL_USED (-(cellsOf (f.len + 64) : Int))
    else s.cellsAdd (R.QUE_Qq_ONDIE c.queue) (-(f.cells : Int))

/-- The account of a frame at its placement, when one has room (R266). -/
def State.accountFor (s : State) (f : Frame) (l : Looked) : Option Account :=
  let pool := if s.poolUsed - f.landPool + f.cells ≤ s.shared then some Account.pool else none
  match l.dests with
  | [] => some .none
  | n :: _ =>
    if l.herd.isSome then
      if s.charged .herd + f.cells ≤ s.g R.QUE_HERD_CELLS F.QUE_HERD_CELLS_CELLS then some .herd else pool
    else
      let q := 8 * n + l.cls
      if s.charged (.min q) + f.cells ≤ s.g (R.QUE_Qq_MIN q) F.QUE_Qq_MIN_CELLS then some (.min q) else pool

/-- The slice hands frame `f` to the queue manager on account `a` (R266, R304). -/
def State.handOver (s : State) (f : Frame) (l : Looked) (a : Account) : State :=
  let herd := l.herd.isSome
  let later := if herd then l.dests.filter (fun n => decide (n < 24)) else []
  let f := { f with landing := 0, landPool := 0, account := a, placed := true, toPlace := later }
  let s := (s.setFrame f).pmc 2 4 (if a = .none then 0 else f.cells)
  (l.dests.filter (fun n => !herd || n == 24)).foldl (fun s n => s.enqueue f l n) s

/-- The frames at the end of slice `k`'s pipeline are handed over, in order, while accounts have room (R266, R283). -/
def State.unstall (s : State) (k : Nat) : List Nat → State
  | [] => s.setFwd { s.fwd with stalled := Tbl.set [] s.fwd.stalled k [] }
  | i :: r =>
    match s.frameOf i with
    | none => s.unstall k r
    | some f =>
      match f.look with
      | none => s.unstall k r
      | some l =>
        match s.accountFor f l with
        | some a => (s.handOver f l a).unstall k r
        | none => s.setFwd { s.fwd with stalled := Tbl.set [] s.fwd.stalled k (i :: r) }

/-- Both slices try to hand over what they hold, while the core domain runs. -/
def State.unstallAll (s : State) : State :=
  if s.runs .core then
    [0, 1].foldl (fun s k => if (Tbl.get [] s.fwd.stalled k).isEmpty then s else s.unstall k (Tbl.get [] s.fwd.stalled k)) s
  else s

/-- Frame `f` stands at the end of slice `k`'s pipeline: handed over, or stalled (R266, R283). -/
def State.toManager (s : State) (f : Frame) (k : Nat) : State :=
  s.unstall k (Tbl.get [] s.fwd.stalled k ++ [f.id])

/-- Copies of frame `i` that lie in queues. -/
def State.queueRefs (s : State) (i : Nat) : List QCopy := s.fwd.queues.flatMap (fun p => p.2.filter (fun c => c.frame == i))

/-- Frame `i` has a copy in a calendar, a pass list or in transmission. -/
def State.heldElsewhere (s : State) (i : Nat) : Bool :=
  s.fwd.cals.any (fun p => p.2.any (fun c => c.frame == i)) || s.fwd.passes.any (fun p => p.2.any (fun c => c.frame == i)) ||
    s.fwd.sending.any (fun p => match p.2 with | some x => x.copy.frame == i | none => false)

/-- A frame that is whole, handed over and without copies gives up its cells; one whose every copy lies in DRAM gives
up its on-die charge (R264, R266). -/
def State.reapFrame (s : State) (f : Frame) : State :=
  if !(f.whole && f.placed && f.toPlace.isEmpty) || s.heldElsewhere f.id then s
  else
    let l := s.queueRefs f.id
    if l.isEmpty then
      (s.setFwd { s.fwd with frames := s.fwd.frames.filter (fun g => g.id != f.id) }).usageAdd f.port f.prio (-(f.cells : Int))
    else if l.all (fun c => c.dram) && f.account != .none then s.setFrame { f with account := .none }
    else s

/-- Cells that have become free are given up, stalled frames handed over, and XOFF formed anew. -/
def State.settle (s : State) : State := ((s.fwd.frames.foldl State.reapFrame s).unstallAll).xoff

/-! ### Departure (R257, R301, R306, R323) -/

/-- The edits of a copy of `f` to port `n` (R235, R241, R252, R301). -/
def State.editsFor (s : State) (f : Frame) (l : Looked) (n : Nat) (late : Bool) : Edits :=
  let h := l.heads
  let pair := fun r => s.redA r == n || s.redB r == n
  let inRing := match l.redIn with | some r => pair r | none => false
  let out := fun (m : Nat) => (l.redOut.find? (fun e => pair e.1 && s.redMode e.1 == m && e.2.isSome)).bind
    (fun e => e.2.map (fun q => (s.redA e.1 == n, q)))
  let edge := s.edgePort n
  { tagged := !maskBit (s.g (R.FWD_VLANv_UNTAG l.outVid) F.FWD_VLANv_UNTAG_UNTAG) n,
    tci := (if h.vlan then h.tci / 4096 * 4096 else f.prio * 8192) + l.outVid,
    dropHsr := h.hsr && !inRing, addHsr := (out 2).map (fun x => (if x.1 then 0 else 1, x.2)),
    dropHerd := h.herd && edge,
    herd := match l.herd with
      | some i => if edge then none else some (herdTagBytes i (i.late || late))
      | none => none,
    dropRct := h.rct.isSome && !inRing, addRct := (out 1).map (fun x => (if x.1 then 0xA else 0xB, x.2)) }

/-- The runs of a copy of `f` to port `n`, of its first `k` bytes. -/
def State.pieces (s : State) (f : Frame) (l : Looked) (n k : Nat) (late : Bool) : List Piece :=
  let b := f.bytes.take k
  if f.direct then [.keep b b] else editPieces b l.heads (s.editsFor f l n late)

/-- A frame record (R323, R325): `typ` 1 FRAME_IN, from its slice (R322), 2 FRAME_OUT. -/
def State.frameRec (s : State) (typ : Nat) (l : Looked) (t : Stamp) (port len fcs detail : Nat) (trig : Bool) :
    State :=
  let sel := if typ = 1 then maskBit (s.g R.SPR_SEL F.SPR_SEL_IN_CLASS) l.cls &&
      maskBit (s.g R.SPR_SEL_PORT_IN F.SPR_SEL_PORT_IN_PORTS) port
    else maskBit (s.g R.SPR_SEL F.SPR_SEL_OUT_CLASS) l.cls &&
      maskBit (s.g R.SPR_SEL_PORT_OUT F.SPR_SEL_PORT_OUT_PORTS) port
  let w7 := l.epoch * 2 ^ 16 + port * 2 ^ 11 + l.cls * 2 ^ 8 + detail
  let stamp := fun (r : Rec) => { r with time := tickOf t.t, coarse := t.coarse, gap := t.gap, seg := t.seg, trig := trig }
  let ord := if typ = 1 then 11 + l.hash % 2 else recOrder typ
  match l.herd with
  | some i =>
    if s.on R.SPR_SEL F.SPR_SEL_HERD_ALL || sel then
      let hops := if typ = 1 then i.hops else min (i.hops + 1) 15
      let o := i.origin.toNat
      let r := s.mkRec typ i.node (o % 2 ^ 32) (o / 2 ^ 32) (i.flow * 2 ^ 18 + hops * 2 ^ 14 + len % 2 ^ 14) w7
      s.pushRec ord false { stamp r with xf := true }
    else s
  | none =>
    if sel then
      let fc := match l.fc with | some i => i * 2 ^ 18 + 2 ^ 17 | none => 0
      let r := s.mkRec typ (if typ = 1 then l.vid else l.outVid) fcs l.hash (fc + len % 2 ^ 14) w7
      s.pushRec ord false (stamp r)
    else s

/-- The two-step records a departing copy asks for (R196, R248, R259). -/
def State.twoStep (s : State) (f : Frame) (l : Looked) (n : Nat) (t : Stamp) : State :=
  let ptp := (ptpIn f.bytes l.heads).map (fun x => (msgSeq x.2, msgType x.2, beAt x.2 4 1))
  let s := match f.tag with
    | some i => s.pushStamp n (fifoRecord t ptp false i)
    | none => s
  match l.fc with
  | some i => if l.stampReq && !f.direct then s.pushStamp n (fifoRecord t ptp false i) else s
  | none => s

/-- The line of port `n` is taken from stamp `t` on by a frame of `k` bytes (R306). -/
def State.lineUse (s : State) (n : Nat) (t : Stamp) (k : Nat) : State :=
  s.setFwd { s.fwd with
    lineEnd := Tbl.set none s.fwd.lineEnd n (some (((tickOf t.t).toNat * 25 + lineTime k) % (25 * 2 ^ 64))) }

/-- A copy of `f` leaves port `n` whole with departure stamp `t`: edited, its FCS carried through, stamped, counted and
recorded (R257, R301, R323). -/
def State.depart (s : State) (f : Frame) (l : Looked) (n : Nat) (t : Stamp) (cut late : Bool) : State :=
  let ps := s.pieces f l n (f.len - 4) late
  let fcs := carriedFcs f.fcs ps
  let out := sentBytes ps
  let s := (s.emit (.frame n (out ++ leBytes 4 fcs))).lineUse n t (out.length + 4)
  let s := (s.inc (R.MAC_Pn_TX_FRAMES n) F.MAC_Pn_TX_FRAMES_COUNT).pmc 2 2 1
  let s := match l.herd with
    | some i => if i.hops = 15 ∧ s.edgePort n = false then s.raw R.HRD_RAW F.HRD_RAW_HOP_SAT else s
    | none => s
  let s := s.frameRec 2 l t n (out.length + 4) fcs (b2n cut * 128 + b2n late * 64) false
  s.twoStep f l n t

/-- What port `n` has sent of a cut-through copy of which `k` bytes have left. -/
def State.partSent (s : State) (n k : Nat) : Option (List Byte) :=
  match Tbl.get none s.fwd.sending n with
  | none => none
  | some x =>
    match s.frameOf x.copy.frame with
    | none => none
    | some f => f.look.map (fun l => (sentBytes (s.pieces f l n (f.len - 4) false)).take k)

/-- A cut-through copy of the bad frame `f` ends (R256): register a in place of the FCS. -/
def State.departBad (s : State) (f : Frame) (l : Looked) (n : Nat) (t : Stamp) (cause : Nat) (zero : List Nat) : State :=
  let b := (List.range f.len).map (fun i => if zero.contains i then 0#8 else f.bytes.getD i 0#8)
  let f' := { f with bytes := b }
  let k := if cause = 3 then f.len else f.len - 4
  let out := sentBytes (s.pieces f' l n k false)
  let out := if cause = 4 then out.take 16380 else out
  let a := crcFold 0xEDB88320 0xFFFFFFFF out
  let s := (s.emit (.frame n (out ++ leBytes 4 a))).lineUse n t (out.length + 4)
  let s := (s.inc (R.MAC_Pn_TX_FRAMES n) F.MAC_Pn_TX_FRAMES_COUNT).pmc 2 2 1
  let s := s.frameRec 2 l t n (out.length + 4) a 128 false
  s.twoStep f l n t

/-! ### Receipt and the end of a frame (R231, R234, R256, R279 to R284) -/

/-- The link of port `n` is up: its MAC runs and has block lock (R270). -/
def State.linkUp (s : State) (n : Nat) : Bool :=
  s.on (R.MAC_Pn_CFG n) F.MAC_Pn_CFG_EN && s.on (R.MAC_Pn_STATUS n) F.MAC_Pn_STATUS_BLOCK_LOCK

/-- The ingress priority of a frame on port `n` (R279). -/
def State.ingressPrio (s : State) (n : Nat) (b : List Byte) : Nat :=
  if beAt b 12 2 = 0x8100 then beAt b 14 1 / 32 else s.g (R.FWD_PORTn_CFG n) F.FWD_PORTn_CFG_DEF_PCP

/-- 64 cells are free to port `n` (R280). -/
def State.cellsFree (s : State) (n : Nat) : Bool := decide (64 ≤ s.landingFree n + s.sharedFree)

/-- The usage of port `n` and priority `p` leaves room for a frame (R280); P24 has no thresholds. -/
def State.usageOk (s : State) (n p : Nat) : Bool :=
  decide (24 ≤ n) || decide ((s.reg (R.QUE_INn_Up n p)).toNat + 64 ≤
    s.g (R.QUE_Pn_XOFF n) F.QUE_Pn_XOFF_XOFF_TH + s.g (R.QUE_Pn_HEADROOM n) F.QUE_Pn_HEADROOM_H)

/-- A frame is refused as a whole (R280): cause 0 limit, 1 no free cells, 2 lane FIFO full. -/
def State.refuse (s : State) (n p cause : Nat) (t : Stamp) : State :=
  let s := (s.inc (R.QUE_Pn_CNT_REFUSED n) F.QUE_Pn_CNT_REFUSED_COUNT).raw R.QUE_RAW F.QUE_RAW_REFUSED
  let r := s.mkRec 0x06 0 (s.reg (R.QUE_INn_Up n p)).toNat 0 0 (n * 2 ^ 11 + p * 2 ^ 8 + cause)
  let s := s.record true { r with time := tickOf t.t, coarse := t.coarse, gap := t.gap, seg := t.seg }
  let quiet := match Tbl.get none s.fwd.refused n with
    | none => true
    | some c => decide (250000 < s.regClk - c)
  let s := s.setFwd { s.fwd with refused := Tbl.set none s.fwd.refused n (some s.regClk) }
  if quiet then s.fault 10 1 n (cause * 2 ^ 8 + p) else s

/-- A new frame on port `n`. -/
def State.newFrame (s : State) (n p : Nat) (b : List Byte) (t : Stamp) : Frame :=
  { id := s.fwd.nextId, port := n, prio := p, bytes := b, stamp := t, whole := false, ended := none, bad := none, lane := false, cells := 0,
    landing := 0, landPool := 0, account := .none, look := none, placed := false, toPlace := [], direct := false, tag := none }

/-- The frame joins those the device holds. -/
def State.addFrame (s : State) (f : Frame) : State :=
  s.setFwd { s.fwd with frames := s.fwd.frames ++ [f], nextId := s.fwd.nextId + 1 }

/-- Frame `f` lands: `k` cells charged to the landing reserve of its port, the rest to the shared pool (R266, R280). -/
def State.land (s : State) (f : Frame) (k : Nat) : Frame :=
  let l := min k (s.landingFree f.port)
  { f with lane := false, cells := k, landing := l, landPool := k - l }

/-- The cells a frame needs now: 64 until its last byte. -/
def Frame.need (f : Frame) : Nat := if f.whole then cellsOf f.len else 64

/-- The first byte of a frame arrives on port `n` (R280, R284, R285).  MAC control frames end in the MAC. -/
def State.receive (s : State) (n : Nat) (x : StampIn) (b : List Byte) : State :=
  if !s.running || !s.linkUp n || s.fwd.frames.any (fun f => f.port == n && !f.whole) then s
  else
    let s := s.inc (R.MAC_Pn_RX_FRAMES n) F.MAC_Pn_RX_FRAMES_COUNT
    if beAt b 12 2 = 0x8808 ∨ s.looping n = true then s
    else
      let p := s.ingressPrio n b
      let t := s.rxStamp n x
      let f := s.newFrame n p b t
      if !s.runs .core then
        let used := s.fwd.frames.foldl (fun k g => if g.lane && g.port == n then k + g.len else k) 0
        if used + b.length ≤ 65536 then s.addFrame { f with lane := true } else s.refuse n p 2 t
      else if !s.cellsFree n then s.refuse n p 1 t
      else if !s.usageOk n p then s.refuse n p 0 t
      else ((s.addFrame (s.land f 64)).usageAdd n p 64).xoff

/-- Why a received frame is not well-formed (R231). -/
def badCause (b : List Byte) (e : RxEnd) : Option Nat :=
  match e with
  | .pcs _ => some 0
  | .uncorr => some 1
  | .trunc _ => some 3
  | .good =>
    if 16384 < b.length then some 4
    else if b.length < 64 then some 5
    else if leNat (b.drop (b.length - 4)) = fcsOf (b.take (b.length - 4)) then none
    else some 2

/-- The waiting copies of frame `i` are removed; how many they were (R234). -/
def State.dropCopies (s : State) (i : Nat) : State × Nat :=
  let l := s.queueRefs i
  let s := l.foldl State.uncount s
  let qs := s.fwd.queues.foldl (fun (t : Tbl (List QCopy)) p => Tbl.set [] t p.1 (p.2.filter (fun c => c.frame != i)))
    s.fwd.queues
  let st := s.fwd.stalled.foldl (fun (t : Tbl (List Nat)) p => Tbl.set [] t p.1 (p.2.filter (fun c => c != i))) s.fwd.stalled
  (s.setFwd { s.fwd with queues := qs, stalled := st }, l.length)

/-- The cut-through copies of frame `i` in transmission. -/
def State.sendingOf (s : State) (i : Nat) : List Sending :=
  s.fwd.sending.filterMap (fun p => match p.2 with | some x => if x.copy.frame = i then some x else none | none => none)

/-- Port `n` has ended its cut-through copy. -/
def State.endSending (s : State) (n : Nat) : State := s.setFwd { s.fwd with sending := Tbl.set none s.fwd.sending n none }

/-- A frame that has been looked up and is whole: judged, its record formed and learning done, or discarded, with its
cut-through copies ended (R231, R234, R243, R256, R323).  `zero`: bytes received with a PCS error. -/
def State.finish (s : State) (f : Frame) (l : Looked) (zero : List Nat) : State :=
  let begun := s.sendingOf f.id
  let trig := match l.herd with | some i => s.herdTrigs f i | none => false
  match f.bad with
  | none =>
    let s := begun.foldl (fun s x =>
      ((s.depart f l x.copy.port x.stamp true false).endSending x.copy.port).cellsAdd (R.QUE_Qq_ONDIE x.copy.queue)
        (-(f.cells : Int))) s
    let s := if l.learn then
        s.learnFrom (match l.redIn with | some r => s.redA r | none => f.port) l.vid (beAt f.bytes 6 6) (l.hash % 2)
      else s
    s.frameRec 1 l f.stamp f.port f.len f.fcs (l.decision * 32 + l.dests.length) trig
  | some cause =>
    let x := s.dropCopies f.id
    let s := x.1.setFrame { f with toPlace := [], placed := true, landing := 0, landPool := 0 }
    let s := if x.2 = 0 ∧ !begun.isEmpty ∧ f.toPlace.isEmpty then s
      else (s.inc R.FWD_CNT_RXBAD F.FWD_CNT_RXBAD_COUNT).raw R.FWD_RAW F.FWD_RAW_RX_BAD
    let s := if begun.isEmpty then s
      else
        let s := begun.foldl (fun s x =>
          ((s.departBad f l x.copy.port x.stamp cause zero).endSending x.copy.port).cellsAdd
            (R.QUE_Qq_ONDIE x.copy.queue) (-(f.cells : Int))) s
        let s := (s.inc R.FWD_CNT_STOMP F.FWD_CNT_STOMP_COUNT).raw R.FWD_RAW F.FWD_RAW_STOMP
        let ports := begun.foldl (fun m x => maskSet m x.copy.port) 0
        s.note 0x05 l.vid (if cause = 3 then 0 else f.fcs) l.hash (cause * 2 ^ 28 + ports)
          (l.epoch * 2 ^ 16 + f.port * 2 ^ 11 + l.cls * 2 ^ 8)
    s.frameRec 1 l f.stamp f.port f.len f.fcs (4 * 32 + begun.length) trig

/-- A lookup completes for the oldest frame of port `n` that waits for one (R238, R242, R266). -/
def State.frameLookup (s : State) (n : Nat) : State :=
  match s.fwd.frames.find? (fun f => f.port == n && f.look.isNone) with
  | none => s
  | some f =>
    if !s.runs .core || (f.lane && !(s.cellsFree n)) then s
    else
      let landed := f.lane
      let f := if f.lane then s.land f f.need else f
      let s := if landed then s.usageAdd f.port f.prio f.cells else s
      match s.lookup f with
      | (s, l) =>
        let f := { f with look := some l, placed := !l.mgmt && l.dests.isEmpty }
        let s := s.setFrame f
        let s := if l.dests.isEmpty then s else s.toManager f (l.hash % 2)
        let s := match s.frameOf f.id with
          | some f => if f.whole then s.finish f l [] else s
          | none => s
        s.settle

/-- Cells beyond ⌈L / 256⌉ return when the last byte has come (R264, R280). -/
def State.trim (s : State) (f : Frame) : State :=
  let k := cellsOf f.len
  if f.lane || f.cells ≤ k then s.setFrame f
  else
    let d : Int := (f.cells - k : Nat)
    let l := min f.landing k
    let pool := if f.landing + f.landPool = 0 then 0 else k - l
    let s := (s.queueRefs f.id ++ (s.sendingOf f.id).map (fun x => x.copy)).foldl
      (fun s c => s.cellsAdd (R.QUE_Qq_ONDIE c.queue) (-d)) s
    (s.setFrame { f with cells := k, landing := l, landPool := pool }).usageAdd f.port f.prio (-d)

/-- The judgement of frame `f`, whose last byte has been received; `zero`: bytes received with a PCS error (R231, R234,
R256). -/
def State.judgeEnd (s : State) (f : Frame) (zero : List Nat) : State :=
  let s := s.trim { f with ended := none }
  match s.frameOf f.id with
  | some f =>
    match f.look with
    | some l => (s.finish f l zero).settle
    | none => s.settle
  | none => s

/-- The core domain runs again: the frames whose last byte came meanwhile are judged (R153). -/
def State.judgeEnds (s : State) : State :=
  s.fwd.frames.foldl (fun s f =>
    match f.ended with
    | some z => s.judgeEnd f z
    | none => s) s

/-- How a reception on port `n` ended: a codeword is marked uncorrectable only with FEC, and a codeword marked so under the
reference event makes the frame bad (R175, R179, R231). -/
def State.endOf (s : State) (n : Nat) (f : Frame) (e : RxEnd) : RxEnd :=
  match e with
  | .uncorr => if s.on (R.MAC_Pn_CFG n) F.MAC_Pn_CFG_FEC then .uncorr else .good
  | .good => if f.stamp.fecBad then .uncorr else .good
  | e => e

/-- The bytes received of a frame with the bytes `b` (R184). -/
def received (e : RxEnd) (b : List Byte) : List Byte :=
  match e with
  | .trunc k => b.take k
  | _ => b

/-- The last byte of the frame arriving on port `n` is received (R231, R234, R256); it is judged once the core domain runs
(R153).  With FEC, `corr` codewords have been corrected since the last frame of the port (R471). -/
def State.frameEnd (s : State) (n : Nat) (e : RxEnd) (corr : Nat) : State :=
  match s.fwd.frames.find? (fun f => f.port == n && !f.whole) with
  | none => s
  | some f =>
    let e := s.endOf n f e
    let b := received e f.bytes
    let f := { f with bytes := b, whole := true, bad := badCause b e }
    let zero := match e with | .pcs l => l | _ => []
    let s := match e with
      | .pcs l => s.satAdd (R.MAC_Pn_PCS_ERR n) F.MAC_Pn_PCS_ERR_COUNT ((l.map (· / 8)).eraseDups.length)
      | .uncorr =>
        (s.inc (R.MAC_Pn_FEC_UNCORR n) F.MAC_Pn_FEC_UNCORR_COUNT).raw (R.MAC_Pn_RAW n) F.MAC_Pn_RAW_FEC_UNCORR
      | _ => s
    let s := if s.on (R.MAC_Pn_CFG n) F.MAC_Pn_CFG_FEC then s.satAdd (R.MAC_Pn_FEC_CORR n) F.MAC_Pn_FEC_CORR_COUNT corr else s
    if s.runs .core then s.judgeEnd f zero else s.setFrame { f with ended := some zero }

/-! ### Spill (R274 to R278) -/

/-- The spill engine may use DRAM (R274, R276). -/
def State.spillUp (s : State) : Bool :=
  s.on R.QUE_CTRL F.QUE_CTRL_SPILL_EN && decide (0 < s.g R.QUE_PART F.QUE_PART_SPILL) &&
    s.on R.QUE_STATUS F.QUE_STATUS_DRAM_READY && s.runs .core

/-- Spill writes and reads wait (R274). -/
def State.dramWaits (s : State) : Bool := s.on R.QUE_DRAM_STATUS F.QUE_DRAM_STATUS_SELF_REFRESH

/-- SPILL_FULL and its condition (R278). -/
def State.spillFull (s : State) (b : Bool) : State :=
  (s.pb R.QUE_STATUS F.QUE_STATUS_SPILL_FULL b).cond R.QUE_RAW F.QUE_RAW_SPILL_FULL b

/-- A copy of `f` has no place in the spill partition, or spill writes wait (R274, R278). -/
def State.spillBlocked (s : State) (f : Frame) : Bool :=
  s.dramWaits || decide (s.g R.QUE_PART F.QUE_PART_SPILL * 65536 < (s.reg R.QUE_SPILL_USED).toNat + cellsOf (f.len + 64))

/-- The condition of SPILL_FULL has ended when no copy that lies whole on die is kept from DRAM any more (R278). -/
def State.spillShow (s : State) : State :=
  if s.on R.QUE_STATUS F.QUE_STATUS_SPILL_FULL &&
      !(s.fwd.frames.any (fun f => f.whole && f.account != .none && s.spillBlocked f)) then s.spillFull false
  else s

/-! ### Ageing (R289 to R292) -/

/-- The age of a copy in µs (R289). -/
def State.ageOf (s : State) (c : QCopy) : Nat := enc 32 ((s.us : Int) - c.e)

/-- The copy is aged (R289). -/
def State.aged (s : State) (c : QCopy) : Bool :=
  decide (s.g (R.QUE_AGE_LIMITc c.cls) F.QUE_AGE_LIMITc_LIMIT_US < s.ageOf c)

/-- A FRAME_AGED record (R324). -/
def State.agedRec (s : State) (c : QCopy) (mem : Bool) : State :=
  match s.frameOf c.frame with
  | none => s
  | some f =>
    match f.look with
    | none => s
    | some l =>
      if s.on R.SPR_SEL F.SPR_SEL_DROPS then
        let fc := match l.fc with | some i => i * 2 ^ 18 + 2 ^ 17 | none => 0
        let w5 := match l.herd with | some i => i.origin.toNat % 2 ^ 32 | none => f.fcs
        let r := s.mkRec 0x03 c.queue (s.ageOf c) w5 (fc + b2n mem * 2 ^ 16 + f.len % 2 ^ 14)
          (l.epoch * 2 ^ 16 + c.port * 2 ^ 11 + l.cls * 2 ^ 8)
        s.record false { r with xf := l.herd.isSome }
      else s

/-- What the removal of aged copy `c` does beside leaving the queue (R291, R292). -/
def State.ageOut (s : State) (c : QCopy) (mem : Bool) : State :=
  let s := s.agedRec c mem
  let s := s.uncount c
  let s := (s.inc (R.QUE_Pn_CNT_AGED c.port) F.QUE_Pn_CNT_AGED_COUNT).raw R.QUE_RAW F.QUE_RAW_AGED
  let s := if mem then s.raw R.QUE_RAW F.QUE_RAW_MEM_AGED else s
  s.pmc 2 3 1

/-- The aged heads of queue `q` are discarded, one after another (R290). -/
def State.ageHeads (s : State) (q : Nat) : List QCopy → State
  | [] => s.setQueue q []
  | c :: r => if s.aged c then (s.ageOut c false).ageHeads q r else s.setQueue q (c :: r)

/-- The age scan (R290). -/
def State.ageScan (s : State) : State :=
  if s.runs .core then ((s.fwd.queues.foldl (fun s p => s.ageHeads p.1 (s.queue p.1)) s).settle).spillShow else s

/-! ### Spill writes and reads (R275 to R278) -/

/-- Writes the copies of `l` behind the `head` cells kept on die, oldest first, until one cannot be written; the queue
as it then is.  Herd copies stay on die (R276, R278). -/
def State.spillList (s : State) (keep : Nat) : Nat → List QCopy → State × List QCopy
  | _, [] => (s, [])
  | head, c :: r =>
    match s.frameOf c.frame with
    | none => (s, c :: r)
    | some f =>
      if c.dram then
        match s.spillList keep keep r with
        | (s, r) => (s, c :: r)
      else if head + f.cells ≤ keep then
        match s.spillList keep (head + f.cells) r with
        | (s, r) => (s, c :: r)
      else if (match f.look with | some l => l.herd.isSome | none => false) then
        match s.spillList keep keep r with
        | (s, r) => (s, c :: r)
      else if !f.whole then (s, c :: r)
      else if s.spillBlocked f then (s.spillFull true, c :: r)
      else
        let s := (s.cellsAdd (R.QUE_Qq_ONDIE c.queue) (-(f.cells : Int))).cellsAdd (R.QUE_Qq_SPILL c.queue) f.cells
        let s := ((s.cellsAdd R.QUE_SPILL_USED (cellsOf (f.len + 64))).spillFull false).pmc 2 5 1
        match s.spillList keep keep r with
        | (s, r) => (s, { c with dram := true } :: r)

/-- The spill engine serves queue `q` (R276). -/
def State.spillWrite (s : State) (q : Nat) : State :=
  let l := s.queue q
  let much := decide (s.g (R.QUE_Qq_MIN q) F.QUE_Qq_MIN_CELLS + s.g R.QUE_SPILL_CFG F.QUE_SPILL_CFG_SPILL_TH <
    (s.reg (R.QUE_Qq_ONDIE q)).toNat)
  if s.spillUp && (much || l.any (fun c => c.dram)) then
    match s.spillList (s.g R.QUE_SPILL_CFG F.QUE_SPILL_CFG_HEAD_KEEP) 0 l with
    | (s, l) => (s.setQueue q l).settle
  else s

/-- A copy is read back: it takes its place on die when an account has room (R266, R277). -/
def State.readCopy (s : State) (q : Nat) (head : List QCopy) (c : QCopy) (r : List QCopy) (f : Frame) : State :=
  let acct := if f.account = .none then
      (match f.look with
       | some l => s.accountFor f { l with dests := [c.port] }
       | none => none)
    else some f.account
  match acct with
  | none => s
  | some a =>
    let s := s.uncount c
    let s := (s.setFrame { f with account := a }).cellsAdd (R.QUE_Qq_ONDIE q) f.cells
    ((s.setQueue q (head ++ { c with dram := false } :: r)).pmc 2 6 1).spillShow

/-- A copy of queue `q` is read back from the chain (R275, R277). -/
def State.spillRead (s : State) (q : Nat) (h : SpillHead) : State :=
  let l := s.queue q
  let head := l.takeWhile (fun c => !c.dram)
  let cells := head.foldl (fun k c => match s.frameOf c.frame with | some f => k + f.cells | none => k) 0
  match l.dropWhile (fun c => !c.dram) with
  | [] => s
  | c :: r =>
    if !s.on R.QUE_STATUS F.QUE_STATUS_DRAM_READY || s.dramWaits || !s.runs .core ||
        decide (s.g R.QUE_SPILL_CFG F.QUE_SPILL_CFG_HEAD_KEEP / 2 ≤ cells) then s
    else
      let s := match h with
        | .corrected =>
          (s.inc R.QUE_DRAM_STATUS F.QUE_DRAM_STATUS_CORRECTED).raw R.QUE_RAW F.QUE_RAW_SPILL_CORRECTED
        | _ => s
      match h, s.frameOf c.frame with
      | .lost, _ =>
        let gone := (c :: r).filter (fun x => x.dram)
        let s := gone.foldl (fun s x => s.ageOut x true) s
        ((s.setQueue q (head ++ r.filter (fun x => !x.dram))).fault 10 3 q gone.length).settle.spillShow
      | _, some f => (s.readCopy q head c r f).settle
      | _, none => s

/-! ### Flow control (R282 to R287) -/

/-- A slice stall has lasted STALL_NS (R282, R283). -/
def State.stallReached (s : State) : State :=
  if s.fwd.stalled.isEmpty && s.runs .core then s
  else ((s.setFwd { s.fwd with stallOn := true }).raw R.QUE_RAW F.QUE_RAW_STALL).xoff

/-- A PFC frame of IEEE Std 802.3 Annex 31D with the pause times `times` of priorities 0 to 7, from the MAC address `mac`
(R285). -/
def pfcFrame (mac : Nat) (times : List Nat) : List Byte :=
  withFcs (padTo 60 (beBytes 6 0x0180C2000001 ++ beBytes 6 mac ++ beBytes 2 0x8808 ++ beBytes 2 0x0101 ++ beBytes 2 0xFF ++
    times.flatMap (beBytes 2)))

/-- A PFC frame with the XOFF state of all eight priorities of port `n` leaves (R285, R286). -/
def State.pfcSend (s : State) (n : Nat) : State :=
  let m := s.g (R.QUE_Pn_PAUSE_STATUS n) F.QUE_Pn_PAUSE_STATUS_TX_XOFF
  let quanta := s.g (R.QUE_Pn_PFC_CFG n) F.QUE_Pn_PFC_CFG_QUANTA
  let s := s.setFwd { s.fwd with pfcSent := Tbl.set 0 s.fwd.pfcSent n m }
  let s := s.emit (.frame n (pfcFrame (Config.portMac n).toNat
    ((List.range 8).map (fun p => if maskBit m p then quanta else 0))))
  let s := (s.inc (R.MAC_Pn_TX_FRAMES n) F.MAC_Pn_TX_FRAMES_COUNT).pmc 2 8 1
  if m = 0 then s else s.inc (R.QUE_Pn_CNT_PFC n) F.QUE_Pn_CNT_PFC_TX_XOFF

/-- A priority of port `n` has entered or left XOFF (R286). -/
def State.pfcTx (s : State) (n : Nat) : State :=
  if s.running && s.linkUp n && s.g (R.QUE_Pn_PAUSE_STATUS n) F.QUE_Pn_PAUSE_STATUS_TX_XOFF != Tbl.get 0 s.fwd.pfcSent n then s.pfcSend n
  else s

/-- Half of QUANTA has elapsed while a priority of port `n` is in XOFF (R286). -/
def State.pfcRefresh (s : State) (n : Nat) : State :=
  if s.running && s.linkUp n && s.on (R.QUE_Pn_PAUSE_STATUS n) F.QUE_Pn_PAUSE_STATUS_TX_XOFF then s.pfcSend n else s

/-- A PFC frame is received on port `n` (R285, R287). -/
def State.pfcRx (s : State) (n : Nat) (b : List Byte) : State :=
  if beAt b 0 6 = 0x0180C2000001 ∧ beAt b 12 4 = 0x88080101 ∧ 34 ≤ b.length then
    let en := beAt b 17 1
    let time := fun p => beAt b (18 + 2 * p) 2
    let named := (List.range 8).filter (maskBit en)
    let s := if named.any (fun p => time p != 0) then s.inc (R.QUE_Pn_CNT_PFC n) F.QUE_Pn_CNT_PFC_RX_PAUSE else s
    let obey := s.g (R.QUE_Pn_PFC_CFG n) F.QUE_Pn_PFC_CFG_RX_EN
    let m := (named.filter (maskBit obey)).foldl (fun m p => if time p = 0 then maskClr m p else maskSet m p)
      (s.g (R.QUE_Pn_PAUSE_STATUS n) F.QUE_Pn_PAUSE_STATUS_RX_PAUSED)
    s.p (R.QUE_Pn_PAUSE_STATUS n) F.QUE_Pn_PAUSE_STATUS_RX_PAUSED m
  else s

/-- The pause of priority `p` of port `n` runs out (R287). -/
def State.pauseEnd (s : State) (n p : Nat) : State :=
  s.p (R.QUE_Pn_PAUSE_STATUS n) F.QUE_Pn_PAUSE_STATUS_RX_PAUSED
    (maskClr (s.g (R.QUE_Pn_PAUSE_STATUS n) F.QUE_Pn_PAUSE_STATUS_RX_PAUSED) p)

/-- Class `c` of egress port `n` is paused (R287). -/
def State.paused (s : State) (n c : Nat) : Bool :=
  (maskBits (s.g (R.QUE_Pn_PAUSE_STATUS n) F.QUE_Pn_PAUSE_STATUS_RX_PAUSED) 8).any (fun p =>
    (s.reg (R.FWD_PORTn_PCPMAP n)).toNat / 2 ^ (3 * p) % 8 == c)

/-! ### DRAM in service (R274, R428) -/

/-- DRAM initialisation ends: TRAINED, or the failure of the channels in mask `bad` (R274, R428). -/
def State.dramTrained (s : State) (bad : Nat) : State :=
  if bad = 0 then
    (s.p R.QUE_DRAM_STATUS F.QUE_DRAM_STATUS_TRAINED 1).p R.QUE_STATUS F.QUE_STATUS_DRAM_READY 1
  else (maskBits bad 2).foldl (fun s c => s.fault 10 2 c 0) s

end Sys2Proof.Machine
end

