-- ==== Sys2Proof/Machine/Herd.lean ====
section
/-! DEFINITION. The release calendar, lateness, late policies, admission and the claim gate
(spec/11_herd_constant_latency_release.md R302 to R317). -/

namespace Sys2Proof.Machine

/-! ### Time on the line (R305) -/

/-- The modulus of times in 1/25 of a Tick64 unit. -/
abbrev fineMod : Nat := 25 * 2 ^ 64

/-- A Tick64 time in 1/25 of its unit. -/
def fineOf (t : Tick64) : Nat := t.toNat * 25

/-- `a` is not later than `b`, by the sign of their difference (R6). -/
def fineLe (a b : Nat) : Bool := decide (2 * ((b + fineMod - a % fineMod) % fineMod) < fineMod)

/-- The ideal departure of a copy released at `r` (R305). -/
def State.ideal (s : State) (n : Nat) (r : Tick64) : Nat :=
  match Tbl.get none s.fwd.line n with
  | none => fineOf r
  | some e => if fineLe e (fineOf r) then fineOf r else e

/-- The class and the Herd values of the frame of a copy. -/
def State.herdInfo (s : State) (c : HCopy) : Option (Frame × Looked × HerdInfo) :=
  match s.frameOf c.frame with
  | none => none
  | some f =>
    match f.look with
    | none => none
    | some l => l.herd.map (fun i => (f, l, i))

/-! ### The calendar (R304, R305) -/

/-- Copies held in all calendars. -/
def State.calUsed (s : State) : Nat := s.fwd.cals.foldl (fun k p => k + p.2.length) 0

/-- The calendar of port `n` becomes `l`; `HRD_CAL` and ENTRIES follow (R304). -/
def State.setCal (s : State) (n : Nat) (l : List HCopy) : State :=
  let s := s.setFwd { s.fwd with cals := Tbl.set [] s.fwd.cals n l }
  let k := s.calUsed
  let s := if k < 8192 then s.setFwd { s.fwd with calFull := false } else s
  let s := s.p (R.HRD_PORTn_STATUS n) F.HRD_PORTn_STATUS_ENTRIES l.length
  let s := s.p R.HRD_CAL F.HRD_CAL_USED k
  s.p R.HRD_CAL F.HRD_CAL_PEAK (max k (s.g R.HRD_CAL F.HRD_CAL_PEAK))

/-- The pass list of port `n` becomes `l`. -/
def State.setPass (s : State) (n : Nat) (l : List HCopy) : State :=
  s.setFwd { s.fwd with passes := Tbl.set [] s.fwd.passes n l }

/-- Copy `a` stands before copy `b` in key order (R305): R, ORIGIN, NODE, FLOW, arrival. -/
def State.keyBefore (s : State) (a b : HCopy) : Bool :=
  match s.herdInfo a, s.herdInfo b with
  | some (_, _, i), some (_, _, j) =>
    let dr := tickDiff a.r b.r
    let d := tickDiff i.origin j.origin
    if dr ≠ 0 then decide (dr < 0)
    else if d ≠ 0 then decide (d < 0)
    else if i.node ≠ j.node then decide (i.node < j.node)
    else if i.flow ≠ j.flow then decide (i.flow < j.flow)
    else decide (a.arr < b.arr)
  | _, _ => decide (a.arr < b.arr)

/-- The calendar with copy `c` in its place. -/
def State.calInsert (s : State) (c : HCopy) : List HCopy → List HCopy
  | [] => [c]
  | x :: r => if s.keyBefore c x then c :: x :: r else x :: s.calInsert c r

/-! ### Lateness (R309 to R312) -/

/-- A HERD_LATE record (R324): outcome 0 discarded, 1 passed, 2 removed for claim. -/
def State.lateRec (s : State) (c : HCopy) (l : Looked) (i : HerdInfo) (reason outcome : Nat) : State :=
  let ns := satS 20 (s.freeQuot c.slack 65536)
  let o := i.origin.toNat
  let r := s.mkRec 0x04 i.node (o % 2 ^ 32) (o / 2 ^ 32) (i.flow * 2 ^ 18 + i.hops * 2 ^ 14 + l.fc.getD 0)
    (enc 20 ns * 2 ^ 12 + c.port * 2 ^ 7 + reason * 2 ^ 3 + outcome * 2)
  let s := s.drawn
  if reason = 8 then (if s.on R.SPR_SEL F.SPR_SEL_DROPS then s.record false r else s)
  else s.record true r

/-- A copy is judged with reason 1 to 7 (R310, R311): counted, recorded, and passed or discarded.  The copy is in no
calendar any more. -/
def State.lateJudge (s : State) (c : HCopy) (reason : Nat) : State :=
  match s.herdInfo c with
  | none => s
  | some (_, l, i) =>
    let fc := l.fc.getD 0
    let a := ctxAddr fc
    let s := (s.inc R.HRD_CNT_LATE F.HRD_CNT_LATE_COUNT).raw R.HRD_RAW F.HRD_RAW_LATE
    let s := s.setReg R.HRD_LAST_LATE (F.HRD_LAST_LATE_REASON.put (F.HRD_LAST_LATE_PORT.put
      (F.HRD_LAST_LATE_FC.put 0#32 fc) c.port) reason)
    let w := s.tw a 13
    let s := s.setTw a 13 (min (w / 2 ^ 16 + 1) 65535 * 2 ^ 16 + w % 2 ^ 16)
    let s := (s.pmc 2 0x0A 1).lateRec c l i reason (b2n l.latePass)
    let s := if reason = 5 then
        let first := !s.fwd.calFull
        let s := (s.setFwd { s.fwd with calFull := true }).raw R.HRD_RAW F.HRD_RAW_CAL_FULL
        if first then s.fault 11 2 c.port fc else s
      else s
    if l.latePass then s.setPass c.port (s.passList c.port ++ [{ c with reason := reason }])
    else (s.inc R.HRD_CNT_DISCARD F.HRD_CNT_DISCARD_COUNT).raw R.HRD_RAW F.HRD_RAW_DISCARD

/-- A copy is removed for the claim (R314). -/
def State.claimRemove (s : State) (c : HCopy) : State :=
  match s.herdInfo c with
  | none => s
  | some (_, l, i) =>
    ((s.inc R.HRD_CNT_CLAIM F.HRD_CNT_CLAIM_COUNT).raw R.HRD_RAW F.HRD_RAW_CLAIM_DISCARD).lateRec c l i 8 2

/-- The claim gate of port `n` is closed (R314). -/
def State.gateShut (s : State) (n : Nat) : Bool :=
  s.on (R.HRD_PORTn_CFG n) F.HRD_PORTn_CFG_CLAIM_GATE && s.paired && !s.higher

/-- The reason judged at placement, in the order of R309; 0 = on time. -/
def State.placeReason (s : State) (n : Nat) (i : HerdInfo) (r : Tick64) (slack : Int) : Nat :=
  if s.gateShut n then 8
  else if 4095 < i.cum + i.budget then 6
  else if i.badStamp then 7
  else if 8192 ≤ s.calUsed then 5
  else if (s.g R.HRD_EARLY F.HRD_EARLY_EARLY_US : Int) * 65536000 < tickDiff r s.nowTick then 4
  else if slack < 0 then 1
  else 0

/-- The copy of frame `f` to port `n` is placed, or judged at placement (R302, R304, R309, R312). -/
def State.placeCopy (s : State) (f : Frame) (l : Looked) (i : HerdInfo) (n : Nat) : State :=
  let r := i.origin + BitVec.ofNat 64 ((i.cum + i.budget) * 65536000)
  let slack := tickDiff (r - BitVec.ofNat 64 352321536) s.nowTick
  let arr := s.fwd.nextId
  let s := s.setFwd { s.fwd with nextId := arr + 1 }
  let c : HCopy := { frame := f.id, port := n, r := r, slack := slack, arr := arr, reason := 0 }
  let a := ctxAddr (l.fc.getD 0)
  let w := s.tw a 13
  let s := s.setTw a 13 (w / 2 ^ 16 * 2 ^ 16 + i.hops * 2 ^ 12 + w % 2 ^ 12)
  let reason := s.placeReason n i r slack
  if reason = 8 then s.claimRemove c
  else if reason ≠ 0 then s.lateJudge c reason
  else
    let w := s.tw a 13
    let m := 1 + min (slack.toNat / 65536000) 4094
    let m := if w % 2 ^ 12 = 0 then m else min m (w % 2 ^ 12)
    let s := (s.setTw a 13 (w / 2 ^ 12 * 2 ^ 12 + m)).pmc 2 9 1
    s.setCal n (s.calInsert c (s.cal n))

/-- A Herd frame is whole in cells: each of its copies is placed (R304). -/
def State.herdPlace (s : State) : State :=
  match s.fwd.frames.find? (fun f => f.whole && f.placed && !f.toPlace.isEmpty && f.bad.isNone) with
  | none => s
  | some f =>
    match f.look with
    | none => s
    | some l =>
      match l.herd with
      | none => s
      | some i =>
        if !s.runs .core || !s.runs .timescale then s
        else ((f.toPlace.foldl (fun s n => s.placeCopy f l i n) s).setFrame { f with toPlace := [] }).settle

/-! ### Departure (R303, R305, R306, R309) -/

/-- The reason judged at the departure decision (R309): 2 MISSED, 3 CONDITION, 0 none. -/
def State.departReason (s : State) (n cls : Nat) : Nat :=
  if s.paused n cls || s.g (R.FWD_PORTn_STATE n) F.FWD_PORTn_STATE_STATE != 3 || !s.linkUp n then 2
  else
    match s.g R.REF_STATUS F.REF_STATUS_COND with
    | 0 => 3
    | 3 => 3
    | _ => 0

/-- The departure stamp `t` is no earlier than the end of the port's previous frame on the line (R306). -/
def State.lineFree (s : State) (n : Nat) (t : Stamp) : Bool :=
  match Tbl.get none s.fwd.lineEnd n with
  | none => true
  | some e => fineLe e (fineOf (tickOf t.t))

/-- The first copy of port `n`'s calendar, once due at the departure stamp `t`, departs or is judged (R303, R305, R306,
R309); none when no copy is due. -/
def State.calDepart (s : State) (n : Nat) (t : Stamp) : Option State :=
  match s.cal n with
  | [] => none
  | c :: rest =>
    match s.herdInfo c with
    | none => some (s.setCal n rest)
    | some (f, l, _) =>
      let d := s.ideal n c.r
      let due := fineLe d (fineOf (tickOf t.t)) && s.lineFree n t
      if !due || !s.runs .core || !s.runs .timescale || s.looping n || (Tbl.get none s.fwd.sending n).isSome then none
      else
        let s := s.setCal n rest
        let why := s.departReason n l.cls
        if s.gateShut n then some (s.claimRemove c).settle
        else if why ≠ 0 then some (s.lateJudge c why).settle
        else
          let s := if d = fineOf c.r then s
            else (s.inc R.HRD_CNT_DEFER F.HRD_CNT_DEFER_COUNT).pmc 2 0x0B 1
          let len := (sentBytes (s.pieces f l n (f.len - 4) false)).length + 4
          let s := s.setFwd { s.fwd with line := Tbl.set none s.fwd.line n (some ((d + lineTime len) % fineMod)) }
          some (s.depart f l n t false false).settle

/-- The departure decision of port `n` (R303). -/
def State.herdDecision (s : State) (n : Nat) (x : StampIn) : State := (s.calDepart n (s.txStamp n x)).getD s

/-- A copy from outside the calendar whose line time is `t` may start on port `n` with stamp `x` (R307). -/
def State.guardOk (s : State) (n : Nat) (x : Stamp) (t : Nat) : Bool :=
  match s.cal n with
  | [] => true
  | c :: _ => fineLe ((fineOf (tickOf x.t) + t) % fineMod) (fineOf c.r)

/-! ### Disturbances and claims (R314, R315) -/

/-- The timescale or core domain restarts: copies whose D° has passed are judged MISSED, in key order (R315). -/
def State.herdRestartPort (s : State) (n : Nat) : List HCopy → List HCopy → State
  | kept, [] => s.setCal n kept
  | kept, c :: r =>
    if fineLe (s.ideal n c.r) (fineOf s.nowTick) then (s.lateJudge c 2).herdRestartPort n kept r
    else s.herdRestartPort n (kept ++ [c]) r

/-- Every port's calendar at a restart (R315). -/
def State.herdRestart (s : State) : State :=
  (s.fwd.cals.foldl (fun s p => s.herdRestartPort p.1 [] p.2) s).settle

/-- The claim has become lower: waiting copies of claim-gated ports are removed (R314). -/
def State.herdClaimLost (s : State) : State :=
  ((List.range 24).foldl (fun s n =>
    if s.gateShut n then
      let l := s.cal n ++ s.passList n
      if l.isEmpty then s else ((l.foldl State.claimRemove s).setCal n []).setPass n []
    else s) s).settle

/-! ### Admission (R313) -/

/-- Both ports of each redundant pair whose PORT_A is in `m`, and every member of each group of `lags` (R313). -/
def State.admissionPorts (s : State) (m lags : Nat) : Nat :=
  let m := (maskBits lags 8).foldl (fun m g => m ||| s.g (R.FWD_LAGg_MEMBERS g) F.FWD_LAGg_MEMBERS_PORTS) m
  (List.range 4).foldl (fun x r => if s.redMode r != 0 && maskBit m (s.redA r) then maskSet x (s.redB r) else x) m

/-- The flow contexts with a reservation, each with the ports its entries name (R313). -/
def State.reservations (s : State) : List (Nat × Nat) :=
  (s.regs.filter (fun p => 0x800000 ≤ p.1 ∧ p.1 < 0xA00000 ∧ p.1 % 32 = 0 ∧ maskBit p.2.toNat 31)).filterMap (fun p =>
    let w5 := s.tw p.1 5
    let i := bitsOf w5 13 0
    if maskBit w5 31 && s.ctxValid i && maskBit (s.tw (ctxAddr i) 3) 31 then
      some (i, s.admissionPorts (bitsOf (s.tw p.1 3) 24 0) (bitsOf (s.tw p.1 4) 7 0))
    else none)

/-- The reservation sum of port `n` over distinct contexts (R313). -/
def State.resvSum (s : State) (l : List (Nat × Nat)) (n : Nat) : Nat :=
  (((l.filter (fun e => maskBit e.2 n)).map (fun e => e.1)).eraseDups).foldl (fun k i => k + s.tw (ctxAddr i) 4) 0

/-- The sweep's result for port `n` (R313). -/
def State.admitPort (s : State) (l : List (Nat × Nat)) (n : Nat) : State :=
  let k := min (s.resvSum l n) 33554431
  let broken := decide (18750000 < k)
  let was := maskBit s.fwd.breach n
  let s := s.p (R.HRD_PORTn_RESV n) F.HRD_PORTn_RESV_KBPS k
  let s := s.pb (R.HRD_PORTn_STATUS n) F.HRD_PORTn_STATUS_OVER broken
  let s := s.setFwd { s.fwd with breach := if broken then maskSet s.fwd.breach n else maskClr s.fwd.breach n }
  let s := s.cond R.HRD_RAW F.HRD_RAW_ADMIT_OVER (s.fwd.breach != 0)
  if broken && !was then s.fault 11 1 n k else s

/-- The admission sweep (R313). -/
def State.herdSweep (s : State) : State :=
  let l := s.reservations
  (List.range 24).foldl (fun s n => s.admitPort l n) s

end Sys2Proof.Machine
end

