-- ==== Sys2Proof/Machine/Rut.lean ====
section
/-! DEFINITION. Redundant pairs (spec/15_redundant_pairs_and_rut_claims.md): claims, the claim wire, heartbeats, the
pair states, hand-over, and the copies that keep a standby ready. -/

namespace Sys2Proof.Machine

/-- Guyline beyond its registers is `g`. -/
def State.setGuy (s : State) (g : Guy) : State := { s with guy := g }

/-- The pair beyond its registers is `r`. -/
def State.setRut (s : State) (r : Rut) : State := { s with rut := r }

/-- Guyline is UP (R374). -/
def State.guyUp (s : State) : Bool := s.g R.GUY_STATUS F.GUY_STATUS_STATE == 3

/-- The messages of the given classes and payloads, each with the next SEQ of its class (R376). -/
def State.guyMessages (s : State) : List (Nat × List Byte) → State × List (List Byte)
  | [] => (s, [])
  | (c, p) :: r =>
    let q := Tbl.get 0 s.guy.seqs c
    match (s.setGuy { s.guy with seqs := Tbl.set 0 s.guy.seqs c ((q + 1) % 2 ^ 32) }).guyMessages r with
    | (s, l) => (s, guyMessage c q p :: l)

/-- Messages leave one behind another, in rows, with filler after the last (R375 to R378, R419). -/
def State.guyPut (s : State) (l : List (Nat × List Byte)) : State :=
  if s.running then
    match s.guyMessages l with
    | (s, ms) => (rowsOf ms).foldl (fun s row => s.emit (.guyRow row)) s
  else s

/-- A message of CLASS `c` leaves on Guyline (R376). -/
def State.guySend (s : State) (c : Nat) (payload : List Byte) : State :=
  s.guyPut [(c, payload)]

/-- Claim-wire frames carry `f` from now on; before RUN the wire is low (R389, R419). -/
def State.setWire (s : State) (f : BitVec 80) : State := if s.running then s.emit (.wire f) else s

/-! ### Pair states and claims (R387 to R394) -/

abbrev pairSolo : Nat := 0
abbrev pairInit : Nat := 1
abbrev pairStandby : Nat := 2
abbrev pairActive : Nat := 3
abbrev pairHeld : Nat := 4

/-- STATE of `RUT_STATUS`. -/
def State.pairState (s : State) : Nat := s.g R.RUT_STATUS F.RUT_STATUS_STATE

/-- The state with the pair in state `n`. -/
def State.setPairState (s : State) (n : Nat) : State := s.p R.RUT_STATUS F.RUT_STATUS_STATE n

/-- HB_OK (R396). -/
def State.hbOk (s : State) : Bool := s.on R.RUT_STATUS F.RUT_STATUS_HB_OK

/-- READY (R404). -/
def State.pairReady (s : State) : Bool := s.on R.RUT_STATUS F.RUT_STATUS_READY

/-- The valid flow contexts, ascending. -/
def State.validContexts (s : State) : List Nat :=
  (s.regs.filter (fun p => 0xA00000 ≤ p.1 ∧ p.1 < 0xB00000 ∧ p.1 % 64 = 0 ∧ maskBit p.2.toNat 31)).map
    (fun p => (p.1 - 0xA00000) / 64)

/-- MIRROR_OVER holds while a hot-mirroring unit in ACTIVE has more than 4,096 valid contexts (R401). -/
def State.mirrorOver (s : State) : State :=
  let n := s.validContexts.length
  let many := decide (s.pairState = pairActive ∧ s.rut.mode = 0) && decide (4096 < n)
  let was := s.on R.RUT_STATUS F.RUT_STATUS_MIRROR_OVER
  let s := (s.pb R.RUT_STATUS F.RUT_STATUS_MIRROR_OVER many).cond R.RUT_RAW F.RUT_RAW_MIRROR_OVER many
  if many && !was then s.fault 15 5 0 n else s

/-- The own claim (R388); its RANK is raised only once a checkpoint has been applied (R406). -/
def State.ownClaim (s : State) : Nat :=
  let rank := if s.pairState = pairActive ∧ !s.rut.applying then s.rut.rank else 0
  s.rut.epoch % 2 ^ 24 * 256 + rank * 16 + s.rut.unit

/-- The partner claim in force (R391). -/
def State.partnerClaim (s : State) : Nat :=
  max (if s.hbOk then s.rut.msgClaim.getD 0 else 0)
    (if s.on R.RUT_STATUS F.RUT_STATUS_WIRE_FRESH then s.rut.wire.getD 0 else 0)

/-- A CLAIM record (R324, R394). -/
def State.claimRec (s : State) (code before partnerBefore : Nat) : State :=
  s.note 0x25 (code + 4 * s.pairState) (s.reg R.RUT_CLAIM).toNat before (s.reg R.RUT_PARTNER_CLAIM).toNat partnerBefore

/-- HIGHER becomes `b` (R392, R394); its fall removes waiting Herd copies (R314), and its rise completes a takeover
(R406). -/
def State.setHigher (s : State) (b : Bool) : State :=
  if s.on R.RUT_STATUS F.RUT_STATUS_HIGHER == b then s
  else
    let own := (s.reg R.RUT_CLAIM).toNat
    let s := s.pb R.RUT_STATUS F.RUT_STATUS_HIGHER b
    if b then
      let s := (s.raw R.RUT_RAW F.RUT_RAW_BECAME_HIGHER).claimRec 2 own 0
      if s.rut.taking then
        let s := (s.inc R.RUT_CNT F.RUT_CNT_TAKEOVERS).raw R.RUT_RAW F.RUT_RAW_TAKEOVER
        let s := match s.rut.failAt with
          | some t => s.setRegN R.RUT_LAST_SWITCH (satU 32 ((s.regClk - t) / 250))
          | none => (s.setReg R.RUT_LAST_SWITCH (Config.freeWord s.freeIdx)).drawn
        s.setRut { s.rut with taking := false, failAt := none }
      else s
    else ((s.raw R.RUT_RAW F.RUT_RAW_BECAME_LOWER).claimRec 3 own 0).herdClaimLost

/-- HIGHER as R392 holds it in this clock: it rises only in SOLO, and in ACTIVE by `becomeHigher`. -/
def State.claimHigh (s : State) : Bool :=
  decide (s.pairState = pairActive) && !s.rut.applying && decide (s.partnerClaim < s.ownClaim)

/-- `RUT_CLAIM`, `RUT_PARTNER_CLAIM` and HIGHER follow the state, with the records of R394. -/
def State.rutRefresh (s : State) : State :=
  let own := (s.reg R.RUT_CLAIM).toNat
  let part := (s.reg R.RUT_PARTNER_CLAIM).toNat
  let own' := s.ownClaim
  let part' := s.partnerClaim
  let s := (s.setRegN R.RUT_CLAIM own').setRegN R.RUT_PARTNER_CLAIM part'
  let s := if own = own' then s
    else
      let s := (s.setRut { s.rut with prevClaim := own }).claimRec 0 own 0
      if s.pairState = pairSolo then s else s.setWire (wireFrame s.rut.pairId own')
  let s := if part = part' then s else s.claimRec 1 own' part
  let s := s.mirrorOver
  if s.pairState = pairSolo then s.setHigher true
  else if s.claimHigh then s
  else s.setHigher false

/-- The own claim has exceeded the partner claim in force for 10 µs (R392). -/
def State.becomeHigher (s : State) : State := if s.claimHigh then s.setHigher true else s

/-- The greatest EPOCH of the partner that is known. -/
def State.partnerEpoch (s : State) : Nat := max (s.rut.msgClaim.getD 0 / 256) (s.rut.wire.getD 0 / 256)

/-- One more than the greater of both EPOCHs, saturating (R388, R397). -/
def State.raisedEpoch (s : State) : Nat := min (max s.rut.epoch s.partnerEpoch + 1) 0xFFFFFF

/-! ### The time record (R405) -/

/-- The binary64 encoding of `x`. -/
def dblBits (x : Dbl) : Nat :=
  if x.m = 0 then 0
  else b2n (decide (x.m < 0)) * 2 ^ 63 + enc 11 (x.e + 1075) * 2 ^ 52 + x.m.natAbs % 2 ^ 52

/-- The number that a binary64 encoding of a normal number or zero gives. -/
def bitsDbl (n : Nat) : Dbl :=
  let e : Nat := n / 2 ^ 52 % 2 ^ 11
  if e = 0 then ⟨0, 0⟩
  else
    let m : Nat := 2 ^ 52 + n % 2 ^ 52
    ⟨if maskBit n 63 then -(m : Int) else m, (e : Int) - 1075⟩

/-- The time record, 256 bytes (R405). -/
def State.timeRecord (s : State) : List Byte :=
  leBytes 8 (s.pair R.TSC_OFFSET_ACC_LO) ++ leBytes 8 (dblBits s.ptp.integ) ++ leBytes 8 (s.pair R.HLD_F_LO) ++
    leBytes 4 (s.reg R.HLD_A1).toNat ++ leBytes 4 (s.reg R.HLD_A2).toNat ++ leBytes 4 (s.reg R.HLD_AGE_S).toNat ++
    leBytes 8 (enc 64 (divRound s.hld.anchor (2 ^ 64))) ++ leBytes 4 ((s.reg R.HLD_STATUS).toNat % 16) ++
    ((List.range 32).map (fun b => leBytes 4 (s.reg (R.HLD_TTABb b)).toNat)).flatten ++
    leBytes 8 (enc 64 s.rate) ++ List.replicate 72 0#8

/-- The number in bytes `o` to `o + n - 1` of `l`, little-endian. -/
def leAt (l : List Byte) (o n : Nat) : Nat := leNat (slice l o n)

/-- A time record is applied, without a phase step (R405). -/
def State.applyTimeRecord (old : State) (l : List Byte) : State :=
  let s := old.setPair R.TSC_OFFSET_ACC_LO (leAt l 0 8)
  let s := { s with ptp := { s.ptp with integ := bitsDbl (leAt l 8 8) } }
  let s := s.setPair R.HLD_F_LO (leAt l 16 8)
  let s := ((s.setRegN R.HLD_A1 (leAt l 24 4)).setRegN R.HLD_A2 (leAt l 28 4)).setRegN R.HLD_AGE_S (leAt l 32 4)
  let s := s.setHld { s.hld with anchor := sx 64 (leAt l 36 8) * 2 ^ 64, epoch := true }
  let s := s.p R.HLD_STATUS ⟨0, 4⟩ (leAt l 44 4)
  let s := (List.range 32).foldl (fun s b =>
    let v := leAt l (48 + 4 * b) 4
    (s.setRegN (R.HLD_TTABb b) v).setHld { s.hld with table := Tbl.set 0 s.hld.table b (100 * sx 16 v) }) s
  (s.showTempOut.supplyRate (sx 64 (leAt l 176 8))).afterModel old

/-! ### Mirror batches applied (R402, R404) -/

/-- The unit accepts copies: STANDBY or HELD, with a checkpoint partition of at least one unit (R386, R398). -/
def State.takesCopies (s : State) : Bool :=
  decide (s.pairState = pairStandby ∨ s.pairState = pairHeld) && decide (0 < s.g R.QUE_PART F.QUE_PART_CKPT)

/-- The DRAM address of the checkpoint partition (R272). -/
def State.ckptBase (s : State) : Nat := (s.g R.QUE_PART F.QUE_PART_SPILL + s.g R.QUE_PART F.QUE_PART_JOURNAL) * 2 ^ 24

/-- The offset of a mirror staging slot in the partition. -/
def stagingOffset (slot : Nat) : Nat := if slot = 1 then 0x880000 else 0x800000

/-- The words of `l` written from address `a` on. -/
def State.setWords (s : State) : Nat → List Byte → List Nat → State
  | _, _, [] => s
  | a, l, i :: r => (s.setRegN (a + 4 * i) (leAt l (4 * i) 4)).setWords a l r

/-- A completed mirror batch is applied (R402, R404). -/
def State.batchApply (s : State) : State :=
  match s.rut.batch with
  | none => s
  | some (ident, slot, extent) =>
    if s.takesCopies then
      let base := s.ckptBase + stagingOffset slot
      let s := s.applyTimeRecord (s.dramRead base 256)
      let s := (List.range ((extent - 256) / 32)).foldl (fun s k =>
        let l := s.dramRead (base + 256 + 32 * k) 32
        let i := leAt l 0 2 % 16384
        (s.accrue i).setWords (ctxAddr i + 32) (l.drop 4) [0, 1, 2, 3, 4, 5]) s
      (s.setRut { s.rut with batch := none, applied := some slot }).setRegN R.RUT_APPLIED ident
    else s

/-! ### Takeovers and demotion (R397, R406) -/

/-- A takeover (R397, R406): a batch that is complete is applied first (R404), and with READY, MODE 1 applies the valid
checkpoint before the claim is raised. -/
def State.takeover (s : State) : State :=
  let s := s.batchApply
  let r := s.rut
  let from_ := s.pairState
  let apply := decide (r.mode = 1) && r.valid.isSome && s.pairReady
  let s := if from_ = pairStandby ∧ (!s.pairReady ∨ (r.mode = 1 ∧ r.valid.isNone)) then
      s.fault 15 2 r.mode (s.reg R.RUT_APPLIED).toNat
    else s
  let e := s.raisedEpoch
  let s := (s.setPairState pairActive).p R.RUT_STATUS F.RUT_STATUS_HANDOVER_PENDING 0
  s.setRut { s.rut with epoch := if apply then r.epoch else e, next := e, taking := true, applying := apply,
                        batch := none, byScan := false }

/-- The unit enters STANDBY with `epoch`; READY becomes 0 (R397). -/
def State.toStandby (s : State) (epoch : Nat) : State :=
  ((s.setPairState pairStandby).p R.RUT_STATUS F.RUT_STATUS_READY 0).setRut { s.rut with epoch := epoch }

/-- An ACTIVE unit demotes (R397). -/
def State.demote (s : State) : State :=
  let held := s.rut.byScan && s.on R.RUT_STATUS F.RUT_STATUS_HANDOVER_PENDING
  let s := s.toStandby (s.partnerClaim / 256)
  let s := if held then s.setPairState pairHeld else s
  let s := (s.p R.RUT_STATUS F.RUT_STATUS_HANDOVER_PENDING 0).raw R.RUT_RAW F.RUT_RAW_DEMOTED
  s.setRut { s.rut with taking := false, applying := false, byScan := false, failAt := none }

/-- The rows of R397 on the partner's state and claim, the first whose condition holds. -/
def State.pairRules (s : State) : State :=
  match s.rut.beat with
  | none => s
  | some (claim, byte, rank) =>
    let st := byte / 32
    if !s.hbOk then s
    else if s.pairState = pairInit then
      if claim % 16 = s.rut.unit then
        if s.rut.conflict then s
        else ((s.setRut { s.rut with conflict := true }).raw R.RUT_RAW F.RUT_RAW_CONFLICT).fault 15 4 (claim % 16) claim
      else if st = pairActive then s.toStandby (claim / 256)
      else if st = pairStandby ∨ st = pairHeld then s.takeover
      else if st = pairInit ∧ rank * 16 + claim % 16 < s.rut.rank * 16 + s.rut.unit then
        (s.setPairState pairActive).setRut { s.rut with epoch := s.raisedEpoch }
      else s
    else if s.pairState = pairStandby then
      if maskBit byte 3 && s.pairReady then s.takeover else s
    else if s.pairState = pairActive then
      if !s.rut.applying ∧ s.ownClaim < s.partnerClaim then s.demote else s
    else s

/-- The rows of R397 and what follows from them. -/
def State.pairEval (s : State) : State := s.pairRules.rutRefresh

/-! ### Copies being received (R404) -/

/-- A copy is discarded: kind 0 a mirror batch, 1 a checkpoint. -/
def State.discardCopy (s : State) (kind : Nat) : State :=
  (s.inc R.RUT_CNT F.RUT_CNT_DISCARDS).raw R.RUT_RAW (if kind = 1 then F.RUT_RAW_CKPT_DISCARD else F.RUT_RAW_BATCH_DISCARD)

/-- Every incomplete copy is discarded (R396). -/
def State.discardIncomplete (s : State) : State :=
  let s := if s.rut.mirror.isSome then s.discardCopy 0 else s
  let s := if s.rut.ckpt.isSome then s.discardCopy 1 else s
  s.setRut { s.rut with mirror := none, ckpt := none }

/-- The copy `c` after one more message with `payload`. -/
def CopyRx.add (c : CopyRx) (payload : List Byte) (extent : Nat) : CopyRx :=
  { c with count := c.count + 1, bytes := c.bytes + payload.length, crc := crcFold 0x82F63B78 c.crc payload
           extent := max c.extent extent }

/-- A MIRROR message (R402, R404). -/
def State.mirrorRx (s : State) (p : List Byte) : State :=
  let ident := beAt p 0 4
  let o := beAt p 4 4
  let data := p.drop 8
  if !s.takesCopies ∨ 0x80000 < o + data.length then s
  else
    let c := match s.rut.mirror with
      | some c => if c.ident = ident then c else ⟨ident, if s.rut.applied = some 0 then 1 else 0, 0, 0, 0xFFFFFFFF, 0⟩
      | none => ⟨ident, if s.rut.applied = some 0 then 1 else 0, 0, 0, 0xFFFFFFFF, 0⟩
    let s := s.dramWrite (s.ckptBase + stagingOffset c.slot + o) data
    s.setRut { s.rut with mirror := some (c.add p (o + data.length))
                          batch := match s.rut.batch with
                            | some (i, k, e) => if k = c.slot then none else some (i, k, e)
                            | none => none }

/-- A CKPT message (R403, R404). -/
def State.ckptRx (s : State) (p : List Byte) : State :=
  let ident := beAt p 0 4
  let o := beAt p 4 4
  let data := p.drop 8
  let slot := o / 0x400000
  if !s.takesCopies ∨ 0x400000 < o % 0x400000 + data.length ∨ 1 < slot then s
  else
    let c := match s.rut.ckpt with
      | some c => if c.ident = ident then c else ⟨ident, slot, 0, 0, 0xFFFFFFFF, 0⟩
      | none => ⟨ident, slot, 0, 0, 0xFFFFFFFF, 0⟩
    let s := s.dramWrite (s.ckptBase + o) data
    s.setRut { s.rut with ckpt := some (c.add p (o % 0x400000 + data.length))
                          valid := if s.rut.valid = some c.slot then none else s.rut.valid }

/-- The COMMIT `p` matches the copy `c` (R404). -/
def commitMatches (p : List Byte) (c : Option CopyRx) : Bool :=
  match c with
  | none => false
  | some c => decide (beAt p 0 4 = c.ident) && decide (beAt p 8 4 = c.count) && decide (beAt p 12 4 = c.bytes) &&
      decide (beAt p 16 4 = c.crc ^^^ 0xFFFFFFFF)

/-- A COMMIT (R377, R404): kind 0 a mirror batch, 1 a checkpoint. -/
def State.commitRx (s : State) (p : List Byte) : State :=
  let kind := beAt p 4 1
  let s' := s
  if !s.takesCopies ∨ 1 < kind then s
  else if kind = 0 then
    let s := s.setRut { s.rut with mirror := none }
    match s'.rut.mirror with
    | some c => if commitMatches p s'.rut.mirror then
        (s.setRut { s.rut with batch := some (c.ident, c.slot, c.extent) }).p R.RUT_STATUS F.RUT_STATUS_READY 1
      else s.discardCopy 0
    | none => s.discardCopy 0
  else
    let s := s.setRut { s.rut with ckpt := none }
    match s'.rut.ckpt with
    | some c => if commitMatches p s'.rut.ckpt then
        ((s.setRut { s.rut with valid := some c.slot }).setRegN R.RUT_APPLIED c.ident).p R.RUT_STATUS F.RUT_STATUS_READY 1
      else s.discardCopy 1
    | none => s.discardCopy 1

/-! ### Heartbeats (R395, R396) -/

/-- A heartbeat failure (R396, R397). -/
def State.hbFail (s : State) : State :=
  if !s.hbOk then s
  else
    let st := s.pairState
    let s := ((s.p R.RUT_STATUS F.RUT_STATUS_HB_OK 0).raw R.RUT_RAW F.RUT_RAW_HB_FAIL).inc R.RUT_CNT F.RUT_CNT_HB_FAILS
    let s := s.fault 15 1 st (s.rut.msgClaim.getD 0)
    let s := s.discardIncomplete
    let s := s.setRut { s.rut with sentAt := none }
    let s := if st = pairStandby then (s.setRut { s.rut with failAt := some s.regClk }).takeover
      else if st = pairActive then s.setRut { s.rut with epoch := min (s.rut.epoch + 1) 0xFFFFFF }
      else s
    s.rutRefresh

/-- Guyline leaves UP: the previous sending time is forgotten, and a heartbeat failure occurs (R395, R396). -/
def State.pairLinkDown (s : State) : State := (s.setRut { s.rut with sentAt := none }).hbFail

/-- A HEARTBEAT with payload `p` (R377, R395, R396). -/
def State.heartbeatRx (s : State) (p : List Byte) : State :=
  let sent : Tick64 := BitVec.ofNat 64 (beAt p 8 8)
  let later := match s.rut.sentAt with
    | none => true
    | some t => decide (0 < tickDiff sent t)
  if decide (beAt p 4 2 = s.rut.pairId) && later then
    let s := s.setRut { s.rut with
      beat := some (beAt p 0 4, beAt p 6 1, beAt p 7 1 / 16), sentAt := some sent, heard := true
      msgClaim := some (beAt p 0 4) }
    let s := (s.p R.RUT_STATUS F.RUT_STATUS_HB_OK 1).p R.RUT_STATUS F.RUT_STATUS_PARTNER_STATE (beAt p 6 1 / 32)
    s.pairEval
  else s

/-- A CLAIM message with payload `p` (R377, R391). -/
def State.claimRx (s : State) (p : List Byte) : State :=
  (s.setRut { s.rut with msgClaim := some (beAt p 0 4) }).pairEval

/-- The unit-state byte (R395). -/
def State.stateByte (s : State) : Nat :=
  s.pairState * 32 + 16 * b2n s.pairReady + 8 * s.g R.RUT_STATUS F.RUT_STATUS_HANDOVER_PENDING + 4 * s.rut.mode +
    2 * s.g R.RUT_STATUS F.RUT_STATUS_MIRROR_OVER

/-- A HEARTBEAT leaves (R395). -/
def State.heartbeatTx (s : State) : State :=
  if s.guyUp && decide (s.pairState ≠ pairSolo) then
    s.guySend 2 (beBytes 4 (s.reg R.RUT_CLAIM).toNat ++ beBytes 2 s.rut.pairId ++ beBytes 1 s.stateByte ++
      beBytes 1 (s.rut.rank * 16) ++ beBytes 8 s.nowTick.toNat)
  else s

/-- A CLAIM message leaves (R377, R394). -/
def State.claimTx (s : State) : State :=
  if s.guyUp && decide (s.pairState ≠ pairSolo) then
    s.guySend 1 (beBytes 4 (s.reg R.RUT_CLAIM).toNat ++ beBytes 4 s.rut.prevClaim)
  else s

/-! ### The claim wire (R389, R390) -/

/-- WIRE_FRESH falls (R390). -/
def State.wireStale (s : State) : State :=
  if s.on R.RUT_STATUS F.RUT_STATUS_WIRE_FRESH then
    let s := (s.p R.RUT_STATUS F.RUT_STATUS_WIRE_FRESH 0).raw R.RUT_RAW F.RUT_RAW_WIRE_LOST
    let s := s.setRut { s.rut with wireLast := none }
    let s := if s.pairState = pairStandby ∧ !s.hbOk then s.takeover else s
    s.pairEval
  else s.setRut { s.rut with wireLast := none }

/-- A frame `f` arrives on the claim wire (R390). -/
def State.wireRx (s : State) (f : BitVec 80) : State :=
  match wireClaim s.rut.pairId f with
  | none => s.setRut { s.rut with wireLast := none }
  | some c =>
    if s.rut.wireLast = some c then
      ((s.setRut { s.rut with wire := some c }).p R.RUT_STATUS F.RUT_STATUS_WIRE_FRESH 1).pairEval
    else s.setRut { s.rut with wireLast := some c }

/-! ### Commands on the pair (R397 to R400) -/

/-- PAIR_EN rises: SOLO to INIT (R390, R395, R397, R400). -/
def State.pairEnable (s : State) : State :=
  if s.pairState = pairSolo then
    let fresh := s.on R.RUT_STATUS F.RUT_STATUS_WIRE_FRESH
    let s := if fresh then (s.p R.RUT_STATUS F.RUT_STATUS_WIRE_FRESH 0).raw R.RUT_RAW F.RUT_RAW_WIRE_LOST else s
    let s := s.setRut { s.rut with
      unit := s.g R.RUT_CTRL F.RUT_CTRL_UNIT_ID, rank := s.g R.RUT_CTRL F.RUT_CTRL_RANK
      mode := s.g R.RUT_CTRL F.RUT_CTRL_MODE, pairId := s.g R.RUT_PAIR F.RUT_PAIR_PAIR_ID
      epoch := 0, sentAt := none, heard := false, wire := none, wireLast := none, conflict := false }
    let s := s.setPairState pairInit
    (s.setWire (wireFrame s.rut.pairId s.ownClaim)).rutRefresh.pairEval
  else s

/-- PAIR_EN falls: SOLO; the claim wire is driven low (R389, R397). -/
def State.pairDisable (s : State) : State :=
  if s.pairState = pairSolo then s
  else
    let s := (s.setPairState pairSolo).p R.RUT_STATUS F.RUT_STATUS_HANDOVER_PENDING 0
    let s := s.setRut { s.rut with taking := false, applying := false, byScan := false, failAt := none, batch := none }
    (s.setWire 0#80).rutRefresh

/-- What a write of `RUT_CTRL` triggers (R397). -/
def State.rutCtrlAct (s : State) : State := if s.on R.RUT_CTRL F.RUT_CTRL_PAIR_EN then s.pairEnable else s.pairDisable

/-- INIT_WAIT has elapsed (R397). -/
def State.initWait (s : State) : State :=
  if s.pairState = pairInit ∧ !s.rut.heard ∧ !s.rut.conflict then
    if s.on R.RUT_STATUS F.RUT_STATUS_WIRE_FRESH ∧ s.rut.wire.getD 0 / 16 % 16 ≠ 0 then
      (s.toStandby s.rut.epoch).rutRefresh
    else s.takeover.rutRefresh
  else s

/-- The unit-state byte of the last accepted HEARTBEAT; 0 without one. -/
def State.beatByte (s : State) : Nat := match s.rut.beat with | some (_, b, _) => b | none => 0

/-- The partner is STANDBY with READY = 1 and HB_OK = 1, so that a hand-over is not refused (R399). -/
def State.canHand (s : State) : Bool := s.hbOk && decide (s.beatByte / 32 = pairStandby) && maskBit s.beatByte 4

/-- A hand-over request in ACTIVE; `scan`: by the configuration scan (R399). -/
def State.pairHand (s : State) (scan : Bool) : State :=
  let byte := s.beatByte
  if s.canHand then
    (s.p R.RUT_STATUS F.RUT_STATUS_HANDOVER_PENDING 1).setRut { s.rut with byScan := s.rut.byScan || scan }
  else (s.raw R.RUT_RAW F.RUT_RAW_HANDOVER_REFUSED).fault 15 3 (b2n scan) byte

/-- `RUT_CMD`.HANDOVER (R399). -/
def State.handOverCmd (s : State) : State := if s.pairState = pairActive then s.pairHand false else s

/-- `RUT_CMD`.RELEASE (R397). -/
def State.release (s : State) : State :=
  if s.pairState = pairHeld then
    let s := s.toStandby s.rut.epoch
    (s.claimRec 0 (s.reg R.RUT_CLAIM).toNat 0).pairEval
  else s

/-- What a write of `RUT_CMD` triggers: RELEASE, then HANDOVER. -/
def State.rutCmdAct (s : State) (v : Word) : State :=
  let s := if F.RUT_CMD_RELEASE.get v = 1 then s.release else s
  if F.RUT_CMD_HANDOVER.get v = 1 then s.handOverCmd else s

/-- The configuration scan's fail-over (R52, R399): the state, and whether it acts as freeze writes. -/
def State.scanFailOver (s : State) : State × Bool :=
  if s.pairState = pairActive then
    (s.pairHand true, !s.canHand)
  else if s.pairState = pairStandby then
    let s := s.setPairState pairHeld
    (s.claimRec 0 (s.reg R.RUT_CLAIM).toNat 0, false)
  else (s, s.pairState != pairHeld)

/-! ### Copies sent (R401 to R403) -/

/-- `n` words of `s` from address `a` on, little-endian. -/
def State.wordBytes (s : State) (a n : Nat) : List Byte :=
  ((List.range n).map (fun i => leBytes 4 (s.reg (a + 4 * i)).toNat)).flatten

/-- The record of one mirrored context (R402). -/
def State.ctxRecord (s : State) (i : Nat) : List Byte :=
  leBytes 2 i ++ leBytes 2 0 ++ s.wordBytes (ctxAddr i + 32) 6 ++ leBytes 4 0

/-- `l` cut into pieces of at most 4,088 bytes, each with its offset from `o`; `fuel` bounds their number. -/
def pieces4088 : Nat → Nat → List Byte → List (Nat × List Byte)
  | 0, _, _ => []
  | k + 1, o, l => if l = [] then [] else (o, l.take 4088) :: pieces4088 k (o + 4088) (l.drop 4088)

/-- The messages of CLASS `c` that carry `l` from offset `o` under identity `ident`, and their COMMIT (R377). -/
def State.sendCopy (s : State) (c kind ident o : Nat) (l : List Byte) : State :=
  let ps := (pieces4088 (l.length / 4088 + 1) o l).map (fun p => beBytes 4 ident ++ beBytes 4 p.1 ++ p.2)
  let crc := (ps.foldl (fun r p => crcFold 0x82F63B78 r p) 0xFFFFFFFF) ^^^ 0xFFFFFFFF
  s.guyPut (ps.map (fun p => (c, p)) ++ [(4, beBytes 4 ident ++ beBytes 1 kind ++ beBytes 3 0 ++ beBytes 4 ps.length ++
    beBytes 4 (ps.foldl (fun n p => n + p.length) 0) ++ beBytes 4 crc)])

/-- Policer tokens of every valid context brought up to the present clock (R249). -/
def State.accrueAll (s : State) : State := s.validContexts.foldl State.accrue s

/-- The active starts a mirror batch (R401, R402). -/
def State.mirrorStart (s : State) : State :=
  if s.pairState = pairActive ∧ s.rut.mode = 0 ∧ s.guyUp then
    let s := s.accrueAll
    let data := s.timeRecord ++ ((s.validContexts.take 4096).map s.ctxRecord).flatten
    let id := (s.rut.txMirror + 1) % 2 ^ 32
    (s.setRut { s.rut with txMirror := id }).sendCopy 5 0 id 0 data
  else s

/-- The content of a checkpoint (R403). -/
def State.checkpoint (s : State) (ident : Nat) : List Byte :=
  let head := leBytes 4 ident ++ leBytes 4 (s.reg R.RUT_CLAIM).toNat ++ leBytes 8 s.nowTick.toNat ++
    leBytes 2 (s.g R.FWD_EPOCH F.FWD_EPOCH_CURRENT) ++ List.replicate 46 0#8
  let ring := ((s.hld.ring.take 1024).map (fun x => leBytes 8 (enc 64 x.t) ++ leBytes 8 (enc 64 x.y) ++
    leBytes 8 (enc 64 x.theta))).flatten
  let time := s.timeRecord ++ ring
  let vlans := ((List.range 4096).map (fun v => s.wordBytes (R.FWD_VLANv_MEMBER v) 3 ++ leBytes 4 0)).flatten
  let fes := ((List.range 65536).map (fun e => s.wordBytes (0x800000 + 32 * e) 7 ++ leBytes 4 0)).flatten
  let ctxs := ((List.range 16384).map (fun i => s.wordBytes (ctxAddr i) 16)).flatten
  head ++ time ++ List.replicate (32768 - time.length) 0#8 ++ vlans ++ fes ++ ctxs

/-- The active starts a checkpoint (R403). -/
def State.ckptStart (s : State) : State :=
  if s.pairState = pairActive ∧ s.rut.mode = 1 ∧ s.guyUp then
    let s := s.accrueAll
    let id := (s.rut.txCkpt + 1) % 2 ^ 32
    let slot := 1 - s.rut.txSlot
    (s.setRut { s.rut with txCkpt := id, txSlot := slot }).sendCopy 6 1 id (slot * 0x400000) (s.checkpoint id)
  else s

/-! ### Checkpoints applied (R406) -/

/-- The samples of a checkpoint's ring, newest first; empty places at its end hold zeros (R403). -/
def ringOf (l : List (List Byte)) : List Sample :=
  ((l.reverse.dropWhile (fun x => x.all (· == 0#8))).reverse).map (fun x =>
    ⟨sx 64 (leAt x 0 8), sx 64 (leAt x 8 8), sx 64 (leAt x 16 8)⟩)

/-- The valid checkpoint at slot offset `b` is applied: VLAN table, flow contexts, forwarding table, time record (R403,
R406). -/
def State.applyCheckpoint (s : State) (b : Nat) : State :=
  let s := (List.range 4096).foldl (fun s v =>
    if v = 0 ∨ v = 4095 then s else s.setWords (R.FWD_VLANv_MEMBER v) (s.dramRead (b + 0x8040 + 16 * v) 16) [0, 1, 2]) s
  let s := (List.range 16384).foldl (fun s i =>
    (((s.accrue i).setWords (ctxAddr i) (s.dramRead (b + 0x218040 + 64 * i) 64) (List.range 16)).epochUp)) s
  let s := (List.range 65536).foldl (fun s e =>
    let a := 0x800000 + 32 * e
    let s := s.setWords a (s.dramRead (b + 0x18040 + 32 * e) 32) (List.range 6)
    (s.setTw a 0 (maskClr (s.tw a 0) 29)).epochUp) s
  let s := s.poolCheck.applyTimeRecord (s.dramRead (b + 0x40) 256)
  let l := ringOf ((List.range 1024).map (fun k => s.dramRead (b + 0x140 + 24 * k) 24))
  (s.setHld { s.hld with firstT := l.getLast?.map (fun x => x.t) }).setRing l

/-- The checkpoint of a takeover has been applied: the claim is raised (R406). -/
def State.ckptApplied (s : State) : State :=
  if s.pairState = pairActive ∧ s.rut.applying then
    let s := match s.rut.valid with
      | some slot => s.applyCheckpoint (s.ckptBase + slot * 0x400000)
      | none => s
    (s.setRut { s.rut with applying := false, epoch := s.rut.next }).pairEval
  else s

end Sys2Proof.Machine
end

