-- ==== Sys2Proof/Machine/Egress.lean ====
section
/-! DEFINITION. The egress scheduler and the host port P24 (spec/10 R270, R290; spec/11 R307, R311; spec/09 R255,
R258 to R261; spec/08 R202). -/

namespace Sys2Proof.Machine

/-! ### Rings 0 and 1 as the ports see them (R60, R61, R258, R259) -/

/-- Descriptors posted to ring `k` and not yet completed (R61); none while the ring does not run. -/
def State.posted (s : State) (k : Nat) : Nat :=
  if s.on (R.HIF_DMAk_STATUS k) F.HIF_DMAk_STATUS_RUNNING then
    let size := 2 ^ s.g (R.HIF_DMAk_SIZE k) F.HIF_DMAk_SIZE_LOG2_ENTRIES
    (s.g (R.HIF_DMAk_TAIL k) F.HIF_DMAk_TAIL_TAIL + size - s.g (R.HIF_DMAk_HEAD k) F.HIF_DMAk_HEAD_HEAD) % size
  else 0

/-- What waits for descriptors of ring `k`. -/
def State.ready (s : State) (k : Nat) : List Content := Tbl.get [] s.hif.ready k

/-- Adds `b`, with status bits `st`, to what waits for descriptors of ring `k`; `desc`: the descriptor it was formed
for. -/
def State.addReady (s : State) (k : Nat) (b : List Byte) (st : Nat) (desc : List Byte) : State :=
  { s with hif := { s.hif with ready := Tbl.set [] s.hif.ready k (s.ready k ++ [⟨b, st, desc⟩]) } }

/-- BUF_ADDR, bytes 0 to 7 of a descriptor, little-endian (R61). -/
def descBuf (d : List Byte) : Nat := leNat (slice d 0 8)

/-- BUF_LEN, bytes 8 and 9 of a descriptor (R61). -/
def descLen (d : List Byte) : Nat := leNat (slice d 8 2)

/-- FLAGS, bytes 10 and 11 of a descriptor (R61). -/
def descFlags (d : List Byte) : Nat := leNat (slice d 10 2)

/-- Entries of ring `k` (R60). -/
def State.ringSize (s : State) (k : Nat) : Nat := 2 ^ s.g (R.HIF_DMAk_SIZE k) F.HIF_DMAk_SIZE_LOG2_ENTRIES

/-- The index of the next descriptor of ring `k` that no content has been formed for. -/
def State.nextDesc (s : State) (k : Nat) : Nat :=
  (s.g (R.HIF_DMAk_HEAD k) F.HIF_DMAk_HEAD_HEAD + (s.ready k).length) % s.ringSize k

/-! ### Ordinary copies (R270, R290) -/

/-- A copy may begin to leave now: cut-through, or its frame whole, and on die (R255, R277). -/
def State.copyReady (s : State) (c : QCopy) : Bool :=
  !c.dram && (match s.frameOf c.frame with | some f => f.whole || c.cut | none => false)

/-- The highest class of port `n` that is not paused and whose head may begin (R270). -/
def State.pickClass (s : State) (n : Nat) : Option QCopy :=
  ([7, 6, 5, 4, 3, 2, 1, 0].filterMap (fun c =>
    match s.queue (8 * n + c) with
    | x :: _ => if s.copyReady x && !s.paused n c then some x else none
    | [] => none)).head?

/-- An aged copy that the scheduler selects is discarded, and the scheduler selects again (R290); `fuel` bounds the
discards. -/
def State.select (s : State) (n : Nat) : Nat → State × Option QCopy
  | 0 => (s, none)
  | k + 1 =>
    match s.pickClass n with
    | none => (s, none)
    | some c => if s.aged c then ((s.ageOut c false).setQueue c.queue ((s.queue c.queue).drop 1)).select n k else (s, some c)

/-- How many copies port `n` holds in its queues. -/
def State.portCopies (s : State) (n : Nat) : Nat := (List.range 8).foldl (fun k c => k + (s.queue (8 * n + c)).length) 0

/-- The line time of a copy as the guard takes it (R307). -/
def State.guardTime (s : State) (f : Frame) (l : Looked) (n : Nat) (cut late : Bool) : Nat :=
  if cut then lineTime 16384 else lineTime ((sentBytes (s.pieces f l n (f.len - 4) late)).length + 4)

/-- Port `n` starts the ordinary copy it selects, if the guard lets it (R270). -/
def State.startOrdinary (s : State) (n : Nat) (t : Stamp) : State :=
  match s.select n (s.portCopies n + 1) with
  | (s, none) => s.settle
  | (s, some c) =>
    match s.frameOf c.frame with
    | none => s.settle
    | some f =>
      match f.look with
      | none => s.settle
      | some l =>
        if !s.guardOk n t (s.guardTime f l n c.cut false) then s.settle
        else
          let s := s.setQueue c.queue ((s.queue c.queue).drop 1)
          if f.whole then ((s.uncount c).depart f l n t c.cut false).settle
          else s.setFwd { s.fwd with sending := Tbl.set none s.fwd.sending n (some ⟨c, t⟩) }

/-! ### The pass list (R270, R311) -/

/-- The head of port `n`'s pass list: none when it is not due; else the state after it has been served or held. -/
def State.servePass (s : State) (n : Nat) (t : Stamp) : Option State :=
  match s.passList n with
  | [] => none
  | c :: rest =>
    match s.herdInfo c with
    | none => some (s.setPass n rest)
    | some (f, l, _) =>
      if c.reason ≠ 4 ∧ tickDiff (tickOf t.t) c.r < 0 then none
      else if s.gateShut n then some ((s.setPass n rest).claimRemove c).settle
      else if s.paused n l.cls || !s.guardOk n t (s.guardTime f l n false true) then some s
      else
        let s := (s.inc R.HRD_CNT_PASSED F.HRD_CNT_PASSED_COUNT).raw R.HRD_RAW F.HRD_RAW_PASSED
        some ((s.setPass n rest).depart f l n t false true).settle

/-- Port `n` may transmit (R270); while Herd copies wait, the decision takes a running timescale (R303, R315). -/
def State.mayTransmit (s : State) (n : Nat) : Bool :=
  (s.runs .timescale || (s.cal n).isEmpty && (s.passList n).isEmpty) &&
  s.running && s.g (R.FWD_PORTn_STATE n) F.FWD_PORTn_STATE_STATE == 3 && s.linkUp n && s.runs .core && !s.looping n &&
    (Tbl.get none s.fwd.sending n).isNone

/-- Port `n` of P00 to P23 chooses its next frame (R270). -/
def State.egressSelect (s : State) (n : Nat) (x : StampIn) : State :=
  let t := s.txStamp n x
  match s.calDepart n t with
  | some s => s
  | none =>
    if !s.mayTransmit n then s
    else
      match s.servePass n t with
      | some s => s
      | none => s.startOrdinary n t

/-! ### P24 (R258 to R261) -/

/-- The bytes of frame `f` for P24: as received, but without a recognised Herd tag when P24 is an edge port (R260, R301). -/
def State.hostCopy (s : State) (f : Frame) (l : Looked) : List Byte :=
  if s.on (R.HRD_PORTn_CFG 24) F.HRD_PORTn_CFG_EDGE && l.heads.herd then
    let ps := editPieces (f.bytes.take (f.len - 4)) l.heads
      { tagged := l.heads.vlan, tci := l.heads.tci, dropHsr := false, addHsr := none, dropHerd := true, herd := none,
        dropRct := false, addRct := none }
    sentBytes ps ++ leBytes 4 (carriedFcs f.fcs ps)
  else f.bytes

/-- The 16-byte header and the bytes `b` of a copy of `f` (R260). -/
def hostFrame (f : Frame) (l : Looked) (reason : Nat) (b : List Byte) : List Byte :=
  leBytes 8 (tickOf f.stamp.t).toNat ++
    [BitVec.ofNat 8 f.port, BitVec.ofNat 8 l.cls, BitVec.ofNat 8 reason,
     BitVec.ofNat 8 (b2n f.stamp.fecBad * 4 + b2n f.stamp.gap * 2 + b2n f.stamp.coarse)] ++ leBytes 4 0 ++ b

/-- A copy to P24 is written to ring 1 while the ring has a posted descriptor (R258, R260). -/
def State.hostDeliver (s : State) : State :=
  if s.posted 1 = 0 ∨ !s.runs .core ∨ !(s.ready 1).isEmpty ∨ s.g (R.FWD_PORTn_STATE 24) F.FWD_PORTn_STATE_STATE ≠ 3 then s
  else
    match s.select 24 (s.portCopies 24 + 1) with
    | (s, none) => s.settle
    | (s, some c) =>
      match s.frameOf c.frame with
      | none => s.settle
      | some f =>
        match f.look with
        | none => s.settle
        | some l =>
          let s := s.setQueue c.queue ((s.queue c.queue).drop 1)
          let b := s.hostCopy f l
          let s := ((s.uncount c).addReady 1 (hostFrame f l c.reason b) 0 []).pmc 2 2 1
          (s.frameRec 2 { l with outVid := l.vid } s.hostStamp 24 b.length (leNat (b.drop (b.length - 4))) 0 false).settle

/-- The frame that a ring 0 buffer holds (R259). -/
def hostBytes (flags : Nat) (buf : List Byte) : List Byte :=
  if maskBit flags 15 then buf ++ leBytes 4 (fcsOf buf) else buf

/-- BUF_LEN is legal for ring 0 (R259). -/
def hostLen (flags n : Nat) : Bool :=
  if maskBit flags 15 then decide (60 ≤ n) && decide (n ≤ 16380) else decide (64 ≤ n) && decide (n ≤ 16384)

/-- The frame of the next ring 0 descriptor, `desc`, enters the device (R61, R259, R281); `mem`: host memory from
BUF_ADDR on.  ERR, bit 14 of DONE_STATUS, completes an illegal descriptor, marked by bit 16, and one that names no
port. -/
def State.hostIngest (s : State) (desc mem : List Byte) : State :=
  let flags := descFlags desc
  let buf := slice mem 0 (descLen desc)
  if s.posted 0 ≤ (s.ready 0).length ∨ !s.runs .core then s
  else if !hostLen flags (descLen desc) then s.addReady 0 [] (2 ^ 14 + 2 ^ 16) desc
  else
    let b := hostBytes flags buf
    let p := s.ingressPrio 24 b
    if !s.cellsFree 24 || !s.usageOk 24 p then s
    else
      let k := cellsOf b.length
      let f := { s.newFrame 24 p b s.hostStamp with whole := true, bad := badCause b .good }
      if maskBit flags 13 then
        let n := flags % 32
        if 24 ≤ n then s.addReady 0 [] (2 ^ 14) desc
        else
          let h := headsOf b 0
          let vid := if h.vlan then h.tci % 4096 else 0
          let l := { Looked.nothing h vid (bitsOf flags 12 10) 0 (s.g R.FWD_EPOCH F.FWD_EPOCH_CURRENT) none 0 false with
                     dests := [n] }
          let f := { f with direct := true, look := some l, cells := k,
                            tag := if maskBit flags 14 then some (s.nextDesc 0) else none }
          if f.bad.isSome then
            ((s.inc R.FWD_CNT_RXBAD F.FWD_CNT_RXBAD_COUNT).raw R.FWD_RAW F.FWD_RAW_RX_BAD).addReady 0 buf 0 desc
          else
            match s.accountFor f l with
            | none => s
            | some a => (((((s.addFrame f).usageAdd 24 p k).handOver f l a).addReady 0 buf 0 desc).settle)
      else
        let f := s.land f k
        ((((s.addFrame f).usageAdd 24 p k).addReady 0 buf 0 desc).xoff)

/-- The consumed message that frame `f` carries is well-formed (R202). -/
def State.mgmtOk (s : State) (f : Frame) (l : Looked) : Bool :=
  match s.ptpConsumed f.port f.bytes l.heads with
  | some m => msgOk (msgType m) m
  | none => true

/-- A consumed Management or Signaling message of port `n` is handed to the host on P24, or discarded and counted when it
is not well-formed (R202, R261). -/
def State.mgmtRx (s : State) (n : Nat) : State :=
  match s.fwd.frames.find? (fun f => f.port == n && f.whole && f.bad.isNone && !f.placed &&
      (match f.look with | some l => l.mgmt | none => false)) with
  | none => s
  | some f =>
    match f.look with
    | none => s
    | some l =>
      if !(s.mgmtOk f l) then ((s.setFrame { f with placed := true }).ptpDiscard n).settle
      else
      let l := { l with dests := [24], reason := 3 }
      match s.accountFor f l with
      | none => s
      | some a => ((s.setFrame { f with look := some l }).handOver { f with look := some l } l a).settle

end Sys2Proof.Machine
end

