-- ==== Sys2Proof/Machine/Spoor.lean ====
section
/-! DEFINITION. The journal's ring, freeze and readout (spec/12_spoor_journal.md R328 to R335). -/

namespace Sys2Proof.Machine

/-- N: the records the ring holds (R328). -/
def State.sprN (s : State) : Nat := s.g R.SPR_SIZE F.SPR_SIZE_N

/-- `SPR_WR_COUNT`. -/
def State.wrCount (s : State) : Nat := s.pair R.SPR_WR_COUNT_LO

/-- `SPR_RD_COUNT`. -/
def State.rdCount (s : State) : Nat := s.pair R.SPR_RD_COUNT_LO

/-- The DRAM address of ring index `i` (R328). -/
def State.recordAddr (s : State) (i : Nat) : Nat :=
  s.g R.SPR_BASE F.SPR_BASE_BASE * 2 ^ 24 + 32 * (i % s.sprN)

/-- WRAPPED, FULL and the conditions OVERRUN and FULL (R329). -/
def State.sprStatus (s : State) : State :=
  let n := s.sprN
  let gap := s.wrCount - s.rdCount
  let full := s.spr.fill && decide (0 < n) && gap == n
  let s := s.pb R.SPR_STATUS F.SPR_STATUS_WRAPPED (decide (0 < n) && decide (n < s.wrCount))
  let s := (s.pb R.SPR_STATUS F.SPR_STATUS_FULL full).cond R.SPR_RAW F.SPR_RAW_FULL full
  s.cond R.SPR_RAW F.SPR_RAW_OVERRUN (!s.spr.fill && decide (n < gap))

/-- EN rises (R329, R332). -/
def State.sprEnable (s : State) : State :=
  let s := { s with spr := { s.spr with fill := s.on R.SPR_CTRL F.SPR_CTRL_MODE } }
  (s.p R.SPR_STATUS F.SPR_STATUS_STATE sprArmed).sprStatus

/-- EN falls (R329, R332): the FIFO drains. -/
def State.sprDisable (s : State) : State := s.p R.SPR_STATUS F.SPR_STATUS_STATE sprOff

/-- What a write of `SPR_CTRL` that changes EN does; `old` is the register before. -/
def State.sprCtrlAct (s : State) (old : Word) : State :=
  let was := F.SPR_CTRL_EN.get old
  let now := s.g R.SPR_CTRL F.SPR_CTRL_EN
  if was = 0 ∧ now = 1 then s.sprEnable else if was = 1 ∧ now = 0 then s.sprDisable else s

/-- The partitions are set: N and the base of the journal (R328). -/
def State.sprPartition (s : State) : State :=
  (s.setRegN R.SPR_SIZE (s.g R.QUE_PART F.QUE_PART_JOURNAL * 524288)).setRegN R.SPR_BASE (s.g R.QUE_PART F.QUE_PART_SPILL)

/-- DRAM serves the journal: trained and not in self-refresh (R274, R330). -/
def State.dramServes (s : State) : Bool :=
  s.on R.QUE_STATUS F.QUE_STATUS_DRAM_READY && !s.dramWaits && s.runs .core

/-- The POST records after the trigger have been written (R332). -/
def State.postDone (s : State) : Bool := s.sprState == sprPost && decide (s.spr.freezeAt ≤ s.wrCount)

/-- The writer may write (R329, R330, R332). -/
def State.sprWrites (s : State) : Bool :=
  s.dramServes && decide (0 < s.sprN) && s.sprState != sprFrozen && !s.postDone &&
    !(s.spr.fill && s.wrCount - s.rdCount == s.sprN)

/-- The oldest record of the FIFO is committed to DRAM and WR_COUNT advances (R328). -/
def State.recordWrite (s : State) : State :=
  match s.spr.fifo with
  | [] => s
  | r :: l =>
    if s.sprWrites then
      let s := s.dramWrite (s.recordAddr s.wrCount) r.bytes
      ((s.setFifo l).setPair R.SPR_WR_COUNT_LO (s.wrCount + 1)).sprStatus
    else s

/-- A LOSS record reports the losses since the previous one, with the TIME of the first record lost and what its header
says of that TIME (R319, R321, R330). -/
def State.lossRecord (s : State) : State :=
  if s.on R.SPR_STATUS F.SPR_STATUS_LOSSING && decide (s.spr.fifo.length ≤ 2048) && s.on R.SPR_CTRL F.SPR_CTRL_EN &&
      s.sprState != sprFrozen then
    let r := s.mkRec 0x39 0 s.spr.lostSel s.spr.lostMand 0 0
    let r := match s.spr.lostFirst with
      | some q => { r with time := q.time, coarse := q.coarse, gap := q.gap, seg := q.seg }
      | none => r
    let s := s.record true r
    { s with spr := { s.spr with lostSel := 0, lostMand := 0, lostFirst := none } }.p R.SPR_STATUS F.SPR_STATUS_LOSSING 0
  else s

/-- FIRE (R331). -/
def State.sprFire (s : State) : State := s.fire 0 0

/-- REARM: FROZEN to ARMED (R332). -/
def State.sprRearm (s : State) : State :=
  if s.sprState = sprFrozen then
    (s.p R.SPR_STATUS F.SPR_STATUS_STATE sprArmed).p R.SPR_TRIG_STATUS F.SPR_TRIG_STATUS_SOURCE 15
  else s

/-- FETCH (R333). -/
def State.sprFetch (s : State) : State :=
  if s.on R.SPR_FETCH_STATUS F.SPR_FETCH_STATUS_BUSY then s
  else
    { s with spr := { s.spr with fetch := s.pair R.SPR_FETCH_IDX_LO } }.p R.SPR_FETCH_STATUS F.SPR_FETCH_STATUS_BUSY 1

/-- A write of `SPR_CMD` acts in the order REARM, FIRE, FETCH (R332).  A trigger fired with REARM acts on the re-armed
journal. -/
def State.sprCmdAct (s : State) (v : Word) : State :=
  let s := if F.SPR_CMD_REARM.get v = 1 then s.sprRearm else s
  let s := if F.SPR_CMD_FIRE.get v = 1 then s.sprFire else s
  if F.SPR_CMD_FETCH.get v = 1 then s.sprFetch else s

/-- The staging fetch ends (R333). -/
def State.fetchDone (s : State) : State :=
  if s.on R.SPR_FETCH_STATUS F.SPR_FETCH_STATUS_BUSY then
    let i := s.spr.fetch
    let res := if s.sprN = 0 then 3 else if s.wrCount ≤ i then 1 else if i + s.sprN < s.wrCount then 2 else 0
    let b := s.dramRead (s.recordAddr i) 32
    let s := (List.range 8).foldl (fun s k =>
      s.setRegN (R.SPR_FETCH_Wk k) (if res = 0 then leNat (slice b (4 * k) 4) else 0)) s
    let s := (s.p R.SPR_FETCH_STATUS F.SPR_FETCH_STATUS_BUSY 0).p R.SPR_FETCH_STATUS F.SPR_FETCH_STATUS_RESULT res
    s.raw R.SPR_RAW F.SPR_RAW_FETCH_DONE
  else s

/-- An edge of `SPOOR_TRIG`, `fall` a falling one, of a level that lasts `ns` (R331). -/
def State.pinTrig (s : State) (fall : Bool) (ns : Nat) : State :=
  if s.on R.SPR_TRIG_EN F.SPR_TRIG_EN_PIN && s.on R.SPR_TRIG_EN F.SPR_TRIG_EN_PIN_EDGE == fall && decide (20 ≤ ns) then
    s.fire 3 0
  else s

/-- The journal freezes (R332).  Records still in the FIFO are not written and count as frozen. -/
def State.sprFreeze (s : State) : State :=
  if s.postDone then
    let s := s.satAdd R.SPR_CNT_FROZEN F.SPR_CNT_FROZEN_COUNT s.spr.fifo.length
    ((s.setFifo []).p R.SPR_STATUS F.SPR_STATUS_STATE sprFrozen).raw R.SPR_RAW F.SPR_RAW_FROZEN
  else s

/-! ### Ring 2 (R334, R335) -/

/-- BUF_LEN of ring 2 is legal (R334). -/
def journalLen (n : Nat) : Bool := decide (64 ≤ n) && decide (n ≤ 65472) && n % 64 == 0

/-- The buffer of the next ring 2 descriptor, `desc`, completes, full or at FROZEN_END, or, unless FLAGS [0] WAIT is 1,
with `idle` once no record became readable for 100 µs (R334): its content waits for the descriptor to complete and
RD_COUNT advances. -/
def State.journalBuffer (s : State) (desc : List Byte) (idle : Bool) : State :=
  let len := descLen desc
  let rd := s.rdCount
  let wr := s.wrCount
  let n := s.sprN
  let jump := decide (rd + n < wr)
  let rd := if jump then wr - n + 65536 else rd
  let k := min (len / 32) (wr - rd)
  let full := k == len / 32
  let frozen := s.sprState == sprFrozen
  let idle := idle && !maskBit (descFlags desc) 0
  if !s.dramServes || s.posted 2 ≤ (s.ready 2).length || !journalLen len || descBuf desc % 64 != 0 || n = 0 then s
  else if full || frozen || (idle && decide (0 < k)) then
    let b := (List.range k).flatMap (fun i => s.dramRead (s.recordAddr (rd + i)) 32)
    let st := b2n (!full) + b2n jump * 2 + b2n (frozen && rd + k == wr) * 4
    ((s.addReady 2 b st desc).setPair R.SPR_RD_COUNT_LO (rd + k)).sprStatus
  else s

end Sys2Proof.Machine
end

