-- ==== Sys2Proof/Machine/Tdc.lean ====
section
/-! DEFINITION. Event inputs, interpolators, measurement windows and statistics
(spec/13_event_timing_inputs.md R342 to R366). -/

namespace Sys2Proof.Machine

/-- Channel `e`. -/
def State.chan (s : State) (e : Nat) : TdcChan := Tbl.get TdcChan.reset s.tdc.chans e

/-- The state with channel `e` being `c`. -/
def State.setChan (s : State) (e : Nat) (c : TdcChan) : State :=
  { s with tdc := { s.tdc with chans := Tbl.set TdcChan.reset s.tdc.chans e c } }

/-- Unit `m`. -/
def State.unit (s : State) (m : Nat) : TdcUnit := Tbl.get TdcUnit.reset s.tdc.units m

/-- The state with unit `m` being `u`. -/
def State.setUnit (s : State) (m : Nat) (u : TdcUnit) : State :=
  { s with tdc := { s.tdc with units := Tbl.set TdcUnit.reset s.tdc.units m u } }

/-! ### Channels in service (R346, R347, R351, R352) -/

/-- Channel `e` and the block are enabled. -/
def State.chanEn (s : State) (e : Nat) : Bool := s.on R.TDC_CTRL F.TDC_CTRL_EN && s.on (R.TDC_En_CFG e) F.TDC_En_CFG_EN

/-- The interpolator in service of channel `e`. -/
def State.activeCal (s : State) (e : Nat) : TdcCal :=
  if s.on (R.TDC_En_STATUS e) F.TDC_En_STATUS_ACTIVE then (s.chan e).b else (s.chan e).a

/-- Channel `e` stamps: enabled, not disabled, not calibrating both interpolators, its interpolator calibrated. -/
def State.stamps (s : State) (e : Nat) : Bool :=
  s.chanEn e && !s.on (R.TDC_En_STATUS e) F.TDC_En_STATUS_DISABLED && !(s.chan e).calA && !(s.chan e).calB &&
    (s.activeCal e).cal.isSome

/-- Channel `e` is in service for the units (R351, R355). -/
def State.inService (s : State) (e : Nat) : Bool := s.stamps e && !s.on (R.TDC_En_STATUS e) F.TDC_En_STATUS_STUCK

/-- Bit `e` of field `f` of `TDC_STATUS`. -/
def State.statusBit (s : State) (f : Fld) (e : Nat) (b : Bool) : State :=
  s.p R.TDC_STATUS f (if b then maskSet (s.g R.TDC_STATUS f) e else maskClr (s.g R.TDC_STATUS f) e)

/-! ### Statistics (R362, R363) -/

/-- The nearest square root (R362). -/
def isqrtNear (v : Nat) : Nat := let r := isqrt v; if r < v - r * r then r + 1 else r

/-- The block results of unit `m` are latched (R362, R363). -/
def State.latch (s : State) (m : Nat) (freq : Bool) : State :=
  let u := s.unit m
  let q : Int := if freq then 1 else 256
  let k : Int := u.used
  let mean := u.x0 * q + divRound (u.sumD * q) k
  let v := k * u.sumD2 - u.sumD * u.sumD
  let sd := if u.used < 2 then 0 else isqrtNear ((v * q * q) / (k * (k - 1))).toNat
  let s := ((s.setPairI (R.TDC_Mm_MEAN_LO m) mean).setPair (R.TDC_Mm_SD_LO m) sd).setPairI (R.TDC_Mm_MIN_LO m) u.mn
  let s := (s.setPairI (R.TDC_Mm_MAX_LO m) u.mx).setRegN (R.TDC_Mm_STAT_USED m) u.used
  let s := s.p (R.TDC_Mm_STATUS m) F.TDC_Mm_STATUS_SEQ (s.g (R.TDC_Mm_STATUS m) F.TDC_Mm_STATUS_SEQ + 1)
  ((s.setUnit m { u with n := 0 }).setRegN (R.TDC_Mm_STAT_PROG m) 0).raw R.TDC_RAW F.TDC_RAW_STAT_DONE

/-- A sample of unit `m` (R362). -/
def State.sample (s : State) (m : Nat) (freq : Bool) (x : Int) : State :=
  let u := s.unit m
  let u := if u.n = 0 then { u with x0 := x, sumD := 0, sumD2 := 0, used := 0, mn := x, mx := x } else u
  let d := x - u.x0
  let near := decide (-(2 ^ 35 : Int) < d) && decide (d < 2 ^ 35)
  let s := if near then s else s.inc (R.TDC_Mm_CNT m) F.TDC_Mm_CNT_STAT_OVF
  let u := if near then { u with sumD := u.sumD + d, sumD2 := u.sumD2 + d * d, used := u.used + 1 } else u
  let u := { u with mn := min u.mn x, mx := max u.mx x, n := u.n + 1 }
  let s := (s.setUnit m u).setRegN (R.TDC_Mm_STAT_PROG m) u.n
  if s.g (R.TDC_Mm_STAT_N m) F.TDC_Mm_STAT_N_N ≤ u.n then s.latch m freq else s

/-- The block in progress of unit `m` is discarded (R363). -/
def State.clearBlock (s : State) (m : Nat) : State :=
  (s.setUnit m { s.unit m with n := 0 }).setRegN (R.TDC_Mm_STAT_PROG m) 0

/-! ### Records and events (R359, R361) -/

/-- A field of a unit's configuration. -/
def State.ucfg (s : State) (m : Nat) (f : Fld) : Nat := s.g (R.TDC_Mm_CFG m) f

/-- A TDC record (R324, R325, R361) of channel `e`. -/
def State.tdcRec (s : State) (kind e start : Nat) (sub : Bool) (value w6 w7 : Nat) (time : Tick64) (seg : Nat)
    (gap trig : Bool) : State :=
  if maskBit (s.g R.SPR_SEL_TDC F.SPR_SEL_TDC_CHANNELS) e && maskBit (s.g R.SPR_SEL_TDC F.SPR_SEL_TDC_KINDS) kind then
    let r := s.mkRec 0x30 (e + b2n sub * 8 + kind * 16 + start * 256) (value % 2 ^ 32) (value / 2 ^ 32) w6 (w7 % 2 ^ 16)
    s.record false { r with time := time, seg := seg, gap := gap, trig := trig }
  else s

/-- Window event `c` of unit `m` (R359). -/
def State.windowEvent (s : State) (m c : Nat) : State :=
  if !maskBit (s.ucfg m F.TDC_Mm_CFG_WEV_EN) (c - 1) then s
  else
    let e := s.ucfg m F.TDC_Mm_CFG_STOP
    let fires := s.on R.SPR_TRIG_EN F.SPR_TRIG_EN_TDC && maskBit (s.g R.SPR_TRIG_EN F.SPR_TRIG_EN_TDC_MASK) e
    let s := (s.inc (R.TDC_Mm_CNT m) F.TDC_Mm_CNT_WEV).raw R.TDC_RAW F.TDC_RAW_WEV
    let s := s.tdcRec 3 e (s.ucfg m F.TDC_Mm_CFG_START) false c m (s.g (R.TDC_Mm_STATUS m) F.TDC_Mm_STATUS_WINDOW)
      s.nowTick s.seg (c == 7) fires
    if fires then s.fire 2 e else s

/-- A result `x` of unit `m`: LAST, limits and statistics (R359, R360, R362). -/
def State.result (s : State) (m : Nat) (freq : Bool) (x : Int) : State :=
  let s := s.setPairI (R.TDC_Mm_LAST_LO m) x
  let s := if x < s.pairI (R.TDC_Mm_LIM_MIN_LO m) then s.windowEvent m 3 else s
  let s := if s.pairI (R.TDC_Mm_LIM_MAX_LO m) < x then s.windowEvent m 4 else s
  s.sample m freq x

/-- A time rounded to the nearest multiple of 64, ties toward positive (R344). -/
def round64 (t : Tick64) : Tick64 := BitVec.ofNat 64 ((t.toNat + 32) / 64 * 64)

/-! ### Windows (R355 to R358) -/

/-- OPEN of unit `m` in Tick64 units; in frequency mode at least 0 (R355). -/
def State.winOpen (s : State) (m : Nat) : Int :=
  let o := s.regI (R.TDC_Mm_OPEN m)
  nsTicks (if s.ucfg m F.TDC_Mm_CFG_MODE = 1 then max o 0 else o)

/-- CLOSE of unit `m` in Tick64 units. -/
def State.winClose (s : State) (m : Nat) : Int := nsTicks (s.regI (R.TDC_Mm_CLOSE m))

/-- The window of unit `m` that started at `t` covers the instant `u` (R355, R356). -/
def State.covers (s : State) (m : Nat) (t u : Tick64) : Bool :=
  decide (s.winOpen m ≤ tickDiff u t) && decide (tickDiff u t ≤ s.winClose m)

/-- A stop `u` in the open window `w` of unit `m`, in the order of time (R356 to R358). -/
def State.stop (s : State) (m : Nat) (w : TdcWin) (u : Tick64) (seg : Nat) : State :=
  let o := tickDiff u w.start
  let same := s.ucfg m F.TDC_Mm_CFG_START == s.ucfg m F.TDC_Mm_CFG_STOP
  let freq := s.ucfg m F.TDC_Mm_CFG_MODE == 1
  if o < s.winOpen m ∨ s.winClose m < o ∨ (same ∧ o ≤ 0) then s
  else
    let w' := { w with count := w.count + 1, first := if w.count = 0 then u else w.first, last := u }
    let s := s.setUnit m { s.unit m with win := some w' }
    if freq ∨ w.stepped ∨ (s.ucfg m F.TDC_Mm_CFG_STOPS = 0 ∧ w.count ≠ 0) then s
    else
      let sub := decide (-64 < o) && decide (o < 64)
      let v := if sub then 0 else (o + 32) / 64
      let s := s.tdcRec 1 (s.ucfg m F.TDC_Mm_CFG_STOP) (s.ucfg m F.TDC_Mm_CFG_START) sub (enc 64 (v * 64)) m
        (s.g (R.TDC_Mm_STATUS m) F.TDC_Mm_STATUS_WINDOW) (round64 u) seg (!s.runs .timescale) false
      s.result m false v

/-- The window of unit `m` is gone. -/
def State.dropWin (s : State) (m : Nat) : State :=
  (s.setUnit m { s.unit m with win := none }).p (R.TDC_Mm_STATUS m) F.TDC_Mm_STATUS_WIN_OPEN 0

/-- The frequency of R358, in 2^-32 Hz.  A change of the delay within the window can leave no time between its edges; the
frequency is then a free value (DESIGN CHOICE, log 27). -/
def State.freqOf (s : State) (w : TdcWin) : Nat :=
  let d := (tickDiff w.last w.first).toNat
  if d = 0 then (Config.freeWord s.freeIdx).toNat + 2 ^ 32 * (Config.freeWord (s.freeIdx + 1)).toNat
  else ((w.count - 1) * 65536000000000 * 2 ^ 32 + d / 2) / d

/-- The window of unit `m` reaches its close instant (R356, R358, R359). -/
def State.windowClose (s : State) (m : Nat) : State :=
  match (s.unit m).win with
  | none => s
  | some w =>
    if !s.runs .timescale then s
    else
    let freq := s.ucfg m F.TDC_Mm_CFG_MODE == 1
    let few := decide (w.count < (if freq then 2 else 1))
    let s := if few then s.windowEvent m (if w.noStop then 9 else 1) else s
    let s := if !freq && s.ucfg m F.TDC_Mm_CFG_STOPS == 0 && decide (1 < w.count) then s.windowEvent m 2 else s
    let s := if freq && !few && !w.stepped && !w.lost then
        let f := s.freqOf w
        let s := s.drawn.drawn
        let t := round64 (w.start + BitVec.ofNat 64 (s.winClose m).toNat)
        let s := s.tdcRec 2 (s.ucfg m F.TDC_Mm_CFG_STOP) (s.ucfg m F.TDC_Mm_CFG_START) false (f % 2 ^ 64) m
          (s.g (R.TDC_Mm_STATUS m) F.TDC_Mm_STATUS_WINDOW) t s.seg false false
        s.result m true (sx 64 f)
      else s
    let s := if w.stepped then s.windowEvent m 8 else s
    let s := if w.lost then s.windowEvent m 11 else s
    s.dropWin m

/-- The window of unit `m` ends early with event `c` (R355, R364). -/
def State.windowEnd (s : State) (m c : Nat) : State :=
  match (s.unit m).win with
  | none => s
  | some _ => (s.windowEvent m c).dropWin m

/-- Unit `m` takes part (R354). -/
def State.unitOn (s : State) (m : Nat) : Bool := s.on R.TDC_CTRL F.TDC_CTRL_EN && s.ucfg m F.TDC_Mm_CFG_EN == 1

/-- A window of unit `m` opens at start instant `t` (R355, R356). -/
def State.openWindow (s : State) (m : Nat) (t : Tick64) : State :=
  let stop := s.ucfg m F.TDC_Mm_CFG_STOP
  let same := s.ucfg m F.TDC_Mm_CFG_START == stop
  let freq := s.ucfg m F.TDC_Mm_CFG_MODE == 1
  let c := s.chan stop
  let w : TdcWin := ⟨t, if same && freq then 1 else 0, t, t, false, c.lostAt.any (s.covers m t), !s.inService stop⟩
  let s := s.setUnit m { s.unit m with win := some w }
  let st := R.TDC_Mm_STATUS m
  let s := (s.p st F.TDC_Mm_STATUS_WINDOW (s.g st F.TDC_Mm_STATUS_WINDOW + 1)).p st F.TDC_Mm_STATUS_WIN_OPEN 1
  let s := match c.gone with
    | some g => if s.winOpen m ≤ tickDiff g t then s.windowEvent m 6 else s
    | none => s
  c.hist.reverse.foldl (fun s u =>
    match (s.unit m).win with
    | some w => s.stop m w u.1 u.2
    | none => s) s

/-- The oldest start of unit `m` that has not been taken: it opens a window, or is ignored (R355). -/
def State.windowStart (s : State) (m : Nat) : State :=
  match (s.unit m).starts with
  | [] => s
  | t :: r =>
    if !s.runs .timescale then s
    else
    let s := s.setUnit m { s.unit m with starts := r }
    let ch := s.ucfg m F.TDC_Mm_CFG_START
    if !s.unitOn m || (decide (ch < 8) && !s.inService ch) then s
    else
      match (s.unit m).win with
      | none => s.openWindow m t
      | some w =>
        if s.winClose m ≤ tickDiff t w.start then (s.windowClose m).openWindow m t else s.windowEvent m 5

/-- A start instant for every unit that starts on channel `ch`, 8 the timescale second (R354, R355). -/
def State.giveStart (s : State) (ch : Nat) (t : Tick64) : State :=
  (List.range 4).foldl (fun s m =>
    if s.unitOn m && s.ucfg m F.TDC_Mm_CFG_START == ch then
      s.setUnit m { s.unit m with starts := (s.unit m).starts ++ [t] }
    else s) s

/-- Channel `e` goes out of service: windows that stop on it end early (R355). -/
def State.chanOut (s : State) (e : Nat) : State :=
  (List.range 4).foldl (fun s m => if s.ucfg m F.TDC_Mm_CFG_STOP = e then s.windowEnd m 9 else s) s

/-- The status bits of channel `e` follow its state; windows end when it has gone out of service. -/
def State.chanStatus (s : State) (e : Nat) : State :=
  let a := R.TDC_En_STATUS e
  let was := s.on a F.TDC_En_STATUS_IN_SERVICE
  let now := s.inService e
  let c := s.chan e
  let cal := s.activeCal e
  let s := ((s.pb a F.TDC_En_STATUS_IN_SERVICE now).pb a F.TDC_En_STATUS_CAL_A c.a.cal.isSome).pb a
    F.TDC_En_STATUS_CAL_B c.b.cal.isSome
  let s := s.statusBit F.TDC_STATUS_IN_SERVICE e now
  let s := (s.setRegN (R.TDC_En_CAL_S1 e) (enc 21 ((cal.cal.map (·.1)).getD 0))).setRegN (R.TDC_En_CAL_SPAN e)
    (enc 21 ((cal.cal.map (·.2)).getD 0))
  if was && !now then s.chanOut e else s

/-! ### Edges and stamps (R343, R344, R348 to R353) -/

/-- An edge of channel `e` that would have been stamped `u` is lost under R348 or R349: the windows that cover it know
(R358, R359). -/
def State.edgeLost (s : State) (e : Nat) (u : Tick64) : State :=
  let c := s.chan e
  let s := s.setChan e { c with lost := c.lost + 1, lostCap := true, lostAt := (u :: c.lostAt).take 128 }
  (List.range 4).foldl (fun s m =>
    match (s.unit m).win with
    | some w =>
      if s.ucfg m F.TDC_Mm_CFG_STOP = e ∧ s.covers m w.start u = true then
        s.setUnit m { s.unit m with win := some { w with lost := true } }
      else s
    | none => s) s

/-- `TDC_En_DLY_EFF` (R344). -/
def State.evtDelay (s : State) (e : Nat) : Int :=
  satS 32 (s.regI (R.TDC_En_DLY_FAC e) + s.regI (R.TDC_En_DLY_USER e))

/-- The unrounded stamp of a captured edge (R344, R345). -/
def capStamp (x : TdcCap) : Tick64 :=
  let num := 131072 * (256 * (x.code : Int) - x.s1)
  let t := 131072 + (2 * num + x.span) / (2 * x.span)
  x.e - BitVec.ofNat 64 (enc 64 (divRound (t * x.inc) (2 ^ 49) + x.dly))

/-- An edge of input `e` (R343, R348 to R351): `rise` its direction, `code` the interpolator's code, `since` the time in
ps since the previous selected edge, `hold` the time in ns until the input returns to its previous level, if it does. -/
def State.tdcEdge (s : State) (e : Nat) (rise : Bool) (code since : Nat) (hold : Option Nat) : State :=
  let a := R.TDC_En_STATUS e
  let cfg := s.g (R.TDC_En_CFG e) F.TDC_En_CFG_EDGE
  let s := s.pb a F.TDC_En_STATUS_LEVEL rise
  let selected := cfg == 2 || (cfg == 0) == rise
  if !selected || !s.running || !s.stamps e || !s.runs .timescale then s
  else
    let s := if s.on a F.TDC_En_STATUS_STUCK then
        ((s.pb a F.TDC_En_STATUS_STUCK false).statusBit F.TDC_STATUS_STUCK e false).chanStatus e
      else s
    let c := s.chan e
    let filt := s.g (R.TDC_En_LIMITS e) F.TDC_En_LIMITS_FILT
    match (s.activeCal e).cal with
    | none => s
    | some (s1, span) =>
      let x : TdcCap := ⟨code % 2 ^ 13, s.nowTick, (2 ^ 49 + s.rate).toNat, s1, span, s.evtDelay e,
        s.g a F.TDC_En_STATUS_SWAPS, c.lostCap, s.seg⟩
      let s := s.setChan e { c with back := false }
      if since < 3200 then
        ((s.inc (R.TDC_En_CNT e) F.TDC_En_CNT_DEAD).raw R.TDC_RAW F.TDC_RAW_DEAD).edgeLost e (capStamp x)
      else if c.back then s
      else if 32 ≤ c.caps.length then
        ((s.inc (R.TDC_En_CNT e) F.TDC_En_CNT_OVERRUN).raw R.TDC_RAW F.TDC_RAW_OVERRUN).edgeLost e (capStamp x)
      else if (match hold with | some t => decide (t < 2 * filt) | none => false) then
        ((s.inc (R.TDC_En_CNT e) F.TDC_En_CNT_GLITCH).raw R.TDC_RAW F.TDC_RAW_GLITCH).setChan e { c with back := cfg == 2 }
      else s.setChan e { c with caps := c.caps ++ [x], lostCap := false }

/-- A stamp enters the host FIFO of channel `e` (R353). -/
def State.pushEvent (s : State) (e : Nat) (t : Tick64) : State :=
  let c := s.chan e
  if !s.on (R.TDC_En_CFG e) F.TDC_En_CFG_FIFO_EN then s
  else if c.fifo.length < 32 then
    (s.setChan e { c with fifo := c.fifo ++ [(t, c.lostPush)], lostPush := false }).p (R.TDC_En_FIFO_STATUS e)
      F.TDC_En_FIFO_STATUS_DEPTH (c.fifo.length + 1)
  else
    (s.inc (R.TDC_En_FIFO_STATUS e) F.TDC_En_FIFO_STATUS_OVERFLOW).raw R.TDC_RAW F.TDC_RAW_FIFO_OVERFLOW

/-- POP of channel `e` (R353). -/
def State.popEvent (s : State) (e : Nat) : State :=
  match (s.chan e).fifo with
  | [] => s
  | _ :: l => (s.setChan e { s.chan e with fifo := l }).p (R.TDC_En_FIFO_STATUS e) F.TDC_En_FIFO_STATUS_DEPTH l.length

/-- The 64-bit head of the host FIFO of channel `e`: stamp bits and flags, 0 when empty (R353). -/
def State.eventHead (s : State) (e : Nat) : Nat :=
  match (s.chan e).fifo with
  | [] => 0
  | (t, l) :: _ => t.toNat / 64 * 64 + b2n l * 2 + 1

/-- The conversion engine serves channel `e` (R344, R349, R353, R356 to R358, R361). -/
def State.tdcConvert (s : State) (e : Nat) : State :=
  let c := s.chan e
  match c.caps with
  | [] => s
  | x :: r =>
    if !s.runs .timescale then s
    else
    let u := capStamp x
    let s := s.setChan e { c with
      caps := r, hist := ((u, x.seg) :: c.hist).take 128,
      gone := if 128 ≤ c.hist.length then c.hist.getLast?.map (fun h => h.1) else c.gone,
      lostPush := c.lostPush || x.lost }
    let s := s.setReg (R.TDC_En_EVENTS e) (s.reg (R.TDC_En_EVENTS e) + 1#32)
    let s := s.pushEvent e (round64 u)
    let s := s.tdcRec 0 e 0 false 0 (s.reg (R.TDC_En_EVENTS e)).toNat x.swaps (round64 u) x.seg false false
    let s := (List.range 4).foldl (fun s m =>
      match (s.unit m).win with
      | some w => if s.ucfg m F.TDC_Mm_CFG_STOP = e then s.stop m w u x.seg else s
      | none => s) s
    s.giveStart e u

/-! ### Calibration and swaps (R345 to R347) -/

/-- Channel `e` calibrates both interpolators together (R347). -/
def State.calibrate (s : State) (e : Nat) : State :=
  (s.setChan e { s.chan e with a := ⟨none, false⟩, b := ⟨none, false⟩, calA := true, calB := true }).chanStatus e

/-- The verdict of R346. -/
def calValid (s1 span : Int) : Bool :=
  decide (665600 ≤ span) && decide (span ≤ 1024000) && decide (9 * span ≤ 10 * s1) && decide (10 * s1 ≤ 11 * span)

/-- Interpolator B, or A, of channel `e` ends a calibration cycle with the sums `s1` and `s2` (R345, R346). -/
def State.calDone (s : State) (e : Nat) (b : Bool) (s1 s2 : Nat) : State :=
  let c := s.chan e
  let both := c.calA || c.calB
  let act := s.on (R.TDC_En_STATUS e) F.TDC_En_STATUS_ACTIVE
  let lacks := (s.activeCal e).cal.isNone
  if !s.chanEn e || !s.runs .timescale || (!both && act == b && !lacks) then s
  else
    let span : Int := (s2 : Int) - s1
    let ok := calValid s1 span
    let cal : TdcCal := if ok then ⟨some (s1, span), true⟩ else ⟨none, false⟩
    let c := if b then { c with b := cal, calB := false } else { c with a := cal, calA := false }
    let s := s.setChan e c
    let s := if ok then s else s.raw R.TDC_RAW F.TDC_RAW_CAL_FAIL
    -- with no calibration in service, the one that holds one serves
    let s := if c.calA || c.calB then s
      else if c.a.cal.isNone && c.b.cal.isSome then s.pb (R.TDC_En_STATUS e) F.TDC_En_STATUS_ACTIVE true
      else if c.b.cal.isNone && c.a.cal.isSome then s.pb (R.TDC_En_STATUS e) F.TDC_En_STATUS_ACTIVE false
      else s
    let none_ := !c.calA && !c.calB && c.a.cal.isNone && c.b.cal.isNone
    let s := s.setChan e { c with noCal := none_ }
    let s := if none_ && !c.noCal then s.fault 13 1 e (enc 32 span) else s
    s.chanStatus e

/-- Unit `m` uses channel `e` and has a window open. -/
def State.usesOpen (s : State) (e m : Nat) : Bool :=
  (s.unit m).win.isSome && (s.ucfg m F.TDC_Mm_CFG_START == e || s.ucfg m F.TDC_Mm_CFG_STOP == e)

/-- The interpolators of channel `e` change roles, when they may (R347). -/
def State.swap (s : State) (e : Nat) (at_ : SwapAt) : State :=
  let st := R.TDC_En_STATUS e
  let c := s.chan e
  let act := s.on st F.TDC_En_STATUS_ACTIVE
  let standby := if act then c.a else c.b
  let may := match at_ with
    | .opening m => s.usesOpen e m && (List.range 4).all (fun k => k == m || !s.usesOpen e k)
    | .point => (List.range 4).all (fun k => !s.usesOpen e k)
    | .forced => true
  if !s.stamps e || !s.runs .timescale || !standby.fresh || standby.cal.isNone || !may then s
  else
    let c := { c with a := { c.a with fresh := false }, b := { c.b with fresh := false } }
    let s := (s.setChan e c).pb st F.TDC_En_STATUS_ACTIVE (!act)
    let s := (s.p st F.TDC_En_STATUS_SWAPS (s.g st F.TDC_En_STATUS_SWAPS + 1)).chanStatus e
    match at_ with
    | .forced => (List.range 4).foldl (fun s m => if s.usesOpen e m then s.windowEvent m 10 else s) s
    | _ => s

/-! ### Stuck and disabled channels (R351, R352) -/

/-- Input `e` has held its level for STUCK_MS (R351). -/
def State.tdcStuck (s : State) (e : Nat) : State :=
  let st := R.TDC_En_STATUS e
  let cfg := s.g (R.TDC_En_CFG e) F.TDC_En_CFG_EDGE
  let level := s.on st F.TDC_En_STATUS_LEVEL
  if s.g (R.TDC_En_LIMITS e) F.TDC_En_LIMITS_STUCK_MS = 0 ∨ !s.chanEn e ∨ !s.runs .timescale ∨ s.on st F.TDC_En_STATUS_STUCK = true ∨
      (cfg ≠ 2 ∧ level ≠ (cfg == 0)) then s
  else
    (((s.pb st F.TDC_En_STATUS_STUCK true).statusBit F.TDC_STATUS_STUCK e true).raw R.TDC_RAW F.TDC_RAW_STUCK).chanStatus e

/-- A 1 ms interval of channel `e` ends (R352). -/
def State.tdcInterval (s : State) (e : Nat) : State :=
  let c := s.chan e
  if !s.runs .timescale then s
  else
  let s := s.setChan e { c with lost := 0 }
  if s.on (R.TDC_En_CFG e) F.TDC_En_CFG_OVR_DIS_EN && s.chanEn e && !s.on (R.TDC_En_STATUS e) F.TDC_En_STATUS_DISABLED &&
      decide (s.g (R.TDC_En_LIMITS e) F.TDC_En_LIMITS_OVR_LIMIT < c.lost) then
    let s := (s.pb (R.TDC_En_STATUS e) F.TDC_En_STATUS_DISABLED true).statusBit F.TDC_STATUS_DISABLED e true
    ((s.raw R.TDC_RAW F.TDC_RAW_OVR_DISABLE).fault 13 2 e (c.lost % 2 ^ 32)).chanStatus e
  else s

/-- `TDC_REARM` (R352). -/
def State.tdcRearm (s : State) (v : Word) : State :=
  (List.range 8).foldl (fun s e =>
    if bit v e && s.on (R.TDC_En_STATUS e) F.TDC_En_STATUS_DISABLED then
      ((s.pb (R.TDC_En_STATUS e) F.TDC_En_STATUS_DISABLED false).statusBit F.TDC_STATUS_DISABLED e false).calibrate e
    else s) s

/-! ### Writes and disturbances (R347, R363, R364) -/

/-- Channel `e` has stopped: its capture FIFO is emptied, its windows end (R364). -/
def State.chanStop (s : State) (e : Nat) : State :=
  (s.setChan e { s.chan e with caps := [], calA := false, calB := false }).chanStatus e

/-- A write of `TDC_En_CFG`; `old` is the register before (R347, R364). -/
def State.tdcCfgAct (s : State) (e : Nat) (old : Word) : State :=
  let was := F.TDC_En_CFG_EN.get old = 1
  let now := s.on (R.TDC_En_CFG e) F.TDC_En_CFG_EN
  let new := s.reg (R.TDC_En_CFG e)
  let moved := F.TDC_En_CFG_SIG.get old ≠ F.TDC_En_CFG_SIG.get new ∨ F.TDC_En_CFG_TERM.get old ≠ F.TDC_En_CFG_TERM.get new ∨
    F.TDC_En_CFG_EDGE.get old ≠ F.TDC_En_CFG_EDGE.get new
  if !now then (if was then s.chanStop e else s)
  else if !was ∨ moved then
    let s := s.chanStop e
    if s.chanEn e && !s.on (R.TDC_En_STATUS e) F.TDC_En_STATUS_DISABLED then s.calibrate e else s
  else s

/-- A write of `TDC_CTRL`; `old` is the register before (R347, R354). -/
def State.tdcCtrlAct (s : State) (old : Word) : State :=
  let was := F.TDC_CTRL_EN.get old = 1
  let now := s.on R.TDC_CTRL F.TDC_CTRL_EN
  if now ∧ ¬was then
    (List.range 8).foldl (fun s e =>
      if s.chanEn e && !s.on (R.TDC_En_STATUS e) F.TDC_En_STATUS_DISABLED then s.calibrate e else s) s
  else if was ∧ ¬now then
    let s := (List.range 4).foldl (fun s m => ((s.setUnit m { s.unit m with starts := [] }).dropWin m).clearBlock m) s
    (List.range 8).foldl State.chanStop s
  else s

/-- A write of `TDC_Mm_CFG` (R363, R364). -/
def State.unitCfgAct (s : State) (m : Nat) : State :=
  ((s.setUnit m { s.unit m with starts := [] }).dropWin m).clearBlock m

/-- A phase step falls within every window then open (R364). -/
def State.tdcStep (s : State) : State :=
  (List.range 4).foldl (fun s m =>
    match (s.unit m).win with
    | some w => s.setUnit m { s.unit m with win := some { w with stepped := true } }
    | none => s) s

/-- The first tick after a gap of the timescale domain (R364). -/
def State.tdcGap (s : State) : State :=
  let s := if s.on R.TDC_CTRL F.TDC_CTRL_EN then s.raw R.TDC_RAW F.TDC_RAW_GAP else s
  let s := (List.range 4).foldl (fun s m => s.windowEnd m 7) s
  (List.range 8).foldl (fun s e =>
    if s.chanEn e && !s.on (R.TDC_En_STATUS e) F.TDC_En_STATUS_DISABLED then s.calibrate e else s) s

end Sys2Proof.Machine
end

