-- ==== Sys2Proof/Machine/Iop.lean ====
section
/-! DEFINITION. Pin protection and the die temperature (spec/19_pins_package_and_electrical.md R487 to R496; R435),
and the performance-counter commands (spec/17_performance_counters.md R444 to R447). -/

namespace Sys2Proof.Machine

/-! ### Pins (R470, R476) -/

/-- Pin `p` is an output: O0 to O9. -/
def pinIsOut (p : Nat) : Bool := decide (4 ≤ p) && decide (p < 14)

/-- Pin `p` is a differential input in LVDS; a relay input has the signal standard of its output (R172, R476, R483). -/
def State.pinLvds (s : State) (p : Nat) : Bool :=
  if p < 4 then s.g (R.REF_INn_CFG p) F.REF_INn_CFG_SIG == 0
  else if p < 14 then false
  else if p < 22 then s.g (R.TDC_En_CFG (p - 14)) F.TDC_En_CFG_SIG == 0
  else if p < 30 then F.SYN_On_CFG_SIG.get (s.inForce (R.SYN_On_CFG (p - 22))) == 0
  else if p < 32 then false
  else if p = 32 then true
  else if p = 33 then !s.on (R.IOP_PINp_CFG 33) F.IOP_PINp_CFG_SE
  else false

/-- Pin `p` is a differential output: O0 to O7. -/
def pinDiffOut (p : Nat) : Bool := decide (4 ≤ p) && decide (p < 12)

/-- The bit of `IOP_PINp_STATUS` and the event of `IOP_RAW` of a fault. -/
def pinFaultBits : PinFault → Fld × Fld
  | .gndP => (F.IOP_PINp_STATUS_SHORT_GND_P, F.IOP_RAW_SHORT)
  | .supP => (F.IOP_PINp_STATUS_SHORT_SUP_P, F.IOP_RAW_SHORT)
  | .gndN => (F.IOP_PINp_STATUS_SHORT_GND_N, F.IOP_RAW_SHORT)
  | .supN => (F.IOP_PINp_STATUS_SHORT_SUP_N, F.IOP_RAW_SHORT)
  | .legs => (F.IOP_PINp_STATUS_LEG_SHORT, F.IOP_RAW_LEG_SHORT)
  | .opened => (F.IOP_PINp_STATUS_OPEN, F.IOP_RAW_OPEN)
  | .reversed => (F.IOP_PINp_STATUS_REVERSED, F.IOP_RAW_REVERSED)

/-- Where R488 judges a fault by its level; a reversed pair is found by its periods (R489). -/
def State.pinJudged (s : State) (p : Nat) (f : PinFault) : Bool :=
  match f with
  | .gndP => pinIsOut p || s.pinLvds p || p == 35
  | .supP => pinIsOut p || s.pinLvds p || p == 35
  | .gndN => pinDiffOut p || s.pinLvds p
  | .supN => pinDiffOut p || s.pinLvds p
  | .legs => pinDiffOut p || s.pinLvds p
  | .opened => pinDiffOut p || s.pinLvds p || p == 35
  | .reversed => false

/-- The judgement of R488 runs (R493). -/
def State.diag (s : State) : Bool := !s.on R.IOP_CTRL F.IOP_CTRL_DIAG_OFF

/-- `IOP_STATUS`.FAULTS: unmasked pins with a fault bit set (R492). -/
def State.pinCount (s : State) : State :=
  s.p R.IOP_STATUS F.IOP_STATUS_FAULTS (((List.range 36).filter (fun p =>
    !s.on (R.IOP_PINp_CFG p) F.IOP_PINp_CFG_MASK && decide ((s.reg (R.IOP_PINp_STATUS p)).toNat % 256 ≠ 0))).length)

/-- The onset of status bit `b` of pin `p`, with its event `ev` (R492, R493). -/
def State.pinOnset (s : State) (p : Nat) (b ev : Fld) : State :=
  let a := R.IOP_PINp_STATUS p
  if s.on a b then s
  else
    let s := s.p a b 1
    let s := if s.on (R.IOP_PINp_CFG p) F.IOP_PINp_CFG_MASK then s
      else (s.raw R.IOP_RAW ev).fault 16 1 p (s.reg a).toNat
    s.pinCount

/-- A shorted leg: OFF is set while SHORT_OFF is 1 (R491). -/
def State.pinRelease (s : State) (p : Nat) : State :=
  if pinIsOut p && s.on R.IOP_CTRL F.IOP_CTRL_SHORT_OFF && decide ((s.reg (R.IOP_PINp_STATUS p)).toNat % 16 ≠ 0) then
    s.p (R.IOP_PINp_STATUS p) F.IOP_PINp_STATUS_OFF 1
  else s

/-- A fault of pin `p` has persisted for its declaration time (R488). -/
def State.pinDeclare (s : State) (p : Nat) (f : PinFault) : State :=
  if s.diag && s.pinJudged p f then (s.pinOnset p (pinFaultBits f).1 (pinFaultBits f).2).pinRelease p else s

/-- A declared fault has been absent for 10 ms, or a pin found reversed has had eight correct periods (R488). -/
def State.pinClear (s : State) (p : Nat) (b : Fld) : State := (s.p (R.IOP_PINp_STATUS p) b 0).pinCount

/-! ### Reversed polarity (R489, R490) -/

/-- The monitors of candidate `k` start anew, and it is disqualified at once (R112, R490). -/
def State.restartCand (s : State) (k : Nat) : State :=
  let s := s.disqualify k
  let c := s.cand k
  ((s.setCand k { c with act := .none, freq := .none, drift := .none, phase := .none, y := [], passes := 0, fails := 0,
                         hold := false }).showCand k).refreshJudging

/-- The inversion of pin `p` changes to `b` (R490). -/
def State.pinInvert (s : State) (p : Nat) (b : Bool) : State :=
  let a := R.IOP_PINp_STATUS p
  if s.on a F.IOP_PINp_STATUS_POL_INV == b then s
  else
    let s := s.pb a F.IOP_PINp_STATUS_POL_INV b
    let s := if b then s.raw R.IOP_RAW F.IOP_RAW_POL_CORRECTED else s
    if p < 4 then s.restartCand (s.candOfIn p)
    else if 14 ≤ p ∧ p < 22 then
      let s := s.chanStop (p - 14)
      if s.chanEn (p - 14) && !s.on (R.TDC_En_STATUS (p - 14)) F.TDC_En_STATUS_DISABLED then s.calibrate (p - 14) else s
    else s

/-- Pin `p` is found reversed (R489, R490, R493). -/
def State.pinReversed (s : State) (p : Nat) : State :=
  if s.diag && s.pinLvds p && (p == 32 || s.on (R.IOP_PINp_CFG p) F.IOP_PINp_CFG_POL_HINT) then
    let s := s.pinOnset p F.IOP_PINp_STATUS_REVERSED F.IOP_RAW_REVERSED
    if s.on (R.IOP_PINp_CFG p) F.IOP_PINp_CFG_POL_AUTO then s.pinInvert p true else s
  else s

/-- What a write of `IOP_PINp_CFG` triggers (R490, R492). -/
def State.pinCfgAct (s : State) (p : Nat) : State :=
  let s := if !s.on (R.IOP_PINp_CFG p) F.IOP_PINp_CFG_POL_AUTO then s.pinInvert p false
    else if s.on (R.IOP_PINp_STATUS p) F.IOP_PINp_STATUS_REVERSED then s.pinInvert p true
    else s
  s.pinCount

/-- What a write of `IOP_CTRL` triggers (R491, R493). -/
def State.iopCtrlAct (s : State) : State :=
  let s := if s.diag then s
    else (List.range 36).foldl (fun s p => s.setReg (R.IOP_PINp_STATUS p) (s.reg (R.IOP_PINp_STATUS p) &&& 0x300#32)) s
  let s := (List.range 10).foldl (fun s n =>
    if s.on R.IOP_CTRL F.IOP_CTRL_SHORT_OFF then s.pinRelease (4 + n)
    else s.p (R.IOP_PINp_STATUS (4 + n)) F.IOP_PINp_STATUS_OFF 0) s
  s.pinCount

/-- A released output is driven for 1 µs; OFF is cleared when the short is gone (R491). -/
def State.shortRetest (s : State) (n : Nat) (gone : Bool) : State :=
  if gone then s.p (R.IOP_PINp_STATUS (4 + n)) F.IOP_PINp_STATUS_OFF 0 else s

/-! ### Temperature (R435, R494) -/

/-- `CAL_TEMP_EFF` (R435). -/
def State.tempEff (s : State) : Int :=
  satS 16 (sx 16 (s.g R.CAL_TEMP_FAC F.CAL_TEMP_FAC_OFFSET) + sx 16 (s.g R.CAL_TEMP_USER F.CAL_TEMP_USER_OFFSET))

/-- The sensors are converted: the raw die reading in 1/16 °C and the code of `OSC_TEMP` (R435, R484, R494). -/
def State.dieTemp (s : State) (raw : Int) (code : Nat) : State :=
  let t := satS 16 (raw + s.tempEff)
  let s := s.p R.HIF_TEMP F.HIF_TEMP_DIE_TEMP (enc 16 t)
  let s := (s.p R.HLD_TEMP_NOW F.HLD_TEMP_NOW_DIE (enc 16 t)).p R.HLD_TEMP_NOW F.HLD_TEMP_NOW_OSC_CODE (min code 4095)
  let s := s.showTempOut
  let hot := decide (2080 ≤ t)
  let was := s.on R.IOP_STATUS F.IOP_STATUS_OVERTEMP
  let s := (s.pb R.IOP_STATUS F.IOP_STATUS_OVERTEMP hot).cond R.IOP_RAW F.IOP_RAW_OVERTEMP hot
  if hot && !was then s.fault 16 2 0 (enc 16 t) else s

/-! ### Performance counters (R444 to R447) -/

/-- SNAP: every counter is copied (R444). -/
def State.pmcSnap (s : State) : State :=
  let s := (List.range 27).foldl (fun t i =>
    let a := pmcAddr (i / 9) (i % 9)
    t.setPair (a + 0x400) (s.pair a)) s
  let s := s.setRegN R.PMC_SNAP_SEQ ((s.reg R.PMC_SNAP_SEQ).toNat + 1)
  (s.setPair R.PMC_SNAP_TIME_LO s.nowTick.toNat).raw R.PMC_RAW F.PMC_RAW_SNAP_DONE

/-- CLEAR: every counter and overflow bit becomes 0 (R444). -/
def State.pmcClear (s : State) : State :=
  ((List.range 27).foldl (fun t i => t.setPair (pmcAddr (i / 9) (i % 9)) 0) s).setRegN R.PMC_OVF 0

/-- What a write of `PMC_SNAP` triggers; a snapshot holds the values from before the clear (R444). -/
def State.pmcSnapAct (s : State) (v : Word) : State :=
  let s := if F.PMC_SNAP_SNAP.get v = 1 then s.pmcSnap else s
  if F.PMC_SNAP_CLEAR.get v = 1 then s.pmcClear else s

/-- A write of the select of counter `k` of group `g` over the value `old` (R446). -/
def State.pmcSelAct (s : State) (g k : Nat) (old : Word) : State :=
  if s.reg (R.PMC_Gg_SELk g k) = old then s
  else
    let s := s.setPair (pmcAddr g (k + 1)) 0
    s.setRegN R.PMC_OVF (maskClr (s.reg R.PMC_OVF).toNat (9 * g + k + 1))

/-- Counter `j` of group `g`, at all ones, counts one more event and wraps (R440, R447). -/
def State.pmcWrap (s : State) (g j : Nat) : State :=
  if s.pmcCounts && decide (s.pair (pmcAddr g j) = 2 ^ 48 - 1) then s.pmcAdd g j 1 else s

end Sys2Proof.Machine
end

