-- ==== Sys2Proof/Machine/Guyline.lean ====
section
/-! DEFINITION. The mate link (spec/14_guyline_mate_link.md): lane detectors, alignment, the link state, stream errors
and partner time. -/

namespace Sys2Proof.Machine

abbrev guyDown : Nat := 0
abbrev guyAcquire : Nat := 1
abbrev guyAlign : Nat := 2
abbrev guyUpState : Nat := 3

/-- STATE of `GUY_STATUS` (R374). -/
def State.guyState (s : State) : Nat := s.g R.GUY_STATUS F.GUY_STATUS_STATE

/-- The link enters state `n`. -/
def State.setGuyState (s : State) (n : Nat) : State := s.p R.GUY_STATUS F.GUY_STATUS_STATE n

/-- Bit `l` of field `f` of `GUY_STATUS` becomes `b`. -/
def State.laneBit (s : State) (f : Fld) (l : Nat) (b : Bool) : State :=
  s.p R.GUY_STATUS f (if b then maskSet (s.g R.GUY_STATUS f) l else maskClr (s.g R.GUY_STATUS f) l)

/-! ### Lane 0's phase detectors (R380) -/

/-- The physical lane that carries logical lane 0. -/
def State.laneZero (s : State) : Nat :=
  ((List.range 4).find? (fun l => s.g R.GUY_LANE_MAP F.GUY_LANE_MAP_MAP / 4 ^ l % 4 == 0)).getD 0

/-- A detector may run: the link is enabled, lane 0 is locked and, to receive, in block lock (R182, R380). -/
def State.guyPdMay (s : State) (tx : Bool) : Bool :=
  let l := if tx then 0 else s.laneZero
  s.on R.GUY_CTRL F.GUY_CTRL_EN && !maskBit (s.g R.GUY_STATUS F.GUY_STATUS_LOL) l &&
    (tx || maskBit (s.g R.GUY_STATUS F.GUY_STATUS_BLOCK_LOCK) l)

/-- The detector of one direction becomes `d` in state `st`. -/
def State.setGuyPd (s : State) (tx : Bool) (st : Nat) (d : Pd) : State :=
  s.setGuy (if tx then { s.guy with tx := d, txState := st } else { s.guy with rx := d, rxState := st })

/-- Both detectors leave OFF when they may run, and return there when they may not. -/
def State.guyPdRefresh (s : State) : State :=
  [false, true].foldl (fun s tx =>
    let st := if tx then s.guy.txState else s.guy.rxState
    if s.guyPdMay tx then (if st = 0 then s.setGuyPd tx 1 ⟨0, []⟩ else s) else s.setGuyPd tx 0 ⟨0, []⟩) s

/-- One sample of a detector of lane 0 (R180, R182, R380). -/
def State.guyPdSample (s : State) (tx : Bool) (raw : Nat) : State :=
  let st := if tx then s.guy.txState else s.guy.rxState
  let d := if tx then s.guy.tx else s.guy.rx
  if st = 0 then s
  else
    let x := pdUnwrap d.hist (raw % 8192)
    let err := pdError d.hist x
    let mag : Int := err.1.natAbs * 1000
    let good := if decide (mag ≤ 4 * 4096 * err.2) then d.good + 1 else 0
    let l := (x :: d.hist).take 64
    if st = 1 then s.setGuyPd tx (if 1024 ≤ good then 2 else 1) ⟨good, l⟩
    else if decide (20 * 4096 * err.2 < mag) then s.setGuyPd tx 1 ⟨0, l⟩
    else s.setGuyPd tx 2 ⟨good, l⟩

/-- The timescale resumes after a gap: running detectors acquire anew (R182). -/
def State.guyPdGap (s : State) : State :=
  [false, true].foldl (fun s tx =>
    if (if tx then s.guy.txState else s.guy.rxState) = 0 then s else s.setGuyPd tx 1 ⟨0, []⟩) s

/-- The effective delay of one direction of lane 0 (R380). -/
def State.guyDelay (s : State) (tx : Bool) : Int :=
  if tx then satS 32 (s.regI R.GUY_TX_DLY_FAC + s.regI R.GUY_TX_DLY_USER)
  else satS 32 (s.regI R.GUY_RX_DLY_FAC + s.regI R.GUY_RX_DLY_USER)

/-- A stamp of lane 0 (R178, R183, R380). -/
def State.guyStamp (s : State) (tx : Bool) (x : StampIn) : Stamp :=
  if tx then s.stampFrom s.guy.txState s.guy.tx false (s.guyDelay true) x
  else s.stampFrom s.guy.rxState s.guy.rx false (-(s.guyDelay false)) x

/-! ### The link state (R374) -/

/-- The link leaves UP for a lane or marker cause, or (`host`) because EN was written 0 (R374, R382, R396). -/
def State.guyLeaveUp (s : State) (host marker : Bool) : State :=
  let r := s.reg R.GUY_STATUS
  let los := F.GUY_STATUS_LOS.get r
  let lol := F.GUY_STATUS_LOL.get r
  let out := 15 - F.GUY_STATUS_BLOCK_LOCK.get r
  let s := (s.raw R.GUY_RAW F.GUY_RAW_DOWN).inc R.GUY_CNT_DOWN F.GUY_CNT_DOWN_DOWNS
  let s := s.cond R.GUY_RAW F.GUY_RAW_TIME_STALE false
  let s := s.setGuy { s.guy with last := none, stream := none }
  let s := if host then s else s.fault 14 1 (los + 16 * lol + 256 * out + 4096 * b2n marker) s.guy.mcount
  s.pairLinkDown

/-- Every lane is without LOS and LOL and in block lock (R374). -/
def State.lanesGood (s : State) : Bool :=
  let r := s.reg R.GUY_STATUS
  F.GUY_STATUS_LOS.get r == 0 && F.GUY_STATUS_LOL.get r == 0 && F.GUY_STATUS_BLOCK_LOCK.get r == 15

/-- The rows of R374 on the lanes: ALIGN and UP fall back to ACQUIRE, ACQUIRE moves on to ALIGN. -/
def State.guyEval (s : State) : State :=
  let st := s.guyState
  if s.lanesGood then (if st = guyAcquire then s.setGuyState guyAlign else s)
  else if st = guyUpState then (s.setGuyState guyAcquire).guyLeaveUp false false
  else if st = guyAlign then s.setGuyState guyAcquire
  else s

/-- What follows from a change of a lane's detectors. -/
def State.laneChange (s : State) : State := s.guyEval.guyPdRefresh

/-- LOS or LOL (field `f`) of lane `l` is declared or cleared; a declaration ends block lock (R372). -/
def State.laneDetect (s : State) (f : Fld) (l : Nat) (b : Bool) : State :=
  let s := s.laneBit f l b
  let s := if b then s.laneBit F.GUY_STATUS_BLOCK_LOCK l false else s
  s.laneChange

/-- Lane `l` gains or loses block lock; `compl`: its SYNC words arrive complemented, and only such a lane is inverted
(R372). -/
def State.blockLock (s : State) (l : Nat) (gained compl : Bool) : State :=
  if !gained then (s.laneBit F.GUY_STATUS_BLOCK_LOCK l false).laneChange
  else if maskBit (s.g R.GUY_STATUS F.GUY_STATUS_LOS) l || maskBit (s.g R.GUY_STATUS F.GUY_STATUS_LOL) l then s
  else if compl then
    if s.on R.GUY_CTRL F.GUY_CTRL_POL_AUTO then
      (((s.laneBit F.GUY_STATUS_POL_INV l true).raw R.GUY_RAW F.GUY_RAW_POL).laneBit F.GUY_STATUS_BLOCK_LOCK l true).laneChange
    else s
  else ((s.laneBit F.GUY_STATUS_POL_INV l false).laneBit F.GUY_STATUS_BLOCK_LOCK l true).laneChange

/-- The transmitter starts with a marker on each lane, MCOUNT 0; before RUN the lanes are static (R374, R419). -/
def State.guyMarkers (s : State) : State :=
  if s.running && s.guyState != guyDown then
    (List.range 4).foldl (fun s l => s.emit (.guyMarker l (marker l 0 s.rut.pairId s.rut.unit))) s
  else s

/-- EN is written 1: the transmitter starts with a marker, MCOUNT 0 (R374). -/
def State.guyEnable (s : State) : State :=
  if s.guyState = guyDown then
    let s := s.setGuyState guyAcquire
    s.guyMarkers.laneChange
  else s

/-- EN is written 0 (R374). -/
def State.guyDisable (s : State) : State :=
  let st := s.guyState
  let s := s.setGuyState guyDown
  (if st = guyUpState then s.guyLeaveUp true false else s).guyPdRefresh

/-- What a write of `GUY_CTRL` triggers (R374). -/
def State.guyCtrlAct (s : State) : State := if s.on R.GUY_CTRL F.GUY_CTRL_EN then s.guyEnable else s.guyDisable

/-! ### Alignment (R373) -/

/-- The earliest arrival among the markers with the MCOUNT of marker `m`. -/
def earliest (l : List (BitVec 70 × Nat)) (m : BitVec 70) : Nat :=
  let t := (l.filter (fun p => markerCount p.1 == markerCount m)).map (fun p => p.2)
  t.foldl min (t.headD 0)

/-- The four markers align the lanes (R373); arrivals in 0.5 ns. -/
def markersAlign (pair : Nat) (l : List (BitVec 70 × Nat)) : Bool :=
  match l with
  | [] => false
  | m :: _ =>
    l.all (fun p => markerCount p.1 == markerCount m.1) &&
      decide ((l.map (fun p => markerLane p.1)).Nodup) && l.all (fun p => markerOk p.1) &&
      l.all (fun p => markerPair p.1 == pair) && l.all (fun p => decide (p.2 - earliest l p.1 ≤ 80))

/-- `GUY_LANE_MAP` that the markers give. -/
def laneMap (l : List (BitVec 70 × Nat)) : Nat := l.foldr (fun p n => 4 * n + markerLane p.1) 0

/-- Markers arrive on the four physical lanes: the bits of each and its arrival in 0.5 ns (R373, R374). -/
def State.markerRx (s : State) (l : List (BitVec 70 × Nat)) : State :=
  let s := s.guyEval
  let st := s.guyState
  if st = guyAlign ∨ st = guyUpState then
    let s := s.setRegN R.GUY_SKEW ((l.map (fun p => min (p.2 - earliest l p.1) 255)).foldr (fun k n => 256 * n + k) 0)
    if markersAlign s.rut.pairId l then
      let s := s.setGuy { s.guy with mcount := markerCount ((l.headD (0#70, 0)).1) }
      let s := (s.setRegN R.GUY_LANE_MAP (laneMap l)).guyPdRefresh
      if st = guyAlign then
        let s := (s.setGuyState guyUpState).raw R.GUY_RAW F.GUY_RAW_UP
        s.setGuy { s.guy with last := none, stream := none }
      else s
    else if st = guyUpState then
      ((s.setGuyState guyAcquire).raw R.GUY_RAW F.GUY_RAW_SKEW_ERR).guyLeaveUp false true
    else s
  else s

/-- 8 ms in ALIGN without alignment (R374). -/
def State.alignTimeout (s : State) : State :=
  if s.guyState = guyAlign then (s.setGuyState guyAcquire).inc R.GUY_CNT_DOWN F.GUY_CNT_DOWN_ALIGN_FAIL else s

/-! ### Stream errors (R379) -/

/-- A stream error, which drops the stream to the next row pointer: DETAIL `code` and the logical lanes in error (R379, R382). -/
def State.streamError (s : State) (code lanes : Nat) : State :=
  let s := if code = 0 then s.inc R.GUY_CNT_ERR F.GUY_CNT_ERR_MSG_BAD else s.inc R.GUY_CNT_ERR F.GUY_CNT_ERR_BLOCK_ERR
  let s := (s.raw R.GUY_RAW F.GUY_RAW_MSG_BAD).setGuy { s.guy with stream := none }
  let due := match s.guy.lastErr with
    | none => true
    | some t => decide (250000 ≤ s.regClk - t)
  if due then (s.setGuy { s.guy with lastErr := some s.regClk }).fault 14 2 code lanes else s

/-- What the receiver finds in a row, the line bits of the data blocks of logical lanes 0 to 3, sent `block` data blocks
after a marker: its 1,920 bytes, or the DETAIL of an error with the lanes in error (R368, R370, R371, R375, R379). -/
def rowFind (lanes : List (List Bool)) (block : Nat) : List Byte ⊕ Nat × Nat :=
  let r := lanes.map (blockRx dataBits)
  let mask := fun (e : BlockRx) => (List.range 4).foldl (fun m k => if r[k]? = some e then maskSet m k else m) 0
  if mask .noSync ≠ 0 then .inr (2, mask .noSync)
  else if mask .badStuff ≠ 0 then .inr (1, mask .badStuff)
  else .inl (rowBytes block 0 r)

/-- The stream bytes that follow from a row: in sequence, or from its pointer on while the stream is dropped; none when the
stream stays dropped.  A pointer beyond 1,917 names no header (DESIGN CHOICE, log 28). -/
def rowFollows (stream : Option (List Byte)) (row : List Byte) : Option (List Byte) :=
  match stream with
  | some l => some (l ++ row.drop 2)
  | none => if rowPointer row < rowLen then some ((row.drop 2).drop (rowPointer row)) else none

/-- A message `m` of CLASS `c` is delivered to `f` while the link is UP; one that fails is a stream error (R377,
R379). -/
def State.guyDeliver (s : State) (c : Nat) (m : List Byte) (f : Nat → List Byte → State) : State :=
  if s.guyUp then
    match guyPayload c m with
    | some (q, p) => f q p
    | none => s.streamError 0 0
  else s

/-! ### Partner time (R380, R381) -/

/-- TFLAGS of the next TIME message (R377). -/
def State.timeFlags (s : State) (t : Stamp) : Nat :=
  match s.guy.last with
  | none => b2n t.coarse + 4
  | some (r, _, k) => b2n t.coarse + 2 * b2n r.coarse + 8 * b2n (k != s.tsc.breaks)

/-- A TIME message leaves; `x`: the lane's part of its departure stamp (R377, R380). -/
def State.timeTx (s : State) (x : StampIn) : State :=
  if s.guyUp && s.on R.GUY_CTRL F.GUY_CTRL_TIME_EN then
    let t := s.guyStamp true x
    let st := s.reg R.REF_STATUS
    let q := Tbl.get 0 s.guy.seqs 3
    let back := match s.guy.last with
      | some (r, q, _) => ((tickOf r.t).toNat, q)
      | none => (0, 0)
    let s := s.setGuy { s.guy with sent := ((q, t, s.tsc.breaks) :: s.guy.sent).take 8 }
    s.guySend 3 (beBytes 8 (tickOf t.t).toNat ++ beBytes 8 back.1 ++
      beBytes 1 (F.REF_STATUS_COND.get st * 64 + F.REF_STATUS_SEL_CAND.get st) ++ beBytes 1 (s.ownQl * 16) ++
      beBytes 4 back.2 ++ beBytes 1 (s.timeFlags t) ++ beBytes 1 0)
  else s

/-- A valid TIME message with SEQ `q` and payload `p`; `t2`: the receipt stamp of its row (R101, R381). -/
def State.timeRx (s : State) (t2 : Stamp) (q : Nat) (p : List Byte) : State :=
  let flags := beAt p 22 1 % 16
  let own := s.guy.sent.find? (fun e => e.1 == beAt p 18 4)
  let s := match own with
    | some (_, t3, k) =>
      if flags = 0 ∧ !t2.coarse ∧ !t3.coarse ∧ k = s.tsc.breaks then
        let t1 : Tick64 := BitVec.ofNat 64 (beAt p 0 8)
        let t4 : Tick64 := BitVec.ofNat 64 (beAt p 8 8)
        let off := (tickDiff t1 (tickOf t2.t) + tickDiff t4 (tickOf t3.t) + 1) / 2
        (s.setPairI R.GUY_OFFSET_LO off).offsetSeen 28 off
      else s
    | none => s
  let cand := beAt p 16 1 % 64
  let s := s.p R.GUY_PARTNER F.GUY_PARTNER_QL (beAt p 17 1 / 16)
  let s := (s.p R.GUY_PARTNER F.GUY_PARTNER_COND (beAt p 16 1 / 64)).p R.GUY_PARTNER F.GUY_PARTNER_CAND cand
  let s := (s.cond R.GUY_RAW F.GUY_RAW_TIME_STALE false).setGuy { s.guy with last := some (t2, q, s.tsc.breaks) }
  s.setBarred 28 (cand == 28)

/-- No valid TIME message for 4 ms while UP (R381). -/
def State.timeStale (s : State) : State := if s.guyUp then s.cond R.GUY_RAW F.GUY_RAW_TIME_STALE true else s

/-- Partner time arrives (R106, R381). -/
def State.partnerTime (s : State) : Bool :=
  s.guyUp && s.guy.last.isSome && !s.condHolds R.GUY_RAW F.GUY_RAW_TIME_STALE

end Sys2Proof.Machine
end

