-- ==== Sys2Proof/Machine/Links.lean ====
section
/-! DEFINITION. The state of the Ethernet lanes: PCS block lock, lane PLLs and the port's mode (spec/07 R182 to R186,
spec/06 R152, spec/16 R434, spec/18 R471). -/

namespace Sys2Proof.Machine

/-- Block lock of port `n` and what shows it. -/
def State.showLock (s : State) (n : Nat) (b signal : Bool) : State :=
  let s := (s.pb (R.MAC_Pn_STATUS n) F.MAC_Pn_STATUS_BLOCK_LOCK b).pb (R.PTS_STATUS n) F.PTS_STATUS_BLOCK_LOCK b
  let s := s.pb (R.MAC_Pn_STATUS n) F.MAC_Pn_STATUS_SIGNAL signal
  s.pb (R.MAC_Pn_STATUS n) F.MAC_Pn_STATUS_FEC_LOCK (b && s.on (R.MAC_Pn_CFG n) F.MAC_Pn_CFG_FEC)

/-- Port `n` loses block lock; `signal`: a receive signal is still present (R182, R189, R205, R471). -/
def State.lockLost (s : State) (n : Nat) (signal : Bool) : State :=
  if s.on (R.MAC_Pn_STATUS n) F.MAC_Pn_STATUS_BLOCK_LOCK then
    let s := (s.showLock n false signal).raw (R.MAC_Pn_RAW n) F.MAC_Pn_RAW_LOCK_LOST
    ((s.pdRefreshBoth n).clearWindow n).ptpLockLost n
  else s.pb (R.MAC_Pn_STATUS n) F.MAC_Pn_STATUS_SIGNAL signal

/-- Port `n` gains block lock, which takes a running lane PLL and EN (R205, R471). -/
def State.lockGained (s : State) (n : Nat) : State :=
  if s.on (R.MAC_Pn_CFG n) F.MAC_Pn_CFG_EN && s.on (R.PTS_STATUS n) F.PTS_STATUS_LANE_LOCK &&
      !s.on (R.MAC_Pn_STATUS n) F.MAC_Pn_STATUS_BLOCK_LOCK then
    let s := (s.showLock n true true).raw (R.MAC_Pn_RAW n) F.MAC_Pn_RAW_LINK_UP
    (s.pdRefreshBoth n).ptpLockGained n
  else s

/-- The factory delays of port `n` for the mode in force (R434). -/
def State.copyFactory (s : State) (n : Nat) : State :=
  let x := Tbl.get (0#32, 0#32) s.boot.lanes (2 * n + s.g (R.MAC_Pn_CFG n) F.MAC_Pn_CFG_FEC)
  (s.setReg (R.PTS_TX_DLY_FAC n) x.1).setReg (R.PTS_RX_DLY_FAC n) x.2

/-- What a write of `MAC_Pn_CFG` over the value `old` triggers: a change of the port's mode (R182, R189, R434, R471). -/
def State.macCfgAct (s : State) (n : Nat) (old : Word) : State :=
  if s.reg (R.MAC_Pn_CFG n) = old then s
  else
    let s := if F.MAC_Pn_CFG_FEC.get old = s.g (R.MAC_Pn_CFG n) F.MAC_Pn_CFG_FEC then s else s.copyFactory n
    let s := s.p (R.PTS_STATUS n) F.PTS_STATUS_FEC (s.g (R.MAC_Pn_CFG n) F.MAC_Pn_CFG_FEC)
    let s := (((s.pdModeChange n).tightEval n).clearWindow n).ptpLdCheck n
    if s.on (R.MAC_Pn_CFG n) F.MAC_Pn_CFG_EN then s
    else s.lockLost n (s.on (R.MAC_Pn_STATUS n) F.MAC_Pn_STATUS_SIGNAL)

/-- The lane PLL of lane `n` locks or loses lock: `syn.lanes` and, for a port, LANE_LOCK. -/
def State.setLane (s : State) (n : Nat) (b : Bool) : State :=
  let l := s.syn.lanes.erase n
  let s := s.setSyn { s.syn with lanes := if b then l ++ [n] else l }
  if n < 24 then ((s.pb (R.PTS_STATUS n) F.PTS_STATUS_LANE_LOCK b).pdRefreshBoth n).tightEval n else s

/-- The frame that port `n` is sending is cut short after `k` bytes (R184): a frame that was whole has been handed to the
line before, one sent cut-through ends with the bytes it has.  Beside the LANE record, its count is the one of frames sent
(DESIGN CHOICE, log 42). -/
def State.truncate (s : State) (n k : Nat) : State :=
  let s := s.note 0x08 0 k 0 0 (n * 2 ^ 11)
  match Tbl.get none s.fwd.sending n with
  | none => s.emit (.cut n k)
  | some x =>
    let s := match s.frameOf x.copy.frame with
      | some f =>
        let s := (s.endSending n).cellsAdd (R.QUE_Qq_ONDIE x.copy.queue) (-(f.cells : Int))
        match f.look with
        | some l =>
          (s.emit (.frame n ((sentBytes (s.pieces f l n (f.len - 4) false)).take k))).inc (R.MAC_Pn_TX_FRAMES n)
            F.MAC_Pn_TX_FRAMES_COUNT
        | none => s
      | none => s.endSending n
    s.emit (.cut n k)

/-- The lane PLL of lane `n` loses lock; `sent`: the bytes sent of a frame in transmission (R184; lanes 24 to 27 are
Guyline's, R372). -/
def State.laneUnlock (s : State) (n : Nat) (sent : Option Nat) : State :=
  if s.syn.lanes.contains n then
    let s := s.setSyn { s.syn with settling := s.syn.settling.erase (Loop.lane n) }
    if n < 24 then
      let s := match sent with | some k => s.truncate n k | none => s
      let s := ((s.setLane n false).lockLost n (s.on (R.MAC_Pn_STATUS n) F.MAC_Pn_STATUS_SIGNAL)).gate (.lane n)
      ((s.raw (R.PTS_RAW n) F.PTS_RAW_LANE_UNLOCK).fault 6 1 n (tSec s.now % 2 ^ 32)).settle
    else ((s.setLane n false).gate .guyLane).laneDetect F.GUY_STATUS_LOL (n - 24) true
  else s

end Sys2Proof.Machine
end

