-- ==== Sys2Proof/Machine/BootSeq.lean ====
section
/-! DEFINITION. The boot sequencer's state table and the flash command registers (spec/16 R417 to R419, R431, R433,
R437, R438). -/

namespace Sys2Proof.Machine

/-- States of `BOOT_STATUS` (R417). -/
abbrev bootOtp : Nat := 0
abbrev bootFlash : Nat := 1
abbrev bootClocks : Nat := 2
abbrev bootVerify : Nat := 3
abbrev bootApply : Nat := 4
abbrev bootDram : Nat := 5
abbrev bootSeed : Nat := 6
abbrev bootRunState : Nat := 7
abbrev bootFailed : Nat := 8

/-- STATE of `BOOT_STATUS`. -/
def State.bootState (s : State) : Nat := s.g R.BOOT_STATUS F.BOOT_STATUS_STATE

/-- The sequencer enters state `n`. -/
def State.setBoot (s : State) (n : Nat) : State := s.p R.BOOT_STATUS F.BOOT_STATUS_STATE n

/-- BOOT_FAIL with reason, section and offset (R417, R431, R438). -/
def State.bootFail (s : State) (reason section_ offset : Nat) : State :=
  let st := s.bootState
  let s := (s.p R.BOOT_STATUS F.BOOT_STATUS_REASON reason).p R.BOOT_STATUS F.BOOT_STATUS_SECTION section_
  let s := (s.setRegN R.BOOT_FAIL_OFFSET offset).setBoot bootFailed
  let s := { s with boot := { s.boot with todo := [] } }
  (s.raw R.BOOT_RAW F.BOOT_RAW_FAIL).fault 1 1 (reason + st * 256) offset

/-- BOOT_FAIL with the two CRC values (R431, reasons 4 and 8). -/
def State.bootFailCrc (s : State) (reason section_ offset stored found : Nat) : State :=
  ((s.setRegN R.BOOT_FAIL_CRC_STORED stored).setRegN R.BOOT_FAIL_CRC_CALC found).bootFail reason section_ offset

/-- In CLOCKS with all four loops locked to `OSC_IN` the sequencer enters VERIFY (R417). -/
def State.bootClocksReady (s : State) : State :=
  if s.bootState = bootClocks ∧ [Loop.hk, .jpll, .core, .dram].all s.loopLocked then s.setBoot bootVerify else s

/-- In DRAM with no DRAM, or with training ended, the sequencer enters SEED (R417). -/
def State.bootDramReady (s : State) : State :=
  if s.bootState = bootDram ∧ (s.g R.QUE_DRAM_CFG F.QUE_DRAM_CFG_DENSITY = 0 ∨ s.boot.trained) then s.setBoot bootSeed
  else s

/-- RETRY (R417). -/
def State.bootRetry (s : State) : State :=
  if s.bootState = bootFailed then
    if s.on R.BOOT_STATUS F.BOOT_STATUS_APPLIED then s.raw R.BOOT_RAW F.BOOT_RAW_RETRY_REFUSED
    else
      let next := if s.g R.BOOT_STATUS F.BOOT_STATUS_REASON = 1 then bootOtp else bootFlash
      let s := (s.p R.BOOT_STATUS F.BOOT_STATUS_REASON 0).p R.BOOT_STATUS F.BOOT_STATUS_SECTION 0xFFF
      let s := ((s.setRegN R.BOOT_FAIL_OFFSET 0).setRegN R.BOOT_FAIL_CRC_STORED 0).setRegN R.BOOT_FAIL_CRC_CALC 0
      s.setBoot next
  else s

/-- The raw command that the settings and the buffer say (R437). -/
def State.flashCommand (s : State) : Out :=
  let c := R.BOOT_FLASH_CTRL
  let adr := (s.reg R.BOOT_FLASH_ADDR).toNat
  let len := s.g c F.BOOT_FLASH_CTRL_LEN
  let addr := match s.g c F.BOOT_FLASH_CTRL_ADDR_BYTES with | 0 => [] | 1 => beBytes 3 (adr % 2 ^ 24) | _ => beBytes 4 adr
  let read := s.on c F.BOOT_FLASH_CTRL_DIR
  let data := if read then []
    else ((List.range 64).flatMap (fun k => leBytes 4 (s.reg (R.BOOT_FLASH_BUFk k)).toNat)).take len
  .flash (s.g c F.BOOT_FLASH_CTRL_WIDTH) (BitVec.ofNat 8 (s.g c F.BOOT_FLASH_CTRL_OPCODE) :: addr)
    (s.g c F.BOOT_FLASH_CTRL_DUMMY) data (if read then len else 0)

/-- GO of `BOOT_FLASH_CTRL` (R437). -/
def State.flashGo (s : State) : State :=
  if (s.bootState = bootRunState ∨ s.bootState = bootFailed) ∧ !s.on R.BOOT_FLASH_STATUS F.BOOT_FLASH_STATUS_BUSY then
    (s.emit s.flashCommand).p R.BOOT_FLASH_STATUS F.BOOT_FLASH_STATUS_BUSY 1
  else (s.inc R.BOOT_FLASH_STATUS F.BOOT_FLASH_STATUS_REFUSED).raw R.BOOT_RAW F.BOOT_RAW_FLASH_REFUSED

/-- The data bytes of the flash command go from byte `k` on into the buffer (R437). -/
def State.fillFlashBuf (s : State) : Nat → List Byte → State
  | _, [] => s
  | k, b :: l =>
    let a := R.BOOT_FLASH_BUFk (k / 4)
    (s.setReg a ((⟨8 * (k % 4), 8⟩ : Fld).put (s.reg a) b.toNat)).fillFlashBuf (k + 1) l

/-- A host flash command ends; `data` is what it read (R437). -/
def State.flashDone (s : State) (data : List Byte) : State :=
  if s.on R.BOOT_FLASH_STATUS F.BOOT_FLASH_STATUS_BUSY then
    let n := s.g R.BOOT_FLASH_CTRL F.BOOT_FLASH_CTRL_LEN
    let s := if s.on R.BOOT_FLASH_CTRL F.BOOT_FLASH_CTRL_DIR then s.fillFlashBuf 0 (data.take (min n 256)) else s
    (s.p R.BOOT_FLASH_STATUS F.BOOT_FLASH_STATUS_BUSY 0).raw R.BOOT_RAW F.BOOT_RAW_FLASH_DONE
  else s

/-- A write of `QUE_DRAM_CFG` with DENSITY other than 0 starts DRAM initialisation (R428). -/
def State.dramCfgAct (s : State) : State :=
  if s.g R.QUE_DRAM_CFG F.QUE_DRAM_CFG_DENSITY = 0 then s
  else { s with boot := { s.boot with training := true } }

/-- DRAM initialisation ends; `bad`: the mask of channels whose training failed (R274, R428). -/
def State.dramInitDone (s : State) (bad : Nat) : State :=
  if s.boot.training then
    let s := { s with boot := { s.boot with training := false, trained := true } }
    ((s.dramTrained (bad % 4)).sprStatus).bootDramReady
  else s

end Sys2Proof.Machine
end

