-- ==== Sys2Proof/Machine/Clamp.lean ====
section
/-! DEFINITION. Legal values: what a write stores in each field (R48, with the legal ranges of the owning chapters). -/

namespace Sys2Proof.Machine

/-- The nearest QL code: 2, 4, 8, 0xB or 0xF, a tie going to the lower (R48, R113). -/
def nearQl (v : Nat) : Nat :=
  if v ≤ 3 then 2 else if v ≤ 6 then 4 else if v ≤ 9 then 8 else if v ≤ 13 then 11 else 15

/-- `v` held between `lo` and `hi`. -/
def within (lo hi v : Nat) : Nat := max lo (min hi v)

/-- The index of an array register: its distance from `base` over `stride`. -/
def idx (a base stride : Nat) : Nat := (a - base) / stride

/-- The address lies in the array of `n` registers from `base` on. -/
def inArray (a base stride n : Nat) : Bool :=
  decide (base ≤ a) && decide ((a - base) % stride = 0) && decide ((a - base) / stride < n)

/-- Registers of reference selection (R97 to R117). -/
def State.clampRef (s : State) (a lo : Nat) (w : Word) (v : Nat) : Nat :=
  if a = R.REF_FREQ_REJECT then within (s.g R.REF_FREQ_ACCEPT F.REF_FREQ_ACCEPT_LIMIT + 1) 16777215 v
  else if a = R.REF_PHASE_LIM then within (F.REF_PHASE_LIM_ACCEPT_NS.get w + 1) 65535 v
  else if a = R.REF_ESMC_HOLD_QL then nearQl v
  else if inArray a (R.REF_INn_CFG 0) 0x10 4 then
    if lo = 0 then (if idx a (R.REF_INn_CFG 0) 0x10 % 2 = 0 then min v 2 else min v 1) else nearQl v
  else if inArray a (R.REF_INn_DIV 0) 0x10 4 then
    let hz := s.g (R.REF_INn_FREQ (idx a (R.REF_INn_DIV 0) 0x10)) F.REF_INn_FREQ_NOM_HZ
    within (max 1 ((hz + 19999999) / 20000000)) 1048575 v
  else if lo = 0 then min v 29
  else nearQl v

/-- The divider of output `n` as staged, in units of 2^-24. -/
def State.stagedDiv (s : State) (n : Nat) : Nat :=
  (s.reg (R.SYN_On_INT n)).toNat * 2 ^ 24 + s.g (R.SYN_On_FRAC n) F.SYN_On_FRAC_FRAC

/-- Registers of the outputs (R157, R158, R161 to R163). -/
def State.clampSyn (s : State) (a v : Nat) : Nat :=
  let n := idx a (R.SYN_On_CFG 0) 0x20
  let reg := (a - R.SYN_On_CFG 0) % 0x20
  if n < 8 then
    if reg = 0 then 0
    else if reg = 4 then max v (if s.g (R.SYN_On_FRAC n) F.SYN_On_FRAC_FRAC < 0x800000 then 13 else 12)
    else if reg = 8 then (if (s.reg (R.SYN_On_INT n)).toNat = 12 then max v 0x800000 else v)
    else 0
  else if reg = 0 then min v 2
  else if reg = 4 then max v 80
  else if reg = 0x14 then within 1 (widthMax (s.g (R.SYN_On_CFG n) F.SYN_On_CFG_MODE) (s.stagedDiv n)) v
  else v

/-- The ports of every aggregation group but `g`. -/
def State.otherMembers (s : State) (g : Nat) : Nat :=
  (List.range 8).foldl (fun m h => if h = g then m else m ||| s.g (R.FWD_LAGg_MEMBERS h) F.FWD_LAGg_MEMBERS_PORTS) 0

/-- Registers of forwarding (R236, R251, R252, R254). -/
def State.clampFwd (s : State) (a : Nat) (w : Word) (v : Nat) : Nat :=
  if a = R.FWD_RED_POOL then min v (16384 - F.FWD_RED_POOL_FIRST.get w)
  else if inArray a (R.FWD_REDr_CFG 0) 4 4 then
    let m := min v 2
    let pa := F.FWD_REDr_CFG_PORT_A.get w
    let pb := F.FWD_REDr_CFG_PORT_B.get w
    if pa = pb ∨ maskBit (s.otherMembers 8) pa ∨ maskBit (s.otherMembers 8) pb then 0 else m
  else if a = R.FWD_PORTn_CFG 24 then 0
  else v

/-- The capacity of DRAM in units of 16 MB (R272, R274). -/
def State.dramUnits (s : State) : Nat :=
  match s.g R.QUE_DRAM_CFG F.QUE_DRAM_CFG_DENSITY with
  | 0 => 0
  | 1 => 128
  | 2 => 256
  | _ => 512

/-- Registers of the queue manager (R265, R272, R281, R286). -/
def State.clampQue (s : State) (a lo : Nat) (w : Word) (v : Nat) : Nat :=
  if a = R.QUE_HERD_CELLS then min v (131072 - 3200 - s.minSum - 128)
  else if a = R.QUE_PART then
    let sp := F.QUE_PART_SPILL.get w
    let jn := F.QUE_PART_JOURNAL.get w
    min v (s.dramUnits - (if lo = 0 then 0 else if lo = 10 then sp else sp + jn))
  else if inArray a (R.QUE_Qq_MIN 0) 4 200 then
    let own := s.g a F.QUE_Qq_MIN_CELLS
    within 128 (131072 - 3200 - s.g R.QUE_HERD_CELLS F.QUE_HERD_CELLS_CELLS - (s.minSum - own) - 128) v
  else if R.QUE_Pn_PFC_CFG 24 ≤ a then 0
  else
    let n := idx a (R.QUE_Pn_PFC_CFG 0) 0x20
    let reg := (a - R.QUE_Pn_PFC_CFG 0) % 0x20
    if reg = 0 ∧ lo = 16 then max v 1
    else if reg = 4 then max v 64
    else if reg = 8 then min v (s.g (R.QUE_Pn_XOFF n) F.QUE_Pn_XOFF_XOFF_TH - 1)
    else v

/-- Registers of the journal (R329, R332). -/
def State.clampSpr (s : State) (a v : Nat) : Nat :=
  let n := s.g R.SPR_SIZE F.SPR_SIZE_N
  if a = R.SPR_CTRL then (if n = 0 then 0 else v) else min v (n - 1)

/-- Registers of the event inputs and measurement units (R355). -/
def State.clampTdc (s : State) (a v : Nat) : Nat :=
  if inArray a (R.TDC_Mm_OPEN 0) 0x80 4 then enc 32 (clampI (-4096) 999999999 (sx 32 v))
  else if inArray a (R.TDC_Mm_CLOSE 0) 0x80 4 then enc 32 (clampI (s.regI (a - 4) + 1) 1000000000 (sx 32 v))
  else v

/-- Pin settings (R483, R489): polarity belongs to differential inputs, SE to the pair of pin 33. -/
def State.clampIop (s : State) (a lo v : Nat) : Nat :=
  let p := idx a (R.IOP_PINp_CFG 0) 8
  if lo = 8 then (if p = 33 then v else 0)
  else if (4 ≤ p ∧ p ≤ 13) ∨ p = 30 ∨ p = 31 ∨ p = 34 ∨ p = 35 ∨ (p = 33 ∧ s.on a F.IOP_PINp_CFG_SE) then 0
  else if lo = 2 then min v 2 else v

/-- The nearest legal value of a field whose range depends on another field or on the register's index: register
`a`, lowest bit `lo`, the word being formed `w` and the value written `v`. -/
def State.clampDep (s : State) (a lo : Nat) (w : Word) (v : Nat) : Nat :=
  if a < 0x10000 then min v (2 ^ s.g (a - 8) F.HIF_DMAk_SIZE_LOG2_ENTRIES - 1)
  else if a < 0x38000 then s.clampRef a lo w v
  else if a < 0x50000 then s.clampSyn a v
  else if a < 0x100000 then min v (if R.PMC_Gg_SELk 2 0 ≤ a then 0x0C else 0x0D)
  else if a < 0x200000 then s.clampFwd a w v
  else if a < 0x280000 then s.clampQue a lo w v
  else if a < 0x300000 then v
  else if a < 0x380000 then s.clampSpr a v
  else if a < 0x3C0000 then s.clampTdc a v
  else if 0x3E0000 ≤ a ∧ a < 0x3F0000 then s.clampIop a lo v
  else v

/-- Fields whose row states no restriction but whose owner restricts some members of the array (R236, R251, R314). -/
def State.clampAny (s : State) (a lo v : Nat) : Nat :=
  if inArray a (R.FWD_LAGg_MEMBERS 0) 4 8 then
    (maskBits v 24).foldl (fun m n =>
      if maskBit (s.otherMembers (idx a (R.FWD_LAGg_MEMBERS 0) 4)) n then m else m + 2 ^ n) 0
  else if inArray a (R.FWD_LAGg_ACTIVE 0) 4 8 then
    let mem := s.g (R.FWD_LAGg_MEMBERS (idx a (R.FWD_LAGg_ACTIVE 0) 4)) F.FWD_LAGg_MEMBERS_PORTS
    (maskBits v 24).foldl (fun m n => if maskBit mem n then m + 2 ^ n else m) 0
  else if a = R.HRD_PORTn_CFG 24 ∧ lo = 1 then 0
  else v

/-- The value of field `f` that a write of `v` to register `a` stores, with the fields below it in `w` (R48). -/
def State.clampField (s : State) (a : Nat) (f : Field) (w : Word) (v : Nat) : Nat :=
  match f.legal with
  | .any => s.clampAny a f.lo v
  | .range lo hi => within lo hi v
  | .srange lo hi => enc (f.hi + 1 - f.lo) (clampI lo hi (sx (f.hi + 1 - f.lo) v))
  | .upTo m => min v m
  | .dep => s.clampDep a f.lo w v % 2 ^ (f.hi + 1 - f.lo)

/-- The bits of a field as a `Fld`. -/
def Field.fld (f : Field) : Fld := ⟨f.lo, f.hi + 1 - f.lo⟩

/-- The field is one that a write stores. -/
def Field.stored (f : Field) : Bool := decide (f.acc = .rw) || decide (f.acc = .w1)

/-- The writes of these registers leave them unchanged: the VLAN rows 0 and 4095 (R236) and the outputs' fields of
other modes are handled by their fields. -/
def writesNothing (a : Nat) : Bool :=
  (decide (0x110000 ≤ a) && decide (a < 0x110010)) || (decide (0x110000 + 0x10 * 4095 ≤ a) && decide (a < 0x120000))

/-- The word that a write of `v` stores in register `a` (R48): field by field, the lowest first, each against the word
being formed; fields that a write does not store keep their value (R11, R12). -/
def State.formWord (s : State) (a : Nat) (v : Word) : Word :=
  if writesNothing a then s.reg a
  else
    (fieldsAt a).foldr (fun f w =>
      if f.stored then f.fld.put w (s.clampField a f w (f.fld.get v)) else w) (s.reg a)

end Sys2Proof.Machine
end

