-- ==== Sys2Proof/Machine/Reading.lean ====
section
/-! DEFINITION. Reads of registers (spec/02 R21 to R36, R53, R54, R64, R65): what a register shows, the side effects of
reading it, access faults, and accesses to domains whose clock is stopped. -/

namespace Sys2Proof.Machine

/-! ### What registers show -/

/-- The domain whose clock an access crosses into (R34). -/
def domOf (a : Nat) : Dom :=
  if 0x20000 ≤ a ∧ a < 0x30000 ∨ 0x38000 ≤ a ∧ a < 0x38400 ∨ 0x380000 ≤ a ∧ a < 0x3C0000 then .timescale
  else if 0x38400 ≤ a ∧ a < 0x40000 then .emberBridge
  else if 0x50000 ≤ a ∧ a < 0x56000 then .lane ((a - 0x50000) / 0x400)
  else if 0x400000 ≤ a ∧ a < 0x460000 then .lane ((a - 0x400000) / 0x4000)
  else if 0x3C0000 ≤ a ∧ a < 0x3D0000 then .guyLane
  else if 0x60000 ≤ a ∧ a < 0x380000 then .core
  else if 0x800000 ≤ a ∧ a < 0xB00000 then .core
  else .register

/-- The summary bit of the block an address belongs to (R55, R451). -/
def blockOf (a : Nat) : Nat :=
  if a < 0x10000 then 0
  else if a < 0x20000 then 1
  else if a < 0x30000 then 2
  else if a < 0x38000 then 3
  else if a < 0x40000 then 4
  else if a < 0x50000 then 5
  else if a < 0x60000 then 6
  else if a < 0x80000 then 7
  else if a < 0x100000 then 8
  else if a < 0x200000 then 9
  else if a < 0x280000 then 10
  else if a < 0x300000 then 11
  else if a < 0x380000 then 12
  else if a < 0x3C0000 then 13
  else if a < 0x3D0000 then 14
  else if a < 0x3E0000 then 15
  else if a < 0x400000 then 16
  else if a < 0x800000 then 17
  else 9

/-- A fault record's four words (R57). -/
def FaultRec.word (f : FaultRec) (i : Nat) : Nat :=
  match i with
  | 0 => f.block * 2 ^ 24 + f.code * 2 ^ 16 + f.detail
  | 1 => f.param
  | 2 => f.time.toNat % 2 ^ 32
  | _ => f.time.toNat / 2 ^ 32

/-- Word `i` of the oldest fault record; 0 when the queue is empty (R59). -/
def State.faultHead (s : State) (i : Nat) : Nat := match s.hif.fq with | [] => 0 | f :: _ => f.word i

/-- Registers of the timescale that show the voted state (R70, R72, R73). -/
def State.showTsc (s : State) (a : Nat) : Option Word :=
  if a = R.TSC_NOW_T0 then some (t96Word s.now 0)
  else if a = R.TSC_NOW_T1 then some (t96Word s.now 1)
  else if a = R.TSC_NOW_T2 then some (t96Word s.now 2)
  else if a = R.TSC_NOW_TICK_LO then some (BitVec.ofNat 32 s.nowTick.toNat)
  else if a = R.TSC_NOW_TICK_HI then some (BitVec.ofNat 32 (s.nowTick.toNat / 2 ^ 32))
  else if a = R.TSC_RATE_EFF_LO then some (BitVec.ofNat 32 (enc 64 s.rate))
  else if a = R.TSC_RATE_EFF_HI then some (BitVec.ofNat 32 (enc 64 s.rate / 2 ^ 32))
  else none

/-- Registers of the ports' stamping units that show derived values (R185, R197). -/
def State.showPts (s : State) (a : Nat) : Option Word :=
  let n := (a - 0x50000) / 0x400
  if a = R.PTS_TX_DLY_EFF n then some (BitVec.ofNat 32 (enc 32 (s.txDelay n)))
  else if a = R.PTS_RX_DLY_EFF n then some (BitVec.ofNat 32 (enc 32 (s.rxDelay n)))
  else if R.PTS_FIFO_HEAD0 n ≤ a ∧ a ≤ R.PTS_FIFO_HEAD3 n then some (s.stampHead n ((a - R.PTS_FIFO_HEAD0 n) / 4))
  else none

/-- Registers of the event inputs that show derived values (R344, R353). -/
def State.showTdc (s : State) (a : Nat) : Option Word :=
  if inArray a (R.TDC_En_DLY_EFF 0) 0x20 8 then
    some (BitVec.ofNat 32 (enc 32 (s.evtDelay (idx a (R.TDC_En_DLY_EFF 0) 0x20))))
  else if inArray a (R.TDC_En_FIFO_LO 0) 0x10 8 then some (BitVec.ofNat 32 (s.eventHead (idx a (R.TDC_En_FIFO_LO 0) 0x10)))
  else if inArray a (R.TDC_En_FIFO_HI 0) 0x10 8 then
    some (BitVec.ofNat 32 (s.eventHead (idx a (R.TDC_En_FIFO_HI 0) 0x10) / 2 ^ 32))
  else none

/-- Registers of the queue manager that show derived values (R265, R269). -/
def State.showQue (s : State) (a : Nat) : Option Word :=
  if a = R.QUE_SHARED then some (BitVec.ofNat 32 s.shared)
  else if a = R.QUE_SHARED_FREE then some (BitVec.ofNat 32 s.sharedFree)
  else if a = R.QUE_HEADROOM_SUM then some (BitVec.ofNat 32 s.headroomSum)
  else if a = R.QUE_STATUS then some (F.QUE_STATUS_LOSSLESS_OK.put (s.reg a) (b2n s.losslessOk))
  else none

/-- The registers whose value is formed from the present state when they are read. -/
def State.shown (s : State) (a : Nat) : Option Word :=
  if a < 0x10000 then
    if a = R.HIF_SUMMARY then some (BitVec.ofNat 32 s.summary)
    else if R.HIF_FQ_REC0 ≤ a ∧ a ≤ R.HIF_FQ_REC3 then some (BitVec.ofNat 32 (s.faultHead ((a - R.HIF_FQ_REC0) / 4)))
    else none
  else if a < 0x20000 then (if a = R.CAL_TEMP_EFF then some (BitVec.ofNat 32 (enc 16 s.tempEff)) else none)
  else if a < 0x30000 then s.showTsc a
  else if a < 0x40000 then none
  else if a < 0x50000 then
    (if inArray a (R.SYN_On_STATUS 0) 0x20 10 then some (s.synStatus (idx a (R.SYN_On_STATUS 0) 0x20)) else none)
  else if a < 0x56000 then s.showPts a
  else if a < 0x100000 then none
  else if a < 0x200000 then
    (if a = R.FWD_STATUS then some (F.FWD_STATUS_POOL_FREE.put (s.reg a) s.poolFree.length) else none)
  else if a < 0x280000 then s.showQue a
  else if a < 0x380000 then none
  else if a < 0x3C0000 then s.showTdc a
  else if a < 0x3D0000 then
    (if a = R.GUY_TX_DLY_EFF then some (BitVec.ofNat 32 (enc 32 (s.guyDelay true)))
     else if a = R.GUY_RX_DLY_EFF then some (BitVec.ofNat 32 (enc 32 (s.guyDelay false))) else none)
  else if a = R.RUT_STATUS then some (F.RUT_STATUS_VALID_FC.put (s.reg a) s.validContexts.length)
  else none

/-- The value of the register at word address `a` as a read finds it. -/
def State.readNow (s : State) (a : Nat) : Word :=
  if 0xA00000 ≤ a ∧ a < 0xB00000 ∧ a % 64 = 32 then (s.accrue ((a - 0xA00000) / 64)).reg a
  else (s.shown a).getD (s.reg a)

/-! ### Access faults (R27, R29, R36, R44, R45) -/

/-- SOURCE of `HIF_ACCESS_ADDR`. -/
def srcCode : Src → Nat
  | .f0 => 0
  | .f1 => 1
  | .i2c => 2
  | .boot => 3

/-- An access fault of the given KIND (R29): its count, the address and, except through F1 (R23), its raw status bit. -/
def State.accessFault (s : State) (kind : Nat) (src : Src) (a : Nat) : State :=
  let s := s.inc R.HIF_ACCESS_FAULT (match kind with
    | 0 => F.HIF_ACCESS_FAULT_NARROW_WR
    | 1 => F.HIF_ACCESS_FAULT_UNMAPPED
    | 2 => F.HIF_ACCESS_FAULT_LOCKED_WR
    | _ => F.HIF_ACCESS_FAULT_TIMEOUT)
  s.setRegN R.HIF_ACCESS_ADDR (srcCode src * 2 ^ 30 + kind * 2 ^ 28 + a % 2 ^ 24)

/-- The raw status bit of an access fault (R53); accesses through F1 change no state that F0 sees but the counts and
the address (R23). -/
def State.accessRaw (s : State) (src : Src) (f : Fld) : State := if src = .f1 then s else s.raw R.HIF_RAW f

/-- An unmapped access (R29). -/
def State.unmapped (s : State) (src : Src) (a : Nat) : State :=
  (s.accessFault 1 src a).accessRaw src F.HIF_RAW_UNMAPPED

/-- A write request that R27 discards, or a write to the F1 status window (R23). -/
def State.narrow (s : State) (src : Src) (a : Nat) : State :=
  (s.accessFault 0 src a).accessRaw src F.HIF_RAW_NARROW_WR

/-- An access completed by the bus timeout, or at once because its domain is dead (R36). -/
def State.timedOut (s : State) (src : Src) (a : Nat) : State :=
  (s.accessFault 3 src a).raw R.HIF_RAW F.HIF_RAW_TIMEOUT

/-! ### One 32-bit read -/

/-- The completion of a read of word `a`: lanes `lane` to `lane + len - 1` of `v`. -/
def State.answer (s : State) (src : Src) (a lane len : Nat) (v : Word) : State :=
  s.emit (.readData src (a + lane) (slice (leBytes 4 v.toNat) lane len))

/-- The key of a shadow: the source and the address of the high word (R31). -/
def shadowKey (src : Src) (a : Nat) : Nat := srcCode src * 2 ^ 24 + a

/-- The shadow of source `src` for the high word at `a`; 0 before the first low read (R31). -/
def State.shadow (s : State) (src : Src) (a : Nat) : Word := Tbl.get 0#32 s.rshadow (shadowKey src a)

/-- The shadow of source `src` for the high word at `a` latches `v`. -/
def State.latchShadow (s : State) (src : Src) (a : Nat) (v : Word) : State :=
  { s with rshadow := Tbl.set 0#32 s.rshadow (shadowKey src a) v }

/-- A register row holds a field of access type `t`. -/
def holds (a : Nat) (t : Acc) : Bool := (fieldsAt a).any (fun f => decide (f.acc = t))

/-- The bits of `a`'s RCR fields, which a read clears (R11). -/
def clearBits (a : Nat) : Nat := (fieldsAt a).foldl (fun m f => if f.acc = .rcr then m + (2 ^ f.fld.w - 1) * 2 ^ f.lo else m) 0

/-- The value a read by `src` returns: an RH word comes from the source's shadow (R31, R72). -/
def State.readValue (s : State) (src : Src) (a : Nat) : Word := if holds a .rh then s.shadow src a else s.readNow a

/-- The side effects of a read by `src` that covers byte 0 (R26, R31, R54): an RL word latches the high word, and for
`TSC_NOW_T0` both further words. -/
def State.latchRead (s : State) (src : Src) (a : Nat) : State :=
  if holds a .rl then
    let s' := s.latchShadow src (a + 4) (s.readNow (a + 4))
    if a = R.TSC_NOW_T0 then s'.latchShadow src (a + 8) (s.readNow (a + 8)) else s'
  else s

/-- A read that covers byte 0 clears the RCR fields (R26). -/
def State.clearRead (s : State) (a : Nat) : State :=
  if clearBits a = 0 then s
  else
    let s := s.setReg a (s.reg a &&& ~~~(BitVec.ofNat 32 (clearBits a)))
    if a = R.HRD_CAL then s.p R.HRD_CAL F.HRD_CAL_PEAK (s.g R.HRD_CAL F.HRD_CAL_USED) else s

/-- What a read does on a mapped word over F0. -/
def State.readF0 (s : State) (a lane len : Nat) : State :=
  let s' := s.answer .f0 a lane len (s.readValue .f0 a)
  if lane = 0 then (s'.latchRead .f0 a).clearRead a else s'

/-- The group of a live or snapshot counter register (R448). -/
def pmcGroup (a : Nat) : Option Nat :=
  if R.PMC_Gg_CYCLE_LO 0 ≤ a ∧ a < 0x80300 ∧ a % 0x100 < 0x48 then some ((a - 0x80000) / 0x100)
  else if R.PMC_Gg_SNAP_CYCLE_LO 0 ≤ a ∧ a < 0x80700 ∧ a % 0x100 < 0x48 then some ((a - 0x80400) / 0x100)
  else none

/-- The BAR0 address behind an address of F1 (R22); none outside both windows. -/
def f1Target (a : Nat) : Option Nat :=
  if a < 0x8000 then some (0x80000 + a) else if a < 0x8100 then some (a - 0x8000) else none

/-- What a read through F1 does (R23, R448): no clearing; low words of counters latch F1's own shadow while the group
is readable. -/
def State.readF1 (s : State) (a lane len : Nat) : State :=
  match f1Target a with
  | none => (s.unmapped .f1 (a + lane)).answer .f1 a lane len 0#32
  | some b =>
    if !mapped b then s.answer .f1 a lane len 0#32
    else if a < 0x8000 then
      match pmcGroup b with
      | some g =>
        if maskBit (s.g R.PMC_USER_EN F.PMC_USER_EN_GROUPS) g then
          let s' := s.answer .f1 a lane len (s.readValue .f1 b)
          if lane = 0 then s'.latchRead .f1 b else s'
        else s.answer .f1 a lane len 0#32
      | none =>
        let s' := s.answer .f1 a lane len (s.readValue .f1 b)
        if lane = 0 then s'.latchRead .f1 b else s'
    else s.answer .f1 a lane len (s.readNow b)

/-- A register of type RO or RCS (R453).  DESIGN CHOICE (notes/assumptions/11.md): the words of the table windows are no
registers of a type of their own, so over I²C they read 0. -/
def i2cReads (a : Nat) : Bool :=
  (rowAt a).isSome && (fieldsAt a).all (fun f => decide (f.acc = .ro) || decide (f.acc = .rcs))

/-- What a read over I²C does (R65). -/
def State.readI2c (s : State) (a lane len : Nat) : State :=
  s.answer .i2c a lane len (if i2cReads a then s.readNow a else 0#32)

/-- One 32-bit read of lanes `lane` to `lane + len - 1` of word `a`, at its target. -/
def State.readWord (s : State) (src : Src) (a lane len : Nat) : State :=
  match src with
  | .f0 => if mapped a then s.readF0 a lane len else (s.unmapped .f0 (a + lane)).answer .f0 a lane len 0#32
  | .f1 => s.readF1 a lane len
  | .i2c => s.readI2c a lane len
  | .boot => s

/-- The domain that an access crosses into: none beyond the register domain for what names no register, and for the
registers the I²C engine does not read. -/
def accessDom (src : Src) (a : Nat) : Dom :=
  match src with
  | .f1 => match f1Target a with
    | some b => if mapped b then domOf b else .register
    | none => .register
  | .i2c => if i2cReads a then domOf a else .register
  | _ => if mapped a then domOf a else .register

/-- The words a request of `len` bytes from `a` on touches: word address, first lane, lanes (R26, R28).  `fuel` bounds
the words. -/
def laneSplit : Nat → Nat → Nat → List (Nat × Nat × Nat)
  | 0, _, _ => []
  | fuel + 1, a, len =>
    if len = 0 then []
    else
      let lane := a % 4
      let k := min len (4 - lane)
      (a - lane, lane, k) :: laneSplit fuel (a + k) (len - k)

end Sys2Proof.Machine
end

