-- ==== Sys2Proof/Machine/Writing.lean ====
section
/-! DEFINITION. Writes of registers (spec/02 R27 to R48, R51; spec/12 R326, R331; spec/16 R420): the checks that a write
passes, what it stores, what it triggers and how it is journaled. -/

namespace Sys2Proof.Machine

/-! ### The configuration scan's state (R51, R52) -/

/-- STATE of `HIF_CFG_CRC_STATUS`. -/
def State.scanState (s : State) : Nat := s.g R.HIF_CFG_CRC_STATUS F.HIF_CFG_CRC_STATUS_STATE

/-- The scan checker enters state `n`. -/
def State.setScan (s : State) (n : Nat) : State := s.p R.HIF_CFG_CRC_STATUS F.HIF_CFG_CRC_STATUS_STATE n

/-- An accepted write of a scanned field (R51). -/
def State.scanAccepted (s : State) : State := if s.scanState = 1 ∨ s.scanState = 2 then s.setScan 0 else s

/-- COMMIT (R51): a new scan, in ARMING. -/
def State.scanCommit (s : State) : State := s.setScan 1

/-- UNFREEZE (R52). -/
def State.unfreeze (s : State) : State := s.p R.HIF_CFG_CRC_STATUS F.HIF_CFG_CRC_STATUS_FROZEN 0

/-- The address names a register covered by the scan (R49): not lock-exempt, with a field that writes store. -/
def scanned (a : Nat) : Bool :=
  match rowAt a with
  | some r => !r.exempt && r.fields.any Field.stored
  | none => false

/-! ### What writes trigger -/

/-- POP of the fault-record queue (R59). -/
def State.popFault (s : State) : State :=
  match s.hif.fq with
  | [] => s
  | _ :: l => { s with hif := { s.hif with fq := l } }.p R.HIF_FQ_STATUS F.HIF_FQ_STATUS_DEPTH l.length

/-- A write of `HIF_DMAk_CTRL` over the value `old` (R60, R63): ENABLE starts the ring, or stops it after the descriptor
in progress, which is a posted one with content. -/
def State.dmaCtrlAct (s : State) (k : Nat) (old : Word) : State :=
  let was := F.HIF_DMAk_CTRL_ENABLE.get old
  let now := s.g (R.HIF_DMAk_CTRL k) F.HIF_DMAk_CTRL_ENABLE
  if was = 0 ∧ now = 1 then s.p (R.HIF_DMAk_STATUS k) F.HIF_DMAk_STATUS_RUNNING 1
  else if now = 0 ∧ (s.ready k = [] ∨ s.posted k = 0) then s.p (R.HIF_DMAk_STATUS k) F.HIF_DMAk_STATUS_RUNNING 0
  else s

/-- What a write of `v` to a host interface register triggers. -/
def State.actHif (s : State) (a : Nat) (old v : Word) : State :=
  if a = R.HIF_CFG_CRC_COMMIT then
    let s := if F.HIF_CFG_CRC_COMMIT_UNFREEZE.get v = 1 then s.unfreeze else s
    if F.HIF_CFG_CRC_COMMIT_COMMIT.get v = 1 then s.scanCommit else s
  else if a = R.HIF_FQ_POP then (if F.HIF_FQ_POP_POP.get v = 1 then s.popFault else s)
  else if inArray a (R.HIF_DMAk_CTRL 0) 0x40 3 then s.dmaCtrlAct (idx a (R.HIF_DMAk_CTRL 0) 0x40) old
  else s

/-- What a write to a boot register triggers. -/
def State.actBoot (s : State) (a : Nat) (v : Word) : State :=
  if a = R.BOOT_CMD then (if F.BOOT_CMD_RETRY.get v = 1 then s.bootRetry else s)
  else if a = R.BOOT_FLASH_CTRL then (if F.BOOT_FLASH_CTRL_GO.get v = 1 then s.flashGo else s)
  else s

/-- What a write to a timescale register triggers. -/
def State.actTsc (s : State) (a : Nat) (old v : Word) : State :=
  if a = R.TSC_CTRL then (s.steerAct old).servoSteer
  else if a = R.TSC_RATE_HOST_HI then s.supplyHostRate
  else if a = R.TSC_STEP_CTRL then s.stepCtrlAct v
  else if a = R.TSC_TRIPOD_CTRL then s.tripodCtrlAct v
  else if a = R.TSC_TRIPOD_INJECT then s.injectAct v
  else s

/-- What a write to a register of reference selection triggers. -/
def State.actRef (s : State) (a : Nat) (old v : Word) : State :=
  if a = R.REF_OSC_CFG then (s.oscFreqAct old).formReady
  else if a = R.REF_IN_REARM then s.refRearm (F.REF_IN_REARM_REARM.get v)
  else if inArray a (R.REF_PRIOn 0) 4 16 then s.prioAct (idx a (R.REF_PRIOn 0) 4) old
  else if a = R.REF_CTRL ∨ a = R.REF_ESMC_HOLD_QL ∨ inArray a (R.REF_INn_CFG 0) 0x10 4 = true then
    s.judgeAll.refreshJudging.formForced
  else s

/-- What a write to a register of holdover and Ember triggers. -/
def State.actHld (s : State) (a : Nat) (old v : Word) : State :=
  if a = R.HLD_CTRL then (s.hldCtrlAct old v).afterModel s
  else if a = R.HLD_QUAL then s.refreshModelQual
  else if a = R.HLD_TEMP_AXIS then s.tempAxisAct old
  else if a = R.HLD_EMB_CTRL then s.embCtrlAct v
  else s

/-- What a write to a stamping register triggers. -/
def State.actPts (s : State) (a : Nat) (v : Word) : State :=
  let n := (a - 0x50000) / 0x400
  if a = R.PTS_CFG n then (s.pdRefreshBoth n).tightEval n
  else if a = R.PTS_FTEMP_NOW n then s.ftempNowAct n
  else if a = R.PTS_LOOP_CTRL n then s.loopCtrlAct n v
  else if a = R.PTS_FIFO_POP n then (if F.PTS_FIFO_POP_POP.get v = 1 then s.popStamp n else s)
  else s

/-- What a write to a PTP register triggers. -/
def State.actPtp (s : State) (a : Nat) (old : Word) : State :=
  if a = R.PTP_CTRL then s.ptpCtrlAct old
  else if a = R.PTP_CLOCK_ID_HI then s.clockIdAct
  else if inArray a (R.PTP_CLAIM_GRPg 0) 4 4 then
    ((s.groupEval (idx a (R.PTP_CLAIM_GRPg 0) 4)).chooseServo).servoSteer
  else if inArray a (R.PTP_Pn_CFG 0) 0x40 24 then s.ptpCfgAct (idx a (R.PTP_Pn_CFG 0) 0x40) old
  else s

/-- What a write to a performance-counter register triggers. -/
def State.actPmc (s : State) (a : Nat) (old v : Word) : State :=
  if a = R.PMC_SNAP then s.pmcSnapAct v
  else if 0x80048 ≤ a ∧ a < 0x80268 ∧ 0x48 ≤ a % 0x100 ∧ a % 0x100 < 0x68 then
    s.pmcSelAct ((a - 0x80000) / 0x100) ((a % 0x100 - 0x48) / 4) old
  else s

/-- What a write to a forwarding register triggers. -/
def State.actFwd (s : State) (a : Nat) (v : Word) : State :=
  if a = R.FWD_DRAIN then (if F.FWD_DRAIN_DRAIN.get v = 1 then s.drainStart else s)
  else if a = R.FWD_RED_POOL then s.poolCheck
  else if inArray a (R.FWD_LAGg_MEMBERS 0) 4 8 ∨ inArray a (R.FWD_LAGg_ACTIVE 0) 4 8 then s.lagAct
  else s

/-- What a write to a queue register triggers. -/
def State.actQue (s : State) (a : Nat) : State :=
  if a = R.QUE_DRAM_CFG then s.dramCfgAct
  else if a = R.QUE_PART then s.sprPartition.sprStatus.spillShow
  else s.settle

/-- What a write to a journal register triggers. -/
def State.actSpr (s : State) (a : Nat) (old v : Word) : State :=
  if a = R.SPR_CTRL then s.sprCtrlAct old
  else if a = R.SPR_CMD then s.sprCmdAct v
  else if a = R.SPR_RD_COUNT_HI then s.sprStatus
  else s

/-- What a write to an event timing register triggers. -/
def State.actTdc (s : State) (a : Nat) (old v : Word) : State :=
  if a = R.TDC_CTRL then s.tdcCtrlAct old
  else if a = R.TDC_REARM then s.tdcRearm v
  else if inArray a (R.TDC_En_CFG 0) 0x20 8 then s.tdcCfgAct (idx a (R.TDC_En_CFG 0) 0x20) old
  else if inArray a (R.TDC_En_FIFO_POP 0) 0x10 8 then
    (if F.TDC_En_FIFO_POP_POP.get v = 1 then s.popEvent (idx a (R.TDC_En_FIFO_POP 0) 0x10) else s)
  else if inArray a (R.TDC_Mm_CFG 0) 0x80 4 then s.unitCfgAct (idx a (R.TDC_Mm_CFG 0) 0x80)
  else if inArray a (R.TDC_Mm_STAT_N 0) 0x80 4 then s.clearBlock (idx a (R.TDC_Mm_STAT_N 0) 0x80)
  else s

/-- What a write to a pin register triggers. -/
def State.actIop (s : State) (a : Nat) : State :=
  if a = R.IOP_CTRL then s.iopCtrlAct
  else if inArray a (R.IOP_PINp_CFG 0) 8 36 then s.pinCfgAct (idx a (R.IOP_PINp_CFG 0) 8)
  else s

/-- What a write of `v` to register `a`, which held `old`, triggers once its fields are stored. -/
def State.act (s : State) (a : Nat) (old v : Word) : State :=
  if a < 0x10000 then s.actHif a old v
  else if a < 0x20000 then s.actBoot a v
  else if a < 0x30000 then s.actTsc a old v
  else if a < 0x38000 then s.actRef a old v
  else if a < 0x40000 then s.actHld a old v
  else if a < 0x50000 then
    (if a = R.SYN_UPDATE ∧ F.SYN_UPDATE_GO.get v = 1 then s.updateGo
     else if 0x40100 ≤ a ∧ a < 0x40240 then s.stagingAct ((a - 0x40100) / 0x20) else s)
  else if a < 0x60000 then s.actPts a v
  else if a < 0x80000 then s.actPtp a old
  else if a < 0x100000 then s.actPmc a old v
  else if a < 0x200000 then s.actFwd a v
  else if a < 0x280000 then s.actQue a
  else if a < 0x300000 then (if inArray a (R.HRD_PORTn_CFG 0) 0x10 25 then s.herdClaimLost else s)
  else if a < 0x380000 then s.actSpr a old v
  else if a < 0x3C0000 then s.actTdc a old v
  else if a < 0x3D0000 then (if a = R.GUY_CTRL then s.guyCtrlAct else s)
  else if a < 0x3E0000 then
    (if a = R.RUT_CTRL then s.rutCtrlAct else if a = R.RUT_CMD then s.rutCmdAct v else s)
  else if a < 0x400000 then s.actIop a
  else if inArray a (R.MAC_Pn_CFG 0) 0x4000 24 then s.macCfgAct (idx a (R.MAC_Pn_CFG 0) 0x4000) old
  else s

/-! ### Pairs (R33) -/

/-- The low word of a writable pair. -/
def isPairLo (a : Nat) : Bool :=
  a == R.TSC_RATE_HOST_LO || a == R.TSC_STEP_LO || a == R.HLD_PRE_F_LO || a == R.PTP_CLOCK_ID_LO ||
  a == R.SPR_RD_COUNT_LO || a == R.SPR_FETCH_IDX_LO || inArray a (R.PTP_Pn_MASTER_LO 0) 0x40 24 ||
  inArray a (R.TDC_Mm_LIM_MIN_LO 0) 0x80 4 || inArray a (R.TDC_Mm_LIM_MAX_LO 0) 0x80 4 ||
  inArray a (R.HIF_DMAk_BASE_LO 0) 0x40 3 || inArray a (R.HIF_DMAk_WB_LO 0) 0x40 3

/-- The high word of a writable pair. -/
def isPairHi (a : Nat) : Bool := decide (4 ≤ a) && isPairLo (a - 4)

/-- The value that a pair stores when `n` is written to it (R48, R70, R75, R335). -/
def State.clampPair (s : State) (lo n : Nat) : Nat :=
  if lo = R.TSC_RATE_HOST_LO then enc 64 (clampRate (sx 64 n))
  else if lo = R.TSC_STEP_LO then enc 64 (clampI (-32768000000000) 32768000000000 (sx 64 n))
  else if lo = R.SPR_RD_COUNT_LO then min n s.wrCount
  else n

/-- What a write of `v` to the high word commits to the pair at `lo`, before clamping (R33). -/
def State.pairWritten (s : State) (lo : Nat) (v : Word) : Nat :=
  ((Tbl.get none s.wshadow lo).getD (s.reg lo)).toNat + v.toNat * 2 ^ 32

/-- The high word `v` of the pair at `lo` is written: both halves take effect together (R33). -/
def State.commitPair (s : State) (lo : Nat) (v : Word) : State :=
  let n := s.pairWritten lo v
  let s := { s with wshadow := Tbl.set none s.wshadow lo none }
  s.setPair lo (s.clampPair lo n)

/-! ### The REG_WRITE record (R324, R326) -/

/-- `a` is a register of the DMA rings or of the journal, whose accepted writes REG_LEVEL 2 leaves out (R326). -/
def quietWrite (a : Nat) : Bool :=
  (decide (0x100 ≤ a) && decide (a < 0x1C0)) || (decide (0x300000 ≤ a) && decide (a < 0x380000))

/-- What a write is, for its record. -/
structure WriteInfo where
  src : Src
  addr : Nat
  written : Word
  before : Word
  trig : Bool

/-- The bits of `a` that the configuration scan covers (R49). -/
def scanMask (a : Nat) : Nat :=
  if scanned a then (fieldsAt a).foldl (fun m f => if f.stored then m + (2 ^ f.fld.w - 1) * 2 ^ f.lo else m) 0 else 0

/-- The bits of `a` that a write stores. -/
def storedMask (a : Nat) : Nat :=
  (fieldsAt a).foldl (fun m f => if f.stored then m + (2 ^ f.fld.w - 1) * 2 ^ f.lo else m) 0

/-- The REG_WRITE record of an ignored write: `why` as in R324, 4 for a write before RUN (R46, R420). -/
def State.recIgnored (s : State) (w : WriteInfo) (why : Nat) : State :=
  let p0 := (if w.src = .boot then 1 else 0) + 4 + (if why = 4 then 1 * 16 + 128 else why * 16)
  let r := s.mkRec 0x22 p0 (w.addr % 2 ^ 24) w.before.toNat w.before.toNat w.written.toNat
  s.record true { r with trig := w.trig }

/-- The REG_WRITE record of an accepted write that stored `after`, under REG_LEVEL (R326). -/
def State.recAccepted (s : State) (w : WriteInfo) (after : Word) (commit clamp : Bool) : State :=
  let level := s.g R.SPR_SEL F.SPR_SEL_REG_LEVEL
  let changed := ((w.before ^^^ after) &&& BitVec.ofNat 32 (scanMask w.addr)) ≠ 0#32
  if decide (1 ≤ level) && decide changed || decide (level = 2) && !quietWrite w.addr then
    let p0 := (if w.src = .boot then 1 else 0) + 8 * b2n clamp + 64 * b2n commit
    let r := s.mkRec 0x22 p0 (w.addr % 2 ^ 24) w.before.toNat after.toNat w.written.toNat
    s.record false { r with trig := w.trig }
  else s

/-! ### The checks of a write -/

/-- The register at `a` is lock-exempt (R454). -/
def exempt (a : Nat) : Bool :=
  isMsixTable a || isPba a || (match rowAt a with | some r => r.exempt | none => false)

/-- Ring registers that may not be written while their ring is enabled (R60, R335). -/
def State.ringHeld (s : State) (a : Nat) : Bool :=
  let k := (a - 0x100) / 0x40
  let off := (a - 0x100) % 0x40
  (decide (0x100 ≤ a) && decide (a < 0x1C0) && decide (off ≤ 8) && s.on (R.HIF_DMAk_CTRL k) F.HIF_DMAk_CTRL_ENABLE) ||
    ((a == R.SPR_RD_COUNT_LO || a == R.SPR_RD_COUNT_HI) && s.on (R.HIF_DMAk_CTRL 2) F.HIF_DMAk_CTRL_ENABLE)

/-- Why a write is ignored: 0 write-once (R44), 1 `HIF_LOCK` (R45), 2 write freeze (R52), 3 ring enabled (R60, R335),
4 not yet in RUN (R420); none when it is accepted.  DESIGN CHOICE (notes/assumptions/26.md): of several causes, the first
of this order is the one recorded: not in RUN, lock, freeze, write-once, ring. -/
def State.whyIgnored (s : State) (src : Src) (a : Nat) : Option Nat :=
  if src = .f0 ∧ !exempt a ∧ !s.running then some 4
  else if src = .f0 ∧ !exempt a ∧ s.on R.HIF_LOCK F.HIF_LOCK_LOCK then some 1
  else if src = .f0 ∧ !exempt a ∧ s.on R.HIF_CFG_CRC_STATUS F.HIF_CFG_CRC_STATUS_FROZEN then some 2
  else if holds a .w1 ∧ s.w1done.contains a then some 0
  else if s.ringHeld a then some 3
  else none

/-- The trigger of R331 source 4: a host write, accepted or ignored, to `SPR_TRIG_ADDR`. -/
def State.writeTriggers (s : State) (src : Src) (a : Nat) : Bool :=
  decide (src = .f0) && s.on R.SPR_TRIG_EN F.SPR_TRIG_EN_REG && s.g R.SPR_TRIG_ADDR F.SPR_TRIG_ADDR_ADDR == a % 2 ^ 24 / 4

/-- An ignored write (R44, R45, R46, R60, R420). -/
def State.ignoreWrite (s : State) (w : WriteInfo) (why : Nat) : State :=
  let s := s.accessFault 2 w.src w.addr
  let s := if why = 3 then s else s.accessRaw w.src F.HIF_RAW_LOCKED_WR
  s.recIgnored w why

/-! ### The MSI-X table (R22, R56) -/

/-- A write to the MSI-X table; vector control keeps its mask bit only, and an unmasked vector with its pending bit set
signals (R56). -/
def State.writeMsix (s : State) (a : Nat) (v : Word) : State :=
  if a % 16 = 12 then
    let n := (a - 0x8000) / 16
    let s := s.setRegN a (v.toNat % 2)
    if v.toNat % 2 = 0 ∧ bit (s.reg 0x9000) n then (s.setRegN 0x9000 ((s.reg 0x9000).toNat - 2 ^ n)).signal n else s
  else if a % 16 = 0 then s.setRegN a (v.toNat / 4 * 4)
  else s.setReg a v

/-! ### One 32-bit write -/

/-- Registers of a pending host step, whose writes R76 refuses. -/
def State.stepHeld (s : State) (a : Nat) : Bool :=
  s.tsc.host.isSome && (a == R.TSC_STEP_LO || a == R.TSC_STEP_HI || a == R.TSC_SET_T0 || a == R.TSC_SET_T1 ||
    a == R.TSC_SET_T2)

/-- The write of `v` to register `a`, which forms `word`, is clamped (R48): a bit it stores differs, or, for the high word
of a pair, either half of what the pair stores differs from what was written to it. -/
def State.clamps (s : State) (a : Nat) (v word : Word) : Bool :=
  decide ((word ^^^ v) &&& BitVec.ofNat 32 (storedMask a) ≠ 0#32) ||
    isPairHi a && decide (s.clampPair (a - 4) (s.pairWritten (a - 4) word) % 2 ^ 64 ≠ s.pairWritten (a - 4) word % 2 ^ 64)

/-- An accepted write to a register (R33, R44, R48, R51): what it stores and triggers. -/
def State.storeWrite (s : State) (w : WriteInfo) : State :=
  let a := w.addr
  let word := s.formWord a w.written
  let clamp := s.clamps a w.written word
  if isPairLo a then
    let s := { s with wshadow := Tbl.set none s.wshadow a (some word) }
    s.recAccepted w word false clamp
  else
    let s := if holds a .w1 then { s with w1done := a :: s.w1done } else s
    let s := if isPairHi a then s.commitPair (a - 4) word else s.setReg a word
    let after := s.reg a
    let s := s.act a w.before w.written
    let s := if scanned a then s.scanAccepted else s
    s.recAccepted w after false clamp

/-- A write to a table window (R244): staged, or the commit of an entry. -/
def State.tableWrite (s : State) (w : WriteInfo) : State :=
  let a := w.addr
  if tableWord a = 7 then
    let s := (s.commit a w.written.toNat).mirrorOver
    s.recAccepted w (s.reg a) true false
  else
    let after := match stagedWord a w.written.toNat with | some x => BitVec.ofNat 32 x | none => w.before
    (s.stageWrite a w.written.toNat).recAccepted w after false
      (decide (after ≠ w.written) && (stagedWord a w.written.toNat).isSome)

/-- One 32-bit write by F0 or the boot pack, at its target (R29, R44 to R48). -/
def State.writeWord (s : State) (src : Src) (a : Nat) (v : Word) : State :=
  if !mapped a then s.unmapped src a
  else
    let trig := s.writeTriggers src a
    let s := if trig then s.fire 4 (a % 2 ^ 24) else s
    let w : WriteInfo := ⟨src, a, v, s.readNow a, trig⟩
    match s.whyIgnored src a with
    | some why => s.ignoreWrite w why
    | none =>
      if isMsixTable a then
        let s := s.writeMsix a v
        s.recAccepted w (s.reg a) false false
      else if isPba a then s.recAccepted w w.before false false
      else if isTable a then s.tableWrite w
      else if s.stepHeld a then s.refuseStep
      else s.storeWrite w

/-- One 32-bit write through F1 (R23, R448). -/
def State.writeF1 (s : State) (a : Nat) : State :=
  if a < 0x8000 then s.inc R.PMC_USER_EN F.PMC_USER_EN_DENIED
  else if a < 0x8100 then s.narrow .f1 a
  else s.unmapped .f1 a

/-! ### Accesses and their domains (R34 to R42) -/

/-- An access takes effect at its target, in a clock of its own (R28). -/
def State.perform (s : State) (x : Access) : State :=
  if x.write then (if x.src = .f1 then s.writeF1 x.addr else (s.writeWord x.src x.addr x.value).clockRecs)
  else s.readWord x.src x.addr x.lane x.len

/-- The value of a read that the bus timeout completes (R36). -/
def deadWord : Word := 0xDEADC10C#32

/-- An access completes with the fault value (R36). -/
def State.deadAccess (s : State) (x : Access) : State :=
  let s := s.timedOut x.src (x.addr + x.lane)
  if x.write then s else s.answer x.src x.addr x.lane x.len deadWord

/-- PCIe flow control holds the requests of F0: some are held already, or its engine has its 16 posted writes (R38). -/
def State.flowHeld (s : State) : Bool :=
  !s.hif.flow.isEmpty || decide (16 ≤ (s.hif.held.filter (fun y => decide (y.src = .f0) && y.write)).length)

/-- An access that reaches the device: F0's waits while flow control holds it; it completes at once with the fault value
when its domain is dead, waits while the domain's clock is stopped or an earlier access of its engine waits (R38, R42),
and else takes effect. -/
def State.access (s : State) (x : Access) : State :=
  if x.src = .f0 ∧ s.flowHeld = true then { s with hif := { s.hif with flow := s.hif.flow ++ [x] } } else
  let d := if x.write ∧ x.src = .f1 then .register else accessDom x.src x.addr
  if s.hif.held.any (fun y => decide (y.src = x.src)) then { s with hif := { s.hif with held := s.hif.held ++ [x] } }
  else if s.hif.dead.contains d then s.deadAccess x
  else if s.runs d then s.perform x
  else { s with hif := { s.hif with held := s.hif.held ++ [x] } }

/-- The accesses of `l`, which waited, are taken up again in order (R38, R42). -/
def State.accessAll (s : State) (l : List Access) : State := l.foldl State.access s

/-- Accesses that wait are taken up again: those whose domain now runs, or is dead, complete, in order within each
engine; then the requests that flow control held (R38). -/
def State.resumeHeld (s : State) : State :=
  ({ s with hif := { s.hif with held := [], flow := [] } }.accessAll s.hif.held).accessAll s.hif.flow

/-- A read request of `len` bytes from byte address `a` on (R26, R28).  DESIGN CHOICE (notes/assumptions/40.md): no request
is longer than the max read request size, 512 bytes; of a longer operand the first 512 bytes are read. -/
def State.readReq (s : State) (src : Src) (a len : Nat) : State :=
  s.accessAll ((laneSplit (min len 512) a (min len 512)).map (fun p => ⟨src, p.1, false, 0#32, p.2.1, p.2.2⟩))

/-- The words of a write request, each at its address. -/
def wordAccesses (src : Src) : Nat → List Word → List Access
  | _, [] => []
  | a, v :: l => ⟨src, a, true, v, 0, 4⟩ :: wordAccesses src (a + 4) l

/-- A write request of whole words from `a` on; `whole`: every byte enable is set (R27, R28).  The I²C target takes no
data (R65).  DESIGN CHOICE (notes/assumptions/40.md): a narrow write through F1 is judged by its window (R23) first, so
outside both windows it counts as unmapped. -/
def State.writeReq (s : State) (src : Src) (a : Nat) (whole : Bool) (l : List Word) : State :=
  if src = .i2c then s
  else if src = .f1 then
    (if whole && a % 4 == 0 then s.accessAll (wordAccesses src a l) else s.writeF1 a)
  else if whole && a % 4 == 0 then s.accessAll (wordAccesses src a l)
  else s.narrow src a

/-- A host write of one word over F0. -/
def State.hostWrite (s : State) (a : Nat) (v : Word) : State := s.writeReq .f0 a true [v]

end Sys2Proof.Machine
end

