-- ==== Sys2Proof/Machine/HostIf.lean ====
section
/-! DEFINITION. Events of the host interface (spec/02 R24, R36, R43, R49 to R52, R60 to R65): bus timeouts, crossing
resets, PCIe resets, the configuration scan and the DMA rings. -/

namespace Sys2Proof.Machine

/-! ### Bus timeouts (R36) -/

/-- The first access of engine `src` that waits, and the others. -/
def State.firstHeld (s : State) (src : Src) : Option Access := s.hif.held.find? (fun x => decide (x.src = src))

/-- The oldest access of engine `src` has not completed within TIMEOUT_US (R36).  A boot-pack write waits for its
domain. -/
def State.busTimeout (s : State) (src : Src) : State :=
  if src = .boot then s
  else
    match s.firstHeld src with
    | none => s
    | some x =>
      let d := accessDom src x.addr
      let s := { s with hif := { s.hif with held := s.hif.held.erase x, dead := s.hif.dead.erase d ++ [d] } }
      let s := (s.deadAccess x).fault 0 1 (srcCode src) (x.addr + x.lane)
      s.resumeHeld

/-- The crossing handshake of a dead domain answers (R36): its clock runs again. -/
def State.liveAgain (s : State) (d : Dom) : State :=
  if s.hif.dead.contains d ∧ s.runs d = true then
    { s with hif := { s.hif with dead := s.hif.dead.erase d } }.resumeHeld
  else s

/-! ### Crossing resets (R24, R43) -/

/-- The block that an access crosses into. -/
def Access.block (x : Access) : Nat :=
  if x.src = .f1 then (match f1Target x.addr with | some b => blockOf b | none => 0) else blockOf x.addr

/-- The access of engine `src` that a crossing holds: the first that waits (R38, R40, R42).  Those behind it have not left
the engine. -/
def State.crossing (s : State) (src : Src) : Option Access := s.firstHeld src

/-- The count, the event and the record of a one-sided reset of the crossing of block `b` (R43). -/
def State.crossingNote (s : State) (b : Nat) (blockSide : Bool) : State :=
  let s := (s.inc R.HIF_XRESET_COUNT F.HIF_XRESET_COUNT_COUNT).raw R.HIF_RAW F.HIF_RAW_XRESET
  s.note 0x23 (b + 256 * b2n blockSide) 0 0 0 0

/-- The value of engine `src` in flight in the crossing of block `b` is discarded (R43). -/
def State.discardCrossing (s : State) (b : Nat) (src : Src) : State :=
  match s.crossing src with
  | some x => if x.block = b then { s with hif := { s.hif with held := s.hif.held.erase x } } else s
  | none => s

/-- A one-sided reset of the crossing of block `b` (R43): the values in flight in it are discarded; it is counted and
journaled, and what waits behind it goes on. -/
def State.crossingReset (s : State) (b : Nat) (blockSide : Bool) : State :=
  let s := [Src.f0, .f1, .i2c, .boot].foldl (fun s src => s.discardCrossing b src) s
  (s.crossingNote b blockSide).resumeHeld

/-- The accesses of function `src` that wait are lost with its side of the host interface; the crossing that holds the
first of them is interrupted (R24, R43). -/
def State.interruptFn (s : State) (src : Src) : State :=
  let first := s.crossing src
  let s := { s with hif := { s.hif with held := s.hif.held.filter (fun x => decide (x.src ≠ src)),
                                        flow := s.hif.flow.filter (fun x => decide (x.src ≠ src)) } }
  match first with
  | some x => s.crossingNote x.block false
  | none => s

/-- The accesses of functions `l` that wait are interrupted by a reset of the PCIe side (R24, R43). -/
def State.interrupt (s : State) (l : List Src) : State := l.foldl State.interruptFn s

/-- The MSI-X table and the pending bits take their reset values (R22, R24). -/
def State.resetMsix (s : State) : State :=
  ((List.range 88).foldl (fun s i => s.setReg (0x8000 + 4 * i) (regReset (0x8000 + 4 * i))) s).setRegN 0x9000 0

/-- A conventional reset, a hot reset or a link-down (R24): the configuration spaces, the MSI-X table and the pending
bits take their reset values.  DESIGN CHOICE (notes/assumptions/9.md): the spec names no other PCIe-side state, so the
read shadows, the write shadows and a ring message that waits for HOLDOFF_US stay. -/
def State.pcieReset (s : State) : State :=
  let s := (s.interrupt [.f0, .f1]).resetMsix
  { s with hif := { s.hif with fn0 := PciFn.f0, fn1 := PciFn.f1 } }

/-- The link leaves L0 other than by host request (R24, R53). -/
def State.linkDown (s : State) : State := (s.raw R.HIF_RAW F.HIF_RAW_LINK_DOWN).pcieReset

/-- Ring `k` is stopped and disabled. -/
def State.stopRing (s : State) (k : Nat) : State :=
  (s.p (R.HIF_DMAk_CTRL k) F.HIF_DMAk_CTRL_ENABLE 0).p (R.HIF_DMAk_STATUS k) F.HIF_DMAk_STATUS_RUNNING 0

/-- A Function Level Reset on F0 (R24).  DESIGN CHOICE (notes/assumptions/9.md): F0's read shadows and the write shadows
stay; the ring messages that wait go with the rings. -/
def State.flrF0 (s : State) : State :=
  let s := (List.range 3).foldl State.stopRing (s.interrupt [.f0])
  let s := { s with hif := { s.hif with waitMsg := [], fn0 := PciFn.f0 } }
  (s.setRegN R.HIF_IRQ_EN 0).resetMsix

/-- A Function Level Reset on F1 (R24): its configuration space only.  DESIGN CHOICE (notes/assumptions/9.md): F1's read
shadows stay. -/
def State.flrF1 (s : State) : State :=
  let s := s.interrupt [.f1]
  { s with hif := { s.hif with fn1 := PciFn.f1 } }

/-! ### The configuration scan (R49 to R52) -/

/-- The addresses of a row, ascending. -/
def RegRow.addrs (r : RegRow) : List Nat :=
  if r.stride = 0 then [r.base]
  else (List.range r.count).flatMap (fun n => (List.range r.count2).map (fun k => r.base + r.stride * n + r.stride2 * k))

/-- Two ascending lists merged; `fuel` is at least their joint length. -/
def mergeAsc : Nat → List Nat → List Nat → List Nat
  | 0, _, _ => []
  | _ + 1, [], m => m
  | _ + 1, l, [] => l
  | fuel + 1, a :: l, b :: m => if a ≤ b then a :: mergeAsc fuel l (b :: m) else b :: mergeAsc fuel (a :: l) m

/-- The scanned registers of a block, ascending (R49). -/
def scanOf (rows : List RegRow) : List Nat :=
  (rows.filter (fun r => !r.exempt && r.fields.any Field.stored)).foldl
    (fun l r => let m := r.addrs; mergeAsc (l.length + m.length) l m) []

/-- Every scanned register, ascending (R49). -/
def scanList : List Nat :=
  [rowsHif, rowsBoot, rowsTsc, rowsRef, rowsHld, rowsSyn, rowsPts, rowsPtp, rowsPmc, rowsFwd, rowsQue, rowsHrd, rowsSpr,
    rowsTdc, rowsGuy, rowsRut, rowsIop, rowsMac].flatMap scanOf

/-- The eight bytes that register `a` adds to the scan (R50). -/
def State.scanBytes (s : State) (a : Nat) : List Byte :=
  leBytes 4 a ++ leBytes 4 ((s.reg a).toNat &&& scanMask a)

/-- The result of a complete scan (R50). -/
def State.scanResult (s : State) : Nat :=
  scanList.foldl (fun c a => crcFold 0x82F63B78 c (s.scanBytes a)) 0xFFFFFFFF ^^^ 0xFFFFFFFF

/-- Scanned bits of registers that an upset has flipped: address and mask (R52). -/
def State.upset (s : State) (l : List (Nat × Word)) : State :=
  l.foldl (fun s p => s.setReg p.1 (s.reg p.1 ^^^ (p.2 &&& BitVec.ofNat 32 (scanMask p.1)))) s

/-- A write freeze begins (R52). -/
def State.freeze (s : State) : State := s.p R.HIF_CFG_CRC_STATUS F.HIF_CFG_CRC_STATUS_FROZEN 1

/-- The action of a mismatch (R52, R399). -/
def State.scanAction (s : State) : State :=
  let a := s.g R.HIF_CFG_CRC_CTRL F.HIF_CFG_CRC_CTRL_ACTION
  if a = 1 then s.freeze
  else if a = 2 then
    let r := s.scanFailOver
    if r.2 then r.1.freeze else r.1
  else s

/-- A scan ends with result `crc` (R51). -/
def State.scanEnd (s : State) (crc : Nat) : State :=
  let ref := (s.reg R.HIF_CFG_CRC_REF).toNat
  let s := s.setRegN R.HIF_CFG_CRC_LAST crc
  if s.scanState = 1 then (s.setRegN R.HIF_CFG_CRC_REF crc).setScan 2
  else if s.scanState = 2 ∧ crc ≠ ref then
    let a := s.g R.HIF_CFG_CRC_CTRL F.HIF_CFG_CRC_CTRL_ACTION
    let s := (s.setScan 3).raw R.HIF_RAW F.HIF_RAW_CRC_MISMATCH
    ((s.fault 0 2 a crc).note 0x24 a ref crc 0 0).scanAction
  else s

/-- A configuration scan completes; `l`: what upsets had flipped when the scan reached it. -/
def State.scanComplete (s : State) (l : List (Nat × Word)) : State := let s := s.upset l; s.scanEnd s.scanResult

/-! ### DMA rings (R60 to R63) -/

/-- The host address of the descriptor at HEAD. -/
def State.descAddr (s : State) (k : Nat) : Nat :=
  s.pair (R.HIF_DMAk_BASE_LO k) + 16 * s.g (R.HIF_DMAk_HEAD k) F.HIF_DMAk_HEAD_HEAD

/-- A descriptor of ring 1 or 2 with this buffer is illegal (R63, R260, R334). -/
def descIllegal (k addr len : Nat) : Bool :=
  if k = 1 then !(decide (256 ≤ len) && decide (len ≤ 16448) && len % 64 == 0) || addr % 64 != 0
  else if k = 2 then !journalLen len || addr % 64 != 0
  else false

/-- The vector message of ring `k` leaves (R62). -/
def State.ringMsg (s : State) (k : Nat) : State :=
  { s with hif := { s.hif with lastMsg := Tbl.set 0 s.hif.lastMsg k (s.regClk + 1),
                               waitMsg := s.hif.waitMsg.filter (fun j => j != k) } }.signal (19 + k)

/-- A completion on ring `k` asks for its vector: at once, or once HOLDOFF_US has elapsed since the last (R62). -/
def State.ringVector (s : State) (k : Nat) : State :=
  if s.on (R.HIF_DMAk_CTRL k) F.HIF_DMAk_CTRL_IRQ_EN then
    let last := Tbl.get 0 s.hif.lastMsg k
    let hold := 250 * s.g (R.HIF_DMAk_CTRL k) F.HIF_DMAk_CTRL_HOLDOFF_US
    if last = 0 ∨ last + hold ≤ s.regClk + 1 then s.ringMsg k
    else if s.hif.waitMsg.contains k then s
    else { s with hif := { s.hif with waitMsg := s.hif.waitMsg ++ [k] } }
  else s

/-- The descriptor at HEAD of ring `k` completes with `done_` bytes and status bits `st`, in the order of R62 after the
buffer's contents. -/
def State.descDone (s : State) (k done_ st : Nat) : State :=
  let s := s.emit (.hostMem (s.descAddr k + 12) (leBytes 2 done_ ++ leBytes 2 (2 ^ 15 + st % 2 ^ 15)))
  let head := (s.g (R.HIF_DMAk_HEAD k) F.HIF_DMAk_HEAD_HEAD + 1) % s.ringSize k
  let s := s.p (R.HIF_DMAk_HEAD k) F.HIF_DMAk_HEAD_HEAD head
  let wb := s.pair (R.HIF_DMAk_WB_LO k)
  let s := if wb = 0 then s else s.emit (.hostMem wb (leBytes 4 head))
  let s := s.ringVector k
  if s.on (R.HIF_DMAk_CTRL k) F.HIF_DMAk_CTRL_ENABLE then s
  else s.p (R.HIF_DMAk_STATUS k) F.HIF_DMAk_STATUS_RUNNING 0

/-- What waits for descriptors of ring `k` becomes `l`. -/
def State.setReady (s : State) (k : Nat) (l : List Content) : State :=
  { s with hif := { s.hif with ready := Tbl.set [] s.hif.ready k l } }

/-- DESC_ERR of ring `k` (R63). -/
def State.descErr (s : State) (k : Nat) : State := s.raw (R.HIF_DMAk_STATUS k) F.HIF_DMAk_STATUS_DESC_ERR

/-- Content `c` of ring 1 or 2 fills the buffer that descriptor `d` names, and `d` completes (R62, R260, R334); what does
not fit goes on in the next. -/
def State.fillBuffer (s : State) (k : Nat) (d : List Byte) (c : Content) (l : List Content) : State :=
  let part := c.bytes.take (descLen d)
  let rest := c.bytes.drop (descLen d)
  let s := s.emit (.hostMem (descBuf d) part)
  if k = 1 then
    let bits := (if c.st = 0 then 2 ^ 13 else 0) + (if rest = [] then 2 ^ 12 else 0)
    (s.setReady 1 (if rest = [] then l else { c with bytes := rest, st := 1 } :: l)).descDone 1 part.length bits
  else (s.setReady 2 l).descDone 2 part.length c.st

/-- The device completes the descriptor at HEAD of ring `k`, `desc` (R61 to R63): ring 0 once its frame has been taken,
rings 1 and 2 with the content that waits, an illegal one with ERR.  On rings 0 and 2 the content was formed for its
descriptor, and that is the one that completes. -/
def State.ringDone (s : State) (k : Nat) (desc : List Byte) : State :=
  if s.posted k = 0 then s
  else
    match s.ready k with
    | [] => if descIllegal k (descBuf desc) (descLen desc) then (s.descErr k).descDone k 0 (2 ^ 14) else s
    | c :: l =>
      if k = 0 then
        let s := s.setReady 0 l
        let s := if 2 ^ 16 ≤ c.st then s.descErr 0 else s
        s.descDone 0 c.bytes.length c.st
      else if k = 2 then s.fillBuffer 2 c.desc c l
      else if descIllegal 1 (descBuf desc) (descLen desc) then (s.descErr 1).descDone 1 0 (2 ^ 14)
      else s.fillBuffer 1 desc c l

/-- HOLDOFF_US of ring `k` has elapsed and its message waits (R62). -/
def State.holdoff (s : State) (k : Nat) : State := if s.hif.waitMsg.contains k then s.ringMsg k else s

/-- A completion with Unsupported Request, Completer Abort or poisoned data on ring `k` (R63). -/
def State.ringError (s : State) (k : Nat) : State :=
  if s.on (R.HIF_DMAk_STATUS k) F.HIF_DMAk_STATUS_RUNNING then
    let s := s.p (R.HIF_DMAk_STATUS k) F.HIF_DMAk_STATUS_RUNNING 0
    (s.raw (R.HIF_DMAk_STATUS k) F.HIF_DMAk_STATUS_PCIE_ERR).fault 0 3 k (s.descAddr k % 2 ^ 32)
  else s

/-! ### The I²C target (R64, R65) -/

/-- The target's 7-bit address: 0x58 + 2 × `I2C_ADDR1` + `I2C_ADDR0` as sampled (R64). -/
def State.i2cDevice (s : State) : Nat := 0x58 + s.hif.i2cStrap

/-- The board controller writes a three-byte BAR0 address to target `dev`; bits [1:0] are ignored (R64, R65). -/
def State.i2cAddress (s : State) (dev : BitVec 7) (b2 b1 b0 : Byte) : State :=
  if dev.toNat = s.i2cDevice then
    { s with hif := { s.hif with i2cAddr := (b2.toNat * 65536 + b1.toNat * 256 + b0.toNat) / 4 * 4 } }
  else s

/-- The board controller reads `n` bytes from target `dev`; the address advances after every byte (R64, R65).  DESIGN
CHOICE (notes/assumptions/11.md): address 0 follows 0xFFFFFF. -/
def State.i2cRead (s : State) (dev : BitVec 7) (n : Nat) : State :=
  if dev.toNat = s.i2cDevice then
    let a := s.hif.i2cAddr
    let s := { s with hif := { s.hif with i2cAddr := (a + n) % 2 ^ 24 } }
    s.accessAll ((laneSplit (n + 1) a n).map (fun p => ⟨.i2c, p.1 % 2 ^ 24, false, 0#32, p.2.1, p.2.2⟩))
  else s

end Sys2Proof.Machine
end

