-- ==== Sys2Proof/Machine/Boot.lean ====
section
/-! DEFINITION. What the boot sequencer does on its way from reset to RUN (spec/16 R417 to R435): the OTP, the flash
header, the two passes over the pack, the seed and RUN. -/

namespace Sys2Proof.Machine

/-- The state with boot sequencer `b`. -/
def State.setBootRec (s : State) (b : Boot) : State := { s with boot := b }

/-! ### OTP (R418, R434) -/

/-- The registers from `a` on, `step` apart, take the words of `l`. -/
def State.setRegList (s : State) (step : Nat) : Nat → List Word → State
  | _, [] => s
  | a, v :: l => (s.setReg a v).setRegList step (a + step) l

/-- The first `k` entries of `l`, numbered from `i` on, as a table. -/
def numbered {α : Type} : Nat → List α → Tbl α
  | _, [] => []
  | i, x :: l => (i, x) :: numbered (i + 1) l

/-- The factory calibration goes into its registers (R434). -/
def State.copyOtp (s : State) (o : Otp) : State :=
  let l := (numbered 0 (o.lanes.take 48)).filter (fun p => decide (p.2 ≠ (0#32, 0#32)))
  let s := s.setBootRec { s.boot with trims := o.trims.take 16, lanes := l }
  let s := (List.range 24).foldl State.copyFactory s
  let s := (s.setReg R.GUY_TX_DLY_FAC o.guy.1).setReg R.GUY_RX_DLY_FAC o.guy.2
  let s := s.setRegList 0x20 (R.TDC_En_DLY_FAC 0) (o.events.take 8)
  let s := (s.setRegList 4 (R.CAL_On_PATH 0) (o.paths.take 10)).setRegList 4 (R.CAL_On_RLY 0) (o.relays.take 10)
  let s := s.p R.CAL_TEMP_FAC F.CAL_TEMP_FAC_OFFSET o.temp.toNat
  (s.setPair R.CAL_UID_LO o.uid.toNat).p R.CAL_OTP_STATUS F.CAL_OTP_STATUS_REV o.rev.toNat

/-- The OTP read ends; `ok`: its CRC is correct (R417, R418). -/
def State.otpDone (s : State) (ok : Bool) (o : Otp) : State :=
  if s.bootState = bootOtp then
    let s := (s.p R.CAL_OTP_STATUS F.CAL_OTP_STATUS_READ_DONE 1).pb R.CAL_OTP_STATUS F.CAL_OTP_STATUS_CRC_OK ok
    if ok then (s.copyOtp o).setBoot bootFlash else s.bootFail 1 0xFFF 0
  else s

/-! ### The header (R421, R422, R431) -/

/-- The check of R431 that the header `h` of a flash of `size` bytes fails: its reason; 0 when it is valid. -/
def headerCheck (h : List Byte) (size : Nat) : Nat :=
  let n := leAt h 12 2
  if leAt h 0 4 ≠ 0x4B505A4F then 3
  else if leAt h 60 4 ≠ crc32c (h.take 60) then 4
  else if leAt h 4 2 ≠ 1 ∨ leAt h 6 2 ≠ 64 then 5
  else if leAt h 16 4 ≠ 0x2416B010 then 6
  else if size < leAt h 8 4 ∨ n = 0 ∨ 4096 < n then 7
  else 0

/-- The flash has been looked for and its first 64 bytes read: `jedec` its identifier, `log2` its size (R421, R422). -/
def State.flashFound (s : State) (found : Bool) (jedec log2 : Nat) (h : List Byte) : State :=
  if s.bootState = bootFlash then
    if !found then (s.setRegN R.BOOT_FLASH_INFO 0).bootFail 2 0xFFF 0
    else
      let s := (s.p R.BOOT_FLASH_INFO F.BOOT_FLASH_INFO_SIZE_LOG2 log2).p R.BOOT_FLASH_INFO F.BOOT_FLASH_INFO_JEDEC_ID jedec
      let r := headerCheck h (2 ^ min log2 26)
      if r = 0 then
        let s := (s.setRegN R.BOOT_PACK_ID (leAt h 20 4)).setRegN R.BOOT_PACK_LEN (leAt h 8 4)
        let s := s.setBootRec { s.boot with sections := leAt h 12 2 }
        let v := F.REF_OSC_CFG_FREQ.put (s.reg R.REF_OSC_CFG) (min (leAt h 14 1) 3)
        ((s.writeWord .boot R.REF_OSC_CFG v).setBoot bootClocks).bootClocksReady
      else if r = 4 then s.bootFailCrc 4 0xFFF 0 (leAt h 60 4) (crc32c (h.take 60))
      else s.bootFail r 0xFFF 0
  else s

/-- 500 ms in CLOCKS (R417). -/
def State.clockTimeout (s : State) : State := if s.bootState = bootClocks then s.bootFail 12 0xFFF 0 else s

/-! ### Pass 1 (R423 to R431) -/

/-- The register that a calibration item of code `c` and index `i` names (R427). -/
def calItem (c i : Nat) : Option Nat :=
  match c with
  | 1 => if i < 24 then some (R.PTS_TX_DLY_USER i) else none
  | 2 => if i < 24 then some (R.PTS_RX_DLY_USER i) else none
  | 3 => if i < 24 then some (R.PTS_ASYM i) else none
  | 4 => if i < 8 then some (R.TDC_En_DLY_USER i) else none
  | 5 => if i = 0 then some R.GUY_TX_DLY_USER else none
  | 6 => if i = 0 then some R.GUY_RX_DLY_USER else none
  | 7 => if i = 0 then some R.CAL_TEMP_USER else none
  | _ => none

/-- What an entry of a REGISTER section asks for; none when it is illegal (R425). -/
def regEntry (a v : Nat) : Option PackOp :=
  if a = 0xFFFFFFF0 then (if 1 ≤ v ∧ v ≤ 1000000 then some (.wait v) else none)
  else if a % 4 = 0 ∧ a ≤ 0x7FFFFF ∧ mapped a = true then some (.write a (BitVec.ofNat 32 v))
  else none

/-- What word `v` of a BLOCK section at address `a` asks for (R426). -/
def blockWord (a v : Nat) : Option PackOp :=
  if a % 4 = 0 ∧ a ≤ 0xAFFFFF ∧ mapped a = true then some (.write a (BitVec.ofNat 32 v)) else none

/-- The operations of the entries that `f` forms from the pieces `l`, each with its flash offset; or the offset of the
first illegal one. -/
def entriesOf {α : Type} (f : α → Option PackOp) : List (Nat × α) → List PackOp ⊕ Nat
  | [] => .inl []
  | (o, x) :: l =>
    match f x with
    | none => .inr o
    | some p => match entriesOf f l with
      | .inl r => .inl (p :: r)
      | .inr k => .inr k

/-- The words of a body, each with its index. -/
def wordsFrom : Nat → Nat → List Byte → List (Nat × Nat)
  | 0, _, _ => []
  | fuel + 1, i, l => if l = [] then [] else (i, leAt l 0 4) :: wordsFrom fuel (i + 1) (l.drop 4)

/-- What a section of type `ty` with body `b` at flash offset `o` asks for; or the offset of what R431 finds illegal in
it under reason 10. -/
def bodyOps (ty o : Nat) (b : List Byte) : List PackOp ⊕ Nat :=
  let ws := wordsFrom (b.length / 4) 0 b
  let pairs := ws.filter (fun p => p.1 % 2 = 0)
  let at_ : Nat → Nat := fun i => o + 16 + 4 * i
  if b.length % 4 ≠ 0 then .inr o
  else match ty with
    | 0 => .inl []
    | 1 =>
      if b.length % 8 ≠ 0 then .inr o
      else entriesOf (fun p : Nat × Nat => regEntry p.1 p.2) (pairs.map (fun p => (at_ p.1, p.2, leAt b (4 * p.1 + 4) 4)))
    | 2 =>
      if b.length < 4 then .inr o
      else
        let start := leAt b 0 4
        entriesOf (fun p : Nat × Nat => blockWord p.1 p.2) ((ws.drop 1).map (fun p => (at_ p.1, start + 4 * (p.1 - 1), p.2)))
    | 3 =>
      if b.length % 8 ≠ 0 then .inr o
      else entriesOf (fun p : Nat × Nat =>
          (calItem (p.1 % 256) (p.1 / 256 % 256)).map (fun a => PackOp.write a (BitVec.ofNat 32 p.2)))
        (pairs.map (fun p => (at_ p.1, p.2, leAt b (4 * p.1 + 4) 4)))
    | 4 =>
      if b.length ≠ 8 then .inr o
      else .inl [.write R.QUE_DRAM_CFG (BitVec.ofNat 32 (leAt b 0 4)), .write R.QUE_PART (BitVec.ofNat 32 (leAt b 4 4))]
    | 5 =>
      if b.length ≠ 64 then .inr o
      else .inl (ws.map (fun p => .write (R.REF_PRIOn p.1) (BitVec.ofNat 32 p.2)))
    | _ =>
      if b.length ≠ 256 then .inr o
      else .inl (ws.map (fun p => .write (R.HRD_BUDGETb p.1) (BitVec.ofNat 32 p.2)))

/-- A failed check of pass 1: reason, section, offset, and for a CRC the two values. -/
structure PackBad where
  reason : Nat
  section_ : Nat
  offset : Nat
  stored : Nat
  found : Nat
  deriving DecidableEq, Repr

/-- Checks `n` sections of the pack of `len` bytes from section `i` at offset `o` on; `dram`: a DRAM section has been met;
`last`: the offset of the section before (R423 to R431). -/
def packSections (pack : List Byte) (len : Nat) : Nat → Nat → Nat → Bool → Nat → List PackOp ⊕ PackBad
  | 0, i, o, _, last => if o = len then .inl [] else .inr ⟨7, i - 1, last, 0, 0⟩
  | n + 1, i, o, dram, _ =>
    let h := slice pack o 16
    let ty := leAt h 0 2
    let size := leAt h 4 4
    let crc := crc32c (slice pack o 12 ++ slice pack (o + 16) size)
    if len < o + 16 ∨ len < o + 16 + size then .inr ⟨7, i, o, 0, 0⟩
    else if leAt h 12 4 ≠ crc then .inr ⟨8, i, o, leAt h 12 4, crc⟩
    else if 6 < ty ∨ leAt h 2 2 ≠ 0 ∨ (ty = 4 ∧ dram = true) then .inr ⟨9, i, o, 0, 0⟩
    else
      match bodyOps ty o (slice pack (o + 16) size) with
      | .inr k => .inr ⟨10, i, k, 0, 0⟩
      | .inl l =>
        match packSections pack len n (i + 1) (o + 16 + size) (dram || ty == 4) o with
        | .inr e => .inr e
        | .inl r => .inl (l ++ .check i o :: r)

/-- Pass 1 over the bytes of the pack (R430, R431). -/
def State.packVerify (s : State) (pack : List Byte) : State :=
  if s.bootState = bootVerify then
    match packSections pack (s.reg R.BOOT_PACK_LEN).toNat s.boot.sections 0 64 false 64 with
    | .inl l => (s.setBootRec { s.boot with todo := l }).setBoot bootApply
    | .inr e =>
      if e.reason = 8 then s.bootFailCrc 8 e.section_ e.offset e.stored e.found else s.bootFail e.reason e.section_ e.offset
  else s

/-! ### Pass 2 (R425, R430, R432) -/

/-- What is left to do after the comparisons that the sections already applied have passed. -/
def afterChecks : List PackOp → List PackOp
  | .check _ _ :: l => afterChecks l
  | l => l

/-- A boot-pack write waits for its domain. -/
def State.packHeld (s : State) : Bool := s.hif.held.any (fun x => decide (x.src = .boot))

/-- The next write of pass 2 (R425, R432); `again`: what the second read of the entry gave, where it differs from the
first. -/
def State.packWrite (s : State) (again : Option (Nat × Word)) : State :=
  if s.bootState = bootApply ∧ !s.packHeld then
    match afterChecks s.boot.todo with
    | .write a v :: l =>
      let e := again.getD (a, v)
      let s := (s.setBootRec { s.boot with todo := l }).p R.BOOT_STATUS F.BOOT_STATUS_APPLIED 1
      s.access ⟨.boot, e.1 / 4 * 4, true, e.2, 0, 4⟩
    | _ => s
  else s

/-- A pause of pass 2 has elapsed (R425). -/
def State.packWait (s : State) : State :=
  if s.bootState = bootApply ∧ !s.packHeld then
    match afterChecks s.boot.todo with
    | .wait _ :: l => s.setBootRec { s.boot with todo := l }
    | _ => s
  else s

/-- Pass 2 ends (R417, R432): with the whole pack applied, or with a section whose recomputed CRC differs. -/
def State.packDone (s : State) (mismatch : Bool) : State :=
  if s.bootState = bootApply ∧ !s.packHeld then
    if mismatch then
      match s.boot.todo with
      | .check i o :: _ => (s.p R.BOOT_STATUS F.BOOT_STATUS_APPLIED 1).bootFail 11 i o
      | _ => s
    else if afterChecks s.boot.todo = [] then
      ((s.setBootRec { s.boot with todo := [] }).setBoot bootDram).bootDramReady
    else s
  else s

end Sys2Proof.Machine
end

