-- ==== Sys2Proof/Machine/Events.lean ====
section
/-! DEFINITION. Events that reach several blocks: applied steps, seconds, loops and gated domains, received frames that
a block consumes, the claim wire, reset, supplies, RUN, and a clock in which no command comes. -/

namespace Sys2Proof.Machine

/-! ### Applied steps (R77 to R83, R133, R141, R169, R227, R364) -/

/-- What a phase step of `d` Tick64 units does outside the timescale, once every copy has moved. -/
def State.stepEffects (s : State) (d : Int) : State :=
  let s := ((((s.breakFit).refStep d).outputsStep d).ptpStep d).tdcStep
  if s.emberMaintained then s.setHld { s.hld with resyncDue := true } else s

/-- The steps due on the tick just formed are applied (R77, R79). -/
def State.stepApply (s : State) : State :=
  if s.runs .timescale && s.stepDue then
    let t := s.applySteps
    t.stepEffects (t96Sep t.raw96 s.raw96)
  else s

/-- One timescale tick with the upsets `u0`, `u1`, `u2`, the loop mean's seconds, and the outputs over it (R69, R132,
R150, R159). -/
def State.tick (s : State) (u0 u1 u2 : Copy) : State :=
  if s.runs .timescale then (s.steerTick.tickWith u0 u1 u2).outputsTick 1 (cInc s.tsc.voted) false else s

/-- The second event (R83): `TSC_RAW`.SECOND, a TIME_QUALITY record, and a start for the units that start on the second
(R355). -/
def State.second (s : State) : State :=
  if s.tsc.sigSec < tSec s.now then s.secondEvent.giveStart 8 (tickOf (mkT96 (tSec s.now) 0 0)) else s

/-- The apply of a pending update; a step that falls on its tick comes first (R164, R166). -/
def State.updateTick (s : State) : State := s.stepApply.updateApply

/-! ### Loops and gated domains (R151 to R154) -/

/-- The loops that clock domain `d`. -/
def loopsOf : Dom → List Loop
  | .timescale => [.jpll]
  | .core => [.core]
  | .lane n => [.lane n]
  | .guyLane => [.lane 24, .lane 25, .lane 26, .lane 27]
  | .register => []
  | .emberBridge => []

/-- Domain `d` may run: its loops are locked and settled. -/
def State.domReady (s : State) (d : Dom) : Bool :=
  (loopsOf d).all (fun l => s.loopLocked l && !s.syn.settling.contains l)

/-- The domains of loop `l` that may run start or resume, and accesses that wait are taken up again. -/
def State.ungateLoop (s : State) (l : Loop) : State :=
  ((loopDoms l).foldl (fun s d => if s.domReady d then s.ungate d else s) s).resumeHeld

/-- The DRAM controller leaves self-refresh (R152, R274). -/
def State.dramWakes (s : State) : State :=
  s.p R.QUE_DRAM_STATUS F.QUE_DRAM_STATUS_SELF_REFRESH 0

/-- What shows that loop `l` is locked (R149, R151). -/
def State.showLoopLock (s : State) (l : Loop) : State :=
  match l with
  | .lane n => s.setLane n true
  | .hk => (s.p R.SYN_STATUS F.SYN_STATUS_HPLL_LOCK 1).p R.SYN_STATUS F.SYN_STATUS_HK_FALLBACK 0
  | .jpll => (s.p R.SYN_STATUS F.SYN_STATUS_JPLL_LOCK 1).p R.SYN_STATUS F.SYN_STATUS_JPLL_HOLD 0
  | .core => (s.p R.SYN_STATUS F.SYN_STATUS_CORE_LOCK 1).p R.SYN_STATUS F.SYN_STATUS_CORE_HOLD 0
  | .dram => (s.p R.SYN_STATUS F.SYN_STATUS_DRAM_LOCK 1).p R.SYN_STATUS F.SYN_STATUS_DRAM_HOLD 0

/-- A loop declares lock (R151): at its first lock its domains start at once; a lock regained sets RELOCK, and its domains,
with the DRAM controller among them, run once SETTLE_US has elapsed (R152). -/
def State.pllLock (s : State) (l : Loop) : State :=
  if s.loopLocked l then s
  else
    let s := s.showLoopLock l
    let s := if s.syn.locked.contains l then
        (s.setSyn { s.syn with settling := s.syn.settling.erase l ++ [l] }).raw R.SYN_RAW F.SYN_RAW_RELOCK
      else
        let s := (s.setSyn { s.syn with locked := s.syn.locked ++ [l] }).ungateLoop l
        if l = .dram then s.dramWakes.spillShow else s
    s.bootClocksReady

/-- A loop declares loss of lock; `sent`: the bytes sent of a frame in transmission on its lane (R151, R152, R184, R274). -/
def State.pllLoss (s : State) (l : Loop) (cause : Nat) (sent : Option Nat) : State :=
  match l with
  | .lane n => s.laneUnlock n sent
  | _ => s.loopLoss l cause false

/-- The drain of domain `d` has ended and its clock stops (R152). -/
def State.domainGated (s : State) (d : Dom) : State :=
  if (loopsOf d).any (fun l => !s.loopLocked l) then s.gate d else s

/-- The seconds of the tick clock that ended between counts `a` and `b` (R154). -/
def secondsIn (a b : Nat) : Nat := b / 500000000 - a / 500000000

/-- The first tick after a gap of the timescale domain of `cycles` register-clock cycles (R131, R154, R182, R315, R364). -/
def State.timescaleResumes (s : State) (cycles : Nat) : State :=
  let before := s.tsc.tick
  let s := s.steerTick.bridge cycles
  let s := (s.hldSeconds (secondsIn before s.tsc.tick)).tdcGap.herdRestart
  ((List.range 24).foldl (fun s n => (s.pdGap n).tightEval n) s).guyPdGap

/-- SETTLE_US has elapsed since loop `l` relocked (R152). -/
def State.loopSettled (s : State) (l : Loop) (cycles : Nat) : State :=
  if s.syn.settling.contains l then
    let gap := l == .jpll && !s.runs .timescale
    let gapCore := l == .core && !s.runs .core
    let s := (s.setSyn { s.syn with settling := s.syn.settling.erase l })
    let s := (loopDoms l).foldl (fun s d => if s.domReady d then s.ungate d else s) s
    let s := if gap then s.timescaleResumes cycles else if gapCore then s.judgeEnds.herdRestart else s
    let s := if l = .jpll then s.setSyn { s.syn with goTick := s.tsc.tick } else if l = .dram then s.dramWakes.spillShow else s
    s.resumeHeld
  else s

/-- SETTLE_US has elapsed since output `n` took its new frequency (R165). -/
def State.outputSettled (s : State) (n : Nat) : State :=
  if (s.outRun n).settling then s.setOutRun n { s.outRun n with settling := false } else s

/-- SETTLE_US has elapsed (R152, R165). -/
def State.settleExpiry (s : State) (what : Settle) : State :=
  match what with
  | .loop l cycles => s.loopSettled l cycles
  | .output n => s.outputSettled n

/-! ### Frames that a block consumes (R113, R285) -/

/-- An ESMC PDU arrives on port `n` (R113, R419). -/
def State.esmcRx (s : State) (n : Nat) (b : List Byte) : State :=
  if s.running && s.linkUp n then
    let h := headsOf b (s.portMode n)
    if isEsmc b h && beAt b (h.own + 12) 1 == 1 && beAt b (h.own + 13) 2 == 4 then
      s.setPortQl n (qlOf (beAt b (h.own + 15) 1 % 16))
    else s
  else s

/-- No valid ESMC PDU on port `n` for 5 s (R113). -/
def State.esmcTimeout (s : State) (n : Nat) : State := s.setPortQl n 15

/-- An event PDU leaves on port `n` when the QL it transmits has changed since it last sent one, or began to send
(R115). -/
def State.esmcEvent (s : State) (n : Nat) : State :=
  let q := Tbl.get 16 s.ref.txQl n
  if s.txQlOf n = q ∨ q = 16 then s else s.sendEsmc n true

/-- An activity interval of candidate `k` ends (R106). -/
def State.activityEnd (s : State) (k : Nat) : State :=
  if k < 4 then (s.clearEdges k).activity k (s.inputPass k)
  else s.activity k
    (if k < 28 then s.on (R.PTS_STATUS (k - 4)) F.PTS_STATUS_BLOCK_LOCK
     else if k = 28 then s.partnerTime
     else s.ptpValid)

/-- A gate of candidate `k` ends; `raw`: its mean fractional frequency against `OSC_IN` in 10^-15; the PTP candidate's
result is the servo's (R105, R107, R225). -/
def State.gateEnd (s : State) (k : Nat) (raw : Int) : State :=
  if k = 29 then (s.ptpGate).2.freqGate 29 (s.ptpGate).1 else s.freqGate k (s.gateResult raw)

/-- The selector's decision, and the servo's move with steering (R120, R223). -/
def State.selectorDecision (s : State) (err rate : Int) : State := (s.selDecide err rate).servoSteer

/-- A fit interval ends, and the monitors follow a first sample (R108, R133). -/
def State.fitIntervalEnd (s : State) : State := s.fitEnd.afterModel s

/-- A qualified episode loses its qualification: the reading lies in an unlearned bin, for 60 s (`bin`), or HLD_ELAPSED
exceeds HOLD_S (R138). -/
def State.qualLost (s : State) (bin : Bool) : State :=
  let s := s.showTempOut
  let due := if bin then s.on R.HLD_STATUS F.HLD_STATUS_TEMP_OUT
    else decide (s.g R.HLD_QUAL_HOLD F.HLD_QUAL_HOLD_HOLD_S < (s.reg R.HLD_ELAPSED).toNat)
  if s.on R.HLD_STATUS F.HLD_STATUS_EPISODE_QUAL && due then
    (s.loseQual (if bin then 2 else 1)).formCond s.selState
  else s

/-- A resync of Ember: at the first opportunity or after 1,024 s (`periodic`), or as asked for (R141). -/
def State.emberResync (s : State) (periodic : Bool) : State := if periodic || s.hld.resyncDue then s.resync else s

/-- A received Clause 31 PAUSE: the MAC control sublayer consumes it, and nothing follows (R285). -/
def State.pauseRx (s : State) (_port : Nat) (_frame : List Byte) : State := s

/-- A sample of a phase detector of port `n`, or of Guyline's lane 0; tight confirmation follows the receive detector
(R180, R182, R220, R380). -/
def State.detectorSample (s : State) (n : Nat) (tx : Bool) (raw : Nat) : State :=
  if n < 24 then (s.pdSample n tx raw).tightEval n else s.guyPdSample tx raw

/-- The own claim has changed: every MASTER port whose Announces have not carried it yet sends one more (R213). -/
def State.claimAnnounce (s : State) : State :=
  (List.range 24).foldl (fun s n => if (s.pport n).told = (s.reg R.RUT_CLAIM).toNat then s else s.announceTx n) s

/-- A write of `SPR_RD_COUNT`, the low word first (R33, R335). -/
def State.writeRdCount (s : State) (n : BitVec 64) : State :=
  (s.hostWrite R.SPR_RD_COUNT_LO (BitVec.ofNat 32 n.toNat)).hostWrite R.SPR_RD_COUNT_HI (BitVec.ofNat 32 (n.toNat / 2 ^ 32))

/-- An edge at the ball of input `e`, past the inversion of its pin (R344, R490). -/
def State.eventEdge (s : State) (e : Nat) (rise : Bool) (code since : Nat) (hold : Option Nat) : State :=
  s.tdcEdge e (rise != s.on (R.IOP_PINp_STATUS (14 + e)) F.IOP_PINp_STATUS_POL_INV) code since hold

/-! ### Guyline (R372, R379) -/

/-- LOL of lane `l` is declared, or cleared, which takes a locked lane PLL (R372). -/
def State.laneLol (s : State) (l : Nat) (b : Bool) : State :=
  if b || s.syn.lanes.contains (24 + l) then s.laneDetect F.GUY_STATUS_LOL l b else s

/-- The message `m`, which is valid, is delivered by its CLASS; `t`: the receipt stamp of the row in which it began (R377,
R379, R380). -/
def State.guyTake (s : State) (t : Stamp) (m : List Byte) : State :=
  match guyParse m with
  | some (1, _, p) => s.claimRx p
  | some (2, _, p) => s.heartbeatRx p
  | some (3, q, p) => s.timeRx t q p
  | some (4, _, p) => s.commitRx p
  | some (5, _, p) => s.mirrorRx p
  | some (6, _, p) => s.ckptRx p
  | _ => s

/-- The stream bytes `l` stand to be read; `t`: the receipt stamp of the row that brought the last of them.  Every whole
message is delivered, and one that fails drops the stream (R375, R376, R379). -/
def State.streamRead (s : State) (t : Stamp) (l : List Byte) : State :=
  let x := streamSplit (l.length + 1) l
  let old := match s.guy.stream with | some b => !b.isEmpty | none => false
  let stamp := fun (first : Bool) => if first && old then s.guy.began else t
  let s := s.setGuy { s.guy with stream := x.2, began := stamp x.1.isEmpty }
  let s := match x.1 with
    | [] => s
    | m :: r => r.foldl (fun s m => s.guyTake t m) (s.guyTake (stamp true) m)
  if x.2.isNone then s.streamError 0 0 else s

/-- A row arrives (R375, R379); `x`: the lane's part of its receipt stamp. -/
def State.rowRx (s : State) (lanes : List (List Bool)) (block : Nat) (x : StampIn) : State :=
  match rowFind lanes block with
  | .inr (code, mask) => s.streamError code mask
  | .inl row =>
    match rowFollows s.guy.stream row with
    | some l => s.streamRead (s.guyStamp false x) l
    | none => s

/-- A row, or a message on its own, comes from the partner while the link is UP: an error in it drops the stream, and a
row without one continues it (R375, R379). -/
def State.streamBad (s : State) (bad : StreamBad) : State :=
  if s.guyUp then
    match bad with
    | .message m => if (guyParse m).isNone then s.streamError 0 0 else s
    | .row lanes block x => s.rowRx lanes block x
  else s

/-! ### The claim wire (R390, R489, R490) -/

/-- The claim-wire frame `f` arrives on the pin (R390); a complemented SYNC marks the pin reversed (R489). -/
def State.claimWire (s : State) (f : BitVec 80) : State :=
  let inv : State → Bool := fun s => s.on (R.IOP_PINp_STATUS 32) F.IOP_PINp_STATUS_POL_INV
  let g := if inv s then ~~~f else f
  let s := if g.toNat / 2 ^ 64 = 0xD22B then s.pinReversed 32 else s
  s.wireRx (if inv s then ~~~f else f)

/-! ### Reset and supplies (R143, R413 to R417) -/

/-- The Ember registers and the cause latch, which a reset does not touch (R140, R416); of `HLD_EMB_STATUS`, Ember holds
VALID and LOST, and SYNCED counts from reset release. -/
def keptRegs : List Nat :=
  [R.BOOT_RESET_CAUSE, R.HLD_EMB_TIME_LO, R.HLD_EMB_TIME_HI, R.HLD_EMB_TRIM, R.HLD_EMB_STATUS, R.HLD_EMB_FAIL_LO,
    R.HLD_EMB_FAIL_HI]

/-- A reset cuts short what port `n` is sending (R415); how many bytes have left is a free value. -/
def State.cutShort (s : State) (n : Nat) : State :=
  let k := (Config.freeWord s.freeIdx).toNat
  let busy := match Tbl.get none s.fwd.lineEnd n with
    | some e => !fineLe e (fineOf s.nowTick)
    | none => false
  match s.partSent n k with
  | some b => ((s.emit (.frame n b)).emit (.cut n k)).drawn
  | none => if busy then (s.emit (.cut n k)).drawn else s

/-- What leaves a device as a reset begins (R415): frames cut short, outputs driven low, the claim wire low. -/
def State.quiet (s : State) : State :=
  let s := (List.range 24).foldl State.cutShort s
  let s := (List.range 10).foldl (fun s n => if (s.outRun n).level then s.emitEdges n [(false, s.realNow)] else s) s
  s.emit (.wire 0#80)

/-- The state of a device held in reset (R13, R415): reset values, but for Ember, the cause latch, what the straps last
read, DRAM, and the commands that wait. -/
def State.toReset (s : State) : State :=
  let regs := ((keptRegs.foldl (fun (t : State) a => t.setReg a (s.reg a)) { State.reset with regs := [] }).p
    R.HLD_EMB_STATUS F.HLD_EMB_STATUS_SYNCED 0).regs
  { State.reset with
    regs := regs, dram := s.dram, pending := s.pending, out := s.quiet.out, freeIdx := s.quiet.freeIdx
    hif := { State.reset.hif with i2cStrap := s.hif.i2cStrap }
    hld := { State.reset.hld with emberAcc := s.hld.emberAcc }
    boot := { State.reset.boot with pinLow := s.boot.pinLow, railBad := s.boot.railBad, power := s.boot.power } }

/-- `RESET_L` goes low (R415, R416). -/
def State.resetAssert (s : State) : State :=
  ({ s with boot := { s.boot with pinLow := true } }.toReset).p R.BOOT_RESET_CAUSE F.BOOT_RESET_CAUSE_PIN 1

/-- `RESET_L` rises with the straps `straps` (R64, R417): out of reset, the sequencer is in OTP. -/
def State.resetRelease (s : State) (straps : Nat) : State :=
  if s.boot.pinLow then
    { s with boot := { s.boot with pinLow := false }, hif := { s.hif with i2cStrap := straps % 4 } }
  else s

/-- The monitored rails (R416). -/
def railBit (rail : Nat) : Fld :=
  if rail = 0 then F.BOOT_RESET_CAUSE_VDD else if rail ≤ 2 then F.BOOT_RESET_CAUSE_VDDA else F.BOOT_RESET_CAUSE_VIO

/-- A monitored rail has left its tolerance: 0 `VDD`, 1 `VDDA_LN`, 2 `VDDA_HV`, 3 `VIO_18` (R416). -/
def State.railFault (s : State) (rail : Nat) : State :=
  ({ s with boot := { s.boot with railBad := true } }.toReset).p R.BOOT_RESET_CAUSE (railBit rail) 1

/-- Every monitored rail has been within tolerance for 1 ms (R416). -/
def State.railRecovery (s : State) : State :=
  if s.boot.power then { s with boot := { s.boot with railBad := false } } else s

/-- Ember takes main power as lost: it stores the power-fail time, and the device is without its supplies (R143,
R413). -/
def State.powerLoss (s : State) : State :=
  if s.boot.power then
    { s.storeFailTime with boot := { s.boot with power := false, railBad := true } }.toReset
  else s

/-- Ember takes main power as present (R413); the cause latch, powered from `VIO_18`, reads POWER_ON only (R416). -/
def State.powerUp (s : State) : State :=
  if s.boot.power then s
  else { s with boot := { s.boot with power := true } }.setReg R.BOOT_RESET_CAUSE (F.BOOT_RESET_CAUSE_POWER_ON.put 0#32 1)

/-- `VEMBER` falls below 1.70 V while it alone powers Ember (R143). -/
def State.emberLow (s : State) : State := if s.boot.power then s else s.emberLost

/-- Ember powers up from no supply at all (R143). -/
def State.emberStart (s : State) : State :=
  if s.boot.power then s else (s.emberCold).setHld { s.hld with emberAcc := 0 }

/-- The outcome of a command that reaches the device in reset too. -/
def doneAlways (s t : State) : Host.Outcome State Fault Refusal := .next (if t.inReset then t else endClock s t)

/-! ### RUN (R144, R417, R419) -/

/-- The device enters RUN and the hold of R419 is lifted. -/
def State.enterRun (s : State) : State :=
  let s := ((s.setBoot bootRunState).raw R.BOOT_RAW F.BOOT_RAW_RUN).setRegN R.BOOT_TIME s.us
  let s := s.guyMarkers
  if s.pairState = pairSolo then s else s.setWire (wireFrame s.rut.pairId s.ownClaim)

/-- The Ember edge of the seed (R144, R417). -/
def State.seedEdge (s : State) : State :=
  if s.bootState = bootSeed ∧ s.runs .timescale = true then
    let t := s.seed
    let t := if t.tsc.breaks = s.tsc.breaks then t else t.stepEffects (t96Sep t.raw96 s.raw96)
    t.enterRun
  else s

/-! ### A register-clock cycle in which no command comes -/

/-- Ember counts one register-clock cycle of 4 ns; its cycles run at 32,768 Hz, moved by TRIM cycles in 1,024 s (R140,
R141). -/
def State.emberClock (s : State) : State :=
  let trim := sx 12 (s.g R.HLD_EMB_TRIM F.HLD_EMB_TRIM_TRIM)
  let acc := s.hld.emberAcc + 4 * (33554432 + trim).toNat
  if acc < 1024000000000 then s.setHld { s.hld with emberAcc := acc }
  else
    let e := s.emberTime
    let s := s.setHld { s.hld with emberAcc := acc - 1024000000000 }
    if e.2 + 1 < 32768 then s.setEmberTime e.1 (e.2 + 1) else s.setEmberTime (e.1 + 1) 0

/-- `n` core clocks without a command (R440 to R443): cycle counters, and the slots of slices that take no frame. -/
def State.coreClocks (s : State) (n : Nat) : State :=
  let s := if s.pmcCounts then (List.range 3).foldl (fun s g => s.pmcAdd g 0 n) s else s
  let stalled : Nat → Bool := fun k => !(Tbl.get [] s.fwd.stalled k).isEmpty
  let s := (List.range 2).foldl (fun s k => if stalled k then (s.pmc k 4 n).pmc k 13 n else s.pmc k 3 n) s
  let s := if s.on R.QUE_STATUS F.QUE_STATUS_POOL_XOFF then s.pmc 2 7 n else s
  if stalled 0 || stalled 1 then s.pmc 2 12 n else s

/-- One register-clock cycle. -/
def State.idle (s : State) : State :=
  let s := s.emberClock
  if s.inReset then s
  else
    let s := { s with regClk := s.regClk + 1 }
    if s.runs .core then
      let c := s.coreClk8 + 25
      { s with coreClk8 := c }.coreClocks (c / 8 - s.coreClk8 / 8)
    else s

end Sys2Proof.Machine
end

