-- ==== Sys2Proof/Machine/CmdBoot.lean ====
section
/-! DEFINITION. The commands of reset and the boot pack (spec/16): one meaning each. -/

namespace Sys2Proof.Machine

/-- RESET_ASSERT (R415): RESET_L goes low and the pins are held quiet and registers at reset values. -/
def execResetAssert (s : State) : Host.Outcome State Fault Refusal :=
  doneAlways s s.resetAssert

/-- RESET_RELEASE (R417): RESET_L rises, straps are sampled and the boot sequencer starts in OTP. -/
def execResetRelease (straps : Fin 4) (s : State) : Host.Outcome State Fault Refusal :=
  doneAlways s (s.resetRelease straps)

/-- RAIL_FAULT (R416): A monitored rail leaves tolerance for 2 us and the device holds itself in reset. -/
def execRailFault (rail : Fin 4) (s : State) : Host.Outcome State Fault Refusal :=
  doneAlways s (s.railFault rail)

/-- RAIL_RECOVERY (R416): 1 ms after every monitored rail returns within tolerance the device releases itself. -/
def execRailRecovery (s : State) : Host.Outcome State Fault Refusal :=
  doneAlways s s.railRecovery

/-- OTP_READ_DONE (R418): The OTP read completes and factory calibration is copied or the boot fails with reason 1. -/
def execOtpReadDone (ok : Bool) (otp : Otp) (s : State) : Host.Outcome State Fault Refusal :=
  done s (s.otpDone ok otp)

/-- FLASH_DISCOVERY_DONE (R421): Flash discovery and the header check complete, writing OSC_FREQ or failing. -/
def execFlashDiscoveryDone (found : Bool) (jedec : BitVec 24) (size : Nat) (head : List Byte) (s : State) :
    Host.Outcome State Fault Refusal :=
  done s (s.flashFound found jedec.toNat size head)

/-- BOOT_CLOCK_TIMEOUT (R417): 500 ms pass in CLOCKS without lock and the boot fails with reason 12. -/
def execBootClockTimeout (s : State) : Host.Outcome State Fault Refusal :=
  done s s.clockTimeout

/-- PACK_VERIFY_DONE (R431): Pass 1 completes, every section valid, or a check fails and the boot fails. -/
def execPackVerifyDone (pack : List Byte) (s : State) : Host.Outcome State Fault Refusal :=
  done s (s.packVerify pack)

/-- BOOT_PACK_WRITE (R425): The boot pack applies one entry as a 32-bit write in pass 2. -/
def execBootPackWrite (again : Option (Nat × Word)) (s : State) : Host.Outcome State Fault Refusal :=
  done s (s.packWrite again)

/-- BOOT_PACK_WAIT (R425): A wait entry's pause elapses and applying continues. -/
def execBootPackWait (s : State) : Host.Outcome State Fault Refusal :=
  done s s.packWait

/-- PACK_APPLY_DONE (R432): Pass 2 completes with matching CRCs, or a reread mismatch fails the boot with APPLIED 1. -/
def execPackApplyDone (mismatch : Bool) (s : State) : Host.Outcome State Fault Refusal :=
  done s (s.packDone mismatch)

/-- BOOT_RETRY (R417): A write of BOOT_CMD.RETRY restarts boot in OTP or FLASH, or is refused after APPLIED. -/
def execBootRetry (v : Word) (s : State) : Host.Outcome State Fault Refusal :=
  done s (s.hostWrite (R.BOOT_CMD) (F.BOOT_CMD_RETRY.put v 1))

/-- FLASH_CMD_GO (R437): A write of BOOT_FLASH_CTRL.GO sends one raw flash command, or is refused. -/
def execFlashCmdGo (v : Word) (s : State) : Host.Outcome State Fault Refusal :=
  done s (s.hostWrite (R.BOOT_FLASH_CTRL) (F.BOOT_FLASH_CTRL_GO.put v 1))

/-- FLASH_CMD_DONE (R437): A host flash command ends, clearing BUSY and setting FLASH_DONE. -/
def execFlashCmdDone (data : List Byte) (s : State) : Host.Outcome State Fault Refusal :=
  done s (s.flashDone data)

end Sys2Proof.Machine
end

