-- ==== Sys2Proof/Machine/CmdFwd.lean ====
section
/-! DEFINITION. The commands of forwarding, queues and back-pressure (spec/09, spec/10): one meaning each. -/

namespace Sys2Proof.Machine

/-- FRAME_RECEIVE (R280): The first byte of a frame arrives and the frame is admitted or refused whole. -/
def execFrameReceive (port : Fin 24) (x : StampIn) (frame : List Byte) (s : State) :
    Host.Outcome State Fault Refusal :=
  done s (s.receive port x frame)

/-- FRAME_LOOKUP (R242): The parse window completes and a slice classifies, looks up and forms the destination set. -/
def execFrameLookup (port : Fin 25) (s : State) : Host.Outcome State Fault Refusal :=
  done s (s.frameLookup port)

/-- FRAME_END (R234): A frame's last byte is received and the frame is judged well-formed or discarded, and learning is
written. -/
def execFrameEnd (port : Fin 24) (how : RxEnd) (corr : Nat) (s : State) : Host.Outcome State Fault Refusal :=
  done s (s.frameEnd port how corr)

/-- LEARNING_SWEEP (R243): The sweep visits a learned entry, clearing HIT or invalidating the entry. -/
def execLearningSweep (entry : Fin 65536) (s : State) : Host.Outcome State Fault Refusal :=
  done s (s.sweepEntry (0x800000 + 32 * entry.val))

/-- TABLE_STAGE_WRITE (R244): A write to a non-commit word of a table entry is stored in the staging buffer. -/
def execTableStageWrite (addr : Nat) (v : Word) (s : State) : Host.Outcome State Fault Refusal :=
  done s (s.hostWrite addr v)

/-- TABLE_COMMIT (R244): A write to an entry's commit word copies the staged words into the table and advances the
epoch. -/
def execTableCommit (addr : Nat) (v : Word) (s : State) : Host.Outcome State Fault Refusal :=
  done s (s.hostWrite addr v)

/-- FWD_DRAIN (R247): A write of DRAIN sets DRAIN_PENDING and starts waiting for earlier descriptors to go. -/
def execFwdDrain (v : Word) (s : State) : Host.Outcome State Fault Refusal :=
  done s (s.hostWrite (R.FWD_DRAIN) (F.FWD_DRAIN_DRAIN.put v 1))

/-- DRAIN_DONE (R247): Every descriptor looked up before the drain has gone and DRAIN_DONE is set. -/
def execDrainDone (s : State) : Host.Outcome State Fault Refusal :=
  done s s.drainDone

/-- HOST_FRAME_INGEST (R259): A ring 0 descriptor's frame enters the device on P24, directly or through the slices. -/
def execHostFrameIngest (desc : List Byte) (mem : List Byte) (s : State) : Host.Outcome State Fault Refusal :=
  done s (s.hostIngest desc mem)

/-- HOST_FRAME_DELIVER (R260): A copy to P24 is written with its header into ring 1 descriptors. -/
def execHostFrameDeliver (s : State) : Host.Outcome State Fault Refusal :=
  done s s.hostDeliver

/-- EGRESS_SELECT (R270): At a frame end or idle slot a port chooses its next calendar, pass-list or ordinary copy. -/
def execEgressSelect (port : Fin 25) (x : StampIn) (s : State) : Host.Outcome State Fault Refusal :=
  done s (if port.val < 24 then s.egressSelect port x else s.hostDeliver)

/-- AGE_SCAN (R290): At least once per 1 ms the head of every queue is tested and aged heads are discarded. -/
def execAgeScan (s : State) : Host.Outcome State Fault Refusal :=
  done s s.ageScan

/-- SPILL_WRITE (R276): The spill engine writes copies of an over-full queue to the DRAM spill partition. -/
def execSpillWrite (q : Fin 200) (s : State) : Host.Outcome State Fault Refusal :=
  done s (s.spillWrite q)

/-- SPILL_READBACK (R277): A spilled queue's head falls below HEAD_KEEP / 2 and copies are read back from DRAM. -/
def execSpillReadback (q : Fin 200) (head : SpillHead) (s : State) : Host.Outcome State Fault Refusal :=
  done s (s.spillRead q head)

/-- SLICE_STALL_THRESHOLD (R282): A slice stall lasts STALL_NS and the stall cause of XOFF acts on every port. -/
def execSliceStallThreshold (s : State) : Host.Outcome State Fault Refusal :=
  done s s.stallReached

/-- PFC_TX (R286): Within 100 ns of a priority entering or leaving XOFF a PFC frame is sent. -/
def execPfcTx (port : Fin 24) (s : State) : Host.Outcome State Fault Refusal :=
  done s (s.pfcTx port)

/-- PFC_REFRESH (R286): Half of QUANTA elapses while a priority stays in XOFF and the PFC frame is resent. -/
def execPfcRefresh (port : Fin 24) (s : State) : Host.Outcome State Fault Refusal :=
  done s (s.pfcRefresh port)

/-- PFC_RX (R287): A received PFC frame pauses or releases priorities of the egress port. -/
def execPfcRx (port : Fin 24) (frame : List Byte) (s : State) : Host.Outcome State Fault Refusal :=
  done s (if s.running then s.pfcRx port frame else s)

/-- PAUSE_EXPIRY (R287): A pause time carried by a PFC frame runs out and the priority resumes. -/
def execPauseExpiry (port : Fin 24) (p : Fin 8) (s : State) : Host.Outcome State Fault Refusal :=
  done s (s.pauseEnd port p)

/-- CLAUSE31_PAUSE_RX (R285): A received Clause 31 PAUSE frame is consumed and ignored. -/
def execClause31PauseRx (port : Fin 24) (frame : List Byte) (s : State) : Host.Outcome State Fault Refusal :=
  done s (s.pauseRx port frame)

/-- DRAM_TRAINING_DONE (R428): DRAM initialisation ends with TRAINED set or with the failure handling of R274. -/
def execDramTrainingDone (bad : Fin 4) (s : State) : Host.Outcome State Fault Refusal :=
  done s (s.dramInitDone bad)

end Sys2Proof.Machine
end

