-- ==== Sys2Proof/Machine/CmdGuy.lean ====
section
/-! DEFINITION. The commands of Guyline (spec/14): one meaning each. -/

namespace Sys2Proof.Machine

/-- GUY_ENABLE (R374): A write of GUY_CTRL.EN to 1 starts the transmitter and moves the link to ACQUIRE. -/
def execGuyEnable (v : Word) (s : State) : Host.Outcome State Fault Refusal :=
  done s (s.hostWrite (R.GUY_CTRL) (F.GUY_CTRL_EN.put v 1))

/-- GUY_DISABLE (R374): A write of GUY_CTRL.EN to 0 stops the transmitter and moves the link to DOWN. -/
def execGuyDisable (v : Word) (s : State) : Host.Outcome State Fault Refusal :=
  done s (s.hostWrite (R.GUY_CTRL) (F.GUY_CTRL_EN.put v 0))

/-- GUY_LANE_LOS (R372): A Guyline lane's loss-of-signal detector is declared or cleared. -/
def execGuyLaneLos (l : Fin 4) (b : Bool) (s : State) : Host.Outcome State Fault Refusal :=
  done s (s.laneDetect F.GUY_STATUS_LOS l b)

/-- GUY_LANE_LOL (R372): A Guyline lane's loss-of-lock detector is declared or cleared. -/
def execGuyLaneLol (l : Fin 4) (b : Bool) (s : State) : Host.Outcome State Fault Refusal :=
  done s (s.laneLol l b)

/-- GUY_BLOCK_LOCK (R372): A Guyline lane gains or loses block lock, with polarity correction where enabled. -/
def execGuyBlockLock (l : Fin 4) (gained : Bool) (compl : Bool) (s : State) : Host.Outcome State Fault Refusal :=
  done s (s.blockLock l gained compl)

/-- GUY_MARKER_RX (R373): Marker blocks arrive and the lanes are aligned or a marker fails alignment. -/
def execGuyMarkerRx (l : List (BitVec 70 × Nat)) (s : State) : Host.Outcome State Fault Refusal :=
  done s (s.markerRx l)

/-- GUY_ALIGN_TIMEOUT (R374): The link stays 8 ms in ALIGN without alignment and returns to ACQUIRE. -/
def execGuyAlignTimeout (s : State) : Host.Outcome State Fault Refusal :=
  done s s.alignTimeout

/-- GUY_STREAM_ERROR (R379): A message fails CHECK or LEN, or a row holds a stuffing or SYNC error, and the stream
drops to the next pointer. -/
def execGuyStreamError (bad : StreamBad) (s : State) : Host.Outcome State Fault Refusal :=
  done s (s.streamBad bad)

end Sys2Proof.Machine
end

