-- ==== Sys2Proof/Machine/CmdHerd.lean ====
section
/-! DEFINITION. The commands of Herd (spec/11): one meaning each. -/

namespace Sys2Proof.Machine

/-- HERD_PLACE (R304): A Herd frame is whole in cells and each copy is placed in its port's calendar or judged at
placement. -/
def execHerdPlace (s : State) : Host.Outcome State Fault Refusal :=
  done s s.herdPlace

/-- HERD_DEPARTURE_DECISION (R303): In the clock of D minus T_x a calendar copy is judged and committed to depart. -/
def execHerdDepartureDecision (port : Fin 24) (x : StampIn) (s : State) : Host.Outcome State Fault Refusal :=
  done s (s.herdDecision port x)

/-- HERD_ADMISSION_SWEEP (R313): After a commit the reservation sums are recomputed and admission breaches reported. -/
def execHerdAdmissionSweep (s : State) : Host.Outcome State Fault Refusal :=
  done s s.herdSweep

end Sys2Proof.Machine
end

