-- ==== Sys2Proof/Machine/CmdHold.lean ====
section
/-! DEFINITION. The commands of holdover and Ember (spec/05): one meaning each. -/

namespace Sys2Proof.Machine

/-- MODEL_EVAL (R130): Once per tick-clock second the holdover model evaluates RATE. -/
def execModelEval (s : State) : Host.Outcome State Fault Refusal :=
  done s s.modelEval

/-- FIT_INTERVAL_END (R133): A 1,000 s fit interval ends, yielding a sample and a refit, or is discarded. -/
def execFitIntervalEnd (s : State) : Host.Outcome State Fault Refusal :=
  done s s.fitIntervalEnd

/-- MODEL_LOAD (R137): A write of LOAD copies the preset registers into the holdover model. -/
def execModelLoad (v : Word) (s : State) : Host.Outcome State Fault Refusal :=
  done s (s.hostWrite (R.HLD_CTRL) (F.HLD_CTRL_LOAD.put v 1))

/-- MODEL_CLEAR (R136): A write of CLEAR zeroes the model terms, table and validity flags. -/
def execModelClear (v : Word) (s : State) : Host.Outcome State Fault Refusal :=
  done s (s.hostWrite (R.HLD_CTRL) (F.HLD_CTRL_CLEAR.put v 1))

/-- TEMP_AXIS_CHANGE (R135): A write changing TEMP_SRC, TSTART or TBIN clears the table and sample ring. -/
def execTempAxisChange (v : Word) (s : State) : Host.Outcome State Fault Refusal :=
  done s (s.hostWrite R.HLD_TEMP_AXIS v)

/-- HOLDOVER_QUAL_LOST (R138): HOLD_S is exceeded or the reading stays 60 s in an unlearned bin and the episode becomes
unqualified. -/
def execHoldoverQualLost (bin : Bool) (s : State) : Host.Outcome State Fault Refusal :=
  done s (s.qualLost bin)

/-- EMBER_TRIM_UPDATE (R141): After 1,024 s of timescale the Ember trim is corrected from the cycle count. -/
def execEmberTrimUpdate (count : Nat) (s : State) : Host.Outcome State Fault Refusal :=
  done s (s.trimUpdate count)

/-- EMBER_RESYNC (R141): Ember's counts are loaded from the timescale at an Ember edge, setting VALID and SYNCED. -/
def execEmberResync (periodic : Bool) (s : State) : Host.Outcome State Fault Refusal :=
  done s (s.emberResync periodic)

/-- EMBER_RESYNC_CMD (R141): A write of RESYNC requests an immediate Ember resync. -/
def execEmberResyncCmd (v : Word) (s : State) : Host.Outcome State Fault Refusal :=
  done s (s.hostWrite (R.HLD_EMB_CTRL) (F.HLD_EMB_CTRL_RESYNC.put v 1))

/-- EMBER_INVALIDATE (R143): A write of INVALIDATE clears Ember VALID without setting LOST. -/
def execEmberInvalidate (v : Word) (s : State) : Host.Outcome State Fault Refusal :=
  done s (s.hostWrite (R.HLD_EMB_CTRL) (F.HLD_EMB_CTRL_INVALIDATE.put v 1))

/-- EMBER_SUPPLY_LOW (R143): VEMBER falls below 1.70 V while alone powering Ember, clearing VALID and setting LOST. -/
def execEmberSupplyLow (s : State) : Host.Outcome State Fault Refusal :=
  doneAlways s s.emberLow

/-- EMBER_COLD_START (R143): Ember powers up from no supply and starts with zero counts, VALID 0 and LOST 1. -/
def execEmberColdStart (s : State) : Host.Outcome State Fault Refusal :=
  doneAlways s s.emberStart

/-- MAIN_POWER_LOSS (R413): VIO_18 falls below 1.60 V and Ember stores the power-fail time. -/
def execMainPowerLoss (s : State) : Host.Outcome State Fault Refusal :=
  doneAlways s s.powerLoss

/-- MAIN_POWER_PRESENT (R413): VIO_18 stays above 1.65 V for 1 ms and Ember treats main power as present. -/
def execMainPowerPresent (s : State) : Host.Outcome State Fault Refusal :=
  doneAlways s s.powerUp

/-- EMBER_SEED (R144): At the next Ember edge before RUN the timescale is seeded by an absolute set, or the seed is
skipped. -/
def execEmberSeed (s : State) : Host.Outcome State Fault Refusal :=
  done s s.seedEdge

/-- EMBER_XTAL_STOP (R146): No Ember edge arrives for 1 ms with main power present, clearing VALID and queueing fault
0x03. -/
def execEmberXtalStop (s : State) : Host.Outcome State Fault Refusal :=
  done s s.xtalStop

end Sys2Proof.Machine
end

