-- ==== Sys2Proof/Machine/CmdHost.lean ====
section
/-! DEFINITION. The commands of the host interface (spec/02): one meaning each. -/

namespace Sys2Proof.Machine

/-- REGISTER_WRITE (R27): A host or I2C write to a register that has no row of its own is checked for width, mapping,
lock, freeze and legality, then stored with clamping. -/
def execRegisterWrite (src : Src) (addr : Nat) (whole : Bool) (words : List Word) (s : State) :
    Host.Outcome State Fault Refusal :=
  done s (s.writeReq src addr whole words)

/-- WRITE_ONCE (R44): A write to a W1 register is accepted once after reset and ignored and counted thereafter. -/
def execWriteOnce (src : Src) (addr : Nat) (v : Word) (s : State) : Host.Outcome State Fault Refusal :=
  done s (s.writeReq src addr true [v])

/-- READ_CLEAR (R26): A read covering byte 0 of an RCR register returns and clears its value, with a concurrent set
winning. -/
def execReadClear (src : Src) (addr : Nat) (len : Nat) (s : State) : Host.Outcome State Fault Refusal :=
  done s (s.readReq src addr len)

/-- READ_LOW_WORD (R31): A read of an RL word captures both halves of a 64-bit pair and latches the high half in the
source's shadow. -/
def execReadLowWord (src : Src) (addr : Nat) (len : Nat) (s : State) : Host.Outcome State Fault Refusal :=
  done s (s.readReq src addr len)

/-- WRITE_LOW_WORD (R33): A write to the low word of a writable pair is held in a write shadow. -/
def execWriteLowWord (addr : Nat) (v : Word) (s : State) : Host.Outcome State Fault Refusal :=
  done s (s.hostWrite addr v)

/-- WRITE_HIGH_WORD (R33): A write to the high word of a writable pair commits both halves in one clock. -/
def execWriteHighWord (addr : Nat) (v : Word) (s : State) : Host.Outcome State Fault Refusal :=
  done s (s.hostWrite addr v)

/-- BUS_TIMEOUT (R36): An access not completed within TIMEOUT_US is withdrawn, completed with the fault value and the
target domain treated as dead. -/
def execBusTimeout (src : Src) (s : State) : Host.Outcome State Fault Refusal :=
  done s (s.busTimeout src)

/-- DOMAIN_LIVE_AGAIN (R36): The crossing handshake of a domain treated as dead answers and the domain is live again.
-/
def execDomainLiveAgain (d : Dom) (s : State) : Host.Outcome State Fault Refusal :=
  done s (s.liveAgain d)

/-- CROSSING_RESET (R43): A one-sided reset of a crossing discards its content, re-arms it, counts and journals it. -/
def execCrossingReset (block : Fin 18) (blockSide : Bool) (s : State) : Host.Outcome State Fault Refusal :=
  done s (s.crossingReset block blockSide)

/-- PCIE_RESET (R24): A conventional reset, hot reset or link-down resets only the PCIe-side state of the host
interface. -/
def execPcieReset (s : State) : Host.Outcome State Fault Refusal :=
  done s s.pcieReset

/-- PCIE_LINK_DOWN (R24): The PCIe link leaves L0 other than by host request and LINK_DOWN is set. -/
def execPcieLinkDown (s : State) : Host.Outcome State Fault Refusal :=
  done s s.linkDown

/-- FUNCTION_LEVEL_RESET_F0 (R24): A Function Level Reset on F0 stops the DMA rings, clears interrupt enables and
empties MSI-X pending bits. -/
def execFunctionLevelResetF0 (s : State) : Host.Outcome State Fault Refusal :=
  done s (s.flrF0)

/-- FUNCTION_LEVEL_RESET_F1 (R24): A Function Level Reset on F1 resets F1's configuration space only. -/
def execFunctionLevelResetF1 (s : State) : Host.Outcome State Fault Refusal :=
  done s (s.flrF1)

/-- CFG_SCAN_COMMIT (R51): A write of COMMIT abandons the current scan and moves the scan checker to ARMING. -/
def execCfgScanCommit (v : Word) (s : State) : Host.Outcome State Fault Refusal :=
  done s (s.hostWrite (R.HIF_CFG_CRC_COMMIT) (F.HIF_CFG_CRC_COMMIT_COMMIT.put v 1))

/-- CFG_SCAN_UNFREEZE (R52): A write of UNFREEZE lifts a write freeze without changing STATE. -/
def execCfgScanUnfreeze (v : Word) (s : State) : Host.Outcome State Fault Refusal :=
  done s (s.hostWrite (R.HIF_CFG_CRC_COMMIT) (F.HIF_CFG_CRC_COMMIT_UNFREEZE.put v 1))

/-- CFG_SCAN_COMPLETE (R51): A configuration scan completes, its CRC is stored and compared under the scan state table.
-/
def execCfgScanComplete (upsets : List (Nat × Word)) (s : State) : Host.Outcome State Fault Refusal :=
  done s (s.scanComplete upsets)

/-- FQ_POP (R59): A write of POP removes the oldest fault record. -/
def execFqPop (v : Word) (s : State) : Host.Outcome State Fault Refusal :=
  done s (s.hostWrite (R.HIF_FQ_POP) (F.HIF_FQ_POP_POP.put v 1))

/-- DMA_RING_ENABLE (R60): A write of ENABLE starts or stops a DMA ring. -/
def execDmaRingEnable (k : Fin 3) (v : Word) (s : State) : Host.Outcome State Fault Refusal :=
  done s (s.hostWrite (R.HIF_DMAk_CTRL k) (F.HIF_DMAk_CTRL_ENABLE.put v 1))

/-- DMA_TAIL_WRITE (R61): A write of TAIL posts descriptors to a DMA ring. -/
def execDmaTailWrite (k : Fin 3) (v : Word) (s : State) : Host.Outcome State Fault Refusal :=
  done s (s.hostWrite (R.HIF_DMAk_TAIL k) v)

/-- DMA_DESCRIPTOR_DONE (R62): The device completes a descriptor, writing buffer, status and HEAD write-back in order.
-/
def execDmaDescriptorDone (k : Fin 3) (desc : List Byte) (s : State) : Host.Outcome State Fault Refusal :=
  done s (s.ringDone k desc)

/-- DMA_HOLDOFF_EXPIRY (R62): HOLDOFF_US elapses and a waiting ring vector message is sent. -/
def execDmaHoldoffExpiry (k : Fin 3) (s : State) : Host.Outcome State Fault Refusal :=
  done s (s.holdoff k)

/-- DMA_PCIE_ERROR (R63): A completion with Unsupported Request, Completer Abort or poisoned data stops the ring and
queues fault 0x03. -/
def execDmaPcieError (k : Fin 3) (s : State) : Host.Outcome State Fault Refusal :=
  done s (s.ringError k)

/-- I2C_ADDRESS_WRITE (R65): The board controller writes a 3-byte BAR0 address to the I2C target. -/
def execI2cAddressWrite (dev : BitVec 7) (b2 : Byte) (b1 : Byte) (b0 : Byte) (s : State) :
    Host.Outcome State Fault Refusal :=
  done s (s.i2cAddress dev b2 b1 b0)

/-- I2C_READ (R65): The board controller reads a register of type RO or RCS over I2C, stretching the clock across
domains. -/
def execI2cRead (dev : BitVec 7) (n : Nat) (s : State) : Host.Outcome State Fault Refusal :=
  done s (s.i2cRead dev n)

/-- DIE_TEMP_CONVERSION (R494): Every 1 ms the die sensors are converted and HIF_TEMP updated, with over-temperature
judged. -/
def execDieTempConversion (raw : Int) (code : Nat) (s : State) : Host.Outcome State Fault Refusal :=
  done s (s.dieTemp raw code)

end Sys2Proof.Machine
end

