-- ==== Sys2Proof/Machine/CmdPair.lean ====
section
/-! DEFINITION. The commands of the redundant pair (spec/14, spec/15): one meaning each. -/

namespace Sys2Proof.Machine

/-- CLAIM_MSG_RX (R377): A valid CLAIM message updates the partner's claim. -/
def execClaimMsgRx (msg : List Byte) (s : State) : Host.Outcome State Fault Refusal :=
  done s (s.guyDeliver 1 msg (fun _ p => s.claimRx p))

/-- HEARTBEAT_RX (R395): A HEARTBEAT is accepted or rejected and updates partner state and HB_OK. -/
def execHeartbeatRx (msg : List Byte) (s : State) : Host.Outcome State Fault Refusal :=
  done s (s.guyDeliver 2 msg (fun _ p => s.heartbeatRx p))

/-- TIME_MSG_RX (R381): A valid TIME message forms the partner offset and updates partner COND, candidate and QL. -/
def execTimeMsgRx (msg : List Byte) (x : StampIn) (s : State) : Host.Outcome State Fault Refusal :=
  done s (s.guyDeliver 3 msg (fun q p => s.timeRx (s.guyStamp false x) q p))

/-- COMMIT_RX (R404): A COMMIT completes a mirror batch or checkpoint when counts and CRC match, else discards it. -/
def execCommitRx (msg : List Byte) (s : State) : Host.Outcome State Fault Refusal :=
  done s (s.guyDeliver 4 msg (fun _ p => s.commitRx p))

/-- MIRROR_MSG_RX (R404): A MIRROR message's data is staged in the checkpoint partition. -/
def execMirrorMsgRx (msg : List Byte) (s : State) : Host.Outcome State Fault Refusal :=
  done s (s.guyDeliver 5 msg (fun _ p => s.mirrorRx p))

/-- CKPT_MSG_RX (R404): A CKPT message's data is written into a checkpoint slot. -/
def execCkptMsgRx (msg : List Byte) (s : State) : Host.Outcome State Fault Refusal :=
  done s (s.guyDeliver 6 msg (fun _ p => s.ckptRx p))

/-- BATCH_APPLY (R404): A completed mirror batch is applied to live state within 50 us. -/
def execBatchApply (s : State) : Host.Outcome State Fault Refusal :=
  done s s.batchApply

/-- CLAIM_MSG_TX (R394): A change of the own claim sends a CLAIM message at the first opportunity. -/
def execClaimMsgTx (s : State) : Host.Outcome State Fault Refusal :=
  done s s.claimTx

/-- HEARTBEAT_TX (R395): A HEARTBEAT is sent each HB_PERIOD_US and on a change of unit state. -/
def execHeartbeatTx (s : State) : Host.Outcome State Fault Refusal :=
  done s s.heartbeatTx

/-- TIME_MSG_TX (R380): A TIME message is sent once per 1 ms while TIME_EN and UP. -/
def execTimeMsgTx (x : StampIn) (s : State) : Host.Outcome State Fault Refusal :=
  done s (s.timeTx x)

/-- GUY_TIME_STALE (R381): No valid TIME message arrives for 4 ms while UP and TIME_STALE holds. -/
def execGuyTimeStale (s : State) : Host.Outcome State Fault Refusal :=
  done s s.timeStale

/-- MIRROR_BATCH_START (R402): Every MIRROR_US the active starts a mirror batch of time record and contexts. -/
def execMirrorBatchStart (s : State) : Host.Outcome State Fault Refusal :=
  done s s.mirrorStart

/-- CHECKPOINT_START (R403): Every CKPT_MS the active starts a checkpoint into the standby's free slot. -/
def execCheckpointStart (s : State) : Host.Outcome State Fault Refusal :=
  done s s.ckptStart

/-- CLAIM_WIRE_FRAME (R390): A claim-wire frame is received and the wire claim may be taken. -/
def execClaimWireFrame (f : BitVec 80) (s : State) : Host.Outcome State Fault Refusal :=
  done s (s.claimWire f)

/-- WIRE_STALE (R390): No valid claim-wire frame arrives for 10 us and the wire claim ceases to be fresh. -/
def execWireStale (s : State) : Host.Outcome State Fault Refusal :=
  done s s.wireStale

/-- BECOME_HIGHER (R392): The own claim has exceeded the partner claim in force for 10 us and the gates open. -/
def execBecomeHigher (s : State) : Host.Outcome State Fault Refusal :=
  done s s.becomeHigher

/-- HEARTBEAT_TIMEOUT (R396): HB_TIMEOUT passes since the last accepted HEARTBEAT and a heartbeat failure occurs. -/
def execHeartbeatTimeout (s : State) : Host.Outcome State Fault Refusal :=
  done s s.hbFail

/-- INIT_WAIT_EXPIRY (R397): INIT_WAIT elapses without an accepted HEARTBEAT and the unit enters STANDBY or ACTIVE. -/
def execInitWaitExpiry (s : State) : Host.Outcome State Fault Refusal :=
  done s s.initWait

/-- PAIR_ENABLE (R397): A write of PAIR_EN to 1 moves the unit from SOLO to INIT. -/
def execPairEnable (v : Word) (s : State) : Host.Outcome State Fault Refusal :=
  done s (s.hostWrite (R.RUT_CTRL) (F.RUT_CTRL_PAIR_EN.put v 1))

/-- PAIR_DISABLE (R397): A write of PAIR_EN to 0 moves the unit to SOLO. -/
def execPairDisable (v : Word) (s : State) : Host.Outcome State Fault Refusal :=
  done s (s.hostWrite (R.RUT_CTRL) (F.RUT_CTRL_PAIR_EN.put v 0))

/-- CHECKPOINT_APPLY_DONE (R406): In cold standby the valid checkpoint has been applied and the claim is raised. -/
def execCheckpointApplyDone (s : State) : Host.Outcome State Fault Refusal :=
  done s s.ckptApplied

/-- HANDOVER (R399): A write of RUT_CMD.HANDOVER requests the partner take over, or is refused. -/
def execHandover (v : Word) (s : State) : Host.Outcome State Fault Refusal :=
  done s (s.hostWrite (R.RUT_CMD) (F.RUT_CMD_HANDOVER.put v 1))

/-- RELEASE (R397): A write of RUT_CMD.RELEASE moves a HELD unit to STANDBY. -/
def execRelease (v : Word) (s : State) : Host.Outcome State Fault Refusal :=
  done s (s.hostWrite (R.RUT_CMD) (F.RUT_CMD_RELEASE.put v 1))

end Sys2Proof.Machine
end

