-- ==== Sys2Proof/Machine/CmdPmc.lean ====
section
/-! DEFINITION. The commands of performance counters and pins (spec/17, spec/19): one meaning each. -/

namespace Sys2Proof.Machine

/-- PMC_SNAP (R444): A write of PMC_SNAP.SNAP copies all counters into the snapshot registers. -/
def execPmcSnap (v : Word) (s : State) : Host.Outcome State Fault Refusal :=
  done s (s.hostWrite (R.PMC_SNAP) (F.PMC_SNAP_SNAP.put v 1))

/-- PMC_CLEAR (R444): A write of PMC_SNAP.CLEAR sets all counters and overflow bits to 0. -/
def execPmcClear (v : Word) (s : State) : Host.Outcome State Fault Refusal :=
  done s (s.hostWrite (R.PMC_SNAP) (F.PMC_SNAP_CLEAR.put v 1))

/-- PMC_FREEZE (R445): A write of FREEZE stops or resumes all counters. -/
def execPmcFreeze (v : Word) (s : State) : Host.Outcome State Fault Refusal :=
  done s (s.hostWrite R.PMC_CTRL v)

/-- PMC_SELECT_CHANGE (R446): A write changing a counter's select clears the counter and its overflow bit. -/
def execPmcSelectChange (g : Fin 3) (k : Fin 8) (v : Word) (s : State) : Host.Outcome State Fault Refusal :=
  done s (s.hostWrite (R.PMC_Gg_SELk g k) v)

/-- PMC_COUNTER_WRAP (R447): A 48-bit counter wraps, setting its overflow bit and possibly OVF. -/
def execPmcCounterWrap (g : Fin 3) (j : Fin 9) (s : State) : Host.Outcome State Fault Refusal :=
  done s (s.pmcWrap g j)

/-- PMC_USER_WRITE_DENIED (R448): An F1 write to the counter window is discarded and counted in DENIED. -/
def execPmcUserWriteDenied (off : Fin 32768) (v : Word) (s : State) : Host.Outcome State Fault Refusal :=
  done s (s.writeReq .f1 (off.val / 4 * 4) true [v])

/-- F1_STATUS_WRITE (R23): A write through the F1 status window is discarded and counted as narrow-or-illegal. -/
def execF1StatusWrite (off : Fin 256) (v : Word) (s : State) : Host.Outcome State Fault Refusal :=
  done s (s.writeReq .f1 (0x8000 + off.val / 4 * 4) true [v])

/-- PIN_FAULT_DECLARE (R488): A wiring fault on a protected pin persists for its declaration time and is declared. -/
def execPinFaultDeclare (p : Fin 36) (f : PinFault) (s : State) : Host.Outcome State Fault Refusal :=
  done s (s.pinDeclare p f)

/-- PIN_FAULT_CLEAR (R488): A declared wiring fault stays absent for 10 ms and is cleared. -/
def execPinFaultClear (p : Fin 36) (f : PinFault) (s : State) : Host.Outcome State Fault Refusal :=
  done s (s.pinClear p (pinFaultBits f).1)

/-- PIN_REVERSED (R489): Eight periods break the polarity hint, or a complemented claim SYNC arrives, and the pin is
reversed and may be inverted. -/
def execPinReversed (p : Fin 36) (s : State) : Host.Outcome State Fault Refusal :=
  done s (s.pinReversed p)

/-- SHORT_RETEST (R491): Every 10 ms a released shorted output is driven for 1 us to test for the short. -/
def execShortRetest (n : Fin 10) (gone : Bool) (s : State) : Host.Outcome State Fault Refusal :=
  done s (s.shortRetest n gone)

/-- UNMAPPED_READ (R29): A read of an unmapped address returns 0, increments HIF_ACCESS_FAULT.UNMAPPED and records the
address in HIF_ACCESS_ADDR. -/
def execUnmappedRead (src : Src) (addr : Nat) (len : Nat) (s : State) : Host.Outcome State Fault Refusal :=
  done s (s.readReq src addr len)

end Sys2Proof.Machine
end

