-- ==== Sys2Proof/Machine/CmdPort.lean ====
section
/-! DEFINITION. The commands of ports, lanes and link delay (spec/07, spec/18): one meaning each. -/

namespace Sys2Proof.Machine

/-- PD_SAMPLE (R180): A lane phase detector takes its per-microsecond sample and moves through its state table. -/
def execPdSample (port : Fin 25) (tx : Bool) (raw : Fin 8192) (s : State) : Host.Outcome State Fault Refusal :=
  done s ((s.detectorSample port tx raw))

/-- LANE_UNLOCK (R184): A lane PLL loses lock, gating the lane PCS, truncating a frame in transmission and queueing
fault 0x01. -/
def execLaneUnlock (lane : Fin 28) (sent : Option Nat) (s : State) : Host.Outcome State Fault Refusal :=
  done s (s.laneUnlock lane sent)

/-- LOOPBACK_GO (R187): A write of GO starts a loopback measurement on a port. -/
def execLoopbackGo (port : Fin 24) (v : Word) (s : State) : Host.Outcome State Fault Refusal :=
  done s (s.hostWrite (R.PTS_LOOP_CTRL port) (F.PTS_LOOP_CTRL_GO.put v 1))

/-- LOOPBACK_ABORT (R187): A write of ABORT ends a loopback measurement at once with VALID 0. -/
def execLoopbackAbort (port : Fin 24) (v : Word) (s : State) : Host.Outcome State Fault Refusal :=
  done s (s.hostWrite (R.PTS_LOOP_CTRL port) (F.PTS_LOOP_CTRL_ABORT.put v 1))

/-- LOOPBACK_FRAME_TX (R187): Every 10 us a calibration frame is sent during a loopback measurement. -/
def execLoopbackFrameTx (port : Fin 24) (x : StampIn) (s : State) : Host.Outcome State Fault Refusal :=
  done s (s.loopTx port x)

/-- LOOPBACK_FRAME_RETURN (R187): A calibration frame returns and a sample is taken. -/
def execLoopbackFrameReturn (port : Fin 24) (q : Nat) (x : StampIn) (s : State) : Host.Outcome State Fault Refusal :=
  done s (if s.running then s.loopRx port q x else s)

/-- LOOPBACK_FRAME_TIMEOUT (R187): A calibration frame does not return within 2 ms and is counted lost. -/
def execLoopbackFrameTimeout (port : Fin 24) (q : Nat) (s : State) : Host.Outcome State Fault Refusal :=
  done s (s.loopTimeout port q)

/-- LOOPBACK_DONE (R187): All frames returned or timed out; results are stored and the port returns to service. -/
def execLoopbackDone (port : Fin 24) (s : State) : Host.Outcome State Fault Refusal :=
  done s (s.loopDone port)

/-- LINK_DELAY_EXCHANGE (R188): A delay exchange hands four stamps to the link-delay unit, which discards or filters
the sample. -/
def execLinkDelayExchange (port : Fin 24) (t1 : Tick64) (t2 : Tick64) (t3 : Tick64) (t4 : Tick64) (bad : Bool) (s : State) :
    Host.Outcome State Fault Refusal :=
  done s (((s.ldExchange port t1 t2 t3 t4 bad).ptpLdCheck port))

/-- FTEMP_NOW_WRITE (R192): A write of PTS_FTEMP_NOW supplies the fibre temperature used from the next mean update. -/
def execFtempNowWrite (port : Fin 24) (v : Word) (s : State) : Host.Outcome State Fault Refusal :=
  done s (s.hostWrite (R.PTS_FTEMP_NOW port) v)

/-- FTEMP_STALE (R192): No fibre temperature write arrives for TIMEOUT_S and FTEMP_STALE holds. -/
def execFtempStale (port : Fin 24) (s : State) : Host.Outcome State Fault Refusal :=
  done s (s.ftempStale port)

/-- PTS_FIFO_POP (R197): A write of POP removes the oldest two-step stamp record. -/
def execPtsFifoPop (port : Fin 24) (v : Word) (s : State) : Host.Outcome State Fault Refusal :=
  done s (s.hostWrite (R.PTS_FIFO_POP port) (F.PTS_FIFO_POP_POP.put v 1))

end Sys2Proof.Machine
end

