-- ==== Sys2Proof/Machine/CmdPtp.lean ====
section
/-! DEFINITION. The commands of the PTP engine (spec/08): one meaning each. -/

namespace Sys2Proof.Machine

/-- ANNOUNCE_RX (R208): A consumed Announce is checked, accepted or rejected, and updates parent, claim and port state.
-/
def execAnnounceRx (port : Fin 24) (msg : List Byte) (s : State) : Host.Outcome State Fault Refusal :=
  done s (if s.running then s.announceRx port msg else s)

/-- SYNC_RX (R218): A Sync from the parent is received and, for one-step, forms an offset sample for the servo. -/
def execSyncRx (port : Fin 24) (msg : List Byte) (x : StampIn) (s : State) : Host.Outcome State Fault Refusal :=
  done s (if s.running then s.syncRx port msg x else s)

/-- FOLLOW_UP_RX (R218): A Follow_Up completes a two-step Sync and forms an offset sample. -/
def execFollowUpRx (port : Fin 24) (msg : List Byte) (s : State) : Host.Outcome State Fault Refusal :=
  done s (if s.running then s.followUpRx port msg else s)

/-- DELAY_REQ_RX (R207): A Delay_Req received on a MASTER port is answered with Delay_Resp. -/
def execDelayReqRx (port : Fin 24) (msg : List Byte) (x : StampIn) (s : State) : Host.Outcome State Fault Refusal :=
  done s (if s.running then s.delayReqRx port msg x else s)

/-- DELAY_RESP_TX (R206): A Delay_Resp leaves within 1 ms of the Delay_Req's receipt. -/
def execDelayRespTx (port : Fin 24) (s : State) : Host.Outcome State Fault Refusal :=
  done s (s.delayRespTx port)

/-- DELAY_RESP_RX (R207): A matching Delay_Resp completes the slave's delay exchange. -/
def execDelayRespRx (port : Fin 24) (msg : List Byte) (s : State) : Host.Outcome State Fault Refusal :=
  done s (if s.running then s.delayRespRx port msg else s)

/-- PDELAY_REQ_RX (R207): A Pdelay_Req is received and answered on any port. -/
def execPdelayReqRx (port : Fin 24) (msg : List Byte) (x : StampIn) (s : State) : Host.Outcome State Fault Refusal :=
  done s (if s.running then s.pdelayReqRx port msg x else s)

/-- PDELAY_RESP_TX (R206): A Pdelay_Resp leaves within 100 us of the Pdelay_Req. -/
def execPdelayRespTx (port : Fin 24) (x : StampIn) (s : State) : Host.Outcome State Fault Refusal :=
  done s (s.pdelayRespTx port x)

/-- PDELAY_RESP_RX (R207): A matching Pdelay_Resp completes or advances the port's peer-delay exchange. -/
def execPdelayRespRx (port : Fin 24) (msg : List Byte) (x : StampIn) (s : State) : Host.Outcome State Fault Refusal :=
  done s (if s.running then s.pdelayRespRx port msg x else s)

/-- PDELAY_RESP_FOLLOW_UP_RX (R207): A matching Pdelay_Resp_Follow_Up completes a two-step peer-delay exchange. -/
def execPdelayRespFollowUpRx (port : Fin 24) (msg : List Byte) (s : State) : Host.Outcome State Fault Refusal :=
  done s (if s.running then s.pdelayFollowRx port msg else s)

/-- PTP_MGMT_RX (R202): A consumed Management or Signaling message is handed to the host on P24. -/
def execPtpMgmtRx (port : Fin 24) (s : State) : Host.Outcome State Fault Refusal :=
  done s (if s.running then s.mgmtRx port else s)

/-- SYNC_TX (R206): A MASTER port sends Sync at its scheduled timescale instant. -/
def execSyncTx (port : Fin 24) (x : StampIn) (s : State) : Host.Outcome State Fault Refusal :=
  done s (s.syncTx port x)

/-- ANNOUNCE_TX (R209): A MASTER port sends Announce, with the claim TLV, at its scheduled instant. -/
def execAnnounceTx (port : Fin 24) (s : State) : Host.Outcome State Fault Refusal :=
  done s (s.announceTx port)

/-- FOLLOW_UP_TX (R206): In two-step operation a Follow_Up or Pdelay_Resp_Follow_Up leaves after its event message. -/
def execFollowUpTx (port : Fin 24) (s : State) : Host.Outcome State Fault Refusal :=
  done s (s.followTx port)

/-- DELAY_REQ_TX (R206): A SLAVE port sends Delay_Req after its random delay. -/
def execDelayReqTx (port : Fin 24) (x : StampIn) (s : State) : Host.Outcome State Fault Refusal :=
  done s (s.delayReqTx port x)

/-- PDELAY_REQ_TX (R206): A peer-delay port sends Pdelay_Req once per interval. -/
def execPdelayReqTx (port : Fin 24) (x : StampIn) (s : State) : Host.Outcome State Fault Refusal :=
  done s (s.pdelayReqTx port x)

/-- CLAIM_ANNOUNCE (R213): Within 1 ms of an own claim change each MASTER port sends an extra Announce. -/
def execClaimAnnounce (s : State) : Host.Outcome State Fault Refusal :=
  done s s.claimAnnounce

/-- ANNOUNCE_TIMEOUT (R205): No Announce is accepted for ANN_TIMEOUT intervals and the port returns to LISTENING. -/
def execAnnounceTimeout (port : Fin 24) (s : State) : Host.Outcome State Fault Refusal :=
  done s (s.announceTimeout port)

/-- FOLLOW_UP_TIMEOUT (R218): A two-step Sync has no Follow_Up within its interval and the sample is discarded. -/
def execFollowUpTimeout (port : Fin 24) (s : State) : Host.Outcome State Fault Refusal :=
  done s (s.followUpTimeout port)

/-- VALID_OFFSET_LAPSE (R219): The last accepted offset grows older than four Sync intervals and the valid offset
falls. -/
def execValidOffsetLapse (s : State) : Host.Outcome State Fault Refusal :=
  done s s.offsetLapse

/-- SERVO_FREEZE (R223): No sample is accepted for two Sync intervals and the servo enters FROZEN. -/
def execServoFreeze (s : State) : Host.Outcome State Fault Refusal :=
  done s s.servoFreeze

/-- TIGHT_SERVO_TICK (R221): Every 1 ms a tight-confirmed servo port forms its phase-based offset and updates the
servo. -/
def execTightServoTick (s : State) : Host.Outcome State Fault Refusal :=
  done s s.tightTick

/-- PCS_BLOCK_LOCK_LOSS (R205): A port loses PCS block lock, moving PTP to FAULTY and stopping transmission. -/
def execPcsBlockLockLoss (port : Fin 24) (signal : Bool) (s : State) : Host.Outcome State Fault Refusal :=
  done s ((s.lockLost port signal).settle)

/-- PCS_BLOCK_LOCK_GAIN (R205): A port gains PCS block lock and its PTP port returns to INIT. -/
def execPcsBlockLockGain (port : Fin 24) (s : State) : Host.Outcome State Fault Refusal :=
  done s (s.lockGained port)

/-- MAC_MODE_CHANGE (R471): A write changing FEC or EN changes the port's mode, recopying factory delays on FEC. -/
def execMacModeChange (port : Fin 24) (v : Word) (s : State) : Host.Outcome State Fault Refusal :=
  done s (s.hostWrite (R.MAC_Pn_CFG port) v)

end Sys2Proof.Machine
end

