-- ==== Sys2Proof/Machine/CmdRef.lean ====
section
/-! DEFINITION. The commands of reference selection (spec/04): one meaning each. -/

namespace Sys2Proof.Machine

/-- OSC_FREQ_MISMATCH (R97): OSC_IN measures more than 5 % from FREQ, clearing FREQ_OK and holding OSC_READY low. -/
def execOscFreqMismatch (khz : Nat) (s : State) : Host.Outcome State Fault Refusal :=
  done s (s.oscMismatch khz)

/-- OSC_FREQ_CHANGE (R156): A write changing REF_OSC_CFG.FREQ puts all OSC_IN loops into frequency hold to re-acquire
at the new ratio. -/
def execOscFreqChange (v : Word) (s : State) : Host.Outcome State Fault Refusal :=
  done s (s.hostWrite R.REF_OSC_CFG v)

/-- WARM_GATE (R98): A 1 s warm-up gate ends and the oscillator may be judged warm from the last ten results. -/
def execWarmGate (y : Int) (s : State) : Host.Outcome State Fault Refusal :=
  done s (s.warmGate y)

/-- WARM_TIMEOUT (R98): The count without a judging candidate reaches WARM_TIMEOUT_S and the oscillator is judged warm
by timeout. -/
def execWarmTimeout (s : State) : Host.Outcome State Fault Refusal :=
  done s s.warmTimeout

/-- OSC_WARM_CHANGE (R99): The OSC_WARM input changes level and OSC_READY is re-formed. -/
def execOscWarmChange (level : Bool) (s : State) : Host.Outcome State Fault Refusal :=
  done s (s.oscWarm level)

/-- REF_INPUT_EDGE (R102): A divided edge of a reference input is stamped, or lost as an overrun. -/
def execRefInputEdge (n : Fin 4) (ahead : Nat) (s : State) : Host.Outcome State Fault Refusal :=
  done s (s.refEdge n ahead)

/-- REF_INPUT_STUCK (R103): An input holds its level for STUCK_MS and is declared stuck. -/
def execRefInputStuck (n : Fin 4) (s : State) : Host.Outcome State Fault Refusal :=
  done s (s.refStuck n)

/-- REF_OVERRUN_INTERVAL (R104): A 1 ms interval ends with more than OVR_LIMIT lost edges and the input is disabled. -/
def execRefOverrunInterval (n : Fin 4) (s : State) : Host.Outcome State Fault Refusal :=
  done s (s.refOverrun n)

/-- REF_IN_REARM (R104): A write of REARM re-enables a disabled reference input. -/
def execRefInRearm (v : Word) (s : State) : Host.Outcome State Fault Refusal :=
  done s (s.hostWrite R.REF_IN_REARM v)

/-- ACTIVITY_INTERVAL (R106): An activity-monitor interval ends, passes or fails, and the monitor may accept or reject.
-/
def execActivityInterval (k : Fin 30) (s : State) : Host.Outcome State Fault Refusal :=
  done s (s.activityEnd k)

/-- FREQ_GATE (R107): A frequency-monitor gate ends, giving y and updating the frequency, drift and phase monitors. -/
def execFreqGate (k : Fin 30) (raw : Int) (s : State) : Host.Outcome State Fault Refusal :=
  done s (s.gateEnd k raw)

/-- HOLDOFF_EXPIRY (R111): A candidate's conditions hold for HOLDOFF_S and it becomes qualified. -/
def execHoldoffExpiry (k : Fin 30) (s : State) : Host.Outcome State Fault Refusal :=
  done s (s.holdoffExpiry k)

/-- WTR_EXPIRY (R118): A better entry has been qualified for WTR_S and a revertive move becomes due. -/
def execWtrExpiry (e : Fin 16) (s : State) : Host.Outcome State Fault Refusal :=
  done s (s.wtrExpiry e)

/-- ESMC_RX (R113): An ESMC PDU is received, consumed and, when valid, updates the port's QL. -/
def execEsmcRx (port : Fin 24) (frame : List Byte) (s : State) : Host.Outcome State Fault Refusal :=
  done s (s.esmcRx port frame)

/-- ESMC_TIMEOUT (R113): No valid ESMC PDU arrives on a port for 5 s and its QL becomes DNU. -/
def execEsmcTimeout (port : Fin 24) (s : State) : Host.Outcome State Fault Refusal :=
  done s (s.esmcTimeout port)

/-- ESMC_TX_INFO (R115): Once per second an information PDU is sent on each enabled port. -/
def execEsmcTxInfo (port : Fin 24) (s : State) : Host.Outcome State Fault Refusal :=
  done s (s.sendEsmc port false)

/-- ESMC_TX_EVENT (R115): Within 10 ms of a change of transmitted QL an event PDU is sent. -/
def execEsmcTxEvent (port : Fin 24) (s : State) : Host.Outcome State Fault Refusal :=
  done s (s.esmcEvent port)

/-- SELECTOR_DECISION (R120): Once per millisecond the selector evaluates its state table and moves between states. -/
def execSelectorDecision (err : Int) (rate : Int) (s : State) : Host.Outcome State Fault Refusal :=
  done s (s.selectorDecision err rate)

/-- TARGET_MEASURED (R121): The target's offset measurement completes and the step is applied through the slew guard.
-/
def execTargetMeasured (s : State) : Host.Outcome State Fault Refusal :=
  done s s.targetMeasured

/-- OSC_FREQ_OK_RESTORED (R97): OSC_IN measures again within 5 % of the FREQ setting, FREQ_OK is set, the OSC_FREQ_ERR
condition ends and OSC_READY is released. -/
def execOscFreqOkRestored (s : State) : Host.Outcome State Fault Refusal :=
  done s s.oscOk

end Sys2Proof.Machine
end

