-- ==== Sys2Proof/Machine/CmdSpoor.lean ====
section
/-! DEFINITION. The commands of the journal (spec/12): one meaning each. -/

namespace Sys2Proof.Machine

/-- JOURNAL_ENABLE (R329): A write of SPR_CTRL.EN to 1 starts record forming and arms the journal. -/
def execJournalEnable (v : Word) (s : State) : Host.Outcome State Fault Refusal :=
  done s (s.hostWrite (R.SPR_CTRL) (F.SPR_CTRL_EN.put v 1))

/-- JOURNAL_DISABLE (R329): A write of SPR_CTRL.EN to 0 stops record forming and drains the FIFO. -/
def execJournalDisable (v : Word) (s : State) : Host.Outcome State Fault Refusal :=
  done s (s.hostWrite (R.SPR_CTRL) (F.SPR_CTRL_EN.put v 0))

/-- RECORD_WRITE (R328): A journal record is committed to DRAM and WR_COUNT advances. -/
def execRecordWrite (s : State) : Host.Outcome State Fault Refusal :=
  done s s.recordWrite

/-- LOSS_RECORD (R330): The FIFO has 2,048 entries free and a LOSS record reporting losses is written. -/
def execLossRecord (s : State) : Host.Outcome State Fault Refusal :=
  done s s.lossRecord

/-- JOURNAL_FIRE (R331): A write of SPR_CMD.FIRE fires a journal trigger. -/
def execJournalFire (v : Word) (s : State) : Host.Outcome State Fault Refusal :=
  done s (s.hostWrite (R.SPR_CMD) (F.SPR_CMD_FIRE.put v 1))

/-- SPOOR_TRIG_EDGE (R331): An edge on SPOOR_TRIG fires trigger source 3. -/
def execSpoorTrigEdge (fall : Bool) (ns : Nat) (s : State) : Host.Outcome State Fault Refusal :=
  done s (s.pinTrig fall ns)

/-- JOURNAL_FREEZE (R332): POST records have been written after the trigger and the journal freezes. -/
def execJournalFreeze (s : State) : Host.Outcome State Fault Refusal :=
  done s s.sprFreeze

/-- JOURNAL_REARM (R332): A write of SPR_CMD.REARM moves a frozen journal back to ARMED. -/
def execJournalRearm (v : Word) (s : State) : Host.Outcome State Fault Refusal :=
  done s (s.hostWrite (R.SPR_CMD) (F.SPR_CMD_REARM.put v 1))

/-- JOURNAL_FETCH (R333): A write of SPR_CMD.FETCH starts copying one record into the staging registers. -/
def execJournalFetch (v : Word) (s : State) : Host.Outcome State Fault Refusal :=
  done s (s.hostWrite (R.SPR_CMD) (F.SPR_CMD_FETCH.put v 1))

/-- FETCH_DONE (R333): The staging fetch completes with its RESULT and FETCH_DONE is set. -/
def execFetchDone (s : State) : Host.Outcome State Fault Refusal :=
  done s s.fetchDone

/-- JOURNAL_BUFFER_DONE (R334): A ring 2 buffer completes full or at FROZEN_END and RD_COUNT advances. -/
def execJournalBufferDone (desc : List Byte) (s : State) : Host.Outcome State Fault Refusal :=
  done s (s.journalBuffer desc false)

/-- JOURNAL_BUFFER_IDLE (R334): With WAIT 0, no new record becomes readable for 100 us and a partial buffer completes.
-/
def execJournalBufferIdle (desc : List Byte) (s : State) : Host.Outcome State Fault Refusal :=
  done s (s.journalBuffer desc true)

/-- RD_COUNT_WRITE (R335): A write of SPR_RD_COUNT while ring 2 is disabled sets the readout index. -/
def execRdCountWrite (n : BitVec 64) (s : State) : Host.Outcome State Fault Refusal :=
  done s (s.writeRdCount n)

end Sys2Proof.Machine
end

