-- ==== Sys2Proof/Machine/CmdSyn.lean ====
section
/-! DEFINITION. The commands of synthesis (spec/06): one meaning each. -/

namespace Sys2Proof.Machine

/-- PLL_LOCK (R151): A loop declares lock after 4,096 reference periods within tolerance. -/
def execPllLock (l : Loop) (s : State) : Host.Outcome State Fault Refusal :=
  done s (s.pllLock l)

/-- PLL_LOCK_LOSS (R151): A loop declares loss of lock and enters frequency hold. -/
def execPllLockLoss (l : Loop) (cause : Fin 3) (sent : Option Nat) (s : State) : Host.Outcome State Fault Refusal :=
  done s (s.pllLoss l cause sent)

/-- DOMAIN_GATED (R152): After its drain a domain's clock stops and its state is held. -/
def execDomainGated (d : Dom) (s : State) : Host.Outcome State Fault Refusal :=
  done s (s.domainGated d)

/-- SETTLE_EXPIRY (R152): SETTLE_US elapses after a relock and the gated domain or outputs resume. -/
def execSettleExpiry (what : Settle) (s : State) : Host.Outcome State Fault Refusal :=
  done s (s.settleExpiry what)

/-- SYN_UPDATE_GO (R164): A write of SYN_UPDATE.GO sets PENDING and gates outputs under a frequency change. -/
def execSynUpdateGo (v : Word) (s : State) : Host.Outcome State Fault Refusal :=
  done s (s.hostWrite (R.SYN_UPDATE) (F.SYN_UPDATE_GO.put v 1))

/-- SYN_UPDATE_APPLY (R164): At the qualifying alignment edge all staged output values are applied together. -/
def execSynUpdateApply (s : State) : Host.Outcome State Fault Refusal :=
  done s s.updateTick

/-- CLAIM_SOURCE_SWITCH (R171): The winning claim changes and each claim-gated output moves to its new source. -/
def execClaimSourceSwitch (s : State) : Host.Outcome State Fault Refusal :=
  done s s.claimSwitch

/-- RELAY_INPUT_EDGE (R172): An edge arriving on a relay input RLY_On is passed to its output in relay mode, or dropped
and counted in DROPS with RELAY_DROP when it would break the frequency guard. -/
def execRelayInputEdge (n : Fin 10) (rise : Bool) (ahead : Nat) (s : State) : Host.Outcome State Fault Refusal :=
  done s (s.relayEdge n rise ahead)

end Sys2Proof.Machine
end

