-- ==== Sys2Proof/Machine/CmdTdc.lean ====
section
/-! DEFINITION. The commands of event timing (spec/13): one meaning each. -/

namespace Sys2Proof.Machine

/-- TDC_EDGE (R344): A selected edge on an event input is captured, or lost to dead time, overrun or glitch filter. -/
def execTdcEdge (e : Fin 8) (rise : Bool) (code : Nat) (since : Nat) (hold : Option Nat) (s : State) :
    Host.Outcome State Fault Refusal :=
  done s (s.eventEdge e rise code since hold)

/-- TDC_STAMP_CONVERSION (R344): The conversion engine converts a captured code into a stamp and passes it to units,
FIFO and journal. -/
def execTdcStampConversion (e : Fin 8) (s : State) : Host.Outcome State Fault Refusal :=
  done s (s.tdcConvert e)

/-- TDC_CAL_CYCLE_DONE (R345): A standby interpolator's calibration cycle completes and is judged valid or invalid. -/
def execTdcCalCycleDone (e : Fin 8) (b : Bool) (s1 : Nat) (s2 : Nat) (s : State) : Host.Outcome State Fault Refusal :=
  done s (s.calDone e b s1 s2)

/-- TDC_INTERPOLATOR_SWAP (R347): At a window opening or 1 ms point the channel's interpolators change roles. -/
def execTdcInterpolatorSwap (e : Fin 8) (at_ : SwapAt) (s : State) : Host.Outcome State Fault Refusal :=
  done s (s.swap e at_)

/-- TDC_STUCK (R351): An event input holds its level for STUCK_MS and the channel is stuck. -/
def execTdcStuck (e : Fin 8) (s : State) : Host.Outcome State Fault Refusal :=
  done s (s.tdcStuck e)

/-- TDC_OVERRUN_INTERVAL (R352): A 1 ms interval ends with more than OVR_LIMIT lost edges and the channel is disabled.
-/
def execTdcOverrunInterval (e : Fin 8) (s : State) : Host.Outcome State Fault Refusal :=
  done s (s.tdcInterval e)

/-- TDC_REARM (R352): A write of TDC_REARM re-enables a disabled channel after calibration. -/
def execTdcRearm (v : Word) (s : State) : Host.Outcome State Fault Refusal :=
  done s (s.hostWrite R.TDC_REARM v)

/-- TDC_FIFO_POP (R353): A write of POP removes the oldest stamp of a channel's host FIFO. -/
def execTdcFifoPop (e : Fin 8) (v : Word) (s : State) : Host.Outcome State Fault Refusal :=
  done s (s.hostWrite (R.TDC_En_FIFO_POP e) (F.TDC_En_FIFO_POP_POP.put v 1))

/-- TDC_WINDOW_START (R355): A start edge or second opens a measurement window, or is ignored as busy. -/
def execTdcWindowStart (m : Fin 4) (s : State) : Host.Outcome State Fault Refusal :=
  done s (s.windowStart m)

/-- TDC_WINDOW_CLOSE (R356): A window reaches its close instant and forms its frequency result or closing events. -/
def execTdcWindowClose (m : Fin 4) (s : State) : Host.Outcome State Fault Refusal :=
  done s (s.windowClose m)

end Sys2Proof.Machine
end

