-- ==== Sys2Proof/Machine/CmdTime.lean ====
section
/-! DEFINITION. The commands of the timescale (spec/03): one meaning each. -/

namespace Sys2Proof.Machine

/-- TIMESCALE_TICK (R69): On each 500 MHz tick every Tripod copy adds its increment, carries seconds and the voter
forms the voted state. -/
def execTimescaleTick (u0 : Copy) (u1 : Copy) (u2 : Copy) (s : State) : Host.Outcome State Fault Refusal :=
  done s (s.tick u0 u1 u2)

/-- SECOND_EVENT (R83): The voted seconds field exceeds the highest signalled value and the second event is signalled.
-/
def execSecondEvent (s : State) : Host.Outcome State Fault Refusal :=
  done s s.second

/-- TSC_NOW_CAPTURE (R72): A read of TSC_NOW_T0 captures the voted T96 time into the source's shadow. -/
def execTscNowCapture (src : Src) (len : Nat) (s : State) : Host.Outcome State Fault Refusal :=
  done s (s.readReq src R.TSC_NOW_T0 len)

/-- IMMEDIATE_STEP (R75): A GO with MODE 0 requests a host immediate step, accepted or refused. -/
def execImmediateStep (v : Word) (s : State) : Host.Outcome State Fault Refusal :=
  done s (s.hostWrite R.TSC_STEP_CTRL (F.TSC_STEP_CTRL_GO.put (F.TSC_STEP_CTRL_MODE.put v 0) 1))

/-- SECOND_ALIGNED_STEP (R75): A GO with MODE 1 requests a host step at the next seconds carry, accepted or refused. -/
def execSecondAlignedStep (v : Word) (s : State) : Host.Outcome State Fault Refusal :=
  done s (s.hostWrite R.TSC_STEP_CTRL (F.TSC_STEP_CTRL_GO.put (F.TSC_STEP_CTRL_MODE.put v 1) 1))

/-- ABSOLUTE_SET (R75): A GO with MODE 2 requests a host absolute set, accepted only in host steering. -/
def execAbsoluteSet (v : Word) (s : State) : Host.Outcome State Fault Refusal :=
  done s (s.hostWrite R.TSC_STEP_CTRL (F.TSC_STEP_CTRL_GO.put (F.TSC_STEP_CTRL_MODE.put v 2) 1))

/-- STEP_CANCEL (R78): A write of CANCEL withdraws a pending host step and journals the cancellation. -/
def execStepCancel (v : Word) (s : State) : Host.Outcome State Fault Refusal :=
  done s (s.hostWrite (R.TSC_STEP_CTRL) (F.TSC_STEP_CTRL_CANCEL.put v 1))

/-- STEP_APPLY (R77): A pending step is applied to all copies on its tick, reported, passed to synthesis and journaled.
-/
def execStepApply (s : State) : Host.Outcome State Fault Refusal :=
  done s s.stepApply

/-- CLR_SUSPECT (R91): A write of CLR_SUSPECT clears TSC_STATUS.SUSPECT. -/
def execClrSuspect (v : Word) (s : State) : Host.Outcome State Fault Refusal :=
  done s (s.hostWrite (R.TSC_TRIPOD_CTRL) (F.TSC_TRIPOD_CTRL_CLR_SUSPECT.put v 1))

/-- COPY_RESTORE (R92): A write of RESTORE reloads a fenced copy and returns the voter to triplex. -/
def execCopyRestore (copy : Fin 3) (v : Word) (s : State) : Host.Outcome State Fault Refusal :=
  done s (s.hostWrite R.TSC_TRIPOD_CTRL (F.TSC_TRIPOD_CTRL_RESTORE.put v (maskSet (F.TSC_TRIPOD_CTRL_RESTORE.get v) copy)))

/-- COPY_FENCE_CMD (R92): A write of FENCE fences a copy without a fault record while in triplex. -/
def execCopyFenceCmd (copy : Fin 3) (v : Word) (s : State) : Host.Outcome State Fault Refusal :=
  done s (s.hostWrite R.TSC_TRIPOD_CTRL (F.TSC_TRIPOD_CTRL_FENCE.put v (maskSet (F.TSC_TRIPOD_CTRL_FENCE.get v) copy)))

/-- TRIPOD_INJECT (R93): A write of ARM inverts one state bit of one copy on the next tick. -/
def execTripodInject (v : Word) (s : State) : Host.Outcome State Fault Refusal :=
  done s (s.hostWrite (R.TSC_TRIPOD_INJECT) (F.TSC_TRIPOD_INJECT_ARM.put v 1))

end Sys2Proof.Machine
end

