-- ==== Sys2Proof/Machine/Dispatch.lean ====
section
/-! DEFINITION. One arm for each command. -/

namespace Sys2Proof.Machine

def exec (i : Instr) (s : State) : Host.Outcome State Fault Refusal :=
  match i with
  | .registerWrite src addr whole words => Sys2Proof.Machine.execRegisterWrite src addr whole words s
  | .writeOnce src addr v => Sys2Proof.Machine.execWriteOnce src addr v s
  | .readClear src addr len => Sys2Proof.Machine.execReadClear src addr len s
  | .readLowWord src addr len => Sys2Proof.Machine.execReadLowWord src addr len s
  | .writeLowWord addr v => Sys2Proof.Machine.execWriteLowWord addr v s
  | .writeHighWord addr v => Sys2Proof.Machine.execWriteHighWord addr v s
  | .busTimeout src => Sys2Proof.Machine.execBusTimeout src s
  | .domainLiveAgain d => Sys2Proof.Machine.execDomainLiveAgain d s
  | .crossingReset block blockSide => Sys2Proof.Machine.execCrossingReset block blockSide s
  | .pcieReset => Sys2Proof.Machine.execPcieReset s
  | .pcieLinkDown => Sys2Proof.Machine.execPcieLinkDown s
  | .functionLevelResetF0 => Sys2Proof.Machine.execFunctionLevelResetF0 s
  | .functionLevelResetF1 => Sys2Proof.Machine.execFunctionLevelResetF1 s
  | .cfgScanCommit v => Sys2Proof.Machine.execCfgScanCommit v s
  | .cfgScanUnfreeze v => Sys2Proof.Machine.execCfgScanUnfreeze v s
  | .cfgScanComplete upsets => Sys2Proof.Machine.execCfgScanComplete upsets s
  | .fqPop v => Sys2Proof.Machine.execFqPop v s
  | .dmaRingEnable k v => Sys2Proof.Machine.execDmaRingEnable k v s
  | .dmaTailWrite k v => Sys2Proof.Machine.execDmaTailWrite k v s
  | .dmaDescriptorDone k desc => Sys2Proof.Machine.execDmaDescriptorDone k desc s
  | .dmaHoldoffExpiry k => Sys2Proof.Machine.execDmaHoldoffExpiry k s
  | .dmaPcieError k => Sys2Proof.Machine.execDmaPcieError k s
  | .i2cAddressWrite dev b2 b1 b0 => Sys2Proof.Machine.execI2cAddressWrite dev b2 b1 b0 s
  | .i2cRead dev n => Sys2Proof.Machine.execI2cRead dev n s
  | .dieTempConversion raw code => Sys2Proof.Machine.execDieTempConversion raw code s
  | .timescaleTick u0 u1 u2 => Sys2Proof.Machine.execTimescaleTick u0 u1 u2 s
  | .secondEvent => Sys2Proof.Machine.execSecondEvent s
  | .tscNowCapture src len => Sys2Proof.Machine.execTscNowCapture src len s
  | .immediateStep v => Sys2Proof.Machine.execImmediateStep v s
  | .secondAlignedStep v => Sys2Proof.Machine.execSecondAlignedStep v s
  | .absoluteSet v => Sys2Proof.Machine.execAbsoluteSet v s
  | .stepCancel v => Sys2Proof.Machine.execStepCancel v s
  | .stepApply => Sys2Proof.Machine.execStepApply s
  | .clrSuspect v => Sys2Proof.Machine.execClrSuspect v s
  | .copyRestore copy v => Sys2Proof.Machine.execCopyRestore copy v s
  | .copyFenceCmd copy v => Sys2Proof.Machine.execCopyFenceCmd copy v s
  | .tripodInject v => Sys2Proof.Machine.execTripodInject v s
  | .oscFreqMismatch khz => Sys2Proof.Machine.execOscFreqMismatch khz s
  | .oscFreqChange v => Sys2Proof.Machine.execOscFreqChange v s
  | .warmGate y => Sys2Proof.Machine.execWarmGate y s
  | .warmTimeout => Sys2Proof.Machine.execWarmTimeout s
  | .oscWarmChange level => Sys2Proof.Machine.execOscWarmChange level s
  | .refInputEdge n ahead => Sys2Proof.Machine.execRefInputEdge n ahead s
  | .refInputStuck n => Sys2Proof.Machine.execRefInputStuck n s
  | .refOverrunInterval n => Sys2Proof.Machine.execRefOverrunInterval n s
  | .refInRearm v => Sys2Proof.Machine.execRefInRearm v s
  | .activityInterval k => Sys2Proof.Machine.execActivityInterval k s
  | .freqGate k raw => Sys2Proof.Machine.execFreqGate k raw s
  | .holdoffExpiry k => Sys2Proof.Machine.execHoldoffExpiry k s
  | .wtrExpiry e => Sys2Proof.Machine.execWtrExpiry e s
  | .esmcRx port frame => Sys2Proof.Machine.execEsmcRx port frame s
  | .esmcTimeout port => Sys2Proof.Machine.execEsmcTimeout port s
  | .esmcTxInfo port => Sys2Proof.Machine.execEsmcTxInfo port s
  | .esmcTxEvent port => Sys2Proof.Machine.execEsmcTxEvent port s
  | .selectorDecision err rate => Sys2Proof.Machine.execSelectorDecision err rate s
  | .targetMeasured => Sys2Proof.Machine.execTargetMeasured s
  | .modelEval => Sys2Proof.Machine.execModelEval s
  | .fitIntervalEnd => Sys2Proof.Machine.execFitIntervalEnd s
  | .modelLoad v => Sys2Proof.Machine.execModelLoad v s
  | .modelClear v => Sys2Proof.Machine.execModelClear v s
  | .tempAxisChange v => Sys2Proof.Machine.execTempAxisChange v s
  | .holdoverQualLost bin => Sys2Proof.Machine.execHoldoverQualLost bin s
  | .emberTrimUpdate count => Sys2Proof.Machine.execEmberTrimUpdate count s
  | .emberResync periodic => Sys2Proof.Machine.execEmberResync periodic s
  | .emberResyncCmd v => Sys2Proof.Machine.execEmberResyncCmd v s
  | .emberInvalidate v => Sys2Proof.Machine.execEmberInvalidate v s
  | .emberSupplyLow => Sys2Proof.Machine.execEmberSupplyLow s
  | .emberColdStart => Sys2Proof.Machine.execEmberColdStart s
  | .mainPowerLoss => Sys2Proof.Machine.execMainPowerLoss s
  | .mainPowerPresent => Sys2Proof.Machine.execMainPowerPresent s
  | .emberSeed => Sys2Proof.Machine.execEmberSeed s
  | .emberXtalStop => Sys2Proof.Machine.execEmberXtalStop s
  | .pllLock l => Sys2Proof.Machine.execPllLock l s
  | .pllLockLoss l cause sent => Sys2Proof.Machine.execPllLockLoss l cause sent s
  | .domainGated d => Sys2Proof.Machine.execDomainGated d s
  | .settleExpiry what => Sys2Proof.Machine.execSettleExpiry what s
  | .synUpdateGo v => Sys2Proof.Machine.execSynUpdateGo v s
  | .synUpdateApply => Sys2Proof.Machine.execSynUpdateApply s
  | .claimSourceSwitch => Sys2Proof.Machine.execClaimSourceSwitch s
  | .pdSample port tx raw => Sys2Proof.Machine.execPdSample port tx raw s
  | .laneUnlock lane sent => Sys2Proof.Machine.execLaneUnlock lane sent s
  | .loopbackGo port v => Sys2Proof.Machine.execLoopbackGo port v s
  | .loopbackAbort port v => Sys2Proof.Machine.execLoopbackAbort port v s
  | .loopbackFrameTx port x => Sys2Proof.Machine.execLoopbackFrameTx port x s
  | .loopbackFrameReturn port q x => Sys2Proof.Machine.execLoopbackFrameReturn port q x s
  | .loopbackFrameTimeout port q => Sys2Proof.Machine.execLoopbackFrameTimeout port q s
  | .loopbackDone port => Sys2Proof.Machine.execLoopbackDone port s
  | .linkDelayExchange port t1 t2 t3 t4 bad => Sys2Proof.Machine.execLinkDelayExchange port t1 t2 t3 t4 bad s
  | .ftempNowWrite port v => Sys2Proof.Machine.execFtempNowWrite port v s
  | .ftempStale port => Sys2Proof.Machine.execFtempStale port s
  | .ptsFifoPop port v => Sys2Proof.Machine.execPtsFifoPop port v s
  | .announceRx port msg => Sys2Proof.Machine.execAnnounceRx port msg s
  | .syncRx port msg x => Sys2Proof.Machine.execSyncRx port msg x s
  | .followUpRx port msg => Sys2Proof.Machine.execFollowUpRx port msg s
  | .delayReqRx port msg x => Sys2Proof.Machine.execDelayReqRx port msg x s
  | .delayRespTx port => Sys2Proof.Machine.execDelayRespTx port s
  | .delayRespRx port msg => Sys2Proof.Machine.execDelayRespRx port msg s
  | .pdelayReqRx port msg x => Sys2Proof.Machine.execPdelayReqRx port msg x s
  | .pdelayRespTx port x => Sys2Proof.Machine.execPdelayRespTx port x s
  | .pdelayRespRx port msg x => Sys2Proof.Machine.execPdelayRespRx port msg x s
  | .pdelayRespFollowUpRx port msg => Sys2Proof.Machine.execPdelayRespFollowUpRx port msg s
  | .ptpMgmtRx port => Sys2Proof.Machine.execPtpMgmtRx port s
  | .syncTx port x => Sys2Proof.Machine.execSyncTx port x s
  | .announceTx port => Sys2Proof.Machine.execAnnounceTx port s
  | .followUpTx port => Sys2Proof.Machine.execFollowUpTx port s
  | .delayReqTx port x => Sys2Proof.Machine.execDelayReqTx port x s
  | .pdelayReqTx port x => Sys2Proof.Machine.execPdelayReqTx port x s
  | .claimAnnounce => Sys2Proof.Machine.execClaimAnnounce s
  | .announceTimeout port => Sys2Proof.Machine.execAnnounceTimeout port s
  | .followUpTimeout port => Sys2Proof.Machine.execFollowUpTimeout port s
  | .validOffsetLapse => Sys2Proof.Machine.execValidOffsetLapse s
  | .servoFreeze => Sys2Proof.Machine.execServoFreeze s
  | .tightServoTick => Sys2Proof.Machine.execTightServoTick s
  | .pcsBlockLockLoss port signal => Sys2Proof.Machine.execPcsBlockLockLoss port signal s
  | .pcsBlockLockGain port => Sys2Proof.Machine.execPcsBlockLockGain port s
  | .macModeChange port v => Sys2Proof.Machine.execMacModeChange port v s
  | .frameReceive port x frame => Sys2Proof.Machine.execFrameReceive port x frame s
  | .frameLookup port => Sys2Proof.Machine.execFrameLookup port s
  | .frameEnd port how corr => Sys2Proof.Machine.execFrameEnd port how corr s
  | .learningSweep entry => Sys2Proof.Machine.execLearningSweep entry s
  | .tableStageWrite addr v => Sys2Proof.Machine.execTableStageWrite addr v s
  | .tableCommit addr v => Sys2Proof.Machine.execTableCommit addr v s
  | .fwdDrain v => Sys2Proof.Machine.execFwdDrain v s
  | .drainDone => Sys2Proof.Machine.execDrainDone s
  | .hostFrameIngest desc mem => Sys2Proof.Machine.execHostFrameIngest desc mem s
  | .hostFrameDeliver => Sys2Proof.Machine.execHostFrameDeliver s
  | .egressSelect port x => Sys2Proof.Machine.execEgressSelect port x s
  | .ageScan => Sys2Proof.Machine.execAgeScan s
  | .spillWrite q => Sys2Proof.Machine.execSpillWrite q s
  | .spillReadback q head => Sys2Proof.Machine.execSpillReadback q head s
  | .sliceStallThreshold => Sys2Proof.Machine.execSliceStallThreshold s
  | .pfcTx port => Sys2Proof.Machine.execPfcTx port s
  | .pfcRefresh port => Sys2Proof.Machine.execPfcRefresh port s
  | .pfcRx port frame => Sys2Proof.Machine.execPfcRx port frame s
  | .pauseExpiry port p => Sys2Proof.Machine.execPauseExpiry port p s
  | .clause31PauseRx port frame => Sys2Proof.Machine.execClause31PauseRx port frame s
  | .dramTrainingDone bad => Sys2Proof.Machine.execDramTrainingDone bad s
  | .herdPlace => Sys2Proof.Machine.execHerdPlace s
  | .herdDepartureDecision port x => Sys2Proof.Machine.execHerdDepartureDecision port x s
  | .herdAdmissionSweep => Sys2Proof.Machine.execHerdAdmissionSweep s
  | .journalEnable v => Sys2Proof.Machine.execJournalEnable v s
  | .journalDisable v => Sys2Proof.Machine.execJournalDisable v s
  | .recordWrite => Sys2Proof.Machine.execRecordWrite s
  | .lossRecord => Sys2Proof.Machine.execLossRecord s
  | .journalFire v => Sys2Proof.Machine.execJournalFire v s
  | .spoorTrigEdge fall ns => Sys2Proof.Machine.execSpoorTrigEdge fall ns s
  | .journalFreeze => Sys2Proof.Machine.execJournalFreeze s
  | .journalRearm v => Sys2Proof.Machine.execJournalRearm v s
  | .journalFetch v => Sys2Proof.Machine.execJournalFetch v s
  | .fetchDone => Sys2Proof.Machine.execFetchDone s
  | .journalBufferDone desc => Sys2Proof.Machine.execJournalBufferDone desc s
  | .journalBufferIdle desc => Sys2Proof.Machine.execJournalBufferIdle desc s
  | .rdCountWrite n => Sys2Proof.Machine.execRdCountWrite n s
  | .tdcEdge e rise code since hold => Sys2Proof.Machine.execTdcEdge e rise code since hold s
  | .tdcStampConversion e => Sys2Proof.Machine.execTdcStampConversion e s
  | .tdcCalCycleDone e b s1 s2 => Sys2Proof.Machine.execTdcCalCycleDone e b s1 s2 s
  | .tdcInterpolatorSwap e at_ => Sys2Proof.Machine.execTdcInterpolatorSwap e at_ s
  | .tdcStuck e => Sys2Proof.Machine.execTdcStuck e s
  | .tdcOverrunInterval e => Sys2Proof.Machine.execTdcOverrunInterval e s
  | .tdcRearm v => Sys2Proof.Machine.execTdcRearm v s
  | .tdcFifoPop e v => Sys2Proof.Machine.execTdcFifoPop e v s
  | .tdcWindowStart m => Sys2Proof.Machine.execTdcWindowStart m s
  | .tdcWindowClose m => Sys2Proof.Machine.execTdcWindowClose m s
  | .guyEnable v => Sys2Proof.Machine.execGuyEnable v s
  | .guyDisable v => Sys2Proof.Machine.execGuyDisable v s
  | .guyLaneLos l b => Sys2Proof.Machine.execGuyLaneLos l b s
  | .guyLaneLol l b => Sys2Proof.Machine.execGuyLaneLol l b s
  | .guyBlockLock l gained compl => Sys2Proof.Machine.execGuyBlockLock l gained compl s
  | .guyMarkerRx l => Sys2Proof.Machine.execGuyMarkerRx l s
  | .guyAlignTimeout => Sys2Proof.Machine.execGuyAlignTimeout s
  | .guyStreamError bad => Sys2Proof.Machine.execGuyStreamError bad s
  | .claimMsgRx msg => Sys2Proof.Machine.execClaimMsgRx msg s
  | .heartbeatRx msg => Sys2Proof.Machine.execHeartbeatRx msg s
  | .timeMsgRx msg x => Sys2Proof.Machine.execTimeMsgRx msg x s
  | .commitRx msg => Sys2Proof.Machine.execCommitRx msg s
  | .mirrorMsgRx msg => Sys2Proof.Machine.execMirrorMsgRx msg s
  | .ckptMsgRx msg => Sys2Proof.Machine.execCkptMsgRx msg s
  | .batchApply => Sys2Proof.Machine.execBatchApply s
  | .claimMsgTx => Sys2Proof.Machine.execClaimMsgTx s
  | .heartbeatTx => Sys2Proof.Machine.execHeartbeatTx s
  | .timeMsgTx x => Sys2Proof.Machine.execTimeMsgTx x s
  | .guyTimeStale => Sys2Proof.Machine.execGuyTimeStale s
  | .mirrorBatchStart => Sys2Proof.Machine.execMirrorBatchStart s
  | .checkpointStart => Sys2Proof.Machine.execCheckpointStart s
  | .claimWireFrame f => Sys2Proof.Machine.execClaimWireFrame f s
  | .wireStale => Sys2Proof.Machine.execWireStale s
  | .becomeHigher => Sys2Proof.Machine.execBecomeHigher s
  | .heartbeatTimeout => Sys2Proof.Machine.execHeartbeatTimeout s
  | .initWaitExpiry => Sys2Proof.Machine.execInitWaitExpiry s
  | .pairEnable v => Sys2Proof.Machine.execPairEnable v s
  | .pairDisable v => Sys2Proof.Machine.execPairDisable v s
  | .checkpointApplyDone => Sys2Proof.Machine.execCheckpointApplyDone s
  | .handover v => Sys2Proof.Machine.execHandover v s
  | .release v => Sys2Proof.Machine.execRelease v s
  | .resetAssert => Sys2Proof.Machine.execResetAssert s
  | .resetRelease straps => Sys2Proof.Machine.execResetRelease straps s
  | .railFault rail => Sys2Proof.Machine.execRailFault rail s
  | .railRecovery => Sys2Proof.Machine.execRailRecovery s
  | .otpReadDone ok otp => Sys2Proof.Machine.execOtpReadDone ok otp s
  | .flashDiscoveryDone found jedec size head => Sys2Proof.Machine.execFlashDiscoveryDone found jedec size head s
  | .bootClockTimeout => Sys2Proof.Machine.execBootClockTimeout s
  | .packVerifyDone pack => Sys2Proof.Machine.execPackVerifyDone pack s
  | .bootPackWrite again => Sys2Proof.Machine.execBootPackWrite again s
  | .bootPackWait => Sys2Proof.Machine.execBootPackWait s
  | .packApplyDone mismatch => Sys2Proof.Machine.execPackApplyDone mismatch s
  | .bootRetry v => Sys2Proof.Machine.execBootRetry v s
  | .flashCmdGo v => Sys2Proof.Machine.execFlashCmdGo v s
  | .flashCmdDone data => Sys2Proof.Machine.execFlashCmdDone data s
  | .pmcSnap v => Sys2Proof.Machine.execPmcSnap v s
  | .pmcClear v => Sys2Proof.Machine.execPmcClear v s
  | .pmcFreeze v => Sys2Proof.Machine.execPmcFreeze v s
  | .pmcSelectChange g k v => Sys2Proof.Machine.execPmcSelectChange g k v s
  | .pmcCounterWrap g j => Sys2Proof.Machine.execPmcCounterWrap g j s
  | .pmcUserWriteDenied off v => Sys2Proof.Machine.execPmcUserWriteDenied off v s
  | .f1StatusWrite off v => Sys2Proof.Machine.execF1StatusWrite off v s
  | .pinFaultDeclare p f => Sys2Proof.Machine.execPinFaultDeclare p f s
  | .pinFaultClear p f => Sys2Proof.Machine.execPinFaultClear p f s
  | .pinReversed p => Sys2Proof.Machine.execPinReversed p s
  | .shortRetest n gone => Sys2Proof.Machine.execShortRetest n gone s
  | .unmappedRead src addr len => Sys2Proof.Machine.execUnmappedRead src addr len s
  | .relayInputEdge n rise ahead => Sys2Proof.Machine.execRelayInputEdge n rise ahead s
  | .oscFreqOkRestored => Sys2Proof.Machine.execOscFreqOkRestored s

end Sys2Proof.Machine
end

