-- ==== Sys2Proof/Safety.lean ====
section
/-! DEFINITION. What counts as a sound state: the sparse tables are in their canonical forms, and the queues hold no
more than the spec lets them.  Claims about every step are stated in these terms. -/

namespace Sys2Proof.Machine

/-- The register store lists each register once, in address order, and only registers that differ from their reset
value. -/
def State.regsOk (s : State) : Prop := Tbl.wf regReset s.regs = true

/-- DRAM lists each byte once, in address order, and only bytes that differ from what an unlisted byte reads as. -/
def State.dramOk (s : State) : Prop := Memory.wf s.dram = true

/-- The fault-record queue holds at most 32 records (R59). -/
def State.faultsOk (s : State) : Prop := s.hif.fq.length ≤ 32

/-- The journal's write FIFO holds at most 4,096 records (R330). -/
def State.fifoOk (s : State) : Prop := s.spr.fifo.length ≤ 4096

/-- What forwarding holds is in range: each frame has an identity of its own, came in on one of ports 0 to 24 with a
priority 0 to 7, and its copies, waiting or still to be made, are for ports 0 to 24 (in calendars and in transmission 0 to
23) and classes 0 to 7. -/
abbrev State.fwdOk (s : State) : Prop :=
  (s.fwd.frames.map (fun f => f.id)).Nodup ∧
  (∀ f ∈ s.fwd.frames, f.id < s.fwd.nextId ∧ f.port < 25 ∧ f.prio < 8 ∧ (∀ n ∈ f.toPlace, n < 24) ∧
    ∀ l ∈ f.look, l.cls < 8 ∧ l.fc.getD 0 < 16384 ∧ ∀ n ∈ l.dests, n < 25) ∧
  (∀ p ∈ s.fwd.queues, ∀ c ∈ p.2, c.port < 25 ∧ c.cls < 8 ∧ c.queue = p.1) ∧
  (∀ p ∈ s.fwd.cals, p.1 < 24 ∧ ∀ c ∈ p.2, c.port = p.1) ∧
  (∀ p ∈ s.fwd.passes, p.1 < 24 ∧ ∀ c ∈ p.2, c.port = p.1) ∧
  ∀ p ∈ s.fwd.sending, p.1 < 24 ∧ ∀ x ∈ p.2, x.copy.port = p.1 ∧ x.copy.cls < 8

/-- A sound state. -/
def State.sound (s : State) : Prop := s.regsOk ∧ s.dramOk ∧ s.faultsOk ∧ s.fifoOk

/-- Every condition that holds shows in its raw status bit (R53). -/
def State.condsShown (s : State) : Prop :=
  ∀ p ∈ s.conds, (rawBlock p.1).isSome = true → s.reg p.1 &&& p.2 = p.2

/-! ### Frames -/

/-- The registers that any command may change beside its own: raw status (R53), the journal's counts and status (R320
to R332), the depth of the fault-record queue (R59), MSI-X pending bits (R56) and event counters (R440). -/
def sharedReg (a : Nat) : Bool :=
  (rawBlock a).isSome || a == R.SPR_STATUS || a == R.SPR_CNT_LOST_SEL || a == R.SPR_CNT_LOST_MAND ||
    a == R.SPR_CNT_FROZEN || a == R.SPR_TRIG_STATUS || a == R.SPR_TRIG_COUNT_LO || a == R.SPR_TRIG_COUNT_HI ||
    a == R.HIF_FQ_STATUS || a == 0x9000 || a == R.PMC_OVF ||
    (decide (0x80000 ≤ a) && decide (a < 0x80300) && decide (a % 0x100 < 0x48))

/-- From `s` to `t` every register is as it was, but the shared ones and those of `l`. -/
def State.sameBut (s t : State) (l : List Nat) : Prop := ∀ a : Nat, sharedReg a = false → a ∉ l → t.reg a = s.reg a

/-- From `s` to `t` every register is as it was, but the shared ones and those that lie in a range of `l` (from its
first address to below its second). -/
def State.sameBeyond (s t : State) (l : List (Nat × Nat)) : Prop :=
  ∀ a : Nat, sharedReg a = false → (∀ r ∈ l, ¬ (r.1 ≤ a ∧ a < r.2)) → t.reg a = s.reg a

/-- The parts of the state beside the registers, DRAM, the queue of commands, and the three that any command may add to:
the journal, the fault-record queue and what has left the block. -/
inductive Part where
  | hif | shadows | once | conds | gated | clocks | free | tsc | ref | hld | syn | pts | ptp | fwd | tdc | guy | rut | boot
  deriving DecidableEq, Repr

/-- Part `p` is the same in `s` and `t`. -/
def Part.same (p : Part) (s t : State) : Prop :=
  match p with
  | .hif => t.hif = { s.hif with fq := t.hif.fq }
  | .shadows => t.rshadow = s.rshadow ∧ t.wshadow = s.wshadow
  | .once => t.w1done = s.w1done
  | .conds => t.conds = s.conds
  | .gated => t.gated = s.gated
  | .clocks => t.regClk = s.regClk ∧ t.coreClk8 = s.coreClk8
  | .free => t.freeIdx = s.freeIdx
  | .tsc => t.tsc = s.tsc
  | .ref => t.ref = s.ref
  | .hld => t.hld = s.hld
  | .syn => t.syn = s.syn
  | .pts => t.pts = s.pts
  | .ptp => t.ptp = s.ptp
  | .fwd => t.fwd = s.fwd
  | .tdc => t.tdc = s.tdc
  | .guy => t.guy = s.guy
  | .rut => t.rut = s.rut
  | .boot => t.boot = s.boot

/-- From `s` to `t` every part of the state is as it was, but those of `l`. -/
def State.sameParts (s t : State) (l : List Part) : Prop := ∀ p : Part, p ∉ l → p.same s t

/-- Every byte of DRAM is as it was. -/
def State.sameDram (s t : State) : Prop := ∀ a : Nat, t.dramByte a = s.dramByte a

/-- The field `f` of register `a` is set in `t`. -/
abbrev State.isSet (t : State) (a : Nat) (f : Fld) : Prop := t.g a f = 1

/-- An access of engine `src` to address `a` takes effect at once (R36, R38, R42): the device is out of reset, the domain
of `a` runs and answers, and no earlier access of the engine waits, nor, for F0, outside its limit of posted writes. -/
abbrev State.reaches (s : State) (src : Src) (a : Nat) : Prop :=
  s.inReset = false ∧ s.runs (accessDom src a) = true ∧ s.hif.dead.contains (accessDom src a) = false ∧
    s.hif.held.any (fun y => decide (y.src = src)) = false ∧ (src = .f0 → s.flowHeld = false)

/-- A one-word write over F0 to register `a` takes effect at once and is accepted (R29, R44 to R46, R60): nothing has it
ignored or refused, and it is not the write that the journal's trigger watches. -/
abbrev State.accepts (s : State) (a : Nat) : Prop :=
  s.reaches .f0 a ∧ s.whyIgnored .f0 a = none ∧ s.stepHeld a = false ∧ s.writeTriggers .f0 a = false

/-- A register of its own: a mapped word outside the tables, no half of a writable pair and not write-once. -/
def ownWord (a : Nat) : Bool :=
  mapped a && a % 4 == 0 && !isTable a && !isMsixTable a && !isPba a && !isPairLo a && !isPairHi a && !holds a .w1

/-- Between `s` and `t` the block sends `o`, as the first thing that leaves it. -/
abbrev State.emits (s t : State) (o : Out) : Prop := s.out ++ [o] <+: t.out

/-- The command completes, with a next state of which `P` holds. -/
def Answers (o : Host.Outcome State Fault Refusal) (P : State → Prop) : Prop := ∃ t, o = .next t ∧ P t

end Sys2Proof.Machine
end

