-- ==== Sys2Proof/Certificates/Slice0/Obligations.lean ====
section
/-! DEFINITION. The statements about the block: the rules that hold of every step, then, family by family, what each
command does and what it leaves as it was. -/

open Sys2Proof Sys2Proof.Machine

/-- A step of `s` with `c` at the front of its queue is `exec c` on `s` with the rest of the queue. -/
def Obligations.StepRunsFront : Prop :=
  ∀ (c : Instr) (l : List Instr) (s : State), step { s with pending := c :: l } = exec c { s with pending := l }

/-- The choice of the model of log entry 6: with no command waiting a step lasts one 4 ns cycle of the register
clock; out of reset the register clock counts it, the core clock counts 25/8 of its cycles while its domain runs,
Ember runs, and the timescale, the frames and DRAM stay as they are; in reset only Ember runs. -/
def Obligations.IdleStep : Prop :=
  (∀ s : State, s.pending = [] → s.inReset = false → Answers (step s) fun t =>
      t.regClk = s.regClk + 1 ∧ t.coreClk8 = (if s.runs .core then s.coreClk8 + 25 else s.coreClk8) ∧
      t.hld.emberAcc = s.emberClock.hld.emberAcc ∧ t.emberTime = s.emberClock.emberTime ∧ t.pending = [] ∧
      s.sameBut t [R.HLD_EMB_TIME_LO, R.HLD_EMB_TIME_HI] ∧ s.sameParts t [.clocks, .hld] ∧ s.sameDram t) ∧
  (∀ s : State, s.pending = [] → s.inReset = true → step s = .next s.emberClock)

/-- R12, R13, R67 and R163: the state after reset is sound and shows its conditions, no command waits, every byte of
DRAM reads 0 (the choice of the model, log entry 4), the timescale holds zero with the increment of rate 0, HIF_ID
holds the identification, every output is disabled and every word register but BOOT_RESET_CAUSE and HLD_EMB_STATUS
(choices of the model, log entry 1) holds its Reset column. -/
def Obligations.StateAfterReset : Prop :=
  State.reset.sound ∧ State.reset.condsShown ∧ State.reset.pending = [] ∧ State.reset.inReset = false ∧
  State.reset.nowTick = 0 ∧ State.reset.tsc.voted = BitVec.ofNat 192 (2 ^ 49) ∧
  State.reset.reg R.HIF_ID = 0x2416B010#32 ∧
  (∀ n : Fin 10, State.reset.g (R.SYN_On_CFG n) F.SYN_On_CFG_EN = 0) ∧
  (∀ a : Nat, a ≠ R.BOOT_RESET_CAUSE → a ≠ R.HLD_EMB_STATUS → State.reset.reg a = regReset a) ∧
  (∀ a : Nat, State.reset.dramByte a = 0)

/-- From every sound state a step that answers a next state answers a sound one: the register store and DRAM keep
their canonical forms, the fault-record queue holds at most 32 records (R59) and the FIFO of the journal at most
4,096 (R330). -/
def Obligations.StepKeepsSound : Prop :=
  ∀ s t : State, s.sound → step s = .next t → t.sound

/-- R53: from every state in which each condition that holds shows in its raw status bit, a step answers such a
state: no read, clear, commit or event hides a condition that still holds. -/
def Obligations.StepKeepsConditions : Prop :=
  ∀ s t : State, s.condsShown → step s = .next t → t.condsShown

/-- From every state in which each frame has an identity of its own, came in on one of ports 0 to 24 with a priority
0 to 7, and its copies are for ports 0 to 24 and classes 0 to 7, a step answers such a state; so does reset. The
statements on frames, queues and calendars have this as a premise. -/
def Obligations.StepKeepsForwardingInRange : Prop :=
  State.reset.fwdOk ∧ ∀ s t : State, s.fwdOk → step s = .next t → t.fwdOk

/-- Every command answers a next state from every state; it leaves the queue of commands as it is, takes back nothing
that has left the block, and keeps a sound state sound. -/
def Obligations.EveryCommandCompletes : Prop :=
  ∀ (c : Instr) (s : State), Answers (exec c s) fun t =>
    t.pending = s.pending ∧ s.out <+: t.out ∧ (s.sound → t.sound)

/-- R272, R328, R402 and R403: DRAM is written only by a record of the journal, a mirror batch and a checkpoint;
every other command leaves every byte of DRAM as it was. -/
def Obligations.WritersOfDram : Prop :=
  ∀ (c : Instr) (s : State), c ≠ .recordWrite → (∀ m, c ≠ .mirrorMsgRx m) → (∀ m, c ≠ .ckptMsgRx m) →
    Answers (exec c s) fun t => s.sameDram t

/-- R69, R77, R144, R154 and R415: the voted timescale changes only on its tick, where a step is applied, at the seed
by Ember, on the first tick after a gap of its domain, and at a reset; no other command moves it, whatever its
operands. -/
def Obligations.MoversOfTheTimescale : Prop :=
  ∀ (c : Instr) (s : State), (∀ u v w, c ≠ .timescaleTick u v w) → c ≠ .stepApply → c ≠ .synUpdateApply → c ≠ .emberSeed →
    (∀ x, c ≠ .settleExpiry x) → c ≠ .resetAssert → (∀ x, c ≠ .railFault x) → c ≠ .mainPowerLoss →
    Answers (exec c s) fun t => t.tsc.voted = s.tsc.voted ∧ t.now = s.now

/-- R367, R368, R371, R376, R379, R389 and R390: whatever its 3,840 DATA bits, a block is 4,096 line bits long and
its receiver recovers the DATA bits; scrambling twice gives the bits back; a message of a legal CLASS and LEN is
parsed back to its CLASS, SEQ and payload; a claim-wire frame gives its claim to a receiver of the same PAIR_ID and
none to another. -/
def Obligations.GuylineCodes : Prop :=
  (∀ d : List Bool, d.length = 3840 →
    (lineBlock syncData d).length = 4096 ∧ blockRx 3840 (lineBlock syncData d) = .data d) ∧
  (∀ (n : Nat) (d : List Bool), scramble n (scramble n d) = d) ∧
  (∀ (c q lo hi : Nat) (b : List Byte), msgLens c = some (lo, hi) → lo ≤ b.length → b.length ≤ hi → q < 2 ^ 32 →
    guyParse (guyMessage c q b) = some (c, q, b)) ∧
  (∀ p q claim : Nat, p < 2 ^ 16 → q < 2 ^ 16 → claim < 2 ^ 32 →
    wireClaim q (wireFrame p claim) = if q = p then some claim else none)

/-- R25: from every state in which HIF_ID holds 0x2416_B010 every step keeps it so, whatever is written, and a read
of it over F0 that takes effect answers the bytes 10, B0, 16 and 24. -/
def Obligations.Identification : Prop :=
  (∀ s t : State, s.reg R.HIF_ID = 0x2416B010#32 → step s = .next t → t.reg R.HIF_ID = 0x2416B010#32) ∧
  (∀ s : State, s.reg R.HIF_ID = 0x2416B010#32 → s.reaches .f0 R.HIF_ID →
    Answers (exec (.readClear .f0 R.HIF_ID 4) s) fun t =>
      s.emits t (.readData .f0 0 [0x10#8, 0xB0#8, 0x16#8, 0x24#8]) ∧ s.sameBut t [] ∧ s.sameParts t [])

/-- R387: an own claim is a number of 32 bits with EPOCH in its bits 31 to 8, the RANK in force in 7 to 4 and UNIT in
3 to 0, so that of two claims the one with the greater EPOCH, then RANK, then UNIT is the greater. -/
def Obligations.ClaimOrder : Prop :=
  ∀ s t : State, s.rut.rank < 16 → s.rut.unit < 16 → t.rut.rank < 16 → t.rut.unit < 16 →
    (let rank : State → Nat := fun x => if x.pairState = pairActive ∧ x.rut.applying = false then x.rut.rank else 0
     s.ownClaim < 2 ^ 32 ∧ bitsOf s.ownClaim 31 8 = s.rut.epoch % 2 ^ 24 ∧ bitsOf s.ownClaim 7 4 = rank s ∧
      bitsOf s.ownClaim 3 0 = s.rut.unit ∧
      (s.ownClaim < t.ownClaim ↔ s.rut.epoch % 2 ^ 24 < t.rut.epoch % 2 ^ 24 ∨
        s.rut.epoch % 2 ^ 24 = t.rut.epoch % 2 ^ 24 ∧
          (rank s < rank t ∨ rank s = rank t ∧ s.rut.unit < t.rut.unit)))

/-- R13, R64 and R415 to R417: RESET_L low, and a rail out of tolerance, hold the device in reset with every register
but Ember's and the reset cause at its reset value, the cause bit set and the claim wire low; RESET_L high samples
the straps; with both gone the device is out of reset. That DRAM keeps its contents is the model's choice (log entry
4). Where the spec is silent it rests on the choices of the model in log entries 3, 16 and 31. -/
def Obligations.ResetAndRails : Prop :=
  (∀ (s : State) , Answers (exec (.resetAssert) s) fun t =>
      t.inReset = true ∧ (∀ a : Nat, a ∉ keptRegs → t.reg a = regReset a) ∧
      (∀ a ∈ keptRegs, a ≠ R.BOOT_RESET_CAUSE → a ≠ R.HLD_EMB_STATUS → t.reg a = s.reg a) ∧
      t.reg R.HLD_EMB_STATUS = F.HLD_EMB_STATUS_SYNCED.put (s.reg R.HLD_EMB_STATUS) 0 ∧ s.out <+: t.out ∧
      t.out.getLast? = some (Out.wire 0#80) ∧ s.sameDram t ∧ State.reset.sameParts t [.hif, .hld, .free, .boot] ∧
      t.pending = s.pending ∧ t.boot.pinLow = true ∧
      t.reg R.BOOT_RESET_CAUSE = F.BOOT_RESET_CAUSE_PIN.put (s.reg R.BOOT_RESET_CAUSE) 1) ∧
  (∀ (s : State) (r : Fin 4), Answers (exec (.railFault r) s) fun t =>
      t.inReset = true ∧ (∀ a : Nat, a ∉ keptRegs → t.reg a = regReset a) ∧
      (∀ a ∈ keptRegs, a ≠ R.BOOT_RESET_CAUSE → a ≠ R.HLD_EMB_STATUS → t.reg a = s.reg a) ∧
      t.reg R.HLD_EMB_STATUS = F.HLD_EMB_STATUS_SYNCED.put (s.reg R.HLD_EMB_STATUS) 0 ∧ s.out <+: t.out ∧
      t.out.getLast? = some (Out.wire 0#80) ∧ s.sameDram t ∧ State.reset.sameParts t [.hif, .hld, .free, .boot] ∧
      t.pending = s.pending ∧ t.boot.railBad = true ∧
      t.reg R.BOOT_RESET_CAUSE = (railBit r).put (s.reg R.BOOT_RESET_CAUSE) 1) ∧
  (∀ (s : State) (k : Fin 4), s.boot.pinLow = true → s.boot.railBad = false → Answers (exec (.resetRelease k) s) fun
    t =>
      t.inReset = false ∧ t.hif.i2cStrap = k.val ∧ t.bootState = s.bootState ∧
      t.boot = { s.boot with pinLow := false } ∧ s.sameBut t [] ∧ s.sameParts t [.hif, .boot]) ∧
  (∀ (s : State) , s.boot.power = true → Answers (exec (.railRecovery) s) fun t =>
      t.boot = { s.boot with railBad := false } ∧ (s.boot.pinLow = false → t.inReset = false) ∧ s.sameBut t [] ∧
      s.sameParts t [.boot])

/-- R417, R418, R421, R422, R427 and R430 to R434: a correct OTP read copies the factory calibration and goes on to
FLASH, a bad one fails with reason 1; a flash without a device, or with a bad header, fails with its reason; a valid
header gives PACK_ID, PACK_LEN and FREQ and goes on; 500 ms in CLOCKS fail with reason 12; pass 1 goes on to APPLY or
fails with the check's reason, section and offset. Where the spec is silent it rests on the choices of the model in
log entries 3, 16 and 31. -/
def Obligations.BootFromReset : Prop :=
  (∀ (s : State) (y : Otp), s.inReset = false → s.bootState = bootOtp → Answers (exec (.otpReadDone true y) s) fun t
    =>
      t.bootState = bootFlash ∧ t.isSet R.CAL_OTP_STATUS F.CAL_OTP_STATUS_READ_DONE ∧
      t.isSet R.CAL_OTP_STATUS F.CAL_OTP_STATUS_CRC_OK ∧ t.pair R.CAL_UID_LO = y.uid.toNat ∧
      t.reg R.GUY_TX_DLY_FAC = y.guy.1 ∧ t.reg R.GUY_RX_DLY_FAC = y.guy.2 ∧
      (∀ e : Fin 8, ∀ w ∈ y.events[e.val]?, t.reg (R.TDC_En_DLY_FAC e) = w) ∧
      (∀ e : Fin 10, ∀ w ∈ y.paths[e.val]?, t.reg (R.CAL_On_PATH e) = w) ∧ t.boot.trims = y.trims.take 16 ∧
      s.sameBeyond t [(R.BOOT_STATUS, R.BOOT_STATUS + 4), (0x18000, 0x18100), (0x50000, 0x56000), (R.GUY_TX_DLY_FAC,
        R.GUY_TX_DLY_FAC + 8), (R.TDC_En_DLY_FAC 0, R.TDC_En_DLY_FAC 8)] ∧
      s.sameParts t [.boot]) ∧
  (∀ (s : State) (y : Otp), s.inReset = false → s.bootState = bootOtp → Answers (exec (.otpReadDone false y) s) fun t
    =>
      t.bootState = bootFailed ∧ t.g R.BOOT_STATUS F.BOOT_STATUS_REASON = 1 ∧
      t.g R.BOOT_STATUS F.BOOT_STATUS_SECTION = 0xFFF ∧ t.reg R.BOOT_FAIL_OFFSET = BitVec.ofNat 32 (0) ∧
      t.isSet R.BOOT_RAW F.BOOT_RAW_FAIL ∧ (s.hif.fq.length < 32 → ∃ f ∈ t.hif.fq, f.block = 1 ∧ f.code = 1) ∧
      t.g R.CAL_OTP_STATUS F.CAL_OTP_STATUS_CRC_OK = 0 ∧
      s.sameBut t [R.BOOT_STATUS, R.BOOT_FAIL_OFFSET, R.CAL_OTP_STATUS] ∧ s.sameParts t [.boot]) ∧
  (∀ (s : State) (j : BitVec 24) (n : Nat) (h : List Byte), s.inReset = false → s.bootState = bootFlash → Answers
    (exec (.flashDiscoveryDone false j n h) s) fun t =>
      t.bootState = bootFailed ∧ t.g R.BOOT_STATUS F.BOOT_STATUS_REASON = 2 ∧
      t.g R.BOOT_STATUS F.BOOT_STATUS_SECTION = 0xFFF ∧ t.reg R.BOOT_FAIL_OFFSET = BitVec.ofNat 32 (0) ∧
      t.isSet R.BOOT_RAW F.BOOT_RAW_FAIL ∧ (s.hif.fq.length < 32 → ∃ f ∈ t.hif.fq, f.block = 1 ∧ f.code = 1) ∧
      t.reg R.BOOT_FLASH_INFO = 0 ∧ s.sameBut t [R.BOOT_STATUS, R.BOOT_FAIL_OFFSET, R.BOOT_FLASH_INFO] ∧
      s.sameParts t [.boot]) ∧
  (∀ (s : State) (j : BitVec 24) (n : Nat) (h : List Byte), s.inReset = false → s.bootState = bootFlash → headerCheck
    h (2 ^ min n 26) = 0 → leAt h 14 1 ≤ 3 → s.reaches .boot R.REF_OSC_CFG → Answers (exec (.flashDiscoveryDone true
    j n h) s) fun t =>
      (t.bootState = bootClocks ∨ t.bootState = bootVerify) ∧ t.reg R.BOOT_PACK_ID = BitVec.ofNat 32 (leAt h 20 4) ∧
      t.reg R.BOOT_PACK_LEN = BitVec.ofNat 32 (leAt h 8 4) ∧
      t.g R.BOOT_FLASH_INFO F.BOOT_FLASH_INFO_JEDEC_ID = j.toNat ∧ t.boot.sections = leAt h 12 2 ∧
      t.g R.REF_OSC_CFG F.REF_OSC_CFG_FREQ = leAt h 14 1 ∧
      s.sameBeyond t [(0x10000, 0x18000), (0x30000, 0x48000), (R.QUE_DRAM_STATUS, R.QUE_DRAM_STATUS + 4),
        (R.HIF_CFG_CRC_STATUS, R.HIF_CFG_CRC_STATUS + 4)] ∧
      s.sameParts t [.boot, .ref, .syn, .gated, .conds, .hld, .tsc, .pts, .ptp, .tdc, .guy, .rut, .fwd, .free, .hif,
        .once]) ∧
  (∀ (s : State) (j : BitVec 24) (n : Nat) (h : List Byte) (r : Nat), s.inReset = false → s.bootState = bootFlash →
    headerCheck h (2 ^ min n 26) = r → r ≠ 0 → r ≠ 4 → n < 256 → Answers (exec (.flashDiscoveryDone true j n h) s)
    fun t =>
      t.bootState = bootFailed ∧ t.g R.BOOT_STATUS F.BOOT_STATUS_REASON = r ∧
      t.g R.BOOT_STATUS F.BOOT_STATUS_SECTION = 0xFFF ∧ t.reg R.BOOT_FAIL_OFFSET = BitVec.ofNat 32 (0) ∧
      t.isSet R.BOOT_RAW F.BOOT_RAW_FAIL ∧ (s.hif.fq.length < 32 → ∃ f ∈ t.hif.fq, f.block = 1 ∧ f.code = 1) ∧
      s.sameBut t [R.BOOT_STATUS, R.BOOT_FAIL_OFFSET, R.BOOT_FLASH_INFO] ∧ s.sameParts t [.boot]) ∧
  (∀ (s : State) (j : BitVec 24) (n : Nat) (h : List Byte), s.inReset = false → s.bootState = bootFlash → headerCheck
    h (2 ^ min n 26) = 4 → n < 256 → Answers (exec (.flashDiscoveryDone true j n h) s) fun t =>
      t.bootState = bootFailed ∧ t.g R.BOOT_STATUS F.BOOT_STATUS_REASON = 4 ∧
      t.g R.BOOT_STATUS F.BOOT_STATUS_SECTION = 0xFFF ∧ t.reg R.BOOT_FAIL_OFFSET = BitVec.ofNat 32 (0) ∧
      t.isSet R.BOOT_RAW F.BOOT_RAW_FAIL ∧ (s.hif.fq.length < 32 → ∃ f ∈ t.hif.fq, f.block = 1 ∧ f.code = 1) ∧
      t.reg R.BOOT_FAIL_CRC_STORED = BitVec.ofNat 32 (leAt h 60 4) ∧
      t.reg R.BOOT_FAIL_CRC_CALC = BitVec.ofNat 32 (crc32c (h.take 60)) ∧
      s.sameBut t [R.BOOT_STATUS, R.BOOT_FAIL_OFFSET, R.BOOT_FLASH_INFO, R.BOOT_FAIL_CRC_STORED, R.BOOT_FAIL_CRC_CALC] ∧
      s.sameParts t [.boot]) ∧
  (∀ (s : State)  (b : Bool) (y : Otp), s.inReset = false → s.bootState ≠ bootOtp → Answers (exec (.otpReadDone b y)
    s) fun t =>
      s.sameBut t [] ∧ s.sameParts t []) ∧
  (∀ (s : State)  (b : Bool) (j : BitVec 24) (n : Nat) (h : List Byte), s.inReset = false → s.bootState ≠ bootFlash →
    Answers (exec (.flashDiscoveryDone b j n h) s) fun t =>
      s.sameBut t [] ∧ s.sameParts t []) ∧
  (∀ (s : State) , s.inReset = false → s.bootState ≠ bootClocks → Answers (exec (.bootClockTimeout) s) fun t =>
      s.sameBut t [] ∧ s.sameParts t []) ∧
  (∀ (s : State)  (h : List Byte), s.inReset = false → s.bootState ≠ bootVerify → Answers (exec (.packVerifyDone h)
    s) fun t =>
      s.sameBut t [] ∧ s.sameParts t []) ∧
  (∀ (s : State) , s.inReset = false → s.bootState = bootClocks → Answers (exec (.bootClockTimeout) s) fun t =>
      t.bootState = bootFailed ∧ t.g R.BOOT_STATUS F.BOOT_STATUS_REASON = 12 ∧
      t.g R.BOOT_STATUS F.BOOT_STATUS_SECTION = 0xFFF ∧ t.reg R.BOOT_FAIL_OFFSET = BitVec.ofNat 32 (0) ∧
      t.isSet R.BOOT_RAW F.BOOT_RAW_FAIL ∧ (s.hif.fq.length < 32 → ∃ f ∈ t.hif.fq, f.block = 1 ∧ f.code = 1) ∧
      s.sameBut t [R.BOOT_STATUS, R.BOOT_FAIL_OFFSET] ∧ s.sameParts t [.boot]) ∧
  (∀ (s : State) (b : List Byte) (l : List PackOp), s.inReset = false → s.bootState = bootVerify → packSections b
    (s.reg R.BOOT_PACK_LEN).toNat s.boot.sections 0 64 false 64 = .inl l → Answers (exec (.packVerifyDone b) s) fun t
    =>
      t.bootState = bootApply ∧ t.boot = { s.boot with todo := l } ∧ s.sameBut t [R.BOOT_STATUS] ∧
      s.sameParts t [.boot]) ∧
  (∀ (s : State) (b : List Byte) (e : PackBad), s.inReset = false → s.bootState = bootVerify → packSections b (s.reg
    R.BOOT_PACK_LEN).toNat s.boot.sections 0 64 false 64 = .inr e → e.reason < 256 → e.section_ < 4096 → Answers
    (exec (.packVerifyDone b) s) fun t =>
      t.bootState = bootFailed ∧ t.g R.BOOT_STATUS F.BOOT_STATUS_REASON = e.reason ∧
      t.g R.BOOT_STATUS F.BOOT_STATUS_SECTION = e.section_ ∧ t.reg R.BOOT_FAIL_OFFSET = BitVec.ofNat 32 (e.offset) ∧
      t.isSet R.BOOT_RAW F.BOOT_RAW_FAIL ∧ (s.hif.fq.length < 32 → ∃ f ∈ t.hif.fq, f.block = 1 ∧ f.code = 1) ∧
      s.sameBut t [R.BOOT_STATUS, R.BOOT_FAIL_OFFSET, R.BOOT_FAIL_CRC_STORED, R.BOOT_FAIL_CRC_CALC] ∧
      s.sameParts t [.boot])

/-- R417, R425, R430, R432 and R437: pass 2 writes the next entry, or the write waits for its stopped domain; a pause
ends; pass 2 ends in DRAM or SEED, or with reason 11 and APPLIED; RETRY goes back to OTP or FLASH, or is refused
after APPLIED; GO sends one flash command unless one runs, and its end gives the bytes read. Where the spec is silent
it rests on the choices of the model in log entries 3, 16 and 31. -/
def Obligations.BootPackAndFlash : Prop :=
  (∀ (s : State) (a : Nat) (v : Word) (l : List PackOp), s.inReset = false → s.bootState = bootApply → s.packHeld =
    false → afterChecks s.boot.todo = .write a v :: l → s.reaches .boot a → s.whyIgnored .boot a = none → ownWord a =
    true → 0x280000 ≤ a → a < 0x300000 → sharedReg a = false → Answers (exec (.bootPackWrite none) s) fun t =>
      t.reg a = s.formWord a v ∧ t.g R.BOOT_STATUS F.BOOT_STATUS_APPLIED = 1 ∧ t.boot = { s.boot with todo := l } ∧
      s.sameBut t [a, R.BOOT_STATUS, R.HIF_CFG_CRC_STATUS] ∧ s.sameParts t [.boot]) ∧
  (∀ (s : State) (a : Nat) (v : Word) (l : List PackOp), s.inReset = false → s.bootState = bootApply → s.packHeld =
    false → afterChecks s.boot.todo = .write a v :: l → a % 4 = 0 → s.runs (accessDom .boot a) = false →
    s.hif.dead.contains (accessDom .boot a) = false → Answers (exec (.bootPackWrite none) s) fun t =>
      t.hif.held = s.hif.held ++ [(⟨.boot, a, true, v, 0, 4⟩ : Access)] ∧
      t.g R.BOOT_STATUS F.BOOT_STATUS_APPLIED = 1 ∧ t.packHeld = true ∧ s.sameBut t [R.BOOT_STATUS] ∧
      s.sameParts t [.boot, .hif]) ∧
  (∀ (s : State) (a : Nat) (v : Word) (l : List PackOp), s.inReset = false → s.bootState = bootApply → s.packHeld =
    false → afterChecks s.boot.todo = .write a v :: l → Answers (exec (.bootPackWrite none) s) fun t =>
      ((({ s with boot := { s.boot with todo := l } } : State).p R.BOOT_STATUS F.BOOT_STATUS_APPLIED 1).access
        ⟨.boot, a / 4 * 4, true, v, 0, 4⟩).sameBut t [] ∧
      ((({ s with boot := { s.boot with todo := l } } : State).p R.BOOT_STATUS F.BOOT_STATUS_APPLIED 1).access
        ⟨.boot, a / 4 * 4, true, v, 0, 4⟩).sameParts t []) ∧
  (∀ (s : State) (a : Nat) (v : Word) (l : List PackOp) (b : Nat) (w : Word), s.inReset = false → s.bootState =
    bootApply → s.packHeld = false → afterChecks s.boot.todo = .write a v :: l → Answers (exec (.bootPackWrite (some
    (b, w))) s) fun t =>
      ((({ s with boot := { s.boot with todo := l } } : State).p R.BOOT_STATUS F.BOOT_STATUS_APPLIED 1).access
        ⟨.boot, b / 4 * 4, true, w, 0, 4⟩).sameBut t [] ∧
      ((({ s with boot := { s.boot with todo := l } } : State).p R.BOOT_STATUS F.BOOT_STATUS_APPLIED 1).access
        ⟨.boot, b / 4 * 4, true, w, 0, 4⟩).sameParts t []) ∧
  (∀ (s : State), s.inReset = false → s.bootState ≠ bootApply ∨ s.packHeld = true → Answers (exec (.bootPackWrite
    none) s) fun t =>
      s.sameBut t [] ∧ s.sameParts t []) ∧
  (∀ (s : State) (n : Nat) (l : List PackOp), s.inReset = false → s.bootState = bootApply → s.packHeld = false →
    afterChecks s.boot.todo = .wait n :: l → Answers (exec (.bootPackWait) s) fun t =>
      t.boot = { s.boot with todo := l } ∧ s.sameBut t [] ∧ s.sameParts t [.boot]) ∧
  (∀ (s : State) , s.inReset = false → s.bootState = bootApply → s.packHeld = false → afterChecks s.boot.todo = [] →
    Answers (exec (.packApplyDone false) s) fun t =>
      (t.bootState = if s.g R.QUE_DRAM_CFG F.QUE_DRAM_CFG_DENSITY = 0 ∨ s.boot.trained = true then bootSeed else
        bootDram) ∧
      t.boot = { s.boot with todo := [] } ∧ s.sameBut t [R.BOOT_STATUS] ∧ s.sameParts t [.boot]) ∧
  (∀ (s : State) (i n : Nat) (l : List PackOp), s.inReset = false → s.bootState = bootApply → s.packHeld = false →
    s.boot.todo = .check i n :: l → i < 4096 → Answers (exec (.packApplyDone true) s) fun t =>
      t.bootState = bootFailed ∧ t.g R.BOOT_STATUS F.BOOT_STATUS_REASON = 11 ∧
      t.g R.BOOT_STATUS F.BOOT_STATUS_SECTION = i ∧ t.reg R.BOOT_FAIL_OFFSET = BitVec.ofNat 32 (n) ∧
      t.isSet R.BOOT_RAW F.BOOT_RAW_FAIL ∧ (s.hif.fq.length < 32 → ∃ f ∈ t.hif.fq, f.block = 1 ∧ f.code = 1) ∧
      t.g R.BOOT_STATUS F.BOOT_STATUS_APPLIED = 1 ∧ s.sameBut t [R.BOOT_STATUS, R.BOOT_FAIL_OFFSET] ∧
      s.sameParts t [.boot]) ∧
  (∀ (s : State) (v : Word), s.accepts R.BOOT_CMD → s.bootState = bootFailed → s.g R.BOOT_STATUS
    F.BOOT_STATUS_APPLIED = 0 → Answers (exec (.bootRetry v) s) fun t =>
      (t.bootState = if s.g R.BOOT_STATUS F.BOOT_STATUS_REASON = 1 then bootOtp else bootFlash) ∧
      t.g R.BOOT_STATUS F.BOOT_STATUS_REASON = 0 ∧ t.g R.BOOT_STATUS F.BOOT_STATUS_SECTION = 0xFFF ∧
      t.reg R.BOOT_FAIL_OFFSET = 0 ∧ t.reg R.BOOT_FAIL_CRC_STORED = 0 ∧ t.reg R.BOOT_FAIL_CRC_CALC = 0 ∧
      s.sameBut t [R.BOOT_STATUS, R.BOOT_FAIL_OFFSET, R.BOOT_FAIL_CRC_STORED, R.BOOT_FAIL_CRC_CALC] ∧
      s.sameParts t []) ∧
  (∀ (s : State) (v : Word), s.accepts R.BOOT_CMD → s.bootState = bootFailed → s.g R.BOOT_STATUS
    F.BOOT_STATUS_APPLIED = 1 → Answers (exec (.bootRetry v) s) fun t =>
      t.isSet R.BOOT_RAW F.BOOT_RAW_RETRY_REFUSED ∧ t.bootState = bootFailed ∧ s.sameBut t [] ∧ s.sameParts t []) ∧
  (∀ (s : State) (v : Word), s.accepts R.BOOT_FLASH_CTRL → s.bootState = bootRunState ∨ s.bootState = bootFailed →
    s.g R.BOOT_FLASH_STATUS F.BOOT_FLASH_STATUS_BUSY = 0 → Answers (exec (.flashCmdGo v) s) fun t =>
      t.isSet R.BOOT_FLASH_STATUS F.BOOT_FLASH_STATUS_BUSY ∧ s.emits t t.flashCommand ∧
      t.g R.BOOT_FLASH_CTRL F.BOOT_FLASH_CTRL_OPCODE = F.BOOT_FLASH_CTRL_OPCODE.get v ∧
      s.sameBut t [R.BOOT_FLASH_CTRL, R.BOOT_FLASH_STATUS] ∧ s.sameParts t []) ∧
  (∀ (s : State) (v : Word), s.accepts R.BOOT_FLASH_CTRL → s.bootState = bootRunState ∨ s.bootState = bootFailed →
    s.g R.BOOT_FLASH_STATUS F.BOOT_FLASH_STATUS_BUSY = 1 → Answers (exec (.flashCmdGo v) s) fun t =>
      t.g R.BOOT_FLASH_STATUS F.BOOT_FLASH_STATUS_REFUSED = min (s.g R.BOOT_FLASH_STATUS F.BOOT_FLASH_STATUS_REFUSED
        + 1) 65535 ∧
      t.isSet R.BOOT_RAW F.BOOT_RAW_FLASH_REFUSED ∧ s.sameBut t [R.BOOT_FLASH_CTRL, R.BOOT_FLASH_STATUS] ∧
      s.sameParts t []) ∧
  (∀ (s : State) (l : List Byte), s.inReset = false → s.g R.BOOT_FLASH_STATUS F.BOOT_FLASH_STATUS_BUSY = 1 → s.on
    R.BOOT_FLASH_CTRL F.BOOT_FLASH_CTRL_DIR = true → Answers (exec (.flashCmdDone l) s) fun t =>
      (∀ i : Nat, i < 256 → i < s.g R.BOOT_FLASH_CTRL F.BOOT_FLASH_CTRL_LEN → ∀ b ∈ l[i]?, (⟨8 * (i % 4), 8⟩ :
        Fld).get (t.reg (R.BOOT_FLASH_BUFk (i / 4))) = b.toNat) ∧
      t.g R.BOOT_FLASH_STATUS F.BOOT_FLASH_STATUS_BUSY = 0 ∧ t.isSet R.BOOT_RAW F.BOOT_RAW_FLASH_DONE ∧
      s.sameBeyond t [(R.BOOT_FLASH_STATUS, R.BOOT_FLASH_STATUS + 4), (R.BOOT_FLASH_BUFk 0, R.BOOT_FLASH_BUFk 64)] ∧
      s.sameParts t []) ∧
  (∀ (s : State) (l : List Byte), s.inReset = false → s.g R.BOOT_FLASH_STATUS F.BOOT_FLASH_STATUS_BUSY = 1 → s.on
    R.BOOT_FLASH_CTRL F.BOOT_FLASH_CTRL_DIR = false → Answers (exec (.flashCmdDone l) s) fun t =>
      t.g R.BOOT_FLASH_STATUS F.BOOT_FLASH_STATUS_BUSY = 0 ∧ t.isSet R.BOOT_RAW F.BOOT_RAW_FLASH_DONE ∧
      s.sameBut t [R.BOOT_FLASH_STATUS] ∧ s.sameParts t [])

/-- R279, R280 and R285: a frame that arrives on a port whose link is up is counted; a MAC control frame goes no
further; a frame for which 64 cells and the usage have room is admitted with 64 cells charged to its port and
priority; a frame without free cells is refused whole and counted; a Clause 31 PAUSE frame changes nothing more.
Where the spec is silent it rests on the choices of the model in log entries 3, 22, 23, 24 and 25. -/
def Obligations.FramesArrive : Prop :=
  (∀ (s : State) (p : Fin 24) (x : StampIn) (b : List Byte), s.inReset = false → s.running = true → s.linkUp p = true
    → s.fwd.frames.any (fun f => f.port == p && !f.whole) = false → beAt b 12 2 = 0x8808 ∨ s.looping p = true →
    Answers (exec (.frameReceive p x b) s) fun t =>
      t.g (R.MAC_Pn_RX_FRAMES p) F.MAC_Pn_RX_FRAMES_COUNT = min (s.g (R.MAC_Pn_RX_FRAMES p) F.MAC_Pn_RX_FRAMES_COUNT
        + 1) 4294967295 ∧
      s.sameBut t [R.MAC_Pn_RX_FRAMES p] ∧ s.sameParts t []) ∧
  (∀ (s : State) (p : Fin 24) (x : StampIn) (b : List Byte), s.inReset = false → s.running = true → s.linkUp p = true
    → s.fwd.frames.any (fun f => f.port == p && !f.whole) = false → beAt b 12 2 ≠ 0x8808 → s.looping p = false →
    s.runs .core = true → s.cellsFree p = true → s.usageOk p (s.ingressPrio p b) = true → Answers (exec
    (.frameReceive p x b) s) fun t =>
      t.fwd.frames = s.fwd.frames ++ [s.land (s.newFrame p (s.ingressPrio p b) b (s.rxStamp p x)) 64] ∧
      t.reg (R.QUE_INn_Up p (s.ingressPrio p b)) = BitVec.ofNat 32 (((s.reg (R.QUE_INn_Up p (s.ingressPrio p
        b))).toNat + 64) % 2 ^ 26) ∧
      t.g (R.MAC_Pn_RX_FRAMES p) F.MAC_Pn_RX_FRAMES_COUNT = min (s.g (R.MAC_Pn_RX_FRAMES p) F.MAC_Pn_RX_FRAMES_COUNT
        + 1) 4294967295 ∧
      s.sameBeyond t [(0x200000, 0x280000), (R.MAC_Pn_RX_FRAMES p, R.MAC_Pn_RX_FRAMES p + 4)] ∧ s.sameParts t [.fwd]) ∧
  (∀ (s : State) (p : Fin 24) (x : StampIn) (b : List Byte), s.inReset = false → s.running = true → s.linkUp p = true
    → s.fwd.frames.any (fun f => f.port == p && !f.whole) = false → beAt b 12 2 ≠ 0x8808 → s.looping p = false →
    s.runs .core = true → s.cellsFree p = false → Answers (exec (.frameReceive p x b) s) fun t =>
      t.fwd.frames = s.fwd.frames ∧
      t.g (R.QUE_Pn_CNT_REFUSED p) F.QUE_Pn_CNT_REFUSED_COUNT = min (s.g (R.QUE_Pn_CNT_REFUSED p)
        F.QUE_Pn_CNT_REFUSED_COUNT + 1) 4294967295 ∧
      t.isSet R.QUE_RAW F.QUE_RAW_REFUSED ∧
      t.g (R.MAC_Pn_RX_FRAMES p) F.MAC_Pn_RX_FRAMES_COUNT = min (s.g (R.MAC_Pn_RX_FRAMES p) F.MAC_Pn_RX_FRAMES_COUNT
        + 1) 4294967295 ∧
      s.sameBut t [R.MAC_Pn_RX_FRAMES p, R.QUE_Pn_CNT_REFUSED p] ∧ s.sameParts t [.fwd]) ∧
  (∀ (s : State) (p : Fin 24) (x : StampIn) (b : List Byte), s.inReset = false → s.running = true → s.linkUp p = true
    → s.fwd.frames.any (fun f => f.port == p && !f.whole) = false → beAt b 12 2 ≠ 0x8808 → s.looping p = false →
    s.runs .core = true → s.cellsFree p = true → s.usageOk p (s.ingressPrio p b) = false → Answers (exec
    (.frameReceive p x b) s) fun t =>
      t.fwd.frames = s.fwd.frames ∧
      t.g (R.QUE_Pn_CNT_REFUSED p) F.QUE_Pn_CNT_REFUSED_COUNT = min (s.g (R.QUE_Pn_CNT_REFUSED p)
        F.QUE_Pn_CNT_REFUSED_COUNT + 1) 4294967295 ∧
      t.isSet R.QUE_RAW F.QUE_RAW_REFUSED ∧
      t.g (R.MAC_Pn_RX_FRAMES p) F.MAC_Pn_RX_FRAMES_COUNT = min (s.g (R.MAC_Pn_RX_FRAMES p) F.MAC_Pn_RX_FRAMES_COUNT
        + 1) 4294967295 ∧
      s.sameBut t [R.MAC_Pn_RX_FRAMES p, R.QUE_Pn_CNT_REFUSED p] ∧ s.sameParts t [.fwd]) ∧
  (∀ (s : State) (p : Fin 24) (x : StampIn) (b : List Byte), s.inReset = false → s.running = true → s.linkUp p = true
    → s.fwd.frames.any (fun f => f.port == p && !f.whole) = false → beAt b 12 2 ≠ 0x8808 → s.looping p = false →
    s.runs .core = false → (s.fwd.frames.foldl (fun k g => if g.lane && g.port == p.val then k + g.len else k) 0) +
    b.length ≤ 65536 → Answers (exec (.frameReceive p x b) s) fun t =>
      t.fwd.frames = s.fwd.frames ++ [{ s.newFrame p (s.ingressPrio p b) b (s.rxStamp p x) with lane := true }] ∧
      t.g (R.MAC_Pn_RX_FRAMES p) F.MAC_Pn_RX_FRAMES_COUNT = min (s.g (R.MAC_Pn_RX_FRAMES p) F.MAC_Pn_RX_FRAMES_COUNT
        + 1) 4294967295 ∧
      s.sameBut t [R.MAC_Pn_RX_FRAMES p] ∧ s.sameParts t [.fwd]) ∧
  (∀ (s : State) (p : Fin 24) (x : StampIn) (b : List Byte), s.inReset = false → s.running = true → s.linkUp p = true
    → s.fwd.frames.any (fun f => f.port == p && !f.whole) = false → beAt b 12 2 ≠ 0x8808 → s.looping p = false →
    s.runs .core = false → 65536 < (s.fwd.frames.foldl (fun k g => if g.lane && g.port == p.val then k + g.len else
    k) 0) + b.length → Answers (exec (.frameReceive p x b) s) fun t =>
      t.fwd.frames = s.fwd.frames ∧
      t.g (R.QUE_Pn_CNT_REFUSED p) F.QUE_Pn_CNT_REFUSED_COUNT = min (s.g (R.QUE_Pn_CNT_REFUSED p)
        F.QUE_Pn_CNT_REFUSED_COUNT + 1) 4294967295 ∧
      t.isSet R.QUE_RAW F.QUE_RAW_REFUSED ∧
      t.g (R.MAC_Pn_RX_FRAMES p) F.MAC_Pn_RX_FRAMES_COUNT = min (s.g (R.MAC_Pn_RX_FRAMES p) F.MAC_Pn_RX_FRAMES_COUNT
        + 1) 4294967295 ∧
      s.sameBut t [R.MAC_Pn_RX_FRAMES p, R.QUE_Pn_CNT_REFUSED p] ∧ s.sameParts t [.fwd]) ∧
  (∀ (s : State) (p : Fin 24) (b : List Byte), s.inReset = false → Answers (exec (.clause31PauseRx p b) s) fun t =>
      t.pending = s.pending ∧ s.sameBut t [] ∧ s.sameParts t [])

/-- R234, R242, R256 and R266: a frame that a slice gives a destination set is handed over on the account that has
room; a frame that waits for its lookup is judged at its end; a frame whose copies have not begun is, at an
uncorrectable end, discarded and counted. Where the spec is silent it rests on the choices of the model in log
entries 3, 22, 23, 24 and 25. -/
def Obligations.FramesLookedUpAndEnded : Prop :=
  (∀ (s : State) (p : Fin 25) (f : Frame) (l : Looked), s.inReset = false → s.fwdOk → s.runs .core = true →
    s.fwd.frames.find? (fun g => g.port == p.val && g.look.isNone) = some f → (f.lane && !(s.cellsFree p)) = false →
    s.sendingOf f.id = [] → (f.lane = false → (s.lookup f).2 = l) → Answers (exec (.frameLookup p) s) fun t =>
      (f.whole = false → ∃ g ∈ t.fwd.frames, g.id = f.id ∧ (if f.lane then g.look.isSome = true ∧ g.lane = false ∧
        g.cells = 64 else g.look = some l)) ∧
      s.sameBeyond t [(0x100000, 0x200000), (0x200000, 0x280000), (0x280000, 0x300000), (0x800000, 0xB00000)] ∧
      s.sameParts t [.fwd, .conds, .free]) ∧
  (∀ (s : State) (p : Fin 25) (f : Frame) (l : Looked) (a : Account), s.inReset = false → s.fwdOk → s.runs .core =
    true → s.fwd.frames.find? (fun g => g.port == p.val && g.look.isNone) = some f → s.fwd.stalled = [] → f.lane =
    false → f.whole = false → l.mgmt = false → (s.lookup f).2 = l → l.dests ≠ [] → ((s.lookup f).1.setFrame
    { f with look := some l, placed := false }).accountFor { f with look := some l, placed := false } l = some a →
    Answers (exec (.frameLookup p) s) fun t =>
      ({ f with look := some l, landing := 0, landPool := 0, account := a, placed := true, toPlace := if l.herd.isSome then l.dests.filter (fun n => decide (n < 24)) else [] }
        ∈ t.fwd.frames) ∧
      (l.herd = none → ∀ n ∈ l.dests, ∃ y ∈ t.queue (8 * n + l.cls), y.frame = f.id ∧ y.port = n ∧ y.cls = l.cls) ∧
      s.sameBeyond t [(0x100000, 0x200000), (0x200000, 0x280000), (0x280000, 0x300000), (0x800000, 0xB00000)] ∧
      s.sameParts t [.fwd, .conds, .free]) ∧
  (∀ (s : State) (p : Fin 25) (f : Frame) (l : Looked), s.inReset = false → s.fwdOk → s.runs .core = true →
    s.fwd.frames.find? (fun g => g.port == p.val && g.look.isNone) = some f → f.lane = false → f.whole = false →
    (s.lookup f).2 = l → l.dests = [] → Answers (exec (.frameLookup p) s) fun t =>
      { f with look := some l, placed := !l.mgmt } ∈ t.fwd.frames ∧
      s.sameBeyond t [(0x100000, 0x200000), (0x200000, 0x280000), (0x280000, 0x300000), (0x800000, 0xB00000)] ∧
      s.sameParts t [.fwd, .conds, .free]) ∧
  (∀ (s : State) (p : Fin 24) (corr : Nat) (f : Frame), s.inReset = false → s.fwdOk → s.runs .core = true →
    s.fwd.frames.find? (fun g => g.port == p.val && !g.whole) = some f → f.stamp.fecBad = false → f.look = none →
    f.placed = false → Answers (exec (.frameEnd p .good corr) s) fun t =>
      (∃ g ∈ t.fwd.frames, g.id = f.id ∧ g.bytes = f.bytes ∧ g.whole = true ∧ g.bad = badCause f.bytes .good ∧ g.look
        = none) ∧
      t.g (R.MAC_Pn_FEC_CORR p) F.MAC_Pn_FEC_CORR_COUNT = (if s.on (R.MAC_Pn_CFG p) F.MAC_Pn_CFG_FEC then min (s.g
        (R.MAC_Pn_FEC_CORR p) F.MAC_Pn_FEC_CORR_COUNT + corr) 4294967295 else s.g (R.MAC_Pn_FEC_CORR p)
        F.MAC_Pn_FEC_CORR_COUNT) ∧
      s.sameBeyond t [(0x200000, 0x280000), (R.MAC_Pn_FEC_CORR p, R.MAC_Pn_FEC_CORR p + 4)] ∧ s.sameParts t [.fwd]) ∧
  (∀ (s : State) (p : Fin 24) (corr : Nat) (how : RxEnd) (f : Frame), s.inReset = false → s.runs .core = false →
    s.fwd.frames.find? (fun g => g.port == p.val && !g.whole) = some f → Answers (exec (.frameEnd p how corr) s) fun
    t =>
      (∀ g ∈ t.fwd.frames, g.id = f.id → g.whole = true ∧ g.bad = badCause g.bytes (s.endOf p f how) ∧ g.ended.isSome
        = true) ∧
      t.g (R.MAC_Pn_FEC_CORR p) F.MAC_Pn_FEC_CORR_COUNT = (if s.on (R.MAC_Pn_CFG p) F.MAC_Pn_CFG_FEC then min (s.g
        (R.MAC_Pn_FEC_CORR p) F.MAC_Pn_FEC_CORR_COUNT + corr) 4294967295 else s.g (R.MAC_Pn_FEC_CORR p)
        F.MAC_Pn_FEC_CORR_COUNT) ∧
      s.sameBeyond t [(R.MAC_Pn_FEC_CORR p, R.MAC_Pn_FEC_CORR p + 4), (R.MAC_Pn_PCS_ERR p, R.MAC_Pn_PCS_ERR p + 4),
        (R.MAC_Pn_FEC_UNCORR p, R.MAC_Pn_FEC_UNCORR p + 4)] ∧
      s.sameParts t [.fwd]) ∧
  (∀ (s : State) (p : Fin 24) (corr : Nat) (f : Frame) (l : Looked), s.inReset = false → s.fwdOk → s.runs .core =
    true → s.isSet (R.MAC_Pn_CFG p) F.MAC_Pn_CFG_FEC → s.fwd.frames.find? (fun g => g.port == p.val && !g.whole) =
    some f → f.look = some l → s.heldElsewhere f.id = false → Answers (exec (.frameEnd p .uncorr corr) s) fun t =>
      t.frameOf f.id = none ∧ t.queueRefs f.id = [] ∧
      t.g R.FWD_CNT_RXBAD F.FWD_CNT_RXBAD_COUNT = min (s.g R.FWD_CNT_RXBAD F.FWD_CNT_RXBAD_COUNT + 1) 4294967295 ∧
      t.isSet R.FWD_RAW F.FWD_RAW_RX_BAD ∧
      t.g (R.MAC_Pn_FEC_UNCORR p) F.MAC_Pn_FEC_UNCORR_COUNT = min (s.g (R.MAC_Pn_FEC_UNCORR p)
        F.MAC_Pn_FEC_UNCORR_COUNT + 1) 4294967295 ∧
      t.isSet (R.MAC_Pn_RAW p) F.MAC_Pn_RAW_FEC_UNCORR ∧
      t.g (R.MAC_Pn_FEC_CORR p) F.MAC_Pn_FEC_CORR_COUNT = (if s.on (R.MAC_Pn_CFG p) F.MAC_Pn_CFG_FEC then min (s.g
        (R.MAC_Pn_FEC_CORR p) F.MAC_Pn_FEC_CORR_COUNT + corr) 4294967295 else s.g (R.MAC_Pn_FEC_CORR p)
        F.MAC_Pn_FEC_CORR_COUNT) ∧
      s.sameBeyond t [(0x200000, 0x280000), (R.MAC_Pn_FEC_CORR p, R.MAC_Pn_FEC_CORR p + 4), (R.FWD_CNT_RXBAD,
        R.FWD_CNT_RXBAD + 4), (R.MAC_Pn_FEC_UNCORR p, R.MAC_Pn_FEC_UNCORR p + 4)] ∧
      s.sameParts t [.fwd]) ∧
  (∀ (s : State) (p : Fin 24) (corr : Nat) (f : Frame) (l : Looked) (e : RxEnd), s.inReset = false → s.fwdOk → s.runs
    .core = true → s.fwd.frames.find? (fun g => g.port == p.val && !g.whole) = some f → f.look = some l →
    s.heldElsewhere f.id = false → s.endOf p f e ≠ .uncorr → badCause (received e f.bytes) (s.endOf p f e) ≠ none →
    Answers (exec (.frameEnd p e corr) s) fun t =>
      t.frameOf f.id = none ∧ t.queueRefs f.id = [] ∧
      t.g R.FWD_CNT_RXBAD F.FWD_CNT_RXBAD_COUNT = min (s.g R.FWD_CNT_RXBAD F.FWD_CNT_RXBAD_COUNT + 1) 4294967295 ∧
      t.isSet R.FWD_RAW F.FWD_RAW_RX_BAD ∧
      s.sameBeyond t [(0x200000, 0x280000), (R.MAC_Pn_FEC_CORR p, R.MAC_Pn_FEC_CORR p + 4), (R.FWD_CNT_RXBAD,
        R.FWD_CNT_RXBAD + 4), (R.MAC_Pn_PCS_ERR p, R.MAC_Pn_PCS_ERR p + 4)] ∧
      s.sameParts t [.fwd]) ∧
  (∀ (s : State) (p : Fin 24) (corr : Nat) (f : Frame) (l : Looked), s.inReset = false → s.fwdOk → s.runs .core =
    true → s.fwd.frames.find? (fun g => g.port == p.val && !g.whole) = some f → f.look = some l → f.stamp.fecBad =
    false → badCause f.bytes .good = none → s.sendingOf f.id = [] → Answers (exec (.frameEnd p .good corr) s) fun t =>
      (∀ g ∈ t.fwd.frames, g.id = f.id → g.whole = true ∧ g.bad = none ∧ g.cells ≤ max f.cells (cellsOf f.len)) ∧
      (s.fwd.stalled = [] → ∀ q : Fin 200, t.queue q = s.queue q) ∧
      t.g (R.MAC_Pn_FEC_CORR p) F.MAC_Pn_FEC_CORR_COUNT = (if s.on (R.MAC_Pn_CFG p) F.MAC_Pn_CFG_FEC then min (s.g
        (R.MAC_Pn_FEC_CORR p) F.MAC_Pn_FEC_CORR_COUNT + corr) 4294967295 else s.g (R.MAC_Pn_FEC_CORR p)
        F.MAC_Pn_FEC_CORR_COUNT) ∧
      s.sameBeyond t [(0x100000, 0x200000), (0x200000, 0x280000), (0x800000, 0xB00000), (R.MAC_Pn_FEC_CORR p,
        R.MAC_Pn_FEC_CORR p + 4)] ∧
      s.sameParts t [.fwd, .conds]) ∧
  (∀ (s : State) (p : Fin 24) (corr : Nat) (f : Frame) (l : Looked) (x : Sending), s.inReset = false → s.fwdOk →
    s.runs .core = true → s.fwd.frames.find? (fun g => g.port == p.val && !g.whole) = some f → f.look = some l →
    f.stamp.fecBad = false → badCause f.bytes .good = none → s.sendingOf f.id = [x] → Answers (exec (.frameEnd p
    .good corr) s) fun t =>
      s.emits t (.frame x.copy.port (sentBytes (s.pieces f l x.copy.port (f.len - 4) false) ++ leBytes 4 (carriedFcs
        f.fcs (s.pieces f l x.copy.port (f.len - 4) false)))) ∧
      Tbl.get none t.fwd.sending x.copy.port = none ∧
      t.g (R.MAC_Pn_TX_FRAMES x.copy.port) F.MAC_Pn_TX_FRAMES_COUNT = min (s.g (R.MAC_Pn_TX_FRAMES x.copy.port)
        F.MAC_Pn_TX_FRAMES_COUNT + 1) 4294967295 ∧
      s.sameBeyond t [(0x100000, 0x200000), (0x200000, 0x280000), (0x800000, 0xB00000), (R.MAC_Pn_FEC_CORR p,
        R.MAC_Pn_FEC_CORR p + 4), (R.MAC_Pn_TX_FRAMES x.copy.port, R.MAC_Pn_TX_FRAMES x.copy.port + 4),
        (R.PTS_FIFO_STATUS x.copy.port, R.PTS_FIFO_STATUS x.copy.port + 4)] ∧
      s.sameParts t [.fwd, .pts, .conds]) ∧
  (∀ (s : State) (p : Fin 24) (corr : Nat) (f : Frame) (l : Looked) (x : Sending), s.inReset = false → s.fwdOk →
    s.runs .core = true → s.isSet (R.MAC_Pn_CFG p) F.MAC_Pn_CFG_FEC → s.fwd.frames.find? (fun g => g.port == p.val &&
    !g.whole) = some f → f.look = some l → s.sendingOf f.id = [x] → Answers (exec (.frameEnd p .uncorr corr) s) fun t
    =>
      s.emits t (.frame x.copy.port (sentBytes (s.pieces f l x.copy.port (f.len - 4) false) ++ leBytes 4 (crcFold
        0xEDB88320 0xFFFFFFFF (sentBytes (s.pieces f l x.copy.port (f.len - 4) false))))) ∧
      Tbl.get none t.fwd.sending x.copy.port = none ∧
      t.g (R.MAC_Pn_TX_FRAMES x.copy.port) F.MAC_Pn_TX_FRAMES_COUNT = min (s.g (R.MAC_Pn_TX_FRAMES x.copy.port)
        F.MAC_Pn_TX_FRAMES_COUNT + 1) 4294967295 ∧
      t.g R.FWD_CNT_STOMP F.FWD_CNT_STOMP_COUNT = min (s.g R.FWD_CNT_STOMP F.FWD_CNT_STOMP_COUNT + 1) 4294967295 ∧
      t.isSet R.FWD_RAW F.FWD_RAW_STOMP ∧
      s.sameBeyond t [(0x100000, 0x200000), (0x200000, 0x280000), (0x800000, 0xB00000), (R.MAC_Pn_FEC_CORR p,
        R.MAC_Pn_FEC_CORR p + 4), (R.MAC_Pn_TX_FRAMES x.copy.port, R.MAC_Pn_TX_FRAMES x.copy.port + 4),
        (R.PTS_FIFO_STATUS x.copy.port, R.PTS_FIFO_STATUS x.copy.port + 4), (R.MAC_Pn_FEC_UNCORR p,
        R.MAC_Pn_FEC_UNCORR p + 4)] ∧
      s.sameParts t [.fwd, .pts, .conds])

/-- R241, R243 to R245, R247 and R248: the sweep clears HIT of a learned entry, or invalidates one without HIT; a
word of an entry waits in the staging buffer until the commit word copies it into the table and advances the epoch; a
commit of a flow context can clear its state words; a drain waits for the frames that have been looked up. Where the
spec is silent it rests on the choices of the model in log entries 3, 22, 23, 24 and 25. -/
def Obligations.ForwardingTable : Prop :=
  (∀ (s : State) (e : Fin 65536), s.inReset = false → s.g R.FWD_AGE F.FWD_AGE_PERIOD_S ≠ 0 → maskBit (s.tw (0x800000
    + 32 * e.val) 0) 30 = false → maskBit (s.tw (0x800000 + 32 * e.val) 0) 31 = true → maskBit (s.tw (0x800000 + 32 *
    e.val) 0) 28 = true → maskBit (s.tw (0x800000 + 32 * e.val) 0) 29 = true → Answers (exec (.learningSweep e) s)
    fun t =>
      t.tw (0x800000 + 32 * e.val) 0 = maskClr (s.tw (0x800000 + 32 * e.val) 0) 29 ∧
      t.g R.FWD_EPOCH F.FWD_EPOCH_CURRENT = (s.g R.FWD_EPOCH F.FWD_EPOCH_CURRENT + 1) % 65536 ∧
      s.sameBut t [(0x800000 + 32 * e.val), R.FWD_EPOCH] ∧ s.sameParts t []) ∧
  (∀ (s : State) (e : Fin 65536), s.inReset = false → s.g R.FWD_AGE F.FWD_AGE_PERIOD_S ≠ 0 → maskBit (s.tw (0x800000
    + 32 * e.val) 0) 30 = false → maskBit (s.tw (0x800000 + 32 * e.val) 0) 31 = true → maskBit (s.tw (0x800000 + 32 *
    e.val) 0) 28 = true → maskBit (s.tw (0x800000 + 32 * e.val) 0) 29 = false → bitsOf (s.tw (0x800000 + 32 * e.val)
    0) 27 26 ≠ 2 ∨ maskBit (s.tw (0x800000 + 32 * e.val) 5) 31 = false → Answers (exec (.learningSweep e) s) fun t =>
      t.tw (0x800000 + 32 * e.val) 0 = maskClr (maskClr (s.tw (0x800000 + 32 * e.val) 0) 31) 28 ∧
      t.g R.FWD_EPOCH F.FWD_EPOCH_CURRENT = (s.g R.FWD_EPOCH F.FWD_EPOCH_CURRENT + 1) % 65536 ∧
      s.sameBut t [(0x800000 + 32 * e.val), R.FWD_EPOCH] ∧ s.sameParts t []) ∧
  (∀ (s : State) (e : Fin 65536), s.inReset = false → s.g R.FWD_AGE F.FWD_AGE_PERIOD_S ≠ 0 → maskBit (s.tw (0x800000
    + 32 * e.val) 0) 30 = false → maskBit (s.tw (0x800000 + 32 * e.val) 0) 31 = true → maskBit (s.tw (0x800000 + 32 *
    e.val) 0) 28 = true → maskBit (s.tw (0x800000 + 32 * e.val) 0) 29 = false → bitsOf (s.tw (0x800000 + 32 * e.val)
    0) 27 26 = 2 → maskBit (s.tw (0x800000 + 32 * e.val) 5) 31 = true → Answers (exec (.learningSweep e) s) fun t =>
      t.tw (0x800000 + 32 * e.val) 0 = maskClr (maskClr (s.tw (0x800000 + 32 * e.val) 0) 31) 28 ∧
      t.tw (ctxAddr (bitsOf (s.tw (0x800000 + 32 * e.val) 5) 13 0)) 0 = maskClr (s.tw (ctxAddr (bitsOf (s.tw
        (0x800000 + 32 * e.val) 5) 13 0)) 0) 31 ∧
      t.g R.FWD_EPOCH F.FWD_EPOCH_CURRENT = (s.g R.FWD_EPOCH F.FWD_EPOCH_CURRENT + 1) % 65536 ∧
      s.sameBut t [(0x800000 + 32 * e.val), R.FWD_EPOCH, (ctxAddr (bitsOf (s.tw (0x800000 + 32 * e.val) 5) 13 0))] ∧
      s.sameParts t [.conds, .free]) ∧
  (∀ (s : State) (e : Fin 65536), s.inReset = false → s.g R.FWD_AGE F.FWD_AGE_PERIOD_S = 0 ∨ maskBit (s.tw (0x800000
    + 32 * e.val) 0) 30 = true ∨ maskBit (s.tw (0x800000 + 32 * e.val) 0) 31 = false ∨ maskBit (s.tw (0x800000 + 32 *
    e.val) 0) 28 = false → Answers (exec (.learningSweep e) s) fun t =>
      t.tw (0x800000 + 32 * e.val) 0 = s.tw (0x800000 + 32 * e.val) 0 ∧ s.sameBut t [] ∧ s.sameParts t []) ∧
  (∀ (s : State) (a w : Nat) (v : Word), s.accepts a → mapped a = true → a % 4 = 0 → isTable a = true → tableWord a ≠
    7 → stagedWord a v.toNat = some w → s.staging a = none → Answers (exec (.tableStageWrite a v) s) fun t =>
      t.staging a = some (⟨tableEntry a, [(tableWord a, some w)]⟩ : Staging) ∧
      (a < 0xA00000 → t.isSet R.FWD_STATUS F.FWD_STATUS_FE_STAGED) ∧
      (0xA00000 ≤ a → t.isSet R.FWD_STATUS F.FWD_STATUS_FC_STAGED) ∧ s.sameBut t [R.FWD_STATUS] ∧
      s.sameParts t [.fwd]) ∧
  (∀ (s : State) (a w : Nat) (v : Word) (y : Staging), s.accepts a → mapped a = true → a % 4 = 0 → isTable a = true →
    tableWord a ≠ 7 → stagedWord a v.toNat = some w → s.staging a = some y → y.entry ≠ tableEntry a → Answers (exec
    (.tableStageWrite a v) s) fun t =>
      t.staging a = some (⟨tableEntry a, [(tableWord a, some w)]⟩ : Staging) ∧
      t.g R.FWD_CNT_STAGE_ABORT F.FWD_CNT_STAGE_ABORT_COUNT = min (s.g R.FWD_CNT_STAGE_ABORT
        F.FWD_CNT_STAGE_ABORT_COUNT + 1) 4294967295 ∧
      t.isSet R.FWD_RAW F.FWD_RAW_STAGE_ABORT ∧ s.sameBut t [R.FWD_STATUS, R.FWD_CNT_STAGE_ABORT] ∧
      s.sameParts t [.fwd]) ∧
  (∀ (s : State) (a : Nat) (v : Word) (y : Staging), s.accepts a → mapped a = true → a % 4 = 0 → isTable a = true → a
    < 0xA00000 → s.mirrorOver.reg R.RUT_STATUS = s.reg R.RUT_STATUS → tableWord a = 7 → s.staging a = some y →
    y.entry = tableEntry a → Tbl.wf (fun _ => none) y.words = true → (∀ x ∈ y.words, x.1 < 7 ∧ ∀ w ∈ x.2, w <
    4294967296) → Answers (exec (.tableCommit a v) s) fun t =>
      (∀ i : Fin 6, 3 ≤ i.val → t.tw (tableEntry a) i = (Tbl.get none y.words i.val).getD (s.tw (tableEntry a) i.val)) ∧
      bitsOf (t.tw (tableEntry a) 0) 31 30 = bitsOf ((Tbl.get none y.words 0).getD (s.tw (tableEntry a) 0)) 31 30 ∧
      bitsOf (t.tw (tableEntry a) 0) 27 26 = bitsOf ((Tbl.get none y.words 0).getD (s.tw (tableEntry a) 0)) 27 26 ∧
      maskBit (t.tw (tableEntry a) 0) 29 = false ∧ t.staging a = none ∧
      t.g R.FWD_EPOCH F.FWD_EPOCH_CURRENT = (s.g R.FWD_EPOCH F.FWD_EPOCH_CURRENT + 1) % 65536 ∧
      s.sameBeyond t [((tableEntry a), (tableEntry a) + 28), (R.FWD_EPOCH, R.FWD_EPOCH + 4), (R.FWD_STATUS,
        R.FWD_STATUS + 4)] ∧
      s.sameParts t [.fwd]) ∧
  (∀ (s : State) (a : Nat) (v : Word) (y : Staging), s.accepts a → mapped a = true → a % 4 = 0 → isTable a = true →
    tableWord a = 7 → s.staging a = some y → y.entry ≠ tableEntry a → a < 0xA00000 → s.mirrorOver.reg R.RUT_STATUS =
    s.reg R.RUT_STATUS → Answers (exec (.tableCommit a v) s) fun t =>
      t.g R.FWD_CNT_STAGE_ABORT F.FWD_CNT_STAGE_ABORT_COUNT = min (s.g R.FWD_CNT_STAGE_ABORT
        F.FWD_CNT_STAGE_ABORT_COUNT + 1) 4294967295 ∧
      t.isSet R.FWD_RAW F.FWD_RAW_STAGE_ABORT ∧
      (∀ i : Fin 6, 3 ≤ i.val → t.tw (tableEntry a) i = s.tw (tableEntry a) i) ∧ t.staging a = none ∧
      t.g R.FWD_EPOCH F.FWD_EPOCH_CURRENT = (s.g R.FWD_EPOCH F.FWD_EPOCH_CURRENT + 1) % 65536 ∧
      s.sameBeyond t [((tableEntry a), (tableEntry a) + 28), (R.FWD_EPOCH, R.FWD_EPOCH + 4), (R.FWD_STATUS,
        R.FWD_STATUS + 4), (R.FWD_CNT_STAGE_ABORT, R.FWD_CNT_STAGE_ABORT + 4)] ∧
      s.sameParts t [.fwd]) ∧
  (∀ (s : State) (a : Nat) (v : Word), s.accepts a → mapped a = true → a % 4 = 0 → isTable a = true → tableWord a = 7
    → s.staging a = none → a < 0xA00000 → s.mirrorOver.reg R.RUT_STATUS = s.reg R.RUT_STATUS → Answers (exec
    (.tableCommit a v) s) fun t =>
      (∀ i : Fin 6, 3 ≤ i.val → t.tw (tableEntry a) i = s.tw (tableEntry a) i) ∧
      bitsOf (t.tw (tableEntry a) 0) 31 30 = bitsOf (s.tw (tableEntry a) 0) 31 30 ∧
      maskBit (t.tw (tableEntry a) 0) 29 = false ∧ t.staging a = none ∧
      t.g R.FWD_EPOCH F.FWD_EPOCH_CURRENT = (s.g R.FWD_EPOCH F.FWD_EPOCH_CURRENT + 1) % 65536 ∧
      s.sameBeyond t [((tableEntry a), (tableEntry a) + 12), (R.FWD_EPOCH, R.FWD_EPOCH + 4), (R.FWD_STATUS,
        R.FWD_STATUS + 4)] ∧
      s.sameParts t [.fwd]) ∧
  (∀ (s : State) (a : Nat) (v : Word) (y : Staging), s.accepts a → mapped a = true → a % 4 = 0 → isTable a = true →
    0xA00000 ≤ a → tableWord a = 7 → s.staging a = some y → y.entry = tableEntry a → Tbl.wf (fun _ => none) y.words =
    true → (∀ x ∈ y.words, x.1 < 7 ∧ ∀ w ∈ x.2, w < 4294967296) → Answers (exec (.tableCommit a v) s) fun t =>
      (∀ i : Fin 5, t.tw (tableEntry a) i = (Tbl.get none y.words i.val).getD (s.tw (tableEntry a) i.val)) ∧
      (v.toNat % 2 = 1 → ∀ k : Fin 8, t.tw (tableEntry a) (8 + k) = 0) ∧ t.staging a = none ∧
      t.g R.FWD_EPOCH F.FWD_EPOCH_CURRENT = (s.g R.FWD_EPOCH F.FWD_EPOCH_CURRENT + 1) % 65536 ∧
      s.sameBeyond t [((tableEntry a), (tableEntry a) + 64), (R.FWD_EPOCH, R.FWD_EPOCH + 4), (R.FWD_STATUS,
        R.FWD_STATUS + 4), (R.RUT_STATUS, R.RUT_STATUS + 4)] ∧
      s.sameParts t [.fwd, .conds]) ∧
  (∀ (s : State) (a : Nat) (v : Word), s.accepts a → mapped a = true → a % 4 = 0 → isTable a = true → 0xA00000 ≤ a →
    tableWord a = 7 → s.staging a = none → v.toNat % 2 = 1 → Answers (exec (.tableCommit a v) s) fun t =>
      (∀ k : Fin 8, t.tw (tableEntry a) (8 + k) = 0) ∧
      (∀ i : Fin 7, t.tw (tableEntry a) i = s.tw (tableEntry a) i) ∧ t.staging a = none ∧
      t.g R.FWD_EPOCH F.FWD_EPOCH_CURRENT = (s.g R.FWD_EPOCH F.FWD_EPOCH_CURRENT + 1) % 65536 ∧
      s.sameBeyond t [((tableEntry a) + 32, (tableEntry a) + 64), (R.FWD_EPOCH, R.FWD_EPOCH + 4), (R.FWD_STATUS,
        R.FWD_STATUS + 4), (R.RUT_STATUS, R.RUT_STATUS + 4)] ∧
      s.sameParts t [.fwd, .conds]) ∧
  (∀ (s : State) (a : Nat) (v : Word), s.accepts a → mapped a = true → a % 4 = 0 → isTable a = true → 0xA00000 ≤ a →
    tableWord a = 7 → s.staging a = none → v.toNat % 2 = 0 → Answers (exec (.tableCommit a v) s) fun t =>
      (∀ i : Fin 7, t.tw (tableEntry a) i = s.tw (tableEntry a) i) ∧ t.staging a = none ∧
      t.g R.FWD_EPOCH F.FWD_EPOCH_CURRENT = (s.g R.FWD_EPOCH F.FWD_EPOCH_CURRENT + 1) % 65536 ∧
      s.sameBeyond t [((tableEntry a) + 32, (tableEntry a) + 64), (R.FWD_EPOCH, R.FWD_EPOCH + 4), (R.FWD_STATUS,
        R.FWD_STATUS + 4), (R.RUT_STATUS, R.RUT_STATUS + 4)] ∧
      s.sameParts t [.fwd, .conds]) ∧
  (∀ (s : State) (a : Nat) (v : Word) (y : Staging) (w : Nat), s.accepts a → mapped a = true → a % 4 = 0 → isTable a
    = true → tableWord a ≠ 7 → stagedWord a v.toNat = some w → s.staging a = some y → y.entry = tableEntry a →
    Answers (exec (.tableStageWrite a v) s) fun t =>
      t.staging a = some { y with words := Tbl.set none y.words (tableWord a) (some w) } ∧
      s.sameBut t [R.FWD_STATUS] ∧ s.sameParts t [.fwd]) ∧
  (∀ (s : State) (v : Word), s.accepts R.FWD_DRAIN → Answers (exec (.fwdDrain v) s) fun t =>
      t.fwd =
        { s.fwd with drain := (s.fwd.frames.filter (fun (f : Frame) => f.look.isSome)).map (fun (f : Frame) => f.id) }
        ∧
      t.isSet R.FWD_STATUS F.FWD_STATUS_DRAIN_PENDING ∧ s.sameBut t [R.FWD_STATUS] ∧ s.sameParts t [.fwd]) ∧
  (∀ (s : State), s.inReset = false → s.isSet R.FWD_STATUS F.FWD_STATUS_DRAIN_PENDING → s.fwd.drain.all (fun i =>
    s.fwd.frames.all (fun f => f.id != i)) = true → Answers (exec (.drainDone) s) fun t =>
      t.g R.FWD_STATUS F.FWD_STATUS_DRAIN_PENDING = 0 ∧ t.isSet R.FWD_RAW F.FWD_RAW_DRAIN_DONE ∧ t.fwd.drain = [] ∧
      s.sameBut t [R.FWD_STATUS] ∧ s.sameParts t [.fwd])

/-- R202, R258 to R261: an illegal ring 0 descriptor completes with ERR; a direct frame joins the queue of the port
it names; another enters the slices on P24; a copy at the head of P24 leaves for ring 1 with its 16-byte header; a
consumed management message joins the P24 queue of its class. Where the spec is silent it rests on the choices of the
model in log entries 3, 22, 23, 24 and 25. -/
def Obligations.HostPort : Prop :=
  (∀ (s : State) (desc mem : List Byte), s.inReset = false → (s.ready 0).length < s.posted 0 → s.runs .core = true →
    hostLen (descFlags desc) (descLen desc) = false → Answers (exec (.hostFrameIngest desc mem) s) fun t =>
      t.ready 0 = s.ready 0 ++ [(⟨[], 2 ^ 14 + 2 ^ 16, desc⟩ : Content)] ∧ s.sameBut t [] ∧ s.sameParts t [.hif]) ∧
  (∀ (s : State) (desc mem : List Byte), s.inReset = false → (s.ready 0).length < s.posted 0 → s.runs .core = true →
    s.fwdOk → hostLen (descFlags desc) (descLen desc) = true → maskBit (descFlags desc) 13 = true → s.cellsFree 24 =
    true → s.fwd.stalled = [] → descFlags desc % 32 < 24 → badCause (hostBytes (descFlags desc) (slice mem 0 (descLen
    desc))) .good = none → s.charged (.min (8 * (descFlags desc % 32) + bitsOf (descFlags desc) 12 10)) + cellsOf
    (hostBytes (descFlags desc) (slice mem 0 (descLen desc))).length ≤ s.g (R.QUE_Qq_MIN (8 * (descFlags desc % 32) +
    bitsOf (descFlags desc) 12 10)) F.QUE_Qq_MIN_CELLS → Answers (exec (.hostFrameIngest desc mem) s) fun t =>
      t.ready 0 = s.ready 0 ++ [(⟨slice mem 0 (descLen desc), 0, desc⟩ : Content)] ∧
      t.queue (8 * (descFlags desc % 32) + bitsOf (descFlags desc) 12 10) = s.queue (8 * (descFlags desc % 32) +
        bitsOf (descFlags desc) 12 10) ++ [(⟨s.fwd.nextId, descFlags desc % 32, bitsOf (descFlags desc) 12 10, s.us,
        false, false, 0⟩ : QCopy)] ∧
      (∃ f ∈ t.fwd.frames, f.bytes = (hostBytes (descFlags desc) (slice mem 0 (descLen desc))) ∧ f.account =
        Account.min (8 * (descFlags desc % 32) + bitsOf (descFlags desc) 12 10) ∧ f.tag = (if maskBit (descFlags
        desc) 14 then some (s.nextDesc 0) else none)) ∧
      s.sameBeyond t [(0x200000, 0x280000)] ∧ s.sameParts t [.hif, .fwd]) ∧
  (∀ (s : State) (desc mem : List Byte), s.inReset = false → (s.ready 0).length < s.posted 0 → s.runs .core = true →
    s.fwdOk → hostLen (descFlags desc) (descLen desc) = true → maskBit (descFlags desc) 13 = true → s.cellsFree 24 =
    true → descFlags desc % 32 < 24 → badCause (hostBytes (descFlags desc) (slice mem 0 (descLen desc))) .good = none
    → s.charged (.min (8 * (descFlags desc % 32) + bitsOf (descFlags desc) 12 10)) + cellsOf (hostBytes (descFlags
    desc) (slice mem 0 (descLen desc))).length ≤ s.g (R.QUE_Qq_MIN (8 * (descFlags desc % 32) + bitsOf (descFlags
    desc) 12 10)) F.QUE_Qq_MIN_CELLS → Answers (exec (.hostFrameIngest desc mem) s) fun t =>
      t.ready 0 = s.ready 0 ++ [(⟨slice mem 0 (descLen desc), 0, desc⟩ : Content)] ∧
      (⟨s.fwd.nextId, descFlags desc % 32, bitsOf (descFlags desc) 12 10, s.us, false, false, 0⟩ : QCopy) ∈ t.queue
        (8 * (descFlags desc % 32) + bitsOf (descFlags desc) 12 10) ∧
      (∃ f ∈ t.fwd.frames, f.bytes = (hostBytes (descFlags desc) (slice mem 0 (descLen desc))) ∧ f.account =
        Account.min (8 * (descFlags desc % 32) + bitsOf (descFlags desc) 12 10) ∧ f.tag = (if maskBit (descFlags
        desc) 14 then some (s.nextDesc 0) else none)) ∧
      s.sameBeyond t [(0x200000, 0x280000)] ∧ s.sameParts t [.hif, .fwd]) ∧
  (∀ (s : State) (desc mem : List Byte), s.inReset = false → (s.ready 0).length < s.posted 0 → s.runs .core = true →
    s.fwdOk → hostLen (descFlags desc) (descLen desc) = true → maskBit (descFlags desc) 13 = true → s.cellsFree 24 =
    true → 24 ≤ descFlags desc % 32 → Answers (exec (.hostFrameIngest desc mem) s) fun t =>
      t.ready 0 = s.ready 0 ++ [(⟨[], 2 ^ 14, desc⟩ : Content)] ∧ s.sameBut t [] ∧ s.sameParts t [.hif]) ∧
  (∀ (s : State) (desc mem : List Byte), s.inReset = false → (s.ready 0).length < s.posted 0 → s.runs .core = true →
    s.fwdOk → hostLen (descFlags desc) (descLen desc) = true → maskBit (descFlags desc) 13 = true → s.cellsFree 24 =
    true → descFlags desc % 32 < 24 → badCause (hostBytes (descFlags desc) (slice mem 0 (descLen desc))) .good ≠ none
    → Answers (exec (.hostFrameIngest desc mem) s) fun t =>
      t.ready 0 = s.ready 0 ++ [(⟨slice mem 0 (descLen desc), 0, desc⟩ : Content)] ∧
      t.g R.FWD_CNT_RXBAD F.FWD_CNT_RXBAD_COUNT = min (s.g R.FWD_CNT_RXBAD F.FWD_CNT_RXBAD_COUNT + 1) 4294967295 ∧
      t.isSet R.FWD_RAW F.FWD_RAW_RX_BAD ∧ s.sameBut t [R.FWD_CNT_RXBAD] ∧ s.sameParts t [.hif]) ∧
  (∀ (s : State) (desc mem : List Byte), s.inReset = false → (s.ready 0).length < s.posted 0 → s.runs .core = true →
    hostLen (descFlags desc) (descLen desc) = true → maskBit (descFlags desc) 13 = false → s.cellsFree 24 = true →
    Answers (exec (.hostFrameIngest desc mem) s) fun t =>
      t.ready 0 = s.ready 0 ++ [(⟨slice mem 0 (descLen desc), 0, desc⟩ : Content)] ∧
      t.fwd.frames = s.fwd.frames ++ [(s.land
        { (s.newFrame 24 (s.ingressPrio 24 (hostBytes (descFlags desc) (slice mem 0 (descLen desc)))) (hostBytes (descFlags desc) (slice mem 0 (descLen desc))) s.hostStamp) with whole := true, bad := badCause (hostBytes (descFlags desc) (slice mem 0 (descLen desc))) .good }
        (cellsOf (hostBytes (descFlags desc) (slice mem 0 (descLen desc))).length))] ∧
      s.sameBeyond t [(0x200000, 0x280000)] ∧ s.sameParts t [.hif, .fwd]) ∧
  (∀ (s : State) (c : QCopy) (f : Frame) (l : Looked), s.inReset = false → s.fwdOk → s.posted 1 ≠ 0 → s.runs .core =
    true → s.ready 1 = [] → s.g (R.FWD_PORTn_STATE 24) F.FWD_PORTn_STATE_STATE = 3 → s.pickClass 24 = some c → s.aged
    c = false → s.frameOf c.frame = some f → f.look = some l → Answers (exec (.hostFrameDeliver) s) fun t =>
      t.ready 1 = [(⟨hostFrame f l c.reason (s.hostCopy f l), 0, []⟩ : Content)] ∧
      (s.queue c.queue).drop 1 <+: t.queue c.queue ∧
      (s.fwd.stalled = [] → t.queue c.queue = (s.queue c.queue).drop 1) ∧ s.sameBeyond t [(0x200000, 0x280000)] ∧
      s.sameParts t [.hif, .fwd]) ∧
  (∀ (s : State) (x : StampIn) (c : QCopy) (f : Frame) (l : Looked), s.inReset = false → s.fwdOk → s.posted 1 ≠ 0 →
    s.runs .core = true → s.ready 1 = [] → s.g (R.FWD_PORTn_STATE 24) F.FWD_PORTn_STATE_STATE = 3 → s.pickClass 24 =
    some c → s.aged c = false → s.frameOf c.frame = some f → f.look = some l → Answers (exec (.egressSelect 24 x) s)
    fun t =>
      t.ready 1 = [(⟨hostFrame f l c.reason (s.hostCopy f l), 0, []⟩ : Content)] ∧
      (s.queue c.queue).drop 1 <+: t.queue c.queue ∧
      (s.fwd.stalled = [] → t.queue c.queue = (s.queue c.queue).drop 1) ∧ s.sameBeyond t [(0x200000, 0x280000)] ∧
      s.sameParts t [.hif, .fwd]) ∧
  (∀ (s : State) (p : Fin 24) (f : Frame) (l : Looked) (a : Account), s.inReset = false → s.fwdOk → s.running = true
    → s.fwd.frames.find? (fun g => g.port == p.val && g.whole && g.bad.isNone && !g.placed && g.look.any (fun l =>
    l.mgmt)) = some f → f.look = some l → s.fwd.stalled = [] → l.herd = none → s.mgmtOk f l = true → s.accountFor f
    { l with dests := [24], reason := 3 } = some a → Answers (exec (.ptpMgmtRx p) s) fun t =>
      t.queue (192 + l.cls) = s.queue (192 + l.cls) ++ [(⟨f.id, 24, l.cls, s.us, false, false, 3⟩ : QCopy)] ∧
      { f with look := some { l with dests := [24], reason := 3 }, landing := 0, landPool := 0, account := a, placed := true, toPlace := [] }
        ∈ t.fwd.frames ∧
      s.sameBeyond t [(0x200000, 0x280000)] ∧ s.sameParts t [.fwd]) ∧
  (∀ (s : State) (p : Fin 24) (f : Frame) (l : Looked) (a : Account), s.inReset = false → s.fwdOk → s.running = true
    → s.fwd.frames.find? (fun g => g.port == p.val && g.whole && g.bad.isNone && !g.placed && g.look.any (fun l =>
    l.mgmt)) = some f → f.look = some l → l.herd = none → s.mgmtOk f l = true → s.accountFor f
    { l with dests := [24], reason := 3 } = some a → Answers (exec (.ptpMgmtRx p) s) fun t =>
      (⟨f.id, 24, l.cls, s.us, false, false, 3⟩ : QCopy) ∈ t.queue (192 + l.cls) ∧
      { f with look := some { l with dests := [24], reason := 3 }, landing := 0, landPool := 0, account := a, placed := true, toPlace := [] }
        ∈ t.fwd.frames ∧
      s.sameBeyond t [(0x200000, 0x280000)] ∧ s.sameParts t [.fwd]) ∧
  (∀ (s : State) (p : Fin 24) (f : Frame) (l : Looked), s.inReset = false → s.fwdOk → s.running = true →
    s.fwd.frames.find? (fun g => g.port == p.val && g.whole && g.bad.isNone && !g.placed && g.look.any (fun l =>
    l.mgmt)) = some f → f.look = some l → s.mgmtOk f l = false → s.heldElsewhere f.id = false → s.queueRefs f.id = []
    → f.toPlace = [] → Answers (exec (.ptpMgmtRx p) s) fun t =>
      t.frameOf f.id = none ∧
      t.g (R.PTP_Pn_CNT_ERR p) F.PTP_Pn_CNT_ERR_DISCARDED = min (s.g (R.PTP_Pn_CNT_ERR p) F.PTP_Pn_CNT_ERR_DISCARDED
        + 1) 65535 ∧
      s.sameBeyond t [(0x200000, 0x280000), (R.PTP_Pn_CNT_ERR p, R.PTP_Pn_CNT_ERR p + 4)] ∧ s.sameParts t [.fwd])

/-- R257, R270 and R289 to R292: a port without Herd copies sends the frame of the copy it selects, edited and with
its FCS carried through, and counts it; the age scan discards and counts an aged copy at the head of a queue, and its
frame goes with its last copy. Where the spec is silent it rests on the choices of the model in log entries 3, 22,
23, 24 and 25. -/
def Obligations.EgressAndAgeing : Prop :=
  (∀ (s : State) (p : Fin 25) (x : StampIn) (c : QCopy) (f : Frame) (l : Looked), s.inReset = false → s.fwdOk → p.val
    < 24 → s.mayTransmit p = true → (∀ k ∈ (s.cal p).head?, (s.herdInfo k).isSome = true ∧ fineLe (s.ideal p k.r)
    (fineOf (tickOf (s.txStamp p x).t)) = false) → s.passList p = [] → s.pickClass p = some c → s.aged c = false →
    s.frameOf c.frame = some f → f.look = some l → f.whole = true → s.guardOk p (s.txStamp p x) (s.guardTime f l p
    c.cut false) = true → Answers (exec (.egressSelect p x) s) fun t =>
      s.emits t (.frame p (sentBytes (s.pieces f l p (f.len - 4) false) ++ leBytes 4 (carriedFcs f.fcs (s.pieces f l
        p (f.len - 4) false)))) ∧
      (s.queue c.queue).drop 1 <+: t.queue c.queue ∧
      (s.fwd.stalled = [] → t.queue c.queue = (s.queue c.queue).drop 1) ∧
      t.g (R.MAC_Pn_TX_FRAMES p) F.MAC_Pn_TX_FRAMES_COUNT = min (s.g (R.MAC_Pn_TX_FRAMES p) F.MAC_Pn_TX_FRAMES_COUNT
        + 1) 4294967295 ∧
      s.sameBeyond t [(0x200000, 0x280000), (R.MAC_Pn_TX_FRAMES p, R.MAC_Pn_TX_FRAMES p + 4), (R.PTS_FIFO_STATUS p,
        R.PTS_FIFO_STATUS p + 4)] ∧
      s.sameParts t [.fwd, .pts]) ∧
  (∀ (s : State) (p : Fin 25) (x : StampIn) (c : QCopy) (f : Frame) (l : Looked), s.inReset = false → s.fwdOk → p.val
    < 24 → s.mayTransmit p = true → (∀ k ∈ (s.cal p).head?, (s.herdInfo k).isSome = true ∧ fineLe (s.ideal p k.r)
    (fineOf (tickOf (s.txStamp p x).t)) = false) → s.passList p = [] → s.pickClass p = some c → s.aged c = false →
    s.frameOf c.frame = some f → f.look = some l → f.whole = false → s.guardOk p (s.txStamp p x) (s.guardTime f l p
    c.cut false) = true → Answers (exec (.egressSelect p x) s) fun t =>
      Tbl.get none t.fwd.sending p = some (⟨c, (s.txStamp p x)⟩ : Sending) ∧
      t.queue c.queue = (s.queue c.queue).drop 1 ∧ s.sameBeyond t [] ∧ s.sameParts t [.fwd]) ∧
  (∀ (s : State) (p : Fin 25) (x : StampIn) (c : HCopy) (k : List HCopy) (f : Frame) (l : Looked) (i : HerdInfo),
    s.inReset = false → s.fwdOk → p.val < 24 → s.mayTransmit p = true → (∀ k ∈ (s.cal p).head?, (s.herdInfo k).isSome
    = true ∧ fineLe (s.ideal p k.r) (fineOf (tickOf (s.txStamp p x).t)) = false) → s.passList p = c :: k → s.herdInfo
    c = some (f, l, i) → c.reason = 4 ∨ 0 ≤ tickDiff (tickOf (s.txStamp p x).t) c.r → s.gateShut p = false → s.paused
    p l.cls = false → s.guardOk p (s.txStamp p x) (s.guardTime f l p false true) = true → Answers (exec
    (.egressSelect p x) s) fun t =>
      s.emits t (.frame p (sentBytes (s.pieces f l p (f.len - 4) true) ++ leBytes 4 (carriedFcs f.fcs (s.pieces f l p
        (f.len - 4) true)))) ∧
      t.passList p = k ∧
      t.g R.HRD_CNT_PASSED F.HRD_CNT_PASSED_COUNT = min (s.g R.HRD_CNT_PASSED F.HRD_CNT_PASSED_COUNT + 1) 4294967295 ∧
      t.isSet R.HRD_RAW F.HRD_RAW_PASSED ∧
      t.g (R.MAC_Pn_TX_FRAMES p) F.MAC_Pn_TX_FRAMES_COUNT = min (s.g (R.MAC_Pn_TX_FRAMES p) F.MAC_Pn_TX_FRAMES_COUNT
        + 1) 4294967295 ∧
      s.sameBeyond t [(0x200000, 0x280000), (R.MAC_Pn_TX_FRAMES p, R.MAC_Pn_TX_FRAMES p + 4), (R.PTS_FIFO_STATUS p,
        R.PTS_FIFO_STATUS p + 4), (0x280000, 0x300000)] ∧
      s.sameParts t [.fwd, .pts]) ∧
  (∀ (s : State) (p : Fin 25) (x : StampIn) , s.inReset = false → s.fwdOk → p.val < 24 → s.mayTransmit p = true → (∀
    k ∈ (s.cal p).head?, (s.herdInfo k).isSome = true ∧ fineLe (s.ideal p k.r) (fineOf (tickOf (s.txStamp p x).t)) =
    false) → s.passList p = [] → s.pickClass p = none → Answers (exec (.egressSelect p x) s) fun t =>
      t.out = s.out ∧ (s.fwd.stalled = [] → ∀ q : Fin 200, t.queue q = s.queue q) ∧
      s.sameBeyond t [(0x200000, 0x280000)] ∧ s.sameParts t [.fwd]) ∧
  (∀ (s : State) (p : Fin 25) (x : StampIn) , s.inReset = false → p.val < 24 → s.mayTransmit p = false → (∀ k ∈
    (s.cal p).head?, (s.herdInfo k).isSome = true ∧ fineLe (s.ideal p k.r) (fineOf (tickOf (s.txStamp p x).t)) =
    false) → Answers (exec (.egressSelect p x) s) fun t =>
      t.out = s.out ∧ t.fwd = s.fwd ∧ s.sameBut t [] ∧ s.sameParts t []) ∧
  (∀ (s : State), s.inReset = false → s.fwdOk → s.runs .core = true → Answers (exec (.ageScan) s) fun t =>
      (∀ q : Fin 200, (s.queue q).dropWhile s.aged <+: t.queue q) ∧
      (s.fwd.stalled = [] → ∀ q : Fin 200, t.queue q = (s.queue q).dropWhile s.aged) ∧
      (∀ p : Fin 25, t.g (R.QUE_Pn_CNT_AGED p) F.QUE_Pn_CNT_AGED_COUNT = min (s.g (R.QUE_Pn_CNT_AGED p)
        F.QUE_Pn_CNT_AGED_COUNT + ((List.range 8).map (fun k => ((s.queue (8 * p.val + k)).takeWhile
        s.aged).length)).sum) 4294967295) ∧
      (∃ q : Fin 200, (s.queue q).takeWhile s.aged ≠ []) → t.isSet R.QUE_RAW F.QUE_RAW_AGED ∧
      s.sameBeyond t [(0x200000, 0x280000)] ∧ s.sameParts t [.fwd, .conds])

/-- R274, R276 to R278 and R428: a copy of an over-full queue beyond the kept head is written to DRAM and counted in
SPILL_USED; it is read back when the head has room; a chain that is lost discards what it held; training ends with
TRAINED and DRAM_READY, or with a fault record. Where the spec is silent it rests on the choices of the model in log
entries 3, 22, 23, 24 and 25. -/
def Obligations.SpillAndDram : Prop :=
  (∀ (s : State) (q : Fin 200) (f : Frame) (l : Looked) (c : QCopy) (h r : List QCopy), s.inReset = false → s.fwdOk →
    s.frameOf c.frame = some f → f.whole = true → f.look = some l → s.queue q = h ++ c :: r → s.spillUp = true →
    s.dramWaits = false → l.herd = none → c.dram = false → s.g (R.QUE_Qq_MIN q) F.QUE_Qq_MIN_CELLS + s.g
    R.QUE_SPILL_CFG F.QUE_SPILL_CFG_SPILL_TH < (s.reg (R.QUE_Qq_ONDIE q)).toNat → (∀ x ∈ h, x.dram = false ∧
    (s.frameOf x.frame).isSome = true) → (h.map (fun x => (s.frameOf x.frame).elim 0 (fun g => g.cells))).sum ≤ s.g
    R.QUE_SPILL_CFG F.QUE_SPILL_CFG_HEAD_KEEP → s.g R.QUE_SPILL_CFG F.QUE_SPILL_CFG_HEAD_KEEP < (h.map (fun x =>
    (s.frameOf x.frame).elim 0 (fun g => g.cells))).sum + f.cells → (s.reg R.QUE_SPILL_USED).toNat + cellsOf (f.len +
    64) ≤ s.g R.QUE_PART F.QUE_PART_SPILL * 65536 → Answers (exec (.spillWrite q) s) fun t =>
      h ++ [{ c with dram := true }] <+: t.queue q ∧
      (s.reg R.QUE_SPILL_USED).toNat + cellsOf (f.len + 64) ≤ (t.reg R.QUE_SPILL_USED).toNat ∧
      s.sameBeyond t [(0x200000, 0x280000)] ∧ s.sameParts t [.fwd, .conds]) ∧
  (∀ (s : State) (q : Fin 200) (f : Frame) (l : Looked) (c : QCopy) (h r : List QCopy), s.inReset = false → s.fwdOk →
    s.frameOf c.frame = some f → f.whole = true → f.look = some l → s.queue q = h ++ c :: r → s.spillUp = true →
    s.dramWaits = false → l.herd = none → c.dram = false → s.g (R.QUE_Qq_MIN q) F.QUE_Qq_MIN_CELLS + s.g
    R.QUE_SPILL_CFG F.QUE_SPILL_CFG_SPILL_TH < (s.reg (R.QUE_Qq_ONDIE q)).toNat → (∀ x ∈ h, x.dram = false ∧
    (s.frameOf x.frame).isSome = true) → (h.map (fun x => (s.frameOf x.frame).elim 0 (fun g => g.cells))).sum ≤ s.g
    R.QUE_SPILL_CFG F.QUE_SPILL_CFG_HEAD_KEEP → s.g R.QUE_SPILL_CFG F.QUE_SPILL_CFG_HEAD_KEEP < (h.map (fun x =>
    (s.frameOf x.frame).elim 0 (fun g => g.cells))).sum + f.cells → (s.reg R.QUE_SPILL_USED).toNat + cellsOf (f.len +
    64) ≤ s.g R.QUE_PART F.QUE_PART_SPILL * 65536 → r = [] → s.fwd.stalled = [] → Answers (exec (.spillWrite q) s)
    fun t =>
      t.queue q = h ++ [{ c with dram := true }] ∧
      (t.reg R.QUE_SPILL_USED).toNat = (s.reg R.QUE_SPILL_USED).toNat + cellsOf (f.len + 64) ∧
      t.g R.QUE_STATUS F.QUE_STATUS_SPILL_FULL = 0 ∧ s.sameBeyond t [(0x200000, 0x280000)] ∧
      s.sameParts t [.fwd, .conds]) ∧
  (∀ (s : State) (q : Fin 200) (f : Frame) (l : Looked) (c : QCopy) (h r : List QCopy), s.inReset = false → s.fwdOk →
    s.frameOf c.frame = some f → f.whole = true → f.look = some l → s.queue q = h ++ c :: r → s.spillUp = true →
    s.dramWaits = false → l.herd = none → c.dram = false → s.g (R.QUE_Qq_MIN q) F.QUE_Qq_MIN_CELLS + s.g
    R.QUE_SPILL_CFG F.QUE_SPILL_CFG_SPILL_TH < (s.reg (R.QUE_Qq_ONDIE q)).toNat → (∀ x ∈ h, x.dram = false ∧
    (s.frameOf x.frame).isSome = true) → (h.map (fun x => (s.frameOf x.frame).elim 0 (fun g => g.cells))).sum ≤ s.g
    R.QUE_SPILL_CFG F.QUE_SPILL_CFG_HEAD_KEEP → s.g R.QUE_SPILL_CFG F.QUE_SPILL_CFG_HEAD_KEEP < (h.map (fun x =>
    (s.frameOf x.frame).elim 0 (fun g => g.cells))).sum + f.cells → s.g R.QUE_PART F.QUE_PART_SPILL * 65536 < (s.reg
    R.QUE_SPILL_USED).toNat + cellsOf (f.len + 64) → s.fwd.stalled = [] → Answers (exec (.spillWrite q) s) fun t =>
      t.queue q = s.queue q ∧ t.isSet R.QUE_STATUS F.QUE_STATUS_SPILL_FULL ∧
      t.condHolds R.QUE_RAW F.QUE_RAW_SPILL_FULL = true ∧ s.sameBeyond t [(0x200000, 0x280000)] ∧
      s.sameParts t [.fwd, .conds]) ∧
  (∀ (s : State) (q : Fin 200), s.inReset = false → s.spillUp = false ∨ ¬ (s.g (R.QUE_Qq_MIN q) F.QUE_Qq_MIN_CELLS +
    s.g R.QUE_SPILL_CFG F.QUE_SPILL_CFG_SPILL_TH < (s.reg (R.QUE_Qq_ONDIE q)).toNat) ∧ (s.queue q).any (fun c =>
    c.dram) = false → Answers (exec (.spillWrite q) s) fun t =>
      t.fwd = s.fwd ∧ s.sameBut t [] ∧ s.sameParts t []) ∧
  (∀ (s : State) (q : Fin 200) (f : Frame) (l : Looked) (c : QCopy) (h r : List QCopy) (a : Account), s.inReset =
    false → s.fwdOk → s.frameOf c.frame = some f → f.whole = true → f.look = some l → s.isSet R.QUE_STATUS
    F.QUE_STATUS_DRAM_READY → s.dramWaits = false → s.runs .core = true → s.queue q = h ++ c :: r → (∀ x ∈ h, x.dram
    = false) → c.dram = true → (h.map (fun x => (s.frameOf x.frame).elim 0 (fun g => g.cells))).sum < s.g
    R.QUE_SPILL_CFG F.QUE_SPILL_CFG_HEAD_KEEP / 2 → (if f.account = .none then s.accountFor f
    { l with dests := [c.port] } else some f.account) = some a → Answers (exec (.spillReadback q .ok) s) fun t =>
      h ++ { c with dram := false } :: r <+: t.queue q ∧
      (s.fwd.stalled = [] → t.queue q = h ++ { c with dram := false } :: r) ∧ (∃ g ∈ t.fwd.frames, g.id = f.id) ∧
      s.sameBeyond t [(0x200000, 0x280000)] ∧ s.sameParts t [.fwd, .conds]) ∧
  (∀ (s : State) (q : Fin 200) (f : Frame) (l : Looked) (c : QCopy) (h r : List QCopy) (a : Account), s.inReset =
    false → s.fwdOk → s.frameOf c.frame = some f → f.whole = true → f.look = some l → s.isSet R.QUE_STATUS
    F.QUE_STATUS_DRAM_READY → s.dramWaits = false → s.runs .core = true → s.queue q = h ++ c :: r → (∀ x ∈ h, x.dram
    = false) → c.dram = true → (h.map (fun x => (s.frameOf x.frame).elim 0 (fun g => g.cells))).sum < s.g
    R.QUE_SPILL_CFG F.QUE_SPILL_CFG_HEAD_KEEP / 2 → (if f.account = .none then s.accountFor f
    { l with dests := [c.port] } else some f.account) = some a → Answers (exec (.spillReadback q .corrected) s) fun t
    =>
      h ++ { c with dram := false } :: r <+: t.queue q ∧
      (s.fwd.stalled = [] → t.queue q = h ++ { c with dram := false } :: r) ∧ (∃ g ∈ t.fwd.frames, g.id = f.id) ∧
      t.g R.QUE_DRAM_STATUS F.QUE_DRAM_STATUS_CORRECTED = min (s.g R.QUE_DRAM_STATUS F.QUE_DRAM_STATUS_CORRECTED + 1)
        65535 ∧
      t.isSet R.QUE_RAW F.QUE_RAW_SPILL_CORRECTED ∧ s.sameBeyond t [(0x200000, 0x280000)] ∧
      s.sameParts t [.fwd, .conds]) ∧
  (∀ (s : State) (q : Fin 200) (c : QCopy) (h r : List QCopy), s.inReset = false → s.fwdOk → s.isSet R.QUE_STATUS
    F.QUE_STATUS_DRAM_READY → s.dramWaits = false → s.runs .core = true → s.queue q = h ++ c :: r → (∀ x ∈ h, x.dram
    = false) → c.dram = true → (h.map (fun x => (s.frameOf x.frame).elim 0 (fun g => g.cells))).sum < s.g
    R.QUE_SPILL_CFG F.QUE_SPILL_CFG_HEAD_KEEP / 2 → Answers (exec (.spillReadback q .lost) s) fun t =>
      h ++ List.filter (fun (x : QCopy) => !x.dram) r <+: t.queue q ∧
      (s.fwd.stalled = [] → t.queue q = h ++ List.filter (fun (x : QCopy) => !x.dram) r) ∧
      t.g (R.QUE_Pn_CNT_AGED c.port) F.QUE_Pn_CNT_AGED_COUNT = min (s.g (R.QUE_Pn_CNT_AGED c.port)
        F.QUE_Pn_CNT_AGED_COUNT + 1 + (List.filter (fun (x : QCopy) => x.dram) r).length) 4294967295 ∧
      t.isSet R.QUE_RAW F.QUE_RAW_MEM_AGED ∧
      (s.hif.fq.length < 32 → ∃ e ∈ t.hif.fq, e.block = 10 ∧ e.code = 3 ∧ e.detail = q.val ∧ e.param = 1 +
        (List.filter (fun (x : QCopy) => x.dram) r).length) ∧
      s.sameBeyond t [(0x200000, 0x280000)] ∧ s.sameParts t [.fwd, .conds]) ∧
  (∀ (s : State), s.inReset = false → s.boot.training = true → Answers (exec (.dramTrainingDone 0) s) fun t =>
      t.isSet R.QUE_DRAM_STATUS F.QUE_DRAM_STATUS_TRAINED ∧ t.isSet R.QUE_STATUS F.QUE_STATUS_DRAM_READY ∧
      t.boot.trained = true ∧ s.sameBut t [R.QUE_DRAM_STATUS, R.QUE_STATUS, R.BOOT_STATUS] ∧
      s.sameParts t [.boot, .conds]) ∧
  (∀ (s : State) (k : Fin 2), s.inReset = false → s.boot.training = true → s.hif.fq.length < 32 → Answers (exec
    (.dramTrainingDone (if k = 0 then 1 else 2)) s) fun t =>
      (∃ r ∈ t.hif.fq, r.block = 10 ∧ r.code = 2 ∧ r.detail = k.val) ∧ t.boot.trained = true ∧
      s.sameBut t [R.BOOT_STATUS] ∧ s.sameParts t [.boot, .conds])

/-- R282, R283, R286 and R287: a stall that has lasted STALL_NS holds every priority with PFC enabled in XOFF; a PFC
frame leaves with QUANTA for each priority in XOFF and 0 for the others, and again while one stays there; a received
PFC frame pauses or releases the priorities it names that the port obeys; a pause that runs out releases its
priority. Where the spec is silent it rests on the choices of the model in log entries 3, 22, 23, 24 and 25. -/
def Obligations.FlowControl : Prop :=
  (∀ (s : State), s.inReset = false → ¬ (s.fwd.stalled = [] ∧ s.runs .core = true) → Answers (exec
    (.sliceStallThreshold) s) fun t =>
      t.fwd.stallOn = true ∧ t.isSet R.QUE_RAW F.QUE_RAW_STALL ∧
      (∀ p : Fin 24, t.g (R.QUE_Pn_PAUSE_STATUS p) F.QUE_Pn_PAUSE_STATUS_TX_XOFF = t.g (R.QUE_Pn_PFC_CFG p)
        F.QUE_Pn_PFC_CFG_TX_EN) ∧
      s.sameBeyond t [(0x200000, 0x280000)] ∧ s.sameParts t [.fwd]) ∧
  (∀ (s : State) (p : Fin 24), s.inReset = false → s.running = true → s.linkUp p = true → s.g (R.QUE_Pn_PAUSE_STATUS
    p) F.QUE_Pn_PAUSE_STATUS_TX_XOFF ≠ Tbl.get 0 s.fwd.pfcSent p → Answers (exec (.pfcTx p) s) fun t =>
      (s.emits t (.frame p (pfcFrame (Config.portMac p).toNat ((List.range 8).map (fun k => if maskBit (s.g
        (R.QUE_Pn_PAUSE_STATUS p) F.QUE_Pn_PAUSE_STATUS_TX_XOFF) k then s.g (R.QUE_Pn_PFC_CFG p)
        F.QUE_Pn_PFC_CFG_QUANTA else 0))))) ∧
      Tbl.get 0 t.fwd.pfcSent p = s.g (R.QUE_Pn_PAUSE_STATUS p) F.QUE_Pn_PAUSE_STATUS_TX_XOFF ∧
      t.g (R.MAC_Pn_TX_FRAMES p) F.MAC_Pn_TX_FRAMES_COUNT = min (s.g (R.MAC_Pn_TX_FRAMES p) F.MAC_Pn_TX_FRAMES_COUNT
        + 1) 4294967295 ∧
      (s.g (R.QUE_Pn_PAUSE_STATUS p) F.QUE_Pn_PAUSE_STATUS_TX_XOFF ≠ 0 → t.g (R.QUE_Pn_CNT_PFC p)
        F.QUE_Pn_CNT_PFC_TX_XOFF = min (s.g (R.QUE_Pn_CNT_PFC p) F.QUE_Pn_CNT_PFC_TX_XOFF + 1) 65535) ∧
      s.sameBut t [R.MAC_Pn_TX_FRAMES p, R.QUE_Pn_CNT_PFC p] ∧ s.sameParts t [.fwd]) ∧
  (∀ (s : State) (p : Fin 24), s.inReset = false → s.running = true → s.linkUp p = true → s.g (R.QUE_Pn_PAUSE_STATUS
    p) F.QUE_Pn_PAUSE_STATUS_TX_XOFF ≠ 0 → Answers (exec (.pfcRefresh p) s) fun t =>
      (s.emits t (.frame p (pfcFrame (Config.portMac p).toNat ((List.range 8).map (fun k => if maskBit (s.g
        (R.QUE_Pn_PAUSE_STATUS p) F.QUE_Pn_PAUSE_STATUS_TX_XOFF) k then s.g (R.QUE_Pn_PFC_CFG p)
        F.QUE_Pn_PFC_CFG_QUANTA else 0))))) ∧
      Tbl.get 0 t.fwd.pfcSent p = s.g (R.QUE_Pn_PAUSE_STATUS p) F.QUE_Pn_PAUSE_STATUS_TX_XOFF ∧
      t.g (R.MAC_Pn_TX_FRAMES p) F.MAC_Pn_TX_FRAMES_COUNT = min (s.g (R.MAC_Pn_TX_FRAMES p) F.MAC_Pn_TX_FRAMES_COUNT
        + 1) 4294967295 ∧
      (s.g (R.QUE_Pn_PAUSE_STATUS p) F.QUE_Pn_PAUSE_STATUS_TX_XOFF ≠ 0 → t.g (R.QUE_Pn_CNT_PFC p)
        F.QUE_Pn_CNT_PFC_TX_XOFF = min (s.g (R.QUE_Pn_CNT_PFC p) F.QUE_Pn_CNT_PFC_TX_XOFF + 1) 65535) ∧
      s.sameBut t [R.MAC_Pn_TX_FRAMES p, R.QUE_Pn_CNT_PFC p] ∧ s.sameParts t [.fwd]) ∧
  (∀ (s : State) (p : Fin 24) (b : List Byte), s.inReset = false → s.running = true → beAt b 0 6 = 0x0180C2000001 →
    beAt b 12 4 = 0x88080101 → 34 ≤ b.length → Answers (exec (.pfcRx p b) s) fun t =>
      (∀ k : Fin 8, maskBit (t.g (R.QUE_Pn_PAUSE_STATUS p) F.QUE_Pn_PAUSE_STATUS_RX_PAUSED) k = if maskBit (beAt b 17
        1) k && maskBit (s.g (R.QUE_Pn_PFC_CFG p) F.QUE_Pn_PFC_CFG_RX_EN) k then decide (beAt b (18 + 2 * k.val) 2 ≠
        0) else maskBit (s.g (R.QUE_Pn_PAUSE_STATUS p) F.QUE_Pn_PAUSE_STATUS_RX_PAUSED) k) ∧
      (∃ k : Fin 8, maskBit (beAt b 17 1) k = true ∧ beAt b (18 + 2 * k.val) 2 ≠ 0) → t.g (R.QUE_Pn_CNT_PFC p)
        F.QUE_Pn_CNT_PFC_RX_PAUSE = min (s.g (R.QUE_Pn_CNT_PFC p) F.QUE_Pn_CNT_PFC_RX_PAUSE + 1) 65535 ∧
      s.sameBut t [R.QUE_Pn_CNT_PFC p, R.QUE_Pn_PAUSE_STATUS p] ∧ s.sameParts t []) ∧
  (∀ (s : State) (p : Fin 24) (k : Fin 8), s.inReset = false → Answers (exec (.pauseExpiry p k) s) fun t =>
      t.g (R.QUE_Pn_PAUSE_STATUS p) F.QUE_Pn_PAUSE_STATUS_RX_PAUSED = maskClr (s.g (R.QUE_Pn_PAUSE_STATUS p)
        F.QUE_Pn_PAUSE_STATUS_RX_PAUSED) k ∧
      s.sameBut t [R.QUE_Pn_PAUSE_STATUS p] ∧ s.sameParts t [])

/-- R303 to R306, R309, R311 and R313: a Herd frame on time enters its port's calendar; a late one without LATE_PASS
is discarded and counted; a copy that is due departs, edited and with its FCS carried through; one judged late at
departure with LATE_PASS moves to the pass list; the admission sweep forms each port's reservation sum and OVER.
Where the spec is silent it rests on the choices of the model in log entries 3, 22, 23, 24 and 25. -/
def Obligations.HerdRelease : Prop :=
  (∀ (s : State) (p : Fin 24) (f : Frame) (l : Looked) (i : HerdInfo), s.inReset = false → s.fwdOk →
    s.fwd.frames.find? (fun g => g.whole && g.placed && !g.toPlace.isEmpty && g.bad.isNone) = some f → f.look = some
    l → l.herd = some i → s.runs .core = true → s.runs .timescale = true → f.toPlace = [p.val] → s.placeReason p i
    (i.origin + BitVec.ofNat 64 ((i.cum + i.budget) * 65536000)) (tickDiff ((i.origin + BitVec.ofNat 64 ((i.cum +
    i.budget) * 65536000)) - BitVec.ofNat 64 352321536) s.nowTick) = 0 → Answers (exec (.herdPlace) s) fun t =>
      t.cal p = s.calInsert (⟨f.id, p, (i.origin + BitVec.ofNat 64 ((i.cum + i.budget) * 65536000)), (tickDiff
        ((i.origin + BitVec.ofNat 64 ((i.cum + i.budget) * 65536000)) - BitVec.ofNat 64 352321536) s.nowTick),
        s.fwd.nextId, 0⟩ : HCopy) (s.cal p) ∧
      { f with toPlace := [] } ∈ t.fwd.frames ∧
      (t.g (R.HRD_PORTn_STATUS p) F.HRD_PORTn_STATUS_ENTRIES = (s.cal p).length + 1 ∨ 8191 < (s.cal p).length) ∧
      t.fwd.passes = s.fwd.passes ∧
      s.sameBeyond t [(0x200000, 0x280000), (0x280000, 0x300000), (0xA00000, 0xB00000)] ∧ s.sameParts t [.fwd]) ∧
  (∀ (s : State) (p : Fin 24) (f : Frame) (l : Looked) (i : HerdInfo), s.inReset = false → s.fwdOk →
    s.fwd.frames.find? (fun g => g.whole && g.placed && !g.toPlace.isEmpty && g.bad.isNone) = some f → f.look = some
    l → l.herd = some i → s.runs .core = true → s.runs .timescale = true → s.placeReason p i (i.origin + BitVec.ofNat
    64 ((i.cum + i.budget) * 65536000)) (tickDiff ((i.origin + BitVec.ofNat 64 ((i.cum + i.budget) * 65536000)) -
    BitVec.ofNat 64 352321536) s.nowTick) ≠ 0 → s.placeReason p i (i.origin + BitVec.ofNat 64 ((i.cum + i.budget) *
    65536000)) (tickDiff ((i.origin + BitVec.ofNat 64 ((i.cum + i.budget) * 65536000)) - BitVec.ofNat 64 352321536)
    s.nowTick) ≠ 8 → f.toPlace = [p.val] → l.latePass = false → Answers (exec (.herdPlace) s) fun t =>
      t.cal p = s.cal p ∧
      t.g R.HRD_CNT_LATE F.HRD_CNT_LATE_COUNT = min (s.g R.HRD_CNT_LATE F.HRD_CNT_LATE_COUNT + 1) 4294967295 ∧
      t.isSet R.HRD_RAW F.HRD_RAW_LATE ∧
      t.g R.HRD_LAST_LATE F.HRD_LAST_LATE_REASON = s.placeReason p i (i.origin + BitVec.ofNat 64 ((i.cum + i.budget)
        * 65536000)) (tickDiff ((i.origin + BitVec.ofNat 64 ((i.cum + i.budget) * 65536000)) - BitVec.ofNat 64
        352321536) s.nowTick) ∧
      t.g R.HRD_LAST_LATE F.HRD_LAST_LATE_PORT = p.val ∧
      t.g R.HRD_CNT_DISCARD F.HRD_CNT_DISCARD_COUNT = min (s.g R.HRD_CNT_DISCARD F.HRD_CNT_DISCARD_COUNT + 1)
        4294967295 ∧
      t.isSet R.HRD_RAW F.HRD_RAW_DISCARD ∧ t.fwd.passes = s.fwd.passes ∧
      (s.heldElsewhere f.id = false → s.queueRefs f.id = [] → t.frameOf f.id = none) ∧
      s.sameBeyond t [(0x200000, 0x280000), (0x280000, 0x300000), (0xA00000, 0xB00000)] ∧
      s.sameParts t [.fwd, .free]) ∧
  (∀ (s : State) (p : Fin 24) (f : Frame) (l : Looked) (i : HerdInfo), s.inReset = false → s.fwdOk →
    s.fwd.frames.find? (fun g => g.whole && g.placed && !g.toPlace.isEmpty && g.bad.isNone) = some f → f.look = some
    l → l.herd = some i → s.runs .core = true → s.runs .timescale = true → s.placeReason p i (i.origin + BitVec.ofNat
    64 ((i.cum + i.budget) * 65536000)) (tickDiff ((i.origin + BitVec.ofNat 64 ((i.cum + i.budget) * 65536000)) -
    BitVec.ofNat 64 352321536) s.nowTick) ≠ 0 → s.placeReason p i (i.origin + BitVec.ofNat 64 ((i.cum + i.budget) *
    65536000)) (tickDiff ((i.origin + BitVec.ofNat 64 ((i.cum + i.budget) * 65536000)) - BitVec.ofNat 64 352321536)
    s.nowTick) ≠ 8 → f.toPlace = [p.val] → l.latePass = true → Answers (exec (.herdPlace) s) fun t =>
      t.cal p = s.cal p ∧
      t.g R.HRD_CNT_LATE F.HRD_CNT_LATE_COUNT = min (s.g R.HRD_CNT_LATE F.HRD_CNT_LATE_COUNT + 1) 4294967295 ∧
      t.isSet R.HRD_RAW F.HRD_RAW_LATE ∧
      t.g R.HRD_LAST_LATE F.HRD_LAST_LATE_REASON = s.placeReason p i (i.origin + BitVec.ofNat 64 ((i.cum + i.budget)
        * 65536000)) (tickDiff ((i.origin + BitVec.ofNat 64 ((i.cum + i.budget) * 65536000)) - BitVec.ofNat 64
        352321536) s.nowTick) ∧
      t.g R.HRD_LAST_LATE F.HRD_LAST_LATE_PORT = p.val ∧
      t.passList p = s.passList p ++
        [{ (⟨f.id, p, (i.origin + BitVec.ofNat 64 ((i.cum + i.budget) * 65536000)), (tickDiff ((i.origin + BitVec.ofNat 64 ((i.cum + i.budget) * 65536000)) - BitVec.ofNat 64 352321536) s.nowTick), s.fwd.nextId, 0⟩ : HCopy) with reason := s.placeReason p i (i.origin + BitVec.ofNat 64 ((i.cum + i.budget) * 65536000)) (tickDiff ((i.origin + BitVec.ofNat 64 ((i.cum + i.budget) * 65536000)) - BitVec.ofNat 64 352321536) s.nowTick) }]
        ∧
      { f with toPlace := [] } ∈ t.fwd.frames ∧
      s.sameBeyond t [(0x200000, 0x280000), (0x280000, 0x300000), (0xA00000, 0xB00000)] ∧
      s.sameParts t [.fwd, .free]) ∧
  (∀ (s : State) (p : Fin 24) (f : Frame) (l : Looked) (i : HerdInfo), s.inReset = false → s.fwdOk →
    s.fwd.frames.find? (fun g => g.whole && g.placed && !g.toPlace.isEmpty && g.bad.isNone) = some f → f.look = some
    l → l.herd = some i → s.runs .core = true → s.runs .timescale = true → s.placeReason p i (i.origin + BitVec.ofNat
    64 ((i.cum + i.budget) * 65536000)) (tickDiff ((i.origin + BitVec.ofNat 64 ((i.cum + i.budget) * 65536000)) -
    BitVec.ofNat 64 352321536) s.nowTick) = 8 → f.toPlace = [p.val] → Answers (exec (.herdPlace) s) fun t =>
      t.cal p = s.cal p ∧ t.fwd.passes = s.fwd.passes ∧
      t.g R.HRD_CNT_CLAIM F.HRD_CNT_CLAIM_COUNT = min (s.g R.HRD_CNT_CLAIM F.HRD_CNT_CLAIM_COUNT + 1) 4294967295 ∧
      t.isSet R.HRD_RAW F.HRD_RAW_CLAIM_DISCARD ∧
      s.sameBeyond t [(0x200000, 0x280000), (0x280000, 0x300000), (0xA00000, 0xB00000)] ∧
      s.sameParts t [.fwd, .free]) ∧
  (∀ (s : State) (f : Frame) (l : Looked) (i : HerdInfo), s.inReset = false → s.fwdOk → s.fwd.frames.find? (fun g =>
    g.whole && g.placed && !g.toPlace.isEmpty && g.bad.isNone) = some f → f.look = some l → l.herd = some i → s.runs
    .core = true → s.runs .timescale = true → Answers (exec (.herdPlace) s) fun t =>
      (∀ g ∈ t.fwd.frames, g.id = f.id → g.toPlace = []) ∧
      s.sameBeyond t [(0x200000, 0x280000), (0x280000, 0x300000), (0xA00000, 0xB00000)] ∧
      s.sameParts t [.fwd, .free]) ∧
  (∀ (s : State) (p : Fin 24) (x : StampIn) (c : HCopy) (k : List HCopy) (f : Frame) (l : Looked) (i : HerdInfo),
    s.inReset = false → s.fwdOk → s.cal p = c :: k → s.herdInfo c = some (f, l, i) → s.runs .core = true → s.runs
    .timescale = true → s.looping p = false → s.gateShut p = false → Tbl.get none s.fwd.sending p = none → fineLe
    (s.ideal p c.r) (fineOf (tickOf (s.txStamp p x).t)) = true → s.lineFree p (s.txStamp p x) = true → s.departReason
    p l.cls = 0 → Answers (exec (.herdDepartureDecision p x) s) fun t =>
      s.emits t (.frame p (sentBytes (s.pieces f l p (f.len - 4) false) ++ leBytes 4 (carriedFcs f.fcs (s.pieces f l
        p (f.len - 4) false)))) ∧
      t.cal p = k ∧
      t.g (R.MAC_Pn_TX_FRAMES p) F.MAC_Pn_TX_FRAMES_COUNT = min (s.g (R.MAC_Pn_TX_FRAMES p) F.MAC_Pn_TX_FRAMES_COUNT
        + 1) 4294967295 ∧
      (t.g (R.HRD_PORTn_STATUS p) F.HRD_PORTn_STATUS_ENTRIES = k.length ∨ 8191 < k.length) ∧
      s.sameBeyond t [(0x200000, 0x280000), (0x280000, 0x300000), (R.MAC_Pn_TX_FRAMES p, R.MAC_Pn_TX_FRAMES p + 4),
        (R.PTS_FIFO_STATUS p, R.PTS_FIFO_STATUS p + 4)] ∧
      s.sameParts t [.fwd, .pts]) ∧
  (∀ (s : State) (p : Fin 24) (x : StampIn) (c : HCopy) (k : List HCopy) (f : Frame) (l : Looked) (i : HerdInfo),
    s.inReset = false → s.fwdOk → s.cal p = c :: k → s.herdInfo c = some (f, l, i) → s.runs .core = true → s.runs
    .timescale = true → s.looping p = false → s.gateShut p = false → Tbl.get none s.fwd.sending p = none → fineLe
    (s.ideal p c.r) (fineOf (tickOf (s.txStamp p x).t)) = true → s.lineFree p (s.txStamp p x) = true → s.departReason
    p l.cls ≠ 0 → l.latePass = true → Answers (exec (.herdDepartureDecision p x) s) fun t =>
      t.passList p = s.passList p ++ [{ c with reason := s.departReason p l.cls }] ∧ t.cal p = k ∧
      t.g R.HRD_CNT_LATE F.HRD_CNT_LATE_COUNT = min (s.g R.HRD_CNT_LATE F.HRD_CNT_LATE_COUNT + 1) 4294967295 ∧
      t.isSet R.HRD_RAW F.HRD_RAW_LATE ∧
      (t.g (R.HRD_PORTn_STATUS p) F.HRD_PORTn_STATUS_ENTRIES = k.length ∨ 8191 < k.length) ∧
      t.g R.HRD_LAST_LATE F.HRD_LAST_LATE_REASON = s.departReason p l.cls ∧
      s.sameBeyond t [(0x200000, 0x280000), (0x280000, 0x300000), (0xA00000, 0xB00000)] ∧
      s.sameParts t [.fwd, .free]) ∧
  (∀ (s : State) (p : Fin 24) (x : StampIn) (c : HCopy) (k : List HCopy) (f : Frame) (l : Looked) (i : HerdInfo),
    s.inReset = false → s.fwdOk → s.cal p = c :: k → s.herdInfo c = some (f, l, i) → s.runs .core = true → s.runs
    .timescale = true → s.looping p = false → s.gateShut p = false → Tbl.get none s.fwd.sending p = none → fineLe
    (s.ideal p c.r) (fineOf (tickOf (s.txStamp p x).t)) = true → s.lineFree p (s.txStamp p x) = true → s.departReason
    p l.cls ≠ 0 → l.latePass = false → Answers (exec (.herdDepartureDecision p x) s) fun t =>
      t.passList p = s.passList p ∧
      t.g R.HRD_CNT_DISCARD F.HRD_CNT_DISCARD_COUNT = min (s.g R.HRD_CNT_DISCARD F.HRD_CNT_DISCARD_COUNT + 1)
        4294967295 ∧
      t.isSet R.HRD_RAW F.HRD_RAW_DISCARD ∧ t.cal p = k ∧
      t.g R.HRD_CNT_LATE F.HRD_CNT_LATE_COUNT = min (s.g R.HRD_CNT_LATE F.HRD_CNT_LATE_COUNT + 1) 4294967295 ∧
      t.isSet R.HRD_RAW F.HRD_RAW_LATE ∧
      (t.g (R.HRD_PORTn_STATUS p) F.HRD_PORTn_STATUS_ENTRIES = k.length ∨ 8191 < k.length) ∧
      t.g R.HRD_LAST_LATE F.HRD_LAST_LATE_REASON = s.departReason p l.cls ∧
      s.sameBeyond t [(0x200000, 0x280000), (0x280000, 0x300000), (0xA00000, 0xB00000)] ∧
      s.sameParts t [.fwd, .free]) ∧
  (∀ (s : State) (p : Fin 24) (x : StampIn) (c : HCopy) (k : List HCopy) (f : Frame) (l : Looked) (i : HerdInfo),
    s.inReset = false → s.fwdOk → s.cal p = c :: k → s.herdInfo c = some (f, l, i) → s.runs .core = true → s.runs
    .timescale = true → s.looping p = false → Tbl.get none s.fwd.sending p = none → fineLe (s.ideal p c.r) (fineOf
    (tickOf (s.txStamp p x).t)) = true → s.lineFree p (s.txStamp p x) = true → s.gateShut p = true → Answers (exec
    (.herdDepartureDecision p x) s) fun t =>
      t.cal p = k ∧ t.passList p = s.passList p ∧
      t.g R.HRD_CNT_CLAIM F.HRD_CNT_CLAIM_COUNT = min (s.g R.HRD_CNT_CLAIM F.HRD_CNT_CLAIM_COUNT + 1) 4294967295 ∧
      t.isSet R.HRD_RAW F.HRD_RAW_CLAIM_DISCARD ∧
      (t.g (R.HRD_PORTn_STATUS p) F.HRD_PORTn_STATUS_ENTRIES = k.length ∨ 8191 < k.length) ∧
      s.sameBeyond t [(0x200000, 0x280000), (0x280000, 0x300000), (0xA00000, 0xB00000)] ∧
      s.sameParts t [.fwd, .free]) ∧
  (∀ (s : State) (p : Fin 24) (x : StampIn), s.inReset = false → (∀ c ∈ (s.cal p).head?, (s.herdInfo c).isSome = true
    ∧ (fineLe (s.ideal p c.r) (fineOf (tickOf (s.txStamp p x).t)) = false ∨ s.lineFree p (s.txStamp p x) = false)) →
    Answers (exec (.herdDepartureDecision p x) s) fun t =>
      t.fwd = s.fwd ∧ t.out = s.out ∧ s.sameBut t [] ∧ s.sameParts t []) ∧
  (∀ (s : State), s.inReset = false → Answers (exec (.herdAdmissionSweep) s) fun t =>
      (∀ p : Fin 24, t.g (R.HRD_PORTn_RESV p) F.HRD_PORTn_RESV_KBPS = min (s.resvSum s.reservations p) 33554431 ∧ t.g
        (R.HRD_PORTn_STATUS p) F.HRD_PORTn_STATUS_OVER = if 18750000 < s.resvSum s.reservations p then 1 else 0) ∧
      s.sameBeyond t [(0x280000, 0x300000)] ∧ s.sameParts t [.fwd, .conds])

/-- R130 to R138: each second AGE and ELAPSED count, TEMP_OUT is formed and the model's RATE is shown; a fit interval
in LOCKED under automatic steering adds its sample and refits; LOAD takes the preset model; CLEAR and a change of the
temperature axis empty the table and the ring. Where the spec is silent it rests on the choices of the model in log
entries 3, 15 and 16. -/
def Obligations.HoldoverModel : Prop :=
  (∀ (s : State), s.inReset = false → s.runs .timescale = true → Answers (exec (.modelEval) s) fun t =>
      (t.reg R.HLD_AGE_S = if s.hld.epoch then BitVec.ofNat 32 ((s.reg R.HLD_AGE_S).toNat + 1) else s.reg R.HLD_AGE_S) ∧
      (t.reg R.HLD_ELAPSED = if s.hld.episode then BitVec.ofNat 32 ((s.reg R.HLD_ELAPSED).toNat + 1) else s.reg
        R.HLD_ELAPSED) ∧
      t.pair R.HLD_RATE_LO = enc 64 t.modelRateNow ∧
      t.g R.HLD_STATUS F.HLD_STATUS_TEMP_OUT = b2n (!(s.learned (s.binOf s.reading))) ∧
      s.sameBut t [R.HLD_AGE_S, R.HLD_ELAPSED, R.HLD_STATUS, R.HLD_RATE_LO, R.HLD_RATE_HI] ∧
      s.sameParts t [.tsc, .hld]) ∧
  (∀ (s : State), s.inReset = false → s.runs .timescale = false → Answers (exec (.modelEval) s) fun t =>
      s.sameBut t [] ∧ s.sameParts t []) ∧
  (∀ (s : State), s.inReset = false → s.g R.REF_STATUS F.REF_STATUS_STATE = 2 → s.on R.TSC_CTRL F.TSC_CTRL_STEER =
    false → s.on R.REF_STATUS F.REF_STATUS_GUARDING = false → s.hld.broken = false → s.hld.epoch = true → s.hld.renew
    = false → s.hld.fitTick < s.tsc.tick → Answers (exec (.fitIntervalEnd) s) fun t =>
      t.hld.ring = ((⟨((s.reg R.HLD_AGE_S).toNat : Int) - 500, s.fitMean, s.fitReading⟩ : Sample) :: s.hld.ring).take
        1024 ∧
      t.g R.HLD_STATUS F.HLD_STATUS_FREQ_VALID = 1 ∧ t.hld.fitTick = s.tsc.tick ∧
      t.isSet R.HLD_RAW F.HLD_RAW_FIT_DONE ∧
      s.sameBut t ([R.HLD_F_LO, R.HLD_F_HI, R.HLD_A1, R.HLD_A2, R.HLD_AGE_S, R.HLD_RESID, R.HLD_STATUS] ++
        (List.range 32).map R.HLD_TTABb ++ (List.range 30).map (fun k => R.REF_CANDk_STATUS k)) ∧
      s.sameParts t [.ref, .hld, .free]) ∧
  (∀ (s : State), s.inReset = false → s.g R.REF_STATUS F.REF_STATUS_STATE ≠ 2 ∨ s.on R.TSC_CTRL F.TSC_CTRL_STEER =
    true ∨ s.on R.REF_STATUS F.REF_STATUS_GUARDING = true ∨ s.hld.broken = true → Answers (exec (.fitIntervalEnd) s)
    fun t =>
      t.hld = s.nextFit.hld ∧ t.hld.ring = s.hld.ring ∧ t.hld.broken = false ∧ s.sameBut t [] ∧ s.sameParts t [.hld]) ∧
  (∀ (s : State) (v : Word), s.accepts R.HLD_CTRL → F.HLD_CTRL_CLEAR.get v = 0 → Answers (exec (.modelLoad v) s) fun
    t =>
      t.reg R.HLD_A1 = s.reg R.HLD_PRE_A1 ∧ t.reg R.HLD_A2 = s.reg R.HLD_PRE_A2 ∧
      t.reg R.HLD_AGE_S = s.reg R.HLD_PRE_AGE_S ∧ t.g R.HLD_STATUS F.HLD_STATUS_FREQ_VALID = 1 ∧ t.hld.ring = [] ∧
      t.hld.epoch = true ∧ t.hld.frozen = none ∧
      s.sameBut t ([R.HLD_CTRL, R.HIF_CFG_CRC_STATUS, R.HLD_STATUS, R.HLD_F_LO, R.HLD_F_HI, R.HLD_A1, R.HLD_A2,
        R.HLD_AGE_S] ++ (List.range 32).map R.HLD_TTABb ++ (List.range 30).map (fun k => R.REF_CANDk_STATUS k)) ∧
      s.sameParts t [.ref, .hld]) ∧
  (∀ (s : State) (v : Word), s.accepts R.HLD_CTRL → F.HLD_CTRL_LOAD.get v = 0 → Answers (exec (.modelClear v) s) fun
    t =>
      t.pair R.HLD_F_LO = 0 ∧ t.reg R.HLD_A1 = 0#32 ∧ t.reg R.HLD_A2 = 0#32 ∧ t.reg R.HLD_AGE_S = 0#32 ∧
      t.g R.HLD_STATUS F.HLD_STATUS_FREQ_VALID = 0 ∧ t.g R.HLD_STATUS F.HLD_STATUS_MODEL_QUAL = 0 ∧
      t.hld.ring = [] ∧ (∀ b : Fin 32, t.binCount b = 0) ∧
      s.sameBut t ([R.HLD_CTRL, R.HIF_CFG_CRC_STATUS, R.HLD_STATUS, R.HLD_F_LO, R.HLD_F_HI, R.HLD_A1, R.HLD_A2,
        R.HLD_AGE_S] ++ (List.range 32).map R.HLD_TTABb ++ (List.range 30).map (fun k => R.REF_CANDk_STATUS k)) ∧
      s.sameParts t [.ref, .hld]) ∧
  (∀ (s : State) (v : Word), s.accepts R.HLD_TEMP_AXIS → s.formWord R.HLD_TEMP_AXIS v ≠ s.reg R.HLD_TEMP_AXIS →
    Answers (exec (.tempAxisChange v) s) fun t =>
      t.reg R.HLD_TEMP_AXIS = s.formWord R.HLD_TEMP_AXIS v ∧ t.hld.ring = [] ∧ t.hld.renew = true ∧
      (∀ b : Fin 32, t.binCount b = 0) ∧
      s.sameBut t ([R.HLD_TEMP_AXIS, R.HIF_CFG_CRC_STATUS, R.HLD_STATUS] ++ (List.range 32).map R.HLD_TTABb) ∧
      s.sameParts t [.hld]) ∧
  (∀ (s : State), s.inReset = false → s.on R.HLD_STATUS F.HLD_STATUS_EPISODE_QUAL = true → s.learned (s.binOf
    s.reading) = false → s.hif.fq.length < 32 → Answers (exec (.holdoverQualLost true) s) fun t =>
      t.g R.HLD_STATUS F.HLD_STATUS_EPISODE_QUAL = 0 ∧ t.isSet R.HLD_RAW F.HLD_RAW_UNQUALIFIED ∧
      (∃ f ∈ t.hif.fq, f.block = 4 ∧ f.code = 1 ∧ f.detail = 2) ∧ s.sameBut t [R.HLD_STATUS, R.REF_STATUS] ∧
      s.sameParts t [])

/-- R140 to R146: the trim follows the counted cycles within ±2,047; a resync loads Ember with the timescale to the
nearest cycle; RESYNC asks for one and INVALIDATE clears VALID; without main power a low or a returning supply loses
the time; a stopped crystal clears VALID and queues code 0x03; a valid Ember seeds the timescale. R143, R413, R415
and R416: at the loss of main power Ember keeps its count as the power-fail time and the device is reset, every
register but Ember's and the reset cause at its reset value; with power back the cause is POWER_ON. Where the spec is
silent it rests on the choices of the model in log entries 3, 15 and 16. -/
def Obligations.EmberAndMainPower : Prop :=
  (∀ (s : State) (n : Nat), s.inReset = false → s.emberMaintained = true → Answers (exec (.emberTrimUpdate n) s) fun
    t =>
      sx 12 (t.g R.HLD_EMB_TRIM F.HLD_EMB_TRIM_TRIM) = clampI (-2047) 2047 (sx 12 (s.g R.HLD_EMB_TRIM
        F.HLD_EMB_TRIM_TRIM) + (33554432 - (n : Int))) ∧
      s.sameBut t [R.HLD_EMB_TRIM] ∧ s.sameParts t []) ∧
  (∀ (s : State), s.inReset = false → s.emberMaintained = true → (2 * ((tNs s.now * 65536 + tFrac s.now) * 32768) +
    65536000000000) / (2 * 65536000000000) < 32768 → Answers (exec (.emberResync true) s) fun t =>
      t.emberTime = (tSec s.now, (2 * ((tNs s.now * 65536 + tFrac s.now) * 32768) + 65536000000000) / (2 *
        65536000000000)) ∧
      t.g R.HLD_EMB_STATUS F.HLD_EMB_STATUS_VALID = 1 ∧ t.g R.HLD_EMB_STATUS F.HLD_EMB_STATUS_SYNCED = 1 ∧
      t.g R.HLD_EMB_STATUS F.HLD_EMB_STATUS_LOST = 0 ∧
      s.sameBut t [R.HLD_EMB_TIME_LO, R.HLD_EMB_TIME_HI, R.HLD_EMB_STATUS] ∧ s.sameParts t [.hld]) ∧
  (∀ (s : State) (v : Word), s.accepts R.HLD_EMB_CTRL → s.emberMaintained = true → F.HLD_EMB_CTRL_INVALIDATE.get v =
    0 → Answers (exec (.emberResyncCmd v) s) fun t =>
      t.hld = { s.hld with resyncDue := true } ∧ s.sameBut t [] ∧ s.sameParts t [.hld]) ∧
  (∀ (s : State) (v : Word), s.accepts R.HLD_EMB_CTRL → F.HLD_EMB_CTRL_RESYNC.get v = 0 → Answers (exec
    (.emberInvalidate v) s) fun t =>
      t.g R.HLD_EMB_STATUS F.HLD_EMB_STATUS_VALID = 0 ∧ s.sameBut t [R.HLD_EMB_STATUS] ∧ s.sameParts t []) ∧
  (∀ (s : State), s.boot.power = false → Answers (exec (.emberSupplyLow) s) fun t =>
      t.g R.HLD_EMB_STATUS F.HLD_EMB_STATUS_VALID = 0 ∧ t.g R.HLD_EMB_STATUS F.HLD_EMB_STATUS_LOST = 1 ∧
      s.sameBut t [R.HLD_EMB_STATUS] ∧ s.sameParts t []) ∧
  (∀ (s : State), s.boot.power = false → Answers (exec (.emberColdStart) s) fun t =>
      t.emberTime = (0, 0) ∧ t.pair R.HLD_EMB_FAIL_LO = 0 ∧ t.reg R.HLD_EMB_TRIM = 0#32 ∧
      t.g R.HLD_EMB_STATUS F.HLD_EMB_STATUS_VALID = 0 ∧ t.g R.HLD_EMB_STATUS F.HLD_EMB_STATUS_LOST = 1 ∧
      s.sameBut t [R.HLD_EMB_TIME_LO, R.HLD_EMB_TIME_HI, R.HLD_EMB_FAIL_LO, R.HLD_EMB_FAIL_HI, R.HLD_EMB_TRIM,
        R.HLD_EMB_STATUS] ∧
      s.sameParts t [.hld]) ∧
  (∀ (s : State), s.inReset = false → s.on R.HLD_STATUS F.HLD_STATUS_EPISODE_QUAL = true → s.g R.HLD_QUAL_HOLD
    F.HLD_QUAL_HOLD_HOLD_S < (s.reg R.HLD_ELAPSED).toNat → s.hif.fq.length < 32 → Answers (exec (.holdoverQualLost
    false) s) fun t =>
      t.g R.HLD_STATUS F.HLD_STATUS_EPISODE_QUAL = 0 ∧ t.isSet R.HLD_RAW F.HLD_RAW_UNQUALIFIED ∧
      (∃ f ∈ t.hif.fq, f.block = 4 ∧ f.code = 1 ∧ f.detail = 1) ∧ s.sameBut t [R.HLD_STATUS, R.REF_STATUS] ∧
      s.sameParts t []) ∧
  (∀ (s : State), s.inReset = false → s.on R.HLD_EMB_CFG F.HLD_EMB_CFG_NO_XTAL = false → s.hif.fq.length < 32 →
    Answers (exec (.emberXtalStop) s) fun t =>
      t.g R.HLD_EMB_STATUS F.HLD_EMB_STATUS_VALID = 0 ∧ (∃ f ∈ t.hif.fq, f.block = 4 ∧ f.code = 3) ∧
      s.sameBut t [R.HLD_EMB_STATUS] ∧ s.sameParts t []) ∧
  (∀ (s : State), s.inReset = false → s.bootState = bootSeed → s.runs .timescale = true → s.on R.HLD_EMB_STATUS
    F.HLD_EMB_STATUS_VALID = true → s.on R.HLD_EMB_CFG F.HLD_EMB_CFG_NO_XTAL = false → s.tsc.due = [] → Answers (exec
    (.emberSeed) s) fun t =>
      t.tsc.voted = cSet (emberT96 s.emberTime.1 s.emberTime.2) s.tsc.voted ∧
      t.isSet R.HLD_RAW F.HLD_RAW_EMB_SEEDED ∧ t.bootState = 7 ∧
      s.sameBut t [R.TSC_LAST_STEP_LO, R.TSC_LAST_STEP_HI, R.TSC_STEP_STATUS, R.BOOT_STATUS, R.BOOT_TIME] ∧
      s.sameParts t [.tsc, .ref, .hld, .syn, .ptp, .tdc]) ∧
  (∀ (s : State), s.boot.power = true → Answers (exec (.mainPowerLoss) s) fun t =>
      t.boot.power = false ∧ t.inReset = true ∧ t.pair R.HLD_EMB_FAIL_LO = s.pair R.HLD_EMB_TIME_LO ∧
      t.pair R.HLD_EMB_TIME_LO = s.pair R.HLD_EMB_TIME_LO ∧ (∀ a : Nat, a ∉ keptRegs → t.reg a = regReset a) ∧
      State.reset.sameParts t [.hif, .hld, .free, .boot]) ∧
  (∀ (s : State), s.boot.power = false → Answers (exec (.mainPowerPresent) s) fun t =>
      t.boot = { s.boot with power := true } ∧ t.reg R.BOOT_RESET_CAUSE = F.BOOT_RESET_CAUSE_POWER_ON.put 0#32 1 ∧
      s.sameBut t [R.BOOT_RESET_CAUSE] ∧ s.sameParts t [.boot])

/-- R27: a write request over F0 that is not of whole aligned words is discarded; it is counted once in NARROW_WR and
its lowest byte address is recorded; no other register changes. -/
def Obligations.NarrowWriteDiscarded : Prop :=
  (∀ (s : State) (addr : Nat) (whole : Bool) (words : List Word), s.inReset = false → whole = false ∨ addr % 4 ≠ 0 →
    Answers (exec (.registerWrite .f0 addr whole words) s) fun t =>
      t.g R.HIF_ACCESS_FAULT F.HIF_ACCESS_FAULT_NARROW_WR = min (s.g R.HIF_ACCESS_FAULT F.HIF_ACCESS_FAULT_NARROW_WR
        + 1) 255 ∧
      t.reg R.HIF_ACCESS_ADDR = BitVec.ofNat 32 (addr % 2 ^ 24) ∧ t.isSet R.HIF_RAW F.HIF_RAW_NARROW_WR ∧
      s.sameBut t [R.HIF_ACCESS_FAULT, R.HIF_ACCESS_ADDR] ∧ s.sameParts t [])

/-- R26, R31 and R73: a read of a mapped word over F0 answers its value; a read-to-clear word loses the bits that a
read clears; the low word of a pair leaves its high word in the source's shadow; no other register changes. R29 over
F0: a read of an unmapped address returns 0, a write to one is ignored, and either is counted in UNMAPPED and its
address recorded; no other register changes. Where the spec is silent it rests on the choices of the model in log
entries 5, 7, 8, 9, 10, 11, 26, 39 and 40. -/
def Obligations.ReadsOverF0AndF1 : Prop :=
  (∀ (s : State) (a : Nat), s.reaches .f0 a → a % 4 = 0 → mapped a = true → clearBits a ≠ 0 → holds a .rl = false →
    sharedReg a = false → Answers (exec (.readClear .f0 a 4) s) fun t =>
      s.emits t (.readData .f0 a (slice (leBytes 4 (s.readValue .f0 a).toNat) 0 4)) ∧
      t.reg a = s.reg a &&& ~~~(BitVec.ofNat 32 (clearBits a)) ∧ s.sameBut t [a] ∧ s.sameParts t []) ∧
  (∀ (s : State) (a : Nat), s.reaches .f0 a → a % 4 = 0 → mapped a = true → clearBits a = 0 → holds a .rl = true → a
    ≠ R.TSC_NOW_T0 → Answers (exec (.readLowWord .f0 a 4) s) fun t =>
      s.emits t (.readData .f0 a (slice (leBytes 4 (s.readValue .f0 a).toNat) 0 4)) ∧
      t.shadow .f0 (a + 4) = s.readNow (a + 4) ∧
      (∀ (x : Src) (b : Nat), shadowKey x b ≠ shadowKey .f0 (a + 4) → t.shadow x b = s.shadow x b) ∧
      s.sameBut t [] ∧ s.sameParts t [.shadows]) ∧
  (∀ (s : State), s.reaches .f0 R.TSC_NOW_T0 → Answers (exec (.tscNowCapture .f0 4) s) fun t =>
      s.emits t (.readData .f0 R.TSC_NOW_T0 (slice (leBytes 4 (t96Word s.now 0).toNat) 0 4)) ∧
      t.shadow .f0 R.TSC_NOW_T1 = t96Word s.now 1 ∧ t.shadow .f0 R.TSC_NOW_T2 = t96Word s.now 2 ∧ s.sameBut t [] ∧
      s.sameParts t [.shadows]) ∧
  (∀ (s : State) (addr : Nat), s.reaches .f0 addr → addr % 4 = 0 → mapped addr = false → Answers (exec (.unmappedRead
    .f0 addr 4) s) fun t =>
      s.emits t (.readData .f0 addr [0#8, 0#8, 0#8, 0#8]) ∧
      t.g R.HIF_ACCESS_FAULT F.HIF_ACCESS_FAULT_UNMAPPED = min (s.g R.HIF_ACCESS_FAULT F.HIF_ACCESS_FAULT_UNMAPPED +
        1) 255 ∧
      t.reg R.HIF_ACCESS_ADDR = BitVec.ofNat 32 (2 ^ 28 + addr % 2 ^ 24) ∧
      s.sameBut t [R.HIF_ACCESS_FAULT, R.HIF_ACCESS_ADDR] ∧ s.sameParts t []) ∧
  (∀ (s : State) (addr : Nat) (v : Word), s.reaches .f0 addr → addr % 4 = 0 → mapped addr = false → Answers (exec
    (.registerWrite .f0 addr true [v]) s) fun t =>
      t.g R.HIF_ACCESS_FAULT F.HIF_ACCESS_FAULT_UNMAPPED = min (s.g R.HIF_ACCESS_FAULT F.HIF_ACCESS_FAULT_UNMAPPED +
        1) 255 ∧
      t.reg R.HIF_ACCESS_ADDR = BitVec.ofNat 32 (2 ^ 28 + addr % 2 ^ 24) ∧
      s.sameBut t [R.HIF_ACCESS_FAULT, R.HIF_ACCESS_ADDR] ∧ s.sameParts t [])

/-- R27, R33, R44 and R48: an accepted write of any register that is no half of a writable pair stores the word its
fields form, takes the action of the register, and changes nothing else but the state of the configuration scan
(R51); a register whose write triggers nothing takes its word alone; every write-once register takes its first write
and is then written once, and a second one is ignored and counted; the low word of every pair waits in its shadow,
and the high word commits both halves, clamped. Where the spec is silent it rests on the choices of the model in log
entries 5, 7, 8, 9, 10, 11, 26, 39 and 40. -/
def Obligations.HostWrites : Prop :=
  (∀ (s : State) (a : Nat) (v : Word), s.accepts a → ownWord a = true → Answers (exec (.registerWrite .f0 a true [v])
    s) fun t =>
      (((if scanned a then ((s.setReg a (s.formWord a v)).act a (s.readNow a) v).scanAccepted else (s.setReg a
        (s.formWord a v)).act a (s.readNow a) v))).sameBut t [] ∧
      (((if scanned a then ((s.setReg a (s.formWord a v)).act a (s.readNow a) v).scanAccepted else (s.setReg a
        (s.formWord a v)).act a (s.readNow a) v))).sameParts t []) ∧
  (∀ (s : State) (a : Nat) (v : Word), s.accepts a → ownWord a = true → sharedReg a = false → (0x10000 ≤ a ∧ a <
    0x20000 ∧ a ≠ R.BOOT_CMD ∧ a ≠ R.BOOT_FLASH_CTRL) ∨ (0x40000 ≤ a ∧ a < 0x40100 ∧ a ≠ R.SYN_UPDATE) ∨ (0x280000 ≤
    a ∧ a < 0x300000 ∧ inArray a (R.HRD_PORTn_CFG 0) 0x10 25 = false) ∨ (0x3C0000 ≤ a ∧ a < 0x3E0000 ∧ a ≠ R.GUY_CTRL
    ∧ a ≠ R.RUT_CTRL ∧ a ≠ R.RUT_CMD) → Answers (exec (.registerWrite .f0 a true [v]) s) fun t =>
      t.reg a = s.formWord a v ∧ s.sameBut t [a, R.HIF_CFG_CRC_STATUS] ∧ s.sameParts t []) ∧
  (∀ (s : State) (a : Nat) (v : Word), s.accepts a → holds a .w1 = true → Answers (exec (.writeOnce .f0 a v) s) fun t
    =>
      a ∈ t.w1done ∧
      ({ ((if scanned a then ((s.setReg a (s.formWord a v)).act a (s.readNow a) v).scanAccepted else (s.setReg a (s.formWord a v)).act a (s.readNow a) v)) with w1done := a :: s.w1done }).sameBut
        t [] ∧
      ({ ((if scanned a then ((s.setReg a (s.formWord a v)).act a (s.readNow a) v).scanAccepted else (s.setReg a (s.formWord a v)).act a (s.readNow a) v)) with w1done := a :: s.w1done }).sameParts
        t []) ∧
  (∀ (s : State) (v : Word), s.accepts R.HIF_LOCK → Answers (exec (.writeOnce .f0 R.HIF_LOCK v) s) fun t =>
      t.g R.HIF_LOCK F.HIF_LOCK_LOCK = F.HIF_LOCK_LOCK.get v ∧ R.HIF_LOCK ∈ t.w1done ∧
      s.sameBut t [R.HIF_LOCK, R.HIF_CFG_CRC_STATUS] ∧ s.sameParts t [.once]) ∧
  (∀ (s : State) (a : Nat) (v : Word), s.reaches .f0 a → holds a .w1 = true → s.whyIgnored .f0 a = some 0 →
    s.writeTriggers .f0 a = false → Answers (exec (.writeOnce .f0 a v) s) fun t =>
      t.g R.HIF_ACCESS_FAULT F.HIF_ACCESS_FAULT_LOCKED_WR = min (s.g R.HIF_ACCESS_FAULT F.HIF_ACCESS_FAULT_LOCKED_WR
        + 1) 255 ∧
      t.reg R.HIF_ACCESS_ADDR = BitVec.ofNat 32 (2 ^ 29 + a) ∧ t.isSet R.HIF_RAW F.HIF_RAW_LOCKED_WR ∧
      s.sameBut t [R.HIF_ACCESS_FAULT, R.HIF_ACCESS_ADDR] ∧ s.sameParts t []) ∧
  (∀ (s : State) (a : Nat) (v : Word), s.accepts a → isPairLo a = true → Answers (exec (.writeLowWord a v) s) fun t =>
      Tbl.get none t.wshadow a = some (s.formWord a v) ∧ s.sameBut t [] ∧ s.sameParts t [.shadows]) ∧
  (∀ (s : State) (lo : Nat) (v : Word), s.accepts (lo + 4) → isPairLo lo = true → Answers (exec (.writeHighWord (lo +
    4) v) s) fun t =>
      (((if scanned (lo + 4) then ((s.commitPair lo (s.formWord (lo + 4) v)).act (lo + 4) (s.readNow (lo + 4))
        v).scanAccepted else (s.commitPair lo (s.formWord (lo + 4) v)).act (lo + 4) (s.readNow (lo + 4)) v))).sameBut
        t [] ∧
      (((if scanned (lo + 4) then ((s.commitPair lo (s.formWord (lo + 4) v)).act (lo + 4) (s.readNow (lo + 4))
        v).scanAccepted else (s.commitPair lo (s.formWord (lo + 4) v)).act (lo + 4) (s.readNow (lo + 4))
        v))).sameParts t []) ∧
  (∀ (s : State) (lo : Nat) (v : Word), s.accepts (lo + 4) → lo = R.TSC_STEP_LO ∨ lo = R.HLD_PRE_F_LO ∨ lo =
    R.SPR_FETCH_IDX_LO ∨ inArray lo (R.PTP_Pn_MASTER_LO 0) 0x40 24 = true ∨ inArray lo (R.TDC_Mm_LIM_MIN_LO 0) 0x80 4
    = true ∨ inArray lo (R.TDC_Mm_LIM_MAX_LO 0) 0x80 4 = true ∨ ∃ k : Fin 3, lo = R.HIF_DMAk_BASE_LO k ∨ lo =
    R.HIF_DMAk_WB_LO k → Answers (exec (.writeHighWord (lo + 4) v) s) fun t =>
      t.pair lo = s.clampPair lo (s.pairWritten lo (s.formWord (lo + 4) v)) % 2 ^ 64 ∧
      Tbl.get none t.wshadow lo = none ∧ s.sameBut t [lo, lo + 4, R.HIF_CFG_CRC_STATUS] ∧ s.sameParts t [.shadows]) ∧
  (∀ (s : State) (a : Nat) (whole : Bool) (v : Word), s.inReset = false → s.runs .register = true →
    s.hif.dead.contains .register = false → s.hif.held.any (fun y => decide (y.src = .f1)) = false → a < 0x8000 →
    Answers (exec (.registerWrite .f1 a whole [v]) s) fun t =>
      t.g R.PMC_USER_EN F.PMC_USER_EN_DENIED = min (s.g R.PMC_USER_EN F.PMC_USER_EN_DENIED + 1) 65535 ∧
      s.sameBut t [R.PMC_USER_EN] ∧ s.sameParts t []) ∧
  (∀ (s : State) (a : Nat) (whole : Bool) (v : Word), s.inReset = false → s.runs .register = true →
    s.hif.dead.contains .register = false → s.hif.held.any (fun y => decide (y.src = .f1)) = false → 0x8000 ≤ a → a <
    0x8100 → Answers (exec (.registerWrite .f1 a whole [v]) s) fun t =>
      t.g R.HIF_ACCESS_FAULT F.HIF_ACCESS_FAULT_NARROW_WR = min (s.g R.HIF_ACCESS_FAULT F.HIF_ACCESS_FAULT_NARROW_WR
        + 1) 255 ∧
      t.reg R.HIF_ACCESS_ADDR = BitVec.ofNat 32 (2 ^ 30 + a) ∧ s.sameBut t [R.HIF_ACCESS_FAULT, R.HIF_ACCESS_ADDR] ∧
      s.sameParts t []) ∧
  (∀ (s : State) (a : Nat) (whole : Bool) (v : Word), s.inReset = false → s.runs .register = true →
    s.hif.dead.contains .register = false → s.hif.held.any (fun y => decide (y.src = .f1)) = false → 0x8100 ≤ a →
    Answers (exec (.registerWrite .f1 a whole [v]) s) fun t =>
      t.g R.HIF_ACCESS_FAULT F.HIF_ACCESS_FAULT_UNMAPPED = min (s.g R.HIF_ACCESS_FAULT F.HIF_ACCESS_FAULT_UNMAPPED +
        1) 255 ∧
      t.reg R.HIF_ACCESS_ADDR = BitVec.ofNat 32 (2 ^ 30 + 2 ^ 28 + a % 2 ^ 24) ∧
      s.sameBut t [R.HIF_ACCESS_FAULT, R.HIF_ACCESS_ADDR] ∧ s.sameParts t []) ∧
  (∀ (s : State) (a : Nat) (l : List Word), s.inReset = false → a % 4 = 0 → Answers (exec (.registerWrite .f0 a true
    l) s) fun t =>
      (s.accessAll (wordAccesses .f0 a l)).sameBut t [] ∧ (s.accessAll (wordAccesses .f0 a l)).sameParts t []) ∧
  (∀ (s : State) (a : Nat) (src : Src) (len : Nat), s.inReset = false → len ≤ 512 → Answers (exec (.readClear src a
    len) s) fun t =>
      (s.accessAll ((laneSplit len a len).map (fun p : Nat × Nat × Nat => ⟨src, p.1, false, 0#32, p.2.1,
        p.2.2⟩))).sameBut t [] ∧
      (s.accessAll ((laneSplit len a len).map (fun p : Nat × Nat × Nat => ⟨src, p.1, false, 0#32, p.2.1,
        p.2.2⟩))).sameParts t [])

/-- R51 and R52: COMMIT puts the scan into its reference pass, UNFREEZE ends a write freeze, a reference pass keeps
its result as the reference, and a mismatch with ACTION 1 freezes writes and sets CRC_MISMATCH. Where the spec is
silent it rests on the choices of the model in log entries 5, 7, 8, 9, 10, 11, 26, 39 and 40. -/
def Obligations.ConfigurationScan : Prop :=
  (∀ (s : State) (v : Word), s.accepts R.HIF_CFG_CRC_COMMIT → Answers (exec (.cfgScanCommit v) s) fun t =>
      t.g R.HIF_CFG_CRC_STATUS F.HIF_CFG_CRC_STATUS_STATE = 1 ∧ s.sameBut t [R.HIF_CFG_CRC_STATUS] ∧
      s.sameParts t []) ∧
  (∀ (s : State) (v : Word), s.accepts R.HIF_CFG_CRC_COMMIT → Answers (exec (.cfgScanUnfreeze v) s) fun t =>
      t.g R.HIF_CFG_CRC_STATUS F.HIF_CFG_CRC_STATUS_FROZEN = 0 ∧ s.sameBut t [R.HIF_CFG_CRC_STATUS] ∧
      s.sameParts t []) ∧
  (∀ (s : State) (l : List (Nat × Word)), s.inReset = false → (s.upset l).scanState = 1 → Answers (exec
    (.cfgScanComplete l) s) fun t =>
      t.reg R.HIF_CFG_CRC_LAST = BitVec.ofNat 32 (s.upset l).scanResult ∧
      t.reg R.HIF_CFG_CRC_REF = BitVec.ofNat 32 (s.upset l).scanResult ∧
      t.g R.HIF_CFG_CRC_STATUS F.HIF_CFG_CRC_STATUS_STATE = 2 ∧
      (s.upset l).sameBut t [R.HIF_CFG_CRC_LAST, R.HIF_CFG_CRC_REF, R.HIF_CFG_CRC_STATUS] ∧
      (s.upset l).sameParts t []) ∧
  (∀ (s : State) (l : List (Nat × Word)), s.inReset = false → (s.upset l).scanState = 2 → (s.upset l).scanResult ≠
    ((s.upset l).reg R.HIF_CFG_CRC_REF).toNat → (s.upset l).g R.HIF_CFG_CRC_CTRL F.HIF_CFG_CRC_CTRL_ACTION = 1 →
    Answers (exec (.cfgScanComplete l) s) fun t =>
      t.reg R.HIF_CFG_CRC_LAST = BitVec.ofNat 32 (s.upset l).scanResult ∧
      t.g R.HIF_CFG_CRC_STATUS F.HIF_CFG_CRC_STATUS_STATE = 3 ∧
      t.g R.HIF_CFG_CRC_STATUS F.HIF_CFG_CRC_STATUS_FROZEN = 1 ∧ t.isSet R.HIF_RAW F.HIF_RAW_CRC_MISMATCH ∧
      (s.upset l).sameBut t [R.HIF_CFG_CRC_LAST, R.HIF_CFG_CRC_STATUS] ∧ (s.upset l).sameParts t [])

/-- R59 to R63: POP removes the oldest fault record; ENABLE starts a ring; a tail write moves TAIL; a PCIe error
stops a ring, sets PCIE_ERR and queues code 0x03; a vector message that waited is signalled when its hold-off ends; a
descriptor done moves HEAD on and writes DONE_LEN and DONE_STATUS. Where the spec is silent it rests on the choices
of the model in log entries 5, 7, 8, 9, 10, 11, 26, 39 and 40. -/
def Obligations.RingCommands : Prop :=
  (∀ (s : State) (v : Word) (f : FaultRec) (l : List FaultRec), s.accepts R.HIF_FQ_POP → s.hif.fq = f :: l → Answers
    (exec (.fqPop v) s) fun t =>
      l <+: t.hif.fq ∧ s.sameBut t [] ∧ s.sameParts t []) ∧
  (∀ (s : State) (k : Fin 3) (v : Word), s.accepts (R.HIF_DMAk_CTRL k) → s.g (R.HIF_DMAk_CTRL k)
    F.HIF_DMAk_CTRL_ENABLE = 0 → Answers (exec (.dmaRingEnable k v) s) fun t =>
      t.g (R.HIF_DMAk_CTRL k) F.HIF_DMAk_CTRL_ENABLE = 1 ∧ t.g (R.HIF_DMAk_STATUS k) F.HIF_DMAk_STATUS_RUNNING = 1 ∧
      s.sameBut t [R.HIF_DMAk_CTRL k, R.HIF_DMAk_STATUS k] ∧ s.sameParts t []) ∧
  (∀ (s : State) (k : Fin 3) (v : Word), s.accepts (R.HIF_DMAk_TAIL k) → Answers (exec (.dmaTailWrite k v) s) fun t =>
      t.reg (R.HIF_DMAk_TAIL k) = s.formWord (R.HIF_DMAk_TAIL k) v ∧ s.sameBut t [R.HIF_DMAk_TAIL k] ∧
      s.sameParts t []) ∧
  (∀ (s : State) (k : Fin 3), s.inReset = false → s.g (R.HIF_DMAk_STATUS k) F.HIF_DMAk_STATUS_RUNNING = 1 → Answers
    (exec (.dmaPcieError k) s) fun t =>
      t.g (R.HIF_DMAk_STATUS k) F.HIF_DMAk_STATUS_RUNNING = 0 ∧
      t.isSet (R.HIF_DMAk_STATUS k) F.HIF_DMAk_STATUS_PCIE_ERR ∧
      (s.hif.fq.length < 32 → ∃ f ∈ t.hif.fq, f.block = 0 ∧ f.code = 3 ∧ f.detail = k.val) ∧
      s.sameBut t [R.HIF_DMAk_STATUS k] ∧ s.sameParts t []) ∧
  (∀ (s : State) (k : Fin 3), s.inReset = false → k.val ∈ s.hif.waitMsg → s.hif.fn0.msixEn = true → s.hif.fn0.d3hot =
    false → s.hif.fn0.msixMask = false → bit (s.reg (0x800C + 16 * (19 + k.val))) 0 = false → Answers (exec
    (.dmaHoldoffExpiry k) s) fun t =>
      k.val ∉ t.hif.waitMsg ∧ s.emits t (.msi (19 + k.val)) ∧ s.sameBut t [] ∧ s.sameParts t [.hif]) ∧
  (∀ (s : State) (desc : List Byte) (c : Content) (l : List Content), s.inReset = false → s.posted 0 ≠ 0 → s.ready 0
    = c :: l → c.st < 2 ^ 16 → Answers (exec (.dmaDescriptorDone 0 desc) s) fun t =>
      t.g (R.HIF_DMAk_HEAD 0) F.HIF_DMAk_HEAD_HEAD = (s.g (R.HIF_DMAk_HEAD 0) F.HIF_DMAk_HEAD_HEAD + 1) % s.ringSize
        0 % 2 ^ 16 ∧
      t.ready 0 = l ∧
      s.emits t (.hostMem (s.descAddr 0 + 12) (leBytes 2 c.bytes.length ++ leBytes 2 (2 ^ 15 + c.st % 2 ^ 15))) ∧
      s.sameBut t [R.HIF_DMAk_HEAD 0, R.HIF_DMAk_STATUS 0] ∧ s.sameParts t [.hif]) ∧
  (∀ (s : State) (desc : List Byte) (c : Content) (l : List Content), s.inReset = false → s.posted 1 ≠ 0 → s.ready 1
    = c :: l → descIllegal 1 (descBuf desc) (descLen desc) = false → c.bytes.length ≤ descLen desc → Answers (exec
    (.dmaDescriptorDone 1 desc) s) fun t =>
      t.g (R.HIF_DMAk_HEAD 1) F.HIF_DMAk_HEAD_HEAD = (s.g (R.HIF_DMAk_HEAD 1) F.HIF_DMAk_HEAD_HEAD + 1) % s.ringSize
        1 % 2 ^ 16 ∧
      t.ready 1 = l ∧
      [Out.hostMem (descBuf desc) c.bytes, .hostMem (s.descAddr 1 + 12) (leBytes 2 c.bytes.length ++ leBytes 2 (2 ^
        15 + ((if c.st = 0 then 2 ^ 13 else 0) + 2 ^ 12)))] <+: t.out.drop s.out.length ∧
      s.sameBut t [R.HIF_DMAk_HEAD 1, R.HIF_DMAk_STATUS 1] ∧ s.sameParts t [.hif]) ∧
  (∀ (s : State) (desc : List Byte) (c : Content) (l : List Content), s.inReset = false → s.posted 2 ≠ 0 → s.ready 2
    = c :: l → Answers (exec (.dmaDescriptorDone 2 desc) s) fun t =>
      t.g (R.HIF_DMAk_HEAD 2) F.HIF_DMAk_HEAD_HEAD = (s.g (R.HIF_DMAk_HEAD 2) F.HIF_DMAk_HEAD_HEAD + 1) % s.ringSize
        2 % 2 ^ 16 ∧
      t.ready 2 = l ∧
      [Out.hostMem (descBuf c.desc) (c.bytes.take (descLen c.desc)), .hostMem (s.descAddr 2 + 12) (leBytes 2
        (c.bytes.take (descLen c.desc)).length ++ leBytes 2 (2 ^ 15 + c.st % 2 ^ 15))] <+: t.out.drop s.out.length ∧
      s.sameBut t [R.HIF_DMAk_HEAD 2, R.HIF_DMAk_STATUS 2] ∧ s.sameParts t [.hif])

/-- R24, R36, R38, R42 and R43: the bus timeout completes the one waiting access of an engine, a read with
0xDEADC10C, counts it and takes its domain as dead; a domain that answers is live again and the accesses that wait go
on; a one-sided reset of a crossing discards what is in it, is counted and sets XRESET; a PCIe reset, a link-down and
a Function Level Reset withdraw the waiting accesses of their functions, counting the crossings they interrupt, and
change only PCIe-side state (and F0's stops the rings and clears IRQ_EN). That the MSI-X table and pending bits go
back to their reset values is the model's presumption (log entry 9). Where the spec is silent it rests on the choices
of the model in log entries 5, 7, 8, 9, 10, 11, 26, 39 and 40. -/
def Obligations.CrossingsAndTimeouts : Prop :=
  (∀ (s : State) (x : Access), s.inReset = false → x.src ≠ .boot → s.hif.held = [x] → s.hif.flow = [] → x.write =
    false → Answers (exec (.busTimeout x.src) s) fun t =>
      accessDom x.src x.addr ∈ t.hif.dead ∧ t.hif.held = [] ∧
      t.g R.HIF_ACCESS_FAULT F.HIF_ACCESS_FAULT_TIMEOUT = min (s.g R.HIF_ACCESS_FAULT F.HIF_ACCESS_FAULT_TIMEOUT + 1)
        255 ∧
      t.isSet R.HIF_RAW F.HIF_RAW_TIMEOUT ∧
      (s.hif.fq.length < 32 → ∃ f ∈ t.hif.fq, f.block = 0 ∧ f.code = 1 ∧ f.detail = srcCode x.src) ∧
      s.emits t (.readData x.src (x.addr + x.lane) (slice (leBytes 4 0xDEADC10C) x.lane x.len)) ∧
      s.sameBut t [R.HIF_ACCESS_FAULT, R.HIF_ACCESS_ADDR] ∧ s.sameParts t [.hif]) ∧
  (∀ (s : State) (x : Access), s.inReset = false → x.src ≠ .boot → s.hif.held = [x] → s.hif.flow = [] → x.write =
    true → Answers (exec (.busTimeout x.src) s) fun t =>
      accessDom x.src x.addr ∈ t.hif.dead ∧ t.hif.held = [] ∧
      t.g R.HIF_ACCESS_FAULT F.HIF_ACCESS_FAULT_TIMEOUT = min (s.g R.HIF_ACCESS_FAULT F.HIF_ACCESS_FAULT_TIMEOUT + 1)
        255 ∧
      t.isSet R.HIF_RAW F.HIF_RAW_TIMEOUT ∧
      (s.hif.fq.length < 32 → ∃ f ∈ t.hif.fq, f.block = 0 ∧ f.code = 1 ∧ f.detail = srcCode x.src) ∧
      s.sameBut t [R.HIF_ACCESS_FAULT, R.HIF_ACCESS_ADDR] ∧ s.sameParts t [.hif]) ∧
  (∀ (s : State) (x : Access), s.inReset = false → x.src ≠ .boot → s.firstHeld x.src = some x → s.hif.flow = [] →
    (s.hif.held.filter (fun y => decide (y.src = .f0) && y.write)).length < 16 → (∀ y ∈ s.hif.held.erase x, s.runs
    (accessDom y.src y.addr) = false ∧ s.hif.dead.contains (accessDom y.src y.addr) = false ∧ (y.write = true → y.src
    ≠ .f1) ∧ accessDom y.src y.addr ≠ accessDom x.src x.addr) → x.write = false → Answers (exec (.busTimeout x.src)
    s) fun t =>
      accessDom x.src x.addr ∈ t.hif.dead ∧ t.hif.held = s.hif.held.erase x ∧
      t.g R.HIF_ACCESS_FAULT F.HIF_ACCESS_FAULT_TIMEOUT = min (s.g R.HIF_ACCESS_FAULT F.HIF_ACCESS_FAULT_TIMEOUT + 1)
        255 ∧
      t.isSet R.HIF_RAW F.HIF_RAW_TIMEOUT ∧
      (s.hif.fq.length < 32 → ∃ f ∈ t.hif.fq, f.block = 0 ∧ f.code = 1 ∧ f.detail = srcCode x.src) ∧
      s.emits t (.readData x.src (x.addr + x.lane) (slice (leBytes 4 0xDEADC10C) x.lane x.len)) ∧
      s.sameBut t [R.HIF_ACCESS_FAULT, R.HIF_ACCESS_ADDR] ∧ s.sameParts t [.hif]) ∧
  (∀ (s : State) (x : Access), s.inReset = false → x.src ≠ .boot → s.firstHeld x.src = some x → s.hif.flow = [] →
    (s.hif.held.filter (fun y => decide (y.src = .f0) && y.write)).length < 16 → (∀ y ∈ s.hif.held.erase x, s.runs
    (accessDom y.src y.addr) = false ∧ s.hif.dead.contains (accessDom y.src y.addr) = false ∧ (y.write = true → y.src
    ≠ .f1) ∧ accessDom y.src y.addr ≠ accessDom x.src x.addr) → x.write = true → Answers (exec (.busTimeout x.src) s)
    fun t =>
      accessDom x.src x.addr ∈ t.hif.dead ∧ t.hif.held = s.hif.held.erase x ∧
      t.g R.HIF_ACCESS_FAULT F.HIF_ACCESS_FAULT_TIMEOUT = min (s.g R.HIF_ACCESS_FAULT F.HIF_ACCESS_FAULT_TIMEOUT + 1)
        255 ∧
      t.isSet R.HIF_RAW F.HIF_RAW_TIMEOUT ∧
      (s.hif.fq.length < 32 → ∃ f ∈ t.hif.fq, f.block = 0 ∧ f.code = 1 ∧ f.detail = srcCode x.src) ∧
      s.sameBut t [R.HIF_ACCESS_FAULT, R.HIF_ACCESS_ADDR] ∧ s.sameParts t [.hif]) ∧
  (∀ (s : State) (x : Access), s.inReset = false → x.src ≠ .boot → s.firstHeld x.src = some x → Answers (exec
    (.busTimeout x.src) s) fun t =>
      (((({ s with hif := { s.hif with held := s.hif.held.erase x, dead := s.hif.dead.erase (accessDom x.src x.addr) ++ [accessDom x.src x.addr] } }
        : State).deadAccess x).fault 0 1 (srcCode x.src) (x.addr + x.lane)).resumeHeld).sameBut t [] ∧
      (((({ s with hif := { s.hif with held := s.hif.held.erase x, dead := s.hif.dead.erase (accessDom x.src x.addr) ++ [accessDom x.src x.addr] } }
        : State).deadAccess x).fault 0 1 (srcCode x.src) (x.addr + x.lane)).resumeHeld).sameParts t []) ∧
  (∀ (s : State) (src : Src), s.inReset = false → src = .boot ∨ s.firstHeld src = none → Answers (exec (.busTimeout
    src) s) fun t =>
      s.sameBut t [] ∧ s.sameParts t []) ∧
  (∀ (s : State) (d : Dom), s.inReset = false → s.hif.held = [] → s.hif.flow = [] → s.runs d = true → d ∈ s.hif.dead
    → Answers (exec (.domainLiveAgain d) s) fun t =>
      t.hif.dead = s.hif.dead.erase d ∧ s.sameBut t [] ∧ s.sameParts t [.hif]) ∧
  (∀ (s : State) (d : Dom), s.inReset = false → s.runs d = true → d ∈ s.hif.dead → Answers (exec (.domainLiveAgain d)
    s) fun t =>
      (({ s with hif := { s.hif with dead := s.hif.dead.erase d } }).resumeHeld).sameBut t [] ∧
      (({ s with hif := { s.hif with dead := s.hif.dead.erase d } }).resumeHeld).sameParts t []) ∧
  (∀ (s : State) (b : Fin 18) (side : Bool), s.inReset = false → s.hif.held = [] → s.hif.flow = [] → Answers (exec
    (.crossingReset b side) s) fun t =>
      t.g R.HIF_XRESET_COUNT F.HIF_XRESET_COUNT_COUNT = min (s.g R.HIF_XRESET_COUNT F.HIF_XRESET_COUNT_COUNT + 1)
        65535 ∧
      t.isSet R.HIF_RAW F.HIF_RAW_XRESET ∧ s.sameBut t [R.HIF_XRESET_COUNT] ∧ s.sameParts t []) ∧
  (∀ (s : State) (b : Fin 18) (side : Bool) (x : Access), s.inReset = false → s.hif.held = [x] → x.block = b →
    s.hif.flow = [] → Answers (exec (.crossingReset b side) s) fun t =>
      t.g R.HIF_XRESET_COUNT F.HIF_XRESET_COUNT_COUNT = min (s.g R.HIF_XRESET_COUNT F.HIF_XRESET_COUNT_COUNT + 1)
        65535 ∧
      t.isSet R.HIF_RAW F.HIF_RAW_XRESET ∧ t.hif.held = [] ∧ s.sameBut t [R.HIF_XRESET_COUNT] ∧ s.sameParts t [.hif]) ∧
  (∀ (s : State) (b : Fin 18) (side : Bool), s.inReset = false → (∀ x ∈ s.hif.held, x.block ≠ b) → s.hif.flow = [] →
    (s.hif.held.filter (fun y => decide (y.src = .f0) && y.write)).length < 16 → (∀ y ∈ s.hif.held, s.runs (accessDom
    y.src y.addr) = false ∧ s.hif.dead.contains (accessDom y.src y.addr) = false ∧ (y.write = true → y.src ≠ .f1)) →
    Answers (exec (.crossingReset b side) s) fun t =>
      t.g R.HIF_XRESET_COUNT F.HIF_XRESET_COUNT_COUNT = min (s.g R.HIF_XRESET_COUNT F.HIF_XRESET_COUNT_COUNT + 1)
        65535 ∧
      t.isSet R.HIF_RAW F.HIF_RAW_XRESET ∧ s.sameBut t [R.HIF_XRESET_COUNT] ∧ s.sameParts t []) ∧
  (∀ (s : State) (b : Fin 18) (side : Bool), s.inReset = false → Answers (exec (.crossingReset b side) s) fun t =>
      ((([Src.f0, .f1, .i2c, .boot].foldl (fun (s : State) (src : Src) => s.discardCrossing b src) s).crossingNote b
        side).resumeHeld).sameBut t [] ∧
      ((([Src.f0, .f1, .i2c, .boot].foldl (fun (s : State) (src : Src) => s.discardCrossing b src) s).crossingNote b
        side).resumeHeld).sameParts t []) ∧
  (∀ (s : State) (d : Dom), s.inReset = false → s.runs d = false ∨ d ∉ s.hif.dead → Answers (exec (.domainLiveAgain
    d) s) fun t =>
      s.sameBut t [] ∧ s.sameParts t []) ∧
  (∀ (s : State), s.inReset = false → Answers (exec (.pcieReset) s) fun t =>
      (∀ i : Fin 88, t.reg (0x8000 + 4 * i) = regReset (0x8000 + 4 * i)) ∧
      t.hif.held = s.hif.held.filter (fun y : Access => decide (y.src ≠ Src.f0) && decide (y.src ≠ Src.f1)) ∧
      t.hif.flow = s.hif.flow.filter (fun y : Access => decide (y.src ≠ Src.f0) && decide (y.src ≠ Src.f1)) ∧
      t.g R.HIF_XRESET_COUNT F.HIF_XRESET_COUNT_COUNT = min (s.g R.HIF_XRESET_COUNT F.HIF_XRESET_COUNT_COUNT + b2n
        (s.hif.held.any (fun y : Access => decide (y.src = Src.f0))) + b2n (s.hif.held.any (fun y : Access => decide
        (y.src = Src.f1)))) 65535 ∧
      t.hif.fn0 = PciFn.f0 ∧ t.hif.fn1 = PciFn.f1 ∧
      s.sameBeyond t [(0x8000, 0x8160), (R.HIF_XRESET_COUNT, R.HIF_XRESET_COUNT + 4)] ∧ s.sameParts t [.hif]) ∧
  (∀ (s : State), s.inReset = false → Answers (exec (.pcieLinkDown) s) fun t =>
      (∀ i : Fin 88, t.reg (0x8000 + 4 * i) = regReset (0x8000 + 4 * i)) ∧
      t.hif.held = s.hif.held.filter (fun y : Access => decide (y.src ≠ Src.f0) && decide (y.src ≠ Src.f1)) ∧
      t.hif.flow = s.hif.flow.filter (fun y : Access => decide (y.src ≠ Src.f0) && decide (y.src ≠ Src.f1)) ∧
      t.g R.HIF_XRESET_COUNT F.HIF_XRESET_COUNT_COUNT = min (s.g R.HIF_XRESET_COUNT F.HIF_XRESET_COUNT_COUNT + b2n
        (s.hif.held.any (fun y : Access => decide (y.src = Src.f0))) + b2n (s.hif.held.any (fun y : Access => decide
        (y.src = Src.f1)))) 65535 ∧
      t.hif.fn0 = PciFn.f0 ∧ t.hif.fn1 = PciFn.f1 ∧ t.isSet R.HIF_RAW F.HIF_RAW_LINK_DOWN ∧
      s.sameBeyond t [(0x8000, 0x8160), (R.HIF_XRESET_COUNT, R.HIF_XRESET_COUNT + 4)] ∧ s.sameParts t [.hif]) ∧
  (∀ (s : State), s.inReset = false → Answers (exec (.functionLevelResetF0) s) fun t =>
      (∀ k : Fin 3, t.g (R.HIF_DMAk_CTRL k) F.HIF_DMAk_CTRL_ENABLE = 0 ∧ t.g (R.HIF_DMAk_STATUS k)
        F.HIF_DMAk_STATUS_RUNNING = 0) ∧
      t.reg R.HIF_IRQ_EN = 0#32 ∧ t.reg 0x9000 = 0#32 ∧ t.hif.waitMsg = [] ∧
      t.hif.held = s.hif.held.filter (fun y : Access => decide (y.src ≠ Src.f0)) ∧
      t.g R.HIF_XRESET_COUNT F.HIF_XRESET_COUNT_COUNT = min (s.g R.HIF_XRESET_COUNT F.HIF_XRESET_COUNT_COUNT + b2n
        (s.hif.held.any (fun y : Access => decide (y.src = Src.f0)))) 65535 ∧
      s.sameBeyond t [(0x8000, 0x8160), (R.HIF_XRESET_COUNT, R.HIF_XRESET_COUNT + 4), (R.HIF_DMAk_BASE_LO 0, 0x1C0),
        (R.HIF_IRQ_EN, R.HIF_IRQ_EN + 4)] ∧
      s.sameParts t [.hif]) ∧
  (∀ (s : State), s.inReset = false → Answers (exec (.functionLevelResetF1) s) fun t =>
      t.hif =
        { s.hif with fq := t.hif.fq, fn1 := PciFn.f1, held := s.hif.held.filter (fun y : Access => decide (y.src ≠ Src.f1)), flow := s.hif.flow.filter (fun y : Access => decide (y.src ≠ Src.f1)) }
        ∧
      t.g R.HIF_XRESET_COUNT F.HIF_XRESET_COUNT_COUNT = min (s.g R.HIF_XRESET_COUNT F.HIF_XRESET_COUNT_COUNT + b2n
        (s.hif.held.any (fun y : Access => decide (y.src = Src.f1)))) 65535 ∧
      (s.hif.held.any (fun y : Access => decide (y.src = Src.f1)) = true → t.isSet R.HIF_RAW F.HIF_RAW_XRESET) ∧
      s.sameBut t [R.HIF_XRESET_COUNT] ∧ s.sameParts t [.hif])

/-- R64 to R66: three address bytes after the device address set the I2C target's address with bits 1 and 0 ignored;
a read returns an RO or RCS word least significant byte first and moves the address on; another device address is not
answered; a die conversion shows the hottest sensor with its calibration offset, and OVERTEMP from 130 degrees on.
Where the spec is silent it rests on the choices of the model in log entries 5, 7, 8, 9, 10, 11, 26, 39 and 40. -/
def Obligations.BoardController : Prop :=
  (∀ (s : State) (dev : BitVec 7) (b2 b1 b0 : Byte), s.inReset = false → dev.toNat = 0x58 + s.hif.i2cStrap → Answers
    (exec (.i2cAddressWrite dev b2 b1 b0) s) fun t =>
      t.hif = { s.hif with fq := t.hif.fq, i2cAddr := (b2.toNat * 65536 + b1.toNat * 256 + b0.toNat) / 4 * 4 } ∧
      s.sameBut t [] ∧ s.sameParts t [.hif]) ∧
  (∀ (s : State) (dev : BitVec 7) (b2 b1 b0 : Byte), s.inReset = false → dev.toNat ≠ 0x58 + s.hif.i2cStrap → Answers
    (exec (.i2cAddressWrite dev b2 b1 b0) s) fun t =>
      s.sameBut t [] ∧ s.sameParts t []) ∧
  (∀ (s : State) (dev : BitVec 7) (a : Nat), s.reaches .i2c a → dev.toNat = 0x58 + s.hif.i2cStrap → s.hif.i2cAddr = a
    → a % 4 = 0 → a < 2 ^ 24 - 4 → i2cReads a = true → Answers (exec (.i2cRead dev 4) s) fun t =>
      s.emits t (.readData .i2c a (slice (leBytes 4 (s.readNow a).toNat) 0 4)) ∧ t.hif.i2cAddr = a + 4 ∧
      s.sameBut t [] ∧ s.sameParts t [.hif]) ∧
  (∀ (s : State) (raw : Int) (code : Nat), s.inReset = false → Answers (exec (.dieTempConversion raw code) s) fun t =>
      t.g R.HIF_TEMP F.HIF_TEMP_DIE_TEMP = enc 16 (satS 16 (raw + s.tempEff)) ∧
      t.g R.HLD_TEMP_NOW F.HLD_TEMP_NOW_OSC_CODE = min code 4095 ∧
      t.g R.IOP_STATUS F.IOP_STATUS_OVERTEMP = b2n (decide (2080 ≤ satS 16 (raw + s.tempEff))) ∧
      F.HLD_STATUS_TEMP_OUT.put (t.reg R.HLD_STATUS) 0 = F.HLD_STATUS_TEMP_OUT.put (s.reg R.HLD_STATUS) 0 ∧
      s.sameBut t [R.HIF_TEMP, R.HLD_TEMP_NOW, R.HLD_STATUS, R.IOP_STATUS] ∧ s.sameParts t [.conds])

/-- R372 to R374: EN takes the link from DOWN to ACQUIRE, or ALIGN with good lanes, and starts the markers; EN 0
takes it DOWN; a detector that is declared ends block lock and takes ALIGN and UP back to ACQUIRE; complemented SYNC
is corrected with POL_AUTO; markers that align take ALIGN to UP and give LANE_MAP; markers that fail take UP to
ACQUIRE with a fault record; 8 ms in ALIGN is counted. Where the spec is silent it rests on the choices of the model
in log entries 3, 28, 29 and 30. -/
def Obligations.GuylineLink : Prop :=
  (∀ (s : State) (v : Word), s.accepts R.GUY_CTRL → s.guyState = guyDown → Answers (exec (.guyEnable v) s) fun t =>
      (t.guyState = if s.lanesGood then guyAlign else guyAcquire) ∧
      s.emits t (.guyMarker 0 (marker 0 0 s.rut.pairId s.rut.unit)) ∧ t.on R.GUY_CTRL F.GUY_CTRL_EN = true ∧
      s.sameBut t [R.GUY_CTRL, R.GUY_STATUS, R.HIF_CFG_CRC_STATUS] ∧ s.sameParts t [.guy]) ∧
  (∀ (s : State) (v : Word), s.accepts R.GUY_CTRL → s.guyState = guyUpState → s.hbOk = false → Answers (exec
    (.guyDisable v) s) fun t =>
      t.guyState = guyDown ∧
      t.g R.GUY_CNT_DOWN F.GUY_CNT_DOWN_DOWNS = min (s.g R.GUY_CNT_DOWN F.GUY_CNT_DOWN_DOWNS + 1) 65535 ∧
      t.isSet R.GUY_RAW F.GUY_RAW_DOWN ∧ t.guy.last = none ∧ t.condHolds R.GUY_RAW F.GUY_RAW_TIME_STALE = false ∧
      s.sameBut t [R.GUY_CTRL, R.GUY_STATUS, R.GUY_CNT_DOWN, R.HIF_CFG_CRC_STATUS] ∧
      s.sameParts t [.guy, .rut, .conds]) ∧
  (∀ (s : State) (l : Fin 4), s.inReset = false → s.guyState = guyAlign → Answers (exec (.guyLaneLos l true) s) fun t
    =>
      maskBit (t.g R.GUY_STATUS F.GUY_STATUS_LOS) l = true ∧
      maskBit (t.g R.GUY_STATUS F.GUY_STATUS_BLOCK_LOCK) l = false ∧ t.guyState = guyAcquire ∧
      s.sameBut t [R.GUY_STATUS] ∧ s.sameParts t [.guy]) ∧
  (∀ (s : State) (l : Fin 4), s.inReset = false → s.guyState = guyUpState → s.hbOk = false → Answers (exec
    (.guyLaneLos l true) s) fun t =>
      maskBit (t.g R.GUY_STATUS F.GUY_STATUS_LOS) l = true ∧
      maskBit (t.g R.GUY_STATUS F.GUY_STATUS_BLOCK_LOCK) l = false ∧ t.guyState = guyAcquire ∧
      t.isSet R.GUY_RAW F.GUY_RAW_DOWN ∧
      t.g R.GUY_CNT_DOWN F.GUY_CNT_DOWN_DOWNS = min (s.g R.GUY_CNT_DOWN F.GUY_CNT_DOWN_DOWNS + 1) 65535 ∧
      (s.hif.fq.length < 32 → ∃ f ∈ t.hif.fq, f.block = 14 ∧ f.code = 1) ∧
      s.sameBut t [R.GUY_STATUS, R.GUY_CNT_DOWN] ∧ s.sameParts t [.guy, .rut, .conds]) ∧
  (∀ (s : State) (l : Fin 4) (b : Bool), s.inReset = false → s.guyState = guyDown → b = true ∨ s.syn.lanes.contains
    (24 + l.val) = true → Answers (exec (.guyLaneLol l b) s) fun t =>
      maskBit (t.g R.GUY_STATUS F.GUY_STATUS_LOL) l = b ∧
      (b = true → maskBit (t.g R.GUY_STATUS F.GUY_STATUS_BLOCK_LOCK) l = false) ∧ t.guyState = guyDown ∧
      s.sameBut t [R.GUY_STATUS] ∧ s.sameParts t [.guy]) ∧
  (∀ (s : State) (l : Fin 4), s.inReset = false → s.guyState = guyDown → maskBit (s.g R.GUY_STATUS F.GUY_STATUS_LOS)
    l = false → maskBit (s.g R.GUY_STATUS F.GUY_STATUS_LOL) l = false → Answers (exec (.guyBlockLock l true false) s)
    fun t =>
      maskBit (t.g R.GUY_STATUS F.GUY_STATUS_BLOCK_LOCK) l = true ∧ s.sameBut t [R.GUY_STATUS] ∧
      s.sameParts t [.guy]) ∧
  (∀ (s : State) (l : Fin 4), s.inReset = false → s.guyState = guyDown → maskBit (s.g R.GUY_STATUS F.GUY_STATUS_LOS)
    l = false → maskBit (s.g R.GUY_STATUS F.GUY_STATUS_LOL) l = false → s.on R.GUY_CTRL F.GUY_CTRL_POL_AUTO = true →
    Answers (exec (.guyBlockLock l true true) s) fun t =>
      maskBit (t.g R.GUY_STATUS F.GUY_STATUS_BLOCK_LOCK) l = true ∧
      maskBit (t.g R.GUY_STATUS F.GUY_STATUS_POL_INV) l = true ∧ t.isSet R.GUY_RAW F.GUY_RAW_POL ∧
      s.sameBut t [R.GUY_STATUS] ∧ s.sameParts t [.guy]) ∧
  (∀ (s : State) (l : List (BitVec 70 × Nat)), s.inReset = false → s.lanesGood = true → s.guyState = guyAlign →
    l.length = 4 → markersAlign s.rut.pairId l = true → Answers (exec (.guyMarkerRx l) s) fun t =>
      t.guyState = guyUpState ∧ t.isSet R.GUY_RAW F.GUY_RAW_UP ∧ t.g R.GUY_LANE_MAP F.GUY_LANE_MAP_MAP = laneMap l ∧
      t.guy.last = none ∧ t.guy.mcount = markerCount (l.headD (0#70, 0)).1 ∧
      s.sameBut t [R.GUY_STATUS, R.GUY_SKEW, R.GUY_LANE_MAP] ∧ s.sameParts t [.guy]) ∧
  (∀ (s : State) (l : List (BitVec 70 × Nat)), s.inReset = false → s.lanesGood = true → l.length = 4 → markersAlign
    s.rut.pairId l = false → s.guyState = guyUpState → s.hbOk = false → Answers (exec (.guyMarkerRx l) s) fun t =>
      t.guyState = guyAcquire ∧ t.isSet R.GUY_RAW F.GUY_RAW_SKEW_ERR ∧ t.isSet R.GUY_RAW F.GUY_RAW_DOWN ∧
      t.g R.GUY_CNT_DOWN F.GUY_CNT_DOWN_DOWNS = min (s.g R.GUY_CNT_DOWN F.GUY_CNT_DOWN_DOWNS + 1) 65535 ∧
      (s.hif.fq.length < 32 → ∃ f ∈ t.hif.fq, f.block = 14 ∧ f.code = 1) ∧
      s.sameBut t [R.GUY_STATUS, R.GUY_SKEW, R.GUY_CNT_DOWN] ∧ s.sameParts t [.guy, .rut, .conds]) ∧
  (∀ (s : State) , s.inReset = false → s.guyState = guyAlign → Answers (exec (.guyAlignTimeout) s) fun t =>
      t.guyState = guyAcquire ∧
      t.g R.GUY_CNT_DOWN F.GUY_CNT_DOWN_ALIGN_FAIL = min (s.g R.GUY_CNT_DOWN F.GUY_CNT_DOWN_ALIGN_FAIL + 1) 65535 ∧
      s.sameBut t [R.GUY_STATUS, R.GUY_CNT_DOWN] ∧ s.sameParts t []) ∧
  (∀ (s : State) (l : Fin 4) (b : Bool), s.inReset = false → Answers (exec (.guyLaneLos l b) s) fun t =>
      maskBit (t.g R.GUY_STATUS F.GUY_STATUS_LOS) l = b ∧
      (b = true → maskBit (t.g R.GUY_STATUS F.GUY_STATUS_BLOCK_LOCK) l = false) ∧
      (b = true ∧ (s.guyState = guyAlign ∨ s.guyState = guyUpState)) → t.guyState = guyAcquire ∧
      (b = true → s.guyState = guyAcquire ∨ s.guyState = guyDown → t.guyState = s.guyState)) ∧
  (∀ (s : State) (l : Fin 4) (b : Bool), s.inReset = false → b = true ∨ s.syn.lanes.contains (24 + l.val) = true →
    Answers (exec (.guyLaneLol l b) s) fun t =>
      maskBit (t.g R.GUY_STATUS F.GUY_STATUS_LOL) l = b ∧
      (b = true → maskBit (t.g R.GUY_STATUS F.GUY_STATUS_BLOCK_LOCK) l = false) ∧
      (b = true ∧ (s.guyState = guyAlign ∨ s.guyState = guyUpState)) → t.guyState = guyAcquire) ∧
  (∀ (s : State) (l : Fin 4) (k : Bool), s.inReset = false → Answers (exec (.guyBlockLock l false k) s) fun t =>
      maskBit (t.g R.GUY_STATUS F.GUY_STATUS_BLOCK_LOCK) l = false ∧
      (s.guyState = guyAlign ∨ s.guyState = guyUpState → t.guyState = guyAcquire)) ∧
  (∀ (s : State) (l : Fin 4), s.inReset = false → maskBit (s.g R.GUY_STATUS F.GUY_STATUS_LOS) l = false → maskBit
    (s.g R.GUY_STATUS F.GUY_STATUS_LOL) l = false → Answers (exec (.guyBlockLock l true false) s) fun t =>
      maskBit (t.g R.GUY_STATUS F.GUY_STATUS_BLOCK_LOCK) l = true ∧
      maskBit (t.g R.GUY_STATUS F.GUY_STATUS_POL_INV) l = false ∧
      (s.guyState = guyAcquire → t.guyState = (if t.lanesGood then guyAlign else guyAcquire))) ∧
  (∀ (s : State) (v : Word), s.accepts R.GUY_CTRL → Answers (exec (.guyDisable v) s) fun t =>
      t.guyState = guyDown ∧ t.on R.GUY_CTRL F.GUY_CTRL_EN = false ∧ t.guy.txState = 0 ∧ t.guy.rxState = 0) ∧
  (∀ (s : State) (l : List (BitVec 70 × Nat)), s.inReset = false → s.lanesGood = true → s.guyState = guyUpState →
    l.length = 4 → markersAlign s.rut.pairId l = false → Answers (exec (.guyMarkerRx l) s) fun t =>
      t.guyState = guyAcquire ∧ t.isSet R.GUY_RAW F.GUY_RAW_SKEW_ERR ∧ t.isSet R.GUY_RAW F.GUY_RAW_DOWN ∧
      t.g R.GUY_CNT_DOWN F.GUY_CNT_DOWN_DOWNS = min (s.g R.GUY_CNT_DOWN F.GUY_CNT_DOWN_DOWNS + 1) 65535) ∧
  (∀ (s : State) (l : List (BitVec 70 × Nat)), s.inReset = false → s.lanesGood = true → s.guyState = guyUpState →
    l.length = 4 → markersAlign s.rut.pairId l = true → Answers (exec (.guyMarkerRx l) s) fun t =>
      t.guyState = guyUpState ∧ t.g R.GUY_LANE_MAP F.GUY_LANE_MAP_MAP = laneMap l ∧
      t.guy.mcount = markerCount (l.headD (0#70, 0)).1 ∧ t.guy.last = s.guy.last ∧ t.guy.stream = s.guy.stream ∧
      s.sameBut t [R.GUY_STATUS, R.GUY_SKEW, R.GUY_LANE_MAP] ∧ s.sameParts t [.guy])

/-- R376 to R381 and R395: CLAIM, HEARTBEAT and TIME messages leave while the link is UP, each with its class's next
SEQ; a received TIME message gives the partner's condition, candidate and QL, and with its own message's stamps the
offset; TIME_STALE holds when none comes; a message that fails its check and a row without SYNC are stream errors.
Where the spec is silent it rests on the choices of the model in log entries 3, 28, 29 and 30. -/
def Obligations.GuylineMessages : Prop :=
  (∀ (s : State) , s.inReset = false → s.running = true → s.guyUp = true → s.pairState ≠ pairSolo → Answers (exec
    (.claimMsgTx) s) fun t =>
      s.emits t (.guyRow (beBytes 2 0 ++ padTo 1918 (guyMessage 1 (Tbl.get 0 s.guy.seqs 1) (beBytes 4 (s.reg
        R.RUT_CLAIM).toNat ++ beBytes 4 s.rut.prevClaim)))) ∧
      Tbl.get 0 t.guy.seqs 1 = (Tbl.get 0 s.guy.seqs 1 + 1) % 2 ^ 32 ∧ s.sameBut t [] ∧ s.sameParts t [.guy]) ∧
  (∀ (s : State) , s.inReset = false → s.running = true → s.guyUp = true → s.pairState ≠ pairSolo → Answers (exec
    (.heartbeatTx) s) fun t =>
      s.emits t (.guyRow (beBytes 2 0 ++ padTo 1918 (guyMessage 2 (Tbl.get 0 s.guy.seqs 2) (beBytes 4 (s.reg
        R.RUT_CLAIM).toNat ++ beBytes 2 s.rut.pairId ++ beBytes 1 s.stateByte ++ beBytes 1 (s.rut.rank * 16) ++
        beBytes 8 s.nowTick.toNat)))) ∧
      Tbl.get 0 t.guy.seqs 2 = (Tbl.get 0 s.guy.seqs 2 + 1) % 2 ^ 32 ∧ s.sameBut t [] ∧ s.sameParts t [.guy]) ∧
  (∀ (s : State) (x : StampIn), s.inReset = false → s.running = true → s.guyUp = true → s.on R.GUY_CTRL
    F.GUY_CTRL_TIME_EN = true → s.guy.last = none → Answers (exec (.timeMsgTx x) s) fun t =>
      s.emits t (.guyRow (beBytes 2 0 ++ padTo 1918 (guyMessage 3 (Tbl.get 0 s.guy.seqs 3) (beBytes 8 (tickOf
        (s.guyStamp true x).t).toNat ++ beBytes 8 0 ++ beBytes 1 (s.g R.REF_STATUS F.REF_STATUS_COND * 64 + s.g
        R.REF_STATUS F.REF_STATUS_SEL_CAND) ++ beBytes 1 (s.ownQl * 16) ++ beBytes 4 0 ++ beBytes 1 (s.timeFlags
        (s.guyStamp true x)) ++ beBytes 1 0)))) ∧
      Tbl.get 0 t.guy.seqs 3 = (Tbl.get 0 s.guy.seqs 3 + 1) % 2 ^ 32 ∧
      t.guy.sent.head? = some (Tbl.get 0 s.guy.seqs 3, s.guyStamp true x, s.tsc.breaks) ∧ s.sameBut t [] ∧
      s.sameParts t [.guy]) ∧
  (∀ (s : State) (x : StampIn) (r : Stamp) (q k : Nat), s.inReset = false → s.running = true → s.guyUp = true → s.on
    R.GUY_CTRL F.GUY_CTRL_TIME_EN = true → s.guy.last = some (r, q, k) → Answers (exec (.timeMsgTx x) s) fun t =>
      s.emits t (.guyRow (beBytes 2 0 ++ padTo 1918 (guyMessage 3 (Tbl.get 0 s.guy.seqs 3) (beBytes 8 (tickOf
        (s.guyStamp true x).t).toNat ++ beBytes 8 (tickOf r.t).toNat ++ beBytes 1 (s.g R.REF_STATUS F.REF_STATUS_COND
        * 64 + s.g R.REF_STATUS F.REF_STATUS_SEL_CAND) ++ beBytes 1 (s.ownQl * 16) ++ beBytes 4 q ++ beBytes 1
        (s.timeFlags (s.guyStamp true x)) ++ beBytes 1 0)))) ∧
      Tbl.get 0 t.guy.seqs 3 = (Tbl.get 0 s.guy.seqs 3 + 1) % 2 ^ 32 ∧
      t.guy.sent.head? = some (Tbl.get 0 s.guy.seqs 3, s.guyStamp true x, s.tsc.breaks) ∧ s.sameBut t [] ∧
      s.sameParts t [.guy]) ∧
  (∀ (s : State) (m p : List Byte) (q : Nat) (x : StampIn), s.inReset = false → s.guyUp = true → guyPayload 3 m =
    some (q, p) → s.guy.sent.find? (fun e => e.1 == beAt p 18 4) = none → Answers (exec (.timeMsgRx m x) s) fun t =>
      t.g R.GUY_PARTNER F.GUY_PARTNER_QL = beAt p 17 1 / 16 ∧
      t.g R.GUY_PARTNER F.GUY_PARTNER_COND = beAt p 16 1 / 64 ∧
      t.g R.GUY_PARTNER F.GUY_PARTNER_CAND = beAt p 16 1 % 64 ∧ t.condHolds R.GUY_RAW F.GUY_RAW_TIME_STALE = false ∧
      t.guy.last = some (s.guyStamp false x, q, s.tsc.breaks) ∧ s.sameBut t [R.GUY_PARTNER, R.REF_CANDk_STATUS 28] ∧
      s.sameParts t [.guy, .conds, .ref]) ∧
  (∀ (s : State) (m p : List Byte) (q : Nat) (x : StampIn) (y : Stamp), s.inReset = false → s.guyUp = true →
    guyPayload 3 m = some (q, p) → s.guy.sent.find? (fun e => e.1 == beAt p 18 4) = some (beAt p 18 4, y,
    s.tsc.breaks) → beAt p 22 1 % 16 = 0 → (s.guyStamp false x).coarse = false → y.coarse = false → Answers (exec
    (.timeMsgRx m x) s) fun t =>
      t.pairI R.GUY_OFFSET_LO = sx 64 (enc 64 ((tickDiff (BitVec.ofNat 64 (beAt p 0 8)) (tickOf (s.guyStamp false
        x).t) + tickDiff (BitVec.ofNat 64 (beAt p 8 8)) (tickOf y.t) + 1) / 2)) ∧
      t.g R.GUY_PARTNER F.GUY_PARTNER_QL = beAt p 17 1 / 16 ∧
      t.g R.GUY_PARTNER F.GUY_PARTNER_COND = beAt p 16 1 / 64 ∧
      t.g R.GUY_PARTNER F.GUY_PARTNER_CAND = beAt p 16 1 % 64 ∧ t.condHolds R.GUY_RAW F.GUY_RAW_TIME_STALE = false ∧
      t.guy.last = some (s.guyStamp false x, q, s.tsc.breaks) ∧
      s.sameBut t [R.GUY_OFFSET_LO, R.GUY_OFFSET_HI, R.GUY_PARTNER, R.REF_CANDk_STATUS 28] ∧
      s.sameParts t [.guy, .conds, .ref]) ∧
  (∀ (s : State) , s.inReset = false → s.guyUp = true → Answers (exec (.guyTimeStale) s) fun t =>
      t.condHolds R.GUY_RAW F.GUY_RAW_TIME_STALE = true ∧ t.isSet R.GUY_RAW F.GUY_RAW_TIME_STALE ∧ s.sameBut t [] ∧
      s.sameParts t [.conds]) ∧
  (∀ (s : State) (m : List Byte), s.inReset = false → s.guyUp = true → guyParse m = none → Answers (exec
    (.guyStreamError (.message m)) s) fun t =>
      t.g R.GUY_CNT_ERR F.GUY_CNT_ERR_MSG_BAD = min (s.g R.GUY_CNT_ERR F.GUY_CNT_ERR_MSG_BAD + 1) 65535 ∧
      t.isSet R.GUY_RAW F.GUY_RAW_MSG_BAD ∧ s.sameBut t [R.GUY_CNT_ERR] ∧ s.sameParts t [.guy]) ∧
  (∀ (s : State) (l : List (List Bool)) (b : Nat) (x : StampIn) (k : Fin 4), s.inReset = false → s.guyUp = true →
    (l.map (blockRx dataBits))[k.val]? = some BlockRx.noSync → Answers (exec (.guyStreamError (.row l b x)) s) fun t
    =>
      t.g R.GUY_CNT_ERR F.GUY_CNT_ERR_BLOCK_ERR = min (s.g R.GUY_CNT_ERR F.GUY_CNT_ERR_BLOCK_ERR + 1) 65535 ∧
      t.isSet R.GUY_RAW F.GUY_RAW_MSG_BAD ∧ s.sameBut t [R.GUY_CNT_ERR] ∧ s.sameParts t [.guy])

/-- R388 to R396: a CLAIM message, a HEARTBEAT and two equal claim-wire frames give the partner's claim; a HEARTBEAT
of another pair is ignored; a stale wire is dropped; HIGHER rises in ACTIVE over a lower partner claim and completes
a takeover; a unit in INIT whose partner is ACTIVE enters STANDBY with its EPOCH. Where the spec is silent it rests
on the choices of the model in log entries 3, 28, 29 and 30. -/
def Obligations.PairClaims : Prop :=
  (∀ (s : State) (m p : List Byte) (q : Nat), s.inReset = false → s.guyUp = true → guyPayload 1 m = some (q, p) →
    s.pairState = pairInit → s.rut.beat = none → s.g R.RUT_STATUS F.RUT_STATUS_HIGHER = 0 → s.g R.RUT_STATUS
    F.RUT_STATUS_HB_OK = 1 → s.g R.RUT_STATUS F.RUT_STATUS_WIRE_FRESH = 0 → s.g R.RUT_STATUS F.RUT_STATUS_MIRROR_OVER
    = 0 → Answers (exec (.claimMsgRx m) s) fun t =>
      t.rut.msgClaim = some (beAt p 0 4) ∧ (t.reg R.RUT_PARTNER_CLAIM).toNat = beAt p 0 4 ∧
      s.sameBut t [R.RUT_CLAIM, R.RUT_PARTNER_CLAIM] ∧ s.sameParts t [.rut]) ∧
  (∀ (s : State) (m p : List Byte) (q : Nat), s.inReset = false → s.guyUp = true → guyPayload 2 m = some (q, p) →
    beAt p 4 2 ≠ s.rut.pairId → Answers (exec (.heartbeatRx m) s) fun t =>
      t.rut = s.rut ∧ s.sameBut t [] ∧ s.sameParts t []) ∧
  (∀ (s : State) (m p : List Byte) (q : Nat), s.inReset = false → s.guyUp = true → guyPayload 2 m = some (q, p) →
    s.pairState = pairInit → s.g R.RUT_STATUS F.RUT_STATUS_HIGHER = 0 → beAt p 4 2 = s.rut.pairId → s.rut.sentAt =
    none → beAt p 0 4 % 16 ≠ s.rut.unit → beAt p 6 1 / 32 = pairActive → Answers (exec (.heartbeatRx m) s) fun t =>
      t.g R.RUT_STATUS F.RUT_STATUS_HB_OK = 1 ∧ t.g R.RUT_STATUS F.RUT_STATUS_PARTNER_STATE = pairActive ∧
      t.pairState = pairStandby ∧ t.g R.RUT_STATUS F.RUT_STATUS_READY = 0 ∧ t.rut.epoch = beAt p 0 4 / 256 ∧
      t.rut.msgClaim = some (beAt p 0 4) ∧ t.rut.sentAt = some (BitVec.ofNat 64 (beAt p 8 8)) ∧
      s.sameBut t [R.RUT_STATUS, R.RUT_CLAIM, R.RUT_PARTNER_CLAIM] ∧ s.sameParts t [.rut]) ∧
  (∀ (s : State) (f : BitVec 80) (c : Nat), s.inReset = false → s.on (R.IOP_PINp_STATUS 32) F.IOP_PINp_STATUS_POL_INV
    = false → f.toNat / 2 ^ 64 ≠ 0xD22B → wireClaim s.rut.pairId f = some c → s.rut.wireLast ≠ some c → Answers (exec
    (.claimWireFrame f) s) fun t =>
      t.rut = { s.rut with wireLast := some c } ∧ s.sameBut t [] ∧ s.sameParts t [.rut]) ∧
  (∀ (s : State) (f : BitVec 80) (c : Nat), s.inReset = false → s.on (R.IOP_PINp_STATUS 32) F.IOP_PINp_STATUS_POL_INV
    = false → f.toNat / 2 ^ 64 ≠ 0xD22B → wireClaim s.rut.pairId f = some c → s.rut.wireLast = some c → s.pairState =
    pairInit → s.rut.beat = none → s.g R.RUT_STATUS F.RUT_STATUS_HIGHER = 0 → Answers (exec (.claimWireFrame f) s)
    fun t =>
      t.rut.wire = some c ∧ t.g R.RUT_STATUS F.RUT_STATUS_WIRE_FRESH = 1 ∧
      t.reg R.RUT_PARTNER_CLAIM = BitVec.ofNat 32 (max (if s.hbOk then s.rut.msgClaim.getD 0 else 0) c) ∧
      s.sameBut t [R.RUT_STATUS, R.RUT_CLAIM, R.RUT_PARTNER_CLAIM] ∧ s.sameParts t [.rut]) ∧
  (∀ (s : State) , s.inReset = false → s.pairState = pairInit → s.rut.beat = none → s.g R.RUT_STATUS
    F.RUT_STATUS_HIGHER = 0 → s.g R.RUT_STATUS F.RUT_STATUS_WIRE_FRESH = 1 → Answers (exec (.wireStale) s) fun t =>
      t.g R.RUT_STATUS F.RUT_STATUS_WIRE_FRESH = 0 ∧ t.isSet R.RUT_RAW F.RUT_RAW_WIRE_LOST ∧ t.rut.wireLast = none ∧
      s.sameBut t [R.RUT_STATUS, R.RUT_CLAIM, R.RUT_PARTNER_CLAIM] ∧ s.sameParts t [.rut]) ∧
  (∀ (s : State) , s.inReset = false → s.claimHigh = true → s.g R.RUT_STATUS F.RUT_STATUS_HIGHER = 0 → s.rut.taking =
    false → Answers (exec (.becomeHigher) s) fun t =>
      t.g R.RUT_STATUS F.RUT_STATUS_HIGHER = 1 ∧ t.isSet R.RUT_RAW F.RUT_RAW_BECAME_HIGHER ∧
      s.sameBut t [R.RUT_STATUS] ∧ s.sameParts t []) ∧
  (∀ (s : State) (k : Nat), s.inReset = false → s.claimHigh = true → s.g R.RUT_STATUS F.RUT_STATUS_HIGHER = 0 →
    s.rut.taking = true → s.rut.failAt = some k → Answers (exec (.becomeHigher) s) fun t =>
      t.g R.RUT_STATUS F.RUT_STATUS_HIGHER = 1 ∧ t.isSet R.RUT_RAW F.RUT_RAW_TAKEOVER ∧
      t.g R.RUT_CNT F.RUT_CNT_TAKEOVERS = min (s.g R.RUT_CNT F.RUT_CNT_TAKEOVERS + 1) 255 ∧
      t.reg R.RUT_LAST_SWITCH = BitVec.ofNat 32 (satU 32 ((s.regClk - k) / 250)) ∧
      t.rut = { s.rut with taking := false, failAt := none } ∧
      s.sameBut t [R.RUT_STATUS, R.RUT_CNT, R.RUT_LAST_SWITCH] ∧ s.sameParts t [.rut]) ∧
  (∀ (s : State) (m p : List Byte) (q : Nat), s.inReset = false → s.guyUp = true → guyPayload 1 m = some (q, p) →
    Answers (exec (.claimMsgRx m) s) fun t =>
      t.rut.msgClaim = some (beAt p 0 4) ∧ (t.reg R.RUT_PARTNER_CLAIM).toNat = t.partnerClaim % 2 ^ 32) ∧
  (∀ (s : State) (m p : List Byte) (q : Nat), s.inReset = false → s.guyUp = true → guyPayload 2 m = some (q, p) →
    beAt p 4 2 = s.rut.pairId → s.rut.sentAt.all (fun t => decide (0 < tickDiff (BitVec.ofNat 64 (beAt p 8 8)) t)) =
    true → Answers (exec (.heartbeatRx m) s) fun t =>
      t.g R.RUT_STATUS F.RUT_STATUS_HB_OK = 1 ∧ t.g R.RUT_STATUS F.RUT_STATUS_PARTNER_STATE = beAt p 6 1 / 32 ∧
      t.rut.msgClaim = some (beAt p 0 4) ∧ t.rut.beat = some (beAt p 0 4, beAt p 6 1, beAt p 7 1 / 16) ∧
      t.rut.sentAt = some (BitVec.ofNat 64 (beAt p 8 8)) ∧ t.rut.heard = true ∧
      (t.reg R.RUT_PARTNER_CLAIM).toNat = t.partnerClaim % 2 ^ 32) ∧
  (∀ (s : State) (m p : List Byte) (q : Nat), s.inReset = false → s.guyUp = true → guyPayload 2 m = some (q, p) →
    beAt p 4 2 = s.rut.pairId → s.rut.sentAt.all (fun t => decide (0 < tickDiff (BitVec.ofNat 64 (beAt p 8 8)) t)) =
    false → Answers (exec (.heartbeatRx m) s) fun t =>
      t.rut = s.rut ∧ s.sameBut t [] ∧ s.sameParts t []) ∧
  (∀ (s : State) (f : BitVec 80) (c : Nat), s.inReset = false → s.on (R.IOP_PINp_STATUS 32) F.IOP_PINp_STATUS_POL_INV
    = false → f.toNat / 2 ^ 64 ≠ 0xD22B → wireClaim s.rut.pairId f = some c → s.rut.wireLast = some c → Answers (exec
    (.claimWireFrame f) s) fun t =>
      t.rut.wire = some c ∧ t.g R.RUT_STATUS F.RUT_STATUS_WIRE_FRESH = 1 ∧
      (t.reg R.RUT_PARTNER_CLAIM).toNat = t.partnerClaim % 2 ^ 32) ∧
  (∀ (s : State) (f : BitVec 80) (c : Nat), s.inReset = false → s.on (R.IOP_PINp_STATUS 32) F.IOP_PINp_STATUS_POL_INV
    = true → (~~~f).toNat / 2 ^ 64 ≠ 0xD22B → wireClaim s.rut.pairId (~~~f) = some c → s.rut.wireLast = some c →
    Answers (exec (.claimWireFrame f) s) fun t =>
      t.rut.wire = some c ∧ t.g R.RUT_STATUS F.RUT_STATUS_WIRE_FRESH = 1 ∧
      (t.reg R.RUT_PARTNER_CLAIM).toNat = t.partnerClaim % 2 ^ 32) ∧
  (∀ (s : State) (f : BitVec 80), s.inReset = false → s.on (R.IOP_PINp_STATUS 32) F.IOP_PINp_STATUS_POL_INV = false →
    f.toNat / 2 ^ 64 ≠ 0xD22B → wireClaim s.rut.pairId f = none → Answers (exec (.claimWireFrame f) s) fun t =>
      t.rut = { s.rut with wireLast := none } ∧ s.sameBut t [] ∧ s.sameParts t [.rut]) ∧
  (∀ (s : State) , s.inReset = false → s.g R.RUT_STATUS F.RUT_STATUS_WIRE_FRESH = 1 → Answers (exec (.wireStale) s)
    fun t =>
      t.g R.RUT_STATUS F.RUT_STATUS_WIRE_FRESH = 0 ∧ t.isSet R.RUT_RAW F.RUT_RAW_WIRE_LOST ∧ t.rut.wireLast = none ∧
      (t.reg R.RUT_PARTNER_CLAIM).toNat = t.partnerClaim % 2 ^ 32) ∧
  (∀ (s : State) , s.inReset = false → s.claimHigh = true → s.g R.RUT_STATUS F.RUT_STATUS_HIGHER = 0 → s.rut.taking =
    true → s.rut.failAt = none → Answers (exec (.becomeHigher) s) fun t =>
      t.g R.RUT_STATUS F.RUT_STATUS_HIGHER = 1 ∧ t.isSet R.RUT_RAW F.RUT_RAW_TAKEOVER ∧
      t.g R.RUT_CNT F.RUT_CNT_TAKEOVERS = min (s.g R.RUT_CNT F.RUT_CNT_TAKEOVERS + 1) 255 ∧
      t.rut = { s.rut with taking := false, failAt := none } ∧
      s.sameBut t [R.RUT_STATUS, R.RUT_CNT, R.RUT_LAST_SWITCH] ∧ s.sameParts t [.rut, .free]) ∧
  (∀ (s : State) , s.inReset = false → s.claimHigh = false → Answers (exec (.becomeHigher) s) fun t =>
      t.rut = s.rut ∧ s.sameBut t [] ∧ s.sameParts t [])

/-- R389, R396, R397, R399 and R406: PAIR_EN takes SOLO to INIT with EPOCH 0 and starts the wire; PAIR_EN 0 takes any
state to SOLO with HIGHER 1 and the wire low; a heartbeat failure is counted and takes STANDBY to ACTIVE with a
raised EPOCH; INIT_WAIT takes INIT to ACTIVE; HANDOVER is held for a ready STANDBY partner, else refused; RELEASE
takes HELD to STANDBY. Where the spec is silent it rests on the choices of the model in log entries 3, 28, 29 and 30.
-/
def Obligations.PairStates : Prop :=
  (∀ (s : State) (v : Word), s.accepts R.RUT_CTRL → s.pairState = pairSolo → s.rut.beat = none ∨ s.hbOk = false → (∀
    f ∈ s.fwd.frames, f.port < 25 ∧ f.prio < 8) → s.fwd.stalled = [] → Answers (exec (.pairEnable v) s) fun t =>
      t.pairState = pairInit ∧ t.g R.RUT_STATUS F.RUT_STATUS_HIGHER = 0 ∧
      t.g R.RUT_STATUS F.RUT_STATUS_WIRE_FRESH = 0 ∧ t.rut.epoch = 0 ∧
      t.rut.pairId = s.g R.RUT_PAIR F.RUT_PAIR_PAIR_ID ∧ t.rut.unit = t.g R.RUT_CTRL F.RUT_CTRL_UNIT_ID ∧
      s.emits t (.wire (wireFrame t.rut.pairId t.ownClaim)) ∧
      s.sameBeyond t [(0x200000, 0x280000), (0x280000, 0x300000), (0xA00000, 0xB00000), (R.RUT_CTRL, R.RUT_CTRL + 4),
        (R.RUT_STATUS, R.RUT_STATUS + 4), (R.RUT_CLAIM, R.RUT_CLAIM + 8), (R.HIF_CFG_CRC_STATUS, R.HIF_CFG_CRC_STATUS
        + 4)] ∧
      s.sameParts t [.rut, .fwd]) ∧
  (∀ (s : State) (v : Word), s.accepts R.RUT_CTRL → s.pairState ≠ pairSolo → Answers (exec (.pairDisable v) s) fun t
    =>
      t.pairState = pairSolo ∧ t.g R.RUT_STATUS F.RUT_STATUS_HIGHER = 1 ∧
      t.g R.RUT_STATUS F.RUT_STATUS_HANDOVER_PENDING = 0 ∧ s.emits t (.wire 0#80) ∧ t.rut.taking = false ∧
      t.rut.applying = false ∧ t.rut.batch = none ∧
      s.sameBut t [R.RUT_CTRL, R.RUT_STATUS, R.RUT_CLAIM, R.RUT_PARTNER_CLAIM, R.HIF_CFG_CRC_STATUS] ∧
      s.sameParts t [.rut]) ∧
  (∀ (s : State) , s.inReset = false → s.hbOk = true → s.rut.mirror = none → s.rut.ckpt = none → s.g R.RUT_STATUS
    F.RUT_STATUS_HIGHER = 0 → s.pairState = pairInit → Answers (exec (.heartbeatTimeout) s) fun t =>
      t.g R.RUT_STATUS F.RUT_STATUS_HB_OK = 0 ∧ t.isSet R.RUT_RAW F.RUT_RAW_HB_FAIL ∧
      t.g R.RUT_CNT F.RUT_CNT_HB_FAILS = min (s.g R.RUT_CNT F.RUT_CNT_HB_FAILS + 1) 255 ∧ t.rut.sentAt = none ∧
      (s.hif.fq.length < 32 → ∃ f ∈ t.hif.fq, f.block = 15 ∧ f.code = 1 ∧ f.detail = s.pairState) ∧
      t.pairState = pairInit ∧ s.sameBut t [R.RUT_STATUS, R.RUT_CLAIM, R.RUT_PARTNER_CLAIM, R.RUT_CNT] ∧
      s.sameParts t [.rut]) ∧
  (∀ (s : State) , s.inReset = false → s.hbOk = true → s.rut.mirror = none → s.rut.ckpt = none → s.g R.RUT_STATUS
    F.RUT_STATUS_HIGHER = 0 → s.pairState = pairStandby → s.rut.batch = none → s.g R.RUT_STATUS F.RUT_STATUS_READY =
    1 → s.rut.mode = 0 → Answers (exec (.heartbeatTimeout) s) fun t =>
      t.g R.RUT_STATUS F.RUT_STATUS_HB_OK = 0 ∧ t.isSet R.RUT_RAW F.RUT_RAW_HB_FAIL ∧
      t.g R.RUT_CNT F.RUT_CNT_HB_FAILS = min (s.g R.RUT_CNT F.RUT_CNT_HB_FAILS + 1) 255 ∧ t.rut.sentAt = none ∧
      (s.hif.fq.length < 32 → ∃ f ∈ t.hif.fq, f.block = 15 ∧ f.code = 1 ∧ f.detail = s.pairState) ∧
      t.pairState = pairActive ∧ t.rut.epoch = s.raisedEpoch ∧ t.rut.taking = true ∧ t.rut.failAt = some s.regClk ∧
      s.sameBut t [R.RUT_STATUS, R.RUT_CLAIM, R.RUT_PARTNER_CLAIM, R.RUT_CNT] ∧ s.sameParts t [.rut]) ∧
  (∀ (s : State) , s.inReset = false → s.pairState = pairInit → s.rut.heard = false → s.rut.conflict = false → s.g
    R.RUT_STATUS F.RUT_STATUS_WIRE_FRESH = 0 → s.g R.RUT_STATUS F.RUT_STATUS_HIGHER = 0 → s.rut.mode = 0 → Answers
    (exec (.initWaitExpiry) s) fun t =>
      t.pairState = pairActive ∧ t.rut.epoch = s.raisedEpoch ∧ t.rut.taking = true ∧
      s.sameBut t [R.RUT_STATUS, R.RUT_CLAIM, R.RUT_PARTNER_CLAIM] ∧ s.sameParts t [.rut]) ∧
  (∀ (s : State) (v : Word) (c b r : Nat), s.accepts R.RUT_CMD → F.RUT_CMD_RELEASE.get v = 0 → s.pairState =
    pairActive → s.hbOk = true → s.rut.beat = some (c, b, r) → b / 32 = pairStandby → maskBit b 4 = true → Answers
    (exec (.handover v) s) fun t =>
      t.g R.RUT_STATUS F.RUT_STATUS_HANDOVER_PENDING = 1 ∧ s.sameBut t [R.RUT_STATUS] ∧ s.sameParts t []) ∧
  (∀ (s : State) (v : Word), s.accepts R.RUT_CMD → F.RUT_CMD_RELEASE.get v = 0 → s.pairState = pairActive → s.hbOk =
    false → Answers (exec (.handover v) s) fun t =>
      t.isSet R.RUT_RAW F.RUT_RAW_HANDOVER_REFUSED ∧
      (s.hif.fq.length < 32 → ∃ f ∈ t.hif.fq, f.block = 15 ∧ f.code = 3 ∧ f.detail = 0) ∧ s.sameBut t [] ∧
      s.sameParts t []) ∧
  (∀ (s : State) (v : Word), s.accepts R.RUT_CMD → F.RUT_CMD_HANDOVER.get v = 0 → s.pairState = pairHeld → s.rut.beat
    = none → s.g R.RUT_STATUS F.RUT_STATUS_HIGHER = 0 → Answers (exec (.release v) s) fun t =>
      t.pairState = pairStandby ∧ t.g R.RUT_STATUS F.RUT_STATUS_READY = 0 ∧ t.rut.epoch = s.rut.epoch ∧
      s.sameBut t [R.RUT_STATUS, R.RUT_CLAIM, R.RUT_PARTNER_CLAIM] ∧ s.sameParts t [.rut]) ∧
  (∀ (s : State) , s.inReset = false → s.hbOk = true → Answers (exec (.heartbeatTimeout) s) fun t =>
      t.g R.RUT_STATUS F.RUT_STATUS_HB_OK = 0 ∧ t.isSet R.RUT_RAW F.RUT_RAW_HB_FAIL ∧
      t.g R.RUT_CNT F.RUT_CNT_HB_FAILS = min (s.g R.RUT_CNT F.RUT_CNT_HB_FAILS + 1) 255 ∧ t.rut.sentAt = none ∧
      t.rut.mirror = none ∧ t.rut.ckpt = none ∧
      (s.pairState = pairStandby → t.pairState = pairActive ∧ t.rut.taking = true ∧ t.rut.failAt = some s.regClk) ∧
      (s.pairState = pairActive → t.pairState = pairActive ∧ t.rut.epoch = min (s.rut.epoch + 1) 0xFFFFFF) ∧
      (s.pairState ≠ pairStandby → t.pairState = s.pairState)) ∧
  (∀ (s : State) , s.inReset = false → s.pairState = pairInit → s.rut.heard = false → s.rut.conflict = false → s.g
    R.RUT_STATUS F.RUT_STATUS_WIRE_FRESH = 0 ∨ s.rut.wire.getD 0 / 16 % 16 = 0 → Answers (exec (.initWaitExpiry) s)
    fun t =>
      t.pairState = pairActive ∧ t.rut.taking = true ∧ t.rut.byScan = false) ∧
  (∀ (s : State) , s.inReset = false → s.pairState = pairInit → s.rut.heard = false → s.rut.conflict = false → s.g
    R.RUT_STATUS F.RUT_STATUS_WIRE_FRESH = 1 → s.rut.wire.getD 0 / 16 % 16 ≠ 0 → s.g R.RUT_STATUS F.RUT_STATUS_HIGHER
    = 0 → Answers (exec (.initWaitExpiry) s) fun t =>
      t.pairState = pairStandby ∧ t.g R.RUT_STATUS F.RUT_STATUS_READY = 0 ∧
      s.sameBut t [R.RUT_STATUS, R.RUT_CLAIM, R.RUT_PARTNER_CLAIM] ∧ s.sameParts t [.rut]) ∧
  (∀ (s : State) (v : Word), s.accepts R.RUT_CMD → F.RUT_CMD_RELEASE.get v = 0 → s.pairState ≠ pairActive → Answers
    (exec (.handover v) s) fun t =>
      t.pairState = s.pairState ∧ s.sameBut t [] ∧ s.sameParts t []) ∧
  (∀ (s : State) (v : Word), s.accepts R.RUT_CMD → F.RUT_CMD_RELEASE.get v = 0 → s.pairState = pairActive → s.canHand
    = false → Answers (exec (.handover v) s) fun t =>
      t.isSet R.RUT_RAW F.RUT_RAW_HANDOVER_REFUSED ∧
      (s.hif.fq.length < 32 → ∃ f ∈ t.hif.fq, f.block = 15 ∧ f.code = 3 ∧ f.detail = 0) ∧ s.sameBut t [] ∧
      s.sameParts t []) ∧
  (∀ (s : State) (v : Word), s.accepts R.RUT_CMD → F.RUT_CMD_HANDOVER.get v = 0 → s.pairState = pairHeld → Answers
    (exec (.release v) s) fun t =>
      t.pairState = pairStandby ∧ t.g R.RUT_STATUS F.RUT_STATUS_READY = 0 ∧ t.rut.epoch = s.rut.epoch)

/-- R398 and R402 to R406: MIRROR and CKPT messages go to their place in DRAM and are counted; a COMMIT that matches
completes its copy and sets READY, one that does not discards it; a completed batch is applied without a phase step;
the active sends batches and checkpoints under new identities; after a takeover's checkpoint is applied the claim is
raised. Where the spec is silent it rests on the choices of the model in log entries 3, 28, 29 and 30. -/
def Obligations.PairCopies : Prop :=
  (∀ (s : State) (m p : List Byte) (q : Nat) (c : CopyRx), s.inReset = false → s.guyUp = true → guyPayload 5 m = some
    (q, p) → s.takesCopies = true → s.rut.mirror = some c → c.ident = beAt p 0 4 → beAt p 4 4 + (p.drop 8).length ≤
    0x80000 → s.rut.batch = none → Answers (exec (.mirrorMsgRx m) s) fun t =>
      t.rut = { s.rut with mirror := some (c.add p (beAt p 4 4 + (p.drop 8).length)) } ∧
      (∀ i : Nat, i < (p.drop 8).length → t.dramByte (s.ckptBase + stagingOffset c.slot + (beAt p 4 4) + i) = (p.drop
        8).getD i 0) ∧
      (∀ a : Nat, ¬ (s.ckptBase + stagingOffset c.slot + (beAt p 4 4) ≤ a ∧ a < s.ckptBase + stagingOffset c.slot +
        (beAt p 4 4) + (p.drop 8).length) → t.dramByte a = s.dramByte a) ∧
      s.sameBut t [] ∧ s.sameParts t [.rut]) ∧
  (∀ (s : State) (m p : List Byte) (q : Nat) (c : CopyRx), s.inReset = false → s.guyUp = true → guyPayload 6 m = some
    (q, p) → s.takesCopies = true → s.rut.ckpt = some c → c.ident = beAt p 0 4 → beAt p 4 4 < 0x800000 → beAt p 4 4 %
    0x400000 + (p.drop 8).length ≤ 0x400000 → s.rut.valid ≠ some c.slot → Answers (exec (.ckptMsgRx m) s) fun t =>
      t.rut = { s.rut with ckpt := some (c.add p (beAt p 4 4 % 0x400000 + (p.drop 8).length)) } ∧
      (∀ i : Nat, i < (p.drop 8).length → t.dramByte (s.ckptBase + (beAt p 4 4) + i) = (p.drop 8).getD i 0) ∧
      (∀ a : Nat, ¬ (s.ckptBase + (beAt p 4 4) ≤ a ∧ a < s.ckptBase + (beAt p 4 4) + (p.drop 8).length) → t.dramByte
        a = s.dramByte a) ∧
      s.sameBut t [] ∧ s.sameParts t [.rut]) ∧
  (∀ (s : State) (m p : List Byte) (q : Nat) (c : CopyRx), s.inReset = false → s.guyUp = true → guyPayload 5 m = some
    (q, p) → s.takesCopies = true → s.rut.mirror.all (fun x => decide (x.ident ≠ beAt p 0 4)) = true → c = (⟨beAt p 0
    4, (if s.rut.applied = some 0 then 1 else 0), 0, 0, 0xFFFFFFFF, 0⟩ : CopyRx) → beAt p 4 4 + (p.drop 8).length ≤
    0x80000 → Answers (exec (.mirrorMsgRx m) s) fun t =>
      (t.rut =
        { s.rut with mirror := some (c.add p (beAt p 4 4 + (p.drop 8).length)), batch := (match s.rut.batch with | some (i, k, e) => if k = c.slot then none else some (i, k, e) | none => none) })
        ∧
      (∀ i : Nat, i < (p.drop 8).length → t.dramByte (s.ckptBase + stagingOffset c.slot + (beAt p 4 4) + i) = (p.drop
        8).getD i 0) ∧
      (∀ a : Nat, ¬ (s.ckptBase + stagingOffset c.slot + (beAt p 4 4) ≤ a ∧ a < s.ckptBase + stagingOffset c.slot +
        (beAt p 4 4) + (p.drop 8).length) → t.dramByte a = s.dramByte a) ∧
      s.sameBut t [] ∧ s.sameParts t [.rut]) ∧
  (∀ (s : State) (m p : List Byte) (q : Nat) (c : CopyRx), s.inReset = false → s.guyUp = true → guyPayload 6 m = some
    (q, p) → s.takesCopies = true → s.rut.ckpt.all (fun x => decide (x.ident ≠ beAt p 0 4)) = true → c = (⟨beAt p 0
    4, (beAt p 4 4 / 0x400000), 0, 0, 0xFFFFFFFF, 0⟩ : CopyRx) → beAt p 4 4 < 0x800000 → beAt p 4 4 % 0x400000 +
    (p.drop 8).length ≤ 0x400000 → Answers (exec (.ckptMsgRx m) s) fun t =>
      (t.rut =
        { s.rut with ckpt := some (c.add p (beAt p 4 4 % 0x400000 + (p.drop 8).length)), valid := if s.rut.valid = some c.slot then none else s.rut.valid })
        ∧
      (∀ i : Nat, i < (p.drop 8).length → t.dramByte (s.ckptBase + (beAt p 4 4) + i) = (p.drop 8).getD i 0) ∧
      (∀ a : Nat, ¬ (s.ckptBase + (beAt p 4 4) ≤ a ∧ a < s.ckptBase + (beAt p 4 4) + (p.drop 8).length) → t.dramByte
        a = s.dramByte a) ∧
      s.sameBut t [] ∧ s.sameParts t [.rut]) ∧
  (∀ (s : State) (m p : List Byte) (q : Nat) (c : CopyRx), s.inReset = false → s.guyUp = true → guyPayload 4 m = some
    (q, p) → s.takesCopies = true → beAt p 4 1 = 0 → s.rut.mirror = some c → commitMatches p (some c) = true →
    Answers (exec (.commitRx m) s) fun t =>
      t.rut = { s.rut with mirror := none, batch := some (c.ident, c.slot, c.extent) } ∧
      t.g R.RUT_STATUS F.RUT_STATUS_READY = 1 ∧ s.sameBut t [R.RUT_STATUS] ∧ s.sameParts t [.rut]) ∧
  (∀ (s : State) (m p : List Byte) (q : Nat), s.inReset = false → s.guyUp = true → guyPayload 4 m = some (q, p) →
    s.takesCopies = true → beAt p 4 1 = 0 → commitMatches p s.rut.mirror = false → Answers (exec (.commitRx m) s) fun
    t =>
      t.rut = { s.rut with mirror := none } ∧
      t.g R.RUT_CNT F.RUT_CNT_DISCARDS = min (s.g R.RUT_CNT F.RUT_CNT_DISCARDS + 1) 65535 ∧
      t.isSet R.RUT_RAW F.RUT_RAW_BATCH_DISCARD ∧ s.sameBut t [R.RUT_CNT] ∧ s.sameParts t [.rut]) ∧
  (∀ (s : State) (m p : List Byte) (q : Nat) (c : CopyRx), s.inReset = false → s.guyUp = true → guyPayload 4 m = some
    (q, p) → s.takesCopies = true → beAt p 4 1 = 1 → s.rut.ckpt = some c → commitMatches p (some c) = true → Answers
    (exec (.commitRx m) s) fun t =>
      t.rut = { s.rut with ckpt := none, valid := some c.slot } ∧ t.g R.RUT_STATUS F.RUT_STATUS_READY = 1 ∧
      t.reg R.RUT_APPLIED = BitVec.ofNat 32 c.ident ∧ s.sameBut t [R.RUT_STATUS, R.RUT_APPLIED] ∧
      s.sameParts t [.rut]) ∧
  (∀ (s : State) (m p : List Byte) (q : Nat), s.inReset = false → s.guyUp = true → guyPayload 4 m = some (q, p) →
    s.takesCopies = true → beAt p 4 1 = 1 → commitMatches p s.rut.ckpt = false → Answers (exec (.commitRx m) s) fun t
    =>
      t.rut = { s.rut with ckpt := none } ∧
      t.g R.RUT_CNT F.RUT_CNT_DISCARDS = min (s.g R.RUT_CNT F.RUT_CNT_DISCARDS + 1) 65535 ∧
      t.isSet R.RUT_RAW F.RUT_RAW_CKPT_DISCARD ∧ s.sameBut t [R.RUT_CNT] ∧ s.sameParts t [.rut]) ∧
  (∀ (s : State) (i k e : Nat) (l : List Byte), s.inReset = false → s.takesCopies = true → s.rut.batch = some (i, k,
    e) → s.dramRead (s.ckptBase + stagingOffset k) 256 = l → Answers (exec (.batchApply) s) fun t =>
      t.reg R.RUT_APPLIED = BitVec.ofNat 32 i ∧ t.rut = { s.rut with batch := none, applied := some k } ∧
      t.pair R.TSC_OFFSET_ACC_LO = leAt l 0 8 ∧ t.ptp.integ = bitsDbl (leAt l 8 8) ∧
      (t.reg R.HLD_A1).toNat = leAt l 24 4 ∧ (t.reg R.HLD_AGE_S).toNat = leAt l 32 4 ∧ t.tsc.voted = s.tsc.voted ∧
      s.sameBeyond t [(R.HLD_STATUS, R.HLD_STATUS + 4), (R.HLD_F_LO, R.HLD_A1 + 12), (R.HLD_TTABb 0, R.HLD_TTABb 32),
        (R.TSC_OFFSET_ACC_LO, R.TSC_OFFSET_ACC_LO + 8), (0xA00000, 0xB00000), (0x30000, 0x38000), (R.RUT_APPLIED,
        R.RUT_APPLIED + 4)] ∧
      s.sameParts t [.tsc, .rut, .ptp, .hld, .fwd, .ref, .conds]) ∧
  (∀ (s : State) (i k c : Nat), s.inReset = false → s.takesCopies = true → s.rut.batch = some (i, k, 288) → c = leAt
    (s.dramRead (s.ckptBase + stagingOffset k + 256) 32) 0 2 % 16384 → Answers (exec (.batchApply) s) fun t =>
      t.reg R.RUT_APPLIED = BitVec.ofNat 32 i ∧
      (∀ j : Fin 6, (t.reg (ctxAddr c + 32 + 4 * j)).toNat = leAt (s.dramRead (s.ckptBase + stagingOffset k + 256)
        32) (4 + 4 * j) 4)) ∧
  (∀ (s : State) (n : Nat), s.inReset = false → s.running = true → s.guyUp = true → s.pairState = pairActive →
    s.rut.mode = 0 → (s.accrueAll.timeRecord ++ ((s.accrueAll.validContexts.take 4096).map
    s.accrueAll.ctxRecord).flatten).length = n → Answers (exec (.mirrorBatchStart) s) fun t =>
      t.rut = { s.rut with txMirror := (s.rut.txMirror + 1) % 2 ^ 32 } ∧
      Tbl.get 0 t.guy.seqs 5 = (Tbl.get 0 s.guy.seqs 5 + (n + 4087) / 4088) % 2 ^ 32 ∧
      Tbl.get 0 t.guy.seqs 4 = (Tbl.get 0 s.guy.seqs 4 + 1) % 2 ^ 32 ∧ (∃ r, s.emits t (.guyRow r)) ∧
      s.sameBeyond t [(0xA00000, 0xB00000), (R.RUT_STATUS, R.RUT_STATUS + 4)] ∧
      s.sameParts t [.rut, .guy, .fwd, .conds]) ∧
  (∀ (s : State) , s.inReset = false → s.running = true → s.guyUp = true → s.pairState = pairActive → s.rut.mode = 0
    → s.validContexts = [] → Answers (exec (.mirrorBatchStart) s) fun t =>
      t.rut = { s.rut with txMirror := (s.rut.txMirror + 1) % 2 ^ 32 } ∧
      s.emits t (.guyRow (beBytes 2 0 ++ padTo 1918 (guyMessage 5 (Tbl.get 0 s.guy.seqs 5) (beBytes 4
        ((s.rut.txMirror + 1) % 2 ^ 32) ++ beBytes 4 0 ++ s.timeRecord) ++ guyMessage 4 (Tbl.get 0 s.guy.seqs 4)
        (beBytes 4 ((s.rut.txMirror + 1) % 2 ^ 32) ++ beBytes 4 0 ++ beBytes 4 1 ++ beBytes 4 (beBytes 4
        ((s.rut.txMirror + 1) % 2 ^ 32) ++ beBytes 4 0 ++ s.timeRecord).length ++ beBytes 4 (crc32c (beBytes 4
        ((s.rut.txMirror + 1) % 2 ^ 32) ++ beBytes 4 0 ++ s.timeRecord)))))) ∧
      Tbl.get 0 t.guy.seqs 5 = (Tbl.get 0 s.guy.seqs 5 + 1) % 2 ^ 32 ∧
      Tbl.get 0 t.guy.seqs 4 = (Tbl.get 0 s.guy.seqs 4 + 1) % 2 ^ 32 ∧
      t.g R.RUT_STATUS F.RUT_STATUS_MIRROR_OVER = s.g R.RUT_STATUS F.RUT_STATUS_MIRROR_OVER ∧ s.sameBut t [] ∧
      s.sameParts t [.rut, .guy, .conds]) ∧
  (∀ (s : State) , s.inReset = false → s.running = true → s.guyUp = true → s.pairState = pairActive → s.rut.mode = 1
    → Answers (exec (.checkpointStart) s) fun t =>
      t.rut = { s.rut with txCkpt := (s.rut.txCkpt + 1) % 2 ^ 32, txSlot := 1 - s.rut.txSlot } ∧
      Tbl.get 0 t.guy.seqs 4 = (Tbl.get 0 s.guy.seqs 4 + 1) % 2 ^ 32 ∧ (∃ r, s.emits t (.guyRow r)) ∧
      s.sameBeyond t [(0xA00000, 0xB00000)] ∧ s.sameParts t [.rut, .guy, .fwd]) ∧
  (∀ (s : State) (k : Nat), s.inReset = false → s.pairState = pairActive → s.rut.applying = true → s.rut.valid = some
    k → s.rut.beat = none ∨ s.hbOk = false → s.g R.RUT_STATUS F.RUT_STATUS_HIGHER = 0 → Answers (exec
    (.checkpointApplyDone) s) fun t =>
      t.rut.applying = false ∧ t.rut.epoch = s.rut.next ∧
      t.pair R.TSC_OFFSET_ACC_LO = leAt (s.dramRead (s.ckptBase + k * 0x400000 + 0x40) 256) 0 8 ∧
      s.sameBeyond t [(0x30000, 0x38000), (0x100000, 0x200000), (0x800000, 0xB00000), (0x38000, 0x40000),
        (R.TSC_OFFSET_ACC_LO, R.TSC_OFFSET_ACC_LO + 8), (R.RUT_CLAIM, R.RUT_CLAIM + 8)] ∧
      s.sameParts t [.tsc, .rut, .ptp, .fwd, .hld, .conds, .ref, .free])

/-- R440 and R444 to R447: SNAP copies every counter with its time and sequence number; CLEAR sets every counter and
overflow bit to 0; FREEZE stops counting; a changed select clears its counter and overflow bit; a counter at all ones
wraps to 0 and sets its overflow bit. R23 and R448: a write over F1 to the counter window is discarded and counted in
DENIED; one to the status window is discarded and counted as narrow or illegal, with its address recorded. Where the
spec is silent it rests on the choices of the model in log entries 3, 32 and 33. -/
def Obligations.CountersAndUserFunctions : Prop :=
  (∀ (s : State) (v : Word), s.accepts R.PMC_SNAP → F.PMC_SNAP_CLEAR.get v = 0 → Answers (exec (.pmcSnap v) s) fun t
    =>
      (∀ g : Fin 3, ∀ j : Fin 9, t.pair (pmcAddr g j + 0x400) = s.pair (pmcAddr g j) ∧ t.pair (pmcAddr g j) = s.pair
        (pmcAddr g j)) ∧
      t.reg R.PMC_SNAP_SEQ = s.reg R.PMC_SNAP_SEQ + 1 ∧ t.pair R.PMC_SNAP_TIME_LO = s.nowTick.toNat ∧
      t.isSet R.PMC_RAW F.PMC_RAW_SNAP_DONE ∧
      s.sameBeyond t [(0x80400, 0x80700), (R.PMC_SNAP_SEQ, R.PMC_SNAP_SEQ + 4), (R.PMC_SNAP_TIME_LO,
        R.PMC_SNAP_TIME_LO + 8)] ∧
      s.sameParts t []) ∧
  (∀ (s : State) (v : Word), s.accepts R.PMC_SNAP → F.PMC_SNAP_SNAP.get v = 0 → Answers (exec (.pmcClear v) s) fun t
    =>
      (∀ g : Fin 3, ∀ j : Fin 9, t.pair (pmcAddr g j) = 0) ∧ t.reg R.PMC_OVF = 0 ∧ s.sameBut t [] ∧ s.sameParts t []) ∧
  (∀ (s : State) (v : Word), s.accepts R.PMC_CTRL → Answers (exec (.pmcFreeze v) s) fun t =>
      t.g R.PMC_CTRL F.PMC_CTRL_FREEZE = F.PMC_CTRL_FREEZE.get v ∧
      (F.PMC_CTRL_FREEZE.get v = 1 → t.pmcCounts = false) ∧ s.sameBut t [R.PMC_CTRL, R.HIF_CFG_CRC_STATUS] ∧
      s.sameParts t []) ∧
  (∀ (s : State) (g : Fin 3) (k : Fin 8) (v : Word), s.accepts (R.PMC_Gg_SELk g k) → s.formWord (R.PMC_Gg_SELk g k) v
    ≠ s.reg (R.PMC_Gg_SELk g k) → Answers (exec (.pmcSelectChange g k v) s) fun t =>
      t.reg (R.PMC_Gg_SELk g k) = s.formWord (R.PMC_Gg_SELk g k) v ∧ t.pair (pmcAddr g (k + 1)) = 0 ∧
      maskBit (t.reg R.PMC_OVF).toNat (9 * g + k + 1) = false ∧
      s.sameBut t [(R.PMC_Gg_SELk g k), R.HIF_CFG_CRC_STATUS] ∧ s.sameParts t []) ∧
  (∀ (s : State) (g : Fin 3) (j : Fin 9), s.inReset = false → s.pmcCounts = true → s.pair (pmcAddr g j) = 2 ^ 48 - 1
    → Answers (exec (.pmcCounterWrap g j) s) fun t =>
      t.pair (pmcAddr g j) = 0 ∧ maskBit (t.reg R.PMC_OVF).toNat (9 * g + j) = true ∧ s.sameBut t [] ∧
      s.sameParts t []) ∧
  (∀ (s : State) (k : Fin 32768) (v : Word), s.inReset = false → s.runs .register = true → s.hif.dead.contains
    .register = false → s.hif.held.any (fun y => decide (y.src = .f1)) = false → Answers (exec (.pmcUserWriteDenied k
    v) s) fun t =>
      t.g R.PMC_USER_EN F.PMC_USER_EN_DENIED = min (s.g R.PMC_USER_EN F.PMC_USER_EN_DENIED + 1) 65535 ∧
      s.sameBut t [R.PMC_USER_EN] ∧ s.sameParts t []) ∧
  (∀ (s : State) (k : Fin 256) (v : Word), s.inReset = false → s.runs .register = true → s.hif.dead.contains
    .register = false → s.hif.held.any (fun y => decide (y.src = .f1)) = false → Answers (exec (.f1StatusWrite k v)
    s) fun t =>
      t.g R.HIF_ACCESS_FAULT F.HIF_ACCESS_FAULT_NARROW_WR = min (s.g R.HIF_ACCESS_FAULT F.HIF_ACCESS_FAULT_NARROW_WR
        + 1) 255 ∧
      t.g R.HIF_ACCESS_ADDR F.HIF_ACCESS_ADDR_ADDR = 0x8000 + k.val / 4 * 4 ∧
      s.sameBut t [R.HIF_ACCESS_FAULT, R.HIF_ACCESS_ADDR] ∧ s.sameParts t [])

/-- R488 to R492: a fault that is judged on a pin sets its status bit and, unmasked, its event and a fault record,
and counts in FAULTS; a short of an output releases it with SHORT_OFF; a fault that has gone clears its bit; a
reversed pin is inverted with POL_AUTO, and a reference input's candidate starts anew; a retest that finds the short
gone drives the output again. Where the spec is silent it rests on the choices of the model in log entries 3, 32 and
33. -/
def Obligations.PinProtection : Prop :=
  (∀ (s : State) (p : Fin 36) (f : PinFault), s.inReset = false → s.diag = true → s.pinJudged p f = true → s.g
    (R.IOP_PINp_STATUS p) (pinFaultBits f).1 = 0 → s.g (R.IOP_PINp_CFG p) F.IOP_PINp_CFG_MASK = 0 → Answers (exec
    (.pinFaultDeclare p f) s) fun t =>
      t.isSet (R.IOP_PINp_STATUS p) (pinFaultBits f).1 ∧ t.isSet R.IOP_RAW (pinFaultBits f).2 ∧
      t.g R.IOP_STATUS F.IOP_STATUS_FAULTS = ((List.range 36).filter (fun p => !t.on (R.IOP_PINp_CFG p)
        F.IOP_PINp_CFG_MASK && decide ((t.reg (R.IOP_PINp_STATUS p)).toNat % 256 ≠ 0))).length ∧
      (s.hif.fq.length < 32 → ∃ r ∈ t.hif.fq, r.block = 16 ∧ r.code = 1 ∧ r.detail = p.val) ∧
      s.sameBut t [R.IOP_PINp_STATUS p, R.IOP_STATUS] ∧ s.sameParts t []) ∧
  (∀ (s : State) (p : Fin 36) (f : PinFault), s.inReset = false → s.diag = true → s.pinJudged p f = true → s.g
    (R.IOP_PINp_STATUS p) (pinFaultBits f).1 = 0 → s.g (R.IOP_PINp_CFG p) F.IOP_PINp_CFG_MASK = 1 → Answers (exec
    (.pinFaultDeclare p f) s) fun t =>
      t.isSet (R.IOP_PINp_STATUS p) (pinFaultBits f).1 ∧
      t.g R.IOP_STATUS F.IOP_STATUS_FAULTS = ((List.range 36).filter (fun p => !t.on (R.IOP_PINp_CFG p)
        F.IOP_PINp_CFG_MASK && decide ((t.reg (R.IOP_PINp_STATUS p)).toNat % 256 ≠ 0))).length ∧
      s.sameBut t [R.IOP_PINp_STATUS p, R.IOP_STATUS] ∧ s.sameParts t []) ∧
  (∀ (s : State) (n : Fin 10), s.inReset = false → s.diag = true → s.on R.IOP_CTRL F.IOP_CTRL_SHORT_OFF = true →
    Answers (exec (.pinFaultDeclare ⟨4 + n.val, by omega⟩ .gndP) s) fun t =>
      t.isSet (R.IOP_PINp_STATUS (4 + n)) F.IOP_PINp_STATUS_OFF ∧
      s.sameBut t [R.IOP_PINp_STATUS (4 + n), R.IOP_STATUS] ∧ s.sameParts t []) ∧
  (∀ (s : State) (p : Fin 36) (f : PinFault), s.inReset = false → Answers (exec (.pinFaultClear p f) s) fun t =>
      t.g (R.IOP_PINp_STATUS p) (pinFaultBits f).1 = 0 ∧
      t.g R.IOP_STATUS F.IOP_STATUS_FAULTS = ((List.range 36).filter (fun p => !t.on (R.IOP_PINp_CFG p)
        F.IOP_PINp_CFG_MASK && decide ((t.reg (R.IOP_PINp_STATUS p)).toNat % 256 ≠ 0))).length ∧
      s.sameBut t [R.IOP_PINp_STATUS p, R.IOP_STATUS] ∧ s.sameParts t []) ∧
  (∀ (s : State) (p : Fin 36), s.inReset = false → s.diag = true → s.pinLvds p = true → s.on (R.IOP_PINp_CFG p)
    F.IOP_PINp_CFG_POL_HINT = true → s.g (R.IOP_PINp_STATUS p) F.IOP_PINp_STATUS_REVERSED = 0 → s.g (R.IOP_PINp_CFG
    p) F.IOP_PINp_CFG_MASK = 0 → s.on (R.IOP_PINp_CFG p) F.IOP_PINp_CFG_POL_AUTO = false → Answers (exec
    (.pinReversed p) s) fun t =>
      t.g (R.IOP_PINp_STATUS p) F.IOP_PINp_STATUS_REVERSED = 1 ∧ t.isSet R.IOP_RAW F.IOP_RAW_REVERSED ∧
      t.g (R.IOP_PINp_STATUS p) F.IOP_PINp_STATUS_POL_INV = s.g (R.IOP_PINp_STATUS p) F.IOP_PINp_STATUS_POL_INV ∧
      s.sameBut t [R.IOP_PINp_STATUS p, R.IOP_STATUS] ∧ s.sameParts t []) ∧
  (∀ (s : State) (p : Fin 36), s.inReset = false → s.diag = true → s.pinLvds p = true → s.on (R.IOP_PINp_CFG p)
    F.IOP_PINp_CFG_POL_HINT = true → s.g (R.IOP_PINp_STATUS p) F.IOP_PINp_STATUS_REVERSED = 0 → s.g (R.IOP_PINp_CFG
    p) F.IOP_PINp_CFG_MASK = 0 → s.on (R.IOP_PINp_CFG p) F.IOP_PINp_CFG_POL_AUTO = true → s.g (R.IOP_PINp_STATUS p)
    F.IOP_PINp_STATUS_POL_INV = 0 → 22 ≤ p.val → Answers (exec (.pinReversed p) s) fun t =>
      t.g (R.IOP_PINp_STATUS p) F.IOP_PINp_STATUS_REVERSED = 1 ∧ t.isSet R.IOP_RAW F.IOP_RAW_REVERSED ∧
      t.g (R.IOP_PINp_STATUS p) F.IOP_PINp_STATUS_POL_INV = 1 ∧ t.isSet R.IOP_RAW F.IOP_RAW_POL_CORRECTED ∧
      s.sameBut t [R.IOP_PINp_STATUS p, R.IOP_STATUS] ∧ s.sameParts t []) ∧
  (∀ (s : State) (p : Fin 36), s.inReset = false → s.diag = true → s.pinLvds p = true → s.on (R.IOP_PINp_CFG p)
    F.IOP_PINp_CFG_POL_HINT = true → s.g (R.IOP_PINp_STATUS p) F.IOP_PINp_STATUS_REVERSED = 0 → s.g (R.IOP_PINp_CFG
    p) F.IOP_PINp_CFG_MASK = 0 → s.on (R.IOP_PINp_CFG p) F.IOP_PINp_CFG_POL_AUTO = true → s.g (R.IOP_PINp_STATUS p)
    F.IOP_PINp_STATUS_POL_INV = 0 → p.val < 4 → Answers (exec (.pinReversed p) s) fun t =>
      t.g (R.IOP_PINp_STATUS p) F.IOP_PINp_STATUS_REVERSED = 1 ∧ t.isSet R.IOP_RAW F.IOP_RAW_REVERSED ∧
      t.g (R.IOP_PINp_STATUS p) F.IOP_PINp_STATUS_POL_INV = 1 ∧ t.isSet R.IOP_RAW F.IOP_RAW_POL_CORRECTED ∧
      (t.cand (s.candOfIn p)).y = [] ∧
      s.sameBut t [R.IOP_PINp_STATUS p, R.IOP_STATUS, R.REF_CANDk_STATUS (s.candOfIn p)] ∧ s.sameParts t [.ref]) ∧
  (∀ (s : State) (n : Fin 10), s.inReset = false → Answers (exec (.shortRetest n true) s) fun t =>
      t.g (R.IOP_PINp_STATUS (4 + n)) F.IOP_PINp_STATUS_OFF = 0 ∧ s.sameBut t [R.IOP_PINp_STATUS (4 + n)] ∧
      s.sameParts t []) ∧
  (∀ (s : State) (n : Fin 10), s.inReset = false → Answers (exec (.shortRetest n false) s) fun t =>
      t.pending = s.pending ∧ s.sameBut t [] ∧ s.sameParts t [])

/-- R180 and R182: a sample of a running detector shows in PTS_PD_PHASE; 1,024 samples in a row near their prediction
bring it from ACQUIRE to TRACK; in TRACK one far from its prediction brings it back and sets PD_SLIP; any other
leaves it where it is; Guyline's detectors take their samples likewise. Where the spec is silent it rests on the
choices of the model in log entries 3, 17, 19 and 42. -/
def Obligations.PhaseDetectors : Prop :=
  (∀ (s : State) (p : Fin 24) (tx : Bool) (raw : Fin 8192), s.inReset = false → s.pdState p tx = 1 → (pdError (s.pd p
    tx).hist (pdUnwrap (s.pd p tx).hist raw)).1.natAbs * 1000 ≤ 4 * 4096 * (pdError (s.pd p tx).hist (pdUnwrap (s.pd
    p tx).hist raw)).2 → (s.pd p tx).good = 1023 → Answers (exec (.pdSample p.castSucc tx raw) s) fun t =>
      t.g (R.PTS_PD_PHASE p) (if tx then F.PTS_PD_PHASE_TX_PHASE else F.PTS_PD_PHASE_RX_PHASE) = raw ∧
      t.pdState p tx = 2 ∧ (t.pd p tx).hist = ((pdUnwrap (s.pd p tx).hist raw) :: (s.pd p tx).hist).take 64 ∧
      t.isSet (R.PTS_RAW p) F.PTS_RAW_PD_TRACK ∧ s.sameBut t [R.PTS_PD_PHASE p, R.PTS_STATUS p, R.PTP_Pn_STATUS p] ∧
      s.sameParts t [.pts, .ptp]) ∧
  (∀ (s : State) (p : Fin 24) (tx : Bool) (raw : Fin 8192), s.inReset = false → s.pdState p tx = 1 → (pdError (s.pd p
    tx).hist (pdUnwrap (s.pd p tx).hist raw)).1.natAbs * 1000 ≤ 4 * 4096 * (pdError (s.pd p tx).hist (pdUnwrap (s.pd
    p tx).hist raw)).2 → (s.pd p tx).good < 1023 → Answers (exec (.pdSample p.castSucc tx raw) s) fun t =>
      t.g (R.PTS_PD_PHASE p) (if tx then F.PTS_PD_PHASE_TX_PHASE else F.PTS_PD_PHASE_RX_PHASE) = raw ∧
      t.pdState p tx = 1 ∧ (t.pd p tx).hist = ((pdUnwrap (s.pd p tx).hist raw) :: (s.pd p tx).hist).take 64 ∧
      (t.pd p tx).good = (if (pdError (s.pd p tx).hist (pdUnwrap (s.pd p tx).hist raw)).1.natAbs * 1000 ≤ 4 * 4096 *
        (pdError (s.pd p tx).hist (pdUnwrap (s.pd p tx).hist raw)).2 then (s.pd p tx).good + 1 else 0) ∧
      s.sameBut t [R.PTS_PD_PHASE p, R.PTS_STATUS p, R.PTP_Pn_STATUS p] ∧ s.sameParts t [.pts, .ptp]) ∧
  (∀ (s : State) (p : Fin 24) (tx : Bool) (raw : Fin 8192), s.inReset = false → s.pdState p tx = 2 → 20 * 4096 *
    (pdError (s.pd p tx).hist (pdUnwrap (s.pd p tx).hist raw)).2 < (pdError (s.pd p tx).hist (pdUnwrap (s.pd p
    tx).hist raw)).1.natAbs * 1000 → Answers (exec (.pdSample p.castSucc tx raw) s) fun t =>
      t.g (R.PTS_PD_PHASE p) (if tx then F.PTS_PD_PHASE_TX_PHASE else F.PTS_PD_PHASE_RX_PHASE) = raw ∧
      t.pdState p tx = 1 ∧ (t.pd p tx).good = 0 ∧ t.isSet (R.PTS_RAW p) F.PTS_RAW_PD_SLIP ∧
      s.sameBut t [R.PTS_PD_PHASE p, R.PTS_STATUS p, R.PTP_Pn_STATUS p] ∧ s.sameParts t [.pts, .ptp]) ∧
  (∀ (s : State) (p : Fin 24) (tx : Bool) (raw : Fin 8192), s.inReset = false → s.pdState p tx = 2 → ¬ (20 * 4096 *
    (pdError (s.pd p tx).hist (pdUnwrap (s.pd p tx).hist raw)).2 < (pdError (s.pd p tx).hist (pdUnwrap (s.pd p
    tx).hist raw)).1.natAbs * 1000) → Answers (exec (.pdSample p.castSucc tx raw) s) fun t =>
      t.g (R.PTS_PD_PHASE p) (if tx then F.PTS_PD_PHASE_TX_PHASE else F.PTS_PD_PHASE_RX_PHASE) = raw ∧
      t.pdState p tx = 2 ∧ (t.pd p tx).hist = ((pdUnwrap (s.pd p tx).hist raw) :: (s.pd p tx).hist).take 64 ∧
      s.sameBut t [R.PTS_PD_PHASE p, R.PTS_STATUS p, R.PTP_Pn_STATUS p] ∧ s.sameParts t [.pts, .ptp]) ∧
  (∀ (s : State) (tx : Bool) (raw : Fin 8192), s.inReset = false → (if tx then s.guy.txState else s.guy.rxState) ≠ 0
    → Answers (exec (.pdSample 24 tx raw) s) fun t =>
      (if tx then t.guy.tx else t.guy.rx).hist = (pdUnwrap (if tx then s.guy.tx else s.guy.rx).hist raw :: (if tx
        then s.guy.tx else s.guy.rx).hist).take 64 ∧
      t.guy = (if tx then { s.guy with tx := t.guy.tx, txState := t.guy.txState } else
        { s.guy with rx := t.guy.rx, rxState := t.guy.rxState }) ∧
      s.sameBut t [] ∧ s.sameParts t [.guy])

/-- R188 to R192 and R197: a bad exchange is discarded and counted; an outlier is counted and left out, and the
eighth in a row restarts the window with it; any other sample enters the window, and one that fills it makes
LD_VALID; the mean of a window of one is its sample; a fibre temperature written ends staleness and one that times
out is stale; POP removes the oldest stamp. R187: GO starts a measurement and ABORT ends it with VALID 0; a
calibration frame is sent while fewer than N are; a returned frame with clean stamps counts as accepted with its
delay, one that times out as lost; at the end MEAN is shown and LOOP_DONE set. Where the spec is silent it rests on
the choices of the model in log entries 3, 17, 19 and 42. -/
def Obligations.LinkDelayAndLoopback : Prop :=
  (∀ (s : State) (p : Fin 24) (t1 t2 t3 t4 : Tick64), s.inReset = false → ¬ (s.ptpState p = ptpSlave ∧ s.on
    (R.PTS_STATUS p) F.PTS_STATUS_LD_VALID = false) → Answers (exec (.linkDelayExchange p t1 t2 t3 t4 true) s) fun t
    =>
      t.g (R.PTS_LD_CNT p) F.PTS_LD_CNT_DISCARDS = min (s.g (R.PTS_LD_CNT p) F.PTS_LD_CNT_DISCARDS + 1) 65535 ∧
      s.sameBut t [R.PTS_LD_CNT p] ∧ s.sameParts t []) ∧
  (∀ (s : State) (p : Fin 24) (t1 t2 t3 t4 : Tick64), s.inReset = false → s.on (R.PTS_STATUS p) F.PTS_STATUS_LD_VALID
    = false → s.g (R.PTS_LD_CFG p) F.PTS_LD_CFG_LOG2_N = 0 → Answers (exec (.linkDelayExchange p t1 t2 t3 t4 false)
    s) fun t =>
      t.pair (R.PTS_LD_MEAN_LO p) = enc 64 ((tickDiff t4 t1 - tickDiff t3 t2 + 1) / 2) ∧
      (t.ptsOf p).ld = [(tickDiff t4 t1 - tickDiff t3 t2 + 1) / 2] ∧
      t.g (R.PTS_STATUS p) F.PTS_STATUS_LD_VALID = 1 ∧
      s.sameBut t [R.PTS_LD_MEAN_LO p, R.PTS_LD_MEAN_LO p + 4, R.PTS_LD_IN_LO p, R.PTS_LD_IN_LO p + 4,
        R.PTS_LD_OUT_LO p, R.PTS_LD_OUT_LO p + 4, R.PTS_STATUS p] ∧
      s.sameParts t [.pts, .free]) ∧
  (∀ (s : State) (p : Fin 24) (t1 t2 t3 t4 : Tick64), s.inReset = false → s.on (R.PTS_STATUS p) F.PTS_STATUS_LD_VALID
    = true → (s.g (R.PTS_LD_CFG p) F.PTS_LD_CFG_OUTLIER_PS * 65536 : Nat) < |((tickDiff t4 t1 - tickDiff t3 t2 + 1) /
    2) - s.pairI (R.PTS_LD_MEAN_LO p)| * 1000 → (s.ptsOf p).outliers < 7 → Answers (exec (.linkDelayExchange p t1 t2
    t3 t4 false) s) fun t =>
      t.g (R.PTS_LD_CNT p) F.PTS_LD_CNT_OUTLIERS = min (s.g (R.PTS_LD_CNT p) F.PTS_LD_CNT_OUTLIERS + 1) 65535 ∧
      (t.ptsOf p).outliers = (s.ptsOf p).outliers + 1 ∧ (t.ptsOf p).ld = (s.ptsOf p).ld ∧
      s.sameBut t [R.PTS_LD_CNT p] ∧ s.sameParts t [.pts]) ∧
  (∀ (s : State) (p : Fin 24) (t1 t2 t3 t4 : Tick64), s.inReset = false → s.on (R.PTS_STATUS p) F.PTS_STATUS_LD_VALID
    = true → s.ptpState p ≠ ptpSlave → (s.g (R.PTS_LD_CFG p) F.PTS_LD_CFG_OUTLIER_PS * 65536 : Nat) < |((tickDiff t4
    t1 - tickDiff t3 t2 + 1) / 2) - s.pairI (R.PTS_LD_MEAN_LO p)| * 1000 → 7 ≤ (s.ptsOf p).outliers → s.hif.fq.length
    < 32 → Answers (exec (.linkDelayExchange p t1 t2 t3 t4 false) s) fun t =>
      (t.ptsOf p).ld = [(tickDiff t4 t1 - tickDiff t3 t2 + 1) / 2] ∧ t.isSet (R.PTS_RAW p) F.PTS_RAW_LD_RESTART ∧
      (∃ f ∈ t.hif.fq, f.block = 6 ∧ f.code = 2 ∧ f.detail = p.val) ∧
      s.sameBut t [R.PTS_LD_MEAN_LO p, R.PTS_LD_MEAN_LO p + 4, R.PTS_LD_IN_LO p, R.PTS_LD_IN_LO p + 4,
        R.PTS_LD_OUT_LO p, R.PTS_LD_OUT_LO p + 4, R.PTS_STATUS p, R.PTS_LD_CNT p] ∧
      s.sameParts t [.pts, .free]) ∧
  (∀ (s : State) (p : Fin 24) (t1 t2 t3 t4 : Tick64), s.inReset = false → ¬ (s.ptpState p = ptpSlave ∧ s.on
    (R.PTS_STATUS p) F.PTS_STATUS_LD_VALID = false) → (s.on (R.PTS_STATUS p) F.PTS_STATUS_LD_VALID = true →
    |((tickDiff t4 t1 - tickDiff t3 t2 + 1) / 2) - s.pairI (R.PTS_LD_MEAN_LO p)| * 1000 ≤ (s.g (R.PTS_LD_CFG p)
    F.PTS_LD_CFG_OUTLIER_PS * 65536 : Nat)) → Answers (exec (.linkDelayExchange p t1 t2 t3 t4 false) s) fun t =>
      (t.ptsOf p).ld = (((tickDiff t4 t1 - tickDiff t3 t2 + 1) / 2) :: (s.ptsOf p).ld).take (2 ^ s.g (R.PTS_LD_CFG p)
        F.PTS_LD_CFG_LOG2_N) ∧
      (t.ptsOf p).outliers = 0 ∧
      (2 ^ s.g (R.PTS_LD_CFG p) F.PTS_LD_CFG_LOG2_N ≤ (s.ptsOf p).ld.length + 1 → t.g (R.PTS_STATUS p)
        F.PTS_STATUS_LD_VALID = 1) ∧
      s.sameBut t [R.PTS_LD_MEAN_LO p, R.PTS_LD_MEAN_LO p + 4, R.PTS_LD_IN_LO p, R.PTS_LD_IN_LO p + 4,
        R.PTS_LD_OUT_LO p, R.PTS_LD_OUT_LO p + 4, R.PTS_STATUS p] ∧
      s.sameParts t [.pts, .free]) ∧
  (∀ (s : State) (p : Fin 24) (v : Word), s.accepts (R.PTS_FTEMP_NOW p) → Answers (exec (.ftempNowWrite p v) s) fun t
    =>
      t.reg (R.PTS_FTEMP_NOW p) = s.formWord (R.PTS_FTEMP_NOW p) v ∧
      F.PTS_RAW_FTEMP_STALE.get (Tbl.get 0#32 t.conds (R.PTS_RAW p)) = 0 ∧
      s.sameBut t [R.PTS_FTEMP_NOW p, R.HIF_CFG_CRC_STATUS] ∧ s.sameParts t [.conds]) ∧
  (∀ (s : State) (p : Fin 24), s.inReset = false → s.on (R.PTS_CFG p) F.PTS_CFG_FTEMP_EN = true → Answers (exec
    (.ftempStale p) s) fun t =>
      t.isSet (R.PTS_RAW p) F.PTS_RAW_FTEMP_STALE ∧ s.sameBut t [] ∧ s.sameParts t [.conds]) ∧
  (∀ (s : State) (p : Fin 24) (v : Word) (r : Word × Word × Word × Word) (l : List (Word × Word × Word × Word)),
    s.accepts (R.PTS_FIFO_POP p) → (s.ptsOf p).fifo = r :: l → l.length < 64 → Answers (exec (.ptsFifoPop p v) s) fun
    t =>
      (t.ptsOf p).fifo = l ∧ t.g (R.PTS_FIFO_STATUS p) F.PTS_FIFO_STATUS_DEPTH = l.length ∧
      s.sameBut t [R.PTS_FIFO_STATUS p] ∧ s.sameParts t [.pts]) ∧
  (∀ (s : State) (p : Fin 24) (v : Word), s.accepts (R.PTS_LOOP_CTRL p) → s.looping p = false → Answers (exec
    (.loopbackGo p v) s) fun t =>
      t.looping p = true ∧ t.reg (R.PTS_LOOP_STATUS p) = F.PTS_LOOP_STATUS_RUNNING.put 0#32 1 ∧
      s.sameBut t [R.PTS_LOOP_CTRL p, R.PTS_LOOP_STATUS p, R.HIF_CFG_CRC_STATUS] ∧ s.sameParts t [.pts]) ∧
  (∀ (s : State) (p : Fin 24) (v : Word), s.accepts (R.PTS_LOOP_CTRL p) → s.looping p = true → F.PTS_LOOP_CTRL_GO.get
    v = 0 → Answers (exec (.loopbackAbort p v) s) fun t =>
      t.looping p = false ∧ t.g (R.PTS_LOOP_STATUS p) F.PTS_LOOP_STATUS_VALID = 0 ∧
      s.sameBut t [R.PTS_LOOP_CTRL p, R.PTS_LOOP_STATUS p, R.HIF_CFG_CRC_STATUS] ∧ s.sameParts t []) ∧
  (∀ (s : State) (p : Fin 24) (x : StampIn), s.inReset = false → s.running = true → s.looping p = true → (s.ptsOf
    p).loop.sent < s.g (R.PTS_LOOP_CTRL p) F.PTS_LOOP_CTRL_N → Answers (exec (.loopbackFrameTx p x) s) fun t =>
      (t.ptsOf p).loop.sent = (s.ptsOf p).loop.sent + 1 ∧
      s.emits t (.frame p (calFrame (s.ptsOf p).loop.sent ++ leBytes 4 (fcsOf (calFrame (s.ptsOf p).loop.sent)))) ∧
      s.sameBut t [] ∧ s.sameParts t [.pts]) ∧
  (∀ (s : State) (p : Fin 24) (q : Nat) (x : StampIn) (d : Stamp), s.inReset = false → s.running = true → s.looping p
    = true → Tbl.get none (s.ptsOf p).loop.way q = some d → stampClean d = true → stampClean (s.rxStamp p x) = true →
    Answers (exec (.loopbackFrameReturn p q x) s) fun t =>
      t.g (R.PTS_LOOP_STATUS p) F.PTS_LOOP_STATUS_ACCEPTED = min (s.g (R.PTS_LOOP_STATUS p)
        F.PTS_LOOP_STATUS_ACCEPTED + 1) 65535 ∧
      (t.ptsOf p).loop.sum = (s.ptsOf p).loop.sum + (t96Diff (s.rxStamp p x).t d.t).1 ∧
      Tbl.get none (t.ptsOf p).loop.way q = none ∧ s.sameBut t [R.PTS_LOOP_STATUS p] ∧ s.sameParts t [.pts]) ∧
  (∀ (s : State) (p : Fin 24) (q : Nat), s.inReset = false → s.looping p = true → (Tbl.get none (s.ptsOf p).loop.way
    q).isSome = true → Answers (exec (.loopbackFrameTimeout p q) s) fun t =>
      t.g (R.PTS_LOOP_STATUS p) F.PTS_LOOP_STATUS_LOST = min (s.g (R.PTS_LOOP_STATUS p) F.PTS_LOOP_STATUS_LOST + 1)
        255 ∧
      Tbl.get none (t.ptsOf p).loop.way q = none ∧ s.sameBut t [R.PTS_LOOP_STATUS p] ∧ s.sameParts t [.pts]) ∧
  (∀ (s : State) (p : Fin 24), s.inReset = false → s.looping p = true → (s.ptsOf p).loop.way = [] → (s.ptsOf
    p).loop.sent = s.g (R.PTS_LOOP_CTRL p) F.PTS_LOOP_CTRL_N → s.g (R.PTS_LOOP_STATUS p) F.PTS_LOOP_STATUS_ACCEPTED ≠
    0 → Answers (exec (.loopbackDone p) s) fun t =>
      t.pair (R.PTS_LOOP_MEAN_LO p) = enc 64 (divRound (s.ptsOf p).loop.sum (s.g (R.PTS_LOOP_STATUS p)
        F.PTS_LOOP_STATUS_ACCEPTED)) ∧
      t.g (R.PTS_LOOP_STATUS p) F.PTS_LOOP_STATUS_VALID = 1 ∧ t.looping p = false ∧
      t.isSet (R.PTS_RAW p) F.PTS_RAW_LOOP_DONE ∧
      s.sameBut t [R.PTS_LOOP_MEAN_LO p, R.PTS_LOOP_MEAN_LO p + 4, R.PTS_LOOP_SPAN p, R.PTS_LOOP_STATUS p] ∧
      s.sameParts t []) ∧
  (∀ (s : State) (p : Fin 24) (q : Nat) (x : StampIn) (d : Stamp), s.inReset = false → s.running = true → s.looping p
    = true → Tbl.get none (s.ptsOf p).loop.way q = some d → (stampClean d && stampClean (s.rxStamp p x)) = false →
    Answers (exec (.loopbackFrameReturn p q x) s) fun t =>
      t.g (R.PTS_LOOP_STATUS p) F.PTS_LOOP_STATUS_LOST = min (s.g (R.PTS_LOOP_STATUS p) F.PTS_LOOP_STATUS_LOST + 1)
        255 ∧
      (t.ptsOf p).loop.sum = (s.ptsOf p).loop.sum ∧ Tbl.get none (t.ptsOf p).loop.way q = none ∧
      s.sameBut t [R.PTS_LOOP_STATUS p] ∧ s.sameParts t [.pts]) ∧
  (∀ (s : State) (p : Fin 24), s.inReset = false → s.looping p = true → (s.ptsOf p).loop.way = [] → (s.ptsOf
    p).loop.sent = s.g (R.PTS_LOOP_CTRL p) F.PTS_LOOP_CTRL_N → s.g (R.PTS_LOOP_STATUS p) F.PTS_LOOP_STATUS_ACCEPTED =
    0 → Answers (exec (.loopbackDone p) s) fun t =>
      t.g (R.PTS_LOOP_STATUS p) F.PTS_LOOP_STATUS_VALID = s.g (R.PTS_LOOP_STATUS p) F.PTS_LOOP_STATUS_VALID ∧
      t.looping p = false ∧ t.isSet (R.PTS_RAW p) F.PTS_RAW_LOOP_DONE ∧ s.sameBut t [R.PTS_LOOP_STATUS p] ∧
      s.sameParts t [])

/-- R181, R182, R189 and R278: a lane that unlocks is gated, sets LANE_UNLOCK and queues code 0x01, a frame it was
sending is cut short, and one lane of Guyline gates them all; the loss of block lock clears it and LD_VALID and sets
LOCK_LOST, its gain sets LINK_UP; a mode change shows in PTS_STATUS and makes the link delay invalid. Where the spec
is silent it rests on the choices of the model in log entries 3, 17, 19 and 42. -/
def Obligations.LanesAndBlockLock : Prop :=
  (∀ (s : State) (p : Fin 24), s.inReset = false → s.fwdOk → s.syn.lanes.count p.val = 1 → Answers (exec (.laneUnlock
    (Fin.castLE (by decide) p) none) s) fun t =>
      p.val ∉ t.syn.lanes ∧ Dom.lane p ∈ t.gated ∧ t.isSet (R.PTS_RAW p) F.PTS_RAW_LANE_UNLOCK ∧
      t.g (R.PTS_STATUS p) F.PTS_STATUS_LANE_LOCK = 0 ∧
      (s.g (R.MAC_Pn_STATUS p) F.MAC_Pn_STATUS_BLOCK_LOCK = 1 → t.g (R.MAC_Pn_STATUS p) F.MAC_Pn_STATUS_BLOCK_LOCK =
        0) ∧
      (s.hif.fq.length < 32 → ∃ f ∈ t.hif.fq, f.block = 6 ∧ f.code = 1 ∧ f.detail = p.val) ∧
      s.sameBeyond t [(R.PTS_STATUS p, R.PTS_STATUS p + 4), (R.MAC_Pn_STATUS p, R.MAC_Pn_STATUS p + 4), (0x200000,
        0x280000), (0x60000, 0x60A00), (R.REF_CANDk_STATUS 29, R.REF_CANDk_STATUS 29 + 4)] ∧
      s.sameParts t [.syn, .gated, .pts, .ptp, .ref, .fwd]) ∧
  (∀ (s : State) (p : Fin 24) (k : Nat), s.inReset = false → s.fwdOk → s.syn.lanes.count p.val = 1 → Tbl.get none
    s.fwd.sending p = none → Answers (exec (.laneUnlock (Fin.castLE (by decide) p) (some k)) s) fun t =>
      s.emits t (.cut p k) ∧ p.val ∉ t.syn.lanes ∧ Dom.lane p ∈ t.gated ∧
      t.isSet (R.PTS_RAW p) F.PTS_RAW_LANE_UNLOCK ∧ t.g (R.PTS_STATUS p) F.PTS_STATUS_LANE_LOCK = 0 ∧
      (s.g (R.MAC_Pn_STATUS p) F.MAC_Pn_STATUS_BLOCK_LOCK = 1 → t.g (R.MAC_Pn_STATUS p) F.MAC_Pn_STATUS_BLOCK_LOCK =
        0) ∧
      (s.hif.fq.length < 32 → ∃ f ∈ t.hif.fq, f.block = 6 ∧ f.code = 1 ∧ f.detail = p.val) ∧
      s.sameBeyond t [(R.PTS_STATUS p, R.PTS_STATUS p + 4), (R.MAC_Pn_STATUS p, R.MAC_Pn_STATUS p + 4), (0x200000,
        0x280000), (0x60000, 0x60A00), (R.REF_CANDk_STATUS 29, R.REF_CANDk_STATUS 29 + 4)] ∧
      s.sameParts t [.syn, .gated, .pts, .ptp, .ref, .fwd]) ∧
  (∀ (s : State) (p : Fin 24) (k : Nat) (y : Sending) (f : Frame) (l : Looked), s.inReset = false → s.fwdOk →
    s.syn.lanes.count p.val = 1 → Tbl.get none s.fwd.sending p = some y → s.frameOf y.copy.frame = some f → f.look =
    some l → Answers (exec (.laneUnlock (Fin.castLE (by decide) p) (some k)) s) fun t =>
      s.out ++ [Out.frame p ((sentBytes (s.pieces f l p (f.len - 4) false)).take k), Out.cut p k] <+: t.out ∧
      Tbl.get none t.fwd.sending p = none ∧
      t.g (R.MAC_Pn_TX_FRAMES p) F.MAC_Pn_TX_FRAMES_COUNT = min (s.g (R.MAC_Pn_TX_FRAMES p) F.MAC_Pn_TX_FRAMES_COUNT
        + 1) 4294967295 ∧
      p.val ∉ t.syn.lanes ∧ Dom.lane p ∈ t.gated ∧ t.isSet (R.PTS_RAW p) F.PTS_RAW_LANE_UNLOCK ∧
      t.g (R.PTS_STATUS p) F.PTS_STATUS_LANE_LOCK = 0 ∧
      (s.g (R.MAC_Pn_STATUS p) F.MAC_Pn_STATUS_BLOCK_LOCK = 1 → t.g (R.MAC_Pn_STATUS p) F.MAC_Pn_STATUS_BLOCK_LOCK =
        0) ∧
      (s.hif.fq.length < 32 → ∃ f ∈ t.hif.fq, f.block = 6 ∧ f.code = 1 ∧ f.detail = p.val) ∧
      s.sameBeyond t [(R.PTS_STATUS p, R.PTS_STATUS p + 4), (R.MAC_Pn_STATUS p, R.MAC_Pn_STATUS p + 4), (0x200000,
        0x280000), (0x60000, 0x60A00), (R.REF_CANDk_STATUS 29, R.REF_CANDk_STATUS 29 + 4), (R.MAC_Pn_TX_FRAMES p,
        R.MAC_Pn_TX_FRAMES p + 4)] ∧
      s.sameParts t [.syn, .gated, .pts, .ptp, .ref, .fwd]) ∧
  (∀ (s : State) (n : Fin 28) (k : Option Nat), s.inReset = false → s.syn.lanes.contains n.val = false → Answers
    (exec (.laneUnlock n k) s) fun t =>
      t.syn = s.syn ∧ s.sameBut t [] ∧ s.sameParts t []) ∧
  (∀ (s : State) (q : Fin 4) (k : Option Nat), s.inReset = false → s.syn.lanes.count (24 + q.val) = 1 → Answers (exec
    (.laneUnlock (Fin.natAdd 24 q) k) s) fun t =>
      24 + q.val ∉ t.syn.lanes ∧ Dom.guyLane ∈ t.gated ∧ maskBit (t.g R.GUY_STATUS F.GUY_STATUS_LOL) q = true ∧
      maskBit (t.g R.GUY_STATUS F.GUY_STATUS_BLOCK_LOCK) q = false) ∧
  (∀ (s : State) (p : Fin 24) (sig : Bool), s.inReset = false → s.fwdOk → s.g (R.MAC_Pn_STATUS p)
    F.MAC_Pn_STATUS_BLOCK_LOCK = 1 → Answers (exec (.pcsBlockLockLoss p sig) s) fun t =>
      t.g (R.MAC_Pn_STATUS p) F.MAC_Pn_STATUS_BLOCK_LOCK = 0 ∧ t.g (R.PTS_STATUS p) F.PTS_STATUS_BLOCK_LOCK = 0 ∧
      t.g (R.PTS_STATUS p) F.PTS_STATUS_LD_VALID = 0 ∧ (t.ptsOf p).ld = [] ∧
      t.isSet (R.MAC_Pn_RAW p) F.MAC_Pn_RAW_LOCK_LOST ∧
      s.sameBeyond t [(R.PTS_STATUS p, R.PTS_STATUS p + 4), (R.MAC_Pn_STATUS p, R.MAC_Pn_STATUS p + 4), (0x200000,
        0x280000), (0x60000, 0x60A00), (R.REF_CANDk_STATUS 29, R.REF_CANDk_STATUS 29 + 4)] ∧
      s.sameParts t [.pts, .ptp, .ref, .fwd]) ∧
  (∀ (s : State) (p : Fin 24) (sig : Bool), s.inReset = false → s.fwdOk → s.g (R.MAC_Pn_STATUS p)
    F.MAC_Pn_STATUS_BLOCK_LOCK = 0 → Answers (exec (.pcsBlockLockLoss p sig) s) fun t =>
      t.g (R.MAC_Pn_STATUS p) F.MAC_Pn_STATUS_SIGNAL = b2n sig ∧
      t.g (R.MAC_Pn_STATUS p) F.MAC_Pn_STATUS_BLOCK_LOCK = 0 ∧
      s.sameBeyond t [(R.MAC_Pn_STATUS p, R.MAC_Pn_STATUS p + 4), (0x200000, 0x280000)] ∧ s.sameParts t [.fwd]) ∧
  (∀ (s : State) (p : Fin 24), s.inReset = false → s.on (R.MAC_Pn_CFG p) F.MAC_Pn_CFG_EN = true → s.on (R.PTS_STATUS
    p) F.PTS_STATUS_LANE_LOCK = true → s.g (R.MAC_Pn_STATUS p) F.MAC_Pn_STATUS_BLOCK_LOCK = 0 → Answers (exec
    (.pcsBlockLockGain p) s) fun t =>
      t.g (R.MAC_Pn_STATUS p) F.MAC_Pn_STATUS_BLOCK_LOCK = 1 ∧ t.g (R.PTS_STATUS p) F.PTS_STATUS_BLOCK_LOCK = 1 ∧
      t.isSet (R.MAC_Pn_RAW p) F.MAC_Pn_RAW_LINK_UP ∧
      s.sameBeyond t [(R.PTS_STATUS p, R.PTS_STATUS p + 4), (R.MAC_Pn_STATUS p, R.MAC_Pn_STATUS p + 4), (0x60000,
        0x60A00), (R.REF_CANDk_STATUS 29, R.REF_CANDk_STATUS 29 + 4)] ∧
      s.sameParts t [.pts, .ptp, .ref]) ∧
  (∀ (s : State) (p : Fin 24) (v : Word), s.accepts (R.MAC_Pn_CFG p) → s.formWord (R.MAC_Pn_CFG p) v ≠ s.reg
    (R.MAC_Pn_CFG p) → F.MAC_Pn_CFG_EN.get (s.formWord (R.MAC_Pn_CFG p) v) = 1 → Answers (exec (.macModeChange p v)
    s) fun t =>
      t.reg (R.MAC_Pn_CFG p) = s.formWord (R.MAC_Pn_CFG p) v ∧
      t.g (R.PTS_STATUS p) F.PTS_STATUS_FEC = t.g (R.MAC_Pn_CFG p) F.MAC_Pn_CFG_FEC ∧
      t.g (R.PTS_STATUS p) F.PTS_STATUS_LD_VALID = 0 ∧ (t.ptsOf p).ld = [] ∧
      s.sameBeyond t [(R.MAC_Pn_CFG p, R.MAC_Pn_CFG p + 4), (R.PTS_STATUS p, R.PTS_STATUS p + 4), (R.PTS_TX_DLY_FAC
        p, R.PTS_TX_DLY_FAC p + 4), (R.PTS_RX_DLY_FAC p, R.PTS_RX_DLY_FAC p + 4), (R.HIF_CFG_CRC_STATUS,
        R.HIF_CFG_CRC_STATUS + 4), (0x60000, 0x60A00), (R.REF_CANDk_STATUS 29, R.REF_CANDk_STATUS 29 + 4)] ∧
      s.sameParts t [.pts, .ptp, .ref]) ∧
  (∀ (s : State) (p : Fin 24) (v : Word), s.accepts (R.MAC_Pn_CFG p) → s.formWord (R.MAC_Pn_CFG p) v ≠ s.reg
    (R.MAC_Pn_CFG p) → F.MAC_Pn_CFG_EN.get (s.formWord (R.MAC_Pn_CFG p) v) = 0 → Answers (exec (.macModeChange p v)
    s) fun t =>
      t.reg (R.MAC_Pn_CFG p) = s.formWord (R.MAC_Pn_CFG p) v ∧
      t.g (R.PTS_STATUS p) F.PTS_STATUS_FEC = t.g (R.MAC_Pn_CFG p) F.MAC_Pn_CFG_FEC ∧
      t.g (R.PTS_STATUS p) F.PTS_STATUS_LD_VALID = 0 ∧ (t.ptsOf p).ld = [] ∧
      t.g (R.MAC_Pn_STATUS p) F.MAC_Pn_STATUS_BLOCK_LOCK = 0 ∧
      (s.g (R.MAC_Pn_STATUS p) F.MAC_Pn_STATUS_BLOCK_LOCK = 1 → t.isSet (R.MAC_Pn_RAW p) F.MAC_Pn_RAW_LOCK_LOST) ∧
      s.sameBeyond t [(R.MAC_Pn_CFG p, R.MAC_Pn_CFG p + 4), (R.MAC_Pn_STATUS p, R.MAC_Pn_STATUS p + 4), (R.PTS_STATUS
        p, R.PTS_STATUS p + 4), (R.PTS_TX_DLY_FAC p, R.PTS_TX_DLY_FAC p + 4), (R.PTS_RX_DLY_FAC p, R.PTS_RX_DLY_FAC p
        + 4), (R.HIF_CFG_CRC_STATUS, R.HIF_CFG_CRC_STATUS + 4), (0x60000, 0x60A00), (R.REF_CANDk_STATUS 29,
        R.REF_CANDk_STATUS 29 + 4)] ∧
      s.sameParts t [.pts, .ptp, .ref]) ∧
  (∀ (s : State) (p : Fin 24) (v : Word), s.accepts (R.MAC_Pn_CFG p) → s.formWord (R.MAC_Pn_CFG p) v = s.reg
    (R.MAC_Pn_CFG p) → Answers (exec (.macModeChange p v) s) fun t =>
      t.reg (R.MAC_Pn_CFG p) = s.reg (R.MAC_Pn_CFG p) ∧ s.sameBut t [R.HIF_CFG_CRC_STATUS] ∧ s.sameParts t [])

/-- R205, R208 and R215: an acceptable Announce on a LISTENING port outside a claim group makes its sender the parent
and moves the port to UNCALIBRATED; one that fails the checks is counted as rejected; a timeout on a following port
returns it to LISTENING without a parent. R207 and R218: a two-step Sync from the parent waits for its Follow_Up with
its receipt stamp; the matching Follow_Up completes it, and without a valid link delay its sample is discarded and
counted; a Sync whose Follow_Up does not come is discarded. Where the spec is silent it rests on the choices of the
model in log entries 3, 20, 21 and 38. -/
def Obligations.PtpAnnouncesAndSyncs : Prop :=
  (∀ (s : State) (p : Fin 24) (m : List Byte), s.inReset = false → s.running = true → s.consumes p m = true → msgOk
    11 m = true → s.ptpState p = ptpListening → s.claimTlvs m = [] → s.announceOk p m = true → Answers (exec
    (.announceRx p m) s) fun t =>
      t.ptpState p = ptpUncal ∧ t.parentOf p = msgSource m ∧ (t.pport p).ann = m ∧
      t.isSet (R.PTP_Pn_RAW p) F.PTP_Pn_RAW_ANN_ACCEPT ∧
      s.sameBeyond t [(0x60000, 0x60A00), (R.REF_CANDk_STATUS 29, R.REF_CANDk_STATUS 29 + 4)] ∧
      s.sameParts t [.ptp, .ref]) ∧
  (∀ (s : State) (p : Fin 24) (m : List Byte), s.inReset = false → s.running = true → s.consumes p m = true → msgOk
    11 m = true → 3 ≤ s.ptpState p → s.claimTlvs m = [] → s.announceOk p m = false → Answers (exec (.announceRx p m)
    s) fun t =>
      t.g (R.PTP_Pn_CNT_MSG p) F.PTP_Pn_CNT_MSG_ANN_REJECTED = min (s.g (R.PTP_Pn_CNT_MSG p)
        F.PTP_Pn_CNT_MSG_ANN_REJECTED + 1) 65535 ∧
      t.isSet (R.PTP_Pn_RAW p) F.PTP_Pn_RAW_ANN_REJECT ∧ s.sameBut t [R.PTP_Pn_CNT_MSG p] ∧ s.sameParts t []) ∧
  (∀ (s : State) (p : Fin 24) , s.inReset = false → s.ptpState p = ptpUncal ∨ s.ptpState p = ptpSlave → Answers (exec
    (.announceTimeout p) s) fun t =>
      t.ptpState p = ptpListening ∧ t.parentOf p = 0 ∧
      t.g (R.PTP_Pn_CNT_ERR p) F.PTP_Pn_CNT_ERR_TIMEOUTS = min (s.g (R.PTP_Pn_CNT_ERR p) F.PTP_Pn_CNT_ERR_TIMEOUTS +
        1) 255 ∧
      t.isSet (R.PTP_Pn_RAW p) F.PTP_Pn_RAW_ANN_TIMEOUT ∧
      s.sameBeyond t [(0x60000, 0x60A00), (R.REF_CANDk_STATUS 29, R.REF_CANDk_STATUS 29 + 4)] ∧
      s.sameParts t [.ptp, .ref]) ∧
  (∀ (s : State) (p : Fin 24) (m : List Byte), s.inReset = false → s.running = true → s.consumes p m = true → msgOk
    11 m = true → s.ptpState p = ptpMaster → Answers (exec (.announceRx p m) s) fun t =>
      t.isSet (R.PTP_Pn_RAW p) F.PTP_Pn_RAW_FOREIGN_MASTER ∧ s.sameBut t [] ∧ s.sameParts t []) ∧
  (∀ (s : State) (p : Fin 24) (m : List Byte), s.inReset = false → s.running = true → s.consumes p m = true → msgOk
    11 m = true → s.ptpState p < 2 → Answers (exec (.announceRx p m) s) fun t =>
      s.sameBut t [] ∧ s.sameParts t []) ∧
  (∀ (s : State) (p : Fin 24) (m : List Byte), s.inReset = false → s.running = true → s.consumes p m = true → msgOk
    11 m = true → 3 ≤ s.ptpState p → s.announceOk p m = true → s.claimTlvs m = [] → Answers (exec (.announceRx p m)
    s) fun t =>
      t.parentOf p = msgSource m ∧ (t.pport p).ann = m ∧ (t.pport p).claim = none ∧
      s.sameBeyond t [(0x60000, 0x60A00), (R.REF_CANDk_STATUS 29, R.REF_CANDk_STATUS 29 + 4)] ∧
      s.sameParts t [.ptp, .ref]) ∧
  (∀ (s : State) (p : Fin 24) (m : List Byte), s.inReset = false → s.running = true → s.consumes p m = true → msgOk
    11 m = true → s.ptpState p = ptpUncal ∨ s.ptpState p = ptpSlave → s.announceOk p m = true → s.parentOf p ≠
    msgSource m → s.claimTlvs m = [] → Answers (exec (.announceRx p m) s) fun t =>
      t.ptpState p = ptpUncal ∧ t.isSet (R.PTP_Pn_RAW p) F.PTP_Pn_RAW_PARENT_CHANGE ∧ (t.pport p).wait = none ∧
      (t.pport p).syncs = [] ∧ (t.pport p).dreq = none ∧ (t.pport p).last = none ∧
      s.sameBeyond t [(0x60000, 0x60A00), (R.REF_CANDk_STATUS 29, R.REF_CANDk_STATUS 29 + 4)] ∧
      s.sameParts t [.ptp, .ref]) ∧
  (∀ (s : State) (p : Fin 24) (m : List Byte), s.inReset = false → s.running = true → s.consumes p m = true → msgOk
    11 m = true → s.ptpState p = ptpPassive → s.announceOk p m = true → s.claimTlvs m = [] → Answers (exec
    (.announceRx p m) s) fun t =>
      t.ptpState p = ptpPassive ∧
      s.sameBeyond t [(0x60000, 0x60A00), (R.REF_CANDk_STATUS 29, R.REF_CANDk_STATUS 29 + 4)] ∧
      s.sameParts t [.ptp, .ref]) ∧
  (∀ (s : State) (p : Fin 24) (m : List Byte) (b : List Byte), s.inReset = false → s.running = true → s.consumes p m
    = true → msgOk 11 m = true → 3 ≤ s.ptpState p → s.announceOk p m = true → s.claimTlvs m = [b] → tlvOk b = true →
    Answers (exec (.announceRx p m) s) fun t =>
      t.parentOf p = msgSource m ∧ (t.pport p).ann = m ∧
      (t.pport p).claim = some (maskBit (beAt b 14 1) 7, maskBit (beAt b 14 1) 6, beAt b 12 2) ∧
      t.reg (R.PTP_Pn_CLAIM p) = BitVec.ofNat 32 (beAt b 8 4) ∧
      t.g (R.PTP_Pn_STATUS p) F.PTP_Pn_STATUS_CLAIM_VALID = 1 ∧
      s.sameBeyond t [(0x60000, 0x60A00), (R.REF_CANDk_STATUS 29, R.REF_CANDk_STATUS 29 + 4)] ∧
      s.sameParts t [.ptp, .ref]) ∧
  (∀ (s : State) (p : Fin 24) (m : List Byte) (b : List Byte), s.inReset = false → s.running = true → s.consumes p m
    = true → msgOk 11 m = true → 3 ≤ s.ptpState p → s.announceOk p m = false → s.claimTlvs m = [b] → tlvOk b = false
    → Answers (exec (.announceRx p m) s) fun t =>
      t.g (R.PTP_Pn_CNT_ERR p) F.PTP_Pn_CNT_ERR_CLAIM_BAD = min (s.g (R.PTP_Pn_CNT_ERR p) F.PTP_Pn_CNT_ERR_CLAIM_BAD
        + 1) 255 ∧
      t.isSet (R.PTP_Pn_RAW p) F.PTP_Pn_RAW_CLAIM_BAD ∧
      t.g (R.PTP_Pn_CNT_MSG p) F.PTP_Pn_CNT_MSG_ANN_REJECTED = min (s.g (R.PTP_Pn_CNT_MSG p)
        F.PTP_Pn_CNT_MSG_ANN_REJECTED + 1) 65535 ∧
      s.sameBut t [R.PTP_Pn_CNT_MSG p, R.PTP_Pn_CNT_ERR p] ∧ s.sameParts t []) ∧
  (∀ (s : State) (p : Fin 24) (m : List Byte), s.inReset = false → s.running = true → s.consumes p m = true → msgOk
    11 m = false → Answers (exec (.announceRx p m) s) fun t =>
      t.g (R.PTP_Pn_CNT_ERR p) F.PTP_Pn_CNT_ERR_DISCARDED = min (s.g (R.PTP_Pn_CNT_ERR p) F.PTP_Pn_CNT_ERR_DISCARDED
        + 1) 65535 ∧
      s.sameBut t [R.PTP_Pn_CNT_ERR p] ∧ s.sameParts t []) ∧
  (∀ (s : State) (p : Fin 24) (m : List Byte), s.inReset = false → s.running = false ∨ s.consumes p m = false →
    Answers (exec (.announceRx p m) s) fun t =>
      s.sameBut t [] ∧ s.sameParts t []) ∧
  (∀ (s : State) (p : Fin 24) (m : List Byte) (x : StampIn), s.inReset = false → s.running = true → s.consumes p m =
    true → msgOk 0 m = false → Answers (exec (.syncRx p m x) s) fun t =>
      t.g (R.PTP_Pn_CNT_ERR p) F.PTP_Pn_CNT_ERR_DISCARDED = min (s.g (R.PTP_Pn_CNT_ERR p) F.PTP_Pn_CNT_ERR_DISCARDED
        + 1) 65535 ∧
      s.sameBut t [R.PTP_Pn_CNT_ERR p] ∧ s.sameParts t []) ∧
  (∀ (s : State) (p : Fin 24) (m : List Byte) (x : StampIn), s.inReset = false → s.running = false ∨ s.consumes p m =
    false → Answers (exec (.syncRx p m x) s) fun t =>
      s.sameBut t [] ∧ s.sameParts t []) ∧
  (∀ (s : State) (p : Fin 24) (m : List Byte), s.inReset = false → s.running = true → s.consumes p m = true → msgOk 8
    m = false → Answers (exec (.followUpRx p m) s) fun t =>
      t.g (R.PTP_Pn_CNT_ERR p) F.PTP_Pn_CNT_ERR_DISCARDED = min (s.g (R.PTP_Pn_CNT_ERR p) F.PTP_Pn_CNT_ERR_DISCARDED
        + 1) 65535 ∧
      s.sameBut t [R.PTP_Pn_CNT_ERR p] ∧ s.sameParts t []) ∧
  (∀ (s : State) (p : Fin 24) (m : List Byte), s.inReset = false → s.running = false ∨ s.consumes p m = false →
    Answers (exec (.followUpRx p m) s) fun t =>
      s.sameBut t [] ∧ s.sameParts t []) ∧
  (∀ (s : State) (p : Fin 24) (m : List Byte) (x : StampIn), s.inReset = false → s.running = true → s.consumes p m =
    true → msgOk 1 m = false → Answers (exec (.delayReqRx p m x) s) fun t =>
      t.g (R.PTP_Pn_CNT_ERR p) F.PTP_Pn_CNT_ERR_DISCARDED = min (s.g (R.PTP_Pn_CNT_ERR p) F.PTP_Pn_CNT_ERR_DISCARDED
        + 1) 65535 ∧
      s.sameBut t [R.PTP_Pn_CNT_ERR p] ∧ s.sameParts t []) ∧
  (∀ (s : State) (p : Fin 24) (m : List Byte) (x : StampIn), s.inReset = false → s.running = false ∨ s.consumes p m =
    false → Answers (exec (.delayReqRx p m x) s) fun t =>
      s.sameBut t [] ∧ s.sameParts t []) ∧
  (∀ (s : State) (p : Fin 24) (m : List Byte), s.inReset = false → s.running = true → s.consumes p m = true → msgOk 9
    m = false → Answers (exec (.delayRespRx p m) s) fun t =>
      t.g (R.PTP_Pn_CNT_ERR p) F.PTP_Pn_CNT_ERR_DISCARDED = min (s.g (R.PTP_Pn_CNT_ERR p) F.PTP_Pn_CNT_ERR_DISCARDED
        + 1) 65535 ∧
      s.sameBut t [R.PTP_Pn_CNT_ERR p] ∧ s.sameParts t []) ∧
  (∀ (s : State) (p : Fin 24) (m : List Byte), s.inReset = false → s.running = false ∨ s.consumes p m = false →
    Answers (exec (.delayRespRx p m) s) fun t =>
      s.sameBut t [] ∧ s.sameParts t []) ∧
  (∀ (s : State) (p : Fin 24) (m : List Byte) (x : StampIn), s.inReset = false → s.running = true → s.consumes p m =
    true → msgOk 2 m = false → Answers (exec (.pdelayReqRx p m x) s) fun t =>
      t.g (R.PTP_Pn_CNT_ERR p) F.PTP_Pn_CNT_ERR_DISCARDED = min (s.g (R.PTP_Pn_CNT_ERR p) F.PTP_Pn_CNT_ERR_DISCARDED
        + 1) 65535 ∧
      s.sameBut t [R.PTP_Pn_CNT_ERR p] ∧ s.sameParts t []) ∧
  (∀ (s : State) (p : Fin 24) (m : List Byte) (x : StampIn), s.inReset = false → s.running = false ∨ s.consumes p m =
    false → Answers (exec (.pdelayReqRx p m x) s) fun t =>
      s.sameBut t [] ∧ s.sameParts t []) ∧
  (∀ (s : State) (p : Fin 24) (m : List Byte) (x : StampIn), s.inReset = false → s.running = true → s.consumes p m =
    true → msgOk 3 m = false → Answers (exec (.pdelayRespRx p m x) s) fun t =>
      t.g (R.PTP_Pn_CNT_ERR p) F.PTP_Pn_CNT_ERR_DISCARDED = min (s.g (R.PTP_Pn_CNT_ERR p) F.PTP_Pn_CNT_ERR_DISCARDED
        + 1) 65535 ∧
      s.sameBut t [R.PTP_Pn_CNT_ERR p] ∧ s.sameParts t []) ∧
  (∀ (s : State) (p : Fin 24) (m : List Byte) (x : StampIn), s.inReset = false → s.running = false ∨ s.consumes p m =
    false → Answers (exec (.pdelayRespRx p m x) s) fun t =>
      s.sameBut t [] ∧ s.sameParts t []) ∧
  (∀ (s : State) (p : Fin 24) (m : List Byte), s.inReset = false → s.running = true → s.consumes p m = true → msgOk
    10 m = false → Answers (exec (.pdelayRespFollowUpRx p m) s) fun t =>
      t.g (R.PTP_Pn_CNT_ERR p) F.PTP_Pn_CNT_ERR_DISCARDED = min (s.g (R.PTP_Pn_CNT_ERR p) F.PTP_Pn_CNT_ERR_DISCARDED
        + 1) 65535 ∧
      s.sameBut t [R.PTP_Pn_CNT_ERR p] ∧ s.sameParts t []) ∧
  (∀ (s : State) (p : Fin 24) (m : List Byte), s.inReset = false → s.running = false ∨ s.consumes p m = false →
    Answers (exec (.pdelayRespFollowUpRx p m) s) fun t =>
      s.sameBut t [] ∧ s.sameParts t []) ∧
  (∀ (s : State) (p : Fin 24) (m : List Byte) (x : StampIn), s.inReset = false → s.running = true → s.consumes p m =
    true → msgOk 0 m = true → s.fromParent p m = true → msgTwoStep m = true → (s.pport p).wait = none → Answers (exec
    (.syncRx p m x) s) fun t =>
      (t.pport p).wait = some (⟨msgSeq m, s.rxStamp p x, msgCorr m, s.tsc.breaks, s.rxPhase p, s.pairI
        (R.PTS_LD_IN_LO p), s.remoteBad p m⟩ : SyncWait) ∧
      t.g (R.PTP_Pn_CNT_MSG p) F.PTP_Pn_CNT_MSG_SYNC_RX = min (s.g (R.PTP_Pn_CNT_MSG p) F.PTP_Pn_CNT_MSG_SYNC_RX + 1)
        65535 ∧
      s.sameBut t [R.PTP_Pn_CNT_MSG p] ∧ s.sameParts t [.ptp]) ∧
  (∀ (s : State) (p : Fin 24) (m : List Byte) (w : SyncWait), s.inReset = false → s.running = true → s.consumes p m =
    true → msgOk 8 m = true → s.fromParent p m = true → (s.pport p).wait = some w → w.seq = msgSeq m → s.g
    (R.PTS_STATUS p) F.PTS_STATUS_LD_VALID = 0 → Answers (exec (.followUpRx p m) s) fun t =>
      (t.pport p).wait = none ∧
      (t.pport p).syncs.head? = some (⟨tickOf (msgTime m) + BitVec.ofNat 64 (enc 64 (w.corr + msgCorr m)), w.t2,
        !(w.bad || s.remoteBad p m), w.breaks⟩ : SyncTimes) ∧
      t.g (R.PTP_Pn_CNT_ERR p) F.PTP_Pn_CNT_ERR_DISCARDED = min (s.g (R.PTP_Pn_CNT_ERR p) F.PTP_Pn_CNT_ERR_DISCARDED
        + 1) 65535 ∧
      t.isSet (R.PTP_Pn_RAW p) F.PTP_Pn_RAW_SAMPLE_DISCARD ∧ s.sameBut t [R.PTP_Pn_CNT_ERR p] ∧ s.sameParts t [.ptp]) ∧
  (∀ (s : State) (p : Fin 24) (w : SyncWait), s.inReset = false → (s.pport p).wait = some w → Answers (exec
    (.followUpTimeout p) s) fun t =>
      t.pport p = { s.pport p with wait := none } ∧
      t.g (R.PTP_Pn_CNT_ERR p) F.PTP_Pn_CNT_ERR_DISCARDED = min (s.g (R.PTP_Pn_CNT_ERR p) F.PTP_Pn_CNT_ERR_DISCARDED
        + 1) 65535 ∧
      t.isSet (R.PTP_Pn_RAW p) F.PTP_Pn_RAW_SAMPLE_DISCARD ∧ s.sameBut t [R.PTP_Pn_CNT_ERR p] ∧ s.sameParts t [.ptp]) ∧
  (∀ (s : State) (p : Fin 24) (m : List Byte) (x : StampIn), s.inReset = false → s.running = true → s.consumes p m =
    true → msgOk 0 m = true → s.fromParent p m = true → msgTwoStep m = false → (s.pport p).wait = none → s.ptpState p
    = ptpSlave → s.servoPort ≠ p → s.g (R.PTS_STATUS p) F.PTS_STATUS_LD_VALID = 1 → stampClean (s.rxStamp p x) = true
    → (t96Diff (s.rxStamp p x).t (msgTime m)).2 = false → ((t96Diff (s.rxStamp p x).t (msgTime m)).1 - (msgCorr m) -
    s.pairI (R.PTS_LD_IN_LO p)) = satS 64 ((t96Diff (s.rxStamp p x).t (msgTime m)).1 - (msgCorr m) - s.pairI
    (R.PTS_LD_IN_LO p)) → Answers (exec (.syncRx p m x) s) fun t =>
      (t.pport p).last = some s.tsc.tick ∧
      (t.pport p).syncs.head? = some (⟨tickOf (msgTime m) + BitVec.ofNat 64 (enc 64 (msgCorr m)), s.rxStamp p x,
        !(s.remoteBad p m), s.tsc.breaks⟩ : SyncTimes) ∧
      t.g (R.PTP_Pn_CNT_MSG p) F.PTP_Pn_CNT_MSG_SYNC_RX = min (s.g (R.PTP_Pn_CNT_MSG p) F.PTP_Pn_CNT_MSG_SYNC_RX + 1)
        65535 ∧
      s.sameBut t [R.PTP_Pn_CNT_MSG p] ∧ s.sameParts t [.ptp]) ∧
  (∀ (s : State) (p : Fin 24) (m : List Byte) (x : StampIn), s.inReset = false → s.running = true → s.consumes p m =
    true → msgOk 0 m = true → s.fromParent p m = true → msgTwoStep m = false → (s.pport p).wait = none → stampClean
    (s.rxStamp p x) = false ∨ s.g (R.PTS_STATUS p) F.PTS_STATUS_LD_VALID = 0 → Answers (exec (.syncRx p m x) s) fun t
    =>
      (t.pport p).last = (s.pport p).last ∧
      t.g (R.PTP_Pn_CNT_ERR p) F.PTP_Pn_CNT_ERR_DISCARDED = min (s.g (R.PTP_Pn_CNT_ERR p) F.PTP_Pn_CNT_ERR_DISCARDED
        + 1) 65535 ∧
      t.isSet (R.PTP_Pn_RAW p) F.PTP_Pn_RAW_SAMPLE_DISCARD ∧
      t.g (R.PTP_Pn_CNT_MSG p) F.PTP_Pn_CNT_MSG_SYNC_RX = min (s.g (R.PTP_Pn_CNT_MSG p) F.PTP_Pn_CNT_MSG_SYNC_RX + 1)
        65535 ∧
      s.sameBut t [R.PTP_Pn_CNT_MSG p, R.PTP_Pn_CNT_ERR p] ∧ s.sameParts t [.ptp]) ∧
  (∀ (s : State) (p : Fin 24) (m : List Byte) (x : StampIn) (w : SyncWait), s.inReset = false → s.running = true →
    s.consumes p m = true → msgOk 0 m = true → s.fromParent p m = true → msgTwoStep m = true → (s.pport p).wait =
    some w → Answers (exec (.syncRx p m x) s) fun t =>
      (t.pport p).wait.map (fun y : SyncWait => y.seq) = some (msgSeq m) ∧
      t.g (R.PTP_Pn_CNT_ERR p) F.PTP_Pn_CNT_ERR_DISCARDED = min (s.g (R.PTP_Pn_CNT_ERR p) F.PTP_Pn_CNT_ERR_DISCARDED
        + 1) 65535 ∧
      t.isSet (R.PTP_Pn_RAW p) F.PTP_Pn_RAW_SAMPLE_DISCARD ∧
      t.g (R.PTP_Pn_CNT_MSG p) F.PTP_Pn_CNT_MSG_SYNC_RX = min (s.g (R.PTP_Pn_CNT_MSG p) F.PTP_Pn_CNT_MSG_SYNC_RX + 1)
        65535 ∧
      s.sameBut t [R.PTP_Pn_CNT_MSG p, R.PTP_Pn_CNT_ERR p] ∧ s.sameParts t [.ptp]) ∧
  (∀ (s : State) (p : Fin 24) (m : List Byte) (x : StampIn), s.inReset = false → s.running = true → s.consumes p m =
    true → msgOk 0 m = true → s.fromParent p m = false → Answers (exec (.syncRx p m x) s) fun t =>
      t.g (R.PTP_Pn_CNT_MSG p) F.PTP_Pn_CNT_MSG_SYNC_RX = min (s.g (R.PTP_Pn_CNT_MSG p) F.PTP_Pn_CNT_MSG_SYNC_RX + 1)
        65535 ∧
      t.g (R.PTP_Pn_CNT_ERR p) F.PTP_Pn_CNT_ERR_DISCARDED = min (s.g (R.PTP_Pn_CNT_ERR p) F.PTP_Pn_CNT_ERR_DISCARDED
        + b2n (decide (s.ptpState p = ptpMaster))) 65535 ∧
      s.sameBut t [R.PTP_Pn_CNT_MSG p, R.PTP_Pn_CNT_ERR p] ∧ s.sameParts t []) ∧
  (∀ (s : State) (p : Fin 24) (m : List Byte) (w : SyncWait), s.inReset = false → s.running = true → s.consumes p m =
    true → msgOk 8 m = true → s.fromParent p m = true → (s.pport p).wait = some w → w.seq = msgSeq m → w.breaks =
    s.tsc.breaks → stampClean w.t2 = true → s.ptpState p = ptpSlave → s.servoPort ≠ p → s.g (R.PTS_STATUS p)
    F.PTS_STATUS_LD_VALID = 1 → (t96Diff w.t2.t (msgTime m)).2 = false → ((t96Diff w.t2.t (msgTime m)).1 - (w.corr +
    msgCorr m) - s.pairI (R.PTS_LD_IN_LO p)) = satS 64 ((t96Diff w.t2.t (msgTime m)).1 - (w.corr + msgCorr m) -
    s.pairI (R.PTS_LD_IN_LO p)) → Answers (exec (.followUpRx p m) s) fun t =>
      (t.pport p).wait = none ∧ (t.pport p).last = some s.tsc.tick ∧
      (t.pport p).syncs.head? = some (⟨tickOf (msgTime m) + BitVec.ofNat 64 (enc 64 (w.corr + msgCorr m)), w.t2,
        !(w.bad || s.remoteBad p m), w.breaks⟩ : SyncTimes) ∧
      s.sameBut t [] ∧ s.sameParts t [.ptp]) ∧
  (∀ (s : State) (p : Fin 24) (m : List Byte), s.inReset = false → s.running = true → s.consumes p m = true → msgOk 8
    m = true → s.fromParent p m = true → (s.pport p).wait.all (fun w : SyncWait => decide (w.seq ≠ msgSeq m)) = true
    → Answers (exec (.followUpRx p m) s) fun t =>
      s.sameBut t [] ∧ s.sameParts t []) ∧
  (∀ (s : State) (p : Fin 24) (m : List Byte), s.inReset = false → s.running = true → s.consumes p m = true → msgOk 8
    m = true → s.fromParent p m = false → Answers (exec (.followUpRx p m) s) fun t =>
      t.g (R.PTP_Pn_CNT_ERR p) F.PTP_Pn_CNT_ERR_DISCARDED = min (s.g (R.PTP_Pn_CNT_ERR p) F.PTP_Pn_CNT_ERR_DISCARDED
        + b2n (decide (s.ptpState p = ptpMaster))) 65535 ∧
      s.sameBut t [R.PTP_Pn_CNT_ERR p] ∧ s.sameParts t []) ∧
  (∀ (s : State) (p : Fin 24) , s.inReset = false → (s.pport p).wait = none → Answers (exec (.followUpTimeout p) s)
    fun t =>
      s.sameBut t [] ∧ s.sameParts t [])

/-- R207 and R217: a Delay_Req on a MASTER port and a Pdelay_Req on a port with peer delay are kept for their
answers; a matching response completes the exchange, which is discarded and counted where its stamps are unusable; a
two-step Pdelay_Resp waits for its follow-up. Where the spec is silent it rests on the choices of the model in log
entries 3, 20, 21 and 38. -/
def Obligations.PtpDelayMessages : Prop :=
  (∀ (s : State) (p : Fin 24) (m : List Byte) (x : StampIn), s.inReset = false → s.running = true → s.consumes p m =
    true → msgOk 1 m = true → s.ptpState p = ptpMaster → Answers (exec (.delayReqRx p m x) s) fun t =>
      t.pport p =
        { s.pport p with dresp := (s.pport p).dresp ++ [(⟨msgSeq m, msgSource m, msgCorr m, s.rxStamp p x⟩ : RespWait)] }
        ∧
      s.sameBut t [] ∧ s.sameParts t [.ptp]) ∧
  (∀ (s : State) (p : Fin 24) (m : List Byte) (x : StampIn), s.inReset = false → s.running = true → s.consumes p m =
    true → msgOk 2 m = true → s.ptpSends p = true → s.pcfg p F.PTP_Pn_CFG_DELAY_MECH = 1 → Answers (exec
    (.pdelayReqRx p m x) s) fun t =>
      t.pport p =
        { s.pport p with pdresp := (s.pport p).pdresp ++ [(⟨msgSeq m, msgSource m, msgCorr m, s.rxStamp p x⟩ : RespWait)] }
        ∧
      s.sameBut t [] ∧ s.sameParts t [.ptp]) ∧
  (∀ (s : State) (p : Fin 24) (m : List Byte) (w : DelayWait) (y : SyncTimes), s.inReset = false → s.running = true →
    s.consumes p m = true → msgOk 9 m = true → 4 ≤ s.ptpState p → (s.pport p).dreq = some w → msgRequester m =
    s.portIdent p → msgSeq m = w.seq → (s.ptpState p = ptpSlave → s.g (R.PTS_STATUS p) F.PTS_STATUS_LD_VALID = 1) →
    (s.pport p).syncs.find? (fun y => decide (0 < tickDiff (tickOf w.t3.t) (tickOf y.t2.t))) = some y → (y.usable &&
    stampClean y.t2 && stampClean w.t3 && y.breaks == w.breaks && !(s.remoteBad p m)) = false → Answers (exec
    (.delayRespRx p m) s) fun t =>
      t.pport p = { s.pport p with dreq := none } ∧
      t.g (R.PTS_LD_CNT p) F.PTS_LD_CNT_DISCARDS = min (s.g (R.PTS_LD_CNT p) F.PTS_LD_CNT_DISCARDS + 1) 65535 ∧
      s.sameBut t [R.PTS_LD_CNT p] ∧ s.sameParts t [.ptp]) ∧
  (∀ (s : State) (p : Fin 24) (m : List Byte) (w : DelayWait) (y : SyncTimes), s.inReset = false → s.running = true →
    s.consumes p m = true → msgOk 9 m = true → 4 ≤ s.ptpState p → (s.pport p).dreq = some w → msgRequester m =
    s.portIdent p → msgSeq m = w.seq → (s.pport p).syncs.find? (fun y => decide (0 < tickDiff (tickOf w.t3.t) (tickOf
    y.t2.t))) = some y → (y.usable && stampClean y.t2 && stampClean w.t3 && y.breaks == w.breaks && !(s.remoteBad p
    m)) = true → (s.ptsOf p).ld = [] → s.g (R.PTS_STATUS p) F.PTS_STATUS_LD_VALID = 0 → Answers (exec (.delayRespRx p
    m) s) fun t =>
      (t.pport p).dreq = none ∧
      (t.ptsOf p).ld = [(tickDiff (tickOf (msgTime m) - BitVec.ofNat 64 (enc 64 (msgCorr m))) y.t1 - tickDiff (tickOf
        w.t3.t) (tickOf y.t2.t) + 1) / 2]) ∧
  (∀ (s : State) (p : Fin 24) (m : List Byte) (w : DelayWait), s.inReset = false → s.running = true → s.consumes p m
    = true → msgOk 9 m = true → 4 ≤ s.ptpState p → (s.pport p).dreq = some w → msgRequester m = s.portIdent p →
    msgSeq m = w.seq → (s.pport p).syncs.find? (fun y => decide (0 < tickDiff (tickOf w.t3.t) (tickOf y.t2.t))) =
    none → Answers (exec (.delayRespRx p m) s) fun t =>
      t.pport p = { s.pport p with dreq := none } ∧ s.sameBut t [] ∧ s.sameParts t [.ptp]) ∧
  (∀ (s : State) (p : Fin 24) (m : List Byte) (w : DelayWait), s.inReset = false → s.running = true → s.consumes p m
    = true → msgOk 9 m = true → 4 ≤ s.ptpState p → (s.pport p).dreq = some w → msgRequester m ≠ s.portIdent p ∨
    msgSeq m ≠ w.seq → Answers (exec (.delayRespRx p m) s) fun t =>
      t.g (R.PTP_Pn_CNT_ERR p) F.PTP_Pn_CNT_ERR_DISCARDED = min (s.g (R.PTP_Pn_CNT_ERR p) F.PTP_Pn_CNT_ERR_DISCARDED
        + 1) 65535 ∧
      s.sameBut t [R.PTP_Pn_CNT_ERR p] ∧ s.sameParts t []) ∧
  (∀ (s : State) (p : Fin 24) (m : List Byte), s.inReset = false → s.running = true → s.consumes p m = true → msgOk 9
    m = true → 4 ≤ s.ptpState p → (s.pport p).dreq = none → Answers (exec (.delayRespRx p m) s) fun t =>
      t.g (R.PTP_Pn_CNT_ERR p) F.PTP_Pn_CNT_ERR_DISCARDED = min (s.g (R.PTP_Pn_CNT_ERR p) F.PTP_Pn_CNT_ERR_DISCARDED
        + 1) 65535 ∧
      s.sameBut t [R.PTP_Pn_CNT_ERR p] ∧ s.sameParts t []) ∧
  (∀ (s : State) (p : Fin 24) (m : List Byte), s.inReset = false → s.running = true → s.consumes p m = true → msgOk 9
    m = true → s.ptpState p < 4 → Answers (exec (.delayRespRx p m) s) fun t =>
      s.sameBut t [] ∧ s.sameParts t []) ∧
  (∀ (s : State) (p : Fin 24) (m : List Byte) (x : StampIn), s.inReset = false → s.running = true → s.consumes p m =
    true → msgOk 1 m = true → s.ptpState p ≠ ptpMaster → Answers (exec (.delayReqRx p m x) s) fun t =>
      s.sameBut t [] ∧ s.sameParts t []) ∧
  (∀ (s : State) (p : Fin 24) (m : List Byte) (x : StampIn), s.inReset = false → s.running = true → s.consumes p m =
    true → msgOk 2 m = true → s.ptpSends p = false ∨ s.pcfg p F.PTP_Pn_CFG_DELAY_MECH ≠ 1 → Answers (exec
    (.pdelayReqRx p m x) s) fun t =>
      s.sameBut t [] ∧ s.sameParts t []) ∧
  (∀ (s : State) (p : Fin 24) (m : List Byte) (x : StampIn) (w : PdelayWait), s.inReset = false → s.running = true →
    s.consumes p m = true → msgOk 3 m = true → s.ptpSends p = true → msgRequester m = s.portIdent p → (s.pport
    p).pdreq = some w → msgSeq m = w.seq → w.resp = none → msgTwoStep m = true → Answers (exec (.pdelayRespRx p m x)
    s) fun t =>
      (t.pport p).pdreq = some
        { w with resp := some (s.rxStamp p x, tickOf (msgTime m) - BitVec.ofNat 64 (enc 64 (msgCorr m)), s.remoteBad p m || w.breaks != s.tsc.breaks), breaks := s.tsc.breaks }
        ∧
      s.sameBut t [] ∧ s.sameParts t [.ptp]) ∧
  (∀ (s : State) (p : Fin 24) (m : List Byte) (w : PdelayWait) (t4 : Stamp) (t2 : Tick64), s.inReset = false →
    s.running = true → s.consumes p m = true → msgOk 10 m = true → s.ptpSends p = true → msgRequester m = s.portIdent
    p → (s.pport p).pdreq = some w → msgSeq m = w.seq → w.resp = some (t4, t2, true) → (s.ptpState p = ptpSlave → s.g
    (R.PTS_STATUS p) F.PTS_STATUS_LD_VALID = 1) → Answers (exec (.pdelayRespFollowUpRx p m) s) fun t =>
      t.pport p = { s.pport p with pdreq := none } ∧
      t.g (R.PTS_LD_CNT p) F.PTS_LD_CNT_DISCARDS = min (s.g (R.PTS_LD_CNT p) F.PTS_LD_CNT_DISCARDS + 1) 65535 ∧
      s.sameBut t [R.PTS_LD_CNT p] ∧ s.sameParts t [.ptp]) ∧
  (∀ (s : State) (p : Fin 24) (m : List Byte) (w : PdelayWait) (t4 : Stamp) (t2 : Tick64), s.inReset = false →
    s.running = true → s.consumes p m = true → msgOk 10 m = true → s.ptpSends p = true → msgRequester m = s.portIdent
    p → (s.pport p).pdreq = some w → msgSeq m = w.seq → w.resp = some (t4, t2, false) → s.remoteBad p m = false →
    stampClean t4 = true → (s.ptsOf p).ld = [] → s.g (R.PTS_STATUS p) F.PTS_STATUS_LD_VALID = 0 → stampClean w.t1 =
    true → Answers (exec (.pdelayRespFollowUpRx p m) s) fun t =>
      (t.pport p).pdreq = none ∧
      (t.ptsOf p).ld = [(tickDiff (tickOf t4.t) (tickOf w.t1.t) - tickDiff (tickOf (msgTime m) + BitVec.ofNat 64 (enc
        64 (msgCorr m)) - t2) 0 + 1) / 2]) ∧
  (∀ (s : State) (p : Fin 24) (m : List Byte) (x : StampIn) (w : PdelayWait), s.inReset = false → s.running = true →
    s.consumes p m = true → msgOk 3 m = true → s.ptpSends p = true → msgRequester m = s.portIdent p → (s.pport
    p).pdreq = some w → msgSeq m = w.seq → w.resp = none → msgTwoStep m = false → w.breaks = s.tsc.breaks →
    s.remoteBad p m = false → stampClean (s.rxStamp p x) = true → (s.ptsOf p).ld = [] → s.g (R.PTS_STATUS p)
    F.PTS_STATUS_LD_VALID = 0 → stampClean w.t1 = true → Answers (exec (.pdelayRespRx p m x) s) fun t =>
      (t.pport p).pdreq = none ∧
      (t.ptsOf p).ld = [(tickDiff (tickOf (s.rxStamp p x).t) (tickOf w.t1.t) - tickDiff (BitVec.ofNat 64 (enc 64
        (msgCorr m))) 0 + 1) / 2]) ∧
  (∀ (s : State) (p : Fin 24) (m : List Byte) (x : StampIn) (w : PdelayWait), s.inReset = false → s.running = true →
    s.consumes p m = true → msgOk 3 m = true → s.ptpSends p = true → msgRequester m = s.portIdent p → (s.pport
    p).pdreq = some w → msgSeq m = w.seq → w.resp = none → msgTwoStep m = false → w.breaks ≠ s.tsc.breaks ∨
    s.remoteBad p m = true ∨ stampClean w.t1 = false → (s.ptpState p = ptpSlave → s.g (R.PTS_STATUS p)
    F.PTS_STATUS_LD_VALID = 1) → Answers (exec (.pdelayRespRx p m x) s) fun t =>
      t.pport p = { s.pport p with pdreq := none } ∧
      t.g (R.PTS_LD_CNT p) F.PTS_LD_CNT_DISCARDS = min (s.g (R.PTS_LD_CNT p) F.PTS_LD_CNT_DISCARDS + 1) 65535 ∧
      s.sameBut t [R.PTS_LD_CNT p] ∧ s.sameParts t [.ptp]) ∧
  (∀ (s : State) (p : Fin 24) (m : List Byte) (x : StampIn), s.inReset = false → s.running = true → s.consumes p m =
    true → msgOk 3 m = true → (s.pport p).pdreq.all (fun w : PdelayWait => decide (msgSeq m ≠ w.seq)) = true →
    Answers (exec (.pdelayRespRx p m x) s) fun t =>
      s.sameBut t [] ∧ s.sameParts t []) ∧
  (∀ (s : State) (p : Fin 24) (m : List Byte), s.inReset = false → s.running = true → s.consumes p m = true → msgOk
    10 m = true → (s.pport p).pdreq.all (fun w : PdelayWait => decide (msgSeq m ≠ w.seq ∨ w.resp = none)) = true →
    Answers (exec (.pdelayRespFollowUpRx p m) s) fun t =>
      s.sameBut t [] ∧ s.sameParts t [])

/-- R206, R207, R209 and R213: a MASTER port sends Sync (two-step: its Follow_Up waits with the departure stamp) and
Announce, the waiting Follow_Up, Delay_Resp and Pdelay_Resp leave with the stored stamps, and a following port sends
Delay_Req and Pdelay_Req and keeps their departure stamps; each uses up a sequence number of its type. Where the spec
is silent it rests on the choices of the model in log entries 3, 20, 21 and 38. -/
def Obligations.PtpSending : Prop :=
  (∀ (s : State) (p : Fin 24) (x : StampIn), s.inReset = false → s.ptpSends p = true → s.ptpState p = ptpMaster →
    s.pcfg p F.PTP_Pn_CFG_TWO_STEP = 1 → Answers (exec (.syncTx p x) s) fun t =>
      (t.pport p).follow = (s.pport p).follow ++ [(⟨false, s.nextSeq p 0, 0, 0, s.txStamp p x⟩ : FollowWait)] ∧
      t.nextSeq p 0 = (s.nextSeq p 0 + 1) % 65536 ∧
      s.emits t (.frame p (withFcs (s.ptpFrame p (s.message p 0 0x0200 0 (s.nextSeq p 0) (s.g (R.PTP_Pn_INTV p)
        F.PTP_Pn_INTV_LOG_SYNC) (beBytes 10 0))))) ∧
      s.sameBut t [] ∧ s.sameParts t [.ptp]) ∧
  (∀ (s : State) (p : Fin 24) (x : StampIn), s.inReset = false → s.ptpSends p = true → s.ptpState p = ptpMaster →
    s.pcfg p F.PTP_Pn_CFG_TWO_STEP = 0 → s.pcfg p F.PTP_Pn_CFG_TRANSPORT = 0 → s.isSet (R.PTS_CFG p)
    F.PTS_CFG_ONESTEP_EN → Answers (exec (.syncTx p x) s) fun t =>
      t.nextSeq p 0 = (s.nextSeq p 0 + 1) % 65536 ∧ (t.pport p).follow = (s.pport p).follow ∧
      s.emits t (.frame p ((stepInsert ⟨.stamp (s.ptpAt p + 34), s.ptpAt p + 8, none⟩ (s.ptpFrame p (s.message p 0 0
        0 (s.nextSeq p 0) (s.g (R.PTP_Pn_INTV p) F.PTP_Pn_INTV_LOG_SYNC) (beBytes 10 0))) (s.txStamp p x).t) ++
        leBytes 4 (carryFcs (fcsOf (s.ptpFrame p (s.message p 0 0 0 (s.nextSeq p 0) (s.g (R.PTP_Pn_INTV p)
        F.PTP_Pn_INTV_LOG_SYNC) (beBytes 10 0)))) (s.ptpFrame p (s.message p 0 0 0 (s.nextSeq p 0) (s.g
        (R.PTP_Pn_INTV p) F.PTP_Pn_INTV_LOG_SYNC) (beBytes 10 0))) (stepInsert ⟨.stamp (s.ptpAt p + 34), s.ptpAt p +
        8, none⟩ (s.ptpFrame p (s.message p 0 0 0 (s.nextSeq p 0) (s.g (R.PTP_Pn_INTV p) F.PTP_Pn_INTV_LOG_SYNC)
        (beBytes 10 0))) (s.txStamp p x).t)))) ∧
      t.g (R.PTS_ONESTEP_CNT p) F.PTS_ONESTEP_CNT_INSERTED = min (s.g (R.PTS_ONESTEP_CNT p)
        F.PTS_ONESTEP_CNT_INSERTED + 1) 65535 ∧
      s.sameBut t [R.PTS_ONESTEP_CNT p] ∧ s.sameParts t [.ptp]) ∧
  (∀ (s : State) (p : Fin 24) , s.inReset = false → s.ptpSends p = true → s.ptpState p = ptpMaster → Answers (exec
    (.announceTx p) s) fun t =>
      t.nextSeq p 11 = (s.nextSeq p 11 + 1) % 65536 ∧ s.emits t (.frame p (withFcs (s.ptpFrame p (s.announce p)))) ∧
      s.sameBut t [] ∧ s.sameParts t [.ptp]) ∧
  (∀ (s : State), s.inReset = false → s.ptpSends 3 = true → s.ptpState 3 = ptpMaster → (s.pport 3).told ≠ (s.reg
    R.RUT_CLAIM).toNat → (∀ n : Fin 24, n ≠ 3 → s.ptpState n ≠ ptpMaster) → Answers (exec (.claimAnnounce) s) fun t =>
      t.nextSeq 3 11 = (s.nextSeq 3 11 + 1) % 65536 ∧ s.emits t (.frame 3 (withFcs (s.ptpFrame 3 (s.announce 3)))) ∧
      s.sameBut t [] ∧ s.sameParts t [.ptp]) ∧
  (∀ (s : State) (p : Fin 24) (f : FollowWait) (l : List FollowWait), s.inReset = false → s.ptpSends p = true →
    (s.pport p).follow = f :: l → f.pdelay = false → Answers (exec (.followUpTx p) s) fun t =>
      t.pport p = { s.pport p with follow := l } ∧
      s.emits t (.frame p (withFcs (s.ptpFrame p (s.message p 8 0 (f.corr + tFrac f.t.t) f.seq (s.g (R.PTP_Pn_INTV p)
        F.PTP_Pn_INTV_LOG_SYNC) (stampBytes f.t.t))))) ∧
      s.sameBut t [] ∧ s.sameParts t [.ptp]) ∧
  (∀ (s : State) (p : Fin 24) (f : FollowWait) (l : List FollowWait), s.inReset = false → s.ptpSends p = true →
    (s.pport p).follow = f :: l → f.pdelay = true → Answers (exec (.followUpTx p) s) fun t =>
      t.pport p = { s.pport p with follow := l } ∧
      s.emits t (.frame p (withFcs (s.ptpFrame p (s.message p 10 0 (f.corr + tFrac f.t.t) f.seq 0x7F (stampBytes
        f.t.t ++ beBytes 10 f.ident))))) ∧
      s.sameBut t [] ∧ s.sameParts t [.ptp]) ∧
  (∀ (s : State) (p : Fin 24) (r : RespWait) (l : List RespWait), s.inReset = false → s.ptpSends p = true → (s.pport
    p).dresp = r :: l → Answers (exec (.delayRespTx p) s) fun t =>
      t.pport p = { s.pport p with dresp := l } ∧
      s.emits t (.frame p (withFcs (s.ptpFrame p (s.message p 9 0 (r.corr - tFrac r.t.t) r.seq (s.g (R.PTP_Pn_INTV p)
        F.PTP_Pn_INTV_LOG_DELAY) (stampBytes r.t.t ++ beBytes 10 r.ident))))) ∧
      s.sameBut t [] ∧ s.sameParts t [.ptp]) ∧
  (∀ (s : State) (p : Fin 24) (x : StampIn) (r : RespWait) (l : List RespWait), s.inReset = false → s.ptpSends p =
    true → (s.pport p).pdresp = r :: l → s.pcfg p F.PTP_Pn_CFG_TWO_STEP = 1 → Answers (exec (.pdelayRespTx p x) s)
    fun t =>
      t.pport p =
        { s.pport p with pdresp := l, follow := (s.pport p).follow ++ [(⟨true, r.seq, r.ident, r.corr, s.txStamp p x⟩ : FollowWait)] }
        ∧
      s.emits t (.frame p (withFcs (s.ptpFrame p (s.message p 3 0x0200 (-(tFrac r.t.t : Int)) r.seq 0x7F (stampBytes
        r.t.t ++ beBytes 10 r.ident))))) ∧
      s.sameBut t [] ∧ s.sameParts t [.ptp]) ∧
  (∀ (s : State) (p : Fin 24) (x : StampIn), s.inReset = false → s.ptpSends p = true → s.pcfg p F.PTP_Pn_CFG_ROLE = 2
    → s.pcfg p F.PTP_Pn_CFG_DELAY_MECH = 0 → Answers (exec (.delayReqTx p x) s) fun t =>
      (t.pport p).dreq = some (⟨s.nextSeq p 1, s.txStamp p x, s.tsc.breaks⟩ : DelayWait) ∧
      (t.pport p).syncs = (s.pport p).syncs.take 1 ∧ t.nextSeq p 1 = (s.nextSeq p 1 + 1) % 65536 ∧
      s.emits t (.frame p (withFcs (s.ptpFrame p (s.message p 1 0 0 (s.nextSeq p 1) 0x7F (beBytes 10 0))))) ∧
      s.sameBut t [] ∧ s.sameParts t [.ptp]) ∧
  (∀ (s : State) (p : Fin 24) (x : StampIn), s.inReset = false → s.ptpSends p = true → s.pcfg p
    F.PTP_Pn_CFG_DELAY_MECH = 1 → Answers (exec (.pdelayReqTx p x) s) fun t =>
      (t.pport p).pdreq = some (⟨s.nextSeq p 2, s.txStamp p x, s.tsc.breaks, none⟩ : PdelayWait) ∧
      t.nextSeq p 2 = (s.nextSeq p 2 + 1) % 65536 ∧
      s.emits t (.frame p (withFcs (s.ptpFrame p (s.message p 2 0 0 (s.nextSeq p 2) 0x7F (beBytes 20 0))))) ∧
      s.sameBut t [] ∧ s.sameParts t [.ptp]) ∧
  (∀ (s : State), s.inReset = false → Answers (exec (.claimAnnounce) s) fun t =>
      (∀ n : Fin 24, t.nextSeq n 11 = (if decide (s.ptpSends n = true ∧ s.ptpState n = ptpMaster ∧ (s.pport n).told ≠
        (s.reg R.RUT_CLAIM).toNat) = true then (s.nextSeq n 11 + 1) % 65536 else s.nextSeq n 11)) ∧
      (∀ n : Fin 24, (t.pport n).told = (if decide (s.ptpSends n = true ∧ s.ptpState n = ptpMaster ∧ (s.pport n).told
        ≠ (s.reg R.RUT_CLAIM).toNat) = true then (s.reg R.RUT_CLAIM).toNat else (s.pport n).told)) ∧
      s.out ++ ((List.range 24).filter (fun n : Nat => decide (s.ptpSends n = true ∧ s.ptpState n = ptpMaster ∧
        (s.pport n).told ≠ (s.reg R.RUT_CLAIM).toNat))).map (fun n : Nat => Out.frame n (withFcs (s.ptpFrame n
        (s.announce n)))) <+: t.out ∧
      s.sameBut t [] ∧ s.sameParts t [.ptp]) ∧
  (∀ (s : State) (p : Fin 24) (x : StampIn) (r : RespWait) (l : List RespWait), s.inReset = false → s.ptpSends p =
    true → (s.pport p).pdresp = r :: l → s.pcfg p F.PTP_Pn_CFG_TWO_STEP = 0 → s.pcfg p F.PTP_Pn_CFG_TRANSPORT = 0 →
    s.isSet (R.PTS_CFG p) F.PTS_CFG_ONESTEP_EN → Answers (exec (.pdelayRespTx p x) s) fun t =>
      t.pport p = { s.pport p with pdresp := l } ∧
      s.emits t (.frame p ((stepInsert ⟨.residence (tickOf r.t.t), s.ptpAt p + 8, none⟩ (s.ptpFrame p (s.message p 3
        0 r.corr r.seq 0x7F (beBytes 10 0 ++ beBytes 10 r.ident))) (s.txStamp p x).t) ++ leBytes 4 (carryFcs (fcsOf
        (s.ptpFrame p (s.message p 3 0 r.corr r.seq 0x7F (beBytes 10 0 ++ beBytes 10 r.ident)))) (s.ptpFrame p
        (s.message p 3 0 r.corr r.seq 0x7F (beBytes 10 0 ++ beBytes 10 r.ident))) (stepInsert ⟨.residence (tickOf
        r.t.t), s.ptpAt p + 8, none⟩ (s.ptpFrame p (s.message p 3 0 r.corr r.seq 0x7F (beBytes 10 0 ++ beBytes 10
        r.ident))) (s.txStamp p x).t)))) ∧
      t.g (R.PTS_ONESTEP_CNT p) F.PTS_ONESTEP_CNT_INSERTED = min (s.g (R.PTS_ONESTEP_CNT p)
        F.PTS_ONESTEP_CNT_INSERTED + 1) 65535 ∧
      s.sameBut t [R.PTS_ONESTEP_CNT p] ∧ s.sameParts t [.ptp]) ∧
  (∀ (s : State) (p : Fin 24) (x : StampIn), s.inReset = false → s.ptpSends p = false ∨ s.ptpState p ≠ ptpMaster →
    Answers (exec (.syncTx p x) s) fun t =>
      s.sameBut t [] ∧ s.sameParts t []) ∧
  (∀ (s : State) (p : Fin 24) , s.inReset = false → s.ptpSends p = false ∨ s.ptpState p ≠ ptpMaster → Answers (exec
    (.announceTx p) s) fun t =>
      s.sameBut t [] ∧ s.sameParts t []) ∧
  (∀ (s : State) (p : Fin 24) (x : StampIn), s.inReset = false → s.ptpSends p = false ∨ s.pcfg p F.PTP_Pn_CFG_ROLE ≠
    2 ∨ s.pcfg p F.PTP_Pn_CFG_DELAY_MECH ≠ 0 → Answers (exec (.delayReqTx p x) s) fun t =>
      s.sameBut t [] ∧ s.sameParts t []) ∧
  (∀ (s : State) (p : Fin 24) (x : StampIn), s.inReset = false → s.ptpSends p = false ∨ s.pcfg p
    F.PTP_Pn_CFG_DELAY_MECH ≠ 1 → Answers (exec (.pdelayReqTx p x) s) fun t =>
      s.sameBut t [] ∧ s.sameParts t []) ∧
  (∀ (s : State) (p : Fin 24) , s.inReset = false → s.ptpSends p = false ∨ (s.pport p).follow = [] → Answers (exec
    (.followUpTx p) s) fun t =>
      s.sameBut t [] ∧ s.sameParts t []) ∧
  (∀ (s : State) (p : Fin 24) , s.inReset = false → s.ptpSends p = false ∨ (s.pport p).dresp = [] → Answers (exec
    (.delayRespTx p) s) fun t =>
      s.sameBut t [] ∧ s.sameParts t []) ∧
  (∀ (s : State) (p : Fin 24) (x : StampIn), s.inReset = false → s.ptpSends p = false ∨ (s.pport p).pdresp = [] →
    Answers (exec (.pdelayRespTx p x) s) fun t =>
      s.sameBut t [] ∧ s.sameParts t [])

/-- R219, R221 and R223: a lapsed offset is no longer valid and the servo is IDLE; a TRACK servo without samples
freezes at the RATE of its integrator; a tight tick forms the offset from the phase. Where the spec is silent it
rests on the choices of the model in log entries 3, 20, 21 and 38. -/
def Obligations.PtpServo : Prop :=
  (∀ (s : State), s.inReset = false → s.ptpValid = true → Answers (exec (.validOffsetLapse) s) fun t =>
      t.ptpValid = false ∧ t.servo = servoIdle ∧ t.isSet R.PTP_RAW F.PTP_RAW_VALID_LOST ∧
      t.ptp = { s.ptp with first := none, ports := t.ptp.ports } ∧
      (∀ n : Fin 24, t.pport n = { s.pport n with last := if n.val = s.servoPort then none else (s.pport n).last }) ∧
      s.sameBut t [R.PTP_STATUS] ∧ s.sameParts t [.ptp]) ∧
  (∀ (s : State), s.inReset = false → s.servo = servoTrack → Answers (exec (.servoFreeze) s) fun t =>
      t.servo = servoFrozen ∧ t.pair R.PTP_RATE_LO = enc 64 (rateOf s.ptp.integ) ∧
      t.isSet R.PTP_RAW F.PTP_RAW_FROZEN ∧ s.sameBut t [R.PTP_STATUS, R.PTP_RATE_LO, R.PTP_RATE_HI] ∧
      s.sameParts t [.tsc]) ∧
  (∀ (s : State), s.inReset = false → s.servoTight = true → s.ptp.based = true → s.servo = servoTrack → Answers (exec
    (.tightServoTick) s) fun t =>
      t.pair R.PTP_OFFSET_LO = enc 64 (satS 64 (s.ptp.oRef + (s.rxPhase s.servoPort - s.ptp.pRef) - (s.pairI
        (R.PTS_LD_IN_LO s.servoPort) - s.ptp.dRef))) ∧
      s.sameBut t [R.PTP_OFFSET_LO, R.PTP_OFFSET_HI, R.PTP_RATE_LO, R.PTP_RATE_HI] ∧ s.sameParts t [.tsc, .ptp]) ∧
  (∀ (s : State), s.inReset = false → s.servoTight = false ∨ s.ptp.based = false ∨ s.servo ≠ servoTrack → Answers
    (exec (.tightServoTick) s) fun t =>
      s.sameBut t [] ∧ s.sameParts t []) ∧
  (∀ (s : State), s.inReset = false → s.servo ≠ servoTrack → Answers (exec (.servoFreeze) s) fun t =>
      s.sameBut t [] ∧ s.sameParts t []) ∧
  (∀ (s : State), s.inReset = false → s.ptpValid = false → Answers (exec (.validOffsetLapse) s) fun t =>
      (∀ n : Fin 24, t.pport n = { s.pport n with last := if n.val = s.servoPort then none else (s.pport n).last }) ∧
      s.sameBut t [] ∧ s.sameParts t [.ptp])

/-- R97 to R99: a frequency more than 5 % off clears FREQ_OK and OSC_READY and raises OSC_FREQ_ERR with fault code
0x01; a frequency back in range, the OSC_WARM pin and the configuration form OSC_READY anew; ten gates within 1000
units or the warm-up timeout judge the oscillator warm. R102 to R104: a divided edge is stamped, or lost within 3.2
ns of the previous one and counted as overrun; an input that keeps its level is stuck and its candidate rejected; an
interval with too many lost edges disables the input when configured; REARM of a disabled input enables it again.
Where the spec is silent it rests on the choices of the model in log entries 3, 13 and 14. -/
def Obligations.OscillatorAndReferenceInputs : Prop :=
  (∀ (s : State) (khz : Nat), s.inReset = false → s.ref.oscBad = false → s.hif.fq.length < 32 → Answers (exec
    (.oscFreqMismatch khz) s) fun t =>
      t.g R.REF_OSC_STATUS F.REF_OSC_STATUS_FREQ_OK = 0 ∧ t.g R.REF_STATUS F.REF_STATUS_OSC_READY = 0 ∧
      t.ref.oscBad = true ∧ t.isSet R.REF_RAW F.REF_RAW_OSC_FREQ_ERR ∧
      (∃ f ∈ t.hif.fq, f.block = 3 ∧ f.code = 1 ∧ f.detail = s.g R.REF_OSC_CFG F.REF_OSC_CFG_FREQ ∧ f.param = khz % 2
        ^ 32) ∧
      s.sameBut t ((List.range 30).map (fun k => R.REF_CANDk_STATUS k) ++ [R.REF_OSC_STATUS, R.REF_STATUS]) ∧
      s.sameParts t [.ref, .conds]) ∧
  (∀ (s : State), s.inReset = false → Answers (exec (.oscFreqOkRestored) s) fun t =>
      t.g R.REF_OSC_STATUS F.REF_OSC_STATUS_FREQ_OK = 1 ∧ t.ref.oscBad = false ∧
      t.g R.REF_STATUS F.REF_STATUS_OSC_READY = b2n ((s.on R.REF_OSC_STATUS F.REF_OSC_STATUS_PIN || s.on
        R.REF_OSC_CFG F.REF_OSC_CFG_MASK_PIN) && (s.on R.REF_OSC_STATUS F.REF_OSC_STATUS_SELF_WARM || s.on
        R.REF_OSC_CFG F.REF_OSC_CFG_MASK_SELF) && true) ∧
      s.sameBut t ((List.range 30).map (fun k => R.REF_CANDk_STATUS k) ++ [R.REF_OSC_STATUS, R.REF_STATUS]) ∧
      s.sameParts t [.ref, .conds]) ∧
  (∀ (s : State) (b : Bool), s.inReset = false → Answers (exec (.oscWarmChange b) s) fun t =>
      t.g R.REF_OSC_STATUS F.REF_OSC_STATUS_PIN = b2n b ∧
      t.g R.REF_STATUS F.REF_STATUS_OSC_READY = b2n ((b || s.on R.REF_OSC_CFG F.REF_OSC_CFG_MASK_PIN) && (s.on
        R.REF_OSC_STATUS F.REF_OSC_STATUS_SELF_WARM || s.on R.REF_OSC_CFG F.REF_OSC_CFG_MASK_SELF) && !s.ref.oscBad) ∧
      s.sameBut t ((List.range 30).map (fun k => R.REF_CANDk_STATUS k) ++ [R.REF_OSC_STATUS, R.REF_STATUS]) ∧
      s.sameParts t [.ref]) ∧
  (∀ (s : State) (v : Word), s.accepts R.REF_OSC_CFG → s.ref.cands.all (fun p => decide (p.1 < 30)) = true → Answers
    (exec (.oscFreqChange v) s) fun t =>
      t.reg R.REF_OSC_CFG = s.formWord R.REF_OSC_CFG v ∧
      (t.g R.REF_OSC_CFG F.REF_OSC_CFG_FREQ ≠ s.g R.REF_OSC_CFG F.REF_OSC_CFG_FREQ → t.g R.SYN_STATUS
        F.SYN_STATUS_JPLL_LOCK = 0 ∧ t.g R.QUE_DRAM_STATUS F.QUE_DRAM_STATUS_SELF_REFRESH = 1) ∧
      s.sameBut t ((List.range 30).map (fun k => R.REF_CANDk_STATUS k) ++ [R.REF_OSC_CFG, R.REF_OSC_STATUS,
        R.REF_STATUS, R.HIF_CFG_CRC_STATUS, R.SYN_STATUS, R.QUE_DRAM_STATUS]) ∧
      s.sameParts t [.ref, .syn]) ∧
  (∀ (s : State) (y : Int) (k : Nat), s.inReset = false → s.judging = some k → s.ref.judge = some k →
    s.ref.gates.length = 9 → s.g R.REF_OSC_STATUS F.REF_OSC_STATUS_SELF_WARM = 0 → spread (y :: s.ref.gates) ≤ 1000 →
    Answers (exec (.warmGate y) s) fun t =>
      t.g R.REF_OSC_STATUS F.REF_OSC_STATUS_SELF_WARM = 1 ∧
      t.g R.REF_STATUS F.REF_STATUS_OSC_READY = b2n ((s.on R.REF_OSC_STATUS F.REF_OSC_STATUS_PIN || s.on
        R.REF_OSC_CFG F.REF_OSC_CFG_MASK_PIN) && (true || s.on R.REF_OSC_CFG F.REF_OSC_CFG_MASK_SELF) &&
        !s.ref.oscBad) ∧
      s.sameBut t ((List.range 30).map (fun k => R.REF_CANDk_STATUS k) ++ [R.REF_OSC_STATUS, R.REF_STATUS]) ∧
      s.sameParts t [.ref]) ∧
  (∀ (s : State), s.inReset = false → s.judging = none → s.g R.REF_OSC_CFG F.REF_OSC_CFG_WARM_TIMEOUT_S ≠ 0 → s.g
    R.REF_OSC_STATUS F.REF_OSC_STATUS_SELF_WARM = 0 → Answers (exec (.warmTimeout) s) fun t =>
      t.g R.REF_OSC_STATUS F.REF_OSC_STATUS_SELF_WARM = 1 ∧ t.g R.REF_OSC_STATUS F.REF_OSC_STATUS_BY_TIMEOUT = 1 ∧
      s.sameBut t ((List.range 30).map (fun k => R.REF_CANDk_STATUS k) ++ [R.REF_OSC_STATUS, R.REF_STATUS]) ∧
      s.sameParts t [.ref]) ∧
  (∀ (s : State) (y : Int), s.inReset = false → s.judging = none → s.ref.judge = none → Answers (exec (.warmGate y)
    s) fun t =>
      t.ref.noJudge = s.ref.noJudge + 1 ∧ s.sameBut t [] ∧ s.sameParts t [.ref]) ∧
  (∀ (s : State) (y : Int) (k : Nat), s.inReset = false → s.judging = some k → s.ref.judge = some k →
    s.ref.gates.length < 9 ∨ 1000 < spread ((y :: s.ref.gates).take 10) → Answers (exec (.warmGate y) s) fun t =>
      t.ref.gates = (y :: s.ref.gates).take 10 ∧ s.sameBut t [] ∧ s.sameParts t [.ref]) ∧
  (∀ (s : State), s.inReset = false → s.judging.isSome = true ∨ s.g R.REF_OSC_CFG F.REF_OSC_CFG_WARM_TIMEOUT_S = 0 →
    s.ref.judge = s.judging → Answers (exec (.warmTimeout) s) fun t =>
      s.sameBut t [] ∧ s.sameParts t [.ref]) ∧
  (∀ (s : State) (khz : Nat), s.inReset = false → s.ref.oscBad = true → Answers (exec (.oscFreqMismatch khz) s) fun t
    =>
      t.g R.REF_OSC_STATUS F.REF_OSC_STATUS_FREQ_OK = 0 ∧ s.sameBut t [R.REF_OSC_STATUS] ∧ s.sameParts t []) ∧
  (∀ (s : State) (n : Fin 4) (ahead : Nat), s.inReset = false → (s.refIn n).disabled = false → (s.refIn n).prev.all
    (fun p => decide (32 * 65536 ≤ 10 * (s.tsc.tick * 131072 + ahead - p))) = true → Answers (exec (.refInputEdge n
    ahead) s) fun t =>
      (t.refIn n).last = some (s.refStamp n ahead) ∧ (t.refIn n).prev = some (s.tsc.tick * 131072 + ahead) ∧
      (t.refIn n).stuck = false ∧ (t.refIn n).count = (s.refIn n).count + 1 ∧
      s.sameBut t [R.REF_CANDk_STATUS (s.candOfIn n)] ∧ s.sameParts t [.ref]) ∧
  (∀ (s : State) (n : Fin 4) (ahead p : Nat), s.inReset = false → (s.refIn n).disabled = false → (s.refIn n).prev =
    some p → 10 * (s.tsc.tick * 131072 + ahead - p) < 32 * 65536 → Answers (exec (.refInputEdge n ahead) s) fun t =>
      (t.refIn n).lost = (s.refIn n).lost + 1 ∧ (t.refIn n).last = (s.refIn n).last ∧
      (t.refIn n).prev = some (s.tsc.tick * 131072 + ahead) ∧ (t.refIn n).stuck = false ∧
      t.isSet R.REF_RAW F.REF_RAW_OVERRUN ∧ s.sameBut t [R.REF_CANDk_STATUS (s.candOfIn n)] ∧ s.sameParts t [.ref]) ∧
  (∀ (s : State) (n : Fin 4) (ahead : Nat), s.inReset = false → (s.refIn n).disabled = true → Answers (exec
    (.refInputEdge n ahead) s) fun t =>
      t.refIn n = { s.refIn n with stuck := false } ∧ s.sameBut t [R.REF_CANDk_STATUS (s.candOfIn n)] ∧
      s.sameParts t [.ref]) ∧
  (∀ (s : State) (n : Fin 4), s.inReset = false → (s.refIn n).stuck = false → Answers (exec (.refInputStuck n) s) fun
    t =>
      (t.refIn n).stuck = true ∧ (t.cand (s.candOfIn n)).act = Verdict.reject ∧ t.isSet R.REF_RAW F.REF_RAW_STUCK ∧
      s.sameBut t [R.REF_CANDk_STATUS (s.candOfIn n)] ∧ s.sameParts t [.ref]) ∧
  (∀ (s : State) (n : Fin 4), s.inReset = false → s.on (R.REF_INn_CFG n) F.REF_INn_CFG_OVR_DIS_EN = true → s.g
    (R.REF_INn_CFG n) F.REF_INn_CFG_OVR_LIMIT < (s.refIn n).lost → (s.refIn n).disabled = false → s.hif.fq.length <
    32 → Answers (exec (.refOverrunInterval n) s) fun t =>
      (t.refIn n).disabled = true ∧ (t.refIn n).lost = 0 ∧ t.isSet R.REF_RAW F.REF_RAW_OVR_DISABLE ∧
      (∃ f ∈ t.hif.fq, f.block = 3 ∧ f.code = 3 ∧ f.detail = n.val) ∧
      s.sameBut t [R.REF_CANDk_STATUS (s.candOfIn n)] ∧ s.sameParts t [.ref]) ∧
  (∀ (s : State) (n : Fin 4), s.inReset = false → (s.refIn n).lost ≤ s.g (R.REF_INn_CFG n) F.REF_INn_CFG_OVR_LIMIT →
    Answers (exec (.refOverrunInterval n) s) fun t =>
      t.refIn n = { s.refIn n with lost := 0 } ∧ s.sameBut t [] ∧ s.sameParts t [.ref]) ∧
  (∀ (s : State) (v : Word), s.accepts R.REF_IN_REARM → Answers (exec (.refInRearm v) s) fun t =>
      (∀ n : Fin 4, maskBit (F.REF_IN_REARM_REARM.get v) n = true → (t.refIn n).disabled = false ∧ (t.refIn n).lost =
        0) ∧
      s.sameBut t [R.REF_CANDk_STATUS 0, R.REF_CANDk_STATUS 1, R.REF_CANDk_STATUS 2, R.REF_CANDk_STATUS 3] ∧
      s.sameParts t [.ref]) ∧
  (∀ (s : State) (n : Fin 4), s.inReset = false → (s.refIn n).stuck = true → Answers (exec (.refInputStuck n) s) fun
    t =>
      s.sameBut t [] ∧ s.sameParts t []) ∧
  (∀ (s : State) (n : Fin 4), s.inReset = false → s.on (R.REF_INn_CFG n) F.REF_INn_CFG_OVR_DIS_EN = false ∨ (s.refIn
    n).disabled = true → Answers (exec (.refOverrunInterval n) s) fun t =>
      t.refIn n = { s.refIn n with lost := 0 } ∧ s.sameBut t [] ∧ s.sameParts t [.ref])

/-- R106, R107, R111 and R118: an activity interval counts passes or failures and ACCEPT passes in a row accept; a
gate shows its result in REF_CANDk_FREQ; a candidate that meets the conditions is qualified when its hold-off has
run; a wait-to-restore that has run is remembered for its entry. R113 to R115: a valid ESMC PDU sets the port's QL in
REF_PQL; a timeout sets it to 15; an information PDU, or an event PDU when the QL to send has changed, leaves on a
port whose transmission is enabled. Where the spec is silent it rests on the choices of the model in log entries 3,
13 and 14. -/
def Obligations.MonitorsAndEsmc : Prop :=
  (∀ (s : State) (k : Fin 30), s.inReset = false → (if k.val < 4 then s.inputPass k else if k.val < 28 then s.on
    (R.PTS_STATUS (k.val - 4)) F.PTS_STATUS_BLOCK_LOCK else if k.val = 28 then s.partnerTime else s.ptpValid) = true
    → Answers (exec (.activityInterval k) s) fun t =>
      (t.cand k).act = (if s.g R.REF_ACT F.REF_ACT_ACCEPT ≤ (s.cand k).passes + 1 then Verdict.accept else if s.g
        R.REF_ACT F.REF_ACT_REJECT = 0 then Verdict.reject else (s.cand k).act) ∧
      (t.cand k).passes = (s.cand k).passes + 1 ∧ (t.cand k).fails = 0 ∧
      (k.val < 4 → (t.refIn k).count = 0 ∧ (t.refIn k).inside = false ∧ (t.refIn k).outside = false) ∧
      s.sameBut t [R.REF_CANDk_STATUS k] ∧ s.sameParts t [.ref]) ∧
  (∀ (s : State) (k : Fin 30), s.inReset = false → (if k.val < 4 then s.inputPass k else if k.val < 28 then s.on
    (R.PTS_STATUS (k.val - 4)) F.PTS_STATUS_BLOCK_LOCK else if k.val = 28 then s.partnerTime else s.ptpValid) = false
    → s.g R.REF_ACT F.REF_ACT_ACCEPT ≠ 0 → Answers (exec (.activityInterval k) s) fun t =>
      (t.cand k).act = (if s.g R.REF_ACT F.REF_ACT_REJECT ≤ (s.cand k).fails + 1 then Verdict.reject else (s.cand
        k).act) ∧
      (t.cand k).fails = (s.cand k).fails + 1 ∧ (t.cand k).passes = 0 ∧
      (k.val < 4 → (t.refIn k).count = 0 ∧ (t.refIn k).inside = false ∧ (t.refIn k).outside = false) ∧
      s.sameBut t [R.REF_CANDk_STATUS k] ∧ s.sameParts t [.ref]) ∧
  (∀ (s : State) (k : Fin 30) (raw : Int), s.inReset = false → k ≠ 29 → Answers (exec (.freqGate k raw) s) fun t =>
      t.reg (R.REF_CANDk_FREQ k) = BitVec.ofNat 32 (enc 32 (s.gateResult raw)) ∧
      (t.cand k).y.head? = some (s.gateResult raw) ∧ s.sameBut t [R.REF_CANDk_FREQ k, R.REF_CANDk_STATUS k] ∧
      s.sameParts t [.ref]) ∧
  (∀ (s : State) (raw : Int), s.inReset = false → Answers (exec (.freqGate 29 raw) s) fun t =>
      t.reg (R.REF_CANDk_FREQ 29) = BitVec.ofNat 32 (enc 32 s.ptpGate.1) ∧ (t.cand 29).y.head? = some s.ptpGate.1 ∧
      s.sameBut t [R.REF_CANDk_FREQ 29, R.REF_CANDk_STATUS 29] ∧ s.sameParts t [.ref, .ptp]) ∧
  (∀ (s : State) (k : Fin 30), s.inReset = false → (s.cand k).hold = true → s.candOk k = true → Answers (exec
    (.holdoffExpiry k) s) fun t =>
      t.qualified k = true ∧ (t.cand k).hold = false ∧ t.isSet R.REF_RAW F.REF_RAW_QUALIFY ∧
      s.sameBut t [R.REF_CANDk_STATUS k] ∧ s.sameParts t [.ref]) ∧
  (∀ (s : State) (e : Fin 16), s.inReset = false → s.prioOn e = true → s.qualified (s.prioCand e) = true → Answers
    (exec (.wtrExpiry e) s) fun t =>
      e.val ∈ t.ref.wtr ∧ s.sameBut t [] ∧ s.sameParts t [.ref]) ∧
  (∀ (s : State) (k : Fin 30), s.inReset = false → (if k.val < 4 then s.inputPass k else if k.val < 28 then s.on
    (R.PTS_STATUS (k.val - 4)) F.PTS_STATUS_BLOCK_LOCK else if k.val = 28 then s.partnerTime else s.ptpValid) = false
    → s.g R.REF_ACT F.REF_ACT_ACCEPT = 0 → Answers (exec (.activityInterval k) s) fun t =>
      (t.cand k).act = Verdict.accept ∧ (t.cand k).fails = (s.cand k).fails + 1 ∧ (t.cand k).passes = 0 ∧
      (k.val < 4 → (t.refIn k).count = 0 ∧ (t.refIn k).inside = false ∧ (t.refIn k).outside = false) ∧
      s.sameBut t [R.REF_CANDk_STATUS k] ∧ s.sameParts t [.ref]) ∧
  (∀ (s : State) (k : Fin 30), s.inReset = false → (s.cand k).hold = false ∨ s.candOk k = false → Answers (exec
    (.holdoffExpiry k) s) fun t =>
      s.sameBut t [] ∧ s.sameParts t []) ∧
  (∀ (s : State) (e : Fin 16), s.inReset = false → s.prioOn e = false ∨ s.qualified (s.prioCand e) = false → Answers
    (exec (.wtrExpiry e) s) fun t =>
      s.sameBut t [] ∧ s.sameParts t []) ∧
  (∀ (s : State) (p : Fin 24) (b : List Byte), s.inReset = false → s.running = true → s.linkUp p = true → isEsmc b
    (headsOf b (s.portMode p)) = true → beAt b ((headsOf b (s.portMode p)).own + 12) 1 = 1 → beAt b ((headsOf b
    (s.portMode p)).own + 13) 2 = 4 → Answers (exec (.esmcRx p b) s) fun t =>
      t.portQl p = qlOf (beAt b ((headsOf b (s.portMode p)).own + 15) 1 % 16) ∧
      s.sameBut t [R.REF_PQL0 + 4 * (p.val / 8), R.REF_CANDk_STATUS (p.val + 4)] ∧ s.sameParts t [.ref]) ∧
  (∀ (s : State) (p : Fin 24), s.inReset = false → Answers (exec (.esmcTimeout p) s) fun t =>
      t.portQl p = 15 ∧ s.sameBut t [R.REF_PQL0 + 4 * (p.val / 8), R.REF_CANDk_STATUS (p.val + 4)] ∧
      s.sameParts t [.ref]) ∧
  (∀ (s : State) (p : Fin 24), s.inReset = false → s.running = true → maskBit (s.g R.REF_ESMC_TX_EN
    F.REF_ESMC_TX_EN_EN) p = true → Answers (exec (.esmcTxInfo p) s) fun t =>
      s.emits t (.esmc p (s.txQlOf p) false) ∧ s.sameBut t [] ∧ s.sameParts t [.ref]) ∧
  (∀ (s : State) (p : Fin 24), s.inReset = false → s.running = true → maskBit (s.g R.REF_ESMC_TX_EN
    F.REF_ESMC_TX_EN_EN) p = true → s.txQlOf p ≠ Tbl.get 16 s.ref.txQl p → Tbl.get 16 s.ref.txQl p ≠ 16 → Answers
    (exec (.esmcTxEvent p) s) fun t =>
      s.emits t (.esmc p (s.txQlOf p) true) ∧ s.sameBut t [] ∧ s.sameParts t [.ref]) ∧
  (∀ (s : State) (p : Fin 24) (b : List Byte), s.inReset = false → s.running = false ∨ s.linkUp p = false ∨ isEsmc b
    (headsOf b (s.portMode p)) = false → Answers (exec (.esmcRx p b) s) fun t =>
      t.portQl p = s.portQl p ∧ s.sameBut t [] ∧ s.sameParts t []) ∧
  (∀ (s : State) (p : Fin 24), s.inReset = false → s.running = false ∨ maskBit (s.g R.REF_ESMC_TX_EN
    F.REF_ESMC_TX_EN_EN) p = false → Answers (exec (.esmcTxInfo p) s) fun t =>
      s.sameBut t [] ∧ s.sameParts t []) ∧
  (∀ (s : State) (p : Fin 24), s.inReset = false → s.running = false ∨ maskBit (s.g R.REF_ESMC_TX_EN
    F.REF_ESMC_TX_EN_EN) p = false ∨ s.txQlOf p = Tbl.get 16 s.ref.txQl p ∨ Tbl.get 16 s.ref.txQl p = 16 → Answers
    (exec (.esmcTxEvent p) s) fun t =>
      s.sameBut t [] ∧ s.sameParts t [])

/-- R118 to R122 and R128: from FREE_RUN the best eligible entry is acquired; a lock that holds in ACQUIRE gives
LOCKED and COND 1; the loss of the locked candidate gives SWITCH to an eligible one, and HOLDOVER with no other;
ENABLE 0 gives HOLDOVER; a target of class PHASE measured in FREE_RUN, other than the PTP servo, steps the timescale,
and a target measured in SWITCH is handed to the loop with a step within the slew guard. Where the spec is silent it
rests on the choices of the model in log entries 3, 13 and 14. -/
def Obligations.Selector : Prop :=
  (∀ (s : State) (err rate : Int) (e : Nat), s.inReset = false → s.running = true → s.on R.REF_CTRL F.REF_CTRL_ENABLE
    = true → s.g R.REF_STATUS F.REF_STATUS_STATE = 0 → s.chosen = some e → e < 16 → Answers (exec (.selectorDecision
    err rate) s) fun t =>
      t.g R.REF_STATUS F.REF_STATUS_STATE = 1 ∧ t.g R.REF_STATUS F.REF_STATUS_SEL_ENTRY = e ∧
      t.g R.REF_STATUS F.REF_STATUS_SEL_CAND = s.prioCand e ∧
      t.g R.REF_STATUS F.REF_STATUS_SEL_CLASS = s.candClass (s.prioCand e) ∧
      s.sameBut t [R.REF_STATUS, R.PTP_STATUS] ∧ s.sameParts t [.tsc, .ref, .hld, .ptp]) ∧
  (∀ (s : State) (err rate : Int), s.inReset = false → s.running = true → s.on R.REF_CTRL F.REF_CTRL_ENABLE = true →
    s.g R.REF_STATUS F.REF_STATUS_STATE = 1 → s.targetLost = false → s.ref.measured = true → |err| ≤ nsTicks (s.g
    R.REF_LOCK F.REF_LOCK_LOCK_NS) → 1000 * s.g R.REF_LOCK F.REF_LOCK_LOCK_S ≤ s.ref.inLock + 1 → Answers (exec
    (.selectorDecision err rate) s) fun t =>
      t.g R.REF_STATUS F.REF_STATUS_STATE = 2 ∧ t.g R.REF_STATUS F.REF_STATUS_COND = 1 ∧
      t.isSet R.REF_RAW F.REF_RAW_LOCK ∧ s.sameBut t [R.REF_STATUS, R.PTP_STATUS, R.HLD_STATUS] ∧
      s.sameParts t [.tsc, .ref, .hld, .ptp]) ∧
  (∀ (s : State) (err rate : Int), s.inReset = false → s.running = true → s.on R.REF_CTRL F.REF_CTRL_ENABLE = true →
    s.g R.REF_STATUS F.REF_STATUS_STATE = 2 → s.targetLost = true → s.chosen = none → s.lockGone = false →
    s.ref.outLock + 1 < 1000 → s.ref.withdrawn = false → s.hld.episode = false → s.hif.fq.length < 32 → Answers (exec
    (.selectorDecision err rate) s) fun t =>
      t.g R.REF_STATUS F.REF_STATUS_STATE = 4 ∧ t.isSet R.REF_RAW F.REF_RAW_HOLDOVER_ENTRY ∧ t.hld.episode = true ∧
      (∃ f ∈ t.hif.fq, f.block = 3 ∧ f.code = 2) ∧
      s.sameBut t [R.REF_STATUS, R.PTP_STATUS, R.HLD_STATUS, R.HLD_ELAPSED] ∧ s.sameParts t [.tsc, .ref, .hld, .ptp]) ∧
  (∀ (s : State) (err rate : Int) (e : Nat), s.inReset = false → s.running = true → s.on R.REF_CTRL F.REF_CTRL_ENABLE
    = true → s.g R.REF_STATUS F.REF_STATUS_STATE = 2 → s.targetLost = true → s.chosen = some e → e < 16 →
    s.ref.outLock + 1 < 1000 → Answers (exec (.selectorDecision err rate) s) fun t =>
      t.g R.REF_STATUS F.REF_STATUS_STATE = 3 ∧ t.g R.REF_STATUS F.REF_STATUS_SEL_ENTRY = e ∧
      t.g R.REF_STATUS F.REF_STATUS_SEL_CAND = s.prioCand e ∧ t.ref.modelRate = true ∧
      t.isSet R.REF_RAW F.REF_RAW_SWITCH ∧ s.sameBut t [R.REF_STATUS, R.PTP_STATUS, R.HLD_STATUS, R.HLD_ELAPSED] ∧
      s.sameParts t [.tsc, .ref, .hld, .ptp]) ∧
  (∀ (s : State) (err rate : Int), s.inReset = false → s.running = true → s.on R.REF_CTRL F.REF_CTRL_ENABLE = false →
    s.selState = 1 ∨ s.selState = 2 ∨ s.selState = 3 → Answers (exec (.selectorDecision err rate) s) fun t =>
      t.g R.REF_STATUS F.REF_STATUS_STATE = 4 ∧ t.isSet R.REF_RAW F.REF_RAW_HOLDOVER_ENTRY ∧
      t.ref.modelRate = true ∧ s.sameBut t [R.REF_STATUS, R.PTP_STATUS, R.HLD_STATUS, R.HLD_ELAPSED] ∧
      s.sameParts t [.tsc, .ref, .hld, .ptp]) ∧
  (∀ (s : State) (o1 o2 : Int), s.inReset = false → s.ref.offs = [o1, o2] → s.g R.REF_STATUS F.REF_STATUS_STATE = 1 →
    s.ref.measured = false → s.ref.fromHold = false → s.targetLost = false → s.g R.REF_STATUS F.REF_STATUS_SEL_CLASS
    = 2 → s.on R.TSC_CTRL F.TSC_CTRL_STEER = false → s.g R.REF_STATUS F.REF_STATUS_SEL_CAND ≠ 29 → Answers (exec
    (.targetMeasured) s) fun t =>
      t.tsc.intern = s.tsc.intern ++ [(3, IntStep.rel (s.targetOffset o1 o2))] ∧ t.ref.measured = true ∧
      t.ref.offs = [] ∧ s.sameBut t [] ∧ s.sameParts t [.tsc, .ref]) ∧
  (∀ (s : State) (o1 o2 : Int), s.inReset = false → s.ref.offs = [o1, o2] → s.g R.REF_STATUS F.REF_STATUS_STATE = 3 →
    s.targetLost = false → s.g R.REF_STATUS F.REF_STATUS_SEL_CLASS = 2 ∨ s.g R.REF_STATUS F.REF_STATUS_SEL_CLASS = 3
    → s.on R.TSC_CTRL F.TSC_CTRL_STEER = true → Answers (exec (.targetMeasured) s) fun t =>
      t.g R.REF_STATUS F.REF_STATUS_STATE = 2 ∧ t.isSet R.REF_RAW F.REF_RAW_LOCK ∧ t.ref.modelRate = false ∧
      s.sameBut t [R.REF_STATUS, R.PTP_STATUS, R.HLD_STATUS] ∧ s.sameParts t [.tsc, .ref, .hld, .ptp]) ∧
  (∀ (s : State) (o1 o2 : Int), s.inReset = false → s.ref.offs = [o1, o2] → s.g R.REF_STATUS F.REF_STATUS_STATE = 3 →
    s.targetLost = false → s.g R.REF_STATUS F.REF_STATUS_SEL_CLASS = 2 ∨ s.g R.REF_STATUS F.REF_STATUS_SEL_CLASS = 3
    → s.on R.TSC_CTRL F.TSC_CTRL_STEER = false → |s.targetOffset o1 o2| ≤ nsTicks (s.g R.REF_GUARD
    F.REF_GUARD_GUARD_NS) → Answers (exec (.targetMeasured) s) fun t =>
      t.g R.REF_STATUS F.REF_STATUS_STATE = 2 ∧
      t.tsc.intern = s.tsc.intern ++ [(3, IntStep.rel (s.targetOffset o1 o2))] ∧ t.isSet R.REF_RAW F.REF_RAW_LOCK ∧
      s.sameBut t [R.REF_STATUS, R.PTP_STATUS, R.HLD_STATUS] ∧ s.sameParts t [.tsc, .ref, .hld, .ptp]) ∧
  (∀ (s : State) (err rate : Int), s.inReset = false → s.running = true → s.on R.REF_CTRL F.REF_CTRL_ENABLE = true →
    s.g R.REF_STATUS F.REF_STATUS_STATE = 0 → s.chosen = none → Answers (exec (.selectorDecision err rate) s) fun t =>
      t.g R.REF_STATUS F.REF_STATUS_STATE = 0 ∧ s.sameBut t [R.REF_STATUS, R.PTP_STATUS] ∧
      s.sameParts t [.tsc, .ref, .hld, .ptp]) ∧
  (∀ (s : State) (err rate : Int), s.inReset = false → s.running = true → s.on R.REF_CTRL F.REF_CTRL_ENABLE = true →
    s.g R.REF_STATUS F.REF_STATUS_STATE = 4 → s.chosen = none → Answers (exec (.selectorDecision err rate) s) fun t =>
      t.g R.REF_STATUS F.REF_STATUS_STATE = 4 ∧ s.sameBut t [R.REF_STATUS, R.PTP_STATUS] ∧
      s.sameParts t [.tsc, .ref, .hld, .ptp]) ∧
  (∀ (s : State) (err rate : Int), s.inReset = false → s.running = false ∨ s.on R.REF_CTRL F.REF_CTRL_ENABLE = false
    → s.g R.REF_STATUS F.REF_STATUS_STATE = 0 ∨ s.g R.REF_STATUS F.REF_STATUS_STATE = 4 → Answers (exec
    (.selectorDecision err rate) s) fun t =>
      t.selState = s.selState ∧ s.sameBut t [R.REF_STATUS, R.PTP_STATUS] ∧ s.sameParts t [.tsc, .ref, .hld, .ptp]) ∧
  (∀ (s : State) (err rate : Int) (e : Nat), s.inReset = false → s.running = true → s.on R.REF_CTRL F.REF_CTRL_ENABLE
    = true → s.g R.REF_STATUS F.REF_STATUS_STATE = 4 → s.chosen = some e → e < 16 → Answers (exec (.selectorDecision
    err rate) s) fun t =>
      t.g R.REF_STATUS F.REF_STATUS_STATE = 1 ∧ t.g R.REF_STATUS F.REF_STATUS_SEL_ENTRY = e ∧
      t.g R.REF_STATUS F.REF_STATUS_SEL_CAND = s.prioCand e ∧ t.ref.fromHold = true ∧
      s.sameBut t [R.REF_STATUS, R.PTP_STATUS, R.HLD_STATUS, R.HLD_ELAPSED] ∧ s.sameParts t [.tsc, .ref, .hld, .ptp]) ∧
  (∀ (s : State) (err rate : Int) (e : Nat), s.inReset = false → s.running = true → s.on R.REF_CTRL F.REF_CTRL_ENABLE
    = true → s.g R.REF_STATUS F.REF_STATUS_STATE = 1 → s.targetLost = true → s.chosen = some e → e < 16 → Answers
    (exec (.selectorDecision err rate) s) fun t =>
      t.g R.REF_STATUS F.REF_STATUS_STATE = 1 ∧ t.g R.REF_STATUS F.REF_STATUS_SEL_ENTRY = e ∧
      t.g R.REF_STATUS F.REF_STATUS_SEL_CAND = s.prioCand e ∧ t.ref.fromHold = s.ref.fromHold ∧
      s.sameBut t [R.REF_STATUS, R.PTP_STATUS, R.HLD_STATUS, R.HLD_ELAPSED] ∧ s.sameParts t [.tsc, .ref, .hld, .ptp]) ∧
  (∀ (s : State) (err rate : Int), s.inReset = false → s.running = true → s.on R.REF_CTRL F.REF_CTRL_ENABLE = true →
    s.g R.REF_STATUS F.REF_STATUS_STATE = 1 → s.targetLost = true → s.chosen = none → s.ref.fromHold = false →
    Answers (exec (.selectorDecision err rate) s) fun t =>
      t.g R.REF_STATUS F.REF_STATUS_STATE = 0 ∧
      s.sameBut t [R.REF_STATUS, R.PTP_STATUS, R.HLD_STATUS, R.HLD_ELAPSED] ∧ s.sameParts t [.tsc, .ref, .hld, .ptp]) ∧
  (∀ (s : State) (err rate : Int), s.inReset = false → s.running = true → s.on R.REF_CTRL F.REF_CTRL_ENABLE = true →
    s.g R.REF_STATUS F.REF_STATUS_STATE = 1 → s.targetLost = true → s.chosen = none → s.ref.fromHold = true → Answers
    (exec (.selectorDecision err rate) s) fun t =>
      t.g R.REF_STATUS F.REF_STATUS_STATE = 4 ∧ t.isSet R.REF_RAW F.REF_RAW_HOLDOVER_ENTRY ∧
      t.ref.modelRate = true ∧ s.sameBut t [R.REF_STATUS, R.PTP_STATUS, R.HLD_STATUS, R.HLD_ELAPSED] ∧
      s.sameParts t [.tsc, .ref, .hld, .ptp]) ∧
  (∀ (s : State) (err rate : Int), s.inReset = false → s.running = true → s.on R.REF_CTRL F.REF_CTRL_ENABLE = true →
    s.g R.REF_STATUS F.REF_STATUS_STATE = 1 → s.targetLost = false → s.ref.measured = false → s.ref.inLock + 1 < 1000
    * s.g R.REF_LOCK F.REF_LOCK_LOCK_S → Answers (exec (.selectorDecision err rate) s) fun t =>
      t.g R.REF_STATUS F.REF_STATUS_STATE = 1 ∧ s.sameBut t [R.REF_STATUS, R.PTP_STATUS] ∧
      s.sameParts t [.tsc, .ref, .hld, .ptp]) ∧
  (∀ (s : State) (err rate : Int), s.inReset = false → s.running = true → s.on R.REF_CTRL F.REF_CTRL_ENABLE = true →
    s.g R.REF_STATUS F.REF_STATUS_STATE = 1 → s.targetLost = false → s.ref.measured = true → s.ref.inLock + 1 < 1000
    * s.g R.REF_LOCK F.REF_LOCK_LOCK_S → s.g R.REF_STATUS F.REF_STATUS_SEL_CAND ≠ 29 → s.on R.TSC_CTRL
    F.TSC_CTRL_STEER = false → s.g R.REF_STATUS F.REF_STATUS_GUARDING = 0 → Answers (exec (.selectorDecision err
    rate) s) fun t =>
      t.g R.REF_STATUS F.REF_STATUS_STATE = 1 ∧ t.tsc.newRate = some (clampRate rate) ∧
      t.ref.inLock = (if |err| ≤ nsTicks (s.g R.REF_LOCK F.REF_LOCK_LOCK_NS) then s.ref.inLock + 1 else 0) ∧
      s.sameBut t [R.REF_STATUS, R.PTP_STATUS] ∧ s.sameParts t [.tsc, .ref, .hld, .ptp]) ∧
  (∀ (s : State) (err rate : Int), s.inReset = false → s.running = true → s.on R.REF_CTRL F.REF_CTRL_ENABLE = true →
    s.g R.REF_STATUS F.REF_STATUS_STATE = 2 → s.targetLost = false → s.ref.outLock + 1 < 1000 → s.moveDue = none →
    s.g R.REF_STATUS F.REF_STATUS_SEL_CAND ≠ 29 → s.on R.TSC_CTRL F.TSC_CTRL_STEER = false → s.g R.REF_STATUS
    F.REF_STATUS_GUARDING = 0 → Answers (exec (.selectorDecision err rate) s) fun t =>
      t.g R.REF_STATUS F.REF_STATUS_STATE = 2 ∧ t.tsc.newRate = some (clampRate rate) ∧
      t.ref.outLock = (if 10 * nsTicks (s.g R.REF_LOCK F.REF_LOCK_LOCK_NS) < |err| then s.ref.outLock + 1 else 0) ∧
      s.sameBut t [R.REF_STATUS, R.PTP_STATUS] ∧ s.sameParts t [.tsc, .ref, .hld, .ptp]) ∧
  (∀ (s : State) (err rate : Int), s.inReset = false → s.running = true → s.on R.REF_CTRL F.REF_CTRL_ENABLE = true →
    s.g R.REF_STATUS F.REF_STATUS_STATE = 2 → s.targetLost = false → s.ref.outLock + 1 < 1000 → s.moveDue = none →
    s.g R.REF_STATUS F.REF_STATUS_SEL_CAND = 29 → Answers (exec (.selectorDecision err rate) s) fun t =>
      t.g R.REF_STATUS F.REF_STATUS_STATE = 2 ∧ s.sameBut t [R.REF_STATUS, R.PTP_STATUS] ∧
      s.sameParts t [.tsc, .ref, .hld, .ptp]) ∧
  (∀ (s : State) (err rate : Int) (e : Nat), s.inReset = false → s.running = true → s.on R.REF_CTRL F.REF_CTRL_ENABLE
    = true → s.g R.REF_STATUS F.REF_STATUS_STATE = 2 → s.targetLost = false → s.ref.outLock + 1 < 1000 → s.moveDue =
    some e → e < 16 → Answers (exec (.selectorDecision err rate) s) fun t =>
      t.g R.REF_STATUS F.REF_STATUS_STATE = 3 ∧ t.g R.REF_STATUS F.REF_STATUS_SEL_ENTRY = e ∧
      t.g R.REF_STATUS F.REF_STATUS_SEL_CAND = s.prioCand e ∧ t.isSet R.REF_RAW F.REF_RAW_SWITCH ∧
      s.sameBut t [R.REF_STATUS, R.PTP_STATUS, R.HLD_STATUS, R.HLD_ELAPSED] ∧ s.sameParts t [.tsc, .ref, .hld, .ptp]) ∧
  (∀ (s : State) (err rate : Int), s.inReset = false → s.running = true → s.on R.REF_CTRL F.REF_CTRL_ENABLE = true →
    s.g R.REF_STATUS F.REF_STATUS_STATE = 3 → s.targetLost = true → s.chosen = none → Answers (exec
    (.selectorDecision err rate) s) fun t =>
      t.g R.REF_STATUS F.REF_STATUS_STATE = 4 ∧ t.isSet R.REF_RAW F.REF_RAW_HOLDOVER_ENTRY ∧
      t.ref.modelRate = true ∧ s.sameBut t [R.REF_STATUS, R.PTP_STATUS, R.HLD_STATUS, R.HLD_ELAPSED] ∧
      s.sameParts t [.tsc, .ref, .hld, .ptp]) ∧
  (∀ (s : State) (err rate : Int) (e : Nat), s.inReset = false → s.running = true → s.on R.REF_CTRL F.REF_CTRL_ENABLE
    = true → s.g R.REF_STATUS F.REF_STATUS_STATE = 3 → s.targetLost = true → s.chosen = some e → e < 16 → Answers
    (exec (.selectorDecision err rate) s) fun t =>
      t.g R.REF_STATUS F.REF_STATUS_STATE = 3 ∧ t.g R.REF_STATUS F.REF_STATUS_SEL_ENTRY = e ∧
      t.g R.REF_STATUS F.REF_STATUS_SEL_CAND = s.prioCand e ∧ t.ref.modelRate = true ∧
      s.sameBut t [R.REF_STATUS, R.PTP_STATUS, R.HLD_STATUS, R.HLD_ELAPSED] ∧ s.sameParts t [.tsc, .ref, .hld, .ptp]) ∧
  (∀ (s : State) (err rate : Int), s.inReset = false → s.running = true → s.on R.REF_CTRL F.REF_CTRL_ENABLE = true →
    s.g R.REF_STATUS F.REF_STATUS_STATE = 3 → s.targetLost = false → s.g R.REF_STATUS F.REF_STATUS_SEL_CLASS = 1 →
    Answers (exec (.selectorDecision err rate) s) fun t =>
      t.g R.REF_STATUS F.REF_STATUS_STATE = 2 ∧ t.isSet R.REF_RAW F.REF_RAW_LOCK ∧ t.ref.modelRate = false ∧
      s.sameBut t [R.REF_STATUS, R.PTP_STATUS, R.HLD_STATUS, R.HLD_ELAPSED] ∧ s.sameParts t [.tsc, .ref, .hld, .ptp]) ∧
  (∀ (s : State) (err rate : Int), s.inReset = false → s.running = true → s.on R.REF_CTRL F.REF_CTRL_ENABLE = true →
    s.g R.REF_STATUS F.REF_STATUS_STATE = 3 → s.targetLost = false → s.g R.REF_STATUS F.REF_STATUS_SEL_CLASS ≠ 1 →
    Answers (exec (.selectorDecision err rate) s) fun t =>
      t.g R.REF_STATUS F.REF_STATUS_STATE = 3 ∧ s.sameBut t [R.REF_STATUS, R.PTP_STATUS] ∧
      s.sameParts t [.tsc, .ref, .hld, .ptp]) ∧
  (∀ (s : State), s.inReset = false → s.ref.offs.length ≠ 2 ∨ s.measuring = false ∨ s.targetLost = true → Answers
    (exec (.targetMeasured) s) fun t =>
      t.selState = s.selState ∧ t.tsc = s.tsc ∧ s.sameBut t [] ∧ s.sameParts t [.ref]) ∧
  (∀ (s : State) (o1 o2 : Int), s.inReset = false → s.ref.offs = [o1, o2] → s.g R.REF_STATUS F.REF_STATUS_STATE = 3 →
    s.targetLost = false → s.g R.REF_STATUS F.REF_STATUS_SEL_CLASS = 2 ∨ s.g R.REF_STATUS F.REF_STATUS_SEL_CLASS = 3
    → s.on R.TSC_CTRL F.TSC_CTRL_STEER = false → nsTicks (s.g R.REF_GUARD F.REF_GUARD_GUARD_NS) < s.targetOffset o1
    o2 → Answers (exec (.targetMeasured) s) fun t =>
      t.g R.REF_STATUS F.REF_STATUS_STATE = 2 ∧
      t.tsc.intern = s.tsc.intern ++ [(3, IntStep.rel (nsTicks (s.g R.REF_GUARD F.REF_GUARD_GUARD_NS)))] ∧
      t.isSet R.REF_RAW F.REF_RAW_GUARD ∧ t.g R.REF_STATUS F.REF_STATUS_GUARDING = 1 ∧
      s.sameBut t [R.REF_STATUS, R.PTP_STATUS, R.HLD_STATUS] ∧ s.sameParts t [.tsc, .ref, .hld, .ptp])

/-- R329, R331 and R332: EN arms the journal and takes MODE; clearing EN turns it OFF; FIRE and an edge of SPOOR_TRIG
trigger an ARMED journal, with their source, and set TRIGGER; after POST records it freezes, sets FROZEN and counts
what was left; REARM arms a FROZEN one. Where the spec is silent it rests on the choices of the model in log entries
3 and 26. -/
def Obligations.JournalStates : Prop :=
  (∀ (s : State) (v : Word), s.accepts R.SPR_CTRL → s.g R.SPR_CTRL F.SPR_CTRL_EN = 0 → s.sprN ≠ 0 → s.spr.latch =
    none → s.spr.lossNew = none → s.spr.fifo = [] → Answers (exec (.journalEnable v) s) fun t =>
      t.g R.SPR_STATUS F.SPR_STATUS_STATE = sprArmed ∧ t.spr.fill = t.on R.SPR_CTRL F.SPR_CTRL_MODE ∧
      t.on R.SPR_CTRL F.SPR_CTRL_EN = true ∧ s.sameBut t [R.SPR_CTRL, R.HIF_CFG_CRC_STATUS] ∧ s.sameParts t [.conds]) ∧
  (∀ (s : State) (v : Word), s.accepts R.SPR_CTRL → s.g R.SPR_CTRL F.SPR_CTRL_EN = 1 → Answers (exec (.journalDisable
    v) s) fun t =>
      t.g R.SPR_STATUS F.SPR_STATUS_STATE = sprOff ∧ t.on R.SPR_CTRL F.SPR_CTRL_EN = false ∧
      s.sameBut t [R.SPR_CTRL, R.HIF_CFG_CRC_STATUS] ∧ s.sameParts t []) ∧
  (∀ (s : State) (v : Word), s.accepts R.SPR_CMD → s.sprState = sprArmed → F.SPR_CMD_REARM.get v = 0 →
    F.SPR_CMD_FETCH.get v = 0 → Answers (exec (.journalFire v) s) fun t =>
      t.g R.SPR_STATUS F.SPR_STATUS_STATE = sprPost ∧ t.isSet R.SPR_RAW F.SPR_RAW_TRIGGER ∧
      t.g R.SPR_TRIG_STATUS F.SPR_TRIG_STATUS_SOURCE = 0 ∧ s.sameBut t [] ∧ s.sameParts t []) ∧
  (∀ (s : State) (fall : Bool) (ns : Nat), s.inReset = false → s.sprState = sprArmed → s.spr.latch = none → s.on
    R.SPR_TRIG_EN F.SPR_TRIG_EN_PIN = true → s.on R.SPR_TRIG_EN F.SPR_TRIG_EN_PIN_EDGE = fall → 20 ≤ ns → Answers
    (exec (.spoorTrigEdge fall ns) s) fun t =>
      t.g R.SPR_STATUS F.SPR_STATUS_STATE = sprPost ∧ t.isSet R.SPR_RAW F.SPR_RAW_TRIGGER ∧
      t.g R.SPR_TRIG_STATUS F.SPR_TRIG_STATUS_SOURCE = 3 ∧ s.sameBut t [] ∧ s.sameParts t []) ∧
  (∀ (s : State), s.inReset = false → s.postDone = true → s.spr.formed = [] → Answers (exec (.journalFreeze) s) fun t
    =>
      t.g R.SPR_STATUS F.SPR_STATUS_STATE = sprFrozen ∧ t.spr.fifo = [] ∧
      t.g R.SPR_CNT_FROZEN F.SPR_CNT_FROZEN_COUNT = min (s.g R.SPR_CNT_FROZEN F.SPR_CNT_FROZEN_COUNT +
        s.spr.fifo.length) 4294967295 ∧
      t.isSet R.SPR_RAW F.SPR_RAW_FROZEN ∧ s.sameBut t [] ∧ s.sameParts t []) ∧
  (∀ (s : State) (v : Word), s.accepts R.SPR_CMD → s.sprState = sprFrozen → s.spr.latch = none → F.SPR_CMD_FIRE.get v
    = 0 → F.SPR_CMD_FETCH.get v = 0 → Answers (exec (.journalRearm v) s) fun t =>
      t.g R.SPR_STATUS F.SPR_STATUS_STATE = sprArmed ∧ t.g R.SPR_TRIG_STATUS F.SPR_TRIG_STATUS_SOURCE = 15 ∧
      s.sameBut t [] ∧ s.sameParts t [])

/-- R328, R330, R333 to R335: the oldest record goes to the ring's next place in DRAM and WR_COUNT advances; a LOSS
record reports and clears the losses; a fetch copies one record, or gives its RESULT; a ring 2 buffer completes full
or, idle, partial, and RD_COUNT advances; RD_COUNT is written up to WR_COUNT. Where the spec is silent it rests on
the choices of the model in log entries 3 and 26. -/
def Obligations.JournalWritesAndReadout : Prop :=
  (∀ (s : State) (r : Rec) (l : List Rec), s.inReset = false → s.spr.fifo = r :: l → s.sprWrites = true → Answers
    (exec (.recordWrite) s) fun t =>
      (∀ i : Nat, i < 32 → t.dramByte (s.recordAddr s.wrCount + i) = r.bytes.getD i 0) ∧
      (∀ a : Nat, ¬ (s.recordAddr s.wrCount ≤ a ∧ a < s.recordAddr s.wrCount + 32) → t.dramByte a = s.dramByte a) ∧
      t.wrCount = (s.wrCount + 1) % 2 ^ 64 ∧ l <+: t.spr.fifo ∧ s.sameBut t [R.SPR_WR_COUNT_LO, R.SPR_WR_COUNT_HI] ∧
      s.sameParts t [.conds]) ∧
  (∀ (s : State), s.inReset = false → s.on R.SPR_STATUS F.SPR_STATUS_LOSSING = true → s.spr.fifo.length ≤ 2048 → s.on
    R.SPR_CTRL F.SPR_CTRL_EN = true → s.sprState ≠ sprFrozen → Answers (exec (.lossRecord) s) fun t =>
      (∃ r ∈ t.spr.fifo, r.typ = 0x39 ∧ r.w4 = s.spr.lostSel ∧ r.w5 = s.spr.lostMand) ∧ t.spr.lostSel = 0 ∧
      t.spr.lostMand = 0 ∧ t.g R.SPR_STATUS F.SPR_STATUS_LOSSING = 0 ∧ s.sameBut t [] ∧ s.sameParts t []) ∧
  (∀ (s : State) (v : Word), s.accepts R.SPR_CMD → s.on R.SPR_FETCH_STATUS F.SPR_FETCH_STATUS_BUSY = false →
    F.SPR_CMD_REARM.get v = 0 → F.SPR_CMD_FIRE.get v = 0 → Answers (exec (.journalFetch v) s) fun t =>
      t.isSet R.SPR_FETCH_STATUS F.SPR_FETCH_STATUS_BUSY ∧ t.spr.fetch = s.pair R.SPR_FETCH_IDX_LO ∧
      s.sameBut t [R.SPR_FETCH_STATUS] ∧ s.sameParts t []) ∧
  (∀ (s : State), s.inReset = false → s.on R.SPR_FETCH_STATUS F.SPR_FETCH_STATUS_BUSY = true → s.sprN ≠ 0 →
    s.spr.fetch < s.wrCount → s.wrCount ≤ s.spr.fetch + s.sprN → Answers (exec (.fetchDone) s) fun t =>
      (∀ k : Fin 8, (t.reg (R.SPR_FETCH_Wk k)).toNat = leNat (slice (s.dramRead (s.recordAddr s.spr.fetch) 32) (4 *
        k) 4)) ∧
      t.g R.SPR_FETCH_STATUS F.SPR_FETCH_STATUS_RESULT = 0 ∧ t.g R.SPR_FETCH_STATUS F.SPR_FETCH_STATUS_BUSY = 0 ∧
      t.isSet R.SPR_RAW F.SPR_RAW_FETCH_DONE ∧
      s.sameBeyond t [(R.SPR_FETCH_Wk 0, R.SPR_FETCH_Wk 0 + 32), (R.SPR_FETCH_STATUS, R.SPR_FETCH_STATUS + 4)] ∧
      s.sameParts t []) ∧
  (∀ (s : State), s.inReset = false → s.on R.SPR_FETCH_STATUS F.SPR_FETCH_STATUS_BUSY = true → s.sprN ≠ 0 → s.wrCount
    ≤ s.spr.fetch → Answers (exec (.fetchDone) s) fun t =>
      t.g R.SPR_FETCH_STATUS F.SPR_FETCH_STATUS_RESULT = 1 ∧ (∀ k : Fin 8, t.reg (R.SPR_FETCH_Wk k) = 0) ∧
      t.g R.SPR_FETCH_STATUS F.SPR_FETCH_STATUS_BUSY = 0 ∧ t.isSet R.SPR_RAW F.SPR_RAW_FETCH_DONE ∧
      s.sameBeyond t [(R.SPR_FETCH_Wk 0, R.SPR_FETCH_Wk 0 + 32), (R.SPR_FETCH_STATUS, R.SPR_FETCH_STATUS + 4)] ∧
      s.sameParts t []) ∧
  (∀ (s : State) (desc : List Byte), s.inReset = false → s.dramServes = true → (s.ready 2).length < s.posted 2 →
    journalLen (descLen desc) = true → descBuf desc % 64 = 0 → s.sprN ≠ 0 → s.wrCount ≤ s.rdCount + s.sprN → descLen
    desc / 32 ≤ s.wrCount - s.rdCount → s.sprState ≠ sprFrozen → Answers (exec (.journalBufferDone desc) s) fun t =>
      t.ready 2 = s.ready 2 ++ [(⟨(List.range (descLen desc / 32)).flatMap (fun i => s.dramRead (s.recordAddr
        (s.rdCount + i)) 32), 0, desc⟩ : Content)] ∧
      t.rdCount = s.rdCount + descLen desc / 32 ∧ s.sameBut t [R.SPR_RD_COUNT_LO, R.SPR_RD_COUNT_HI] ∧
      s.sameParts t [.hif, .conds]) ∧
  (∀ (s : State) (desc : List Byte), s.inReset = false → s.dramServes = true → (s.ready 2).length < s.posted 2 →
    journalLen (descLen desc) = true → descBuf desc % 64 = 0 → s.sprN ≠ 0 → s.wrCount ≤ s.rdCount + s.sprN → maskBit
    (descFlags desc) 0 = false → s.wrCount - s.rdCount < descLen desc / 32 → s.rdCount < s.wrCount → s.sprState ≠
    sprFrozen → Answers (exec (.journalBufferIdle desc) s) fun t =>
      t.ready 2 = s.ready 2 ++ [(⟨(List.range (s.wrCount - s.rdCount)).flatMap (fun i => s.dramRead (s.recordAddr
        (s.rdCount + i)) 32), 1, desc⟩ : Content)] ∧
      t.rdCount = s.wrCount ∧ s.sameBut t [R.SPR_RD_COUNT_LO, R.SPR_RD_COUNT_HI] ∧ s.sameParts t [.hif, .conds]) ∧
  (∀ (s : State) (n : BitVec 64), s.accepts R.SPR_RD_COUNT_LO → s.accepts R.SPR_RD_COUNT_HI → Answers (exec
    (.rdCountWrite n) s) fun t =>
      t.rdCount = min n.toNat s.wrCount ∧ Tbl.get none t.wshadow R.SPR_RD_COUNT_LO = none ∧
      s.sameBut t [R.SPR_RD_COUNT_LO, R.SPR_RD_COUNT_HI] ∧ s.sameParts t [.shadows, .conds])

/-- R149 to R154: a loop that locks shows its lock; the first lock of the jitter-cleaning PLL starts the timescale
domain; a later one starts its settling and sets RELOCK; the loss of lock of a PLL shows HOLD, sets its event and
queues its fault code (for the DRAM PLL: self-refresh); that of a port lane queues its own and gates the lane; a
domain whose loop is unlocked is gated; when the jitter-cleaning PLL has settled the timescale resumes with N = 2 ×
cycles increments. R164 to R172: GO makes an update pending; at the apply every staging register is in force, PENDING
clears and UPDATE_DONE sets; a claim switch moves every output to its new source; a relayed edge passes, or is
dropped and counted where it would break the minimum period. Where the spec is silent it rests on the choices of the
model in log entries 3, 17 and 18. -/
def Obligations.LoopsDomainsAndOutputs : Prop :=
  (∀ (s : State), s.inReset = false → s.loopLocked .jpll = false → s.hif.held = [] → s.hif.flow = [] → s.bootState ≠
    bootClocks → Loop.jpll ∉ s.syn.locked → Loop.jpll ∉ s.syn.settling → Answers (exec (.pllLock .jpll) s) fun t =>
      t.g R.SYN_STATUS F.SYN_STATUS_JPLL_LOCK = 1 ∧ t.g R.SYN_STATUS F.SYN_STATUS_JPLL_HOLD = 0 ∧
      t.syn = { s.syn with locked := s.syn.locked ++ [Loop.jpll] } ∧ t.gated = s.gated.erase .timescale ∧
      s.sameBut t [R.SYN_STATUS] ∧ s.sameParts t [.syn, .gated]) ∧
  (∀ (s : State), s.inReset = false → s.loopLocked .jpll = false → s.hif.held = [] → s.hif.flow = [] → s.bootState ≠
    bootClocks → Loop.jpll ∈ s.syn.locked → Answers (exec (.pllLock .jpll) s) fun t =>
      t.g R.SYN_STATUS F.SYN_STATUS_JPLL_LOCK = 1 ∧ t.g R.SYN_STATUS F.SYN_STATUS_JPLL_HOLD = 0 ∧
      Loop.jpll ∈ t.syn.settling ∧ s.sameBut t [R.SYN_STATUS] ∧ s.sameParts t [.syn]) ∧
  (∀ (s : State) (l : Loop), s.inReset = false → s.loopLocked l = false → l ∈ [Loop.hk, .jpll, .core, .dram] →
    Answers (exec (.pllLock l) s) fun t =>
      t.loopLocked l = true ∧ l ∈ t.syn.locked) ∧
  (∀ (s : State) (n : Fin 28), s.inReset = false → s.loopLocked (.lane n) = false → Answers (exec (.pllLock (.lane
    n)) s) fun t =>
      t.loopLocked (.lane n) = true ∧ Loop.lane n ∈ t.syn.locked) ∧
  (∀ (s : State) (c : Fin 3) (k : Option Nat), s.inReset = false → s.loopLocked .jpll = true → Answers (exec
    (.pllLockLoss .jpll c k) s) fun t =>
      t.g R.SYN_STATUS F.SYN_STATUS_JPLL_LOCK = 0 ∧ t.g R.SYN_STATUS F.SYN_STATUS_JPLL_HOLD = 1 ∧
      t.isSet R.SYN_RAW F.SYN_RAW_JPLL_UNLOCK ∧
      (s.hif.fq.length < 32 → ∃ f ∈ t.hif.fq, f.block = 5 ∧ f.code = 1 ∧ f.detail = c.val) ∧
      s.sameBut t [R.SYN_STATUS] ∧ s.sameParts t [.syn]) ∧
  (∀ (s : State) (c : Fin 3) (k : Option Nat), s.inReset = false → s.loopLocked .core = true → Answers (exec
    (.pllLockLoss .core c k) s) fun t =>
      t.g R.SYN_STATUS F.SYN_STATUS_CORE_LOCK = 0 ∧ t.g R.SYN_STATUS F.SYN_STATUS_CORE_HOLD = 1 ∧
      t.isSet R.SYN_RAW F.SYN_RAW_CORE_UNLOCK ∧
      (s.hif.fq.length < 32 → ∃ f ∈ t.hif.fq, f.block = 5 ∧ f.code = 2 ∧ f.detail = c.val) ∧
      s.sameBut t [R.SYN_STATUS] ∧ s.sameParts t [.syn]) ∧
  (∀ (s : State) (c : Fin 3) (k : Option Nat), s.inReset = false → s.loopLocked .dram = true → Answers (exec
    (.pllLockLoss .dram c k) s) fun t =>
      t.g R.SYN_STATUS F.SYN_STATUS_DRAM_LOCK = 0 ∧ t.g R.SYN_STATUS F.SYN_STATUS_DRAM_HOLD = 1 ∧
      t.isSet R.SYN_RAW F.SYN_RAW_DRAM_UNLOCK ∧
      (s.hif.fq.length < 32 → ∃ f ∈ t.hif.fq, f.block = 5 ∧ f.code = 3 ∧ f.detail = c.val) ∧
      t.g R.QUE_DRAM_STATUS F.QUE_DRAM_STATUS_SELF_REFRESH = 1 ∧ s.sameBut t [R.SYN_STATUS, R.QUE_DRAM_STATUS] ∧
      s.sameParts t [.syn]) ∧
  (∀ (s : State) (c : Fin 3) (k : Option Nat), s.inReset = false → s.loopLocked .hk = true → Answers (exec
    (.pllLockLoss .hk c k) s) fun t =>
      t.g R.SYN_STATUS F.SYN_STATUS_HPLL_LOCK = 0 ∧ t.g R.SYN_STATUS F.SYN_STATUS_HK_FALLBACK = 1 ∧
      t.isSet R.SYN_RAW F.SYN_RAW_HK_FALLBACK ∧ (s.hif.fq.length < 32 → ∃ f ∈ t.hif.fq, f.block = 5 ∧ f.code = 4) ∧
      s.sameBut t [R.SYN_STATUS] ∧ s.sameParts t [.syn]) ∧
  (∀ (s : State) (c : Fin 3) (n : Fin 24), s.inReset = false → s.loopLocked (.lane n) = true → Answers (exec
    (.pllLockLoss (.lane n) c none) s) fun t =>
      (s.hif.fq.length < 32 → ∃ f ∈ t.hif.fq, f.block = 6 ∧ f.code = 1 ∧ f.detail = n.val) ∧ Dom.lane n ∈ t.gated ∧
      t.g (R.PTS_STATUS n) F.PTS_STATUS_LANE_LOCK = 0 ∧ t.isSet (R.PTS_RAW n) F.PTS_RAW_LANE_UNLOCK) ∧
  (∀ (s : State), s.inReset = false → s.loopLocked .core = false → Dom.core ∉ s.gated → Answers (exec (.domainGated
    .core) s) fun t =>
      t.gated = s.gated ++ [Dom.core] ∧ s.sameBut t [] ∧ s.sameParts t [.gated]) ∧
  (∀ (s : State) (n : Fin 10), s.inReset = false → (s.outRun n).settling = true → Answers (exec (.settleExpiry
    (.output n)) s) fun t =>
      (t.outRun n).settling = false ∧ (∀ m : Fin 10, m ≠ n → t.outRun m = s.outRun m) ∧ s.sameBut t [] ∧
      s.sameParts t [.syn]) ∧
  (∀ (s : State) (n : Nat), s.inReset = false → s.syn.settling = [.jpll] → s.loopLocked .jpll = true → s.gated =
    [.timescale] → s.hif.held = [] → s.hif.flow = [] → s.fwd = Fwd.reset → 0 < n → s.tsc.newRate = none →
    s.tsc.inject = none → s.tsc.restore = [] → s.tsc.rejoin = [] → (∀ i : Fin 3, s.tsc.copy i = s.tsc.voted) → cSub
    s.tsc.voted < secUnits → n < 2 ^ 40 → Answers (exec (.settleExpiry (.loop .jpll n)) s) fun t =>
      t.gated = [] ∧ t.syn.settling = [] ∧ t.tsc.tick = s.tsc.tick + 2 * n ∧
      cSec t.tsc.voted * secUnits + cSub t.tsc.voted = (cSec s.tsc.voted * secUnits + cSub s.tsc.voted + 2 * n * cInc
        s.tsc.voted) % (2 ^ 48 * secUnits) ∧
      t.pair R.SYN_BRIDGE_LO = 2 * n - 1 ∧ t.isSet R.SYN_RAW F.SYN_RAW_BRIDGE ∧
      s.sameBeyond t [(R.HLD_AGE_S, R.HLD_AGE_S + 4), (R.HLD_ELAPSED, R.HLD_ELAPSED + 4), (0x60000, 0x80000),
        (R.SYN_BRIDGE_LO, R.SYN_BRIDGE_LO + 8), (R.SYN_STATUS, R.SYN_STATUS + 4), (0x50000, 0x56000), (0x200000,
        0x300000), (0x380000, 0x3D0000)] ∧
      s.sameParts t [.tsc, .hld, .syn, .gated, .pts, .ptp, .guy, .fwd, .tdc]) ∧
  (∀ (s : State) (l : Loop) (n : Nat), s.inReset = false → l ∉ s.syn.settling → Answers (exec (.settleExpiry (.loop l
    n)) s) fun t =>
      s.sameBut t [] ∧ s.sameParts t []) ∧
  (∀ (s : State) (k : Fin 24) (n : Nat), s.inReset = false → s.syn.settling.count (.lane k) = 1 → s.loopLocked (.lane
    k) = true → s.hif.held = [] → s.hif.flow = [] → Answers (exec (.settleExpiry (.loop (.lane k) n)) s) fun t =>
      t.syn = { s.syn with settling := s.syn.settling.erase (.lane k) } ∧ t.gated = s.gated.erase (.lane k) ∧
      s.sameBut t [] ∧ s.sameParts t [.syn, .gated]) ∧
  (∀ (s : State) (n : Nat), s.inReset = false → s.syn.settling.count .dram = 1 → s.hif.held = [] → s.hif.flow = [] →
    s.fwdOk → Answers (exec (.settleExpiry (.loop .dram n)) s) fun t =>
      t.syn = { s.syn with settling := s.syn.settling.erase .dram } ∧
      s.sameBut t [R.QUE_DRAM_STATUS, R.QUE_STATUS] ∧ s.sameParts t [.syn]) ∧
  (∀ (s : State) (n : Fin 10), s.inReset = false → (s.outRun n).settling = false → Answers (exec (.settleExpiry
    (.output n)) s) fun t =>
      s.sameBut t [] ∧ s.sameParts t []) ∧
  (∀ (s : State) (v : Word), s.accepts R.SYN_UPDATE → s.g R.SYN_STATUS F.SYN_STATUS_PENDING = 0 → Answers (exec
    (.synUpdateGo v) s) fun t =>
      t.g R.SYN_STATUS F.SYN_STATUS_PENDING = 1 ∧ (∀ a : Nat, t.inForce a = s.inForce a) ∧
      s.sameBut t [R.SYN_STATUS] ∧ s.sameParts t [.syn]) ∧
  (∀ (s : State), s.inReset = false → s.stepDue = false → s.runs .timescale = true → s.applies = true → Answers (exec
    (.synUpdateApply) s) fun t =>
      t.g R.SYN_STATUS F.SYN_STATUS_PENDING = 0 ∧ t.isSet R.SYN_RAW F.SYN_RAW_UPDATE_DONE ∧
      (∀ (n : Fin 10) (i : Fin 7), t.inForce (R.SYN_On_CFG n + 4 * i) = t.reg (R.SYN_On_CFG n + 4 * i)) ∧
      s.sameBut t [R.SYN_On_WIDTH 8, R.SYN_On_WIDTH 9, R.SYN_STATUS] ∧ s.sameParts t [.syn]) ∧
  (∀ (s : State), s.inReset = false → Answers (exec (.claimSourceSwitch) s) fun t =>
      (∀ n : Fin 10, (t.outRun n).lower = !s.higher) ∧ s.sameBut t [] ∧ s.sameParts t [.syn]) ∧
  (∀ (s : State) (n : Fin 10) (ahead : Nat), s.inReset = false → s.running = true → s.relayed n = true → s.gateCause
    n = 0 → (s.outRun n).level = false → (s.outRun n).lastRise.any (fun x => tooSoon (s.period n)
    (F.SYN_On_GUARD_MARGIN_PPM.get (s.inForce (R.SYN_On_GUARD n))) (s.realNow + ahead + s.relayDelay n - x)) = false
    → (s.outCtx n).lowShort (s.outRun n) (s.realNow + ahead + s.relayDelay n) = false → Answers (exec
    (.relayInputEdge n true ahead) s) fun t =>
      s.emits t (.edge n true (s.realNow + ahead + s.relayDelay n)) ∧ (t.outRun n).level = true ∧
      (t.outRun n).byRelay = true ∧ (t.outRun n).lastRise = some (s.realNow + ahead + s.relayDelay n) ∧
      (∀ m : Fin 10, m ≠ n → t.outRun m = s.outRun m) ∧ s.sameBut t [] ∧ s.sameParts t [.syn]) ∧
  (∀ (s : State) (n : Fin 10) (ahead : Nat), s.inReset = false → s.running = true → s.relayed n = true → s.gateCause
    n = 0 → (s.outRun n).level = false → (s.outRun n).lastRise.any (fun x => tooSoon (s.period n)
    (F.SYN_On_GUARD_MARGIN_PPM.get (s.inForce (R.SYN_On_GUARD n))) (s.realNow + ahead + s.relayDelay n - x)) = true →
    Answers (exec (.relayInputEdge n true ahead) s) fun t =>
      t.g (R.SYN_On_STATUS n) F.SYN_On_STATUS_DROPS = min (s.g (R.SYN_On_STATUS n) F.SYN_On_STATUS_DROPS + 1) 65535 ∧
      t.isSet R.SYN_RAW F.SYN_RAW_RELAY_DROP ∧ s.sameBut t [R.SYN_On_STATUS n] ∧ s.sameParts t []) ∧
  (∀ (s : State) (n : Fin 10) (ahead : Nat), s.inReset = false → (s.outRun n).level = true → (s.outRun n).byRelay =
    true → Answers (exec (.relayInputEdge n false ahead) s) fun t =>
      s.emits t (.edge n false (s.realNow + ahead + s.relayDelay n)) ∧ (t.outRun n).level = false ∧
      (t.outRun n).lastFall = some (s.realNow + ahead + s.relayDelay n) ∧
      (∀ m : Fin 10, m ≠ n → t.outRun m = s.outRun m) ∧ s.sameBut t [] ∧ s.sameParts t [.syn])

/-- R343, R344, R348, R349 and R353: a selected edge of a channel in service is captured with the voted time, the
increment, the calibration and the delay in force; one within 3.2 ns of the last, or with a full capture FIFO, is
lost and counted; a conversion forms the oldest capture's stamp, counts it and puts it, rounded, into the host FIFO;
POP removes the oldest entry. Where the spec is silent it rests on the choices of the model in log entries 3 and 27.
-/
def Obligations.EventEdges : Prop :=
  (∀ (s : State) (e : Fin 8) (rise : Bool) (code since : Nat) (hold : Option Nat) (s1 span : Int), s.inReset = false
    → s.running = true → s.stamps e = true → s.runs .timescale = true → s.g (R.TDC_En_STATUS e) F.TDC_En_STATUS_STUCK
    = 0 → s.g (R.TDC_En_CFG e) F.TDC_En_CFG_EDGE = 2 ∨ decide (s.g (R.TDC_En_CFG e) F.TDC_En_CFG_EDGE = 0) = ((rise
    != s.on (R.IOP_PINp_STATUS (14 + e.val)) F.IOP_PINp_STATUS_POL_INV)) → 3200 ≤ since → (s.chan e).caps.length < 32
    → (s.chan e).back = false → (∀ ns ∈ hold, 2 * s.g (R.TDC_En_LIMITS e) F.TDC_En_LIMITS_FILT ≤ ns) → (s.activeCal
    e).cal = some (s1, span) → Answers (exec (.tdcEdge e rise code since hold) s) fun t =>
      t.chan e =
        { s.chan e with caps := (s.chan e).caps ++ [(⟨code % 2 ^ 13, s.nowTick, (2 ^ 49 + s.rate).toNat, s1, span, s.evtDelay e, s.g (R.TDC_En_STATUS e) F.TDC_En_STATUS_SWAPS, (s.chan e).lostCap, s.seg⟩ : TdcCap)], lostCap := false }
        ∧
      t.g (R.TDC_En_STATUS e) F.TDC_En_STATUS_LEVEL = (if ((rise != s.on (R.IOP_PINp_STATUS (14 + e.val))
        F.IOP_PINp_STATUS_POL_INV)) then 1 else 0) ∧
      s.sameBut t [R.TDC_En_STATUS e] ∧ s.sameParts t [.tdc]) ∧
  (∀ (s : State) (e : Fin 8) (rise : Bool) (code since : Nat) (hold : Option Nat), s.inReset = false → s.running =
    true → s.stamps e = true → s.runs .timescale = true → s.g (R.TDC_En_STATUS e) F.TDC_En_STATUS_STUCK = 1 → s.g
    (R.TDC_En_CFG e) F.TDC_En_CFG_EDGE = 2 ∨ decide (s.g (R.TDC_En_CFG e) F.TDC_En_CFG_EDGE = 0) = ((rise != s.on
    (R.IOP_PINp_STATUS (14 + e.val)) F.IOP_PINp_STATUS_POL_INV)) → Answers (exec (.tdcEdge e rise code since hold) s)
    fun t =>
      t.g (R.TDC_En_STATUS e) F.TDC_En_STATUS_STUCK = 0 ∧ maskBit (t.g R.TDC_STATUS F.TDC_STATUS_STUCK) e = false ∧
      t.g (R.TDC_En_STATUS e) F.TDC_En_STATUS_LEVEL = (if ((rise != s.on (R.IOP_PINp_STATUS (14 + e.val))
        F.IOP_PINp_STATUS_POL_INV)) then 1 else 0) ∧
      s.sameBut t [R.TDC_En_STATUS e, R.TDC_STATUS, R.TDC_En_CAL_S1 e, R.TDC_En_CAL_SPAN e, R.TDC_En_CNT e] ∧
      s.sameParts t [.tdc]) ∧
  (∀ (s : State) (e : Fin 8) (rise : Bool) (code since : Nat) (hold : Option Nat), s.inReset = false → s.g
    (R.TDC_En_CFG e) F.TDC_En_CFG_EDGE ≠ 2 → decide (s.g (R.TDC_En_CFG e) F.TDC_En_CFG_EDGE = 0) ≠ ((rise != s.on
    (R.IOP_PINp_STATUS (14 + e.val)) F.IOP_PINp_STATUS_POL_INV)) → Answers (exec (.tdcEdge e rise code since hold) s)
    fun t =>
      t.g (R.TDC_En_STATUS e) F.TDC_En_STATUS_LEVEL = (if ((rise != s.on (R.IOP_PINp_STATUS (14 + e.val))
        F.IOP_PINp_STATUS_POL_INV)) then 1 else 0) ∧
      s.sameBut t [R.TDC_En_STATUS e] ∧ s.sameParts t []) ∧
  (∀ (s : State) (e : Fin 8) (rise : Bool) (code since : Nat) (hold : Option Nat) (s1 span : Int), s.inReset = false
    → s.running = true → s.stamps e = true → s.runs .timescale = true → s.g (R.TDC_En_STATUS e) F.TDC_En_STATUS_STUCK
    = 0 → s.g (R.TDC_En_CFG e) F.TDC_En_CFG_EDGE = 2 ∨ decide (s.g (R.TDC_En_CFG e) F.TDC_En_CFG_EDGE = 0) = ((rise
    != s.on (R.IOP_PINp_STATUS (14 + e.val)) F.IOP_PINp_STATUS_POL_INV)) → since < 3200 → (s.activeCal e).cal = some
    (s1, span) → Answers (exec (.tdcEdge e rise code since hold) s) fun t =>
      t.g (R.TDC_En_CNT e) F.TDC_En_CNT_DEAD = min (s.g (R.TDC_En_CNT e) F.TDC_En_CNT_DEAD + 1) 65535 ∧
      t.isSet R.TDC_RAW F.TDC_RAW_DEAD ∧
      t.chan e =
        { s.chan e with lost := (s.chan e).lost + 1, lostCap := true, lostAt := (capStamp (⟨code % 2 ^ 13, s.nowTick, (2 ^ 49 + s.rate).toNat, s1, span, s.evtDelay e, s.g (R.TDC_En_STATUS e) F.TDC_En_STATUS_SWAPS, (s.chan e).lostCap, s.seg⟩ : TdcCap) :: (s.chan e).lostAt).take 128, back := false }
        ∧
      t.g (R.TDC_En_STATUS e) F.TDC_En_STATUS_LEVEL = (if ((rise != s.on (R.IOP_PINp_STATUS (14 + e.val))
        F.IOP_PINp_STATUS_POL_INV)) then 1 else 0) ∧
      s.sameBut t [R.TDC_En_STATUS e, R.TDC_En_CNT e] ∧ s.sameParts t [.tdc]) ∧
  (∀ (s : State) (e : Fin 8) (rise : Bool) (code since : Nat) (hold : Option Nat) (s1 span : Int), s.inReset = false
    → s.running = true → s.stamps e = true → s.runs .timescale = true → s.g (R.TDC_En_STATUS e) F.TDC_En_STATUS_STUCK
    = 0 → s.g (R.TDC_En_CFG e) F.TDC_En_CFG_EDGE = 2 ∨ decide (s.g (R.TDC_En_CFG e) F.TDC_En_CFG_EDGE = 0) = ((rise
    != s.on (R.IOP_PINp_STATUS (14 + e.val)) F.IOP_PINp_STATUS_POL_INV)) → 3200 ≤ since → (s.chan e).back = false →
    32 ≤ (s.chan e).caps.length → (s.activeCal e).cal = some (s1, span) → Answers (exec (.tdcEdge e rise code since
    hold) s) fun t =>
      t.g (R.TDC_En_CNT e) F.TDC_En_CNT_OVERRUN = min (s.g (R.TDC_En_CNT e) F.TDC_En_CNT_OVERRUN + 1) 255 ∧
      t.isSet R.TDC_RAW F.TDC_RAW_OVERRUN ∧
      t.chan e =
        { s.chan e with lost := (s.chan e).lost + 1, lostCap := true, lostAt := (capStamp (⟨code % 2 ^ 13, s.nowTick, (2 ^ 49 + s.rate).toNat, s1, span, s.evtDelay e, s.g (R.TDC_En_STATUS e) F.TDC_En_STATUS_SWAPS, (s.chan e).lostCap, s.seg⟩ : TdcCap) :: (s.chan e).lostAt).take 128, back := false }
        ∧
      t.g (R.TDC_En_STATUS e) F.TDC_En_STATUS_LEVEL = (if ((rise != s.on (R.IOP_PINp_STATUS (14 + e.val))
        F.IOP_PINp_STATUS_POL_INV)) then 1 else 0) ∧
      s.sameBut t [R.TDC_En_STATUS e, R.TDC_En_CNT e] ∧ s.sameParts t [.tdc]) ∧
  (∀ (s : State) (e : Fin 8) (rise : Bool) (code since : Nat) (hold : Option Nat) (ns : Nat), s.inReset = false →
    s.running = true → s.stamps e = true → s.runs .timescale = true → s.g (R.TDC_En_STATUS e) F.TDC_En_STATUS_STUCK =
    0 → s.g (R.TDC_En_CFG e) F.TDC_En_CFG_EDGE = 2 ∨ decide (s.g (R.TDC_En_CFG e) F.TDC_En_CFG_EDGE = 0) = ((rise !=
    s.on (R.IOP_PINp_STATUS (14 + e.val)) F.IOP_PINp_STATUS_POL_INV)) → 3200 ≤ since → (s.chan e).back = false →
    (s.chan e).caps.length < 32 → hold = some ns → ns < 2 * s.g (R.TDC_En_LIMITS e) F.TDC_En_LIMITS_FILT → Answers
    (exec (.tdcEdge e rise code since hold) s) fun t =>
      t.g (R.TDC_En_CNT e) F.TDC_En_CNT_GLITCH = min (s.g (R.TDC_En_CNT e) F.TDC_En_CNT_GLITCH + 1) 255 ∧
      t.isSet R.TDC_RAW F.TDC_RAW_GLITCH ∧ (t.chan e).caps = (s.chan e).caps ∧
      t.g (R.TDC_En_STATUS e) F.TDC_En_STATUS_LEVEL = (if ((rise != s.on (R.IOP_PINp_STATUS (14 + e.val))
        F.IOP_PINp_STATUS_POL_INV)) then 1 else 0) ∧
      s.sameBut t [R.TDC_En_STATUS e, R.TDC_En_CNT e] ∧ s.sameParts t [.tdc]) ∧
  (∀ (s : State) (e : Fin 8) (x : TdcCap) (l : List TdcCap), s.inReset = false → s.runs .timescale = true → (s.chan
    e).caps = x :: l → (∀ m : Fin 4, (s.unit m).win.isSome = true → s.ucfg m F.TDC_Mm_CFG_STOP ≠ e.val) → s.g
    (R.TDC_En_CFG e) F.TDC_En_CFG_FIFO_EN = 1 → (s.chan e).fifo.length < 32 → Answers (exec (.tdcStampConversion e)
    s) fun t =>
      (t.chan e).caps = l ∧
      (t.chan e).fifo = (s.chan e).fifo ++ [(round64 (capStamp x), (s.chan e).lostPush || x.lost)] ∧
      t.g (R.TDC_En_FIFO_STATUS e) F.TDC_En_FIFO_STATUS_DEPTH = (s.chan e).fifo.length + 1 ∧
      (t.chan e).hist = ((capStamp x, x.seg) :: (s.chan e).hist).take 128 ∧
      t.reg (R.TDC_En_EVENTS e) = s.reg (R.TDC_En_EVENTS e) + 1 ∧
      (∀ m : Fin 4, s.unitOn m = true → s.ucfg m F.TDC_Mm_CFG_START = e.val → (t.unit m).starts = (s.unit m).starts
        ++ [capStamp x]) ∧
      s.sameBut t [R.TDC_En_EVENTS e, R.TDC_En_FIFO_STATUS e] ∧ s.sameParts t [.tdc]) ∧
  (∀ (s : State) (e : Fin 8) (x : TdcCap) (l : List TdcCap), s.inReset = false → s.runs .timescale = true → (s.chan
    e).caps = x :: l → s.g (R.TDC_En_CFG e) F.TDC_En_CFG_FIFO_EN = 1 → (s.chan e).fifo.length < 32 → Answers (exec
    (.tdcStampConversion e) s) fun t =>
      (t.chan e).caps = l ∧
      (t.chan e).fifo = (s.chan e).fifo ++ [(round64 (capStamp x), (s.chan e).lostPush || x.lost)] ∧
      t.g (R.TDC_En_FIFO_STATUS e) F.TDC_En_FIFO_STATUS_DEPTH = (s.chan e).fifo.length + 1 ∧
      (t.chan e).hist = ((capStamp x, x.seg) :: (s.chan e).hist).take 128 ∧
      t.reg (R.TDC_En_EVENTS e) = s.reg (R.TDC_En_EVENTS e) + 1 ∧
      (∀ m : Fin 4, s.unitOn m = true → s.ucfg m F.TDC_Mm_CFG_START = e.val → (t.unit m).starts = (s.unit m).starts
        ++ [capStamp x]) ∧
      s.sameBeyond t [(R.TDC_Mm_CFG 0, R.TDC_Mm_CFG 3 + 0x80), (R.TDC_En_EVENTS e, R.TDC_En_EVENTS e + 4),
        (R.TDC_En_FIFO_STATUS e, R.TDC_En_FIFO_STATUS e + 4)] ∧
      s.sameParts t [.tdc]) ∧
  (∀ (s : State) (e : Fin 8) (x : TdcCap) (l : List TdcCap), s.inReset = false → s.runs .timescale = true → (s.chan
    e).caps = x :: l → (∀ m : Fin 4, (s.unit m).win.isSome = true → s.ucfg m F.TDC_Mm_CFG_STOP ≠ e.val) → s.g
    (R.TDC_En_CFG e) F.TDC_En_CFG_FIFO_EN = 1 → (s.chan e).fifo.length = 32 → Answers (exec (.tdcStampConversion e)
    s) fun t =>
      (t.chan e).caps = l ∧ (t.chan e).fifo = (s.chan e).fifo ∧
      t.reg (R.TDC_En_EVENTS e) = s.reg (R.TDC_En_EVENTS e) + 1 ∧
      t.g (R.TDC_En_FIFO_STATUS e) F.TDC_En_FIFO_STATUS_OVERFLOW = min (s.g (R.TDC_En_FIFO_STATUS e)
        F.TDC_En_FIFO_STATUS_OVERFLOW + 1) 65535 ∧
      t.isSet R.TDC_RAW F.TDC_RAW_FIFO_OVERFLOW ∧
      (∀ m : Fin 4, s.unitOn m = true → s.ucfg m F.TDC_Mm_CFG_START = e.val → (t.unit m).starts = (s.unit m).starts
        ++ [capStamp x]) ∧
      s.sameBut t [R.TDC_En_EVENTS e, R.TDC_En_FIFO_STATUS e] ∧ s.sameParts t [.tdc]) ∧
  (∀ (s : State) (e : Fin 8) (x : TdcCap) (l : List TdcCap), s.inReset = false → s.runs .timescale = true → (s.chan
    e).caps = x :: l → s.g (R.TDC_En_CFG e) F.TDC_En_CFG_FIFO_EN = 1 → (s.chan e).fifo.length = 32 → Answers (exec
    (.tdcStampConversion e) s) fun t =>
      (t.chan e).caps = l ∧ (t.chan e).fifo = (s.chan e).fifo ∧
      t.reg (R.TDC_En_EVENTS e) = s.reg (R.TDC_En_EVENTS e) + 1 ∧
      t.g (R.TDC_En_FIFO_STATUS e) F.TDC_En_FIFO_STATUS_OVERFLOW = min (s.g (R.TDC_En_FIFO_STATUS e)
        F.TDC_En_FIFO_STATUS_OVERFLOW + 1) 65535 ∧
      t.isSet R.TDC_RAW F.TDC_RAW_FIFO_OVERFLOW ∧
      (∀ m : Fin 4, s.unitOn m = true → s.ucfg m F.TDC_Mm_CFG_START = e.val → (t.unit m).starts = (s.unit m).starts
        ++ [capStamp x]) ∧
      s.sameBeyond t [(R.TDC_Mm_CFG 0, R.TDC_Mm_CFG 3 + 0x80), (R.TDC_En_EVENTS e, R.TDC_En_EVENTS e + 4),
        (R.TDC_En_FIFO_STATUS e, R.TDC_En_FIFO_STATUS e + 4)] ∧
      s.sameParts t [.tdc]) ∧
  (∀ (s : State) (e : Fin 8) (x : TdcCap) (l : List TdcCap), s.inReset = false → s.runs .timescale = true → (s.chan
    e).caps = x :: l → s.g (R.TDC_En_CFG e) F.TDC_En_CFG_FIFO_EN = 0 → Answers (exec (.tdcStampConversion e) s) fun t
    =>
      (t.chan e).caps = l ∧ (t.chan e).fifo = (s.chan e).fifo ∧
      (t.chan e).hist = ((capStamp x, x.seg) :: (s.chan e).hist).take 128 ∧
      t.reg (R.TDC_En_EVENTS e) = s.reg (R.TDC_En_EVENTS e) + 1 ∧
      (∀ m : Fin 4, s.unitOn m = true → s.ucfg m F.TDC_Mm_CFG_START = e.val → (t.unit m).starts = (s.unit m).starts
        ++ [capStamp x]) ∧
      s.sameBeyond t [(R.TDC_Mm_CFG 0, R.TDC_Mm_CFG 3 + 0x80), (R.TDC_En_EVENTS e, R.TDC_En_EVENTS e + 4)] ∧
      s.sameParts t [.tdc]) ∧
  (∀ (s : State) (e : Fin 8) (v : Word) (x : Tick64 × Bool) (l : List (Tick64 × Bool)), s.accepts (R.TDC_En_FIFO_POP
    e) → (s.chan e).fifo = x :: l → l.length < 32 → Answers (exec (.tdcFifoPop e v) s) fun t =>
      t.chan e = { s.chan e with fifo := l } ∧ t.g (R.TDC_En_FIFO_STATUS e) F.TDC_En_FIFO_STATUS_DEPTH = l.length ∧
      s.sameBut t [R.TDC_En_FIFO_STATUS e] ∧ s.sameParts t [.tdc])

/-- R345 to R347, R351 and R352: a valid calibration cycle keeps its sums and an invalid one clears the interpolator
and sets CAL_FAIL; a swap at a 1 ms point exchanges the interpolators and counts; a held level makes a channel STUCK
and takes it out of service; more losses in 1 ms than OVR_LIMIT disable a channel with a fault record; REARM enables
it again and calibrates it. Where the spec is silent it rests on the choices of the model in log entries 3 and 27. -/
def Obligations.EventChannels : Prop :=
  (∀ (s : State) (e : Fin 8) (a b : Nat), s.inReset = false → s.chanEn e = true → s.runs .timescale = true → (s.chan
    e).calA = true → (s.chan e).calB = true → s.g (R.TDC_En_STATUS e) F.TDC_En_STATUS_IN_SERVICE = 0 → calValid a ((b
    : Int) - a) = true → Answers (exec (.tdcCalCycleDone e false a b) s) fun t =>
      (t.chan e).a = (⟨some ((a : Int), (b : Int) - a), true⟩ : TdcCal) ∧ (t.chan e).calA = false ∧
      (t.chan e).calB = true ∧
      s.sameBut t [R.TDC_En_STATUS e, R.TDC_STATUS, R.TDC_En_CAL_S1 e, R.TDC_En_CAL_SPAN e] ∧ s.sameParts t [.tdc]) ∧
  (∀ (s : State) (e : Fin 8) (a b : Nat), s.inReset = false → s.chanEn e = true → s.runs .timescale = true → (s.chan
    e).calA = true → (s.chan e).calB = true → s.g (R.TDC_En_STATUS e) F.TDC_En_STATUS_IN_SERVICE = 0 → calValid a ((b
    : Int) - a) = false → Answers (exec (.tdcCalCycleDone e true a b) s) fun t =>
      (t.chan e).b = (⟨none, false⟩ : TdcCal) ∧ (t.chan e).calB = false ∧ (t.chan e).calA = true ∧
      t.isSet R.TDC_RAW F.TDC_RAW_CAL_FAIL ∧
      s.sameBut t [R.TDC_En_STATUS e, R.TDC_STATUS, R.TDC_En_CAL_S1 e, R.TDC_En_CAL_SPAN e] ∧ s.sameParts t [.tdc]) ∧
  (∀ (s : State) (e : Fin 8), s.inReset = false → s.runs .timescale = true → s.stamps e = true → s.g (R.TDC_En_STATUS
    e) F.TDC_En_STATUS_STUCK = 0 → (if s.g (R.TDC_En_STATUS e) F.TDC_En_STATUS_ACTIVE = 1 then (s.chan e).a else
    (s.chan e).b).fresh = true → (if s.g (R.TDC_En_STATUS e) F.TDC_En_STATUS_ACTIVE = 1 then (s.chan e).a else
    (s.chan e).b).cal ≠ none → (∀ m : Fin 4, s.usesOpen e m = false) → Answers (exec (.tdcInterpolatorSwap e .point)
    s) fun t =>
      t.g (R.TDC_En_STATUS e) F.TDC_En_STATUS_ACTIVE = 1 - s.g (R.TDC_En_STATUS e) F.TDC_En_STATUS_ACTIVE ∧
      t.g (R.TDC_En_STATUS e) F.TDC_En_STATUS_SWAPS = (s.g (R.TDC_En_STATUS e) F.TDC_En_STATUS_SWAPS + 1) % 65536 ∧
      t.chan e =
        { s.chan e with a := { (s.chan e).a with fresh := false }, b := { (s.chan e).b with fresh := false } } ∧
      s.sameBut t [R.TDC_En_STATUS e, R.TDC_STATUS, R.TDC_En_CAL_S1 e, R.TDC_En_CAL_SPAN e] ∧ s.sameParts t [.tdc]) ∧
  (∀ (s : State) (e : Fin 8), s.inReset = false → s.runs .timescale = true → s.chanEn e = true → s.g (R.TDC_En_LIMITS
    e) F.TDC_En_LIMITS_STUCK_MS ≠ 0 → s.g (R.TDC_En_STATUS e) F.TDC_En_STATUS_STUCK = 0 → s.g (R.TDC_En_CFG e)
    F.TDC_En_CFG_EDGE = 2 ∨ s.on (R.TDC_En_STATUS e) F.TDC_En_STATUS_LEVEL = (s.g (R.TDC_En_CFG e) F.TDC_En_CFG_EDGE
    == 0) → Answers (exec (.tdcStuck e) s) fun t =>
      t.g (R.TDC_En_STATUS e) F.TDC_En_STATUS_STUCK = 1 ∧ t.g (R.TDC_En_STATUS e) F.TDC_En_STATUS_IN_SERVICE = 0 ∧
      maskBit (t.g R.TDC_STATUS F.TDC_STATUS_STUCK) e = true ∧
      maskBit (t.g R.TDC_STATUS F.TDC_STATUS_IN_SERVICE) e = false ∧ t.isSet R.TDC_RAW F.TDC_RAW_STUCK ∧
      s.sameBeyond t [(R.TDC_Mm_CFG 0, R.TDC_Mm_CFG 3 + 0x80), (R.TDC_STATUS, R.TDC_STATUS + 4), (R.TDC_En_STATUS e,
        R.TDC_En_STATUS e + 4), (R.TDC_En_CAL_S1 e, R.TDC_En_CAL_S1 e + 4), (R.TDC_En_CAL_SPAN e, R.TDC_En_CAL_SPAN e
        + 4)] ∧
      s.sameParts t [.tdc]) ∧
  (∀ (s : State) (e : Fin 8), s.inReset = false → s.runs .timescale = true → s.g (R.TDC_En_CFG e)
    F.TDC_En_CFG_OVR_DIS_EN = 1 → s.chanEn e = true → s.g (R.TDC_En_STATUS e) F.TDC_En_STATUS_DISABLED = 0 → s.g
    (R.TDC_En_LIMITS e) F.TDC_En_LIMITS_OVR_LIMIT < (s.chan e).lost → Answers (exec (.tdcOverrunInterval e) s) fun t
    =>
      (t.chan e).lost = 0 ∧ t.g (R.TDC_En_STATUS e) F.TDC_En_STATUS_DISABLED = 1 ∧
      t.g (R.TDC_En_STATUS e) F.TDC_En_STATUS_IN_SERVICE = 0 ∧ t.isSet R.TDC_RAW F.TDC_RAW_OVR_DISABLE ∧
      (s.hif.fq.length < 32 → ∃ f ∈ t.hif.fq, f.block = 13 ∧ f.code = 2 ∧ f.detail = e.val) ∧
      s.sameBeyond t [(R.TDC_Mm_CFG 0, R.TDC_Mm_CFG 3 + 0x80), (R.TDC_STATUS, R.TDC_STATUS + 4), (R.TDC_En_STATUS e,
        R.TDC_En_STATUS e + 4), (R.TDC_En_CAL_S1 e, R.TDC_En_CAL_S1 e + 4), (R.TDC_En_CAL_SPAN e, R.TDC_En_CAL_SPAN e
        + 4)] ∧
      s.sameParts t [.tdc]) ∧
  (∀ (s : State) (e : Fin 8), s.inReset = false → s.runs .timescale = true → (s.chan e).lost ≤ s.g (R.TDC_En_LIMITS
    e) F.TDC_En_LIMITS_OVR_LIMIT → Answers (exec (.tdcOverrunInterval e) s) fun t =>
      t.chan e = { s.chan e with lost := 0 } ∧ s.sameBut t [] ∧ s.sameParts t [.tdc]) ∧
  (∀ (s : State) (v : Word), s.accepts R.TDC_REARM → Answers (exec (.tdcRearm v) s) fun t =>
      (∀ e : Fin 8, bit v e = true → s.on (R.TDC_En_STATUS e) F.TDC_En_STATUS_DISABLED = true → t.on (R.TDC_En_STATUS
        e) F.TDC_En_STATUS_DISABLED = false ∧ (t.chan e).calA = true ∧ (t.chan e).calB = true) ∧
      (∀ e : Fin 8, bit v e = false → t.reg (R.TDC_En_STATUS e) = s.reg (R.TDC_En_STATUS e) ∧ t.chan e = s.chan e) ∧
      s.sameBeyond t [(0x380000, 0x3C0000)] ∧ s.sameParts t [.tdc])

/-- R355 to R359: a start opens a window and counts it, or, before the close of the one that is open, is a window
event; a stop within the window gives an interval in LAST; a window that closes without a stop is event 1; a
frequency window that closes with two edges or more gives their frequency. Where the spec is silent it rests on the
choices of the model in log entries 3 and 27. -/
def Obligations.MeasurementWindows : Prop :=
  (∀ (s : State) (m : Fin 4) (a : Tick64) (l : List Tick64), s.inReset = false → s.runs .timescale = true → (s.unit
    m).starts = a :: l → s.unitOn m = true → s.g (R.TDC_Mm_CFG m) F.TDC_Mm_CFG_START = 8 ∨ s.g (R.TDC_Mm_CFG m)
    F.TDC_Mm_CFG_START < 8 ∧ s.inService (s.g (R.TDC_Mm_CFG m) F.TDC_Mm_CFG_START) = true → (s.unit m).win = none →
    (s.chan (s.g (R.TDC_Mm_CFG m) F.TDC_Mm_CFG_STOP)).hist = [] → (s.chan (s.g (R.TDC_Mm_CFG m)
    F.TDC_Mm_CFG_STOP)).gone = none → Answers (exec (.tdcWindowStart m) s) fun t =>
      (t.unit m =
        { s.unit m with starts := l, win := some (⟨a, if s.g (R.TDC_Mm_CFG m) F.TDC_Mm_CFG_START = s.g (R.TDC_Mm_CFG m) F.TDC_Mm_CFG_STOP ∧ s.g (R.TDC_Mm_CFG m) F.TDC_Mm_CFG_MODE = 1 then 1 else 0, a, a, false, (s.chan (s.g (R.TDC_Mm_CFG m) F.TDC_Mm_CFG_STOP)).lostAt.any (s.covers m a), !s.inService (s.g (R.TDC_Mm_CFG m) F.TDC_Mm_CFG_STOP)⟩ : TdcWin) })
        ∧
      t.g (R.TDC_Mm_STATUS m) F.TDC_Mm_STATUS_WINDOW = (s.g (R.TDC_Mm_STATUS m) F.TDC_Mm_STATUS_WINDOW + 1) % 65536 ∧
      t.g (R.TDC_Mm_STATUS m) F.TDC_Mm_STATUS_WIN_OPEN = 1 ∧ s.sameBut t [R.TDC_Mm_STATUS m] ∧ s.sameParts t [.tdc]) ∧
  (∀ (s : State) (m : Fin 4) (a : Tick64) (l : List Tick64) (w : TdcWin), s.inReset = false → s.runs .timescale =
    true → (s.unit m).starts = a :: l → s.unitOn m = true → s.g (R.TDC_Mm_CFG m) F.TDC_Mm_CFG_START = 8 → (s.unit
    m).win = some w → tickDiff a w.start < s.winClose m → maskBit (s.g (R.TDC_Mm_CFG m) F.TDC_Mm_CFG_WEV_EN) 4 = true
    → Answers (exec (.tdcWindowStart m) s) fun t =>
      t.unit m = { s.unit m with starts := l } ∧
      t.g (R.TDC_Mm_CNT m) F.TDC_Mm_CNT_WEV = min (s.g (R.TDC_Mm_CNT m) F.TDC_Mm_CNT_WEV + 1) 65535 ∧
      t.isSet R.TDC_RAW F.TDC_RAW_WEV ∧ s.sameBut t [R.TDC_Mm_CNT m] ∧ s.sameParts t [.tdc]) ∧
  (∀ (s : State) (m : Fin 4) (w : TdcWin), s.inReset = false → s.runs .timescale = true → (s.unit m).win = some w →
    w.stepped = false → w.lost = false → w.noStop = false → s.g (R.TDC_Mm_CFG m) F.TDC_Mm_CFG_MODE = 0 → w.count = 0
    → maskBit (s.g (R.TDC_Mm_CFG m) F.TDC_Mm_CFG_WEV_EN) 0 = true → Answers (exec (.tdcWindowClose m) s) fun t =>
      (t.unit m).win = none ∧ t.g (R.TDC_Mm_STATUS m) F.TDC_Mm_STATUS_WIN_OPEN = 0 ∧
      t.g (R.TDC_Mm_CNT m) F.TDC_Mm_CNT_WEV = min (s.g (R.TDC_Mm_CNT m) F.TDC_Mm_CNT_WEV + 1) 65535 ∧
      t.isSet R.TDC_RAW F.TDC_RAW_WEV ∧ s.sameBut t [R.TDC_Mm_CNT m, R.TDC_Mm_STATUS m] ∧ s.sameParts t [.tdc]) ∧
  (∀ (s : State) (m : Fin 4) (w : TdcWin), s.inReset = false → s.runs .timescale = true → (s.unit m).win = some w →
    w.stepped = false → w.lost = false → s.g (R.TDC_Mm_CFG m) F.TDC_Mm_CFG_MODE = 1 → 2 ≤ w.count → 0 < tickDiff
    w.last w.first → Answers (exec (.tdcWindowClose m) s) fun t =>
      (t.unit m).win = none ∧ t.g (R.TDC_Mm_STATUS m) F.TDC_Mm_STATUS_WIN_OPEN = 0 ∧
      t.pairI (R.TDC_Mm_LAST_LO m) = sx 64 (((w.count - 1) * 65536000000000 * 2 ^ 32 + (tickDiff w.last
        w.first).toNat / 2) / (tickDiff w.last w.first).toNat) ∧
      s.sameBeyond t [(R.TDC_Mm_CFG m, R.TDC_Mm_CFG m + 0x80)] ∧ s.sameParts t [.tdc, .free]) ∧
  (∀ (s : State) (e : Fin 8) (m : Fin 4) (x : TdcCap) (l : List TdcCap) (w : TdcWin), s.inReset = false → s.runs
    .timescale = true → (s.chan e).caps = x :: l → (s.unit m).win = some w → s.g (R.TDC_Mm_CFG m) F.TDC_Mm_CFG_STOP =
    e.val → s.g (R.TDC_Mm_CFG m) F.TDC_Mm_CFG_START ≠ e.val → s.g (R.TDC_Mm_CFG m) F.TDC_Mm_CFG_MODE = 0 → s.g
    (R.TDC_Mm_CFG m) F.TDC_Mm_CFG_STOPS = 1 ∨ w.count = 0 → w.stepped = false → s.winOpen m ≤ (tickDiff (capStamp x)
    w.start) → (tickDiff (capStamp x) w.start) ≤ s.winClose m → 64 ≤ (tickDiff (capStamp x) w.start) ∨ (tickDiff
    (capStamp x) w.start) ≤ -64 → Answers (exec (.tdcStampConversion e) s) fun t =>
      t.pairI (R.TDC_Mm_LAST_LO m) = ((tickDiff (capStamp x) w.start) + 32) / 64 ∧
      s.sameBeyond t [(R.TDC_Mm_CFG 0, R.TDC_Mm_CFG 3 + 0x80), (R.TDC_En_EVENTS e, R.TDC_En_EVENTS e + 4),
        (R.TDC_En_FIFO_STATUS e, R.TDC_En_FIFO_STATUS e + 4)] ∧
      s.sameParts t [.tdc])

/-- R69 and R84 in triplex: on a tick with no upset and no new RATE all copies and the voted state move on by I
modulo 2^48 seconds and keep I; a supplied RATE becomes I = 2^49 + RATE; one upset copy is outvoted, reloaded and
counted, and sets DISAGREE. R87 and R88: a disagreement of a copy whose second-last one lies less than 500,000,000
ticks back is fenced: its FENCED bit is set, the mode is duplex, FENCE is set and fault code 0x01 is queued. Where
the spec is silent it rests on the choices of the model in log entries 3, 12 and 41. -/
def Obligations.TickAndFencing : Prop :=
  (∀ (s : State), s.inReset = false → s.runs .timescale = true → s.tsc.inject = none → s.tsc.restore = [] →
    s.tsc.rejoin = [] → s.duplex = false → s.tsc.c0 = s.tsc.voted → s.tsc.c1 = s.tsc.voted → s.tsc.c2 = s.tsc.voted →
    s.tsc.newRate = none → cSub s.tsc.voted < secUnits → cInc s.tsc.voted < secUnits → Answers (exec (.timescaleTick
    0 0 0) s) fun t =>
      t.hld = { s.hld with secOff := t.hld.secOff } ∧
      cSec t.tsc.voted * secUnits + cSub t.tsc.voted = (cSec s.tsc.voted * secUnits + cSub s.tsc.voted + cInc
        s.tsc.voted) % (2 ^ 48 * secUnits) ∧
      cInc t.tsc.voted = cInc s.tsc.voted ∧ (∀ i : Fin 3, t.tsc.copy i = t.tsc.voted) ∧
      t.tsc.tick = s.tsc.tick + 1 ∧ s.sameBut t [] ∧ s.sameParts t [.tsc, .hld, .syn]) ∧
  (∀ (s : State) (r : Int), s.inReset = false → s.runs .timescale = true → s.tsc.inject = none → s.tsc.restore = [] →
    s.tsc.rejoin = [] → s.duplex = false → s.tsc.c0 = s.tsc.voted → s.tsc.c1 = s.tsc.voted → s.tsc.c2 = s.tsc.voted →
    s.tsc.newRate = some r → -(2 ^ 37) ≤ r → r ≤ 2 ^ 37 → Answers (exec (.timescaleTick 0 0 0) s) fun t =>
      t.hld = { s.hld with secOff := t.hld.secOff } ∧ (cInc t.tsc.voted : Int) = 2 ^ 49 + r ∧
      (∀ i : Fin 3, t.tsc.copy i = t.tsc.voted) ∧ t.tsc.newRate = none ∧ s.sameBut t [] ∧
      s.sameParts t [.tsc, .hld, .syn]) ∧
  (∀ (s : State) (u : Copy), s.inReset = false → s.runs .timescale = true → s.tsc.inject = none → s.tsc.restore = []
    → s.tsc.rejoin = [] → s.duplex = false → s.tsc.c0 = s.tsc.voted → s.tsc.c1 = s.tsc.voted → s.tsc.c2 = s.tsc.voted
    → u ≠ 0 → s.tsc.h1.seen < 2 → Answers (exec (.timescaleTick 0 u 0) s) fun t =>
      t.hld = { s.hld with secOff := t.hld.secOff } ∧ (∀ i : Fin 3, t.tsc.copy i = t.tsc.voted) ∧
      t.g R.TSC_DISAGREE_CNT F.TSC_DISAGREE_CNT_COPY1 = min (s.g R.TSC_DISAGREE_CNT F.TSC_DISAGREE_CNT_COPY1 + 1) 255 ∧
      t.isSet R.TSC_RAW F.TSC_RAW_DISAGREE ∧ s.sameBut t [R.TSC_DISAGREE_CNT] ∧ s.sameParts t [.tsc, .hld, .syn]) ∧
  (∀ (s : State) (u v w : Copy), s.inReset = false → s.runs .timescale = false → Answers (exec (.timescaleTick u v w)
    s) fun t =>
      s.sameBut t [] ∧ s.sameParts t []) ∧
  (∀ (s : State) (u v w : Copy), s.inReset = false → s.runs .timescale = true → Answers (exec (.timescaleTick u v w)
    s) fun t =>
      t.tsc.tick = s.tsc.tick + 1 ∧ t.hld = { s.hld with secOff := t.hld.secOff } ∧ t.tsc.newRate = none ∧
      t.tsc.inject = none ∧ t.tsc.intern = [] ∧ t.tsc.due = s.tsc.due ++ s.tsc.intern ∧
      t.tsc.hostRipe = s.tsc.host.isSome ∧ t.tsc.restore = [] ∧ s.sameBut t [R.TSC_STATUS, R.TSC_DISAGREE_CNT] ∧
      s.sameParts t [.tsc, .hld, .syn]) ∧
  (∀ (s : State) (u : Copy), s.inReset = false → s.runs .timescale = true → s.tsc.inject = none → s.tsc.restore = []
    → s.tsc.rejoin = [] → s.duplex = false → s.tsc.c0 = s.tsc.voted → s.tsc.c1 = s.tsc.voted → s.tsc.c2 = s.tsc.voted
    → u ≠ 0 → s.tsc.h0.seen < 2 → Answers (exec (.timescaleTick u 0 0) s) fun t =>
      t.hld = { s.hld with secOff := t.hld.secOff } ∧ (∀ i : Fin 3, t.tsc.copy i = t.tsc.voted) ∧
      t.g R.TSC_DISAGREE_CNT F.TSC_DISAGREE_CNT_COPY0 = min (s.g R.TSC_DISAGREE_CNT F.TSC_DISAGREE_CNT_COPY0 + 1) 255 ∧
      t.isSet R.TSC_RAW F.TSC_RAW_DISAGREE ∧ s.sameBut t [R.TSC_DISAGREE_CNT] ∧ s.sameParts t [.tsc, .hld, .syn]) ∧
  (∀ (s : State) (u : Copy), s.inReset = false → s.runs .timescale = true → s.tsc.inject = none → s.tsc.restore = []
    → s.tsc.rejoin = [] → s.duplex = false → s.tsc.c0 = s.tsc.voted → s.tsc.c1 = s.tsc.voted → s.tsc.c2 = s.tsc.voted
    → u ≠ 0 → s.tsc.h2.seen < 2 → Answers (exec (.timescaleTick 0 0 u) s) fun t =>
      t.hld = { s.hld with secOff := t.hld.secOff } ∧ (∀ i : Fin 3, t.tsc.copy i = t.tsc.voted) ∧
      t.g R.TSC_DISAGREE_CNT F.TSC_DISAGREE_CNT_COPY2 = min (s.g R.TSC_DISAGREE_CNT F.TSC_DISAGREE_CNT_COPY2 + 1) 255 ∧
      t.isSet R.TSC_RAW F.TSC_RAW_DISAGREE ∧ s.sameBut t [R.TSC_DISAGREE_CNT] ∧ s.sameParts t [.tsc, .hld, .syn]) ∧
  (∀ (s : State) (u v : Copy), s.inReset = false → s.runs .timescale = true → s.tsc.inject = none → s.tsc.restore =
    [] → s.tsc.rejoin = [] → s.duplex = false → s.tsc.c0 = s.tsc.voted → s.tsc.c1 = s.tsc.voted → s.tsc.c2 =
    s.tsc.voted → s.tsc.newRate = none → cSub s.tsc.voted < secUnits → cInc s.tsc.voted < secUnits → u ≠ 0 → v ≠ 0 →
    u ≠ v → Answers (exec (.timescaleTick u v 0) s) fun t =>
      t.hld = { s.hld with secOff := t.hld.secOff } ∧
      cSec t.tsc.voted * secUnits + cSub t.tsc.voted = (cSec s.tsc.voted * secUnits + cSub s.tsc.voted + cInc
        s.tsc.voted) % (2 ^ 48 * secUnits) ∧
      (∀ i : Fin 3, t.tsc.copy i = t.tsc.voted) ∧ t.isSet R.TSC_RAW F.TSC_RAW_NO_MAJORITY ∧
      t.g R.TSC_STATUS F.TSC_STATUS_SUSPECT = 1 ∧ s.sameBut t [R.TSC_STATUS] ∧ s.sameParts t [.tsc, .hld, .syn]) ∧
  (∀ (s : State) (u v : Copy), s.inReset = false → s.runs .timescale = true → s.tsc.inject = none → s.tsc.restore =
    [] → s.tsc.rejoin = [] → s.tsc.c0 = s.tsc.voted → s.tsc.c1 = s.tsc.voted → s.duplex = true → s.g R.TSC_STATUS
    F.TSC_STATUS_FENCED = 4 → s.tsc.newRate = none → cSub s.tsc.voted < secUnits → cInc s.tsc.voted < secUnits → u =
    v → Answers (exec (.timescaleTick u v 0) s) fun t =>
      t.hld = { s.hld with secOff := t.hld.secOff } ∧ t.tsc.c0 = t.tsc.voted ∧ t.tsc.c1 = t.tsc.voted ∧
      (u = 0 → cSec t.tsc.voted * secUnits + cSub t.tsc.voted = (cSec s.tsc.voted * secUnits + cSub s.tsc.voted +
        cInc s.tsc.voted) % (2 ^ 48 * secUnits)) ∧
      s.sameBut t [] ∧ s.sameParts t [.tsc, .hld, .syn]) ∧
  (∀ (s : State) (u : Copy), s.inReset = false → s.runs .timescale = true → s.tsc.inject = none → s.tsc.restore = []
    → s.tsc.rejoin = [] → s.tsc.c0 = s.tsc.voted → s.tsc.c1 = s.tsc.voted → s.duplex = true → s.g R.TSC_STATUS
    F.TSC_STATUS_FENCED = 4 → s.tsc.newRate = none → cSub s.tsc.voted < secUnits → cInc s.tsc.voted < secUnits → u ≠
    0 → Answers (exec (.timescaleTick u 0 0) s) fun t =>
      t.hld = { s.hld with secOff := t.hld.secOff } ∧
      cSec t.tsc.voted * secUnits + cSub t.tsc.voted = (cSec s.tsc.voted * secUnits + cSub s.tsc.voted + cInc
        s.tsc.voted) % (2 ^ 48 * secUnits) ∧
      t.tsc.c0 = t.tsc.voted ∧ t.tsc.c1 = t.tsc.voted ∧
      t.g R.TSC_DISAGREE_CNT F.TSC_DISAGREE_CNT_DUPLEX = min (s.g R.TSC_DISAGREE_CNT F.TSC_DISAGREE_CNT_DUPLEX + 1)
        255 ∧
      t.isSet R.TSC_RAW F.TSC_RAW_DUPLEX_MISMATCH ∧ s.sameBut t [R.TSC_DISAGREE_CNT] ∧
      s.sameParts t [.tsc, .hld, .syn]) ∧
  (∀ (s : State) (u : Copy), s.inReset = false → s.runs .timescale = true → s.tsc.inject = none → s.tsc.restore = []
    → s.tsc.rejoin = [] → s.tsc.c0 = s.tsc.voted → s.tsc.c1 = s.tsc.voted → s.duplex = true → s.g R.TSC_STATUS
    F.TSC_STATUS_FENCED = 4 → s.tsc.newRate = none → cSub s.tsc.voted < secUnits → cInc s.tsc.voted < secUnits → u ≠
    0 → Answers (exec (.timescaleTick 0 u 0) s) fun t =>
      t.hld = { s.hld with secOff := t.hld.secOff } ∧
      cSec t.tsc.voted * secUnits + cSub t.tsc.voted = (cSec s.tsc.voted * secUnits + cSub s.tsc.voted + cInc
        s.tsc.voted) % (2 ^ 48 * secUnits) ∧
      t.tsc.c0 = t.tsc.voted ∧ t.tsc.c1 = t.tsc.voted ∧
      t.g R.TSC_DISAGREE_CNT F.TSC_DISAGREE_CNT_DUPLEX = min (s.g R.TSC_DISAGREE_CNT F.TSC_DISAGREE_CNT_DUPLEX + 1)
        255 ∧
      t.isSet R.TSC_RAW F.TSC_RAW_DUPLEX_MISMATCH ∧ s.sameBut t [R.TSC_DISAGREE_CNT] ∧
      s.sameParts t [.tsc, .hld, .syn]) ∧
  (∀ (s : State) (u v : Copy), s.inReset = false → s.runs .timescale = true → s.tsc.inject = none → s.tsc.restore =
    [] → s.tsc.rejoin = [] → s.tsc.c0 = s.tsc.voted → s.tsc.c1 = s.tsc.voted → s.duplex = true → s.g R.TSC_STATUS
    F.TSC_STATUS_FENCED = 4 → s.tsc.newRate = none → cSub s.tsc.voted < secUnits → cInc s.tsc.voted < secUnits → u ≠
    0 → v ≠ 0 → u ≠ v → Answers (exec (.timescaleTick u v 0) s) fun t =>
      t.hld = { s.hld with secOff := t.hld.secOff } ∧
      cSec t.tsc.voted * secUnits + cSub t.tsc.voted = (cSec s.tsc.voted * secUnits + cSub s.tsc.voted + cInc
        s.tsc.voted) % (2 ^ 48 * secUnits) ∧
      t.tsc.c0 = t.tsc.voted ∧ t.tsc.c1 = t.tsc.voted ∧ t.g R.TSC_STATUS F.TSC_STATUS_SUSPECT = 1 ∧
      s.sameBut t [R.TSC_STATUS] ∧ s.sameParts t [.tsc, .hld, .syn]) ∧
  (∀ (s : State) (u : Copy), s.inReset = false → s.runs .timescale = true → s.tsc.inject = none → s.tsc.restore = []
    → s.tsc.rejoin = [] → s.duplex = false → s.tsc.c0 = s.tsc.voted → s.tsc.c1 = s.tsc.voted → s.tsc.c2 = s.tsc.voted
    → u ≠ 0 → s.tsc.h1.seen = 2 → s.tsc.tick + 1 - s.tsc.h1.last2 < 500000000 → Tbl.get none s.tsc.lastFault 1 = none
    → s.hif.fq.length < 32 → Answers (exec (.timescaleTick 0 u 0) s) fun t =>
      t.hld = { s.hld with secOff := t.hld.secOff } ∧ t.fenced 1 = true ∧ t.duplex = true ∧
      t.isSet R.TSC_RAW F.TSC_RAW_FENCE ∧ (∃ f ∈ t.hif.fq, f.block = 2 ∧ f.code = 1 ∧ f.detail = 1) ∧
      s.sameBut t [R.TSC_STATUS, R.TSC_DISAGREE_CNT] ∧ s.sameParts t [.tsc, .hld, .syn]) ∧
  (∀ (s : State) (u : Copy), s.inReset = false → s.runs .timescale = true → s.tsc.inject = none → s.tsc.restore = []
    → s.tsc.rejoin = [] → s.duplex = false → s.tsc.c0 = s.tsc.voted → s.tsc.c1 = s.tsc.voted → s.tsc.c2 = s.tsc.voted
    → u ≠ 0 → s.tsc.h0.seen = 2 → s.tsc.tick + 1 - s.tsc.h0.last2 < 500000000 → Tbl.get none s.tsc.lastFault 1 = none
    → s.hif.fq.length < 32 → Answers (exec (.timescaleTick u 0 0) s) fun t =>
      t.hld = { s.hld with secOff := t.hld.secOff } ∧ t.fenced 0 = true ∧ t.duplex = true ∧
      t.isSet R.TSC_RAW F.TSC_RAW_FENCE ∧ (∃ f ∈ t.hif.fq, f.block = 2 ∧ f.code = 1 ∧ f.detail = 0) ∧
      s.sameBut t [R.TSC_STATUS, R.TSC_DISAGREE_CNT] ∧ s.sameParts t [.tsc, .hld, .syn]) ∧
  (∀ (s : State) (u : Copy), s.inReset = false → s.runs .timescale = true → s.tsc.inject = none → s.tsc.restore = []
    → s.tsc.rejoin = [] → s.duplex = false → s.tsc.c0 = s.tsc.voted → s.tsc.c1 = s.tsc.voted → s.tsc.c2 = s.tsc.voted
    → u ≠ 0 → s.tsc.h2.seen = 2 → s.tsc.tick + 1 - s.tsc.h2.last2 < 500000000 → Tbl.get none s.tsc.lastFault 1 = none
    → s.hif.fq.length < 32 → Answers (exec (.timescaleTick 0 0 u) s) fun t =>
      t.hld = { s.hld with secOff := t.hld.secOff } ∧ t.fenced 2 = true ∧ t.duplex = true ∧
      t.isSet R.TSC_RAW F.TSC_RAW_FENCE ∧ (∃ f ∈ t.hif.fq, f.block = 2 ∧ f.code = 1 ∧ f.detail = 2) ∧
      s.sameBut t [R.TSC_STATUS, R.TSC_DISAGREE_CNT] ∧ s.sameParts t [.tsc, .hld, .syn])

/-- R93: ARM has state bit BIT of copy COPY inverted on the next tick, once; the tick then does exactly what it does
on an upset of that bit. -/
def Obligations.InjectedUpset : Prop :=
  (∀ (s : State) (v : Word), s.accepts R.TSC_TRIPOD_INJECT → Answers (exec (.tripodInject v) s) fun t =>
      t.tsc.inject = some (t.g R.TSC_TRIPOD_INJECT F.TSC_TRIPOD_INJECT_COPY, t.g R.TSC_TRIPOD_INJECT
        F.TSC_TRIPOD_INJECT_BIT) ∧
      s.sameBut t [R.TSC_TRIPOD_INJECT, R.HIF_CFG_CRC_STATUS] ∧ s.sameParts t [.tsc]) ∧
  (∀ (s : State) (c b : Nat), s.inReset = false → s.runs .timescale = true → s.tsc.inject = some (c, b) → exec
    (.timescaleTick 0 0 0) s =
      exec (.timescaleTick (if c = 0 then BitVec.ofNat 192 (2 ^ b) else 0) (if c = 1
    then BitVec.ofNat 192 (2 ^ b) else 0)
        (if c = 2 then BitVec.ofNat 192 (2 ^ b) else 0))
    { s with tsc := { s.tsc with inject := none } }) ∧
  (∀ (s : State) (c b : Nat), s.inReset = false → s.runs .timescale = true → s.tsc.inject = some (c, b) → Answers
    (exec (.timescaleTick 0 0 0) s) fun t =>
      t.hld = { s.hld with secOff := t.hld.secOff } ∧ t.tsc.inject = none ∧
      s.sameBut t [R.TSC_STATUS, R.TSC_DISAGREE_CNT] ∧ s.sameParts t [.tsc, .hld, .syn])

/-- R75, R76 and R78: GO with MODE 0, 1 or 2 (2 with STEER 1) and no step pending makes the step of that mode
pending; a GO while one is pending is refused and counted; CANCEL withdraws a pending step and sets STEP_DONE. Where
the spec is silent it rests on the choices of the model in log entries 3, 12 and 41. -/
def Obligations.StepRequests : Prop :=
  (∀ (s : State) (v : Word), s.accepts R.TSC_STEP_CTRL → s.tsc.host = none → F.TSC_STEP_CTRL_CANCEL.get v = 0 →
    Answers (exec (.immediateStep v) s) fun t =>
      t.tsc.host = some (HostStep.imm (s.pairI R.TSC_STEP_LO)) ∧
      t.g R.TSC_STEP_STATUS F.TSC_STEP_STATUS_PENDING = 1 ∧
      s.sameBut t [R.TSC_STEP_CTRL, R.TSC_STEP_STATUS, R.HIF_CFG_CRC_STATUS] ∧ s.sameParts t [.tsc]) ∧
  (∀ (s : State) (v : Word), s.accepts R.TSC_STEP_CTRL → s.tsc.host = none → F.TSC_STEP_CTRL_CANCEL.get v = 0 →
    Answers (exec (.secondAlignedStep v) s) fun t =>
      t.tsc.host = some (HostStep.aligned (s.pairI R.TSC_STEP_LO)) ∧
      t.g R.TSC_STEP_STATUS F.TSC_STEP_STATUS_PENDING = 1 ∧
      s.sameBut t [R.TSC_STEP_CTRL, R.TSC_STEP_STATUS, R.HIF_CFG_CRC_STATUS] ∧ s.sameParts t [.tsc]) ∧
  (∀ (s : State) (v : Word), s.accepts R.TSC_STEP_CTRL → s.tsc.host = none → F.TSC_STEP_CTRL_CANCEL.get v = 0 → s.on
    R.TSC_CTRL F.TSC_CTRL_STEER = true → Answers (exec (.absoluteSet v) s) fun t =>
      t.tsc.host = some (HostStep.set s.setValue) ∧ t.g R.TSC_STEP_STATUS F.TSC_STEP_STATUS_PENDING = 1 ∧
      s.sameBut t [R.TSC_STEP_CTRL, R.TSC_STEP_STATUS, R.HIF_CFG_CRC_STATUS, R.TSC_SET_T0, R.TSC_SET_T1, R.TSC_SET_T2] ∧
      s.sameParts t [.tsc]) ∧
  (∀ (s : State) (v : Word) (h : HostStep), s.accepts R.TSC_STEP_CTRL → s.tsc.host = some h →
    F.TSC_STEP_CTRL_CANCEL.get v = 0 → Answers (exec (.immediateStep v) s) fun t =>
      t.tsc.host = some h ∧
      t.g R.TSC_STEP_STATUS F.TSC_STEP_STATUS_REFUSED = min (s.g R.TSC_STEP_STATUS F.TSC_STEP_STATUS_REFUSED + 1)
        65535 ∧
      t.isSet R.TSC_RAW F.TSC_RAW_REFUSED ∧ s.sameBut t [R.TSC_STEP_CTRL, R.TSC_STEP_STATUS, R.HIF_CFG_CRC_STATUS] ∧
      s.sameParts t []) ∧
  (∀ (s : State) (v : Word) (h : HostStep), s.accepts R.TSC_STEP_CTRL → s.tsc.host = some h → F.TSC_STEP_CTRL_GO.get
    v = 0 → Answers (exec (.stepCancel v) s) fun t =>
      t.tsc.host = none ∧ t.g R.TSC_STEP_STATUS F.TSC_STEP_STATUS_PENDING = 0 ∧
      t.isSet R.TSC_RAW F.TSC_RAW_STEP_DONE ∧
      s.sameBut t [R.TSC_STEP_CTRL, R.TSC_STEP_STATUS, R.HIF_CFG_CRC_STATUS] ∧ s.sameParts t [.tsc])

/-- R77, R81 and R83: a ripe step moves the voted state by its amount, or sets it, clears PENDING and sets STEP_DONE;
a second event sets SECOND and takes the voted seconds as the highest signalled. Where the spec is silent it rests on
the choices of the model in log entries 3, 12 and 41. -/
def Obligations.StepsAndSeconds : Prop :=
  (∀ (s : State) (a : Int), s.inReset = false → s.runs .timescale = true → s.tsc.due = [] → s.tsc.hostRipe = true →
    s.tsc.host = some (.imm a) → s.on R.TSC_CTRL F.TSC_CTRL_STEER = true → Answers (exec (.stepApply) s) fun t =>
      t.tsc.voted = cStep a s.tsc.voted ∧ t.tsc.host = none ∧ t.pair R.TSC_LAST_STEP_LO = enc 64 a ∧
      t.g R.TSC_STEP_STATUS F.TSC_STEP_STATUS_LAST_SRC = 0 ∧ t.g R.TSC_STEP_STATUS F.TSC_STEP_STATUS_PENDING = 0 ∧
      t.isSet R.TSC_RAW F.TSC_RAW_STEP_DONE ∧
      s.sameBut t [R.TSC_LAST_STEP_LO, R.TSC_LAST_STEP_HI, R.TSC_STEP_STATUS] ∧
      s.sameParts t [.tsc, .ref, .hld, .syn, .ptp, .tdc]) ∧
  (∀ (s : State) (a : Int), s.inReset = false → s.runs .timescale = true → s.tsc.due = [] → s.tsc.hostRipe = true →
    s.tsc.carried = true → s.tsc.host = some (.aligned a) → s.on R.TSC_CTRL F.TSC_CTRL_STEER = true → Answers (exec
    (.stepApply) s) fun t =>
      t.tsc.voted = cStep a s.tsc.voted ∧ t.tsc.host = none ∧ t.pair R.TSC_LAST_STEP_LO = enc 64 a ∧
      t.g R.TSC_STEP_STATUS F.TSC_STEP_STATUS_LAST_SRC = 1 ∧ t.g R.TSC_STEP_STATUS F.TSC_STEP_STATUS_PENDING = 0 ∧
      t.isSet R.TSC_RAW F.TSC_RAW_STEP_DONE ∧
      s.sameBut t [R.TSC_LAST_STEP_LO, R.TSC_LAST_STEP_HI, R.TSC_STEP_STATUS] ∧
      s.sameParts t [.tsc, .ref, .hld, .syn, .ptp, .tdc]) ∧
  (∀ (s : State) (a : Int), s.inReset = false → s.runs .timescale = true → s.tsc.due = [] → s.tsc.hostRipe = true →
    s.tsc.host = some (.imm a) → s.on R.TSC_CTRL F.TSC_CTRL_STEER = false → Answers (exec (.stepApply) s) fun t =>
      t.tsc.voted = cStep a s.tsc.voted ∧ t.tsc.host = none ∧
      t.pair R.TSC_OFFSET_ACC_LO = enc 64 (s.pairI R.TSC_OFFSET_ACC_LO + a) ∧
      t.g R.TSC_STEP_STATUS F.TSC_STEP_STATUS_LAST_SRC = 0 ∧ t.isSet R.TSC_RAW F.TSC_RAW_STEP_DONE ∧
      s.sameBut t [R.TSC_LAST_STEP_LO, R.TSC_LAST_STEP_HI, R.TSC_STEP_STATUS, R.TSC_OFFSET_ACC_LO,
        R.TSC_OFFSET_ACC_HI] ∧
      s.sameParts t [.tsc, .ref, .hld, .syn, .ptp, .tdc]) ∧
  (∀ (s : State) (a : Int), s.inReset = false → s.runs .timescale = true → s.tsc.due = [] → s.tsc.hostRipe = true →
    s.tsc.carried = true → s.tsc.host = some (.aligned a) → s.on R.TSC_CTRL F.TSC_CTRL_STEER = false → Answers (exec
    (.stepApply) s) fun t =>
      t.tsc.voted = cStep a s.tsc.voted ∧ t.tsc.host = none ∧
      t.pair R.TSC_OFFSET_ACC_LO = enc 64 (s.pairI R.TSC_OFFSET_ACC_LO + a) ∧
      t.g R.TSC_STEP_STATUS F.TSC_STEP_STATUS_LAST_SRC = 1 ∧ t.isSet R.TSC_RAW F.TSC_RAW_STEP_DONE ∧
      s.sameBut t [R.TSC_LAST_STEP_LO, R.TSC_LAST_STEP_HI, R.TSC_STEP_STATUS, R.TSC_OFFSET_ACC_LO,
        R.TSC_OFFSET_ACC_HI] ∧
      s.sameParts t [.tsc, .ref, .hld, .syn, .ptp, .tdc]) ∧
  (∀ (s : State) (k : Nat) (a : Int), s.inReset = false → s.runs .timescale = true → s.tsc.due = [(k, .rel a)] →
    s.tsc.hostRipe = false → k < 8 → Answers (exec (.stepApply) s) fun t =>
      t.tsc.voted = cStep a s.tsc.voted ∧ t.tsc.due = [] ∧ t.tsc.host = s.tsc.host ∧
      t.pair R.TSC_LAST_STEP_LO = enc 64 a ∧ t.g R.TSC_STEP_STATUS F.TSC_STEP_STATUS_LAST_SRC = k ∧
      t.isSet R.TSC_RAW F.TSC_RAW_STEP_DONE ∧
      s.sameBut t [R.TSC_LAST_STEP_LO, R.TSC_LAST_STEP_HI, R.TSC_STEP_STATUS] ∧
      s.sameParts t [.tsc, .ref, .hld, .syn, .ptp, .tdc]) ∧
  (∀ (s : State) (k : Nat) (v : T96), s.inReset = false → s.runs .timescale = true → s.tsc.due = [(k, .set v)] →
    s.tsc.host = none → k < 8 → Answers (exec (.stepApply) s) fun t =>
      t.tsc.voted = cSet v s.tsc.voted ∧ t.tsc.due = [] ∧ t.tsc.sigSec = tSec v ∧
      t.g R.TSC_STEP_STATUS F.TSC_STEP_STATUS_LAST_SRC = k ∧ t.isSet R.TSC_RAW F.TSC_RAW_STEP_DONE ∧
      s.sameBut t [R.TSC_LAST_STEP_LO, R.TSC_LAST_STEP_HI, R.TSC_STEP_STATUS] ∧
      s.sameParts t [.tsc, .ref, .hld, .syn, .ptp, .tdc]) ∧
  (∀ (s : State) (k : Nat) (v : T96), s.inReset = false → s.runs .timescale = true → s.tsc.due = [(k, .set v)] →
    s.tsc.host.isSome = true → k < 8 → Answers (exec (.stepApply) s) fun t =>
      t.tsc.voted = cSet v s.tsc.voted ∧ t.tsc.due = [] ∧ t.tsc.host = none ∧
      t.g R.TSC_STEP_STATUS F.TSC_STEP_STATUS_PENDING = 0 ∧
      t.g R.TSC_STEP_STATUS F.TSC_STEP_STATUS_REFUSED = min (s.g R.TSC_STEP_STATUS F.TSC_STEP_STATUS_REFUSED + 1)
        65535 ∧
      t.isSet R.TSC_RAW F.TSC_RAW_REFUSED ∧
      s.sameBut t [R.TSC_LAST_STEP_LO, R.TSC_LAST_STEP_HI, R.TSC_STEP_STATUS] ∧
      s.sameParts t [.tsc, .ref, .hld, .syn, .ptp, .tdc]) ∧
  (∀ (s : State), s.inReset = false → s.runs .timescale = false ∨ s.stepDue = false → Answers (exec (.stepApply) s)
    fun t =>
      s.sameBut t [] ∧ s.sameParts t []) ∧
  (∀ (s : State), s.inReset = false → tSec s.now ≤ s.tsc.sigSec → Answers (exec (.secondEvent) s) fun t =>
      s.sameBut t [] ∧ s.sameParts t []) ∧
  (∀ (s : State) (v : T96), s.inReset = false → s.runs .timescale = true → s.tsc.due = [] → s.tsc.hostRipe = true →
    s.tsc.host = some (.set v) → Answers (exec (.stepApply) s) fun t =>
      t.tsc.voted = cSet v s.tsc.voted ∧ t.tsc.host = none ∧ t.tsc.sigSec = tSec v ∧
      t.g R.TSC_STEP_STATUS F.TSC_STEP_STATUS_PENDING = 0 ∧ t.isSet R.TSC_RAW F.TSC_RAW_STEP_DONE ∧
      s.sameBut t [R.TSC_LAST_STEP_LO, R.TSC_LAST_STEP_HI, R.TSC_STEP_STATUS] ∧
      s.sameParts t [.tsc, .ref, .hld, .syn, .ptp, .tdc]) ∧
  (∀ (s : State), s.inReset = false → s.tsc.sigSec < tSec s.now → Answers (exec (.secondEvent) s) fun t =>
      t.tsc = { s.tsc with sigSec := tSec s.now } ∧ t.syn = { s.syn with second := true } ∧
      t.isSet R.TSC_RAW F.TSC_RAW_SECOND ∧ s.sameBut t [] ∧ s.sameParts t [.tsc, .syn, .tdc])

/-- R91 and R92: CLR_SUSPECT clears SUSPECT; RESTORE of a fenced copy has it reloaded on the next tick; FENCE in
triplex fences the copy and enters duplex. Where the spec is silent it rests on the choices of the model in log
entries 3, 12 and 41. -/
def Obligations.TripodControls : Prop :=
  (∀ (s : State) (v : Word), s.accepts R.TSC_TRIPOD_CTRL → F.TSC_TRIPOD_CTRL_RESTORE.get v = 0 →
    F.TSC_TRIPOD_CTRL_FENCE.get v = 0 → Answers (exec (.clrSuspect v) s) fun t =>
      t.g R.TSC_STATUS F.TSC_STATUS_SUSPECT = 0 ∧ s.sameBut t [R.TSC_STATUS] ∧ s.sameParts t []) ∧
  (∀ (s : State) (v : Word) (c : Fin 3), s.accepts R.TSC_TRIPOD_CTRL → F.TSC_TRIPOD_CTRL_RESTORE.get v = 0 →
    F.TSC_TRIPOD_CTRL_FENCE.get v = 0 → F.TSC_TRIPOD_CTRL_CLR_SUSPECT.get v = 0 → s.fenced c = true → c.val ∉
    s.tsc.restore → c.val ∉ s.tsc.rejoin → Answers (exec (.copyRestore c v) s) fun t =>
      t.tsc = { s.tsc with restore := s.tsc.restore ++ [c.val] } ∧ s.sameBut t [] ∧ s.sameParts t [.tsc]) ∧
  (∀ (s : State) (v : Word) (c : Fin 3), s.accepts R.TSC_TRIPOD_CTRL → F.TSC_TRIPOD_CTRL_RESTORE.get v = 0 →
    F.TSC_TRIPOD_CTRL_FENCE.get v = 0 → F.TSC_TRIPOD_CTRL_CLR_SUSPECT.get v = 0 → s.duplex = false → Answers (exec
    (.copyFenceCmd c v) s) fun t =>
      t.fenced c = true ∧ t.duplex = true ∧ t.isSet R.TSC_RAW F.TSC_RAW_FENCE ∧ s.sameBut t [R.TSC_STATUS] ∧
      s.sameParts t []) ∧
  (∀ (s : State) (c : Nat), s.inReset = false → s.runs .timescale = true → c < 3 → s.tsc.restore = [c] → s.tsc.rejoin
    = [] → Answers (exec (.timescaleTick 0 0 0) s) fun t =>
      t.hld = { s.hld with secOff := t.hld.secOff } ∧ t.tsc.copy c = t.tsc.voted ∧ t.tsc.rejoin = [c] ∧
      t.tsc.restore = [] ∧ s.sameBut t [R.TSC_STATUS, R.TSC_DISAGREE_CNT] ∧ s.sameParts t [.tsc, .hld, .syn])
end

