-- ==== Sys2Proof/Laws/Fields.lean ====
section
/-! SUPPORT. Fields of a word: what a field reads after it or another field is written. -/

set_option Elab.async false

namespace Sys2Proof.Machine

/-- A word is what lies above a field, the field, and what lies below it. -/
theorem Fld.split (f : Fld) (v : Word) :
    v.toNat = (v.toNat / 2 ^ (f.lo + f.w) * 2 ^ f.w + f.get v) * 2 ^ f.lo + v.toNat % 2 ^ f.lo := by
  have h1 := Nat.div_add_mod v.toNat (2 ^ f.lo)
  have h2 := Nat.div_add_mod (v.toNat / 2 ^ f.lo) (2 ^ f.w)
  rw [Nat.div_div_eq_div_mul, ← pow_add] at h2
  unfold Fld.get
  rw [Nat.shiftRight_eq_div_pow, Nat.mul_comm (_ / _) (2 ^ f.w), h2, Nat.mul_comm, h1]

theorem Fld.get_lt (f : Fld) (v : Word) : f.get v < 2 ^ f.w := Nat.mod_lt _ (Nat.two_pow_pos _)

theorem Fld.toNat_put {f : Fld} (h : f.lo + f.w ≤ 32) (v : Word) (n : Nat) :
    (f.put v n).toNat = (v.toNat / 2 ^ (f.lo + f.w) * 2 ^ f.w + n % 2 ^ f.w) * 2 ^ f.lo + v.toNat % 2 ^ f.lo := by
  have hs := f.split v
  have hlo : v.toNat % 2 ^ f.lo < 2 ^ f.lo := Nat.mod_lt _ (Nat.two_pow_pos _)
  have hn : n % 2 ^ f.w < 2 ^ f.w := Nat.mod_lt _ (Nat.two_pow_pos _)
  have hhi : v.toNat / 2 ^ (f.lo + f.w) < 2 ^ (32 - (f.lo + f.w)) := by
    rw [Nat.div_lt_iff_lt_mul (Nat.two_pow_pos _), ← pow_add]
    exact lt_of_lt_of_eq v.isLt (by congr 1; omega)
  generalize v.toNat / 2 ^ (f.lo + f.w) = hi at *
  generalize v.toNat % 2 ^ f.lo = low at *
  have hb : (hi * 2 ^ f.w + n % 2 ^ f.w) * 2 ^ f.lo + low < 2 ^ 32 := by
    have e : 2 ^ 32 = 2 ^ (32 - (f.lo + f.w)) * 2 ^ f.w * 2 ^ f.lo := by
      rw [← pow_add, ← pow_add]; congr 1; omega
    rw [e]
    have h1 : hi * 2 ^ f.w + n % 2 ^ f.w + 1 ≤ 2 ^ (32 - (f.lo + f.w)) * 2 ^ f.w := by
      calc hi * 2 ^ f.w + n % 2 ^ f.w + 1 ≤ hi * 2 ^ f.w + 2 ^ f.w := by omega
        _ = (hi + 1) * 2 ^ f.w := by ring
        _ ≤ _ := Nat.mul_le_mul_right _ hhi
    calc _ < (hi * 2 ^ f.w + n % 2 ^ f.w) * 2 ^ f.lo + 2 ^ f.lo := by omega
      _ = (hi * 2 ^ f.w + n % 2 ^ f.w + 1) * 2 ^ f.lo := by ring
      _ ≤ _ := Nat.mul_le_mul_right _ h1
  have e : v.toNat - (f.get v) <<< f.lo + (n % 2 ^ f.w) <<< f.lo = (hi * 2 ^ f.w + n % 2 ^ f.w) * 2 ^ f.lo + low := by
    rw [Nat.shiftLeft_eq, Nat.shiftLeft_eq]
    have : v.toNat = hi * 2 ^ f.w * 2 ^ f.lo + f.get v * 2 ^ f.lo + low := by rw [← Nat.add_mul]; exact hs
    rw [Nat.add_mul]
    omega
  have e2 : f.put v n = BitVec.ofNat 32 ((hi * 2 ^ f.w + n % 2 ^ f.w) * 2 ^ f.lo + low) := by
    rw [← e]
    rfl
  rw [e2, BitVec.toNat_ofNat, Nat.mod_eq_of_lt hb]

/-- A field reads what was written to it, modulo its width. -/
theorem Fld.get_put {f : Fld} (h : f.lo + f.w ≤ 32) (v : Word) (n : Nat) : f.get (f.put v n) = n % 2 ^ f.w := by
  have hlo : v.toNat % 2 ^ f.lo < 2 ^ f.lo := Nat.mod_lt _ (Nat.two_pow_pos _)
  show (f.put v n).toNat >>> f.lo % 2 ^ f.w = _
  rw [Fld.toNat_put h, Nat.shiftRight_eq_div_pow, Nat.add_comm, Nat.add_mul_div_right _ _ (Nat.two_pow_pos _),
    Nat.div_eq_of_lt hlo, Nat.zero_add, Nat.add_comm, Nat.add_mul_mod_self_right, Nat.mod_mod]

/-- A field that lies beside the written one reads as before. -/
theorem Fld.get_put_ne {f g : Fld} (h : f.lo + f.w ≤ 32) (hg : f.lo + f.w ≤ g.lo ∨ g.lo + g.w ≤ f.lo) (v : Word) (n : Nat) :
    g.get (f.put v n) = g.get v := by
  show (f.put v n).toNat >>> g.lo % 2 ^ g.w = v.toNat >>> g.lo % 2 ^ g.w
  rw [Nat.shiftRight_eq_div_pow, Nat.shiftRight_eq_div_pow]
  rcases hg with hg | hg
  · have hd : ∀ x : Nat, x / 2 ^ g.lo = x / 2 ^ (f.lo + f.w) / 2 ^ (g.lo - (f.lo + f.w)) := fun x => by
      rw [Nat.div_div_eq_div_mul, ← pow_add]; congr 2; omega
    have : (f.put v n).toNat / 2 ^ (f.lo + f.w) = v.toNat / 2 ^ (f.lo + f.w) := by
      have hlo : v.toNat % 2 ^ f.lo < 2 ^ f.lo := Nat.mod_lt _ (Nat.two_pow_pos _)
      have hn : n % 2 ^ f.w < 2 ^ f.w := Nat.mod_lt _ (Nat.two_pow_pos _)
      rw [Fld.toNat_put h, pow_add, ← Nat.div_div_eq_div_mul, Nat.add_comm,
        Nat.add_mul_div_right _ _ (Nat.two_pow_pos _), Nat.div_eq_of_lt hlo, Nat.zero_add, Nat.add_comm,
        Nat.add_mul_div_right _ _ (Nat.two_pow_pos _), Nat.div_eq_of_lt hn, Nat.zero_add]
    rw [hd, hd v.toNat, this]
  · have hm : ∀ x : Nat, x / 2 ^ g.lo % 2 ^ g.w = x % 2 ^ f.lo / 2 ^ g.lo % 2 ^ g.w := fun x => by
      have e : 2 ^ f.lo = 2 ^ g.lo * 2 ^ (f.lo - g.lo) := by rw [← pow_add]; congr 1; omega
      rw [e, Nat.mod_mul_right_div_self, Nat.mod_mod_of_dvd _ (Nat.pow_dvd_pow 2 (by omega))]
    have : (f.put v n).toNat % 2 ^ f.lo = v.toNat % 2 ^ f.lo := by
      rw [Fld.toNat_put h, Nat.add_comm, Nat.add_mul_mod_self_right, Nat.mod_mod]
    rw [hm, hm v.toNat, this]

/-- Setting a one-bit field clears no bit. -/
theorem Fld.put_one_keeps {f : Fld} (h : f.lo < 32) (hw : f.w = 1) {v m : Word} (k : v &&& m = m) :
    f.put v 1 &&& m = m := by
  have e : f.put v 1 = v ||| BitVec.ofNat 32 (2 ^ f.lo) := by
    apply BitVec.eq_of_toNat_eq
    rw [Fld.toNat_put (by omega), hw, BitVec.toNat_or, BitVec.toNat_ofNat,
      Nat.mod_eq_of_lt (Nat.pow_lt_pow_right (by decide) h)]
    apply Nat.eq_of_testBit_eq
    intro j
    have hlo : v.toNat % 2 ^ f.lo < 2 ^ f.lo := Nat.mod_lt _ (Nat.two_pow_pos _)
    rw [Nat.testBit_or, Nat.testBit_two_pow]
    rw [Nat.mul_comm _ (2 ^ f.lo), Nat.testBit_two_pow_mul_add _ hlo]
    by_cases hj : j < f.lo
    · rw [if_pos hj, Nat.testBit_mod_two_pow]
      simp [hj]
      omega
    · rw [if_neg hj]
      by_cases he : j = f.lo
      · subst he; simp [Nat.testBit_zero]
      · have : j - f.lo = (j - (f.lo + 1)) + 1 := by omega
        rw [this, Nat.testBit_succ]
        have h2 : (v.toNat / 2 ^ (f.lo + 1) * 2 ^ 1 + 1 % 2 ^ 1) / 2 = v.toNat / 2 ^ (f.lo + 1) := by omega
        rw [h2, Nat.testBit_div_two_pow]
        have : f.lo ≠ j := fun e => he e.symm
        simp [this]
        congr 1
        omega
  rw [e]
  ext i hi
  have := congrArg (fun w => w.getLsbD i) k
  simp at this ⊢
  tauto

end Sys2Proof.Machine
end

