-- ==== Sys2Proof/Laws/Tables.lean ====
section
/-! SUPPORT. Sparse tables: read after write, and the canonical form that every write keeps.  The register store and
DRAM are such tables. -/

set_option Elab.async false

namespace Sys2Proof.Machine

variable {α : Type}

/-! ### Read after write -/

theorem Tbl.get_drop_ne (d : α) {k j : Nat} (h : j ≠ k) (t : Tbl α) : Tbl.get d (Tbl.drop k t) j = Tbl.get d t j := by
  induction t with
  | nil => rfl
  | cons p r ih =>
    by_cases hk : k = p.1
    · have hj : ¬ j = p.1 := fun e => h (e.trans hk.symm)
      simp only [Tbl.drop, Tbl.get, if_pos hk, if_neg hj, ih]
    · simp only [Tbl.drop, Tbl.get, if_neg hk, ih]

theorem Tbl.get_drop_same (d : α) (k : Nat) (t : Tbl α) : Tbl.get d (Tbl.drop k t) k = d := by
  induction t with
  | nil => rfl
  | cons p r ih =>
    by_cases hk : k = p.1
    · simp only [Tbl.drop, if_pos hk, ih]
    · simp only [Tbl.drop, Tbl.get, if_neg hk, ih]

theorem Tbl.get_ins_ne (d : α) {k j : Nat} (h : j ≠ k) (v : α) (t : Tbl α) :
    Tbl.get d (Tbl.ins k v t) j = Tbl.get d t j := by
  induction t with
  | nil => simp [Tbl.ins, Tbl.get, h]
  | cons p r ih =>
    by_cases hk : k < p.1
    · simp [Tbl.ins, Tbl.get, hk, h]
    · simp [Tbl.ins, Tbl.get, hk, ih]

theorem Tbl.get_ins_drop (d : α) (k : Nat) (v : α) (t : Tbl α) : Tbl.get d (Tbl.ins k v (Tbl.drop k t)) k = v := by
  induction t with
  | nil => simp [Tbl.drop, Tbl.ins, Tbl.get]
  | cons p r ih =>
    by_cases hk : k = p.1
    · simp only [Tbl.drop, if_pos hk, ih]
    · by_cases hl : k < p.1
      · simp [Tbl.drop, Tbl.ins, Tbl.get, hk, hl]
      · simp only [Tbl.drop, Tbl.ins, Tbl.get, if_neg hk, if_neg hl, ih]

theorem Tbl.get_set_same [DecidableEq α] (d : α) (t : Tbl α) (k : Nat) (v : α) :
    Tbl.get d (Tbl.set d t k v) k = v := by
  unfold Tbl.set
  split
  · next h => rw [Tbl.get_drop_same, h]
  · exact Tbl.get_ins_drop d k v t

theorem Tbl.get_set_ne [DecidableEq α] (d e : α) (t : Tbl α) {k j : Nat} (h : j ≠ k) (v : α) :
    Tbl.get d (Tbl.set e t k v) j = Tbl.get d t j := by
  unfold Tbl.set
  split
  · exact Tbl.get_drop_ne d h t
  · rw [Tbl.get_ins_ne d h, Tbl.get_drop_ne d h]

/-! ### The canonical form -/

theorem Tbl.wfFrom_mono [DecidableEq α] {dflt : Nat → α} {b : Option Nat} {m : Nat} {t : Tbl α}
    (h : Tbl.wfFrom dflt (some m) t = true) (hb : ∀ x, b = some x → x ≤ m) : Tbl.wfFrom dflt b t = true := by
  cases t with
  | nil => rfl
  | cons p r =>
    simp only [Tbl.wfFrom, Bool.and_eq_true, decide_eq_true_eq] at h ⊢
    refine ⟨⟨?_, h.1.2⟩, h.2⟩
    cases b with
    | none => rfl
    | some x => have := hb x rfl; exact decide_eq_true (by omega)

theorem Tbl.wfFrom_drop [DecidableEq α] {dflt : Nat → α} (k : Nat) {b : Option Nat} {t : Tbl α}
    (h : Tbl.wfFrom dflt b t = true) : Tbl.wfFrom dflt b (Tbl.drop k t) = true := by
  induction t generalizing b with
  | nil => rfl
  | cons p r ih =>
    have h' := h
    simp only [Tbl.wfFrom, Bool.and_eq_true, decide_eq_true_eq] at h
    by_cases hk : k = p.1
    · simp only [Tbl.drop, if_pos hk]
      refine ih (Tbl.wfFrom_mono h.2 ?_)
      rintro x rfl
      simp only [decide_eq_true_eq] at h
      omega
    · simp only [Tbl.drop, if_neg hk, Tbl.wfFrom, Bool.and_eq_true, decide_eq_true_eq]
      exact ⟨h.1, ih h.2⟩

theorem Tbl.wfFrom_ins [DecidableEq α] {dflt : Nat → α} {k : Nat} {v : α} (hv : v ≠ dflt k) {b : Option Nat} {t : Tbl α}
    (hb : ∀ x, b = some x → x < k) (h : Tbl.wfFrom dflt b (Tbl.drop k t) = true) :
    Tbl.wfFrom dflt b (Tbl.ins k v (Tbl.drop k t)) = true := by
  induction t generalizing b with
  | nil =>
    simp only [Tbl.drop, Tbl.ins, Tbl.wfFrom, Bool.and_eq_true, decide_eq_true_eq, and_true]
    refine ⟨?_, hv⟩
    cases b with
    | none => rfl
    | some x => exact decide_eq_true (hb x rfl)
  | cons p r ih =>
    by_cases hk : k = p.1
    · simp only [Tbl.drop, if_pos hk] at h ⊢
      exact ih hb h
    · simp only [Tbl.drop, if_neg hk] at h ⊢
      simp only [Tbl.wfFrom, Bool.and_eq_true, decide_eq_true_eq] at h
      by_cases hl : k < p.1
      · simp only [Tbl.ins, if_pos hl, Tbl.wfFrom, Bool.and_eq_true, decide_eq_true_eq]
        refine ⟨⟨?_, hv⟩, ⟨hl, h.1.2⟩, h.2⟩
        cases b with
        | none => rfl
        | some x => exact decide_eq_true (hb x rfl)
      · simp only [Tbl.ins, if_neg hl, Tbl.wfFrom, Bool.and_eq_true, decide_eq_true_eq]
        refine ⟨h.1, ih ?_ h.2⟩
        rintro x hx
        cases hx
        omega

theorem Tbl.wf_set [DecidableEq α] {dflt : Nat → α} {t : Tbl α} (h : Tbl.wf dflt t = true) (k : Nat) (v : α) :
    Tbl.wf dflt (Tbl.set (dflt k) t k v) = true := by
  unfold Tbl.set Tbl.wf
  split
  · exact Tbl.wfFrom_drop k h
  · next hv => exact Tbl.wfFrom_ins hv (fun _ hx => by cases hx) (Tbl.wfFrom_drop k h)

theorem Tbl.wf_nil [DecidableEq α] (dflt : Nat → α) : Tbl.wf dflt ([] : Tbl α) = true := rfl

/-! ### Registers and DRAM -/

@[simp] theorem State.reg_setReg_same (s : State) (a : Nat) (v : Word) : (s.setReg a v).reg a = v :=
  Tbl.get_set_same _ _ _ _

theorem State.reg_setReg_ne (s : State) {a b : Nat} (h : b ≠ a) (v : Word) : (s.setReg a v).reg b = s.reg b :=
  Tbl.get_set_ne _ _ _ h _

@[simp] theorem State.reg_setReg_self (s : State) (a b : Nat) : (s.setReg a (s.reg a)).reg b = s.reg b := by
  by_cases h : b = a
  · rw [h, State.reg_setReg_same]
  · exact State.reg_setReg_ne s h _

/-- A register write keeps the register store canonical. -/
theorem State.regsOk_setReg {s : State} (h : s.regsOk) (a : Nat) (v : Word) : (s.setReg a v).regsOk :=
  Tbl.wf_set h a v

@[simp] theorem State.dramByte_setDramByte_same (s : State) (a : Nat) (b : Byte) :
    (s.setDramByte a b).dramByte a = b := Tbl.get_set_same _ _ _ _

theorem State.dramByte_setDramByte_ne (s : State) {a c : Nat} (h : c ≠ a) (b : Byte) :
    (s.setDramByte a b).dramByte c = s.dramByte c := Tbl.get_set_ne _ _ _ h _

/-- A byte written keeps DRAM canonical. -/
theorem State.dramOk_setDramByte {s : State} (h : s.dramOk) (a : Nat) (b : Byte) : (s.setDramByte a b).dramOk :=
  Tbl.wf_set (dflt := dramReset) h a b

/-- A run of bytes written keeps DRAM canonical. -/
theorem State.dramOk_dramWrite {s : State} (h : s.dramOk) (a : Nat) (l : List Byte) : (s.dramWrite a l).dramOk := by
  induction l generalizing s a with
  | nil => exact h
  | cons b r ih => exact ih (State.dramOk_setDramByte h a b) (a + 1)

/-- The state after reset is sound. -/
theorem State.sound_reset : State.reset.sound := by
  refine ⟨?_, ?_, ?_, ?_⟩
  · show Tbl.wf regReset regsAtReset = true
    decide
  · rfl
  · exact Nat.zero_le _
  · exact Nat.zero_le _

end Sys2Proof.Machine
end

