-- ==== Sys2Proof/Laws/State.lean ====
section
/-! SUPPORT. What each elementary update of the state leaves and sets: one lemma per field and update, so that no later
proof unfolds a record update. -/

set_option Elab.async false

namespace Sys2Proof.Machine.State

variable (s : Machine.State)

/-! ### setReg -/

@[simp] theorem setReg_regs (a : Nat) (v : Word) : (s.setReg a v).regs = Tbl.set (regReset a) s.regs a v := rfl
@[simp] theorem setReg_dram (a : Nat) (v : Word) : (s.setReg a v).dram = s.dram := rfl
@[simp] theorem setReg_pending (a : Nat) (v : Word) : (s.setReg a v).pending = s.pending := rfl
@[simp] theorem setReg_rshadow (a : Nat) (v : Word) : (s.setReg a v).rshadow = s.rshadow := rfl
@[simp] theorem setReg_wshadow (a : Nat) (v : Word) : (s.setReg a v).wshadow = s.wshadow := rfl
@[simp] theorem setReg_w1done (a : Nat) (v : Word) : (s.setReg a v).w1done = s.w1done := rfl
@[simp] theorem setReg_conds (a : Nat) (v : Word) : (s.setReg a v).conds = s.conds := rfl
@[simp] theorem setReg_gated (a : Nat) (v : Word) : (s.setReg a v).gated = s.gated := rfl
@[simp] theorem setReg_regClk (a : Nat) (v : Word) : (s.setReg a v).regClk = s.regClk := rfl
@[simp] theorem setReg_coreClk8 (a : Nat) (v : Word) : (s.setReg a v).coreClk8 = s.coreClk8 := rfl
@[simp] theorem setReg_out (a : Nat) (v : Word) : (s.setReg a v).out = s.out := rfl
@[simp] theorem setReg_freeIdx (a : Nat) (v : Word) : (s.setReg a v).freeIdx = s.freeIdx := rfl
@[simp] theorem setReg_hif (a : Nat) (v : Word) : (s.setReg a v).hif = s.hif := rfl
@[simp] theorem setReg_tsc (a : Nat) (v : Word) : (s.setReg a v).tsc = s.tsc := rfl
@[simp] theorem setReg_ref (a : Nat) (v : Word) : (s.setReg a v).ref = s.ref := rfl
@[simp] theorem setReg_hld (a : Nat) (v : Word) : (s.setReg a v).hld = s.hld := rfl
@[simp] theorem setReg_spr (a : Nat) (v : Word) : (s.setReg a v).spr = s.spr := rfl
@[simp] theorem setReg_syn (a : Nat) (v : Word) : (s.setReg a v).syn = s.syn := rfl
@[simp] theorem setReg_pts (a : Nat) (v : Word) : (s.setReg a v).pts = s.pts := rfl
@[simp] theorem setReg_ptp (a : Nat) (v : Word) : (s.setReg a v).ptp = s.ptp := rfl
@[simp] theorem setReg_fwd (a : Nat) (v : Word) : (s.setReg a v).fwd = s.fwd := rfl
@[simp] theorem setReg_tdc (a : Nat) (v : Word) : (s.setReg a v).tdc = s.tdc := rfl
@[simp] theorem setReg_guy (a : Nat) (v : Word) : (s.setReg a v).guy = s.guy := rfl
@[simp] theorem setReg_rut (a : Nat) (v : Word) : (s.setReg a v).rut = s.rut := rfl
@[simp] theorem setReg_boot (a : Nat) (v : Word) : (s.setReg a v).boot = s.boot := rfl

/-! ### setDramByte -/

@[simp] theorem setDramByte_regs (a : Nat) (b : Byte) : (s.setDramByte a b).regs = s.regs := rfl
@[simp] theorem setDramByte_dram (a : Nat) (b : Byte) : (s.setDramByte a b).dram = Tbl.set 0#8 s.dram a b := rfl
@[simp] theorem setDramByte_pending (a : Nat) (b : Byte) : (s.setDramByte a b).pending = s.pending := rfl
@[simp] theorem setDramByte_rshadow (a : Nat) (b : Byte) : (s.setDramByte a b).rshadow = s.rshadow := rfl
@[simp] theorem setDramByte_wshadow (a : Nat) (b : Byte) : (s.setDramByte a b).wshadow = s.wshadow := rfl
@[simp] theorem setDramByte_w1done (a : Nat) (b : Byte) : (s.setDramByte a b).w1done = s.w1done := rfl
@[simp] theorem setDramByte_conds (a : Nat) (b : Byte) : (s.setDramByte a b).conds = s.conds := rfl
@[simp] theorem setDramByte_gated (a : Nat) (b : Byte) : (s.setDramByte a b).gated = s.gated := rfl
@[simp] theorem setDramByte_regClk (a : Nat) (b : Byte) : (s.setDramByte a b).regClk = s.regClk := rfl
@[simp] theorem setDramByte_coreClk8 (a : Nat) (b : Byte) : (s.setDramByte a b).coreClk8 = s.coreClk8 := rfl
@[simp] theorem setDramByte_out (a : Nat) (b : Byte) : (s.setDramByte a b).out = s.out := rfl
@[simp] theorem setDramByte_freeIdx (a : Nat) (b : Byte) : (s.setDramByte a b).freeIdx = s.freeIdx := rfl
@[simp] theorem setDramByte_hif (a : Nat) (b : Byte) : (s.setDramByte a b).hif = s.hif := rfl
@[simp] theorem setDramByte_tsc (a : Nat) (b : Byte) : (s.setDramByte a b).tsc = s.tsc := rfl
@[simp] theorem setDramByte_ref (a : Nat) (b : Byte) : (s.setDramByte a b).ref = s.ref := rfl
@[simp] theorem setDramByte_hld (a : Nat) (b : Byte) : (s.setDramByte a b).hld = s.hld := rfl
@[simp] theorem setDramByte_spr (a : Nat) (b : Byte) : (s.setDramByte a b).spr = s.spr := rfl
@[simp] theorem setDramByte_syn (a : Nat) (b : Byte) : (s.setDramByte a b).syn = s.syn := rfl
@[simp] theorem setDramByte_pts (a : Nat) (b : Byte) : (s.setDramByte a b).pts = s.pts := rfl
@[simp] theorem setDramByte_ptp (a : Nat) (b : Byte) : (s.setDramByte a b).ptp = s.ptp := rfl
@[simp] theorem setDramByte_fwd (a : Nat) (b : Byte) : (s.setDramByte a b).fwd = s.fwd := rfl
@[simp] theorem setDramByte_tdc (a : Nat) (b : Byte) : (s.setDramByte a b).tdc = s.tdc := rfl
@[simp] theorem setDramByte_guy (a : Nat) (b : Byte) : (s.setDramByte a b).guy = s.guy := rfl
@[simp] theorem setDramByte_rut (a : Nat) (b : Byte) : (s.setDramByte a b).rut = s.rut := rfl
@[simp] theorem setDramByte_boot (a : Nat) (b : Byte) : (s.setDramByte a b).boot = s.boot := rfl
@[simp] theorem setDramByte_reg (a : Nat) (b : Byte) (k : Nat) : (s.setDramByte a b).reg k = s.reg k := rfl

/-! ### drawn -/

@[simp] theorem drawn_regs : s.drawn.regs = s.regs := rfl
@[simp] theorem drawn_dram : s.drawn.dram = s.dram := rfl
@[simp] theorem drawn_pending : s.drawn.pending = s.pending := rfl
@[simp] theorem drawn_rshadow : s.drawn.rshadow = s.rshadow := rfl
@[simp] theorem drawn_wshadow : s.drawn.wshadow = s.wshadow := rfl
@[simp] theorem drawn_w1done : s.drawn.w1done = s.w1done := rfl
@[simp] theorem drawn_conds : s.drawn.conds = s.conds := rfl
@[simp] theorem drawn_gated : s.drawn.gated = s.gated := rfl
@[simp] theorem drawn_regClk : s.drawn.regClk = s.regClk := rfl
@[simp] theorem drawn_coreClk8 : s.drawn.coreClk8 = s.coreClk8 := rfl
@[simp] theorem drawn_out : s.drawn.out = s.out := rfl
@[simp] theorem drawn_freeIdx : s.drawn.freeIdx = s.freeIdx + 1 := rfl
@[simp] theorem drawn_hif : s.drawn.hif = s.hif := rfl
@[simp] theorem drawn_tsc : s.drawn.tsc = s.tsc := rfl
@[simp] theorem drawn_ref : s.drawn.ref = s.ref := rfl
@[simp] theorem drawn_hld : s.drawn.hld = s.hld := rfl
@[simp] theorem drawn_spr : s.drawn.spr = s.spr := rfl
@[simp] theorem drawn_syn : s.drawn.syn = s.syn := rfl
@[simp] theorem drawn_pts : s.drawn.pts = s.pts := rfl
@[simp] theorem drawn_ptp : s.drawn.ptp = s.ptp := rfl
@[simp] theorem drawn_fwd : s.drawn.fwd = s.fwd := rfl
@[simp] theorem drawn_tdc : s.drawn.tdc = s.tdc := rfl
@[simp] theorem drawn_guy : s.drawn.guy = s.guy := rfl
@[simp] theorem drawn_rut : s.drawn.rut = s.rut := rfl
@[simp] theorem drawn_boot : s.drawn.boot = s.boot := rfl
@[simp] theorem drawn_reg (k : Nat) : s.drawn.reg k = s.reg k := rfl

/-! ### emit -/

@[simp] theorem emit_regs (o : Out) : (s.emit o).regs = s.regs := rfl
@[simp] theorem emit_dram (o : Out) : (s.emit o).dram = s.dram := rfl
@[simp] theorem emit_pending (o : Out) : (s.emit o).pending = s.pending := rfl
@[simp] theorem emit_rshadow (o : Out) : (s.emit o).rshadow = s.rshadow := rfl
@[simp] theorem emit_wshadow (o : Out) : (s.emit o).wshadow = s.wshadow := rfl
@[simp] theorem emit_w1done (o : Out) : (s.emit o).w1done = s.w1done := rfl
@[simp] theorem emit_conds (o : Out) : (s.emit o).conds = s.conds := rfl
@[simp] theorem emit_gated (o : Out) : (s.emit o).gated = s.gated := rfl
@[simp] theorem emit_regClk (o : Out) : (s.emit o).regClk = s.regClk := rfl
@[simp] theorem emit_coreClk8 (o : Out) : (s.emit o).coreClk8 = s.coreClk8 := rfl
@[simp] theorem emit_out (o : Out) : (s.emit o).out = s.out ++ [o] := rfl
@[simp] theorem emit_freeIdx (o : Out) : (s.emit o).freeIdx = s.freeIdx := rfl
@[simp] theorem emit_hif (o : Out) : (s.emit o).hif = s.hif := rfl
@[simp] theorem emit_tsc (o : Out) : (s.emit o).tsc = s.tsc := rfl
@[simp] theorem emit_ref (o : Out) : (s.emit o).ref = s.ref := rfl
@[simp] theorem emit_hld (o : Out) : (s.emit o).hld = s.hld := rfl
@[simp] theorem emit_spr (o : Out) : (s.emit o).spr = s.spr := rfl
@[simp] theorem emit_syn (o : Out) : (s.emit o).syn = s.syn := rfl
@[simp] theorem emit_pts (o : Out) : (s.emit o).pts = s.pts := rfl
@[simp] theorem emit_ptp (o : Out) : (s.emit o).ptp = s.ptp := rfl
@[simp] theorem emit_fwd (o : Out) : (s.emit o).fwd = s.fwd := rfl
@[simp] theorem emit_tdc (o : Out) : (s.emit o).tdc = s.tdc := rfl
@[simp] theorem emit_guy (o : Out) : (s.emit o).guy = s.guy := rfl
@[simp] theorem emit_rut (o : Out) : (s.emit o).rut = s.rut := rfl
@[simp] theorem emit_boot (o : Out) : (s.emit o).boot = s.boot := rfl
@[simp] theorem emit_reg (o : Out) (k : Nat) : (s.emit o).reg k = s.reg k := rfl

/-! ### cond -/

@[simp] theorem cond_regs (a : Nat) (f : Fld) (b : Bool) : (s.cond a f b).regs = s.regs := rfl
@[simp] theorem cond_dram (a : Nat) (f : Fld) (b : Bool) : (s.cond a f b).dram = s.dram := rfl
@[simp] theorem cond_pending (a : Nat) (f : Fld) (b : Bool) : (s.cond a f b).pending = s.pending := rfl
@[simp] theorem cond_rshadow (a : Nat) (f : Fld) (b : Bool) : (s.cond a f b).rshadow = s.rshadow := rfl
@[simp] theorem cond_wshadow (a : Nat) (f : Fld) (b : Bool) : (s.cond a f b).wshadow = s.wshadow := rfl
@[simp] theorem cond_w1done (a : Nat) (f : Fld) (b : Bool) : (s.cond a f b).w1done = s.w1done := rfl
@[simp] theorem cond_conds (a : Nat) (f : Fld) (b : Bool) : (s.cond a f b).conds = Tbl.set 0#32 s.conds a (f.put (Tbl.get 0#32 s.conds a) (b2n b)) := rfl
@[simp] theorem cond_gated (a : Nat) (f : Fld) (b : Bool) : (s.cond a f b).gated = s.gated := rfl
@[simp] theorem cond_regClk (a : Nat) (f : Fld) (b : Bool) : (s.cond a f b).regClk = s.regClk := rfl
@[simp] theorem cond_coreClk8 (a : Nat) (f : Fld) (b : Bool) : (s.cond a f b).coreClk8 = s.coreClk8 := rfl
@[simp] theorem cond_out (a : Nat) (f : Fld) (b : Bool) : (s.cond a f b).out = s.out := rfl
@[simp] theorem cond_freeIdx (a : Nat) (f : Fld) (b : Bool) : (s.cond a f b).freeIdx = s.freeIdx := rfl
@[simp] theorem cond_hif (a : Nat) (f : Fld) (b : Bool) : (s.cond a f b).hif = s.hif := rfl
@[simp] theorem cond_tsc (a : Nat) (f : Fld) (b : Bool) : (s.cond a f b).tsc = s.tsc := rfl
@[simp] theorem cond_ref (a : Nat) (f : Fld) (b : Bool) : (s.cond a f b).ref = s.ref := rfl
@[simp] theorem cond_hld (a : Nat) (f : Fld) (b : Bool) : (s.cond a f b).hld = s.hld := rfl
@[simp] theorem cond_spr (a : Nat) (f : Fld) (b : Bool) : (s.cond a f b).spr = s.spr := rfl
@[simp] theorem cond_syn (a : Nat) (f : Fld) (b : Bool) : (s.cond a f b).syn = s.syn := rfl
@[simp] theorem cond_pts (a : Nat) (f : Fld) (b : Bool) : (s.cond a f b).pts = s.pts := rfl
@[simp] theorem cond_ptp (a : Nat) (f : Fld) (b : Bool) : (s.cond a f b).ptp = s.ptp := rfl
@[simp] theorem cond_fwd (a : Nat) (f : Fld) (b : Bool) : (s.cond a f b).fwd = s.fwd := rfl
@[simp] theorem cond_tdc (a : Nat) (f : Fld) (b : Bool) : (s.cond a f b).tdc = s.tdc := rfl
@[simp] theorem cond_guy (a : Nat) (f : Fld) (b : Bool) : (s.cond a f b).guy = s.guy := rfl
@[simp] theorem cond_rut (a : Nat) (f : Fld) (b : Bool) : (s.cond a f b).rut = s.rut := rfl
@[simp] theorem cond_boot (a : Nat) (f : Fld) (b : Bool) : (s.cond a f b).boot = s.boot := rfl
@[simp] theorem cond_reg (a : Nat) (f : Fld) (b : Bool) (k : Nat) : (s.cond a f b).reg k = s.reg k := rfl

/-! ### setTsc -/

@[simp] theorem setTsc_regs (x : Tsc) : (s.setTsc x).regs = s.regs := rfl
@[simp] theorem setTsc_dram (x : Tsc) : (s.setTsc x).dram = s.dram := rfl
@[simp] theorem setTsc_pending (x : Tsc) : (s.setTsc x).pending = s.pending := rfl
@[simp] theorem setTsc_rshadow (x : Tsc) : (s.setTsc x).rshadow = s.rshadow := rfl
@[simp] theorem setTsc_wshadow (x : Tsc) : (s.setTsc x).wshadow = s.wshadow := rfl
@[simp] theorem setTsc_w1done (x : Tsc) : (s.setTsc x).w1done = s.w1done := rfl
@[simp] theorem setTsc_conds (x : Tsc) : (s.setTsc x).conds = s.conds := rfl
@[simp] theorem setTsc_gated (x : Tsc) : (s.setTsc x).gated = s.gated := rfl
@[simp] theorem setTsc_regClk (x : Tsc) : (s.setTsc x).regClk = s.regClk := rfl
@[simp] theorem setTsc_coreClk8 (x : Tsc) : (s.setTsc x).coreClk8 = s.coreClk8 := rfl
@[simp] theorem setTsc_out (x : Tsc) : (s.setTsc x).out = s.out := rfl
@[simp] theorem setTsc_freeIdx (x : Tsc) : (s.setTsc x).freeIdx = s.freeIdx := rfl
@[simp] theorem setTsc_hif (x : Tsc) : (s.setTsc x).hif = s.hif := rfl
@[simp] theorem setTsc_tsc (x : Tsc) : (s.setTsc x).tsc = x := rfl
@[simp] theorem setTsc_ref (x : Tsc) : (s.setTsc x).ref = s.ref := rfl
@[simp] theorem setTsc_hld (x : Tsc) : (s.setTsc x).hld = s.hld := rfl
@[simp] theorem setTsc_spr (x : Tsc) : (s.setTsc x).spr = s.spr := rfl
@[simp] theorem setTsc_syn (x : Tsc) : (s.setTsc x).syn = s.syn := rfl
@[simp] theorem setTsc_pts (x : Tsc) : (s.setTsc x).pts = s.pts := rfl
@[simp] theorem setTsc_ptp (x : Tsc) : (s.setTsc x).ptp = s.ptp := rfl
@[simp] theorem setTsc_fwd (x : Tsc) : (s.setTsc x).fwd = s.fwd := rfl
@[simp] theorem setTsc_tdc (x : Tsc) : (s.setTsc x).tdc = s.tdc := rfl
@[simp] theorem setTsc_guy (x : Tsc) : (s.setTsc x).guy = s.guy := rfl
@[simp] theorem setTsc_rut (x : Tsc) : (s.setTsc x).rut = s.rut := rfl
@[simp] theorem setTsc_boot (x : Tsc) : (s.setTsc x).boot = s.boot := rfl
@[simp] theorem setTsc_reg (x : Tsc) (k : Nat) : (s.setTsc x).reg k = s.reg k := rfl

/-! ### setHld -/

@[simp] theorem setHld_regs (x : Hld) : (s.setHld x).regs = s.regs := rfl
@[simp] theorem setHld_dram (x : Hld) : (s.setHld x).dram = s.dram := rfl
@[simp] theorem setHld_pending (x : Hld) : (s.setHld x).pending = s.pending := rfl
@[simp] theorem setHld_rshadow (x : Hld) : (s.setHld x).rshadow = s.rshadow := rfl
@[simp] theorem setHld_wshadow (x : Hld) : (s.setHld x).wshadow = s.wshadow := rfl
@[simp] theorem setHld_w1done (x : Hld) : (s.setHld x).w1done = s.w1done := rfl
@[simp] theorem setHld_conds (x : Hld) : (s.setHld x).conds = s.conds := rfl
@[simp] theorem setHld_gated (x : Hld) : (s.setHld x).gated = s.gated := rfl
@[simp] theorem setHld_regClk (x : Hld) : (s.setHld x).regClk = s.regClk := rfl
@[simp] theorem setHld_coreClk8 (x : Hld) : (s.setHld x).coreClk8 = s.coreClk8 := rfl
@[simp] theorem setHld_out (x : Hld) : (s.setHld x).out = s.out := rfl
@[simp] theorem setHld_freeIdx (x : Hld) : (s.setHld x).freeIdx = s.freeIdx := rfl
@[simp] theorem setHld_hif (x : Hld) : (s.setHld x).hif = s.hif := rfl
@[simp] theorem setHld_tsc (x : Hld) : (s.setHld x).tsc = s.tsc := rfl
@[simp] theorem setHld_ref (x : Hld) : (s.setHld x).ref = s.ref := rfl
@[simp] theorem setHld_hld (x : Hld) : (s.setHld x).hld = x := rfl
@[simp] theorem setHld_spr (x : Hld) : (s.setHld x).spr = s.spr := rfl
@[simp] theorem setHld_syn (x : Hld) : (s.setHld x).syn = s.syn := rfl
@[simp] theorem setHld_pts (x : Hld) : (s.setHld x).pts = s.pts := rfl
@[simp] theorem setHld_ptp (x : Hld) : (s.setHld x).ptp = s.ptp := rfl
@[simp] theorem setHld_fwd (x : Hld) : (s.setHld x).fwd = s.fwd := rfl
@[simp] theorem setHld_tdc (x : Hld) : (s.setHld x).tdc = s.tdc := rfl
@[simp] theorem setHld_guy (x : Hld) : (s.setHld x).guy = s.guy := rfl
@[simp] theorem setHld_rut (x : Hld) : (s.setHld x).rut = s.rut := rfl
@[simp] theorem setHld_boot (x : Hld) : (s.setHld x).boot = s.boot := rfl
@[simp] theorem setHld_reg (x : Hld) (k : Nat) : (s.setHld x).reg k = s.reg k := rfl

/-! ### setRef -/

@[simp] theorem setRef_regs (x : RefSel) : (s.setRef x).regs = s.regs := rfl
@[simp] theorem setRef_dram (x : RefSel) : (s.setRef x).dram = s.dram := rfl
@[simp] theorem setRef_pending (x : RefSel) : (s.setRef x).pending = s.pending := rfl
@[simp] theorem setRef_rshadow (x : RefSel) : (s.setRef x).rshadow = s.rshadow := rfl
@[simp] theorem setRef_wshadow (x : RefSel) : (s.setRef x).wshadow = s.wshadow := rfl
@[simp] theorem setRef_w1done (x : RefSel) : (s.setRef x).w1done = s.w1done := rfl
@[simp] theorem setRef_conds (x : RefSel) : (s.setRef x).conds = s.conds := rfl
@[simp] theorem setRef_gated (x : RefSel) : (s.setRef x).gated = s.gated := rfl
@[simp] theorem setRef_regClk (x : RefSel) : (s.setRef x).regClk = s.regClk := rfl
@[simp] theorem setRef_coreClk8 (x : RefSel) : (s.setRef x).coreClk8 = s.coreClk8 := rfl
@[simp] theorem setRef_out (x : RefSel) : (s.setRef x).out = s.out := rfl
@[simp] theorem setRef_freeIdx (x : RefSel) : (s.setRef x).freeIdx = s.freeIdx := rfl
@[simp] theorem setRef_hif (x : RefSel) : (s.setRef x).hif = s.hif := rfl
@[simp] theorem setRef_tsc (x : RefSel) : (s.setRef x).tsc = s.tsc := rfl
@[simp] theorem setRef_ref (x : RefSel) : (s.setRef x).ref = x := rfl
@[simp] theorem setRef_hld (x : RefSel) : (s.setRef x).hld = s.hld := rfl
@[simp] theorem setRef_spr (x : RefSel) : (s.setRef x).spr = s.spr := rfl
@[simp] theorem setRef_syn (x : RefSel) : (s.setRef x).syn = s.syn := rfl
@[simp] theorem setRef_pts (x : RefSel) : (s.setRef x).pts = s.pts := rfl
@[simp] theorem setRef_ptp (x : RefSel) : (s.setRef x).ptp = s.ptp := rfl
@[simp] theorem setRef_fwd (x : RefSel) : (s.setRef x).fwd = s.fwd := rfl
@[simp] theorem setRef_tdc (x : RefSel) : (s.setRef x).tdc = s.tdc := rfl
@[simp] theorem setRef_guy (x : RefSel) : (s.setRef x).guy = s.guy := rfl
@[simp] theorem setRef_rut (x : RefSel) : (s.setRef x).rut = s.rut := rfl
@[simp] theorem setRef_boot (x : RefSel) : (s.setRef x).boot = s.boot := rfl
@[simp] theorem setRef_reg (x : RefSel) (k : Nat) : (s.setRef x).reg k = s.reg k := rfl

/-! ### setSyn -/

@[simp] theorem setSyn_regs (x : Syn) : (s.setSyn x).regs = s.regs := rfl
@[simp] theorem setSyn_dram (x : Syn) : (s.setSyn x).dram = s.dram := rfl
@[simp] theorem setSyn_pending (x : Syn) : (s.setSyn x).pending = s.pending := rfl
@[simp] theorem setSyn_rshadow (x : Syn) : (s.setSyn x).rshadow = s.rshadow := rfl
@[simp] theorem setSyn_wshadow (x : Syn) : (s.setSyn x).wshadow = s.wshadow := rfl
@[simp] theorem setSyn_w1done (x : Syn) : (s.setSyn x).w1done = s.w1done := rfl
@[simp] theorem setSyn_conds (x : Syn) : (s.setSyn x).conds = s.conds := rfl
@[simp] theorem setSyn_gated (x : Syn) : (s.setSyn x).gated = s.gated := rfl
@[simp] theorem setSyn_regClk (x : Syn) : (s.setSyn x).regClk = s.regClk := rfl
@[simp] theorem setSyn_coreClk8 (x : Syn) : (s.setSyn x).coreClk8 = s.coreClk8 := rfl
@[simp] theorem setSyn_out (x : Syn) : (s.setSyn x).out = s.out := rfl
@[simp] theorem setSyn_freeIdx (x : Syn) : (s.setSyn x).freeIdx = s.freeIdx := rfl
@[simp] theorem setSyn_hif (x : Syn) : (s.setSyn x).hif = s.hif := rfl
@[simp] theorem setSyn_tsc (x : Syn) : (s.setSyn x).tsc = s.tsc := rfl
@[simp] theorem setSyn_ref (x : Syn) : (s.setSyn x).ref = s.ref := rfl
@[simp] theorem setSyn_hld (x : Syn) : (s.setSyn x).hld = s.hld := rfl
@[simp] theorem setSyn_spr (x : Syn) : (s.setSyn x).spr = s.spr := rfl
@[simp] theorem setSyn_syn (x : Syn) : (s.setSyn x).syn = x := rfl
@[simp] theorem setSyn_pts (x : Syn) : (s.setSyn x).pts = s.pts := rfl
@[simp] theorem setSyn_ptp (x : Syn) : (s.setSyn x).ptp = s.ptp := rfl
@[simp] theorem setSyn_fwd (x : Syn) : (s.setSyn x).fwd = s.fwd := rfl
@[simp] theorem setSyn_tdc (x : Syn) : (s.setSyn x).tdc = s.tdc := rfl
@[simp] theorem setSyn_guy (x : Syn) : (s.setSyn x).guy = s.guy := rfl
@[simp] theorem setSyn_rut (x : Syn) : (s.setSyn x).rut = s.rut := rfl
@[simp] theorem setSyn_boot (x : Syn) : (s.setSyn x).boot = s.boot := rfl
@[simp] theorem setSyn_reg (x : Syn) (k : Nat) : (s.setSyn x).reg k = s.reg k := rfl

/-! ### setPts -/

@[simp] theorem setPts_regs (n : Nat) (x : Pts) : (s.setPts n x).regs = s.regs := rfl
@[simp] theorem setPts_dram (n : Nat) (x : Pts) : (s.setPts n x).dram = s.dram := rfl
@[simp] theorem setPts_pending (n : Nat) (x : Pts) : (s.setPts n x).pending = s.pending := rfl
@[simp] theorem setPts_rshadow (n : Nat) (x : Pts) : (s.setPts n x).rshadow = s.rshadow := rfl
@[simp] theorem setPts_wshadow (n : Nat) (x : Pts) : (s.setPts n x).wshadow = s.wshadow := rfl
@[simp] theorem setPts_w1done (n : Nat) (x : Pts) : (s.setPts n x).w1done = s.w1done := rfl
@[simp] theorem setPts_conds (n : Nat) (x : Pts) : (s.setPts n x).conds = s.conds := rfl
@[simp] theorem setPts_gated (n : Nat) (x : Pts) : (s.setPts n x).gated = s.gated := rfl
@[simp] theorem setPts_regClk (n : Nat) (x : Pts) : (s.setPts n x).regClk = s.regClk := rfl
@[simp] theorem setPts_coreClk8 (n : Nat) (x : Pts) : (s.setPts n x).coreClk8 = s.coreClk8 := rfl
@[simp] theorem setPts_out (n : Nat) (x : Pts) : (s.setPts n x).out = s.out := rfl
@[simp] theorem setPts_freeIdx (n : Nat) (x : Pts) : (s.setPts n x).freeIdx = s.freeIdx := rfl
@[simp] theorem setPts_hif (n : Nat) (x : Pts) : (s.setPts n x).hif = s.hif := rfl
@[simp] theorem setPts_tsc (n : Nat) (x : Pts) : (s.setPts n x).tsc = s.tsc := rfl
@[simp] theorem setPts_ref (n : Nat) (x : Pts) : (s.setPts n x).ref = s.ref := rfl
@[simp] theorem setPts_hld (n : Nat) (x : Pts) : (s.setPts n x).hld = s.hld := rfl
@[simp] theorem setPts_spr (n : Nat) (x : Pts) : (s.setPts n x).spr = s.spr := rfl
@[simp] theorem setPts_syn (n : Nat) (x : Pts) : (s.setPts n x).syn = s.syn := rfl
@[simp] theorem setPts_pts (n : Nat) (x : Pts) : (s.setPts n x).pts = Tbl.set Pts.reset s.pts n x := rfl
@[simp] theorem setPts_ptp (n : Nat) (x : Pts) : (s.setPts n x).ptp = s.ptp := rfl
@[simp] theorem setPts_fwd (n : Nat) (x : Pts) : (s.setPts n x).fwd = s.fwd := rfl
@[simp] theorem setPts_tdc (n : Nat) (x : Pts) : (s.setPts n x).tdc = s.tdc := rfl
@[simp] theorem setPts_guy (n : Nat) (x : Pts) : (s.setPts n x).guy = s.guy := rfl
@[simp] theorem setPts_rut (n : Nat) (x : Pts) : (s.setPts n x).rut = s.rut := rfl
@[simp] theorem setPts_boot (n : Nat) (x : Pts) : (s.setPts n x).boot = s.boot := rfl
@[simp] theorem setPts_reg (n : Nat) (x : Pts) (k : Nat) : (s.setPts n x).reg k = s.reg k := rfl

/-! ### setPtp -/

@[simp] theorem setPtp_regs (x : Ptp) : (s.setPtp x).regs = s.regs := rfl
@[simp] theorem setPtp_dram (x : Ptp) : (s.setPtp x).dram = s.dram := rfl
@[simp] theorem setPtp_pending (x : Ptp) : (s.setPtp x).pending = s.pending := rfl
@[simp] theorem setPtp_rshadow (x : Ptp) : (s.setPtp x).rshadow = s.rshadow := rfl
@[simp] theorem setPtp_wshadow (x : Ptp) : (s.setPtp x).wshadow = s.wshadow := rfl
@[simp] theorem setPtp_w1done (x : Ptp) : (s.setPtp x).w1done = s.w1done := rfl
@[simp] theorem setPtp_conds (x : Ptp) : (s.setPtp x).conds = s.conds := rfl
@[simp] theorem setPtp_gated (x : Ptp) : (s.setPtp x).gated = s.gated := rfl
@[simp] theorem setPtp_regClk (x : Ptp) : (s.setPtp x).regClk = s.regClk := rfl
@[simp] theorem setPtp_coreClk8 (x : Ptp) : (s.setPtp x).coreClk8 = s.coreClk8 := rfl
@[simp] theorem setPtp_out (x : Ptp) : (s.setPtp x).out = s.out := rfl
@[simp] theorem setPtp_freeIdx (x : Ptp) : (s.setPtp x).freeIdx = s.freeIdx := rfl
@[simp] theorem setPtp_hif (x : Ptp) : (s.setPtp x).hif = s.hif := rfl
@[simp] theorem setPtp_tsc (x : Ptp) : (s.setPtp x).tsc = s.tsc := rfl
@[simp] theorem setPtp_ref (x : Ptp) : (s.setPtp x).ref = s.ref := rfl
@[simp] theorem setPtp_hld (x : Ptp) : (s.setPtp x).hld = s.hld := rfl
@[simp] theorem setPtp_spr (x : Ptp) : (s.setPtp x).spr = s.spr := rfl
@[simp] theorem setPtp_syn (x : Ptp) : (s.setPtp x).syn = s.syn := rfl
@[simp] theorem setPtp_pts (x : Ptp) : (s.setPtp x).pts = s.pts := rfl
@[simp] theorem setPtp_ptp (x : Ptp) : (s.setPtp x).ptp = x := rfl
@[simp] theorem setPtp_fwd (x : Ptp) : (s.setPtp x).fwd = s.fwd := rfl
@[simp] theorem setPtp_tdc (x : Ptp) : (s.setPtp x).tdc = s.tdc := rfl
@[simp] theorem setPtp_guy (x : Ptp) : (s.setPtp x).guy = s.guy := rfl
@[simp] theorem setPtp_rut (x : Ptp) : (s.setPtp x).rut = s.rut := rfl
@[simp] theorem setPtp_boot (x : Ptp) : (s.setPtp x).boot = s.boot := rfl
@[simp] theorem setPtp_reg (x : Ptp) (k : Nat) : (s.setPtp x).reg k = s.reg k := rfl

/-! ### setFwd -/

@[simp] theorem setFwd_regs (x : Fwd) : (s.setFwd x).regs = s.regs := rfl
@[simp] theorem setFwd_dram (x : Fwd) : (s.setFwd x).dram = s.dram := rfl
@[simp] theorem setFwd_pending (x : Fwd) : (s.setFwd x).pending = s.pending := rfl
@[simp] theorem setFwd_rshadow (x : Fwd) : (s.setFwd x).rshadow = s.rshadow := rfl
@[simp] theorem setFwd_wshadow (x : Fwd) : (s.setFwd x).wshadow = s.wshadow := rfl
@[simp] theorem setFwd_w1done (x : Fwd) : (s.setFwd x).w1done = s.w1done := rfl
@[simp] theorem setFwd_conds (x : Fwd) : (s.setFwd x).conds = s.conds := rfl
@[simp] theorem setFwd_gated (x : Fwd) : (s.setFwd x).gated = s.gated := rfl
@[simp] theorem setFwd_regClk (x : Fwd) : (s.setFwd x).regClk = s.regClk := rfl
@[simp] theorem setFwd_coreClk8 (x : Fwd) : (s.setFwd x).coreClk8 = s.coreClk8 := rfl
@[simp] theorem setFwd_out (x : Fwd) : (s.setFwd x).out = s.out := rfl
@[simp] theorem setFwd_freeIdx (x : Fwd) : (s.setFwd x).freeIdx = s.freeIdx := rfl
@[simp] theorem setFwd_hif (x : Fwd) : (s.setFwd x).hif = s.hif := rfl
@[simp] theorem setFwd_tsc (x : Fwd) : (s.setFwd x).tsc = s.tsc := rfl
@[simp] theorem setFwd_ref (x : Fwd) : (s.setFwd x).ref = s.ref := rfl
@[simp] theorem setFwd_hld (x : Fwd) : (s.setFwd x).hld = s.hld := rfl
@[simp] theorem setFwd_spr (x : Fwd) : (s.setFwd x).spr = s.spr := rfl
@[simp] theorem setFwd_syn (x : Fwd) : (s.setFwd x).syn = s.syn := rfl
@[simp] theorem setFwd_pts (x : Fwd) : (s.setFwd x).pts = s.pts := rfl
@[simp] theorem setFwd_ptp (x : Fwd) : (s.setFwd x).ptp = s.ptp := rfl
@[simp] theorem setFwd_fwd (x : Fwd) : (s.setFwd x).fwd = x := rfl
@[simp] theorem setFwd_tdc (x : Fwd) : (s.setFwd x).tdc = s.tdc := rfl
@[simp] theorem setFwd_guy (x : Fwd) : (s.setFwd x).guy = s.guy := rfl
@[simp] theorem setFwd_rut (x : Fwd) : (s.setFwd x).rut = s.rut := rfl
@[simp] theorem setFwd_boot (x : Fwd) : (s.setFwd x).boot = s.boot := rfl
@[simp] theorem setFwd_reg (x : Fwd) (k : Nat) : (s.setFwd x).reg k = s.reg k := rfl

/-! ### setGuy -/

@[simp] theorem setGuy_regs (x : Guy) : (s.setGuy x).regs = s.regs := rfl
@[simp] theorem setGuy_dram (x : Guy) : (s.setGuy x).dram = s.dram := rfl
@[simp] theorem setGuy_pending (x : Guy) : (s.setGuy x).pending = s.pending := rfl
@[simp] theorem setGuy_rshadow (x : Guy) : (s.setGuy x).rshadow = s.rshadow := rfl
@[simp] theorem setGuy_wshadow (x : Guy) : (s.setGuy x).wshadow = s.wshadow := rfl
@[simp] theorem setGuy_w1done (x : Guy) : (s.setGuy x).w1done = s.w1done := rfl
@[simp] theorem setGuy_conds (x : Guy) : (s.setGuy x).conds = s.conds := rfl
@[simp] theorem setGuy_gated (x : Guy) : (s.setGuy x).gated = s.gated := rfl
@[simp] theorem setGuy_regClk (x : Guy) : (s.setGuy x).regClk = s.regClk := rfl
@[simp] theorem setGuy_coreClk8 (x : Guy) : (s.setGuy x).coreClk8 = s.coreClk8 := rfl
@[simp] theorem setGuy_out (x : Guy) : (s.setGuy x).out = s.out := rfl
@[simp] theorem setGuy_freeIdx (x : Guy) : (s.setGuy x).freeIdx = s.freeIdx := rfl
@[simp] theorem setGuy_hif (x : Guy) : (s.setGuy x).hif = s.hif := rfl
@[simp] theorem setGuy_tsc (x : Guy) : (s.setGuy x).tsc = s.tsc := rfl
@[simp] theorem setGuy_ref (x : Guy) : (s.setGuy x).ref = s.ref := rfl
@[simp] theorem setGuy_hld (x : Guy) : (s.setGuy x).hld = s.hld := rfl
@[simp] theorem setGuy_spr (x : Guy) : (s.setGuy x).spr = s.spr := rfl
@[simp] theorem setGuy_syn (x : Guy) : (s.setGuy x).syn = s.syn := rfl
@[simp] theorem setGuy_pts (x : Guy) : (s.setGuy x).pts = s.pts := rfl
@[simp] theorem setGuy_ptp (x : Guy) : (s.setGuy x).ptp = s.ptp := rfl
@[simp] theorem setGuy_fwd (x : Guy) : (s.setGuy x).fwd = s.fwd := rfl
@[simp] theorem setGuy_tdc (x : Guy) : (s.setGuy x).tdc = s.tdc := rfl
@[simp] theorem setGuy_guy (x : Guy) : (s.setGuy x).guy = x := rfl
@[simp] theorem setGuy_rut (x : Guy) : (s.setGuy x).rut = s.rut := rfl
@[simp] theorem setGuy_boot (x : Guy) : (s.setGuy x).boot = s.boot := rfl
@[simp] theorem setGuy_reg (x : Guy) (k : Nat) : (s.setGuy x).reg k = s.reg k := rfl

/-! ### setRut -/

@[simp] theorem setRut_regs (x : Rut) : (s.setRut x).regs = s.regs := rfl
@[simp] theorem setRut_dram (x : Rut) : (s.setRut x).dram = s.dram := rfl
@[simp] theorem setRut_pending (x : Rut) : (s.setRut x).pending = s.pending := rfl
@[simp] theorem setRut_rshadow (x : Rut) : (s.setRut x).rshadow = s.rshadow := rfl
@[simp] theorem setRut_wshadow (x : Rut) : (s.setRut x).wshadow = s.wshadow := rfl
@[simp] theorem setRut_w1done (x : Rut) : (s.setRut x).w1done = s.w1done := rfl
@[simp] theorem setRut_conds (x : Rut) : (s.setRut x).conds = s.conds := rfl
@[simp] theorem setRut_gated (x : Rut) : (s.setRut x).gated = s.gated := rfl
@[simp] theorem setRut_regClk (x : Rut) : (s.setRut x).regClk = s.regClk := rfl
@[simp] theorem setRut_coreClk8 (x : Rut) : (s.setRut x).coreClk8 = s.coreClk8 := rfl
@[simp] theorem setRut_out (x : Rut) : (s.setRut x).out = s.out := rfl
@[simp] theorem setRut_freeIdx (x : Rut) : (s.setRut x).freeIdx = s.freeIdx := rfl
@[simp] theorem setRut_hif (x : Rut) : (s.setRut x).hif = s.hif := rfl
@[simp] theorem setRut_tsc (x : Rut) : (s.setRut x).tsc = s.tsc := rfl
@[simp] theorem setRut_ref (x : Rut) : (s.setRut x).ref = s.ref := rfl
@[simp] theorem setRut_hld (x : Rut) : (s.setRut x).hld = s.hld := rfl
@[simp] theorem setRut_spr (x : Rut) : (s.setRut x).spr = s.spr := rfl
@[simp] theorem setRut_syn (x : Rut) : (s.setRut x).syn = s.syn := rfl
@[simp] theorem setRut_pts (x : Rut) : (s.setRut x).pts = s.pts := rfl
@[simp] theorem setRut_ptp (x : Rut) : (s.setRut x).ptp = s.ptp := rfl
@[simp] theorem setRut_fwd (x : Rut) : (s.setRut x).fwd = s.fwd := rfl
@[simp] theorem setRut_tdc (x : Rut) : (s.setRut x).tdc = s.tdc := rfl
@[simp] theorem setRut_guy (x : Rut) : (s.setRut x).guy = s.guy := rfl
@[simp] theorem setRut_rut (x : Rut) : (s.setRut x).rut = x := rfl
@[simp] theorem setRut_boot (x : Rut) : (s.setRut x).boot = s.boot := rfl
@[simp] theorem setRut_reg (x : Rut) (k : Nat) : (s.setRut x).reg k = s.reg k := rfl

/-! ### setBootRec -/

@[simp] theorem setBootRec_regs (x : Boot) : (s.setBootRec x).regs = s.regs := rfl
@[simp] theorem setBootRec_dram (x : Boot) : (s.setBootRec x).dram = s.dram := rfl
@[simp] theorem setBootRec_pending (x : Boot) : (s.setBootRec x).pending = s.pending := rfl
@[simp] theorem setBootRec_rshadow (x : Boot) : (s.setBootRec x).rshadow = s.rshadow := rfl
@[simp] theorem setBootRec_wshadow (x : Boot) : (s.setBootRec x).wshadow = s.wshadow := rfl
@[simp] theorem setBootRec_w1done (x : Boot) : (s.setBootRec x).w1done = s.w1done := rfl
@[simp] theorem setBootRec_conds (x : Boot) : (s.setBootRec x).conds = s.conds := rfl
@[simp] theorem setBootRec_gated (x : Boot) : (s.setBootRec x).gated = s.gated := rfl
@[simp] theorem setBootRec_regClk (x : Boot) : (s.setBootRec x).regClk = s.regClk := rfl
@[simp] theorem setBootRec_coreClk8 (x : Boot) : (s.setBootRec x).coreClk8 = s.coreClk8 := rfl
@[simp] theorem setBootRec_out (x : Boot) : (s.setBootRec x).out = s.out := rfl
@[simp] theorem setBootRec_freeIdx (x : Boot) : (s.setBootRec x).freeIdx = s.freeIdx := rfl
@[simp] theorem setBootRec_hif (x : Boot) : (s.setBootRec x).hif = s.hif := rfl
@[simp] theorem setBootRec_tsc (x : Boot) : (s.setBootRec x).tsc = s.tsc := rfl
@[simp] theorem setBootRec_ref (x : Boot) : (s.setBootRec x).ref = s.ref := rfl
@[simp] theorem setBootRec_hld (x : Boot) : (s.setBootRec x).hld = s.hld := rfl
@[simp] theorem setBootRec_spr (x : Boot) : (s.setBootRec x).spr = s.spr := rfl
@[simp] theorem setBootRec_syn (x : Boot) : (s.setBootRec x).syn = s.syn := rfl
@[simp] theorem setBootRec_pts (x : Boot) : (s.setBootRec x).pts = s.pts := rfl
@[simp] theorem setBootRec_ptp (x : Boot) : (s.setBootRec x).ptp = s.ptp := rfl
@[simp] theorem setBootRec_fwd (x : Boot) : (s.setBootRec x).fwd = s.fwd := rfl
@[simp] theorem setBootRec_tdc (x : Boot) : (s.setBootRec x).tdc = s.tdc := rfl
@[simp] theorem setBootRec_guy (x : Boot) : (s.setBootRec x).guy = s.guy := rfl
@[simp] theorem setBootRec_rut (x : Boot) : (s.setBootRec x).rut = s.rut := rfl
@[simp] theorem setBootRec_boot (x : Boot) : (s.setBootRec x).boot = x := rfl
@[simp] theorem setBootRec_reg (x : Boot) (k : Nat) : (s.setBootRec x).reg k = s.reg k := rfl

/-! ### ungate -/

@[simp] theorem ungate_regs (d : Dom) : (s.ungate d).regs = s.regs := rfl
@[simp] theorem ungate_dram (d : Dom) : (s.ungate d).dram = s.dram := rfl
@[simp] theorem ungate_pending (d : Dom) : (s.ungate d).pending = s.pending := rfl
@[simp] theorem ungate_rshadow (d : Dom) : (s.ungate d).rshadow = s.rshadow := rfl
@[simp] theorem ungate_wshadow (d : Dom) : (s.ungate d).wshadow = s.wshadow := rfl
@[simp] theorem ungate_w1done (d : Dom) : (s.ungate d).w1done = s.w1done := rfl
@[simp] theorem ungate_conds (d : Dom) : (s.ungate d).conds = s.conds := rfl
@[simp] theorem ungate_gated (d : Dom) : (s.ungate d).gated = s.gated.erase d := rfl
@[simp] theorem ungate_regClk (d : Dom) : (s.ungate d).regClk = s.regClk := rfl
@[simp] theorem ungate_coreClk8 (d : Dom) : (s.ungate d).coreClk8 = s.coreClk8 := rfl
@[simp] theorem ungate_out (d : Dom) : (s.ungate d).out = s.out := rfl
@[simp] theorem ungate_freeIdx (d : Dom) : (s.ungate d).freeIdx = s.freeIdx := rfl
@[simp] theorem ungate_hif (d : Dom) : (s.ungate d).hif = s.hif := rfl
@[simp] theorem ungate_tsc (d : Dom) : (s.ungate d).tsc = s.tsc := rfl
@[simp] theorem ungate_ref (d : Dom) : (s.ungate d).ref = s.ref := rfl
@[simp] theorem ungate_hld (d : Dom) : (s.ungate d).hld = s.hld := rfl
@[simp] theorem ungate_spr (d : Dom) : (s.ungate d).spr = s.spr := rfl
@[simp] theorem ungate_syn (d : Dom) : (s.ungate d).syn = s.syn := rfl
@[simp] theorem ungate_pts (d : Dom) : (s.ungate d).pts = s.pts := rfl
@[simp] theorem ungate_ptp (d : Dom) : (s.ungate d).ptp = s.ptp := rfl
@[simp] theorem ungate_fwd (d : Dom) : (s.ungate d).fwd = s.fwd := rfl
@[simp] theorem ungate_tdc (d : Dom) : (s.ungate d).tdc = s.tdc := rfl
@[simp] theorem ungate_guy (d : Dom) : (s.ungate d).guy = s.guy := rfl
@[simp] theorem ungate_rut (d : Dom) : (s.ungate d).rut = s.rut := rfl
@[simp] theorem ungate_boot (d : Dom) : (s.ungate d).boot = s.boot := rfl
@[simp] theorem ungate_reg (d : Dom) (k : Nat) : (s.ungate d).reg k = s.reg k := rfl

end Sys2Proof.Machine.State
end

