-- ==== Sys2Proof/Laws/Clock.lean ====
section
/-! SUPPORT. What the shared operations may do to the state, said once: journal records, faults, triggers, performance
counts and the end of a clock leave every register but the shared ones, and every part of the state but the journal,
the fault queue and the outputs, as they were. -/

set_option Elab.async false

namespace Sys2Proof.Machine

/-- From `s` to `t` nothing happened but logging. -/
structure Logs (s t : State) : Prop where
  reg : ∀ a, sharedReg a = false → t.reg a = s.reg a
  raw : ∀ a m, (rawBlock a).isSome = true → s.reg a &&& m = m → t.reg a &&& m = m
  fq : s.hif.fq <+: t.hif.fq
  out : s.out <+: t.out
  hif : t.hif = { s.hif with fq := t.hif.fq }
  rest : (t.dram, t.pending, t.rshadow, t.wshadow, t.w1done, t.conds, t.gated, t.regClk, t.coreClk8, t.freeIdx) =
    (s.dram, s.pending, s.rshadow, s.wshadow, s.w1done, s.conds, s.gated, s.regClk, s.coreClk8, s.freeIdx)
  blocks : (t.tsc, t.ref, t.hld, t.syn, t.pts, t.ptp, t.fwd, t.tdc, t.guy, t.rut, t.boot) =
    (s.tsc, s.ref, s.hld, s.syn, s.pts, s.ptp, s.fwd, s.tdc, s.guy, s.rut, s.boot)

variable {s₀ s t u : State}

theorem Logs.refl (s : State) : Logs s s :=
  ⟨fun _ _ => rfl, fun _ _ _ h => h, List.prefix_refl _, List.prefix_refl _, rfl, rfl, rfl⟩

theorem Logs.trans (h : Logs s t) (k : Logs t u) : Logs s u :=
  ⟨fun a ha => (k.reg a ha).trans (h.reg a ha), fun a m ha hm => k.raw a m ha (h.raw a m ha hm), h.fq.trans k.fq,
    h.out.trans k.out, by rw [k.hif, h.hif], k.rest.trans h.rest, k.blocks.trans h.blocks⟩

theorem Logs.ite {c : Prop} [Decidable c] (h : Logs s₀ s) (k : Logs s₀ t) : Logs s₀ (if c then s else t) := by
  split <;> assumption

theorem Logs.fold {α : Type} {f : State → α → State} (hf : ∀ t x, Logs t (f t x)) (h : Logs s₀ s) (l : List α) :
    Logs s₀ (l.foldl f s) := by
  induction l generalizing s with
  | nil => exact h
  | cons x r ih => exact ih (h.trans (hf s x))

/-- A shared register that is no raw status register is written. -/
theorem Logs.setReg {a v} (ha : sharedReg a = true) (hr : rawBlock a = none) (h : Logs s₀ s) : Logs s₀ (s.setReg a v) := by
  refine h.trans ⟨fun b hb => ?_, fun b m hb hm => ?_, List.prefix_refl _, List.prefix_refl _, rfl, rfl, rfl⟩
  · exact State.reg_setReg_ne s (fun e => by rw [e, ha] at hb; cases hb) v
  · rw [State.reg_setReg_ne s (fun e => by rw [e, hr] at hb; cases hb) v]
    exact hm

/-- A raw status bit is set. -/
theorem Logs.rawBit {a f} (ha : (rawBlock a).isSome = true) (hf : f.lo < 32) (hw : f.w = 1) (h : Logs s₀ s) :
    Logs s₀ (s.raw a f) := by
  refine h.trans ⟨fun b hb => ?_, fun b m hb hm => ?_, List.prefix_refl _, List.prefix_refl _, rfl, rfl, rfl⟩
  · refine State.reg_setReg_ne s (fun e => ?_) _
    rw [e] at hb
    simp [sharedReg, ha] at hb
  · by_cases e : b = a
    · subst e
      show (s.setReg b _).reg b &&& m = m
      rw [State.reg_setReg_same]
      exact Fld.put_one_keeps hf hw hm
    · show (s.setReg a _).reg b &&& m = m
      rw [State.reg_setReg_ne s e]
      exact hm

/-- The raw status bits of `m` are set. -/
theorem Logs.rawOr {a m} (ha : (rawBlock a).isSome = true) (h : Logs s₀ s) : Logs s₀ (s.setReg a (s.reg a ||| m)) := by
  refine h.trans ⟨fun b hb => ?_, fun b k hb hk => ?_, List.prefix_refl _, List.prefix_refl _, rfl, rfl, rfl⟩
  · refine State.reg_setReg_ne s (fun e => ?_) _
    rw [e] at hb
    simp [sharedReg, ha] at hb
  · by_cases e : b = a
    · subst e
      rw [State.reg_setReg_same]
      ext i hi
      have := congrArg (fun w => w.getLsbD i) hk
      simp at this ⊢
      tauto
    · rw [State.reg_setReg_ne s e]
      exact hk

theorem Logs.spr {x} (h : Logs s₀ s) : Logs s₀ { s with spr := x } :=
  h.trans ⟨fun _ _ => rfl, fun _ _ _ k => k, List.prefix_refl _, List.prefix_refl _, rfl, rfl, rfl⟩

theorem Logs.emit {o} (h : Logs s₀ s) : Logs s₀ (s.emit o) :=
  h.trans ⟨fun _ _ => rfl, fun _ _ _ k => k, List.prefix_refl _, List.prefix_append _ _, rfl, rfl, rfl⟩

theorem Logs.sprBit {f} (h : Logs s₀ s) (hf : f.lo < 32 := by decide) (hw : f.w = 1 := by decide) :
    Logs s₀ (s.raw R.SPR_RAW f) := h.rawBit rfl hf hw

theorem Logs.setFifo {l} (h : Logs s₀ s) : Logs s₀ (s.setFifo l) := Logs.setReg rfl rfl h.spr

theorem Logs.loseRec {a r} (h : Logs s₀ s) : Logs s₀ (s.loseRec a r) := by
  unfold State.loseRec
  extract_lets x y z w
  have hy : Logs s₀ y := .ite (.setReg rfl rfl h) (.setReg rfl rfl h)
  have hw : Logs s₀ w := hy.spr
  exact .ite (.setReg rfl rfl hw.sprBit) hw

theorem Logs.enterRec {a r} (h : Logs s₀ s) : Logs s₀ (s.enterRec a r) := by
  unfold State.enterRec
  extract_lets q x y n
  have hy : Logs s₀ y := h.spr
  exact .ite (.setReg rfl rfl hy) (.ite hy.loseRec hy.setFifo)

theorem Logs.pushRec {k a r} (h : Logs s₀ s) : Logs s₀ (s.pushRec k a r) := .ite h.spr h

theorem Logs.enterFormed (h : Logs s₀ s) : Logs s₀ s.enterFormed :=
  Logs.fold (fun t _ => (Logs.refl t).enterRec) (s := { s with spr := { s.spr with formed := [] } }) h.spr _

theorem Logs.fire {n d} (h : Logs s₀ s) : Logs s₀ (s.fire n d) := h.spr

theorem Logs.pushFault {f} (h : Logs s₀ s) : Logs s₀ (s.pushFault f) := by
  unfold State.pushFault
  refine .ite (.setReg rfl rfl (h.trans ?_)) (.rawBit rfl (by decide) rfl (.setReg rfl rfl h))
  exact ⟨fun _ _ => rfl, fun _ _ _ k => k, List.prefix_append _ _, List.prefix_refl _, rfl, rfl, rfl⟩

theorem Logs.faultCore {b c d p} (h : Logs s₀ s) : Logs s₀ (s.faultCore b c d p) :=
  .ite (Logs.fire (Logs.pushRec h.pushFault)) (Logs.pushRec h.pushFault)

theorem Logs.lossCheck (h : Logs s₀ s) : Logs s₀ s.lossCheck := by
  unfold State.lossCheck
  split
  · exact h
  · exact Logs.faultCore h.spr

theorem Logs.flush (h : Logs s₀ s) : Logs s₀ s.flush := .ite h h.enterFormed.lossCheck.enterFormed

theorem Logs.record {a r} (h : Logs s₀ s) : Logs s₀ (s.record a r) := h.pushRec
theorem Logs.note {t a b c d e} (h : Logs s₀ s) : Logs s₀ (s.note t a b c d e) := h.record
theorem Logs.fault {b c d p} (h : Logs s₀ s) : Logs s₀ (s.fault b c d p) := h.faultCore

theorem Logs.setPair {a n} (h0 : sharedReg a = true) (h1 : sharedReg (a + 4) = true) (r0 : rawBlock a = none)
    (r1 : rawBlock (a + 4) = none) (h : Logs s₀ s) : Logs s₀ (s.setPair a n) := .setReg h1 r1 (.setReg h0 r0 h)

theorem Logs.takeTrigger (h : Logs s₀ s) : Logs s₀ s.takeTrigger := by
  unfold State.takeTrigger
  split
  · exact h
  · refine .ite ?_ (.ite ?_ (.ite ?_ ?_))
    · exact .sprBit (.setReg rfl rfl (.setReg rfl rfl (.setPair rfl rfl rfl rfl (Logs.spr (Logs.flush (.note (.spr h)))))))
    · exact .sprBit (.setReg rfl rfl (Logs.flush (.note (.spr h))))
    · exact .sprBit (.setReg rfl rfl (.spr h))
    · exact .spr h

theorem Logs.applyConds (h : Logs s₀ s) : Logs s₀ s.applyConds := by
  refine .fold (fun t p => ?_) h _
  unfold State.applyCond
  split
  · next hp => exact .rawOr hp (.refl t)
  · exact .refl t

theorem Logs.signal {v} (h : Logs s₀ s) : Logs s₀ (s.signal v) :=
  .ite h (.ite (.setReg rfl rfl h) h.emit)

theorem Logs.signalRises {n} (h : Logs s₀ s) : Logs s₀ (s.signalRises n) :=
  .ite h (.fold (fun t _ => (Logs.refl t).signal) h _)

theorem Logs.clockRecs (h : Logs s₀ s) : Logs s₀ s.clockRecs := h.flush.takeTrigger.flush

/-- The end of a clock. -/
theorem Logs.endClock (h : Logs s₀ t) : Logs s₀ (endClock s t) := h.clockRecs.applyConds.signalRises

/-! ### Reading fields -/

theorem State.g_p_same {a : Nat} {f : Fld} (h : f.lo + f.w ≤ 32) (n : Nat) : (s.p a f n).g a f = n % 2 ^ f.w := by
  unfold State.g State.p
  rw [State.reg_setReg_same, Fld.get_put h]

theorem State.g_p_beside {a : Nat} {f g : Fld} (h : f.lo + f.w ≤ 32) (hg : f.lo + f.w ≤ g.lo ∨ g.lo + g.w ≤ f.lo)
    (n : Nat) : (s.p a f n).g a g = s.g a g := by
  unfold State.g State.p
  rw [State.reg_setReg_same, Fld.get_put_ne h hg]

theorem State.reg_p_ne {a b : Nat} (h : b ≠ a) (f : Fld) (n : Nat) : (s.p a f n).reg b = s.reg b :=
  State.reg_setReg_ne s h _

theorem State.g_p_ne {a b : Nat} (h : b ≠ a) (f g : Fld) (n : Nat) : (s.p a f n).g b g = s.g b g := by
  unfold State.g
  rw [State.reg_p_ne h]

theorem bit_iff {v : Word} {i : Nat} (hi : i < 32) :
    (⟨i, 1⟩ : Fld).get v = 1 ↔ v &&& BitVec.ofNat 32 (2 ^ i) = BitVec.ofNat 32 (2 ^ i) := by
  have h1 : (⟨i, 1⟩ : Fld).get v = (v.toNat.testBit i).toNat := by
    rw [Nat.toNat_testBit]
    exact congrArg (· % 2) (Nat.shiftRight_eq_div_pow _ _)
  have h2 : (BitVec.ofNat 32 (2 ^ i)).toNat = 2 ^ i := by
    rw [BitVec.toNat_ofNat, Nat.mod_eq_of_lt (Nat.pow_lt_pow_right (by decide) hi)]
  rw [h1]
  constructor
  · intro h
    have hb : v.toNat.testBit i = true := by revert h; cases v.toNat.testBit i <;> simp
    apply BitVec.eq_of_toNat_eq
    rw [BitVec.toNat_and, h2]
    apply Nat.eq_of_testBit_eq
    intro j
    rw [Nat.testBit_and, Nat.testBit_two_pow]
    by_cases e : i = j
    · subst e; simp [hb]
    · simp [e]
  · intro h
    have := congrArg (fun w => w.toNat.testBit i) h
    simp only [BitVec.toNat_and, h2, Nat.testBit_and, Nat.testBit_two_pow_self, Bool.and_true] at this
    rw [this]
    rfl

/-- A raw status bit stays set. -/
theorem Logs.isSet (h : Logs s t) {a : Nat} {f : Fld} (ha : (rawBlock a).isSome = true) (hf : f.lo < 32) (hw : f.w = 1)
    (k : s.isSet a f) : t.isSet a f := by
  obtain ⟨i, w⟩ := f
  subst hw
  exact (bit_iff hf).2 (h.raw a _ ha ((bit_iff hf).1 k))

theorem State.isSet_raw {a : Nat} {f : Fld} (hf : f.lo < 32) (hw : f.w = 1) : (s.raw a f).isSet a f := by
  show (s.p a f 1).g a f = 1
  rw [State.g_p_same (by omega), hw]
  rfl

theorem Logs.g (h : Logs s t) {a : Nat} (ha : sharedReg a = false) (f : Fld) : t.g a f = s.g a f := by
  unfold State.g
  rw [h.reg a ha]

theorem Logs.tsc (h : Logs s t) : t.tsc = s.tsc := congrArg (·.1) h.blocks
theorem Logs.ref (h : Logs s t) : t.ref = s.ref := congrArg (·.2.1) h.blocks
theorem Logs.hld (h : Logs s t) : t.hld = s.hld := congrArg (·.2.2.1) h.blocks
theorem Logs.syn (h : Logs s t) : t.syn = s.syn := congrArg (·.2.2.2.1) h.blocks
theorem Logs.pts (h : Logs s t) : t.pts = s.pts := congrArg (·.2.2.2.2.1) h.blocks
theorem Logs.ptp (h : Logs s t) : t.ptp = s.ptp := congrArg (·.2.2.2.2.2.1) h.blocks
theorem Logs.fwd (h : Logs s t) : t.fwd = s.fwd := congrArg (·.2.2.2.2.2.2.1) h.blocks
theorem Logs.tdc (h : Logs s t) : t.tdc = s.tdc := congrArg (·.2.2.2.2.2.2.2.1) h.blocks
theorem Logs.guy (h : Logs s t) : t.guy = s.guy := congrArg (·.2.2.2.2.2.2.2.2.1) h.blocks
theorem Logs.rut (h : Logs s t) : t.rut = s.rut := congrArg (·.2.2.2.2.2.2.2.2.2.1) h.blocks
theorem Logs.boot (h : Logs s t) : t.boot = s.boot := congrArg (·.2.2.2.2.2.2.2.2.2.2) h.blocks
theorem Logs.dram (h : Logs s t) : t.dram = s.dram := congrArg (·.1) h.rest
theorem Logs.rshadow (h : Logs s t) : t.rshadow = s.rshadow := congrArg (·.2.2.1) h.rest
theorem Logs.wshadow (h : Logs s t) : t.wshadow = s.wshadow := congrArg (·.2.2.2.1) h.rest
theorem Logs.w1done (h : Logs s t) : t.w1done = s.w1done := congrArg (·.2.2.2.2.1) h.rest
theorem Logs.conds (h : Logs s t) : t.conds = s.conds := congrArg (·.2.2.2.2.2.1) h.rest
theorem Logs.gated (h : Logs s t) : t.gated = s.gated := congrArg (·.2.2.2.2.2.2.1) h.rest

theorem Logs.sameDram (h : Logs s t) : s.sameDram t := fun a => by
  unfold State.dramByte
  rw [h.dram]

end Sys2Proof.Machine
end

