-- ==== Sys2Proof/Laws/Keeps.lean ====
section
/-! SUPPORT. What an operation of the model may do to the state, said once: `Keeps` for every operation, `Still` for
those that move no time and hold or release no reset.  The files Sys2Proof/Laws/Still*.lean give one lemma per
operation; a claim about every step cites these and unfolds no operation. -/

set_option Elab.async false

namespace Sys2Proof.Machine

/-- From `s` to `t`, sound parts stay sound, the waiting commands stay as they are, nothing that has left the block is
taken back, and no free value is drawn twice. -/
structure Keeps (s t : State) : Prop where
  regs : s.regsOk → t.regsOk
  dram : s.dramOk → t.dramOk
  faults : s.faultsOk → t.faultsOk
  fifo : s.fifoOk → t.fifoOk
  pending : t.pending = s.pending
  out : s.out <+: t.out
  free : s.freeIdx ≤ t.freeIdx

/-- `Keeps`, with the voted state, DRAM and the reset inputs as they were. -/
structure Still (s t : State) : Prop extends Keeps s t where
  memory : t.dram = s.dram
  voted : t.tsc.voted = s.tsc.voted
  pinLow : t.boot.pinLow = s.boot.pinLow
  railBad : t.boot.railBad = s.boot.railBad

variable {s₀ s t u : State}

theorem Keeps.refl (s : State) : Keeps s s :=
  ⟨id, id, id, id, rfl, List.prefix_refl _, Nat.le_refl _⟩

theorem Keeps.trans (h : Keeps s t) (k : Keeps t u) : Keeps s u :=
  ⟨k.regs ∘ h.regs, k.dram ∘ h.dram, k.faults ∘ h.faults, k.fifo ∘ h.fifo, k.pending.trans h.pending, h.out.trans k.out,
    h.free.trans k.free⟩

theorem Still.refl (s : State) : Still s s := ⟨Keeps.refl s, rfl, rfl, rfl, rfl⟩

theorem Still.trans (h : Still s t) (k : Still t u) : Still s u :=
  ⟨h.toKeeps.trans k.toKeeps, k.memory.trans h.memory, k.voted.trans h.voted, k.pinLow.trans h.pinLow, k.railBad.trans h.railBad⟩

theorem Keeps.andThen (h : Keeps s t) (k : Still t u) : Keeps s u := h.trans k.toKeeps

theorem Keeps.sound (h : Keeps s t) (k : s.sound) : t.sound :=
  ⟨h.regs k.1, h.dram k.2.1, h.faults k.2.2.1, h.fifo k.2.2.2⟩

theorem Still.inReset (h : Still s t) : t.inReset = s.inReset := by
  unfold State.inReset
  rw [h.pinLow, h.railBad]

/-! ### Forms of operations -/

theorem Still.ite {c : Prop} [Decidable c] (h : Still s₀ s) (k : Still s₀ t) : Still s₀ (if c then s else t) := by
  split <;> assumption

theorem Keeps.ite {c : Prop} [Decidable c] (h : Keeps s₀ s) (k : Keeps s₀ t) : Keeps s₀ (if c then s else t) := by
  split <;> assumption

theorem Still.fold {α : Type} {f : State → α → State} (hf : ∀ t x, Still t (f t x)) (h : Still s₀ s) (l : List α) :
    Still s₀ (l.foldl f s) := by
  induction l generalizing s with
  | nil => exact h
  | cons x r ih => exact ih (h.trans (hf s x))

theorem Still.foldFst {α β : Type} {f : State × β → α → State × β} (hf : ∀ p x, Still p.1 (f p x).1) {p : State × β}
    (h : Still s₀ p.1) (l : List α) : Still s₀ (l.foldl f p).1 := by
  induction l generalizing p with
  | nil => exact h
  | cons x r ih => exact ih (h.trans (hf p x))

theorem Keeps.fold {α : Type} {f : State → α → State} (hf : ∀ t x, Keeps t (f t x)) (h : Keeps s₀ s) (l : List α) :
    Keeps s₀ (l.foldl f s) := by
  induction l generalizing s with
  | nil => exact h
  | cons x r ih => exact ih (h.trans (hf s x))

/-- A record update that leaves registers, DRAM, queue, outputs, fault records, journal FIFO, voted state and reset
inputs alone. -/
theorem Still.upd (h : Still s₀ s) {rshadow wshadow w1done conds gated regClk coreClk8 freeIdx hif tsc ref hld spr syn pts ptp
      fwd tdc guy rut boot}
    (hq : hif.fq = s.hif.fq := by rfl) (hj : spr.fifo = s.spr.fifo := by rfl)
    (hv : tsc.voted = s.tsc.voted := by rfl) (hp : boot.pinLow = s.boot.pinLow := by rfl)
    (hr : boot.railBad = s.boot.railBad := by rfl) (hf : freeIdx = s.freeIdx := by rfl) :
    Still s₀ (State.mk s.regs s.dram s.pending rshadow wshadow w1done conds gated regClk coreClk8 s.out freeIdx hif tsc ref
      hld spr syn pts ptp fwd tdc guy rut boot) :=
  h.trans ⟨⟨id, id, fun k => by unfold State.faultsOk at *; rwa [hq], fun k => by unfold State.fifoOk at *; rwa [hj], rfl,
    List.prefix_refl _, Nat.le_of_eq hf.symm⟩, rfl, hv, hp, hr⟩

/-- The same for `Keeps`. -/
theorem Keeps.upd (h : Keeps s₀ s) {rshadow wshadow w1done conds gated regClk coreClk8 freeIdx hif tsc ref hld spr syn pts ptp
      fwd tdc guy rut boot}
    (hq : hif.fq = s.hif.fq := by rfl) (hj : spr.fifo = s.spr.fifo := by rfl) (hf : freeIdx = s.freeIdx := by rfl) :
    Keeps s₀ (State.mk s.regs s.dram s.pending rshadow wshadow w1done conds gated regClk coreClk8 s.out freeIdx hif tsc ref
      hld spr syn pts ptp fwd tdc guy rut boot) :=
  h.trans ⟨id, id, fun k => by unfold State.faultsOk at *; rwa [hq], fun k => by unfold State.fifoOk at *; rwa [hj], rfl,
    List.prefix_refl _, Nat.le_of_eq hf.symm⟩

theorem Still.ofFst {α : Type} {p : State × α} {b : α} (e : p = (s, b)) (h : Still s₀ p.1) : Still s₀ s := by
  rw [e] at h
  exact h

theorem Still.ofGetD {o : Option State} (e : o = some t) (h : Still s₀ (o.getD s)) : Still s₀ t := by
  rw [e] at h
  exact h

theorem Keeps.ofFst {α : Type} {p : State × α} {b : α} (e : p = (s, b)) (h : Keeps s₀ p.1) : Keeps s₀ s := by
  rw [e] at h
  exact h

/-! ### The primitive operations -/

theorem Still.setReg {a v} (h : Still s₀ s) : Still s₀ (s.setReg a v) :=
  h.trans ⟨⟨fun k => State.regsOk_setReg k a v, id, id, id, rfl, List.prefix_refl _, Nat.le_refl _⟩, rfl, rfl, rfl, rfl⟩

theorem Keeps.setDramByte {a b} (h : Keeps s₀ s) : Keeps s₀ (s.setDramByte a b) :=
  h.trans ⟨id, fun k => State.dramOk_setDramByte k a b, id, id, rfl, List.prefix_refl _, Nat.le_refl _⟩

theorem Keeps.dramWrite {a l} (h : Keeps s₀ s) : Keeps s₀ (s.dramWrite a l) := by
  induction l generalizing s a with
  | nil => exact h
  | cons b r ih => exact ih h.setDramByte

theorem Still.emit {o} (h : Still s₀ s) : Still s₀ (s.emit o) :=
  h.trans ⟨⟨id, id, id, id, rfl, List.prefix_append _ _, Nat.le_refl _⟩, rfl, rfl, rfl, rfl⟩

theorem Still.drawn (h : Still s₀ s) : Still s₀ s.drawn :=
  h.trans ⟨⟨id, id, id, id, rfl, List.prefix_refl _, Nat.le_succ _⟩, rfl, rfl, rfl, rfl⟩

theorem Still.p {a f n} (h : Still s₀ s) : Still s₀ (s.p a f n) := h.setReg
theorem Still.pb {a f b} (h : Still s₀ s) : Still s₀ (s.pb a f b) := h.setReg
theorem Still.satAdd {a f n} (h : Still s₀ s) : Still s₀ (s.satAdd a f n) := h.setReg
theorem Still.inc {a f} (h : Still s₀ s) : Still s₀ (s.inc a f) := h.setReg
theorem Still.setRegN {a n} (h : Still s₀ s) : Still s₀ (s.setRegN a n) := h.setReg
theorem Still.setRegI {a i} (h : Still s₀ s) : Still s₀ (s.setRegI a i) := h.setReg
theorem Still.orReg {a m} (h : Still s₀ s) : Still s₀ (s.orReg a m) := h.setReg
theorem Still.setPair {a n} (h : Still s₀ s) : Still s₀ (s.setPair a n) := h.setReg.setReg
theorem Still.setPairI {a i} (h : Still s₀ s) : Still s₀ (s.setPairI a i) := h.setReg.setReg
theorem Still.raw {a f} (h : Still s₀ s) : Still s₀ (s.raw a f) := h.setReg
theorem Still.cond {a f b} (h : Still s₀ s) : Still s₀ (s.cond a f b) := h.upd

theorem Still.applyCond {p} (h : Still s₀ s) : Still s₀ (s.applyCond p) := .ite h.setReg h

theorem Still.applyConds (h : Still s₀ s) : Still s₀ s.applyConds := h.fold (fun t _ => (Still.refl t).applyCond) _

theorem Still.signal {v} (h : Still s₀ s) : Still s₀ (s.signal v) := .ite h (.ite h.orReg h.emit)

theorem Still.signalRises {n} (h : Still s₀ s) : Still s₀ (s.signalRises n) :=
  .ite h (h.fold (fun t _ => (Still.refl t).signal) _)

/-- The journal's FIFO with a legal content. -/
theorem Still.setFifo {l} (h : Still s₀ s) (hl : l.length ≤ 4096) : Still s₀ (s.setFifo l) :=
  Still.p (h.trans (show Still s { s with spr := { s.spr with fifo := l } } from
    ⟨⟨id, id, id, fun _ => hl, rfl, List.prefix_refl _, Nat.le_refl _⟩, rfl, rfl, rfl, rfl⟩))

theorem Still.loseRec {a r} (h : Still s₀ s) : Still s₀ (s.loseRec a r) := by
  unfold State.loseRec
  extract_lets x y z w
  have hy : Still s₀ y := .ite h.inc h.inc
  have hw : Still s₀ w := hy.upd
  exact .ite hw.raw.p hw

theorem Still.enterRec {a r} (h : Still s₀ s) : Still s₀ (s.enterRec a r) := by
  unfold State.enterRec
  extract_lets q z y n
  have hy : Still s₀ y := h.upd
  refine .ite hy.inc ?_
  by_cases hn : (if a = true then decide (4096 ≤ n) else decide (3584 ≤ n)) = true
  · rw [if_pos hn]
    exact hy.loseRec
  · rw [if_neg hn]
    refine hy.setFifo ?_
    rw [List.length_append]
    show n + 1 ≤ 4096
    clear_value n
    revert hn
    cases a <;> simp <;> omega

theorem Still.pushRec {k a r} (h : Still s₀ s) : Still s₀ (s.pushRec k a r) := .ite h.upd h

theorem Still.enterFormed (h : Still s₀ s) : Still s₀ s.enterFormed :=
  Still.fold (fun t _ => (Still.refl t).enterRec) (s := { s with spr := { s.spr with formed := [] } }) h.upd _

theorem Still.fire {n d} (h : Still s₀ s) : Still s₀ (s.fire n d) := h.upd

theorem Still.pushFault {f} (h : Still s₀ s) : Still s₀ (s.pushFault f) := by
  unfold State.pushFault
  split
  · next hl =>
    refine (h.trans ?_ : Still s₀ _).p
    refine ⟨⟨id, id, fun _ => ?_, id, rfl, List.prefix_refl _, Nat.le_refl _⟩, rfl, rfl, rfl, rfl⟩
    show (s.hif.fq ++ [f]).length ≤ 32
    simp only [List.length_append, List.length_singleton]
    omega
  · exact h.inc.raw

theorem Still.faultCore {b c d p} (h : Still s₀ s) : Still s₀ (s.faultCore b c d p) :=
  .ite (Still.fire (Still.pushRec h.pushFault)) (Still.pushRec h.pushFault)

theorem Still.lossCheck (h : Still s₀ s) : Still s₀ s.lossCheck := by
  unfold State.lossCheck
  split
  · exact h
  · exact Still.faultCore (.upd h)

theorem Still.flush (h : Still s₀ s) : Still s₀ s.flush := .ite h h.enterFormed.lossCheck.enterFormed

theorem Still.record {a r} (h : Still s₀ s) : Still s₀ (s.record a r) := h.pushRec
theorem Still.note {t a b c d e} (h : Still s₀ s) : Still s₀ (s.note t a b c d e) := h.record
theorem Still.fault {b c d p} (h : Still s₀ s) : Still s₀ (s.fault b c d p) := h.faultCore

theorem Still.takeTrigger (h : Still s₀ s) : Still s₀ s.takeTrigger := by
  unfold State.takeTrigger
  split
  · exact h
  · refine .ite ?_ (.ite ?_ (.ite ?_ ?_))
    · exact Still.raw (Still.p (Still.p (Still.setPair (.upd (Still.flush (Still.note (.upd h)))))))
    · exact Still.raw (Still.inc (Still.flush (Still.note (.upd h))))
    · exact Still.raw (Still.inc (.upd h))
    · exact .upd h

/-- The journal's FIFO with a content no longer than it had. -/
theorem Still.shorterFifo {l} (h : Still s₀ s) (hl : l.length ≤ s.spr.fifo.length) : Still s₀ (s.setFifo l) :=
  Still.p (h.trans (show Still s { s with spr := { s.spr with fifo := l } } from
    ⟨⟨id, id, id, fun k => Nat.le_trans hl k, rfl, List.prefix_refl _, Nat.le_refl _⟩, rfl, rfl, rfl, rfl⟩))

theorem Still.clockRecs (h : Still s₀ s) : Still s₀ s.clockRecs := h.flush.takeTrigger.flush

/-- The end of a clock. -/
theorem Still.endClock (h : Still s₀ t) : Still s₀ (endClock s t) := h.clockRecs.applyConds.signalRises

theorem Keeps.endClock (h : Keeps s₀ t) : Keeps s₀ (endClock s t) := h.andThen (Still.refl t).endClock

theorem Still.pmcAdd {g j n} (h : Still s₀ s) : Still s₀ (s.pmcAdd g j n) :=
  .ite h.setPair (.ite h.setPair.orReg.raw h.setPair.orReg)

theorem Still.pmc {g c n} (h : Still s₀ s) : Still s₀ (s.pmc g c n) :=
  .ite (h.fold (fun t _ => .ite (Still.refl t).pmcAdd (Still.refl t)) _) h

end Sys2Proof.Machine
end

