-- ==== Sys2Proof/Laws/StillTime.lean ====
section
/-! SUPPORT. What each operation of the timescale, holdover, reference and synthesis blocks may do to the state: one lemma per operation, in the
terms of Sys2Proof/Laws/Keeps.lean. -/

set_option Elab.async false

namespace Sys2Proof.Machine

variable {s₀ s t u : State}

/-! ### Timescale -/

theorem Still.setTsc {x} (h : Still s₀ s) (hv : x.voted = s.tsc.voted := by rfl) : Still s₀ (s.setTsc x) := .upd h (hv := hv)
theorem Keeps.setTsc {x} (h : Keeps s₀ s) : Keeps s₀ (s.setTsc x) := .upd h

theorem Still.supplyRate {r} (h : Still s₀ s) : Still s₀ (s.supplyRate r) := by
  unfold State.supplyRate
  exact .ite h h.setTsc

theorem Still.supplyHostRate (h : Still s₀ s) : Still s₀ s.supplyHostRate := by
  unfold State.supplyHostRate
  exact .ite h.setTsc h

theorem Still.tscFault {code detail param} (h : Still s₀ s) : Still s₀ (s.tscFault code detail param) := by
  unfold State.tscFault
  extract_lets x0 x1
  exact .ite h.setTsc.fault h

theorem Still.fenceCopy {i} (h : Still s₀ s) : Still s₀ (s.fenceCopy i) := by
  unfold State.fenceCopy
  extract_lets x0 x1
  have e2 : Still s₀ x0 := h.p
  have e3 : Still s₀ x1 := e2.p
  clear_value x0 x1
  exact e3.raw

theorem Still.tripod {kind copy mask w4} (h : Still s₀ s) : Still s₀ (s.tripod kind copy mask w4) := by
  unfold State.tripod
  exact h.note

theorem Keeps.disagree {i} (h : Keeps s₀ s) : Keeps s₀ (s.disagree i) := by
  unfold State.disagree
  extract_lets x0 x1 x2 x3 x4 x5 x6
  have e7 : Keeps s₀ x4 := h.setTsc
  have e8 : Keeps s₀ x5 := .ite (e7.andThen (Still.refl _).inc) (.ite (e7.andThen (Still.refl _).inc) (e7.andThen (Still.refl _).inc))
  have e9 : Keeps s₀ x6 := ((e8.andThen (Still.refl _).raw).andThen (Still.refl _).tripod)
  clear_value x4 x5 x6
  exact .ite (((e9.andThen (Still.refl _).fenceCopy).andThen (Still.refl _).tscFault).andThen (Still.refl _).tripod) e9

theorem Keeps.noMajority {l e} (h : Keeps s₀ s) : Keeps s₀ (s.noMajority l e) := by
  unfold State.noMajority
  extract_lets x0 x1 x2 x3
  have e4 : Keeps s₀ x2 := h.setTsc
  have e5 : Keeps s₀ x3 := ((e4.andThen (Still.refl _).raw).andThen (Still.refl _).p)
  clear_value x2 x3
  exact ((e5.andThen (Still.refl _).tscFault).andThen (Still.refl _).tripod)

theorem Keeps.mismatch {bad} (h : Keeps s₀ s) : Keeps s₀ (s.mismatch bad) := by
  unfold State.mismatch
  extract_lets x0 x1 x2
  have e3 : Keeps s₀ x1 := h.setTsc
  have e4 : Keeps s₀ x2 := ((e3.andThen (Still.refl _).inc).andThen (Still.refl _).raw)
  clear_value x1 x2
  exact ((e4.andThen (Still.refl _).tscFault).andThen (Still.refl _).tripod)

theorem Keeps.setVoted {v} (h : Keeps s₀ s) : Keeps s₀ (s.setVoted v) := h.setTsc

theorem Keeps.vote {e} (h : Keeps s₀ s) : Keeps s₀ (s.vote e) := by
  unfold State.vote
  extract_lets a b c
  refine .ite ?_ (.ite (.ite h.setVoted ?_) (.ite ?_ (.ite ?_ ?_)))
  · extract_lets
    rename_i l
    clear_value l
    split
    · exact .ite h.setVoted (.ite (h.setVoted.mismatch)
        (.ite (h.setVoted.mismatch) h.noMajority))
    · exact h.setVoted
  · exact h.setVoted.disagree
  · exact h.setVoted.disagree
  · exact h.setVoted.disagree
  · exact h.noMajority

theorem Still.rejoinCopies (h : Still s₀ s) : Still s₀ s.rejoinCopies := by
  unfold State.rejoinCopies
  refine .ite ?_ ?_
  · exact h
  · extract_lets x0 x1 x2
    have e3 : Still s₀ x0 := .fold (fun t _ => (Still.refl t).p) h _
    have e4 : Still s₀ x1 := e3.p
    clear_value x0 x1
    exact e4.setTsc

theorem Keeps.reloadCopies (h : Keeps s₀ s) : Keeps s₀ s.reloadCopies := by
  unfold State.reloadCopies
  extract_lets x0 x1 x2
  have e3 : Keeps s₀ x2 := h.setTsc
  clear_value x2
  exact .fold (fun t _ => ((Keeps.refl t).andThen (Still.refl _).tripod)) e3 _

theorem Keeps.formTick {n adv carried u0 u1 u2} (h : Keeps s₀ s) : Keeps s₀ (s.formTick n adv carried u0 u1 u2) := by
  unfold State.formTick
  extract_lets x0 x1 x2 x3 x4
  have e5 : Keeps s₀ x4 := h.setTsc
  clear_value x4
  exact (e5.andThen (Still.refl _).rejoinCopies).vote.reloadCopies

theorem Keeps.tickWith {u0 u1 u2} (h : Keeps s₀ s) : Keeps s₀ (s.tickWith u0 u1 u2) := by
  unfold State.tickWith
  exact .ite h h.formTick

theorem Still.timeQuality {second} (h : Still s₀ s) : Still s₀ (s.timeQuality second) := by
  unfold State.timeQuality
  extract_lets x0
  exact h.note

theorem Still.secondEvent (h : Still s₀ s) : Still s₀ s.secondEvent := by
  unfold State.secondEvent
  refine .ite ?_ ?_
  · extract_lets x0 x1 x2 x3
    have e4 : Still s₀ x1 := h.setTsc
    have e5 : Still s₀ x3 := e4.upd
    clear_value x1 x3
    exact e5.raw.timeQuality
  · exact h

theorem Still.refuseStep (h : Still s₀ s) : Still s₀ s.refuseStep := by
  unfold State.refuseStep
  exact h.inc.raw

theorem Still.setHost {a1} (h : Still s₀ s) : Still s₀ (s.setHost a1) := by
  unfold State.setHost
  exact h.setTsc.p

theorem Still.phaseRec {src cancel before after amount far} (h : Still s₀ s) : Still s₀ (s.phaseRec src cancel before after amount far) := by
  unfold State.phaseRec
  extract_lets x0 x1
  exact h.record

theorem Still.segUp (h : Still s₀ s) : Still s₀ s.segUp := by
  unfold State.segUp
  exact .ite h.upd h

theorem Still.cancelStep (h : Still s₀ s) : Still s₀ s.cancelStep := by
  unfold State.cancelStep
  split
  · exact h
  · extract_lets x0
    have e1 : Still s₀ x0 := h.setHost.raw
    clear_value x0
    exact e1.phaseRec

theorem Still.storeSet {a1} (h : Still s₀ s) : Still s₀ (s.storeSet a1) := by
  unfold State.storeSet
  exact h.setReg.setReg.setReg

theorem Still.requestStep (h : Still s₀ s) : Still s₀ s.requestStep := by
  unfold State.requestStep
  refine .ite ?_ ?_
  · exact h.refuseStep
  · split
    · exact h.setHost
    · exact h.setHost
    · exact .ite h.storeSet.setHost h.refuseStep

theorem Still.stepCtrlAct {v} (h : Still s₀ s) : Still s₀ (s.stepCtrlAct v) := by
  unfold State.stepCtrlAct
  extract_lets x0
  have e1 : Still s₀ x0 := .ite h.cancelStep h
  clear_value x0
  exact .ite e1.requestStep e1

theorem Still.internalStep {code st} (h : Still s₀ s) : Still s₀ (s.internalStep code st) := by
  unfold State.internalStep
  exact h.setTsc

theorem Keeps.applyRel {code amount} (h : Keeps s₀ s) : Keeps s₀ (s.applyRel code amount) := by
  unfold State.applyRel
  extract_lets x0 x1 x2 x3 x4 x5 x6
  have e7 : Keeps s₀ x2 := h.setTsc
  have e8 : Keeps s₀ x4 := e7.upd
  have e9 : Keeps s₀ x5 := (e8.andThen (Still.refl _).segUp)
  have e10 : Keeps s₀ x6 := ((e9.andThen (Still.refl _).setPairI).andThen (Still.refl _).p)
  clear_value x2 x4 x5 x6
  exact ((e10.andThen (Still.refl _).raw).andThen (Still.refl _).phaseRec)

theorem Keeps.applySet {code v} (h : Keeps s₀ s) : Keeps s₀ (s.applySet code v) := by
  unfold State.applySet
  extract_lets x0 x1 x2 x3 x4 x5 x6 x7 x8
  have e9 : Keeps s₀ x2 := h.setTsc
  have e10 : Keeps s₀ x4 := e9.upd
  have e11 : Keeps s₀ x5 := (e10.andThen (Still.refl _).segUp)
  have e12 : Keeps s₀ x7 := ((e11.andThen (Still.refl _).setPairI).andThen (Still.refl _).p)
  have e13 : Keeps s₀ x8 := .ite (e12.andThen (Still.refl _).raw) e12
  clear_value x2 x4 x5 x7 x8
  exact ((e13.andThen (Still.refl _).raw).andThen (Still.refl _).phaseRec)

theorem Still.accOffset {amount} (h : Still s₀ s) : Still s₀ (s.accOffset amount) := by
  unfold State.accOffset
  exact .ite h h.setPairI

theorem Keeps.applyHost {a1} (h : Keeps s₀ s) : Keeps s₀ (s.applyHost a1) := by
  unfold State.applyHost
  split
  · exact ((h.andThen (Still.refl _).setHost).applyRel.andThen (Still.refl _).accOffset)
  · exact ((h.andThen (Still.refl _).setHost).applyRel.andThen (Still.refl _).accOffset)
  · exact (h.andThen (Still.refl _).setHost).applySet

theorem Keeps.applySteps (h : Keeps s₀ s) : Keeps s₀ s.applySteps := by
  unfold State.applySteps
  extract_lets x0 x1 x2 x3 x4 x5 x6
  have e7 : Keeps s₀ x4 := h.setTsc
  have e8 : Keeps s₀ x5 := .fold (fun t _ => (Keeps.refl t).applyRel) e7 _
  have e9 : Keeps s₀ x6 := .ite ((e8.andThen (Still.refl _).setHost).andThen (Still.refl _).refuseStep) e8
  clear_value x4 x5 x6
  refine .ite ?_ ?_
  · split
    · exact .ite e8.applyHost e8
    · exact e8
  · exact .fold (fun t _ => (Keeps.refl t).applySet) e9 _

theorem Still.clearSuspect (h : Still s₀ s) : Still s₀ s.clearSuspect := by
  unfold State.clearSuspect
  exact h.p

theorem Still.restoreCopies {m} (h : Still s₀ s) : Still s₀ (s.restoreCopies m) := by
  unfold State.restoreCopies
  extract_lets x0 x1
  exact h.setTsc

theorem Still.fenceCopies {m} (h : Still s₀ s) : Still s₀ (s.fenceCopies m) := by
  unfold State.fenceCopies
  exact .fold (fun t _ => .ite (Still.refl t) (Still.refl t).fenceCopy.tripod) h _

theorem Still.tripodCtrlAct {v} (h : Still s₀ s) : Still s₀ (s.tripodCtrlAct v) := by
  unfold State.tripodCtrlAct
  extract_lets x0 x1
  have e2 : Still s₀ x0 := .ite h.clearSuspect h
  have e3 : Still s₀ x1 := e2.restoreCopies
  clear_value x0 x1
  exact e3.fenceCopies

theorem Still.injectAct {v} (h : Still s₀ s) : Still s₀ (s.injectAct v) := by
  unfold State.injectAct
  exact .ite h.setTsc h

/-! ### Holdover -/

theorem Still.setHld {a1} (h : Still s₀ s) : Still s₀ (s.setHld a1) := by
  unfold State.setHld
  exact h.upd

theorem Still.steerTick (h : Still s₀ s) : Still s₀ s.steerTick := by
  unfold State.steerTick
  exact .ite h h.setHld

theorem Still.fixAnchor (h : Still s₀ s) : Still s₀ s.fixAnchor := by
  unfold State.fixAnchor
  extract_lets x0 x1 x2 x3
  exact .ite (.ite h.setHld h.setHld) (.ite h.setHld h.setHld)

theorem Still.breakFit (h : Still s₀ s) : Still s₀ s.breakFit := by
  unfold State.breakFit
  exact h.setHld

theorem Still.holdRec {kind} (h : Still s₀ s) : Still s₀ (s.holdRec kind) := by
  unfold State.holdRec
  extract_lets x0
  exact h.note

theorem Still.beginEpisode (h : Still s₀ s) : Still s₀ s.beginEpisode := by
  unfold State.beginEpisode
  refine .ite ?_ ?_
  · exact h
  · extract_lets x0 x1 x2 x3
    have e4 : Still s₀ x2 := h.setHld
    have e5 : Still s₀ x3 := e4.setRegN.pb
    clear_value x2 x3
    exact e5.raw.holdRec

theorem Still.endEpisode (h : Still s₀ s) : Still s₀ s.endEpisode := by
  unfold State.endEpisode
  refine .ite ?_ ?_
  · extract_lets x0 x1
    have e2 : Still s₀ x1 := h.setHld
    clear_value x1
    exact e2.raw.holdRec.p
  · exact h

theorem Still.storeErr {offset} (h : Still s₀ s) : Still s₀ (s.storeErr offset) := by
  unfold State.storeErr
  exact h.setPairI.p

theorem Still.showTempOut (h : Still s₀ s) : Still s₀ s.showTempOut := by
  unfold State.showTempOut
  exact h.pb

theorem Still.refreshModelQual (h : Still s₀ s) : Still s₀ s.refreshModelQual := by
  unfold State.refreshModelQual
  extract_lets x0 x1
  exact h.pb

theorem Still.setRing {l} (h : Still s₀ s) : Still s₀ (s.setRing l) := by
  unfold State.setRing
  exact h.setHld.p

theorem Still.setBin {b c count} (h : Still s₀ s) : Still s₀ (s.setBin b c count) := by
  unfold State.setBin
  extract_lets x0 x1
  have e2 : Still s₀ x1 := h.setHld
  clear_value x1
  exact e2.p.p

theorem Still.learnTable {a1} (h : Still s₀ s) : Still s₀ (s.learnTable a1) := by
  unfold State.learnTable
  extract_lets x0 x1 x2 x3 x4
  exact .ite h (.ite h.setBin h.setBin.drawn)

theorem Still.refit (h : Still s₀ s) : Still s₀ s.refit := by
  unfold State.refit
  extract_lets x0 x1 x2 x3 x4 x5 x6 x7 x8 x9 x10 x11 x12 x13 x14 x15 x16
  have e17 : Still s₀ x9 := .ite h.setPairI.drawn h
  have e18 : Still s₀ x10 := .ite e17.setRegI.p.drawn e17
  have e19 : Still s₀ x11 := .ite e18.setRegI.p.drawn e18
  have e20 : Still s₀ x12 := by
    unfold x12
    clear_value x1
    split
    · rename_i y21 y22 y23
      exact .ite e19.learnTable e19
    · rename_i y24
      exact e19
  have e25 : Still s₀ x16 := e20.setRegN.drawn
  clear_value x9 x10 x11 x12 x16
  exact e25.raw.refreshModelQual.showTempOut

theorem Still.nextFit (h : Still s₀ s) : Still s₀ s.nextFit := by
  unfold State.nextFit
  exact h.setHld

theorem Still.fitSample {y theta} (h : Still s₀ s) : Still s₀ (s.fitSample y theta) := by
  unfold State.fitSample
  extract_lets x0 x1 x2 x3 x4 x5 x6
  have e7 : Still s₀ x1 := .ite h h.setHld.setRegN
  have e8 : Still s₀ x4 := e7.setRing
  have e9 : Still s₀ x6 := e8.setHld
  clear_value x1 x4 x6
  exact e9.p.refit

theorem Still.fitEnd (h : Still s₀ s) : Still s₀ s.fitEnd := by
  unfold State.fitEnd
  extract_lets x0 x1
  exact .ite h.nextFit.fitSample h.nextFit

theorem Still.hldSeconds {k} (h : Still s₀ s) : Still s₀ (s.hldSeconds k) := by
  unfold State.hldSeconds
  extract_lets x0
  have e1 : Still s₀ x0 := .ite h.setRegN h
  clear_value x0
  exact .ite e1.setRegN e1

theorem Still.endSecond (h : Still s₀ s) : Still s₀ s.endSecond := by
  unfold State.endSecond
  extract_lets x0 x1 x2
  exact h.setHld

theorem Still.modelEval (h : Still s₀ s) : Still s₀ s.modelEval := by
  unfold State.modelEval
  refine .ite ?_ ?_
  · extract_lets x0 x1
    have e2 : Still s₀ x0 := h.hldSeconds.endSecond.showTempOut
    have e3 : Still s₀ x1 := e2.setPairI
    clear_value x0 x1
    exact .ite e3.supplyRate e3
  · exact h

theorem Still.loadModel (h : Still s₀ s) : Still s₀ s.loadModel := by
  unfold State.loadModel
  extract_lets x0 x1 x2 x3 x4 x5 x6 x7 x8 x9 x10
  have e11 : Still s₀ x0 := h.setPair
  have e12 : Still s₀ x1 := e11.setReg.setReg
  have e13 : Still s₀ x2 := e12.setReg
  have e14 : Still s₀ x5 := .fold (fun t _ => (Still.refl t).setBin) e13 _
  have e15 : Still s₀ x6 := e14.setPairI
  have e16 : Still s₀ x8 := e15.setHld.setRing
  have e17 : Still s₀ x9 := e16.p
  have e18 : Still s₀ x10 := e17.p
  clear_value x0 x1 x2 x5 x6 x8 x9 x10
  exact e18.p.refreshModelQual.showTempOut

theorem Still.clearTable (h : Still s₀ s) : Still s₀ s.clearTable := by
  unfold State.clearTable
  extract_lets x0 x1
  have e2 : Still s₀ x0 := .fold (fun t _ => (Still.refl t).setBin) h _
  clear_value x0
  exact e2.setHld.setRing.refreshModelQual.showTempOut

theorem Still.clearModel (h : Still s₀ s) : Still s₀ s.clearModel := by
  unfold State.clearModel
  extract_lets x0 x1 x2 x3 x4 x5 x6 x7
  have e8 : Still s₀ x0 := h.clearTable
  have e9 : Still s₀ x2 := e8.setHld
  have e10 : Still s₀ x3 := e9.setPair.setRegN.setRegN
  have e11 : Still s₀ x4 := e10.setRegN
  have e12 : Still s₀ x5 := e11.p
  have e13 : Still s₀ x6 := e12.p
  have e14 : Still s₀ x7 := e13.p
  clear_value x0 x2 x3 x4 x5 x6 x7
  exact e14.p

theorem Still.hldCtrlAct {old v} (h : Still s₀ s) : Still s₀ (s.hldCtrlAct old v) := by
  unfold State.hldCtrlAct
  extract_lets x0 x1
  have e2 : Still s₀ x0 := .ite h h.clearTable
  have e3 : Still s₀ x1 := .ite e2.clearModel e2
  clear_value x0 x1
  exact .ite e3.loadModel e3

theorem Still.tempAxisAct {old} (h : Still s₀ s) : Still s₀ (s.tempAxisAct old) := by
  unfold State.tempAxisAct
  exact .ite h h.clearTable

theorem Still.loseQual {reason} (h : Still s₀ s) : Still s₀ (s.loseQual reason) := by
  unfold State.loseQual
  extract_lets x0
  have e1 : Still s₀ x0 := h.p.raw
  clear_value x0
  exact e1.fault.holdRec

theorem Still.setEmberTime {sec cyc} (h : Still s₀ s) : Still s₀ (s.setEmberTime sec cyc) := by
  unfold State.setEmberTime
  exact h.setPair

theorem Still.emberFlag {f b} (h : Still s₀ s) : Still s₀ (s.emberFlag f b) := by
  unfold State.emberFlag
  exact h.pb

theorem Still.trimUpdate {count} (h : Still s₀ s) : Still s₀ (s.trimUpdate count) := by
  unfold State.trimUpdate
  refine .ite ?_ ?_
  · extract_lets x0
    exact h.p
  · exact h

theorem Still.resync (h : Still s₀ s) : Still s₀ s.resync := by
  unfold State.resync
  refine .ite ?_ ?_
  · extract_lets x0 x1 x2 x3 x4
    have e5 : Still s₀ x2 := .ite h.setEmberTime h.setEmberTime
    have e6 : Still s₀ x4 := e5.setHld
    clear_value x2 x4
    exact e6.emberFlag.emberFlag.emberFlag
  · exact h

theorem Still.embCtrlAct {v} (h : Still s₀ s) : Still s₀ (s.embCtrlAct v) := by
  unfold State.embCtrlAct
  extract_lets x0 x1
  have e2 : Still s₀ x0 := .ite h.emberFlag h
  clear_value x0
  exact .ite e2.setHld e2

theorem Still.emberLost (h : Still s₀ s) : Still s₀ s.emberLost := by
  unfold State.emberLost
  exact h.emberFlag.emberFlag

theorem Still.emberCold (h : Still s₀ s) : Still s₀ s.emberCold := by
  unfold State.emberCold
  extract_lets x0
  have e1 : Still s₀ x0 := h.setPair.setPair
  clear_value x0
  exact e1.setRegN.emberLost

theorem Still.storeFailTime (h : Still s₀ s) : Still s₀ s.storeFailTime := by
  unfold State.storeFailTime
  exact h.setPair

theorem Still.xtalStop (h : Still s₀ s) : Still s₀ s.xtalStop := by
  unfold State.xtalStop
  extract_lets x0
  have e1 : Still s₀ x0 := h.emberFlag
  clear_value x0
  exact .ite e1 e1.fault

theorem Keeps.seedSet {v} (h : Keeps s₀ s) : Keeps s₀ (s.seedSet v) := by
  unfold State.seedSet
  exact h.setTsc.applySteps

theorem Keeps.seed (h : Keeps s₀ s) : Keeps s₀ s.seed := by
  unfold State.seed
  refine .ite ?_ ?_
  · extract_lets x0 x1 x2 x3
    have e4 : Keeps s₀ x2 := (h.seedSet.andThen (Still.refl _).raw)
    clear_value x2
    exact (e4.andThen (Still.refl _).note)
  · exact .ite ((h.andThen (Still.refl _).raw).andThen (Still.refl _).fault) h

/-! ### Reference -/

theorem Still.setRef {r} (h : Still s₀ s) : Still s₀ (s.setRef r) := by
  unfold State.setRef
  exact h.upd

theorem Still.setCand {k c} (h : Still s₀ s) : Still s₀ (s.setCand k c) := by
  unfold State.setCand
  exact h.setRef

theorem Still.setRefIn {n a2} (h : Still s₀ s) : Still s₀ (s.setRefIn n a2) := by
  unfold State.setRefIn
  exact h.setRef

theorem Still.showCand {k} (h : Still s₀ s) : Still s₀ (s.showCand k) := by
  unfold State.showCand
  extract_lets x0
  exact h.setRegN

theorem Still.selRec {before event cand w5} (h : Still s₀ s) : Still s₀ (s.selRec before event cand w5) := by
  unfold State.selRec
  extract_lets x0
  exact h.note

theorem Still.wtrReset {k} (h : Still s₀ s) : Still s₀ (s.wtrReset k) := by
  unfold State.wtrReset
  exact h.setRef

theorem Still.judge {k} (h : Still s₀ s) : Still s₀ (s.judge k) := by
  unfold State.judge
  extract_lets x0 x1 x2 x3
  have e4 : Still s₀ x2 := h.setCand
  have e5 : Still s₀ x3 := .ite e4.wtrReset.raw.selRec e4
  clear_value x2 x3
  exact e5.showCand

theorem Still.judgeAll (h : Still s₀ s) : Still s₀ s.judgeAll := by
  unfold State.judgeAll
  exact .fold (fun t _ => (Still.refl t).judge) h _

theorem Still.afterModel {u} (h : Still s₀ s) : Still s₀ (s.afterModel u) := .ite h h.judgeAll

theorem Still.holdoffExpiry {k} (h : Still s₀ s) : Still s₀ (s.holdoffExpiry k) := by
  unfold State.holdoffExpiry
  extract_lets x0 x1
  have e2 : Still s₀ x1 := h.setCand.raw
  clear_value x1
  exact .ite e2.selRec.showCand h

theorem Still.formReady (h : Still s₀ s) : Still s₀ s.formReady := by
  unfold State.formReady
  extract_lets x0 x1 x2 x3 x4 x5
  have e6 : Still s₀ x4 := h.pb.pb
  have e7 : Still s₀ x5 := .ite e6.raw e6
  clear_value x4 x5
  exact .ite e7 e7.judgeAll

theorem Still.oscMismatch {khz} (h : Still s₀ s) : Still s₀ (s.oscMismatch khz) := by
  unfold State.oscMismatch
  extract_lets x0 x1 x2
  have e3 : Still s₀ x0 := h.p
  have e4 : Still s₀ x2 := e3.setRef.cond
  clear_value x0 x2
  exact .ite e3 e4.fault.formReady

theorem Still.oscOk (h : Still s₀ s) : Still s₀ s.oscOk := by
  unfold State.oscOk
  extract_lets x0 x1
  have e2 : Still s₀ x0 := h.p
  clear_value x0
  exact e2.setRef.cond.formReady

theorem Still.refreshJudging (h : Still s₀ s) : Still s₀ s.refreshJudging := by
  unfold State.refreshJudging
  extract_lets x0 x1
  exact .ite h h.setRef

theorem Still.judgeWarm {byTimeout} (h : Still s₀ s) : Still s₀ (s.judgeWarm byTimeout) := by
  unfold State.judgeWarm
  refine .ite ?_ ?_
  · exact h
  · extract_lets x0
    have e1 : Still s₀ x0 := h.p
    clear_value x0
    exact Still.formReady (.ite e1.p e1)

theorem Still.warmGate {y} (h : Still s₀ s) : Still s₀ (s.warmGate y) := by
  unfold State.warmGate
  extract_lets x0 x1 x2 x3
  have e4 : Still s₀ x0 := h.refreshJudging
  have e5 : Still s₀ x3 := e4.setRef
  clear_value x0 x3
  split
  · exact e4.setRef
  · exact .ite e5.judgeWarm e5

theorem Still.warmTimeout (h : Still s₀ s) : Still s₀ s.warmTimeout := by
  unfold State.warmTimeout
  extract_lets x0 x1 x2
  have e3 : Still s₀ x1 := h.refreshJudging
  clear_value x1
  exact .ite e3.setRef.judgeWarm e3

theorem Still.oscWarm {b} (h : Still s₀ s) : Still s₀ (s.oscWarm b) := by
  unfold State.oscWarm
  exact h.pb.formReady

theorem Still.offsetSeen {k off} (h : Still s₀ s) : Still s₀ (s.offsetSeen k off) := by
  unfold State.offsetSeen
  exact .ite h.setRef h

theorem Still.refLost {n now} (h : Still s₀ s) : Still s₀ (s.refLost n now) := by
  unfold State.refLost
  extract_lets x0
  exact h.setRefIn.raw

theorem Still.refKept {n now ahead} (h : Still s₀ s) : Still s₀ (s.refKept n now ahead) := by
  unfold State.refKept
  extract_lets x0 x1 x2
  have e3 : Still s₀ x2 := h.setRefIn
  clear_value x2
  split
  · exact e3.offsetSeen
  · exact e3

theorem Still.refEdge {n ahead} (h : Still s₀ s) : Still s₀ (s.refEdge n ahead) := by
  unfold State.refEdge
  extract_lets x0 x1 x2 x3 x4 x5
  have e6 : Still s₀ x2 := h.setRefIn
  have e7 : Still s₀ x5 := .ite e6 (.ite e6.refLost e6.refKept)
  clear_value x2 x5
  exact e7.judge

theorem Still.refStuck {n} (h : Still s₀ s) : Still s₀ (s.refStuck n) := by
  unfold State.refStuck
  extract_lets x0 x1 x2 x3 x4
  have e5 : Still s₀ x2 := h.setRefIn.raw
  have e6 : Still s₀ x4 := e5.setCand
  clear_value x2 x4
  exact .ite h e6.judge.refreshJudging

theorem Still.refOverrun {n} (h : Still s₀ s) : Still s₀ (s.refOverrun n) := by
  unfold State.refOverrun
  extract_lets x0 x1 x2
  have e3 : Still s₀ x2 := h.setRefIn.raw
  clear_value x2
  exact .ite e3.fault.judge h.setRefIn

theorem Still.refRearm {m} (h : Still s₀ s) : Still s₀ (s.refRearm m) := by
  unfold State.refRearm
  exact .fold (fun t _ => (Still.refl t).setRefIn.judge) h _

theorem Still.clearEdges {n} (h : Still s₀ s) : Still s₀ (s.clearEdges n) := by
  unfold State.clearEdges
  exact h.setRefIn

theorem Still.activity {k pass} (h : Still s₀ s) : Still s₀ (s.activity k pass) := by
  unfold State.activity
  extract_lets x0 x1 x2
  exact h.setCand.judge.refreshJudging

theorem Still.freqGate {k y} (h : Still s₀ s) : Still s₀ (s.freqGate k y) := by
  unfold State.freqGate
  extract_lets x0 x1 x2 x3 x4 x5 x6 x7 x8 x9
  have e10 : Still s₀ x1 := h.setRegI
  clear_value x1
  exact e10.setCand.judge

theorem Still.setBarred {k b} (h : Still s₀ s) : Still s₀ (s.setBarred k b) := by
  unfold State.setBarred
  exact h.setCand.judge

theorem Still.setPortQl {n q} (h : Still s₀ s) : Still s₀ (s.setPortQl n q) := by
  unfold State.setPortQl
  extract_lets x0
  have e1 : Still s₀ x0 := h.p
  clear_value x0
  exact e1.judge

theorem Still.sendEsmc {n event} (h : Still s₀ s) : Still s₀ (s.sendEsmc n event) := by
  unfold State.sendEsmc
  refine .ite ?_ ?_
  · extract_lets x0 x1 x2 x3
    have e4 : Still s₀ x3 := .ite h.setRef h
    clear_value x3
    exact e4.emit
  · exact h

theorem Still.condChanged {before} (h : Still s₀ s) : Still s₀ (s.condChanged before) := by
  unfold State.condChanged
  extract_lets x0
  have e1 : Still s₀ x0 := h.raw
  clear_value x0
  exact e1.selRec.timeQuality

theorem Still.formCond {before} (h : Still s₀ s) : Still s₀ (s.formCond before) := by
  unfold State.formCond
  extract_lets x0
  exact .ite h h.p.condChanged

theorem Still.formForced (h : Still s₀ s) : Still s₀ s.formForced := by
  unfold State.formForced
  exact h.pb

theorem Still.clearLock (h : Still s₀ s) : Still s₀ s.clearLock := by
  unfold State.clearLock
  exact h.setRef

theorem Still.enterSel {st ev} (h : Still s₀ s) : Still s₀ (s.enterSel st ev) := by
  unfold State.enterSel
  extract_lets x0 x1 x2 x3 x4 x5
  have e6 : Still s₀ x1 := h.p.breakFit.clearLock.formForced
  have e7 : Still s₀ x4 := e6.p
  have e8 : Still s₀ x5 := .ite e7 e7.selRec
  clear_value x1 x4 x5
  exact .ite e8.condChanged e8

theorem Still.setTarget {e} (h : Still s₀ s) : Still s₀ (s.setTarget e) := by
  unfold State.setTarget
  extract_lets x0 x1 x2 x3
  have e4 : Still s₀ x1 := h.p.p
  have e5 : Still s₀ x2 := e4.p.formForced
  clear_value x1 x2
  exact e5.setRef.clearLock

theorem Still.setModelRate {b} (h : Still s₀ s) : Still s₀ (s.setModelRate b) := by
  unfold State.setModelRate
  exact h.setRef

theorem Still.toModel (h : Still s₀ s) : Still s₀ s.toModel := by
  unfold State.toModel
  extract_lets x0
  have e1 : Still s₀ x0 := h.fixAnchor.setModelRate
  clear_value x0
  exact e1.supplyRate

theorem Still.toLocked (h : Still s₀ s) : Still s₀ s.toLocked := by
  unfold State.toLocked
  extract_lets x0 x1 x2
  have e3 : Still s₀ x2 := h.setRef
  clear_value x2
  exact e3.raw.enterSel.endEpisode

theorem Still.toAcquire {e fromHold} (h : Still s₀ s) : Still s₀ (s.toAcquire e fromHold) := by
  unfold State.toAcquire
  extract_lets x0 x1 x2 x3 x4 x5
  have e6 : Still s₀ x1 := h.setTarget.setRef
  have e7 : Still s₀ x4 := .ite e6.setRef e6
  have e8 : Still s₀ x5 := .ite e7.p e7
  clear_value x1 x4 x5
  exact e8.enterSel

theorem Still.toSwitch {e model} (h : Still s₀ s) : Still s₀ (s.toSwitch e model) := by
  unfold State.toSwitch
  extract_lets x0 x1
  have e2 : Still s₀ x0 := .ite h.toModel h.fixAnchor
  have e3 : Still s₀ x1 := e2.setTarget.p
  clear_value x0 x1
  exact e3.raw.enterSel

theorem Still.keepModel (h : Still s₀ s) : Still s₀ s.keepModel := by
  unfold State.keepModel
  extract_lets x0
  have e1 : Still s₀ x0 := h.setModelRate
  clear_value x0
  exact e1.supplyRate

theorem Still.toHoldover {fault} (h : Still s₀ s) : Still s₀ (s.toHoldover fault) := by
  unfold State.toHoldover
  extract_lets x0 x1 x2 x3
  have e4 : Still s₀ x0 := .ite h.keepModel h.toModel
  have e5 : Still s₀ x1 := e4.p
  have e6 : Still s₀ x2 := e5.raw.beginEpisode
  have e7 : Still s₀ x3 := e6.enterSel
  clear_value x0 x1 x2 x3
  exact .ite e7.fault e7

theorem Still.loopRate {k r} (h : Still s₀ s) : Still s₀ (s.loopRate k r) := by
  unfold State.loopRate
  exact .ite h h.supplyRate

theorem Still.guardCheck {err} (h : Still s₀ s) : Still s₀ (s.guardCheck err) := by
  unfold State.guardCheck
  exact .ite h.p.breakFit h

theorem Still.lockCount {err} (h : Still s₀ s) : Still s₀ (s.lockCount err) := by
  unfold State.lockCount
  extract_lets x0 x1 x2 x3
  exact h.setRef

theorem Still.dropSelected (h : Still s₀ s) : Still s₀ s.dropSelected := by
  unfold State.dropSelected
  extract_lets x0 x1 x2
  have e3 : Still s₀ x2 := h.setCand.wtrReset.raw
  clear_value x2
  exact .ite e3.selRec.showCand h

theorem Still.decideAcquire {rate} (h : Still s₀ s) : Still s₀ (s.decideAcquire rate) := by
  unfold State.decideAcquire
  refine .ite ?_ ?_
  · split
    · exact h.toAcquire
    · exact .ite h.toHoldover h.enterSel
  · exact .ite h.toLocked (.ite h.loopRate h)

theorem Still.decideLocked {rate} (h : Still s₀ s) : Still s₀ (s.decideLocked rate) := by
  unfold State.decideLocked
  refine .ite ?_ ?_
  · extract_lets x0 x1
    have e2 : Still s₀ x1 := .ite h.dropSelected h
    clear_value x1
    split
    · exact e2.toSwitch
    · exact e2.toHoldover
  · split
    · exact h.toSwitch
    · exact h.loopRate

theorem Still.decideSwitch {rate} (h : Still s₀ s) : Still s₀ (s.decideSwitch rate) := by
  unfold State.decideSwitch
  refine .ite ?_ ?_
  · extract_lets x0
    split
    · exact h.setTarget.keepModel
    · exact h.toHoldover
  · exact .ite h.toLocked (.ite h h.loopRate)

theorem Still.selDecide {err rate} (h : Still s₀ s) : Still s₀ (s.selDecide err rate) := by
  unfold State.selDecide
  extract_lets x0 x1
  have e2 : Still s₀ x0 := h.guardCheck.lockCount
  clear_value x0
  refine .ite ?_ ?_
  · refine .ite ?_ ?_
    · split
      · exact e2.toAcquire
      · exact e2
    · refine .ite ?_ ?_
      · exact e2.decideAcquire
      · refine .ite ?_ ?_
        · exact e2.decideLocked
        · refine .ite ?_ ?_
          · exact e2.decideSwitch
          · split
            · exact e2.toAcquire
            · exact e2
  · exact .ite e2 e2.toHoldover

theorem Still.wtrExpiry {e} (h : Still s₀ s) : Still s₀ (s.wtrExpiry e) := by
  unfold State.wtrExpiry
  exact .ite h.setRef h

theorem Still.guardedStep {off} (h : Still s₀ s) : Still s₀ (s.guardedStep off) := by
  unfold State.guardedStep
  extract_lets x0 x1 x2 x3 x4
  have e5 : Still s₀ x2 := h.internalStep.raw
  have e6 : Still s₀ x4 := e5.p.setRef
  clear_value x2 x4
  exact .ite h.internalStep e6.breakFit.selRec

theorem Still.stepTarget {off} (h : Still s₀ s) : Still s₀ (s.stepTarget off) := by
  unfold State.stepTarget
  extract_lets x0 x1
  exact .ite h (.ite (.ite h (.ite h.internalStep h.internalStep)) h.guardedStep)

theorem Still.targetMeasured (h : Still s₀ s) : Still s₀ s.targetMeasured := by
  unfold State.targetMeasured
  split
  · refine .ite ?_ ?_
    · extract_lets x0 x1 x2 x3 x4 x5
      have e6 : Still s₀ x2 := .ite h.storeErr h
      have e7 : Still s₀ x3 := e6.stepTarget
      have e8 : Still s₀ x5 := e7.setRef.clearLock
      clear_value x2 x3 x5
      exact .ite e8.toLocked e8
    · exact h
  · exact h

theorem Still.refStep {d} (h : Still s₀ s) : Still s₀ (s.refStep d) := by
  unfold State.refStep
  exact .ite h h.setRef

theorem Still.prioAct {e old} (h : Still s₀ s) : Still s₀ (s.prioAct e old) := by
  unfold State.prioAct
  extract_lets x0 x1 x2 x3 x4 x5 x6
  have e7 : Still s₀ x4 := .ite h.setRef h
  have e8 : Still s₀ x6 := .ite e7.setRef e7
  clear_value x4 x6
  exact e8.judgeAll.refreshJudging

theorem Still.steerAct {old} (h : Still s₀ s) : Still s₀ (s.steerAct old) := by
  unfold State.steerAct
  extract_lets x0 x1 x2 x3
  have e4 : Still s₀ x2 := h.breakFit
  clear_value x2
  exact .ite h (.ite e4.supplyHostRate (.ite e4.setRef e4))

/-! ### Synthesis -/

theorem Still.setSyn {y} (h : Still s₀ s) : Still s₀ (s.setSyn y) := by
  unfold State.setSyn
  exact h.upd

theorem Still.setOutRun {n a2} (h : Still s₀ s) : Still s₀ (s.setOutRun n a2) := by
  unfold State.setOutRun
  exact h.setSyn

theorem Still.setForce {a v} (h : Still s₀ s) : Still s₀ (s.setForce a v) := by
  unfold State.setForce
  exact h.setSyn

theorem Still.emitEdges {n l} (h : Still s₀ s) : Still s₀ (s.emitEdges n l) :=
  h.trans ⟨⟨id, id, id, id, rfl, List.prefix_append _ _, Nat.le_refl _⟩, rfl, rfl, rfl, rfl⟩

theorem Still.runOutput {n} (h : Still s₀ s) : Still s₀ (s.runOutput n) := by
  unfold State.runOutput
  extract_lets x0 x1 x2
  exact .ite h.setOutRun.emitEdges (.ite h h.setOutRun.emitEdges)

theorem Still.pulseSecond {a1} (h : Still s₀ s) : Still s₀ (s.pulseSecond a1) := by
  unfold State.pulseSecond
  refine .fold (fun t x => ?_) ?_ _
  · have e0 := Still.refl t
    refine .ite ?_ ?_
    · extract_lets x1 x2
      exact e0.setOutRun
    · exact e0
  · exact h

theorem Still.outputsTick {n inc gap} (h : Still s₀ s) : Still s₀ (s.outputsTick n inc gap) := by
  unfold State.outputsTick
  extract_lets x0 x1 x2 x3 x4 x5 x6 x7
  have e8 : Still s₀ x1 := h.setSyn
  have e9 : Still s₀ x5 := .ite e8.pulseSecond e8
  have e10 : Still s₀ x7 := .ite e9.setSyn e9
  clear_value x1 x5 x7
  exact .fold (fun t _ => (Still.refl t).runOutput) e10 _

theorem Still.realignStep {delta n} (h : Still s₀ s) : Still s₀ (s.realignStep delta n) := by
  unfold State.realignStep
  extract_lets x0 x1
  exact .ite h.setOutRun h

theorem Still.outputsStep {delta} (h : Still s₀ s) : Still s₀ (s.outputsStep delta) := by
  unfold State.outputsStep
  exact .fold (fun t _ => (Still.refl t).realignStep) h _

theorem Still.markChange {n} (h : Still s₀ s) : Still s₀ (s.markChange n) := by
  unfold State.markChange
  exact h.setOutRun

theorem Still.updateGo (h : Still s₀ s) : Still s₀ s.updateGo := by
  unfold State.updateGo
  refine .ite ?_ ?_
  · exact h
  · extract_lets x0 x1
    have e2 : Still s₀ x0 := .fold (fun t _ => (Still.refl t).markChange) h.p _
    clear_value x0
    exact e2.setSyn

theorem Still.stagingAct {n} (h : Still s₀ s) : Still s₀ (s.stagingAct n) := by
  unfold State.stagingAct
  exact .ite h.markChange h

theorem Still.clampWidth {n} (h : Still s₀ s) : Still s₀ (s.clampWidth n) := by
  unfold State.clampWidth
  refine .ite ?_ ?_
  · exact h
  · extract_lets x0 x1 x2
    exact h.p

theorem Still.applyOutput {a n} (h : Still s₀ s) : Still s₀ (s.applyOutput a n) := by
  unfold State.applyOutput
  extract_lets x0 x1 x2 x3 x4
  have e5 : Still s₀ x0 := h.clampWidth
  have e6 : Still s₀ x4 := .fold (fun t _ => (Still.refl t).setForce) e5 _
  clear_value x0 x4
  exact e6.setOutRun.emitEdges

theorem Still.updateApply (h : Still s₀ s) : Still s₀ s.updateApply := by
  unfold State.updateApply
  refine .ite ?_ ?_
  · extract_lets x0 x1
    have e2 : Still s₀ x1 := .fold (fun t _ => (Still.refl t).applyOutput) h _
    clear_value x1
    exact e2.p.raw
  · exact h

theorem Still.claimSwitch (h : Still s₀ s) : Still s₀ s.claimSwitch := by
  unfold State.claimSwitch
  extract_lets x0 x1 x2 x3
  have e4 : Still s₀ x3 := .fold (fun t _ => (Still.refl t).setOutRun) h _
  clear_value x3
  exact .ite e4.raw e4

theorem Still.relayRise {n a2} (h : Still s₀ s) : Still s₀ (s.relayRise n a2) := by
  unfold State.relayRise
  extract_lets x0 x1 x2
  exact .ite (.ite h.inc.raw (.ite h h.setOutRun.emitEdges)) h

theorem Still.relayFall {n a2} (h : Still s₀ s) : Still s₀ (s.relayFall n a2) := by
  unfold State.relayFall
  extract_lets x0
  exact .ite h.setOutRun.emitEdges h

theorem Still.relayEdge {n rise ahead} (h : Still s₀ s) : Still s₀ (s.relayEdge n rise ahead) := by
  unfold State.relayEdge
  extract_lets x0
  exact .ite h.relayRise h.relayFall

theorem Still.showHold {l} (h : Still s₀ s) : Still s₀ (s.showHold l) := by
  unfold State.showHold
  split
  · exact h.p
  · exact h.p
  · exact h.p
  · exact h.p.p
  · exact h

theorem Still.loopLoss {l cause quiet} (h : Still s₀ s) : Still s₀ (s.loopLoss l cause quiet) := by
  unfold State.loopLoss
  split
  · exact h
  · refine .ite ?_ ?_
    · extract_lets x0 x1 x2
      have e3 : Still s₀ x0 := h.p.raw.showHold
      have e4 : Still s₀ x2 := e3.setSyn
      clear_value x0 x2
      exact .ite e4 e4.fault
    · exact h

theorem Still.oscFreqChange (h : Still s₀ s) : Still s₀ s.oscFreqChange := by
  unfold State.oscFreqChange
  exact .fold (fun t _ => (Still.refl t).loopLoss.showHold) h _

theorem Still.oscFreqAct {old} (h : Still s₀ s) : Still s₀ (s.oscFreqAct old) := by
  unfold State.oscFreqAct
  exact .ite h h.oscFreqChange

theorem Still.ungate {d} (h : Still s₀ s) : Still s₀ (s.ungate d) := by
  unfold State.ungate
  exact h.upd

theorem Still.finishHigh {n} (h : Still s₀ s) : Still s₀ (s.finishHigh n) := by
  unfold State.finishHigh
  extract_lets x0 x1
  exact .ite h.setOutRun.emitEdges h

theorem Still.gate {d} (h : Still s₀ s) : Still s₀ (s.gate d) := by
  unfold State.gate
  refine .ite ?_ ?_
  · exact h
  · extract_lets x0 x1
    have e2 : Still s₀ x0 := h.upd
    clear_value x0
    exact .ite (.fold (fun t _ => (Still.refl t).finishHigh) e2.setSyn _) e2

theorem Keeps.bridge {cycles} (h : Keeps s₀ s) : Keeps s₀ (s.bridge cycles) := by
  unfold State.bridge
  extract_lets n v x1 y x2 coarse x3 x4 r
  refine .ite h ?_
  · have e1 : Keeps s₀ x1 := h.formTick.andThen (Still.refl _).outputsTick
    have e2 : Keeps s₀ x2 := e1.setTsc
    have e3 : Keeps s₀ x3 := e2.andThen (Still.refl _).setPair
    have e4 : Keeps s₀ x4 := e3.andThen (Still.refl _).raw.pb
    clear_value x1 x2 x3 x4
    exact e4.andThen (Still.refl _).record

end Sys2Proof.Machine
end

