-- ==== Sys2Proof/Laws/StillStamp.lean ====
section
/-! SUPPORT. What each operation of time stamping and the Cadence engine may do to the state: one lemma per operation, in the
terms of Sys2Proof/Laws/Keeps.lean. -/

set_option Elab.async false

namespace Sys2Proof.Machine

variable {s₀ s t u : State}

/-! ### Stamping -/

theorem Still.setPts {n a2} (h : Still s₀ s) : Still s₀ (s.setPts n a2) := by
  unfold State.setPts
  exact h.upd

theorem Still.setPd {n tx st} (h : Still s₀ s) : Still s₀ (s.setPd n tx st) := by
  unfold State.setPd
  exact h.p

theorem Still.storePd {n tx d} (h : Still s₀ s) : Still s₀ (s.storePd n tx d) := by
  unfold State.storePd
  exact h.setPts

theorem Still.pdRefresh {n tx} (h : Still s₀ s) : Still s₀ (s.pdRefresh n tx) := by
  unfold State.pdRefresh
  exact .ite (.ite h.setPd.storePd h) h.setPd.storePd

theorem Still.pdRefreshBoth {n} (h : Still s₀ s) : Still s₀ (s.pdRefreshBoth n) := by
  unfold State.pdRefreshBoth
  exact h.pdRefresh.pdRefresh

theorem Still.pdModeChange {n} (h : Still s₀ s) : Still s₀ (s.pdModeChange n) := by
  unfold State.pdModeChange
  exact h.setPd.setPd.pdRefreshBoth

theorem Still.pdSample {n tx raw} (h : Still s₀ s) : Still s₀ (s.pdSample n tx raw) := by
  unfold State.pdSample
  extract_lets x0 x1 x2 x3 x4 x5 x6 x7 x8 x9 x10
  have e11 : Still s₀ x8 := h.p
  have e12 : Still s₀ x9 := e11.storePd
  have e13 : Still s₀ x10 := e12.setPd.storePd.raw
  clear_value x8 x9 x10
  exact .ite h (.ite (.ite e12.setPd.raw e12) (.ite e13.note e12))

theorem Still.pdGap {n} (h : Still s₀ s) : Still s₀ (s.pdGap n) := by
  unfold State.pdGap
  exact .fold (fun t _ => .ite (Still.refl t) (Still.refl t).setPd.storePd.raw) h _

theorem Still.asymmetry {n} (h : Still s₀ s) : Still s₀ (s.asymmetry n) := by
  unfold State.asymmetry
  extract_lets x0 x1 x2 x3 x4
  exact h.setPairI.setPairI

theorem Still.setWindow {n l} (h : Still s₀ s) : Still s₀ (s.setWindow n l) := by
  unfold State.setWindow
  extract_lets x0 x1 x2 x3 x4 x5
  have e6 : Still s₀ x3 := h.setPts
  have e7 : Still s₀ x4 := e6.setPairI.drawn
  have e8 : Still s₀ x5 := .ite e7.p e7
  clear_value x3 x4 x5
  exact e8.asymmetry

theorem Still.clearWindow {n} (h : Still s₀ s) : Still s₀ (s.clearWindow n) := by
  unfold State.clearWindow
  exact h.setPts.p

theorem Still.ldSample {n a2} (h : Still s₀ s) : Still s₀ (s.ldSample n a2) := by
  unfold State.ldSample
  extract_lets x0 x1 x2 x3 x4
  have e5 : Still s₀ x3 := h.inc
  have e6 : Still s₀ x4 := e5.clearWindow.raw
  clear_value x3 x4
  exact .ite (.ite e5.setPts e6.fault.setWindow) h.setWindow

theorem Still.ldExchange {n t1 t2 t3 t4 bad} (h : Still s₀ s) : Still s₀ (s.ldExchange n t1 t2 t3 t4 bad) := by
  unfold State.ldExchange
  exact .ite h.inc h.ldSample

theorem Still.ftempNowAct {n} (h : Still s₀ s) : Still s₀ (s.ftempNowAct n) := by
  unfold State.ftempNowAct
  exact h.cond

theorem Still.ftempStale {n} (h : Still s₀ s) : Still s₀ (s.ftempStale n) := by
  unfold State.ftempStale
  exact .ite h.cond h

theorem Still.loopGo {n} (h : Still s₀ s) : Still s₀ (s.loopGo n) := by
  unfold State.loopGo
  refine .ite ?_ ?_
  · exact h
  · extract_lets x0 x1
    have e2 : Still s₀ x1 := h.setPts
    clear_value x1
    exact e2.setReg

theorem Still.loopAbort {n} (h : Still s₀ s) : Still s₀ (s.loopAbort n) := by
  unfold State.loopAbort
  refine .ite ?_ ?_
  · extract_lets x0
    have e1 : Still s₀ x0 := h.p
    clear_value x0
    exact e1.p
  · exact h

theorem Still.loopCtrlAct {n v} (h : Still s₀ s) : Still s₀ (s.loopCtrlAct n v) := by
  unfold State.loopCtrlAct
  extract_lets x0
  have e1 : Still s₀ x0 := .ite h.loopAbort h
  clear_value x0
  exact .ite e1.loopGo e1

theorem Still.loopTx {n a2} (h : Still s₀ s) : Still s₀ (s.loopTx n a2) := by
  unfold State.loopTx
  extract_lets x0 x1 x2 x3 x4
  have e5 : Still s₀ x4 := h.setPts
  clear_value x4
  exact .ite e5.emit h

theorem Still.loopRx {n q a3} (h : Still s₀ s) : Still s₀ (s.loopRx n q a3) := by
  unfold State.loopRx
  extract_lets x0 x1 x2 x3 x4
  split
  · exact h
  · refine .ite ?_ ?_
    · refine .ite ?_ ?_
      · extract_lets x5 x6
        exact h.setPts.inc
      · exact h.setPts.inc
    · exact h

theorem Still.loopTimeout {n q} (h : Still s₀ s) : Still s₀ (s.loopTimeout n q) := by
  unfold State.loopTimeout
  extract_lets x0 x1
  exact .ite h.setPts.inc h

theorem Still.loopDone {n} (h : Still s₀ s) : Still s₀ (s.loopDone n) := by
  unfold State.loopDone
  extract_lets x0 x1 x2 x3
  have e4 : Still s₀ x2 := h.setPairI
  have e5 : Still s₀ x3 := .ite h e4.setRegN.p
  clear_value x2 x3
  exact .ite e5.p.raw h

theorem Still.setFifoOf {n l} (h : Still s₀ s) : Still s₀ (s.setFifoOf n l) := by
  unfold State.setFifoOf
  exact h.setPts.p

theorem Still.pushStamp {n r} (h : Still s₀ s) : Still s₀ (s.pushStamp n r) := by
  unfold State.pushStamp
  extract_lets x0
  exact .ite h (.ite h.setFifoOf h.inc.raw)

theorem Still.popStamp {n} (h : Still s₀ s) : Still s₀ (s.popStamp n) := by
  unfold State.popStamp
  split
  · exact h
  · exact h.setFifoOf

theorem Still.serveStep_fst {n r l f a5 ptp tag} (h : Still s₀ s) : Still s₀ (s.serveStep n r l f a5 ptp tag).1 := by
  unfold State.serveStep
  extract_lets x0 x1
  have e2 : Still s₀ x1 := h.inc.raw
  clear_value x1
  split
  · exact h.inc
  · exact e2.pushStamp

/-! ### Ptp -/

theorem Still.setPtp {p} (h : Still s₀ s) : Still s₀ (s.setPtp p) := by
  unfold State.setPtp
  exact h.upd

theorem Still.setPport {n a2} (h : Still s₀ s) : Still s₀ (s.setPport n a2) := by
  unfold State.setPport
  exact h.setPtp

theorem Still.setPtpState {n st} (h : Still s₀ s) : Still s₀ (s.setPtpState n st) := by
  unfold State.setPtpState
  exact h.p

theorem Still.ptpDiscard {n} (h : Still s₀ s) : Still s₀ (s.ptpDiscard n) := by
  unfold State.ptpDiscard
  exact h.inc

theorem Still.dropSample {n} (h : Still s₀ s) : Still s₀ (s.dropSample n) := by
  unfold State.dropSample
  exact h.ptpDiscard.raw

theorem Still.setServo {st} (h : Still s₀ s) : Still s₀ (s.setServo st) := by
  unfold State.setServo
  exact h.p

theorem Still.servoRec {ev} (h : Still s₀ s) : Still s₀ (s.servoRec ev) := by
  unfold State.servoRec
  extract_lets x0
  exact h.note

theorem Still.startGate (h : Still s₀ s) : Still s₀ s.startGate := by
  unfold State.startGate
  exact h.setPtp

theorem Still.servoMeasures (h : Still s₀ s) : Still s₀ s.servoMeasures := by
  unfold State.servoMeasures
  exact h.setPtp.startGate.setServo

theorem Still.servoTracks (h : Still s₀ s) : Still s₀ s.servoTracks := by
  unfold State.servoTracks
  exact h.setPtp.startGate.setServo

theorem Still.servoSteer (h : Still s₀ s) : Still s₀ s.servoSteer := by
  unfold State.servoSteer
  extract_lets x0 x1 x2 x3
  have e4 : Still s₀ x2 := .ite h.setPtp h
  clear_value x2
  exact .ite (.ite (.ite e4 e4.setPtp) e4.servoTracks) (.ite e4.servoMeasures e4)

theorem Still.loseValid (h : Still s₀ s) : Still s₀ s.loseValid := by
  unfold State.loseValid
  extract_lets x0 x1
  have e2 : Still s₀ x0 := .ite h.p.raw h
  clear_value x0
  exact e2.setPtp.setServo

theorem Still.disqualify {k} (h : Still s₀ s) : Still s₀ (s.disqualify k) := by
  unfold State.disqualify
  extract_lets x0 x1 x2
  have e3 : Still s₀ x1 := h.setCand.wtrReset
  have e4 : Still s₀ x2 := .ite e3.raw.selRec e3
  clear_value x1 x2
  exact .ite e4.showCand h

theorem Still.showUtc {n} (h : Still s₀ s) : Still s₀ (s.showUtc n) := by
  unfold State.showUtc
  extract_lets x0
  exact .ite h.p.p h

theorem Still.formValid (h : Still s₀ s) : Still s₀ s.formValid := by
  unfold State.formValid
  extract_lets x0 x1
  split
  · exact h
  · refine .ite ?_ ?_
    · extract_lets x2
      have e3 : Still s₀ x2 := h.p.setPtp
      clear_value x2
      exact .ite e3.servoMeasures e3
    · exact h

theorem Still.setServoPort {n} (h : Still s₀ s) : Still s₀ (s.setServoPort n) := by
  unfold State.setServoPort
  extract_lets x0 x1 x2 x3 x4
  have e5 : Still s₀ x1 := .ite h.p h
  have e6 : Still s₀ x2 := .ite e5.p e5
  have e7 : Still s₀ x3 := e6.p.raw
  clear_value x1 x2 x3
  exact e7.setPtp.showUtc.servoRec

theorem Still.masterChange {old} (h : Still s₀ s) : Still s₀ (s.masterChange old) := by
  unfold State.masterChange
  extract_lets x0 x1
  have e2 : Still s₀ x1 := h.loseValid.disqualify.setPtp
  clear_value x1
  exact .ite e2.fault e2

theorem Still.chooseServo (h : Still s₀ s) : Still s₀ s.chooseServo := by
  unfold State.chooseServo
  extract_lets x0
  exact .ite (.ite h h.setServoPort.formValid) (.ite h h.setServoPort.masterChange.formValid)

theorem Still.tightEval {n} (h : Still s₀ s) : Still s₀ (s.tightEval n) := by
  unfold State.tightEval
  extract_lets x0 x1 x2 x3 x4 x5
  have e6 : Still s₀ x3 := h.pb
  have e7 : Still s₀ x5 := .ite e6.setPtp e6
  clear_value x3 x5
  exact .ite h (.ite e7 e7.raw)

theorem Still.groupEval {g} (h : Still s₀ s) : Still s₀ (s.groupEval g) := by
  unfold State.groupEval
  extract_lets x0 x1 x2 x3 x4 x5 x6 x7 x8 x9
  have e10 : Still s₀ x4 := h.setRegN
  have e11 : Still s₀ x5 := e10.p.p
  have e12 : Still s₀ x6 := .ite e11.p e11
  have e13 : Still s₀ x7 := .ite e12.p e12
  have e14 : Still s₀ x8 := e13.raw.note
  have e15 : Still s₀ x9 := .ite e14.raw.fault e14
  clear_value x4 x5 x6 x7 x8 x9
  exact .ite e10 (.ite e15.setServoPort.formValid e15)

theorem Still.ptpSettle {n} (h : Still s₀ s) : Still s₀ (s.ptpSettle n) := by
  unfold State.ptpSettle
  extract_lets x0
  have e1 : Still s₀ x0 := by
    unfold x0
    split
    · exact h.groupEval
    · exact h
  clear_value x0
  exact e1.tightEval.chooseServo.servoSteer

theorem Still.clearParent {n} (h : Still s₀ s) : Still s₀ (s.clearParent n) := by
  unfold State.clearParent
  extract_lets x0 x1 x2
  have e3 : Still s₀ x0 := h.setPair.setRegN
  have e4 : Still s₀ x1 := e3.p
  clear_value x0 x1
  exact e4.setPport

theorem Still.stopPort {n} (h : Still s₀ s) : Still s₀ (s.stopPort n) := by
  unfold State.stopPort
  exact h.setPport

theorem Still.leaveInit {n} (h : Still s₀ s) : Still s₀ (s.leaveInit n) := by
  unfold State.leaveInit
  extract_lets x0
  exact .ite h.setPtpState h

theorem Still.toInit {n} (h : Still s₀ s) : Still s₀ (s.toInit n) := by
  unfold State.toInit
  exact h.setPtpState.stopPort.clearParent.leaveInit.ptpSettle

theorem Still.ptpLockLost {n} (h : Still s₀ s) : Still s₀ (s.ptpLockLost n) := by
  unfold State.ptpLockLost
  exact .ite h h.setPtpState.stopPort.clearParent.ptpSettle

theorem Still.ptpLockGained {n} (h : Still s₀ s) : Still s₀ (s.ptpLockGained n) := by
  unfold State.ptpLockGained
  extract_lets x0
  have e1 : Still s₀ x0 := .ite h.setPtpState h
  clear_value x0
  exact e1.leaveInit.ptpSettle

theorem Still.ptpLdCheck {n} (h : Still s₀ s) : Still s₀ (s.ptpLdCheck n) := by
  unfold State.ptpLdCheck
  exact .ite h.setPtpState.ptpSettle h

theorem Still.ptpCtrlAct {_old} (h : Still s₀ s) : Still s₀ (s.ptpCtrlAct _old) := by
  unfold State.ptpCtrlAct
  refine .ite ?_ ?_
  · exact .fold (fun t _ => (Still.refl t).leaveInit.ptpSettle) h _
  · extract_lets x0 x1
    have e2 : Still s₀ x0 := .fold (fun t _ => (Still.refl t).toInit) h _
    clear_value x0
    exact e2.setPtp.setServo

theorem Still.ptpCfgAct {n old} (h : Still s₀ s) : Still s₀ (s.ptpCfgAct n old) := by
  unfold State.ptpCfgAct
  extract_lets x0 x1 x2 x3
  have e4 : Still s₀ x2 := .ite h.toInit h
  have e5 : Still s₀ x3 := .ite e4 (.fold (fun t _ => (Still.refl t).groupEval) e4 _)
  clear_value x2 x3
  exact e5.ptpSettle

theorem Still.clockIdAct (h : Still s₀ s) : Still s₀ s.clockIdAct := by
  unfold State.clockIdAct
  exact .fold (fun t _ => (Still.refl t).leaveInit.ptpSettle) h _

theorem Still.onMessage {n ty m f} (h : Still s₀ s) (hf : Still s₀ (f s)) : Still s₀ (s.onMessage n ty m f) :=
  .ite (.ite hf h.ptpDiscard) h

theorem Still.sendPtp {n m} (h : Still s₀ s) : Still s₀ (s.sendPtp n m) := by
  unfold State.sendPtp
  exact h.emit

theorem Still.useSeq {n ty} (h : Still s₀ s) : Still s₀ (s.useSeq n ty) := by
  unfold State.useSeq
  exact h.setPtp

theorem Still.sendOneStep {n op t m} (h : Still s₀ s) : Still s₀ (s.sendOneStep n op t m) :=
  Still.emit (Still.serveStep_fst h)

theorem Still.syncTx {n a2} (h : Still s₀ s) : Still s₀ (s.syncTx n a2) := by
  unfold State.syncTx
  refine .ite ?_ ?_
  · extract_lets x0 x1 x2 x3 x4 x5
    have e6 : Still s₀ x2 := h.useSeq
    have e7 : Still s₀ x4 := e6.sendPtp
    clear_value x2 x4
    exact .ite e7.setPport e6.sendOneStep
  · exact h

theorem Still.followTx {n} (h : Still s₀ s) : Still s₀ (s.followTx n) := by
  unfold State.followTx
  split
  · exact h
  · refine .ite ?_ ?_
    · extract_lets x0 x1 x2
      have e3 : Still s₀ x2 := h.setPport
      clear_value x2
      exact .ite e3.sendPtp e3.sendPtp
    · exact h

theorem Still.announceTx {n} (h : Still s₀ s) : Still s₀ (s.announceTx n) := by
  unfold State.announceTx
  exact .ite h.setPport.sendPtp.useSeq h

theorem Still.delayReqTx {n a2} (h : Still s₀ s) : Still s₀ (s.delayReqTx n a2) := by
  unfold State.delayReqTx
  refine .ite ?_ ?_
  · extract_lets x0 x1 x2 x3
    have e4 : Still s₀ x2 := h.sendPtp
    clear_value x2
    exact e4.setPport.useSeq
  · exact h

theorem Still.pdelayReqTx {n a2} (h : Still s₀ s) : Still s₀ (s.pdelayReqTx n a2) := by
  unfold State.pdelayReqTx
  refine .ite ?_ ?_
  · extract_lets x0 x1 x2 x3
    have e4 : Still s₀ x2 := h.sendPtp
    clear_value x2
    exact e4.setPport.useSeq
  · exact h

theorem Still.delayRespTx {n} (h : Still s₀ s) : Still s₀ (s.delayRespTx n) := by
  unfold State.delayRespTx
  split
  · exact h
  · refine .ite ?_ ?_
    · extract_lets x0 x1
      have e2 : Still s₀ x1 := h.setPport
      clear_value x1
      exact e2.sendPtp
    · exact h

theorem Still.pdelayRespTx {n a2} (h : Still s₀ s) : Still s₀ (s.pdelayRespTx n a2) := by
  unfold State.pdelayRespTx
  split
  · exact h
  · refine .ite ?_ ?_
    · extract_lets x0 x1 x2 x3 x4
      have e5 : Still s₀ x2 := h.setPport
      have e6 : Still s₀ x3 := e5.sendPtp
      clear_value x2 x3
      exact .ite e6.setPport e5.sendOneStep
    · exact h

theorem Still.servoRate {r} (h : Still s₀ s) : Still s₀ (s.servoRate r) := by
  unfold State.servoRate
  extract_lets x0
  have e1 : Still s₀ x0 := h.setPairI
  clear_value x0
  exact .ite e1 e1.supplyRate

theorem Still.servoUpdate {o dt code} (h : Still s₀ s) : Still s₀ (s.servoUpdate o dt code) := by
  unfold State.servoUpdate
  extract_lets x0 x1 x2 x3 x4 x5 x6 x7 x8 x9 x10
  have e11 : Still s₀ x10 := h.setPtp
  clear_value x10
  exact e11.setPairI.servoRate

theorem Still.tightTick (h : Still s₀ s) : Still s₀ s.tightTick := by
  unfold State.tightTick
  refine .ite ?_ ?_
  · extract_lets x0 x1
    exact h.servoUpdate
  · exact h

theorem Still.ptpStep {delta} (h : Still s₀ s) : Still s₀ (s.ptpStep delta) := by
  unfold State.ptpStep
  exact h.setPtp

theorem Still.tightSample {o p d} (h : Still s₀ s) : Still s₀ (s.tightSample o p d) := by
  unfold State.tightSample
  refine .ite ?_ ?_
  · extract_lets x0 x1
    exact h.setPtp
  · exact h.setPtp

theorem Still.firstLock {l master} (h : Still s₀ s) : Still s₀ (s.firstLock l master) := by
  unfold State.firstLock
  extract_lets x0 x1 x2 x3 x4
  have e5 : Still s₀ x2 := .ite h (.ite h.internalStep h.internalStep.fault)
  have e6 : Still s₀ x3 := e5.p.raw
  clear_value x2 x3
  exact e6.setPtp.servoTracks

theorem Still.servoSample {o p d master} (h : Still s₀ s) : Still s₀ (s.servoSample o p d master) := by
  unfold State.servoSample
  extract_lets x0 x1 x2 x3 x4 x5 x6 x7 x8 x9
  have e10 : Still s₀ x2 := h.setPtp.offsetSeen
  have e11 : Still s₀ x3 := e10.p
  have e12 : Still s₀ x4 := Still.servoSteer (.ite e11.servoMeasures e11)
  have e13 : Still s₀ x5 := .ite e12.tightSample e12
  have e14 : Still s₀ x7 := e13.setPtp
  have e15 : Still s₀ x9 := .ite e13.setServo.servoRec e13
  clear_value x2 x3 x4 x5 x7 x9
  refine .ite ?_ ?_
  · split
    · exact e14
    · extract_lets x16
      exact .ite e14.firstLock e14.setPtp
  · exact .ite e15 e15.servoUpdate

theorem Still.servoFreeze (h : Still s₀ s) : Still s₀ s.servoFreeze := by
  unfold State.servoFreeze
  refine .ite ?_ ?_
  · extract_lets x0
    have e1 : Still s₀ x0 := h.setServo.raw
    clear_value x0
    exact e1.servoRate.servoRec
  · exact h

theorem Still.ptpGate_snd (h : Still s₀ s) : Still s₀ s.ptpGate.2 := h.setPtp

theorem Still.offsetSample {n t1 t2 c breaks p d} (h : Still s₀ s) : Still s₀ (s.offsetSample n t1 t2 c breaks p d) := by
  unfold State.offsetSample
  extract_lets x0 x1 x2 x3 x4 x5 x6 x7 x8 x9 x10
  have e11 : Still s₀ x5 := .ite h.raw h
  have e12 : Still s₀ x7 := .ite e11.setPtpState.ptpSettle e11
  have e13 : Still s₀ x9 := e12.setPport
  clear_value x5 x7 x9
  exact .ite e11.dropSample (.ite e13.servoSample.servoSteer e13)

theorem Still.notFollowed {n} (h : Still s₀ s) : Still s₀ (s.notFollowed n) := by
  unfold State.notFollowed
  exact .ite h.ptpDiscard h

theorem Still.syncDone {n bad t1 t2 c breaks p d} (h : Still s₀ s) : Still s₀ (s.syncDone n bad t1 t2 c breaks p d) := by
  unfold State.syncDone
  extract_lets x0 x1 x2 x3
  have e4 : Still s₀ x3 := h.setPport
  clear_value x3
  exact e4.offsetSample

theorem Still.dropWait {n} (h : Still s₀ s) : Still s₀ (s.dropWait n) := by
  unfold State.dropWait
  extract_lets x0
  split
  · exact h
  · exact h.setPport.dropSample

theorem Still.syncRx {n m a3} (h : Still s₀ s) : Still s₀ (s.syncRx n m a3) := by
  unfold State.syncRx
  refine .onMessage h ?_
  extract_lets x0 x1 x2 x3 x4 x5 x6
  have e7 : Still s₀ x0 := h.inc
  have e8 : Still s₀ x4 := e7.dropWait
  clear_value x0 x4
  exact .ite (.ite e8.setPport e8.syncDone) e7.notFollowed

theorem Still.followUpRx {n m} (h : Still s₀ s) : Still s₀ (s.followUpRx n m) := by
  unfold State.followUpRx
  refine .onMessage h ?_
  refine .ite ?_ ?_
  · split
    · exact h
    · exact .ite h.syncDone h
  · exact h.notFollowed

theorem Still.followUpTimeout {n} (h : Still s₀ s) : Still s₀ (s.followUpTimeout n) := by
  unfold State.followUpTimeout
  exact h.dropWait

theorem Still.offsetLapse (h : Still s₀ s) : Still s₀ s.offsetLapse := by
  unfold State.offsetLapse
  extract_lets x0 x1 x2
  have e3 : Still s₀ x2 := .ite h.setPport h
  clear_value x2
  exact .ite e3.loseValid e3

theorem Still.delayReqRx {n m a3} (h : Still s₀ s) : Still s₀ (s.delayReqRx n m a3) := by
  unfold State.delayReqRx
  refine .onMessage h ?_
  exact .ite h.setPport h

theorem Still.delayRespRx {n m} (h : Still s₀ s) : Still s₀ (s.delayRespRx n m) := by
  unfold State.delayRespRx
  refine .onMessage h ?_
  refine .ite ?_ ?_
  · extract_lets x0 x1 x2 x3
    have e4 : Still s₀ x2 := h.setPport
    clear_value x2
    split
    · exact h.ptpDiscard
    · refine .ite ?_ ?_
      · extract_lets x5
        clear_value x5
        split
        · exact e4
        · extract_lets x6
          exact e4.ldExchange.ptpLdCheck
      · exact h.ptpDiscard
  · exact h

theorem Still.pdelayReqRx {n m a3} (h : Still s₀ s) : Still s₀ (s.pdelayReqRx n m a3) := by
  unfold State.pdelayReqRx
  refine .onMessage h ?_
  exact .ite h.setPport h

theorem Still.pdelayDone {n w t4 turn bad} (h : Still s₀ s) : Still s₀ (s.pdelayDone n w t4 turn bad) := by
  unfold State.pdelayDone
  extract_lets x0 x1 x2
  have e3 : Still s₀ x2 := h.setPport
  clear_value x2
  exact e3.ldExchange.ptpLdCheck

theorem Still.pdelayRespRx {n m a3} (h : Still s₀ s) : Still s₀ (s.pdelayRespRx n m a3) := by
  unfold State.pdelayRespRx
  refine .onMessage h ?_
  split
  · exact h
  · refine .ite ?_ ?_
    · extract_lets x0 x1 x2 x3 x4
      exact .ite h.setPport h.pdelayDone
    · exact h

theorem Still.pdelayFollowRx {n m} (h : Still s₀ s) : Still s₀ (s.pdelayFollowRx n m) := by
  unfold State.pdelayFollowRx
  refine .onMessage h ?_
  split
  · exact h
  · split
    · exact h
    · refine .ite ?_ ?_
      · extract_lets x0
        exact h.pdelayDone
      · exact h

theorem Still.claimBad {n} (h : Still s₀ s) : Still s₀ (s.claimBad n) := by
  unfold State.claimBad
  exact h.inc.raw

theorem Still.recordAnnounce {n m tlv} (h : Still s₀ s) : Still s₀ (s.recordAnnounce n m tlv) := by
  unfold State.recordAnnounce
  extract_lets x0 x1 x2 x3 x4 x5 x6
  have e7 : Still s₀ x1 := h.setPair
  have e8 : Still s₀ x2 := e7.setRegN
  have e9 : Still s₀ x5 := e8.setPport
  have e10 : Still s₀ x6 := e9.pb
  clear_value x1 x2 x5 x6
  split
  · exact e10.setRegN
  · exact e10

theorem Still.acceptAnnounce {n m tlv} (h : Still s₀ s) : Still s₀ (s.acceptAnnounce n m tlv) := by
  unfold State.acceptAnnounce
  extract_lets x0 x1 x2 x3 x4 x5 x6 x7
  have e8 : Still s₀ x3 := h.recordAnnounce
  have e9 : Still s₀ x5 := e8.setPport
  have e10 : Still s₀ x6 := e9.setPtpState.raw
  have e11 : Still s₀ x7 := .ite e8.setPtpState.raw (.ite (.ite e10.chooseServo e10) e8)
  clear_value x3 x5 x6 x7
  exact e11.showUtc.ptpSettle

theorem Still.announceRx {n m} (h : Still s₀ s) : Still s₀ (s.announceRx n m) := by
  unfold State.announceRx
  refine .onMessage h ?_
  extract_lets x0 x1 x2 x3 x4 x5
  have e6 : Still s₀ x2 := .fold (fun t _ => (Still.refl t).claimBad) h _
  have e7 : Still s₀ x5 := .ite e6.claimBad e6
  clear_value x2 x5
  exact .ite h.raw (.ite h (.ite e7.acceptAnnounce e7.inc.raw))

theorem Still.announceTimeout {n} (h : Still s₀ s) : Still s₀ (s.announceTimeout n) := by
  unfold State.announceTimeout
  refine .ite ?_ ?_
  · extract_lets x0 x1
    have e2 : Still s₀ x0 := h.setPtpState.clearParent
    have e3 : Still s₀ x1 := e2.inc
    clear_value x0 x1
    exact e3.raw.ptpSettle
  · exact h

end Sys2Proof.Machine
end

