-- ==== Sys2Proof/Laws/StillFwd.lean ====
section
/-! SUPPORT. What each operation of forwarding and the queues may do to the state: one lemma per operation, in the
terms of Sys2Proof/Laws/Keeps.lean. -/

set_option Elab.async false

namespace Sys2Proof.Machine

variable {s₀ s t u : State}

/-! ### Forwarding -/

theorem Still.setTw {a i v} (h : Still s₀ s) : Still s₀ (s.setTw a i v) := by
  unfold State.setTw
  exact h.setRegN

theorem Still.touch {a} (h : Still s₀ s) : Still s₀ (s.touch a) := by
  unfold State.touch
  exact h.setTw

theorem Still.epochUp (h : Still s₀ s) : Still s₀ s.epochUp := by
  unfold State.epochUp
  exact h.p

theorem Still.clearCtx {i} (h : Still s₀ s) : Still s₀ (s.clearCtx i) := by
  unfold State.clearCtx
  exact .fold (fun t _ => (Still.refl t).setTw) h _

theorem Still.poolEmpty {detail param} (h : Still s₀ s) : Still s₀ (s.poolEmpty detail param) := by
  unfold State.poolEmpty
  exact .ite h h.cond.fault

theorem Still.poolCheck (h : Still s₀ s) : Still s₀ s.poolCheck := by
  unfold State.poolCheck
  exact .ite (.ite h h.poolEmpty.drawn.drawn) h.cond

theorem Still.accrue {i} (h : Still s₀ s) : Still s₀ (s.accrue i) := by
  unfold State.accrue
  extract_lets x0 x1 x2 x3 x4 x5 x6 x7 x8
  have e9 : Still s₀ x4 := h.upd
  clear_value x4
  exact .ite (.ite e9.setTw e9.upd.setTw) e9

theorem Still.police_fst {i n cls slice} (h : Still s₀ s) : Still s₀ (s.police i n cls slice).1 := by
  unfold State.police
  extract_lets x0 x1 x2
  have e3 : Still s₀ x1 := h.accrue
  clear_value x1
  split
  · exact h
  · split
    · exact e3.setTw
    · exact e3.setTw.pmc

theorem Still.writeLearned {a k w3 w4 w5} (h : Still s₀ s) : Still s₀ (s.writeLearned a k w3 w4 w5) := by
  unfold State.writeLearned
  extract_lets x0 x1
  have e2 : Still s₀ x0 := h.setTw
  have e3 : Still s₀ x1 := e2.setTw.setTw
  clear_value x0 x1
  exact e3.setTw.setTw.setTw.epochUp

theorem Still.learnFrom {n vid mac slice} (h : Still s₀ s) : Still s₀ (s.learnFrom n vid mac slice) := by
  unfold State.learnFrom
  extract_lets x0 x1
  split
  · extract_lets x2 x3 x4
    have e5 : Still s₀ x2 := h.touch
    have e6 : Still s₀ x4 := e5.setTw
    clear_value x2 x4
    exact .ite e5 (.ite e5 e6.setTw.epochUp.pmc)
  · split
    · exact h.writeLearned.pmc
    · exact h.inc.raw.pmc

theorem Still.sweepEntry {a} (h : Still s₀ s) : Still s₀ (s.sweepEntry a) := by
  unfold State.sweepEntry
  extract_lets x0 x1 x2
  have e3 : Still s₀ x1 := h.setTw.epochUp
  clear_value x1
  exact .ite h (.ite h.setTw.epochUp (.ite e3.setTw.poolCheck e3))

theorem Still.window_fst {i q} (h : Still s₀ s) : Still s₀ (s.window i q).1 := by
  unfold State.window
  extract_lets x0 x1 x2 x3 x4 x5 x6 x7 x8
  have e9 : Still s₀ x7 := h.setTw
  have e10 : Still s₀ x8 := e9.setTw.setTw
  clear_value x7 x8
  exact e10.setTw

theorem Still.untracked {r mac} (h : Still s₀ s) : Still s₀ (s.untracked r mac) := by
  unfold State.untracked
  extract_lets x0
  have e1 : Still s₀ x0 := h.inc.raw
  clear_value x0
  exact .ite e1.poolEmpty e1

theorem Still.recirc {slice} (h : Still s₀ s) : Still s₀ (s.recirc slice) := by
  unfold State.recirc
  exact h.pmc.pmc

theorem Still.slot {f slice on} (h : Still s₀ s) : Still s₀ (s.slot f slice on) := by
  unfold State.slot
  exact h.pmc

theorem Still.sourceCtx_fst {r mac slice} (h : Still s₀ s) : Still s₀ (s.sourceCtx r mac slice).1 := by
  unfold State.sourceCtx
  extract_lets x0 x1 x2
  have e3 : Still s₀ x1 := h.recirc
  have e4 : Still s₀ x2 := e3.pmc
  clear_value x1 x2
  split
  · extract_lets x5
    have e6 : Still s₀ x5 := e3.touch.pmc
    clear_value x5
    split
    · split
      · exact e6.setTw
      · exact e6
    · exact e6
  · split
    · extract_lets x7 x8 x9 x10
      have e11 : Still s₀ x7 := e4.writeLearned
      have e12 : Still s₀ x9 := e11.clearCtx.setTw
      have e13 : Still s₀ x10 := e12.setTw
      clear_value x7 x9 x10
      exact .ite e13.poolEmpty e13
    · exact e4.untracked

theorem Still.sendInto_fst {r mac slice} (h : Still s₀ s) : Still s₀ (s.sendInto r mac slice).1 := by
  unfold State.sendInto
  split
  · rename_i y0 y1 y2
    have e3 : Still s₀ y1 := Still.ofFst y2 (Still.sourceCtx_fst h)
    exact e3
  · rename_i y4 y5 y6 y7
    have e8 : Still s₀ y5 := Still.ofFst y7 (Still.sourceCtx_fst h)
    extract_lets x9 x10 x11
    have e12 : Still s₀ x11 := e8.setTw
    clear_value x11
    exact e12.window_fst

theorem Still.route_fst {b hd vid slice} (h : Still s₀ s) : Still s₀ (s.route b hd vid slice).1 := by
  unfold State.route
  extract_lets group miss addr
  have hmiss : ∀ {t}, Still s₀ t → Still s₀ (miss t).1 := fun k => k.pmc
  have haddr : ∀ {t}, Still s₀ t → Still s₀ (addr t).1 := fun {t} k => by
    show Still s₀ (match t.findEntry _ with
      | some a => _
      | none => _ : State × Route).1
    split
    · exact k.touch.pmc
    · exact hmiss k
  split
  · split
    · exact h.touch.pmc
    · exact haddr h.inc.raw.pmc.recirc
  · exact haddr h

theorem Still.lagAct (h : Still s₀ s) : Still s₀ s.lagAct := by
  unfold State.lagAct
  exact .fold (fun t _ => .ite (Still.refl t).upd (Still.refl t)) h _

theorem Still.resolveLag_fst {m lags hash g} (h : Still s₀ s) : Still s₀ (s.resolveLag m lags hash g).1 := by
  unfold State.resolveLag
  extract_lets x0 x1 x2 x3 x4 x5 x6
  have e7 : Still s₀ x6 := h.upd.raw
  clear_value x6
  split
  · exact h
  · split
    · exact h.upd
    · exact .ite e7.fault e7

theorem Still.resolveRed_fst {m mac slice r} (h : Still s₀ s) : Still s₀ (s.resolveRed m mac slice r).1 := by
  unfold State.resolveRed
  extract_lets x0 x1 x2
  split
  · exact h
  · split
    · exact h
    · split
      · rename_i y3 y4 y5 y6
        have e7 : Still s₀ y4 := Still.ofFst y6 (Still.sendInto_fst h)
        exact e7
      · rename_i y8 y9 y10
        have e11 : Still s₀ y9 := Still.ofFst y10 (Still.sendInto_fst h)
        split
        · exact e11
        · exact e11

theorem Still.resolveReds_fst {m mac slice} (h : Still s₀ s) : Still s₀ (s.resolveReds m mac slice).1 := by
  unfold State.resolveReds
  refine .foldFst (fun t x => ?_) ?_ _
  · have e0 := Still.refl t.1
    beta_reduce
    split
    · rename_i y1 y2 y3 y4
      have e5 : Still t.1 y2 := Still.ofFst y4 (Still.resolveRed_fst e0)
      exact e5
    · rename_i y6 y7 y8 y9 y10
      have e11 : Still t.1 y7 := Still.ofFst y10 (Still.resolveRed_fst e0)
      exact e11
  · exact h

theorem Still.filterFrame (h : Still s₀ s) : Still s₀ s.filterFrame := by
  unfold State.filterFrame
  exact h.inc

theorem Still.herdTagRec {f a2 code} (h : Still s₀ s) : Still s₀ (s.herdTagRec f a2 code) := by
  unfold State.herdTagRec
  extract_lets x0 x1 x2
  exact h.record

theorem Still.tagBad {f a2} (h : Still s₀ s) : Still s₀ (s.tagBad f a2) := by
  unfold State.tagBad
  extract_lets x0 x1 x2 x3 x4 x5
  have e6 : Still s₀ x0 := h.inc.raw
  have e7 : Still s₀ x1 := e6.herdTagRec
  have e8 : Still s₀ x4 := e7.upd
  clear_value x0 x1 x4
  exact .ite e8.fault e8

theorem Still.herdOf_fst {f a2 i} (h : Still s₀ s) : Still s₀ (s.herdOf f a2 i).1 := by
  unfold State.herdOf
  extract_lets x0 x1 x2 x3 x4 x5
  split
  · exact h
  · split
    · split
      · exact h
      · split
        · exact h.inc.raw
        · exact h
    · split
      · exact h
      · exact h

theorem Still.lookupRoute_fst {f base ring} (h : Still s₀ s) : Still s₀ (s.lookupRoute f base ring).1 := by
  unfold State.lookupRoute
  extract_lets x0 x1 x2 x3
  split
  · rename_i y4 y5 y6 y7
    have e8 : Still s₀ y5 := Still.ofFst y7 (Still.route_fst h)
    extract_lets x9 x10 x11 x12 x13 x14 x15 x16 x17 x18 x19 x20 x21 x22 x23 x24 x25 x26 x27
    have e28 : Still s₀ x10.1 := by
      unfold x10
      split
      · exact e8.setTw.herdOf_fst
      · exact e8
    have e29 : Still s₀ x11 := e28
    have e30 : Still s₀ x12 := e29.pmc
    have e31 : Still s₀ x13 := by
      unfold x13
      split
      · exact .ite e30.fire e30
      · exact e29
    have e32 : Still s₀ x14.1 := by
      unfold x14
      split
      · exact e31.police_fst
      · exact e31
    have e33 : Still s₀ x15 := e32
    have e34 : Still s₀ x19.1 := by
      unfold x19
      refine .foldFst (fun t x => ?_) ?_ _
      · have e35 := Still.refl t.1
        beta_reduce
        exact e35.resolveLag_fst
      · exact e33
    have e36 : Still s₀ x20.1 := by
      unfold x20
      split
      · exact e34
      · exact e34.resolveReds_fst
    have e37 : Still s₀ x21 := e36
    have e38 : Still s₀ x26 := .ite e37.filterFrame e37
    clear_value x10 x11 x12 x13 x14 x15 x19 x20 x21 x26
    exact e38.slot

theorem Still.lanCheck {r n a3} (h : Still s₀ s) : Still s₀ (s.lanCheck r n a3) := by
  unfold State.lanCheck
  split
  · exact .ite h h.inc.raw
  · exact h

theorem Still.lookupSeq_fst {f base r q} (h : Still s₀ s) : Still s₀ (s.lookupSeq f base r q).1 := by
  unfold State.lookupSeq
  extract_lets x0 x1
  have e2 : Still s₀ x1.1 := h.sourceCtx_fst
  clear_value x1
  split
  · exact e2.lookupRoute_fst
  · extract_lets x3
    have e4 : Still s₀ x3.1 := e2.window_fst
    clear_value x3
    split
    · exact e4.lookupRoute_fst
    · exact e4.inc.pmc

theorem Still.lookupRed_fst {f base} (h : Still s₀ s) : Still s₀ (s.lookupRed f base).1 := by
  unfold State.lookupRed
  split
  · exact h.lookupRoute_fst
  · extract_lets x0
    have e1 : Still s₀ x0 := h.lanCheck
    clear_value x0
    split
    · exact e1.lookupRoute_fst
    · exact e1.lookupSeq_fst

theorem Still.lookup_fst {f} (h : Still s₀ s) : Still s₀ (s.lookup f).1 := by
  unfold State.lookup
  extract_lets x0 x1 x2 x3 x4 x5 x6 x7 x8 x9 x10 x11 x12 x13 x14 x15 x16 x17 x18 x19 x20 x21
  have e22 : Still s₀ x19 := h.inc.raw
  have e23 : Still s₀ x20 := h.inc.raw
  have e24 : Still s₀ x21 := .ite h.tagBad h
  clear_value x19 x20 x21
  split
  · exact h.slot
  · split
    · exact h.slot
    · split
      · exact h.slot
      · split
        · exact h.filterFrame.pmc
        · split
          · exact e22.herdTagRec.pmc
          · split
            · exact e23.filterFrame.pmc
            · exact e24.lookupRed_fst

theorem Still.setStaging {a a2} (h : Still s₀ s) : Still s₀ (s.setStaging a a2) := by
  unfold State.setStaging
  exact .ite h.upd.pb h.upd.pb

theorem Still.stageAbort (h : Still s₀ s) : Still s₀ s.stageAbort := by
  unfold State.stageAbort
  exact h.inc.raw

theorem Still.stageWrite {a v} (h : Still s₀ s) : Still s₀ (s.stageWrite a v) := by
  unfold State.stageWrite
  split
  · exact h
  · extract_lets x0
    split
    · exact h.setStaging
    · exact .ite h.setStaging h.stageAbort.setStaging

theorem Still.commit {a v} (h : Still s₀ s) : Still s₀ (s.commit a v) := by
  unfold State.commit
  extract_lets x0 x1 x2 x3 x4 x5 x6 x7 x8 x9 x10 x11 x12 x13 x14
  have e15 : Still s₀ x2 := by
    unfold x2
    split
    · exact .ite h h.stageAbort
    · exact h
  have e16 : Still s₀ x3 := e15.setStaging
  have e17 : Still s₀ x5 := by
    unfold x5
    refine .fold (fun t x => ?_) ?_ _
    · have e18 := Still.refl t
      split
      · exact e18.setTw
      · exact e18
    · exact e16
  have e19 : Still s₀ x8 := e17.setTw
  have e20 : Still s₀ x9 := .ite e19.setTw.setTw e19
  have e21 : Still s₀ x12 := e16.accrue
  have e22 : Still s₀ x13 := by
    unfold x13
    refine .fold (fun t x => ?_) ?_ _
    · have e23 := Still.refl t
      split
      · exact e23.setTw
      · exact e23
    · exact e21
  have e24 : Still s₀ x14 := .ite e22.clearCtx e22
  clear_value x2 x3 x5 x8 x9 x12 x13 x14
  exact .ite e20.epochUp (.ite e24.epochUp.poolCheck e24.epochUp)

theorem Still.drainStart (h : Still s₀ s) : Still s₀ s.drainStart := by
  unfold State.drainStart
  extract_lets x0 x1
  exact h.upd.p

theorem Still.drainDone (h : Still s₀ s) : Still s₀ s.drainDone := by
  unfold State.drainDone
  exact .ite h.upd.p.raw h

/-! ### Queues -/

theorem Still.setFwd {a1} (h : Still s₀ s) : Still s₀ (s.setFwd a1) := by
  unfold State.setFwd
  exact h.upd

theorem Still.setFrame {f} (h : Still s₀ s) : Still s₀ (s.setFrame f) := by
  unfold State.setFrame
  exact h.setFwd

theorem Still.setQueue {q l} (h : Still s₀ s) : Still s₀ (s.setQueue q l) := by
  unfold State.setQueue
  exact h.setFwd

theorem Still.usageAdd {n p d} (h : Still s₀ s) : Still s₀ (s.usageAdd n p d) := by
  unfold State.usageAdd
  extract_lets x0
  exact h.setRegN

theorem Still.cellsAdd {a d} (h : Still s₀ s) : Still s₀ (s.cellsAdd a d) := by
  unfold State.cellsAdd
  exact h.setRegN

theorem Still.portXoff {n} (h : Still s₀ s) : Still s₀ (s.portXoff n) := by
  unfold State.portXoff
  extract_lets x0 x1 x2 x3 x4
  have e5 : Still s₀ x3 := h.setFwd
  clear_value x3
  exact e5.p

theorem Still.xoff (h : Still s₀ s) : Still s₀ s.xoff := by
  unfold State.xoff
  extract_lets x0 x1 x2 x3 x4 x5 x6 x7
  have e8 : Still s₀ x4 := h.pb
  have e9 : Still s₀ x5 := .ite e8.raw e8
  have e10 : Still s₀ x7 := .ite e9.setFwd e9
  clear_value x4 x5 x7
  exact .fold (fun t _ => (Still.refl t).portXoff) e10 _

theorem Still.enqueue {f l n} (h : Still s₀ s) : Still s₀ (s.enqueue f l n) := by
  unfold State.enqueue
  extract_lets x0 x1 x2
  have e3 : Still s₀ x1 := .ite h.pmc h
  have e4 : Still s₀ x2 := e3.setQueue
  clear_value x1 x2
  exact e4.cellsAdd.pmc

theorem Still.uncount {c} (h : Still s₀ s) : Still s₀ (s.uncount c) := by
  unfold State.uncount
  split
  · exact h
  · exact .ite h.cellsAdd.cellsAdd h.cellsAdd

theorem Still.handOver {f l a} (h : Still s₀ s) : Still s₀ (s.handOver f l a) := by
  unfold State.handOver
  extract_lets x0 x1 x2 x3
  have e4 : Still s₀ x3 := h.setFrame.pmc
  clear_value x3
  exact .fold (fun t _ => (Still.refl t).enqueue) e4 _

theorem Still.unstall {k l} (h : Still s₀ s) : Still s₀ (s.unstall k l) := by
  induction l generalizing s with
  | nil => exact h.setFwd
  | cons i r ih =>
    unfold State.unstall
    split
    · exact ih h
    · split
      · exact ih h
      · split
        · exact ih h.handOver
        · exact h.setFwd

theorem Still.unstallAll (h : Still s₀ s) : Still s₀ s.unstallAll := by
  unfold State.unstallAll
  exact .ite (.fold (fun t _ => .ite (Still.refl t) (Still.refl t).unstall) h _) h

theorem Still.toManager {f k} (h : Still s₀ s) : Still s₀ (s.toManager f k) := by
  unfold State.toManager
  exact h.unstall

theorem Still.reapFrame {f} (h : Still s₀ s) : Still s₀ (s.reapFrame f) := by
  unfold State.reapFrame
  refine .ite ?_ ?_
  · exact h
  · extract_lets x0 x1
    exact .ite h.setFwd.usageAdd (.ite h.setFrame h)

theorem Still.settle (h : Still s₀ s) : Still s₀ s.settle := by
  unfold State.settle
  exact Still.xoff (Still.unstallAll (.fold (fun t _ => (Still.refl t).reapFrame) h _))

theorem Still.frameRec {typ l a3 port len fcs detail trig} (h : Still s₀ s) : Still s₀ (s.frameRec typ l a3 port len fcs detail trig) := by
  unfold State.frameRec
  extract_lets x0 x1 x2 x3 x4 x5
  split
  · refine .ite ?_ ?_
    · extract_lets x6 x7 x8 x9
      exact h.pushRec
    · exact h
  · exact .ite h.pushRec h

theorem Still.twoStep {f l n a4} (h : Still s₀ s) : Still s₀ (s.twoStep f l n a4) := by
  unfold State.twoStep
  extract_lets x0 x1
  have e2 : Still s₀ x1 := by
    unfold x1
    split
    · exact h.pushStamp
    · exact h
  clear_value x1
  split
  · exact .ite e2.pushStamp e2
  · exact e2

theorem Still.lineUse {n a2 k} (h : Still s₀ s) : Still s₀ (s.lineUse n a2 k) := by
  unfold State.lineUse
  exact h.setFwd

theorem Still.depart {f l n a4 cut late} (h : Still s₀ s) : Still s₀ (s.depart f l n a4 cut late) := by
  unfold State.depart
  extract_lets x0 x1 x2 x3 x4 x5 x6
  have e7 : Still s₀ x3 := h.emit.lineUse
  have e8 : Still s₀ x4 := e7.inc.pmc
  have e9 : Still s₀ x5 := by
    unfold x5
    split
    · exact .ite e8.raw e8
    · exact e8
  have e10 : Still s₀ x6 := e9.frameRec
  clear_value x3 x4 x5 x6
  exact e10.twoStep

theorem Still.departBad {f l n a4 cause zero} (h : Still s₀ s) : Still s₀ (s.departBad f l n a4 cause zero) := by
  unfold State.departBad
  extract_lets x0 x1 x2 x3 x4 x5 x6 x7 x8
  have e9 : Still s₀ x6 := h.emit.lineUse
  have e10 : Still s₀ x7 := e9.inc.pmc
  have e11 : Still s₀ x8 := e10.frameRec
  clear_value x6 x7 x8
  exact e11.twoStep

theorem Still.refuse {n p cause a4} (h : Still s₀ s) : Still s₀ (s.refuse n p cause a4) := by
  unfold State.refuse
  extract_lets x0 x1 x2 x3 x4 x5
  have e6 : Still s₀ x0 := h.inc.raw
  have e7 : Still s₀ x2 := e6.record
  have e8 : Still s₀ x5 := e7.setFwd
  clear_value x0 x2 x5
  exact .ite e8.fault e8

theorem Still.addFrame {f} (h : Still s₀ s) : Still s₀ (s.addFrame f) := by
  unfold State.addFrame
  exact h.setFwd

theorem Still.receive {n a2 b} (h : Still s₀ s) : Still s₀ (s.receive n a2 b) := by
  unfold State.receive
  refine .ite ?_ ?_
  · exact h
  · extract_lets x0 x1 x2 x3 x4
    have e5 : Still s₀ x0 := h.inc
    clear_value x0
    exact .ite e5 (.ite (.ite e5.addFrame e5.refuse) (.ite e5.refuse (.ite e5.refuse e5.addFrame.usageAdd.xoff)))

theorem Still.dropCopies_fst {i} (h : Still s₀ s) : Still s₀ (s.dropCopies i).1 :=
  Still.setFwd (.fold (fun t _ => (Still.refl t).uncount) h _)

theorem Still.endSending {n} (h : Still s₀ s) : Still s₀ (s.endSending n) := by
  unfold State.endSending
  exact h.setFwd

theorem Still.finish {f l zero} (h : Still s₀ s) : Still s₀ (s.finish f l zero) := by
  unfold State.finish
  extract_lets x0 x1 x2 x3 x4 x5 x6 x7
  have e8 : Still s₀ x2 := .fold (fun t _ => (Still.refl t).depart.endSending.cellsAdd) h _
  have e9 : Still s₀ x3 := .ite e8.learnFrom e8
  have e10 : Still s₀ x4.1 := h.dropCopies_fst
  have e11 : Still s₀ x5 := e10.setFrame
  have e12 : Still s₀ x6 := .ite e11 e11.inc.raw
  clear_value x2 x3 x4 x5 x6
  split
  · exact e9.frameRec
  · extract_lets x13 x14 x15
    have e16 : Still s₀ x13 := .fold (fun t _ => (Still.refl t).departBad.endSending.cellsAdd) e12 _
    have e17 : Still s₀ x14 := e16.inc.raw
    have e18 : Still s₀ x15 := .ite e12 e17.note
    clear_value x13 x14 x15
    exact e18.frameRec

theorem Still.frameLookup {n} (h : Still s₀ s) : Still s₀ (s.frameLookup n) := by
  unfold State.frameLookup
  split
  · exact h
  · refine .ite ?_ ?_
    · exact h
    · extract_lets x0 x1 x2
      have e3 : Still s₀ x2 := .ite h.usageAdd h
      clear_value x2
      split
      · rename_i y4 y5 y6 y7
        have e8 : Still s₀ y5 := Still.ofFst y7 (Still.lookup_fst e3)
        extract_lets x9 x10 x11 x12
        have e13 : Still s₀ x10 := e8.setFrame
        have e14 : Still s₀ x11 := .ite e13 e13.toManager
        have e15 : Still s₀ x12 := by
          unfold x12
          split
          · exact .ite e14.finish e14
          · exact e14
        clear_value x10 x11 x12
        exact e15.settle

theorem Still.trim {f} (h : Still s₀ s) : Still s₀ (s.trim f) := by
  unfold State.trim
  extract_lets x0 x1 x2 x3 x4
  have e5 : Still s₀ x4 := .fold (fun t _ => (Still.refl t).cellsAdd) h _
  clear_value x4
  exact .ite h.setFrame e5.setFrame.usageAdd

theorem Still.judgeEnd {f zero} (h : Still s₀ s) : Still s₀ (s.judgeEnd f zero) := by
  unfold State.judgeEnd
  extract_lets x0
  have e1 : Still s₀ x0 := h.trim
  clear_value x0
  split
  · split
    · exact e1.finish.settle
    · exact e1.settle
  · exact e1

theorem Still.judgeEnds (h : Still s₀ s) : Still s₀ s.judgeEnds := by
  unfold State.judgeEnds
  refine .fold (fun t x => ?_) ?_ _
  · have e0 := Still.refl t
    split
    · exact e0.judgeEnd
    · exact e0
  · exact h

theorem Still.frameEnd {n e corr} (h : Still s₀ s) : Still s₀ (s.frameEnd n e corr) := by
  unfold State.frameEnd
  split
  · exact h
  · extract_lets x0 x1 x2 x3 x4 x5
    have e6 : Still s₀ x4 := by
      unfold x4
      clear_value x0
      split
      · rename_i y7 y8
        exact h.satAdd
      · rename_i y9
        exact h.inc.raw
      · rename_i y10 y11 y12
        exact h
    have e13 : Still s₀ x5 := .ite e6.satAdd e6
    clear_value x4 x5
    exact .ite e13.judgeEnd e13.setFrame

theorem Still.spillFull {b} (h : Still s₀ s) : Still s₀ (s.spillFull b) := by
  unfold State.spillFull
  exact h.pb.cond

theorem Still.spillShow (h : Still s₀ s) : Still s₀ s.spillShow := by
  unfold State.spillShow
  exact .ite h.spillFull h

theorem Still.agedRec {c mem} (h : Still s₀ s) : Still s₀ (s.agedRec c mem) := by
  unfold State.agedRec
  split
  · exact h
  · split
    · exact h
    · refine .ite ?_ ?_
      · extract_lets x0 x1 x2
        exact h.record
      · exact h

theorem Still.ageOut {c mem} (h : Still s₀ s) : Still s₀ (s.ageOut c mem) := by
  unfold State.ageOut
  extract_lets x0 x1 x2 x3
  have e4 : Still s₀ x0 := h.agedRec
  have e5 : Still s₀ x1 := e4.uncount
  have e6 : Still s₀ x2 := e5.inc.raw
  have e7 : Still s₀ x3 := .ite e6.raw e6
  clear_value x0 x1 x2 x3
  exact e7.pmc

theorem Still.ageHeads {q l} (h : Still s₀ s) : Still s₀ (s.ageHeads q l) := by
  induction l generalizing s with
  | nil => exact h.setQueue
  | cons c r ih => exact .ite (ih h.ageOut) h.setQueue

theorem Still.ageScan (h : Still s₀ s) : Still s₀ s.ageScan := by
  unfold State.ageScan
  exact .ite (Still.spillShow (Still.settle (.fold (fun t _ => (Still.refl t).ageHeads) h _))) h

theorem Still.spillList_fst {keep hd l} (h : Still s₀ s) : Still s₀ (s.spillList keep hd l).1 := by
  induction l generalizing s hd with
  | nil => exact h
  | cons c r ih =>
    unfold State.spillList
    repeat' split
    all_goals first
      | exact h.spillFull
      | (rename_i e; exact Still.ofFst e (ih h))
      | (rename_i e; exact Still.ofFst e (ih h.cellsAdd.cellsAdd.cellsAdd.spillFull.pmc))
      | (extract_lets; split; rename_i e; exact Still.ofFst e (ih h.cellsAdd.cellsAdd.cellsAdd.spillFull.pmc))
      | exact h

theorem Still.spillWrite {q} (h : Still s₀ s) : Still s₀ (s.spillWrite q) := by
  unfold State.spillWrite
  extract_lets x0 x1
  refine .ite ?_ ?_
  · split
    · rename_i y2 y3 y4 y5
      have e6 : Still s₀ y3 := Still.ofFst y5 (Still.spillList_fst h)
      exact e6.setQueue.settle
  · exact h

theorem Still.readCopy {q head c r f} (h : Still s₀ s) : Still s₀ (s.readCopy q head c r f) := by
  unfold State.readCopy
  extract_lets x0 x1
  have e2 : Still s₀ x1 := h.uncount
  clear_value x1
  clear_value x0
  split
  · rename_i y3
    exact h
  · rename_i y4 y5
    extract_lets x6
    have e7 : Still s₀ x6 := e2.setFrame.cellsAdd
    clear_value x6
    exact e7.setQueue.pmc.spillShow

theorem Still.spillRead {q a2} (h : Still s₀ s) : Still s₀ (s.spillRead q a2) := by
  unfold State.spillRead
  extract_lets x0 x1 x2 x3
  have e4 : Still s₀ x3 := by
    unfold x3
    split
    · rename_i y5
      exact h.inc.raw
    · exact h
  clear_value x3
  split
  · exact h
  · refine .ite ?_ ?_
    · exact h
    · extract_lets x6 x7
      have e8 : Still s₀ x7 := .fold (fun t _ => (Still.refl t).ageOut) e4 _
      clear_value x7
      split
      · exact e8.setQueue.fault.settle.spillShow
      · exact e4.readCopy.settle
      · exact e4

theorem Still.stallReached (h : Still s₀ s) : Still s₀ s.stallReached := by
  unfold State.stallReached
  exact .ite h h.setFwd.raw.xoff

theorem Still.pfcSend {n} (h : Still s₀ s) : Still s₀ (s.pfcSend n) := by
  unfold State.pfcSend
  extract_lets x0 x1 x2 x3 x4 x5
  have e6 : Still s₀ x3 := h.setFwd
  have e7 : Still s₀ x4 := e6.emit
  have e8 : Still s₀ x5 := e7.inc.pmc
  clear_value x3 x4 x5
  exact .ite e8 e8.inc

theorem Still.pfcTx {n} (h : Still s₀ s) : Still s₀ (s.pfcTx n) := by
  unfold State.pfcTx
  exact .ite h.pfcSend h

theorem Still.pfcRefresh {n} (h : Still s₀ s) : Still s₀ (s.pfcRefresh n) := by
  unfold State.pfcRefresh
  exact .ite h.pfcSend h

theorem Still.pfcRx {n b} (h : Still s₀ s) : Still s₀ (s.pfcRx n b) := by
  unfold State.pfcRx
  refine .ite ?_ ?_
  · extract_lets x0 x1 x2 x3 x4 x5
    have e6 : Still s₀ x3 := .ite h.inc h
    clear_value x3
    exact e6.p
  · exact h

theorem Still.pauseEnd {n p} (h : Still s₀ s) : Still s₀ (s.pauseEnd n p) := by
  unfold State.pauseEnd
  exact h.p

theorem Still.dramTrained {bad} (h : Still s₀ s) : Still s₀ (s.dramTrained bad) := by
  unfold State.dramTrained
  exact .ite h.p.p (.fold (fun t _ => (Still.refl t).fault) h _)

end Sys2Proof.Machine
end

