-- ==== Sys2Proof/Laws/StillHerd.lean ====
section
/-! SUPPORT. What each operation of the Herd and egress may do to the state: one lemma per operation, in the
terms of Sys2Proof/Laws/Keeps.lean. -/

set_option Elab.async false

namespace Sys2Proof.Machine

variable {s₀ s t u : State}

/-! ### Clamp -/

/-! ### Herd -/

theorem Still.setCal {n l} (h : Still s₀ s) : Still s₀ (s.setCal n l) := by
  unfold State.setCal
  extract_lets x0 x1 x2 x3 x4 x5 x6
  have e7 : Still s₀ x1 := h.setFwd
  have e8 : Still s₀ x4 := .ite e7.setFwd e7
  have e9 : Still s₀ x5 := e8.p
  have e10 : Still s₀ x6 := e9.p
  clear_value x1 x4 x5 x6
  exact e10.p

theorem Still.setPass {n l} (h : Still s₀ s) : Still s₀ (s.setPass n l) := by
  unfold State.setPass
  exact h.setFwd

theorem Still.lateRec {c l i reason outcome} (h : Still s₀ s) : Still s₀ (s.lateRec c l i reason outcome) := by
  unfold State.lateRec
  extract_lets x0 x1 x2 x3
  have e4 : Still s₀ x3 := h.drawn
  clear_value x3
  exact .ite (.ite e4.record e4) e4.record

theorem Still.lateJudge {c reason} (h : Still s₀ s) : Still s₀ (s.lateJudge c reason) := by
  unfold State.lateJudge
  split
  · exact h
  · extract_lets x0 x1 x2 x3 x4 x5 x6 x7 x8 x9 x10
    have e11 : Still s₀ x2 := h.inc.raw
    have e12 : Still s₀ x3 := e11.setReg
    have e13 : Still s₀ x5 := e12.setTw
    have e14 : Still s₀ x6 := e13.pmc.lateRec
    have e15 : Still s₀ x9 := e14.setFwd.raw
    have e16 : Still s₀ x10 := .ite (.ite e15.fault e15) e14
    clear_value x2 x3 x5 x6 x9 x10
    exact .ite e16.setPass e16.inc.raw

theorem Still.claimRemove {c} (h : Still s₀ s) : Still s₀ (s.claimRemove c) := by
  unfold State.claimRemove
  split
  · exact h
  · exact h.inc.raw.lateRec

theorem Still.placeCopy {f l i n} (h : Still s₀ s) : Still s₀ (s.placeCopy f l i n) := by
  unfold State.placeCopy
  extract_lets x0 x1 x2 x3 x4 x5 x6 x7 x8 x9 x10 x11 x12 x13
  have e14 : Still s₀ x4 := h.setFwd
  have e15 : Still s₀ x8 := e14.setTw
  have e16 : Still s₀ x13 := e15.setTw.pmc
  clear_value x4 x8 x13
  exact .ite e15.claimRemove (.ite e15.lateJudge e16.setCal)

theorem Still.herdPlace (h : Still s₀ s) : Still s₀ s.herdPlace := by
  unfold State.herdPlace
  split
  · exact h
  · split
    · exact h
    · split
      · exact h
      · exact .ite h (Still.settle (Still.setFrame (.fold (fun t _ => (Still.refl t).placeCopy) h _)))

theorem Still.calDepart_getD {n a2} (h : Still s₀ s) : Still s₀ ((s.calDepart n a2).getD s) := by
  unfold State.calDepart
  split
  · rw [Option.getD_none]
    exact h
  · split
    · rw [Option.getD_some]
      exact h.setCal
    · extract_lets x0 x1 x2 x3 x4 x5 x6 x7
      have e8 : Still s₀ x2 := h.setCal
      have e9 : Still s₀ x4 := .ite e8 e8.inc.pmc
      have e10 : Still s₀ x7 := e9.setFwd
      clear_value x2 x4 x7
      split
      · rw [Option.getD_none]
        exact h
      · split
        · rw [Option.getD_some]
          exact e8.claimRemove.settle
        · split
          · rw [Option.getD_some]
            exact e8.lateJudge.settle
          · rw [Option.getD_some]
            exact e10.depart.settle

theorem Still.herdDecision {n a2} (h : Still s₀ s) : Still s₀ (s.herdDecision n a2) := by
  unfold State.herdDecision
  exact h.calDepart_getD

theorem Still.herdRestartPort {n kept l} (h : Still s₀ s) : Still s₀ (s.herdRestartPort n kept l) := by
  induction l generalizing s kept with
  | nil => exact h.setCal
  | cons c r ih => exact .ite (ih h.lateJudge) (ih h)

theorem Still.herdRestart (h : Still s₀ s) : Still s₀ s.herdRestart := by
  unfold State.herdRestart
  exact Still.settle (.fold (fun t _ => (Still.refl t).herdRestartPort) h _)

theorem Still.herdClaimLost (h : Still s₀ s) : Still s₀ s.herdClaimLost := by
  unfold State.herdClaimLost
  refine Still.settle ?_
  refine .fold (fun t x => ?_) ?_ _
  · have e0 := Still.refl t
    refine .ite ?_ ?_
    · extract_lets x1
      exact .ite e0 (Still.setPass (Still.setCal (.fold (fun t _ => (Still.refl t).claimRemove) e0 _)))
    · exact e0
  · exact h

theorem Still.admitPort {l n} (h : Still s₀ s) : Still s₀ (s.admitPort l n) := by
  unfold State.admitPort
  extract_lets x0 x1 x2 x3 x4 x5 x6 x7
  have e8 : Still s₀ x3 := h.p
  have e9 : Still s₀ x4 := e8.pb
  have e10 : Still s₀ x6 := e9.setFwd
  have e11 : Still s₀ x7 := e10.cond
  clear_value x3 x4 x6 x7
  exact .ite e11.fault e11

theorem Still.herdSweep (h : Still s₀ s) : Still s₀ s.herdSweep := by
  unfold State.herdSweep
  extract_lets x0
  exact .fold (fun t _ => (Still.refl t).admitPort) h _

/-! ### Egress -/

theorem Still.addReady {k b st desc} (h : Still s₀ s) : Still s₀ (s.addReady k b st desc) := by
  unfold State.addReady
  exact h.upd

theorem Still.select_fst {n k} (h : Still s₀ s) : Still s₀ (s.select n k).1 := by
  induction k generalizing s with
  | zero => exact h
  | succ k ih =>
    unfold State.select
    split
    · exact h
    · split
      · exact ih h.ageOut.setQueue
      · exact h

theorem Still.startOrdinary {n a2} (h : Still s₀ s) : Still s₀ (s.startOrdinary n a2) := by
  unfold State.startOrdinary
  split
  · rename_i y0 y1 y2
    have e3 : Still s₀ y1 := Still.ofFst y2 (Still.select_fst h)
    exact e3.settle
  · rename_i y4 y5 y6 y7
    have e8 : Still s₀ y5 := Still.ofFst y7 (Still.select_fst h)
    split
    · exact e8.settle
    · split
      · exact e8.settle
      · refine .ite ?_ ?_
        · exact e8.settle
        · extract_lets x9 x10
          have e11 : Still s₀ x9 := e8.setQueue
          clear_value x9
          exact .ite e11.uncount.depart.settle e11.setFwd

theorem Still.servePass_getD {n a2} (h : Still s₀ s) : Still s₀ ((s.servePass n a2).getD s) := by
  unfold State.servePass
  split
  · rw [Option.getD_none]
    exact h
  · split
    · rw [Option.getD_some]
      exact h.setPass
    · extract_lets x0
      have e1 : Still s₀ x0 := h.inc.raw
      clear_value x0
      split
      · rw [Option.getD_none]
        exact h
      · split
        · rw [Option.getD_some]
          exact h.setPass.claimRemove.settle
        · split
          · rw [Option.getD_some]
            exact h
          · rw [Option.getD_some]
            exact e1.setPass.depart.settle

theorem Still.egressSelect {n a2} (h : Still s₀ s) : Still s₀ (s.egressSelect n a2) := by
  unfold State.egressSelect
  extract_lets x0
  split
  · rename_i y1 y2 y3
    have e4 : Still s₀ y2 := Still.ofGetD y3 (Still.calDepart_getD h)
    exact e4
  · refine .ite ?_ ?_
    · exact h
    · split
      · rename_i y5 y6 y7
        have e8 : Still s₀ y6 := Still.ofGetD y7 (Still.servePass_getD h)
        exact e8
      · exact h.startOrdinary

theorem Still.hostDeliver (h : Still s₀ s) : Still s₀ s.hostDeliver := by
  unfold State.hostDeliver
  refine .ite ?_ ?_
  · exact h
  · split
    · rename_i y0 y1 y2
      have e3 : Still s₀ y1 := Still.ofFst y2 (Still.select_fst h)
      exact e3.settle
    · rename_i y4 y5 y6 y7
      have e8 : Still s₀ y5 := Still.ofFst y7 (Still.select_fst h)
      split
      · exact e8.settle
      · split
        · exact e8.settle
        · extract_lets x9 x10 x11
          have e12 : Still s₀ x9 := e8.setQueue
          have e13 : Still s₀ x11 := e12.uncount.addReady.pmc
          clear_value x9 x11
          exact e13.frameRec.settle

theorem Still.hostIngest {desc mem} (h : Still s₀ s) : Still s₀ (s.hostIngest desc mem) := by
  unfold State.hostIngest
  extract_lets x0 x1 x2 x3 x4 x5 x6 x7 x8 x9 x10 x11 x12 x13
  refine .ite ?_ ?_
  · exact h
  · refine .ite ?_ ?_
    · exact h.addReady
    · refine .ite ?_ ?_
      · exact h
      · refine .ite ?_ ?_
        · refine .ite ?_ ?_
          · exact h.addReady
          · refine .ite ?_ ?_
            · exact h.inc.raw.addReady
            · split
              · exact h
              · exact h.addFrame.usageAdd.handOver.addReady.settle
        · exact h.addFrame.usageAdd.addReady.xoff

theorem Still.mgmtRx {n} (h : Still s₀ s) : Still s₀ (s.mgmtRx n) := by
  unfold State.mgmtRx
  split
  · exact h
  · split
    · exact h
    · refine .ite ?_ ?_
      · exact h.setFrame.ptpDiscard.settle
      · extract_lets x0
        split
        · exact h
        · exact h.setFrame.handOver.settle

end Sys2Proof.Machine
end

