-- ==== Sys2Proof/Laws/StillPair.lean ====
section
/-! SUPPORT. What each operation of the pair, Guyline and the links may do to the state: one lemma per operation, in the
terms of Sys2Proof/Laws/Keeps.lean. -/

set_option Elab.async false

namespace Sys2Proof.Machine

variable {s₀ s t u : State}

/-! ### Rut -/

theorem Still.setGuy {g} (h : Still s₀ s) : Still s₀ (s.setGuy g) := by
  unfold State.setGuy
  exact h.upd

theorem Still.setRut {r} (h : Still s₀ s) : Still s₀ (s.setRut r) := by
  unfold State.setRut
  exact h.upd

theorem Still.guyMessages_fst {l} (h : Still s₀ s) : Still s₀ (s.guyMessages l).1 := by
  induction l generalizing s with
  | nil => exact h
  | cons x r ih => exact ih h.setGuy

theorem Still.guyPut {l} (h : Still s₀ s) : Still s₀ (s.guyPut l) :=
  .ite (.fold (fun t _ => (Still.refl t).emit) h.guyMessages_fst _) h

theorem Still.guySend {c payload} (h : Still s₀ s) : Still s₀ (s.guySend c payload) := by
  unfold State.guySend
  exact h.guyPut

theorem Still.setWire {f} (h : Still s₀ s) : Still s₀ (s.setWire f) := by
  unfold State.setWire
  exact .ite h.emit h

theorem Still.setPairState {n} (h : Still s₀ s) : Still s₀ (s.setPairState n) := by
  unfold State.setPairState
  exact h.p

theorem Still.mirrorOver (h : Still s₀ s) : Still s₀ s.mirrorOver := by
  unfold State.mirrorOver
  extract_lets x0 x1 x2 x3
  have e4 : Still s₀ x3 := h.pb.cond
  clear_value x3
  exact .ite e4.fault e4

theorem Still.claimRec {code before partnerBefore} (h : Still s₀ s) : Still s₀ (s.claimRec code before partnerBefore) := by
  unfold State.claimRec
  exact h.note

theorem Still.setHigher {b} (h : Still s₀ s) : Still s₀ (s.setHigher b) := by
  unfold State.setHigher
  refine .ite ?_ ?_
  · exact h
  · extract_lets x0 x1 x2 x3 x4 x5
    have e6 : Still s₀ x1 := h.pb
    have e7 : Still s₀ x2 := e6.raw.claimRec
    have e8 : Still s₀ x3 := e7.inc.raw
    have e9 : Still s₀ x4 := by
      unfold x4
      split
      · exact e8.setRegN
      · exact e8.setReg.drawn
    clear_value x1 x2 x3 x4
    exact .ite (.ite e9.setRut e7) e6.raw.claimRec.herdClaimLost

theorem Still.rutRefresh (h : Still s₀ s) : Still s₀ s.rutRefresh := by
  unfold State.rutRefresh
  extract_lets x0 x1 x2 x3 x4 x5 x6 x7 x8 x9
  have e10 : Still s₀ x4 := h.setRegN.setRegN
  have e11 : Still s₀ x6 := e10.setRut.claimRec
  have e12 : Still s₀ x7 := .ite e10 (.ite e11 e11.setWire)
  have e13 : Still s₀ x8 := .ite e12 e12.claimRec
  have e14 : Still s₀ x9 := e13.mirrorOver
  clear_value x4 x6 x7 x8 x9
  exact .ite e14.setHigher (.ite e14 e14.setHigher)

theorem Still.becomeHigher (h : Still s₀ s) : Still s₀ s.becomeHigher := by
  unfold State.becomeHigher
  exact .ite h.setHigher h

theorem Still.applyTimeRecord {l} (h : Still s₀ s) : Still s₀ (s.applyTimeRecord l) := by
  unfold State.applyTimeRecord
  extract_lets x0 x1 x2 x3 x4 x5 x6 x7 x8
  have e9 : Still s₀ x0 := h.setPair
  have e10 : Still s₀ x2 := e9.upd
  have e11 : Still s₀ x3 := e10.setPair
  have e12 : Still s₀ x4 := e11.setRegN.setRegN.setRegN
  have e13 : Still s₀ x6 := e12.setHld
  have e14 : Still s₀ x7 := e13.p
  have e15 : Still s₀ x8 := by
    unfold x8
    refine .fold (fun t x => ?_) ?_ _
    · have e16 := Still.refl t
      extract_lets x17 x18
      exact e16.setRegN.setHld
    · exact e14
  clear_value x0 x2 x3 x4 x6 x7 x8
  exact e15.showTempOut.supplyRate.afterModel

theorem Still.setWords {a b l} (h : Still s₀ s) : Still s₀ (s.setWords a b l) := by
  induction l generalizing s with
  | nil => exact h
  | cons i r ih => exact ih h.setRegN

theorem Still.batchApply (h : Still s₀ s) : Still s₀ s.batchApply := by
  unfold State.batchApply
  split
  · exact h
  · refine .ite ?_ ?_
    · extract_lets x0 x1 x2 x3
      have e4 : Still s₀ x1 := h.applyTimeRecord
      have e5 : Still s₀ x2 := by
        unfold x2
        refine .fold (fun t x => ?_) ?_ _
        · have e6 := Still.refl t
          extract_lets x7 x8
          exact e6.accrue.setWords
        · exact e4
      clear_value x1 x2
      exact e5.setRut.setRegN
    · exact h

theorem Still.takeover (h : Still s₀ s) : Still s₀ s.takeover := by
  unfold State.takeover
  extract_lets x0 x1 x2 x3 x4 x5 x6 x7
  have e8 : Still s₀ x0 := h.batchApply
  have e9 : Still s₀ x4 := .ite e8.fault e8
  have e10 : Still s₀ x6 := e9.setPairState.p
  clear_value x0 x4 x6
  exact e10.setRut

theorem Still.toStandby {epoch} (h : Still s₀ s) : Still s₀ (s.toStandby epoch) := by
  unfold State.toStandby
  exact h.setPairState.p.setRut

theorem Still.demote (h : Still s₀ s) : Still s₀ s.demote := by
  unfold State.demote
  extract_lets x0 x1 x2 x3 x4
  have e5 : Still s₀ x1 := h.toStandby
  have e6 : Still s₀ x2 := .ite e5.setPairState e5
  have e7 : Still s₀ x3 := e6.p.raw
  clear_value x1 x2 x3
  exact e7.setRut

theorem Still.pairRules (h : Still s₀ s) : Still s₀ s.pairRules := by
  unfold State.pairRules
  extract_lets x0
  split
  · exact h
  · extract_lets x1
    exact .ite h (.ite (.ite (.ite h h.setRut.raw.fault) (.ite h.toStandby (.ite h.takeover (.ite h.setPairState.setRut h)))) (.ite (.ite h.takeover h) (.ite (.ite h.demote h) h)))

theorem Still.pairEval (h : Still s₀ s) : Still s₀ s.pairEval := by
  unfold State.pairEval
  exact h.pairRules.rutRefresh

theorem Still.discardCopy {kind} (h : Still s₀ s) : Still s₀ (s.discardCopy kind) := by
  unfold State.discardCopy
  exact h.inc.raw

theorem Still.discardIncomplete (h : Still s₀ s) : Still s₀ s.discardIncomplete := by
  unfold State.discardIncomplete
  extract_lets x0 x1 x2
  have e3 : Still s₀ x0 := .ite h.discardCopy h
  have e4 : Still s₀ x1 := .ite e3.discardCopy e3
  clear_value x0 x1
  exact e4.setRut

theorem Keeps.mirrorRx {p} (h : Keeps s₀ s) : Keeps s₀ (s.mirrorRx p) := by
  unfold State.mirrorRx
  extract_lets x0 x1 x2 x3 x4 x5
  have e6 : Keeps s₀ x4 := h.dramWrite
  clear_value x4
  exact .ite h (e6.andThen (Still.refl _).setRut)

theorem Keeps.ckptRx {p} (h : Keeps s₀ s) : Keeps s₀ (s.ckptRx p) := by
  unfold State.ckptRx
  extract_lets x0 x1 x2 x3 x4 x5 x6
  have e7 : Keeps s₀ x5 := h.dramWrite
  clear_value x5
  exact .ite h (e7.andThen (Still.refl _).setRut)

theorem Still.commitRx {p} (h : Still s₀ s) : Still s₀ (s.commitRx p) := by
  unfold State.commitRx
  extract_lets x0 x1 x2 x3 x4 x5 x6
  have e7 : Still s₀ x1 := h
  have e8 : Still s₀ x3 := h.setRut
  have e9 : Still s₀ x5 := h.setRut
  clear_value x1 x3 x5
  refine .ite ?_ ?_
  · exact h
  · refine .ite ?_ ?_
    · split
      · exact .ite e8.setRut.p e8.discardCopy
      · exact e8.discardCopy
    · split
      · exact .ite e9.setRut.setRegN.p e9.discardCopy
      · exact e9.discardCopy

theorem Still.hbFail (h : Still s₀ s) : Still s₀ s.hbFail := by
  unfold State.hbFail
  refine .ite ?_ ?_
  · exact h
  · extract_lets x0 x1 x2 x3 x4 x5 x6 x7
    have e8 : Still s₀ x1 := h.p.raw.inc
    have e9 : Still s₀ x2 := e8.fault
    have e10 : Still s₀ x3 := e9.discardIncomplete
    have e11 : Still s₀ x5 := e10.setRut
    have e12 : Still s₀ x7 := .ite e11.setRut.takeover (.ite e11.setRut e11)
    clear_value x1 x2 x3 x5 x7
    exact e12.rutRefresh

theorem Still.pairLinkDown (h : Still s₀ s) : Still s₀ s.pairLinkDown := by
  unfold State.pairLinkDown
  exact h.setRut.hbFail

theorem Still.heartbeatRx {p} (h : Still s₀ s) : Still s₀ (s.heartbeatRx p) := by
  unfold State.heartbeatRx
  extract_lets x0 x1 x2 x3 x4
  have e5 : Still s₀ x3 := h.setRut
  have e6 : Still s₀ x4 := e5.p.p
  clear_value x3 x4
  exact .ite e6.pairEval h

theorem Still.claimRx {p} (h : Still s₀ s) : Still s₀ (s.claimRx p) := by
  unfold State.claimRx
  exact h.setRut.pairEval

theorem Still.heartbeatTx (h : Still s₀ s) : Still s₀ s.heartbeatTx := by
  unfold State.heartbeatTx
  exact .ite h.guySend h

theorem Still.claimTx (h : Still s₀ s) : Still s₀ s.claimTx := by
  unfold State.claimTx
  exact .ite h.guySend h

theorem Still.wireStale (h : Still s₀ s) : Still s₀ s.wireStale := by
  unfold State.wireStale
  refine .ite ?_ ?_
  · extract_lets x0 x1 x2 x3
    have e4 : Still s₀ x0 := h.p.raw
    have e5 : Still s₀ x2 := e4.setRut
    have e6 : Still s₀ x3 := .ite e5.takeover e5
    clear_value x0 x2 x3
    exact e6.pairEval
  · exact h.setRut

theorem Still.wireRx {f} (h : Still s₀ s) : Still s₀ (s.wireRx f) := by
  unfold State.wireRx
  extract_lets x0
  split
  · exact h.setRut
  · exact .ite h.setRut.p.pairEval h.setRut

theorem Still.pairEnable (h : Still s₀ s) : Still s₀ s.pairEnable := by
  unfold State.pairEnable
  refine .ite ?_ ?_
  · extract_lets x0 x1 x2 x3 x4
    have e5 : Still s₀ x1 := .ite h.p.raw h
    have e6 : Still s₀ x3 := e5.setRut
    have e7 : Still s₀ x4 := e6.setPairState
    clear_value x1 x3 x4
    exact e7.setWire.rutRefresh.pairEval
  · exact h

theorem Still.pairDisable (h : Still s₀ s) : Still s₀ s.pairDisable := by
  unfold State.pairDisable
  refine .ite ?_ ?_
  · exact h
  · extract_lets x0 x1 x2
    have e3 : Still s₀ x0 := h.setPairState.p
    have e4 : Still s₀ x2 := e3.setRut
    clear_value x0 x2
    exact e4.setWire.rutRefresh

theorem Still.rutCtrlAct (h : Still s₀ s) : Still s₀ s.rutCtrlAct := by
  unfold State.rutCtrlAct
  exact .ite h.pairEnable h.pairDisable

theorem Still.initWait (h : Still s₀ s) : Still s₀ s.initWait := by
  unfold State.initWait
  exact .ite (.ite h.toStandby.rutRefresh h.takeover.rutRefresh) h

theorem Still.pairHand {scan} (h : Still s₀ s) : Still s₀ (s.pairHand scan) := by
  unfold State.pairHand
  extract_lets x0 x1
  exact .ite h.p.setRut h.raw.fault

theorem Still.handOverCmd (h : Still s₀ s) : Still s₀ s.handOverCmd := by
  unfold State.handOverCmd
  exact .ite h.pairHand h

theorem Still.release (h : Still s₀ s) : Still s₀ s.release := by
  unfold State.release
  refine .ite ?_ ?_
  · extract_lets x0
    have e1 : Still s₀ x0 := h.toStandby
    clear_value x0
    exact e1.claimRec.pairEval
  · exact h

theorem Still.rutCmdAct {v} (h : Still s₀ s) : Still s₀ (s.rutCmdAct v) := by
  unfold State.rutCmdAct
  extract_lets x0
  have e1 : Still s₀ x0 := .ite h.release h
  clear_value x0
  exact .ite e1.handOverCmd e1

theorem Still.scanFailOver_fst (h : Still s₀ s) : Still s₀ s.scanFailOver.1 := by
  unfold State.scanFailOver
  extract_lets x0
  have e1 : Still s₀ x0 := h.setPairState
  clear_value x0
  split
  · exact h.pairHand
  · split
    · exact e1.claimRec
    · exact h

theorem Still.sendCopy {c kind ident o l} (h : Still s₀ s) : Still s₀ (s.sendCopy c kind ident o l) := by
  unfold State.sendCopy
  extract_lets x0 x1
  exact h.guyPut

theorem Still.accrueAll (h : Still s₀ s) : Still s₀ s.accrueAll := by
  unfold State.accrueAll
  exact .fold (fun t _ => (Still.refl t).accrue) h _

theorem Still.mirrorStart (h : Still s₀ s) : Still s₀ s.mirrorStart := by
  unfold State.mirrorStart
  refine .ite ?_ ?_
  · extract_lets x0 x1 x2 x3
    have e4 : Still s₀ x0 := h.accrueAll
    clear_value x0
    exact e4.setRut.sendCopy
  · exact h

theorem Still.ckptStart (h : Still s₀ s) : Still s₀ s.ckptStart := by
  unfold State.ckptStart
  refine .ite ?_ ?_
  · extract_lets x0 x1 x2 x3
    have e4 : Still s₀ x0 := h.accrueAll
    clear_value x0
    exact e4.setRut.sendCopy
  · exact h

theorem Still.applyCheckpoint {b} (h : Still s₀ s) : Still s₀ (s.applyCheckpoint b) := by
  unfold State.applyCheckpoint
  extract_lets x0 x1 x2 x3 x4 x5
  have e6 : Still s₀ x0 := .fold (fun t _ => .ite (Still.refl t) (Still.refl t).setWords) h _
  have e7 : Still s₀ x1 := .fold (fun t _ => (Still.refl t).accrue.setWords.epochUp) e6 _
  have e8 : Still s₀ x2 := by
    unfold x2
    refine .fold (fun t x => ?_) ?_ _
    · have e9 := Still.refl t
      extract_lets x10 x11
      have e12 : Still t x11 := e9.setWords
      clear_value x11
      exact e12.setTw.epochUp
    · exact e7
  have e13 : Still s₀ x3 := e8.poolCheck.applyTimeRecord
  clear_value x0 x1 x2 x3
  exact e13.setHld.setRing

theorem Still.ckptApplied (h : Still s₀ s) : Still s₀ s.ckptApplied := by
  unfold State.ckptApplied
  refine .ite ?_ ?_
  · extract_lets x0 x1
    have e2 : Still s₀ x0 := by
      unfold x0
      split
      · exact h.applyCheckpoint
      · exact h
    clear_value x0
    exact e2.setRut.pairEval
  · exact h

/-! ### Guyline -/

theorem Still.setGuyState {n} (h : Still s₀ s) : Still s₀ (s.setGuyState n) := by
  unfold State.setGuyState
  exact h.p

theorem Still.laneBit {f l b} (h : Still s₀ s) : Still s₀ (s.laneBit f l b) := by
  unfold State.laneBit
  exact h.p

theorem Still.setGuyPd {tx st d} (h : Still s₀ s) : Still s₀ (s.setGuyPd tx st d) := by
  unfold State.setGuyPd
  exact h.setGuy

theorem Still.guyPdRefresh (h : Still s₀ s) : Still s₀ s.guyPdRefresh := by
  unfold State.guyPdRefresh
  refine .fold (fun t x => ?_) ?_ _
  · have e0 := Still.refl t
    extract_lets x1
    exact .ite (.ite e0.setGuyPd e0) e0.setGuyPd
  · exact h

theorem Still.guyPdSample {tx raw} (h : Still s₀ s) : Still s₀ (s.guyPdSample tx raw) := by
  unfold State.guyPdSample
  extract_lets x0 x1 x2 x3 x4 x5 x6
  exact .ite h (.ite h.setGuyPd (.ite h.setGuyPd h.setGuyPd))

theorem Still.guyPdGap (h : Still s₀ s) : Still s₀ s.guyPdGap := by
  unfold State.guyPdGap
  exact .fold (fun t _ => .ite (Still.refl t) (Still.refl t).setGuyPd) h _

theorem Still.guyLeaveUp {host marker} (h : Still s₀ s) : Still s₀ (s.guyLeaveUp host marker) := by
  unfold State.guyLeaveUp
  extract_lets x0 x1 x2 x3 x4 x5 x6 x7 x8
  have e9 : Still s₀ x4 := h.raw.inc
  have e10 : Still s₀ x5 := e9.cond
  have e11 : Still s₀ x7 := e10.setGuy
  have e12 : Still s₀ x8 := .ite e11 e11.fault
  clear_value x4 x5 x7 x8
  exact e12.pairLinkDown

theorem Still.guyEval (h : Still s₀ s) : Still s₀ s.guyEval := by
  unfold State.guyEval
  extract_lets x0
  exact .ite (.ite h.setGuyState h) (.ite h.setGuyState.guyLeaveUp (.ite h.setGuyState h))

theorem Still.laneChange (h : Still s₀ s) : Still s₀ s.laneChange := by
  unfold State.laneChange
  exact h.guyEval.guyPdRefresh

theorem Still.laneDetect {f l b} (h : Still s₀ s) : Still s₀ (s.laneDetect f l b) := by
  unfold State.laneDetect
  extract_lets x0 x1
  have e2 : Still s₀ x0 := h.laneBit
  have e3 : Still s₀ x1 := .ite e2.laneBit e2
  clear_value x0 x1
  exact e3.laneChange

theorem Still.blockLock {l gained compl} (h : Still s₀ s) : Still s₀ (s.blockLock l gained compl) := by
  unfold State.blockLock
  exact .ite h.laneBit.laneChange (.ite h (.ite (.ite h.laneBit.raw.laneBit.laneChange h) h.laneBit.laneBit.laneChange))

theorem Still.guyMarkers (h : Still s₀ s) : Still s₀ s.guyMarkers := by
  unfold State.guyMarkers
  exact .ite (.fold (fun t _ => (Still.refl t).emit) h _) h

theorem Still.guyEnable (h : Still s₀ s) : Still s₀ s.guyEnable := by
  unfold State.guyEnable
  refine .ite ?_ ?_
  · extract_lets x0
    have e1 : Still s₀ x0 := h.setGuyState
    clear_value x0
    exact e1.guyMarkers.laneChange
  · exact h

theorem Still.guyDisable (h : Still s₀ s) : Still s₀ s.guyDisable := by
  unfold State.guyDisable
  extract_lets x0 x1
  have e2 : Still s₀ x1 := h.setGuyState
  clear_value x1
  exact Still.guyPdRefresh (.ite e2.guyLeaveUp e2)

theorem Still.guyCtrlAct (h : Still s₀ s) : Still s₀ s.guyCtrlAct := by
  unfold State.guyCtrlAct
  exact .ite h.guyEnable h.guyDisable

theorem Still.markerRx {l} (h : Still s₀ s) : Still s₀ (s.markerRx l) := by
  unfold State.markerRx
  extract_lets x0 x1 x2 x3 x4 x5 x6 x7
  have e8 : Still s₀ x0 := h.guyEval
  have e9 : Still s₀ x2 := e8.setRegN
  have e10 : Still s₀ x4 := e9.setGuy
  have e11 : Still s₀ x5 := e10.setRegN.guyPdRefresh
  have e12 : Still s₀ x6 := e11.setGuyState.raw
  clear_value x0 x2 x4 x5 x6
  exact .ite (.ite (.ite e12.setGuy e11) (.ite e9.setGuyState.raw.guyLeaveUp e9)) e8

theorem Still.alignTimeout (h : Still s₀ s) : Still s₀ s.alignTimeout := by
  unfold State.alignTimeout
  exact .ite h.setGuyState.inc h

theorem Still.streamError {code lanes} (h : Still s₀ s) : Still s₀ (s.streamError code lanes) := by
  unfold State.streamError
  extract_lets x0 x1 x2 x3 x4
  have e5 : Still s₀ x0 := .ite h.inc h.inc
  have e6 : Still s₀ x2 := e5.raw.setGuy
  clear_value x0 x2
  exact .ite e6.setGuy.fault e6

theorem Still.guyDeliver {c m f} (h : Still s₀ s) (hf : ∀ q p, Still s₀ (f q p)) : Still s₀ (s.guyDeliver c m f) := by
  unfold State.guyDeliver
  refine .ite ?_ h
  split
  · exact hf _ _
  · exact h.streamError

theorem Still.timeTx {a1} (h : Still s₀ s) : Still s₀ (s.timeTx a1) := by
  unfold State.timeTx
  refine .ite ?_ ?_
  · extract_lets x0 x1 x2 x3 x4 x5
    have e6 : Still s₀ x5 := h.setGuy
    clear_value x5
    exact e6.guySend
  · exact h

theorem Still.timeRx {t2 q p} (h : Still s₀ s) : Still s₀ (s.timeRx t2 q p) := by
  unfold State.timeRx
  extract_lets x0 x1 x2 x3 x4 x5 x6 x7 x8 x9
  have e10 : Still s₀ x4 := by
    unfold x4
    clear_value x1
    split
    · rename_i y11 y12 y13 y14
      refine .ite ?_ ?_
      · extract_lets x16
        exact h.setPairI.offsetSeen
      · exact h
    · rename_i y15
      exact h
  have e17 : Still s₀ x6 := e10.p
  have e18 : Still s₀ x7 := e17.p.p
  have e19 : Still s₀ x9 := e18.cond.setGuy
  clear_value x4 x6 x7 x9
  exact e19.setBarred

theorem Still.timeStale (h : Still s₀ s) : Still s₀ s.timeStale := by
  unfold State.timeStale
  exact .ite h.cond h

/-! ### Links -/

theorem Still.showLock {n b signal} (h : Still s₀ s) : Still s₀ (s.showLock n b signal) := by
  unfold State.showLock
  extract_lets x0 x1
  have e2 : Still s₀ x0 := h.pb.pb
  have e3 : Still s₀ x1 := e2.pb
  clear_value x0 x1
  exact e3.pb

theorem Still.lockLost {n signal} (h : Still s₀ s) : Still s₀ (s.lockLost n signal) := by
  unfold State.lockLost
  refine .ite ?_ ?_
  · extract_lets x0
    have e1 : Still s₀ x0 := h.showLock.raw
    clear_value x0
    exact e1.pdRefreshBoth.clearWindow.ptpLockLost
  · exact h.pb

theorem Still.lockGained {n} (h : Still s₀ s) : Still s₀ (s.lockGained n) := by
  unfold State.lockGained
  refine .ite ?_ ?_
  · extract_lets x0
    have e1 : Still s₀ x0 := h.showLock.raw
    clear_value x0
    exact e1.pdRefreshBoth.ptpLockGained
  · exact h

theorem Still.copyFactory {n} (h : Still s₀ s) : Still s₀ (s.copyFactory n) := by
  unfold State.copyFactory
  extract_lets x0
  exact h.setReg.setReg

theorem Still.macCfgAct {n old} (h : Still s₀ s) : Still s₀ (s.macCfgAct n old) := by
  unfold State.macCfgAct
  refine .ite ?_ ?_
  · exact h
  · extract_lets x0 x1 x2
    have e3 : Still s₀ x0 := .ite h h.copyFactory
    have e4 : Still s₀ x1 := e3.p
    have e5 : Still s₀ x2 := e4.pdModeChange.tightEval.clearWindow.ptpLdCheck
    clear_value x0 x1 x2
    exact .ite e5 e5.lockLost

theorem Still.setLane {n b} (h : Still s₀ s) : Still s₀ (s.setLane n b) := by
  unfold State.setLane
  extract_lets x0 x1 x2
  have e3 : Still s₀ x2 := h.setSyn
  clear_value x2
  exact .ite e3.pb.pdRefreshBoth.tightEval e3

theorem Still.truncate {n k} (h : Still s₀ s) : Still s₀ (s.truncate n k) := by
  unfold State.truncate
  extract_lets x0
  have e1 : Still s₀ x0 := h.note
  clear_value x0
  split
  · exact e1.emit
  · extract_lets x2
    have e3 : Still s₀ x2 := by
      unfold x2
      split
      · extract_lets x4
        have e5 : Still s₀ x4 := e1.endSending.cellsAdd
        clear_value x4
        split
        · exact e5.emit.inc
        · exact e5
      · exact e1.endSending
    clear_value x2
    exact e3.emit

theorem Still.laneUnlock {n sent} (h : Still s₀ s) : Still s₀ (s.laneUnlock n sent) := by
  unfold State.laneUnlock
  refine .ite ?_ ?_
  · extract_lets x0 x1 x2 x3
    have e4 : Still s₀ x1 := h.setSyn
    have e5 : Still s₀ x2 := by
      unfold x2
      split
      · rename_i y6 y7
        exact e4.truncate
      · rename_i y8
        exact e4
    have e9 : Still s₀ x3 := e5.setLane.lockLost.gate
    clear_value x1 x2 x3
    exact .ite e9.raw.fault.settle e4.setLane.gate.laneDetect
  · exact h

end Sys2Proof.Machine
end

