-- ==== Sys2Proof/Laws/StillJournal.lean ====
section
/-! SUPPORT. What each operation of the journal, the time-to-digital converters and the IO pads may do to the state: one lemma per operation, in the
terms of Sys2Proof/Laws/Keeps.lean. -/

set_option Elab.async false

namespace Sys2Proof.Machine

variable {s₀ s t u : State}

/-! ### Spoor -/

theorem Still.sprStatus (h : Still s₀ s) : Still s₀ s.sprStatus := by
  unfold State.sprStatus
  extract_lets x0 x1 x2 x3 x4
  have e5 : Still s₀ x3 := h.pb
  have e6 : Still s₀ x4 := e5.pb.cond
  clear_value x3 x4
  exact e6.cond

theorem Still.sprEnable (h : Still s₀ s) : Still s₀ s.sprEnable := by
  unfold State.sprEnable
  extract_lets x0 x1
  have e2 : Still s₀ x1 := h.upd
  clear_value x1
  exact e2.p.sprStatus

theorem Still.sprDisable (h : Still s₀ s) : Still s₀ s.sprDisable := by
  unfold State.sprDisable
  exact h.p

theorem Still.sprCtrlAct {old} (h : Still s₀ s) : Still s₀ (s.sprCtrlAct old) := by
  unfold State.sprCtrlAct
  extract_lets x0 x1
  exact .ite h.sprEnable (.ite h.sprDisable h)

theorem Still.sprPartition (h : Still s₀ s) : Still s₀ s.sprPartition := by
  unfold State.sprPartition
  exact h.setRegN.setRegN

theorem dramWrite_spr {a l} : (s.dramWrite a l).spr = s.spr := by
  induction l generalizing s a with
  | nil => rfl
  | cons b r ih => exact ih

theorem Keeps.recordWrite (h : Keeps s₀ s) : Keeps s₀ s.recordWrite := by
  unfold State.recordWrite
  split
  · exact h
  · next r l e =>
    refine .ite ?_ h
    refine h.dramWrite.andThen (Still.sprStatus (Still.setPair ((Still.refl _).shorterFifo ?_)))
    rw [dramWrite_spr, e]
    exact Nat.le_succ _

theorem Still.lossRecord (h : Still s₀ s) : Still s₀ s.lossRecord := by
  unfold State.lossRecord
  refine .ite ?_ ?_
  · extract_lets x0 x1 x2 x3
    have e4 : Still s₀ x2 := h.record
    clear_value x2
    exact e4.upd.p
  · exact h

theorem Still.sprFire (h : Still s₀ s) : Still s₀ s.sprFire := by
  unfold State.sprFire
  exact h.fire

theorem Still.sprRearm (h : Still s₀ s) : Still s₀ s.sprRearm := by
  unfold State.sprRearm
  exact .ite h.p.p h

theorem Still.sprFetch (h : Still s₀ s) : Still s₀ s.sprFetch := by
  unfold State.sprFetch
  exact .ite h h.upd.p

theorem Still.sprCmdAct {v} (h : Still s₀ s) : Still s₀ (s.sprCmdAct v) := by
  unfold State.sprCmdAct
  extract_lets x0 x1
  have e2 : Still s₀ x0 := .ite h.sprRearm h
  have e3 : Still s₀ x1 := .ite e2.sprFire e2
  clear_value x0 x1
  exact .ite e3.sprFetch e3

theorem Still.fetchDone (h : Still s₀ s) : Still s₀ s.fetchDone := by
  unfold State.fetchDone
  refine .ite ?_ ?_
  · extract_lets x0 x1 x2 x3 x4
    have e5 : Still s₀ x3 := .fold (fun t _ => (Still.refl t).setRegN) h _
    have e6 : Still s₀ x4 := e5.p.p
    clear_value x3 x4
    exact e6.raw
  · exact h

theorem Still.pinTrig {fall ns} (h : Still s₀ s) : Still s₀ (s.pinTrig fall ns) := by
  unfold State.pinTrig
  exact .ite h.fire h

theorem Still.sprFreeze (h : Still s₀ s) : Still s₀ s.sprFreeze :=
  .ite (Still.raw (Still.p (Still.setFifo h.satAdd (Nat.zero_le _)))) h

theorem Still.journalBuffer {desc idle} (h : Still s₀ s) : Still s₀ (s.journalBuffer desc idle) := by
  unfold State.journalBuffer
  extract_lets x0 x1 x2 x3 x4 x5 x6 x7 x8 x9 x10 x11
  exact .ite h (.ite h.addReady.setPair.sprStatus h)

/-! ### Tdc -/

theorem Still.setChan {e c} (h : Still s₀ s) : Still s₀ (s.setChan e c) := by
  unfold State.setChan
  exact h.upd

theorem Still.setUnit {m a2} (h : Still s₀ s) : Still s₀ (s.setUnit m a2) := by
  unfold State.setUnit
  exact h.upd

theorem Still.statusBit {f e b} (h : Still s₀ s) : Still s₀ (s.statusBit f e b) := by
  unfold State.statusBit
  exact h.p

theorem Still.latch {m freq} (h : Still s₀ s) : Still s₀ (s.latch m freq) := by
  unfold State.latch
  extract_lets x0 x1 x2 x3 x4 x5 x6 x7 x8
  have e9 : Still s₀ x6 := h.setPairI.setPair.setPairI
  have e10 : Still s₀ x7 := e9.setPairI.setRegN
  have e11 : Still s₀ x8 := e10.p
  clear_value x6 x7 x8
  exact e11.setUnit.setRegN.raw

theorem Still.sample {m freq a3} (h : Still s₀ s) : Still s₀ (s.sample m freq a3) := by
  unfold State.sample
  extract_lets x0 x1 x2 x3 x4 x5 x6 x7
  have e8 : Still s₀ x4 := .ite h h.inc
  have e9 : Still s₀ x7 := e8.setUnit.setRegN
  clear_value x4 x7
  exact .ite e9.latch e9

theorem Still.clearBlock {m} (h : Still s₀ s) : Still s₀ (s.clearBlock m) := by
  unfold State.clearBlock
  exact h.setUnit.setRegN

theorem Still.tdcRec {kind e start sub value w6 w7 time seg gap trig} (h : Still s₀ s) : Still s₀ (s.tdcRec kind e start sub value w6 w7 time seg gap trig) := by
  unfold State.tdcRec
  refine .ite ?_ ?_
  · extract_lets x0
    exact h.record
  · exact h

theorem Still.windowEvent {m c} (h : Still s₀ s) : Still s₀ (s.windowEvent m c) := by
  unfold State.windowEvent
  refine .ite ?_ ?_
  · exact h
  · extract_lets x0 x1 x2 x3
    have e4 : Still s₀ x2 := h.inc.raw
    have e5 : Still s₀ x3 := e4.tdcRec
    clear_value x2 x3
    exact .ite e5.fire e5

theorem Still.result {m freq a3} (h : Still s₀ s) : Still s₀ (s.result m freq a3) := by
  unfold State.result
  extract_lets x0 x1 x2
  have e3 : Still s₀ x0 := h.setPairI
  have e4 : Still s₀ x1 := .ite e3.windowEvent e3
  have e5 : Still s₀ x2 := .ite e4.windowEvent e4
  clear_value x0 x1 x2
  exact e5.sample

theorem Still.stop {m w a3 seg} (h : Still s₀ s) : Still s₀ (s.stop m w a3 seg) := by
  unfold State.stop
  extract_lets x0 x1 x2 x3 x4 x5 x6 x7 x8
  have e9 : Still s₀ x5 := h.setUnit
  have e10 : Still s₀ x8 := e9.tdcRec
  clear_value x5 x8
  exact .ite h (.ite e9 e10.result)

theorem Still.dropWin {m} (h : Still s₀ s) : Still s₀ (s.dropWin m) := by
  unfold State.dropWin
  exact h.setUnit.p

theorem Still.windowClose {m} (h : Still s₀ s) : Still s₀ (s.windowClose m) := by
  unfold State.windowClose
  split
  · exact h
  · refine .ite ?_ ?_
    · exact h
    · extract_lets x0 x1 x2 x3 x4 x5 x6 x7 x8 x9 x10
      have e11 : Still s₀ x2 := .ite h.windowEvent h
      have e12 : Still s₀ x3 := .ite e11.windowEvent e11
      have e13 : Still s₀ x5 := e12.drawn.drawn
      have e14 : Still s₀ x7 := e13.tdcRec
      have e15 : Still s₀ x8 := .ite e14.result e12
      have e16 : Still s₀ x9 := .ite e15.windowEvent e15
      have e17 : Still s₀ x10 := .ite e16.windowEvent e16
      clear_value x2 x3 x5 x7 x8 x9 x10
      exact e17.dropWin

theorem Still.windowEnd {m c} (h : Still s₀ s) : Still s₀ (s.windowEnd m c) := by
  unfold State.windowEnd
  split
  · exact h
  · exact h.windowEvent.dropWin

theorem Still.openWindow {m a2} (h : Still s₀ s) : Still s₀ (s.openWindow m a2) := by
  unfold State.openWindow
  extract_lets x0 x1 x2 x3 x4 x5 x6 x7 x8 x9
  have e10 : Still s₀ x6 := h.setUnit
  have e11 : Still s₀ x8 := e10.p.p
  have e12 : Still s₀ x9 := by
    unfold x9
    split
    · exact .ite e11.windowEvent e11
    · exact e11
  clear_value x6 x8 x9
  refine .fold (fun t x => ?_) ?_ _
  · have e13 := Still.refl t
    split
    · exact e13.stop
    · exact e13
  · exact e12

theorem Still.windowStart {m} (h : Still s₀ s) : Still s₀ (s.windowStart m) := by
  unfold State.windowStart
  split
  · exact h
  · refine .ite ?_ ?_
    · exact h
    · extract_lets x0 x1 x2
      have e3 : Still s₀ x1 := h.setUnit
      clear_value x1
      refine .ite ?_ ?_
      · exact e3
      · split
        · exact e3.openWindow
        · exact .ite e3.windowClose.openWindow e3.windowEvent

theorem Still.giveStart {ch a2} (h : Still s₀ s) : Still s₀ (s.giveStart ch a2) := by
  unfold State.giveStart
  exact .fold (fun t _ => .ite (Still.refl t).setUnit (Still.refl t)) h _

theorem Still.chanOut {e} (h : Still s₀ s) : Still s₀ (s.chanOut e) := by
  unfold State.chanOut
  exact .fold (fun t _ => .ite (Still.refl t).windowEnd (Still.refl t)) h _

theorem Still.chanStatus {e} (h : Still s₀ s) : Still s₀ (s.chanStatus e) := by
  unfold State.chanStatus
  extract_lets x0 x1 x2 x3 x4 x5 x6 x7
  have e8 : Still s₀ x5 := h.pb.pb.pb
  have e9 : Still s₀ x6 := e8.statusBit
  have e10 : Still s₀ x7 := e9.setRegN.setRegN
  clear_value x5 x6 x7
  exact .ite e10.chanOut e10

theorem Still.edgeLost {e a2} (h : Still s₀ s) : Still s₀ (s.edgeLost e a2) := by
  unfold State.edgeLost
  extract_lets x0 x1
  have e2 : Still s₀ x1 := h.setChan
  clear_value x1
  refine .fold (fun t x => ?_) ?_ _
  · have e3 := Still.refl t
    split
    · exact .ite e3.setUnit e3
    · exact e3
  · exact e2

theorem Still.tdcEdge {e rise code since hold} (h : Still s₀ s) : Still s₀ (s.tdcEdge e rise code since hold) := by
  unfold State.tdcEdge
  extract_lets x0 x1 x2 x3 x4 x5 x6 x7
  have e8 : Still s₀ x2 := h.pb
  have e9 : Still s₀ x4 := .ite e8.pb.statusBit.chanStatus e8
  have e10 : Still s₀ x7 := e9.setChan
  clear_value x2 x4 x7
  refine .ite ?_ ?_
  · exact e8
  · split
    · exact e9
    · extract_lets x11
      exact .ite e10.inc.raw.edgeLost (.ite e10 (.ite e10.inc.raw.edgeLost (.ite e10.inc.raw.setChan e10.setChan)))

theorem Still.pushEvent {e a2} (h : Still s₀ s) : Still s₀ (s.pushEvent e a2) := by
  unfold State.pushEvent
  extract_lets x0
  exact .ite h (.ite h.setChan.p h.inc.raw)

theorem Still.popEvent {e} (h : Still s₀ s) : Still s₀ (s.popEvent e) := by
  unfold State.popEvent
  split
  · exact h
  · exact h.setChan.p

theorem Still.tdcConvert {e} (h : Still s₀ s) : Still s₀ (s.tdcConvert e) := by
  unfold State.tdcConvert
  extract_lets x0
  split
  · exact h
  · refine .ite ?_ ?_
    · exact h
    · extract_lets x1 x2 x3 x4 x5 x6
      have e7 : Still s₀ x2 := h.setChan
      have e8 : Still s₀ x3 := e7.setReg
      have e9 : Still s₀ x4 := e8.pushEvent
      have e10 : Still s₀ x5 := e9.tdcRec
      have e11 : Still s₀ x6 := by
        unfold x6
        refine .fold (fun t x => ?_) ?_ _
        · have e12 := Still.refl t
          split
          · exact .ite e12.stop e12
          · exact e12
        · exact e10
      clear_value x2 x3 x4 x5 x6
      exact e11.giveStart

theorem Still.calibrate {e} (h : Still s₀ s) : Still s₀ (s.calibrate e) := by
  unfold State.calibrate
  exact h.setChan.chanStatus

theorem Still.calDone {e b s1 s2} (h : Still s₀ s) : Still s₀ (s.calDone e b s1 s2) := by
  unfold State.calDone
  extract_lets x0 x1 x2 x3 x4 x5 x6 x7 x8 x9 x10 x11 x12 x13
  have e14 : Still s₀ x8 := h.setChan
  have e15 : Still s₀ x9 := .ite e14 e14.raw
  have e16 : Still s₀ x10 := .ite e15 (.ite e15.pb (.ite e15.pb e15))
  have e17 : Still s₀ x12 := e16.setChan
  have e18 : Still s₀ x13 := .ite e17.fault e17
  clear_value x8 x9 x10 x12 x13
  exact .ite h e18.chanStatus

theorem Still.swap {e at_} (h : Still s₀ s) : Still s₀ (s.swap e at_) := by
  unfold State.swap
  extract_lets x0 x1 x2 x3 x4 x5 x6 x7 x8 x9
  have e10 : Still s₀ x8 := h.setChan.pb
  have e11 : Still s₀ x9 := e10.p.chanStatus
  clear_value x8 x9
  refine .ite ?_ ?_
  · exact h
  · split
    · exact .fold (fun t _ => .ite (Still.refl t).windowEvent (Still.refl t)) e11 _
    · exact e11

theorem Still.tdcStuck {e} (h : Still s₀ s) : Still s₀ (s.tdcStuck e) := by
  unfold State.tdcStuck
  extract_lets x0 x1 x2
  exact .ite h h.pb.statusBit.raw.chanStatus

theorem Still.tdcInterval {e} (h : Still s₀ s) : Still s₀ (s.tdcInterval e) := by
  unfold State.tdcInterval
  extract_lets x0 x1 x2
  have e3 : Still s₀ x1 := h.setChan
  have e4 : Still s₀ x2 := e3.pb.statusBit
  clear_value x1 x2
  exact .ite h (.ite e4.raw.fault.chanStatus e3)

theorem Still.tdcRearm {v} (h : Still s₀ s) : Still s₀ (s.tdcRearm v) := by
  unfold State.tdcRearm
  exact .fold (fun t _ => .ite (Still.refl t).pb.statusBit.calibrate (Still.refl t)) h _

theorem Still.chanStop {e} (h : Still s₀ s) : Still s₀ (s.chanStop e) := by
  unfold State.chanStop
  exact h.setChan.chanStatus

theorem Still.tdcCfgAct {e old} (h : Still s₀ s) : Still s₀ (s.tdcCfgAct e old) := by
  unfold State.tdcCfgAct
  extract_lets x0 x1 x2 x3 x4
  have e5 : Still s₀ x4 := h.chanStop
  clear_value x4
  exact .ite (.ite h.chanStop h) (.ite (.ite e5.calibrate e5) h)

theorem Still.tdcCtrlAct {old} (h : Still s₀ s) : Still s₀ (s.tdcCtrlAct old) := by
  unfold State.tdcCtrlAct
  extract_lets x0 x1 x2
  have e3 : Still s₀ x2 := .fold (fun t _ => (Still.refl t).setUnit.dropWin.clearBlock) h _
  clear_value x2
  exact .ite (.fold (fun t _ => .ite (Still.refl t).calibrate (Still.refl t)) h _) (.ite (.fold (fun t _ => (Still.refl t).chanStop) e3 _) h)

theorem Still.unitCfgAct {m} (h : Still s₀ s) : Still s₀ (s.unitCfgAct m) := by
  unfold State.unitCfgAct
  exact h.setUnit.dropWin.clearBlock

theorem Still.tdcStep (h : Still s₀ s) : Still s₀ s.tdcStep := by
  unfold State.tdcStep
  refine .fold (fun t x => ?_) ?_ _
  · have e0 := Still.refl t
    split
    · exact e0.setUnit
    · exact e0
  · exact h

theorem Still.tdcGap (h : Still s₀ s) : Still s₀ s.tdcGap := by
  unfold State.tdcGap
  extract_lets x0 x1
  have e2 : Still s₀ x0 := .ite h.raw h
  have e3 : Still s₀ x1 := .fold (fun t _ => (Still.refl t).windowEnd) e2 _
  clear_value x0 x1
  exact .fold (fun t _ => .ite (Still.refl t).calibrate (Still.refl t)) e3 _

/-! ### Iop -/

theorem Still.pinCount (h : Still s₀ s) : Still s₀ s.pinCount := by
  unfold State.pinCount
  exact h.p

theorem Still.pinOnset {p b ev} (h : Still s₀ s) : Still s₀ (s.pinOnset p b ev) := by
  unfold State.pinOnset
  extract_lets x0 x1 x2
  have e3 : Still s₀ x1 := h.p
  have e4 : Still s₀ x2 := .ite e3 e3.raw.fault
  clear_value x1 x2
  exact .ite h e4.pinCount

theorem Still.pinRelease {p} (h : Still s₀ s) : Still s₀ (s.pinRelease p) := by
  unfold State.pinRelease
  exact .ite h.p h

theorem Still.pinDeclare {p f} (h : Still s₀ s) : Still s₀ (s.pinDeclare p f) := by
  unfold State.pinDeclare
  exact .ite h.pinOnset.pinRelease h

theorem Still.pinClear {p b} (h : Still s₀ s) : Still s₀ (s.pinClear p b) := by
  unfold State.pinClear
  exact h.p.pinCount

theorem Still.restartCand {k} (h : Still s₀ s) : Still s₀ (s.restartCand k) := by
  unfold State.restartCand
  extract_lets x0 x1
  have e2 : Still s₀ x0 := h.disqualify
  clear_value x0
  exact e2.setCand.showCand.refreshJudging

theorem Still.pinInvert {p b} (h : Still s₀ s) : Still s₀ (s.pinInvert p b) := by
  unfold State.pinInvert
  extract_lets x0 x1 x2 x3
  have e4 : Still s₀ x1 := h.pb
  have e5 : Still s₀ x2 := .ite e4.raw e4
  have e6 : Still s₀ x3 := e5.chanStop
  clear_value x1 x2 x3
  exact .ite h (.ite e5.restartCand (.ite (.ite e6.calibrate e6) e5))

theorem Still.pinReversed {p} (h : Still s₀ s) : Still s₀ (s.pinReversed p) := by
  unfold State.pinReversed
  refine .ite ?_ ?_
  · extract_lets x0
    have e1 : Still s₀ x0 := h.pinOnset
    clear_value x0
    exact .ite e1.pinInvert e1
  · exact h

theorem Still.pinCfgAct {p} (h : Still s₀ s) : Still s₀ (s.pinCfgAct p) := by
  unfold State.pinCfgAct
  extract_lets x0
  have e1 : Still s₀ x0 := .ite h.pinInvert (.ite h.pinInvert h)
  clear_value x0
  exact e1.pinCount

theorem Still.iopCtrlAct (h : Still s₀ s) : Still s₀ s.iopCtrlAct := by
  unfold State.iopCtrlAct
  extract_lets x0 x1
  have e2 : Still s₀ x0 := .ite h (.fold (fun t _ => (Still.refl t).setReg) h _)
  have e3 : Still s₀ x1 := .fold (fun t _ => .ite (Still.refl t).pinRelease (Still.refl t).p) e2 _
  clear_value x0 x1
  exact e3.pinCount

theorem Still.shortRetest {n gone} (h : Still s₀ s) : Still s₀ (s.shortRetest n gone) := by
  unfold State.shortRetest
  exact .ite h.p h

theorem Still.dieTemp {raw code} (h : Still s₀ s) : Still s₀ (s.dieTemp raw code) := by
  unfold State.dieTemp
  extract_lets x0 x1 x2 x3 x4 x5 x6
  have e7 : Still s₀ x1 := h.p
  have e8 : Still s₀ x2 := e7.p.p
  have e9 : Still s₀ x3 := e8.showTempOut
  have e10 : Still s₀ x6 := e9.pb.cond
  clear_value x1 x2 x3 x6
  exact .ite e10.fault e10

theorem Still.pmcSnap (h : Still s₀ s) : Still s₀ s.pmcSnap := by
  unfold State.pmcSnap
  extract_lets x0 x1
  have e2 : Still s₀ x0 := by
    unfold x0
    refine .fold (fun t x => ?_) ?_ _
    · have e3 := Still.refl t
      extract_lets x4
      exact e3.setPair
    · exact h
  have e5 : Still s₀ x1 := e2.setRegN
  clear_value x0 x1
  exact e5.setPair.raw

theorem Still.pmcClear (h : Still s₀ s) : Still s₀ s.pmcClear := by
  unfold State.pmcClear
  exact Still.setRegN (.fold (fun t _ => (Still.refl t).setPair) h _)

theorem Still.pmcSnapAct {v} (h : Still s₀ s) : Still s₀ (s.pmcSnapAct v) := by
  unfold State.pmcSnapAct
  extract_lets x0
  have e1 : Still s₀ x0 := .ite h.pmcSnap h
  clear_value x0
  exact .ite e1.pmcClear e1

theorem Still.pmcSelAct {g k old} (h : Still s₀ s) : Still s₀ (s.pmcSelAct g k old) := by
  unfold State.pmcSelAct
  refine .ite ?_ ?_
  · exact h
  · extract_lets x0
    have e1 : Still s₀ x0 := h.setPair
    clear_value x0
    exact e1.setRegN

theorem Still.pmcWrap {g j} (h : Still s₀ s) : Still s₀ (s.pmcWrap g j) := by
  unfold State.pmcWrap
  exact .ite h.pmcAdd h

end Sys2Proof.Machine
end

