-- ==== Sys2Proof/Laws/StillHost.lean ====
section
/-! SUPPORT. What each operation of reads, writes and the host interface may do to the state: one lemma per operation, in the
terms of Sys2Proof/Laws/Keeps.lean. -/

set_option Elab.async false

namespace Sys2Proof.Machine

variable {s₀ s t u : State}

/-! ### BootSeq -/

theorem Still.setBoot {n} (h : Still s₀ s) : Still s₀ (s.setBoot n) := by
  unfold State.setBoot
  exact h.p

theorem Still.bootFail {reason section_ offset} (h : Still s₀ s) : Still s₀ (s.bootFail reason section_ offset) := by
  unfold State.bootFail
  extract_lets x0 x1 x2 x3 x4
  have e5 : Still s₀ x1 := h.p.p
  have e6 : Still s₀ x2 := e5.setRegN.setBoot
  have e7 : Still s₀ x4 := e6.upd
  clear_value x1 x2 x4
  exact e7.raw.fault

theorem Still.bootFailCrc {reason section_ offset stored found} (h : Still s₀ s) : Still s₀ (s.bootFailCrc reason section_ offset stored found) := by
  unfold State.bootFailCrc
  exact h.setRegN.setRegN.bootFail

theorem Still.bootClocksReady (h : Still s₀ s) : Still s₀ s.bootClocksReady := by
  unfold State.bootClocksReady
  exact .ite h.setBoot h

theorem Still.bootDramReady (h : Still s₀ s) : Still s₀ s.bootDramReady := by
  unfold State.bootDramReady
  exact .ite h.setBoot h

theorem Still.bootRetry (h : Still s₀ s) : Still s₀ s.bootRetry := by
  unfold State.bootRetry
  refine .ite ?_ ?_
  · refine .ite ?_ ?_
    · exact h.raw
    · extract_lets x0 x1 x2
      have e3 : Still s₀ x1 := h.p.p
      have e4 : Still s₀ x2 := e3.setRegN.setRegN.setRegN
      clear_value x1 x2
      exact e4.setBoot
  · exact h

theorem Still.flashGo (h : Still s₀ s) : Still s₀ s.flashGo := by
  unfold State.flashGo
  exact .ite h.emit.p h.inc.raw

theorem Still.fillFlashBuf {k l} (h : Still s₀ s) : Still s₀ (s.fillFlashBuf k l) := by
  induction l generalizing s k with
  | nil => exact h
  | cons b r ih => exact ih h.setReg

theorem Still.flashDone {data} (h : Still s₀ s) : Still s₀ (s.flashDone data) := by
  unfold State.flashDone
  refine .ite ?_ ?_
  · extract_lets x0 x1
    have e2 : Still s₀ x1 := .ite h.fillFlashBuf h
    clear_value x1
    exact e2.p.raw
  · exact h

theorem Still.dramCfgAct (h : Still s₀ s) : Still s₀ s.dramCfgAct := by
  unfold State.dramCfgAct
  exact .ite h h.upd

theorem Still.dramInitDone {bad} (h : Still s₀ s) : Still s₀ (s.dramInitDone bad) := by
  unfold State.dramInitDone
  refine .ite ?_ ?_
  · extract_lets x0 x1
    have e2 : Still s₀ x1 := h.upd
    clear_value x1
    exact e2.dramTrained.sprStatus.bootDramReady
  · exact h

/-! ### Reading -/

theorem Still.accessFault {kind src a} (h : Still s₀ s) : Still s₀ (s.accessFault kind src a) := by
  unfold State.accessFault
  extract_lets x0
  have e1 : Still s₀ x0 := h.inc
  clear_value x0
  exact e1.setRegN

theorem Still.accessRaw {src f} (h : Still s₀ s) : Still s₀ (s.accessRaw src f) := by
  unfold State.accessRaw
  exact .ite h h.raw

theorem Still.unmapped {src a} (h : Still s₀ s) : Still s₀ (s.unmapped src a) := by
  unfold State.unmapped
  exact h.accessFault.accessRaw

theorem Still.narrow {src a} (h : Still s₀ s) : Still s₀ (s.narrow src a) := by
  unfold State.narrow
  exact h.accessFault.accessRaw

theorem Still.timedOut {src a} (h : Still s₀ s) : Still s₀ (s.timedOut src a) := by
  unfold State.timedOut
  exact h.accessFault.raw

theorem Still.answer {src a lane len v} (h : Still s₀ s) : Still s₀ (s.answer src a lane len v) := by
  unfold State.answer
  exact h.emit

theorem Still.latchShadow {src a v} (h : Still s₀ s) : Still s₀ (s.latchShadow src a v) := by
  unfold State.latchShadow
  exact h.upd

theorem Still.latchRead {src a} (h : Still s₀ s) : Still s₀ (s.latchRead src a) := by
  unfold State.latchRead
  refine .ite ?_ ?_
  · extract_lets x0
    have e1 : Still s₀ x0 := h.latchShadow
    clear_value x0
    exact .ite e1.latchShadow e1
  · exact h

theorem Still.clearRead {a} (h : Still s₀ s) : Still s₀ (s.clearRead a) := by
  unfold State.clearRead
  refine .ite ?_ ?_
  · exact h
  · extract_lets x0
    have e1 : Still s₀ x0 := h.setReg
    clear_value x0
    exact .ite e1.p e1

theorem Still.readF0 {a lane len} (h : Still s₀ s) : Still s₀ (s.readF0 a lane len) := by
  unfold State.readF0
  extract_lets x0
  have e1 : Still s₀ x0 := h.answer
  clear_value x0
  exact .ite e1.latchRead.clearRead e1

theorem Still.readF1 {a lane len} (h : Still s₀ s) : Still s₀ (s.readF1 a lane len) := by
  unfold State.readF1
  split
  · exact h.unmapped.answer
  · refine .ite ?_ ?_
    · exact h.answer
    · refine .ite ?_ ?_
      · extract_lets x0
        have e1 : Still s₀ x0 := h.answer
        clear_value x0
        split
        · exact .ite (.ite e1.latchRead e1) h.answer
        · exact .ite e1.latchRead e1
      · exact h.answer

theorem Still.readI2c {a lane len} (h : Still s₀ s) : Still s₀ (s.readI2c a lane len) := by
  unfold State.readI2c
  exact h.answer

theorem Still.readWord {src a lane len} (h : Still s₀ s) : Still s₀ (s.readWord src a lane len) := by
  unfold State.readWord
  split
  · exact .ite h.readF0 h.unmapped.answer
  · exact h.readF1
  · exact h.readI2c
  · exact h

/-! ### Writing -/

theorem Still.setScan {n} (h : Still s₀ s) : Still s₀ (s.setScan n) := by
  unfold State.setScan
  exact h.p

theorem Still.scanAccepted (h : Still s₀ s) : Still s₀ s.scanAccepted := by
  unfold State.scanAccepted
  exact .ite h.setScan h

theorem Still.scanCommit (h : Still s₀ s) : Still s₀ s.scanCommit := by
  unfold State.scanCommit
  exact h.setScan

theorem Still.unfreeze (h : Still s₀ s) : Still s₀ s.unfreeze := by
  unfold State.unfreeze
  exact h.p

theorem Still.popFault (h : Still s₀ s) : Still s₀ s.popFault := by
  unfold State.popFault
  split
  · exact h
  · next f l e =>
    refine Still.p (h.trans ⟨⟨id, id, fun k => ?_, id, rfl, List.prefix_refl _, Nat.le_refl _⟩, rfl, rfl, rfl, rfl⟩)
    unfold State.faultsOk at k ⊢
    rw [e] at k
    exact Nat.le_trans (Nat.le_succ _) k

theorem Still.dmaCtrlAct {k old} (h : Still s₀ s) : Still s₀ (s.dmaCtrlAct k old) := by
  unfold State.dmaCtrlAct
  extract_lets x0 x1
  exact .ite h.p (.ite h.p h)

theorem Still.actHif {a old v} (h : Still s₀ s) : Still s₀ (s.actHif a old v) := by
  unfold State.actHif
  refine .ite ?_ ?_
  · extract_lets x0
    have e1 : Still s₀ x0 := .ite h.unfreeze h
    clear_value x0
    exact .ite e1.scanCommit e1
  · exact .ite (.ite h.popFault h) (.ite h.dmaCtrlAct h)

theorem Still.actBoot {a v} (h : Still s₀ s) : Still s₀ (s.actBoot a v) := by
  unfold State.actBoot
  exact .ite (.ite h.bootRetry h) (.ite (.ite h.flashGo h) h)

theorem Still.actTsc {a old v} (h : Still s₀ s) : Still s₀ (s.actTsc a old v) := by
  unfold State.actTsc
  exact .ite h.steerAct.servoSteer (.ite h.supplyHostRate (.ite h.stepCtrlAct (.ite h.tripodCtrlAct (.ite h.injectAct h))))

theorem Still.actRef {a old v} (h : Still s₀ s) : Still s₀ (s.actRef a old v) := by
  unfold State.actRef
  exact .ite h.oscFreqAct.formReady (.ite h.refRearm (.ite h.prioAct (.ite h.judgeAll.refreshJudging.formForced h)))

theorem Still.actHld {a old v} (h : Still s₀ s) : Still s₀ (s.actHld a old v) := by
  unfold State.actHld
  exact .ite h.hldCtrlAct.afterModel (.ite h.refreshModelQual (.ite h.tempAxisAct (.ite h.embCtrlAct h)))

theorem Still.actPts {a v} (h : Still s₀ s) : Still s₀ (s.actPts a v) := by
  unfold State.actPts
  extract_lets x0
  exact .ite h.pdRefreshBoth.tightEval (.ite h.ftempNowAct (.ite h.loopCtrlAct (.ite (.ite h.popStamp h) h)))

theorem Still.actPtp {a old} (h : Still s₀ s) : Still s₀ (s.actPtp a old) := by
  unfold State.actPtp
  exact .ite h.ptpCtrlAct (.ite h.clockIdAct (.ite h.groupEval.chooseServo.servoSteer (.ite h.ptpCfgAct h)))

theorem Still.actPmc {a old v} (h : Still s₀ s) : Still s₀ (s.actPmc a old v) := by
  unfold State.actPmc
  exact .ite h.pmcSnapAct (.ite h.pmcSelAct h)

theorem Still.actFwd {a v} (h : Still s₀ s) : Still s₀ (s.actFwd a v) := by
  unfold State.actFwd
  exact .ite (.ite h.drainStart h) (.ite h.poolCheck (.ite h.lagAct h))

theorem Still.actQue {a} (h : Still s₀ s) : Still s₀ (s.actQue a) := by
  unfold State.actQue
  exact .ite h.dramCfgAct (.ite h.sprPartition.sprStatus.spillShow h.settle)

theorem Still.actSpr {a old v} (h : Still s₀ s) : Still s₀ (s.actSpr a old v) := by
  unfold State.actSpr
  exact .ite h.sprCtrlAct (.ite h.sprCmdAct (.ite h.sprStatus h))

theorem Still.actTdc {a old v} (h : Still s₀ s) : Still s₀ (s.actTdc a old v) := by
  unfold State.actTdc
  exact .ite h.tdcCtrlAct (.ite h.tdcRearm (.ite h.tdcCfgAct (.ite (.ite h.popEvent h) (.ite h.unitCfgAct (.ite h.clearBlock h)))))

theorem Still.actIop {a} (h : Still s₀ s) : Still s₀ (s.actIop a) := by
  unfold State.actIop
  exact .ite h.iopCtrlAct (.ite h.pinCfgAct h)

theorem Still.act {a old v} (h : Still s₀ s) : Still s₀ (s.act a old v) := by
  unfold State.act
  exact .ite h.actHif (.ite h.actBoot (.ite h.actTsc (.ite h.actRef (.ite h.actHld (.ite (.ite h.updateGo (.ite h.stagingAct h)) (.ite h.actPts (.ite h.actPtp (.ite h.actPmc (.ite h.actFwd (.ite h.actQue (.ite (.ite h.herdClaimLost h) (.ite h.actSpr (.ite h.actTdc (.ite (.ite h.guyCtrlAct h) (.ite (.ite h.rutCtrlAct (.ite h.rutCmdAct h)) (.ite h.actIop (.ite h.macCfgAct h)))))))))))))))))

theorem Still.commitPair {lo v} (h : Still s₀ s) : Still s₀ (s.commitPair lo v) := by
  unfold State.commitPair
  extract_lets x0 x1
  have e2 : Still s₀ x1 := h.upd
  clear_value x1
  exact e2.setPair

theorem Still.recIgnored {w why} (h : Still s₀ s) : Still s₀ (s.recIgnored w why) := by
  unfold State.recIgnored
  extract_lets x0 x1
  exact h.record

theorem Still.recAccepted {w after commit clamp} (h : Still s₀ s) : Still s₀ (s.recAccepted w after commit clamp) := by
  unfold State.recAccepted
  extract_lets x0 x1 x2 x3
  exact .ite h.record h

theorem Still.ignoreWrite {w why} (h : Still s₀ s) : Still s₀ (s.ignoreWrite w why) := by
  unfold State.ignoreWrite
  extract_lets x0 x1
  have e2 : Still s₀ x0 := h.accessFault
  have e3 : Still s₀ x1 := .ite e2 e2.accessRaw
  clear_value x0 x1
  exact e3.recIgnored

theorem Still.writeMsix {a v} (h : Still s₀ s) : Still s₀ (s.writeMsix a v) := by
  unfold State.writeMsix
  refine .ite ?_ ?_
  · extract_lets x0 x1
    have e2 : Still s₀ x1 := h.setRegN
    clear_value x1
    exact .ite e2.setRegN.signal e2
  · exact .ite h.setRegN h.setReg

theorem Still.storeWrite {w} (h : Still s₀ s) : Still s₀ (s.storeWrite w) := by
  unfold State.storeWrite
  extract_lets x0 x1 x2 x3 x4 x5 x6 x7 x8
  have e9 : Still s₀ x3 := h.upd
  have e10 : Still s₀ x4 := .ite h.upd h
  have e11 : Still s₀ x5 := .ite e10.commitPair e10.setReg
  have e12 : Still s₀ x7 := e11.act
  have e13 : Still s₀ x8 := .ite e12.scanAccepted e12
  clear_value x3 x4 x5 x7 x8
  exact .ite e9.recAccepted e13.recAccepted

theorem Still.tableWrite {w} (h : Still s₀ s) : Still s₀ (s.tableWrite w) := by
  unfold State.tableWrite
  extract_lets x0 x1 x2
  have e3 : Still s₀ x1 := h.commit.mirrorOver
  clear_value x1
  exact .ite e3.recAccepted h.stageWrite.recAccepted

theorem Still.writeWord {src a v} (h : Still s₀ s) : Still s₀ (s.writeWord src a v) := by
  unfold State.writeWord
  refine .ite ?_ ?_
  · exact h.unmapped
  · extract_lets x0 x1 x2 x3
    have e4 : Still s₀ x1 := .ite h.fire h
    have e5 : Still s₀ x3 := e4.writeMsix
    clear_value x1 x3
    split
    · exact e4.ignoreWrite
    · exact .ite e5.recAccepted (.ite e4.recAccepted (.ite e4.tableWrite (.ite e4.refuseStep e4.storeWrite)))

theorem Still.writeF1 {a} (h : Still s₀ s) : Still s₀ (s.writeF1 a) := by
  unfold State.writeF1
  exact .ite h.inc (.ite h.narrow h.unmapped)

theorem Still.perform {a1} (h : Still s₀ s) : Still s₀ (s.perform a1) := by
  unfold State.perform
  exact .ite (.ite h.writeF1 h.writeWord.clockRecs) h.readWord

theorem Still.deadAccess {a1} (h : Still s₀ s) : Still s₀ (s.deadAccess a1) := by
  unfold State.deadAccess
  extract_lets x0
  have e1 : Still s₀ x0 := h.timedOut
  clear_value x0
  exact .ite e1 e1.answer

theorem Still.access {a1} (h : Still s₀ s) : Still s₀ (s.access a1) := by
  unfold State.access
  refine .ite ?_ ?_
  · exact h.upd
  · extract_lets x0 x1
    exact .ite h.upd (.ite h.deadAccess (.ite h.perform h.upd))

theorem Still.accessAll {l} (h : Still s₀ s) : Still s₀ (s.accessAll l) := by
  unfold State.accessAll
  exact .fold (fun t _ => (Still.refl t).access) h _

theorem Still.resumeHeld (h : Still s₀ s) : Still s₀ s.resumeHeld := by
  unfold State.resumeHeld
  exact h.upd.accessAll.accessAll

theorem Still.readReq {src a len} (h : Still s₀ s) : Still s₀ (s.readReq src a len) := by
  unfold State.readReq
  exact h.accessAll

theorem Still.writeReq {src a whole l} (h : Still s₀ s) : Still s₀ (s.writeReq src a whole l) := by
  unfold State.writeReq
  exact .ite h (.ite (.ite h.accessAll h.writeF1) (.ite h.accessAll h.narrow))

theorem Still.hostWrite {a v} (h : Still s₀ s) : Still s₀ (s.hostWrite a v) := by
  unfold State.hostWrite
  exact h.writeReq

/-! ### HostIf -/

theorem Still.busTimeout {src} (h : Still s₀ s) : Still s₀ (s.busTimeout src) := by
  unfold State.busTimeout
  refine .ite ?_ ?_
  · exact h
  · split
    · exact h
    · extract_lets x0 x1 x2 x3
      have e4 : Still s₀ x2 := h.upd
      have e5 : Still s₀ x3 := e4.deadAccess.fault
      clear_value x2 x3
      exact e5.resumeHeld

theorem Still.liveAgain {d} (h : Still s₀ s) : Still s₀ (s.liveAgain d) := by
  unfold State.liveAgain
  exact .ite h.upd.resumeHeld h

theorem Still.crossingNote {b blockSide} (h : Still s₀ s) : Still s₀ (s.crossingNote b blockSide) := by
  unfold State.crossingNote
  extract_lets x0
  have e1 : Still s₀ x0 := h.inc.raw
  clear_value x0
  exact e1.note

theorem Still.discardCrossing {b src} (h : Still s₀ s) : Still s₀ (s.discardCrossing b src) := by
  unfold State.discardCrossing
  split
  · exact .ite h.upd h
  · exact h

theorem Still.crossingReset {b blockSide} (h : Still s₀ s) : Still s₀ (s.crossingReset b blockSide) := by
  unfold State.crossingReset
  extract_lets x0
  have e1 : Still s₀ x0 := .fold (fun t _ => (Still.refl t).discardCrossing) h _
  clear_value x0
  exact e1.crossingNote.resumeHeld

theorem Still.interruptFn {src} (h : Still s₀ s) : Still s₀ (s.interruptFn src) := by
  unfold State.interruptFn
  extract_lets x0 x1 x2
  have e3 : Still s₀ x2 := h.upd
  clear_value x2
  clear_value x0
  split
  · rename_i y4 y5
    exact e3.crossingNote
  · rename_i y6
    exact e3

theorem Still.interrupt {l} (h : Still s₀ s) : Still s₀ (s.interrupt l) := by
  unfold State.interrupt
  exact .fold (fun t _ => (Still.refl t).interruptFn) h _

theorem Still.resetMsix (h : Still s₀ s) : Still s₀ s.resetMsix := by
  unfold State.resetMsix
  exact Still.setRegN (.fold (fun t _ => (Still.refl t).setReg) h _)

theorem Still.pcieReset (h : Still s₀ s) : Still s₀ s.pcieReset := by
  unfold State.pcieReset
  extract_lets x0 x1
  have e2 : Still s₀ x0 := h.interrupt.resetMsix
  clear_value x0
  exact e2.upd

theorem Still.linkDown (h : Still s₀ s) : Still s₀ s.linkDown := by
  unfold State.linkDown
  exact h.raw.pcieReset

theorem Still.stopRing {k} (h : Still s₀ s) : Still s₀ (s.stopRing k) := by
  unfold State.stopRing
  exact h.p.p

theorem Still.flrF0 (h : Still s₀ s) : Still s₀ s.flrF0 := by
  unfold State.flrF0
  extract_lets x0 x1 x2
  have e3 : Still s₀ x0 := .fold (fun t _ => (Still.refl t).stopRing) h.interrupt _
  have e4 : Still s₀ x2 := e3.upd
  clear_value x0 x2
  exact e4.setRegN.resetMsix

theorem Still.flrF1 (h : Still s₀ s) : Still s₀ s.flrF1 := by
  unfold State.flrF1
  extract_lets x0 x1
  have e2 : Still s₀ x0 := h.interrupt
  clear_value x0
  exact e2.upd

theorem Still.upset {l} (h : Still s₀ s) : Still s₀ (s.upset l) := by
  unfold State.upset
  exact .fold (fun t _ => (Still.refl t).setReg) h _

theorem Still.freeze (h : Still s₀ s) : Still s₀ s.freeze := by
  unfold State.freeze
  exact h.p

theorem Still.scanAction (h : Still s₀ s) : Still s₀ s.scanAction := by
  unfold State.scanAction
  extract_lets x0 x1
  have e2 : Still s₀ x1.1 := h.scanFailOver_fst
  clear_value x1
  exact .ite h.freeze (.ite (.ite e2.freeze e2) h)

theorem Still.scanEnd {crc} (h : Still s₀ s) : Still s₀ (s.scanEnd crc) := by
  unfold State.scanEnd
  extract_lets x0 x1 x2 x3
  have e4 : Still s₀ x1 := h.setRegN
  have e5 : Still s₀ x3 := e4.setScan.raw
  clear_value x1 x3
  exact .ite e4.setRegN.setScan (.ite e5.fault.note.scanAction e4)

theorem Still.scanComplete {l} (h : Still s₀ s) : Still s₀ (s.scanComplete l) := by
  unfold State.scanComplete
  extract_lets x0
  have e1 : Still s₀ x0 := h.upset
  clear_value x0
  exact e1.scanEnd

theorem Still.ringMsg {k} (h : Still s₀ s) : Still s₀ (s.ringMsg k) := by
  unfold State.ringMsg
  exact h.upd.signal

theorem Still.ringVector {k} (h : Still s₀ s) : Still s₀ (s.ringVector k) := by
  unfold State.ringVector
  refine .ite ?_ ?_
  · extract_lets x0 x1 x2
    exact .ite h.ringMsg (.ite h h.upd)
  · exact h

theorem Still.descDone {k done_ st} (h : Still s₀ s) : Still s₀ (s.descDone k done_ st) := by
  unfold State.descDone
  extract_lets x0 x1 x2 x3 x4 x5
  have e6 : Still s₀ x0 := h.emit
  have e7 : Still s₀ x2 := e6.p
  have e8 : Still s₀ x4 := .ite e7 e7.emit
  have e9 : Still s₀ x5 := e8.ringVector
  clear_value x0 x2 x4 x5
  exact .ite e9 e9.p

theorem Still.setReady {k l} (h : Still s₀ s) : Still s₀ (s.setReady k l) := by
  unfold State.setReady
  exact h.upd

theorem Still.descErr {k} (h : Still s₀ s) : Still s₀ (s.descErr k) := by
  unfold State.descErr
  exact h.raw

theorem Still.fillBuffer {k d c l} (h : Still s₀ s) : Still s₀ (s.fillBuffer k d c l) := by
  unfold State.fillBuffer
  extract_lets x0 x1 x2 x3
  have e4 : Still s₀ x2 := h.emit
  clear_value x2
  exact .ite e4.setReady.descDone e4.setReady.descDone

theorem Still.ringDone {k desc} (h : Still s₀ s) : Still s₀ (s.ringDone k desc) := by
  unfold State.ringDone
  refine .ite ?_ ?_
  · exact h
  · split
    · exact .ite h.descErr.descDone h
    · refine .ite ?_ ?_
      · extract_lets x0 x1
        have e2 : Still s₀ x0 := h.setReady
        have e3 : Still s₀ x1 := .ite e2.descErr e2
        clear_value x0 x1
        exact e3.descDone
      · exact .ite h.fillBuffer (.ite h.descErr.descDone h.fillBuffer)

theorem Still.holdoff {k} (h : Still s₀ s) : Still s₀ (s.holdoff k) := by
  unfold State.holdoff
  exact .ite h.ringMsg h

theorem Still.ringError {k} (h : Still s₀ s) : Still s₀ (s.ringError k) := by
  unfold State.ringError
  refine .ite ?_ ?_
  · extract_lets x0
    have e1 : Still s₀ x0 := h.p
    clear_value x0
    exact e1.raw.fault
  · exact h

theorem Still.i2cAddress {dev b2 b1 b0} (h : Still s₀ s) : Still s₀ (s.i2cAddress dev b2 b1 b0) := by
  unfold State.i2cAddress
  exact .ite h.upd h

theorem Still.i2cRead {dev n} (h : Still s₀ s) : Still s₀ (s.i2cRead dev n) := by
  unfold State.i2cRead
  refine .ite ?_ ?_
  · extract_lets x0 x1 x2
    have e3 : Still s₀ x2 := h.upd
    clear_value x2
    exact e3.accessAll
  · exact h

end Sys2Proof.Machine
end

