-- ==== Sys2Proof/Laws/StillBoot.lean ====
section
/-! SUPPORT. What each operation of boot, reset and the remaining events may do to the state: one lemma per operation, in the
terms of Sys2Proof/Laws/Keeps.lean. -/

set_option Elab.async false

namespace Sys2Proof.Machine

variable {s₀ s t u : State}

/-! ### Boot -/

theorem Still.setBootRec {b} (h : Still s₀ s) (hp : b.pinLow = s.boot.pinLow := by rfl)
    (hr : b.railBad = s.boot.railBad := by rfl) : Still s₀ (s.setBootRec b) := .upd h (hp := hp) (hr := hr)
theorem Keeps.setBootRec {b} (h : Keeps s₀ s) : Keeps s₀ (s.setBootRec b) := .upd h

theorem Still.setRegList {step a l} (h : Still s₀ s) : Still s₀ (s.setRegList step a l) := by
  induction l generalizing s a with
  | nil => exact h
  | cons v r ih => exact ih h.setReg

theorem Still.copyOtp {o} (h : Still s₀ s) : Still s₀ (s.copyOtp o) := by
  unfold State.copyOtp
  extract_lets x0 x1 x2 x3 x4 x5 x6 x7
  have e8 : Still s₀ x2 := h.setBootRec
  have e9 : Still s₀ x3 := .fold (fun t _ => (Still.refl t).copyFactory) e8 _
  have e10 : Still s₀ x4 := e9.setReg.setReg
  have e11 : Still s₀ x5 := e10.setRegList
  have e12 : Still s₀ x6 := e11.setRegList.setRegList
  have e13 : Still s₀ x7 := e12.p
  clear_value x2 x3 x4 x5 x6 x7
  exact e13.setPair.p

theorem Still.otpDone {ok o} (h : Still s₀ s) : Still s₀ (s.otpDone ok o) := by
  unfold State.otpDone
  refine .ite ?_ ?_
  · extract_lets x0
    have e1 : Still s₀ x0 := h.p.pb
    clear_value x0
    exact .ite e1.copyOtp.setBoot e1.bootFail
  · exact h

theorem Still.flashFound {found jedec log2 a4} (h : Still s₀ s) : Still s₀ (s.flashFound found jedec log2 a4) := by
  unfold State.flashFound
  refine .ite ?_ ?_
  · refine .ite ?_ ?_
    · exact h.setRegN.bootFail
    · extract_lets x0 x1 x2 x3 x4 x5
      have e6 : Still s₀ x0 := h.p.p
      have e7 : Still s₀ x2 := e6.setRegN.setRegN
      have e8 : Still s₀ x4 := e7.setBootRec
      clear_value x0 x2 x4
      exact .ite e8.writeWord.setBoot.bootClocksReady (.ite e6.bootFailCrc e6.bootFail)
  · exact h

theorem Still.clockTimeout (h : Still s₀ s) : Still s₀ s.clockTimeout := by
  unfold State.clockTimeout
  exact .ite h.bootFail h

theorem Still.packVerify {pack} (h : Still s₀ s) : Still s₀ (s.packVerify pack) := by
  unfold State.packVerify
  refine .ite ?_ ?_
  · split
    · exact h.setBootRec.setBoot
    · exact .ite h.bootFailCrc h.bootFail
  · exact h

theorem Still.packWrite {again} (h : Still s₀ s) : Still s₀ (s.packWrite again) := by
  unfold State.packWrite
  refine .ite ?_ ?_
  · split
    · extract_lets x0 x1 x2
      have e3 : Still s₀ x2 := h.setBootRec.p
      clear_value x2
      exact e3.access
    · exact h
  · exact h

theorem Still.packWait (h : Still s₀ s) : Still s₀ s.packWait := by
  unfold State.packWait
  refine .ite ?_ ?_
  · split
    · exact h.setBootRec
    · exact h
  · exact h

theorem Still.packDone {mismatch} (h : Still s₀ s) : Still s₀ (s.packDone mismatch) := by
  unfold State.packDone
  refine .ite ?_ ?_
  · refine .ite ?_ ?_
    · split
      · exact h.p.bootFail
      · exact h
    · exact .ite h.setBootRec.setBoot.bootDramReady h
  · exact h

/-! ### Events -/

theorem Still.stepEffects {d} (h : Still s₀ s) : Still s₀ (s.stepEffects d) := by
  unfold State.stepEffects
  extract_lets x0 x1
  have e2 : Still s₀ x0 := h.breakFit.refStep.outputsStep.ptpStep.tdcStep
  clear_value x0
  exact .ite e2.setHld e2

theorem Keeps.stepApply (h : Keeps s₀ s) : Keeps s₀ s.stepApply := by
  unfold State.stepApply
  refine .ite ?_ ?_
  · extract_lets x0
    have e1 : Keeps s₀ x0 := h.applySteps
    clear_value x0
    exact (e1.andThen (Still.refl _).stepEffects)
  · exact h

theorem Keeps.tick {u0 u1 u2} (h : Keeps s₀ s) : Keeps s₀ (s.tick u0 u1 u2) := by
  unfold State.tick
  exact .ite ((h.andThen (Still.refl _).steerTick).tickWith.andThen (Still.refl _).outputsTick) h

theorem Still.second (h : Still s₀ s) : Still s₀ s.second := by
  unfold State.second
  exact .ite h.secondEvent.giveStart h

theorem Keeps.updateTick (h : Keeps s₀ s) : Keeps s₀ s.updateTick := by
  unfold State.updateTick
  exact (h.stepApply.andThen (Still.refl _).updateApply)

theorem Still.ungateLoop {l} (h : Still s₀ s) : Still s₀ (s.ungateLoop l) := by
  unfold State.ungateLoop
  exact Still.resumeHeld (.fold (fun t _ => .ite (Still.refl t).ungate (Still.refl t)) h _)

theorem Still.dramWakes (h : Still s₀ s) : Still s₀ s.dramWakes := by
  unfold State.dramWakes
  exact h.p

theorem Still.showLoopLock {l} (h : Still s₀ s) : Still s₀ (s.showLoopLock l) := by
  unfold State.showLoopLock
  split
  · exact h.setLane
  · exact h.p.p
  · exact h.p.p
  · exact h.p.p
  · exact h.p.p

theorem Still.pllLock {l} (h : Still s₀ s) : Still s₀ (s.pllLock l) := by
  unfold State.pllLock
  refine .ite ?_ ?_
  · exact h
  · extract_lets x0 x1 x2 x3
    have e4 : Still s₀ x0 := h.showLoopLock
    have e5 : Still s₀ x2 := e4.setSyn.ungateLoop
    have e6 : Still s₀ x3 := .ite e4.setSyn.raw (.ite e5.dramWakes.spillShow e5)
    clear_value x0 x2 x3
    exact e6.bootClocksReady

theorem Still.pllLoss {l cause sent} (h : Still s₀ s) : Still s₀ (s.pllLoss l cause sent) := by
  unfold State.pllLoss
  split
  · exact h.laneUnlock
  · exact h.loopLoss

theorem Still.domainGated {d} (h : Still s₀ s) : Still s₀ (s.domainGated d) := by
  unfold State.domainGated
  exact .ite h.gate h

theorem Keeps.timescaleResumes {cycles} (h : Keeps s₀ s) : Keeps s₀ (s.timescaleResumes cycles) := by
  unfold State.timescaleResumes
  extract_lets x0 x1 x2
  have e3 : Keeps s₀ x1 := (h.andThen (Still.refl _).steerTick).bridge
  have e4 : Keeps s₀ x2 := (((e3.andThen (Still.refl _).hldSeconds).andThen (Still.refl _).tdcGap).andThen (Still.refl _).herdRestart)
  clear_value x1 x2
  exact (Keeps.andThen (.fold (fun t _ => (((Keeps.refl t).andThen (Still.refl _).pdGap).andThen (Still.refl _).tightEval)) e4 _) (Still.refl _).guyPdGap)

theorem Keeps.loopSettled {l cycles} (h : Keeps s₀ s) : Keeps s₀ (s.loopSettled l cycles) := by
  unfold State.loopSettled
  refine .ite ?_ ?_
  · extract_lets x0 x1 x2 x3 x4 x5 x6 x7
    have e8 : Keeps s₀ x3 := (h.andThen (Still.refl _).setSyn)
    have e9 : Keeps s₀ x4 := .fold (fun t _ => .ite ((Keeps.refl t).andThen (Still.refl _).ungate) (Keeps.refl t)) e8 _
    have e10 : Keeps s₀ x5 := .ite e9.timescaleResumes (.ite ((e9.andThen (Still.refl _).judgeEnds).andThen (Still.refl _).herdRestart) e9)
    have e11 : Keeps s₀ x7 := .ite (e10.andThen (Still.refl _).setSyn) (.ite ((e10.andThen (Still.refl _).dramWakes).andThen (Still.refl _).spillShow) e10)
    clear_value x3 x4 x5 x7
    exact (e11.andThen (Still.refl _).resumeHeld)
  · exact h

theorem Still.outputSettled {n} (h : Still s₀ s) : Still s₀ (s.outputSettled n) := by
  unfold State.outputSettled
  exact .ite h.setOutRun h

theorem Keeps.settleExpiry {what} (h : Keeps s₀ s) : Keeps s₀ (s.settleExpiry what) := by
  unfold State.settleExpiry
  split
  · exact h.loopSettled
  · exact (h.andThen (Still.refl _).outputSettled)

theorem Still.esmcRx {n b} (h : Still s₀ s) : Still s₀ (s.esmcRx n b) := by
  unfold State.esmcRx
  refine .ite ?_ ?_
  · extract_lets x0
    exact .ite h.setPortQl h
  · exact h

theorem Still.esmcTimeout {n} (h : Still s₀ s) : Still s₀ (s.esmcTimeout n) := by
  unfold State.esmcTimeout
  exact h.setPortQl

theorem Still.esmcEvent {n} (h : Still s₀ s) : Still s₀ (s.esmcEvent n) := by
  unfold State.esmcEvent
  extract_lets x0
  exact .ite h h.sendEsmc

theorem Still.activityEnd {k} (h : Still s₀ s) : Still s₀ (s.activityEnd k) := by
  unfold State.activityEnd
  exact .ite h.clearEdges.activity h.activity

theorem Still.gateEnd {k y} (h : Still s₀ s) : Still s₀ (s.gateEnd k y) := .ite h.ptpGate_snd.freqGate h.freqGate

theorem Still.selectorDecision {err rate} (h : Still s₀ s) : Still s₀ (s.selectorDecision err rate) := by
  unfold State.selectorDecision
  exact h.selDecide.servoSteer

theorem Still.fitIntervalEnd (h : Still s₀ s) : Still s₀ s.fitIntervalEnd := by
  unfold State.fitIntervalEnd
  exact h.fitEnd.afterModel

theorem Still.qualLost {bin} (h : Still s₀ s) : Still s₀ (s.qualLost bin) := by
  unfold State.qualLost
  extract_lets x0 x1
  have e2 : Still s₀ x0 := h.showTempOut
  clear_value x0
  exact .ite e2.loseQual.formCond e2

theorem Still.emberResync {periodic} (h : Still s₀ s) : Still s₀ (s.emberResync periodic) := by
  unfold State.emberResync
  exact .ite h.resync h

theorem Still.pauseRx {_port _frame} (h : Still s₀ s) : Still s₀ (s.pauseRx _port _frame) := by
  unfold State.pauseRx
  exact h

theorem Still.detectorSample {n tx raw} (h : Still s₀ s) : Still s₀ (s.detectorSample n tx raw) := by
  unfold State.detectorSample
  exact .ite h.pdSample.tightEval h.guyPdSample

theorem Still.claimAnnounce (h : Still s₀ s) : Still s₀ s.claimAnnounce := by
  unfold State.claimAnnounce
  exact .fold (fun t _ => .ite (Still.refl t) (Still.refl t).announceTx) h _

theorem Still.writeRdCount {n} (h : Still s₀ s) : Still s₀ (s.writeRdCount n) := by
  unfold State.writeRdCount
  exact h.hostWrite.hostWrite

theorem Still.eventEdge {e rise code since hold} (h : Still s₀ s) : Still s₀ (s.eventEdge e rise code since hold) := by
  unfold State.eventEdge
  exact h.tdcEdge

theorem Still.laneLol {l b} (h : Still s₀ s) : Still s₀ (s.laneLol l b) := by
  unfold State.laneLol
  exact .ite h.laneDetect h

theorem Keeps.guyTake {a1 m} (h : Keeps s₀ s) : Keeps s₀ (s.guyTake a1 m) := by
  unfold State.guyTake
  split
  · exact (h.andThen (Still.refl _).claimRx)
  · exact (h.andThen (Still.refl _).heartbeatRx)
  · exact (h.andThen (Still.refl _).timeRx)
  · exact (h.andThen (Still.refl _).commitRx)
  · exact h.mirrorRx
  · exact h.ckptRx
  · exact h

theorem Keeps.streamRead {a1 l} (h : Keeps s₀ s) : Keeps s₀ (s.streamRead a1 l) := by
  unfold State.streamRead
  extract_lets x0 x1 x2 x3 x4 x5
  have e6 : Keeps s₀ x4 := (h.andThen (Still.refl _).setGuy)
  have e7 : Keeps s₀ x5 := by
    unfold x5
    split
    · exact e6
    · exact .fold (fun t _ => (Keeps.refl t).guyTake) e6.guyTake _
  clear_value x4 x5
  exact .ite (e7.andThen (Still.refl _).streamError) e7

theorem Keeps.rowRx {lanes block a3} (h : Keeps s₀ s) : Keeps s₀ (s.rowRx lanes block a3) := by
  unfold State.rowRx
  split
  · exact (h.andThen (Still.refl _).streamError)
  · split
    · exact h.streamRead
    · exact h

theorem Keeps.streamBad {bad} (h : Keeps s₀ s) : Keeps s₀ (s.streamBad bad) := by
  unfold State.streamBad
  refine .ite ?_ ?_
  · split
    · exact .ite (h.andThen (Still.refl _).streamError) h
    · exact h.rowRx
  · exact h

theorem Still.claimWire {f} (h : Still s₀ s) : Still s₀ (s.claimWire f) := by
  unfold State.claimWire
  extract_lets x0 x1 x2
  have e3 : Still s₀ x2 := .ite h.pinReversed h
  clear_value x2
  exact e3.wireRx

theorem Still.cutShort {n} (h : Still s₀ s) : Still s₀ (s.cutShort n) := by
  unfold State.cutShort
  extract_lets x0 x1
  split
  · exact h.emit.emit.drawn
  · exact .ite h.emit.drawn h

theorem Still.quiet (h : Still s₀ s) : Still s₀ s.quiet := by
  unfold State.quiet
  extract_lets x0 x1
  have e2 : Still s₀ x0 := .fold (fun t _ => (Still.refl t).cutShort) h _
  have e3 : Still s₀ x1 := .fold (fun t _ => .ite (Still.refl t).emitEdges (Still.refl t)) e2 _
  clear_value x0 x1
  exact e3.emit

theorem regsOk_kept (l : List Nat) (t : State) (h : t.regsOk) : (l.foldl (fun (t : State) a => t.setReg a (s.reg a)) t).regsOk := by
  induction l generalizing t with
  | nil => exact h
  | cons a r ih => exact ih _ (State.regsOk_setReg h a _)

theorem regsOk_clear {a f v} (h : t.regsOk) : (t.p a f v).regsOk := (Still.refl t).p.regs h

theorem regsOk_bare : State.regsOk { State.reset with regs := [] } := by
  unfold State.regsOk Tbl.wf
  rw [Tbl.wfFrom]

theorem Keeps.toReset (h : Keeps s₀ s) : Keeps s₀ s.toReset := by
  have q : Still s s.quiet := (Still.refl s).quiet
  obtain ⟨⟨-, -, -, -, -, o, f⟩, -⟩ := q
  generalize e : s.quiet = z at o f
  unfold State.toReset
  rw [e]
  refine h.trans ⟨fun _ => ?_, id, fun _ => Nat.zero_le 32, fun _ => Nat.zero_le 4096, rfl, o, f⟩
  show Tbl.wf regReset _ = true
  exact regsOk_clear (regsOk_kept keptRegs { State.reset with regs := [] } regsOk_bare)

theorem Keeps.resetAssert (h : Keeps s₀ s) : Keeps s₀ s.resetAssert :=
  (Keeps.toReset (.upd h)).andThen (Still.refl _).p

theorem Keeps.resetRelease {straps} (h : Keeps s₀ s) : Keeps s₀ (s.resetRelease straps) := by
  unfold State.resetRelease
  exact .ite h.upd h

theorem Keeps.railFault {a} (h : Keeps s₀ s) : Keeps s₀ (s.railFault a) :=
  (Keeps.toReset (.upd h)).andThen (Still.refl _).p

theorem Keeps.railRecovery (h : Keeps s₀ s) : Keeps s₀ s.railRecovery := by
  unfold State.railRecovery
  exact .ite h.upd h

theorem Keeps.powerLoss (h : Keeps s₀ s) : Keeps s₀ s.powerLoss := by
  unfold State.powerLoss
  refine .ite ?_ ?_
  · extract_lets x0 x1
    have e2 : Keeps s₀ x0 := (h.andThen (Still.refl _).storeFailTime)
    clear_value x0
    exact e2.upd.toReset
  · exact h

theorem Still.powerUp (h : Still s₀ s) : Still s₀ s.powerUp := by
  unfold State.powerUp
  exact .ite h h.upd.setReg

theorem Still.emberLow (h : Still s₀ s) : Still s₀ s.emberLow := by
  unfold State.emberLow
  exact .ite h h.emberLost

theorem Still.emberStart (h : Still s₀ s) : Still s₀ s.emberStart := by
  unfold State.emberStart
  exact .ite h h.emberCold.setHld

theorem Still.enterRun (h : Still s₀ s) : Still s₀ s.enterRun := by
  unfold State.enterRun
  extract_lets x0 x1
  have e2 : Still s₀ x0 := h.setBoot.raw.setRegN
  have e3 : Still s₀ x1 := e2.guyMarkers
  clear_value x0 x1
  exact .ite e3 e3.setWire

theorem Keeps.seedEdge (h : Keeps s₀ s) : Keeps s₀ s.seedEdge := by
  unfold State.seedEdge
  refine .ite ?_ ?_
  · extract_lets x0 x1
    have e2 : Keeps s₀ x0 := h.seed
    have e3 : Keeps s₀ x1 := .ite e2 (e2.andThen (Still.refl _).stepEffects)
    clear_value x0 x1
    exact (e3.andThen (Still.refl _).enterRun)
  · exact h

theorem Still.emberClock (h : Still s₀ s) : Still s₀ s.emberClock := by
  unfold State.emberClock
  extract_lets x0 x1 x2 x3 x4
  have e5 : Still s₀ x4 := h.setHld
  clear_value x4
  exact .ite h.setHld (.ite e5.setEmberTime e5.setEmberTime)

theorem Still.coreClocks {n} (h : Still s₀ s) : Still s₀ (s.coreClocks n) := by
  unfold State.coreClocks
  extract_lets x0 x1 x2 x3
  have e4 : Still s₀ x0 := .ite (.fold (fun t _ => (Still.refl t).pmcAdd) h _) h
  have e5 : Still s₀ x2 := .fold (fun t _ => .ite (Still.refl t).pmc.pmc (Still.refl t).pmc) e4 _
  have e6 : Still s₀ x3 := .ite e5.pmc e5
  clear_value x0 x2 x3
  exact .ite e6.pmc e6

theorem Still.idle (h : Still s₀ s) : Still s₀ s.idle := by
  unfold State.idle
  extract_lets x0 x1 x2
  have e3 : Still s₀ x0 := h.emberClock
  have e4 : Still s₀ x1 := e3.upd
  clear_value x0 x1
  exact .ite e3 (.ite e4.upd.coreClocks e4)

end Sys2Proof.Machine
end

