-- ==== Sys2Proof/Laws/Commands.lean ====
section
/-! SUPPORT. Every command answers a next state, and what it may do on the way: one lemma per command, in the terms of
Sys2Proof/Laws/Keeps.lean. -/

set_option Elab.async false

namespace Sys2Proof.Machine

variable {s₀ s t : State}

theorem Keeps.guyDeliver {c m f} (h : Keeps s₀ s) (hf : ∀ q p, Keeps s₀ (f q p)) : Keeps s₀ (s.guyDeliver c m f) := by
  unfold State.guyDeliver
  refine .ite ?_ h
  split
  · exact hf _ _
  · exact h.andThen (Still.refl s).streamError

/-! ### The end of a command -/

theorem Keeps.done (h : Keeps s t) : ∃ u, done s t = .next u ∧ Keeps s u := by
  refine ⟨_, rfl, ?_⟩
  split
  · exact .refl s
  · exact h.endClock

theorem Still.done (h : Still s t) : ∃ u, done s t = .next u ∧ Still s u := by
  refine ⟨_, rfl, ?_⟩
  split
  · exact .refl s
  · exact h.endClock

theorem Keeps.doneAlways (h : Keeps s t) : ∃ u, doneAlways s t = .next u ∧ Keeps s u :=
  ⟨_, rfl, .ite h h.endClock⟩

theorem Still.doneAlways (h : Still s t) : ∃ u, doneAlways s t = .next u ∧ Still s u :=
  ⟨_, rfl, .ite h h.endClock⟩

/-! ### The commands -/

theorem execRegisterWrite_still {src addr whole words} : ∃ t, execRegisterWrite src addr whole words s = .next t ∧ Still s t := by
  have h := Still.refl s
  refine Still.done ?_
  exact h.writeReq

theorem execWriteOnce_still {src addr v} : ∃ t, execWriteOnce src addr v s = .next t ∧ Still s t := by
  have h := Still.refl s
  refine Still.done ?_
  exact h.writeReq

theorem execReadClear_still {src addr len} : ∃ t, execReadClear src addr len s = .next t ∧ Still s t := by
  have h := Still.refl s
  refine Still.done ?_
  exact h.readReq

theorem execReadLowWord_still {src addr len} : ∃ t, execReadLowWord src addr len s = .next t ∧ Still s t := by
  have h := Still.refl s
  refine Still.done ?_
  exact h.readReq

theorem execWriteLowWord_still {addr v} : ∃ t, execWriteLowWord addr v s = .next t ∧ Still s t := by
  have h := Still.refl s
  refine Still.done ?_
  exact h.hostWrite

theorem execWriteHighWord_still {addr v} : ∃ t, execWriteHighWord addr v s = .next t ∧ Still s t := by
  have h := Still.refl s
  refine Still.done ?_
  exact h.hostWrite

theorem execBusTimeout_still {src} : ∃ t, execBusTimeout src s = .next t ∧ Still s t := by
  have h := Still.refl s
  refine Still.done ?_
  exact h.busTimeout

theorem execDomainLiveAgain_still {d} : ∃ t, execDomainLiveAgain d s = .next t ∧ Still s t := by
  have h := Still.refl s
  refine Still.done ?_
  exact h.liveAgain

theorem execCrossingReset_still {block blockSide} : ∃ t, execCrossingReset block blockSide s = .next t ∧ Still s t := by
  have h := Still.refl s
  refine Still.done ?_
  exact h.crossingReset

theorem execPcieReset_still : ∃ t, execPcieReset s = .next t ∧ Still s t := by
  have h := Still.refl s
  refine Still.done ?_
  exact h.pcieReset

theorem execPcieLinkDown_still : ∃ t, execPcieLinkDown s = .next t ∧ Still s t := by
  have h := Still.refl s
  refine Still.done ?_
  exact h.linkDown

theorem execFunctionLevelResetF0_still : ∃ t, execFunctionLevelResetF0 s = .next t ∧ Still s t := by
  have h := Still.refl s
  refine Still.done ?_
  exact h.flrF0

theorem execFunctionLevelResetF1_still : ∃ t, execFunctionLevelResetF1 s = .next t ∧ Still s t := by
  have h := Still.refl s
  refine Still.done ?_
  exact h.flrF1

theorem execCfgScanCommit_still {v} : ∃ t, execCfgScanCommit v s = .next t ∧ Still s t := by
  have h := Still.refl s
  refine Still.done ?_
  exact h.hostWrite

theorem execCfgScanUnfreeze_still {v} : ∃ t, execCfgScanUnfreeze v s = .next t ∧ Still s t := by
  have h := Still.refl s
  refine Still.done ?_
  exact h.hostWrite

theorem execCfgScanComplete_still {upsets} : ∃ t, execCfgScanComplete upsets s = .next t ∧ Still s t := by
  have h := Still.refl s
  refine Still.done ?_
  exact h.scanComplete

theorem execFqPop_still {v} : ∃ t, execFqPop v s = .next t ∧ Still s t := by
  have h := Still.refl s
  refine Still.done ?_
  exact h.hostWrite

theorem execDmaRingEnable_still {k v} : ∃ t, execDmaRingEnable k v s = .next t ∧ Still s t := by
  have h := Still.refl s
  refine Still.done ?_
  exact h.hostWrite

theorem execDmaTailWrite_still {k v} : ∃ t, execDmaTailWrite k v s = .next t ∧ Still s t := by
  have h := Still.refl s
  refine Still.done ?_
  exact h.hostWrite

theorem execDmaDescriptorDone_still {k desc} : ∃ t, execDmaDescriptorDone k desc s = .next t ∧ Still s t := by
  have h := Still.refl s
  refine Still.done ?_
  exact h.ringDone

theorem execDmaHoldoffExpiry_still {k} : ∃ t, execDmaHoldoffExpiry k s = .next t ∧ Still s t := by
  have h := Still.refl s
  refine Still.done ?_
  exact h.holdoff

theorem execDmaPcieError_still {k} : ∃ t, execDmaPcieError k s = .next t ∧ Still s t := by
  have h := Still.refl s
  refine Still.done ?_
  exact h.ringError

theorem execI2cAddressWrite_still {dev b2 b1 b0} : ∃ t, execI2cAddressWrite dev b2 b1 b0 s = .next t ∧ Still s t := by
  have h := Still.refl s
  refine Still.done ?_
  exact h.i2cAddress

theorem execI2cRead_still {dev n} : ∃ t, execI2cRead dev n s = .next t ∧ Still s t := by
  have h := Still.refl s
  refine Still.done ?_
  exact h.i2cRead

theorem execDieTempConversion_still {raw code} : ∃ t, execDieTempConversion raw code s = .next t ∧ Still s t := by
  have h := Still.refl s
  refine Still.done ?_
  exact h.dieTemp

theorem execTimescaleTick_keeps {u0 u1 u2} : ∃ t, execTimescaleTick u0 u1 u2 s = .next t ∧ Keeps s t := by
  have h := Keeps.refl s
  refine Keeps.done ?_
  exact h.tick

theorem execSecondEvent_still : ∃ t, execSecondEvent s = .next t ∧ Still s t := by
  have h := Still.refl s
  refine Still.done ?_
  exact h.second

theorem execTscNowCapture_still {src len} : ∃ t, execTscNowCapture src len s = .next t ∧ Still s t := by
  have h := Still.refl s
  refine Still.done ?_
  exact h.readReq

theorem execImmediateStep_still {v} : ∃ t, execImmediateStep v s = .next t ∧ Still s t := by
  have h := Still.refl s
  refine Still.done ?_
  exact h.hostWrite

theorem execSecondAlignedStep_still {v} : ∃ t, execSecondAlignedStep v s = .next t ∧ Still s t := by
  have h := Still.refl s
  refine Still.done ?_
  exact h.hostWrite

theorem execAbsoluteSet_still {v} : ∃ t, execAbsoluteSet v s = .next t ∧ Still s t := by
  have h := Still.refl s
  refine Still.done ?_
  exact h.hostWrite

theorem execStepCancel_still {v} : ∃ t, execStepCancel v s = .next t ∧ Still s t := by
  have h := Still.refl s
  refine Still.done ?_
  exact h.hostWrite

theorem execStepApply_keeps : ∃ t, execStepApply s = .next t ∧ Keeps s t := by
  have h := Keeps.refl s
  refine Keeps.done ?_
  exact h.stepApply

theorem execClrSuspect_still {v} : ∃ t, execClrSuspect v s = .next t ∧ Still s t := by
  have h := Still.refl s
  refine Still.done ?_
  exact h.hostWrite

theorem execCopyRestore_still {copy v} : ∃ t, execCopyRestore copy v s = .next t ∧ Still s t := by
  have h := Still.refl s
  refine Still.done ?_
  exact h.hostWrite

theorem execCopyFenceCmd_still {copy v} : ∃ t, execCopyFenceCmd copy v s = .next t ∧ Still s t := by
  have h := Still.refl s
  refine Still.done ?_
  exact h.hostWrite

theorem execTripodInject_still {v} : ∃ t, execTripodInject v s = .next t ∧ Still s t := by
  have h := Still.refl s
  refine Still.done ?_
  exact h.hostWrite

theorem execOscFreqMismatch_still {khz} : ∃ t, execOscFreqMismatch khz s = .next t ∧ Still s t := by
  have h := Still.refl s
  refine Still.done ?_
  exact h.oscMismatch

theorem execOscFreqChange_still {v} : ∃ t, execOscFreqChange v s = .next t ∧ Still s t := by
  have h := Still.refl s
  refine Still.done ?_
  exact h.hostWrite

theorem execWarmGate_still {y} : ∃ t, execWarmGate y s = .next t ∧ Still s t := by
  have h := Still.refl s
  refine Still.done ?_
  exact h.warmGate

theorem execWarmTimeout_still : ∃ t, execWarmTimeout s = .next t ∧ Still s t := by
  have h := Still.refl s
  refine Still.done ?_
  exact h.warmTimeout

theorem execOscWarmChange_still {level} : ∃ t, execOscWarmChange level s = .next t ∧ Still s t := by
  have h := Still.refl s
  refine Still.done ?_
  exact h.oscWarm

theorem execRefInputEdge_still {n ahead} : ∃ u, execRefInputEdge n ahead s = .next u ∧ Still s u := by
  have h := Still.refl s
  exact h.refEdge.done

theorem execRefInputStuck_still {n} : ∃ t, execRefInputStuck n s = .next t ∧ Still s t := by
  have h := Still.refl s
  refine Still.done ?_
  exact h.refStuck

theorem execRefOverrunInterval_still {n} : ∃ t, execRefOverrunInterval n s = .next t ∧ Still s t := by
  have h := Still.refl s
  refine Still.done ?_
  exact h.refOverrun

theorem execRefInRearm_still {v} : ∃ t, execRefInRearm v s = .next t ∧ Still s t := by
  have h := Still.refl s
  refine Still.done ?_
  exact h.hostWrite

theorem execActivityInterval_still {k} : ∃ t, execActivityInterval k s = .next t ∧ Still s t := by
  have h := Still.refl s
  refine Still.done ?_
  exact h.activityEnd

theorem execFreqGate_still {k raw} : ∃ t, execFreqGate k raw s = .next t ∧ Still s t := by
  have h := Still.refl s
  refine Still.done ?_
  exact h.gateEnd

theorem execHoldoffExpiry_still {k} : ∃ t, execHoldoffExpiry k s = .next t ∧ Still s t := by
  have h := Still.refl s
  refine Still.done ?_
  exact h.holdoffExpiry

theorem execWtrExpiry_still {e} : ∃ t, execWtrExpiry e s = .next t ∧ Still s t := by
  have h := Still.refl s
  refine Still.done ?_
  exact h.wtrExpiry

theorem execEsmcRx_still {port frame} : ∃ t, execEsmcRx port frame s = .next t ∧ Still s t := by
  have h := Still.refl s
  refine Still.done ?_
  exact h.esmcRx

theorem execEsmcTimeout_still {port} : ∃ t, execEsmcTimeout port s = .next t ∧ Still s t := by
  have h := Still.refl s
  refine Still.done ?_
  exact h.esmcTimeout

theorem execEsmcTxInfo_still {port} : ∃ t, execEsmcTxInfo port s = .next t ∧ Still s t := by
  have h := Still.refl s
  refine Still.done ?_
  exact h.sendEsmc

theorem execEsmcTxEvent_still {port} : ∃ t, execEsmcTxEvent port s = .next t ∧ Still s t := by
  have h := Still.refl s
  refine Still.done ?_
  exact h.esmcEvent

theorem execSelectorDecision_still {err rate} : ∃ t, execSelectorDecision err rate s = .next t ∧ Still s t := by
  have h := Still.refl s
  refine Still.done ?_
  exact h.selectorDecision

theorem execTargetMeasured_still : ∃ t, execTargetMeasured s = .next t ∧ Still s t := by
  have h := Still.refl s
  refine Still.done ?_
  exact h.targetMeasured

theorem execModelEval_still : ∃ t, execModelEval s = .next t ∧ Still s t := by
  have h := Still.refl s
  refine Still.done ?_
  exact h.modelEval

theorem execFitIntervalEnd_still : ∃ t, execFitIntervalEnd s = .next t ∧ Still s t := by
  have h := Still.refl s
  refine Still.done ?_
  exact h.fitIntervalEnd

theorem execModelLoad_still {v} : ∃ t, execModelLoad v s = .next t ∧ Still s t := by
  have h := Still.refl s
  refine Still.done ?_
  exact h.hostWrite

theorem execModelClear_still {v} : ∃ t, execModelClear v s = .next t ∧ Still s t := by
  have h := Still.refl s
  refine Still.done ?_
  exact h.hostWrite

theorem execTempAxisChange_still {v} : ∃ t, execTempAxisChange v s = .next t ∧ Still s t := by
  have h := Still.refl s
  refine Still.done ?_
  exact h.hostWrite

theorem execHoldoverQualLost_still {bin} : ∃ t, execHoldoverQualLost bin s = .next t ∧ Still s t := by
  have h := Still.refl s
  refine Still.done ?_
  exact h.qualLost

theorem execEmberTrimUpdate_still {count} : ∃ t, execEmberTrimUpdate count s = .next t ∧ Still s t := by
  have h := Still.refl s
  refine Still.done ?_
  exact h.trimUpdate

theorem execEmberResync_still {periodic} : ∃ t, execEmberResync periodic s = .next t ∧ Still s t := by
  have h := Still.refl s
  refine Still.done ?_
  exact h.emberResync

theorem execEmberResyncCmd_still {v} : ∃ t, execEmberResyncCmd v s = .next t ∧ Still s t := by
  have h := Still.refl s
  refine Still.done ?_
  exact h.hostWrite

theorem execEmberInvalidate_still {v} : ∃ t, execEmberInvalidate v s = .next t ∧ Still s t := by
  have h := Still.refl s
  refine Still.done ?_
  exact h.hostWrite

theorem execEmberSupplyLow_still : ∃ t, execEmberSupplyLow s = .next t ∧ Still s t := by
  have h := Still.refl s
  refine Still.doneAlways ?_
  exact h.emberLow

theorem execEmberColdStart_still : ∃ t, execEmberColdStart s = .next t ∧ Still s t := by
  have h := Still.refl s
  refine Still.doneAlways ?_
  exact h.emberStart

theorem execMainPowerLoss_keeps : ∃ t, execMainPowerLoss s = .next t ∧ Keeps s t := by
  have h := Keeps.refl s
  refine Keeps.doneAlways ?_
  exact h.powerLoss

theorem execMainPowerPresent_still : ∃ t, execMainPowerPresent s = .next t ∧ Still s t := by
  have h := Still.refl s
  refine Still.doneAlways ?_
  exact h.powerUp

theorem execEmberSeed_keeps : ∃ t, execEmberSeed s = .next t ∧ Keeps s t := by
  have h := Keeps.refl s
  refine Keeps.done ?_
  exact h.seedEdge

theorem execEmberXtalStop_still : ∃ t, execEmberXtalStop s = .next t ∧ Still s t := by
  have h := Still.refl s
  refine Still.done ?_
  exact h.xtalStop

theorem execPllLock_still {l} : ∃ t, execPllLock l s = .next t ∧ Still s t := by
  have h := Still.refl s
  refine Still.done ?_
  exact h.pllLock

theorem execPllLockLoss_still {l cause sent} : ∃ t, execPllLockLoss l cause sent s = .next t ∧ Still s t := by
  have h := Still.refl s
  refine Still.done ?_
  exact h.pllLoss

theorem execDomainGated_still {d} : ∃ t, execDomainGated d s = .next t ∧ Still s t := by
  have h := Still.refl s
  refine Still.done ?_
  exact h.domainGated

theorem execSettleExpiry_keeps {what} : ∃ t, execSettleExpiry what s = .next t ∧ Keeps s t := by
  have h := Keeps.refl s
  refine Keeps.done ?_
  exact h.settleExpiry

theorem execSynUpdateGo_still {v} : ∃ t, execSynUpdateGo v s = .next t ∧ Still s t := by
  have h := Still.refl s
  refine Still.done ?_
  exact h.hostWrite

theorem execSynUpdateApply_keeps : ∃ t, execSynUpdateApply s = .next t ∧ Keeps s t := by
  have h := Keeps.refl s
  refine Keeps.done ?_
  exact h.updateTick

theorem execClaimSourceSwitch_still : ∃ t, execClaimSourceSwitch s = .next t ∧ Still s t := by
  have h := Still.refl s
  refine Still.done ?_
  exact h.claimSwitch

theorem execPdSample_still {port tx raw} : ∃ t, execPdSample port tx raw s = .next t ∧ Still s t := by
  have h := Still.refl s
  refine Still.done ?_
  exact h.detectorSample

theorem execLaneUnlock_still {lane sent} : ∃ t, execLaneUnlock lane sent s = .next t ∧ Still s t := by
  have h := Still.refl s
  refine Still.done ?_
  exact h.laneUnlock

theorem execLoopbackGo_still {port v} : ∃ t, execLoopbackGo port v s = .next t ∧ Still s t := by
  have h := Still.refl s
  refine Still.done ?_
  exact h.hostWrite

theorem execLoopbackAbort_still {port v} : ∃ t, execLoopbackAbort port v s = .next t ∧ Still s t := by
  have h := Still.refl s
  refine Still.done ?_
  exact h.hostWrite

theorem execLoopbackFrameTx_still {port x} : ∃ t, execLoopbackFrameTx port x s = .next t ∧ Still s t := by
  have h := Still.refl s
  refine Still.done ?_
  exact h.loopTx

theorem execLoopbackFrameReturn_still {port q x} : ∃ t, execLoopbackFrameReturn port q x s = .next t ∧ Still s t := by
  have h := Still.refl s
  refine Still.done ?_
  exact .ite h.loopRx h

theorem execLoopbackFrameTimeout_still {port q} : ∃ t, execLoopbackFrameTimeout port q s = .next t ∧ Still s t := by
  have h := Still.refl s
  refine Still.done ?_
  exact h.loopTimeout

theorem execLoopbackDone_still {port} : ∃ t, execLoopbackDone port s = .next t ∧ Still s t := by
  have h := Still.refl s
  refine Still.done ?_
  exact h.loopDone

theorem execLinkDelayExchange_still {port t1 t2 t3 t4 bad} : ∃ t, execLinkDelayExchange port t1 t2 t3 t4 bad s = .next t ∧ Still s t := by
  have h := Still.refl s
  refine Still.done ?_
  exact h.ldExchange.ptpLdCheck

theorem execFtempNowWrite_still {port v} : ∃ t, execFtempNowWrite port v s = .next t ∧ Still s t := by
  have h := Still.refl s
  refine Still.done ?_
  exact h.hostWrite

theorem execFtempStale_still {port} : ∃ t, execFtempStale port s = .next t ∧ Still s t := by
  have h := Still.refl s
  refine Still.done ?_
  exact h.ftempStale

theorem execPtsFifoPop_still {port v} : ∃ t, execPtsFifoPop port v s = .next t ∧ Still s t := by
  have h := Still.refl s
  refine Still.done ?_
  exact h.hostWrite

theorem execAnnounceRx_still {port msg} : ∃ t, execAnnounceRx port msg s = .next t ∧ Still s t := by
  have h := Still.refl s
  refine Still.done ?_
  exact .ite h.announceRx h

theorem execSyncRx_still {port msg x} : ∃ t, execSyncRx port msg x s = .next t ∧ Still s t := by
  have h := Still.refl s
  refine Still.done ?_
  exact .ite h.syncRx h

theorem execFollowUpRx_still {port msg} : ∃ t, execFollowUpRx port msg s = .next t ∧ Still s t := by
  have h := Still.refl s
  refine Still.done ?_
  exact .ite h.followUpRx h

theorem execDelayReqRx_still {port msg x} : ∃ t, execDelayReqRx port msg x s = .next t ∧ Still s t := by
  have h := Still.refl s
  refine Still.done ?_
  exact .ite h.delayReqRx h

theorem execDelayRespTx_still {port} : ∃ t, execDelayRespTx port s = .next t ∧ Still s t := by
  have h := Still.refl s
  refine Still.done ?_
  exact h.delayRespTx

theorem execDelayRespRx_still {port msg} : ∃ t, execDelayRespRx port msg s = .next t ∧ Still s t := by
  have h := Still.refl s
  refine Still.done ?_
  exact .ite h.delayRespRx h

theorem execPdelayReqRx_still {port msg x} : ∃ t, execPdelayReqRx port msg x s = .next t ∧ Still s t := by
  have h := Still.refl s
  refine Still.done ?_
  exact .ite h.pdelayReqRx h

theorem execPdelayRespTx_still {port x} : ∃ t, execPdelayRespTx port x s = .next t ∧ Still s t := by
  have h := Still.refl s
  refine Still.done ?_
  exact h.pdelayRespTx

theorem execPdelayRespRx_still {port msg x} : ∃ t, execPdelayRespRx port msg x s = .next t ∧ Still s t := by
  have h := Still.refl s
  refine Still.done ?_
  exact .ite h.pdelayRespRx h

theorem execPdelayRespFollowUpRx_still {port msg} : ∃ t, execPdelayRespFollowUpRx port msg s = .next t ∧ Still s t := by
  have h := Still.refl s
  refine Still.done ?_
  exact .ite h.pdelayFollowRx h

theorem execPtpMgmtRx_still {port} : ∃ t, execPtpMgmtRx port s = .next t ∧ Still s t := by
  have h := Still.refl s
  refine Still.done ?_
  exact .ite h.mgmtRx h

theorem execSyncTx_still {port x} : ∃ t, execSyncTx port x s = .next t ∧ Still s t := by
  have h := Still.refl s
  refine Still.done ?_
  exact h.syncTx

theorem execAnnounceTx_still {port} : ∃ t, execAnnounceTx port s = .next t ∧ Still s t := by
  have h := Still.refl s
  refine Still.done ?_
  exact h.announceTx

theorem execFollowUpTx_still {port} : ∃ t, execFollowUpTx port s = .next t ∧ Still s t := by
  have h := Still.refl s
  refine Still.done ?_
  exact h.followTx

theorem execDelayReqTx_still {port x} : ∃ t, execDelayReqTx port x s = .next t ∧ Still s t := by
  have h := Still.refl s
  refine Still.done ?_
  exact h.delayReqTx

theorem execPdelayReqTx_still {port x} : ∃ t, execPdelayReqTx port x s = .next t ∧ Still s t := by
  have h := Still.refl s
  refine Still.done ?_
  exact h.pdelayReqTx

theorem execClaimAnnounce_still : ∃ t, execClaimAnnounce s = .next t ∧ Still s t := by
  have h := Still.refl s
  refine Still.done ?_
  exact h.claimAnnounce

theorem execAnnounceTimeout_still {port} : ∃ t, execAnnounceTimeout port s = .next t ∧ Still s t := by
  have h := Still.refl s
  refine Still.done ?_
  exact h.announceTimeout

theorem execFollowUpTimeout_still {port} : ∃ t, execFollowUpTimeout port s = .next t ∧ Still s t := by
  have h := Still.refl s
  refine Still.done ?_
  exact h.followUpTimeout

theorem execValidOffsetLapse_still : ∃ t, execValidOffsetLapse s = .next t ∧ Still s t := by
  have h := Still.refl s
  refine Still.done ?_
  exact h.offsetLapse

theorem execServoFreeze_still : ∃ t, execServoFreeze s = .next t ∧ Still s t := by
  have h := Still.refl s
  refine Still.done ?_
  exact h.servoFreeze

theorem execTightServoTick_still : ∃ t, execTightServoTick s = .next t ∧ Still s t := by
  have h := Still.refl s
  refine Still.done ?_
  exact h.tightTick

theorem execPcsBlockLockLoss_still {port signal} : ∃ t, execPcsBlockLockLoss port signal s = .next t ∧ Still s t := by
  have h := Still.refl s
  refine Still.done ?_
  exact h.lockLost.settle

theorem execPcsBlockLockGain_still {port} : ∃ t, execPcsBlockLockGain port s = .next t ∧ Still s t := by
  have h := Still.refl s
  refine Still.done ?_
  exact h.lockGained

theorem execMacModeChange_still {port v} : ∃ t, execMacModeChange port v s = .next t ∧ Still s t := by
  have h := Still.refl s
  refine Still.done ?_
  exact h.hostWrite

theorem execFrameReceive_still {port x frame} : ∃ t, execFrameReceive port x frame s = .next t ∧ Still s t := by
  have h := Still.refl s
  refine Still.done ?_
  exact h.receive

theorem execFrameLookup_still {port} : ∃ t, execFrameLookup port s = .next t ∧ Still s t := by
  have h := Still.refl s
  refine Still.done ?_
  exact h.frameLookup

theorem execFrameEnd_still {port how corr} : ∃ t, execFrameEnd port how corr s = .next t ∧ Still s t := by
  have h := Still.refl s
  refine Still.done ?_
  exact h.frameEnd

theorem execLearningSweep_still {entry} : ∃ t, execLearningSweep entry s = .next t ∧ Still s t := by
  have h := Still.refl s
  refine Still.done ?_
  exact h.sweepEntry

theorem execTableStageWrite_still {addr v} : ∃ t, execTableStageWrite addr v s = .next t ∧ Still s t := by
  have h := Still.refl s
  refine Still.done ?_
  exact h.hostWrite

theorem execTableCommit_still {addr v} : ∃ t, execTableCommit addr v s = .next t ∧ Still s t := by
  have h := Still.refl s
  refine Still.done ?_
  exact h.hostWrite

theorem execFwdDrain_still {v} : ∃ t, execFwdDrain v s = .next t ∧ Still s t := by
  have h := Still.refl s
  refine Still.done ?_
  exact h.hostWrite

theorem execDrainDone_still : ∃ t, execDrainDone s = .next t ∧ Still s t := by
  have h := Still.refl s
  refine Still.done ?_
  exact h.drainDone

theorem execHostFrameIngest_still {desc mem} : ∃ t, execHostFrameIngest desc mem s = .next t ∧ Still s t := by
  have h := Still.refl s
  refine Still.done ?_
  exact h.hostIngest

theorem execHostFrameDeliver_still : ∃ t, execHostFrameDeliver s = .next t ∧ Still s t := by
  have h := Still.refl s
  refine Still.done ?_
  exact h.hostDeliver

theorem execEgressSelect_still {port x} : ∃ t, execEgressSelect port x s = .next t ∧ Still s t := by
  have h := Still.refl s
  refine Still.done ?_
  exact .ite h.egressSelect h.hostDeliver

theorem execAgeScan_still : ∃ t, execAgeScan s = .next t ∧ Still s t := by
  have h := Still.refl s
  refine Still.done ?_
  exact h.ageScan

theorem execSpillWrite_still {q} : ∃ t, execSpillWrite q s = .next t ∧ Still s t := by
  have h := Still.refl s
  refine Still.done ?_
  exact h.spillWrite

theorem execSpillReadback_still {q head} : ∃ t, execSpillReadback q head s = .next t ∧ Still s t := by
  have h := Still.refl s
  refine Still.done ?_
  exact h.spillRead

theorem execSliceStallThreshold_still : ∃ t, execSliceStallThreshold s = .next t ∧ Still s t := by
  have h := Still.refl s
  refine Still.done ?_
  exact h.stallReached

theorem execPfcTx_still {port} : ∃ t, execPfcTx port s = .next t ∧ Still s t := by
  have h := Still.refl s
  refine Still.done ?_
  exact h.pfcTx

theorem execPfcRefresh_still {port} : ∃ t, execPfcRefresh port s = .next t ∧ Still s t := by
  have h := Still.refl s
  refine Still.done ?_
  exact h.pfcRefresh

theorem execPfcRx_still {port frame} : ∃ t, execPfcRx port frame s = .next t ∧ Still s t := by
  have h := Still.refl s
  refine Still.done ?_
  exact .ite h.pfcRx h

theorem execPauseExpiry_still {port p} : ∃ t, execPauseExpiry port p s = .next t ∧ Still s t := by
  have h := Still.refl s
  refine Still.done ?_
  exact h.pauseEnd

theorem execClause31PauseRx_still {port frame} : ∃ t, execClause31PauseRx port frame s = .next t ∧ Still s t := by
  have h := Still.refl s
  refine Still.done ?_
  exact h.pauseRx

theorem execDramTrainingDone_still {bad} : ∃ t, execDramTrainingDone bad s = .next t ∧ Still s t := by
  have h := Still.refl s
  refine Still.done ?_
  exact h.dramInitDone

theorem execHerdPlace_still : ∃ t, execHerdPlace s = .next t ∧ Still s t := by
  have h := Still.refl s
  refine Still.done ?_
  exact h.herdPlace

theorem execHerdDepartureDecision_still {port x} : ∃ t, execHerdDepartureDecision port x s = .next t ∧ Still s t := by
  have h := Still.refl s
  refine Still.done ?_
  exact h.herdDecision

theorem execHerdAdmissionSweep_still : ∃ t, execHerdAdmissionSweep s = .next t ∧ Still s t := by
  have h := Still.refl s
  refine Still.done ?_
  exact h.herdSweep

theorem execJournalEnable_still {v} : ∃ t, execJournalEnable v s = .next t ∧ Still s t := by
  have h := Still.refl s
  refine Still.done ?_
  exact h.hostWrite

theorem execJournalDisable_still {v} : ∃ t, execJournalDisable v s = .next t ∧ Still s t := by
  have h := Still.refl s
  refine Still.done ?_
  exact h.hostWrite

theorem execRecordWrite_keeps : ∃ t, execRecordWrite s = .next t ∧ Keeps s t := by
  have h := Keeps.refl s
  refine Keeps.done ?_
  exact h.recordWrite

theorem execLossRecord_still : ∃ t, execLossRecord s = .next t ∧ Still s t := by
  have h := Still.refl s
  refine Still.done ?_
  exact h.lossRecord

theorem execJournalFire_still {v} : ∃ t, execJournalFire v s = .next t ∧ Still s t := by
  have h := Still.refl s
  refine Still.done ?_
  exact h.hostWrite

theorem execSpoorTrigEdge_still {fall ns} : ∃ t, execSpoorTrigEdge fall ns s = .next t ∧ Still s t := by
  have h := Still.refl s
  refine Still.done ?_
  exact h.pinTrig

theorem execJournalFreeze_still : ∃ t, execJournalFreeze s = .next t ∧ Still s t := by
  have h := Still.refl s
  refine Still.done ?_
  exact h.sprFreeze

theorem execJournalRearm_still {v} : ∃ t, execJournalRearm v s = .next t ∧ Still s t := by
  have h := Still.refl s
  refine Still.done ?_
  exact h.hostWrite

theorem execJournalFetch_still {v} : ∃ t, execJournalFetch v s = .next t ∧ Still s t := by
  have h := Still.refl s
  refine Still.done ?_
  exact h.hostWrite

theorem execFetchDone_still : ∃ t, execFetchDone s = .next t ∧ Still s t := by
  have h := Still.refl s
  refine Still.done ?_
  exact h.fetchDone

theorem execJournalBufferDone_still {desc} : ∃ t, execJournalBufferDone desc s = .next t ∧ Still s t := by
  have h := Still.refl s
  refine Still.done ?_
  exact h.journalBuffer

theorem execJournalBufferIdle_still {desc} : ∃ t, execJournalBufferIdle desc s = .next t ∧ Still s t := by
  have h := Still.refl s
  refine Still.done ?_
  exact h.journalBuffer

theorem execRdCountWrite_still {n} : ∃ t, execRdCountWrite n s = .next t ∧ Still s t := by
  have h := Still.refl s
  refine Still.done ?_
  exact h.writeRdCount

theorem execTdcEdge_still {e rise code since hold} : ∃ t, execTdcEdge e rise code since hold s = .next t ∧ Still s t := by
  have h := Still.refl s
  refine Still.done ?_
  exact h.eventEdge

theorem execTdcStampConversion_still {e} : ∃ t, execTdcStampConversion e s = .next t ∧ Still s t := by
  have h := Still.refl s
  refine Still.done ?_
  exact h.tdcConvert

theorem execTdcCalCycleDone_still {e b s1 s2} : ∃ t, execTdcCalCycleDone e b s1 s2 s = .next t ∧ Still s t := by
  have h := Still.refl s
  refine Still.done ?_
  exact h.calDone

theorem execTdcInterpolatorSwap_still {e at_} : ∃ t, execTdcInterpolatorSwap e at_ s = .next t ∧ Still s t := by
  have h := Still.refl s
  refine Still.done ?_
  exact h.swap

theorem execTdcStuck_still {e} : ∃ t, execTdcStuck e s = .next t ∧ Still s t := by
  have h := Still.refl s
  refine Still.done ?_
  exact h.tdcStuck

theorem execTdcOverrunInterval_still {e} : ∃ t, execTdcOverrunInterval e s = .next t ∧ Still s t := by
  have h := Still.refl s
  refine Still.done ?_
  exact h.tdcInterval

theorem execTdcRearm_still {v} : ∃ t, execTdcRearm v s = .next t ∧ Still s t := by
  have h := Still.refl s
  refine Still.done ?_
  exact h.hostWrite

theorem execTdcFifoPop_still {e v} : ∃ t, execTdcFifoPop e v s = .next t ∧ Still s t := by
  have h := Still.refl s
  refine Still.done ?_
  exact h.hostWrite

theorem execTdcWindowStart_still {m} : ∃ t, execTdcWindowStart m s = .next t ∧ Still s t := by
  have h := Still.refl s
  refine Still.done ?_
  exact h.windowStart

theorem execTdcWindowClose_still {m} : ∃ t, execTdcWindowClose m s = .next t ∧ Still s t := by
  have h := Still.refl s
  refine Still.done ?_
  exact h.windowClose

theorem execGuyEnable_still {v} : ∃ t, execGuyEnable v s = .next t ∧ Still s t := by
  have h := Still.refl s
  refine Still.done ?_
  exact h.hostWrite

theorem execGuyDisable_still {v} : ∃ t, execGuyDisable v s = .next t ∧ Still s t := by
  have h := Still.refl s
  refine Still.done ?_
  exact h.hostWrite

theorem execGuyLaneLos_still {l b} : ∃ t, execGuyLaneLos l b s = .next t ∧ Still s t := by
  have h := Still.refl s
  refine Still.done ?_
  exact h.laneDetect

theorem execGuyLaneLol_still {l b} : ∃ t, execGuyLaneLol l b s = .next t ∧ Still s t := by
  have h := Still.refl s
  refine Still.done ?_
  exact h.laneLol

theorem execGuyBlockLock_still {l gained compl} : ∃ t, execGuyBlockLock l gained compl s = .next t ∧ Still s t := by
  have h := Still.refl s
  refine Still.done ?_
  exact h.blockLock

theorem execGuyMarkerRx_still {l} : ∃ t, execGuyMarkerRx l s = .next t ∧ Still s t := by
  have h := Still.refl s
  refine Still.done ?_
  exact h.markerRx

theorem execGuyAlignTimeout_still : ∃ t, execGuyAlignTimeout s = .next t ∧ Still s t := by
  have h := Still.refl s
  refine Still.done ?_
  exact h.alignTimeout

theorem execGuyStreamError_keeps {bad} : ∃ t, execGuyStreamError bad s = .next t ∧ Keeps s t := by
  have h := Keeps.refl s
  refine Keeps.done ?_
  exact h.streamBad

theorem execClaimMsgRx_still {msg} : ∃ t, execClaimMsgRx msg s = .next t ∧ Still s t := by
  have h := Still.refl s
  refine Still.done ?_
  refine .guyDeliver h (fun q p => ?_)
  exact h.claimRx

theorem execHeartbeatRx_still {msg} : ∃ t, execHeartbeatRx msg s = .next t ∧ Still s t := by
  have h := Still.refl s
  refine Still.done ?_
  refine .guyDeliver h (fun q p => ?_)
  exact h.heartbeatRx

theorem execTimeMsgRx_still {msg x} : ∃ t, execTimeMsgRx msg x s = .next t ∧ Still s t := by
  have h := Still.refl s
  refine Still.done ?_
  refine .guyDeliver h (fun q p => ?_)
  exact h.timeRx

theorem execCommitRx_still {msg} : ∃ t, execCommitRx msg s = .next t ∧ Still s t := by
  have h := Still.refl s
  refine Still.done ?_
  refine .guyDeliver h (fun q p => ?_)
  exact h.commitRx

theorem execMirrorMsgRx_keeps {msg} : ∃ t, execMirrorMsgRx msg s = .next t ∧ Keeps s t :=
  (Keeps.guyDeliver (.refl s) (fun _ _ => (Keeps.refl s).mirrorRx)).done

theorem execCkptMsgRx_keeps {msg} : ∃ t, execCkptMsgRx msg s = .next t ∧ Keeps s t :=
  (Keeps.guyDeliver (.refl s) (fun _ _ => (Keeps.refl s).ckptRx)).done

theorem execBatchApply_still : ∃ t, execBatchApply s = .next t ∧ Still s t := by
  have h := Still.refl s
  refine Still.done ?_
  exact h.batchApply

theorem execClaimMsgTx_still : ∃ t, execClaimMsgTx s = .next t ∧ Still s t := by
  have h := Still.refl s
  refine Still.done ?_
  exact h.claimTx

theorem execHeartbeatTx_still : ∃ t, execHeartbeatTx s = .next t ∧ Still s t := by
  have h := Still.refl s
  refine Still.done ?_
  exact h.heartbeatTx

theorem execTimeMsgTx_still {x} : ∃ t, execTimeMsgTx x s = .next t ∧ Still s t := by
  have h := Still.refl s
  refine Still.done ?_
  exact h.timeTx

theorem execGuyTimeStale_still : ∃ t, execGuyTimeStale s = .next t ∧ Still s t := by
  have h := Still.refl s
  refine Still.done ?_
  exact h.timeStale

theorem execMirrorBatchStart_still : ∃ t, execMirrorBatchStart s = .next t ∧ Still s t := by
  have h := Still.refl s
  refine Still.done ?_
  exact h.mirrorStart

theorem execCheckpointStart_still : ∃ t, execCheckpointStart s = .next t ∧ Still s t := by
  have h := Still.refl s
  refine Still.done ?_
  exact h.ckptStart

theorem execClaimWireFrame_still {f} : ∃ t, execClaimWireFrame f s = .next t ∧ Still s t := by
  have h := Still.refl s
  refine Still.done ?_
  exact h.claimWire

theorem execWireStale_still : ∃ t, execWireStale s = .next t ∧ Still s t := by
  have h := Still.refl s
  refine Still.done ?_
  exact h.wireStale

theorem execBecomeHigher_still : ∃ t, execBecomeHigher s = .next t ∧ Still s t := by
  have h := Still.refl s
  refine Still.done ?_
  exact h.becomeHigher

theorem execHeartbeatTimeout_still : ∃ t, execHeartbeatTimeout s = .next t ∧ Still s t := by
  have h := Still.refl s
  refine Still.done ?_
  exact h.hbFail

theorem execInitWaitExpiry_still : ∃ t, execInitWaitExpiry s = .next t ∧ Still s t := by
  have h := Still.refl s
  refine Still.done ?_
  exact h.initWait

theorem execPairEnable_still {v} : ∃ t, execPairEnable v s = .next t ∧ Still s t := by
  have h := Still.refl s
  refine Still.done ?_
  exact h.hostWrite

theorem execPairDisable_still {v} : ∃ t, execPairDisable v s = .next t ∧ Still s t := by
  have h := Still.refl s
  refine Still.done ?_
  exact h.hostWrite

theorem execCheckpointApplyDone_still : ∃ t, execCheckpointApplyDone s = .next t ∧ Still s t := by
  have h := Still.refl s
  refine Still.done ?_
  exact h.ckptApplied

theorem execHandover_still {v} : ∃ t, execHandover v s = .next t ∧ Still s t := by
  have h := Still.refl s
  refine Still.done ?_
  exact h.hostWrite

theorem execRelease_still {v} : ∃ t, execRelease v s = .next t ∧ Still s t := by
  have h := Still.refl s
  refine Still.done ?_
  exact h.hostWrite

theorem execResetAssert_keeps : ∃ t, execResetAssert s = .next t ∧ Keeps s t :=
  Keeps.doneAlways (Keeps.refl s).resetAssert

theorem execResetRelease_keeps {straps} : ∃ t, execResetRelease straps s = .next t ∧ Keeps s t := by
  have h := Keeps.refl s
  refine Keeps.doneAlways ?_
  exact h.resetRelease

theorem execRailFault_keeps {rail} : ∃ t, execRailFault rail s = .next t ∧ Keeps s t := by
  have h := Keeps.refl s
  refine Keeps.doneAlways ?_
  exact h.railFault

theorem execRailRecovery_keeps : ∃ t, execRailRecovery s = .next t ∧ Keeps s t := by
  have h := Keeps.refl s
  refine Keeps.doneAlways ?_
  exact h.railRecovery

theorem execOtpReadDone_still {ok otp} : ∃ t, execOtpReadDone ok otp s = .next t ∧ Still s t := by
  have h := Still.refl s
  refine Still.done ?_
  exact h.otpDone

theorem execFlashDiscoveryDone_still {found jedec size head} : ∃ t, execFlashDiscoveryDone found jedec size head s = .next t ∧ Still s t := by
  have h := Still.refl s
  refine Still.done ?_
  exact h.flashFound

theorem execBootClockTimeout_still : ∃ t, execBootClockTimeout s = .next t ∧ Still s t := by
  have h := Still.refl s
  refine Still.done ?_
  exact h.clockTimeout

theorem execPackVerifyDone_still {pack} : ∃ t, execPackVerifyDone pack s = .next t ∧ Still s t := by
  have h := Still.refl s
  refine Still.done ?_
  exact h.packVerify

theorem execBootPackWrite_still {again} : ∃ t, execBootPackWrite again s = .next t ∧ Still s t := by
  have h := Still.refl s
  refine Still.done ?_
  exact h.packWrite

theorem execBootPackWait_still : ∃ t, execBootPackWait s = .next t ∧ Still s t := by
  have h := Still.refl s
  refine Still.done ?_
  exact h.packWait

theorem execPackApplyDone_still {mismatch} : ∃ t, execPackApplyDone mismatch s = .next t ∧ Still s t := by
  have h := Still.refl s
  refine Still.done ?_
  exact h.packDone

theorem execBootRetry_still {v} : ∃ t, execBootRetry v s = .next t ∧ Still s t := by
  have h := Still.refl s
  refine Still.done ?_
  exact h.hostWrite

theorem execFlashCmdGo_still {v} : ∃ t, execFlashCmdGo v s = .next t ∧ Still s t := by
  have h := Still.refl s
  refine Still.done ?_
  exact h.hostWrite

theorem execFlashCmdDone_still {data} : ∃ t, execFlashCmdDone data s = .next t ∧ Still s t := by
  have h := Still.refl s
  refine Still.done ?_
  exact h.flashDone

theorem execPmcSnap_still {v} : ∃ t, execPmcSnap v s = .next t ∧ Still s t := by
  have h := Still.refl s
  refine Still.done ?_
  exact h.hostWrite

theorem execPmcClear_still {v} : ∃ t, execPmcClear v s = .next t ∧ Still s t := by
  have h := Still.refl s
  refine Still.done ?_
  exact h.hostWrite

theorem execPmcFreeze_still {v} : ∃ t, execPmcFreeze v s = .next t ∧ Still s t := by
  have h := Still.refl s
  refine Still.done ?_
  exact h.hostWrite

theorem execPmcSelectChange_still {g k v} : ∃ t, execPmcSelectChange g k v s = .next t ∧ Still s t := by
  have h := Still.refl s
  refine Still.done ?_
  exact h.hostWrite

theorem execPmcCounterWrap_still {g j} : ∃ t, execPmcCounterWrap g j s = .next t ∧ Still s t := by
  have h := Still.refl s
  refine Still.done ?_
  exact h.pmcWrap

theorem execPmcUserWriteDenied_still {off v} : ∃ t, execPmcUserWriteDenied off v s = .next t ∧ Still s t := by
  have h := Still.refl s
  refine Still.done ?_
  exact h.writeReq

theorem execF1StatusWrite_still {off v} : ∃ t, execF1StatusWrite off v s = .next t ∧ Still s t := by
  have h := Still.refl s
  refine Still.done ?_
  exact h.writeReq

theorem execPinFaultDeclare_still {p f} : ∃ t, execPinFaultDeclare p f s = .next t ∧ Still s t := by
  have h := Still.refl s
  refine Still.done ?_
  exact h.pinDeclare

theorem execPinFaultClear_still {p f} : ∃ t, execPinFaultClear p f s = .next t ∧ Still s t := by
  have h := Still.refl s
  refine Still.done ?_
  exact h.pinClear

theorem execPinReversed_still {p} : ∃ t, execPinReversed p s = .next t ∧ Still s t := by
  have h := Still.refl s
  refine Still.done ?_
  exact h.pinReversed

theorem execShortRetest_still {n gone} : ∃ t, execShortRetest n gone s = .next t ∧ Still s t := by
  have h := Still.refl s
  refine Still.done ?_
  exact h.shortRetest

theorem execUnmappedRead_still {src addr len} : ∃ t, execUnmappedRead src addr len s = .next t ∧ Still s t := by
  have h := Still.refl s
  refine Still.done ?_
  exact h.readReq

theorem execRelayInputEdge_still {n rise ahead} : ∃ t, execRelayInputEdge n rise ahead s = .next t ∧ Still s t := by
  have h := Still.refl s
  refine Still.done ?_
  exact h.relayEdge

theorem execOscFreqOkRestored_still : ∃ t, execOscFreqOkRestored s = .next t ∧ Still s t := by
  have h := Still.refl s
  refine Still.done ?_
  exact h.oscOk

end Sys2Proof.Machine
end

