-- ==== Sys2Proof/Laws/HostWrites.lean ====
section
/-! SUPPORT. The way of an accepted host write: at once to `State.storeWrite`, and for a register that is no half of a
pair and no write-once register, its fields are stored, its action is taken, and the rest is logging. -/

set_option Elab.async false

namespace Sys2Proof.Machine

variable {s t : State}

/-- The scan's state after an accepted write of `a` (R51). -/
def State.afterScan (s : State) (a : Nat) : State := if scanned a then s.scanAccepted else s

theorem done_next (h : s.inReset = false) : done s t = .next (endClock s t) := by
  unfold done
  rw [h]
  rfl

theorem hostWrite_accepted {a : Nat} (h : s.accepts a) (hm : mapped a = true) (ha : a % 4 = 0) (ht : isTable a = false)
    (hx : isMsixTable a = false) (hp : isPba a = false) (v : Word) :
    s.hostWrite a v = (s.storeWrite ⟨.f0, a, v, s.readNow a, false⟩).clockRecs := by
  obtain ⟨⟨_, h1, h2, h3, h0⟩, h4, h5, h6⟩ := h
  have e : s.hostWrite a v = s.access ⟨.f0, a, true, v, 0, 4⟩ := by
    unfold State.hostWrite State.writeReq
    simp [ha, wordAccesses, State.accessAll]
  have d : accessDom .f0 a = domOf a := by simp [accessDom, hm]
  rw [e]
  unfold State.access
  simp only [reduceCtorEq, and_false, if_false, h0 rfl, h3, h2, h1, if_true, Bool.false_eq_true]
  simp only [State.perform, if_true, reduceCtorEq, if_false, State.writeWord, hm, Bool.not_true, Bool.false_eq_true, h6, h4,
    ht, hx, hp, h5]

theorem storeWrite_own {a : Nat} {v : Word} (h : ownWord a = true) :
    Logs (((s.setReg a (s.formWord a v)).act a (s.readNow a) v).afterScan a)
      (s.storeWrite ⟨.f0, a, v, s.readNow a, false⟩) := by
  simp only [ownWord, Bool.and_eq_true, Bool.not_eq_true'] at h
  obtain ⟨⟨⟨⟨⟨⟨⟨hm, ha⟩, ht⟩, hx⟩, hp⟩, hl⟩, hh⟩, hw⟩ := h
  unfold State.storeWrite
  simp only [hl, hh, hw, Bool.false_eq_true, if_false]
  unfold State.recAccepted State.afterScan
  exact .ite (Logs.refl _).record (Logs.refl _)

/-- An accepted host write of a register of its own. -/
theorem hostWrite_own {a : Nat} {v : Word} (h : s.accepts a) (hp : ownWord a = true) :
    ∃ t, done s (s.hostWrite a v) = .next t ∧
      Logs (((s.setReg a (s.formWord a v)).act a (s.readNow a) v).afterScan a) t := by
  have k := hp
  simp only [ownWord, Bool.and_eq_true, Bool.not_eq_true', beq_iff_eq] at k
  obtain ⟨⟨⟨⟨⟨⟨⟨hm, ha⟩, ht⟩, hx⟩, hb⟩, hl⟩, hh⟩, hw⟩ := k
  refine ⟨_, done_next h.1.1, ?_⟩
  rw [hostWrite_accepted h hm ha ht hx hb]
  exact (storeWrite_own hp).clockRecs.endClock

/-- A register with no stored field keeps its word. -/
theorem formWord_none {a : Nat} (h : (fieldsAt a).any Field.stored = false) (v : Word) : s.formWord a v = s.reg a := by
  unfold State.formWord
  split
  · rfl
  · generalize fieldsAt a = l at h
    induction l with
    | nil => rfl
    | cons f r ih =>
      simp only [List.any_cons, Bool.or_eq_false_iff] at h
      simp only [List.foldr_cons, h.1, Bool.false_eq_true, if_false]
      exact ih h.2

/-- An accepted host write of a register that only triggers: its action, and logging. -/
theorem hostWrite_trigger {a : Nat} {v : Word} (h : s.accepts a) (hp : ownWord a = true)
    (hf : (fieldsAt a).any Field.stored = false) :
    ∃ t, done s (s.hostWrite a v) = .next t ∧ Logs ((s.setReg a (s.reg a)).act a (s.readNow a) v) t := by
  have hs : scanned a = false := by
    unfold scanned
    unfold fieldsAt at hf
    split
    · next r e =>
      rw [e] at hf
      simp only [hf, Bool.and_false]
    · rfl
  obtain ⟨t, e, L⟩ := hostWrite_own h hp (v := v)
  refine ⟨t, e, ?_⟩
  rw [formWord_none hf] at L
  unfold State.afterScan at L
  rwa [hs] at L

/-- The fields of a register lie inside its word and beside each other. -/
def fieldsApart (a : Nat) : Bool :=
  decide (∀ f ∈ fieldsAt a, f.fld.lo + f.fld.w ≤ 32) &&
    decide ((fieldsAt a).Pairwise fun f g => g.fld.lo + g.fld.w ≤ f.fld.lo ∨ f.fld.lo + f.fld.w ≤ g.fld.lo)

/-- A stored field that no clamping changes takes the bits written to it. -/
theorem formWord_field {a : Nat} {f : Field} (hn : writesNothing a = false) (hd : fieldsApart a = true)
    (hf : f ∈ fieldsAt a) (hs : f.stored = true) (hc : ∀ w v, s.clampField a f w v = v) (v : Word) :
    f.fld.get (s.formWord a v) = f.fld.get v := by
  simp only [fieldsApart, Bool.and_eq_true, decide_eq_true_eq] at hd
  unfold State.formWord
  rw [hn, if_neg (by decide)]
  obtain ⟨h32, hp⟩ := hd
  generalize fieldsAt a = l at *
  induction l with
  | nil => cases hf
  | cons g r ih =>
    rw [List.foldr_cons]
    rw [List.pairwise_cons] at hp
    rcases List.mem_cons.1 hf with e | hr
    · subst e
      rw [if_pos hs, hc, Fld.get_put (h32 f (List.mem_cons_self ..)), Nat.mod_eq_of_lt (Fld.get_lt _ _)]
    · have hh := ih hr (fun x hx => h32 x (List.mem_cons_of_mem _ hx)) hp.2
      split
      · rw [Fld.get_put_ne (h32 g (List.mem_cons_self ..)) (Or.symm (hp.1 f hr))]
        exact hh
      · exact hh

/-! ### Reads -/

/-- A read of one whole word that reaches its target. -/
theorem readReq_word {src : Src} {a : Nat} (h : s.reaches src a) (ha : a % 4 = 0) :
    s.readReq src a 4 = s.readWord src a 0 4 := by
  obtain ⟨_, h1, h2, h3, h0⟩ := h
  have hf : ¬(src = .f0 ∧ s.flowHeld = true) := fun k => by rw [h0 k.1] at k; cases k.2
  have e : s.readReq src a 4 = s.access ⟨src, a, false, 0#32, 0, 4⟩ := by
    unfold State.readReq
    simp [laneSplit, ha, State.accessAll]
  rw [e]
  unfold State.access
  simp only [hf, Bool.false_eq_true, false_and, if_false, h3, h2, h1, if_true, State.perform]

/-- A host read of one whole mapped word. -/
theorem readReq_f0 {a : Nat} (h : s.reaches .f0 a) (ha : a % 4 = 0) (hm : mapped a = true) :
    s.readReq .f0 a 4 = ((s.answer .f0 a 0 4 (s.readValue .f0 a)).latchRead .f0 a).clearRead a := by
  rw [readReq_word h ha]
  simp only [State.readWord, hm, if_true, State.readF0]

/-! ### Commands that complete -/

/-- A command out of reset ends the clock on its effect. -/
theorem Answers.ofDone {P : State → Prop} (h : s.inReset = false) (hP : ∀ u, Logs t u → P u) : Answers (done s t) P :=
  ⟨_, done_next h, hP _ (Logs.refl t).endClock⟩

theorem Answers.ofHostWrite {a : Nat} {v : Word} {P : State → Prop} (h : s.accepts a) (hp : ownWord a = true)
    (hP : ∀ u, Logs (((s.setReg a (s.formWord a v)).act a (s.readNow a) v).afterScan a) u → P u) :
    Answers (done s (s.hostWrite a v)) P := by
  obtain ⟨t, e, L⟩ := hostWrite_own h hp (v := v)
  exact ⟨t, e, hP t L⟩

theorem Answers.ofTrigger {a : Nat} {v : Word} {P : State → Prop} (h : s.accepts a) (hp : ownWord a = true)
    (hf : (fieldsAt a).any Field.stored = false)
    (hP : ∀ u, Logs ((s.setReg a (s.reg a)).act a (s.readNow a) v) u → P u) : Answers (done s (s.hostWrite a v)) P := by
  obtain ⟨t, e, L⟩ := hostWrite_trigger h hp hf (v := v)
  exact ⟨t, e, hP t L⟩

end Sys2Proof.Machine
end

