-- ==== Sys2Proof/WellFormed.lean ====
section
/-! DEFINITION. Which commands are well-formed: an operand names a thing that exists, and a command that is one row of
the table carries what that row speaks of. -/

namespace Sys2Proof

open Sys2Proof.Machine

/-- A read request: at least one byte, at most 512. -/
def readLen (addr len : Nat) : Bool := decide (addr < 2 ^ 24) && decide (0 < len) && decide (len ≤ 512)

/-- The domain exists. -/
def Dom.wf : Dom → Bool
  | .lane n => decide (n < 24)
  | .register => true
  | .timescale => true
  | .core => true
  | .guyLane => true
  | .emberBridge => true

/-- The loop exists (R148). -/
def Loop.wf : Loop → Bool
  | .lane n => decide (n < 28)
  | .hk => true
  | .jpll => true
  | .core => true
  | .dram => true

/-- The operand of SETTLE_EXPIRY. -/
def Settle.wf : Settle → Bool
  | .loop l _ => l.wf
  | .output _ => true

/-- The operand of GUY_STREAM_ERROR: a row has one block of 4,096 bits in each lane (R368). -/
def StreamBad.wf : StreamBad → Bool
  | .message _ => true
  | .row lanes _ _ => lanes.length == 4 && lanes.all (fun l => l.length == 4096)

/-- The OTP holds one value for each item of R434. -/
def Otp.wf (o : Otp) : Bool :=
  o.lanes.length == 48 && o.events.length == 8 && o.trims.length == 16 && o.paths.length == 10 && o.relays.length == 10

/-- The command is well-formed. -/
def Instr.wf (i : Instr) : Bool :=
  match i with
  | .registerWrite src addr _ words => decide (src ≠ .boot) && decide (addr < 2 ^ 24) && !words.isEmpty
  | .writeOnce src addr _ => (decide (src = .f0) || decide (src = .boot)) && holds addr .w1
  | .readClear src addr len => decide (src ≠ .boot) && readLen addr len && addr % 4 == 0 && clearBits addr != 0
  | .readLowWord src addr len => decide (src ≠ .boot) && readLen addr len && holds addr .rl
  | .writeLowWord addr _ => isPairLo addr
  | .writeHighWord addr _ => isPairHi addr
  | .busTimeout src => decide (src ≠ .boot)
  | .domainLiveAgain d => d.wf
  | .crossingReset _ _ => true
  | .pcieReset => true
  | .pcieLinkDown => true
  | .functionLevelResetF0 => true
  | .functionLevelResetF1 => true
  | .cfgScanCommit _ => true
  | .cfgScanUnfreeze _ => true
  | .cfgScanComplete upsets => upsets.all (fun p => scanned p.1)
  | .fqPop _ => true
  | .dmaRingEnable _ _ => true
  | .dmaTailWrite _ _ => true
  | .dmaDescriptorDone _ desc => desc.length == 12
  | .dmaHoldoffExpiry _ => true
  | .dmaPcieError _ => true
  | .i2cAddressWrite _ _ _ _ => true
  | .i2cRead _ n => decide (0 < n)
  | .dieTempConversion _ code => decide (code < 4096)
  | .timescaleTick _ _ _ => true
  | .secondEvent => true
  | .tscNowCapture src len => decide (src ≠ .boot) && decide (0 < len)
  | .immediateStep _ => true
  | .secondAlignedStep _ => true
  | .absoluteSet _ => true
  | .stepCancel _ => true
  | .stepApply => true
  | .clrSuspect _ => true
  | .copyRestore _ _ => true
  | .copyFenceCmd _ _ => true
  | .tripodInject _ => true
  | .oscFreqMismatch _ => true
  | .oscFreqChange _ => true
  | .warmGate _ => true
  | .warmTimeout => true
  | .oscWarmChange _ => true
  | .refInputEdge _ ahead => decide (ahead < 131072)
  | .refInputStuck _ => true
  | .refOverrunInterval _ => true
  | .refInRearm _ => true
  | .activityInterval _ => true
  | .freqGate _ _ => true
  | .holdoffExpiry _ => true
  | .wtrExpiry _ => true
  | .esmcRx _ _ => true
  | .esmcTimeout _ => true
  | .esmcTxInfo _ => true
  | .esmcTxEvent _ => true
  | .selectorDecision _ _ => true
  | .targetMeasured => true
  | .modelEval => true
  | .fitIntervalEnd => true
  | .modelLoad _ => true
  | .modelClear _ => true
  | .tempAxisChange _ => true
  | .holdoverQualLost _ => true
  | .emberTrimUpdate _ => true
  | .emberResync _ => true
  | .emberResyncCmd _ => true
  | .emberInvalidate _ => true
  | .emberSupplyLow => true
  | .emberColdStart => true
  | .mainPowerLoss => true
  | .mainPowerPresent => true
  | .emberSeed => true
  | .emberXtalStop => true
  | .pllLock l => l.wf
  | .pllLockLoss l _ _ => l.wf
  | .domainGated d => d.wf
  | .settleExpiry what => what.wf
  | .synUpdateGo _ => true
  | .synUpdateApply => true
  | .claimSourceSwitch => true
  | .pdSample _ _ _ => true
  | .laneUnlock _ _ => true
  | .loopbackGo _ _ => true
  | .loopbackAbort _ _ => true
  | .loopbackFrameTx _ _ => true
  | .loopbackFrameReturn _ _ _ => true
  | .loopbackFrameTimeout _ _ => true
  | .loopbackDone _ => true
  | .linkDelayExchange _ _ _ _ _ _ => true
  | .ftempNowWrite _ _ => true
  | .ftempStale _ => true
  | .ptsFifoPop _ _ => true
  | .announceRx _ _ => true
  | .syncRx _ _ _ => true
  | .followUpRx _ _ => true
  | .delayReqRx _ _ _ => true
  | .delayRespTx _ => true
  | .delayRespRx _ _ => true
  | .pdelayReqRx _ _ _ => true
  | .pdelayRespTx _ _ => true
  | .pdelayRespRx _ _ _ => true
  | .pdelayRespFollowUpRx _ _ => true
  | .ptpMgmtRx _ => true
  | .syncTx _ _ => true
  | .announceTx _ => true
  | .followUpTx _ => true
  | .delayReqTx _ _ => true
  | .pdelayReqTx _ _ => true
  | .claimAnnounce => true
  | .announceTimeout _ => true
  | .followUpTimeout _ => true
  | .validOffsetLapse => true
  | .servoFreeze => true
  | .tightServoTick => true
  | .pcsBlockLockLoss _ _ => true
  | .pcsBlockLockGain _ => true
  | .macModeChange _ _ => true
  | .frameReceive _ _ frame => !frame.isEmpty
  | .frameLookup _ => true
  | .frameEnd _ _ _ => true
  | .learningSweep _ => true
  | .tableStageWrite addr _ => isTable addr && addr % 4 == 0 && tableWord addr != 7
  | .tableCommit addr _ => isTable addr && addr % 4 == 0 && tableWord addr == 7
  | .fwdDrain _ => true
  | .drainDone => true
  | .hostFrameIngest desc mem => desc.length == 12 && decide (descLen desc ≤ mem.length)
  | .hostFrameDeliver => true
  | .egressSelect _ _ => true
  | .ageScan => true
  | .spillWrite _ => true
  | .spillReadback _ _ => true
  | .sliceStallThreshold => true
  | .pfcTx _ => true
  | .pfcRefresh _ => true
  | .pfcRx _ _ => true
  | .pauseExpiry _ _ => true
  | .clause31PauseRx _ _ => true
  | .dramTrainingDone _ => true
  | .herdPlace => true
  | .herdDepartureDecision _ _ => true
  | .herdAdmissionSweep => true
  | .journalEnable _ => true
  | .journalDisable _ => true
  | .recordWrite => true
  | .lossRecord => true
  | .journalFire _ => true
  | .spoorTrigEdge _ _ => true
  | .journalFreeze => true
  | .journalRearm _ => true
  | .journalFetch _ => true
  | .fetchDone => true
  | .journalBufferDone desc => desc.length == 12
  | .journalBufferIdle desc => desc.length == 12
  | .rdCountWrite _ => true
  | .tdcEdge _ _ _ _ _ => true
  | .tdcStampConversion _ => true
  | .tdcCalCycleDone _ _ _ _ => true
  | .tdcInterpolatorSwap _ at_ => (match at_ with | .opening m => decide (m < 4) | .point => true | .forced => true)
  | .tdcStuck _ => true
  | .tdcOverrunInterval _ => true
  | .tdcRearm _ => true
  | .tdcFifoPop _ _ => true
  | .tdcWindowStart _ => true
  | .tdcWindowClose _ => true
  | .guyEnable _ => true
  | .guyDisable _ => true
  | .guyLaneLos _ _ => true
  | .guyLaneLol _ _ => true
  | .guyBlockLock _ _ _ => true
  | .guyMarkerRx l => l.length == 4
  | .guyAlignTimeout => true
  | .guyStreamError bad => bad.wf
  | .claimMsgRx _ => true
  | .heartbeatRx _ => true
  | .timeMsgRx _ _ => true
  | .commitRx _ => true
  | .mirrorMsgRx _ => true
  | .ckptMsgRx _ => true
  | .batchApply => true
  | .claimMsgTx => true
  | .heartbeatTx => true
  | .timeMsgTx _ => true
  | .guyTimeStale => true
  | .mirrorBatchStart => true
  | .checkpointStart => true
  | .claimWireFrame _ => true
  | .wireStale => true
  | .becomeHigher => true
  | .heartbeatTimeout => true
  | .initWaitExpiry => true
  | .pairEnable _ => true
  | .pairDisable _ => true
  | .checkpointApplyDone => true
  | .handover _ => true
  | .release _ => true
  | .resetAssert => true
  | .resetRelease _ => true
  | .railFault _ => true
  | .railRecovery => true
  | .otpReadDone _ otp => otp.wf
  | .flashDiscoveryDone found _ size head => !found || (decide (20 ≤ size) && decide (size ≤ 26) && head.length == 64)
  | .bootClockTimeout => true
  | .packVerifyDone _ => true
  | .bootPackWrite again => (match again with | none => true | some e => e.1 % 4 == 0)
  | .bootPackWait => true
  | .packApplyDone _ => true
  | .bootRetry _ => true
  | .flashCmdGo _ => true
  | .flashCmdDone _ => true
  | .pmcSnap _ => true
  | .pmcClear _ => true
  | .pmcFreeze _ => true
  | .pmcSelectChange _ _ _ => true
  | .pmcCounterWrap _ _ => true
  | .pmcUserWriteDenied _ _ => true
  | .f1StatusWrite _ _ => true
  | .pinFaultDeclare _ _ => true
  | .pinFaultClear _ _ => true
  | .pinReversed _ => true
  | .shortRetest _ _ => true
  | .unmappedRead src addr len => decide (src ≠ .boot) && readLen addr len && !mapped (addr / 4 * 4)
  | .relayInputEdge _ _ _ => true
  | .oscFreqOkRestored => true

end Sys2Proof
end

