-- ==== Sys2Proof/Laws/PerInstr.lean ====
section
/-! SUPPORT. One statement for each constructor of the commands: well-formedness shuts out no row of the table. -/

namespace Sys2Proof.Laws

open Sys2Proof.Machine

set_option Elab.async false

/-- An OTP with one value for each item of R434. -/
def otp0 : Otp :=
  { lanes := List.replicate 48 (0#32, 0#32), guy := (0#32, 0#32), events := List.replicate 8 0#32
    trims := List.replicate 16 0, paths := List.replicate 10 0#32, relays := List.replicate 10 0#32, temp := 0#16
    uid := 0#64, rev := 0#16 }

/-- Some command with the constructor of `i` is well-formed. -/
def Operands.Statement (i : Instr) : Prop := ∃ j : Instr, j.ctorIdx = i.ctorIdx ∧ j.wf = true

theorem Operands.registerWrite (src : Src) (addr : Nat) (whole : Bool) (words : List Word)
    : Operands.Statement (.registerWrite src addr whole words) :=
  ⟨.registerWrite .f0 0 true [0#32], rfl, by decide⟩

theorem Operands.writeOnce (src : Src) (addr : Nat) (v : Word) : Operands.Statement (.writeOnce src addr v) :=
  ⟨.writeOnce .f0 R.HIF_LOCK 0#32, rfl, by decide⟩

theorem Operands.readClear (src : Src) (addr : Nat) (len : Nat) : Operands.Statement (.readClear src addr len) :=
  ⟨.readClear .f0 R.HIF_RAW 4, rfl, by decide⟩

theorem Operands.readLowWord (src : Src) (addr : Nat) (len : Nat) : Operands.Statement (.readLowWord src addr len) :=
  ⟨.readLowWord .f0 R.TSC_NOW_TICK_LO 8, rfl, by decide⟩

theorem Operands.writeLowWord (addr : Nat) (v : Word) : Operands.Statement (.writeLowWord addr v) :=
  ⟨.writeLowWord R.TSC_RATE_HOST_LO 0#32, rfl, by decide⟩

theorem Operands.writeHighWord (addr : Nat) (v : Word) : Operands.Statement (.writeHighWord addr v) :=
  ⟨.writeHighWord (R.TSC_RATE_HOST_LO + 4) 0#32, rfl, by decide⟩

theorem Operands.busTimeout (src : Src) : Operands.Statement (.busTimeout src) :=
  ⟨.busTimeout .f0, rfl, by decide⟩

theorem Operands.domainLiveAgain (d : Dom) : Operands.Statement (.domainLiveAgain d) :=
  ⟨.domainLiveAgain .core, rfl, by decide⟩

theorem Operands.crossingReset (block : Fin 18) (blockSide : Bool)
    : Operands.Statement (.crossingReset block blockSide) :=
  ⟨.crossingReset 0 true, rfl, by decide⟩

theorem Operands.pcieReset : Operands.Statement .pcieReset :=
  ⟨.pcieReset, rfl, by decide⟩

theorem Operands.pcieLinkDown : Operands.Statement .pcieLinkDown :=
  ⟨.pcieLinkDown, rfl, by decide⟩

theorem Operands.functionLevelResetF0 : Operands.Statement .functionLevelResetF0 :=
  ⟨.functionLevelResetF0, rfl, by decide⟩

theorem Operands.functionLevelResetF1 : Operands.Statement .functionLevelResetF1 :=
  ⟨.functionLevelResetF1, rfl, by decide⟩

theorem Operands.cfgScanCommit (v : Word) : Operands.Statement (.cfgScanCommit v) :=
  ⟨.cfgScanCommit 0#32, rfl, by decide⟩

theorem Operands.cfgScanUnfreeze (v : Word) : Operands.Statement (.cfgScanUnfreeze v) :=
  ⟨.cfgScanUnfreeze 0#32, rfl, by decide⟩

theorem Operands.cfgScanComplete (upsets : List (Nat × Word)) : Operands.Statement (.cfgScanComplete upsets) :=
  ⟨.cfgScanComplete [], rfl, by decide⟩

theorem Operands.fqPop (v : Word) : Operands.Statement (.fqPop v) :=
  ⟨.fqPop 0#32, rfl, by decide⟩

theorem Operands.dmaRingEnable (k : Fin 3) (v : Word) : Operands.Statement (.dmaRingEnable k v) :=
  ⟨.dmaRingEnable 0 0#32, rfl, by decide⟩

theorem Operands.dmaTailWrite (k : Fin 3) (v : Word) : Operands.Statement (.dmaTailWrite k v) :=
  ⟨.dmaTailWrite 0 0#32, rfl, by decide⟩

theorem Operands.dmaDescriptorDone (k : Fin 3) (desc : List Byte) : Operands.Statement (.dmaDescriptorDone k desc) :=
  ⟨.dmaDescriptorDone 0 (List.replicate 12 0#8), rfl, by decide⟩

theorem Operands.dmaHoldoffExpiry (k : Fin 3) : Operands.Statement (.dmaHoldoffExpiry k) :=
  ⟨.dmaHoldoffExpiry 0, rfl, by decide⟩

theorem Operands.dmaPcieError (k : Fin 3) : Operands.Statement (.dmaPcieError k) :=
  ⟨.dmaPcieError 0, rfl, by decide⟩

theorem Operands.i2cAddressWrite (dev : BitVec 7) (b2 : Byte) (b1 : Byte) (b0 : Byte)
    : Operands.Statement (.i2cAddressWrite dev b2 b1 b0) :=
  ⟨.i2cAddressWrite 0#7 0#8 0#8 0#8, rfl, by decide⟩

theorem Operands.i2cRead (dev : BitVec 7) (n : Nat) : Operands.Statement (.i2cRead dev n) :=
  ⟨.i2cRead 0#7 4, rfl, by decide⟩

theorem Operands.dieTempConversion (raw : Int) (code : Nat) : Operands.Statement (.dieTempConversion raw code) :=
  ⟨.dieTempConversion 0 0, rfl, by decide⟩

theorem Operands.timescaleTick (u0 : Copy) (u1 : Copy) (u2 : Copy) : Operands.Statement (.timescaleTick u0 u1 u2) :=
  ⟨.timescaleTick 0#192 0#192 0#192, rfl, by decide⟩

theorem Operands.secondEvent : Operands.Statement .secondEvent :=
  ⟨.secondEvent, rfl, by decide⟩

theorem Operands.tscNowCapture (src : Src) (len : Nat) : Operands.Statement (.tscNowCapture src len) :=
  ⟨.tscNowCapture .f0 20, rfl, by decide⟩

theorem Operands.immediateStep (v : Word) : Operands.Statement (.immediateStep v) :=
  ⟨.immediateStep 0#32, rfl, by decide⟩

theorem Operands.secondAlignedStep (v : Word) : Operands.Statement (.secondAlignedStep v) :=
  ⟨.secondAlignedStep 0#32, rfl, by decide⟩

theorem Operands.absoluteSet (v : Word) : Operands.Statement (.absoluteSet v) :=
  ⟨.absoluteSet 0#32, rfl, by decide⟩

theorem Operands.stepCancel (v : Word) : Operands.Statement (.stepCancel v) :=
  ⟨.stepCancel 0#32, rfl, by decide⟩

theorem Operands.stepApply : Operands.Statement .stepApply :=
  ⟨.stepApply, rfl, by decide⟩

theorem Operands.clrSuspect (v : Word) : Operands.Statement (.clrSuspect v) :=
  ⟨.clrSuspect 0#32, rfl, by decide⟩

theorem Operands.copyRestore (copy : Fin 3) (v : Word) : Operands.Statement (.copyRestore copy v) :=
  ⟨.copyRestore 0 0#32, rfl, by decide⟩

theorem Operands.copyFenceCmd (copy : Fin 3) (v : Word) : Operands.Statement (.copyFenceCmd copy v) :=
  ⟨.copyFenceCmd 0 0#32, rfl, by decide⟩

theorem Operands.tripodInject (v : Word) : Operands.Statement (.tripodInject v) :=
  ⟨.tripodInject 0#32, rfl, by decide⟩

theorem Operands.oscFreqMismatch (khz : Nat) : Operands.Statement (.oscFreqMismatch khz) :=
  ⟨.oscFreqMismatch 0, rfl, by decide⟩

theorem Operands.oscFreqChange (v : Word) : Operands.Statement (.oscFreqChange v) :=
  ⟨.oscFreqChange 0#32, rfl, by decide⟩

theorem Operands.warmGate (y : Int) : Operands.Statement (.warmGate y) :=
  ⟨.warmGate 0, rfl, by decide⟩

theorem Operands.warmTimeout : Operands.Statement .warmTimeout :=
  ⟨.warmTimeout, rfl, by decide⟩

theorem Operands.oscWarmChange (level : Bool) : Operands.Statement (.oscWarmChange level) :=
  ⟨.oscWarmChange true, rfl, by decide⟩

theorem Operands.refInputEdge (n : Fin 4) (ahead : Nat) : Operands.Statement (.refInputEdge n ahead) :=
  ⟨.refInputEdge 0 0, rfl, by decide⟩

theorem Operands.refInputStuck (n : Fin 4) : Operands.Statement (.refInputStuck n) :=
  ⟨.refInputStuck 0, rfl, by decide⟩

theorem Operands.refOverrunInterval (n : Fin 4) : Operands.Statement (.refOverrunInterval n) :=
  ⟨.refOverrunInterval 0, rfl, by decide⟩

theorem Operands.refInRearm (v : Word) : Operands.Statement (.refInRearm v) :=
  ⟨.refInRearm 0#32, rfl, by decide⟩

theorem Operands.activityInterval (k : Fin 30) : Operands.Statement (.activityInterval k) :=
  ⟨.activityInterval 0, rfl, by decide⟩

theorem Operands.freqGate (k : Fin 30) (raw : Int) : Operands.Statement (.freqGate k raw) :=
  ⟨.freqGate 0 0, rfl, by decide⟩

theorem Operands.holdoffExpiry (k : Fin 30) : Operands.Statement (.holdoffExpiry k) :=
  ⟨.holdoffExpiry 0, rfl, by decide⟩

theorem Operands.wtrExpiry (e : Fin 16) : Operands.Statement (.wtrExpiry e) :=
  ⟨.wtrExpiry 0, rfl, by decide⟩

theorem Operands.esmcRx (port : Fin 24) (frame : List Byte) : Operands.Statement (.esmcRx port frame) :=
  ⟨.esmcRx 0 [], rfl, by decide⟩

theorem Operands.esmcTimeout (port : Fin 24) : Operands.Statement (.esmcTimeout port) :=
  ⟨.esmcTimeout 0, rfl, by decide⟩

theorem Operands.esmcTxInfo (port : Fin 24) : Operands.Statement (.esmcTxInfo port) :=
  ⟨.esmcTxInfo 0, rfl, by decide⟩

theorem Operands.esmcTxEvent (port : Fin 24) : Operands.Statement (.esmcTxEvent port) :=
  ⟨.esmcTxEvent 0, rfl, by decide⟩

theorem Operands.selectorDecision (err : Int) (rate : Int) : Operands.Statement (.selectorDecision err rate) :=
  ⟨.selectorDecision 0 0, rfl, by decide⟩

theorem Operands.targetMeasured : Operands.Statement .targetMeasured :=
  ⟨.targetMeasured, rfl, by decide⟩

theorem Operands.modelEval : Operands.Statement .modelEval :=
  ⟨.modelEval, rfl, by decide⟩

theorem Operands.fitIntervalEnd : Operands.Statement .fitIntervalEnd :=
  ⟨.fitIntervalEnd, rfl, by decide⟩

theorem Operands.modelLoad (v : Word) : Operands.Statement (.modelLoad v) :=
  ⟨.modelLoad 0#32, rfl, by decide⟩

theorem Operands.modelClear (v : Word) : Operands.Statement (.modelClear v) :=
  ⟨.modelClear 0#32, rfl, by decide⟩

theorem Operands.tempAxisChange (v : Word) : Operands.Statement (.tempAxisChange v) :=
  ⟨.tempAxisChange 0#32, rfl, by decide⟩

theorem Operands.holdoverQualLost (bin : Bool) : Operands.Statement (.holdoverQualLost bin) :=
  ⟨.holdoverQualLost true, rfl, by decide⟩

theorem Operands.emberTrimUpdate (count : Nat) : Operands.Statement (.emberTrimUpdate count) :=
  ⟨.emberTrimUpdate 0, rfl, by decide⟩

theorem Operands.emberResync (periodic : Bool) : Operands.Statement (.emberResync periodic) :=
  ⟨.emberResync true, rfl, by decide⟩

theorem Operands.emberResyncCmd (v : Word) : Operands.Statement (.emberResyncCmd v) :=
  ⟨.emberResyncCmd 0#32, rfl, by decide⟩

theorem Operands.emberInvalidate (v : Word) : Operands.Statement (.emberInvalidate v) :=
  ⟨.emberInvalidate 0#32, rfl, by decide⟩

theorem Operands.emberSupplyLow : Operands.Statement .emberSupplyLow :=
  ⟨.emberSupplyLow, rfl, by decide⟩

theorem Operands.emberColdStart : Operands.Statement .emberColdStart :=
  ⟨.emberColdStart, rfl, by decide⟩

theorem Operands.mainPowerLoss : Operands.Statement .mainPowerLoss :=
  ⟨.mainPowerLoss, rfl, by decide⟩

theorem Operands.mainPowerPresent : Operands.Statement .mainPowerPresent :=
  ⟨.mainPowerPresent, rfl, by decide⟩

theorem Operands.emberSeed : Operands.Statement .emberSeed :=
  ⟨.emberSeed, rfl, by decide⟩

theorem Operands.emberXtalStop : Operands.Statement .emberXtalStop :=
  ⟨.emberXtalStop, rfl, by decide⟩

theorem Operands.pllLock (l : Loop) : Operands.Statement (.pllLock l) :=
  ⟨.pllLock .jpll, rfl, by decide⟩

theorem Operands.pllLockLoss (l : Loop) (cause : Fin 3) (sent : Option Nat)
    : Operands.Statement (.pllLockLoss l cause sent) :=
  ⟨.pllLockLoss .jpll 0 none, rfl, by decide⟩

theorem Operands.domainGated (d : Dom) : Operands.Statement (.domainGated d) :=
  ⟨.domainGated .core, rfl, by decide⟩

theorem Operands.settleExpiry (what : Settle) : Operands.Statement (.settleExpiry what) :=
  ⟨.settleExpiry (.loop .jpll 0), rfl, by decide⟩

theorem Operands.synUpdateGo (v : Word) : Operands.Statement (.synUpdateGo v) :=
  ⟨.synUpdateGo 0#32, rfl, by decide⟩

theorem Operands.synUpdateApply : Operands.Statement .synUpdateApply :=
  ⟨.synUpdateApply, rfl, by decide⟩

theorem Operands.claimSourceSwitch : Operands.Statement .claimSourceSwitch :=
  ⟨.claimSourceSwitch, rfl, by decide⟩

theorem Operands.pdSample (port : Fin 25) (tx : Bool) (raw : Fin 8192) : Operands.Statement (.pdSample port tx raw) :=
  ⟨.pdSample 0 true 0, rfl, by decide⟩

theorem Operands.laneUnlock (lane : Fin 28) (sent : Option Nat) : Operands.Statement (.laneUnlock lane sent) :=
  ⟨.laneUnlock 0 none, rfl, by decide⟩

theorem Operands.loopbackGo (port : Fin 24) (v : Word) : Operands.Statement (.loopbackGo port v) :=
  ⟨.loopbackGo 0 0#32, rfl, by decide⟩

theorem Operands.loopbackAbort (port : Fin 24) (v : Word) : Operands.Statement (.loopbackAbort port v) :=
  ⟨.loopbackAbort 0 0#32, rfl, by decide⟩

theorem Operands.loopbackFrameTx (port : Fin 24) (x : StampIn) : Operands.Statement (.loopbackFrameTx port x) :=
  ⟨.loopbackFrameTx 0 ⟨0, 0, 0, ⟨0, 0, 0⟩, 0, false⟩, rfl, by decide⟩

theorem Operands.loopbackFrameReturn (port : Fin 24) (q : Nat) (x : StampIn)
    : Operands.Statement (.loopbackFrameReturn port q x) :=
  ⟨.loopbackFrameReturn 0 0 ⟨0, 0, 0, ⟨0, 0, 0⟩, 0, false⟩, rfl, by decide⟩

theorem Operands.loopbackFrameTimeout (port : Fin 24) (q : Nat) : Operands.Statement (.loopbackFrameTimeout port q) :=
  ⟨.loopbackFrameTimeout 0 0, rfl, by decide⟩

theorem Operands.loopbackDone (port : Fin 24) : Operands.Statement (.loopbackDone port) :=
  ⟨.loopbackDone 0, rfl, by decide⟩

theorem Operands.linkDelayExchange (port : Fin 24) (t1 : Tick64) (t2 : Tick64) (t3 : Tick64) (t4 : Tick64)
    (bad : Bool)
    : Operands.Statement (.linkDelayExchange port t1 t2 t3 t4 bad) :=
  ⟨.linkDelayExchange 0 0#64 0#64 0#64 0#64 true, rfl, by decide⟩

theorem Operands.ftempNowWrite (port : Fin 24) (v : Word) : Operands.Statement (.ftempNowWrite port v) :=
  ⟨.ftempNowWrite 0 0#32, rfl, by decide⟩

theorem Operands.ftempStale (port : Fin 24) : Operands.Statement (.ftempStale port) :=
  ⟨.ftempStale 0, rfl, by decide⟩

theorem Operands.ptsFifoPop (port : Fin 24) (v : Word) : Operands.Statement (.ptsFifoPop port v) :=
  ⟨.ptsFifoPop 0 0#32, rfl, by decide⟩

theorem Operands.announceRx (port : Fin 24) (msg : List Byte) : Operands.Statement (.announceRx port msg) :=
  ⟨.announceRx 0 [], rfl, by decide⟩

theorem Operands.syncRx (port : Fin 24) (msg : List Byte) (x : StampIn) : Operands.Statement (.syncRx port msg x) :=
  ⟨.syncRx 0 [] ⟨0, 0, 0, ⟨0, 0, 0⟩, 0, false⟩, rfl, by decide⟩

theorem Operands.followUpRx (port : Fin 24) (msg : List Byte) : Operands.Statement (.followUpRx port msg) :=
  ⟨.followUpRx 0 [], rfl, by decide⟩

theorem Operands.delayReqRx (port : Fin 24) (msg : List Byte) (x : StampIn)
    : Operands.Statement (.delayReqRx port msg x) :=
  ⟨.delayReqRx 0 [] ⟨0, 0, 0, ⟨0, 0, 0⟩, 0, false⟩, rfl, by decide⟩

theorem Operands.delayRespTx (port : Fin 24) : Operands.Statement (.delayRespTx port) :=
  ⟨.delayRespTx 0, rfl, by decide⟩

theorem Operands.delayRespRx (port : Fin 24) (msg : List Byte) : Operands.Statement (.delayRespRx port msg) :=
  ⟨.delayRespRx 0 [], rfl, by decide⟩

theorem Operands.pdelayReqRx (port : Fin 24) (msg : List Byte) (x : StampIn)
    : Operands.Statement (.pdelayReqRx port msg x) :=
  ⟨.pdelayReqRx 0 [] ⟨0, 0, 0, ⟨0, 0, 0⟩, 0, false⟩, rfl, by decide⟩

theorem Operands.pdelayRespTx (port : Fin 24) (x : StampIn) : Operands.Statement (.pdelayRespTx port x) :=
  ⟨.pdelayRespTx 0 ⟨0, 0, 0, ⟨0, 0, 0⟩, 0, false⟩, rfl, by decide⟩

theorem Operands.pdelayRespRx (port : Fin 24) (msg : List Byte) (x : StampIn)
    : Operands.Statement (.pdelayRespRx port msg x) :=
  ⟨.pdelayRespRx 0 [] ⟨0, 0, 0, ⟨0, 0, 0⟩, 0, false⟩, rfl, by decide⟩

theorem Operands.pdelayRespFollowUpRx (port : Fin 24) (msg : List Byte)
    : Operands.Statement (.pdelayRespFollowUpRx port msg) :=
  ⟨.pdelayRespFollowUpRx 0 [], rfl, by decide⟩

theorem Operands.ptpMgmtRx (port : Fin 24) : Operands.Statement (.ptpMgmtRx port) :=
  ⟨.ptpMgmtRx 0, rfl, by decide⟩

theorem Operands.syncTx (port : Fin 24) (x : StampIn) : Operands.Statement (.syncTx port x) :=
  ⟨.syncTx 0 ⟨0, 0, 0, ⟨0, 0, 0⟩, 0, false⟩, rfl, by decide⟩

theorem Operands.announceTx (port : Fin 24) : Operands.Statement (.announceTx port) :=
  ⟨.announceTx 0, rfl, by decide⟩

theorem Operands.followUpTx (port : Fin 24) : Operands.Statement (.followUpTx port) :=
  ⟨.followUpTx 0, rfl, by decide⟩

theorem Operands.delayReqTx (port : Fin 24) (x : StampIn) : Operands.Statement (.delayReqTx port x) :=
  ⟨.delayReqTx 0 ⟨0, 0, 0, ⟨0, 0, 0⟩, 0, false⟩, rfl, by decide⟩

theorem Operands.pdelayReqTx (port : Fin 24) (x : StampIn) : Operands.Statement (.pdelayReqTx port x) :=
  ⟨.pdelayReqTx 0 ⟨0, 0, 0, ⟨0, 0, 0⟩, 0, false⟩, rfl, by decide⟩

theorem Operands.claimAnnounce : Operands.Statement .claimAnnounce :=
  ⟨.claimAnnounce, rfl, by decide⟩

theorem Operands.announceTimeout (port : Fin 24) : Operands.Statement (.announceTimeout port) :=
  ⟨.announceTimeout 0, rfl, by decide⟩

theorem Operands.followUpTimeout (port : Fin 24) : Operands.Statement (.followUpTimeout port) :=
  ⟨.followUpTimeout 0, rfl, by decide⟩

theorem Operands.validOffsetLapse : Operands.Statement .validOffsetLapse :=
  ⟨.validOffsetLapse, rfl, by decide⟩

theorem Operands.servoFreeze : Operands.Statement .servoFreeze :=
  ⟨.servoFreeze, rfl, by decide⟩

theorem Operands.tightServoTick : Operands.Statement .tightServoTick :=
  ⟨.tightServoTick, rfl, by decide⟩

theorem Operands.pcsBlockLockLoss (port : Fin 24) (signal : Bool)
    : Operands.Statement (.pcsBlockLockLoss port signal) :=
  ⟨.pcsBlockLockLoss 0 true, rfl, by decide⟩

theorem Operands.pcsBlockLockGain (port : Fin 24) : Operands.Statement (.pcsBlockLockGain port) :=
  ⟨.pcsBlockLockGain 0, rfl, by decide⟩

theorem Operands.macModeChange (port : Fin 24) (v : Word) : Operands.Statement (.macModeChange port v) :=
  ⟨.macModeChange 0 0#32, rfl, by decide⟩

theorem Operands.frameReceive (port : Fin 24) (x : StampIn) (frame : List Byte)
    : Operands.Statement (.frameReceive port x frame) :=
  ⟨.frameReceive 0 ⟨0, 0, 0, ⟨0, 0, 0⟩, 0, false⟩ [0#8], rfl, by decide⟩

theorem Operands.frameLookup (port : Fin 25) : Operands.Statement (.frameLookup port) :=
  ⟨.frameLookup 0, rfl, by decide⟩

theorem Operands.frameEnd (port : Fin 24) (how : RxEnd) (corr : Nat) : Operands.Statement (.frameEnd port how corr) :=
  ⟨.frameEnd 0 .good 0, rfl, by decide⟩

theorem Operands.learningSweep (entry : Fin 65536) : Operands.Statement (.learningSweep entry) :=
  ⟨.learningSweep 0, rfl, by decide⟩

theorem Operands.tableStageWrite (addr : Nat) (v : Word) : Operands.Statement (.tableStageWrite addr v) :=
  ⟨.tableStageWrite 0x800000 0#32, rfl, by decide⟩

theorem Operands.tableCommit (addr : Nat) (v : Word) : Operands.Statement (.tableCommit addr v) :=
  ⟨.tableCommit 0x80001C 0#32, rfl, by decide⟩

theorem Operands.fwdDrain (v : Word) : Operands.Statement (.fwdDrain v) :=
  ⟨.fwdDrain 0#32, rfl, by decide⟩

theorem Operands.drainDone : Operands.Statement .drainDone :=
  ⟨.drainDone, rfl, by decide⟩

theorem Operands.hostFrameIngest (desc : List Byte) (mem : List Byte)
    : Operands.Statement (.hostFrameIngest desc mem) :=
  ⟨.hostFrameIngest (List.replicate 12 0#8) [], rfl, by decide⟩

theorem Operands.hostFrameDeliver : Operands.Statement .hostFrameDeliver :=
  ⟨.hostFrameDeliver, rfl, by decide⟩

theorem Operands.egressSelect (port : Fin 25) (x : StampIn) : Operands.Statement (.egressSelect port x) :=
  ⟨.egressSelect 0 ⟨0, 0, 0, ⟨0, 0, 0⟩, 0, false⟩, rfl, by decide⟩

theorem Operands.ageScan : Operands.Statement .ageScan :=
  ⟨.ageScan, rfl, by decide⟩

theorem Operands.spillWrite (q : Fin 200) : Operands.Statement (.spillWrite q) :=
  ⟨.spillWrite 0, rfl, by decide⟩

theorem Operands.spillReadback (q : Fin 200) (head : SpillHead) : Operands.Statement (.spillReadback q head) :=
  ⟨.spillReadback 0 .ok, rfl, by decide⟩

theorem Operands.sliceStallThreshold : Operands.Statement .sliceStallThreshold :=
  ⟨.sliceStallThreshold, rfl, by decide⟩

theorem Operands.pfcTx (port : Fin 24) : Operands.Statement (.pfcTx port) :=
  ⟨.pfcTx 0, rfl, by decide⟩

theorem Operands.pfcRefresh (port : Fin 24) : Operands.Statement (.pfcRefresh port) :=
  ⟨.pfcRefresh 0, rfl, by decide⟩

theorem Operands.pfcRx (port : Fin 24) (frame : List Byte) : Operands.Statement (.pfcRx port frame) :=
  ⟨.pfcRx 0 [], rfl, by decide⟩

theorem Operands.pauseExpiry (port : Fin 24) (p : Fin 8) : Operands.Statement (.pauseExpiry port p) :=
  ⟨.pauseExpiry 0 0, rfl, by decide⟩

theorem Operands.clause31PauseRx (port : Fin 24) (frame : List Byte)
    : Operands.Statement (.clause31PauseRx port frame) :=
  ⟨.clause31PauseRx 0 [], rfl, by decide⟩

theorem Operands.dramTrainingDone (bad : Fin 4) : Operands.Statement (.dramTrainingDone bad) :=
  ⟨.dramTrainingDone 0, rfl, by decide⟩

theorem Operands.herdPlace : Operands.Statement .herdPlace :=
  ⟨.herdPlace, rfl, by decide⟩

theorem Operands.herdDepartureDecision (port : Fin 24) (x : StampIn)
    : Operands.Statement (.herdDepartureDecision port x) :=
  ⟨.herdDepartureDecision 0 ⟨0, 0, 0, ⟨0, 0, 0⟩, 0, false⟩, rfl, by decide⟩

theorem Operands.herdAdmissionSweep : Operands.Statement .herdAdmissionSweep :=
  ⟨.herdAdmissionSweep, rfl, by decide⟩

theorem Operands.journalEnable (v : Word) : Operands.Statement (.journalEnable v) :=
  ⟨.journalEnable 0#32, rfl, by decide⟩

theorem Operands.journalDisable (v : Word) : Operands.Statement (.journalDisable v) :=
  ⟨.journalDisable 0#32, rfl, by decide⟩

theorem Operands.recordWrite : Operands.Statement .recordWrite :=
  ⟨.recordWrite, rfl, by decide⟩

theorem Operands.lossRecord : Operands.Statement .lossRecord :=
  ⟨.lossRecord, rfl, by decide⟩

theorem Operands.journalFire (v : Word) : Operands.Statement (.journalFire v) :=
  ⟨.journalFire 0#32, rfl, by decide⟩

theorem Operands.spoorTrigEdge (fall : Bool) (ns : Nat) : Operands.Statement (.spoorTrigEdge fall ns) :=
  ⟨.spoorTrigEdge true 0, rfl, by decide⟩

theorem Operands.journalFreeze : Operands.Statement .journalFreeze :=
  ⟨.journalFreeze, rfl, by decide⟩

theorem Operands.journalRearm (v : Word) : Operands.Statement (.journalRearm v) :=
  ⟨.journalRearm 0#32, rfl, by decide⟩

theorem Operands.journalFetch (v : Word) : Operands.Statement (.journalFetch v) :=
  ⟨.journalFetch 0#32, rfl, by decide⟩

theorem Operands.fetchDone : Operands.Statement .fetchDone :=
  ⟨.fetchDone, rfl, by decide⟩

theorem Operands.journalBufferDone (desc : List Byte) : Operands.Statement (.journalBufferDone desc) :=
  ⟨.journalBufferDone (List.replicate 12 0#8), rfl, by decide⟩

theorem Operands.journalBufferIdle (desc : List Byte) : Operands.Statement (.journalBufferIdle desc) :=
  ⟨.journalBufferIdle (List.replicate 12 0#8), rfl, by decide⟩

theorem Operands.rdCountWrite (n : BitVec 64) : Operands.Statement (.rdCountWrite n) :=
  ⟨.rdCountWrite 0#64, rfl, by decide⟩

theorem Operands.tdcEdge (e : Fin 8) (rise : Bool) (code : Nat) (since : Nat) (hold : Option Nat)
    : Operands.Statement (.tdcEdge e rise code since hold) :=
  ⟨.tdcEdge 0 true 0 0 none, rfl, by decide⟩

theorem Operands.tdcStampConversion (e : Fin 8) : Operands.Statement (.tdcStampConversion e) :=
  ⟨.tdcStampConversion 0, rfl, by decide⟩

theorem Operands.tdcCalCycleDone (e : Fin 8) (b : Bool) (s1 : Nat) (s2 : Nat)
    : Operands.Statement (.tdcCalCycleDone e b s1 s2) :=
  ⟨.tdcCalCycleDone 0 true 0 0, rfl, by decide⟩

theorem Operands.tdcInterpolatorSwap (e : Fin 8) (at_ : SwapAt) : Operands.Statement (.tdcInterpolatorSwap e at_) :=
  ⟨.tdcInterpolatorSwap 0 .point, rfl, by decide⟩

theorem Operands.tdcStuck (e : Fin 8) : Operands.Statement (.tdcStuck e) :=
  ⟨.tdcStuck 0, rfl, by decide⟩

theorem Operands.tdcOverrunInterval (e : Fin 8) : Operands.Statement (.tdcOverrunInterval e) :=
  ⟨.tdcOverrunInterval 0, rfl, by decide⟩

theorem Operands.tdcRearm (v : Word) : Operands.Statement (.tdcRearm v) :=
  ⟨.tdcRearm 0#32, rfl, by decide⟩

theorem Operands.tdcFifoPop (e : Fin 8) (v : Word) : Operands.Statement (.tdcFifoPop e v) :=
  ⟨.tdcFifoPop 0 0#32, rfl, by decide⟩

theorem Operands.tdcWindowStart (m : Fin 4) : Operands.Statement (.tdcWindowStart m) :=
  ⟨.tdcWindowStart 0, rfl, by decide⟩

theorem Operands.tdcWindowClose (m : Fin 4) : Operands.Statement (.tdcWindowClose m) :=
  ⟨.tdcWindowClose 0, rfl, by decide⟩

theorem Operands.guyEnable (v : Word) : Operands.Statement (.guyEnable v) :=
  ⟨.guyEnable 0#32, rfl, by decide⟩

theorem Operands.guyDisable (v : Word) : Operands.Statement (.guyDisable v) :=
  ⟨.guyDisable 0#32, rfl, by decide⟩

theorem Operands.guyLaneLos (l : Fin 4) (b : Bool) : Operands.Statement (.guyLaneLos l b) :=
  ⟨.guyLaneLos 0 true, rfl, by decide⟩

theorem Operands.guyLaneLol (l : Fin 4) (b : Bool) : Operands.Statement (.guyLaneLol l b) :=
  ⟨.guyLaneLol 0 true, rfl, by decide⟩

theorem Operands.guyBlockLock (l : Fin 4) (gained : Bool) (compl : Bool)
    : Operands.Statement (.guyBlockLock l gained compl) :=
  ⟨.guyBlockLock 0 true true, rfl, by decide⟩

theorem Operands.guyMarkerRx (l : List (BitVec 70 × Nat)) : Operands.Statement (.guyMarkerRx l) :=
  ⟨.guyMarkerRx [(0#70, 0), (0#70, 0), (0#70, 0), (0#70, 0)], rfl, by decide⟩

theorem Operands.guyAlignTimeout : Operands.Statement .guyAlignTimeout :=
  ⟨.guyAlignTimeout, rfl, by decide⟩

theorem Operands.guyStreamError (bad : StreamBad) : Operands.Statement (.guyStreamError bad) :=
  ⟨.guyStreamError (.message []), rfl, by decide⟩

theorem Operands.claimMsgRx (msg : List Byte) : Operands.Statement (.claimMsgRx msg) :=
  ⟨.claimMsgRx [], rfl, by decide⟩

theorem Operands.heartbeatRx (msg : List Byte) : Operands.Statement (.heartbeatRx msg) :=
  ⟨.heartbeatRx [], rfl, by decide⟩

theorem Operands.timeMsgRx (msg : List Byte) (x : StampIn) : Operands.Statement (.timeMsgRx msg x) :=
  ⟨.timeMsgRx [] ⟨0, 0, 0, ⟨0, 0, 0⟩, 0, false⟩, rfl, by decide⟩

theorem Operands.commitRx (msg : List Byte) : Operands.Statement (.commitRx msg) :=
  ⟨.commitRx [], rfl, by decide⟩

theorem Operands.mirrorMsgRx (msg : List Byte) : Operands.Statement (.mirrorMsgRx msg) :=
  ⟨.mirrorMsgRx [], rfl, by decide⟩

theorem Operands.ckptMsgRx (msg : List Byte) : Operands.Statement (.ckptMsgRx msg) :=
  ⟨.ckptMsgRx [], rfl, by decide⟩

theorem Operands.batchApply : Operands.Statement .batchApply :=
  ⟨.batchApply, rfl, by decide⟩

theorem Operands.claimMsgTx : Operands.Statement .claimMsgTx :=
  ⟨.claimMsgTx, rfl, by decide⟩

theorem Operands.heartbeatTx : Operands.Statement .heartbeatTx :=
  ⟨.heartbeatTx, rfl, by decide⟩

theorem Operands.timeMsgTx (x : StampIn) : Operands.Statement (.timeMsgTx x) :=
  ⟨.timeMsgTx ⟨0, 0, 0, ⟨0, 0, 0⟩, 0, false⟩, rfl, by decide⟩

theorem Operands.guyTimeStale : Operands.Statement .guyTimeStale :=
  ⟨.guyTimeStale, rfl, by decide⟩

theorem Operands.mirrorBatchStart : Operands.Statement .mirrorBatchStart :=
  ⟨.mirrorBatchStart, rfl, by decide⟩

theorem Operands.checkpointStart : Operands.Statement .checkpointStart :=
  ⟨.checkpointStart, rfl, by decide⟩

theorem Operands.claimWireFrame (f : BitVec 80) : Operands.Statement (.claimWireFrame f) :=
  ⟨.claimWireFrame 0#80, rfl, by decide⟩

theorem Operands.wireStale : Operands.Statement .wireStale :=
  ⟨.wireStale, rfl, by decide⟩

theorem Operands.becomeHigher : Operands.Statement .becomeHigher :=
  ⟨.becomeHigher, rfl, by decide⟩

theorem Operands.heartbeatTimeout : Operands.Statement .heartbeatTimeout :=
  ⟨.heartbeatTimeout, rfl, by decide⟩

theorem Operands.initWaitExpiry : Operands.Statement .initWaitExpiry :=
  ⟨.initWaitExpiry, rfl, by decide⟩

theorem Operands.pairEnable (v : Word) : Operands.Statement (.pairEnable v) :=
  ⟨.pairEnable 0#32, rfl, by decide⟩

theorem Operands.pairDisable (v : Word) : Operands.Statement (.pairDisable v) :=
  ⟨.pairDisable 0#32, rfl, by decide⟩

theorem Operands.checkpointApplyDone : Operands.Statement .checkpointApplyDone :=
  ⟨.checkpointApplyDone, rfl, by decide⟩

theorem Operands.handover (v : Word) : Operands.Statement (.handover v) :=
  ⟨.handover 0#32, rfl, by decide⟩

theorem Operands.release (v : Word) : Operands.Statement (.release v) :=
  ⟨.release 0#32, rfl, by decide⟩

theorem Operands.resetAssert : Operands.Statement .resetAssert :=
  ⟨.resetAssert, rfl, by decide⟩

theorem Operands.resetRelease (straps : Fin 4) : Operands.Statement (.resetRelease straps) :=
  ⟨.resetRelease 0, rfl, by decide⟩

theorem Operands.railFault (rail : Fin 4) : Operands.Statement (.railFault rail) :=
  ⟨.railFault 0, rfl, by decide⟩

theorem Operands.railRecovery : Operands.Statement .railRecovery :=
  ⟨.railRecovery, rfl, by decide⟩

theorem Operands.otpReadDone (ok : Bool) (otp : Otp) : Operands.Statement (.otpReadDone ok otp) :=
  ⟨.otpReadDone true otp0, rfl, by decide⟩

theorem Operands.flashDiscoveryDone (found : Bool) (jedec : BitVec 24) (size : Nat) (head : List Byte)
    : Operands.Statement (.flashDiscoveryDone found jedec size head) :=
  ⟨.flashDiscoveryDone false 0#24 0 [], rfl, by decide⟩

theorem Operands.bootClockTimeout : Operands.Statement .bootClockTimeout :=
  ⟨.bootClockTimeout, rfl, by decide⟩

theorem Operands.packVerifyDone (pack : List Byte) : Operands.Statement (.packVerifyDone pack) :=
  ⟨.packVerifyDone [], rfl, by decide⟩

theorem Operands.bootPackWrite (again : Option (Nat × Word)) : Operands.Statement (.bootPackWrite again) :=
  ⟨.bootPackWrite none, rfl, by decide⟩

theorem Operands.bootPackWait : Operands.Statement .bootPackWait :=
  ⟨.bootPackWait, rfl, by decide⟩

theorem Operands.packApplyDone (mismatch : Bool) : Operands.Statement (.packApplyDone mismatch) :=
  ⟨.packApplyDone true, rfl, by decide⟩

theorem Operands.bootRetry (v : Word) : Operands.Statement (.bootRetry v) :=
  ⟨.bootRetry 0#32, rfl, by decide⟩

theorem Operands.flashCmdGo (v : Word) : Operands.Statement (.flashCmdGo v) :=
  ⟨.flashCmdGo 0#32, rfl, by decide⟩

theorem Operands.flashCmdDone (data : List Byte) : Operands.Statement (.flashCmdDone data) :=
  ⟨.flashCmdDone [], rfl, by decide⟩

theorem Operands.pmcSnap (v : Word) : Operands.Statement (.pmcSnap v) :=
  ⟨.pmcSnap 0#32, rfl, by decide⟩

theorem Operands.pmcClear (v : Word) : Operands.Statement (.pmcClear v) :=
  ⟨.pmcClear 0#32, rfl, by decide⟩

theorem Operands.pmcFreeze (v : Word) : Operands.Statement (.pmcFreeze v) :=
  ⟨.pmcFreeze 0#32, rfl, by decide⟩

theorem Operands.pmcSelectChange (g : Fin 3) (k : Fin 8) (v : Word) : Operands.Statement (.pmcSelectChange g k v) :=
  ⟨.pmcSelectChange 0 0 0#32, rfl, by decide⟩

theorem Operands.pmcCounterWrap (g : Fin 3) (j : Fin 9) : Operands.Statement (.pmcCounterWrap g j) :=
  ⟨.pmcCounterWrap 0 0, rfl, by decide⟩

theorem Operands.pmcUserWriteDenied (off : Fin 32768) (v : Word) : Operands.Statement (.pmcUserWriteDenied off v) :=
  ⟨.pmcUserWriteDenied 0 0#32, rfl, by decide⟩

theorem Operands.f1StatusWrite (off : Fin 256) (v : Word) : Operands.Statement (.f1StatusWrite off v) :=
  ⟨.f1StatusWrite 0 0#32, rfl, by decide⟩

theorem Operands.pinFaultDeclare (p : Fin 36) (f : PinFault) : Operands.Statement (.pinFaultDeclare p f) :=
  ⟨.pinFaultDeclare 0 .gndP, rfl, by decide⟩

theorem Operands.pinFaultClear (p : Fin 36) (f : PinFault) : Operands.Statement (.pinFaultClear p f) :=
  ⟨.pinFaultClear 0 .gndP, rfl, by decide⟩

theorem Operands.pinReversed (p : Fin 36) : Operands.Statement (.pinReversed p) :=
  ⟨.pinReversed 0, rfl, by decide⟩

theorem Operands.shortRetest (n : Fin 10) (gone : Bool) : Operands.Statement (.shortRetest n gone) :=
  ⟨.shortRetest 0 true, rfl, by decide⟩

theorem Operands.unmappedRead (src : Src) (addr : Nat) (len : Nat)
    : Operands.Statement (.unmappedRead src addr len) :=
  ⟨.unmappedRead .f0 0x7C 4, rfl, by decide⟩

theorem Operands.relayInputEdge (n : Fin 10) (rise : Bool) (ahead : Nat)
    : Operands.Statement (.relayInputEdge n rise ahead) :=
  ⟨.relayInputEdge 0 true 0, rfl, by decide⟩

theorem Operands.oscFreqOkRestored : Operands.Statement .oscFreqOkRestored :=
  ⟨.oscFreqOkRestored, rfl, by decide⟩

end Sys2Proof.Laws
end

