-- ==== Sys2Proof/Machine/Merge.lean ====
section
/-! DEFINITION. The merge of the journals of several nodes (spec/12_spoor_journal.md R336 to R339): a function of the set of
records that was read out. -/

namespace Sys2Proof.Machine

/-- The record that 32 bytes of a buffer or of the staging registers spell (R319). -/
def recOfBytes (b : List Byte) : Rec :=
  let h := leNat (slice b 8 4)
  let q := leNat (slice b 12 4)
  { time := BitVec.ofNat 64 (leNat (slice b 0 8)), far := maskBit h 31, trig := maskBit h 30, coarse := maskBit h 29,
    gap := maskBit h 28, xf := maskBit h 27, seg := bitsOf h 26 24, typ := bitsOf h 23 16, node := bitsOf h 15 0,
    seq := bitsOf q 31 16, p0 := bitsOf q 15 0, w4 := leNat (slice b 16 4), w5 := leNat (slice b 20 4),
    w6 := leNat (slice b 24 4), w7 := leNat (slice b 28 4) }

/-! ### Normalisation (R336) -/

/-- A record of an applied step: PHASE_STEP without CANCEL. -/
def Rec.isStep (r : Rec) : Bool := r.typ == 0x10 && !maskBit r.p0 3

/-- The amount of a PHASE_STEP record, in Tick64 units. -/
def Rec.amount (r : Rec) : Int := sx 64 (r.w6 + 2 ^ 32 * r.w7)

/-- The seconds of a TIME_QUALITY record. -/
def Rec.seconds (r : Rec) : Nat := r.w5 + 2 ^ 32 * bitsOf r.w6 15 0

/-- The absolute time of a TIME_QUALITY record, in Tick64 units. -/
def Rec.absTime (r : Rec) : Int :=
  let s : Int := r.seconds * 65536000000000
  s + tickDiff r.time (BitVec.ofInt 64 s)

/-- A record with its ring index and the ordinal of its segment. -/
structure Ordered where
  index : Nat
  r : Rec
  g : Int
  deriving DecidableEq, Repr

/-- The segment ordinals of the records of one node, in ring index order; `g` and `cur`: the steps before and the SEG in
force. -/
def ordinals : Int → Nat → List (Nat × Rec) → List Ordered
  | _, _, [] => []
  | g, cur, (i, r) :: l =>
    let g := if r.isStep then g + 1 else g
    let cur := if r.isStep then r.seg else cur
    ⟨i, r, g - ((cur % 8 + 8 - r.seg % 8) % 8 : Nat)⟩ :: ordinals g cur l

/-- The records `l` in ring index order. -/
def insertIndex (x : Nat × Rec) : List (Nat × Rec) → List (Nat × Rec)
  | [] => [x]
  | y :: l => if x.1 < y.1 then x :: y :: l else y :: insertIndex x l

/-- The segment ordinals of the records of one node. -/
def nodeOrdinals (l : List (Nat × Rec)) : List Ordered :=
  let l := l.foldl (fun t x => insertIndex x t) []
  match l with
  | [] => []
  | x :: _ => ordinals 0 x.2.seg l

/-- Distance of two ring indices. -/
def indexGap (a b : Nat) : Nat := max a b - min a b

/-- The anchor of `x`: the TIME_QUALITY record of its segment nearest it by index; of two equally near, the first (DESIGN
CHOICE, log 43). -/
def anchorOf (l : List Ordered) (x : Ordered) : Option Ordered :=
  (l.filter (fun q => q.r.typ == 0x16 && q.g == x.g)).foldl (fun b q =>
    match b with
    | none => some q
    | some p => if indexGap q.index x.index < indexGap p.index x.index then some q else some p) none

/-- U of `x` in ps: that of the last anchor of its segment at or before it, or else of the first after it. -/
def uncertainty (l : List Ordered) (x : Ordered) : Option Nat :=
  let a := l.filter (fun q => q.r.typ == 0x16 && q.g == x.g)
  match (a.filter (fun q => decide (q.index ≤ x.index))).getLast? with
  | some q => some q.r.w4
  | none => a.head?.map (fun q => q.r.w4)

/-- A timed record: its node, ring index, merge time m and uncertainty U, both in Tick64 units. -/
structure Placed where
  node : Nat
  index : Nat
  m : Int
  u : Int
  r : Rec
  deriving DecidableEq, Repr

/-- Record `x` of the node whose records are `l`, when it is timed. -/
def placeRec (l : List Ordered) (x : Ordered) : Option Placed :=
  let later := ((l.filter (fun y => y.r.isStep)).drop x.g.toNat).map (fun y => y.r)
  match anchorOf l x, uncertainty l x with
  | some q, some u =>
    if x.g < 0 ∨ u = 0xFFFFFFFF ∨ later.any (fun r => r.far) = true then none
    else some ⟨x.r.node, x.index, q.r.absTime + tickDiff x.r.time q.r.time + later.foldl (fun a r => a + r.amount) 0,
      (u * 65536 / 1000 : Nat), x.r⟩
  | _, _ => none

/-- The nodes whose records `l` holds, in ascending order. -/
def nodesOf (l : List (Nat × Rec)) : List Nat :=
  l.foldl (fun t x => t.filter (· < x.2.node) ++ [x.2.node] ++ t.filter (x.2.node < ·)) []

/-- The records of node `n`, with their segment ordinals. -/
def ofNode (l : List (Nat × Rec)) (n : Nat) : List Ordered := nodeOrdinals (l.filter (fun x => x.2.node == n))

/-- Every timed record. -/
def timedOf (l : List (Nat × Rec)) : List Placed :=
  (nodesOf l).flatMap (fun n => let k := ofNode l n; k.filterMap (placeRec k))

/-- The untimed records of every node, in index order. -/
def untimedOf (l : List (Nat × Rec)) : List (Nat × List (Nat × Rec)) :=
  (nodesOf l).map (fun n => let k := ofNode l n
    (n, (k.filter (fun x => (placeRec k x).isNone)).map (fun x => (x.index, x.r))))

/-! ### Links (R337) -/

/-- A FRAME_OUT record `o` and a FRAME_IN record `i` of another node carry one frame and lie within the window; `w`: the
longest link delay in Tick64 units. -/
def sameFrame (w : Int) (o i : Placed) : Bool :=
  o.r.typ == 2 && i.r.typ == 1 && o.node != i.node && o.r.xf == i.r.xf &&
    (if o.r.xf then o.r.w4 == i.r.w4 && o.r.w5 == i.r.w5 && o.r.p0 == i.r.p0 && bitsOf o.r.w6 31 14 == bitsOf i.r.w6 31 14 &&
        bitsOf o.r.w6 17 14 != 15
      else o.r.w4 == i.r.w4 && bitsOf o.r.w6 13 0 == bitsOf i.r.w6 13 0) &&
    decide (-(o.u + i.u) ≤ i.m - o.m) && decide (i.m - o.m ≤ w + o.u + i.u)

/-- The links of the timed records `l`: an ordinary frame has one only where a single FRAME_OUT record meets the
conditions. -/
def linksOf (w : Int) (l : List Placed) : List (Placed × Placed) :=
  l.flatMap (fun i =>
    let os := l.filter (fun o => sameFrame w o i)
    if i.r.xf || os.length == 1 then os.map (fun o => (o, i)) else [])

/-! ### Order (R338) -/

/-- The key (m, NODE, ring index) of `a` is less than that of `b`. -/
def keyLess (a b : Placed) : Bool :=
  decide (a.m < b.m) || (a.m == b.m && (decide (a.node < b.node) || (a.node == b.node && decide (a.index < b.index))))

/-- `a` comes before `b` in the order of their node. -/
def before (a b : Placed) : Bool := a.node == b.node && keyLess a b

/-- Link `a` counts as less than link `b` where one of a cycle is removed: by m_o − m_i, then by the key of i (the greater
key is removed, and at equal i the link with the greater key of o: DESIGN CHOICE, log 43). -/
def linkLess (a b : Placed × Placed) : Bool :=
  let x := a.1.m - a.2.m
  let y := b.1.m - b.2.m
  decide (x < y) || (x == y && (keyLess a.2 b.2 || (a.2 == b.2 && keyLess a.1 b.1)))

/-- What the records `from_` reach among `l` by node-local order and the links `ks`, in at most `fuel` rounds. -/
def reach (l : List Placed) (ks : List (Placed × Placed)) : Nat → List Placed → List Placed
  | 0, from_ => from_
  | n + 1, from_ =>
    reach l ks n (l.filter (fun r => from_.contains r || from_.any (fun a => before a r || ks.contains (a, r))))

/-- Link `k` is the greatest of some cycle: its FRAME_IN record reaches its FRAME_OUT record by lesser links. -/
def inconsistent (l : List Placed) (ks : List (Placed × Placed)) (k : Placed × Placed) : Bool :=
  (reach l (ks.filter (fun j => linkLess j k)) l.length [k.2]).contains k.1

/-- The record of `l` with the least key. -/
def leastOf : List Placed → Option Placed
  | [] => none
  | a :: l =>
    match leastOf l with
    | none => some a
    | some b => if keyLess b a then some b else some a

/-- The lexicographically least topological order of `l` under node-local order and the links `ks`; `fuel`: the records. -/
def topological (ks : List (Placed × Placed)) : Nat → List Placed → List Placed
  | 0, _ => []
  | n + 1, l =>
    match leastOf (l.filter (fun r => !(l.any (fun a => before a r || ks.contains (a, r))))) with
    | none => []
    | some r => r :: topological ks n (l.filter (· != r))

/-- What the merge gives: the global order, the untimed records per node, and the inconsistent links. -/
structure Merged where
  order : List Placed
  untimed : List (Nat × List (Nat × Rec))
  inconsistent : List (Placed × Placed)
  deriving DecidableEq, Repr

/-- The merge of the records `l`, each with its ring index, with longest link delay `w` in Tick64 units (R336 to
R339). -/
def merge (w : Int) (l : List (Nat × Rec)) : Merged :=
  let t := timedOf l
  let ks := linksOf w t
  let bad := ks.filter (inconsistent t ks)
  { order := topological (ks.filter (fun k => !bad.contains k)) t.length t, untimed := untimedOf l, inconsistent := bad }

/-- The longest link delay unless the integrator sets another: 1 ms (R337). -/
abbrev mergeWindow : Int := 65536000000

end Sys2Proof.Machine
end

