-- ==== Sys2Proof/Tests/Slice0.lean ====
section
/-! SUPPORT. Tests: states and operands that meet the hypotheses of the statements (meets_<Statement>_<clause>), ill-formed
commands for each check, and worked examples of the spec. -/

namespace Sys2Proof.Tests

open Sys2Proof Sys2Proof.Machine

set_option Elab.async false

/-- A device that runs: out of reset, every domain clocked, nothing configured. -/
def live : State :=
  { State.reset with
    gated := []
    syn := { State.reset.syn with locked := [Loop.hk, .jpll, .core, .dram] ++ (List.range 28).map Loop.lane }
    boot := { State.reset.boot with trained := true } }.p R.BOOT_STATUS F.BOOT_STATUS_STATE 7

/-- An ESMC information PDU with SSM code 2. -/
def esmcPdu : List Byte :=
  [0x01, 0x80, 0xC2, 0, 0, 2, 2, 0, 0, 0, 0, 1, 0x88, 0x09, 0x0A, 0, 0x19, 0xA7, 0, 1, 0x10, 0, 0, 0, 1, 0, 4, 2] ++
    List.replicate 36 0#8

/-- A PTP message of type `ty` with the given flags, sequence number, source and body. -/
def ptpMsg (ty flags seq src : Nat) (body : List Byte) : List Byte :=
  beBytes 1 ty ++ beBytes 1 0x12 ++ beBytes 2 (34 + body.length) ++ beBytes 2 0 ++ beBytes 2 flags ++ beBytes 8 0 ++
    beBytes 4 0 ++ beBytes 10 src ++ beBytes 2 seq ++ beBytes 2 0x0500 ++ body

/-- A device whose PTP engine runs with port 3 in a role and a state. -/
def engine (role st : Nat) : State :=
  ((((live.p R.PTP_CTRL F.PTP_CTRL_EN 1).setPair R.PTP_CLOCK_ID_LO 0x1122334455667788).p (R.PTP_Pn_CFG 3)
    F.PTP_Pn_CFG_ROLE role).setPtpState 3 st).setPair (R.PTP_Pn_PARENT_LO 3) 0xAABBCCDDEEFF0011 |>.setRegN
    (R.PTP_Pn_PARENT_PORT 3) 1

def slave : State := engine 2 5
def master : State := engine 1 2
def peer : State := slave.p (R.PTP_Pn_CFG 3) F.PTP_Pn_CFG_DELAY_MECH 1

/-- A header of a boot pack of one section whose FREQ code is `f`. -/
def packHead (f : Nat) : List Byte :=
  let b := leBytes 4 0x4B505A4F ++ leBytes 2 1 ++ leBytes 2 64 ++ leBytes 4 80 ++ leBytes 2 1 ++ leBytes 1 f ++
    leBytes 1 0 ++ leBytes 4 0x2416B010 ++ leBytes 4 77 ++ List.replicate 36 0#8
  b ++ leBytes 4 (crc32c b)

/-! ### The hypotheses of the general statements can be met -/

theorem meets_IdleStep_1 : ∃ s : State, s.pending = [] ∧ s.inReset = false :=
  ⟨live, by decide +kernel⟩

theorem meets_IdleStep_2 : ∃ s : State, s.pending = [] ∧ s.inReset = true :=
  ⟨{ State.reset with boot := { State.reset.boot with pinLow := true } }, by decide +kernel⟩

theorem meets_StepKeepsSound : ∃ s t : State, s.sound ∧ step s = .next t :=
  ⟨State.reset, _, State.sound_reset, rfl⟩

theorem meets_StepKeepsConditions : ∃ s t : State, s.condsShown ∧ s.conds ≠ [] ∧
    step { s with pending := [.secondEvent] } = .next t :=
  ⟨{ live with conds := [(R.SPR_RAW, 8#32)], regs := [(R.SPR_RAW, 8#32)] }, _,
    (by intro p hp _; simp only [List.mem_singleton] at hp; subst hp; decide +kernel), by decide, rfl⟩

theorem meets_StepKeepsForwardingInRange : ∃ s t : State, s.fwdOk ∧ step s = .next t :=
  ⟨live, _, by decide +kernel, rfl⟩

theorem meets_WritersOfDram : ∃ c : Instr, c ≠ .recordWrite ∧ (∀ m, c ≠ .mirrorMsgRx m) ∧ (∀ m, c ≠ .ckptMsgRx m) :=
  ⟨.learningSweep 65535, nofun, nofun, nofun⟩

theorem meets_MoversOfTheTimescale : ∃ c : Instr, (∀ u v w, c ≠ .timescaleTick u v w) ∧ c ≠ .stepApply ∧
    c ≠ .synUpdateApply ∧ c ≠ .emberSeed ∧ (∀ x, c ≠ .settleExpiry x) ∧ c ≠ .resetAssert ∧
    (∀ x, c ≠ .railFault x) ∧ c ≠ .mainPowerLoss :=
  ⟨.secondEvent, nofun, nofun, nofun, nofun, nofun, nofun, nofun, nofun⟩

theorem meets_GuylineCodes_1 : ∃ d : List Bool, d.length = 3840 := ⟨List.replicate 3840 true, List.length_replicate⟩

theorem meets_GuylineCodes_3 : ∃ (c q lo hi : Nat) (b : List Byte), msgLens c = some (lo, hi) ∧ lo ≤ b.length ∧
    b.length ≤ hi ∧ q < 2 ^ 32 :=
  ⟨6, 4294967295, 8, 4096, List.replicate 4096 255#8, rfl, by rw [List.length_replicate]; omega,
    by rw [List.length_replicate], by omega⟩

theorem meets_GuylineCodes_4 : ∃ p q claim : Nat, p < 2 ^ 16 ∧ q < 2 ^ 16 ∧ claim < 2 ^ 32 :=
  ⟨65535, 0, 4294967295, by decide⟩

theorem meets_Identification_1 : ∃ s t : State, s.reg R.HIF_ID = 0x2416B010#32 ∧ step s = .next t :=
  ⟨live, _, by decide +kernel, rfl⟩

theorem meets_Identification_2 : ∃ s : State, s.reg R.HIF_ID = 0x2416B010#32 ∧ s.reaches .f0 R.HIF_ID :=
  ⟨live, by decide +kernel⟩

theorem meets_ClaimOrder : ∃ s t : State, s.rut.rank < 16 ∧ s.rut.unit < 16 ∧ t.rut.rank < 16 ∧ t.rut.unit < 16 :=
  ⟨live, { live with rut := { live.rut with rank := 15, unit := 15 } }, by decide +kernel⟩

theorem scanBytes_ref (s : State) (v : Word) (a : Nat) :
    (s.setReg R.HIF_CFG_CRC_REF v).scanBytes a = s.scanBytes a := by
  by_cases h : a = R.HIF_CFG_CRC_REF
  · subst h
    have : scanMask R.HIF_CFG_CRC_REF = 0 := by decide +kernel
    unfold State.scanBytes
    rw [this, Nat.and_zero, Nat.and_zero]
  · unfold State.scanBytes
    rw [State.reg_setReg_ne]
    exact h

theorem scanResult_ref (s : State) (v : Word) : (s.setReg R.HIF_CFG_CRC_REF v).scanResult = s.scanResult := by
  unfold State.scanResult
  congr 2
  funext c a
  rw [scanBytes_ref]

/-- A device that scans, with ACTION 1. -/
def scanning : State :=
  (live.p R.HIF_CFG_CRC_STATUS F.HIF_CFG_CRC_STATUS_STATE 2).p R.HIF_CFG_CRC_CTRL F.HIF_CFG_CRC_CTRL_ACTION 1

theorem scan_differs (s : State) (r : Nat) (hq : s.scanResult = r) (hr : s.inReset = false) (hs : s.scanState = 2)
    (ha : s.g R.HIF_CFG_CRC_CTRL F.HIF_CFG_CRC_CTRL_ACTION = 1) :
    ∃ t : State, t.inReset = false ∧ t.scanState = 2 ∧ t.scanResult ≠ (t.reg R.HIF_CFG_CRC_REF).toNat ∧
      t.g R.HIF_CFG_CRC_CTRL F.HIF_CFG_CRC_CTRL_ACTION = 1 := by
  refine ⟨s.setReg R.HIF_CFG_CRC_REF (BitVec.ofNat 32 (r + 1)), hr, ?_, ?_, ?_⟩
  · unfold State.scanState State.g at *
    rwa [State.reg_setReg_ne _ (by decide)]
  · intro h
    have e := (scanResult_ref s (BitVec.ofNat 32 (r + 1))).symm.trans h
    rw [hq, State.reg_setReg_same, BitVec.toNat_ofNat] at e
    omega
  · unfold State.g at *
    rwa [State.reg_setReg_ne _ (by decide)]

theorem meets_ConfigurationScan_4 : ∃ (s : State) (l : List (Nat × Word)), s.inReset = false ∧
    (s.upset l).scanState = 2 ∧ (s.upset l).scanResult ≠ ((s.upset l).reg R.HIF_CFG_CRC_REF).toNat ∧
    (s.upset l).g R.HIF_CFG_CRC_CTRL F.HIF_CFG_CRC_CTRL_ACTION = 1 :=
  have ⟨t, h1, h2, h3, h4⟩ := scan_differs scanning _ rfl (by decide +kernel) (by decide +kernel) (by decide +kernel)
  ⟨t, [], h1, h2, h3, h4⟩

/-! ### Ill-formed commands are refused -/

theorem test_wf_register_write :
    (Instr.registerWrite .boot 0 true [0#32]).wf = false ∧ (Instr.registerWrite .f0 (2 ^ 24) true [0#32]).wf = false ∧
      (Instr.registerWrite .f0 0 true []).wf = false := by decide

theorem test_wf_once_and_reads :
    (Instr.writeOnce .f1 R.HIF_LOCK 1#32).wf = false ∧ (Instr.writeOnce .f0 R.HIF_ID 1#32).wf = false ∧
      (Instr.readClear .boot R.HIF_RAW 4).wf = false ∧ (Instr.readClear .f0 R.HIF_RAW 0).wf = false ∧
      (Instr.readClear .f0 R.HIF_RAW 513).wf = false ∧ (Instr.readClear .f0 (2 ^ 24) 4).wf = false ∧
      (Instr.readClear .f0 (R.HIF_RAW + 1) 4).wf = false ∧ (Instr.readClear .f0 R.HIF_ID 4).wf = false := by decide

theorem test_wf_pairs :
    (Instr.readLowWord .boot R.TSC_NOW_TICK_LO 8).wf = false ∧ (Instr.readLowWord .f0 R.TSC_NOW_TICK_LO 0).wf = false ∧
      (Instr.readLowWord .f0 R.TSC_NOW_TICK_HI 4).wf = false ∧ (Instr.writeLowWord R.HIF_ID 0#32).wf = false ∧
      (Instr.writeHighWord R.TSC_RATE_HOST_LO 0#32).wf = false := by decide

theorem test_wf_host :
    (Instr.busTimeout .boot).wf = false ∧ (Instr.domainLiveAgain (.lane 24)).wf = false ∧
      (Instr.cfgScanComplete [(R.HIF_ID, 1#32)]).wf = false ∧ (Instr.i2cRead 0x58#7 0).wf = false ∧
      (Instr.dieTempConversion 0 4096).wf = false ∧ (Instr.tscNowCapture .boot 4).wf = false ∧
      (Instr.tscNowCapture .f0 0).wf = false ∧ (Instr.unmappedRead .boot 0x7C 4).wf = false ∧
      (Instr.unmappedRead .f0 0x7C 0).wf = false ∧ (Instr.unmappedRead .f0 R.HIF_ID 4).wf = false := by decide

theorem test_wf_loops :
    (Instr.pllLock (.lane 28)).wf = false ∧ (Instr.pllLockLoss (.lane 28) 0 none).wf = false ∧
      (Instr.domainGated (.lane 24)).wf = false ∧ (Instr.settleExpiry (.loop (.lane 28) 0)).wf = false := by decide

theorem test_wf_tables_and_frames :
    (Instr.frameReceive 0 ⟨0, 0, 0, ⟨0, 0, 0⟩, 0, false⟩ []).wf = false ∧ (Instr.tableStageWrite 0x7FFFFC 0#32).wf = false ∧
      (Instr.tableStageWrite 0x800001 0#32).wf = false ∧ (Instr.tableStageWrite 0x80001C 0#32).wf = false ∧
      (Instr.tableCommit 0x7FFFFC 0#32).wf = false ∧ (Instr.tableCommit 0x80001D 0#32).wf = false ∧
      (Instr.tableCommit 0x800000 0#32).wf = false ∧ (Instr.hostFrameIngest [] []).wf = false ∧
      (Instr.hostFrameIngest (List.replicate 12 1#8) (List.replicate 256 0#8)).wf = false ∧
      (Instr.dmaDescriptorDone 1 []).wf = false := by decide +kernel

theorem test_wf_journal_and_events :
    (Instr.journalBufferDone []).wf = false ∧ (Instr.journalBufferIdle (List.replicate 11 0#8)).wf = false ∧
      (Instr.refInputEdge 0 131072).wf = false ∧ (Instr.tdcInterpolatorSwap 0 (.opening 4)).wf = false := by decide

theorem test_wf_guyline_and_boot :
    (Instr.guyMarkerRx []).wf = false ∧ (Instr.guyStreamError (.row [] 0 ⟨0, 0, 0, ⟨0, 0, 0⟩, 0, false⟩)).wf = false ∧
      (Instr.guyStreamError (.row [[], [], [], []] 0 ⟨0, 0, 0, ⟨0, 0, 0⟩, 0, false⟩)).wf = false ∧
      (Instr.flashDiscoveryDone true 0#24 19 (List.replicate 64 0#8)).wf = false ∧
      (Instr.flashDiscoveryDone true 0#24 27 (List.replicate 64 0#8)).wf = false ∧
      (Instr.flashDiscoveryDone true 0#24 20 []).wf = false ∧ (Instr.bootPackWrite (some (5, 0#32))).wf = false := by
  decide

/-- An OTP that lacks one value. -/
def shortOtp : Otp :=
  { lanes := List.replicate 47 (0#32, 0#32), guy := (0#32, 0#32), events := List.replicate 8 0#32
    trims := List.replicate 16 0, paths := List.replicate 10 0#32, relays := List.replicate 10 0#32, temp := 0#16
    uid := 0#64, rev := 0#16 }

theorem test_wf_otp :
    (Instr.otpReadDone 0 shortOtp).wf = false ∧
      (Instr.otpReadDone 0 { shortOtp with lanes := List.replicate 48 (0#32, 0#32), events := [] }).wf = false ∧
      (Instr.otpReadDone 0 { shortOtp with lanes := List.replicate 48 (0#32, 0#32), trims := [] }).wf = false ∧
      (Instr.otpReadDone 0 { shortOtp with lanes := List.replicate 48 (0#32, 0#32), paths := [] }).wf = false ∧
      (Instr.otpReadDone 0 { shortOtp with lanes := List.replicate 48 (0#32, 0#32), relays := [] }).wf = false := by
  decide

/-! ### The worked examples of the spec -/

/-- The example of R6: Tick64 of two stamps on both sides of the first wrap, and their signed difference. -/
theorem test_tick64_wrap :
    tickOf (mkT96 281474 976710556 0) = 0xFFFFFFFFFF9C0000#64 ∧ tickOf (mkT96 281474 976710756 0) = 0x640000#64 ∧
      tickDiff (tickOf (mkT96 281474 976710756 0)) (tickOf (mkT96 281474 976710556 0)) = 13107200 := by decide +kernel

/-- The example of R70: RATE −236,439 gives the increment 562,949,953,184,873. -/
theorem test_rate_increment : cInc (cRate (-236439) Copy.reset) = 562949953184873 := by decide +kernel

/-- R69: a sub-second that reaches 10⁹ ns carries into the seconds. -/
theorem test_tick_carries :
    cTick (mkCopy 6 (999999999 * 2 ^ 48 + 2 ^ 47) (2 ^ 49)) = mkCopy 7 (2 ^ 48 + 2 ^ 47) (2 ^ 49) := by decide +kernel

/-- The example of R193: a departure stamp as the one-step unit writes it. -/
theorem test_one_step_stamp :
    beBytes 6 (tSec (mkT96 1700000123 456790001 40000)) = beBytes 6 0x6553F17B ∧
      beBytes 4 (tNs (mkT96 1700000123 456790001 40000)) = [0x1B#8, 0x3A#8, 0x0F#8, 0xF1#8] := by decide +kernel

/-- The example of R14: queue 195 is class 3 of port 24, at its own register. -/
theorem test_queue_number : R.QUE_Qq_MIN (8 * 24 + 3) = R.QUE_Qq_MIN 0 + 4 * 195 := by decide

/-- The example of R65: a board controller reads DIE_TEMP 0x05A0 as 0xA0, 0x05, 0x00, 0x00. -/
theorem test_i2c_die_temp :
    Answers (exec (.i2cRead 0x58#7 4) { live.setRegN R.HIF_TEMP 0x5A0 with hif := { live.hif with i2cAddr := 0x70 } }) fun t =>
      .readData .i2c 0x70 [0xA0#8, 5#8, 0#8, 0#8] ∈ t.out :=
  ⟨_, rfl, by decide +kernel⟩

/-- The example of R102: a 100 MHz input needs DIV of 5 at least, so a write of DIV 2 is stored as 5. -/
theorem test_div_clamped :
    Answers (exec (.registerWrite .f0 (R.REF_INn_DIV 0) true [2#32]) (live.setRegN (R.REF_INn_FREQ 0) 100000000)) fun t =>
      t.g (R.REF_INn_DIV 0) F.REF_INn_DIV_DIV = 5 :=
  ⟨_, rfl, by decide +kernel⟩

/-- R27: a write with a byte enable clear is discarded, and counted. -/
theorem test_narrow_write :
    Answers (exec (.registerWrite .f0 R.PMC_CTRL false [1#32]) live) fun t =>
      t.reg R.PMC_CTRL = live.reg R.PMC_CTRL ∧ t.g R.HIF_ACCESS_FAULT F.HIF_ACCESS_FAULT_NARROW_WR = 1 :=
  ⟨_, rfl, by decide +kernel⟩

/-- R371: after one bit of SYNC, every 30 DATA bits that fill a run take one stuff bit. -/
theorem test_stuffing_bound :
    (stuff true 1 ((List.replicate 30 true ++ (List.replicate 30 false ++ List.replicate 30 true)))).length = 93 := by
  decide

/-- R369 and R373: a marker carries LANE, MCOUNT and PAIR_ID under a CHECK that one flipped bit breaks. -/
theorem test_marker :
    markerOk (marker 2 7 0x1234 1) = true ∧ markerLane (marker 2 7 0x1234 1) = 2 ∧ markerCount (marker 2 7 0x1234 1) = 7 ∧
      markerPair (marker 2 7 0x1234 1) = 0x1234 ∧ markerOk (marker 2 7 0x1234 1 ^^^ 0x100000000#70) = false := by
  decide +kernel

/-- The example of R407: claim 0x0000_0731 is epoch 7, rank 3, unit 1. -/
theorem test_claim :
    ({ (live.p R.RUT_STATUS F.RUT_STATUS_STATE pairActive) with
        rut := { live.rut with epoch := 7, rank := 3, unit := 1 } } : State).ownClaim = 0x731 := by decide +kernel

/-- The check values that the published CRCs give for "123456789": CRC-32C (R51), CRC-16 of R212 and CRC-32 (R257). -/
theorem test_crcs :
    crc32c [0x31#8, 0x32#8, 0x33#8, 0x34#8, 0x35#8, 0x36#8, 0x37#8, 0x38#8, 0x39#8] = 0xE3069283 ∧
      crc16Fold 0x1021 0xFFFF [0x31#8, 0x32#8, 0x33#8, 0x34#8, 0x35#8, 0x36#8, 0x37#8, 0x38#8, 0x39#8] = 0x29B1 ∧
      fcsOf [0x31#8, 0x32#8, 0x33#8, 0x34#8, 0x35#8, 0x36#8, 0x37#8, 0x38#8, 0x39#8] = 0xCBF43926 := by decide +kernel

/-- A record of a merge example: node, type, SEG and TIME in ps after second 1,000. -/
def mergeRec (node typ seg ps : Nat) : Rec :=
  ⟨BitVec.ofNat 64 (1000 * 65536000000000 + ps * 65536 / 1000), false, false, false, false, false, seg, typ, node,
    0, 0, 0, 0, 0, 0⟩

/-- A FRAME record of Herd identity 77 with `hops`, ORIGIN 100. -/
def mergeFrame (node typ seg ps hops : Nat) : Rec :=
  { mergeRec node typ seg ps with xf := true, p0 := 0x11, w4 := 77, w6 := 5 * 2 ^ 18 + hops * 2 ^ 14 + 100 }

/-- A TIME_QUALITY record of uncertainty `u` in ps. -/
def mergeAnchor (node seg ps u : Nat) : Rec := { mergeRec node 0x16 seg ps with w4 := u, w5 := 1000 }

/-- The records of the worked example of chapter 12, with ring indices; records of one node stand together. -/
def mergeExample : List (Nat × Rec) :=
  [(0, mergeAnchor 0x11 1 0 30), (1, mergeRec 0x11 0x30 1 1000000), (2, mergeFrame 0x11 1 1 2500000 0),
    (3, mergeFrame 0x11 2 1 14500002 1), (0, mergeAnchor 0x21 2 0 600000), (1, mergeFrame 0x21 1 2 14440012 1),
    (2, mergeFrame 0x21 2 2 22501040 2), (3, { mergeRec 0x21 0x10 3 30550000 with p0 := 3, w6 := 36044800 }),
    (4, mergeAnchor 0x21 3 30550001 50), (0, mergeAnchor 0x31 4 0 40), (1, mergeRec 0x31 0x30 4 23000000),
    (2, mergeFrame 0x31 1 4 23541071 2), (3, mergeRec 0x31 0x38 4 23600000)]

/-- The order of that example: a1, a2, a3, b1, c0, b2, c1, c2, b3. -/
theorem test_merge_order :
    (((merge mergeWindow mergeExample).order.filter (fun x => x.r.typ != 0x16)).map (fun x => (x.node, x.index))) =
      [(0x11, 1), (0x11, 2), (0x11, 3), (0x21, 1), (0x31, 1), (0x21, 2), (0x31, 2), (0x31, 3), (0x21, 3)] := by
  decide +kernel

/-- The links of that example: a3 to b1 and b2 to c1. -/
theorem test_merge_links :
    (linksOf mergeWindow (timedOf mergeExample)).map (fun x => ((x.1.node, x.1.index), (x.2.node, x.2.index))) =
      [((0x11, 3), (0x21, 1)), ((0x21, 2), (0x31, 2))] := by decide +kernel

/-! ### The hypotheses of the family statements can be met, clause by clause -/

theorem meets_ResetAndRails_3 : ∃ (s : State), s.boot.pinLow = true ∧ s.boot.railBad = false :=
  ⟨{ State.reset with boot := { Boot.reset with pinLow := true } },
    by decide +kernel⟩

theorem meets_ResetAndRails_4 : ∃ (s : State), s.boot.power = true :=
  ⟨{ State.reset with boot := { Boot.reset with railBad := true } },
    by decide +kernel⟩

theorem meets_BootFromReset_1 : ∃ (s : State), s.inReset = false ∧ s.bootState = bootOtp :=
  ⟨{ (live.p R.BOOT_STATUS F.BOOT_STATUS_STATE 0) with boot := { live.boot with power := true } },
    by decide +kernel⟩

theorem meets_BootFromReset_2 : ∃ (s : State), s.inReset = false ∧ s.bootState = bootOtp :=
  ⟨{ (live.p R.BOOT_STATUS F.BOOT_STATUS_STATE 0) with boot := { live.boot with power := true } },
    by decide +kernel⟩

theorem meets_BootFromReset_3 : ∃ (s : State), s.inReset = false ∧ s.bootState = bootFlash :=
  ⟨{ (live.p R.BOOT_STATUS F.BOOT_STATUS_STATE 1) with boot := { live.boot with power := true } },
    by decide +kernel⟩

theorem meets_BootFromReset_4 : ∃ (s : State) (n : Nat) (h : List Byte), s.inReset = false ∧ s.bootState = bootFlash
    ∧ headerCheck h (2 ^ min n 26) = 0 ∧ leAt h 14 1 ≤ 3 ∧ s.reaches .boot R.REF_OSC_CFG :=
  ⟨{ (live.p R.BOOT_STATUS F.BOOT_STATUS_STATE 1) with boot := { live.boot with power := true } }, 24, (packHead 1),
    by decide +kernel⟩

theorem meets_BootFromReset_5 : ∃ (s : State) (n : Nat) (h : List Byte) (r : Nat), s.inReset = false ∧ s.bootState =
    bootFlash ∧ headerCheck h (2 ^ min n 26) = r ∧ r ≠ 0 ∧ r ≠ 4 ∧ n < 256 :=
  ⟨{ (live.p R.BOOT_STATUS F.BOOT_STATUS_STATE 1) with boot := { live.boot with power := true } }, 24,
    (List.replicate 64 0#8), 3,
    by decide +kernel⟩

theorem meets_BootFromReset_6 : ∃ (s : State) (n : Nat) (h : List Byte), s.inReset = false ∧ s.bootState = bootFlash
    ∧ headerCheck h (2 ^ min n 26) = 4 ∧ n < 256 :=
  ⟨{ (live.p R.BOOT_STATUS F.BOOT_STATUS_STATE 1) with boot := { live.boot with power := true } }, 24, ((packHead
    1).take 60 ++ List.replicate 4 0#8),
    by decide +kernel⟩

theorem meets_BootFromReset_7 : ∃ (s : State), s.inReset = false ∧ s.bootState ≠ bootOtp :=
  ⟨live,
    by decide +kernel⟩

theorem meets_BootFromReset_8 : ∃ (s : State), s.inReset = false ∧ s.bootState ≠ bootFlash :=
  ⟨live,
    by decide +kernel⟩

theorem meets_BootFromReset_9 : ∃ (s : State), s.inReset = false ∧ s.bootState ≠ bootClocks :=
  ⟨live,
    by decide +kernel⟩

theorem meets_BootFromReset_10 : ∃ (s : State), s.inReset = false ∧ s.bootState ≠ bootVerify :=
  ⟨live,
    by decide +kernel⟩

theorem meets_BootFromReset_11 : ∃ (s : State), s.inReset = false ∧ s.bootState = bootClocks :=
  ⟨{ (live.p R.BOOT_STATUS F.BOOT_STATUS_STATE 2) with boot := { live.boot with power := true } },
    by decide +kernel⟩

theorem meets_BootFromReset_12 : ∃ (s : State) (b : List Byte) (l : List PackOp), s.inReset = false ∧ s.bootState =
    bootVerify ∧ packSections b (s.reg R.BOOT_PACK_LEN).toNat s.boot.sections 0 64 false 64 = .inl l :=
  ⟨{ ({ (live.p R.BOOT_STATUS F.BOOT_STATUS_STATE 3) with boot := { live.boot with power := true } }).setRegN R.BOOT_PACK_LEN 64 with boot := { live.boot with sections := 0 } },
    (List.replicate 64 0#8), [],
    by decide +kernel⟩

theorem meets_BootFromReset_13 : ∃ (s : State) (b : List Byte) (e : PackBad), s.inReset = false ∧ s.bootState =
    bootVerify ∧ packSections b (s.reg R.BOOT_PACK_LEN).toNat s.boot.sections 0 64 false 64 = .inr e ∧ e.reason < 256
    ∧ e.section_ < 4096 :=
  ⟨({ (live.p R.BOOT_STATUS F.BOOT_STATUS_STATE 3) with boot := { live.boot with power := true } }).setRegN
    R.BOOT_PACK_LEN 65, [], ⟨7, 0 - 1, 64, 0, 0⟩,
    by decide +kernel⟩

theorem meets_BootPackAndFlash_1 : ∃ (s : State) (a : Nat) (v : Word) (l : List PackOp), s.inReset = false ∧
    s.bootState = bootApply ∧ s.packHeld = false ∧ afterChecks s.boot.todo = .write a v :: l ∧ s.reaches .boot a ∧
    s.whyIgnored .boot a = none ∧ ownWord a = true ∧ 0x280000 ≤ a ∧ a < 0x300000 ∧ sharedReg a = false :=
  ⟨{ (live.p R.BOOT_STATUS F.BOOT_STATUS_STATE 4) with boot := { live.boot with todo := [.check 0 64, .write R.HRD_NODE_ID 7#32] } },
    R.HRD_NODE_ID, 7#32, [],
    by decide +kernel⟩

theorem meets_BootPackAndFlash_2 : ∃ (s : State) (a : Nat) (v : Word) (l : List PackOp), s.inReset = false ∧
    s.bootState = bootApply ∧ s.packHeld = false ∧ afterChecks s.boot.todo = .write a v :: l ∧ a % 4 = 0 ∧ s.runs
    (accessDom .boot a) = false ∧ s.hif.dead.contains (accessDom .boot a) = false :=
  ⟨{ { (live.p R.BOOT_STATUS F.BOOT_STATUS_STATE 4) with boot := { live.boot with todo := [.write R.TSC_CTRL 1#32] } } with gated := [.timescale] },
    R.TSC_CTRL, 1#32, [],
    by decide +kernel⟩

theorem meets_BootPackAndFlash_3 : ∃ (s : State) (a : Nat) (v : Word) (l : List PackOp), s.inReset = false ∧
    s.bootState = bootApply ∧ s.packHeld = false ∧ afterChecks s.boot.todo = .write a v :: l :=
  ⟨{ (live.p R.BOOT_STATUS F.BOOT_STATUS_STATE 4) with boot := { live.boot with todo := [.check 0 64, .write R.HRD_NODE_ID 7#32] } },
    R.HRD_NODE_ID, 7#32, [],
    by decide +kernel⟩

theorem meets_BootPackAndFlash_4 : ∃ (s : State) (a : Nat) (v : Word) (l : List PackOp), s.inReset = false ∧
    s.bootState = bootApply ∧ s.packHeld = false ∧ afterChecks s.boot.todo = .write a v :: l :=
  ⟨{ (live.p R.BOOT_STATUS F.BOOT_STATUS_STATE 4) with boot := { live.boot with todo := [.check 0 64, .write R.HRD_NODE_ID 7#32] } },
    R.HRD_NODE_ID, 7#32, [],
    by decide +kernel⟩

theorem meets_BootPackAndFlash_5 : ∃ (s : State), s.inReset = false ∧ (s.bootState ≠ bootApply ∨ s.packHeld = true) :=
  ⟨live,
    by decide +kernel⟩

theorem meets_BootPackAndFlash_6 : ∃ (s : State) (n : Nat) (l : List PackOp), s.inReset = false ∧ s.bootState =
    bootApply ∧ s.packHeld = false ∧ afterChecks s.boot.todo = .wait n :: l :=
  ⟨{ (live.p R.BOOT_STATUS F.BOOT_STATUS_STATE 4) with boot := { live.boot with todo := [.wait 5] } }, 5, [],
    by decide +kernel⟩

theorem meets_BootPackAndFlash_7 : ∃ (s : State), s.inReset = false ∧ s.bootState = bootApply ∧ s.packHeld = false ∧
    afterChecks s.boot.todo = [] :=
  ⟨{ (live.p R.BOOT_STATUS F.BOOT_STATUS_STATE 4) with boot := { live.boot with todo := [.check 0 64] } },
    by decide +kernel⟩

theorem meets_BootPackAndFlash_8 : ∃ (s : State) (i : Nat) (n : Nat) (l : List PackOp), s.inReset = false ∧
    s.bootState = bootApply ∧ s.packHeld = false ∧ s.boot.todo = .check i n :: l ∧ i < 4096 :=
  ⟨{ (live.p R.BOOT_STATUS F.BOOT_STATUS_STATE 4) with boot := { live.boot with todo := [.check 3 64] } }, 3, 64, [],
    by decide +kernel⟩

theorem meets_BootPackAndFlash_9 : ∃ (s : State), s.accepts R.BOOT_CMD ∧ s.bootState = bootFailed ∧ s.g R.BOOT_STATUS
    F.BOOT_STATUS_APPLIED = 0 :=
  ⟨{ (live.p R.BOOT_STATUS F.BOOT_STATUS_STATE 8) with boot := { live.boot with power := true } },
    by decide +kernel⟩

theorem meets_BootPackAndFlash_10 : ∃ (s : State), s.accepts R.BOOT_CMD ∧ s.bootState = bootFailed ∧ s.g
    R.BOOT_STATUS F.BOOT_STATUS_APPLIED = 1 :=
  ⟨{ ((live.p R.BOOT_STATUS F.BOOT_STATUS_APPLIED 1).p R.BOOT_STATUS F.BOOT_STATUS_STATE 8) with boot := { live.boot with power := true } },
    by decide +kernel⟩

theorem meets_BootPackAndFlash_11 : ∃ (s : State), s.accepts R.BOOT_FLASH_CTRL ∧ (s.bootState = bootRunState ∨
    s.bootState = bootFailed) ∧ s.g R.BOOT_FLASH_STATUS F.BOOT_FLASH_STATUS_BUSY = 0 :=
  ⟨live,
    by decide +kernel⟩

theorem meets_BootPackAndFlash_12 : ∃ (s : State), s.accepts R.BOOT_FLASH_CTRL ∧ (s.bootState = bootRunState ∨
    s.bootState = bootFailed) ∧ s.g R.BOOT_FLASH_STATUS F.BOOT_FLASH_STATUS_BUSY = 1 :=
  ⟨live.p R.BOOT_FLASH_STATUS F.BOOT_FLASH_STATUS_BUSY 1,
    by decide +kernel⟩

theorem meets_BootPackAndFlash_13 : ∃ (s : State), s.inReset = false ∧ s.g R.BOOT_FLASH_STATUS
    F.BOOT_FLASH_STATUS_BUSY = 1 ∧ s.on R.BOOT_FLASH_CTRL F.BOOT_FLASH_CTRL_DIR = true :=
  ⟨live.p R.BOOT_FLASH_STATUS F.BOOT_FLASH_STATUS_BUSY 1 |>.p R.BOOT_FLASH_CTRL F.BOOT_FLASH_CTRL_DIR 1 |>.p
    R.BOOT_FLASH_CTRL F.BOOT_FLASH_CTRL_LEN 3,
    by decide +kernel⟩

theorem meets_BootPackAndFlash_14 : ∃ (s : State), s.inReset = false ∧ s.g R.BOOT_FLASH_STATUS
    F.BOOT_FLASH_STATUS_BUSY = 1 ∧ s.on R.BOOT_FLASH_CTRL F.BOOT_FLASH_CTRL_DIR = false :=
  ⟨live.p R.BOOT_FLASH_STATUS F.BOOT_FLASH_STATUS_BUSY 1,
    by decide +kernel⟩

theorem meets_FramesArrive_1 : ∃ (s : State) (p : Fin 24) (b : List Byte), s.inReset = false ∧ s.running = true ∧
    s.linkUp p = true ∧ s.fwd.frames.any (fun f => f.port == p && !f.whole) = false ∧ (beAt b 12 2 = 0x8808 ∨
    s.looping p = true) :=
  ⟨(fun (q : State) => (q.p (R.MAC_Pn_CFG 3) F.MAC_Pn_CFG_EN 1).p (R.MAC_Pn_STATUS 3) F.MAC_Pn_STATUS_BLOCK_LOCK 1)
    live, 3, (List.replicate 12 1#8 ++ [0x88#8, 0x08#8] ++ List.replicate 50 0#8),
    by decide +kernel⟩

theorem meets_FramesArrive_2 : ∃ (s : State) (p : Fin 24) (b : List Byte), s.inReset = false ∧ s.running = true ∧
    s.linkUp p = true ∧ s.fwd.frames.any (fun f => f.port == p && !f.whole) = false ∧ beAt b 12 2 ≠ 0x8808 ∧
    s.looping p = false ∧ s.runs .core = true ∧ s.cellsFree p = true ∧ s.usageOk p (s.ingressPrio p b) = true :=
  ⟨(fun (q : State) => (q.p (R.MAC_Pn_CFG 3) F.MAC_Pn_CFG_EN 1).p (R.MAC_Pn_STATUS 3) F.MAC_Pn_STATUS_BLOCK_LOCK 1)
    live, 3, (List.replicate 12 1#8 ++ [8#8, 0#8] ++ List.replicate 50 0#8),
    by decide +kernel⟩

theorem meets_FramesArrive_3 : ∃ (s : State) (p : Fin 24) (b : List Byte), s.inReset = false ∧ s.running = true ∧
    s.linkUp p = true ∧ s.fwd.frames.any (fun f => f.port == p && !f.whole) = false ∧ beAt b 12 2 ≠ 0x8808 ∧
    s.looping p = false ∧ s.runs .core = true ∧ s.cellsFree p = false :=
  ⟨{ (fun (q : State) => (q.p (R.MAC_Pn_CFG 3) F.MAC_Pn_CFG_EN 1).p (R.MAC_Pn_STATUS 3) F.MAC_Pn_STATUS_BLOCK_LOCK 1) live with fwd := { live.fwd with frames := [{ (⟨5, 3, 0, (List.replicate 12 1#8 ++ [8#8, 0#8] ++ List.replicate 50 0#8), ⟨mkT96 5 100 0, false, false, false, 0⟩, true, none, none, false, 1, 0, 0, .none, none, true, [], false, none⟩ : Frame) with port := 3, landing := 128 }, { (⟨5, 3, 0, (List.replicate 12 1#8 ++ [8#8, 0#8] ++ List.replicate 50 0#8), ⟨mkT96 5 100 0, false, false, false, 0⟩, true, none, none, false, 1, 0, 0, .none, none, true, [], false, none⟩ : Frame) with id := 6, account := .pool, cells := 200000 }] } },
    3, (List.replicate 12 1#8 ++ [8#8, 0#8] ++ List.replicate 50 0#8),
    by decide +kernel⟩

theorem meets_FramesArrive_4 : ∃ (s : State) (p : Fin 24) (b : List Byte), s.inReset = false ∧ s.running = true ∧
    s.linkUp p = true ∧ s.fwd.frames.any (fun f => f.port == p && !f.whole) = false ∧ beAt b 12 2 ≠ 0x8808 ∧
    s.looping p = false ∧ s.runs .core = true ∧ s.cellsFree p = true ∧ s.usageOk p (s.ingressPrio p b) = false :=
  ⟨(((fun (q : State) => (q.p (R.MAC_Pn_CFG 3) F.MAC_Pn_CFG_EN 1).p (R.MAC_Pn_STATUS 3) F.MAC_Pn_STATUS_BLOCK_LOCK 1)
    live).setRegN (R.QUE_INn_Up 3 0) 0x3000000), 3, (List.replicate 12 1#8 ++ [8#8, 0#8] ++ List.replicate 50 0#8),
    by decide +kernel⟩

theorem meets_FramesArrive_5 : ∃ (s : State) (p : Fin 24) (b : List Byte), s.inReset = false ∧ s.running = true ∧
    s.linkUp p = true ∧ s.fwd.frames.any (fun f => f.port == p && !f.whole) = false ∧ beAt b 12 2 ≠ 0x8808 ∧
    s.looping p = false ∧ s.runs .core = false ∧ (s.fwd.frames.foldl (fun k g => if g.lane && g.port == p.val then k
    + g.len else k) 0) + b.length ≤ 65536 :=
  ⟨{ ((fun (q : State) => (q.p (R.MAC_Pn_CFG 3) F.MAC_Pn_CFG_EN 1).p (R.MAC_Pn_STATUS 3) F.MAC_Pn_STATUS_BLOCK_LOCK 1) live) with gated := [.core] },
    3, (List.replicate 12 1#8 ++ [8#8, 0#8] ++ List.replicate 50 0#8),
    by decide +kernel⟩

theorem meets_FramesArrive_6 : ∃ (s : State) (p : Fin 24) (b : List Byte), s.inReset = false ∧ s.running = true ∧
    s.linkUp p = true ∧ s.fwd.frames.any (fun f => f.port == p && !f.whole) = false ∧ beAt b 12 2 ≠ 0x8808 ∧
    s.looping p = false ∧ s.runs .core = false ∧ (65536 < (s.fwd.frames.foldl (fun k g => if g.lane && g.port ==
    p.val then k + g.len else k) 0) + b.length) :=
  ⟨{ { (fun (q : State) => (q.p (R.MAC_Pn_CFG 3) F.MAC_Pn_CFG_EN 1).p (R.MAC_Pn_STATUS 3) F.MAC_Pn_STATUS_BLOCK_LOCK 1) live with fwd := { live.fwd with frames := [{ (⟨5, 3, 0, (List.replicate 12 1#8 ++ [8#8, 0#8] ++ List.replicate 50 0#8), ⟨mkT96 5 100 0, false, false, false, 0⟩, true, none, none, false, 1, 0, 0, .none, none, true, [], false, none⟩ : Frame) with port := 3, lane := true, bytes := List.replicate 65500 0#8 }] } } with gated := [.core] },
    3, (List.replicate 12 1#8 ++ [8#8, 0#8] ++ List.replicate 50 0#8),
    by decide +kernel⟩

theorem meets_FramesArrive_7 : ∃ (s : State), s.inReset = false :=
  ⟨live,
    by decide +kernel⟩

theorem meets_FramesLookedUpAndEnded_1 : ∃ (s : State) (p : Fin 25) (f : Frame) (l : Looked), s.inReset = false ∧
    s.fwdOk ∧ s.runs .core = true ∧ s.fwd.frames.find? (fun g => g.port == p.val && g.look.isNone) = some f ∧ (f.lane
    && !(s.cellsFree p)) = false ∧ s.sendingOf f.id = [] ∧ (f.lane = false → (s.lookup f).2 = l) :=
  ⟨{ live with fwd := { live.fwd with frames := [{ (⟨5, 3, 0, (List.replicate 12 1#8 ++ [8#8, 0#8] ++ List.replicate 50 0#8), ⟨mkT96 5 100 0, false, false, false, 0⟩, true, none, none, false, 1, 0, 0, .min 26, none, true, [], false, none⟩ : Frame) with id := 4, port := 7, look := some (Looked.nothing (headsOf (List.replicate 12 1#8 ++ [8#8, 0#8] ++ List.replicate 50 0#8) 0) 1 2 0 0 none 0 false) }, ⟨5, 3, 0, ([0x01, 0x80, 0xC2, 0, 0, 0, 2, 0, 0, 0, 0, 1, 8, 0] ++ List.replicate 50 0#8), ⟨mkT96 5 100 0, false, false, false, 0⟩, false, none, none, false, 64, 64, 0, .none, none, false, [], false, none⟩], queues := [(26, [⟨4, 3, 2, 0, false, false, 0⟩])], nextId := 9 } },
    3, (⟨5, 3, 0, ([0x01, 0x80, 0xC2, 0, 0, 0, 2, 0, 0, 0, 0, 1, 8, 0] ++ List.replicate 50 0#8), ⟨mkT96 5 100 0,
    false, false, false, 0⟩, false, none, none, false, 64, 64, 0, .none, none, false, [], false, none⟩ : Frame),
    (live.lookup ⟨5, 3, 0, ([0x01, 0x80, 0xC2, 0, 0, 0, 2, 0, 0, 0, 0, 1, 8, 0] ++ List.replicate 50 0#8), ⟨mkT96 5
    100 0, false, false, false, 0⟩, false, none, none, false, 64, 64, 0, .none, none, false, [], false, none⟩).2,
    by decide +kernel⟩

theorem meets_FramesLookedUpAndEnded_2 : ∃ (s : State) (p : Fin 25) (f : Frame) (l : Looked) (a : Account), s.inReset
    = false ∧ s.fwdOk ∧ s.runs .core = true ∧ s.fwd.frames.find? (fun g => g.port == p.val && g.look.isNone) = some f
    ∧ s.fwd.stalled = [] ∧ f.lane = false ∧ f.whole = false ∧ l.mgmt = false ∧ (s.lookup f).2 = l ∧ l.dests ≠ [] ∧
    ((s.lookup f).1.setFrame { f with look := some l, placed := false }).accountFor
    { f with look := some l, placed := false } l = some a :=
  ⟨{ live with fwd := { live.fwd with frames := [{ (⟨5, 3, 0, (List.replicate 12 1#8 ++ [8#8, 0#8] ++ List.replicate 50 0#8), ⟨mkT96 5 100 0, false, false, false, 0⟩, true, none, none, false, 1, 0, 0, .min 26, none, true, [], false, none⟩ : Frame) with id := 4, port := 7, look := some (Looked.nothing (headsOf (List.replicate 12 1#8 ++ [8#8, 0#8] ++ List.replicate 50 0#8) 0) 1 2 0 0 none 0 false) }, ⟨5, 3, 0, ([0x01, 0x80, 0xC2, 0, 0, 0, 2, 0, 0, 0, 0, 1, 8, 0] ++ List.replicate 50 0#8), ⟨mkT96 5 100 0, false, false, false, 0⟩, false, none, none, false, 64, 64, 0, .none, none, false, [], false, none⟩], queues := [(26, [⟨4, 3, 2, 0, false, false, 0⟩])], nextId := 9 } },
    3, (⟨5, 3, 0, ([0x01, 0x80, 0xC2, 0, 0, 0, 2, 0, 0, 0, 0, 1, 8, 0] ++ List.replicate 50 0#8), ⟨mkT96 5 100 0,
    false, false, false, 0⟩, false, none, none, false, 64, 64, 0, .none, none, false, [], false, none⟩ : Frame),
    (live.lookup ⟨5, 3, 0, ([0x01, 0x80, 0xC2, 0, 0, 0, 2, 0, 0, 0, 0, 1, 8, 0] ++ List.replicate 50 0#8), ⟨mkT96 5
    100 0, false, false, false, 0⟩, false, none, none, false, 64, 64, 0, .none, none, false, [], false, none⟩).2,
    .min 192,
    by decide +kernel⟩

theorem meets_FramesLookedUpAndEnded_3 : ∃ (s : State) (p : Fin 25) (f : Frame) (l : Looked), s.inReset = false ∧
    s.fwdOk ∧ s.runs .core = true ∧ s.fwd.frames.find? (fun g => g.port == p.val && g.look.isNone) = some f ∧ f.lane
    = false ∧ f.whole = false ∧ (s.lookup f).2 = l ∧ l.dests = [] :=
  ⟨{ live with fwd := { live.fwd with frames := [{ (⟨5, 3, 0, (List.replicate 12 1#8 ++ [8#8, 0#8] ++ List.replicate 50 0#8), ⟨mkT96 5 100 0, false, false, false, 0⟩, true, none, none, false, 1, 0, 0, .min 26, none, true, [], false, none⟩ : Frame) with id := 4, port := 7, look := some (Looked.nothing (headsOf (List.replicate 12 1#8 ++ [8#8, 0#8] ++ List.replicate 50 0#8) 0) 1 2 0 0 none 0 false) }, ⟨5, 3, 0, (List.replicate 12 1#8 ++ [8#8, 0#8] ++ List.replicate 50 0#8), ⟨mkT96 5 100 0, false, false, false, 0⟩, false, none, none, false, 64, 64, 0, .none, none, false, [], false, none⟩], queues := [(26, [⟨4, 3, 2, 0, false, false, 0⟩])], nextId := 9 } },
    3, (⟨5, 3, 0, (List.replicate 12 1#8 ++ [8#8, 0#8] ++ List.replicate 50 0#8), ⟨mkT96 5 100 0, false, false,
    false, 0⟩, false, none, none, false, 64, 64, 0, .none, none, false, [], false, none⟩ : Frame), (live.lookup ⟨5,
    3, 0, (List.replicate 12 1#8 ++ [8#8, 0#8] ++ List.replicate 50 0#8), ⟨mkT96 5 100 0, false, false, false, 0⟩,
    false, none, none, false, 64, 64, 0, .none, none, false, [], false, none⟩).2,
    by decide +kernel⟩

theorem meets_FramesLookedUpAndEnded_4 : ∃ (s : State) (p : Fin 24) (f : Frame), s.inReset = false ∧ s.fwdOk ∧ s.runs
    .core = true ∧ s.fwd.frames.find? (fun g => g.port == p.val && !g.whole) = some f ∧ f.stamp.fecBad = false ∧
    f.look = none ∧ f.placed = false :=
  ⟨{ live with fwd := { live.fwd with frames := [{ (⟨5, 3, 0, (List.replicate 12 1#8 ++ [8#8, 0#8] ++ List.replicate 50 0#8), ⟨mkT96 5 100 0, false, false, false, 0⟩, true, none, none, false, 1, 0, 0, .min 26, none, true, [], false, none⟩ : Frame) with id := 4, port := 7, look := some (Looked.nothing (headsOf (List.replicate 12 1#8 ++ [8#8, 0#8] ++ List.replicate 50 0#8) 0) 1 2 0 0 none 0 false) }, ⟨5, 3, 0, (List.replicate 12 1#8 ++ [8#8, 0#8] ++ List.replicate 50 0#8), ⟨mkT96 5 100 0, false, false, false, 0⟩, false, none, none, false, 1, 0, 0, .none, none, false, [], false, none⟩], queues := [(26, [⟨4, 3, 2, 0, false, false, 0⟩])], nextId := 9 } },
    3, (⟨5, 3, 0, (List.replicate 12 1#8 ++ [8#8, 0#8] ++ List.replicate 50 0#8), ⟨mkT96 5 100 0, false, false,
    false, 0⟩, false, none, none, false, 1, 0, 0, .none, none, false, [], false, none⟩ : Frame),
    by decide +kernel⟩

theorem meets_FramesLookedUpAndEnded_5 : ∃ (s : State) (p : Fin 24) (f : Frame), s.inReset = false ∧ s.runs .core =
    false ∧ s.fwd.frames.find? (fun g => g.port == p.val && !g.whole) = some f :=
  ⟨{ { live with fwd := { live.fwd with frames := [{ (⟨5, 3, 0, (List.replicate 12 1#8 ++ [8#8, 0#8] ++ List.replicate 50 0#8), ⟨mkT96 5 100 0, false, false, false, 0⟩, true, none, none, false, 1, 0, 0, .min 26, none, true, [], false, none⟩ : Frame) with id := 4, port := 7, look := some (Looked.nothing (headsOf (List.replicate 12 1#8 ++ [8#8, 0#8] ++ List.replicate 50 0#8) 0) 1 2 0 0 none 0 false) }, ⟨5, 3, 0, (List.replicate 12 1#8 ++ [8#8, 0#8] ++ List.replicate 50 0#8), ⟨mkT96 5 100 0, false, false, false, 0⟩, false, none, none, false, 1, 0, 0, .none, none, false, [], false, none⟩], queues := [(26, [⟨4, 3, 2, 0, false, false, 0⟩])], nextId := 9 } } with gated := [.core] },
    3, (⟨5, 3, 0, (List.replicate 12 1#8 ++ [8#8, 0#8] ++ List.replicate 50 0#8), ⟨mkT96 5 100 0, false, false,
    false, 0⟩, false, none, none, false, 1, 0, 0, .none, none, false, [], false, none⟩ : Frame),
    by decide +kernel⟩

theorem meets_FramesLookedUpAndEnded_6 : ∃ (s : State) (p : Fin 24) (f : Frame) (l : Looked), s.inReset = false ∧
    s.fwdOk ∧ s.runs .core = true ∧ s.isSet (R.MAC_Pn_CFG p) F.MAC_Pn_CFG_FEC ∧ s.fwd.frames.find? (fun g => g.port
    == p.val && !g.whole) = some f ∧ f.look = some l ∧ s.heldElsewhere f.id = false :=
  ⟨{ (live.p (R.MAC_Pn_CFG 3) F.MAC_Pn_CFG_FEC 1) with fwd := { live.fwd with frames := [{ (⟨5, 3, 0, (List.replicate 12 1#8 ++ [8#8, 0#8] ++ List.replicate 50 0#8), ⟨mkT96 5 100 0, false, false, false, 0⟩, true, none, none, false, 1, 0, 0, .min 26, none, true, [], false, none⟩ : Frame) with id := 4, port := 7, look := some (Looked.nothing (headsOf (List.replicate 12 1#8 ++ [8#8, 0#8] ++ List.replicate 50 0#8) 0) 1 2 0 0 none 0 false) }, ⟨5, 3, 0, (List.replicate 12 1#8 ++ [8#8, 0#8] ++ List.replicate 50 0#8), ⟨mkT96 5 100 0, false, false, false, 0⟩, false, none, none, false, 64, 64, 0, .none, some (Looked.nothing (headsOf (List.replicate 12 1#8 ++ [8#8, 0#8] ++ List.replicate 50 0#8) 0) 1 2 0 0 none 0 false), false, [], false, none⟩], queues := [(26, [⟨4, 3, 2, 0, false, false, 0⟩])], nextId := 9 } },
    3, (⟨5, 3, 0, (List.replicate 12 1#8 ++ [8#8, 0#8] ++ List.replicate 50 0#8), ⟨mkT96 5 100 0, false, false,
    false, 0⟩, false, none, none, false, 64, 64, 0, .none, some (Looked.nothing (headsOf (List.replicate 12 1#8 ++
    [8#8, 0#8] ++ List.replicate 50 0#8) 0) 1 2 0 0 none 0 false), false, [], false, none⟩ : Frame), Looked.nothing
    (headsOf (List.replicate 12 1#8 ++ [8#8, 0#8] ++ List.replicate 50 0#8) 0) 1 2 0 0 none 0 false,
    by decide +kernel⟩

theorem meets_FramesLookedUpAndEnded_7 : ∃ (s : State) (p : Fin 24) (f : Frame) (l : Looked) (e : RxEnd), s.inReset =
    false ∧ s.fwdOk ∧ s.runs .core = true ∧ s.fwd.frames.find? (fun g => g.port == p.val && !g.whole) = some f ∧
    f.look = some l ∧ s.heldElsewhere f.id = false ∧ s.endOf p f e ≠ .uncorr ∧ badCause (received e f.bytes) (s.endOf
    p f e) ≠ none :=
  ⟨{ live with fwd := { live.fwd with frames := [{ (⟨5, 3, 0, (List.replicate 12 1#8 ++ [8#8, 0#8] ++ List.replicate 50 0#8), ⟨mkT96 5 100 0, false, false, false, 0⟩, true, none, none, false, 1, 0, 0, .min 26, none, true, [], false, none⟩ : Frame) with id := 4, port := 7, look := some (Looked.nothing (headsOf (List.replicate 12 1#8 ++ [8#8, 0#8] ++ List.replicate 50 0#8) 0) 1 2 0 0 none 0 false) }, ⟨5, 3, 0, (List.replicate 12 1#8 ++ [8#8, 0#8] ++ List.replicate 50 0#8), ⟨mkT96 5 100 0, false, false, false, 0⟩, false, none, none, false, 64, 64, 0, .none, some (Looked.nothing (headsOf (List.replicate 12 1#8 ++ [8#8, 0#8] ++ List.replicate 50 0#8) 0) 1 2 0 0 none 0 false), false, [], false, none⟩], queues := [(26, [⟨4, 3, 2, 0, false, false, 0⟩])], nextId := 9 } },
    3, (⟨5, 3, 0, (List.replicate 12 1#8 ++ [8#8, 0#8] ++ List.replicate 50 0#8), ⟨mkT96 5 100 0, false, false,
    false, 0⟩, false, none, none, false, 64, 64, 0, .none, some (Looked.nothing (headsOf (List.replicate 12 1#8 ++
    [8#8, 0#8] ++ List.replicate 50 0#8) 0) 1 2 0 0 none 0 false), false, [], false, none⟩ : Frame), Looked.nothing
    (headsOf (List.replicate 12 1#8 ++ [8#8, 0#8] ++ List.replicate 50 0#8) 0) 1 2 0 0 none 0 false, .good,
    by decide +kernel⟩

theorem meets_FramesLookedUpAndEnded_8 : ∃ (s : State) (p : Fin 24) (f : Frame) (l : Looked), s.inReset = false ∧
    s.fwdOk ∧ s.runs .core = true ∧ s.fwd.frames.find? (fun g => g.port == p.val && !g.whole) = some f ∧ f.look =
    some l ∧ f.stamp.fecBad = false ∧ badCause f.bytes .good = none ∧ s.sendingOf f.id = [] :=
  ⟨{ live with fwd := { live.fwd with frames := [{ (⟨5, 3, 0, (List.replicate 12 1#8 ++ [8#8, 0#8] ++ List.replicate 50 0#8), ⟨mkT96 5 100 0, false, false, false, 0⟩, true, none, none, false, 1, 0, 0, .min 26, none, true, [], false, none⟩ : Frame) with id := 4, port := 7, look := some (Looked.nothing (headsOf (List.replicate 12 1#8 ++ [8#8, 0#8] ++ List.replicate 50 0#8) 0) 1 2 0 0 none 0 false) }, ⟨5, 3, 0, (withFcs ([0x01, 0x80, 0xC2, 0, 0, 0, 2, 0, 0, 0, 0, 1, 8, 0] ++ List.replicate 50 0#8)), ⟨mkT96 5 100 0, false, false, false, 0⟩, false, none, none, false, 64, 0, 0, .min 58, some { Looked.nothing (headsOf (List.replicate 12 1#8 ++ [8#8, 0#8] ++ List.replicate 50 0#8) 0) 1 2 0 0 none 0 false with dests := [7, 8] }, true, [], false, none⟩], nextId := 9, queues := [(26, [⟨4, 3, 2, 0, false, false, 0⟩]), (58, [⟨5, 7, 2, 0, false, false, 0⟩]), (66, [⟨5, 8, 2, 0, false, false, 0⟩])] } },
    3, (⟨5, 3, 0, (withFcs ([0x01, 0x80, 0xC2, 0, 0, 0, 2, 0, 0, 0, 0, 1, 8, 0] ++ List.replicate 50 0#8)), ⟨mkT96 5
    100 0, false, false, false, 0⟩, false, none, none, false, 64, 0, 0, .min 58, some
    { Looked.nothing (headsOf (List.replicate 12 1#8 ++ [8#8, 0#8] ++ List.replicate 50 0#8) 0) 1 2 0 0 none 0 false with dests := [7, 8] },
    true, [], false, none⟩ : Frame),
    { Looked.nothing (headsOf (List.replicate 12 1#8 ++ [8#8, 0#8] ++ List.replicate 50 0#8) 0) 1 2 0 0 none 0 false with dests := [7, 8] },
    by decide +kernel⟩

theorem meets_FramesLookedUpAndEnded_9 : ∃ (s : State) (p : Fin 24) (f : Frame) (l : Looked) (x : Sending), s.inReset
    = false ∧ s.fwdOk ∧ s.runs .core = true ∧ s.fwd.frames.find? (fun g => g.port == p.val && !g.whole) = some f ∧
    f.look = some l ∧ f.stamp.fecBad = false ∧ badCause f.bytes .good = none ∧ s.sendingOf f.id = [x] :=
  ⟨{ live with fwd := { live.fwd with frames := [{ (⟨5, 3, 0, (List.replicate 12 1#8 ++ [8#8, 0#8] ++ List.replicate 50 0#8), ⟨mkT96 5 100 0, false, false, false, 0⟩, true, none, none, false, 1, 0, 0, .min 26, none, true, [], false, none⟩ : Frame) with id := 4, port := 7, look := some (Looked.nothing (headsOf (List.replicate 12 1#8 ++ [8#8, 0#8] ++ List.replicate 50 0#8) 0) 1 2 0 0 none 0 false) }, ⟨5, 3, 0, (withFcs ([0x01, 0x80, 0xC2, 0, 0, 0, 2, 0, 0, 0, 0, 1, 8, 0] ++ List.replicate 50 0#8)), ⟨mkT96 5 100 0, false, false, false, 0⟩, false, none, none, false, 64, 0, 0, .min 58, some { Looked.nothing (headsOf (List.replicate 12 1#8 ++ [8#8, 0#8] ++ List.replicate 50 0#8) 0) 1 2 0 0 none 0 false with dests := [7, 8] }, true, [], false, none⟩], nextId := 9, sending := [(7, some ⟨⟨5, 7, 2, 0, true, false, 0⟩, ⟨mkT96 5 300 0, false, false, false, 0⟩⟩)], queues := [(26, [⟨4, 3, 2, 0, false, false, 0⟩])] } },
    3, (⟨5, 3, 0, (withFcs ([0x01, 0x80, 0xC2, 0, 0, 0, 2, 0, 0, 0, 0, 1, 8, 0] ++ List.replicate 50 0#8)), ⟨mkT96 5
    100 0, false, false, false, 0⟩, false, none, none, false, 64, 0, 0, .min 58, some
    { Looked.nothing (headsOf (List.replicate 12 1#8 ++ [8#8, 0#8] ++ List.replicate 50 0#8) 0) 1 2 0 0 none 0 false with dests := [7, 8] },
    true, [], false, none⟩ : Frame),
    { Looked.nothing (headsOf (List.replicate 12 1#8 ++ [8#8, 0#8] ++ List.replicate 50 0#8) 0) 1 2 0 0 none 0 false with dests := [7, 8] },
    ⟨⟨5, 7, 2, 0, true, false, 0⟩, ⟨mkT96 5 300 0, false, false, false, 0⟩⟩,
    by decide +kernel⟩

theorem meets_FramesLookedUpAndEnded_10 : ∃ (s : State) (p : Fin 24) (f : Frame) (l : Looked) (x : Sending),
    s.inReset = false ∧ s.fwdOk ∧ s.runs .core = true ∧ s.isSet (R.MAC_Pn_CFG p) F.MAC_Pn_CFG_FEC ∧
    s.fwd.frames.find? (fun g => g.port == p.val && !g.whole) = some f ∧ f.look = some l ∧ s.sendingOf f.id = [x] :=
  ⟨{ (live.p (R.MAC_Pn_CFG 3) F.MAC_Pn_CFG_FEC 1) with fwd := { live.fwd with frames := [{ (⟨5, 3, 0, (List.replicate 12 1#8 ++ [8#8, 0#8] ++ List.replicate 50 0#8), ⟨mkT96 5 100 0, false, false, false, 0⟩, true, none, none, false, 1, 0, 0, .min 26, none, true, [], false, none⟩ : Frame) with id := 4, port := 7, look := some (Looked.nothing (headsOf (List.replicate 12 1#8 ++ [8#8, 0#8] ++ List.replicate 50 0#8) 0) 1 2 0 0 none 0 false) }, ⟨5, 3, 0, (withFcs ([0x01, 0x80, 0xC2, 0, 0, 0, 2, 0, 0, 0, 0, 1, 8, 0] ++ List.replicate 50 0#8)), ⟨mkT96 5 100 0, false, false, false, 0⟩, false, none, none, false, 64, 0, 0, .min 58, some { Looked.nothing (headsOf (List.replicate 12 1#8 ++ [8#8, 0#8] ++ List.replicate 50 0#8) 0) 1 2 0 0 none 0 false with dests := [7, 8] }, true, [], false, none⟩], nextId := 9, sending := [(7, some ⟨⟨5, 7, 2, 0, true, false, 0⟩, ⟨mkT96 5 300 0, false, false, false, 0⟩⟩)], queues := [(26, [⟨4, 3, 2, 0, false, false, 0⟩])] } },
    3, (⟨5, 3, 0, (withFcs ([0x01, 0x80, 0xC2, 0, 0, 0, 2, 0, 0, 0, 0, 1, 8, 0] ++ List.replicate 50 0#8)), ⟨mkT96 5
    100 0, false, false, false, 0⟩, false, none, none, false, 64, 0, 0, .min 58, some
    { Looked.nothing (headsOf (List.replicate 12 1#8 ++ [8#8, 0#8] ++ List.replicate 50 0#8) 0) 1 2 0 0 none 0 false with dests := [7, 8] },
    true, [], false, none⟩ : Frame),
    { Looked.nothing (headsOf (List.replicate 12 1#8 ++ [8#8, 0#8] ++ List.replicate 50 0#8) 0) 1 2 0 0 none 0 false with dests := [7, 8] },
    ⟨⟨5, 7, 2, 0, true, false, 0⟩, ⟨mkT96 5 300 0, false, false, false, 0⟩⟩,
    by decide +kernel⟩

theorem meets_ForwardingTable_1 : ∃ (s : State) (e : Fin 65536), s.inReset = false ∧ s.g R.FWD_AGE F.FWD_AGE_PERIOD_S
    ≠ 0 ∧ maskBit (s.tw (0x800000 + 32 * e.val) 0) 30 = false ∧ maskBit (s.tw (0x800000 + 32 * e.val) 0) 31 = true ∧
    maskBit (s.tw (0x800000 + 32 * e.val) 0) 28 = true ∧ maskBit (s.tw (0x800000 + 32 * e.val) 0) 29 = true :=
  ⟨live.setRegN 0x800020 0xB0000005, 1,
    by decide +kernel⟩

theorem meets_ForwardingTable_2 : ∃ (s : State) (e : Fin 65536), s.inReset = false ∧ s.g R.FWD_AGE F.FWD_AGE_PERIOD_S
    ≠ 0 ∧ maskBit (s.tw (0x800000 + 32 * e.val) 0) 30 = false ∧ maskBit (s.tw (0x800000 + 32 * e.val) 0) 31 = true ∧
    maskBit (s.tw (0x800000 + 32 * e.val) 0) 28 = true ∧ maskBit (s.tw (0x800000 + 32 * e.val) 0) 29 = false ∧
    (bitsOf (s.tw (0x800000 + 32 * e.val) 0) 27 26 ≠ 2 ∨ maskBit (s.tw (0x800000 + 32 * e.val) 5) 31 = false) :=
  ⟨live.setRegN 0x800020 0x90000005, 1,
    by decide +kernel⟩

theorem meets_ForwardingTable_3 : ∃ (s : State) (e : Fin 65536), s.inReset = false ∧ s.g R.FWD_AGE F.FWD_AGE_PERIOD_S
    ≠ 0 ∧ maskBit (s.tw (0x800000 + 32 * e.val) 0) 30 = false ∧ maskBit (s.tw (0x800000 + 32 * e.val) 0) 31 = true ∧
    maskBit (s.tw (0x800000 + 32 * e.val) 0) 28 = true ∧ maskBit (s.tw (0x800000 + 32 * e.val) 0) 29 = false ∧ bitsOf
    (s.tw (0x800000 + 32 * e.val) 0) 27 26 = 2 ∧ maskBit (s.tw (0x800000 + 32 * e.val) 5) 31 = true :=
  ⟨((live.setRegN 0x800020 0x98000005).setRegN 0x800034 0x80000009).setRegN 0xA00240 0x80000000, 1,
    by decide +kernel⟩

theorem meets_ForwardingTable_4 : ∃ (s : State) (e : Fin 65536), s.inReset = false ∧ (s.g R.FWD_AGE
    F.FWD_AGE_PERIOD_S = 0 ∨ maskBit (s.tw (0x800000 + 32 * e.val) 0) 30 = true ∨ maskBit (s.tw (0x800000 + 32 *
    e.val) 0) 31 = false ∨ maskBit (s.tw (0x800000 + 32 * e.val) 0) 28 = false) :=
  ⟨live.setRegN 0x800020 0xF0000005, 1,
    by decide +kernel⟩

theorem meets_ForwardingTable_5 : ∃ (s : State) (a : Nat) (w : Nat) (v : Word), s.accepts a ∧ mapped a = true ∧ a % 4
    = 0 ∧ isTable a = true ∧ tableWord a ≠ 7 ∧ stagedWord a v.toNat = some w ∧ s.staging a = none :=
  ⟨live, 0x80002C, 7, 7#32,
    by decide +kernel⟩

theorem meets_ForwardingTable_6 : ∃ (s : State) (a : Nat) (w : Nat) (v : Word) (y : Staging), s.accepts a ∧ mapped a
    = true ∧ a % 4 = 0 ∧ isTable a = true ∧ tableWord a ≠ 7 ∧ stagedWord a v.toNat = some w ∧ s.staging a = some y ∧
    y.entry ≠ tableEntry a :=
  ⟨{ live with fwd := { live.fwd with fe := some ⟨0x800000, []⟩ } }, 0x80002C, 7, 7#32, ⟨0x800000, []⟩,
    by decide +kernel⟩

theorem meets_ForwardingTable_7 : ∃ (s : State) (a : Nat) (y : Staging), s.accepts a ∧ mapped a = true ∧ a % 4 = 0 ∧
    isTable a = true ∧ a < 0xA00000 ∧ s.mirrorOver.reg R.RUT_STATUS = s.reg R.RUT_STATUS ∧ tableWord a = 7 ∧
    s.staging a = some y ∧ y.entry = tableEntry a ∧ Tbl.wf (fun _ => none) y.words = true ∧ (∀ x ∈ y.words, x.1 < 7 ∧
    ∀ w ∈ x.2, w < 4294967296) :=
  ⟨{ live.setRegN 0x800020 0xA0000005 with fwd := { live.fwd with fe := some ⟨0x800020, [(3, some 9)]⟩ } }, 0x80003C,
    ⟨0x800020, [(3, some 9)]⟩,
    by decide +kernel⟩

theorem meets_ForwardingTable_8 : ∃ (s : State) (a : Nat) (y : Staging), s.accepts a ∧ mapped a = true ∧ a % 4 = 0 ∧
    isTable a = true ∧ tableWord a = 7 ∧ s.staging a = some y ∧ y.entry ≠ tableEntry a ∧ a < 0xA00000 ∧
    s.mirrorOver.reg R.RUT_STATUS = s.reg R.RUT_STATUS :=
  ⟨{ live with fwd := { live.fwd with fe := some ⟨0x800040, [(3, some 9)]⟩ } }, 0x80003C, ⟨0x800040, [(3, some 9)]⟩,
    by decide +kernel⟩

theorem meets_ForwardingTable_9 : ∃ (s : State) (a : Nat), s.accepts a ∧ mapped a = true ∧ a % 4 = 0 ∧ isTable a =
    true ∧ tableWord a = 7 ∧ s.staging a = none ∧ a < 0xA00000 ∧ s.mirrorOver.reg R.RUT_STATUS = s.reg R.RUT_STATUS :=
  ⟨live.setRegN 0x800020 0xA0000005, 0x80003C,
    by decide +kernel⟩

theorem meets_ForwardingTable_10 : ∃ (s : State) (a : Nat) (y : Staging), s.accepts a ∧ mapped a = true ∧ a % 4 = 0 ∧
    isTable a = true ∧ 0xA00000 ≤ a ∧ tableWord a = 7 ∧ s.staging a = some y ∧ y.entry = tableEntry a ∧ Tbl.wf (fun _
    => none) y.words = true ∧ (∀ x ∈ y.words, x.1 < 7 ∧ ∀ w ∈ x.2, w < 4294967296) :=
  ⟨{ live with fwd := { live.fwd with fc := some ⟨0xA00040, [(0, some 0x80000000), (1, some 5), (3, some 0x80000001)]⟩ } },
    0xA0005C, ⟨0xA00040, [(0, some 0x80000000), (1, some 5), (3, some 0x80000001)]⟩,
    by decide +kernel⟩

theorem meets_ForwardingTable_11 : ∃ (s : State) (a : Nat) (v : Word), s.accepts a ∧ mapped a = true ∧ a % 4 = 0 ∧
    isTable a = true ∧ 0xA00000 ≤ a ∧ tableWord a = 7 ∧ s.staging a = none ∧ v.toNat % 2 = 1 :=
  ⟨live.setRegN 0xA00068 9, 0xA0005C, 1#32,
    by decide +kernel⟩

theorem meets_ForwardingTable_12 : ∃ (s : State) (a : Nat) (v : Word), s.accepts a ∧ mapped a = true ∧ a % 4 = 0 ∧
    isTable a = true ∧ 0xA00000 ≤ a ∧ tableWord a = 7 ∧ s.staging a = none ∧ v.toNat % 2 = 0 :=
  ⟨live.setRegN 0xA00068 9, 0xA0005C, 0#32,
    by decide +kernel⟩

theorem meets_ForwardingTable_13 : ∃ (s : State) (a : Nat) (v : Word) (y : Staging) (w : Nat), s.accepts a ∧ mapped a
    = true ∧ a % 4 = 0 ∧ isTable a = true ∧ tableWord a ≠ 7 ∧ stagedWord a v.toNat = some w ∧ s.staging a = some y ∧
    y.entry = tableEntry a :=
  ⟨{ live with fwd := { live.fwd with fe := some ⟨0x800020, [(4, some 9)]⟩ } }, 0x80002C, 7#32, ⟨0x800020, [(4, some
    9)]⟩, 7,
    by decide +kernel⟩

theorem meets_ForwardingTable_14 : ∃ (s : State), s.accepts R.FWD_DRAIN :=
  ⟨live,
    by decide +kernel⟩

theorem meets_ForwardingTable_15 : ∃ (s : State), s.inReset = false ∧ s.isSet R.FWD_STATUS F.FWD_STATUS_DRAIN_PENDING
    ∧ s.fwd.drain.all (fun i => s.fwd.frames.all (fun f => f.id != i)) = true :=
  ⟨live.p R.FWD_STATUS F.FWD_STATUS_DRAIN_PENDING 1,
    by decide +kernel⟩

theorem meets_HostPort_1 : ∃ (s : State) (desc : List Byte), s.inReset = false ∧ (s.ready 0).length < s.posted 0 ∧
    s.runs .core = true ∧ hostLen (descFlags desc) (descLen desc) = false :=
  ⟨{ (((live.p (R.HIF_DMAk_CTRL 0) F.HIF_DMAk_CTRL_ENABLE 1).p (R.HIF_DMAk_STATUS 0) F.HIF_DMAk_STATUS_RUNNING 1).p (R.HIF_DMAk_TAIL 0) F.HIF_DMAk_TAIL_TAIL 2) with hif := live.hif },
    (leBytes 8 0x1000 ++ leBytes 2 1 ++ leBytes 2 0x8000),
    by decide +kernel⟩

theorem meets_HostPort_2 : ∃ (s : State) (desc : List Byte) (mem : List Byte), s.inReset = false ∧ (s.ready 0).length
    < s.posted 0 ∧ s.runs .core = true ∧ s.fwdOk ∧ hostLen (descFlags desc) (descLen desc) = true ∧ maskBit
    (descFlags desc) 13 = true ∧ s.cellsFree 24 = true ∧ s.fwd.stalled = [] ∧ descFlags desc % 32 < 24 ∧ badCause
    (hostBytes (descFlags desc) (slice mem 0 (descLen desc))) .good = none ∧ s.charged (.min (8 * (descFlags desc %
    32) + bitsOf (descFlags desc) 12 10)) + cellsOf (hostBytes (descFlags desc) (slice mem 0 (descLen desc))).length
    ≤ s.g (R.QUE_Qq_MIN (8 * (descFlags desc % 32) + bitsOf (descFlags desc) 12 10)) F.QUE_Qq_MIN_CELLS :=
  ⟨{ ((({ live with fwd := { live.fwd with frames := [{ (⟨5, 3, 0, (List.replicate 12 1#8 ++ [8#8, 0#8] ++ List.replicate 50 0#8), ⟨mkT96 5 100 0, false, false, false, 0⟩, true, none, none, false, 1, 0, 0, .min 26, none, true, [], false, none⟩ : Frame) with id := 4, port := 7, look := some (Looked.nothing (headsOf (List.replicate 12 1#8 ++ [8#8, 0#8] ++ List.replicate 50 0#8) 0) 1 2 0 0 none 0 false) }, ⟨5, 3, 0, (List.replicate 12 1#8 ++ [8#8, 0#8] ++ List.replicate 50 0#8), ⟨mkT96 5 100 0, false, false, false, 0⟩, true, none, none, false, 1, 0, 0, .none, some (Looked.nothing (headsOf (List.replicate 12 1#8 ++ [8#8, 0#8] ++ List.replicate 50 0#8) 0) 1 2 0 0 none 0 false), true, [], false, none⟩], queues := [(26, [⟨4, 3, 2, 0, false, false, 0⟩])], nextId := 9 } }.p (R.HIF_DMAk_CTRL 0) F.HIF_DMAk_CTRL_ENABLE 1).p (R.HIF_DMAk_STATUS 0) F.HIF_DMAk_STATUS_RUNNING 1).p (R.HIF_DMAk_TAIL 0) F.HIF_DMAk_TAIL_TAIL 2) with hif := live.hif },
    (leBytes 8 0x1000 ++ leBytes 2 60 ++ leBytes 2 0xA003), (List.replicate 60 1#8),
    by decide +kernel⟩

theorem meets_HostPort_3 : ∃ (s : State) (desc : List Byte) (mem : List Byte), s.inReset = false ∧ (s.ready 0).length
    < s.posted 0 ∧ s.runs .core = true ∧ s.fwdOk ∧ hostLen (descFlags desc) (descLen desc) = true ∧ maskBit
    (descFlags desc) 13 = true ∧ s.cellsFree 24 = true ∧ descFlags desc % 32 < 24 ∧ badCause (hostBytes (descFlags
    desc) (slice mem 0 (descLen desc))) .good = none ∧ s.charged (.min (8 * (descFlags desc % 32) + bitsOf (descFlags
    desc) 12 10)) + cellsOf (hostBytes (descFlags desc) (slice mem 0 (descLen desc))).length ≤ s.g (R.QUE_Qq_MIN (8 *
    (descFlags desc % 32) + bitsOf (descFlags desc) 12 10)) F.QUE_Qq_MIN_CELLS :=
  ⟨{ ((({ live with fwd := { live.fwd with frames := [{ (⟨5, 3, 0, (List.replicate 12 1#8 ++ [8#8, 0#8] ++ List.replicate 50 0#8), ⟨mkT96 5 100 0, false, false, false, 0⟩, true, none, none, false, 1, 0, 0, .min 26, none, true, [], false, none⟩ : Frame) with id := 4, port := 7, look := some (Looked.nothing (headsOf (List.replicate 12 1#8 ++ [8#8, 0#8] ++ List.replicate 50 0#8) 0) 1 2 0 0 none 0 false) }, ⟨5, 3, 0, (List.replicate 12 1#8 ++ [8#8, 0#8] ++ List.replicate 50 0#8), ⟨mkT96 5 100 0, false, false, false, 0⟩, true, none, none, false, 1, 0, 0, .none, some (Looked.nothing (headsOf (List.replicate 12 1#8 ++ [8#8, 0#8] ++ List.replicate 50 0#8) 0) 1 2 0 0 none 0 false), true, [], false, none⟩], queues := [(26, [⟨4, 3, 2, 0, false, false, 0⟩])], nextId := 9 } }.p (R.HIF_DMAk_CTRL 0) F.HIF_DMAk_CTRL_ENABLE 1).p (R.HIF_DMAk_STATUS 0) F.HIF_DMAk_STATUS_RUNNING 1).p (R.HIF_DMAk_TAIL 0) F.HIF_DMAk_TAIL_TAIL 2) with hif := live.hif },
    (leBytes 8 0x1000 ++ leBytes 2 60 ++ leBytes 2 0xA003), (List.replicate 60 1#8),
    by decide +kernel⟩

theorem meets_HostPort_4 : ∃ (s : State) (desc : List Byte), s.inReset = false ∧ (s.ready 0).length < s.posted 0 ∧
    s.runs .core = true ∧ s.fwdOk ∧ hostLen (descFlags desc) (descLen desc) = true ∧ maskBit (descFlags desc) 13 =
    true ∧ s.cellsFree 24 = true ∧ 24 ≤ descFlags desc % 32 :=
  ⟨{ (((live.p (R.HIF_DMAk_CTRL 0) F.HIF_DMAk_CTRL_ENABLE 1).p (R.HIF_DMAk_STATUS 0) F.HIF_DMAk_STATUS_RUNNING 1).p (R.HIF_DMAk_TAIL 0) F.HIF_DMAk_TAIL_TAIL 2) with hif := live.hif },
    (leBytes 8 0x1000 ++ leBytes 2 60 ++ leBytes 2 0xA018),
    by decide +kernel⟩

theorem meets_HostPort_5 : ∃ (s : State) (desc : List Byte) (mem : List Byte), s.inReset = false ∧ (s.ready 0).length
    < s.posted 0 ∧ s.runs .core = true ∧ s.fwdOk ∧ hostLen (descFlags desc) (descLen desc) = true ∧ maskBit
    (descFlags desc) 13 = true ∧ s.cellsFree 24 = true ∧ descFlags desc % 32 < 24 ∧ badCause (hostBytes (descFlags
    desc) (slice mem 0 (descLen desc))) .good ≠ none :=
  ⟨{ (((live.p (R.HIF_DMAk_CTRL 0) F.HIF_DMAk_CTRL_ENABLE 1).p (R.HIF_DMAk_STATUS 0) F.HIF_DMAk_STATUS_RUNNING 1).p (R.HIF_DMAk_TAIL 0) F.HIF_DMAk_TAIL_TAIL 2) with hif := live.hif },
    (leBytes 8 0x1000 ++ leBytes 2 64 ++ leBytes 2 0x2003), (List.replicate 64 1#8),
    by decide +kernel⟩

theorem meets_HostPort_6 : ∃ (s : State) (desc : List Byte), s.inReset = false ∧ (s.ready 0).length < s.posted 0 ∧
    s.runs .core = true ∧ hostLen (descFlags desc) (descLen desc) = true ∧ maskBit (descFlags desc) 13 = false ∧
    s.cellsFree 24 = true :=
  ⟨{ (((live.p (R.HIF_DMAk_CTRL 0) F.HIF_DMAk_CTRL_ENABLE 1).p (R.HIF_DMAk_STATUS 0) F.HIF_DMAk_STATUS_RUNNING 1).p (R.HIF_DMAk_TAIL 0) F.HIF_DMAk_TAIL_TAIL 2) with hif := live.hif },
    (leBytes 8 0x1000 ++ leBytes 2 60 ++ leBytes 2 0x8003),
    by decide +kernel⟩

theorem meets_HostPort_7 : ∃ (s : State) (c : QCopy) (f : Frame) (l : Looked), s.inReset = false ∧ s.fwdOk ∧ s.posted
    1 ≠ 0 ∧ s.runs .core = true ∧ s.ready 1 = [] ∧ s.g (R.FWD_PORTn_STATE 24) F.FWD_PORTn_STATE_STATE = 3 ∧
    s.pickClass 24 = some c ∧ s.aged c = false ∧ s.frameOf c.frame = some f ∧ f.look = some l :=
  ⟨{ (((({ live with fwd := { live.fwd with nextId := 9, frames := [{ (⟨5, 3, 0, (List.replicate 12 1#8 ++ [8#8, 0#8] ++ List.replicate 50 0#8), ⟨mkT96 5 100 0, false, false, false, 0⟩, true, none, none, false, 1, 0, 0, .min 26, none, true, [], false, none⟩ : Frame) with id := 4, port := 7, look := some (Looked.nothing (headsOf (List.replicate 12 1#8 ++ [8#8, 0#8] ++ List.replicate 50 0#8) 0) 1 2 0 0 none 0 false) }, ⟨5, 3, 0, (List.replicate 12 1#8 ++ [8#8, 0#8] ++ List.replicate 50 0#8), ⟨mkT96 5 100 0, false, false, false, 0⟩, true, none, none, false, 1, 0, 0, .min 194, some (Looked.nothing (headsOf (List.replicate 12 1#8 ++ [8#8, 0#8] ++ List.replicate 50 0#8) 0) 1 2 0 0 none 0 false), true, [], false, none⟩], queues := [(26, [⟨4, 3, 2, 0, false, false, 0⟩]), (194, [(⟨5, 24, 2, 0, false, false, 2⟩ : QCopy)])] } }.p (R.FWD_PORTn_STATE 24) F.FWD_PORTn_STATE_STATE 3).p (R.HIF_DMAk_CTRL 1) F.HIF_DMAk_CTRL_ENABLE 1).p (R.HIF_DMAk_STATUS 1) F.HIF_DMAk_STATUS_RUNNING 1).p (R.HIF_DMAk_TAIL 1) F.HIF_DMAk_TAIL_TAIL 2) with hif := live.hif },
    (⟨5, 24, 2, 0, false, false, 2⟩ : QCopy), ⟨5, 3, 0, (List.replicate 12 1#8 ++ [8#8, 0#8] ++ List.replicate 50
    0#8), ⟨mkT96 5 100 0, false, false, false, 0⟩, true, none, none, false, 1, 0, 0, .min 194, some (Looked.nothing
    (headsOf (List.replicate 12 1#8 ++ [8#8, 0#8] ++ List.replicate 50 0#8) 0) 1 2 0 0 none 0 false), true, [],
    false, none⟩, Looked.nothing (headsOf (List.replicate 12 1#8 ++ [8#8, 0#8] ++ List.replicate 50 0#8) 0) 1 2 0 0
    none 0 false,
    by decide +kernel⟩

theorem meets_HostPort_8 : ∃ (s : State) (c : QCopy) (f : Frame) (l : Looked), s.inReset = false ∧ s.fwdOk ∧ s.posted
    1 ≠ 0 ∧ s.runs .core = true ∧ s.ready 1 = [] ∧ s.g (R.FWD_PORTn_STATE 24) F.FWD_PORTn_STATE_STATE = 3 ∧
    s.pickClass 24 = some c ∧ s.aged c = false ∧ s.frameOf c.frame = some f ∧ f.look = some l :=
  ⟨{ (((({ live with fwd := { live.fwd with nextId := 9, frames := [{ (⟨5, 3, 0, (List.replicate 12 1#8 ++ [8#8, 0#8] ++ List.replicate 50 0#8), ⟨mkT96 5 100 0, false, false, false, 0⟩, true, none, none, false, 1, 0, 0, .min 26, none, true, [], false, none⟩ : Frame) with id := 4, port := 7, look := some (Looked.nothing (headsOf (List.replicate 12 1#8 ++ [8#8, 0#8] ++ List.replicate 50 0#8) 0) 1 2 0 0 none 0 false) }, ⟨5, 3, 0, (List.replicate 12 1#8 ++ [8#8, 0#8] ++ List.replicate 50 0#8), ⟨mkT96 5 100 0, false, false, false, 0⟩, true, none, none, false, 1, 0, 0, .min 194, some (Looked.nothing (headsOf (List.replicate 12 1#8 ++ [8#8, 0#8] ++ List.replicate 50 0#8) 0) 1 2 0 0 none 0 false), true, [], false, none⟩], queues := [(26, [⟨4, 3, 2, 0, false, false, 0⟩]), (194, [(⟨5, 24, 2, 0, false, false, 2⟩ : QCopy)])] } }.p (R.FWD_PORTn_STATE 24) F.FWD_PORTn_STATE_STATE 3).p (R.HIF_DMAk_CTRL 1) F.HIF_DMAk_CTRL_ENABLE 1).p (R.HIF_DMAk_STATUS 1) F.HIF_DMAk_STATUS_RUNNING 1).p (R.HIF_DMAk_TAIL 1) F.HIF_DMAk_TAIL_TAIL 2) with hif := live.hif },
    (⟨5, 24, 2, 0, false, false, 2⟩ : QCopy), ⟨5, 3, 0, (List.replicate 12 1#8 ++ [8#8, 0#8] ++ List.replicate 50
    0#8), ⟨mkT96 5 100 0, false, false, false, 0⟩, true, none, none, false, 1, 0, 0, .min 194, some (Looked.nothing
    (headsOf (List.replicate 12 1#8 ++ [8#8, 0#8] ++ List.replicate 50 0#8) 0) 1 2 0 0 none 0 false), true, [],
    false, none⟩, Looked.nothing (headsOf (List.replicate 12 1#8 ++ [8#8, 0#8] ++ List.replicate 50 0#8) 0) 1 2 0 0
    none 0 false,
    by decide +kernel⟩

theorem meets_HostPort_9 : ∃ (s : State) (p : Fin 24) (f : Frame) (l : Looked) (a : Account), s.inReset = false ∧
    s.fwdOk ∧ s.running = true ∧ s.fwd.frames.find? (fun g => g.port == p.val && g.whole && g.bad.isNone && !g.placed
    && g.look.any (fun l => l.mgmt)) = some f ∧ f.look = some l ∧ s.fwd.stalled = [] ∧ l.herd = none ∧ s.mgmtOk f l =
    true ∧ s.accountFor f { l with dests := [24], reason := 3 } = some a :=
  ⟨{ live with fwd := { live.fwd with nextId := 9, frames := [{ (⟨5, 3, 0, (List.replicate 12 1#8 ++ [8#8, 0#8] ++ List.replicate 50 0#8), ⟨mkT96 5 100 0, false, false, false, 0⟩, true, none, none, false, 1, 0, 0, .min 26, none, true, [], false, none⟩ : Frame) with id := 4, port := 7, look := some (Looked.nothing (headsOf (List.replicate 12 1#8 ++ [8#8, 0#8] ++ List.replicate 50 0#8) 0) 1 2 0 0 none 0 false) }, ⟨5, 3, 0, (List.replicate 12 1#8 ++ [8#8, 0#8] ++ List.replicate 50 0#8), ⟨mkT96 5 100 0, false, false, false, 0⟩, true, none, none, false, 1, 1, 0, .none, some { Looked.nothing (headsOf (List.replicate 12 1#8 ++ [8#8, 0#8] ++ List.replicate 50 0#8) 0) 1 2 0 0 none 0 false with mgmt := true }, false, [], false, none⟩], queues := [(26, [⟨4, 3, 2, 0, false, false, 0⟩])] } },
    3, (⟨5, 3, 0, (List.replicate 12 1#8 ++ [8#8, 0#8] ++ List.replicate 50 0#8), ⟨mkT96 5 100 0, false, false,
    false, 0⟩, true, none, none, false, 1, 1, 0, .none, some
    { Looked.nothing (headsOf (List.replicate 12 1#8 ++ [8#8, 0#8] ++ List.replicate 50 0#8) 0) 1 2 0 0 none 0 false with mgmt := true },
    false, [], false, none⟩ : Frame),
    { Looked.nothing (headsOf (List.replicate 12 1#8 ++ [8#8, 0#8] ++ List.replicate 50 0#8) 0) 1 2 0 0 none 0 false with mgmt := true },
    .min 194,
    by decide +kernel⟩

theorem meets_HostPort_10 : ∃ (s : State) (p : Fin 24) (f : Frame) (l : Looked) (a : Account), s.inReset = false ∧
    s.fwdOk ∧ s.running = true ∧ s.fwd.frames.find? (fun g => g.port == p.val && g.whole && g.bad.isNone && !g.placed
    && g.look.any (fun l => l.mgmt)) = some f ∧ f.look = some l ∧ l.herd = none ∧ s.mgmtOk f l = true ∧ s.accountFor
    f { l with dests := [24], reason := 3 } = some a :=
  ⟨{ live with fwd := { live.fwd with nextId := 9, frames := [{ (⟨5, 3, 0, (List.replicate 12 1#8 ++ [8#8, 0#8] ++ List.replicate 50 0#8), ⟨mkT96 5 100 0, false, false, false, 0⟩, true, none, none, false, 1, 0, 0, .min 26, none, true, [], false, none⟩ : Frame) with id := 4, port := 7, look := some (Looked.nothing (headsOf (List.replicate 12 1#8 ++ [8#8, 0#8] ++ List.replicate 50 0#8) 0) 1 2 0 0 none 0 false) }, ⟨5, 3, 0, (List.replicate 12 1#8 ++ [8#8, 0#8] ++ List.replicate 50 0#8), ⟨mkT96 5 100 0, false, false, false, 0⟩, true, none, none, false, 1, 1, 0, .none, some { Looked.nothing (headsOf (List.replicate 12 1#8 ++ [8#8, 0#8] ++ List.replicate 50 0#8) 0) 1 2 0 0 none 0 false with mgmt := true }, false, [], false, none⟩], queues := [(26, [⟨4, 3, 2, 0, false, false, 0⟩])] } },
    3, (⟨5, 3, 0, (List.replicate 12 1#8 ++ [8#8, 0#8] ++ List.replicate 50 0#8), ⟨mkT96 5 100 0, false, false,
    false, 0⟩, true, none, none, false, 1, 1, 0, .none, some
    { Looked.nothing (headsOf (List.replicate 12 1#8 ++ [8#8, 0#8] ++ List.replicate 50 0#8) 0) 1 2 0 0 none 0 false with mgmt := true },
    false, [], false, none⟩ : Frame),
    { Looked.nothing (headsOf (List.replicate 12 1#8 ++ [8#8, 0#8] ++ List.replicate 50 0#8) 0) 1 2 0 0 none 0 false with mgmt := true },
    .min 194,
    by decide +kernel⟩

theorem meets_HostPort_11 : ∃ (s : State) (p : Fin 24) (f : Frame) (l : Looked), s.inReset = false ∧ s.fwdOk ∧
    s.running = true ∧ s.fwd.frames.find? (fun g => g.port == p.val && g.whole && g.bad.isNone && !g.placed &&
    g.look.any (fun l => l.mgmt)) = some f ∧ f.look = some l ∧ s.mgmtOk f l = false ∧ s.heldElsewhere f.id = false ∧
    s.queueRefs f.id = [] ∧ f.toPlace = [] :=
  ⟨{ slave with fwd := { live.fwd with nextId := 9, frames := [{ (⟨5, 3, 0, (List.replicate 12 1#8 ++ [8#8, 0#8] ++ List.replicate 50 0#8), ⟨mkT96 5 100 0, false, false, false, 0⟩, true, none, none, false, 1, 0, 0, .min 26, none, true, [], false, none⟩ : Frame) with id := 4, port := 7, look := some (Looked.nothing (headsOf (List.replicate 12 1#8 ++ [8#8, 0#8] ++ List.replicate 50 0#8) 0) 1 2 0 0 none 0 false) }, (⟨5, 3, 0, (beBytes 6 0x011B19000000 ++ List.replicate 6 2#8 ++ [0x88#8, 0xF7#8] ++ [0x0D#8, 0x11#8] ++ (ptpMsg 13 0 9 0xAABBCCDDEEFF00110001 [1, 2, 3, 4]).drop 2 ++ List.replicate 20 0#8), ⟨mkT96 5 100 0, false, false, false, 0⟩, true, none, none, false, 1, 1, 0, .none, some { Looked.nothing (headsOf (beBytes 6 0x011B19000000 ++ List.replicate 6 2#8 ++ [0x88#8, 0xF7#8] ++ [0x0D#8, 0x11#8] ++ (ptpMsg 13 0 9 0xAABBCCDDEEFF00110001 [1, 2, 3, 4]).drop 2 ++ List.replicate 20 0#8) 0) 1 2 0 0 none 0 false with mgmt := true }, false, [], false, none⟩ : Frame)], queues := [(26, [⟨4, 3, 2, 0, false, false, 0⟩])] } },
    3, (⟨5, 3, 0, (beBytes 6 0x011B19000000 ++ List.replicate 6 2#8 ++ [0x88#8, 0xF7#8] ++ [0x0D#8, 0x11#8] ++
    (ptpMsg 13 0 9 0xAABBCCDDEEFF00110001 [1, 2, 3, 4]).drop 2 ++ List.replicate 20 0#8), ⟨mkT96 5 100 0, false,
    false, false, 0⟩, true, none, none, false, 1, 1, 0, .none, some
    { Looked.nothing (headsOf (beBytes 6 0x011B19000000 ++ List.replicate 6 2#8 ++ [0x88#8, 0xF7#8] ++ [0x0D#8, 0x11#8] ++ (ptpMsg 13 0 9 0xAABBCCDDEEFF00110001 [1, 2, 3, 4]).drop 2 ++ List.replicate 20 0#8) 0) 1 2 0 0 none 0 false with mgmt := true },
    false, [], false, none⟩ : Frame),
    { Looked.nothing (headsOf (beBytes 6 0x011B19000000 ++ List.replicate 6 2#8 ++ [0x88#8, 0xF7#8] ++ [0x0D#8, 0x11#8] ++ (ptpMsg 13 0 9 0xAABBCCDDEEFF00110001 [1, 2, 3, 4]).drop 2 ++ List.replicate 20 0#8) 0) 1 2 0 0 none 0 false with mgmt := true },
    by decide +kernel⟩

theorem meets_EgressAndAgeing_1 : ∃ (s : State) (p : Fin 25) (x : StampIn) (c : QCopy) (f : Frame) (l : Looked),
    s.inReset = false ∧ s.fwdOk ∧ p.val < 24 ∧ s.mayTransmit p = true ∧ (∀ k ∈ (s.cal p).head?, (s.herdInfo k).isSome
    = true ∧ fineLe (s.ideal p k.r) (fineOf (tickOf (s.txStamp p x).t)) = false) ∧ s.passList p = [] ∧ s.pickClass p
    = some c ∧ s.aged c = false ∧ s.frameOf c.frame = some f ∧ f.look = some l ∧ f.whole = true ∧ s.guardOk p
    (s.txStamp p x) (s.guardTime f l p c.cut false) = true :=
  ⟨({ (fun (q : State) => (q.p (R.MAC_Pn_CFG 3) F.MAC_Pn_CFG_EN 1).p (R.MAC_Pn_STATUS 3) F.MAC_Pn_STATUS_BLOCK_LOCK 1) live with fwd := { live.fwd with nextId := 9, frames := [{ (⟨5, 3, 0, (List.replicate 12 1#8 ++ [8#8, 0#8] ++ List.replicate 50 0#8), ⟨mkT96 5 100 0, false, false, false, 0⟩, true, none, none, false, 1, 0, 0, .min 26, none, true, [], false, none⟩ : Frame) with id := 4, port := 7, look := some (Looked.nothing (headsOf (List.replicate 12 1#8 ++ [8#8, 0#8] ++ List.replicate 50 0#8) 0) 1 2 0 0 none 0 false) }, (⟨5, 3, 0, (List.replicate 12 1#8 ++ [8#8, 0#8] ++ List.replicate 50 0#8), ⟨mkT96 5 100 0, false, false, false, 0⟩, true, none, none, false, 1, 0, 0, .min 26, some (Looked.nothing (headsOf (List.replicate 12 1#8 ++ [8#8, 0#8] ++ List.replicate 50 0#8) 0) 1 2 0 0 none 0 false), true, [], false, none⟩ : Frame)], queues := [(26, [(⟨5, 3, 2, 0, false, false, 0⟩ : QCopy), ⟨4, 3, 2, 0, false, false, 0⟩])] } }.p
    (R.FWD_PORTn_STATE 3) F.FWD_PORTn_STATE_STATE 3), 3, ⟨0, 0, 0, ⟨0, 0, 0⟩, 0, false⟩, (⟨5, 3, 2, 0, false, false,
    0⟩ : QCopy), (⟨5, 3, 0, (List.replicate 12 1#8 ++ [8#8, 0#8] ++ List.replicate 50 0#8), ⟨mkT96 5 100 0, false,
    false, false, 0⟩, true, none, none, false, 1, 0, 0, .min 26, some (Looked.nothing (headsOf (List.replicate 12 1#8
    ++ [8#8, 0#8] ++ List.replicate 50 0#8) 0) 1 2 0 0 none 0 false), true, [], false, none⟩ : Frame), Looked.nothing
    (headsOf (List.replicate 12 1#8 ++ [8#8, 0#8] ++ List.replicate 50 0#8) 0) 1 2 0 0 none 0 false,
    by decide +kernel⟩

theorem meets_EgressAndAgeing_2 : ∃ (s : State) (p : Fin 25) (x : StampIn) (c : QCopy) (f : Frame) (l : Looked),
    s.inReset = false ∧ s.fwdOk ∧ p.val < 24 ∧ s.mayTransmit p = true ∧ (∀ k ∈ (s.cal p).head?, (s.herdInfo k).isSome
    = true ∧ fineLe (s.ideal p k.r) (fineOf (tickOf (s.txStamp p x).t)) = false) ∧ s.passList p = [] ∧ s.pickClass p
    = some c ∧ s.aged c = false ∧ s.frameOf c.frame = some f ∧ f.look = some l ∧ f.whole = false ∧ s.guardOk p
    (s.txStamp p x) (s.guardTime f l p c.cut false) = true :=
  ⟨({ (fun (q : State) => (q.p (R.MAC_Pn_CFG 3) F.MAC_Pn_CFG_EN 1).p (R.MAC_Pn_STATUS 3) F.MAC_Pn_STATUS_BLOCK_LOCK 1) live with fwd := { live.fwd with nextId := 9, frames := [{ (⟨5, 3, 0, (List.replicate 12 1#8 ++ [8#8, 0#8] ++ List.replicate 50 0#8), ⟨mkT96 5 100 0, false, false, false, 0⟩, true, none, none, false, 1, 0, 0, .min 26, none, true, [], false, none⟩ : Frame) with id := 4, port := 7, look := some (Looked.nothing (headsOf (List.replicate 12 1#8 ++ [8#8, 0#8] ++ List.replicate 50 0#8) 0) 1 2 0 0 none 0 false) }, { (⟨5, 3, 0, (List.replicate 12 1#8 ++ [8#8, 0#8] ++ List.replicate 50 0#8), ⟨mkT96 5 100 0, false, false, false, 0⟩, true, none, none, false, 1, 0, 0, .min 26, some (Looked.nothing (headsOf (List.replicate 12 1#8 ++ [8#8, 0#8] ++ List.replicate 50 0#8) 0) 1 2 0 0 none 0 false), true, [], false, none⟩ : Frame) with whole := false }], queues := [(26, [(⟨5, 3, 2, 0, true, false, 0⟩ : QCopy), ⟨4, 3, 2, 0, false, false, 0⟩])] } }.p
    (R.FWD_PORTn_STATE 3) F.FWD_PORTn_STATE_STATE 3), 3, ⟨0, 0, 0, ⟨0, 0, 0⟩, 0, false⟩, (⟨5, 3, 2, 0, true, false,
    0⟩ : QCopy),
    { (⟨5, 3, 0, (List.replicate 12 1#8 ++ [8#8, 0#8] ++ List.replicate 50 0#8), ⟨mkT96 5 100 0, false, false, false, 0⟩, true, none, none, false, 1, 0, 0, .min 26, some (Looked.nothing (headsOf (List.replicate 12 1#8 ++ [8#8, 0#8] ++ List.replicate 50 0#8) 0) 1 2 0 0 none 0 false), true, [], false, none⟩ : Frame) with whole := false },
    Looked.nothing (headsOf (List.replicate 12 1#8 ++ [8#8, 0#8] ++ List.replicate 50 0#8) 0) 1 2 0 0 none 0 false,
    by decide +kernel⟩

theorem meets_EgressAndAgeing_3 : ∃ (s : State) (p : Fin 25) (x : StampIn) (c : HCopy) (k : List HCopy) (f : Frame)
    (l : Looked) (i : HerdInfo), s.inReset = false ∧ s.fwdOk ∧ p.val < 24 ∧ s.mayTransmit p = true ∧ (∀ k ∈ (s.cal
    p).head?, (s.herdInfo k).isSome = true ∧ fineLe (s.ideal p k.r) (fineOf (tickOf (s.txStamp p x).t)) = false) ∧
    s.passList p = c :: k ∧ s.herdInfo c = some (f, l, i) ∧ (c.reason = 4 ∨ 0 ≤ tickDiff (tickOf (s.txStamp p x).t)
    c.r) ∧ s.gateShut p = false ∧ s.paused p l.cls = false ∧ s.guardOk p (s.txStamp p x) (s.guardTime f l p false
    true) = true :=
  ⟨({ (fun (q : State) => (q.p (R.MAC_Pn_CFG 3) F.MAC_Pn_CFG_EN 1).p (R.MAC_Pn_STATUS 3) F.MAC_Pn_STATUS_BLOCK_LOCK 1) live with fwd := { live.fwd with nextId := 9, frames := [{ (⟨5, 3, 0, (List.replicate 12 1#8 ++ [8#8, 0#8] ++ List.replicate 50 0#8), ⟨mkT96 5 100 0, false, false, false, 0⟩, true, none, none, false, 1, 0, 0, .min 26, none, true, [], false, none⟩ : Frame) with id := 4, port := 7, look := some (Looked.nothing (headsOf (List.replicate 12 1#8 ++ [8#8, 0#8] ++ List.replicate 50 0#8) 0) 1 2 0 0 none 0 false) }, ⟨5, 3, 0, (List.replicate 12 1#8 ++ [8#8, 0#8] ++ List.replicate 50 0#8), ⟨mkT96 5 100 0, false, false, false, 0⟩, true, none, none, false, 1, 0, 0, .herd, some { Looked.nothing (headsOf (List.replicate 12 1#8 ++ [8#8, 0#8] ++ List.replicate 50 0#8) 0) 1 2 0 0 none 0 false with herd := some ⟨0#64, 0, 0, false, false, 0, 0, 100, false⟩, fc := some 5 }, true, [], false, none⟩], passes := [(3, [(⟨5, 3, 0#64, 0, 1, 2⟩ : HCopy)])] } }.p
    (R.FWD_PORTn_STATE 3) F.FWD_PORTn_STATE_STATE 3), 3, ⟨0, 0, 0, ⟨0, 0, 0⟩, 0, false⟩, (⟨5, 3, 0#64, 0, 1, 2⟩ :
    HCopy), [], (⟨5, 3, 0, (List.replicate 12 1#8 ++ [8#8, 0#8] ++ List.replicate 50 0#8), ⟨mkT96 5 100 0, false,
    false, false, 0⟩, true, none, none, false, 1, 0, 0, .herd, some
    { Looked.nothing (headsOf (List.replicate 12 1#8 ++ [8#8, 0#8] ++ List.replicate 50 0#8) 0) 1 2 0 0 none 0 false with herd := some ⟨0#64, 0, 0, false, false, 0, 0, 100, false⟩, fc := some 5 },
    true, [], false, none⟩ : Frame),
    { Looked.nothing (headsOf (List.replicate 12 1#8 ++ [8#8, 0#8] ++ List.replicate 50 0#8) 0) 1 2 0 0 none 0 false with herd := some ⟨0#64, 0, 0, false, false, 0, 0, 100, false⟩, fc := some 5 },
    ⟨0#64, 0, 0, false, false, 0, 0, 100, false⟩,
    by decide +kernel⟩

theorem meets_EgressAndAgeing_4 : ∃ (s : State) (p : Fin 25) (x : StampIn), s.inReset = false ∧ s.fwdOk ∧ p.val < 24
    ∧ s.mayTransmit p = true ∧ (∀ k ∈ (s.cal p).head?, (s.herdInfo k).isSome = true ∧ fineLe (s.ideal p k.r) (fineOf
    (tickOf (s.txStamp p x).t)) = false) ∧ s.passList p = [] ∧ s.pickClass p = none :=
  ⟨({ (fun (q : State) => (q.p (R.MAC_Pn_CFG 3) F.MAC_Pn_CFG_EN 1).p (R.MAC_Pn_STATUS 3) F.MAC_Pn_STATUS_BLOCK_LOCK 1) live with fwd := { live.fwd with nextId := 9, frames := [{ (⟨5, 3, 0, (List.replicate 12 1#8 ++ [8#8, 0#8] ++ List.replicate 50 0#8), ⟨mkT96 5 100 0, false, false, false, 0⟩, true, none, none, false, 1, 0, 0, .min 26, none, true, [], false, none⟩ : Frame) with id := 4, port := 7, look := some (Looked.nothing (headsOf (List.replicate 12 1#8 ++ [8#8, 0#8] ++ List.replicate 50 0#8) 0) 1 2 0 0 none 0 false) }] } }.p
    (R.FWD_PORTn_STATE 3) F.FWD_PORTn_STATE_STATE 3), 3, ⟨0, 0, 0, ⟨0, 0, 0⟩, 0, false⟩,
    by decide +kernel⟩

theorem meets_EgressAndAgeing_5 : ∃ (s : State) (p : Fin 25) (x : StampIn), s.inReset = false ∧ p.val < 24 ∧
    s.mayTransmit p = false ∧ (∀ k ∈ (s.cal p).head?, (s.herdInfo k).isSome = true ∧ fineLe (s.ideal p k.r) (fineOf
    (tickOf (s.txStamp p x).t)) = false) :=
  ⟨live, 3, ⟨0, 0, 0, ⟨0, 0, 0⟩, 0, false⟩,
    by decide +kernel⟩

theorem meets_EgressAndAgeing_6 : ∃ (s : State), s.inReset = false ∧ s.fwdOk ∧ s.runs .core = true :=
  ⟨{ { live with fwd := { live.fwd with nextId := 9, frames := [{ (⟨5, 3, 0, (List.replicate 12 1#8 ++ [8#8, 0#8] ++ List.replicate 50 0#8), ⟨mkT96 5 100 0, false, false, false, 0⟩, true, none, none, false, 1, 0, 0, .min 26, none, true, [], false, none⟩ : Frame) with id := 4, port := 7, look := some (Looked.nothing (headsOf (List.replicate 12 1#8 ++ [8#8, 0#8] ++ List.replicate 50 0#8) 0) 1 2 0 0 none 0 false) }, (⟨5, 3, 0, (List.replicate 12 1#8 ++ [8#8, 0#8] ++ List.replicate 50 0#8), ⟨mkT96 5 100 0, false, false, false, 0⟩, true, none, none, false, 1, 0, 0, .min 26, some (Looked.nothing (headsOf (List.replicate 12 1#8 ++ [8#8, 0#8] ++ List.replicate 50 0#8) 0) 1 2 0 0 none 0 false), true, [], false, none⟩ : Frame)], queues := [(26, [(⟨5, 3, 2, 0, false, false, 0⟩ : QCopy), ⟨4, 3, 2, 300000000, false, false, 0⟩])] } } with regClk := 250 * 300000000 },
    by decide +kernel⟩

theorem meets_SpillAndDram_1 : ∃ (s : State) (q : Fin 200) (f : Frame) (l : Looked) (c : QCopy) (h : List QCopy) (r :
    List QCopy), s.inReset = false ∧ s.fwdOk ∧ s.frameOf c.frame = some f ∧ f.whole = true ∧ f.look = some l ∧
    s.queue q = h ++ c :: r ∧ s.spillUp = true ∧ s.dramWaits = false ∧ l.herd = none ∧ c.dram = false ∧ s.g
    (R.QUE_Qq_MIN q) F.QUE_Qq_MIN_CELLS + s.g R.QUE_SPILL_CFG F.QUE_SPILL_CFG_SPILL_TH < (s.reg (R.QUE_Qq_ONDIE
    q)).toNat ∧ (∀ x ∈ h, x.dram = false ∧ (s.frameOf x.frame).isSome = true) ∧ (h.map (fun x => (s.frameOf
    x.frame).elim 0 (fun g => g.cells))).sum ≤ s.g R.QUE_SPILL_CFG F.QUE_SPILL_CFG_HEAD_KEEP ∧ s.g R.QUE_SPILL_CFG
    F.QUE_SPILL_CFG_HEAD_KEEP < (h.map (fun x => (s.frameOf x.frame).elim 0 (fun g => g.cells))).sum + f.cells ∧
    (s.reg R.QUE_SPILL_USED).toNat + cellsOf (f.len + 64) ≤ s.g R.QUE_PART F.QUE_PART_SPILL * 65536 :=
  ⟨{ (((((live.p R.QUE_CTRL F.QUE_CTRL_SPILL_EN 1).p R.QUE_PART F.QUE_PART_SPILL 100).p R.QUE_STATUS F.QUE_STATUS_DRAM_READY 1).p (R.QUE_Qq_ONDIE 26) F.QUE_Qq_ONDIE_CELLS 0xFFFFF).p R.QUE_SPILL_CFG F.QUE_SPILL_CFG_HEAD_KEEP 8) with fwd := { live.fwd with nextId := 9, frames := [{ (⟨5, 3, 0, (List.replicate 12 1#8 ++ [8#8, 0#8] ++ List.replicate 50 0#8), ⟨mkT96 5 100 0, false, false, false, 0⟩, true, none, none, false, 1, 0, 0, .min 26, none, true, [], false, none⟩ : Frame) with id := 4, port := 7, look := some (Looked.nothing (headsOf (List.replicate 12 1#8 ++ [8#8, 0#8] ++ List.replicate 50 0#8) 0) 1 2 0 0 none 0 false) }, (⟨5, 3, 0, (List.replicate 12 1#8 ++ [8#8, 0#8] ++ List.replicate 50 0#8), ⟨mkT96 5 100 0, false, false, false, 0⟩, true, none, none, false, 9, 0, 0, .min 26, some (Looked.nothing (headsOf (List.replicate 12 1#8 ++ [8#8, 0#8] ++ List.replicate 50 0#8) 0) 1 2 0 0 none 0 false), true, [], false, none⟩ : Frame)], queues := [(26, [(⟨4, 3, 2, 0, false, false, 0⟩ : QCopy), (⟨5, 3, 2, 0, false, false, 0⟩ : QCopy)])] } },
    26, (⟨5, 3, 0, (List.replicate 12 1#8 ++ [8#8, 0#8] ++ List.replicate 50 0#8), ⟨mkT96 5 100 0, false, false,
    false, 0⟩, true, none, none, false, 9, 0, 0, .min 26, some (Looked.nothing (headsOf (List.replicate 12 1#8 ++
    [8#8, 0#8] ++ List.replicate 50 0#8) 0) 1 2 0 0 none 0 false), true, [], false, none⟩ : Frame), Looked.nothing
    (headsOf (List.replicate 12 1#8 ++ [8#8, 0#8] ++ List.replicate 50 0#8) 0) 1 2 0 0 none 0 false, (⟨5, 3, 2, 0,
    false, false, 0⟩ : QCopy), [(⟨4, 3, 2, 0, false, false, 0⟩ : QCopy)], [],
    by decide +kernel⟩

theorem meets_SpillAndDram_2 : ∃ (s : State) (q : Fin 200) (f : Frame) (l : Looked) (c : QCopy) (h : List QCopy) (r :
    List QCopy), s.inReset = false ∧ s.fwdOk ∧ s.frameOf c.frame = some f ∧ f.whole = true ∧ f.look = some l ∧
    s.queue q = h ++ c :: r ∧ s.spillUp = true ∧ s.dramWaits = false ∧ l.herd = none ∧ c.dram = false ∧ s.g
    (R.QUE_Qq_MIN q) F.QUE_Qq_MIN_CELLS + s.g R.QUE_SPILL_CFG F.QUE_SPILL_CFG_SPILL_TH < (s.reg (R.QUE_Qq_ONDIE
    q)).toNat ∧ (∀ x ∈ h, x.dram = false ∧ (s.frameOf x.frame).isSome = true) ∧ (h.map (fun x => (s.frameOf
    x.frame).elim 0 (fun g => g.cells))).sum ≤ s.g R.QUE_SPILL_CFG F.QUE_SPILL_CFG_HEAD_KEEP ∧ s.g R.QUE_SPILL_CFG
    F.QUE_SPILL_CFG_HEAD_KEEP < (h.map (fun x => (s.frameOf x.frame).elim 0 (fun g => g.cells))).sum + f.cells ∧
    (s.reg R.QUE_SPILL_USED).toNat + cellsOf (f.len + 64) ≤ s.g R.QUE_PART F.QUE_PART_SPILL * 65536 ∧ r = [] ∧
    s.fwd.stalled = [] :=
  ⟨{ (((((live.p R.QUE_CTRL F.QUE_CTRL_SPILL_EN 1).p R.QUE_PART F.QUE_PART_SPILL 100).p R.QUE_STATUS F.QUE_STATUS_DRAM_READY 1).p (R.QUE_Qq_ONDIE 26) F.QUE_Qq_ONDIE_CELLS 0xFFFFF).p R.QUE_SPILL_CFG F.QUE_SPILL_CFG_HEAD_KEEP 8) with fwd := { live.fwd with nextId := 9, frames := [{ (⟨5, 3, 0, (List.replicate 12 1#8 ++ [8#8, 0#8] ++ List.replicate 50 0#8), ⟨mkT96 5 100 0, false, false, false, 0⟩, true, none, none, false, 1, 0, 0, .min 26, none, true, [], false, none⟩ : Frame) with id := 4, port := 7, look := some (Looked.nothing (headsOf (List.replicate 12 1#8 ++ [8#8, 0#8] ++ List.replicate 50 0#8) 0) 1 2 0 0 none 0 false) }, (⟨5, 3, 0, (List.replicate 12 1#8 ++ [8#8, 0#8] ++ List.replicate 50 0#8), ⟨mkT96 5 100 0, false, false, false, 0⟩, true, none, none, false, 9, 0, 0, .min 26, some (Looked.nothing (headsOf (List.replicate 12 1#8 ++ [8#8, 0#8] ++ List.replicate 50 0#8) 0) 1 2 0 0 none 0 false), true, [], false, none⟩ : Frame)], queues := [(26, [(⟨4, 3, 2, 0, false, false, 0⟩ : QCopy), (⟨5, 3, 2, 0, false, false, 0⟩ : QCopy)])] } },
    26, (⟨5, 3, 0, (List.replicate 12 1#8 ++ [8#8, 0#8] ++ List.replicate 50 0#8), ⟨mkT96 5 100 0, false, false,
    false, 0⟩, true, none, none, false, 9, 0, 0, .min 26, some (Looked.nothing (headsOf (List.replicate 12 1#8 ++
    [8#8, 0#8] ++ List.replicate 50 0#8) 0) 1 2 0 0 none 0 false), true, [], false, none⟩ : Frame), Looked.nothing
    (headsOf (List.replicate 12 1#8 ++ [8#8, 0#8] ++ List.replicate 50 0#8) 0) 1 2 0 0 none 0 false, (⟨5, 3, 2, 0,
    false, false, 0⟩ : QCopy), [(⟨4, 3, 2, 0, false, false, 0⟩ : QCopy)], [],
    by decide +kernel⟩

theorem meets_SpillAndDram_3 : ∃ (s : State) (q : Fin 200) (f : Frame) (l : Looked) (c : QCopy) (h : List QCopy) (r :
    List QCopy), s.inReset = false ∧ s.fwdOk ∧ s.frameOf c.frame = some f ∧ f.whole = true ∧ f.look = some l ∧
    s.queue q = h ++ c :: r ∧ s.spillUp = true ∧ s.dramWaits = false ∧ l.herd = none ∧ c.dram = false ∧ s.g
    (R.QUE_Qq_MIN q) F.QUE_Qq_MIN_CELLS + s.g R.QUE_SPILL_CFG F.QUE_SPILL_CFG_SPILL_TH < (s.reg (R.QUE_Qq_ONDIE
    q)).toNat ∧ (∀ x ∈ h, x.dram = false ∧ (s.frameOf x.frame).isSome = true) ∧ (h.map (fun x => (s.frameOf
    x.frame).elim 0 (fun g => g.cells))).sum ≤ s.g R.QUE_SPILL_CFG F.QUE_SPILL_CFG_HEAD_KEEP ∧ s.g R.QUE_SPILL_CFG
    F.QUE_SPILL_CFG_HEAD_KEEP < (h.map (fun x => (s.frameOf x.frame).elim 0 (fun g => g.cells))).sum + f.cells ∧ s.g
    R.QUE_PART F.QUE_PART_SPILL * 65536 < (s.reg R.QUE_SPILL_USED).toNat + cellsOf (f.len + 64) ∧ s.fwd.stalled = []
    :=
  ⟨({ (((((live.p R.QUE_CTRL F.QUE_CTRL_SPILL_EN 1).p R.QUE_PART F.QUE_PART_SPILL 100).p R.QUE_STATUS F.QUE_STATUS_DRAM_READY 1).p (R.QUE_Qq_ONDIE 26) F.QUE_Qq_ONDIE_CELLS 0xFFFFF).p R.QUE_SPILL_CFG F.QUE_SPILL_CFG_HEAD_KEEP 8) with fwd := { live.fwd with nextId := 9, frames := [{ (⟨5, 3, 0, (List.replicate 12 1#8 ++ [8#8, 0#8] ++ List.replicate 50 0#8), ⟨mkT96 5 100 0, false, false, false, 0⟩, true, none, none, false, 1, 0, 0, .min 26, none, true, [], false, none⟩ : Frame) with id := 4, port := 7, look := some (Looked.nothing (headsOf (List.replicate 12 1#8 ++ [8#8, 0#8] ++ List.replicate 50 0#8) 0) 1 2 0 0 none 0 false) }, (⟨5, 3, 0, (List.replicate 12 1#8 ++ [8#8, 0#8] ++ List.replicate 50 0#8), ⟨mkT96 5 100 0, false, false, false, 0⟩, true, none, none, false, 9, 0, 0, .min 26, some (Looked.nothing (headsOf (List.replicate 12 1#8 ++ [8#8, 0#8] ++ List.replicate 50 0#8) 0) 1 2 0 0 none 0 false), true, [], false, none⟩ : Frame)], queues := [(26, [(⟨4, 3, 2, 0, false, false, 0⟩ : QCopy), (⟨5, 3, 2, 0, false, false, 0⟩ : QCopy)])] } }).setRegN
    R.QUE_SPILL_USED 6553600, 26, (⟨5, 3, 0, (List.replicate 12 1#8 ++ [8#8, 0#8] ++ List.replicate 50 0#8), ⟨mkT96 5
    100 0, false, false, false, 0⟩, true, none, none, false, 9, 0, 0, .min 26, some (Looked.nothing (headsOf
    (List.replicate 12 1#8 ++ [8#8, 0#8] ++ List.replicate 50 0#8) 0) 1 2 0 0 none 0 false), true, [], false, none⟩ :
    Frame), Looked.nothing (headsOf (List.replicate 12 1#8 ++ [8#8, 0#8] ++ List.replicate 50 0#8) 0) 1 2 0 0 none 0
    false, (⟨5, 3, 2, 0, false, false, 0⟩ : QCopy), [(⟨4, 3, 2, 0, false, false, 0⟩ : QCopy)], [],
    by decide +kernel⟩

theorem meets_SpillAndDram_4 : ∃ (s : State) (q : Fin 200), s.inReset = false ∧ (s.spillUp = false ∨ ¬ (s.g
    (R.QUE_Qq_MIN q) F.QUE_Qq_MIN_CELLS + s.g R.QUE_SPILL_CFG F.QUE_SPILL_CFG_SPILL_TH < (s.reg (R.QUE_Qq_ONDIE
    q)).toNat) ∧ (s.queue q).any (fun c => c.dram) = false) :=
  ⟨live, 26,
    by decide +kernel⟩

theorem meets_SpillAndDram_5 : ∃ (s : State) (q : Fin 200) (f : Frame) (l : Looked) (c : QCopy) (h : List QCopy) (r :
    List QCopy) (a : Account), s.inReset = false ∧ s.fwdOk ∧ s.frameOf c.frame = some f ∧ f.whole = true ∧ f.look =
    some l ∧ s.isSet R.QUE_STATUS F.QUE_STATUS_DRAM_READY ∧ s.dramWaits = false ∧ s.runs .core = true ∧ s.queue q = h
    ++ c :: r ∧ (∀ x ∈ h, x.dram = false) ∧ c.dram = true ∧ (h.map (fun x => (s.frameOf x.frame).elim 0 (fun g =>
    g.cells))).sum < s.g R.QUE_SPILL_CFG F.QUE_SPILL_CFG_HEAD_KEEP / 2 ∧ (if f.account = .none then s.accountFor f
    { l with dests := [c.port] } else some f.account) = some a :=
  ⟨{ (((((live.p R.QUE_CTRL F.QUE_CTRL_SPILL_EN 1).p R.QUE_PART F.QUE_PART_SPILL 100).p R.QUE_STATUS F.QUE_STATUS_DRAM_READY 1).p (R.QUE_Qq_ONDIE 26) F.QUE_Qq_ONDIE_CELLS 0xFFFFF).p R.QUE_SPILL_CFG F.QUE_SPILL_CFG_HEAD_KEEP 8) with fwd := { live.fwd with nextId := 9, frames := [{ (⟨5, 3, 0, (List.replicate 12 1#8 ++ [8#8, 0#8] ++ List.replicate 50 0#8), ⟨mkT96 5 100 0, false, false, false, 0⟩, true, none, none, false, 1, 0, 0, .min 26, none, true, [], false, none⟩ : Frame) with id := 4, port := 7, look := some (Looked.nothing (headsOf (List.replicate 12 1#8 ++ [8#8, 0#8] ++ List.replicate 50 0#8) 0) 1 2 0 0 none 0 false) }, (⟨5, 3, 0, (List.replicate 12 1#8 ++ [8#8, 0#8] ++ List.replicate 50 0#8), ⟨mkT96 5 100 0, false, false, false, 0⟩, true, none, none, false, 1, 0, 0, .none, some (Looked.nothing (headsOf (List.replicate 12 1#8 ++ [8#8, 0#8] ++ List.replicate 50 0#8) 0) 1 2 0 0 none 0 false), true, [], false, none⟩ : Frame)], queues := [(26, [(⟨4, 3, 2, 0, false, false, 0⟩ : QCopy), (⟨5, 3, 2, 0, false, true, 0⟩ : QCopy), (⟨4, 3, 2, 0, false, false, 0⟩ : QCopy)])] } },
    26, (⟨5, 3, 0, (List.replicate 12 1#8 ++ [8#8, 0#8] ++ List.replicate 50 0#8), ⟨mkT96 5 100 0, false, false,
    false, 0⟩, true, none, none, false, 1, 0, 0, .none, some (Looked.nothing (headsOf (List.replicate 12 1#8 ++ [8#8,
    0#8] ++ List.replicate 50 0#8) 0) 1 2 0 0 none 0 false), true, [], false, none⟩ : Frame), Looked.nothing (headsOf
    (List.replicate 12 1#8 ++ [8#8, 0#8] ++ List.replicate 50 0#8) 0) 1 2 0 0 none 0 false, (⟨5, 3, 2, 0, false,
    true, 0⟩ : QCopy), [(⟨4, 3, 2, 0, false, false, 0⟩ : QCopy)], [(⟨4, 3, 2, 0, false, false, 0⟩ : QCopy)], .min 26,
    by decide +kernel⟩

theorem meets_SpillAndDram_6 : ∃ (s : State) (q : Fin 200) (f : Frame) (l : Looked) (c : QCopy) (h : List QCopy) (r :
    List QCopy) (a : Account), s.inReset = false ∧ s.fwdOk ∧ s.frameOf c.frame = some f ∧ f.whole = true ∧ f.look =
    some l ∧ s.isSet R.QUE_STATUS F.QUE_STATUS_DRAM_READY ∧ s.dramWaits = false ∧ s.runs .core = true ∧ s.queue q = h
    ++ c :: r ∧ (∀ x ∈ h, x.dram = false) ∧ c.dram = true ∧ (h.map (fun x => (s.frameOf x.frame).elim 0 (fun g =>
    g.cells))).sum < s.g R.QUE_SPILL_CFG F.QUE_SPILL_CFG_HEAD_KEEP / 2 ∧ (if f.account = .none then s.accountFor f
    { l with dests := [c.port] } else some f.account) = some a :=
  ⟨{ (((((live.p R.QUE_CTRL F.QUE_CTRL_SPILL_EN 1).p R.QUE_PART F.QUE_PART_SPILL 100).p R.QUE_STATUS F.QUE_STATUS_DRAM_READY 1).p (R.QUE_Qq_ONDIE 26) F.QUE_Qq_ONDIE_CELLS 0xFFFFF).p R.QUE_SPILL_CFG F.QUE_SPILL_CFG_HEAD_KEEP 8) with fwd := { live.fwd with nextId := 9, frames := [{ (⟨5, 3, 0, (List.replicate 12 1#8 ++ [8#8, 0#8] ++ List.replicate 50 0#8), ⟨mkT96 5 100 0, false, false, false, 0⟩, true, none, none, false, 1, 0, 0, .min 26, none, true, [], false, none⟩ : Frame) with id := 4, port := 7, look := some (Looked.nothing (headsOf (List.replicate 12 1#8 ++ [8#8, 0#8] ++ List.replicate 50 0#8) 0) 1 2 0 0 none 0 false) }, (⟨5, 3, 0, (List.replicate 12 1#8 ++ [8#8, 0#8] ++ List.replicate 50 0#8), ⟨mkT96 5 100 0, false, false, false, 0⟩, true, none, none, false, 1, 0, 0, .none, some (Looked.nothing (headsOf (List.replicate 12 1#8 ++ [8#8, 0#8] ++ List.replicate 50 0#8) 0) 1 2 0 0 none 0 false), true, [], false, none⟩ : Frame)], queues := [(26, [(⟨4, 3, 2, 0, false, false, 0⟩ : QCopy), (⟨5, 3, 2, 0, false, true, 0⟩ : QCopy), (⟨4, 3, 2, 0, false, false, 0⟩ : QCopy)])] } },
    26, (⟨5, 3, 0, (List.replicate 12 1#8 ++ [8#8, 0#8] ++ List.replicate 50 0#8), ⟨mkT96 5 100 0, false, false,
    false, 0⟩, true, none, none, false, 1, 0, 0, .none, some (Looked.nothing (headsOf (List.replicate 12 1#8 ++ [8#8,
    0#8] ++ List.replicate 50 0#8) 0) 1 2 0 0 none 0 false), true, [], false, none⟩ : Frame), Looked.nothing (headsOf
    (List.replicate 12 1#8 ++ [8#8, 0#8] ++ List.replicate 50 0#8) 0) 1 2 0 0 none 0 false, (⟨5, 3, 2, 0, false,
    true, 0⟩ : QCopy), [(⟨4, 3, 2, 0, false, false, 0⟩ : QCopy)], [(⟨4, 3, 2, 0, false, false, 0⟩ : QCopy)], .min 26,
    by decide +kernel⟩

theorem meets_SpillAndDram_7 : ∃ (s : State) (q : Fin 200) (c : QCopy) (h : List QCopy) (r : List QCopy), s.inReset =
    false ∧ s.fwdOk ∧ s.isSet R.QUE_STATUS F.QUE_STATUS_DRAM_READY ∧ s.dramWaits = false ∧ s.runs .core = true ∧
    s.queue q = h ++ c :: r ∧ (∀ x ∈ h, x.dram = false) ∧ c.dram = true ∧ (h.map (fun x => (s.frameOf x.frame).elim 0
    (fun g => g.cells))).sum < s.g R.QUE_SPILL_CFG F.QUE_SPILL_CFG_HEAD_KEEP / 2 :=
  ⟨{ (((((live.p R.QUE_CTRL F.QUE_CTRL_SPILL_EN 1).p R.QUE_PART F.QUE_PART_SPILL 100).p R.QUE_STATUS F.QUE_STATUS_DRAM_READY 1).p (R.QUE_Qq_ONDIE 26) F.QUE_Qq_ONDIE_CELLS 0xFFFFF).p R.QUE_SPILL_CFG F.QUE_SPILL_CFG_HEAD_KEEP 8) with fwd := { live.fwd with nextId := 9, frames := [{ (⟨5, 3, 0, (List.replicate 12 1#8 ++ [8#8, 0#8] ++ List.replicate 50 0#8), ⟨mkT96 5 100 0, false, false, false, 0⟩, true, none, none, false, 1, 0, 0, .min 26, none, true, [], false, none⟩ : Frame) with id := 4, port := 7, look := some (Looked.nothing (headsOf (List.replicate 12 1#8 ++ [8#8, 0#8] ++ List.replicate 50 0#8) 0) 1 2 0 0 none 0 false) }, (⟨5, 3, 0, (List.replicate 12 1#8 ++ [8#8, 0#8] ++ List.replicate 50 0#8), ⟨mkT96 5 100 0, false, false, false, 0⟩, true, none, none, false, 1, 0, 0, .none, some (Looked.nothing (headsOf (List.replicate 12 1#8 ++ [8#8, 0#8] ++ List.replicate 50 0#8) 0) 1 2 0 0 none 0 false), true, [], false, none⟩ : Frame)], queues := [(26, [(⟨4, 3, 2, 0, false, false, 0⟩ : QCopy), (⟨5, 3, 2, 0, false, true, 0⟩ : QCopy), (⟨4, 3, 2, 0, false, false, 0⟩ : QCopy)])] } },
    26, (⟨5, 3, 2, 0, false, true, 0⟩ : QCopy), [(⟨4, 3, 2, 0, false, false, 0⟩ : QCopy)], [(⟨4, 3, 2, 0, false,
    false, 0⟩ : QCopy)],
    by decide +kernel⟩

theorem meets_SpillAndDram_8 : ∃ (s : State), s.inReset = false ∧ s.boot.training = true :=
  ⟨{ live with boot := { live.boot with training := true, trained := false } },
    by decide +kernel⟩

theorem meets_SpillAndDram_9 : ∃ (s : State), s.inReset = false ∧ s.boot.training = true ∧ s.hif.fq.length < 32 :=
  ⟨{ live with boot := { live.boot with training := true, trained := false } },
    by decide +kernel⟩

theorem meets_FlowControl_1 : ∃ (s : State), s.inReset = false ∧ (¬ (s.fwd.stalled = [] ∧ s.runs .core = true)) :=
  ⟨{ { (live.p (R.QUE_Pn_PFC_CFG 3) F.QUE_Pn_PFC_CFG_TX_EN 6) with fwd := { live.fwd with stalled := [(0, [5])] } } with gated := [.core] },
    by decide +kernel⟩

theorem meets_FlowControl_2 : ∃ (s : State) (p : Fin 24), s.inReset = false ∧ s.running = true ∧ s.linkUp p = true ∧
    s.g (R.QUE_Pn_PAUSE_STATUS p) F.QUE_Pn_PAUSE_STATUS_TX_XOFF ≠ Tbl.get 0 s.fwd.pfcSent p :=
  ⟨((((fun (q : State) => (q.p (R.MAC_Pn_CFG 3) F.MAC_Pn_CFG_EN 1).p (R.MAC_Pn_STATUS 3) F.MAC_Pn_STATUS_BLOCK_LOCK
    1) live).p (R.QUE_Pn_PAUSE_STATUS 3) F.QUE_Pn_PAUSE_STATUS_TX_XOFF 6).p (R.QUE_Pn_PFC_CFG 3)
    F.QUE_Pn_PFC_CFG_QUANTA 100), 3,
    by decide +kernel⟩

theorem meets_FlowControl_3 : ∃ (s : State) (p : Fin 24), s.inReset = false ∧ s.running = true ∧ s.linkUp p = true ∧
    s.g (R.QUE_Pn_PAUSE_STATUS p) F.QUE_Pn_PAUSE_STATUS_TX_XOFF ≠ 0 :=
  ⟨((((fun (q : State) => (q.p (R.MAC_Pn_CFG 3) F.MAC_Pn_CFG_EN 1).p (R.MAC_Pn_STATUS 3) F.MAC_Pn_STATUS_BLOCK_LOCK
    1) live).p (R.QUE_Pn_PAUSE_STATUS 3) F.QUE_Pn_PAUSE_STATUS_TX_XOFF 6).p (R.QUE_Pn_PFC_CFG 3)
    F.QUE_Pn_PFC_CFG_QUANTA 100), 3,
    by decide +kernel⟩

theorem meets_FlowControl_4 : ∃ (s : State) (b : List Byte), s.inReset = false ∧ s.running = true ∧ beAt b 0 6 =
    0x0180C2000001 ∧ beAt b 12 4 = 0x88080101 ∧ 34 ≤ b.length :=
  ⟨((live.p (R.QUE_Pn_PFC_CFG 3) F.QUE_Pn_PFC_CFG_RX_EN 6).p (R.QUE_Pn_PAUSE_STATUS 3)
    F.QUE_Pn_PAUSE_STATUS_RX_PAUSED 4), ([1, 0x80, 0xC2, 0, 0, 1] ++ List.replicate 6 1#8 ++ [0x88, 0x08, 1, 1, 0, 7,
    0, 0, 0, 9] ++ List.replicate 50 0#8),
    by decide +kernel⟩

theorem meets_FlowControl_5 : ∃ (s : State), s.inReset = false :=
  ⟨live.p (R.QUE_Pn_PAUSE_STATUS 3) F.QUE_Pn_PAUSE_STATUS_RX_PAUSED 4,
    by decide +kernel⟩

theorem meets_HerdRelease_1 : ∃ (s : State) (p : Fin 24) (f : Frame) (l : Looked) (i : HerdInfo), s.inReset = false ∧
    s.fwdOk ∧ s.fwd.frames.find? (fun g => g.whole && g.placed && !g.toPlace.isEmpty && g.bad.isNone) = some f ∧
    f.look = some l ∧ l.herd = some i ∧ s.runs .core = true ∧ s.runs .timescale = true ∧ f.toPlace = [p.val] ∧
    s.placeReason p i (i.origin + BitVec.ofNat 64 ((i.cum + i.budget) * 65536000)) (tickDiff ((i.origin +
    BitVec.ofNat 64 ((i.cum + i.budget) * 65536000)) - BitVec.ofNat 64 352321536) s.nowTick) = 0 :=
  ⟨{ (live.p R.HRD_EARLY F.HRD_EARLY_EARLY_US 4000) with fwd := { live.fwd with nextId := 9, frames := [{ (⟨5, 3, 0, (List.replicate 12 1#8 ++ [8#8, 0#8] ++ List.replicate 50 0#8), ⟨mkT96 5 100 0, false, false, false, 0⟩, true, none, none, false, 1, 0, 0, .min 26, none, true, [], false, none⟩ : Frame) with id := 4, port := 7, look := some (Looked.nothing (headsOf (List.replicate 12 1#8 ++ [8#8, 0#8] ++ List.replicate 50 0#8) 0) 1 2 0 0 none 0 false) }, (⟨5, 3, 0, (List.replicate 12 1#8 ++ [8#8, 0#8] ++ List.replicate 50 0#8), ⟨mkT96 5 100 0, false, false, false, 0⟩, true, none, none, false, 1, 0, 0, .herd, some ({ Looked.nothing (headsOf (List.replicate 12 1#8 ++ [8#8, 0#8] ++ List.replicate 50 0#8) 0) 1 2 0 0 none 0 false with herd := some ⟨0#64, 0, 0, false, false, 0, 0, 100, false⟩, fc := some 5 }), true, [3], false, none⟩ : Frame)], cals := [(3, [(⟨4, 3, 7#64, 0, 1, 0⟩ : HCopy)])], queues := [(26, [⟨4, 3, 2, 0, false, false, 0⟩])] } },
    3, (⟨5, 3, 0, (List.replicate 12 1#8 ++ [8#8, 0#8] ++ List.replicate 50 0#8), ⟨mkT96 5 100 0, false, false,
    false, 0⟩, true, none, none, false, 1, 0, 0, .herd, some
    ({ Looked.nothing (headsOf (List.replicate 12 1#8 ++ [8#8, 0#8] ++ List.replicate 50 0#8) 0) 1 2 0 0 none 0 false with herd := some ⟨0#64, 0, 0, false, false, 0, 0, 100, false⟩, fc := some 5 }),
    true, [3], false, none⟩ : Frame),
    { Looked.nothing (headsOf (List.replicate 12 1#8 ++ [8#8, 0#8] ++ List.replicate 50 0#8) 0) 1 2 0 0 none 0 false with herd := some ⟨0#64, 0, 0, false, false, 0, 0, 100, false⟩, fc := some 5 },
    ⟨0#64, 0, 0, false, false, 0, 0, 100, false⟩,
    by decide +kernel⟩

theorem meets_HerdRelease_2 : ∃ (s : State) (p : Fin 24) (f : Frame) (l : Looked) (i : HerdInfo), s.inReset = false ∧
    s.fwdOk ∧ s.fwd.frames.find? (fun g => g.whole && g.placed && !g.toPlace.isEmpty && g.bad.isNone) = some f ∧
    f.look = some l ∧ l.herd = some i ∧ s.runs .core = true ∧ s.runs .timescale = true ∧ s.placeReason p i (i.origin
    + BitVec.ofNat 64 ((i.cum + i.budget) * 65536000)) (tickDiff ((i.origin + BitVec.ofNat 64 ((i.cum + i.budget) *
    65536000)) - BitVec.ofNat 64 352321536) s.nowTick) ≠ 0 ∧ s.placeReason p i (i.origin + BitVec.ofNat 64 ((i.cum +
    i.budget) * 65536000)) (tickDiff ((i.origin + BitVec.ofNat 64 ((i.cum + i.budget) * 65536000)) - BitVec.ofNat 64
    352321536) s.nowTick) ≠ 8 ∧ f.toPlace = [p.val] ∧ l.latePass = false :=
  ⟨{ (live.p R.HRD_EARLY F.HRD_EARLY_EARLY_US 4000) with fwd := { live.fwd with nextId := 9, frames := [{ (⟨5, 3, 0, (List.replicate 12 1#8 ++ [8#8, 0#8] ++ List.replicate 50 0#8), ⟨mkT96 5 100 0, false, false, false, 0⟩, true, none, none, false, 1, 0, 0, .min 26, none, true, [], false, none⟩ : Frame) with id := 4, port := 7, look := some (Looked.nothing (headsOf (List.replicate 12 1#8 ++ [8#8, 0#8] ++ List.replicate 50 0#8) 0) 1 2 0 0 none 0 false) }, (⟨5, 3, 0, (List.replicate 12 1#8 ++ [8#8, 0#8] ++ List.replicate 50 0#8), ⟨mkT96 5 100 0, false, false, false, 0⟩, true, none, none, false, 1, 0, 0, .herd, some ({ Looked.nothing (headsOf (List.replicate 12 1#8 ++ [8#8, 0#8] ++ List.replicate 50 0#8) 0) 1 2 0 0 none 0 false with herd := some ⟨0#64, 0, 0, false, false, 0, 0, 5, false⟩, fc := some 5 }), true, [3], false, none⟩ : Frame)], cals := [(3, [(⟨4, 3, 7#64, 0, 1, 0⟩ : HCopy)])], queues := [(26, [⟨4, 3, 2, 0, false, false, 0⟩])] } },
    3, (⟨5, 3, 0, (List.replicate 12 1#8 ++ [8#8, 0#8] ++ List.replicate 50 0#8), ⟨mkT96 5 100 0, false, false,
    false, 0⟩, true, none, none, false, 1, 0, 0, .herd, some
    ({ Looked.nothing (headsOf (List.replicate 12 1#8 ++ [8#8, 0#8] ++ List.replicate 50 0#8) 0) 1 2 0 0 none 0 false with herd := some ⟨0#64, 0, 0, false, false, 0, 0, 5, false⟩, fc := some 5 }),
    true, [3], false, none⟩ : Frame),
    { Looked.nothing (headsOf (List.replicate 12 1#8 ++ [8#8, 0#8] ++ List.replicate 50 0#8) 0) 1 2 0 0 none 0 false with herd := some ⟨0#64, 0, 0, false, false, 0, 0, 5, false⟩, fc := some 5 },
    ⟨0#64, 0, 0, false, false, 0, 0, 5, false⟩,
    by decide +kernel⟩

theorem meets_HerdRelease_3 : ∃ (s : State) (p : Fin 24) (f : Frame) (l : Looked) (i : HerdInfo), s.inReset = false ∧
    s.fwdOk ∧ s.fwd.frames.find? (fun g => g.whole && g.placed && !g.toPlace.isEmpty && g.bad.isNone) = some f ∧
    f.look = some l ∧ l.herd = some i ∧ s.runs .core = true ∧ s.runs .timescale = true ∧ s.placeReason p i (i.origin
    + BitVec.ofNat 64 ((i.cum + i.budget) * 65536000)) (tickDiff ((i.origin + BitVec.ofNat 64 ((i.cum + i.budget) *
    65536000)) - BitVec.ofNat 64 352321536) s.nowTick) ≠ 0 ∧ s.placeReason p i (i.origin + BitVec.ofNat 64 ((i.cum +
    i.budget) * 65536000)) (tickDiff ((i.origin + BitVec.ofNat 64 ((i.cum + i.budget) * 65536000)) - BitVec.ofNat 64
    352321536) s.nowTick) ≠ 8 ∧ f.toPlace = [p.val] ∧ l.latePass = true :=
  ⟨{ (live.p R.HRD_EARLY F.HRD_EARLY_EARLY_US 4000) with fwd := { live.fwd with nextId := 9, frames := [{ (⟨5, 3, 0, (List.replicate 12 1#8 ++ [8#8, 0#8] ++ List.replicate 50 0#8), ⟨mkT96 5 100 0, false, false, false, 0⟩, true, none, none, false, 1, 0, 0, .min 26, none, true, [], false, none⟩ : Frame) with id := 4, port := 7, look := some (Looked.nothing (headsOf (List.replicate 12 1#8 ++ [8#8, 0#8] ++ List.replicate 50 0#8) 0) 1 2 0 0 none 0 false) }, (⟨5, 3, 0, (List.replicate 12 1#8 ++ [8#8, 0#8] ++ List.replicate 50 0#8), ⟨mkT96 5 100 0, false, false, false, 0⟩, true, none, none, false, 1, 0, 0, .herd, some ({ Looked.nothing (headsOf (List.replicate 12 1#8 ++ [8#8, 0#8] ++ List.replicate 50 0#8) 0) 1 2 0 0 none 0 false with herd := some ⟨0#64, 0, 0, false, false, 0, 0, 5, false⟩, fc := some 5, latePass := true }), true, [3], false, none⟩ : Frame)], cals := [(3, [(⟨4, 3, 7#64, 0, 1, 0⟩ : HCopy)])], queues := [(26, [⟨4, 3, 2, 0, false, false, 0⟩])] } },
    3, (⟨5, 3, 0, (List.replicate 12 1#8 ++ [8#8, 0#8] ++ List.replicate 50 0#8), ⟨mkT96 5 100 0, false, false,
    false, 0⟩, true, none, none, false, 1, 0, 0, .herd, some
    ({ Looked.nothing (headsOf (List.replicate 12 1#8 ++ [8#8, 0#8] ++ List.replicate 50 0#8) 0) 1 2 0 0 none 0 false with herd := some ⟨0#64, 0, 0, false, false, 0, 0, 5, false⟩, fc := some 5, latePass := true }),
    true, [3], false, none⟩ : Frame),
    { Looked.nothing (headsOf (List.replicate 12 1#8 ++ [8#8, 0#8] ++ List.replicate 50 0#8) 0) 1 2 0 0 none 0 false with herd := some ⟨0#64, 0, 0, false, false, 0, 0, 5, false⟩, fc := some 5, latePass := true },
    ⟨0#64, 0, 0, false, false, 0, 0, 5, false⟩,
    by decide +kernel⟩

theorem meets_HerdRelease_4 : ∃ (s : State) (p : Fin 24) (f : Frame) (l : Looked) (i : HerdInfo), s.inReset = false ∧
    s.fwdOk ∧ s.fwd.frames.find? (fun g => g.whole && g.placed && !g.toPlace.isEmpty && g.bad.isNone) = some f ∧
    f.look = some l ∧ l.herd = some i ∧ s.runs .core = true ∧ s.runs .timescale = true ∧ s.placeReason p i (i.origin
    + BitVec.ofNat 64 ((i.cum + i.budget) * 65536000)) (tickDiff ((i.origin + BitVec.ofNat 64 ((i.cum + i.budget) *
    65536000)) - BitVec.ofNat 64 352321536) s.nowTick) = 8 ∧ f.toPlace = [p.val] :=
  ⟨(({ (live.p R.HRD_EARLY F.HRD_EARLY_EARLY_US 4000) with fwd := { live.fwd with nextId := 9, frames := [{ (⟨5, 3, 0, (List.replicate 12 1#8 ++ [8#8, 0#8] ++ List.replicate 50 0#8), ⟨mkT96 5 100 0, false, false, false, 0⟩, true, none, none, false, 1, 0, 0, .min 26, none, true, [], false, none⟩ : Frame) with id := 4, port := 7, look := some (Looked.nothing (headsOf (List.replicate 12 1#8 ++ [8#8, 0#8] ++ List.replicate 50 0#8) 0) 1 2 0 0 none 0 false) }, (⟨5, 3, 0, (List.replicate 12 1#8 ++ [8#8, 0#8] ++ List.replicate 50 0#8), ⟨mkT96 5 100 0, false, false, false, 0⟩, true, none, none, false, 1, 0, 0, .herd, some ({ Looked.nothing (headsOf (List.replicate 12 1#8 ++ [8#8, 0#8] ++ List.replicate 50 0#8) 0) 1 2 0 0 none 0 false with herd := some ⟨0#64, 0, 0, false, false, 0, 0, 100, false⟩, fc := some 5 }), true, [3], false, none⟩ : Frame)], cals := [(3, [(⟨4, 3, 7#64, 0, 1, 0⟩ : HCopy)])], queues := [(26, [⟨4, 3, 2, 0, false, false, 0⟩])] } }).p
    (R.HRD_PORTn_CFG 3) F.HRD_PORTn_CFG_CLAIM_GATE 1).p R.RUT_CTRL F.RUT_CTRL_PAIR_EN 1 |>.p R.RUT_STATUS
    F.RUT_STATUS_HIGHER 0, 3, (⟨5, 3, 0, (List.replicate 12 1#8 ++ [8#8, 0#8] ++ List.replicate 50 0#8), ⟨mkT96 5 100
    0, false, false, false, 0⟩, true, none, none, false, 1, 0, 0, .herd, some
    ({ Looked.nothing (headsOf (List.replicate 12 1#8 ++ [8#8, 0#8] ++ List.replicate 50 0#8) 0) 1 2 0 0 none 0 false with herd := some ⟨0#64, 0, 0, false, false, 0, 0, 100, false⟩, fc := some 5 }),
    true, [3], false, none⟩ : Frame),
    { Looked.nothing (headsOf (List.replicate 12 1#8 ++ [8#8, 0#8] ++ List.replicate 50 0#8) 0) 1 2 0 0 none 0 false with herd := some ⟨0#64, 0, 0, false, false, 0, 0, 100, false⟩, fc := some 5 },
    ⟨0#64, 0, 0, false, false, 0, 0, 100, false⟩,
    by decide +kernel⟩

theorem meets_HerdRelease_5 : ∃ (s : State) (f : Frame) (l : Looked) (i : HerdInfo), s.inReset = false ∧ s.fwdOk ∧
    s.fwd.frames.find? (fun g => g.whole && g.placed && !g.toPlace.isEmpty && g.bad.isNone) = some f ∧ f.look = some
    l ∧ l.herd = some i ∧ s.runs .core = true ∧ s.runs .timescale = true :=
  ⟨{ (live.p R.HRD_EARLY F.HRD_EARLY_EARLY_US 4000) with fwd := { live.fwd with nextId := 9, frames := [{ (⟨5, 3, 0, (List.replicate 12 1#8 ++ [8#8, 0#8] ++ List.replicate 50 0#8), ⟨mkT96 5 100 0, false, false, false, 0⟩, true, none, none, false, 1, 0, 0, .min 26, none, true, [], false, none⟩ : Frame) with id := 4, port := 7, look := some (Looked.nothing (headsOf (List.replicate 12 1#8 ++ [8#8, 0#8] ++ List.replicate 50 0#8) 0) 1 2 0 0 none 0 false) }, (⟨5, 3, 0, (List.replicate 12 1#8 ++ [8#8, 0#8] ++ List.replicate 50 0#8), ⟨mkT96 5 100 0, false, false, false, 0⟩, true, none, none, false, 1, 0, 0, .herd, some ({ Looked.nothing (headsOf (List.replicate 12 1#8 ++ [8#8, 0#8] ++ List.replicate 50 0#8) 0) 1 2 0 0 none 0 false with herd := some ⟨0#64, 0, 0, false, false, 0, 0, 100, false⟩, fc := some 5 }), true, [3, 5, 9], false, none⟩ : Frame)], cals := [(3, [(⟨4, 3, 7#64, 0, 1, 0⟩ : HCopy)])], queues := [(26, [⟨4, 3, 2, 0, false, false, 0⟩])] } },
    (⟨5, 3, 0, (List.replicate 12 1#8 ++ [8#8, 0#8] ++ List.replicate 50 0#8), ⟨mkT96 5 100 0, false, false, false,
    0⟩, true, none, none, false, 1, 0, 0, .herd, some
    ({ Looked.nothing (headsOf (List.replicate 12 1#8 ++ [8#8, 0#8] ++ List.replicate 50 0#8) 0) 1 2 0 0 none 0 false with herd := some ⟨0#64, 0, 0, false, false, 0, 0, 100, false⟩, fc := some 5 }),
    true, [3, 5, 9], false, none⟩ : Frame),
    { Looked.nothing (headsOf (List.replicate 12 1#8 ++ [8#8, 0#8] ++ List.replicate 50 0#8) 0) 1 2 0 0 none 0 false with herd := some ⟨0#64, 0, 0, false, false, 0, 0, 100, false⟩, fc := some 5 },
    ⟨0#64, 0, 0, false, false, 0, 0, 100, false⟩,
    by decide +kernel⟩

theorem meets_HerdRelease_6 : ∃ (s : State) (p : Fin 24) (x : StampIn) (c : HCopy) (k : List HCopy) (f : Frame) (l :
    Looked) (i : HerdInfo), s.inReset = false ∧ s.fwdOk ∧ s.cal p = c :: k ∧ s.herdInfo c = some (f, l, i) ∧ s.runs
    .core = true ∧ s.runs .timescale = true ∧ s.looping p = false ∧ s.gateShut p = false ∧ Tbl.get none s.fwd.sending
    p = none ∧ fineLe (s.ideal p c.r) (fineOf (tickOf (s.txStamp p x).t)) = true ∧ s.lineFree p (s.txStamp p x) =
    true ∧ s.departReason p l.cls = 0 :=
  ⟨{ ((((fun (q : State) => (q.p (R.MAC_Pn_CFG 3) F.MAC_Pn_CFG_EN 1).p (R.MAC_Pn_STATUS 3) F.MAC_Pn_STATUS_BLOCK_LOCK 1) live).p (R.FWD_PORTn_STATE 3) F.FWD_PORTn_STATE_STATE 3).p R.REF_STATUS F.REF_STATUS_COND 1) with fwd := { live.fwd with nextId := 9, frames := [{ (⟨5, 3, 0, (List.replicate 12 1#8 ++ [8#8, 0#8] ++ List.replicate 50 0#8), ⟨mkT96 5 100 0, false, false, false, 0⟩, true, none, none, false, 1, 0, 0, .min 26, none, true, [], false, none⟩ : Frame) with id := 4, port := 7, look := some (Looked.nothing (headsOf (List.replicate 12 1#8 ++ [8#8, 0#8] ++ List.replicate 50 0#8) 0) 1 2 0 0 none 0 false) }, (⟨5, 3, 0, (List.replicate 12 1#8 ++ [8#8, 0#8] ++ List.replicate 50 0#8), ⟨mkT96 5 100 0, false, false, false, 0⟩, true, none, none, false, 1, 0, 0, .herd, some ({ Looked.nothing (headsOf (List.replicate 12 1#8 ++ [8#8, 0#8] ++ List.replicate 50 0#8) 0) 1 2 0 0 none 0 false with herd := some ⟨0#64, 0, 0, false, false, 0, 0, 100, false⟩, fc := some 5 }), true, [], false, none⟩ : Frame)], cals := [(3, [(⟨5, 3, 0#64, 0, 1, 0⟩ : HCopy), (⟨4, 3, 7#64, 0, 1, 0⟩ : HCopy)])], queues := [(26, [⟨4, 3, 2, 0, false, false, 0⟩])] } },
    3, ⟨0, 0, 500, ⟨0, 0, 0⟩, 0, false⟩, (⟨5, 3, 0#64, 0, 1, 0⟩ : HCopy), [(⟨4, 3, 7#64, 0, 1, 0⟩ : HCopy)], (⟨5, 3,
    0, (List.replicate 12 1#8 ++ [8#8, 0#8] ++ List.replicate 50 0#8), ⟨mkT96 5 100 0, false, false, false, 0⟩, true,
    none, none, false, 1, 0, 0, .herd, some
    ({ Looked.nothing (headsOf (List.replicate 12 1#8 ++ [8#8, 0#8] ++ List.replicate 50 0#8) 0) 1 2 0 0 none 0 false with herd := some ⟨0#64, 0, 0, false, false, 0, 0, 100, false⟩, fc := some 5 }),
    true, [], false, none⟩ : Frame),
    { Looked.nothing (headsOf (List.replicate 12 1#8 ++ [8#8, 0#8] ++ List.replicate 50 0#8) 0) 1 2 0 0 none 0 false with herd := some ⟨0#64, 0, 0, false, false, 0, 0, 100, false⟩, fc := some 5 },
    ⟨0#64, 0, 0, false, false, 0, 0, 100, false⟩,
    by decide +kernel⟩

theorem meets_HerdRelease_7 : ∃ (s : State) (p : Fin 24) (x : StampIn) (c : HCopy) (k : List HCopy) (f : Frame) (l :
    Looked) (i : HerdInfo), s.inReset = false ∧ s.fwdOk ∧ s.cal p = c :: k ∧ s.herdInfo c = some (f, l, i) ∧ s.runs
    .core = true ∧ s.runs .timescale = true ∧ s.looping p = false ∧ s.gateShut p = false ∧ Tbl.get none s.fwd.sending
    p = none ∧ fineLe (s.ideal p c.r) (fineOf (tickOf (s.txStamp p x).t)) = true ∧ s.lineFree p (s.txStamp p x) =
    true ∧ s.departReason p l.cls ≠ 0 ∧ l.latePass = true :=
  ⟨{ live with fwd := { live.fwd with nextId := 9, frames := [{ (⟨5, 3, 0, (List.replicate 12 1#8 ++ [8#8, 0#8] ++ List.replicate 50 0#8), ⟨mkT96 5 100 0, false, false, false, 0⟩, true, none, none, false, 1, 0, 0, .min 26, none, true, [], false, none⟩ : Frame) with id := 4, port := 7, look := some (Looked.nothing (headsOf (List.replicate 12 1#8 ++ [8#8, 0#8] ++ List.replicate 50 0#8) 0) 1 2 0 0 none 0 false) }, (⟨5, 3, 0, (List.replicate 12 1#8 ++ [8#8, 0#8] ++ List.replicate 50 0#8), ⟨mkT96 5 100 0, false, false, false, 0⟩, true, none, none, false, 1, 0, 0, .herd, some ({ Looked.nothing (headsOf (List.replicate 12 1#8 ++ [8#8, 0#8] ++ List.replicate 50 0#8) 0) 1 2 0 0 none 0 false with herd := some ⟨0#64, 0, 0, false, false, 0, 0, 100, false⟩, fc := some 5, latePass := true }), true, [], false, none⟩ : Frame)], cals := [(3, [(⟨5, 3, 0#64, 0, 1, 0⟩ : HCopy), (⟨4, 3, 7#64, 0, 1, 0⟩ : HCopy)])], queues := [(26, [⟨4, 3, 2, 0, false, false, 0⟩])] } },
    3, ⟨0, 0, 500, ⟨0, 0, 0⟩, 0, false⟩, (⟨5, 3, 0#64, 0, 1, 0⟩ : HCopy), [(⟨4, 3, 7#64, 0, 1, 0⟩ : HCopy)], (⟨5, 3,
    0, (List.replicate 12 1#8 ++ [8#8, 0#8] ++ List.replicate 50 0#8), ⟨mkT96 5 100 0, false, false, false, 0⟩, true,
    none, none, false, 1, 0, 0, .herd, some
    ({ Looked.nothing (headsOf (List.replicate 12 1#8 ++ [8#8, 0#8] ++ List.replicate 50 0#8) 0) 1 2 0 0 none 0 false with herd := some ⟨0#64, 0, 0, false, false, 0, 0, 100, false⟩, fc := some 5, latePass := true }),
    true, [], false, none⟩ : Frame),
    { Looked.nothing (headsOf (List.replicate 12 1#8 ++ [8#8, 0#8] ++ List.replicate 50 0#8) 0) 1 2 0 0 none 0 false with herd := some ⟨0#64, 0, 0, false, false, 0, 0, 100, false⟩, fc := some 5, latePass := true },
    ⟨0#64, 0, 0, false, false, 0, 0, 100, false⟩,
    by decide +kernel⟩

theorem meets_HerdRelease_8 : ∃ (s : State) (p : Fin 24) (x : StampIn) (c : HCopy) (k : List HCopy) (f : Frame) (l :
    Looked) (i : HerdInfo), s.inReset = false ∧ s.fwdOk ∧ s.cal p = c :: k ∧ s.herdInfo c = some (f, l, i) ∧ s.runs
    .core = true ∧ s.runs .timescale = true ∧ s.looping p = false ∧ s.gateShut p = false ∧ Tbl.get none s.fwd.sending
    p = none ∧ fineLe (s.ideal p c.r) (fineOf (tickOf (s.txStamp p x).t)) = true ∧ s.lineFree p (s.txStamp p x) =
    true ∧ s.departReason p l.cls ≠ 0 ∧ l.latePass = false :=
  ⟨{ live with fwd := { live.fwd with nextId := 9, frames := [{ (⟨5, 3, 0, (List.replicate 12 1#8 ++ [8#8, 0#8] ++ List.replicate 50 0#8), ⟨mkT96 5 100 0, false, false, false, 0⟩, true, none, none, false, 1, 0, 0, .min 26, none, true, [], false, none⟩ : Frame) with id := 4, port := 7, look := some (Looked.nothing (headsOf (List.replicate 12 1#8 ++ [8#8, 0#8] ++ List.replicate 50 0#8) 0) 1 2 0 0 none 0 false) }, (⟨5, 3, 0, (List.replicate 12 1#8 ++ [8#8, 0#8] ++ List.replicate 50 0#8), ⟨mkT96 5 100 0, false, false, false, 0⟩, true, none, none, false, 1, 0, 0, .herd, some ({ Looked.nothing (headsOf (List.replicate 12 1#8 ++ [8#8, 0#8] ++ List.replicate 50 0#8) 0) 1 2 0 0 none 0 false with herd := some ⟨0#64, 0, 0, false, false, 0, 0, 100, false⟩, fc := some 5 }), true, [], false, none⟩ : Frame)], cals := [(3, [(⟨5, 3, 0#64, 0, 1, 0⟩ : HCopy), (⟨4, 3, 7#64, 0, 1, 0⟩ : HCopy)])], queues := [(26, [⟨4, 3, 2, 0, false, false, 0⟩])] } },
    3, ⟨0, 0, 500, ⟨0, 0, 0⟩, 0, false⟩, (⟨5, 3, 0#64, 0, 1, 0⟩ : HCopy), [(⟨4, 3, 7#64, 0, 1, 0⟩ : HCopy)], (⟨5, 3,
    0, (List.replicate 12 1#8 ++ [8#8, 0#8] ++ List.replicate 50 0#8), ⟨mkT96 5 100 0, false, false, false, 0⟩, true,
    none, none, false, 1, 0, 0, .herd, some
    ({ Looked.nothing (headsOf (List.replicate 12 1#8 ++ [8#8, 0#8] ++ List.replicate 50 0#8) 0) 1 2 0 0 none 0 false with herd := some ⟨0#64, 0, 0, false, false, 0, 0, 100, false⟩, fc := some 5 }),
    true, [], false, none⟩ : Frame),
    { Looked.nothing (headsOf (List.replicate 12 1#8 ++ [8#8, 0#8] ++ List.replicate 50 0#8) 0) 1 2 0 0 none 0 false with herd := some ⟨0#64, 0, 0, false, false, 0, 0, 100, false⟩, fc := some 5 },
    ⟨0#64, 0, 0, false, false, 0, 0, 100, false⟩,
    by decide +kernel⟩

theorem meets_HerdRelease_9 : ∃ (s : State) (p : Fin 24) (x : StampIn) (c : HCopy) (k : List HCopy) (f : Frame) (l :
    Looked) (i : HerdInfo), s.inReset = false ∧ s.fwdOk ∧ s.cal p = c :: k ∧ s.herdInfo c = some (f, l, i) ∧ s.runs
    .core = true ∧ s.runs .timescale = true ∧ s.looping p = false ∧ Tbl.get none s.fwd.sending p = none ∧ fineLe
    (s.ideal p c.r) (fineOf (tickOf (s.txStamp p x).t)) = true ∧ s.lineFree p (s.txStamp p x) = true ∧ s.gateShut p =
    true :=
  ⟨{ (live.p (R.HRD_PORTn_CFG 3) F.HRD_PORTn_CFG_CLAIM_GATE 1).p R.RUT_CTRL F.RUT_CTRL_PAIR_EN 1 |>.p R.RUT_STATUS F.RUT_STATUS_HIGHER 0 with fwd := { live.fwd with nextId := 9, frames := [{ (⟨5, 3, 0, (List.replicate 12 1#8 ++ [8#8, 0#8] ++ List.replicate 50 0#8), ⟨mkT96 5 100 0, false, false, false, 0⟩, true, none, none, false, 1, 0, 0, .min 26, none, true, [], false, none⟩ : Frame) with id := 4, port := 7, look := some (Looked.nothing (headsOf (List.replicate 12 1#8 ++ [8#8, 0#8] ++ List.replicate 50 0#8) 0) 1 2 0 0 none 0 false) }, (⟨5, 3, 0, (List.replicate 12 1#8 ++ [8#8, 0#8] ++ List.replicate 50 0#8), ⟨mkT96 5 100 0, false, false, false, 0⟩, true, none, none, false, 1, 0, 0, .herd, some ({ Looked.nothing (headsOf (List.replicate 12 1#8 ++ [8#8, 0#8] ++ List.replicate 50 0#8) 0) 1 2 0 0 none 0 false with herd := some ⟨0#64, 0, 0, false, false, 0, 0, 100, false⟩, fc := some 5 }), true, [], false, none⟩ : Frame)], cals := [(3, [(⟨5, 3, 0#64, 0, 1, 0⟩ : HCopy), (⟨4, 3, 7#64, 0, 1, 0⟩ : HCopy)])], queues := [(26, [⟨4, 3, 2, 0, false, false, 0⟩])] } },
    3, ⟨0, 0, 500, ⟨0, 0, 0⟩, 0, false⟩, (⟨5, 3, 0#64, 0, 1, 0⟩ : HCopy), [(⟨4, 3, 7#64, 0, 1, 0⟩ : HCopy)], (⟨5, 3,
    0, (List.replicate 12 1#8 ++ [8#8, 0#8] ++ List.replicate 50 0#8), ⟨mkT96 5 100 0, false, false, false, 0⟩, true,
    none, none, false, 1, 0, 0, .herd, some
    ({ Looked.nothing (headsOf (List.replicate 12 1#8 ++ [8#8, 0#8] ++ List.replicate 50 0#8) 0) 1 2 0 0 none 0 false with herd := some ⟨0#64, 0, 0, false, false, 0, 0, 100, false⟩, fc := some 5 }),
    true, [], false, none⟩ : Frame),
    { Looked.nothing (headsOf (List.replicate 12 1#8 ++ [8#8, 0#8] ++ List.replicate 50 0#8) 0) 1 2 0 0 none 0 false with herd := some ⟨0#64, 0, 0, false, false, 0, 0, 100, false⟩, fc := some 5 },
    ⟨0#64, 0, 0, false, false, 0, 0, 100, false⟩,
    by decide +kernel⟩

theorem meets_HerdRelease_10 : ∃ (s : State) (p : Fin 24) (x : StampIn), s.inReset = false ∧ (∀ c ∈ (s.cal p).head?,
    (s.herdInfo c).isSome = true ∧ (fineLe (s.ideal p c.r) (fineOf (tickOf (s.txStamp p x).t)) = false ∨ s.lineFree p
    (s.txStamp p x) = false)) :=
  ⟨live, 3, ⟨0, 0, 0, ⟨0, 0, 0⟩, 0, false⟩,
    by decide +kernel⟩

theorem meets_HerdRelease_11 : ∃ (s : State), s.inReset = false :=
  ⟨live,
    by decide +kernel⟩

theorem meets_HoldoverModel_1 : ∃ (s : State), s.inReset = false ∧ s.runs .timescale = true :=
  ⟨live,
    by decide +kernel⟩

theorem meets_HoldoverModel_2 : ∃ (s : State), s.inReset = false ∧ s.runs .timescale = false :=
  ⟨{ live with gated := [.timescale] },
    by decide +kernel⟩

theorem meets_HoldoverModel_3 : ∃ (s : State), s.inReset = false ∧ s.g R.REF_STATUS F.REF_STATUS_STATE = 2 ∧ s.on
    R.TSC_CTRL F.TSC_CTRL_STEER = false ∧ s.on R.REF_STATUS F.REF_STATUS_GUARDING = false ∧ s.hld.broken = false ∧
    s.hld.epoch = true ∧ s.hld.renew = false ∧ s.hld.fitTick < s.tsc.tick :=
  ⟨{ { (live.p R.REF_STATUS F.REF_STATUS_STATE 2).setRegN R.HLD_AGE_S 2000 with hld := { live.hld with epoch := true } } with tsc := { live.tsc with tick := 500000000000, rateSum := 7000000000000 } },
    by decide +kernel⟩

theorem meets_HoldoverModel_4 : ∃ (s : State), s.inReset = false ∧ (s.g R.REF_STATUS F.REF_STATUS_STATE ≠ 2 ∨ s.on
    R.TSC_CTRL F.TSC_CTRL_STEER = true ∨ s.on R.REF_STATUS F.REF_STATUS_GUARDING = true ∨ s.hld.broken = true) :=
  ⟨{ live with hld := { live.hld with broken := true } },
    by decide +kernel⟩

theorem meets_HoldoverModel_5 : ∃ (s : State) (v : Word), s.accepts R.HLD_CTRL ∧ F.HLD_CTRL_CLEAR.get v = 0 :=
  ⟨live.setRegN R.HLD_PRE_A1 77, 7#32,
    by decide +kernel⟩

theorem meets_HoldoverModel_6 : ∃ (s : State) (v : Word), s.accepts R.HLD_CTRL ∧ F.HLD_CTRL_LOAD.get v = 0 :=
  ⟨live.setRegN R.HLD_A1 77, 7#32,
    by decide +kernel⟩

theorem meets_HoldoverModel_7 : ∃ (s : State) (v : Word), s.accepts R.HLD_TEMP_AXIS ∧ s.formWord R.HLD_TEMP_AXIS v ≠
    s.reg R.HLD_TEMP_AXIS :=
  ⟨live, 0x00070009#32,
    by decide +kernel⟩

theorem meets_HoldoverModel_8 : ∃ (s : State), s.inReset = false ∧ s.on R.HLD_STATUS F.HLD_STATUS_EPISODE_QUAL = true
    ∧ s.learned (s.binOf s.reading) = false ∧ s.hif.fq.length < 32 :=
  ⟨live.setRegN R.HLD_STATUS 0xffffffff,
    by decide +kernel⟩

theorem meets_EmberAndMainPower_1 : ∃ (s : State), s.inReset = false ∧ s.emberMaintained = true :=
  ⟨((live.p R.REF_STATUS F.REF_STATUS_COND 1).p R.HLD_EMB_CFG F.HLD_EMB_CFG_SYNC_EN 1).p R.HLD_EMB_CFG
    F.HLD_EMB_CFG_NO_XTAL 0,
    by decide +kernel⟩

theorem meets_EmberAndMainPower_2 : ∃ (s : State), s.inReset = false ∧ s.emberMaintained = true ∧ (2 * ((tNs s.now *
    65536 + tFrac s.now) * 32768) + 65536000000000) / (2 * 65536000000000) < 32768 :=
  ⟨{ ((live.p R.REF_STATUS F.REF_STATUS_COND 1).p R.HLD_EMB_CFG F.HLD_EMB_CFG_SYNC_EN 1).p R.HLD_EMB_CFG F.HLD_EMB_CFG_NO_XTAL 0 with tsc := { live.tsc with voted := mkCopy 12345 (400000000 * 2^48) (2^49) } },
    by decide +kernel⟩

theorem meets_EmberAndMainPower_3 : ∃ (s : State) (v : Word), s.accepts R.HLD_EMB_CTRL ∧ s.emberMaintained = true ∧
    F.HLD_EMB_CTRL_INVALIDATE.get v = 0 :=
  ⟨((live.p R.REF_STATUS F.REF_STATUS_COND 1).p R.HLD_EMB_CFG F.HLD_EMB_CFG_SYNC_EN 1).p R.HLD_EMB_CFG
    F.HLD_EMB_CFG_NO_XTAL 0, 0#32,
    by decide +kernel⟩

theorem meets_EmberAndMainPower_4 : ∃ (s : State) (v : Word), s.accepts R.HLD_EMB_CTRL ∧ F.HLD_EMB_CTRL_RESYNC.get v
    = 0 :=
  ⟨live.p R.HLD_EMB_STATUS F.HLD_EMB_STATUS_VALID 1, 0#32,
    by decide +kernel⟩

theorem meets_EmberAndMainPower_5 : ∃ (s : State), s.boot.power = false :=
  ⟨{ live with boot := { live.boot with power := false, railBad := true } },
    by decide +kernel⟩

theorem meets_EmberAndMainPower_6 : ∃ (s : State), s.boot.power = false :=
  ⟨{ (live.setRegN R.HLD_EMB_TIME_LO 99) with boot := { live.boot with power := false, railBad := true } },
    by decide +kernel⟩

theorem meets_EmberAndMainPower_7 : ∃ (s : State), s.inReset = false ∧ s.on R.HLD_STATUS F.HLD_STATUS_EPISODE_QUAL =
    true ∧ s.g R.HLD_QUAL_HOLD F.HLD_QUAL_HOLD_HOLD_S < (s.reg R.HLD_ELAPSED).toNat ∧ s.hif.fq.length < 32 :=
  ⟨(live.setRegN R.HLD_STATUS 0xffffffff).setRegN R.HLD_ELAPSED 0xffffffff,
    by decide +kernel⟩

theorem meets_EmberAndMainPower_8 : ∃ (s : State), s.inReset = false ∧ s.on R.HLD_EMB_CFG F.HLD_EMB_CFG_NO_XTAL =
    false ∧ s.hif.fq.length < 32 :=
  ⟨((live.p R.REF_STATUS F.REF_STATUS_COND 1).p R.HLD_EMB_CFG F.HLD_EMB_CFG_SYNC_EN 1).p R.HLD_EMB_CFG
    F.HLD_EMB_CFG_NO_XTAL 0,
    by decide +kernel⟩

theorem meets_EmberAndMainPower_9 : ∃ (s : State), s.inReset = false ∧ s.bootState = bootSeed ∧ s.runs .timescale =
    true ∧ s.on R.HLD_EMB_STATUS F.HLD_EMB_STATUS_VALID = true ∧ s.on R.HLD_EMB_CFG F.HLD_EMB_CFG_NO_XTAL = false ∧
    s.tsc.due = [] :=
  ⟨((((live.p R.REF_STATUS F.REF_STATUS_COND 1).p R.HLD_EMB_CFG F.HLD_EMB_CFG_SYNC_EN 1).p R.HLD_EMB_CFG
    F.HLD_EMB_CFG_NO_XTAL 0).p R.HLD_EMB_STATUS F.HLD_EMB_STATUS_VALID 1).p R.BOOT_STATUS F.BOOT_STATUS_STATE 6,
    by decide +kernel⟩

theorem meets_EmberAndMainPower_10 : ∃ (s : State), s.boot.power = true :=
  ⟨live.setRegN R.HLD_EMB_TIME_LO 99,
    by decide +kernel⟩

theorem meets_EmberAndMainPower_11 : ∃ (s : State), s.boot.power = false :=
  ⟨{ live with boot := { live.boot with power := false, railBad := true } },
    by decide +kernel⟩

theorem meets_NarrowWriteDiscarded_1 : ∃ (s : State) (addr : Nat) (whole : Bool), s.inReset = false ∧ (whole = false
    ∨ addr % 4 ≠ 0) :=
  ⟨live, 0x48, false,
    by decide +kernel⟩

theorem meets_ReadsOverF0AndF1_1 : ∃ (s : State) (a : Nat), s.reaches .f0 a ∧ a % 4 = 0 ∧ mapped a = true ∧ clearBits
    a ≠ 0 ∧ holds a .rl = false ∧ sharedReg a = false :=
  ⟨live, R.HIF_ACCESS_FAULT,
    by decide +kernel⟩

theorem meets_ReadsOverF0AndF1_2 : ∃ (s : State) (a : Nat), s.reaches .f0 a ∧ a % 4 = 0 ∧ mapped a = true ∧ clearBits
    a = 0 ∧ holds a .rl = true ∧ a ≠ R.TSC_NOW_T0 :=
  ⟨live, R.TSC_NOW_TICK_LO,
    by decide +kernel⟩

theorem meets_ReadsOverF0AndF1_3 : ∃ (s : State), s.reaches .f0 R.TSC_NOW_T0 :=
  ⟨live,
    by decide +kernel⟩

theorem meets_ReadsOverF0AndF1_4 : ∃ (s : State) (addr : Nat), s.reaches .f0 addr ∧ addr % 4 = 0 ∧ mapped addr =
    false :=
  ⟨live, 0x5FF00,
    by decide +kernel⟩

theorem meets_ReadsOverF0AndF1_5 : ∃ (s : State) (addr : Nat), s.reaches .f0 addr ∧ addr % 4 = 0 ∧ mapped addr =
    false :=
  ⟨live, 0x5FF00,
    by decide +kernel⟩

theorem meets_HostWrites_1 : ∃ (s : State) (a : Nat), s.accepts a ∧ ownWord a = true :=
  ⟨live, R.HRD_NODE_ID,
    by decide +kernel⟩

theorem meets_HostWrites_2 : ∃ (s : State) (a : Nat), s.accepts a ∧ ownWord a = true ∧ sharedReg a = false ∧
    ((0x10000 ≤ a ∧ a < 0x20000 ∧ a ≠ R.BOOT_CMD ∧ a ≠ R.BOOT_FLASH_CTRL) ∨ (0x40000 ≤ a ∧ a < 0x40100 ∧ a ≠
    R.SYN_UPDATE) ∨ (0x280000 ≤ a ∧ a < 0x300000 ∧ inArray a (R.HRD_PORTn_CFG 0) 0x10 25 = false) ∨ (0x3C0000 ≤ a ∧ a
    < 0x3E0000 ∧ a ≠ R.GUY_CTRL ∧ a ≠ R.RUT_CTRL ∧ a ≠ R.RUT_CMD)) :=
  ⟨live, R.HRD_NODE_ID,
    by decide +kernel⟩

theorem meets_HostWrites_3 : ∃ (s : State) (a : Nat), s.accepts a ∧ holds a .w1 = true :=
  ⟨live, R.HIF_LOCK,
    by decide +kernel⟩

theorem meets_HostWrites_4 : ∃ (s : State), s.accepts R.HIF_LOCK :=
  ⟨live,
    by decide +kernel⟩

theorem meets_HostWrites_5 : ∃ (s : State) (a : Nat), s.reaches .f0 a ∧ holds a .w1 = true ∧ s.whyIgnored .f0 a =
    some 0 ∧ s.writeTriggers .f0 a = false :=
  ⟨{ live with w1done := [R.HIF_LOCK] }, R.HIF_LOCK,
    by decide +kernel⟩

theorem meets_HostWrites_6 : ∃ (s : State) (a : Nat), s.accepts a ∧ isPairLo a = true :=
  ⟨live, R.HLD_PRE_F_LO,
    by decide +kernel⟩

theorem meets_HostWrites_7 : ∃ (s : State) (lo : Nat), s.accepts (lo + 4) ∧ isPairLo lo = true :=
  ⟨{ live with wshadow := [(R.HLD_PRE_F_LO, some 5#32)] }, R.HLD_PRE_F_LO,
    by decide +kernel⟩

theorem meets_HostWrites_8 : ∃ (s : State) (lo : Nat), s.accepts (lo + 4) ∧ (lo = R.TSC_STEP_LO ∨ lo = R.HLD_PRE_F_LO
    ∨ lo = R.SPR_FETCH_IDX_LO ∨ inArray lo (R.PTP_Pn_MASTER_LO 0) 0x40 24 = true ∨ inArray lo (R.TDC_Mm_LIM_MIN_LO 0)
    0x80 4 = true ∨ inArray lo (R.TDC_Mm_LIM_MAX_LO 0) 0x80 4 = true ∨ ∃ k : Fin 3, lo = R.HIF_DMAk_BASE_LO k ∨ lo =
    R.HIF_DMAk_WB_LO k) :=
  ⟨{ live with wshadow := [(R.HLD_PRE_F_LO, some 5#32)] }, R.HLD_PRE_F_LO,
    by decide +kernel⟩

theorem meets_HostWrites_9 : ∃ (s : State) (a : Nat), s.inReset = false ∧ s.runs .register = true ∧
    s.hif.dead.contains .register = false ∧ s.hif.held.any (fun y => decide (y.src = .f1)) = false ∧ a < 0x8000 :=
  ⟨live, 0x10,
    by decide +kernel⟩

theorem meets_HostWrites_10 : ∃ (s : State) (a : Nat), s.inReset = false ∧ s.runs .register = true ∧
    s.hif.dead.contains .register = false ∧ s.hif.held.any (fun y => decide (y.src = .f1)) = false ∧ 0x8000 ≤ a ∧ a <
    0x8100 :=
  ⟨live, 0x8010,
    by decide +kernel⟩

theorem meets_HostWrites_11 : ∃ (s : State) (a : Nat), s.inReset = false ∧ s.runs .register = true ∧
    s.hif.dead.contains .register = false ∧ s.hif.held.any (fun y => decide (y.src = .f1)) = false ∧ 0x8100 ≤ a :=
  ⟨live, 0x8100,
    by decide +kernel⟩

theorem meets_HostWrites_12 : ∃ (s : State) (a : Nat), s.inReset = false ∧ a % 4 = 0 :=
  ⟨live, R.HIF_LOCK - 4,
    by decide +kernel⟩

theorem meets_HostWrites_13 : ∃ (s : State) (len : Nat), s.inReset = false ∧ len ≤ 512 :=
  ⟨live, 9,
    by decide +kernel⟩

theorem meets_ConfigurationScan_1 : ∃ (s : State), s.accepts R.HIF_CFG_CRC_COMMIT :=
  ⟨live,
    by decide +kernel⟩

theorem meets_ConfigurationScan_2 : ∃ (s : State), s.accepts R.HIF_CFG_CRC_COMMIT :=
  ⟨live,
    by decide +kernel⟩

theorem meets_ConfigurationScan_3 : ∃ (s : State) (l : List (Nat × Word)), s.inReset = false ∧ (s.upset l).scanState
    = 1 :=
  ⟨live.p R.HIF_CFG_CRC_STATUS F.HIF_CFG_CRC_STATUS_STATE 1, [],
    by decide +kernel⟩

theorem meets_RingCommands_1 : ∃ (s : State) (f : FaultRec) (l : List FaultRec), s.accepts R.HIF_FQ_POP ∧ s.hif.fq =
    f :: l :=
  ⟨{ live with hif := { live.hif with fq := [⟨0, 1, 0, 0, 0⟩] } }, ⟨0, 1, 0, 0, 0⟩, [],
    by decide +kernel⟩

theorem meets_RingCommands_2 : ∃ (s : State) (k : Fin 3), s.accepts (R.HIF_DMAk_CTRL k) ∧ s.g (R.HIF_DMAk_CTRL k)
    F.HIF_DMAk_CTRL_ENABLE = 0 :=
  ⟨live, 1,
    by decide +kernel⟩

theorem meets_RingCommands_3 : ∃ (s : State) (k : Fin 3), s.accepts (R.HIF_DMAk_TAIL k) :=
  ⟨live, 1,
    by decide +kernel⟩

theorem meets_RingCommands_4 : ∃ (s : State) (k : Fin 3), s.inReset = false ∧ s.g (R.HIF_DMAk_STATUS k)
    F.HIF_DMAk_STATUS_RUNNING = 1 :=
  ⟨live.p (R.HIF_DMAk_STATUS 2) F.HIF_DMAk_STATUS_RUNNING 1, 2,
    by decide +kernel⟩

theorem meets_RingCommands_5 : ∃ (s : State) (k : Fin 3), s.inReset = false ∧ k.val ∈ s.hif.waitMsg ∧
    s.hif.fn0.msixEn = true ∧ s.hif.fn0.d3hot = false ∧ s.hif.fn0.msixMask = false ∧ bit (s.reg (0x800C + 16 * (19 +
    k.val))) 0 = false :=
  ⟨{ live.setReg (0x800C + 16 * 20) 0 with hif := { live.hif with waitMsg := [1] } }, 1,
    by decide +kernel⟩

theorem meets_RingCommands_6 : ∃ (s : State) (c : Content) (l : List Content), s.inReset = false ∧ s.posted 0 ≠ 0 ∧
    s.ready 0 = c :: l ∧ c.st < 2 ^ 16 :=
  ⟨{ (((live.p (R.HIF_DMAk_CTRL 0) F.HIF_DMAk_CTRL_ENABLE 1).p (R.HIF_DMAk_STATUS 0) F.HIF_DMAk_STATUS_RUNNING 1).p (R.HIF_DMAk_TAIL 0) F.HIF_DMAk_TAIL_TAIL 2) with hif := { live.hif with ready := [(0, [⟨[1#8], 0, []⟩])] } },
    ⟨[1#8], 0, []⟩, [],
    by decide +kernel⟩

theorem meets_RingCommands_7 : ∃ (s : State) (desc : List Byte) (c : Content) (l : List Content), s.inReset = false ∧
    s.posted 1 ≠ 0 ∧ s.ready 1 = c :: l ∧ descIllegal 1 (descBuf desc) (descLen desc) = false ∧ c.bytes.length ≤
    descLen desc :=
  ⟨{ (((live.p (R.HIF_DMAk_CTRL 1) F.HIF_DMAk_CTRL_ENABLE 1).p (R.HIF_DMAk_STATUS 1) F.HIF_DMAk_STATUS_RUNNING 1).p (R.HIF_DMAk_TAIL 1) F.HIF_DMAk_TAIL_TAIL 2) with hif := { live.hif with ready := [(1, [⟨[1#8], 0, []⟩])] } },
    leBytes 8 0x1000 ++ leBytes 2 256 ++ leBytes 2 0, ⟨[1#8], 0, []⟩, [],
    by decide +kernel⟩

theorem meets_RingCommands_8 : ∃ (s : State) (c : Content) (l : List Content), s.inReset = false ∧ s.posted 2 ≠ 0 ∧
    s.ready 2 = c :: l :=
  ⟨{ (((live.p (R.HIF_DMAk_CTRL 2) F.HIF_DMAk_CTRL_ENABLE 1).p (R.HIF_DMAk_STATUS 2) F.HIF_DMAk_STATUS_RUNNING 1).p (R.HIF_DMAk_TAIL 2) F.HIF_DMAk_TAIL_TAIL 2) with hif := { live.hif with ready := [(2, [⟨[1#8], 0, leBytes 8 0x1000 ++ leBytes 2 4096 ++ leBytes 2 0⟩])] } },
    ⟨[1#8], 0, leBytes 8 0x1000 ++ leBytes 2 4096 ++ leBytes 2 0⟩, [],
    by decide +kernel⟩

theorem meets_CrossingsAndTimeouts_1 : ∃ (s : State) (x : Access), s.inReset = false ∧ x.src ≠ .boot ∧ s.hif.held =
    [x] ∧ s.hif.flow = [] ∧ x.write = false :=
  ⟨{ live with hif := { live.hif with held := [⟨.f0, R.TSC_STATUS, false, 0#32, 0, 4⟩] }, gated := [.timescale] },
    ⟨.f0, R.TSC_STATUS, false, 0#32, 0, 4⟩,
    by decide +kernel⟩

theorem meets_CrossingsAndTimeouts_2 : ∃ (s : State) (x : Access), s.inReset = false ∧ x.src ≠ .boot ∧ s.hif.held =
    [x] ∧ s.hif.flow = [] ∧ x.write = true :=
  ⟨{ live with hif := { live.hif with held := [⟨.f0, R.TSC_CTRL, true, 0#32, 0, 4⟩] }, gated := [.timescale] }, ⟨.f0,
    R.TSC_CTRL, true, 0#32, 0, 4⟩,
    by decide +kernel⟩

theorem meets_CrossingsAndTimeouts_3 : ∃ (s : State) (x : Access), s.inReset = false ∧ x.src ≠ .boot ∧ s.firstHeld
    x.src = some x ∧ s.hif.flow = [] ∧ (s.hif.held.filter (fun y => decide (y.src = .f0) && y.write)).length < 16 ∧
    (∀ y ∈ s.hif.held.erase x, s.runs (accessDom y.src y.addr) = false ∧ s.hif.dead.contains (accessDom y.src y.addr)
    = false ∧ (y.write = true → y.src ≠ .f1) ∧ accessDom y.src y.addr ≠ accessDom x.src x.addr) ∧ x.write = false :=
  ⟨{ live with hif := { live.hif with held := [⟨.i2c, R.QUE_STATUS, false, 0#32, 0, 4⟩, ⟨.f0, R.TSC_STATUS, false, 0#32, 0, 4⟩] }, gated := [.timescale, .core] },
    ⟨.f0, R.TSC_STATUS, false, 0#32, 0, 4⟩,
    by decide +kernel⟩

theorem meets_CrossingsAndTimeouts_4 : ∃ (s : State) (x : Access), s.inReset = false ∧ x.src ≠ .boot ∧ s.firstHeld
    x.src = some x ∧ s.hif.flow = [] ∧ (s.hif.held.filter (fun y => decide (y.src = .f0) && y.write)).length < 16 ∧
    (∀ y ∈ s.hif.held.erase x, s.runs (accessDom y.src y.addr) = false ∧ s.hif.dead.contains (accessDom y.src y.addr)
    = false ∧ (y.write = true → y.src ≠ .f1) ∧ accessDom y.src y.addr ≠ accessDom x.src x.addr) ∧ x.write = true :=
  ⟨{ live with hif := { live.hif with held := [⟨.i2c, R.QUE_STATUS, false, 0#32, 0, 4⟩, ⟨.f0, R.TSC_STATUS, true, 0#32, 0, 4⟩] }, gated := [.timescale, .core] },
    ⟨.f0, R.TSC_STATUS, true, 0#32, 0, 4⟩,
    by decide +kernel⟩

theorem meets_CrossingsAndTimeouts_5 : ∃ (s : State) (x : Access), s.inReset = false ∧ x.src ≠ .boot ∧ s.firstHeld
    x.src = some x :=
  ⟨{ live with hif := { live.hif with held := [⟨.i2c, R.QUE_STATUS, false, 0#32, 0, 4⟩, ⟨.f0, R.TSC_STATUS, true, 0#32, 0, 4⟩] }, gated := [.timescale, .core] },
    ⟨.f0, R.TSC_STATUS, true, 0#32, 0, 4⟩,
    by decide +kernel⟩

theorem meets_CrossingsAndTimeouts_6 : ∃ (s : State) (src : Src), s.inReset = false ∧ (src = .boot ∨ s.firstHeld src
    = none) :=
  ⟨live, .boot,
    by decide +kernel⟩

theorem meets_CrossingsAndTimeouts_7 : ∃ (s : State) (d : Dom), s.inReset = false ∧ s.hif.held = [] ∧ s.hif.flow = []
    ∧ s.runs d = true ∧ d ∈ s.hif.dead :=
  ⟨{ live with hif := { live.hif with dead := [.timescale] } }, .timescale,
    by decide +kernel⟩

theorem meets_CrossingsAndTimeouts_8 : ∃ (s : State) (d : Dom), s.inReset = false ∧ s.runs d = true ∧ d ∈ s.hif.dead
    :=
  ⟨{ live with hif := { live.hif with dead := [.timescale], held := [⟨.f0, R.TSC_STATUS, false, 0#32, 0, 4⟩] } },
    .timescale,
    by decide +kernel⟩

theorem meets_CrossingsAndTimeouts_9 : ∃ (s : State), s.inReset = false ∧ s.hif.held = [] ∧ s.hif.flow = [] :=
  ⟨live,
    by decide +kernel⟩

theorem meets_CrossingsAndTimeouts_10 : ∃ (s : State) (b : Fin 18) (x : Access), s.inReset = false ∧ s.hif.held = [x]
    ∧ x.block = b ∧ s.hif.flow = [] :=
  ⟨{ live with hif := { live.hif with held := [⟨.f0, R.TSC_STATUS, false, 0#32, 0, 4⟩] } }, 2, ⟨.f0, R.TSC_STATUS,
    false, 0#32, 0, 4⟩,
    by decide +kernel⟩

theorem meets_CrossingsAndTimeouts_11 : ∃ (s : State) (b : Fin 18), s.inReset = false ∧ (∀ x ∈ s.hif.held, x.block ≠
    b) ∧ s.hif.flow = [] ∧ (s.hif.held.filter (fun y => decide (y.src = .f0) && y.write)).length < 16 ∧ (∀ y ∈
    s.hif.held, s.runs (accessDom y.src y.addr) = false ∧ s.hif.dead.contains (accessDom y.src y.addr) = false ∧
    (y.write = true → y.src ≠ .f1)) :=
  ⟨{ live with hif := { live.hif with held := [⟨.i2c, R.QUE_STATUS, false, 0#32, 0, 4⟩, ⟨.f0, R.TSC_STATUS, true, 0#32, 0, 4⟩] }, gated := [.timescale, .core] },
    8,
    by decide +kernel⟩

theorem meets_CrossingsAndTimeouts_12 : ∃ (s : State), s.inReset = false :=
  ⟨{ live with hif := { live.hif with held := [⟨.i2c, R.QUE_STATUS, false, 0#32, 0, 4⟩, ⟨.f0, R.TSC_STATUS, true, 0#32, 0, 4⟩] }, gated := [.timescale, .core] },
    by decide +kernel⟩

theorem meets_CrossingsAndTimeouts_13 : ∃ (s : State) (d : Dom), s.inReset = false ∧ (s.runs d = false ∨ d ∉
    s.hif.dead) :=
  ⟨{ live with gated := [.core] }, .core,
    by decide +kernel⟩

theorem meets_CrossingsAndTimeouts_14 : ∃ (s : State), s.inReset = false :=
  ⟨live.setRegN 0x8000 5,
    by decide +kernel⟩

theorem meets_CrossingsAndTimeouts_15 : ∃ (s : State), s.inReset = false :=
  ⟨live.setRegN 0x8000 5,
    by decide +kernel⟩

theorem meets_CrossingsAndTimeouts_16 : ∃ (s : State), s.inReset = false :=
  ⟨((live.setRegN R.HIF_IRQ_EN 5).setRegN (R.HIF_DMAk_CTRL 1) 3),
    by decide +kernel⟩

theorem meets_CrossingsAndTimeouts_17 : ∃ (s : State), s.inReset = false :=
  ⟨live,
    by decide +kernel⟩

theorem meets_BoardController_1 : ∃ (s : State) (dev : BitVec 7), s.inReset = false ∧ dev.toNat = 0x58 +
    s.hif.i2cStrap :=
  ⟨live, 0x58#7,
    by decide +kernel⟩

theorem meets_BoardController_2 : ∃ (s : State) (dev : BitVec 7), s.inReset = false ∧ dev.toNat ≠ 0x58 +
    s.hif.i2cStrap :=
  ⟨live, 0x57#7,
    by decide +kernel⟩

theorem meets_BoardController_3 : ∃ (s : State) (dev : BitVec 7) (a : Nat), s.reaches .i2c a ∧ dev.toNat = 0x58 +
    s.hif.i2cStrap ∧ s.hif.i2cAddr = a ∧ a % 4 = 0 ∧ a < 2 ^ 24 - 4 ∧ i2cReads a = true :=
  ⟨{ live with hif := { live.hif with i2cAddr := 0x70 } }, 0x58#7, 0x70,
    by decide +kernel⟩

theorem meets_BoardController_4 : ∃ (s : State), s.inReset = false :=
  ⟨live,
    by decide +kernel⟩

theorem meets_GuylineLink_1 : ∃ (s : State), s.accepts R.GUY_CTRL ∧ s.guyState = guyDown :=
  ⟨live,
    by decide +kernel⟩

theorem meets_GuylineLink_2 : ∃ (s : State), s.accepts R.GUY_CTRL ∧ s.guyState = guyUpState ∧ s.hbOk = false :=
  ⟨(live.p R.GUY_STATUS F.GUY_STATUS_STATE 3),
    by decide +kernel⟩

theorem meets_GuylineLink_3 : ∃ (s : State), s.inReset = false ∧ s.guyState = guyAlign :=
  ⟨(((live.p R.GUY_STATUS F.GUY_STATUS_BLOCK_LOCK 15).p R.GUY_STATUS F.GUY_STATUS_LOL 0 |>.p R.GUY_STATUS
    F.GUY_STATUS_LOS 0).p R.GUY_STATUS F.GUY_STATUS_STATE 2),
    by decide +kernel⟩

theorem meets_GuylineLink_4 : ∃ (s : State), s.inReset = false ∧ s.guyState = guyUpState ∧ s.hbOk = false :=
  ⟨(((live.p R.GUY_STATUS F.GUY_STATUS_BLOCK_LOCK 15).p R.GUY_STATUS F.GUY_STATUS_LOL 0 |>.p R.GUY_STATUS
    F.GUY_STATUS_LOS 0).p R.GUY_STATUS F.GUY_STATUS_STATE 3),
    by decide +kernel⟩

theorem meets_GuylineLink_5 : ∃ (s : State) (l : Fin 4) (b : Bool), s.inReset = false ∧ s.guyState = guyDown ∧ (b =
    true ∨ s.syn.lanes.contains (24 + l.val) = true) :=
  ⟨live, 1, true,
    by decide +kernel⟩

theorem meets_GuylineLink_6 : ∃ (s : State) (l : Fin 4), s.inReset = false ∧ s.guyState = guyDown ∧ maskBit (s.g
    R.GUY_STATUS F.GUY_STATUS_LOS) l = false ∧ maskBit (s.g R.GUY_STATUS F.GUY_STATUS_LOL) l = false :=
  ⟨((live.p R.GUY_STATUS F.GUY_STATUS_BLOCK_LOCK 0).p R.GUY_STATUS F.GUY_STATUS_LOL 0 |>.p R.GUY_STATUS
    F.GUY_STATUS_LOS 0), 2,
    by decide +kernel⟩

theorem meets_GuylineLink_7 : ∃ (s : State) (l : Fin 4), s.inReset = false ∧ s.guyState = guyDown ∧ maskBit (s.g
    R.GUY_STATUS F.GUY_STATUS_LOS) l = false ∧ maskBit (s.g R.GUY_STATUS F.GUY_STATUS_LOL) l = false ∧ s.on
    R.GUY_CTRL F.GUY_CTRL_POL_AUTO = true :=
  ⟨((live.p R.GUY_STATUS F.GUY_STATUS_BLOCK_LOCK 15).p R.GUY_STATUS F.GUY_STATUS_LOL 0 |>.p R.GUY_STATUS
    F.GUY_STATUS_LOS 0).p R.GUY_CTRL F.GUY_CTRL_POL_AUTO 1, 2,
    by decide +kernel⟩

theorem meets_GuylineLink_8 : ∃ (s : State) (l : List (BitVec 70 × Nat)), s.inReset = false ∧ s.lanesGood = true ∧
    s.guyState = guyAlign ∧ l.length = 4 ∧ markersAlign s.rut.pairId l = true :=
  ⟨(((live.p R.GUY_STATUS F.GUY_STATUS_BLOCK_LOCK 15).p R.GUY_STATUS F.GUY_STATUS_LOL 0 |>.p R.GUY_STATUS
    F.GUY_STATUS_LOS 0).p R.GUY_STATUS F.GUY_STATUS_STATE 2), [(marker 1 9 0 5, 100), (marker 0 9 0 5, 101), (marker
    2 9 0 5, 102), (marker 3 9 0 5, 110)],
    by decide +kernel⟩

theorem meets_GuylineLink_9 : ∃ (s : State) (l : List (BitVec 70 × Nat)), s.inReset = false ∧ s.lanesGood = true ∧
    l.length = 4 ∧ markersAlign s.rut.pairId l = false ∧ s.guyState = guyUpState ∧ s.hbOk = false :=
  ⟨(((live.p R.GUY_STATUS F.GUY_STATUS_BLOCK_LOCK 15).p R.GUY_STATUS F.GUY_STATUS_LOL 0 |>.p R.GUY_STATUS
    F.GUY_STATUS_LOS 0).p R.GUY_STATUS F.GUY_STATUS_STATE 3), [(marker 1 9 0 5, 100), (marker 0 9 0 5, 101), (marker
    2 9 0 5, 102), (marker 3 9 0 5, 300)],
    by decide +kernel⟩

theorem meets_GuylineLink_10 : ∃ (s : State), s.inReset = false ∧ s.guyState = guyAlign :=
  ⟨(live.p R.GUY_STATUS F.GUY_STATUS_STATE 2),
    by decide +kernel⟩

theorem meets_GuylineLink_11 : ∃ (s : State), s.inReset = false :=
  ⟨((((live.p R.GUY_STATUS F.GUY_STATUS_BLOCK_LOCK 15).p R.GUY_STATUS F.GUY_STATUS_LOL 0 |>.p R.GUY_STATUS
    F.GUY_STATUS_LOS 0).p R.RUT_STATUS F.RUT_STATUS_STATE 2 |>.p R.RUT_STATUS F.RUT_STATUS_HB_OK 1).p R.GUY_STATUS
    F.GUY_STATUS_STATE 3),
    by decide +kernel⟩

theorem meets_GuylineLink_12 : ∃ (s : State) (l : Fin 4) (b : Bool), s.inReset = false ∧ (b = true ∨
    s.syn.lanes.contains (24 + l.val) = true) :=
  ⟨((((live.p R.GUY_STATUS F.GUY_STATUS_BLOCK_LOCK 15).p R.GUY_STATUS F.GUY_STATUS_LOL 0 |>.p R.GUY_STATUS
    F.GUY_STATUS_LOS 0).p R.RUT_STATUS F.RUT_STATUS_STATE 2 |>.p R.RUT_STATUS F.RUT_STATUS_HB_OK 1).p R.GUY_STATUS
    F.GUY_STATUS_STATE 3), 1, true,
    by decide +kernel⟩

theorem meets_GuylineLink_13 : ∃ (s : State), s.inReset = false :=
  ⟨((((live.p R.GUY_STATUS F.GUY_STATUS_BLOCK_LOCK 15).p R.GUY_STATUS F.GUY_STATUS_LOL 0 |>.p R.GUY_STATUS
    F.GUY_STATUS_LOS 0).p R.RUT_STATUS F.RUT_STATUS_STATE 2 |>.p R.RUT_STATUS F.RUT_STATUS_HB_OK 1).p R.GUY_STATUS
    F.GUY_STATUS_STATE 3),
    by decide +kernel⟩

theorem meets_GuylineLink_14 : ∃ (s : State) (l : Fin 4), s.inReset = false ∧ maskBit (s.g R.GUY_STATUS
    F.GUY_STATUS_LOS) l = false ∧ maskBit (s.g R.GUY_STATUS F.GUY_STATUS_LOL) l = false :=
  ⟨(((live.p R.GUY_STATUS F.GUY_STATUS_BLOCK_LOCK 11).p R.GUY_STATUS F.GUY_STATUS_LOL 0 |>.p R.GUY_STATUS
    F.GUY_STATUS_LOS 0).p R.GUY_STATUS F.GUY_STATUS_STATE 1), 2,
    by decide +kernel⟩

theorem meets_GuylineLink_15 : ∃ (s : State), s.accepts R.GUY_CTRL :=
  ⟨((((live.p R.GUY_STATUS F.GUY_STATUS_BLOCK_LOCK 15).p R.GUY_STATUS F.GUY_STATUS_LOL 0 |>.p R.GUY_STATUS
    F.GUY_STATUS_LOS 0).p R.RUT_STATUS F.RUT_STATUS_STATE 2 |>.p R.RUT_STATUS F.RUT_STATUS_HB_OK 1).p R.GUY_STATUS
    F.GUY_STATUS_STATE 3),
    by decide +kernel⟩

theorem meets_GuylineLink_16 : ∃ (s : State) (l : List (BitVec 70 × Nat)), s.inReset = false ∧ s.lanesGood = true ∧
    s.guyState = guyUpState ∧ l.length = 4 ∧ markersAlign s.rut.pairId l = false :=
  ⟨((((live.p R.GUY_STATUS F.GUY_STATUS_BLOCK_LOCK 15).p R.GUY_STATUS F.GUY_STATUS_LOL 0 |>.p R.GUY_STATUS
    F.GUY_STATUS_LOS 0).p R.RUT_STATUS F.RUT_STATUS_STATE 2 |>.p R.RUT_STATUS F.RUT_STATUS_HB_OK 1).p R.GUY_STATUS
    F.GUY_STATUS_STATE 3), [(marker 1 9 0 5, 100), (marker 0 9 0 5, 101), (marker 2 9 0 5, 102), (marker 3 9 0 5,
    300)],
    by decide +kernel⟩

theorem meets_GuylineLink_17 : ∃ (s : State) (l : List (BitVec 70 × Nat)), s.inReset = false ∧ s.lanesGood = true ∧
    s.guyState = guyUpState ∧ l.length = 4 ∧ markersAlign s.rut.pairId l = true :=
  ⟨(((live.p R.GUY_STATUS F.GUY_STATUS_BLOCK_LOCK 15).p R.GUY_STATUS F.GUY_STATUS_LOL 0 |>.p R.GUY_STATUS
    F.GUY_STATUS_LOS 0).p R.GUY_STATUS F.GUY_STATUS_STATE 3), [(marker 1 9 0 5, 100), (marker 0 9 0 5, 101), (marker
    2 9 0 5, 102), (marker 3 9 0 5, 110)],
    by decide +kernel⟩

theorem meets_GuylineMessages_1 : ∃ (s : State), s.inReset = false ∧ s.running = true ∧ s.guyUp = true ∧ s.pairState
    ≠ pairSolo :=
  ⟨((live.p R.GUY_STATUS F.GUY_STATUS_STATE 3).p R.RUT_STATUS F.RUT_STATUS_STATE 2),
    by decide +kernel⟩

theorem meets_GuylineMessages_2 : ∃ (s : State), s.inReset = false ∧ s.running = true ∧ s.guyUp = true ∧ s.pairState
    ≠ pairSolo :=
  ⟨((live.p R.GUY_STATUS F.GUY_STATUS_STATE 3).p R.RUT_STATUS F.RUT_STATUS_STATE 2),
    by decide +kernel⟩

theorem meets_GuylineMessages_3 : ∃ (s : State), s.inReset = false ∧ s.running = true ∧ s.guyUp = true ∧ s.on
    R.GUY_CTRL F.GUY_CTRL_TIME_EN = true ∧ s.guy.last = none :=
  ⟨((live.p R.GUY_STATUS F.GUY_STATUS_STATE 3)).p R.GUY_CTRL F.GUY_CTRL_TIME_EN 1,
    by decide +kernel⟩

theorem meets_GuylineMessages_4 : ∃ (s : State) (r : Stamp) (q : Nat) (k : Nat), s.inReset = false ∧ s.running = true
    ∧ s.guyUp = true ∧ s.on R.GUY_CTRL F.GUY_CTRL_TIME_EN = true ∧ s.guy.last = some (r, q, k) :=
  ⟨{ ((live.p R.GUY_STATUS F.GUY_STATUS_STATE 3)).p R.GUY_CTRL F.GUY_CTRL_TIME_EN 1 with guy := { live.guy with last := some (⟨mkT96 5 100 0, true, false, false, 0⟩, 7, 0) } },
    ⟨mkT96 5 100 0, true, false, false, 0⟩, 7, 0,
    by decide +kernel⟩

theorem meets_GuylineMessages_5 : ∃ (s : State) (m : List Byte) (p : List Byte) (q : Nat), s.inReset = false ∧
    s.guyUp = true ∧ guyPayload 3 m = some (q, p) ∧ s.guy.sent.find? (fun e => e.1 == beAt p 18 4) = none :=
  ⟨(live.p R.GUY_STATUS F.GUY_STATUS_STATE 3), (guyMessage 3 9 (beBytes 8 0 ++ beBytes 8 0 ++ beBytes 1 0x45 ++
    beBytes 1 0x20 ++ beBytes 4 7 ++ beBytes 1 0 ++ beBytes 1 0)), (beBytes 8 0 ++ beBytes 8 0 ++ beBytes 1 0x45 ++
    beBytes 1 0x20 ++ beBytes 4 7 ++ beBytes 1 0 ++ beBytes 1 0), 9,
    by decide +kernel⟩

theorem meets_GuylineMessages_6 : ∃ (s : State) (m : List Byte) (p : List Byte) (q : Nat) (x : StampIn) (y : Stamp),
    s.inReset = false ∧ s.guyUp = true ∧ guyPayload 3 m = some (q, p) ∧ s.guy.sent.find? (fun e => e.1 == beAt p 18
    4) = some (beAt p 18 4, y, s.tsc.breaks) ∧ beAt p 22 1 % 16 = 0 ∧ (s.guyStamp false x).coarse = false ∧ y.coarse
    = false :=
  ⟨{ (live.p R.GUY_STATUS F.GUY_STATUS_STATE 3) with guy := { live.guy with rxState := 2, sent := [(7, ⟨mkT96 5 100 0, false, false, false, 0⟩, live.tsc.breaks)] } },
    (guyMessage 3 9 (beBytes 8 0 ++ beBytes 8 0 ++ beBytes 1 0x45 ++ beBytes 1 0x20 ++ beBytes 4 7 ++ beBytes 1 0 ++
    beBytes 1 0)), (beBytes 8 0 ++ beBytes 8 0 ++ beBytes 1 0x45 ++ beBytes 1 0x20 ++ beBytes 4 7 ++ beBytes 1 0 ++
    beBytes 1 0), 9, ⟨0, 0, 0, ⟨0, 0, 0⟩, 0, false⟩, ⟨mkT96 5 100 0, false, false, false, 0⟩,
    by decide +kernel⟩

theorem meets_GuylineMessages_7 : ∃ (s : State), s.inReset = false ∧ s.guyUp = true :=
  ⟨(live.p R.GUY_STATUS F.GUY_STATUS_STATE 3),
    by decide +kernel⟩

theorem meets_GuylineMessages_8 : ∃ (s : State) (m : List Byte), s.inReset = false ∧ s.guyUp = true ∧ guyParse m =
    none :=
  ⟨(live.p R.GUY_STATUS F.GUY_STATUS_STATE 3), [1#8],
    by decide +kernel⟩

theorem meets_GuylineMessages_9 : ∃ (s : State) (l : List (List Bool)) (k : Fin 4), s.inReset = false ∧ s.guyUp =
    true ∧ (l.map (blockRx dataBits))[k.val]? = some BlockRx.noSync :=
  ⟨(live.p R.GUY_STATUS F.GUY_STATUS_STATE 3), [[true], [], [], []], 0,
    by decide +kernel⟩

theorem meets_PairClaims_1 : ∃ (s : State) (m : List Byte) (p : List Byte) (q : Nat), s.inReset = false ∧ s.guyUp =
    true ∧ guyPayload 1 m = some (q, p) ∧ s.pairState = pairInit ∧ s.rut.beat = none ∧ s.g R.RUT_STATUS
    F.RUT_STATUS_HIGHER = 0 ∧ s.g R.RUT_STATUS F.RUT_STATUS_HB_OK = 1 ∧ s.g R.RUT_STATUS F.RUT_STATUS_WIRE_FRESH = 0
    ∧ s.g R.RUT_STATUS F.RUT_STATUS_MIRROR_OVER = 0 :=
  ⟨(((live.p R.GUY_STATUS F.GUY_STATUS_STATE 3).p R.RUT_STATUS F.RUT_STATUS_STATE 1 |>.p R.RUT_STATUS
    F.RUT_STATUS_HIGHER 0)).p R.RUT_STATUS F.RUT_STATUS_HB_OK 1, (guyMessage 1 9 (beBytes 4 0x531 ++ beBytes 4 0)),
    (beBytes 4 0x531 ++ beBytes 4 0), 9,
    by decide +kernel⟩

theorem meets_PairClaims_2 : ∃ (s : State) (m : List Byte) (p : List Byte) (q : Nat), s.inReset = false ∧ s.guyUp =
    true ∧ guyPayload 2 m = some (q, p) ∧ beAt p 4 2 ≠ s.rut.pairId :=
  ⟨((live.p R.GUY_STATUS F.GUY_STATUS_STATE 3).p R.RUT_STATUS F.RUT_STATUS_STATE 1 |>.p R.RUT_STATUS
    F.RUT_STATUS_HIGHER 0), (guyMessage 2 9 (beBytes 4 0x531 ++ beBytes 2 5 ++ beBytes 1 96 ++ beBytes 1 0x30 ++
    beBytes 8 77)), (beBytes 4 0x531 ++ beBytes 2 5 ++ beBytes 1 96 ++ beBytes 1 0x30 ++ beBytes 8 77), 9,
    by decide +kernel⟩

theorem meets_PairClaims_3 : ∃ (s : State) (m : List Byte) (p : List Byte) (q : Nat), s.inReset = false ∧ s.guyUp =
    true ∧ guyPayload 2 m = some (q, p) ∧ s.pairState = pairInit ∧ s.g R.RUT_STATUS F.RUT_STATUS_HIGHER = 0 ∧ beAt p
    4 2 = s.rut.pairId ∧ s.rut.sentAt = none ∧ beAt p 0 4 % 16 ≠ s.rut.unit ∧ beAt p 6 1 / 32 = pairActive :=
  ⟨((live.p R.GUY_STATUS F.GUY_STATUS_STATE 3).p R.RUT_STATUS F.RUT_STATUS_STATE 1 |>.p R.RUT_STATUS
    F.RUT_STATUS_HIGHER 0), (guyMessage 2 9 (beBytes 4 0x531 ++ beBytes 2 0 ++ beBytes 1 96 ++ beBytes 1 0x30 ++
    beBytes 8 77)), (beBytes 4 0x531 ++ beBytes 2 0 ++ beBytes 1 96 ++ beBytes 1 0x30 ++ beBytes 8 77), 9,
    by decide +kernel⟩

theorem meets_PairClaims_4 : ∃ (s : State) (f : BitVec 80) (c : Nat), s.inReset = false ∧ s.on (R.IOP_PINp_STATUS 32)
    F.IOP_PINp_STATUS_POL_INV = false ∧ f.toNat / 2 ^ 64 ≠ 0xD22B ∧ wireClaim s.rut.pairId f = some c ∧
    s.rut.wireLast ≠ some c :=
  ⟨((live.p R.GUY_STATUS F.GUY_STATUS_STATE 3).p R.RUT_STATUS F.RUT_STATUS_STATE 1 |>.p R.RUT_STATUS
    F.RUT_STATUS_HIGHER 0), wireFrame 0 0x531, 0x531,
    by decide +kernel⟩

theorem meets_PairClaims_5 : ∃ (s : State) (f : BitVec 80) (c : Nat), s.inReset = false ∧ s.on (R.IOP_PINp_STATUS 32)
    F.IOP_PINp_STATUS_POL_INV = false ∧ f.toNat / 2 ^ 64 ≠ 0xD22B ∧ wireClaim s.rut.pairId f = some c ∧
    s.rut.wireLast = some c ∧ s.pairState = pairInit ∧ s.rut.beat = none ∧ s.g R.RUT_STATUS F.RUT_STATUS_HIGHER = 0 :=
  ⟨{ ((live.p R.GUY_STATUS F.GUY_STATUS_STATE 3).p R.RUT_STATUS F.RUT_STATUS_STATE 1 |>.p R.RUT_STATUS F.RUT_STATUS_HIGHER 0) with rut := { live.rut with wireLast := some 0x531 } },
    wireFrame 0 0x531, 0x531,
    by decide +kernel⟩

theorem meets_PairClaims_6 : ∃ (s : State), s.inReset = false ∧ s.pairState = pairInit ∧ s.rut.beat = none ∧ s.g
    R.RUT_STATUS F.RUT_STATUS_HIGHER = 0 ∧ s.g R.RUT_STATUS F.RUT_STATUS_WIRE_FRESH = 1 :=
  ⟨(((live.p R.GUY_STATUS F.GUY_STATUS_STATE 3).p R.RUT_STATUS F.RUT_STATUS_STATE 1 |>.p R.RUT_STATUS
    F.RUT_STATUS_HIGHER 0)).p R.RUT_STATUS F.RUT_STATUS_WIRE_FRESH 1,
    by decide +kernel⟩

theorem meets_PairClaims_7 : ∃ (s : State), s.inReset = false ∧ s.claimHigh = true ∧ s.g R.RUT_STATUS
    F.RUT_STATUS_HIGHER = 0 ∧ s.rut.taking = false :=
  ⟨{ ((live.p R.GUY_STATUS F.GUY_STATUS_STATE 3).p R.RUT_STATUS F.RUT_STATUS_STATE 3 |>.p R.RUT_STATUS F.RUT_STATUS_HIGHER 0) with rut := { live.rut with epoch := 5 } },
    by decide +kernel⟩

theorem meets_PairClaims_8 : ∃ (s : State) (k : Nat), s.inReset = false ∧ s.claimHigh = true ∧ s.g R.RUT_STATUS
    F.RUT_STATUS_HIGHER = 0 ∧ s.rut.taking = true ∧ s.rut.failAt = some k :=
  ⟨{ ((live.p R.GUY_STATUS F.GUY_STATUS_STATE 3).p R.RUT_STATUS F.RUT_STATUS_STATE 3 |>.p R.RUT_STATUS F.RUT_STATUS_HIGHER 0) with rut := { live.rut with epoch := 5, taking := true, failAt := some 0 } },
    0,
    by decide +kernel⟩

theorem meets_PairClaims_9 : ∃ (s : State) (m : List Byte) (p : List Byte) (q : Nat), s.inReset = false ∧ s.guyUp =
    true ∧ guyPayload 1 m = some (q, p) :=
  ⟨{ (((live.p R.GUY_STATUS F.GUY_STATUS_STATE 3).p R.RUT_STATUS F.RUT_STATUS_STATE 2 |>.p R.RUT_STATUS F.RUT_STATUS_HIGHER 0).p R.RUT_STATUS F.RUT_STATUS_HB_OK 1) with rut := { live.rut with beat := some (5, 0x50, 0) } },
    (guyMessage 1 9 (beBytes 4 0x531 ++ beBytes 4 0)), (beBytes 4 0x531 ++ beBytes 4 0), 9,
    by decide +kernel⟩

theorem meets_PairClaims_10 : ∃ (s : State) (m : List Byte) (p : List Byte) (q : Nat), s.inReset = false ∧ s.guyUp =
    true ∧ guyPayload 2 m = some (q, p) ∧ beAt p 4 2 = s.rut.pairId ∧ s.rut.sentAt.all (fun t => decide (0 < tickDiff
    (BitVec.ofNat 64 (beAt p 8 8)) t)) = true :=
  ⟨{ ((live.p R.GUY_STATUS F.GUY_STATUS_STATE 3).p R.RUT_STATUS F.RUT_STATUS_STATE 1 |>.p R.RUT_STATUS F.RUT_STATUS_HIGHER 0) with rut := { live.rut with sentAt := some 5#64 } },
    (guyMessage 2 9 (beBytes 4 0x531 ++ beBytes 2 0 ++ beBytes 1 96 ++ beBytes 1 0x30 ++ beBytes 8 77)), (beBytes 4
    0x531 ++ beBytes 2 0 ++ beBytes 1 96 ++ beBytes 1 0x30 ++ beBytes 8 77), 9,
    by decide +kernel⟩

theorem meets_PairClaims_11 : ∃ (s : State) (m : List Byte) (p : List Byte) (q : Nat), s.inReset = false ∧ s.guyUp =
    true ∧ guyPayload 2 m = some (q, p) ∧ beAt p 4 2 = s.rut.pairId ∧ s.rut.sentAt.all (fun t => decide (0 < tickDiff
    (BitVec.ofNat 64 (beAt p 8 8)) t)) = false :=
  ⟨{ ((live.p R.GUY_STATUS F.GUY_STATUS_STATE 3).p R.RUT_STATUS F.RUT_STATUS_STATE 1 |>.p R.RUT_STATUS F.RUT_STATUS_HIGHER 0) with rut := { live.rut with sentAt := some 77#64 } },
    (guyMessage 2 9 (beBytes 4 0x531 ++ beBytes 2 0 ++ beBytes 1 96 ++ beBytes 1 0x30 ++ beBytes 8 77)), (beBytes 4
    0x531 ++ beBytes 2 0 ++ beBytes 1 96 ++ beBytes 1 0x30 ++ beBytes 8 77), 9,
    by decide +kernel⟩

theorem meets_PairClaims_12 : ∃ (s : State) (f : BitVec 80) (c : Nat), s.inReset = false ∧ s.on (R.IOP_PINp_STATUS
    32) F.IOP_PINp_STATUS_POL_INV = false ∧ f.toNat / 2 ^ 64 ≠ 0xD22B ∧ wireClaim s.rut.pairId f = some c ∧
    s.rut.wireLast = some c :=
  ⟨{ (((live.p R.GUY_STATUS F.GUY_STATUS_STATE 3).p R.RUT_STATUS F.RUT_STATUS_STATE 2 |>.p R.RUT_STATUS F.RUT_STATUS_HIGHER 0).p R.RUT_STATUS F.RUT_STATUS_HB_OK 1) with rut := { live.rut with wireLast := some 0x531 } },
    wireFrame 0 0x531, 0x531,
    by decide +kernel⟩

theorem meets_PairClaims_13 : ∃ (s : State) (f : BitVec 80) (c : Nat), s.inReset = false ∧ s.on (R.IOP_PINp_STATUS
    32) F.IOP_PINp_STATUS_POL_INV = true ∧ (~~~f).toNat / 2 ^ 64 ≠ 0xD22B ∧ wireClaim s.rut.pairId (~~~f) = some c ∧
    s.rut.wireLast = some c :=
  ⟨({ (((live.p R.GUY_STATUS F.GUY_STATUS_STATE 3).p R.RUT_STATUS F.RUT_STATUS_STATE 2 |>.p R.RUT_STATUS F.RUT_STATUS_HIGHER 0).p R.RUT_STATUS F.RUT_STATUS_HB_OK 1) with rut := { live.rut with wireLast := some 0x531 } }).p
    (R.IOP_PINp_STATUS 32) F.IOP_PINp_STATUS_POL_INV 1, ~~~(wireFrame 0 0x531), 0x531,
    by decide +kernel⟩

theorem meets_PairClaims_14 : ∃ (s : State) (f : BitVec 80), s.inReset = false ∧ s.on (R.IOP_PINp_STATUS 32)
    F.IOP_PINp_STATUS_POL_INV = false ∧ f.toNat / 2 ^ 64 ≠ 0xD22B ∧ wireClaim s.rut.pairId f = none :=
  ⟨{ ((live.p R.GUY_STATUS F.GUY_STATUS_STATE 3).p R.RUT_STATUS F.RUT_STATUS_STATE 1 |>.p R.RUT_STATUS F.RUT_STATUS_HIGHER 0) with rut := { live.rut with wireLast := some 7 } },
    5#80,
    by decide +kernel⟩

theorem meets_PairClaims_15 : ∃ (s : State), s.inReset = false ∧ s.g R.RUT_STATUS F.RUT_STATUS_WIRE_FRESH = 1 :=
  ⟨(((live.p R.GUY_STATUS F.GUY_STATUS_STATE 3).p R.RUT_STATUS F.RUT_STATUS_STATE 2 |>.p R.RUT_STATUS
    F.RUT_STATUS_HIGHER 0).p R.RUT_STATUS F.RUT_STATUS_HB_OK 1).p R.RUT_STATUS F.RUT_STATUS_WIRE_FRESH 1,
    by decide +kernel⟩

theorem meets_PairClaims_16 : ∃ (s : State), s.inReset = false ∧ s.claimHigh = true ∧ s.g R.RUT_STATUS
    F.RUT_STATUS_HIGHER = 0 ∧ s.rut.taking = true ∧ s.rut.failAt = none :=
  ⟨{ ((live.p R.GUY_STATUS F.GUY_STATUS_STATE 3).p R.RUT_STATUS F.RUT_STATUS_STATE 3 |>.p R.RUT_STATUS F.RUT_STATUS_HIGHER 0) with rut := { live.rut with epoch := 5, taking := true } },
    by decide +kernel⟩

theorem meets_PairClaims_17 : ∃ (s : State), s.inReset = false ∧ s.claimHigh = false :=
  ⟨((live.p R.GUY_STATUS F.GUY_STATUS_STATE 3).p R.RUT_STATUS F.RUT_STATUS_STATE 1 |>.p R.RUT_STATUS
    F.RUT_STATUS_HIGHER 0),
    by decide +kernel⟩

theorem meets_PairStates_1 : ∃ (s : State), s.accepts R.RUT_CTRL ∧ s.pairState = pairSolo ∧ (s.rut.beat = none ∨
    s.hbOk = false) ∧ (∀ f ∈ s.fwd.frames, f.port < 25 ∧ f.prio < 8) ∧ s.fwd.stalled = [] :=
  ⟨live,
    by decide +kernel⟩

theorem meets_PairStates_2 : ∃ (s : State), s.accepts R.RUT_CTRL ∧ s.pairState ≠ pairSolo :=
  ⟨((live.p R.GUY_STATUS F.GUY_STATUS_STATE 3).p R.RUT_STATUS F.RUT_STATUS_STATE 1 |>.p R.RUT_STATUS
    F.RUT_STATUS_HIGHER 0),
    by decide +kernel⟩

theorem meets_PairStates_3 : ∃ (s : State), s.inReset = false ∧ s.hbOk = true ∧ s.rut.mirror = none ∧ s.rut.ckpt =
    none ∧ s.g R.RUT_STATUS F.RUT_STATUS_HIGHER = 0 ∧ s.pairState = pairInit :=
  ⟨((((live.p R.GUY_STATUS F.GUY_STATUS_STATE 3).p R.RUT_STATUS F.RUT_STATUS_STATE 1 |>.p R.RUT_STATUS
    F.RUT_STATUS_HIGHER 0)).p R.RUT_STATUS F.RUT_STATUS_HB_OK 1),
    by decide +kernel⟩

theorem meets_PairStates_4 : ∃ (s : State), s.inReset = false ∧ s.hbOk = true ∧ s.rut.mirror = none ∧ s.rut.ckpt =
    none ∧ s.g R.RUT_STATUS F.RUT_STATUS_HIGHER = 0 ∧ s.pairState = pairStandby ∧ s.rut.batch = none ∧ s.g
    R.RUT_STATUS F.RUT_STATUS_READY = 1 ∧ s.rut.mode = 0 :=
  ⟨((((live.p R.GUY_STATUS F.GUY_STATUS_STATE 3).p R.RUT_STATUS F.RUT_STATUS_STATE 2 |>.p R.RUT_STATUS
    F.RUT_STATUS_HIGHER 0)).p R.RUT_STATUS F.RUT_STATUS_HB_OK 1 |>.p R.RUT_STATUS F.RUT_STATUS_READY 1),
    by decide +kernel⟩

theorem meets_PairStates_5 : ∃ (s : State), s.inReset = false ∧ s.pairState = pairInit ∧ s.rut.heard = false ∧
    s.rut.conflict = false ∧ s.g R.RUT_STATUS F.RUT_STATUS_WIRE_FRESH = 0 ∧ s.g R.RUT_STATUS F.RUT_STATUS_HIGHER = 0
    ∧ s.rut.mode = 0 :=
  ⟨((live.p R.GUY_STATUS F.GUY_STATUS_STATE 3).p R.RUT_STATUS F.RUT_STATUS_STATE 1 |>.p R.RUT_STATUS
    F.RUT_STATUS_HIGHER 0),
    by decide +kernel⟩

theorem meets_PairStates_6 : ∃ (s : State) (v : Word) (c : Nat) (b : Nat) (r : Nat), s.accepts R.RUT_CMD ∧
    F.RUT_CMD_RELEASE.get v = 0 ∧ s.pairState = pairActive ∧ s.hbOk = true ∧ s.rut.beat = some (c, b, r) ∧ b / 32 =
    pairStandby ∧ maskBit b 4 = true :=
  ⟨({ ((live.p R.GUY_STATUS F.GUY_STATUS_STATE 3).p R.RUT_STATUS F.RUT_STATUS_STATE 3 |>.p R.RUT_STATUS F.RUT_STATUS_HIGHER 0) with rut := { live.rut with beat := some (5, 0x50, 0) } }).p
    R.RUT_STATUS F.RUT_STATUS_HB_OK 1, 0#32, 5, 0x50, 0,
    by decide +kernel⟩

theorem meets_PairStates_7 : ∃ (s : State) (v : Word), s.accepts R.RUT_CMD ∧ F.RUT_CMD_RELEASE.get v = 0 ∧
    s.pairState = pairActive ∧ s.hbOk = false :=
  ⟨((live.p R.GUY_STATUS F.GUY_STATUS_STATE 3).p R.RUT_STATUS F.RUT_STATUS_STATE 3 |>.p R.RUT_STATUS
    F.RUT_STATUS_HIGHER 0), 0#32,
    by decide +kernel⟩

theorem meets_PairStates_8 : ∃ (s : State) (v : Word), s.accepts R.RUT_CMD ∧ F.RUT_CMD_HANDOVER.get v = 0 ∧
    s.pairState = pairHeld ∧ s.rut.beat = none ∧ s.g R.RUT_STATUS F.RUT_STATUS_HIGHER = 0 :=
  ⟨((live.p R.GUY_STATUS F.GUY_STATUS_STATE 3).p R.RUT_STATUS F.RUT_STATUS_STATE 4 |>.p R.RUT_STATUS
    F.RUT_STATUS_HIGHER 0), 0#32,
    by decide +kernel⟩

theorem meets_PairStates_9 : ∃ (s : State), s.inReset = false ∧ s.hbOk = true :=
  ⟨{ (((live.p R.GUY_STATUS F.GUY_STATUS_STATE 3).p R.RUT_STATUS F.RUT_STATUS_STATE 2 |>.p R.RUT_STATUS F.RUT_STATUS_HIGHER 0).p R.RUT_STATUS F.RUT_STATUS_HB_OK 1) with rut := { live.rut with epoch := 9, mirror := some ⟨9, 0, 1, 12, 5, 4⟩, valid := some 1, mode := 1 } },
    by decide +kernel⟩

theorem meets_PairStates_10 : ∃ (s : State), s.inReset = false ∧ s.pairState = pairInit ∧ s.rut.heard = false ∧
    s.rut.conflict = false ∧ (s.g R.RUT_STATUS F.RUT_STATUS_WIRE_FRESH = 0 ∨ s.rut.wire.getD 0 / 16 % 16 = 0) :=
  ⟨((live.p R.GUY_STATUS F.GUY_STATUS_STATE 3).p R.RUT_STATUS F.RUT_STATUS_STATE 1 |>.p R.RUT_STATUS
    F.RUT_STATUS_HIGHER 0),
    by decide +kernel⟩

theorem meets_PairStates_11 : ∃ (s : State), s.inReset = false ∧ s.pairState = pairInit ∧ s.rut.heard = false ∧
    s.rut.conflict = false ∧ s.g R.RUT_STATUS F.RUT_STATUS_WIRE_FRESH = 1 ∧ s.rut.wire.getD 0 / 16 % 16 ≠ 0 ∧ s.g
    R.RUT_STATUS F.RUT_STATUS_HIGHER = 0 :=
  ⟨{ ((live.p R.GUY_STATUS F.GUY_STATUS_STATE 3).p R.RUT_STATUS F.RUT_STATUS_STATE 1 |>.p R.RUT_STATUS F.RUT_STATUS_HIGHER 0).p R.RUT_STATUS F.RUT_STATUS_WIRE_FRESH 1 with rut := { live.rut with wire := some 0x531 } },
    by decide +kernel⟩

theorem meets_PairStates_12 : ∃ (s : State) (v : Word), s.accepts R.RUT_CMD ∧ F.RUT_CMD_RELEASE.get v = 0 ∧
    s.pairState ≠ pairActive :=
  ⟨((live.p R.GUY_STATUS F.GUY_STATUS_STATE 3).p R.RUT_STATUS F.RUT_STATUS_STATE 1 |>.p R.RUT_STATUS
    F.RUT_STATUS_HIGHER 0), 0#32,
    by decide +kernel⟩

theorem meets_PairStates_13 : ∃ (s : State) (v : Word), s.accepts R.RUT_CMD ∧ F.RUT_CMD_RELEASE.get v = 0 ∧
    s.pairState = pairActive ∧ s.canHand = false :=
  ⟨{ (((live.p R.GUY_STATUS F.GUY_STATUS_STATE 3).p R.RUT_STATUS F.RUT_STATUS_STATE 3 |>.p R.RUT_STATUS F.RUT_STATUS_HIGHER 0).p R.RUT_STATUS F.RUT_STATUS_HB_OK 1 |>.p R.RUT_STATUS F.RUT_STATUS_HIGHER 1) with rut := { live.rut with beat := some (5, 0x70, 0) } },
    0#32,
    by decide +kernel⟩

theorem meets_PairStates_14 : ∃ (s : State) (v : Word), s.accepts R.RUT_CMD ∧ F.RUT_CMD_HANDOVER.get v = 0 ∧
    s.pairState = pairHeld :=
  ⟨{ ((live.p R.GUY_STATUS F.GUY_STATUS_STATE 3).p R.RUT_STATUS F.RUT_STATUS_STATE 4 |>.p R.RUT_STATUS F.RUT_STATUS_HIGHER 0).p R.RUT_STATUS F.RUT_STATUS_HB_OK 1 with rut := { live.rut with beat := some (5, 0x78, 0) } },
    0#32,
    by decide +kernel⟩

theorem meets_PairCopies_1 : ∃ (s : State) (m : List Byte) (p : List Byte) (q : Nat) (c : CopyRx), s.inReset = false
    ∧ s.guyUp = true ∧ guyPayload 5 m = some (q, p) ∧ s.takesCopies = true ∧ s.rut.mirror = some c ∧ c.ident = beAt p
    0 4 ∧ beAt p 4 4 + (p.drop 8).length ≤ 0x80000 ∧ s.rut.batch = none :=
  ⟨{ ((live.p R.GUY_STATUS F.GUY_STATUS_STATE 3).p R.RUT_STATUS F.RUT_STATUS_STATE 2 |>.p R.RUT_STATUS F.RUT_STATUS_HIGHER 0 |>.p R.QUE_PART F.QUE_PART_CKPT 1) with rut := { live.rut with mirror := some ⟨9, 0, 1, 12, 5, 4⟩ } },
    (guyMessage 5 3 (beBytes 4 9 ++ beBytes 4 16 ++ [7#8, 8#8])), (beBytes 4 9 ++ beBytes 4 16 ++ [7#8, 8#8]), 3, ⟨9,
    0, 1, 12, 5, 4⟩,
    by decide +kernel⟩

theorem meets_PairCopies_2 : ∃ (s : State) (m : List Byte) (p : List Byte) (q : Nat) (c : CopyRx), s.inReset = false
    ∧ s.guyUp = true ∧ guyPayload 6 m = some (q, p) ∧ s.takesCopies = true ∧ s.rut.ckpt = some c ∧ c.ident = beAt p 0
    4 ∧ beAt p 4 4 < 0x800000 ∧ beAt p 4 4 % 0x400000 + (p.drop 8).length ≤ 0x400000 ∧ s.rut.valid ≠ some c.slot :=
  ⟨{ ((live.p R.GUY_STATUS F.GUY_STATUS_STATE 3).p R.RUT_STATUS F.RUT_STATUS_STATE 2 |>.p R.RUT_STATUS F.RUT_STATUS_HIGHER 0 |>.p R.QUE_PART F.QUE_PART_CKPT 1) with rut := { live.rut with ckpt := some ⟨9, 0, 1, 12, 5, 4⟩ } },
    (guyMessage 6 3 (beBytes 4 9 ++ beBytes 4 16 ++ [7#8, 8#8])), (beBytes 4 9 ++ beBytes 4 16 ++ [7#8, 8#8]), 3, ⟨9,
    0, 1, 12, 5, 4⟩,
    by decide +kernel⟩

theorem meets_PairCopies_3 : ∃ (s : State) (m : List Byte) (p : List Byte) (q : Nat) (c : CopyRx), s.inReset = false
    ∧ s.guyUp = true ∧ guyPayload 5 m = some (q, p) ∧ s.takesCopies = true ∧ s.rut.mirror.all (fun x => decide
    (x.ident ≠ beAt p 0 4)) = true ∧ c = (⟨beAt p 0 4, (if s.rut.applied = some 0 then 1 else 0), 0, 0, 0xFFFFFFFF,
    0⟩ : CopyRx) ∧ beAt p 4 4 + (p.drop 8).length ≤ 0x80000 :=
  ⟨{ ((live.p R.GUY_STATUS F.GUY_STATUS_STATE 3).p R.RUT_STATUS F.RUT_STATUS_STATE 2 |>.p R.RUT_STATUS F.RUT_STATUS_HIGHER 0 |>.p R.QUE_PART F.QUE_PART_CKPT 1) with rut := { live.rut with applied := some 0, batch := some (3, 1, 256) } },
    (guyMessage 5 3 (beBytes 4 9 ++ beBytes 4 16 ++ [7#8, 8#8])), (beBytes 4 9 ++ beBytes 4 16 ++ [7#8, 8#8]), 3, ⟨9,
    1, 0, 0, 0xFFFFFFFF, 0⟩,
    by decide +kernel⟩

theorem meets_PairCopies_4 : ∃ (s : State) (m : List Byte) (p : List Byte) (q : Nat) (c : CopyRx), s.inReset = false
    ∧ s.guyUp = true ∧ guyPayload 6 m = some (q, p) ∧ s.takesCopies = true ∧ s.rut.ckpt.all (fun x => decide (x.ident
    ≠ beAt p 0 4)) = true ∧ c = (⟨beAt p 0 4, (beAt p 4 4 / 0x400000), 0, 0, 0xFFFFFFFF, 0⟩ : CopyRx) ∧ beAt p 4 4 <
    0x800000 ∧ beAt p 4 4 % 0x400000 + (p.drop 8).length ≤ 0x400000 :=
  ⟨{ ((live.p R.GUY_STATUS F.GUY_STATUS_STATE 3).p R.RUT_STATUS F.RUT_STATUS_STATE 2 |>.p R.RUT_STATUS F.RUT_STATUS_HIGHER 0 |>.p R.QUE_PART F.QUE_PART_CKPT 1) with rut := { live.rut with valid := some 1 } },
    (guyMessage 6 3 (beBytes 4 9 ++ beBytes 4 4194320 ++ [7#8, 8#8])), (beBytes 4 9 ++ beBytes 4 4194320 ++ [7#8,
    8#8]), 3, ⟨9, 1, 0, 0, 0xFFFFFFFF, 0⟩,
    by decide +kernel⟩

theorem meets_PairCopies_5 : ∃ (s : State) (m : List Byte) (p : List Byte) (q : Nat) (c : CopyRx), s.inReset = false
    ∧ s.guyUp = true ∧ guyPayload 4 m = some (q, p) ∧ s.takesCopies = true ∧ beAt p 4 1 = 0 ∧ s.rut.mirror = some c ∧
    commitMatches p (some c) = true :=
  ⟨{ ((live.p R.GUY_STATUS F.GUY_STATUS_STATE 3).p R.RUT_STATUS F.RUT_STATUS_STATE 2 |>.p R.RUT_STATUS F.RUT_STATUS_HIGHER 0 |>.p R.QUE_PART F.QUE_PART_CKPT 1) with rut := { live.rut with mirror := some ⟨9, 0, 1, 12, 5, 4⟩ } },
    (guyMessage 4 3 (beBytes 4 9 ++ beBytes 1 0 ++ beBytes 3 0 ++ beBytes 4 1 ++ beBytes 4 12 ++ beBytes 4 (5 ^^^
    0xFFFFFFFF))), (beBytes 4 9 ++ beBytes 1 0 ++ beBytes 3 0 ++ beBytes 4 1 ++ beBytes 4 12 ++ beBytes 4 (5 ^^^
    0xFFFFFFFF)), 3, ⟨9, 0, 1, 12, 5, 4⟩,
    by decide +kernel⟩

theorem meets_PairCopies_6 : ∃ (s : State) (m : List Byte) (p : List Byte) (q : Nat), s.inReset = false ∧ s.guyUp =
    true ∧ guyPayload 4 m = some (q, p) ∧ s.takesCopies = true ∧ beAt p 4 1 = 0 ∧ commitMatches p s.rut.mirror =
    false :=
  ⟨((live.p R.GUY_STATUS F.GUY_STATUS_STATE 3).p R.RUT_STATUS F.RUT_STATUS_STATE 2 |>.p R.RUT_STATUS
    F.RUT_STATUS_HIGHER 0 |>.p R.QUE_PART F.QUE_PART_CKPT 1), (guyMessage 4 3 (beBytes 4 9 ++ beBytes 1 0 ++ beBytes
    3 0 ++ beBytes 4 1 ++ beBytes 4 12 ++ beBytes 4 (5 ^^^ 0xFFFFFFFF))), (beBytes 4 9 ++ beBytes 1 0 ++ beBytes 3 0
    ++ beBytes 4 1 ++ beBytes 4 12 ++ beBytes 4 (5 ^^^ 0xFFFFFFFF)), 3,
    by decide +kernel⟩

theorem meets_PairCopies_7 : ∃ (s : State) (m : List Byte) (p : List Byte) (q : Nat) (c : CopyRx), s.inReset = false
    ∧ s.guyUp = true ∧ guyPayload 4 m = some (q, p) ∧ s.takesCopies = true ∧ beAt p 4 1 = 1 ∧ s.rut.ckpt = some c ∧
    commitMatches p (some c) = true :=
  ⟨{ ((live.p R.GUY_STATUS F.GUY_STATUS_STATE 3).p R.RUT_STATUS F.RUT_STATUS_STATE 2 |>.p R.RUT_STATUS F.RUT_STATUS_HIGHER 0 |>.p R.QUE_PART F.QUE_PART_CKPT 1) with rut := { live.rut with ckpt := some ⟨9, 0, 1, 12, 5, 4⟩ } },
    (guyMessage 4 3 (beBytes 4 9 ++ beBytes 1 1 ++ beBytes 3 0 ++ beBytes 4 1 ++ beBytes 4 12 ++ beBytes 4 (5 ^^^
    0xFFFFFFFF))), (beBytes 4 9 ++ beBytes 1 1 ++ beBytes 3 0 ++ beBytes 4 1 ++ beBytes 4 12 ++ beBytes 4 (5 ^^^
    0xFFFFFFFF)), 3, ⟨9, 0, 1, 12, 5, 4⟩,
    by decide +kernel⟩

theorem meets_PairCopies_8 : ∃ (s : State) (m : List Byte) (p : List Byte) (q : Nat), s.inReset = false ∧ s.guyUp =
    true ∧ guyPayload 4 m = some (q, p) ∧ s.takesCopies = true ∧ beAt p 4 1 = 1 ∧ commitMatches p s.rut.ckpt = false
    :=
  ⟨((live.p R.GUY_STATUS F.GUY_STATUS_STATE 3).p R.RUT_STATUS F.RUT_STATUS_STATE 2 |>.p R.RUT_STATUS
    F.RUT_STATUS_HIGHER 0 |>.p R.QUE_PART F.QUE_PART_CKPT 1), (guyMessage 4 3 (beBytes 4 9 ++ beBytes 1 1 ++ beBytes
    3 0 ++ beBytes 4 1 ++ beBytes 4 12 ++ beBytes 4 (5 ^^^ 0xFFFFFFFF))), (beBytes 4 9 ++ beBytes 1 1 ++ beBytes 3 0
    ++ beBytes 4 1 ++ beBytes 4 12 ++ beBytes 4 (5 ^^^ 0xFFFFFFFF)), 3,
    by decide +kernel⟩

theorem meets_PairCopies_9 : ∃ (s : State) (i : Nat) (k : Nat) (e : Nat) (l : List Byte), s.inReset = false ∧
    s.takesCopies = true ∧ s.rut.batch = some (i, k, e) ∧ s.dramRead (s.ckptBase + stagingOffset k) 256 = l :=
  ⟨{ ((live.p R.GUY_STATUS F.GUY_STATUS_STATE 3).p R.RUT_STATUS F.RUT_STATUS_STATE 2 |>.p R.RUT_STATUS F.RUT_STATUS_HIGHER 0 |>.p R.QUE_PART F.QUE_PART_CKPT 1) with rut := { live.rut with batch := some (9, 1, 256) } },
    9, 1, 256, (live.dramRead 0 256),
    by decide +kernel⟩

theorem meets_PairCopies_10 : ∃ (s : State) (i : Nat) (k : Nat) (c : Nat), s.inReset = false ∧ s.takesCopies = true ∧
    s.rut.batch = some (i, k, 288) ∧ c = leAt (s.dramRead (s.ckptBase + stagingOffset k + 256) 32) 0 2 % 16384 :=
  ⟨{ { ((live.p R.GUY_STATUS F.GUY_STATUS_STATE 3).p R.RUT_STATUS F.RUT_STATUS_STATE 2 |>.p R.RUT_STATUS F.RUT_STATUS_HIGHER 0 |>.p R.QUE_PART F.QUE_PART_CKPT 1) with rut := { live.rut with batch := some (9, 1, 288) } } with dram := [(0x880100, 5#8), (0x880104, 77#8), (0x880119, 1#8)] },
    9, 1, 5,
    by decide +kernel⟩

theorem meets_PairCopies_11 : ∃ (s : State) (n : Nat), s.inReset = false ∧ s.running = true ∧ s.guyUp = true ∧
    s.pairState = pairActive ∧ s.rut.mode = 0 ∧ (s.accrueAll.timeRecord ++ ((s.accrueAll.validContexts.take 4096).map
    s.accrueAll.ctxRecord).flatten).length = n :=
  ⟨((live.p R.GUY_STATUS F.GUY_STATUS_STATE 3).p R.RUT_STATUS F.RUT_STATUS_STATE 3 |>.p R.RUT_STATUS
    F.RUT_STATUS_HIGHER 0), 256,
    by decide +kernel⟩

theorem meets_PairCopies_12 : ∃ (s : State), s.inReset = false ∧ s.running = true ∧ s.guyUp = true ∧ s.pairState =
    pairActive ∧ s.rut.mode = 0 ∧ s.validContexts = [] :=
  ⟨((live.p R.GUY_STATUS F.GUY_STATUS_STATE 3).p R.RUT_STATUS F.RUT_STATUS_STATE 3 |>.p R.RUT_STATUS
    F.RUT_STATUS_HIGHER 0),
    by decide +kernel⟩

theorem meets_PairCopies_13 : ∃ (s : State), s.inReset = false ∧ s.running = true ∧ s.guyUp = true ∧ s.pairState =
    pairActive ∧ s.rut.mode = 1 :=
  ⟨{ ((live.p R.GUY_STATUS F.GUY_STATUS_STATE 3).p R.RUT_STATUS F.RUT_STATUS_STATE 3 |>.p R.RUT_STATUS F.RUT_STATUS_HIGHER 0) with rut := { live.rut with mode := 1 } },
    by decide +kernel⟩

theorem meets_PairCopies_14 : ∃ (s : State) (k : Nat), s.inReset = false ∧ s.pairState = pairActive ∧ s.rut.applying
    = true ∧ s.rut.valid = some k ∧ (s.rut.beat = none ∨ s.hbOk = false) ∧ s.g R.RUT_STATUS F.RUT_STATUS_HIGHER = 0 :=
  ⟨{ ((live.p R.GUY_STATUS F.GUY_STATUS_STATE 3).p R.RUT_STATUS F.RUT_STATUS_STATE 3 |>.p R.RUT_STATUS F.RUT_STATUS_HIGHER 0) with rut := { live.rut with applying := true, valid := some 1, next := 7 } },
    1,
    by decide +kernel⟩

theorem meets_CountersAndUserFunctions_1 : ∃ (s : State) (v : Word), s.accepts R.PMC_SNAP ∧ F.PMC_SNAP_CLEAR.get v =
    0 :=
  ⟨live.setPair (pmcAddr 1 3) 99, 0#32,
    by decide +kernel⟩

theorem meets_CountersAndUserFunctions_2 : ∃ (s : State) (v : Word), s.accepts R.PMC_SNAP ∧ F.PMC_SNAP_SNAP.get v = 0
    :=
  ⟨live.setPair (pmcAddr 1 3) 99, 0#32,
    by decide +kernel⟩

theorem meets_CountersAndUserFunctions_3 : ∃ (s : State), s.accepts R.PMC_CTRL :=
  ⟨live,
    by decide +kernel⟩

theorem meets_CountersAndUserFunctions_4 : ∃ (s : State) (g : Fin 3) (k : Fin 8) (v : Word), s.accepts (R.PMC_Gg_SELk
    g k) ∧ s.formWord (R.PMC_Gg_SELk g k) v ≠ s.reg (R.PMC_Gg_SELk g k) :=
  ⟨live.setPair (pmcAddr 1 3) 99, 1, 2, 5#32,
    by decide +kernel⟩

theorem meets_CountersAndUserFunctions_5 : ∃ (s : State) (g : Fin 3) (j : Fin 9), s.inReset = false ∧ s.pmcCounts =
    true ∧ s.pair (pmcAddr g j) = 2 ^ 48 - 1 :=
  ⟨live.setPair (pmcAddr 1 3) (2 ^ 48 - 1), 1, 3,
    by decide +kernel⟩

theorem meets_CountersAndUserFunctions_6 : ∃ (s : State), s.inReset = false ∧ s.runs .register = true ∧
    s.hif.dead.contains .register = false ∧ s.hif.held.any (fun y => decide (y.src = .f1)) = false :=
  ⟨live,
    by decide +kernel⟩

theorem meets_CountersAndUserFunctions_7 : ∃ (s : State), s.inReset = false ∧ s.runs .register = true ∧
    s.hif.dead.contains .register = false ∧ s.hif.held.any (fun y => decide (y.src = .f1)) = false :=
  ⟨live,
    by decide +kernel⟩

theorem meets_PinProtection_1 : ∃ (s : State) (p : Fin 36) (f : PinFault), s.inReset = false ∧ s.diag = true ∧
    s.pinJudged p f = true ∧ s.g (R.IOP_PINp_STATUS p) (pinFaultBits f).1 = 0 ∧ s.g (R.IOP_PINp_CFG p)
    F.IOP_PINp_CFG_MASK = 0 :=
  ⟨live, 5, .legs,
    by decide +kernel⟩

theorem meets_PinProtection_2 : ∃ (s : State) (p : Fin 36) (f : PinFault), s.inReset = false ∧ s.diag = true ∧
    s.pinJudged p f = true ∧ s.g (R.IOP_PINp_STATUS p) (pinFaultBits f).1 = 0 ∧ s.g (R.IOP_PINp_CFG p)
    F.IOP_PINp_CFG_MASK = 1 :=
  ⟨live.p (R.IOP_PINp_CFG 5) F.IOP_PINp_CFG_MASK 1, 5, .gndN,
    by decide +kernel⟩

theorem meets_PinProtection_3 : ∃ (s : State), s.inReset = false ∧ s.diag = true ∧ s.on R.IOP_CTRL
    F.IOP_CTRL_SHORT_OFF = true :=
  ⟨live.p R.IOP_CTRL F.IOP_CTRL_SHORT_OFF 1,
    by decide +kernel⟩

theorem meets_PinProtection_4 : ∃ (s : State), s.inReset = false :=
  ⟨live.p (R.IOP_PINp_STATUS 5) F.IOP_PINp_STATUS_OPEN 1,
    by decide +kernel⟩

theorem meets_PinProtection_5 : ∃ (s : State) (p : Fin 36), s.inReset = false ∧ s.diag = true ∧ s.pinLvds p = true ∧
    s.on (R.IOP_PINp_CFG p) F.IOP_PINp_CFG_POL_HINT = true ∧ s.g (R.IOP_PINp_STATUS p) F.IOP_PINp_STATUS_REVERSED = 0
    ∧ s.g (R.IOP_PINp_CFG p) F.IOP_PINp_CFG_MASK = 0 ∧ s.on (R.IOP_PINp_CFG p) F.IOP_PINp_CFG_POL_AUTO = false :=
  ⟨((live.p (R.IOP_PINp_CFG 23) F.IOP_PINp_CFG_POL_HINT 1)).p (R.IOP_PINp_CFG 23) F.IOP_PINp_CFG_POL_AUTO 0, 23,
    by decide +kernel⟩

theorem meets_PinProtection_6 : ∃ (s : State) (p : Fin 36), s.inReset = false ∧ s.diag = true ∧ s.pinLvds p = true ∧
    s.on (R.IOP_PINp_CFG p) F.IOP_PINp_CFG_POL_HINT = true ∧ s.g (R.IOP_PINp_STATUS p) F.IOP_PINp_STATUS_REVERSED = 0
    ∧ s.g (R.IOP_PINp_CFG p) F.IOP_PINp_CFG_MASK = 0 ∧ s.on (R.IOP_PINp_CFG p) F.IOP_PINp_CFG_POL_AUTO = true ∧ s.g
    (R.IOP_PINp_STATUS p) F.IOP_PINp_STATUS_POL_INV = 0 ∧ 22 ≤ p.val :=
  ⟨((live.p (R.IOP_PINp_CFG 23) F.IOP_PINp_CFG_POL_HINT 1)).p (R.IOP_PINp_CFG 23) F.IOP_PINp_CFG_POL_AUTO 1, 23,
    by decide +kernel⟩

theorem meets_PinProtection_7 : ∃ (s : State) (p : Fin 36), s.inReset = false ∧ s.diag = true ∧ s.pinLvds p = true ∧
    s.on (R.IOP_PINp_CFG p) F.IOP_PINp_CFG_POL_HINT = true ∧ s.g (R.IOP_PINp_STATUS p) F.IOP_PINp_STATUS_REVERSED = 0
    ∧ s.g (R.IOP_PINp_CFG p) F.IOP_PINp_CFG_MASK = 0 ∧ s.on (R.IOP_PINp_CFG p) F.IOP_PINp_CFG_POL_AUTO = true ∧ s.g
    (R.IOP_PINp_STATUS p) F.IOP_PINp_STATUS_POL_INV = 0 ∧ p.val < 4 :=
  ⟨((live.p (R.IOP_PINp_CFG 2) F.IOP_PINp_CFG_POL_HINT 1)).p (R.IOP_PINp_CFG 2) F.IOP_PINp_CFG_POL_AUTO 1 |>.p
    (R.REF_INn_CFG 2) F.REF_INn_CFG_SIG 0, 2,
    by decide +kernel⟩

theorem meets_PinProtection_8 : ∃ (s : State), s.inReset = false :=
  ⟨live.p (R.IOP_PINp_STATUS 5) F.IOP_PINp_STATUS_OFF 1,
    by decide +kernel⟩

theorem meets_PinProtection_9 : ∃ (s : State), s.inReset = false :=
  ⟨live,
    by decide +kernel⟩

theorem meets_PhaseDetectors_1 : ∃ (s : State) (p : Fin 24) (tx : Bool) (raw : Fin 8192), s.inReset = false ∧
    s.pdState p tx = 1 ∧ (pdError (s.pd p tx).hist (pdUnwrap (s.pd p tx).hist raw)).1.natAbs * 1000 ≤ 4 * 4096 *
    (pdError (s.pd p tx).hist (pdUnwrap (s.pd p tx).hist raw)).2 ∧ (s.pd p tx).good = 1023 :=
  ⟨{ live.setPd 3 false 1 with pts := [(3, { Pts.reset with rx := ⟨1023, [700]⟩ })] }, 3, false, 701,
    by decide +kernel⟩

theorem meets_PhaseDetectors_2 : ∃ (s : State) (p : Fin 24) (tx : Bool) (raw : Fin 8192), s.inReset = false ∧
    s.pdState p tx = 1 ∧ (pdError (s.pd p tx).hist (pdUnwrap (s.pd p tx).hist raw)).1.natAbs * 1000 ≤ 4 * 4096 *
    (pdError (s.pd p tx).hist (pdUnwrap (s.pd p tx).hist raw)).2 → (s.pd p tx).good < 1023 :=
  ⟨{ live.setPd 3 false 1 with pts := [(3, { Pts.reset with rx := ⟨10, [700]⟩ })] }, 3, false, 701,
    by decide +kernel⟩

theorem meets_PhaseDetectors_3 : ∃ (s : State) (p : Fin 24) (tx : Bool) (raw : Fin 8192), s.inReset = false ∧
    s.pdState p tx = 2 ∧ 20 * 4096 * (pdError (s.pd p tx).hist (pdUnwrap (s.pd p tx).hist raw)).2 < (pdError (s.pd p
    tx).hist (pdUnwrap (s.pd p tx).hist raw)).1.natAbs * 1000 :=
  ⟨{ live.setPd 3 false 2 with pts := [(3, { Pts.reset with rx := ⟨1023, [700]⟩ })] }, 3, false, 2701,
    by decide +kernel⟩

theorem meets_PhaseDetectors_4 : ∃ (s : State) (p : Fin 24) (tx : Bool) (raw : Fin 8192), s.inReset = false ∧
    s.pdState p tx = 2 ∧ ¬ (20 * 4096 * (pdError (s.pd p tx).hist (pdUnwrap (s.pd p tx).hist raw)).2 < (pdError (s.pd
    p tx).hist (pdUnwrap (s.pd p tx).hist raw)).1.natAbs * 1000) :=
  ⟨{ live.setPd 3 false 2 with pts := [(3, { Pts.reset with rx := ⟨1023, [700]⟩ })] }, 3, false, 702,
    by decide +kernel⟩

theorem meets_PhaseDetectors_5 : ∃ (s : State) (tx : Bool), s.inReset = false ∧ (if tx then s.guy.txState else
    s.guy.rxState) ≠ 0 :=
  ⟨{ live with guy := { live.guy with rxState := 1 } }, false,
    by decide +kernel⟩

theorem meets_LinkDelayAndLoopback_1 : ∃ (s : State) (p : Fin 24), s.inReset = false ∧ (¬ (s.ptpState p = ptpSlave ∧
    s.on (R.PTS_STATUS p) F.PTS_STATUS_LD_VALID = false)) :=
  ⟨live, 3,
    by decide +kernel⟩

theorem meets_LinkDelayAndLoopback_2 : ∃ (s : State) (p : Fin 24), s.inReset = false ∧ s.on (R.PTS_STATUS p)
    F.PTS_STATUS_LD_VALID = false ∧ s.g (R.PTS_LD_CFG p) F.PTS_LD_CFG_LOG2_N = 0 :=
  ⟨live.setReg (R.PTS_LD_CFG 3) (F.PTS_LD_CFG_LOG2_N.put (live.reg (R.PTS_LD_CFG 3)) 0), 3,
    by decide +kernel⟩

theorem meets_LinkDelayAndLoopback_3 : ∃ (s : State) (p : Fin 24) (t1 : Tick64) (t2 : Tick64) (t3 : Tick64) (t4 :
    Tick64), s.inReset = false ∧ s.on (R.PTS_STATUS p) F.PTS_STATUS_LD_VALID = true ∧ (s.g (R.PTS_LD_CFG p)
    F.PTS_LD_CFG_OUTLIER_PS * 65536 : Nat) < |((tickDiff t4 t1 - tickDiff t3 t2 + 1) / 2) - s.pairI (R.PTS_LD_MEAN_LO
    p)| * 1000 ∧ (s.ptsOf p).outliers < 7 :=
  ⟨(live.p (R.PTS_STATUS 3) F.PTS_STATUS_LD_VALID 1), 3, 0#64, 0#64, 0#64, 9000000#64,
    by decide +kernel⟩

theorem meets_LinkDelayAndLoopback_4 : ∃ (s : State) (p : Fin 24) (t1 : Tick64) (t2 : Tick64) (t3 : Tick64) (t4 :
    Tick64), s.inReset = false ∧ s.on (R.PTS_STATUS p) F.PTS_STATUS_LD_VALID = true ∧ s.ptpState p ≠ ptpSlave ∧ (s.g
    (R.PTS_LD_CFG p) F.PTS_LD_CFG_OUTLIER_PS * 65536 : Nat) < |((tickDiff t4 t1 - tickDiff t3 t2 + 1) / 2) - s.pairI
    (R.PTS_LD_MEAN_LO p)| * 1000 ∧ 7 ≤ (s.ptsOf p).outliers ∧ s.hif.fq.length < 32 :=
  ⟨{ (live.p (R.PTS_STATUS 3) F.PTS_STATUS_LD_VALID 1) with pts := [(3, { Pts.reset with outliers := 7 })] }, 3,
    0#64, 0#64, 0#64, 9000000#64,
    by decide +kernel⟩

theorem meets_LinkDelayAndLoopback_5 : ∃ (s : State) (p : Fin 24) (t1 : Tick64) (t2 : Tick64) (t3 : Tick64) (t4 :
    Tick64), s.inReset = false ∧ (¬ (s.ptpState p = ptpSlave ∧ s.on (R.PTS_STATUS p) F.PTS_STATUS_LD_VALID = false))
    ∧ (s.on (R.PTS_STATUS p) F.PTS_STATUS_LD_VALID = true → |((tickDiff t4 t1 - tickDiff t3 t2 + 1) / 2) - s.pairI
    (R.PTS_LD_MEAN_LO p)| * 1000 ≤ (s.g (R.PTS_LD_CFG p) F.PTS_LD_CFG_OUTLIER_PS * 65536 : Nat)) :=
  ⟨live, 3, 100#64, 1000#64, 1100#64, 900#64,
    by decide +kernel⟩

theorem meets_LinkDelayAndLoopback_6 : ∃ (s : State) (p : Fin 24), s.accepts (R.PTS_FTEMP_NOW p) :=
  ⟨live, 3,
    by decide +kernel⟩

theorem meets_LinkDelayAndLoopback_7 : ∃ (s : State) (p : Fin 24), s.inReset = false ∧ s.on (R.PTS_CFG p)
    F.PTS_CFG_FTEMP_EN = true :=
  ⟨live.p (R.PTS_CFG 3) F.PTS_CFG_FTEMP_EN 1, 3,
    by decide +kernel⟩

theorem meets_LinkDelayAndLoopback_8 : ∃ (s : State) (p : Fin 24) (r : Word × Word × Word × Word) (l : List (Word ×
    Word × Word × Word)), s.accepts (R.PTS_FIFO_POP p) ∧ (s.ptsOf p).fifo = r :: l ∧ l.length < 64 :=
  ⟨{ live with pts := [(3, { Pts.reset with fifo := [(1, 2, 3, 4), (5, 6, 7, 8)] })] }, 3, (1, 2, 3, 4), [(5, 6, 7,
    8)],
    by decide +kernel⟩

theorem meets_LinkDelayAndLoopback_9 : ∃ (s : State) (p : Fin 24), s.accepts (R.PTS_LOOP_CTRL p) ∧ s.looping p =
    false :=
  ⟨live, 3,
    by decide +kernel⟩

theorem meets_LinkDelayAndLoopback_10 : ∃ (s : State) (p : Fin 24) (v : Word), s.accepts (R.PTS_LOOP_CTRL p) ∧
    s.looping p = true ∧ F.PTS_LOOP_CTRL_GO.get v = 0 :=
  ⟨live.setRegN (R.PTS_LOOP_STATUS 3) 0xffffffff, 3, 0x100#32,
    by decide +kernel⟩

theorem meets_LinkDelayAndLoopback_11 : ∃ (s : State) (p : Fin 24), s.inReset = false ∧ s.running = true ∧ s.looping
    p = true ∧ (s.ptsOf p).loop.sent < s.g (R.PTS_LOOP_CTRL p) F.PTS_LOOP_CTRL_N :=
  ⟨(live.p (R.PTS_LOOP_STATUS 3) F.PTS_LOOP_STATUS_RUNNING 1).p (R.PTS_LOOP_CTRL 3) F.PTS_LOOP_CTRL_N 4, 3,
    by decide +kernel⟩

theorem meets_LinkDelayAndLoopback_12 : ∃ (s : State) (p : Fin 24) (q : Nat) (x : StampIn) (d : Stamp), s.inReset =
    false ∧ s.running = true ∧ s.looping p = true ∧ Tbl.get none (s.ptsOf p).loop.way q = some d ∧ stampClean d =
    true ∧ stampClean (s.rxStamp p x) = true :=
  ⟨{ ((live.p (R.PTS_LOOP_STATUS 3) F.PTS_LOOP_STATUS_RUNNING 1).p (R.PTS_LOOP_CTRL 3) F.PTS_LOOP_CTRL_N 4).setPd 3 false 2 with pts := [(3, { Pts.reset with loop := ⟨2, [(0, some ⟨mkT96 5 100 0, false, false, false, 0⟩)], 0, 0, 0⟩ })] },
    3, 0, ⟨0, 0, 0, ⟨0, 0, 0⟩, 0, false⟩, ⟨mkT96 5 100 0, false, false, false, 0⟩,
    by decide +kernel⟩

theorem meets_LinkDelayAndLoopback_13 : ∃ (s : State) (p : Fin 24) (q : Nat), s.inReset = false ∧ s.looping p = true
    ∧ (Tbl.get none (s.ptsOf p).loop.way q).isSome = true :=
  ⟨{ (live.p (R.PTS_LOOP_STATUS 3) F.PTS_LOOP_STATUS_RUNNING 1).p (R.PTS_LOOP_CTRL 3) F.PTS_LOOP_CTRL_N 4 with pts := [(3, { Pts.reset with loop := ⟨2, [(0, some ⟨mkT96 5 100 0, false, false, false, 0⟩)], 0, 0, 0⟩ })] },
    3, 0,
    by decide +kernel⟩

theorem meets_LinkDelayAndLoopback_14 : ∃ (s : State) (p : Fin 24), s.inReset = false ∧ s.looping p = true ∧ (s.ptsOf
    p).loop.way = [] ∧ (s.ptsOf p).loop.sent = s.g (R.PTS_LOOP_CTRL p) F.PTS_LOOP_CTRL_N ∧ s.g (R.PTS_LOOP_STATUS p)
    F.PTS_LOOP_STATUS_ACCEPTED ≠ 0 :=
  ⟨{ ((live.p (R.PTS_LOOP_STATUS 3) F.PTS_LOOP_STATUS_RUNNING 1).p (R.PTS_LOOP_CTRL 3) F.PTS_LOOP_CTRL_N 4).p (R.PTS_LOOP_STATUS 3) F.PTS_LOOP_STATUS_ACCEPTED 3 with pts := [(3, { Pts.reset with loop := ⟨4, [], 1000, 5, 900⟩ })] },
    3,
    by decide +kernel⟩

theorem meets_LinkDelayAndLoopback_15 : ∃ (s : State) (p : Fin 24) (q : Nat) (x : StampIn) (d : Stamp), s.inReset =
    false ∧ s.running = true ∧ s.looping p = true ∧ Tbl.get none (s.ptsOf p).loop.way q = some d ∧ (stampClean d &&
    stampClean (s.rxStamp p x)) = false :=
  ⟨{ (live.p (R.PTS_LOOP_STATUS 3) F.PTS_LOOP_STATUS_RUNNING 1).p (R.PTS_LOOP_CTRL 3) F.PTS_LOOP_CTRL_N 4 with pts := [(3, { Pts.reset with loop := ⟨2, [(0, some ⟨mkT96 5 100 0, false, false, false, 0⟩)], 0, 0, 0⟩ })] },
    3, 0, ⟨0, 0, 0, ⟨0, 0, 0⟩, 0, false⟩, ⟨mkT96 5 100 0, false, false, false, 0⟩,
    by decide +kernel⟩

theorem meets_LinkDelayAndLoopback_16 : ∃ (s : State) (p : Fin 24), s.inReset = false ∧ s.looping p = true ∧ (s.ptsOf
    p).loop.way = [] ∧ (s.ptsOf p).loop.sent = s.g (R.PTS_LOOP_CTRL p) F.PTS_LOOP_CTRL_N ∧ s.g (R.PTS_LOOP_STATUS p)
    F.PTS_LOOP_STATUS_ACCEPTED = 0 :=
  ⟨{ ((live.p (R.PTS_LOOP_STATUS 3) F.PTS_LOOP_STATUS_RUNNING 1).p (R.PTS_LOOP_CTRL 3) F.PTS_LOOP_CTRL_N 4) with pts := [(3, { Pts.reset with loop := ⟨4, [], 1000, 5, 900⟩ })] },
    3,
    by decide +kernel⟩

theorem meets_LanesAndBlockLock_1 : ∃ (s : State) (p : Fin 24), s.inReset = false ∧ s.fwdOk ∧ s.syn.lanes.count p.val
    = 1 :=
  ⟨{ ((live.p (R.MAC_Pn_STATUS 3) F.MAC_Pn_STATUS_BLOCK_LOCK 1).p (R.PTS_STATUS 3) F.PTS_STATUS_LANE_LOCK 1) with syn := { live.syn with lanes := List.range 28 }, fwd := { live.fwd with nextId := 9, frames := [(⟨5, 7, 0, (withFcs (List.replicate 60 1#8)), ⟨mkT96 5 100 0, false, false, false, 0⟩, false, none, none, false, 64, 0, 0, .min 26, some (Looked.nothing (headsOf (withFcs (List.replicate 60 1#8)) 0) 1 2 0 0 none 0 false), true, [], false, none⟩ : Frame)] } },
    3,
    by decide +kernel⟩

theorem meets_LanesAndBlockLock_2 : ∃ (s : State) (p : Fin 24), s.inReset = false ∧ s.fwdOk ∧ s.syn.lanes.count p.val
    = 1 ∧ Tbl.get none s.fwd.sending p = none :=
  ⟨{ ((live.p (R.MAC_Pn_STATUS 3) F.MAC_Pn_STATUS_BLOCK_LOCK 1).p (R.PTS_STATUS 3) F.PTS_STATUS_LANE_LOCK 1) with syn := { live.syn with lanes := List.range 28 }, fwd := { live.fwd with nextId := 9, frames := [(⟨5, 7, 0, (withFcs (List.replicate 60 1#8)), ⟨mkT96 5 100 0, false, false, false, 0⟩, false, none, none, false, 64, 0, 0, .min 26, some (Looked.nothing (headsOf (withFcs (List.replicate 60 1#8)) 0) 1 2 0 0 none 0 false), true, [], false, none⟩ : Frame)] } },
    3,
    by decide +kernel⟩

theorem meets_LanesAndBlockLock_3 : ∃ (s : State) (p : Fin 24) (y : Sending) (f : Frame) (l : Looked), s.inReset =
    false ∧ s.fwdOk ∧ s.syn.lanes.count p.val = 1 ∧ Tbl.get none s.fwd.sending p = some y ∧ s.frameOf y.copy.frame =
    some f ∧ f.look = some l :=
  ⟨{ ((live.p (R.MAC_Pn_STATUS 3) F.MAC_Pn_STATUS_BLOCK_LOCK 1).p (R.PTS_STATUS 3) F.PTS_STATUS_LANE_LOCK 1) with syn := { live.syn with lanes := List.range 28 }, fwd := { live.fwd with nextId := 9, frames := [(⟨5, 7, 0, (withFcs (List.replicate 60 1#8)), ⟨mkT96 5 100 0, false, false, false, 0⟩, false, none, none, false, 64, 0, 0, .min 26, some (Looked.nothing (headsOf (withFcs (List.replicate 60 1#8)) 0) 1 2 0 0 none 0 false), true, [], false, none⟩ : Frame)], sending := [(3, some (⟨⟨5, 3, 2, 0, true, false, 0⟩, ⟨mkT96 5 300 0, false, false, false, 0⟩⟩ : Sending))] } },
    3, (⟨⟨5, 3, 2, 0, true, false, 0⟩, ⟨mkT96 5 300 0, false, false, false, 0⟩⟩ : Sending), (⟨5, 7, 0, (withFcs
    (List.replicate 60 1#8)), ⟨mkT96 5 100 0, false, false, false, 0⟩, false, none, none, false, 64, 0, 0, .min 26,
    some (Looked.nothing (headsOf (withFcs (List.replicate 60 1#8)) 0) 1 2 0 0 none 0 false), true, [], false, none⟩
    : Frame), (Looked.nothing (headsOf (withFcs (List.replicate 60 1#8)) 0) 1 2 0 0 none 0 false),
    by decide +kernel⟩

theorem meets_LanesAndBlockLock_4 : ∃ (s : State) (n : Fin 28), s.inReset = false ∧ s.syn.lanes.contains n.val =
    false :=
  ⟨live, 3,
    by decide +kernel⟩

theorem meets_LanesAndBlockLock_5 : ∃ (s : State) (q : Fin 4), s.inReset = false ∧ s.syn.lanes.count (24 + q.val) = 1
    :=
  ⟨{ live with syn := { live.syn with lanes := List.range 28 } }, 2,
    by decide +kernel⟩

theorem meets_LanesAndBlockLock_6 : ∃ (s : State) (p : Fin 24), s.inReset = false ∧ s.fwdOk ∧ s.g (R.MAC_Pn_STATUS p)
    F.MAC_Pn_STATUS_BLOCK_LOCK = 1 :=
  ⟨live.p (R.MAC_Pn_STATUS 3) F.MAC_Pn_STATUS_BLOCK_LOCK 1, 3,
    by decide +kernel⟩

theorem meets_LanesAndBlockLock_7 : ∃ (s : State) (p : Fin 24), s.inReset = false ∧ s.fwdOk ∧ s.g (R.MAC_Pn_STATUS p)
    F.MAC_Pn_STATUS_BLOCK_LOCK = 0 :=
  ⟨live, 3,
    by decide +kernel⟩

theorem meets_LanesAndBlockLock_8 : ∃ (s : State) (p : Fin 24), s.inReset = false ∧ s.on (R.MAC_Pn_CFG p)
    F.MAC_Pn_CFG_EN = true ∧ s.on (R.PTS_STATUS p) F.PTS_STATUS_LANE_LOCK = true ∧ s.g (R.MAC_Pn_STATUS p)
    F.MAC_Pn_STATUS_BLOCK_LOCK = 0 :=
  ⟨(live.p (R.PTS_STATUS 3) F.PTS_STATUS_LANE_LOCK 1).p (R.MAC_Pn_CFG 3) F.MAC_Pn_CFG_EN 1, 3,
    by decide +kernel⟩

theorem meets_LanesAndBlockLock_9 : ∃ (s : State) (p : Fin 24) (v : Word), s.accepts (R.MAC_Pn_CFG p) ∧ s.formWord
    (R.MAC_Pn_CFG p) v ≠ s.reg (R.MAC_Pn_CFG p) ∧ F.MAC_Pn_CFG_EN.get (s.formWord (R.MAC_Pn_CFG p) v) = 1 :=
  ⟨live, 3, 0x00000003#32,
    by decide +kernel⟩

theorem meets_LanesAndBlockLock_10 : ∃ (s : State) (p : Fin 24) (v : Word), s.accepts (R.MAC_Pn_CFG p) ∧ s.formWord
    (R.MAC_Pn_CFG p) v ≠ s.reg (R.MAC_Pn_CFG p) ∧ F.MAC_Pn_CFG_EN.get (s.formWord (R.MAC_Pn_CFG p) v) = 0 :=
  ⟨(live.p (R.MAC_Pn_CFG 3) F.MAC_Pn_CFG_EN 1).p (R.MAC_Pn_STATUS 3) F.MAC_Pn_STATUS_BLOCK_LOCK 1, 3, 0,
    by decide +kernel⟩

theorem meets_LanesAndBlockLock_11 : ∃ (s : State) (p : Fin 24) (v : Word), s.accepts (R.MAC_Pn_CFG p) ∧ s.formWord
    (R.MAC_Pn_CFG p) v = s.reg (R.MAC_Pn_CFG p) :=
  ⟨live, 3, 0,
    by decide +kernel⟩

theorem meets_PtpAnnouncesAndSyncs_1 : ∃ (s : State) (p : Fin 24) (m : List Byte), s.inReset = false ∧ s.running =
    true ∧ s.consumes p m = true ∧ msgOk 11 m = true ∧ s.ptpState p = ptpListening ∧ s.claimTlvs m = [] ∧
    s.announceOk p m = true :=
  ⟨slave.setPtpState 3 4, 3, ptpMsg 11 0 9 0xAABBCCDDEEFF00110001 (List.replicate 30 0#8),
    by decide +kernel⟩

theorem meets_PtpAnnouncesAndSyncs_2 : ∃ (s : State) (p : Fin 24) (m : List Byte), s.inReset = false ∧ s.running =
    true ∧ s.consumes p m = true ∧ msgOk 11 m = true ∧ 3 ≤ s.ptpState p ∧ s.claimTlvs m = [] ∧ s.announceOk p m =
    false :=
  ⟨slave.setPtpState 3 4, 3, ptpMsg 11 0 9 (0x1122334455667788 * 65536 + 1) (List.replicate 30 0#8),
    by decide +kernel⟩

theorem meets_PtpAnnouncesAndSyncs_3 : ∃ (s : State) (p : Fin 24), s.inReset = false ∧ (s.ptpState p = ptpUncal ∨
    s.ptpState p = ptpSlave) :=
  ⟨slave, 3,
    by decide +kernel⟩

theorem meets_PtpAnnouncesAndSyncs_4 : ∃ (s : State) (p : Fin 24) (m : List Byte), s.inReset = false ∧ s.running =
    true ∧ s.consumes p m = true ∧ msgOk 11 m = true ∧ s.ptpState p = ptpMaster :=
  ⟨master, 3, ptpMsg 11 0 9 0xAABBCCDDEEFF00110001 (List.replicate 30 0#8),
    by decide +kernel⟩

theorem meets_PtpAnnouncesAndSyncs_5 : ∃ (s : State) (p : Fin 24) (m : List Byte), s.inReset = false ∧ s.running =
    true ∧ s.consumes p m = true ∧ msgOk 11 m = true ∧ s.ptpState p < 2 :=
  ⟨slave.setPtpState 3 1, 3, ptpMsg 11 0 9 0xAABBCCDDEEFF00110001 (List.replicate 30 0#8),
    by decide +kernel⟩

theorem meets_PtpAnnouncesAndSyncs_6 : ∃ (s : State) (p : Fin 24) (m : List Byte), s.inReset = false ∧ s.running =
    true ∧ s.consumes p m = true ∧ msgOk 11 m = true ∧ 3 ≤ s.ptpState p ∧ s.announceOk p m = true ∧ s.claimTlvs m =
    [] :=
  ⟨slave.setPtpState 3 3, 3, ptpMsg 11 0 9 0xAABBCCDDEEFF00110001 (List.replicate 30 0#8),
    by decide +kernel⟩

theorem meets_PtpAnnouncesAndSyncs_7 : ∃ (s : State) (p : Fin 24) (m : List Byte), s.inReset = false ∧ s.running =
    true ∧ s.consumes p m = true ∧ msgOk 11 m = true ∧ (s.ptpState p = ptpUncal ∨ s.ptpState p = ptpSlave) ∧
    s.announceOk p m = true ∧ s.parentOf p ≠ msgSource m ∧ s.claimTlvs m = [] :=
  ⟨slave, 3, ptpMsg 11 0 9 0xAABBCCDDEEFF00110002 (List.replicate 30 0#8),
    by decide +kernel⟩

theorem meets_PtpAnnouncesAndSyncs_8 : ∃ (s : State) (p : Fin 24) (m : List Byte), s.inReset = false ∧ s.running =
    true ∧ s.consumes p m = true ∧ msgOk 11 m = true ∧ s.ptpState p = ptpPassive ∧ s.announceOk p m = true ∧
    s.claimTlvs m = [] :=
  ⟨slave.setPtpState 3 3, 3, ptpMsg 11 0 9 0xAABBCCDDEEFF00110001 (List.replicate 30 0#8),
    by decide +kernel⟩

theorem meets_PtpAnnouncesAndSyncs_9 : ∃ (s : State) (p : Fin 24) (m : List Byte) (b : List Byte), s.inReset = false
    ∧ s.running = true ∧ s.consumes p m = true ∧ msgOk 11 m = true ∧ 3 ≤ s.ptpState p ∧ s.announceOk p m = true ∧
    s.claimTlvs m = [b] ∧ tlvOk b = true :=
  ⟨slave, 3, ptpMsg 11 0 9 0xAABBCCDDEEFF00110001 (List.replicate 30 0#8 ++ beBytes 2 3 ++ (beBytes 2 16 ++ beBytes 3
    0x6AB257 ++ beBytes 3 1 ++ [0#8, 0#8, 5#8, 32#8, 0#8, 9#8, 192#8, 0#8] ++ beBytes 2 (crc16Fold 0x1021 0xFFFF
    [0#8, 0#8, 5#8, 32#8, 0#8, 9#8, 192#8, 0#8]))), (beBytes 2 16 ++ beBytes 3 0x6AB257 ++ beBytes 3 1 ++ [0#8, 0#8,
    5#8, 32#8, 0#8, 9#8, 192#8, 0#8] ++ beBytes 2 (crc16Fold 0x1021 0xFFFF [0#8, 0#8, 5#8, 32#8, 0#8, 9#8, 192#8,
    0#8])),
    by decide +kernel⟩

theorem meets_PtpAnnouncesAndSyncs_10 : ∃ (s : State) (p : Fin 24) (m : List Byte) (b : List Byte), s.inReset = false
    ∧ s.running = true ∧ s.consumes p m = true ∧ msgOk 11 m = true ∧ 3 ≤ s.ptpState p ∧ s.announceOk p m = false ∧
    s.claimTlvs m = [b] ∧ tlvOk b = false :=
  ⟨slave, 3, ptpMsg 11 0 9 (0x1122334455667788 * 65536 + 1) (List.replicate 30 0#8 ++ beBytes 2 3 ++ beBytes 2 6 ++
    beBytes 3 0x6AB257 ++ beBytes 3 1), beBytes 2 6 ++ beBytes 3 0x6AB257 ++ beBytes 3 1,
    by decide +kernel⟩

theorem meets_PtpAnnouncesAndSyncs_11 : ∃ (s : State) (p : Fin 24) (m : List Byte), s.inReset = false ∧ s.running =
    true ∧ s.consumes p m = true ∧ msgOk 11 m = false :=
  ⟨slave, 3, ptpMsg 11 0 9 0xAABBCCDDEEFF00110001 [],
    by decide +kernel⟩

theorem meets_PtpAnnouncesAndSyncs_12 : ∃ (s : State) (p : Fin 24) (m : List Byte), s.inReset = false ∧ (s.running =
    false ∨ s.consumes p m = false) :=
  ⟨slave.p (R.PTP_Pn_CFG 3) F.PTP_Pn_CFG_ROLE 0, 3, ptpMsg 11 0 9 0xAABBCCDDEEFF00110001 [],
    by decide +kernel⟩

theorem meets_PtpAnnouncesAndSyncs_13 : ∃ (s : State) (p : Fin 24) (m : List Byte), s.inReset = false ∧ s.running =
    true ∧ s.consumes p m = true ∧ msgOk 0 m = false :=
  ⟨slave, 3, ptpMsg 0 0 9 0xAABBCCDDEEFF00110001 [],
    by decide +kernel⟩

theorem meets_PtpAnnouncesAndSyncs_14 : ∃ (s : State) (p : Fin 24) (m : List Byte), s.inReset = false ∧ (s.running =
    false ∨ s.consumes p m = false) :=
  ⟨slave.p (R.PTP_Pn_CFG 3) F.PTP_Pn_CFG_ROLE 0, 3, ptpMsg 0 0 9 0xAABBCCDDEEFF00110001 [],
    by decide +kernel⟩

theorem meets_PtpAnnouncesAndSyncs_15 : ∃ (s : State) (p : Fin 24) (m : List Byte), s.inReset = false ∧ s.running =
    true ∧ s.consumes p m = true ∧ msgOk 8 m = false :=
  ⟨slave, 3, ptpMsg 8 0 9 0xAABBCCDDEEFF00110001 [],
    by decide +kernel⟩

theorem meets_PtpAnnouncesAndSyncs_16 : ∃ (s : State) (p : Fin 24) (m : List Byte), s.inReset = false ∧ (s.running =
    false ∨ s.consumes p m = false) :=
  ⟨slave.p (R.PTP_Pn_CFG 3) F.PTP_Pn_CFG_ROLE 0, 3, ptpMsg 8 0 9 0xAABBCCDDEEFF00110001 [],
    by decide +kernel⟩

theorem meets_PtpAnnouncesAndSyncs_17 : ∃ (s : State) (p : Fin 24) (m : List Byte), s.inReset = false ∧ s.running =
    true ∧ s.consumes p m = true ∧ msgOk 1 m = false :=
  ⟨slave, 3, ptpMsg 1 0 9 0xAABBCCDDEEFF00110001 [],
    by decide +kernel⟩

theorem meets_PtpAnnouncesAndSyncs_18 : ∃ (s : State) (p : Fin 24) (m : List Byte), s.inReset = false ∧ (s.running =
    false ∨ s.consumes p m = false) :=
  ⟨slave.p (R.PTP_Pn_CFG 3) F.PTP_Pn_CFG_ROLE 0, 3, ptpMsg 1 0 9 0xAABBCCDDEEFF00110001 [],
    by decide +kernel⟩

theorem meets_PtpAnnouncesAndSyncs_19 : ∃ (s : State) (p : Fin 24) (m : List Byte), s.inReset = false ∧ s.running =
    true ∧ s.consumes p m = true ∧ msgOk 9 m = false :=
  ⟨slave, 3, ptpMsg 9 0 9 0xAABBCCDDEEFF00110001 [],
    by decide +kernel⟩

theorem meets_PtpAnnouncesAndSyncs_20 : ∃ (s : State) (p : Fin 24) (m : List Byte), s.inReset = false ∧ (s.running =
    false ∨ s.consumes p m = false) :=
  ⟨slave.p (R.PTP_Pn_CFG 3) F.PTP_Pn_CFG_ROLE 0, 3, ptpMsg 9 0 9 0xAABBCCDDEEFF00110001 [],
    by decide +kernel⟩

theorem meets_PtpAnnouncesAndSyncs_21 : ∃ (s : State) (p : Fin 24) (m : List Byte), s.inReset = false ∧ s.running =
    true ∧ s.consumes p m = true ∧ msgOk 2 m = false :=
  ⟨slave, 3, ptpMsg 2 0 9 0xAABBCCDDEEFF00110001 [],
    by decide +kernel⟩

theorem meets_PtpAnnouncesAndSyncs_22 : ∃ (s : State) (p : Fin 24) (m : List Byte), s.inReset = false ∧ (s.running =
    false ∨ s.consumes p m = false) :=
  ⟨slave.p (R.PTP_Pn_CFG 3) F.PTP_Pn_CFG_ROLE 0, 3, ptpMsg 2 0 9 0xAABBCCDDEEFF00110001 [],
    by decide +kernel⟩

theorem meets_PtpAnnouncesAndSyncs_23 : ∃ (s : State) (p : Fin 24) (m : List Byte), s.inReset = false ∧ s.running =
    true ∧ s.consumes p m = true ∧ msgOk 3 m = false :=
  ⟨slave, 3, ptpMsg 3 0 9 0xAABBCCDDEEFF00110001 [],
    by decide +kernel⟩

theorem meets_PtpAnnouncesAndSyncs_24 : ∃ (s : State) (p : Fin 24) (m : List Byte), s.inReset = false ∧ (s.running =
    false ∨ s.consumes p m = false) :=
  ⟨slave.p (R.PTP_Pn_CFG 3) F.PTP_Pn_CFG_ROLE 0, 3, ptpMsg 3 0 9 0xAABBCCDDEEFF00110001 [],
    by decide +kernel⟩

theorem meets_PtpAnnouncesAndSyncs_25 : ∃ (s : State) (p : Fin 24) (m : List Byte), s.inReset = false ∧ s.running =
    true ∧ s.consumes p m = true ∧ msgOk 10 m = false :=
  ⟨slave, 3, ptpMsg 10 0 9 0xAABBCCDDEEFF00110001 [],
    by decide +kernel⟩

theorem meets_PtpAnnouncesAndSyncs_26 : ∃ (s : State) (p : Fin 24) (m : List Byte), s.inReset = false ∧ (s.running =
    false ∨ s.consumes p m = false) :=
  ⟨slave.p (R.PTP_Pn_CFG 3) F.PTP_Pn_CFG_ROLE 0, 3, ptpMsg 10 0 9 0xAABBCCDDEEFF00110001 [],
    by decide +kernel⟩

theorem meets_PtpAnnouncesAndSyncs_27 : ∃ (s : State) (p : Fin 24) (m : List Byte), s.inReset = false ∧ s.running =
    true ∧ s.consumes p m = true ∧ msgOk 0 m = true ∧ s.fromParent p m = true ∧ msgTwoStep m = true ∧ (s.pport
    p).wait = none :=
  ⟨slave, 3, ptpMsg 0 0x0200 9 0xAABBCCDDEEFF00110001 (List.replicate 10 0#8),
    by decide +kernel⟩

theorem meets_PtpAnnouncesAndSyncs_28 : ∃ (s : State) (p : Fin 24) (m : List Byte) (w : SyncWait), s.inReset = false
    ∧ s.running = true ∧ s.consumes p m = true ∧ msgOk 8 m = true ∧ s.fromParent p m = true ∧ (s.pport p).wait = some
    w ∧ w.seq = msgSeq m ∧ s.g (R.PTS_STATUS p) F.PTS_STATUS_LD_VALID = 0 :=
  ⟨{ slave with ptp := { live.ptp with ports := [(3, { PtpPort.reset with wait := some ⟨9, ⟨mkT96 5 100 0, false, false, false, 0⟩, 7, 0, 0, 0, false⟩ })] } },
    3, ptpMsg 8 0 9 0xAABBCCDDEEFF00110001 (List.replicate 10 0#8), ⟨9, ⟨mkT96 5 100 0, false, false, false, 0⟩, 7,
    0, 0, 0, false⟩,
    by decide +kernel⟩

theorem meets_PtpAnnouncesAndSyncs_29 : ∃ (s : State) (p : Fin 24) (w : SyncWait), s.inReset = false ∧ (s.pport
    p).wait = some w :=
  ⟨{ slave with ptp := { live.ptp with ports := [(3, { PtpPort.reset with wait := some ⟨9, ⟨mkT96 5 100 0, false, false, false, 0⟩, 7, 0, 0, 0, false⟩ })] } },
    3, ⟨9, ⟨mkT96 5 100 0, false, false, false, 0⟩, 7, 0, 0, 0, false⟩,
    by decide +kernel⟩

theorem meets_PtpAnnouncesAndSyncs_30 : ∃ (s : State) (p : Fin 24) (m : List Byte) (x : StampIn), s.inReset = false ∧
    s.running = true ∧ s.consumes p m = true ∧ msgOk 0 m = true ∧ s.fromParent p m = true ∧ msgTwoStep m = false ∧
    (s.pport p).wait = none ∧ s.ptpState p = ptpSlave ∧ s.servoPort ≠ p ∧ s.g (R.PTS_STATUS p) F.PTS_STATUS_LD_VALID
    = 1 ∧ stampClean (s.rxStamp p x) = true ∧ (t96Diff (s.rxStamp p x).t (msgTime m)).2 = false ∧ ((t96Diff
    (s.rxStamp p x).t (msgTime m)).1 - (msgCorr m) - s.pairI (R.PTS_LD_IN_LO p)) = satS 64 ((t96Diff (s.rxStamp p
    x).t (msgTime m)).1 - (msgCorr m) - s.pairI (R.PTS_LD_IN_LO p)) :=
  ⟨((slave.setPtpState 3 6).p (R.PTS_STATUS 3) F.PTS_STATUS_RX_PD 2).p (R.PTS_STATUS 3) F.PTS_STATUS_LD_VALID 1, 3,
    ptpMsg 0 0 9 0xAABBCCDDEEFF00110001 (List.replicate 10 0#8), ⟨0, 0, 0, ⟨0, 0, 0⟩, 0, false⟩,
    by decide +kernel⟩

theorem meets_PtpAnnouncesAndSyncs_31 : ∃ (s : State) (p : Fin 24) (m : List Byte) (x : StampIn), s.inReset = false ∧
    s.running = true ∧ s.consumes p m = true ∧ msgOk 0 m = true ∧ s.fromParent p m = true ∧ msgTwoStep m = false ∧
    (s.pport p).wait = none ∧ (stampClean (s.rxStamp p x) = false ∨ s.g (R.PTS_STATUS p) F.PTS_STATUS_LD_VALID = 0) :=
  ⟨slave, 3, ptpMsg 0 0 9 0xAABBCCDDEEFF00110001 (List.replicate 10 0#8), ⟨0, 0, 0, ⟨0, 0, 0⟩, 0, false⟩,
    by decide +kernel⟩

theorem meets_PtpAnnouncesAndSyncs_32 : ∃ (s : State) (p : Fin 24) (m : List Byte) (w : SyncWait), s.inReset = false
    ∧ s.running = true ∧ s.consumes p m = true ∧ msgOk 0 m = true ∧ s.fromParent p m = true ∧ msgTwoStep m = true ∧
    (s.pport p).wait = some w :=
  ⟨{ slave with ptp := { live.ptp with ports := [(3, { PtpPort.reset with wait := some ⟨9, ⟨mkT96 5 100 0, false, false, false, 0⟩, 7, 0, 0, 0, false⟩ })] } },
    3, ptpMsg 0 0x0200 10 0xAABBCCDDEEFF00110001 (List.replicate 10 0#8), ⟨9, ⟨mkT96 5 100 0, false, false, false,
    0⟩, 7, 0, 0, 0, false⟩,
    by decide +kernel⟩

theorem meets_PtpAnnouncesAndSyncs_33 : ∃ (s : State) (p : Fin 24) (m : List Byte), s.inReset = false ∧ s.running =
    true ∧ s.consumes p m = true ∧ msgOk 0 m = true ∧ s.fromParent p m = false :=
  ⟨master, 3, ptpMsg 0 0 9 0xAABBCCDDEEFF00110002 (List.replicate 10 0#8),
    by decide +kernel⟩

theorem meets_PtpAnnouncesAndSyncs_34 : ∃ (s : State) (p : Fin 24) (m : List Byte) (w : SyncWait), s.inReset = false
    ∧ s.running = true ∧ s.consumes p m = true ∧ msgOk 8 m = true ∧ s.fromParent p m = true ∧ (s.pport p).wait = some
    w ∧ w.seq = msgSeq m ∧ w.breaks = s.tsc.breaks ∧ stampClean w.t2 = true ∧ s.ptpState p = ptpSlave ∧ s.servoPort ≠
    p ∧ s.g (R.PTS_STATUS p) F.PTS_STATUS_LD_VALID = 1 ∧ (t96Diff w.t2.t (msgTime m)).2 = false ∧ ((t96Diff w.t2.t
    (msgTime m)).1 - (w.corr + msgCorr m) - s.pairI (R.PTS_LD_IN_LO p)) = satS 64 ((t96Diff w.t2.t (msgTime m)).1 -
    (w.corr + msgCorr m) - s.pairI (R.PTS_LD_IN_LO p)) :=
  ⟨{ (((slave.setPtpState 3 6).p (R.PTS_STATUS 3) F.PTS_STATUS_RX_PD 2).p (R.PTS_STATUS 3) F.PTS_STATUS_LD_VALID 1) with ptp := ({ slave with ptp := { live.ptp with ports := [(3, { PtpPort.reset with wait := some ⟨9, ⟨mkT96 5 100 0, false, false, false, 0⟩, 7, 0, 0, 0, false⟩ })] } }).ptp },
    3, ptpMsg 8 0 9 0xAABBCCDDEEFF00110001 (List.replicate 10 0#8), ⟨9, ⟨mkT96 5 100 0, false, false, false, 0⟩, 7,
    0, 0, 0, false⟩,
    by decide +kernel⟩

theorem meets_PtpAnnouncesAndSyncs_35 : ∃ (s : State) (p : Fin 24) (m : List Byte), s.inReset = false ∧ s.running =
    true ∧ s.consumes p m = true ∧ msgOk 8 m = true ∧ s.fromParent p m = true ∧ (s.pport p).wait.all (fun w :
    SyncWait => decide (w.seq ≠ msgSeq m)) = true :=
  ⟨slave, 3, ptpMsg 8 0 9 0xAABBCCDDEEFF00110001 (List.replicate 10 0#8),
    by decide +kernel⟩

theorem meets_PtpAnnouncesAndSyncs_36 : ∃ (s : State) (p : Fin 24) (m : List Byte), s.inReset = false ∧ s.running =
    true ∧ s.consumes p m = true ∧ msgOk 8 m = true ∧ s.fromParent p m = false :=
  ⟨master, 3, ptpMsg 8 0 9 0xAABBCCDDEEFF00110002 (List.replicate 10 0#8),
    by decide +kernel⟩

theorem meets_PtpAnnouncesAndSyncs_37 : ∃ (s : State) (p : Fin 24), s.inReset = false ∧ (s.pport p).wait = none :=
  ⟨slave, 3,
    by decide +kernel⟩

theorem meets_PtpDelayMessages_1 : ∃ (s : State) (p : Fin 24) (m : List Byte), s.inReset = false ∧ s.running = true ∧
    s.consumes p m = true ∧ msgOk 1 m = true ∧ s.ptpState p = ptpMaster :=
  ⟨master, 3, ptpMsg 1 0 9 0xAABBCCDDEEFF00110001 (List.replicate 10 0#8),
    by decide +kernel⟩

theorem meets_PtpDelayMessages_2 : ∃ (s : State) (p : Fin 24) (m : List Byte), s.inReset = false ∧ s.running = true ∧
    s.consumes p m = true ∧ msgOk 2 m = true ∧ s.ptpSends p = true ∧ s.pcfg p F.PTP_Pn_CFG_DELAY_MECH = 1 :=
  ⟨peer, 3, ptpMsg 2 0 9 0xAABBCCDDEEFF00110001 (List.replicate 20 0#8),
    by decide +kernel⟩

theorem meets_PtpDelayMessages_3 : ∃ (s : State) (p : Fin 24) (m : List Byte) (w : DelayWait) (y : SyncTimes),
    s.inReset = false ∧ s.running = true ∧ s.consumes p m = true ∧ msgOk 9 m = true ∧ 4 ≤ s.ptpState p ∧ (s.pport
    p).dreq = some w ∧ msgRequester m = s.portIdent p ∧ msgSeq m = w.seq ∧ (s.ptpState p = ptpSlave → s.g
    (R.PTS_STATUS p) F.PTS_STATUS_LD_VALID = 1) ∧ (s.pport p).syncs.find? (fun y => decide (0 < tickDiff (tickOf
    w.t3.t) (tickOf y.t2.t))) = some y ∧ (y.usable && stampClean y.t2 && stampClean w.t3 && y.breaks == w.breaks &&
    !(s.remoteBad p m)) = false :=
  ⟨{ slave with ptp := { live.ptp with ports := [(3, { PtpPort.reset with dreq := some ⟨9, ⟨mkT96 5 200 0, false, false, false, 0⟩, 0⟩, syncs := [⟨0, ⟨mkT96 5 100 0, false, false, false, 0⟩, false, 0⟩] })] } },
    3, ptpMsg 9 0 9 0xAABBCCDDEEFF00110001 (List.replicate 10 0#8 ++ beBytes 10 (0x1122334455667788 * 65536 + 4)),
    ⟨9, ⟨mkT96 5 200 0, false, false, false, 0⟩, 0⟩, ⟨0, ⟨mkT96 5 100 0, false, false, false, 0⟩, false, 0⟩,
    by decide +kernel⟩

theorem meets_PtpDelayMessages_4 : ∃ (s : State) (p : Fin 24) (m : List Byte) (w : DelayWait) (y : SyncTimes),
    s.inReset = false ∧ s.running = true ∧ s.consumes p m = true ∧ msgOk 9 m = true ∧ 4 ≤ s.ptpState p ∧ (s.pport
    p).dreq = some w ∧ msgRequester m = s.portIdent p ∧ msgSeq m = w.seq ∧ (s.pport p).syncs.find? (fun y => decide
    (0 < tickDiff (tickOf w.t3.t) (tickOf y.t2.t))) = some y ∧ (y.usable && stampClean y.t2 && stampClean w.t3 &&
    y.breaks == w.breaks && !(s.remoteBad p m)) = true ∧ (s.ptsOf p).ld = [] ∧ s.g (R.PTS_STATUS p)
    F.PTS_STATUS_LD_VALID = 0 :=
  ⟨{ slave with ptp := { live.ptp with ports := [(3, { PtpPort.reset with dreq := some ⟨9, ⟨mkT96 5 200 0, false, false, false, 0⟩, 0⟩, syncs := [⟨0, ⟨mkT96 5 100 0, false, false, false, 0⟩, true, 0⟩] })] } },
    3, ptpMsg 9 0 9 0xAABBCCDDEEFF00110001 (List.replicate 10 0#8 ++ beBytes 10 (0x1122334455667788 * 65536 + 4)),
    ⟨9, ⟨mkT96 5 200 0, false, false, false, 0⟩, 0⟩, ⟨0, ⟨mkT96 5 100 0, false, false, false, 0⟩, true, 0⟩,
    by decide +kernel⟩

theorem meets_PtpDelayMessages_5 : ∃ (s : State) (p : Fin 24) (m : List Byte) (w : DelayWait), s.inReset = false ∧
    s.running = true ∧ s.consumes p m = true ∧ msgOk 9 m = true ∧ 4 ≤ s.ptpState p ∧ (s.pport p).dreq = some w ∧
    msgRequester m = s.portIdent p ∧ msgSeq m = w.seq ∧ (s.pport p).syncs.find? (fun y => decide (0 < tickDiff
    (tickOf w.t3.t) (tickOf y.t2.t))) = none :=
  ⟨{ slave with ptp := { live.ptp with ports := [(3, { PtpPort.reset with dreq := some ⟨9, ⟨mkT96 5 200 0, false, false, false, 0⟩, 0⟩ })] } },
    3, ptpMsg 9 0 9 0xAABBCCDDEEFF00110001 (List.replicate 10 0#8 ++ beBytes 10 (0x1122334455667788 * 65536 + 4)),
    ⟨9, ⟨mkT96 5 200 0, false, false, false, 0⟩, 0⟩,
    by decide +kernel⟩

theorem meets_PtpDelayMessages_6 : ∃ (s : State) (p : Fin 24) (m : List Byte) (w : DelayWait), s.inReset = false ∧
    s.running = true ∧ s.consumes p m = true ∧ msgOk 9 m = true ∧ 4 ≤ s.ptpState p ∧ (s.pport p).dreq = some w ∧
    (msgRequester m ≠ s.portIdent p ∨ msgSeq m ≠ w.seq) :=
  ⟨{ slave with ptp := { live.ptp with ports := [(3, { PtpPort.reset with dreq := some ⟨8, ⟨mkT96 5 200 0, false, false, false, 0⟩, 0⟩ })] } },
    3, ptpMsg 9 0 9 0xAABBCCDDEEFF00110001 (List.replicate 10 0#8 ++ beBytes 10 (0x1122334455667788 * 65536 + 4)),
    ⟨8, ⟨mkT96 5 200 0, false, false, false, 0⟩, 0⟩,
    by decide +kernel⟩

theorem meets_PtpDelayMessages_7 : ∃ (s : State) (p : Fin 24) (m : List Byte), s.inReset = false ∧ s.running = true ∧
    s.consumes p m = true ∧ msgOk 9 m = true ∧ 4 ≤ s.ptpState p ∧ (s.pport p).dreq = none :=
  ⟨slave, 3, ptpMsg 9 0 9 0xAABBCCDDEEFF00110001 (List.replicate 10 0#8 ++ beBytes 10 (0x1122334455667788 * 65536 +
    4)),
    by decide +kernel⟩

theorem meets_PtpDelayMessages_8 : ∃ (s : State) (p : Fin 24) (m : List Byte), s.inReset = false ∧ s.running = true ∧
    s.consumes p m = true ∧ msgOk 9 m = true ∧ s.ptpState p < 4 :=
  ⟨master, 3, ptpMsg 9 0 9 0xAABBCCDDEEFF00110001 (List.replicate 10 0#8 ++ beBytes 10 (0x1122334455667788 * 65536 +
    4)),
    by decide +kernel⟩

theorem meets_PtpDelayMessages_9 : ∃ (s : State) (p : Fin 24) (m : List Byte), s.inReset = false ∧ s.running = true ∧
    s.consumes p m = true ∧ msgOk 1 m = true ∧ s.ptpState p ≠ ptpMaster :=
  ⟨slave, 3, ptpMsg 1 0 9 0xAABBCCDDEEFF00110001 (List.replicate 10 0#8),
    by decide +kernel⟩

theorem meets_PtpDelayMessages_10 : ∃ (s : State) (p : Fin 24) (m : List Byte), s.inReset = false ∧ s.running = true
    ∧ s.consumes p m = true ∧ msgOk 2 m = true ∧ (s.ptpSends p = false ∨ s.pcfg p F.PTP_Pn_CFG_DELAY_MECH ≠ 1) :=
  ⟨slave, 3, ptpMsg 2 0 9 0xAABBCCDDEEFF00110001 (List.replicate 20 0#8),
    by decide +kernel⟩

theorem meets_PtpDelayMessages_11 : ∃ (s : State) (p : Fin 24) (m : List Byte) (w : PdelayWait), s.inReset = false ∧
    s.running = true ∧ s.consumes p m = true ∧ msgOk 3 m = true ∧ s.ptpSends p = true ∧ msgRequester m = s.portIdent
    p ∧ (s.pport p).pdreq = some w ∧ msgSeq m = w.seq ∧ w.resp = none ∧ msgTwoStep m = true :=
  ⟨{ peer with ptp := { live.ptp with ports := [(3, { PtpPort.reset with pdreq := some ⟨9, ⟨mkT96 5 100 0, false, false, false, 0⟩, 0, none⟩ })] } },
    3, ptpMsg 3 0x0200 9 0xAABBCCDDEEFF00110001 (List.replicate 10 0#8 ++ beBytes 10 (0x1122334455667788 * 65536 +
    4)), ⟨9, ⟨mkT96 5 100 0, false, false, false, 0⟩, 0, none⟩,
    by decide +kernel⟩

theorem meets_PtpDelayMessages_12 : ∃ (s : State) (p : Fin 24) (m : List Byte) (w : PdelayWait) (t4 : Stamp) (t2 :
    Tick64), s.inReset = false ∧ s.running = true ∧ s.consumes p m = true ∧ msgOk 10 m = true ∧ s.ptpSends p = true ∧
    msgRequester m = s.portIdent p ∧ (s.pport p).pdreq = some w ∧ msgSeq m = w.seq ∧ w.resp = some (t4, t2, true) ∧
    (s.ptpState p = ptpSlave → s.g (R.PTS_STATUS p) F.PTS_STATUS_LD_VALID = 1) :=
  ⟨{ peer with ptp := { live.ptp with ports := [(3, { PtpPort.reset with pdreq := some ⟨9, ⟨mkT96 5 100 0, false, false, false, 0⟩, 0, some (⟨mkT96 5 100 0, false, false, false, 0⟩, 5#64, true)⟩ })] } },
    3, ptpMsg 10 0 9 0xAABBCCDDEEFF00110001 (List.replicate 10 0#8 ++ beBytes 10 (0x1122334455667788 * 65536 + 4)),
    ⟨9, ⟨mkT96 5 100 0, false, false, false, 0⟩, 0, some (⟨mkT96 5 100 0, false, false, false, 0⟩, 5#64, true)⟩,
    ⟨mkT96 5 100 0, false, false, false, 0⟩, 5#64,
    by decide +kernel⟩

theorem meets_PtpDelayMessages_13 : ∃ (s : State) (p : Fin 24) (m : List Byte) (w : PdelayWait) (t4 : Stamp) (t2 :
    Tick64), s.inReset = false ∧ s.running = true ∧ s.consumes p m = true ∧ msgOk 10 m = true ∧ s.ptpSends p = true ∧
    msgRequester m = s.portIdent p ∧ (s.pport p).pdreq = some w ∧ msgSeq m = w.seq ∧ w.resp = some (t4, t2, false) ∧
    s.remoteBad p m = false ∧ stampClean t4 = true ∧ (s.ptsOf p).ld = [] ∧ s.g (R.PTS_STATUS p) F.PTS_STATUS_LD_VALID
    = 0 ∧ stampClean w.t1 = true :=
  ⟨{ peer with ptp := { live.ptp with ports := [(3, { PtpPort.reset with pdreq := some ⟨9, ⟨mkT96 5 100 0, false, false, false, 0⟩, 0, some (⟨mkT96 5 100 0, false, false, false, 0⟩, 5#64, false)⟩ })] } },
    3, ptpMsg 10 0 9 0xAABBCCDDEEFF00110001 (List.replicate 10 0#8 ++ beBytes 10 (0x1122334455667788 * 65536 + 4)),
    ⟨9, ⟨mkT96 5 100 0, false, false, false, 0⟩, 0, some (⟨mkT96 5 100 0, false, false, false, 0⟩, 5#64, false)⟩,
    ⟨mkT96 5 100 0, false, false, false, 0⟩, 5#64,
    by decide +kernel⟩

theorem meets_PtpDelayMessages_14 : ∃ (s : State) (p : Fin 24) (m : List Byte) (x : StampIn) (w : PdelayWait),
    s.inReset = false ∧ s.running = true ∧ s.consumes p m = true ∧ msgOk 3 m = true ∧ s.ptpSends p = true ∧
    msgRequester m = s.portIdent p ∧ (s.pport p).pdreq = some w ∧ msgSeq m = w.seq ∧ w.resp = none ∧ msgTwoStep m =
    false ∧ w.breaks = s.tsc.breaks ∧ s.remoteBad p m = false ∧ stampClean (s.rxStamp p x) = true ∧ (s.ptsOf p).ld =
    [] ∧ s.g (R.PTS_STATUS p) F.PTS_STATUS_LD_VALID = 0 ∧ stampClean w.t1 = true :=
  ⟨{ (peer.p (R.PTS_STATUS 3) F.PTS_STATUS_RX_PD 2) with ptp := { live.ptp with ports := [(3, { PtpPort.reset with pdreq := some ⟨9, ⟨mkT96 5 100 0, false, false, false, 0⟩, 0, none⟩ })] } },
    3, ptpMsg 3 0 9 0xAABBCCDDEEFF00110001 (List.replicate 10 0#8 ++ beBytes 10 (0x1122334455667788 * 65536 + 4)),
    ⟨0, 0, 0, ⟨0, 0, 0⟩, 0, false⟩, ⟨9, ⟨mkT96 5 100 0, false, false, false, 0⟩, 0, none⟩,
    by decide +kernel⟩

theorem meets_PtpDelayMessages_15 : ∃ (s : State) (p : Fin 24) (m : List Byte) (w : PdelayWait), s.inReset = false ∧
    s.running = true ∧ s.consumes p m = true ∧ msgOk 3 m = true ∧ s.ptpSends p = true ∧ msgRequester m = s.portIdent
    p ∧ (s.pport p).pdreq = some w ∧ msgSeq m = w.seq ∧ w.resp = none ∧ msgTwoStep m = false ∧ (w.breaks ≠
    s.tsc.breaks ∨ s.remoteBad p m = true ∨ stampClean w.t1 = false) ∧ (s.ptpState p = ptpSlave → s.g (R.PTS_STATUS
    p) F.PTS_STATUS_LD_VALID = 1) :=
  ⟨{ peer with ptp := { live.ptp with ports := [(3, { PtpPort.reset with pdreq := some ⟨9, ⟨mkT96 5 100 0, false, false, false, 0⟩, 7, none⟩ })] } },
    3, ptpMsg 3 0 9 0xAABBCCDDEEFF00110001 (List.replicate 10 0#8 ++ beBytes 10 (0x1122334455667788 * 65536 + 4)),
    ⟨9, ⟨mkT96 5 100 0, false, false, false, 0⟩, 7, none⟩,
    by decide +kernel⟩

theorem meets_PtpDelayMessages_16 : ∃ (s : State) (p : Fin 24) (m : List Byte), s.inReset = false ∧ s.running = true
    ∧ s.consumes p m = true ∧ msgOk 3 m = true ∧ (s.pport p).pdreq.all (fun w : PdelayWait => decide (msgSeq m ≠
    w.seq)) = true :=
  ⟨peer, 3, ptpMsg 3 0 9 0xAABBCCDDEEFF00110001 (List.replicate 10 0#8 ++ beBytes 10 (0x1122334455667788 * 65536 +
    4)),
    by decide +kernel⟩

theorem meets_PtpDelayMessages_17 : ∃ (s : State) (p : Fin 24) (m : List Byte), s.inReset = false ∧ s.running = true
    ∧ s.consumes p m = true ∧ msgOk 10 m = true ∧ ((s.pport p).pdreq.all (fun w : PdelayWait => decide (msgSeq m ≠
    w.seq ∨ w.resp = none)) = true) :=
  ⟨peer, 3, ptpMsg 10 0 9 0xAABBCCDDEEFF00110001 (List.replicate 10 0#8 ++ beBytes 10 (0x1122334455667788 * 65536 +
    4)),
    by decide +kernel⟩

theorem meets_PtpSending_1 : ∃ (s : State) (p : Fin 24), s.inReset = false ∧ s.ptpSends p = true ∧ s.ptpState p =
    ptpMaster ∧ s.pcfg p F.PTP_Pn_CFG_TWO_STEP = 1 :=
  ⟨master.p (R.PTP_Pn_CFG 3) F.PTP_Pn_CFG_TWO_STEP 1, 3,
    by decide +kernel⟩

theorem meets_PtpSending_2 : ∃ (s : State) (p : Fin 24), s.inReset = false ∧ s.ptpSends p = true ∧ s.ptpState p =
    ptpMaster ∧ s.pcfg p F.PTP_Pn_CFG_TWO_STEP = 0 ∧ s.pcfg p F.PTP_Pn_CFG_TRANSPORT = 0 ∧ s.isSet (R.PTS_CFG p)
    F.PTS_CFG_ONESTEP_EN :=
  ⟨(master.p (R.PTP_Pn_CFG 3) F.PTP_Pn_CFG_TWO_STEP 0).p (R.PTS_CFG 3) F.PTS_CFG_ONESTEP_EN 1, 3,
    by decide +kernel⟩

theorem meets_PtpSending_3 : ∃ (s : State) (p : Fin 24), s.inReset = false ∧ s.ptpSends p = true ∧ s.ptpState p =
    ptpMaster :=
  ⟨master, 3,
    by decide +kernel⟩

theorem meets_PtpSending_4 : ∃ (s : State), s.inReset = false ∧ s.ptpSends 3 = true ∧ s.ptpState 3 = ptpMaster ∧
    (s.pport 3).told ≠ (s.reg R.RUT_CLAIM).toNat ∧ (∀ n : Fin 24, n ≠ 3 → s.ptpState n ≠ ptpMaster) :=
  ⟨{ master.setRegN R.RUT_CLAIM 5 with ptp := { live.ptp with ports := [(3, { PtpPort.reset with told := 1 })] } },
    by decide +kernel⟩

theorem meets_PtpSending_5 : ∃ (s : State) (p : Fin 24) (f : FollowWait) (l : List FollowWait), s.inReset = false ∧
    s.ptpSends p = true ∧ (s.pport p).follow = f :: l ∧ f.pdelay = false :=
  ⟨{ master with ptp := { live.ptp with ports := [(3, { PtpPort.reset with follow := [⟨false, 5, 0, 0, ⟨mkT96 5 100 0, false, false, false, 0⟩⟩] })] } },
    3, ⟨false, 5, 0, 0, ⟨mkT96 5 100 0, false, false, false, 0⟩⟩, [],
    by decide +kernel⟩

theorem meets_PtpSending_6 : ∃ (s : State) (p : Fin 24) (f : FollowWait) (l : List FollowWait), s.inReset = false ∧
    s.ptpSends p = true ∧ (s.pport p).follow = f :: l ∧ f.pdelay = true :=
  ⟨{ peer with ptp := { live.ptp with ports := [(3, { PtpPort.reset with follow := [⟨true, 5, 77, 0, ⟨mkT96 5 100 0, false, false, false, 0⟩⟩] })] } },
    3, ⟨true, 5, 77, 0, ⟨mkT96 5 100 0, false, false, false, 0⟩⟩, [],
    by decide +kernel⟩

theorem meets_PtpSending_7 : ∃ (s : State) (p : Fin 24) (r : RespWait) (l : List RespWait), s.inReset = false ∧
    s.ptpSends p = true ∧ (s.pport p).dresp = r :: l :=
  ⟨{ master with ptp := { live.ptp with ports := [(3, { PtpPort.reset with dresp := [⟨5, 77, 0, ⟨mkT96 5 100 0, false, false, false, 0⟩⟩] })] } },
    3, ⟨5, 77, 0, ⟨mkT96 5 100 0, false, false, false, 0⟩⟩, [],
    by decide +kernel⟩

theorem meets_PtpSending_8 : ∃ (s : State) (p : Fin 24) (r : RespWait) (l : List RespWait), s.inReset = false ∧
    s.ptpSends p = true ∧ (s.pport p).pdresp = r :: l ∧ s.pcfg p F.PTP_Pn_CFG_TWO_STEP = 1 :=
  ⟨{ peer.p (R.PTP_Pn_CFG 3) F.PTP_Pn_CFG_TWO_STEP 1 with ptp := { live.ptp with ports := [(3, { PtpPort.reset with pdresp := [⟨5, 77, 0, ⟨mkT96 5 100 0, false, false, false, 0⟩⟩] })] } },
    3, ⟨5, 77, 0, ⟨mkT96 5 100 0, false, false, false, 0⟩⟩, [],
    by decide +kernel⟩

theorem meets_PtpSending_9 : ∃ (s : State) (p : Fin 24), s.inReset = false ∧ s.ptpSends p = true ∧ s.pcfg p
    F.PTP_Pn_CFG_ROLE = 2 ∧ s.pcfg p F.PTP_Pn_CFG_DELAY_MECH = 0 :=
  ⟨slave, 3,
    by decide +kernel⟩

theorem meets_PtpSending_10 : ∃ (s : State) (p : Fin 24), s.inReset = false ∧ s.ptpSends p = true ∧ s.pcfg p
    F.PTP_Pn_CFG_DELAY_MECH = 1 :=
  ⟨peer, 3,
    by decide +kernel⟩

theorem meets_PtpSending_11 : ∃ (s : State), s.inReset = false :=
  ⟨{ master.setRegN R.RUT_CLAIM 5 with ptp := { live.ptp with ports := [(3, { PtpPort.reset with told := 1 })] } },
    by decide +kernel⟩

theorem meets_PtpSending_12 : ∃ (s : State) (p : Fin 24) (r : RespWait) (l : List RespWait), s.inReset = false ∧
    s.ptpSends p = true ∧ (s.pport p).pdresp = r :: l ∧ s.pcfg p F.PTP_Pn_CFG_TWO_STEP = 0 ∧ s.pcfg p
    F.PTP_Pn_CFG_TRANSPORT = 0 ∧ s.isSet (R.PTS_CFG p) F.PTS_CFG_ONESTEP_EN :=
  ⟨{ (peer.p (R.PTP_Pn_CFG 3) F.PTP_Pn_CFG_TWO_STEP 0).p (R.PTS_CFG 3) F.PTS_CFG_ONESTEP_EN 1 with ptp := { live.ptp with ports := [(3, { PtpPort.reset with pdresp := [⟨5, 77, 0, ⟨mkT96 5 100 0, false, false, false, 0⟩⟩] })] } },
    3, ⟨5, 77, 0, ⟨mkT96 5 100 0, false, false, false, 0⟩⟩, [],
    by decide +kernel⟩

theorem meets_PtpSending_13 : ∃ (s : State) (p : Fin 24), s.inReset = false ∧ (s.ptpSends p = false ∨ s.ptpState p ≠
    ptpMaster) :=
  ⟨slave, 3,
    by decide +kernel⟩

theorem meets_PtpSending_14 : ∃ (s : State) (p : Fin 24), s.inReset = false ∧ (s.ptpSends p = false ∨ s.ptpState p ≠
    ptpMaster) :=
  ⟨slave, 3,
    by decide +kernel⟩

theorem meets_PtpSending_15 : ∃ (s : State) (p : Fin 24), s.inReset = false ∧ (s.ptpSends p = false ∨ s.pcfg p
    F.PTP_Pn_CFG_ROLE ≠ 2 ∨ s.pcfg p F.PTP_Pn_CFG_DELAY_MECH ≠ 0) :=
  ⟨peer, 3,
    by decide +kernel⟩

theorem meets_PtpSending_16 : ∃ (s : State) (p : Fin 24), s.inReset = false ∧ (s.ptpSends p = false ∨ s.pcfg p
    F.PTP_Pn_CFG_DELAY_MECH ≠ 1) :=
  ⟨slave, 3,
    by decide +kernel⟩

theorem meets_PtpSending_17 : ∃ (s : State) (p : Fin 24), s.inReset = false ∧ (s.ptpSends p = false ∨ (s.pport
    p).follow = []) :=
  ⟨slave, 3,
    by decide +kernel⟩

theorem meets_PtpSending_18 : ∃ (s : State) (p : Fin 24), s.inReset = false ∧ (s.ptpSends p = false ∨ (s.pport
    p).dresp = []) :=
  ⟨slave, 3,
    by decide +kernel⟩

theorem meets_PtpSending_19 : ∃ (s : State) (p : Fin 24), s.inReset = false ∧ (s.ptpSends p = false ∨ (s.pport
    p).pdresp = []) :=
  ⟨slave, 3,
    by decide +kernel⟩

theorem meets_PtpServo_1 : ∃ (s : State), s.inReset = false ∧ s.ptpValid = true :=
  ⟨live.p R.PTP_STATUS F.PTP_STATUS_VALID 1,
    by decide +kernel⟩

theorem meets_PtpServo_2 : ∃ (s : State), s.inReset = false ∧ s.servo = servoTrack :=
  ⟨live.p R.PTP_STATUS F.PTP_STATUS_SERVO 2,
    by decide +kernel⟩

theorem meets_PtpServo_3 : ∃ (s : State), s.inReset = false ∧ s.servoTight = true ∧ s.ptp.based = true ∧ s.servo =
    servoTrack :=
  ⟨{ ((((live.p R.PTP_STATUS F.PTP_STATUS_SERVO 2).p R.PTP_STATUS F.PTP_STATUS_SERVO_PORT 3).p (R.PTP_Pn_STATUS 3) F.PTP_Pn_STATUS_TIGHT_OK 1)) with ptp := { live.ptp with based := true, oRef := 50000 } },
    by decide +kernel⟩

theorem meets_PtpServo_4 : ∃ (s : State), s.inReset = false ∧ (s.servoTight = false ∨ s.ptp.based = false ∨ s.servo ≠
    servoTrack) :=
  ⟨live,
    by decide +kernel⟩

theorem meets_PtpServo_5 : ∃ (s : State), s.inReset = false ∧ s.servo ≠ servoTrack :=
  ⟨live,
    by decide +kernel⟩

theorem meets_PtpServo_6 : ∃ (s : State), s.inReset = false ∧ s.ptpValid = false :=
  ⟨live,
    by decide +kernel⟩

theorem meets_OscillatorAndReferenceInputs_1 : ∃ (s : State), s.inReset = false ∧ s.ref.oscBad = false ∧
    s.hif.fq.length < 32 :=
  ⟨{ live with ref := { live.ref with cands := [(3, { Cand.reset with qual := true })] } },
    by decide +kernel⟩

theorem meets_OscillatorAndReferenceInputs_2 : ∃ (s : State), s.inReset = false :=
  ⟨{ live with ref := { live.ref with oscBad := true } },
    by decide +kernel⟩

theorem meets_OscillatorAndReferenceInputs_3 : ∃ (s : State), s.inReset = false :=
  ⟨(live.p R.REF_OSC_STATUS F.REF_OSC_STATUS_SELF_WARM 1),
    by decide +kernel⟩

theorem meets_OscillatorAndReferenceInputs_4 : ∃ (s : State), s.accepts R.REF_OSC_CFG ∧ s.ref.cands.all (fun p =>
    decide (p.1 < 30)) = true :=
  ⟨live,
    by decide +kernel⟩

theorem meets_OscillatorAndReferenceInputs_5 : ∃ (s : State) (y : Int) (k : Nat), s.inReset = false ∧ s.judging =
    some k ∧ s.ref.judge = some k ∧ s.ref.gates.length = 9 ∧ s.g R.REF_OSC_STATUS F.REF_OSC_STATUS_SELF_WARM = 0 ∧
    spread (y :: s.ref.gates) ≤ 1000 :=
  ⟨{ (live.setRegN (R.REF_PRIOn 0) 0).p (R.REF_PRIOn 0) F.REF_PRIOn_ENABLE 1 with ref := { live.ref with judge := some 0, gates := List.replicate 9 5, cands := [(0, { Cand.reset with act := .accept })] } },
    1000, 0,
    by decide +kernel⟩

theorem meets_OscillatorAndReferenceInputs_6 : ∃ (s : State), s.inReset = false ∧ s.judging = none ∧ s.g
    R.REF_OSC_CFG F.REF_OSC_CFG_WARM_TIMEOUT_S ≠ 0 ∧ s.g R.REF_OSC_STATUS F.REF_OSC_STATUS_SELF_WARM = 0 :=
  ⟨live.p R.REF_OSC_CFG F.REF_OSC_CFG_WARM_TIMEOUT_S 5,
    by decide +kernel⟩

theorem meets_OscillatorAndReferenceInputs_7 : ∃ (s : State), s.inReset = false ∧ s.judging = none ∧ s.ref.judge =
    none :=
  ⟨live,
    by decide +kernel⟩

theorem meets_OscillatorAndReferenceInputs_8 : ∃ (s : State) (y : Int) (k : Nat), s.inReset = false ∧ s.judging =
    some k ∧ s.ref.judge = some k ∧ (s.ref.gates.length < 9 ∨ 1000 < spread ((y :: s.ref.gates).take 10)) :=
  ⟨{ (live.setRegN (R.REF_PRIOn 0) 0).p (R.REF_PRIOn 0) F.REF_PRIOn_ENABLE 1 with ref := { live.ref with judge := some 0, gates := List.replicate 8 5, cands := [(0, { Cand.reset with act := .accept })] } },
    1000, 0,
    by decide +kernel⟩

theorem meets_OscillatorAndReferenceInputs_9 : ∃ (s : State), s.inReset = false ∧ (s.judging.isSome = true ∨ s.g
    R.REF_OSC_CFG F.REF_OSC_CFG_WARM_TIMEOUT_S = 0) ∧ s.ref.judge = s.judging :=
  ⟨live.p R.REF_OSC_CFG F.REF_OSC_CFG_WARM_TIMEOUT_S 0,
    by decide +kernel⟩

theorem meets_OscillatorAndReferenceInputs_10 : ∃ (s : State), s.inReset = false ∧ s.ref.oscBad = true :=
  ⟨{ live with ref := { live.ref with oscBad := true } },
    by decide +kernel⟩

theorem meets_OscillatorAndReferenceInputs_11 : ∃ (s : State) (n : Fin 4) (ahead : Nat), s.inReset = false ∧ (s.refIn
    n).disabled = false ∧ (s.refIn n).prev.all (fun p => decide (32 * 65536 ≤ 10 * (s.tsc.tick * 131072 + ahead -
    p))) = true :=
  ⟨live, 2, 1000,
    by decide +kernel⟩

theorem meets_OscillatorAndReferenceInputs_12 : ∃ (s : State) (n : Fin 4) (ahead : Nat) (p : Nat), s.inReset = false
    ∧ (s.refIn n).disabled = false ∧ (s.refIn n).prev = some p ∧ 10 * (s.tsc.tick * 131072 + ahead - p) < 32 * 65536
    :=
  ⟨{ live with ref := { live.ref with ins := [(2, { RefIn.reset with prev := some 960 })] } }, 2, 1000, 960,
    by decide +kernel⟩

theorem meets_OscillatorAndReferenceInputs_13 : ∃ (s : State) (n : Fin 4), s.inReset = false ∧ (s.refIn n).disabled =
    true :=
  ⟨{ live with ref := { live.ref with ins := [(2, { RefIn.reset with disabled := true, stuck := true })] } }, 2,
    by decide +kernel⟩

theorem meets_OscillatorAndReferenceInputs_14 : ∃ (s : State) (n : Fin 4), s.inReset = false ∧ (s.refIn n).stuck =
    false :=
  ⟨live, 3,
    by decide +kernel⟩

theorem meets_OscillatorAndReferenceInputs_15 : ∃ (s : State) (n : Fin 4), s.inReset = false ∧ s.on (R.REF_INn_CFG n)
    F.REF_INn_CFG_OVR_DIS_EN = true ∧ s.g (R.REF_INn_CFG n) F.REF_INn_CFG_OVR_LIMIT < (s.refIn n).lost ∧ (s.refIn
    n).disabled = false ∧ s.hif.fq.length < 32 :=
  ⟨{ (live.p (R.REF_INn_CFG 1) F.REF_INn_CFG_OVR_DIS_EN 1) with ref := { live.ref with ins := [(1, { RefIn.reset with lost := 5000 })] } },
    1,
    by decide +kernel⟩

theorem meets_OscillatorAndReferenceInputs_16 : ∃ (s : State) (n : Fin 4), s.inReset = false ∧ (s.refIn n).lost ≤ s.g
    (R.REF_INn_CFG n) F.REF_INn_CFG_OVR_LIMIT :=
  ⟨live, 1,
    by decide +kernel⟩

theorem meets_OscillatorAndReferenceInputs_17 : ∃ (s : State), s.accepts R.REF_IN_REARM :=
  ⟨{ live with ref := { live.ref with ins := [(1, { RefIn.reset with lost := 5000, disabled := true })] } },
    by decide +kernel⟩

theorem meets_OscillatorAndReferenceInputs_18 : ∃ (s : State) (n : Fin 4), s.inReset = false ∧ (s.refIn n).stuck =
    true :=
  ⟨{ live with ref := { live.ref with ins := [(3, { RefIn.reset with stuck := true })] } }, 3,
    by decide +kernel⟩

theorem meets_OscillatorAndReferenceInputs_19 : ∃ (s : State) (n : Fin 4), s.inReset = false ∧ (s.on (R.REF_INn_CFG
    n) F.REF_INn_CFG_OVR_DIS_EN = false ∨ (s.refIn n).disabled = true) :=
  ⟨live.p (R.REF_INn_CFG 1) F.REF_INn_CFG_OVR_DIS_EN 0, 1,
    by decide +kernel⟩

theorem meets_MonitorsAndEsmc_1 : ∃ (s : State) (k : Fin 30), s.inReset = false ∧ (if k.val < 4 then s.inputPass k
    else if k.val < 28 then s.on (R.PTS_STATUS (k.val - 4)) F.PTS_STATUS_BLOCK_LOCK else if k.val = 28 then
    s.partnerTime else s.ptpValid) = true :=
  ⟨{ live.p (R.REF_INn_CFG 2) F.REF_INn_CFG_MODE 1 with ref := { live.ref with cands := [(2, { Cand.reset with passes := 15 })], ins := [(2, { RefIn.reset with inside := true, count := 1 })] } },
    2,
    by decide +kernel⟩

theorem meets_MonitorsAndEsmc_2 : ∃ (s : State) (k : Fin 30), s.inReset = false ∧ (if k.val < 4 then s.inputPass k
    else if k.val < 28 then s.on (R.PTS_STATUS (k.val - 4)) F.PTS_STATUS_BLOCK_LOCK else if k.val = 28 then
    s.partnerTime else s.ptpValid) = false ∧ s.g R.REF_ACT F.REF_ACT_ACCEPT ≠ 0 :=
  ⟨{ live.p (R.REF_INn_CFG 2) F.REF_INn_CFG_MODE 1 with ref := { live.ref with cands := [(2, { Cand.reset with fails := 15 })] } },
    2,
    by decide +kernel⟩

theorem meets_MonitorsAndEsmc_3 : ∃ (s : State) (k : Fin 30), s.inReset = false ∧ k ≠ 29 :=
  ⟨live, 7,
    by decide +kernel⟩

theorem meets_MonitorsAndEsmc_4 : ∃ (s : State), s.inReset = false :=
  ⟨live,
    by decide +kernel⟩

theorem meets_MonitorsAndEsmc_5 : ∃ (s : State) (k : Fin 30), s.inReset = false ∧ (s.cand k).hold = true ∧ s.candOk k
    = true :=
  ⟨{ live with ref := { live.ref with cands := [(2, { Cand.reset with act := .accept, freq := .accept, drift := .accept, phase := .accept, hold := true })] } },
    2,
    by decide +kernel⟩

theorem meets_MonitorsAndEsmc_6 : ∃ (s : State) (e : Fin 16), s.inReset = false ∧ s.prioOn e = true ∧ s.qualified
    (s.prioCand e) = true :=
  ⟨{ (live.setRegN (R.REF_PRIOn 3) 0).p (R.REF_PRIOn 3) F.REF_PRIOn_ENABLE 1 with ref := { live.ref with cands := [(0, { Cand.reset with qual := true })] } },
    3,
    by decide +kernel⟩

theorem meets_MonitorsAndEsmc_7 : ∃ (s : State) (k : Fin 30), s.inReset = false ∧ (if k.val < 4 then s.inputPass k
    else if k.val < 28 then s.on (R.PTS_STATUS (k.val - 4)) F.PTS_STATUS_BLOCK_LOCK else if k.val = 28 then
    s.partnerTime else s.ptpValid) = false ∧ s.g R.REF_ACT F.REF_ACT_ACCEPT = 0 :=
  ⟨live.setRegN R.REF_ACT 0, 2,
    by decide +kernel⟩

theorem meets_MonitorsAndEsmc_8 : ∃ (s : State) (k : Fin 30), s.inReset = false ∧ ((s.cand k).hold = false ∨ s.candOk
    k = false) :=
  ⟨live, 2,
    by decide +kernel⟩

theorem meets_MonitorsAndEsmc_9 : ∃ (s : State) (e : Fin 16), s.inReset = false ∧ (s.prioOn e = false ∨ s.qualified
    (s.prioCand e) = false) :=
  ⟨live, 2,
    by decide +kernel⟩

theorem meets_MonitorsAndEsmc_10 : ∃ (s : State) (p : Fin 24) (b : List Byte), s.inReset = false ∧ s.running = true ∧
    s.linkUp p = true ∧ isEsmc b (headsOf b (s.portMode p)) = true ∧ beAt b ((headsOf b (s.portMode p)).own + 12) 1 =
    1 ∧ beAt b ((headsOf b (s.portMode p)).own + 13) 2 = 4 :=
  ⟨(live.p (R.MAC_Pn_STATUS 3) F.MAC_Pn_STATUS_BLOCK_LOCK 1).p (R.MAC_Pn_CFG 3) F.MAC_Pn_CFG_EN 1, 3, esmcPdu,
    by decide +kernel⟩

theorem meets_MonitorsAndEsmc_11 : ∃ (s : State), s.inReset = false :=
  ⟨live,
    by decide +kernel⟩

theorem meets_MonitorsAndEsmc_12 : ∃ (s : State) (p : Fin 24), s.inReset = false ∧ s.running = true ∧ maskBit (s.g
    R.REF_ESMC_TX_EN F.REF_ESMC_TX_EN_EN) p = true :=
  ⟨live.setRegN R.REF_ESMC_TX_EN 0xFFFFFF, 9,
    by decide +kernel⟩

theorem meets_MonitorsAndEsmc_13 : ∃ (s : State) (p : Fin 24), s.inReset = false ∧ s.running = true ∧ maskBit (s.g
    R.REF_ESMC_TX_EN F.REF_ESMC_TX_EN_EN) p = true ∧ s.txQlOf p ≠ Tbl.get 16 s.ref.txQl p ∧ Tbl.get 16 s.ref.txQl p ≠
    16 :=
  ⟨{ live.setRegN R.REF_ESMC_TX_EN 0xFFFFFF with ref := { live.ref with txQl := [(9, 3)] } }, 9,
    by decide +kernel⟩

theorem meets_MonitorsAndEsmc_14 : ∃ (s : State) (p : Fin 24) (b : List Byte), s.inReset = false ∧ (s.running = false
    ∨ s.linkUp p = false ∨ isEsmc b (headsOf b (s.portMode p)) = false) :=
  ⟨live, 3, esmcPdu,
    by decide +kernel⟩

theorem meets_MonitorsAndEsmc_15 : ∃ (s : State) (p : Fin 24), s.inReset = false ∧ (s.running = false ∨ maskBit (s.g
    R.REF_ESMC_TX_EN F.REF_ESMC_TX_EN_EN) p = false) :=
  ⟨live, 9,
    by decide +kernel⟩

theorem meets_MonitorsAndEsmc_16 : ∃ (s : State) (p : Fin 24), s.inReset = false ∧ (s.running = false ∨ maskBit (s.g
    R.REF_ESMC_TX_EN F.REF_ESMC_TX_EN_EN) p = false ∨ s.txQlOf p = Tbl.get 16 s.ref.txQl p ∨ Tbl.get 16 s.ref.txQl p
    = 16) :=
  ⟨live, 9,
    by decide +kernel⟩

theorem meets_Selector_1 : ∃ (s : State) (e : Nat), s.inReset = false ∧ s.running = true ∧ s.on R.REF_CTRL
    F.REF_CTRL_ENABLE = true ∧ s.g R.REF_STATUS F.REF_STATUS_STATE = 0 ∧ s.chosen = some e ∧ e < 16 :=
  ⟨{ (((live.p R.REF_CTRL F.REF_CTRL_ENABLE 1).setRegN (R.REF_PRIOn 3) 2).p (R.REF_PRIOn 3) F.REF_PRIOn_ENABLE 1) with ref := { live.ref with cands := [(2, { Cand.reset with qual := true })] } },
    3,
    by decide +kernel⟩

theorem meets_Selector_2 : ∃ (s : State) (err : Int), s.inReset = false ∧ s.running = true ∧ s.on R.REF_CTRL
    F.REF_CTRL_ENABLE = true ∧ s.g R.REF_STATUS F.REF_STATUS_STATE = 1 ∧ s.targetLost = false ∧ s.ref.measured = true
    ∧ |err| ≤ nsTicks (s.g R.REF_LOCK F.REF_LOCK_LOCK_NS) ∧ 1000 * s.g R.REF_LOCK F.REF_LOCK_LOCK_S ≤ s.ref.inLock +
    1 :=
  ⟨{ ((((((live.p R.REF_CTRL F.REF_CTRL_ENABLE 1).setRegN (R.REF_PRIOn 3) 2).p (R.REF_PRIOn 3) F.REF_PRIOn_ENABLE 1)).p R.REF_STATUS F.REF_STATUS_STATE 1).p R.REF_STATUS F.REF_STATUS_SEL_CAND 2) with ref := { live.ref with cands := [(2, { Cand.reset with qual := true })], measured := true, inLock := 100000000 } },
    0,
    by decide +kernel⟩

theorem meets_Selector_3 : ∃ (s : State), s.inReset = false ∧ s.running = true ∧ s.on R.REF_CTRL F.REF_CTRL_ENABLE =
    true ∧ s.g R.REF_STATUS F.REF_STATUS_STATE = 2 ∧ s.targetLost = true ∧ s.chosen = none ∧ s.lockGone = false ∧
    s.ref.outLock + 1 < 1000 ∧ s.ref.withdrawn = false ∧ s.hld.episode = false ∧ s.hif.fq.length < 32 :=
  ⟨(((((live.p R.REF_CTRL F.REF_CTRL_ENABLE 1).setRegN (R.REF_PRIOn 3) 2).p (R.REF_PRIOn 3) F.REF_PRIOn_ENABLE 1)).p
    R.REF_STATUS F.REF_STATUS_STATE 2).p R.REF_STATUS F.REF_STATUS_GUARDING 1,
    by decide +kernel⟩

theorem meets_Selector_4 : ∃ (s : State) (e : Nat), s.inReset = false ∧ s.running = true ∧ s.on R.REF_CTRL
    F.REF_CTRL_ENABLE = true ∧ s.g R.REF_STATUS F.REF_STATUS_STATE = 2 ∧ s.targetLost = true ∧ s.chosen = some e ∧ e
    < 16 ∧ s.ref.outLock + 1 < 1000 :=
  ⟨{ (((((((live.p R.REF_CTRL F.REF_CTRL_ENABLE 1).setRegN (R.REF_PRIOn 3) 2).p (R.REF_PRIOn 3) F.REF_PRIOn_ENABLE 1)).p R.REF_STATUS F.REF_STATUS_STATE 2).p R.REF_STATUS F.REF_STATUS_SEL_CAND 2)).p R.REF_STATUS F.REF_STATUS_SEL_CAND 1 with ref := { live.ref with cands := [(2, { Cand.reset with qual := true })] } },
    3,
    by decide +kernel⟩

theorem meets_Selector_5 : ∃ (s : State), s.inReset = false ∧ s.running = true ∧ s.on R.REF_CTRL F.REF_CTRL_ENABLE =
    false ∧ (s.selState = 1 ∨ s.selState = 2 ∨ s.selState = 3) :=
  ⟨{ (((live).p R.REF_STATUS F.REF_STATUS_STATE 2).p R.REF_STATUS F.REF_STATUS_SEL_CAND 2) with ref := { live.ref with cands := [(2, { Cand.reset with qual := true })] } },
    by decide +kernel⟩

theorem meets_Selector_6 : ∃ (s : State) (o1 : Int) (o2 : Int), s.inReset = false ∧ s.ref.offs = [o1, o2] ∧ s.g
    R.REF_STATUS F.REF_STATUS_STATE = 1 ∧ s.ref.measured = false ∧ s.ref.fromHold = false ∧ s.targetLost = false ∧
    s.g R.REF_STATUS F.REF_STATUS_SEL_CLASS = 2 ∧ s.on R.TSC_CTRL F.TSC_CTRL_STEER = false ∧ s.g R.REF_STATUS
    F.REF_STATUS_SEL_CAND ≠ 29 :=
  ⟨{ (((((((live.p R.REF_CTRL F.REF_CTRL_ENABLE 1).setRegN (R.REF_PRIOn 3) 2).p (R.REF_PRIOn 3) F.REF_PRIOn_ENABLE 1)).p R.REF_STATUS F.REF_STATUS_STATE 1).p R.REF_STATUS F.REF_STATUS_SEL_CAND 2)).p R.REF_STATUS F.REF_STATUS_SEL_CLASS 2 with ref := { live.ref with cands := [(2, { Cand.reset with qual := true })], offs := [65536, 65530] } },
    65536, 65530,
    by decide +kernel⟩

theorem meets_Selector_7 : ∃ (s : State) (o1 : Int) (o2 : Int), s.inReset = false ∧ s.ref.offs = [o1, o2] ∧ s.g
    R.REF_STATUS F.REF_STATUS_STATE = 3 ∧ s.targetLost = false ∧ (s.g R.REF_STATUS F.REF_STATUS_SEL_CLASS = 2 ∨ s.g
    R.REF_STATUS F.REF_STATUS_SEL_CLASS = 3) ∧ s.on R.TSC_CTRL F.TSC_CTRL_STEER = true :=
  ⟨{ ((((((((live.p R.REF_CTRL F.REF_CTRL_ENABLE 1).setRegN (R.REF_PRIOn 3) 2).p (R.REF_PRIOn 3) F.REF_PRIOn_ENABLE 1)).p R.REF_STATUS F.REF_STATUS_STATE 3).p R.REF_STATUS F.REF_STATUS_SEL_CAND 2)).p R.REF_STATUS F.REF_STATUS_SEL_CLASS 2).p R.TSC_CTRL F.TSC_CTRL_STEER 1 with ref := { live.ref with cands := [(2, { Cand.reset with qual := true })], offs := [65536, 65530] } },
    65536, 65530,
    by decide +kernel⟩

theorem meets_Selector_8 : ∃ (s : State) (o1 : Int) (o2 : Int), s.inReset = false ∧ s.ref.offs = [o1, o2] ∧ s.g
    R.REF_STATUS F.REF_STATUS_STATE = 3 ∧ s.targetLost = false ∧ (s.g R.REF_STATUS F.REF_STATUS_SEL_CLASS = 2 ∨ s.g
    R.REF_STATUS F.REF_STATUS_SEL_CLASS = 3) ∧ s.on R.TSC_CTRL F.TSC_CTRL_STEER = false ∧ |s.targetOffset o1 o2| ≤
    nsTicks (s.g R.REF_GUARD F.REF_GUARD_GUARD_NS) :=
  ⟨{ (((((((live.p R.REF_CTRL F.REF_CTRL_ENABLE 1).setRegN (R.REF_PRIOn 3) 2).p (R.REF_PRIOn 3) F.REF_PRIOn_ENABLE 1)).p R.REF_STATUS F.REF_STATUS_STATE 3).p R.REF_STATUS F.REF_STATUS_SEL_CAND 2)).p R.REF_STATUS F.REF_STATUS_SEL_CLASS 2 with ref := { live.ref with cands := [(2, { Cand.reset with qual := true })], offs := [65, 66] } },
    65, 66,
    by decide +kernel⟩

theorem meets_Selector_9 : ∃ (s : State), s.inReset = false ∧ s.running = true ∧ s.on R.REF_CTRL F.REF_CTRL_ENABLE =
    true ∧ s.g R.REF_STATUS F.REF_STATUS_STATE = 0 ∧ s.chosen = none :=
  ⟨(((live.p R.REF_CTRL F.REF_CTRL_ENABLE 1).setRegN (R.REF_PRIOn 3) 2).p (R.REF_PRIOn 3) F.REF_PRIOn_ENABLE 1),
    by decide +kernel⟩

theorem meets_Selector_10 : ∃ (s : State), s.inReset = false ∧ s.running = true ∧ s.on R.REF_CTRL F.REF_CTRL_ENABLE =
    true ∧ s.g R.REF_STATUS F.REF_STATUS_STATE = 4 ∧ s.chosen = none :=
  ⟨((((((live.p R.REF_CTRL F.REF_CTRL_ENABLE 1).setRegN (R.REF_PRIOn 3) 2).p (R.REF_PRIOn 3) F.REF_PRIOn_ENABLE 1)).p
    R.REF_STATUS F.REF_STATUS_STATE 4).p R.REF_STATUS F.REF_STATUS_SEL_CAND 2),
    by decide +kernel⟩

theorem meets_Selector_11 : ∃ (s : State), s.inReset = false ∧ (s.running = false ∨ s.on R.REF_CTRL F.REF_CTRL_ENABLE
    = false) ∧ (s.g R.REF_STATUS F.REF_STATUS_STATE = 0 ∨ s.g R.REF_STATUS F.REF_STATUS_STATE = 4) :=
  ⟨live,
    by decide +kernel⟩

theorem meets_Selector_12 : ∃ (s : State) (e : Nat), s.inReset = false ∧ s.running = true ∧ s.on R.REF_CTRL
    F.REF_CTRL_ENABLE = true ∧ s.g R.REF_STATUS F.REF_STATUS_STATE = 4 ∧ s.chosen = some e ∧ e < 16 :=
  ⟨{ ((((((live.p R.REF_CTRL F.REF_CTRL_ENABLE 1).setRegN (R.REF_PRIOn 3) 2).p (R.REF_PRIOn 3) F.REF_PRIOn_ENABLE 1)).p R.REF_STATUS F.REF_STATUS_STATE 4).p R.REF_STATUS F.REF_STATUS_SEL_CAND 2) with ref := { live.ref with cands := [(2, { Cand.reset with qual := true })] } },
    3,
    by decide +kernel⟩

theorem meets_Selector_13 : ∃ (s : State) (e : Nat), s.inReset = false ∧ s.running = true ∧ s.on R.REF_CTRL
    F.REF_CTRL_ENABLE = true ∧ s.g R.REF_STATUS F.REF_STATUS_STATE = 1 ∧ s.targetLost = true ∧ s.chosen = some e ∧ e
    < 16 :=
  ⟨{ (((((((live.p R.REF_CTRL F.REF_CTRL_ENABLE 1).setRegN (R.REF_PRIOn 3) 2).p (R.REF_PRIOn 3) F.REF_PRIOn_ENABLE 1)).p R.REF_STATUS F.REF_STATUS_STATE 1).p R.REF_STATUS F.REF_STATUS_SEL_CAND 2)).p R.REF_STATUS F.REF_STATUS_SEL_CAND 1 with ref := { live.ref with cands := [(2, { Cand.reset with qual := true })] } },
    3,
    by decide +kernel⟩

theorem meets_Selector_14 : ∃ (s : State), s.inReset = false ∧ s.running = true ∧ s.on R.REF_CTRL F.REF_CTRL_ENABLE =
    true ∧ s.g R.REF_STATUS F.REF_STATUS_STATE = 1 ∧ s.targetLost = true ∧ s.chosen = none ∧ s.ref.fromHold = false :=
  ⟨((((((live.p R.REF_CTRL F.REF_CTRL_ENABLE 1).setRegN (R.REF_PRIOn 3) 2).p (R.REF_PRIOn 3) F.REF_PRIOn_ENABLE 1)).p
    R.REF_STATUS F.REF_STATUS_STATE 1).p R.REF_STATUS F.REF_STATUS_SEL_CAND 2),
    by decide +kernel⟩

theorem meets_Selector_15 : ∃ (s : State), s.inReset = false ∧ s.running = true ∧ s.on R.REF_CTRL F.REF_CTRL_ENABLE =
    true ∧ s.g R.REF_STATUS F.REF_STATUS_STATE = 1 ∧ s.targetLost = true ∧ s.chosen = none ∧ s.ref.fromHold = true :=
  ⟨{ ((((((live.p R.REF_CTRL F.REF_CTRL_ENABLE 1).setRegN (R.REF_PRIOn 3) 2).p (R.REF_PRIOn 3) F.REF_PRIOn_ENABLE 1)).p R.REF_STATUS F.REF_STATUS_STATE 1).p R.REF_STATUS F.REF_STATUS_SEL_CAND 2) with ref := { live.ref with fromHold := true } },
    by decide +kernel⟩

theorem meets_Selector_16 : ∃ (s : State), s.inReset = false ∧ s.running = true ∧ s.on R.REF_CTRL F.REF_CTRL_ENABLE =
    true ∧ s.g R.REF_STATUS F.REF_STATUS_STATE = 1 ∧ s.targetLost = false ∧ s.ref.measured = false ∧ s.ref.inLock + 1
    < 1000 * s.g R.REF_LOCK F.REF_LOCK_LOCK_S :=
  ⟨{ ((((((live.p R.REF_CTRL F.REF_CTRL_ENABLE 1).setRegN (R.REF_PRIOn 3) 2).p (R.REF_PRIOn 3) F.REF_PRIOn_ENABLE 1)).p R.REF_STATUS F.REF_STATUS_STATE 1).p R.REF_STATUS F.REF_STATUS_SEL_CAND 2) with ref := { live.ref with cands := [(2, { Cand.reset with qual := true })] } },
    by decide +kernel⟩

theorem meets_Selector_17 : ∃ (s : State), s.inReset = false ∧ s.running = true ∧ s.on R.REF_CTRL F.REF_CTRL_ENABLE =
    true ∧ s.g R.REF_STATUS F.REF_STATUS_STATE = 1 ∧ s.targetLost = false ∧ s.ref.measured = true ∧ s.ref.inLock + 1
    < 1000 * s.g R.REF_LOCK F.REF_LOCK_LOCK_S ∧ s.g R.REF_STATUS F.REF_STATUS_SEL_CAND ≠ 29 ∧ s.on R.TSC_CTRL
    F.TSC_CTRL_STEER = false ∧ s.g R.REF_STATUS F.REF_STATUS_GUARDING = 0 :=
  ⟨{ (((((((live.p R.REF_CTRL F.REF_CTRL_ENABLE 1).setRegN (R.REF_PRIOn 3) 2).p (R.REF_PRIOn 3) F.REF_PRIOn_ENABLE 1)).p R.REF_STATUS F.REF_STATUS_STATE 1).p R.REF_STATUS F.REF_STATUS_SEL_CAND 2)).p R.REF_LOCK F.REF_LOCK_LOCK_S 5 with ref := { live.ref with cands := [(2, { Cand.reset with qual := true })], measured := true } },
    by decide +kernel⟩

theorem meets_Selector_18 : ∃ (s : State), s.inReset = false ∧ s.running = true ∧ s.on R.REF_CTRL F.REF_CTRL_ENABLE =
    true ∧ s.g R.REF_STATUS F.REF_STATUS_STATE = 2 ∧ s.targetLost = false ∧ s.ref.outLock + 1 < 1000 ∧ s.moveDue =
    none ∧ s.g R.REF_STATUS F.REF_STATUS_SEL_CAND ≠ 29 ∧ s.on R.TSC_CTRL F.TSC_CTRL_STEER = false ∧ s.g R.REF_STATUS
    F.REF_STATUS_GUARDING = 0 :=
  ⟨{ ((((((live.p R.REF_CTRL F.REF_CTRL_ENABLE 1).setRegN (R.REF_PRIOn 3) 2).p (R.REF_PRIOn 3) F.REF_PRIOn_ENABLE 1)).p R.REF_STATUS F.REF_STATUS_STATE 2).p R.REF_STATUS F.REF_STATUS_SEL_CAND 2) with ref := { live.ref with cands := [(2, { Cand.reset with qual := true })] } },
    by decide +kernel⟩

theorem meets_Selector_19 : ∃ (s : State), s.inReset = false ∧ s.running = true ∧ s.on R.REF_CTRL F.REF_CTRL_ENABLE =
    true ∧ s.g R.REF_STATUS F.REF_STATUS_STATE = 2 ∧ s.targetLost = false ∧ s.ref.outLock + 1 < 1000 ∧ s.moveDue =
    none ∧ s.g R.REF_STATUS F.REF_STATUS_SEL_CAND = 29 :=
  ⟨{ (((((((live.p R.REF_CTRL F.REF_CTRL_ENABLE 1).setRegN (R.REF_PRIOn 3) 2).p (R.REF_PRIOn 3) F.REF_PRIOn_ENABLE 1)).p R.REF_STATUS F.REF_STATUS_STATE 2).p R.REF_STATUS F.REF_STATUS_SEL_CAND 2)).p R.REF_STATUS F.REF_STATUS_SEL_CAND 29 with ref := { live.ref with cands := [(29, { Cand.reset with qual := true })] } },
    by decide +kernel⟩

theorem meets_Selector_20 : ∃ (s : State) (e : Nat), s.inReset = false ∧ s.running = true ∧ s.on R.REF_CTRL
    F.REF_CTRL_ENABLE = true ∧ s.g R.REF_STATUS F.REF_STATUS_STATE = 2 ∧ s.targetLost = false ∧ s.ref.outLock + 1 <
    1000 ∧ s.moveDue = some e ∧ e < 16 :=
  ⟨{ ((((((((((live.p R.REF_CTRL F.REF_CTRL_ENABLE 1).setRegN (R.REF_PRIOn 3) 2).p (R.REF_PRIOn 3) F.REF_PRIOn_ENABLE 1)).p R.REF_STATUS F.REF_STATUS_STATE 2).p R.REF_STATUS F.REF_STATUS_SEL_CAND 2)).p R.REF_STATUS F.REF_STATUS_SEL_CAND 1).p R.REF_STATUS F.REF_STATUS_SEL_ENTRY 7).p R.REF_CTRL F.REF_CTRL_REVERTIVE 1) with ref := { live.ref with cands := [(2, { Cand.reset with qual := true }), (1, { Cand.reset with qual := true })], wtr := [3] } },
    3,
    by decide +kernel⟩

theorem meets_Selector_21 : ∃ (s : State), s.inReset = false ∧ s.running = true ∧ s.on R.REF_CTRL F.REF_CTRL_ENABLE =
    true ∧ s.g R.REF_STATUS F.REF_STATUS_STATE = 3 ∧ s.targetLost = true ∧ s.chosen = none :=
  ⟨((((((live.p R.REF_CTRL F.REF_CTRL_ENABLE 1).setRegN (R.REF_PRIOn 3) 2).p (R.REF_PRIOn 3) F.REF_PRIOn_ENABLE 1)).p
    R.REF_STATUS F.REF_STATUS_STATE 3).p R.REF_STATUS F.REF_STATUS_SEL_CAND 2),
    by decide +kernel⟩

theorem meets_Selector_22 : ∃ (s : State) (e : Nat), s.inReset = false ∧ s.running = true ∧ s.on R.REF_CTRL
    F.REF_CTRL_ENABLE = true ∧ s.g R.REF_STATUS F.REF_STATUS_STATE = 3 ∧ s.targetLost = true ∧ s.chosen = some e ∧ e
    < 16 :=
  ⟨{ (((((((live.p R.REF_CTRL F.REF_CTRL_ENABLE 1).setRegN (R.REF_PRIOn 3) 2).p (R.REF_PRIOn 3) F.REF_PRIOn_ENABLE 1)).p R.REF_STATUS F.REF_STATUS_STATE 3).p R.REF_STATUS F.REF_STATUS_SEL_CAND 2)).p R.REF_STATUS F.REF_STATUS_SEL_CAND 1 with ref := { live.ref with cands := [(2, { Cand.reset with qual := true })] } },
    3,
    by decide +kernel⟩

theorem meets_Selector_23 : ∃ (s : State), s.inReset = false ∧ s.running = true ∧ s.on R.REF_CTRL F.REF_CTRL_ENABLE =
    true ∧ s.g R.REF_STATUS F.REF_STATUS_STATE = 3 ∧ s.targetLost = false ∧ s.g R.REF_STATUS F.REF_STATUS_SEL_CLASS =
    1 :=
  ⟨{ (((((((live.p R.REF_CTRL F.REF_CTRL_ENABLE 1).setRegN (R.REF_PRIOn 3) 2).p (R.REF_PRIOn 3) F.REF_PRIOn_ENABLE 1)).p R.REF_STATUS F.REF_STATUS_STATE 3).p R.REF_STATUS F.REF_STATUS_SEL_CAND 2)).p R.REF_STATUS F.REF_STATUS_SEL_CLASS 1 with ref := { live.ref with cands := [(2, { Cand.reset with qual := true })] } },
    by decide +kernel⟩

theorem meets_Selector_24 : ∃ (s : State), s.inReset = false ∧ s.running = true ∧ s.on R.REF_CTRL F.REF_CTRL_ENABLE =
    true ∧ s.g R.REF_STATUS F.REF_STATUS_STATE = 3 ∧ s.targetLost = false ∧ s.g R.REF_STATUS F.REF_STATUS_SEL_CLASS ≠
    1 :=
  ⟨{ ((((((live.p R.REF_CTRL F.REF_CTRL_ENABLE 1).setRegN (R.REF_PRIOn 3) 2).p (R.REF_PRIOn 3) F.REF_PRIOn_ENABLE 1)).p R.REF_STATUS F.REF_STATUS_STATE 3).p R.REF_STATUS F.REF_STATUS_SEL_CAND 2) with ref := { live.ref with cands := [(2, { Cand.reset with qual := true })] } },
    by decide +kernel⟩

theorem meets_Selector_25 : ∃ (s : State), s.inReset = false ∧ (s.ref.offs.length ≠ 2 ∨ s.measuring = false ∨
    s.targetLost = true) :=
  ⟨live,
    by decide +kernel⟩

theorem meets_Selector_26 : ∃ (s : State) (o1 : Int) (o2 : Int), s.inReset = false ∧ s.ref.offs = [o1, o2] ∧ s.g
    R.REF_STATUS F.REF_STATUS_STATE = 3 ∧ s.targetLost = false ∧ (s.g R.REF_STATUS F.REF_STATUS_SEL_CLASS = 2 ∨ s.g
    R.REF_STATUS F.REF_STATUS_SEL_CLASS = 3) ∧ s.on R.TSC_CTRL F.TSC_CTRL_STEER = false ∧ nsTicks (s.g R.REF_GUARD
    F.REF_GUARD_GUARD_NS) < s.targetOffset o1 o2 :=
  ⟨{ (((((((live.p R.REF_CTRL F.REF_CTRL_ENABLE 1).setRegN (R.REF_PRIOn 3) 2).p (R.REF_PRIOn 3) F.REF_PRIOn_ENABLE 1)).p R.REF_STATUS F.REF_STATUS_STATE 3).p R.REF_STATUS F.REF_STATUS_SEL_CAND 2)).p R.REF_STATUS F.REF_STATUS_SEL_CLASS 3 with ref := { live.ref with cands := [(2, { Cand.reset with qual := true })], offs := [10000000000000, 10000000000000] } },
    10000000000000, 10000000000000,
    by decide +kernel⟩

theorem meets_JournalStates_1 : ∃ (s : State), s.accepts R.SPR_CTRL ∧ s.g R.SPR_CTRL F.SPR_CTRL_EN = 0 ∧ s.sprN ≠ 0 ∧
    s.spr.latch = none ∧ s.spr.lossNew = none ∧ s.spr.fifo = [] :=
  ⟨live.setRegN R.SPR_SIZE 524288,
    by decide +kernel⟩

theorem meets_JournalStates_2 : ∃ (s : State), s.accepts R.SPR_CTRL ∧ s.g R.SPR_CTRL F.SPR_CTRL_EN = 1 :=
  ⟨live.p R.SPR_CTRL F.SPR_CTRL_EN 1,
    by decide +kernel⟩

theorem meets_JournalStates_3 : ∃ (s : State) (v : Word), s.accepts R.SPR_CMD ∧ s.sprState = sprArmed ∧
    F.SPR_CMD_REARM.get v = 0 ∧ F.SPR_CMD_FETCH.get v = 0 :=
  ⟨{ (live.p R.SPR_STATUS F.SPR_STATUS_STATE sprArmed) with spr := { live.spr with seq := 0 } }, 0#32,
    by decide +kernel⟩

theorem meets_JournalStates_4 : ∃ (s : State) (fall : Bool) (ns : Nat), s.inReset = false ∧ s.sprState = sprArmed ∧
    s.spr.latch = none ∧ s.on R.SPR_TRIG_EN F.SPR_TRIG_EN_PIN = true ∧ s.on R.SPR_TRIG_EN F.SPR_TRIG_EN_PIN_EDGE =
    fall ∧ 20 ≤ ns :=
  ⟨({ (live.p R.SPR_STATUS F.SPR_STATUS_STATE sprArmed) with spr := { live.spr with seq := 0 } }).p R.SPR_TRIG_EN
    F.SPR_TRIG_EN_PIN 1, false, 20,
    by decide +kernel⟩

theorem meets_JournalStates_5 : ∃ (s : State), s.inReset = false ∧ s.postDone = true ∧ s.spr.formed = [] :=
  ⟨{ (live.p R.SPR_STATUS F.SPR_STATUS_STATE sprPost) with spr := { live.spr with fifo := [⟨7#64, false, false, false, false, false, 0, 1, 0, 0, 0, 1, 2, 3, 4⟩] } },
    by decide +kernel⟩

theorem meets_JournalStates_6 : ∃ (s : State) (v : Word), s.accepts R.SPR_CMD ∧ s.sprState = sprFrozen ∧ s.spr.latch
    = none ∧ F.SPR_CMD_FIRE.get v = 0 ∧ F.SPR_CMD_FETCH.get v = 0 :=
  ⟨{ (live.p R.SPR_STATUS F.SPR_STATUS_STATE sprFrozen) with spr := { live.spr with seq := 0 } }, 0#32,
    by decide +kernel⟩

theorem meets_JournalWritesAndReadout_1 : ∃ (s : State) (r : Rec) (l : List Rec), s.inReset = false ∧ s.spr.fifo = r
    :: l ∧ s.sprWrites = true :=
  ⟨{ (((live.p R.QUE_STATUS F.QUE_STATUS_DRAM_READY 1).setRegN R.SPR_SIZE 524288).p R.SPR_STATUS F.SPR_STATUS_STATE sprArmed) with spr := { live.spr with fifo := [⟨7#64, false, false, false, false, false, 0, 1, 0, 0, 0, 1, 2, 3, 4⟩] } },
    ⟨7#64, false, false, false, false, false, 0, 1, 0, 0, 0, 1, 2, 3, 4⟩, [],
    by decide +kernel⟩

theorem meets_JournalWritesAndReadout_2 : ∃ (s : State), s.inReset = false ∧ s.on R.SPR_STATUS F.SPR_STATUS_LOSSING =
    true ∧ s.spr.fifo.length ≤ 2048 ∧ s.on R.SPR_CTRL F.SPR_CTRL_EN = true ∧ s.sprState ≠ sprFrozen :=
  ⟨{ (((live.p R.SPR_CTRL F.SPR_CTRL_EN 1).p R.SPR_STATUS F.SPR_STATUS_LOSSING 1).p R.SPR_STATUS F.SPR_STATUS_STATE sprArmed) with spr := { live.spr with lostSel := 4 } },
    by decide +kernel⟩

theorem meets_JournalWritesAndReadout_3 : ∃ (s : State) (v : Word), s.accepts R.SPR_CMD ∧ s.on R.SPR_FETCH_STATUS
    F.SPR_FETCH_STATUS_BUSY = false ∧ F.SPR_CMD_REARM.get v = 0 ∧ F.SPR_CMD_FIRE.get v = 0 :=
  ⟨live, 0#32,
    by decide +kernel⟩

theorem meets_JournalWritesAndReadout_4 : ∃ (s : State), s.inReset = false ∧ s.on R.SPR_FETCH_STATUS
    F.SPR_FETCH_STATUS_BUSY = true ∧ s.sprN ≠ 0 ∧ s.spr.fetch < s.wrCount ∧ s.wrCount ≤ s.spr.fetch + s.sprN :=
  ⟨{ (((live.p R.QUE_STATUS F.QUE_STATUS_DRAM_READY 1).setRegN R.SPR_SIZE 524288).p R.SPR_FETCH_STATUS F.SPR_FETCH_STATUS_BUSY 1).setPair R.SPR_WR_COUNT_LO 3 with dram := [(33, 7#8)], spr := { live.spr with fetch := 1 } },
    by decide +kernel⟩

theorem meets_JournalWritesAndReadout_5 : ∃ (s : State), s.inReset = false ∧ s.on R.SPR_FETCH_STATUS
    F.SPR_FETCH_STATUS_BUSY = true ∧ s.sprN ≠ 0 ∧ s.wrCount ≤ s.spr.fetch :=
  ⟨(((live.p R.QUE_STATUS F.QUE_STATUS_DRAM_READY 1).setRegN R.SPR_SIZE 524288).p R.SPR_FETCH_STATUS
    F.SPR_FETCH_STATUS_BUSY 1),
    by decide +kernel⟩

theorem meets_JournalWritesAndReadout_6 : ∃ (s : State) (desc : List Byte), s.inReset = false ∧ s.dramServes = true ∧
    (s.ready 2).length < s.posted 2 ∧ journalLen (descLen desc) = true ∧ descBuf desc % 64 = 0 ∧ s.sprN ≠ 0 ∧
    s.wrCount ≤ s.rdCount + s.sprN ∧ descLen desc / 32 ≤ s.wrCount - s.rdCount ∧ s.sprState ≠ sprFrozen :=
  ⟨(((((live.p R.QUE_STATUS F.QUE_STATUS_DRAM_READY 1).setRegN R.SPR_SIZE 524288).p (R.HIF_DMAk_STATUS 2)
    F.HIF_DMAk_STATUS_RUNNING 1).p (R.HIF_DMAk_TAIL 2) F.HIF_DMAk_TAIL_TAIL 2).setPair R.SPR_WR_COUNT_LO 3), leBytes
    8 0x1000 ++ leBytes 2 64 ++ leBytes 2 0,
    by decide +kernel⟩

theorem meets_JournalWritesAndReadout_7 : ∃ (s : State) (desc : List Byte), s.inReset = false ∧ s.dramServes = true ∧
    (s.ready 2).length < s.posted 2 ∧ journalLen (descLen desc) = true ∧ descBuf desc % 64 = 0 ∧ s.sprN ≠ 0 ∧
    s.wrCount ≤ s.rdCount + s.sprN ∧ maskBit (descFlags desc) 0 = false ∧ s.wrCount - s.rdCount < descLen desc / 32 ∧
    s.rdCount < s.wrCount ∧ s.sprState ≠ sprFrozen :=
  ⟨(((((live.p R.QUE_STATUS F.QUE_STATUS_DRAM_READY 1).setRegN R.SPR_SIZE 524288).p (R.HIF_DMAk_STATUS 2)
    F.HIF_DMAk_STATUS_RUNNING 1).p (R.HIF_DMAk_TAIL 2) F.HIF_DMAk_TAIL_TAIL 2).setPair R.SPR_WR_COUNT_LO 3), leBytes
    8 0x1000 ++ leBytes 2 128 ++ leBytes 2 0,
    by decide +kernel⟩

theorem meets_JournalWritesAndReadout_8 : ∃ (s : State), s.accepts R.SPR_RD_COUNT_LO ∧ s.accepts R.SPR_RD_COUNT_HI :=
  ⟨(((((live.p R.QUE_STATUS F.QUE_STATUS_DRAM_READY 1).setRegN R.SPR_SIZE 524288).p (R.HIF_DMAk_STATUS 2)
    F.HIF_DMAk_STATUS_RUNNING 1).p (R.HIF_DMAk_TAIL 2) F.HIF_DMAk_TAIL_TAIL 2).setPair R.SPR_WR_COUNT_LO 3),
    by decide +kernel⟩

theorem meets_LoopsDomainsAndOutputs_1 : ∃ (s : State), s.inReset = false ∧ s.loopLocked .jpll = false ∧ s.hif.held =
    [] ∧ s.hif.flow = [] ∧ s.bootState ≠ bootClocks ∧ Loop.jpll ∉ s.syn.locked ∧ Loop.jpll ∉ s.syn.settling :=
  ⟨State.reset,
    by decide +kernel⟩

theorem meets_LoopsDomainsAndOutputs_2 : ∃ (s : State), s.inReset = false ∧ s.loopLocked .jpll = false ∧ s.hif.held =
    [] ∧ s.hif.flow = [] ∧ s.bootState ≠ bootClocks ∧ Loop.jpll ∈ s.syn.locked :=
  ⟨live,
    by decide +kernel⟩

theorem meets_LoopsDomainsAndOutputs_3 : ∃ (s : State) (l : Loop), s.inReset = false ∧ s.loopLocked l = false ∧ l ∈
    [Loop.hk, .jpll, .core, .dram] :=
  ⟨live, .hk,
    by decide +kernel⟩

theorem meets_LoopsDomainsAndOutputs_4 : ∃ (s : State) (n : Fin 28), s.inReset = false ∧ s.loopLocked (.lane n) =
    false :=
  ⟨live, 5,
    by decide +kernel⟩

theorem meets_LoopsDomainsAndOutputs_5 : ∃ (s : State), s.inReset = false ∧ s.loopLocked .jpll = true :=
  ⟨live.setRegN R.SYN_STATUS 0xF,
    by decide +kernel⟩

theorem meets_LoopsDomainsAndOutputs_6 : ∃ (s : State), s.inReset = false ∧ s.loopLocked .core = true :=
  ⟨live.setRegN R.SYN_STATUS 0xF,
    by decide +kernel⟩

theorem meets_LoopsDomainsAndOutputs_7 : ∃ (s : State), s.inReset = false ∧ s.loopLocked .dram = true :=
  ⟨live.setRegN R.SYN_STATUS 0xF,
    by decide +kernel⟩

theorem meets_LoopsDomainsAndOutputs_8 : ∃ (s : State), s.inReset = false ∧ s.loopLocked .hk = true :=
  ⟨live.setRegN R.SYN_STATUS 0xF,
    by decide +kernel⟩

theorem meets_LoopsDomainsAndOutputs_9 : ∃ (s : State) (n : Fin 24), s.inReset = false ∧ s.loopLocked (.lane n) =
    true :=
  ⟨{ live with syn := { live.syn with lanes := [3] } }, 3,
    by decide +kernel⟩

theorem meets_LoopsDomainsAndOutputs_10 : ∃ (s : State), s.inReset = false ∧ s.loopLocked .core = false ∧ Dom.core ∉
    s.gated :=
  ⟨live,
    by decide +kernel⟩

theorem meets_LoopsDomainsAndOutputs_11 : ∃ (s : State) (n : Fin 10), s.inReset = false ∧ (s.outRun n).settling =
    true :=
  ⟨{ live with syn := { live.syn with outs := [(3, { OutRun.reset with settling := true })] } }, 3,
    by decide +kernel⟩

theorem meets_LoopsDomainsAndOutputs_12 : ∃ (s : State) (n : Nat), s.inReset = false ∧ s.syn.settling = [.jpll] ∧
    s.loopLocked .jpll = true ∧ s.gated = [.timescale] ∧ s.hif.held = [] ∧ s.hif.flow = [] ∧ s.fwd = Fwd.reset ∧ 0 <
    n ∧ s.tsc.newRate = none ∧ s.tsc.inject = none ∧ s.tsc.restore = [] ∧ s.tsc.rejoin = [] ∧ (∀ i : Fin 3,
    s.tsc.copy i = s.tsc.voted) ∧ cSub s.tsc.voted < secUnits ∧ n < 2 ^ 40 :=
  ⟨{ live with syn := { live.syn with settling := [.jpll] }, gated := [.timescale], regs := (live.setRegN R.SYN_STATUS 0xF).regs, tsc := { live.tsc with voted := mkCopy 5 7 (2 ^ 49), c0 := mkCopy 5 7 (2 ^ 49), c1 := mkCopy 5 7 (2 ^ 49), c2 := mkCopy 5 7 (2 ^ 49) } },
    1000,
    by decide +kernel⟩

theorem meets_LoopsDomainsAndOutputs_13 : ∃ (s : State) (l : Loop), s.inReset = false ∧ l ∉ s.syn.settling :=
  ⟨live, .core,
    by decide +kernel⟩

theorem meets_LoopsDomainsAndOutputs_14 : ∃ (s : State) (k : Fin 24), s.inReset = false ∧ s.syn.settling.count (.lane
    k) = 1 ∧ s.loopLocked (.lane k) = true ∧ s.hif.held = [] ∧ s.hif.flow = [] :=
  ⟨{ live with syn := { live.syn with settling := [.lane 3], lanes := [3] }, gated := [.lane 3] }, 3,
    by decide +kernel⟩

theorem meets_LoopsDomainsAndOutputs_15 : ∃ (s : State), s.inReset = false ∧ s.syn.settling.count .dram = 1 ∧
    s.hif.held = [] ∧ s.hif.flow = [] ∧ s.fwdOk :=
  ⟨{ live with syn := { live.syn with settling := [.dram] } },
    by decide +kernel⟩

theorem meets_LoopsDomainsAndOutputs_16 : ∃ (s : State) (n : Fin 10), s.inReset = false ∧ (s.outRun n).settling =
    false :=
  ⟨live, 3,
    by decide +kernel⟩

theorem meets_LoopsDomainsAndOutputs_17 : ∃ (s : State), s.accepts R.SYN_UPDATE ∧ s.g R.SYN_STATUS
    F.SYN_STATUS_PENDING = 0 :=
  ⟨live,
    by decide +kernel⟩

theorem meets_LoopsDomainsAndOutputs_18 : ∃ (s : State), s.inReset = false ∧ s.stepDue = false ∧ s.runs .timescale =
    true ∧ s.applies = true :=
  ⟨{ (((live.p R.SYN_STATUS F.SYN_STATUS_PENDING 1).setRegN (R.SYN_On_CFG 3) 1).setRegN (R.SYN_On_INT 9) 77) with tsc := { live.tsc with tick := 5000, carried := true }, syn := { live.syn with second := true } },
    by decide +kernel⟩

theorem meets_LoopsDomainsAndOutputs_19 : ∃ (s : State), s.inReset = false :=
  ⟨live,
    by decide +kernel⟩

theorem meets_LoopsDomainsAndOutputs_20 : ∃ (s : State) (n : Fin 10) (ahead : Nat), s.inReset = false ∧ s.running =
    true ∧ s.relayed n = true ∧ s.gateCause n = 0 ∧ (s.outRun n).level = false ∧ (s.outRun n).lastRise.any (fun x =>
    tooSoon (s.period n) (F.SYN_On_GUARD_MARGIN_PPM.get (s.inForce (R.SYN_On_GUARD n))) (s.realNow + ahead +
    s.relayDelay n - x)) = false ∧ (s.outCtx n).lowShort (s.outRun n) (s.realNow + ahead + s.relayDelay n) = false :=
  ⟨{ live.p R.REF_STATUS F.REF_STATUS_COND 1 with syn := { live.syn with outs := [(3, { OutRun.reset with lower := true })], force := [(R.SYN_On_CFG 3, F.SYN_On_CFG_EN.put (F.SYN_On_CFG_CLAIM_MODE.put 0#32 2) 1)] } },
    3, 1000000,
    by decide +kernel⟩

theorem meets_LoopsDomainsAndOutputs_21 : ∃ (s : State) (n : Fin 10) (ahead : Nat), s.inReset = false ∧ s.running =
    true ∧ s.relayed n = true ∧ s.gateCause n = 0 ∧ (s.outRun n).level = false ∧ (s.outRun n).lastRise.any (fun x =>
    tooSoon (s.period n) (F.SYN_On_GUARD_MARGIN_PPM.get (s.inForce (R.SYN_On_GUARD n))) (s.realNow + ahead +
    s.relayDelay n - x)) = true :=
  ⟨{ live.p R.REF_STATUS F.REF_STATUS_COND 1 with syn := { live.syn with outs := [(3, { OutRun.reset with lower := true, lastRise := some 72000 })], force := [(R.SYN_On_CFG 3, F.SYN_On_CFG_EN.put (F.SYN_On_CFG_CLAIM_MODE.put 0#32 2) 1), (R.SYN_On_INT 3, 1000#32)] } },
    3, 10,
    by decide +kernel⟩

theorem meets_LoopsDomainsAndOutputs_22 : ∃ (s : State) (n : Fin 10), s.inReset = false ∧ (s.outRun n).level = true ∧
    (s.outRun n).byRelay = true :=
  ⟨{ live.p R.REF_STATUS F.REF_STATUS_COND 1 with syn := { live.syn with outs := [(3, { OutRun.reset with lower := true, level := true, byRelay := true })], force := [(R.SYN_On_CFG 3, F.SYN_On_CFG_EN.put (F.SYN_On_CFG_CLAIM_MODE.put 0#32 2) 1)] } },
    3,
    by decide +kernel⟩

theorem meets_EventEdges_1 : ∃ (s : State) (e : Fin 8) (rise : Bool) (since : Nat) (hold : Option Nat) (s1 : Int)
    (span : Int), s.inReset = false ∧ s.running = true ∧ s.stamps e = true ∧ s.runs .timescale = true ∧ s.g
    (R.TDC_En_STATUS e) F.TDC_En_STATUS_STUCK = 0 ∧ (s.g (R.TDC_En_CFG e) F.TDC_En_CFG_EDGE = 2 ∨ decide (s.g
    (R.TDC_En_CFG e) F.TDC_En_CFG_EDGE = 0) = ((rise != s.on (R.IOP_PINp_STATUS (14 + e.val))
    F.IOP_PINp_STATUS_POL_INV))) ∧ 3200 ≤ since ∧ (s.chan e).caps.length < 32 ∧ (s.chan e).back = false ∧ (∀ ns ∈
    hold, 2 * s.g (R.TDC_En_LIMITS e) F.TDC_En_LIMITS_FILT ≤ ns) ∧ (s.activeCal e).cal = some (s1, span) :=
  ⟨{ (((live.p R.TDC_CTRL F.TDC_CTRL_EN 1).p (R.TDC_En_CFG 2) F.TDC_En_CFG_EN 1).p (R.TDC_En_CFG 2) F.TDC_En_CFG_FIFO_EN 1) with tdc := { live.tdc with chans := [(2, { TdcChan.reset with a := ⟨some (800000, 800000), false⟩ })] } },
    2, true, 5000, none, 800000, 800000,
    by decide +kernel⟩

theorem meets_EventEdges_2 : ∃ (s : State) (e : Fin 8) (rise : Bool), s.inReset = false ∧ s.running = true ∧ s.stamps
    e = true ∧ s.runs .timescale = true ∧ s.g (R.TDC_En_STATUS e) F.TDC_En_STATUS_STUCK = 1 ∧ (s.g (R.TDC_En_CFG e)
    F.TDC_En_CFG_EDGE = 2 ∨ decide (s.g (R.TDC_En_CFG e) F.TDC_En_CFG_EDGE = 0) = ((rise != s.on (R.IOP_PINp_STATUS
    (14 + e.val)) F.IOP_PINp_STATUS_POL_INV))) :=
  ⟨({ (((live.p R.TDC_CTRL F.TDC_CTRL_EN 1).p (R.TDC_En_CFG 2) F.TDC_En_CFG_EN 1).p (R.TDC_En_CFG 2) F.TDC_En_CFG_FIFO_EN 1) with tdc := { live.tdc with chans := [(2, { TdcChan.reset with a := ⟨some (800000, 800000), false⟩ })] } }).p
    (R.TDC_En_STATUS 2) F.TDC_En_STATUS_STUCK 1, 2, true,
    by decide +kernel⟩

theorem meets_EventEdges_3 : ∃ (s : State) (e : Fin 8) (rise : Bool), s.inReset = false ∧ s.g (R.TDC_En_CFG e)
    F.TDC_En_CFG_EDGE ≠ 2 ∧ decide (s.g (R.TDC_En_CFG e) F.TDC_En_CFG_EDGE = 0) ≠ ((rise != s.on (R.IOP_PINp_STATUS
    (14 + e.val)) F.IOP_PINp_STATUS_POL_INV)) :=
  ⟨{ (((live.p R.TDC_CTRL F.TDC_CTRL_EN 1).p (R.TDC_En_CFG 2) F.TDC_En_CFG_EN 1).p (R.TDC_En_CFG 2) F.TDC_En_CFG_FIFO_EN 1) with tdc := { live.tdc with chans := [(2, { TdcChan.reset with a := ⟨some (800000, 800000), false⟩ })] } },
    2, false,
    by decide +kernel⟩

theorem meets_EventEdges_4 : ∃ (s : State) (e : Fin 8) (rise : Bool) (since : Nat) (s1 : Int) (span : Int), s.inReset
    = false ∧ s.running = true ∧ s.stamps e = true ∧ s.runs .timescale = true ∧ s.g (R.TDC_En_STATUS e)
    F.TDC_En_STATUS_STUCK = 0 ∧ (s.g (R.TDC_En_CFG e) F.TDC_En_CFG_EDGE = 2 ∨ decide (s.g (R.TDC_En_CFG e)
    F.TDC_En_CFG_EDGE = 0) = ((rise != s.on (R.IOP_PINp_STATUS (14 + e.val)) F.IOP_PINp_STATUS_POL_INV))) ∧ since <
    3200 ∧ (s.activeCal e).cal = some (s1, span) :=
  ⟨{ (((live.p R.TDC_CTRL F.TDC_CTRL_EN 1).p (R.TDC_En_CFG 2) F.TDC_En_CFG_EN 1).p (R.TDC_En_CFG 2) F.TDC_En_CFG_FIFO_EN 1) with tdc := { live.tdc with chans := [(2, { TdcChan.reset with a := ⟨some (800000, 800000), false⟩ })] } },
    2, true, 3199, 800000, 800000,
    by decide +kernel⟩

theorem meets_EventEdges_5 : ∃ (s : State) (e : Fin 8) (rise : Bool) (since : Nat) (s1 : Int) (span : Int), s.inReset
    = false ∧ s.running = true ∧ s.stamps e = true ∧ s.runs .timescale = true ∧ s.g (R.TDC_En_STATUS e)
    F.TDC_En_STATUS_STUCK = 0 ∧ (s.g (R.TDC_En_CFG e) F.TDC_En_CFG_EDGE = 2 ∨ decide (s.g (R.TDC_En_CFG e)
    F.TDC_En_CFG_EDGE = 0) = ((rise != s.on (R.IOP_PINp_STATUS (14 + e.val)) F.IOP_PINp_STATUS_POL_INV))) ∧ 3200 ≤
    since ∧ (s.chan e).back = false ∧ 32 ≤ (s.chan e).caps.length ∧ (s.activeCal e).cal = some (s1, span) :=
  ⟨{ (((live.p R.TDC_CTRL F.TDC_CTRL_EN 1).p (R.TDC_En_CFG 2) F.TDC_En_CFG_EN 1).p (R.TDC_En_CFG 2) F.TDC_En_CFG_FIFO_EN 1) with tdc := { live.tdc with chans := [(2, { TdcChan.reset with a := ⟨some (800000, 800000), false⟩, caps := List.replicate 32 ⟨5, 9#64, 2 ^ 49, 800000, 800000, 0, 0, false, 0⟩ })] } },
    2, true, 3200, 800000, 800000,
    by decide +kernel⟩

theorem meets_EventEdges_6 : ∃ (s : State) (e : Fin 8) (rise : Bool) (since : Nat) (hold : Option Nat) (ns : Nat),
    s.inReset = false ∧ s.running = true ∧ s.stamps e = true ∧ s.runs .timescale = true ∧ s.g (R.TDC_En_STATUS e)
    F.TDC_En_STATUS_STUCK = 0 ∧ (s.g (R.TDC_En_CFG e) F.TDC_En_CFG_EDGE = 2 ∨ decide (s.g (R.TDC_En_CFG e)
    F.TDC_En_CFG_EDGE = 0) = ((rise != s.on (R.IOP_PINp_STATUS (14 + e.val)) F.IOP_PINp_STATUS_POL_INV))) ∧ 3200 ≤
    since ∧ (s.chan e).back = false ∧ (s.chan e).caps.length < 32 ∧ hold = some ns ∧ ns < 2 * s.g (R.TDC_En_LIMITS e)
    F.TDC_En_LIMITS_FILT :=
  ⟨({ (((live.p R.TDC_CTRL F.TDC_CTRL_EN 1).p (R.TDC_En_CFG 2) F.TDC_En_CFG_EN 1).p (R.TDC_En_CFG 2) F.TDC_En_CFG_FIFO_EN 1) with tdc := { live.tdc with chans := [(2, { TdcChan.reset with a := ⟨some (800000, 800000), false⟩ })] } }).p
    (R.TDC_En_LIMITS 2) F.TDC_En_LIMITS_FILT 50, 2, true, 5000, some 99, 99,
    by decide +kernel⟩

theorem meets_EventEdges_7 : ∃ (s : State) (e : Fin 8) (x : TdcCap) (l : List TdcCap), s.inReset = false ∧ s.runs
    .timescale = true ∧ (s.chan e).caps = x :: l ∧ (∀ m : Fin 4, (s.unit m).win.isSome = true → s.ucfg m
    F.TDC_Mm_CFG_STOP ≠ e.val) ∧ s.g (R.TDC_En_CFG e) F.TDC_En_CFG_FIFO_EN = 1 ∧ (s.chan e).fifo.length < 32 :=
  ⟨{ (((live.p R.TDC_CTRL F.TDC_CTRL_EN 1).p (R.TDC_En_CFG 2) F.TDC_En_CFG_EN 1).p (R.TDC_En_CFG 2) F.TDC_En_CFG_FIFO_EN 1) with tdc := { live.tdc with chans := [(2, { TdcChan.reset with a := ⟨some (800000, 800000), false⟩, caps := [⟨5, 9#64, 2 ^ 49, 800000, 800000, 0, 0, false, 0⟩] })] } },
    2, ⟨5, 9#64, 2 ^ 49, 800000, 800000, 0, 0, false, 0⟩, [],
    by decide +kernel⟩

theorem meets_EventEdges_8 : ∃ (s : State) (e : Fin 8) (x : TdcCap) (l : List TdcCap), s.inReset = false ∧ s.runs
    .timescale = true ∧ (s.chan e).caps = x :: l ∧ s.g (R.TDC_En_CFG e) F.TDC_En_CFG_FIFO_EN = 1 ∧ (s.chan
    e).fifo.length < 32 :=
  ⟨{ (((live.p R.TDC_CTRL F.TDC_CTRL_EN 1).p (R.TDC_En_CFG 2) F.TDC_En_CFG_EN 1).p (R.TDC_En_CFG 2) F.TDC_En_CFG_FIFO_EN 1) with tdc := { live.tdc with chans := [(2, { TdcChan.reset with a := ⟨some (800000, 800000), false⟩, caps := [⟨5, 9#64, 2 ^ 49, 800000, 800000, 0, 0, false, 0⟩] })] } },
    2, ⟨5, 9#64, 2 ^ 49, 800000, 800000, 0, 0, false, 0⟩, [],
    by decide +kernel⟩

theorem meets_EventEdges_9 : ∃ (s : State) (e : Fin 8) (x : TdcCap) (l : List TdcCap), s.inReset = false ∧ s.runs
    .timescale = true ∧ (s.chan e).caps = x :: l ∧ (∀ m : Fin 4, (s.unit m).win.isSome = true → s.ucfg m
    F.TDC_Mm_CFG_STOP ≠ e.val) ∧ s.g (R.TDC_En_CFG e) F.TDC_En_CFG_FIFO_EN = 1 ∧ (s.chan e).fifo.length = 32 :=
  ⟨{ (((live.p R.TDC_CTRL F.TDC_CTRL_EN 1).p (R.TDC_En_CFG 2) F.TDC_En_CFG_EN 1).p (R.TDC_En_CFG 2) F.TDC_En_CFG_FIFO_EN 1) with tdc := { live.tdc with chans := [(2, { TdcChan.reset with a := ⟨some (800000, 800000), false⟩, caps := [⟨5, 9#64, 2 ^ 49, 800000, 800000, 0, 0, false, 0⟩], fifo := List.replicate 32 (5#64, false) })] } },
    2, ⟨5, 9#64, 2 ^ 49, 800000, 800000, 0, 0, false, 0⟩, [],
    by decide +kernel⟩

theorem meets_EventEdges_10 : ∃ (s : State) (e : Fin 8) (x : TdcCap) (l : List TdcCap), s.inReset = false ∧ s.runs
    .timescale = true ∧ (s.chan e).caps = x :: l ∧ s.g (R.TDC_En_CFG e) F.TDC_En_CFG_FIFO_EN = 1 ∧ (s.chan
    e).fifo.length = 32 :=
  ⟨{ (((live.p R.TDC_CTRL F.TDC_CTRL_EN 1).p (R.TDC_En_CFG 2) F.TDC_En_CFG_EN 1).p (R.TDC_En_CFG 2) F.TDC_En_CFG_FIFO_EN 1) with tdc := { live.tdc with chans := [(2, { TdcChan.reset with a := ⟨some (800000, 800000), false⟩, caps := [⟨5, 9#64, 2 ^ 49, 800000, 800000, 0, 0, false, 0⟩], fifo := List.replicate 32 (5#64, false) })] } },
    2, ⟨5, 9#64, 2 ^ 49, 800000, 800000, 0, 0, false, 0⟩, [],
    by decide +kernel⟩

theorem meets_EventEdges_11 : ∃ (s : State) (e : Fin 8) (x : TdcCap) (l : List TdcCap), s.inReset = false ∧ s.runs
    .timescale = true ∧ (s.chan e).caps = x :: l ∧ s.g (R.TDC_En_CFG e) F.TDC_En_CFG_FIFO_EN = 0 :=
  ⟨{ ((((live.p R.TDC_CTRL F.TDC_CTRL_EN 1).p (R.TDC_En_CFG 2) F.TDC_En_CFG_EN 1).p (R.TDC_En_CFG 2) F.TDC_En_CFG_FIFO_EN 1).p (R.TDC_En_CFG 2) F.TDC_En_CFG_FIFO_EN 0) with tdc := { live.tdc with chans := [(2, { TdcChan.reset with a := ⟨some (800000, 800000), false⟩, caps := [⟨5, 9#64, 2 ^ 49, 800000, 800000, 0, 0, false, 0⟩] })] } },
    2, ⟨5, 9#64, 2 ^ 49, 800000, 800000, 0, 0, false, 0⟩, [],
    by decide +kernel⟩

theorem meets_EventEdges_12 : ∃ (s : State) (e : Fin 8) (x : Tick64 × Bool) (l : List (Tick64 × Bool)), s.accepts
    (R.TDC_En_FIFO_POP e) ∧ (s.chan e).fifo = x :: l ∧ l.length < 32 :=
  ⟨{ (((live.p R.TDC_CTRL F.TDC_CTRL_EN 1).p (R.TDC_En_CFG 2) F.TDC_En_CFG_EN 1).p (R.TDC_En_CFG 2) F.TDC_En_CFG_FIFO_EN 1) with tdc := { live.tdc with chans := [(2, { TdcChan.reset with fifo := [(5#64, true), (6#64, false)] })] } },
    2, (5#64, true), [(6#64, false)],
    by decide +kernel⟩

theorem meets_EventChannels_1 : ∃ (s : State) (e : Fin 8) (a : Nat) (b : Nat), s.inReset = false ∧ s.chanEn e = true
    ∧ s.runs .timescale = true ∧ (s.chan e).calA = true ∧ (s.chan e).calB = true ∧ s.g (R.TDC_En_STATUS e)
    F.TDC_En_STATUS_IN_SERVICE = 0 ∧ calValid a ((b : Int) - a) = true :=
  ⟨{ (((live.p R.TDC_CTRL F.TDC_CTRL_EN 1).p (R.TDC_En_CFG 2) F.TDC_En_CFG_EN 1).p (R.TDC_En_CFG 2) F.TDC_En_CFG_FIFO_EN 1) with tdc := { live.tdc with chans := [(2, { TdcChan.reset with calA := true, calB := true })] } },
    2, 800000, 1600000,
    by decide +kernel⟩

theorem meets_EventChannels_2 : ∃ (s : State) (e : Fin 8) (a : Nat) (b : Nat), s.inReset = false ∧ s.chanEn e = true
    ∧ s.runs .timescale = true ∧ (s.chan e).calA = true ∧ (s.chan e).calB = true ∧ s.g (R.TDC_En_STATUS e)
    F.TDC_En_STATUS_IN_SERVICE = 0 ∧ calValid a ((b : Int) - a) = false :=
  ⟨{ (((live.p R.TDC_CTRL F.TDC_CTRL_EN 1).p (R.TDC_En_CFG 2) F.TDC_En_CFG_EN 1).p (R.TDC_En_CFG 2) F.TDC_En_CFG_FIFO_EN 1) with tdc := { live.tdc with chans := [(2, { TdcChan.reset with calA := true, calB := true })] } },
    2, 8, 16,
    by decide +kernel⟩

theorem meets_EventChannels_3 : ∃ (s : State) (e : Fin 8), s.inReset = false ∧ s.runs .timescale = true ∧ s.stamps e
    = true ∧ s.g (R.TDC_En_STATUS e) F.TDC_En_STATUS_STUCK = 0 ∧ (if s.g (R.TDC_En_STATUS e) F.TDC_En_STATUS_ACTIVE =
    1 then (s.chan e).a else (s.chan e).b).fresh = true ∧ (if s.g (R.TDC_En_STATUS e) F.TDC_En_STATUS_ACTIVE = 1 then
    (s.chan e).a else (s.chan e).b).cal ≠ none ∧ (∀ m : Fin 4, s.usesOpen e m = false) :=
  ⟨{ (((live.p R.TDC_CTRL F.TDC_CTRL_EN 1).p (R.TDC_En_CFG 2) F.TDC_En_CFG_EN 1).p (R.TDC_En_CFG 2) F.TDC_En_CFG_FIFO_EN 1) with tdc := { live.tdc with chans := [(2, { TdcChan.reset with a := ⟨some (800000, 800000), false⟩, b := ⟨some (700000, 700000), true⟩ })] } },
    2,
    by decide +kernel⟩

theorem meets_EventChannels_4 : ∃ (s : State) (e : Fin 8), s.inReset = false ∧ s.runs .timescale = true ∧ s.chanEn e
    = true ∧ s.g (R.TDC_En_LIMITS e) F.TDC_En_LIMITS_STUCK_MS ≠ 0 ∧ s.g (R.TDC_En_STATUS e) F.TDC_En_STATUS_STUCK = 0
    ∧ (s.g (R.TDC_En_CFG e) F.TDC_En_CFG_EDGE = 2 ∨ s.on (R.TDC_En_STATUS e) F.TDC_En_STATUS_LEVEL = (s.g
    (R.TDC_En_CFG e) F.TDC_En_CFG_EDGE == 0)) :=
  ⟨({ (((live.p R.TDC_CTRL F.TDC_CTRL_EN 1).p (R.TDC_En_CFG 2) F.TDC_En_CFG_EN 1).p (R.TDC_En_CFG 2) F.TDC_En_CFG_FIFO_EN 1) with tdc := { live.tdc with chans := [(2, { TdcChan.reset with a := ⟨some (800000, 800000), false⟩ })] } }).p
    (R.TDC_En_LIMITS 2) F.TDC_En_LIMITS_STUCK_MS 5 |>.p (R.TDC_En_CFG 2) F.TDC_En_CFG_EDGE 2, 2,
    by decide +kernel⟩

theorem meets_EventChannels_5 : ∃ (s : State) (e : Fin 8), s.inReset = false ∧ s.runs .timescale = true ∧ s.g
    (R.TDC_En_CFG e) F.TDC_En_CFG_OVR_DIS_EN = 1 ∧ s.chanEn e = true ∧ s.g (R.TDC_En_STATUS e)
    F.TDC_En_STATUS_DISABLED = 0 ∧ s.g (R.TDC_En_LIMITS e) F.TDC_En_LIMITS_OVR_LIMIT < (s.chan e).lost :=
  ⟨({ (((live.p R.TDC_CTRL F.TDC_CTRL_EN 1).p (R.TDC_En_CFG 2) F.TDC_En_CFG_EN 1).p (R.TDC_En_CFG 2) F.TDC_En_CFG_FIFO_EN 1) with tdc := { live.tdc with chans := [(2, { TdcChan.reset with a := ⟨some (800000, 800000), false⟩, lost := 300 })] } }).p
    (R.TDC_En_CFG 2) F.TDC_En_CFG_OVR_DIS_EN 1, 2,
    by decide +kernel⟩

theorem meets_EventChannels_6 : ∃ (s : State) (e : Fin 8), s.inReset = false ∧ s.runs .timescale = true ∧ (s.chan
    e).lost ≤ s.g (R.TDC_En_LIMITS e) F.TDC_En_LIMITS_OVR_LIMIT :=
  ⟨{ (((live.p R.TDC_CTRL F.TDC_CTRL_EN 1).p (R.TDC_En_CFG 2) F.TDC_En_CFG_EN 1).p (R.TDC_En_CFG 2) F.TDC_En_CFG_FIFO_EN 1) with tdc := { live.tdc with chans := [(2, { TdcChan.reset with a := ⟨some (800000, 800000), false⟩, lost := 0 })] } },
    2,
    by decide +kernel⟩

theorem meets_EventChannels_7 : ∃ (s : State), s.accepts R.TDC_REARM :=
  ⟨({ (((live.p R.TDC_CTRL F.TDC_CTRL_EN 1).p (R.TDC_En_CFG 2) F.TDC_En_CFG_EN 1).p (R.TDC_En_CFG 2) F.TDC_En_CFG_FIFO_EN 1) with tdc := { live.tdc with chans := [(2, { TdcChan.reset with a := ⟨some (800000, 800000), false⟩ })] } }).p
    (R.TDC_En_STATUS 2) F.TDC_En_STATUS_DISABLED 1,
    by decide +kernel⟩

theorem meets_MeasurementWindows_1 : ∃ (s : State) (m : Fin 4) (a : Tick64) (l : List Tick64), s.inReset = false ∧
    s.runs .timescale = true ∧ (s.unit m).starts = a :: l ∧ s.unitOn m = true ∧ (s.g (R.TDC_Mm_CFG m)
    F.TDC_Mm_CFG_START = 8 ∨ s.g (R.TDC_Mm_CFG m) F.TDC_Mm_CFG_START < 8 ∧ s.inService (s.g (R.TDC_Mm_CFG m)
    F.TDC_Mm_CFG_START) = true) ∧ (s.unit m).win = none ∧ (s.chan (s.g (R.TDC_Mm_CFG m) F.TDC_Mm_CFG_STOP)).hist = []
    ∧ (s.chan (s.g (R.TDC_Mm_CFG m) F.TDC_Mm_CFG_STOP)).gone = none :=
  ⟨{ (((((((live.p R.TDC_CTRL F.TDC_CTRL_EN 1).p (R.TDC_En_CFG 2) F.TDC_En_CFG_EN 1).p (R.TDC_En_CFG 2) F.TDC_En_CFG_FIFO_EN 1).p (R.TDC_Mm_CFG 1) F.TDC_Mm_CFG_EN 1).p (R.TDC_Mm_CFG 1) F.TDC_Mm_CFG_STOP 2).p (R.TDC_Mm_CFG 1) F.TDC_Mm_CFG_START 8).p (R.TDC_Mm_CFG 1) F.TDC_Mm_CFG_WEV_EN 0x7ff).setRegN (R.TDC_Mm_CLOSE 1) 1000000 with tdc := { chans := [(2, { TdcChan.reset with a := ⟨some (800000, 800000), false⟩ })], units := [(1, { TdcUnit.reset with starts := [7#64] })] } },
    1, 7#64, [],
    by decide +kernel⟩

theorem meets_MeasurementWindows_2 : ∃ (s : State) (m : Fin 4) (a : Tick64) (l : List Tick64) (w : TdcWin), s.inReset
    = false ∧ s.runs .timescale = true ∧ (s.unit m).starts = a :: l ∧ s.unitOn m = true ∧ s.g (R.TDC_Mm_CFG m)
    F.TDC_Mm_CFG_START = 8 ∧ (s.unit m).win = some w ∧ tickDiff a w.start < s.winClose m ∧ maskBit (s.g (R.TDC_Mm_CFG
    m) F.TDC_Mm_CFG_WEV_EN) 4 = true :=
  ⟨{ (((((((live.p R.TDC_CTRL F.TDC_CTRL_EN 1).p (R.TDC_En_CFG 2) F.TDC_En_CFG_EN 1).p (R.TDC_En_CFG 2) F.TDC_En_CFG_FIFO_EN 1).p (R.TDC_Mm_CFG 1) F.TDC_Mm_CFG_EN 1).p (R.TDC_Mm_CFG 1) F.TDC_Mm_CFG_STOP 2).p (R.TDC_Mm_CFG 1) F.TDC_Mm_CFG_START 8).p (R.TDC_Mm_CFG 1) F.TDC_Mm_CFG_WEV_EN 0x7ff).setRegN (R.TDC_Mm_CLOSE 1) 1000000 with tdc := { chans := [(2, { TdcChan.reset with a := ⟨some (800000, 800000), false⟩ })], units := [(1, { TdcUnit.reset with starts := [107#64], win := some ⟨100#64, 0, 100#64, 100#64, false, false, false⟩ })] } },
    1, 107#64, [], ⟨100#64, 0, 100#64, 100#64, false, false, false⟩,
    by decide +kernel⟩

theorem meets_MeasurementWindows_3 : ∃ (s : State) (m : Fin 4) (w : TdcWin), s.inReset = false ∧ s.runs .timescale =
    true ∧ (s.unit m).win = some w ∧ w.stepped = false ∧ w.lost = false ∧ w.noStop = false ∧ s.g (R.TDC_Mm_CFG m)
    F.TDC_Mm_CFG_MODE = 0 ∧ w.count = 0 ∧ maskBit (s.g (R.TDC_Mm_CFG m) F.TDC_Mm_CFG_WEV_EN) 0 = true :=
  ⟨{ (((((((live.p R.TDC_CTRL F.TDC_CTRL_EN 1).p (R.TDC_En_CFG 2) F.TDC_En_CFG_EN 1).p (R.TDC_En_CFG 2) F.TDC_En_CFG_FIFO_EN 1).p (R.TDC_Mm_CFG 1) F.TDC_Mm_CFG_EN 1).p (R.TDC_Mm_CFG 1) F.TDC_Mm_CFG_STOP 2).p (R.TDC_Mm_CFG 1) F.TDC_Mm_CFG_START 8).p (R.TDC_Mm_CFG 1) F.TDC_Mm_CFG_WEV_EN 0x7ff).setRegN (R.TDC_Mm_CLOSE 1) 1000000 with tdc := { chans := [(2, { TdcChan.reset with a := ⟨some (800000, 800000), false⟩ })], units := [(1, { TdcUnit.reset with win := some ⟨100#64, 0, 100#64, 100#64, false, false, false⟩ })] } },
    1, ⟨100#64, 0, 100#64, 100#64, false, false, false⟩,
    by decide +kernel⟩

theorem meets_MeasurementWindows_4 : ∃ (s : State) (m : Fin 4) (w : TdcWin), s.inReset = false ∧ s.runs .timescale =
    true ∧ (s.unit m).win = some w ∧ w.stepped = false ∧ w.lost = false ∧ s.g (R.TDC_Mm_CFG m) F.TDC_Mm_CFG_MODE = 1
    ∧ 2 ≤ w.count ∧ 0 < tickDiff w.last w.first :=
  ⟨({ (((((((live.p R.TDC_CTRL F.TDC_CTRL_EN 1).p (R.TDC_En_CFG 2) F.TDC_En_CFG_EN 1).p (R.TDC_En_CFG 2) F.TDC_En_CFG_FIFO_EN 1).p (R.TDC_Mm_CFG 1) F.TDC_Mm_CFG_EN 1).p (R.TDC_Mm_CFG 1) F.TDC_Mm_CFG_STOP 2).p (R.TDC_Mm_CFG 1) F.TDC_Mm_CFG_START 8).p (R.TDC_Mm_CFG 1) F.TDC_Mm_CFG_WEV_EN 0x7ff).setRegN (R.TDC_Mm_CLOSE 1) 1000000 with tdc := { chans := [(2, { TdcChan.reset with a := ⟨some (800000, 800000), false⟩ })], units := [(1, { TdcUnit.reset with win := some ⟨100#64, 3, 100#64, 65536100#64, false, false, false⟩ })] } }).p
    (R.TDC_Mm_CFG 1) F.TDC_Mm_CFG_MODE 1, 1, ⟨100#64, 3, 100#64, 65536100#64, false, false, false⟩,
    by decide +kernel⟩

theorem meets_MeasurementWindows_5 : ∃ (s : State) (e : Fin 8) (m : Fin 4) (x : TdcCap) (l : List TdcCap) (w :
    TdcWin), s.inReset = false ∧ s.runs .timescale = true ∧ (s.chan e).caps = x :: l ∧ (s.unit m).win = some w ∧ s.g
    (R.TDC_Mm_CFG m) F.TDC_Mm_CFG_STOP = e.val ∧ s.g (R.TDC_Mm_CFG m) F.TDC_Mm_CFG_START ≠ e.val ∧ s.g (R.TDC_Mm_CFG
    m) F.TDC_Mm_CFG_MODE = 0 ∧ (s.g (R.TDC_Mm_CFG m) F.TDC_Mm_CFG_STOPS = 1 ∨ w.count = 0) ∧ w.stepped = false ∧
    s.winOpen m ≤ (tickDiff (capStamp x) w.start) ∧ (tickDiff (capStamp x) w.start) ≤ s.winClose m ∧ (64 ≤ (tickDiff
    (capStamp x) w.start) ∨ (tickDiff (capStamp x) w.start) ≤ -64) :=
  ⟨(({ (((((((live.p R.TDC_CTRL F.TDC_CTRL_EN 1).p (R.TDC_En_CFG 2) F.TDC_En_CFG_EN 1).p (R.TDC_En_CFG 2) F.TDC_En_CFG_FIFO_EN 1).p (R.TDC_Mm_CFG 1) F.TDC_Mm_CFG_EN 1).p (R.TDC_Mm_CFG 1) F.TDC_Mm_CFG_STOP 2).p (R.TDC_Mm_CFG 1) F.TDC_Mm_CFG_START 8).p (R.TDC_Mm_CFG 1) F.TDC_Mm_CFG_WEV_EN 0x7ff).setRegN (R.TDC_Mm_CLOSE 1) 1000000 with tdc := { chans := [(2, { TdcChan.reset with caps := [⟨5, 300000#64, 2 ^ 49, 800000, 800000, 0, 0, false, 0⟩] })], units := [(1, { TdcUnit.reset with win := some ⟨100#64, 0, 100#64, 100#64, false, false, false⟩ })] } }).p
    (R.TDC_Mm_CFG 1) F.TDC_Mm_CFG_STOPS 1), 2, 1, ⟨5, 300000#64, 2 ^ 49, 800000, 800000, 0, 0, false, 0⟩, [],
    ⟨100#64, 0, 100#64, 100#64, false, false, false⟩,
    by decide +kernel⟩

theorem meets_TickAndFencing_1 : ∃ (s : State), s.inReset = false ∧ s.runs .timescale = true ∧ s.tsc.inject = none ∧
    s.tsc.restore = [] ∧ s.tsc.rejoin = [] ∧ s.duplex = false ∧ s.tsc.c0 = s.tsc.voted ∧ s.tsc.c1 = s.tsc.voted ∧
    s.tsc.c2 = s.tsc.voted ∧ s.tsc.newRate = none ∧ cSub s.tsc.voted < secUnits ∧ cInc s.tsc.voted < secUnits :=
  ⟨{ live with tsc := { live.tsc with voted := 0x20000000000FF#192, c0 := 0x20000000000FF#192, c1 := 0x20000000000FF#192, c2 := 0x20000000000FF#192 } },
    by decide +kernel⟩

theorem meets_TickAndFencing_2 : ∃ (s : State) (r : Int), s.inReset = false ∧ s.runs .timescale = true ∧ s.tsc.inject
    = none ∧ s.tsc.restore = [] ∧ s.tsc.rejoin = [] ∧ s.duplex = false ∧ s.tsc.c0 = s.tsc.voted ∧ s.tsc.c1 =
    s.tsc.voted ∧ s.tsc.c2 = s.tsc.voted ∧ s.tsc.newRate = some r ∧ -(2 ^ 37) ≤ r ∧ r ≤ 2 ^ 37 :=
  ⟨{ live with tsc := { live.tsc with newRate := some (-5), voted := 0x20000000000FF#192, c0 := 0x20000000000FF#192, c1 := 0x20000000000FF#192, c2 := 0x20000000000FF#192 } },
    -5,
    by decide +kernel⟩

theorem meets_TickAndFencing_3 : ∃ (s : State) (u : Copy), s.inReset = false ∧ s.runs .timescale = true ∧
    s.tsc.inject = none ∧ s.tsc.restore = [] ∧ s.tsc.rejoin = [] ∧ s.duplex = false ∧ s.tsc.c0 = s.tsc.voted ∧
    s.tsc.c1 = s.tsc.voted ∧ s.tsc.c2 = s.tsc.voted ∧ u ≠ 0 ∧ s.tsc.h1.seen < 2 :=
  ⟨{ live with tsc := { live.tsc with voted := 0x20000000000FF#192, c0 := 0x20000000000FF#192, c1 := 0x20000000000FF#192, c2 := 0x20000000000FF#192 } },
    1#192,
    by decide +kernel⟩

theorem meets_TickAndFencing_4 : ∃ (s : State), s.inReset = false ∧ s.runs .timescale = false :=
  ⟨{ live with gated := [.timescale] },
    by decide +kernel⟩

theorem meets_TickAndFencing_5 : ∃ (s : State), s.inReset = false ∧ s.runs .timescale = true :=
  ⟨{ live with tsc := { live.tsc with voted := 0x20000000000FF#192, c0 := 0x20000000000FF#192, c1 := 0x20000000000FF#192, c2 := 0x20000000000FF#192 } },
    by decide +kernel⟩

theorem meets_TickAndFencing_6 : ∃ (s : State) (u : Copy), s.inReset = false ∧ s.runs .timescale = true ∧
    s.tsc.inject = none ∧ s.tsc.restore = [] ∧ s.tsc.rejoin = [] ∧ s.duplex = false ∧ s.tsc.c0 = s.tsc.voted ∧
    s.tsc.c1 = s.tsc.voted ∧ s.tsc.c2 = s.tsc.voted ∧ u ≠ 0 ∧ s.tsc.h0.seen < 2 :=
  ⟨{ live with tsc := { live.tsc with voted := 0x20000000000FF#192, c0 := 0x20000000000FF#192, c1 := 0x20000000000FF#192, c2 := 0x20000000000FF#192 } },
    1#192,
    by decide +kernel⟩

theorem meets_TickAndFencing_7 : ∃ (s : State) (u : Copy), s.inReset = false ∧ s.runs .timescale = true ∧
    s.tsc.inject = none ∧ s.tsc.restore = [] ∧ s.tsc.rejoin = [] ∧ s.duplex = false ∧ s.tsc.c0 = s.tsc.voted ∧
    s.tsc.c1 = s.tsc.voted ∧ s.tsc.c2 = s.tsc.voted ∧ u ≠ 0 ∧ s.tsc.h2.seen < 2 :=
  ⟨{ live with tsc := { live.tsc with voted := 0x20000000000FF#192, c0 := 0x20000000000FF#192, c1 := 0x20000000000FF#192, c2 := 0x20000000000FF#192 } },
    1#192,
    by decide +kernel⟩

theorem meets_TickAndFencing_8 : ∃ (s : State) (u : Copy) (v : Copy), s.inReset = false ∧ s.runs .timescale = true ∧
    s.tsc.inject = none ∧ s.tsc.restore = [] ∧ s.tsc.rejoin = [] ∧ s.duplex = false ∧ s.tsc.c0 = s.tsc.voted ∧
    s.tsc.c1 = s.tsc.voted ∧ s.tsc.c2 = s.tsc.voted ∧ s.tsc.newRate = none ∧ cSub s.tsc.voted < secUnits ∧ cInc
    s.tsc.voted < secUnits ∧ u ≠ 0 ∧ v ≠ 0 ∧ u ≠ v :=
  ⟨{ live with tsc := { live.tsc with voted := 0x20000000000FF#192, c0 := 0x20000000000FF#192, c1 := 0x20000000000FF#192, c2 := 0x20000000000FF#192 } },
    1#192, 2#192,
    by decide +kernel⟩

theorem meets_TickAndFencing_9 : ∃ (s : State) (u : Copy) (v : Copy), s.inReset = false ∧ s.runs .timescale = true ∧
    s.tsc.inject = none ∧ s.tsc.restore = [] ∧ s.tsc.rejoin = [] ∧ s.tsc.c0 = s.tsc.voted ∧ s.tsc.c1 = s.tsc.voted ∧
    s.duplex = true ∧ s.g R.TSC_STATUS F.TSC_STATUS_FENCED = 4 ∧ s.tsc.newRate = none ∧ cSub s.tsc.voted < secUnits ∧
    cInc s.tsc.voted < secUnits ∧ u = v :=
  ⟨(({ live with tsc := { live.tsc with voted := 0x20000000000FF#192, c0 := 0x20000000000FF#192, c1 := 0x20000000000FF#192, c2 := 0x20000000000FF#192 } }).p
    R.TSC_STATUS F.TSC_STATUS_MODE 1).p R.TSC_STATUS F.TSC_STATUS_FENCED 4, 0#192, 0#192,
    by decide +kernel⟩

theorem meets_TickAndFencing_10 : ∃ (s : State) (u : Copy), s.inReset = false ∧ s.runs .timescale = true ∧
    s.tsc.inject = none ∧ s.tsc.restore = [] ∧ s.tsc.rejoin = [] ∧ s.tsc.c0 = s.tsc.voted ∧ s.tsc.c1 = s.tsc.voted ∧
    s.duplex = true ∧ s.g R.TSC_STATUS F.TSC_STATUS_FENCED = 4 ∧ s.tsc.newRate = none ∧ cSub s.tsc.voted < secUnits ∧
    cInc s.tsc.voted < secUnits ∧ u ≠ 0 :=
  ⟨(({ live with tsc := { live.tsc with voted := 0x20000000000FF#192, c0 := 0x20000000000FF#192, c1 := 0x20000000000FF#192, c2 := 0x20000000000FF#192 } }).p
    R.TSC_STATUS F.TSC_STATUS_MODE 1).p R.TSC_STATUS F.TSC_STATUS_FENCED 4, 1#192,
    by decide +kernel⟩

theorem meets_TickAndFencing_11 : ∃ (s : State) (u : Copy), s.inReset = false ∧ s.runs .timescale = true ∧
    s.tsc.inject = none ∧ s.tsc.restore = [] ∧ s.tsc.rejoin = [] ∧ s.tsc.c0 = s.tsc.voted ∧ s.tsc.c1 = s.tsc.voted ∧
    s.duplex = true ∧ s.g R.TSC_STATUS F.TSC_STATUS_FENCED = 4 ∧ s.tsc.newRate = none ∧ cSub s.tsc.voted < secUnits ∧
    cInc s.tsc.voted < secUnits ∧ u ≠ 0 :=
  ⟨(({ live with tsc := { live.tsc with voted := 0x20000000000FF#192, c0 := 0x20000000000FF#192, c1 := 0x20000000000FF#192, c2 := 0x20000000000FF#192 } }).p
    R.TSC_STATUS F.TSC_STATUS_MODE 1).p R.TSC_STATUS F.TSC_STATUS_FENCED 4, 1#192,
    by decide +kernel⟩

theorem meets_TickAndFencing_12 : ∃ (s : State) (u : Copy) (v : Copy), s.inReset = false ∧ s.runs .timescale = true ∧
    s.tsc.inject = none ∧ s.tsc.restore = [] ∧ s.tsc.rejoin = [] ∧ s.tsc.c0 = s.tsc.voted ∧ s.tsc.c1 = s.tsc.voted ∧
    s.duplex = true ∧ s.g R.TSC_STATUS F.TSC_STATUS_FENCED = 4 ∧ s.tsc.newRate = none ∧ cSub s.tsc.voted < secUnits ∧
    cInc s.tsc.voted < secUnits ∧ u ≠ 0 ∧ v ≠ 0 ∧ u ≠ v :=
  ⟨(({ live with tsc := { live.tsc with voted := 0x20000000000FF#192, c0 := 0x20000000000FF#192, c1 := 0x20000000000FF#192, c2 := 0x20000000000FF#192 } }).p
    R.TSC_STATUS F.TSC_STATUS_MODE 1).p R.TSC_STATUS F.TSC_STATUS_FENCED 4, 1#192, 2#192,
    by decide +kernel⟩

theorem meets_TickAndFencing_13 : ∃ (s : State) (u : Copy), s.inReset = false ∧ s.runs .timescale = true ∧
    s.tsc.inject = none ∧ s.tsc.restore = [] ∧ s.tsc.rejoin = [] ∧ s.duplex = false ∧ s.tsc.c0 = s.tsc.voted ∧
    s.tsc.c1 = s.tsc.voted ∧ s.tsc.c2 = s.tsc.voted ∧ u ≠ 0 ∧ s.tsc.h1.seen = 2 ∧ s.tsc.tick + 1 - s.tsc.h1.last2 <
    500000000 ∧ Tbl.get none s.tsc.lastFault 1 = none ∧ s.hif.fq.length < 32 :=
  ⟨{ live with tsc := { live.tsc with tick := 900, h1 := ⟨800, 700, 2⟩, voted := 0x20000000000FF#192, c0 := 0x20000000000FF#192, c1 := 0x20000000000FF#192, c2 := 0x20000000000FF#192 } },
    1#192,
    by decide +kernel⟩

theorem meets_TickAndFencing_14 : ∃ (s : State) (u : Copy), s.inReset = false ∧ s.runs .timescale = true ∧
    s.tsc.inject = none ∧ s.tsc.restore = [] ∧ s.tsc.rejoin = [] ∧ s.duplex = false ∧ s.tsc.c0 = s.tsc.voted ∧
    s.tsc.c1 = s.tsc.voted ∧ s.tsc.c2 = s.tsc.voted ∧ u ≠ 0 ∧ s.tsc.h0.seen = 2 ∧ s.tsc.tick + 1 - s.tsc.h0.last2 <
    500000000 ∧ Tbl.get none s.tsc.lastFault 1 = none ∧ s.hif.fq.length < 32 :=
  ⟨{ live with tsc := { live.tsc with tick := 900, h0 := ⟨800, 700, 2⟩, voted := 0x20000000000FF#192, c0 := 0x20000000000FF#192, c1 := 0x20000000000FF#192, c2 := 0x20000000000FF#192 } },
    1#192,
    by decide +kernel⟩

theorem meets_TickAndFencing_15 : ∃ (s : State) (u : Copy), s.inReset = false ∧ s.runs .timescale = true ∧
    s.tsc.inject = none ∧ s.tsc.restore = [] ∧ s.tsc.rejoin = [] ∧ s.duplex = false ∧ s.tsc.c0 = s.tsc.voted ∧
    s.tsc.c1 = s.tsc.voted ∧ s.tsc.c2 = s.tsc.voted ∧ u ≠ 0 ∧ s.tsc.h2.seen = 2 ∧ s.tsc.tick + 1 - s.tsc.h2.last2 <
    500000000 ∧ Tbl.get none s.tsc.lastFault 1 = none ∧ s.hif.fq.length < 32 :=
  ⟨{ live with tsc := { live.tsc with tick := 900, h2 := ⟨800, 700, 2⟩, voted := 0x20000000000FF#192, c0 := 0x20000000000FF#192, c1 := 0x20000000000FF#192, c2 := 0x20000000000FF#192 } },
    1#192,
    by decide +kernel⟩

theorem meets_InjectedUpset_1 : ∃ (s : State), s.accepts R.TSC_TRIPOD_INJECT :=
  ⟨live,
    by decide +kernel⟩

theorem meets_InjectedUpset_2 : ∃ (s : State) (c : Nat) (b : Nat), s.inReset = false ∧ s.runs .timescale = true ∧
    s.tsc.inject = some (c, b) :=
  ⟨{ live with tsc := { live.tsc with inject := some (1, 70) } }, 1, 70,
    by decide +kernel⟩

theorem meets_InjectedUpset_3 : ∃ (s : State) (c : Nat) (b : Nat), s.inReset = false ∧ s.runs .timescale = true ∧
    s.tsc.inject = some (c, b) :=
  ⟨{ live with tsc := { live.tsc with inject := some (1, 70) } }, 1, 70,
    by decide +kernel⟩

theorem meets_StepRequests_1 : ∃ (s : State) (v : Word), s.accepts R.TSC_STEP_CTRL ∧ s.tsc.host = none ∧
    F.TSC_STEP_CTRL_CANCEL.get v = 0 :=
  ⟨live, 0#32,
    by decide +kernel⟩

theorem meets_StepRequests_2 : ∃ (s : State) (v : Word), s.accepts R.TSC_STEP_CTRL ∧ s.tsc.host = none ∧
    F.TSC_STEP_CTRL_CANCEL.get v = 0 :=
  ⟨live, 0#32,
    by decide +kernel⟩

theorem meets_StepRequests_3 : ∃ (s : State) (v : Word), s.accepts R.TSC_STEP_CTRL ∧ s.tsc.host = none ∧
    F.TSC_STEP_CTRL_CANCEL.get v = 0 ∧ s.on R.TSC_CTRL F.TSC_CTRL_STEER = true :=
  ⟨live.p R.TSC_CTRL F.TSC_CTRL_STEER 1, 0#32,
    by decide +kernel⟩

theorem meets_StepRequests_4 : ∃ (s : State) (v : Word) (h : HostStep), s.accepts R.TSC_STEP_CTRL ∧ s.tsc.host = some
    h ∧ F.TSC_STEP_CTRL_CANCEL.get v = 0 :=
  ⟨{ live with tsc := { live.tsc with host := some (.imm 5) } }, 0#32, .imm 5,
    by decide +kernel⟩

theorem meets_StepRequests_5 : ∃ (s : State) (v : Word) (h : HostStep), s.accepts R.TSC_STEP_CTRL ∧ s.tsc.host = some
    h ∧ F.TSC_STEP_CTRL_GO.get v = 0 :=
  ⟨{ live with tsc := { live.tsc with host := some (.imm 5) } }, 0#32, .imm 5,
    by decide +kernel⟩

theorem meets_StepsAndSeconds_1 : ∃ (s : State) (a : Int), s.inReset = false ∧ s.runs .timescale = true ∧ s.tsc.due =
    [] ∧ s.tsc.hostRipe = true ∧ s.tsc.host = some (.imm a) ∧ s.on R.TSC_CTRL F.TSC_CTRL_STEER = true :=
  ⟨({ live with tsc := { live.tsc with host := some (.imm (-16384)), hostRipe := true, carried := true } }).p
    R.TSC_CTRL F.TSC_CTRL_STEER 1, -16384,
    by decide +kernel⟩

theorem meets_StepsAndSeconds_2 : ∃ (s : State) (a : Int), s.inReset = false ∧ s.runs .timescale = true ∧ s.tsc.due =
    [] ∧ s.tsc.hostRipe = true ∧ s.tsc.carried = true ∧ s.tsc.host = some (.aligned a) ∧ s.on R.TSC_CTRL
    F.TSC_CTRL_STEER = true :=
  ⟨({ live with tsc := { live.tsc with host := some (.aligned (-16384)), hostRipe := true, carried := true } }).p
    R.TSC_CTRL F.TSC_CTRL_STEER 1, -16384,
    by decide +kernel⟩

theorem meets_StepsAndSeconds_3 : ∃ (s : State) (a : Int), s.inReset = false ∧ s.runs .timescale = true ∧ s.tsc.due =
    [] ∧ s.tsc.hostRipe = true ∧ s.tsc.host = some (.imm a) ∧ s.on R.TSC_CTRL F.TSC_CTRL_STEER = false :=
  ⟨{ live with tsc := { live.tsc with host := some (.imm (-16384)), hostRipe := true, carried := true } }, -16384,
    by decide +kernel⟩

theorem meets_StepsAndSeconds_4 : ∃ (s : State) (a : Int), s.inReset = false ∧ s.runs .timescale = true ∧ s.tsc.due =
    [] ∧ s.tsc.hostRipe = true ∧ s.tsc.carried = true ∧ s.tsc.host = some (.aligned a) ∧ s.on R.TSC_CTRL
    F.TSC_CTRL_STEER = false :=
  ⟨{ live with tsc := { live.tsc with host := some (.aligned (-16384)), hostRipe := true, carried := true } }, -16384,
    by decide +kernel⟩

theorem meets_StepsAndSeconds_5 : ∃ (s : State) (k : Nat) (a : Int), s.inReset = false ∧ s.runs .timescale = true ∧
    s.tsc.due = [(k, .rel a)] ∧ s.tsc.hostRipe = false ∧ k < 8 :=
  ⟨{ live with tsc := { live.tsc with due := [(3, .rel 500)] } }, 3, 500,
    by decide +kernel⟩

theorem meets_StepsAndSeconds_6 : ∃ (s : State) (k : Nat) (v : T96), s.inReset = false ∧ s.runs .timescale = true ∧
    s.tsc.due = [(k, .set v)] ∧ s.tsc.host = none ∧ k < 8 :=
  ⟨{ live with tsc := { live.tsc with due := [(4, .set (mkT96 1000 5 0))] } }, 4, mkT96 1000 5 0,
    by decide +kernel⟩

theorem meets_StepsAndSeconds_7 : ∃ (s : State) (k : Nat) (v : T96), s.inReset = false ∧ s.runs .timescale = true ∧
    s.tsc.due = [(k, .set v)] ∧ s.tsc.host.isSome = true ∧ k < 8 :=
  ⟨{ live with tsc := { live.tsc with due := [(4, .set (mkT96 1000 5 0))], host := some (.imm 4) } }, 4, mkT96 1000 5
    0,
    by decide +kernel⟩

theorem meets_StepsAndSeconds_8 : ∃ (s : State), s.inReset = false ∧ (s.runs .timescale = false ∨ s.stepDue = false)
    :=
  ⟨live,
    by decide +kernel⟩

theorem meets_StepsAndSeconds_9 : ∃ (s : State), s.inReset = false ∧ tSec s.now ≤ s.tsc.sigSec :=
  ⟨live,
    by decide +kernel⟩

theorem meets_StepsAndSeconds_10 : ∃ (s : State) (v : T96), s.inReset = false ∧ s.runs .timescale = true ∧ s.tsc.due
    = [] ∧ s.tsc.hostRipe = true ∧ s.tsc.host = some (.set v) :=
  ⟨{ live with tsc := { live.tsc with host := some (.set (mkT96 1000 5 0)), hostRipe := true, carried := true } },
    mkT96 1000 5 0,
    by decide +kernel⟩

theorem meets_StepsAndSeconds_11 : ∃ (s : State), s.inReset = false ∧ s.tsc.sigSec < tSec s.now :=
  ⟨{ live with tsc := { live.tsc with voted := mkCopy 3 7 (2 ^ 49) } },
    by decide +kernel⟩

theorem meets_TripodControls_1 : ∃ (s : State) (v : Word), s.accepts R.TSC_TRIPOD_CTRL ∧
    F.TSC_TRIPOD_CTRL_RESTORE.get v = 0 ∧ F.TSC_TRIPOD_CTRL_FENCE.get v = 0 :=
  ⟨live.p R.TSC_STATUS F.TSC_STATUS_SUSPECT 1, 0#32,
    by decide +kernel⟩

theorem meets_TripodControls_2 : ∃ (s : State) (v : Word) (c : Fin 3), s.accepts R.TSC_TRIPOD_CTRL ∧
    F.TSC_TRIPOD_CTRL_RESTORE.get v = 0 ∧ F.TSC_TRIPOD_CTRL_FENCE.get v = 0 ∧ F.TSC_TRIPOD_CTRL_CLR_SUSPECT.get v = 0
    ∧ s.fenced c = true ∧ c.val ∉ s.tsc.restore ∧ c.val ∉ s.tsc.rejoin :=
  ⟨live.p R.TSC_STATUS F.TSC_STATUS_FENCED 2, 0#32, 1,
    by decide +kernel⟩

theorem meets_TripodControls_3 : ∃ (s : State) (v : Word), s.accepts R.TSC_TRIPOD_CTRL ∧
    F.TSC_TRIPOD_CTRL_RESTORE.get v = 0 ∧ F.TSC_TRIPOD_CTRL_FENCE.get v = 0 ∧ F.TSC_TRIPOD_CTRL_CLR_SUSPECT.get v = 0
    ∧ s.duplex = false :=
  ⟨live, 0#32,
    by decide +kernel⟩

theorem meets_TripodControls_4 : ∃ (s : State) (c : Nat), s.inReset = false ∧ s.runs .timescale = true ∧ c < 3 ∧
    s.tsc.restore = [c] ∧ s.tsc.rejoin = [] :=
  ⟨{ live with tsc := { live.tsc with restore := [1] } }, 1,
    by decide +kernel⟩

end Sys2Proof.Tests
end

section

/-! ## What keeps HIF_ID, and what a narrow write does (R25, R27)

No operation of the state but a reset changes HIF_ID: each part below says so of its operations, one lemma an
operation, in the order in which the model defines them. The lemmas are rules for `simp`, which follows how a state is
made from the outside in; where a definition chooses by its data, the proof splits on those choices. A write from
outside goes through the store of a word, of which HIF_ID has no writable field, and a reset gives HIF_ID its Reset
column. -/

namespace Sys2Proof.Machine.State

/-- The word of HIF_ID (R25). -/
def hifId (s : Machine.State) : Word := s.reg R.HIF_ID

variable {s t : Machine.State}

/-- `simp` is not to work inside the state whose HIF_ID it looks for: the rules below follow how that state is made. -/
@[congr] theorem hifId_congr (s : Machine.State) : s.hifId = s.hifId := rfl

@[simp] theorem hifId_upd {dram pending rshadow wshadow w1done conds gated regClk coreClk8 out freeIdx hif tsc ref hld
      spr syn pts ptp fwd tdc guy rut boot} :
    (State.mk s.regs dram pending rshadow wshadow w1done conds gated regClk coreClk8 out freeIdx hif tsc ref hld spr syn
      pts ptp fwd tdc guy rut boot).hifId = s.hifId := by
  unfold hifId reg
  rfl

@[simp] theorem hifId_ite {c : Prop} [Decidable c] : (if c then s else t).hifId = if c then s.hifId else t.hifId :=
  apply_ite hifId c s t

@[simp] theorem hifId_ite_fst {α : Type} {c : Prop} [Decidable c] {p q : Machine.State × α} :
    (if c then p else q).1.hifId = if c then p.1.hifId else q.1.hifId := apply_ite (fun x => x.1.hifId) c p q

/-- The state that a match takes out of a pair. -/

theorem hifId_ofFst {α : Type} {p : Machine.State × α} {b : α} (e : p = (t, b)) (h : p.1.hifId = s.hifId) :
    t.hifId = s.hifId := by
  rw [e] at h
  exact h

/-- The state that an operation answers, where it answers one. -/

theorem hifId_ofGetD {o : Option Machine.State} (e : o = some t) (h : (o.getD s).hifId = s.hifId) :
    t.hifId = s.hifId := by
  rw [e] at h
  exact h

@[simp] theorem hifId_foldl {α : Type} {f : Machine.State → α → Machine.State} {l : List α}
    (hf : ∀ t x, (f t x).hifId = t.hifId) : (l.foldl f s).hifId = s.hifId := by
  induction l generalizing s with
  | nil => rfl
  | cons x r ih => exact ih.trans (hf s x)

@[simp] theorem hifId_foldl_fst {α β : Type} {f : Machine.State × β → α → Machine.State × β} {p : Machine.State × β}
    {l : List α} (hf : ∀ p x, (f p x).1.hifId = p.1.hifId) : (l.foldl f p).1.hifId = p.1.hifId := by
  induction l generalizing p with
  | nil => rfl
  | cons x r ih => exact ih.trans (hf p x)

@[simp] theorem hifId_setReg {a v} (h : a ≠ R.HIF_ID) : (s.setReg a v).hifId = s.hifId := reg_setReg_ne s h.symm v

/-- A write that may reach HIF_ID itself leaves it when it writes there what it holds. -/

theorem hifId_setReg_of {a v} (h : a = R.HIF_ID → v = s.hifId) : (s.setReg a v).hifId = s.hifId := by
  by_cases ha : a = R.HIF_ID
  · rw [h ha, ha]
    exact reg_setReg_same s _ _
  · exact hifId_setReg ha

@[simp] theorem hifId_p {a f v} (h : a ≠ R.HIF_ID) : (s.p a f v).hifId = s.hifId := hifId_setReg h
@[simp] theorem hifId_pb {a f b} (h : a ≠ R.HIF_ID) : (s.pb a f b).hifId = s.hifId := hifId_setReg h
@[simp] theorem hifId_satAdd {a f n} (h : a ≠ R.HIF_ID) : (s.satAdd a f n).hifId = s.hifId := hifId_setReg h
@[simp] theorem hifId_inc {a f} (h : a ≠ R.HIF_ID) : (s.inc a f).hifId = s.hifId := hifId_setReg h
@[simp] theorem hifId_raw {a f} (h : a ≠ R.HIF_ID) : (s.raw a f).hifId = s.hifId := hifId_setReg h
@[simp] theorem hifId_setRegN {a n} (h : a ≠ R.HIF_ID) : (s.setRegN a n).hifId = s.hifId := hifId_setReg h
@[simp] theorem hifId_setRegI {a i} (h : a ≠ R.HIF_ID) : (s.setRegI a i).hifId = s.hifId := hifId_setReg h
@[simp] theorem hifId_orReg {a m} (h : a ≠ R.HIF_ID) : (s.orReg a m).hifId = s.hifId := hifId_setReg h
@[simp] theorem hifId_setPair {a n} (h : a ≠ R.HIF_ID) : (s.setPair a n).hifId = s.hifId := by
  unfold setPair; simp [h]
@[simp] theorem hifId_setPairI {a i} (h : a ≠ R.HIF_ID) : (s.setPairI a i).hifId = s.hifId := hifId_setPair h

/-! ### Bytes, conditions and outputs -/

@[simp] theorem hifId_dramWrite {a l} : (s.dramWrite a l).hifId = s.hifId := by
  induction l generalizing s a with
  | nil => rfl
  | cons b r ih => exact ih
@[simp] theorem hifId_drawn : s.drawn.hifId = s.hifId := by unfold drawn; simp
@[simp] theorem hifId_cond {a f b} : (s.cond a f b).hifId = s.hifId := by unfold cond; simp

/-! ### Logging and counting -/

theorem hifId_of_logs (h : Logs s t) : t.hifId = s.hifId := h.reg _ rfl

@[simp] theorem hifId_emit {o} : (s.emit o).hifId = s.hifId := hifId_of_logs (.emit (.refl s))
@[simp] theorem hifId_signal {v} : (s.signal v).hifId = s.hifId := hifId_of_logs (.signal (.refl s))
@[simp] theorem hifId_setFifo {l} : (s.setFifo l).hifId = s.hifId := hifId_of_logs (.setFifo (.refl s))
@[simp] theorem hifId_pushRec {k a r} : (s.pushRec k a r).hifId = s.hifId := hifId_of_logs (.pushRec (.refl s))
@[simp] theorem hifId_fire {n d} : (s.fire n d).hifId = s.hifId := hifId_of_logs (.fire (.refl s))
@[simp] theorem hifId_record {a r} : (s.record a r).hifId = s.hifId := hifId_of_logs (.record (.refl s))
@[simp] theorem hifId_note {t a b c d e} : (s.note t a b c d e).hifId = s.hifId := hifId_of_logs (.note (.refl s))
@[simp] theorem hifId_fault {b c d p} : (s.fault b c d p).hifId = s.hifId := hifId_of_logs (.fault (.refl s))
@[simp] theorem hifId_clockRecs : s.clockRecs.hifId = s.hifId := hifId_of_logs (.clockRecs (.refl s))
@[simp] theorem hifId_endClock : (endClock s t).hifId = t.hifId := hifId_of_logs (.endClock (.refl t))

@[simp] theorem pmcAddr_ne_hifId {g j} : pmcAddr g j ≠ R.HIF_ID := by unfold pmcAddr; split <;> simp
@[simp] theorem hifId_pmcAdd {g j n} : (s.pmcAdd g j n).hifId = s.hifId := by unfold pmcAdd; simp
@[simp] theorem hifId_pmc {g c n} : (s.pmc g c n).hifId = s.hifId := by unfold pmc; simp

/-! ### The timescale, holdover, reference and synthesis blocks -/

@[simp] theorem hifId_setTsc {x} : (s.setTsc x).hifId = s.hifId := by unfold setTsc; simp
@[simp] theorem hifId_supplyRate {r} : (s.supplyRate r).hifId = s.hifId := by unfold supplyRate; simp
@[simp] theorem hifId_supplyHostRate : s.supplyHostRate.hifId = s.hifId := by unfold supplyHostRate; simp
@[simp] theorem hifId_tscFault {code detail param} : (s.tscFault code detail param).hifId = s.hifId := by
  unfold tscFault; simp
@[simp] theorem hifId_fenceCopy {i} : (s.fenceCopy i).hifId = s.hifId := by unfold fenceCopy; simp
@[simp] theorem hifId_tripod {kind copy mask w4} : (s.tripod kind copy mask w4).hifId = s.hifId := by
  unfold tripod; simp
@[simp] theorem hifId_disagree {i} : (s.disagree i).hifId = s.hifId := by unfold disagree; simp
@[simp] theorem hifId_noMajority {l e} : (s.noMajority l e).hifId = s.hifId := by unfold noMajority; simp
@[simp] theorem hifId_mismatch {bad} : (s.mismatch bad).hifId = s.hifId := by unfold mismatch; simp
@[simp] theorem hifId_setVoted {v} : (s.setVoted v).hifId = s.hifId := by unfold setVoted; simp
@[simp] theorem hifId_vote {e} : (s.vote e).hifId = s.hifId := by
  unfold vote
  simp only [hifId_ite]
  (repeat' split) <;> simp
@[simp] theorem hifId_rejoinCopies : s.rejoinCopies.hifId = s.hifId := by unfold rejoinCopies; simp
@[simp] theorem hifId_reloadCopies : s.reloadCopies.hifId = s.hifId := by unfold reloadCopies; simp
@[simp] theorem hifId_formTick {n adv carried u0 u1 u2} : (s.formTick n adv carried u0 u1 u2).hifId = s.hifId := by
  unfold formTick; simp
@[simp] theorem hifId_tickWith {u0 u1 u2} : (s.tickWith u0 u1 u2).hifId = s.hifId := by unfold tickWith; simp
@[simp] theorem hifId_timeQuality {second} : (s.timeQuality second).hifId = s.hifId := by unfold timeQuality; simp
@[simp] theorem hifId_secondEvent : s.secondEvent.hifId = s.hifId := by unfold secondEvent; simp
@[simp] theorem hifId_refuseStep : s.refuseStep.hifId = s.hifId := by unfold refuseStep; simp
@[simp] theorem hifId_setHost {h} : (s.setHost h).hifId = s.hifId := by unfold setHost; simp
@[simp] theorem hifId_phaseRec {src cancel before after amount far} :
    (s.phaseRec src cancel before after amount far).hifId = s.hifId := by
  unfold phaseRec; simp
@[simp] theorem hifId_segUp : s.segUp.hifId = s.hifId := by unfold segUp; simp
@[simp] theorem hifId_cancelStep : s.cancelStep.hifId = s.hifId := by
  unfold cancelStep
  split <;> simp
@[simp] theorem hifId_storeSet {x} : (s.storeSet x).hifId = s.hifId := by unfold storeSet; simp
@[simp] theorem hifId_requestStep : s.requestStep.hifId = s.hifId := by
  unfold requestStep
  simp only [hifId_ite]
  (repeat' split) <;> simp
@[simp] theorem hifId_stepCtrlAct {v} : (s.stepCtrlAct v).hifId = s.hifId := by unfold stepCtrlAct; simp
@[simp] theorem hifId_internalStep {code st} : (s.internalStep code st).hifId = s.hifId := by
  unfold internalStep; simp
@[simp] theorem hifId_applyRel {code amount} : (s.applyRel code amount).hifId = s.hifId := by
  unfold applyRel
  extract_lets before t s₁ syn s₂ s₃ s₄
  have h : s₂.hifId = s₁.hifId := hifId_upd
  clear_value s₂
  simp [s₄, s₃, h, s₁]
@[simp] theorem hifId_applySet {code v} : (s.applySet code v).hifId = s.hifId := by
  unfold applySet
  extract_lets old t s₁ syn s₂ s₃ d s₄ s₅
  have h : s₂.hifId = s₁.hifId := hifId_upd
  clear_value s₂ d
  simp [s₅, s₄, s₃, h, s₁]
@[simp] theorem hifId_accOffset {amount} : (s.accOffset amount).hifId = s.hifId := by unfold accOffset; simp
@[simp] theorem hifId_applyHost {h} : (s.applyHost h).hifId = s.hifId := by
  unfold applyHost
  split <;> simp
@[simp] theorem hifId_applySteps : s.applySteps.hifId = s.hifId := by
  unfold applySteps
  simp only [hifId_ite]
  (repeat' split) <;> simp
@[simp] theorem hifId_clearSuspect : s.clearSuspect.hifId = s.hifId := by unfold clearSuspect; simp
@[simp] theorem hifId_restoreCopies {m} : (s.restoreCopies m).hifId = s.hifId := by unfold restoreCopies; simp
@[simp] theorem hifId_fenceCopies {m} : (s.fenceCopies m).hifId = s.hifId := by unfold fenceCopies; simp
@[simp] theorem hifId_tripodCtrlAct {v} : (s.tripodCtrlAct v).hifId = s.hifId := by unfold tripodCtrlAct; simp
@[simp] theorem hifId_injectAct {v} : (s.injectAct v).hifId = s.hifId := by unfold injectAct; simp
@[simp] theorem hifId_setHld {h} : (s.setHld h).hifId = s.hifId := by unfold setHld; simp
@[simp] theorem hifId_steerTick : s.steerTick.hifId = s.hifId := by unfold steerTick; simp
@[simp] theorem hifId_fixAnchor : s.fixAnchor.hifId = s.hifId := by unfold fixAnchor; simp
@[simp] theorem hifId_breakFit : s.breakFit.hifId = s.hifId := by unfold breakFit; simp
@[simp] theorem hifId_holdRec {kind} : (s.holdRec kind).hifId = s.hifId := by unfold holdRec; simp
@[simp] theorem hifId_beginEpisode : s.beginEpisode.hifId = s.hifId := by unfold beginEpisode; simp
@[simp] theorem hifId_endEpisode : s.endEpisode.hifId = s.hifId := by unfold endEpisode; simp
@[simp] theorem hifId_storeErr {offset} : (s.storeErr offset).hifId = s.hifId := by unfold storeErr; simp
@[simp] theorem hifId_showTempOut : s.showTempOut.hifId = s.hifId := by unfold showTempOut; simp
@[simp] theorem hifId_refreshModelQual : s.refreshModelQual.hifId = s.hifId := by unfold refreshModelQual; simp
@[simp] theorem hifId_setRing {l} : (s.setRing l).hifId = s.hifId := by unfold setRing; simp
@[simp] theorem hifId_setBin {b c count} : (s.setBin b c count).hifId = s.hifId := by unfold setBin; simp
@[simp] theorem hifId_learnTable {x} : (s.learnTable x).hifId = s.hifId := by unfold learnTable; simp
@[simp] theorem hifId_refit : s.refit.hifId = s.hifId := by
  unfold refit
  dsimp only
  (repeat' split) <;> simp
@[simp] theorem hifId_nextFit : s.nextFit.hifId = s.hifId := by unfold nextFit; simp
@[simp] theorem hifId_fitSample {y theta} : (s.fitSample y theta).hifId = s.hifId := by unfold fitSample; simp
@[simp] theorem hifId_fitEnd : s.fitEnd.hifId = s.hifId := by unfold fitEnd; simp
@[simp] theorem hifId_hldSeconds {k} : (s.hldSeconds k).hifId = s.hifId := by unfold hldSeconds; simp
@[simp] theorem hifId_endSecond : s.endSecond.hifId = s.hifId := by unfold endSecond; simp
@[simp] theorem hifId_modelEval : s.modelEval.hifId = s.hifId := by unfold modelEval; simp
@[simp] theorem hifId_loadModel : s.loadModel.hifId = s.hifId := by unfold loadModel; simp
@[simp] theorem hifId_clearTable : s.clearTable.hifId = s.hifId := by unfold clearTable; simp
@[simp] theorem hifId_clearModel : s.clearModel.hifId = s.hifId := by unfold clearModel; simp
@[simp] theorem hifId_hldCtrlAct {old v} : (s.hldCtrlAct old v).hifId = s.hifId := by unfold hldCtrlAct; simp
@[simp] theorem hifId_tempAxisAct {old} : (s.tempAxisAct old).hifId = s.hifId := by unfold tempAxisAct; simp
@[simp] theorem hifId_loseQual {reason} : (s.loseQual reason).hifId = s.hifId := by unfold loseQual; simp
@[simp] theorem hifId_setEmberTime {sec cyc} : (s.setEmberTime sec cyc).hifId = s.hifId := by
  unfold setEmberTime; simp
@[simp] theorem hifId_emberFlag {f b} : (s.emberFlag f b).hifId = s.hifId := by unfold emberFlag; simp
@[simp] theorem hifId_trimUpdate {count} : (s.trimUpdate count).hifId = s.hifId := by unfold trimUpdate; simp
@[simp] theorem hifId_resync : s.resync.hifId = s.hifId := by unfold resync; simp
@[simp] theorem hifId_embCtrlAct {v} : (s.embCtrlAct v).hifId = s.hifId := by unfold embCtrlAct; simp
@[simp] theorem hifId_emberLost : s.emberLost.hifId = s.hifId := by unfold emberLost; simp
@[simp] theorem hifId_emberCold : s.emberCold.hifId = s.hifId := by unfold emberCold; simp
@[simp] theorem hifId_xtalStop : s.xtalStop.hifId = s.hifId := by unfold xtalStop; simp
@[simp] theorem hifId_seedSet {v} : (s.seedSet v).hifId = s.hifId := by unfold seedSet; simp
@[simp] theorem hifId_seed : s.seed.hifId = s.hifId := by unfold seed; simp
@[simp] theorem hifId_setRef {r} : (s.setRef r).hifId = s.hifId := by unfold setRef; simp
@[simp] theorem hifId_setCand {k c} : (s.setCand k c).hifId = s.hifId := by unfold setCand; simp
@[simp] theorem hifId_setRefIn {n x} : (s.setRefIn n x).hifId = s.hifId := by unfold setRefIn; simp
@[simp] theorem hifId_showCand {k} : (s.showCand k).hifId = s.hifId := by unfold showCand; simp
@[simp] theorem hifId_selRec {before event cand w5} : (s.selRec before event cand w5).hifId = s.hifId := by
  unfold selRec; simp
@[simp] theorem hifId_wtrReset {k} : (s.wtrReset k).hifId = s.hifId := by unfold wtrReset; simp
@[simp] theorem hifId_judge {k} : (s.judge k).hifId = s.hifId := by unfold judge; simp
@[simp] theorem hifId_judgeAll : s.judgeAll.hifId = s.hifId := by unfold judgeAll; simp
@[simp] theorem hifId_afterModel {u} : (s.afterModel u).hifId = s.hifId := by unfold afterModel; simp
@[simp] theorem hifId_holdoffExpiry {k} : (s.holdoffExpiry k).hifId = s.hifId := by unfold holdoffExpiry; simp
@[simp] theorem hifId_formReady : s.formReady.hifId = s.hifId := by unfold formReady; simp
@[simp] theorem hifId_oscMismatch {khz} : (s.oscMismatch khz).hifId = s.hifId := by unfold oscMismatch; simp
@[simp] theorem hifId_oscOk : s.oscOk.hifId = s.hifId := by unfold oscOk; simp
@[simp] theorem hifId_refreshJudging : s.refreshJudging.hifId = s.hifId := by unfold refreshJudging; simp
@[simp] theorem hifId_judgeWarm {byTimeout} : (s.judgeWarm byTimeout).hifId = s.hifId := by unfold judgeWarm; simp
@[simp] theorem hifId_warmGate {y} : (s.warmGate y).hifId = s.hifId := by
  unfold warmGate
  dsimp only
  (repeat' split) <;> simp
@[simp] theorem hifId_warmTimeout : s.warmTimeout.hifId = s.hifId := by unfold warmTimeout; simp
@[simp] theorem hifId_oscWarm {b} : (s.oscWarm b).hifId = s.hifId := by unfold oscWarm; simp
@[simp] theorem hifId_offsetSeen {k off} : (s.offsetSeen k off).hifId = s.hifId := by unfold offsetSeen; simp
@[simp] theorem hifId_refLost {n now} : (s.refLost n now).hifId = s.hifId := by unfold refLost; simp
@[simp] theorem hifId_refKept {n now ahead} : (s.refKept n now ahead).hifId = s.hifId := by
  unfold refKept
  dsimp only
  (repeat' split) <;> simp
@[simp] theorem hifId_refEdge {n ahead} : (s.refEdge n ahead).hifId = s.hifId := by unfold refEdge; simp
@[simp] theorem hifId_refStuck {n} : (s.refStuck n).hifId = s.hifId := by unfold refStuck; simp
@[simp] theorem hifId_refOverrun {n} : (s.refOverrun n).hifId = s.hifId := by unfold refOverrun; simp
@[simp] theorem hifId_refRearm {m} : (s.refRearm m).hifId = s.hifId := by unfold refRearm; simp
@[simp] theorem hifId_clearEdges {n} : (s.clearEdges n).hifId = s.hifId := by unfold clearEdges; simp
@[simp] theorem hifId_activity {k pass} : (s.activity k pass).hifId = s.hifId := by unfold activity; simp
@[simp] theorem hifId_freqGate {k y} : (s.freqGate k y).hifId = s.hifId := by unfold freqGate; simp
@[simp] theorem hifId_setBarred {k b} : (s.setBarred k b).hifId = s.hifId := by unfold setBarred; simp
@[simp] theorem hifId_setPortQl {n q} : (s.setPortQl n q).hifId = s.hifId := by unfold setPortQl; simp
@[simp] theorem hifId_sendEsmc {n event} : (s.sendEsmc n event).hifId = s.hifId := by unfold sendEsmc; simp
@[simp] theorem hifId_condChanged {before} : (s.condChanged before).hifId = s.hifId := by unfold condChanged; simp
@[simp] theorem hifId_formCond {before} : (s.formCond before).hifId = s.hifId := by unfold formCond; simp
@[simp] theorem hifId_formForced : s.formForced.hifId = s.hifId := by unfold formForced; simp
@[simp] theorem hifId_clearLock : s.clearLock.hifId = s.hifId := by unfold clearLock; simp
@[simp] theorem hifId_enterSel {st ev} : (s.enterSel st ev).hifId = s.hifId := by unfold enterSel; simp
@[simp] theorem hifId_setTarget {e} : (s.setTarget e).hifId = s.hifId := by unfold setTarget; simp
@[simp] theorem hifId_setModelRate {b} : (s.setModelRate b).hifId = s.hifId := by unfold setModelRate; simp
@[simp] theorem hifId_toModel : s.toModel.hifId = s.hifId := by unfold toModel; simp
@[simp] theorem hifId_toLocked : s.toLocked.hifId = s.hifId := by unfold toLocked; simp
@[simp] theorem hifId_toAcquire {e fromHold} : (s.toAcquire e fromHold).hifId = s.hifId := by unfold toAcquire; simp
@[simp] theorem hifId_toSwitch {e model} : (s.toSwitch e model).hifId = s.hifId := by unfold toSwitch; simp
@[simp] theorem hifId_keepModel : s.keepModel.hifId = s.hifId := by unfold keepModel; simp
@[simp] theorem hifId_toHoldover {fault} : (s.toHoldover fault).hifId = s.hifId := by unfold toHoldover; simp
@[simp] theorem hifId_loopRate {k r} : (s.loopRate k r).hifId = s.hifId := by unfold loopRate; simp
@[simp] theorem hifId_guardCheck {err} : (s.guardCheck err).hifId = s.hifId := by unfold guardCheck; simp
@[simp] theorem hifId_lockCount {err} : (s.lockCount err).hifId = s.hifId := by unfold lockCount; simp
@[simp] theorem hifId_dropSelected : s.dropSelected.hifId = s.hifId := by unfold dropSelected; simp
@[simp] theorem hifId_decideAcquire {rate} : (s.decideAcquire rate).hifId = s.hifId := by
  unfold decideAcquire
  simp only [hifId_ite]
  (repeat' split) <;> simp
@[simp] theorem hifId_decideLocked {rate} : (s.decideLocked rate).hifId = s.hifId := by
  unfold decideLocked
  simp only [hifId_ite]
  (repeat' split) <;> simp
@[simp] theorem hifId_decideSwitch {rate} : (s.decideSwitch rate).hifId = s.hifId := by
  unfold decideSwitch
  simp only [hifId_ite]
  (repeat' split) <;> simp
@[simp] theorem hifId_selDecide {err rate} : (s.selDecide err rate).hifId = s.hifId := by
  unfold selDecide
  simp only [hifId_ite]
  (repeat' split) <;> simp
@[simp] theorem hifId_wtrExpiry {e} : (s.wtrExpiry e).hifId = s.hifId := by unfold wtrExpiry; simp
@[simp] theorem hifId_guardedStep {off} : (s.guardedStep off).hifId = s.hifId := by unfold guardedStep; simp
@[simp] theorem hifId_stepTarget {off} : (s.stepTarget off).hifId = s.hifId := by unfold stepTarget; simp
@[simp] theorem hifId_targetMeasured : s.targetMeasured.hifId = s.hifId := by
  unfold targetMeasured
  split <;> simp
@[simp] theorem hifId_refStep {d} : (s.refStep d).hifId = s.hifId := by unfold refStep; simp
@[simp] theorem hifId_prioAct {e old} : (s.prioAct e old).hifId = s.hifId := by unfold prioAct; simp
@[simp] theorem hifId_steerAct {old} : (s.steerAct old).hifId = s.hifId := by unfold steerAct; simp
@[simp] theorem hifId_setSyn {y} : (s.setSyn y).hifId = s.hifId := by unfold setSyn; simp
@[simp] theorem hifId_setOutRun {n x} : (s.setOutRun n x).hifId = s.hifId := by unfold setOutRun; simp
@[simp] theorem hifId_setForce {a v} : (s.setForce a v).hifId = s.hifId := by unfold setForce; simp
@[simp] theorem hifId_emitEdges {n l} : (s.emitEdges n l).hifId = s.hifId := by unfold emitEdges; simp
@[simp] theorem hifId_runOutput {n} : (s.runOutput n).hifId = s.hifId := by unfold runOutput; simp
@[simp] theorem hifId_pulseSecond {x} : (s.pulseSecond x).hifId = s.hifId := by unfold pulseSecond; simp
@[simp] theorem hifId_outputsTick {n inc gap} : (s.outputsTick n inc gap).hifId = s.hifId := by
  unfold outputsTick; simp
@[simp] theorem hifId_realignStep {delta n} : (s.realignStep delta n).hifId = s.hifId := by unfold realignStep; simp
@[simp] theorem hifId_outputsStep {delta} : (s.outputsStep delta).hifId = s.hifId := by unfold outputsStep; simp
@[simp] theorem hifId_markChange {n} : (s.markChange n).hifId = s.hifId := by unfold markChange; simp
@[simp] theorem hifId_updateGo : s.updateGo.hifId = s.hifId := by unfold updateGo; simp
@[simp] theorem hifId_stagingAct {n} : (s.stagingAct n).hifId = s.hifId := by unfold stagingAct; simp
@[simp] theorem hifId_clampWidth {n} : (s.clampWidth n).hifId = s.hifId := by unfold clampWidth; simp
@[simp] theorem hifId_applyOutput {a n} : (s.applyOutput a n).hifId = s.hifId := by unfold applyOutput; simp
@[simp] theorem hifId_updateApply : s.updateApply.hifId = s.hifId := by unfold updateApply; simp
@[simp] theorem hifId_claimSwitch : s.claimSwitch.hifId = s.hifId := by unfold claimSwitch; simp
@[simp] theorem hifId_relayRise {n x} : (s.relayRise n x).hifId = s.hifId := by unfold relayRise; simp
@[simp] theorem hifId_relayFall {n x} : (s.relayFall n x).hifId = s.hifId := by unfold relayFall; simp
@[simp] theorem hifId_relayEdge {n rise ahead} : (s.relayEdge n rise ahead).hifId = s.hifId := by
  unfold relayEdge; simp
@[simp] theorem hifId_showHold {l} : (s.showHold l).hifId = s.hifId := by
  unfold showHold
  split <;> simp
@[simp] theorem hifId_loopLoss {l cause quiet} : (s.loopLoss l cause quiet).hifId = s.hifId := by
  unfold loopLoss
  split <;> simp
@[simp] theorem hifId_oscFreqChange : s.oscFreqChange.hifId = s.hifId := by unfold oscFreqChange; simp
@[simp] theorem hifId_oscFreqAct {old} : (s.oscFreqAct old).hifId = s.hifId := by unfold oscFreqAct; simp
@[simp] theorem hifId_ungate {d} : (s.ungate d).hifId = s.hifId := by unfold ungate; simp
@[simp] theorem hifId_finishHigh {n} : (s.finishHigh n).hifId = s.hifId := by unfold finishHigh; simp
@[simp] theorem hifId_gate {d} : (s.gate d).hifId = s.hifId := by unfold gate; simp
@[simp] theorem hifId_bridge {cycles} : (s.bridge cycles).hifId = s.hifId := by unfold bridge; simp

/-! ### Stamping and PTP -/

@[simp] theorem hifId_setPts {n x} : (s.setPts n x).hifId = s.hifId := by unfold setPts; simp
@[simp] theorem hifId_setPd {n tx st} : (s.setPd n tx st).hifId = s.hifId := by unfold setPd; simp
@[simp] theorem hifId_storePd {n tx d} : (s.storePd n tx d).hifId = s.hifId := by unfold storePd; simp
@[simp] theorem hifId_pdRefresh {n tx} : (s.pdRefresh n tx).hifId = s.hifId := by unfold pdRefresh; simp
@[simp] theorem hifId_pdRefreshBoth {n} : (s.pdRefreshBoth n).hifId = s.hifId := by unfold pdRefreshBoth; simp
@[simp] theorem hifId_pdModeChange {n} : (s.pdModeChange n).hifId = s.hifId := by unfold pdModeChange; simp
@[simp] theorem hifId_pdSample {n tx raw} : (s.pdSample n tx raw).hifId = s.hifId := by unfold pdSample; simp
@[simp] theorem hifId_pdGap {n} : (s.pdGap n).hifId = s.hifId := by unfold pdGap; simp
@[simp] theorem hifId_asymmetry {n} : (s.asymmetry n).hifId = s.hifId := by unfold asymmetry; simp
@[simp] theorem hifId_setWindow {n l} : (s.setWindow n l).hifId = s.hifId := by unfold setWindow; simp
@[simp] theorem hifId_clearWindow {n} : (s.clearWindow n).hifId = s.hifId := by unfold clearWindow; simp
@[simp] theorem hifId_ldSample {n x} : (s.ldSample n x).hifId = s.hifId := by unfold ldSample; simp
@[simp] theorem hifId_ldExchange {n t1 t2 t3 t4 bad} : (s.ldExchange n t1 t2 t3 t4 bad).hifId = s.hifId := by
  unfold ldExchange; simp
@[simp] theorem hifId_ftempNowAct {n} : (s.ftempNowAct n).hifId = s.hifId := by unfold ftempNowAct; simp
@[simp] theorem hifId_ftempStale {n} : (s.ftempStale n).hifId = s.hifId := by unfold ftempStale; simp
@[simp] theorem hifId_loopGo {n} : (s.loopGo n).hifId = s.hifId := by unfold loopGo; simp
@[simp] theorem hifId_loopAbort {n} : (s.loopAbort n).hifId = s.hifId := by unfold loopAbort; simp
@[simp] theorem hifId_loopCtrlAct {n v} : (s.loopCtrlAct n v).hifId = s.hifId := by unfold loopCtrlAct; simp
@[simp] theorem hifId_loopTx {n x} : (s.loopTx n x).hifId = s.hifId := by unfold loopTx; simp
@[simp] theorem hifId_loopRx {n q x} : (s.loopRx n q x).hifId = s.hifId := by
  unfold loopRx
  dsimp only
  (repeat' split) <;> simp
@[simp] theorem hifId_loopTimeout {n q} : (s.loopTimeout n q).hifId = s.hifId := by unfold loopTimeout; simp
@[simp] theorem hifId_loopDone {n} : (s.loopDone n).hifId = s.hifId := by unfold loopDone; simp
@[simp] theorem hifId_setFifoOf {n l} : (s.setFifoOf n l).hifId = s.hifId := by unfold setFifoOf; simp
@[simp] theorem hifId_pushStamp {n r} : (s.pushStamp n r).hifId = s.hifId := by unfold pushStamp; simp
@[simp] theorem hifId_popStamp {n} : (s.popStamp n).hifId = s.hifId := by
  unfold popStamp
  split <;> simp
@[simp] theorem hifId_serveStep_fst {n r l f x ptp tag} : (s.serveStep n r l f x ptp tag).1.hifId = s.hifId := by
  unfold serveStep
  split <;> simp
@[simp] theorem hifId_setPtp {p} : (s.setPtp p).hifId = s.hifId := by unfold setPtp; simp
@[simp] theorem hifId_setPport {n x} : (s.setPport n x).hifId = s.hifId := by unfold setPport; simp
@[simp] theorem hifId_setPtpState {n st} : (s.setPtpState n st).hifId = s.hifId := by unfold setPtpState; simp
@[simp] theorem hifId_ptpDiscard {n} : (s.ptpDiscard n).hifId = s.hifId := by unfold ptpDiscard; simp
@[simp] theorem hifId_dropSample {n} : (s.dropSample n).hifId = s.hifId := by unfold dropSample; simp
@[simp] theorem hifId_setServo {st} : (s.setServo st).hifId = s.hifId := by unfold setServo; simp
@[simp] theorem hifId_servoRec {ev} : (s.servoRec ev).hifId = s.hifId := by unfold servoRec; simp
@[simp] theorem hifId_startGate : s.startGate.hifId = s.hifId := by unfold startGate; simp
@[simp] theorem hifId_servoMeasures : s.servoMeasures.hifId = s.hifId := by unfold servoMeasures; simp
@[simp] theorem hifId_servoTracks : s.servoTracks.hifId = s.hifId := by unfold servoTracks; simp
@[simp] theorem hifId_servoSteer : s.servoSteer.hifId = s.hifId := by unfold servoSteer; simp
@[simp] theorem hifId_loseValid : s.loseValid.hifId = s.hifId := by unfold loseValid; simp
@[simp] theorem hifId_disqualify {k} : (s.disqualify k).hifId = s.hifId := by unfold disqualify; simp
@[simp] theorem hifId_showUtc {n} : (s.showUtc n).hifId = s.hifId := by unfold showUtc; simp
@[simp] theorem hifId_formValid : s.formValid.hifId = s.hifId := by
  unfold formValid
  dsimp only
  (repeat' split) <;> simp
@[simp] theorem hifId_setServoPort {n} : (s.setServoPort n).hifId = s.hifId := by unfold setServoPort; simp
@[simp] theorem hifId_masterChange {old} : (s.masterChange old).hifId = s.hifId := by unfold masterChange; simp
@[simp] theorem hifId_chooseServo : s.chooseServo.hifId = s.hifId := by unfold chooseServo; simp
@[simp] theorem hifId_tightEval {n} : (s.tightEval n).hifId = s.hifId := by unfold tightEval; simp
@[simp] theorem hifId_groupEval {g} : (s.groupEval g).hifId = s.hifId := by unfold groupEval; simp
@[simp] theorem hifId_ptpSettle {n} : (s.ptpSettle n).hifId = s.hifId := by
  unfold ptpSettle
  split <;> simp
@[simp] theorem hifId_clearParent {n} : (s.clearParent n).hifId = s.hifId := by unfold clearParent; simp
@[simp] theorem hifId_stopPort {n} : (s.stopPort n).hifId = s.hifId := by unfold stopPort; simp
@[simp] theorem hifId_leaveInit {n} : (s.leaveInit n).hifId = s.hifId := by unfold leaveInit; simp
@[simp] theorem hifId_toInit {n} : (s.toInit n).hifId = s.hifId := by unfold toInit; simp
@[simp] theorem hifId_ptpLockLost {n} : (s.ptpLockLost n).hifId = s.hifId := by unfold ptpLockLost; simp
@[simp] theorem hifId_ptpLockGained {n} : (s.ptpLockGained n).hifId = s.hifId := by unfold ptpLockGained; simp
@[simp] theorem hifId_ptpLdCheck {n} : (s.ptpLdCheck n).hifId = s.hifId := by unfold ptpLdCheck; simp
@[simp] theorem hifId_ptpCtrlAct {_old} : (s.ptpCtrlAct _old).hifId = s.hifId := by unfold ptpCtrlAct; simp
@[simp] theorem hifId_ptpCfgAct {n old} : (s.ptpCfgAct n old).hifId = s.hifId := by unfold ptpCfgAct; simp
@[simp] theorem hifId_clockIdAct : s.clockIdAct.hifId = s.hifId := by unfold clockIdAct; simp

theorem hifId_onMessage {n ty m f} (hf : (f s).hifId = s.hifId) : (s.onMessage n ty m f).hifId = s.hifId := by
  unfold onMessage; simp [hf]
@[simp] theorem hifId_sendPtp {n m} : (s.sendPtp n m).hifId = s.hifId := by unfold sendPtp; simp
@[simp] theorem hifId_useSeq {n ty} : (s.useSeq n ty).hifId = s.hifId := by unfold useSeq; simp
@[simp] theorem hifId_sendOneStep {n op t m} : (s.sendOneStep n op t m).hifId = s.hifId := by unfold sendOneStep; simp
@[simp] theorem hifId_syncTx {n x} : (s.syncTx n x).hifId = s.hifId := by unfold syncTx; simp
@[simp] theorem hifId_followTx {n} : (s.followTx n).hifId = s.hifId := by
  unfold followTx
  split <;> simp
@[simp] theorem hifId_announceTx {n} : (s.announceTx n).hifId = s.hifId := by unfold announceTx; simp
@[simp] theorem hifId_delayReqTx {n x} : (s.delayReqTx n x).hifId = s.hifId := by unfold delayReqTx; simp
@[simp] theorem hifId_pdelayReqTx {n x} : (s.pdelayReqTx n x).hifId = s.hifId := by unfold pdelayReqTx; simp
@[simp] theorem hifId_delayRespTx {n} : (s.delayRespTx n).hifId = s.hifId := by
  unfold delayRespTx
  split <;> simp
@[simp] theorem hifId_pdelayRespTx {n x} : (s.pdelayRespTx n x).hifId = s.hifId := by
  unfold pdelayRespTx
  split <;> simp
@[simp] theorem hifId_servoRate {r} : (s.servoRate r).hifId = s.hifId := by unfold servoRate; simp
@[simp] theorem hifId_servoUpdate {o dt code} : (s.servoUpdate o dt code).hifId = s.hifId := by
  unfold servoUpdate; simp
@[simp] theorem hifId_tightTick : s.tightTick.hifId = s.hifId := by unfold tightTick; simp
@[simp] theorem hifId_ptpStep {delta} : (s.ptpStep delta).hifId = s.hifId := by unfold ptpStep; simp
@[simp] theorem hifId_tightSample {o p d} : (s.tightSample o p d).hifId = s.hifId := by unfold tightSample; simp
@[simp] theorem hifId_firstLock {l master} : (s.firstLock l master).hifId = s.hifId := by unfold firstLock; simp
@[simp] theorem hifId_servoSample {o p d master} : (s.servoSample o p d master).hifId = s.hifId := by
  unfold servoSample
  simp only [hifId_ite]
  (repeat' split) <;> simp
@[simp] theorem hifId_servoFreeze : s.servoFreeze.hifId = s.hifId := by unfold servoFreeze; simp
@[simp] theorem hifId_ptpGate_snd : s.ptpGate.2.hifId = s.hifId := by unfold ptpGate; simp
@[simp] theorem hifId_offsetSample {n t1 t2 c breaks p d} :
    (s.offsetSample n t1 t2 c breaks p d).hifId = s.hifId := by
  unfold offsetSample; simp
@[simp] theorem hifId_notFollowed {n} : (s.notFollowed n).hifId = s.hifId := by unfold notFollowed; simp
@[simp] theorem hifId_syncDone {n bad t1 t2 c breaks p d} :
    (s.syncDone n bad t1 t2 c breaks p d).hifId = s.hifId := by
  unfold syncDone; simp
@[simp] theorem hifId_dropWait {n} : (s.dropWait n).hifId = s.hifId := by
  unfold dropWait
  split <;> simp
@[simp] theorem hifId_syncRx {n m x} : (s.syncRx n m x).hifId = s.hifId := hifId_onMessage (by simp)
@[simp] theorem hifId_followUpRx {n m} : (s.followUpRx n m).hifId = s.hifId := by
  refine hifId_onMessage ?_
  simp only [hifId_ite]
  split
  · split <;> simp
  · simp
@[simp] theorem hifId_followUpTimeout {n} : (s.followUpTimeout n).hifId = s.hifId := by unfold followUpTimeout; simp
@[simp] theorem hifId_offsetLapse : s.offsetLapse.hifId = s.hifId := by unfold offsetLapse; simp
@[simp] theorem hifId_delayReqRx {n m x} : (s.delayReqRx n m x).hifId = s.hifId := hifId_onMessage (by simp)
@[simp] theorem hifId_delayRespRx {n m} : (s.delayRespRx n m).hifId = s.hifId := by
  refine hifId_onMessage ?_
  simp only [hifId_ite]
  (repeat' split) <;> simp
@[simp] theorem hifId_pdelayReqRx {n m x} : (s.pdelayReqRx n m x).hifId = s.hifId := hifId_onMessage (by simp)
@[simp] theorem hifId_pdelayDone {n w t4 turn bad} : (s.pdelayDone n w t4 turn bad).hifId = s.hifId := by
  unfold pdelayDone; simp
@[simp] theorem hifId_pdelayRespRx {n m x} : (s.pdelayRespRx n m x).hifId = s.hifId := by
  refine hifId_onMessage ?_
  split <;> simp
@[simp] theorem hifId_pdelayFollowRx {n m} : (s.pdelayFollowRx n m).hifId = s.hifId := by
  refine hifId_onMessage ?_
  (repeat' split) <;> simp
@[simp] theorem hifId_claimBad {n} : (s.claimBad n).hifId = s.hifId := by unfold claimBad; simp
@[simp] theorem hifId_recordAnnounce {n m tlv} : (s.recordAnnounce n m tlv).hifId = s.hifId := by
  unfold recordAnnounce
  split <;> simp
@[simp] theorem hifId_acceptAnnounce {n m tlv} : (s.acceptAnnounce n m tlv).hifId = s.hifId := by
  unfold acceptAnnounce; simp
@[simp] theorem hifId_announceRx {n m} : (s.announceRx n m).hifId = s.hifId := hifId_onMessage (by simp)
@[simp] theorem hifId_announceTimeout {n} : (s.announceTimeout n).hifId = s.hifId := by unfold announceTimeout; simp

/-! ### Forwarding and queues -/

@[simp] theorem ctxAddr_ne_hifId {i} : ctxAddr i ≠ R.HIF_ID := by unfold ctxAddr; simp

theorem entryAddr_ne_hifId {b a p} (h : ((List.range 4).map (entryAddr b)).find? p = some a) : a ≠ R.HIF_ID := by
  obtain ⟨w, _, rfl⟩ := List.mem_map.1 (List.mem_of_find?_eq_some h)
  unfold entryAddr
  simp

@[simp] theorem hifId_setTw {a i v} (h : a ≠ R.HIF_ID) : (s.setTw a i v).hifId = s.hifId := by
  unfold setTw; simp [h]
@[simp] theorem hifId_touch {a} (h : a ≠ R.HIF_ID) : (s.touch a).hifId = s.hifId := by unfold touch; simp [h]
@[simp] theorem hifId_epochUp : s.epochUp.hifId = s.hifId := by unfold epochUp; simp
@[simp] theorem hifId_clearCtx {i} : (s.clearCtx i).hifId = s.hifId := by unfold clearCtx; simp
@[simp] theorem hifId_poolEmpty {detail param} : (s.poolEmpty detail param).hifId = s.hifId := by
  unfold poolEmpty; simp
@[simp] theorem hifId_poolCheck : s.poolCheck.hifId = s.hifId := by unfold poolCheck; simp
@[simp] theorem hifId_accrue {i} : (s.accrue i).hifId = s.hifId := by unfold accrue; simp
@[simp] theorem hifId_police_fst {i n cls slice} : (s.police i n cls slice).1.hifId = s.hifId := by
  unfold police; simp
@[simp] theorem hifId_writeLearned {a k w3 w4 w5} (h : a ≠ R.HIF_ID) :
    (s.writeLearned a k w3 w4 w5).hifId = s.hifId := by
  unfold writeLearned; simp [h]
@[simp] theorem hifId_learnFrom {n vid mac slice} : (s.learnFrom n vid mac slice).hifId = s.hifId := by
  unfold learnFrom
  dsimp only
  split
  · next a h => simp [entryAddr_ne_hifId h]
  · split
    · next a h => simp [entryAddr_ne_hifId h]
    · simp
@[simp] theorem hifId_sweepEntry {a} (h : a ≠ R.HIF_ID) : (s.sweepEntry a).hifId = s.hifId := by
  unfold sweepEntry; simp [h]
@[simp] theorem hifId_window_fst {i q} : (s.window i q).1.hifId = s.hifId := by unfold window; simp
@[simp] theorem hifId_untracked {r mac} : (s.untracked r mac).hifId = s.hifId := by unfold untracked; simp
@[simp] theorem hifId_recirc {slice} : (s.recirc slice).hifId = s.hifId := by unfold recirc; simp
@[simp] theorem hifId_slot {f slice on} : (s.slot f slice on).hifId = s.hifId := by unfold slot; simp
@[simp] theorem hifId_sourceCtx_fst {r mac slice} : (s.sourceCtx r mac slice).1.hifId = s.hifId := by
  unfold sourceCtx
  dsimp only
  split
  · next a h =>
    split
    · split <;> simp [entryAddr_ne_hifId h]
    · simp [entryAddr_ne_hifId h]
  · split
    · next a _ h => simp [entryAddr_ne_hifId h]
    · simp
@[simp] theorem hifId_sendInto_fst {r mac slice} : (s.sendInto r mac slice).1.hifId = s.hifId := by
  unfold sendInto
  split
  · next t h => exact hifId_ofFst h hifId_sourceCtx_fst
  · next t i h => simp [hifId_ofFst h hifId_sourceCtx_fst]
@[simp] theorem hifId_route_fst {b hd vid slice} : (s.route b hd vid slice).1.hifId = s.hifId := by
  unfold route
  extract_lets group miss addr n s₁
  have hm (t) : (miss t).1.hifId = t.hifId := by simp [miss]
  have ha (t) : (addr t).1.hifId = t.hifId := by
    unfold addr
    split
    · next a h => simp [entryAddr_ne_hifId h]
    · exact hm t
  split
  · split
    · next a h => simp [entryAddr_ne_hifId h]
    · simp [s₁, ha]
  · exact ha s
@[simp] theorem hifId_lagAct : s.lagAct.hifId = s.hifId := by unfold lagAct; simp
@[simp] theorem hifId_resolveLag_fst {m lags hash g} : (s.resolveLag m lags hash g).1.hifId = s.hifId := by
  unfold resolveLag
  simp only [hifId_ite_fst]
  split
  · rfl
  · split <;> simp
@[simp] theorem hifId_resolveRed_fst {m mac slice r} : (s.resolveRed m mac slice r).1.hifId = s.hifId := by
  unfold resolveRed
  simp only [hifId_ite_fst, ite_eq_left_iff]
  intro _ _
  split
  · next t q h => exact hifId_ofFst h hifId_sendInto_fst
  · next t h => simp [hifId_ofFst h hifId_sendInto_fst]
@[simp] theorem hifId_resolveReds_fst {m mac slice} : (s.resolveReds m mac slice).1.hifId = s.hifId := by
  refine hifId_foldl_fst fun p r => ?_
  split
  · next t m h => exact hifId_ofFst h hifId_resolveRed_fst
  · next t m e h => exact hifId_ofFst h hifId_resolveRed_fst
@[simp] theorem hifId_filterFrame : s.filterFrame.hifId = s.hifId := by unfold filterFrame; simp
@[simp] theorem hifId_herdTagRec {f h code} : (s.herdTagRec f h code).hifId = s.hifId := by unfold herdTagRec; simp
@[simp] theorem hifId_tagBad {f h} : (s.tagBad f h).hifId = s.hifId := by unfold tagBad; simp
@[simp] theorem hifId_herdOf_fst {f h i} : (s.herdOf f h i).1.hifId = s.hifId := by unfold herdOf; simp
@[simp] theorem hifId_lookupRoute_fst {f base ring} : (s.lookupRoute f base ring).1.hifId = s.hifId := by
  unfold lookupRoute
  extract_lets b h slice inPort
  split
  next s₁ rt hr =>
  extract_lets cls x s₂ s₃ s₄ y s₅ own m lags z w s₆ ringPort m₁ reason m₂ s₇ i
  have h₁ : s₁.hifId = s.hifId := hifId_ofFst hr hifId_route_fst
  have hx : x.1.hifId = s₁.hifId := by
    unfold x
    split <;> simp
  have h₄ : s₄.hifId = s₂.hifId := by
    unfold s₄
    split <;> simp [s₃]
  have hy : y.1.hifId = s₄.hifId := by
    unfold y
    split <;> simp
  have hw : w.1.hifId = s₅.hifId := by simp [w, z]
  simp [s₇, s₆, hw, s₅, hy, h₄, s₂, hx, h₁]
@[simp] theorem hifId_lanCheck {r n h} : (s.lanCheck r n h).hifId = s.hifId := by
  unfold lanCheck
  split <;> simp
@[simp] theorem hifId_lookupSeq_fst {f base r q} : (s.lookupSeq f base r q).1.hifId = s.hifId := by
  unfold lookupSeq
  dsimp only
  split <;> simp
@[simp] theorem hifId_lookupRed_fst {f base} : (s.lookupRed f base).1.hifId = s.hifId := by
  unfold lookupRed
  split
  · simp
  · dsimp only
    split <;> simp
@[simp] theorem hifId_lookup_fst {f} : (s.lookup f).1.hifId = s.hifId := by
  unfold lookup
  dsimp only
  (repeat' split) <;> simp
@[simp] theorem hifId_setStaging {a x} : (s.setStaging a x).hifId = s.hifId := by unfold setStaging; simp
@[simp] theorem hifId_stageAbort : s.stageAbort.hifId = s.hifId := by unfold stageAbort; simp
@[simp] theorem hifId_stageWrite {a v} : (s.stageWrite a v).hifId = s.hifId := by
  unfold stageWrite
  dsimp only
  (repeat' split) <;> simp

theorem tableEntry_ne_hifId {a} (h : isTable a = true) : tableEntry a ≠ R.HIF_ID := by
  have hm : a % entrySize a < 64 := by
    unfold entrySize
    split <;> omega
  simp only [isTable, Bool.and_eq_true, decide_eq_true_eq] at h
  show a - a % entrySize a ≠ 0
  omega

/-- The words of a staging buffer, written to the entry at `a`. -/

theorem hifId_foldl_setTw {l : Tbl (Option Nat)} {a} (h : a ≠ R.HIF_ID) :
    (l.foldl (fun s p => match p.2 with | some w => s.setTw a p.1 w | none => s) s).hifId = s.hifId := by
  refine hifId_foldl fun t p => ?_
  split <;> simp [h]

@[simp] theorem hifId_commit {a v} (h : isTable a = true) : (s.commit a v).hifId = s.hifId := by
  unfold commit
  extract_lets e mine s₁ s₂ keep s₃ w₀ w₁ s₄ s₅ i had s₆ s₇ s₈
  have he : e ≠ R.HIF_ID := tableEntry_ne_hifId h
  have h₂ : s₂.hifId = s.hifId := by
    unfold s₂ s₁
    split <;> simp
  have h₃ : s₃.hifId = s₂.hifId := hifId_foldl_setTw he
  have h₇ : s₇.hifId = s₆.hifId := hifId_foldl_setTw he
  simp [s₅, s₄, h₃, he, s₈, h₇, s₆, h₂]
@[simp] theorem hifId_drainStart : s.drainStart.hifId = s.hifId := by unfold drainStart; simp
@[simp] theorem hifId_drainDone : s.drainDone.hifId = s.hifId := by unfold drainDone; simp
@[simp] theorem hifId_setFwd {x} : (s.setFwd x).hifId = s.hifId := by unfold setFwd; simp
@[simp] theorem hifId_setFrame {f} : (s.setFrame f).hifId = s.hifId := by unfold setFrame; simp
@[simp] theorem hifId_setQueue {q l} : (s.setQueue q l).hifId = s.hifId := by unfold setQueue; simp
@[simp] theorem hifId_usageAdd {n p d} : (s.usageAdd n p d).hifId = s.hifId := by unfold usageAdd; simp
@[simp] theorem hifId_cellsAdd {a d} (h : a ≠ R.HIF_ID) : (s.cellsAdd a d).hifId = s.hifId := hifId_setReg h
@[simp] theorem hifId_portXoff {n} : (s.portXoff n).hifId = s.hifId := by unfold portXoff; simp
@[simp] theorem hifId_xoff : s.xoff.hifId = s.hifId := by unfold xoff; simp
@[simp] theorem hifId_enqueue {f l n} : (s.enqueue f l n).hifId = s.hifId := by unfold enqueue; simp
@[simp] theorem hifId_uncount {c} : (s.uncount c).hifId = s.hifId := by
  unfold uncount
  split <;> simp
@[simp] theorem hifId_handOver {f l a} : (s.handOver f l a).hifId = s.hifId := by unfold handOver; simp
@[simp] theorem hifId_unstall {k l} : (s.unstall k l).hifId = s.hifId := by
  fun_induction unstall s k l <;> simp [*]
@[simp] theorem hifId_unstallAll : s.unstallAll.hifId = s.hifId := by unfold unstallAll; simp
@[simp] theorem hifId_toManager {f k} : (s.toManager f k).hifId = s.hifId := by unfold toManager; simp
@[simp] theorem hifId_reapFrame {f} : (s.reapFrame f).hifId = s.hifId := by unfold reapFrame; simp
@[simp] theorem hifId_settle : s.settle.hifId = s.hifId := by unfold settle; simp
@[simp] theorem hifId_frameRec {typ l x port len fcs detail trig} :
    (s.frameRec typ l x port len fcs detail trig).hifId = s.hifId := by
  unfold frameRec
  dsimp only
  (repeat' split) <;> simp
@[simp] theorem hifId_twoStep {f l n x} : (s.twoStep f l n x).hifId = s.hifId := by
  unfold twoStep
  dsimp only
  (repeat' split) <;> simp
@[simp] theorem hifId_lineUse {n x k} : (s.lineUse n x k).hifId = s.hifId := by unfold lineUse; simp
@[simp] theorem hifId_depart {f l n x cut late} : (s.depart f l n x cut late).hifId = s.hifId := by
  unfold depart
  split <;> simp
@[simp] theorem hifId_departBad {f l n x cause zero} : (s.departBad f l n x cause zero).hifId = s.hifId := by
  unfold departBad; simp
@[simp] theorem hifId_refuse {n p cause x} : (s.refuse n p cause x).hifId = s.hifId := by unfold refuse; simp
@[simp] theorem hifId_addFrame {f} : (s.addFrame f).hifId = s.hifId := by unfold addFrame; simp
@[simp] theorem hifId_receive {n x b} : (s.receive n x b).hifId = s.hifId := by unfold receive; simp
@[simp] theorem hifId_dropCopies_fst {i} : (s.dropCopies i).1.hifId = s.hifId := by unfold dropCopies; simp
@[simp] theorem hifId_endSending {n} : (s.endSending n).hifId = s.hifId := by unfold endSending; simp
@[simp] theorem hifId_finish {f l zero} : (s.finish f l zero).hifId = s.hifId := by
  unfold finish
  dsimp only
  (repeat' split) <;> simp
@[simp] theorem hifId_frameLookup {n} : (s.frameLookup n).hifId = s.hifId := by
  unfold frameLookup
  dsimp only
  (repeat' split) <;> simp
@[simp] theorem hifId_trim {f} : (s.trim f).hifId = s.hifId := by unfold trim; simp
@[simp] theorem hifId_judgeEnd {f zero} : (s.judgeEnd f zero).hifId = s.hifId := by
  unfold judgeEnd
  dsimp only
  split
  · split <;> simp
  · simp
@[simp] theorem hifId_judgeEnds : s.judgeEnds.hifId = s.hifId := by
  refine hifId_foldl fun t f => ?_
  split <;> simp
@[simp] theorem hifId_frameEnd {n e corr} : (s.frameEnd n e corr).hifId = s.hifId := by
  unfold frameEnd
  dsimp only
  (repeat' split) <;> simp
@[simp] theorem hifId_spillFull {b} : (s.spillFull b).hifId = s.hifId := by unfold spillFull; simp
@[simp] theorem hifId_spillShow : s.spillShow.hifId = s.hifId := by unfold spillShow; simp
@[simp] theorem hifId_agedRec {c mem} : (s.agedRec c mem).hifId = s.hifId := by
  unfold agedRec
  dsimp only
  (repeat' split) <;> simp
@[simp] theorem hifId_ageOut {c mem} : (s.ageOut c mem).hifId = s.hifId := by unfold ageOut; simp
@[simp] theorem hifId_ageHeads {q l} : (s.ageHeads q l).hifId = s.hifId := by
  fun_induction ageHeads s q l <;> simp [*]
@[simp] theorem hifId_ageScan : s.ageScan.hifId = s.hifId := by unfold ageScan; simp
@[simp] theorem hifId_spillList_fst {keep hd l} : (s.spillList keep hd l).1.hifId = s.hifId := by
  fun_induction spillList s keep hd l
  case case3 e ih | case4 e ih | case5 e ih => exact hifId_ofFst e ih
  case case7 => exact hifId_spillFull
  case case8 t₁ t₂ u r e ih =>
    have h : t₂.hifId = t₁.hifId := by simp [t₂]
    exact (hifId_ofFst e ih).trans (by simp [h, t₁])
  all_goals rfl
@[simp] theorem hifId_spillWrite {q} : (s.spillWrite q).hifId = s.hifId := by unfold spillWrite; simp
@[simp] theorem hifId_readCopy {q head c r f} : (s.readCopy q head c r f).hifId = s.hifId := by
  unfold readCopy
  dsimp only
  (repeat' split) <;> simp
@[simp] theorem hifId_spillRead {q h} : (s.spillRead q h).hifId = s.hifId := by
  unfold spillRead
  dsimp only
  (repeat' split) <;> simp
@[simp] theorem hifId_stallReached : s.stallReached.hifId = s.hifId := by unfold stallReached; simp
@[simp] theorem hifId_pfcSend {n} : (s.pfcSend n).hifId = s.hifId := by unfold pfcSend; simp
@[simp] theorem hifId_pfcTx {n} : (s.pfcTx n).hifId = s.hifId := by unfold pfcTx; simp
@[simp] theorem hifId_pfcRefresh {n} : (s.pfcRefresh n).hifId = s.hifId := by unfold pfcRefresh; simp
@[simp] theorem hifId_pfcRx {n b} : (s.pfcRx n b).hifId = s.hifId := by unfold pfcRx; simp
@[simp] theorem hifId_pauseEnd {n p} : (s.pauseEnd n p).hifId = s.hifId := by unfold pauseEnd; simp
@[simp] theorem hifId_dramTrained {bad} : (s.dramTrained bad).hifId = s.hifId := by unfold dramTrained; simp

/-! ### Herd and egress -/

@[simp] theorem hifId_setCal {n l} : (s.setCal n l).hifId = s.hifId := by unfold setCal; simp
@[simp] theorem hifId_setPass {n l} : (s.setPass n l).hifId = s.hifId := by unfold setPass; simp
@[simp] theorem hifId_lateRec {c l i reason outcome} : (s.lateRec c l i reason outcome).hifId = s.hifId := by
  unfold lateRec; simp
@[simp] theorem hifId_lateJudge {c reason} : (s.lateJudge c reason).hifId = s.hifId := by
  unfold lateJudge
  split <;> simp
@[simp] theorem hifId_claimRemove {c} : (s.claimRemove c).hifId = s.hifId := by
  unfold claimRemove
  split <;> simp
@[simp] theorem hifId_placeCopy {f l i n} : (s.placeCopy f l i n).hifId = s.hifId := by unfold placeCopy; simp
@[simp] theorem hifId_herdPlace : s.herdPlace.hifId = s.hifId := by
  unfold herdPlace
  (repeat' split) <;> simp
@[simp] theorem hifId_calDepart_getD {n x} : ((s.calDepart n x).getD s).hifId = s.hifId := by
  unfold calDepart
  dsimp only
  (repeat' split) <;> simp
@[simp] theorem hifId_herdDecision {n x} : (s.herdDecision n x).hifId = s.hifId := by unfold herdDecision; simp
@[simp] theorem hifId_herdRestartPort {n kept l} : (s.herdRestartPort n kept l).hifId = s.hifId := by
  fun_induction herdRestartPort s n kept l <;> simp [*]
@[simp] theorem hifId_herdRestart : s.herdRestart.hifId = s.hifId := by unfold herdRestart; simp
@[simp] theorem hifId_herdClaimLost : s.herdClaimLost.hifId = s.hifId := by unfold herdClaimLost; simp
@[simp] theorem hifId_admitPort {l n} : (s.admitPort l n).hifId = s.hifId := by unfold admitPort; simp
@[simp] theorem hifId_herdSweep : s.herdSweep.hifId = s.hifId := by unfold herdSweep; simp
@[simp] theorem hifId_addReady {k b st desc} : (s.addReady k b st desc).hifId = s.hifId := by unfold addReady; simp
@[simp] theorem hifId_select_fst {n k} : (s.select n k).1.hifId = s.hifId := by
  fun_induction select s n k
  case case3 ih => exact ih.trans (by simp)
  all_goals rfl
@[simp] theorem hifId_startOrdinary {n x} : (s.startOrdinary n x).hifId = s.hifId := by
  unfold startOrdinary
  split
  · next t h => simp [hifId_ofFst h hifId_select_fst]
  · next t c h =>
    have ht := hifId_ofFst h hifId_select_fst
    (repeat' split) <;> simp [ht]
@[simp] theorem hifId_servePass_getD {n x} : ((s.servePass n x).getD s).hifId = s.hifId := by
  unfold servePass
  dsimp only
  (repeat' split) <;> simp
@[simp] theorem hifId_egressSelect {n x} : (s.egressSelect n x).hifId = s.hifId := by
  unfold egressSelect
  dsimp only
  split
  · next t h => exact hifId_ofGetD h hifId_calDepart_getD
  · rw [hifId_ite]
    split
    · rfl
    · split
      · next t h => exact hifId_ofGetD h hifId_servePass_getD
      · simp
@[simp] theorem hifId_hostDeliver : s.hostDeliver.hifId = s.hifId := by
  unfold hostDeliver
  rw [hifId_ite]
  split
  · rfl
  · split
    · next t h => simp [hifId_ofFst h hifId_select_fst]
    · next t c h =>
      have ht := hifId_ofFst h hifId_select_fst
      (repeat' split) <;> simp [ht]
@[simp] theorem hifId_hostIngest {desc mem} : (s.hostIngest desc mem).hifId = s.hifId := by
  unfold hostIngest
  simp only [hifId_ite]
  (repeat' split) <;> simp
@[simp] theorem hifId_mgmtRx {n} : (s.mgmtRx n).hifId = s.hifId := by
  unfold mgmtRx
  dsimp only
  (repeat' split) <;> simp

/-! ### Guyline messages and the pair -/

@[simp] theorem hifId_setGuy {g} : (s.setGuy g).hifId = s.hifId := by unfold setGuy; simp
@[simp] theorem hifId_setRut {r} : (s.setRut r).hifId = s.hifId := by unfold setRut; simp
@[simp] theorem hifId_guyMessages_fst {l} : (s.guyMessages l).1.hifId = s.hifId := by
  fun_induction guyMessages s l
  case case1 => rfl
  case case2 e ih => exact (hifId_ofFst e ih).trans hifId_setGuy
@[simp] theorem hifId_guyPut {l} : (s.guyPut l).hifId = s.hifId := by unfold guyPut; simp
@[simp] theorem hifId_guySend {c payload} : (s.guySend c payload).hifId = s.hifId := by unfold guySend; simp
@[simp] theorem hifId_setWire {f} : (s.setWire f).hifId = s.hifId := by unfold setWire; simp
@[simp] theorem hifId_setPairState {n} : (s.setPairState n).hifId = s.hifId := by unfold setPairState; simp
@[simp] theorem hifId_mirrorOver : s.mirrorOver.hifId = s.hifId := by unfold mirrorOver; simp
@[simp] theorem hifId_claimRec {code before partnerBefore} :
    (s.claimRec code before partnerBefore).hifId = s.hifId := by
  unfold claimRec; simp
@[simp] theorem hifId_setHigher {b} : (s.setHigher b).hifId = s.hifId := by
  unfold setHigher
  simp only [hifId_ite]
  (repeat' split) <;> simp
@[simp] theorem hifId_rutRefresh : s.rutRefresh.hifId = s.hifId := by unfold rutRefresh; simp
@[simp] theorem hifId_becomeHigher : s.becomeHigher.hifId = s.hifId := by unfold becomeHigher; simp
@[simp] theorem hifId_applyTimeRecord {l} : (s.applyTimeRecord l).hifId = s.hifId := by unfold applyTimeRecord; simp
@[simp] theorem hifId_setWords {a b l} (h : a ≠ R.HIF_ID) : (s.setWords a b l).hifId = s.hifId := by
  fun_induction setWords s a b l <;> simp [*]
@[simp] theorem hifId_batchApply : s.batchApply.hifId = s.hifId := by
  unfold batchApply
  split <;> simp
@[simp] theorem hifId_takeover : s.takeover.hifId = s.hifId := by unfold takeover; simp
@[simp] theorem hifId_toStandby {epoch} : (s.toStandby epoch).hifId = s.hifId := by unfold toStandby; simp
@[simp] theorem hifId_demote : s.demote.hifId = s.hifId := by unfold demote; simp
@[simp] theorem hifId_pairRules : s.pairRules.hifId = s.hifId := by
  unfold pairRules
  split <;> simp
@[simp] theorem hifId_pairEval : s.pairEval.hifId = s.hifId := by unfold pairEval; simp
@[simp] theorem hifId_discardCopy {kind} : (s.discardCopy kind).hifId = s.hifId := by unfold discardCopy; simp
@[simp] theorem hifId_discardIncomplete : s.discardIncomplete.hifId = s.hifId := by unfold discardIncomplete; simp
@[simp] theorem hifId_mirrorRx {p} : (s.mirrorRx p).hifId = s.hifId := by unfold mirrorRx; simp
@[simp] theorem hifId_ckptRx {p} : (s.ckptRx p).hifId = s.hifId := by unfold ckptRx; simp
@[simp] theorem hifId_commitRx {p} : (s.commitRx p).hifId = s.hifId := by
  unfold commitRx
  simp only [hifId_ite]
  (repeat' split) <;> simp
@[simp] theorem hifId_hbFail : s.hbFail.hifId = s.hifId := by unfold hbFail; simp
@[simp] theorem hifId_pairLinkDown : s.pairLinkDown.hifId = s.hifId := by unfold pairLinkDown; simp
@[simp] theorem hifId_heartbeatRx {p} : (s.heartbeatRx p).hifId = s.hifId := by unfold heartbeatRx; simp
@[simp] theorem hifId_claimRx {p} : (s.claimRx p).hifId = s.hifId := by unfold claimRx; simp
@[simp] theorem hifId_heartbeatTx : s.heartbeatTx.hifId = s.hifId := by unfold heartbeatTx; simp
@[simp] theorem hifId_claimTx : s.claimTx.hifId = s.hifId := by unfold claimTx; simp
@[simp] theorem hifId_wireStale : s.wireStale.hifId = s.hifId := by unfold wireStale; simp
@[simp] theorem hifId_wireRx {f} : (s.wireRx f).hifId = s.hifId := by
  unfold wireRx
  split <;> simp
@[simp] theorem hifId_pairEnable : s.pairEnable.hifId = s.hifId := by unfold pairEnable; simp
@[simp] theorem hifId_pairDisable : s.pairDisable.hifId = s.hifId := by unfold pairDisable; simp
@[simp] theorem hifId_rutCtrlAct : s.rutCtrlAct.hifId = s.hifId := by unfold rutCtrlAct; simp
@[simp] theorem hifId_initWait : s.initWait.hifId = s.hifId := by unfold initWait; simp
@[simp] theorem hifId_pairHand {scan} : (s.pairHand scan).hifId = s.hifId := by unfold pairHand; simp
@[simp] theorem hifId_handOverCmd : s.handOverCmd.hifId = s.hifId := by unfold handOverCmd; simp
@[simp] theorem hifId_release : s.release.hifId = s.hifId := by unfold release; simp
@[simp] theorem hifId_rutCmdAct {v} : (s.rutCmdAct v).hifId = s.hifId := by unfold rutCmdAct; simp
@[simp] theorem hifId_scanFailOver_fst : s.scanFailOver.1.hifId = s.hifId := by
  unfold scanFailOver
  dsimp only
  (repeat' split) <;> simp
@[simp] theorem hifId_sendCopy {c kind ident o l} : (s.sendCopy c kind ident o l).hifId = s.hifId := by
  unfold sendCopy; simp
@[simp] theorem hifId_accrueAll : s.accrueAll.hifId = s.hifId := by unfold accrueAll; simp
@[simp] theorem hifId_mirrorStart : s.mirrorStart.hifId = s.hifId := by unfold mirrorStart; simp
@[simp] theorem hifId_ckptStart : s.ckptStart.hifId = s.hifId := by unfold ckptStart; simp
@[simp] theorem hifId_applyCheckpoint {b} : (s.applyCheckpoint b).hifId = s.hifId := by unfold applyCheckpoint; simp
@[simp] theorem hifId_ckptApplied : s.ckptApplied.hifId = s.hifId := by
  unfold ckptApplied
  simp only [hifId_ite]
  (repeat' split) <;> simp
@[simp] theorem hifId_setGuyState {n} : (s.setGuyState n).hifId = s.hifId := by unfold setGuyState; simp
@[simp] theorem hifId_laneBit {f l b} : (s.laneBit f l b).hifId = s.hifId := by unfold laneBit; simp
@[simp] theorem hifId_setGuyPd {tx st d} : (s.setGuyPd tx st d).hifId = s.hifId := by unfold setGuyPd; simp
@[simp] theorem hifId_guyPdRefresh : s.guyPdRefresh.hifId = s.hifId := by unfold guyPdRefresh; simp
@[simp] theorem hifId_guyPdSample {tx raw} : (s.guyPdSample tx raw).hifId = s.hifId := by unfold guyPdSample; simp
@[simp] theorem hifId_guyPdGap : s.guyPdGap.hifId = s.hifId := by unfold guyPdGap; simp
@[simp] theorem hifId_guyLeaveUp {host marker} : (s.guyLeaveUp host marker).hifId = s.hifId := by
  unfold guyLeaveUp; simp
@[simp] theorem hifId_guyEval : s.guyEval.hifId = s.hifId := by unfold guyEval; simp
@[simp] theorem hifId_laneChange : s.laneChange.hifId = s.hifId := by unfold laneChange; simp
@[simp] theorem hifId_laneDetect {f l b} : (s.laneDetect f l b).hifId = s.hifId := by unfold laneDetect; simp
@[simp] theorem hifId_blockLock {l gained compl} : (s.blockLock l gained compl).hifId = s.hifId := by
  unfold blockLock; simp
@[simp] theorem hifId_guyMarkers : s.guyMarkers.hifId = s.hifId := by unfold guyMarkers; simp
@[simp] theorem hifId_guyEnable : s.guyEnable.hifId = s.hifId := by unfold guyEnable; simp
@[simp] theorem hifId_guyDisable : s.guyDisable.hifId = s.hifId := by unfold guyDisable; simp
@[simp] theorem hifId_guyCtrlAct : s.guyCtrlAct.hifId = s.hifId := by unfold guyCtrlAct; simp
@[simp] theorem hifId_markerRx {l} : (s.markerRx l).hifId = s.hifId := by unfold markerRx; simp
@[simp] theorem hifId_alignTimeout : s.alignTimeout.hifId = s.hifId := by unfold alignTimeout; simp
@[simp] theorem hifId_streamError {code lanes} : (s.streamError code lanes).hifId = s.hifId := by
  unfold streamError
  simp only [hifId_ite]
  (repeat' split) <;> simp

theorem hifId_guyDeliver {c m f} (hf : ∀ q p, (f q p).hifId = s.hifId) : (s.guyDeliver c m f).hifId = s.hifId := by
  unfold guyDeliver
  rw [hifId_ite]
  split
  · split <;> simp [hf]
  · rfl
@[simp] theorem hifId_timeTx {x} : (s.timeTx x).hifId = s.hifId := by unfold timeTx; simp
@[simp] theorem hifId_timeRx {t2 q p} : (s.timeRx t2 q p).hifId = s.hifId := by
  unfold timeRx
  dsimp only
  (repeat' split) <;> simp
@[simp] theorem hifId_timeStale : s.timeStale.hifId = s.hifId := by unfold timeStale; simp
@[simp] theorem hifId_showLock {n b signal} : (s.showLock n b signal).hifId = s.hifId := by unfold showLock; simp
@[simp] theorem hifId_lockLost {n signal} : (s.lockLost n signal).hifId = s.hifId := by unfold lockLost; simp
@[simp] theorem hifId_lockGained {n} : (s.lockGained n).hifId = s.hifId := by unfold lockGained; simp
@[simp] theorem hifId_copyFactory {n} : (s.copyFactory n).hifId = s.hifId := by unfold copyFactory; simp
@[simp] theorem hifId_macCfgAct {n old} : (s.macCfgAct n old).hifId = s.hifId := by unfold macCfgAct; simp
@[simp] theorem hifId_setLane {n b} : (s.setLane n b).hifId = s.hifId := by unfold setLane; simp
@[simp] theorem hifId_truncate {n k} : (s.truncate n k).hifId = s.hifId := by
  unfold truncate
  dsimp only
  (repeat' split) <;> simp
@[simp] theorem hifId_laneUnlock {n sent} : (s.laneUnlock n sent).hifId = s.hifId := by
  unfold laneUnlock
  simp only [hifId_ite]
  (repeat' split) <;> simp

/-! ### The journal, event inputs and pins -/

@[simp] theorem hifId_sprStatus : s.sprStatus.hifId = s.hifId := by
  unfold sprStatus
  extract_lets n gap full s₁ s₂
  rw [hifId_cond]
  simp [s₂, s₁]
@[simp] theorem hifId_sprEnable : s.sprEnable.hifId = s.hifId := by unfold sprEnable; simp
@[simp] theorem hifId_sprDisable : s.sprDisable.hifId = s.hifId := by unfold sprDisable; simp
@[simp] theorem hifId_sprCtrlAct {old} : (s.sprCtrlAct old).hifId = s.hifId := by unfold sprCtrlAct; simp
@[simp] theorem hifId_sprPartition : s.sprPartition.hifId = s.hifId := by unfold sprPartition; simp
@[simp] theorem hifId_recordWrite : s.recordWrite.hifId = s.hifId := by
  unfold recordWrite
  split <;> simp
@[simp] theorem hifId_lossRecord : s.lossRecord.hifId = s.hifId := by unfold lossRecord; simp
@[simp] theorem hifId_sprFire : s.sprFire.hifId = s.hifId := by unfold sprFire; simp
@[simp] theorem hifId_sprRearm : s.sprRearm.hifId = s.hifId := by unfold sprRearm; simp
@[simp] theorem hifId_sprFetch : s.sprFetch.hifId = s.hifId := by unfold sprFetch; simp
@[simp] theorem hifId_sprCmdAct {v} : (s.sprCmdAct v).hifId = s.hifId := by unfold sprCmdAct; simp
@[simp] theorem hifId_fetchDone : s.fetchDone.hifId = s.hifId := by unfold fetchDone; simp
@[simp] theorem hifId_pinTrig {fall ns} : (s.pinTrig fall ns).hifId = s.hifId := by unfold pinTrig; simp
@[simp] theorem hifId_sprFreeze : s.sprFreeze.hifId = s.hifId := by unfold sprFreeze; simp
@[simp] theorem hifId_journalBuffer {desc idle} : (s.journalBuffer desc idle).hifId = s.hifId := by
  unfold journalBuffer; simp
@[simp] theorem hifId_setChan {e c} : (s.setChan e c).hifId = s.hifId := by unfold setChan; simp
@[simp] theorem hifId_setUnit {m u} : (s.setUnit m u).hifId = s.hifId := by unfold setUnit; simp
@[simp] theorem hifId_statusBit {f e b} : (s.statusBit f e b).hifId = s.hifId := by unfold statusBit; simp
@[simp] theorem hifId_latch {m freq} : (s.latch m freq).hifId = s.hifId := by unfold latch; simp
@[simp] theorem hifId_sample {m freq x} : (s.sample m freq x).hifId = s.hifId := by unfold sample; simp
@[simp] theorem hifId_clearBlock {m} : (s.clearBlock m).hifId = s.hifId := by unfold clearBlock; simp
@[simp] theorem hifId_tdcRec {kind e start sub value w6 w7 time seg gap trig} :
    (s.tdcRec kind e start sub value w6 w7 time seg gap trig).hifId = s.hifId := by
  unfold tdcRec; simp
@[simp] theorem hifId_windowEvent {m c} : (s.windowEvent m c).hifId = s.hifId := by unfold windowEvent; simp
@[simp] theorem hifId_result {m freq x} : (s.result m freq x).hifId = s.hifId := by unfold result; simp
@[simp] theorem hifId_stop {m w u seg} : (s.stop m w u seg).hifId = s.hifId := by unfold stop; simp
@[simp] theorem hifId_dropWin {m} : (s.dropWin m).hifId = s.hifId := by unfold dropWin; simp
@[simp] theorem hifId_windowClose {m} : (s.windowClose m).hifId = s.hifId := by
  unfold windowClose
  split <;> simp
@[simp] theorem hifId_windowEnd {m c} : (s.windowEnd m c).hifId = s.hifId := by
  unfold windowEnd
  split <;> simp
@[simp] theorem hifId_openWindow {m x} : (s.openWindow m x).hifId = s.hifId := by
  unfold openWindow
  extract_lets stop same freq c w u s₁ st s₂ s₃
  have h₃ : s₃.hifId = s.hifId := by
    unfold s₃
    split <;> simp [s₂, st, s₁]
  clear_value s₃
  refine (hifId_foldl fun t u => ?_).trans h₃
  split <;> simp
@[simp] theorem hifId_windowStart {m} : (s.windowStart m).hifId = s.hifId := by
  unfold windowStart
  dsimp only
  (repeat' split) <;> simp
@[simp] theorem hifId_giveStart {ch x} : (s.giveStart ch x).hifId = s.hifId := by unfold giveStart; simp
@[simp] theorem hifId_chanOut {e} : (s.chanOut e).hifId = s.hifId := by unfold chanOut; simp
@[simp] theorem hifId_chanStatus {e} : (s.chanStatus e).hifId = s.hifId := by unfold chanStatus; simp
@[simp] theorem hifId_edgeLost {e u} : (s.edgeLost e u).hifId = s.hifId := by
  refine (hifId_foldl fun t m => ?_).trans hifId_setChan
  dsimp only
  split <;> simp
@[simp] theorem hifId_tdcEdge {e rise code since hold} : (s.tdcEdge e rise code since hold).hifId = s.hifId := by
  unfold tdcEdge
  simp only [hifId_ite]
  (repeat' split) <;> simp
@[simp] theorem hifId_pushEvent {e x} : (s.pushEvent e x).hifId = s.hifId := by unfold pushEvent; simp
@[simp] theorem hifId_popEvent {e} : (s.popEvent e).hifId = s.hifId := by
  unfold popEvent
  split <;> simp
@[simp] theorem hifId_tdcConvert {e} : (s.tdcConvert e).hifId = s.hifId := by
  unfold tdcConvert
  dsimp only
  split
  · rfl
  · rw [hifId_ite]
    split
    · rfl
    · rw [hifId_giveStart]
      refine (hifId_foldl fun t m => ?_).trans (by simp)
      split <;> simp
@[simp] theorem hifId_calibrate {e} : (s.calibrate e).hifId = s.hifId := by unfold calibrate; simp
@[simp] theorem hifId_calDone {e b s1 s2} : (s.calDone e b s1 s2).hifId = s.hifId := by unfold calDone; simp
@[simp] theorem hifId_swap {e at_} : (s.swap e at_).hifId = s.hifId := by
  unfold swap
  split <;> simp
@[simp] theorem hifId_tdcStuck {e} : (s.tdcStuck e).hifId = s.hifId := by unfold tdcStuck; simp
@[simp] theorem hifId_tdcInterval {e} : (s.tdcInterval e).hifId = s.hifId := by unfold tdcInterval; simp
@[simp] theorem hifId_tdcRearm {v} : (s.tdcRearm v).hifId = s.hifId := by unfold tdcRearm; simp
@[simp] theorem hifId_chanStop {e} : (s.chanStop e).hifId = s.hifId := by unfold chanStop; simp
@[simp] theorem hifId_tdcCfgAct {e old} : (s.tdcCfgAct e old).hifId = s.hifId := by unfold tdcCfgAct; simp
@[simp] theorem hifId_tdcCtrlAct {old} : (s.tdcCtrlAct old).hifId = s.hifId := by unfold tdcCtrlAct; simp
@[simp] theorem hifId_unitCfgAct {m} : (s.unitCfgAct m).hifId = s.hifId := by unfold unitCfgAct; simp
@[simp] theorem hifId_tdcStep : s.tdcStep.hifId = s.hifId := by
  refine hifId_foldl fun t m => ?_
  split <;> simp
@[simp] theorem hifId_tdcGap : s.tdcGap.hifId = s.hifId := by unfold tdcGap; simp
@[simp] theorem hifId_pinCount : s.pinCount.hifId = s.hifId := by unfold pinCount; simp
@[simp] theorem hifId_pinOnset {p b ev} : (s.pinOnset p b ev).hifId = s.hifId := by unfold pinOnset; simp
@[simp] theorem hifId_pinRelease {p} : (s.pinRelease p).hifId = s.hifId := by unfold pinRelease; simp
@[simp] theorem hifId_pinDeclare {p f} : (s.pinDeclare p f).hifId = s.hifId := by unfold pinDeclare; simp
@[simp] theorem hifId_pinClear {p b} : (s.pinClear p b).hifId = s.hifId := by unfold pinClear; simp
@[simp] theorem hifId_restartCand {k} : (s.restartCand k).hifId = s.hifId := by unfold restartCand; simp
@[simp] theorem hifId_pinInvert {p b} : (s.pinInvert p b).hifId = s.hifId := by unfold pinInvert; simp
@[simp] theorem hifId_pinReversed {p} : (s.pinReversed p).hifId = s.hifId := by unfold pinReversed; simp
@[simp] theorem hifId_pinCfgAct {p} : (s.pinCfgAct p).hifId = s.hifId := by unfold pinCfgAct; simp
@[simp] theorem hifId_iopCtrlAct : s.iopCtrlAct.hifId = s.hifId := by unfold iopCtrlAct; simp
@[simp] theorem hifId_shortRetest {n gone} : (s.shortRetest n gone).hifId = s.hifId := by unfold shortRetest; simp
@[simp] theorem hifId_dieTemp {raw code} : (s.dieTemp raw code).hifId = s.hifId := by unfold dieTemp; simp
@[simp] theorem hifId_pmcSnap : s.pmcSnap.hifId = s.hifId := by unfold pmcSnap; simp
@[simp] theorem hifId_pmcClear : s.pmcClear.hifId = s.hifId := by unfold pmcClear; simp
@[simp] theorem hifId_pmcSnapAct {v} : (s.pmcSnapAct v).hifId = s.hifId := by unfold pmcSnapAct; simp
@[simp] theorem hifId_pmcSelAct {g k old} : (s.pmcSelAct g k old).hifId = s.hifId := by unfold pmcSelAct; simp
@[simp] theorem hifId_pmcWrap {g j} : (s.pmcWrap g j).hifId = s.hifId := by unfold pmcWrap; simp

/-! ### The host interface -/

@[simp] theorem hifId_setBoot {n} : (s.setBoot n).hifId = s.hifId := by unfold setBoot; simp
@[simp] theorem hifId_bootFail {reason section_ offset} : (s.bootFail reason section_ offset).hifId = s.hifId := by
  unfold bootFail; simp
@[simp] theorem hifId_bootFailCrc {reason section_ offset stored found} :
    (s.bootFailCrc reason section_ offset stored found).hifId = s.hifId := by
  unfold bootFailCrc; simp
@[simp] theorem hifId_bootClocksReady : s.bootClocksReady.hifId = s.hifId := by unfold bootClocksReady; simp
@[simp] theorem hifId_bootDramReady : s.bootDramReady.hifId = s.hifId := by unfold bootDramReady; simp
@[simp] theorem hifId_bootRetry : s.bootRetry.hifId = s.hifId := by unfold bootRetry; simp
@[simp] theorem hifId_flashGo : s.flashGo.hifId = s.hifId := by unfold flashGo; simp
@[simp] theorem hifId_fillFlashBuf {k l} : (s.fillFlashBuf k l).hifId = s.hifId := by
  fun_induction fillFlashBuf s k l
  case case1 => rfl
  case case2 a ih => exact ih.trans (hifId_setReg (by simp [a]))
@[simp] theorem hifId_flashDone {data} : (s.flashDone data).hifId = s.hifId := by unfold flashDone; simp
@[simp] theorem hifId_dramCfgAct : s.dramCfgAct.hifId = s.hifId := by unfold dramCfgAct; simp
@[simp] theorem hifId_dramInitDone {bad} : (s.dramInitDone bad).hifId = s.hifId := by unfold dramInitDone; simp
@[simp] theorem hifId_accessFault {kind src a} : (s.accessFault kind src a).hifId = s.hifId := by
  unfold accessFault; simp
@[simp] theorem hifId_accessRaw {src f} : (s.accessRaw src f).hifId = s.hifId := by unfold accessRaw; simp
@[simp] theorem hifId_unmapped {src a} : (s.unmapped src a).hifId = s.hifId := by unfold unmapped; simp
@[simp] theorem hifId_narrow {src a} : (s.narrow src a).hifId = s.hifId := by unfold narrow; simp
@[simp] theorem hifId_timedOut {src a} : (s.timedOut src a).hifId = s.hifId := by unfold timedOut; simp
@[simp] theorem hifId_answer {src a lane len v} : (s.answer src a lane len v).hifId = s.hifId := by
  unfold answer; simp
@[simp] theorem hifId_latchShadow {src a v} : (s.latchShadow src a v).hifId = s.hifId := by unfold latchShadow; simp
@[simp] theorem hifId_latchRead {src a} : (s.latchRead src a).hifId = s.hifId := by unfold latchRead; simp
@[simp] theorem hifId_clearRead {a} : (s.clearRead a).hifId = s.hifId := by
  have h : (s.setReg a (s.reg a &&& ~~~(BitVec.ofNat 32 (clearBits a)))).hifId = s.hifId := by
    refine hifId_setReg_of ?_
    rintro rfl
    rw [show clearBits R.HIF_ID = 0 by decide]
    exact BitVec.and_allOnes
  unfold clearRead
  simp [h]
@[simp] theorem hifId_readF0 {a lane len} : (s.readF0 a lane len).hifId = s.hifId := by unfold readF0; simp
@[simp] theorem hifId_readF1 {a lane len} : (s.readF1 a lane len).hifId = s.hifId := by
  unfold readF1
  dsimp only
  (repeat' split) <;> simp
@[simp] theorem hifId_readI2c {a lane len} : (s.readI2c a lane len).hifId = s.hifId := by unfold readI2c; simp
@[simp] theorem hifId_readWord {src a lane len} : (s.readWord src a lane len).hifId = s.hifId := by
  unfold readWord
  split <;> simp
@[simp] theorem hifId_setScan {n} : (s.setScan n).hifId = s.hifId := by unfold setScan; simp
@[simp] theorem hifId_scanAccepted : s.scanAccepted.hifId = s.hifId := by unfold scanAccepted; simp
@[simp] theorem hifId_scanCommit : s.scanCommit.hifId = s.hifId := by unfold scanCommit; simp
@[simp] theorem hifId_unfreeze : s.unfreeze.hifId = s.hifId := by unfold unfreeze; simp
@[simp] theorem hifId_popFault : s.popFault.hifId = s.hifId := by
  unfold popFault
  split <;> simp
@[simp] theorem hifId_dmaCtrlAct {k old} : (s.dmaCtrlAct k old).hifId = s.hifId := by unfold dmaCtrlAct; simp
@[simp] theorem hifId_actHif {a old v} : (s.actHif a old v).hifId = s.hifId := by unfold actHif; simp
@[simp] theorem hifId_actBoot {a v} : (s.actBoot a v).hifId = s.hifId := by unfold actBoot; simp
@[simp] theorem hifId_actTsc {a old v} : (s.actTsc a old v).hifId = s.hifId := by unfold actTsc; simp
@[simp] theorem hifId_actRef {a old v} : (s.actRef a old v).hifId = s.hifId := by unfold actRef; simp
@[simp] theorem hifId_actHld {a old v} : (s.actHld a old v).hifId = s.hifId := by unfold actHld; simp
@[simp] theorem hifId_actPts {a v} : (s.actPts a v).hifId = s.hifId := by unfold actPts; simp
@[simp] theorem hifId_actPtp {a old} : (s.actPtp a old).hifId = s.hifId := by unfold actPtp; simp
@[simp] theorem hifId_actPmc {a old v} : (s.actPmc a old v).hifId = s.hifId := by unfold actPmc; simp
@[simp] theorem hifId_actFwd {a v} : (s.actFwd a v).hifId = s.hifId := by unfold actFwd; simp
@[simp] theorem hifId_actQue {a} : (s.actQue a).hifId = s.hifId := by unfold actQue; simp
@[simp] theorem hifId_actSpr {a old v} : (s.actSpr a old v).hifId = s.hifId := by unfold actSpr; simp
@[simp] theorem hifId_actTdc {a old v} : (s.actTdc a old v).hifId = s.hifId := by unfold actTdc; simp
@[simp] theorem hifId_actIop {a} : (s.actIop a).hifId = s.hifId := by unfold actIop; simp
@[simp] theorem hifId_act {a old v} : (s.act a old v).hifId = s.hifId := by unfold act; simp

theorem isPairLo_ne_hifId {a} (h : isPairLo a = true) : a ≠ R.HIF_ID := by
  rintro rfl
  exact absurd h (by decide)

@[simp] theorem hifId_commitPair {lo v} (h : isPairLo lo = true) : (s.commitPair lo v).hifId = s.hifId := by
  unfold commitPair; simp [isPairLo_ne_hifId h]
@[simp] theorem hifId_recIgnored {w why} : (s.recIgnored w why).hifId = s.hifId := by unfold recIgnored; simp
@[simp] theorem hifId_recAccepted {w after commit clamp} : (s.recAccepted w after commit clamp).hifId = s.hifId := by
  unfold recAccepted; simp
@[simp] theorem hifId_ignoreWrite {w why} : (s.ignoreWrite w why).hifId = s.hifId := by unfold ignoreWrite; simp

theorem isMsixTable_ne_hifId {a} (h : isMsixTable a = true) : a ≠ R.HIF_ID := by
  rintro rfl
  exact absurd h (by decide)

@[simp] theorem hifId_writeMsix {a v} (h : isMsixTable a = true) : (s.writeMsix a v).hifId = s.hifId := by
  unfold writeMsix; simp [isMsixTable_ne_hifId h]

/-- HIF_ID has no field that a write stores (R25). -/

theorem formWord_hifId {v} : s.formWord R.HIF_ID v = s.hifId := formWord_none (by decide) v

@[simp] theorem hifId_storeWrite {w} : (s.storeWrite w).hifId = s.hifId := by
  unfold storeWrite
  extract_lets a word clamp s₁ s₂ s₃ after s₄ s₅
  have h₂ : s₂.hifId = s.hifId := by simp [s₂]
  have h₃ : s₃.hifId = s.hifId := by
    unfold s₃
    split
    · next h => simp only [isPairHi, Bool.and_eq_true] at h; simp [h.2, h₂]
    · refine (hifId_setReg_of fun ha => ?_).trans h₂
      rw [h₂, ← formWord_hifId (v := w.written), ← ha]
  simp [s₁, s₅, s₄, h₃]
@[simp] theorem hifId_tableWrite {w} (h : isTable w.addr = true) : (s.tableWrite w).hifId = s.hifId := by
  unfold tableWrite; simp [h]
@[simp] theorem hifId_writeWord {src a v} : (s.writeWord src a v).hifId = s.hifId := by
  unfold writeWord
  rw [hifId_ite]
  split
  · simp
  · dsimp only
    split
    · simp
    · split
      · next h => simp [h]
      · split
        · simp
        · split
          · next h => simp [h]
          · simp
@[simp] theorem hifId_writeF1 {a} : (s.writeF1 a).hifId = s.hifId := by unfold writeF1; simp
@[simp] theorem hifId_perform {x} : (s.perform x).hifId = s.hifId := by unfold perform; simp
@[simp] theorem hifId_deadAccess {x} : (s.deadAccess x).hifId = s.hifId := by unfold deadAccess; simp
@[simp] theorem hifId_access {x} : (s.access x).hifId = s.hifId := by unfold access; simp
@[simp] theorem hifId_accessAll {l} : (s.accessAll l).hifId = s.hifId := by unfold accessAll; simp
@[simp] theorem hifId_resumeHeld : s.resumeHeld.hifId = s.hifId := by unfold resumeHeld; simp
@[simp] theorem hifId_readReq {src a len} : (s.readReq src a len).hifId = s.hifId := by unfold readReq; simp
@[simp] theorem hifId_writeReq {src a whole l} : (s.writeReq src a whole l).hifId = s.hifId := by
  unfold writeReq; simp
@[simp] theorem hifId_hostWrite {a v} : (s.hostWrite a v).hifId = s.hifId := by unfold hostWrite; simp
@[simp] theorem hifId_busTimeout {src} : (s.busTimeout src).hifId = s.hifId := by
  unfold busTimeout
  simp only [hifId_ite]
  (repeat' split) <;> simp
@[simp] theorem hifId_liveAgain {d} : (s.liveAgain d).hifId = s.hifId := by unfold liveAgain; simp
@[simp] theorem hifId_crossingNote {b blockSide} : (s.crossingNote b blockSide).hifId = s.hifId := by
  unfold crossingNote; simp
@[simp] theorem hifId_discardCrossing {b src} : (s.discardCrossing b src).hifId = s.hifId := by
  unfold discardCrossing
  split <;> simp
@[simp] theorem hifId_crossingReset {b blockSide} : (s.crossingReset b blockSide).hifId = s.hifId := by
  unfold crossingReset; simp
@[simp] theorem hifId_interruptFn {src} : (s.interruptFn src).hifId = s.hifId := by
  unfold interruptFn
  dsimp only
  (repeat' split) <;> simp
@[simp] theorem hifId_interrupt {l} : (s.interrupt l).hifId = s.hifId := by unfold interrupt; simp
@[simp] theorem hifId_resetMsix : s.resetMsix.hifId = s.hifId := by unfold resetMsix; simp
@[simp] theorem hifId_pcieReset : s.pcieReset.hifId = s.hifId := by unfold pcieReset; simp
@[simp] theorem hifId_linkDown : s.linkDown.hifId = s.hifId := by unfold linkDown; simp
@[simp] theorem hifId_stopRing {k} : (s.stopRing k).hifId = s.hifId := by unfold stopRing; simp
@[simp] theorem hifId_flrF0 : s.flrF0.hifId = s.hifId := by unfold flrF0; simp
@[simp] theorem hifId_flrF1 : s.flrF1.hifId = s.hifId := by unfold flrF1; simp
@[simp] theorem hifId_upset {l} : (s.upset l).hifId = s.hifId := by
  refine hifId_foldl fun t p => hifId_setReg_of fun h => ?_
  rw [h, show scanMask R.HIF_ID = 0 by decide]
  simp [hifId]
@[simp] theorem hifId_freeze : s.freeze.hifId = s.hifId := by unfold freeze; simp
@[simp] theorem hifId_scanAction : s.scanAction.hifId = s.hifId := by unfold scanAction; simp
@[simp] theorem hifId_scanEnd {crc} : (s.scanEnd crc).hifId = s.hifId := by unfold scanEnd; simp
@[simp] theorem hifId_scanComplete {l} : (s.scanComplete l).hifId = s.hifId := by unfold scanComplete; simp
@[simp] theorem hifId_ringMsg {k} : (s.ringMsg k).hifId = s.hifId := by unfold ringMsg; simp
@[simp] theorem hifId_ringVector {k} : (s.ringVector k).hifId = s.hifId := by unfold ringVector; simp
@[simp] theorem hifId_descDone {k done_ st} : (s.descDone k done_ st).hifId = s.hifId := by unfold descDone; simp
@[simp] theorem hifId_setReady {k l} : (s.setReady k l).hifId = s.hifId := by unfold setReady; simp
@[simp] theorem hifId_descErr {k} : (s.descErr k).hifId = s.hifId := by unfold descErr; simp
@[simp] theorem hifId_fillBuffer {k d c l} : (s.fillBuffer k d c l).hifId = s.hifId := by unfold fillBuffer; simp
@[simp] theorem hifId_ringDone {k desc} : (s.ringDone k desc).hifId = s.hifId := by
  unfold ringDone
  simp only [hifId_ite]
  (repeat' split) <;> simp
@[simp] theorem hifId_holdoff {k} : (s.holdoff k).hifId = s.hifId := by unfold holdoff; simp
@[simp] theorem hifId_ringError {k} : (s.ringError k).hifId = s.hifId := by unfold ringError; simp
@[simp] theorem hifId_i2cAddress {dev b2 b1 b0} : (s.i2cAddress dev b2 b1 b0).hifId = s.hifId := by
  unfold i2cAddress; simp
@[simp] theorem hifId_i2cRead {dev n} : (s.i2cRead dev n).hifId = s.hifId := by unfold i2cRead; simp

/-! ### Boot, links, arrivals and resets -/

@[simp] theorem hifId_setBootRec {b} : (s.setBootRec b).hifId = s.hifId := by unfold setBootRec; simp
@[simp] theorem hifId_setRegList {step a l} (h : a ≠ R.HIF_ID) : (s.setRegList step a l).hifId = s.hifId := by
  fun_induction setRegList s step a l
  case case1 => rfl
  case case2 ih => rw [ih (by simp [h]), hifId_setReg h]
@[simp] theorem hifId_copyOtp {o} : (s.copyOtp o).hifId = s.hifId := by unfold copyOtp; simp
@[simp] theorem hifId_otpDone {ok o} : (s.otpDone ok o).hifId = s.hifId := by unfold otpDone; simp
@[simp] theorem hifId_flashFound {found jedec log2 h} : (s.flashFound found jedec log2 h).hifId = s.hifId := by
  unfold flashFound; simp
@[simp] theorem hifId_clockTimeout : s.clockTimeout.hifId = s.hifId := by unfold clockTimeout; simp
@[simp] theorem hifId_packVerify {pack} : (s.packVerify pack).hifId = s.hifId := by
  unfold packVerify
  simp only [hifId_ite]
  (repeat' split) <;> simp
@[simp] theorem hifId_packWrite {again} : (s.packWrite again).hifId = s.hifId := by
  unfold packWrite
  simp only [hifId_ite]
  (repeat' split) <;> simp
@[simp] theorem hifId_packWait : s.packWait.hifId = s.hifId := by
  unfold packWait
  simp only [hifId_ite]
  (repeat' split) <;> simp
@[simp] theorem hifId_packDone {mismatch} : (s.packDone mismatch).hifId = s.hifId := by
  unfold packDone
  simp only [hifId_ite]
  (repeat' split) <;> simp
@[simp] theorem hifId_stepEffects {d} : (s.stepEffects d).hifId = s.hifId := by unfold stepEffects; simp
@[simp] theorem hifId_stepApply : s.stepApply.hifId = s.hifId := by unfold stepApply; simp
@[simp] theorem hifId_tick {u0 u1 u2} : (s.tick u0 u1 u2).hifId = s.hifId := by unfold tick; simp
@[simp] theorem hifId_second : s.second.hifId = s.hifId := by unfold second; simp
@[simp] theorem hifId_updateTick : s.updateTick.hifId = s.hifId := by unfold updateTick; simp
@[simp] theorem hifId_ungateLoop {l} : (s.ungateLoop l).hifId = s.hifId := by unfold ungateLoop; simp
@[simp] theorem hifId_dramWakes : s.dramWakes.hifId = s.hifId := by unfold dramWakes; simp
@[simp] theorem hifId_showLoopLock {l} : (s.showLoopLock l).hifId = s.hifId := by
  unfold showLoopLock
  split <;> simp
@[simp] theorem hifId_pllLock {l} : (s.pllLock l).hifId = s.hifId := by unfold pllLock; simp
@[simp] theorem hifId_pllLoss {l cause sent} : (s.pllLoss l cause sent).hifId = s.hifId := by
  unfold pllLoss
  split <;> simp
@[simp] theorem hifId_domainGated {d} : (s.domainGated d).hifId = s.hifId := by unfold domainGated; simp
@[simp] theorem hifId_timescaleResumes {cycles} : (s.timescaleResumes cycles).hifId = s.hifId := by
  unfold timescaleResumes; simp
@[simp] theorem hifId_loopSettled {l cycles} : (s.loopSettled l cycles).hifId = s.hifId := by unfold loopSettled; simp
@[simp] theorem hifId_outputSettled {n} : (s.outputSettled n).hifId = s.hifId := by unfold outputSettled; simp
@[simp] theorem hifId_settleExpiry {what} : (s.settleExpiry what).hifId = s.hifId := by
  unfold settleExpiry
  split <;> simp
@[simp] theorem hifId_esmcRx {n b} : (s.esmcRx n b).hifId = s.hifId := by unfold esmcRx; simp
@[simp] theorem hifId_esmcTimeout {n} : (s.esmcTimeout n).hifId = s.hifId := by unfold esmcTimeout; simp
@[simp] theorem hifId_esmcEvent {n} : (s.esmcEvent n).hifId = s.hifId := by unfold esmcEvent; simp
@[simp] theorem hifId_activityEnd {k} : (s.activityEnd k).hifId = s.hifId := by unfold activityEnd; simp
@[simp] theorem hifId_gateEnd {k y} : (s.gateEnd k y).hifId = s.hifId := by unfold gateEnd; simp
@[simp] theorem hifId_selectorDecision {err rate} : (s.selectorDecision err rate).hifId = s.hifId := by
  unfold selectorDecision; simp
@[simp] theorem hifId_fitIntervalEnd : s.fitIntervalEnd.hifId = s.hifId := by unfold fitIntervalEnd; simp
@[simp] theorem hifId_qualLost {bin} : (s.qualLost bin).hifId = s.hifId := by unfold qualLost; simp
@[simp] theorem hifId_emberResync {periodic} : (s.emberResync periodic).hifId = s.hifId := by unfold emberResync; simp
@[simp] theorem hifId_pauseRx {_port _frame} : (s.pauseRx _port _frame).hifId = s.hifId := by unfold pauseRx; simp
@[simp] theorem hifId_detectorSample {n tx raw} : (s.detectorSample n tx raw).hifId = s.hifId := by
  unfold detectorSample; simp
@[simp] theorem hifId_claimAnnounce : s.claimAnnounce.hifId = s.hifId := by unfold claimAnnounce; simp
@[simp] theorem hifId_writeRdCount {n} : (s.writeRdCount n).hifId = s.hifId := by unfold writeRdCount; simp
@[simp] theorem hifId_eventEdge {e rise code since hold} : (s.eventEdge e rise code since hold).hifId = s.hifId := by
  unfold eventEdge; simp
@[simp] theorem hifId_laneLol {l b} : (s.laneLol l b).hifId = s.hifId := by unfold laneLol; simp
@[simp] theorem hifId_guyTake {x m} : (s.guyTake x m).hifId = s.hifId := by
  unfold guyTake
  split <;> simp
@[simp] theorem hifId_streamRead {x l} : (s.streamRead x l).hifId = s.hifId := by
  unfold streamRead
  simp only [hifId_ite]
  (repeat' split) <;> simp
@[simp] theorem hifId_rowRx {lanes block x} : (s.rowRx lanes block x).hifId = s.hifId := by
  unfold rowRx
  (repeat' split) <;> simp
@[simp] theorem hifId_streamBad {bad} : (s.streamBad bad).hifId = s.hifId := by
  unfold streamBad
  simp only [hifId_ite]
  (repeat' split) <;> simp
@[simp] theorem hifId_claimWire {f} : (s.claimWire f).hifId = s.hifId := by unfold claimWire; simp

theorem hifId_foldl_setReg {l : List Nat} {v : Nat → Word} (h : R.HIF_ID ∉ l) :
    (l.foldl (fun (t : Machine.State) a => t.setReg a (v a)) s).hifId = s.hifId := by
  induction l generalizing s with
  | nil => rfl
  | cons a r ih => exact (ih (List.not_mem_of_not_mem_cons h)).trans (hifId_setReg (List.ne_of_not_mem_cons h).symm)

/-- HIF_ID is not among the registers that a reset keeps, so it takes its Reset column (R13). -/
@[simp] theorem hifId_toReset : s.toReset.hifId = 0x2416B010#32 := by
  unfold toReset
  extract_lets regs
  refine (hifId_upd (s := State.p _ _ _ _)).trans ?_
  rw [hifId_p (by simp), hifId_foldl_setReg (by decide)]
  decide
@[simp] theorem hifId_resetAssert : s.resetAssert.hifId = 0x2416B010#32 := by unfold resetAssert; simp
@[simp] theorem hifId_resetRelease {straps} : (s.resetRelease straps).hifId = s.hifId := by unfold resetRelease; simp
@[simp] theorem hifId_railFault {a} : (s.railFault a).hifId = 0x2416B010#32 := by unfold railFault; simp
@[simp] theorem hifId_railRecovery : s.railRecovery.hifId = s.hifId := by unfold railRecovery; simp
@[simp] theorem hifId_powerLoss : s.powerLoss.hifId = if s.boot.power then 0x2416B010#32 else s.hifId := by
  unfold powerLoss; simp
@[simp] theorem hifId_powerUp : s.powerUp.hifId = s.hifId := by unfold powerUp; simp
@[simp] theorem hifId_emberLow : s.emberLow.hifId = s.hifId := by unfold emberLow; simp
@[simp] theorem hifId_emberStart : s.emberStart.hifId = s.hifId := by unfold emberStart; simp
@[simp] theorem hifId_enterRun : s.enterRun.hifId = s.hifId := by unfold enterRun; simp
@[simp] theorem hifId_seedEdge : s.seedEdge.hifId = s.hifId := by unfold seedEdge; simp
@[simp] theorem hifId_emberClock : s.emberClock.hifId = s.hifId := by unfold emberClock; simp
@[simp] theorem hifId_coreClocks {n} : (s.coreClocks n).hifId = s.hifId := by unfold coreClocks; simp
@[simp] theorem hifId_idle : s.idle.hifId = s.hifId := by unfold idle; simp

end Sys2Proof.Machine.State

namespace Sys2Proof.Machine

variable {s t u : State}

/-- The outcome, where it is a next state, has 0x2416_B010 in HIF_ID. -/
def HoldsHifId (o : Host.Outcome State Fault Refusal) : Prop := ∀ u, o = .next u → u.hifId = 0x2416B010#32

theorem HoldsHifId.done (hs : s.hifId = 0x2416B010#32) (h : t.hifId = s.hifId) : HoldsHifId (done s t) := by
  rintro u ⟨⟩
  simp [h, hs]

theorem HoldsHifId.doneAlways (h : t.hifId = 0x2416B010#32) : HoldsHifId (doneAlways s t) := by
  rintro u ⟨⟩
  simp [h]

/-- Every command ends on an operation of the lists above, and only a reset writes HIF_ID at all. -/

theorem exec_holdsHifId (c : Instr) (hs : s.hifId = 0x2416B010#32) : HoldsHifId (exec c s) := by
  cases c
  case emberSupplyLow | emberColdStart | mainPowerPresent | mainPowerLoss | resetAssert | resetRelease | railFault |
      railRecovery => exact .doneAlways (by simp [hs])
  case claimMsgRx | heartbeatRx | timeMsgRx | commitRx | mirrorMsgRx | ckptMsgRx =>
    exact .done hs (State.hifId_guyDeliver fun _ _ => by simp)
  all_goals exact .done hs (by simp)

theorem step_holdsHifId (hs : s.hifId = 0x2416B010#32) : HoldsHifId (step s) := by
  unfold step
  split
  · exact exec_holdsHifId _ (by simpa using hs)
  · exact .doneAlways (by simpa using hs)

/-! ### Frames across the logging at the end of a command -/

theorem sameBut_refl (l) : s.sameBut s l := fun _ _ _ => rfl

/-- A write to a register that the frame leaves out. -/

theorem sameBut_setReg {a v l} (h : s.sameBut t l) (ha : a ∈ l) : s.sameBut (t.setReg a v) l := fun b hb hl =>
  (State.reg_setReg_ne t (fun e => hl (by rwa [e])) v).trans (h b hb hl)

theorem sameBut_of_logs {l} (h : s.sameBut t l) (L : Logs t u) : s.sameBut u l := fun a ha hl =>
  (L.reg a ha).trans (h a ha hl)

theorem Logs.regClk (h : Logs s t) : t.regClk = s.regClk := congrArg (·.2.2.2.2.2.2.2.1) h.rest

theorem Logs.coreClk8 (h : Logs s t) : t.coreClk8 = s.coreClk8 := congrArg (·.2.2.2.2.2.2.2.2.1) h.rest

theorem Logs.freeIdx (h : Logs s t) : t.freeIdx = s.freeIdx := congrArg (·.2.2.2.2.2.2.2.2.2) h.rest

/-- Logging changes no part of the state that `Part` names. -/

theorem same_of_logs {p : Part} (h : p.same s t) (L : Logs t u) : p.same s u := by
  cases p
  case hif => exact L.hif.trans (by rw [show t.hif = _ from h])
  case shadows => exact ⟨L.rshadow.trans h.1, L.wshadow.trans h.2⟩
  case once => exact L.w1done.trans h
  case conds => exact L.conds.trans h
  case gated => exact L.gated.trans h
  case clocks => exact ⟨L.regClk.trans h.1, L.coreClk8.trans h.2⟩
  case free => exact L.freeIdx.trans h
  case tsc => exact L.tsc.trans h
  case ref => exact L.ref.trans h
  case hld => exact L.hld.trans h
  case syn => exact L.syn.trans h
  case pts => exact L.pts.trans h
  case ptp => exact L.ptp.trans h
  case fwd => exact L.fwd.trans h
  case tdc => exact L.tdc.trans h
  case guy => exact L.guy.trans h
  case rut => exact L.rut.trans h
  case boot => exact L.boot.trans h

theorem sameParts_of_logs {l} (h : s.sameParts t l) (L : Logs t u) : s.sameParts u l := fun p hp =>
  same_of_logs (h p hp) L

theorem sameParts_refl (l) : s.sameParts s l := by
  rintro (_ | _) - <;> simp [Part.same]

/-- A register write touches no part of the state beside the registers. -/

theorem sameParts_setReg {a v l} (h : s.sameParts t l) : s.sameParts (t.setReg a v) l := fun p hp => by
  have := h p hp
  cases p <;> exact this

/-! ### Reading HIF_ID (R25) -/

theorem readReq_hifId (h : s.reaches .f0 R.HIF_ID) :
    s.readReq .f0 R.HIF_ID 4 = s.emit (.readData .f0 0 (slice (leBytes 4 s.hifId.toNat) 0 4)) := by
  have hv : s.readValue .f0 R.HIF_ID = s.hifId := by
    unfold State.readValue
    rw [show holds R.HIF_ID .rh = false by decide]
    rfl
  rw [readReq_f0 h (by decide) (by decide), hv]
  unfold State.clearRead State.latchRead
  rw [show clearBits R.HIF_ID = 0 by decide, show holds R.HIF_ID .rl = false by decide]
  rfl

/-- Settles O11, by the operations of every command: none but a reset writes HIF_ID, and a reset gives it its Reset
column. -/

theorem identification : Obligations.Identification := by
  refine ⟨fun s t hs h => step_holdsHifId hs t h, fun s hs h => ?_⟩
  unfold exec execReadClear
  refine Answers.ofDone h.1 fun u L => ?_
  rw [readReq_hifId h, show s.hifId = 0x2416B010#32 from hs] at L
  have Ls : Logs s u := (Logs.emit (.refl s)).trans L
  exact ⟨L.out, sameBut_of_logs (sameBut_refl _) Ls, sameParts_of_logs (sameParts_refl _) Ls⟩

/-! ### A narrow or unaligned write (R27) -/

/-- A write request over F0 that is not of whole aligned words goes to no register. -/

theorem writeReq_narrow {addr : Nat} {whole : Bool} {words : List Word} (h : whole = false ∨ addr % 4 ≠ 0) :
    s.writeReq .f0 addr whole words = s.narrow .f0 addr := by
  have hw : ¬ (whole && addr % 4 == 0) = true := by
    rcases h with h | h <;> simp [h]
  simp [State.writeReq, hw]

/-- The count and the address of a narrow write over F0. -/
def State.narrowCounted (s : State) (addr : Nat) : State :=
  (s.inc R.HIF_ACCESS_FAULT F.HIF_ACCESS_FAULT_NARROW_WR).setRegN R.HIF_ACCESS_ADDR (addr % 2 ^ 24)

theorem narrow_f0 {addr : Nat} : s.narrow .f0 addr = (s.narrowCounted addr).raw R.HIF_RAW F.HIF_RAW_NARROW_WR := by
  simp [State.narrow, State.accessRaw, State.accessFault, State.narrowCounted, srcCode]

theorem narrowCounted_count {addr : Nat} :
    (s.narrowCounted addr).g R.HIF_ACCESS_FAULT F.HIF_ACCESS_FAULT_NARROW_WR =
      min (s.g R.HIF_ACCESS_FAULT F.HIF_ACCESS_FAULT_NARROW_WR + 1) 255 := by
  have h : (s.narrowCounted addr).reg R.HIF_ACCESS_FAULT =
      (s.inc R.HIF_ACCESS_FAULT F.HIF_ACCESS_FAULT_NARROW_WR).reg R.HIF_ACCESS_FAULT :=
    State.reg_setReg_ne _ (by decide) _
  unfold State.g at h ⊢
  rw [h]
  refine (State.g_p_same (by decide) _).trans (Nat.mod_eq_of_lt ?_)
  exact lt_of_le_of_lt (Nat.min_le_right _ _) (by decide)

/-- Settles O26: the request ends as the count of a narrow write, its address and its raw bit, and what the command does
after that is logging, which no register of the frame sees. -/

theorem narrowWriteDiscarded : Obligations.NarrowWriteDiscarded := by
  intro s addr whole words hr hn
  unfold exec execRegisterWrite
  refine Answers.ofDone hr fun u L => ?_
  rw [writeReq_narrow hn, narrow_f0] at L
  have Lc : Logs (s.narrowCounted addr) u := (Logs.rawBit rfl (by decide) rfl (.refl _)).trans L
  refine ⟨(Lc.g rfl _).trans narrowCounted_count, (Lc.reg _ rfl).trans (State.reg_setReg_same ..),
    L.isSet rfl (by decide) rfl (State.isSet_raw (by decide) rfl), sameBut_of_logs ?_ Lc, sameParts_of_logs ?_ Lc⟩
  · exact sameBut_setReg (sameBut_setReg (sameBut_refl _) (by simp)) (by simp)
  · exact sameParts_setReg (sameParts_setReg (sameParts_refl _))

end Sys2Proof.Machine
end

section

/-! ## The fault injector of the Tripod core (R93)

Three facts. A write of ARM stores COPY and BIT and arms the injection: it goes the way of every accepted host write. The
tick of an armed core is the tick of a disarmed one with the upset of that one bit. And after the copies have advanced, a
tick changes only the timescale, the counts and the status of its vote, and what synthesis makes of the tick: `TickFrame`
says so of each operation of the tick in turn. -/

namespace Sys2Proof.Machine

variable {s₀ s t : State}

/-! ### Frames across updates -/

theorem sameBut_setTsc {x : Tsc} {l : List Nat} (h : s.sameBut t l) : s.sameBut (t.setTsc x) l := h

/-- A change of the timescale's part, where the frame leaves it out. -/
theorem sameParts_setTsc {x : Tsc} {l : List Part} (h : s.sameParts t l) (hl : Part.tsc ∈ l) :
    s.sameParts (t.setTsc x) l := fun p hp => by
  have := h p hp
  cases p
  case tsc => exact absurd hl hp
  all_goals exact this

theorem sameParts_setSyn {x : Syn} {l : List Part} (h : s.sameParts t l) (hl : Part.syn ∈ l) :
    s.sameParts (t.setSyn x) l := fun p hp => by
  have := h p hp
  cases p
  case syn => exact absurd hl hp
  all_goals exact this

/-- Edges at an output leave every part as it is. -/
theorem sameParts_emitEdges {n : Nat} {e : List (Bool × Nat)} {l : List Part} (h : s.sameParts t l) :
    s.sameParts (t.emitEdges n e) l := fun p hp => by
  have := h p hp
  cases p <;> exact this

/-- The configuration scan notes an accepted write in its status register alone (R51). -/
theorem afterScan_eq {a : Nat} : s.afterScan a = s ∨ s.afterScan a = s.setScan 0 := by
  unfold State.afterScan State.scanAccepted
  split
  · split
    · exact .inr rfl
    · exact .inl rfl
  · exact .inl rfl

@[simp] theorem afterScan_tsc {a : Nat} : (s.afterScan a).tsc = s.tsc := by
  rcases afterScan_eq (s := s) (a := a) with e | e <;> rw [e]
  rfl

theorem g_afterScan {a b : Nat} (hb : b ≠ R.HIF_CFG_CRC_STATUS) (f : Fld) : (s.afterScan a).g b f = s.g b f := by
  rcases afterScan_eq (s := s) (a := a) with e | e <;> rw [e]
  exact State.g_p_ne hb _ _ _

theorem sameBut_afterScan {a : Nat} {l : List Nat} (h : s.sameBut t l) (hl : R.HIF_CFG_CRC_STATUS ∈ l) :
    s.sameBut (t.afterScan a) l := by
  rcases afterScan_eq (s := t) (a := a) with e | e <;> rw [e]
  · exact h
  · exact sameBut_setReg h hl

theorem sameParts_afterScan {a : Nat} {l : List Part} (h : s.sameParts t l) : s.sameParts (t.afterScan a) l := by
  rcases afterScan_eq (s := t) (a := a) with e | e <;> rw [e]
  · exact h
  · exact sameParts_setReg h

/-! ### The write of ARM -/

@[simp] theorem act_tripodInject {old v : Word} : s.act R.TSC_TRIPOD_INJECT old v = s.injectAct v := by
  unfold State.act State.actTsc
  rfl

/-- The state with the injection of its stored COPY and BIT armed. -/
def State.armed (s : State) : State :=
  s.setTsc { s.tsc with
    inject := some (s.g R.TSC_TRIPOD_INJECT F.TSC_TRIPOD_INJECT_COPY,
      s.g R.TSC_TRIPOD_INJECT F.TSC_TRIPOD_INJECT_BIT) }

theorem armed_inject : s.armed.tsc.inject = some (s.armed.g R.TSC_TRIPOD_INJECT F.TSC_TRIPOD_INJECT_COPY,
    s.armed.g R.TSC_TRIPOD_INJECT F.TSC_TRIPOD_INJECT_BIT) := rfl

theorem injectAct_arm {v : Word} : s.injectAct (F.TSC_TRIPOD_INJECT_ARM.put v 1) = s.armed :=
  if_pos (Fld.get_put (f := F.TSC_TRIPOD_INJECT_ARM) (by decide) v 1)

theorem ownWord_tripodInject : ownWord R.TSC_TRIPOD_INJECT = true := by decide

theorem exec_tripodInject {v : Word} : exec (.tripodInject v) s =
    done s (s.hostWrite R.TSC_TRIPOD_INJECT (F.TSC_TRIPOD_INJECT_ARM.put v 1)) := rfl

/-- A write of ARM arms the injection of the COPY and BIT it stores, and changes nothing else
but the state of the configuration scan (R51, R93). -/
theorem tripodInject_arms {v : Word} (h : s.accepts R.TSC_TRIPOD_INJECT) : Answers (exec (.tripodInject v) s) fun t =>
    t.tsc.inject = some (t.g R.TSC_TRIPOD_INJECT F.TSC_TRIPOD_INJECT_COPY,
      t.g R.TSC_TRIPOD_INJECT F.TSC_TRIPOD_INJECT_BIT) ∧
    s.sameBut t [R.TSC_TRIPOD_INJECT, R.HIF_CFG_CRC_STATUS] ∧ s.sameParts t [.tsc] := by
  rw [exec_tripodInject]
  refine Answers.ofHostWrite h ownWord_tripodInject fun u L => ?_
  rw [act_tripodInject, injectAct_arm] at L
  refine ⟨?_, sameBut_of_logs (sameBut_afterScan ?_ (by simp)) L, sameParts_of_logs (sameParts_afterScan ?_) L⟩
  · rw [L.tsc, L.g (by decide), L.g (by decide), g_afterScan (by decide), g_afterScan (by decide), afterScan_tsc]
    exact armed_inject
  · exact sameBut_setTsc (sameBut_setReg (sameBut_refl _) (by simp))
  · exact sameParts_setTsc (sameParts_setReg (sameParts_refl _)) (by simp)

/-! ### The tick of an armed core -/

/-- The state with no injection armed. -/
def State.disarmed (s : State) : State := { s with tsc := { s.tsc with inject := none } }

/-- The upset that inverts bit `b` of copy `c`, as copy `i` takes it. -/
def upsetOf (c b i : Nat) : Copy := if c = i then BitVec.ofNat 192 (2 ^ b) else 0#192

/-- The armed bit flips as an upset of it does: the copies are the same before they are voted. -/
theorem formTick_armed {n c b : Nat} {adv : Copy → Copy} {carried : Bool} (h : s.tsc.inject = some (c, b)) :
    s.formTick n adv carried 0 0 0 =
      s.disarmed.formTick n adv carried (upsetOf c b 0) (upsetOf c b 1) (upsetOf c b 2) := by
  have none_of (x y : Copy) : x ^^^ 0 ^^^ y = x ^^^ y ^^^ 0#192 := by simp
  unfold State.formTick
  simp only [h, none_of]
  rfl

/-- Before the copies advance, a tick only marks the second of the loop mean (R132). -/
theorem steerTick_eq : ∃ b, s.steerTick = s.setHld { s.hld with secOff := b } := by
  unfold State.steerTick
  split
  · exact ⟨s.hld.secOff, rfl⟩
  · exact ⟨true, rfl⟩

theorem steerTick_disarmed : s.disarmed.steerTick = s.steerTick.disarmed := by
  have hc : (s.disarmed.loopSteers || s.disarmed.hld.secOff) = (s.loopSteers || s.hld.secOff) := rfl
  unfold State.steerTick
  rw [hc]
  split <;> rfl

@[simp] theorem steerTick_tsc : s.steerTick.tsc = s.tsc := by
  obtain ⟨b, e⟩ := steerTick_eq (s := s)
  rw [e]
  rfl

@[simp] theorem steerTick_runs {d : Dom} : s.steerTick.runs d = s.runs d := by
  obtain ⟨b, e⟩ := steerTick_eq (s := s)
  rw [e]
  rfl

theorem tickWith_running {u v w : Copy} (h : s.runs .timescale = true) :
    s.tickWith u v w = s.formTick 1 cTick (cCarries s.tsc.voted) u v w := by
  simp [State.tickWith, h]

/-- A tick of a running timescale: the loop mean's mark, the copies and their vote, the outputs. -/
theorem tick_running {u v w : Copy} (h : s.runs .timescale = true) :
    s.tick u v w = (s.steerTick.formTick 1 cTick (cCarries s.tsc.voted) u v w).outputsTick 1 (cInc s.tsc.voted) false := by
  rw [State.tick, if_pos h, tickWith_running (by simpa using h), steerTick_tsc]

theorem tick_armed {c b : Nat} (hr : s.runs .timescale = true) (h : s.tsc.inject = some (c, b)) :
    s.tick 0 0 0 = s.disarmed.tick (upsetOf c b 0) (upsetOf c b 1) (upsetOf c b 2) := by
  rw [tick_running hr, tick_running (s := s.disarmed) hr, formTick_armed (by simpa using h), steerTick_disarmed]
  rfl

theorem endClock_disarmed : endClock s.disarmed t = endClock s t := rfl

theorem exec_timescaleTick {u v w : Copy} : exec (.timescaleTick u v w) s = done s (s.tick u v w) := rfl

/-- The tick of an armed core is that of a disarmed one with the upset of the armed bit (R93). -/
theorem timescaleTick_armed {c b : Nat} (hs : s.inReset = false) (hr : s.runs .timescale = true)
    (h : s.tsc.inject = some (c, b)) :
    exec (.timescaleTick 0 0 0) s =
      exec (.timescaleTick (upsetOf c b 0) (upsetOf c b 1) (upsetOf c b 2)) s.disarmed := by
  rw [exec_timescaleTick, exec_timescaleTick, done_next hs, done_next (s := s.disarmed) hs, endClock_disarmed,
    tick_armed hr h]

/-! ### What a tick changes -/

/-- From `s` to `t` changed at most what a tick changes once its copies have advanced: the vote's status and counts, the
timescale and synthesis; and no injection was armed or spent. -/
structure TickFrame (s t : State) : Prop where
  regs : s.sameBut t [R.TSC_STATUS, R.TSC_DISAGREE_CNT]
  parts : s.sameParts t [.tsc, .syn]
  inject : t.tsc.inject = s.tsc.inject

namespace TickFrame

theorem refl (s : State) : TickFrame s s := ⟨sameBut_refl _, sameParts_refl _, rfl⟩

theorem logs (h : TickFrame s₀ s) (L : Logs s t) : TickFrame s₀ t :=
  ⟨sameBut_of_logs h.regs L, sameParts_of_logs h.parts L, (congrArg Tsc.inject L.tsc).trans h.inject⟩

theorem ite {c : Prop} [Decidable c] (h : TickFrame s₀ s) (k : TickFrame s₀ t) : TickFrame s₀ (if c then s else t) := by
  split <;> assumption

theorem fold {α : Type} {f : State → α → State} (hf : ∀ t x, TickFrame s₀ t → TickFrame s₀ (f t x))
    (h : TickFrame s₀ s) (l : List α) : TickFrame s₀ (l.foldl f s) := by
  induction l generalizing s with
  | nil => exact h
  | cons x r ih => exact ih (hf s x h)

theorem setTsc {x : Tsc} (h : TickFrame s₀ s) (hx : x.inject = s.tsc.inject) : TickFrame s₀ (s.setTsc x) :=
  ⟨h.regs, sameParts_setTsc h.parts (by simp), hx.trans h.inject⟩

theorem setSyn {x : Syn} (h : TickFrame s₀ s) : TickFrame s₀ (s.setSyn x) :=
  ⟨h.regs, sameParts_setSyn h.parts (by simp), h.inject⟩

theorem setReg {a : Nat} {v : Word} (h : TickFrame s₀ s) (ha : a ∈ [R.TSC_STATUS, R.TSC_DISAGREE_CNT]) :
    TickFrame s₀ (s.setReg a v) := ⟨sameBut_setReg h.regs ha, sameParts_setReg h.parts, h.inject⟩

theorem status {f : Fld} {n : Nat} (h : TickFrame s₀ s) : TickFrame s₀ (s.p R.TSC_STATUS f n) := h.setReg (by simp)

theorem count {f : Fld} (h : TickFrame s₀ s) : TickFrame s₀ (s.inc R.TSC_DISAGREE_CNT f) := h.setReg (by simp)

theorem raw {f : Fld} (h : TickFrame s₀ s) (hf : f.lo < 32 := by decide) (hw : f.w = 1 := by decide) :
    TickFrame s₀ (s.raw R.TSC_RAW f) := h.logs (.rawBit rfl hf hw (.refl s))

theorem tripod {kind copy mask w4 : Nat} (h : TickFrame s₀ s) : TickFrame s₀ (s.tripod kind copy mask w4) :=
  h.logs (.note (.refl s))

theorem tscFault {code detail param : Nat} (h : TickFrame s₀ s) : TickFrame s₀ (s.tscFault code detail param) :=
  .ite ((h.setTsc (x := { s.tsc with lastFault := Tbl.set none s.tsc.lastFault code (some s.tsc.tick) }) rfl).logs
    (.fault (.refl _))) h

theorem fenceCopy {i : Nat} (h : TickFrame s₀ s) : TickFrame s₀ (s.fenceCopy i) := h.status.status.raw

end TickFrame

/-! #### The copies and the vote -/

@[simp] theorem Tsc.setCopy_inject {x : Tsc} {i : Nat} {c : Copy} : (x.setCopy i c).inject = x.inject := by
  unfold Tsc.setCopy
  split
  · rfl
  · split <;> rfl

@[simp] theorem Tsc.setHist_inject {x : Tsc} {i : Nat} {y : Hist} : (x.setHist i y).inject = x.inject := by
  unfold Tsc.setHist
  split
  · rfl
  · split <;> rfl

theorem Tsc.foldl_inject {α : Type} {f : Tsc → α → Tsc} (hf : ∀ x a, (f x a).inject = x.inject) (x : Tsc) (l : List α) :
    (l.foldl f x).inject = x.inject := by
  induction l generalizing x with
  | nil => rfl
  | cons a r ih => exact (ih _).trans (hf x a)

namespace TickFrame

theorem setVoted {v : Copy} (h : TickFrame s₀ s) : TickFrame s₀ (s.setVoted v) := h.setTsc rfl

theorem disagree {i : Nat} (h : TickFrame s₀ s) : TickFrame s₀ (s.disagree i) := by
  unfold State.disagree
  extract_lets mask tick hist fence reset counted noted
  have hr : TickFrame s₀ reset := h.setTsc (by simp)
  have hn : TickFrame s₀ noted := (TickFrame.ite hr.count (.ite hr.count hr.count)).raw.tripod
  clear_value reset counted noted
  exact .ite hn.fenceCopy.tscFault.tripod hn

theorem noMajority {l : List Nat} {e : Copy} (h : TickFrame s₀ s) : TickFrame s₀ (s.noMajority l e) := by
  unfold State.noMajority
  extract_lets m x loaded noted
  have hl : TickFrame s₀ loaded := h.setTsc (Tsc.foldl_inject (fun _ _ => Tsc.setCopy_inject) _ _)
  have hn : TickFrame s₀ noted := hl.raw.status
  clear_value loaded noted
  exact hn.tscFault.tripod

theorem mismatch {bad : Nat} (h : TickFrame s₀ s) : TickFrame s₀ (s.mismatch bad) := by
  unfold State.mismatch
  extract_lets mask reset noted
  have hr : TickFrame s₀ reset := h.setTsc Tsc.setCopy_inject
  have hn : TickFrame s₀ noted := hr.count.raw
  clear_value reset noted
  exact hn.tscFault.tripod

theorem vote {e : Copy} (h : TickFrame s₀ s) : TickFrame s₀ (s.vote e) := by
  unfold State.vote
  extract_lets a b c
  refine .ite ?duplex (.ite (.ite h.setVoted h.setVoted.disagree)
    (.ite h.setVoted.disagree (.ite h.setVoted.disagree h.noMajority)))
  case duplex =>
    extract_lets
    rename_i l
    clear_value l
    split
    · exact .ite h.setVoted (.ite h.setVoted.mismatch (.ite h.setVoted.mismatch h.noMajority))
    · exact h.setVoted

theorem rejoinCopies (h : TickFrame s₀ s) : TickFrame s₀ s.rejoinCopies :=
  .ite h ((fold (fun _ _ k => k.status) h _).status.setTsc rfl)

theorem reloadCopies (h : TickFrame s₀ s) : TickFrame s₀ s.reloadCopies := by
  unfold State.reloadCopies
  extract_lets l x loaded
  have hx : x.inject = s.tsc.inject := Tsc.foldl_inject (fun _ _ => Tsc.setHist_inject.trans Tsc.setCopy_inject) _ _
  have hl : TickFrame s₀ loaded := h.setTsc hx
  exact fold (fun _ _ k => k.tripod) hl _

/-- Forming the tick spends the injection, and the rest of it is within the frame. -/
theorem formTick {n : Nat} {adv : Copy → Copy} {carried : Bool} {u v w : Copy} :
    TickFrame s.disarmed (s.formTick n adv carried u v w) := by
  unfold State.formTick
  extract_lets x adv' flip e advanced
  have h : TickFrame s.disarmed advanced := (refl s.disarmed).setTsc rfl
  exact h.rejoinCopies.vote.reloadCopies

/-! #### Synthesis -/

theorem emitEdges {n : Nat} {l : List (Bool × Nat)} (h : TickFrame s₀ s) : TickFrame s₀ (s.emitEdges n l) :=
  ⟨h.regs, sameParts_emitEdges h.parts, h.inject⟩

theorem setOutRun {n : Nat} {x : OutRun} (h : TickFrame s₀ s) : TickFrame s₀ (s.setOutRun n x) := h.setSyn

theorem runOutput {n : Nat} (h : TickFrame s₀ s) : TickFrame s₀ (s.runOutput n) :=
  .ite h.setOutRun.emitEdges (.ite h h.setOutRun.emitEdges)

theorem pulseSecond {x : Nat} (h : TickFrame s₀ s) : TickFrame s₀ (s.pulseSecond x) :=
  fold (fun _ _ k => .ite k.setOutRun k) h _

theorem outputsTick {n inc : Nat} {gap : Bool} (h : TickFrame s₀ s) : TickFrame s₀ (s.outputsTick n inc gap) := by
  unfold State.outputsTick
  extract_lets x run sec stays pulse pulsed top
  have hp : TickFrame s₀ pulsed := .ite h.setSyn.pulseSecond h.setSyn
  exact fold (fun _ _ k => k.runOutput) (.ite hp.setSyn hp) _

end TickFrame

/-! #### The whole tick -/

/-- A tick of a running timescale spends the injection and changes nothing outside the vote's status and counts, the
timescale, synthesis and the mark of the loop mean's second (R71, R84, R132, R150). -/
theorem tick_frame {u v w : Copy} (h : s.runs .timescale = true) :
    (s.tick u v w).hld = { s.hld with secOff := (s.tick u v w).hld.secOff } ∧ (s.tick u v w).tsc.inject = none ∧
      s.sameBut (s.tick u v w) [R.TSC_STATUS, R.TSC_DISAGREE_CNT] ∧
      s.sameParts (s.tick u v w) [.tsc, .hld, .syn] := by
  rw [tick_running h]
  obtain ⟨b, e⟩ := steerTick_eq (s := s)
  rw [e]
  generalize hx : State.outputsTick _ _ _ _ = t
  have F : TickFrame (s.setHld { s.hld with secOff := b }).disarmed t := hx ▸ TickFrame.formTick.outputsTick
  have hh : t.hld = { s.hld with secOff := b } := F.parts .hld (by simp)
  refine ⟨by rw [hh], F.inject, F.regs, fun p hp => ?_⟩
  have h := F.parts p
  cases p
  case tsc | hld | syn => simp at hp
  all_goals exact h (by simp)

/-- Settles O57: the write arms what it stores, the armed tick is the tick with that upset, and a tick keeps its
frame. -/
theorem injectedUpset : Obligations.InjectedUpset := by
  refine ⟨fun s v h => tripodInject_arms h, fun s c b hs hr h => timescaleTick_armed hs hr h,
    fun s c b hs hr _ => ?_⟩
  rw [exec_timescaleTick]
  refine Answers.ofDone hs fun u L => ?_
  obtain ⟨hh, hi, hb, hp⟩ := tick_frame (u := 0) (v := 0) (w := 0) hr
  refine ⟨?_, (congrArg Tsc.inject L.tsc).trans hi, sameBut_of_logs hb L, sameParts_of_logs hp L⟩
  rw [L.hld]
  exact hh

end Sys2Proof.Machine
end

section

/-! ## The order of claims (R387)

A claim is the number that EPOCH, RANK and UNIT spell: RANK and UNIT are digits of base 16 below an EPOCH of 24 bits, so
numbers compare as their digits do from the most significant on. The model's own claim is the number of its EPOCH, the
RANK in force (R388, R406) and its UNIT. -/

namespace Sys2Proof.Machine

theorem bitsOf_eq_div_mod (n hi lo : Nat) : bitsOf n hi lo = n / 2 ^ lo % 2 ^ (hi + 1 - lo) := by
  rw [bitsOf, Nat.shiftRight_eq_div_pow]

/-- Numbers of two digits below a base compare by the high digit, then by the low one. -/
theorem mul_add_lt_mul_add_iff {k a b x y : Nat} (hx : x < k) (hy : y < k) :
    a * k + x < b * k + y ↔ a < b ∨ a = b ∧ x < y := by
  have ofHigh {a b x y : Nat} (hx : x < k) (h : a < b) : a * k + x < b * k + y := calc
    a * k + x < (a + 1) * k := by rw [Nat.succ_mul]; omega
    _ ≤ b * k := Nat.mul_le_mul_right k h
    _ ≤ b * k + y := Nat.le_add_right ..
  obtain h | rfl | h := Nat.lt_trichotomy a b
  · simp [h, ofHigh hx h]
  · simp
  · simp [h.not_gt, h.ne', (ofHigh hy h).le]

/-! ### Claim numbers -/

/-- The claim of an EPOCH, a RANK and a UNIT (R387). -/
def claimNumber (epoch rank unit : Nat) : Nat := (epoch * 16 + rank) * 16 + unit

section Fields

variable {epoch epoch' rank rank' unit unit' : Nat}

theorem claimNumber_lt (he : epoch < 2 ^ 24) (hr : rank < 16) (hu : unit < 16) :
    claimNumber epoch rank unit < 2 ^ 32 := by
  unfold claimNumber
  omega

theorem claimNumber_epoch (he : epoch < 2 ^ 24) (hr : rank < 16) (hu : unit < 16) :
    bitsOf (claimNumber epoch rank unit) 31 8 = epoch := by
  rw [bitsOf_eq_div_mod, claimNumber]
  omega

theorem claimNumber_rank (hr : rank < 16) (hu : unit < 16) : bitsOf (claimNumber epoch rank unit) 7 4 = rank := by
  rw [bitsOf_eq_div_mod, claimNumber]
  omega

theorem claimNumber_unit (hu : unit < 16) : bitsOf (claimNumber epoch rank unit) 3 0 = unit := by
  rw [bitsOf_eq_div_mod, claimNumber]
  omega

/-- EPOCH decides first, then RANK, then UNIT. -/
theorem claimNumber_lt_claimNumber_iff (hr : rank < 16) (hu : unit < 16) (hr' : rank' < 16) (hu' : unit' < 16) :
    claimNumber epoch rank unit < claimNumber epoch' rank' unit' ↔
      epoch < epoch' ∨ epoch = epoch' ∧ (rank < rank' ∨ rank = rank' ∧ unit < unit') := by
  unfold claimNumber
  rw [mul_add_lt_mul_add_iff hu hu', mul_add_lt_mul_add_iff hr hr']
  omega

end Fields

/-! ### The own claim -/

/-- The RANK of the own claim: the configured one in ACTIVE with no checkpoint to apply, and 0 otherwise (R388, R406). -/
def State.rankInForce (s : State) : Nat :=
  if s.pairState = pairActive ∧ s.rut.applying = false then s.rut.rank else 0

theorem State.rankInForce_lt {s : State} (h : s.rut.rank < 16) : s.rankInForce < 16 := by
  unfold State.rankInForce
  split
  · exact h
  · decide

theorem State.ownClaim_eq (s : State) : s.ownClaim = claimNumber (s.rut.epoch % 2 ^ 24) s.rankInForce s.rut.unit := by
  simp only [State.ownClaim, claimNumber, State.rankInForce, Bool.not_eq_true']
  omega

/-- Settles O12: the own claim is the claim number of an EPOCH of 24 bits, the RANK in force and UNIT, which lie in their
fields and compare from EPOCH on. -/
theorem claimOrder : Obligations.ClaimOrder := by
  intro s t hr hu hr' hu'
  have he : s.rut.epoch % 2 ^ 24 < 2 ^ 24 := Nat.mod_lt _ (by decide)
  have hf := State.rankInForce_lt hr
  rw [s.ownClaim_eq, t.ownClaim_eq]
  exact ⟨claimNumber_lt he hf hu, claimNumber_epoch he hf hu, claimNumber_rank hf hu, claimNumber_unit hu,
    claimNumber_lt_claimNumber_iff hf hu (State.rankInForce_lt hr') hu'⟩

end Sys2Proof.Machine
end

section

/-! ## What changes from one state to another

`Changes A ps s t`: from `s` to `t` no register changed but the shared ones and those of `A`, and no part of the state but
those of `ps`.  The rules below are for `simp`: they follow how `t` is made from the outside in, down to `s`. -/

set_option Elab.async false

namespace Sys2Proof.Machine

/-- From `s` to `t` every register is as it was but the shared ones and those of `A`, and every part but those of `ps`. -/
structure Changes (A : Nat → Prop) (ps : List Part) (s t : State) : Prop where
  regs : ∀ a : Nat, sharedReg a = false → ¬ A a → t.reg a = s.reg a
  parts : s.sameParts t ps

variable {A : Nat → Prop} {ps : List Part} {s t u : State}

theorem sameParts_iff : s.sameParts t ps ↔
    (.hif ∈ ps ∨ t.hif = { s.hif with fq := t.hif.fq }) ∧ (.shadows ∈ ps ∨ t.rshadow = s.rshadow ∧ t.wshadow = s.wshadow) ∧
    (.once ∈ ps ∨ t.w1done = s.w1done) ∧ (.conds ∈ ps ∨ t.conds = s.conds) ∧ (.gated ∈ ps ∨ t.gated = s.gated) ∧
    (.clocks ∈ ps ∨ t.regClk = s.regClk ∧ t.coreClk8 = s.coreClk8) ∧ (.free ∈ ps ∨ t.freeIdx = s.freeIdx) ∧
    (.tsc ∈ ps ∨ t.tsc = s.tsc) ∧ (.ref ∈ ps ∨ t.ref = s.ref) ∧ (.hld ∈ ps ∨ t.hld = s.hld) ∧ (.syn ∈ ps ∨ t.syn = s.syn) ∧
    (.pts ∈ ps ∨ t.pts = s.pts) ∧ (.ptp ∈ ps ∨ t.ptp = s.ptp) ∧ (.fwd ∈ ps ∨ t.fwd = s.fwd) ∧ (.tdc ∈ ps ∨ t.tdc = s.tdc) ∧
    (.guy ∈ ps ∨ t.guy = s.guy) ∧ (.rut ∈ ps ∨ t.rut = s.rut) ∧ (.boot ∈ ps ∨ t.boot = s.boot) := by
  constructor
  · intro h
    have k (p : Part) : p ∈ ps ∨ p.same s t := or_iff_not_imp_left.2 (h p)
    exact ⟨k .hif, k .shadows, k .once, k .conds, k .gated, k .clocks, k .free, k .tsc, k .ref, k .hld, k .syn, k .pts,
      k .ptp, k .fwd, k .tdc, k .guy, k .rut, k .boot⟩
  · rintro ⟨h1, h2, h3, h4, h5, h6, h7, h8, h9, h10, h11, h12, h13, h14, h15, h16, h17, h18⟩ p hp
    cases p <;> exact Or.resolve_left (by assumption) hp

/-- `simp` is not to work inside the states of a frame. -/
@[congr] theorem Changes.congr : Changes A ps s t = Changes A ps s t := rfl

@[simp] theorem Changes.refl : Changes A ps s s := ⟨fun _ _ _ => rfl, sameParts_refl _⟩

theorem Changes.trans (h : Changes A ps s t) (k : Changes A ps t u) : Changes A ps s u where
  regs a ha hn := (k.regs a ha hn).trans (h.regs a ha hn)
  parts := by
    have hs := sameParts_iff.1 h.parts
    have ks := sameParts_iff.1 k.parts
    rw [sameParts_iff]
    refine ⟨?_, ?_⟩
    · rcases hs.1 with h | h
      · exact .inl h
      · exact ks.1.imp_right fun k => by rw [k, h]
    · clear h k
      obtain ⟨-, hs⟩ := hs
      obtain ⟨-, ks⟩ := ks
      revert hs ks
      simp only [and_imp]
      intros
      refine ⟨?_, ?_, ?_, ?_, ?_, ?_, ?_, ?_, ?_, ?_, ?_, ?_, ?_, ?_, ?_, ?_, ?_⟩ <;> grind

/-- A frame that the last operation does not leave is the frame before it. -/
theorem Changes.iff_of (k : Changes A ps t u) (k' : Changes A ps u t) : Changes A ps s u ↔ Changes A ps s t :=
  ⟨fun h => h.trans k', fun h => h.trans k⟩

theorem Changes.symm (h : Changes A ps s t) : Changes A ps t s where
  regs a ha hn := (h.regs a ha hn).symm
  parts := by
    have hs := sameParts_iff.1 h.parts
    rw [sameParts_iff]
    refine ⟨hs.1.imp_right fun h => by rw [h], ?_⟩
    obtain ⟨-, hs⟩ := hs
    revert hs
    simp only [and_imp]
    intros
    refine ⟨?_, ?_, ?_, ?_, ?_, ?_, ?_, ?_, ?_, ?_, ?_, ?_, ?_, ?_, ?_, ?_, ?_⟩ <;> grind

theorem Changes.iff (k : Changes A ps t u) : Changes A ps s u ↔ Changes A ps s t := k.iff_of k.symm

theorem Changes.ofLogs (L : Logs t u) : Changes A ps t u :=
  ⟨fun a ha _ => L.reg a ha, sameParts_of_logs (sameParts_refl _) L⟩

theorem Changes.logs (h : Changes A ps s t) (L : Logs t u) : Changes A ps s u := h.trans (.ofLogs L)

/-- Operations that only log change nothing of a frame. -/
theorem Changes.iffLogs (L : Logs t u) : Changes A ps s u ↔ Changes A ps s t := (Changes.ofLogs L).iff

theorem Changes.mono {B : Nat → Prop} {qs : List Part} (h : Changes A ps s t) (hA : ∀ a, A a → B a) (hp : ps ⊆ qs) :
    Changes B qs s t :=
  ⟨fun a ha hn => h.regs a ha fun k => hn (hA a k), fun p k => h.parts p fun m => k (hp m)⟩

theorem Changes.sameBut {l : List Nat} (h : Changes (· ∈ l) ps s t) : s.sameBut t l := h.regs

theorem Changes.sameBeyond {l : List (Nat × Nat)} (h : Changes (fun a => ∃ r ∈ l, r.1 ≤ a ∧ a < r.2) ps s t) :
    s.sameBeyond t l := fun a ha hn => h.regs a ha fun ⟨r, hr, k⟩ => hn r hr k

theorem Changes.reg (h : Changes A ps s t) {a : Nat} (ha : sharedReg a = false) (hn : ¬ A a) : t.reg a = s.reg a :=
  h.regs a ha hn

theorem Changes.g (h : Changes A ps s t) {a : Nat} {f : Fld} (ha : sharedReg a = false) (hn : ¬ A a) : t.g a f = s.g a f := by
  unfold State.g
  rw [h.regs a ha hn]

/-! ### Choices and folds -/

@[simp] theorem Changes.ite_iff {c : Prop} [Decidable c] :
    Changes A ps s (if c then t else u) ↔ if c then Changes A ps s t else Changes A ps s u := by
  split <;> rfl

@[simp] theorem Changes.foldl_iff {α : Type} {f : State → α → State} {l : List α}
    (hf : ∀ t x, Changes A ps s (f t x) ↔ Changes A ps s t) : Changes A ps s (l.foldl f t) ↔ Changes A ps s t := by
  induction l generalizing t with
  | nil => rfl
  | cons x r ih => exact ih.trans (hf t x)

/-! ### Registers -/

theorem Changes.setReg (h : A a ∨ sharedReg a = true) : Changes A ps t (t.setReg a v) where
  regs b hb hn := State.reg_setReg_ne t (fun e => by subst e; rcases h with h | h; exacts [hn h, by simp [h] at hb]) v
  parts := sameParts_setReg (sameParts_refl _)

section
variable {a : Nat}

@[simp] theorem Changes.setReg_iff {v : Word} (h : A a) : Changes A ps s (t.setReg a v) ↔ Changes A ps s t :=
  (Changes.setReg (.inl h)).iff
@[simp] theorem Changes.p_iff {f : Fld} {n : Nat} (h : A a) : Changes A ps s (t.p a f n) ↔ Changes A ps s t := setReg_iff h
@[simp] theorem Changes.pb_iff {f : Fld} {b : Bool} (h : A a) : Changes A ps s (t.pb a f b) ↔ Changes A ps s t := setReg_iff h
@[simp] theorem Changes.satAdd_iff {f : Fld} {n : Nat} (h : A a) : Changes A ps s (t.satAdd a f n) ↔ Changes A ps s t :=
  setReg_iff h
@[simp] theorem Changes.inc_iff {f : Fld} (h : A a) : Changes A ps s (t.inc a f) ↔ Changes A ps s t := setReg_iff h
@[simp] theorem Changes.setRegN_iff {n : Nat} (h : A a) : Changes A ps s (t.setRegN a n) ↔ Changes A ps s t := setReg_iff h
@[simp] theorem Changes.setRegI_iff {i : Int} (h : A a) : Changes A ps s (t.setRegI a i) ↔ Changes A ps s t := setReg_iff h
@[simp] theorem Changes.orReg_iff {m : Nat} (h : A a) : Changes A ps s (t.orReg a m) ↔ Changes A ps s t := setReg_iff h
@[simp] theorem Changes.setPair_iff {n : Nat} (h : A a) (h' : A (a + 4)) : Changes A ps s (t.setPair a n) ↔ Changes A ps s t :=
  (setReg_iff h').trans (setReg_iff h)
@[simp] theorem Changes.setPairI_iff {i : Int} (h : A a) (h' : A (a + 4)) : Changes A ps s (t.setPairI a i) ↔ Changes A ps s t :=
  setPair_iff h h'

@[simp] theorem Changes.raw_iff {f : Fld} (h : (rawBlock a).isSome = true) : Changes A ps s (t.raw a f) ↔ Changes A ps s t :=
  (Changes.setReg (.inr (by simp [sharedReg, h]))).iff

end

/-- A write of what a register holds changes nothing. -/
@[simp] theorem Changes.setReg_self_iff {a : Nat} : Changes A ps s (t.setReg a (t.reg a)) ↔ Changes A ps s t :=
  Changes.iff ⟨fun b _ _ => State.reg_setReg_self t a b, sameParts_setReg (sameParts_refl _)⟩

/-! ### Parts -/

/-- An update of parts of the state. -/
@[simp] theorem Changes.upd_iff {dram pending rshadow wshadow w1done conds gated regClk coreClk8 out freeIdx hif tsc ref hld
      spr syn pts ptp fwd tdc guy rut boot}
    (h1 : .hif ∈ ps ∨ hif = { t.hif with fq := hif.fq }) (h2 : .shadows ∈ ps ∨ rshadow = t.rshadow ∧ wshadow = t.wshadow)
    (h3 : .once ∈ ps ∨ w1done = t.w1done) (h4 : .conds ∈ ps ∨ conds = t.conds) (h5 : .gated ∈ ps ∨ gated = t.gated)
    (h6 : .clocks ∈ ps ∨ regClk = t.regClk ∧ coreClk8 = t.coreClk8) (h7 : .free ∈ ps ∨ freeIdx = t.freeIdx)
    (h8 : .tsc ∈ ps ∨ tsc = t.tsc) (h9 : .ref ∈ ps ∨ ref = t.ref) (h10 : .hld ∈ ps ∨ hld = t.hld)
    (h11 : .syn ∈ ps ∨ syn = t.syn) (h12 : .pts ∈ ps ∨ pts = t.pts) (h13 : .ptp ∈ ps ∨ ptp = t.ptp)
    (h14 : .fwd ∈ ps ∨ fwd = t.fwd) (h15 : .tdc ∈ ps ∨ tdc = t.tdc) (h16 : .guy ∈ ps ∨ guy = t.guy)
    (h17 : .rut ∈ ps ∨ rut = t.rut) (h18 : .boot ∈ ps ∨ boot = t.boot) :
    Changes A ps s (State.mk t.regs dram pending rshadow wshadow w1done conds gated regClk coreClk8 out freeIdx hif tsc ref
      hld spr syn pts ptp fwd tdc guy rut boot) ↔ Changes A ps s t :=
  Changes.iff ⟨fun _ _ _ => rfl, sameParts_iff.2 ⟨h1, h2, h3, h4, h5, h6, h7, h8, h9, h10, h11, h12, h13, h14, h15, h16, h17,
    h18⟩⟩

section
variable (t)
@[simp] theorem Changes.cond_iff {a : Nat} {f : Fld} {b : Bool} (h : .conds ∈ ps) :
    Changes A ps s (t.cond a f b) ↔ Changes A ps s t := by unfold State.cond; simp [h]
@[simp] theorem Changes.drawn_iff (h : .free ∈ ps) : Changes A ps s t.drawn ↔ Changes A ps s t := by unfold State.drawn; simp [h]
@[simp] theorem Changes.setTsc_iff {x : Tsc} (h : .tsc ∈ ps) : Changes A ps s (t.setTsc x) ↔ Changes A ps s t := by
  unfold State.setTsc; simp [h]
@[simp] theorem Changes.setHld_iff {x : Hld} (h : .hld ∈ ps) : Changes A ps s (t.setHld x) ↔ Changes A ps s t := by
  unfold State.setHld; simp [h]
@[simp] theorem Changes.setRef_iff {x : RefSel} (h : .ref ∈ ps) : Changes A ps s (t.setRef x) ↔ Changes A ps s t := by
  unfold State.setRef; simp [h]
@[simp] theorem Changes.setSyn_iff {x : Syn} (h : .syn ∈ ps) : Changes A ps s (t.setSyn x) ↔ Changes A ps s t := by
  unfold State.setSyn; simp [h]
@[simp] theorem Changes.setPts_iff {n : Nat} {x : Pts} (h : .pts ∈ ps) : Changes A ps s (t.setPts n x) ↔ Changes A ps s t := by
  unfold State.setPts; simp [h]
@[simp] theorem Changes.setPtp_iff {x : Ptp} (h : .ptp ∈ ps) : Changes A ps s (t.setPtp x) ↔ Changes A ps s t := by
  unfold State.setPtp; simp [h]
@[simp] theorem Changes.setFwd_iff {x : Fwd} (h : .fwd ∈ ps) : Changes A ps s (t.setFwd x) ↔ Changes A ps s t := by
  unfold State.setFwd; simp [h]
@[simp] theorem Changes.setGuy_iff {x : Guy} (h : .guy ∈ ps) : Changes A ps s (t.setGuy x) ↔ Changes A ps s t := by
  unfold State.setGuy; simp [h]
@[simp] theorem Changes.setRut_iff {x : Rut} (h : .rut ∈ ps) : Changes A ps s (t.setRut x) ↔ Changes A ps s t := by
  unfold State.setRut; simp [h]
@[simp] theorem Changes.setBootRec_iff {x : Boot} (h : .boot ∈ ps) : Changes A ps s (t.setBootRec x) ↔ Changes A ps s t := by
  unfold State.setBootRec; simp [h]
@[simp] theorem Changes.ungate_iff {d : Dom} (h : .gated ∈ ps) : Changes A ps s (t.ungate d) ↔ Changes A ps s t := by
  unfold State.ungate; simp [h]
end

/-! ### Logging -/

section
variable {a b c d e k n p v : Nat} {r : Rec} {w : Bool}
@[simp] theorem Changes.emit_iff {o : Out} : Changes A ps s (t.emit o) ↔ Changes A ps s t := Changes.iffLogs (.emit (.refl t))
@[simp] theorem Changes.pushRec_iff : Changes A ps s (t.pushRec k w r) ↔ Changes A ps s t := Changes.iffLogs (.pushRec (.refl t))
@[simp] theorem Changes.record_iff : Changes A ps s (t.record w r) ↔ Changes A ps s t := Changes.iffLogs (.record (.refl t))
@[simp] theorem Changes.note_iff : Changes A ps s (t.note k a b c d e) ↔ Changes A ps s t := Changes.iffLogs (.note (.refl t))
@[simp] theorem Changes.fire_iff : Changes A ps s (t.fire n d) ↔ Changes A ps s t := Changes.iffLogs (.fire (.refl t))
@[simp] theorem Changes.fault_iff : Changes A ps s (t.fault b c d p) ↔ Changes A ps s t := Changes.iffLogs (.fault (.refl t))
@[simp] theorem Changes.signal_iff : Changes A ps s (t.signal v) ↔ Changes A ps s t := Changes.iffLogs (.signal (.refl t))
@[simp] theorem Changes.clockRecs_iff : Changes A ps s t.clockRecs ↔ Changes A ps s t := Changes.iffLogs (.clockRecs (.refl t))
@[simp] theorem Changes.endClock_iff : Changes A ps s (endClock u t) ↔ Changes A ps s t := Changes.iffLogs (.endClock (.refl t))
end

/-! ### Performance counters -/

theorem sharedReg_pmc {a : Nat} (h : 0x80000 ≤ a) (h' : a < 0x80300) (hm : a % 0x100 < 0x48) : sharedReg a = true := by
  simp [sharedReg, h, h', hm]

theorem rawBlock_pmc {a : Nat} (h : 0x80000 ≤ a) (h' : a < 0x80300) : rawBlock a = none := by
  simp only [rawBlock, R.HIF_RAW, R.BOOT_RAW, R.TSC_RAW, R.REF_RAW, R.HLD_RAW, R.SYN_RAW, R.PTP_RAW, R.PMC_RAW, R.FWD_RAW,
    R.QUE_RAW, R.HRD_RAW, R.SPR_RAW, R.TDC_RAW, R.GUY_RAW, R.RUT_RAW, R.IOP_RAW]
  repeat rw [if_neg (by omega)]

theorem Logs.pmcAdd {g j n : Nat} (hg : g < 3) (hj : j < 9) (h : Logs s t) : Logs s (t.pmcAdd g j n) := by
  have ha : 0x80000 ≤ pmcAddr g j ∧ pmcAddr g j + 4 < 0x80300 ∧ pmcAddr g j % 0x100 < 0x44 := by
    simp only [pmcAddr, R.PMC_Gg_CYCLE_LO, R.PMC_Gg_CNTk_LO]
    split <;> omega
  obtain ⟨h1, h2, h3⟩ := ha
  unfold State.pmcAdd
  generalize pmcAddr g j = a at *
  extract_lets x y z
  have hy : Logs s y := .setPair (sharedReg_pmc h1 (by omega) (by omega)) (sharedReg_pmc (by omega) h2 (by omega))
    (rawBlock_pmc h1 (by omega)) (rawBlock_pmc (by omega) h2) h
  have hz : Logs s z := .setReg rfl rfl hy
  exact .ite hy (.ite (.rawBit rfl (by decide) rfl hz) hz)

theorem Logs.pmc {g c n : Nat} (hg : g < 3) (h : Logs s t) : Logs s (t.pmc g c n) := by
  refine .ite (.fold (fun u p => ?_) h _) h
  split
  · next k =>
    simp only [R.PMC_Gg_SELk] at k ⊢
    exact .pmcAdd hg (by omega) (.refl u)
  · exact .refl u

@[simp] theorem Changes.pmcAdd_iff {g j n : Nat} (hg : g < 3) (hj : j < 9) : Changes A ps s (t.pmcAdd g j n) ↔ Changes A ps s t :=
  Changes.iffLogs (.pmcAdd hg hj (.refl t))
@[simp] theorem Changes.pmc_iff {g c n : Nat} (hg : g < 3) : Changes A ps s (t.pmc g c n) ↔ Changes A ps s t :=
  Changes.iffLogs (.pmc hg (.refl t))

/-! ### Commands that complete -/

/-- A command out of reset answers its effect and logging: what the effect leaves as it was, the command does. -/
theorem Answers.ofChanges {P : State → Prop} (h : s.inReset = false) (F : Changes A ps s t)
    (hP : ∀ u, Logs t u → Changes A ps s u → P u) : Answers (done s t) P :=
  Answers.ofDone h fun u L => hP u L (F.logs L)

end Sys2Proof.Machine
end

section

/-! ## What every step keeps

Every command answers a next state. All but those of `movesTime` move no time, write no DRAM and hold or release no reset;
all keep a sound state sound. A step ends its clock, or leaves a device in reset as it is, so conditions that hold show
after it (R53). -/

set_option Elab.async false

namespace Sys2Proof.Machine

variable {s t u : State}

/-! ### Every command -/

/-- The commands that may move the voted time, write DRAM, or hold or release the reset. -/
def movesTime : Instr → Bool
  | .timescaleTick .. | .stepApply | .mainPowerLoss | .emberSeed | .settleExpiry .. | .synUpdateApply | .recordWrite | .guyStreamError .. | .mirrorMsgRx .. | .ckptMsgRx .. | .resetAssert | .resetRelease .. | .railFault .. | .railRecovery => true
  | _ => false

theorem exec_still (s : State) : ∀ c : Instr, movesTime c = false → ∃ t, exec c s = .next t ∧ Still s t
  | .registerWrite .., _ => execRegisterWrite_still
  | .writeOnce .., _ => execWriteOnce_still
  | .readClear .., _ => execReadClear_still
  | .readLowWord .., _ => execReadLowWord_still
  | .writeLowWord .., _ => execWriteLowWord_still
  | .writeHighWord .., _ => execWriteHighWord_still
  | .busTimeout .., _ => execBusTimeout_still
  | .domainLiveAgain .., _ => execDomainLiveAgain_still
  | .crossingReset .., _ => execCrossingReset_still
  | .pcieReset, _ => execPcieReset_still
  | .pcieLinkDown, _ => execPcieLinkDown_still
  | .functionLevelResetF0, _ => execFunctionLevelResetF0_still
  | .functionLevelResetF1, _ => execFunctionLevelResetF1_still
  | .cfgScanCommit .., _ => execCfgScanCommit_still
  | .cfgScanUnfreeze .., _ => execCfgScanUnfreeze_still
  | .cfgScanComplete .., _ => execCfgScanComplete_still
  | .fqPop .., _ => execFqPop_still
  | .dmaRingEnable .., _ => execDmaRingEnable_still
  | .dmaTailWrite .., _ => execDmaTailWrite_still
  | .dmaDescriptorDone .., _ => execDmaDescriptorDone_still
  | .dmaHoldoffExpiry .., _ => execDmaHoldoffExpiry_still
  | .dmaPcieError .., _ => execDmaPcieError_still
  | .i2cAddressWrite .., _ => execI2cAddressWrite_still
  | .i2cRead .., _ => execI2cRead_still
  | .dieTempConversion .., _ => execDieTempConversion_still
  | .secondEvent, _ => execSecondEvent_still
  | .tscNowCapture .., _ => execTscNowCapture_still
  | .immediateStep .., _ => execImmediateStep_still
  | .secondAlignedStep .., _ => execSecondAlignedStep_still
  | .absoluteSet .., _ => execAbsoluteSet_still
  | .stepCancel .., _ => execStepCancel_still
  | .clrSuspect .., _ => execClrSuspect_still
  | .copyRestore .., _ => execCopyRestore_still
  | .copyFenceCmd .., _ => execCopyFenceCmd_still
  | .tripodInject .., _ => execTripodInject_still
  | .oscFreqMismatch .., _ => execOscFreqMismatch_still
  | .oscFreqChange .., _ => execOscFreqChange_still
  | .warmGate .., _ => execWarmGate_still
  | .warmTimeout, _ => execWarmTimeout_still
  | .oscWarmChange .., _ => execOscWarmChange_still
  | .refInputEdge .., _ => execRefInputEdge_still
  | .refInputStuck .., _ => execRefInputStuck_still
  | .refOverrunInterval .., _ => execRefOverrunInterval_still
  | .refInRearm .., _ => execRefInRearm_still
  | .activityInterval .., _ => execActivityInterval_still
  | .freqGate .., _ => execFreqGate_still
  | .holdoffExpiry .., _ => execHoldoffExpiry_still
  | .wtrExpiry .., _ => execWtrExpiry_still
  | .esmcRx .., _ => execEsmcRx_still
  | .esmcTimeout .., _ => execEsmcTimeout_still
  | .esmcTxInfo .., _ => execEsmcTxInfo_still
  | .esmcTxEvent .., _ => execEsmcTxEvent_still
  | .selectorDecision .., _ => execSelectorDecision_still
  | .targetMeasured, _ => execTargetMeasured_still
  | .modelEval, _ => execModelEval_still
  | .fitIntervalEnd, _ => execFitIntervalEnd_still
  | .modelLoad .., _ => execModelLoad_still
  | .modelClear .., _ => execModelClear_still
  | .tempAxisChange .., _ => execTempAxisChange_still
  | .holdoverQualLost .., _ => execHoldoverQualLost_still
  | .emberTrimUpdate .., _ => execEmberTrimUpdate_still
  | .emberResync .., _ => execEmberResync_still
  | .emberResyncCmd .., _ => execEmberResyncCmd_still
  | .emberInvalidate .., _ => execEmberInvalidate_still
  | .emberSupplyLow, _ => execEmberSupplyLow_still
  | .emberColdStart, _ => execEmberColdStart_still
  | .mainPowerPresent, _ => execMainPowerPresent_still
  | .emberXtalStop, _ => execEmberXtalStop_still
  | .pllLock .., _ => execPllLock_still
  | .pllLockLoss .., _ => execPllLockLoss_still
  | .domainGated .., _ => execDomainGated_still
  | .synUpdateGo .., _ => execSynUpdateGo_still
  | .claimSourceSwitch, _ => execClaimSourceSwitch_still
  | .pdSample .., _ => execPdSample_still
  | .laneUnlock .., _ => execLaneUnlock_still
  | .loopbackGo .., _ => execLoopbackGo_still
  | .loopbackAbort .., _ => execLoopbackAbort_still
  | .loopbackFrameTx .., _ => execLoopbackFrameTx_still
  | .loopbackFrameReturn .., _ => execLoopbackFrameReturn_still
  | .loopbackFrameTimeout .., _ => execLoopbackFrameTimeout_still
  | .loopbackDone .., _ => execLoopbackDone_still
  | .linkDelayExchange .., _ => execLinkDelayExchange_still
  | .ftempNowWrite .., _ => execFtempNowWrite_still
  | .ftempStale .., _ => execFtempStale_still
  | .ptsFifoPop .., _ => execPtsFifoPop_still
  | .announceRx .., _ => execAnnounceRx_still
  | .syncRx .., _ => execSyncRx_still
  | .followUpRx .., _ => execFollowUpRx_still
  | .delayReqRx .., _ => execDelayReqRx_still
  | .delayRespTx .., _ => execDelayRespTx_still
  | .delayRespRx .., _ => execDelayRespRx_still
  | .pdelayReqRx .., _ => execPdelayReqRx_still
  | .pdelayRespTx .., _ => execPdelayRespTx_still
  | .pdelayRespRx .., _ => execPdelayRespRx_still
  | .pdelayRespFollowUpRx .., _ => execPdelayRespFollowUpRx_still
  | .ptpMgmtRx .., _ => execPtpMgmtRx_still
  | .syncTx .., _ => execSyncTx_still
  | .announceTx .., _ => execAnnounceTx_still
  | .followUpTx .., _ => execFollowUpTx_still
  | .delayReqTx .., _ => execDelayReqTx_still
  | .pdelayReqTx .., _ => execPdelayReqTx_still
  | .claimAnnounce, _ => execClaimAnnounce_still
  | .announceTimeout .., _ => execAnnounceTimeout_still
  | .followUpTimeout .., _ => execFollowUpTimeout_still
  | .validOffsetLapse, _ => execValidOffsetLapse_still
  | .servoFreeze, _ => execServoFreeze_still
  | .tightServoTick, _ => execTightServoTick_still
  | .pcsBlockLockLoss .., _ => execPcsBlockLockLoss_still
  | .pcsBlockLockGain .., _ => execPcsBlockLockGain_still
  | .macModeChange .., _ => execMacModeChange_still
  | .frameReceive .., _ => execFrameReceive_still
  | .frameLookup .., _ => execFrameLookup_still
  | .frameEnd .., _ => execFrameEnd_still
  | .learningSweep .., _ => execLearningSweep_still
  | .tableStageWrite .., _ => execTableStageWrite_still
  | .tableCommit .., _ => execTableCommit_still
  | .fwdDrain .., _ => execFwdDrain_still
  | .drainDone, _ => execDrainDone_still
  | .hostFrameIngest .., _ => execHostFrameIngest_still
  | .hostFrameDeliver, _ => execHostFrameDeliver_still
  | .egressSelect .., _ => execEgressSelect_still
  | .ageScan, _ => execAgeScan_still
  | .spillWrite .., _ => execSpillWrite_still
  | .spillReadback .., _ => execSpillReadback_still
  | .sliceStallThreshold, _ => execSliceStallThreshold_still
  | .pfcTx .., _ => execPfcTx_still
  | .pfcRefresh .., _ => execPfcRefresh_still
  | .pfcRx .., _ => execPfcRx_still
  | .pauseExpiry .., _ => execPauseExpiry_still
  | .clause31PauseRx .., _ => execClause31PauseRx_still
  | .dramTrainingDone .., _ => execDramTrainingDone_still
  | .herdPlace, _ => execHerdPlace_still
  | .herdDepartureDecision .., _ => execHerdDepartureDecision_still
  | .herdAdmissionSweep, _ => execHerdAdmissionSweep_still
  | .journalEnable .., _ => execJournalEnable_still
  | .journalDisable .., _ => execJournalDisable_still
  | .lossRecord, _ => execLossRecord_still
  | .journalFire .., _ => execJournalFire_still
  | .spoorTrigEdge .., _ => execSpoorTrigEdge_still
  | .journalFreeze, _ => execJournalFreeze_still
  | .journalRearm .., _ => execJournalRearm_still
  | .journalFetch .., _ => execJournalFetch_still
  | .fetchDone, _ => execFetchDone_still
  | .journalBufferDone .., _ => execJournalBufferDone_still
  | .journalBufferIdle .., _ => execJournalBufferIdle_still
  | .rdCountWrite .., _ => execRdCountWrite_still
  | .tdcEdge .., _ => execTdcEdge_still
  | .tdcStampConversion .., _ => execTdcStampConversion_still
  | .tdcCalCycleDone .., _ => execTdcCalCycleDone_still
  | .tdcInterpolatorSwap .., _ => execTdcInterpolatorSwap_still
  | .tdcStuck .., _ => execTdcStuck_still
  | .tdcOverrunInterval .., _ => execTdcOverrunInterval_still
  | .tdcRearm .., _ => execTdcRearm_still
  | .tdcFifoPop .., _ => execTdcFifoPop_still
  | .tdcWindowStart .., _ => execTdcWindowStart_still
  | .tdcWindowClose .., _ => execTdcWindowClose_still
  | .guyEnable .., _ => execGuyEnable_still
  | .guyDisable .., _ => execGuyDisable_still
  | .guyLaneLos .., _ => execGuyLaneLos_still
  | .guyLaneLol .., _ => execGuyLaneLol_still
  | .guyBlockLock .., _ => execGuyBlockLock_still
  | .guyMarkerRx .., _ => execGuyMarkerRx_still
  | .guyAlignTimeout, _ => execGuyAlignTimeout_still
  | .claimMsgRx .., _ => execClaimMsgRx_still
  | .heartbeatRx .., _ => execHeartbeatRx_still
  | .timeMsgRx .., _ => execTimeMsgRx_still
  | .commitRx .., _ => execCommitRx_still
  | .batchApply, _ => execBatchApply_still
  | .claimMsgTx, _ => execClaimMsgTx_still
  | .heartbeatTx, _ => execHeartbeatTx_still
  | .timeMsgTx .., _ => execTimeMsgTx_still
  | .guyTimeStale, _ => execGuyTimeStale_still
  | .mirrorBatchStart, _ => execMirrorBatchStart_still
  | .checkpointStart, _ => execCheckpointStart_still
  | .claimWireFrame .., _ => execClaimWireFrame_still
  | .wireStale, _ => execWireStale_still
  | .becomeHigher, _ => execBecomeHigher_still
  | .heartbeatTimeout, _ => execHeartbeatTimeout_still
  | .initWaitExpiry, _ => execInitWaitExpiry_still
  | .pairEnable .., _ => execPairEnable_still
  | .pairDisable .., _ => execPairDisable_still
  | .checkpointApplyDone, _ => execCheckpointApplyDone_still
  | .handover .., _ => execHandover_still
  | .release .., _ => execRelease_still
  | .otpReadDone .., _ => execOtpReadDone_still
  | .flashDiscoveryDone .., _ => execFlashDiscoveryDone_still
  | .bootClockTimeout, _ => execBootClockTimeout_still
  | .packVerifyDone .., _ => execPackVerifyDone_still
  | .bootPackWrite .., _ => execBootPackWrite_still
  | .bootPackWait, _ => execBootPackWait_still
  | .packApplyDone .., _ => execPackApplyDone_still
  | .bootRetry .., _ => execBootRetry_still
  | .flashCmdGo .., _ => execFlashCmdGo_still
  | .flashCmdDone .., _ => execFlashCmdDone_still
  | .pmcSnap .., _ => execPmcSnap_still
  | .pmcClear .., _ => execPmcClear_still
  | .pmcFreeze .., _ => execPmcFreeze_still
  | .pmcSelectChange .., _ => execPmcSelectChange_still
  | .pmcCounterWrap .., _ => execPmcCounterWrap_still
  | .pmcUserWriteDenied .., _ => execPmcUserWriteDenied_still
  | .f1StatusWrite .., _ => execF1StatusWrite_still
  | .pinFaultDeclare .., _ => execPinFaultDeclare_still
  | .pinFaultClear .., _ => execPinFaultClear_still
  | .pinReversed .., _ => execPinReversed_still
  | .shortRetest .., _ => execShortRetest_still
  | .unmappedRead .., _ => execUnmappedRead_still
  | .relayInputEdge .., _ => execRelayInputEdge_still
  | .oscFreqOkRestored, _ => execOscFreqOkRestored_still

theorem exec_keeps (c : Instr) (s : State) : ∃ t, exec c s = .next t ∧ Keeps s t := by
  by_cases h : movesTime c = false
  · obtain ⟨t, e, k⟩ := exec_still s c h
    exact ⟨t, e, k.toKeeps⟩
  cases c
  case timescaleTick => exact execTimescaleTick_keeps
  case stepApply => exact execStepApply_keeps
  case mainPowerLoss => exact execMainPowerLoss_keeps
  case emberSeed => exact execEmberSeed_keeps
  case settleExpiry => exact execSettleExpiry_keeps
  case synUpdateApply => exact execSynUpdateApply_keeps
  case recordWrite => exact execRecordWrite_keeps
  case guyStreamError => exact execGuyStreamError_keeps
  case mirrorMsgRx => exact execMirrorMsgRx_keeps
  case ckptMsgRx => exact execCkptMsgRx_keeps
  case resetAssert => exact execResetAssert_keeps
  case resetRelease => exact execResetRelease_keeps
  case railFault => exact execRailFault_keeps
  case railRecovery => exact execRailRecovery_keeps
  all_goals exact absurd rfl h

theorem step_keeps (s : State) : ∃ t, step s = .next t ∧ (s.sound → t.sound) := by
  unfold step
  split
  · obtain ⟨t, e, k⟩ := exec_keeps _ { s with pending := _ }
    exact ⟨t, e, k.sound⟩
  · obtain ⟨t, e, k⟩ := (Still.refl s).idle.doneAlways
    exact ⟨t, e, k.sound⟩

/-- Settles O1. -/
theorem stepRunsFront : Obligations.StepRunsFront := fun _ _ _ => rfl

/-- Settles O4: what a step may do keeps every part of `sound`. -/
theorem stepKeepsSound : Obligations.StepKeepsSound := by
  intro s t hs h
  obtain ⟨u, e, k⟩ := step_keeps s
  rw [e] at h
  cases h
  exact k hs

/-- Settles O7, by what each command keeps. -/
theorem everyCommandCompletes : Obligations.EveryCommandCompletes := by
  intro c s
  obtain ⟨t, e, k⟩ := exec_keeps c s
  exact ⟨t, e, k.pending, k.out, k.sound⟩

/-! ### The state after reset -/

theorem reg_reset {a : Nat} (h : a ≠ R.BOOT_RESET_CAUSE) (h' : a ≠ R.HLD_EMB_STATUS) : State.reset.reg a = regReset a := by
  simp only [State.reg, State.reset, regsAtReset, Tbl.get, if_neg h, if_neg h']

/-- Settles O3. -/
theorem stateAfterReset : Obligations.StateAfterReset := by
  refine ⟨State.sound_reset, ?_, rfl, rfl, by decide +kernel, rfl, by decide +kernel, by decide +kernel,
    fun a h h' => reg_reset h h', fun a => rfl⟩
  intro p hp
  cases hp

/-! ### Conditions (R53) -/

/-- The conditions that hold set their raw status bits. -/
theorem reg_foldl_applyCond {l : Tbl Word} {p : Nat × Word} (hp : p ∈ l) (hr : (rawBlock p.1).isSome = true) :
    (l.foldl State.applyCond s).reg p.1 &&& p.2 = p.2 := by
  have logs (t : State) (q : Nat × Word) : Logs t (t.applyCond q) := by
    unfold State.applyCond
    split
    · next h => exact .rawOr h (.refl t)
    · exact .refl t
  induction l generalizing s with
  | nil => cases hp
  | cons q r ih =>
    rcases List.mem_cons.1 hp with e | hm
    · subst e
      refine (Logs.fold logs (.refl _) r).raw _ _ hr ?_
      unfold State.applyCond
      rw [if_pos hr, State.reg_setReg_same]
      ext i hi
      simp +contextual
    · exact ih hm

theorem condsShown_applyConds : s.applyConds.condsShown := by
  intro p hp hr
  rw [(Logs.applyConds (.refl s)).conds] at hp
  exact reg_foldl_applyCond hp hr

theorem condsShown_of_logs (h : s.condsShown) (L : Logs s t) : t.condsShown := by
  intro p hp hr
  rw [L.conds] at hp
  exact L.raw _ _ hr (h p hp hr)

/-- The end of a clock shows every condition that holds. -/
theorem condsShown_endClock : (endClock s t).condsShown :=
  condsShown_of_logs condsShown_applyConds (.signalRises (.refl _))

/-- A write beside the raw status registers hides no condition. -/
theorem condsShown_setReg {a : Nat} {v : Word} (h : s.condsShown) (ha : rawBlock a = none) : (s.setReg a v).condsShown := by
  intro p hp hr
  rw [State.reg_setReg_ne]
  · exact h p hp hr
  · rintro rfl
    simp [ha] at hr

theorem condsShown_setPair {a n : Nat} (h : s.condsShown) (ha : rawBlock a = none) (ha' : rawBlock (a + 4) = none) :
    (s.setPair a n).condsShown := condsShown_setReg (condsShown_setReg h ha) ha'

/-- The outcome, where it is a next state, shows its conditions. -/
def ShowsConds (o : Host.Outcome State Fault Refusal) : Prop := ∀ t, o = .next t → t.condsShown

theorem ShowsConds.done (h : s.condsShown) : ShowsConds (done s t) := by
  rintro u ⟨⟩
  split
  · exact h
  · exact condsShown_endClock

theorem ShowsConds.doneAlways (h : t.condsShown) : ShowsConds (doneAlways s t) := by
  rintro u ⟨⟩
  split
  · exact h
  · exact condsShown_endClock

theorem condsShown_of_nil (h : s.conds = []) : s.condsShown := by
  intro p hp
  rw [h] at hp
  cases hp

/-- Only registers and conditions matter. -/
theorem condsShown_congr (h : s.condsShown) (hc : t.conds = s.conds) (hr : t.regs = s.regs) : t.condsShown := by
  intro p hp hb
  have e : t.reg p.1 = s.reg p.1 := by unfold State.reg; rw [hr]
  rw [e]
  exact h p (hc ▸ hp) hb

theorem condsShown_emberLost (h : s.condsShown) : s.emberLost.condsShown :=
  condsShown_setReg (condsShown_setReg h (by decide)) (by decide)

theorem condsShown_emberLow (h : s.condsShown) : s.emberLow.condsShown := by
  unfold State.emberLow
  split
  · exact h
  · exact condsShown_emberLost h

theorem condsShown_emberCold (h : s.condsShown) : s.emberCold.condsShown := by
  unfold State.emberCold
  exact condsShown_emberLost (condsShown_setReg (condsShown_setPair (condsShown_setPair h (by decide) (by decide))
    (by decide) (by decide)) (by decide))

theorem condsShown_emberStart (h : s.condsShown) : s.emberStart.condsShown := by
  unfold State.emberStart
  split
  · exact h
  · exact condsShown_congr (condsShown_emberCold h) rfl rfl

theorem condsShown_emberClock (h : s.condsShown) : s.emberClock.condsShown := by
  unfold State.emberClock
  extract_lets trim acc e x y
  have hx (x : Hld) : (s.setHld x).condsShown := condsShown_congr h rfl rfl
  split
  · exact hx _
  · split <;> exact condsShown_setPair (hx _) (by decide) (by decide)

theorem condsShown_powerUp (h : s.condsShown) : s.powerUp.condsShown := by
  unfold State.powerUp
  split
  · exact h
  · exact condsShown_setReg (condsShown_congr h rfl rfl) (by decide)

theorem condsShown_toReset : s.toReset.condsShown := condsShown_of_nil rfl

theorem condsShown_powerLoss (h : s.condsShown) : s.powerLoss.condsShown := by
  unfold State.powerLoss
  split
  · exact condsShown_toReset
  · exact h

theorem condsShown_resetAssert : s.resetAssert.condsShown := condsShown_setReg condsShown_toReset (by decide)

theorem condsShown_railFault {n : Nat} : (s.railFault n).condsShown := condsShown_setReg condsShown_toReset (by decide)

theorem condsShown_resetRelease {n : Nat} (h : s.condsShown) : (s.resetRelease n).condsShown := by
  unfold State.resetRelease
  split
  · exact condsShown_congr h rfl rfl
  · exact h

theorem condsShown_railRecovery (h : s.condsShown) : s.railRecovery.condsShown := by
  unfold State.railRecovery
  split
  · exact condsShown_congr h rfl rfl
  · exact h

/-- Every command shows the conditions that hold after it: it ends its clock, or it leaves a device in reset. -/
theorem exec_showsConds (c : Instr) (h : s.condsShown) : ShowsConds (exec c s) := by
  cases c
  case emberSupplyLow => exact .doneAlways (condsShown_emberLow h)
  case emberColdStart => exact .doneAlways (condsShown_emberStart h)
  case mainPowerPresent => exact .doneAlways (condsShown_powerUp h)
  case mainPowerLoss => exact .doneAlways (condsShown_powerLoss h)
  case resetAssert => exact .doneAlways condsShown_resetAssert
  case railFault => exact .doneAlways condsShown_railFault
  case resetRelease => exact .doneAlways (condsShown_resetRelease h)
  case railRecovery => exact .doneAlways (condsShown_railRecovery h)
  all_goals exact .done h

/-- A register-clock cycle in reset hides no condition. -/
theorem condsShown_idle (h : s.condsShown) (hr : s.idle.inReset = true) : s.idle.condsShown := by
  rw [(Still.idle (.refl s)).inReset] at hr
  have e : s.idle = s.emberClock := if_pos (((Still.emberClock (.refl s)).inReset).trans hr)
  rw [e]
  exact condsShown_emberClock h

/-- Settles O5. -/
theorem stepKeepsConditions : Obligations.StepKeepsConditions := by
  intro s t hs
  unfold step
  split
  · next c l _ => exact exec_showsConds (s := { s with pending := l }) c (condsShown_congr hs rfl rfl) t
  · rintro ⟨⟩
    split
    · next h => exact condsShown_idle hs h
    · exact condsShown_endClock

end Sys2Proof.Machine
end

section

/-! ## Two claims of what moves the timescale and writes DRAM that do not hold

A CANCEL withdraws a host step that falls on the tick just formed, and with it the time that the tick already shows. A row
that carries a whole MIRROR message delivers it, whichever command brings the row. -/

namespace Sys2Proof.Machine

/-! ### A step withdrawn on its tick -/

/-- A running device, on whose tick a host step of one second falls that has not been applied yet (R77). -/
def ripeStep : State :=
  { Tests.live with tsc := { Tests.live.tsc with host := some (.imm secTicks), hostRipe := true } }

/-- The withdrawn step is in the time before the command and not in the time after it. -/
theorem now_cancelled : (endClock ripeStep (ripeStep.hostWrite R.TSC_STEP_CTRL (F.TSC_STEP_CTRL_CANCEL.put 0 1))).now ≠
    ripeStep.now := by decide +kernel

/-- Refutes O9: CANCEL of a host step that is due on the tick just formed moves the time, which counts that step until
then (R78, R81). -/
theorem not_moversOfTheTimescale : ¬ Obligations.MoversOfTheTimescale := by
  intro h
  obtain ⟨t, ⟨⟩, -, hn⟩ := h (.stepCancel 0) ripeStep nofun nofun nofun nofun nofun nofun nofun nofun
  exact now_cancelled hn

/-! ### A row with a MIRROR message -/

/-- A running unit in STANDBY with the link UP and a checkpoint partition. -/
def standbyUnit : State :=
  ((Tests.live.p R.GUY_STATUS F.GUY_STATUS_STATE 3).p R.RUT_STATUS F.RUT_STATUS_STATE pairStandby).p R.QUE_PART
    F.QUE_PART_CKPT 1

/-- The line bits of the four logical lanes of a row, right after a marker (R368, R370, R375). -/
def rowLanes (row : List Byte) : List (List Bool) :=
  (List.range 4).map fun k =>
    lineBlock syncData (scramble (guySeed k) ((slice row (480 * k) 480).flatMap fun b => msbBits 8 b.toNat))

/-- A row with a MIRROR message that carries the byte 1 for offset 0 of batch 0. -/
def mirrorRow : List (List Bool) := rowLanes (guyRow [0] (guyMessage 5 0 (beBytes 4 0 ++ beBytes 4 0 ++ [1#8])) 0)

theorem dramByte_mirrorRow : (endClock standbyUnit
    (standbyUnit.streamBad (.row mirrorRow 0 ⟨0, 0, 0, ⟨0, 0, 0⟩, 0, false⟩))).dramByte 0x800000 ≠
      standbyUnit.dramByte 0x800000 := by decide +kernel

theorem exec_guyStreamError {s : State} {bad : StreamBad} : exec (.guyStreamError bad) s = done s (s.streamBad bad) := rfl

/-- Refutes O8: the command of stream errors takes a row without an error too, and delivers the MIRROR message in it, whose
byte goes to the staging slot in DRAM (R375, R402). -/
theorem not_writersOfDram : ¬ Obligations.WritersOfDram := by
  intro h
  obtain ⟨t, e, hd⟩ := h (.guyStreamError (.row mirrorRow 0 ⟨0, 0, 0, ⟨0, 0, 0⟩, 0, false⟩)) standbyUnit nofun nofun nofun
  rw [exec_guyStreamError, done_next rfl] at e
  injection e with e
  exact dramByte_mirrorRow ((congrArg (State.dramByte · 0x800000) e).trans (hd 0x800000))

end Sys2Proof.Machine
end

section

/-! ## A step on an empty queue

Out of reset Ember's clock and the counts of the clocks move, and the rest is logging: the core clock's performance
counters. -/

set_option Elab.async false

namespace Sys2Proof.Machine

variable {s t u : State}

theorem Logs.pair (h : Logs s t) {a : Nat} (ha : sharedReg a = false) (ha' : sharedReg (a + 4) = false) :
    t.pair a = s.pair a := by
  unfold State.pair
  rw [h.reg a ha, h.reg _ ha']

theorem Logs.pending (h : Logs s t) : t.pending = s.pending := congrArg (·.2.1) h.rest

theorem Logs.foldMem {α : Type} {f : State → α → State} {l : List α} (hf : ∀ t, ∀ x ∈ l, Logs t (f t x)) (h : Logs s t) :
    Logs s (l.foldl f t) := by
  induction l generalizing t with
  | nil => exact h
  | cons x r ih => exact ih (fun t y hy => hf t y (List.mem_cons_of_mem _ hy)) (h.trans (hf t x (List.mem_cons_self ..)))

theorem Logs.coreClocks {n : Nat} (h : Logs s t) : Logs s (t.coreClocks n) := by
  unfold State.coreClocks
  extract_lets x stalled y z
  have hx : Logs s x :=
    .ite (.foldMem (fun t g hg => .pmcAdd (List.mem_range.1 hg) (by decide) (.refl t)) h) h
  clear_value x
  have hy : Logs s y := .foldMem (fun t k hk => by
    have hk : k < 3 := Nat.lt_succ_of_lt (List.mem_range.1 hk)
    exact .ite (.pmc hk (.pmc hk (.refl t))) (.pmc hk (.refl t))) hx
  clear_value y
  have hz : Logs s z := .ite (.pmc (by decide) hy) hy
  clear_value z
  exact .ite (.pmc (by decide) hz) hz

/-- Ember's clock moves its accumulator and its time. -/
theorem emberClock_changes : Changes (· ∈ [R.HLD_EMB_TIME_LO, R.HLD_EMB_TIME_HI]) [.hld] s s.emberClock := by
  unfold State.emberClock
  extract_lets trim acc e x y
  have hx (z : Hld) : Changes (· ∈ [R.HLD_EMB_TIME_LO, R.HLD_EMB_TIME_HI]) [.hld] s (s.setHld z) := by simp
  have hy (sec cyc : Nat) : Changes (· ∈ [R.HLD_EMB_TIME_LO, R.HLD_EMB_TIME_HI]) [.hld] s (y.setEmberTime sec cyc) := by
    unfold State.setEmberTime
    exact (Changes.setPair_iff (by simp) (by simp)).2 (hx _)
  split
  · exact hx _
  · split <;> exact hy ..

/-- The counts of the clocks after one register-clock cycle. -/
def State.clocked (s : State) : State :=
  { s.emberClock with regClk := s.regClk + 1, coreClk8 := if s.runs .core then s.coreClk8 + 25 else s.coreClk8 }

theorem idle_inReset (h : s.inReset = true) : s.idle = s.emberClock :=
  if_pos (((Still.emberClock (.refl s)).inReset).trans h)

theorem logs_clocked_idle (h : s.inReset = false) : Logs s.clocked s.idle := by
  have F := emberClock_changes (s := s)
  have hc := F.parts .clocks (by simp)
  have hg : s.emberClock.gated = s.gated := F.parts .gated (by simp)
  have hr : s.emberClock.inReset = false := ((Still.emberClock (.refl s)).inReset).trans h
  have hk (n m : Nat) : State.runs { s.emberClock with regClk := n, coreClk8 := m } .core = s.runs .core := by
    unfold State.runs
    rw [hg]
  unfold State.idle State.clocked
  simp only [hr, Bool.false_eq_true, if_false, hk, hc.2, hc.1]
  by_cases k : s.runs .core = true
  · simp only [k, if_true]
    exact .coreClocks (.refl _)
  · simp only [k, Bool.false_eq_true, if_false]
    rw [← hc.2]
    exact .refl _

theorem clocked_changes :
    Changes (· ∈ [R.HLD_EMB_TIME_LO, R.HLD_EMB_TIME_HI]) [.clocks, .hld] s s.clocked := by
  unfold State.clocked
  rw [Changes.upd_iff] <;> simp
  exact emberClock_changes.mono (fun _ h => by simpa using h) (by simp)

theorem doneAlways_next (h : t.inReset = false) : doneAlways s t = .next (endClock s t) := by
  unfold doneAlways
  rw [h, if_neg (by decide)]

theorem doneAlways_inReset (h : t.inReset = true) : doneAlways s t = .next t := by
  unfold doneAlways
  rw [h, if_pos rfl]

theorem step_nil (h : s.pending = []) : step s = doneAlways s s.idle := by
  unfold step
  rw [h]

theorem emberTime_of_logs (L : Logs s t) : t.emberTime = s.emberTime := by
  unfold State.emberTime
  rw [L.pair (by decide) (by decide)]

theorem emberTime_clocked : s.clocked.emberTime = s.emberClock.emberTime := rfl

/-- Settles O2. -/
theorem idleStep : Obligations.IdleStep := by
  have hi (s : State) : s.idle.inReset = s.inReset := (Still.idle (.refl s)).inReset
  refine ⟨fun s hp h => ?_, fun s hp h => ?_⟩
  · refine ⟨_, (step_nil hp).trans (doneAlways_next ((hi s).trans h)), ?_⟩
    have L : Logs s.clocked (endClock s s.idle) := (logs_clocked_idle h).endClock
    have K : Still s (endClock s s.idle) := (Still.idle (.refl s)).endClock
    have F := clocked_changes.logs L
    refine ⟨L.regClk, L.coreClk8, congrArg Hld.emberAcc L.hld, (emberTime_of_logs L).trans emberTime_clocked,
      K.pending.trans hp, F.sameBut, F.parts, fun a => ?_⟩
    unfold State.dramByte
    rw [K.memory]
  · rw [step_nil hp, doneAlways_inReset ((hi s).trans h), idle_inReset h]

end Sys2Proof.Machine
end

section

/-! ## The codes of Guyline and of the claim wire read back

Bit stuffing inserts at most one bit in 30 DATA bits and is undone by the receiver; scrambling is its own inverse; a
message and a claim-wire frame hold their fields as numbers of fixed width in network order. -/

set_option Elab.async false

namespace Sys2Proof.Machine

/-! ### Blocks (R368, R371) -/

theorem length_stuff_le (d : List Bool) : ∀ (p : Bool) (k : Nat), 1 ≤ k → k ≤ 30 →
    (stuff p k d).length ≤ d.length + (d.length + k - 1) / 30 := by
  induction d with
  | nil => intros; simp [stuff]
  | cons b r ih =>
    intro p k h1 h30
    rw [stuff]
    have hn : 1 ≤ (if b = p then k + 1 else 1) ∧ (if b = p then k + 1 else 1) ≤ k + 1 := by split <;> omega
    generalize (if b = p then k + 1 else 1) = n at *
    split
    · have := ih (!b) 1 (by omega) (by omega)
      simp only [List.length_cons]
      omega
    · have := ih b n (by omega) (by omega)
      simp only [List.length_cons]
      omega

theorem destuff_stuff (d rest : List Bool) : ∀ (p : Bool) (k : Nat),
    destuff p k d.length (stuff p k d ++ rest) = some d := by
  induction d with
  | nil => intros; rfl
  | cons b r ih =>
    intro p k
    rw [stuff]
    by_cases h : (if b = p then k + 1 else 1) = 31
    · simp only [h, if_true, List.length_cons, List.cons_append, destuff]
      simp [ih]
    · simp only [h, if_false, List.length_cons, List.cons_append, destuff, ih, Option.map_some]

theorem length_fillBits (n : Nat) : ∀ p, (fillBits n p).length = n := by
  induction n with
  | zero => intro p; rfl
  | succ n ih => intro p; simp [fillBits, ih]

/-- The line bits of a data block: SYNC, the stuffed DATA bits, filler. -/
theorem lineBlock_syncData (d : List Bool) : ∃ n p, lineBlock syncData d = msbBits 16 syncData ++ (stuff true 1 d ++ fillBits n p) ∧
    n = 4096 - (16 + (stuff true 1 d).length) := by
  refine ⟨_, _, List.append_assoc .., ?_⟩
  rw [List.length_append]
  rfl

theorem length_lineBlock {d : List Bool} (h : d.length = 3840) : (lineBlock syncData d).length = 4096 := by
  obtain ⟨n, p, e, hn⟩ := lineBlock_syncData d
  have hs := length_stuff_le d true 1 (by omega) (by omega)
  have h16 : (msbBits 16 syncData).length = 16 := by decide
  rw [e, List.length_append, List.length_append, length_fillBits, h16]
  omega

theorem blockRx_lineBlock (d : List Bool) : blockRx d.length (lineBlock syncData d) = .data d := by
  obtain ⟨n, p, e, -⟩ := lineBlock_syncData d
  have h16 : (msbBits 16 syncData).length = 16 := by decide
  rw [e, blockRx, List.take_left' h16, List.drop_left' h16, if_pos rfl]
  show (match destuff true 1 d.length (stuff true 1 d ++ fillBits n p) with
    | some d => BlockRx.data d
    | none => .badStuff) = _
  rw [destuff_stuff]

/-! ### Scrambling (R370) -/

theorem scramble_scramble (d : List Bool) : ∀ n, scramble n (scramble n d) = d := by
  induction d with
  | nil => intro n; rfl
  | cons b r ih => intro n; simp [scramble, ih]

/-! ### Numbers in network order (R10) -/

theorem length_leBytes (k : Nat) : ∀ n, (leBytes k n).length = k := by
  induction k with
  | zero => intro n; rfl
  | succ k ih => intro n; simp [leBytes, ih]

@[simp] theorem length_beBytes {k n : Nat} : (beBytes k n).length = k := by
  rw [beBytes, List.length_reverse, length_leBytes]

theorem leNat_leBytes (k : Nat) : ∀ n, leNat (leBytes k n) = n % 256 ^ k := by
  induction k with
  | zero => intro n; simp [leBytes, leNat, Nat.mod_one]
  | succ k ih =>
    intro n
    rw [leBytes, leNat, ih, BitVec.toNat_ofNat]
    rw [pow_succ' 256 k, Nat.mod_mul]

theorem beNat_beBytes {k n : Nat} (h : n < 256 ^ k) : beNat (beBytes k n) = n := by
  rw [beNat, beBytes, List.reverse_reverse, leNat_leBytes, Nat.mod_eq_of_lt h]

theorem leNat_append (a b : List Byte) : leNat (a ++ b) = leNat a + 256 ^ a.length * leNat b := by
  induction a with
  | nil => simp [leNat]
  | cons x r ih => simp only [List.cons_append, leNat, ih, List.length_cons, pow_succ]; ring

theorem beNat_append (a b : List Byte) : beNat (a ++ b) = beNat a * 256 ^ b.length + beNat b := by
  rw [beNat, List.reverse_append, leNat_append, List.length_reverse, beNat, beNat]
  ring

/-- The bytes of a list that stand behind `a` and before what follows. -/
theorem slice_append {a b c : List Byte} {o n : Nat} (ha : a.length = o) (hb : b.length = n) :
    slice (a ++ (b ++ c)) o n = b := by
  rw [slice, List.drop_left' ha, List.take_left' hb]

theorem beAt_append {a c : List Byte} {o k n : Nat} (ha : a.length = o) (hn : n < 256 ^ k) :
    beAt (a ++ (beBytes k n ++ c)) o k = n := by
  rw [beAt, slice_append ha length_beBytes, beNat_beBytes hn]

/-! ### CRCs stay in their width -/

theorem crcStep_lt {p c : Nat} (hp : p < 2 ^ 32) (hc : c < 2 ^ 32) : crcStep p c < 2 ^ 32 := by
  unfold crcStep
  split
  · exact Nat.xor_lt_two_pow (by omega) hp
  · omega

theorem crcFold_lt {p : Nat} (hp : p < 2 ^ 32) (l : List Byte) : ∀ c, c < 2 ^ 32 → crcFold p c l < 2 ^ 32 := by
  induction l with
  | nil => exact fun c hc => hc
  | cons b r ih =>
    intro c hc
    have hb : c ^^^ b.toNat < 2 ^ 32 := Nat.xor_lt_two_pow hc (by have := b.isLt; omega)
    exact ih _ (crcStep_lt hp (crcStep_lt hp (crcStep_lt hp (crcStep_lt hp (crcStep_lt hp (crcStep_lt hp (crcStep_lt hp
      (crcStep_lt hp hb))))))))

theorem crc32c_lt (l : List Byte) : crc32c l < 2 ^ 32 :=
  Nat.xor_lt_two_pow (crcFold_lt (by decide) l _ (by decide)) (by decide)

theorem crc16Step_lt {p c : Nat} (hp : p < 2 ^ 16) : crc16Step p c < 2 ^ 16 := by
  unfold crc16Step
  split
  · exact Nat.xor_lt_two_pow (Nat.mod_lt _ (by decide)) hp
  · exact Nat.mod_lt _ (by decide)

theorem crc16Fold_lt {p : Nat} (hp : p < 2 ^ 16) (l : List Byte) : ∀ c, c < 2 ^ 16 → crc16Fold p c l < 2 ^ 16 := by
  induction l with
  | nil => exact fun c hc => hc
  | cons b r ih => exact fun c _ => ih _ (crc16Step_lt hp)

/-! ### Messages (R376, R377) -/

theorem msgLens_bounds {c lo hi : Nat} (h : msgLens c = some (lo, hi)) : c < 7 ∧ hi ≤ 4096 := by
  unfold msgLens at h
  split at h <;> simp only [Option.some.injEq, Prod.mk.injEq, reduceCtorEq] at h <;> omega

theorem guyParse_guyMessage {c q lo hi : Nat} {b : List Byte} (h : msgLens c = some (lo, hi)) (hl : lo ≤ b.length)
    (hh : b.length ≤ hi) (hq : q < 2 ^ 32) : guyParse (guyMessage c q b) = some (c, q, b) := by
  obtain ⟨hc, h4⟩ := msgLens_bounds h
  let l := beBytes 1 (c * 16) ++ beBytes 1 0 ++ beBytes 2 b.length ++ beBytes 4 q ++ b
  have el : l.length = 8 + b.length := by simp [l]; omega
  have em : guyMessage c q b = l ++ (beBytes 4 (crc32c l) ++ []) := by simp [guyMessage, l]
  have h0 : beAt (guyMessage c q b) 0 1 = c * 16 := by
    rw [em]
    simp only [l, List.append_assoc]
    exact beAt_append (a := []) rfl (by omega)
  have h2 : beAt (guyMessage c q b) 2 2 = b.length := by
    rw [em]
    have := beAt_append (a := beBytes 1 (c * 16) ++ beBytes 1 0) (c := beBytes 4 q ++ (b ++ (beBytes 4 (crc32c l) ++ [])))
      (o := 2) (k := 2) (n := b.length) (by simp) (by omega)
    simpa only [l, List.append_assoc] using this
  have h4 : beAt (guyMessage c q b) 4 4 = q := by
    rw [em]
    have := beAt_append (a := beBytes 1 (c * 16) ++ beBytes 1 0 ++ beBytes 2 b.length)
      (c := b ++ (beBytes 4 (crc32c l) ++ [])) (o := 4) (k := 4) (n := q) (by simp) hq
    simpa only [l, List.append_assoc] using this
  have h8 : slice (guyMessage c q b) 8 b.length = b := by
    rw [em]
    have := slice_append (a := beBytes 1 (c * 16) ++ beBytes 1 0 ++ beBytes 2 b.length ++ beBytes 4 q) (b := b)
      (c := beBytes 4 (crc32c l) ++ []) (o := 8) (by simp) rfl
    simpa only [l, List.append_assoc] using this
  have hcrc : beAt (guyMessage c q b) (8 + b.length) 4 = crc32c l := by
    rw [em]
    exact beAt_append el (crc32c_lt l)
  have ht : (guyMessage c q b).take (8 + b.length) = l := by rw [em, List.take_left' el]
  have hm : (guyMessage c q b).length = b.length + 12 := by rw [em]; simp [el]; omega
  unfold guyParse
  simp only [h0, h2, h4, h8, hcrc, ht, Nat.mul_div_cancel _ (show 0 < 16 by decide), h]
  exact if_pos ⟨hl, hh, hm, trivial⟩

/-! ### The claim wire (R389, R390) -/

/-- The number of a claim-wire frame: SYNC, PAIR_ID, the claim and CHECK. -/
theorem toNat_wireFrame {p claim : Nat} (hp : p < 2 ^ 16) (hc : claim < 2 ^ 32) : ∃ k < 2 ^ 16,
    (wireFrame p claim).toNat = 0x2DD4 * 2 ^ 64 + (p * 2 ^ 32 + claim) * 2 ^ 16 + k := by
  refine ⟨_, crc16Fold_lt (p := 0x1021) (by decide) (beBytes 2 p ++ beBytes 4 claim) 0xFFFF (by decide), ?_⟩
  have hk := crc16Fold_lt (p := 0x1021) (by decide) (beBytes 2 p ++ beBytes 4 claim) 0xFFFF (by decide)
  have hb : beNat (beBytes 2 p ++ beBytes 4 claim) = p * 2 ^ 32 + claim := by
    rw [beNat_append, beNat_beBytes (by omega), beNat_beBytes (by omega), length_beBytes]
    norm_num
  unfold wireFrame
  rw [BitVec.toNat_ofNat, hb]
  generalize crc16Fold _ _ _ = k at *
  exact Nat.mod_eq_of_lt (by omega)

theorem wireFrame_inj {p q claim : Nat} (hp : p < 2 ^ 16) (hq : q < 2 ^ 16) (hc : claim < 2 ^ 32) :
    wireFrame p claim = wireFrame q claim ↔ q = p := by
  constructor
  · intro h
    obtain ⟨j, hj, ej⟩ := toNat_wireFrame hp hc
    obtain ⟨k, hk, ek⟩ := toNat_wireFrame hq hc
    rw [h, ek] at ej
    omega
  · rintro rfl
    rfl

theorem wireClaim_wireFrame {p q claim : Nat} (hp : p < 2 ^ 16) (hq : q < 2 ^ 16) (hc : claim < 2 ^ 32) :
    wireClaim q (wireFrame p claim) = if q = p then some claim else none := by
  obtain ⟨k, hk, e⟩ := toNat_wireFrame hp hc
  have h : (wireFrame p claim).toNat / 2 ^ 16 % 2 ^ 32 = claim := by rw [e]; omega
  unfold wireClaim
  rw [h, Nat.mod_eq_of_lt hq]
  simp only [wireFrame_inj hp hq hc]

/-- Settles O10. -/
theorem guylineCodes : Obligations.GuylineCodes :=
  ⟨fun d h => ⟨length_lineBlock h, h ▸ blockRx_lineBlock d⟩, fun n d => scramble_scramble d n,
    fun _ _ _ _ _ h hl hh hq => guyParse_guyMessage h hl hh hq, fun _ _ _ hp hq hc => wireClaim_wireFrame hp hq hc⟩

end Sys2Proof.Machine
end

section

/-! ## What registers hold after an update

Rules for `simp`, which follow how a state is made from the outside in: one for each update of a register, and one for each
operation that writes none but registers of its own. -/

set_option Elab.async false

namespace Sys2Proof.Machine.State

variable {s t : Machine.State} {a b : Nat} {f : Fld} {v : Word} {n : Nat}

/-- `simp` is not to work inside the state whose register it looks for. -/
@[congr] theorem reg_congr (h : a = b) : s.reg a = s.reg b := by rw [h]

@[simp] theorem reg_ite {c : Prop} [Decidable c] : (if c then s else t).reg a = if c then s.reg a else t.reg a :=
  apply_ite (reg · a) c s t

@[simp] theorem reg_setReg : (s.setReg a v).reg b = if b = a then v else s.reg b := by
  by_cases h : b = a
  · rw [h, reg_setReg_same, if_pos rfl]
  · rw [reg_setReg_ne s h, if_neg h]

@[simp] theorem reg_p : (s.p a f n).reg b = if b = a then f.put (s.reg a) n else s.reg b := reg_setReg
@[simp] theorem reg_pb {x : Bool} : (s.pb a f x).reg b = if b = a then f.put (s.reg a) (b2n x) else s.reg b := reg_setReg
@[simp] theorem reg_raw : (s.raw a f).reg b = if b = a then f.put (s.reg a) 1 else s.reg b := reg_setReg
@[simp] theorem reg_satAdd :
    (s.satAdd a f n).reg b = if b = a then f.put (s.reg a) (min (f.get (s.reg a) + n) (2 ^ f.w - 1)) else s.reg b :=
  reg_setReg
@[simp] theorem reg_inc :
    (s.inc a f).reg b = if b = a then f.put (s.reg a) (min (f.get (s.reg a) + 1) (2 ^ f.w - 1)) else s.reg b := reg_setReg
@[simp] theorem reg_setRegN : (s.setRegN a n).reg b = if b = a then BitVec.ofNat 32 n else s.reg b := reg_setReg
@[simp] theorem reg_setRegI {i : Int} : (s.setRegI a i).reg b = if b = a then BitVec.ofNat 32 (enc 32 i) else s.reg b :=
  reg_setReg
@[simp] theorem reg_orReg : (s.orReg a n).reg b = if b = a then s.reg a ||| BitVec.ofNat 32 n else s.reg b := reg_setReg
@[simp] theorem reg_setPair : (s.setPair a n).reg b =
    if b = a + 4 then BitVec.ofNat 32 (n / 2 ^ 32) else if b = a then BitVec.ofNat 32 n else s.reg b := by
  rw [setPair, reg_setReg, reg_setReg]
@[simp] theorem reg_setPairI {i : Int} : (s.setPairI a i).reg b =
    if b = a + 4 then BitVec.ofNat 32 (enc 64 i / 2 ^ 32) else if b = a then BitVec.ofNat 32 (enc 64 i) else s.reg b :=
  reg_setPair

@[simp] theorem reg_upd {dram pending rshadow wshadow w1done conds gated regClk coreClk8 out freeIdx hif tsc ref hld spr
      syn pts ptp fwd tdc guy rut boot} :
    (State.mk s.regs dram pending rshadow wshadow w1done conds gated regClk coreClk8 out freeIdx hif tsc ref hld spr syn
      pts ptp fwd tdc guy rut boot).reg a = s.reg a := rfl

@[simp] theorem reg_emit {o : Out} : (s.emit o).reg a = s.reg a := rfl
@[simp] theorem reg_drawn : s.drawn.reg a = s.reg a := rfl
@[simp] theorem reg_cond {x : Bool} : (s.cond b f x).reg a = s.reg a := rfl
@[simp] theorem reg_ungate {d : Dom} : (s.ungate d).reg a = s.reg a := rfl
@[simp] theorem reg_setTsc {x : Tsc} : (s.setTsc x).reg a = s.reg a := rfl
@[simp] theorem reg_setHld {x : Hld} : (s.setHld x).reg a = s.reg a := rfl
@[simp] theorem reg_setRef {x : RefSel} : (s.setRef x).reg a = s.reg a := rfl
@[simp] theorem reg_setSyn {x : Syn} : (s.setSyn x).reg a = s.reg a := rfl
@[simp] theorem reg_setPts {x : Pts} : (s.setPts n x).reg a = s.reg a := rfl
@[simp] theorem reg_setPtp {x : Ptp} : (s.setPtp x).reg a = s.reg a := rfl
@[simp] theorem reg_setFwd {x : Fwd} : (s.setFwd x).reg a = s.reg a := rfl
@[simp] theorem reg_setGuy {x : Guy} : (s.setGuy x).reg a = s.reg a := rfl
@[simp] theorem reg_setRut {x : Rut} : (s.setRut x).reg a = s.reg a := rfl
@[simp] theorem reg_setBootRec {x : Boot} : (s.setBootRec x).reg a = s.reg a := rfl

/-! ### Logging -/

@[simp] theorem reg_fire {d : Nat} : (s.fire n d).reg a = s.reg a := rfl
@[simp] theorem reg_pushRec {k : Nat} {w : Bool} {r : Rec} : (s.pushRec k w r).reg a = s.reg a := by
  unfold pushRec
  split <;> rfl
@[simp] theorem reg_record {w : Bool} {r : Rec} : (s.record w r).reg a = s.reg a := reg_pushRec
@[simp] theorem reg_note {k p w4 w5 w6 w7 : Nat} : (s.note k p w4 w5 w6 w7).reg a = s.reg a := reg_record

@[simp] theorem reg_pushFault {x : FaultRec} (h : a ≠ R.HIF_FQ_STATUS) (h' : a ≠ R.HIF_RAW) :
    (s.pushFault x).reg a = s.reg a := by
  unfold pushFault
  split <;> simp [h, h']

@[simp] theorem reg_fault {k c d p : Nat} (h : a ≠ R.HIF_FQ_STATUS) (h' : a ≠ R.HIF_RAW) :
    (s.fault k c d p).reg a = s.reg a := by
  unfold fault faultCore
  simp [h, h']

/-- A fault is queued while the queue has room (R59). -/
theorem mem_fq_fault {k c d p : Nat} (h : s.hif.fq.length < 32) :
    (⟨k, c, d % 2 ^ 16, p % 2 ^ 32, s.nowTick⟩ : FaultRec) ∈ (s.fault k c d p).hif.fq := by
  have hp (t : Machine.State) (x : Nat) (r : Rec) : (t.pushRec x true r).hif = t.hif := by
    unfold pushRec
    split <;> rfl
  have hq : (⟨k, c, d % 2 ^ 16, p % 2 ^ 32, s.nowTick⟩ : FaultRec) ∈
      (s.pushFault ⟨k, c, d % 2 ^ 16, p % 2 ^ 32, s.nowTick⟩).hif.fq := by
    unfold pushFault
    rw [if_pos h]
    exact List.mem_append_right _ (List.mem_singleton.2 rfl)
  unfold fault faultCore
  extract_lets full fires x r y
  have hy : y.hif = x.hif := hp x _ _
  split
  · show _ ∈ y.hif.fq
    rw [hy]
    exact hq
  · rw [hy]
    exact hq

end Sys2Proof.Machine.State

namespace Sys2Proof.Machine

variable {s t : State}

/-- A fault record that the effect of a command queues is there at its end. -/
theorem Logs.queued (L : Logs s t) {P : FaultRec → Prop} (h : ∃ f ∈ s.hif.fq, P f) : ∃ f ∈ t.hif.fq, P f := by
  obtain ⟨f, hf, hP⟩ := h
  exact ⟨f, L.fq.subset hf, hP⟩

theorem Logs.bootState (L : Logs s t) : t.bootState = s.bootState := L.g (by decide) _

end Sys2Proof.Machine
end

section

/-! ## Reset, the rails and a failure of the boot

A reset leaves what `State.toReset` names; a failure of the boot is `State.bootFail`. -/ 

set_option Elab.async false

namespace Sys2Proof.Machine

variable {A : Nat → Prop} {ps : List Part} {s t u : State}

/-! ### Reset and the rails (R13, R415 to R417) -/

theorem toReset_inReset : s.toReset.inReset = s.inReset := rfl

/-- A reset writes only the registers that it keeps, and of those it changes SYNCED alone. -/
theorem reg_toReset {a : Nat} : s.toReset.reg a =
    if a = R.HLD_EMB_STATUS then F.HLD_EMB_STATUS_SYNCED.put (s.reg R.HLD_EMB_STATUS) 0
    else if a ∈ keptRegs then s.reg a else regReset a := by
  have h0 : ({ State.reset with regs := [] } : State).reg a = regReset a := rfl
  show (((keptRegs.foldl (fun (t : State) a => t.setReg a (s.reg a)) { State.reset with regs := [] }).p
    R.HLD_EMB_STATUS F.HLD_EMB_STATUS_SYNCED 0).reg a) = _
  simp only [keptRegs, List.foldl, State.reg_p, State.reg_setReg, h0, List.mem_cons, List.not_mem_nil, or_false]
  split_ifs <;> simp_all

theorem toReset_parts : State.reset.sameParts s.toReset [.hif, .hld, .free, .boot] := by
  rw [sameParts_iff]
  simp [State.toReset]

theorem toReset_sameDram : s.sameDram s.toReset := fun _ => rfl

theorem quiet_out : ∃ l, s.quiet.out = l ++ [.wire 0#80] := ⟨_, rfl⟩

theorem toReset_out : s.toReset.out.getLast? = some (.wire 0#80) := by
  obtain ⟨l, e⟩ := quiet_out (s := s)
  show s.quiet.out.getLast? = _
  rw [e, List.getLast?_concat]

/-- What a cause of reset leaves: the state of a device in reset, with the cause latched (R415, R416). -/
structure HeldReset (s t : State) (cause : Fld) : Prop where
  inReset : t.inReset = true
  regs : ∀ a : Nat, a ∉ keptRegs → t.reg a = regReset a
  kept : ∀ a ∈ keptRegs, a ≠ R.BOOT_RESET_CAUSE → a ≠ R.HLD_EMB_STATUS → t.reg a = s.reg a
  ember : t.reg R.HLD_EMB_STATUS = F.HLD_EMB_STATUS_SYNCED.put (s.reg R.HLD_EMB_STATUS) 0
  out : s.out <+: t.out
  wire : t.out.getLast? = some (.wire 0#80)
  dram : s.sameDram t
  parts : State.reset.sameParts t [.hif, .hld, .free, .boot]
  pending : t.pending = s.pending
  cause : t.reg R.BOOT_RESET_CAUSE = cause.put (s.reg R.BOOT_RESET_CAUSE) 1

theorem heldReset_toReset {b : Boot} {f : Fld} (h : b.pinLow = true ∨ b.railBad = true) :
    HeldReset s (({ s with boot := b }.toReset).p R.BOOT_RESET_CAUSE f 1) f where
  inReset := by
    show (b.pinLow || b.railBad) = true
    simpa using h
  regs a ha := by
    have h1 : a ≠ R.BOOT_RESET_CAUSE := fun e => ha (by simp [e, keptRegs])
    have h2 : a ≠ R.HLD_EMB_STATUS := fun e => ha (by simp [e, keptRegs])
    rw [State.reg_p, if_neg h1, reg_toReset, if_neg h2, if_neg ha]
  kept a ha h1 h2 := by
    rw [State.reg_p, if_neg h1, reg_toReset, if_neg h2, if_pos ha]
    rfl
  ember := by
    rw [State.reg_p, if_neg (by decide), reg_toReset, if_pos rfl]
    rfl
  out := (Still.refl { s with boot := b }).quiet.out
  wire := toReset_out (s := { s with boot := b })
  dram a := rfl
  parts := sameParts_setReg toReset_parts
  pending := rfl
  cause := by
    rw [State.reg_p, if_pos rfl, reg_toReset, if_neg (by decide), if_pos (by decide)]
    rfl

/-- Settles O13. -/
theorem resetAndRails : Obligations.ResetAndRails := by
  refine ⟨fun s => ?_, fun s r => ?_, fun s k hp hr => ?_, fun s hp => ?_⟩
  · have H : HeldReset s s.resetAssert _ := heldReset_toReset (.inl rfl)
    exact ⟨_, doneAlways_inReset H.inReset, H.inReset, H.regs, H.kept, H.ember, H.out, H.wire, H.dram, H.parts, H.pending,
      rfl, H.cause⟩
  · have H : HeldReset s (s.railFault r) _ := heldReset_toReset (.inr rfl)
    exact ⟨_, doneAlways_inReset H.inReset, H.inReset, H.regs, H.kept, H.ember, H.out, H.wire, H.dram, H.parts, H.pending,
      rfl, H.cause⟩
  · have e : s.resetRelease k = { s with boot := { s.boot with pinLow := false }, hif := { s.hif with i2cStrap := k.val % 4 } } :=
      if_pos hp
    have hi : (s.resetRelease k).inReset = false := by rw [e]; exact hr
    have L := (Logs.refl (s.resetRelease k)).endClock (s := s)
    have F : Changes (· ∈ []) [.hif, .boot] s (s.resetRelease k) := by rw [e]; simp
    refine ⟨_, doneAlways_next hi, ?_, ?_, L.bootState.trans ?_, L.boot.trans ?_, (F.logs L).sameBut, (F.logs L).parts⟩
    · unfold State.inReset
      rw [L.boot]
      exact hi
    · rw [L.hif, e]
      exact Nat.mod_eq_of_lt k.isLt
    · rw [e]; rfl
    · rw [e]
  · have e : s.railRecovery = { s with boot := { s.boot with railBad := false } } := if_pos hp
    have F : Changes (· ∈ []) [.boot] s s.railRecovery := by rw [e]; simp
    by_cases hi : s.railRecovery.inReset = true
    · refine ⟨_, doneAlways_inReset hi, by rw [e], fun h => ?_, F.sameBut, F.parts⟩
      rw [e]
      simpa [State.inReset] using h
    · rw [Bool.not_eq_true] at hi
      have L := (Logs.refl s.railRecovery).endClock (s := s)
      refine ⟨_, doneAlways_next hi, by rw [L.boot, e], fun h => ?_, (F.logs L).sameBut, (F.logs L).parts⟩
      unfold State.inReset
      rw [L.boot]
      exact hi

/-! ### A failure of the boot (R417, R431, R438) -/

@[simp] theorem bootState_bootFail {r i o : Nat} : (t.bootFail r i o).bootState = bootFailed := by
  simp [State.bootFail, State.bootState, State.g, State.setBoot, Fld.get_put, bootFailed]

theorem reason_bootFail {r i o : Nat} (h : r < 256) :
    (t.bootFail r i o).g R.BOOT_STATUS F.BOOT_STATUS_REASON = r := by
  simp [State.bootFail, State.g, State.setBoot, Fld.get_put, Fld.get_put_ne]
  omega

theorem section_bootFail {r i o : Nat} (h : i < 4096) :
    (t.bootFail r i o).g R.BOOT_STATUS F.BOOT_STATUS_SECTION = i := by
  simp [State.bootFail, State.g, State.setBoot, Fld.get_put, Fld.get_put_ne]
  omega

theorem applied_bootFail {r i o : Nat} : (t.bootFail r i o).g R.BOOT_STATUS F.BOOT_STATUS_APPLIED =
    t.g R.BOOT_STATUS F.BOOT_STATUS_APPLIED := by
  simp [State.bootFail, State.g, State.setBoot, Fld.get_put_ne]

theorem offset_bootFail {r i o : Nat} : (t.bootFail r i o).reg R.BOOT_FAIL_OFFSET = BitVec.ofNat 32 o := by
  simp [State.bootFail, State.setBoot]

theorem reg_bootFail {r i o a : Nat} (h : a ≠ R.BOOT_STATUS) (h' : a ≠ R.BOOT_FAIL_OFFSET) (ha : sharedReg a = false) :
    (t.bootFail r i o).reg a = t.reg a := by
  have h1 : a ≠ R.BOOT_RAW := fun e => by rw [e] at ha; exact absurd ha (by decide)
  have h2 : a ≠ R.HIF_FQ_STATUS := fun e => by rw [e] at ha; exact absurd ha (by decide)
  have h3 : a ≠ R.HIF_RAW := fun e => by rw [e] at ha; exact absurd ha (by decide)
  simp [State.bootFail, State.setBoot, *]

theorem isSet_bootFail {r i o : Nat} : (t.bootFail r i o).isSet R.BOOT_RAW F.BOOT_RAW_FAIL := by
  simp [State.bootFail, State.isSet, State.g, Fld.get_put]

theorem queued_bootFail {r i o : Nat} (h : t.hif.fq.length < 32) :
    ∃ f ∈ (t.bootFail r i o).hif.fq, f.block = 1 ∧ f.code = 1 :=
  ⟨_, State.mem_fq_fault h, rfl, rfl⟩

@[simp] theorem Changes.bootFail_iff {r i o : Nat} (h : A R.BOOT_STATUS) (h' : A R.BOOT_FAIL_OFFSET) (hp : .boot ∈ ps) :
    Changes A ps s (t.bootFail r i o) ↔ Changes A ps s t := by
  unfold State.bootFail State.setBoot
  simp [h, h', hp, rawBlock]

/-- The boot has failed with its reason, section and offset, its event and, room in the queue given, a fault record. -/
structure BootFailed (s t : State) (r i o : Nat) : Prop where
  state : t.bootState = bootFailed
  reason : t.g R.BOOT_STATUS F.BOOT_STATUS_REASON = r
  sect : t.g R.BOOT_STATUS F.BOOT_STATUS_SECTION = i
  offset : t.reg R.BOOT_FAIL_OFFSET = BitVec.ofNat 32 o
  raw : t.isSet R.BOOT_RAW F.BOOT_RAW_FAIL
  fault : s.hif.fq.length < 32 → ∃ f ∈ t.hif.fq, f.block = 1 ∧ f.code = 1

theorem bootFailed_of_logs {r i o : Nat} (hr : r < 256) (hi : i < 4096) (hq : t.hif = s.hif)
    (L : Logs (t.bootFail r i o) u) : BootFailed s u r i o where
  state := L.bootState.trans bootState_bootFail
  reason := (L.g (by decide) _).trans (reason_bootFail hr)
  sect := (L.g (by decide) _).trans (section_bootFail hi)
  offset := (L.reg _ (by decide)).trans offset_bootFail
  raw := L.isSet (by decide) (by decide) rfl isSet_bootFail
  fault h := L.queued (queued_bootFail (by rw [hq]; exact h))

end Sys2Proof.Machine
end

section

/-! ## What forwarding holds stays in range

`State.ranged` is `fwdOk`, said of the forwarding part of the state alone. Every operation keeps it: those that do not touch
what it speaks of by a rewriting rule, in the order in which the model defines them, and those that add, replace or remove
a frame or a copy by what they put in. -/

set_option Elab.async false

namespace Sys2Proof.Machine

/-! ### Tables -/

theorem Tbl.mem_of_mem_drop {α : Type} {k : Nat} {t : Tbl α} {p : Nat × α} (h : p ∈ Tbl.drop k t) : p ∈ t := by
  induction t with
  | nil => exact h
  | cons q r ih =>
    unfold Tbl.drop at h
    split at h
    · exact List.mem_cons_of_mem _ (ih h)
    · rcases List.mem_cons.1 h with rfl | h
      · exact List.mem_cons_self ..
      · exact List.mem_cons_of_mem _ (ih h)

theorem Tbl.mem_ins {α : Type} {k : Nat} {v : α} {t : Tbl α} {p : Nat × α} (h : p ∈ Tbl.ins k v t) :
    p = (k, v) ∨ p ∈ t := by
  induction t with
  | nil => simpa [Tbl.ins] using h
  | cons q r ih =>
    unfold Tbl.ins at h
    split at h
    · simpa using h
    · rcases List.mem_cons.1 h with rfl | h
      · exact .inr (List.mem_cons_self ..)
      · exact (ih h).imp_right (List.mem_cons_of_mem _)

/-- An entry of a table after a write was there before, or is the one written. -/
theorem Tbl.mem_set {α : Type} [DecidableEq α] {d v : α} {k : Nat} {t : Tbl α} {p : Nat × α} (h : p ∈ Tbl.set d t k v) :
    (v ≠ d ∧ p = (k, v)) ∨ p ∈ t := by
  unfold Tbl.set at h
  split at h
  · exact .inr (Tbl.mem_of_mem_drop h)
  · next hv => exact (Tbl.mem_ins h).imp (fun e => ⟨hv, e⟩) Tbl.mem_of_mem_drop

/-- What a table answers is its default, or stands in it. -/
theorem Tbl.get_mem {α : Type} (d : α) (t : Tbl α) (k : Nat) : Tbl.get d t k = d ∨ (k, Tbl.get d t k) ∈ t := by
  induction t with
  | nil => exact .inl rfl
  | cons q r ih =>
    unfold Tbl.get
    split
    · next h => exact .inr (by rw [h]; exact List.mem_cons_self ..)
    · exact ih.imp_right (List.mem_cons_of_mem _)

/-! ### The range of a lookup's result, a frame and a copy -/

/-- The class, the flow context and the destinations of a lookup's result are in range. -/
def Looked.Ranged (l : Looked) : Prop := l.cls < 8 ∧ l.fc.getD 0 < 16384 ∧ ∀ n ∈ l.dests, n < 25

/-- The ports, the priority and the lookup's result of a frame are in range. -/
def Frame.Ranged (f : Frame) : Prop :=
  f.port < 25 ∧ f.prio < 8 ∧ (∀ n ∈ f.toPlace, n < 24) ∧ ∀ l ∈ f.look, l.Ranged

/-- A waiting copy is for a port and a class, and lies in their queue. -/
def QCopy.Ranged (c : QCopy) (q : Nat) : Prop := c.port < 25 ∧ c.cls < 8 ∧ c.queue = q

/-- What forwarding holds is in range. -/
structure Fwd.Ranged (x : Fwd) : Prop where
  nodup : (x.frames.map (fun f => f.id)).Nodup
  frames : ∀ f ∈ x.frames, f.id < x.nextId ∧ f.Ranged
  queues : ∀ p ∈ x.queues, ∀ c ∈ p.2, c.Ranged p.1
  cals : ∀ p ∈ x.cals, p.1 < 24 ∧ ∀ c ∈ p.2, c.port = p.1
  passes : ∀ p ∈ x.passes, p.1 < 24 ∧ ∀ c ∈ p.2, c.port = p.1
  sending : ∀ p ∈ x.sending, p.1 < 24 ∧ ∀ x ∈ p.2, x.copy.port = p.1 ∧ x.copy.cls < 8

namespace State

variable {s t : State}

/-- `fwdOk`, of the forwarding part alone. -/
def ranged (s : State) : Prop := s.fwd.Ranged

theorem fwdOk_iff_ranged : s.fwdOk ↔ s.ranged :=
  ⟨fun ⟨h1, h2, h3, h4, h5, h6⟩ => ⟨h1, h2, h3, h4, h5, h6⟩, fun ⟨h1, h2, h3, h4, h5, h6⟩ => ⟨h1, h2, h3, h4, h5, h6⟩⟩

/-- `simp` is not to work inside the state: the rules below follow how it is made. -/
@[congr] theorem ranged_congr (s : State) : s.ranged = s.ranged := rfl

theorem ranged_of_fwd (h : t.fwd = s.fwd) : t.ranged = s.ranged := congrArg Fwd.Ranged h

@[simp] theorem ranged_upd {regs dram pending rshadow wshadow w1done conds gated regClk coreClk8 out freeIdx hif tsc ref hld
      spr syn pts ptp fwd tdc guy rut boot} :
    (State.mk regs dram pending rshadow wshadow w1done conds gated regClk coreClk8 out freeIdx hif tsc ref hld spr syn
      pts ptp fwd tdc guy rut boot).ranged = fwd.Ranged := congrArg Fwd.Ranged rfl

@[simp] theorem ranged_fwd : s.fwd.Ranged = s.ranged := congrArg Fwd.Ranged rfl

/-- Only what `ranged` speaks of matters. -/
theorem ranged_of_eq (h : s.ranged) (e : (t.fwd.frames, t.fwd.nextId, t.fwd.queues, t.fwd.cals, t.fwd.passes, t.fwd.sending) =
    (s.fwd.frames, s.fwd.nextId, s.fwd.queues, s.fwd.cals, s.fwd.passes, s.fwd.sending)) : t.ranged := by
  simp only [Prod.mk.injEq] at e
  obtain ⟨e1, e2, e3, e4, e5, e6⟩ := e
  exact ⟨by rw [e1]; exact h.1, by rw [e1, e2]; exact h.2, by rw [e3]; exact h.3, by rw [e4]; exact h.4, by rw [e5]; exact h.5,
    by rw [e6]; exact h.6⟩

/-- The parts of forwarding that `ranged` does not speak of do not matter. -/
@[simp] theorem ranged_fwd_upd {x : Fwd} {stalled stallOn prioX pfcSent fe fc tokens drain lagEmpty refused tagBad line lineEnd
      breach calFull} :
    (Fwd.mk x.frames x.nextId x.queues x.cals x.passes x.sending stalled stallOn prioX pfcSent fe fc tokens drain lagEmpty
      refused tagBad line lineEnd breach calFull).Ranged = x.Ranged :=
  propext ⟨fun ⟨h1, h2, h3, h4, h5, h6⟩ => ⟨h1, h2, h3, h4, h5, h6⟩, fun ⟨h1, h2, h3, h4, h5, h6⟩ => ⟨h1, h2, h3, h4, h5, h6⟩⟩

@[simp] theorem ranged_ite {c : Prop} [Decidable c] : (if c then s else t).ranged = if c then s.ranged else t.ranged :=
  apply_ite ranged c s t

@[simp] theorem ranged_ite_fst {α : Type} {c : Prop} [Decidable c] {p q : State × α} :
    (if c then p else q).1.ranged = if c then p.1.ranged else q.1.ranged := apply_ite (fun x => x.1.ranged) c p q

theorem ranged_ofFst {α : Type} {p : State × α} {b : α} (e : p = (t, b)) (h : p.1.ranged = s.ranged) :
    t.ranged = s.ranged := by
  rw [e] at h
  exact h

@[simp] theorem ranged_foldl {α : Type} {f : State → α → State} {l : List α}
    (hf : ∀ t x, (f t x).ranged = t.ranged) : (l.foldl f s).ranged = s.ranged := by
  induction l generalizing s with
  | nil => rfl
  | cons x r ih => exact ih.trans (hf s x)

@[simp] theorem ranged_foldl_fst {α β : Type} {f : State × β → α → State × β} {p : State × β}
    {l : List α} (hf : ∀ p x, (f p x).1.ranged = p.1.ranged) : (l.foldl f p).1.ranged = p.1.ranged := by
  induction l generalizing p with
  | nil => rfl
  | cons x r ih => exact ih.trans (hf p x)

/-- A fold of steps that keep the range keeps it. -/
theorem ranged_foldl_of {α : Type} {f : State → α → State} {l : List α} (h : s.ranged)
    (hf : ∀ t, t.ranged → ∀ x ∈ l, (f t x).ranged) : (l.foldl f s).ranged := by
  induction l generalizing s with
  | nil => exact h
  | cons x r ih =>
    exact ih (hf s h x (List.mem_cons_self ..)) fun t ht y hy => hf t ht y (List.mem_cons_of_mem _ hy)

@[simp] theorem ranged_setReg {a v} : (s.setReg a v).ranged = s.ranged := ranged_of_fwd rfl
@[simp] theorem ranged_p {a f v} : (s.p a f v).ranged = s.ranged := ranged_of_fwd rfl
@[simp] theorem ranged_pb {a f b} : (s.pb a f b).ranged = s.ranged := ranged_of_fwd rfl
@[simp] theorem ranged_satAdd {a f n} : (s.satAdd a f n).ranged = s.ranged := ranged_of_fwd rfl
@[simp] theorem ranged_inc {a f} : (s.inc a f).ranged = s.ranged := ranged_of_fwd rfl
@[simp] theorem ranged_raw {a f} : (s.raw a f).ranged = s.ranged := ranged_of_fwd rfl
@[simp] theorem ranged_setRegN {a n} : (s.setRegN a n).ranged = s.ranged := ranged_of_fwd rfl
@[simp] theorem ranged_setRegI {a i} : (s.setRegI a i).ranged = s.ranged := ranged_of_fwd rfl
@[simp] theorem ranged_orReg {a m} : (s.orReg a m).ranged = s.ranged := ranged_of_fwd rfl
@[simp] theorem ranged_setPair {a n} : (s.setPair a n).ranged = s.ranged := ranged_of_fwd rfl
@[simp] theorem ranged_setPairI {a i} : (s.setPairI a i).ranged = s.ranged := ranged_of_fwd rfl

theorem ranged_of_logs (h : Logs s t) : t.ranged = s.ranged := congrArg Fwd.Ranged h.fwd

end State

end Sys2Proof.Machine
end

section

/-! ## Forwarding in range: operations that add no frame and no copy -/

set_option Elab.async false

namespace Sys2Proof.Machine.State

variable {s t : State}

/-! ### Bytes, conditions and outputs -/
@[simp] theorem ranged_dramWrite {a l} : (s.dramWrite a l).ranged = s.ranged := by
  induction l generalizing s a with
  | nil => rfl
  | cons b r ih => exact ih
@[simp] theorem ranged_drawn : s.drawn.ranged = s.ranged := by unfold drawn; simp
@[simp] theorem ranged_cond {a f b} : (s.cond a f b).ranged = s.ranged := by unfold cond; simp
/-! ### Logging and counting -/
@[simp] theorem ranged_emit {o} : (s.emit o).ranged = s.ranged := ranged_of_logs (.emit (.refl s))
@[simp] theorem ranged_signal {v} : (s.signal v).ranged = s.ranged := ranged_of_logs (.signal (.refl s))
@[simp] theorem ranged_setFifo {l} : (s.setFifo l).ranged = s.ranged := ranged_of_logs (.setFifo (.refl s))
@[simp] theorem ranged_pushRec {k a r} : (s.pushRec k a r).ranged = s.ranged := ranged_of_logs (.pushRec (.refl s))
@[simp] theorem ranged_fire {n d} : (s.fire n d).ranged = s.ranged := ranged_of_logs (.fire (.refl s))
@[simp] theorem ranged_record {a r} : (s.record a r).ranged = s.ranged := ranged_of_logs (.record (.refl s))
@[simp] theorem ranged_note {t a b c d e} : (s.note t a b c d e).ranged = s.ranged := ranged_of_logs (.note (.refl s))
@[simp] theorem ranged_fault {b c d p} : (s.fault b c d p).ranged = s.ranged := ranged_of_logs (.fault (.refl s))
@[simp] theorem ranged_clockRecs : s.clockRecs.ranged = s.ranged := ranged_of_logs (.clockRecs (.refl s))
@[simp] theorem ranged_endClock : (endClock s t).ranged = t.ranged := ranged_of_logs (.endClock (.refl t))
@[simp] theorem ranged_pmcAdd {g j n} : (s.pmcAdd g j n).ranged = s.ranged := by unfold pmcAdd; simp
@[simp] theorem ranged_pmc {g c n} : (s.pmc g c n).ranged = s.ranged := by unfold pmc; simp
/-! ### The timescale, holdover, reference and synthesis blocks -/
@[simp] theorem ranged_setTsc {x} : (s.setTsc x).ranged = s.ranged := by unfold setTsc; simp
@[simp] theorem ranged_supplyRate {r} : (s.supplyRate r).ranged = s.ranged := by unfold supplyRate; simp
@[simp] theorem ranged_supplyHostRate : s.supplyHostRate.ranged = s.ranged := by unfold supplyHostRate; simp
@[simp] theorem ranged_tscFault {code detail param} : (s.tscFault code detail param).ranged = s.ranged := by
  unfold tscFault; simp
@[simp] theorem ranged_fenceCopy {i} : (s.fenceCopy i).ranged = s.ranged := by unfold fenceCopy; simp
@[simp] theorem ranged_tripod {kind copy mask w4} : (s.tripod kind copy mask w4).ranged = s.ranged := by
  unfold tripod; simp
@[simp] theorem ranged_disagree {i} : (s.disagree i).ranged = s.ranged := by unfold disagree; simp
@[simp] theorem ranged_noMajority {l e} : (s.noMajority l e).ranged = s.ranged := by unfold noMajority; simp
@[simp] theorem ranged_mismatch {bad} : (s.mismatch bad).ranged = s.ranged := by unfold mismatch; simp
@[simp] theorem ranged_setVoted {v} : (s.setVoted v).ranged = s.ranged := by unfold setVoted; simp
@[simp] theorem ranged_vote {e} : (s.vote e).ranged = s.ranged := by
  unfold vote
  simp only [ranged_ite]
  (repeat' split) <;> simp
@[simp] theorem ranged_rejoinCopies : s.rejoinCopies.ranged = s.ranged := by unfold rejoinCopies; simp
@[simp] theorem ranged_reloadCopies : s.reloadCopies.ranged = s.ranged := by unfold reloadCopies; simp
@[simp] theorem ranged_formTick {n adv carried u0 u1 u2} : (s.formTick n adv carried u0 u1 u2).ranged = s.ranged := by
  unfold formTick; simp
@[simp] theorem ranged_tickWith {u0 u1 u2} : (s.tickWith u0 u1 u2).ranged = s.ranged := by unfold tickWith; simp
@[simp] theorem ranged_timeQuality {second} : (s.timeQuality second).ranged = s.ranged := by unfold timeQuality; simp
@[simp] theorem ranged_secondEvent : s.secondEvent.ranged = s.ranged := by unfold secondEvent; simp
@[simp] theorem ranged_refuseStep : s.refuseStep.ranged = s.ranged := by unfold refuseStep; simp
@[simp] theorem ranged_setHost {h} : (s.setHost h).ranged = s.ranged := by unfold setHost; simp
@[simp] theorem ranged_phaseRec {src cancel before after amount far} :
    (s.phaseRec src cancel before after amount far).ranged = s.ranged := by
  unfold phaseRec; simp
@[simp] theorem ranged_segUp : s.segUp.ranged = s.ranged := by unfold segUp; simp
@[simp] theorem ranged_cancelStep : s.cancelStep.ranged = s.ranged := by
  unfold cancelStep
  split <;> simp
@[simp] theorem ranged_storeSet {x} : (s.storeSet x).ranged = s.ranged := by unfold storeSet; simp
@[simp] theorem ranged_requestStep : s.requestStep.ranged = s.ranged := by
  unfold requestStep
  simp only [ranged_ite]
  (repeat' split) <;> simp
@[simp] theorem ranged_stepCtrlAct {v} : (s.stepCtrlAct v).ranged = s.ranged := by unfold stepCtrlAct; simp
@[simp] theorem ranged_internalStep {code st} : (s.internalStep code st).ranged = s.ranged := by
  unfold internalStep; simp
@[simp] theorem ranged_applyRel {code amount} : (s.applyRel code amount).ranged = s.ranged := by
  unfold applyRel
  extract_lets before t s₁ syn s₂ s₃ s₄
  have h : s₂.ranged = s₁.ranged := ranged_upd
  clear_value s₂
  simp [s₄, s₃, h, s₁]
@[simp] theorem ranged_applySet {code v} : (s.applySet code v).ranged = s.ranged := by
  unfold applySet
  extract_lets old t s₁ syn s₂ s₃ d s₄ s₅
  have h : s₂.ranged = s₁.ranged := ranged_upd
  clear_value s₂ d
  simp [s₅, s₄, s₃, h, s₁]
@[simp] theorem ranged_accOffset {amount} : (s.accOffset amount).ranged = s.ranged := by unfold accOffset; simp
@[simp] theorem ranged_applyHost {h} : (s.applyHost h).ranged = s.ranged := by
  unfold applyHost
  split <;> simp
@[simp] theorem ranged_applySteps : s.applySteps.ranged = s.ranged := by
  unfold applySteps
  simp only [ranged_ite]
  (repeat' split) <;> simp
@[simp] theorem ranged_clearSuspect : s.clearSuspect.ranged = s.ranged := by unfold clearSuspect; simp
@[simp] theorem ranged_restoreCopies {m} : (s.restoreCopies m).ranged = s.ranged := by unfold restoreCopies; simp
@[simp] theorem ranged_fenceCopies {m} : (s.fenceCopies m).ranged = s.ranged := by unfold fenceCopies; simp
@[simp] theorem ranged_tripodCtrlAct {v} : (s.tripodCtrlAct v).ranged = s.ranged := by unfold tripodCtrlAct; simp
@[simp] theorem ranged_injectAct {v} : (s.injectAct v).ranged = s.ranged := by unfold injectAct; simp
@[simp] theorem ranged_setHld {h} : (s.setHld h).ranged = s.ranged := by unfold setHld; simp
@[simp] theorem ranged_steerTick : s.steerTick.ranged = s.ranged := by unfold steerTick; simp
@[simp] theorem ranged_fixAnchor : s.fixAnchor.ranged = s.ranged := by unfold fixAnchor; simp
@[simp] theorem ranged_breakFit : s.breakFit.ranged = s.ranged := by unfold breakFit; simp
@[simp] theorem ranged_holdRec {kind} : (s.holdRec kind).ranged = s.ranged := by unfold holdRec; simp
@[simp] theorem ranged_beginEpisode : s.beginEpisode.ranged = s.ranged := by unfold beginEpisode; simp
@[simp] theorem ranged_endEpisode : s.endEpisode.ranged = s.ranged := by unfold endEpisode; simp
@[simp] theorem ranged_storeErr {offset} : (s.storeErr offset).ranged = s.ranged := by unfold storeErr; simp
@[simp] theorem ranged_showTempOut : s.showTempOut.ranged = s.ranged := by unfold showTempOut; simp
@[simp] theorem ranged_refreshModelQual : s.refreshModelQual.ranged = s.ranged := by unfold refreshModelQual; simp
@[simp] theorem ranged_setRing {l} : (s.setRing l).ranged = s.ranged := by unfold setRing; simp
@[simp] theorem ranged_setBin {b c count} : (s.setBin b c count).ranged = s.ranged := by unfold setBin; simp
@[simp] theorem ranged_learnTable {x} : (s.learnTable x).ranged = s.ranged := by unfold learnTable; simp
@[simp] theorem ranged_refit : s.refit.ranged = s.ranged := by
  unfold refit
  dsimp only
  (repeat' split) <;> simp
@[simp] theorem ranged_nextFit : s.nextFit.ranged = s.ranged := by unfold nextFit; simp
@[simp] theorem ranged_fitSample {y theta} : (s.fitSample y theta).ranged = s.ranged := by unfold fitSample; simp
@[simp] theorem ranged_fitEnd : s.fitEnd.ranged = s.ranged := by unfold fitEnd; simp
@[simp] theorem ranged_hldSeconds {k} : (s.hldSeconds k).ranged = s.ranged := by unfold hldSeconds; simp
@[simp] theorem ranged_endSecond : s.endSecond.ranged = s.ranged := by unfold endSecond; simp
@[simp] theorem ranged_modelEval : s.modelEval.ranged = s.ranged := by unfold modelEval; simp
@[simp] theorem ranged_loadModel : s.loadModel.ranged = s.ranged := by unfold loadModel; simp
@[simp] theorem ranged_clearTable : s.clearTable.ranged = s.ranged := by unfold clearTable; simp
@[simp] theorem ranged_clearModel : s.clearModel.ranged = s.ranged := by unfold clearModel; simp
@[simp] theorem ranged_hldCtrlAct {old v} : (s.hldCtrlAct old v).ranged = s.ranged := by unfold hldCtrlAct; simp
@[simp] theorem ranged_tempAxisAct {old} : (s.tempAxisAct old).ranged = s.ranged := by unfold tempAxisAct; simp
@[simp] theorem ranged_loseQual {reason} : (s.loseQual reason).ranged = s.ranged := by unfold loseQual; simp
@[simp] theorem ranged_setEmberTime {sec cyc} : (s.setEmberTime sec cyc).ranged = s.ranged := by
  unfold setEmberTime; simp
@[simp] theorem ranged_emberFlag {f b} : (s.emberFlag f b).ranged = s.ranged := by unfold emberFlag; simp
@[simp] theorem ranged_trimUpdate {count} : (s.trimUpdate count).ranged = s.ranged := by unfold trimUpdate; simp
@[simp] theorem ranged_resync : s.resync.ranged = s.ranged := by unfold resync; simp
@[simp] theorem ranged_embCtrlAct {v} : (s.embCtrlAct v).ranged = s.ranged := by unfold embCtrlAct; simp
@[simp] theorem ranged_emberLost : s.emberLost.ranged = s.ranged := by unfold emberLost; simp
@[simp] theorem ranged_emberCold : s.emberCold.ranged = s.ranged := by unfold emberCold; simp
@[simp] theorem ranged_xtalStop : s.xtalStop.ranged = s.ranged := by unfold xtalStop; simp
@[simp] theorem ranged_seedSet {v} : (s.seedSet v).ranged = s.ranged := by unfold seedSet; simp
@[simp] theorem ranged_seed : s.seed.ranged = s.ranged := by unfold seed; simp
@[simp] theorem ranged_setRef {r} : (s.setRef r).ranged = s.ranged := by unfold setRef; simp
@[simp] theorem ranged_setCand {k c} : (s.setCand k c).ranged = s.ranged := by unfold setCand; simp
@[simp] theorem ranged_setRefIn {n x} : (s.setRefIn n x).ranged = s.ranged := by unfold setRefIn; simp
@[simp] theorem ranged_showCand {k} : (s.showCand k).ranged = s.ranged := by unfold showCand; simp
@[simp] theorem ranged_selRec {before event cand w5} : (s.selRec before event cand w5).ranged = s.ranged := by
  unfold selRec; simp
@[simp] theorem ranged_wtrReset {k} : (s.wtrReset k).ranged = s.ranged := by unfold wtrReset; simp
@[simp] theorem ranged_judge {k} : (s.judge k).ranged = s.ranged := by unfold judge; simp
@[simp] theorem ranged_judgeAll : s.judgeAll.ranged = s.ranged := by unfold judgeAll; simp
@[simp] theorem ranged_afterModel {u} : (s.afterModel u).ranged = s.ranged := by unfold afterModel; simp
@[simp] theorem ranged_holdoffExpiry {k} : (s.holdoffExpiry k).ranged = s.ranged := by unfold holdoffExpiry; simp
@[simp] theorem ranged_formReady : s.formReady.ranged = s.ranged := by unfold formReady; simp
@[simp] theorem ranged_oscMismatch {khz} : (s.oscMismatch khz).ranged = s.ranged := by unfold oscMismatch; simp
@[simp] theorem ranged_oscOk : s.oscOk.ranged = s.ranged := by unfold oscOk; simp
@[simp] theorem ranged_refreshJudging : s.refreshJudging.ranged = s.ranged := by unfold refreshJudging; simp
@[simp] theorem ranged_judgeWarm {byTimeout} : (s.judgeWarm byTimeout).ranged = s.ranged := by unfold judgeWarm; simp
@[simp] theorem ranged_warmGate {y} : (s.warmGate y).ranged = s.ranged := by
  unfold warmGate
  dsimp only
  (repeat' split) <;> simp
@[simp] theorem ranged_warmTimeout : s.warmTimeout.ranged = s.ranged := by unfold warmTimeout; simp
@[simp] theorem ranged_oscWarm {b} : (s.oscWarm b).ranged = s.ranged := by unfold oscWarm; simp
@[simp] theorem ranged_offsetSeen {k off} : (s.offsetSeen k off).ranged = s.ranged := by unfold offsetSeen; simp
@[simp] theorem ranged_refLost {n now} : (s.refLost n now).ranged = s.ranged := by unfold refLost; simp
@[simp] theorem ranged_refKept {n now ahead} : (s.refKept n now ahead).ranged = s.ranged := by
  unfold refKept
  dsimp only
  (repeat' split) <;> simp
@[simp] theorem ranged_refEdge {n ahead} : (s.refEdge n ahead).ranged = s.ranged := by unfold refEdge; simp
@[simp] theorem ranged_refStuck {n} : (s.refStuck n).ranged = s.ranged := by unfold refStuck; simp
@[simp] theorem ranged_refOverrun {n} : (s.refOverrun n).ranged = s.ranged := by unfold refOverrun; simp
@[simp] theorem ranged_refRearm {m} : (s.refRearm m).ranged = s.ranged := by unfold refRearm; simp
@[simp] theorem ranged_clearEdges {n} : (s.clearEdges n).ranged = s.ranged := by unfold clearEdges; simp
@[simp] theorem ranged_activity {k pass} : (s.activity k pass).ranged = s.ranged := by unfold activity; simp
@[simp] theorem ranged_freqGate {k y} : (s.freqGate k y).ranged = s.ranged := by unfold freqGate; simp
@[simp] theorem ranged_setBarred {k b} : (s.setBarred k b).ranged = s.ranged := by unfold setBarred; simp
@[simp] theorem ranged_setPortQl {n q} : (s.setPortQl n q).ranged = s.ranged := by unfold setPortQl; simp
@[simp] theorem ranged_sendEsmc {n event} : (s.sendEsmc n event).ranged = s.ranged := by unfold sendEsmc; simp
@[simp] theorem ranged_condChanged {before} : (s.condChanged before).ranged = s.ranged := by unfold condChanged; simp
@[simp] theorem ranged_formCond {before} : (s.formCond before).ranged = s.ranged := by unfold formCond; simp
@[simp] theorem ranged_formForced : s.formForced.ranged = s.ranged := by unfold formForced; simp
@[simp] theorem ranged_clearLock : s.clearLock.ranged = s.ranged := by unfold clearLock; simp
@[simp] theorem ranged_enterSel {st ev} : (s.enterSel st ev).ranged = s.ranged := by unfold enterSel; simp
@[simp] theorem ranged_setTarget {e} : (s.setTarget e).ranged = s.ranged := by unfold setTarget; simp
@[simp] theorem ranged_setModelRate {b} : (s.setModelRate b).ranged = s.ranged := by unfold setModelRate; simp
@[simp] theorem ranged_toModel : s.toModel.ranged = s.ranged := by unfold toModel; simp
@[simp] theorem ranged_toLocked : s.toLocked.ranged = s.ranged := by unfold toLocked; simp
@[simp] theorem ranged_toAcquire {e fromHold} : (s.toAcquire e fromHold).ranged = s.ranged := by unfold toAcquire; simp
@[simp] theorem ranged_toSwitch {e model} : (s.toSwitch e model).ranged = s.ranged := by unfold toSwitch; simp
@[simp] theorem ranged_keepModel : s.keepModel.ranged = s.ranged := by unfold keepModel; simp
@[simp] theorem ranged_toHoldover {fault} : (s.toHoldover fault).ranged = s.ranged := by unfold toHoldover; simp
@[simp] theorem ranged_loopRate {k r} : (s.loopRate k r).ranged = s.ranged := by unfold loopRate; simp
@[simp] theorem ranged_guardCheck {err} : (s.guardCheck err).ranged = s.ranged := by unfold guardCheck; simp
@[simp] theorem ranged_lockCount {err} : (s.lockCount err).ranged = s.ranged := by unfold lockCount; simp
@[simp] theorem ranged_dropSelected : s.dropSelected.ranged = s.ranged := by unfold dropSelected; simp
@[simp] theorem ranged_decideAcquire {rate} : (s.decideAcquire rate).ranged = s.ranged := by
  unfold decideAcquire
  simp only [ranged_ite]
  (repeat' split) <;> simp
@[simp] theorem ranged_decideLocked {rate} : (s.decideLocked rate).ranged = s.ranged := by
  unfold decideLocked
  simp only [ranged_ite]
  (repeat' split) <;> simp
@[simp] theorem ranged_decideSwitch {rate} : (s.decideSwitch rate).ranged = s.ranged := by
  unfold decideSwitch
  simp only [ranged_ite]
  (repeat' split) <;> simp
@[simp] theorem ranged_selDecide {err rate} : (s.selDecide err rate).ranged = s.ranged := by
  unfold selDecide
  simp only [ranged_ite]
  (repeat' split) <;> simp
@[simp] theorem ranged_wtrExpiry {e} : (s.wtrExpiry e).ranged = s.ranged := by unfold wtrExpiry; simp
@[simp] theorem ranged_guardedStep {off} : (s.guardedStep off).ranged = s.ranged := by unfold guardedStep; simp
@[simp] theorem ranged_stepTarget {off} : (s.stepTarget off).ranged = s.ranged := by unfold stepTarget; simp
@[simp] theorem ranged_targetMeasured : s.targetMeasured.ranged = s.ranged := by
  unfold targetMeasured
  split <;> simp
@[simp] theorem ranged_refStep {d} : (s.refStep d).ranged = s.ranged := by unfold refStep; simp
@[simp] theorem ranged_prioAct {e old} : (s.prioAct e old).ranged = s.ranged := by unfold prioAct; simp
@[simp] theorem ranged_steerAct {old} : (s.steerAct old).ranged = s.ranged := by unfold steerAct; simp
@[simp] theorem ranged_setSyn {y} : (s.setSyn y).ranged = s.ranged := by unfold setSyn; simp
@[simp] theorem ranged_setOutRun {n x} : (s.setOutRun n x).ranged = s.ranged := by unfold setOutRun; simp
@[simp] theorem ranged_setForce {a v} : (s.setForce a v).ranged = s.ranged := by unfold setForce; simp
@[simp] theorem ranged_emitEdges {n l} : (s.emitEdges n l).ranged = s.ranged := by unfold emitEdges; simp
@[simp] theorem ranged_runOutput {n} : (s.runOutput n).ranged = s.ranged := by unfold runOutput; simp
@[simp] theorem ranged_pulseSecond {x} : (s.pulseSecond x).ranged = s.ranged := by unfold pulseSecond; simp
@[simp] theorem ranged_outputsTick {n inc gap} : (s.outputsTick n inc gap).ranged = s.ranged := by
  unfold outputsTick; simp
@[simp] theorem ranged_realignStep {delta n} : (s.realignStep delta n).ranged = s.ranged := by unfold realignStep; simp
@[simp] theorem ranged_outputsStep {delta} : (s.outputsStep delta).ranged = s.ranged := by unfold outputsStep; simp
@[simp] theorem ranged_markChange {n} : (s.markChange n).ranged = s.ranged := by unfold markChange; simp
@[simp] theorem ranged_updateGo : s.updateGo.ranged = s.ranged := by unfold updateGo; simp
@[simp] theorem ranged_stagingAct {n} : (s.stagingAct n).ranged = s.ranged := by unfold stagingAct; simp
@[simp] theorem ranged_clampWidth {n} : (s.clampWidth n).ranged = s.ranged := by unfold clampWidth; simp
@[simp] theorem ranged_applyOutput {a n} : (s.applyOutput a n).ranged = s.ranged := by unfold applyOutput; simp
@[simp] theorem ranged_updateApply : s.updateApply.ranged = s.ranged := by unfold updateApply; simp
@[simp] theorem ranged_claimSwitch : s.claimSwitch.ranged = s.ranged := by unfold claimSwitch; simp
@[simp] theorem ranged_relayRise {n x} : (s.relayRise n x).ranged = s.ranged := by unfold relayRise; simp
@[simp] theorem ranged_relayFall {n x} : (s.relayFall n x).ranged = s.ranged := by unfold relayFall; simp
@[simp] theorem ranged_relayEdge {n rise ahead} : (s.relayEdge n rise ahead).ranged = s.ranged := by
  unfold relayEdge; simp
@[simp] theorem ranged_showHold {l} : (s.showHold l).ranged = s.ranged := by
  unfold showHold
  split <;> simp
@[simp] theorem ranged_loopLoss {l cause quiet} : (s.loopLoss l cause quiet).ranged = s.ranged := by
  unfold loopLoss
  split <;> simp
@[simp] theorem ranged_oscFreqChange : s.oscFreqChange.ranged = s.ranged := by unfold oscFreqChange; simp
@[simp] theorem ranged_oscFreqAct {old} : (s.oscFreqAct old).ranged = s.ranged := by unfold oscFreqAct; simp
@[simp] theorem ranged_ungate {d} : (s.ungate d).ranged = s.ranged := by unfold ungate; simp
@[simp] theorem ranged_finishHigh {n} : (s.finishHigh n).ranged = s.ranged := by unfold finishHigh; simp
@[simp] theorem ranged_gate {d} : (s.gate d).ranged = s.ranged := by unfold gate; simp
@[simp] theorem ranged_bridge {cycles} : (s.bridge cycles).ranged = s.ranged := by unfold bridge; simp
/-! ### Stamping and PTP -/
@[simp] theorem ranged_setPts {n x} : (s.setPts n x).ranged = s.ranged := by unfold setPts; simp
@[simp] theorem ranged_setPd {n tx st} : (s.setPd n tx st).ranged = s.ranged := by unfold setPd; simp
@[simp] theorem ranged_storePd {n tx d} : (s.storePd n tx d).ranged = s.ranged := by unfold storePd; simp
@[simp] theorem ranged_pdRefresh {n tx} : (s.pdRefresh n tx).ranged = s.ranged := by unfold pdRefresh; simp
@[simp] theorem ranged_pdRefreshBoth {n} : (s.pdRefreshBoth n).ranged = s.ranged := by unfold pdRefreshBoth; simp
@[simp] theorem ranged_pdModeChange {n} : (s.pdModeChange n).ranged = s.ranged := by unfold pdModeChange; simp
@[simp] theorem ranged_pdSample {n tx raw} : (s.pdSample n tx raw).ranged = s.ranged := by unfold pdSample; simp
@[simp] theorem ranged_pdGap {n} : (s.pdGap n).ranged = s.ranged := by unfold pdGap; simp
@[simp] theorem ranged_asymmetry {n} : (s.asymmetry n).ranged = s.ranged := by unfold asymmetry; simp
@[simp] theorem ranged_setWindow {n l} : (s.setWindow n l).ranged = s.ranged := by unfold setWindow; simp
@[simp] theorem ranged_clearWindow {n} : (s.clearWindow n).ranged = s.ranged := by unfold clearWindow; simp
@[simp] theorem ranged_ldSample {n x} : (s.ldSample n x).ranged = s.ranged := by unfold ldSample; simp
@[simp] theorem ranged_ldExchange {n t1 t2 t3 t4 bad} : (s.ldExchange n t1 t2 t3 t4 bad).ranged = s.ranged := by
  unfold ldExchange; simp
@[simp] theorem ranged_ftempNowAct {n} : (s.ftempNowAct n).ranged = s.ranged := by unfold ftempNowAct; simp
@[simp] theorem ranged_ftempStale {n} : (s.ftempStale n).ranged = s.ranged := by unfold ftempStale; simp
@[simp] theorem ranged_loopGo {n} : (s.loopGo n).ranged = s.ranged := by unfold loopGo; simp
@[simp] theorem ranged_loopAbort {n} : (s.loopAbort n).ranged = s.ranged := by unfold loopAbort; simp
@[simp] theorem ranged_loopCtrlAct {n v} : (s.loopCtrlAct n v).ranged = s.ranged := by unfold loopCtrlAct; simp
@[simp] theorem ranged_loopTx {n x} : (s.loopTx n x).ranged = s.ranged := by unfold loopTx; simp
@[simp] theorem ranged_loopRx {n q x} : (s.loopRx n q x).ranged = s.ranged := by
  unfold loopRx
  dsimp only
  (repeat' split) <;> simp
@[simp] theorem ranged_loopTimeout {n q} : (s.loopTimeout n q).ranged = s.ranged := by unfold loopTimeout; simp
@[simp] theorem ranged_loopDone {n} : (s.loopDone n).ranged = s.ranged := by unfold loopDone; simp
@[simp] theorem ranged_setFifoOf {n l} : (s.setFifoOf n l).ranged = s.ranged := by unfold setFifoOf; simp
@[simp] theorem ranged_pushStamp {n r} : (s.pushStamp n r).ranged = s.ranged := by unfold pushStamp; simp
@[simp] theorem ranged_popStamp {n} : (s.popStamp n).ranged = s.ranged := by
  unfold popStamp
  split <;> simp
@[simp] theorem ranged_serveStep_fst {n r l f x ptp tag} : (s.serveStep n r l f x ptp tag).1.ranged = s.ranged := by
  unfold serveStep
  split <;> simp
@[simp] theorem ranged_setPtp {p} : (s.setPtp p).ranged = s.ranged := by unfold setPtp; simp
@[simp] theorem ranged_setPport {n x} : (s.setPport n x).ranged = s.ranged := by unfold setPport; simp
@[simp] theorem ranged_setPtpState {n st} : (s.setPtpState n st).ranged = s.ranged := by unfold setPtpState; simp
@[simp] theorem ranged_ptpDiscard {n} : (s.ptpDiscard n).ranged = s.ranged := by unfold ptpDiscard; simp
@[simp] theorem ranged_dropSample {n} : (s.dropSample n).ranged = s.ranged := by unfold dropSample; simp
@[simp] theorem ranged_setServo {st} : (s.setServo st).ranged = s.ranged := by unfold setServo; simp
@[simp] theorem ranged_servoRec {ev} : (s.servoRec ev).ranged = s.ranged := by unfold servoRec; simp
@[simp] theorem ranged_startGate : s.startGate.ranged = s.ranged := by unfold startGate; simp
@[simp] theorem ranged_servoMeasures : s.servoMeasures.ranged = s.ranged := by unfold servoMeasures; simp
@[simp] theorem ranged_servoTracks : s.servoTracks.ranged = s.ranged := by unfold servoTracks; simp
@[simp] theorem ranged_servoSteer : s.servoSteer.ranged = s.ranged := by unfold servoSteer; simp
@[simp] theorem ranged_loseValid : s.loseValid.ranged = s.ranged := by unfold loseValid; simp
@[simp] theorem ranged_disqualify {k} : (s.disqualify k).ranged = s.ranged := by unfold disqualify; simp
@[simp] theorem ranged_showUtc {n} : (s.showUtc n).ranged = s.ranged := by unfold showUtc; simp
@[simp] theorem ranged_formValid : s.formValid.ranged = s.ranged := by
  unfold formValid
  dsimp only
  (repeat' split) <;> simp
@[simp] theorem ranged_setServoPort {n} : (s.setServoPort n).ranged = s.ranged := by unfold setServoPort; simp
@[simp] theorem ranged_masterChange {old} : (s.masterChange old).ranged = s.ranged := by unfold masterChange; simp
@[simp] theorem ranged_chooseServo : s.chooseServo.ranged = s.ranged := by unfold chooseServo; simp
@[simp] theorem ranged_tightEval {n} : (s.tightEval n).ranged = s.ranged := by unfold tightEval; simp
@[simp] theorem ranged_groupEval {g} : (s.groupEval g).ranged = s.ranged := by unfold groupEval; simp
@[simp] theorem ranged_ptpSettle {n} : (s.ptpSettle n).ranged = s.ranged := by
  unfold ptpSettle
  split <;> simp
@[simp] theorem ranged_clearParent {n} : (s.clearParent n).ranged = s.ranged := by unfold clearParent; simp
@[simp] theorem ranged_stopPort {n} : (s.stopPort n).ranged = s.ranged := by unfold stopPort; simp
@[simp] theorem ranged_leaveInit {n} : (s.leaveInit n).ranged = s.ranged := by unfold leaveInit; simp
@[simp] theorem ranged_toInit {n} : (s.toInit n).ranged = s.ranged := by unfold toInit; simp
@[simp] theorem ranged_ptpLockLost {n} : (s.ptpLockLost n).ranged = s.ranged := by unfold ptpLockLost; simp
@[simp] theorem ranged_ptpLockGained {n} : (s.ptpLockGained n).ranged = s.ranged := by unfold ptpLockGained; simp
@[simp] theorem ranged_ptpLdCheck {n} : (s.ptpLdCheck n).ranged = s.ranged := by unfold ptpLdCheck; simp
@[simp] theorem ranged_ptpCtrlAct {_old} : (s.ptpCtrlAct _old).ranged = s.ranged := by unfold ptpCtrlAct; simp
@[simp] theorem ranged_ptpCfgAct {n old} : (s.ptpCfgAct n old).ranged = s.ranged := by unfold ptpCfgAct; simp
@[simp] theorem ranged_clockIdAct : s.clockIdAct.ranged = s.ranged := by unfold clockIdAct; simp
theorem ranged_onMessage {n ty m f} (hf : (f s).ranged = s.ranged) : (s.onMessage n ty m f).ranged = s.ranged := by
  unfold onMessage; simp [hf]
@[simp] theorem ranged_sendPtp {n m} : (s.sendPtp n m).ranged = s.ranged := by unfold sendPtp; simp
@[simp] theorem ranged_useSeq {n ty} : (s.useSeq n ty).ranged = s.ranged := by unfold useSeq; simp
@[simp] theorem ranged_sendOneStep {n op t m} : (s.sendOneStep n op t m).ranged = s.ranged := by unfold sendOneStep; simp
@[simp] theorem ranged_syncTx {n x} : (s.syncTx n x).ranged = s.ranged := by unfold syncTx; simp
@[simp] theorem ranged_followTx {n} : (s.followTx n).ranged = s.ranged := by
  unfold followTx
  split <;> simp
@[simp] theorem ranged_announceTx {n} : (s.announceTx n).ranged = s.ranged := by unfold announceTx; simp
@[simp] theorem ranged_delayReqTx {n x} : (s.delayReqTx n x).ranged = s.ranged := by unfold delayReqTx; simp
@[simp] theorem ranged_pdelayReqTx {n x} : (s.pdelayReqTx n x).ranged = s.ranged := by unfold pdelayReqTx; simp
@[simp] theorem ranged_delayRespTx {n} : (s.delayRespTx n).ranged = s.ranged := by
  unfold delayRespTx
  split <;> simp
@[simp] theorem ranged_pdelayRespTx {n x} : (s.pdelayRespTx n x).ranged = s.ranged := by
  unfold pdelayRespTx
  split <;> simp
@[simp] theorem ranged_servoRate {r} : (s.servoRate r).ranged = s.ranged := by unfold servoRate; simp
@[simp] theorem ranged_servoUpdate {o dt code} : (s.servoUpdate o dt code).ranged = s.ranged := by
  unfold servoUpdate; simp
@[simp] theorem ranged_tightTick : s.tightTick.ranged = s.ranged := by unfold tightTick; simp
@[simp] theorem ranged_ptpStep {delta} : (s.ptpStep delta).ranged = s.ranged := by unfold ptpStep; simp
@[simp] theorem ranged_tightSample {o p d} : (s.tightSample o p d).ranged = s.ranged := by unfold tightSample; simp
@[simp] theorem ranged_firstLock {l master} : (s.firstLock l master).ranged = s.ranged := by unfold firstLock; simp
@[simp] theorem ranged_servoSample {o p d master} : (s.servoSample o p d master).ranged = s.ranged := by
  unfold servoSample
  simp only [ranged_ite]
  (repeat' split) <;> simp
@[simp] theorem ranged_servoFreeze : s.servoFreeze.ranged = s.ranged := by unfold servoFreeze; simp
@[simp] theorem ranged_ptpGate_snd : s.ptpGate.2.ranged = s.ranged := by unfold ptpGate; simp
@[simp] theorem ranged_offsetSample {n t1 t2 c breaks p d} :
    (s.offsetSample n t1 t2 c breaks p d).ranged = s.ranged := by
  unfold offsetSample; simp
@[simp] theorem ranged_notFollowed {n} : (s.notFollowed n).ranged = s.ranged := by unfold notFollowed; simp
@[simp] theorem ranged_syncDone {n bad t1 t2 c breaks p d} :
    (s.syncDone n bad t1 t2 c breaks p d).ranged = s.ranged := by
  unfold syncDone; simp
@[simp] theorem ranged_dropWait {n} : (s.dropWait n).ranged = s.ranged := by
  unfold dropWait
  split <;> simp
@[simp] theorem ranged_syncRx {n m x} : (s.syncRx n m x).ranged = s.ranged := ranged_onMessage (by simp)
@[simp] theorem ranged_followUpRx {n m} : (s.followUpRx n m).ranged = s.ranged := by
  refine ranged_onMessage ?_
  simp only [ranged_ite]
  split
  · split <;> simp
  · simp
@[simp] theorem ranged_followUpTimeout {n} : (s.followUpTimeout n).ranged = s.ranged := by unfold followUpTimeout; simp
@[simp] theorem ranged_offsetLapse : s.offsetLapse.ranged = s.ranged := by unfold offsetLapse; simp
@[simp] theorem ranged_delayReqRx {n m x} : (s.delayReqRx n m x).ranged = s.ranged := ranged_onMessage (by simp)
@[simp] theorem ranged_delayRespRx {n m} : (s.delayRespRx n m).ranged = s.ranged := by
  refine ranged_onMessage ?_
  simp only [ranged_ite]
  (repeat' split) <;> simp
@[simp] theorem ranged_pdelayReqRx {n m x} : (s.pdelayReqRx n m x).ranged = s.ranged := ranged_onMessage (by simp)
@[simp] theorem ranged_pdelayDone {n w t4 turn bad} : (s.pdelayDone n w t4 turn bad).ranged = s.ranged := by
  unfold pdelayDone; simp
@[simp] theorem ranged_pdelayRespRx {n m x} : (s.pdelayRespRx n m x).ranged = s.ranged := by
  refine ranged_onMessage ?_
  split <;> simp
@[simp] theorem ranged_pdelayFollowRx {n m} : (s.pdelayFollowRx n m).ranged = s.ranged := by
  refine ranged_onMessage ?_
  (repeat' split) <;> simp
@[simp] theorem ranged_claimBad {n} : (s.claimBad n).ranged = s.ranged := by unfold claimBad; simp
@[simp] theorem ranged_recordAnnounce {n m tlv} : (s.recordAnnounce n m tlv).ranged = s.ranged := by
  unfold recordAnnounce
  split <;> simp
@[simp] theorem ranged_acceptAnnounce {n m tlv} : (s.acceptAnnounce n m tlv).ranged = s.ranged := by
  unfold acceptAnnounce; simp
@[simp] theorem ranged_announceRx {n m} : (s.announceRx n m).ranged = s.ranged := ranged_onMessage (by simp)
@[simp] theorem ranged_announceTimeout {n} : (s.announceTimeout n).ranged = s.ranged := by unfold announceTimeout; simp
/-! ### Forwarding and queues -/
@[simp] theorem ranged_setTw {a i v} : (s.setTw a i v).ranged = s.ranged := by
  unfold setTw; simp
@[simp] theorem ranged_touch {a} : (s.touch a).ranged = s.ranged := by unfold touch; simp
@[simp] theorem ranged_epochUp : s.epochUp.ranged = s.ranged := by unfold epochUp; simp
@[simp] theorem ranged_clearCtx {i} : (s.clearCtx i).ranged = s.ranged := by unfold clearCtx; simp
@[simp] theorem ranged_poolEmpty {detail param} : (s.poolEmpty detail param).ranged = s.ranged := by
  unfold poolEmpty; simp
@[simp] theorem ranged_poolCheck : s.poolCheck.ranged = s.ranged := by unfold poolCheck; simp
@[simp] theorem ranged_accrue {i} : (s.accrue i).ranged = s.ranged := by unfold accrue; simp
@[simp] theorem ranged_police_fst {i n cls slice} : (s.police i n cls slice).1.ranged = s.ranged := by
  unfold police; simp
@[simp] theorem ranged_writeLearned {a k w3 w4 w5} :
    (s.writeLearned a k w3 w4 w5).ranged = s.ranged := by
  unfold writeLearned; simp
@[simp] theorem ranged_learnFrom {n vid mac slice} : (s.learnFrom n vid mac slice).ranged = s.ranged := by
  unfold learnFrom
  dsimp only
  split
  · next a h => simp
  · split
    · next a h => simp
    · simp
@[simp] theorem ranged_sweepEntry {a} : (s.sweepEntry a).ranged = s.ranged := by
  unfold sweepEntry; simp
@[simp] theorem ranged_window_fst {i q} : (s.window i q).1.ranged = s.ranged := by unfold window; simp
@[simp] theorem ranged_untracked {r mac} : (s.untracked r mac).ranged = s.ranged := by unfold untracked; simp
@[simp] theorem ranged_recirc {slice} : (s.recirc slice).ranged = s.ranged := by unfold recirc; simp
@[simp] theorem ranged_slot {f slice on} : (s.slot f slice on).ranged = s.ranged := by unfold slot; simp
@[simp] theorem ranged_sourceCtx_fst {r mac slice} : (s.sourceCtx r mac slice).1.ranged = s.ranged := by
  unfold sourceCtx
  dsimp only
  split
  · next a h =>
    split
    · split <;> simp
    · simp
  · split
    · next a _ h => simp
    · simp
@[simp] theorem ranged_sendInto_fst {r mac slice} : (s.sendInto r mac slice).1.ranged = s.ranged := by
  unfold sendInto
  split
  · next t h => exact ranged_ofFst h ranged_sourceCtx_fst
  · next t i h => simp [ranged_ofFst h ranged_sourceCtx_fst]
@[simp] theorem ranged_route_fst {b hd vid slice} : (s.route b hd vid slice).1.ranged = s.ranged := by
  unfold route
  extract_lets group miss addr n s₁
  have hm (t) : (miss t).1.ranged = t.ranged := by simp [miss]
  have ha (t) : (addr t).1.ranged = t.ranged := by
    unfold addr
    split
    · next a h => simp
    · exact hm t
  split
  · split
    · next a h => simp
    · simp [s₁, ha]
  · exact ha s
@[simp] theorem ranged_lagAct : s.lagAct.ranged = s.ranged := by unfold lagAct; simp
@[simp] theorem ranged_resolveLag_fst {m lags hash g} : (s.resolveLag m lags hash g).1.ranged = s.ranged := by
  unfold resolveLag
  simp only [ranged_ite_fst]
  split
  · rfl
  · split <;> simp
@[simp] theorem ranged_resolveRed_fst {m mac slice r} : (s.resolveRed m mac slice r).1.ranged = s.ranged := by
  unfold resolveRed
  simp only [ranged_ite_fst, ite_eq_left_iff]
  intro _ _
  split
  · next t q h => exact ranged_ofFst h ranged_sendInto_fst
  · next t h => simp [ranged_ofFst h ranged_sendInto_fst]
@[simp] theorem ranged_resolveReds_fst {m mac slice} : (s.resolveReds m mac slice).1.ranged = s.ranged := by
  refine ranged_foldl_fst fun p r => ?_
  split
  · next t m h => exact ranged_ofFst h ranged_resolveRed_fst
  · next t m e h => exact ranged_ofFst h ranged_resolveRed_fst
@[simp] theorem ranged_filterFrame : s.filterFrame.ranged = s.ranged := by unfold filterFrame; simp
@[simp] theorem ranged_herdTagRec {f h code} : (s.herdTagRec f h code).ranged = s.ranged := by unfold herdTagRec; simp
@[simp] theorem ranged_tagBad {f h} : (s.tagBad f h).ranged = s.ranged := by unfold tagBad; simp
@[simp] theorem ranged_herdOf_fst {f h i} : (s.herdOf f h i).1.ranged = s.ranged := by unfold herdOf; simp
@[simp] theorem ranged_lookupRoute_fst {f base ring} : (s.lookupRoute f base ring).1.ranged = s.ranged := by
  unfold lookupRoute
  extract_lets b h slice inPort
  split
  next s₁ rt hr =>
  extract_lets cls x s₂ s₃ s₄ y s₅ own m lags z w s₆ ringPort m₁ reason m₂ s₇ i
  have h₁ : s₁.ranged = s.ranged := ranged_ofFst hr ranged_route_fst
  have hx : x.1.ranged = s₁.ranged := by
    unfold x
    split <;> simp
  have h₄ : s₄.ranged = s₂.ranged := by
    unfold s₄
    split <;> simp [s₃]
  have hy : y.1.ranged = s₄.ranged := by
    unfold y
    split <;> simp
  have hw : w.1.ranged = s₅.ranged := by simp [w, z]
  simp [s₇, s₆, hw, s₅, hy, h₄, s₂, hx, h₁]
@[simp] theorem ranged_lanCheck {r n h} : (s.lanCheck r n h).ranged = s.ranged := by
  unfold lanCheck
  split <;> simp
@[simp] theorem ranged_lookupSeq_fst {f base r q} : (s.lookupSeq f base r q).1.ranged = s.ranged := by
  unfold lookupSeq
  dsimp only
  split <;> simp
@[simp] theorem ranged_lookupRed_fst {f base} : (s.lookupRed f base).1.ranged = s.ranged := by
  unfold lookupRed
  split
  · simp
  · dsimp only
    split <;> simp
@[simp] theorem ranged_lookup_fst {f} : (s.lookup f).1.ranged = s.ranged := by
  unfold lookup
  dsimp only
  (repeat' split) <;> simp
@[simp] theorem ranged_setStaging {a x} : (s.setStaging a x).ranged = s.ranged := by unfold setStaging; simp
@[simp] theorem ranged_stageAbort : s.stageAbort.ranged = s.ranged := by unfold stageAbort; simp
@[simp] theorem ranged_stageWrite {a v} : (s.stageWrite a v).ranged = s.ranged := by
  unfold stageWrite
  dsimp only
  (repeat' split) <;> simp
/-- The words of a staging buffer, written to the entry at `a`. -/
theorem ranged_foldl_setTw {l : Tbl (Option Nat)} {a} :
    (l.foldl (fun s p => match p.2 with | some w => s.setTw a p.1 w | none => s) s).ranged = s.ranged := by
  refine ranged_foldl fun t p => ?_
  split <;> simp
@[simp] theorem ranged_commit {a v} : (s.commit a v).ranged = s.ranged := by
  unfold commit
  extract_lets e mine s₁ s₂ keep s₃ w₀ w₁ s₄ s₅ i had s₆ s₇ s₈
  have h₂ : s₂.ranged = s.ranged := by
    unfold s₂ s₁
    split <;> simp
  have h₃ : s₃.ranged = s₂.ranged := ranged_foldl_setTw
  have h₇ : s₇.ranged = s₆.ranged := ranged_foldl_setTw
  simp [s₅, s₄, h₃, s₈, h₇, s₆, h₂]
@[simp] theorem ranged_drainStart : s.drainStart.ranged = s.ranged := by unfold drainStart; simp
@[simp] theorem ranged_drainDone : s.drainDone.ranged = s.ranged := by unfold drainDone; simp

/-! ### Queues and Herd: what leaves frames and copies where they are -/

@[simp] theorem ranged_setFwd {x} : (s.setFwd x).ranged = x.Ranged := congrArg Fwd.Ranged rfl
@[simp] theorem ranged_usageAdd {n p d} : (s.usageAdd n p d).ranged = s.ranged := by unfold usageAdd; simp
@[simp] theorem ranged_cellsAdd {a d} : (s.cellsAdd a d).ranged = s.ranged := ranged_setReg
@[simp] theorem ranged_portXoff {n} : (s.portXoff n).ranged = s.ranged := by unfold portXoff; simp
@[simp] theorem ranged_xoff : s.xoff.ranged = s.ranged := by unfold xoff; simp
@[simp] theorem ranged_uncount {c} : (s.uncount c).ranged = s.ranged := by
  unfold uncount
  split <;> simp
@[simp] theorem ranged_frameRec {typ l x port len fcs detail trig} :
    (s.frameRec typ l x port len fcs detail trig).ranged = s.ranged := by
  unfold frameRec
  dsimp only
  (repeat' split) <;> simp
@[simp] theorem ranged_twoStep {f l n x} : (s.twoStep f l n x).ranged = s.ranged := by
  unfold twoStep
  dsimp only
  (repeat' split) <;> simp
@[simp] theorem ranged_lineUse {n x k} : (s.lineUse n x k).ranged = s.ranged := by unfold lineUse; simp
@[simp] theorem ranged_depart {f l n x cut late} : (s.depart f l n x cut late).ranged = s.ranged := by
  unfold depart
  split <;> simp
@[simp] theorem ranged_departBad {f l n x cause zero} : (s.departBad f l n x cause zero).ranged = s.ranged := by
  unfold departBad; simp
@[simp] theorem ranged_refuse {n p cause x} : (s.refuse n p cause x).ranged = s.ranged := by unfold refuse; simp
@[simp] theorem ranged_spillFull {b} : (s.spillFull b).ranged = s.ranged := by unfold spillFull; simp
@[simp] theorem ranged_spillShow : s.spillShow.ranged = s.ranged := by unfold spillShow; simp
@[simp] theorem ranged_agedRec {c mem} : (s.agedRec c mem).ranged = s.ranged := by
  unfold agedRec
  dsimp only
  (repeat' split) <;> simp
@[simp] theorem ranged_ageOut {c mem} : (s.ageOut c mem).ranged = s.ranged := by unfold ageOut; simp
@[simp] theorem ranged_stallReached : s.stallReached.ranged = s.ranged := by unfold stallReached; simp
@[simp] theorem ranged_pfcSend {n} : (s.pfcSend n).ranged = s.ranged := by unfold pfcSend; simp
@[simp] theorem ranged_pfcTx {n} : (s.pfcTx n).ranged = s.ranged := by unfold pfcTx; simp
@[simp] theorem ranged_pfcRefresh {n} : (s.pfcRefresh n).ranged = s.ranged := by unfold pfcRefresh; simp
@[simp] theorem ranged_pfcRx {n b} : (s.pfcRx n b).ranged = s.ranged := by unfold pfcRx; simp
@[simp] theorem ranged_pauseEnd {n p} : (s.pauseEnd n p).ranged = s.ranged := by unfold pauseEnd; simp
@[simp] theorem ranged_dramTrained {bad} : (s.dramTrained bad).ranged = s.ranged := by unfold dramTrained; simp
@[simp] theorem ranged_lateRec {c l i reason outcome} : (s.lateRec c l i reason outcome).ranged = s.ranged := by
  unfold lateRec; simp
@[simp] theorem ranged_claimRemove {c} : (s.claimRemove c).ranged = s.ranged := by
  unfold claimRemove
  split <;> simp
@[simp] theorem ranged_admitPort {l n} : (s.admitPort l n).ranged = s.ranged := by unfold admitPort; simp
@[simp] theorem ranged_herdSweep : s.herdSweep.ranged = s.ranged := by unfold herdSweep; simp
@[simp] theorem ranged_addReady {k b st desc} : (s.addReady k b st desc).ranged = s.ranged := by unfold addReady; simp

end Sys2Proof.Machine.State
end

section

/-! ## Forwarding in range: frames and copies

What each operation puts in a frame's or a copy's place is in range: a lookup's result by the width of what it is read from, a
copy by the port and the class it is made for. -/

set_option Elab.async false

namespace Sys2Proof.Machine

/-! ### What a lookup finds -/

theorem bitsOf_lt {n hi lo : Nat} : bitsOf n hi lo < 2 ^ (hi + 1 - lo) := Nat.mod_lt _ (Nat.two_pow_pos _)

theorem mem_maskBits {m k n : Nat} : n ∈ maskBits m k ↔ n < k ∧ maskBit m n = true := by
  simp [maskBits]

/-- A route names a flow context of the table and a class of three bits. -/
structure Route.Ranged (r : Route) : Prop where
  fc : ∀ i ∈ r.fc, i < 16384
  cls : ∀ c ∈ r.cls, c < 8

theorem Looked.ranged_nothing {hd vid cls hash epoch red d l} (h : cls < 8) :
    (Looked.nothing hd vid cls hash epoch red d l).Ranged :=
  ⟨h, by simp [Looked.nothing], by simp [Looked.nothing]⟩

namespace State

variable {s t : State}

theorem entryCtx_lt {a i : Nat} (h : s.entryCtx a = some i) : i < 16384 := by
  unfold entryCtx at h
  extract_lets w j at h
  split at h
  · obtain rfl := Option.some.inj h
    exact bitsOf_lt
  · cases h

theorem ranged_entryRoute {a : Nat} {b : Bool} : (s.entryRoute a b).Ranged where
  fc i hi := entryCtx_lt hi
  cls c hc := by
    unfold entryRoute at hc
    dsimp only at hc
    split at hc
    · obtain rfl := Option.some.inj hc
      exact bitsOf_lt
    · cases hc

theorem ranged_route {b : List Byte} {hd : Heads} {vid slice : Nat} : (s.route b hd vid slice).2.Ranged := by
  unfold route
  extract_lets group miss addr n s₁
  have hm (t : State) : (miss t).2.Ranged := ⟨by simp [miss], by simp [miss]⟩
  have ha (t : State) : (addr t).2.Ranged := by
    unfold addr
    split
    · exact ranged_entryRoute
    · exact hm t
  split
  · split
    · exact ranged_entryRoute
    · exact ha _
  · exact ha s

theorem police_cls_lt {i n cls slice : Nat} (h : cls < 8) : (s.police i n cls slice).2 < 8 := by
  unfold police
  extract_lets a s₁ x
  split
  · exact h
  · split
    · exact h
    · exact bitsOf_lt

theorem ranged_lookupRoute {f : Frame} {base : Looked} {ring : Option Nat} (h : base.Ranged) :
    (s.lookupRoute f base ring).2.Ranged := by
  unfold lookupRoute
  extract_lets b hd slice inPort
  split
  next s₁ rt hr =>
  have R : rt.Ranged := by
    have := s.ranged_route (b := b) (hd := hd) (vid := base.vid) (slice := slice)
    rwa [hr] at this
  extract_lets cls x s₂ s₃ s₄ y s₅ own m lags z w s₆ ringPort m₁ reason m₂ s₇ i
  have hc : cls < 8 := by
    unfold cls
    cases e : rt.cls with
    | none => exact h.1
    | some c => exact R.cls c e
  refine ⟨?_, ?_, fun n hn => (mem_maskBits.1 hn).1⟩
  · show y.2 < 8
    unfold y
    split
    · exact police_cls_lt hc
    · exact hc
  · show rt.fc.getD 0 < 16384
    cases e : rt.fc with
    | none => simp
    | some c => exact R.fc c e

theorem ranged_lookupSeq {f : Frame} {base : Looked} {r q : Nat} (h : base.Ranged) : (s.lookupSeq f base r q).2.Ranged := by
  unfold lookupSeq
  dsimp only
  split
  · exact ranged_lookupRoute h
  · split
    · exact ranged_lookupRoute h
    · exact h

theorem ranged_lookupRed {f : Frame} {base : Looked} (h : base.Ranged) : (s.lookupRed f base).2.Ranged := by
  unfold lookupRed
  split
  · exact ranged_lookupRoute h
  · dsimp only
    split
    · exact ranged_lookupRoute h
    · exact ranged_lookupSeq h

/-- A lookup's result is in range (R242, R249). -/
theorem ranged_lookup {f : Frame} : (s.lookup f).2.Ranged := by
  unfold lookup
  extract_lets b n red hd inPort cfg vid pcp cls hash slice epoch base st vlanBad learn hrd s₁ s₂ s₃
  have hb (d : Nat) (l : Bool) : (base d l).Ranged := Looked.ranged_nothing (Nat.mod_lt _ (by decide))
  split
  · exact hb 3 false
  split
  · exact hb 3 false
  split
  · exact ⟨(hb 2 false).1, (hb 2 false).2.1, by simp⟩
  split
  · exact hb 1 learn
  split
  · exact hb 1 learn
  split
  · exact hb 1 learn
  · exact ranged_lookupRed (hb 0 learn)

/-! ### Frames -/

theorem ranged_of_mem {f : Frame} (h : s.ranged) (hf : f ∈ s.fwd.frames) : f.Ranged := (h.frames f hf).2

theorem ranged_of_find {f : Frame} {p : Frame → Bool} (h : s.ranged) (hf : s.fwd.frames.find? p = some f) : f.Ranged :=
  ranged_of_mem h (List.mem_of_find?_eq_some hf)

theorem ranged_of_frameOf {f : Frame} {i : Nat} (h : s.ranged) (hf : s.frameOf i = some f) : f.Ranged := ranged_of_find h hf

theorem ranged_setFrame {f : Frame} (h : s.ranged) (hf : f.Ranged) : (s.setFrame f).ranged where
  nodup := by
    have e : (s.fwd.frames.map (fun g => if g.id = f.id then f else g)).map (fun g => g.id) = s.fwd.frames.map (fun g => g.id) := by
      rw [List.map_map]
      refine List.map_congr_left fun g _ => ?_
      show (if g.id = f.id then f else g).id = g.id
      split <;> simp [*]
    exact e ▸ h.nodup
  frames g hg := by
    obtain ⟨g, hm, rfl⟩ := List.mem_map.1 hg
    split
    · next e => exact ⟨e ▸ (h.frames g hm).1, hf⟩
    · exact h.frames g hm
  queues := h.queues
  cals := h.cals
  passes := h.passes
  sending := h.sending

theorem ranged_dropFrame {p : Frame → Bool} (h : s.ranged) :
    (s.setFwd { s.fwd with frames := s.fwd.frames.filter p }).ranged where
  nodup := (List.filter_sublist.map _).nodup h.nodup
  frames f hf := h.frames f (List.mem_of_mem_filter hf)
  queues := h.queues
  cals := h.cals
  passes := h.passes
  sending := h.sending

theorem ranged_addFrame {f : Frame} (h : s.ranged) (hi : f.id = s.fwd.nextId) (hf : f.Ranged) : (s.addFrame f).ranged where
  nodup := by
    show ((s.fwd.frames ++ [f]).map (fun g => g.id)).Nodup
    rw [List.map_append, List.nodup_append]
    refine ⟨h.nodup, by simp, fun a ha b hb => ?_⟩
    obtain ⟨g, hg, rfl⟩ := List.mem_map.1 ha
    have := (h.frames g hg).1
    simp at hb
    omega
  frames g hg := by
    show g.id < s.fwd.nextId + 1 ∧ _
    rcases List.mem_append.1 hg with hg | hg
    · exact ⟨Nat.lt_succ_of_lt (h.frames g hg).1, (h.frames g hg).2⟩
    · obtain rfl := List.mem_singleton.1 hg
      exact ⟨by omega, hf⟩
  queues := h.queues
  cals := h.cals
  passes := h.passes
  sending := h.sending

theorem ranged_nextId (h : s.ranged) : (s.setFwd { s.fwd with nextId := s.fwd.nextId + 1 }).ranged :=
  ⟨h.nodup, fun f hf => ⟨Nat.lt_succ_of_lt (h.frames f hf).1, (h.frames f hf).2⟩, h.queues, h.cals, h.passes, h.sending⟩

/-! ### Queues -/

theorem ranged_of_queue {c : QCopy} {q : Nat} (h : s.ranged) (hc : c ∈ s.queue q) : c.Ranged q := by
  rcases Tbl.get_mem [] s.fwd.queues q with e | m
  · unfold queue at hc
    rw [e] at hc
    cases hc
  · exact h.queues _ m c hc

theorem ranged_setQueue {q : Nat} {l : List QCopy} (h : s.ranged) (hl : ∀ c ∈ l, c.Ranged q) : (s.setQueue q l).ranged where
  nodup := h.nodup
  frames := h.frames
  queues p hp := by
    rcases Tbl.mem_set hp with ⟨-, rfl⟩ | hp
    · exact hl
    · exact h.queues p hp
  cals := h.cals
  passes := h.passes
  sending := h.sending

/-- A copy leaves the head of its queue. -/
theorem ranged_dropHead {q : Nat} (h : s.ranged) : (s.setQueue q ((s.queue q).drop 1)).ranged :=
  ranged_setQueue h fun _ hc => ranged_of_queue h (List.mem_of_mem_drop hc)

theorem ranged_enqueue {f : Frame} {l : Looked} {n : Nat} (h : s.ranged) (hl : l.Ranged) (hn : n < 25) :
    (s.enqueue f l n).ranged := by
  unfold enqueue
  extract_lets c s₁ s₂
  have h₁ : s₁.ranged := by simpa [s₁] using h
  have h₂ : s₂.ranged := ranged_setQueue h₁ fun x hx => by
    rcases List.mem_append.1 hx with hx | hx
    · exact ranged_of_queue h₁ hx
    · obtain rfl := List.mem_singleton.1 hx
      exact ⟨hn, hl.1, rfl⟩
  simpa using h₂

theorem ranged_handOver {f : Frame} {l : Looked} {a : Account} (h : s.ranged) (hf : f.Ranged) (hl : l.Ranged) :
    (s.handOver f l a).ranged := by
  unfold handOver
  extract_lets herd later f' s₁
  have hf' : f'.Ranged := ⟨hf.1, hf.2.1, fun n hn => by
    change n ∈ later at hn
    unfold later at hn
    split at hn
    · simpa using (List.mem_filter.1 hn).2
    · exact absurd hn List.not_mem_nil, hf.2.2.2⟩
  have h₁ : s₁.ranged := by simpa [s₁] using ranged_setFrame h hf'
  exact ranged_foldl_of h₁ fun t ht n hn => ranged_enqueue ht hl (hl.2.2 n (List.mem_of_mem_filter hn))

theorem ranged_unstall {k : Nat} {l : List Nat} (h : s.ranged) : (s.unstall k l).ranged := by
  induction l generalizing s with
  | nil => simpa [unstall] using h
  | cons i r ih =>
    unfold unstall
    split
    · exact ih h
    next f hf =>
    have F := ranged_of_frameOf h hf
    split
    · exact ih h
    next l hl =>
    split
    · exact ih (ranged_handOver h F (F.2.2.2 l hl))
    · simpa using h

@[simp] theorem ranged_unstallAll (h : s.ranged) : s.unstallAll.ranged := by
  unfold unstallAll
  split
  · refine ranged_foldl_of h fun t ht k _ => ?_
    split
    · exact ht
    · exact ranged_unstall ht
  · exact h

theorem ranged_toManager {f : Frame} {k : Nat} (h : s.ranged) : (s.toManager f k).ranged := ranged_unstall h

theorem ranged_reapFrame {f : Frame} (h : s.ranged) (hf : f.Ranged) : (s.reapFrame f).ranged := by
  unfold reapFrame
  extract_lets l
  split
  · exact h
  · split
    · simpa using ranged_dropFrame h
    · split
      · exact ranged_setFrame h hf
      · exact h

@[simp] theorem ranged_settle (h : s.ranged) : s.settle.ranged := by
  unfold settle
  rw [ranged_xoff]
  exact ranged_unstallAll (ranged_foldl_of h fun t ht f hf => ranged_reapFrame ht (ranged_of_mem h hf))

/-! ### Arrival and the end of a frame -/

theorem prio_lt {n : Nat} {b : List Byte} : s.ingressPrio n b < 8 := by
  unfold ingressPrio
  split
  · have : beAt b 14 1 < 256 := by
      unfold beAt beNat slice
      rcases b.drop 14 with _ | ⟨x, r⟩
      · simp [leNat]
      · simpa [leNat] using x.isLt
    omega
  · exact Fld.get_lt _ _

theorem ranged_newFrame {n p : Nat} {b : List Byte} {x : Stamp} (hn : n < 25) (hp : p < 8) : (s.newFrame n p b x).Ranged :=
  ⟨hn, hp, by simp [newFrame], by simp [newFrame]⟩

theorem ranged_land {f : Frame} {k : Nat} (h : f.Ranged) : (s.land f k).Ranged := h

theorem ranged_receive {n : Nat} {x : StampIn} {b : List Byte} (h : s.ranged) (hn : n < 25) : (s.receive n x b).ranged := by
  unfold receive
  extract_lets s₁ p t f used
  have h₁ : s₁.ranged := by simpa [s₁] using h
  have hf : f.Ranged := ranged_newFrame hn prio_lt
  split
  · exact h
  split
  · exact h₁
  split
  · split
    · exact ranged_addFrame h₁ rfl hf
    · simpa using h₁
  split
  · simpa using h₁
  split
  · simpa using h₁
  · simpa using ranged_addFrame h₁ rfl (ranged_land hf)

/-- The copies of a frame leave every queue. -/
theorem ranged_filterQueues {p : QCopy → Bool} {st : Tbl (List Nat)} (h : s.ranged) :
    (s.setFwd { s.fwd with
      queues := s.fwd.queues.foldl (fun (t : Tbl (List QCopy)) q => Tbl.set [] t q.1 (q.2.filter p)) s.fwd.queues,
      stalled := st }).ranged := by
  have key (l : Tbl (List QCopy)) (hl : ∀ q ∈ l, ∀ c ∈ q.2, c.Ranged q.1) :
      ∀ t : Tbl (List QCopy), (∀ q ∈ t, ∀ c ∈ q.2, c.Ranged q.1) →
        ∀ q ∈ l.foldl (fun (t : Tbl (List QCopy)) q => Tbl.set [] t q.1 (q.2.filter p)) t, ∀ c ∈ q.2, c.Ranged q.1 := by
    induction l with
    | nil => exact fun t ht => ht
    | cons x r ih =>
      refine fun t ht => ih (fun q hq => hl q (List.mem_cons_of_mem _ hq)) _ fun q hq => ?_
      rcases Tbl.mem_set hq with ⟨-, rfl⟩ | hq
      · exact fun c hc => hl x (List.mem_cons_self ..) c (List.mem_of_mem_filter hc)
      · exact ht q hq
  exact ⟨h.nodup, h.frames, key _ h.queues _ h.queues, h.cals, h.passes, h.sending⟩

theorem ranged_dropCopies {i : Nat} (h : s.ranged) : (s.dropCopies i).1.ranged := by
  unfold dropCopies
  extract_lets l s₁ qs st
  have h₁ : s₁.ranged := by simpa [s₁] using h
  exact ranged_filterQueues h₁

theorem ranged_endSending {n : Nat} (h : s.ranged) : (s.endSending n).ranged where
  nodup := h.nodup
  frames := h.frames
  queues := h.queues
  cals := h.cals
  passes := h.passes
  sending p hp := by
    change p ∈ Tbl.set none s.fwd.sending n none at hp
    rcases Tbl.mem_set hp with ⟨hv, -⟩ | hp
    · exact absurd rfl hv
    · exact h.sending p hp

theorem ranged_finish {f : Frame} {l : Looked} {zero : List Nat} (h : s.ranged) (hf : f.Ranged) : (s.finish f l zero).ranged := by
  unfold finish
  extract_lets begun trig s₁ s₂ x s₃ s₄ ports
  split
  · have h₁ : s₁.ranged := ranged_foldl_of h fun t ht x _ => by
      rw [ranged_cellsAdd]
      exact ranged_endSending (by simpa using ht)
    have h₂ : s₂.ranged := by
      unfold s₂
      split <;> simpa using h₁
    simpa using h₂
  · next cause =>
    extract_lets s₅ s₆ s₇
    have h₃ : s₃.ranged := ranged_setFrame (ranged_dropCopies h) ⟨hf.1, hf.2.1, by simp, hf.2.2.2⟩
    have h₄ : s₄.ranged := by
      unfold s₄
      split <;> simpa using h₃
    have h₅ : s₅.ranged := ranged_foldl_of h₄ fun t ht x _ => by
      rw [ranged_cellsAdd]
      exact ranged_endSending (by simpa using ht)
    have h₇ : s₇.ranged := by
      unfold s₇
      split
      · exact h₄
      · simpa [s₆] using h₅
    simpa using h₇

end State

end Sys2Proof.Machine
end

section

/-! ## Forwarding in range: commands on frames, calendars and ports -/

set_option Elab.async false

namespace Sys2Proof.Machine.State

variable {s t : State}

/-! ### Lookup and end of a frame -/

@[simp] theorem ranged_frameLookup {n : Nat} (h : s.ranged) : (s.frameLookup n).ranged := by
  unfold frameLookup
  split
  · exact h
  next f hf =>
  have F := ranged_of_find h hf
  split
  · exact h
  extract_lets landed f₁ s₁
  have F₁ : f₁.Ranged := by
    unfold f₁
    split
    · exact ranged_land F
    · exact F
  have h₁ : s₁.ranged := by simpa [s₁] using h
  split
  next s₂ l hl =>
  have h₂ : s₂.ranged := by
    rw [ranged_ofFst hl ranged_lookup_fst]
    exact h₁
  have hL : l.Ranged := by
    have := s₁.ranged_lookup (f := f₁)
    rwa [hl] at this
  extract_lets f₂ s₃ s₄ s₅
  have F₂ : f₂.Ranged := ⟨F₁.1, F₁.2.1, F₁.2.2.1, by
    rintro x ⟨⟩
    exact hL⟩
  have h₃ : s₃.ranged := ranged_setFrame h₂ F₂
  have h₄ : s₄.ranged := by
    unfold s₄
    split
    · exact h₃
    · exact ranged_toManager h₃
  refine ranged_settle ?_
  unfold s₅
  split
  · next g hg =>
    split
    · exact ranged_finish h₄ (ranged_of_frameOf h₄ hg)
    · exact h₄
  · exact h₄

theorem ranged_trim {f : Frame} (h : s.ranged) (hf : f.Ranged) : (s.trim f).ranged := by
  unfold trim
  extract_lets k d l pool s₁
  split
  · exact ranged_setFrame h hf
  · have h₁ : s₁.ranged := ranged_foldl_of h fun t ht c _ => by simpa using ht
    simpa using ranged_setFrame h₁ (f := { f with cells := k, landing := l, landPool := pool }) hf

theorem ranged_judgeEnd {f : Frame} {zero : List Nat} (h : s.ranged) (hf : f.Ranged) : (s.judgeEnd f zero).ranged := by
  unfold judgeEnd
  extract_lets s₁
  have h₁ : s₁.ranged := ranged_trim h hf
  split
  · next g hg =>
    split
    · exact ranged_settle (ranged_finish h₁ (ranged_of_frameOf h₁ hg))
    · exact ranged_settle h₁
  · exact h₁

@[simp] theorem ranged_judgeEnds (h : s.ranged) : s.judgeEnds.ranged :=
  ranged_foldl_of h fun t ht f hf => by
    split
    · exact ranged_judgeEnd ht (ranged_of_mem h hf)
    · exact ht

@[simp] theorem ranged_frameEnd {n : Nat} {e : RxEnd} {corr : Nat} (h : s.ranged) : (s.frameEnd n e corr).ranged := by
  unfold frameEnd
  split
  · exact h
  next f hf =>
  extract_lets e' b f₁ zero s₁ s₂
  have F : f₁.Ranged := (ranged_of_find h hf :)
  have h₁ : s₁.ranged := by
    unfold s₁
    cases e' <;> simpa using h
  have h₂ : s₂.ranged := by simpa [s₂] using h₁
  split
  · exact ranged_judgeEnd h₂ F
  · exact ranged_setFrame h₂ F

/-! ### Ageing and spill -/

theorem ranged_ageHeads {q : Nat} {l : List QCopy} (h : s.ranged) (hl : ∀ c ∈ l, c.Ranged q) : (s.ageHeads q l).ranged := by
  induction l generalizing s with
  | nil => exact ranged_setQueue h (by simp)
  | cons c r ih =>
    unfold ageHeads
    split
    · exact ih (by simpa using h) fun c hc => hl c (List.mem_cons_of_mem _ hc)
    · exact ranged_setQueue h hl

@[simp] theorem ranged_ageScan (h : s.ranged) : s.ageScan.ranged := by
  unfold ageScan
  split
  · rw [ranged_spillShow]
    exact ranged_settle (ranged_foldl_of h fun t ht p _ => ranged_ageHeads ht fun c hc => ranged_of_queue ht hc)
  · exact h

@[simp] theorem ranged_spillList_fst {keep hd l} : (s.spillList keep hd l).1.ranged = s.ranged := by
  fun_induction spillList s keep hd l
  case case3 e ih | case4 e ih | case5 e ih => exact ranged_ofFst e ih
  case case7 => exact ranged_spillFull
  case case8 t₁ t₂ u r e ih =>
    have h : t₂.ranged = t₁.ranged := by simp [t₂]
    exact (ranged_ofFst e ih).trans (by simp [h, t₁])
  all_goals rfl

/-- A pass of the spill engine keeps each copy's port and class. -/
theorem ranged_spillList_snd {keep hd q : Nat} {l : List QCopy} (hl : ∀ c ∈ l, c.Ranged q) :
    ∀ c ∈ (s.spillList keep hd l).2, c.Ranged q := by
  have tl {c : QCopy} {r : List QCopy} (h : ∀ x ∈ c :: r, x.Ranged q) : ∀ x ∈ r, x.Ranged q :=
    fun x hx => h x (List.mem_cons_of_mem _ hx)
  have cons {c : QCopy} {u : State} {r' : List QCopy} {p : State × List QCopy} (hc : c.Ranged q) (e : p = (u, r'))
      (ih : ∀ x ∈ p.2, x.Ranged q) : ∀ x ∈ c :: r', x.Ranged q := by
    rw [e] at ih
    exact List.forall_mem_cons.2 ⟨hc, ih⟩
  fun_induction spillList s keep hd l
  case case3 e ih | case4 e ih | case5 e ih =>
    exact cons (hl _ (List.mem_cons_self ..)) e (ih (tl hl))
  case case8 e ih => exact cons (hl _ (List.mem_cons_self ..) :) e (ih (tl hl))
  all_goals exact hl

@[simp] theorem ranged_spillWrite {q : Nat} (h : s.ranged) : (s.spillWrite q).ranged := by
  unfold spillWrite
  extract_lets l much
  split
  · split
    next s₁ l' e =>
    have h₁ : s₁.ranged := by
      rw [ranged_ofFst e ranged_spillList_fst]
      exact h
    have hl := s.ranged_spillList_snd (keep := s.g R.QUE_SPILL_CFG F.QUE_SPILL_CFG_HEAD_KEEP) (hd := 0)
      (l := l) (q := q) fun c hc => ranged_of_queue h hc
    rw [e] at hl
    exact ranged_settle (ranged_setQueue h₁ hl)
  · exact h

theorem ranged_readCopy {q : Nat} {head r : List QCopy} {c : QCopy} {f : Frame} (h : s.ranged) (hf : f.Ranged)
    (hl : ∀ x ∈ head ++ c :: r, x.Ranged q) : (s.readCopy q head c r f).ranged := by
  unfold readCopy
  extract_lets acct s₁
  cases acct with
  | none => exact h
  | some a =>
    dsimp -zeta only
    extract_lets s₂
    have h₁ : s₁.ranged := by simpa [s₁] using h
    have h₂ : s₂.ranged := by simpa [s₂] using ranged_setFrame h₁ (f := { f with account := a }) hf
    have hl' : ∀ x ∈ head ++ { c with dram := false } :: r, x.Ranged q := fun x hx => by
      rcases List.mem_append.1 hx with hx | hx
      · exact hl x (List.mem_append_left _ hx)
      rcases List.mem_cons.1 hx with rfl | hx
      · exact hl c (by simp)
      · exact hl x (by simp [hx])
    simpa using ranged_setQueue h₂ hl'

@[simp] theorem ranged_spillRead {q : Nat} {hd : SpillHead} (h : s.ranged) : (s.spillRead q hd).ranged := by
  unfold spillRead
  extract_lets l head cells s₁
  have h₁ : s₁.ranged := by
    unfold s₁
    split <;> simpa using h
  clear_value s₁
  have hq : ∀ c ∈ head ++ l.dropWhile (fun c => !c.dram), c.Ranged q := by
    unfold head
    rw [List.takeWhile_append_dropWhile]
    exact fun c hc => ranged_of_queue h hc
  split
  · exact h
  · next c r e =>
    rw [e] at hq
    split
    · exact h
    · extract_lets gone s₂
      split
      · have h₂ : s₂.ranged := ranged_foldl_of h₁ fun t ht c _ => by simpa using ht
        rw [ranged_spillShow]
        refine ranged_settle ?_
        rw [ranged_fault]
        refine ranged_setQueue h₂ fun x hx => ?_
        rcases List.mem_append.1 hx with hx | hx
        · exact hq x (List.mem_append_left _ hx)
        · exact hq x (List.mem_append_right _ (List.mem_cons_of_mem _ (List.mem_of_mem_filter hx)))
      · next f hf => exact ranged_settle (ranged_readCopy h₁ (ranged_of_frameOf h₁ hf) hq)
      · exact h₁

/-! ### Calendars and pass lists -/

/-- The copies of port `n` that a calendar or a pass list holds. -/
theorem port_of_get {x : Tbl (List HCopy)} (h : ∀ p ∈ x, p.1 < 24 ∧ ∀ c ∈ p.2, c.port = p.1) {c : HCopy} {n : Nat}
    (hc : c ∈ Tbl.get [] x n) : n < 24 ∧ c.port = n := by
  rcases Tbl.get_mem [] x n with e | m
  · rw [e] at hc
    cases hc
  · exact ⟨(h _ m).1, (h _ m).2 c hc⟩

theorem port_of_set {x : Tbl (List HCopy)} (h : ∀ p ∈ x, p.1 < 24 ∧ ∀ c ∈ p.2, c.port = p.1) {n : Nat} {l : List HCopy}
    (hl : ∀ c ∈ l, n < 24 ∧ c.port = n) : ∀ p ∈ Tbl.set [] x n l, p.1 < 24 ∧ ∀ c ∈ p.2, c.port = p.1 := fun p hp => by
  rcases Tbl.mem_set hp with ⟨hv, rfl⟩ | hp
  · obtain ⟨c, hc⟩ := List.exists_mem_of_ne_nil _ hv
    exact ⟨(hl c hc).1, fun c hc => (hl c hc).2⟩
  · exact h p hp

theorem port_of_cal {n : Nat} {c : HCopy} (h : s.ranged) (hc : c ∈ s.cal n) : n < 24 ∧ c.port = n := port_of_get h.cals hc

theorem port_of_passList {n : Nat} {c : HCopy} (h : s.ranged) (hc : c ∈ s.passList n) : n < 24 ∧ c.port = n :=
  port_of_get h.passes hc

theorem ranged_setCal {n : Nat} {l : List HCopy} (h : s.ranged) (hl : ∀ c ∈ l, n < 24 ∧ c.port = n) :
    (s.setCal n l).ranged := by
  unfold setCal
  extract_lets src s₁ k src' s₂ s₃ s₄
  have h₁ : s₁.ranged := ⟨h.nodup, h.frames, h.queues, port_of_set h.cals hl, h.passes, h.sending⟩
  simpa [s₄, s₃, s₂, src'] using h₁

theorem ranged_setPass {n : Nat} {l : List HCopy} (h : s.ranged) (hl : ∀ c ∈ l, n < 24 ∧ c.port = n) :
    (s.setPass n l).ranged :=
  ⟨h.nodup, h.frames, h.queues, h.cals, port_of_set h.passes hl, h.sending⟩

theorem ranged_lateJudge {c : HCopy} {reason : Nat} (h : s.ranged) (hc : c.port < 24) : (s.lateJudge c reason).ranged := by
  unfold lateJudge
  split
  · exact h
  · extract_lets fc a s₁ s₂ w s₃ s₄ first src s₅ s₆
    have h₆ : s₆.ranged := by simpa [s₆, s₅, src, s₄, s₃, s₂, s₁] using h
    split
    · refine ranged_setPass h₆ fun x hx => ?_
      rcases List.mem_append.1 hx with hx | hx
      · exact port_of_passList h₆ hx
      · obtain rfl := List.mem_singleton.1 hx
        exact ⟨hc, rfl⟩
    · simpa using h₆

theorem mem_calInsert {c x : HCopy} {l : List HCopy} (h : x ∈ s.calInsert c l) : x = c ∨ x ∈ l := by
  induction l with
  | nil => simpa [calInsert] using h
  | cons y r ih =>
    unfold calInsert at h
    split at h
    · simpa using h
    · rcases List.mem_cons.1 h with rfl | h
      · exact .inr (List.mem_cons_self ..)
      · exact (ih h).imp_right (List.mem_cons_of_mem _)

theorem ranged_placeCopy {f : Frame} {l : Looked} {i : HerdInfo} {n : Nat} (h : s.ranged) (hn : n < 24) :
    (s.placeCopy f l i n).ranged := by
  unfold placeCopy
  extract_lets r slack arr src s₁ c a w s₂ reason w₂ m m₂ s₃
  have h₁ : s₁.ranged := ranged_nextId h
  have h₂ : s₂.ranged := by simpa [s₂] using h₁
  split
  · simpa using h₂
  split
  · exact ranged_lateJudge h₂ hn
  · have h₃ : s₃.ranged := by simpa [s₃] using h₂
    refine ranged_setCal h₃ fun x hx => ?_
    rcases mem_calInsert hx with rfl | hx
    · exact ⟨hn, rfl⟩
    · exact port_of_cal h₃ hx

@[simp] theorem ranged_herdPlace (h : s.ranged) : s.herdPlace.ranged := by
  unfold herdPlace
  split
  · exact h
  next f hf =>
  have F := ranged_of_find h hf
  split
  · exact h
  split
  · exact h
  split
  · exact h
  · exact ranged_settle (ranged_setFrame (ranged_foldl_of h fun t ht n hn => ranged_placeCopy ht (F.2.2.1 n hn))
      ⟨F.1, F.2.1, by simp, F.2.2.2⟩)

theorem ranged_calDepart {n : Nat} {x : Stamp} (h : s.ranged) (ht : s.calDepart n x = some t) : t.ranged := by
  unfold calDepart at ht
  split at ht
  · cases ht
  next c rest e =>
  have hl : ∀ y ∈ c :: rest, n < 24 ∧ y.port = n := fun y hy => port_of_cal h (e ▸ hy)
  have hr : (s.setCal n rest).ranged := ranged_setCal h fun y hy => hl y (List.mem_cons_of_mem _ hy)
  have hc : c.port < 24 := (hl c (List.mem_cons_self ..)).2 ▸ (hl c (List.mem_cons_self ..)).1
  split at ht
  · exact Option.some.inj ht ▸ hr
  extract_lets d due s₁ why s₂ len src s₃ at ht
  have h₁ : s₁.ranged := hr
  have h₃ : s₃.ranged := by simpa [s₃, src, s₂] using h₁
  clear_value s₃ s₁ d due why len
  split at ht
  · cases ht
  split at ht
  · rw [← Option.some.inj ht]
    exact ranged_settle (by simpa using h₁)
  split at ht
  · rw [← Option.some.inj ht]
    exact ranged_settle (ranged_lateJudge h₁ hc)
  · rw [← Option.some.inj ht]
    refine ranged_settle ?_
    simpa using h₃

@[simp] theorem ranged_herdDecision {n : Nat} {x : StampIn} (h : s.ranged) : (s.herdDecision n x).ranged := by
  unfold herdDecision
  cases e : s.calDepart n (s.txStamp n x) with
  | none => exact h
  | some t => exact ranged_calDepart h e

theorem ranged_herdRestartPort {n : Nat} {l kept : List HCopy} (h : s.ranged) (hk : ∀ c ∈ kept, n < 24 ∧ c.port = n)
    (hl : ∀ c ∈ l, n < 24 ∧ c.port = n) : (s.herdRestartPort n kept l).ranged := by
  induction l generalizing s kept with
  | nil => exact ranged_setCal h hk
  | cons c r ih =>
    have hc := hl c (List.mem_cons_self ..)
    have hr : ∀ c ∈ r, n < 24 ∧ c.port = n := fun c hm => hl c (List.mem_cons_of_mem _ hm)
    unfold herdRestartPort
    split
    · exact ih (ranged_lateJudge h (hc.2 ▸ hc.1)) hk hr
    · refine ih h (fun x hx => ?_) hr
      rcases List.mem_append.1 hx with hx | hx
      · exact hk x hx
      · exact List.mem_singleton.1 hx ▸ hc

@[simp] theorem ranged_herdRestart (h : s.ranged) : s.herdRestart.ranged :=
  ranged_settle (ranged_foldl_of h fun _ ht p hp =>
    ranged_herdRestartPort ht (by simp) fun c hc => ⟨(h.cals p hp).1, (h.cals p hp).2 c hc⟩)

@[simp] theorem ranged_herdClaimLost (h : s.ranged) : s.herdClaimLost.ranged := by
  refine ranged_settle (ranged_foldl_of h fun t ht n _ => ?_)
  split
  · extract_lets l
    split
    · exact ht
    · have hf : (l.foldl State.claimRemove t).ranged := ranged_foldl_of ht fun u hu c _ => by simpa using hu
      exact ranged_setPass (ranged_setCal hf (by simp)) (by simp)
  · exact ht

/-! ### Ports -/

theorem pickClass_mem {n : Nat} {c : QCopy} (h : s.ranged) (hc : s.pickClass n = some c) :
    c.port = n ∧ c.cls < 8 := by
  unfold pickClass at hc
  obtain ⟨k, hk, e⟩ := List.mem_filterMap.1 (List.mem_of_mem_head? hc)
  have hk : k < 8 := by
    simp at hk
    omega
  split at e
  · next x r hq =>
    split at e
    · obtain rfl := Option.some.inj e
      obtain ⟨-, hcls, hqueue⟩ := ranged_of_queue (q := 8 * n + k) h (hq ▸ List.mem_cons_self ..)
      unfold QCopy.queue at hqueue
      exact ⟨by omega, hcls⟩
    · cases e
  · cases e

theorem ranged_select {n k : Nat} (h : s.ranged) :
    (s.select n k).1.ranged ∧ ∀ c ∈ (s.select n k).2, c.port = n ∧ c.cls < 8 := by
  induction k generalizing s with
  | zero => exact ⟨h, by simp [select]⟩
  | succ k ih =>
    unfold select
    split
    · exact ⟨h, by simp⟩
    next c hc =>
    split
    · refine ih (ranged_setQueue (by simpa using h) fun x hx => ranged_of_queue h (List.mem_of_mem_drop hx))
    · refine ⟨h, ?_⟩
      rintro x ⟨⟩
      exact pickClass_mem h hc

theorem ranged_startOrdinary {n : Nat} {x : Stamp} (h : s.ranged) (hn : n < 24) : (s.startOrdinary n x).ranged := by
  have H := ranged_select (n := n) (k := s.portCopies n + 1) h
  unfold startOrdinary
  split
  · next s₁ e =>
    rw [e] at H
    exact ranged_settle H.1
  next s₁ c e =>
  rw [e] at H
  have h₁ := H.1
  split
  · exact ranged_settle h₁
  split
  · exact ranged_settle h₁
  split
  · exact ranged_settle h₁
  · extract_lets s₂
    have h₂ : s₂.ranged := ranged_dropHead h₁
    split
    · exact ranged_settle (by simpa using h₂)
    · refine ⟨h₂.nodup, h₂.frames, h₂.queues, h₂.cals, h₂.passes, fun p hp => ?_⟩
      change p ∈ Tbl.set none s₂.fwd.sending n (some ⟨c, x⟩) at hp
      rcases Tbl.mem_set hp with ⟨-, rfl⟩ | hp
      · refine ⟨hn, ?_⟩
        rintro y ⟨⟩
        exact H.2 c rfl
      · exact h₂.sending p hp

theorem ranged_servePass {n : Nat} {x : Stamp} (h : s.ranged) (ht : s.servePass n x = some t) : t.ranged := by
  unfold servePass at ht
  split at ht
  · cases ht
  next c rest e =>
  have hr : (s.setPass n rest).ranged := ranged_setPass h fun y hy => port_of_passList h (e ▸ List.mem_cons_of_mem _ hy)
  split at ht
  · exact Option.some.inj ht ▸ hr
  next f l i _ =>
  have hp : ((s.inc R.HRD_CNT_PASSED F.HRD_CNT_PASSED_COUNT).raw R.HRD_RAW F.HRD_RAW_PASSED).ranged := by simpa using h
  split at ht
  · cases ht
  split at ht
  · rw [← Option.some.inj ht]
    exact ranged_settle (by simpa using hr)
  split at ht
  · exact Option.some.inj ht ▸ h
  · rw [← Option.some.inj ht]
    refine ranged_settle ?_
    rw [ranged_depart]
    exact ranged_setPass hp fun y hy => port_of_passList h (e ▸ List.mem_cons_of_mem _ hy)

theorem ranged_egressSelect {n : Nat} {x : StampIn} (h : s.ranged) (hn : n < 24) : (s.egressSelect n x).ranged := by
  unfold egressSelect
  extract_lets t
  split
  · next u e => exact ranged_calDepart h e
  · split
    · exact h
    · split
      · next u e => exact ranged_servePass h e
      · exact ranged_startOrdinary h hn

/-! ### The host port -/

@[simp] theorem ranged_hostDeliver (h : s.ranged) : s.hostDeliver.ranged := by
  have H := ranged_select (n := 24) (k := s.portCopies 24 + 1) h
  unfold hostDeliver
  split
  · exact h
  split
  · next s₁ e =>
    rw [e] at H
    exact ranged_settle H.1
  next s₁ c e =>
  rw [e] at H
  have h₁ := H.1
  split
  · exact ranged_settle h₁
  split
  · exact ranged_settle h₁
  · extract_lets s₂ b s₃
    have h₂ : s₂.ranged := ranged_dropHead h₁
    refine ranged_settle ?_
    simpa [s₃] using h₂

@[simp] theorem ranged_hostIngest {desc mem : List Byte} (h : s.ranged) : (s.hostIngest desc mem).ranged := by
  unfold hostIngest
  extract_lets flags buf b p k src f n hd vid src₁ l f₁ f₂
  have hf : src.Ranged := ranged_newFrame (by decide) prio_lt
  split
  · exact h
  split
  · simpa using h
  split
  · exact h
  split
  · split
    · simpa using h
    next hn =>
    have hl : l.Ranged := ⟨bitsOf_lt, by simp [l, src₁, Looked.nothing], fun m hm => by
      obtain rfl := List.mem_singleton.1 hm
      omega⟩
    have hf₁ : f₁.Ranged := ⟨hf.1, hf.2.1, hf.2.2.1, by
      rintro x ⟨⟩
      exact hl⟩
    split
    · simpa using h
    split
    · exact h
    · have ha : (s.addFrame f₁).ranged := ranged_addFrame h rfl hf₁
      refine ranged_settle ?_
      rw [ranged_addReady]
      exact ranged_handOver (by simpa using ha) hf₁ hl
  · have ha : (s.addFrame f₂).ranged := ranged_addFrame h rfl (ranged_land hf)
    simpa using ha

@[simp] theorem ranged_mgmtRx {n : Nat} (h : s.ranged) : (s.mgmtRx n).ranged := by
  unfold mgmtRx
  split
  · exact h
  next f hf =>
  have F := ranged_of_find h hf
  split
  · exact h
  next l hl =>
  have hL := F.2.2.2 l hl
  extract_lets l₁
  have hL₁ : l₁.Ranged := ⟨hL.1, hL.2.1, by simp [l₁]⟩
  have hf₁ : ({ f with look := some l₁ } : Frame).Ranged := ⟨F.1, F.2.1, F.2.2.1, by
    rintro x ⟨⟩
    exact hL₁⟩
  split
  · exact ranged_settle (by simpa using ranged_setFrame h (f := { f with placed := true }) F)
  split
  · exact h
  · exact ranged_settle (ranged_handOver (ranged_setFrame h hf₁) hf₁ hL₁)

end Sys2Proof.Machine.State
end

section

/-! ## Forwarding in range: the operations of the other blocks, and every command -/

set_option Elab.async false

namespace Sys2Proof.Machine.State

variable {s t : State}

/-! ### Herd and egress -/
/-! ### Guyline messages and the pair -/
@[simp] theorem ranged_setGuy {g} : (s.setGuy g).ranged = s.ranged := by unfold setGuy; simp
@[simp] theorem ranged_setRut {r} : (s.setRut r).ranged = s.ranged := by unfold setRut; simp
@[simp] theorem ranged_guyMessages_fst {l} : (s.guyMessages l).1.ranged = s.ranged := by
  fun_induction guyMessages s l
  case case1 => rfl
  case case2 e ih => exact (ranged_ofFst e ih).trans ranged_setGuy
@[simp] theorem ranged_guyPut {l} : (s.guyPut l).ranged = s.ranged := by unfold guyPut; simp
@[simp] theorem ranged_guySend {c payload} : (s.guySend c payload).ranged = s.ranged := by unfold guySend; simp
@[simp] theorem ranged_setWire {f} : (s.setWire f).ranged = s.ranged := by unfold setWire; simp
@[simp] theorem ranged_setPairState {n} : (s.setPairState n).ranged = s.ranged := by unfold setPairState; simp
@[simp] theorem ranged_mirrorOver : s.mirrorOver.ranged = s.ranged := by unfold mirrorOver; simp
@[simp] theorem ranged_claimRec {code before partnerBefore} :
    (s.claimRec code before partnerBefore).ranged = s.ranged := by
  unfold claimRec; simp
@[simp] theorem ranged_setHigher {b} (h : s.ranged) : (s.setHigher b).ranged := by
  unfold setHigher
  simp only [ranged_ite]
  split
  · exact h
  split
  · split
    · split <;> simpa using h
    · simpa using h
  · exact ranged_herdClaimLost (by simpa using h)
@[simp] theorem ranged_rutRefresh (h : s.ranged) : s.rutRefresh.ranged := by unfold rutRefresh; simp [h]
@[simp] theorem ranged_becomeHigher (h : s.ranged) : s.becomeHigher.ranged := by unfold becomeHigher; simp [h]
@[simp] theorem ranged_applyTimeRecord {l} : (s.applyTimeRecord l).ranged = s.ranged := by unfold applyTimeRecord; simp
@[simp] theorem ranged_setWords {a b l} : (s.setWords a b l).ranged = s.ranged := by
  fun_induction setWords s a b l <;> simp [*]
@[simp] theorem ranged_batchApply : s.batchApply.ranged = s.ranged := by
  unfold batchApply
  split <;> simp
@[simp] theorem ranged_takeover : s.takeover.ranged = s.ranged := by unfold takeover; simp
@[simp] theorem ranged_toStandby {epoch} : (s.toStandby epoch).ranged = s.ranged := by unfold toStandby; simp
@[simp] theorem ranged_demote : s.demote.ranged = s.ranged := by unfold demote; simp
@[simp] theorem ranged_pairRules : s.pairRules.ranged = s.ranged := by
  unfold pairRules
  split <;> simp
@[simp] theorem ranged_pairEval (h : s.ranged) : s.pairEval.ranged := by unfold pairEval; simp [h]
@[simp] theorem ranged_discardCopy {kind} : (s.discardCopy kind).ranged = s.ranged := by unfold discardCopy; simp
@[simp] theorem ranged_discardIncomplete : s.discardIncomplete.ranged = s.ranged := by unfold discardIncomplete; simp
@[simp] theorem ranged_mirrorRx {p} : (s.mirrorRx p).ranged = s.ranged := by unfold mirrorRx; simp
@[simp] theorem ranged_ckptRx {p} : (s.ckptRx p).ranged = s.ranged := by unfold ckptRx; simp
@[simp] theorem ranged_commitRx {p} : (s.commitRx p).ranged = s.ranged := by
  unfold commitRx
  simp only [ranged_ite]
  (repeat' split) <;> simp
@[simp] theorem ranged_hbFail (h : s.ranged) : s.hbFail.ranged := by unfold hbFail; simp [h]
@[simp] theorem ranged_pairLinkDown (h : s.ranged) : s.pairLinkDown.ranged := by unfold pairLinkDown; simp [h]
@[simp] theorem ranged_heartbeatRx {p} (h : s.ranged) : (s.heartbeatRx p).ranged := by unfold heartbeatRx; simp [h]
@[simp] theorem ranged_claimRx {p} (h : s.ranged) : (s.claimRx p).ranged := by unfold claimRx; simp [h]
@[simp] theorem ranged_heartbeatTx : s.heartbeatTx.ranged = s.ranged := by unfold heartbeatTx; simp
@[simp] theorem ranged_claimTx : s.claimTx.ranged = s.ranged := by unfold claimTx; simp
@[simp] theorem ranged_wireStale (h : s.ranged) : s.wireStale.ranged := by unfold wireStale; simp [h]
@[simp] theorem ranged_wireRx {f} (h : s.ranged) : (s.wireRx f).ranged := by
  unfold wireRx
  split <;> simp [h]
@[simp] theorem ranged_pairEnable (h : s.ranged) : s.pairEnable.ranged := by unfold pairEnable; simp [h]
@[simp] theorem ranged_pairDisable (h : s.ranged) : s.pairDisable.ranged := by unfold pairDisable; simp [h]
@[simp] theorem ranged_rutCtrlAct (h : s.ranged) : s.rutCtrlAct.ranged := by unfold rutCtrlAct; simp [h]
@[simp] theorem ranged_initWait (h : s.ranged) : s.initWait.ranged := by unfold initWait; simp [h]
@[simp] theorem ranged_pairHand {scan} : (s.pairHand scan).ranged = s.ranged := by unfold pairHand; simp
@[simp] theorem ranged_handOverCmd : s.handOverCmd.ranged = s.ranged := by unfold handOverCmd; simp
@[simp] theorem ranged_release (h : s.ranged) : s.release.ranged := by unfold release; simp [h]
@[simp] theorem ranged_rutCmdAct {v} (h : s.ranged) : (s.rutCmdAct v).ranged := by unfold rutCmdAct; simp [h]
@[simp] theorem ranged_scanFailOver_fst : s.scanFailOver.1.ranged = s.ranged := by
  unfold scanFailOver
  dsimp only
  (repeat' split) <;> simp
@[simp] theorem ranged_sendCopy {c kind ident o l} : (s.sendCopy c kind ident o l).ranged = s.ranged := by
  unfold sendCopy; simp
@[simp] theorem ranged_accrueAll : s.accrueAll.ranged = s.ranged := by unfold accrueAll; simp
@[simp] theorem ranged_mirrorStart : s.mirrorStart.ranged = s.ranged := by unfold mirrorStart; simp
@[simp] theorem ranged_ckptStart : s.ckptStart.ranged = s.ranged := by unfold ckptStart; simp
@[simp] theorem ranged_applyCheckpoint {b} : (s.applyCheckpoint b).ranged = s.ranged := by unfold applyCheckpoint; simp
@[simp] theorem ranged_ckptApplied (h : s.ranged) : s.ckptApplied.ranged := by
  unfold ckptApplied
  simp only [ranged_ite]
  (repeat' split) <;> simp [h]
@[simp] theorem ranged_setGuyState {n} : (s.setGuyState n).ranged = s.ranged := by unfold setGuyState; simp
@[simp] theorem ranged_laneBit {f l b} : (s.laneBit f l b).ranged = s.ranged := by unfold laneBit; simp
@[simp] theorem ranged_setGuyPd {tx st d} : (s.setGuyPd tx st d).ranged = s.ranged := by unfold setGuyPd; simp
@[simp] theorem ranged_guyPdRefresh : s.guyPdRefresh.ranged = s.ranged := by unfold guyPdRefresh; simp
@[simp] theorem ranged_guyPdSample {tx raw} : (s.guyPdSample tx raw).ranged = s.ranged := by unfold guyPdSample; simp
@[simp] theorem ranged_guyPdGap : s.guyPdGap.ranged = s.ranged := by unfold guyPdGap; simp
@[simp] theorem ranged_guyLeaveUp {host marker} (h : s.ranged) : (s.guyLeaveUp host marker).ranged := by
  unfold guyLeaveUp; simp [h]
@[simp] theorem ranged_guyEval (h : s.ranged) : s.guyEval.ranged := by unfold guyEval; simp [h]
@[simp] theorem ranged_laneChange (h : s.ranged) : s.laneChange.ranged := by unfold laneChange; simp [h]
@[simp] theorem ranged_laneDetect {f l b} (h : s.ranged) : (s.laneDetect f l b).ranged := by unfold laneDetect; simp [h]
@[simp] theorem ranged_blockLock {l gained compl} (h : s.ranged) : (s.blockLock l gained compl).ranged := by
  unfold blockLock; simp [h]
@[simp] theorem ranged_guyMarkers : s.guyMarkers.ranged = s.ranged := by unfold guyMarkers; simp
@[simp] theorem ranged_guyEnable (h : s.ranged) : s.guyEnable.ranged := by unfold guyEnable; simp [h]
@[simp] theorem ranged_guyDisable (h : s.ranged) : s.guyDisable.ranged := by unfold guyDisable; simp [h]
@[simp] theorem ranged_guyCtrlAct (h : s.ranged) : s.guyCtrlAct.ranged := by unfold guyCtrlAct; simp [h]
@[simp] theorem ranged_markerRx {l} (h : s.ranged) : (s.markerRx l).ranged := by unfold markerRx; simp [h]
@[simp] theorem ranged_alignTimeout : s.alignTimeout.ranged = s.ranged := by unfold alignTimeout; simp
@[simp] theorem ranged_streamError {code lanes} : (s.streamError code lanes).ranged = s.ranged := by
  unfold streamError
  simp only [ranged_ite]
  (repeat' split) <;> simp
@[simp] theorem ranged_timeTx {x} : (s.timeTx x).ranged = s.ranged := by unfold timeTx; simp
@[simp] theorem ranged_timeRx {t2 q p} : (s.timeRx t2 q p).ranged = s.ranged := by
  unfold timeRx
  dsimp only
  (repeat' split) <;> simp
@[simp] theorem ranged_timeStale : s.timeStale.ranged = s.ranged := by unfold timeStale; simp
@[simp] theorem ranged_showLock {n b signal} : (s.showLock n b signal).ranged = s.ranged := by unfold showLock; simp
@[simp] theorem ranged_lockLost {n signal} : (s.lockLost n signal).ranged = s.ranged := by unfold lockLost; simp
@[simp] theorem ranged_lockGained {n} : (s.lockGained n).ranged = s.ranged := by unfold lockGained; simp
@[simp] theorem ranged_copyFactory {n} : (s.copyFactory n).ranged = s.ranged := by unfold copyFactory; simp
@[simp] theorem ranged_macCfgAct {n old} : (s.macCfgAct n old).ranged = s.ranged := by unfold macCfgAct; simp
@[simp] theorem ranged_setLane {n b} : (s.setLane n b).ranged = s.ranged := by unfold setLane; simp
@[simp] theorem ranged_truncate {n k} (h : s.ranged) : (s.truncate n k).ranged := by
  unfold truncate
  extract_lets s₁
  have h₁ : s₁.ranged := by simpa [s₁] using h
  split
  · simpa using h₁
  · rw [ranged_emit]
    split
    · split <;> simpa using ranged_endSending h₁
    · exact ranged_endSending h₁
@[simp] theorem ranged_laneUnlock {n sent} (h : s.ranged) : (s.laneUnlock n sent).ranged := by
  unfold laneUnlock
  extract_lets src s₁ s₂ s₃
  have h₁ : s₁.ranged := by simpa [s₁, src] using h
  have h₂ : s₂.ranged := by
    unfold s₂
    split
    · exact ranged_truncate h₁
    · exact h₁
  have h₃ : s₃.ranged := by simpa [s₃] using h₂
  clear_value s₁ s₃
  split
  · split
    · exact ranged_settle (by simpa using h₃)
    · exact ranged_laneDetect (by simpa using h₁)
  · exact h
/-! ### The journal, event inputs and pins -/
@[simp] theorem ranged_sprStatus : s.sprStatus.ranged = s.ranged := by
  unfold sprStatus
  extract_lets n gap full s₁ s₂
  rw [ranged_cond]
  simp [s₂, s₁]
@[simp] theorem ranged_sprEnable : s.sprEnable.ranged = s.ranged := by unfold sprEnable; simp
@[simp] theorem ranged_sprDisable : s.sprDisable.ranged = s.ranged := by unfold sprDisable; simp
@[simp] theorem ranged_sprCtrlAct {old} : (s.sprCtrlAct old).ranged = s.ranged := by unfold sprCtrlAct; simp
@[simp] theorem ranged_sprPartition : s.sprPartition.ranged = s.ranged := by unfold sprPartition; simp
@[simp] theorem ranged_recordWrite : s.recordWrite.ranged = s.ranged := by
  unfold recordWrite
  split <;> simp
@[simp] theorem ranged_lossRecord : s.lossRecord.ranged = s.ranged := by unfold lossRecord; simp
@[simp] theorem ranged_sprFire : s.sprFire.ranged = s.ranged := by unfold sprFire; simp
@[simp] theorem ranged_sprRearm : s.sprRearm.ranged = s.ranged := by unfold sprRearm; simp
@[simp] theorem ranged_sprFetch : s.sprFetch.ranged = s.ranged := by unfold sprFetch; simp
@[simp] theorem ranged_sprCmdAct {v} : (s.sprCmdAct v).ranged = s.ranged := by unfold sprCmdAct; simp
@[simp] theorem ranged_fetchDone : s.fetchDone.ranged = s.ranged := by unfold fetchDone; simp
@[simp] theorem ranged_pinTrig {fall ns} : (s.pinTrig fall ns).ranged = s.ranged := by unfold pinTrig; simp
@[simp] theorem ranged_sprFreeze : s.sprFreeze.ranged = s.ranged := by unfold sprFreeze; simp
@[simp] theorem ranged_journalBuffer {desc idle} : (s.journalBuffer desc idle).ranged = s.ranged := by
  unfold journalBuffer; simp
@[simp] theorem ranged_setChan {e c} : (s.setChan e c).ranged = s.ranged := by unfold setChan; simp
@[simp] theorem ranged_setUnit {m u} : (s.setUnit m u).ranged = s.ranged := by unfold setUnit; simp
@[simp] theorem ranged_statusBit {f e b} : (s.statusBit f e b).ranged = s.ranged := by unfold statusBit; simp
@[simp] theorem ranged_latch {m freq} : (s.latch m freq).ranged = s.ranged := by unfold latch; simp
@[simp] theorem ranged_sample {m freq x} : (s.sample m freq x).ranged = s.ranged := by unfold sample; simp
@[simp] theorem ranged_clearBlock {m} : (s.clearBlock m).ranged = s.ranged := by unfold clearBlock; simp
@[simp] theorem ranged_tdcRec {kind e start sub value w6 w7 time seg gap trig} :
    (s.tdcRec kind e start sub value w6 w7 time seg gap trig).ranged = s.ranged := by
  unfold tdcRec; simp
@[simp] theorem ranged_windowEvent {m c} : (s.windowEvent m c).ranged = s.ranged := by unfold windowEvent; simp
@[simp] theorem ranged_result {m freq x} : (s.result m freq x).ranged = s.ranged := by unfold result; simp
@[simp] theorem ranged_stop {m w u seg} : (s.stop m w u seg).ranged = s.ranged := by unfold stop; simp
@[simp] theorem ranged_dropWin {m} : (s.dropWin m).ranged = s.ranged := by unfold dropWin; simp
@[simp] theorem ranged_windowClose {m} : (s.windowClose m).ranged = s.ranged := by
  unfold windowClose
  split <;> simp
@[simp] theorem ranged_windowEnd {m c} : (s.windowEnd m c).ranged = s.ranged := by
  unfold windowEnd
  split <;> simp
@[simp] theorem ranged_openWindow {m x} : (s.openWindow m x).ranged = s.ranged := by
  unfold openWindow
  extract_lets stop same freq c w u s₁ st s₂ s₃
  have h₃ : s₃.ranged = s.ranged := by
    unfold s₃
    split <;> simp [s₂, st, s₁]
  clear_value s₃
  refine (ranged_foldl fun t u => ?_).trans h₃
  split <;> simp
@[simp] theorem ranged_windowStart {m} : (s.windowStart m).ranged = s.ranged := by
  unfold windowStart
  dsimp only
  (repeat' split) <;> simp
@[simp] theorem ranged_giveStart {ch x} : (s.giveStart ch x).ranged = s.ranged := by unfold giveStart; simp
@[simp] theorem ranged_chanOut {e} : (s.chanOut e).ranged = s.ranged := by unfold chanOut; simp
@[simp] theorem ranged_chanStatus {e} : (s.chanStatus e).ranged = s.ranged := by unfold chanStatus; simp
@[simp] theorem ranged_edgeLost {e u} : (s.edgeLost e u).ranged = s.ranged := by
  refine (ranged_foldl fun t m => ?_).trans ranged_setChan
  dsimp only
  split <;> simp
@[simp] theorem ranged_tdcEdge {e rise code since hold} : (s.tdcEdge e rise code since hold).ranged = s.ranged := by
  unfold tdcEdge
  simp only [ranged_ite]
  (repeat' split) <;> simp
@[simp] theorem ranged_pushEvent {e x} : (s.pushEvent e x).ranged = s.ranged := by unfold pushEvent; simp
@[simp] theorem ranged_popEvent {e} : (s.popEvent e).ranged = s.ranged := by
  unfold popEvent
  split <;> simp
@[simp] theorem ranged_tdcConvert {e} : (s.tdcConvert e).ranged = s.ranged := by
  unfold tdcConvert
  dsimp only
  split
  · rfl
  · rw [ranged_ite]
    split
    · rfl
    · rw [ranged_giveStart]
      refine (ranged_foldl fun t m => ?_).trans (by simp)
      split <;> simp
@[simp] theorem ranged_calibrate {e} : (s.calibrate e).ranged = s.ranged := by unfold calibrate; simp
@[simp] theorem ranged_calDone {e b s1 s2} : (s.calDone e b s1 s2).ranged = s.ranged := by unfold calDone; simp
@[simp] theorem ranged_swap {e at_} : (s.swap e at_).ranged = s.ranged := by
  unfold swap
  split <;> simp
@[simp] theorem ranged_tdcStuck {e} : (s.tdcStuck e).ranged = s.ranged := by unfold tdcStuck; simp
@[simp] theorem ranged_tdcInterval {e} : (s.tdcInterval e).ranged = s.ranged := by unfold tdcInterval; simp
@[simp] theorem ranged_tdcRearm {v} : (s.tdcRearm v).ranged = s.ranged := by unfold tdcRearm; simp
@[simp] theorem ranged_chanStop {e} : (s.chanStop e).ranged = s.ranged := by unfold chanStop; simp
@[simp] theorem ranged_tdcCfgAct {e old} : (s.tdcCfgAct e old).ranged = s.ranged := by unfold tdcCfgAct; simp
@[simp] theorem ranged_tdcCtrlAct {old} : (s.tdcCtrlAct old).ranged = s.ranged := by unfold tdcCtrlAct; simp
@[simp] theorem ranged_unitCfgAct {m} : (s.unitCfgAct m).ranged = s.ranged := by unfold unitCfgAct; simp
@[simp] theorem ranged_tdcStep : s.tdcStep.ranged = s.ranged := by
  refine ranged_foldl fun t m => ?_
  split <;> simp
@[simp] theorem ranged_tdcGap : s.tdcGap.ranged = s.ranged := by unfold tdcGap; simp
@[simp] theorem ranged_pinCount : s.pinCount.ranged = s.ranged := by unfold pinCount; simp
@[simp] theorem ranged_pinOnset {p b ev} : (s.pinOnset p b ev).ranged = s.ranged := by unfold pinOnset; simp
@[simp] theorem ranged_pinRelease {p} : (s.pinRelease p).ranged = s.ranged := by unfold pinRelease; simp
@[simp] theorem ranged_pinDeclare {p f} : (s.pinDeclare p f).ranged = s.ranged := by unfold pinDeclare; simp
@[simp] theorem ranged_pinClear {p b} : (s.pinClear p b).ranged = s.ranged := by unfold pinClear; simp
@[simp] theorem ranged_restartCand {k} : (s.restartCand k).ranged = s.ranged := by unfold restartCand; simp
@[simp] theorem ranged_pinInvert {p b} : (s.pinInvert p b).ranged = s.ranged := by unfold pinInvert; simp
@[simp] theorem ranged_pinReversed {p} : (s.pinReversed p).ranged = s.ranged := by unfold pinReversed; simp
@[simp] theorem ranged_pinCfgAct {p} : (s.pinCfgAct p).ranged = s.ranged := by unfold pinCfgAct; simp
@[simp] theorem ranged_iopCtrlAct : s.iopCtrlAct.ranged = s.ranged := by unfold iopCtrlAct; simp
@[simp] theorem ranged_shortRetest {n gone} : (s.shortRetest n gone).ranged = s.ranged := by unfold shortRetest; simp
@[simp] theorem ranged_dieTemp {raw code} : (s.dieTemp raw code).ranged = s.ranged := by unfold dieTemp; simp
@[simp] theorem ranged_pmcSnap : s.pmcSnap.ranged = s.ranged := by unfold pmcSnap; simp
@[simp] theorem ranged_pmcClear : s.pmcClear.ranged = s.ranged := by unfold pmcClear; simp
@[simp] theorem ranged_pmcSnapAct {v} : (s.pmcSnapAct v).ranged = s.ranged := by unfold pmcSnapAct; simp
@[simp] theorem ranged_pmcSelAct {g k old} : (s.pmcSelAct g k old).ranged = s.ranged := by unfold pmcSelAct; simp
@[simp] theorem ranged_pmcWrap {g j} : (s.pmcWrap g j).ranged = s.ranged := by unfold pmcWrap; simp
/-! ### The host interface -/
@[simp] theorem ranged_setBoot {n} : (s.setBoot n).ranged = s.ranged := by unfold setBoot; simp
@[simp] theorem ranged_bootFail {reason section_ offset} : (s.bootFail reason section_ offset).ranged = s.ranged := by
  unfold bootFail; simp
@[simp] theorem ranged_bootFailCrc {reason section_ offset stored found} :
    (s.bootFailCrc reason section_ offset stored found).ranged = s.ranged := by
  unfold bootFailCrc; simp
@[simp] theorem ranged_bootClocksReady : s.bootClocksReady.ranged = s.ranged := by unfold bootClocksReady; simp
@[simp] theorem ranged_bootDramReady : s.bootDramReady.ranged = s.ranged := by unfold bootDramReady; simp
@[simp] theorem ranged_bootRetry : s.bootRetry.ranged = s.ranged := by unfold bootRetry; simp
@[simp] theorem ranged_flashGo : s.flashGo.ranged = s.ranged := by unfold flashGo; simp
@[simp] theorem ranged_fillFlashBuf {k l} : (s.fillFlashBuf k l).ranged = s.ranged := by
  fun_induction fillFlashBuf s k l
  case case1 => rfl
  case case2 ih => exact ih.trans ranged_setReg
@[simp] theorem ranged_flashDone {data} : (s.flashDone data).ranged = s.ranged := by unfold flashDone; simp
@[simp] theorem ranged_dramCfgAct : s.dramCfgAct.ranged = s.ranged := by unfold dramCfgAct; simp
@[simp] theorem ranged_dramInitDone {bad} : (s.dramInitDone bad).ranged = s.ranged := by unfold dramInitDone; simp
@[simp] theorem ranged_accessFault {kind src a} : (s.accessFault kind src a).ranged = s.ranged := by
  unfold accessFault; simp
@[simp] theorem ranged_accessRaw {src f} : (s.accessRaw src f).ranged = s.ranged := by unfold accessRaw; simp
@[simp] theorem ranged_unmapped {src a} : (s.unmapped src a).ranged = s.ranged := by unfold unmapped; simp
@[simp] theorem ranged_narrow {src a} : (s.narrow src a).ranged = s.ranged := by unfold narrow; simp
@[simp] theorem ranged_timedOut {src a} : (s.timedOut src a).ranged = s.ranged := by unfold timedOut; simp
@[simp] theorem ranged_answer {src a lane len v} : (s.answer src a lane len v).ranged = s.ranged := by
  unfold answer; simp
@[simp] theorem ranged_latchShadow {src a v} : (s.latchShadow src a v).ranged = s.ranged := by unfold latchShadow; simp
@[simp] theorem ranged_latchRead {src a} : (s.latchRead src a).ranged = s.ranged := by unfold latchRead; simp
@[simp] theorem ranged_clearRead {a} : (s.clearRead a).ranged = s.ranged := by unfold clearRead; simp
@[simp] theorem ranged_readF0 {a lane len} : (s.readF0 a lane len).ranged = s.ranged := by unfold readF0; simp
@[simp] theorem ranged_readF1 {a lane len} : (s.readF1 a lane len).ranged = s.ranged := by
  unfold readF1
  dsimp only
  (repeat' split) <;> simp
@[simp] theorem ranged_readI2c {a lane len} : (s.readI2c a lane len).ranged = s.ranged := by unfold readI2c; simp
@[simp] theorem ranged_readWord {src a lane len} : (s.readWord src a lane len).ranged = s.ranged := by
  unfold readWord
  split <;> simp
@[simp] theorem ranged_setScan {n} : (s.setScan n).ranged = s.ranged := by unfold setScan; simp
@[simp] theorem ranged_scanAccepted : s.scanAccepted.ranged = s.ranged := by unfold scanAccepted; simp
@[simp] theorem ranged_scanCommit : s.scanCommit.ranged = s.ranged := by unfold scanCommit; simp
@[simp] theorem ranged_unfreeze : s.unfreeze.ranged = s.ranged := by unfold unfreeze; simp
@[simp] theorem ranged_popFault : s.popFault.ranged = s.ranged := by
  unfold popFault
  split <;> simp
@[simp] theorem ranged_dmaCtrlAct {k old} : (s.dmaCtrlAct k old).ranged = s.ranged := by unfold dmaCtrlAct; simp
@[simp] theorem ranged_actHif {a old v} : (s.actHif a old v).ranged = s.ranged := by unfold actHif; simp
@[simp] theorem ranged_actBoot {a v} : (s.actBoot a v).ranged = s.ranged := by unfold actBoot; simp
@[simp] theorem ranged_actTsc {a old v} : (s.actTsc a old v).ranged = s.ranged := by unfold actTsc; simp
@[simp] theorem ranged_actRef {a old v} : (s.actRef a old v).ranged = s.ranged := by unfold actRef; simp
@[simp] theorem ranged_actHld {a old v} : (s.actHld a old v).ranged = s.ranged := by unfold actHld; simp
@[simp] theorem ranged_actPts {a v} : (s.actPts a v).ranged = s.ranged := by unfold actPts; simp
@[simp] theorem ranged_actPtp {a old} : (s.actPtp a old).ranged = s.ranged := by unfold actPtp; simp
@[simp] theorem ranged_actPmc {a old v} : (s.actPmc a old v).ranged = s.ranged := by unfold actPmc; simp
@[simp] theorem ranged_actFwd {a v} : (s.actFwd a v).ranged = s.ranged := by unfold actFwd; simp
@[simp] theorem ranged_actQue {a} (h : s.ranged) : (s.actQue a).ranged := by unfold actQue; simp [h]
@[simp] theorem ranged_actSpr {a old v} : (s.actSpr a old v).ranged = s.ranged := by unfold actSpr; simp
@[simp] theorem ranged_actTdc {a old v} : (s.actTdc a old v).ranged = s.ranged := by unfold actTdc; simp
@[simp] theorem ranged_actIop {a} : (s.actIop a).ranged = s.ranged := by unfold actIop; simp
@[simp] theorem ranged_act {a old v} (h : s.ranged) : (s.act a old v).ranged := by unfold act; simp [h]
@[simp] theorem ranged_commitPair {lo v} (h : s.ranged) : (s.commitPair lo v).ranged := by
  unfold commitPair; simp [h]
@[simp] theorem ranged_recIgnored {w why} : (s.recIgnored w why).ranged = s.ranged := by unfold recIgnored; simp
@[simp] theorem ranged_recAccepted {w after commit clamp} : (s.recAccepted w after commit clamp).ranged = s.ranged := by
  unfold recAccepted; simp
@[simp] theorem ranged_ignoreWrite {w why} : (s.ignoreWrite w why).ranged = s.ranged := by unfold ignoreWrite; simp
@[simp] theorem ranged_writeMsix {a v} : (s.writeMsix a v).ranged = s.ranged := by unfold writeMsix; simp
@[simp] theorem ranged_storeWrite {w} (h : s.ranged) : (s.storeWrite w).ranged := by
  unfold storeWrite
  extract_lets a word clamp s₁ s₂ s₃ after s₄ s₅
  have h₁ : s₁.ranged := by simpa [s₁] using h
  have h₂ : s₂.ranged := by simpa [s₂] using h
  have h₃ : s₃.ranged := by
    unfold s₃
    split <;> simp [h₂]
  simp [h₁, s₅, s₄, h₃]
@[simp] theorem ranged_tableWrite {w} : (s.tableWrite w).ranged = s.ranged := by
  unfold tableWrite; simp
@[simp] theorem ranged_writeWord {src a v} (h : s.ranged) : (s.writeWord src a v).ranged := by
  unfold writeWord
  rw [ranged_ite]
  split
  · simpa using h
  · dsimp only
    (repeat' split) <;> simp [*]
@[simp] theorem ranged_writeF1 {a} : (s.writeF1 a).ranged = s.ranged := by unfold writeF1; simp
@[simp] theorem ranged_perform {x} (h : s.ranged) : (s.perform x).ranged := by unfold perform; simp [h]
@[simp] theorem ranged_deadAccess {x} : (s.deadAccess x).ranged = s.ranged := by unfold deadAccess; simp
@[simp] theorem ranged_access {x} (h : s.ranged) : (s.access x).ranged := by unfold access; simp [h]
@[simp] theorem ranged_accessAll {l} (h : s.ranged) : (s.accessAll l).ranged :=
  ranged_foldl_of h fun _ ht _ _ => ranged_access ht
@[simp] theorem ranged_resumeHeld (h : s.ranged) : s.resumeHeld.ranged := by unfold resumeHeld; simp [h]
@[simp] theorem ranged_readReq {src a len} (h : s.ranged) : (s.readReq src a len).ranged := by unfold readReq; simp [h]
@[simp] theorem ranged_writeReq {src a whole l} (h : s.ranged) : (s.writeReq src a whole l).ranged := by
  unfold writeReq; simp [h]
@[simp] theorem ranged_hostWrite {a v} (h : s.ranged) : (s.hostWrite a v).ranged := by unfold hostWrite; simp [h]
@[simp] theorem ranged_busTimeout {src} (h : s.ranged) : (s.busTimeout src).ranged := by
  unfold busTimeout
  simp only [ranged_ite]
  (repeat' split) <;> simp [h]
@[simp] theorem ranged_liveAgain {d} (h : s.ranged) : (s.liveAgain d).ranged := by unfold liveAgain; simp [h]
@[simp] theorem ranged_crossingNote {b blockSide} : (s.crossingNote b blockSide).ranged = s.ranged := by
  unfold crossingNote; simp
@[simp] theorem ranged_discardCrossing {b src} : (s.discardCrossing b src).ranged = s.ranged := by
  unfold discardCrossing
  split <;> simp
@[simp] theorem ranged_crossingReset {b blockSide} (h : s.ranged) : (s.crossingReset b blockSide).ranged := by
  unfold crossingReset; simp [h]
@[simp] theorem ranged_interruptFn {src} : (s.interruptFn src).ranged = s.ranged := by
  unfold interruptFn
  dsimp only
  (repeat' split) <;> simp
@[simp] theorem ranged_interrupt {l} : (s.interrupt l).ranged = s.ranged := by unfold interrupt; simp
@[simp] theorem ranged_resetMsix : s.resetMsix.ranged = s.ranged := by unfold resetMsix; simp
@[simp] theorem ranged_pcieReset : s.pcieReset.ranged = s.ranged := by unfold pcieReset; simp
@[simp] theorem ranged_linkDown : s.linkDown.ranged = s.ranged := by unfold linkDown; simp
@[simp] theorem ranged_stopRing {k} : (s.stopRing k).ranged = s.ranged := by unfold stopRing; simp
@[simp] theorem ranged_flrF0 : s.flrF0.ranged = s.ranged := by unfold flrF0; simp
@[simp] theorem ranged_flrF1 : s.flrF1.ranged = s.ranged := by unfold flrF1; simp
@[simp] theorem ranged_upset {l} : (s.upset l).ranged = s.ranged := ranged_foldl fun _ _ => ranged_setReg
@[simp] theorem ranged_freeze : s.freeze.ranged = s.ranged := by unfold freeze; simp
@[simp] theorem ranged_scanAction : s.scanAction.ranged = s.ranged := by unfold scanAction; simp
@[simp] theorem ranged_scanEnd {crc} : (s.scanEnd crc).ranged = s.ranged := by unfold scanEnd; simp
@[simp] theorem ranged_scanComplete {l} : (s.scanComplete l).ranged = s.ranged := by unfold scanComplete; simp
@[simp] theorem ranged_ringMsg {k} : (s.ringMsg k).ranged = s.ranged := by unfold ringMsg; simp
@[simp] theorem ranged_ringVector {k} : (s.ringVector k).ranged = s.ranged := by unfold ringVector; simp
@[simp] theorem ranged_descDone {k done_ st} : (s.descDone k done_ st).ranged = s.ranged := by unfold descDone; simp
@[simp] theorem ranged_setReady {k l} : (s.setReady k l).ranged = s.ranged := by unfold setReady; simp
@[simp] theorem ranged_descErr {k} : (s.descErr k).ranged = s.ranged := by unfold descErr; simp
@[simp] theorem ranged_fillBuffer {k d c l} : (s.fillBuffer k d c l).ranged = s.ranged := by unfold fillBuffer; simp
@[simp] theorem ranged_ringDone {k desc} : (s.ringDone k desc).ranged = s.ranged := by
  unfold ringDone
  simp only [ranged_ite]
  (repeat' split) <;> simp
@[simp] theorem ranged_holdoff {k} : (s.holdoff k).ranged = s.ranged := by unfold holdoff; simp
@[simp] theorem ranged_ringError {k} : (s.ringError k).ranged = s.ranged := by unfold ringError; simp
@[simp] theorem ranged_i2cAddress {dev b2 b1 b0} : (s.i2cAddress dev b2 b1 b0).ranged = s.ranged := by
  unfold i2cAddress; simp
@[simp] theorem ranged_i2cRead {dev n} (h : s.ranged) : (s.i2cRead dev n).ranged := by unfold i2cRead; simp [h]
/-! ### Boot, links, arrivals and resets -/
@[simp] theorem ranged_setBootRec {b} : (s.setBootRec b).ranged = s.ranged := by unfold setBootRec; simp
@[simp] theorem ranged_setRegList {step a l} : (s.setRegList step a l).ranged = s.ranged := by
  fun_induction setRegList s step a l
  case case1 => rfl
  case case2 ih => exact ih.trans ranged_setReg
@[simp] theorem ranged_copyOtp {o} : (s.copyOtp o).ranged = s.ranged := by unfold copyOtp; simp
@[simp] theorem ranged_otpDone {ok o} : (s.otpDone ok o).ranged = s.ranged := by unfold otpDone; simp
@[simp] theorem ranged_flashFound {found jedec log2 hd} (h : s.ranged) : (s.flashFound found jedec log2 hd).ranged := by
  unfold flashFound; simp [h]
@[simp] theorem ranged_clockTimeout : s.clockTimeout.ranged = s.ranged := by unfold clockTimeout; simp
@[simp] theorem ranged_packVerify {pack} : (s.packVerify pack).ranged = s.ranged := by
  unfold packVerify
  simp only [ranged_ite]
  (repeat' split) <;> simp
@[simp] theorem ranged_packWrite {again} (h : s.ranged) : (s.packWrite again).ranged := by
  unfold packWrite
  simp only [ranged_ite]
  (repeat' split) <;> simp [h]
@[simp] theorem ranged_packWait : s.packWait.ranged = s.ranged := by
  unfold packWait
  simp only [ranged_ite]
  (repeat' split) <;> simp
@[simp] theorem ranged_packDone {mismatch} : (s.packDone mismatch).ranged = s.ranged := by
  unfold packDone
  simp only [ranged_ite]
  (repeat' split) <;> simp
@[simp] theorem ranged_stepEffects {d} : (s.stepEffects d).ranged = s.ranged := by unfold stepEffects; simp
@[simp] theorem ranged_stepApply : s.stepApply.ranged = s.ranged := by unfold stepApply; simp
@[simp] theorem ranged_tick {u0 u1 u2} : (s.tick u0 u1 u2).ranged = s.ranged := by unfold tick; simp
@[simp] theorem ranged_second : s.second.ranged = s.ranged := by unfold second; simp
@[simp] theorem ranged_updateTick : s.updateTick.ranged = s.ranged := by unfold updateTick; simp
@[simp] theorem ranged_ungateLoop {l} (h : s.ranged) : (s.ungateLoop l).ranged := by unfold ungateLoop; simp [h]
@[simp] theorem ranged_dramWakes : s.dramWakes.ranged = s.ranged := by unfold dramWakes; simp
@[simp] theorem ranged_showLoopLock {l} : (s.showLoopLock l).ranged = s.ranged := by
  unfold showLoopLock
  split <;> simp
@[simp] theorem ranged_pllLock {l} (h : s.ranged) : (s.pllLock l).ranged := by unfold pllLock; simp [h]
@[simp] theorem ranged_pllLoss {l cause sent} (h : s.ranged) : (s.pllLoss l cause sent).ranged := by
  unfold pllLoss
  split
  · exact ranged_laneUnlock h
  · simpa using h
@[simp] theorem ranged_domainGated {d} : (s.domainGated d).ranged = s.ranged := by unfold domainGated; simp
@[simp] theorem ranged_timescaleResumes {cycles} (h : s.ranged) : (s.timescaleResumes cycles).ranged := by
  unfold timescaleResumes; simp [h]
@[simp] theorem ranged_loopSettled {l cycles} (h : s.ranged) : (s.loopSettled l cycles).ranged := by
  unfold loopSettled
  extract_lets gap gapCore src s₁ s₂ s₃ src₁ s₄
  have h₂ : s₂.ranged := ranged_foldl_of (by simpa [s₁, src] using h) fun t ht d _ => by simpa using ht
  have h₃ : s₃.ranged := by
    unfold s₃
    split
    · exact ranged_timescaleResumes h₂
    · split
      · exact ranged_herdRestart (ranged_judgeEnds h₂)
      · exact h₂
  have h₄ : s₄.ranged := by simpa [s₄, src₁] using h₃
  split
  · exact ranged_resumeHeld h₄
  · exact h
@[simp] theorem ranged_outputSettled {n} : (s.outputSettled n).ranged = s.ranged := by unfold outputSettled; simp
@[simp] theorem ranged_settleExpiry {what} (h : s.ranged) : (s.settleExpiry what).ranged := by
  unfold settleExpiry
  split <;> simp [h]
@[simp] theorem ranged_esmcRx {n b} : (s.esmcRx n b).ranged = s.ranged := by unfold esmcRx; simp
@[simp] theorem ranged_esmcTimeout {n} : (s.esmcTimeout n).ranged = s.ranged := by unfold esmcTimeout; simp
@[simp] theorem ranged_esmcEvent {n} : (s.esmcEvent n).ranged = s.ranged := by unfold esmcEvent; simp
@[simp] theorem ranged_activityEnd {k} : (s.activityEnd k).ranged = s.ranged := by unfold activityEnd; simp
@[simp] theorem ranged_gateEnd {k y} : (s.gateEnd k y).ranged = s.ranged := by unfold gateEnd; simp
@[simp] theorem ranged_selectorDecision {err rate} : (s.selectorDecision err rate).ranged = s.ranged := by
  unfold selectorDecision; simp
@[simp] theorem ranged_fitIntervalEnd : s.fitIntervalEnd.ranged = s.ranged := by unfold fitIntervalEnd; simp
@[simp] theorem ranged_qualLost {bin} : (s.qualLost bin).ranged = s.ranged := by unfold qualLost; simp
@[simp] theorem ranged_emberResync {periodic} : (s.emberResync periodic).ranged = s.ranged := by unfold emberResync; simp
@[simp] theorem ranged_pauseRx {_port _frame} : (s.pauseRx _port _frame).ranged = s.ranged := by unfold pauseRx; simp
@[simp] theorem ranged_detectorSample {n tx raw} : (s.detectorSample n tx raw).ranged = s.ranged := by
  unfold detectorSample; simp
@[simp] theorem ranged_claimAnnounce : s.claimAnnounce.ranged = s.ranged := by unfold claimAnnounce; simp
@[simp] theorem ranged_writeRdCount {n} (h : s.ranged) : (s.writeRdCount n).ranged := by unfold writeRdCount; simp [h]
@[simp] theorem ranged_eventEdge {e rise code since hold} : (s.eventEdge e rise code since hold).ranged = s.ranged := by
  unfold eventEdge; simp
@[simp] theorem ranged_laneLol {l b} (h : s.ranged) : (s.laneLol l b).ranged := by unfold laneLol; simp [h]
@[simp] theorem ranged_guyTake {x m} (h : s.ranged) : (s.guyTake x m).ranged := by
  unfold guyTake
  split <;> simp [h]
@[simp] theorem ranged_streamRead {x l} (h : s.ranged) : (s.streamRead x l).ranged := by
  unfold streamRead
  extract_lets y old stamp src s₁ s₂
  have h₁ : s₁.ranged := by simpa [s₁, src] using h
  have h₂ : s₂.ranged := by
    unfold s₂
    split
    · exact h₁
    · exact ranged_foldl_of (ranged_guyTake h₁) fun t ht m _ => ranged_guyTake ht
  simpa using h₂
@[simp] theorem ranged_rowRx {lanes block x} (h : s.ranged) : (s.rowRx lanes block x).ranged := by
  unfold rowRx
  split
  · simpa using h
  · split
    · exact ranged_streamRead h
    · exact h
@[simp] theorem ranged_streamBad {bad} (h : s.ranged) : (s.streamBad bad).ranged := by
  unfold streamBad
  simp only [ranged_ite]
  (repeat' split) <;> simp [h]
@[simp] theorem ranged_claimWire {f} (h : s.ranged) : (s.claimWire f).ranged := by unfold claimWire; simp [h]
/-- A reset empties forwarding. -/
@[simp] theorem ranged_toReset : s.toReset.ranged :=
  (ranged_of_fwd (s := State.reset) rfl).mpr ⟨List.nodup_nil, List.forall_mem_nil _, List.forall_mem_nil _, List.forall_mem_nil _,
    List.forall_mem_nil _, List.forall_mem_nil _⟩
@[simp] theorem ranged_resetAssert : s.resetAssert.ranged := by unfold resetAssert; simp
@[simp] theorem ranged_resetRelease {straps} : (s.resetRelease straps).ranged = s.ranged := by unfold resetRelease; simp
@[simp] theorem ranged_railFault {a} : (s.railFault a).ranged := by unfold railFault; simp
@[simp] theorem ranged_railRecovery : s.railRecovery.ranged = s.ranged := by unfold railRecovery; simp
@[simp] theorem ranged_powerLoss (h : s.ranged) : s.powerLoss.ranged := by
  unfold powerLoss
  split
  · simp
  · exact h
@[simp] theorem ranged_powerUp : s.powerUp.ranged = s.ranged := by unfold powerUp; simp
@[simp] theorem ranged_emberLow : s.emberLow.ranged = s.ranged := by unfold emberLow; simp
@[simp] theorem ranged_emberStart : s.emberStart.ranged = s.ranged := by unfold emberStart; simp
@[simp] theorem ranged_enterRun : s.enterRun.ranged = s.ranged := by unfold enterRun; simp
@[simp] theorem ranged_seedEdge : s.seedEdge.ranged = s.ranged := by unfold seedEdge; simp
@[simp] theorem ranged_emberClock : s.emberClock.ranged = s.ranged := by unfold emberClock; simp
@[simp] theorem ranged_coreClocks {n} : (s.coreClocks n).ranged = s.ranged := by unfold coreClocks; simp
@[simp] theorem ranged_idle : s.idle.ranged = s.ranged := by unfold idle; simp

end Sys2Proof.Machine.State
end

section

/-! ## Every step keeps what forwarding holds in range -/

set_option Elab.async false

namespace Sys2Proof.Machine

variable {s t : State}

theorem State.ranged_guyDeliver {c : Nat} {m : List Byte} {f : Nat → List Byte → State} (h : s.ranged)
    (hf : ∀ q p, (f q p).ranged) : (s.guyDeliver c m f).ranged := by
  unfold State.guyDeliver
  rw [State.ranged_ite]
  split
  · split <;> simp [hf, h]
  · exact h

/-- The outcome, where it is a next state, has its forwarding in range. -/
def HoldsRanged (o : Host.Outcome State Fault Refusal) : Prop := ∀ u, o = .next u → u.ranged

theorem HoldsRanged.done (hs : s.ranged) (h : t.ranged) : HoldsRanged (done s t) := by
  rintro u ⟨⟩
  simp [h, hs]

theorem HoldsRanged.doneAlways (h : t.ranged) : HoldsRanged (doneAlways s t) := by
  rintro u ⟨⟩
  simp [h]

/-- Every command ends on an operation of the lists above. -/
theorem exec_holdsRanged (c : Instr) (hs : s.ranged) : HoldsRanged (exec c s) := by
  cases c
  case emberSupplyLow | emberColdStart | mainPowerPresent | mainPowerLoss | resetAssert | resetRelease | railFault |
      railRecovery => exact .doneAlways (by simp [hs])
  case claimMsgRx | heartbeatRx | timeMsgRx | commitRx | mirrorMsgRx | ckptMsgRx =>
    exact .done hs (State.ranged_guyDeliver hs fun _ _ => by simp [hs])
  case frameReceive port _ _ => exact .done hs (State.ranged_receive hs (Nat.lt_succ_of_lt port.isLt))
  case egressSelect port x =>
    refine .done hs ?_
    rw [State.ranged_ite]
    split
    · next h => exact State.ranged_egressSelect hs h
    · exact State.ranged_hostDeliver hs
  all_goals exact .done hs (by simp [hs])

theorem State.ranged_reset : State.reset.ranged :=
  ⟨List.nodup_nil, List.forall_mem_nil _, List.forall_mem_nil _, List.forall_mem_nil _, List.forall_mem_nil _, List.forall_mem_nil _⟩

/-- Settles O6: every operation that a command ends on keeps what forwarding holds in range. -/
theorem stepKeepsForwardingInRange : Obligations.StepKeepsForwardingInRange := by
  refine ⟨State.fwdOk_iff_ranged.2 State.ranged_reset, fun s t hs h => State.fwdOk_iff_ranged.2 ?_⟩
  have hs := State.fwdOk_iff_ranged.1 hs
  unfold step at h
  split at h
  · exact exec_holdsRanged _ (by simpa using hs) t h
  · exact HoldsRanged.doneAlways (by simpa using hs) t h

end Sys2Proof.Machine
end

section

/-! ## The parts of the state and the writes of registers

A write of a register, a record of the journal and a fault leave the parts of the state as they are. The proofs are not `rfl`,
so that `simp` rewrites with them and does not unfold a state. -/

set_option Elab.async false

namespace Sys2Proof.Machine.State

variable {s : Machine.State} {a k n p c d e : Nat} {f : Fld} {b w : Bool} {i : Int} {r : Rec}

/-! ### `p` -/

@[simp] theorem p_hif : (s.p a f n).hif = s.hif := (setReg_hif ..).trans rfl
@[simp] theorem p_conds : (s.p a f n).conds = s.conds := (setReg_conds ..).trans rfl
@[simp] theorem p_gated : (s.p a f n).gated = s.gated := (setReg_gated ..).trans rfl
@[simp] theorem p_w1done : (s.p a f n).w1done = s.w1done := (setReg_w1done ..).trans rfl
@[simp] theorem p_tsc : (s.p a f n).tsc = s.tsc := (setReg_tsc ..).trans rfl
@[simp] theorem p_ref : (s.p a f n).ref = s.ref := (setReg_ref ..).trans rfl
@[simp] theorem p_hld : (s.p a f n).hld = s.hld := (setReg_hld ..).trans rfl
@[simp] theorem p_syn : (s.p a f n).syn = s.syn := (setReg_syn ..).trans rfl
@[simp] theorem p_pts : (s.p a f n).pts = s.pts := (setReg_pts ..).trans rfl
@[simp] theorem p_ptp : (s.p a f n).ptp = s.ptp := (setReg_ptp ..).trans rfl
@[simp] theorem p_fwd : (s.p a f n).fwd = s.fwd := (setReg_fwd ..).trans rfl
@[simp] theorem p_tdc : (s.p a f n).tdc = s.tdc := (setReg_tdc ..).trans rfl
@[simp] theorem p_guy : (s.p a f n).guy = s.guy := (setReg_guy ..).trans rfl
@[simp] theorem p_rut : (s.p a f n).rut = s.rut := (setReg_rut ..).trans rfl
@[simp] theorem p_boot : (s.p a f n).boot = s.boot := (setReg_boot ..).trans rfl

/-! ### `pb` -/

@[simp] theorem pb_hif : (s.pb a f b).hif = s.hif := (setReg_hif ..).trans rfl
@[simp] theorem pb_conds : (s.pb a f b).conds = s.conds := (setReg_conds ..).trans rfl
@[simp] theorem pb_gated : (s.pb a f b).gated = s.gated := (setReg_gated ..).trans rfl
@[simp] theorem pb_w1done : (s.pb a f b).w1done = s.w1done := (setReg_w1done ..).trans rfl
@[simp] theorem pb_tsc : (s.pb a f b).tsc = s.tsc := (setReg_tsc ..).trans rfl
@[simp] theorem pb_ref : (s.pb a f b).ref = s.ref := (setReg_ref ..).trans rfl
@[simp] theorem pb_hld : (s.pb a f b).hld = s.hld := (setReg_hld ..).trans rfl
@[simp] theorem pb_syn : (s.pb a f b).syn = s.syn := (setReg_syn ..).trans rfl
@[simp] theorem pb_pts : (s.pb a f b).pts = s.pts := (setReg_pts ..).trans rfl
@[simp] theorem pb_ptp : (s.pb a f b).ptp = s.ptp := (setReg_ptp ..).trans rfl
@[simp] theorem pb_fwd : (s.pb a f b).fwd = s.fwd := (setReg_fwd ..).trans rfl
@[simp] theorem pb_tdc : (s.pb a f b).tdc = s.tdc := (setReg_tdc ..).trans rfl
@[simp] theorem pb_guy : (s.pb a f b).guy = s.guy := (setReg_guy ..).trans rfl
@[simp] theorem pb_rut : (s.pb a f b).rut = s.rut := (setReg_rut ..).trans rfl
@[simp] theorem pb_boot : (s.pb a f b).boot = s.boot := (setReg_boot ..).trans rfl

/-! ### `raw` -/

@[simp] theorem raw_hif : (s.raw a f).hif = s.hif := (setReg_hif ..).trans rfl
@[simp] theorem raw_conds : (s.raw a f).conds = s.conds := (setReg_conds ..).trans rfl
@[simp] theorem raw_gated : (s.raw a f).gated = s.gated := (setReg_gated ..).trans rfl
@[simp] theorem raw_w1done : (s.raw a f).w1done = s.w1done := (setReg_w1done ..).trans rfl
@[simp] theorem raw_tsc : (s.raw a f).tsc = s.tsc := (setReg_tsc ..).trans rfl
@[simp] theorem raw_ref : (s.raw a f).ref = s.ref := (setReg_ref ..).trans rfl
@[simp] theorem raw_hld : (s.raw a f).hld = s.hld := (setReg_hld ..).trans rfl
@[simp] theorem raw_syn : (s.raw a f).syn = s.syn := (setReg_syn ..).trans rfl
@[simp] theorem raw_pts : (s.raw a f).pts = s.pts := (setReg_pts ..).trans rfl
@[simp] theorem raw_ptp : (s.raw a f).ptp = s.ptp := (setReg_ptp ..).trans rfl
@[simp] theorem raw_fwd : (s.raw a f).fwd = s.fwd := (setReg_fwd ..).trans rfl
@[simp] theorem raw_tdc : (s.raw a f).tdc = s.tdc := (setReg_tdc ..).trans rfl
@[simp] theorem raw_guy : (s.raw a f).guy = s.guy := (setReg_guy ..).trans rfl
@[simp] theorem raw_rut : (s.raw a f).rut = s.rut := (setReg_rut ..).trans rfl
@[simp] theorem raw_boot : (s.raw a f).boot = s.boot := (setReg_boot ..).trans rfl

/-! ### `satAdd` -/

@[simp] theorem satAdd_hif : (s.satAdd a f n).hif = s.hif := (setReg_hif ..).trans rfl
@[simp] theorem satAdd_conds : (s.satAdd a f n).conds = s.conds := (setReg_conds ..).trans rfl
@[simp] theorem satAdd_gated : (s.satAdd a f n).gated = s.gated := (setReg_gated ..).trans rfl
@[simp] theorem satAdd_w1done : (s.satAdd a f n).w1done = s.w1done := (setReg_w1done ..).trans rfl
@[simp] theorem satAdd_tsc : (s.satAdd a f n).tsc = s.tsc := (setReg_tsc ..).trans rfl
@[simp] theorem satAdd_ref : (s.satAdd a f n).ref = s.ref := (setReg_ref ..).trans rfl
@[simp] theorem satAdd_hld : (s.satAdd a f n).hld = s.hld := (setReg_hld ..).trans rfl
@[simp] theorem satAdd_syn : (s.satAdd a f n).syn = s.syn := (setReg_syn ..).trans rfl
@[simp] theorem satAdd_pts : (s.satAdd a f n).pts = s.pts := (setReg_pts ..).trans rfl
@[simp] theorem satAdd_ptp : (s.satAdd a f n).ptp = s.ptp := (setReg_ptp ..).trans rfl
@[simp] theorem satAdd_fwd : (s.satAdd a f n).fwd = s.fwd := (setReg_fwd ..).trans rfl
@[simp] theorem satAdd_tdc : (s.satAdd a f n).tdc = s.tdc := (setReg_tdc ..).trans rfl
@[simp] theorem satAdd_guy : (s.satAdd a f n).guy = s.guy := (setReg_guy ..).trans rfl
@[simp] theorem satAdd_rut : (s.satAdd a f n).rut = s.rut := (setReg_rut ..).trans rfl
@[simp] theorem satAdd_boot : (s.satAdd a f n).boot = s.boot := (setReg_boot ..).trans rfl

/-! ### `inc` -/

@[simp] theorem inc_hif : (s.inc a f).hif = s.hif := (setReg_hif ..).trans rfl
@[simp] theorem inc_conds : (s.inc a f).conds = s.conds := (setReg_conds ..).trans rfl
@[simp] theorem inc_gated : (s.inc a f).gated = s.gated := (setReg_gated ..).trans rfl
@[simp] theorem inc_w1done : (s.inc a f).w1done = s.w1done := (setReg_w1done ..).trans rfl
@[simp] theorem inc_tsc : (s.inc a f).tsc = s.tsc := (setReg_tsc ..).trans rfl
@[simp] theorem inc_ref : (s.inc a f).ref = s.ref := (setReg_ref ..).trans rfl
@[simp] theorem inc_hld : (s.inc a f).hld = s.hld := (setReg_hld ..).trans rfl
@[simp] theorem inc_syn : (s.inc a f).syn = s.syn := (setReg_syn ..).trans rfl
@[simp] theorem inc_pts : (s.inc a f).pts = s.pts := (setReg_pts ..).trans rfl
@[simp] theorem inc_ptp : (s.inc a f).ptp = s.ptp := (setReg_ptp ..).trans rfl
@[simp] theorem inc_fwd : (s.inc a f).fwd = s.fwd := (setReg_fwd ..).trans rfl
@[simp] theorem inc_tdc : (s.inc a f).tdc = s.tdc := (setReg_tdc ..).trans rfl
@[simp] theorem inc_guy : (s.inc a f).guy = s.guy := (setReg_guy ..).trans rfl
@[simp] theorem inc_rut : (s.inc a f).rut = s.rut := (setReg_rut ..).trans rfl
@[simp] theorem inc_boot : (s.inc a f).boot = s.boot := (setReg_boot ..).trans rfl

/-! ### `setRegN` -/

@[simp] theorem setRegN_hif : (s.setRegN a n).hif = s.hif := (setReg_hif ..).trans rfl
@[simp] theorem setRegN_conds : (s.setRegN a n).conds = s.conds := (setReg_conds ..).trans rfl
@[simp] theorem setRegN_gated : (s.setRegN a n).gated = s.gated := (setReg_gated ..).trans rfl
@[simp] theorem setRegN_w1done : (s.setRegN a n).w1done = s.w1done := (setReg_w1done ..).trans rfl
@[simp] theorem setRegN_tsc : (s.setRegN a n).tsc = s.tsc := (setReg_tsc ..).trans rfl
@[simp] theorem setRegN_ref : (s.setRegN a n).ref = s.ref := (setReg_ref ..).trans rfl
@[simp] theorem setRegN_hld : (s.setRegN a n).hld = s.hld := (setReg_hld ..).trans rfl
@[simp] theorem setRegN_syn : (s.setRegN a n).syn = s.syn := (setReg_syn ..).trans rfl
@[simp] theorem setRegN_pts : (s.setRegN a n).pts = s.pts := (setReg_pts ..).trans rfl
@[simp] theorem setRegN_ptp : (s.setRegN a n).ptp = s.ptp := (setReg_ptp ..).trans rfl
@[simp] theorem setRegN_fwd : (s.setRegN a n).fwd = s.fwd := (setReg_fwd ..).trans rfl
@[simp] theorem setRegN_tdc : (s.setRegN a n).tdc = s.tdc := (setReg_tdc ..).trans rfl
@[simp] theorem setRegN_guy : (s.setRegN a n).guy = s.guy := (setReg_guy ..).trans rfl
@[simp] theorem setRegN_rut : (s.setRegN a n).rut = s.rut := (setReg_rut ..).trans rfl
@[simp] theorem setRegN_boot : (s.setRegN a n).boot = s.boot := (setReg_boot ..).trans rfl

/-! ### `setRegI` -/

@[simp] theorem setRegI_hif : (s.setRegI a i).hif = s.hif := (setReg_hif ..).trans rfl
@[simp] theorem setRegI_conds : (s.setRegI a i).conds = s.conds := (setReg_conds ..).trans rfl
@[simp] theorem setRegI_gated : (s.setRegI a i).gated = s.gated := (setReg_gated ..).trans rfl
@[simp] theorem setRegI_w1done : (s.setRegI a i).w1done = s.w1done := (setReg_w1done ..).trans rfl
@[simp] theorem setRegI_tsc : (s.setRegI a i).tsc = s.tsc := (setReg_tsc ..).trans rfl
@[simp] theorem setRegI_ref : (s.setRegI a i).ref = s.ref := (setReg_ref ..).trans rfl
@[simp] theorem setRegI_hld : (s.setRegI a i).hld = s.hld := (setReg_hld ..).trans rfl
@[simp] theorem setRegI_syn : (s.setRegI a i).syn = s.syn := (setReg_syn ..).trans rfl
@[simp] theorem setRegI_pts : (s.setRegI a i).pts = s.pts := (setReg_pts ..).trans rfl
@[simp] theorem setRegI_ptp : (s.setRegI a i).ptp = s.ptp := (setReg_ptp ..).trans rfl
@[simp] theorem setRegI_fwd : (s.setRegI a i).fwd = s.fwd := (setReg_fwd ..).trans rfl
@[simp] theorem setRegI_tdc : (s.setRegI a i).tdc = s.tdc := (setReg_tdc ..).trans rfl
@[simp] theorem setRegI_guy : (s.setRegI a i).guy = s.guy := (setReg_guy ..).trans rfl
@[simp] theorem setRegI_rut : (s.setRegI a i).rut = s.rut := (setReg_rut ..).trans rfl
@[simp] theorem setRegI_boot : (s.setRegI a i).boot = s.boot := (setReg_boot ..).trans rfl

/-! ### `orReg` -/

@[simp] theorem orReg_hif : (s.orReg a n).hif = s.hif := (setReg_hif ..).trans rfl
@[simp] theorem orReg_conds : (s.orReg a n).conds = s.conds := (setReg_conds ..).trans rfl
@[simp] theorem orReg_gated : (s.orReg a n).gated = s.gated := (setReg_gated ..).trans rfl
@[simp] theorem orReg_w1done : (s.orReg a n).w1done = s.w1done := (setReg_w1done ..).trans rfl
@[simp] theorem orReg_tsc : (s.orReg a n).tsc = s.tsc := (setReg_tsc ..).trans rfl
@[simp] theorem orReg_ref : (s.orReg a n).ref = s.ref := (setReg_ref ..).trans rfl
@[simp] theorem orReg_hld : (s.orReg a n).hld = s.hld := (setReg_hld ..).trans rfl
@[simp] theorem orReg_syn : (s.orReg a n).syn = s.syn := (setReg_syn ..).trans rfl
@[simp] theorem orReg_pts : (s.orReg a n).pts = s.pts := (setReg_pts ..).trans rfl
@[simp] theorem orReg_ptp : (s.orReg a n).ptp = s.ptp := (setReg_ptp ..).trans rfl
@[simp] theorem orReg_fwd : (s.orReg a n).fwd = s.fwd := (setReg_fwd ..).trans rfl
@[simp] theorem orReg_tdc : (s.orReg a n).tdc = s.tdc := (setReg_tdc ..).trans rfl
@[simp] theorem orReg_guy : (s.orReg a n).guy = s.guy := (setReg_guy ..).trans rfl
@[simp] theorem orReg_rut : (s.orReg a n).rut = s.rut := (setReg_rut ..).trans rfl
@[simp] theorem orReg_boot : (s.orReg a n).boot = s.boot := (setReg_boot ..).trans rfl

/-! ### `setPair` -/

@[simp] theorem setPair_hif : (s.setPair a n).hif = s.hif := (setReg_hif ..).trans (setReg_hif ..)
@[simp] theorem setPair_conds : (s.setPair a n).conds = s.conds := (setReg_conds ..).trans (setReg_conds ..)
@[simp] theorem setPair_gated : (s.setPair a n).gated = s.gated := (setReg_gated ..).trans (setReg_gated ..)
@[simp] theorem setPair_w1done : (s.setPair a n).w1done = s.w1done := (setReg_w1done ..).trans (setReg_w1done ..)
@[simp] theorem setPair_tsc : (s.setPair a n).tsc = s.tsc := (setReg_tsc ..).trans (setReg_tsc ..)
@[simp] theorem setPair_ref : (s.setPair a n).ref = s.ref := (setReg_ref ..).trans (setReg_ref ..)
@[simp] theorem setPair_hld : (s.setPair a n).hld = s.hld := (setReg_hld ..).trans (setReg_hld ..)
@[simp] theorem setPair_syn : (s.setPair a n).syn = s.syn := (setReg_syn ..).trans (setReg_syn ..)
@[simp] theorem setPair_pts : (s.setPair a n).pts = s.pts := (setReg_pts ..).trans (setReg_pts ..)
@[simp] theorem setPair_ptp : (s.setPair a n).ptp = s.ptp := (setReg_ptp ..).trans (setReg_ptp ..)
@[simp] theorem setPair_fwd : (s.setPair a n).fwd = s.fwd := (setReg_fwd ..).trans (setReg_fwd ..)
@[simp] theorem setPair_tdc : (s.setPair a n).tdc = s.tdc := (setReg_tdc ..).trans (setReg_tdc ..)
@[simp] theorem setPair_guy : (s.setPair a n).guy = s.guy := (setReg_guy ..).trans (setReg_guy ..)
@[simp] theorem setPair_rut : (s.setPair a n).rut = s.rut := (setReg_rut ..).trans (setReg_rut ..)
@[simp] theorem setPair_boot : (s.setPair a n).boot = s.boot := (setReg_boot ..).trans (setReg_boot ..)

/-! ### `setPairI` -/

@[simp] theorem setPairI_hif : (s.setPairI a i).hif = s.hif := setPair_hif.trans rfl
@[simp] theorem setPairI_conds : (s.setPairI a i).conds = s.conds := setPair_conds.trans rfl
@[simp] theorem setPairI_gated : (s.setPairI a i).gated = s.gated := setPair_gated.trans rfl
@[simp] theorem setPairI_w1done : (s.setPairI a i).w1done = s.w1done := setPair_w1done.trans rfl
@[simp] theorem setPairI_tsc : (s.setPairI a i).tsc = s.tsc := setPair_tsc.trans rfl
@[simp] theorem setPairI_ref : (s.setPairI a i).ref = s.ref := setPair_ref.trans rfl
@[simp] theorem setPairI_hld : (s.setPairI a i).hld = s.hld := setPair_hld.trans rfl
@[simp] theorem setPairI_syn : (s.setPairI a i).syn = s.syn := setPair_syn.trans rfl
@[simp] theorem setPairI_pts : (s.setPairI a i).pts = s.pts := setPair_pts.trans rfl
@[simp] theorem setPairI_ptp : (s.setPairI a i).ptp = s.ptp := setPair_ptp.trans rfl
@[simp] theorem setPairI_fwd : (s.setPairI a i).fwd = s.fwd := setPair_fwd.trans rfl
@[simp] theorem setPairI_tdc : (s.setPairI a i).tdc = s.tdc := setPair_tdc.trans rfl
@[simp] theorem setPairI_guy : (s.setPairI a i).guy = s.guy := setPair_guy.trans rfl
@[simp] theorem setPairI_rut : (s.setPairI a i).rut = s.rut := setPair_rut.trans rfl
@[simp] theorem setPairI_boot : (s.setPairI a i).boot = s.boot := setPair_boot.trans rfl

/-! ### `pushRec` -/

@[simp] theorem pushRec_hif : (s.pushRec k w r).hif = s.hif := by
  unfold pushRec
  split
  · exact .trans rfl rfl
  · rfl
@[simp] theorem pushRec_conds : (s.pushRec k w r).conds = s.conds := (Logs.pushRec (.refl s)).conds
@[simp] theorem pushRec_gated : (s.pushRec k w r).gated = s.gated := (Logs.pushRec (.refl s)).gated
@[simp] theorem pushRec_w1done : (s.pushRec k w r).w1done = s.w1done := (Logs.pushRec (.refl s)).w1done
@[simp] theorem pushRec_tsc : (s.pushRec k w r).tsc = s.tsc := (Logs.pushRec (.refl s)).tsc
@[simp] theorem pushRec_ref : (s.pushRec k w r).ref = s.ref := (Logs.pushRec (.refl s)).ref
@[simp] theorem pushRec_hld : (s.pushRec k w r).hld = s.hld := (Logs.pushRec (.refl s)).hld
@[simp] theorem pushRec_syn : (s.pushRec k w r).syn = s.syn := (Logs.pushRec (.refl s)).syn
@[simp] theorem pushRec_pts : (s.pushRec k w r).pts = s.pts := (Logs.pushRec (.refl s)).pts
@[simp] theorem pushRec_ptp : (s.pushRec k w r).ptp = s.ptp := (Logs.pushRec (.refl s)).ptp
@[simp] theorem pushRec_fwd : (s.pushRec k w r).fwd = s.fwd := (Logs.pushRec (.refl s)).fwd
@[simp] theorem pushRec_tdc : (s.pushRec k w r).tdc = s.tdc := (Logs.pushRec (.refl s)).tdc
@[simp] theorem pushRec_guy : (s.pushRec k w r).guy = s.guy := (Logs.pushRec (.refl s)).guy
@[simp] theorem pushRec_rut : (s.pushRec k w r).rut = s.rut := (Logs.pushRec (.refl s)).rut
@[simp] theorem pushRec_boot : (s.pushRec k w r).boot = s.boot := (Logs.pushRec (.refl s)).boot

/-! ### `record` -/

@[simp] theorem record_hif : (s.record w r).hif = s.hif := pushRec_hif.trans rfl
@[simp] theorem record_conds : (s.record w r).conds = s.conds := (Logs.record (.refl s)).conds
@[simp] theorem record_gated : (s.record w r).gated = s.gated := (Logs.record (.refl s)).gated
@[simp] theorem record_w1done : (s.record w r).w1done = s.w1done := (Logs.record (.refl s)).w1done
@[simp] theorem record_tsc : (s.record w r).tsc = s.tsc := (Logs.record (.refl s)).tsc
@[simp] theorem record_ref : (s.record w r).ref = s.ref := (Logs.record (.refl s)).ref
@[simp] theorem record_hld : (s.record w r).hld = s.hld := (Logs.record (.refl s)).hld
@[simp] theorem record_syn : (s.record w r).syn = s.syn := (Logs.record (.refl s)).syn
@[simp] theorem record_pts : (s.record w r).pts = s.pts := (Logs.record (.refl s)).pts
@[simp] theorem record_ptp : (s.record w r).ptp = s.ptp := (Logs.record (.refl s)).ptp
@[simp] theorem record_fwd : (s.record w r).fwd = s.fwd := (Logs.record (.refl s)).fwd
@[simp] theorem record_tdc : (s.record w r).tdc = s.tdc := (Logs.record (.refl s)).tdc
@[simp] theorem record_guy : (s.record w r).guy = s.guy := (Logs.record (.refl s)).guy
@[simp] theorem record_rut : (s.record w r).rut = s.rut := (Logs.record (.refl s)).rut
@[simp] theorem record_boot : (s.record w r).boot = s.boot := (Logs.record (.refl s)).boot

/-! ### `note` -/

@[simp] theorem note_hif : (s.note k p a c d e).hif = s.hif := record_hif.trans rfl
@[simp] theorem note_conds : (s.note k p a c d e).conds = s.conds := (Logs.note (.refl s)).conds
@[simp] theorem note_gated : (s.note k p a c d e).gated = s.gated := (Logs.note (.refl s)).gated
@[simp] theorem note_w1done : (s.note k p a c d e).w1done = s.w1done := (Logs.note (.refl s)).w1done
@[simp] theorem note_tsc : (s.note k p a c d e).tsc = s.tsc := (Logs.note (.refl s)).tsc
@[simp] theorem note_ref : (s.note k p a c d e).ref = s.ref := (Logs.note (.refl s)).ref
@[simp] theorem note_hld : (s.note k p a c d e).hld = s.hld := (Logs.note (.refl s)).hld
@[simp] theorem note_syn : (s.note k p a c d e).syn = s.syn := (Logs.note (.refl s)).syn
@[simp] theorem note_pts : (s.note k p a c d e).pts = s.pts := (Logs.note (.refl s)).pts
@[simp] theorem note_ptp : (s.note k p a c d e).ptp = s.ptp := (Logs.note (.refl s)).ptp
@[simp] theorem note_fwd : (s.note k p a c d e).fwd = s.fwd := (Logs.note (.refl s)).fwd
@[simp] theorem note_tdc : (s.note k p a c d e).tdc = s.tdc := (Logs.note (.refl s)).tdc
@[simp] theorem note_guy : (s.note k p a c d e).guy = s.guy := (Logs.note (.refl s)).guy
@[simp] theorem note_rut : (s.note k p a c d e).rut = s.rut := (Logs.note (.refl s)).rut
@[simp] theorem note_boot : (s.note k p a c d e).boot = s.boot := (Logs.note (.refl s)).boot

/-! ### `fire` -/

@[simp] theorem fire_hif : (s.fire k p).hif = s.hif := .trans rfl rfl
@[simp] theorem fire_conds : (s.fire k p).conds = s.conds := (Logs.fire (.refl s)).conds
@[simp] theorem fire_gated : (s.fire k p).gated = s.gated := (Logs.fire (.refl s)).gated
@[simp] theorem fire_w1done : (s.fire k p).w1done = s.w1done := (Logs.fire (.refl s)).w1done
@[simp] theorem fire_tsc : (s.fire k p).tsc = s.tsc := (Logs.fire (.refl s)).tsc
@[simp] theorem fire_ref : (s.fire k p).ref = s.ref := (Logs.fire (.refl s)).ref
@[simp] theorem fire_hld : (s.fire k p).hld = s.hld := (Logs.fire (.refl s)).hld
@[simp] theorem fire_syn : (s.fire k p).syn = s.syn := (Logs.fire (.refl s)).syn
@[simp] theorem fire_pts : (s.fire k p).pts = s.pts := (Logs.fire (.refl s)).pts
@[simp] theorem fire_ptp : (s.fire k p).ptp = s.ptp := (Logs.fire (.refl s)).ptp
@[simp] theorem fire_fwd : (s.fire k p).fwd = s.fwd := (Logs.fire (.refl s)).fwd
@[simp] theorem fire_tdc : (s.fire k p).tdc = s.tdc := (Logs.fire (.refl s)).tdc
@[simp] theorem fire_guy : (s.fire k p).guy = s.guy := (Logs.fire (.refl s)).guy
@[simp] theorem fire_rut : (s.fire k p).rut = s.rut := (Logs.fire (.refl s)).rut
@[simp] theorem fire_boot : (s.fire k p).boot = s.boot := (Logs.fire (.refl s)).boot

/-! ### `fault` -/

@[simp] theorem fault_conds : (s.fault k a c d).conds = s.conds := (Logs.fault (.refl s)).conds
@[simp] theorem fault_gated : (s.fault k a c d).gated = s.gated := (Logs.fault (.refl s)).gated
@[simp] theorem fault_w1done : (s.fault k a c d).w1done = s.w1done := (Logs.fault (.refl s)).w1done
@[simp] theorem fault_tsc : (s.fault k a c d).tsc = s.tsc := (Logs.fault (.refl s)).tsc
@[simp] theorem fault_ref : (s.fault k a c d).ref = s.ref := (Logs.fault (.refl s)).ref
@[simp] theorem fault_hld : (s.fault k a c d).hld = s.hld := (Logs.fault (.refl s)).hld
@[simp] theorem fault_syn : (s.fault k a c d).syn = s.syn := (Logs.fault (.refl s)).syn
@[simp] theorem fault_pts : (s.fault k a c d).pts = s.pts := (Logs.fault (.refl s)).pts
@[simp] theorem fault_ptp : (s.fault k a c d).ptp = s.ptp := (Logs.fault (.refl s)).ptp
@[simp] theorem fault_fwd : (s.fault k a c d).fwd = s.fwd := (Logs.fault (.refl s)).fwd
@[simp] theorem fault_tdc : (s.fault k a c d).tdc = s.tdc := (Logs.fault (.refl s)).tdc
@[simp] theorem fault_guy : (s.fault k a c d).guy = s.guy := (Logs.fault (.refl s)).guy
@[simp] theorem fault_rut : (s.fault k a c d).rut = s.rut := (Logs.fault (.refl s)).rut
@[simp] theorem fault_boot : (s.fault k a c d).boot = s.boot := (Logs.fault (.refl s)).boot

/-! ### `signal` -/

@[simp] theorem signal_conds : (s.signal k).conds = s.conds := (Logs.signal (.refl s)).conds
@[simp] theorem signal_gated : (s.signal k).gated = s.gated := (Logs.signal (.refl s)).gated
@[simp] theorem signal_w1done : (s.signal k).w1done = s.w1done := (Logs.signal (.refl s)).w1done
@[simp] theorem signal_tsc : (s.signal k).tsc = s.tsc := (Logs.signal (.refl s)).tsc
@[simp] theorem signal_ref : (s.signal k).ref = s.ref := (Logs.signal (.refl s)).ref
@[simp] theorem signal_hld : (s.signal k).hld = s.hld := (Logs.signal (.refl s)).hld
@[simp] theorem signal_syn : (s.signal k).syn = s.syn := (Logs.signal (.refl s)).syn
@[simp] theorem signal_pts : (s.signal k).pts = s.pts := (Logs.signal (.refl s)).pts
@[simp] theorem signal_ptp : (s.signal k).ptp = s.ptp := (Logs.signal (.refl s)).ptp
@[simp] theorem signal_fwd : (s.signal k).fwd = s.fwd := (Logs.signal (.refl s)).fwd
@[simp] theorem signal_tdc : (s.signal k).tdc = s.tdc := (Logs.signal (.refl s)).tdc
@[simp] theorem signal_guy : (s.signal k).guy = s.guy := (Logs.signal (.refl s)).guy
@[simp] theorem signal_rut : (s.signal k).rut = s.rut := (Logs.signal (.refl s)).rut
@[simp] theorem signal_boot : (s.signal k).boot = s.boot := (Logs.signal (.refl s)).boot

end Sys2Proof.Machine.State
end

section

/-! ## Host writes

What a write over F0 that is accepted answers: the word is stored, the register's action taken, the configuration scan takes
note of it, and what the effect leaves as it was, the write does. -/

set_option Elab.async false

namespace Sys2Proof.Machine

variable {A : Nat → Prop} {ps : List Part} {s t u : State} {a : Nat} {v : Word}

/-- An accepted write of scanned fields touches the status of the configuration scan alone (R51). -/
theorem afterScan_eq_setReg : ∃ w, s.afterScan a = s.setReg R.HIF_CFG_CRC_STATUS w ∨ s.afterScan a = s := by
  rcases afterScan_eq (s := s) (a := a) with e | e
  · exact ⟨0, .inr e⟩
  · exact ⟨_, .inl e⟩

/-- A register of its own is written: `t` is what the stored word and the action of the register make of the state. -/
theorem Answers.ofWrite {P : State → Prop} (h : s.accepts a) (hp : ownWord a = true)
    (ht : (s.setReg a (s.formWord a v)).act a (s.readNow a) v = t) (F : Changes A ps s t) (hc : A R.HIF_CFG_CRC_STATUS)
    (hP : ∀ u w, Logs (t.setReg R.HIF_CFG_CRC_STATUS w) u → Changes A ps s u → P u) : Answers (done s (s.hostWrite a v)) P := by
  refine Answers.ofHostWrite h hp fun u L => ?_
  rw [ht] at L
  obtain ⟨w, e | e⟩ := afterScan_eq_setReg (s := t) (a := a) <;> rw [e] at L
  · exact hP u w L (((Changes.setReg_iff hc).2 F).logs L)
  · have k : Logs (t.setReg R.HIF_CFG_CRC_STATUS (t.reg R.HIF_CFG_CRC_STATUS)) t :=
      ⟨fun b _ => (State.reg_setReg_self t _ b).symm, fun b m _ hm => by rwa [State.reg_setReg_self] at hm,
        List.prefix_refl _, List.prefix_refl _, rfl, rfl, rfl⟩
    exact hP u _ (k.trans L) (F.logs L)

/-- A register with no stored field is written: its action is taken. -/
theorem Answers.ofCommand {P : State → Prop} (h : s.accepts a) (hp : ownWord a = true)
    (hf : (fieldsAt a).any Field.stored = false) (ht : (s.setReg a (s.reg a)).act a (s.readNow a) v = t)
    (F : Changes A ps (s.setReg a (s.reg a)) t) (hP : ∀ u, Logs t u → Changes A ps s u → P u) :
    Answers (done s (s.hostWrite a v)) P := by
  refine Answers.ofTrigger h hp hf fun u L => ?_
  rw [ht] at L
  exact hP u L ((Changes.trans (Changes.setReg_self_iff.2 .refl) F).logs L)

/-- The status of the configuration scan is a register of its own. -/
theorem State.g_scan {b : Nat} {f : Fld} {w : Word} (h : b ≠ R.HIF_CFG_CRC_STATUS) :
    (s.setReg R.HIF_CFG_CRC_STATUS w).g b f = s.g b f := by
  unfold State.g
  rw [State.reg_setReg_ne s h]

/-- What a write stores, from the fields of the register (R48). -/
theorem formWord_eq {l : List Field} (hn : writesNothing a = false) (hl : fieldsAt a = l) : s.formWord a v =
    l.foldr (fun f w => if f.stored then f.fld.put w (s.clampField a f w (f.fld.get v)) else w) (s.reg a) := by
  rw [State.formWord, hn, hl]
  rfl

end Sys2Proof.Machine
end

section

/-! ## Requests of steps (R75, R76, R78) -/

set_option Elab.async false

namespace Sys2Proof.Machine

variable {A : Nat → Prop} {ps : List Part} {s t u : State} {a : Nat} {v : Word}

theorem act_stepCtrl {old : Word} : s.act R.TSC_STEP_CTRL old v = s.stepCtrlAct v := by
  unfold State.act State.actTsc
  rfl

theorem stepCtrlAct_go (h : F.TSC_STEP_CTRL_CANCEL.get v = 0) (hg : F.TSC_STEP_CTRL_GO.get v = 1) :
    s.stepCtrlAct v = s.requestStep := by
  simp [State.stepCtrlAct, h, hg]

theorem stepCtrlAct_cancel (h : F.TSC_STEP_CTRL_CANCEL.get v = 1) (hg : F.TSC_STEP_CTRL_GO.get v = 0) :
    s.stepCtrlAct v = s.cancelStep := by
  simp [State.stepCtrlAct, h, hg]

/-- The word of a GO with MODE `m`. -/
abbrev goWord (v : Word) (m : Nat) : Word := F.TSC_STEP_CTRL_GO.put (F.TSC_STEP_CTRL_MODE.put v m) 1

/-- The state in which `TSC_STEP_CTRL` holds what a write of `v` stores. -/
abbrev State.stepStored (s : State) (v : Word) : State := s.setReg R.TSC_STEP_CTRL (s.formWord R.TSC_STEP_CTRL v)

theorem formWord_stepCtrl : s.formWord R.TSC_STEP_CTRL v =
    F.TSC_STEP_CTRL_MODE.put (s.reg R.TSC_STEP_CTRL) (min (F.TSC_STEP_CTRL_MODE.get v) 2) :=
  formWord_eq (l := [⟨"CANCEL", 3, 3, .wt, 0x0, .any⟩, ⟨"GO", 2, 2, .wt, 0x0, .any⟩, ⟨"MODE", 1, 0, .rw, 0x0, .upTo 2⟩])
    rfl rfl

theorem mode_stored {m : Nat} (h : m < 3) : (s.stepStored (goWord v m)).g R.TSC_STEP_CTRL F.TSC_STEP_CTRL_MODE = m := by
  simp [State.g, formWord_stepCtrl, Fld.get_put, Fld.get_put_ne]
  omega

@[simp] theorem Changes.setHost_iff {h : Option HostStep} (hA : A R.TSC_STEP_STATUS) (hp : .tsc ∈ ps) :
    Changes A ps s (t.setHost h) ↔ Changes A ps s t := by
  unfold State.setHost
  simp [hA, hp]

@[simp] theorem Changes.refuseStep_iff (hA : A R.TSC_STEP_STATUS) : Changes A ps s t.refuseStep ↔ Changes A ps s t := by
  unfold State.refuseStep
  simp [hA, rawBlock]

@[simp] theorem Changes.phaseRec_iff {src : Nat} {c far : Bool} {x y : Tick64} {n : Int} :
    Changes A ps s (t.phaseRec src c x y n far) ↔ Changes A ps s t := Changes.iffLogs (.record (.refl t))

@[simp] theorem Changes.cancelStep_iff (hA : A R.TSC_STEP_STATUS) (hp : .tsc ∈ ps) :
    Changes A ps s t.cancelStep ↔ Changes A ps s t := by
  unfold State.cancelStep
  split <;> simp [hA, hp, rawBlock]

/-- A host step made pending shows in PENDING. -/
theorem pending_setHost {h : Option HostStep} :
    (s.setHost h).g R.TSC_STEP_STATUS F.TSC_STEP_STATUS_PENDING = b2n h.isSome := by
  have e : b2n h.isSome % 2 ^ 1 = b2n h.isSome := by cases h <;> rfl
  rw [← e]
  unfold State.setHost State.g
  rw [State.reg_p, if_pos rfl, Fld.get_put (by decide)]

theorem requestStep_imm (h : s.tsc.host = none) (hm : s.g R.TSC_STEP_CTRL F.TSC_STEP_CTRL_MODE = 0) :
    s.requestStep = s.setHost (some (.imm (s.pairI R.TSC_STEP_LO))) := by
  rw [State.requestStep, h, hm]
  rfl

theorem requestStep_aligned (h : s.tsc.host = none) (hm : s.g R.TSC_STEP_CTRL F.TSC_STEP_CTRL_MODE = 1) :
    s.requestStep = s.setHost (some (.aligned (s.pairI R.TSC_STEP_LO))) := by
  rw [State.requestStep, h, hm]
  rfl

theorem requestStep_set (h : s.tsc.host = none) (hm : s.g R.TSC_STEP_CTRL F.TSC_STEP_CTRL_MODE = 2)
    (hs : s.on R.TSC_CTRL F.TSC_CTRL_STEER = true) :
    s.requestStep = (s.storeSet s.setValue).setHost (some (.set s.setValue)) := by
  rw [State.requestStep, h, hm, hs]
  rfl

theorem requestStep_held {h : HostStep} (hh : s.tsc.host = some h) : s.requestStep = s.refuseStep := by
  simp [State.requestStep, hh]

theorem pairI_stepStored : (s.stepStored v).pairI R.TSC_STEP_LO = s.pairI R.TSC_STEP_LO := by
  simp [State.pairI, State.pair, R.TSC_STEP_LO, R.TSC_STEP_CTRL]

theorem setValue_stepStored : (s.stepStored v).setValue = s.setValue := by
  simp [State.setValue]

theorem ownWord_stepCtrl : ownWord R.TSC_STEP_CTRL = true := by decide

/-- A GO with MODE `m` requests the step of that mode. -/
theorem act_go {m : Nat} {old : Word} (hc : F.TSC_STEP_CTRL_CANCEL.get v = 0) :
    (s.stepStored (goWord v m)).act R.TSC_STEP_CTRL old (goWord v m) = (s.stepStored (goWord v m)).requestStep := by
  rw [act_stepCtrl, stepCtrlAct_go]
  · simp [Fld.get_put_ne, hc]
  · simp [Fld.get_put]

/-- A GO that makes the host step `h` pending: the step waits, PENDING shows it, and the registers of `A` may change. -/
theorem goAnswers {A : Nat → Prop} {h : HostStep} {m : Nat} (ha : s.accepts R.TSC_STEP_CTRL)
    (hc : F.TSC_STEP_CTRL_CANCEL.get v = 0) (hA : A R.TSC_STEP_CTRL ∧ A R.TSC_STEP_STATUS ∧ A R.HIF_CFG_CRC_STATUS)
    (ht : (s.stepStored (goWord v m)).requestStep = t.setHost (some h)) (C : Changes A [.tsc] s t) :
    Answers (done s (s.hostWrite R.TSC_STEP_CTRL (goWord v m))) fun t =>
      t.tsc.host = some h ∧ t.g R.TSC_STEP_STATUS F.TSC_STEP_STATUS_PENDING = 1 ∧ Changes A [.tsc] s t := by
  obtain ⟨h1, h2, h3⟩ := hA
  refine Answers.ofWrite ha ownWord_stepCtrl ((act_go hc).trans ht) ((Changes.setHost_iff h2 (by simp)).2 C) h3
    fun u w L C => ⟨?_, ?_, C⟩
  · rw [L.tsc]; rfl
  · rw [L.g (by decide), State.g_scan (by decide), pending_setHost]
    rfl

/-- Settles O58. -/
theorem stepRequests : Obligations.StepRequests := by
  refine ⟨fun s v ha hh hc => ?_, fun s v ha hh hc => ?_, fun s v ha hh hc hs => ?_, fun s v h ha hh hc => ?_,
    fun s v h ha hh hg => ?_⟩
  · obtain ⟨t, e, h1, h2, C⟩ := goAnswers (A := (· ∈ [R.TSC_STEP_CTRL, R.TSC_STEP_STATUS, R.HIF_CFG_CRC_STATUS])) ha hc
      (by simp) (requestStep_imm hh (mode_stored (by decide))) (Changes.setReg (.inl (by simp)))
    rw [pairI_stepStored] at h1
    exact ⟨t, e, h1, h2, C.sameBut, C.parts⟩
  · obtain ⟨t, e, h1, h2, C⟩ := goAnswers (A := (· ∈ [R.TSC_STEP_CTRL, R.TSC_STEP_STATUS, R.HIF_CFG_CRC_STATUS])) ha hc
      (by simp) (requestStep_aligned hh (mode_stored (by decide))) (Changes.setReg (.inl (by simp)))
    rw [pairI_stepStored] at h1
    exact ⟨t, e, h1, h2, C.sameBut, C.parts⟩
  · have hs' : (s.stepStored (goWord v 2)).on R.TSC_CTRL F.TSC_CTRL_STEER = true := by
      rw [← hs]
      simp [State.on, State.g]
    obtain ⟨t, e, h1, h2, C⟩ := goAnswers (A := (· ∈ [R.TSC_STEP_CTRL, R.TSC_STEP_STATUS, R.HIF_CFG_CRC_STATUS, R.TSC_SET_T0,
      R.TSC_SET_T1, R.TSC_SET_T2])) ha hc (by simp)
      (requestStep_set hh (mode_stored (by decide)) hs') (by unfold State.storeSet; simp)
    rw [setValue_stepStored] at h1
    exact ⟨t, e, h1, h2, C.sameBut, C.parts⟩
  · refine Answers.ofWrite (A := (· ∈ [R.TSC_STEP_CTRL, R.TSC_STEP_STATUS, R.HIF_CFG_CRC_STATUS])) (ps := []) ha
      ownWord_stepCtrl ((act_go hc).trans (requestStep_held hh)) (by simp) (by simp)
      fun u w L C => ⟨?_, ?_, ?_, C.sameBut, C.parts⟩
    · rw [L.tsc]; exact hh
    · rw [L.g (by decide), State.g_scan (by decide)]
      simp [State.refuseStep, State.g, Fld.get_put]
    · refine L.isSet (by decide) (by decide) rfl ?_
      simp [State.refuseStep, State.isSet, State.g, Fld.get_put]
  · refine Answers.ofWrite (A := (· ∈ [R.TSC_STEP_CTRL, R.TSC_STEP_STATUS, R.HIF_CFG_CRC_STATUS])) (ps := [.tsc]) ha
      ownWord_stepCtrl ((act_stepCtrl).trans (stepCtrlAct_cancel (by simp [Fld.get_put]) (by simp [Fld.get_put_ne, hg])))
      (by simp) (by simp) fun u w L C => ⟨?_, ?_, ?_, C.sameBut, C.parts⟩
    · rw [L.tsc]
      simp [State.cancelStep, hh, State.phaseRec, State.setHost]
    · rw [L.g (by decide), State.g_scan (by decide)]
      simp [State.cancelStep, hh, State.phaseRec, State.setHost, State.g, Fld.get_put, b2n]
    · refine L.isSet (by decide) (by decide) rfl ?_
      simp [State.cancelStep, hh, State.phaseRec, State.isSet, State.g, Fld.get_put]

end Sys2Proof.Machine
end

section

/-! ## The tick of the timescale (R69, R84, R87 to R92)

A tick advances each copy and votes; the outputs follow it and change synthesis alone. The lemmas on the vote say which case of
R84 or R89 two or three copies make. -/

set_option Elab.async false

namespace Sys2Proof.Machine

variable {A : Nat → Prop} {ps : List Part} {s t u : State} {a i : Nat} {e x y : Copy}

/-! ### The outputs over a tick -/

/-- `t` differs from `s` in synthesis and in what has left the block. -/
def OutputsOnly (s t : State) : Prop := ∃ x o, t = { s with syn := x, out := o }

namespace OutputsOnly

theorem refl (s : State) : OutputsOnly s s := ⟨s.syn, s.out, rfl⟩

theorem setSyn {x : Syn} (h : OutputsOnly s t) : OutputsOnly s (t.setSyn x) := by
  obtain ⟨y, o, e⟩ := h
  exact ⟨x, o, by rw [e]; rfl⟩

theorem emitEdges {n : Nat} {l : List (Bool × Nat)} (h : OutputsOnly s t) : OutputsOnly s (t.emitEdges n l) := by
  obtain ⟨y, o, e⟩ := h
  exact ⟨y, _, by rw [e]; rfl⟩

theorem ite {c : Prop} [Decidable c] (h : OutputsOnly s t) (k : OutputsOnly s u) : OutputsOnly s (if c then t else u) := by
  split <;> assumption

theorem fold {α : Type} {f : State → α → State} (hf : ∀ t x, OutputsOnly s t → OutputsOnly s (f t x))
    (h : OutputsOnly s t) (l : List α) : OutputsOnly s (l.foldl f t) := by
  induction l generalizing t with
  | nil => exact h
  | cons x r ih => exact ih (hf t x h)

theorem outputsTick {n inc : Nat} {gap : Bool} : OutputsOnly s (s.outputsTick n inc gap) := by
  unfold State.outputsTick
  extract_lets x run sec stays pulse pulsed top
  have hr : OutputsOnly s run := (refl s).setSyn
  have hp : OutputsOnly s pulsed := .ite (fold (fun _ _ k => .ite k.setSyn k) hr _) hr
  exact fold (fun _ _ k => .ite k.setSyn.emitEdges (.ite k k.setSyn.emitEdges)) (.ite hp.setSyn hp) _

end OutputsOnly

/-! ### Rules for frames and for registers -/

@[simp] theorem Changes.tripod_iff {k c m w : Nat} : Changes A ps s (t.tripod k c m w) ↔ Changes A ps s t :=
  Changes.iffLogs (.note (.refl t))

@[simp] theorem Changes.tscFault_iff {c d p : Nat} (hp : .tsc ∈ ps) : Changes A ps s (t.tscFault c d p) ↔ Changes A ps s t := by
  unfold State.tscFault
  simp [hp]

@[simp] theorem Changes.fenceCopy_iff (hA : A R.TSC_STATUS) : Changes A ps s (t.fenceCopy i) ↔ Changes A ps s t := by
  unfold State.fenceCopy
  simp [hA, rawBlock]

@[simp] theorem Changes.setVoted_iff (hp : .tsc ∈ ps) : Changes A ps s (t.setVoted x) ↔ Changes A ps s t := by
  unfold State.setVoted
  simp [hp]

@[simp] theorem Changes.mismatch_iff (hA : A R.TSC_DISAGREE_CNT) (hp : .tsc ∈ ps) :
    Changes A ps s (t.mismatch i) ↔ Changes A ps s t := by
  unfold State.mismatch
  simp [hA, hp, rawBlock]

@[simp] theorem Changes.noMajority_iff {l : List Nat} (hA : A R.TSC_STATUS) (hp : .tsc ∈ ps) :
    Changes A ps s (t.noMajority l x) ↔ Changes A ps s t := by
  unfold State.noMajority
  simp [hA, hp, rawBlock]

@[simp] theorem State.reg_tripod {k c m w : Nat} : (s.tripod k c m w).reg a = s.reg a := State.reg_note

@[simp] theorem State.reg_tscFault {c d p : Nat} (h : a ≠ R.HIF_FQ_STATUS) (h' : a ≠ R.HIF_RAW) :
    (s.tscFault c d p).reg a = s.reg a := by
  unfold State.tscFault
  simp [h, h']

@[simp] theorem State.tripod_tsc {k c m w : Nat} : (s.tripod k c m w).tsc = s.tsc := State.note_tsc

/-! ### Copies -/

@[simp] theorem Tsc.copy_setCopy {x : Tsc} {j : Nat} {c : Copy} (hi : i < 3) (hj : j < 3) :
    (x.setCopy i c).copy j = if j = i then c else x.copy j := by
  unfold Tsc.setCopy Tsc.copy
  interval_cases i <;> interval_cases j <;> rfl

@[simp] theorem Tsc.copy_setHist {x : Tsc} {j : Nat} {h : Hist} : (x.setHist i h).copy j = x.copy j := by
  unfold Tsc.setHist
  split
  · rfl
  · split <;> rfl

@[simp] theorem Tsc.setCopy_voted {x : Tsc} {c : Copy} : (x.setCopy i c).voted = x.voted := by
  unfold Tsc.setCopy
  split
  · rfl
  · split <;> rfl

@[simp] theorem Tsc.setHist_voted {x : Tsc} {h : Hist} : (x.setHist i h).voted = x.voted := by
  unfold Tsc.setHist
  split
  · rfl
  · split <;> rfl

/-- What the vote leaves of the time core: all but the copies, their histories, the voted state and the queueing of fault
codes. -/
def Tsc.SameCore (x y : Tsc) : Prop :=
  y = { x with
    c0 := y.c0, c1 := y.c1, c2 := y.c2, voted := y.voted, h0 := y.h0, h1 := y.h1, h2 := y.h2, lastFault := y.lastFault }

namespace Tsc.SameCore

variable {x y z : Tsc}

theorem refl (x : Tsc) : x.SameCore x := rfl

theorem setCopy {c : Copy} (h : x.SameCore y) : x.SameCore (y.setCopy i c) := by
  unfold Tsc.setCopy
  split
  · exact congrArg (fun z : Tsc => { z with c0 := c }) h
  · split
    · exact congrArg (fun z : Tsc => { z with c1 := c }) h
    · exact congrArg (fun z : Tsc => { z with c2 := c }) h

theorem setHist {c : Hist} (h : x.SameCore y) : x.SameCore (y.setHist i c) := by
  unfold Tsc.setHist
  split
  · exact congrArg (fun z : Tsc => { z with h0 := c }) h
  · split
    · exact congrArg (fun z : Tsc => { z with h1 := c }) h
    · exact congrArg (fun z : Tsc => { z with h2 := c }) h

theorem setVoted {c : Copy} (h : x.SameCore y) : x.SameCore { y with voted := c } := by
  unfold Tsc.SameCore
  exact congrArg (fun z : Tsc => { z with voted := c }) h

theorem setLastFault {c : Tbl (Option Nat)} (h : x.SameCore y) : x.SameCore { y with lastFault := c } := by
  unfold Tsc.SameCore
  exact congrArg (fun z : Tsc => { z with lastFault := c }) h

theorem fold {α : Type} {f : Tsc → α → Tsc} (hf : ∀ y a, x.SameCore y → x.SameCore (f y a)) (h : x.SameCore y) (l : List α) :
    x.SameCore (l.foldl f y) := by
  induction l generalizing y with
  | nil => exact h
  | cons a r ih => exact ih (hf y a h)

variable {w : Tsc}

theorem tscFault {c d p : Nat} (h : w.SameCore s.tsc) : w.SameCore (s.tscFault c d p).tsc := by
  unfold State.tscFault
  extract_lets q
  split
  · simpa using h.setLastFault
  · exact h

theorem fenceCopy (h : w.SameCore s.tsc) : w.SameCore (s.fenceCopy i).tsc := by
  unfold State.fenceCopy
  simpa using h

theorem disagree (h : w.SameCore s.tsc) : w.SameCore (s.disagree i).tsc := by
  unfold State.disagree
  extract_lets mask tick hist fence reset counted noted
  have hr : w.SameCore reset.tsc := h.setCopy.setHist
  have hc : counted.tsc = reset.tsc := by
    unfold counted
    split
    · exact State.inc_tsc
    · split <;> exact State.inc_tsc
  have hn : w.SameCore noted.tsc := by
    unfold noted
    simpa [hc] using hr
  clear_value noted
  split
  · rw [State.tripod_tsc]
    exact hn.fenceCopy.tscFault
  · exact hn

theorem noMajority {l : List Nat} (h : w.SameCore s.tsc) : w.SameCore (s.noMajority l e).tsc := by
  unfold State.noMajority
  extract_lets m x loaded noted
  have hl : w.SameCore loaded.tsc := fold (fun _ _ k => k.setCopy) h.setVoted _
  have hn : w.SameCore noted.tsc := by
    unfold noted
    simpa using hl
  clear_value noted
  rw [State.tripod_tsc]
  exact hn.tscFault

theorem mismatch (h : w.SameCore s.tsc) : w.SameCore (s.mismatch i).tsc := by
  unfold State.mismatch
  extract_lets mask reset noted
  have hr : w.SameCore reset.tsc := h.setCopy
  have hn : w.SameCore noted.tsc := by
    unfold noted
    simpa using hr
  clear_value noted
  rw [State.tripod_tsc]
  exact hn.tscFault

theorem ite {c : Prop} [Decidable c] (h : w.SameCore s.tsc) (k : w.SameCore t.tsc) : w.SameCore (if c then s else t).tsc := by
  split <;> assumption

theorem vote (h : w.SameCore s.tsc) : w.SameCore (s.vote e).tsc := by
  unfold State.vote
  extract_lets a b c
  have hv (z : Copy) : w.SameCore (s.setVoted z).tsc := h.setVoted
  refine ite ?duplex (ite (ite (hv _) (hv _).disagree) (ite (hv _).disagree (ite (hv _).disagree h.noMajority)))
  case duplex =>
    extract_lets
    rename_i l
    clear_value l
    split
    · exact ite (hv _) (ite (hv _).mismatch (ite (hv _).mismatch h.noMajority))
    · exact hv _

end Tsc.SameCore

end Sys2Proof.Machine
end

section

/-! ## The tick and the fencing of a copy (R69, R84 to R90)

The copies advance, and the vote decides: one lemma for each of its cases. -/

set_option Elab.async false

namespace Sys2Proof.Machine

variable {A : Nat → Prop} {ps : List Part} {s t : State} {i : Nat} {e u v w : Copy}

/-! ### The copies that a tick votes on -/

/-- What a tick makes of a copy, with a RATE supplied or none (R69 to R71). -/
def advance (r : Option Int) (c : Copy) : Copy :=
  match r with
  | none => cTick c
  | some r => cRate r (cTick c)

/-- The state whose copies have advanced, with their upsets, before the vote. -/
def State.advanced (s : State) (u v w : Copy) : State :=
  s.setTsc { s.tsc with
    c0 := advance s.tsc.newRate s.tsc.c0 ^^^ u, c1 := advance s.tsc.newRate s.tsc.c1 ^^^ v,
    c2 := advance s.tsc.newRate s.tsc.c2 ^^^ w, tick := s.tsc.tick + 1, rateSum := s.tsc.rateSum + s.rate * 1,
    carried := cCarries s.tsc.voted, newRate := none, inject := none, hostRipe := s.tsc.host.isSome, intern := [],
    due := s.tsc.due ++ s.tsc.intern }

/-- The copy that the voted one becomes. -/
def State.expected (s : State) : Copy := advance s.tsc.newRate s.tsc.voted

/-- The state with the mark of the loop mean's second (R132). -/
def State.marked (s : State) (b : Bool) : State := s.setHld { s.hld with secOff := b }

theorem rejoinCopies_nil (h : s.tsc.rejoin = []) : s.rejoinCopies = s := if_pos h

theorem Tsc.reloaded_nil {x : Tsc} (h : x.restore = []) (h' : x.rejoin = []) : { x with restore := [], rejoin := [] } = x := by
  cases x
  cases h
  cases h'
  rfl

theorem reloadCopies_nil (h : s.tsc.restore = []) (h' : s.tsc.rejoin = []) : s.reloadCopies = s := by
  unfold State.reloadCopies State.setTsc
  simp only [h, List.foldl_nil]
  rw [Tsc.reloaded_nil h h']

theorem Tsc.SameCore.restore {x y : Tsc} (h : x.SameCore y) : y.restore = x.restore := by
  unfold Tsc.SameCore at h
  rw [h]

theorem Tsc.SameCore.rejoin {x y : Tsc} (h : x.SameCore y) : y.rejoin = x.rejoin := by
  unfold Tsc.SameCore at h
  rw [h]

theorem vote_restore : (s.vote e).tsc.restore = s.tsc.restore :=
  (Tsc.SameCore.vote (.refl s.tsc)).restore

theorem vote_rejoin : (s.vote e).tsc.rejoin = s.tsc.rejoin :=
  (Tsc.SameCore.vote (.refl s.tsc)).rejoin

/-- With nothing injected, to reload or to rejoin, a tick is the vote on the advanced copies. -/
theorem formTick_idle (hi : s.tsc.inject = none) (hl : s.tsc.restore = []) (hj : s.tsc.rejoin = []) :
    s.formTick 1 cTick (cCarries s.tsc.voted) u v w = (s.advanced u v w).vote s.expected := by
  have h0 (x : Copy) : x ^^^ 0#192 = x := BitVec.xor_zero
  have hx : s.formTick 1 cTick (cCarries s.tsc.voted) u v w =
      ((s.advanced u v w).rejoinCopies.vote s.expected).reloadCopies := by
    unfold State.formTick
    simp only [hi, h0]
    rfl
  rw [hx, rejoinCopies_nil (s := s.advanced u v w) hj,
    reloadCopies_nil (s := (s.advanced u v w).vote s.expected) (vote_restore.trans hl) (vote_rejoin.trans hj)]

theorem tick_idle (hr : s.runs .timescale = true) (hi : s.tsc.inject = none) (hl : s.tsc.restore = [])
    (hj : s.tsc.rejoin = []) :
    ∃ b x o, s.tick u v w = { ((s.marked b).advanced u v w).vote s.expected with syn := x, out := o } := by
  obtain ⟨b, e⟩ := steerTick_eq (s := s)
  have hm : s.steerTick.formTick 1 cTick (cCarries s.tsc.voted) u v w = ((s.marked b).advanced u v w).vote s.expected := by
    rw [e]
    exact formTick_idle (s := s.marked b) hi hl hj
  obtain ⟨x, o, k⟩ := OutputsOnly.outputsTick (s := s.steerTick.formTick 1 cTick (cCarries s.tsc.voted) u v w)
    (inc := cInc s.tsc.voted) (n := 1) (gap := false)
  exact ⟨b, x, o, by rw [tick_running hr, k, hm]⟩

/-- What the rest of a tick and the end of its command leave of its vote `z`. -/
structure Shows (z t : State) : Prop where
  reg : ∀ a, sharedReg a = false → t.reg a = z.reg a
  isSet : ∀ a f, (rawBlock a).isSome = true → f.lo < 32 → f.w = 1 → z.isSet a f → t.isSet a f
  tsc : t.tsc = z.tsc
  fq : z.hif.fq <+: t.hif.fq

theorem Shows.g {z : State} (S : Shows z t) {a : Nat} {f : Fld} (h : sharedReg a = false) : t.g a f = z.g a f :=
  congrArg f.get (S.reg a h)

theorem shows_of_logs {z : State} {x : Syn} {o : List Out} (L : Logs { z with syn := x, out := o } t) : Shows z t :=
  ⟨fun a h => L.reg a h, fun _ _ ha hf hw h => L.isSet ha hf hw h, L.tsc, L.fq⟩

theorem Shows.queued {z : State} (S : Shows z t) {P : FaultRec → Prop} (h : ∃ f ∈ z.hif.fq, P f) : ∃ f ∈ t.hif.fq, P f := by
  obtain ⟨f, hf, hP⟩ := h
  exact ⟨f, S.fq.subset hf, hP⟩

/-- The answer of a tick with nothing injected, to reload or to rejoin, from what its vote makes. -/
theorem Answers.ofTick {P : State → Prop} (hs : s.inReset = false) (hr : s.runs .timescale = true)
    (hi : s.tsc.inject = none) (hl : s.tsc.restore = []) (hj : s.tsc.rejoin = []) {z : Bool → State}
    (hz : ∀ b, ((s.marked b).advanced u v w).vote s.expected = z b) (C : ∀ b, Changes A [.tsc, .hld, .syn] s (z b))
    (hP : ∀ b t, Shows (z b) t → t.hld = { s.hld with secOff := t.hld.secOff } → Changes A [.tsc, .hld, .syn] s t → P t) :
    Answers (exec (.timescaleTick u v w) s) P := by
  rw [exec_timescaleTick]
  refine Answers.ofDone hs fun t L => ?_
  have hh := (tick_frame (u := u) (v := v) (w := w) hr).1
  obtain ⟨b, x, o, k⟩ := tick_idle (u := u) (v := v) (w := w) hr hi hl hj
  rw [← L.hld] at hh
  rw [k, hz] at L
  exact hP b t (shows_of_logs L) hh (((Changes.upd_iff (by simp) (by simp) (by simp) (by simp) (by simp) (by simp) (by simp)
    (by simp) (by simp) (by simp) (by simp) (by simp) (by simp) (by simp) (by simp) (by simp) (by simp) (by simp)).2
    (C b)).logs L)

/-! ### The vote in triplex (R84) -/

section
variable (hd : s.duplex = false)
include hd

theorem vote_same (h : s.tsc.c0 = s.tsc.c1) (h' : s.tsc.c1 = s.tsc.c2) : s.vote e = s.setVoted s.tsc.c0 := by
  simp [State.vote, hd, h, h']

theorem vote_differs0 (h : s.tsc.c0 ≠ s.tsc.c1) (h' : s.tsc.c1 = s.tsc.c2) : s.vote e = (s.setVoted s.tsc.c1).disagree 0 := by
  simp [State.vote, hd, h, ← h']

theorem vote_differs1 (h : s.tsc.c0 ≠ s.tsc.c1) (h' : s.tsc.c0 = s.tsc.c2) : s.vote e = (s.setVoted s.tsc.c0).disagree 1 := by
  simp [State.vote, hd, h, ← h']

theorem vote_differs2 (h : s.tsc.c0 = s.tsc.c1) (h' : s.tsc.c1 ≠ s.tsc.c2) : s.vote e = (s.setVoted s.tsc.c0).disagree 2 := by
  simp [State.vote, hd, h, h']

theorem vote_apart (h : s.tsc.c0 ≠ s.tsc.c1) (h' : s.tsc.c0 ≠ s.tsc.c2) (h'' : s.tsc.c1 ≠ s.tsc.c2) :
    s.vote e = s.noMajority [0, 1, 2] e := by
  simp [State.vote, hd, h, h', h'']

end

/-! ### The vote in duplex, with copy 2 fenced (R89) -/

section
variable (hf : s.g R.TSC_STATUS F.TSC_STATUS_FENCED = 4) (hd : s.duplex = true)
include hf

theorem voters_two : [0, 1, 2].filter (fun i => !(s.fenced i)) = [0, 1] := by
  simp [State.fenced, hf, maskBit]

include hd

theorem duplex_same (h : s.tsc.c0 = s.tsc.c1) : s.vote e = s.setVoted s.tsc.c0 := by
  unfold State.vote
  simp only [hd, voters_two hf, if_true]
  exact if_pos h

theorem duplex_differs1 (h : s.tsc.c0 ≠ s.tsc.c1) (h' : s.tsc.c0 = e) : s.vote e = (s.setVoted s.tsc.c0).mismatch 1 := by
  unfold State.vote
  simp only [hd, voters_two hf, if_true]
  exact (if_neg h).trans (if_pos h')

theorem duplex_differs0 (h : s.tsc.c0 ≠ s.tsc.c1) (h' : s.tsc.c1 = e) : s.vote e = (s.setVoted s.tsc.c1).mismatch 0 := by
  unfold State.vote
  simp only [hd, voters_two hf, if_true]
  exact (if_neg h).trans ((if_neg fun k => h (k.trans h'.symm)).trans (if_pos h'))

theorem duplex_apart (h : s.tsc.c0 ≠ s.tsc.c1) (h' : s.tsc.c0 ≠ e) (h'' : s.tsc.c1 ≠ e) :
    s.vote e = s.noMajority [0, 1] e := by
  unfold State.vote
  simp only [hd, voters_two hf, if_true]
  exact (if_neg h).trans ((if_neg h').trans (if_neg h''))

end

/-! ### The time of a copy (R69, R70) -/

theorem cSec_lt {c : Copy} : cSec c < 2 ^ 48 := by
  unfold cSec
  omega

theorem cSec_mkCopy {a b c : Nat} : cSec (mkCopy a b c) = a % 2 ^ 48 := by
  simp only [cSec, mkCopy, BitVec.toNat_ofNat]
  omega

theorem cSub_mkCopy {a b c : Nat} : cSub (mkCopy a b c) = b % 2 ^ 80 := by
  simp only [cSub, mkCopy, BitVec.toNat_ofNat]
  omega

theorem cInc_mkCopy {a b c : Nat} : cInc (mkCopy a b c) = c % 2 ^ 64 := by
  simp only [cInc, mkCopy, BitVec.toNat_ofNat]
  omega

theorem cInc_cTick {c : Copy} : cInc (cTick c) = cInc c := by
  have h : cInc c % 2 ^ 64 = cInc c := Nat.mod_mod ..
  simp only [cTick]
  split <;> rw [cInc_mkCopy, h]

/-- The time of a copy moves on by its increment, modulo 2^48 seconds. -/
theorem cTick_time {c : Copy} (h : cSub c < secUnits) (h' : cInc c < secUnits) :
    cSec (cTick c) * secUnits + cSub (cTick c) = (cSec c * secUnits + cSub c + cInc c) % (2 ^ 48 * secUnits) := by
  have hs := cSec_lt (c := c)
  simp only [cTick]
  split <;> rw [cSec_mkCopy, cSub_mkCopy] <;> simp only [secUnits] at * <;> omega

theorem cInc_cRate {c : Copy} {r : Int} (h : -(2 ^ 37) ≤ r) (h' : r ≤ 2 ^ 37) : (cInc (cRate r c) : Int) = 2 ^ 49 + r := by
  rw [cRate, cInc_mkCopy, enc]
  omega

end Sys2Proof.Machine
end

section

/-! ## What a tick answers (O56)

One lemma for each outcome of the vote: the copies agree, one is outvoted, one is fenced, the two of a duplex differ, none has a
majority. -/

set_option Elab.async false

namespace Sys2Proof.Machine

variable {A : Nat → Prop} {ps : List Part} {s t : State} {i : Nat} {e u v w : Copy}

@[simp] theorem Changes.marked_iff {b : Bool} (h : .hld ∈ ps) : Changes A ps s (t.marked b) ↔ Changes A ps s t :=
  Changes.setHld_iff t h

@[simp] theorem Changes.advanced_iff (h : .tsc ∈ ps) : Changes A ps s (t.advanced u v w) ↔ Changes A ps s t :=
  Changes.setTsc_iff t h

@[simp] theorem State.reg_advanced {a : Nat} : (s.advanced u v w).reg a = s.reg a := State.reg_setTsc
@[simp] theorem State.reg_setVoted {a : Nat} : (s.setVoted e).reg a = s.reg a := State.reg_setTsc
@[simp] theorem State.reg_marked {a : Nat} {b : Bool} : (s.marked b).reg a = s.reg a := State.reg_setHld

/-- The counter of the disagreements of copy `i` (R84). -/
def countFld (i : Nat) : Fld :=
  if i = 0 then F.TSC_DISAGREE_CNT_COPY0 else if i = 1 then F.TSC_DISAGREE_CNT_COPY1 else F.TSC_DISAGREE_CNT_COPY2

/-- A disagreement of copy `i` reported, and the copy reloaded from the voted one (R84). -/
def State.outvoted (s : State) (i : Nat) : State :=
  let mask := partMask (s.tsc.copy i) s.tsc.voted
  let h := s.tsc.hist i
  let s := s.setTsc ((s.tsc.setCopy i s.tsc.voted).setHist i ⟨s.tsc.tick, h.last1, min (h.seen + 1) 2⟩)
  ((s.inc R.TSC_DISAGREE_CNT (countFld i)).raw R.TSC_RAW F.TSC_RAW_DISAGREE).tripod 0 i mask 0

/-- Copy `i` is fenced for a second disagreement within a second of ticks (R88). -/
def State.fencedAt (s : State) (i d mask : Nat) : State := ((s.fenceCopy i).tscFault 1 i d).tripod 1 i mask 0

theorem inc_countFld : (if i = 0 then s.inc R.TSC_DISAGREE_CNT F.TSC_DISAGREE_CNT_COPY0
    else if i = 1 then s.inc R.TSC_DISAGREE_CNT F.TSC_DISAGREE_CNT_COPY1
    else s.inc R.TSC_DISAGREE_CNT F.TSC_DISAGREE_CNT_COPY2) = s.inc R.TSC_DISAGREE_CNT (countFld i) := by
  unfold countFld
  split
  · rfl
  · split <;> rfl

theorem disagree_eq : s.disagree i =
    if (s.tsc.hist i).seen = 2 ∧ s.tsc.tick - (s.tsc.hist i).last2 < 500000000 then
      (s.outvoted i).fencedAt i (s.tsc.tick - (s.tsc.hist i).last2) (partMask (s.tsc.copy i) s.tsc.voted)
    else s.outvoted i := by
  unfold State.disagree
  simp only [inc_countFld, decide_eq_true_eq]
  rfl

theorem disagree_quiet (h : (s.tsc.hist i).seen < 2) : s.disagree i = s.outvoted i := by
  rw [disagree_eq, if_neg fun k => by omega]

theorem disagree_fences (h : (s.tsc.hist i).seen = 2) (h' : s.tsc.tick - (s.tsc.hist i).last2 < 500000000) : ∃ d m,
    s.disagree i = (s.outvoted i).fencedAt i d m :=
  ⟨_, _, by rw [disagree_eq, if_pos ⟨h, h'⟩]⟩

@[simp] theorem Changes.outvoted_iff (hA : A R.TSC_DISAGREE_CNT) (hp : .tsc ∈ ps) :
    Changes A ps s (t.outvoted i) ↔ Changes A ps s t := by
  unfold State.outvoted
  simp [hA, hp, rawBlock]

@[simp] theorem Changes.fencedAt_iff {d m : Nat} (hA : A R.TSC_STATUS) (hp : .tsc ∈ ps) :
    Changes A ps s (t.fencedAt i d m) ↔ Changes A ps s t := by
  unfold State.fencedAt
  simp [hA, hp]

@[simp] theorem outvoted_tsc : (s.outvoted i).tsc =
    (s.tsc.setCopy i s.tsc.voted).setHist i ⟨s.tsc.tick, (s.tsc.hist i).last1, min ((s.tsc.hist i).seen + 1) 2⟩ := by
  unfold State.outvoted
  simp

theorem outvoted_count (hi : i < 3) : (s.outvoted i).g R.TSC_DISAGREE_CNT (countFld i) =
    min (s.g R.TSC_DISAGREE_CNT (countFld i) + 1) 255 := by
  interval_cases i <;> simp [State.outvoted, State.g, countFld, Fld.get_put]

theorem outvoted_raw : (s.outvoted i).isSet R.TSC_RAW F.TSC_RAW_DISAGREE := by
  simp [State.outvoted, State.isSet, State.g, Fld.get_put]

/-- A mask of three copies with one set has it set. -/
theorem maskBit_maskSet {m : Nat} (hm : m < 8) (hi : i < 3) : maskBit (maskSet m i % 8) i = true := by
  have h : ∀ m < 8, ∀ i < 3, maskBit (maskSet m i % 8) i = true := by decide
  exact h m hm i hi

theorem fenceCopy_fenced (hi : i < 3) : (s.fenceCopy i).fenced i = true := by
  have h := maskBit_maskSet (Fld.get_lt F.TSC_STATUS_FENCED (s.reg R.TSC_STATUS)) hi
  simpa [State.fenced, State.fenceCopy, State.g, Fld.get_put, Fld.get_put_ne] using h

theorem fenceCopy_duplex : (s.fenceCopy i).duplex = true := by
  simp [State.duplex, State.on, State.fenceCopy, State.g, Fld.get_put]

theorem fenceCopy_raw : (s.fenceCopy i).isSet R.TSC_RAW F.TSC_RAW_FENCE := by
  simp [State.isSet, State.fenceCopy, State.g, Fld.get_put]

end Sys2Proof.Machine
end

section

/-! ## The outcomes of a tick (R69, R84, R87 to R89) -/

set_option Elab.async false

namespace Sys2Proof.Machine

variable {A : Nat → Prop} {ps : List Part} {s t : State} {i : Nat} {e u v w : Copy}

/-- A running timescale with nothing injected, to reload or to rejoin. -/
structure Quiet (s : State) : Prop where
  out : s.inReset = false
  runs : s.runs .timescale = true
  inject : s.tsc.inject = none
  restore : s.tsc.restore = []
  rejoin : s.tsc.rejoin = []

/-- A running timescale in triplex whose copies agree with the voted one. -/
structure Triplex (s : State) : Prop extends Quiet s where
  mode : s.duplex = false
  c0 : s.tsc.c0 = s.tsc.voted
  c1 : s.tsc.c1 = s.tsc.voted
  c2 : s.tsc.c2 = s.tsc.voted

/-- A running timescale in duplex with copy 2 fenced, whose voters agree with the voted copy. -/
structure Duplex (s : State) : Prop extends Quiet s where
  mode : s.duplex = true
  fenced : s.g R.TSC_STATUS F.TSC_STATUS_FENCED = 4
  c0 : s.tsc.c0 = s.tsc.voted
  c1 : s.tsc.c1 = s.tsc.voted

/-- What a tick leaves whatever its vote is, the registers of `A` apart. -/
structure Ticked (A : Nat → Prop) (s t : State) : Prop where
  hld : t.hld = { s.hld with secOff := t.hld.secOff }
  changes : Changes A [.tsc, .hld, .syn] s t

theorem Quiet.answers {P : State → Prop} (Q : Quiet s) (A : Nat → Prop) {z : Bool → State}
    (hz : ∀ b, ((s.marked b).advanced u v w).vote s.expected = z b) (C : ∀ b, Changes A [.tsc, .hld, .syn] s (z b))
    (hP : ∀ b t, Shows (z b) t → Ticked A s t → P t) :
    Answers (exec (.timescaleTick u v w) s) P :=
  Answers.ofTick Q.out Q.runs Q.inject Q.restore Q.rejoin hz C fun b t S h k => hP b t S ⟨h, k⟩

section
variable (T : Triplex s)
include T

theorem Triplex.mode_advanced {b : Bool} : ((s.marked b).advanced u v w).duplex = false := T.mode

theorem Triplex.copy0 : (s.advanced u v w).tsc.c0 = s.expected ^^^ u := by
  unfold State.expected
  rw [← T.c0]
  rfl

theorem Triplex.copy1 : (s.advanced u v w).tsc.c1 = s.expected ^^^ v := by
  unfold State.expected
  rw [← T.c1]
  rfl

theorem Triplex.copy2 : (s.advanced u v w).tsc.c2 = s.expected ^^^ w := by
  unfold State.expected
  rw [← T.c2]
  rfl

end

theorem xor_ne {e u : Copy} (h : u ≠ 0) : e ^^^ u ≠ e := by
  intro k
  exact h ((BitVec.xor_right_inj e).1 (k.trans BitVec.xor_zero.symm))

theorem copies_of_voted {x : Tsc} (h0 : x.c0 = x.voted) (h1 : x.c1 = x.voted) (h2 : x.c2 = x.voted) (j : Fin 3) :
    x.copy j = x.voted := by
  fin_cases j
  · exact h0
  · exact h1
  · exact h2

/-- The copies agree (R84). -/
theorem Triplex.agrees (T : Triplex s) : Answers (exec (.timescaleTick 0 0 0) s) fun t =>
    t.tsc.voted = s.expected ∧ (∀ j : Fin 3, t.tsc.copy j = t.tsc.voted) ∧ t.tsc.tick = s.tsc.tick + 1 ∧
      t.tsc.newRate = none ∧ Ticked (· ∈ []) s t := by
  have h0 (x : Copy) : x ^^^ 0 = x := BitVec.xor_zero
  have k0 (b : Bool) : ((s.marked b).advanced 0 0 0).tsc.c0 = s.expected := T.copy0.trans (h0 _)
  have k1 (b : Bool) : ((s.marked b).advanced 0 0 0).tsc.c1 = s.expected := T.copy1.trans (h0 _)
  have k2 (b : Bool) : ((s.marked b).advanced 0 0 0).tsc.c2 = s.expected := T.copy2.trans (h0 _)
  refine T.answers (· ∈ []) (z := fun b => ((s.marked b).advanced 0 0 0).setVoted s.expected)
    (fun b => by rw [vote_same T.mode_advanced ((k0 b).trans (k1 b).symm) ((k1 b).trans (k2 b).symm), k0 b])
    (fun b => by simp) fun b t S C => ?_
  rw [S.tsc]
  exact ⟨rfl, copies_of_voted (k0 b) (k1 b) (k2 b), rfl, rfl, C⟩

/-- The state in which copy `i` is outvoted by the other two. -/
structure Outvotes (s : State) (i : Nat) (u v w : Copy) : Prop extends Triplex s where
  lt : i < 3
  others : ∀ j, j < 3 → j ≠ i → (s.advanced u v w).tsc.copy j = s.expected
  vote : ∀ b, ((s.marked b).advanced u v w).vote s.expected = (((s.marked b).advanced u v w).setVoted s.expected).disagree i

theorem Triplex.outvotes0 (T : Triplex s) (h : u ≠ 0) : Outvotes s 0 u 0 0 where
  toTriplex := T
  lt := by decide
  others j hj hn := by
    have h0 (x : Copy) : x ^^^ 0 = x := BitVec.xor_zero
    interval_cases j
    · exact absurd rfl hn
    · exact T.copy1.trans (h0 _)
    · exact T.copy2.trans (h0 _)
  vote b := by
    have h0 (x : Copy) : x ^^^ 0 = x := BitVec.xor_zero
    have k0 : ((s.marked b).advanced u 0 0).tsc.c0 = s.expected ^^^ u := T.copy0
    have k1 : ((s.marked b).advanced u 0 0).tsc.c1 = s.expected := T.copy1.trans (h0 _)
    have k2 : ((s.marked b).advanced u 0 0).tsc.c2 = s.expected := T.copy2.trans (h0 _)
    rw [vote_differs0 T.mode_advanced (by rw [k0, k1]; exact xor_ne h) (k1.trans k2.symm), k1]

theorem Triplex.outvotes1 (T : Triplex s) (h : v ≠ 0) : Outvotes s 1 0 v 0 where
  toTriplex := T
  lt := by decide
  others j hj hn := by
    have h0 (x : Copy) : x ^^^ 0 = x := BitVec.xor_zero
    interval_cases j
    · exact T.copy0.trans (h0 _)
    · exact absurd rfl hn
    · exact T.copy2.trans (h0 _)
  vote b := by
    have h0 (x : Copy) : x ^^^ 0 = x := BitVec.xor_zero
    have k0 : ((s.marked b).advanced 0 v 0).tsc.c0 = s.expected := T.copy0.trans (h0 _)
    have k1 : ((s.marked b).advanced 0 v 0).tsc.c1 = s.expected ^^^ v := T.copy1
    have k2 : ((s.marked b).advanced 0 v 0).tsc.c2 = s.expected := T.copy2.trans (h0 _)
    rw [vote_differs1 T.mode_advanced (by rw [k0, k1]; exact (xor_ne h).symm) (k0.trans k2.symm), k0]

theorem Triplex.outvotes2 (T : Triplex s) (h : w ≠ 0) : Outvotes s 2 0 0 w where
  toTriplex := T
  lt := by decide
  others j hj hn := by
    have h0 (x : Copy) : x ^^^ 0 = x := BitVec.xor_zero
    interval_cases j
    · exact T.copy0.trans (h0 _)
    · exact T.copy1.trans (h0 _)
    · exact absurd rfl hn
  vote b := by
    have h0 (x : Copy) : x ^^^ 0 = x := BitVec.xor_zero
    have k0 : ((s.marked b).advanced 0 0 w).tsc.c0 = s.expected := T.copy0.trans (h0 _)
    have k1 : ((s.marked b).advanced 0 0 w).tsc.c1 = s.expected := T.copy1.trans (h0 _)
    have k2 : ((s.marked b).advanced 0 0 w).tsc.c2 = s.expected ^^^ w := T.copy2
    rw [vote_differs2 T.mode_advanced (k0.trans k1.symm) (by rw [k1, k2]; exact (xor_ne h).symm), k0]

/-- The outvoted copy is reloaded: the copies agree. -/
theorem outvoted_copies (hi : i < 3) (h : ∀ j, j < 3 → j ≠ i → s.tsc.copy j = s.tsc.voted) (j : Fin 3) :
    (s.outvoted i).tsc.copy j = (s.outvoted i).tsc.voted := by
  rw [outvoted_tsc, Tsc.copy_setHist, Tsc.copy_setCopy hi j.isLt, Tsc.setHist_voted, Tsc.setCopy_voted]
  split
  · rfl
  · next hn => exact h j j.isLt hn

/-- A copy is outvoted, reloaded and counted (R84). -/
theorem Outvotes.answers_quiet (O : Outvotes s i u v w) (hq : (s.tsc.hist i).seen < 2) :
    Answers (exec (.timescaleTick u v w) s) fun t =>
      (∀ j : Fin 3, t.tsc.copy j = t.tsc.voted) ∧
      t.g R.TSC_DISAGREE_CNT (countFld i) = min (s.g R.TSC_DISAGREE_CNT (countFld i) + 1) 255 ∧
      t.isSet R.TSC_RAW F.TSC_RAW_DISAGREE ∧ Ticked (· ∈ [R.TSC_DISAGREE_CNT]) s t := by
  refine O.answers (· ∈ [R.TSC_DISAGREE_CNT]) (z := fun b => (((s.marked b).advanced u v w).setVoted s.expected).outvoted i)
    (fun b => (O.vote b).trans (disagree_quiet hq)) (fun b => by simp) fun b t S C => ?_
  have hc (j : Nat) (hj : j < 3) (hn : j ≠ i) : (((s.marked b).advanced u v w).setVoted s.expected).tsc.copy j =
      (((s.marked b).advanced u v w).setVoted s.expected).tsc.voted := O.others j hj hn
  have hg : (((s.marked b).advanced u v w).setVoted s.expected).g R.TSC_DISAGREE_CNT (countFld i) =
      s.g R.TSC_DISAGREE_CNT (countFld i) := by simp [State.g]
  generalize ((s.marked b).advanced u v w).setVoted s.expected = z at *
  refine ⟨fun j => ?_, ?_, ?_, C⟩
  · rw [S.tsc]
    exact outvoted_copies O.lt hc j
  · rw [S.g (by decide), ← hg]
    exact outvoted_count O.lt
  · exact S.isSet _ _ (by decide) (by decide) rfl outvoted_raw

@[simp] theorem Tsc.setCopy_lastFault {x : Tsc} {c : Copy} : (x.setCopy i c).lastFault = x.lastFault := by
  unfold Tsc.setCopy
  split
  · rfl
  · split <;> rfl

@[simp] theorem Tsc.setHist_lastFault {x : Tsc} {h : Hist} : (x.setHist i h).lastFault = x.lastFault := by
  unfold Tsc.setHist
  split
  · rfl
  · split <;> rfl

/-- A fault code of Tripod that has not been queued is (R90). -/
theorem tscFault_queues {c d p : Nat} (h : Tbl.get none s.tsc.lastFault c = none) (hf : s.hif.fq.length < 32) :
    ∃ f ∈ (s.tscFault c d p).hif.fq, f.block = 2 ∧ f.code = c ∧ f.detail = d % 2 ^ 16 := by
  unfold State.tscFault
  simp only [h, if_true]
  exact ⟨_, State.mem_fq_fault hf, rfl, rfl, rfl⟩

theorem reg_fencedAt {a d m : Nat} (h : a ≠ R.HIF_FQ_STATUS) (h' : a ≠ R.HIF_RAW) :
    (s.fencedAt i d m).reg a = (s.fenceCopy i).reg a := by
  unfold State.fencedAt
  simp [h, h']

theorem fencedAt_queues {d m : Nat} (hi : i < 3) (h : Tbl.get none s.tsc.lastFault 1 = none) (hf : s.hif.fq.length < 32) :
    ∃ f ∈ ((s.outvoted i).fencedAt i d m).hif.fq, f.block = 2 ∧ f.code = 1 ∧ f.detail = i := by
  have hh : ((s.outvoted i).fenceCopy i).hif = s.hif := by simp [State.outvoted, State.fenceCopy, State.tripod]
  have ht : ((s.outvoted i).fenceCopy i).tsc.lastFault = s.tsc.lastFault := by simp [State.fenceCopy]
  obtain ⟨f, hm, h1, h2, h3⟩ := tscFault_queues (s := (s.outvoted i).fenceCopy i) (c := 1) (d := i) (p := d)
    (by rw [ht, h]) (by rw [hh]; exact hf)
  refine ⟨f, ?_, h1, h2, h3.trans (Nat.mod_eq_of_lt (by omega))⟩
  unfold State.fencedAt State.tripod
  rwa [State.note_hif]

/-- A copy that is outvoted for the second time in a second of ticks is fenced (R88). -/
theorem Outvotes.answers_fences (O : Outvotes s i u v w) (hq : (s.tsc.hist i).seen = 2)
    (ht : s.tsc.tick + 1 - (s.tsc.hist i).last2 < 500000000) (hl : Tbl.get none s.tsc.lastFault 1 = none)
    (hf : s.hif.fq.length < 32) : Answers (exec (.timescaleTick u v w) s) fun t =>
      t.fenced i = true ∧ t.duplex = true ∧ t.isSet R.TSC_RAW F.TSC_RAW_FENCE ∧
      (∃ f ∈ t.hif.fq, f.block = 2 ∧ f.code = 1 ∧ f.detail = i) ∧
      Ticked (· ∈ [R.TSC_STATUS, R.TSC_DISAGREE_CNT]) s t := by
  have hd (b : Bool) := disagree_fences (s := ((s.marked b).advanced u v w).setVoted s.expected) (i := i) hq ht
  choose d m hd using hd
  refine O.answers (· ∈ [R.TSC_STATUS, R.TSC_DISAGREE_CNT])
    (z := fun b => ((((s.marked b).advanced u v w).setVoted s.expected).outvoted i).fencedAt i (d b) (m b))
    (fun b => (O.vote b).trans (hd b)) (fun b => by simp) fun b t S C => ?_
  have hl' : Tbl.get none (((s.marked b).advanced u v w).setVoted s.expected).tsc.lastFault 1 = none := hl
  have hf' : (((s.marked b).advanced u v w).setVoted s.expected).hif.fq.length < 32 := hf
  generalize ((s.marked b).advanced u v w).setVoted s.expected = z at *
  have hs (f : Fld) : t.g R.TSC_STATUS f = ((z.outvoted i).fenceCopy i).g R.TSC_STATUS f := by
    rw [S.g (by decide)]
    exact congrArg f.get (reg_fencedAt (by decide) (by decide))
  refine ⟨?_, ?_, S.isSet _ _ (by decide) (by decide) rfl ?_, S.queued (fencedAt_queues O.lt hl' hf'), C⟩
  · unfold State.fenced
    rw [hs]
    exact fenceCopy_fenced O.lt
  · unfold State.duplex State.on
    rw [hs]
    exact fenceCopy_duplex
  · exact (congrArg F.TSC_RAW_FENCE.get (reg_fencedAt (by decide) (by decide))).trans fenceCopy_raw

/-! ### No majority, and a mismatch of two (R84, R89) -/

theorem tscFault_tsc {c d p : Nat} : ∃ f, (s.tscFault c d p).tsc = { s.tsc with lastFault := f } := by
  unfold State.tscFault
  extract_lets q
  split
  · exact ⟨_, State.fault_tsc.trans rfl⟩
  · exact ⟨s.tsc.lastFault, rfl⟩

theorem noMajority_tsc {l : List Nat} : ∃ f, (s.noMajority l e).tsc =
    { l.foldl (fun t i => t.setCopy i e) { s.tsc with voted := e } with lastFault := f } := by
  unfold State.noMajority
  extract_lets m x loaded noted
  have hn : noted.tsc = l.foldl (fun t i => t.setCopy i e) { s.tsc with voted := e } :=
    State.p_tsc.trans (State.raw_tsc.trans rfl)
  obtain ⟨f, k⟩ := tscFault_tsc (s := noted) (c := 3) (d := b2n noted.duplex) (p := m)
  exact ⟨f, by rw [State.tripod_tsc, k, hn]⟩

theorem reg_noMajority {l : List Nat} {a : Nat} (h : a ≠ R.HIF_FQ_STATUS) (h' : a ≠ R.HIF_RAW) : (s.noMajority l e).reg a =
    ((s.raw R.TSC_RAW F.TSC_RAW_NO_MAJORITY).p R.TSC_STATUS F.TSC_STATUS_SUSPECT 1).reg a := by
  unfold State.noMajority
  simp [h, h']

theorem noMajority_suspect {l : List Nat} : (s.noMajority l e).g R.TSC_STATUS F.TSC_STATUS_SUSPECT = 1 :=
  (congrArg F.TSC_STATUS_SUSPECT.get (reg_noMajority (by decide) (by decide))).trans (by simp [Fld.get_put])

theorem noMajority_raw {l : List Nat} : (s.noMajority l e).isSet R.TSC_RAW F.TSC_RAW_NO_MAJORITY :=
  (congrArg F.TSC_RAW_NO_MAJORITY.get (reg_noMajority (by decide) (by decide))).trans (by simp [Fld.get_put])

theorem mismatch_tsc : ∃ f, (s.mismatch i).tsc = { s.tsc.setCopy i s.tsc.voted with lastFault := f } := by
  unfold State.mismatch
  extract_lets m loaded noted
  have hn : noted.tsc = s.tsc.setCopy i s.tsc.voted := State.raw_tsc.trans (State.inc_tsc.trans rfl)
  obtain ⟨f, k⟩ := tscFault_tsc (s := noted) (c := 2) (d := i) (p := m)
  exact ⟨f, by rw [State.tripod_tsc, k, hn]⟩

theorem reg_mismatch {a : Nat} (h : a ≠ R.HIF_FQ_STATUS) (h' : a ≠ R.HIF_RAW) : (s.mismatch i).reg a =
    ((s.inc R.TSC_DISAGREE_CNT F.TSC_DISAGREE_CNT_DUPLEX).raw R.TSC_RAW F.TSC_RAW_DUPLEX_MISMATCH).reg a := by
  unfold State.mismatch
  simp [h, h']

theorem mismatch_count : (s.mismatch i).g R.TSC_DISAGREE_CNT F.TSC_DISAGREE_CNT_DUPLEX =
    min (s.g R.TSC_DISAGREE_CNT F.TSC_DISAGREE_CNT_DUPLEX + 1) 255 :=
  (congrArg F.TSC_DISAGREE_CNT_DUPLEX.get (reg_mismatch (by decide) (by decide))).trans (by simp [Fld.get_put, State.g])

theorem mismatch_raw : (s.mismatch i).isSet R.TSC_RAW F.TSC_RAW_DUPLEX_MISMATCH :=
  (congrArg F.TSC_RAW_DUPLEX_MISMATCH.get (reg_mismatch (by decide) (by decide))).trans (by simp [Fld.get_put])

/-- Two copies are upset differently: no majority, and all are reloaded from the expected copy (R84, R89). -/
theorem Triplex.apart (T : Triplex s) (hu : u ≠ 0) (hv : v ≠ 0) (hn : u ≠ v) :
    Answers (exec (.timescaleTick u v 0) s) fun t =>
      t.tsc.voted = s.expected ∧ (∀ j : Fin 3, t.tsc.copy j = t.tsc.voted) ∧ t.isSet R.TSC_RAW F.TSC_RAW_NO_MAJORITY ∧
      t.g R.TSC_STATUS F.TSC_STATUS_SUSPECT = 1 ∧ Ticked (· ∈ [R.TSC_STATUS]) s t := by
  have h0 (x : Copy) : x ^^^ 0 = x := BitVec.xor_zero
  have k0 (b : Bool) : ((s.marked b).advanced u v 0).tsc.c0 = s.expected ^^^ u := T.copy0
  have k1 (b : Bool) : ((s.marked b).advanced u v 0).tsc.c1 = s.expected ^^^ v := T.copy1
  have k2 (b : Bool) : ((s.marked b).advanced u v 0).tsc.c2 = s.expected := T.copy2.trans (h0 _)
  refine T.answers (· ∈ [R.TSC_STATUS]) (z := fun b => ((s.marked b).advanced u v 0).noMajority [0, 1, 2] s.expected)
    (fun b => vote_apart T.mode_advanced ?_ ?_ ?_) (fun b => by simp) fun b t S C => ?_
  · rw [k0, k1]
    exact fun k => hn ((BitVec.xor_right_inj _).1 k)
  · rw [k0, k2]
    exact xor_ne hu
  · rw [k1, k2]
    exact xor_ne hv
  · generalize ((s.marked b).advanced u v 0) = x at S
    obtain ⟨f, k⟩ := noMajority_tsc (s := x) (l := [0, 1, 2]) (e := s.expected)
    rw [S.tsc, k]
    refine ⟨rfl, copies_of_voted rfl rfl rfl, S.isSet _ _ (by decide) (by decide) rfl noMajority_raw, ?_, C⟩
    rw [S.g (by decide)]
    exact noMajority_suspect

/-! ### Duplex (R89) -/

section
variable (D : Duplex s)
include D

theorem Duplex.mode_advanced {b : Bool} : ((s.marked b).advanced u v w).duplex = true := D.mode

theorem Duplex.fenced_advanced {b : Bool} : ((s.marked b).advanced u v w).g R.TSC_STATUS F.TSC_STATUS_FENCED = 4 := D.fenced

theorem Duplex.copy0 {b : Bool} : ((s.marked b).advanced u v w).tsc.c0 = s.expected ^^^ u := by
  unfold State.expected
  rw [← D.c0]
  rfl

theorem Duplex.copy1 {b : Bool} : ((s.marked b).advanced u v w).tsc.c1 = s.expected ^^^ v := by
  unfold State.expected
  rw [← D.c1]
  rfl

/-- The two copies agree. -/
theorem Duplex.agrees : Answers (exec (.timescaleTick u u 0) s) fun t =>
    t.tsc.c0 = t.tsc.voted ∧ t.tsc.c1 = t.tsc.voted ∧ t.tsc.voted = s.expected ^^^ u ∧ Ticked (· ∈ []) s t := by
  refine D.answers (· ∈ []) (z := fun b => ((s.marked b).advanced u u 0).setVoted ((s.marked b).advanced u u 0).tsc.c0)
    (fun b => duplex_same D.fenced_advanced D.mode_advanced (D.copy0.trans D.copy1.symm)) (fun b => by simp) fun b t S C => ?_
  have k0 : ((s.marked b).advanced u u 0).tsc.c0 = s.expected ^^^ u := D.copy0
  have k1 : ((s.marked b).advanced u u 0).tsc.c1 = s.expected ^^^ u := D.copy1
  rw [S.tsc]
  exact ⟨rfl, k1.trans k0.symm, k0, C⟩

/-- Copy 0 alone is upset. -/
theorem Duplex.mismatch0 (hu : u ≠ 0) : Answers (exec (.timescaleTick u 0 0) s) fun t =>
    t.tsc.voted = s.expected ∧ t.tsc.c0 = t.tsc.voted ∧ t.tsc.c1 = t.tsc.voted ∧
    t.g R.TSC_DISAGREE_CNT F.TSC_DISAGREE_CNT_DUPLEX = min (s.g R.TSC_DISAGREE_CNT F.TSC_DISAGREE_CNT_DUPLEX + 1) 255 ∧
    t.isSet R.TSC_RAW F.TSC_RAW_DUPLEX_MISMATCH ∧ Ticked (· ∈ [R.TSC_DISAGREE_CNT]) s t := by
  have h0 (x : Copy) : x ^^^ 0 = x := BitVec.xor_zero
  have k1 (b : Bool) : ((s.marked b).advanced u 0 0).tsc.c1 = s.expected := D.copy1.trans (h0 _)
  refine D.answers (· ∈ [R.TSC_DISAGREE_CNT]) (z := fun b => (((s.marked b).advanced u 0 0).setVoted s.expected).mismatch 0)
    (fun b => ?_) (fun b => by simp) fun b t S C => ?_
  · rw [duplex_differs0 D.fenced_advanced D.mode_advanced (by rw [D.copy0, k1]; exact xor_ne hu) (k1 b), k1]
  · have hc : (((s.marked b).advanced u 0 0).setVoted s.expected).tsc.c1 = s.expected := k1 b
    have hv : (((s.marked b).advanced u 0 0).setVoted s.expected).tsc.voted = s.expected := rfl
    have hg : (((s.marked b).advanced u 0 0).setVoted s.expected).g R.TSC_DISAGREE_CNT F.TSC_DISAGREE_CNT_DUPLEX =
      s.g R.TSC_DISAGREE_CNT F.TSC_DISAGREE_CNT_DUPLEX := by simp [State.g]
    generalize ((s.marked b).advanced u 0 0).setVoted s.expected = x at *
    obtain ⟨f, k⟩ := mismatch_tsc (s := x) (i := 0)
    rw [S.tsc, k]
    refine ⟨hv, rfl, hc.trans hv.symm, ?_, S.isSet _ _ (by decide) (by decide) rfl mismatch_raw, C⟩
    rw [S.g (by decide), ← hg]
    exact mismatch_count

/-- Copy 1 alone is upset. -/
theorem Duplex.mismatch1 (hv : v ≠ 0) : Answers (exec (.timescaleTick 0 v 0) s) fun t =>
    t.tsc.voted = s.expected ∧ t.tsc.c0 = t.tsc.voted ∧ t.tsc.c1 = t.tsc.voted ∧
    t.g R.TSC_DISAGREE_CNT F.TSC_DISAGREE_CNT_DUPLEX = min (s.g R.TSC_DISAGREE_CNT F.TSC_DISAGREE_CNT_DUPLEX + 1) 255 ∧
    t.isSet R.TSC_RAW F.TSC_RAW_DUPLEX_MISMATCH ∧ Ticked (· ∈ [R.TSC_DISAGREE_CNT]) s t := by
  have h0 (x : Copy) : x ^^^ 0 = x := BitVec.xor_zero
  have k0 (b : Bool) : ((s.marked b).advanced 0 v 0).tsc.c0 = s.expected := D.copy0.trans (h0 _)
  refine D.answers (· ∈ [R.TSC_DISAGREE_CNT]) (z := fun b => (((s.marked b).advanced 0 v 0).setVoted s.expected).mismatch 1)
    (fun b => ?_) (fun b => by simp) fun b t S C => ?_
  · rw [duplex_differs1 D.fenced_advanced D.mode_advanced (by rw [D.copy1, k0]; exact (xor_ne hv).symm) (k0 b), k0]
  · have hc : (((s.marked b).advanced 0 v 0).setVoted s.expected).tsc.c0 = s.expected := k0 b
    have hv : (((s.marked b).advanced 0 v 0).setVoted s.expected).tsc.voted = s.expected := rfl
    have hg : (((s.marked b).advanced 0 v 0).setVoted s.expected).g R.TSC_DISAGREE_CNT F.TSC_DISAGREE_CNT_DUPLEX =
      s.g R.TSC_DISAGREE_CNT F.TSC_DISAGREE_CNT_DUPLEX := by simp [State.g]
    generalize ((s.marked b).advanced 0 v 0).setVoted s.expected = x at *
    obtain ⟨f, k⟩ := mismatch_tsc (s := x) (i := 1)
    rw [S.tsc, k]
    refine ⟨hv, hc.trans hv.symm, rfl, ?_, S.isSet _ _ (by decide) (by decide) rfl mismatch_raw, C⟩
    rw [S.g (by decide), ← hg]
    exact mismatch_count

/-- Both copies are upset, differently: neither is the expected copy. -/
theorem Duplex.apart (hu : u ≠ 0) (hv : v ≠ 0) (hn : u ≠ v) : Answers (exec (.timescaleTick u v 0) s) fun t =>
    t.tsc.voted = s.expected ∧ t.tsc.c0 = t.tsc.voted ∧ t.tsc.c1 = t.tsc.voted ∧
    t.g R.TSC_STATUS F.TSC_STATUS_SUSPECT = 1 ∧ Ticked (· ∈ [R.TSC_STATUS]) s t := by
  refine D.answers (· ∈ [R.TSC_STATUS]) (z := fun b => ((s.marked b).advanced u v 0).noMajority [0, 1] s.expected)
    (fun b => duplex_apart D.fenced_advanced D.mode_advanced ?_ ?_ ?_) (fun b => by simp) fun b t S C => ?_
  · rw [D.copy0, D.copy1]
    exact fun k => hn ((BitVec.xor_right_inj _).1 k)
  · rw [D.copy0]
    exact xor_ne hu
  · rw [D.copy1]
    exact xor_ne hv
  · generalize ((s.marked b).advanced u v 0) = x at S
    obtain ⟨f, k⟩ := noMajority_tsc (s := x) (l := [0, 1]) (e := s.expected)
    rw [S.tsc, k]
    refine ⟨rfl, rfl, rfl, ?_, C⟩
    rw [S.g (by decide)]
    exact noMajority_suspect

end

/-! ### Any tick -/

/-- The copies reloaded on a tick (R92). -/
def Tsc.reload (x : Tsc) (l : List Nat) : Tsc := l.foldl (fun t i => (t.setCopy i t.voted).setHist i ⟨0, 0, 0⟩) x

theorem reloadCopies_tsc : s.reloadCopies.tsc = { s.tsc.reload s.tsc.restore with restore := [], rejoin := s.tsc.restore } := by
  have h (l : List Nat) (t : State) : (l.foldl (fun s i => s.tripod 4 i 0 0) t).tsc = t.tsc := by
    induction l generalizing t with
    | nil => rfl
    | cons i r ih => exact (ih _).trans State.tripod_tsc
  exact h _ _

theorem rejoinCopies_tsc : ∃ l, s.rejoinCopies.tsc = { s.tsc with rejoin := l } := by
  unfold State.rejoinCopies
  split
  · exact ⟨s.tsc.rejoin, rfl⟩
  · refine ⟨[], ?_⟩
    have h (l : List Nat) (t : State) : (l.foldl (fun s i => s.p R.TSC_STATUS F.TSC_STATUS_FENCED
        (maskClr (s.g R.TSC_STATUS F.TSC_STATUS_FENCED) i)) t).tsc = t.tsc := by
      induction l generalizing t with
      | nil => rfl
      | cons i r ih => exact (ih _).trans State.p_tsc
    have k := h s.tsc.rejoin s
    generalize s.tsc.rejoin.foldl _ s = x at k
    have e : (x.p R.TSC_STATUS F.TSC_STATUS_MODE 0).tsc = s.tsc := State.p_tsc.trans k
    exact congrArg (fun y : Tsc => { y with rejoin := [] }) e

/-- The time core after a tick: apart from the copies and their vote, what the tick does to the requests that wait (R71, R77,
R92). -/
theorem tick_core (hr : s.runs .timescale = true) : ∃ x : Tsc, ∃ l, { (s.advanced u v w).tsc with rejoin := l }.SameCore x ∧
    (s.tick u v w).tsc = { x.reload x.restore with restore := [], rejoin := x.restore } := by
  have hf : ∃ x : Tsc, ∃ l, { (s.advanced u v w).tsc with rejoin := l }.SameCore x ∧
      (s.steerTick.formTick 1 cTick (cCarries s.tsc.voted) u v w).tsc =
        { x.reload x.restore with restore := [], rejoin := x.restore } := by
    obtain ⟨b, e⟩ := steerTick_eq (s := s)
    rw [e]
    unfold State.formTick
    extract_lets x hld syn adv flip e advanced
    obtain ⟨l, k⟩ := rejoinCopies_tsc (s := advanced)
    refine ⟨_, l, ?_, reloadCopies_tsc⟩
    apply Tsc.SameCore.vote
    rw [k]
    exact rfl
  obtain ⟨x, l, hx, k⟩ := hf
  obtain ⟨y, o, h⟩ := OutputsOnly.outputsTick (s := s.steerTick.formTick 1 cTick (cCarries s.tsc.voted) u v w)
    (inc := cInc s.tsc.voted) (n := 1) (gap := false)
  refine ⟨x, l, hx, ?_⟩
  rw [tick_running hr, h]
  exact k

theorem Tsc.SameCore.reload {x y : Tsc} {l : List Nat} (h : x.SameCore y) : x.SameCore (y.reload l) :=
  fold (fun _ _ k => k.setCopy.setHist) h l

/-- What every tick of a running timescale does to the requests that wait for it. -/
theorem tick_requests (hr : s.runs .timescale = true) : (s.tick u v w).tsc.tick = s.tsc.tick + 1 ∧
    (s.tick u v w).tsc.newRate = none ∧ (s.tick u v w).tsc.intern = [] ∧ (s.tick u v w).tsc.due = s.tsc.due ++ s.tsc.intern ∧
    (s.tick u v w).tsc.hostRipe = s.tsc.host.isSome ∧ (s.tick u v w).tsc.restore = [] := by
  obtain ⟨x, l, hx, k⟩ := tick_core (u := u) (v := v) (w := w) hr
  have hy : { (s.advanced u v w).tsc with rejoin := l }.SameCore (x.reload x.restore) := hx.reload
  unfold Tsc.SameCore at hy
  rw [k, hy]
  exact ⟨rfl, rfl, rfl, rfl, rfl, rfl⟩

/-- Settles O56. -/
theorem tickAndFencing : Obligations.TickAndFencing := by
  have ht (s : State) (hn : s.tsc.newRate = none) : s.expected = cTick s.tsc.voted := by
    unfold State.expected
    rw [hn]
    rfl
  refine ⟨?_, ?_, ?_, ?_, ?_, ?_, ?_, ?_, ?_, ?_, ?_, ?_, ?_, ?_, ?_⟩
  · intro s hs hr hi hl hj hd h0 h1 h2 hn hb hc
    have T : Triplex s := ⟨⟨hs, hr, hi, hl, hj⟩, hd, h0, h1, h2⟩
    obtain ⟨t, e, hv, hcop, htk, -, C⟩ := T.agrees
    refine ⟨t, e, C.hld, ?_, ?_, hcop, htk, C.changes.sameBut, C.changes.parts⟩
    · rw [hv, ht s hn, cTick_time hb hc]
    · rw [hv, ht s hn, cInc_cTick]
  · intro s r hs hr hi hl hj hd h0 h1 h2 hn hb hc
    have T : Triplex s := ⟨⟨hs, hr, hi, hl, hj⟩, hd, h0, h1, h2⟩
    obtain ⟨t, e, hv, hcop, -, hrate, C⟩ := T.agrees
    refine ⟨t, e, C.hld, ?_, hcop, hrate, C.changes.sameBut, C.changes.parts⟩
    rw [hv, State.expected, hn]
    exact cInc_cRate hb hc
  · intro s u hs hr hi hl hj hd h0 h1 h2 hu hq
    have T : Triplex s := ⟨⟨hs, hr, hi, hl, hj⟩, hd, h0, h1, h2⟩
    obtain ⟨t, e, hcop, hg, hset, C⟩ := (T.outvotes1 hu).answers_quiet hq
    exact ⟨t, e, C.hld, hcop, hg, hset, C.changes.sameBut, C.changes.parts⟩
  · intro s u v w hs hr
    have hk : s.tick u v w = s := if_neg (by rw [hr]; decide)
    rw [exec_timescaleTick, hk]
    exact Answers.ofChanges (A := (· ∈ [])) hs .refl fun u L C => ⟨C.sameBut, C.parts⟩
  · intro s u v w hs hr
    obtain ⟨h1, h2, h3, h4, h5, h6⟩ := tick_requests (u := u) (v := v) (w := w) hr
    obtain ⟨hh, hi, hb, hp⟩ := tick_frame (u := u) (v := v) (w := w) hr
    rw [exec_timescaleTick]
    refine Answers.ofDone hs fun t L => ?_
    rw [L.tsc, L.hld]
    exact ⟨h1, hh, h2, hi, h3, h4, h5, h6, sameBut_of_logs hb L, sameParts_of_logs hp L⟩
  · intro s u hs hr hi hl hj hd h0 h1 h2 hu hq
    have T : Triplex s := ⟨⟨hs, hr, hi, hl, hj⟩, hd, h0, h1, h2⟩
    obtain ⟨t, e, hcop, hg, hset, C⟩ := (T.outvotes0 hu).answers_quiet hq
    exact ⟨t, e, C.hld, hcop, hg, hset, C.changes.sameBut, C.changes.parts⟩
  · intro s u hs hr hi hl hj hd h0 h1 h2 hu hq
    have T : Triplex s := ⟨⟨hs, hr, hi, hl, hj⟩, hd, h0, h1, h2⟩
    obtain ⟨t, e, hcop, hg, hset, C⟩ := (T.outvotes2 hu).answers_quiet hq
    exact ⟨t, e, C.hld, hcop, hg, hset, C.changes.sameBut, C.changes.parts⟩
  · intro s u v hs hr hi hl hj hd h0 h1 h2 hn hb hc hu hv huv
    have T : Triplex s := ⟨⟨hs, hr, hi, hl, hj⟩, hd, h0, h1, h2⟩
    obtain ⟨t, e, hvo, hcop, hset, hsus, C⟩ := T.apart hu hv huv
    refine ⟨t, e, C.hld, ?_, hcop, hset, hsus, C.changes.sameBut, C.changes.parts⟩
    rw [hvo, ht s hn, cTick_time hb hc]
  · intro s u v hs hr hi hl hj h0 h1 hd hf hn hb hc huv
    have D : Duplex s := ⟨⟨hs, hr, hi, hl, hj⟩, hd, hf, h0, h1⟩
    rw [← huv]
    obtain ⟨t, e, k0, k1, hv, C⟩ := D.agrees (u := u)
    refine ⟨t, e, C.hld, k0, k1, fun hu => ?_, C.changes.sameBut, C.changes.parts⟩
    have hx : s.expected ^^^ u = s.expected := by
      rw [hu]
      exact BitVec.xor_zero
    rw [hv, hx, ht s hn, cTick_time hb hc]
  · intro s u hs hr hi hl hj h0 h1 hd hf hn hb hc hu
    have D : Duplex s := ⟨⟨hs, hr, hi, hl, hj⟩, hd, hf, h0, h1⟩
    obtain ⟨t, e, hv, k0, k1, hg, hset, C⟩ := D.mismatch0 hu
    refine ⟨t, e, C.hld, ?_, k0, k1, hg, hset, C.changes.sameBut, C.changes.parts⟩
    rw [hv, ht s hn, cTick_time hb hc]
  · intro s u hs hr hi hl hj h0 h1 hd hf hn hb hc hu
    have D : Duplex s := ⟨⟨hs, hr, hi, hl, hj⟩, hd, hf, h0, h1⟩
    obtain ⟨t, e, hv, k0, k1, hg, hset, C⟩ := D.mismatch1 hu
    refine ⟨t, e, C.hld, ?_, k0, k1, hg, hset, C.changes.sameBut, C.changes.parts⟩
    rw [hv, ht s hn, cTick_time hb hc]
  · intro s u v hs hr hi hl hj h0 h1 hd hf hn hb hc hu hv huv
    have D : Duplex s := ⟨⟨hs, hr, hi, hl, hj⟩, hd, hf, h0, h1⟩
    obtain ⟨t, e, hvo, k0, k1, hg, C⟩ := D.apart hu hv huv
    refine ⟨t, e, C.hld, ?_, k0, k1, hg, C.changes.sameBut, C.changes.parts⟩
    rw [hvo, ht s hn, cTick_time hb hc]
  · intro s u hs hr hi hl hj hd h0 h1 h2 hu hq ht hlf hfq
    have T : Triplex s := ⟨⟨hs, hr, hi, hl, hj⟩, hd, h0, h1, h2⟩
    obtain ⟨t, e, hfe, hdu, hset, hfa, C⟩ := (T.outvotes1 hu).answers_fences hq ht hlf hfq
    exact ⟨t, e, C.hld, hfe, hdu, hset, hfa, C.changes.sameBut, C.changes.parts⟩
  · intro s u hs hr hi hl hj hd h0 h1 h2 hu hq ht hlf hfq
    have T : Triplex s := ⟨⟨hs, hr, hi, hl, hj⟩, hd, h0, h1, h2⟩
    obtain ⟨t, e, hfe, hdu, hset, hfa, C⟩ := (T.outvotes0 hu).answers_fences hq ht hlf hfq
    exact ⟨t, e, C.hld, hfe, hdu, hset, hfa, C.changes.sameBut, C.changes.parts⟩
  · intro s u hs hr hi hl hj hd h0 h1 h2 hu hq ht hlf hfq
    have T : Triplex s := ⟨⟨hs, hr, hi, hl, hj⟩, hd, h0, h1, h2⟩
    obtain ⟨t, e, hfe, hdu, hset, hfa, C⟩ := (T.outvotes2 hu).answers_fences hq ht hlf hfq
    exact ⟨t, e, C.hld, hfe, hdu, hset, hfa, C.changes.sameBut, C.changes.parts⟩

end Sys2Proof.Machine
end

section

/-! ## The Tripod controls (R91, R92) -/

set_option Elab.async false

namespace Sys2Proof.Machine

variable {A : Nat → Prop} {ps : List Part} {s t : State} {i : Nat} {e u w : Copy} {v : Word}

theorem act_tripodCtrl {old : Word} : s.act R.TSC_TRIPOD_CTRL old v = s.tripodCtrlAct v := by
  unfold State.act State.actTsc
  rfl

theorem restoreCopies_zero : s.restoreCopies 0 = s := by
  have h : maskBits 0 3 = [] := by decide
  unfold State.restoreCopies
  simp only [h, List.filter_nil, List.append_nil]
  rfl

theorem fenceCopies_zero : s.fenceCopies 0 = s := by
  have h : maskBits 0 3 = [] := by decide
  unfold State.fenceCopies
  rw [h]
  rfl

/-- The bit of one copy in a mask of three. -/
theorem maskBits_one (c : Fin 3) : maskBits (maskSet 0 c % 2 ^ 3) 3 = [c.val] := by
  have h : ∀ c : Fin 3, maskBits (maskSet 0 c % 2 ^ 3) 3 = [c.val] := by decide
  exact h c

theorem restoreCopies_one {c : Fin 3} (hf : s.fenced c = true) (hr : c.val ∉ s.tsc.restore) (hj : c.val ∉ s.tsc.rejoin) :
    s.restoreCopies (maskSet 0 c % 2 ^ 3) = s.setTsc { s.tsc with restore := s.tsc.restore ++ [c.val] } := by
  unfold State.restoreCopies
  rw [maskBits_one]
  simp [hf, hr, hj]

theorem fenceCopies_one {c : Fin 3} (hd : s.duplex = false) :
    s.fenceCopies (maskSet 0 c % 2 ^ 3) = (s.fenceCopy c).tripod 5 c 0 0 := by
  unfold State.fenceCopies
  rw [maskBits_one, List.foldl_cons, List.foldl_nil, hd]
  rfl

/-- What a write with one of the three fields does. -/
theorem tripodCtrlAct_clear (hr : F.TSC_TRIPOD_CTRL_RESTORE.get v = 0) (hf : F.TSC_TRIPOD_CTRL_FENCE.get v = 0) :
    s.tripodCtrlAct (F.TSC_TRIPOD_CTRL_CLR_SUSPECT.put v 1) = s.clearSuspect := by
  simp [State.tripodCtrlAct, Fld.get_put, Fld.get_put_ne, hr, hf, restoreCopies_zero, fenceCopies_zero]

theorem tripodCtrlAct_restore {n : Nat} (hf : F.TSC_TRIPOD_CTRL_FENCE.get v = 0)
    (hc : F.TSC_TRIPOD_CTRL_CLR_SUSPECT.get v = 0) :
    s.tripodCtrlAct (F.TSC_TRIPOD_CTRL_RESTORE.put v n) = s.restoreCopies (n % 2 ^ 3) := by
  simp [State.tripodCtrlAct, Fld.get_put, Fld.get_put_ne, hf, hc, fenceCopies_zero]

theorem tripodCtrlAct_fence {n : Nat} (hr : F.TSC_TRIPOD_CTRL_RESTORE.get v = 0)
    (hc : F.TSC_TRIPOD_CTRL_CLR_SUSPECT.get v = 0) :
    s.tripodCtrlAct (F.TSC_TRIPOD_CTRL_FENCE.put v n) = s.fenceCopies (n % 2 ^ 3) := by
  simp [State.tripodCtrlAct, Fld.get_put, Fld.get_put_ne, hr, hc, restoreCopies_zero]

/-! ### The tick that reloads a copy -/

/-- A tick on which copy `c` alone is to be reloaded. -/
theorem tick_reloads {c : Nat} (hr : s.runs .timescale = true) (hc : c < 3) (hl : s.tsc.restore = [c]) :
    (s.tick u w e).tsc.copy c = (s.tick u w e).tsc.voted ∧ (s.tick u w e).tsc.rejoin = [c] ∧ (s.tick u w e).tsc.restore = [] := by
  obtain ⟨x, l, hx, k⟩ := tick_core (u := u) (v := w) (w := e) hr
  have hx' : x.restore = [c] := hx.restore.trans hl
  rw [k, hx']
  refine ⟨?_, rfl, rfl⟩
  show ((x.setCopy c x.voted).setHist c ⟨0, 0, 0⟩).copy c = ((x.setCopy c x.voted).setHist c ⟨0, 0, 0⟩).voted
  simp [hc]

/-- Settles O60. -/
theorem tripodControls : Obligations.TripodControls := by
  refine ⟨fun s v ha hr hf => ?_, fun s v c ha hr hf hc hfe hre hrj => ?_, fun s v c ha hr hf hc hd => ?_,
    fun s c hs hr hc hl hj => ?_⟩
  · refine Answers.ofCommand (A := (· ∈ [R.TSC_STATUS])) (ps := []) ha (by decide) (by decide)
      (act_tripodCtrl.trans (tripodCtrlAct_clear hr hf)) (by unfold State.clearSuspect; simp)
      fun u L C => ⟨?_, C.sameBut, C.parts⟩
    rw [L.g (by decide)]
    simp [State.clearSuspect, State.g, Fld.get_put]
  · have e : exec (.copyRestore c v) s = done s (s.hostWrite R.TSC_TRIPOD_CTRL (F.TSC_TRIPOD_CTRL_RESTORE.put v (maskSet 0 c))) := by
      rw [← hr]
      rfl
    rw [e]
    refine Answers.ofCommand (A := (· ∈ [])) (ps := [.tsc]) ha (by decide) (by decide)
      (act_tripodCtrl.trans ((tripodCtrlAct_restore hf hc).trans
        (restoreCopies_one (by simpa [State.fenced, State.g] using hfe) hre hrj)))
      (by simp) fun u L C => ⟨?_, C.sameBut, C.parts⟩
    rw [L.tsc]
    rfl
  · have e : exec (.copyFenceCmd c v) s = done s (s.hostWrite R.TSC_TRIPOD_CTRL (F.TSC_TRIPOD_CTRL_FENCE.put v (maskSet 0 c))) := by
      rw [← hf]
      rfl
    rw [e]
    refine Answers.ofCommand (A := (· ∈ [R.TSC_STATUS])) (ps := []) ha (by decide) (by decide)
      (act_tripodCtrl.trans ((tripodCtrlAct_fence hr hc).trans
        (fenceCopies_one (by simpa [State.duplex, State.on, State.g] using hd))))
      (by simp) fun u L C => ⟨?_, ?_, ?_, C.sameBut, C.parts⟩
    · unfold State.fenced
      rw [L.g (by decide)]
      exact (congrArg (maskBit · c) (congrArg F.TSC_STATUS_FENCED.get State.reg_tripod)).trans (fenceCopy_fenced c.isLt)
    · unfold State.duplex State.on
      rw [L.g (by decide)]
      exact (congrArg (· != 0) (congrArg F.TSC_STATUS_MODE.get State.reg_tripod)).trans fenceCopy_duplex
    · refine L.isSet (by decide) (by decide) rfl ?_
      exact (congrArg F.TSC_RAW_FENCE.get State.reg_tripod).trans fenceCopy_raw
  · obtain ⟨h1, h2, h3⟩ := tick_reloads (u := 0) (w := 0) (e := 0) hr hc hl
    obtain ⟨hh, hi, hb, hp⟩ := tick_frame (u := 0) (v := 0) (w := 0) hr
    rw [exec_timescaleTick]
    refine Answers.ofDone hs fun t L => ?_
    rw [L.tsc, L.hld]
    exact ⟨hh, h1, h2, h3, sameBut_of_logs hb L, sameParts_of_logs hp L⟩

end Sys2Proof.Machine
end

section

/-! ## A step of a source that no step has (R79)

The steps due on a tick are applied source by source, and the model knows the sources 0 to 5. -/

namespace Sys2Proof.Machine

/-- A running device on whose tick a relative step of source 6 is due. -/
def strayStep : State :=
  { Tests.live with tsc := { Tests.live.tsc with due := [(6, .rel 1)], hostRipe := false } }

/-- The stray step is dropped: the voted copy stays. -/
theorem voted_strayStep : (endClock strayStep strayStep.stepApply).tsc.voted ≠ cStep 1 strayStep.tsc.voted := by
  decide +kernel

/-- Refutes O59: a relative step of source 6 or 7, which the statement allows and R79 does not know, is due and moves
nothing. -/
theorem not_stepsAndSeconds : ¬ Obligations.StepsAndSeconds := by
  intro h
  obtain ⟨-, -, -, -, h, -⟩ := h
  obtain ⟨t, e, hv, -⟩ := h strayStep 6 1 rfl (by decide) rfl rfl (by decide)
  have k : exec .stepApply strayStep = .next (endClock strayStep strayStep.stepApply) := done_next rfl
  rw [k] at e
  injection e with e
  exact voted_strayStep ((congrArg (fun s : State => s.tsc.voted) e).trans hv)

end Sys2Proof.Machine
end

section

/-! ## Tables, raw status registers, pairs and the PTP ports -/

set_option Elab.async false

namespace Sys2Proof.Machine

variable {A : Nat → Prop} {ps : List Part} {s t : State} {a n m : Nat} {i : Int}

/-- What a table holds after one of its entries is set. -/
theorem Tbl.get_set {α : Type} [DecidableEq α] {d : α} {t : Tbl α} {k j : Nat} {v : α} :
    Tbl.get d (Tbl.set d t k v) j = if j = k then v else Tbl.get d t j := by
  split
  · next h => rw [h, Tbl.get_set_same]
  · next h => exact Tbl.get_set_ne d d t h v

/-! ### The raw status registers -/

@[simp] theorem rawBlock_HIF : (rawBlock R.HIF_RAW).isSome = true := by decide
@[simp] theorem rawBlock_BOOT : (rawBlock R.BOOT_RAW).isSome = true := by decide
@[simp] theorem rawBlock_TSC : (rawBlock R.TSC_RAW).isSome = true := by decide
@[simp] theorem rawBlock_REF : (rawBlock R.REF_RAW).isSome = true := by decide
@[simp] theorem rawBlock_HLD : (rawBlock R.HLD_RAW).isSome = true := by decide
@[simp] theorem rawBlock_SYN : (rawBlock R.SYN_RAW).isSome = true := by decide
@[simp] theorem rawBlock_PTP : (rawBlock R.PTP_RAW).isSome = true := by decide
@[simp] theorem rawBlock_PMC : (rawBlock R.PMC_RAW).isSome = true := by decide
@[simp] theorem rawBlock_FWD : (rawBlock R.FWD_RAW).isSome = true := by decide
@[simp] theorem rawBlock_QUE : (rawBlock R.QUE_RAW).isSome = true := by decide
@[simp] theorem rawBlock_HRD : (rawBlock R.HRD_RAW).isSome = true := by decide
@[simp] theorem rawBlock_SPR : (rawBlock R.SPR_RAW).isSome = true := by decide
@[simp] theorem rawBlock_TDC : (rawBlock R.TDC_RAW).isSome = true := by decide
@[simp] theorem rawBlock_GUY : (rawBlock R.GUY_RAW).isSome = true := by decide
@[simp] theorem rawBlock_RUT : (rawBlock R.RUT_RAW).isSome = true := by decide
@[simp] theorem rawBlock_IOP : (rawBlock R.IOP_RAW).isSome = true := by decide

namespace State

@[simp] theorem pair_setPair : (s.setPair a n).pair a = n % 2 ^ 64 := by
  simp [pair]
  omega

theorem enc_lt {w : Nat} {i : Int} : enc w i < 2 ^ w := by
  have h : (0 : Int) < 2 ^ w := by positivity
  have h1 := Int.emod_lt_of_pos i h
  have h2 := Int.emod_nonneg i h.ne'
  unfold enc
  zify
  rwa [Int.toNat_of_nonneg h2]

@[simp] theorem pair_setPairI : (s.setPairI a i).pair a = enc 64 i :=
  pair_setPair.trans (Nat.mod_eq_of_lt enc_lt)

@[simp] theorem pport_setPport {x : PtpPort} : (s.setPport n x).pport m = if m = n then x else s.pport m := Tbl.get_set

@[simp] theorem reg_setPport {x : PtpPort} : (s.setPport n x).reg a = s.reg a := reg_setPtp

end State

@[simp] theorem Changes.setPport_iff {x : PtpPort} (h : .ptp ∈ ps) : Changes A ps s (t.setPport n x) ↔ Changes A ps s t :=
  Changes.setPtp_iff t h

/-- A command whose effect leaves the state as it was. -/
theorem Answers.still (h : s.inReset = false) (e : t = s) :
    Answers (done s t) fun u => s.sameBut u [] ∧ s.sameParts u [] := by
  subst e
  exact Answers.ofChanges (A := (· ∈ [])) h .refl fun u L C => ⟨C.sameBut, C.parts⟩

end Sys2Proof.Machine
end

section

/-! ## The servo's lapse, freeze and tight ticks (R219, R221, R223) -/

set_option Elab.async false

namespace Sys2Proof.Machine

variable {A : Nat → Prop} {ps : List Part} {s t : State} {n : Nat} {r : Int}

@[simp] theorem Changes.supplyRate_iff (h : .tsc ∈ ps) : Changes A ps s (t.supplyRate r) ↔ Changes A ps s t := by
  unfold State.supplyRate
  simp [h]

@[simp] theorem Changes.servoRate_iff (hA : A R.PTP_RATE_LO) (hA' : A R.PTP_RATE_HI) (h : .tsc ∈ ps) :
    Changes A ps s (t.servoRate r) ↔ Changes A ps s t := by
  unfold State.servoRate
  simp [hA, show A (R.PTP_RATE_LO + 4) from hA', h]

@[simp] theorem Changes.servoRec_iff : Changes A ps s (t.servoRec n) ↔ Changes A ps s t := Changes.note_iff

@[simp] theorem State.reg_supplyRate {a : Nat} : (s.supplyRate r).reg a = s.reg a := by
  unfold State.supplyRate
  simp

@[simp] theorem State.reg_servoRate {a : Nat} : (s.servoRate r).reg a = (s.setPairI R.PTP_RATE_LO r).reg a := by
  unfold State.servoRate
  simp

@[simp] theorem State.reg_servoRec {a : Nat} : (s.servoRec n).reg a = s.reg a := State.reg_note

/-- The lapse of a valid offset, as the state of each port sees it. -/
def State.lapsed (s : State) : State := if s.servoPort < 24 then s.setPport s.servoPort { s.pport s.servoPort with last := none } else s

theorem pport_lapsed (m : Fin 24) :
    s.lapsed.pport m = { s.pport m with last := if m.val = s.servoPort then none else (s.pport m).last } := by
  unfold State.lapsed
  have hm := m.isLt
  by_cases h : m.val = s.servoPort
  · rw [if_pos (by omega), State.pport_setPport, if_pos h, h, if_pos rfl]
  · rw [if_neg h]
    split
    · rw [State.pport_setPport, if_neg h]
    · rfl

theorem reg_lapsed {a : Nat} : s.lapsed.reg a = s.reg a := by
  unfold State.lapsed
  simp

theorem offsetLapse_eq : s.offsetLapse = if s.lapsed.ptpValid then s.lapsed.loseValid else s.lapsed := rfl

theorem ptpValid_lapsed : s.lapsed.ptpValid = s.ptpValid := by
  simp [State.ptpValid, State.on, State.g, reg_lapsed]

theorem loseValid_valid (h : s.ptpValid = true) : s.loseValid =
    ((((s.p R.PTP_STATUS F.PTP_STATUS_VALID 0).raw R.PTP_RAW F.PTP_RAW_VALID_LOST).setPtp
      { s.ptp with first := none }).setServo servoIdle) := by
  unfold State.loseValid
  rw [if_pos h]
  rfl

/-- Settles O46. -/
theorem ptpServo : Obligations.PtpServo := by
  refine ⟨fun s hs hv => ?_, fun s hs ht => ?_, fun s hs ht hb hk => ?_, fun s hs h => ?_, fun s hs h => ?_, fun s hs hv => ?_⟩
  · show Answers (done s s.offsetLapse) _
    rw [offsetLapse_eq, ptpValid_lapsed, hv, if_pos rfl, loseValid_valid (ptpValid_lapsed.trans hv)]
    refine Answers.ofChanges (A := (· ∈ [R.PTP_STATUS])) (ps := [.ptp]) hs
      (by unfold State.setServo State.lapsed; simp) fun u L C => ⟨?_, ?_, ?_, ?_, fun m => ?_, C.sameBut, C.parts⟩
    · unfold State.ptpValid State.on
      rw [L.g (by decide)]
      simp [State.g, State.setServo, Fld.get_put, Fld.get_put_ne]
    · unfold State.servo
      rw [L.g (by decide)]
      simp [State.g, State.setServo, Fld.get_put]
    · refine L.isSet (by decide) (by decide) rfl ?_
      simp [State.isSet, State.g, State.setServo, Fld.get_put]
    · rw [L.ptp]
      unfold State.lapsed
      split <;> rfl
    · have h := pport_lapsed (s := s) m
      unfold State.pport at h ⊢
      rw [L.ptp]
      exact h
  · show Answers (done s s.servoFreeze) _
    unfold State.servoFreeze
    rw [if_pos ht]
    refine Answers.ofChanges (A := (· ∈ [R.PTP_STATUS, R.PTP_RATE_LO, R.PTP_RATE_HI])) (ps := [.tsc]) hs
      (by unfold State.setServo; simp) fun u L C => ⟨?_, ?_, ?_, C.sameBut, C.parts⟩
    · unfold State.servo
      rw [L.g (by decide)]
      simp [State.g, State.setServo, Fld.get_put, R.PTP_STATUS, R.PTP_RATE_LO]
    · rw [L.pair (by decide) (by decide), ← State.pair_setPairI (s := s) (a := R.PTP_RATE_LO)]
      simp [State.pair, State.setServo, R.PTP_RATE_LO]
    · refine L.isSet (by decide) (by decide) rfl ?_
      simp [State.isSet, State.g, State.setServo, Fld.get_put, R.PTP_RAW, R.PTP_RATE_LO]
  · show Answers (done s s.tightTick) _
    unfold State.tightTick
    rw [if_pos (by simp [ht, hb, hk])]
    unfold State.servoUpdate
    refine Answers.ofChanges (A := (· ∈ [R.PTP_OFFSET_LO, R.PTP_OFFSET_HI, R.PTP_RATE_LO, R.PTP_RATE_HI])) (ps := [.tsc, .ptp]) hs
      (by simp) fun u L C => ⟨?_, C.sameBut, C.parts⟩
    rw [L.pair (by decide) (by decide), ← State.pair_setPairI (s := s) (a := R.PTP_OFFSET_LO)]
    simp [State.pair, R.PTP_RATE_LO, R.PTP_OFFSET_LO]
  · show Answers (done s s.tightTick) _
    unfold State.tightTick
    rw [if_neg (by rcases h with h | h | h <;> simp [h])]
    exact Answers.ofChanges (A := (· ∈ [])) hs .refl fun u L C => ⟨C.sameBut, C.parts⟩
  · show Answers (done s s.servoFreeze) _
    unfold State.servoFreeze
    rw [if_neg h]
    exact Answers.ofChanges (A := (· ∈ [])) hs .refl fun u L C => ⟨C.sameBut, C.parts⟩
  · show Answers (done s s.offsetLapse) _
    rw [offsetLapse_eq, ptpValid_lapsed, hv, if_neg (by decide)]
    refine Answers.ofChanges (A := (· ∈ [])) (ps := [.ptp]) hs (by unfold State.lapsed; simp)
      fun u L C => ⟨fun m => ?_, C.sameBut, C.parts⟩
    have h := pport_lapsed (s := s) m
    unfold State.pport at h ⊢
    rw [L.ptp]
    exact h

end Sys2Proof.Machine
end

section

/-! ## The configuration scan (R51, R52) -/

set_option Elab.async false

namespace Sys2Proof.Machine

variable {A : Nat → Prop} {ps : List Part} {s t : State} {n : Nat} {v : Word}

theorem act_crcCommit {old : Word} : s.act R.HIF_CFG_CRC_COMMIT old v =
    let s := if F.HIF_CFG_CRC_COMMIT_UNFREEZE.get v = 1 then s.unfreeze else s
    if F.HIF_CFG_CRC_COMMIT_COMMIT.get v = 1 then s.scanCommit else s := by
  unfold State.act State.actHif
  rfl

@[simp] theorem Changes.unfreeze_iff (h : A R.HIF_CFG_CRC_STATUS) : Changes A ps s t.unfreeze ↔ Changes A ps s t :=
  Changes.p_iff h

@[simp] theorem Changes.setScan_iff (h : A R.HIF_CFG_CRC_STATUS) : Changes A ps s (t.setScan n) ↔ Changes A ps s t :=
  Changes.p_iff h

@[simp] theorem Changes.scanCommit_iff (h : A R.HIF_CFG_CRC_STATUS) : Changes A ps s t.scanCommit ↔ Changes A ps s t :=
  Changes.p_iff h

@[simp] theorem Changes.freeze_iff (h : A R.HIF_CFG_CRC_STATUS) : Changes A ps s t.freeze ↔ Changes A ps s t :=
  Changes.p_iff h

/-- The end of a reference pass (R51). -/
theorem scanEnd_reference (h : s.scanState = 1) :
    s.scanEnd n = ((s.setRegN R.HIF_CFG_CRC_LAST n).setRegN R.HIF_CFG_CRC_REF n).setScan 2 := by
  have k : (s.setRegN R.HIF_CFG_CRC_LAST n).scanState = 1 := by
    rw [← h]
    simp [State.scanState, State.g]
  unfold State.scanEnd
  exact if_pos k

theorem scanAction_freeze (h : s.g R.HIF_CFG_CRC_CTRL F.HIF_CFG_CRC_CTRL_ACTION = 1) : s.scanAction = s.freeze := by
  unfold State.scanAction
  exact if_pos h

/-- The end of a scan with another result than the reference, under ACTION 1 (R51, R52). -/
theorem scanEnd_freezes (h : s.scanState = 2) (hn : n ≠ (s.reg R.HIF_CFG_CRC_REF).toNat)
    (ha : s.g R.HIF_CFG_CRC_CTRL F.HIF_CFG_CRC_CTRL_ACTION = 1) : ∃ a ref, s.scanEnd n =
      ((((((s.setRegN R.HIF_CFG_CRC_LAST n).setScan 3).raw R.HIF_RAW F.HIF_RAW_CRC_MISMATCH).fault 0 2 a n).note 0x24 a ref n 0
        0).freeze) := by
  have k : (s.setRegN R.HIF_CFG_CRC_LAST n).scanState = 2 := by
    rw [← h]
    simp [State.scanState, State.g]
  refine ⟨(s.setRegN R.HIF_CFG_CRC_LAST n).g R.HIF_CFG_CRC_CTRL F.HIF_CFG_CRC_CTRL_ACTION, (s.reg R.HIF_CFG_CRC_REF).toNat, ?_⟩
  unfold State.scanEnd
  refine (if_neg (by rw [k]; decide)).trans ((if_pos ⟨k, hn⟩).trans (scanAction_freeze ?_))
  rw [← ha]
  simp [State.g, State.setScan]

/-- Settles O29. -/
theorem configurationScan : Obligations.ConfigurationScan := by
  refine ⟨fun s v ha => ?_, fun s v ha => ?_, fun s l hs h1 => ?_, fun s l hs h2 hn ha => ?_⟩
  · refine Answers.ofCommand (A := (· ∈ [R.HIF_CFG_CRC_STATUS])) (ps := []) ha (by decide) (by decide) act_crcCommit
      (by simp) fun u L C => ⟨?_, C.sameBut, C.parts⟩
    rw [L.g (by decide)]
    simp [Fld.get_put, State.scanCommit, State.setScan, State.g]
  · refine Answers.ofCommand (A := (· ∈ [R.HIF_CFG_CRC_STATUS])) (ps := []) ha (by decide) (by decide) act_crcCommit
      (by simp) fun u L C => ⟨?_, C.sameBut, C.parts⟩
    rw [L.g (by decide)]
    simp only [Fld.get_put (f := F.HIF_CFG_CRC_COMMIT_UNFREEZE) (by decide)]
    split <;> simp [Fld.get_put, Fld.get_put_ne, State.scanCommit, State.setScan, State.unfreeze, State.g]
  · show Answers (done s ((s.upset l).scanEnd (s.upset l).scanResult)) _
    rw [scanEnd_reference h1]
    generalize (s.upset l).scanResult = n
    have C : Changes (· ∈ [R.HIF_CFG_CRC_LAST, R.HIF_CFG_CRC_REF, R.HIF_CFG_CRC_STATUS]) [] (s.upset l)
      ((((s.upset l).setRegN R.HIF_CFG_CRC_LAST n).setRegN R.HIF_CFG_CRC_REF n).setScan 2) := by simp
    refine Answers.ofDone hs fun u L => ⟨?_, ?_, ?_, (C.logs L).sameBut, (C.logs L).parts⟩
    · rw [L.reg _ (by decide)]
      simp [State.setScan]
    · rw [L.reg _ (by decide)]
      simp [State.setScan]
    · rw [L.g (by decide)]
      simp [State.setScan, State.g, Fld.get_put]
  · show Answers (done s ((s.upset l).scanEnd (s.upset l).scanResult)) _
    obtain ⟨a, ref, e⟩ := scanEnd_freezes h2 hn ha
    rw [e]
    generalize (s.upset l).scanResult = n
    have C : Changes (· ∈ [R.HIF_CFG_CRC_LAST, R.HIF_CFG_CRC_STATUS]) [] (s.upset l)
      (((((((s.upset l).setRegN R.HIF_CFG_CRC_LAST n).setScan 3).raw R.HIF_RAW F.HIF_RAW_CRC_MISMATCH).fault 0 2 a n).note
        0x24 a ref n 0 0).freeze) := by simp
    refine Answers.ofDone hs fun u L => ⟨?_, ?_, ?_, ?_, (C.logs L).sameBut, (C.logs L).parts⟩
    · rw [L.reg _ (by decide)]
      simp [State.setScan, State.freeze]
    · rw [L.g (by decide)]
      simp [State.setScan, State.freeze, State.g, Fld.get_put, Fld.get_put_ne]
    · rw [L.g (by decide)]
      simp [State.setScan, State.freeze, State.g, Fld.get_put]
    · refine L.isSet (by decide) (by decide) rfl ?_
      have k (x : State) : (x.raw R.HIF_RAW F.HIF_RAW_CRC_MISMATCH).isSet R.HIF_RAW F.HIF_RAW_CRC_MISMATCH := by
        simp [State.isSet, State.g, Fld.get_put]
      have K (x : State) : Logs x ((x.fault 0 2 a n).note 0x24 a ref n 0 0) := (Logs.refl x).fault.note
      have h := (K _).isSet (by decide) (by decide) rfl (k (((s.upset l).setRegN R.HIF_CFG_CRC_LAST n).setScan 3))
      refine Eq.trans ?_ h
      simp [State.freeze, State.g]

end Sys2Proof.Machine
end

section

/-! ## A read that does not only clear (R26)

A read of `HRD_CAL` clears PEAK to the present fill of the calendars, USED, and not to 0 (spec/11). -/

namespace Sys2Proof.Machine

/-- A running device with five entries in the calendars. -/
def filledCalendar : State := Tests.live.p R.HRD_CAL F.HRD_CAL_USED 5

/-- The peak starts again from the five entries. -/
theorem reg_hrdCal_read : (endClock filledCalendar (filledCalendar.readReq .f0 R.HRD_CAL 4)).reg R.HRD_CAL ≠
    filledCalendar.reg R.HRD_CAL &&& ~~~(BitVec.ofNat 32 (clearBits R.HRD_CAL)) := by
  decide +kernel

theorem reaches_hrdCal : filledCalendar.reaches .f0 R.HRD_CAL := by decide +kernel

/-- Refutes O27: a read of `HRD_CAL` leaves PEAK at USED, and so does not clear it while entries wait. -/
theorem not_readsOverF0AndF1 : ¬ Obligations.ReadsOverF0AndF1 := by
  intro h
  obtain ⟨t, e, -, hr, -⟩ := h.1 filledCalendar R.HRD_CAL reaches_hrdCal rfl (by decide) (by decide) (by decide) (by decide)
  have k : exec (.readClear .f0 R.HRD_CAL 4) filledCalendar =
      .next (endClock filledCalendar (filledCalendar.readReq .f0 R.HRD_CAL 4)) := done_next rfl
  rw [k] at e
  injection e with e
  exact reg_hrdCal_read ((congrArg (State.reg · R.HRD_CAL) e).trans hr)

end Sys2Proof.Machine
end

section

/-! ## Samples of the phase detectors (R180, R182) -/

set_option Elab.async false

namespace Sys2Proof.Machine

variable {A : Nat → Prop} {ps : List Part} {s t : State} {n m : Nat} {tx : Bool} {d : Pd}

/-! ### The registers of a port -/

@[simp] theorem sharedReg_PTS_STATUS (p : Fin 24) : sharedReg (R.PTS_STATUS p) = false := by revert p; decide
@[simp] theorem sharedReg_PTS_PD_PHASE (p : Fin 24) : sharedReg (R.PTS_PD_PHASE p) = false := by revert p; decide
@[simp] theorem sharedReg_PTP_Pn_STATUS (p : Fin 24) : sharedReg (R.PTP_Pn_STATUS p) = false := by revert p; decide
@[simp] theorem rawBlock_PTS_RAW (p : Fin 24) : (rawBlock (R.PTS_RAW p)).isSome = true := by revert p; decide
@[simp] theorem rawBlock_PTP_Pn_RAW (p : Fin 24) : (rawBlock (R.PTP_Pn_RAW p)).isSome = true := by revert p; decide

/-! ### Detectors -/

@[simp] theorem State.ptsOf_setPts {x : Pts} : (s.setPts n x).ptsOf m = if m = n then x else s.ptsOf m := Tbl.get_set

@[simp] theorem Changes.setPd_iff {st : Nat} (h : A (R.PTS_STATUS n)) : Changes A ps s (t.setPd n tx st) ↔ Changes A ps s t :=
  Changes.p_iff h

@[simp] theorem Changes.storePd_iff (h : .pts ∈ ps) : Changes A ps s (t.storePd n tx d) ↔ Changes A ps s t :=
  Changes.setPts_iff t h

@[simp] theorem State.reg_storePd {a : Nat} : (s.storePd n tx d).reg a = s.reg a := State.reg_setPts

@[simp] theorem State.pd_storePd : (s.storePd n tx d).pd n tx = d := by
  cases tx <;> simp [State.storePd, State.pd]

theorem State.pd_of_pts (h : t.pts = s.pts) : t.pd n tx = s.pd n tx := by
  unfold State.pd State.ptsOf
  rw [h]

/-- A state of a detector reads back. -/
theorem State.pdState_setPd {st : Nat} (h : st < 4) : (s.setPd n tx st).pdState n tx = st := by
  cases tx <;> simp [State.setPd, State.pdState, State.g, Fld.get_put] <;> omega

theorem State.pdState_of_reg (h : t.reg (R.PTS_STATUS n) = s.reg (R.PTS_STATUS n)) : t.pdState n tx = s.pdState n tx := by
  unfold State.pdState State.g
  rw [h]

/-- Tight confirmation writes the port's status alone. -/
theorem Changes.tightEval (p : Fin 24) : Changes (· = R.PTP_Pn_STATUS p) [.ptp] s (s.tightEval p) := by
  unfold State.tightEval
  simp

theorem tightEval_raw (p : Fin 24) : (s.tightEval p).reg (R.PTS_RAW p) = s.reg (R.PTS_RAW p) := by
  have h1 : R.PTS_RAW p ≠ R.PTP_Pn_STATUS p := by simp only [R.PTS_RAW, R.PTP_Pn_STATUS]; omega
  have h2 : R.PTS_RAW p ≠ R.PTP_Pn_RAW p := by simp only [R.PTS_RAW, R.PTP_Pn_RAW]; omega
  unfold State.tightEval
  simp [h1, h2]

/-- The phase that a sample shows. -/
abbrev phaseFld (tx : Bool) : Fld := if tx then F.PTS_PD_PHASE_TX_PHASE else F.PTS_PD_PHASE_RX_PHASE

/-- The registers and parts that a sample of port `p` may change. -/
abbrev sampleRegs (p : Fin 24) : Nat → Prop := (· ∈ [R.PTS_PD_PHASE p, R.PTS_STATUS p, R.PTP_Pn_STATUS p])

/-- The answer of a sample, from what it makes of the port's detector. -/
theorem sampleAnswers {P : State → Prop} {p : Fin 24} {raw : Fin 8192} {x : State} (hs : s.inReset = false)
    (hx : s.pdSample p tx raw = x) (C : Changes (sampleRegs p) [.pts, .ptp] s x)
    (hP : ∀ u, u.g (R.PTS_PD_PHASE p) (phaseFld tx) = x.g (R.PTS_PD_PHASE p) (phaseFld tx) →
      u.pdState p tx = x.pdState p tx → u.pd p tx = x.pd p tx →
      (∀ f : Fld, f.lo < 32 → f.w = 1 → x.isSet (R.PTS_RAW p) f → u.isSet (R.PTS_RAW p) f) →
      Changes (sampleRegs p) [.pts, .ptp] s u → P u) : Answers (exec (.pdSample p.castSucc tx raw) s) P := by
  have e : s.detectorSample p tx raw = x.tightEval p := by
    unfold State.detectorSample
    rw [if_pos p.isLt, hx]
  show Answers (done s (s.detectorSample p tx raw)) P
  rw [e]
  have T := Changes.tightEval (s := x) p
  have K : Changes (sampleRegs p) [.pts, .ptp] s (x.tightEval p) := C.trans (T.mono (by simp) (by simp))
  refine Answers.ofDone hs fun u L => hP u ?_ ?_ ?_ ?_ (K.logs L)
  · rw [L.g (by simp), T.g (by simp) (by simp only [R.PTS_PD_PHASE, R.PTP_Pn_STATUS]; omega)]
  · exact State.pdState_of_reg ((L.reg _ (by simp)).trans
      (T.reg (by simp) (by simp only [R.PTS_STATUS, R.PTP_Pn_STATUS]; omega)))
  · exact State.pd_of_pts (L.pts.trans (T.parts .pts (by simp)))
  · intro f hf hw h
    exact L.isSet (by simp) hf hw ((congrArg f.get (tightEval_raw p)).trans h)

/-! ### One sample -/

/-- The sample shows, and the history takes it. -/
def State.sampled (s : State) (n : Nat) (tx : Bool) (raw good : Nat) : State :=
  (s.p (R.PTS_PD_PHASE n) (phaseFld tx) raw).storePd n tx ⟨good, (pdUnwrap (s.pd n tx).hist raw :: (s.pd n tx).hist).take 64⟩

/-- The sample of a detector, unwrapped (R180). -/
abbrev State.unwrapped (s : State) (n : Nat) (tx : Bool) (raw : Nat) : Int := pdUnwrap (s.pd n tx).hist raw

/-- The sample lies near its prediction. -/
abbrev State.nearSample (s : State) (n : Nat) (tx : Bool) (raw : Nat) : Prop :=
  (pdError (s.pd n tx).hist (s.unwrapped n tx raw)).1.natAbs * 1000 ≤ 4 * 4096 * (pdError (s.pd n tx).hist (s.unwrapped n tx raw)).2

/-- The sample lies far from its prediction. -/
abbrev State.farSample (s : State) (n : Nat) (tx : Bool) (raw : Nat) : Prop :=
  20 * 4096 * (pdError (s.pd n tx).hist (s.unwrapped n tx raw)).2 <
    (pdError (s.pd n tx).hist (s.unwrapped n tx raw)).1.natAbs * 1000

section
variable {raw : Nat} (hr : raw < 8192)
include hr

theorem pdSample_tracks (h : s.pdState n tx = 1) (hn : s.nearSample n tx raw) (hg : (s.pd n tx).good = 1023) :
    s.pdSample n tx raw = ((s.sampled n tx raw 1024).setPd n tx 2).raw (R.PTS_RAW n) F.PTS_RAW_PD_TRACK := by
  unfold State.pdSample
  simp only [h, Nat.mod_eq_of_lt hr, decide_eq_true hn, hg]
  rfl

theorem pdSample_acquires (h : s.pdState n tx = 1) (hn : s.nearSample n tx raw) (hg : (s.pd n tx).good < 1023) :
    s.pdSample n tx raw = s.sampled n tx raw ((s.pd n tx).good + 1) := by
  have hb : ¬ 1024 ≤ (s.pd n tx).good + 1 := by omega
  unfold State.pdSample
  simp only [h, Nat.mod_eq_of_lt hr, decide_eq_true hn, if_true, if_neg hb]
  rfl

theorem pdSample_slips (h : s.pdState n tx = 2) (hf : s.farSample n tx raw) : ∃ g x, s.pdSample n tx raw =
    ((((s.sampled n tx raw g).setPd n tx 1).storePd n tx
      ⟨0, (s.unwrapped n tx raw :: (s.pd n tx).hist).take 64⟩).raw (R.PTS_RAW n) F.PTS_RAW_PD_SLIP).note 0x08
      (if tx then 2 else 1) 0 x 0 (n * 2 ^ 11) := by
  unfold State.pdSample
  simp only [h, Nat.mod_eq_of_lt hr, decide_eq_true hf]
  exact ⟨_, _, rfl⟩

theorem pdSample_stays (h : s.pdState n tx = 2) (hf : ¬ s.farSample n tx raw) :
    ∃ g, s.pdSample n tx raw = s.sampled n tx raw g := by
  unfold State.pdSample
  simp only [h, Nat.mod_eq_of_lt hr, decide_eq_false hf]
  exact ⟨_, rfl⟩

end

theorem sampled_phase {raw g : Nat} (h : raw < 8192) :
    (s.sampled n tx raw g).g (R.PTS_PD_PHASE n) (phaseFld tx) = raw := by
  cases tx <;> simp [State.sampled, State.g, phaseFld, Fld.get_put] <;> omega

theorem sampled_pd {raw g : Nat} :
    (s.sampled n tx raw g).pd n tx = ⟨g, (s.unwrapped n tx raw :: (s.pd n tx).hist).take 64⟩ := State.pd_storePd

theorem sampled_pdState {raw g : Nat} : (s.sampled n tx raw g).pdState n tx = s.pdState n tx := by
  refine State.pdState_of_reg ?_
  simp [State.sampled]

theorem Changes.sampled {raw g : Nat} {p : Fin 24} : Changes (sampleRegs p) [.pts, .ptp] s (s.sampled p tx raw g) := by
  unfold State.sampled
  simp

/-! ### Guyline's detectors -/

@[simp] theorem Changes.setGuyPd_iff {st : Nat} (h : .guy ∈ ps) : Changes A ps s (t.setGuyPd tx st d) ↔ Changes A ps s t :=
  Changes.setGuy_iff t h

theorem guyPdSample_eq {raw : Nat} (hr : raw < 8192) (h : (if tx then s.guy.txState else s.guy.rxState) ≠ 0) : ∃ st g,
    s.guyPdSample tx raw = s.setGuyPd tx st ⟨g, (pdUnwrap (if tx then s.guy.tx else s.guy.rx).hist raw ::
      (if tx then s.guy.tx else s.guy.rx).hist).take 64⟩ := by
  unfold State.guyPdSample
  simp only [h, Nat.mod_eq_of_lt hr, if_false]
  split_ifs
  all_goals exact ⟨_, _, rfl⟩

/-- Settles O40. -/
theorem phaseDetectors : Obligations.PhaseDetectors := by
  refine ⟨fun s p tx raw hs h1 hn hg => ?_, fun s p tx raw hs h1 hn hg => ?_, fun s p tx raw hs h2 hf => ?_,
    fun s p tx raw hs h2 hf => ?_, fun s tx raw hs h => ?_⟩
  · refine sampleAnswers hs (pdSample_tracks raw.isLt h1 hn hg) (by simp [Changes.sampled]) fun u hp hst hpd hset C =>
      ⟨hp.trans ?_, hst.trans ?_, ?_, hset _ (by decide) rfl ?_, C.sameBut, C.parts⟩
    · refine Eq.trans ?_ (sampled_phase (s := s) (n := p) (tx := tx) (g := 1024) raw.isLt)
      simp [State.g, State.setPd, R.PTS_PD_PHASE, R.PTS_RAW, R.PTS_STATUS]
    · refine Eq.trans (State.pdState_of_reg ?_) (State.pdState_setPd (s := s.sampled p tx raw 1024) (by decide))
      simp [R.PTS_RAW, R.PTS_STATUS]
    · have k : (((s.sampled p tx raw 1024).setPd p tx 2).raw (R.PTS_RAW p) F.PTS_RAW_PD_TRACK).pts =
        (s.sampled p tx raw 1024).pts := State.raw_pts.trans State.p_pts
      rw [hpd, State.pd_of_pts k, sampled_pd]
    · simp [State.isSet, State.g, Fld.get_put]
  · obtain e := pdSample_acquires raw.isLt h1 hn hg
    refine sampleAnswers hs e Changes.sampled fun u hp hst hpd hset C =>
      ⟨hp.trans (sampled_phase raw.isLt), hst.trans (sampled_pdState.trans h1), ?_, ?_, C.sameBut, C.parts⟩
    · rw [hpd, sampled_pd]
    · rw [hpd, sampled_pd]
      exact (if_pos hn).symm
  · obtain ⟨g, x, e⟩ := pdSample_slips raw.isLt h2 hf
    refine sampleAnswers hs e (by simp [Changes.sampled]) fun u hp hst hpd hset C =>
      ⟨hp.trans ?_, hst.trans ?_, ?_, hset _ (by decide) rfl ?_, C.sameBut, C.parts⟩
    · refine Eq.trans ?_ (sampled_phase (s := s) (n := p) (tx := tx) (g := g) raw.isLt)
      simp [State.g, State.setPd, R.PTS_PD_PHASE, R.PTS_RAW, R.PTS_STATUS]
    · refine Eq.trans (State.pdState_of_reg ?_) (State.pdState_setPd (s := s.sampled p tx raw g) (st := 1) (by decide))
      simp [R.PTS_RAW, R.PTS_STATUS]
    · rw [hpd, State.pd_of_pts (State.note_pts.trans State.raw_pts), State.pd_storePd]
    · simp [State.isSet, State.g, Fld.get_put]
  · obtain ⟨g, e⟩ := pdSample_stays raw.isLt h2 hf
    refine sampleAnswers hs e Changes.sampled fun u hp hst hpd hset C =>
      ⟨hp.trans (sampled_phase raw.isLt), hst.trans (sampled_pdState.trans h2), ?_, C.sameBut, C.parts⟩
    rw [hpd, sampled_pd]
  · obtain ⟨st, g, e⟩ := guyPdSample_eq raw.isLt h
    show Answers (done s (s.guyPdSample tx raw)) _
    rw [e]
    refine Answers.ofChanges (A := (· ∈ [])) (ps := [.guy]) hs (by simp) fun u L C => ⟨?_, ?_, C.sameBut, C.parts⟩
    · rw [L.guy]
      cases tx <;> rfl
    · rw [L.guy]
      cases tx <;> rfl

end Sys2Proof.Machine
end

section

/-! ## The I²C target and the die temperature (R64, R65, R435, R494) -/

set_option Elab.async false

namespace Sys2Proof.Machine

variable {A : Nat → Prop} {ps : List Part} {s t : State} {a n : Nat}

/-! ### Fields -/

/-- The last value put into a field stands. -/
theorem Fld.put_put {f : Fld} (h : f.lo + f.w ≤ 32) (v : Word) (m n : Nat) : f.put (f.put v m) n = f.put v n := by
  have hl : v.toNat % 2 ^ f.lo < 2 ^ f.lo := Nat.mod_lt _ (Nat.two_pow_pos _)
  have hr : m % 2 ^ f.w < 2 ^ f.w := Nat.mod_lt _ (Nat.two_pow_pos _)
  have hd : (f.put v m).toNat / 2 ^ (f.lo + f.w) = v.toNat / 2 ^ (f.lo + f.w) := by
    rw [Fld.toNat_put h, pow_add, ← Nat.div_div_eq_div_mul, Nat.mul_comm _ (2 ^ f.lo), Nat.mul_add_div (Nat.two_pow_pos _),
      Nat.div_eq_of_lt hl, Nat.add_zero, Nat.mul_comm _ (2 ^ f.w), Nat.mul_add_div (Nat.two_pow_pos _), Nat.div_eq_of_lt hr,
      Nat.add_zero]
  have hm : (f.put v m).toNat % 2 ^ f.lo = v.toNat % 2 ^ f.lo := by
    rw [Fld.toNat_put h, Nat.mul_add_mod_self_right, Nat.mod_eq_of_lt hl]
  exact BitVec.eq_of_toNat_eq (by rw [Fld.toNat_put h (f.put v m), Fld.toNat_put h v n, hd, hm])

theorem b2n_mod_two (b : Bool) : b2n b % 2 = b2n b := by cases b <;> rfl

/-! ### The I²C target -/

/-- The I²C target's address is `a`. -/
def State.setI2c (s : State) (a : Nat) : State := { s with hif := { s.hif with i2cAddr := a } }

@[simp] theorem Changes.setI2c_iff (h : .hif ∈ ps) : Changes A ps s (t.setI2c n) ↔ Changes A ps s t := by
  unfold State.setI2c
  simp [h]

theorem i2cAddress_own {dev : BitVec 7} {b2 b1 b0 : Byte} (h : dev.toNat = 0x58 + s.hif.i2cStrap) :
    s.i2cAddress dev b2 b1 b0 = s.setI2c ((b2.toNat * 65536 + b1.toNat * 256 + b0.toNat) / 4 * 4) := if_pos h

theorem i2cAddress_other {dev : BitVec 7} {b2 b1 b0 : Byte} (h : dev.toNat ≠ 0x58 + s.hif.i2cStrap) :
    s.i2cAddress dev b2 b1 b0 = s := if_neg h

@[simp] theorem reg_setI2c : (s.setI2c n).reg a = s.reg a := rfl

theorem accrue_setI2c {i : Nat} : ((s.setI2c n).accrue i).reg a = (s.accrue i).reg a := by
  simp only [State.accrue, apply_ite (State.reg · a)]
  rfl

theorem readNow_setI2c : (s.setI2c n).readNow a = s.readNow a :=
  if_congr Iff.rfl accrue_setI2c rfl

/-- A four-byte read of an RO or RCS word answers the word and moves the address on. -/
theorem i2cRead_word {dev : BitVec 7} (h : s.reaches .i2c a) (hd : dev.toNat = 0x58 + s.hif.i2cStrap)
    (ha : s.hif.i2cAddr = a) (h4 : a % 4 = 0) (hl : a < 2 ^ 24 - 4) (hr : i2cReads a = true) :
    s.i2cRead dev 4 = (s.setI2c (a + 4)).answer .i2c a 0 4 (s.readNow a) := by
  obtain ⟨_, hrun, hdead, hheld, _⟩ := h
  have e : s.i2cRead dev 4 = (s.setI2c (a + 4)).access ⟨.i2c, a, false, 0#32, 0, 4⟩ := by
    unfold State.i2cRead
    rw [if_pos (show dev.toNat = s.i2cDevice from hd)]
    change (s.setI2c ((s.hif.i2cAddr + 4) % 2 ^ 24)).accessAll _ = _
    rw [ha]
    simp [laneSplit, h4, State.accessAll, Nat.mod_eq_of_lt (by omega : a + 4 < 16777216), Nat.mod_eq_of_lt (by omega : a < 16777216)]
  rw [e]
  have hrun' : (s.setI2c (a + 4)).runs (accessDom .i2c a) = true := hrun
  have hdead' : (s.setI2c (a + 4)).hif.dead.contains (accessDom .i2c a) = false := hdead
  have hheld' : (s.setI2c (a + 4)).hif.held.any (fun y => decide (y.src = .i2c)) = false := hheld
  unfold State.access
  simp only [reduceCtorEq, false_and, Bool.false_eq_true, hheld', hdead', hrun', if_false, if_true, State.perform,
    State.readWord, State.readI2c, hr, readNow_setI2c]

/-! ### The die temperature -/

@[simp] theorem Changes.showTempOut_iff (h : A R.HLD_STATUS) : Changes A ps s t.showTempOut ↔ Changes A ps s t :=
  Changes.pb_iff h

theorem showTempOut_other (h : a ≠ R.HLD_STATUS) : s.showTempOut.reg a = s.reg a := by
  unfold State.showTempOut
  simp [h]

theorem put_showTempOut : F.HLD_STATUS_TEMP_OUT.put (s.showTempOut.reg R.HLD_STATUS) 0 =
    F.HLD_STATUS_TEMP_OUT.put (s.reg R.HLD_STATUS) 0 := by
  unfold State.showTempOut
  simp only [State.reg_pb, if_true]
  exact Fld.put_put (by decide) _ _ _

/-- Settles O32. -/
theorem boardController : Obligations.BoardController := by
  refine ⟨fun s dev b2 b1 b0 hs hd => ?_, fun s dev b2 b1 b0 hs hd => ?_, fun s dev a h hd ha h4 hl hr => ?_,
    fun s raw code hs => ?_⟩
  · show Answers (done s (s.i2cAddress dev b2 b1 b0)) _
    rw [i2cAddress_own hd]
    exact Answers.ofChanges (A := (· ∈ [])) (ps := [.hif]) hs (by simp) fun u L C => ⟨L.hif, C.sameBut, C.parts⟩
  · exact (Answers.still hs (i2cAddress_other hd))
  · show Answers (done s (s.i2cRead dev 4)) _
    rw [i2cRead_word h hd ha h4 hl hr]
    unfold State.answer
    exact Answers.ofChanges (A := (· ∈ [])) (ps := [.hif]) h.1 (by simp) fun u L C =>
      ⟨L.out, by rw [L.hif]; rfl, C.sameBut, C.parts⟩
  · show Answers (done s (s.dieTemp raw code)) _
    unfold State.dieTemp
    extract_lets T x1 x2 x3 hot was x4
    refine Answers.ofChanges (t := if (hot && !was) = true then _ else _) (A := (· ∈ [R.HIF_TEMP, R.HLD_TEMP_NOW, R.HLD_STATUS, R.IOP_STATUS])) (ps := [.conds]) hs
      (by simp [x1, x2, x3, x4]) fun u L C => ⟨?_, ?_, ?_, ?_, C.sameBut, C.parts⟩
    · rw [L.g (by decide)]
      simp [x1, x2, x3, x4, State.g, showTempOut_other, Fld.get_put]
      exact Nat.mod_eq_of_lt State.enc_lt
    · rw [L.g (by decide)]
      simp [x1, x2, x3, x4, State.g, showTempOut_other, Fld.get_put]
    · rw [L.g (by decide)]
      simp [x1, x2, x3, x4, State.g, showTempOut_other, Fld.get_put]
      exact b2n_mod_two hot
    · rw [L.reg _ (by decide)]
      simp [x1, x2, x3, x4, put_showTempOut]

end Sys2Proof.Machine
end

section

/-! ## Event timing: what its operations change -/

set_option Elab.async false

namespace Sys2Proof.Machine

variable {A : Nat → Prop} {ps : List Part} {s t : State} {a e m n : Nat}

/-- A fold whose steps leave a frame, each for the elements of the list. -/
theorem Changes.foldl_mem_iff {α : Type} {f : State → α → State} {l : List α}
    (hf : ∀ t, ∀ x ∈ l, Changes A ps s (f t x) ↔ Changes A ps s t) : Changes A ps s (l.foldl f t) ↔ Changes A ps s t := by
  induction l generalizing t with
  | nil => rfl
  | cons x r ih => exact (ih fun t y hy => hf t y (List.mem_cons_of_mem _ hy)).trans (hf t x (List.mem_cons_self ..))

/-! ### Masks and counts -/

theorem maskBit_eq_testBit : maskBit n m = n.testBit m := by
  simp [maskBit, beq_eq_decide]

theorem maskBit_mod {w : Nat} (h : m < w) : maskBit (n % 2 ^ w) m = maskBit n m := by
  rw [maskBit_eq_testBit, maskBit_eq_testBit, Nat.testBit_mod_two_pow]
  simp [h]

theorem maskBit_maskSet_self : maskBit (maskSet n m) m = true := by
  unfold maskSet
  split
  · next h => exact h
  · next h =>
    rw [maskBit_eq_testBit] at h ⊢
    rw [Nat.add_comm, Nat.testBit_two_pow_add_eq]
    simpa using h

theorem maskBit_maskClr_self : maskBit (maskClr n m) m = false := by
  unfold maskClr
  split
  · next h =>
    rw [maskBit_eq_testBit] at h ⊢
    have k := Nat.testBit_two_pow_add_eq (n - 2 ^ m) m
    rw [Nat.add_sub_cancel' (Nat.ge_two_pow_of_testBit h), h] at k
    simpa using k.symm
  · next h => simpa using h

/-- A bit is on when it reads 1. -/
theorem State.on_iff {f : Fld} (hw : f.w = 1) : s.on a f = true ↔ s.g a f = 1 := by
  have h : s.g a f < 2 := by
    have k : s.g a f < 2 ^ f.w := Fld.get_lt _ _
    rwa [hw] at k
  unfold State.on
  generalize s.g a f = x at h ⊢
  interval_cases x <;> simp

/-- A count stops at the top of its field. -/
theorem State.g_inc {f : Fld} (h : f.lo + f.w ≤ 32) : (s.inc a f).g a f = min (s.g a f + 1) (2 ^ f.w - 1) := by
  have k := Nat.two_pow_pos f.w
  unfold State.g
  rw [State.reg_inc, if_pos rfl, Fld.get_put h, Nat.mod_eq_of_lt (by omega)]

/-! ### Raw status bits that stay -/

/-- Every bit that is set in register `a` stays set. -/
def KeepsBits (a : Nat) (s t : State) : Prop := ∀ m : Word, s.reg a &&& m = m → t.reg a &&& m = m

theorem KeepsBits.refl : KeepsBits a s s := fun _ h => h

theorem KeepsBits.trans {u : State} (h : KeepsBits a s t) (k : KeepsBits a t u) : KeepsBits a s u := fun m hm => k m (h m hm)

theorem KeepsBits.ofReg (h : t.reg a = s.reg a) : KeepsBits a s t := fun m hm => by rwa [h]

theorem KeepsBits.ofLogs (ha : (rawBlock a).isSome = true) (L : Logs s t) : KeepsBits a s t := fun m hm => L.raw a m ha hm

theorem KeepsBits.raw {f : Fld} (hf : f.lo < 32) (hw : f.w = 1) : KeepsBits a s (s.raw a f) := fun m hm => by
  unfold State.raw
  rw [State.reg_p, if_pos rfl]
  exact Fld.put_one_keeps hf hw hm

theorem KeepsBits.ite {u : State} {c : Prop} [Decidable c] (h : KeepsBits a s t) (k : KeepsBits a s u) :
    KeepsBits a s (if c then t else u) := by
  split
  · exact h
  · exact k

theorem KeepsBits.foldl {α : Type} {f : State → α → State} (hf : ∀ t x, KeepsBits a t (f t x)) :
    ∀ (l : List α) (t : State), KeepsBits a t (l.foldl f t)
  | [], _ => .refl
  | x :: r, t => (hf t x).trans (KeepsBits.foldl hf r (f t x))

theorem KeepsBits.isSet {f : Fld} (h : KeepsBits a s t) (hf : f.lo < 32) (hw : f.w = 1) (k : s.isSet a f) : t.isSet a f := by
  obtain ⟨i, w⟩ := f
  subst hw
  exact (bit_iff hf).2 (h _ ((bit_iff hf).1 k))

/-! ### Channels and units -/

@[simp] theorem State.reg_setChan {c : TdcChan} : (s.setChan e c).reg a = s.reg a := rfl
@[simp] theorem State.reg_setUnit {x : TdcUnit} : (s.setUnit m x).reg a = s.reg a := rfl

theorem State.chan_of_tdc (h : t.tdc = s.tdc) : t.chan e = s.chan e := congrArg (fun x : Tdc => Tbl.get TdcChan.reset x.chans e) h
theorem State.unit_of_tdc (h : t.tdc = s.tdc) : t.unit m = s.unit m := congrArg (fun x : Tdc => Tbl.get TdcUnit.reset x.units m) h

namespace State
variable {f : Fld} {b w : Bool} {i : Int} {k c d p : Nat} {r : Rec}

@[simp] theorem chan_setChan {x : TdcChan} : (s.setChan n x).chan e = if e = n then x else s.chan e := Tbl.get_set
@[simp] theorem chan_setUnit {x : TdcUnit} : (s.setUnit n x).chan e = s.chan e := (rfl : (s.setUnit n x).chan e = s.chan e).trans rfl
@[simp] theorem chan_p : (s.p a f n).chan e = s.chan e := chan_of_tdc p_tdc
@[simp] theorem chan_pb : (s.pb a f b).chan e = s.chan e := chan_of_tdc pb_tdc
@[simp] theorem chan_setReg {v : Word} : (s.setReg a v).chan e = s.chan e := chan_of_tdc (setReg_tdc ..)
@[simp] theorem chan_inc : (s.inc a f).chan e = s.chan e := chan_of_tdc inc_tdc
@[simp] theorem chan_raw : (s.raw a f).chan e = s.chan e := chan_of_tdc raw_tdc
@[simp] theorem chan_setRegN : (s.setRegN a n).chan e = s.chan e := chan_of_tdc setRegN_tdc
@[simp] theorem chan_setPair : (s.setPair a n).chan e = s.chan e := chan_of_tdc setPair_tdc
@[simp] theorem chan_setPairI : (s.setPairI a i).chan e = s.chan e := chan_of_tdc setPairI_tdc
@[simp] theorem chan_record : (s.record w r).chan e = s.chan e := chan_of_tdc record_tdc
@[simp] theorem chan_fire : (s.fire n k).chan e = s.chan e := chan_of_tdc fire_tdc
@[simp] theorem chan_fault : (s.fault k c d p).chan e = s.chan e := chan_of_tdc fault_tdc
@[simp] theorem chan_ite {q : Prop} [Decidable q] : (if q then s else t).chan e = if q then s.chan e else t.chan e :=
  apply_ite (chan · e) q s t

@[simp] theorem unit_setUnit {x : TdcUnit} : (s.setUnit n x).unit m = if m = n then x else s.unit m := Tbl.get_set
@[simp] theorem unit_setChan {x : TdcChan} : (s.setChan n x).unit m = s.unit m := (rfl : (s.setChan n x).unit m = s.unit m).trans rfl
@[simp] theorem unit_p : (s.p a f n).unit m = s.unit m := unit_of_tdc p_tdc
@[simp] theorem unit_pb : (s.pb a f b).unit m = s.unit m := unit_of_tdc pb_tdc
@[simp] theorem unit_setReg {v : Word} : (s.setReg a v).unit m = s.unit m := unit_of_tdc (setReg_tdc ..)
@[simp] theorem unit_inc : (s.inc a f).unit m = s.unit m := unit_of_tdc inc_tdc
@[simp] theorem unit_raw : (s.raw a f).unit m = s.unit m := unit_of_tdc raw_tdc
@[simp] theorem unit_setRegN : (s.setRegN a n).unit m = s.unit m := unit_of_tdc setRegN_tdc
@[simp] theorem unit_setPair : (s.setPair a n).unit m = s.unit m := unit_of_tdc setPair_tdc
@[simp] theorem unit_setPairI : (s.setPairI a i).unit m = s.unit m := unit_of_tdc setPairI_tdc
@[simp] theorem unit_record : (s.record w r).unit m = s.unit m := unit_of_tdc record_tdc
@[simp] theorem unit_fire : (s.fire n k).unit m = s.unit m := unit_of_tdc fire_tdc
@[simp] theorem unit_fault : (s.fault k c d p).unit m = s.unit m := unit_of_tdc fault_tdc
@[simp] theorem unit_ite {q : Prop} [Decidable q] : (if q then s else t).unit m = if q then s.unit m else t.unit m :=
  apply_ite (unit · m) q s t

end State

@[simp] theorem Changes.setChan_iff {c : TdcChan} (h : .tdc ∈ ps) : Changes A ps s (t.setChan e c) ↔ Changes A ps s t := by
  unfold State.setChan
  simp [h]

@[simp] theorem Changes.setUnit_iff {x : TdcUnit} (h : .tdc ∈ ps) : Changes A ps s (t.setUnit m x) ↔ Changes A ps s t := by
  unfold State.setUnit
  simp [h]

@[simp] theorem Changes.statusBit_iff {f : Fld} {b : Bool} (h : A R.TDC_STATUS) :
    Changes A ps s (t.statusBit f e b) ↔ Changes A ps s t := Changes.p_iff h

/-! ### Records and window events -/

section
variable {kind st v w6 w7 seg : Nat} {sub gap trig : Bool} {time : Tick64}

@[simp] theorem Changes.tdcRec_iff : Changes A ps s (t.tdcRec kind e st sub v w6 w7 time seg gap trig) ↔ Changes A ps s t := by
  unfold State.tdcRec
  simp

@[simp] theorem State.reg_tdcRec : (s.tdcRec kind e st sub v w6 w7 time seg gap trig).reg a = s.reg a := by
  unfold State.tdcRec
  simp

@[simp] theorem State.chan_tdcRec : (s.tdcRec kind e st sub v w6 w7 time seg gap trig).chan n = s.chan n := by
  unfold State.tdcRec
  simp

@[simp] theorem State.unit_tdcRec : (s.tdcRec kind e st sub v w6 w7 time seg gap trig).unit m = s.unit m := by
  unfold State.tdcRec
  simp

end

section
variable {c : Nat}

@[simp] theorem Changes.windowEvent_iff (h : A (R.TDC_Mm_CNT m)) : Changes A ps s (t.windowEvent m c) ↔ Changes A ps s t := by
  unfold State.windowEvent
  simp [h]

@[simp] theorem State.chan_windowEvent : (s.windowEvent m c).chan e = s.chan e := by
  unfold State.windowEvent
  simp

@[simp] theorem State.unit_windowEvent : (s.windowEvent m c).unit n = s.unit n := by
  unfold State.windowEvent
  simp

/-- An enabled window event counts, sets its event and is journaled. -/
theorem Logs.windowEvent (h : maskBit (s.ucfg m F.TDC_Mm_CFG_WEV_EN) (c - 1) = true) :
    Logs ((s.inc (R.TDC_Mm_CNT m) F.TDC_Mm_CNT_WEV).raw R.TDC_RAW F.TDC_RAW_WEV) (s.windowEvent m c) := by
  unfold State.windowEvent
  rw [if_neg (by simp [h])]
  exact .ite (.fire (.ite (.record (.refl _)) (.refl _))) (.ite (.record (.refl _)) (.refl _))

@[simp] theorem Changes.dropWin_iff (h : A (R.TDC_Mm_STATUS m)) (ht : .tdc ∈ ps) :
    Changes A ps s (t.dropWin m) ↔ Changes A ps s t := by
  unfold State.dropWin
  simp [h, ht]

@[simp] theorem Changes.windowEnd_iff (h : A (R.TDC_Mm_CNT m)) (h' : A (R.TDC_Mm_STATUS m)) (ht : .tdc ∈ ps) :
    Changes A ps s (t.windowEnd m c) ↔ Changes A ps s t := by
  unfold State.windowEnd
  split
  · rfl
  · simp [h, h', ht]

@[simp] theorem State.chan_windowEnd : (s.windowEnd m c).chan e = s.chan e := by
  unfold State.windowEnd State.dropWin
  split
  · rfl
  · simp

end

/-! ### Results -/

/-- `A` holds the registers of unit `m` that its events and its statistics write. -/
structure BlockRegs (A : Nat → Prop) (m : Nat) : Prop where
  status : A (R.TDC_Mm_STATUS m)
  cnt : A (R.TDC_Mm_CNT m)
  used : A (R.TDC_Mm_STAT_USED m)
  prog : A (R.TDC_Mm_STAT_PROG m)
  mean : A (R.TDC_Mm_MEAN_LO m)
  mean' : A (R.TDC_Mm_MEAN_LO m + 4)
  sd : A (R.TDC_Mm_SD_LO m)
  sd' : A (R.TDC_Mm_SD_LO m + 4)
  mn : A (R.TDC_Mm_MIN_LO m)
  mn' : A (R.TDC_Mm_MIN_LO m + 4)
  mx : A (R.TDC_Mm_MAX_LO m)
  mx' : A (R.TDC_Mm_MAX_LO m + 4)

/-- `A` holds the registers of unit `m` that a result writes. -/
structure UnitRegs (A : Nat → Prop) (m : Nat) : Prop extends BlockRegs A m where
  last : A (R.TDC_Mm_LAST_LO m)
  last' : A (R.TDC_Mm_LAST_LO m + 4)

/-- What holds all registers of the unit holds those. -/
theorem UnitRegs.ofRange (h : ∀ a, R.TDC_Mm_CFG m ≤ a → a < R.TDC_Mm_CFG m + 0x80 → A a) : UnitRegs A m := by
  have k (a d : Nat) (hd : d < 0x80) (ha : a = 0x80 * m + (0x380400 + d)) : A a :=
    h a (by simp only [R.TDC_Mm_CFG]; omega) (by simp only [R.TDC_Mm_CFG]; omega)
  exact ⟨⟨k _ 0x10 (by decide) (Nat.add_comm ..), k _ 0x14 (by decide) (Nat.add_comm ..), k _ 0x18 (by decide) (Nat.add_comm ..),
    k _ 0x1C (by decide) (Nat.add_comm ..), k _ 0x38 (by decide) (Nat.add_comm ..),
    k _ 0x3C (by decide) (by simp only [R.TDC_Mm_MEAN_LO]; omega), k _ 0x40 (by decide) (Nat.add_comm ..),
    k _ 0x44 (by decide) (by simp only [R.TDC_Mm_SD_LO]; omega), k _ 0x48 (by decide) (Nat.add_comm ..),
    k _ 0x4C (by decide) (by simp only [R.TDC_Mm_MIN_LO]; omega), k _ 0x50 (by decide) (Nat.add_comm ..),
    k _ 0x54 (by decide) (by simp only [R.TDC_Mm_MAX_LO]; omega)⟩, k _ 0x30 (by decide) (Nat.add_comm ..),
    k _ 0x34 (by decide) (by simp only [R.TDC_Mm_LAST_LO]; omega)⟩

section
variable {freq : Bool} {x : Int} {w : TdcWin} {u : Tick64} {c seg : Nat}

@[simp] theorem Changes.latch_iff (h : BlockRegs A m) (ht : .tdc ∈ ps) : Changes A ps s (t.latch m freq) ↔ Changes A ps s t := by
  obtain ⟨h1, h2, h3, h4, h5, h6, h7, h8, h9, h10, h11, h12⟩ := h
  unfold State.latch
  simp [*]

@[simp] theorem Changes.sample_iff (h : BlockRegs A m) (ht : .tdc ∈ ps) : Changes A ps s (t.sample m freq x) ↔ Changes A ps s t := by
  unfold State.sample
  simp [h, h.prog, h.cnt, ht]

@[simp] theorem Changes.result_iff (h : UnitRegs A m) (ht : .tdc ∈ ps) : Changes A ps s (t.result m freq x) ↔ Changes A ps s t := by
  unfold State.result
  simp [h.toBlockRegs, h.cnt, h.last, h.last', ht]

@[simp] theorem Changes.stop_iff (h : UnitRegs A m) (ht : .tdc ∈ ps) : Changes A ps s (t.stop m w u seg) ↔ Changes A ps s t := by
  unfold State.stop
  simp [h, ht]

@[simp] theorem Changes.chanOut_iff (h : ∀ m < 4, UnitRegs A m) (ht : .tdc ∈ ps) :
    Changes A ps s (t.chanOut e) ↔ Changes A ps s t := by
  refine Changes.foldl_mem_iff fun t m hm => ?_
  have k := h m (List.mem_range.1 hm)
  simp [k.cnt, k.status, ht]

@[simp] theorem State.chan_latch : (s.latch m freq).chan e = s.chan e := by
  unfold State.latch
  simp

@[simp] theorem State.chan_sample : (s.sample m freq x).chan e = s.chan e := by
  unfold State.sample
  simp

@[simp] theorem State.chan_result : (s.result m freq x).chan e = s.chan e := by
  unfold State.result
  simp

@[simp] theorem State.chan_stop : (s.stop m w u seg).chan e = s.chan e := by
  unfold State.stop
  simp

theorem State.chan_foldl {α : Type} {f : State → α → State} {l : List α} (hf : ∀ t x, (f t x).chan e = t.chan e) :
    (l.foldl f s).chan e = s.chan e := by
  induction l generalizing s with
  | nil => rfl
  | cons x r ih => exact ih.trans (hf s x)

@[simp] theorem State.chan_chanOut : (s.chanOut e).chan n = s.chan n := State.chan_foldl fun t x => by simp

end

theorem KeepsBits.windowEvent : KeepsBits R.TDC_RAW s (s.windowEvent m c) := by
  by_cases h : maskBit (s.ucfg m F.TDC_Mm_CFG_WEV_EN) (c - 1) = true
  · refine KeepsBits.trans ?_ (.ofLogs (by decide) (.windowEvent h))
    refine KeepsBits.trans (.ofReg ?_) (.raw (by decide) rfl)
    rw [State.reg_inc, if_neg (by simp only [R.TDC_RAW, R.TDC_Mm_CNT]; omega)]
  · unfold State.windowEvent
    rw [if_pos (by simpa using h)]
    exact .refl

theorem unitRegs_ne_raw : UnitRegs (R.TDC_RAW ≠ ·) m :=
  .ofRange fun a h _ e => by simp only [R.TDC_Mm_CFG, R.TDC_RAW] at h e; omega

theorem KeepsBits.latch : KeepsBits R.TDC_RAW s (s.latch m freq) := by
  obtain ⟨⟨h1, h2, h3, h4, h5, h6, h7, h8, h9, h10, h11, h12⟩, -, -⟩ := unitRegs_ne_raw (m := m)
  unfold State.latch
  refine KeepsBits.trans (.ofReg ?_) (.raw (by decide) rfl)
  simp only [State.reg_setRegN, State.reg_setUnit, State.reg_p, State.reg_setPairI, State.reg_setPair, if_neg h1, if_neg h3,
    if_neg h4, if_neg h5, if_neg h6, if_neg h7, if_neg h8, if_neg h9, if_neg h10, if_neg h11, if_neg h12]

theorem KeepsBits.sample : KeepsBits R.TDC_RAW s (s.sample m freq x) := by
  obtain ⟨⟨-, h2, -, h4, -⟩, -, -⟩ := unitRegs_ne_raw (m := m)
  unfold State.sample
  extract_lets u u' d near y v v' z
  have hz : KeepsBits R.TDC_RAW s z := .ofReg (by simp [z, y, h2, h4])
  exact .ite (hz.trans .latch) hz

theorem KeepsBits.result : KeepsBits R.TDC_RAW s (s.result m freq x) := by
  obtain ⟨-, h1, h2⟩ := unitRegs_ne_raw (m := m)
  unfold State.result
  extract_lets y z z'
  have hy : KeepsBits R.TDC_RAW s y := .ofReg (by simp [y, h1, h2])
  have hz : KeepsBits R.TDC_RAW s z := .ite (hy.trans .windowEvent) hy
  have hz' : KeepsBits R.TDC_RAW s z' := .ite (hz.trans .windowEvent) hz
  exact hz'.trans .sample

theorem KeepsBits.stop : KeepsBits R.TDC_RAW s (s.stop m w u seg) := by
  unfold State.stop
  extract_lets o same f w' u' y sub v z
  have hy : KeepsBits R.TDC_RAW s y := .refl
  have hz : KeepsBits R.TDC_RAW s z := hy.trans (.ofReg State.reg_tdcRec)
  exact .ite .refl (.ite hy (hz.trans .result))

/-! ### Channels -/

/-- The registers of a channel that show its state. -/
structure ChanRegs (A : Nat → Prop) (e : Nat) : Prop where
  status : A (R.TDC_En_STATUS e)
  all : A R.TDC_STATUS
  s1 : A (R.TDC_En_CAL_S1 e)
  span : A (R.TDC_En_CAL_SPAN e)

/-- The registers of channel `e` show its state, before the windows that stop on it end. -/
def State.chanShown (s : State) (e : Nat) : State :=
  let a := R.TDC_En_STATUS e
  let s' := ((s.pb a F.TDC_En_STATUS_IN_SERVICE (s.inService e)).pb a F.TDC_En_STATUS_CAL_A (s.chan e).a.cal.isSome).pb a
    F.TDC_En_STATUS_CAL_B (s.chan e).b.cal.isSome
  ((s'.statusBit F.TDC_STATUS_IN_SERVICE e (s.inService e)).setRegN (R.TDC_En_CAL_S1 e)
    (enc 21 (((s.activeCal e).cal.map (·.1)).getD 0))).setRegN (R.TDC_En_CAL_SPAN e)
    (enc 21 (((s.activeCal e).cal.map (·.2)).getD 0))

theorem chanStatus_eq : s.chanStatus e =
    if s.on (R.TDC_En_STATUS e) F.TDC_En_STATUS_IN_SERVICE && !s.inService e then (s.chanShown e).chanOut e
    else s.chanShown e := rfl

@[simp] theorem Changes.chanShown_iff (h : ChanRegs A e) : Changes A ps s (t.chanShown e) ↔ Changes A ps s t := by
  unfold State.chanShown
  simp [h.status, h.all, h.s1, h.span]

@[simp] theorem State.chan_chanShown : (s.chanShown e).chan n = s.chan n := by
  unfold State.chanShown State.statusBit
  simp

@[simp] theorem Changes.chanStatus_iff (h : ChanRegs A e) (hu : ∀ m < 4, UnitRegs A m) (ht : .tdc ∈ ps) :
    Changes A ps s (t.chanStatus e) ↔ Changes A ps s t := by
  rw [chanStatus_eq, Changes.ite_iff, Changes.chanOut_iff hu ht, Changes.chanShown_iff h]
  simp

@[simp] theorem State.chan_chanStatus : (s.chanStatus e).chan n = s.chan n := by
  rw [chanStatus_eq]
  simp

/-- A channel that was out of service, or stays in service, ends no window. -/
theorem chanStatus_stays (h : s.g (R.TDC_En_STATUS e) F.TDC_En_STATUS_IN_SERVICE = 0 ∨ s.inService e = true) :
    s.chanStatus e = s.chanShown e := by
  rw [chanStatus_eq]
  exact if_neg (by rcases h with h | h <;> simp [State.on, h])

end Sys2Proof.Machine
end

section

/-! ## Edges of event inputs and their stamps (R343 to R353) -/

set_option Elab.async false

namespace Sys2Proof.Machine

variable {A : Nat → Prop} {ps : List Part} {s t : State} {a e m n code since : Nat} {r : Bool} {hold : Option Nat}

@[simp] theorem sharedReg_TDC_En_STATUS (e : Fin 8) : sharedReg (R.TDC_En_STATUS e) = false := by revert e; decide
@[simp] theorem sharedReg_TDC_En_CNT (e : Fin 8) : sharedReg (R.TDC_En_CNT e) = false := by revert e; decide
@[simp] theorem sharedReg_TDC_En_EVENTS (e : Fin 8) : sharedReg (R.TDC_En_EVENTS e) = false := by revert e; decide
@[simp] theorem sharedReg_TDC_En_FIFO_STATUS (e : Fin 8) : sharedReg (R.TDC_En_FIFO_STATUS e) = false := by revert e; decide

/-- The direction of the edge is one that channel `e` selects. -/
abbrev State.edgeSelected (s : State) (e : Nat) (r : Bool) : Prop :=
  s.g (R.TDC_En_CFG e) F.TDC_En_CFG_EDGE = 2 ∨ decide (s.g (R.TDC_En_CFG e) F.TDC_En_CFG_EDGE = 0) = r

/-- What a captured edge holds. -/
def State.capture (s : State) (e code : Nat) (s1 span : Int) : TdcCap :=
  ⟨code % 2 ^ 13, s.nowTick, (2 ^ 49 + s.rate).toNat, s1, span, s.evtDelay e,
    s.g (R.TDC_En_STATUS e) F.TDC_En_STATUS_SWAPS, (s.chan e).lostCap, s.seg⟩

/-- A selected edge of a channel that stamps and is not stuck. -/
def State.takeEdge (s : State) (e cfg code since : Nat) (hold : Option Nat) : State :=
  match (s.activeCal e).cal with
  | none => s
  | some (s1, span) =>
    let s' := s.setChan e { s.chan e with back := false }
    if since < 3200 then
      ((s'.inc (R.TDC_En_CNT e) F.TDC_En_CNT_DEAD).raw R.TDC_RAW F.TDC_RAW_DEAD).edgeLost e (capStamp (s.capture e code s1 span))
    else if (s.chan e).back then s'
    else if 32 ≤ (s.chan e).caps.length then
      ((s'.inc (R.TDC_En_CNT e) F.TDC_En_CNT_OVERRUN).raw R.TDC_RAW F.TDC_RAW_OVERRUN).edgeLost e
        (capStamp (s.capture e code s1 span))
    else if (match hold with
        | some t => decide (t < 2 * s.g (R.TDC_En_LIMITS e) F.TDC_En_LIMITS_FILT)
        | none => false) then
      ((s'.inc (R.TDC_En_CNT e) F.TDC_En_CNT_GLITCH).raw R.TDC_RAW F.TDC_RAW_GLITCH).setChan e
        { s.chan e with back := cfg == 2 }
    else s'.setChan e { s.chan e with caps := (s.chan e).caps ++ [s.capture e code s1 span], lostCap := false }

/-- The level of the input shows. -/
def State.leveled (s : State) (e : Nat) (r : Bool) : State := s.pb (R.TDC_En_STATUS e) F.TDC_En_STATUS_LEVEL r

/-- A stuck channel that sees an edge is no longer stuck. -/
def State.unstuck (s : State) (e : Nat) : State :=
  ((s.pb (R.TDC_En_STATUS e) F.TDC_En_STATUS_STUCK false).statusBit F.TDC_STATUS_STUCK e false).chanStatus e

section
variable {f : Fld}

theorem leveled_g (h : f.lo + f.w ≤ 5 ∨ 6 ≤ f.lo) : (s.leveled e r).g a f = s.g a f := by
  unfold State.leveled State.g
  rw [State.reg_pb]
  split
  · next k => rw [k, Fld.get_put_ne (by decide) (by simpa [or_comm] using h)]
  · rfl

theorem leveled_g_ne (h : a ≠ R.TDC_En_STATUS e) : (s.leveled e r).g a f = s.g a f := by
  unfold State.leveled State.g
  rw [State.reg_pb, if_neg h]

theorem leveled_level : (s.leveled e r).g (R.TDC_En_STATUS e) F.TDC_En_STATUS_LEVEL = if r then 1 else 0 := by
  unfold State.leveled State.g
  cases r <;> simp [Fld.get_put, b2n]

@[simp] theorem leveled_chan : (s.leveled e r).chan n = s.chan n := State.chan_pb

theorem leveled_activeCal : (s.leveled e r).activeCal n = s.activeCal n := by
  simp [State.activeCal, State.on, leveled_g]

theorem leveled_stamps : (s.leveled e r).stamps n = s.stamps n := by
  simp [State.stamps, State.chanEn, State.on, leveled_g, leveled_activeCal]

theorem leveled_inService : (s.leveled e r).inService n = s.inService n := by
  simp [State.inService, State.on, leveled_g, leveled_stamps]

theorem leveled_running : (s.leveled e r).running = s.running := by
  simp [State.running, leveled_g]

end

/-- An edge in a direction that the channel does not select shows its level alone. -/
theorem tdcEdge_unselected (h : ¬ s.edgeSelected e r) : s.tdcEdge e r code since hold = s.leveled e r := by
  unfold State.tdcEdge
  extract_lets st cfg x sel
  have hs : sel = false := by
    obtain ⟨h2, h0⟩ := not_or.1 h
    simpa [sel, cfg, State.edgeSelected] using ⟨h2, h0⟩
  rw [if_pos (by simp [hs])]
  rfl

/-- A selected edge of a channel in service. -/
theorem tdcEdge_selected (h : s.edgeSelected e r) (hr : s.running = true) (hs : s.stamps e = true) (ht : s.runs .timescale = true) :
    s.tdcEdge e r code since hold = (if s.on (R.TDC_En_STATUS e) F.TDC_En_STATUS_STUCK then (s.leveled e r).unstuck e
      else s.leveled e r).takeEdge e (s.g (R.TDC_En_CFG e) F.TDC_En_CFG_EDGE) code since hold := by
  have hsel : (s.g (R.TDC_En_CFG e) F.TDC_En_CFG_EDGE == 2 || (s.g (R.TDC_En_CFG e) F.TDC_En_CFG_EDGE == 0) == r) = true := by
    rcases h with h | h
    · simp [h]
    · rw [← h]
      simp [beq_eq_decide]
  have hst : (s.leveled e r).on (R.TDC_En_STATUS e) F.TDC_En_STATUS_STUCK = s.on (R.TDC_En_STATUS e) F.TDC_En_STATUS_STUCK := by
    simp [State.on, leveled_g]
  unfold State.tdcEdge
  extract_lets st cfg x sel
  have hc : ((!sel || !x.running || !x.stamps e || !x.runs .timescale) = true) = False := by
    have h1 : x.running = true := leveled_running.trans hr
    have h2 : x.stamps e = true := leveled_stamps.trans hs
    have h3 : x.runs .timescale = true := ht
    have h4 : sel = true := hsel
    simp [h1, h2, h3, h4]
  rw [if_neg (by simp only [hc, not_false_eq_true]), ← hst]
  rfl

/-! ### What becomes of an edge -/

section
variable {s1 span : Int} {cfg : Nat} (hc : (s.activeCal e).cal = some (s1, span))
include hc

theorem takeEdge_captured (h : 3200 ≤ since) (hb : (s.chan e).back = false) (hl : (s.chan e).caps.length < 32)
    (hh : ∀ ns ∈ hold, 2 * s.g (R.TDC_En_LIMITS e) F.TDC_En_LIMITS_FILT ≤ ns) : s.takeEdge e cfg code since hold =
    (s.setChan e { s.chan e with back := false }).setChan e
      { s.chan e with caps := (s.chan e).caps ++ [s.capture e code s1 span], lostCap := false } := by
  unfold State.takeEdge
  rw [hc]
  dsimp only
  rw [if_neg (by omega), if_neg (by simp [hb]), if_neg (by omega), if_neg ?_]
  cases hold with
  | none => simp
  | some ns => simpa using hh ns rfl

theorem takeEdge_dead (h : since < 3200) : s.takeEdge e cfg code since hold =
    (((s.setChan e { s.chan e with back := false }).inc (R.TDC_En_CNT e) F.TDC_En_CNT_DEAD).raw R.TDC_RAW
      F.TDC_RAW_DEAD).edgeLost e (capStamp (s.capture e code s1 span)) := by
  unfold State.takeEdge
  rw [hc]
  exact if_pos h

theorem takeEdge_overrun (h : 3200 ≤ since) (hb : (s.chan e).back = false) (hl : 32 ≤ (s.chan e).caps.length) :
    s.takeEdge e cfg code since hold =
    (((s.setChan e { s.chan e with back := false }).inc (R.TDC_En_CNT e) F.TDC_En_CNT_OVERRUN).raw R.TDC_RAW
      F.TDC_RAW_OVERRUN).edgeLost e (capStamp (s.capture e code s1 span)) := by
  unfold State.takeEdge
  rw [hc]
  dsimp only
  rw [if_neg (by omega), if_neg (by simp [hb]), if_pos hl]

theorem takeEdge_glitch {ns : Nat} (h : 3200 ≤ since) (hb : (s.chan e).back = false) (hl : (s.chan e).caps.length < 32)
    (hh : ns < 2 * s.g (R.TDC_En_LIMITS e) F.TDC_En_LIMITS_FILT) : s.takeEdge e cfg code since (some ns) =
    (((s.setChan e { s.chan e with back := false }).inc (R.TDC_En_CNT e) F.TDC_En_CNT_GLITCH).raw R.TDC_RAW
      F.TDC_RAW_GLITCH).setChan e { s.chan e with back := cfg == 2 } := by
  unfold State.takeEdge
  rw [hc]
  dsimp only
  rw [if_neg (by omega), if_neg (by simp [hb]), if_neg (by omega), if_pos (by simpa using hh)]

end

/-! ### Lost edges -/

@[simp] theorem Changes.edgeLost_iff {u : Tick64} (h : .tdc ∈ ps) : Changes A ps s (t.edgeLost e u) ↔ Changes A ps s t := by
  unfold State.edgeLost
  refine (Changes.foldl_iff fun t m => ?_).trans (Changes.setChan_iff h)
  split
  · simp [h]
  · rfl

theorem State.reg_foldl {α : Type} {f : State → α → State} {l : List α} (hf : ∀ t x, (f t x).reg a = t.reg a) :
    (l.foldl f s).reg a = s.reg a := by
  induction l generalizing s with
  | nil => rfl
  | cons x r ih => exact ih.trans (hf s x)

@[simp] theorem State.reg_edgeLost {u : Tick64} : (s.edgeLost e u).reg a = s.reg a := by
  unfold State.edgeLost
  refine (State.reg_foldl fun t m => ?_).trans State.reg_setChan
  split
  · simp
  · rfl

theorem State.chan_edgeLost {u : Tick64} : (s.edgeLost e u).chan e =
    { s.chan e with lost := (s.chan e).lost + 1, lostCap := true, lostAt := (u :: (s.chan e).lostAt).take 128 } := by
  unfold State.edgeLost
  refine (State.chan_foldl fun t m => ?_).trans ((State.chan_setChan).trans (if_pos rfl))
  split
  · simp
  · rfl

/-- However an edge is taken, the channel's count and its timing are all that changes. -/
theorem Changes.takeEdge_iff {cfg : Nat} (h : A (R.TDC_En_CNT e)) (ht : .tdc ∈ ps) :
    Changes A ps s (t.takeEdge e cfg code since hold) ↔ Changes A ps s t := by
  unfold State.takeEdge
  split
  · rfl
  · simp [h, ht]

theorem State.reg_takeEdge {cfg : Nat} (h : a ≠ R.TDC_En_CNT e) (h' : a ≠ R.TDC_RAW) :
    (s.takeEdge e cfg code since hold).reg a = s.reg a := by
  unfold State.takeEdge
  split
  · rfl
  · simp [h, h']

/-! ### A conversion -/

/-- The oldest capture of channel `e` is stamped, counted and journaled. -/
def State.stamped (s : State) (e : Nat) (x : TdcCap) (l : List TdcCap) : State :=
  let c := s.chan e
  let s := s.setChan e { c with
    caps := l, hist := ((capStamp x, x.seg) :: c.hist).take 128,
    gone := if 128 ≤ c.hist.length then c.hist.getLast?.map (fun h => h.1) else c.gone,
    lostPush := c.lostPush || x.lost }
  let s := s.setReg (R.TDC_En_EVENTS e) (s.reg (R.TDC_En_EVENTS e) + 1#32)
  let s := s.pushEvent e (round64 (capStamp x))
  s.tdcRec 0 e 0 false 0 (s.reg (R.TDC_En_EVENTS e)).toNat x.swaps (round64 (capStamp x)) x.seg false false

/-- The open window of unit `m` takes the stop `u`, if it stops on channel `e`. -/
def State.stopOn (s : State) (e : Nat) (u : Tick64) (seg m : Nat) : State :=
  match (s.unit m).win with
  | some w => if s.ucfg m F.TDC_Mm_CFG_STOP = e then s.stop m w u seg else s
  | none => s

/-- The open windows that stop on channel `e` take the stop `u`. -/
def State.stopAll (s : State) (e : Nat) (u : Tick64) (seg : Nat) : State :=
  (List.range 4).foldl (fun s m => s.stopOn e u seg m) s

section
variable {x : TdcCap} {l : List TdcCap} {u : Tick64} {seg : Nat}

theorem tdcConvert_eq (hc : (s.chan e).caps = x :: l) (hr : s.runs .timescale = true) :
    s.tdcConvert e = ((s.stamped e x l).stopAll e (capStamp x) x.seg).giveStart e (capStamp x) := by
  unfold State.tdcConvert
  extract_lets c
  split
  · next k => rw [hc] at k; cases k
  · next y k' k =>
    obtain ⟨rfl, rfl⟩ := List.cons.inj (hc.symm.trans k)
    rw [if_neg (by simp [hr])]
    rfl

@[simp] theorem Changes.giveStart_iff (h : .tdc ∈ ps) : Changes A ps s (t.giveStart n u) ↔ Changes A ps s t :=
  Changes.foldl_iff fun t m => by simp [h]

@[simp] theorem State.reg_giveStart : (s.giveStart n u).reg a = s.reg a := State.reg_foldl fun t m => by simp

@[simp] theorem State.chan_giveStart : (s.giveStart n u).chan e = s.chan e := State.chan_foldl fun t m => by simp

@[simp] theorem Changes.stopOn_iff (h : UnitRegs A m) (ht : .tdc ∈ ps) :
    Changes A ps s (t.stopOn e u seg m) ↔ Changes A ps s t := by
  unfold State.stopOn
  split
  · simp [h, ht]
  · rfl

@[simp] theorem State.chan_stopOn : (s.stopOn e u seg m).chan n = s.chan n := by
  unfold State.stopOn
  split
  · simp
  · rfl

@[simp] theorem Changes.stopAll_iff (h : ∀ m < 4, UnitRegs A m) (ht : .tdc ∈ ps) :
    Changes A ps s (t.stopAll e u seg) ↔ Changes A ps s t :=
  Changes.foldl_mem_iff fun _ m hm => Changes.stopOn_iff (h m (List.mem_range.1 hm)) ht

@[simp] theorem State.chan_stopAll : (s.stopAll e u seg).chan n = s.chan n := State.chan_foldl fun _ _ => State.chan_stopOn

/-- Windows none of which stops on the channel take no stop. -/
theorem stopAll_none (h : ∀ m : Fin 4, (s.unit m).win.isSome = true → s.ucfg m F.TDC_Mm_CFG_STOP ≠ e) : s.stopAll e u seg = s := by
  have k (m : Nat) (hm : m < 4) : s.stopOn e u seg m = s := by
    unfold State.stopOn
    split
    · next w hw => exact if_neg (h ⟨m, hm⟩ (by rw [hw]; rfl))
    · rfl
  unfold State.stopAll
  simp [List.range, List.range.loop, k]

theorem KeepsBits.stopAll : KeepsBits R.TDC_RAW s (s.stopAll e u seg) := by
  refine KeepsBits.foldl (fun t m => ?_) _ _
  unfold State.stopOn
  split
  · exact .ite .stop .refl
  · exact .refl

/-! ### Starts -/

@[simp] theorem State.starts_latch {q : Bool} : ((s.latch n q).unit m).starts = (s.unit m).starts := by
  unfold State.latch
  by_cases h : m = n <;> simp [h]

@[simp] theorem State.starts_sample {q : Bool} {v : Int} : ((s.sample n q v).unit m).starts = (s.unit m).starts := by
  unfold State.sample
  by_cases h : m = n <;> simp [h, apply_ite TdcUnit.starts]

@[simp] theorem State.starts_result {q : Bool} {v : Int} : ((s.result n q v).unit m).starts = (s.unit m).starts := by
  unfold State.result
  simp only [State.starts_sample, State.unit_ite, State.unit_windowEvent, State.unit_setPairI, ite_self]

theorem State.starts_setWin {w : Option TdcWin} : ((s.setUnit n { s.unit n with win := w }).unit m).starts = (s.unit m).starts := by
  by_cases h : m = n <;> simp [h]

@[simp] theorem State.starts_stop {w : TdcWin} : ((s.stop n w u seg).unit m).starts = (s.unit m).starts := by
  unfold State.stop
  extract_lets o same freq w' u' x sub v y
  have hx : (x.unit m).starts = (s.unit m).starts := State.starts_setWin
  split
  · rfl
  · split
    · exact hx
    · simp [y, hx]

@[simp] theorem State.starts_stopOn : ((s.stopOn e u seg n).unit m).starts = (s.unit m).starts := by
  unfold State.stopOn
  split
  · split
    · exact State.starts_stop
    · rfl
  · rfl

@[simp] theorem State.starts_stopAll : ((s.stopAll e u seg).unit m).starts = (s.unit m).starts := by
  unfold State.stopAll
  simp [List.range, List.range.loop]

/-- Unit `m` takes the start `u`, if it starts on channel `n`. -/
def State.giveOn (s : State) (n : Nat) (u : Tick64) (m : Nat) : State :=
  if s.unitOn m && s.ucfg m F.TDC_Mm_CFG_START == n then
    s.setUnit m { s.unit m with starts := (s.unit m).starts ++ [u] }
  else s

theorem State.starts_giveOn : ((s.giveOn n u e).unit m).starts =
    if m = e ∧ (s.unitOn m && s.ucfg m F.TDC_Mm_CFG_START == n) = true then (s.unit m).starts ++ [u] else (s.unit m).starts := by
  unfold State.giveOn
  by_cases h : m = e
  · subst h
    split <;> simp [*]
  · rw [if_neg fun k : m = e ∧ _ => h k.1]
    split <;> simp [h]

theorem State.giveOn_takes : ((s.giveOn n u e).unitOn m && (s.giveOn n u e).ucfg m F.TDC_Mm_CFG_START == n) =
    (s.unitOn m && s.ucfg m F.TDC_Mm_CFG_START == n) := by
  unfold State.giveOn
  split <;> rfl

theorem State.starts_foldl_giveOn {l : List Nat} (hl : l.Nodup) : ((l.foldl (fun s => s.giveOn n u) s).unit m).starts =
    if m ∈ l ∧ (s.unitOn m && s.ucfg m F.TDC_Mm_CFG_START == n) = true then (s.unit m).starts ++ [u]
    else (s.unit m).starts := by
  induction l generalizing s with
  | nil => simp
  | cons j r ih =>
    obtain ⟨hj, hr⟩ := List.nodup_cons.1 hl
    rw [List.foldl_cons, ih hr, State.giveOn_takes, State.starts_giveOn]
    by_cases h : m = j
    · subst h
      simp [hj]
    · simp [h]

/-- Every unit that starts on channel `n` takes the start. -/
theorem State.starts_giveStart (m : Fin 4) (ho : s.unitOn m = true) (hs : s.ucfg m F.TDC_Mm_CFG_START = n) :
    ((s.giveStart n u).unit m).starts = (s.unit m).starts ++ [u] :=
  (State.starts_foldl_giveOn (l := List.range 4) List.nodup_range).trans
    (if_pos ⟨List.mem_range.2 m.isLt, by simp [ho, hs]⟩)

end

end Sys2Proof.Machine
end

section

/-! ## Event edges (R343, R344, R348, R349, R353) -/

set_option Elab.async false

namespace Sys2Proof.Machine

variable {A : Nat → Prop} {ps : List Part} {s t : State} {a e m n code since : Nat} {r : Bool} {hold : Option Nat}

theorem leveled_capture {s1 span : Int} : (s.leveled e r).capture e code s1 span = s.capture e code s1 span := by
  have h : (s.leveled e r).evtDelay e = s.evtDelay e := by
    simp [State.evtDelay, State.regI, State.leveled]
  have htsc : (s.leveled e r).tsc = s.tsc := State.pb_tsc
  have hspr : (s.leveled e r).spr = s.spr := State.setReg_spr ..
  have hnow : (s.leveled e r).nowTick = s.nowTick := by
    unfold State.nowTick State.now
    rw [htsc]
  have hseg : (s.leveled e r).seg = s.seg := by
    simp [State.seg, hspr, htsc, State.on, leveled_g]
  have hrate : (s.leveled e r).rate = s.rate := by
    unfold State.rate
    rw [htsc]
  unfold State.capture
  rw [h, leveled_g (by decide), leveled_chan, hnow, hseg, hrate]

@[simp] theorem Changes.leveled_iff (h : A (R.TDC_En_STATUS e)) : Changes A ps s (t.leveled e r) ↔ Changes A ps s t :=
  Changes.pb_iff h

section
variable {s1 span : Int} (hs : s.inReset = false) (hr : s.running = true) (hst : s.stamps e = true)
  (ht : s.runs .timescale = true) (h0 : s.g (R.TDC_En_STATUS e) F.TDC_En_STATUS_STUCK = 0) (hsel : s.edgeSelected e r)
include hr hst ht h0 hsel

/-- A selected edge of a channel that is not stuck. -/
theorem tdcEdge_takes : s.tdcEdge e r code since hold =
    (s.leveled e r).takeEdge e (s.g (R.TDC_En_CFG e) F.TDC_En_CFG_EDGE) code since hold := by
  rw [tdcEdge_selected hsel hr hst ht, if_neg (by simp [State.on, h0])]

end

theorem leveled_filt : (s.leveled e r).g (R.TDC_En_LIMITS e) F.TDC_En_LIMITS_FILT = s.g (R.TDC_En_LIMITS e) F.TDC_En_LIMITS_FILT :=
  leveled_g_ne (by simp)

theorem leveled_cnt {f : Fld} : (s.leveled e r).g (R.TDC_En_CNT e) f = s.g (R.TDC_En_CNT e) f := by
  refine leveled_g_ne ?_
  simp only [R.TDC_En_CNT, R.TDC_En_STATUS]
  omega

theorem status_ne_raw : R.TDC_En_STATUS e ≠ R.TDC_RAW := by
  simp only [R.TDC_En_STATUS, R.TDC_RAW]
  omega

theorem cnt_ne_raw : R.TDC_En_CNT e ≠ R.TDC_RAW := by
  simp only [R.TDC_En_CNT, R.TDC_RAW]
  omega

theorem status_ne_cnt : R.TDC_En_STATUS e ≠ R.TDC_En_CNT e := by
  simp only [R.TDC_En_STATUS, R.TDC_En_CNT]
  omega

section
variable {f g : Fld} {c : TdcChan} {u : Tick64}

/-- An edge that is not taken, with its count and its event. -/
def State.missed (s : State) (e : Nat) (f g : Fld) : State :=
  ((s.setChan e { s.chan e with back := false }).inc (R.TDC_En_CNT e) f).raw R.TDC_RAW g

@[simp] theorem Changes.missed_iff (h : A (R.TDC_En_CNT e)) (ht : .tdc ∈ ps) :
    Changes A ps s (t.missed e f g) ↔ Changes A ps s t := by
  unfold State.missed
  simp [h, ht]

theorem missed_cnt (h : f.lo + f.w ≤ 32) : ((s.leveled e r).missed e f g).g (R.TDC_En_CNT e) f =
    min (s.g (R.TDC_En_CNT e) f + 1) (2 ^ f.w - 1) := by
  have k := State.g_inc (s := s.leveled e r) (a := R.TDC_En_CNT e) h
  rw [leveled_cnt] at k
  refine Eq.trans ?_ k
  simp [State.missed, State.g, cnt_ne_raw]

theorem missed_isSet (h : g.lo < 32) (hw : g.w = 1) : (s.missed e f g).isSet R.TDC_RAW g := by
  simp only [State.isSet, State.g, State.missed, State.reg_raw, if_true, Fld.get_put (by omega : g.lo + g.w ≤ 32), hw]
  rfl

theorem missed_level : ((s.leveled e r).missed e f g).g (R.TDC_En_STATUS e) F.TDC_En_STATUS_LEVEL = if r then 1 else 0 := by
  rw [← leveled_level (s := s) (e := e)]
  simp [State.missed, State.g, status_ne_raw, status_ne_cnt]

theorem missed_chan : (s.missed e f g).chan e = { s.chan e with back := false } := by
  simp [State.missed]

end

/-! ### An edge of a stuck channel -/

theorem State.on_of_g {b : Nat} {f g : Fld} (h : t.g a f = s.g b g) : t.on a f = s.on b g := by
  unfold State.on
  rw [h]

/-- Whether a channel stamps rests on its enables, its state and its calibration. -/
theorem stamps_congr (hc : t.on R.TDC_CTRL F.TDC_CTRL_EN = s.on R.TDC_CTRL F.TDC_CTRL_EN)
    (hf : t.on (R.TDC_En_CFG e) F.TDC_En_CFG_EN = s.on (R.TDC_En_CFG e) F.TDC_En_CFG_EN)
    (hd : t.on (R.TDC_En_STATUS e) F.TDC_En_STATUS_DISABLED = s.on (R.TDC_En_STATUS e) F.TDC_En_STATUS_DISABLED)
    (ha : t.on (R.TDC_En_STATUS e) F.TDC_En_STATUS_ACTIVE = s.on (R.TDC_En_STATUS e) F.TDC_En_STATUS_ACTIVE)
    (hch : t.chan e = s.chan e) : t.stamps e = s.stamps e := by
  simp only [State.stamps, State.chanEn, State.activeCal, hc, hf, hd, ha, hch]

/-- The channel is stuck, or is not. -/
def State.markStuck (s : State) (e : Nat) (b : Bool) : State :=
  (s.pb (R.TDC_En_STATUS e) F.TDC_En_STATUS_STUCK b).statusBit F.TDC_STATUS_STUCK e b

section
variable {b : Bool}

@[simp] theorem Changes.markStuck_iff (h : A (R.TDC_En_STATUS e)) (h' : A R.TDC_STATUS) :
    Changes A ps s (t.markStuck e b) ↔ Changes A ps s t := by
  unfold State.markStuck
  simp [h, h']

theorem status_ne_all : R.TDC_En_STATUS e ≠ R.TDC_STATUS := by
  simp only [R.TDC_En_STATUS, R.TDC_STATUS]
  omega

@[simp] theorem markStuck_chan : (s.markStuck e b).chan n = s.chan n := by
  simp [State.markStuck, State.statusBit]

theorem markStuck_g {f : Fld} (h : 1 ≤ f.lo) : (s.markStuck e b).g (R.TDC_En_STATUS e) f = s.g (R.TDC_En_STATUS e) f := by
  have k : F.TDC_En_STATUS_STUCK.lo + F.TDC_En_STATUS_STUCK.w ≤ f.lo := h
  simp only [State.markStuck, State.statusBit, State.g, State.reg_p, State.reg_pb, status_ne_all, if_true, if_false]
  exact Fld.get_put_ne (by decide) (.inl k) _ _

theorem markStuck_reg (h : a ≠ R.TDC_En_STATUS e) (h' : a ≠ R.TDC_STATUS) : (s.markStuck e b).reg a = s.reg a := by
  simp [State.markStuck, State.statusBit, h, h']

theorem markStuck_stuck : (s.markStuck e b).g (R.TDC_En_STATUS e) F.TDC_En_STATUS_STUCK = b2n b := by
  cases b <;> simp [State.markStuck, State.statusBit, State.g, status_ne_all, Fld.get_put, b2n]

theorem markStuck_all (h : e < 8) : maskBit ((s.markStuck e b).g R.TDC_STATUS F.TDC_STATUS_STUCK) e = b := by
  unfold State.markStuck State.statusBit State.g
  rw [State.reg_p, if_pos rfl, Fld.get_put (by decide), maskBit_mod h]
  cases b
  · exact maskBit_maskClr_self
  · exact maskBit_maskSet_self

theorem markStuck_stamps : (s.markStuck e b).stamps e = s.stamps e := by
  have h1 : (s.markStuck e b).reg R.TDC_CTRL = s.reg R.TDC_CTRL :=
    markStuck_reg (by simp only [R.TDC_CTRL, R.TDC_En_STATUS]; omega) (by decide)
  have h2 : (s.markStuck e b).reg (R.TDC_En_CFG e) = s.reg (R.TDC_En_CFG e) :=
    markStuck_reg (by simp) (by simp only [R.TDC_En_CFG, R.TDC_STATUS]; omega)
  refine stamps_congr ?_ ?_ (State.on_of_g (markStuck_g (by decide))) (State.on_of_g (markStuck_g (by decide))) markStuck_chan
  · exact State.on_of_g (congrArg F.TDC_CTRL_EN.get h1)
  · exact State.on_of_g (congrArg F.TDC_En_CFG_EN.get h2)

theorem markStuck_inService : (s.markStuck e b).inService e = (s.stamps e && !b) := by
  unfold State.inService State.on
  rw [markStuck_stamps, markStuck_stuck]
  cases b <;> rfl

/-- The shown state of a channel keeps the other fields of its status. -/
theorem chanShown_g {f : Fld} (h : f.lo + f.w ≤ 3 ∨ f.lo = 5 ∧ f.w = 1 ∨ 7 ≤ f.lo) :
    (s.chanShown e).g (R.TDC_En_STATUS e) f = s.g (R.TDC_En_STATUS e) f := by
  have h1 : R.TDC_En_STATUS e ≠ R.TDC_En_CAL_S1 e := by simp
  have h2 : R.TDC_En_STATUS e ≠ R.TDC_En_CAL_SPAN e := by simp
  simp only [State.chanShown, State.statusBit, State.g, State.reg_setRegN, State.reg_p, State.reg_pb, h1, h2, status_ne_all,
    if_true, if_false]
  rw [Fld.get_put_ne (by decide), Fld.get_put_ne (by decide), Fld.get_put_ne (by decide)]
  all_goals
    dsimp only [F.TDC_En_STATUS_CAL_A, F.TDC_En_STATUS_CAL_B, F.TDC_En_STATUS_IN_SERVICE]
    omega

/-- The shown state of a channel keeps the other fields of the block's status. -/
theorem chanShown_all {f : Fld} (h : 8 ≤ f.lo) : (s.chanShown e).g R.TDC_STATUS f = s.g R.TDC_STATUS f := by
  have h0 : R.TDC_STATUS ≠ R.TDC_En_STATUS e := status_ne_all.symm
  have h1 : R.TDC_STATUS ≠ R.TDC_En_CAL_S1 e := by simp only [R.TDC_STATUS, R.TDC_En_CAL_S1]; omega
  have h2 : R.TDC_STATUS ≠ R.TDC_En_CAL_SPAN e := by simp only [R.TDC_STATUS, R.TDC_En_CAL_SPAN]; omega
  have k : F.TDC_STATUS_IN_SERVICE.lo + F.TDC_STATUS_IN_SERVICE.w ≤ f.lo := h
  simp only [State.chanShown, State.statusBit, State.g, State.reg_setRegN, State.reg_p, State.reg_pb, h0, h1, h2,
    if_true, if_false]
  rw [Fld.get_put_ne (by decide) (.inl k)]

end

/-- A selected edge of a stuck channel ends that first. -/
theorem unstuck_eq (hst : s.stamps e = true) : s.unstuck e = (s.markStuck e false).chanShown e :=
  chanStatus_stays (.inr (markStuck_inService.trans (by rw [hst]; rfl)))

/-! ### Stamps -/

section
variable {x : TdcCap} {l : List TdcCap} {u : Tick64}

@[simp] theorem Changes.pushEvent_iff (h : A (R.TDC_En_FIFO_STATUS e)) (ht : .tdc ∈ ps) :
    Changes A ps s (t.pushEvent e u) ↔ Changes A ps s t := by
  unfold State.pushEvent
  simp [h, ht]

@[simp] theorem Changes.stamped_iff (h : A (R.TDC_En_EVENTS e)) (h' : A (R.TDC_En_FIFO_STATUS e)) (ht : .tdc ∈ ps) :
    Changes A ps s (t.stamped e x l) ↔ Changes A ps s t := by
  unfold State.stamped
  simp [h, h', ht]

theorem events_ne_fifo : R.TDC_En_EVENTS e ≠ R.TDC_En_FIFO_STATUS e := by
  simp only [R.TDC_En_EVENTS, R.TDC_En_FIFO_STATUS]
  omega

theorem events_ne_raw : R.TDC_En_EVENTS e ≠ R.TDC_RAW := by
  simp only [R.TDC_En_EVENTS, R.TDC_RAW]
  omega

theorem fifo_ne_raw : R.TDC_En_FIFO_STATUS e ≠ R.TDC_RAW := by
  simp only [R.TDC_En_FIFO_STATUS, R.TDC_RAW]
  omega

theorem stamped_events : (s.stamped e x l).reg (R.TDC_En_EVENTS e) = s.reg (R.TDC_En_EVENTS e) + 1 := by
  simp [State.stamped, State.pushEvent, events_ne_fifo, events_ne_raw]

/-- The oldest capture leaves its FIFO and is counted. -/
def State.counted (s : State) (e : Nat) (x : TdcCap) (l : List TdcCap) : State :=
  (s.setChan e { s.chan e with
    caps := l, hist := ((capStamp x, x.seg) :: (s.chan e).hist).take 128,
    gone := if 128 ≤ (s.chan e).hist.length then (s.chan e).hist.getLast?.map (fun h => h.1) else (s.chan e).gone,
    lostPush := (s.chan e).lostPush || x.lost }).setReg (R.TDC_En_EVENTS e) (s.reg (R.TDC_En_EVENTS e) + 1#32)

theorem counted_chan : (s.counted e x l).chan e = { s.chan e with
    caps := l, hist := ((capStamp x, x.seg) :: (s.chan e).hist).take 128,
    gone := if 128 ≤ (s.chan e).hist.length then (s.chan e).hist.getLast?.map (fun h => h.1) else (s.chan e).gone,
    lostPush := (s.chan e).lostPush || x.lost } := by
  unfold State.counted
  rw [State.chan_setReg, State.chan_setChan, if_pos rfl]

theorem counted_reg (h : a ≠ R.TDC_En_EVENTS e) : (s.counted e x l).reg a = s.reg a := by
  unfold State.counted
  rw [State.reg_setReg, if_neg h, State.reg_setChan]

/-- The rest of a stamp is a record. -/
theorem stamped_logs : Logs ((s.counted e x l).pushEvent e (round64 (capStamp x))) (s.stamped e x l) :=
  .ite (.record (.refl _)) (.refl _)

theorem pushEvent_room (hf : s.g (R.TDC_En_CFG e) F.TDC_En_CFG_FIFO_EN = 1) (hl : (s.chan e).fifo.length < 32) :
    s.pushEvent e u = (s.setChan e { s.chan e with fifo := (s.chan e).fifo ++ [(u, (s.chan e).lostPush)], lostPush := false }).p
      (R.TDC_En_FIFO_STATUS e) F.TDC_En_FIFO_STATUS_DEPTH ((s.chan e).fifo.length + 1) := by
  unfold State.pushEvent
  rw [if_neg (by simp [State.on, hf]), if_pos hl]

theorem pushEvent_full (hf : s.g (R.TDC_En_CFG e) F.TDC_En_CFG_FIFO_EN = 1) (hl : (s.chan e).fifo.length = 32) :
    s.pushEvent e u = (s.inc (R.TDC_En_FIFO_STATUS e) F.TDC_En_FIFO_STATUS_OVERFLOW).raw R.TDC_RAW F.TDC_RAW_FIFO_OVERFLOW := by
  unfold State.pushEvent
  rw [if_neg (by simp [State.on, hf]), if_neg (by omega)]

theorem pushEvent_off (hf : s.g (R.TDC_En_CFG e) F.TDC_En_CFG_FIFO_EN = 0) : s.pushEvent e u = s := by
  unfold State.pushEvent
  rw [if_pos (by simp [State.on, hf])]

theorem counted_fifoEn : (s.counted e x l).g (R.TDC_En_CFG e) F.TDC_En_CFG_FIFO_EN = s.g (R.TDC_En_CFG e) F.TDC_En_CFG_FIFO_EN :=
  congrArg F.TDC_En_CFG_FIFO_EN.get (counted_reg (by simp only [R.TDC_En_CFG, R.TDC_En_EVENTS]; omega))

@[simp] theorem Changes.counted_iff (h : A (R.TDC_En_EVENTS e)) (ht : .tdc ∈ ps) :
    Changes A ps s (t.counted e x l) ↔ Changes A ps s t := by
  unfold State.counted
  simp [h, ht]

@[simp] theorem sharedReg_TDC_Mm_CFG (m : Fin 4) : sharedReg (R.TDC_Mm_CFG m) = false := by revert m; decide

theorem stamped_unit : (s.stamped e x l).unit m = s.unit m := by
  unfold State.stamped State.pushEvent
  simp

theorem stamped_ctrl : (s.stamped e x l).reg R.TDC_CTRL = s.reg R.TDC_CTRL := by
  have C : Changes (· ≠ R.TDC_CTRL) [.tdc] s (s.stamped e x l) :=
    (Changes.stamped_iff (by simp only [R.TDC_CTRL, R.TDC_En_EVENTS]; omega)
      (by simp only [R.TDC_CTRL, R.TDC_En_FIFO_STATUS]; omega) (by simp)).2 .refl
  exact C.reg (by decide) (by simp)

theorem stamped_cfg (m : Fin 4) (e : Fin 8) : (s.stamped e x l).reg (R.TDC_Mm_CFG m) = s.reg (R.TDC_Mm_CFG m) := by
  have C : Changes (· ≠ R.TDC_Mm_CFG m) [.tdc] s (s.stamped e x l) :=
    (Changes.stamped_iff (by simp only [R.TDC_Mm_CFG, R.TDC_En_EVENTS]; omega)
      (by simp only [R.TDC_Mm_CFG, R.TDC_En_FIFO_STATUS]; omega) (by simp)).2 .refl
  exact C.reg (sharedReg_TDC_Mm_CFG m) (by simp)

/-- Stops write the results of the units, not what enables them. -/
theorem stopAll_keeps {seg : Nat} (h : ∀ m < 4, UnitRegs (· ≠ a) m) (ha : sharedReg a = false) :
    (s.stopAll e u seg).reg a = s.reg a :=
  ((Changes.stopAll_iff h (by simp : Part.tdc ∈ [.tdc])).2 (.refl (s := s))).reg ha (by simp)

end

theorem unitRegs_ne_cfg (m : Fin 4) : ∀ k < 4, UnitRegs (· ≠ R.TDC_Mm_CFG m) k := by
  intro k _
  constructor
  constructor
  all_goals
    simp only [R.TDC_Mm_CFG, R.TDC_Mm_STATUS, R.TDC_Mm_CNT, R.TDC_Mm_STAT_USED, R.TDC_Mm_STAT_PROG, R.TDC_Mm_MEAN_LO,
      R.TDC_Mm_SD_LO, R.TDC_Mm_MIN_LO, R.TDC_Mm_MAX_LO, R.TDC_Mm_LAST_LO]
    omega

/-- What lies outside the units' registers is not written by their results. -/
theorem unitRegs_ne (h : a < 0x380400 ∨ 0x380600 ≤ a) : ∀ k < 4, UnitRegs (· ≠ a) k := fun k hk =>
  .ofRange fun b h1 h2 e => by
    simp only [R.TDC_Mm_CFG] at h1 h2
    omega

/-- The registers that a conversion of channel `e` may change when windows stop on it. -/
def convRegs (e : Nat) (a : Nat) : Prop := ∃ r ∈ [(R.TDC_Mm_CFG 0, R.TDC_Mm_CFG 3 + 0x80), (R.TDC_En_EVENTS e, R.TDC_En_EVENTS e + 4),
  (R.TDC_En_FIFO_STATUS e, R.TDC_En_FIFO_STATUS e + 4)], r.1 ≤ a ∧ a < r.2

theorem convRegs_events : convRegs e (R.TDC_En_EVENTS e) := ⟨_, List.mem_cons_of_mem _ (List.mem_cons_self ..), by simp⟩

theorem convRegs_fifo : convRegs e (R.TDC_En_FIFO_STATUS e) :=
  ⟨_, List.mem_cons_of_mem _ (List.mem_cons_of_mem _ (List.mem_cons_self ..)), by simp⟩

theorem unitRegs_of_block (h : ∀ a, R.TDC_Mm_CFG 0 ≤ a → a < R.TDC_Mm_CFG 3 + 0x80 → A a) : ∀ k < 4, UnitRegs A k := fun k hk =>
  .ofRange fun b h1 h2 => h b (by simp only [R.TDC_Mm_CFG] at h1 ⊢; omega) (by simp only [R.TDC_Mm_CFG] at h2 ⊢; omega)

section
variable {x : TdcCap} {l : List TdcCap}

/-- What a conversion leaves, from the stamp and its stops. -/
structure Converted (s : State) (e : Fin 8) (x : TdcCap) (l : List TdcCap) (u : State) : Prop where
  chan : u.chan e = (s.stamped e x l).chan e
  events : u.reg (R.TDC_En_EVENTS e) = s.reg (R.TDC_En_EVENTS e) + 1
  fifo : ∀ f, u.g (R.TDC_En_FIFO_STATUS e) f = (s.stamped e x l).g (R.TDC_En_FIFO_STATUS e) f
  starts : ∀ m : Fin 4, s.unitOn m = true → s.ucfg m F.TDC_Mm_CFG_START = e.val →
    (u.unit m).starts = (s.unit m).starts ++ [capStamp x]
  bits : KeepsBits R.TDC_RAW (s.stamped e x l) u
  regs : ∀ a, sharedReg a = false → u.reg a = ((s.stamped e x l).stopAll e (capStamp x) x.seg).reg a

theorem pushEvent_caps {u : Tick64} : ((s.pushEvent e u).chan e).caps = (s.chan e).caps := by
  unfold State.pushEvent
  extract_lets c
  split
  · rfl
  · split
    · rw [State.chan_p, State.chan_setChan, if_pos rfl]
    · rw [State.chan_raw, State.chan_inc]

theorem pushEvent_hist {u : Tick64} : ((s.pushEvent e u).chan e).hist = (s.chan e).hist := by
  unfold State.pushEvent
  extract_lets c
  split
  · rfl
  · split
    · rw [State.chan_p, State.chan_setChan, if_pos rfl]
    · rw [State.chan_raw, State.chan_inc]

theorem Converted.caps {e : Fin 8} {u : State} (h : Converted s e x l u) : (u.chan e).caps = l := by
  rw [h.chan, State.chan_of_tdc stamped_logs.tdc, pushEvent_caps, counted_chan]

theorem Converted.hist {e : Fin 8} {u : State} (h : Converted s e x l u) :
    (u.chan e).hist = ((capStamp x, x.seg) :: (s.chan e).hist).take 128 := by
  rw [h.chan, State.chan_of_tdc stamped_logs.tdc, pushEvent_hist, counted_chan]

theorem convertAnswers {P : State → Prop} {e : Fin 8} (hs : s.inReset = false) (hr : s.runs .timescale = true)
    (hc : (s.chan e).caps = x :: l) (C : Changes A [.tdc] s ((s.stamped e x l).stopAll e (capStamp x) x.seg))
    (hP : ∀ u, Converted s e x l u → Changes A [.tdc] s u → P u) : Answers (exec (.tdcStampConversion e) s) P := by
  show Answers (done s (s.tdcConvert e)) P
  rw [tdcConvert_eq hc hr]
  refine Answers.ofChanges hs ((Changes.giveStart_iff (by simp)).2 C) fun u L C =>
    hP u ⟨?_, ?_, fun f => ?_, fun m ho hst => ?_, ?_, fun a ha => (L.reg a ha).trans State.reg_giveStart⟩ C
  · rw [State.chan_of_tdc L.tdc, State.chan_giveStart, State.chan_stopAll]
  · rw [L.reg _ (by simp), State.reg_giveStart, stopAll_keeps (unitRegs_ne (by simp only [R.TDC_En_EVENTS]; omega)) (by simp),
      stamped_events]
  · rw [L.g (by simp)]
    unfold State.g
    rw [State.reg_giveStart, stopAll_keeps (unitRegs_ne (by simp only [R.TDC_En_FIFO_STATUS]; omega)) (by simp)]
  · have h1 : ((s.stamped e x l).stopAll e (capStamp x) x.seg).reg R.TDC_CTRL = s.reg R.TDC_CTRL :=
      (stopAll_keeps (unitRegs_ne (by decide)) (by decide)).trans stamped_ctrl
    have h2 : ((s.stamped e x l).stopAll e (capStamp x) x.seg).reg (R.TDC_Mm_CFG m) = s.reg (R.TDC_Mm_CFG m) :=
      (stopAll_keeps (unitRegs_ne_cfg m) (by simp)).trans (stamped_cfg m e)
    rw [State.unit_of_tdc L.tdc, State.starts_giveStart m ?_ ?_, State.starts_stopAll, stamped_unit]
    · simpa only [State.unitOn, State.on, State.ucfg, State.g, h1, h2] using ho
    · simpa only [State.ucfg, State.g, h2] using hst
  · exact KeepsBits.trans .stopAll (KeepsBits.trans (.ofReg State.reg_giveStart) (.ofLogs (by decide) L))

/-- The stamp of a channel whose FIFO has room. -/
theorem stamped_room {e : Fin 8} (hf : s.g (R.TDC_En_CFG e) F.TDC_En_CFG_FIFO_EN = 1) (hl : (s.chan e).fifo.length < 32) :
    ((s.stamped e x l).chan e).fifo = (s.chan e).fifo ++ [(round64 (capStamp x), (s.chan e).lostPush || x.lost)] ∧
      (s.stamped e x l).g (R.TDC_En_FIFO_STATUS e) F.TDC_En_FIFO_STATUS_DEPTH = (s.chan e).fifo.length + 1 := by
  have L := stamped_logs (s := s) (e := e) (x := x) (l := l)
  rw [pushEvent_room (counted_fifoEn.trans hf) (by rw [counted_chan]; exact hl), counted_chan] at L
  refine ⟨?_, ?_⟩
  · rw [State.chan_of_tdc L.tdc, State.chan_p, State.chan_setChan, if_pos rfl]
  · rw [L.g (by simp)]
    unfold State.g
    rw [State.reg_p, if_pos rfl, Fld.get_put (by decide)]
    exact Nat.mod_eq_of_lt (by dsimp only [F.TDC_En_FIFO_STATUS_DEPTH]; omega)

/-- The stamp of a channel whose FIFO is full. -/
theorem stamped_full {e : Fin 8} (hf : s.g (R.TDC_En_CFG e) F.TDC_En_CFG_FIFO_EN = 1) (hl : (s.chan e).fifo.length = 32) :
    ((s.stamped e x l).chan e).fifo = (s.chan e).fifo ∧
      (s.stamped e x l).g (R.TDC_En_FIFO_STATUS e) F.TDC_En_FIFO_STATUS_OVERFLOW =
        min (s.g (R.TDC_En_FIFO_STATUS e) F.TDC_En_FIFO_STATUS_OVERFLOW + 1) 65535 ∧
      (s.stamped e x l).isSet R.TDC_RAW F.TDC_RAW_FIFO_OVERFLOW := by
  have L := stamped_logs (s := s) (e := e) (x := x) (l := l)
  rw [pushEvent_full (counted_fifoEn.trans hf) (by rw [counted_chan]; exact hl)] at L
  refine ⟨?_, ?_, L.isSet (by decide) (by decide) rfl (State.isSet_raw (by decide) rfl)⟩
  · rw [State.chan_of_tdc L.tdc, State.chan_raw, State.chan_inc, counted_chan]
  · have k := State.g_inc (s := s.counted e x l) (a := R.TDC_En_FIFO_STATUS e) (f := F.TDC_En_FIFO_STATUS_OVERFLOW) (by decide)
    rw [L.g (by simp)]
    unfold State.g at k ⊢
    rw [State.reg_raw, if_neg fifo_ne_raw, k, counted_reg events_ne_fifo.symm]
    rfl

/-- The stamp of a channel without its FIFO. -/
theorem stamped_off {e : Fin 8} (hf : s.g (R.TDC_En_CFG e) F.TDC_En_CFG_FIFO_EN = 0) :
    Logs (s.counted e x l) (s.stamped e x l) := by
  have L := stamped_logs (s := s) (e := e) (x := x) (l := l)
  rwa [pushEvent_off (counted_fifoEn.trans hf)] at L

/-- No window stops on the channel, so its stamp stops none. -/
theorem stamped_stopAll_none {e : Fin 8} {u : Tick64} {seg : Nat}
    (h : ∀ m : Fin 4, (s.unit m).win.isSome = true → s.ucfg m F.TDC_Mm_CFG_STOP ≠ e.val) :
    (s.stamped e x l).stopAll e u seg = s.stamped e x l := by
  refine stopAll_none fun m hm => ?_
  rw [stamped_unit] at hm
  unfold State.ucfg State.g
  rw [stamped_cfg]
  exact h m hm

end

/-- An edge of a stuck channel: it is no longer stuck and the edge is taken. -/
theorem tdcEdge_unsticks (hr : s.running = true) (hst : s.stamps e = true) (ht : s.runs .timescale = true)
    (h1 : s.g (R.TDC_En_STATUS e) F.TDC_En_STATUS_STUCK = 1) (hsel : s.edgeSelected e r) : s.tdcEdge e r code since hold =
    (((s.leveled e r).markStuck e false).chanShown e).takeEdge e (s.g (R.TDC_En_CFG e) F.TDC_En_CFG_EDGE) code since hold := by
  rw [tdcEdge_selected hsel hr hst ht, if_pos (by simp [State.on, h1]), unstuck_eq (leveled_stamps.trans hst)]

/-! ### POP -/

theorem act_fifoPop (e : Fin 8) {old v : Word} (hv : F.TDC_En_FIFO_POP_POP.get v = 1) :
    s.act (R.TDC_En_FIFO_POP e) old v = s.popEvent e := by
  refine Eq.trans (b := if F.TDC_En_FIFO_POP_POP.get v = 1 then s.popEvent e else s) ?_ (if_pos hv)
  unfold State.act State.actTdc
  fin_cases e <;> rfl

theorem popEvent_cons {y : Tick64 × Bool} {l : List (Tick64 × Bool)} (h : (s.chan e).fifo = y :: l) : s.popEvent e =
    (s.setChan e { s.chan e with fifo := l }).p (R.TDC_En_FIFO_STATUS e) F.TDC_En_FIFO_STATUS_DEPTH l.length := by
  unfold State.popEvent
  split
  · next k => rw [h] at k; cases k
  · next k =>
    rw [h] at k
    obtain ⟨rfl, rfl⟩ := List.cons.inj k
    rfl

/-- Settles O53. -/
theorem eventEdges : Obligations.EventEdges := by
  refine ⟨fun s e rise code since hold s1 span hs hr hst ht h0 hsel hsince hl hb hh hc => ?_,
    fun s e rise code since hold hs hr hst ht h1 hsel => ?_, fun s e rise code since hold hs h2 h0 => ?_,
    fun s e rise code since hold s1 span hs hr hst ht h0 hsel hsince hc => ?_,
    fun s e rise code since hold s1 span hs hr hst ht h0 hsel hsince hb hl hc => ?_,
    fun s e rise code since hold ns hs hr hst ht h0 hsel hsince hb hl he hh => ?_,
    fun s e x l hs hr hc hn hf hl => ?_, fun s e x l hs hr hc hf hl => ?_, fun s e x l hs hr hc hn hf hl => ?_,
    fun s e x l hs hr hc hf hl => ?_, fun s e x l hs hr hc hf => ?_, fun s e v x l ha hf hl => ?_⟩
  · show Answers (done s (s.tdcEdge e _ code since hold)) _
    generalize (rise != s.on (R.IOP_PINp_STATUS (14 + e.val)) F.IOP_PINp_STATUS_POL_INV) = r at hsel ⊢
    rw [tdcEdge_takes hr hst ht h0 hsel, takeEdge_captured (congrArg TdcCal.cal leveled_activeCal |>.trans hc) hsince
      (by simpa using hb) (by simpa using hl) (by simpa [leveled_filt] using hh), leveled_capture]
    refine Answers.ofChanges (A := (· ∈ [R.TDC_En_STATUS e])) (ps := [.tdc]) hs (by simp) fun u L C => ⟨?_, ?_, C.sameBut, C.parts⟩
    · rw [State.chan_of_tdc L.tdc]
      simp [State.capture]
    · rw [L.g (by simp)]
      exact leveled_level
  · show Answers (done s (s.tdcEdge e _ code since hold)) _
    generalize (rise != s.on (R.IOP_PINp_STATUS (14 + e.val)) F.IOP_PINp_STATUS_POL_INV) = r at hsel ⊢
    rw [tdcEdge_unsticks hr hst ht h1 hsel]
    have hreg (a : Nat) (ha : a ≠ R.TDC_En_CNT e) (ha' : a ≠ R.TDC_RAW) := State.reg_takeEdge (s := ((s.leveled e r).markStuck e false).chanShown e)
      (code := code) (since := since) (hold := hold) (cfg := s.g (R.TDC_En_CFG e) F.TDC_En_CFG_EDGE) ha ha'
    refine Answers.ofChanges (A := (· ∈ [R.TDC_En_STATUS e, R.TDC_STATUS, R.TDC_En_CAL_S1 e, R.TDC_En_CAL_SPAN e,
      R.TDC_En_CNT e])) (ps := [.tdc]) hs ?_ fun u L C => ⟨?_, ?_, ?_, C.sameBut, C.parts⟩
    · rw [Changes.takeEdge_iff (by simp) (by simp), Changes.chanShown_iff ⟨by simp, by simp, by simp, by simp⟩]
      simp
    · rw [L.g (by simp)]
      exact (congrArg F.TDC_En_STATUS_STUCK.get (hreg _ status_ne_cnt status_ne_raw)).trans
        ((chanShown_g (by decide)).trans markStuck_stuck)
    · rw [L.g (by decide)]
      refine (congrArg (fun v => maskBit (F.TDC_STATUS_STUCK.get v) e)
        (hreg R.TDC_STATUS (by simp only [R.TDC_STATUS, R.TDC_En_CNT]; omega) (by decide))).trans ?_
      exact (congrArg (maskBit · e.val) (chanShown_all (by decide))).trans (markStuck_all e.isLt)
    · rw [L.g (by simp)]
      exact (congrArg F.TDC_En_STATUS_LEVEL.get (hreg _ status_ne_cnt status_ne_raw)).trans
        ((chanShown_g (by decide)).trans ((markStuck_g (by decide)).trans leveled_level))
  · show Answers (done s (s.tdcEdge e _ code since hold)) _
    rw [tdcEdge_unselected (fun k => k.elim h2 h0)]
    refine Answers.ofChanges (A := (· ∈ [R.TDC_En_STATUS e])) (ps := []) hs (by simp) fun u L C => ⟨?_, C.sameBut, C.parts⟩
    rw [L.g (by simp)]
    exact leveled_level
  · show Answers (done s (s.tdcEdge e _ code since hold)) _
    generalize (rise != s.on (R.IOP_PINp_STATUS (14 + e.val)) F.IOP_PINp_STATUS_POL_INV) = r at hsel ⊢
    rw [tdcEdge_takes hr hst ht h0 hsel, takeEdge_dead (congrArg TdcCal.cal leveled_activeCal |>.trans hc) hsince, leveled_capture]
    change Answers (done s (((s.leveled e r).missed e F.TDC_En_CNT_DEAD F.TDC_RAW_DEAD).edgeLost e _)) _
    refine Answers.ofChanges (A := (· ∈ [R.TDC_En_STATUS e, R.TDC_En_CNT e])) (ps := [.tdc]) hs (by simp) fun u L C =>
      ⟨?_, ?_, ?_, ?_, C.sameBut, C.parts⟩
    · rw [L.g (by simp)]
      exact (congrArg F.TDC_En_CNT_DEAD.get State.reg_edgeLost).trans (missed_cnt (by decide))
    · exact L.isSet (by decide) (by decide) rfl
        ((congrArg F.TDC_RAW_DEAD.get State.reg_edgeLost).trans (missed_isSet (by decide) rfl))
    · rw [State.chan_of_tdc L.tdc, State.chan_edgeLost, missed_chan, leveled_chan]
      rfl
    · rw [L.g (by simp)]
      exact (congrArg F.TDC_En_STATUS_LEVEL.get State.reg_edgeLost).trans missed_level
  · show Answers (done s (s.tdcEdge e _ code since hold)) _
    generalize (rise != s.on (R.IOP_PINp_STATUS (14 + e.val)) F.IOP_PINp_STATUS_POL_INV) = r at hsel ⊢
    rw [tdcEdge_takes hr hst ht h0 hsel, takeEdge_overrun (congrArg TdcCal.cal leveled_activeCal |>.trans hc) hsince
      (by simpa using hb) (by simpa using hl), leveled_capture]
    change Answers (done s (((s.leveled e r).missed e F.TDC_En_CNT_OVERRUN F.TDC_RAW_OVERRUN).edgeLost e _)) _
    refine Answers.ofChanges (A := (· ∈ [R.TDC_En_STATUS e, R.TDC_En_CNT e])) (ps := [.tdc]) hs (by simp) fun u L C =>
      ⟨?_, ?_, ?_, ?_, C.sameBut, C.parts⟩
    · rw [L.g (by simp)]
      exact (congrArg F.TDC_En_CNT_OVERRUN.get State.reg_edgeLost).trans (missed_cnt (by decide))
    · exact L.isSet (by decide) (by decide) rfl
        ((congrArg F.TDC_RAW_OVERRUN.get State.reg_edgeLost).trans (missed_isSet (by decide) rfl))
    · rw [State.chan_of_tdc L.tdc, State.chan_edgeLost, missed_chan, leveled_chan]
      rfl
    · rw [L.g (by simp)]
      exact (congrArg F.TDC_En_STATUS_LEVEL.get State.reg_edgeLost).trans missed_level
  · obtain ⟨⟨s1, span⟩, hc⟩ : ∃ x, (s.activeCal e).cal = some x := by
      have k := hst
      simp only [State.stamps, Bool.and_eq_true] at k
      exact Option.isSome_iff_exists.1 k.2
    subst he
    show Answers (done s (s.tdcEdge e _ code since _)) _
    generalize (rise != s.on (R.IOP_PINp_STATUS (14 + e.val)) F.IOP_PINp_STATUS_POL_INV) = r at hsel ⊢
    rw [tdcEdge_takes hr hst ht h0 hsel, takeEdge_glitch (congrArg TdcCal.cal leveled_activeCal |>.trans hc) hsince
      (by simpa using hb) (by simpa using hl) (by simpa [leveled_filt] using hh)]
    change Answers (done s (((s.leveled e r).missed e F.TDC_En_CNT_GLITCH F.TDC_RAW_GLITCH).setChan e _)) _
    refine Answers.ofChanges (A := (· ∈ [R.TDC_En_STATUS e, R.TDC_En_CNT e])) (ps := [.tdc]) hs (by simp) fun u L C =>
      ⟨?_, ?_, ?_, ?_, C.sameBut, C.parts⟩
    · rw [L.g (by simp)]
      exact (congrArg F.TDC_En_CNT_GLITCH.get State.reg_setChan).trans (missed_cnt (by decide))
    · exact L.isSet (by decide) (by decide) rfl
        ((congrArg F.TDC_RAW_GLITCH.get State.reg_setChan).trans (missed_isSet (by decide) rfl))
    · rw [State.chan_of_tdc L.tdc, State.chan_setChan, if_pos rfl, leveled_chan]
    · rw [L.g (by simp)]
      exact (congrArg F.TDC_En_STATUS_LEVEL.get State.reg_setChan).trans missed_level
  · obtain ⟨k1, k2⟩ := stamped_room (x := x) (l := l) hf hl
    refine convertAnswers (A := (· ∈ [R.TDC_En_EVENTS e, R.TDC_En_FIFO_STATUS e])) hs hr hc
      (by rw [stamped_stopAll_none hn]; simp) fun u D C =>
      ⟨D.caps, ?_, ?_, D.hist, D.events, D.starts, C.sameBut, C.parts⟩
    · rw [D.chan, k1]
    · rw [D.fifo, k2]
  · obtain ⟨k1, k2⟩ := stamped_room (x := x) (l := l) hf hl
    refine convertAnswers (A := convRegs e) hs hr hc ?_ fun u D C =>
      ⟨D.caps, ?_, ?_, D.hist, D.events, D.starts, C.sameBeyond, C.parts⟩
    · rw [Changes.stopAll_iff (unitRegs_of_block fun a h1 h2 => ⟨_, List.mem_cons_self .., h1, h2⟩) (by simp)]
      exact (Changes.stamped_iff convRegs_events convRegs_fifo (by simp)).2 .refl
    · rw [D.chan, k1]
    · rw [D.fifo, k2]
  · obtain ⟨k1, k2, k3⟩ := stamped_full (x := x) (l := l) hf hl
    refine convertAnswers (A := (· ∈ [R.TDC_En_EVENTS e, R.TDC_En_FIFO_STATUS e])) hs hr hc
      (by rw [stamped_stopAll_none hn]; simp) fun u D C =>
      ⟨D.caps, ?_, D.events, ?_, D.bits.isSet (by decide) rfl k3, D.starts, C.sameBut, C.parts⟩
    · rw [D.chan, k1]
    · rw [D.fifo, k2]
  · obtain ⟨k1, k2, k3⟩ := stamped_full (x := x) (l := l) hf hl
    refine convertAnswers (A := convRegs e) hs hr hc ?_ fun u D C =>
      ⟨D.caps, ?_, D.events, ?_, D.bits.isSet (by decide) rfl k3, D.starts, C.sameBeyond, C.parts⟩
    · rw [Changes.stopAll_iff (unitRegs_of_block fun a h1 h2 => ⟨_, List.mem_cons_self .., h1, h2⟩) (by simp)]
      exact (Changes.stamped_iff convRegs_events convRegs_fifo (by simp)).2 .refl
    · rw [D.chan, k1]
    · rw [D.fifo, k2]
  · have L := stamped_off (x := x) (l := l) hf
    refine convertAnswers (A := fun a => ∃ r ∈ [(R.TDC_Mm_CFG 0, R.TDC_Mm_CFG 3 + 0x80),
      (R.TDC_En_EVENTS e, R.TDC_En_EVENTS e + 4)], r.1 ≤ a ∧ a < r.2) hs hr hc ?_ fun u D C =>
      ⟨D.caps, ?_, D.hist, D.events, D.starts, C.sameBeyond, C.parts⟩
    · rw [Changes.stopAll_iff (unitRegs_of_block fun a h1 h2 => ⟨_, List.mem_cons_self .., h1, h2⟩) (by simp)]
      refine Changes.logs ?_ L
      simp
    · rw [D.chan, State.chan_of_tdc L.tdc, counted_chan]
  · have hp : ∀ e : Fin 8, ownWord (R.TDC_En_FIFO_POP e) = true := by decide
    have hw : ∀ e : Fin 8, (fieldsAt (R.TDC_En_FIFO_POP e)).any Field.stored = false := by decide
    refine Answers.ofCommand (A := (· ∈ [R.TDC_En_FIFO_STATUS e])) (ps := [.tdc]) ha (hp e) (hw e)
      ((act_fifoPop e (by simp [Fld.get_put])).trans (popEvent_cons (by rw [State.chan_setReg]; exact hf)))
      (by simp) fun u L C => ⟨?_, ?_, C.sameBut, C.parts⟩
    · rw [State.chan_of_tdc L.tdc]
      simp
    · rw [L.g (by simp)]
      unfold State.g
      rw [State.reg_p, if_pos rfl, Fld.get_put (by decide)]
      exact Nat.mod_eq_of_lt (by dsimp only [F.TDC_En_FIFO_STATUS_DEPTH]; omega)

end Sys2Proof.Machine
end

section

/-! ## Calibration, swaps, stuck and overrun channels (R345 to R347, R351, R352) -/

set_option Elab.async false

namespace Sys2Proof.Machine

variable {A : Nat → Prop} {ps : List Part} {s t : State} {a e m n : Nat} {b : Bool}

/-- The registers that show the state of a channel. -/
abbrev chanRegs (e : Nat) : List Nat := [R.TDC_En_STATUS e, R.TDC_STATUS, R.TDC_En_CAL_S1 e, R.TDC_En_CAL_SPAN e]

theorem chanRegs_mem : ChanRegs (· ∈ chanRegs e) e := ⟨by simp, by simp, by simp, by simp⟩

/-! ### Calibration -/

/-- An interpolator after a calibration cycle. -/
def calOf (s1 span : Int) : TdcCal := if calValid s1 span then ⟨some (s1, span), true⟩ else ⟨none, false⟩

/-- A channel after the first of its two interpolators that calibrate together. -/
def TdcChan.calibrated (c : TdcChan) (b : Bool) (x : TdcCal) : TdcChan :=
  if b then { c with b := x, calA := true, calB := false, noCal := false }
  else { c with a := x, calA := false, calB := true, noCal := false }

/-- The first of two interpolators that calibrate together ends its cycle. -/
theorem calDone_first {s1 s2 : Nat} (he : s.chanEn e = true) (hr : s.runs .timescale = true) (ha : (s.chan e).calA = true)
    (hb : (s.chan e).calB = true) : ∃ c, s.calDone e b s1 s2 =
      (((if calValid s1 ((s2 : Int) - s1) then s.setChan e c else (s.setChan e c).raw R.TDC_RAW F.TDC_RAW_CAL_FAIL)).setChan e
        ((s.chan e).calibrated b (calOf s1 ((s2 : Int) - s1)))).chanStatus e := by
  unfold State.calDone
  rw [if_neg (by simp [he, hr, ha])]
  cases b <;> simp only [ha, hb, Bool.or_true, Bool.true_or, if_true, Bool.false_and, Bool.and_false, Bool.not_true,
    Bool.false_eq_true, if_false] <;> exact ⟨_, rfl⟩

/-- A calibration changes the registers that show the channel. -/
theorem calAnswers {P : State → Prop} {e : Fin 8} {s1 s2 : Nat} (hs : s.inReset = false) (he : s.chanEn e = true)
    (hr : s.runs .timescale = true) (ha : (s.chan e).calA = true) (hb : (s.chan e).calB = true)
    (hi : s.g (R.TDC_En_STATUS e) F.TDC_En_STATUS_IN_SERVICE = 0)
    (hP : ∀ u, u.chan e = (s.chan e).calibrated b (calOf s1 ((s2 : Int) - s1)) →
      (calValid s1 ((s2 : Int) - s1) = false → u.isSet R.TDC_RAW F.TDC_RAW_CAL_FAIL) →
      Changes (· ∈ chanRegs e) [.tdc] s u → P u) : Answers (exec (.tdcCalCycleDone e b s1 s2) s) P := by
  obtain ⟨c, hc⟩ := calDone_first (b := b) (s1 := s1) (s2 := s2) he hr ha hb
  show Answers (done s (s.calDone e b s1 s2)) P
  rw [hc, chanStatus_stays (.inl ?_)]
  · refine Answers.ofChanges (A := (· ∈ chanRegs e)) (ps := [.tdc]) hs ?_ fun u L C => hP u ?_ (fun k => ?_) C
    · rw [Changes.chanShown_iff chanRegs_mem]
      simp
    · rw [State.chan_of_tdc L.tdc, State.chan_chanShown, State.chan_setChan, if_pos rfl]
    · rw [if_neg (by simp [k])] at L
      refine (KeepsBits.trans (.ofReg ?_) (.ofLogs (by decide) L)).isSet (by decide) rfl
        (State.isSet_raw (s := s.setChan e c) (a := R.TDC_RAW) (f := F.TDC_RAW_CAL_FAIL) (by decide) rfl)
      have h1 : R.TDC_RAW ≠ R.TDC_En_CAL_S1 e := by simp only [R.TDC_RAW, R.TDC_En_CAL_S1]; omega
      have h2 : R.TDC_RAW ≠ R.TDC_En_CAL_SPAN e := by simp only [R.TDC_RAW, R.TDC_En_CAL_SPAN]; omega
      simp [State.chanShown, State.statusBit, h1, h2, status_ne_raw.symm]
  · refine Eq.trans (congrArg F.TDC_En_STATUS_IN_SERVICE.get ?_) hi
    rw [State.reg_setChan]
    split
    · rfl
    · rw [State.reg_raw, if_neg status_ne_raw, State.reg_setChan]

/-! ### Swaps -/

/-- The interpolator of channel `e` that is not in service. -/
def State.standby (s : State) (e : Nat) : TdcCal :=
  if s.on (R.TDC_En_STATUS e) F.TDC_En_STATUS_ACTIVE then (s.chan e).a else (s.chan e).b

/-- The interpolators of channel `e` change roles. -/
def State.turned (s : State) (e : Nat) : State :=
  (s.setChan e { s.chan e with a := { (s.chan e).a with fresh := false }, b := { (s.chan e).b with fresh := false } }).pb
    (R.TDC_En_STATUS e) F.TDC_En_STATUS_ACTIVE (!s.on (R.TDC_En_STATUS e) F.TDC_En_STATUS_ACTIVE)

/-- The interpolators of channel `e` change roles, and the swap is counted. -/
def State.swapped (s : State) (e : Nat) : State :=
  (s.turned e).p (R.TDC_En_STATUS e) F.TDC_En_STATUS_SWAPS ((s.turned e).g (R.TDC_En_STATUS e) F.TDC_En_STATUS_SWAPS + 1)

theorem swap_point (hst : s.stamps e = true) (hr : s.runs .timescale = true) (hf : (s.standby e).fresh = true)
    (hc : (s.standby e).cal ≠ none) (hu : ∀ m : Fin 4, s.usesOpen e m = false) :
    s.swap e .point = (s.swapped e).chanStatus e := by
  have hall : (List.range 4).all (fun k => !s.usesOpen e k) = true := by
    simp only [List.all_eq_true, List.mem_range]
    intro k hk
    rw [hu ⟨k, hk⟩]
    rfl
  have hn : (s.standby e).cal.isNone = false := by
    rwa [Option.isNone_eq_false_iff, Option.isSome_iff_ne_none]
  have hg : (!s.stamps e || !s.runs .timescale || !(s.standby e).fresh || (s.standby e).cal.isNone ||
      !(List.range 4).all (fun k => !s.usesOpen e k)) = false := by
    rw [hst, hr, hf, hn, hall]
    rfl
  unfold State.swap
  exact if_neg fun k => absurd (hg.symm.trans k) (by decide)

theorem swapped_chan : (s.swapped e).chan e =
    { s.chan e with a := { (s.chan e).a with fresh := false }, b := { (s.chan e).b with fresh := false } } := by
  unfold State.swapped State.turned
  rw [State.chan_p, State.chan_pb, State.chan_setChan, if_pos rfl]

theorem swapped_reg (h : a ≠ R.TDC_En_STATUS e) : (s.swapped e).reg a = s.reg a := by
  simp [State.swapped, State.turned, h]

theorem swapped_active : (s.swapped e).on (R.TDC_En_STATUS e) F.TDC_En_STATUS_ACTIVE = !s.on (R.TDC_En_STATUS e) F.TDC_En_STATUS_ACTIVE := by
  simp only [State.on, State.g, State.swapped, State.turned, State.reg_p, State.reg_pb, if_true]
  rw [Fld.get_put_ne (by decide) (by decide), Fld.get_put (by decide)]
  generalize (F.TDC_En_STATUS_ACTIVE.get (s.reg (R.TDC_En_STATUS e)) != 0) = b
  cases b <;> rfl

theorem swapped_g {f : Fld} (h : f.lo + f.w ≤ 2 ∨ 3 ≤ f.lo ∧ f.lo + f.w ≤ 16) :
    (s.swapped e).g (R.TDC_En_STATUS e) f = s.g (R.TDC_En_STATUS e) f := by
  simp only [State.g, State.swapped, State.turned, State.reg_p, State.reg_pb, if_true]
  rw [Fld.get_put_ne (by decide), Fld.get_put_ne (by decide), State.reg_setChan]
  all_goals
    dsimp only [F.TDC_En_STATUS_ACTIVE, F.TDC_En_STATUS_SWAPS]
    omega

theorem swapped_swaps : (s.swapped e).g (R.TDC_En_STATUS e) F.TDC_En_STATUS_SWAPS =
    (s.g (R.TDC_En_STATUS e) F.TDC_En_STATUS_SWAPS + 1) % 65536 := by
  simp only [State.g, State.swapped, State.turned, State.reg_p, State.reg_pb, if_true]
  rw [Fld.get_put (by decide), Fld.get_put_ne (by decide) (by decide), State.reg_setChan]
  rfl

/-- A channel that stamps and is not stuck stays in service when its interpolators change roles. -/
theorem swapped_inService (hst : s.stamps e = true) (h0 : s.g (R.TDC_En_STATUS e) F.TDC_En_STATUS_STUCK = 0)
    (hc : (s.standby e).cal ≠ none) : (s.swapped e).inService e = true := by
  have h1 : (s.swapped e).reg R.TDC_CTRL = s.reg R.TDC_CTRL :=
    swapped_reg (by simp only [R.TDC_CTRL, R.TDC_En_STATUS]; omega)
  have h2 : (s.swapped e).reg (R.TDC_En_CFG e) = s.reg (R.TDC_En_CFG e) := swapped_reg (by simp)
  have h3 : (s.swapped e).on (R.TDC_En_STATUS e) F.TDC_En_STATUS_DISABLED = s.on (R.TDC_En_STATUS e) F.TDC_En_STATUS_DISABLED :=
    State.on_of_g (swapped_g (by decide))
  have h4 : (s.swapped e).activeCal e = { s.standby e with fresh := false } := by
    unfold State.activeCal State.standby
    rw [swapped_active, swapped_chan]
    cases s.on (R.TDC_En_STATUS e) F.TDC_En_STATUS_ACTIVE <;> rfl
  have h5 : ((s.swapped e).activeCal e).cal.isSome = true := by
    rw [h4]
    exact Option.isSome_iff_ne_none.2 hc
  have h6 : (s.swapped e).on (R.TDC_En_STATUS e) F.TDC_En_STATUS_STUCK = false := by
    unfold State.on
    rw [swapped_g (by decide), h0]
    rfl
  have k : (s.chanEn e = true ∧ s.on (R.TDC_En_STATUS e) F.TDC_En_STATUS_DISABLED = false ∧ (s.chan e).calA = false ∧
      (s.chan e).calB = false) := by
    unfold State.stamps at hst
    simp only [Bool.and_eq_true, Bool.not_eq_true'] at hst
    exact ⟨hst.1.1.1.1, hst.1.1.1.2, hst.1.1.2, hst.1.2⟩
  obtain ⟨k1, k2, k3, k4⟩ := k
  have h7 : (s.swapped e).chanEn e = true := by
    unfold State.chanEn State.on State.g at k1 ⊢
    rwa [h1, h2]
  unfold State.inService State.stamps
  rw [h7, h3, k2, h5, h6, swapped_chan]
  simp [k3, k4]

/-! ### A channel goes out of service -/

theorem chanShown_inService : (s.chanShown e).g (R.TDC_En_STATUS e) F.TDC_En_STATUS_IN_SERVICE = b2n (s.inService e) := by
  have h1 : R.TDC_En_STATUS e ≠ R.TDC_En_CAL_S1 e := by simp
  have h2 : R.TDC_En_STATUS e ≠ R.TDC_En_CAL_SPAN e := by simp
  simp only [State.chanShown, State.statusBit, State.g, State.reg_setRegN, State.reg_p, State.reg_pb, h1, h2, status_ne_all,
    if_true, if_false]
  rw [Fld.get_put_ne (by decide) (by decide), Fld.get_put_ne (by decide) (by decide), Fld.get_put (by decide)]
  exact b2n_mod_two _

theorem chanShown_allInService (h : e < 8) :
    maskBit ((s.chanShown e).g R.TDC_STATUS F.TDC_STATUS_IN_SERVICE) e = s.inService e := by
  have h1 : R.TDC_STATUS ≠ R.TDC_En_CAL_S1 e := by simp only [R.TDC_STATUS, R.TDC_En_CAL_S1]; omega
  have h2 : R.TDC_STATUS ≠ R.TDC_En_CAL_SPAN e := by simp only [R.TDC_STATUS, R.TDC_En_CAL_SPAN]; omega
  unfold State.chanShown State.statusBit
  simp only [State.g, State.reg_setRegN, State.reg_p, h1, h2, if_true, if_false]
  rw [Fld.get_put (by decide), maskBit_mod h]
  cases s.inService e
  · exact maskBit_maskClr_self
  · exact maskBit_maskSet_self

/-- Beyond the units' registers a channel's status shows as it is. -/
theorem chanStatus_reg (h : a < 0x380400 ∨ 0x380600 ≤ a) (ha : sharedReg a = false) :
    (s.chanStatus e).reg a = (s.chanShown e).reg a := by
  rw [chanStatus_eq]
  split
  · exact ((Changes.chanOut_iff (unitRegs_ne h) (by simp : Part.tdc ∈ [.tdc])).2 (.refl (s := s.chanShown e))).reg ha (by simp)
  · rfl

theorem chanStatus_g {f : Fld} (h : a < 0x380400 ∨ 0x380600 ≤ a) (ha : sharedReg a = false) :
    (s.chanStatus e).g a f = (s.chanShown e).g a f := congrArg f.get (chanStatus_reg h ha)

theorem status_outside (e : Fin 8) : R.TDC_En_STATUS e < 0x380400 ∨ 0x380600 ≤ R.TDC_En_STATUS e := by
  simp only [R.TDC_En_STATUS]
  omega

theorem KeepsBits.chanShown : KeepsBits R.TDC_RAW s (s.chanShown e) := by
  have h1 : R.TDC_RAW ≠ R.TDC_En_CAL_S1 e := by simp only [R.TDC_RAW, R.TDC_En_CAL_S1]; omega
  have h2 : R.TDC_RAW ≠ R.TDC_En_CAL_SPAN e := by simp only [R.TDC_RAW, R.TDC_En_CAL_SPAN]; omega
  refine .ofReg ?_
  simp [State.chanShown, State.statusBit, h1, h2, status_ne_raw.symm]

theorem KeepsBits.windowEnd {c : Nat} : KeepsBits R.TDC_RAW s (s.windowEnd m c) := by
  unfold State.windowEnd
  split
  · exact .refl
  · refine KeepsBits.trans (.windowEvent (m := m) (c := c)) (.ofReg ?_)
    have h : R.TDC_RAW ≠ R.TDC_Mm_STATUS m := (unitRegs_ne_raw (m := m)).status
    unfold State.dropWin
    rw [State.reg_p, if_neg h, State.reg_setUnit]

theorem KeepsBits.chanStatus : KeepsBits R.TDC_RAW s (s.chanStatus e) := by
  rw [chanStatus_eq]
  exact .ite (KeepsBits.chanShown.trans (.foldl (fun t m => .ite .windowEnd .refl) _ _)) .chanShown

theorem State.hif_setChan {c : TdcChan} : (s.setChan e c).hif = s.hif := rfl

theorem State.hif_setUnit {x : TdcUnit} : (s.setUnit m x).hif = s.hif := rfl

theorem State.hif_windowEnd {c : Nat} : (s.windowEnd m c).hif = s.hif := by
  unfold State.windowEnd
  split
  · rfl
  · simp [State.windowEvent, State.tdcRec, State.dropWin, apply_ite State.hif, State.hif_setUnit]

theorem State.hif_foldl {α : Type} {f : State → α → State} {l : List α} (hf : ∀ t x, (f t x).hif = t.hif) :
    (l.foldl f s).hif = s.hif := by
  induction l generalizing s with
  | nil => rfl
  | cons x r ih => exact ih.trans (hf s x)

theorem State.hif_chanStatus : (s.chanStatus e).hif = s.hif := by
  have h : (s.chanShown e).hif = s.hif := by simp [State.chanShown, State.statusBit]
  rw [chanStatus_eq]
  split
  · refine (State.hif_foldl fun t m => ?_).trans h
    split
    · exact State.hif_windowEnd
    · rfl
  · exact h

/-- The registers that a channel may change when it goes out of service. -/
def outRegs (e : Nat) (a : Nat) : Prop := ∃ r ∈ [(R.TDC_Mm_CFG 0, R.TDC_Mm_CFG 3 + 0x80), (R.TDC_STATUS, R.TDC_STATUS + 4),
  (R.TDC_En_STATUS e, R.TDC_En_STATUS e + 4), (R.TDC_En_CAL_S1 e, R.TDC_En_CAL_S1 e + 4),
  (R.TDC_En_CAL_SPAN e, R.TDC_En_CAL_SPAN e + 4)], r.1 ≤ a ∧ a < r.2

theorem chanRegs_out : ChanRegs (outRegs e) e :=
  ⟨⟨(R.TDC_En_STATUS e, R.TDC_En_STATUS e + 4), by simp, le_refl _, by simp⟩, ⟨(R.TDC_STATUS, R.TDC_STATUS + 4), by simp, le_refl _, by simp⟩,
    ⟨(R.TDC_En_CAL_S1 e, R.TDC_En_CAL_S1 e + 4), by simp, le_refl _, by simp⟩,
    ⟨(R.TDC_En_CAL_SPAN e, R.TDC_En_CAL_SPAN e + 4), by simp, le_refl _, by simp⟩⟩

theorem unitRegs_out : ∀ k < 4, UnitRegs (outRegs e) k := unitRegs_of_block fun _ h1 h2 => ⟨_, List.mem_cons_self .., h1, h2⟩

/-! ### Stuck and disabled channels -/

theorem tdcStuck_eq (hr : s.runs .timescale = true) (he : s.chanEn e = true)
    (hm : s.g (R.TDC_En_LIMITS e) F.TDC_En_LIMITS_STUCK_MS ≠ 0) (h0 : s.g (R.TDC_En_STATUS e) F.TDC_En_STATUS_STUCK = 0)
    (hl : s.g (R.TDC_En_CFG e) F.TDC_En_CFG_EDGE = 2 ∨
      s.on (R.TDC_En_STATUS e) F.TDC_En_STATUS_LEVEL = (s.g (R.TDC_En_CFG e) F.TDC_En_CFG_EDGE == 0)) :
    s.tdcStuck e = ((s.markStuck e true).raw R.TDC_RAW F.TDC_RAW_STUCK).chanStatus e := by
  unfold State.tdcStuck
  refine if_neg ?_
  rintro (h | h | h | h | ⟨h, h'⟩)
  · exact hm h
  · exact absurd he (by simpa using h)
  · exact absurd hr (by simpa using h)
  · simp [State.on, h0] at h
  · exact hl.elim h h'

/-- A channel is disabled. -/
def State.disabled (s : State) (e lost : Nat) : State :=
  ((((s.setChan e { s.chan e with lost := 0 }).pb (R.TDC_En_STATUS e) F.TDC_En_STATUS_DISABLED true).statusBit
    F.TDC_STATUS_DISABLED e true).raw R.TDC_RAW F.TDC_RAW_OVR_DISABLE).fault 13 2 e lost

theorem tdcInterval_over (hr : s.runs .timescale = true) (hd : s.g (R.TDC_En_CFG e) F.TDC_En_CFG_OVR_DIS_EN = 1)
    (he : s.chanEn e = true) (h0 : s.g (R.TDC_En_STATUS e) F.TDC_En_STATUS_DISABLED = 0)
    (hl : s.g (R.TDC_En_LIMITS e) F.TDC_En_LIMITS_OVR_LIMIT < (s.chan e).lost) :
    s.tdcInterval e = (s.disabled e ((s.chan e).lost % 2 ^ 32)).chanStatus e := by
  unfold State.tdcInterval
  extract_lets c y y'
  have h1 : y.on (R.TDC_En_CFG e) F.TDC_En_CFG_OVR_DIS_EN = true := by simp [y, State.on, State.g] at hd ⊢; simp [hd]
  have h2 : y.chanEn e = true := he
  have h3 : y.on (R.TDC_En_STATUS e) F.TDC_En_STATUS_DISABLED = false := by simp [y, State.on, State.g] at h0 ⊢; simp [h0]
  have h4 : y.g (R.TDC_En_LIMITS e) F.TDC_En_LIMITS_OVR_LIMIT < c.lost := hl
  rw [if_neg (by simp [hr]), if_pos (by simp [h1, h2, h3, h4])]
  rfl

theorem tdcInterval_within (hr : s.runs .timescale = true)
    (hl : (s.chan e).lost ≤ s.g (R.TDC_En_LIMITS e) F.TDC_En_LIMITS_OVR_LIMIT) :
    s.tdcInterval e = s.setChan e { s.chan e with lost := 0 } := by
  unfold State.tdcInterval
  extract_lets c y y'
  have h4 : ¬ y.g (R.TDC_En_LIMITS e) F.TDC_En_LIMITS_OVR_LIMIT < c.lost := Nat.not_lt.2 hl
  rw [if_neg (by simp [hr]), if_neg (by simp [h4])]

/-! ### Rearming -/

/-- A disabled channel is enabled again and calibrates. -/
def State.rearmed (s : State) (e : Nat) : State :=
  ((s.pb (R.TDC_En_STATUS e) F.TDC_En_STATUS_DISABLED false).statusBit F.TDC_STATUS_DISABLED e false).calibrate e

/-- What REARM does to channel `e`. -/
def State.rearmOn (s : State) (v : Word) (e : Nat) : State :=
  if bit v e && s.on (R.TDC_En_STATUS e) F.TDC_En_STATUS_DISABLED then s.rearmed e else s

theorem tdcRearm_eq {v : Word} : s.tdcRearm v = (List.range 8).foldl (fun s e => s.rearmOn v e) s := rfl

@[simp] theorem Changes.rearmed_iff (h : ChanRegs A e) (hu : ∀ m < 4, UnitRegs A m) (ht : .tdc ∈ ps) :
    Changes A ps s (t.rearmed e) ↔ Changes A ps s t := by
  unfold State.rearmed State.calibrate
  rw [Changes.chanStatus_iff h hu ht]
  simp [ht, h.status, h.all]

theorem rearmed_chan : (s.rearmed e).chan n =
    if n = e then { s.chan e with a := ⟨none, false⟩, b := ⟨none, false⟩, calA := true, calB := true } else s.chan n := by
  unfold State.rearmed State.calibrate State.statusBit
  rw [State.chan_chanStatus, State.chan_setChan]
  simp only [State.chan_p, State.chan_pb]

theorem rearmed_disabled (e : Fin 8) : (s.rearmed e).g (R.TDC_En_STATUS e) F.TDC_En_STATUS_DISABLED = 0 := by
  unfold State.rearmed State.calibrate
  rw [chanStatus_g (status_outside e) (by simp), chanShown_g (by decide)]
  unfold State.statusBit State.g
  rw [State.reg_setChan, State.reg_p, if_neg status_ne_all, State.reg_pb, if_pos rfl, Fld.get_put (by decide)]
  rfl

section
variable {v : Word}

theorem rearmOn_other {e k : Fin 8} (h : k ≠ e) :
    (s.rearmOn v k).reg (R.TDC_En_STATUS e) = s.reg (R.TDC_En_STATUS e) ∧ (s.rearmOn v k).chan e = s.chan e := by
  have hk : k.val ≠ e.val := fun x => h (Fin.ext x)
  unfold State.rearmOn
  split
  · refine ⟨?_, rearmed_chan.trans (if_neg (Ne.symm hk))⟩
    have B : ChanRegs (· ≠ R.TDC_En_STATUS e) k := by
      constructor
      all_goals
        simp only [R.TDC_En_STATUS, R.TDC_STATUS, R.TDC_En_CAL_S1, R.TDC_En_CAL_SPAN]
        omega
    exact ((Changes.rearmed_iff B (unitRegs_ne (status_outside e)) (by simp : Part.tdc ∈ [.tdc])).2 (.refl (s := s))).reg
      (by simp) (by simp)
  · exact ⟨rfl, rfl⟩

theorem foldl_rearmOn_other {e : Fin 8} {l : List Nat} (h : e.val ∉ l) (hl : ∀ k ∈ l, k < 8) :
    (l.foldl (fun s k => s.rearmOn v k) s).reg (R.TDC_En_STATUS e) = s.reg (R.TDC_En_STATUS e) ∧
      (l.foldl (fun s k => s.rearmOn v k) s).chan e = s.chan e := by
  induction l generalizing s with
  | nil => exact ⟨rfl, rfl⟩
  | cons k r ih =>
    obtain ⟨h1, h2⟩ := not_or.1 fun x => h (List.mem_cons.2 x)
    obtain ⟨i1, i2⟩ := ih (s := s.rearmOn v k) h2 fun j hj => hl j (List.mem_cons_of_mem _ hj)
    obtain ⟨o1, o2⟩ := rearmOn_other (s := s) (v := v) (e := e) (k := ⟨k, hl k (List.mem_cons_self ..)⟩)
      fun x => h1 (congrArg Fin.val x).symm
    exact ⟨i1.trans o1, i2.trans o2⟩

/-- What REARM does to the status and the timing of a channel is what it does on it alone. -/
theorem tdcRearm_on (e : Fin 8) : ∃ t : State, t.reg (R.TDC_En_STATUS e) = s.reg (R.TDC_En_STATUS e) ∧ t.chan e = s.chan e ∧
    (s.tdcRearm v).reg (R.TDC_En_STATUS e) = (t.rearmOn v e).reg (R.TDC_En_STATUS e) ∧
    (s.tdcRearm v).chan e = (t.rearmOn v e).chan e := by
  have hsplit : List.range 8 = List.range e.val ++ e.val :: (List.range 8).drop (e.val + 1) := by revert e; decide
  have h2 : e.val ∉ (List.range 8).drop (e.val + 1) := by revert e; decide
  have h3 : ∀ k ∈ (List.range 8).drop (e.val + 1), k < 8 := fun k hk => List.mem_range.1 (List.mem_of_mem_drop hk)
  obtain ⟨o1, o2⟩ := foldl_rearmOn_other (s := s) (v := v) (e := e) (l := List.range e.val) (by simp)
    fun k hk => (List.mem_range.1 hk).trans e.isLt
  obtain ⟨p1, p2⟩ := foldl_rearmOn_other (s := ((List.range e.val).foldl (fun s k => s.rearmOn v k) s).rearmOn v e) (v := v) h2 h3
  refine ⟨_, o1, o2, ?_, ?_⟩
  · rw [tdcRearm_eq, hsplit, List.foldl_append, List.foldl_cons, p1]
  · rw [tdcRearm_eq, hsplit, List.foldl_append, List.foldl_cons, p2]

/-- The registers of the event inputs. -/
theorem Changes.tdcRearm (hA : ∀ a, 0x380000 ≤ a → a < 0x3C0000 → A a) (ht : .tdc ∈ ps) :
    Changes A ps s (t.tdcRearm v) ↔ Changes A ps s t := by
  rw [tdcRearm_eq]
  refine Changes.foldl_mem_iff fun t e he => ?_
  have h : e < 8 := List.mem_range.1 he
  unfold State.rearmOn
  have B : ChanRegs A e := by
    constructor <;> refine hA _ ?_ ?_
    all_goals
      simp only [R.TDC_En_STATUS, R.TDC_STATUS, R.TDC_En_CAL_S1, R.TDC_En_CAL_SPAN]
      omega
  have U : ∀ m < 4, UnitRegs A m := unitRegs_of_block fun a h1 h2 =>
    hA a (by simp only [R.TDC_Mm_CFG] at h1; omega) (by simp only [R.TDC_Mm_CFG] at h2; omega)
  rw [Changes.ite_iff, Changes.rearmed_iff B U ht, ite_self]

theorem act_rearm {old : Word} : s.act R.TDC_REARM old v = s.tdcRearm v := by
  unfold State.act State.actTdc
  rfl

end

/-- Settles O54. -/
theorem eventChannels : Obligations.EventChannels := by
  refine ⟨fun s e a b hs he hr ha hb hi hv => ?_, fun s e a b hs he hr ha hb hi hv => ?_,
    fun s e hs hr hst h0 hf hc hu => ?_, fun s e hs hr he hm h0 hl => ?_, fun s e hs hr hd he h0 hl => ?_,
    fun s e hs hr hl => ?_, fun s v ha => ?_⟩
  · refine calAnswers hs he hr ha hb hi fun u hc _ C => ⟨?_, ?_, ?_, C.sameBut, C.parts⟩
    · rw [hc]
      exact if_pos hv
    · rw [hc]
      rfl
    · rw [hc]
      rfl
  · refine calAnswers hs he hr ha hb hi fun u hc hset C => ⟨?_, ?_, ?_, hset hv, C.sameBut, C.parts⟩
    · rw [hc]
      exact if_neg (by simp [hv])
    · rw [hc]
      rfl
    · rw [hc]
      rfl
  · show Answers (done s (s.swap e .point)) _
    have hf' : (s.standby e).fresh = true := by
      simpa only [State.standby, State.on_iff (f := F.TDC_En_STATUS_ACTIVE) rfl] using hf
    have hc' : (s.standby e).cal ≠ none := by
      simpa only [State.standby, State.on_iff (f := F.TDC_En_STATUS_ACTIVE) rfl] using hc
    rw [swap_point hst hr hf' hc' hu, chanStatus_stays (.inr (swapped_inService hst h0 hc'))]
    refine Answers.ofChanges (A := (· ∈ chanRegs e)) (ps := [.tdc]) hs ?_ fun u L C => ⟨?_, ?_, ?_, C.sameBut, C.parts⟩
    · rw [Changes.chanShown_iff chanRegs_mem]
      simp [State.swapped, State.turned]
    · rw [L.g (by simp), chanShown_g (by decide)]
      have k : (s.swapped e).on (R.TDC_En_STATUS e) F.TDC_En_STATUS_ACTIVE = !s.on (R.TDC_En_STATUS e) F.TDC_En_STATUS_ACTIVE :=
        swapped_active
      have h1 : (s.swapped e).g (R.TDC_En_STATUS e) F.TDC_En_STATUS_ACTIVE < 2 := Fld.get_lt _ _
      have h2 : s.g (R.TDC_En_STATUS e) F.TDC_En_STATUS_ACTIVE < 2 := Fld.get_lt _ _
      unfold State.on at k
      generalize (s.swapped e).g (R.TDC_En_STATUS e) F.TDC_En_STATUS_ACTIVE = x at k h1 ⊢
      generalize s.g (R.TDC_En_STATUS e) F.TDC_En_STATUS_ACTIVE = y at k h2 ⊢
      interval_cases x <;> interval_cases y <;> simp_all
    · rw [L.g (by simp), chanShown_g (by decide), swapped_swaps]
    · rw [State.chan_of_tdc L.tdc, State.chan_chanShown, swapped_chan]
  · show Answers (done s (s.tdcStuck e)) _
    rw [tdcStuck_eq hr he hm h0 hl]
    have hi : ((s.markStuck e true).raw R.TDC_RAW F.TDC_RAW_STUCK).inService e = false := by
      have k : ((s.markStuck e true).raw R.TDC_RAW F.TDC_RAW_STUCK).g (R.TDC_En_STATUS e) F.TDC_En_STATUS_STUCK = 1 := by
        refine (congrArg F.TDC_En_STATUS_STUCK.get ?_).trans (markStuck_stuck (s := s) (e := e) (b := true))
        rw [State.reg_raw, if_neg status_ne_raw]
      simp [State.inService, State.on, k]
    refine Answers.ofChanges (A := outRegs e) (ps := [.tdc]) hs ?_ fun u L C => ⟨?_, ?_, ?_, ?_, ?_, C.sameBeyond, C.parts⟩
    · rw [Changes.chanStatus_iff chanRegs_out unitRegs_out (by simp)]
      simp [chanRegs_out.status, chanRegs_out.all]
    · rw [L.g (by simp), chanStatus_g (status_outside e) (by simp), chanShown_g (by decide)]
      refine (congrArg F.TDC_En_STATUS_STUCK.get ?_).trans (markStuck_stuck (s := s) (e := e) (b := true))
      rw [State.reg_raw, if_neg status_ne_raw]
    · rw [L.g (by simp), chanStatus_g (status_outside e) (by simp), chanShown_inService, hi]
      rfl
    · rw [L.g (by decide), chanStatus_g (by decide) (by decide), chanShown_all (by decide)]
      refine Eq.trans (congrArg (fun v => maskBit (F.TDC_STATUS_STUCK.get v) e.val) ?_) (markStuck_all (s := s) (b := true) e.isLt)
      rw [State.reg_raw, if_neg (by decide)]
    · rw [L.g (by decide), chanStatus_g (by decide) (by decide), chanShown_allInService e.isLt, hi]
    · exact (KeepsBits.trans .chanStatus (.ofLogs (by decide) L)).isSet (by decide) rfl (State.isSet_raw (by decide) rfl)
  · show Answers (done s (s.tdcInterval e)) _
    rw [tdcInterval_over hr hd he h0 hl]
    generalize (s.chan e).lost % 2 ^ 32 = w
    have hst : (s.disabled e w).g (R.TDC_En_STATUS e) F.TDC_En_STATUS_DISABLED = 1 := by
      unfold State.disabled State.g State.statusBit
      rw [State.reg_fault (by simp only [R.TDC_En_STATUS, R.HIF_FQ_STATUS]; omega) (by simp only [R.TDC_En_STATUS, R.HIF_RAW]; omega),
        State.reg_raw, if_neg status_ne_raw, State.reg_p, if_neg status_ne_all, State.reg_pb, if_pos rfl, Fld.get_put (by decide)]
      rfl
    have hi : (s.disabled e w).inService e = false := by simp [State.inService, State.stamps, State.on, hst]
    refine Answers.ofChanges (A := outRegs e) (ps := [.tdc]) hs ?_ fun u L C => ⟨?_, ?_, ?_, ?_, fun hq => ?_, C.sameBeyond, C.parts⟩
    · rw [Changes.chanStatus_iff chanRegs_out unitRegs_out (by simp)]
      simp [State.disabled, chanRegs_out.status, chanRegs_out.all]
    · rw [State.chan_of_tdc L.tdc, State.chan_chanStatus]
      simp [State.disabled, State.statusBit]
    · rw [L.g (by simp), chanStatus_g (status_outside e) (by simp), chanShown_g (by decide), hst]
    · rw [L.g (by simp), chanStatus_g (status_outside e) (by simp), chanShown_inService, hi]
      rfl
    · exact (KeepsBits.trans (.ofLogs (by decide) (.fault (.refl _))) (KeepsBits.trans .chanStatus (.ofLogs (by decide) L))).isSet
        (by decide) rfl (State.isSet_raw (by decide) rfl)
    · refine L.queued ?_
      rw [State.hif_chanStatus]
      refine ⟨_, State.mem_fq_fault ?_, rfl, rfl, Nat.mod_eq_of_lt (e.isLt.trans (by decide))⟩
      simpa [State.statusBit, State.hif_setChan] using hq
  · show Answers (done s (s.tdcInterval e)) _
    rw [tdcInterval_within hr hl]
    refine Answers.ofChanges (A := (· ∈ [])) (ps := [.tdc]) hs (by simp) fun u L C => ⟨?_, C.sameBut, C.parts⟩
    rw [State.chan_of_tdc L.tdc, State.chan_setChan, if_pos rfl]
  · refine Answers.ofCommand (A := fun a => ∃ r ∈ [(0x380000, 0x3C0000)], r.1 ≤ a ∧ a < r.2) (ps := [.tdc]) ha (by decide) (by decide)
      act_rearm ((Changes.tdcRearm (fun a h1 h2 => ⟨_, List.mem_cons_self .., h1, h2⟩) (by simp)).2 .refl) fun u L C =>
      ⟨fun e hb hd => ?_, fun e hb => ?_, C.sameBeyond, C.parts⟩
    · obtain ⟨t, t1, t2, r1, r2⟩ := tdcRearm_on (s := s.setReg R.TDC_REARM (s.reg R.TDC_REARM)) (v := v) e
      have hon : t.on (R.TDC_En_STATUS e) F.TDC_En_STATUS_DISABLED = true := by
        rw [← hd]
        refine State.on_of_g (congrArg F.TDC_En_STATUS_DISABLED.get (t1.trans ?_))
        exact State.reg_setReg_self s R.TDC_REARM _
      have hr : t.rearmOn v e = t.rearmed e := if_pos (by rw [hb, hon]; rfl)
      rw [hr] at r1 r2
      have hg : u.g (R.TDC_En_STATUS e) F.TDC_En_STATUS_DISABLED = 0 := by
        rw [L.g (by simp)]
        exact (congrArg F.TDC_En_STATUS_DISABLED.get r1).trans (rearmed_disabled e)
      have hch := (State.chan_of_tdc L.tdc).trans (r2.trans (rearmed_chan.trans (if_pos rfl)))
      refine ⟨?_, ?_, ?_⟩
      · simp [State.on, hg]
      · rw [hch]
      · rw [hch]
    · obtain ⟨t, t1, t2, r1, r2⟩ := tdcRearm_on (s := s.setReg R.TDC_REARM (s.reg R.TDC_REARM)) (v := v) e
      have hr : t.rearmOn v e = t := if_neg (by simp [hb])
      rw [hr] at r1 r2
      refine ⟨?_, ?_⟩
      · rw [L.reg _ (by simp), r1, t1]
        exact State.reg_setReg_self s R.TDC_REARM _
      · rw [State.chan_of_tdc L.tdc, r2, t2, State.chan_setReg]

end Sys2Proof.Machine
end

section

/-! ## Measurement windows (R355 to R359) -/

set_option Elab.async false

namespace Sys2Proof.Machine

variable {A : Nat → Prop} {ps : List Part} {s t : State} {a e m n : Nat}

@[simp] theorem sharedReg_TDC_Mm_STATUS (m : Fin 4) : sharedReg (R.TDC_Mm_STATUS m) = false := by revert m; decide
@[simp] theorem sharedReg_TDC_Mm_CNT (m : Fin 4) : sharedReg (R.TDC_Mm_CNT m) = false := by revert m; decide
@[simp] theorem sharedReg_TDC_Mm_LAST_LO (m : Fin 4) : sharedReg (R.TDC_Mm_LAST_LO m) = false := by revert m; decide
theorem sharedReg_LAST_LO_add (m : Fin 4) : sharedReg (R.TDC_Mm_LAST_LO m + 4) = false := by revert m; decide

/-! ### A window opens -/

section
variable {t₀ : Tick64} {l : List Tick64}

/-- The window that opens at `t`. -/
def State.newWin (s : State) (m : Nat) (t : Tick64) : TdcWin :=
  ⟨t, if s.ucfg m F.TDC_Mm_CFG_START = s.ucfg m F.TDC_Mm_CFG_STOP ∧ s.ucfg m F.TDC_Mm_CFG_MODE = 1 then 1 else 0, t, t, false,
    (s.chan (s.ucfg m F.TDC_Mm_CFG_STOP)).lostAt.any (s.covers m t), !s.inService (s.ucfg m F.TDC_Mm_CFG_STOP)⟩

/-- The window of unit `m` is open and counted. -/
def State.opened (s : State) (m : Nat) (x : TdcUnit) : State :=
  ((s.setUnit m x).p (R.TDC_Mm_STATUS m) F.TDC_Mm_STATUS_WINDOW (s.g (R.TDC_Mm_STATUS m) F.TDC_Mm_STATUS_WINDOW + 1)).p
    (R.TDC_Mm_STATUS m) F.TDC_Mm_STATUS_WIN_OPEN 1

/-- A window opens on a channel that holds no stamps. -/
theorem openWindow_fresh (hh : (s.chan (s.ucfg m F.TDC_Mm_CFG_STOP)).hist = [])
    (hg : (s.chan (s.ucfg m F.TDC_Mm_CFG_STOP)).gone = none) :
    s.openWindow m t₀ = s.opened m { s.unit m with win := some (s.newWin m t₀) } := by
  have e : s.newWin m t₀ = ⟨t₀, if (s.ucfg m F.TDC_Mm_CFG_START == s.ucfg m F.TDC_Mm_CFG_STOP) &&
      (s.ucfg m F.TDC_Mm_CFG_MODE == 1) then 1 else 0, t₀, t₀, false,
      (s.chan (s.ucfg m F.TDC_Mm_CFG_STOP)).lostAt.any (s.covers m t₀), !s.inService (s.ucfg m F.TDC_Mm_CFG_STOP)⟩ := by
    simp [State.newWin]
  rw [e]
  unfold State.openWindow
  simp only [hh, hg, List.reverse_nil, List.foldl_nil]
  rfl

/-- Unit `m` has taken its oldest start. -/
def State.tookStart (s : State) (m : Nat) (l : List Tick64) : State := s.setUnit m { s.unit m with starts := l }

theorem windowStart_opens (hr : s.runs .timescale = true) (hs : (s.unit m).starts = t₀ :: l) (ho : s.unitOn m = true)
    (hi : s.ucfg m F.TDC_Mm_CFG_START = 8 ∨ s.ucfg m F.TDC_Mm_CFG_START < 8 ∧ s.inService (s.ucfg m F.TDC_Mm_CFG_START) = true)
    (hw : (s.unit m).win = none) : s.windowStart m = (s.tookStart m l).openWindow m t₀ := by
  unfold State.windowStart
  split
  · next k => rw [hs] at k; cases k
  · next k =>
    rw [hs] at k
    obtain ⟨rfl, rfl⟩ := List.cons.inj k
    have h : (!(s.tookStart m l).unitOn m || (decide ((s.tookStart m l).ucfg m F.TDC_Mm_CFG_START < 8) &&
        !(s.tookStart m l).inService ((s.tookStart m l).ucfg m F.TDC_Mm_CFG_START))) = false := by
      change (!s.unitOn m || (decide (s.ucfg m F.TDC_Mm_CFG_START < 8) && !s.inService (s.ucfg m F.TDC_Mm_CFG_START))) = false
      rw [ho]
      rcases hi with hi | ⟨-, hi⟩
      · rw [hi]
        rfl
      · rw [hi]
        simp
    rw [if_neg (by simp [hr])]
    refine (if_neg fun k => absurd (h.symm.trans k) (by decide)).trans ?_
    split
    · rfl
    · next w k =>
      rw [State.unit_setUnit, if_pos rfl] at k
      exact absurd (hw.symm.trans k) (by simp)

theorem windowStart_busy {w : TdcWin} (hr : s.runs .timescale = true) (hs : (s.unit m).starts = t₀ :: l) (ho : s.unitOn m = true)
    (hi : s.ucfg m F.TDC_Mm_CFG_START = 8) (hw : (s.unit m).win = some w) (hc : tickDiff t₀ w.start < s.winClose m) :
    s.windowStart m = (s.tookStart m l).windowEvent m 5 := by
  unfold State.windowStart
  split
  · next k => rw [hs] at k; cases k
  · next k =>
    rw [hs] at k
    obtain ⟨rfl, rfl⟩ := List.cons.inj k
    have h : (!(s.tookStart m l).unitOn m || (decide ((s.tookStart m l).ucfg m F.TDC_Mm_CFG_START < 8) &&
        !(s.tookStart m l).inService ((s.tookStart m l).ucfg m F.TDC_Mm_CFG_START))) = false := by
      change (!s.unitOn m || (decide (s.ucfg m F.TDC_Mm_CFG_START < 8) && !s.inService (s.ucfg m F.TDC_Mm_CFG_START))) = false
      rw [ho, hi]
      rfl
    rw [if_neg (by simp [hr])]
    refine (if_neg fun k => absurd (h.symm.trans k) (by decide)).trans ?_
    split
    · next k =>
      rw [State.unit_setUnit, if_pos rfl] at k
      exact absurd (hw.symm.trans k) (by simp)
    · next w' k =>
      rw [State.unit_setUnit, if_pos rfl] at k
      obtain rfl : w = w' := Option.some.inj (hw.symm.trans k)
      exact if_neg (Int.not_le.2 hc)

end

/-! ### A window closes -/

section
variable {w : TdcWin} (hr : s.runs .timescale = true) (hw : (s.unit m).win = some w) (hst : w.stepped = false) (hl : w.lost = false)
include hr hw hst hl

theorem windowClose_empty (hn : w.noStop = false) (hm : s.ucfg m F.TDC_Mm_CFG_MODE = 0) (hc : w.count = 0) :
    s.windowClose m = (s.windowEvent m 1).dropWin m := by
  unfold State.windowClose
  split
  · next k => rw [hw] at k; cases k
  · next w' k =>
    obtain rfl : w = w' := Option.some.inj (hw.symm.trans k)
    rw [if_neg (by simp [hr])]
    simp [hm, hc, hn, hst, hl]

/-- The result of a frequency window. -/
def State.freqResult (s : State) (m : Nat) (w : TdcWin) : State :=
  (s.drawn.drawn.tdcRec 2 (s.ucfg m F.TDC_Mm_CFG_STOP) (s.ucfg m F.TDC_Mm_CFG_START) false (s.freqOf w % 2 ^ 64) m
    (s.g (R.TDC_Mm_STATUS m) F.TDC_Mm_STATUS_WINDOW) (round64 (w.start + BitVec.ofNat 64 (s.winClose m).toNat)) s.seg false
    false).result m true (sx 64 (s.freqOf w))

theorem windowClose_freq (hm : s.ucfg m F.TDC_Mm_CFG_MODE = 1) (hc : 2 ≤ w.count) :
    s.windowClose m = (s.freqResult m w).dropWin m := by
  unfold State.windowClose
  split
  · next k => rw [hw] at k; cases k
  · next w' k =>
    obtain rfl : w = w' := Option.some.inj (hw.symm.trans k)
    rw [if_neg (by simp [hr])]
    simp [hm, Nat.not_lt.2 hc, hst, hl]
    rfl

end

/-! ### Results -/

/-- A signed number of 64 bits reads back. -/
theorem sx_enc {x : Int} (h : -2 ^ 63 ≤ x) (h' : x < 2 ^ 63) : sx 64 (enc 64 x) = x := by
  unfold sx enc
  dsimp only
  norm_num only at h h' ⊢
  split <;> omega

theorem sx_bounds {n : Nat} : -2 ^ 63 ≤ sx 64 n ∧ sx 64 n < 2 ^ 63 := by
  unfold sx
  dsimp only
  norm_num only
  split <;> omega

/-- The units' LAST registers other than that of unit `m`, and the other registers, may change. -/
def KeepsLast (m : Nat) (a : Nat) : Prop := a ≠ R.TDC_Mm_LAST_LO m ∧ a ≠ R.TDC_Mm_LAST_LO m + 4

theorem blockRegs_keepsLast : BlockRegs (KeepsLast m) n := by
  constructor
  all_goals
    simp only [KeepsLast, R.TDC_Mm_STATUS, R.TDC_Mm_CNT, R.TDC_Mm_STAT_USED, R.TDC_Mm_STAT_PROG, R.TDC_Mm_MEAN_LO,
      R.TDC_Mm_SD_LO, R.TDC_Mm_MIN_LO, R.TDC_Mm_MAX_LO, R.TDC_Mm_LAST_LO]
    omega

theorem unitRegs_keepsLast (h : n ≠ m) : UnitRegs (KeepsLast m) n := by
  refine ⟨blockRegs_keepsLast, ?_, ?_⟩
  all_goals
    simp only [KeepsLast, R.TDC_Mm_LAST_LO]
    omega

/-- A frame that keeps LAST. -/
theorem Changes.last {m : Fin 4} (h : Changes (KeepsLast m) ps s t) :
    t.pairI (R.TDC_Mm_LAST_LO m) = s.pairI (R.TDC_Mm_LAST_LO m) := by
  have h1 : t.reg (R.TDC_Mm_LAST_LO m) = s.reg (R.TDC_Mm_LAST_LO m) := h.reg (by simp) (by simp [KeepsLast])
  have h2 : t.reg (R.TDC_Mm_LAST_LO m + 4) = s.reg (R.TDC_Mm_LAST_LO m + 4) :=
    h.reg (sharedReg_LAST_LO_add m) (by simp [KeepsLast])
  unfold State.pairI State.pair
  rw [h1, h2]

theorem result_last {m : Fin 4} {q : Bool} {x : Int} (h : -2 ^ 63 ≤ x) (h' : x < 2 ^ 63) :
    (s.result m q x).pairI (R.TDC_Mm_LAST_LO m) = x := by
  have B := blockRegs_keepsLast (m := m) (n := m)
  have C : Changes (KeepsLast m) [.tdc] (s.setPairI (R.TDC_Mm_LAST_LO m) x) (s.result m q x) := by
    unfold State.result
    simp [B, B.cnt]
  rw [C.last]
  unfold State.pairI
  rw [State.pair_setPairI, sx_enc h h']

/-! ### A stop -/

/-- The interval of a stop in an open window is the unit's result. -/
theorem stop_last {m : Fin 4} {w : TdcWin} {u : Tick64} {seg : Nat} (hne : s.ucfg m F.TDC_Mm_CFG_START ≠ s.ucfg m F.TDC_Mm_CFG_STOP)
    (hm : s.ucfg m F.TDC_Mm_CFG_MODE = 0) (hn : s.ucfg m F.TDC_Mm_CFG_STOPS = 1 ∨ w.count = 0) (hst : w.stepped = false)
    (ho : s.winOpen m ≤ tickDiff u w.start) (hc : tickDiff u w.start ≤ s.winClose m)
    (hf : 64 ≤ tickDiff u w.start ∨ tickDiff u w.start ≤ -64) :
    (s.stop m w u seg).pairI (R.TDC_Mm_LAST_LO m) = (tickDiff u w.start + 32) / 64 := by
  have hb := sx_bounds (n := (u - w.start).toNat)
  change -2 ^ 63 ≤ tickDiff u w.start ∧ tickDiff u w.start < 2 ^ 63 at hb
  unfold State.stop
  extract_lets o same freq w' un y sub v z
  have h1 : ¬ (o < s.winOpen m ∨ s.winClose m < o ∨ same = true ∧ o ≤ 0) := by
    rintro (k | k | ⟨k, -⟩)
    · exact absurd ho (Int.not_le.2 k)
    · exact absurd hc (Int.not_le.2 k)
    · exact hne (by simpa [same] using k)
  have h2 : ¬ (freq = true ∨ w.stepped = true ∨ y.ucfg m F.TDC_Mm_CFG_STOPS = 0 ∧ w.count ≠ 0) := by
    rintro (k | k | ⟨k, k'⟩)
    · simp [freq, hm] at k
    · simp [hst] at k
    · rcases hn with hn | hn
      · exact absurd (hn.symm.trans k) (by decide)
      · exact k' hn
  have hv : v = (o + 32) / 64 := by
    have hs : sub = false := by
      simp only [sub, o, Bool.and_eq_false_iff, decide_eq_false_iff_not]
      omega
    simp only [v, hs]
    rfl
  rw [if_neg h1, if_neg h2, result_last]
  · exact hv
  · rw [hv]
    omega
  · rw [hv]
    omega

/-! ### Stops of other units -/

section
variable {u : Tick64} {seg : Nat}

theorem unit_latch_ne {q : Bool} (h : m ≠ n) : (s.latch n q).unit m = s.unit m := by
  unfold State.latch
  simp [h]

theorem unit_sample_ne {q : Bool} {x : Int} (h : m ≠ n) : (s.sample n q x).unit m = s.unit m := by
  unfold State.sample
  simp [h, unit_latch_ne]

theorem unit_result_ne {q : Bool} {x : Int} (h : m ≠ n) : (s.result n q x).unit m = s.unit m := by
  unfold State.result
  simp [h, unit_sample_ne]

theorem unit_stop_ne {w : TdcWin} (h : m ≠ n) : (s.stop n w u seg).unit m = s.unit m := by
  unfold State.stop
  simp [h, unit_result_ne]

theorem unit_stopOn_ne (h : m ≠ n) : (s.stopOn e u seg n).unit m = s.unit m := by
  unfold State.stopOn
  split
  · split
    · exact unit_stop_ne h
    · rfl
  · rfl

/-- What may change in the stops of the other units. -/
def OtherUnits (m : Nat) (a : Nat) : Prop := a < R.TDC_Mm_CFG m ∨ R.TDC_Mm_CFG m + 0x80 ≤ a

theorem unitRegs_other (h : n ≠ m) : UnitRegs (OtherUnits m) n := .ofRange fun a h1 h2 => by
  simp only [OtherUnits, R.TDC_Mm_CFG] at *
  omega

/-- Stops of other units leave a unit's window and registers as they are. -/
theorem foldl_stopOn_other {l : List Nat} (h : m ∉ l) :
    Changes (OtherUnits m) [.tdc] s (l.foldl (fun s n => s.stopOn e u seg n) s) ∧
      (l.foldl (fun s n => s.stopOn e u seg n) s).unit m = s.unit m := by
  have hne (n : Nat) (hn : n ∈ l) : n ≠ m := fun k => h (k ▸ hn)
  refine ⟨(Changes.foldl_mem_iff fun t n hn => Changes.stopOn_iff (unitRegs_other (hne n hn)) (by simp)).2 .refl, ?_⟩
  clear hne
  induction l generalizing s with
  | nil => rfl
  | cons n r ih =>
    obtain ⟨h1, h2⟩ := not_or.1 fun x => h (List.mem_cons.2 x)
    exact (ih h2).trans (unit_stopOn_ne h1)

theorem range_four (m : Fin 4) : List.range 4 = List.range m.val ++ m.val :: (List.range 4).drop (m.val + 1) := by
  revert m
  decide

theorem notMem_drop (m : Fin 4) : m.val ∉ (List.range 4).drop (m.val + 1) := by
  revert m
  decide

/-- The stops of a conversion leave the result of the unit that they give one. -/
theorem stopAll_last {m : Fin 4} {w : TdcWin} {v : Int} (hw : (s.unit m).win = some w)
    (he : s.ucfg m F.TDC_Mm_CFG_STOP = e)
    (h : ∀ t : State, Changes (OtherUnits m) [.tdc] s t → (t.stop m w u seg).pairI (R.TDC_Mm_LAST_LO m) = v) :
    (s.stopAll e u seg).pairI (R.TDC_Mm_LAST_LO m) = v := by
  have hsplit := range_four m
  have h2 := notMem_drop m
  obtain ⟨C, hu⟩ := foldl_stopOn_other (s := s) (e := e) (u := u) (seg := seg) (m := m.val) (l := List.range m.val) (by simp)
  unfold State.stopAll
  rw [hsplit, List.foldl_append, List.foldl_cons]
  generalize (List.range m.val).foldl (fun s n => s.stopOn e u seg n) s = t at C hu ⊢
  have hs : t.ucfg m F.TDC_Mm_CFG_STOP = e := by
    rw [← he]
    exact C.g (sharedReg_TDC_Mm_CFG m) (by simp only [OtherUnits, R.TDC_Mm_CFG]; omega)
  have hm : t.stopOn e u seg m = t.stop m w u seg := by
    unfold State.stopOn
    split
    · next w' k =>
      obtain rfl : w = w' := Option.some.inj ((hu ▸ hw : (t.unit m).win = some w).symm.trans k)
      exact if_pos hs
    · next k => exact absurd ((hu ▸ hw : (t.unit m).win = some w).symm.trans k) (by simp)
  rw [hm, Changes.last (ps := [.tdc]) (s := t.stop m w u seg) ?_, h t C]
  have hne (n : Nat) (hn : n ∈ (List.range 4).drop (m.val + 1)) : n ≠ m := fun k => h2 (k ▸ hn)
  exact (Changes.foldl_mem_iff fun t n hn => Changes.stopOn_iff (unitRegs_keepsLast (hne n hn)) (by simp)).2 .refl

end

/-- A window is set by the configuration of its unit. -/
theorem window_congr (h1 : t.reg (R.TDC_Mm_CFG m) = s.reg (R.TDC_Mm_CFG m)) (h2 : t.reg (R.TDC_Mm_OPEN m) = s.reg (R.TDC_Mm_OPEN m))
    (h3 : t.reg (R.TDC_Mm_CLOSE m) = s.reg (R.TDC_Mm_CLOSE m)) :
    t.winOpen m = s.winOpen m ∧ t.winClose m = s.winClose m ∧ ∀ f, t.ucfg m f = s.ucfg m f := by
  have hc (f : Fld) : t.ucfg m f = s.ucfg m f := congrArg f.get h1
  refine ⟨?_, ?_, hc⟩
  · unfold State.winOpen State.regI
    rw [h2, hc]
  · unfold State.winClose State.regI
    rw [h3]

theorem sharedReg_TDC_Mm_OPEN (m : Fin 4) : sharedReg (R.TDC_Mm_OPEN m) = false := by revert m; decide
theorem sharedReg_TDC_Mm_CLOSE (m : Fin 4) : sharedReg (R.TDC_Mm_CLOSE m) = false := by revert m; decide

/-- Settles O55. -/
theorem measurementWindows : Obligations.MeasurementWindows := by
  refine ⟨fun s m a l hs hr hst ho hi hw hh hg => ?_, fun s m a l w hs hr hst ho hi hw hc he => ?_,
    fun s m w hs hr hw hst hl hn hm hc he => ?_, fun s m w hs hr hw hst hl hm hc hd => ?_,
    fun s e m x l w hs hr hc hw he hne hm hn hst ho hcl hf => ?_⟩
  · show Answers (done s (s.windowStart m)) _
    rw [windowStart_opens hr hst ho hi hw, openWindow_fresh (s := s.tookStart m l) hh hg]
    refine Answers.ofChanges (A := (· ∈ [R.TDC_Mm_STATUS m])) (ps := [.tdc]) hs (by simp [State.opened, State.tookStart])
      fun u L C => ⟨?_, ?_, ?_, C.sameBut, C.parts⟩
    · rw [State.unit_of_tdc L.tdc]
      unfold State.opened State.tookStart
      rw [State.unit_p, State.unit_p, State.unit_setUnit, if_pos rfl, State.unit_setUnit, if_pos rfl]
      rfl
    · rw [L.g (by simp)]
      unfold State.opened State.tookStart State.g
      rw [State.reg_p, if_pos rfl, Fld.get_put_ne (by decide) (by decide), State.reg_p, if_pos rfl, Fld.get_put (by decide)]
      rfl
    · rw [L.g (by simp)]
      unfold State.opened State.g
      rw [State.reg_p, if_pos rfl, Fld.get_put (by decide)]
      rfl
  · show Answers (done s (s.windowStart m)) _
    rw [windowStart_busy hr hst ho hi hw hc]
    have W := Logs.windowEvent (s := s.tookStart m l) (m := m) (c := 5) he
    refine Answers.ofChanges (A := (· ∈ [R.TDC_Mm_CNT m])) (ps := [.tdc]) hs (by simp [State.tookStart])
      fun u L C => ⟨?_, ?_, ?_, C.sameBut, C.parts⟩
    · rw [State.unit_of_tdc (W.trans L).tdc, State.unit_raw, State.unit_inc]
      simp [State.tookStart]
    · have k := State.g_inc (s := s.tookStart m l) (a := R.TDC_Mm_CNT m) (f := F.TDC_Mm_CNT_WEV) (by decide)
      rw [(W.trans L).g (by simp)]
      refine Eq.trans (congrArg F.TDC_Mm_CNT_WEV.get ?_) k
      rw [State.reg_raw, if_neg (Ne.symm (unitRegs_ne_raw (m := m)).cnt)]
    · exact (W.trans L).isSet (by decide) (by decide) rfl (State.isSet_raw (by decide) rfl)
  · show Answers (done s (s.windowClose m)) _
    rw [windowClose_empty hr hw hst hl hn hm hc]
    have W := Logs.windowEvent (s := s) (m := m) (c := 1) he
    refine Answers.ofChanges (A := (· ∈ [R.TDC_Mm_CNT m, R.TDC_Mm_STATUS m])) (ps := [.tdc]) hs (by simp)
      fun u L C => ⟨?_, ?_, ?_, ?_, C.sameBut, C.parts⟩
    · rw [State.unit_of_tdc L.tdc]
      simp [State.dropWin]
    · rw [L.g (by simp)]
      simp [State.dropWin, State.g, Fld.get_put]
    · have k := State.g_inc (s := s) (a := R.TDC_Mm_CNT m) (f := F.TDC_Mm_CNT_WEV) (by decide)
      have hne : R.TDC_Mm_CNT m ≠ R.TDC_Mm_STATUS m := by simp
      rw [L.g (by simp)]
      refine Eq.trans (congrArg F.TDC_Mm_CNT_WEV.get ?_) k
      unfold State.dropWin
      rw [State.reg_p, if_neg hne, State.reg_setUnit, W.reg _ (by simp), State.reg_raw,
        if_neg (Ne.symm (unitRegs_ne_raw (m := m)).cnt)]
    · have hne : R.TDC_RAW ≠ R.TDC_Mm_STATUS m := (unitRegs_ne_raw (m := m)).status
      have k := W.isSet (a := R.TDC_RAW) (f := F.TDC_RAW_WEV) (by decide) (by decide) rfl (State.isSet_raw (by decide) rfl)
      refine L.isSet (by decide) (by decide) rfl (Eq.trans (congrArg F.TDC_RAW_WEV.get ?_) k)
      unfold State.dropWin
      rw [State.reg_p, if_neg hne, State.reg_setUnit]
  · show Answers (done s (s.windowClose m)) _
    rw [windowClose_freq hr hw hst hl hm hc]
    have U : UnitRegs (fun a => ∃ r ∈ [(R.TDC_Mm_CFG m, R.TDC_Mm_CFG m + 0x80)], r.1 ≤ a ∧ a < r.2) m :=
      .ofRange fun a h1 h2 => ⟨_, List.mem_cons_self .., h1, h2⟩
    refine Answers.ofChanges (A := fun a => ∃ r ∈ [(R.TDC_Mm_CFG m, R.TDC_Mm_CFG m + 0x80)], r.1 ≤ a ∧ a < r.2)
      (ps := [.tdc, .free]) hs ?_ fun u L C => ⟨?_, ?_, ?_, C.sameBeyond, C.parts⟩
    · rw [Changes.dropWin_iff U.status (by simp)]
      unfold State.freqResult
      rw [Changes.result_iff U (by simp)]
      simp
    · rw [State.unit_of_tdc L.tdc]
      simp [State.dropWin]
    · rw [L.g (by simp)]
      simp [State.dropWin, State.g, Fld.get_put]
    · have hf : s.freqOf w = ((w.count - 1) * 65536000000000 * 2 ^ 32 + (tickDiff w.last w.first).toNat / 2) /
          (tickDiff w.last w.first).toNat := by
        unfold State.freqOf
        exact if_neg (by omega)
      have K : Changes (KeepsLast m) [.tdc] (s.freqResult m w) u := by
        refine Changes.logs ?_ L
        rw [Changes.dropWin_iff blockRegs_keepsLast.status (by simp)]
        exact .refl
      obtain ⟨h1, h2⟩ := sx_bounds (n := s.freqOf w)
      rw [K.last]
      unfold State.freqResult
      rw [result_last h1 h2, hf]
  · refine convertAnswers (A := convRegs e) hs hr hc ?_ fun u D C => ⟨?_, C.sameBeyond, C.parts⟩
    · rw [Changes.stopAll_iff (unitRegs_of_block fun a h1 h2 => ⟨_, List.mem_cons_self .., h1, h2⟩) (by simp)]
      exact (Changes.stamped_iff convRegs_events convRegs_fifo (by simp)).2 .refl
    · have S : Changes (fun a => a < 0x380400) [.tdc] s (s.stamped e x l) :=
        (Changes.stamped_iff (by simp only [R.TDC_En_EVENTS]; omega) (by simp only [R.TDC_En_FIFO_STATUS]; omega) (by simp)).2 .refl
      have hl : u.pairI (R.TDC_Mm_LAST_LO m) =
          ((s.stamped e x l).stopAll e (capStamp x) x.seg).pairI (R.TDC_Mm_LAST_LO m) := by
        unfold State.pairI State.pair
        rw [D.regs _ (by simp), D.regs _ (sharedReg_LAST_LO_add m)]
      rw [hl]
      refine stopAll_last (stamped_unit ▸ hw) ((congrArg F.TDC_Mm_CFG_STOP.get (stamped_cfg m e)).trans he) fun t T => ?_
      have K (a : Nat) (ha : sharedReg a = false) (h1 : R.TDC_Mm_CFG m ≤ a) (h2 : a < R.TDC_Mm_CFG m + 0x80) : t.reg a = s.reg a := by
        refine (T.reg ha ?_).trans (S.reg ha ?_)
        · simp only [OtherUnits]
          omega
        · simp only [R.TDC_Mm_CFG] at h1
          omega
      obtain ⟨k1, k2, k3⟩ := window_congr (K _ (by simp) (le_refl _) (by simp))
        (K _ (sharedReg_TDC_Mm_OPEN m) (by simp) (by simp only [R.TDC_Mm_OPEN, R.TDC_Mm_CFG]; omega))
        (K _ (sharedReg_TDC_Mm_CLOSE m) (by simp) (by simp only [R.TDC_Mm_CLOSE, R.TDC_Mm_CFG]; omega))
      have hne' : s.ucfg m F.TDC_Mm_CFG_START ≠ s.ucfg m F.TDC_Mm_CFG_STOP := fun k => hne (k.trans he)
      refine stop_last ?_ ?_ ?_ hst ?_ ?_ hf
      · rwa [k3, k3]
      · rwa [k3]
      · rwa [k3]
      · rwa [k1]
      · rwa [k2]

end Sys2Proof.Machine
end

section

/-! ## Pin faults, reversed pins and shorted outputs (R488 to R492) -/

set_option Elab.async false

namespace Sys2Proof.Machine

variable {A : Nat → Prop} {ps : List Part} {s t : State} {a n p : Nat} {b ev : Fld}

@[simp] theorem sharedReg_IOP_PINp_STATUS (p : Fin 36) : sharedReg (R.IOP_PINp_STATUS p) = false := by revert p; decide

/-! ### The count of faulty pins -/

/-- The unmasked pins with a fault bit set. -/
def State.faulty (s : State) : Nat := ((List.range 36).filter (fun p =>
  !s.on (R.IOP_PINp_CFG p) F.IOP_PINp_CFG_MASK && decide ((s.reg (R.IOP_PINp_STATUS p)).toNat % 256 ≠ 0))).length

theorem faulty_le : s.faulty ≤ 36 := (List.length_filter_le _ _).trans (by simp)

/-- The count rests on the masks and the fault bits alone. -/
theorem faulty_congr (h : ∀ p < 36, t.reg (R.IOP_PINp_CFG p) = s.reg (R.IOP_PINp_CFG p))
    (h' : ∀ p < 36, (t.reg (R.IOP_PINp_STATUS p)).toNat % 256 = (s.reg (R.IOP_PINp_STATUS p)).toNat % 256) : t.faulty = s.faulty := by
  unfold State.faulty State.on State.g
  refine congrArg List.length (List.filter_congr fun p hp => ?_)
  rw [h p (List.mem_range.1 hp), h' p (List.mem_range.1 hp)]

theorem pinCount_eq : s.pinCount = s.p R.IOP_STATUS F.IOP_STATUS_FAULTS s.faulty := rfl

@[simp] theorem Changes.pinCount_iff (h : A R.IOP_STATUS) : Changes A ps s t.pinCount ↔ Changes A ps s t := Changes.p_iff h

theorem pinCount_reg (h : a ≠ R.IOP_STATUS) : s.pinCount.reg a = s.reg a := by
  rw [pinCount_eq, State.reg_p, if_neg h]

theorem status_ne_iop : R.IOP_PINp_STATUS p ≠ R.IOP_STATUS := by
  simp only [R.IOP_PINp_STATUS, R.IOP_STATUS]
  omega

theorem cfg_ne_iop : R.IOP_PINp_CFG p ≠ R.IOP_STATUS := by
  simp only [R.IOP_PINp_CFG, R.IOP_STATUS]
  omega

theorem pinCount_faults : s.pinCount.g R.IOP_STATUS F.IOP_STATUS_FAULTS = s.faulty := by
  have k := faulty_le (s := s)
  unfold State.g
  rw [pinCount_eq, State.reg_p, if_pos rfl, Fld.get_put (by decide)]
  exact Nat.mod_eq_of_lt (by dsimp only [F.IOP_STATUS_FAULTS]; omega)

theorem put_high {f : Fld} (h : 8 ≤ f.lo) (h' : f.lo + f.w ≤ 32) (v : Word) (n : Nat) : (f.put v n).toNat % 256 = v.toNat % 256 := by
  have k : 256 ∣ 2 ^ f.lo := Nat.pow_dvd_pow (m := 8) 2 h
  rw [Fld.toNat_put h', Nat.add_mod, Nat.mod_eq_zero_of_dvd (k.mul_left _), Nat.mod_mod_of_dvd _ k, Nat.zero_add, Nat.mod_mod]

/-- A change of a pin's inversion or release is no fault bit. -/
theorem faulty_high {f : Fld} (h : 8 ≤ f.lo) (h' : f.lo + f.w ≤ 32) : (s.p (R.IOP_PINp_STATUS p) f n).faulty = s.faulty := by
  refine faulty_congr (fun k _ => ?_) fun k _ => ?_
  · rw [State.reg_p, if_neg (by simp only [R.IOP_PINp_CFG, R.IOP_PINp_STATUS]; omega)]
  · rw [State.reg_p]
    split
    · next e =>
      rw [e]
      exact put_high h h' _ _
    · rfl

theorem faulty_pinCount : s.pinCount.faulty = s.faulty :=
  faulty_congr (fun _ _ => pinCount_reg cfg_ne_iop) fun _ _ => by rw [pinCount_reg status_ne_iop]

@[simp] theorem sharedReg_REF_INn_CFG (n : Fin 4) : sharedReg (R.REF_INn_CFG n) = false := by revert n; decide
@[simp] theorem sharedReg_IOP_PINp_CFG (p : Fin 36) : sharedReg (R.IOP_PINp_CFG p) = false := by revert p; decide

theorem Logs.faulty (L : Logs s t) : t.faulty = s.faulty :=
  faulty_congr (fun p hp => L.reg _ (sharedReg_IOP_PINp_CFG ⟨p, hp⟩)) fun p hp => by
    rw [L.reg _ (sharedReg_IOP_PINp_STATUS ⟨p, hp⟩)]

/-- The count shown is that of the pins. -/
def State.counts (s : State) : Prop := s.g R.IOP_STATUS F.IOP_STATUS_FAULTS = s.faulty

theorem counts_pinCount : s.pinCount.counts := pinCount_faults.trans faulty_pinCount.symm

theorem counts_high {f : Fld} (h : 8 ≤ f.lo) (h' : f.lo + f.w ≤ 32) (k : s.counts) : (s.p (R.IOP_PINp_STATUS p) f n).counts := by
  unfold State.counts at k ⊢
  rw [faulty_high h h', ← k]
  unfold State.g
  rw [State.reg_p, if_neg (Ne.symm status_ne_iop)]

theorem Logs.counts (L : Logs s t) (k : s.counts) : t.counts := by
  unfold State.counts at k ⊢
  rw [L.g (by decide), L.faulty, k]

/-! ### Onsets -/

theorem pinFaultBits_lt (f : PinFault) : (pinFaultBits f).1.lo < 8 ∧ (pinFaultBits f).1.w = 1 ∧ (pinFaultBits f).2.lo < 32 ∧
    (pinFaultBits f).2.w = 1 := by
  cases f <;> decide

/-- A fault bit that was clear is set, with its event and its fault record. -/
theorem pinOnset_unmasked (h0 : s.g (R.IOP_PINp_STATUS p) b = 0) (hm : s.g (R.IOP_PINp_CFG p) F.IOP_PINp_CFG_MASK = 0) :
    ∃ w, s.pinOnset p b ev = (((s.p (R.IOP_PINp_STATUS p) b 1).raw R.IOP_RAW ev).fault 16 1 p w).pinCount := by
  refine ⟨((s.p (R.IOP_PINp_STATUS p) b 1).reg (R.IOP_PINp_STATUS p)).toNat, ?_⟩
  have h : (s.p (R.IOP_PINp_STATUS p) b 1).on (R.IOP_PINp_CFG p) F.IOP_PINp_CFG_MASK = false := by
    have k : (s.p (R.IOP_PINp_STATUS p) b 1).g (R.IOP_PINp_CFG p) F.IOP_PINp_CFG_MASK = 0 := by
      rw [← hm]
      unfold State.g
      rw [State.reg_p, if_neg (by simp)]
    simp [State.on, k]
  unfold State.pinOnset
  rw [if_neg (by simp [State.on, h0])]
  dsimp only
  rw [if_neg (by simp [h])]

theorem pinOnset_masked (h0 : s.g (R.IOP_PINp_STATUS p) b = 0) (hm : s.g (R.IOP_PINp_CFG p) F.IOP_PINp_CFG_MASK = 1) :
    s.pinOnset p b ev = (s.p (R.IOP_PINp_STATUS p) b 1).pinCount := by
  have h : (s.p (R.IOP_PINp_STATUS p) b 1).on (R.IOP_PINp_CFG p) F.IOP_PINp_CFG_MASK = true := by
    have k : (s.p (R.IOP_PINp_STATUS p) b 1).g (R.IOP_PINp_CFG p) F.IOP_PINp_CFG_MASK = 1 := by
      rw [← hm]
      unfold State.g
      rw [State.reg_p, if_neg (by simp)]
    simp [State.on, k]
  unfold State.pinOnset
  rw [if_neg (by simp [State.on, h0])]
  dsimp only
  rw [if_pos h]

/-- What an onset of fault bit `b` leaves: a pin's status and the count of faulty pins are all that it writes. -/
structure Onset (s : State) (p : Nat) (b ev : Fld) (t : State) : Prop where
  frame : Changes (· ∈ [R.IOP_PINp_STATUS p, R.IOP_STATUS]) [] s t
  status : t.reg (R.IOP_PINp_STATUS p) = b.put (s.reg (R.IOP_PINp_STATUS p)) 1
  counts : t.counts
  event : ev.lo < 32 → ev.w = 1 → s.g (R.IOP_PINp_CFG p) F.IOP_PINp_CFG_MASK = 0 → t.isSet R.IOP_RAW ev
  queued : s.g (R.IOP_PINp_CFG p) F.IOP_PINp_CFG_MASK = 0 → s.hif.fq.length < 32 →
    ∃ r ∈ t.hif.fq, r.block = 16 ∧ r.code = 1 ∧ r.detail = p % 2 ^ 16

theorem pinStatus_ne {c : Nat} (h : c < 0x3E0100) : R.IOP_PINp_STATUS p ≠ c := by
  simp only [R.IOP_PINp_STATUS]
  omega

theorem onset_of_unmasked (h0 : s.g (R.IOP_PINp_STATUS p) b = 0) (hm : s.g (R.IOP_PINp_CFG p) F.IOP_PINp_CFG_MASK = 0) :
    Onset s p b ev (s.pinOnset p b ev) := by
  obtain ⟨w, e⟩ := pinOnset_unmasked (ev := ev) h0 hm
  rw [e]
  refine ⟨by simp, ?_, counts_pinCount, fun h1 h2 _ => ?_, fun _ hq => ?_⟩
  · rw [pinCount_reg status_ne_iop, State.reg_fault (pinStatus_ne (by decide)) (pinStatus_ne (by decide)), State.reg_raw,
      if_neg (pinStatus_ne (by decide)), State.reg_p, if_pos rfl]
  · refine Eq.trans (congrArg ev.get (pinCount_reg (by decide))) ?_
    exact (Logs.fault (.refl _)).isSet (by decide) h1 h2 (State.isSet_raw h1 h2)
  · rw [pinCount_eq, State.p_hif]
    exact ⟨_, State.mem_fq_fault (by simpa using hq), rfl, rfl, rfl⟩

theorem onset_of_masked (h0 : s.g (R.IOP_PINp_STATUS p) b = 0) (hm : s.g (R.IOP_PINp_CFG p) F.IOP_PINp_CFG_MASK = 1) :
    Onset s p b ev (s.pinOnset p b ev) := by
  rw [pinOnset_masked h0 hm]
  refine ⟨by simp, ?_, counts_pinCount, fun _ _ h => absurd (hm.symm.trans h) (by decide),
    fun h => absurd (hm.symm.trans h) (by decide)⟩
  rw [pinCount_reg status_ne_iop, State.reg_p, if_pos rfl]

/-! ### Released outputs -/

theorem pinRelease_cases : s.pinRelease p = s.p (R.IOP_PINp_STATUS p) F.IOP_PINp_STATUS_OFF 1 ∨ s.pinRelease p = s := by
  unfold State.pinRelease
  split
  · exact .inl rfl
  · exact .inr rfl

theorem pinRelease_keeps (h : a ≠ R.IOP_PINp_STATUS p) : (s.pinRelease p).reg a = s.reg a := by
  rcases pinRelease_cases (s := s) (p := p) with e | e <;> rw [e]
  rw [State.reg_p, if_neg h]

theorem pinRelease_low {f : Fld} (h : f.lo + f.w ≤ 9) :
    (s.pinRelease p).g (R.IOP_PINp_STATUS p) f = s.g (R.IOP_PINp_STATUS p) f := by
  rcases pinRelease_cases (s := s) (p := p) with e | e <;> rw [e]
  unfold State.g
  rw [State.reg_p, if_pos rfl, Fld.get_put_ne (by decide) (.inr h)]

theorem pinRelease_counts (h : s.counts) : (s.pinRelease p).counts := by
  rcases pinRelease_cases (s := s) (p := p) with e | e <;> rw [e]
  · exact counts_high (by decide) (by decide) h
  · exact h

theorem pinRelease_hif : (s.pinRelease p).hif = s.hif := by
  rcases pinRelease_cases (s := s) (p := p) with e | e <;> rw [e]
  exact State.p_hif

@[simp] theorem Changes.pinRelease_iff (h : A (R.IOP_PINp_STATUS p)) : Changes A ps s (t.pinRelease p) ↔ Changes A ps s t := by
  rcases pinRelease_cases (s := t) (p := p) with e | e <;> rw [e]
  exact Changes.p_iff h

/-- A declared fault, from its onset. -/
theorem declareAnswers {P : State → Prop} {p : Fin 36} {f : PinFault} (hs : s.inReset = false) (hd : s.diag = true)
    (hj : s.pinJudged p f = true) (O : Onset s p (pinFaultBits f).1 (pinFaultBits f).2 (s.pinOnset p (pinFaultBits f).1 (pinFaultBits f).2))
    (hP : ∀ u, Onset s p (pinFaultBits f).1 (pinFaultBits f).2 (s.pinOnset p (pinFaultBits f).1 (pinFaultBits f).2) →
      Logs ((s.pinOnset p (pinFaultBits f).1 (pinFaultBits f).2).pinRelease p) u →
      Changes (· ∈ [R.IOP_PINp_STATUS p, R.IOP_STATUS]) [] s u → P u) : Answers (exec (.pinFaultDeclare p f) s) P := by
  show Answers (done s (s.pinDeclare p f)) P
  have e : s.pinDeclare p f = (s.pinOnset p (pinFaultBits f).1 (pinFaultBits f).2).pinRelease p := by
    unfold State.pinDeclare
    rw [if_pos (by rw [hd, hj]; rfl)]
  rw [e]
  exact Answers.ofChanges hs ((Changes.pinRelease_iff (by simp)).2 O.frame) fun u L C => hP u O L C

/-- The fault bit of a declared fault. -/
theorem declared_isSet {p : Fin 36} {f : PinFault} {u : State} {y : State} (O : Onset s p (pinFaultBits f).1 (pinFaultBits f).2 y)
    (L : Logs (y.pinRelease p) u) : u.isSet (R.IOP_PINp_STATUS p) (pinFaultBits f).1 := by
  obtain ⟨h1, h2, -, -⟩ := pinFaultBits_lt f
  unfold State.isSet
  rw [L.g (by simp), pinRelease_low (by omega)]
  unfold State.g
  rw [O.status, Fld.get_put (by omega), h2]
  rfl

/-! ### Candidates -/

@[simp] theorem State.cand_setCand {k j : Nat} {c : Cand} : (s.setCand k c).cand j = if j = k then c else s.cand j := Tbl.get_set

theorem State.cand_of_ref {k : Nat} (h : t.ref = s.ref) : t.cand k = s.cand k :=
  congrArg (fun x : RefSel => Tbl.get Cand.reset x.cands k) h

@[simp] theorem State.reg_setCand {k : Nat} {c : Cand} : (s.setCand k c).reg a = s.reg a := State.reg_setRef

@[simp] theorem Changes.setCand_iff {k : Nat} {c : Cand} (h : .ref ∈ ps) : Changes A ps s (t.setCand k c) ↔ Changes A ps s t :=
  Changes.setRef_iff t h

@[simp] theorem Changes.showCand_iff {k : Nat} (h : A (R.REF_CANDk_STATUS k)) : Changes A ps s (t.showCand k) ↔ Changes A ps s t :=
  Changes.setRegN_iff h

@[simp] theorem Changes.wtrReset_iff {k : Nat} (h : .ref ∈ ps) : Changes A ps s (t.wtrReset k) ↔ Changes A ps s t :=
  Changes.setRef_iff t h

@[simp] theorem Changes.selRec_iff {k e c w : Nat} : Changes A ps s (t.selRec k e c w) ↔ Changes A ps s t := Changes.note_iff

@[simp] theorem Changes.refreshJudging_iff (h : .ref ∈ ps) : Changes A ps s t.refreshJudging ↔ Changes A ps s t := by
  unfold State.refreshJudging
  simp [h]

@[simp] theorem Changes.disqualify_iff {k : Nat} (h : A (R.REF_CANDk_STATUS k)) (hr : .ref ∈ ps) :
    Changes A ps s (t.disqualify k) ↔ Changes A ps s t := by
  unfold State.disqualify
  simp [h, hr]

@[simp] theorem Changes.restartCand_iff {k : Nat} (h : A (R.REF_CANDk_STATUS k)) (hr : .ref ∈ ps) :
    Changes A ps s (t.restartCand k) ↔ Changes A ps s t := by
  unfold State.restartCand
  simp [h, hr]

@[simp] theorem State.cand_showCand {k j : Nat} : (s.showCand k).cand j = s.cand j := State.cand_of_ref State.setRegN_ref

@[simp] theorem State.cand_refreshJudging {j : Nat} : s.refreshJudging.cand j = s.cand j := by
  unfold State.refreshJudging
  extract_lets k
  split <;> rfl

@[simp] theorem reg_showCand {k : Nat} (h : a ≠ R.REF_CANDk_STATUS k) : (s.showCand k).reg a = s.reg a := by
  unfold State.showCand
  simp [h]

@[simp] theorem reg_wtrReset {k : Nat} : (s.wtrReset k).reg a = s.reg a := State.reg_setRef

@[simp] theorem reg_selRec {k e c w : Nat} : (s.selRec k e c w).reg a = s.reg a := State.reg_note

@[simp] theorem reg_refreshJudging : s.refreshJudging.reg a = s.reg a := by
  unfold State.refreshJudging
  simp

theorem reg_disqualify {k : Nat} (h : a ≠ R.REF_RAW) (h' : a ≠ R.REF_CANDk_STATUS k) : (s.disqualify k).reg a = s.reg a := by
  unfold State.disqualify
  simp [h, h']

theorem reg_restartCand {k : Nat} (h : a ≠ R.REF_RAW) (h' : a ≠ R.REF_CANDk_STATUS k) : (s.restartCand k).reg a = s.reg a := by
  unfold State.restartCand
  simp [h', reg_disqualify h h']

/-- The monitors of a candidate that starts anew hold no gate. -/
theorem restartCand_y {k : Nat} : ((s.restartCand k).cand k).y = [] := by
  unfold State.restartCand
  simp

/-- Which inputs are companions rests on their configuration. -/
theorem candOfIn_congr (h : ∀ n < 4, t.reg (R.REF_INn_CFG n) = s.reg (R.REF_INn_CFG n)) : t.candOfIn p = s.candOfIn p := by
  have k (n : Nat) (hn : n < 4) : t.inMode n = s.inMode n := by
    unfold State.inMode State.g
    rw [h n hn]
  unfold State.candOfIn State.companion
  rw [k 0 (by decide), k 2 (by decide)]

/-! ### Reversed pins -/

theorem pinStatus_high {c : Nat} (h : 0x3E0224 ≤ c) (hp : p < 36) : R.IOP_PINp_STATUS p ≠ c := by
  simp only [R.IOP_PINp_STATUS]
  omega

section
variable {f : Fld}

/-- What an onset leaves of the other fields of a pin's status. -/
theorem Onset.g_ne (O : Onset s p b ev t) (hb : b.lo + b.w ≤ 32) (h : b.lo + b.w ≤ f.lo ∨ f.lo + f.w ≤ b.lo) :
    t.g (R.IOP_PINp_STATUS p) f = s.g (R.IOP_PINp_STATUS p) f := by
  unfold State.g
  rw [O.status, Fld.get_put_ne hb h]

theorem Onset.reversed (O : Onset s p F.IOP_PINp_STATUS_REVERSED ev t) :
    t.g (R.IOP_PINp_STATUS p) F.IOP_PINp_STATUS_REVERSED = 1 := by
  unfold State.g
  rw [O.status, Fld.get_put (by decide)]
  rfl

theorem Onset.cfg (O : Onset s p b ev t) (p' : Fin 36) : t.reg (R.IOP_PINp_CFG p') = s.reg (R.IOP_PINp_CFG p') :=
  O.frame.reg (by simp) fun k => by
    rcases List.mem_pair.1 k with k | k
    · simp only [R.IOP_PINp_CFG, R.IOP_PINp_STATUS] at k
      omega
    · exact cfg_ne_iop k

end

theorem pinReversed_eq (hd : s.diag = true) (hl : s.pinLvds p = true) (hh : s.on (R.IOP_PINp_CFG p) F.IOP_PINp_CFG_POL_HINT = true) :
    s.pinReversed p = if (s.pinOnset p F.IOP_PINp_STATUS_REVERSED F.IOP_RAW_REVERSED).on (R.IOP_PINp_CFG p) F.IOP_PINp_CFG_POL_AUTO
      then (s.pinOnset p F.IOP_PINp_STATUS_REVERSED F.IOP_RAW_REVERSED).pinInvert p true
      else s.pinOnset p F.IOP_PINp_STATUS_REVERSED F.IOP_RAW_REVERSED := by
  unfold State.pinReversed
  rw [if_pos (by rw [hd, hl, hh]; simp)]

/-- The inversion of a pin is corrected. -/
def State.corrected (s : State) (p : Nat) : State :=
  (s.pb (R.IOP_PINp_STATUS p) F.IOP_PINp_STATUS_POL_INV true).raw R.IOP_RAW F.IOP_RAW_POL_CORRECTED

theorem pinInvert_ref (h0 : s.g (R.IOP_PINp_STATUS p) F.IOP_PINp_STATUS_POL_INV = 0) (hp : p < 4) :
    s.pinInvert p true = (s.corrected p).restartCand ((s.corrected p).candOfIn p) := by
  unfold State.pinInvert
  extract_lets a x y z
  rw [if_neg (by simp [a, State.on, h0]), if_pos hp]
  rfl

theorem pinInvert_other (h0 : s.g (R.IOP_PINp_STATUS p) F.IOP_PINp_STATUS_POL_INV = 0) (hp : 22 ≤ p) :
    s.pinInvert p true = s.corrected p := by
  unfold State.pinInvert
  extract_lets a x y z
  rw [if_neg (by simp [a, State.on, h0]), if_neg (by omega), if_neg (by omega)]
  rfl

theorem corrected_inv : (s.corrected p).g (R.IOP_PINp_STATUS p) F.IOP_PINp_STATUS_POL_INV = 1 := by
  unfold State.corrected State.g
  rw [State.reg_raw, if_neg (by simp only [R.IOP_PINp_STATUS, R.IOP_RAW]; omega), State.reg_pb, if_pos rfl, Fld.get_put (by decide)]
  rfl

theorem corrected_reversed : (s.corrected p).g (R.IOP_PINp_STATUS p) F.IOP_PINp_STATUS_REVERSED =
    s.g (R.IOP_PINp_STATUS p) F.IOP_PINp_STATUS_REVERSED := by
  unfold State.corrected State.g
  rw [State.reg_raw, if_neg (by simp only [R.IOP_PINp_STATUS, R.IOP_RAW]; omega), State.reg_pb, if_pos rfl,
    Fld.get_put_ne (by decide) (by decide)]

theorem KeepsBits.corrected : KeepsBits R.IOP_RAW s (s.corrected p) :=
  KeepsBits.trans (.ofReg (by rw [State.reg_pb, if_neg (by simp only [R.IOP_PINp_STATUS, R.IOP_RAW]; omega)])) (.raw (by decide) rfl)

/-- Whether or not a pin is masked, a fault bit that was clear is set. -/
theorem onset_of_clear (h0 : s.g (R.IOP_PINp_STATUS p) b = 0) : Onset s p b ev (s.pinOnset p b ev) := by
  by_cases h : s.on (R.IOP_PINp_CFG p) F.IOP_PINp_CFG_MASK = true
  · exact onset_of_masked h0 ((State.on_iff rfl).1 h)
  · exact onset_of_unmasked h0 (by simpa [State.on] using h)

/-- After the onset of a fault its bit is set. -/
theorem pinOnset_set (hb : b.lo + b.w ≤ 32) (hw : b.w = 1) : (s.pinOnset p b ev).g (R.IOP_PINp_STATUS p) b = 1 ∧
    Changes (· ∈ [R.IOP_PINp_STATUS p, R.IOP_STATUS]) [] s (s.pinOnset p b ev) := by
  by_cases h : s.on (R.IOP_PINp_STATUS p) b = true
  · have e : s.pinOnset p b ev = s := if_pos h
    rw [e]
    exact ⟨(State.on_iff hw).1 h, .refl⟩
  · have O := onset_of_clear (s := s) (p := p) (b := b) (ev := ev) (by simpa [State.on] using h)
    refine ⟨?_, O.frame⟩
    unfold State.g
    rw [O.status, Fld.get_put hb, hw]
    rfl

/-- A shorted output is released while SHORT_OFF is 1. -/
theorem pinRelease_short (ho : pinIsOut p = true) (hs : s.on R.IOP_CTRL F.IOP_CTRL_SHORT_OFF = true)
    (h : s.g (R.IOP_PINp_STATUS p) F.IOP_PINp_STATUS_SHORT_GND_P = 1) :
    s.pinRelease p = s.p (R.IOP_PINp_STATUS p) F.IOP_PINp_STATUS_OFF 1 := by
  have k : (s.reg (R.IOP_PINp_STATUS p)).toNat % 16 ≠ 0 := by
    intro e
    have k : (s.reg (R.IOP_PINp_STATUS p)).toNat >>> 0 % 2 ^ 1 = 1 := h
    simp only [Nat.shiftRight_zero] at k
    omega
  unfold State.pinRelease
  rw [if_pos (by simp [ho, hs, k])]

/-- Settles O39. -/
theorem pinProtection : Obligations.PinProtection := by
  refine ⟨fun s p f hs hd hj h0 hm => ?_, fun s p f hs hd hj h0 hm => ?_, fun s n hs hd ho => ?_, fun s p f hs => ?_,
    fun s p hs hd hl hh h0 hm ha => ?_, fun s p hs hd hl hh h0 hm ha hi hp => ?_, fun s p hs hd hl hh h0 hm ha hi hp => ?_,
    fun s n hs => ?_, fun s n hs => ?_⟩
  · refine declareAnswers hs hd hj (onset_of_unmasked h0 hm) fun u O L C =>
      ⟨declared_isSet O L, ?_, L.counts (pinRelease_counts O.counts), fun hq => ?_, C.sameBut, C.parts⟩
    · obtain ⟨-, -, h1, h2⟩ := pinFaultBits_lt f
      refine L.isSet (by decide) h1 h2 (Eq.trans (congrArg (pinFaultBits f).2.get (pinRelease_keeps ?_)) (O.event h1 h2 hm))
      simp only [R.IOP_RAW, R.IOP_PINp_STATUS]
      omega
    · obtain ⟨r, h1, h2, h3, h4⟩ := O.queued hm hq
      exact L.queued ⟨r, by rwa [pinRelease_hif], h2, h3, h4.trans (Nat.mod_eq_of_lt (by omega))⟩
  · exact declareAnswers hs hd hj (onset_of_masked h0 hm) fun u O L C =>
      ⟨declared_isSet O L, L.counts (pinRelease_counts O.counts), C.sameBut, C.parts⟩
  · have hj : s.pinJudged (4 + n.val) .gndP = true := by
      have k : pinIsOut (4 + n.val) = true := by
        have := n.isLt
        simp only [pinIsOut, Bool.and_eq_true, decide_eq_true_eq]
        omega
      simp [State.pinJudged, k]
    have ho' : pinIsOut (4 + n.val) = true := by
      have := n.isLt
      simp only [pinIsOut, Bool.and_eq_true, decide_eq_true_eq]
      omega
    obtain ⟨h1, C⟩ := pinOnset_set (s := s) (p := 4 + n.val) (b := F.IOP_PINp_STATUS_SHORT_GND_P) (ev := F.IOP_RAW_SHORT) (by decide) rfl
    have hc : (s.pinOnset (4 + n.val) F.IOP_PINp_STATUS_SHORT_GND_P F.IOP_RAW_SHORT).on R.IOP_CTRL F.IOP_CTRL_SHORT_OFF = true := by
      refine (State.on_of_g (C.g (by decide) ?_)).trans ho
      simp only [List.mem_cons, List.not_mem_nil, or_false, not_or]
      exact ⟨(pinStatus_ne (by decide)).symm, by decide⟩
    have e : s.pinDeclare (4 + n.val) .gndP = (s.pinOnset (4 + n.val) F.IOP_PINp_STATUS_SHORT_GND_P F.IOP_RAW_SHORT).p
        (R.IOP_PINp_STATUS (4 + n.val)) F.IOP_PINp_STATUS_OFF 1 := by
      rw [← pinRelease_short ho' hc h1]
      unfold State.pinDeclare
      rw [if_pos (by rw [hd, hj]; rfl)]
      rfl
    show Answers (done s (s.pinDeclare (4 + n.val) .gndP)) _
    rw [e]
    refine Answers.ofChanges hs ((Changes.p_iff (by simp)).2 C) fun u L C => ⟨?_, C.sameBut, C.parts⟩
    unfold State.isSet
    rw [L.g (sharedReg_IOP_PINp_STATUS ⟨4 + n, by omega⟩)]
    simp [State.g, Fld.get_put]
  · show Answers (done s (s.pinClear p (pinFaultBits f).1)) _
    obtain ⟨h1, h2, -, -⟩ := pinFaultBits_lt f
    refine Answers.ofChanges (A := (· ∈ [R.IOP_PINp_STATUS p, R.IOP_STATUS])) (ps := []) hs (by unfold State.pinClear; simp)
      fun u L C => ⟨?_, L.counts counts_pinCount, C.sameBut, C.parts⟩
    rw [L.g (by simp)]
    refine (congrArg (pinFaultBits f).1.get (pinCount_reg status_ne_iop)).trans ?_
    rw [State.reg_p, if_pos rfl, Fld.get_put (by omega), Nat.zero_mod]
  · show Answers (done s (s.pinReversed p)) _
    have O := onset_of_unmasked (ev := F.IOP_RAW_REVERSED) h0 hm
    rw [pinReversed_eq hd hl hh, if_neg]
    · exact Answers.ofChanges hs O.frame fun u L C => ⟨(L.g (by simp) _).trans O.reversed,
        L.isSet (by decide) (by decide) rfl (O.event (by decide) rfl hm),
        (L.g (by simp) _).trans (O.g_ne (by decide) (by decide)), C.sameBut, C.parts⟩
    · rw [State.on_of_g (congrArg F.IOP_PINp_CFG_POL_AUTO.get (O.cfg p)), ha]
      decide
  · show Answers (done s (s.pinReversed p)) _
    have O := onset_of_unmasked (ev := F.IOP_RAW_REVERSED) h0 hm
    rw [pinReversed_eq hd hl hh, if_pos, pinInvert_other ((O.g_ne (by decide) (by decide)).trans hi) hp]
    · refine Answers.ofChanges hs (F := ?_) (A := (· ∈ [R.IOP_PINp_STATUS p, R.IOP_STATUS])) (ps := [])
        fun u L C => ⟨?_, ?_, ?_, ?_, C.sameBut, C.parts⟩
      · unfold State.corrected
        rw [Changes.raw_iff (by simp), Changes.pb_iff (by simp)]
        exact O.frame
      · rw [L.g (by simp), corrected_reversed, O.reversed]
      · exact (KeepsBits.corrected.trans (.ofLogs (by decide) L)).isSet (by decide) rfl (O.event (by decide) rfl hm)
      · rw [L.g (by simp), corrected_inv]
      · exact L.isSet (by decide) (by decide) rfl (State.isSet_raw (by decide) rfl)
    · rwa [State.on_of_g (congrArg F.IOP_PINp_CFG_POL_AUTO.get (O.cfg p))]
  · show Answers (done s (s.pinReversed p)) _
    have O := onset_of_unmasked (ev := F.IOP_RAW_REVERSED) h0 hm
    rw [pinReversed_eq hd hl hh, if_pos, pinInvert_ref ((O.g_ne (by decide) (by decide)).trans hi) hp]
    · generalize hy : s.pinOnset p F.IOP_PINp_STATUS_REVERSED F.IOP_RAW_REVERSED = y at O ⊢
      have K : Changes (· ∈ [R.IOP_PINp_STATUS p, R.IOP_STATUS]) [] s (y.corrected p) := by
        unfold State.corrected
        rw [Changes.raw_iff (by simp), Changes.pb_iff (by simp)]
        exact O.frame
      have hk : (y.corrected p).candOfIn p = s.candOfIn p := by
        refine candOfIn_congr fun n hn => K.reg (sharedReg_REF_INn_CFG ⟨n, hn⟩) fun k => ?_
        rcases List.mem_pair.1 k with k | k
        · simp only [R.REF_INn_CFG, R.IOP_PINp_STATUS] at k
          omega
        · simp only [R.REF_INn_CFG, R.IOP_STATUS] at k
          omega
      rw [hk]
      have hc : s.candOfIn p < 4 := by
        unfold State.candOfIn
        split <;> omega
      generalize s.candOfIn p = c at hc ⊢
      have S : Changes (· = R.REF_CANDk_STATUS c) [.ref] (y.corrected p) ((y.corrected p).restartCand c) := by simp
      have hne : R.IOP_PINp_STATUS p ≠ R.REF_CANDk_STATUS c := by
        simp only [R.IOP_PINp_STATUS, R.REF_CANDk_STATUS]
        omega
      have B : KeepsBits R.IOP_RAW (y.corrected p) ((y.corrected p).restartCand c) :=
        .ofReg (reg_restartCand (by decide) (by simp only [R.IOP_RAW, R.REF_CANDk_STATUS]; omega))
      refine Answers.ofChanges hs (A := (· ∈ [R.IOP_PINp_STATUS p, R.IOP_STATUS, R.REF_CANDk_STATUS c])) (ps := [.ref])
        ((K.mono (by simp +contextual) (by simp)).trans (S.mono (by simp) (by simp)))
        fun u L C => ⟨?_, ?_, ?_, ?_, ?_, C.sameBut, C.parts⟩
      · rw [L.g (by simp), S.g (by simp) hne, corrected_reversed, O.reversed]
      · exact (KeepsBits.corrected.trans (B.trans (.ofLogs (by decide) L))).isSet (by decide) rfl (O.event (by decide) rfl hm)
      · rw [L.g (by simp), S.g (by simp) hne, corrected_inv]
      · exact (B.trans (.ofLogs (by decide) L)).isSet (by decide) rfl (State.isSet_raw (by decide) rfl)
      · rw [State.cand_of_ref L.ref, restartCand_y]
    · rwa [State.on_of_g (congrArg F.IOP_PINp_CFG_POL_AUTO.get (O.cfg p))]
  · show Answers (done s (s.shortRetest n true)) _
    unfold State.shortRetest
    rw [if_pos rfl]
    refine Answers.ofChanges (A := (· ∈ [R.IOP_PINp_STATUS (4 + n)])) (ps := []) hs (by simp) fun u L C => ⟨?_, C.sameBut, C.parts⟩
    rw [L.g (sharedReg_IOP_PINp_STATUS ⟨4 + n, by omega⟩)]
    simp [State.g, Fld.get_put]
  · show Answers (done s (s.shortRetest n false)) _
    unfold State.shortRetest
    exact Answers.ofChanges (A := (· ∈ [])) (ps := []) hs .refl fun u L C => ⟨L.pending, C.sameBut, C.parts⟩

end Sys2Proof.Machine
end

section

/-! ## The registers that the end of a clock leaves

The end of a clock logs: of the shared registers it writes the raw status, the journal's, the fault queue's and the pending
bits of MSI-X, and no performance counter. -/

set_option Elab.async false

namespace Sys2Proof.Machine

variable {A : Nat → Prop} {ps : List Part} {s t : State} {a n : Nat}

/-- The registers that the records and the conditions of a clock may write. -/
def recReg (a : Nat) : Bool :=
  (rawBlock a).isSome || a == R.SPR_STATUS || a == R.SPR_CNT_LOST_SEL || a == R.SPR_CNT_LOST_MAND ||
    a == R.SPR_CNT_FROZEN || a == R.SPR_TRIG_STATUS || a == R.SPR_TRIG_COUNT_LO || a == R.SPR_TRIG_COUNT_HI ||
    a == R.HIF_FQ_STATUS

/-- The registers that the end of a clock may write. -/
def logReg (a : Nat) : Bool := recReg a || a == 0x9000

section
variable (h : recReg a = false)
include h

theorem recReg_ne {b : Nat} (hb : recReg b = true) : a ≠ b := fun e => by rw [e, hb] at h; cases h

theorem ne_raw {b : Nat} (hb : (rawBlock b).isSome = true) : a ≠ b := recReg_ne h (by simp [recReg, hb])

theorem reg_loseRec {w : Bool} {r : Rec} : (s.loseRec w r).reg a = s.reg a := by
  have h1 : a ≠ R.SPR_CNT_LOST_MAND := recReg_ne h (by decide)
  have h2 : a ≠ R.SPR_CNT_LOST_SEL := recReg_ne h (by decide)
  have h3 : a ≠ R.SPR_RAW := recReg_ne h (by decide)
  have h4 : a ≠ R.SPR_STATUS := recReg_ne h (by decide)
  unfold State.loseRec
  extract_lets first x sp y
  have hx : x.reg a = s.reg a := by
    simp only [x, State.reg_ite, State.reg_inc, if_neg h1, if_neg h2, ite_self]
  have hy : y.reg a = s.reg a := hx
  rw [State.reg_ite, State.reg_p, if_neg h4, State.reg_raw, if_neg h3, ite_self, hy]

theorem reg_enterRec {w : Bool} {r : Rec} : (s.enterRec w r).reg a = s.reg a := by
  have h1 : a ≠ R.SPR_CNT_FROZEN := recReg_ne h (by decide)
  have h2 : a ≠ R.SPR_STATUS := recReg_ne h (by decide)
  unfold State.enterRec
  extract_lets r' sp x used
  have hx : x.reg a = s.reg a := rfl
  rw [State.reg_ite, State.reg_ite, State.reg_inc, if_neg h1, reg_loseRec h, State.setFifo, State.reg_p, if_neg h2]
  exact (ite_congr rfl (fun _ => hx) fun _ => ite_self _).trans (ite_self _)

theorem reg_enterFormed : s.enterFormed.reg a = s.reg a := by
  unfold State.enterFormed
  extract_lets l sp x
  exact (State.reg_foldl fun t p => reg_enterRec h).trans (rfl : x.reg a = s.reg a)

theorem reg_lossCheck : s.lossCheck.reg a = s.reg a := by
  unfold State.lossCheck
  split
  · rfl
  · exact State.reg_fault (recReg_ne h (by decide)) (recReg_ne h (by decide))

theorem reg_flush : s.flush.reg a = s.reg a := by
  unfold State.flush
  rw [State.reg_ite, reg_enterFormed h, reg_lossCheck h, reg_enterFormed h, ite_self]

theorem reg_takeTrigger : s.takeTrigger.reg a = s.reg a := by
  have h1 : a ≠ R.SPR_RAW := recReg_ne h (by decide)
  have h2 : a ≠ R.SPR_STATUS := recReg_ne h (by decide)
  have h3 : a ≠ R.SPR_TRIG_STATUS := recReg_ne h (by decide)
  have h4 : a ≠ R.SPR_TRIG_COUNT_LO := recReg_ne h (by decide)
  have h5 : a ≠ R.SPR_TRIG_COUNT_LO + 4 := recReg_ne h (by decide)
  have hu (t : State) (x : Spr) : State.reg { t with spr := x } a = t.reg a := rfl
  unfold State.takeTrigger
  split
  · rfl
  · simp only [State.reg_ite, State.reg_raw, if_neg h1, State.reg_p, if_neg h2, if_neg h3, State.reg_setPair, if_neg h4, if_neg h5,
      State.reg_inc, hu, reg_flush h, State.reg_note, ite_self]

theorem reg_clockRecs : s.clockRecs.reg a = s.reg a := by
  unfold State.clockRecs
  rw [reg_flush h, reg_takeTrigger h, reg_flush h]

theorem reg_applyConds : s.applyConds.reg a = s.reg a := by
  unfold State.applyConds
  refine State.reg_foldl fun t p => ?_
  unfold State.applyCond
  split
  · next hp => rw [State.reg_setReg, if_neg (ne_raw h hp)]
  · rfl

end

section
variable (h : logReg a = false)
include h

theorem recReg_of_logReg : recReg a = false := (Bool.or_eq_false_iff.1 h).1

theorem reg_signal : (s.signal n).reg a = s.reg a := by
  have h1 : a ≠ 0x9000 := fun e => by subst e; cases h
  unfold State.signal
  simp only [State.reg_ite, State.reg_orReg, if_neg h1]
  exact (ite_congr rfl (fun _ => rfl) fun _ => (ite_congr rfl (fun _ => rfl) fun _ => rfl : _ = if _ then _ else s.reg a).trans (ite_self _)).trans (ite_self _)

theorem reg_signalRises : (s.signalRises n).reg a = s.reg a := by
  unfold State.signalRises
  rw [State.reg_ite, State.reg_foldl fun t k => reg_signal h, ite_self]

/-- The end of a clock leaves every register but those it logs to. -/
theorem reg_endClock : (endClock s t).reg a = t.reg a := by
  unfold endClock
  rw [reg_signalRises h, reg_applyConds (recReg_of_logReg h), reg_clockRecs (recReg_of_logReg h)]

end

/-! ### Commands -/

/-- A command ends on its effect `t`: logging, and no register changed but those that logging writes. -/
structure Ends (t u : State) : Prop where
  logs : Logs t u
  regs : ∀ b, logReg b = false → u.reg b = t.reg b

theorem Answers.ofDoneEnds {P : State → Prop} (h : s.inReset = false) (hP : ∀ u, Ends t u → P u) : Answers (done s t) P :=
  ⟨_, done_next h, hP _ ⟨(Logs.refl t).endClock, fun _ hb => reg_endClock hb⟩⟩

/-- An accepted write stores and acts; the rest is a record. -/
theorem storeWrite_own_reg {v : Word} {b : Nat} (h : ownWord a = true) :
    (s.storeWrite ⟨.f0, a, v, s.readNow a, false⟩).reg b =
      (((s.setReg a (s.formWord a v)).act a (s.readNow a) v).afterScan a).reg b := by
  simp only [ownWord, Bool.and_eq_true, Bool.not_eq_true'] at h
  obtain ⟨⟨⟨⟨⟨⟨⟨hm, ha⟩, ht⟩, hx⟩, hp⟩, hl⟩, hh⟩, hw⟩ := h
  unfold State.storeWrite
  simp only [hl, hh, hw, Bool.false_eq_true, if_false]
  unfold State.recAccepted State.afterScan
  dsimp only
  rw [State.reg_ite, State.reg_record, ite_self]

theorem Answers.ofHostWriteEnds {v : Word} {P : State → Prop} (h : s.accepts a) (hp : ownWord a = true)
    (hP : ∀ u, Ends (((s.setReg a (s.formWord a v)).act a (s.readNow a) v).afterScan a) u → P u) :
    Answers (done s (s.hostWrite a v)) P := by
  have k := hp
  simp only [ownWord, Bool.and_eq_true, Bool.not_eq_true', beq_iff_eq] at k
  obtain ⟨⟨⟨⟨⟨⟨⟨hm, ha⟩, ht⟩, hx⟩, hb⟩, hl⟩, hh⟩, hw⟩ := k
  refine ⟨_, done_next h.1.1, hP _ ?_⟩
  rw [hostWrite_accepted h hm ha ht hx hb]
  refine ⟨(storeWrite_own hp).clockRecs.endClock, fun b hb => ?_⟩
  rw [reg_endClock hb, reg_clockRecs (recReg_of_logReg hb), storeWrite_own_reg hp]

end Sys2Proof.Machine
end

section

/-! ## Performance counters and writes of user functions (R23, R440 to R448) -/

set_option Elab.async false

namespace Sys2Proof.Machine

variable {A : Nat → Prop} {ps : List Part} {s t u : State} {a b n g j k : Nat} {v : Word}

/-! ### Host writes, with what the end of the clock leaves -/

/-- A register with no stored field is written: its action is taken. -/
theorem Answers.ofCommandEnds {P : State → Prop} (h : s.accepts a) (hp : ownWord a = true)
    (hf : (fieldsAt a).any Field.stored = false) (hn : scanned a = false)
    (ht : (s.setReg a (s.reg a)).act a (s.readNow a) v = t) (F : Changes A ps (s.setReg a (s.reg a)) t)
    (hP : ∀ u, Ends t u → Changes A ps s u → P u) : Answers (done s (s.hostWrite a v)) P := by
  refine Answers.ofHostWriteEnds h hp fun u E => ?_
  rw [formWord_none hf, ht, State.afterScan, hn, if_neg (by decide)] at E
  exact hP u E ((Changes.trans (Changes.setReg_self_iff.2 .refl) F).logs E.logs)

/-- A register of its own is written. -/
theorem Answers.ofWriteEnds {P : State → Prop} (h : s.accepts a) (hp : ownWord a = true)
    (ht : (s.setReg a (s.formWord a v)).act a (s.readNow a) v = t) (F : Changes A ps s t) (hc : A R.HIF_CFG_CRC_STATUS)
    (hP : ∀ u, (∀ b, logReg b = false → b ≠ R.HIF_CFG_CRC_STATUS → u.reg b = t.reg b) → Changes A ps s u → P u) :
    Answers (done s (s.hostWrite a v)) P := by
  refine Answers.ofHostWriteEnds h hp fun u E => ?_
  rw [ht] at E
  obtain ⟨w, e | e⟩ := afterScan_eq_setReg (s := t) (a := a) <;> rw [e] at E
  · refine hP u (fun b hb hne => ?_) (((Changes.setReg_iff hc).2 F).logs E.logs)
    rw [E.regs b hb, State.reg_setReg_ne t hne]
  · exact hP u (fun b hb _ => E.regs b hb) (F.logs E.logs)

/-! ### The counters -/

/-- A performance counter's register is written by its counter alone. -/
theorem logReg_counter (h : 0x80000 ≤ a) (h' : a < 0x80810) : logReg a = false := by
  have hr : rawBlock a = none := by
    simp only [rawBlock, R.HIF_RAW, R.BOOT_RAW, R.TSC_RAW, R.REF_RAW, R.HLD_RAW, R.SYN_RAW, R.PTP_RAW, R.PMC_RAW, R.FWD_RAW,
      R.QUE_RAW, R.HRD_RAW, R.SPR_RAW, R.TDC_RAW, R.GUY_RAW, R.RUT_RAW, R.IOP_RAW]
    repeat rw [if_neg (by omega)]
  simp only [logReg, recReg, hr, Option.isSome_none, Bool.false_or, Bool.or_eq_false_iff, beq_eq_false_iff_ne, R.SPR_STATUS,
    R.SPR_CNT_LOST_SEL, R.SPR_CNT_LOST_MAND, R.SPR_CNT_FROZEN, R.SPR_TRIG_STATUS, R.SPR_TRIG_COUNT_LO, R.SPR_TRIG_COUNT_HI,
    R.HIF_FQ_STATUS]
  omega

theorem pmcAddr_eq (g : Nat) (j : Nat) : pmcAddr g j = 0x80000 + 0x100 * g + 8 * j := by
  simp only [pmcAddr, R.PMC_Gg_CYCLE_LO, R.PMC_Gg_CNTk_LO]
  split <;> omega

/-- The counters' numbers in one row. -/
theorem pmcAddr_row (g : Fin 3) (j : Fin 9) : pmcAddr ((9 * g.val + j.val) / 9) ((9 * g.val + j.val) % 9) = pmcAddr g j := by
  rw [show (9 * g.val + j.val) / 9 = g.val by omega, show (9 * g.val + j.val) % 9 = j.val by omega]

theorem reg_foldl_mem {α : Type} {f : State → α → State} {l : List α} (hf : ∀ t, ∀ x ∈ l, (f t x).reg a = t.reg a) :
    (l.foldl f s).reg a = s.reg a := by
  induction l generalizing s with
  | nil => rfl
  | cons x r ih => exact (ih fun t y hy => hf t y (List.mem_cons_of_mem _ hy)).trans (hf s x (List.mem_cons_self ..))

/-- Pairs of a row that stand apart each hold what is put into them. -/
theorem pair_foldl {l : List Nat} {f : Nat → Nat} {w : Nat → Nat} {i : Nat} (hl : l.Nodup) (hi : i ∈ l)
    (hf : ∀ x ∈ l, x ≠ i → f x + 8 ≤ f i ∨ f i + 8 ≤ f x) :
    (l.foldl (fun t x => t.setPair (f x) (w x)) s).pair (f i) = w i % 2 ^ 64 := by
  induction l generalizing s with
  | nil => simp at hi
  | cons x r ih =>
    obtain ⟨hx, hr⟩ := List.nodup_cons.1 hl
    rw [List.foldl_cons]
    rcases List.mem_cons.1 hi with rfl | hi
    · have hk (a : Nat) (h1 : f i ≤ a) (h2 : a < f i + 8) : (r.foldl (fun t x => t.setPair (f x) (w x)) (s.setPair (f i) (w i))).reg a =
          (s.setPair (f i) (w i)).reg a := by
        refine reg_foldl_mem fun t x hxr => ?_
        have := hf x (List.mem_cons_of_mem _ hxr) fun e => hx (e ▸ hxr)
        rw [State.reg_setPair, if_neg (by omega), if_neg (by omega)]
      unfold State.pair
      rw [hk _ (le_refl _) (by omega), hk _ (by omega) (by omega)]
      exact State.pair_setPair
    · exact ih hr hi fun y hy => hf y (List.mem_cons_of_mem _ hy)

end Sys2Proof.Machine
end

section

set_option Elab.async false

namespace Sys2Proof.Machine

variable {A : Nat → Prop} {ps : List Part} {s t u : State} {a b n g j k : Nat} {v : Word}

theorem act_pmcSnap {old : Word} : s.act R.PMC_SNAP old v = s.pmcSnapAct v := by
  unfold State.act State.actPmc; rfl

theorem act_pmcCtrl {old : Word} : s.act R.PMC_CTRL old v = s := by
  unfold State.act State.actPmc; rfl

theorem act_pmcSel (g : Fin 3) (k : Fin 8) {old : Word} : s.act (R.PMC_Gg_SELk g k) old v = s.pmcSelAct g k old := by
  fin_cases g <;> fin_cases k <;> (unfold State.act State.actPmc; rfl)

/-- A pair keeps its value with its two words. -/
theorem State.pair_congr (h : t.reg a = s.reg a) (h' : t.reg (a + 4) = s.reg (a + 4)) : t.pair a = s.pair a := by
  unfold State.pair
  rw [h, h']

theorem pmcAddr_le (g : Fin 3) (j : Fin 9) : 0x80000 ≤ pmcAddr g j ∧ pmcAddr g j + 8 ≤ 0x80300 := by
  rw [pmcAddr_eq]; omega

theorem pmcAddr_apart {x y : Nat} (h : x ≠ y) :
    pmcAddr (x / 9) (x % 9) + 8 ≤ pmcAddr (y / 9) (y % 9) ∨ pmcAddr (y / 9) (y % 9) + 8 ≤ pmcAddr (x / 9) (x % 9) := by
  rw [pmcAddr_eq, pmcAddr_eq]; omega

/-- A counter's own register, with the counters' row as one range. -/
theorem pmcAddr_row_le {x : Nat} (hx : x < 27) : 0x80000 ≤ pmcAddr (x / 9) (x % 9) ∧ pmcAddr (x / 9) (x % 9) + 8 ≤ 0x80300 := by
  rw [pmcAddr_eq]; omega


/-- What a snapshot writes (R444). -/
def snapRegs : List (Nat × Nat) :=
  [(0x80400, 0x80700), (R.PMC_SNAP_SEQ, R.PMC_SNAP_SEQ + 4), (R.PMC_SNAP_TIME_LO, R.PMC_SNAP_TIME_LO + 8)]

/-- The counters copied (R444). -/
def State.pmcCopied (s : State) : State :=
  (List.range 27).foldl (fun t i => t.setPair (pmcAddr (i / 9) (i % 9) + 0x400) (s.pair (pmcAddr (i / 9) (i % 9)))) s

theorem State.pmcSnap_eq : s.pmcSnap = ((s.pmcCopied.setRegN R.PMC_SNAP_SEQ ((s.pmcCopied.reg R.PMC_SNAP_SEQ).toNat + 1)).setPair
    R.PMC_SNAP_TIME_LO (s.pmcCopied.setRegN R.PMC_SNAP_SEQ ((s.pmcCopied.reg R.PMC_SNAP_SEQ).toNat + 1)).nowTick.toNat).raw
      R.PMC_RAW F.PMC_RAW_SNAP_DONE := by
  simp only [State.pmcSnap, State.pmcCopied]

theorem reg_pmcCopied (h : a < 0x80400 ∨ 0x80700 ≤ a) : s.pmcCopied.reg a = s.reg a := by
  refine reg_foldl_mem fun t i hi => ?_
  have := pmcAddr_row_le (List.mem_range.1 hi)
  rw [State.reg_setPair, if_neg (by omega), if_neg (by omega)]

theorem nowTick_setRegN : (s.setRegN a n).nowTick = s.nowTick := rfl

theorem nowTick_foldl_setPair {f w : Nat → Nat} {l : List Nat} :
    (l.foldl (fun t i => t.setPair (f i) (w i)) s).nowTick = s.nowTick := by
  induction l generalizing s with
  | nil => rfl
  | cons x r ih => rw [List.foldl_cons, ih]; rfl

theorem nowTick_pmcCopied : s.pmcCopied.nowTick = s.nowTick :=
  nowTick_foldl_setPair (f := fun i => pmcAddr (i / 9) (i % 9) + 0x400)

theorem State.pair_lt : s.pair a < 2 ^ 64 := by
  have := (s.reg a).isLt
  have := (s.reg (a + 4)).isLt
  unfold State.pair
  omega

theorem pair_pmcCopied (g : Fin 3) (j : Fin 9) : s.pmcCopied.pair (pmcAddr g j + 0x400) = s.pair (pmcAddr g j) := by
  rw [← pmcAddr_row g j]
  refine (pair_foldl (f := fun i => pmcAddr (i / 9) (i % 9) + 0x400) (w := fun i => s.pair (pmcAddr (i / 9) (i % 9)))
    List.nodup_range (List.mem_range.2 (by omega)) fun x _ hne => ?_).trans (Nat.mod_eq_of_lt State.pair_lt)
  have := pmcAddr_apart hne
  omega

/-- Outside its own registers a snapshot only copies. -/
theorem reg_pmcSnap (h : a < 0x80800) : s.pmcSnap.reg a = s.pmcCopied.reg a := by
  have h1 : a ≠ R.PMC_SNAP_SEQ := by simp only [R.PMC_SNAP_SEQ]; omega
  have h2 : a ≠ R.PMC_SNAP_TIME_LO := by simp only [R.PMC_SNAP_TIME_LO]; omega
  have h3 : a ≠ R.PMC_SNAP_TIME_LO + 4 := by simp only [R.PMC_SNAP_TIME_LO]; omega
  have h4 : a ≠ R.PMC_RAW := by simp only [R.PMC_RAW]; omega
  rw [State.pmcSnap_eq, State.reg_raw, if_neg h4, State.reg_setPair, if_neg h3, if_neg h2, State.reg_setRegN, if_neg h1]

/-- A snapshot leaves the counters, and copies each (R444). -/
theorem pmcSnap_pair (g : Fin 3) (j : Fin 9) :
    s.pmcSnap.pair (pmcAddr g j + 0x400) = s.pair (pmcAddr g j) ∧ s.pmcSnap.pair (pmcAddr g j) = s.pair (pmcAddr g j) := by
  obtain ⟨h1, h2⟩ := pmcAddr_le g j
  have hk (a : Nat) (h : a < 0x80300) : s.pmcSnap.reg a = s.reg a :=
    (reg_pmcSnap (by omega)).trans (reg_pmcCopied (.inl (by omega)))
  refine ⟨?_, State.pair_congr (hk _ (by omega)) (hk _ (by omega))⟩
  rw [State.pair_congr (reg_pmcSnap (by omega)) (reg_pmcSnap (by omega)), pair_pmcCopied]

theorem pmcSnap_seq : s.pmcSnap.reg R.PMC_SNAP_SEQ = s.reg R.PMC_SNAP_SEQ + 1 := by
  rw [State.pmcSnap_eq, State.reg_raw, if_neg (by decide), State.reg_setPair, if_neg (by decide), if_neg (by decide),
    State.reg_setRegN, if_pos rfl, reg_pmcCopied (.inr (by decide))]
  apply BitVec.eq_of_toNat_eq
  simp

theorem pmcSnap_time : s.pmcSnap.pair R.PMC_SNAP_TIME_LO = s.nowTick.toNat := by
  rw [State.pmcSnap_eq, State.pair_congr (State.reg_raw.trans (if_neg (by decide))) (State.reg_raw.trans (if_neg (by decide))),
    State.pair_setPair, nowTick_setRegN, nowTick_pmcCopied]
  exact Nat.mod_eq_of_lt s.nowTick.isLt

theorem pmcSnap_done : s.pmcSnap.isSet R.PMC_RAW F.PMC_RAW_SNAP_DONE := by
  rw [State.pmcSnap_eq]
  exact State.isSet_raw (by decide) rfl

theorem Changes.pmcSnap (hA : ∀ a, (∃ r ∈ snapRegs, r.1 ≤ a ∧ a < r.2) → A a) (C : Changes A ps s t) :
    Changes A ps s t.pmcSnap := by
  have hk (a : Nat) (r : Nat × Nat) (hr : r ∈ snapRegs) (h1 : r.1 ≤ a) (h2 : a < r.2) : A a := hA a ⟨r, hr, h1, h2⟩
  have hc : Changes A ps s t.pmcCopied := by
    refine (Changes.foldl_mem_iff fun t i hi => ?_).2 C
    have := pmcAddr_row_le (List.mem_range.1 hi)
    exact Changes.setPair_iff (hk _ (0x80400, 0x80700) (by decide) (by omega) (by omega))
      (hk _ (0x80400, 0x80700) (by decide) (by omega) (by omega))
  have h1 : A R.PMC_SNAP_SEQ := hk _ (R.PMC_SNAP_SEQ, R.PMC_SNAP_SEQ + 4) (by decide) (by decide) (by decide)
  have h2 : A R.PMC_SNAP_TIME_LO := hk _ (R.PMC_SNAP_TIME_LO, R.PMC_SNAP_TIME_LO + 8) (by decide) (by decide) (by decide)
  have h3 : A (R.PMC_SNAP_TIME_LO + 4) := hk _ (R.PMC_SNAP_TIME_LO, R.PMC_SNAP_TIME_LO + 8) (by decide) (by decide) (by decide)
  rw [State.pmcSnap_eq]
  exact (Changes.raw_iff rfl).2 ((Changes.setPair_iff h2 h3).2 ((Changes.setRegN_iff h1).2 hc))

/-- R444: SNAP copies every counter, with its time and its sequence number. -/
theorem pmcSnap_snapshots (h : s.accepts R.PMC_SNAP) (hc : F.PMC_SNAP_CLEAR.get v = 0) :
    Answers (exec (.pmcSnap v) s) fun t =>
      (∀ g : Fin 3, ∀ j : Fin 9, t.pair (pmcAddr g j + 0x400) = s.pair (pmcAddr g j) ∧
        t.pair (pmcAddr g j) = s.pair (pmcAddr g j)) ∧
      t.reg R.PMC_SNAP_SEQ = s.reg R.PMC_SNAP_SEQ + 1 ∧ t.pair R.PMC_SNAP_TIME_LO = s.nowTick.toNat ∧
      t.isSet R.PMC_RAW F.PMC_RAW_SNAP_DONE ∧ s.sameBeyond t snapRegs ∧ s.sameParts t [] := by
  have hs : F.PMC_SNAP_SNAP.get (F.PMC_SNAP_SNAP.put v 1) = 1 := Fld.get_put (by decide) ..
  have hc : F.PMC_SNAP_CLEAR.get (F.PMC_SNAP_SNAP.put v 1) = 0 := (Fld.get_put_ne (by decide) (by decide) ..).trans hc
  have hact {x : State} {old : Word} : x.act R.PMC_SNAP old (F.PMC_SNAP_SNAP.put v 1) = x.pmcSnap := by
    rw [act_pmcSnap, State.pmcSnapAct]
    simp [hs, hc]
  refine Answers.ofCommandEnds (A := fun a => ∃ r ∈ snapRegs, r.1 ≤ a ∧ a < r.2) (ps := []) h (by decide) (by decide) (by decide)
    hact (Changes.refl.pmcSnap fun _ h => h) fun u E C => ?_
  generalize hx : s.setReg R.PMC_SNAP (s.reg R.PMC_SNAP) = x at E
  have hr (a : Nat) (hne : a ≠ R.PMC_SNAP) : x.reg a = s.reg a := hx ▸ State.reg_setReg_ne s hne _
  have hp (g : Fin 3) (j : Fin 9) : x.pair (pmcAddr g j) = s.pair (pmcAddr g j) := by
    obtain ⟨h1, h2⟩ := pmcAddr_le g j
    simp only [R.PMC_SNAP] at hr
    exact State.pair_congr (hr _ (by omega)) (hr _ (by omega))
  have ht : x.nowTick = s.nowTick := hx ▸ rfl
  have hu (a : Nat) (h1 : 0x80000 ≤ a) (h2 : a + 4 < 0x80810) : u.pair a = x.pmcSnap.pair a :=
    State.pair_congr (E.regs _ (logReg_counter h1 (by omega))) (E.regs _ (logReg_counter (by omega) h2))
  refine ⟨fun g j => ?_, ?_, ?_, ?_, C.sameBeyond, C.parts⟩
  · obtain ⟨h1, h2⟩ := pmcAddr_le g j
    rw [hu _ (by omega) (by omega), hu _ (by omega) (by omega), ← hp]
    exact pmcSnap_pair g j
  · rw [E.regs _ (by decide), pmcSnap_seq, hr _ (by decide)]
  · rw [State.pair_congr (E.regs _ (by decide)) (E.regs _ (by decide)), pmcSnap_time, ht]
  · exact E.logs.isSet rfl (by decide) rfl pmcSnap_done

end Sys2Proof.Machine
end

section

set_option Elab.async false

namespace Sys2Proof.Machine

variable {A : Nat → Prop} {ps : List Part} {s t u : State} {a b n g j k : Nat} {v : Word}

/-! ### Clearing, freezing, selecting and wrapping -/

theorem sharedReg_pmcAddr (g : Fin 3) (j : Fin 9) : sharedReg (pmcAddr g j) = true ∧ sharedReg (pmcAddr g j + 4) = true := by
  rw [pmcAddr_eq]
  exact ⟨sharedReg_pmc (by omega) (by omega) (by omega), sharedReg_pmc (by omega) (by omega) (by omega)⟩

/-- Counters and overflow bits are in no frame. -/
theorem Changes.setCounter (g : Fin 3) (j : Fin 9) : Changes A ps s (s.setPair (pmcAddr g j) n) := by
  obtain ⟨h1, h2⟩ := sharedReg_pmcAddr g j
  exact .trans (.setReg (.inr h1)) (.setReg (.inr h2))

theorem Changes.setOvf : Changes A ps s (s.setRegN R.PMC_OVF n) := .setReg (.inr rfl)

theorem Changes.pmcClear : Changes A ps s s.pmcClear := by
  have h : Changes A ps s ((List.range 27).foldl (fun t i => t.setPair (pmcAddr (i / 9) (i % 9)) 0) s) := by
    refine (Changes.foldl_mem_iff fun t i hi => ?_).2 .refl
    have := List.mem_range.1 hi
    exact (Changes.setCounter ⟨i / 9, by omega⟩ ⟨i % 9, by omega⟩).iff
  exact h.trans .setOvf

theorem pair_setRegN_ne (h : a ≠ b) (h' : a + 4 ≠ b) : (s.setRegN b n).pair a = s.pair a :=
  State.pair_congr (State.reg_setRegN.trans (if_neg h)) (State.reg_setRegN.trans (if_neg h'))

theorem pmcAddr_ne_ovf (g : Fin 3) (j : Fin 9) : pmcAddr g j ≠ R.PMC_OVF ∧ pmcAddr g j + 4 ≠ R.PMC_OVF := by
  have := pmcAddr_le g j
  simp only [R.PMC_OVF]
  omega

theorem pmcClear_pair (g : Fin 3) (j : Fin 9) : s.pmcClear.pair (pmcAddr g j) = 0 := by
  obtain ⟨h1, h2⟩ := pmcAddr_ne_ovf g j
  unfold State.pmcClear
  rw [pair_setRegN_ne h1 h2, ← pmcAddr_row g j]
  exact pair_foldl (f := fun i => pmcAddr (i / 9) (i % 9)) (w := fun _ => 0) List.nodup_range (List.mem_range.2 (by omega))
    fun x _ hne => pmcAddr_apart hne

theorem pmcClear_ovf : s.pmcClear.reg R.PMC_OVF = 0 :=
  State.reg_setRegN.trans (if_pos rfl)

/-- A counter's pair, at the end of the clock. -/
theorem Ends.counter (E : Ends t u) (g : Fin 3) (j : Fin 9) : u.pair (pmcAddr g j) = t.pair (pmcAddr g j) := by
  obtain ⟨h1, h2⟩ := pmcAddr_le g j
  exact State.pair_congr (E.regs _ (logReg_counter h1 (by omega))) (E.regs _ (logReg_counter (by omega) (by omega)))

/-- R444: CLEAR sets every counter and overflow bit to 0. -/
theorem pmcClear_clears (h : s.accepts R.PMC_SNAP) (hc : F.PMC_SNAP_SNAP.get v = 0) :
    Answers (exec (.pmcClear v) s) fun t =>
      (∀ g : Fin 3, ∀ j : Fin 9, t.pair (pmcAddr g j) = 0) ∧ t.reg R.PMC_OVF = 0 ∧ s.sameBut t [] ∧ s.sameParts t [] := by
  have hs : F.PMC_SNAP_CLEAR.get (F.PMC_SNAP_CLEAR.put v 1) = 1 := Fld.get_put (by decide) ..
  have hc : F.PMC_SNAP_SNAP.get (F.PMC_SNAP_CLEAR.put v 1) = 0 := (Fld.get_put_ne (by decide) (by decide) ..).trans hc
  have hact {x : State} {old : Word} : x.act R.PMC_SNAP old (F.PMC_SNAP_CLEAR.put v 1) = x.pmcClear := by
    rw [act_pmcSnap, State.pmcSnapAct]
    simp [hs, hc]
  refine Answers.ofCommandEnds (A := (· ∈ [])) (ps := []) h (by decide) (by decide) (by decide) hact Changes.pmcClear fun u E C =>
    ⟨fun g j => (E.counter g j).trans (pmcClear_pair g j), (E.regs _ (by decide)).trans pmcClear_ovf, C.sameBut, C.parts⟩

/-- R445: FREEZE stops the counters. -/
theorem pmcFreeze_freezes (h : s.accepts R.PMC_CTRL) : Answers (exec (.pmcFreeze v) s) fun t =>
    t.g R.PMC_CTRL F.PMC_CTRL_FREEZE = F.PMC_CTRL_FREEZE.get v ∧
      (F.PMC_CTRL_FREEZE.get v = 1 → t.pmcCounts = false) ∧ s.sameBut t [R.PMC_CTRL, R.HIF_CFG_CRC_STATUS] ∧
      s.sameParts t [] := by
  refine Answers.ofWriteEnds (A := (· ∈ [R.PMC_CTRL, R.HIF_CFG_CRC_STATUS])) (ps := []) h (by decide) act_pmcCtrl
    (by simp) (by simp) fun u E C => ?_
  have hg : u.g R.PMC_CTRL F.PMC_CTRL_FREEZE = F.PMC_CTRL_FREEZE.get v := by
    unfold State.g
    rw [E _ (by decide) (by decide), State.reg_setReg_same]
    exact formWord_field (f := ⟨"FREEZE", 0, 0, .rw, 0x0, .any⟩) (by decide) (by decide) (by decide) (by decide) (fun _ _ => rfl) v
  refine ⟨hg, fun h1 => ?_, C.sameBut, C.parts⟩
  rw [State.pmcCounts, (State.on_iff rfl).2 (hg.trans h1)]
  simp

theorem readNow_pmcSel (g : Fin 3) (k : Fin 8) : s.readNow (R.PMC_Gg_SELk g k) = s.reg (R.PMC_Gg_SELk g k) := by
  fin_cases g <;> fin_cases k <;> rfl

theorem ownWord_pmcSel (g : Fin 3) (k : Fin 8) : ownWord (R.PMC_Gg_SELk g k) = true := by
  revert g k; decide

theorem logReg_pmcSel (g : Fin 3) (k : Fin 8) : logReg (R.PMC_Gg_SELk g k) = false := by
  revert g k; decide

/-- R446: a select that changes clears its counter and overflow bit. -/
theorem pmcSelectChange_clears (g : Fin 3) (k : Fin 8) (h : s.accepts (R.PMC_Gg_SELk g k))
    (hne : s.formWord (R.PMC_Gg_SELk g k) v ≠ s.reg (R.PMC_Gg_SELk g k)) :
    Answers (exec (.pmcSelectChange g k v) s) fun t =>
      t.reg (R.PMC_Gg_SELk g k) = s.formWord (R.PMC_Gg_SELk g k) v ∧ t.pair (pmcAddr g (k + 1)) = 0 ∧
      maskBit (t.reg R.PMC_OVF).toNat (9 * g + k + 1) = false ∧
      s.sameBut t [(R.PMC_Gg_SELk g k), R.HIF_CFG_CRC_STATUS] ∧ s.sameParts t [] := by
  have hj : pmcAddr g (k + 1) = pmcAddr g (⟨k + 1, by omega⟩ : Fin 9) := rfl
  obtain ⟨h1, h2⟩ := pmcAddr_ne_ovf g ⟨k + 1, by omega⟩
  have h3 : R.PMC_Gg_SELk g k ≠ R.PMC_OVF := by simp only [R.PMC_Gg_SELk, R.PMC_OVF]; omega
  have h4 : R.PMC_Gg_SELk g k ≠ pmcAddr g (k + 1) + 4 := by rw [pmcAddr_eq, R.PMC_Gg_SELk]; omega
  have h5 : R.PMC_Gg_SELk g k ≠ pmcAddr g (k + 1) := by rw [pmcAddr_eq, R.PMC_Gg_SELk]; omega
  have h6 : R.PMC_Gg_SELk g k ≠ R.HIF_CFG_CRC_STATUS := by simp only [R.PMC_Gg_SELk, R.HIF_CFG_CRC_STATUS]; omega
  have hact (x : State) (hx : x.reg (R.PMC_Gg_SELk g k) ≠ s.reg (R.PMC_Gg_SELk g k)) :
      x.act (R.PMC_Gg_SELk g k) (s.readNow (R.PMC_Gg_SELk g k)) v = (x.setPair (pmcAddr g (k + 1)) 0).setRegN R.PMC_OVF
        (maskClr ((x.setPair (pmcAddr g (k + 1)) 0).reg R.PMC_OVF).toNat (9 * g + k + 1)) := by
    rw [act_pmcSel, readNow_pmcSel, State.pmcSelAct, if_neg hx]
  refine Answers.ofWriteEnds (A := (· ∈ [(R.PMC_Gg_SELk g k), R.HIF_CFG_CRC_STATUS])) (ps := []) h (ownWord_pmcSel g k)
    (hact _ (by rwa [State.reg_setReg_same])) ?_ (by simp) fun u E C => ⟨?_, ?_, ?_, C.sameBut, C.parts⟩
  · exact .trans (.trans (.setReg (.inl (by simp))) (.setCounter g ⟨k + 1, by omega⟩)) .setOvf
  · rw [E _ (logReg_pmcSel g k) h6, State.reg_setRegN, if_neg h3, State.reg_setPair, if_neg h4, if_neg h5, State.reg_setReg_same]
  · obtain ⟨h7, h8⟩ := pmcAddr_le g ⟨k + 1, by omega⟩
    rw [hj, State.pair_congr (E _ (logReg_counter h7 (by omega)) (by rw [R.HIF_CFG_CRC_STATUS]; omega))
      (E _ (logReg_counter (by omega) (by omega)) (by rw [R.HIF_CFG_CRC_STATUS]; omega)), pair_setRegN_ne h1 h2,
      State.pair_setPair]
    rfl
  · rw [E _ (by decide) (by decide), State.reg_setRegN, if_pos rfl, BitVec.toNat_ofNat, maskBit_mod (by omega)]
    exact maskBit_maskClr_self

/-- A counter at all ones that counts one more event. -/
theorem pmcAdd_wraps (g : Fin 3) (j : Fin 9) (hp : s.pair (pmcAddr g j) = 2 ^ 48 - 1) :
    (s.pmcAdd g j 1).pair (pmcAddr g j) = 0 ∧ maskBit ((s.pmcAdd g j 1).reg R.PMC_OVF).toNat (9 * g + j) = true := by
  obtain ⟨h1, h2⟩ := pmcAddr_le g j
  have hn (x : Nat) (hx : 0x80800 ≤ x) : pmcAddr g j ≠ x ∧ pmcAddr g j + 4 ≠ x := by omega
  obtain ⟨h3, h4⟩ := hn R.PMC_OVF (by decide)
  obtain ⟨h5, h6⟩ := hn R.PMC_RAW (by decide)
  unfold State.pmcAdd
  rw [hp]
  extract_lets x y z
  have hz : z.pair (pmcAddr g j) = 0 := by
    rw [State.pair_congr (State.reg_orReg.trans (if_neg h3)) (State.reg_orReg.trans (if_neg h4)), State.pair_setPair]
    decide
  have ho : maskBit (z.reg R.PMC_OVF).toNat (9 * g + j) = true := by
    rw [State.reg_orReg, if_pos rfl, maskBit_eq_testBit, BitVec.toNat_or, Nat.testBit_or, BitVec.toNat_ofNat,
      Nat.testBit_mod_two_pow, Nat.testBit_two_pow_self]
    simp
    omega
  rw [if_neg (by decide)]
  split
  · exact ⟨(State.pair_congr (State.reg_raw.trans (if_neg h5)) (State.reg_raw.trans (if_neg h6))).trans hz,
      (congrArg (maskBit ·.toNat _) (State.reg_raw.trans (if_neg (by decide)))).trans ho⟩
  · exact ⟨hz, ho⟩

/-- R447: a counter at all ones wraps to 0 and sets its overflow bit. -/
theorem pmcCounterWrap_wraps (g : Fin 3) (j : Fin 9) (h : s.inReset = false) (hc : s.pmcCounts = true)
    (hp : s.pair (pmcAddr g j) = 2 ^ 48 - 1) : Answers (exec (.pmcCounterWrap g j) s) fun t =>
      t.pair (pmcAddr g j) = 0 ∧ maskBit (t.reg R.PMC_OVF).toNat (9 * g + j) = true ∧ s.sameBut t [] ∧ s.sameParts t [] := by
  show Answers (done s (s.pmcWrap g j)) _
  obtain ⟨hv, ho⟩ := pmcAdd_wraps g j hp
  rw [State.pmcWrap, hc, hp, if_pos (by decide)]
  refine Answers.ofDoneEnds h fun u E => ?_
  have C : Changes (· ∈ []) [] s u := ((Changes.pmcAdd_iff g.isLt j.isLt).2 .refl).logs E.logs
  exact ⟨(E.counter g j).trans hv, (congrArg (maskBit ·.toNat _) (E.regs _ (by decide))).trans ho, C.sameBut, C.parts⟩

/-! ### Writes over F1 -/

/-- A whole word is written over F1 while nothing holds its accesses back. -/
theorem writeReq_f1 (hr : s.runs .register = true) (hd : s.hif.dead.contains .register = false)
    (hh : s.hif.held.any (fun y => decide (y.src = .f1)) = false) (ha : a % 4 = 0) :
    s.writeReq .f1 a true [v] = s.writeF1 a := by
  have e : s.writeReq .f1 a true [v] = s.access ⟨.f1, a, true, v, 0, 4⟩ := by
    unfold State.writeReq
    simp [ha, wordAccesses, State.accessAll]
  rw [e, State.access]
  simp only [and_self, if_true, hd, hh, hr, reduceCtorEq, false_and, if_false, Bool.false_eq_true, State.perform]

/-- R448: a write over F1 to the counter window is discarded and counted. -/
theorem pmcUserWriteDenied_counts (k : Fin 32768) (h : s.inReset = false) (hr : s.runs .register = true)
    (hd : s.hif.dead.contains .register = false) (hh : s.hif.held.any (fun y => decide (y.src = .f1)) = false) :
    Answers (exec (.pmcUserWriteDenied k v) s) fun t =>
      t.g R.PMC_USER_EN F.PMC_USER_EN_DENIED = min (s.g R.PMC_USER_EN F.PMC_USER_EN_DENIED + 1) 65535 ∧
      s.sameBut t [R.PMC_USER_EN] ∧ s.sameParts t [] := by
  show Answers (done s (s.writeReq .f1 (k.val / 4 * 4) true [v])) _
  rw [writeReq_f1 hr hd hh (by omega), State.writeF1, if_pos (by omega)]
  refine Answers.ofChanges (A := (· ∈ [R.PMC_USER_EN])) (ps := []) h (by simp) fun u L C => ⟨?_, C.sameBut, C.parts⟩
  rw [L.g (by decide), State.g_inc (by decide)]
  rfl

/-- R23: a write over F1 to the status window is discarded, counted and its address recorded. -/
theorem f1StatusWrite_counts (k : Fin 256) (h : s.inReset = false) (hr : s.runs .register = true)
    (hd : s.hif.dead.contains .register = false) (hh : s.hif.held.any (fun y => decide (y.src = .f1)) = false) :
    Answers (exec (.f1StatusWrite k v) s) fun t =>
      t.g R.HIF_ACCESS_FAULT F.HIF_ACCESS_FAULT_NARROW_WR = min (s.g R.HIF_ACCESS_FAULT F.HIF_ACCESS_FAULT_NARROW_WR
        + 1) 255 ∧
      t.g R.HIF_ACCESS_ADDR F.HIF_ACCESS_ADDR_ADDR = 0x8000 + k.val / 4 * 4 ∧
      s.sameBut t [R.HIF_ACCESS_FAULT, R.HIF_ACCESS_ADDR] ∧ s.sameParts t [] := by
  show Answers (done s (s.writeReq .f1 (0x8000 + k.val / 4 * 4) true [v])) _
  rw [writeReq_f1 hr hd hh (by omega), State.writeF1, if_neg (by omega), if_pos (by omega), State.narrow, State.accessRaw,
    if_pos rfl, State.accessFault]
  refine Answers.ofChanges (A := (· ∈ [R.HIF_ACCESS_FAULT, R.HIF_ACCESS_ADDR])) (ps := []) h (by simp)
    fun u L C => ⟨?_, ?_, C.sameBut, C.parts⟩
  · rw [L.g (by decide), State.g, State.reg_setRegN, if_neg (by decide)]
    exact State.g_inc (by decide)
  · rw [L.g (by decide), State.g, State.reg_setRegN, if_pos rfl]
    simp only [Fld.get, srcCode, BitVec.toNat_ofNat]
    simp
    omega

/-- Settles O38: each clause by its rule; the end of a clock leaves the counters as the command left them. -/
theorem countersAndUserFunctions : Obligations.CountersAndUserFunctions :=
  ⟨fun _ _ => pmcSnap_snapshots, fun _ _ => pmcClear_clears, fun _ _ => pmcFreeze_freezes, fun _ g k _ => pmcSelectChange_clears g k,
    fun _ g j => pmcCounterWrap_wraps g j, fun _ k _ => pmcUserWriteDenied_counts k, fun _ k _ => f1StatusWrite_counts k⟩

end Sys2Proof.Machine
end

section

/-! ## The fault-record queue and the DMA rings (R59 to R63) -/

set_option Elab.async false

namespace Sys2Proof.Machine

variable {A : Nat → Prop} {ps : List Part} {s t u : State} {a b n j k : Nat} {v : Word}

/-! ### Rules of the rings -/

theorem State.ready_setReady {l : List Content} : (s.setReady k l).ready k = l := by
  unfold State.ready State.setReady
  dsimp only
  rw [Tbl.get_set, if_pos rfl]

@[simp] theorem Changes.setReady_iff {l : List Content} (h : .hif ∈ ps) : Changes A ps s (t.setReady k l) ↔ Changes A ps s t := by
  unfold State.setReady
  simp [h]

@[simp] theorem Changes.ringMsg_iff (h : .hif ∈ ps) : Changes A ps s (t.ringMsg k) ↔ Changes A ps s t := by
  unfold State.ringMsg
  simp [h]

@[simp] theorem Changes.ringVector_iff (h : .hif ∈ ps) : Changes A ps s (t.ringVector k) ↔ Changes A ps s t := by
  unfold State.ringVector
  simp [h]

@[simp] theorem Changes.descDone_iff {w st : Nat} (h : A (R.HIF_DMAk_HEAD k)) (h' : A (R.HIF_DMAk_STATUS k)) (hp : .hif ∈ ps) :
    Changes A ps s (t.descDone k w st) ↔ Changes A ps s t := by
  unfold State.descDone
  simp [h, h', hp]

theorem reg_signal_ne (h : a ≠ 0x9000) : (s.signal n).reg a = s.reg a := by
  unfold State.signal
  split
  · rfl
  · split
    · exact State.reg_orReg.trans (if_neg h)
    · rfl

theorem reg_ringVector (h : a ≠ 0x9000) : (s.ringVector k).reg a = s.reg a := by
  unfold State.ringVector State.ringMsg
  extract_lets l w
  split
  · split
    · exact reg_signal_ne h
    · split <;> rfl
  · rfl

theorem ready_signal : (s.signal n).ready k = s.ready k := by
  unfold State.signal
  split
  · rfl
  · split <;> rfl

theorem ready_ringVector : (s.ringVector k).ready n = s.ready n := by
  unfold State.ringVector State.ringMsg
  extract_lets l w
  split
  · split
    · rw [ready_signal]; rfl
    · split <;> rfl
  · rfl

theorem out_signal (h : t.out = s.out) : s.out <+: (t.signal n).out := h ▸ (Logs.signal (.refl t)).out

theorem out_ringVector : s.out <+: (s.ringVector k).out := by
  unfold State.ringVector State.ringMsg
  extract_lets l w
  split
  · split
    · exact out_signal rfl
    · split <;> exact List.prefix_refl _
  · exact List.prefix_refl _

/-- HEAD of a ring moves on, and is written back to the host. -/
def State.headMoved (s : State) (k : Nat) : State :=
  let head := (s.g (R.HIF_DMAk_HEAD k) F.HIF_DMAk_HEAD_HEAD + 1) % s.ringSize k
  let t := s.p (R.HIF_DMAk_HEAD k) F.HIF_DMAk_HEAD_HEAD head
  if t.pair (R.HIF_DMAk_WB_LO k) = 0 then t else t.emit (.hostMem (t.pair (R.HIF_DMAk_WB_LO k)) (leBytes 4 head))

theorem headMoved_reg : (s.headMoved k).reg a =
    (s.p (R.HIF_DMAk_HEAD k) F.HIF_DMAk_HEAD_HEAD ((s.g (R.HIF_DMAk_HEAD k) F.HIF_DMAk_HEAD_HEAD + 1) % s.ringSize k)).reg a := by
  unfold State.headMoved
  extract_lets head t
  split
  · rfl
  · exact State.reg_emit

theorem headMoved_ready : (s.headMoved k).ready n = s.ready n := by
  unfold State.headMoved
  extract_lets head t
  split <;> rfl

theorem headMoved_out : s.out <+: (s.headMoved k).out := by
  unfold State.headMoved
  extract_lets head t
  split
  · exact List.prefix_refl _
  · exact List.prefix_append ..

/-- A vector asked for, a ring that is disabled stops. -/
def State.ringEnd (s : State) (k : Nat) : State :=
  let t := s.ringVector k
  if t.on (R.HIF_DMAk_CTRL k) F.HIF_DMAk_CTRL_ENABLE then t else t.p (R.HIF_DMAk_STATUS k) F.HIF_DMAk_STATUS_RUNNING 0

theorem ringEnd_reg (h : a ≠ 0x9000) (h' : a ≠ R.HIF_DMAk_STATUS k) : (s.ringEnd k).reg a = s.reg a := by
  unfold State.ringEnd
  extract_lets t
  split
  · exact reg_ringVector h
  · exact (State.reg_p.trans (if_neg h')).trans (reg_ringVector h)

theorem ringEnd_ready : (s.ringEnd k).ready n = s.ready n := by
  unfold State.ringEnd
  extract_lets t
  split
  · exact ready_ringVector
  · exact Eq.trans rfl ready_ringVector

theorem ringEnd_out : s.out <+: (s.ringEnd k).out := by
  unfold State.ringEnd
  extract_lets t
  split
  · exact out_ringVector
  · exact List.IsPrefix.trans out_ringVector (List.prefix_refl _)

/-- What tells the host of a descriptor that completes (R62). -/
def State.doneWord (s : State) (k w st : Nat) : Out :=
  .hostMem (s.descAddr k + 12) (leBytes 2 w ++ leBytes 2 (2 ^ 15 + st % 2 ^ 15))

theorem descDone_eq {w st : Nat} : s.descDone k w st = ((s.emit (s.doneWord k w st)).headMoved k).ringEnd k := by
  unfold State.descDone State.ringEnd State.headMoved State.doneWord
  rfl

/-- A descriptor that completes moves HEAD on. -/
theorem descDone_head {w st : Nat} (hk : R.HIF_DMAk_HEAD k ≠ 0x9000) :
    (s.descDone k w st).g (R.HIF_DMAk_HEAD k) F.HIF_DMAk_HEAD_HEAD =
      (s.g (R.HIF_DMAk_HEAD k) F.HIF_DMAk_HEAD_HEAD + 1) % s.ringSize k % 2 ^ 16 := by
  have hne : R.HIF_DMAk_HEAD k ≠ R.HIF_DMAk_STATUS k := by simp only [R.HIF_DMAk_HEAD, R.HIF_DMAk_STATUS]; omega
  rw [descDone_eq]
  generalize s.doneWord k w st = o
  unfold State.g
  rw [ringEnd_reg hk hne, headMoved_reg]
  exact State.g_p_same (by decide) _

theorem descDone_ready {w st : Nat} : (s.descDone k w st).ready n = s.ready n := by
  rw [descDone_eq, ringEnd_ready, headMoved_ready]
  rfl

/-- The status of a descriptor that completes is the first thing to leave. -/
theorem descDone_emits {w st : Nat} : s.emits (s.descDone k w st) (s.doneWord k w st) := by
  rw [descDone_eq]
  generalize s.doneWord k w st = o
  have h : (s.emit o).out <+: (((s.emit o).headMoved k).ringEnd k).out := headMoved_out.trans ringEnd_out
  exact h

/-! ### The clauses -/

theorem sharedReg_dmaStatus (k : Fin 3) : sharedReg (R.HIF_DMAk_STATUS k) = false := by revert k; decide
theorem sharedReg_dmaHead (k : Fin 3) : sharedReg (R.HIF_DMAk_HEAD k) = false := by revert k; decide
theorem sharedReg_dmaCtrl (k : Fin 3) : sharedReg (R.HIF_DMAk_CTRL k) = false := by revert k; decide
theorem sharedReg_dmaTail (k : Fin 3) : sharedReg (R.HIF_DMAk_TAIL k) = false := by revert k; decide

theorem act_fqPop {old : Word} : s.act R.HIF_FQ_POP old v = if F.HIF_FQ_POP_POP.get v = 1 then s.popFault else s := by
  unfold State.act State.actHif
  rfl

theorem act_dmaCtrl (k : Fin 3) {old : Word} : s.act (R.HIF_DMAk_CTRL k) old v = s.dmaCtrlAct k old := by
  fin_cases k <;> (unfold State.act State.actHif; rfl)

theorem act_dmaTail (k : Fin 3) {old : Word} : s.act (R.HIF_DMAk_TAIL k) old v = s := by
  fin_cases k <;> (unfold State.act State.actHif; rfl)

theorem popFault_fq {f : FaultRec} {l : List FaultRec} (hf : s.hif.fq = f :: l) : s.popFault.hif.fq = l := by
  unfold State.popFault
  rw [hf]
  rfl

theorem Changes.popFault : Changes A ps s s.popFault := by
  unfold State.popFault
  split
  · exact .refl
  · next l _ =>
    refine Changes.trans (t := { s with hif := { s.hif with fq := l } }) ?_ (.setReg (.inr rfl))
    simp

/-- R59: POP removes the oldest fault record. -/
theorem fqPop_removes {f : FaultRec} {l : List FaultRec} (h : s.accepts R.HIF_FQ_POP) (hf : s.hif.fq = f :: l) :
    Answers (exec (.fqPop v) s) fun t => l <+: t.hif.fq ∧ s.sameBut t [] ∧ s.sameParts t [] := by
  have hv : F.HIF_FQ_POP_POP.get (F.HIF_FQ_POP_POP.put v 1) = 1 := Fld.get_put (by decide) ..
  have hq : (s.setReg R.HIF_FQ_POP (s.reg R.HIF_FQ_POP)).hif.fq = f :: l := hf
  refine Answers.ofCommand (A := (· ∈ [])) (ps := []) h (by decide) (by decide) (act_fqPop.trans (if_pos hv))
    Changes.popFault fun u L C => ⟨popFault_fq hq ▸ L.fq, C.sameBut, C.parts⟩

theorem ownWord_dmaCtrl (k : Fin 3) : ownWord (R.HIF_DMAk_CTRL k) = true := by revert k; decide
theorem scanned_dmaCtrl (k : Fin 3) : scanned (R.HIF_DMAk_CTRL k) = false := by revert k; decide
theorem ownWord_dmaTail (k : Fin 3) : ownWord (R.HIF_DMAk_TAIL k) = true := by revert k; decide
theorem scanned_dmaTail (k : Fin 3) : scanned (R.HIF_DMAk_TAIL k) = false := by revert k; decide

theorem formWord_dmaCtrl (k : Fin 3) :
    F.HIF_DMAk_CTRL_ENABLE.get (s.formWord (R.HIF_DMAk_CTRL k) v) = F.HIF_DMAk_CTRL_ENABLE.get v := by
  fin_cases k <;>
    exact formWord_field (f := ⟨"ENABLE", 0, 0, .rw, 0x0, .any⟩) (by decide) (by decide) (by decide) (by decide) (fun _ _ => rfl) v

theorem readNow_dmaCtrl (k : Fin 3) : s.readNow (R.HIF_DMAk_CTRL k) = s.reg (R.HIF_DMAk_CTRL k) := by
  fin_cases k <;> rfl

/-- A register of its own that the configuration scan leaves out is written. -/
theorem Answers.ofUnscanned {P : State → Prop} (h : s.accepts a) (hp : ownWord a = true) (hn : scanned a = false)
    (ht : (s.setReg a (s.formWord a v)).act a (s.readNow a) v = t) (F : Changes A ps s t)
    (hP : ∀ u, Logs t u → Changes A ps s u → P u) : Answers (done s (s.hostWrite a v)) P := by
  refine Answers.ofHostWriteEnds h hp fun u E => ?_
  rw [ht, State.afterScan, hn, if_neg (by decide)] at E
  exact hP u E.logs (F.logs E.logs)

/-- R60: ENABLE starts a ring. -/
theorem dmaRingEnable_starts (k : Fin 3) (h : s.accepts (R.HIF_DMAk_CTRL k))
    (he : s.g (R.HIF_DMAk_CTRL k) F.HIF_DMAk_CTRL_ENABLE = 0) : Answers (exec (.dmaRingEnable k v) s) fun t =>
      t.g (R.HIF_DMAk_CTRL k) F.HIF_DMAk_CTRL_ENABLE = 1 ∧ t.g (R.HIF_DMAk_STATUS k) F.HIF_DMAk_STATUS_RUNNING = 1 ∧
      s.sameBut t [R.HIF_DMAk_CTRL k, R.HIF_DMAk_STATUS k] ∧ s.sameParts t [] := by
  have hne : R.HIF_DMAk_CTRL k ≠ R.HIF_DMAk_STATUS k := by simp only [R.HIF_DMAk_CTRL, R.HIF_DMAk_STATUS]; omega
  have hv : F.HIF_DMAk_CTRL_ENABLE.get (F.HIF_DMAk_CTRL_ENABLE.put v 1) = 1 := Fld.get_put (by decide) ..
  have hact (x : State) (hx : x.g (R.HIF_DMAk_CTRL k) F.HIF_DMAk_CTRL_ENABLE = 1) :
      x.act (R.HIF_DMAk_CTRL k) (s.readNow (R.HIF_DMAk_CTRL k)) (F.HIF_DMAk_CTRL_ENABLE.put v 1) =
        x.p (R.HIF_DMAk_STATUS k) F.HIF_DMAk_STATUS_RUNNING 1 := by
    rw [act_dmaCtrl, readNow_dmaCtrl, State.dmaCtrlAct]
    exact if_pos ⟨he, hx⟩
  have hg : (s.setReg (R.HIF_DMAk_CTRL k) (s.formWord (R.HIF_DMAk_CTRL k) (F.HIF_DMAk_CTRL_ENABLE.put v 1))).g
      (R.HIF_DMAk_CTRL k) F.HIF_DMAk_CTRL_ENABLE = 1 := by
    rw [State.g, State.reg_setReg_same, formWord_dmaCtrl, hv]
  refine Answers.ofUnscanned (A := (· ∈ [R.HIF_DMAk_CTRL k, R.HIF_DMAk_STATUS k])) (ps := []) h (ownWord_dmaCtrl k)
    (scanned_dmaCtrl k) (hact _ hg) (by simp) fun u L C => ⟨?_, ?_, C.sameBut, C.parts⟩
  · rw [L.g (sharedReg_dmaCtrl k)]
    exact (congrArg F.HIF_DMAk_CTRL_ENABLE.get (State.reg_p.trans (if_neg hne))).trans hg
  · rw [L.g (sharedReg_dmaStatus k)]
    exact State.g_p_same (by decide) 1

/-- R61: a tail write moves TAIL. -/
theorem dmaTailWrite_moves (k : Fin 3) (h : s.accepts (R.HIF_DMAk_TAIL k)) : Answers (exec (.dmaTailWrite k v) s) fun t =>
    t.reg (R.HIF_DMAk_TAIL k) = s.formWord (R.HIF_DMAk_TAIL k) v ∧ s.sameBut t [R.HIF_DMAk_TAIL k] ∧ s.sameParts t [] :=
  Answers.ofUnscanned (A := (· ∈ [R.HIF_DMAk_TAIL k])) (ps := []) h (ownWord_dmaTail k) (scanned_dmaTail k) (act_dmaTail k)
    (by simp) fun _ L C => ⟨(L.reg _ (sharedReg_dmaTail k)).trans (State.reg_setReg_same ..), C.sameBut, C.parts⟩

theorem dmaStatus_ne (k : Fin 3) : R.HIF_DMAk_STATUS k ≠ R.HIF_FQ_STATUS ∧ R.HIF_DMAk_STATUS k ≠ R.HIF_RAW := by
  revert k; decide

/-- R63: a PCIe error stops a ring. -/
theorem dmaPcieError_stops (k : Fin 3) (h : s.inReset = false)
    (hr : s.g (R.HIF_DMAk_STATUS k) F.HIF_DMAk_STATUS_RUNNING = 1) : Answers (exec (.dmaPcieError k) s) fun t =>
      t.g (R.HIF_DMAk_STATUS k) F.HIF_DMAk_STATUS_RUNNING = 0 ∧
      t.isSet (R.HIF_DMAk_STATUS k) F.HIF_DMAk_STATUS_PCIE_ERR ∧
      (s.hif.fq.length < 32 → ∃ f ∈ t.hif.fq, f.block = 0 ∧ f.code = 3 ∧ f.detail = k.val) ∧
      s.sameBut t [R.HIF_DMAk_STATUS k] ∧ s.sameParts t [] := by
  show Answers (done s (s.ringError k)) _
  rw [State.ringError, if_pos ((State.on_iff rfl).2 hr)]
  extract_lets x
  generalize hd : x.descAddr k % 2 ^ 32 = d
  refine Answers.ofChanges (A := (· ∈ [R.HIF_DMAk_STATUS k])) (ps := []) h (by simp [State.raw, x]) fun u L C =>
    ⟨?_, ?_, fun hq => L.queued ⟨_, State.mem_fq_fault (by simpa [x] using hq), rfl, rfl, by simp; omega⟩, C.sameBut, C.parts⟩
  · rw [L.g (sharedReg_dmaStatus k), State.g, State.reg_fault (dmaStatus_ne k).1 (dmaStatus_ne k).2, State.reg_raw, if_pos rfl]
    exact (Fld.get_put_ne (by decide) (by decide) ..).trans (State.g_p_same (by decide) 0)
  · rw [State.isSet, L.g (sharedReg_dmaStatus k), State.g, State.reg_fault (dmaStatus_ne k).1 (dmaStatus_ne k).2, State.reg_raw,
      if_pos rfl]
    exact Fld.get_put (by decide) ..

/-- A vector that nothing masks is signalled (R56). -/
theorem signal_eq (he : s.hif.fn0.msixEn = true) (h3 : s.hif.fn0.d3hot = false) (hm : s.hif.fn0.msixMask = false)
    (hb : bit (s.reg (0x800C + 16 * n)) 0 = false) : s.signal n = { s with out := s.out ++ [.msi n] } := by
  unfold State.signal
  simp [he, h3, hm, hb]

/-- The message of ring `k` no longer waits. -/
def State.msgTaken (s : State) (k : Nat) : State :=
  { s with hif := { s.hif with lastMsg := Tbl.set 0 s.hif.lastMsg k (s.regClk + 1),
                               waitMsg := s.hif.waitMsg.filter (fun j => j != k) } }

theorem ringMsg_eq : s.ringMsg k = (s.msgTaken k).signal (19 + k) := rfl

theorem Changes.msgTaken : Changes A [.hif] s (s.msgTaken k) := by
  unfold State.msgTaken
  simp

/-- R62: a message that waited is signalled when its hold-off ends. -/
theorem holdoff_sends (k : Fin 3) (h : s.inReset = false) (hw : k.val ∈ s.hif.waitMsg) (he : s.hif.fn0.msixEn = true)
    (h3 : s.hif.fn0.d3hot = false) (hm : s.hif.fn0.msixMask = false) (hb : bit (s.reg (0x800C + 16 * (19 + k.val))) 0 = false) :
    Answers (exec (.dmaHoldoffExpiry k) s) fun t =>
      k.val ∉ t.hif.waitMsg ∧ s.emits t (.msi (19 + k.val)) ∧ s.sameBut t [] ∧ s.sameParts t [.hif] := by
  show Answers (done s (s.holdoff k)) _
  rw [State.holdoff, if_pos (by simpa using hw), ringMsg_eq]
  have e : (s.msgTaken k).signal (19 + k) = { s.msgTaken k with out := s.out ++ [.msi (19 + k.val)] } := signal_eq he h3 hm hb
  refine Answers.ofChanges (A := (· ∈ [])) (ps := [.hif]) h (Changes.signal_iff.2 .msgTaken) fun u L C => ⟨?_, ?_, C.sameBut, C.parts⟩
  · rw [L.hif, e]
    simp [State.msgTaken]
  · have k := L.out
    rwa [e] at k

theorem ready_congr (h : t.hif = { s.hif with fq := t.hif.fq }) : t.ready k = s.ready k := by
  unfold State.ready
  rw [h]

theorem sharedReg_head0 (k : Fin 3) : R.HIF_DMAk_HEAD k ≠ 0x9000 := by revert k; decide

/-- R62: a descriptor of ring 0 completes. -/
theorem ring0_completes {desc : List Byte} {c : Content} {l : List Content} (h : s.inReset = false) (hp : s.posted 0 ≠ 0)
    (hr : s.ready 0 = c :: l) (hc : c.st < 2 ^ 16) : Answers (exec (.dmaDescriptorDone 0 desc) s) fun t =>
      t.g (R.HIF_DMAk_HEAD 0) F.HIF_DMAk_HEAD_HEAD = (s.g (R.HIF_DMAk_HEAD 0) F.HIF_DMAk_HEAD_HEAD + 1) % s.ringSize
        0 % 2 ^ 16 ∧
      t.ready 0 = l ∧
      s.emits t (.hostMem (s.descAddr 0 + 12) (leBytes 2 c.bytes.length ++ leBytes 2 (2 ^ 15 + c.st % 2 ^ 15))) ∧
      s.sameBut t [R.HIF_DMAk_HEAD 0, R.HIF_DMAk_STATUS 0] ∧ s.sameParts t [.hif] := by
  show Answers (done s (s.ringDone 0 desc)) _
  have e : s.ringDone 0 desc = (s.setReady 0 l).descDone 0 c.bytes.length c.st := by
    rw [State.ringDone, if_neg hp, hr]
    simp only [if_true, if_neg (Nat.not_le.2 hc)]
  rw [e]
  refine Answers.ofChanges (A := (· ∈ [R.HIF_DMAk_HEAD 0, R.HIF_DMAk_STATUS 0])) (ps := [.hif]) h (by simp) fun u L C =>
    ⟨?_, ?_, ?_, C.sameBut, C.parts⟩
  · rw [L.g rfl, descDone_head (by decide)]
    rfl
  · rw [ready_congr L.hif, descDone_ready, State.ready_setReady]
  · exact List.IsPrefix.trans (descDone_emits (s := s.setReady 0 l)) L.out

/-- What the host sees of a buffer that is filled (R62). -/
theorem Answers.ofFilled {w st : Nat} {l : List Content} {o : Out} (k : Fin 3) (h : s.inReset = false) :
    Answers (done s (((s.emit o).setReady k l).descDone k w st)) fun t =>
      t.g (R.HIF_DMAk_HEAD k) F.HIF_DMAk_HEAD_HEAD = (s.g (R.HIF_DMAk_HEAD k) F.HIF_DMAk_HEAD_HEAD + 1) % s.ringSize
        k % 2 ^ 16 ∧
      t.ready k = l ∧ [o, s.doneWord k w st] <+: t.out.drop s.out.length ∧
      s.sameBut t [R.HIF_DMAk_HEAD k, R.HIF_DMAk_STATUS k] ∧ s.sameParts t [.hif] := by
  refine Answers.ofChanges (A := (· ∈ [R.HIF_DMAk_HEAD k, R.HIF_DMAk_STATUS k])) (ps := [.hif]) h (by simp) fun u L C =>
    ⟨?_, ?_, ?_, C.sameBut, C.parts⟩
  · rw [L.g (sharedReg_dmaHead k), descDone_head (sharedReg_head0 k)]
    rfl
  · rw [ready_congr L.hif, descDone_ready, State.ready_setReady]
  · have k := List.IsPrefix.trans (descDone_emits (s := (s.emit o).setReady k l) (k := k) (w := w) (st := st)) L.out
    obtain ⟨r, e⟩ := k
    have e : u.out = s.out ++ ([o, s.doneWord k w st] ++ r) := by
      rw [← e]
      simp [State.setReady, State.emit]
      rfl
    rw [e, List.drop_left]
    exact List.prefix_append ..

/-- R62, R260: content that fits fills a buffer of ring 1. -/
theorem ring1_completes {desc : List Byte} {c : Content} {l : List Content} (h : s.inReset = false) (hp : s.posted 1 ≠ 0)
    (hr : s.ready 1 = c :: l) (hd : descIllegal 1 (descBuf desc) (descLen desc) = false) (hc : c.bytes.length ≤ descLen desc) :
    Answers (exec (.dmaDescriptorDone 1 desc) s) fun t =>
      t.g (R.HIF_DMAk_HEAD 1) F.HIF_DMAk_HEAD_HEAD = (s.g (R.HIF_DMAk_HEAD 1) F.HIF_DMAk_HEAD_HEAD + 1) % s.ringSize
        1 % 2 ^ 16 ∧
      t.ready 1 = l ∧
      [Out.hostMem (descBuf desc) c.bytes, .hostMem (s.descAddr 1 + 12) (leBytes 2 c.bytes.length ++ leBytes 2 (2 ^
        15 + ((if c.st = 0 then 2 ^ 13 else 0) + 2 ^ 12)))] <+: t.out.drop s.out.length ∧
      s.sameBut t [R.HIF_DMAk_HEAD 1, R.HIF_DMAk_STATUS 1] ∧ s.sameParts t [.hif] := by
  show Answers (done s (s.ringDone 1 desc)) _
  have e : s.ringDone 1 desc = ((s.emit (.hostMem (descBuf desc) c.bytes)).setReady 1 l).descDone 1 c.bytes.length
      ((if c.st = 0 then 2 ^ 13 else 0) + 2 ^ 12) := by
    rw [State.ringDone, if_neg hp, hr]
    simp [hd, State.fillBuffer, List.take_of_length_le hc, List.drop_of_length_le hc]
  have hw : s.doneWord 1 c.bytes.length ((if c.st = 0 then 2 ^ 13 else 0) + 2 ^ 12) = .hostMem (s.descAddr 1 + 12)
      (leBytes 2 c.bytes.length ++ leBytes 2 (2 ^ 15 + ((if c.st = 0 then 2 ^ 13 else 0) + 2 ^ 12))) := by
    unfold State.doneWord
    rw [Nat.mod_eq_of_lt (by split <;> omega)]
  rw [e, ← hw]
  exact Answers.ofFilled 1 h

/-- R62, R334: content of the journal fills a buffer of ring 2. -/
theorem ring2_completes {desc : List Byte} {c : Content} {l : List Content} (h : s.inReset = false) (hp : s.posted 2 ≠ 0)
    (hr : s.ready 2 = c :: l) : Answers (exec (.dmaDescriptorDone 2 desc) s) fun t =>
      t.g (R.HIF_DMAk_HEAD 2) F.HIF_DMAk_HEAD_HEAD = (s.g (R.HIF_DMAk_HEAD 2) F.HIF_DMAk_HEAD_HEAD + 1) % s.ringSize
        2 % 2 ^ 16 ∧
      t.ready 2 = l ∧
      [Out.hostMem (descBuf c.desc) (c.bytes.take (descLen c.desc)), .hostMem (s.descAddr 2 + 12) (leBytes 2
        (c.bytes.take (descLen c.desc)).length ++ leBytes 2 (2 ^ 15 + c.st % 2 ^ 15))] <+: t.out.drop s.out.length ∧
      s.sameBut t [R.HIF_DMAk_HEAD 2, R.HIF_DMAk_STATUS 2] ∧ s.sameParts t [.hif] := by
  show Answers (done s (s.ringDone 2 desc)) _
  have e : s.ringDone 2 desc = ((s.emit (.hostMem (descBuf c.desc) (c.bytes.take (descLen c.desc)))).setReady 2 l).descDone 2
      (c.bytes.take (descLen c.desc)).length c.st := by
    rw [State.ringDone, if_neg hp, hr]
    simp [State.fillBuffer]
  rw [e]
  exact Answers.ofFilled 2 h

/-- Settles O30: each clause by its rule. -/
theorem ringCommands : Obligations.RingCommands :=
  ⟨fun _ _ _ _ => fqPop_removes, fun _ k _ => dmaRingEnable_starts k, fun _ k _ => dmaTailWrite_moves k,
    fun _ k => dmaPcieError_stops k, fun _ k => holdoff_sends k, fun _ _ _ _ => ring0_completes, fun _ _ _ _ => ring1_completes,
    fun _ _ _ _ => ring2_completes⟩

end Sys2Proof.Machine
end

section

/-! ## A loss that is reported in the clock of an edge of SPOOR_TRIG (R330, R331)

The first loss after a LOSS record is a fault, and the fault can itself be a trigger, of source 1. -/

namespace Sys2Proof.Machine

/-- An armed journal with both triggers enabled, which has a record to enter and a loss to report. -/
def lossOnEdge : State :=
  ((({ Tests.live with spr := { Tests.live.spr with
      formed := [(0, true, ⟨7#64, false, false, false, false, false, 0, 1, 0, 0, 0, 1, 2, 3, 4⟩)], lossNew := some (1, 0) } }.p
    R.SPR_STATUS F.SPR_STATUS_STATE sprArmed).p R.SPR_TRIG_EN F.SPR_TRIG_EN_PIN 1).p R.SPR_TRIG_EN F.SPR_TRIG_EN_FAULT 1).p
    R.SPR_TRIG_FAULT_MASK F.SPR_TRIG_FAULT_MASK_MASK (2 ^ 12)

/-- The fault of the loss is the trigger that the journal takes. -/
theorem source_lossOnEdge :
    (endClock lossOnEdge (lossOnEdge.pinTrig false 20)).g R.SPR_TRIG_STATUS F.SPR_TRIG_STATUS_SOURCE ≠ 3 := by
  decide +kernel

/-- Refutes O50: an edge of SPOOR_TRIG in a clock that reports a loss leaves source 1, since of several triggers the lowest
code forms the record (R331). -/
theorem not_journalStates : ¬ Obligations.JournalStates := by
  intro h
  obtain ⟨-, -, -, h, -⟩ := h
  obtain ⟨t, e, -, -, hv, -⟩ := h lossOnEdge false 20 (by decide +kernel) (by decide +kernel) rfl (by decide +kernel)
    (by decide +kernel) (le_refl _)
  have k : exec (.spoorTrigEdge false 20) lossOnEdge = .next (endClock lossOnEdge (lossOnEdge.pinTrig false 20)) := done_next rfl
  rw [k] at e
  injection e with e
  exact source_lossOnEdge ((congrArg (fun s : State => s.g R.SPR_TRIG_STATUS F.SPR_TRIG_STATUS_SOURCE) e).trans hv)

end Sys2Proof.Machine
end

section

/-! ## A LOSS record that is itself lost (R330)

The LOSS record stands last among the records of its clock. Where the others fill the FIFO, it is lost, and a loss stays
to be reported. -/

set_option Elab.async false

namespace Sys2Proof.Machine

variable {s t : State} {a b n : Nat} {r : Rec} {w : Bool} {l : List (Nat × Bool × Rec)}

/-! ### Losses counted since the last report are kept -/

section
variable {f : Fld}

theorem spr_setReg {v : Word} : (s.setReg a v).spr = s.spr := rfl
@[simp] theorem spr_p : (s.p a f n).spr = s.spr := rfl
@[simp] theorem spr_raw : (s.raw a f).spr = s.spr := rfl
@[simp] theorem spr_inc : (s.inc a f).spr = s.spr := rfl
@[simp] theorem spr_setPair : (s.setPair a n).spr = s.spr := rfl
@[simp] theorem spr_orReg : (s.orReg a n).spr = s.spr := rfl
@[simp] theorem spr_ite {p : Prop} [Decidable p] : State.spr (if p then s else t) = if p then s.spr else t.spr := apply_ite ..

end

theorem lostMand_loseRec : (s.loseRec w r).spr.lostMand = s.spr.lostMand + b2n w := by
  unfold State.loseRec
  dsimp only
  split <;> cases w <;> rfl

/-- A record takes a sequence number (R320). -/
def State.seqTaken (s : State) : State := { s with spr := { s.spr with seq := (s.spr.seq + 1) % 2 ^ 16 } }

/-- The FIFO has no room for a record (R330). -/
def State.fifoFull (s : State) (always : Bool) : Bool :=
  if always then decide (4096 ≤ s.spr.fifo.length) else decide (3584 ≤ s.spr.fifo.length)

theorem enterRec_eq : s.enterRec w r =
    if s.sprState = sprFrozen then s.seqTaken.inc R.SPR_CNT_FROZEN F.SPR_CNT_FROZEN_COUNT
    else if s.fifoFull w then s.seqTaken.loseRec w { r with seq := s.spr.seq }
    else s.seqTaken.setFifo (s.spr.fifo ++ [{ r with seq := s.spr.seq }]) := by
  unfold State.enterRec State.fifoFull State.seqTaken
  rfl

theorem lostMand_enterRec : s.spr.lostMand ≤ (s.enterRec w r).spr.lostMand := by
  rw [enterRec_eq]
  split
  · exact le_refl _
  · split
    · rw [lostMand_loseRec]
      exact Nat.le_add_right ..
    · exact le_refl _

theorem lostMand_foldl_enterRec : s.spr.lostMand ≤ (l.foldl (fun s p => s.enterRec p.2.1 p.2.2) s).spr.lostMand := by
  induction l generalizing s with
  | nil => exact le_refl _
  | cons p l ih => exact Nat.le_trans lostMand_enterRec ih

/-- The records formed in a clock are taken to enter the FIFO (R322). -/
def State.formedTaken (s : State) : State := { s with spr := { s.spr with formed := [] } }

theorem enterFormed_eq : s.enterFormed = ((List.range 19).flatMap (fun k => s.spr.formed.filter (fun p => p.1 == k))).foldl
    (fun s p => s.enterRec p.2.1 p.2.2) s.formedTaken := by
  unfold State.enterFormed State.formedTaken
  rfl

theorem lostMand_enterFormed : s.spr.lostMand ≤ s.enterFormed.spr.lostMand := by
  rw [enterFormed_eq]
  exact Nat.le_trans (Nat.le_of_eq (rfl : _ = s.formedTaken.spr.lostMand)) lostMand_foldl_enterRec

theorem lostMand_pushRec {k : Nat} : (s.pushRec k w r).spr.lostMand = s.spr.lostMand := by
  unfold State.pushRec
  split <;> rfl

theorem lostMand_fire {c d : Nat} : (s.fire c d).spr.lostMand = s.spr.lostMand := rfl

theorem spr_pushFault {f : FaultRec} : (s.pushFault f).spr = s.spr := by
  unfold State.pushFault
  split
  · rw [spr_p]
  · rw [spr_raw, spr_inc]

theorem lostMand_faultCore {k c d p : Nat} : (s.faultCore k c d p).spr.lostMand = s.spr.lostMand := by
  unfold State.faultCore
  extract_lets full fires x q y
  have hy : y.spr.lostMand = s.spr.lostMand := lostMand_pushRec.trans (congrArg Spr.lostMand spr_pushFault)
  split
  · rw [lostMand_fire, hy]
  · exact hy

theorem lostMand_lossCheck : s.lossCheck.spr.lostMand = s.spr.lostMand := by
  unfold State.lossCheck
  split
  · rfl
  · exact lostMand_faultCore

theorem lostMand_flush : s.spr.lostMand ≤ s.flush.spr.lostMand := by
  unfold State.flush
  split
  · exact le_refl _
  · exact Nat.le_trans lostMand_enterFormed (lostMand_lossCheck ▸ lostMand_enterFormed)

theorem lostMand_takeTrigger : s.spr.lostMand ≤ s.takeTrigger.spr.lostMand := by
  have h (x : State) (k c d p q e : Nat) : x.spr.lostMand ≤ (x.note k c d p q e).flush.spr.lostMand :=
    Nat.le_trans (Nat.le_of_eq lostMand_pushRec.symm) lostMand_flush
  unfold State.takeTrigger
  split
  · exact le_refl _
  · next src d _ =>
    have hx : s.spr.lostMand = (State.spr { s with spr := { s.spr with latch := none } }).lostMand := rfl
    rw [hx]
    generalize ({ s with spr := { s.spr with latch := none } } : State) = x
    simp only [spr_ite, spr_raw, spr_p, spr_setPair, spr_inc]
    generalize x.g R.SPR_POST F.SPR_POST_POST = post
    generalize x.pair R.SPR_WR_COUNT_LO + x.spr.fifo.length = i
    split
    · exact h x 0x38 src d post 0 0
    · split
      · exact h x 0x38 (src + 16) d post 0 0
      · split <;> exact le_refl _

theorem spr_signalRises : (s.signalRises n).spr = s.spr := by
  have h (x : State) (k : Nat) : (x.signal k).spr = x.spr := by
    unfold State.signal
    split
    · rfl
    · split <;> rfl
  have hf (l : List Nat) (x : State) : (l.foldl State.signal x).spr = x.spr := by
    induction l generalizing x with
    | nil => rfl
    | cons k l ih => exact (ih _).trans (h x k)
  unfold State.signalRises
  dsimp only
  split
  · rfl
  · exact hf ..

theorem spr_applyConds : s.applyConds.spr = s.spr := by
  have h (x : State) (p : Nat × Word) : (x.applyCond p).spr = x.spr := by
    unfold State.applyCond
    split <;> rfl
  unfold State.applyConds
  generalize s.conds = l
  induction l generalizing s with
  | nil => rfl
  | cons p l ih => exact ih.trans (h s p)

theorem lostMand_endClock : t.flush.spr.lostMand ≤ (endClock s t).spr.lostMand := by
  unfold endClock
  rw [spr_signalRises, spr_applyConds]
  unfold State.clockRecs
  exact Nat.le_trans lostMand_takeTrigger lostMand_flush

/-! ### The records of the clock fill the FIFO -/

/-- While the FIFO has room, records marked "always" enter it, and the journal's state stays. -/
theorem foldl_enterRec_fifo (hl : ∀ p ∈ l, p.2.1 = true) (hf : s.sprState ≠ sprFrozen) (hn : s.spr.fifo.length + l.length ≤ 4096) :
    (l.foldl (fun s p => s.enterRec p.2.1 p.2.2) s).spr.fifo.length = s.spr.fifo.length + l.length ∧
      (l.foldl (fun s p => s.enterRec p.2.1 p.2.2) s).sprState ≠ sprFrozen := by
  induction l generalizing s with
  | nil => exact ⟨rfl, hf⟩
  | cons p l ih =>
    have hw := hl p (List.mem_cons_self ..)
    rw [List.length_cons] at hn ⊢
    have hr : s.fifoFull p.2.1 = false := by
      unfold State.fifoFull
      rw [hw, if_pos rfl]
      simp
      omega
    have e : s.enterRec p.2.1 p.2.2 = s.seqTaken.setFifo (s.spr.fifo ++ [{ p.2.2 with seq := s.spr.seq }]) := by
      rw [enterRec_eq, if_neg hf, hr, if_neg (by decide)]
    have hlen : (s.enterRec p.2.1 p.2.2).spr.fifo.length = s.spr.fifo.length + 1 := by
      rw [e]
      exact List.length_append ..
    have hst : (s.enterRec p.2.1 p.2.2).sprState = s.sprState := by
      rw [e]
      unfold State.sprState State.setFifo State.g
      rw [State.reg_p, if_pos rfl]
      exact Fld.get_put_ne (by decide) (by decide) ..
    obtain ⟨h1, h2⟩ := ih (fun q hq => hl q (List.mem_cons_of_mem _ hq)) (hst ▸ hf) (by omega)
    rw [List.foldl_cons, h1, hlen]
    exact ⟨by omega, h2⟩

/-- A record for which the FIFO has no room is lost. -/
theorem lostMand_enterRec_full (hf : s.sprState ≠ sprFrozen) (hn : 4096 ≤ s.spr.fifo.length) :
    (s.enterRec true r).spr.lostMand = s.spr.lostMand + 1 := by
  have hr : s.fifoFull true = true := by simpa [State.fifoFull] using hn
  rw [enterRec_eq, if_neg hf, if_pos hr, lostMand_loseRec]
  rfl

/-! ### The refutation -/

/-- A record that stands before those it reports on. -/
def fillingRec : Nat × Bool × Rec := (0, true, ⟨7#64, false, false, false, false, false, 0, 1, 0, 0, 0, 1, 2, 3, 4⟩)

/-- Records of the first source and one of the last, as formed and as they enter. -/
theorem order_filling (x : Bool × Rec) :
    (List.range 19).flatMap (fun k => (List.replicate n fillingRec ++ [(18, x)]).filter (fun p => p.1 == k)) =
      List.replicate n fillingRec ++ [(18, x)] := by
  have h : List.range 19 = 0 :: (List.range 17).map (· + 1) ++ [18] := by decide
  have hz : ((List.range 17).map (· + 1)).flatMap (fun k : Nat => (List.replicate n fillingRec ++ [(18, x)]).filter (fun p : Nat × Bool × Rec => p.1 == k)) =
      [] := by
    refine List.flatMap_eq_nil_iff.2 fun k hk => ?_
    obtain ⟨j, hj, rfl⟩ := List.mem_map.1 hk
    have := List.mem_range.1 hj
    have h18 : 18 ≠ j + 1 := by omega
    simp [fillingRec, h18]
  rw [h, List.flatMap_append, List.flatMap_cons, hz]
  simp [List.filter_replicate, fillingRec]

/-- Where the other records of the clock fill the FIFO, its last record is lost. -/
theorem lostMand_flush_filled (hl : s.spr.formed = List.replicate n fillingRec ++ [(18, true, r)])
    (hf : s.sprState ≠ sprFrozen) (hn : s.spr.fifo.length + n = 4096) : 1 ≤ s.flush.spr.lostMand := by
  have hk : 1 ≤ s.enterFormed.spr.lostMand := by
    rw [enterFormed_eq, hl, order_filling, List.foldl_append]
    obtain ⟨h1, h2⟩ := foldl_enterRec_fifo (s := s.formedTaken) (l := List.replicate n fillingRec)
      (fun p hp => (List.eq_of_mem_replicate hp).symm ▸ rfl) hf (by rw [List.length_replicate]; exact Nat.le_of_eq hn)
    rw [List.length_replicate] at h1
    have h3 := Nat.le_of_eq (hn.symm.trans h1.symm)
    generalize (List.replicate n fillingRec).foldl (fun s p => s.enterRec p.2.1 p.2.2) s.formedTaken = x at h2 h3
    exact (lostMand_enterRec_full h2 h3) ▸ Nat.le_add_left ..
  unfold State.flush
  rw [if_neg (by rw [hl]; exact List.append_ne_nil_of_right_ne_nil _ (List.cons_ne_nil _ _))]
  exact Nat.le_trans hk (lostMand_lossCheck ▸ lostMand_enterFormed)

/-! ### The refutation -/

/-- A journal that is to report losses, in a clock with `n` other records. -/
def lossInClockOf (n : Nat) : State :=
  (((({ Tests.live with spr := { Tests.live.spr with formed := List.replicate n fillingRec } }).p R.SPR_CTRL F.SPR_CTRL_EN 1).p
    R.SPR_STATUS F.SPR_STATUS_STATE sprArmed).p R.SPR_STATUS F.SPR_STATUS_LOSSING 1)

theorem regs_lossInClockOf : (lossInClockOf n).regs = (lossInClockOf 0).regs := rfl

theorem on_lossInClockOf : (lossInClockOf n).on R.SPR_STATUS F.SPR_STATUS_LOSSING = true ∧
    (lossInClockOf n).on R.SPR_CTRL F.SPR_CTRL_EN = true ∧ (lossInClockOf n).sprState ≠ sprFrozen := by
  have h : (lossInClockOf 0).on R.SPR_STATUS F.SPR_STATUS_LOSSING = true ∧
    (lossInClockOf 0).on R.SPR_CTRL F.SPR_CTRL_EN = true ∧ (lossInClockOf 0).sprState ≠ sprFrozen := by decide +kernel
  exact h

theorem pushRec_eq {k : Nat} (he : s.on R.SPR_CTRL F.SPR_CTRL_EN = true) :
    s.pushRec k w r = { s with spr := { s.spr with formed := s.spr.formed ++ [(k, w, r)] } } := if_pos he

/-- Losses are taken as reported. -/
def State.lossTaken (s : State) : State := { s with spr := { s.spr with lostSel := 0, lostMand := 0, lostFirst := none } }

/-- The LOSS record is formed, and the losses are taken as reported. -/
theorem lossRecord_eq (h : s.on R.SPR_STATUS F.SPR_STATUS_LOSSING = true) (hn : s.spr.fifo.length ≤ 2048)
    (he : s.on R.SPR_CTRL F.SPR_CTRL_EN = true) (hf : s.sprState ≠ sprFrozen) :
    ∃ r, s.lossRecord = (s.pushRec 18 true r).lossTaken.p R.SPR_STATUS F.SPR_STATUS_LOSSING 0 := by
  have hf' : (s.sprState != sprFrozen) = true := by simpa using hf
  unfold State.lossRecord
  rw [h, he, decide_eq_true hn, hf', if_pos (by decide)]
  cases s.spr.lostFirst with
  | none => exact ⟨_, rfl⟩
  | some q => exact ⟨_, rfl⟩

/-- Refutes O51: a LOSS record stands last among the records of its clock (R322), and 4,096 others fill the FIFO before it;
then it is a loss itself. -/
theorem not_journalWritesAndReadout : ¬ Obligations.JournalWritesAndReadout := by
  intro h
  obtain ⟨-, h, -⟩ := h
  generalize hn : 4096 = n at *
  obtain ⟨h1, h2, h3⟩ := on_lossInClockOf (n := n)
  obtain ⟨r, hr⟩ := lossRecord_eq h1 (Nat.zero_le _) h2 h3
  obtain ⟨t, e, -, -, hv, -⟩ := h (lossInClockOf n) rfl h1 (Nat.zero_le _) h2 h3
  have k : exec .lossRecord (lossInClockOf n) = .next (endClock (lossInClockOf n) (lossInClockOf n).lossRecord) := done_next rfl
  rw [k] at e
  injection e with e
  have hs : (lossInClockOf n).lossRecord.sprState ≠ sprFrozen := by
    rw [hr, pushRec_eq h2]
    unfold State.sprState State.g
    rw [State.reg_p, if_pos rfl]
    exact (Fld.get_put_ne (by decide) (by decide) ..).trans_ne h3
  have hl : (lossInClockOf n).lossRecord.spr.formed = List.replicate n fillingRec ++ [(18, true, r)] := by
    rw [hr, pushRec_eq h2]
    rfl
  have hf : (lossInClockOf n).lossRecord.spr.fifo = [] := by
    rw [hr, pushRec_eq h2]
    rfl
  have hm := Nat.le_trans (lostMand_flush_filled hl hs (by rw [hf, hn]; exact Nat.zero_add n)) (lostMand_endClock (s := lossInClockOf n))
  rw [e, hv] at hm
  exact absurd hm (by decide)

end Sys2Proof.Machine
end

section

/-! ## A boot-pack write that closes a claim gate (R314)

A write of a port's Herd configuration settles its calendar at once. -/

namespace Sys2Proof.Machine

/-- A paired unit of the lower claim in APPLY whose next write closes the claim gate of port 0, on which a copy waits. -/
def gateClosing : State :=
  ({ Tests.live with
      boot := { Tests.live.boot with todo := [.write (R.HRD_PORTn_CFG 0) 2#32] }
      fwd := { Tests.live.fwd with cals := [(0, [⟨0, 0, 0#64, 0, 0, 0⟩])] } }.p R.BOOT_STATUS F.BOOT_STATUS_STATE bootApply).p
    R.RUT_CTRL F.RUT_CTRL_PAIR_EN 1 |>.p R.RUT_STATUS F.RUT_STATUS_HIGHER 0

/-- The copy leaves the calendar. -/
theorem cals_gateClosing : (endClock gateClosing (gateClosing.packWrite none)).fwd.cals ≠ gateClosing.fwd.cals := by
  decide +kernel

/-- Refutes O15: the boot-pack write of a Herd port's configuration removes what waits on a port whose claim gate it closes. -/
theorem not_bootPackAndFlash : ¬ Obligations.BootPackAndFlash := by
  intro h
  obtain ⟨h, -⟩ := h
  obtain ⟨t, e, -, -, -, -, hp⟩ := h gateClosing (R.HRD_PORTn_CFG 0) 2#32 [] rfl (by decide +kernel) rfl rfl (by decide +kernel)
    (by decide +kernel) (by decide +kernel) (by decide) (by decide) (by decide)
  have k : exec (.bootPackWrite none) gateClosing = .next (endClock gateClosing (gateClosing.packWrite none)) := done_next rfl
  rw [k] at e
  injection e with e
  have hf : t.fwd = gateClosing.fwd := hp .fwd (by decide)
  exact cals_gateClosing (congrArg Fwd.cals ((congrArg State.fwd e).trans hf))

end Sys2Proof.Machine
end

section

/-! ## A commit that ends a condition (R244, R401)

Every commit brings MIRROR_OVER up to date, in `RUT_STATUS` and among the conditions. -/

namespace Sys2Proof.Machine

/-- A device on which MIRROR_OVER still holds as a condition, though its bit of `RUT_STATUS` is clear. -/
def staleMirrorOver : State :=
  { Tests.live with conds := [(R.RUT_RAW, F.RUT_RAW_MIRROR_OVER.put 0#32 1)] }

/-- A commit of a forwarding entry ends the condition. -/
theorem conds_staleMirrorOver :
    (endClock staleMirrorOver (staleMirrorOver.hostWrite 0x80001C 0#32)).conds ≠ staleMirrorOver.conds := by
  decide +kernel

/-- Refutes O18: the commit of a forwarding entry leaves `RUT_STATUS` as it is and ends the condition MIRROR_OVER. -/
theorem not_forwardingTable : ¬ Obligations.ForwardingTable := by
  intro h
  obtain ⟨-, -, -, -, -, -, -, -, h, -⟩ := h
  obtain ⟨t, e, -, -, -, -, -, -, hp⟩ := h staleMirrorOver 0x80001C 0#32 (by decide +kernel) (by decide) (by decide)
    (by decide) (by decide) rfl (by decide) (by decide +kernel)
  have k : exec (.tableCommit 0x80001C 0#32) staleMirrorOver =
      .next (endClock staleMirrorOver (staleMirrorOver.hostWrite 0x80001C 0#32)) := done_next rfl
  rw [k] at e
  injection e with e
  have hf : t.conds = staleMirrorOver.conds := hp .conds (by decide)
  exact conds_staleMirrorOver ((congrArg State.conds e).trans hf)

end Sys2Proof.Machine
end

section

/-! ## A lost chain of 2^32 copies (R275, R292)

A fault record has 32 bits for its parameter (R59). -/

set_option Elab.async false

namespace Sys2Proof.Machine

variable {s t : State} {a k n q : Nat} {f : Fld} {w : Word}

/-! ### What leaves the host interface as it is -/

theorem hif_ite {p : Prop} [Decidable p] : State.hif (if p then s else t) = if p then s.hif else t.hif := apply_ite ..

theorem hif_fold {α : Type} {g : State → α → State} {l : List α} (h : ∀ s x, (g s x).hif = s.hif) : (l.foldl g s).hif = s.hif := by
  induction l generalizing s with
  | nil => rfl
  | cons x r ih => exact ih.trans (h s x)

theorem setFwd_hif {x : Fwd} : (s.setFwd x).hif = s.hif := rfl
theorem setFrame_hif {x : Frame} : (s.setFrame x).hif = s.hif := rfl
theorem setQueue_hif {l : List QCopy} : (s.setQueue q l).hif = s.hif := rfl
theorem cellsAdd_hif {d : Int} : (s.cellsAdd a d).hif = s.hif := State.setRegN_hif
theorem usageAdd_hif {d : Int} : (s.usageAdd n k d).hif = s.hif := State.setRegN_hif

theorem pmcAdd_hif : (s.pmcAdd k n q).hif = s.hif := by
  unfold State.pmcAdd
  extract_lets v x y
  have hx : x.hif = s.hif := State.setPair_hif
  have hy : y.hif = s.hif := State.orReg_hif.trans hx
  split
  · exact hx
  · split
    · exact State.raw_hif.trans hy
    · exact hy

theorem pmc_hif : (s.pmc k n q).hif = s.hif := by
  unfold State.pmc
  split
  · refine hif_fold fun t p => ?_
    split
    · exact pmcAdd_hif
    · rfl
  · rfl

theorem uncount_hif {c : QCopy} : (s.uncount c).hif = s.hif := by
  unfold State.uncount
  split
  · rfl
  · split
    · rw [cellsAdd_hif, cellsAdd_hif]
    · rw [cellsAdd_hif]

theorem agedRec_hif {c : QCopy} {m : Bool} : (s.agedRec c m).hif = s.hif := by
  unfold State.agedRec
  split
  · rfl
  · split
    · rfl
    · split
      · exact State.record_hif
      · rfl

theorem ageOut_hif {c : QCopy} {m : Bool} : (s.ageOut c m).hif = s.hif := by
  unfold State.ageOut
  extract_lets x y z u
  have hz : z.hif = s.hif := by rw [State.raw_hif, State.inc_hif, uncount_hif, agedRec_hif]
  have hu : u.hif = s.hif := by
    show State.hif (if _ then _ else z) = _
    rw [hif_ite, State.raw_hif, hz, ite_self]
  rw [pmc_hif, hu]

theorem enqueue_hif {x : Frame} {l : Looked} : (s.enqueue x l n).hif = s.hif := by
  unfold State.enqueue
  extract_lets c y z
  have hy : y.hif = s.hif := by
    show State.hif (if _ then _ else s) = _
    rw [hif_ite, pmc_hif, ite_self]
  rw [pmc_hif, cellsAdd_hif]
  exact setQueue_hif.trans hy

theorem handOver_hif {x : Frame} {l : Looked} {c : Account} : (s.handOver x l c).hif = s.hif := by
  unfold State.handOver
  extract_lets herd later y z
  rw [hif_fold fun t p => enqueue_hif]
  exact pmc_hif.trans setFrame_hif

theorem unstall_hif {l : List Nat} : (s.unstall k l).hif = s.hif := by
  induction l generalizing s with
  | nil => rfl
  | cons i r ih =>
    unfold State.unstall
    split
    · exact ih
    · split
      · exact ih
      · split
        · exact ih.trans handOver_hif
        · rfl

theorem reapFrame_hif {x : Frame} : (s.reapFrame x).hif = s.hif := by
  unfold State.reapFrame
  split
  · rfl
  · extract_lets l
    split
    · exact usageAdd_hif.trans rfl
    · split <;> rfl

theorem portXoff_hif : (s.portXoff n).hif = s.hif := by
  unfold State.portXoff
  extract_lets en m x all
  exact State.p_hif.trans rfl

theorem xoff_hif : s.xoff.hif = s.hif := by
  unfold State.xoff
  extract_lets free sum was now x y v z
  have hy : y.hif = s.hif := by
    show State.hif (if _ then _ else x) = _
    rw [hif_ite, State.raw_hif, ite_self]
    exact State.pb_hif
  have hz : z.hif = s.hif := by
    show State.hif (if _ then _ else y) = _
    rw [hif_ite, setFwd_hif, ite_self, hy]
  exact (hif_fold fun t p => portXoff_hif).trans hz

theorem settle_hif : s.settle.hif = s.hif := by
  unfold State.settle
  rw [xoff_hif]
  unfold State.unstallAll
  have hr : (s.fwd.frames.foldl State.reapFrame s).hif = s.hif := hif_fold fun t x => reapFrame_hif
  split
  · refine (hif_fold fun t x => ?_).trans hr
    split
    · rfl
    · exact unstall_hif
  · exact hr

theorem spillFull_hif {b : Bool} : (s.spillFull b).hif = s.hif := by
  have h : (s.spillFull b).hif = (s.pb R.QUE_STATUS F.QUE_STATUS_SPILL_FULL b).hif := rfl
  exact h.trans State.pb_hif

theorem spillShow_hif : s.spillShow.hif = s.hif := by
  unfold State.spillShow
  rw [hif_ite, spillFull_hif, ite_self]

/-! ### The parameters of fault records -/

/-- Every fault record that waits has a parameter of 32 bits. -/
def ParamsFit (s : State) : Prop := ∀ f ∈ s.hif.fq, f.param < 2 ^ 32

theorem ParamsFit.congr (h : ParamsFit s) (e : t.hif = s.hif) : ParamsFit t := by
  unfold ParamsFit
  rwa [e]

theorem ParamsFit.pushFault {x : FaultRec} (h : ParamsFit s) (hx : x.param < 2 ^ 32) : ParamsFit (s.pushFault x) := by
  unfold State.pushFault
  split
  · intro y hy
    rw [State.p_hif] at hy
    rcases List.mem_append.1 hy with hy | hy
    · exact h y hy
    · rwa [List.mem_singleton.1 hy]
  · exact h.congr (State.raw_hif.trans State.inc_hif)

theorem ParamsFit.fault {b c d p : Nat} (h : ParamsFit s) : ParamsFit (s.fault b c d p) := by
  unfold State.fault State.faultCore
  extract_lets full fires x r y
  have hy : ParamsFit y := (h.pushFault (Nat.mod_lt _ (by decide))).congr State.pushRec_hif
  split
  · exact hy.congr State.fire_hif
  · exact hy

theorem loseRec_hif {b : Bool} {r : Rec} : (s.loseRec b r).hif = s.hif := by
  unfold State.loseRec
  extract_lets first x v y
  have hx : x.hif = s.hif := by
    show State.hif (if _ then _ else _) = _
    rw [hif_ite, State.inc_hif, State.inc_hif, ite_self]
  have hy : y.hif = s.hif := Eq.trans rfl hx
  rw [hif_ite, State.p_hif, State.raw_hif, hy, ite_self]

theorem enterRec_hif {b : Bool} {r : Rec} : (s.enterRec b r).hif = s.hif := by
  rw [enterRec_eq]
  split
  · exact State.inc_hif.trans rfl
  · split
    · exact loseRec_hif.trans rfl
    · exact State.p_hif.trans rfl

theorem enterFormed_hif : s.enterFormed.hif = s.hif := by
  rw [enterFormed_eq]
  exact (hif_fold fun t p => enterRec_hif).trans rfl

theorem ParamsFit.lossCheck (h : ParamsFit s) : ParamsFit s.lossCheck := by
  unfold State.lossCheck
  split
  · exact h
  · exact ParamsFit.fault (h.congr rfl)

theorem ParamsFit.flush (h : ParamsFit s) : ParamsFit s.flush := by
  unfold State.flush
  split
  · exact h
  · exact (h.congr enterFormed_hif).lossCheck.congr enterFormed_hif

theorem ParamsFit.takeTrigger (h : ParamsFit s) : ParamsFit s.takeTrigger := by
  unfold State.takeTrigger
  split
  · exact h
  · next src d _ =>
    have hx : ParamsFit { s with spr := { s.spr with latch := none } } := h.congr rfl
    generalize ({ s with spr := { s.spr with latch := none } } : State) = x at hx
    have hn (c p : Nat) : ParamsFit (x.note 0x38 c d p 0 0).flush := (hx.congr State.note_hif).flush
    unfold ParamsFit at hx hn ⊢
    simp only [hif_ite, State.raw_hif, State.p_hif, State.setPair_hif, State.inc_hif]
    generalize x.g R.SPR_POST F.SPR_POST_POST = post
    split
    · exact hn src post
    · split
      · exact hn (src + 16) post
      · split <;> exact hx

theorem applyConds_hif : s.applyConds.hif = s.hif := by
  unfold State.applyConds
  refine hif_fold fun t p => ?_
  unfold State.applyCond
  split <;> rfl

theorem signal_hif : (s.signal n).hif = s.hif := by
  unfold State.signal
  split
  · rfl
  · split <;> rfl

theorem signalRises_hif : (s.signalRises n).hif = s.hif := by
  unfold State.signalRises
  extract_lets x
  split
  · rfl
  · exact hif_fold fun t k => signal_hif

theorem ParamsFit.endClock (h : ParamsFit t) : ParamsFit (endClock s t) := by
  unfold Machine.endClock State.clockRecs
  exact (h.flush.takeTrigger.flush).congr (signalRises_hif.trans applyConds_hif)

/-! ### The refutation -/

/-- A copy in DRAM. -/
def dramCopy : QCopy := ⟨5, 3, 2, 0, false, true, 0⟩

/-- A device with `n + 1` copies of queue 26 in DRAM. -/
def chainOf (n : Nat) : State :=
  (({ Tests.live with fwd := { Tests.live.fwd with queues := [(26, List.replicate (n + 1) dramCopy)] } }).p R.QUE_STATUS
    F.QUE_STATUS_DRAM_READY 1).p R.QUE_SPILL_CFG F.QUE_SPILL_CFG_HEAD_KEEP 8

/-- Reading a lost chain gives a fault record with a parameter of 32 bits. -/
theorem paramsFit_spillRead (h : ParamsFit s) : ParamsFit (s.spillRead q .lost) := by
  unfold State.spillRead
  extract_lets l head cells
  split
  · exact h
  · split
    · exact h
    · extract_lets gone x
      have hx : ParamsFit x := h.congr (hif_fold fun t c => ageOut_hif)
      exact (ParamsFit.fault (hx.congr setQueue_hif)).congr (spillShow_hif.trans settle_hif)

/-- What is asked of a device whose chain of queue 26 is lost holds of `chainOf n`, but for the queue itself. -/
theorem ready_chainOf : (chainOf n).inReset = false ∧ (chainOf n).isSet R.QUE_STATUS F.QUE_STATUS_DRAM_READY ∧
    (chainOf n).dramWaits = false ∧ (chainOf n).runs .core = true ∧
    0 < (chainOf n).g R.QUE_SPILL_CFG F.QUE_SPILL_CFG_HEAD_KEEP / 2 ∧ (chainOf n).hif.fq = [] := by
  have e : (chainOf n).regs = (chainOf 0).regs := rfl
  have h : (chainOf 0).inReset = false ∧ (chainOf 0).isSet R.QUE_STATUS F.QUE_STATUS_DRAM_READY ∧
      (chainOf 0).dramWaits = false ∧ (chainOf 0).runs .core = true ∧
      0 < (chainOf 0).g R.QUE_SPILL_CFG F.QUE_SPILL_CFG_HEAD_KEEP / 2 ∧ (chainOf 0).hif.fq = [] := by decide +kernel
  exact h

theorem fwdOk_chainOf : (chainOf n).fwdOk := by
  have h : (chainOf 0).fwdOk := by decide +kernel
  obtain ⟨hi, hf, -, hc, hp, hs⟩ := h
  refine ⟨hi, hf, ?_, hc, hp, hs⟩
  intro p hp c hc
  obtain rfl := List.mem_singleton.1 hp
  obtain rfl := List.eq_of_mem_replicate hc
  exact ⟨by decide, by decide, rfl⟩

theorem queue_chainOf : (chainOf n).queue 26 = [] ++ dramCopy :: List.replicate n dramCopy := rfl

/-- Refutes O21: a chain of 2^32 copies is lost, which the 32-bit parameter of its fault record cannot say. -/
theorem not_spillAndDram : ¬ Obligations.SpillAndDram := by
  intro h
  obtain ⟨-, -, -, -, -, -, h, -⟩ := h
  obtain ⟨n, hn⟩ : ∃ n, 1 + n = 2 ^ 32 := ⟨2 ^ 32 - 1, by omega⟩
  obtain ⟨hr, hd, hw, hc, hk, hq⟩ := ready_chainOf (n := n)
  obtain ⟨t, e, -, -, -, -, hf, -⟩ := h (chainOf n) 26 dramCopy [] (List.replicate n dramCopy) hr fwdOk_chainOf hd hw
    hc queue_chainOf (by simp) rfl hk
  have k : exec (.spillReadback 26 .lost) (chainOf n) = .next (endClock (chainOf n) ((chainOf n).spillRead 26 .lost)) :=
    done_next rfl
  rw [k] at e
  injection e with e
  have hs : ParamsFit (chainOf n) := by simp [ParamsFit, hq]
  obtain ⟨r, hm, -, -, -, hp⟩ := hf (by rw [hq]; decide)
  have hl : r.param < 2 ^ 32 := (paramsFit_spillRead hs).endClock r (by rwa [e])
  rw [List.filter_eq_self.2 fun x hx => by rw [List.eq_of_mem_replicate hx]; rfl, List.length_replicate, hn] at hp
  exact absurd hp (Nat.ne_of_lt hl)

end Sys2Proof.Machine
end

section

/-! ## Frames that also wait in a slice (R266, R283)

A frame that stands in a slice's list of stalled frames is handed over whenever cells have become free, whatever else has
happened to it. -/

set_option Elab.async false

namespace Sys2Proof.Machine

/-! ### A Herd frame that is placed and stalled -/

/-- The lookup of a Herd frame for port 3. -/
def herdLooked : Looked :=
  { Looked.nothing (headsOf (List.replicate 64 1#8) 0) 1 2 0 0 none 0 false with
    dests := [3], herd := some ⟨0#64, 0, 0, false, false, 0, 0, 100, false⟩, fc := some 5 }

/-- A Herd frame whose copy to port 3 is still to be placed. -/
def herdFrame : Frame :=
  ⟨5, 3, 0, List.replicate 64 1#8, ⟨mkT96 5 100 0, false, false, false, 0⟩, true, none, none, false, 1, 0, 0, .herd,
    some herdLooked, true, [3], false, none⟩

/-- A device with `herdFrame`, which also stands in slice 0. -/
def stalledHerd : State :=
  { (Tests.live.p R.QUE_HERD_CELLS F.QUE_HERD_CELLS_CELLS 9) with
    fwd := { Tests.live.fwd with nextId := 9, frames := [herdFrame], stalled := [(0, [5])] } }

/-- Once placed, the frame is handed over a second time, and its copy is to be placed again. -/
theorem toPlace_stalledHerd :
    ∃ g ∈ (endClock stalledHerd stalledHerd.herdPlace).fwd.frames, g.id = herdFrame.id ∧ g.toPlace ≠ [] := by
  decide +kernel

/-- Refutes O23: a Herd frame that also stands in a slice is handed over again when it has been placed. -/
theorem not_herdRelease : ¬ Obligations.HerdRelease := by
  intro h
  obtain ⟨-, -, -, -, h, -⟩ := h
  obtain ⟨t, e, hf, -⟩ := h stalledHerd herdFrame herdLooked ⟨0#64, 0, 0, false, false, 0, 0, 100, false⟩ (by decide)
    (by decide +kernel) (by decide +kernel) rfl rfl (by decide +kernel) (by decide +kernel)
  have k : exec .herdPlace stalledHerd = .next (endClock stalledHerd stalledHerd.herdPlace) := done_next rfl
  rw [k] at e
  injection e with e
  obtain ⟨g, hg, hi, hp⟩ := toPlace_stalledHerd
  exact hp (hf g (e ▸ hg) hi)

/-! ### A frame that is stalled before its lookup -/

/-- A frame that lands on port 3 and waits for its lookup. -/
def landingFrame : Frame :=
  ⟨5, 3, 0, List.replicate 64 1#8, ⟨mkT96 5 100 0, false, false, false, 0⟩, false, none, none, false, 64, 64, 0, .none,
    none, false, [], false, none⟩

/-- A device with `landingFrame`, which already stands in slice 0. -/
def stalledLanding : State :=
  { Tests.live with fwd := { Tests.live.fwd with frames := [landingFrame], nextId := 9, stalled := [(0, [5])] } }

/-- The frame is handed over and gives up its place in the landing reserve. -/
theorem landing_stalledLanding :
    ∀ g ∈ (endClock stalledLanding (stalledLanding.frameLookup 3)).fwd.frames, g.landing ≠ landingFrame.landing := by
  decide +kernel

theorem dests_stalledLanding : (stalledLanding.lookup landingFrame).2.dests = [] := by decide +kernel

/-- Refutes O17: a frame for no port that stands in a slice before its lookup is handed over, and is then no longer as it
was. -/
theorem not_framesLookedUpAndEnded : ¬ Obligations.FramesLookedUpAndEnded := by
  intro h
  obtain ⟨-, -, h, -⟩ := h
  obtain ⟨t, e, hf, -⟩ := h stalledLanding 3 landingFrame _ (by decide) (by decide +kernel) (by decide +kernel)
    (by decide +kernel) rfl rfl rfl dests_stalledLanding
  have k : exec (.frameLookup 3) stalledLanding = .next (endClock stalledLanding (stalledLanding.frameLookup 3)) :=
    done_next rfl
  rw [k] at e
  injection e with e
  rw [← e] at hf
  exact landing_stalledLanding _ hf rfl

end Sys2Proof.Machine
end

section

/-! ## Events of a pair that end MIRROR_OVER (R397, R401)

Whatever brings the claims of a pair up to date also brings MIRROR_OVER up to date, in `RUT_STATUS` and among the
conditions. -/

set_option Elab.async false

namespace Sys2Proof.Machine

/-- A pair in INIT that has never heard its partner; MIRROR_OVER still holds as a condition, though its bit of
`RUT_STATUS` is clear. -/
def initMirrorOver : State :=
  (staleMirrorOver.p R.RUT_STATUS F.RUT_STATUS_STATE pairInit).p R.RUT_STATUS F.RUT_STATUS_HIGHER 0

/-- The same pair, with a claim wire that is fresh. -/
def freshMirrorOver : State := initMirrorOver.p R.RUT_STATUS F.RUT_STATUS_WIRE_FRESH 1

/-- A claim wire that becomes stale ends the condition. -/
theorem conds_wireStale : (endClock freshMirrorOver freshMirrorOver.wireStale).conds ≠ freshMirrorOver.conds := by
  decide +kernel

/-- Refutes O35: the claim wire becomes stale in INIT, which ends the condition MIRROR_OVER. -/
theorem not_pairClaims : ¬ Obligations.PairClaims := by
  intro h
  obtain ⟨-, -, -, -, -, h, -⟩ := h
  obtain ⟨t, e, -, -, -, -, hp⟩ := h freshMirrorOver (by decide) (by decide +kernel) rfl (by decide +kernel)
    (by decide +kernel)
  have k : exec .wireStale freshMirrorOver = .next (endClock freshMirrorOver freshMirrorOver.wireStale) := done_next rfl
  rw [k] at e
  injection e with e
  have hf : t.conds = freshMirrorOver.conds := hp .conds (by decide)
  exact conds_wireStale ((congrArg State.conds e).trans hf)

/-- The end of INIT_WAIT ends the condition. -/
theorem conds_initWait : (endClock initMirrorOver initMirrorOver.initWait).conds ≠ initMirrorOver.conds := by
  decide +kernel

/-- Refutes O36: INIT_WAIT elapses, which ends the condition MIRROR_OVER. -/
theorem not_pairStates : ¬ Obligations.PairStates := by
  intro h
  obtain ⟨-, -, -, -, h, -⟩ := h
  obtain ⟨t, e, -, -, -, -, hp⟩ := h initMirrorOver (by decide) (by decide +kernel) rfl rfl (by decide +kernel)
    (by decide +kernel) rfl
  have k : exec .initWaitExpiry initMirrorOver = .next (endClock initMirrorOver initMirrorOver.initWait) := done_next rfl
  rw [k] at e
  injection e with e
  have hf : t.conds = initMirrorOver.conds := hp .conds (by decide)
  exact conds_initWait ((congrArg State.conds e).trans hf)

end Sys2Proof.Machine
end

section

/-! ## Applying a checkpoint (R401, R406)

Applying the checkpoint of a takeover leaves `RUT_STATUS` and the pair as they are; raising the claim afterwards brings
MIRROR_OVER up to date. -/

set_option Elab.async false

namespace Sys2Proof.Machine

variable {s t : State} {a b k n v : Nat} {l : List Nat} {bs : List Byte}

/-! ### What a checkpoint changes -/

/-- Any register but `RUT_STATUS`. -/
def NoStatus (a : Nat) : Prop := a ≠ R.RUT_STATUS

/-- A change of registers other than `RUT_STATUS`, and of parts other than the pair. -/
abbrev BesidesPair : State → State → Prop := Changes NoStatus [.fwd, .hld, .ptp, .tsc, .ref, .conds, .free]

theorem BesidesPair.setRegN (h : BesidesPair s t) (ha : NoStatus a) : BesidesPair s (t.setRegN a v) :=
  (Changes.setRegN_iff ha).2 h

theorem BesidesPair.setWords (h : BesidesPair s t) (ha : ∀ i ∈ l, NoStatus (a + 4 * i)) :
    BesidesPair s (t.setWords a bs l) := by
  induction l generalizing t with
  | nil => exact h
  | cons i r ih => exact ih (h.setRegN (ha i (List.mem_cons_self ..))) fun j hj => ha j (List.mem_cons_of_mem _ hj)

theorem BesidesPair.foldl {α : Type} {g : State → α → State} {m : List α} (h : BesidesPair s t)
    (hg : ∀ u, ∀ x ∈ m, BesidesPair s u → BesidesPair s (g u x)) : BesidesPair s (m.foldl g t) := by
  induction m generalizing t with
  | nil => exact h
  | cons x r ih =>
    exact ih (hg t x (List.mem_cons_self ..) h) fun u y hy => hg u y (List.mem_cons_of_mem _ hy)

theorem noStatus_table (h : a < 0x200000 ∨ 0x800000 ≤ a) : NoStatus a := by
  simp only [NoStatus, R.RUT_STATUS]
  omega

theorem BesidesPair.accrue (h : BesidesPair s t) : BesidesPair s (t.accrue k) := by
  have ha : NoStatus (ctxAddr k + 4 * 8) := noStatus_table (by simp only [ctxAddr]; omega)
  have hw (x : Tbl (Nat × Nat)) : BesidesPair s (t.setFwd { t.fwd with tokens := x }) := (Changes.setFwd_iff t (by decide)).2 h
  unfold State.accrue State.setTw
  extract_lets a clk last v w num x burst
  split
  · split
    · exact (hw _).setRegN ha
    · exact (hw _).setRegN ha
  · exact hw _

theorem BesidesPair.epochUp (h : BesidesPair s t) : BesidesPair s t.epochUp :=
  (Changes.p_iff (by simp [NoStatus, R.FWD_EPOCH, R.RUT_STATUS])).2 h

theorem BesidesPair.poolCheck (h : BesidesPair s t) : BesidesPair s t.poolCheck := by
  unfold State.poolCheck State.poolEmpty
  simp [h]

theorem BesidesPair.judge (h : BesidesPair s t) (hk : k < 30) : BesidesPair s (t.judge k) := by
  have ha : NoStatus (R.REF_CANDk_STATUS k) := noStatus_table (by simp only [R.REF_CANDk_STATUS]; omega)
  unfold State.judge
  simp [h, ha]

theorem BesidesPair.afterModel {u : State} (h : BesidesPair s t) : BesidesPair s (t.afterModel u) := by
  unfold State.afterModel State.judgeAll
  split
  · exact h
  · exact h.foldl fun u k hk hu => hu.judge (List.mem_range.1 hk)

theorem BesidesPair.applyTimeRecord (h : BesidesPair s t) : BesidesPair s (t.applyTimeRecord bs) := by
  have ha (c : Nat) (hc : c < 0x200000) : NoStatus c := noStatus_table (.inl hc)
  unfold State.applyTimeRecord
  extract_lets x p y z u m v w q
  have hw : BesidesPair s w := by
    simp [w, v, u, z, y, x, ha, h, R.TSC_OFFSET_ACC_LO, R.HLD_F_LO, R.HLD_A1, R.HLD_A2, R.HLD_AGE_S, R.HLD_STATUS]
  have hq : BesidesPair s q := hw.foldl fun u k hk hu => (Changes.setHld_iff _ (by decide)).2
    (hu.setRegN (ha _ (by have := List.mem_range.1 hk; simp only [R.HLD_TTABb]; omega)))
  refine BesidesPair.afterModel ?_
  simp [ha, hq, State.showTempOut, R.HLD_STATUS]

theorem BesidesPair.applyCheckpoint (h : BesidesPair s t) : BesidesPair s (t.applyCheckpoint b) := by
  unfold State.applyCheckpoint State.setRing State.setTw
  extract_lets x y z u m c
  have hx : BesidesPair s x := h.foldl fun u k hk hu => by
    have hk := List.mem_range.1 hk
    split
    · exact hu
    · refine hu.setWords fun i hi => noStatus_table (.inl ?_)
      have hi : i < 3 := by fin_cases hi <;> decide
      simp only [R.FWD_VLANv_MEMBER]
      omega
  have hy : BesidesPair s y := hx.foldl fun u k _ hu =>
    (hu.accrue.setWords fun i _ => noStatus_table (by simp only [ctxAddr]; omega)).epochUp
  have hz : BesidesPair s z := hy.foldl fun u k _ hu =>
    ((hu.setWords fun i _ => noStatus_table (by omega)).setRegN (noStatus_table (by omega))).epochUp
  have hu : BesidesPair s u := hz.poolCheck.applyTimeRecord
  exact (Changes.p_iff (noStatus_table (.inl (by decide)))).2
    ((Changes.setHld_iff _ (by decide)).2 ((Changes.setHld_iff _ (by decide)).2 hu))

/-! ### The claim raised after a takeover -/

/-- Outside hot mirroring MIRROR_OVER ends. -/
theorem mirrorOver_of_mode (h : s.rut.mode ≠ 0) :
    s.mirrorOver = (s.pb R.RUT_STATUS F.RUT_STATUS_MIRROR_OVER false).cond R.RUT_RAW F.RUT_RAW_MIRROR_OVER false := by
  unfold State.mirrorOver
  simp [h]

theorem reg_setWire {f : BitVec 80} : (s.setWire f).reg a = s.reg a := by
  unfold State.setWire
  split <;> rfl

theorem rut_setWire {f : BitVec 80} : (s.setWire f).rut = s.rut := by
  unfold State.setWire
  split <;> rfl

/-- The claims are brought up to date, but for MIRROR_OVER and HIGHER: `RUT_STATUS` and MODE stay. -/
theorem rutRefresh_eq : ∃ t : State, t.reg R.RUT_STATUS = s.reg R.RUT_STATUS ∧ t.rut.mode = s.rut.mode ∧
    s.rutRefresh = if t.mirrorOver.pairState = pairSolo then t.mirrorOver.setHigher true
      else if t.mirrorOver.claimHigh then t.mirrorOver else t.mirrorOver.setHigher false := by
  unfold State.rutRefresh
  extract_lets own part own' part' x r y z w v
  have hx : x.reg R.RUT_STATUS = s.reg R.RUT_STATUS := by simp [x, R.RUT_STATUS, R.RUT_CLAIM, R.RUT_PARTNER_CLAIM]
  have hy : y.reg R.RUT_STATUS = s.reg R.RUT_STATUS := State.reg_note.trans (State.reg_setRut.trans hx)
  have my : y.rut.mode = s.rut.mode := (congrArg Rut.mode State.note_rut).trans rfl
  have hz : z.reg R.RUT_STATUS = s.reg R.RUT_STATUS ∧ z.rut.mode = s.rut.mode := by
    by_cases h : own = own'
    · rw [show z = x from if_pos h]
      exact ⟨hx, rfl⟩
    · by_cases h' : y.pairState = pairSolo
      · rw [show z = y from (if_neg h).trans (if_pos h')]
        exact ⟨hy, my⟩
      · rw [show z = y.setWire (wireFrame y.rut.pairId own') from (if_neg h).trans (if_neg h'), reg_setWire, rut_setWire]
        exact ⟨hy, my⟩
  have hw : w.reg R.RUT_STATUS = z.reg R.RUT_STATUS ∧ w.rut.mode = z.rut.mode := by
    by_cases h : part = part'
    · rw [show w = z from if_pos h]
      exact ⟨rfl, rfl⟩
    · rw [show w = z.claimRec 1 own' part from if_neg h]
      exact ⟨State.reg_note, congrArg Rut.mode State.note_rut⟩
  exact ⟨w, hw.1.trans hz.1, hw.2.trans hz.2, rfl⟩

/-- In checkpoint mode, a pair that is not HIGHER and not in SOLO has MIRROR_OVER clear after its claims have been
brought up to date. -/
theorem mirrorOver_rutRefresh (h : s.rut.mode ≠ 0) (hp : s.pairState ≠ pairSolo)
    (hh : s.g R.RUT_STATUS F.RUT_STATUS_HIGHER = 0) : s.rutRefresh.g R.RUT_STATUS F.RUT_STATUS_MIRROR_OVER = 0 := by
  obtain ⟨t, ht, hm, e⟩ := rutRefresh_eq (s := s)
  rw [← hm] at h
  have hr : t.mirrorOver.reg R.RUT_STATUS = F.RUT_STATUS_MIRROR_OVER.put (s.reg R.RUT_STATUS) 0 := by
    rw [mirrorOver_of_mode h, State.reg_cond, ← ht]
    exact State.reg_setReg_same ..
  have hs : t.mirrorOver.pairState = s.pairState := by
    unfold State.pairState State.g
    rw [hr]
    exact Fld.get_put_ne (by decide) (by decide) ..
  have hf : (t.mirrorOver.on R.RUT_STATUS F.RUT_STATUS_HIGHER == false) = true := by
    have : t.mirrorOver.g R.RUT_STATUS F.RUT_STATUS_HIGHER = 0 := by
      rw [← hh]
      unfold State.g
      rw [hr]
      exact Fld.get_put_ne (by decide) (by decide) ..
    unfold State.on
    rw [this]
    rfl
  have hg : t.mirrorOver.g R.RUT_STATUS F.RUT_STATUS_MIRROR_OVER = 0 := by
    unfold State.g
    rw [hr]
    exact Fld.get_put (by decide) ..
  rw [e, if_neg (hs ▸ hp)]
  unfold State.setHigher
  rw [if_pos hf, ite_self]
  exact hg

/-- The unit takes over in checkpoint mode, with MIRROR_OVER left over. -/
def takingOver : State :=
  { ((Tests.live.p R.RUT_STATUS F.RUT_STATUS_STATE pairActive).p R.RUT_STATUS F.RUT_STATUS_HIGHER 0).p R.RUT_STATUS
      F.RUT_STATUS_MIRROR_OVER 1 with
    rut := { Tests.live.rut with mode := 1, applying := true, valid := some 0, beat := none } }

/-- Without a heartbeat no row of R397 applies. -/
theorem pairEval_of_beat (h : s.rut.beat = none) : s.pairEval = s.rutRefresh := by
  unfold State.pairEval State.pairRules
  rw [h]

/-- The claim is raised to the next EPOCH. -/
def raiseClaim (s : State) : State := s.setRut { s.rut with applying := false, epoch := s.rut.next }

theorem raiseClaim_beat : (raiseClaim s).rut.beat = s.rut.beat := rfl
theorem raiseClaim_mode : (raiseClaim s).rut.mode = s.rut.mode := rfl
theorem raiseClaim_g {f : Fld} : (raiseClaim s).g a f = s.g a f := congrArg f.get State.reg_setRut

theorem ckptApplied_takingOver :
    takingOver.ckptApplied = (raiseClaim (takingOver.applyCheckpoint (takingOver.ckptBase + 0 * 0x400000))).pairEval := by
  unfold State.ckptApplied
  rw [if_pos (by decide +kernel)]
  rfl

/-- Raising the claim clears MIRROR_OVER. -/
theorem mirrorOver_ckptApplied : takingOver.ckptApplied.g R.RUT_STATUS F.RUT_STATUS_MIRROR_OVER = 0 := by
  have C : BesidesPair takingOver (takingOver.applyCheckpoint (takingOver.ckptBase + 0 * 0x400000)) :=
    BesidesPair.applyCheckpoint .refl
  rw [ckptApplied_takingOver]
  generalize takingOver.applyCheckpoint (takingOver.ckptBase + 0 * 0x400000) = x at C
  have hr : x.reg R.RUT_STATUS = takingOver.reg R.RUT_STATUS := C.reg (by decide) (by simp [NoStatus])
  have hu : x.rut = takingOver.rut := C.parts .rut (by decide)
  have hg (f : Fld) : (raiseClaim x).g R.RUT_STATUS f = takingOver.g R.RUT_STATUS f :=
    raiseClaim_g.trans (congrArg f.get hr)
  have hm : (raiseClaim x).rut.mode = 1 := raiseClaim_mode.trans (congrArg Rut.mode hu)
  rw [pairEval_of_beat (raiseClaim_beat.trans (congrArg Rut.beat hu))]
  refine mirrorOver_rutRefresh (ne_of_eq_of_ne hm (by decide)) ?_ ((hg _).trans (by decide +kernel))
  exact ne_of_eq_of_ne (hg _) (by decide +kernel)

/-- Refutes O37: a takeover in checkpoint mode clears MIRROR_OVER of `RUT_STATUS` when it raises its claim. -/
theorem not_pairCopies : ¬ Obligations.PairCopies := by
  intro h
  obtain ⟨-, -, -, -, -, -, -, -, -, -, -, -, -, h⟩ := h
  obtain ⟨t, e, -, -, -, hr, -⟩ := h takingOver 0 (by decide) (by decide +kernel) rfl rfl (.inl rfl) (by decide +kernel)
  have k : exec .checkpointApplyDone takingOver = .next (endClock takingOver takingOver.ckptApplied) := done_next rfl
  rw [k] at e
  injection e with e
  have hg : t.g R.RUT_STATUS F.RUT_STATUS_MIRROR_OVER = 0 := by
    rw [← e]
    unfold State.g
    rw [reg_endClock (by decide)]
    exact mirrorOver_ckptApplied
  unfold State.g at hg
  rw [hr R.RUT_STATUS (by decide) (by decide)] at hg
  revert hg
  decide +kernel

end Sys2Proof.Machine
end

section

/-! ## A lane lost while one place is left in the fault-record queue (R59, R184, R229)

The lane that unlocks takes block lock with it; on the servo port that is a master change without another SLAVE port, and
its fault 0x01 of the PTP engine is queued before that of the lane. -/

set_option Elab.async false

namespace Sys2Proof.Machine

/-- A device whose servo port is port 0, in SLAVE, with its lane locked and one place left for fault records. -/
def servoLane : State :=
  let s := ((Tests.live.p (R.MAC_Pn_STATUS 0) F.MAC_Pn_STATUS_BLOCK_LOCK 1).p (R.PTP_Pn_STATUS 0)
    F.PTP_Pn_STATUS_STATE ptpSlave).p R.PTP_STATUS F.PTP_STATUS_SERVO_PORT 0
  { s with
    syn := { s.syn with lanes := [0] }
    hif := { s.hif with fq := List.replicate 31 ⟨1, 1, 0, 0, 0#64⟩ } }

/-- The record of the master change takes the last place, and the lane's is lost. -/
theorem fq_servoLane :
    ∀ f ∈ (endClock servoLane (servoLane.laneUnlock 0 none)).hif.fq, ¬ (f.block = 6 ∧ f.code = 1) := by
  decide +kernel

/-- Refutes O42: the servo port's lane unlocks with 31 fault records queued, and its own record is lost to the queue that
the master change has filled. -/
theorem not_lanesAndBlockLock : ¬ Obligations.LanesAndBlockLock := by
  intro h
  obtain ⟨h, -⟩ := h
  obtain ⟨t, e, -, -, -, -, -, hf, -⟩ := h servoLane 0 (by decide) (by decide +kernel) (by decide)
  have k : exec (.laneUnlock (Fin.castLE (by decide) (0 : Fin 24)) none) servoLane
      = .next (endClock servoLane (servoLane.laneUnlock 0 none)) := done_next rfl
  rw [k] at e
  injection e with e
  obtain ⟨f, hm, hb, hc, -⟩ := hf (by decide)
  exact fq_servoLane f (e ▸ hm) ⟨hb, hc⟩

/-- Refutes O52: the loss of lock of the servo port's lane PLL does not queue its record either. -/
theorem not_loopsDomainsAndOutputs : ¬ Obligations.LoopsDomainsAndOutputs := by
  intro h
  obtain ⟨-, -, -, -, -, -, -, -, h, -⟩ := h
  obtain ⟨t, e, hf, -⟩ := h servoLane 0 0 (by decide) (by decide)
  have k : exec (.pllLockLoss (.lane (0 : Fin 24)) (0 : Fin 3) none) servoLane
      = .next (endClock servoLane (servoLane.laneUnlock 0 none)) := done_next rfl
  rw [k] at e
  injection e with e
  obtain ⟨f, hm, hb, hc, -⟩ := hf (by decide)
  exact fq_servoLane f (e ▸ hm) ⟨hb, hc⟩

end Sys2Proof.Machine
end

section

/-! ## A host frame whose identity already stands in a slice (R259, R266)

The next frame takes the identity `nextId`; a slice that lists it as stalled hands the frame over a second time, on
another account. -/

set_option Elab.async false

namespace Sys2Proof.Machine

/-- A device with a posted ring 0 descriptor, one cell as the minimum of queue 24, and the next frame's identity in
slice 0. -/
def nextStalled : State :=
  { ((((Tests.live.p (R.HIF_DMAk_CTRL 0) F.HIF_DMAk_CTRL_ENABLE 1).p (R.HIF_DMAk_STATUS 0) F.HIF_DMAk_STATUS_RUNNING
    1).p (R.HIF_DMAk_TAIL 0) F.HIF_DMAk_TAIL_TAIL 2).p (R.QUE_Qq_MIN 24) F.QUE_Qq_MIN_CELLS 1) with
    hif := Tests.live.hif, fwd := { Tests.live.fwd with nextId := 9, stalled := [(0, [9])] } }

/-- A descriptor of a direct frame of 60 bytes for port 3 and class 0. -/
def directDesc : List Byte := leBytes 8 0x1000 ++ leBytes 2 60 ++ leBytes 2 0xA003

/-- The second hand-over charges the shared pool. -/
theorem account_nextStalled :
    ∀ f ∈ (endClock nextStalled (nextStalled.hostIngest directDesc (List.replicate 60 1#8))).fwd.frames,
      f.account ≠ .min (8 * (descFlags directDesc % 32) + bitsOf (descFlags directDesc) 12 10) := by
  decide +kernel

/-- Refutes O19: a direct frame whose identity a slice lists as stalled is handed over twice, and is then charged to the
shared pool though its queue's minimum had room. -/
theorem not_hostPort : ¬ Obligations.HostPort := by
  intro h
  obtain ⟨-, -, h, -⟩ := h
  obtain ⟨t, e, -, -, ⟨f, hf, -, ha, -⟩, -⟩ := h nextStalled directDesc (List.replicate 60 1#8) (by decide)
    (by decide +kernel) (by decide +kernel) (by decide +kernel) (by decide +kernel) (by decide +kernel)
    (by decide +kernel) (by decide +kernel) (by decide +kernel) (by decide +kernel)
  have k : exec (.hostFrameIngest directDesc (List.replicate 60 1#8)) nextStalled
      = .next (endClock nextStalled (nextStalled.hostIngest directDesc (List.replicate 60 1#8))) := done_next rfl
  rw [k] at e
  injection e with e
  exact account_nextStalled f (e ▸ hf) ha

end Sys2Proof.Machine
end

section

/-! ## The link delay of a port (R188 to R192) -/

set_option Elab.async false

namespace Sys2Proof.Machine

variable {A : Nat → Prop} {ps : List Part} {s t : State} {n : Nat} {t1 t2 t3 t4 : Tick64} {x : Int}

@[simp] theorem sharedReg_LD_CNT (p : Fin 24) : sharedReg (R.PTS_LD_CNT p) = false := by revert p; decide
@[simp] theorem sharedReg_LD_MEAN (p : Fin 24) :
    sharedReg (R.PTS_LD_MEAN_LO p) = false ∧ sharedReg (R.PTS_LD_MEAN_LO p + 4) = false := by revert p; decide
@[simp] theorem sharedReg_FTEMP_NOW (p : Fin 24) : sharedReg (R.PTS_FTEMP_NOW p) = false := by revert p; decide
@[simp] theorem sharedReg_FIFO_STATUS (p : Fin 24) : sharedReg (R.PTS_FIFO_STATUS p) = false := by revert p; decide

/-- The sample of an exchange (R188). -/
abbrev delaySample (t1 t2 t3 t4 : Tick64) : Int := (tickDiff t4 t1 - tickDiff t3 t2 + 1) / 2

/-- A sample is an outlier (R189). -/
abbrev State.farDelay (s : State) (n : Nat) (x : Int) : Prop :=
  (s.g (R.PTS_LD_CFG n) F.PTS_LD_CFG_OUTLIER_PS * 65536 : Nat) < |x - s.pairI (R.PTS_LD_MEAN_LO n)| * 1000

theorem ldExchange_bad : s.ldExchange n t1 t2 t3 t4 true = s.inc (R.PTS_LD_CNT n) F.PTS_LD_CNT_DISCARDS := rfl

theorem ldExchange_good : s.ldExchange n t1 t2 t3 t4 false = s.ldSample n (delaySample t1 t2 t3 t4) := by
  unfold State.ldExchange
  exact if_neg (by decide)

/-- An outlier is counted and left out. -/
theorem ldSample_outlier (hv : s.on (R.PTS_STATUS n) F.PTS_STATUS_LD_VALID = true) (hx : s.farDelay n x)
    (hu : (s.ptsOf n).outliers < 7) : s.ldSample n x = (s.inc (R.PTS_LD_CNT n) F.PTS_LD_CNT_OUTLIERS).setPts n
      { s.ptsOf n with outliers := (s.ptsOf n).outliers + 1 } := by
  unfold State.farDelay at hx
  unfold State.ldSample
  simp only [Nat.cast_mul, Nat.cast_ofNat] at hx
  simp only [hv, hx, decide_true, Bool.and_self, if_true]
  rw [if_pos (by omega)]

/-- The outlier that restarts the window: counted, reported and taken as its only sample. -/
def State.ldRestart (s : State) (n : Nat) (x : Int) : State :=
  ((((s.inc (R.PTS_LD_CNT n) F.PTS_LD_CNT_OUTLIERS).clearWindow n).raw (R.PTS_RAW n) F.PTS_RAW_LD_RESTART).fault 6 2 n
    (enc 32 (divRound ((x - s.pairI (R.PTS_LD_MEAN_LO n)) * 1000) 65536))).setWindow n [x]

theorem ldSample_restart (hv : s.on (R.PTS_STATUS n) F.PTS_STATUS_LD_VALID = true) (hx : s.farDelay n x)
    (hu : 7 ≤ (s.ptsOf n).outliers) : s.ldSample n x = s.ldRestart n x := by
  unfold State.farDelay at hx
  unfold State.ldSample State.ldRestart
  simp only [Nat.cast_mul, Nat.cast_ofNat] at hx
  simp only [hv, hx, decide_true, Bool.and_self, if_true]
  rw [if_neg (by omega)]

/-- Any other sample enters the window. -/
theorem ldSample_takes (h : s.on (R.PTS_STATUS n) F.PTS_STATUS_LD_VALID = true → ¬ s.farDelay n x) :
    s.ldSample n x = s.setWindow n (x :: (s.ptsOf n).ld) := by
  unfold State.ldSample
  refine if_neg fun k => ?_
  obtain ⟨hv, hx⟩ := Bool.and_eq_true_iff.1 k
  exact h hv (by simpa [State.farDelay] using of_decide_eq_true hx)

/-- Without a fall of LD_VALID in SLAVE the port stays where it is. -/
theorem ptpLdCheck_stays (h : ¬ (s.ptpState n = ptpSlave ∧ s.on (R.PTS_STATUS n) F.PTS_STATUS_LD_VALID = false)) :
    s.ptpLdCheck n = s := by
  refine if_neg fun k => h ⟨k.1, ?_⟩
  simpa using k.2

/-! ### The window -/

/-- What a window of port `p` may change. -/
abbrev windowRegs (p : Fin 24) : Nat → Prop :=
  (· ∈ [R.PTS_LD_MEAN_LO p, R.PTS_LD_MEAN_LO p + 4, R.PTS_LD_IN_LO p, R.PTS_LD_IN_LO p + 4, R.PTS_LD_OUT_LO p,
    R.PTS_LD_OUT_LO p + 4, R.PTS_STATUS p])

@[simp] theorem Changes.asymmetry_iff (h : A (R.PTS_LD_IN_LO n)) (h1 : A (R.PTS_LD_IN_LO n + 4))
    (h2 : A (R.PTS_LD_OUT_LO n)) (h3 : A (R.PTS_LD_OUT_LO n + 4)) : Changes A ps s (t.asymmetry n) ↔ Changes A ps s t := by
  unfold State.asymmetry
  rw [Changes.setPairI_iff h2 h3, Changes.setPairI_iff h h1]

@[simp] theorem Changes.setWindow_iff {l : List Int} (h : A (R.PTS_LD_IN_LO n)) (h1 : A (R.PTS_LD_IN_LO n + 4))
    (h2 : A (R.PTS_LD_OUT_LO n)) (h3 : A (R.PTS_LD_OUT_LO n + 4)) (h4 : A (R.PTS_LD_MEAN_LO n))
    (h5 : A (R.PTS_LD_MEAN_LO n + 4)) (h6 : A (R.PTS_STATUS n)) (hp : .pts ∈ ps) (hf : .free ∈ ps) :
    Changes A ps s (t.setWindow n l) ↔ Changes A ps s t := by
  unfold State.setWindow
  simp [h, h1, h2, h3, h4, h5, h6, hp, hf]

/-- The registers that the asymmetry does not touch. -/
theorem reg_asymmetry {a : Nat} (h : a ≠ R.PTS_LD_IN_LO n) (h1 : a ≠ R.PTS_LD_IN_LO n + 4) (h2 : a ≠ R.PTS_LD_OUT_LO n)
    (h3 : a ≠ R.PTS_LD_OUT_LO n + 4) : (s.asymmetry n).reg a = s.reg a := by
  unfold State.asymmetry
  simp [h, h1, h2, h3]

/-- The status of the port. -/
theorem reg_asymmetry_status : (s.asymmetry n).reg (R.PTS_STATUS n) = s.reg (R.PTS_STATUS n) := by
  refine reg_asymmetry ?_ ?_ ?_ ?_ <;> simp only [R.PTS_STATUS, R.PTS_LD_IN_LO, R.PTS_LD_OUT_LO] <;> omega

@[simp] theorem pts_asymmetry : (s.asymmetry n).pts = s.pts := by
  unfold State.asymmetry
  simp

/-- The window holds its newest samples, and no outlier has been seen since. -/
theorem setWindow_pts {l : List Int} : (s.setWindow n l).ptsOf n =
    { s.ptsOf n with ld := l.take (2 ^ s.g (R.PTS_LD_CFG n) F.PTS_LD_CFG_LOG2_N), outliers := 0 } := by
  unfold State.setWindow
  extract_lets size l' u x y z
  have hx : x.ptsOf n = { s.ptsOf n with ld := l', outliers := 0 } := State.ptsOf_setPts.trans (if_pos rfl)
  have hz : z.pts = x.pts := by
    have hy : y.pts = x.pts := by simp [y]
    by_cases c : size ≤ l'.length
    · rw [show z = _ from if_pos c, State.p_pts, hy]
    · rw [show z = _ from if_neg c, hy]
  have e : ((z.asymmetry n).ptsOf n) = x.ptsOf n := congrArg (Tbl.get Pts.reset · n) (pts_asymmetry.trans hz)
  exact e.trans hx

/-- A window that is full makes LD_VALID. -/
theorem setWindow_valid {l : List Int} (h : 2 ^ s.g (R.PTS_LD_CFG n) F.PTS_LD_CFG_LOG2_N ≤ l.length) :
    (s.setWindow n l).g (R.PTS_STATUS n) F.PTS_STATUS_LD_VALID = 1 := by
  have hl : 2 ^ s.g (R.PTS_LD_CFG n) F.PTS_LD_CFG_LOG2_N ≤ (l.take (2 ^ s.g (R.PTS_LD_CFG n) F.PTS_LD_CFG_LOG2_N)).length := by
    rw [List.length_take]
    omega
  unfold State.setWindow
  simp only [if_pos hl]
  unfold State.g
  rw [reg_asymmetry_status]
  exact State.g_p_same (by decide) 1

/-- A window that was valid stays so. -/
theorem setWindow_keeps {l : List Int} (h : s.on (R.PTS_STATUS n) F.PTS_STATUS_LD_VALID = true) :
    (s.setWindow n l).on (R.PTS_STATUS n) F.PTS_STATUS_LD_VALID = true := by
  rw [State.on_iff rfl] at h ⊢
  unfold State.setWindow
  extract_lets size l' u x y z
  have hy : y.g (R.PTS_STATUS n) F.PTS_STATUS_LD_VALID = 1 := by
    rw [← h]
    have e : R.PTS_STATUS n ≠ R.PTS_LD_MEAN_LO n + 4 := by simp only [R.PTS_STATUS, R.PTS_LD_MEAN_LO]; omega
    simp [y, x, State.g, e]
  have hz : z.g (R.PTS_STATUS n) F.PTS_STATUS_LD_VALID = 1 := by
    by_cases c : size ≤ l'.length
    · rw [show z = _ from if_pos c]
      exact State.g_p_same (by decide) 1
    · rwa [show z = _ from if_neg c]
  rw [← hz]
  unfold State.g
  rw [reg_asymmetry_status]

/-- A window leaves the state of the PTP port. -/
theorem setWindow_ptpState {l : List Int} {p : Fin 24} : (s.setWindow p l).ptpState p = s.ptpState p := by
  have C : Changes (windowRegs p) [.pts, .free] s (s.setWindow p l) := by simp
  refine C.g (by simp) (fun k => ?_)
  simp only [List.mem_cons, List.not_mem_nil, R.PTP_Pn_STATUS, R.PTS_LD_MEAN_LO, R.PTS_LD_IN_LO, R.PTS_LD_OUT_LO,
    R.PTS_STATUS, or_false] at k
  omega

theorem freeQuot_one : s.freeQuot x 1 = x := by
  unfold State.freeQuot
  simp

/-- The mean of a window of one sample is that sample. -/
theorem setWindow_mean_one (h : s.g (R.PTS_LD_CFG n) F.PTS_LD_CFG_LOG2_N = 0) {l : List Int} :
    (s.setWindow n (x :: l)).pair (R.PTS_LD_MEAN_LO n) = enc 64 x := by
  unfold State.setWindow
  simp only [h, Nat.pow_zero, List.take_succ_cons, List.take_zero, List.length_singleton, le_refl, if_true,
    List.foldl_cons, List.foldl_nil, zero_add]
  set y := s.setPts n _
  have k (a : Nat) (h : a = R.PTS_LD_MEAN_LO n ∨ a = R.PTS_LD_MEAN_LO n + 4) :
      (((y.setPairI (R.PTS_LD_MEAN_LO n) (y.freeQuot x 1)).drawn.p (R.PTS_STATUS n) F.PTS_STATUS_LD_VALID 1).asymmetry
        n).reg a = (y.setPairI (R.PTS_LD_MEAN_LO n) (y.freeQuot x 1)).reg a := by
    simp only [R.PTS_LD_MEAN_LO] at h
    rw [reg_asymmetry, State.reg_p_ne, State.reg_drawn] <;>
      simp only [R.PTS_STATUS, R.PTS_LD_IN_LO, R.PTS_LD_OUT_LO] <;> omega
  rw [State.pair_congr (k _ (.inl rfl)) (k _ (.inr rfl)), State.pair_setPairI, freeQuot_one]

end Sys2Proof.Machine
end

section

/-! ## What an exchange of the link delay answers (R188 to R190) -/

set_option Elab.async false

namespace Sys2Proof.Machine

variable {A : Nat → Prop} {ps : List Part} {s t : State} {t1 t2 t3 t4 : Tick64} {x : Int} {p : Fin 24}

/-- What a unit's window holds is no register. -/
theorem Logs.ptsOf {u : State} (L : Logs t u) (n : Nat) : u.ptsOf n = t.ptsOf n := congrArg (Tbl.get Pts.reset · n) L.pts

theorem State.g_setPts {a n : Nat} {f : Fld} {x : Pts} : (s.setPts n x).g a f = s.g a f :=
  congrArg f.get State.reg_setPts

/-- A bad exchange is discarded and counted. -/
theorem exchange_bad (hs : s.inReset = false)
    (hl : ¬ (s.ptpState p = ptpSlave ∧ s.on (R.PTS_STATUS p) F.PTS_STATUS_LD_VALID = false)) :
    Answers (exec (.linkDelayExchange p t1 t2 t3 t4 true) s) fun t =>
      t.g (R.PTS_LD_CNT p) F.PTS_LD_CNT_DISCARDS = min (s.g (R.PTS_LD_CNT p) F.PTS_LD_CNT_DISCARDS + 1) 65535 ∧
      s.sameBut t [R.PTS_LD_CNT p] ∧ s.sameParts t [] := by
  show Answers (done s ((s.ldExchange p t1 t2 t3 t4 true).ptpLdCheck p)) _
  have e1 : R.PTP_Pn_STATUS p ≠ R.PTS_LD_CNT p := by simp only [R.PTP_Pn_STATUS, R.PTS_LD_CNT]; omega
  have e2 : R.PTS_STATUS p ≠ R.PTS_LD_CNT p := by simp only [R.PTS_STATUS, R.PTS_LD_CNT]; omega
  rw [ldExchange_bad, ptpLdCheck_stays (by simpa [State.ptpState, State.on, State.g, e1, e2] using hl)]
  exact Answers.ofChanges (A := (· ∈ [R.PTS_LD_CNT p])) (ps := []) hs (by simp) fun u L C =>
    ⟨(L.g (by simp) _).trans (State.g_inc (by decide)), C.sameBut, C.parts⟩

/-- An outlier is counted and left out. -/
theorem exchange_outlier (hs : s.inReset = false) (hv : s.on (R.PTS_STATUS p) F.PTS_STATUS_LD_VALID = true)
    (hx : s.farDelay p (delaySample t1 t2 t3 t4)) (hu : (s.ptsOf p).outliers < 7) :
    Answers (exec (.linkDelayExchange p t1 t2 t3 t4 false) s) fun t =>
      t.g (R.PTS_LD_CNT p) F.PTS_LD_CNT_OUTLIERS = min (s.g (R.PTS_LD_CNT p) F.PTS_LD_CNT_OUTLIERS + 1) 65535 ∧
      (t.ptsOf p).outliers = (s.ptsOf p).outliers + 1 ∧ (t.ptsOf p).ld = (s.ptsOf p).ld ∧
      s.sameBut t [R.PTS_LD_CNT p] ∧ s.sameParts t [.pts] := by
  show Answers (done s ((s.ldExchange p t1 t2 t3 t4 false).ptpLdCheck p)) _
  have e2 : R.PTS_STATUS p ≠ R.PTS_LD_CNT p := by simp only [R.PTS_STATUS, R.PTS_LD_CNT]; omega
  have hv' : ((s.inc (R.PTS_LD_CNT p) F.PTS_LD_CNT_OUTLIERS).setPts p
      { s.ptsOf p with outliers := (s.ptsOf p).outliers + 1 }).on (R.PTS_STATUS p) F.PTS_STATUS_LD_VALID = true := by
    simpa [State.on, State.g, e2] using hv
  rw [ldExchange_good, ldSample_outlier hv hx hu, ptpLdCheck_stays (by simp [hv'])]
  refine Answers.ofChanges (A := (· ∈ [R.PTS_LD_CNT p])) (ps := [.pts]) hs (by simp) fun u L C => ?_
  have hp : u.ptsOf p = { s.ptsOf p with outliers := (s.ptsOf p).outliers + 1 } := by
    rw [L.ptsOf, State.ptsOf_setPts, if_pos rfl]
  refine ⟨?_, by rw [hp], by rw [hp], C.sameBut, C.parts⟩
  exact (L.g (by simp) _).trans (State.g_setPts.trans (State.g_inc (by decide)))

/-- A sample that enters the window. -/
theorem exchange_window {P : State → Prop} (hs : s.inReset = false)
    (hv : s.on (R.PTS_STATUS p) F.PTS_STATUS_LD_VALID = true → ¬ s.farDelay p (delaySample t1 t2 t3 t4))
    (hl : ¬ (s.ptpState p = ptpSlave ∧ (s.setWindow p (delaySample t1 t2 t3 t4 :: (s.ptsOf p).ld)).on (R.PTS_STATUS p)
      F.PTS_STATUS_LD_VALID = false))
    (hP : ∀ u, Logs (s.setWindow p (delaySample t1 t2 t3 t4 :: (s.ptsOf p).ld)) u →
      Changes (windowRegs p) [.pts, .free] s u → P u) :
    Answers (exec (.linkDelayExchange p t1 t2 t3 t4 false) s) P := by
  show Answers (done s ((s.ldExchange p t1 t2 t3 t4 false).ptpLdCheck p)) _
  rw [ldExchange_good, ldSample_takes hv, ptpLdCheck_stays (by rwa [setWindow_ptpState])]
  exact Answers.ofChanges hs (by simp) hP

/-- The first sample of a window of one. -/
theorem exchange_first (hs : s.inReset = false) (hv : s.on (R.PTS_STATUS p) F.PTS_STATUS_LD_VALID = false)
    (hn : s.g (R.PTS_LD_CFG p) F.PTS_LD_CFG_LOG2_N = 0) :
    Answers (exec (.linkDelayExchange p t1 t2 t3 t4 false) s) fun t =>
      t.pair (R.PTS_LD_MEAN_LO p) = enc 64 (delaySample t1 t2 t3 t4) ∧ (t.ptsOf p).ld = [delaySample t1 t2 t3 t4] ∧
      t.g (R.PTS_STATUS p) F.PTS_STATUS_LD_VALID = 1 ∧
      s.sameBut t [R.PTS_LD_MEAN_LO p, R.PTS_LD_MEAN_LO p + 4, R.PTS_LD_IN_LO p, R.PTS_LD_IN_LO p + 4,
        R.PTS_LD_OUT_LO p, R.PTS_LD_OUT_LO p + 4, R.PTS_STATUS p] ∧
      s.sameParts t [.pts, .free] := by
  have hg := setWindow_valid (s := s) (n := p) (l := delaySample t1 t2 t3 t4 :: (s.ptsOf p).ld) (by simp [hn])
  have ho := (State.on_iff rfl).2 hg
  refine exchange_window hs (by simp [hv]) (by simp [ho]) fun u L C => ⟨?_, ?_, ?_, C.sameBut, C.parts⟩
  · rw [L.pair (sharedReg_LD_MEAN p).1 (sharedReg_LD_MEAN p).2, setWindow_mean_one hn]
  · rw [L.ptsOf, setWindow_pts, hn]
    rfl
  · rw [L.g (by simp), hg]

/-- Any sample that is no outlier. -/
theorem exchange_takes (hs : s.inReset = false)
    (hl : ¬ (s.ptpState p = ptpSlave ∧ s.on (R.PTS_STATUS p) F.PTS_STATUS_LD_VALID = false))
    (hv : s.on (R.PTS_STATUS p) F.PTS_STATUS_LD_VALID = true → ¬ s.farDelay p (delaySample t1 t2 t3 t4)) :
    Answers (exec (.linkDelayExchange p t1 t2 t3 t4 false) s) fun t =>
      (t.ptsOf p).ld = (delaySample t1 t2 t3 t4 :: (s.ptsOf p).ld).take (2 ^ s.g (R.PTS_LD_CFG p) F.PTS_LD_CFG_LOG2_N) ∧
      (t.ptsOf p).outliers = 0 ∧
      (2 ^ s.g (R.PTS_LD_CFG p) F.PTS_LD_CFG_LOG2_N ≤ (s.ptsOf p).ld.length + 1 → t.g (R.PTS_STATUS p)
        F.PTS_STATUS_LD_VALID = 1) ∧
      s.sameBut t [R.PTS_LD_MEAN_LO p, R.PTS_LD_MEAN_LO p + 4, R.PTS_LD_IN_LO p, R.PTS_LD_IN_LO p + 4,
        R.PTS_LD_OUT_LO p, R.PTS_LD_OUT_LO p + 4, R.PTS_STATUS p] ∧
      s.sameParts t [.pts, .free] := by
  refine exchange_window hs hv (fun ⟨h, k⟩ => ?_) fun u L C => ⟨?_, ?_, fun h => ?_, C.sameBut, C.parts⟩
  · cases hb : s.on (R.PTS_STATUS p) F.PTS_STATUS_LD_VALID
    · exact hl ⟨h, hb⟩
    · exact Bool.false_ne_true (k.symm.trans (setWindow_keeps hb))
  · rw [L.ptsOf, setWindow_pts]
  · rw [L.ptsOf, setWindow_pts]
  · rw [L.g (by simp)]
    exact setWindow_valid (by simpa using h)

/-- A window of one sample holds it. -/
theorem setWindow_singleton {n : Nat} : ((s.setWindow n [x]).ptsOf n).ld = [x] := by
  rw [setWindow_pts]
  exact List.take_of_length_le Nat.one_le_two_pow

@[simp] theorem setWindow_hif {l : List Int} {n : Nat} : (s.setWindow n l).hif = s.hif := by
  unfold State.setWindow State.asymmetry
  simp [hif_ite]

/-- A window leaves the events of the port as they were. -/
theorem setWindow_raw {l : List Int} : (s.setWindow p l).reg (R.PTS_RAW p) = s.reg (R.PTS_RAW p) := by
  unfold State.setWindow
  have h2 : R.PTS_RAW p ≠ R.PTS_LD_MEAN_LO p + 4 := by simp only [R.PTS_RAW, R.PTS_LD_MEAN_LO]; omega
  have h3 : R.PTS_RAW p ≠ R.PTS_LD_IN_LO p + 4 := by simp only [R.PTS_RAW, R.PTS_LD_IN_LO]; omega
  have h4 : R.PTS_RAW p ≠ R.PTS_LD_OUT_LO p + 4 := by simp only [R.PTS_RAW, R.PTS_LD_OUT_LO]; omega
  have k {x : State} : (x.asymmetry p).reg (R.PTS_RAW p) = x.reg (R.PTS_RAW p) := reg_asymmetry (by simp) h3 (by simp) h4
  simp [k, h2, State.reg_ite]

/-- A restart leaves the state of the PTP port. -/
theorem ldRestart_ptpState : (s.ldRestart p x).ptpState p = s.ptpState p := by
  have e1 : R.PTP_Pn_STATUS p ≠ R.PTS_LD_CNT p := by simp only [R.PTP_Pn_STATUS, R.PTS_LD_CNT]; omega
  have e2 : R.PTP_Pn_STATUS p ≠ R.PTS_STATUS p := by simp only [R.PTP_Pn_STATUS, R.PTS_STATUS]; omega
  have e3 : R.PTP_Pn_STATUS p ≠ R.PTS_RAW p := by simp only [R.PTP_Pn_STATUS, R.PTS_RAW]; omega
  have e4 : R.PTP_Pn_STATUS p ≠ R.HIF_FQ_STATUS := by simp only [R.PTP_Pn_STATUS, R.HIF_FQ_STATUS]; omega
  have e5 : R.PTP_Pn_STATUS p ≠ R.HIF_RAW := by simp only [R.PTP_Pn_STATUS, R.HIF_RAW]; omega
  unfold State.ldRestart
  rw [setWindow_ptpState]
  simp [State.ptpState, State.g, State.clearWindow, e1, e2, e3, e4, e5]

/-- The eighth outlier in a row restarts the window. -/
theorem exchange_restart (hs : s.inReset = false) (hv : s.on (R.PTS_STATUS p) F.PTS_STATUS_LD_VALID = true)
    (hp : s.ptpState p ≠ ptpSlave) (hx : s.farDelay p (delaySample t1 t2 t3 t4)) (hu : 7 ≤ (s.ptsOf p).outliers)
    (hf : s.hif.fq.length < 32) :
    Answers (exec (.linkDelayExchange p t1 t2 t3 t4 false) s) fun t =>
      (t.ptsOf p).ld = [delaySample t1 t2 t3 t4] ∧ t.isSet (R.PTS_RAW p) F.PTS_RAW_LD_RESTART ∧
      (∃ f ∈ t.hif.fq, f.block = 6 ∧ f.code = 2 ∧ f.detail = p.val) ∧
      s.sameBut t [R.PTS_LD_MEAN_LO p, R.PTS_LD_MEAN_LO p + 4, R.PTS_LD_IN_LO p, R.PTS_LD_IN_LO p + 4,
        R.PTS_LD_OUT_LO p, R.PTS_LD_OUT_LO p + 4, R.PTS_STATUS p, R.PTS_LD_CNT p] ∧
      s.sameParts t [.pts, .free] := by
  show Answers (done s ((s.ldExchange p t1 t2 t3 t4 false).ptpLdCheck p)) _
  rw [ldExchange_good, ldSample_restart hv hx hu, ptpLdCheck_stays (fun k => hp (ldRestart_ptpState.symm.trans k.1))]
  refine Answers.ofChanges (A := (· ∈ [R.PTS_LD_MEAN_LO p, R.PTS_LD_MEAN_LO p + 4, R.PTS_LD_IN_LO p, R.PTS_LD_IN_LO p + 4,
      R.PTS_LD_OUT_LO p, R.PTS_LD_OUT_LO p + 4, R.PTS_STATUS p, R.PTS_LD_CNT p])) (ps := [.pts, .free]) hs
    (by simp [State.ldRestart, State.clearWindow]) fun u L C => ⟨?_, ?_, ?_, C.sameBut, C.parts⟩
  · rw [L.ptsOf]
    exact setWindow_singleton
  · have h4 : R.PTS_RAW p ≠ R.HIF_FQ_STATUS := by simp only [R.PTS_RAW, R.HIF_FQ_STATUS]; omega
    have h5 : R.PTS_RAW p ≠ R.HIF_RAW := by simp only [R.PTS_RAW, R.HIF_RAW]; omega
    refine L.isSet (by simp) (by decide) rfl ?_
    unfold State.isSet State.ldRestart State.g
    rw [setWindow_raw, State.reg_fault h4 h5]
    exact State.isSet_raw (by decide) rfl
  · have hm := State.mem_fq_fault (s := ((s.inc (R.PTS_LD_CNT p) F.PTS_LD_CNT_OUTLIERS).clearWindow p).raw (R.PTS_RAW p)
      F.PTS_RAW_LD_RESTART) (k := 6) (c := 2) (d := p) (p := enc 32 (divRound ((delaySample t1 t2 t3 t4 -
        s.pairI (R.PTS_LD_MEAN_LO p)) * 1000) 65536)) (by simpa [State.clearWindow] using hf)
    rw [← setWindow_hif (n := p) (l := [delaySample t1 t2 t3 t4])] at hm
    exact ⟨_, L.fq.subset hm, rfl, rfl, Nat.mod_eq_of_lt (lt_trans p.isLt (by decide))⟩

end Sys2Proof.Machine
end

section

/-! ## Loopback, fibre temperature and the two-step FIFO of a port (R187, R192, R197) -/

set_option Elab.async false

namespace Sys2Proof.Machine

variable {A : Nat → Prop} {ps : List Part} {s t : State} {a n q : Nat} {old v w : Word} {x : StampIn} {d : Stamp} {p : Fin 24}

@[simp] theorem sharedReg_LOOP_STATUS (p : Fin 24) : sharedReg (R.PTS_LOOP_STATUS p) = false := by revert p; decide
@[simp] theorem sharedReg_LOOP_CTRL (p : Fin 24) : sharedReg (R.PTS_LOOP_CTRL p) = false := by revert p; decide
@[simp] theorem sharedReg_LOOP_MEAN (p : Fin 24) :
    sharedReg (R.PTS_LOOP_MEAN_LO p) = false ∧ sharedReg (R.PTS_LOOP_MEAN_LO p + 4) = false := by revert p; decide

/-! ### What writes of a port's stamping registers trigger -/

theorem act_ofPts (h : 0x50000 ≤ a) (h' : a < 0x60000) : s.act a old v = s.actPts a v := by
  unfold State.act
  rw [if_neg (by omega), if_neg (by omega), if_neg (by omega), if_neg (by omega), if_neg (by omega), if_neg (by omega),
    if_pos h']

theorem act_ftempNow (p : Fin 24) : s.act (R.PTS_FTEMP_NOW p) old v = s.ftempNowAct p := by
  rw [act_ofPts (by simp only [R.PTS_FTEMP_NOW]; omega) (by simp only [R.PTS_FTEMP_NOW]; omega)]
  have e : (R.PTS_FTEMP_NOW p - 0x50000) / 0x400 = p := by simp only [R.PTS_FTEMP_NOW]; omega
  unfold State.actPts
  simp [e]

theorem act_loopCtrl (p : Fin 24) : s.act (R.PTS_LOOP_CTRL p) old v = s.loopCtrlAct p v := by
  rw [act_ofPts (by simp only [R.PTS_LOOP_CTRL]; omega) (by simp only [R.PTS_LOOP_CTRL]; omega)]
  have e : (R.PTS_LOOP_CTRL p - 0x50000) / 0x400 = p := by simp only [R.PTS_LOOP_CTRL]; omega
  unfold State.actPts
  simp [e]

theorem act_ptsFifoPop (p : Fin 24) (hv : F.PTS_FIFO_POP_POP.get v = 1) :
    s.act (R.PTS_FIFO_POP p) old v = s.popStamp p := by
  rw [act_ofPts (by simp only [R.PTS_FIFO_POP]; omega) (by simp only [R.PTS_FIFO_POP]; omega)]
  have e : (R.PTS_FIFO_POP p - 0x50000) / 0x400 = p := by simp only [R.PTS_FIFO_POP]; omega
  unfold State.actPts
  simp [e, hv]

theorem ownWord_ftempNow (p : Fin 24) : ownWord (R.PTS_FTEMP_NOW p) = true := by revert p; decide
theorem ownWord_loopCtrl (p : Fin 24) : ownWord (R.PTS_LOOP_CTRL p) = true := by revert p; decide
theorem ownWord_ptsFifoPop (p : Fin 24) : ownWord (R.PTS_FIFO_POP p) = true := by revert p; decide
theorem unstored_ptsFifoPop (p : Fin 24) : (fieldsAt (R.PTS_FIFO_POP p)).any Field.stored = false := by revert p; decide

/-- A pending scan leaves the registers of the stamping units as they were. -/
theorem pts_ne_scan (h : 0x50000 ≤ a) : a ≠ R.HIF_CFG_CRC_STATUS := by
  simp only [R.HIF_CFG_CRC_STATUS]
  omega

/-! ### Conditions that a clock shows (R53) -/

/-- A condition that holds is set in its raw status register. -/
theorem isSet_of_cond {f : Fld} (hc : t.condsShown) (ha : (rawBlock a).isSome = true) (hf : f.lo < 32) (hw : f.w = 1)
    (h : f.get (Tbl.get 0#32 t.conds a) = 1) : t.isSet a f := by
  obtain ⟨i, k⟩ := f
  subst hw
  rcases Tbl.get_mem 0#32 t.conds a with e | hm
  · rw [e] at h
    simp [Fld.get] at h
  · refine (bit_iff hf).2 ?_
    have hb := (bit_iff hf).1 h
    calc t.reg a &&& BitVec.ofNat 32 (2 ^ i)
        = t.reg a &&& (Tbl.get 0#32 t.conds a &&& BitVec.ofNat 32 (2 ^ i)) := by rw [hb]
      _ = t.reg a &&& Tbl.get 0#32 t.conds a &&& BitVec.ofNat 32 (2 ^ i) := (BitVec.and_assoc ..).symm
      _ = Tbl.get 0#32 t.conds a &&& BitVec.ofNat 32 (2 ^ i) := by rw [hc _ hm ha]
      _ = BitVec.ofNat 32 (2 ^ i) := hb

/-- A condition that is set or cleared reads back. -/
theorem State.get_cond {f : Fld} {b : Bool} (hf : f.lo + f.w ≤ 32) (hw : f.w = 1) :
    f.get (Tbl.get 0#32 (s.cond a f b).conds a) = b2n b := by
  rw [State.cond_conds, Tbl.get_set_same, Fld.get_put hf, hw]
  cases b <;> rfl

/-- An answer shows the conditions that hold. -/
theorem Answers.ofDoneShown {P : State → Prop} (h : s.inReset = false) (hP : ∀ u, Logs t u → u.condsShown → P u) :
    Answers (done s t) P := ⟨_, done_next h, hP _ (Logs.refl t).endClock condsShown_endClock⟩

/-! ### Fibre temperature -/

/-- A write of the fibre temperature ends staleness. -/
theorem ftempNow_fresh (p : Fin 24) (h : s.accepts (R.PTS_FTEMP_NOW p)) : Answers (exec (.ftempNowWrite p v) s) fun t =>
    t.reg (R.PTS_FTEMP_NOW p) = s.formWord (R.PTS_FTEMP_NOW p) v ∧
    F.PTS_RAW_FTEMP_STALE.get (Tbl.get 0#32 t.conds (R.PTS_RAW p)) = 0 ∧
    s.sameBut t [R.PTS_FTEMP_NOW p, R.HIF_CFG_CRC_STATUS] ∧ s.sameParts t [.conds] := by
  have hne := pts_ne_scan (a := R.PTS_FTEMP_NOW p) (by simp only [R.PTS_FTEMP_NOW]; omega)
  refine Answers.ofWrite (A := (· ∈ [R.PTS_FTEMP_NOW p, R.HIF_CFG_CRC_STATUS])) (ps := [.conds]) h (ownWord_ftempNow p)
    (act_ftempNow p) (by simp [State.ftempNowAct]) (by simp) fun u w L C => ⟨?_, ?_, C.sameBut, C.parts⟩
  · rw [L.reg _ (by simp), State.reg_setReg_ne _ hne]
    exact State.reg_cond.trans (State.reg_setReg_same ..)
  · rw [L.conds, State.setReg_conds, State.ftempNowAct, State.get_cond (by decide) rfl]
    rfl

/-- Without a write of the fibre temperature in time it is stale. -/
theorem ftempStale_stale (hs : s.inReset = false) (h : s.on (R.PTS_CFG p) F.PTS_CFG_FTEMP_EN = true) :
    Answers (exec (.ftempStale p) s) fun t =>
      t.isSet (R.PTS_RAW p) F.PTS_RAW_FTEMP_STALE ∧ s.sameBut t [] ∧ s.sameParts t [.conds] := by
  show Answers (done s (s.ftempStale p)) _
  rw [show s.ftempStale p = s.cond (R.PTS_RAW p) F.PTS_RAW_FTEMP_STALE true from if_pos h]
  have C : Changes (· ∈ []) [.conds] s (s.cond (R.PTS_RAW p) F.PTS_RAW_FTEMP_STALE true) := by simp
  refine Answers.ofDoneShown hs fun u L hc => ⟨isSet_of_cond hc (by simp) (by decide) rfl ?_, (C.logs L).sameBut, (C.logs L).parts⟩
  rw [L.conds, State.get_cond (by decide) rfl]
  rfl

/-! ### The two-step FIFO -/

/-- POP removes the oldest record. -/
theorem ptsFifoPop_pops (p : Fin 24) {r : Word × Word × Word × Word} {l : List (Word × Word × Word × Word)}
    (h : s.accepts (R.PTS_FIFO_POP p)) (hf : (s.ptsOf p).fifo = r :: l) (hl : l.length < 64) :
    Answers (exec (.ptsFifoPop p v) s) fun t =>
      (t.ptsOf p).fifo = l ∧ t.g (R.PTS_FIFO_STATUS p) F.PTS_FIFO_STATUS_DEPTH = l.length ∧
      s.sameBut t [R.PTS_FIFO_STATUS p] ∧ s.sameParts t [.pts] := by
  have hpop : F.PTS_FIFO_POP_POP.get (F.PTS_FIFO_POP_POP.put v 1) = 1 := Fld.get_put (by decide) ..
  have e {y : State} (hy : (y.ptsOf p).fifo = r :: l) : y.popStamp p = y.setFifoOf p l := by
    unfold State.popStamp
    simp only [hy]
  refine Answers.ofCommand (A := (· ∈ [R.PTS_FIFO_STATUS p])) (ps := [.pts]) h (ownWord_ptsFifoPop p)
    (unstored_ptsFifoPop p) ((act_ptsFifoPop p hpop).trans (e hf)) (by simp [State.setFifoOf])
    fun u L C => ⟨?_, ?_, C.sameBut, C.parts⟩
  · rw [L.ptsOf]
    exact congrArg Pts.fifo (State.ptsOf_setPts.trans (if_pos rfl))
  · rw [L.g (by simp)]
    exact (State.g_p_same (by decide) _).trans (Nat.mod_eq_of_lt (lt_trans hl (by decide)))

/-! ### Loopback -/

theorem looping_iff (p : Fin 24) : s.looping p = true ↔ s.g (R.PTS_LOOP_STATUS p) F.PTS_LOOP_STATUS_RUNNING = 1 := by
  unfold State.looping
  rw [decide_eq_true p.isLt, Bool.true_and, State.on_iff rfl]

theorem looping_of_reg (h : t.reg (R.PTS_LOOP_STATUS n) = s.reg (R.PTS_LOOP_STATUS n)) : t.looping n = s.looping n := by
  unfold State.looping State.on State.g
  rw [h]

/-- GO starts a measurement. -/
theorem loopbackGo_starts (p : Fin 24) (h : s.accepts (R.PTS_LOOP_CTRL p)) (hl : s.looping p = false) :
    Answers (exec (.loopbackGo p v) s) fun t =>
      t.looping p = true ∧ t.reg (R.PTS_LOOP_STATUS p) = F.PTS_LOOP_STATUS_RUNNING.put 0#32 1 ∧
      s.sameBut t [R.PTS_LOOP_CTRL p, R.PTS_LOOP_STATUS p, R.HIF_CFG_CRC_STATUS] ∧ s.sameParts t [.pts] := by
  have hgo : F.PTS_LOOP_CTRL_GO.get (F.PTS_LOOP_CTRL_GO.put v 1) = 1 := Fld.get_put (by decide) ..
  have hr : R.PTS_LOOP_STATUS p ≠ R.PTS_LOOP_CTRL p := by simp only [R.PTS_LOOP_STATUS, R.PTS_LOOP_CTRL]; omega
  have hc := pts_ne_scan (a := R.PTS_LOOP_STATUS p) (by simp only [R.PTS_LOOP_STATUS]; omega)
  have e {y : State} (hy : y.looping p = false) (w : Word) (hw : F.PTS_LOOP_CTRL_GO.get w = 1) : y.loopCtrlAct p w =
      (y.setPts p { y.ptsOf p with loop := ⟨0, [], 0, 0, 0⟩ }).setReg (R.PTS_LOOP_STATUS p)
        (F.PTS_LOOP_STATUS_RUNNING.put 0#32 1) := by
    unfold State.loopCtrlAct State.loopAbort State.loopGo
    simp [hw, hy]
  refine Answers.ofWrite (A := (· ∈ [R.PTS_LOOP_CTRL p, R.PTS_LOOP_STATUS p, R.HIF_CFG_CRC_STATUS])) (ps := [.pts]) h
    (ownWord_loopCtrl p) ((act_loopCtrl p).trans (e ((looping_of_reg (State.reg_setReg_ne _ hr _)).trans hl) _ hgo))
    (by simp) (by simp) fun u w L C => ?_
  have hu : u.reg (R.PTS_LOOP_STATUS p) = F.PTS_LOOP_STATUS_RUNNING.put 0#32 1 := by
    rw [L.reg _ (by simp), State.reg_setReg_ne _ hc]
    exact State.reg_setReg_same ..
  exact ⟨(looping_iff p).2 ((congrArg F.PTS_LOOP_STATUS_RUNNING.get hu).trans (by decide)), hu, C.sameBut, C.parts⟩

/-- ABORT ends a measurement. -/
theorem loopbackAbort_ends (p : Fin 24) (h : s.accepts (R.PTS_LOOP_CTRL p)) (hl : s.looping p = true)
    (hv : F.PTS_LOOP_CTRL_GO.get v = 0) : Answers (exec (.loopbackAbort p v) s) fun t =>
      t.looping p = false ∧ t.g (R.PTS_LOOP_STATUS p) F.PTS_LOOP_STATUS_VALID = 0 ∧
      s.sameBut t [R.PTS_LOOP_CTRL p, R.PTS_LOOP_STATUS p, R.HIF_CFG_CRC_STATUS] ∧ s.sameParts t [] := by
  have hab : F.PTS_LOOP_CTRL_ABORT.get (F.PTS_LOOP_CTRL_ABORT.put v 1) = 1 := Fld.get_put (by decide) ..
  have hgo : F.PTS_LOOP_CTRL_GO.get (F.PTS_LOOP_CTRL_ABORT.put v 1) = 0 :=
    (Fld.get_put_ne (by decide) (by decide) ..).trans hv
  have hr : R.PTS_LOOP_STATUS p ≠ R.PTS_LOOP_CTRL p := by simp only [R.PTS_LOOP_STATUS, R.PTS_LOOP_CTRL]; omega
  have hc := pts_ne_scan (a := R.PTS_LOOP_STATUS p) (by simp only [R.PTS_LOOP_STATUS]; omega)
  have e {y : State} (hy : y.looping p = true) (w : Word) (h1 : F.PTS_LOOP_CTRL_ABORT.get w = 1)
      (h2 : F.PTS_LOOP_CTRL_GO.get w = 0) : y.loopCtrlAct p w = (y.p (R.PTS_LOOP_STATUS p) F.PTS_LOOP_STATUS_RUNNING 0).p
        (R.PTS_LOOP_STATUS p) F.PTS_LOOP_STATUS_VALID 0 := by
    unfold State.loopCtrlAct State.loopAbort
    simp [h1, h2, hy]
  refine Answers.ofWrite (A := (· ∈ [R.PTS_LOOP_CTRL p, R.PTS_LOOP_STATUS p, R.HIF_CFG_CRC_STATUS])) (ps := []) h
    (ownWord_loopCtrl p) ((act_loopCtrl p).trans (e ((looping_of_reg (State.reg_setReg_ne _ hr _)).trans hl) _ hab hgo))
    (by simp) (by simp) fun u w L C => ⟨?_, ?_, C.sameBut, C.parts⟩
  · have hg : u.g (R.PTS_LOOP_STATUS p) F.PTS_LOOP_STATUS_RUNNING = 0 := by
      rw [L.g (by simp), State.g_scan hc]
      simp [State.g, Fld.get_put_ne, Fld.get_put]
    cases hb : u.looping p
    · rfl
    · exact absurd ((looping_iff p).1 hb) (by simp [hg])
  · rw [L.g (by simp), State.g_scan hc]
    exact State.g_p_same (by decide) 0

end Sys2Proof.Machine
end

section

/-! ## The frames of a loopback measurement (R187), and O41 -/

set_option Elab.async false

namespace Sys2Proof.Machine

variable {A : Nat → Prop} {ps : List Part} {s t : State} {n q : Nat} {x : StampIn} {d : Stamp} {p : Fin 24}

/-- The measurement of a port. -/
def State.setLoop (s : State) (n : Nat) (l : Loopback) : State := s.setPts n { s.ptsOf n with loop := l }

@[simp] theorem Changes.setLoop_iff {l : Loopback} (h : .pts ∈ ps) : Changes A ps s (t.setLoop n l) ↔ Changes A ps s t :=
  Changes.setPts_iff t h

theorem State.loop_setLoop {l : Loopback} : ((s.setLoop n l).ptsOf n).loop = l :=
  congrArg Pts.loop (State.ptsOf_setPts.trans (if_pos rfl))

theorem State.g_setLoop {a : Nat} {f : Fld} {l : Loopback} : (s.setLoop n l).g a f = s.g a f := State.g_setPts

/-- A count that a command raises. -/
theorem Logs.counted {y u : State} {a m : Nat} {f : Fld} (L : Logs (y.inc a f) u) (ha : sharedReg a = false)
    (hf : f.lo + f.w ≤ 32) (hm : 2 ^ f.w - 1 = m) : u.g a f = min (y.g a f + 1) m := by
  rw [L.g ha, State.g_inc hf, hm]

/-- A calibration frame leaves while fewer than N have. -/
theorem loopTx_sends (hr : s.running = true) (hl : s.looping n = true)
    (hq : (s.ptsOf n).loop.sent < s.g (R.PTS_LOOP_CTRL n) F.PTS_LOOP_CTRL_N) :
    ∃ w, s.loopTx n x = (s.setLoop n { (s.ptsOf n).loop with sent := (s.ptsOf n).loop.sent + 1, way := w }).emit (.frame n
      (calFrame (s.ptsOf n).loop.sent ++ leBytes 4 (fcsOf (calFrame (s.ptsOf n).loop.sent)))) := by
  unfold State.loopTx
  simp only [hr, hl, hq, decide_true, Bool.and_self, if_true]
  exact ⟨_, rfl⟩

/-- A frame that returns with clean stamps gives a sample. -/
theorem loopRx_accepts (hl : s.looping n = true) (hd : Tbl.get none (s.ptsOf n).loop.way q = some d)
    (hc : stampClean d = true) (hc' : stampClean (s.rxStamp n x) = true) :
    ∃ lo hi, s.loopRx n q x = (s.setLoop n { (s.ptsOf n).loop with
        way := Tbl.drop q (s.ptsOf n).loop.way, sum := (s.ptsOf n).loop.sum + (t96Diff (s.rxStamp n x).t d.t).1
        least := lo, most := hi }).inc (R.PTS_LOOP_STATUS n) F.PTS_LOOP_STATUS_ACCEPTED := by
  unfold State.loopRx
  simp only [hd, hl, hc, hc', Bool.and_self, if_true]
  exact ⟨_, _, rfl⟩

/-- One whose stamps are not clean is lost. -/
theorem loopRx_loses (hl : s.looping n = true) (hd : Tbl.get none (s.ptsOf n).loop.way q = some d)
    (hc : (stampClean d && stampClean (s.rxStamp n x)) = false) :
    s.loopRx n q x = (s.setLoop n { (s.ptsOf n).loop with way := Tbl.drop q (s.ptsOf n).loop.way }).inc
      (R.PTS_LOOP_STATUS n) F.PTS_LOOP_STATUS_LOST := by
  unfold State.loopRx
  simp only [hd, hl, hc, if_true]
  rfl

/-- One that does not return in time is lost. -/
theorem loopTimeout_loses (hl : s.looping n = true) (hq : (Tbl.get none (s.ptsOf n).loop.way q).isSome = true) :
    s.loopTimeout n q = (s.setLoop n { (s.ptsOf n).loop with way := Tbl.drop q (s.ptsOf n).loop.way }).inc
      (R.PTS_LOOP_STATUS n) F.PTS_LOOP_STATUS_LOST := by
  unfold State.loopTimeout
  simp only [hl, hq, Bool.and_self, if_true]
  rfl

/-- The results of a measurement with `k` samples. -/
def State.loopResults (s : State) (n k : Nat) : State :=
  ((s.setPairI (R.PTS_LOOP_MEAN_LO n) (divRound (s.ptsOf n).loop.sum k)).setRegN (R.PTS_LOOP_SPAN n)
    (satU 32 ((s.ptsOf n).loop.most - (s.ptsOf n).loop.least).toNat)).p (R.PTS_LOOP_STATUS n) F.PTS_LOOP_STATUS_VALID 1

section
variable (hl : s.looping n = true) (hw : (s.ptsOf n).loop.way = [])
  (hn : (s.ptsOf n).loop.sent = s.g (R.PTS_LOOP_CTRL n) F.PTS_LOOP_CTRL_N)
include hl hw hn

/-- The end of a measurement without a sample. -/
theorem loopDone_empty (hk : s.g (R.PTS_LOOP_STATUS n) F.PTS_LOOP_STATUS_ACCEPTED = 0) :
    s.loopDone n = (s.p (R.PTS_LOOP_STATUS n) F.PTS_LOOP_STATUS_RUNNING 0).raw (R.PTS_RAW n) F.PTS_RAW_LOOP_DONE := by
  unfold State.loopDone
  simp [hl, hw, hn, hk]

/-- The end of a measurement with samples. -/
theorem loopDone_results (hk : s.g (R.PTS_LOOP_STATUS n) F.PTS_LOOP_STATUS_ACCEPTED ≠ 0) :
    s.loopDone n = ((s.loopResults n (s.g (R.PTS_LOOP_STATUS n) F.PTS_LOOP_STATUS_ACCEPTED)).p (R.PTS_LOOP_STATUS n)
      F.PTS_LOOP_STATUS_RUNNING 0).raw (R.PTS_RAW n) F.PTS_RAW_LOOP_DONE := by
  unfold State.loopDone State.loopResults
  simp [hl, hw, hn, hk]

end

/-- The end of a measurement stops it and sets LOOP_DONE, whatever its results. -/
theorem Logs.loopEnded {y u : State} (L : Logs ((y.p (R.PTS_LOOP_STATUS p) F.PTS_LOOP_STATUS_RUNNING 0).raw (R.PTS_RAW p)
    F.PTS_RAW_LOOP_DONE) u) : u.g (R.PTS_LOOP_STATUS p) F.PTS_LOOP_STATUS_VALID =
      y.g (R.PTS_LOOP_STATUS p) F.PTS_LOOP_STATUS_VALID ∧ u.looping p = false ∧ u.isSet (R.PTS_RAW p) F.PTS_RAW_LOOP_DONE := by
  have hne : R.PTS_LOOP_STATUS p ≠ R.PTS_RAW p := by simp only [R.PTS_LOOP_STATUS, R.PTS_RAW]; omega
  have e (f : Fld) := (L.g (a := R.PTS_LOOP_STATUS p) (by simp) f).trans (congrArg f.get ((State.reg_setReg_ne _ hne _).trans
    (State.reg_p.trans (if_pos rfl))))
  refine ⟨(e _).trans (Fld.get_put_ne (by decide) (by decide) ..), ?_, L.isSet (by simp) (by decide) rfl
    (State.isSet_raw (by decide) rfl)⟩
  cases hb : u.looping p
  · rfl
  · exact absurd (((looping_iff p).1 hb).symm.trans ((e _).trans (Fld.get_put (by decide) ..))) (by decide)

/-- What a measurement holds is no register. -/
theorem Logs.loop {y u : State} {l : Loopback} (L : Logs y u) (h : (y.ptsOf n).loop = l) : (u.ptsOf n).loop = l :=
  (congrArg Pts.loop (L.ptsOf n)).trans h

theorem loop_inc {a : Nat} {f : Fld} {l : Loopback} : (((s.setLoop n l).inc a f).ptsOf n).loop = l := State.loop_setLoop

section
variable (hs : s.inReset = false)
include hs

theorem loopbackFrameTx_sends (hr : s.running = true) (hl : s.looping p = true)
    (hq : (s.ptsOf p).loop.sent < s.g (R.PTS_LOOP_CTRL p) F.PTS_LOOP_CTRL_N) :
    Answers (exec (.loopbackFrameTx p x) s) fun t =>
      (t.ptsOf p).loop.sent = (s.ptsOf p).loop.sent + 1 ∧
      s.emits t (.frame p (calFrame (s.ptsOf p).loop.sent ++ leBytes 4 (fcsOf (calFrame (s.ptsOf p).loop.sent)))) ∧
      s.sameBut t [] ∧ s.sameParts t [.pts] := by
  obtain ⟨w, e⟩ := loopTx_sends (x := x) hr hl hq
  show Answers (done s (s.loopTx p x)) _
  rw [e]
  refine Answers.ofChanges (A := (· ∈ [])) (ps := [.pts]) hs (by simp) fun u L C => ⟨?_, L.out, C.sameBut, C.parts⟩
  exact congrArg Loopback.sent (L.loop State.loop_setLoop)

theorem loopbackFrameReturn_accepts (hr : s.running = true) (hl : s.looping p = true)
    (hd : Tbl.get none (s.ptsOf p).loop.way q = some d) (hc : stampClean d = true)
    (hc' : stampClean (s.rxStamp p x) = true) : Answers (exec (.loopbackFrameReturn p q x) s) fun t =>
      t.g (R.PTS_LOOP_STATUS p) F.PTS_LOOP_STATUS_ACCEPTED = min (s.g (R.PTS_LOOP_STATUS p)
        F.PTS_LOOP_STATUS_ACCEPTED + 1) 65535 ∧
      (t.ptsOf p).loop.sum = (s.ptsOf p).loop.sum + (t96Diff (s.rxStamp p x).t d.t).1 ∧
      Tbl.get none (t.ptsOf p).loop.way q = none ∧ s.sameBut t [R.PTS_LOOP_STATUS p] ∧ s.sameParts t [.pts] := by
  obtain ⟨lo, hi, e⟩ := loopRx_accepts hl hd hc hc'
  show Answers (done s (if s.running then s.loopRx p q x else s)) _
  rw [if_pos hr, e]
  refine Answers.ofChanges (A := (· ∈ [R.PTS_LOOP_STATUS p])) (ps := [.pts]) hs (by simp) fun u L C => ?_
  have hu := L.loop loop_inc
  refine ⟨?_, by rw [hu], by rw [hu]; exact Tbl.get_drop_same .., C.sameBut, C.parts⟩
  rw [L.counted (m := 65535) (by simp) (by decide) (by decide), State.g_setLoop]

theorem loopbackFrameReturn_loses (hr : s.running = true) (hl : s.looping p = true)
    (hd : Tbl.get none (s.ptsOf p).loop.way q = some d) (hc : (stampClean d && stampClean (s.rxStamp p x)) = false) :
    Answers (exec (.loopbackFrameReturn p q x) s) fun t =>
      t.g (R.PTS_LOOP_STATUS p) F.PTS_LOOP_STATUS_LOST = min (s.g (R.PTS_LOOP_STATUS p) F.PTS_LOOP_STATUS_LOST + 1)
        255 ∧
      (t.ptsOf p).loop.sum = (s.ptsOf p).loop.sum ∧ Tbl.get none (t.ptsOf p).loop.way q = none ∧
      s.sameBut t [R.PTS_LOOP_STATUS p] ∧ s.sameParts t [.pts] := by
  show Answers (done s (if s.running then s.loopRx p q x else s)) _
  rw [if_pos hr, loopRx_loses hl hd hc]
  refine Answers.ofChanges (A := (· ∈ [R.PTS_LOOP_STATUS p])) (ps := [.pts]) hs (by simp) fun u L C => ?_
  have hu := L.loop loop_inc
  refine ⟨?_, by rw [hu], by rw [hu]; exact Tbl.get_drop_same .., C.sameBut, C.parts⟩
  rw [L.counted (m := 255) (by simp) (by decide) (by decide), State.g_setLoop]

theorem loopbackFrameTimeout_loses (hl : s.looping p = true) (hq : (Tbl.get none (s.ptsOf p).loop.way q).isSome = true) :
    Answers (exec (.loopbackFrameTimeout p q) s) fun t =>
      t.g (R.PTS_LOOP_STATUS p) F.PTS_LOOP_STATUS_LOST = min (s.g (R.PTS_LOOP_STATUS p) F.PTS_LOOP_STATUS_LOST + 1)
        255 ∧
      Tbl.get none (t.ptsOf p).loop.way q = none ∧ s.sameBut t [R.PTS_LOOP_STATUS p] ∧ s.sameParts t [.pts] := by
  show Answers (done s (s.loopTimeout p q)) _
  rw [loopTimeout_loses hl hq]
  refine Answers.ofChanges (A := (· ∈ [R.PTS_LOOP_STATUS p])) (ps := [.pts]) hs (by simp) fun u L C => ?_
  have hu := L.loop loop_inc
  refine ⟨?_, by rw [hu]; exact Tbl.get_drop_same .., C.sameBut, C.parts⟩
  rw [L.counted (m := 255) (by simp) (by decide) (by decide), State.g_setLoop]

theorem loopbackDone_shows (hl : s.looping p = true) (hw : (s.ptsOf p).loop.way = [])
    (hn : (s.ptsOf p).loop.sent = s.g (R.PTS_LOOP_CTRL p) F.PTS_LOOP_CTRL_N)
    (hk : s.g (R.PTS_LOOP_STATUS p) F.PTS_LOOP_STATUS_ACCEPTED ≠ 0) : Answers (exec (.loopbackDone p) s) fun t =>
      t.pair (R.PTS_LOOP_MEAN_LO p) = enc 64 (divRound (s.ptsOf p).loop.sum (s.g (R.PTS_LOOP_STATUS p)
        F.PTS_LOOP_STATUS_ACCEPTED)) ∧
      t.g (R.PTS_LOOP_STATUS p) F.PTS_LOOP_STATUS_VALID = 1 ∧ t.looping p = false ∧
      t.isSet (R.PTS_RAW p) F.PTS_RAW_LOOP_DONE ∧
      s.sameBut t [R.PTS_LOOP_MEAN_LO p, R.PTS_LOOP_MEAN_LO p + 4, R.PTS_LOOP_SPAN p, R.PTS_LOOP_STATUS p] ∧
      s.sameParts t [] := by
  show Answers (done s (s.loopDone p)) _
  rw [loopDone_results hl hw hn hk]
  refine Answers.ofChanges (A := (· ∈ [R.PTS_LOOP_MEAN_LO p, R.PTS_LOOP_MEAN_LO p + 4, R.PTS_LOOP_SPAN p,
    R.PTS_LOOP_STATUS p])) (ps := []) hs (by simp [State.loopResults]) fun u L C => ?_
  obtain ⟨hv, hr, hd⟩ := L.loopEnded
  refine ⟨?_, hv.trans (State.g_p_same (by decide) 1), hr, hd, C.sameBut, C.parts⟩
  have k (a : Nat) (h : a = R.PTS_LOOP_MEAN_LO p ∨ a = R.PTS_LOOP_MEAN_LO p + 4) (w : Nat) :
      (((s.loopResults p w).p (R.PTS_LOOP_STATUS p) F.PTS_LOOP_STATUS_RUNNING 0).raw (R.PTS_RAW p)
        F.PTS_RAW_LOOP_DONE).reg a = (s.setPairI (R.PTS_LOOP_MEAN_LO p) (divRound (s.ptsOf p).loop.sum w)).reg a := by
    have h1 : a ≠ R.PTS_LOOP_STATUS p := by rcases h with rfl | rfl <;> simp only [R.PTS_LOOP_MEAN_LO, R.PTS_LOOP_STATUS] <;> omega
    have h2 : a ≠ R.PTS_LOOP_SPAN p := by rcases h with rfl | rfl <;> simp only [R.PTS_LOOP_MEAN_LO, R.PTS_LOOP_SPAN] <;> omega
    have h3 : a ≠ R.PTS_RAW p := by rcases h with rfl | rfl <;> simp only [R.PTS_LOOP_MEAN_LO, R.PTS_RAW] <;> omega
    rw [State.reg_raw, if_neg h3, State.reg_p_ne h1, State.loopResults, State.reg_p_ne h1, State.reg_setRegN, if_neg h2]
  rw [L.pair (sharedReg_LOOP_MEAN p).1 (sharedReg_LOOP_MEAN p).2, State.pair_congr (k _ (.inl rfl) _) (k _ (.inr rfl) _),
    State.pair_setPairI]

theorem loopbackDone_empty (hl : s.looping p = true) (hw : (s.ptsOf p).loop.way = [])
    (hn : (s.ptsOf p).loop.sent = s.g (R.PTS_LOOP_CTRL p) F.PTS_LOOP_CTRL_N)
    (hk : s.g (R.PTS_LOOP_STATUS p) F.PTS_LOOP_STATUS_ACCEPTED = 0) : Answers (exec (.loopbackDone p) s) fun t =>
      t.g (R.PTS_LOOP_STATUS p) F.PTS_LOOP_STATUS_VALID = s.g (R.PTS_LOOP_STATUS p) F.PTS_LOOP_STATUS_VALID ∧
      t.looping p = false ∧ t.isSet (R.PTS_RAW p) F.PTS_RAW_LOOP_DONE ∧ s.sameBut t [R.PTS_LOOP_STATUS p] ∧
      s.sameParts t [] := by
  show Answers (done s (s.loopDone p)) _
  rw [loopDone_empty hl hw hn hk]
  refine Answers.ofChanges (A := (· ∈ [R.PTS_LOOP_STATUS p])) (ps := []) hs (by simp) fun u L C => ?_
  obtain ⟨hv, hr, hd⟩ := L.loopEnded
  exact ⟨hv, hr, hd, C.sameBut, C.parts⟩

end

/-- Settles O41. -/
theorem linkDelayAndLoopback : Obligations.LinkDelayAndLoopback :=
  ⟨fun _ _ _ _ _ _ hs hl => exchange_bad hs hl, fun _ _ _ _ _ _ hs hv hn => exchange_first hs hv hn,
    fun _ _ _ _ _ _ hs hv hx hu => exchange_outlier hs hv hx hu,
    fun _ _ _ _ _ _ hs hv hp hx hu hf => exchange_restart hs hv hp hx hu hf,
    fun _ _ _ _ _ _ hs hl hv => exchange_takes hs hl fun h => not_lt.2 (hv h),
    fun _ p _ h => ftempNow_fresh p h, fun _ _ hs h => ftempStale_stale hs h,
    fun _ p _ _ _ h hf hl => ptsFifoPop_pops p h hf hl, fun _ p _ h hl => loopbackGo_starts p h hl,
    fun _ p _ h hl hv => loopbackAbort_ends p h hl hv, fun _ _ _ hs hr hl hq => loopbackFrameTx_sends hs hr hl hq,
    fun _ _ _ _ _ hs hr hl hd hc hc' => loopbackFrameReturn_accepts hs hr hl hd hc hc',
    fun _ _ _ hs hl hq => loopbackFrameTimeout_loses hs hl hq,
    fun _ _ hs hl hw hn hk => loopbackDone_shows hs hl hw hn hk,
    fun _ _ _ _ _ hs hr hl hd hc => loopbackFrameReturn_loses hs hr hl hd hc,
    fun _ _ hs hl hw hn hk => loopbackDone_empty hs hl hw hn hk⟩

end Sys2Proof.Machine
end

section

/-! ## Inputs and judged candidates of the reference selection (R102 to R112) -/

set_option Elab.async false

namespace Sys2Proof.Machine

variable {A : Nat → Prop} {ps : List Part} {s t : State} {a k m n : Nat} {x : RefIn} {c : Cand}

theorem State.refIn_of_ref (h : t.ref = s.ref) : t.refIn n = s.refIn n :=
  congrArg (fun x : RefSel => Tbl.get RefIn.reset x.ins n) h

@[simp] theorem State.refIn_setRefIn : (s.setRefIn n x).refIn m = if m = n then x else s.refIn m := Tbl.get_set

@[simp] theorem State.refIn_setCand : (s.setCand k c).refIn n = s.refIn n := rfl

@[simp] theorem State.cand_setRefIn : (s.setRefIn n x).cand k = s.cand k := rfl

@[simp] theorem State.reg_setRefIn : (s.setRefIn n x).reg a = s.reg a := State.reg_setRef

@[simp] theorem Changes.setRefIn_iff (h : .ref ∈ ps) : Changes A ps s (t.setRefIn n x) ↔ Changes A ps s t :=
  Changes.setRef_iff t h

@[simp] theorem Changes.judge_iff (h : A (R.REF_CANDk_STATUS k)) (hr : .ref ∈ ps) :
    Changes A ps s (t.judge k) ↔ Changes A ps s t := by
  unfold State.judge
  simp [h, hr]

/-- A judgement changes the candidates and the wait-to-restore alone. -/
theorem judge_ref : ∃ w, (s.judge k).ref = { s.ref with
    cands := Tbl.set Cand.reset s.ref.cands k { s.cand k with
      qual := (s.cand k).qual && s.candOk k, hold := !(s.cand k).qual && s.candOk k }
    wtr := w } := by
  unfold State.judge
  extract_lets u ok y z r
  have hz : ∃ w, z.ref = { y.ref with wtr := w } := by
    by_cases h : (u.qual && !ok) = true
    · exact ⟨_, (congrArg State.ref (if_pos h)).trans State.note_ref⟩
    · exact ⟨_, congrArg State.ref (if_neg h)⟩
  obtain ⟨w, e⟩ := hz
  exact ⟨w, State.setRegN_ref.trans e⟩

@[simp] theorem State.refIn_judge : (s.judge k).refIn n = s.refIn n := by
  obtain ⟨w, e⟩ := judge_ref (s := s) (k := k)
  unfold State.refIn
  rw [e]

/-- The judged candidate keeps its monitors. -/
theorem cand_judge : (s.judge k).cand k = { s.cand k with
    qual := (s.cand k).qual && s.candOk k, hold := !(s.cand k).qual && s.candOk k } := by
  obtain ⟨w, e⟩ := judge_ref (s := s) (k := k)
  unfold State.cand
  rw [e]
  exact Tbl.get_set_same ..

theorem reg_judge (h : a ≠ R.REF_RAW) (h' : a ≠ R.REF_CANDk_STATUS k) : (s.judge k).reg a = s.reg a := by
  unfold State.judge
  simp [h, h']

/-- A judgement clears no event. -/
theorem KeepsBits.judge (h : R.REF_RAW ≠ R.REF_CANDk_STATUS k) : KeepsBits R.REF_RAW s (s.judge k) := by
  unfold State.judge
  extract_lets u ok y z
  have hy : KeepsBits R.REF_RAW s y := .ofReg (by simp [y])
  have hz : KeepsBits R.REF_RAW y z := .ite (.trans (.trans (.ofReg reg_wtrReset) (.raw (by decide) rfl))
    (.ofReg reg_selRec)) .refl
  exact (hy.trans hz).trans (.ofReg (reg_showCand h))

theorem raw_ne_cand : R.REF_RAW ≠ R.REF_CANDk_STATUS k := by simp only [R.REF_RAW, R.REF_CANDk_STATUS]; omega

@[simp] theorem State.refIn_refreshJudging : s.refreshJudging.refIn n = s.refIn n := by
  unfold State.refreshJudging
  extract_lets j
  split <;> rfl

theorem KeepsBits.refreshJudging : KeepsBits R.REF_RAW s s.refreshJudging := .ofReg reg_refreshJudging

theorem Logs.cand {u : State} (L : Logs t u) (k : Nat) : u.cand k = t.cand k := State.cand_of_ref L.ref

theorem Logs.refIn {u : State} (L : Logs t u) (n : Nat) : u.refIn n = t.refIn n := State.refIn_of_ref L.ref

@[simp] theorem State.cand_selRec {e w j : Nat} {b : Nat} : (s.selRec b e k w).cand j = s.cand j := State.cand_of_ref State.note_ref

@[simp] theorem State.cand_raw {f : Fld} : (s.raw a f).cand k = s.cand k := State.cand_of_ref (State.setReg_ref ..)

@[simp] theorem State.refIn_raw {f : Fld} : (s.raw a f).refIn n = s.refIn n := State.refIn_of_ref (State.setReg_ref ..)

@[simp] theorem sharedReg_CAND_STATUS (k : Fin 30) : sharedReg (R.REF_CANDk_STATUS k) = false := by revert k; decide
@[simp] theorem sharedReg_CAND_FREQ (k : Fin 30) : sharedReg (R.REF_CANDk_FREQ k) = false := by revert k; decide

end Sys2Proof.Machine
end

section

/-! ## The monitors of a candidate and ESMC messages (R106 to R118) -/

set_option Elab.async false

namespace Sys2Proof.Machine

variable {A : Nat → Prop} {ps : List Part} {s t : State} {a : Nat} {y : Int} {b : Bool} {bs : List Byte}

/-! ### Activity intervals -/

/-- What decides an activity interval of candidate `k`. -/
abbrev State.intervalPasses (s : State) (k : Nat) : Bool :=
  if k < 4 then s.inputPass k else if k < 28 then s.on (R.PTS_STATUS (k - 4)) F.PTS_STATUS_BLOCK_LOCK
  else if k = 28 then s.partnerTime else s.ptpValid

/-- The edges of an input's interval are counted anew. -/
def State.intervalStart (s : State) (k : Nat) : State := if k < 4 then s.clearEdges k else s

theorem activityEnd_eq (k : Nat) : s.activityEnd k = (s.intervalStart k).activity k (s.intervalPasses k) := by
  unfold State.activityEnd State.intervalStart State.intervalPasses
  split <;> rfl

theorem intervalStart_ref (k : Nat) : (s.intervalStart k).cand k = s.cand k ∧ (s.intervalStart k).reg a = s.reg a ∧
    (k < 4 → ((s.intervalStart k).refIn k).count = 0 ∧ ((s.intervalStart k).refIn k).inside = false ∧
      ((s.intervalStart k).refIn k).outside = false) := by
  unfold State.intervalStart
  split
  · next h => exact ⟨rfl, State.reg_setRefIn, fun _ => by simp [State.clearEdges]⟩
  · next h => exact ⟨rfl, rfl, fun k => absurd k h⟩

/-- The counts and the verdict after an interval. -/
def State.intervalCand (s : State) (k : Nat) (b : Bool) : Cand :=
  let c := if b then { s.cand k with passes := (s.cand k).passes + 1, fails := 0 }
    else { s.cand k with fails := (s.cand k).fails + 1, passes := 0 }
  { c with act := if s.g R.REF_ACT F.REF_ACT_ACCEPT ≤ c.passes then .accept
      else if s.g R.REF_ACT F.REF_ACT_REJECT ≤ c.fails then .reject else c.act }

theorem activity_eq (k : Nat) : s.activity k b = ((s.setCand k (s.intervalCand k b)).judge k).refreshJudging := rfl

/-- The answer of an activity interval. -/
theorem activityAnswers {P : State → Prop} (k : Fin 30) (hs : s.inReset = false)
    (hP : ∀ u : State, (u.cand k).act = (s.intervalCand k (s.intervalPasses k)).act →
      (u.cand k).passes = (s.intervalCand k (s.intervalPasses k)).passes → (u.cand k).fails = (s.intervalCand k (s.intervalPasses k)).fails →
      (k.val < 4 → (u.refIn k).count = 0 ∧ (u.refIn k).inside = false ∧ (u.refIn k).outside = false) →
      s.sameBut u [R.REF_CANDk_STATUS k] → s.sameParts u [.ref] → P u) :
    Answers (exec (.activityInterval k) s) P := by
  show Answers (done s (s.activityEnd k)) _
  obtain ⟨hc, -, hi⟩ := intervalStart_ref (s := s) (a := 0) k
  have hg (f : Fld) : (s.intervalStart k).g R.REF_ACT f = s.g R.REF_ACT f :=
    congrArg f.get (intervalStart_ref (s := s) k).2.1
  have hk : (s.intervalStart k).intervalCand k (s.intervalPasses k) = s.intervalCand k (s.intervalPasses k) := by
    unfold State.intervalCand
    rw [hc, hg, hg]
  rw [activityEnd_eq, activity_eq, hk]
  have hC : Changes (· ∈ [R.REF_CANDk_STATUS k]) [.ref] s (s.intervalStart k) := by
    unfold State.intervalStart State.clearEdges
    simp
  refine Answers.ofChanges (A := (· ∈ [R.REF_CANDk_STATUS k])) (ps := [.ref]) hs
    ((Changes.refreshJudging_iff (by simp)).2 ((Changes.judge_iff (by simp) (by simp)).2
      ((Changes.setCand_iff (by simp)).2 hC))) fun u L C => ?_
  have e : u.cand k = _ := (L.cand k).trans (State.cand_refreshJudging.trans cand_judge)
  have ei : u.refIn k = (s.intervalStart k).refIn k := by
    rw [L.refIn, State.refIn_refreshJudging, State.refIn_judge, State.refIn_setCand]
  simp only [State.cand_setCand, if_true] at e
  exact hP u (by rw [e]) (by rw [e]) (by rw [e]) (by rw [ei]; exact hi) C.sameBut C.parts

/-! ### Gates -/

/-- A gate shows its result and enters it. -/
theorem freqGate_eq (k : Nat) : ∃ c : Cand, c.y = (y :: (s.cand k).y).take 65535 ∧
    s.freqGate k y = ((s.setRegI (R.REF_CANDk_FREQ k) y).setCand k c).judge k := by
  unfold State.freqGate
  extract_lets g u c l a d lim win p e
  refine ⟨e, ?_, rfl⟩
  have hd : d.y = (y :: (s.cand k).y).take 65535 := congrArg (fun c : Cand => (y :: c.y).take 65535)
    (State.cand_of_ref (s := s) (t := u) State.setRegN_ref)
  unfold e
  split <;> exact hd

theorem freqGateAnswers {P : State → Prop} (k : Fin 30) (hs : s.inReset = false) {v : State} {ps : List Part}
    (hr : .ref ∈ ps) (hv : Changes (· ∈ [R.REF_CANDk_FREQ k, R.REF_CANDk_STATUS k]) ps s v)
    (hP : ∀ u : State, u.reg (R.REF_CANDk_FREQ k) = BitVec.ofNat 32 (enc 32 y) → (u.cand k).y.head? = some y →
      s.sameBut u [R.REF_CANDk_FREQ k, R.REF_CANDk_STATUS k] → s.sameParts u ps → P u) :
    Answers (done s (v.freqGate k y)) P := by
  obtain ⟨c, hc, e⟩ := freqGate_eq (s := v) (y := y) k
  rw [e]
  have h1 : R.REF_CANDk_FREQ k ≠ R.REF_CANDk_STATUS k := by simp only [R.REF_CANDk_FREQ, R.REF_CANDk_STATUS]; omega
  have h2 : R.REF_CANDk_FREQ k ≠ R.REF_RAW := by simp only [R.REF_CANDk_FREQ, R.REF_RAW]; omega
  refine Answers.ofChanges (A := (· ∈ [R.REF_CANDk_FREQ k, R.REF_CANDk_STATUS k])) (ps := ps) hs ((Changes.judge_iff (by simp) hr).2 ((Changes.setCand_iff hr).2 ((Changes.setRegI_iff (by simp)).2 hv)))
    fun u L C => hP u ?_ ?_ C.sameBut C.parts
  · rw [L.reg _ (by simp), reg_judge h2 h1, State.reg_setCand]
    exact State.reg_setReg_same ..
  · rw [L.cand, cand_judge, State.cand_setCand, if_pos rfl, hc]
    rfl

/-! ### ESMC -/

theorem portQl_eq (n : Nat) : s.portQl n = (⟨4 * (n % 8), 4⟩ : Fld).get (s.reg (R.REF_PQL0 + 4 * (n / 8))) := rfl

theorem sharedReg_PQL (p : Fin 24) : sharedReg (R.REF_PQL0 + 4 * (p.val / 8)) = false := by revert p; decide

/-- The answer of a port whose QL is set. -/
theorem setPortQlAnswers {P : State → Prop} (p : Fin 24) {q : Nat} (hq : q < 16) (hs : s.inReset = false)
    (hP : ∀ u : State, u.portQl p = q → s.sameBut u [R.REF_PQL0 + 4 * (p.val / 8), R.REF_CANDk_STATUS (p.val + 4)] →
      s.sameParts u [.ref] → P u) : Answers (done s (s.setPortQl p q)) P := by
  have h1 : R.REF_PQL0 + 4 * (p.val / 8) ≠ R.REF_CANDk_STATUS (p.val + 4) := by
    simp only [R.REF_PQL0, R.REF_CANDk_STATUS]; omega
  have h2 : R.REF_PQL0 + 4 * (p.val / 8) ≠ R.REF_RAW := by simp only [R.REF_PQL0, R.REF_RAW]; omega
  refine Answers.ofChanges (A := (· ∈ [R.REF_PQL0 + 4 * (p.val / 8), R.REF_CANDk_STATUS (p.val + 4)])) (ps := [.ref]) hs
    (by simp [State.setPortQl]) fun u L C => hP u ?_ C.sameBut C.parts
  rw [portQl_eq, L.reg _ (sharedReg_PQL p), State.setPortQl, reg_judge h2 h1]
  exact (State.g_p_same (by show 4 * (p.val % 8) + 4 ≤ 32; omega) q).trans (Nat.mod_eq_of_lt hq)

theorem qlOf_lt (n : Nat) : qlOf n < 16 := by
  unfold qlOf
  split <;> omega

/-- A PDU leaves while transmission is enabled. -/
theorem sendEsmc_sends (n : Nat) (hr : s.running = true) (h : maskBit (s.g R.REF_ESMC_TX_EN F.REF_ESMC_TX_EN_EN) n = true) :
    ∃ x, s.sendEsmc n b = (s.setRef x).emit (.esmc n (s.txQlOf n) b) := by
  unfold State.sendEsmc
  simp only [hr, h, Bool.and_self, if_true]
  split
  · exact ⟨_, rfl⟩
  · exact ⟨s.ref, rfl⟩

theorem sendEsmc_still (n : Nat) (h : s.running = false ∨ maskBit (s.g R.REF_ESMC_TX_EN F.REF_ESMC_TX_EN_EN) n = false) :
    s.sendEsmc n b = s := by
  refine if_neg ?_
  rcases h with h | h <;> simp [h]

theorem esmcEvent_sends (n : Nat) (h : s.txQlOf n ≠ Tbl.get 16 s.ref.txQl n) (h' : Tbl.get 16 s.ref.txQl n ≠ 16) :
    s.esmcEvent n = s.sendEsmc n true := if_neg (by simp [h, h'])

/-- The answer of a PDU that leaves. -/
theorem esmcAnswers {P : State → Prop} (p : Fin 24) (hs : s.inReset = false) (hr : s.running = true)
    (h : maskBit (s.g R.REF_ESMC_TX_EN F.REF_ESMC_TX_EN_EN) p = true)
    (hP : ∀ u : State, s.emits u (.esmc p (s.txQlOf p) b) → s.sameBut u [] → s.sameParts u [.ref] → P u) :
    Answers (done s (s.sendEsmc p b)) P := by
  obtain ⟨x, e⟩ := sendEsmc_sends (b := b) p hr h
  rw [e]
  exact Answers.ofChanges (A := (· ∈ [])) (ps := [.ref]) hs (by simp) fun u L C => hP u L.out C.sameBut C.parts

/-! ### Hold-off and wait-to-restore -/

/-- A candidate that meets the conditions is qualified when its hold-off has run. -/
theorem holdoffExpiry_qualifies (k : Fin 30) (hs : s.inReset = false) (hh : (s.cand k).hold = true) (ho : s.candOk k = true) :
    Answers (exec (.holdoffExpiry k) s) fun t =>
      t.qualified k = true ∧ (t.cand k).hold = false ∧ t.isSet R.REF_RAW F.REF_RAW_QUALIFY ∧
      s.sameBut t [R.REF_CANDk_STATUS k] ∧ s.sameParts t [.ref] := by
  show Answers (done s (s.holdoffExpiry k)) _
  have e : s.holdoffExpiry k = (((s.setCand k { s.cand k with hold := false, qual := true }).raw R.REF_RAW
      F.REF_RAW_QUALIFY).selRec ((s.setCand k { s.cand k with hold := false, qual := true }).raw R.REF_RAW
      F.REF_RAW_QUALIFY).selState 6 k 0).showCand k := if_pos (by simp [hh, ho])
  rw [e]
  refine Answers.ofChanges (A := (· ∈ [R.REF_CANDk_STATUS k])) (ps := [.ref]) hs (by simp) fun u L C => ?_
  have hc : u.cand k = { s.cand k with hold := false, qual := true } := by
    rw [L.cand, State.cand_showCand, State.cand_selRec, State.cand_raw, State.cand_setCand, if_pos rfl]
  refine ⟨congrArg Cand.qual hc, congrArg Cand.hold hc, L.isSet (by simp) (by decide) rfl ?_, C.sameBut, C.parts⟩
  exact (congrArg F.REF_RAW_QUALIFY.get ((reg_showCand raw_ne_cand).trans reg_selRec)).trans
    (State.isSet_raw (by decide) rfl)

/-- A wait-to-restore that has run is remembered. -/
theorem wtrExpiry_remembers (e : Fin 16) (hs : s.inReset = false) (hp : s.prioOn e = true)
    (hq : s.qualified (s.prioCand e) = true) : Answers (exec (.wtrExpiry e) s) fun t =>
      e.val ∈ t.ref.wtr ∧ s.sameBut t [] ∧ s.sameParts t [.ref] := by
  show Answers (done s (s.wtrExpiry e)) _
  unfold State.wtrExpiry
  by_cases c : s.ref.wtr.contains e.val = true
  · rw [if_neg (by simp [hp, hq] at c ⊢; exact c)]
    exact Answers.ofChanges (A := (· ∈ [])) (ps := [.ref]) hs .refl fun u L C =>
      ⟨by rw [L.ref]; exact List.contains_iff_mem.1 c, C.sameBut, C.parts⟩
  · rw [if_pos (by simp [hp, hq] at c ⊢; exact c)]
    exact Answers.ofChanges (A := (· ∈ [])) (ps := [.ref]) hs (by simp) fun u L C =>
      ⟨by rw [L.ref]; exact List.mem_cons_self .., C.sameBut, C.parts⟩

/-- Settles O48. -/
theorem monitorsAndEsmc : Obligations.MonitorsAndEsmc := by
  refine ⟨fun s k hs hp => ?_, fun s k hs hp ha => ?_, fun s k raw hs hk => ?_, fun s raw hs => ?_, fun s k hs hh ho => ?_,
    fun s e hs hp hq => ?_, fun s k hs hp ha => ?_, fun s k hs h => ?_, fun s e hs h => ?_, fun s p b hs hr hl he h1 h2 => ?_,
    fun s p hs => ?_, fun s p hs hr h => ?_, fun s p hs hr h hq h16 => ?_, fun s p b hs h => ?_, fun s p hs h => ?_,
    fun s p hs h => ?_⟩
  · refine activityAnswers k hs fun u ha h1 h2 hi hb hq => ?_
    rw [show s.intervalPasses k = true from hp] at ha h1 h2
    simp only [State.intervalCand, if_true, Nat.le_zero] at ha h1 h2
    exact ⟨ha, h1, h2, hi, hb, hq⟩
  · refine activityAnswers k hs fun u h0 h1 h2 hi hb hq => ?_
    rw [show s.intervalPasses k = false from hp] at h0 h1 h2
    simp only [State.intervalCand, Bool.false_eq_true, if_false, Nat.le_zero, ha] at h0 h1 h2
    exact ⟨h0, h2, h1, hi, hb, hq⟩
  · show Answers (done s (s.gateEnd k raw)) _
    rw [show s.gateEnd k raw = s.freqGate k (s.gateResult raw) from if_neg (fun e => hk (Fin.ext e))]
    exact freqGateAnswers k hs (by simp) .refl fun u h1 h2 h3 h4 => ⟨h1, h2, h3, h4⟩
  · show Answers (done s (s.gateEnd 29 raw)) _
    rw [show s.gateEnd 29 raw = s.ptpGate.2.freqGate 29 s.ptpGate.1 from if_pos rfl]
    exact freqGateAnswers 29 hs (by simp) (by simp [State.ptpGate, State.startGate]) fun u h1 h2 h3 h4 => ⟨h1, h2, h3, h4⟩
  · exact holdoffExpiry_qualifies k hs hh ho
  · exact wtrExpiry_remembers e hs hp hq
  · refine activityAnswers k hs fun u h0 h1 h2 hi hb hq => ?_
    rw [show s.intervalPasses k = false from hp] at h0 h1 h2
    simp only [State.intervalCand, Bool.false_eq_true, if_false, ha, le_refl, if_true] at h0 h1 h2
    exact ⟨h0, h2, h1, hi, hb, hq⟩
  · exact Answers.still hs (if_neg (by rcases h with h | h <;> simp [h]))
  · exact Answers.still hs (if_neg (by rcases h with h | h <;> simp [h]))
  · show Answers (done s (s.esmcRx p b)) _
    have e : s.esmcRx p b = s.setPortQl p (qlOf (beAt b ((headsOf b (s.portMode p)).own + 15) 1 % 16)) := by
      unfold State.esmcRx
      simp [hr, hl, he, h1, h2]
    rw [e]
    exact setPortQlAnswers p (qlOf_lt _) hs fun u h1 h2 h3 => ⟨h1, h2, h3⟩
  · exact setPortQlAnswers p (by decide) hs fun u h1 h2 h3 => ⟨h1, h2, h3⟩
  · exact esmcAnswers p hs hr h fun u h1 h2 h3 => ⟨h1, h2, h3⟩
  · show Answers (done s (s.esmcEvent p)) _
    rw [esmcEvent_sends p hq h16]
    exact esmcAnswers p hs hr h fun u h1 h2 h3 => ⟨h1, h2, h3⟩
  · have e : s.esmcRx p b = s := by
      unfold State.esmcRx
      rcases h with h | h | h <;> simp [h]
    show Answers (done s (s.esmcRx p b)) _
    rw [e]
    refine Answers.ofChanges (A := (· ∈ [])) (ps := []) hs .refl fun u L C => ⟨?_, C.sameBut, C.parts⟩
    rw [portQl_eq, portQl_eq, L.reg _ (sharedReg_PQL p)]
  · exact Answers.still hs (sendEsmc_still p h)
  · refine Answers.still hs (t := s.esmcEvent p) ?_
    by_cases c : s.txQlOf p = Tbl.get 16 s.ref.txQl p ∨ Tbl.get 16 s.ref.txQl p = 16
    · exact if_pos c
    · rw [show s.esmcEvent p = s.sendEsmc p true from if_neg c]
      exact sendEsmc_still p (by tauto)

end Sys2Proof.Machine
end

section

/-! ## The oscillators (R97 to R99) -/

set_option Elab.async false

namespace Sys2Proof.Machine

variable {A : Nat → Prop} {ps : List Part} {s t : State} {a k n : Nat} {y : Int} {b : Bool}

/-! ### All candidates judged -/

@[simp] theorem Changes.judgeAll_iff (h : ∀ k < 30, A (R.REF_CANDk_STATUS k)) (hr : .ref ∈ ps) :
    Changes A ps s t.judgeAll ↔ Changes A ps s t :=
  Changes.foldl_mem_iff fun _ k hk => Changes.judge_iff (h k (List.mem_range.1 hk)) hr

theorem reg_judgeAll (h : a ≠ R.REF_RAW) (h' : ∀ k, a ≠ R.REF_CANDk_STATUS k) : s.judgeAll.reg a = s.reg a := by
  unfold State.judgeAll
  generalize List.range 30 = l
  induction l generalizing s with
  | nil => rfl
  | cons k r ih => exact ih.trans (reg_judge h (h' k))

theorem KeepsBits.judgeAll : KeepsBits R.REF_RAW s s.judgeAll := .foldl (fun _ _ => .judge raw_ne_cand) _ _

@[simp] theorem hif_judge : (s.judge k).hif = s.hif := by
  unfold State.judge State.selRec State.showCand
  simp [hif_ite, State.setCand, State.wtrReset]

@[simp] theorem hif_judgeAll : s.judgeAll.hif = s.hif := by
  unfold State.judgeAll
  generalize List.range 30 = l
  induction l generalizing s with
  | nil => rfl
  | cons k r ih => exact ih.trans hif_judge

theorem oscBad_judgeAll : s.judgeAll.ref.oscBad = s.ref.oscBad := by
  unfold State.judgeAll
  generalize List.range 30 = l
  induction l generalizing s with
  | nil => rfl
  | cons k r ih =>
    obtain ⟨w, e⟩ := judge_ref (s := s) (k := k)
    exact ih.trans ((congrArg RefSel.oscBad e).trans rfl)

/-! ### OSC_READY -/

/-- What forms OSC_READY (R99). -/
def State.oscReady (s : State) : Bool :=
  (s.on R.REF_OSC_STATUS F.REF_OSC_STATUS_PIN || s.on R.REF_OSC_CFG F.REF_OSC_CFG_MASK_PIN) &&
    (s.on R.REF_OSC_STATUS F.REF_OSC_STATUS_SELF_WARM || s.on R.REF_OSC_CFG F.REF_OSC_CFG_MASK_SELF) && !s.ref.oscBad

/-- OSC_READY formed anew, before the candidates follow. -/
def State.shownReady (s : State) : State :=
  let t := (s.pb R.REF_STATUS F.REF_STATUS_OSC_READY s.oscReady).pb R.REF_OSC_STATUS F.REF_OSC_STATUS_READY s.oscReady
  if s.oscReady && !s.on R.REF_STATUS F.REF_STATUS_OSC_READY then t.raw R.REF_RAW F.REF_RAW_WARM else t

theorem formReady_eq : s.formReady = if s.oscReady = s.on R.REF_STATUS F.REF_STATUS_OSC_READY then s.shownReady
    else s.shownReady.judgeAll := rfl

@[simp] theorem Changes.formReady_iff (h : ∀ k < 30, A (R.REF_CANDk_STATUS k)) (h1 : A R.REF_STATUS)
    (h2 : A R.REF_OSC_STATUS) (hr : .ref ∈ ps) : Changes A ps s t.formReady ↔ Changes A ps s t := by
  rw [formReady_eq]
  unfold State.shownReady
  simp [Changes.judgeAll_iff h hr, h1, h2]

theorem reg_formReady (h : a ≠ R.REF_RAW) (h' : ∀ k, a ≠ R.REF_CANDk_STATUS k) : s.formReady.reg a = s.shownReady.reg a := by
  rw [formReady_eq, State.reg_ite, reg_judgeAll h h', ite_self]

theorem reg_shownReady : s.shownReady.reg R.REF_STATUS = F.REF_STATUS_OSC_READY.put (s.reg R.REF_STATUS) (b2n s.oscReady) ∧
    s.shownReady.reg R.REF_OSC_STATUS = F.REF_OSC_STATUS_READY.put (s.reg R.REF_OSC_STATUS) (b2n s.oscReady) := by
  unfold State.shownReady
  constructor <;> simp [State.reg_ite]

theorem ready_formReady : s.formReady.g R.REF_STATUS F.REF_STATUS_OSC_READY = b2n s.oscReady := by
  unfold State.g
  rw [reg_formReady (by decide) (fun k => by simp only [R.REF_STATUS, R.REF_CANDk_STATUS]; omega), reg_shownReady.1]
  refine (Fld.get_put (by decide) ..).trans (Nat.mod_eq_of_lt ?_)
  cases s.oscReady <;> decide

/-- The status of the oscillator, READY apart. -/
theorem status_formReady {f : Fld} (h : 1 ≤ f.lo) : s.formReady.g R.REF_OSC_STATUS f = s.g R.REF_OSC_STATUS f := by
  unfold State.g
  rw [reg_formReady (by decide) (fun k => by simp only [R.REF_OSC_STATUS, R.REF_CANDk_STATUS]; omega), reg_shownReady.2]
  exact Fld.get_put_ne (f := F.REF_OSC_STATUS_READY) (by decide) (.inl h) ..

theorem oscBad_formReady : s.formReady.ref.oscBad = s.ref.oscBad := by
  have e : s.shownReady.ref = s.ref := by
    unfold State.shownReady
    extract_lets t
    split
    · exact (State.setReg_ref ..).trans ((State.setReg_ref ..).trans (State.setReg_ref ..))
    · exact (State.setReg_ref ..).trans (State.setReg_ref ..)
  rw [formReady_eq]
  split
  · rw [e]
  · rw [oscBad_judgeAll, e]

@[simp] theorem hif_formReady : s.formReady.hif = s.hif := by
  rw [formReady_eq]
  unfold State.shownReady
  simp [hif_ite]

@[simp] theorem conds_formReady : s.formReady.conds = s.conds :=
  (Changes.formReady_iff (A := fun _ => True) (ps := [.ref]) (fun _ _ => trivial) trivial trivial (by simp)).2 .refl
    |>.parts .conds (by decide)

/-- The registers that a change of the oscillator may write. -/
def oscRegs : List Nat := (List.range 30).map (fun k => R.REF_CANDk_STATUS k) ++ [R.REF_OSC_STATUS, R.REF_STATUS]

theorem cand_mem_oscRegs (h : k < 30) : R.REF_CANDk_STATUS k ∈ oscRegs :=
  List.mem_append_left _ (List.mem_map.2 ⟨k, List.mem_range.2 h, rfl⟩)

theorem status_mem_oscRegs : R.REF_STATUS ∈ oscRegs ∧ R.REF_OSC_STATUS ∈ oscRegs := by decide

theorem Changes.formReady (hr : .ref ∈ ps) (h : Changes (· ∈ oscRegs) ps s t) : Changes (· ∈ oscRegs) ps s t.formReady :=
  (Changes.formReady_iff (fun _ hk => cand_mem_oscRegs hk) status_mem_oscRegs.1 status_mem_oscRegs.2 hr).2 h

/-- The flags of a state that form OSC_READY. -/
theorem oscReady_congr (h : ∀ f, t.g R.REF_OSC_STATUS f = s.g R.REF_OSC_STATUS f) (h' : t.reg R.REF_OSC_CFG = s.reg R.REF_OSC_CFG)
    (hb : t.ref.oscBad = s.ref.oscBad) : t.oscReady = s.oscReady := by
  unfold State.oscReady State.on
  have hc (f : Fld) : t.g R.REF_OSC_CFG f = s.g R.REF_OSC_CFG f := congrArg f.get h'
  rw [h, h, hc, hc, hb]

/-! ### What happens to the oscillator -/

/-- The answer of a command that forms OSC_READY anew. -/
theorem formReadyAnswers {P : State → Prop} (hs : s.inReset = false) (hr : .ref ∈ ps) (C : Changes (· ∈ oscRegs) ps s t)
    (hP : ∀ u : State, (∀ f : Fld, 1 ≤ f.lo → u.g R.REF_OSC_STATUS f = t.g R.REF_OSC_STATUS f) →
      u.g R.REF_STATUS F.REF_STATUS_OSC_READY = b2n t.oscReady → u.ref.oscBad = t.ref.oscBad → t.hif.fq ⊆ u.hif.fq →
      u.conds = t.conds → u.condsShown → s.sameBut u oscRegs → s.sameParts u ps → P u) :
    Answers (done s t.formReady) P := by
  refine Answers.ofDoneShown hs fun u L hc => hP u (fun f hf => ?_) ?_ ?_ ?_ ?_ hc ((C.formReady hr).logs L).sameBut
    ((C.formReady hr).logs L).parts
  · rw [L.g (by decide), status_formReady hf]
  · rw [L.g (by decide), ready_formReady]
  · rw [L.ref, oscBad_formReady]
  · have h := L.fq.subset
    rwa [hif_formReady] at h
  · rw [L.conds, conds_formReady]

/-- The frequency is marked out of range, or in range again. -/
def State.oscMarked (s : State) (b : Bool) : State :=
  ((s.p R.REF_OSC_STATUS F.REF_OSC_STATUS_FREQ_OK (b2n !b)).setRef { s.ref with oscBad := b }).cond
    R.REF_RAW F.REF_RAW_OSC_FREQ_ERR b

theorem Changes.oscMarked : Changes (· ∈ oscRegs) [.ref, .conds] s (s.oscMarked b) :=
  (Changes.cond_iff _ (by simp)).2 ((Changes.setRef_iff _ (by simp)).2 ((Changes.p_iff status_mem_oscRegs.2).2 .refl))

theorem oscMarked_ok : (s.oscMarked b).g R.REF_OSC_STATUS F.REF_OSC_STATUS_FREQ_OK = b2n !b := by
  unfold State.oscMarked State.g
  rw [State.reg_cond, State.reg_setRef, State.reg_p, if_pos rfl, Fld.get_put (by decide)]
  cases b <;> rfl

theorem oscMarked_cond : F.REF_RAW_OSC_FREQ_ERR.get (Tbl.get 0#32 (s.oscMarked b).conds R.REF_RAW) = b2n b := by
  unfold State.oscMarked
  exact State.get_cond (by decide) rfl

theorem oscMismatch_eq {khz : Nat} (hb : s.ref.oscBad = false) : s.oscMismatch khz =
    ((s.oscMarked true).fault 3 1 (s.g R.REF_OSC_CFG F.REF_OSC_CFG_FREQ) khz).formReady := by
  have hc : (s.oscMarked true).g R.REF_OSC_CFG F.REF_OSC_CFG_FREQ = s.g R.REF_OSC_CFG F.REF_OSC_CFG_FREQ := by
    simp [State.oscMarked, State.g]
  rw [← hc]
  unfold State.oscMismatch
  rw [if_neg (by simpa using hb)]
  unfold State.oscMarked
  simp only [State.p_ref]
  rfl

section
variable (hs : s.inReset = false)
include hs

/-- The frequency leaves its range. -/
theorem oscFreqMismatch_reports {khz : Nat} (hb : s.ref.oscBad = false) (hf : s.hif.fq.length < 32) :
    Answers (exec (.oscFreqMismatch khz) s) fun t =>
      t.g R.REF_OSC_STATUS F.REF_OSC_STATUS_FREQ_OK = 0 ∧ t.g R.REF_STATUS F.REF_STATUS_OSC_READY = 0 ∧
      t.ref.oscBad = true ∧ t.isSet R.REF_RAW F.REF_RAW_OSC_FREQ_ERR ∧
      (∃ f ∈ t.hif.fq, f.block = 3 ∧ f.code = 1 ∧ f.detail = s.g R.REF_OSC_CFG F.REF_OSC_CFG_FREQ ∧ f.param = khz % 2
        ^ 32) ∧ s.sameBut t oscRegs ∧ s.sameParts t [.ref, .conds] := by
  show Answers (done s (s.oscMismatch khz)) _
  rw [oscMismatch_eq hb]
  have hm := State.mem_fq_fault (s := s.oscMarked true) (k := 3) (c := 1) (d := s.g R.REF_OSC_CFG F.REF_OSC_CFG_FREQ)
    (p := khz) (by simpa [State.oscMarked] using hf)
  have hd : s.g R.REF_OSC_CFG F.REF_OSC_CFG_FREQ < 2 ^ 2 := Fld.get_lt _ _
  have L : Logs (s.oscMarked true) ((s.oscMarked true).fault 3 1 (s.g R.REF_OSC_CFG F.REF_OSC_CFG_FREQ) khz) := .fault (.refl _)
  refine formReadyAnswers (ps := [.ref, .conds]) hs (by simp) (Changes.oscMarked.logs L)
    fun u h1 h2 h3 h4 h5 h6 h7 h8 => ⟨?_, h2.trans ?_, h3.trans ?_, isSet_of_cond h6 (by decide) (by decide) rfl ?_,
      ⟨_, h4 hm, rfl, rfl, Nat.mod_eq_of_lt (lt_trans hd (by decide)), rfl⟩, h7, h8⟩
  · rw [h1 _ (by decide), L.g (by decide), oscMarked_ok]
    rfl
  · unfold State.oscReady
    rw [L.ref]
    simp [State.oscMarked, b2n]
  · rw [L.ref]
    rfl
  · rw [h5, L.conds, oscMarked_cond]
    rfl

/-- The frequency is in range again. -/
theorem oscFreqOkRestored_ready : Answers (exec (.oscFreqOkRestored) s) fun t =>
      t.g R.REF_OSC_STATUS F.REF_OSC_STATUS_FREQ_OK = 1 ∧ t.ref.oscBad = false ∧
      t.g R.REF_STATUS F.REF_STATUS_OSC_READY = b2n ((s.on R.REF_OSC_STATUS F.REF_OSC_STATUS_PIN || s.on
        R.REF_OSC_CFG F.REF_OSC_CFG_MASK_PIN) && (s.on R.REF_OSC_STATUS F.REF_OSC_STATUS_SELF_WARM || s.on
        R.REF_OSC_CFG F.REF_OSC_CFG_MASK_SELF) && true) ∧ s.sameBut t oscRegs ∧ s.sameParts t [.ref, .conds] := by
  show Answers (done s (s.oscMarked false).formReady) _
  refine formReadyAnswers (ps := [.ref, .conds]) hs (by simp) Changes.oscMarked
    fun u h1 h2 h3 h4 h5 h6 h7 h8 => ⟨?_, h3, h2.trans ?_, h7, h8⟩
  · rw [h1 _ (by decide), oscMarked_ok]
    rfl
  · unfold State.oscReady State.on State.g
    simp [State.oscMarked, Fld.get_put_ne]

/-- The OSC_WARM pin. -/
theorem oscWarmChange_ready : Answers (exec (.oscWarmChange b) s) fun t =>
      t.g R.REF_OSC_STATUS F.REF_OSC_STATUS_PIN = b2n b ∧
      t.g R.REF_STATUS F.REF_STATUS_OSC_READY = b2n ((b || s.on R.REF_OSC_CFG F.REF_OSC_CFG_MASK_PIN) && (s.on
        R.REF_OSC_STATUS F.REF_OSC_STATUS_SELF_WARM || s.on R.REF_OSC_CFG F.REF_OSC_CFG_MASK_SELF) && !s.ref.oscBad) ∧
      s.sameBut t oscRegs ∧ s.sameParts t [.ref] := by
  show Answers (done s (s.pb R.REF_OSC_STATUS F.REF_OSC_STATUS_PIN b).formReady) _
  have hp : (s.pb R.REF_OSC_STATUS F.REF_OSC_STATUS_PIN b).g R.REF_OSC_STATUS F.REF_OSC_STATUS_PIN = b2n b :=
    by
    unfold State.g
    rw [State.reg_pb, if_pos rfl, Fld.get_put (by decide)]
    cases b <;> rfl
  refine formReadyAnswers (ps := [.ref]) hs (by simp) (by simp [status_mem_oscRegs.2])
    fun u h1 h2 h3 h4 h5 h6 h7 h8 => ⟨(h1 _ (by decide)).trans hp, h2.trans ?_, h7, h8⟩
  have ho : (s.pb R.REF_OSC_STATUS F.REF_OSC_STATUS_PIN b).on R.REF_OSC_STATUS F.REF_OSC_STATUS_PIN = b := by
    unfold State.on
    rw [hp]
    cases b <;> rfl
  unfold State.oscReady
  rw [ho]
  unfold State.on State.g
  simp [Fld.get_put_ne]

end

end Sys2Proof.Machine
end

section

/-! ## Warm-up and the configured oscillator frequency (R97 to R99, R156) -/

set_option Elab.async false

namespace Sys2Proof.Machine

variable {A : Nat → Prop} {ps : List Part} {s t : State} {a k n : Nat} {y : Int} {b : Bool} {v : Word}

/-! ### Warm-up -/

theorem refreshJudging_same (h : s.ref.judge = s.judging) : s.refreshJudging = s := if_pos h.symm

theorem judge_refreshJudging : s.refreshJudging.ref.judge = s.judging := by
  unfold State.refreshJudging
  extract_lets j
  split
  · next h => exact h.symm
  · rfl

theorem oscBad_refreshJudging : s.refreshJudging.ref.oscBad = s.ref.oscBad := by
  unfold State.refreshJudging
  extract_lets j
  split <;> rfl

/-- The oscillator is judged warm. -/
def State.warmed (s : State) (byTimeout : Bool) : State :=
  if byTimeout then (s.p R.REF_OSC_STATUS F.REF_OSC_STATUS_SELF_WARM 1).p R.REF_OSC_STATUS F.REF_OSC_STATUS_BY_TIMEOUT 1
  else s.p R.REF_OSC_STATUS F.REF_OSC_STATUS_SELF_WARM 1

theorem judgeWarm_eq (h : s.g R.REF_OSC_STATUS F.REF_OSC_STATUS_SELF_WARM = 0) :
    s.judgeWarm b = (s.warmed b).formReady := by
  unfold State.judgeWarm State.warmed
  rw [if_neg (by simp [State.on, h])]

theorem warmed_self : (s.warmed b).g R.REF_OSC_STATUS F.REF_OSC_STATUS_SELF_WARM = 1 := by
  unfold State.warmed State.g
  cases b <;> simp [Fld.get_put, Fld.get_put_ne]

theorem warmed_timeout : (s.warmed true).g R.REF_OSC_STATUS F.REF_OSC_STATUS_BY_TIMEOUT = 1 := by
  unfold State.warmed State.g
  simp [Fld.get_put]

theorem warmed_ready : (s.warmed false).oscReady = ((s.on R.REF_OSC_STATUS F.REF_OSC_STATUS_PIN || s.on
    R.REF_OSC_CFG F.REF_OSC_CFG_MASK_PIN) && (true || s.on R.REF_OSC_CFG F.REF_OSC_CFG_MASK_SELF) && !s.ref.oscBad) := by
  unfold State.oscReady
  rw [(State.on_iff rfl).2 warmed_self]
  unfold State.warmed State.on State.g
  simp [Fld.get_put_ne]

theorem Changes.warmed (h : Changes (· ∈ oscRegs) ps s t) : Changes (· ∈ oscRegs) ps s (t.warmed b) := by
  unfold State.warmed
  simp [status_mem_oscRegs.2, h]

section
variable (hs : s.inReset = false)
include hs

/-- Ten gates within 1000 units judge the oscillator warm. -/
theorem warmGate_warms (hj : s.judging = some k) (hk : s.ref.judge = some k) (hl : s.ref.gates.length = 9)
    (hw : s.g R.REF_OSC_STATUS F.REF_OSC_STATUS_SELF_WARM = 0) (hp : spread (y :: s.ref.gates) ≤ 1000) :
    Answers (exec (.warmGate y) s) fun t =>
      t.g R.REF_OSC_STATUS F.REF_OSC_STATUS_SELF_WARM = 1 ∧
      t.g R.REF_STATUS F.REF_STATUS_OSC_READY = b2n ((s.on R.REF_OSC_STATUS F.REF_OSC_STATUS_PIN || s.on
        R.REF_OSC_CFG F.REF_OSC_CFG_MASK_PIN) && (true || s.on R.REF_OSC_CFG F.REF_OSC_CFG_MASK_SELF) &&
        !s.ref.oscBad) ∧ s.sameBut t oscRegs ∧ s.sameParts t [.ref] := by
  have ht : (y :: s.ref.gates).take 10 = y :: s.ref.gates := List.take_of_length_le (by simp [hl])
  have e : s.warmGate y = ((s.setRef { s.ref with gates := y :: s.ref.gates }).warmed false).formReady := by
    unfold State.warmGate
    simp only [refreshJudging_same (hk.trans hj.symm), hk, ht]
    rw [if_pos ⟨by simp [hl], hp⟩]
    exact judgeWarm_eq (s := s.setRef _) hw
  show Answers (done s (s.warmGate y)) _
  rw [e]
  exact formReadyAnswers (ps := [.ref]) hs (by simp) (Changes.warmed (by simp))
    fun u h1 h2 h3 h4 h5 h6 h7 h8 => ⟨(h1 _ (by decide)).trans warmed_self, h2.trans (congrArg b2n warmed_ready), h7, h8⟩

/-- The warm-up timeout judges it warm. -/
theorem warmTimeout_warms (hj : s.judging = none) (ht : s.g R.REF_OSC_CFG F.REF_OSC_CFG_WARM_TIMEOUT_S ≠ 0)
    (hw : s.g R.REF_OSC_STATUS F.REF_OSC_STATUS_SELF_WARM = 0) : Answers (exec (.warmTimeout) s) fun t =>
      t.g R.REF_OSC_STATUS F.REF_OSC_STATUS_SELF_WARM = 1 ∧ t.g R.REF_OSC_STATUS F.REF_OSC_STATUS_BY_TIMEOUT = 1 ∧
      s.sameBut t oscRegs ∧ s.sameParts t [.ref] := by
  have hn : s.refreshJudging.ref.judge = none := judge_refreshJudging.trans hj
  have e : ∃ x, s.warmTimeout = ((s.refreshJudging.setRef x).warmed true).formReady := by
    unfold State.warmTimeout
    simp only [ht, hn, ne_eq, not_false_iff, decide_true, Option.isNone_none, Bool.and_self, if_true]
    refine ⟨_, judgeWarm_eq (Eq.trans ?_ hw)⟩
    unfold State.g
    rw [State.reg_setRef, reg_refreshJudging]
  obtain ⟨x, e⟩ := e
  show Answers (done s s.warmTimeout) _
  rw [e]
  exact formReadyAnswers (ps := [.ref]) hs (by simp) (Changes.warmed (by simp))
    fun u h1 h2 h3 h4 h5 h6 h7 h8 => ⟨(h1 _ (by decide)).trans warmed_self, (h1 _ (by decide)).trans warmed_timeout, h7, h8⟩

/-- A gate without a judging candidate is counted. -/
theorem warmGate_counts (hj : s.judging = none) (hk : s.ref.judge = none) : Answers (exec (.warmGate y) s) fun t =>
      t.ref.noJudge = s.ref.noJudge + 1 ∧ s.sameBut t [] ∧ s.sameParts t [.ref] := by
  have e : s.warmGate y = s.setRef { s.ref with noJudge := s.ref.noJudge + 1 } := by
    unfold State.warmGate
    simp only [refreshJudging_same (hk.trans hj.symm), hk]
  show Answers (done s (s.warmGate y)) _
  rw [e]
  exact Answers.ofChanges (A := (· ∈ [])) (ps := [.ref]) hs (by simp) fun u L C => ⟨by rw [L.ref]; rfl, C.sameBut, C.parts⟩

/-- A gate that does not judge the oscillator warm joins the history. -/
theorem warmGate_joins (hj : s.judging = some k) (hk : s.ref.judge = some k)
    (h : s.ref.gates.length < 9 ∨ 1000 < spread ((y :: s.ref.gates).take 10)) : Answers (exec (.warmGate y) s) fun t =>
      t.ref.gates = (y :: s.ref.gates).take 10 ∧ s.sameBut t [] ∧ s.sameParts t [.ref] := by
  have e : s.warmGate y = s.setRef { s.ref with gates := (y :: s.ref.gates).take 10 } := by
    unfold State.warmGate
    simp only [refreshJudging_same (hk.trans hj.symm), hk]
    refine if_neg fun ⟨h1, h2⟩ => ?_
    rcases h with h | h
    · simp only [List.length_take, List.length_cons] at h1
      omega
    · omega
  show Answers (done s (s.warmGate y)) _
  rw [e]
  exact Answers.ofChanges (A := (· ∈ [])) (ps := [.ref]) hs (by simp) fun u L C => ⟨by rw [L.ref]; rfl, C.sameBut, C.parts⟩

/-- The timeout does nothing while a candidate judges, or without a limit. -/
theorem warmTimeout_still (h : s.judging.isSome = true ∨ s.g R.REF_OSC_CFG F.REF_OSC_CFG_WARM_TIMEOUT_S = 0)
    (hk : s.ref.judge = s.judging) : Answers (exec (.warmTimeout) s) fun t => s.sameBut t [] ∧ s.sameParts t [.ref] := by
  have e : s.warmTimeout = s := by
    unfold State.warmTimeout
    simp only [refreshJudging_same hk, hk]
    refine if_neg ?_
    rcases h with h | h
    · rw [Option.isNone_eq_false_iff.2 h]
      simp
    · simp [h]
  show Answers (done s s.warmTimeout) _
  rw [e]
  exact Answers.ofChanges (A := (· ∈ [])) (ps := [.ref]) hs .refl fun u L C => ⟨C.sameBut, C.parts⟩

/-- A mismatch that is known already. -/
theorem oscFreqMismatch_again {khz : Nat} (hb : s.ref.oscBad = true) : Answers (exec (.oscFreqMismatch khz) s) fun t =>
      t.g R.REF_OSC_STATUS F.REF_OSC_STATUS_FREQ_OK = 0 ∧ s.sameBut t [R.REF_OSC_STATUS] ∧ s.sameParts t [] := by
  have e : s.oscMismatch khz = s.p R.REF_OSC_STATUS F.REF_OSC_STATUS_FREQ_OK 0 := by
    unfold State.oscMismatch
    exact if_pos (by simpa using hb)
  show Answers (done s (s.oscMismatch khz)) _
  rw [e]
  exact Answers.ofChanges (A := (· ∈ [R.REF_OSC_STATUS])) (ps := []) hs (by simp) fun u L C =>
    ⟨(L.g (by decide) _).trans (State.g_p_same (by decide) 0), C.sameBut, C.parts⟩

end

/-! ### The configured frequency -/

/-- The registers that a write of the configured frequency may change. -/
def oscCfgRegs : List Nat := (List.range 30).map (fun k => R.REF_CANDk_STATUS k) ++ [R.REF_OSC_CFG, R.REF_OSC_STATUS,
  R.REF_STATUS, R.HIF_CFG_CRC_STATUS, R.SYN_STATUS, R.QUE_DRAM_STATUS]

theorem mem_oscCfgRegs (h : k < 30) : R.REF_CANDk_STATUS k ∈ oscCfgRegs :=
  List.mem_append_left _ (List.mem_map.2 ⟨k, List.mem_range.2 h, rfl⟩)

@[simp] theorem Changes.oscFreqChange_iff (h1 : A R.SYN_STATUS) (h2 : A R.QUE_DRAM_STATUS) (hp : .syn ∈ ps) :
    Changes A ps s t.oscFreqChange ↔ Changes A ps s t := by
  unfold State.oscFreqChange State.loopLoss State.showHold
  simp [loopBits, h1, h2, hp]

@[simp] theorem Changes.oscFreqAct_iff {old : Word} (h1 : A R.SYN_STATUS) (h2 : A R.QUE_DRAM_STATUS) (hp : .syn ∈ ps) :
    Changes A ps s (t.oscFreqAct old) ↔ Changes A ps s t := by
  unfold State.oscFreqAct
  simp [h1, h2, hp]

/-- One loop is put into hold. -/
def State.holdLoop (s : State) (l : Loop) : State := (s.loopLoss l 0 true).showHold l

theorem oscFreqChange_eq : s.oscFreqChange = (((s.holdLoop .hk).holdLoop .jpll).holdLoop .core).holdLoop .dram := rfl

/-- The jitter-cleaning PLL loses its lock. -/
theorem holdLoop_jpll : (s.holdLoop .jpll).g R.SYN_STATUS F.SYN_STATUS_JPLL_LOCK = 0 := by
  unfold State.holdLoop State.loopLoss State.showHold
  simp only [loopBits, if_true]
  by_cases h : s.on R.SYN_STATUS F.SYN_STATUS_JPLL_LOCK = true
  · rw [if_pos h]
    simp [State.g, Fld.get_put, Fld.get_put_ne]
  · rw [if_neg h]
    have h0 : s.g R.SYN_STATUS F.SYN_STATUS_JPLL_LOCK = 0 := by
      simpa [State.on] using h
    simpa [State.g, Fld.get_put_ne] using h0

/-- Other loops leave its lock as it is. -/
theorem holdLoop_keeps {l : Loop} (hl : l ∈ [Loop.core, .dram]) :
    (s.holdLoop l).g R.SYN_STATUS F.SYN_STATUS_JPLL_LOCK = s.g R.SYN_STATUS F.SYN_STATUS_JPLL_LOCK := by
  unfold State.holdLoop State.loopLoss State.showHold
  simp only [List.mem_cons, List.not_mem_nil, or_false] at hl
  rcases hl with rfl | rfl <;> simp only [loopBits, if_true] <;> split <;> simp [State.g, Fld.get_put_ne]

/-- A change of the frequency puts the jitter-cleaning PLL and the DRAM's into hold. -/
theorem oscFreqChange_status : s.oscFreqChange.g R.SYN_STATUS F.SYN_STATUS_JPLL_LOCK = 0 ∧
    s.oscFreqChange.g R.QUE_DRAM_STATUS F.QUE_DRAM_STATUS_SELF_REFRESH = 1 := by
  rw [oscFreqChange_eq]
  refine ⟨?_, State.g_p_same (by decide) 1⟩
  rw [holdLoop_keeps (by decide), holdLoop_keeps (by decide), holdLoop_jpll]

theorem act_oscCfg {old : Word} : s.act R.REF_OSC_CFG old v = (s.oscFreqAct old).formReady := rfl

theorem readNow_oscCfg : s.readNow R.REF_OSC_CFG = s.reg R.REF_OSC_CFG := rfl

/-- What forming OSC_READY leaves as it was. -/
theorem reg_formReady_ne (h : sharedReg a = false) (hc : ∀ k < 30, a ≠ R.REF_CANDk_STATUS k) (h1 : a ≠ R.REF_STATUS)
    (h2 : a ≠ R.REF_OSC_STATUS) : s.formReady.reg a = s.reg a :=
  ((Changes.formReady_iff (A := (· ≠ a)) (ps := [.ref]) (fun k hk => (hc k hk).symm) h1.symm h2.symm (by simp)).2
    (.refl (s := s))).reg h (by simp)

/-- A write of the oscillator's configuration. -/
theorem oscFreqChange_holds (h : s.accepts R.REF_OSC_CFG) : Answers (exec (.oscFreqChange v) s) fun t =>
      t.reg R.REF_OSC_CFG = s.formWord R.REF_OSC_CFG v ∧
      (t.g R.REF_OSC_CFG F.REF_OSC_CFG_FREQ ≠ s.g R.REF_OSC_CFG F.REF_OSC_CFG_FREQ → t.g R.SYN_STATUS
        F.SYN_STATUS_JPLL_LOCK = 0 ∧ t.g R.QUE_DRAM_STATUS F.QUE_DRAM_STATUS_SELF_REFRESH = 1) ∧
      s.sameBut t oscCfgRegs ∧ s.sameParts t [.ref, .syn] := by
  obtain ⟨x, hx⟩ : ∃ x, x = s.setReg R.REF_OSC_CFG (s.formWord R.REF_OSC_CFG v) := ⟨_, rfl⟩
  have hxr : x.reg R.REF_OSC_CFG = s.formWord R.REF_OSC_CFG v := by rw [hx, State.reg_setReg_same]
  have hr : (x.oscFreqAct (s.reg R.REF_OSC_CFG)).formReady.reg R.REF_OSC_CFG = s.formWord R.REF_OSC_CFG v := by
    rw [reg_formReady_ne (by decide) (fun k _ => by simp only [R.REF_OSC_CFG, R.REF_CANDk_STATUS]; omega) (by decide) (by decide), ← hxr]
    exact ((Changes.oscFreqAct_iff (A := (· ≠ R.REF_OSC_CFG)) (ps := [.syn]) (by decide) (by decide) (by simp)).2
      (.refl (s := x))).reg (by decide) (by simp)
  refine Answers.ofWrite (A := (· ∈ oscCfgRegs)) (ps := [.ref, .syn]) h (by decide)
    (t := (x.oscFreqAct (s.reg R.REF_OSC_CFG)).formReady) (by rw [hx]; exact act_oscCfg) ?_ (by decide)
    fun u w L C => ⟨?_, fun hne => ?_, C.sameBut, C.parts⟩
  · refine (Changes.formReady_iff (fun _ hk => mem_oscCfgRegs hk) (by decide) (by decide) (by simp)).2 ?_
    rw [Changes.oscFreqAct_iff (by decide) (by decide) (by simp), hx]
    exact (Changes.setReg_iff (by decide)).2 .refl
  · rw [L.reg _ (by decide), State.reg_setReg_ne _ (by decide), hr]
  · have e : x.oscFreqAct (s.reg R.REF_OSC_CFG) = x.oscFreqChange := by
      refine if_neg fun k => hne ?_
      rw [L.g (by decide), State.g_scan (by decide)]
      exact (congrArg F.REF_OSC_CFG_FREQ.get (hr.trans hxr.symm)).trans k.symm
    rw [L.g (by decide), L.g (by decide), State.g_scan (by decide), State.g_scan (by decide), e]
    have k (a : Nat) (f : Fld) (h1 : sharedReg a = false) (h2 : 0x38000 ≤ a) : x.oscFreqChange.formReady.g a f =
        x.oscFreqChange.g a f := congrArg f.get (reg_formReady_ne h1
          (fun k hk => by simp only [R.REF_CANDk_STATUS]; omega) (by simp only [R.REF_STATUS]; omega)
          (by simp only [R.REF_OSC_STATUS]; omega))
    rw [k _ _ (by decide) (by decide), k _ _ (by decide) (by decide)]
    exact oscFreqChange_status

end Sys2Proof.Machine
end

section

/-! ## The edges of the reference inputs (R102 to R104), and O47 -/

set_option Elab.async false

namespace Sys2Proof.Machine

variable {A : Nat → Prop} {ps : List Part} {s t : State} {a k : Nat} {n : Fin 4} {ahead : Nat} {x : RefIn} {v : Word}

@[simp] theorem sharedReg_IN_CFG (n : Nat) (h : n < 4) : sharedReg (R.REF_INn_CFG n) = false := by
  interval_cases n <;> decide

theorem candOfIn_lt (n : Fin 4) : s.candOfIn n < 4 := by
  unfold State.candOfIn
  split <;> omega

theorem inCfg_ne (h : k < 30) {i : Nat} (hi : i < 4) : R.REF_INn_CFG i ≠ R.REF_CANDk_STATUS k := by
  simp only [R.REF_INn_CFG, R.REF_CANDk_STATUS]
  omega

/-- Changes of candidates alone leave the companions as they are. -/
theorem Changes.candOfIn (C : Changes (· ∈ (List.range 30).map fun k => R.REF_CANDk_STATUS k) ps s t) {m : Nat} :
    t.candOfIn m = s.candOfIn m := by
  refine candOfIn_congr fun i hi => C.reg (by simp [hi]) fun h => ?_
  obtain ⟨k, hk, e⟩ := List.mem_map.1 h
  exact inCfg_ne (List.mem_range.1 hk) hi e.symm

/-- The answer of a command that changes an input and has its candidate judged. -/
theorem inputAnswers {P : State → Prop} (hs : s.inReset = false) (C : Changes (· ∈ []) [.ref] s t)
    (hP : ∀ u : State, u.refIn n = t.refIn n → KeepsBits R.REF_RAW t u → t.hif.fq ⊆ u.hif.fq →
      s.sameBut u [R.REF_CANDk_STATUS (s.candOfIn n)] → s.sameParts u [.ref] → P u) :
    Answers (done s (t.judge (t.candOfIn n))) P := by
  have e : t.candOfIn n = s.candOfIn n := Changes.candOfIn (ps := [.ref]) (C.mono (by simp) (by simp))
  refine Answers.ofChanges (A := (· ∈ [R.REF_CANDk_STATUS (s.candOfIn n)])) (ps := [.ref]) hs ?_
    fun u L K => hP u ?_ ((KeepsBits.judge raw_ne_cand).trans (.ofLogs (by decide) L)) ?_ K.sameBut K.parts
  · rw [e, Changes.judge_iff (by simp) (by simp)]
    exact C.mono (by simp) (by simp)
  · rw [L.refIn, State.refIn_judge]
  · have h := L.fq.subset
    rwa [hif_judge] at h

/-! ### Edges -/

/-- The real time of an edge. -/
abbrev State.edgeTime (s : State) (ahead : Nat) : Nat := s.tsc.tick * 131072 + ahead

/-- The edge shows that the input is not stuck. -/
def State.unstuckIn (s : State) (n : Nat) : State := s.setRefIn n { s.refIn n with stuck := false }

theorem refIn_unstuckIn {n : Nat} : (s.unstuckIn n).refIn n = { s.refIn n with stuck := false } := by
  unfold State.unstuckIn
  rw [State.refIn_setRefIn, if_pos rfl]

@[simp] theorem Changes.unstuckIn_iff {n : Nat} (h : .ref ∈ ps) : Changes A ps s (t.unstuckIn n) ↔ Changes A ps s t :=
  Changes.setRefIn_iff h

/-- What an edge does with the input before its candidate is judged. -/
def State.edgeTaken (s : State) (n ahead : Nat) : State :=
  if (s.refIn n).disabled then s.unstuckIn n
  else if (match (s.refIn n).prev with | none => false | some p => decide (10 * (s.edgeTime ahead - p) < 32 * 65536)) then
    (s.unstuckIn n).refLost n (s.edgeTime ahead)
  else (s.unstuckIn n).refKept n (s.edgeTime ahead) ahead

theorem refEdge_eq {n : Nat} : s.refEdge n ahead = (s.edgeTaken n ahead).judge ((s.edgeTaken n ahead).candOfIn n) := by
  unfold State.refEdge State.edgeTaken
  simp only [State.refIn_setRefIn, if_true]
  rfl

@[simp] theorem refIn_offsetSeen {k m : Nat} {o : Int} : (s.offsetSeen k o).refIn m = s.refIn m := by
  unfold State.offsetSeen
  split <;> rfl

@[simp] theorem Changes.offsetSeen_iff {k : Nat} {o : Int} (h : .ref ∈ ps) : Changes A ps s (t.offsetSeen k o) ↔ Changes A ps s t := by
  unfold State.offsetSeen
  simp [h]

/-- An edge that is kept. -/
theorem refIn_refKept {m now : Nat} : ∃ i o, (s.refKept m now ahead).refIn m = { s.refIn m with
    last := some (s.refStamp m ahead), prev := some now, count := (s.refIn m).count + 1, inside := i, outside := o } := by
  unfold State.refKept
  extract_lets x hit y
  refine ⟨x.inside || hit, x.outside || (x.prev.isSome && !hit), ?_⟩
  have hy : y.refIn m = { x with last := some (s.refStamp m ahead), prev := some now, count := x.count + 1
                                 inside := x.inside || hit, outside := x.outside || (x.prev.isSome && !hit) } :=
    State.refIn_setRefIn.trans (if_pos rfl)
  split
  · exact refIn_offsetSeen.trans hy
  · exact hy

@[simp] theorem Changes.refKept_iff {m now : Nat} (h : .ref ∈ ps) : Changes A ps s (t.refKept m now ahead) ↔ Changes A ps s t := by
  unfold State.refKept
  extract_lets x hit y
  split <;> simp [y, h]

/-- An edge that is lost. -/
theorem refIn_refLost {m now : Nat} : (s.refLost m now).refIn m = { s.refIn m with
    prev := some now, lost := (s.refIn m).lost + 1, overruns := (s.refIn m).overruns + 1 } := by
  unfold State.refLost
  rw [State.refIn_raw, State.refIn_setRefIn, if_pos rfl]

@[simp] theorem Changes.refLost_iff {m now : Nat} (h : .ref ∈ ps) : Changes A ps s (t.refLost m now) ↔ Changes A ps s t := by
  unfold State.refLost
  simp [h]

@[simp] theorem Changes.edgeTaken_iff {m : Nat} (h : .ref ∈ ps) : Changes A ps s (t.edgeTaken m ahead) ↔ Changes A ps s t := by
  unfold State.edgeTaken
  simp [h]

section
variable (hs : s.inReset = false)
include hs

/-- A divided edge is stamped. -/
theorem refInputEdge_kept (hd : (s.refIn n).disabled = false) (hp : (s.refIn n).prev.all
    (fun p => decide (32 * 65536 ≤ 10 * (s.edgeTime ahead - p))) = true) : Answers (exec (.refInputEdge n ahead) s) fun t =>
      (t.refIn n).last = some (s.refStamp n ahead) ∧ (t.refIn n).prev = some (s.edgeTime ahead) ∧
      (t.refIn n).stuck = false ∧ (t.refIn n).count = (s.refIn n).count + 1 ∧
      s.sameBut t [R.REF_CANDk_STATUS (s.candOfIn n)] ∧ s.sameParts t [.ref] := by
  show Answers (done s (s.refEdge n ahead)) _
  have e : s.edgeTaken n ahead = (s.unstuckIn n).refKept n (s.edgeTime ahead) ahead := by
    unfold State.edgeTaken
    rw [hd, if_neg (by decide)]
    cases hq : (s.refIn n).prev with
    | none => rfl
    | some p =>
      rw [hq] at hp
      have hp : 32 * 65536 ≤ 10 * (s.edgeTime ahead - p) := by simpa using hp
      exact if_neg (by simpa using hp)
  rw [refEdge_eq]
  refine inputAnswers hs (by simp) fun u h1 h2 h3 h4 h5 => ?_
  obtain ⟨i, o, k⟩ := refIn_refKept (s := s.unstuckIn n) (m := n) (now := s.edgeTime ahead) (ahead := ahead)
  rw [e, k, refIn_unstuckIn] at h1
  rw [h1]
  exact ⟨rfl, rfl, rfl, rfl, h4, h5⟩

/-- One within 3.2 ns of the previous one is lost. -/
theorem refInputEdge_lost {p : Nat} (hd : (s.refIn n).disabled = false) (hp : (s.refIn n).prev = some p)
    (hc : 10 * (s.edgeTime ahead - p) < 32 * 65536) : Answers (exec (.refInputEdge n ahead) s) fun t =>
      (t.refIn n).lost = (s.refIn n).lost + 1 ∧ (t.refIn n).last = (s.refIn n).last ∧
      (t.refIn n).prev = some (s.edgeTime ahead) ∧ (t.refIn n).stuck = false ∧
      t.isSet R.REF_RAW F.REF_RAW_OVERRUN ∧ s.sameBut t [R.REF_CANDk_STATUS (s.candOfIn n)] ∧ s.sameParts t [.ref] := by
  show Answers (done s (s.refEdge n ahead)) _
  have e : s.edgeTaken n ahead = (s.unstuckIn n).refLost n (s.edgeTime ahead) := by
    unfold State.edgeTaken
    rw [hd, if_neg (by decide), hp]
    exact if_pos (decide_eq_true hc)
  rw [refEdge_eq]
  refine inputAnswers hs (by simp) fun u h1 h2 h3 h4 h5 => ?_
  rw [e, refIn_refLost, refIn_unstuckIn] at h1
  rw [h1]
  refine ⟨rfl, rfl, rfl, rfl, h2.isSet (by decide) rfl ?_, h4, h5⟩
  rw [e]
  exact State.isSet_raw (by decide) rfl

/-- A disabled input gives no edge. -/
theorem refInputEdge_disabled (hd : (s.refIn n).disabled = true) : Answers (exec (.refInputEdge n ahead) s) fun t =>
      t.refIn n = { s.refIn n with stuck := false } ∧ s.sameBut t [R.REF_CANDk_STATUS (s.candOfIn n)] ∧
      s.sameParts t [.ref] := by
  show Answers (done s (s.refEdge n ahead)) _
  have e : s.edgeTaken n ahead = s.unstuckIn n := if_pos hd
  rw [refEdge_eq]
  refine inputAnswers hs (by simp) fun u h1 h2 h3 h4 h5 => ⟨?_, h4, h5⟩
  rw [h1, e, refIn_unstuckIn]

/-! ### Inputs that keep their level, or lose too many edges -/

/-- An input that keeps its level is stuck. -/
theorem refInputStuck_rejects (hk : (s.refIn n).stuck = false) : Answers (exec (.refInputStuck n) s) fun t =>
      (t.refIn n).stuck = true ∧ (t.cand (s.candOfIn n)).act = Verdict.reject ∧ t.isSet R.REF_RAW F.REF_RAW_STUCK ∧
      s.sameBut t [R.REF_CANDk_STATUS (s.candOfIn n)] ∧ s.sameParts t [.ref] := by
  obtain ⟨m, hm⟩ : ∃ m, m = ((s.setRefIn n { s.refIn n with stuck := true }).raw R.REF_RAW F.REF_RAW_STUCK).setCand
    (s.candOfIn n) { s.cand (s.candOfIn n) with act := .reject, passes := 0 } := ⟨_, rfl⟩
  have e : s.refStuck n = (m.judge (s.candOfIn n)).refreshJudging := by
    unfold State.refStuck
    simp only [hk]
    rw [if_neg (by decide), hm, State.cand_raw, State.cand_setRefIn]
  show Answers (done s (s.refStuck n)) _
  rw [e]
  refine Answers.ofChanges (A := (· ∈ [R.REF_CANDk_STATUS (s.candOfIn n)])) (ps := [.ref]) hs (by simp [hm]) fun u L C => ⟨?_, ?_, ?_, C.sameBut, C.parts⟩
  · rw [L.refIn, State.refIn_refreshJudging, State.refIn_judge, hm, State.refIn_setCand, State.refIn_raw, State.refIn_setRefIn,
      if_pos rfl]
  · rw [L.cand, State.cand_refreshJudging, cand_judge, hm, State.cand_setCand, if_pos rfl]
  · refine ((KeepsBits.judge raw_ne_cand).trans (KeepsBits.refreshJudging.trans (.ofLogs (by decide) L))).isSet
      (by decide) rfl (s := m) ?_
    rw [hm]
    exact (congrArg F.REF_RAW_STUCK.get State.reg_setCand).trans (State.isSet_raw (by decide) rfl)

/-- Too many lost edges disable an input that is configured so. -/
theorem refOverrunInterval_disables (he : s.on (R.REF_INn_CFG n) F.REF_INn_CFG_OVR_DIS_EN = true)
    (hl : s.g (R.REF_INn_CFG n) F.REF_INn_CFG_OVR_LIMIT < (s.refIn n).lost) (hd : (s.refIn n).disabled = false)
    (hf : s.hif.fq.length < 32) : Answers (exec (.refOverrunInterval n) s) fun t =>
      (t.refIn n).disabled = true ∧ (t.refIn n).lost = 0 ∧ t.isSet R.REF_RAW F.REF_RAW_OVR_DISABLE ∧
      (∃ f ∈ t.hif.fq, f.block = 3 ∧ f.code = 3 ∧ f.detail = n.val) ∧
      s.sameBut t [R.REF_CANDk_STATUS (s.candOfIn n)] ∧ s.sameParts t [.ref] := by
  obtain ⟨m, hm⟩ : ∃ m, m = (s.setRefIn n { s.refIn n with lost := 0, disabled := true }).raw R.REF_RAW F.REF_RAW_OVR_DISABLE :=
    ⟨_, rfl⟩
  have L : Logs m (m.fault 3 3 n (s.refIn n).lost) := .fault (.refl _)
  have e : s.refOverrun n = (m.fault 3 3 n (s.refIn n).lost).judge ((m.fault 3 3 n (s.refIn n).lost).candOfIn n) := by
    unfold State.refOverrun
    have hc : (m.fault 3 3 n (s.refIn n).lost).candOfIn n = m.candOfIn n := candOfIn_congr fun i hi => L.reg _ (by simp [hi])
    simp only [he, hl, hd, decide_true, Bool.and_self, Bool.not_false, if_true, ← hm, hc]
  have hq := State.mem_fq_fault (s := m) (k := 3) (c := 3) (d := n) (p := (s.refIn n).lost) (by rw [hm]; simpa [State.setRefIn] using hf)
  show Answers (done s (s.refOverrun n)) _
  rw [e]
  refine inputAnswers hs (by rw [hm]; simp) fun u h1 h2 h3 h4 h5 => ?_
  rw [L.refIn, hm, State.refIn_raw, State.refIn_setRefIn, if_pos rfl] at h1
  rw [h1]
  refine ⟨rfl, rfl, ((KeepsBits.ofLogs (by decide) L).trans h2).isSet (by decide) rfl ?_,
    ⟨_, h3 hq, rfl, rfl, Nat.mod_eq_of_lt (lt_trans n.isLt (by decide))⟩, h4, h5⟩
  rw [hm]
  exact State.isSet_raw (by decide) rfl

/-- Otherwise the lost edges are counted anew. -/
theorem refOverrunInterval_counts (h : s.on (R.REF_INn_CFG n) F.REF_INn_CFG_OVR_DIS_EN = false ∨
    (s.refIn n).lost ≤ s.g (R.REF_INn_CFG n) F.REF_INn_CFG_OVR_LIMIT ∨ (s.refIn n).disabled = true) :
    Answers (exec (.refOverrunInterval n) s) fun t =>
      t.refIn n = { s.refIn n with lost := 0 } ∧ s.sameBut t [] ∧ s.sameParts t [.ref] := by
  have e : s.refOverrun n = s.setRefIn n { s.refIn n with lost := 0 } := by
    refine if_neg ?_
    rcases h with h | h | h
    · simp [h]
    · simp [Nat.not_lt.2 h]
    · simp [h]
  show Answers (done s (s.refOverrun n)) _
  rw [e]
  exact Answers.ofChanges (A := (· ∈ [])) (ps := [.ref]) hs (by simp) fun u L C =>
    ⟨by rw [L.refIn, State.refIn_setRefIn, if_pos rfl], C.sameBut, C.parts⟩

end

/-! ### REARM -/

/-- One input is enabled again. -/
def State.rearmIn (s : State) (n : Nat) : State :=
  (s.setRefIn n { s.refIn n with disabled := false, lost := 0 }).judge (s.candOfIn n)

/-- An input is enabled, and has lost no edge. -/
def State.inFresh (s : State) (n : Nat) : Prop := (s.refIn n).disabled = false ∧ (s.refIn n).lost = 0

theorem refIn_rearmIn {m i : Nat} : (s.rearmIn m).refIn i = if i = m then { s.refIn m with disabled := false, lost := 0 } else s.refIn i := by
  unfold State.rearmIn
  rw [State.refIn_judge, State.refIn_setRefIn]

theorem inFresh_foldl {i : Nat} (l : List Nat) : ∀ s : State, i ∈ l ∨ s.inFresh i → (l.foldl State.rearmIn s).inFresh i := by
  induction l with
  | nil => exact fun s h => h.resolve_left (by simp)
  | cons m r ih =>
    refine fun s h => ih _ ?_
    by_cases hm : i = m
    · refine .inr ?_
      unfold State.inFresh
      rw [refIn_rearmIn, if_pos hm]
      exact ⟨rfl, rfl⟩
    · refine h.imp (fun k => (List.mem_cons.1 k).resolve_left hm) fun k => ?_
      unfold State.inFresh
      rw [refIn_rearmIn, if_neg hm]
      exact k

/-- REARM enables the inputs that it names. -/
theorem refInRearm_enables (h : s.accepts R.REF_IN_REARM) : Answers (exec (.refInRearm v) s) fun t =>
      (∀ n : Fin 4, maskBit (F.REF_IN_REARM_REARM.get v) n = true → (t.refIn n).disabled = false ∧ (t.refIn n).lost =
        0) ∧
      s.sameBut t [R.REF_CANDk_STATUS 0, R.REF_CANDk_STATUS 1, R.REF_CANDk_STATUS 2, R.REF_CANDk_STATUS 3] ∧
      s.sameParts t [.ref] := by
  refine Answers.ofCommand (A := (· ∈ [R.REF_CANDk_STATUS 0, R.REF_CANDk_STATUS 1, R.REF_CANDk_STATUS 2,
    R.REF_CANDk_STATUS 3])) (ps := [.ref]) h (by decide) (by decide)
    (t := (maskBits (F.REF_IN_REARM_REARM.get v) 4).foldl State.rearmIn (s.setReg R.REF_IN_REARM (s.reg R.REF_IN_REARM)))
    rfl ?_ fun u L C => ⟨fun n hn => ?_, C.sameBut, C.parts⟩
  · refine (Changes.foldl_mem_iff fun t m hm => ?_).2 .refl
    have hc := candOfIn_lt (s := t) ⟨m, List.mem_range.1 (List.mem_of_mem_filter hm)⟩
    have hA : R.REF_CANDk_STATUS (t.candOfIn m) ∈ [R.REF_CANDk_STATUS 0, R.REF_CANDk_STATUS 1, R.REF_CANDk_STATUS 2,
        R.REF_CANDk_STATUS 3] := by
      revert hc
      generalize t.candOfIn m = c
      intro hc
      interval_cases c <;> simp
    unfold State.rearmIn
    rw [Changes.judge_iff hA (by simp), Changes.setRefIn_iff (by simp)]
  · rw [L.refIn]
    exact inFresh_foldl _ _ (.inl (List.mem_filter.2 ⟨List.mem_range.2 n.isLt, hn⟩))

/-- Settles O47. -/
theorem oscillatorAndReferenceInputs : Obligations.OscillatorAndReferenceInputs :=
  ⟨fun _ _ hs hb hf => oscFreqMismatch_reports hs hb hf, fun _ hs => oscFreqOkRestored_ready hs,
    fun _ _ hs => oscWarmChange_ready hs, fun _ _ h _ => oscFreqChange_holds h,
    fun _ _ _ hs hj hk hl hw hp => warmGate_warms hs hj hk hl hw hp, fun _ hs hj ht hw => warmTimeout_warms hs hj ht hw,
    fun _ _ hs hj hk => warmGate_counts hs hj hk, fun _ _ _ hs hj hk h => warmGate_joins hs hj hk h,
    fun _ hs h hk => warmTimeout_still hs h hk, fun _ _ hs hb => oscFreqMismatch_again hs hb,
    fun _ _ _ hs hd hp => refInputEdge_kept hs hd hp, fun _ _ _ _ hs hd hp hc => refInputEdge_lost hs hd hp hc,
    fun _ _ _ hs hd => refInputEdge_disabled hs hd, fun _ _ hs hk => refInputStuck_rejects hs hk,
    fun _ _ hs he hl hd hf => refOverrunInterval_disables hs he hl hd hf,
    fun _ _ hs h => refOverrunInterval_counts hs (.inr (.inl h)), fun _ _ h => refInRearm_enables h,
    fun _ _ hs h => Answers.still hs (if_pos h), fun _ _ hs h => refOverrunInterval_counts hs (h.imp id .inr)⟩

end Sys2Proof.Machine
end

section

/-! ## The operations of the selector (R118 to R122) -/

set_option Elab.async false

namespace Sys2Proof.Machine

variable {A : Nat → Prop} {ps : List Part} {s t : State} {a st ev e k : Nat} {b : Bool} {err rate : Int} {f : Fld}

/-! ### What they change -/

@[simp] theorem Changes.timeQuality_iff : Changes A ps s (t.timeQuality b) ↔ Changes A ps s t := Changes.note_iff

@[simp] theorem Changes.condChanged_iff : Changes A ps s (t.condChanged k) ↔ Changes A ps s t := by
  unfold State.condChanged
  simp

@[simp] theorem Changes.breakFit_iff (h : .hld ∈ ps) : Changes A ps s t.breakFit ↔ Changes A ps s t := Changes.setHld_iff t h

@[simp] theorem Changes.clearLock_iff (h : .ref ∈ ps) : Changes A ps s t.clearLock ↔ Changes A ps s t := Changes.setRef_iff t h

@[simp] theorem Changes.setModelRate_iff (h : .ref ∈ ps) : Changes A ps s (t.setModelRate b) ↔ Changes A ps s t :=
  Changes.setRef_iff t h

@[simp] theorem Changes.formForced_iff (h : A R.REF_STATUS) : Changes A ps s t.formForced ↔ Changes A ps s t := Changes.pb_iff h

@[simp] theorem Changes.enterSel_iff (h : A R.REF_STATUS) (hr : .ref ∈ ps) (hh : .hld ∈ ps) :
    Changes A ps s (t.enterSel st ev) ↔ Changes A ps s t := by
  unfold State.enterSel
  simp [h, hr, hh]

@[simp] theorem Changes.setTarget_iff (h : A R.REF_STATUS) (hr : .ref ∈ ps) :
    Changes A ps s (t.setTarget e) ↔ Changes A ps s t := by
  unfold State.setTarget
  simp [h, hr]

@[simp] theorem Changes.fixAnchor_iff (h : .hld ∈ ps) : Changes A ps s t.fixAnchor ↔ Changes A ps s t := by
  unfold State.fixAnchor
  simp [h]

@[simp] theorem Changes.keepModel_iff (hr : .ref ∈ ps) (ht : .tsc ∈ ps) : Changes A ps s t.keepModel ↔ Changes A ps s t := by
  unfold State.keepModel
  simp [hr, ht]

@[simp] theorem Changes.toModel_iff (hr : .ref ∈ ps) (ht : .tsc ∈ ps) (hh : .hld ∈ ps) :
    Changes A ps s t.toModel ↔ Changes A ps s t := by
  unfold State.toModel
  simp [hr, ht, hh]

@[simp] theorem Changes.holdRec_iff : Changes A ps s (t.holdRec k) ↔ Changes A ps s t := Changes.note_iff

@[simp] theorem Changes.beginEpisode_iff (h : A R.HLD_STATUS) (h' : A R.HLD_ELAPSED) (hh : .hld ∈ ps) :
    Changes A ps s t.beginEpisode ↔ Changes A ps s t := by
  unfold State.beginEpisode
  simp [h, h', hh]

@[simp] theorem Changes.endEpisode_iff (h : A R.HLD_STATUS) (hh : .hld ∈ ps) :
    Changes A ps s t.endEpisode ↔ Changes A ps s t := by
  unfold State.endEpisode
  simp [h, hh]

@[simp] theorem Changes.loopRate_iff (ht : .tsc ∈ ps) : Changes A ps s (t.loopRate k rate) ↔ Changes A ps s t := by
  unfold State.loopRate
  simp [ht]

@[simp] theorem Changes.guardCheck_iff (h : A R.REF_STATUS) (hh : .hld ∈ ps) :
    Changes A ps s (t.guardCheck err) ↔ Changes A ps s t := by
  unfold State.guardCheck
  simp [h, hh]

@[simp] theorem Changes.lockCount_iff (hr : .ref ∈ ps) : Changes A ps s (t.lockCount err) ↔ Changes A ps s t :=
  Changes.setRef_iff t hr

@[simp] theorem Changes.toLocked_iff (h : A R.REF_STATUS) (h' : A R.HLD_STATUS) (hr : .ref ∈ ps) (hh : .hld ∈ ps) :
    Changes A ps s t.toLocked ↔ Changes A ps s t := by
  unfold State.toLocked
  simp [h, h', hr, hh]

theorem Changes.toAcquire_iff (h : A R.REF_STATUS) (h' : b = true → A R.HLD_STATUS) (hr : .ref ∈ ps) (hh : .hld ∈ ps) :
    Changes A ps s (t.toAcquire e b) ↔ Changes A ps s t := by
  unfold State.toAcquire
  cases b
  · simp [h, hr, hh]
  · simp [h, h', hr, hh]

@[simp] theorem Changes.toSwitch_iff (h : A R.REF_STATUS) (hr : .ref ∈ ps) (ht : .tsc ∈ ps) (hh : .hld ∈ ps) :
    Changes A ps s (t.toSwitch e b) ↔ Changes A ps s t := by
  unfold State.toSwitch
  simp [h, hr, ht, hh]

@[simp] theorem Changes.toHoldover_iff (h : A R.REF_STATUS) (h' : A R.HLD_STATUS) (he : A R.HLD_ELAPSED) (hr : .ref ∈ ps)
    (ht : .tsc ∈ ps) (hh : .hld ∈ ps) : Changes A ps s (t.toHoldover b) ↔ Changes A ps s t := by
  unfold State.toHoldover
  simp [h, h', he, hr, ht, hh]

/-! ### The registers and the parts after them -/

section parts

@[simp] theorem reg_timeQuality : (s.timeQuality b).reg a = s.reg a := State.reg_note
@[simp] theorem ref_timeQuality : (s.timeQuality b).ref = s.ref := State.note_ref
@[simp] theorem tsc_timeQuality : (s.timeQuality b).tsc = s.tsc := State.note_tsc
@[simp] theorem hld_timeQuality : (s.timeQuality b).hld = s.hld := State.note_hld
@[simp] theorem hif_timeQuality : (s.timeQuality b).hif = s.hif := State.note_hif

@[simp] theorem ref_selRec {n c w : Nat} : (s.selRec k n c w).ref = s.ref := State.note_ref
@[simp] theorem tsc_selRec {n c w : Nat} : (s.selRec k n c w).tsc = s.tsc := State.note_tsc
@[simp] theorem hld_selRec {n c w : Nat} : (s.selRec k n c w).hld = s.hld := State.note_hld
@[simp] theorem hif_selRec {n c w : Nat} : (s.selRec k n c w).hif = s.hif := State.note_hif

theorem reg_condChanged (h : a ≠ R.REF_RAW) : (s.condChanged k).reg a = s.reg a := by
  unfold State.condChanged
  simp [h]

theorem ref_condChanged : (s.condChanged k).ref = s.ref := by simp [State.condChanged]
theorem tsc_condChanged : (s.condChanged k).tsc = s.tsc := by simp [State.condChanged]
theorem hld_condChanged : (s.condChanged k).hld = s.hld := by simp [State.condChanged]
theorem hif_condChanged : (s.condChanged k).hif = s.hif := by simp [State.condChanged]

theorem KeepsBits.condChanged : KeepsBits R.REF_RAW s (s.condChanged k) :=
  (KeepsBits.raw (f := F.REF_RAW_COND_CHANGE) (by decide) rfl).trans (.ofReg (by simp [State.condChanged]))

/-- The selector in state `st`, before it reports. -/
def State.inSel (s : State) (st : Nat) : State :=
  let t := (s.p R.REF_STATUS F.REF_STATUS_STATE st).breakFit.clearLock.formForced
  t.p R.REF_STATUS F.REF_STATUS_COND t.condNow

/-- An entered state is the state, and reports of it. -/
theorem enterSel_rel {P : State → State → Prop} (hr : ∀ u, P u u) (ht : ∀ u v w, P u v → P v w → P u w)
    (hn : ∀ u n c w, P u (u.selRec s.selState n c w)) (hc : ∀ u, P u (u.condChanged s.selState)) :
    P (s.inSel st) (s.enterSel st ev) := by
  unfold State.enterSel
  extract_lets before x c moved y z
  have h : P (s.inSel st) z := by
    unfold z
    split
    · exact hr _
    · exact hn _ _ _ _
  split
  · exact ht _ _ _ h (hc _)
  · exact h

theorem reg_enterSel (h : a ≠ R.REF_RAW) : (s.enterSel st ev).reg a = (s.inSel st).reg a :=
  enterSel_rel (P := fun u v => v.reg a = u.reg a) (fun _ => rfl) (fun _ _ _ h k => k.trans h) (fun _ _ _ _ => reg_selRec)
    fun _ => reg_condChanged h

@[simp] theorem ref_enterSel : (s.enterSel st ev).ref = { s.ref with inLock := 0, outLock := 0 } :=
  (enterSel_rel (P := fun u v => v.ref = u.ref) (fun _ => rfl) (fun _ _ _ h k => k.trans h) (fun _ _ _ _ => ref_selRec)
    fun _ => ref_condChanged).trans (by simp [State.inSel, State.formForced, State.clearLock, State.setRef, State.breakFit, State.setHld])

@[simp] theorem tsc_enterSel : (s.enterSel st ev).tsc = s.tsc :=
  (enterSel_rel (P := fun u v => v.tsc = u.tsc) (fun _ => rfl) (fun _ _ _ h k => k.trans h) (fun _ _ _ _ => tsc_selRec)
    fun _ => tsc_condChanged).trans (by simp [State.inSel, State.formForced, State.clearLock, State.setRef, State.breakFit, State.setHld])

@[simp] theorem hif_enterSel : (s.enterSel st ev).hif = s.hif :=
  (enterSel_rel (P := fun u v => v.hif = u.hif) (fun _ => rfl) (fun _ _ _ h k => k.trans h) (fun _ _ _ _ => hif_selRec)
    fun _ => hif_condChanged).trans (by simp [State.inSel, State.formForced, State.clearLock, State.setRef, State.breakFit, State.setHld])

@[simp] theorem episode_enterSel : (s.enterSel st ev).hld.episode = s.hld.episode :=
  (enterSel_rel (P := fun u v => v.hld.episode = u.hld.episode) (fun _ => rfl) (fun _ _ _ h k => k.trans h)
    (fun _ _ _ _ => by rw [hld_selRec]) fun _ => by rw [hld_condChanged]).trans
    (by simp [State.inSel, State.formForced, State.clearLock, State.setRef, State.breakFit, State.setHld])

theorem KeepsBits.enterSel : KeepsBits R.REF_RAW s (s.enterSel st ev) :=
  (KeepsBits.ofReg (by simp [State.inSel, State.formForced, State.clearLock, State.breakFit])).trans
    (enterSel_rel (P := KeepsBits R.REF_RAW) (fun _ => .refl) (fun _ _ _ h k => h.trans k) (fun _ _ _ _ => .ofReg reg_selRec)
      fun _ => .condChanged)

/-! ### What `REF_STATUS` shows -/

/-- The fields of `REF_STATUS` that a state of the selector keeps. -/
def targetFields : List Fld := [F.REF_STATUS_SEL_ENTRY, F.REF_STATUS_SEL_CAND, F.REF_STATUS_SEL_CLASS, F.REF_STATUS_GUARDING]

theorem state_inSel (h : st < 8) : (s.inSel st).g R.REF_STATUS F.REF_STATUS_STATE = st := by
  simp [State.inSel, State.g, State.formForced, State.clearLock, State.breakFit, Fld.get_put, Fld.get_put_ne, Nat.mod_eq_of_lt h]

theorem g_inSel (h : f ∈ targetFields) : (s.inSel st).g R.REF_STATUS f = s.g R.REF_STATUS f := by
  simp only [targetFields, List.mem_cons, List.not_mem_nil, or_false] at h
  rcases h with rfl | rfl | rfl | rfl <;>
    simp [State.inSel, State.g, State.formForced, State.clearLock, State.breakFit, Fld.get_put_ne]

theorem g_enterSel (h : f ∈ targetFields) : (s.enterSel st ev).g R.REF_STATUS f = s.g R.REF_STATUS f :=
  (congrArg f.get (reg_enterSel (by decide))).trans (g_inSel h)

theorem state_enterSel (h : st < 8) : (s.enterSel st ev).g R.REF_STATUS F.REF_STATUS_STATE = st :=
  (congrArg F.REF_STATUS_STATE.get (reg_enterSel (by decide))).trans (state_inSel h)

/-- LOCKED is COND 1 (R125). -/
theorem cond_enterSel_two : (s.enterSel 2 ev).g R.REF_STATUS F.REF_STATUS_COND = 1 := by
  refine (congrArg F.REF_STATUS_COND.get (reg_enterSel (by decide))).trans ?_
  unfold State.inSel
  extract_lets t
  have h : t.selState = 2 := by
    simp [t, State.selState, State.g, State.formForced, State.clearLock, State.breakFit, Fld.get_put, Fld.get_put_ne]
  have hc : t.condNow = 1 := by
    unfold State.condNow
    simp only [h]
  simp [hc, Fld.get_put]

theorem candClass_congr (h : ∀ n < 4, t.reg (R.REF_INn_CFG n) = s.reg (R.REF_INn_CFG n)) : t.candClass k = s.candClass k := by
  have m (n : Nat) (hn : n < 4) : t.inMode n = s.inMode n := congrArg F.REF_INn_CFG_MODE.get (h n hn)
  unfold State.candClass State.companion
  rw [m 0 (by decide), m 2 (by decide)]
  by_cases hk : k < 4
  · rw [m k hk]
  · simp [hk]

theorem candClass_lt : s.candClass k < 4 := by
  unfold State.candClass
  split
  · split
    · decide
    · split <;> decide
  · split
    · decide
    · split <;> decide

/-- The target after it is set. -/
structure Targets (s : State) (e : Nat) (t : State) : Prop where
  entry : t.g R.REF_STATUS F.REF_STATUS_SEL_ENTRY = e
  cand : t.g R.REF_STATUS F.REF_STATUS_SEL_CAND = s.prioCand e
  class' : t.g R.REF_STATUS F.REF_STATUS_SEL_CLASS = s.candClass (s.prioCand e)

theorem cfg_ne_status {n : Nat} (h : n < 4) : R.REF_INn_CFG n ≠ R.REF_STATUS := by
  simp only [R.REF_INn_CFG, R.REF_STATUS]
  omega

theorem setTarget_reg (he : e < 16) : Targets s e (s.setTarget e) ∧
    (s.setTarget e).g R.REF_STATUS F.REF_STATUS_STATE = s.g R.REF_STATUS F.REF_STATUS_STATE := by
  have hk : s.prioCand e < 64 := Fld.get_lt _ _
  have hc : ((s.p R.REF_STATUS F.REF_STATUS_SEL_ENTRY e).p R.REF_STATUS F.REF_STATUS_SEL_CAND (s.prioCand e)).candClass
      (s.prioCand e) = s.candClass (s.prioCand e) := candClass_congr fun n hn => by simp [cfg_ne_status hn]
  have hl : s.candClass (s.prioCand e) < 4 := candClass_lt
  have er : (s.setTarget e).reg R.REF_STATUS = _ := (State.reg_setRef).trans (State.reg_setRef.trans State.reg_pb)
  simp only [State.reg_p, if_true, hc] at er
  refine ⟨⟨?_, ?_, ?_⟩, ?_⟩ <;> unfold State.g <;>
    simp [er, Fld.get_put, Fld.get_put_ne, Nat.mod_eq_of_lt, he, hk, hl]

@[simp] theorem ref_setTarget : (s.setTarget e).ref =
    { s.ref with measured := false, withdrawn := false, remeasure := false, offs := [], inLock := 0, outLock := 0 } := by
  simp [State.setTarget, State.clearLock, State.setRef, State.formForced]

@[simp] theorem reg_setTarget (h : a ≠ R.REF_STATUS) : (s.setTarget e).reg a = s.reg a := by
  simp [State.setTarget, State.clearLock, State.formForced, h]

theorem Targets.of_g {u : State} (T : Targets s e t) (h : ∀ f ∈ targetFields, u.g R.REF_STATUS f = t.g R.REF_STATUS f) :
    Targets s e u :=
  ⟨(h _ (by decide)).trans T.entry, (h _ (by decide)).trans T.cand, (h _ (by decide)).trans T.class'⟩

theorem Targets.of_reg {u : State} (T : Targets s e t) (h : u.reg R.REF_STATUS = t.reg R.REF_STATUS) : Targets s e u :=
  T.of_g fun _ _ => by unfold State.g; rw [h]

end parts

end Sys2Proof.Machine
end

section

/-! ## The moves of the selector (R118 to R122, R128) -/

set_option Elab.async false

namespace Sys2Proof.Machine

variable {A : Nat → Prop} {ps : List Part} {s t : State} {a st ev e k : Nat} {b : Bool} {err rate r : Int} {f : Fld}

/-! ### Into ACQUIRE, LOCKED, SWITCH and HOLDOVER -/

theorem ref_ite {p : Prop} [Decidable p] : State.ref (if p then s else t) = if p then s.ref else t.ref := apply_ite ..

theorem tsc_ite {p : Prop} [Decidable p] : State.tsc (if p then s else t) = if p then s.tsc else t.tsc := apply_ite ..

theorem fromHold_ite {p : Prop} [Decidable p] :
    (if p then s else t).ref.fromHold = if p then s.ref.fromHold else t.ref.fromHold := apply_ite (fun x : State => x.ref.fromHold) ..

@[simp] theorem ref_supplyRate : (s.supplyRate r).ref = s.ref := by
  unfold State.supplyRate
  split <;> rfl

@[simp] theorem hif_supplyRate : (s.supplyRate r).hif = s.hif := by
  unfold State.supplyRate
  split <;> rfl

theorem keepModel_eq : s.keepModel = (s.setModelRate true).supplyRate (s.setModelRate true).modelRateNow := rfl

@[simp] theorem reg_keepModel : s.keepModel.reg a = s.reg a := by
  rw [keepModel_eq, State.reg_supplyRate]
  rfl

@[simp] theorem ref_keepModel : s.keepModel.ref = { s.ref with modelRate := true } := by
  rw [keepModel_eq, ref_supplyRate]
  rfl

@[simp] theorem hif_keepModel : s.keepModel.hif = s.hif := by
  rw [keepModel_eq, hif_supplyRate]
  rfl

theorem fixAnchor_eq : ∃ h : Hld, s.fixAnchor = s.setHld h ∧ h.episode = s.hld.episode := by
  unfold State.fixAnchor
  extract_lets m mean yThen h
  split
  · split
    · exact ⟨_, rfl, rfl⟩
    · exact ⟨_, rfl, rfl⟩
  · split
    · exact ⟨_, rfl, rfl⟩
    · exact ⟨_, rfl, rfl⟩

@[simp] theorem reg_fixAnchor : s.fixAnchor.reg a = s.reg a := by
  obtain ⟨h, e, -⟩ := fixAnchor_eq (s := s)
  rw [e]
  rfl

@[simp] theorem ref_fixAnchor : s.fixAnchor.ref = s.ref := by
  obtain ⟨h, e, -⟩ := fixAnchor_eq (s := s)
  rw [e]
  rfl

@[simp] theorem hif_fixAnchor : s.fixAnchor.hif = s.hif := by
  obtain ⟨h, e, -⟩ := fixAnchor_eq (s := s)
  rw [e]
  rfl

@[simp] theorem episode_fixAnchor : s.fixAnchor.hld.episode = s.hld.episode := by
  obtain ⟨h, e, he⟩ := fixAnchor_eq (s := s)
  rw [e]
  exact he

theorem toModel_eq : s.toModel = s.fixAnchor.keepModel := rfl

/-- What a target is rests on the registers alone. -/
theorem Targets.of_source {s' : State} (T : Targets s' e t) (h : ∀ a, a ≠ R.REF_STATUS → s'.reg a = s.reg a) (he : e < 16) :
    Targets s e t := by
  have hp : R.REF_PRIOn e ≠ R.REF_STATUS := by simp only [R.REF_PRIOn, R.REF_STATUS]; omega
  have hk : s'.prioCand e = s.prioCand e := congrArg F.REF_PRIOn_CAND.get (h _ hp)
  have hc (k : Nat) : s'.candClass k = s.candClass k := candClass_congr fun n hn => h _ (cfg_ne_status hn)
  exact ⟨T.entry, by rw [T.cand, hk], by rw [T.class', hk, hc]⟩

theorem toAcquire_eq : ∃ x : State, s.toAcquire e b = x.enterSel 1 0 ∧ x.reg R.REF_STATUS = (s.setTarget e).reg R.REF_STATUS ∧
    x.ref.fromHold = b := by
  unfold State.toAcquire
  extract_lets r t freq q y z
  have h1 : y.reg R.REF_STATUS = (s.setTarget e).reg R.REF_STATUS ∧ y.ref.fromHold = b := by
    unfold y
    split
    · exact ⟨State.reg_setRef.trans State.reg_setRef, rfl⟩
    · exact ⟨State.reg_setRef, rfl⟩
  refine ⟨z, rfl, ?_⟩
  unfold z
  split
  · rw [State.reg_p, if_neg (by decide), State.p_ref]
    exact h1
  · exact h1

theorem toAcquire_shows (he : e < 16) : (s.toAcquire e b).g R.REF_STATUS F.REF_STATUS_STATE = 1 ∧ Targets s e (s.toAcquire e b) ∧
    (s.toAcquire e b).ref.fromHold = b := by
  obtain ⟨x, ex, hx, hb⟩ := toAcquire_eq (s := s) (e := e) (b := b)
  rw [ex]
  exact ⟨state_enterSel (by decide), ((setTarget_reg he).1.of_reg hx).of_g fun f hf => g_enterSel hf, by rw [ref_enterSel]; exact hb⟩

/-- The selector in SWITCH to entry `e`. -/
def State.switchTo (s : State) (e : Nat) : State :=
  (((s.setTarget e).p R.REF_STATUS F.REF_STATUS_GUARDING 0).raw R.REF_RAW F.REF_RAW_SWITCH).enterSel 3 2

theorem toSwitch_eq : s.toSwitch e b = State.switchTo (if b then s.toModel else s.fixAnchor) e := by
  unfold State.toSwitch State.switchTo
  rfl

theorem switchTo_shows (he : e < 16) : (s.switchTo e).g R.REF_STATUS F.REF_STATUS_STATE = 3 ∧ Targets s e (s.switchTo e) ∧
    (s.switchTo e).ref.modelRate = s.ref.modelRate ∧ (s.switchTo e).isSet R.REF_RAW F.REF_RAW_SWITCH := by
  have T := (setTarget_reg (s := s) he).1
  have hg (f : Fld) (h : f ∈ [F.REF_STATUS_SEL_ENTRY, F.REF_STATUS_SEL_CAND, F.REF_STATUS_SEL_CLASS]) :
      (s.switchTo e).g R.REF_STATUS f = (s.setTarget e).g R.REF_STATUS f := by
    rw [State.switchTo, g_enterSel (List.mem_of_mem_dropLast (l := targetFields) h)]
    simp only [List.mem_cons, List.not_mem_nil, or_false] at h
    rcases h with rfl | rfl | rfl <;> simp [State.g, Fld.get_put_ne]
  refine ⟨state_enterSel (by decide), ⟨(hg _ (by decide)).trans T.entry, (hg _ (by decide)).trans T.cand,
    (hg _ (by decide)).trans T.class'⟩, ?_, KeepsBits.enterSel.isSet (by decide) rfl (State.isSet_raw (by decide) rfl)⟩
  rw [State.switchTo, ref_enterSel]
  simp

theorem toSwitch_shows (he : e < 16) : (s.toSwitch e b).g R.REF_STATUS F.REF_STATUS_STATE = 3 ∧ Targets s e (s.toSwitch e b) ∧
    (b = true → (s.toSwitch e b).ref.modelRate = true) ∧ (s.toSwitch e b).isSet R.REF_RAW F.REF_RAW_SWITCH := by
  rw [toSwitch_eq]
  obtain ⟨h1, h2, h3, h4⟩ := switchTo_shows (s := if b then s.toModel else s.fixAnchor) he
  refine ⟨h1, h2.of_source (fun a _ => ?_) he, fun h => ?_, h4⟩
  · rw [toModel_eq]
    simp
  · rw [h3, if_pos h, toModel_eq, ref_keepModel]

/-- A fault record changes nothing that the selector shows. -/
theorem fault_keeps {d p : Nat} {q : Prop} (h1 : s.g R.REF_STATUS F.REF_STATUS_STATE = st)
    (h2 : s.isSet R.REF_RAW F.REF_RAW_HOLDOVER_ENTRY) (h3 : s.ref.modelRate = true) (h4 : s.hld.episode = true)
    (h5 : q → s.hif.fq.length < 32) : (s.fault 3 2 d p).g R.REF_STATUS F.REF_STATUS_STATE = st ∧
      (s.fault 3 2 d p).isSet R.REF_RAW F.REF_RAW_HOLDOVER_ENTRY ∧ (s.fault 3 2 d p).ref.modelRate = true ∧
      (s.fault 3 2 d p).hld.episode = true ∧
      (true = true → q → ∃ f ∈ (s.fault 3 2 d p).hif.fq, f.block = 3 ∧ f.code = 2) := by
  have hr {a : Nat} (h : a ≠ R.HIF_FQ_STATUS) (h' : a ≠ R.HIF_RAW) (f : Fld) : (s.fault 3 2 d p).g a f = s.g a f :=
    congrArg f.get (State.reg_fault h h')
  exact ⟨(hr (by decide) (by decide) _).trans h1, (hr (by decide) (by decide) _).trans h2, by rw [State.fault_ref, h3],
    by rw [State.fault_hld, h4], fun _ hl => ⟨_, State.mem_fq_fault (h5 hl), rfl, rfl⟩⟩

/-- RATE comes from the model: with its anchor of now, or with the one it has. -/
def State.modelled (s : State) : State := if s.selState = 3 ∨ (s.selState = 1 ∧ s.ref.fromHold) then s.keepModel else s.toModel

theorem modelled_shows : s.modelled.ref.modelRate = true ∧ s.modelled.hif = s.hif := by
  unfold State.modelled
  split
  · exact ⟨by rw [ref_keepModel], hif_keepModel⟩
  · rw [toModel_eq]
    exact ⟨by rw [ref_keepModel], by rw [hif_keepModel, hif_fixAnchor]⟩

theorem beginEpisode_shows : s.beginEpisode.ref = s.ref ∧ s.beginEpisode.hif = s.hif ∧ s.beginEpisode.hld.episode = true ∧
    s.beginEpisode.reg R.REF_RAW = s.reg R.REF_RAW := by
  unfold State.beginEpisode
  split
  · next h => exact ⟨rfl, rfl, h, rfl⟩
  · simp [State.holdRec, State.setHld, R.REF_RAW, R.HLD_RAW, R.HLD_STATUS, R.HLD_ELAPSED]

/-- The selector in HOLDOVER, before the fault record. -/
def State.heldOver (s : State) : State :=
  (((s.modelled.p R.REF_STATUS F.REF_STATUS_GUARDING 0).raw R.REF_RAW F.REF_RAW_HOLDOVER_ENTRY).beginEpisode).enterSel 4 3

theorem toHoldover_eq : s.toHoldover b = if b then s.heldOver.fault 3 2 s.heldOver.ref.lastSel s.heldOver.disqualMask
    else s.heldOver := by
  unfold State.toHoldover State.heldOver State.modelled
  rfl

theorem heldOver_shows : s.heldOver.g R.REF_STATUS F.REF_STATUS_STATE = 4 ∧
    s.heldOver.isSet R.REF_RAW F.REF_RAW_HOLDOVER_ENTRY ∧ s.heldOver.ref.modelRate = true ∧ s.heldOver.hld.episode = true ∧
    s.heldOver.hif = s.hif := by
  obtain ⟨hm, hq⟩ := modelled_shows (s := s)
  obtain ⟨h1, h2, h3, h4⟩ :=
    beginEpisode_shows (s := (s.modelled.p R.REF_STATUS F.REF_STATUS_GUARDING 0).raw R.REF_RAW F.REF_RAW_HOLDOVER_ENTRY)
  unfold State.heldOver
  refine ⟨state_enterSel (by decide), KeepsBits.enterSel.isSet (by decide) rfl ?_, ?_, ?_, ?_⟩
  · exact (congrArg F.REF_RAW_HOLDOVER_ENTRY.get h4).trans (State.isSet_raw (by decide) rfl)
  · rw [ref_enterSel, h1, State.raw_ref, State.p_ref, hm]
  · rw [episode_enterSel, h3]
  · rw [hif_enterSel, h2, State.raw_hif, State.p_hif, hq]

theorem toHoldover_shows : (s.toHoldover b).g R.REF_STATUS F.REF_STATUS_STATE = 4 ∧
    (s.toHoldover b).isSet R.REF_RAW F.REF_RAW_HOLDOVER_ENTRY ∧ (s.toHoldover b).ref.modelRate = true ∧
    (s.toHoldover b).hld.episode = true ∧
    (b = true → s.hif.fq.length < 32 → ∃ f ∈ (s.toHoldover b).hif.fq, f.block = 3 ∧ f.code = 2) := by
  obtain ⟨h1, h2, h3, h4, h5⟩ := heldOver_shows (s := s)
  rw [toHoldover_eq]
  cases b
  · rw [if_neg (by decide)]
    exact ⟨h1, h2, h3, h4, fun h => nomatch h⟩
  · rw [if_pos rfl]
    exact fault_keeps h1 h2 h3 h4 fun hl => by rw [h5]; exact hl

theorem toLocked_shows : s.toLocked.g R.REF_STATUS F.REF_STATUS_STATE = 2 ∧ s.toLocked.g R.REF_STATUS F.REF_STATUS_COND = 1 ∧
    s.toLocked.isSet R.REF_RAW F.REF_RAW_LOCK ∧ s.toLocked.ref.modelRate = false ∧ s.toLocked.tsc = s.tsc ∧
    s.toLocked.g R.REF_STATUS F.REF_STATUS_GUARDING = s.g R.REF_STATUS F.REF_STATUS_GUARDING ∧ KeepsBits R.REF_RAW s s.toLocked := by
  obtain ⟨x, ex, h1, h2⟩ : ∃ x : State, s.toLocked = ((x.raw R.REF_RAW F.REF_RAW_LOCK).enterSel 2 1).endEpisode ∧
      x.ref.modelRate = false ∧ x.tsc = s.tsc ∧ ∀ a, x.reg a = s.reg a := ⟨_, rfl, rfl, rfl, fun _ => rfl⟩
  obtain ⟨h2, h3⟩ := h2
  generalize hz : (x.raw R.REF_RAW F.REF_RAW_LOCK).enterSel 2 1 = z at ex
  have he : z.endEpisode.ref = z.ref ∧ z.endEpisode.tsc = z.tsc ∧ z.endEpisode.reg R.REF_STATUS = z.reg R.REF_STATUS ∧
      z.endEpisode.reg R.REF_RAW = z.reg R.REF_RAW := by
    unfold State.endEpisode
    split
    · simp [State.holdRec, State.setHld, R.REF_STATUS, R.REF_RAW, R.HLD_RAW, R.HLD_STATUS]
    · exact ⟨rfl, rfl, rfl, rfl⟩
  obtain ⟨e1, e2, e3, e4⟩ := he
  have hg (f : Fld) : z.endEpisode.g R.REF_STATUS f = z.g R.REF_STATUS f := congrArg f.get e3
  have kb : KeepsBits R.REF_RAW (x.raw R.REF_RAW F.REF_RAW_LOCK) z.endEpisode :=
    (hz ▸ KeepsBits.enterSel : KeepsBits R.REF_RAW _ z).trans (.ofReg e4)
  rw [ex, hg, hg, hg, e1, e2, ← hz]
  refine ⟨state_enterSel (by decide), cond_enterSel_two, hz ▸ kb.isSet (by decide) rfl (State.isSet_raw (by decide) rfl),
    by simp [h1], by simp [h2], ?_, ?_⟩
  · rw [g_enterSel (by decide)]
    simp [State.g, h3, R.REF_STATUS, R.REF_RAW]
  · rw [hz]
    exact (KeepsBits.ofReg (h3 _)).trans ((KeepsBits.raw (f := F.REF_RAW_LOCK) (by decide) rfl).trans kb)

end Sys2Proof.Machine
end

section

/-! ## The decision of the selector (R120, R223) -/

set_option Elab.async false

namespace Sys2Proof.Machine

variable {A : Nat → Prop} {ps : List Part} {s t m : State} {a st ev e k : Nat} {b : Bool} {err rate r : Int} {f : Fld}

/-! ### The servo moves with steering -/

@[simp] theorem Changes.setServo_iff (h : A R.PTP_STATUS) : Changes A ps s (t.setServo k) ↔ Changes A ps s t := Changes.p_iff h

@[simp] theorem Changes.servoSteer_iff (h : A R.PTP_STATUS) (hp : .ptp ∈ ps) : Changes A ps s t.servoSteer ↔ Changes A ps s t := by
  unfold State.servoSteer State.servoTracks State.servoMeasures State.startGate
  simp [h, hp]

/-- The servo's move is one of its own state and register. -/
theorem servoSteer_rel {P : State → State → Prop} (hr : ∀ u, P u u) (ht : ∀ u v w, P u v → P v w → P u w)
    (hp : ∀ u x, P u (u.setPtp x)) (hs : ∀ u n, P u (u.setServo n)) : P s s.servoSteer := by
  have h1 (u : State) : P u u.servoTracks := ht _ _ _ (ht _ _ _ (hp _ _) (hp _ _)) (hs _ _)
  have h2 (u : State) : P u u.servoMeasures := ht _ _ _ (ht _ _ _ (hp _ _) (hp _ _)) (hs _ _)
  unfold State.servoSteer
  extract_lets free q y
  have hy : P s y := by
    unfold y
    split
    · exact hp _ _
    · exact hr _
  refine ht _ _ _ hy ?_
  split
  · split
    · split
      · exact hr _
      · exact hp _ _
    · exact h1 _
  · split
    · exact h2 _
    · exact hr _

theorem reg_servoSteer (h : a ≠ R.PTP_STATUS) : s.servoSteer.reg a = s.reg a :=
  servoSteer_rel (P := fun u v => v.reg a = u.reg a) (fun _ => rfl) (fun _ _ _ h k => k.trans h) (fun _ _ => State.reg_setPtp)
    fun _ _ => by simp [State.setServo, h]

theorem tsc_servoSteer : s.servoSteer.tsc = s.tsc :=
  servoSteer_rel (P := fun u v => v.tsc = u.tsc) (fun _ => rfl) (fun _ _ _ h k => k.trans h) (fun _ _ => rfl)
    fun _ _ => State.p_tsc

theorem ref_servoSteer : s.servoSteer.ref = s.ref :=
  servoSteer_rel (P := fun u v => v.ref = u.ref) (fun _ => rfl) (fun _ _ _ h k => k.trans h) (fun _ _ => rfl)
    fun _ _ => State.p_ref

theorem hld_servoSteer : s.servoSteer.hld = s.hld :=
  servoSteer_rel (P := fun u v => v.hld = u.hld) (fun _ => rfl) (fun _ _ _ h k => k.trans h) (fun _ _ => rfl)
    fun _ _ => State.p_hld

theorem hif_servoSteer : s.servoSteer.hif = s.hif :=
  servoSteer_rel (P := fun u v => v.hif = u.hif) (fun _ => rfl) (fun _ _ _ h k => k.trans h) (fun _ _ => rfl)
    fun _ _ => State.p_hif

/-! ### The phase error is entered -/

/-- The state in which the decision is made: the phase error has entered GUARDING and the lock criterion. -/
def State.errSeen (s : State) (err : Int) : State := (s.guardCheck err).lockCount err

theorem reg_errSeen (h : a ≠ R.REF_STATUS) : (s.errSeen err).reg a = s.reg a := by
  unfold State.errSeen State.lockCount State.guardCheck State.breakFit
  simp [h]

theorem guardCheck_g (h : f.lo + f.w ≤ 7 ∨ 8 ≤ f.lo) (hf : f.lo + f.w ≤ 32) :
    (s.guardCheck err).g R.REF_STATUS f = s.g R.REF_STATUS f := by
  unfold State.guardCheck State.breakFit State.g
  rw [State.reg_ite]
  split
  · rw [State.reg_setHld, State.reg_p, if_pos rfl]
    exact Fld.get_put_ne (show 7 + 1 ≤ 32 by decide) (by simp only; omega) ..
  · rfl

theorem errSeen_g (h : f.lo + f.w ≤ 7 ∨ 8 ≤ f.lo) (hf : f.lo + f.w ≤ 32) :
    (s.errSeen err).g R.REF_STATUS f = s.g R.REF_STATUS f := guardCheck_g h hf

theorem guardCheck_parts : (s.guardCheck err).ref = s.ref ∧ (s.guardCheck err).tsc = s.tsc ∧ (s.guardCheck err).hif = s.hif ∧
    (s.guardCheck err).hld.episode = s.hld.episode := by
  unfold State.guardCheck
  split
  · simp [State.breakFit, State.setHld]
  · exact ⟨rfl, rfl, rfl, rfl⟩

theorem guardCheck_of_off (h : s.g R.REF_STATUS F.REF_STATUS_GUARDING = 0) : s.guardCheck err = s :=
  if_neg (by simp [State.on, h])

/-- The loop steers by its phase error (R120). -/
def State.steered (s : State) : Bool := decide (s.selState = 2) || decide (s.selState = 1) && s.ref.measured

theorem errSeen_ref : (s.errSeen err).ref = { s.ref with
    err := err
    inLock := if s.steered ∧ |err| ≤ nsTicks (s.g R.REF_LOCK F.REF_LOCK_LOCK_NS) then s.ref.inLock + 1 else 0
    outLock := if s.steered ∧ !((s.guardCheck err).on R.REF_STATUS F.REF_STATUS_GUARDING) ∧
      10 * nsTicks (s.g R.REF_LOCK F.REF_LOCK_LOCK_NS) < |err| then s.ref.outLock + 1 else 0 } := by
  have h := (guardCheck_parts (s := s) (err := err)).1
  have hs : (s.guardCheck err).selState = s.selState := guardCheck_g (by decide) (by decide)
  have hw : (s.guardCheck err).g R.REF_LOCK F.REF_LOCK_LOCK_NS = s.g R.REF_LOCK F.REF_LOCK_LOCK_NS :=
    congrArg F.REF_LOCK_LOCK_NS.get (reg_errSeen (by decide))
  unfold State.errSeen State.lockCount State.setRef State.steered
  simp only [h, hs, hw]

theorem outLock_errSeen : (s.errSeen err).ref.outLock ≤ s.ref.outLock + 1 := by
  rw [errSeen_ref]
  show (if _ then _ else _) ≤ _
  split
  · exact le_rfl
  · exact Nat.zero_le _

theorem inLock_errSeen : (s.errSeen err).ref.inLock ≤ s.ref.inLock + 1 := by
  rw [errSeen_ref]
  show (if _ then _ else _) ≤ _
  split
  · exact le_rfl
  · exact Nat.zero_le _

theorem changes_errSeen (h : A R.REF_STATUS) (hr : .ref ∈ ps) (hh : .hld ∈ ps) : Changes A ps s (s.errSeen err) := by
  unfold State.errSeen
  simp [h, hr, hh]

/-! ### What the phase error leaves -/

theorem prio_ne_status (h : e < 16) : R.REF_PRIOn e ≠ R.REF_STATUS := by
  simp only [R.REF_PRIOn, R.REF_STATUS]
  omega

theorem eligible_errSeen (h : e < 16) : (s.errSeen err).eligible e = s.eligible e := by
  have hc (k : Nat) : (s.errSeen err).cand k = s.cand k := by
    unfold State.cand
    rw [errSeen_ref]
  have hp (j : Nat) (hj : j < 16) (f : Fld) : (s.errSeen err).g (R.REF_PRIOn j) f = s.g (R.REF_PRIOn j) f :=
    congrArg f.get (reg_errSeen (prio_ne_status hj))
  have ho (j : Nat) (hj : j < 16) : (s.errSeen err).prioOn j = s.prioOn j ∧ (s.errSeen err).prioCand j = s.prioCand j :=
    ⟨by unfold State.prioOn State.on; rw [hp j hj], hp j hj _⟩
  have hE (k : Nat) : (s.errSeen err).entryOf k = s.entryOf k := by
    unfold State.entryOf
    refine List.find?_congr fun j hj => ?_
    obtain ⟨h1, h2⟩ := ho j (List.mem_range.1 hj)
    rw [h1, h2]
  obtain ⟨h1, h2⟩ := ho e h
  unfold State.eligible State.qualified
  rw [h1, h2, hE, hc]

theorem force_lt : s.g R.REF_CTRL F.REF_CTRL_FORCE_ENTRY < 16 := Fld.get_lt _ _

theorem chosen_errSeen : (s.errSeen err).chosen = s.chosen := by
  have hg (f : Fld) : (s.errSeen err).g R.REF_CTRL f = s.g R.REF_CTRL f := congrArg f.get (reg_errSeen (by decide))
  unfold State.chosen State.on
  have hf : (List.range 16).find? (s.errSeen err).eligible = (List.range 16).find? s.eligible :=
    List.find?_congr fun j hj => eligible_errSeen (List.mem_range.1 hj)
  simp only [hg, hf, eligible_errSeen force_lt]

theorem moveDue_errSeen : (s.errSeen err).moveDue = s.moveDue := by
  have hg (f : Fld) : (s.errSeen err).g R.REF_CTRL f = s.g R.REF_CTRL f := congrArg f.get (reg_errSeen (by decide))
  have hc : (s.errSeen err).g R.REF_STATUS F.REF_STATUS_SEL_ENTRY = s.g R.REF_STATUS F.REF_STATUS_SEL_ENTRY :=
    errSeen_g (by decide) (by decide)
  have hl : s.g R.REF_STATUS F.REF_STATUS_SEL_ENTRY < 16 := Fld.get_lt _ _
  unfold State.moveDue State.on
  have hf : (List.range (s.g R.REF_STATUS F.REF_STATUS_SEL_ENTRY)).find?
        (fun e => (s.errSeen err).eligible e && (s.errSeen err).ref.wtr.contains e) =
      (List.range (s.g R.REF_STATUS F.REF_STATUS_SEL_ENTRY)).find? (fun e => s.eligible e && s.ref.wtr.contains e) :=
    List.find?_congr fun j hj => by
      rw [eligible_errSeen (lt_trans (List.mem_range.1 hj) hl), errSeen_ref]
  simp only [hg, hc, hf, eligible_errSeen force_lt]

theorem targetLost_errSeen : (s.errSeen err).targetLost = s.targetLost := by
  have hc : (s.errSeen err).g R.REF_STATUS F.REF_STATUS_SEL_CAND = s.g R.REF_STATUS F.REF_STATUS_SEL_CAND :=
    errSeen_g (by decide) (by decide)
  unfold State.targetLost State.qualified State.cand
  rw [hc, errSeen_ref]

theorem lockGone_errSeen (h : s.ref.outLock + 1 < 1000) : (s.errSeen err).lockGone = false := by
  have k := outLock_errSeen (s := s) (err := err)
  exact decide_eq_false (by omega)

theorem Targets.of_errSeen (T : Targets (s.errSeen err) e t) (he : e < 16) : Targets s e t :=
  T.of_source (fun _ h => reg_errSeen h) he

/-! ### The decision -/

/-- What a decision shows, once its state is known. -/
structure Decided (s m u : State) : Prop where
  status : ∀ f : Fld, u.g R.REF_STATUS f = m.g R.REF_STATUS f
  ref : u.ref = m.ref
  tsc : u.tsc = m.tsc
  hld : u.hld = m.hld
  fq : m.hif.fq ⊆ u.hif.fq
  bits : KeepsBits R.REF_RAW m u

/-- The answer of a decision. -/
theorem decisionAnswers {P : State → Prop} (hs : s.inReset = false) (e : s.selDecide err rate = m) (h : A R.PTP_STATUS)
    (C : Changes A [.tsc, .ref, .hld, .ptp] s m)
    (hP : ∀ u, Decided s m u → Changes A [.tsc, .ref, .hld, .ptp] s u → P u) : Answers (exec (.selectorDecision err rate) s) P := by
  show Answers (done s ((s.selDecide err rate).servoSteer)) P
  rw [e]
  refine Answers.ofChanges hs ((Changes.servoSteer_iff h (by simp)).2 C) fun u L C' => hP u ⟨fun f => ?_, ?_, ?_, ?_, ?_, ?_⟩ C'
  · rw [L.g (by decide)]
    exact congrArg f.get (reg_servoSteer (by decide))
  · rw [L.ref, ref_servoSteer]
  · rw [L.tsc, tsc_servoSteer]
  · rw [L.hld, hld_servoSteer]
  · rw [← hif_servoSteer (s := m)]
    exact L.fq.subset
  · exact (KeepsBits.ofReg (reg_servoSteer (by decide))).trans (.ofLogs (by decide) L)

theorem running_errSeen : (s.errSeen err).running = s.running :=
  congrArg (F.BOOT_STATUS_STATE.get · == 7) (reg_errSeen (by decide))

theorem enable_errSeen : (s.errSeen err).on R.REF_CTRL F.REF_CTRL_ENABLE = s.on R.REF_CTRL F.REF_CTRL_ENABLE :=
  congrArg (F.REF_CTRL_ENABLE.get · != 0) (reg_errSeen (by decide))

theorem selState_errSeen : (s.errSeen err).selState = s.selState := errSeen_g (by decide) (by decide)

theorem fold_errSeen : (s.guardCheck err).lockCount err = s.errSeen err := rfl

section
variable (hr : s.running = true) (hE : s.on R.REF_CTRL F.REF_CTRL_ENABLE = true)
include hr hE

theorem selDecide_free (h : s.selState = 0) (hc : s.chosen = some e) : s.selDecide err rate = (s.errSeen err).toAcquire e false := by
  unfold State.selDecide
  simp only [fold_errSeen, running_errSeen, enable_errSeen, selState_errSeen, chosen_errSeen, hr, hE, h, hc, Bool.and_self, if_true]

theorem selDecide_free_none (h : s.selState = 0) (hc : s.chosen = none) : s.selDecide err rate = s.errSeen err := by
  unfold State.selDecide
  simp only [fold_errSeen, running_errSeen, enable_errSeen, selState_errSeen, chosen_errSeen, hr, hE, h, hc, Bool.and_self, if_true]

theorem selDecide_holdover (h : s.selState = 4) (hc : s.chosen = some e) :
    s.selDecide err rate = (s.errSeen err).toAcquire e true := by
  unfold State.selDecide
  simp [fold_errSeen, running_errSeen, enable_errSeen, selState_errSeen, chosen_errSeen, hr, hE, h, hc]

theorem selDecide_holdover_none (h : s.selState = 4) (hc : s.chosen = none) : s.selDecide err rate = s.errSeen err := by
  unfold State.selDecide
  simp [fold_errSeen, running_errSeen, enable_errSeen, selState_errSeen, chosen_errSeen, hr, hE, h, hc]

theorem selDecide_acquire (h : s.selState = 1) : s.selDecide err rate = (s.errSeen err).decideAcquire rate := by
  unfold State.selDecide
  simp [fold_errSeen, running_errSeen, enable_errSeen, selState_errSeen, hr, hE, h]

theorem selDecide_locked (h : s.selState = 2) : s.selDecide err rate = (s.errSeen err).decideLocked rate := by
  unfold State.selDecide
  simp [fold_errSeen, running_errSeen, enable_errSeen, selState_errSeen, hr, hE, h]

theorem selDecide_switch (h : s.selState = 3) : s.selDecide err rate = (s.errSeen err).decideSwitch rate := by
  unfold State.selDecide
  simp [fold_errSeen, running_errSeen, enable_errSeen, selState_errSeen, hr, hE, h]

end

theorem selDecide_off (h : s.running = false ∨ s.on R.REF_CTRL F.REF_CTRL_ENABLE = false) : s.selDecide err rate =
    if s.selState = 0 ∨ s.selState = 4 then s.errSeen err else (s.errSeen err).toHoldover false := by
  have k : (s.running && s.on R.REF_CTRL F.REF_CTRL_ENABLE) = false := by
    rcases h with h | h <;> simp [h]
  unfold State.selDecide
  simp [fold_errSeen, running_errSeen, enable_errSeen, selState_errSeen, k]

/-! ### The decisions of each state -/

section
variable (hl : s.targetLost = true)
include hl

theorem decideAcquire_lost (hc : s.chosen = some e) : (s.errSeen err).decideAcquire rate = (s.errSeen err).toAcquire e s.ref.fromHold := by
  unfold State.decideAcquire
  simp only [targetLost_errSeen, hl, chosen_errSeen, hc, if_true, errSeen_ref]

theorem decideAcquire_none (hc : s.chosen = none) : (s.errSeen err).decideAcquire rate =
    if s.ref.fromHold then (s.errSeen err).toHoldover false else (s.errSeen err).enterSel 0 0 := by
  unfold State.decideAcquire
  simp only [targetLost_errSeen, hl, chosen_errSeen, hc, if_true, errSeen_ref]

theorem decideLocked_lost (ho : s.ref.outLock + 1 < 1000) (hc : s.chosen = some e) :
    (s.errSeen err).decideLocked rate = (s.errSeen err).toSwitch e true := by
  unfold State.decideLocked
  simp [targetLost_errSeen, hl, chosen_errSeen, hc, lockGone_errSeen ho]

theorem decideLocked_none (ho : s.ref.outLock + 1 < 1000) (hc : s.chosen = none) :
    (s.errSeen err).decideLocked rate = (s.errSeen err).toHoldover (!s.ref.withdrawn) := by
  unfold State.decideLocked
  simp [targetLost_errSeen, hl, chosen_errSeen, hc, lockGone_errSeen ho, errSeen_ref]

theorem decideSwitch_lost (hc : s.chosen = some e) :
    (s.errSeen err).decideSwitch rate = ((s.errSeen err).setTarget e).keepModel := by
  unfold State.decideSwitch
  simp [targetLost_errSeen, hl, chosen_errSeen, hc]

theorem decideSwitch_none (hc : s.chosen = none) :
    (s.errSeen err).decideSwitch rate = (s.errSeen err).toHoldover (!s.ref.withdrawn) := by
  unfold State.decideSwitch
  simp [targetLost_errSeen, hl, chosen_errSeen, hc, errSeen_ref]

end

section
variable (hl : s.targetLost = false)
include hl

theorem decideLocked_moves (ho : s.ref.outLock + 1 < 1000) (hm : s.moveDue = some e) :
    (s.errSeen err).decideLocked rate = (s.errSeen err).toSwitch e false := by
  unfold State.decideLocked
  simp [targetLost_errSeen, hl, moveDue_errSeen, hm, lockGone_errSeen ho]

theorem decideLocked_stays (ho : s.ref.outLock + 1 < 1000) (hm : s.moveDue = none) : (s.errSeen err).decideLocked rate =
    (s.errSeen err).loopRate (s.g R.REF_STATUS F.REF_STATUS_SEL_CAND) rate := by
  have hg : (s.errSeen err).g R.REF_STATUS F.REF_STATUS_SEL_CAND = s.g R.REF_STATUS F.REF_STATUS_SEL_CAND :=
    errSeen_g (by decide) (by decide)
  unfold State.decideLocked
  simp [targetLost_errSeen, hl, moveDue_errSeen, hm, lockGone_errSeen ho, hg]

theorem decideSwitch_freq (h : s.g R.REF_STATUS F.REF_STATUS_SEL_CLASS = 1) :
    (s.errSeen err).decideSwitch rate = (s.errSeen err).toLocked := by
  have hg : (s.errSeen err).g R.REF_STATUS F.REF_STATUS_SEL_CLASS = s.g R.REF_STATUS F.REF_STATUS_SEL_CLASS :=
    errSeen_g (by decide) (by decide)
  unfold State.decideSwitch
  simp [targetLost_errSeen, hl, hg, h]

theorem decideSwitch_waits (h : s.g R.REF_STATUS F.REF_STATUS_SEL_CLASS ≠ 1) : (s.errSeen err).decideSwitch rate =
    if s.ref.modelRate then s.errSeen err else (s.errSeen err).loopRate s.ref.lastSel rate := by
  have hg : (s.errSeen err).g R.REF_STATUS F.REF_STATUS_SEL_CLASS = s.g R.REF_STATUS F.REF_STATUS_SEL_CLASS :=
    errSeen_g (by decide) (by decide)
  unfold State.decideSwitch
  simp [targetLost_errSeen, hl, hg, h, errSeen_ref]

theorem decideAcquire_locks (h : (s.errSeen err).lockHolds = true) :
    (s.errSeen err).decideAcquire rate = (s.errSeen err).toLocked := by
  unfold State.decideAcquire
  simp [targetLost_errSeen, hl, h]

theorem decideAcquire_waits (h : s.ref.inLock + 1 < 1000 * s.g R.REF_LOCK F.REF_LOCK_LOCK_S) :
    (s.errSeen err).decideAcquire rate =
      if s.ref.measured then (s.errSeen err).loopRate (s.g R.REF_STATUS F.REF_STATUS_SEL_CAND) rate else s.errSeen err := by
  have hg : (s.errSeen err).g R.REF_STATUS F.REF_STATUS_SEL_CAND = s.g R.REF_STATUS F.REF_STATUS_SEL_CAND :=
    errSeen_g (by decide) (by decide)
  have hw : (s.errSeen err).g R.REF_LOCK F.REF_LOCK_LOCK_S = s.g R.REF_LOCK F.REF_LOCK_LOCK_S :=
    congrArg F.REF_LOCK_LOCK_S.get (reg_errSeen (by decide))
  have k := inLock_errSeen (s := s) (err := err)
  have hk : (s.errSeen err).lockHolds = false := by
    unfold State.lockHolds
    rw [hw]
    exact decide_eq_false (by omega)
  have hm : (s.errSeen err).ref.measured = s.ref.measured := by rw [errSeen_ref]
  unfold State.decideAcquire
  simp [targetLost_errSeen, hl, hk, hm, hg]

end

end Sys2Proof.Machine
end

section

/-! ## The selector acquires, locks and enters holdover (R118 to R122, R128) -/

set_option Elab.async false

namespace Sys2Proof.Machine

variable {A : Nat → Prop} {ps : List Part} {s t m : State} {a st ev e k : Nat} {b : Bool} {err rate r : Int} {f : Fld}

/-! ### RATE from the loop -/

@[simp] theorem reg_loopRate : (s.loopRate k r).reg a = s.reg a := by
  unfold State.loopRate
  simp

theorem ref_loopRate : (s.loopRate k r).ref = s.ref := by
  unfold State.loopRate
  simp [ref_ite]

theorem newRate_errSeen (hk : k ≠ 29) (hs : s.on R.TSC_CTRL F.TSC_CTRL_STEER = false)
    (hg : s.g R.REF_STATUS F.REF_STATUS_GUARDING = 0) : ((s.errSeen err).loopRate k rate).tsc.newRate = some (clampRate rate) := by
  have h1 : (s.errSeen err).on R.TSC_CTRL F.TSC_CTRL_STEER = false := by
    unfold State.on State.g at hs ⊢
    rwa [reg_errSeen (by decide)]
  have h2 : (s.errSeen err).on R.REF_STATUS F.REF_STATUS_GUARDING = false := by
    unfold State.errSeen
    rw [guardCheck_of_off hg]
    simpa [State.lockCount, State.on, State.g] using hg
  unfold State.loopRate State.supplyRate State.guardClamp
  simp [hk, h1, h2, State.setTsc]

theorem isSet_of_decided {u : State} (D : Decided s m u) (hf : f.lo < 32) (hw : f.w = 1) (h : m.isSet R.REF_RAW f) : u.isSet R.REF_RAW f :=
  D.bits.isSet hf hw h

theorem Decided.targets {u : State} (D : Decided s m u) (T : Targets s e m) : Targets s e u :=
  T.of_g fun f _ => D.status f

section
variable (hs : s.inReset = false)
include hs

/-- The answer of a decision that only enters the phase error. -/
theorem seenAnswers {P : State → Prop} (e : s.selDecide err rate = s.errSeen err)
    (hP : ∀ u, Decided s (s.errSeen err) u → s.sameBut u [R.REF_STATUS, R.PTP_STATUS] → s.sameParts u [.tsc, .ref, .hld, .ptp] →
      P u) : Answers (exec (.selectorDecision err rate) s) P :=
  decisionAnswers (A := (· ∈ [R.REF_STATUS, R.PTP_STATUS])) hs e (by simp) (changes_errSeen (by simp) (by simp) (by simp))
    fun u D C => hP u D C.sameBut C.parts

/-- The answer of a decision that leaves RATE with the loop. -/
theorem loopAnswers {P : State → Prop} (e : s.selDecide err rate = (s.errSeen err).loopRate k rate)
    (hP : ∀ u, Decided s ((s.errSeen err).loopRate k rate) u → s.sameBut u [R.REF_STATUS, R.PTP_STATUS] →
      s.sameParts u [.tsc, .ref, .hld, .ptp] → P u) : Answers (exec (.selectorDecision err rate) s) P :=
  decisionAnswers (A := (· ∈ [R.REF_STATUS, R.PTP_STATUS])) hs e (by simp)
    ((Changes.loopRate_iff (by simp)).2 (changes_errSeen (by simp) (by simp) (by simp))) fun u D C => hP u D C.sameBut C.parts

/-- The answer of a decision for HOLDOVER. -/
theorem holdoverAnswers {P : State → Prop} (e : s.selDecide err rate = (s.errSeen err).toHoldover b)
    (hP : ∀ u, u.g R.REF_STATUS F.REF_STATUS_STATE = 4 → u.isSet R.REF_RAW F.REF_RAW_HOLDOVER_ENTRY → u.ref.modelRate = true →
      u.hld.episode = true → (b = true → s.hif.fq.length < 32 → ∃ f ∈ u.hif.fq, f.block = 3 ∧ f.code = 2) →
      s.sameBut u [R.REF_STATUS, R.PTP_STATUS, R.HLD_STATUS, R.HLD_ELAPSED] → s.sameParts u [.tsc, .ref, .hld, .ptp] → P u) :
    Answers (exec (.selectorDecision err rate) s) P := by
  obtain ⟨h1, h2, h3, h4, h5⟩ := toHoldover_shows (s := s.errSeen err) (b := b)
  refine decisionAnswers (A := (· ∈ [R.REF_STATUS, R.PTP_STATUS, R.HLD_STATUS, R.HLD_ELAPSED])) hs e (by simp)
    ((Changes.toHoldover_iff (by simp) (by simp) (by simp) (by simp) (by simp) (by simp)).2
      (changes_errSeen (by simp) (by simp) (by simp))) fun u D C => hP u ((D.status _).trans h1)
    (D.bits.isSet (by decide) rfl h2) (by rw [D.ref, h3]) (by rw [D.hld, h4]) (fun hb hf => ?_) C.sameBut C.parts
  have hq : (s.errSeen err).hif = s.hif := (guardCheck_parts (s := s) (err := err)).2.2.1
  obtain ⟨f, hf, hk⟩ := h5 hb (by rw [hq]; exact hf)
  exact ⟨f, D.fq hf, hk⟩

/-- The answer of a decision for SWITCH. -/
theorem switchAnswers {P : State → Prop} (he : e < 16) (h : s.selDecide err rate = (s.errSeen err).toSwitch e b)
    (hP : ∀ u, u.g R.REF_STATUS F.REF_STATUS_STATE = 3 → Targets s e u → (b = true → u.ref.modelRate = true) →
      u.isSet R.REF_RAW F.REF_RAW_SWITCH → s.sameBut u [R.REF_STATUS, R.PTP_STATUS, R.HLD_STATUS, R.HLD_ELAPSED] →
      s.sameParts u [.tsc, .ref, .hld, .ptp] → P u) : Answers (exec (.selectorDecision err rate) s) P := by
  obtain ⟨h1, h2, h3, h4⟩ := toSwitch_shows (s := s.errSeen err) (b := b) he
  exact decisionAnswers (A := (· ∈ [R.REF_STATUS, R.PTP_STATUS, R.HLD_STATUS, R.HLD_ELAPSED])) hs h (by simp)
    ((Changes.toSwitch_iff (by simp) (by simp) (by simp) (by simp)).2 (changes_errSeen (by simp) (by simp) (by simp)))
    fun u D C => hP u ((D.status _).trans h1) (D.targets (h2.of_errSeen he)) (fun hb => by rw [D.ref, h3 hb])
      (D.bits.isSet (by decide) rfl h4) C.sameBut C.parts

/-- The answer of a decision for ACQUIRE. -/
theorem acquireAnswers {P : State → Prop} (he : e < 16) (h : s.selDecide err rate = (s.errSeen err).toAcquire e b) {l : List Nat}
    (h1 : R.REF_STATUS ∈ l) (h2 : R.PTP_STATUS ∈ l) (h3 : b = true → R.HLD_STATUS ∈ l)
    (hP : ∀ u, u.g R.REF_STATUS F.REF_STATUS_STATE = 1 → Targets s e u → u.ref.fromHold = b → s.sameBut u l →
      s.sameParts u [.tsc, .ref, .hld, .ptp] → P u) : Answers (exec (.selectorDecision err rate) s) P := by
  obtain ⟨k1, k2, k3⟩ := toAcquire_shows (s := s.errSeen err) (b := b) he
  exact decisionAnswers (A := (· ∈ l)) hs h h2
    ((Changes.toAcquire_iff h1 h3 (by simp) (by simp)).2 (changes_errSeen h1 (by simp) (by simp)))
    fun u D C => hP u ((D.status _).trans k1) (D.targets (k2.of_errSeen he)) (by rw [D.ref, k3]) C.sameBut C.parts

/-- The answer of a decision for LOCKED. -/
theorem lockedAnswers {P : State → Prop} (h : s.selDecide err rate = (s.errSeen err).toLocked)
    (hP : ∀ u, u.g R.REF_STATUS F.REF_STATUS_STATE = 2 → u.g R.REF_STATUS F.REF_STATUS_COND = 1 →
      u.isSet R.REF_RAW F.REF_RAW_LOCK → u.ref.modelRate = false → Changes (· ∈ [R.REF_STATUS, R.PTP_STATUS, R.HLD_STATUS])
        [.tsc, .ref, .hld, .ptp] s u → P u) : Answers (exec (.selectorDecision err rate) s) P := by
  obtain ⟨h1, h2, h3, h4, -⟩ := toLocked_shows (s := s.errSeen err)
  exact decisionAnswers (A := (· ∈ [R.REF_STATUS, R.PTP_STATUS, R.HLD_STATUS])) hs h (by simp)
    ((Changes.toLocked_iff (by simp) (by simp) (by simp) (by simp)).2 (changes_errSeen (by simp) (by simp) (by simp)))
    fun u D C => hP u ((D.status _).trans h1) ((D.status _).trans h2) (D.bits.isSet (by decide) rfl h3) (by rw [D.ref, h4]) C

end

theorem state_of_seen {u : State} (D : Decided s (s.errSeen err) u) : u.selState = s.selState :=
  (D.status _).trans selState_errSeen

theorem state_of_loop {u : State} (D : Decided s ((s.errSeen err).loopRate k rate) u) : u.selState = s.selState :=
  (D.status _).trans ((congrArg F.REF_STATUS_STATE.get reg_loopRate).trans selState_errSeen)

/-! ### The measured target -/

/-- The loop is handed to a measured target. -/
def State.handed (s : State) : State :=
  (s.setRef { s.ref with measured := true, remeasure := false, modelRate := false, offs := [] }).clearLock

@[simp] theorem reg_handed : s.handed.reg a = s.reg a := rfl

@[simp] theorem Changes.handed_iff (hr : .ref ∈ ps) : Changes A ps s t.handed ↔ Changes A ps s t := by
  unfold State.handed
  simp [hr]

theorem handed_parts : s.handed.tsc = s.tsc ∧ s.handed.ref.measured = true ∧ s.handed.ref.offs = [] := ⟨rfl, rfl, rfl⟩

@[simp] theorem Changes.internalStep_iff {x : IntStep} (h : .tsc ∈ ps) : Changes A ps s (t.internalStep k x) ↔ Changes A ps s t :=
  Changes.setTsc_iff t h

section
variable {o1 o2 : Int} (ho : s.ref.offs = [o1, o2])
include ho

theorem targetMeasured_eq (h1 : s.selState ≠ 1 ∨ s.ref.fromHold = false) (hm : s.measuring = true) (hl : s.targetLost = false) :
    s.targetMeasured = if s.selState = 3 then (s.stepTarget (s.targetOffset o1 o2)).handed.toLocked
      else (s.stepTarget (s.targetOffset o1 o2)).handed := by
  have h : ¬ (s.selState = 1 ∧ s.ref.fromHold = true) := fun ⟨k, k'⟩ => h1.elim (fun h => h k) fun h => by simp [h] at k'
  unfold State.targetMeasured State.handed
  simp only [ho, hm, hl, Bool.not_false, Bool.and_self, if_true, if_neg h]

end

theorem measuring_switch (h : s.selState = 3) (hc : s.g R.REF_STATUS F.REF_STATUS_SEL_CLASS = 2 ∨ s.g R.REF_STATUS F.REF_STATUS_SEL_CLASS = 3) :
    s.measuring = true := by
  have : s.g R.REF_STATUS F.REF_STATUS_SEL_CLASS ≠ 1 := by omega
  simp [State.measuring, h, this]

/-- The answer of a target measured in SWITCH. -/
theorem measuredAnswers {P : State → Prop} {o1 o2 : Int} {y : State} (hs : s.inReset = false) (ho : s.ref.offs = [o1, o2])
    (h3 : s.selState = 3) (hl : s.targetLost = false)
    (hc : s.g R.REF_STATUS F.REF_STATUS_SEL_CLASS = 2 ∨ s.g R.REF_STATUS F.REF_STATUS_SEL_CLASS = 3)
    (hy : s.stepTarget (s.targetOffset o1 o2) = y)
    (C : Changes (· ∈ [R.REF_STATUS, R.PTP_STATUS, R.HLD_STATUS]) [.tsc, .ref, .hld, .ptp] s y)
    (hP : ∀ u, u.g R.REF_STATUS F.REF_STATUS_STATE = 2 → u.tsc = y.tsc → u.isSet R.REF_RAW F.REF_RAW_LOCK →
      u.ref.modelRate = false → u.g R.REF_STATUS F.REF_STATUS_GUARDING = y.g R.REF_STATUS F.REF_STATUS_GUARDING →
      KeepsBits R.REF_RAW y u → s.sameBut u [R.REF_STATUS, R.PTP_STATUS, R.HLD_STATUS] →
      s.sameParts u [.tsc, .ref, .hld, .ptp] → P u) : Answers (exec .targetMeasured s) P := by
  show Answers (done s s.targetMeasured) P
  rw [targetMeasured_eq ho (.inl (by rw [h3]; decide)) (measuring_switch h3 hc) hl, if_pos h3, hy]
  obtain ⟨k1, -, k3, k4, k5, k6, k7⟩ := toLocked_shows (s := y.handed)
  exact Answers.ofChanges (A := (· ∈ [R.REF_STATUS, R.PTP_STATUS, R.HLD_STATUS])) hs
    ((Changes.toLocked_iff (by simp) (by simp) (by simp) (by simp)).2 ((Changes.handed_iff (by simp)).2 C))
    fun u L C => hP u ((L.g (by decide) _).trans k1) (L.tsc.trans k5) (L.isSet (by decide) (by decide) rfl k3)
      (by rw [L.ref, k4]) ((L.g (by decide) _).trans k6) (k7.trans (.ofLogs (by decide) L)) C.sameBut C.parts

theorem stepTarget_steered {off : Int} (h : s.on R.TSC_CTRL F.TSC_CTRL_STEER = true) : s.stepTarget off = s := by
  unfold State.stepTarget
  simp [h]

theorem stepTarget_switch {off : Int} (h : s.on R.TSC_CTRL F.TSC_CTRL_STEER = false) (h3 : s.selState = 3) :
    s.stepTarget off = s.guardedStep off := by
  unfold State.stepTarget
  simp [h, h3]

theorem stepTarget_free {off : Int} (h : s.on R.TSC_CTRL F.TSC_CTRL_STEER = false) (h1 : s.selState = 1)
    (hf : s.ref.fromHold = false) (hk : s.g R.REF_STATUS F.REF_STATUS_SEL_CAND ≠ 29)
    (hc : s.g R.REF_STATUS F.REF_STATUS_SEL_CLASS = 2) : s.stepTarget off = s.internalStep 3 (.rel off) := by
  unfold State.stepTarget
  simp [h, h1, hf, hk, hc]

/-- A step beyond the slew guard is clamped and reported (R122). -/
theorem guardedStep_clamps {off : Int} (h : nsTicks (s.g R.REF_GUARD F.REF_GUARD_GUARD_NS) < off) :
    (s.guardedStep off).tsc.intern = s.tsc.intern ++ [(3, IntStep.rel (nsTicks (s.g R.REF_GUARD F.REF_GUARD_GUARD_NS)))] ∧
    (s.guardedStep off).isSet R.REF_RAW F.REF_RAW_GUARD ∧ (s.guardedStep off).g R.REF_STATUS F.REF_STATUS_GUARDING = 1 := by
  have h0 : 0 ≤ nsTicks (s.g R.REF_GUARD F.REF_GUARD_GUARD_NS) := by unfold nsTicks; positivity
  have hp : 0 < off := lt_of_le_of_lt h0 h
  have hn : ¬ |off| ≤ nsTicks (s.g R.REF_GUARD F.REF_GUARD_GUARD_NS) := by rw [abs_of_pos hp]; exact not_le.2 h
  unfold State.guardedStep
  simp only [if_neg hn, if_pos hp]
  refine ⟨by simp [State.breakFit, State.setHld, State.setRef, State.internalStep, State.setTsc], ?_, ?_⟩
  · simp [State.isSet, State.g, State.breakFit, State.internalStep, Fld.get_put, R.REF_RAW, R.REF_STATUS]
  · simp [State.g, State.breakFit, State.internalStep, Fld.get_put]

@[simp] theorem Changes.guardedStep_iff {off : Int} (h : A R.REF_STATUS) (ht : .tsc ∈ ps) (hr : .ref ∈ ps) (hh : .hld ∈ ps) :
    Changes A ps s (t.guardedStep off) ↔ Changes A ps s t := by
  unfold State.guardedStep
  simp [h, ht, hr, hh]

theorem guardedStep_within {off : Int} (h : |off| ≤ nsTicks (s.g R.REF_GUARD F.REF_GUARD_GUARD_NS)) :
    s.guardedStep off = s.internalStep 3 (.rel off) := if_pos h

/-- A measurement that is not complete, or of no use, steps nothing. -/
theorem targetMeasured_still (h : s.ref.offs.length ≠ 2 ∨ s.measuring = false ∨ s.targetLost = true) : s.targetMeasured = s := by
  unfold State.targetMeasured
  split
  · next o1 o2 ho =>
    rcases h with h | h | h
    · simp [ho] at h
    · simp [h]
    · simp [h]
  · rfl

section
variable (hs : s.inReset = false)
include hs

theorem selector_locks (hr : s.running = true) (hE : s.on R.REF_CTRL F.REF_CTRL_ENABLE = true)
    (h1 : s.g R.REF_STATUS F.REF_STATUS_STATE = 1) (hl : s.targetLost = false) (hm : s.ref.measured = true)
    (he : |err| ≤ nsTicks (s.g R.REF_LOCK F.REF_LOCK_LOCK_NS)) (hk : 1000 * s.g R.REF_LOCK F.REF_LOCK_LOCK_S ≤ s.ref.inLock + 1) :
    Answers (exec (.selectorDecision err rate) s) fun t =>
      t.g R.REF_STATUS F.REF_STATUS_STATE = 2 ∧ t.g R.REF_STATUS F.REF_STATUS_COND = 1 ∧
      t.isSet R.REF_RAW F.REF_RAW_LOCK ∧ s.sameBut t [R.REF_STATUS, R.PTP_STATUS, R.HLD_STATUS] ∧
      s.sameParts t [.tsc, .ref, .hld, .ptp] := by
  have hh : (s.errSeen err).lockHolds = true := by
    have hw : (s.errSeen err).g R.REF_LOCK F.REF_LOCK_LOCK_S = s.g R.REF_LOCK F.REF_LOCK_LOCK_S :=
      congrArg F.REF_LOCK_LOCK_S.get (reg_errSeen (by decide))
    have hi : s.steered = true := by simp [State.steered, State.selState, h1, hm]
    unfold State.lockHolds
    rw [hw, errSeen_ref]
    simpa [hi, he] using hk
  exact lockedAnswers hs ((selDecide_acquire hr hE h1).trans (decideAcquire_locks hl hh))
    fun u k1 k2 k3 _ C => ⟨k1, k2, k3, C.sameBut, C.parts⟩

theorem selector_acquiring {rate : Int} (hr : s.running = true) (hE : s.on R.REF_CTRL F.REF_CTRL_ENABLE = true)
    (h1 : s.g R.REF_STATUS F.REF_STATUS_STATE = 1) (hl : s.targetLost = false) (hm : s.ref.measured = true)
    (hi : s.ref.inLock + 1 < 1000 * s.g R.REF_LOCK F.REF_LOCK_LOCK_S) (hk : s.g R.REF_STATUS F.REF_STATUS_SEL_CAND ≠ 29)
    (ht : s.on R.TSC_CTRL F.TSC_CTRL_STEER = false) (hg : s.g R.REF_STATUS F.REF_STATUS_GUARDING = 0) :
    Answers (exec (.selectorDecision err rate) s) fun t =>
      t.g R.REF_STATUS F.REF_STATUS_STATE = 1 ∧ t.tsc.newRate = some (clampRate rate) ∧
      t.ref.inLock = (if |err| ≤ nsTicks (s.g R.REF_LOCK F.REF_LOCK_LOCK_NS) then s.ref.inLock + 1 else 0) ∧
      s.sameBut t [R.REF_STATUS, R.PTP_STATUS] ∧ s.sameParts t [.tsc, .ref, .hld, .ptp] := by
  have e := (selDecide_acquire (err := err) (rate := rate) hr hE h1).trans (decideAcquire_waits hl hi)
  rw [if_pos hm] at e
  refine loopAnswers hs e fun u D hb hp => ⟨(state_of_loop D).trans h1, by rw [D.tsc]; exact newRate_errSeen hk ht hg, ?_, hb, hp⟩
  have hi : s.steered = true := by simp [State.steered, State.selState, h1, hm]
  rw [D.ref, ref_loopRate, errSeen_ref]
  simp [hi]

theorem selector_tracking {rate : Int} (hr : s.running = true) (hE : s.on R.REF_CTRL F.REF_CTRL_ENABLE = true)
    (h1 : s.g R.REF_STATUS F.REF_STATUS_STATE = 2) (hl : s.targetLost = false) (ho : s.ref.outLock + 1 < 1000)
    (hm : s.moveDue = none) (hk : s.g R.REF_STATUS F.REF_STATUS_SEL_CAND ≠ 29)
    (ht : s.on R.TSC_CTRL F.TSC_CTRL_STEER = false) (hg : s.g R.REF_STATUS F.REF_STATUS_GUARDING = 0) :
    Answers (exec (.selectorDecision err rate) s) fun t =>
      t.g R.REF_STATUS F.REF_STATUS_STATE = 2 ∧ t.tsc.newRate = some (clampRate rate) ∧
      t.ref.outLock = (if 10 * nsTicks (s.g R.REF_LOCK F.REF_LOCK_LOCK_NS) < |err| then s.ref.outLock + 1 else 0) ∧
      s.sameBut t [R.REF_STATUS, R.PTP_STATUS] ∧ s.sameParts t [.tsc, .ref, .hld, .ptp] := by
  refine loopAnswers hs ((selDecide_locked hr hE h1).trans (decideLocked_stays hl ho hm)) fun u D hb hp =>
    ⟨(state_of_loop D).trans h1, by rw [D.tsc]; exact newRate_errSeen hk ht hg, ?_, hb, hp⟩
  have hi : s.steered = true := by simp [State.steered, State.selState, h1]
  have hgo : (s.guardCheck err).on R.REF_STATUS F.REF_STATUS_GUARDING = false := by
    rw [guardCheck_of_off hg]
    simp [State.on, hg]
  rw [D.ref, ref_loopRate, errSeen_ref]
  simp [hi, hgo]

theorem selector_switching (hr : s.running = true) (hE : s.on R.REF_CTRL F.REF_CTRL_ENABLE = true)
    (h3 : s.g R.REF_STATUS F.REF_STATUS_STATE = 3) (hl : s.targetLost = true) (hc : s.chosen = some e) (he : e < 16) :
    Answers (exec (.selectorDecision err rate) s) fun t =>
      t.g R.REF_STATUS F.REF_STATUS_STATE = 3 ∧ t.g R.REF_STATUS F.REF_STATUS_SEL_ENTRY = e ∧
      t.g R.REF_STATUS F.REF_STATUS_SEL_CAND = s.prioCand e ∧ t.ref.modelRate = true ∧
      s.sameBut t [R.REF_STATUS, R.PTP_STATUS, R.HLD_STATUS, R.HLD_ELAPSED] ∧ s.sameParts t [.tsc, .ref, .hld, .ptp] := by
  obtain ⟨T, k⟩ := setTarget_reg (s := s.errSeen err) he
  refine decisionAnswers (A := (· ∈ [R.REF_STATUS, R.PTP_STATUS, R.HLD_STATUS, R.HLD_ELAPSED])) hs
    ((selDecide_switch hr hE h3).trans (decideSwitch_lost hl hc)) (by simp)
    ((Changes.keepModel_iff (by simp) (by simp)).2 ((Changes.setTarget_iff (by simp) (by simp)).2
      (changes_errSeen (by simp) (by simp) (by simp)))) fun u D C => ?_
  have T' := D.targets ((T.of_reg reg_keepModel).of_errSeen he)
  exact ⟨(D.status _).trans ((congrArg F.REF_STATUS_STATE.get reg_keepModel).trans (k.trans (selState_errSeen.trans h3))),
    T'.entry, T'.cand, by rw [D.ref, ref_keepModel], C.sameBut, C.parts⟩

theorem selector_returns (hr : s.running = true) (hE : s.on R.REF_CTRL F.REF_CTRL_ENABLE = true)
    (h1 : s.g R.REF_STATUS F.REF_STATUS_STATE = 1) (hl : s.targetLost = true) (hc : s.chosen = none) (hf : s.ref.fromHold = false) :
    Answers (exec (.selectorDecision err rate) s) fun t => t.g R.REF_STATUS F.REF_STATUS_STATE = 0 ∧
      s.sameBut t [R.REF_STATUS, R.PTP_STATUS, R.HLD_STATUS, R.HLD_ELAPSED] ∧ s.sameParts t [.tsc, .ref, .hld, .ptp] := by
  have e := (selDecide_acquire (err := err) (rate := rate) hr hE h1).trans (decideAcquire_none hl hc)
  rw [if_neg (by simp [hf])] at e
  exact decisionAnswers (A := (· ∈ [R.REF_STATUS, R.PTP_STATUS, R.HLD_STATUS, R.HLD_ELAPSED])) hs e (by simp)
    ((Changes.enterSel_iff (by simp) (by simp) (by simp)).2 (changes_errSeen (by simp) (by simp) (by simp)))
    fun u D C => ⟨(D.status _).trans (state_enterSel (by decide)), C.sameBut, C.parts⟩

theorem selector_waits {rate : Int} (hr : s.running = true) (hE : s.on R.REF_CTRL F.REF_CTRL_ENABLE = true)
    (h3 : s.g R.REF_STATUS F.REF_STATUS_STATE = 3) (hl : s.targetLost = false) (hc : s.g R.REF_STATUS F.REF_STATUS_SEL_CLASS ≠ 1) :
    Answers (exec (.selectorDecision err rate) s) fun t => t.g R.REF_STATUS F.REF_STATUS_STATE = 3 ∧
      s.sameBut t [R.REF_STATUS, R.PTP_STATUS] ∧ s.sameParts t [.tsc, .ref, .hld, .ptp] := by
  have e := (selDecide_switch (err := err) (rate := rate) hr hE h3).trans (decideSwitch_waits hl hc)
  split at e
  · exact seenAnswers hs e fun u D hb hp => ⟨(state_of_seen D).trans h3, hb, hp⟩
  · exact loopAnswers hs e fun u D hb hp => ⟨(state_of_loop D).trans h3, hb, hp⟩

theorem selector_rests (h : s.running = false ∨ s.on R.REF_CTRL F.REF_CTRL_ENABLE = false)
    (hst : s.g R.REF_STATUS F.REF_STATUS_STATE = 0 ∨ s.g R.REF_STATUS F.REF_STATUS_STATE = 4) :
    Answers (exec (.selectorDecision err rate) s) fun t =>
      t.selState = s.selState ∧ s.sameBut t [R.REF_STATUS, R.PTP_STATUS] ∧ s.sameParts t [.tsc, .ref, .hld, .ptp] :=
  seenAnswers hs ((selDecide_off h).trans (if_pos hst)) fun _ D hb hp => ⟨state_of_seen D, hb, hp⟩

theorem selector_disabled (hE : s.on R.REF_CTRL F.REF_CTRL_ENABLE = false) (h : s.selState = 1 ∨ s.selState = 2 ∨ s.selState = 3) :
    Answers (exec (.selectorDecision err rate) s) fun t =>
      t.g R.REF_STATUS F.REF_STATUS_STATE = 4 ∧ t.isSet R.REF_RAW F.REF_RAW_HOLDOVER_ENTRY ∧
      t.ref.modelRate = true ∧ s.sameBut t [R.REF_STATUS, R.PTP_STATUS, R.HLD_STATUS, R.HLD_ELAPSED] ∧
      s.sameParts t [.tsc, .ref, .hld, .ptp] :=
  holdoverAnswers hs ((selDecide_off (.inr hE)).trans (if_neg (by omega))) fun u h1 h2 h3 _ _ hb hp => ⟨h1, h2, h3, hb, hp⟩

theorem target_free {o1 o2 : Int} (ho : s.ref.offs = [o1, o2]) (h1 : s.g R.REF_STATUS F.REF_STATUS_STATE = 1)
    (hm : s.ref.measured = false) (hf : s.ref.fromHold = false) (hl : s.targetLost = false)
    (hc : s.g R.REF_STATUS F.REF_STATUS_SEL_CLASS = 2) (ht : s.on R.TSC_CTRL F.TSC_CTRL_STEER = false)
    (hk : s.g R.REF_STATUS F.REF_STATUS_SEL_CAND ≠ 29) : Answers (exec .targetMeasured s) fun t =>
      t.tsc.intern = s.tsc.intern ++ [(3, IntStep.rel (s.targetOffset o1 o2))] ∧ t.ref.measured = true ∧
      t.ref.offs = [] ∧ s.sameBut t [] ∧ s.sameParts t [.tsc, .ref] := by
  have h1' : s.selState = 1 := h1
  have hM : s.measuring = true := by simp [State.measuring, h1', hm, hc]
  show Answers (done s s.targetMeasured) _
  rw [targetMeasured_eq ho (.inr hf) hM hl, if_neg (by rw [h1']; decide), stepTarget_free ht h1 hf hk hc]
  exact Answers.ofChanges (A := (· ∈ [])) hs (by simp) fun u L C =>
    ⟨L.tsc ▸ rfl, L.ref ▸ rfl, L.ref ▸ rfl, C.sameBut, C.parts⟩

theorem target_still (h : s.ref.offs.length ≠ 2 ∨ s.measuring = false ∨ s.targetLost = true) : Answers (exec .targetMeasured s) fun t =>
    t.selState = s.selState ∧ t.tsc = s.tsc ∧ s.sameBut t [] ∧ s.sameParts t [.ref] := by
  show Answers (done s s.targetMeasured) _
  rw [targetMeasured_still h]
  exact Answers.ofChanges (A := (· ∈ [])) hs .refl fun u L C => ⟨L.g (by decide) _, L.tsc, C.sameBut, C.parts⟩

theorem target_guarded {o1 o2 : Int} (ho : s.ref.offs = [o1, o2]) (h3 : s.g R.REF_STATUS F.REF_STATUS_STATE = 3)
    (hl : s.targetLost = false)
    (hc : s.g R.REF_STATUS F.REF_STATUS_SEL_CLASS = 2 ∨ s.g R.REF_STATUS F.REF_STATUS_SEL_CLASS = 3)
    (ht : s.on R.TSC_CTRL F.TSC_CTRL_STEER = false)
    (h : nsTicks (s.g R.REF_GUARD F.REF_GUARD_GUARD_NS) < s.targetOffset o1 o2) : Answers (exec .targetMeasured s) fun t =>
      t.g R.REF_STATUS F.REF_STATUS_STATE = 2 ∧
      t.tsc.intern = s.tsc.intern ++ [(3, IntStep.rel (nsTicks (s.g R.REF_GUARD F.REF_GUARD_GUARD_NS)))] ∧
      t.isSet R.REF_RAW F.REF_RAW_GUARD ∧ t.g R.REF_STATUS F.REF_STATUS_GUARDING = 1 ∧
      s.sameBut t [R.REF_STATUS, R.PTP_STATUS, R.HLD_STATUS] ∧ s.sameParts t [.tsc, .ref, .hld, .ptp] := by
  obtain ⟨k1, k2, k3⟩ := guardedStep_clamps h
  exact measuredAnswers hs ho h3 hl hc (stepTarget_switch ht h3) (by simp) fun u h1 h2 _ _ h5 h6 hb hp =>
    ⟨h1, h2 ▸ k1, h6.isSet (by decide) rfl k2, h5.trans k3, hb, hp⟩

end

/-- Settles O49. -/
theorem selector : Obligations.Selector :=
  ⟨fun _ _ _ _ hs hr hE h hc he => acquireAnswers hs he (selDecide_free hr hE h hc) (by simp) (by simp) (fun h => nomatch h)
      fun _ h1 T _ hb hp => ⟨h1, T.entry, T.cand, T.class', hb, hp⟩,
    fun _ _ _ hs hr hE h hl hm he hk => selector_locks hs hr hE h hl hm he hk,
    fun _ _ _ hs hr hE h hl hc _ ho hw _ hf => holdoverAnswers hs ((selDecide_locked hr hE h).trans (decideLocked_none hl ho hc))
      fun _ h1 h2 _ h4 h5 hb hp => ⟨h1, h2, h4, h5 (by simp [hw]) hf, hb, hp⟩,
    fun _ _ _ _ hs hr hE h hl hc he ho => switchAnswers hs he ((selDecide_locked hr hE h).trans (decideLocked_lost hl ho hc))
      fun _ h1 T h3 h4 hb hp => ⟨h1, T.entry, T.cand, h3 rfl, h4, hb, hp⟩,
    fun _ _ _ hs _ hE h => selector_disabled hs hE h,
    fun _ _ _ hs ho h1 hm hf hl hc ht hk => target_free hs ho h1 hm hf hl hc ht hk,
    fun _ _ _ hs ho h3 hl hc ht => measuredAnswers hs ho h3 hl hc (stepTarget_steered ht) .refl
      fun _ h1 _ h3 h4 _ _ hb hp => ⟨h1, h3, h4, hb, hp⟩,
    fun _ _ _ hs ho h3 hl hc ht h => measuredAnswers hs ho h3 hl hc ((stepTarget_switch ht h3).trans (guardedStep_within h))
      (by simp) fun _ h1 h2 h3 _ _ _ hb hp => ⟨h1, h2 ▸ rfl, h3, hb, hp⟩,
    fun _ _ _ hs hr hE h hc => seenAnswers hs (selDecide_free_none hr hE h hc) fun _ D hb hp =>
      ⟨(state_of_seen D).trans h, hb, hp⟩,
    fun _ _ _ hs hr hE h hc => seenAnswers hs (selDecide_holdover_none hr hE h hc) fun _ D hb hp =>
      ⟨(state_of_seen D).trans h, hb, hp⟩,
    fun _ _ _ hs h hst => selector_rests hs h hst,
    fun _ _ _ _ hs hr hE h hc he => acquireAnswers hs he (selDecide_holdover hr hE h hc) (by simp) (by simp) (fun _ => by simp)
      fun _ h1 T h3 hb hp => ⟨h1, T.entry, T.cand, h3, hb, hp⟩,
    fun _ _ _ _ hs hr hE h hl hc he => acquireAnswers hs he ((selDecide_acquire hr hE h).trans (decideAcquire_lost hl hc))
      (by simp) (by simp) (fun _ => by simp) fun _ h1 T h3 hb hp => ⟨h1, T.entry, T.cand, h3, hb, hp⟩,
    fun _ _ _ hs hr hE h hl hc hf => selector_returns hs hr hE h hl hc hf,
    fun _ _ _ hs hr hE h hl hc hf => holdoverAnswers hs (((selDecide_acquire hr hE h).trans (decideAcquire_none hl hc)).trans
      (if_pos hf)) fun _ h1 h2 h3 _ _ hb hp => ⟨h1, h2, h3, hb, hp⟩,
    fun _ _ _ hs hr hE h hl hm hi => seenAnswers hs (((selDecide_acquire hr hE h).trans (decideAcquire_waits hl hi)).trans
      (if_neg (by simp [hm]))) fun _ D hb hp => ⟨(state_of_seen D).trans h, hb, hp⟩,
    fun _ _ _ hs hr hE h hl hm hi hk ht hg => selector_acquiring hs hr hE h hl hm hi hk ht hg,
    fun _ _ _ hs hr hE h hl ho hm hk ht hg => selector_tracking hs hr hE h hl ho hm hk ht hg,
    fun _ _ _ hs hr hE h hl ho hm _ => loopAnswers hs ((selDecide_locked hr hE h).trans (decideLocked_stays hl ho hm))
      fun _ D hb hp => ⟨(state_of_loop D).trans h, hb, hp⟩,
    fun _ _ _ _ hs hr hE h hl ho hm he => switchAnswers hs he ((selDecide_locked hr hE h).trans (decideLocked_moves hl ho hm))
      fun _ h1 T _ h4 hb hp => ⟨h1, T.entry, T.cand, h4, hb, hp⟩,
    fun _ _ _ hs hr hE h hl hc => holdoverAnswers hs ((selDecide_switch hr hE h).trans (decideSwitch_none hl hc))
      fun _ h1 h2 h3 _ _ hb hp => ⟨h1, h2, h3, hb, hp⟩,
    fun _ _ _ _ hs hr hE h hl hc he => selector_switching hs hr hE h hl hc he,
    fun _ _ _ hs hr hE h hl hc => lockedAnswers hs ((selDecide_switch hr hE h).trans (decideSwitch_freq hl hc))
      fun _ h1 _ h3 h4 C => ⟨h1, h3, h4, (C.mono (fun _ h => List.mem_append_left [_] h) (List.Subset.refl _)).sameBut, C.parts⟩,
    fun _ _ _ hs hr hE h hl hc => selector_waits hs hr hE h hl hc,
    fun _ hs h => target_still hs h,
    fun _ _ _ hs ho h3 hl hc ht h => target_guarded hs ho h3 hl hc ht h⟩

end Sys2Proof.Machine
end

section

/-! ## The first byte of a frame (R279, R280, R285) -/

set_option Elab.async false

namespace Sys2Proof.Machine

variable {A : Nat → Prop} {ps : List Part} {s t : State} {a n k : Nat} {f : Fld} {b : List Byte} {x : StampIn}

/-! ### A register in no queue's minimum -/

section
variable {α β : Type} [DecidableEq α] {g : β → Nat × α → β} (hg : ∀ z v, g z (a, v) = z)
include hg

omit [DecidableEq α] in
theorem foldl_tblDrop (l : Tbl α) (z : β) : (Tbl.drop a l).foldl g z = l.foldl g z := by
  induction l generalizing z with
  | nil => rfl
  | cons p r ih =>
    obtain ⟨k, v⟩ := p
    unfold Tbl.drop
    split
    · next h => rw [ih, List.foldl_cons, ← h, hg]
    · exact ih _

omit [DecidableEq α] in
theorem foldl_tblIns (v : α) (l : Tbl α) (z : β) : (Tbl.ins a v l).foldl g z = l.foldl g z := by
  induction l generalizing z with
  | nil => exact hg z v
  | cons p r ih =>
    obtain ⟨k, w⟩ := p
    unfold Tbl.ins
    split
    · rw [List.foldl_cons, hg]
    · exact ih _

theorem foldl_tblSet (d v : α) (l : Tbl α) (z : β) : (Tbl.set d l a v).foldl g z = l.foldl g z := by
  unfold Tbl.set
  split
  · exact foldl_tblDrop hg l z
  · rw [foldl_tblIns hg, foldl_tblDrop hg]

end

theorem minSum_setReg {v : Word} (h : R.QUE_Qq_MIN 200 ≤ a) : (s.setReg a v).minSum = s.minSum :=
  foldl_tblSet (fun _ _ => if_neg fun k => absurd k.2 (not_lt.2 h)) _ _ _ _

/-! ### What the count of received frames leaves -/

/-- The state after the frame is counted. -/
def State.rxCounted (s : State) (n : Nat) : State := s.inc (R.MAC_Pn_RX_FRAMES n) F.MAC_Pn_RX_FRAMES_COUNT

theorem reg_rxCounted (h : a ≠ R.MAC_Pn_RX_FRAMES n) : (s.rxCounted n).reg a = s.reg a := by
  unfold State.rxCounted
  simp [h]

theorem reg_rxCounted_low (h : a < 0x400000) : (s.rxCounted n).reg a = s.reg a :=
  reg_rxCounted (by simp only [R.MAC_Pn_RX_FRAMES]; omega)

theorem g_rxCounted_low (h : a < 0x400000) : (s.rxCounted n).g a f = s.g a f := congrArg f.get (reg_rxCounted_low h)

theorem on_rxCounted_low (h : a < 0x400000) : (s.rxCounted n).on a f = s.on a f := by
  unfold State.on
  rw [g_rxCounted_low h]

theorem rxCounted_count : (s.rxCounted n).g (R.MAC_Pn_RX_FRAMES n) F.MAC_Pn_RX_FRAMES_COUNT =
    min (s.g (R.MAC_Pn_RX_FRAMES n) F.MAC_Pn_RX_FRAMES_COUNT + 1) 4294967295 := State.g_inc (by decide)

theorem rxCounted_fwd : (s.rxCounted n).fwd = s.fwd := State.inc_fwd

theorem looping_rxCounted (p : Fin 24) : (s.rxCounted p).looping p = s.looping p := by
  unfold State.looping
  rw [on_rxCounted_low (by simp only [R.PTS_LOOP_STATUS]; omega)]

theorem ingressPrio_rxCounted (p : Fin 24) : (s.rxCounted p).ingressPrio p b = s.ingressPrio p b := by
  unfold State.ingressPrio
  rw [g_rxCounted_low (by simp only [R.FWD_PORTn_CFG]; omega)]

theorem stampFrom_inc {st : Nat} {d : Pd} {fec : Bool} {dly : Int} (h : a ≠ R.SPR_CTRL) :
    (s.inc a f).stampFrom st d fec dly x = s.stampFrom st d fec dly x := by
  have hseg : (s.inc a f).seg = s.seg := by
    unfold State.seg State.on State.g
    rw [State.reg_inc, if_neg (Ne.symm h)]
    rfl
  unfold State.stampFrom
  rw [hseg]
  rfl

theorem rxStamp_rxCounted (p : Fin 24) : (s.rxCounted p).rxStamp p x = s.rxStamp p x := by
  have h1 : (s.rxCounted p).rxDelay p = s.rxDelay p := by
    unfold State.rxDelay State.regI
    rw [reg_rxCounted_low (by simp only [R.PTS_RX_DLY_FAC]; omega), reg_rxCounted_low (by simp only [R.PTS_RX_DLY_USER]; omega)]
  have h2 : (s.rxCounted p).pdState p false = s.pdState p false := by
    unfold State.pdState
    rw [g_rxCounted_low (by simp only [R.PTS_STATUS]; omega)]
  have h3 : (s.rxCounted p).on (R.MAC_Pn_CFG p) F.MAC_Pn_CFG_FEC = s.on (R.MAC_Pn_CFG p) F.MAC_Pn_CFG_FEC := by
    unfold State.on State.g
    rw [reg_rxCounted (by simp only [R.MAC_Pn_RX_FRAMES, R.MAC_Pn_CFG]; omega)]
  have h4 : (s.rxCounted p).ptsOf p = s.ptsOf p := congrArg (Tbl.get Pts.reset · p) State.inc_pts
  unfold State.rxStamp State.stampOf
  rw [h1, h2, h3, h4]
  exact stampFrom_inc (by simp only [R.MAC_Pn_RX_FRAMES, R.SPR_CTRL]; omega)

theorem newFrame_rxCounted {p : Nat} {y : Stamp} : (s.rxCounted n).newFrame n p b y = s.newFrame n p b y := by
  unfold State.newFrame
  rw [rxCounted_fwd]

theorem landingFree_rxCounted {p : Nat} : (s.rxCounted n).landingFree p = s.landingFree p := by
  unfold State.landingFree
  rw [rxCounted_fwd]

theorem cellsFree_rxCounted (p : Fin 24) : (s.rxCounted p).cellsFree p = s.cellsFree p := by
  have h : (s.rxCounted p).sharedFree = s.sharedFree := by
    unfold State.sharedFree State.shared State.poolUsed
    have hm : (s.rxCounted p).minSum = s.minSum := minSum_setReg (by simp only [R.QUE_Qq_MIN, R.MAC_Pn_RX_FRAMES]; omega)
    rw [rxCounted_fwd, g_rxCounted_low (by decide), hm]
  unfold State.cellsFree
  rw [landingFree_rxCounted, h]

theorem usageOk_rxCounted (p : Fin 24) {q : Nat} (hq : q < 8) : (s.rxCounted p).usageOk p q = s.usageOk p q := by
  unfold State.usageOk
  rw [reg_rxCounted_low (by simp only [R.QUE_INn_Up]; omega), g_rxCounted_low (by simp only [R.QUE_Pn_XOFF]; omega),
    g_rxCounted_low (by simp only [R.QUE_Pn_HEADROOM]; omega)]

theorem leNat_lt (l : List Byte) : leNat l < 256 ^ l.length := by
  induction l with
  | nil => exact Nat.one_pos
  | cons y r ih =>
    have := y.isLt
    rw [List.length_cons, pow_succ, leNat]
    omega

theorem beAt_lt {o : Nat} : beAt b o n < 256 ^ n := by
  have h := leNat_lt (slice b o n).reverse
  have hl : (slice b o n).reverse.length ≤ n := by
    rw [List.length_reverse]
    exact List.length_take_le ..
  exact lt_of_lt_of_le h (Nat.pow_le_pow_right (by decide) hl)

theorem ingressPrio_lt : s.ingressPrio n b < 8 := by
  unfold State.ingressPrio
  split
  · have h : beAt b 14 1 < 256 := beAt_lt
    omega
  · exact Fld.get_lt _ _

/-! ### Refusal and XOFF -/

@[simp] theorem Changes.refuse_iff {p c : Nat} {y : Stamp} (h : A (R.QUE_Pn_CNT_REFUSED n)) (hf : .fwd ∈ ps) :
    Changes A ps s (t.refuse n p c y) ↔ Changes A ps s t := by
  unfold State.refuse
  simp [h, hf]

@[simp] theorem Changes.addFrame_iff {y : Frame} (hf : .fwd ∈ ps) : Changes A ps s (t.addFrame y) ↔ Changes A ps s t := by
  unfold State.addFrame
  simp [hf]

@[simp] theorem Changes.usageAdd_iff {p : Nat} {d : Int} (h : A (R.QUE_INn_Up n p)) :
    Changes A ps s (t.usageAdd n p d) ↔ Changes A ps s t := Changes.setRegN_iff h

theorem Changes.xoff_iff (h : ∀ a, 0x200000 ≤ a → a < 0x280000 → A a) (hf : .fwd ∈ ps) :
    Changes A ps s t.xoff ↔ Changes A ps s t := by
  unfold State.xoff
  simp only
  rw [Changes.foldl_mem_iff (fun t n hn => ?_)]
  · simp [h R.QUE_STATUS (by decide) (by decide), hf]
  · have hn := List.mem_range.1 hn
    have := h (R.QUE_Pn_PAUSE_STATUS n) (by simp only [R.QUE_Pn_PAUSE_STATUS]; omega) (by simp only [R.QUE_Pn_PAUSE_STATUS]; omega)
    unfold State.portXoff
    simp [this, hf]

theorem frames_portXoff : (s.portXoff n).fwd.frames = s.fwd.frames := by
  unfold State.portXoff
  simp only [State.p_fwd]
  rfl

theorem frames_ite {p : Prop} [Decidable p] :
    (if p then s else t).fwd.frames = if p then s.fwd.frames else t.fwd.frames := apply_ite (fun x : State => x.fwd.frames) ..

theorem frames_xoff : s.xoff.fwd.frames = s.fwd.frames := by
  have hl (l : List Nat) (t : State) : (l.foldl State.portXoff t).fwd.frames = t.fwd.frames := by
    induction l generalizing t with
    | nil => rfl
    | cons n r ih => exact (ih _).trans frames_portXoff
  unfold State.xoff
  simp only [hl]
  simp [frames_ite, State.setFwd]

theorem reg_xoff (h1 : a ≠ R.QUE_STATUS) (h2 : a ≠ R.QUE_RAW) (h3 : ∀ n < 24, a ≠ R.QUE_Pn_PAUSE_STATUS n) :
    s.xoff.reg a = s.reg a := by
  have hl (l : List Nat) (t : State) (hl : ∀ n ∈ l, n < 24) : (l.foldl State.portXoff t).reg a = t.reg a := by
    induction l generalizing t with
    | nil => rfl
    | cons n r ih =>
      refine (ih _ fun m hm => hl m (List.mem_cons_of_mem _ hm)).trans ?_
      unfold State.portXoff
      simp [h3 n (hl n (List.mem_cons_self ..))]
  unfold State.xoff
  simp only [hl _ _ fun n hn => List.mem_range.1 hn]
  simp [h1, h2]

theorem frames_refuse {p c : Nat} {y : Stamp} : (s.refuse n p c y).fwd.frames = s.fwd.frames := by
  unfold State.refuse
  simp [frames_ite, State.setFwd]

theorem count_refuse {p c : Nat} {y : Stamp} (h : n < 24) :
    (s.refuse n p c y).g (R.QUE_Pn_CNT_REFUSED n) F.QUE_Pn_CNT_REFUSED_COUNT =
      min (s.g (R.QUE_Pn_CNT_REFUSED n) F.QUE_Pn_CNT_REFUSED_COUNT + 1) 4294967295 := by
  have h1 : R.QUE_Pn_CNT_REFUSED n ≠ R.QUE_RAW := by simp only [R.QUE_Pn_CNT_REFUSED, R.QUE_RAW]; omega
  have h2 : R.QUE_Pn_CNT_REFUSED n ≠ R.HIF_FQ_STATUS := by simp only [R.QUE_Pn_CNT_REFUSED, R.HIF_FQ_STATUS]; omega
  have h3 : R.QUE_Pn_CNT_REFUSED n ≠ R.HIF_RAW := by simp only [R.QUE_Pn_CNT_REFUSED, R.HIF_RAW]; omega
  refine Eq.trans (congrArg F.QUE_Pn_CNT_REFUSED_COUNT.get ?_) (State.g_inc (s := s) (f := F.QUE_Pn_CNT_REFUSED_COUNT) (by decide))
  unfold State.refuse
  simp [h1, h2, h3]

theorem raw_refuse {p c : Nat} {y : Stamp} : (s.refuse n p c y).isSet R.QUE_RAW F.QUE_RAW_REFUSED := by
  refine Eq.trans (congrArg F.QUE_RAW_REFUSED.get ?_) (State.isSet_raw (s := s.inc (R.QUE_Pn_CNT_REFUSED n) F.QUE_Pn_CNT_REFUSED_COUNT)
    (a := R.QUE_RAW) (f := F.QUE_RAW_REFUSED) (by decide) rfl)
  unfold State.refuse
  simp [R.QUE_RAW, R.HIF_FQ_STATUS, R.HIF_RAW]

theorem reg_refuse {p c : Nat} {y : Stamp} (h : 0x400000 ≤ a) (hn : n < 24) : (s.refuse n p c y).reg a = s.reg a := by
  have h1 : a ≠ R.QUE_RAW := by simp only [R.QUE_RAW]; omega
  have h2 : a ≠ R.HIF_FQ_STATUS := by simp only [R.HIF_FQ_STATUS]; omega
  have h3 : a ≠ R.HIF_RAW := by simp only [R.HIF_RAW]; omega
  have h4 : a ≠ R.QUE_Pn_CNT_REFUSED n := by simp only [R.QUE_Pn_CNT_REFUSED]; omega
  unfold State.refuse
  simp [h1, h2, h3, h4]

/-! ### A frame on a port whose link is up -/

@[simp] theorem sharedReg_RX_FRAMES (p : Fin 24) : sharedReg (R.MAC_Pn_RX_FRAMES p) = false := by revert p; decide
@[simp] theorem sharedReg_CNT_REFUSED (p : Fin 24) : sharedReg (R.QUE_Pn_CNT_REFUSED p) = false := by revert p; decide
theorem sharedReg_INn_Up : ∀ (p : Fin 24) (q : Fin 8), sharedReg (R.QUE_INn_Up p q) = false := by decide

/-- The answer of a refusal. -/
theorem refusalAnswers {p : Fin 24} {c : Nat} (hs : s.inReset = false)
    (h : s.receive p x b = (s.rxCounted p).refuse p (s.ingressPrio p b) c (s.rxStamp p x)) :
    Answers (exec (.frameReceive p x b) s) fun t =>
      t.fwd.frames = s.fwd.frames ∧
      t.g (R.QUE_Pn_CNT_REFUSED p) F.QUE_Pn_CNT_REFUSED_COUNT = min (s.g (R.QUE_Pn_CNT_REFUSED p)
        F.QUE_Pn_CNT_REFUSED_COUNT + 1) 4294967295 ∧
      t.isSet R.QUE_RAW F.QUE_RAW_REFUSED ∧
      t.g (R.MAC_Pn_RX_FRAMES p) F.MAC_Pn_RX_FRAMES_COUNT = min (s.g (R.MAC_Pn_RX_FRAMES p) F.MAC_Pn_RX_FRAMES_COUNT
        + 1) 4294967295 ∧
      s.sameBut t [R.MAC_Pn_RX_FRAMES p, R.QUE_Pn_CNT_REFUSED p] ∧ s.sameParts t [.fwd] := by
  show Answers (done s (s.receive p x b)) _
  rw [h]
  refine Answers.ofChanges (A := (· ∈ [R.MAC_Pn_RX_FRAMES p, R.QUE_Pn_CNT_REFUSED p])) (ps := [.fwd]) hs
    (by simp [State.rxCounted]) fun u L C => ⟨?_, ?_, L.isSet (by decide) (by decide) rfl raw_refuse, ?_, C.sameBut, C.parts⟩
  · rw [L.fwd, frames_refuse, rxCounted_fwd]
  · rw [L.g (by simp), count_refuse p.isLt, g_rxCounted_low (by simp only [R.QUE_Pn_CNT_REFUSED]; omega)]
  · refine (L.g (by simp) _).trans (Eq.trans (congrArg F.MAC_Pn_RX_FRAMES_COUNT.get ?_) rxCounted_count)
    exact reg_refuse (by simp only [R.MAC_Pn_RX_FRAMES]; omega) p.isLt

section
variable {p : Fin 24} (hr : s.running = true) (hl : s.linkUp p = true)
  (hi : s.fwd.frames.any (fun f => f.port == p && !f.whole) = false)
include hr hl hi

theorem receive_counts (h : beAt b 12 2 = 0x8808 ∨ s.looping p = true) : s.receive p x b = s.rxCounted p := by
  unfold State.receive
  simp only [hr, hl, hi, Bool.not_true, Bool.or_self, Bool.false_eq_true, if_false]
  exact if_pos (by rw [← State.rxCounted, looping_rxCounted]; exact h)

theorem macControl_counts (hs : s.inReset = false) (h : beAt b 12 2 = 0x8808 ∨ s.looping p = true) : Answers (exec (.frameReceive p x b) s) fun t =>
    t.g (R.MAC_Pn_RX_FRAMES p) F.MAC_Pn_RX_FRAMES_COUNT = min (s.g (R.MAC_Pn_RX_FRAMES p) F.MAC_Pn_RX_FRAMES_COUNT + 1)
      4294967295 ∧
    s.sameBut t [R.MAC_Pn_RX_FRAMES p] ∧ s.sameParts t [] := by
  show Answers (done s (s.receive p x b)) _
  rw [receive_counts hr hl hi h]
  exact Answers.ofChanges (A := (· ∈ [R.MAC_Pn_RX_FRAMES p])) hs (by simp [State.rxCounted]) fun u L C =>
    ⟨(L.g (by simp) _).trans rxCounted_count, C.sameBut, C.parts⟩

variable (hm : beAt b 12 2 ≠ 0x8808) (hk : s.looping p = false)
include hm hk

theorem receive_eq : s.receive p x b =
    if !s.runs .core then
      if (s.fwd.frames.foldl (fun k g => if g.lane && g.port == p.val then k + g.len else k) 0) + b.length ≤ 65536 then
        (s.rxCounted p).addFrame { s.newFrame p (s.ingressPrio p b) b (s.rxStamp p x) with lane := true }
      else (s.rxCounted p).refuse p (s.ingressPrio p b) 2 (s.rxStamp p x)
    else if !s.cellsFree p then (s.rxCounted p).refuse p (s.ingressPrio p b) 1 (s.rxStamp p x)
    else if !s.usageOk p (s.ingressPrio p b) then (s.rxCounted p).refuse p (s.ingressPrio p b) 0 (s.rxStamp p x)
    else (((s.rxCounted p).addFrame (s.land (s.newFrame p (s.ingressPrio p b) b (s.rxStamp p x)) 64)).usageAdd p
      (s.ingressPrio p b) 64).xoff := by
  have hrun : (s.rxCounted p).runs .core = s.runs .core := rfl
  have hland (f : Frame) : (s.rxCounted p).land f 64 = s.land f 64 := by
    unfold State.land
    rw [landingFree_rxCounted]
  unfold State.receive
  simp only [hr, hl, hi, Bool.not_true, Bool.or_self, Bool.false_eq_true, if_false]
  rw [← State.rxCounted, if_neg (by rw [looping_rxCounted]; simp [hm, hk])]
  simp only [ingressPrio_rxCounted, rxStamp_rxCounted, newFrame_rxCounted, rxCounted_fwd, hrun, cellsFree_rxCounted,
    usageOk_rxCounted p ingressPrio_lt, hland]

theorem receive_admitted (hs : s.inReset = false) (hc : s.runs .core = true) (hf : s.cellsFree p = true)
    (hu : s.usageOk p (s.ingressPrio p b) = true) : Answers (exec (.frameReceive p x b) s) fun t =>
      t.fwd.frames = s.fwd.frames ++ [s.land (s.newFrame p (s.ingressPrio p b) b (s.rxStamp p x)) 64] ∧
      t.reg (R.QUE_INn_Up p (s.ingressPrio p b)) = BitVec.ofNat 32 (((s.reg (R.QUE_INn_Up p (s.ingressPrio p
        b))).toNat + 64) % 2 ^ 26) ∧
      t.g (R.MAC_Pn_RX_FRAMES p) F.MAC_Pn_RX_FRAMES_COUNT = min (s.g (R.MAC_Pn_RX_FRAMES p) F.MAC_Pn_RX_FRAMES_COUNT
        + 1) 4294967295 ∧
      s.sameBeyond t [(0x200000, 0x280000), (R.MAC_Pn_RX_FRAMES p, R.MAC_Pn_RX_FRAMES p + 4)] ∧ s.sameParts t [.fwd] := by
  have hq : s.ingressPrio p b < 8 := ingressPrio_lt
  show Answers (done s (s.receive p x b)) _
  rw [receive_eq hr hl hi hm hk, if_neg (by simp [hc]), if_neg (by simp [hf]), if_neg (by simp [hu])]
  generalize s.ingressPrio p b = q at *
  refine Answers.ofChanges (A := fun a => ∃ r ∈ [(0x200000, 0x280000), (R.MAC_Pn_RX_FRAMES p, R.MAC_Pn_RX_FRAMES p + 4)],
    r.1 ≤ a ∧ a < r.2) (ps := [.fwd]) hs ?_ fun u L C => ⟨?_, ?_, ?_, C.sameBeyond, C.parts⟩
  · rw [Changes.xoff_iff (fun a h h' => ⟨_, List.mem_cons_self .., h, h'⟩) (by simp), Changes.usageAdd_iff
      ⟨_, List.mem_cons_self .., by simp only [R.QUE_INn_Up]; omega⟩, Changes.addFrame_iff (by simp), State.rxCounted,
      Changes.inc_iff ⟨_, List.mem_cons_of_mem _ (List.mem_cons_self ..), by simp⟩]
    exact .refl
  · rw [L.fwd, frames_xoff, State.usageAdd, State.setRegN_fwd]
    show (s.rxCounted p).fwd.frames ++ _ = _
    rw [rxCounted_fwd]
  · rw [L.reg _ (sharedReg_INn_Up p ⟨q, hq⟩), reg_xoff (by simp only [R.QUE_INn_Up, R.QUE_STATUS]; omega)
      (by simp only [R.QUE_INn_Up, R.QUE_RAW]; omega) (fun n hn => by simp only [R.QUE_INn_Up, R.QUE_Pn_PAUSE_STATUS]; omega)]
    have hv : ((s.rxCounted p).addFrame (s.land (s.newFrame p q b (s.rxStamp p x)) 64)).reg (R.QUE_INn_Up p q) =
        s.reg (R.QUE_INn_Up p q) := reg_rxCounted_low (by simp only [R.QUE_INn_Up]; omega)
    rw [State.usageAdd, State.reg_setRegN, if_pos rfl, hv]
    rfl
  · have h1 : R.MAC_Pn_RX_FRAMES p ≠ R.QUE_INn_Up p q := by simp only [R.MAC_Pn_RX_FRAMES, R.QUE_INn_Up]; omega
    refine (L.g (by simp) _).trans (Eq.trans (congrArg F.MAC_Pn_RX_FRAMES_COUNT.get ?_) rxCounted_count)
    rw [reg_xoff (by simp only [R.MAC_Pn_RX_FRAMES, R.QUE_STATUS]; omega) (by simp only [R.MAC_Pn_RX_FRAMES, R.QUE_RAW]; omega)
      (fun n hn => by simp only [R.MAC_Pn_RX_FRAMES, R.QUE_Pn_PAUSE_STATUS]; omega), State.usageAdd, State.reg_setRegN, if_neg h1]
    rfl

theorem receive_stored (hs : s.inReset = false) (hc : s.runs .core = false)
    (hf : (s.fwd.frames.foldl (fun k g => if g.lane && g.port == p.val then k + g.len else k) 0) + b.length ≤ 65536) :
    Answers (exec (.frameReceive p x b) s) fun t =>
      t.fwd.frames = s.fwd.frames ++ [{ s.newFrame p (s.ingressPrio p b) b (s.rxStamp p x) with lane := true }] ∧
      t.g (R.MAC_Pn_RX_FRAMES p) F.MAC_Pn_RX_FRAMES_COUNT = min (s.g (R.MAC_Pn_RX_FRAMES p) F.MAC_Pn_RX_FRAMES_COUNT
        + 1) 4294967295 ∧
      s.sameBut t [R.MAC_Pn_RX_FRAMES p] ∧ s.sameParts t [.fwd] := by
  show Answers (done s (s.receive p x b)) _
  rw [receive_eq hr hl hi hm hk, if_pos (by simp [hc]), if_pos hf]
  refine Answers.ofChanges (A := (· ∈ [R.MAC_Pn_RX_FRAMES p])) (ps := [.fwd]) hs (by simp [State.rxCounted]) fun u L C =>
    ⟨?_, (L.g (by simp) _).trans rxCounted_count, C.sameBut, C.parts⟩
  rw [L.fwd]
  show (s.rxCounted p).fwd.frames ++ _ = _
  rw [rxCounted_fwd]

end

/-- A PAUSE frame changes nothing. -/
theorem pauseRx_still {p : Fin 24} (hs : s.inReset = false) : Answers (exec (.clause31PauseRx p b) s) fun t =>
    t.pending = s.pending ∧ s.sameBut t [] ∧ s.sameParts t [] :=
  Answers.ofChanges (A := (· ∈ [])) hs .refl fun _ L C => ⟨L.pending, C.sameBut, C.parts⟩

/-- Settles O16. -/
theorem framesArrive : Obligations.FramesArrive :=
  ⟨fun _ _ _ _ hs hr hl hi h => macControl_counts hr hl hi hs h,
    fun _ _ _ _ hs hr hl hi hm hk hc hf hu => receive_admitted hr hl hi hm hk hs hc hf hu,
    fun _ _ _ _ hs hr hl hi hm hk hc hf => refusalAnswers hs ((receive_eq hr hl hi hm hk).trans
      ((if_neg (by simp [hc])).trans (if_pos (by simp [hf])))),
    fun _ _ _ _ hs hr hl hi hm hk hc hf hu => refusalAnswers hs ((receive_eq hr hl hi hm hk).trans
      ((if_neg (by simp [hc])).trans ((if_neg (by simp [hf])).trans (if_pos (by simp [hu]))))),
    fun _ _ _ _ hs hr hl hi hm hk hc hf => receive_stored hr hl hi hm hk hs hc hf,
    fun _ _ _ _ hs hr hl hi hm hk hc hf => refusalAnswers hs ((receive_eq hr hl hi hm hk).trans
      ((if_pos (by simp [hc])).trans (if_neg (not_le.2 hf)))),
    fun _ _ _ hs => pauseRx_still hs⟩

end Sys2Proof.Machine
end

section

/-! ## Messages and stream errors of the mate link (R376 to R381, R395) -/

set_option Elab.async false

namespace Sys2Proof.Machine

variable {A : Nat → Prop} {ps : List Part} {s t : State} {a c n k q : Nat} {f : Fld} {p m : List Byte} {x : StampIn}

/-! ### A message in a row -/

theorem length_guyMessage : (guyMessage c q p).length = p.length + 12 := by
  simp [guyMessage]
  omega

/-- A message that fits in a row fills the first one. -/
theorem rowsOf_single (h0 : 0 < m.length) (h : m.length ≤ 1918) : rowsOf [m] = [beBytes 2 0 ++ padTo 1918 m] := by
  have hn : (m.length + (rowLen - 1)) / rowLen = 1 := by simp only [rowLen]; omega
  have hs : slice m 0 rowLen = m := by
    rw [slice, List.drop_zero, List.take_of_length_le h]
  unfold rowsOf
  rw [List.flatten_cons, List.flatten_nil, List.append_nil, hn]
  simp [guyRow, headerStarts, hs]

/-- A message that is sent uses up a SEQ of its class and leaves in a row of its own. -/
theorem guySend_eq (hr : s.running = true) (h : p.length ≤ 1906) : s.guySend c p =
    (s.setGuy { s.guy with seqs := Tbl.set 0 s.guy.seqs c ((Tbl.get 0 s.guy.seqs c + 1) % 2 ^ 32) }).emit
      (.guyRow (beBytes 2 0 ++ padTo 1918 (guyMessage c (Tbl.get 0 s.guy.seqs c) p))) := by
  unfold State.guySend State.guyPut
  rw [if_pos hr]
  simp only [State.guyMessages]
  rw [rowsOf_single (by rw [length_guyMessage]; omega) (by rw [length_guyMessage]; omega)]
  rfl

/-- The answer of a message that is sent. -/
theorem messageAnswers {P : State → Prop} (hs : s.inReset = false) (h : p.length ≤ 1906)
    (ht : Changes (· ∈ []) [.guy] s t) (ho : t.out = s.out) (hr' : t.running = true) (hq : t.guy.seqs = s.guy.seqs)
    (hP : ∀ u, s.emits u (.guyRow (beBytes 2 0 ++ padTo 1918 (guyMessage c (Tbl.get 0 s.guy.seqs c) p))) →
      Tbl.get 0 u.guy.seqs c = (Tbl.get 0 s.guy.seqs c + 1) % 2 ^ 32 → u.guy.sent = t.guy.sent → s.sameBut u [] →
      s.sameParts u [.guy] → P u) : Answers (done s (t.guySend c p)) P := by
  rw [guySend_eq hr' h, hq]
  refine Answers.ofChanges (A := (· ∈ [])) hs (by simpa using ht) fun u L C => hP u ?_ ?_ ?_ C.sameBut C.parts
  · have k : t.out ++ [_] <+: u.out := L.out
    rwa [ho] at k
  · rw [L.guy]
    exact Tbl.get_set_same ..
  · rw [L.guy]
    rfl

section
variable (hs : s.inReset = false) (hr : s.running = true) (hu : s.guyUp = true)
include hs hr hu

theorem claim_sent (h : s.pairState ≠ pairSolo) : Answers (exec .claimMsgTx s) fun t =>
    s.emits t (.guyRow (beBytes 2 0 ++ padTo 1918 (guyMessage 1 (Tbl.get 0 s.guy.seqs 1) (beBytes 4 (s.reg
      R.RUT_CLAIM).toNat ++ beBytes 4 s.rut.prevClaim)))) ∧
    Tbl.get 0 t.guy.seqs 1 = (Tbl.get 0 s.guy.seqs 1 + 1) % 2 ^ 32 ∧ s.sameBut t [] ∧ s.sameParts t [.guy] := by
  show Answers (done s s.claimTx) _
  unfold State.claimTx
  rw [if_pos (by simp [hu, h])]
  exact messageAnswers hs (by simp) .refl rfl hr rfl fun u ho hq _ hb hp => ⟨ho, hq, hb, hp⟩

theorem heartbeat_sent (h : s.pairState ≠ pairSolo) : Answers (exec .heartbeatTx s) fun t =>
    s.emits t (.guyRow (beBytes 2 0 ++ padTo 1918 (guyMessage 2 (Tbl.get 0 s.guy.seqs 2) (beBytes 4 (s.reg
      R.RUT_CLAIM).toNat ++ beBytes 2 s.rut.pairId ++ beBytes 1 s.stateByte ++ beBytes 1 (s.rut.rank * 16) ++
      beBytes 8 s.nowTick.toNat)))) ∧
    Tbl.get 0 t.guy.seqs 2 = (Tbl.get 0 s.guy.seqs 2 + 1) % 2 ^ 32 ∧ s.sameBut t [] ∧ s.sameParts t [.guy] := by
  show Answers (done s s.heartbeatTx) _
  unfold State.heartbeatTx
  rw [if_pos (by simp [hu, h])]
  exact messageAnswers hs (by simp) .refl rfl hr rfl fun u ho hq _ hb hp => ⟨ho, hq, hb, hp⟩

/-- What a TIME message returns of the last one received. -/
def State.timeBack (s : State) : Nat × Nat :=
  match s.guy.last with
  | some (r, q, _) => ((tickOf r.t).toNat, q)
  | none => (0, 0)

theorem time_sent (h : s.on R.GUY_CTRL F.GUY_CTRL_TIME_EN = true) {v w : Nat} (hb : s.timeBack = (v, w)) :
    Answers (exec (.timeMsgTx x) s) fun t =>
      s.emits t (.guyRow (beBytes 2 0 ++ padTo 1918 (guyMessage 3 (Tbl.get 0 s.guy.seqs 3) (beBytes 8 (tickOf
        (s.guyStamp true x).t).toNat ++ beBytes 8 v ++ beBytes 1 (s.g R.REF_STATUS F.REF_STATUS_COND * 64 + s.g
        R.REF_STATUS F.REF_STATUS_SEL_CAND) ++ beBytes 1 (s.ownQl * 16) ++ beBytes 4 w ++ beBytes 1 (s.timeFlags
        (s.guyStamp true x)) ++ beBytes 1 0)))) ∧
      Tbl.get 0 t.guy.seqs 3 = (Tbl.get 0 s.guy.seqs 3 + 1) % 2 ^ 32 ∧
      t.guy.sent.head? = some (Tbl.get 0 s.guy.seqs 3, s.guyStamp true x, s.tsc.breaks) ∧ s.sameBut t [] ∧
      s.sameParts t [.guy] := by
  have e : s.timeTx x = (s.setGuy { s.guy with
      sent := ((Tbl.get 0 s.guy.seqs 3, s.guyStamp true x, s.tsc.breaks) :: s.guy.sent).take 8 }).guySend 3
        (beBytes 8 (tickOf (s.guyStamp true x).t).toNat ++ beBytes 8 s.timeBack.1 ++ beBytes 1 (s.g R.REF_STATUS
          F.REF_STATUS_COND * 64 + s.g R.REF_STATUS F.REF_STATUS_SEL_CAND) ++ beBytes 1 (s.ownQl * 16) ++
          beBytes 4 s.timeBack.2 ++ beBytes 1 (s.timeFlags (s.guyStamp true x)) ++ beBytes 1 0) :=
    if_pos (by simp [hu, h])
  show Answers (done s (s.timeTx x)) _
  rw [e, hb]
  exact messageAnswers hs (by simp) (by simp) rfl hr rfl fun u ho hq hn hb hp => ⟨ho, hq, by rw [hn]; rfl, hb, hp⟩

end

/-! ### Partner time -/

@[simp] theorem Changes.setBarred_iff {b : Bool} (h : A (R.REF_CANDk_STATUS k)) (hr : .ref ∈ ps) :
    Changes A ps s (t.setBarred k b) ↔ Changes A ps s t := by
  unfold State.setBarred
  simp [h, hr]

theorem guy_ite {p : Prop} [Decidable p] : State.guy (if p then s else t) = if p then s.guy else t.guy := apply_ite ..

theorem conds_ite {p : Prop} [Decidable p] : State.conds (if p then s else t) = if p then s.conds else t.conds := apply_ite ..

@[simp] theorem guy_judge : (s.judge k).guy = s.guy := by
  unfold State.judge State.selRec State.showCand
  simp [guy_ite, State.setCand, State.wtrReset, State.setRef]

@[simp] theorem conds_judge : (s.judge k).conds = s.conds := by
  unfold State.judge State.selRec State.showCand
  simp [conds_ite, State.setCand, State.wtrReset, State.setRef]

theorem guy_setBarred {b : Bool} : (s.setBarred k b).guy = s.guy := guy_judge.trans rfl

theorem conds_setBarred {b : Bool} : (s.setBarred k b).conds = s.conds := conds_judge.trans rfl

theorem conds_setGuy {x : Guy} : (s.setGuy x).conds = s.conds := rfl

theorem offsetSeen_parts {o : Int} : (s.offsetSeen k o).guy = s.guy ∧ (s.offsetSeen k o).conds = s.conds ∧
    (s.offsetSeen k o).tsc = s.tsc ∧ ∀ a, (s.offsetSeen k o).reg a = s.reg a := by
  unfold State.offsetSeen
  split
  · exact ⟨rfl, rfl, rfl, fun _ => rfl⟩
  · exact ⟨rfl, rfl, rfl, fun _ => rfl⟩

/-- The partner's time as it shows (R381). -/
def State.partnerShown (s : State) (t2 : Stamp) (q : Nat) (p : List Byte) : State :=
  let y := ((s.p R.GUY_PARTNER F.GUY_PARTNER_QL (beAt p 17 1 / 16)).p R.GUY_PARTNER F.GUY_PARTNER_COND (beAt p 16 1 / 64)).p
    R.GUY_PARTNER F.GUY_PARTNER_CAND (beAt p 16 1 % 64)
  ((y.cond R.GUY_RAW F.GUY_RAW_TIME_STALE false).setGuy { y.guy with last := some (t2, q, s.tsc.breaks) }).setBarred 28
    (beAt p 16 1 % 64 == 28)

@[simp] theorem Changes.partnerShown_iff {t2 : Stamp} (h : A R.GUY_PARTNER) (h' : A (R.REF_CANDk_STATUS 28)) (hg : .guy ∈ ps)
    (hc : .conds ∈ ps) (hr : .ref ∈ ps) : Changes A ps s (t.partnerShown t2 q p) ↔ Changes A ps s t := by
  unfold State.partnerShown
  simp [h, h', hg, hc, hr]

theorem reg_partnerShown {t2 : Stamp} (h : a ≠ R.REF_RAW) (h' : a ≠ R.REF_CANDk_STATUS 28) (hp : a ≠ R.GUY_PARTNER) :
    (s.partnerShown t2 q p).reg a = s.reg a := by
  unfold State.partnerShown State.setBarred
  rw [reg_judge h h']
  simp [hp]

/-- What an answer shows of the partner's time. -/
theorem partnerShown_shows {t2 : Stamp} {u : State} (L : Logs (s.partnerShown t2 q p) u) :
    u.g R.GUY_PARTNER F.GUY_PARTNER_QL = beAt p 17 1 / 16 ∧ u.g R.GUY_PARTNER F.GUY_PARTNER_COND = beAt p 16 1 / 64 ∧
    u.g R.GUY_PARTNER F.GUY_PARTNER_CAND = beAt p 16 1 % 64 ∧ u.condHolds R.GUY_RAW F.GUY_RAW_TIME_STALE = false ∧
    u.guy.last = some (t2, q, s.tsc.breaks) := by
  have h1 : beAt p 17 1 < 256 := beAt_lt
  have h2 : beAt p 16 1 < 256 := beAt_lt
  have hr : u.reg R.GUY_PARTNER = _ := (L.reg _ (by decide)).trans
    (reg_judge (s := State.setCand _ _ _) (k := 28) (by decide) (by decide))
  simp only [State.reg_setCand, State.reg_setGuy, State.reg_cond, State.reg_p, if_true] at hr
  refine ⟨?_, ?_, ?_, ?_, ?_⟩
  · rw [State.g, hr, Fld.get_put_ne (by decide) (by decide), Fld.get_put_ne (by decide) (by decide), Fld.get_put (by decide)]
    exact Nat.mod_eq_of_lt (show _ < 16 by omega)
  · rw [State.g, hr, Fld.get_put_ne (by decide) (by decide), Fld.get_put (by decide)]
    exact Nat.mod_eq_of_lt (show _ < 4 by omega)
  · rw [State.g, hr, Fld.get_put (by decide)]
    exact Nat.mod_eq_of_lt (show _ < 64 by omega)
  · have hc : F.GUY_RAW_TIME_STALE.get (Tbl.get 0#32 u.conds R.GUY_RAW) = 0 := by
      rw [L.conds, State.partnerShown, conds_setBarred, conds_setGuy]
      exact State.get_cond (b := false) (by decide) rfl
    simp [State.condHolds, hc]
  · rw [L.guy, State.partnerShown, State.setBarred, guy_judge]
    rfl

theorem timeRx_unmatched {t2 : Stamp} (h : s.guy.sent.find? (fun e => e.1 == beAt p 18 4) = none) :
    s.timeRx t2 q p = s.partnerShown t2 q p := by
  unfold State.timeRx State.partnerShown
  simp only [h, State.p_tsc]

/-- The partner's offset less this unit's (R381). -/
def offsetOf (p : List Byte) (t2 t3 : Stamp) : Int :=
  (tickDiff (BitVec.ofNat 64 (beAt p 0 8)) (tickOf t2.t) + tickDiff (BitVec.ofNat 64 (beAt p 8 8)) (tickOf t3.t) + 1) / 2

theorem timeRx_matched {t2 t3 : Stamp}
    (h : s.guy.sent.find? (fun e => e.1 == beAt p 18 4) = some (beAt p 18 4, t3, s.tsc.breaks)) (hf : beAt p 22 1 % 16 = 0)
    (h2 : t2.coarse = false) (h3 : t3.coarse = false) : s.timeRx t2 q p =
      ((s.setPairI R.GUY_OFFSET_LO (offsetOf p t2 t3)).offsetSeen 28 (offsetOf p t2 t3)).partnerShown t2 q p := by
  unfold State.timeRx State.partnerShown
  simp only [h, hf, h2, h3, State.p_tsc, Bool.not_false, and_self, if_true]
  rfl

theorem deliver_time (hu : s.guyUp = true) (hm : guyPayload 3 m = some (q, p)) :
    s.guyDeliver 3 m (fun q p => s.timeRx (s.guyStamp false x) q p) = s.timeRx (s.guyStamp false x) q p := by
  unfold State.guyDeliver
  rw [if_pos hu, hm]

section
variable (hs : s.inReset = false) (hu : s.guyUp = true)
include hs hu

theorem time_unmatched (hm : guyPayload 3 m = some (q, p)) (h : s.guy.sent.find? (fun e => e.1 == beAt p 18 4) = none) :
    Answers (exec (.timeMsgRx m x) s) fun t =>
      t.g R.GUY_PARTNER F.GUY_PARTNER_QL = beAt p 17 1 / 16 ∧
      t.g R.GUY_PARTNER F.GUY_PARTNER_COND = beAt p 16 1 / 64 ∧
      t.g R.GUY_PARTNER F.GUY_PARTNER_CAND = beAt p 16 1 % 64 ∧ t.condHolds R.GUY_RAW F.GUY_RAW_TIME_STALE = false ∧
      t.guy.last = some (s.guyStamp false x, q, s.tsc.breaks) ∧ s.sameBut t [R.GUY_PARTNER, R.REF_CANDk_STATUS 28] ∧
      s.sameParts t [.guy, .conds, .ref] := by
  show Answers (done s (s.guyDeliver 3 m fun q p => s.timeRx (s.guyStamp false x) q p)) _
  rw [deliver_time hu hm, timeRx_unmatched h]
  refine Answers.ofChanges (A := (· ∈ [R.GUY_PARTNER, R.REF_CANDk_STATUS 28])) (ps := [.guy, .conds, .ref]) hs (by simp)
    fun u L C => ?_
  obtain ⟨h1, h2, h3, h4, h5⟩ := partnerShown_shows L
  exact ⟨h1, h2, h3, h4, h5, C.sameBut, C.parts⟩

theorem time_matched {y : Stamp} (hm : guyPayload 3 m = some (q, p))
    (h : s.guy.sent.find? (fun e => e.1 == beAt p 18 4) = some (beAt p 18 4, y, s.tsc.breaks)) (hf : beAt p 22 1 % 16 = 0)
    (h2 : (s.guyStamp false x).coarse = false) (h3 : y.coarse = false) : Answers (exec (.timeMsgRx m x) s) fun t =>
      t.pairI R.GUY_OFFSET_LO = sx 64 (enc 64 (offsetOf p (s.guyStamp false x) y)) ∧
      t.g R.GUY_PARTNER F.GUY_PARTNER_QL = beAt p 17 1 / 16 ∧
      t.g R.GUY_PARTNER F.GUY_PARTNER_COND = beAt p 16 1 / 64 ∧
      t.g R.GUY_PARTNER F.GUY_PARTNER_CAND = beAt p 16 1 % 64 ∧ t.condHolds R.GUY_RAW F.GUY_RAW_TIME_STALE = false ∧
      t.guy.last = some (s.guyStamp false x, q, s.tsc.breaks) ∧
      s.sameBut t [R.GUY_OFFSET_LO, R.GUY_OFFSET_HI, R.GUY_PARTNER, R.REF_CANDk_STATUS 28] ∧
      s.sameParts t [.guy, .conds, .ref] := by
  show Answers (done s (s.guyDeliver 3 m fun q p => s.timeRx (s.guyStamp false x) q p)) _
  rw [deliver_time hu hm, timeRx_matched h hf h2 h3]
  generalize ho : offsetOf p (s.guyStamp false x) y = o
  refine Answers.ofChanges (A := (· ∈ [R.GUY_OFFSET_LO, R.GUY_OFFSET_HI, R.GUY_PARTNER, R.REF_CANDk_STATUS 28]))
    (ps := [.guy, .conds, .ref]) hs (by simp) fun u L C => ?_
  obtain ⟨k1, k2, k3, k4, k5⟩ := partnerShown_shows L
  obtain ⟨-, -, e3, e4⟩ := offsetSeen_parts (s := s.setPairI R.GUY_OFFSET_LO o) (k := 28) (o := o)
  rw [e3, State.setPairI_tsc] at k5
  refine ⟨congrArg (sx 64) ?_, k1, k2, k3, k4, k5, C.sameBut, C.parts⟩
  rw [L.pair (by decide) (by decide), ← State.pair_setPairI (s := s) (a := R.GUY_OFFSET_LO) (i := o)]
  exact State.pair_congr ((reg_partnerShown (by decide) (by decide) (by decide)).trans (e4 _))
    ((reg_partnerShown (by decide) (by decide) (by decide)).trans (e4 _))

theorem time_stale : Answers (exec .guyTimeStale s) fun t =>
    t.condHolds R.GUY_RAW F.GUY_RAW_TIME_STALE = true ∧ t.isSet R.GUY_RAW F.GUY_RAW_TIME_STALE ∧ s.sameBut t [] ∧
    s.sameParts t [.conds] := by
  show Answers (done s s.timeStale) _
  unfold State.timeStale
  rw [if_pos hu]
  refine Answers.ofDoneShown hs fun u L hc => ?_
  have hg : F.GUY_RAW_TIME_STALE.get (Tbl.get 0#32 u.conds R.GUY_RAW) = 1 := by
    rw [L.conds]
    exact State.get_cond (b := true) (by decide) rfl
  have C : Changes (· ∈ []) [.conds] s u := Changes.logs (by simp) L
  exact ⟨by simp [State.condHolds, hg], isSet_of_cond hc (by decide) (by decide) rfl hg, C.sameBut, C.parts⟩

end

/-! ### Stream errors -/

/-- A stream error, before its fault record (R379). -/
def State.streamDropped (s : State) (f : Fld) : State :=
  ((s.inc R.GUY_CNT_ERR f).raw R.GUY_RAW F.GUY_RAW_MSG_BAD).setGuy { s.guy with stream := none }

theorem streamError_eq {c l : Nat} {f : Fld} (hf : f = if c = 0 then F.GUY_CNT_ERR_MSG_BAD else F.GUY_CNT_ERR_BLOCK_ERR) :
    ∃ g, s.streamError c l = s.streamDropped f ∨ s.streamError c l = ((s.streamDropped f).setGuy g).fault 14 2 c l := by
  have e : (if c = 0 then s.inc R.GUY_CNT_ERR F.GUY_CNT_ERR_MSG_BAD else s.inc R.GUY_CNT_ERR F.GUY_CNT_ERR_BLOCK_ERR) =
      s.inc R.GUY_CNT_ERR f := by
    rw [hf]
    split <;> rfl
  unfold State.streamError
  rw [e]
  extract_lets y r z due
  have hz : z = s.streamDropped f := by
    unfold z r y State.streamDropped
    rw [State.inc_guy]
  rw [hz]
  split
  · exact ⟨_, .inr rfl⟩
  · exact ⟨s.guy, .inl rfl⟩

/-- The answer of a stream error. -/
theorem streamErrorAnswers {c l : Nat} {f : Fld} (hs : s.inReset = false)
    (hf : f = if c = 0 then F.GUY_CNT_ERR_MSG_BAD else F.GUY_CNT_ERR_BLOCK_ERR) :
    Answers (done s (s.streamError c l)) fun t =>
      t.g R.GUY_CNT_ERR f = min (s.g R.GUY_CNT_ERR f + 1) 65535 ∧
      t.isSet R.GUY_RAW F.GUY_RAW_MSG_BAD ∧ s.sameBut t [R.GUY_CNT_ERR] ∧ s.sameParts t [.guy] := by
  have hw : f.lo + f.w ≤ 32 ∧ 2 ^ f.w - 1 = 65535 := by
    rw [hf]
    split <;> decide
  have hL : ∃ y : State, Logs y (s.streamError c l) ∧ Changes (· ∈ [R.GUY_CNT_ERR]) [.guy] s y ∧
      ∀ a, y.reg a = (s.streamDropped f).reg a := by
    obtain ⟨g, e | e⟩ := streamError_eq (s := s) (l := l) hf
    · exact ⟨_, by rw [e]; exact .refl _, by simp [State.streamDropped], fun _ => rfl⟩
    · exact ⟨(s.streamDropped f).setGuy g, by rw [e]; exact .fault (.refl _), by simp [State.streamDropped], fun _ => rfl⟩
  obtain ⟨y, L, C, hy⟩ := hL
  refine Answers.ofDone hs fun u Lu => ?_
  have C' := C.logs (L.trans Lu)
  refine ⟨?_, (L.trans Lu).isSet (by decide) (by decide) rfl ?_, C'.sameBut, C'.parts⟩
  · rw [(L.trans Lu).g (by decide), State.g, hy, State.streamDropped, State.reg_setGuy, State.reg_raw, if_neg (by decide), ← hw.2]
    exact State.g_inc hw.1
  · rw [State.isSet, State.g, hy, State.streamDropped, State.reg_setGuy]
    exact State.isSet_raw (by decide) rfl

theorem message_bad (hs : s.inReset = false) (hu : s.guyUp = true) (h : guyParse m = none) :
    Answers (exec (.guyStreamError (.message m)) s) fun t =>
      t.g R.GUY_CNT_ERR F.GUY_CNT_ERR_MSG_BAD = min (s.g R.GUY_CNT_ERR F.GUY_CNT_ERR_MSG_BAD + 1) 65535 ∧
      t.isSet R.GUY_RAW F.GUY_RAW_MSG_BAD ∧ s.sameBut t [R.GUY_CNT_ERR] ∧ s.sameParts t [.guy] := by
  have e : s.streamBad (.message m) = s.streamError 0 0 := by simp [State.streamBad, hu, h]
  show Answers (done s (s.streamBad (.message m))) _
  rw [e]
  exact streamErrorAnswers hs rfl

theorem maskSet_ne_zero : maskSet n k ≠ 0 := by
  intro h
  have := maskBit_maskSet_self (n := n) (m := k)
  rw [h] at this
  simp [maskBit] at this

/-- A mask that collects places is 0 only where none is collected. -/
theorem foldl_maskSet_ne_zero {c : Nat → Prop} [DecidablePred c] {l : List Nat} (h : n ≠ 0 ∨ ∃ k ∈ l, c k) :
    l.foldl (fun m k => if c k then maskSet m k else m) n ≠ 0 := by
  induction l generalizing n with
  | nil => exact h.resolve_right fun ⟨k, hk, _⟩ => nomatch hk
  | cons j r ih =>
    refine ih ?_
    show (if c j then maskSet n j else n) ≠ 0 ∨ _
    by_cases hj : c j
    · rw [if_pos hj]
      exact .inl maskSet_ne_zero
    · rw [if_neg hj]
      refine h.imp_right fun ⟨k, hk, hc⟩ => ⟨k, ?_, hc⟩
      rcases List.mem_cons.1 hk with rfl | hk
      · exact absurd hc hj
      · exact hk

theorem row_noSync {l : List (List Bool)} {b : Nat} {k : Fin 4} (hs : s.inReset = false) (hu : s.guyUp = true)
    (h : (l.map (blockRx dataBits))[k.val]? = some BlockRx.noSync) : Answers (exec (.guyStreamError (.row l b x)) s) fun t =>
      t.g R.GUY_CNT_ERR F.GUY_CNT_ERR_BLOCK_ERR = min (s.g R.GUY_CNT_ERR F.GUY_CNT_ERR_BLOCK_ERR + 1) 65535 ∧
      t.isSet R.GUY_RAW F.GUY_RAW_MSG_BAD ∧ s.sameBut t [R.GUY_CNT_ERR] ∧ s.sameParts t [.guy] := by
  have hf : ∃ w, rowFind l b = .inr (2, w) :=
    ⟨_, if_pos (foldl_maskSet_ne_zero (.inr ⟨k, List.mem_range.2 k.isLt, h⟩))⟩
  obtain ⟨w, hf⟩ := hf
  have e : s.streamBad (.row l b x) = s.streamError 2 w := by simp [State.streamBad, State.rowRx, hu, hf]
  show Answers (done s (s.streamBad (.row l b x))) _
  rw [e]
  exact streamErrorAnswers hs rfl

/-- Settles O34. -/
theorem guylineMessages : Obligations.GuylineMessages :=
  ⟨fun _ hs hr hu h => claim_sent hs hr hu h, fun _ hs hr hu h => heartbeat_sent hs hr hu h,
    fun _ _ hs hr hu ht hl => time_sent hs hr hu ht (by simp [State.timeBack, hl]),
    fun _ _ _ _ _ hs hr hu ht hl => time_sent hs hr hu ht (by simp [State.timeBack, hl]),
    fun _ _ _ _ _ hs hu hm h => time_unmatched hs hu hm h,
    fun _ _ _ _ _ _ hs hu hm h hf h2 h3 => time_matched hs hu hm h hf h2 h3,
    fun _ hs hu => time_stale hs hu, fun _ _ hs hu h => message_bad hs hu h,
    fun _ _ _ _ _ hs hu h => row_noSync hs hu h⟩

end Sys2Proof.Machine
end

section

/-! ## What the settling of a PTP port leaves (R205, R215, R220, R222)

A change of a port's state moves its claim group, its tight confirmation, the servo port and the servo; it leaves the states of
the ports, what they hold, and their parents. -/

set_option Elab.async false

namespace Sys2Proof.Machine

variable {A : Nat → Prop} {ps : List Part} {s t u : State} {a c k n g old : Nat} {f : Fld} {b : Bool}

/-- The registers that settling writes, beside those that logging shares. -/
def settleReg (a : Nat) : Prop :=
  a = R.PTP_STATUS ∨ a = R.PTP_UTC ∨ (0x60050 ≤ a ∧ a < 0x60080) ∨ a = R.PTP_RAW ∨ a = R.REF_RAW ∨ a = R.HIF_FQ_STATUS ∨
    a = R.HIF_RAW ∨ a = R.REF_CANDk_STATUS 29 ∨ ∃ k < 24, a = R.PTP_Pn_STATUS k ∨ a = R.PTP_Pn_RAW k

/-- What settling leaves. -/
structure Settles (s t : State) : Prop where
  regs : ∀ a, ¬ settleReg a → t.reg a = s.reg a
  fields : ∀ k < 24, ∀ f ∈ [F.PTP_Pn_STATUS_STATE, F.PTP_Pn_STATUS_CLAIM_VALID], t.g (R.PTP_Pn_STATUS k) f = s.g (R.PTP_Pn_STATUS k) f
  ports : t.ptp.ports = s.ptp.ports
  bits : ∀ k < 24, KeepsBits (R.PTP_Pn_RAW k) s t
  frame : ∀ (A : Nat → Prop) (ps : List Part), (∀ a, 0x60000 ≤ a → a < 0x60A00 → A a) → A (R.REF_CANDk_STATUS 29) →
    .ptp ∈ ps → .ref ∈ ps → Changes A ps s t

namespace Settles

theorem refl : Settles s s := ⟨fun _ _ => rfl, fun _ _ _ _ => rfl, rfl, fun _ _ => .refl, fun _ _ _ _ _ _ => .refl⟩

theorem trans (h : Settles s t) (k : Settles t u) : Settles s u where
  regs a ha := (k.regs a ha).trans (h.regs a ha)
  fields j hj f hf := (k.fields j hj f hf).trans (h.fields j hj f hf)
  ports := k.ports.trans h.ports
  bits j hj := (h.bits j hj).trans (k.bits j hj)
  frame A ps h1 h2 h3 h4 := (h.frame A ps h1 h2 h3 h4).trans (k.frame A ps h1 h2 h3 h4)

theorem ite {p : Prop} [Decidable p] (h : Settles s t) (k : Settles s u) : Settles s (if p then t else u) := by
  split
  · exact h
  · exact k

/-- A change of registers that no port shows and of no port's part. -/
theorem ofReg (hr : ∀ a, ¬ settleReg a → t.reg a = s.reg a)
    (hp : ∀ k < 24, t.reg (R.PTP_Pn_STATUS k) = s.reg (R.PTP_Pn_STATUS k)) (hq : ∀ k < 24, t.reg (R.PTP_Pn_RAW k) = s.reg (R.PTP_Pn_RAW k))
    (ho : t.ptp.ports = s.ptp.ports)
    (hf : ∀ (A : Nat → Prop) (ps : List Part), (∀ a, 0x60000 ≤ a → a < 0x60A00 → A a) → A (R.REF_CANDk_STATUS 29) →
      .ptp ∈ ps → .ref ∈ ps → Changes A ps s t) : Settles s t :=
  ⟨hr, fun k hk f _ => congrArg f.get (hp k hk), ho, fun k hk => .ofReg (hq k hk), hf⟩

theorem note {k p w4 w5 w6 w7 : Nat} : Settles s (s.note k p w4 w5 w6 w7) :=
  ofReg (fun _ _ => State.reg_note) (fun _ _ => State.reg_note) (fun _ _ => State.reg_note) (by rw [State.note_ptp])
    fun _ _ _ _ _ _ => by simp

theorem setPtp {x : Ptp} (h : x.ports = s.ptp.ports) : Settles s (s.setPtp x) :=
  ofReg (fun _ _ => State.reg_setPtp) (fun _ _ => State.reg_setPtp) (fun _ _ => State.reg_setPtp) h
    fun _ _ _ _ hp _ => by simp [hp]

theorem fault {k c d p : Nat} : Settles s (s.fault k c d p) :=
  ofReg (fun a ha => State.reg_fault (fun h => ha (by simp [settleReg, h])) fun h => ha (by simp [settleReg, h]))
    (fun k _ => State.reg_fault (by simp only [R.PTP_Pn_STATUS, R.HIF_FQ_STATUS]; omega) (by simp only [R.PTP_Pn_STATUS, R.HIF_RAW]; omega))
    (fun k _ => State.reg_fault (by simp only [R.PTP_Pn_RAW, R.HIF_FQ_STATUS]; omega) (by simp only [R.PTP_Pn_RAW, R.HIF_RAW]; omega))
    (by rw [State.fault_ptp]) fun _ _ _ _ _ _ => by simp

/-- A register of the engine that no port shows. -/
theorem own {v : Word} (h : a = R.PTP_STATUS ∨ a = R.PTP_UTC ∨ (0x60050 ≤ a ∧ a < 0x60080)) : Settles s (s.setReg a v) := by
  have hlo : 0x60000 ≤ a ∧ a < 0x60080 := by
    rcases h with rfl | rfl | h
    · decide
    · decide
    · omega
  refine ofReg (fun c hc => State.reg_setReg_ne s (fun e => hc ?_) v) (fun k _ => State.reg_setReg_ne s (by simp only [R.PTP_Pn_STATUS]; omega) v)
    (fun k _ => State.reg_setReg_ne s (by simp only [R.PTP_Pn_RAW]; omega) v) ?_ fun A ps hA _ _ _ => ?_
  · subst e
    rcases h with h | h | h
    · exact .inl h
    · exact .inr (.inl h)
    · exact .inr (.inr (.inl h))
  · rw [State.setReg_ptp]
  · exact (Changes.setReg_iff (hA a hlo.1 (by omega))).2 .refl

theorem raw (h : a = R.PTP_RAW ∨ a = R.REF_RAW ∨ ∃ k < 24, a = R.PTP_Pn_RAW k) (hf : f.lo < 32) (hw : f.w = 1) :
    Settles s (s.raw a f) := by
  have hs : settleReg a := by
    rcases h with h | h | ⟨k, hk, h⟩
    · simp [settleReg, h]
    · simp [settleReg, h]
    · exact .inr (.inr (.inr (.inr (.inr (.inr (.inr (.inr ⟨k, hk, .inr h⟩)))))))
  have hb : (rawBlock a).isSome = true := by
    rcases h with h | h | ⟨k, hk, h⟩
    · rw [h]; decide
    · rw [h]; decide
    · rw [h]; exact rawBlock_PTP_Pn_RAW ⟨k, hk⟩
  have hp (k : Nat) (hk : k < 24) : R.PTP_Pn_STATUS k ≠ a := by
    rcases h with rfl | rfl | ⟨j, hj, rfl⟩
    · simp only [R.PTP_Pn_STATUS, R.PTP_RAW]; omega
    · simp only [R.PTP_Pn_STATUS, R.REF_RAW]; omega
    · simp only [R.PTP_Pn_STATUS, R.PTP_Pn_RAW]; omega
  refine ⟨fun c hc => ?_, fun k hk f' _ => ?_, by rw [State.raw_ptp], fun k hk => ?_, fun A ps _ _ _ _ => (Changes.raw_iff hb).2 .refl⟩
  · rw [State.reg_raw, if_neg fun e => hc (by rw [e]; exact hs)]
  · rw [State.g, State.reg_raw, if_neg (hp k hk)]
    rfl
  · by_cases e : R.PTP_Pn_RAW k = a
    · subst e
      exact .raw hf hw
    · exact .ofReg (by rw [State.reg_raw, if_neg e])

/-- A field of a port's status other than its state and CLAIM_VALID. -/
theorem port (hk : k < 24) (hf : f ∈ [F.PTP_Pn_STATUS_WINNER, F.PTP_Pn_STATUS_TIGHT_OK, F.PTP_Pn_STATUS_SERVO]) :
    Settles s (s.p (R.PTP_Pn_STATUS k) f n) := by
  have hr : R.PTP_Pn_STATUS k < 0x60A00 ∧ 0x60000 ≤ R.PTP_Pn_STATUS k := by simp only [R.PTP_Pn_STATUS]; omega
  refine ⟨fun c hc => ?_, fun j hj f' hf' => ?_, by rw [State.p_ptp], fun j hj => .ofReg ?_, fun A ps hA _ _ _ => ?_⟩
  · rw [State.reg_p, if_neg fun e => hc (.inr (.inr (.inr (.inr (.inr (.inr (.inr (.inr ⟨k, hk, .inl e⟩))))))))]
  · by_cases e : R.PTP_Pn_STATUS j = R.PTP_Pn_STATUS k
    · unfold State.g
      rw [State.reg_p, if_pos e, e]
      simp only [List.mem_cons, List.not_mem_nil, or_false] at hf hf'
      rcases hf with rfl | rfl | rfl <;> rcases hf' with rfl | rfl <;> exact Fld.get_put_ne (by decide) (by decide) ..
    · rw [State.g, State.reg_p, if_neg e]
      rfl
  · rw [State.reg_p, if_neg (by simp only [R.PTP_Pn_RAW, R.PTP_Pn_STATUS]; omega)]
  · exact (Changes.p_iff (hA _ hr.2 hr.1)).2 .refl

theorem disqualify : Settles s (s.disqualify 29) := by
  have hp : (s.disqualify 29).ptp = s.ptp := by
    unfold State.disqualify State.selRec State.showCand
    simp [apply_ite State.ptp, State.setCand, State.wtrReset, State.setRef]
  refine ofReg (fun a ha => reg_disqualify (fun h => ha (by simp [settleReg, h])) fun h => ha (by simp [settleReg, h]))
    (fun k _ => reg_disqualify (by simp only [R.PTP_Pn_STATUS, R.REF_RAW]; omega) (by simp only [R.PTP_Pn_STATUS, R.REF_CANDk_STATUS]; omega))
    (fun k _ => reg_disqualify (by simp only [R.PTP_Pn_RAW, R.REF_RAW]; omega) (by simp only [R.PTP_Pn_RAW, R.REF_CANDk_STATUS]; omega))
    (by rw [hp]) fun A ps _ h _ hr => by simp [h, hr]

end Settles

/-! ### The operations -/

theorem Settles.servoRec : Settles s (s.servoRec n) := .note

theorem Settles.setServo : Settles s (s.setServo n) := .own (.inl rfl)

theorem Settles.startGate : Settles s s.startGate := .setPtp rfl

theorem Settles.servoMeasures : Settles s s.servoMeasures := by
  unfold State.servoMeasures
  exact .trans (.trans (.setPtp (by rfl)) .startGate) .setServo

theorem Settles.servoSteer : Settles s s.servoSteer := by
  have h1 (u : State) : Settles u u.servoTracks := by
    unfold State.servoTracks
    exact .trans (.trans (.setPtp (by rfl)) .startGate) .setServo
  unfold State.servoSteer
  extract_lets free q y
  have hy : Settles s y := .ite (.setPtp (by rfl)) .refl
  exact hy.trans (.ite (.ite (.ite .refl (.setPtp (by rfl))) (h1 _)) (.ite .servoMeasures .refl))

theorem Settles.showUtc : Settles s (s.showUtc n) := .ite ((Settles.own (.inr (.inl rfl))).trans (.own (.inl rfl))) .refl

theorem Settles.formValid : Settles s s.formValid := by
  unfold State.formValid
  extract_lets n
  split
  · exact .refl
  · next t _ =>
    extract_lets x
    have hx : Settles s x := .trans (.own (.inl rfl)) (.setPtp (by rw [State.setReg_ptp]))
    exact .ite (hx.trans (.ite .servoMeasures .refl)) .refl

theorem Settles.setServoPort : Settles s (s.setServoPort n) := by
  unfold State.setServoPort
  extract_lets old x y z
  have hx : Settles s x := by
    unfold x
    split
    · next h => exact .port h (by decide)
    · exact .refl
  have hy : Settles x y := by
    unfold y
    split
    · next h => exact .port h (by decide)
    · exact .refl
  have hz : Settles y z := (Settles.own (.inl rfl)).trans (.raw (.inl rfl) (by decide) rfl)
  exact .trans (.trans (((hx.trans hy).trans hz).trans (.setPtp (by rfl))) .showUtc) .servoRec

theorem Settles.loseValid : Settles s s.loseValid := by
  unfold State.loseValid
  extract_lets x
  have hx : Settles s x := .ite ((Settles.own (.inl rfl)).trans (.raw (.inl rfl) (by decide) rfl)) .refl
  exact .trans (hx.trans (.setPtp (by rfl))) .setServo

theorem Settles.masterChange : Settles s (s.masterChange old) := by
  unfold State.masterChange
  extract_lets r x
  have hx : Settles s x := (Settles.loseValid.trans .disqualify).trans (.setPtp (Settles.disqualify (s := s.loseValid)).ports.symm)
  exact .ite (hx.trans .fault) hx

theorem Settles.chooseServo : Settles s s.chooseServo :=
  .ite (.ite .refl (Settles.setServoPort.trans .formValid))
    (.ite .refl ((Settles.setServoPort.trans .masterChange).trans .formValid))

theorem Settles.tightEval (hn : n < 24) : Settles s (s.tightEval n) := by
  unfold State.tightEval
  extract_lets tight ok was x r y
  have hy : Settles s y := (Settles.port hn (by decide)).trans (.ite (.setPtp (by rfl)) .refl)
  exact .ite .refl (.ite hy (hy.trans (.raw (.inr (.inr ⟨n, hn, rfl⟩)) (by decide) rfl)))

theorem Settles.groupEval (hg : g < 7) : Settles s (s.groupEval g) := by
  unfold State.groupEval
  extract_lets old oldClaim new claim x y z w v q
  have h1 : ∀ {v : Word} {s : State}, Settles s (s.setReg (R.PTP_CLAIM_WINg g) v) :=
    .own (.inr (.inr (by simp only [R.PTP_CLAIM_WINg]; omega)))
  have h2 : ∀ {v : Word} {s : State}, Settles s (s.setReg (R.PTP_CLAIM_GRPg g) v) :=
    .own (.inr (.inr (by simp only [R.PTP_CLAIM_GRPg]; omega)))
  have hx : Settles s x := h1
  have hy : Settles x y := h2.trans h2
  have hz : Settles y z := by
    unfold z
    split
    · next h => exact .port h (by decide)
    · exact .refl
  have hw : Settles z w := by
    unfold w
    split
    · next h => exact .port h (by decide)
    · exact .refl
  have hv : Settles w v := (Settles.raw (.inl rfl) (by decide) rfl).trans .note
  have hq : Settles v q := .ite ((Settles.raw (.inl rfl) (by decide) rfl).trans .fault) .refl
  have k := (((hx.trans hy).trans hz).trans hw).trans (hv.trans hq)
  exact .ite hx (.ite (k.trans (Settles.setServoPort.trans .formValid)) k)

theorem groupOf_lt (h : s.groupOf n = some g) : g < 7 := by
  have hl : s.pcfg n F.PTP_Pn_CFG_CLAIM_GRP < 8 := Fld.get_lt _ _
  unfold State.groupOf at h
  split at h
  · cases h
  · next k hk =>
    cases h
    omega

theorem Settles.ptpSettle (hn : n < 24) : Settles s (s.ptpSettle n) := by
  unfold State.ptpSettle
  extract_lets x
  have hx : Settles s x := by
    unfold x
    split
    · next h => exact .groupEval (groupOf_lt h)
    · exact .refl
  exact hx.trans ((Settles.tightEval hn).trans (Settles.chooseServo.trans .servoSteer))

end Sys2Proof.Machine
end

section

/-! ## Received PTP messages, and the delay exchanges (R202, R207, R217) -/

set_option Elab.async false

namespace Sys2Proof.Machine

variable {A : Nat → Prop} {ps : List Part} {s t u : State} {p : Fin 24} {m : List Byte} {ty n : Nat} {f : State → State} {v : PtpPort}
  {t1 t2 t3 t4 : Tick64}

/-! ### Any message -/

/-- A well-formed message that a running port consumes is given to its handler. -/
theorem consumedAnswers {P : State → Prop} (hr : s.running = true) (hc : s.consumes n m = true) (hm : msgOk ty m = true)
    (h : Answers (done s (f s)) P) : Answers (done s (if s.running then s.onMessage n ty m f else s)) P := by
  rw [if_pos hr, State.onMessage, if_pos hc, if_pos hm]
  exact h

@[simp] theorem sharedReg_PTP_Pn_CNT_ERR (p : Fin 24) : sharedReg (R.PTP_Pn_CNT_ERR p) = false := by revert p; decide

/-- A discarded message is counted, and changes nothing else. -/
theorem discardAnswers (hs : s.inReset = false) : Answers (done s (s.ptpDiscard p)) fun t =>
    t.g (R.PTP_Pn_CNT_ERR p) F.PTP_Pn_CNT_ERR_DISCARDED = min (s.g (R.PTP_Pn_CNT_ERR p) F.PTP_Pn_CNT_ERR_DISCARDED + 1) 65535 ∧
    s.sameBut t [R.PTP_Pn_CNT_ERR p] ∧ s.sameParts t [] := by
  unfold State.ptpDiscard
  exact Answers.ofChanges (A := (· ∈ [R.PTP_Pn_CNT_ERR p])) (ps := []) hs (by simp) fun u L C =>
    ⟨(L.g (by simp) _).trans (State.g_inc (by decide)), C.sameBut, C.parts⟩

/-- A malformed message is discarded. -/
theorem malformedAnswers (hs : s.inReset = false) (hr : s.running = true) (hc : s.consumes p m = true) (hm : msgOk ty m = false) :
    Answers (done s (if s.running then s.onMessage p ty m f else s)) fun t =>
      t.g (R.PTP_Pn_CNT_ERR p) F.PTP_Pn_CNT_ERR_DISCARDED =
        min (s.g (R.PTP_Pn_CNT_ERR p) F.PTP_Pn_CNT_ERR_DISCARDED + 1) 65535 ∧
      s.sameBut t [R.PTP_Pn_CNT_ERR p] ∧ s.sameParts t [] := by
  rw [if_pos hr, State.onMessage, if_pos hc, if_neg (by simp [hm])]
  exact discardAnswers hs

/-- A message that the port does not consume, or that comes while the engine's clocks stand, changes nothing. -/
theorem passedAnswers (hs : s.inReset = false) (h : s.running = false ∨ s.consumes n m = false) :
    Answers (done s (if s.running then s.onMessage n ty m f else s)) fun t => s.sameBut t [] ∧ s.sameParts t [] := by
  refine Answers.still hs ?_
  split
  · next hr =>
    rcases h with h | h
    · cases h.symm.trans hr
    · rw [State.onMessage, if_neg (by simp [h])]
  · rfl

theorem State.pport_congr {x y : State} (h : x.ptp.ports = y.ptp.ports) : x.pport n = y.pport n :=
  congrArg (Tbl.get PtpPort.reset · n) h

/-- A port's record changes, and nothing else. -/
theorem setPportAnswers {P : State → Prop} (hs : s.inReset = false)
    (h : ∀ t, t.pport p = v → s.sameBut t [] → s.sameParts t [.ptp] → P t) : Answers (done s (s.setPport p v)) P :=
  Answers.ofChanges (A := (· ∈ ([] : List Nat))) (ps := [.ptp]) hs (by simp) fun u L C =>
    h u ((State.pport_congr (congrArg Ptp.ports L.ptp)).trans (State.pport_setPport.trans (if_pos rfl))) C.sameBut C.parts

/-! ### A delay exchange -/

/-- What LD_VALID falling leaves. -/
theorem ptpLdCheck_keeps (hn : n < 24) : (s.ptpLdCheck n).ptp.ports = s.ptp.ports ∧ (s.ptpLdCheck n).pts = s.pts := by
  unfold State.ptpLdCheck
  split
  · have S := Settles.ptpSettle (s := s.setPtpState n ptpUncal) hn
    have C := S.frame (fun _ => True) [.ptp, .ref] (fun _ _ _ => trivial) trivial (by simp) (by simp)
    exact ⟨S.ports.trans (congrArg Ptp.ports (State.p_ptp ..)), Eq.trans (C.parts .pts (by decide)) (State.p_pts ..)⟩
  · exact ⟨rfl, rfl⟩

/-- The first usable exchange of a port without a mean delay. -/
theorem goodExchangeAnswers {P : State → Prop} (hs : s.inReset = false) (hw : (s.ptsOf p).ld = [])
    (hv : s.g (R.PTS_STATUS p) F.PTS_STATUS_LD_VALID = 0)
    (hP : ∀ t, t.pport p = v → (t.ptsOf p).ld = [(tickDiff t4 t1 - tickDiff t3 t2 + 1) / 2] → P t) :
    Answers (done s (((s.setPport p v).ldExchange p t1 t2 t3 t4 false).ptpLdCheck p)) P := by
  have hoff : (s.setPport p v).on (R.PTS_STATUS p) F.PTS_STATUS_LD_VALID = false := by
    simpa [State.on, State.g] using hv
  rw [ldExchange_good, ldSample_takes (by simp [hoff])]
  have hl : ((s.setPport p v).ptsOf p).ld = [] := hw
  rw [hl]
  obtain ⟨k1, k2⟩ := ptpLdCheck_keeps (s := (s.setPport p v).setWindow p [delaySample t1 t2 t3 t4]) p.isLt
  have C : Changes (windowRegs p) [.pts, .free] (s.setPport p v) ((s.setPport p v).setWindow p [delaySample t1 t2 t3 t4]) := by simp
  refine Answers.ofDone hs fun u L => hP u ?_ ?_
  · have e : u.ptp.ports = (s.setPport p v).ptp.ports :=
      (congrArg Ptp.ports L.ptp).trans (k1.trans (congrArg Ptp.ports (C.parts .ptp (by decide))))
    exact (State.pport_congr e).trans (State.pport_setPport.trans (if_pos rfl))
  · rw [L.ptsOf, show State.ptsOf _ p = _ from congrArg (Tbl.get Pts.reset · p) k2]
    exact setWindow_singleton

/-- An exchange whose stamps are unusable. -/
theorem badExchangeAnswers (hs : s.inReset = false)
    (hl : s.ptpState p = ptpSlave → s.g (R.PTS_STATUS p) F.PTS_STATUS_LD_VALID = 1) :
    Answers (done s (((s.setPport p v).ldExchange p t1 t2 t3 t4 true).ptpLdCheck p)) fun t =>
      t.pport p = v ∧
      t.g (R.PTS_LD_CNT p) F.PTS_LD_CNT_DISCARDS = min (s.g (R.PTS_LD_CNT p) F.PTS_LD_CNT_DISCARDS + 1) 65535 ∧
      s.sameBut t [R.PTS_LD_CNT p] ∧ s.sameParts t [.ptp] := by
  have e1 : R.PTP_Pn_STATUS p ≠ R.PTS_LD_CNT p := by simp only [R.PTP_Pn_STATUS, R.PTS_LD_CNT]; omega
  have e2 : R.PTS_STATUS p ≠ R.PTS_LD_CNT p := by simp only [R.PTS_STATUS, R.PTS_LD_CNT]; omega
  have hl' : ¬ (s.ptpState p = ptpSlave ∧ s.on (R.PTS_STATUS p) F.PTS_STATUS_LD_VALID = false) := fun ⟨h, k⟩ =>
    Bool.false_ne_true (k.symm.trans ((State.on_iff rfl).2 (hl h)))
  rw [ldExchange_bad, ptpLdCheck_stays (by simpa [State.ptpState, State.on, State.g, e1, e2] using hl')]
  refine Answers.ofChanges (A := (· ∈ [R.PTS_LD_CNT p])) (ps := [.ptp]) hs (by simp) fun u L C =>
    ⟨?_, ?_, C.sameBut, C.parts⟩
  · exact (State.pport_congr (congrArg Ptp.ports (L.ptp.trans (State.inc_ptp ..)))).trans (State.pport_setPport.trans (if_pos rfl))
  · exact ((L.g (by simp) _).trans (State.g_inc (by decide))).trans (by simp [State.g])


/-! ### Delay_Req and Delay_Resp -/

/-- An exchange is unusable when it is not usable. -/
theorem unusable_eq : ∀ r u a b e : Bool, (r || !u || !a || !b || !e) = !(u && a && b && e && !r) := by decide

section

variable {w : DelayWait} {y : SyncTimes} {x : StampIn} (hs : s.inReset = false) (hr : s.running = true) (hc : s.consumes p m = true)
include hs hr hc

theorem delayReq_kept (hm : msgOk 1 m = true) (hp : s.ptpState p = ptpMaster) :
    Answers (exec (.delayReqRx p m x) s) fun t =>
      t.pport p =
        { s.pport p with dresp := (s.pport p).dresp ++ [(⟨msgSeq m, msgSource m, msgCorr m, s.rxStamp p x⟩ : RespWait)] } ∧
      s.sameBut t [] ∧ s.sameParts t [.ptp] := by
  refine consumedAnswers hr hc hm ?_
  rw [if_pos hp]
  exact setPportAnswers hs fun _ h1 h2 h3 => ⟨h1, h2, h3⟩

theorem delayReq_passed (hm : msgOk 1 m = true) (hp : s.ptpState p ≠ ptpMaster) :
    Answers (exec (.delayReqRx p m x) s) fun t => s.sameBut t [] ∧ s.sameParts t [] := by
  refine consumedAnswers hr hc hm ?_
  exact Answers.still hs (if_neg hp)

section

variable (hm : msgOk 9 m = true) (h4 : 4 ≤ s.ptpState p)
include hm h4

theorem delayResp_none (hd : (s.pport p).dreq = none) : Answers (exec (.delayRespRx p m) s) fun t =>
    t.g (R.PTP_Pn_CNT_ERR p) F.PTP_Pn_CNT_ERR_DISCARDED = min (s.g (R.PTP_Pn_CNT_ERR p) F.PTP_Pn_CNT_ERR_DISCARDED + 1) 65535 ∧
    s.sameBut t [R.PTP_Pn_CNT_ERR p] ∧ s.sameParts t [] := by
  refine consumedAnswers hr hc hm ?_
  simp only [if_pos h4, hd]
  exact discardAnswers hs

variable (hd : (s.pport p).dreq = some w)
include hd

theorem delayResp_other (h : msgRequester m ≠ s.portIdent p ∨ msgSeq m ≠ w.seq) : Answers (exec (.delayRespRx p m) s) fun t =>
    t.g (R.PTP_Pn_CNT_ERR p) F.PTP_Pn_CNT_ERR_DISCARDED = min (s.g (R.PTP_Pn_CNT_ERR p) F.PTP_Pn_CNT_ERR_DISCARDED + 1) 65535 ∧
    s.sameBut t [R.PTP_Pn_CNT_ERR p] ∧ s.sameParts t [] := by
  refine consumedAnswers hr hc hm ?_
  simp only [if_pos h4, hd, if_neg (not_and_or.2 h)]
  exact discardAnswers hs

variable (h1 : msgRequester m = s.portIdent p) (h2 : msgSeq m = w.seq)
include h1 h2

theorem delayResp_noSync (hf : (s.pport p).syncs.find? (fun y => decide (0 < tickDiff (tickOf w.t3.t) (tickOf y.t2.t))) = none) :
    Answers (exec (.delayRespRx p m) s) fun t =>
      t.pport p = { s.pport p with dreq := none } ∧ s.sameBut t [] ∧ s.sameParts t [.ptp] := by
  refine consumedAnswers hr hc hm ?_
  simp only [if_pos h4, hd, if_pos (And.intro h1 h2), hf]
  exact setPportAnswers hs fun _ h1 h2 h3 => ⟨h1, h2, h3⟩

variable (hf : (s.pport p).syncs.find? (fun y => decide (0 < tickDiff (tickOf w.t3.t) (tickOf y.t2.t))) = some y)
include hf

omit hs in
/-- What a matching Delay_Resp does. -/
theorem delayResp_exchange {P : State → Prop} {b : Bool}
    (hb : (y.usable && stampClean y.t2 && stampClean w.t3 && y.breaks == w.breaks && !(s.remoteBad p m)) = !b)
    (h : Answers (done s (((s.setPport p { s.pport p with dreq := none }).ldExchange p y.t1 (tickOf y.t2.t) (tickOf w.t3.t)
      (tickOf (msgTime m) - BitVec.ofNat 64 (enc 64 (msgCorr m))) b).ptpLdCheck p)) P) :
    Answers (exec (.delayRespRx p m) s) P := by
  refine consumedAnswers hr hc hm ?_
  have e : (s.remoteBad p m || !y.usable || !(stampClean y.t2) || !(stampClean w.t3) || y.breaks != w.breaks) = b :=
    (unusable_eq ..).trans (by rw [hb, Bool.not_not])
  simp only [if_pos h4, hd, if_pos (And.intro h1 h2), hf, e]
  exact h

end

end

/-! ### Peer-delay messages -/

section

variable {w : PdelayWait} {t4 : Stamp} {t2 : Tick64} {x : StampIn} (hs : s.inReset = false) (hr : s.running = true)
  (hc : s.consumes p m = true)

/-- A peer-delay exchange that completes is a delay exchange, unusable also by its own stamps. -/
theorem pdelayDone_eq {turn : Tick64} {b : Bool} (hw : w.breaks = s.tsc.breaks) : s.pdelayDone p w t4 turn b =
    ((s.setPport p { s.pport p with pdreq := none }).ldExchange p (tickOf w.t1.t) 0 turn (tickOf t4.t)
      (b || !(stampClean w.t1) || !(stampClean t4))).ptpLdCheck p := by
  unfold State.pdelayDone
  simp only [hw, bne_self_eq_false, Bool.or_false]

include hs hr hc

theorem pdelayReq_kept (hm : msgOk 2 m = true) (h : s.ptpSends p = true) (hp : s.pcfg p F.PTP_Pn_CFG_DELAY_MECH = 1) :
    Answers (exec (.pdelayReqRx p m x) s) fun t =>
      t.pport p =
        { s.pport p with pdresp := (s.pport p).pdresp ++ [(⟨msgSeq m, msgSource m, msgCorr m, s.rxStamp p x⟩ : RespWait)] } ∧
      s.sameBut t [] ∧ s.sameParts t [.ptp] := by
  refine consumedAnswers hr hc hm ?_
  rw [if_pos ⟨h, hp⟩]
  exact setPportAnswers hs fun _ h1 h2 h3 => ⟨h1, h2, h3⟩

theorem pdelayReq_passed (hm : msgOk 2 m = true) (h : s.ptpSends p = false ∨ s.pcfg p F.PTP_Pn_CFG_DELAY_MECH ≠ 1) :
    Answers (exec (.pdelayReqRx p m x) s) fun t => s.sameBut t [] ∧ s.sameParts t [] := by
  refine consumedAnswers hr hc hm (Answers.still hs (if_neg fun ⟨h1, h2⟩ => ?_))
  rcases h with h | h
  · cases h.symm.trans h1
  · exact h h2

theorem pdelayResp_passed (hm : msgOk 3 m = true)
    (h : (s.pport p).pdreq.all (fun w : PdelayWait => decide (msgSeq m ≠ w.seq)) = true) :
    Answers (exec (.pdelayRespRx p m x) s) fun t => s.sameBut t [] ∧ s.sameParts t [] := by
  refine consumedAnswers hr hc hm (Answers.still hs ?_)
  cases hd : (s.pport p).pdreq with
  | none => rfl
  | some w =>
    have hq : msgSeq m ≠ w.seq := by simpa [hd] using h
    exact if_neg fun ⟨_, _, e, _⟩ => hq e

theorem pdelayFollow_passed (hm : msgOk 10 m = true)
    (h : (s.pport p).pdreq.all (fun w : PdelayWait => decide (msgSeq m ≠ w.seq ∨ w.resp = none)) = true) :
    Answers (exec (.pdelayRespFollowUpRx p m) s) fun t => s.sameBut t [] ∧ s.sameParts t [] := by
  refine consumedAnswers hr hc hm (Answers.still hs ?_)
  cases hd : (s.pport p).pdreq with
  | none => rfl
  | some w =>
    have hq : msgSeq m ≠ w.seq ∨ w.resp = none := by simpa only [hd, Option.all_some, decide_eq_true_eq] using h
    cases hw : w.resp with
    | none => simp only [hw]
    | some r =>
      simp only [hw]
      exact if_neg fun ⟨_, _, e⟩ => hq.elim (· e) fun e' => by cases hw.symm.trans e'

variable (hp : s.ptpSends p = true) (h1 : msgRequester m = s.portIdent p) (hd : (s.pport p).pdreq = some w)
  (h2 : msgSeq m = w.seq)
include hp h1 hd h2

omit hs in
/-- What a matching Pdelay_Resp_Follow_Up does. -/
theorem pdelayFollow_exchange {P : State → Prop} {b c : Bool} (hm : msgOk 10 m = true) (hw : w.resp = some (t4, t2, c))
    (hb : (c || s.remoteBad p m || !(stampClean w.t1) || !(stampClean t4)) = b)
    (h : Answers (done s (((s.setPport p { s.pport p with pdreq := none }).ldExchange p (tickOf w.t1.t) 0
      (tickOf (msgTime m) + BitVec.ofNat 64 (enc 64 (msgCorr m)) - t2) (tickOf t4.t) b).ptpLdCheck p)) P) :
    Answers (exec (.pdelayRespFollowUpRx p m) s) P := by
  refine consumedAnswers hr hc hm ?_
  subst hb
  simp only [hd, hw, if_pos (And.intro hp (And.intro h1 h2))]
  rw [pdelayDone_eq rfl]
  exact h

variable (hm : msgOk 3 m = true) (hw : w.resp = none)
include hm hw

theorem pdelayResp_twoStep (ht : msgTwoStep m = true) : Answers (exec (.pdelayRespRx p m x) s) fun t =>
    (t.pport p).pdreq = some
      { w with resp := some (s.rxStamp p x, tickOf (msgTime m) - BitVec.ofNat 64 (enc 64 (msgCorr m)), s.remoteBad p m || w.breaks != s.tsc.breaks), breaks := s.tsc.breaks } ∧
    s.sameBut t [] ∧ s.sameParts t [.ptp] := by
  refine consumedAnswers hr hc hm ?_
  simp only [hd, hw, hp, h1, h2, ht, Option.isNone_none, and_self, if_true]
  exact setPportAnswers hs fun _ h1 h2 h3 => ⟨by rw [h1], h2, h3⟩

omit hs in
/-- What a matching one-step Pdelay_Resp does. -/
theorem pdelayResp_exchange {P : State → Prop} {b : Bool} (ht : msgTwoStep m = false)
    (hb : (s.remoteBad p m || w.breaks != s.tsc.breaks || !(stampClean w.t1) || !(stampClean (s.rxStamp p x))) = b)
    (h : Answers (done s (((s.setPport p { s.pport p with pdreq := none }).ldExchange p (tickOf w.t1.t) 0
      (BitVec.ofNat 64 (enc 64 (msgCorr m))) (tickOf (s.rxStamp p x).t) b).ptpLdCheck p)) P) :
    Answers (exec (.pdelayRespRx p m x) s) P := by
  refine consumedAnswers hr hc hm ?_
  subst hb
  simp only [hd, hw, hp, h1, h2, ht, Option.isNone_none, and_self, if_true, Bool.false_eq_true, if_false]
  rw [pdelayDone_eq rfl]
  exact h

end

/-- Settles O44. A request is kept or passed; a response goes through the model's one delay exchange, bad or good. -/
theorem ptpDelayMessages : Obligations.PtpDelayMessages := by
  unfold Obligations.PtpDelayMessages
  exact ⟨fun _ _ _ _ hs hr hc hm hp => delayReq_kept hs hr hc hm hp,
    fun _ _ _ _ hs hr hc hm h hp => pdelayReq_kept hs hr hc hm h hp,
    fun _ _ _ _ _ hs hr hc hm h4 hd h1 h2 hl hf hb =>
      delayResp_exchange hr hc hm h4 hd h1 h2 hf (b := true) hb (badExchangeAnswers hs hl),
    fun _ _ _ _ _ hs hr hc hm h4 hd h1 h2 hf hb hw hv =>
      delayResp_exchange hr hc hm h4 hd h1 h2 hf (b := false) hb (goodExchangeAnswers hs hw hv fun _ e e' => ⟨by rw [e], e'⟩),
    fun _ _ _ _ hs hr hc hm h4 hd h1 h2 hf => delayResp_noSync hs hr hc hm h4 hd h1 h2 hf,
    fun _ _ _ _ hs hr hc hm h4 hd h => delayResp_other hs hr hc hm h4 hd h,
    fun _ _ _ hs hr hc hm h4 hd => delayResp_none hs hr hc hm h4 hd,
    fun _ _ _ hs hr hc hm h4 => consumedAnswers hr hc hm (Answers.still hs (if_neg (by omega))),
    fun _ _ _ _ hs hr hc hm hp => delayReq_passed hs hr hc hm hp,
    fun _ _ _ _ hs hr hc hm h => pdelayReq_passed hs hr hc hm h,
    fun _ _ _ _ _ hs hr hc hm hp h1 hd h2 hw ht => pdelayResp_twoStep hs hr hc hp h1 hd h2 hm hw ht,
    fun _ _ _ _ _ _ hs hr hc hm hp h1 hd h2 hw hl =>
      pdelayFollow_exchange hr hc hp h1 hd h2 hm hw (by rfl) (badExchangeAnswers hs hl),
    fun _ _ _ _ _ _ hs hr hc hm hp h1 hd h2 hw hb h4 hl hv ht =>
      pdelayFollow_exchange hr hc hp h1 hd h2 hm hw (by simp [hb, ht, h4])
        (goodExchangeAnswers hs hl hv fun _ e e' => ⟨by rw [e], e'⟩),
    fun _ _ _ _ _ hs hr hc hm hp h1 hd h2 hw ht hk hb h4 hl hv h3 =>
      pdelayResp_exchange hr hc hp h1 hd h2 hm hw ht (by simp [hb, h3, h4, hk])
        (goodExchangeAnswers hs hl hv fun _ e e' => ⟨by rw [e], e'⟩),
    fun _ _ _ _ _ hs hr hc hm hp h1 hd h2 hw ht hb hl =>
      pdelayResp_exchange hr hc hp h1 hd h2 hm hw ht (b := true) (by rcases hb with hb | hb | hb <;> simp [hb])
        (badExchangeAnswers hs hl),
    fun _ _ _ _ hs hr hc hm h => pdelayResp_passed hs hr hc hm h,
    fun _ _ _ hs hr hc hm h => pdelayFollow_passed hs hr hc hm h⟩

end Sys2Proof.Machine
end

section

/-! ## Messages that a PTP port sends (R206, R207, R209, R213) -/

set_option Elab.async false

namespace Sys2Proof.Machine

variable {A : Nat → Prop} {ps : List Part} {s t u : State} {p : Fin 24} {m b : List Byte} {ty n k q fl lg : Nat} {v : PtpPort} {c : Int}
  {o : Out} {l : List Out} {x : Ptp} {f : Fld} {i : StampIn}

/-! ### A state whose PTP engine and what has left the block are others -/

/-- The state with its PTP engine being `x` and `l` having left. -/
def State.sent (s : State) (x : Ptp) (l : List Out) : State := { s with ptp := x, out := l }

namespace State

theorem sent_self : s.sent s.ptp s.out = s := rfl

theorem emit_sent : (s.sent x l).emit o = s.sent x (l ++ [o]) := rfl

theorem setPtp_sent {y : Ptp} : (s.sent x l).setPtp y = s.sent y l := rfl

@[simp] theorem reg_sent {a : Nat} : (s.sent x l).reg a = s.reg a := rfl

@[simp] theorem g_sent {a : Nat} : (s.sent x l).g a f = s.g a f := rfl

@[simp] theorem pcfg_sent : (s.sent x l).pcfg n f = s.pcfg n f := rfl

@[simp] theorem message_sent : (s.sent x l).message n ty fl c q lg b = s.message n ty fl c q lg b := rfl

@[simp] theorem ptpFrame_sent : (s.sent x l).ptpFrame n m = s.ptpFrame n m := rfl

@[simp] theorem ptpAt_sent : (s.sent x l).ptpAt n = s.ptpAt n := rfl

@[simp] theorem claimTlv_sent : (s.sent x l).claimTlv n = s.claimTlv n := rfl

@[simp] theorem classSent_sent : (s.sent x l).classSent n = s.classSent n := rfl

@[simp] theorem ptpSends_sent : (s.sent x l).ptpSends n = s.ptpSends n := rfl

@[simp] theorem ptpState_sent : (s.sent x l).ptpState n = s.ptpState n := rfl

/-- The Announce of a port, the frame's own state but for the servo port's Announce and the port's number. -/
theorem announce_sent (ha : ((s.sent x l).pport s.servoPort).ann = (s.pport s.servoPort).ann)
    (hq : (s.sent x l).nextSeq n 11 = s.nextSeq n 11) : (s.sent x l).announce n = s.announce n := by
  have e1 : (s.sent x l).servoPort = s.servoPort := rfl
  have e2 : (s.sent x l).clockId = s.clockId := rfl
  have e3 {a : Nat} {f : Fld} : (s.sent x l).on a f = s.on a f := rfl
  unfold announce
  simp only [e1, e2, e3, ha, hq, g_sent, message_sent, claimTlv_sent, classSent_sent]
  rfl

theorem setPport_sent : (s.sent x l).setPport n v = s.sent { x with ports := Tbl.set PtpPort.reset x.ports n v } l := rfl

theorem sendPtp_sent : (s.sent x l).sendPtp n m = s.sent x (l ++ [.frame n (withFcs (s.ptpFrame n m))]) := rfl

theorem useSeq_sent : (s.sent x l).useSeq n ty =
    s.sent { x with seqs := Tbl.set 0 x.seqs (16 * n + ty) (((s.sent x l).nextSeq n ty + 1) % 65536) } l := rfl

theorem setPport_eq : s.setPport n v = s.sent { s.ptp with ports := Tbl.set PtpPort.reset s.ptp.ports n v } s.out := rfl

theorem sendPtp_eq : s.sendPtp n m = s.sent s.ptp (s.out ++ [.frame n (withFcs (s.ptpFrame n m))]) := rfl

theorem useSeq_eq : s.useSeq n ty =
    s.sent { s.ptp with seqs := Tbl.set 0 s.ptp.seqs (16 * n + ty) ((s.nextSeq n ty + 1) % 65536) } s.out := rfl

@[simp] theorem pport_sent : (s.sent x l).pport n = Tbl.get PtpPort.reset x.ports n := rfl

@[simp] theorem nextSeq_sent : (s.sent x l).nextSeq n ty = Tbl.get 0 x.seqs (16 * n + ty) := rfl

end State

theorem Changes.sent (h : .ptp ∈ ps) : Changes A ps s (s.sent x l) :=
  ⟨fun _ _ _ => rfl, sameParts_iff.2 (by simp [h, State.sent])⟩

/-- What is answered when a message leaves. -/
theorem sentAnswers {P : State → Prop} (hs : s.inReset = false)
    (hP : ∀ t : State, t.ptp = x → l <+: t.out → s.sameBut t [] → s.sameParts t [.ptp] → P t) :
    Answers (done s (s.sent x l)) P :=
  Answers.ofChanges (A := (· ∈ ([] : List Nat))) (ps := [.ptp]) hs (.sent (by simp)) fun u L C =>
    hP u L.ptp L.out C.sameBut C.parts

theorem pport_ofPtp {y : Tbl PtpPort} (h : t.ptp = x) (e : x.ports = Tbl.set PtpPort.reset y n v) : t.pport n = v := by
  rw [State.pport, h, e, Tbl.get_set, if_pos rfl]

theorem nextSeq_ofPtp {y : Tbl Nat} (h : t.ptp = x) (e : x.seqs = Tbl.set 0 y (16 * n + ty) k) : t.nextSeq n ty = k := by
  rw [State.nextSeq, h, e, Tbl.get_set, if_pos rfl]

/-! ### Two-step messages -/

section

variable (hs : s.inReset = false) (hp : s.ptpSends p = true)
include hs hp

theorem announceTx_sends (hm : s.ptpState p = ptpMaster) : Answers (exec (.announceTx p) s) fun t =>
    t.nextSeq p 11 = (s.nextSeq p 11 + 1) % 65536 ∧ s.emits t (.frame p (withFcs (s.ptpFrame p (s.announce p)))) ∧
    s.sameBut t [] ∧ s.sameParts t [.ptp] := by
  show Answers (done s (s.announceTx p)) _
  unfold State.announceTx
  rw [if_pos ⟨hp, hm⟩]
  simp only [State.setPport_eq, State.sendPtp_sent, State.useSeq_sent]
  exact sentAnswers hs fun t h1 h2 h3 h4 => ⟨nextSeq_ofPtp h1 rfl, h2, h3, h4⟩

theorem syncTx_twoStep (hm : s.ptpState p = ptpMaster) (h2 : s.pcfg p F.PTP_Pn_CFG_TWO_STEP = 1) :
    Answers (exec (.syncTx p i) s) fun t =>
      (t.pport p).follow = (s.pport p).follow ++ [(⟨false, s.nextSeq p 0, 0, 0, s.txStamp p i⟩ : FollowWait)] ∧
      t.nextSeq p 0 = (s.nextSeq p 0 + 1) % 65536 ∧
      s.emits t (.frame p (withFcs (s.ptpFrame p (s.message p 0 0x0200 0 (s.nextSeq p 0) (s.g (R.PTP_Pn_INTV p)
        F.PTP_Pn_INTV_LOG_SYNC) (beBytes 10 0))))) ∧
      s.sameBut t [] ∧ s.sameParts t [.ptp] := by
  show Answers (done s (s.syncTx p i)) _
  unfold State.syncTx
  rw [if_pos ⟨hp, hm⟩]
  simp only [State.useSeq_eq, State.pcfg_sent, h2, if_true, State.message_sent, State.g_sent, State.sendPtp_sent,
    State.setPport_sent]
  exact sentAnswers hs fun t h1 h2 h3 h4 => ⟨congrArg PtpPort.follow (pport_ofPtp h1 rfl), nextSeq_ofPtp h1 rfl, h2, h3, h4⟩

theorem followTx_sync {w : FollowWait} {r : List FollowWait} (hf : (s.pport p).follow = w :: r) (hd : w.pdelay = false) :
    Answers (exec (.followUpTx p) s) fun t =>
      t.pport p = { s.pport p with follow := r } ∧
      s.emits t (.frame p (withFcs (s.ptpFrame p (s.message p 8 0 (w.corr + tFrac w.t.t) w.seq (s.g (R.PTP_Pn_INTV p)
        F.PTP_Pn_INTV_LOG_SYNC) (stampBytes w.t.t))))) ∧
      s.sameBut t [] ∧ s.sameParts t [.ptp] := by
  show Answers (done s (s.followTx p)) _
  unfold State.followTx
  simp only [hf, hp, hd, if_true, Bool.false_eq_true, if_false, State.setPport_eq, State.message_sent, State.g_sent,
    State.sendPtp_sent]
  exact sentAnswers hs fun t h1 h2 h3 h4 => ⟨pport_ofPtp h1 rfl, h2, h3, h4⟩

theorem followTx_pdelay {w : FollowWait} {r : List FollowWait} (hf : (s.pport p).follow = w :: r) (hd : w.pdelay = true) :
    Answers (exec (.followUpTx p) s) fun t =>
      t.pport p = { s.pport p with follow := r } ∧
      s.emits t (.frame p (withFcs (s.ptpFrame p (s.message p 10 0 (w.corr + tFrac w.t.t) w.seq 0x7F (stampBytes
        w.t.t ++ beBytes 10 w.ident))))) ∧
      s.sameBut t [] ∧ s.sameParts t [.ptp] := by
  show Answers (done s (s.followTx p)) _
  unfold State.followTx
  simp only [hf, hp, hd, if_true, State.setPport_eq, State.message_sent, State.sendPtp_sent]
  exact sentAnswers hs fun t h1 h2 h3 h4 => ⟨pport_ofPtp h1 rfl, h2, h3, h4⟩

theorem delayRespTx_sends {w : RespWait} {r : List RespWait} (hd : (s.pport p).dresp = w :: r) :
    Answers (exec (.delayRespTx p) s) fun t =>
      t.pport p = { s.pport p with dresp := r } ∧
      s.emits t (.frame p (withFcs (s.ptpFrame p (s.message p 9 0 (w.corr - tFrac w.t.t) w.seq (s.g (R.PTP_Pn_INTV p)
        F.PTP_Pn_INTV_LOG_DELAY) (stampBytes w.t.t ++ beBytes 10 w.ident))))) ∧
      s.sameBut t [] ∧ s.sameParts t [.ptp] := by
  show Answers (done s (s.delayRespTx p)) _
  unfold State.delayRespTx
  simp only [hd, hp, if_true, State.setPport_eq, State.message_sent, State.g_sent, State.sendPtp_sent]
  exact sentAnswers hs fun t h1 h2 h3 h4 => ⟨pport_ofPtp h1 rfl, h2, h3, h4⟩

theorem pdelayRespTx_twoStep {w : RespWait} {r : List RespWait} (hd : (s.pport p).pdresp = w :: r)
    (h2 : s.pcfg p F.PTP_Pn_CFG_TWO_STEP = 1) : Answers (exec (.pdelayRespTx p i) s) fun t =>
      t.pport p =
        { s.pport p with pdresp := r, follow := (s.pport p).follow ++ [(⟨true, w.seq, w.ident, w.corr, s.txStamp p i⟩ : FollowWait)] } ∧
      s.emits t (.frame p (withFcs (s.ptpFrame p (s.message p 3 0x0200 (-(tFrac w.t.t : Int)) w.seq 0x7F (stampBytes
        w.t.t ++ beBytes 10 w.ident))))) ∧
      s.sameBut t [] ∧ s.sameParts t [.ptp] := by
  show Answers (done s (s.pdelayRespTx p i)) _
  unfold State.pdelayRespTx
  simp only [hd, hp, if_true, State.setPport_eq, State.pcfg_sent, h2, State.message_sent, State.sendPtp_sent,
    State.pport_sent, Tbl.get_set]
  exact sentAnswers hs fun t h1 h2 h3 h4 => ⟨pport_ofPtp h1 rfl, h2, h3, h4⟩

theorem delayReqTx_sends (hr : s.pcfg p F.PTP_Pn_CFG_ROLE = 2) (hd : s.pcfg p F.PTP_Pn_CFG_DELAY_MECH = 0) :
    Answers (exec (.delayReqTx p i) s) fun t =>
      (t.pport p).dreq = some (⟨s.nextSeq p 1, s.txStamp p i, s.tsc.breaks⟩ : DelayWait) ∧
      (t.pport p).syncs = (s.pport p).syncs.take 1 ∧ t.nextSeq p 1 = (s.nextSeq p 1 + 1) % 65536 ∧
      s.emits t (.frame p (withFcs (s.ptpFrame p (s.message p 1 0 0 (s.nextSeq p 1) 0x7F (beBytes 10 0))))) ∧
      s.sameBut t [] ∧ s.sameParts t [.ptp] := by
  show Answers (done s (s.delayReqTx p i)) _
  unfold State.delayReqTx
  rw [if_pos ⟨hp, hr, hd⟩]
  simp only [State.sendPtp_eq, State.setPport_sent, State.useSeq_sent]
  exact sentAnswers hs fun t h1 h2 h3 h4 =>
    ⟨congrArg PtpPort.dreq (pport_ofPtp h1 rfl), congrArg PtpPort.syncs (pport_ofPtp h1 rfl), nextSeq_ofPtp h1 rfl, h2, h3, h4⟩

theorem pdelayReqTx_sends (hd : s.pcfg p F.PTP_Pn_CFG_DELAY_MECH = 1) : Answers (exec (.pdelayReqTx p i) s) fun t =>
      (t.pport p).pdreq = some (⟨s.nextSeq p 2, s.txStamp p i, s.tsc.breaks, none⟩ : PdelayWait) ∧
      t.nextSeq p 2 = (s.nextSeq p 2 + 1) % 65536 ∧
      s.emits t (.frame p (withFcs (s.ptpFrame p (s.message p 2 0 0 (s.nextSeq p 2) 0x7F (beBytes 20 0))))) ∧
      s.sameBut t [] ∧ s.sameParts t [.ptp] := by
  show Answers (done s (s.pdelayReqTx p i)) _
  unfold State.pdelayReqTx
  rw [if_pos ⟨hp, hd⟩]
  simp only [State.sendPtp_eq, State.setPport_sent, State.useSeq_sent]
  exact sentAnswers hs fun t h1 h2 h3 h4 =>
    ⟨congrArg PtpPort.pdreq (pport_ofPtp h1 rfl), nextSeq_ofPtp h1 rfl, h2, h3, h4⟩

end

/-! ### One-step messages -/

theorem length_message : (s.message n ty fl c q lg b).length = 34 + b.length := by
  unfold State.message
  simp only [List.length_append, length_beBytes]

theorem length_padTo : (padTo n b).length = max n b.length := by
  unfold padTo
  simp only [List.length_append, List.length_replicate]
  omega

/-- A message of an untagged port, or of a tagged one, with its padding. -/
theorem length_ptpFrame (h : s.pcfg n F.PTP_Pn_CFG_TRANSPORT = 0) :
    (s.ptpFrame n m).length = max 60 (s.ptpAt n + m.length) := by
  unfold State.ptpFrame State.ptpAt
  rw [h, length_padTo]
  split <;> simp only [List.length_append, length_beBytes, List.length_nil, Nat.zero_ne_one, if_false, OfNat.zero_ne_ofNat] <;> omega

theorem ptpAt_ge : 14 ≤ s.ptpAt n := by
  unfold State.ptpAt
  dsimp only
  split <;> omega

@[simp] theorem sharedReg_ONESTEP_CNT (p : Fin 24) : sharedReg (R.PTS_ONESTEP_CNT p) = false := by revert p; decide

/-- What is answered when a served one-step message leaves. -/
theorem oneStepAnswers {P : State → Prop} {op : StepOp} {w : Stamp} (hs : s.inReset = false)
    (h0 : s.pcfg p F.PTP_Pn_CFG_TRANSPORT = 0) (he : s.isSet (R.PTS_CFG p) F.PTS_CFG_ONESTEP_EN)
    (hf : stepFits ⟨op, s.ptpAt p + 8, none⟩ (s.ptpFrame p m).length = true)
    (hP : ∀ t : State, t.ptp = x → s.emits t (.frame p ((stepInsert ⟨op, s.ptpAt p + 8, none⟩ (s.ptpFrame p m) w.t) ++ leBytes 4
        (carryFcs (fcsOf (s.ptpFrame p m)) (s.ptpFrame p m) (stepInsert ⟨op, s.ptpAt p + 8, none⟩ (s.ptpFrame p m) w.t)))) →
      t.g (R.PTS_ONESTEP_CNT p) F.PTS_ONESTEP_CNT_INSERTED =
        min (s.g (R.PTS_ONESTEP_CNT p) F.PTS_ONESTEP_CNT_INSERTED + 1) 65535 →
      s.sameBut t [R.PTS_ONESTEP_CNT p] → s.sameParts t [.ptp] → P t) :
    Answers (done s ((s.sent x s.out).sendOneStep p op w m)) P := by
  have hon : (s.sent x s.out).on (R.PTS_CFG p) F.PTS_CFG_ONESTEP_EN = true := (State.on_iff rfl).2 he
  unfold State.sendOneStep State.serveStep
  simp only [State.pcfg_sent, h0, State.ptpFrame_sent, State.ptpAt_sent, hon, hf, Nat.zero_ne_one, OfNat.zero_ne_ofNat, or_self,
    if_false, Bool.and_self, if_true]
  refine Answers.ofChanges (A := (· ∈ [R.PTS_ONESTEP_CNT p])) (ps := [.ptp]) hs ?_ fun u L C =>
    hP u (L.ptp.trans ?_) (List.IsPrefix.trans ?_ L.out) ?_ C.sameBut C.parts
  · exact Changes.emit_iff.2 ((Changes.inc_iff (by simp)).2 (.sent (by simp)))
  · show ((s.sent x s.out).inc (R.PTS_ONESTEP_CNT p) F.PTS_ONESTEP_CNT_INSERTED).ptp = x
    rw [State.inc_ptp]
    rfl
  · exact List.prefix_rfl
  · exact (L.g (by simp) _).trans (State.g_inc (by decide))

section

variable (hs : s.inReset = false) (hp : s.ptpSends p = true) (h2 : s.pcfg p F.PTP_Pn_CFG_TWO_STEP = 0)
  (h0 : s.pcfg p F.PTP_Pn_CFG_TRANSPORT = 0) (he : s.isSet (R.PTS_CFG p) F.PTS_CFG_ONESTEP_EN)
include hs hp h2 h0 he

theorem syncTx_oneStep (hm : s.ptpState p = ptpMaster) : Answers (exec (.syncTx p i) s) fun t =>
      t.nextSeq p 0 = (s.nextSeq p 0 + 1) % 65536 ∧ (t.pport p).follow = (s.pport p).follow ∧
      s.emits t (.frame p ((stepInsert ⟨.stamp (s.ptpAt p + 34), s.ptpAt p + 8, none⟩ (s.ptpFrame p (s.message p 0 0
        0 (s.nextSeq p 0) (s.g (R.PTP_Pn_INTV p) F.PTP_Pn_INTV_LOG_SYNC) (beBytes 10 0))) (s.txStamp p i).t) ++
        leBytes 4 (carryFcs (fcsOf (s.ptpFrame p (s.message p 0 0 0 (s.nextSeq p 0) (s.g (R.PTP_Pn_INTV p)
        F.PTP_Pn_INTV_LOG_SYNC) (beBytes 10 0)))) (s.ptpFrame p (s.message p 0 0 0 (s.nextSeq p 0) (s.g
        (R.PTP_Pn_INTV p) F.PTP_Pn_INTV_LOG_SYNC) (beBytes 10 0))) (stepInsert ⟨.stamp (s.ptpAt p + 34), s.ptpAt p +
        8, none⟩ (s.ptpFrame p (s.message p 0 0 0 (s.nextSeq p 0) (s.g (R.PTP_Pn_INTV p) F.PTP_Pn_INTV_LOG_SYNC)
        (beBytes 10 0))) (s.txStamp p i).t)))) ∧
      t.g (R.PTS_ONESTEP_CNT p) F.PTS_ONESTEP_CNT_INSERTED = min (s.g (R.PTS_ONESTEP_CNT p)
        F.PTS_ONESTEP_CNT_INSERTED + 1) 65535 ∧
      s.sameBut t [R.PTS_ONESTEP_CNT p] ∧ s.sameParts t [.ptp] := by
  have hge := ptpAt_ge (s := s) (n := p)
  show Answers (done s (s.syncTx p i)) _
  unfold State.syncTx
  rw [if_pos ⟨hp, hm⟩]
  simp only [State.useSeq_eq, State.pcfg_sent, h2, Nat.zero_ne_one, if_false, State.message_sent, State.g_sent, State.ptpAt_sent]
  refine oneStepAnswers hs h0 he ?_ fun t h1 h2 h3 h4 h5 =>
    ⟨nextSeq_ofPtp h1 rfl, by rw [State.pport, h1]; rfl, h2, h3, h4, h5⟩
  simp only [length_ptpFrame h0, length_message, length_beBytes, stepFits, Bool.and_true, Bool.and_eq_true, decide_eq_true_eq]
  omega

theorem pdelayRespTx_oneStep {w : RespWait} {r : List RespWait} (hd : (s.pport p).pdresp = w :: r) :
    Answers (exec (.pdelayRespTx p i) s) fun t =>
      t.pport p = { s.pport p with pdresp := r } ∧
      s.emits t (.frame p ((stepInsert ⟨.residence (tickOf w.t.t), s.ptpAt p + 8, none⟩ (s.ptpFrame p (s.message p 3
        0 w.corr w.seq 0x7F (beBytes 10 0 ++ beBytes 10 w.ident))) (s.txStamp p i).t) ++ leBytes 4 (carryFcs (fcsOf
        (s.ptpFrame p (s.message p 3 0 w.corr w.seq 0x7F (beBytes 10 0 ++ beBytes 10 w.ident)))) (s.ptpFrame p
        (s.message p 3 0 w.corr w.seq 0x7F (beBytes 10 0 ++ beBytes 10 w.ident))) (stepInsert ⟨.residence (tickOf
        w.t.t), s.ptpAt p + 8, none⟩ (s.ptpFrame p (s.message p 3 0 w.corr w.seq 0x7F (beBytes 10 0 ++ beBytes 10
        w.ident))) (s.txStamp p i).t)))) ∧
      t.g (R.PTS_ONESTEP_CNT p) F.PTS_ONESTEP_CNT_INSERTED = min (s.g (R.PTS_ONESTEP_CNT p)
        F.PTS_ONESTEP_CNT_INSERTED + 1) 65535 ∧
      s.sameBut t [R.PTS_ONESTEP_CNT p] ∧ s.sameParts t [.ptp] := by
  have hge := ptpAt_ge (s := s) (n := p)
  show Answers (done s (s.pdelayRespTx p i)) _
  unfold State.pdelayRespTx
  simp only [hd, hp, if_true, State.setPport_eq, State.pcfg_sent, h2, Nat.zero_ne_one, if_false, State.message_sent]
  refine oneStepAnswers hs h0 he ?_ fun t h1 h2 h3 h4 h5 => ⟨pport_ofPtp h1 rfl, h2, h3, h4, h5⟩
  simp only [length_ptpFrame h0, length_message, List.length_append, length_beBytes, stepFits, Bool.true_and, Bool.and_true,
    Bool.and_eq_true, decide_eq_true_eq]
  omega

end

/-! ### Nothing leaves -/

section

variable (hs : s.inReset = false)
include hs

theorem syncTx_stays (h : s.ptpSends p = false ∨ s.ptpState p ≠ ptpMaster) :
    Answers (exec (.syncTx p i) s) fun t => s.sameBut t [] ∧ s.sameParts t [] :=
  Answers.still hs (if_neg fun ⟨h1, h2⟩ => h.elim (fun e => by cases e.symm.trans h1) (· h2))

theorem announceTx_stays (h : s.ptpSends p = false ∨ s.ptpState p ≠ ptpMaster) :
    Answers (exec (.announceTx p) s) fun t => s.sameBut t [] ∧ s.sameParts t [] :=
  Answers.still hs (if_neg fun ⟨h1, h2⟩ => h.elim (fun e => by cases e.symm.trans h1) (· h2))

theorem delayReqTx_stays (h : s.ptpSends p = false ∨ s.pcfg p F.PTP_Pn_CFG_ROLE ≠ 2 ∨ s.pcfg p F.PTP_Pn_CFG_DELAY_MECH ≠ 0) :
    Answers (exec (.delayReqTx p i) s) fun t => s.sameBut t [] ∧ s.sameParts t [] :=
  Answers.still hs (if_neg fun ⟨h1, h2, h3⟩ => by
    rcases h with e | e | e
    · cases e.symm.trans h1
    · exact e h2
    · exact e h3)

theorem pdelayReqTx_stays (h : s.ptpSends p = false ∨ s.pcfg p F.PTP_Pn_CFG_DELAY_MECH ≠ 1) :
    Answers (exec (.pdelayReqTx p i) s) fun t => s.sameBut t [] ∧ s.sameParts t [] :=
  Answers.still hs (if_neg fun ⟨h1, h2⟩ => h.elim (fun e => by cases e.symm.trans h1) (· h2))

theorem followTx_stays (h : s.ptpSends p = false ∨ (s.pport p).follow = []) :
    Answers (exec (.followUpTx p) s) fun t => s.sameBut t [] ∧ s.sameParts t [] := by
  refine Answers.still hs ?_
  unfold State.followTx
  split
  · rfl
  · next e => exact if_neg fun h1 => h.elim (fun k => by cases k.symm.trans h1) fun k => by cases k.symm.trans e

theorem delayRespTx_stays (h : s.ptpSends p = false ∨ (s.pport p).dresp = []) :
    Answers (exec (.delayRespTx p) s) fun t => s.sameBut t [] ∧ s.sameParts t [] := by
  refine Answers.still hs ?_
  unfold State.delayRespTx
  split
  · rfl
  · next e => exact if_neg fun h1 => h.elim (fun k => by cases k.symm.trans h1) fun k => by cases k.symm.trans e

theorem pdelayRespTx_stays (h : s.ptpSends p = false ∨ (s.pport p).pdresp = []) :
    Answers (exec (.pdelayRespTx p i) s) fun t => s.sameBut t [] ∧ s.sameParts t [] := by
  refine Answers.still hs ?_
  unfold State.pdelayRespTx
  split
  · rfl
  · next e => exact if_neg fun h1 => h.elim (fun k => by cases k.symm.trans h1) fun k => by cases k.symm.trans e

end

/-! ### The extra Announces of a claim change (R213) -/

/-- Port `n` sends an extra Announce: a MASTER port whose Announces have not carried the claim. -/
def State.tells (s : State) (n : Nat) : Bool :=
  decide (s.ptpSends n = true ∧ s.ptpState n = ptpMaster ∧ (s.pport n).told ≠ (s.reg R.RUT_CLAIM).toNat)

/-- What one port does at a change of the claim. -/
theorem claimStep_eq : (if (s.pport n).told = (s.reg R.RUT_CLAIM).toNat then s else s.announceTx n) =
    if s.tells n then ((s.setPport n { s.pport n with told := (s.reg R.RUT_CLAIM).toNat }).sendPtp n (s.announce n)).useSeq n 11
    else s := by
  unfold State.tells State.announceTx
  by_cases h1 : (s.pport n).told = (s.reg R.RUT_CLAIM).toNat
  · simp [h1]
  · simp only [h1, if_false, ne_eq, not_false_eq_true, and_true, decide_eq_true_eq]

/-- What the ports of `l` have done. -/
structure Told (l : List Nat) (s : State) (x : Ptp) : Prop where
  ports : ∀ n, Tbl.get PtpPort.reset x.ports n =
    if n ∈ l ∧ s.tells n then { s.pport n with told := (s.reg R.RUT_CLAIM).toNat } else s.pport n
  seqs : ∀ n, Tbl.get 0 x.seqs (16 * n + 11) = if n ∈ l ∧ s.tells n then (s.nextSeq n 11 + 1) % 65536 else s.nextSeq n 11

/-- The Announces that the ports of `l` send. -/
def State.tellings (s : State) (l : List Nat) : List Out :=
  (l.filter s.tells).map fun n => .frame n (withFcs (s.ptpFrame n (s.announce n)))

/-- The ports speak one by one, each once. -/
theorem claimAnnounce_run {l : List Nat} (hn : l.Nodup) : ∃ x, Told l s x ∧
    l.foldl (fun s n => if (s.pport n).told = (s.reg R.RUT_CLAIM).toNat then s else s.announceTx n) s =
      s.sent x (s.out ++ s.tellings l) := by
  induction l using List.reverseRecOn with
  | nil => exact ⟨s.ptp, ⟨fun n => by simp [State.pport], fun n => by simp [State.nextSeq]⟩, by simp [State.tellings, State.sent_self]⟩
  | append_singleton l a ih =>
    obtain ⟨hl, -, ha⟩ := List.nodup_append.1 hn
    have ha : a ∉ l := fun h => ha a h a (by simp) rfl
    obtain ⟨x, T, e⟩ := ih hl
    have hp : Tbl.get PtpPort.reset x.ports a = s.pport a := (T.ports a).trans (if_neg fun h => ha h.1)
    have hq : Tbl.get 0 x.seqs (16 * a + 11) = s.nextSeq a 11 := (T.seqs a).trans (if_neg fun h => ha h.1)
    have ht : ∀ l', (s.sent x l').tells a = s.tells a := fun l' => by
      unfold State.tells
      simp only [State.ptpSends_sent, State.ptpState_sent, State.pport_sent, State.reg_sent, hp]
    have hm : ∀ l', (s.sent x l').announce a = s.announce a := fun l' => by
      refine State.announce_sent ?_ hq
      rw [State.pport_sent, T.ports]
      split <;> rfl
    rw [List.foldl_append, e]
    simp only [List.foldl_cons, List.foldl_nil, claimStep_eq, ht]
    by_cases h : s.tells a
    · refine ⟨{ x with
          ports := Tbl.set PtpPort.reset x.ports a { s.pport a with told := (s.reg R.RUT_CLAIM).toNat },
          seqs := Tbl.set 0 x.seqs (16 * a + 11) ((s.nextSeq a 11 + 1) % 65536) }, ⟨fun n => ?_, fun n => ?_⟩, ?_⟩
      · rw [Tbl.get_set, T.ports]
        by_cases hna : n = a <;> simp [hna, h]
      · rw [Tbl.get_set, T.seqs]
        by_cases hna : n = a
        · simp [hna, h]
        · rw [if_neg (by omega)]
          simp [hna]
      · rw [if_pos h]
        simp only [State.setPport_sent, State.sendPtp_sent, State.useSeq_sent, State.pport_sent, State.nextSeq_sent, State.reg_sent, hp, hq, hm]
        simp [State.tellings, h]
    · refine ⟨x, ⟨fun n => ?_, fun n => ?_⟩, ?_⟩
      · rw [T.ports]
        by_cases hna : n = a <;> simp [hna, h]
      · rw [T.seqs]
        by_cases hna : n = a <;> simp [hna, h]
      · rw [if_neg h]
        simp [State.tellings, h]

/-- What is answered at a change of the claim. -/
theorem claimAnnounceAnswers {P : State → Prop} (hs : s.inReset = false)
    (hP : ∀ t : State, Told (List.range 24) s t.ptp → s.out ++ s.tellings (List.range 24) <+: t.out → s.sameBut t [] →
      s.sameParts t [.ptp] → P t) : Answers (exec .claimAnnounce s) P := by
  obtain ⟨x, T, e⟩ := claimAnnounce_run (s := s) List.nodup_range
  show Answers (done s s.claimAnnounce) P
  unfold State.claimAnnounce
  rw [e]
  exact sentAnswers hs fun t h1 h2 h3 h4 => hP t (h1 ▸ T) h2 h3 h4

theorem claimAnnounce_all (hs : s.inReset = false) : Answers (exec (.claimAnnounce) s) fun t =>
      (∀ n : Fin 24, t.nextSeq n 11 = (if decide (s.ptpSends n = true ∧ s.ptpState n = ptpMaster ∧ (s.pport n).told ≠
        (s.reg R.RUT_CLAIM).toNat) = true then (s.nextSeq n 11 + 1) % 65536 else s.nextSeq n 11)) ∧
      (∀ n : Fin 24, (t.pport n).told = (if decide (s.ptpSends n = true ∧ s.ptpState n = ptpMaster ∧ (s.pport n).told
        ≠ (s.reg R.RUT_CLAIM).toNat) = true then (s.reg R.RUT_CLAIM).toNat else (s.pport n).told)) ∧
      s.out ++ ((List.range 24).filter (fun n : Nat => decide (s.ptpSends n = true ∧ s.ptpState n = ptpMaster ∧
        (s.pport n).told ≠ (s.reg R.RUT_CLAIM).toNat))).map (fun n : Nat => Out.frame n (withFcs (s.ptpFrame n
        (s.announce n)))) <+: t.out ∧
      s.sameBut t [] ∧ s.sameParts t [.ptp] := by
  refine claimAnnounceAnswers hs fun t T h2 h3 h4 => ⟨fun n => ?_, fun n => ?_, h2, h3, h4⟩
  · refine (T.seqs n).trans ?_
    simp [State.tells]
  · refine (congrArg PtpPort.told (T.ports n)).trans ?_
    simp only [List.mem_range, n.isLt, true_and, apply_ite PtpPort.told]
    rfl

theorem claimAnnounce_one (hs : s.inReset = false) (hp : s.ptpSends 3 = true) (hm : s.ptpState 3 = ptpMaster)
    (ht : (s.pport 3).told ≠ (s.reg R.RUT_CLAIM).toNat) (ho : ∀ n : Fin 24, n ≠ 3 → s.ptpState n ≠ ptpMaster) :
    Answers (exec (.claimAnnounce) s) fun t =>
      t.nextSeq 3 11 = (s.nextSeq 3 11 + 1) % 65536 ∧ s.emits t (.frame 3 (withFcs (s.ptpFrame 3 (s.announce 3)))) ∧
      s.sameBut t [] ∧ s.sameParts t [.ptp] := by
  have h3 : s.tells 3 = true := decide_eq_true ⟨hp, hm, ht⟩
  have hl : s.tellings (List.range 24) = [.frame 3 (withFcs (s.ptpFrame 3 (s.announce 3)))] := by
    have hf : (List.range 24).filter s.tells = [3] := by
      have hd : ∀ n ∈ List.range 24, s.tells n = decide (n = 3) := fun n hn => by
        by_cases e : n = 3
        · rw [e, h3]
          rfl
        · rw [decide_eq_false e]
          exact decide_eq_false fun h => ho ⟨n, List.mem_range.1 hn⟩ (fun k => e (congrArg Fin.val k)) h.2.1
      rw [List.filter_congr hd]
      decide
    rw [State.tellings, hf]
    rfl
  refine claimAnnounceAnswers hs fun t T h2 h3' h4 => ⟨?_, by rwa [hl] at h2, h3', h4⟩
  exact (T.seqs 3).trans (if_pos ⟨by decide, h3⟩)

/-- Settles O45. Each message leaves the state as it was but for its port, its sequence number and what has left; the
ports that tell a new claim speak one by one, by induction on them. -/
theorem ptpSending : Obligations.PtpSending := by
  unfold Obligations.PtpSending
  exact ⟨fun _ _ _ hs hp hm h2 => syncTx_twoStep hs hp hm h2,
    fun _ _ _ hs hp hm h2 h0 he => syncTx_oneStep hs hp h2 h0 he hm,
    fun _ _ hs hp hm => announceTx_sends hs hp hm,
    fun _ hs hp hm ht ho => claimAnnounce_one hs hp hm ht ho,
    fun _ _ _ _ hs hp hf hd => followTx_sync hs hp hf hd,
    fun _ _ _ _ hs hp hf hd => followTx_pdelay hs hp hf hd,
    fun _ _ _ _ hs hp hd => delayRespTx_sends hs hp hd,
    fun _ _ _ _ _ hs hp hd h2 => pdelayRespTx_twoStep hs hp hd h2,
    fun _ _ _ hs hp hr hd => delayReqTx_sends hs hp hr hd,
    fun _ _ _ hs hp hd => pdelayReqTx_sends hs hp hd,
    fun _ hs => claimAnnounce_all hs,
    fun _ _ _ _ _ hs hp hd h2 h0 he => pdelayRespTx_oneStep hs hp h2 h0 he hd,
    fun _ _ _ hs h => syncTx_stays hs h, fun _ _ hs h => announceTx_stays hs h,
    fun _ _ _ hs h => delayReqTx_stays hs h, fun _ _ _ hs h => pdelayReqTx_stays hs h,
    fun _ _ hs h => followTx_stays hs h, fun _ _ hs h => delayRespTx_stays hs h,
    fun _ _ _ hs h => pdelayRespTx_stays hs h⟩

end Sys2Proof.Machine
end

section

/-! ## Announces and their timeout (R205, R208, R214) -/

set_option Elab.async false

namespace Sys2Proof.Machine

variable {A : Nat → Prop} {ps : List Part} {s t u : State} {p : Fin 24} {m b : List Byte} {n k : Nat} {tlv : Option (List Byte)} {f : Fld}

/-! ### What an accepted Announce leaves -/

/-- The claim of a valid TLV: PAIRED, TIGHT and the pair's number. -/
def claimOf (b : List Byte) : Bool × Bool × Nat := (maskBit (beAt b 14 1) 7, maskBit (beAt b 14 1) 6, beAt b 12 2)

/-- The high half of the parent's identity. -/
theorem parentHi : 394272 + 64 * n + 4 = 394276 + 64 * n := by omega

theorem recordAnnounce_pport :
    (s.recordAnnounce n m tlv).pport n = { s.pport n with ann := m, claim := tlv.map claimOf } := by
  have h (x y : State) (v : PtpPort) (e : x.ptp = (y.setPport n v).ptp) : x.pport n = v :=
    (State.pport_congr (congrArg Ptp.ports e)).trans (State.pport_setPport.trans (if_pos rfl))
  unfold State.recordAnnounce
  cases tlv with
  | none => exact h _ _ _ (State.pb_ptp ..)
  | some b => exact h _ _ _ ((State.setRegN_ptp ..).trans (State.pb_ptp ..))

theorem recordAnnounce_parentOf : (s.recordAnnounce n m tlv).parentOf n = msgSource m := by
  have hm : msgSource m < 256 ^ 10 := beAt_lt
  unfold State.recordAnnounce State.parentOf State.pair State.g
  cases tlv <;>
  · simp [R.PTP_Pn_PARENT_LO, R.PTP_Pn_PARENT_PORT, R.PTP_Pn_STATUS, R.PTP_Pn_CLAIM, Fld.get, parentHi]
    omega

theorem recordAnnounce_ptpState : (s.recordAnnounce n m tlv).ptpState n = s.ptpState n := by
  unfold State.recordAnnounce State.ptpState State.g
  cases tlv <;>
  simp [R.PTP_Pn_PARENT_LO, R.PTP_Pn_PARENT_PORT, R.PTP_Pn_STATUS, R.PTP_Pn_CLAIM, Fld.get_put_ne, parentHi]

theorem recordAnnounce_claim : (s.recordAnnounce n m (some b)).reg (R.PTP_Pn_CLAIM n) = BitVec.ofNat 32 (beAt b 8 4) ∧
    (s.recordAnnounce n m (some b)).g (R.PTP_Pn_STATUS n) F.PTP_Pn_STATUS_CLAIM_VALID = 1 := by
  unfold State.recordAnnounce State.g
  simp [R.PTP_Pn_STATUS, R.PTP_Pn_CLAIM, Fld.get_put, b2n]

/-- The registers of a change of a port's state. -/
def portSpan (a : Nat) : Prop :=
  ∃ r ∈ [(0x60000, 0x60A00), (R.REF_CANDk_STATUS 29, R.REF_CANDk_STATUS 29 + 4)], r.1 ≤ a ∧ a < r.2

theorem portSpan_port (h1 : 0x60000 ≤ k) (h2 : k < 0x60A00) : portSpan k := ⟨(0x60000, 0x60A00), by simp, h1, h2⟩

/-- A register of a port. -/
theorem portSpan_ofPort (h1 : 0x60400 ≤ k) (h2 : k < 0x60440) (p : Fin 24) : portSpan (k + 0x40 * p) :=
  portSpan_port (by omega) (by omega)

@[simp] theorem portSpan_STATUS (p : Fin 24) : portSpan (R.PTP_Pn_STATUS p) := portSpan_ofPort (by decide) (by decide) p

@[simp] theorem portSpan_CLAIM (p : Fin 24) : portSpan (R.PTP_Pn_CLAIM p) := portSpan_ofPort (by decide) (by decide) p

@[simp] theorem portSpan_PARENT_LO (p : Fin 24) : portSpan (R.PTP_Pn_PARENT_LO p) := portSpan_ofPort (by decide) (by decide) p

@[simp] theorem portSpan_PARENT_PORT (p : Fin 24) : portSpan (R.PTP_Pn_PARENT_PORT p) := portSpan_ofPort (by decide) (by decide) p

@[simp] theorem portSpan_CNT_MSG (p : Fin 24) : portSpan (R.PTP_Pn_CNT_MSG p) := portSpan_ofPort (by decide) (by decide) p

@[simp] theorem portSpan_CNT_ERR (p : Fin 24) : portSpan (R.PTP_Pn_CNT_ERR p) := portSpan_ofPort (by decide) (by decide) p

@[simp] theorem portSpan_PARENT_HI (p : Fin 24) : portSpan (R.PTP_Pn_PARENT_LO p + 4) :=
  portSpan_port (by simp only [R.PTP_Pn_PARENT_LO]; omega) (by simp only [R.PTP_Pn_PARENT_LO]; omega)

theorem Changes.recordAnnounce : Changes portSpan [.ptp, .ref] s (s.recordAnnounce p m tlv) := by
  unfold State.recordAnnounce
  cases tlv <;> simp

/-- Settling a port changes nothing beyond. -/
theorem Settles.changes (h : Settles s t) : Changes portSpan [.ptp, .ref] s t :=
  h.frame portSpan _ (fun _ => portSpan_port) ⟨_, List.mem_cons_of_mem _ (List.mem_singleton_self _), Nat.le_refl _, Nat.lt_add_of_pos_right (by decide)⟩
    (by simp) (by simp)

/-! What settling leaves of a port. -/

theorem Settles.ptpState (h : Settles s t) (p : Fin 24) : t.ptpState p = s.ptpState p := h.fields p p.isLt _ (by decide)

theorem Settles.claimValid (h : Settles s t) (p : Fin 24) :
    t.g (R.PTP_Pn_STATUS p) F.PTP_Pn_STATUS_CLAIM_VALID = s.g (R.PTP_Pn_STATUS p) F.PTP_Pn_STATUS_CLAIM_VALID :=
  h.fields p p.isLt _ (by decide)

theorem Settles.pport (h : Settles s t) : t.pport n = s.pport n := State.pport_congr h.ports

theorem Settles.isSet (h : Settles s t) (hf : f.lo < 32) (hw : f.w = 1) (hs : s.isSet (R.PTP_Pn_RAW p) f) : t.isSet (R.PTP_Pn_RAW p) f :=
  (h.bits p p.isLt).isSet hf hw hs

/-- The registers of a port that settling leaves. -/
theorem settleReg_other {o : Nat} (h : o < 0x40) (h4 : o % 4 = 0) (h1 : o ≠ 0x14) (h2 : o ≠ 0x18) (p : Fin 24) : ¬ settleReg (0x60400 + o + 0x40 * p) := by
  simp only [settleReg, R.PTP_STATUS, R.PTP_UTC, R.PTP_RAW, R.REF_RAW, R.HIF_FQ_STATUS, R.HIF_RAW, R.REF_CANDk_STATUS, R.PTP_Pn_STATUS,
    R.PTP_Pn_RAW]
  rintro (e | e | e | e | e | e | e | e | ⟨k, hk, e | e⟩) <;> omega

theorem Settles.claimReg (h : Settles s t) (p : Fin 24) : t.reg (R.PTP_Pn_CLAIM p) = s.reg (R.PTP_Pn_CLAIM p) :=
  h.regs _ (settleReg_other (o := 0x2C) (by decide) (by decide) (by decide) (by decide) p)

theorem Settles.parentOf (h : Settles s t) (p : Fin 24) : t.parentOf p = s.parentOf p := by
  have e1 := h.regs _ (settleReg_other (o := 0x20) (by decide) (by decide) (by decide) (by decide) p)
  have e2 := h.regs _ (settleReg_other (o := 0x24) (by decide) (by decide) (by decide) (by decide) p)
  have e3 := h.regs _ (settleReg_other (o := 0x28) (by decide) (by decide) (by decide) (by decide) p)
  have e4 : R.PTP_Pn_PARENT_LO p + 4 = 0x60400 + 0x24 + 0x40 * p := by simp only [R.PTP_Pn_PARENT_LO]; omega
  unfold State.parentOf State.pair State.g
  rw [e4, e2, show t.reg (R.PTP_Pn_PARENT_LO p) = _ from e1, show t.reg (R.PTP_Pn_PARENT_PORT p) = _ from e3]

theorem Settles.errCount (h : Settles s t) (p : Fin 24) : t.reg (R.PTP_Pn_CNT_ERR p) = s.reg (R.PTP_Pn_CNT_ERR p) :=
  h.regs _ (settleReg_other (o := 0x34) (by decide) (by decide) (by decide) (by decide) p)

/-! ### A port enters a state -/

/-- Port `n` is in state `st`, with the event `f`. -/
def State.entered (s : State) (n st : Nat) (f : Fld) : State := (s.setPtpState n st).raw (R.PTP_Pn_RAW n) f

section

variable {st : Nat}

theorem entered_ptpState (h : st < 8) : (s.entered n st f).ptpState n = st := by
  have hne : R.PTP_Pn_STATUS n ≠ R.PTP_Pn_RAW n := by simp only [R.PTP_Pn_STATUS, R.PTP_Pn_RAW]; omega
  unfold State.entered State.ptpState State.g State.setPtpState
  rw [State.reg_raw, if_neg hne, State.reg_p, if_pos rfl, Fld.get_put (by decide)]
  exact Nat.mod_eq_of_lt h

theorem entered_reg {a : Nat} (h1 : a ≠ R.PTP_Pn_STATUS n) (h2 : a ≠ R.PTP_Pn_RAW n) : (s.entered n st f).reg a = s.reg a := by
  unfold State.entered State.setPtpState
  rw [State.reg_raw, if_neg h2, State.reg_p, if_neg h1]

theorem entered_parentOf : (s.entered n st f).parentOf n = s.parentOf n := by
  unfold State.parentOf State.pair State.g
  rw [entered_reg, entered_reg, entered_reg]
  all_goals simp only [R.PTP_Pn_STATUS, R.PTP_Pn_RAW, R.PTP_Pn_PARENT_LO, R.PTP_Pn_PARENT_PORT]
  all_goals omega

theorem entered_ptp : (s.entered n st f).ptp = s.ptp := (State.raw_ptp ..).trans (State.p_ptp ..)

theorem entered_pport : (s.entered n st f).pport n = s.pport n := State.pport_congr (congrArg Ptp.ports entered_ptp)

theorem entered_claimValid :
    (s.entered n st f).g (R.PTP_Pn_STATUS n) F.PTP_Pn_STATUS_CLAIM_VALID = s.g (R.PTP_Pn_STATUS n) F.PTP_Pn_STATUS_CLAIM_VALID := by
  have hne : R.PTP_Pn_STATUS n ≠ R.PTP_Pn_RAW n := by simp only [R.PTP_Pn_STATUS, R.PTP_Pn_RAW]; omega
  unfold State.entered State.setPtpState State.g
  rw [State.reg_raw, if_neg hne, State.reg_p, if_pos rfl, Fld.get_put_ne (by decide) (by decide)]

theorem entered_claimReg : (s.entered n st f).reg (R.PTP_Pn_CLAIM n) = s.reg (R.PTP_Pn_CLAIM n) := by
  refine entered_reg ?_ ?_
  all_goals simp only [R.PTP_Pn_STATUS, R.PTP_Pn_RAW, R.PTP_Pn_CLAIM]
  all_goals omega

theorem Changes.entered : Changes portSpan [.ptp, .ref] s (s.entered p st f) := by
  unfold State.entered State.setPtpState
  exact (Changes.raw_iff (rawBlock_PTP_Pn_RAW p)).2 ((Changes.p_iff (portSpan_STATUS p)).2 .refl)

end

/-! ### An Announce is accepted -/

theorem acceptAnnounce_listens (h : s.ptpState p = ptpListening) :
    Settles ((s.recordAnnounce p m tlv).entered p ptpUncal F.PTP_Pn_RAW_ANN_ACCEPT) (s.acceptAnnounce p m tlv) := by
  unfold State.acceptAnnounce
  simp only [h, if_true]
  exact Settles.showUtc.trans (.ptpSettle p.isLt)

/-- The record of a port that follows another sender. -/
def PtpPort.moved (v : PtpPort) : PtpPort := { v with wait := none, syncs := [], dreq := none, last := none }

theorem acceptAnnounce_moves (h : s.ptpState p = ptpUncal ∨ s.ptpState p = ptpSlave) (ho : s.parentOf p ≠ msgSource m) :
    Settles (((s.recordAnnounce p m tlv).setPport p ((s.recordAnnounce p m tlv).pport p).moved).entered p ptpUncal
      F.PTP_Pn_RAW_PARENT_CHANGE) (s.acceptAnnounce p m tlv) := by
  have hl : s.ptpState p ≠ ptpListening := by rcases h with h | h <;> rw [h] <;> decide
  unfold State.acceptAnnounce
  simp only [hl, h, ho, if_false, ne_eq, not_false_eq_true, decide_true, and_self, if_true]
  split
  · exact Settles.chooseServo.trans (Settles.showUtc.trans (.ptpSettle p.isLt))
  · exact Settles.showUtc.trans (.ptpSettle p.isLt)

theorem acceptAnnounce_stays (hl : s.ptpState p ≠ ptpListening)
    (h : ¬ ((s.ptpState p = ptpUncal ∨ s.ptpState p = ptpSlave) ∧ s.parentOf p ≠ msgSource m)) :
    Settles (s.recordAnnounce p m tlv) (s.acceptAnnounce p m tlv) := by
  unfold State.acceptAnnounce
  simp only [hl, if_false, decide_eq_true_eq, if_neg h]
  exact Settles.showUtc.trans (.ptpSettle p.isLt)

/-- What every accepted Announce leaves. -/
structure Accepts (p : Fin 24) (m : List Byte) (tlv : Option (List Byte)) (r t : State) : Prop where
  parent : t.parentOf p = msgSource m
  ann : (t.pport p).ann = m
  claim : (t.pport p).claim = tlv.map claimOf
  reg : t.reg (R.PTP_Pn_CLAIM p) = r.reg (R.PTP_Pn_CLAIM p)
  valid : t.g (R.PTP_Pn_STATUS p) F.PTP_Pn_STATUS_CLAIM_VALID = r.g (R.PTP_Pn_STATUS p) F.PTP_Pn_STATUS_CLAIM_VALID
  changes : Changes portSpan [.ptp, .ref] r t

theorem Accepts.settles (h : Accepts p m tlv s t) (S : Settles t u) : Accepts p m tlv s u where
  parent := (S.parentOf p).trans h.parent
  ann := (congrArg PtpPort.ann S.pport).trans h.ann
  claim := (congrArg PtpPort.claim S.pport).trans h.claim
  reg := (S.claimReg p).trans h.reg
  valid := (S.claimValid p).trans h.valid
  changes := h.changes.trans S.changes

theorem Accepts.enters {st : Nat} (h : Accepts p m tlv s t) : Accepts p m tlv s (t.entered p st f) where
  parent := entered_parentOf.trans h.parent
  ann := (congrArg PtpPort.ann entered_pport).trans h.ann
  claim := (congrArg PtpPort.claim entered_pport).trans h.claim
  reg := entered_claimReg.trans h.reg
  valid := entered_claimValid.trans h.valid
  changes := h.changes.trans .entered

theorem accepts_recordAnnounce : Accepts p m tlv (s.recordAnnounce p m tlv) (s.recordAnnounce p m tlv) :=
  ⟨recordAnnounce_parentOf, congrArg PtpPort.ann recordAnnounce_pport, congrArg PtpPort.claim recordAnnounce_pport, rfl, rfl, .refl⟩

theorem Accepts.moves (h : Accepts p m tlv s t) : Accepts p m tlv s (t.setPport p (t.pport p).moved) := by
  have e : (t.setPport p (t.pport p).moved).pport p = (t.pport p).moved := State.pport_setPport.trans (if_pos rfl)
  exact ⟨h.parent, (congrArg PtpPort.ann e).trans h.ann, (congrArg PtpPort.claim e).trans h.claim, h.reg, h.valid,
    (Changes.setPport_iff (by simp)).2 h.changes⟩

theorem acceptAnnounce_accepts : Accepts p m tlv (s.recordAnnounce p m tlv) (s.acceptAnnounce p m tlv) := by
  by_cases hl : s.ptpState p = ptpListening
  · exact accepts_recordAnnounce.enters.settles (acceptAnnounce_listens hl)
  · by_cases h : (s.ptpState p = ptpUncal ∨ s.ptpState p = ptpSlave) ∧ s.parentOf p ≠ msgSource m
    · exact accepts_recordAnnounce.moves.enters.settles (acceptAnnounce_moves h.1 h.2)
    · exact accepts_recordAnnounce.settles (acceptAnnounce_stays hl h)

theorem Changes.acceptAnnounce : Changes portSpan [.ptp, .ref] s (s.acceptAnnounce p m tlv) :=
  Changes.recordAnnounce.trans acceptAnnounce_accepts.changes

end Sys2Proof.Machine
end

section

/-! ## What a received Announce answers (R205, R207, R208, R214) -/

set_option Elab.async false

namespace Sys2Proof.Machine

variable {s t u : State} {p : Fin 24} {m b : List Byte} {n a : Nat} {f : Fld}

@[simp] theorem sharedReg_PTP_Pn_PARENT (p : Fin 24) : sharedReg (R.PTP_Pn_PARENT_LO p) = false ∧
    sharedReg (R.PTP_Pn_PARENT_LO p + 4) = false ∧ sharedReg (R.PTP_Pn_PARENT_PORT p) = false := by revert p; decide
@[simp] theorem sharedReg_PTP_Pn_CLAIM (p : Fin 24) : sharedReg (R.PTP_Pn_CLAIM p) = false := by revert p; decide
@[simp] theorem sharedReg_PTP_Pn_CNT_MSG (p : Fin 24) : sharedReg (R.PTP_Pn_CNT_MSG p) = false := by revert p; decide

theorem Logs.parentOf (L : Logs s t) (p : Fin 24) : t.parentOf p = s.parentOf p := by
  obtain ⟨h1, h2, h3⟩ := sharedReg_PTP_Pn_PARENT p
  unfold State.parentOf
  rw [L.pair h1 h2, L.g h3]

theorem Logs.ptpState (L : Logs s t) (p : Fin 24) : t.ptpState p = s.ptpState p := L.g (sharedReg_PTP_Pn_STATUS p) _

theorem Logs.pport (L : Logs s t) : t.pport n = s.pport n := State.pport_congr (congrArg Ptp.ports L.ptp)

theorem Logs.portSet (L : Logs s t) (hf : f.lo < 32) (hw : f.w = 1) (h : s.isSet (R.PTP_Pn_RAW p) f) : t.isSet (R.PTP_Pn_RAW p) f :=
  L.isSet (rawBlock_PTP_Pn_RAW p) hf hw h

/-! ### Rejected claims -/

theorem claimBad_reg (h1 : a ≠ R.PTP_Pn_CNT_ERR n) (h2 : a ≠ R.PTP_Pn_RAW n) : (s.claimBad n).reg a = s.reg a := by
  unfold State.claimBad
  rw [State.reg_raw, if_neg h2, State.reg_inc, if_neg h1]

theorem claimBad_announceOk : (s.claimBad n).announceOk n m = s.announceOk n m := by
  have h (a : Nat) (h : a < 0x60410 + 0x40 * n + 1) (h' : a % 4 = 0) : (s.claimBad n).reg a = s.reg a :=
    claimBad_reg (by simp only [R.PTP_Pn_CNT_ERR]; omega) (by simp only [R.PTP_Pn_RAW]; omega)
  unfold State.announceOk State.clockId State.pair State.on State.g
  rw [h R.PTP_CLOCK_ID_LO, h (R.PTP_CLOCK_ID_LO + 4), h R.PTP_ACCEPT, h (R.PTP_Pn_MASTER_PORT n), h (R.PTP_Pn_MASTER_LO n),
    h (R.PTP_Pn_MASTER_LO n + 4)]
  all_goals simp only [R.PTP_CLOCK_ID_LO, R.PTP_ACCEPT, R.PTP_Pn_MASTER_PORT, R.PTP_Pn_MASTER_LO]
  all_goals omega

theorem Changes.claimBad : Changes portSpan [.ptp, .ref] s (s.claimBad p) :=
  (Changes.raw_iff (rawBlock_PTP_Pn_RAW p)).2 ((Changes.inc_iff (portSpan_CNT_ERR p)).2 .refl)

/-- An acceptable Announce is accepted whether or not its claim is of another pair. -/
theorem claimedAnswers {P : State → Prop} {q : Bool} {tlv : Option (List Byte)} {z : State} (hs : s.inReset = false)
    (ho : s.announceOk p m = true)
    (hP : ∀ x u, Logs (State.acceptAnnounce x p m tlv) u → Changes portSpan [.ptp, .ref] s u → P u) :
    Answers (done s (if (if q then s.claimBad p else s).announceOk p m then (if q then s.claimBad p else s).acceptAnnounce p m tlv
      else z)) P := by
  have h : (if q then s.claimBad p else s).announceOk p m = true := by
    split
    · exact claimBad_announceOk.trans ho
    · exact ho
  rw [if_pos h]
  refine Answers.ofChanges hs (.trans ?_ Changes.acceptAnnounce) fun u L C => hP _ u L C
  split
  · exact .claimBad
  · exact .refl

/-! ### The answers -/

section

variable {P : State → Prop} (hs : s.inReset = false) (hr : s.running = true) (hc : s.consumes p m = true) (hm : msgOk 11 m = true)
include hs hr hc hm

theorem announceRx_foreign (h : s.ptpState p = ptpMaster) : Answers (exec (.announceRx p m) s) fun t =>
    t.isSet (R.PTP_Pn_RAW p) F.PTP_Pn_RAW_FOREIGN_MASTER ∧ s.sameBut t [] ∧ s.sameParts t [] := by
  refine consumedAnswers hr hc hm ?_
  simp only [h, if_true]
  exact Answers.ofChanges (A := (· ∈ ([] : List Nat))) (ps := []) hs ((Changes.raw_iff (rawBlock_PTP_Pn_RAW p)).2 .refl) fun u L C =>
    ⟨L.portSet (by decide) rfl (State.isSet_raw (by decide) rfl), C.sameBut, C.parts⟩

theorem announceRx_asleep (h : s.ptpState p < 2) :
    Answers (exec (.announceRx p m) s) fun t => s.sameBut t [] ∧ s.sameParts t [] := by
  refine consumedAnswers hr hc hm (Answers.still hs ?_)
  have h1 : s.ptpState p ≠ ptpMaster := by show _ ≠ 2; omega
  simp only [h1, if_false, if_pos (show s.ptpState p < 3 by omega)]

variable (h3 : 3 ≤ s.ptpState p)
include h3

/-- An Announce without a claim TLV is accepted. -/
theorem announceRx_accepts (hl : s.claimTlvs m = []) (ho : s.announceOk p m = true)
    (hP : ∀ u, Logs (s.acceptAnnounce p m none) u →
      s.sameBeyond u [(0x60000, 0x60A00), (R.REF_CANDk_STATUS 29, R.REF_CANDk_STATUS 29 + 4)] → s.sameParts u [.ptp, .ref] → P u) :
    Answers (exec (.announceRx p m) s) P := by
  refine consumedAnswers hr hc hm ?_
  have h1 : s.ptpState p ≠ ptpMaster := by show _ ≠ 2; omega
  simp only [h1, if_false, if_neg (show ¬ s.ptpState p < 3 by omega), hl, List.filter_nil, List.foldl_nil, List.head?_nil, ho, if_true,
    Bool.false_eq_true]
  exact Answers.ofChanges hs Changes.acceptAnnounce fun u L C => hP u L C.sameBeyond C.parts

/-- An Announce with one valid claim TLV is accepted. -/
theorem announceRx_claims (hl : s.claimTlvs m = [b]) (hb : tlvOk b = true) (ho : s.announceOk p m = true)
    (hP : ∀ x u, Logs (State.acceptAnnounce x p m (some b)) u →
      s.sameBeyond u [(0x60000, 0x60A00), (R.REF_CANDk_STATUS 29, R.REF_CANDk_STATUS 29 + 4)] → s.sameParts u [.ptp, .ref] → P u) :
    Answers (exec (.announceRx p m) s) P := by
  refine consumedAnswers hr hc hm ?_
  have h1 : s.ptpState p ≠ ptpMaster := by show _ ≠ 2; omega
  simp only [h1, if_false, if_neg (show ¬ s.ptpState p < 3 by omega), hl, List.filter_cons, hb, Bool.not_true, Bool.false_eq_true,
    List.filter_nil, List.foldl_nil, List.head?_cons, if_true]
  exact claimedAnswers hs ho fun x u L C => hP x u L C.sameBeyond C.parts

/-- An Announce that fails the checks is counted. -/
theorem announceRx_rejects (hl : s.claimTlvs m = []) (ho : s.announceOk p m = false) : Answers (exec (.announceRx p m) s) fun t =>
    t.g (R.PTP_Pn_CNT_MSG p) F.PTP_Pn_CNT_MSG_ANN_REJECTED = min (s.g (R.PTP_Pn_CNT_MSG p)
      F.PTP_Pn_CNT_MSG_ANN_REJECTED + 1) 65535 ∧
    t.isSet (R.PTP_Pn_RAW p) F.PTP_Pn_RAW_ANN_REJECT ∧ s.sameBut t [R.PTP_Pn_CNT_MSG p] ∧ s.sameParts t [] := by
  refine consumedAnswers hr hc hm ?_
  have h1 : s.ptpState p ≠ ptpMaster := by show _ ≠ 2; omega
  simp only [h1, if_false, if_neg (show ¬ s.ptpState p < 3 by omega), hl, List.filter_nil, List.foldl_nil, List.head?_nil, ho,
    Bool.false_eq_true]
  refine Answers.ofChanges (A := (· ∈ [R.PTP_Pn_CNT_MSG p])) (ps := []) hs
    ((Changes.raw_iff (rawBlock_PTP_Pn_RAW p)).2 ((Changes.inc_iff (by simp)).2 .refl)) fun u L C =>
    ⟨(L.g (by simp) _).trans ?_, L.portSet (by decide) rfl (State.isSet_raw (by decide) rfl), C.sameBut, C.parts⟩
  rw [State.g, State.reg_raw, if_neg (by simp only [R.PTP_Pn_CNT_MSG, R.PTP_Pn_RAW]; omega)]
  exact State.g_inc (by decide)

/-- An Announce that fails the checks, with a bad claim TLV, is counted twice. -/
theorem announceRx_rejectsClaim (ho : s.announceOk p m = false) (hl : s.claimTlvs m = [b]) (hb : tlvOk b = false) :
    Answers (exec (.announceRx p m) s) fun t =>
      t.g (R.PTP_Pn_CNT_ERR p) F.PTP_Pn_CNT_ERR_CLAIM_BAD = min (s.g (R.PTP_Pn_CNT_ERR p) F.PTP_Pn_CNT_ERR_CLAIM_BAD
        + 1) 255 ∧
      t.isSet (R.PTP_Pn_RAW p) F.PTP_Pn_RAW_CLAIM_BAD ∧
      t.g (R.PTP_Pn_CNT_MSG p) F.PTP_Pn_CNT_MSG_ANN_REJECTED = min (s.g (R.PTP_Pn_CNT_MSG p)
        F.PTP_Pn_CNT_MSG_ANN_REJECTED + 1) 65535 ∧
      s.sameBut t [R.PTP_Pn_CNT_MSG p, R.PTP_Pn_CNT_ERR p] ∧ s.sameParts t [] := by
  refine consumedAnswers hr hc hm ?_
  have h1 : s.ptpState p ≠ ptpMaster := by show _ ≠ 2; omega
  have ho' : (s.claimBad p).announceOk p m = false := claimBad_announceOk.trans ho
  simp only [h1, if_false, if_neg (show ¬ s.ptpState p < 3 by omega), hl, List.filter_cons, hb, Bool.not_false, if_true,
    Bool.false_eq_true, List.filter_nil, List.foldl_cons, List.foldl_nil, List.head?_nil, ho']
  refine Answers.ofChanges (A := (· ∈ [R.PTP_Pn_CNT_MSG p, R.PTP_Pn_CNT_ERR p])) (ps := []) hs
    ((Changes.raw_iff (rawBlock_PTP_Pn_RAW p)).2 ((Changes.inc_iff (by simp)).2 ((Changes.raw_iff (rawBlock_PTP_Pn_RAW p)).2
      ((Changes.inc_iff (by simp)).2 .refl)))) fun u L C =>
    ⟨(L.g (by simp) _).trans ?_, L.portSet (by decide) rfl ?_, (L.g (by simp) _).trans ?_, C.sameBut, C.parts⟩
  · refine Eq.trans ?_ (State.g_inc (s := s) (a := R.PTP_Pn_CNT_ERR p) (f := F.PTP_Pn_CNT_ERR_CLAIM_BAD) (by decide))
    unfold State.claimBad State.g
    simp [R.PTP_Pn_CNT_ERR, R.PTP_Pn_CNT_MSG, R.PTP_Pn_RAW]
  · refine KeepsBits.isSet (s := s.claimBad p) ?_ (by decide) rfl (State.isSet_raw (by decide) rfl)
    refine .trans (.ofReg ?_) (.raw (by decide) rfl)
    rw [State.reg_inc, if_neg (by simp only [R.PTP_Pn_RAW, R.PTP_Pn_CNT_MSG]; omega)]
  · rw [State.g, State.reg_raw, if_neg (by simp only [R.PTP_Pn_CNT_MSG, R.PTP_Pn_RAW]; omega)]
    refine (State.g_inc (by decide)).trans ?_
    rw [State.g, claimBad_reg]
    · rfl
    · simp only [R.PTP_Pn_CNT_MSG, R.PTP_Pn_CNT_ERR]; omega
    · simp only [R.PTP_Pn_CNT_MSG, R.PTP_Pn_RAW]; omega

theorem announceRx_shows (ho : s.announceOk p m = true) (hl : s.claimTlvs m = []) : Answers (exec (.announceRx p m) s) fun t =>
    t.parentOf p = msgSource m ∧ (t.pport p).ann = m ∧ (t.pport p).claim = none ∧
    s.sameBeyond t [(0x60000, 0x60A00), (R.REF_CANDk_STATUS 29, R.REF_CANDk_STATUS 29 + 4)] ∧
    s.sameParts t [.ptp, .ref] := by
  refine announceRx_accepts hs hr hc hm h3 hl ho fun u L C1 C2 => ?_
  have H := acceptAnnounce_accepts (s := s) (p := p) (m := m) (tlv := none)
  exact ⟨(L.parentOf p).trans H.parent, (congrArg PtpPort.ann L.pport).trans H.ann, (congrArg PtpPort.claim L.pport).trans H.claim, C1, C2⟩

theorem announceRx_showsClaim (ho : s.announceOk p m = true) (hl : s.claimTlvs m = [b]) (hb : tlvOk b = true) :
    Answers (exec (.announceRx p m) s) fun t =>
      t.parentOf p = msgSource m ∧ (t.pport p).ann = m ∧
      (t.pport p).claim = some (maskBit (beAt b 14 1) 7, maskBit (beAt b 14 1) 6, beAt b 12 2) ∧
      t.reg (R.PTP_Pn_CLAIM p) = BitVec.ofNat 32 (beAt b 8 4) ∧
      t.g (R.PTP_Pn_STATUS p) F.PTP_Pn_STATUS_CLAIM_VALID = 1 ∧
      s.sameBeyond t [(0x60000, 0x60A00), (R.REF_CANDk_STATUS 29, R.REF_CANDk_STATUS 29 + 4)] ∧
      s.sameParts t [.ptp, .ref] := by
  refine announceRx_claims hs hr hc hm h3 hl hb ho fun x u L C1 C2 => ?_
  have H := acceptAnnounce_accepts (s := x) (p := p) (m := m) (tlv := some b)
  have K := recordAnnounce_claim (s := x) (n := p) (m := m) (b := b)
  exact ⟨(L.parentOf p).trans H.parent, (congrArg PtpPort.ann L.pport).trans H.ann, (congrArg PtpPort.claim L.pport).trans H.claim,
    (L.reg _ (sharedReg_PTP_Pn_CLAIM p)).trans (H.reg.trans K.1), (L.g (sharedReg_PTP_Pn_STATUS p) _).trans (H.valid.trans K.2), C1, C2⟩

omit h3

theorem announceRx_listening (h : s.ptpState p = ptpListening) (hl : s.claimTlvs m = []) (ho : s.announceOk p m = true) :
    Answers (exec (.announceRx p m) s) fun t =>
      t.ptpState p = ptpUncal ∧ t.parentOf p = msgSource m ∧ (t.pport p).ann = m ∧
      t.isSet (R.PTP_Pn_RAW p) F.PTP_Pn_RAW_ANN_ACCEPT ∧
      s.sameBeyond t [(0x60000, 0x60A00), (R.REF_CANDk_STATUS 29, R.REF_CANDk_STATUS 29 + 4)] ∧
      s.sameParts t [.ptp, .ref] := by
  refine announceRx_accepts hs hr hc hm (by rw [h]; decide) hl ho fun u L C1 C2 => ?_
  have S := acceptAnnounce_listens (m := m) (tlv := none) h
  have H := acceptAnnounce_accepts (s := s) (p := p) (m := m) (tlv := none)
  exact ⟨(L.ptpState p).trans ((S.ptpState p).trans (entered_ptpState (by decide))), (L.parentOf p).trans H.parent,
    (congrArg PtpPort.ann L.pport).trans H.ann, L.portSet (by decide) rfl (S.isSet (by decide) rfl (State.isSet_raw (by decide) rfl)), C1, C2⟩

theorem announceRx_moves (h : s.ptpState p = ptpUncal ∨ s.ptpState p = ptpSlave) (ho : s.announceOk p m = true)
    (hq : s.parentOf p ≠ msgSource m) (hl : s.claimTlvs m = []) : Answers (exec (.announceRx p m) s) fun t =>
      t.ptpState p = ptpUncal ∧ t.isSet (R.PTP_Pn_RAW p) F.PTP_Pn_RAW_PARENT_CHANGE ∧ (t.pport p).wait = none ∧
      (t.pport p).syncs = [] ∧ (t.pport p).dreq = none ∧ (t.pport p).last = none ∧
      s.sameBeyond t [(0x60000, 0x60A00), (R.REF_CANDk_STATUS 29, R.REF_CANDk_STATUS 29 + 4)] ∧
      s.sameParts t [.ptp, .ref] := by
  refine announceRx_accepts hs hr hc hm (by rcases h with h | h <;> rw [h] <;> decide) hl ho fun u L C1 C2 => ?_
  have S := acceptAnnounce_moves (m := m) (tlv := none) h hq
  have hp : u.pport p = ((s.recordAnnounce p m none).pport p).moved :=
    L.pport.trans (S.pport.trans (entered_pport.trans (State.pport_setPport.trans (if_pos rfl))))
  exact ⟨(L.ptpState p).trans ((S.ptpState p).trans (entered_ptpState (by decide))),
    L.portSet (by decide) rfl (S.isSet (by decide) rfl (State.isSet_raw (by decide) rfl)),
    by rw [hp, PtpPort.moved], by rw [hp, PtpPort.moved], by rw [hp, PtpPort.moved], by rw [hp, PtpPort.moved], C1, C2⟩

theorem announceRx_passive (h : s.ptpState p = ptpPassive) (ho : s.announceOk p m = true) (hl : s.claimTlvs m = []) :
    Answers (exec (.announceRx p m) s) fun t =>
      t.ptpState p = ptpPassive ∧
      s.sameBeyond t [(0x60000, 0x60A00), (R.REF_CANDk_STATUS 29, R.REF_CANDk_STATUS 29 + 4)] ∧
      s.sameParts t [.ptp, .ref] := by
  refine announceRx_accepts hs hr hc hm (by rw [h]) hl ho fun u L C1 C2 => ⟨?_, C1, C2⟩
  have S := acceptAnnounce_stays (m := m) (tlv := none) (p := p) (s := s) (by rw [h]; decide) (by rw [h]; rintro ⟨k | k, -⟩ <;> cases k)
  exact (L.ptpState p).trans ((S.ptpState p).trans (recordAnnounce_ptpState.trans h))

end

/-! ### The timeout -/

theorem clearParent_reg {a : Nat} (h1 : a ≠ R.PTP_Pn_PARENT_LO n) (h2 : a ≠ R.PTP_Pn_PARENT_LO n + 4)
    (h3 : a ≠ R.PTP_Pn_PARENT_PORT n) (h4 : a ≠ R.PTP_Pn_STATUS n) : (s.clearParent n).reg a = s.reg a := by
  unfold State.clearParent
  simp [h1, h2, h3, h4]

theorem clearParent_ptpState : (s.clearParent n).ptpState n = s.ptpState n := by
  unfold State.clearParent State.ptpState State.g
  simp [R.PTP_Pn_PARENT_LO, R.PTP_Pn_PARENT_PORT, R.PTP_Pn_STATUS, Fld.get_put_ne, parentHi]

theorem clearParent_parentOf : (s.clearParent n).parentOf n = 0 := by
  unfold State.clearParent State.parentOf State.pair State.g
  simp [R.PTP_Pn_PARENT_LO, R.PTP_Pn_PARENT_PORT, R.PTP_Pn_STATUS, parentHi, Fld.get]

theorem Changes.clearParent : Changes portSpan [.ptp, .ref] s (s.clearParent p) := by
  unfold State.clearParent
  simp

theorem announceTimeout_answers (hs : s.inReset = false) (h : s.ptpState p = ptpUncal ∨ s.ptpState p = ptpSlave) :
    Answers (exec (.announceTimeout p) s) fun t =>
      t.ptpState p = ptpListening ∧ t.parentOf p = 0 ∧
      t.g (R.PTP_Pn_CNT_ERR p) F.PTP_Pn_CNT_ERR_TIMEOUTS = min (s.g (R.PTP_Pn_CNT_ERR p) F.PTP_Pn_CNT_ERR_TIMEOUTS +
        1) 255 ∧
      t.isSet (R.PTP_Pn_RAW p) F.PTP_Pn_RAW_ANN_TIMEOUT ∧
      s.sameBeyond t [(0x60000, 0x60A00), (R.REF_CANDk_STATUS 29, R.REF_CANDk_STATUS 29 + 4)] ∧
      s.sameParts t [.ptp, .ref] := by
  show Answers (done s (s.announceTimeout p)) _
  unfold State.announceTimeout
  rw [if_pos h]
  extract_lets x y
  have S : Settles (y.raw (R.PTP_Pn_RAW p) F.PTP_Pn_RAW_ANN_TIMEOUT)
    ((y.raw (R.PTP_Pn_RAW p) F.PTP_Pn_RAW_ANN_TIMEOUT).ptpSettle p) := .ptpSettle p.isLt
  have hy (a : Nat) (h1 : a ≠ R.PTP_Pn_CNT_ERR p) (h2 : a ≠ R.PTP_Pn_RAW p) :
      (y.raw (R.PTP_Pn_RAW p) F.PTP_Pn_RAW_ANN_TIMEOUT).reg a = x.reg a := by
    rw [State.reg_raw, if_neg h2, State.reg_inc, if_neg h1]
  have hC : Changes portSpan [.ptp, .ref] s (y.raw (R.PTP_Pn_RAW p) F.PTP_Pn_RAW_ANN_TIMEOUT) :=
    (Changes.raw_iff (rawBlock_PTP_Pn_RAW p)).2 ((Changes.inc_iff (portSpan_CNT_ERR p)).2
      (.trans ((Changes.p_iff (portSpan_STATUS p)).2 .refl) .clearParent))
  refine Answers.ofChanges hs (hC.trans S.changes) fun u L C =>
    ⟨(L.ptpState p).trans ((S.ptpState p).trans ?_), (L.parentOf p).trans ((S.parentOf p).trans ?_),
      (L.g (by simp) _).trans ((congrArg _ (S.errCount p)).trans ?_),
      L.portSet (by decide) rfl (S.isSet (by decide) rfl (State.isSet_raw (by decide) rfl)), C.sameBeyond, C.parts⟩
  · unfold State.ptpState State.g
    rw [hy _ (by simp only [R.PTP_Pn_STATUS, R.PTP_Pn_CNT_ERR]; omega) (by simp only [R.PTP_Pn_STATUS, R.PTP_Pn_RAW]; omega)]
    refine clearParent_ptpState.trans ?_
    exact (State.g_p_same (by decide) _).trans rfl
  · refine Eq.trans ?_ (clearParent_parentOf (s := s.setPtpState p ptpListening) (n := p))
    unfold State.parentOf State.pair State.g
    rw [hy, hy, hy]
    all_goals simp only [R.PTP_Pn_CNT_ERR, R.PTP_Pn_RAW, R.PTP_Pn_PARENT_LO, R.PTP_Pn_PARENT_PORT]
    all_goals omega
  · show (y.raw (R.PTP_Pn_RAW p) F.PTP_Pn_RAW_ANN_TIMEOUT).g _ _ = _
    rw [State.g, State.reg_raw, if_neg (by simp only [R.PTP_Pn_CNT_ERR, R.PTP_Pn_RAW]; omega)]
    refine (State.g_inc (by decide)).trans ?_
    have e : x.g (R.PTP_Pn_CNT_ERR p) F.PTP_Pn_CNT_ERR_TIMEOUTS = s.g (R.PTP_Pn_CNT_ERR p) F.PTP_Pn_CNT_ERR_TIMEOUTS := by
      unfold State.g x
      rw [clearParent_reg, State.setPtpState, State.reg_p, if_neg]
      all_goals simp only [R.PTP_Pn_CNT_ERR, R.PTP_Pn_STATUS, R.PTP_Pn_PARENT_LO, R.PTP_Pn_PARENT_PORT]
      all_goals omega
    rw [e]
    rfl

end Sys2Proof.Machine
end

section

/-! ## Received Syncs and Follow_Ups (R207, R217, R218) -/

set_option Elab.async false

namespace Sys2Proof.Machine

variable {A : Nat → Prop} {ps : List Part} {s t u : State} {p : Fin 24} {m : List Byte} {n a br : Nat} {f : Fld} {i : StampIn}
  {t1 : T96} {t2 : Stamp} {c ph dl : Int} {bad : Bool} {v : PtpPort}

/-! ### Counting a Sync -/

/-- A Sync is counted. -/
def State.syncSeen (s : State) (n : Nat) : State := s.inc (R.PTP_Pn_CNT_MSG n) F.PTP_Pn_CNT_MSG_SYNC_RX

theorem reg_syncSeen (h : a ≠ R.PTP_Pn_CNT_MSG n) : (s.syncSeen n).reg a = s.reg a := by
  unfold State.syncSeen
  rw [State.reg_inc, if_neg h]

theorem g_syncSeen (h : a ≠ R.PTP_Pn_CNT_MSG n) : (s.syncSeen n).g a f = s.g a f := congrArg f.get (reg_syncSeen h)

theorem count_syncSeen : (s.syncSeen n).g (R.PTP_Pn_CNT_MSG n) F.PTP_Pn_CNT_MSG_SYNC_RX =
    min (s.g (R.PTP_Pn_CNT_MSG n) F.PTP_Pn_CNT_MSG_SYNC_RX + 1) 65535 := State.g_inc (by decide)

theorem seen_setPport : (s.setPport n v).g a f = s.g a f := congrArg f.get State.reg_setPport

theorem syncSeen_wait : ((s.syncSeen n).pport n).wait = (s.pport n).wait := congrArg PtpPort.wait <|
  State.pport_congr (congrArg Ptp.ports State.inc_ptp)

theorem syncSeen_ptp : (s.syncSeen n).ptp = s.ptp := State.inc_ptp

theorem syncSeen_pts : (s.syncSeen n).pts = s.pts := State.inc_pts

theorem syncSeen_tsc : (s.syncSeen n).tsc = s.tsc := State.inc_tsc

theorem syncSeen_pport : (s.syncSeen n).pport k = s.pport k := State.pport_congr (congrArg Ptp.ports syncSeen_ptp)

theorem syncSeen_ptpState : (s.syncSeen n).ptpState n = s.ptpState n :=
  g_syncSeen (by simp only [R.PTP_Pn_STATUS, R.PTP_Pn_CNT_MSG]; omega)

theorem syncSeen_valid (p : Fin 24) : (s.syncSeen p).g (R.PTS_STATUS p) F.PTS_STATUS_LD_VALID = s.g (R.PTS_STATUS p) F.PTS_STATUS_LD_VALID :=
  g_syncSeen (by simp only [R.PTS_STATUS, R.PTP_Pn_CNT_MSG]; omega)

theorem syncSeen_parentOf : (s.syncSeen n).parentOf n = s.parentOf n := by
  unfold State.parentOf State.pair
  rw [reg_syncSeen, reg_syncSeen, g_syncSeen]
  all_goals simp only [R.PTP_Pn_PARENT_LO, R.PTP_Pn_PARENT_PORT, R.PTP_Pn_CNT_MSG]
  all_goals omega

theorem syncSeen_fromParent : (s.syncSeen n).fromParent n m = s.fromParent n m := by
  unfold State.fromParent
  rw [syncSeen_ptpState, syncSeen_parentOf]

theorem syncSeen_remoteBad : (s.syncSeen n).remoteBad n m = s.remoteBad n m := by
  unfold State.remoteBad State.pcfg
  rw [g_syncSeen (by simp only [R.PTP_Pn_CFG, R.PTP_Pn_CNT_MSG]; omega), syncSeen_pport]

theorem syncSeen_delay (p : Fin 24) : (s.syncSeen p).pairI (R.PTS_LD_IN_LO p) = s.pairI (R.PTS_LD_IN_LO p) := by
  unfold State.pairI State.pair
  rw [reg_syncSeen, reg_syncSeen]
  all_goals simp only [R.PTS_LD_IN_LO, R.PTP_Pn_CNT_MSG]
  all_goals omega

theorem syncSeen_rxPhase : (s.syncSeen n).rxPhase n = s.rxPhase n := by
  unfold State.rxPhase State.rate
  rw [State.pd_of_pts syncSeen_pts, syncSeen_tsc]

theorem syncSeen_rxStamp (p : Fin 24) : (s.syncSeen p).rxStamp p i = s.rxStamp p i := by
  have h1 : (s.syncSeen p).rxDelay p = s.rxDelay p := by
    unfold State.rxDelay State.regI
    rw [reg_syncSeen (by simp only [R.PTS_RX_DLY_FAC, R.PTP_Pn_CNT_MSG]; omega),
      reg_syncSeen (by simp only [R.PTS_RX_DLY_USER, R.PTP_Pn_CNT_MSG]; omega)]
  have h2 : (s.syncSeen p).pdState p false = s.pdState p false :=
    g_syncSeen (by simp only [R.PTS_STATUS, R.PTP_Pn_CNT_MSG]; omega)
  have h3 : (s.syncSeen p).on (R.MAC_Pn_CFG p) F.MAC_Pn_CFG_FEC = s.on (R.MAC_Pn_CFG p) F.MAC_Pn_CFG_FEC := by
    unfold State.on
    rw [g_syncSeen (by simp only [R.MAC_Pn_CFG, R.PTP_Pn_CNT_MSG]; omega)]
  have h4 : (s.syncSeen p).ptsOf p = s.ptsOf p := congrArg (Tbl.get Pts.reset · p) syncSeen_pts
  unfold State.rxStamp State.stampOf
  rw [h1, h2, h3, h4]
  exact stampFrom_inc (by simp only [R.PTP_Pn_CNT_MSG, R.SPR_CTRL]; omega)

theorem syncSeen_servoPort : (s.syncSeen n).servoPort = s.servoPort :=
  g_syncSeen (by simp only [R.PTP_STATUS, R.PTP_Pn_CNT_MSG]; omega)

theorem syncSeen_errors : (s.syncSeen n).g (R.PTP_Pn_CNT_ERR n) f = s.g (R.PTP_Pn_CNT_ERR n) f :=
  g_syncSeen (by simp only [R.PTP_Pn_CNT_ERR, R.PTP_Pn_CNT_MSG]; omega)

theorem Changes.syncSeen (h : A (R.PTP_Pn_CNT_MSG n)) : Changes A ps s (s.syncSeen n) := (Changes.inc_iff h).2 .refl

/-! ### A sample is discarded -/

/-- From `s` to `t` a sample of port `p` has been discarded. -/
structure Drops (p : Fin 24) (s t : State) : Prop where
  ptp : t.ptp = s.ptp
  count : t.g (R.PTP_Pn_CNT_ERR p) F.PTP_Pn_CNT_ERR_DISCARDED = min (s.g (R.PTP_Pn_CNT_ERR p) F.PTP_Pn_CNT_ERR_DISCARDED + 1) 65535
  event : t.isSet (R.PTP_Pn_RAW p) F.PTP_Pn_RAW_SAMPLE_DISCARD
  changes : Changes (· = R.PTP_Pn_CNT_ERR p) [] s t

theorem msg_ne_err : R.PTP_Pn_CNT_MSG n ≠ R.PTP_Pn_CNT_ERR n := by
  simp only [R.PTP_Pn_CNT_MSG, R.PTP_Pn_CNT_ERR]; omega

/-- The count of Syncs stays. -/
theorem Changes.seen (h : Changes (· = R.PTP_Pn_CNT_ERR p) ps s t) :
    t.g (R.PTP_Pn_CNT_MSG p) F.PTP_Pn_CNT_MSG_SYNC_RX = s.g (R.PTP_Pn_CNT_MSG p) F.PTP_Pn_CNT_MSG_SYNC_RX :=
  h.g (sharedReg_PTP_Pn_CNT_MSG p) msg_ne_err

theorem dropSample_drops : Drops p s (s.dropSample p) where
  ptp := (State.raw_ptp ..).trans State.inc_ptp
  count := by
    unfold State.dropSample
    rw [State.g, State.reg_raw, if_neg (by simp only [R.PTP_Pn_CNT_ERR, R.PTP_Pn_RAW]; omega)]
    exact State.g_inc (by decide)
  event := State.isSet_raw (by decide) rfl
  changes := (Changes.raw_iff (rawBlock_PTP_Pn_RAW p)).2 ((Changes.inc_iff (A := (· = R.PTP_Pn_CNT_ERR p)) rfl).2 .refl)

/-- A discarded sample, whether or not its offset is far. -/
theorem farDrop_drops {q : Bool} : Drops p s ((if q then s.raw R.PTP_RAW F.PTP_RAW_FAR_OFFSET else s).dropSample p) := by
  cases q
  · exact dropSample_drops
  · have D := dropSample_drops (p := p) (s := s.raw R.PTP_RAW F.PTP_RAW_FAR_OFFSET)
    refine ⟨D.ptp.trans State.raw_ptp, D.count.trans ?_, D.event, .trans ((Changes.raw_iff (by decide)).2 .refl) D.changes⟩
    rw [State.g, State.reg_raw, if_neg (by simp only [R.PTP_Pn_CNT_ERR, R.PTP_RAW]; omega)]
    rfl

/-- Without a clean stamp or a valid delay a sample is discarded. -/
theorem offsetSample_drops (h : stampClean t2 = false ∨ s.g (R.PTS_STATUS p) F.PTS_STATUS_LD_VALID = 0) :
    Drops p s (s.offsetSample p t1 t2 c br ph dl) := by
  unfold State.offsetSample
  extract_lets dIn raw o far o' x waits
  have hx : x.on (R.PTS_STATUS p) F.PTS_STATUS_LD_VALID = s.on (R.PTS_STATUS p) F.PTS_STATUS_LD_VALID := by
    have h1 : R.PTS_STATUS p ≠ R.PTP_RAW := by simp only [R.PTS_STATUS, R.PTP_RAW]; omega
    unfold x State.on State.g
    rw [State.reg_ite, State.reg_raw, if_neg h1, ite_self]
  have hb : (!(stampClean t2) || br != x.tsc.breaks || !(x.on (R.PTS_STATUS p) F.PTS_STATUS_LD_VALID) || (far && !waits)) = true := by
    rw [hx]
    rcases h with h | h <;> simp [h, State.on]
  rw [if_pos hb]
  exact farDrop_drops

/-- The sample of a port in SLAVE that is not the servo port is accepted. -/
theorem offsetSample_takes (hc : stampClean t2 = true) (hb : br = s.tsc.breaks) (hp : s.ptpState p = ptpSlave) (hq : s.servoPort ≠ p)
    (hv : s.g (R.PTS_STATUS p) F.PTS_STATUS_LD_VALID = 1) (hd : (t96Diff t2.t t1).2 = false)
    (ho : (t96Diff t2.t t1).1 - c - s.pairI (R.PTS_LD_IN_LO p) = satS 64 ((t96Diff t2.t t1).1 - c - s.pairI (R.PTS_LD_IN_LO p))) :
    s.offsetSample p t1 t2 c br ph dl = s.setPport p { s.pport p with last := some s.tsc.tick } := by
  have hon : s.on (R.PTS_STATUS p) F.PTS_STATUS_LD_VALID = true := (State.on_iff rfl).2 hv
  have hst : ∀ v, (s.setPport p v).servoPort ≠ p := fun _ => hq
  have hu : s.ptpState p ≠ ptpUncal := by rw [hp]; decide
  unfold State.offsetSample
  simp only [hd, ← ho, ne_eq, not_true, decide_false, Bool.or_self, Bool.false_eq_true, if_false, hc, hb, bne_self_eq_false, hon,
    Bool.not_true, Bool.false_and, hu, hst]

/-! ### A complete Sync -/

/-- The record of a port whose Sync is complete. -/
def PtpPort.synced (v : PtpPort) (y : SyncTimes) : PtpPort :=
  { v with wait := none, syncs := y :: (if v.dreq.isSome then v.syncs else []) }

theorem syncDone_eq : s.syncDone n bad t1 t2 c br ph dl =
    (s.setPport n ((s.pport n).synced ⟨tickOf t1 + BitVec.ofNat 64 (enc 64 c), t2, !bad, br⟩)).offsetSample n t1 t2 c br ph dl := rfl

/-- A complete Sync whose sample is discarded. -/
theorem syncDone_drops (h : stampClean t2 = false ∨ s.g (R.PTS_STATUS p) F.PTS_STATUS_LD_VALID = 0) :
    Drops p (s.setPport p ((s.pport p).synced ⟨tickOf t1 + BitVec.ofNat 64 (enc 64 c), t2, !bad, br⟩))
      (s.syncDone p bad t1 t2 c br ph dl) :=
  syncDone_eq ▸ offsetSample_drops h

/-- A complete Sync whose sample is accepted. -/
theorem syncDone_takes (hc : stampClean t2 = true) (hb : br = s.tsc.breaks) (hp : s.ptpState p = ptpSlave) (hq : s.servoPort ≠ p)
    (hv : s.g (R.PTS_STATUS p) F.PTS_STATUS_LD_VALID = 1) (hd : (t96Diff t2.t t1).2 = false)
    (ho : (t96Diff t2.t t1).1 - c - s.pairI (R.PTS_LD_IN_LO p) = satS 64 ((t96Diff t2.t t1).1 - c - s.pairI (R.PTS_LD_IN_LO p))) :
    s.syncDone p bad t1 t2 c br ph dl =
      (s.setPport p ((s.pport p).synced ⟨tickOf t1 + BitVec.ofNat 64 (enc 64 c), t2, !bad, br⟩)).setPport p
        { (s.pport p).synced ⟨tickOf t1 + BitVec.ofNat 64 (enc 64 c), t2, !bad, br⟩ with last := some s.tsc.tick } := by
  rw [syncDone_eq]
  refine (offsetSample_takes (s := s.setPport p _) hc hb hp hq hv hd ho).trans ?_
  rw [State.pport_setPport, if_pos rfl]
  rfl

/-! ### The Sync that waits -/

theorem dropWait_none (h : (s.pport n).wait = none) : s.dropWait n = s := by
  unfold State.dropWait
  rw [h]

theorem dropWait_some {w : SyncWait} (h : (s.pport n).wait = some w) :
    s.dropWait n = (s.setPport n { s.pport n with wait := none }).dropSample n := by
  unfold State.dropWait
  rw [h]

theorem Drops.pport (h : Drops p s t) : t.pport n = s.pport n := State.pport_congr (congrArg Ptp.ports h.ptp)

/-- What is answered when a sample of port `p` is discarded and its record has become `v`. -/
theorem dropAnswers {P : State → Prop} (hs : s.inReset = false) (D : Drops p (s.setPport p v) t)
    (hP : ∀ u : State, u.pport p = v →
      u.g (R.PTP_Pn_CNT_ERR p) F.PTP_Pn_CNT_ERR_DISCARDED = min (s.g (R.PTP_Pn_CNT_ERR p) F.PTP_Pn_CNT_ERR_DISCARDED + 1) 65535 →
      u.isSet (R.PTP_Pn_RAW p) F.PTP_Pn_RAW_SAMPLE_DISCARD → s.sameBut u [R.PTP_Pn_CNT_ERR p] → s.sameParts u [.ptp] → P u) :
    Answers (done s t) P :=
  Answers.ofChanges (A := (· ∈ [R.PTP_Pn_CNT_ERR p])) (ps := [.ptp]) hs
    (.trans ((Changes.setPport_iff (by simp)).2 .refl) (D.changes.mono (fun _ h => List.mem_singleton.2 h) (by simp))) fun u L C =>
    hP u (L.pport.trans (D.pport.trans (State.pport_setPport.trans (if_pos rfl)))) ((L.g (by simp) _).trans D.count)
      (L.portSet (by decide) rfl D.event) C.sameBut C.parts

theorem followUpTimeout_drops {w : SyncWait} (hs : s.inReset = false) (hw : (s.pport p).wait = some w) :
    Answers (exec (.followUpTimeout p) s) fun t =>
      t.pport p = { s.pport p with wait := none } ∧
      t.g (R.PTP_Pn_CNT_ERR p) F.PTP_Pn_CNT_ERR_DISCARDED = min (s.g (R.PTP_Pn_CNT_ERR p) F.PTP_Pn_CNT_ERR_DISCARDED
        + 1) 65535 ∧
      t.isSet (R.PTP_Pn_RAW p) F.PTP_Pn_RAW_SAMPLE_DISCARD ∧ s.sameBut t [R.PTP_Pn_CNT_ERR p] ∧ s.sameParts t [.ptp] := by
  show Answers (done s (s.dropWait p)) _
  rw [dropWait_some hw]
  exact dropAnswers hs dropSample_drops fun u h1 h2 h3 h4 h5 => ⟨h1, h2, h3, h4, h5⟩

theorem followUpTimeout_stays (hs : s.inReset = false) (hw : (s.pport p).wait = none) :
    Answers (exec (.followUpTimeout p) s) fun t => s.sameBut t [] ∧ s.sameParts t [] :=
  Answers.still hs (dropWait_none hw)

/-! ### Follow_Up -/

/-- A message that no parent sent is counted on a MASTER port. -/
theorem notFollowed_count (hp : s.ptpState p = n) : (s.notFollowed p).g (R.PTP_Pn_CNT_ERR p) F.PTP_Pn_CNT_ERR_DISCARDED =
    min (s.g (R.PTP_Pn_CNT_ERR p) F.PTP_Pn_CNT_ERR_DISCARDED + b2n (decide (n = ptpMaster))) 65535 := by
  have hl : s.g (R.PTP_Pn_CNT_ERR p) F.PTP_Pn_CNT_ERR_DISCARDED < 65536 := Fld.get_lt _ _
  unfold State.notFollowed
  rw [hp]
  by_cases h : n = ptpMaster
  · rw [if_pos h, decide_eq_true h]
    exact State.g_inc (by decide)
  · rw [if_neg h, decide_eq_false h]
    exact (Nat.min_eq_left (Nat.le_of_lt_succ hl)).symm

theorem Changes.notFollowed (h : A (R.PTP_Pn_CNT_ERR n)) : Changes A ps s (s.notFollowed n) := by
  unfold State.notFollowed State.ptpDiscard
  split
  · exact (Changes.inc_iff h).2 .refl
  · exact .refl

section

variable {w : SyncWait} (hs : s.inReset = false) (hr : s.running = true) (hc : s.consumes p m = true)
include hs hr hc

section

variable (hm : msgOk 8 m = true)
include hm

theorem followUp_other (hf : s.fromParent p m = false) : Answers (exec (.followUpRx p m) s) fun t =>
      t.g (R.PTP_Pn_CNT_ERR p) F.PTP_Pn_CNT_ERR_DISCARDED = min (s.g (R.PTP_Pn_CNT_ERR p) F.PTP_Pn_CNT_ERR_DISCARDED
        + b2n (decide (s.ptpState p = ptpMaster))) 65535 ∧
      s.sameBut t [R.PTP_Pn_CNT_ERR p] ∧ s.sameParts t [] := by
  refine consumedAnswers hr hc hm ?_
  simp only [hf, Bool.false_eq_true, if_false]
  exact Answers.ofChanges (A := (· ∈ [R.PTP_Pn_CNT_ERR p])) (ps := []) hs (.notFollowed (by simp)) fun u L C =>
    ⟨(L.g (by simp) _).trans (notFollowed_count rfl), C.sameBut, C.parts⟩

variable (hf : s.fromParent p m = true)
include hf

theorem followUp_stays (h : (s.pport p).wait.all (fun w : SyncWait => decide (w.seq ≠ msgSeq m)) = true) :
    Answers (exec (.followUpRx p m) s) fun t => s.sameBut t [] ∧ s.sameParts t [] := by
  refine consumedAnswers hr hc hm (Answers.still hs ?_)
  cases hd : (s.pport p).wait with
  | none => simp only [hf, if_true]
  | some w =>
    have hq : w.seq ≠ msgSeq m := by simpa [hd] using h
    simp only [hf, if_true, hq, if_false]

variable (hw : (s.pport p).wait = some w) (hq : w.seq = msgSeq m)
include hw hq

theorem followUp_drops (hv : s.g (R.PTS_STATUS p) F.PTS_STATUS_LD_VALID = 0) : Answers (exec (.followUpRx p m) s) fun t =>
      (t.pport p).wait = none ∧
      (t.pport p).syncs.head? = some (⟨tickOf (msgTime m) + BitVec.ofNat 64 (enc 64 (w.corr + msgCorr m)), w.t2,
        !(w.bad || s.remoteBad p m), w.breaks⟩ : SyncTimes) ∧
      t.g (R.PTP_Pn_CNT_ERR p) F.PTP_Pn_CNT_ERR_DISCARDED = min (s.g (R.PTP_Pn_CNT_ERR p) F.PTP_Pn_CNT_ERR_DISCARDED
        + 1) 65535 ∧
      t.isSet (R.PTP_Pn_RAW p) F.PTP_Pn_RAW_SAMPLE_DISCARD ∧ s.sameBut t [R.PTP_Pn_CNT_ERR p] ∧ s.sameParts t [.ptp] := by
  refine consumedAnswers hr hc hm ?_
  simp only [hf, if_true, hw, hq]
  exact dropAnswers hs (syncDone_drops (.inr hv)) fun u h1 h2 h3 h4 h5 => ⟨by rw [h1]; rfl, by rw [h1]; rfl, h2, h3, h4, h5⟩

theorem followUp_takes (hb : w.breaks = s.tsc.breaks) (hc : stampClean w.t2 = true) (hp : s.ptpState p = ptpSlave)
    (hn : s.servoPort ≠ p) (hv : s.g (R.PTS_STATUS p) F.PTS_STATUS_LD_VALID = 1) (hd : (t96Diff w.t2.t (msgTime m)).2 = false)
    (ho : ((t96Diff w.t2.t (msgTime m)).1 - (w.corr + msgCorr m) - s.pairI (R.PTS_LD_IN_LO p)) =
      satS 64 ((t96Diff w.t2.t (msgTime m)).1 - (w.corr + msgCorr m) - s.pairI (R.PTS_LD_IN_LO p))) :
    Answers (exec (.followUpRx p m) s) fun t =>
      (t.pport p).wait = none ∧ (t.pport p).last = some s.tsc.tick ∧
      (t.pport p).syncs.head? = some (⟨tickOf (msgTime m) + BitVec.ofNat 64 (enc 64 (w.corr + msgCorr m)), w.t2,
        !(w.bad || s.remoteBad p m), w.breaks⟩ : SyncTimes) ∧
      s.sameBut t [] ∧ s.sameParts t [.ptp] := by
  refine consumedAnswers hr ‹_› hm ?_
  simp only [hf, if_true, hw, hq]
  rw [syncDone_takes hc hb hp hn hv hd ho]
  refine Answers.ofChanges (A := (· ∈ ([] : List Nat))) (ps := [.ptp]) hs (by simp) fun u L C => ?_
  have h1 := L.pport.trans (State.pport_setPport.trans (if_pos rfl))
  exact ⟨by rw [h1]; rfl, by rw [h1], by rw [h1]; rfl, C.sameBut, C.parts⟩

end

/-! ### Sync -/

section

variable (hm : msgOk 0 m = true)
include hm

omit hs in
/-- A Sync is counted, and read by its port. -/
theorem syncRx_counted {P : State → Prop} (h : Answers (done s (if s.fromParent p m then
      (if msgTwoStep m then ((s.syncSeen p).dropWait p).setPport p { ((s.syncSeen p).dropWait p).pport p with
        wait := some ⟨msgSeq m, s.rxStamp p i, msgCorr m, ((s.syncSeen p).dropWait p).tsc.breaks, s.rxPhase p, s.pairI (R.PTS_LD_IN_LO p),
          ((s.syncSeen p).dropWait p).remoteBad p m⟩ }
      else ((s.syncSeen p).dropWait p).syncDone p (((s.syncSeen p).dropWait p).remoteBad p m) (msgTime m) (s.rxStamp p i) (msgCorr m)
        ((s.syncSeen p).dropWait p).tsc.breaks (s.rxPhase p) (s.pairI (R.PTS_LD_IN_LO p)))
    else (s.syncSeen p).notFollowed p)) P) : Answers (exec (.syncRx p m i) s) P := by
  refine consumedAnswers hr hc hm ?_
  have e : s.inc (R.PTP_Pn_CNT_MSG p) F.PTP_Pn_CNT_MSG_SYNC_RX = s.syncSeen p := rfl
  simp only [e, syncSeen_fromParent, syncSeen_rxStamp, syncSeen_rxPhase, syncSeen_delay]
  exact h

theorem sync_other (hf : s.fromParent p m = false) : Answers (exec (.syncRx p m i) s) fun t =>
      t.g (R.PTP_Pn_CNT_MSG p) F.PTP_Pn_CNT_MSG_SYNC_RX = min (s.g (R.PTP_Pn_CNT_MSG p) F.PTP_Pn_CNT_MSG_SYNC_RX + 1)
        65535 ∧
      t.g (R.PTP_Pn_CNT_ERR p) F.PTP_Pn_CNT_ERR_DISCARDED = min (s.g (R.PTP_Pn_CNT_ERR p) F.PTP_Pn_CNT_ERR_DISCARDED
        + b2n (decide (s.ptpState p = ptpMaster))) 65535 ∧
      s.sameBut t [R.PTP_Pn_CNT_MSG p, R.PTP_Pn_CNT_ERR p] ∧ s.sameParts t [] := by
  refine syncRx_counted hr hc hm ?_
  have N : Changes (· = R.PTP_Pn_CNT_ERR p) [] (s.syncSeen p) ((s.syncSeen p).notFollowed p) := .notFollowed rfl
  simp only [hf, Bool.false_eq_true, if_false]
  refine Answers.ofChanges (A := (· ∈ [R.PTP_Pn_CNT_MSG p, R.PTP_Pn_CNT_ERR p])) (ps := []) hs
    (.trans (.syncSeen (by simp)) (.notFollowed (by simp))) fun u L C => ⟨(L.g (by simp) _).trans ?_, (L.g (by simp) _).trans ?_, C.sameBut, C.parts⟩
  · exact N.seen.trans count_syncSeen
  · rw [notFollowed_count syncSeen_ptpState, syncSeen_errors]

variable (hf : s.fromParent p m = true)
include hf

theorem sync_replaces {w : SyncWait} (ht : msgTwoStep m = true) (hw : (s.pport p).wait = some w) :
    Answers (exec (.syncRx p m i) s) fun t =>
      (t.pport p).wait.map (fun y : SyncWait => y.seq) = some (msgSeq m) ∧
      t.g (R.PTP_Pn_CNT_ERR p) F.PTP_Pn_CNT_ERR_DISCARDED = min (s.g (R.PTP_Pn_CNT_ERR p) F.PTP_Pn_CNT_ERR_DISCARDED
        + 1) 65535 ∧
      t.isSet (R.PTP_Pn_RAW p) F.PTP_Pn_RAW_SAMPLE_DISCARD ∧
      t.g (R.PTP_Pn_CNT_MSG p) F.PTP_Pn_CNT_MSG_SYNC_RX = min (s.g (R.PTP_Pn_CNT_MSG p) F.PTP_Pn_CNT_MSG_SYNC_RX + 1)
        65535 ∧
      s.sameBut t [R.PTP_Pn_CNT_MSG p, R.PTP_Pn_CNT_ERR p] ∧ s.sameParts t [.ptp] := by
  refine syncRx_counted hr hc hm ?_
  simp only [hf, ht, if_true]
  rw [dropWait_some (syncSeen_wait.trans hw)]
  have D := dropSample_drops (p := p) (s := (s.syncSeen p).setPport p { (s.syncSeen p).pport p with wait := none })
  refine Answers.ofChanges (A := (· ∈ [R.PTP_Pn_CNT_MSG p, R.PTP_Pn_CNT_ERR p])) (ps := [.ptp]) hs
    ((Changes.setPport_iff (by simp)).2 (.trans ((Changes.setPport_iff (by simp)).2 (.syncSeen (by simp)))
      (D.changes.mono (fun _ h => by simp [h]) (by simp)))) fun u L C =>
    ⟨?_, (L.g (by simp) _).trans (seen_setPport.trans (D.count.trans ?_)),
      L.portSet (by decide) rfl (seen_setPport.trans D.event), (L.g (by simp) _).trans ?_, C.sameBut, C.parts⟩
  · rw [L.pport, State.pport_setPport, if_pos rfl]
    rfl
  · show min ((s.syncSeen p).g (R.PTP_Pn_CNT_ERR p) F.PTP_Pn_CNT_ERR_DISCARDED + 1) 65535 = _
    rw [syncSeen_errors]
  · exact seen_setPport.trans (D.changes.seen.trans (seen_setPport.trans count_syncSeen))

variable (hw : (s.pport p).wait = none)
include hw

theorem sync_waits (ht : msgTwoStep m = true) : Answers (exec (.syncRx p m i) s) fun t =>
      (t.pport p).wait = some (⟨msgSeq m, s.rxStamp p i, msgCorr m, s.tsc.breaks, s.rxPhase p, s.pairI
        (R.PTS_LD_IN_LO p), s.remoteBad p m⟩ : SyncWait) ∧
      t.g (R.PTP_Pn_CNT_MSG p) F.PTP_Pn_CNT_MSG_SYNC_RX = min (s.g (R.PTP_Pn_CNT_MSG p) F.PTP_Pn_CNT_MSG_SYNC_RX + 1)
        65535 ∧
      s.sameBut t [R.PTP_Pn_CNT_MSG p] ∧ s.sameParts t [.ptp] := by
  refine syncRx_counted hr hc hm ?_
  simp only [hf, ht, if_true]
  rw [dropWait_none (syncSeen_wait.trans hw), syncSeen_remoteBad, syncSeen_tsc]
  refine Answers.ofChanges (A := (· ∈ [R.PTP_Pn_CNT_MSG p])) (ps := [.ptp]) hs
    ((Changes.setPport_iff (by simp)).2 (.syncSeen (by simp))) fun u L C => ⟨?_, (L.g (by simp) _).trans count_syncSeen, C.sameBut, C.parts⟩
  rw [L.pport, State.pport_setPport, if_pos rfl]

theorem sync_drops (ht : msgTwoStep m = false) (h : stampClean (s.rxStamp p i) = false ∨ s.g (R.PTS_STATUS p) F.PTS_STATUS_LD_VALID = 0) :
    Answers (exec (.syncRx p m i) s) fun t =>
      (t.pport p).last = (s.pport p).last ∧
      t.g (R.PTP_Pn_CNT_ERR p) F.PTP_Pn_CNT_ERR_DISCARDED = min (s.g (R.PTP_Pn_CNT_ERR p) F.PTP_Pn_CNT_ERR_DISCARDED
        + 1) 65535 ∧
      t.isSet (R.PTP_Pn_RAW p) F.PTP_Pn_RAW_SAMPLE_DISCARD ∧
      t.g (R.PTP_Pn_CNT_MSG p) F.PTP_Pn_CNT_MSG_SYNC_RX = min (s.g (R.PTP_Pn_CNT_MSG p) F.PTP_Pn_CNT_MSG_SYNC_RX + 1)
        65535 ∧
      s.sameBut t [R.PTP_Pn_CNT_MSG p, R.PTP_Pn_CNT_ERR p] ∧ s.sameParts t [.ptp] := by
  refine syncRx_counted hr hc hm ?_
  simp only [hf, ht, if_true, Bool.false_eq_true, if_false]
  rw [dropWait_none (syncSeen_wait.trans hw)]
  have D := syncDone_drops (s := s.syncSeen p) (bad := (s.syncSeen p).remoteBad p m) (t1 := msgTime m) (c := msgCorr m)
    (br := (s.syncSeen p).tsc.breaks) (ph := s.rxPhase p) (dl := s.pairI (R.PTS_LD_IN_LO p)) (h.imp_right (syncSeen_valid p).trans)
  refine Answers.ofChanges (A := (· ∈ [R.PTP_Pn_CNT_MSG p, R.PTP_Pn_CNT_ERR p])) (ps := [.ptp]) hs
    (.trans ((Changes.setPport_iff (by simp)).2 (.syncSeen (by simp))) (D.changes.mono (fun _ h => by simp [h]) (by simp))) fun u L C =>
    ⟨?_, (L.g (by simp) _).trans (D.count.trans ?_), L.portSet (by decide) rfl D.event, (L.g (by simp) _).trans ?_, C.sameBut, C.parts⟩
  · rw [L.pport, D.pport, State.pport_setPport, if_pos rfl, syncSeen_pport]
    rfl
  · show min ((s.syncSeen p).g (R.PTP_Pn_CNT_ERR p) F.PTP_Pn_CNT_ERR_DISCARDED + 1) 65535 = _
    rw [syncSeen_errors]
  · exact D.changes.seen.trans (seen_setPport.trans count_syncSeen)

theorem sync_takes (ht : msgTwoStep m = false) (hp : s.ptpState p = ptpSlave) (hn : s.servoPort ≠ p)
    (hv : s.g (R.PTS_STATUS p) F.PTS_STATUS_LD_VALID = 1) (hx : stampClean (s.rxStamp p i) = true)
    (hd : (t96Diff (s.rxStamp p i).t (msgTime m)).2 = false)
    (ho : ((t96Diff (s.rxStamp p i).t (msgTime m)).1 - (msgCorr m) - s.pairI (R.PTS_LD_IN_LO p)) =
      satS 64 ((t96Diff (s.rxStamp p i).t (msgTime m)).1 - (msgCorr m) - s.pairI (R.PTS_LD_IN_LO p))) :
    Answers (exec (.syncRx p m i) s) fun t =>
      (t.pport p).last = some s.tsc.tick ∧
      (t.pport p).syncs.head? = some (⟨tickOf (msgTime m) + BitVec.ofNat 64 (enc 64 (msgCorr m)), s.rxStamp p i,
        !(s.remoteBad p m), s.tsc.breaks⟩ : SyncTimes) ∧
      t.g (R.PTP_Pn_CNT_MSG p) F.PTP_Pn_CNT_MSG_SYNC_RX = min (s.g (R.PTP_Pn_CNT_MSG p) F.PTP_Pn_CNT_MSG_SYNC_RX + 1)
        65535 ∧
      s.sameBut t [R.PTP_Pn_CNT_MSG p] ∧ s.sameParts t [.ptp] := by
  refine syncRx_counted hr hc hm ?_
  simp only [hf, ht, if_true, Bool.false_eq_true, if_false]
  rw [dropWait_none (syncSeen_wait.trans hw), syncSeen_remoteBad]
  have hdl := syncSeen_delay (s := s) p
  rw [syncDone_takes hx rfl (syncSeen_ptpState.trans hp) (by rwa [syncSeen_servoPort]) ((syncSeen_valid p).trans hv) hd (by rwa [hdl])]
  refine Answers.ofChanges (A := (· ∈ [R.PTP_Pn_CNT_MSG p])) (ps := [.ptp]) hs
    ((Changes.setPport_iff (by simp)).2 ((Changes.setPport_iff (by simp)).2 (.syncSeen (by simp)))) fun u L C =>
    ⟨?_, ?_, (L.g (by simp) _).trans count_syncSeen, C.sameBut, C.parts⟩
  · rw [L.pport, State.pport_setPport, if_pos rfl, syncSeen_tsc]
  · rw [L.pport, State.pport_setPport, if_pos rfl, syncSeen_tsc]
    rfl

end

end

/-- Settles O43. An accepted Announce enters a state, and what settling then changes leaves the port's record; a Sync is
counted, and its sample taken or discarded. -/
theorem ptpAnnouncesAndSyncs : Obligations.PtpAnnouncesAndSyncs := by
  unfold Obligations.PtpAnnouncesAndSyncs
  exact ⟨fun _ _ _ hs hr hc hm h hl ho => announceRx_listening hs hr hc hm h hl ho,
    fun _ _ _ hs hr hc hm h hl ho => announceRx_rejects hs hr hc hm h hl ho,
    fun _ _ hs h => announceTimeout_answers hs h,
    fun _ _ _ hs hr hc hm h => announceRx_foreign hs hr hc hm h,
    fun _ _ _ hs hr hc hm h => announceRx_asleep hs hr hc hm h,
    fun _ _ _ hs hr hc hm h ho hl => announceRx_shows hs hr hc hm h ho hl,
    fun _ _ _ hs hr hc hm h ho hq hl => announceRx_moves hs hr hc hm h ho hq hl,
    fun _ _ _ hs hr hc hm h ho hl => announceRx_passive hs hr hc hm h ho hl,
    fun _ _ _ _ hs hr hc hm h ho hl hb => announceRx_showsClaim hs hr hc hm h ho hl hb,
    fun _ _ _ _ hs hr hc hm h ho hl hb => announceRx_rejectsClaim hs hr hc hm h ho hl hb,
    fun _ _ _ hs hr hc hm => malformedAnswers hs hr hc hm, fun _ _ _ hs h => passedAnswers hs h,
    fun _ _ _ _ hs hr hc hm => malformedAnswers hs hr hc hm, fun _ _ _ _ hs h => passedAnswers hs h,
    fun _ _ _ hs hr hc hm => malformedAnswers hs hr hc hm, fun _ _ _ hs h => passedAnswers hs h,
    fun _ _ _ _ hs hr hc hm => malformedAnswers hs hr hc hm, fun _ _ _ _ hs h => passedAnswers hs h,
    fun _ _ _ hs hr hc hm => malformedAnswers hs hr hc hm, fun _ _ _ hs h => passedAnswers hs h,
    fun _ _ _ _ hs hr hc hm => malformedAnswers hs hr hc hm, fun _ _ _ _ hs h => passedAnswers hs h,
    fun _ _ _ _ hs hr hc hm => malformedAnswers hs hr hc hm, fun _ _ _ _ hs h => passedAnswers hs h,
    fun _ _ _ hs hr hc hm => malformedAnswers hs hr hc hm, fun _ _ _ hs h => passedAnswers hs h,
    fun _ _ _ _ hs hr hc hm hf ht hw => sync_waits hs hr hc hm hf hw ht,
    fun _ _ _ _ hs hr hc hm hf hw hq hv => followUp_drops hs hr hc hm hf hw hq hv,
    fun _ _ _ hs hw => followUpTimeout_drops hs hw,
    fun _ _ _ _ hs hr hc hm hf ht hw hp hn hv hx hd ho => sync_takes hs hr hc hm hf hw ht hp hn hv hx hd ho,
    fun _ _ _ _ hs hr hc hm hf ht hw h => sync_drops hs hr hc hm hf hw ht h,
    fun _ _ _ _ _ hs hr hc hm hf ht hw => sync_replaces hs hr hc hm hf ht hw,
    fun _ _ _ _ hs hr hc hm hf => sync_other hs hr hc hm hf,
    fun _ _ _ _ hs hr hc hm hf hw hq hb hx hp hn hv hd ho => followUp_takes hs hr hc hm hf hw hq hb hx hp hn hv hd ho,
    fun _ _ _ hs hr hc hm hf h => followUp_stays hs hr hc hm hf h,
    fun _ _ _ hs hr hc hm hf => followUp_other hs hr hc hm hf,
    fun _ _ hs hw => followUpTimeout_stays hs hw⟩

end Sys2Proof.Machine
end

section

/-! ## Accesses that wait: bus timeouts, domains that answer, crossings (R36, R38, R42, R43) -/

set_option Elab.async false

namespace Sys2Proof.Machine

variable {A : Nat → Prop} {ps : List Part} {s t u : State} {x y : Access} {l : List Access} {d : Dom} {src : Src} {n : Nat} {b : Bool}

/-! ### Accesses that go on waiting -/

/-- The state with accesses `l` and `m` waiting. -/
def State.waiting (s : State) (l m : List Access) : State := { s with hif := { s.hif with held := l, flow := m } }

theorem waiting_self (hf : s.hif.flow = []) : s.waiting s.hif.held [] = s := by
  rw [State.waiting, ← hf]

/-- The access waits for its domain: the domain's clock is stopped, and it is not taken as dead. -/
def State.waits (s : State) (y : Access) : Prop :=
  s.runs (accessDom y.src y.addr) = false ∧ s.hif.dead.contains (accessDom y.src y.addr) = false ∧ (y.write = true → y.src ≠ .f1)

/-- A posted write of F0. -/
def posted (y : Access) : Bool := decide (y.src = .f0) && y.write

theorem access_waits (hf : s.hif.flow = []) (hl : (s.hif.held.filter posted).length < 16) (hy : s.waits y) :
    s.access y = s.waiting (s.hif.held ++ [y]) [] := by
  obtain ⟨h1, h2, h3⟩ := hy
  have e : s.waiting (s.hif.held ++ [y]) [] = { s with hif := { s.hif with held := s.hif.held ++ [y] } } := by
    rw [State.waiting, ← hf]
  have hh : s.flowHeld = false := by
    unfold State.flowHeld
    rw [hf]
    exact decide_eq_false (Nat.not_le.2 hl)
  have hd : ¬ (y.write = true ∧ y.src = .f1) := fun h => h3 h.1 h.2
  unfold State.access
  simp only [hh, Bool.false_eq_true, and_false, if_false, hd, h2, h1, e, ite_self]

/-- Accesses that all wait are kept in their order. -/
theorem accessAll_waits (hf : s.hif.flow = []) (hl : ((s.hif.held ++ l).filter posted).length < 16) (h : ∀ y ∈ l, s.waits y) :
    s.accessAll l = s.waiting (s.hif.held ++ l) [] := by
  induction l generalizing s with
  | nil =>
    rw [List.append_nil, waiting_self hf]
    rfl
  | cons y r ih =>
    have e : s.access y = s.waiting (s.hif.held ++ [y]) [] := by
      refine access_waits hf ?_ (h y (List.mem_cons_self ..))
      rw [List.filter_append, List.length_append] at hl
      omega
    have k := ih (s := s.waiting (s.hif.held ++ [y]) []) rfl
      (by show ((s.hif.held ++ [y] ++ r).filter posted).length < 16
          rwa [← List.append_cons]) fun z hz =>
      h z (List.mem_cons_of_mem _ hz)
    show (s.access y).accessAll r = _
    rw [e, k]
    show s.waiting ((s.hif.held ++ [y]) ++ r) [] = _
    rw [← List.append_cons]

theorem resumeHeld_waits (hf : s.hif.flow = []) (hl : (s.hif.held.filter posted).length < 16) (h : ∀ y ∈ s.hif.held, s.waits y) :
    s.resumeHeld = s := by
  have k := accessAll_waits (s := s.waiting [] []) (l := s.hif.held) rfl hl h
  unfold State.resumeHeld
  rw [show ({ s with hif := { s.hif with held := [], flow := [] } } : State).accessAll s.hif.held = _ from k, hf]
  exact waiting_self hf

/-! ### A bus timeout -/

/-- The access `x` waits no longer, and its domain is taken as dead. -/
def State.timeoutOf (s : State) (x : Access) : State :=
  { s with hif := { s.hif with
    held := s.hif.held.erase x, dead := s.hif.dead.erase (accessDom x.src x.addr) ++ [accessDom x.src x.addr] } }

/-- What a bus timeout of `x` leaves before the waiting accesses go on. -/
def State.expired (s : State) (x : Access) : State :=
  ((s.timeoutOf x).deadAccess x).fault 0 1 (srcCode x.src) (x.addr + x.lane)

theorem busTimeout_eq (hb : x.src ≠ .boot) (h : s.firstHeld x.src = some x) : s.busTimeout x.src = (s.expired x).resumeHeld := by
  unfold State.busTimeout
  rw [if_neg hb, h]
  rfl

/-- The registers of a bus timeout. -/
abbrev timeoutRegs (a : Nat) : Prop := a ∈ [R.HIF_ACCESS_FAULT, R.HIF_ACCESS_ADDR]

theorem Changes.timedOut {a : Nat} : Changes timeoutRegs [] s (s.timedOut src a) := by
  unfold State.timedOut State.accessFault
  simp

theorem timedOut_count {a : Nat} : (s.timedOut src a).g R.HIF_ACCESS_FAULT F.HIF_ACCESS_FAULT_TIMEOUT =
    min (s.g R.HIF_ACCESS_FAULT F.HIF_ACCESS_FAULT_TIMEOUT + 1) 255 := by
  unfold State.timedOut State.accessFault
  rw [State.g, State.reg_raw, if_neg (by decide), State.reg_setRegN, if_neg (by decide)]
  exact State.g_inc (by decide)

theorem deadAccess_logs : Logs (s.timedOut x.src (x.addr + x.lane)) (s.deadAccess x) := by
  unfold State.deadAccess
  exact .ite (.refl _) (.emit (.refl _))

theorem deadAccess_emits (h : x.write = false) :
    s.emits (s.deadAccess x) (.readData x.src (x.addr + x.lane) (slice (leBytes 4 0xDEADC10C) x.lane x.len)) := by
  have hw : deadWord.toNat = 0xDEADC10C := by decide
  have ho : (s.timedOut x.src (x.addr + x.lane)).out = s.out := by
    unfold State.timedOut State.accessFault State.raw State.setRegN State.inc State.satAdd State.p State.setReg
    rfl
  unfold State.deadAccess State.answer State.emit
  simp only [h, Bool.false_eq_true, if_false, ho, hw]
  exact List.prefix_rfl

/-- What is answered at a bus timeout, when every other access goes on waiting. -/
theorem busTimeout_answers {P : State → Prop} (hs : s.inReset = false) (hb : x.src ≠ .boot) (hx : s.firstHeld x.src = some x)
    (hf : s.hif.flow = []) (hl : (s.hif.held.filter posted).length < 16)
    (hw : ∀ y ∈ s.hif.held.erase x, s.waits y ∧ accessDom y.src y.addr ≠ accessDom x.src x.addr)
    (hP : ∀ t, accessDom x.src x.addr ∈ t.hif.dead → t.hif.held = s.hif.held.erase x →
      t.g R.HIF_ACCESS_FAULT F.HIF_ACCESS_FAULT_TIMEOUT = min (s.g R.HIF_ACCESS_FAULT F.HIF_ACCESS_FAULT_TIMEOUT + 1) 255 →
      t.isSet R.HIF_RAW F.HIF_RAW_TIMEOUT →
      (s.hif.fq.length < 32 → ∃ f ∈ t.hif.fq, f.block = 0 ∧ f.code = 1 ∧ f.detail = srcCode x.src) →
      (x.write = false → s.emits t (.readData x.src (x.addr + x.lane) (slice (leBytes 4 0xDEADC10C) x.lane x.len))) →
      s.sameBut t [R.HIF_ACCESS_FAULT, R.HIF_ACCESS_ADDR] → s.sameParts t [.hif] → P t) :
    Answers (exec (.busTimeout x.src) s) P := by
  have L : Logs ((s.timeoutOf x).timedOut x.src (x.addr + x.lane)) (s.expired x) := deadAccess_logs.fault
  have C : Changes timeoutRegs [] (s.timeoutOf x) (s.expired x) := .trans .timedOut (.ofLogs L)
  have hhif : (s.expired x).hif = { (s.timeoutOf x).hif with fq := (s.expired x).hif.fq } := C.parts .hif (by simp)
  have hg : (s.expired x).gated = s.gated := C.parts .gated (by simp)
  have hr : (s.expired x).resumeHeld = s.expired x := by
    refine resumeHeld_waits ?_ ?_ fun y hy => ?_
    · rw [hhif]
      exact hf
    · rw [hhif]
      exact Nat.lt_of_le_of_lt ((List.erase_sublist.filter _).length_le) hl
    · rw [hhif] at hy
      obtain ⟨⟨h1, h2, h3⟩, h4⟩ := hw y hy
      refine ⟨?_, ?_, h3⟩
      · unfold State.runs
        rw [hg]
        exact h1
      · rw [hhif]
        refine Bool.eq_false_iff.2 fun hc => ?_
        rcases List.mem_append.1 (List.contains_iff_mem.1 hc) with hd | hd
        · exact Bool.eq_false_iff.1 h2 (List.contains_iff_mem.2 (List.mem_of_mem_erase hd))
        · exact h4 (List.mem_singleton.1 hd)
  show Answers (done s (s.busTimeout x.src)) P
  rw [busTimeout_eq hb hx, hr]
  have C' : Changes timeoutRegs [.hif] s (s.expired x) := .trans (t := s.timeoutOf x) (by unfold State.timeoutOf; simp) (C.mono (fun _ h => h) (by simp))
  refine Answers.ofChanges hs C' fun u K C2 => hP u ?_ ?_ ?_ ?_ ?_ ?_ C2.sameBut C2.parts
  · rw [K.hif, hhif]
    exact List.mem_append_right _ (List.mem_singleton_self _)
  · rw [K.hif, hhif]
    rfl
  · exact (K.g (by decide) _).trans ((L.g (by decide) _).trans timedOut_count)
  · exact K.isSet (by decide) (by decide) rfl (L.isSet (by decide) (by decide) rfl (State.isSet_raw (by decide) rfl))
  · intro hq
    refine K.queued ⟨_, State.mem_fq_fault ?_, rfl, rfl, ?_⟩
    · have h1 : ((s.timeoutOf x).deadAccess x).hif = (s.timeoutOf x).hif := by
        unfold State.deadAccess State.answer State.emit State.timedOut State.accessFault
        rw [hif_ite, State.raw_hif, State.setRegN_hif, State.inc_hif, ite_self]
      rw [h1]
      exact hq
    · show srcCode x.src % 2 ^ 16 = srcCode x.src
      cases x.src <;> rfl
  · intro h
    exact List.IsPrefix.trans (deadAccess_emits (s := s.timeoutOf x) h) (List.IsPrefix.trans (Logs.fault (.refl _)).out K.out)

/-- What is answered when a command ends on `t`: what `t` shows. -/
theorem sameAnswers (hs : s.inReset = false) : Answers (done s t) fun u => t.sameBut u [] ∧ t.sameParts u [] :=
  Answers.ofDone hs fun u L =>
    have C : Changes (· ∈ ([] : List Nat)) [] t u := .ofLogs L
    ⟨C.sameBut, C.parts⟩

theorem busTimeout_still (hs : s.inReset = false) (h : src = .boot ∨ s.firstHeld src = none) :
    Answers (exec (.busTimeout src) s) fun t => s.sameBut t [] ∧ s.sameParts t [] := by
  refine Answers.still hs ?_
  unfold State.busTimeout
  split
  · rfl
  · next hb => rw [h.resolve_left hb]

/-! ### A domain that answers -/

theorem liveAgain_answers (hs : s.inReset = false) (hr : s.runs d = true) (hd : d ∈ s.hif.dead) :
    Answers (exec (.domainLiveAgain d) s) fun t =>
      (({ s with hif := { s.hif with dead := s.hif.dead.erase d } }).resumeHeld).sameBut t [] ∧
      (({ s with hif := { s.hif with dead := s.hif.dead.erase d } }).resumeHeld).sameParts t [] := by
  show Answers (done s (s.liveAgain d)) _
  unfold State.liveAgain
  rw [if_pos ⟨List.contains_iff_mem.2 hd, hr⟩]
  exact sameAnswers hs

theorem liveAgain_alone (hs : s.inReset = false) (hh : s.hif.held = []) (hf : s.hif.flow = []) (hr : s.runs d = true)
    (hd : d ∈ s.hif.dead) : Answers (exec (.domainLiveAgain d) s) fun t =>
      t.hif.dead = s.hif.dead.erase d ∧ s.sameBut t [] ∧ s.sameParts t [.hif] := by
  show Answers (done s (s.liveAgain d)) _
  unfold State.liveAgain
  rw [if_pos ⟨List.contains_iff_mem.2 hd, hr⟩, resumeHeld_waits]
  · refine Answers.ofChanges (A := (· ∈ ([] : List Nat))) (ps := [.hif]) hs (by simp) fun u L C => ⟨?_, C.sameBut, C.parts⟩
    rw [L.hif]
  · exact hf
  · show (s.hif.held.filter posted).length < 16
    rw [hh]
    decide
  · intro y hy
    have hy : y ∈ s.hif.held := hy
    rw [hh] at hy
    cases hy

theorem liveAgain_still (hs : s.inReset = false) (h : s.runs d = false ∨ d ∉ s.hif.dead) :
    Answers (exec (.domainLiveAgain d) s) fun t => s.sameBut t [] ∧ s.sameParts t [] := by
  refine Answers.still hs (if_neg fun ⟨h1, h2⟩ => ?_)
  rcases h with h | h
  · cases h.symm.trans h2
  · exact h (List.contains_iff_mem.1 h1)

/-! ### A crossing is reset -/

theorem crossingNote_count : (s.crossingNote n b).g R.HIF_XRESET_COUNT F.HIF_XRESET_COUNT_COUNT =
    min (s.g R.HIF_XRESET_COUNT F.HIF_XRESET_COUNT_COUNT + 1) 65535 := by
  unfold State.crossingNote
  rw [State.g, State.reg_note, State.reg_raw, if_neg (by decide)]
  exact State.g_inc (by decide)

theorem crossingNote_set : (s.crossingNote n b).isSet R.HIF_RAW F.HIF_RAW_XRESET := by
  unfold State.crossingNote
  exact (congrArg _ State.reg_note).trans (State.isSet_raw (by decide) rfl)

theorem crossingNote_hif : (s.crossingNote n b).hif = s.hif := by
  unfold State.crossingNote
  rw [State.note_hif, State.raw_hif, State.inc_hif]

/-- The register of a crossing's resets. -/
abbrev xresetReg (a : Nat) : Prop := a ∈ [R.HIF_XRESET_COUNT]

theorem Changes.crossingNote : Changes xresetReg [] s (s.crossingNote n b) := by
  unfold State.crossingNote
  simp

/-- The accesses that a reset of the crossing of block `n` loses. -/
def State.discards (s : State) (n : Nat) : State :=
  [Src.f0, .f1, .i2c, .boot].foldl (fun (s : State) (src : Src) => s.discardCrossing n src) s

/-- What is answered at the reset of a crossing, when every access that it leaves goes on waiting. -/
theorem crossingAnswers {t : State} (hs : s.inReset = false) (ht : s.discards n = t) (C : Changes xresetReg ps s t)
    (hc : t.g R.HIF_XRESET_COUNT F.HIF_XRESET_COUNT_COUNT = s.g R.HIF_XRESET_COUNT F.HIF_XRESET_COUNT_COUNT)
    (hf : t.hif.flow = []) (hl : (t.hif.held.filter posted).length < 16) (hw : ∀ y ∈ t.hif.held, t.waits y) :
    Answers (done s (s.crossingReset n b)) fun u =>
      u.g R.HIF_XRESET_COUNT F.HIF_XRESET_COUNT_COUNT = min (s.g R.HIF_XRESET_COUNT F.HIF_XRESET_COUNT_COUNT + 1) 65535 ∧
      u.isSet R.HIF_RAW F.HIF_RAW_XRESET ∧ u.hif.held = t.hif.held ∧ s.sameBut u [R.HIF_XRESET_COUNT] ∧ s.sameParts u ps := by
  have N : Changes xresetReg [] t (t.crossingNote n b) := .crossingNote
  have hg : (t.crossingNote n b).gated = t.gated := N.parts .gated (by simp)
  have hr : (t.crossingNote n b).resumeHeld = t.crossingNote n b := by
    refine resumeHeld_waits ?_ ?_ fun y hy => ?_
    · rwa [crossingNote_hif]
    · rwa [crossingNote_hif]
    · rw [crossingNote_hif] at hy
      obtain ⟨h1, h2, h3⟩ := hw y hy
      refine ⟨?_, ?_, h3⟩
      · unfold State.runs
        rw [hg]
        exact h1
      · rwa [crossingNote_hif]
  show Answers (done s (((s.discards n).crossingNote n b).resumeHeld)) _
  rw [ht, hr]
  refine Answers.ofChanges hs (C.trans (N.mono (fun _ h => h) (by simp))) fun u L K => ⟨?_, ?_, ?_, K.sameBut, K.parts⟩
  · rw [L.g (by decide), crossingNote_count, hc]
  · exact L.isSet (by decide) (by decide) rfl crossingNote_set
  · rw [L.hif, crossingNote_hif]

theorem firstHeld_mem (h : s.firstHeld src = some x) : x ∈ s.hif.held := List.mem_of_find?_eq_some h

theorem discardCrossing_still (h : ∀ x ∈ s.hif.held, x.block ≠ n) : s.discardCrossing n src = s := by
  unfold State.discardCrossing State.crossing
  split
  · next x hx => rw [if_neg (h x (firstHeld_mem hx))]
  · rfl

theorem discards_still (h : ∀ x ∈ s.hif.held, x.block ≠ n) : s.discards n = s := by
  unfold State.discards
  simp only [List.foldl_cons, List.foldl_nil, discardCrossing_still h]

theorem discards_one (hh : s.hif.held = [x]) (hx : x.block = n) : s.discards n = { s with hif := { s.hif with held := [] } } := by
  have h1 (src : Src) (h : src ≠ x.src) : s.discardCrossing n src = s := by
    unfold State.discardCrossing State.crossing State.firstHeld
    rw [hh, List.find?_singleton, decide_eq_false (Ne.symm h)]
    rfl
  have h2 : s.discardCrossing n x.src = { s with hif := { s.hif with held := [] } } := by
    unfold State.discardCrossing State.crossing State.firstHeld
    simp only [hh, List.find?_singleton, decide_true, if_true, hx, List.erase_cons_head]
  have h3 (src : Src) : State.discardCrossing { s with hif := { s.hif with held := [] } } n src = { s with hif := { s.hif with held := [] } } :=
    discardCrossing_still fun y hy => by cases hy
  unfold State.discards
  simp only [List.foldl_cons, List.foldl_nil]
  cases he : x.src with
  | f0 => rw [he] at h2; simp only [h2, h3]
  | f1 => rw [he] at h1 h2; simp only [h1 .f0 (by decide), h2, h3]
  | i2c => rw [he] at h1 h2; simp only [h1 .f0 (by decide), h1 .f1 (by decide), h2, h3]
  | boot => rw [he] at h1 h2; simp only [h1 .f0 (by decide), h1 .f1 (by decide), h1 .i2c (by decide), h2]

theorem crossingReset_waits (hs : s.inReset = false) (hb : ∀ x ∈ s.hif.held, x.block ≠ n) (hf : s.hif.flow = [])
    (hl : (s.hif.held.filter posted).length < 16) (hw : ∀ y ∈ s.hif.held, s.waits y) :
    Answers (done s (s.crossingReset n b)) fun t =>
      t.g R.HIF_XRESET_COUNT F.HIF_XRESET_COUNT_COUNT = min (s.g R.HIF_XRESET_COUNT F.HIF_XRESET_COUNT_COUNT + 1) 65535 ∧
      t.isSet R.HIF_RAW F.HIF_RAW_XRESET ∧ s.sameBut t [R.HIF_XRESET_COUNT] ∧ s.sameParts t [] := by
  obtain ⟨u, e, h1, h2, -, h4, h5⟩ := crossingAnswers (ps := []) (b := b) hs (discards_still hb) .refl rfl hf hl hw
  exact ⟨u, e, h1, h2, h4, h5⟩

theorem crossingReset_discards (hs : s.inReset = false) (hh : s.hif.held = [x]) (hx : x.block = n) (hf : s.hif.flow = []) :
    Answers (done s (s.crossingReset n b)) fun t =>
      t.g R.HIF_XRESET_COUNT F.HIF_XRESET_COUNT_COUNT = min (s.g R.HIF_XRESET_COUNT F.HIF_XRESET_COUNT_COUNT + 1) 65535 ∧
      t.isSet R.HIF_RAW F.HIF_RAW_XRESET ∧ t.hif.held = [] ∧ s.sameBut t [R.HIF_XRESET_COUNT] ∧ s.sameParts t [.hif] :=
  crossingAnswers hs (discards_one hh hx) (by simp) rfl hf (by show (0 : Nat) < 16; decide) fun y hy => by cases hy

end Sys2Proof.Machine
end

section

/-! ## The PCIe resets (R24, R43) -/

set_option Elab.async false

namespace Sys2Proof.Machine

variable {A : Nat → Prop} {ps : List Part} {s t u : State} {x : Access} {src : Src} {n a : Nat} {l : List Src}

/-! ### Accesses of a function that is reset -/

theorem firstHeld_src (h : s.firstHeld src = some x) : decide (x.src = src) = true := by
  unfold State.firstHeld at h
  simpa using List.find?_some h

/-- The state with host interface `h`. -/
def State.setHif (s : State) (h : Hif) : State := { s with hif := h }

theorem reg_setHif {h : Hif} : (s.setHif h).reg a = s.reg a := rfl

theorem g_setHif {h : Hif} {f : Fld} : (s.setHif h).g a f = s.g a f := rfl

theorem hif_setHif {h : Hif} : (s.setHif h).hif = h := rfl

theorem Changes.setHif {h : Hif} (hp : .hif ∈ ps) : Changes A ps s (s.setHif h) := by
  unfold State.setHif
  simp [hp]

/-- The state without waiting accesses of `src`. -/
def State.without (s : State) (src : Src) : State :=
  s.waiting (s.hif.held.filter fun x => decide (x.src ≠ src)) (s.hif.flow.filter fun x => decide (x.src ≠ src))

/-- A crossing holds an access of `src`. -/
def State.crosses (s : State) (src : Src) : Bool := s.hif.held.any fun y => decide (y.src = src)

theorem interruptFn_eq : (s.crosses src = true ∧ ∃ n, s.interruptFn src = (s.without src).crossingNote n false) ∨
    (s.crosses src = false ∧ s.interruptFn src = s.without src) := by
  unfold State.interruptFn State.crossing State.crosses
  cases h : s.firstHeld src with
  | none =>
    refine .inr ⟨?_, rfl⟩
    rw [List.any_eq_false]
    exact fun y hy => List.find?_eq_none.1 h y hy
  | some x => exact .inl ⟨List.any_eq_true.2 ⟨x, firstHeld_mem h, firstHeld_src h⟩, _, rfl⟩

theorem interruptFn_hif : (s.interruptFn src).hif = (s.without src).hif := by
  rcases interruptFn_eq (s := s) (src := src) with ⟨-, n, e⟩ | ⟨-, e⟩
  · rw [e, crossingNote_hif]
  · rw [e]

theorem interruptFn_count : (s.interruptFn src).g R.HIF_XRESET_COUNT F.HIF_XRESET_COUNT_COUNT =
    min (s.g R.HIF_XRESET_COUNT F.HIF_XRESET_COUNT_COUNT + b2n (s.crosses src)) 65535 := by
  rcases interruptFn_eq (s := s) (src := src) with ⟨h, n, e⟩ | ⟨h, e⟩
  · rw [e, h, crossingNote_count]
    rfl
  · have hl : s.g R.HIF_XRESET_COUNT F.HIF_XRESET_COUNT_COUNT < 65536 := Fld.get_lt _ _
    rw [e, h]
    exact (Nat.min_eq_left (Nat.le_of_lt_succ hl)).symm

theorem interruptFn_set (h : s.crosses src = true) : (s.interruptFn src).isSet R.HIF_RAW F.HIF_RAW_XRESET := by
  rcases interruptFn_eq (s := s) (src := src) with ⟨-, n, e⟩ | ⟨k, -⟩
  · rw [e]
    exact crossingNote_set
  · cases h.symm.trans k

theorem Changes.without (h : .hif ∈ ps) : Changes A ps s (s.without src) := by
  unfold State.without State.waiting
  simp [h]

theorem Changes.interruptFn : Changes xresetReg [.hif] s (s.interruptFn src) := by
  rcases interruptFn_eq (s := s) (src := src) with ⟨-, n, e⟩ | ⟨-, e⟩
  · rw [e]
    exact .trans (.without (by simp)) (Changes.crossingNote.mono (fun _ h => h) (by simp))
  · rw [e]
    exact .without (by simp)

theorem KeepsBits.interruptFn : KeepsBits R.HIF_RAW s (s.interruptFn src) := by
  rcases interruptFn_eq (s := s) (src := src) with ⟨-, n, e⟩ | ⟨-, e⟩
  · rw [e]
    unfold State.crossingNote
    refine .trans (.ofReg ?_) (.trans (.raw (by decide) rfl) (.ofReg State.reg_note))
    rw [State.reg_inc, if_neg (by decide)]
    rfl
  · rw [e]
    exact .refl

/-! ### The MSI-X table -/

theorem resetMsix_hif : s.resetMsix.hif = s.hif := by
  unfold State.resetMsix
  rw [State.setRegN_hif, hif_fold fun t p => State.setReg_hif ..]

theorem resetMsix_reg (h : a < 0x8000 ∨ 0x8160 ≤ a) (h' : a ≠ 0x9000) : s.resetMsix.reg a = s.reg a := by
  unfold State.resetMsix
  rw [State.reg_setRegN, if_neg h', reg_foldl_mem fun t i hi => ?_]
  have := List.mem_range.1 hi
  rw [State.reg_setReg, if_neg (by omega)]

theorem resetMsix_pending : s.resetMsix.reg 0x9000 = 0#32 := State.reg_setReg_same ..

theorem resetMsix_table (i : Fin 88) : s.resetMsix.reg (0x8000 + 4 * i) = regReset (0x8000 + 4 * i) := by
  have key : ∀ (l : List Nat) (t : State), i.val ∈ l →
      (l.foldl (fun s i => s.setReg (0x8000 + 4 * i) (regReset (0x8000 + 4 * i))) t).reg (0x8000 + 4 * i) = regReset (0x8000 + 4 * i) := by
    intro l
    induction l using List.reverseRecOn with
    | nil => exact fun _ h => by cases h
    | append_singleton l j ih =>
      intro t h
      rw [List.foldl_append, List.foldl_cons, List.foldl_nil, State.reg_setReg]
      by_cases hj : i.val = j
      · rw [if_pos (by omega), hj]
      · rw [if_neg (by omega)]
        exact ih t ((List.mem_append.1 h).resolve_right fun k => hj (List.mem_singleton.1 k))
  unfold State.resetMsix
  rw [State.reg_setRegN, if_neg (by omega)]
  exact key _ _ (List.mem_range.2 i.isLt)

/-- The registers of a PCIe reset. -/
def pcieSpan (l : List (Nat × Nat)) (a : Nat) : Prop :=
  ∃ r ∈ (0x8000, 0x8160) :: (R.HIF_XRESET_COUNT, R.HIF_XRESET_COUNT + 4) :: l, r.1 ≤ a ∧ a < r.2

theorem Changes.resetMsix {l : List (Nat × Nat)} : Changes (pcieSpan l) ps s s.resetMsix := by
  have C : Changes (fun _ => True) ps s s.resetMsix := by
    unfold State.resetMsix
    simp
  refine ⟨fun a ha hn => resetMsix_reg ?_ fun e => ?_, C.parts⟩
  · by_contra hc
    exact hn ⟨(0x8000, 0x8160), List.mem_cons_self .., by omega⟩
  · rw [e] at ha
    exact absurd ha (by decide)

theorem pcieSpan_xreset {l : List (Nat × Nat)} (h : xresetReg a) : pcieSpan l a := by
  cases List.mem_singleton.1 h
  exact ⟨(R.HIF_XRESET_COUNT, R.HIF_XRESET_COUNT + 4), by simp, by decide⟩

/-! ### A reset of both functions -/

/-- The registers and the accesses of a reset of both functions. -/
def State.pcieCleared (s : State) : State := ((s.interruptFn .f0).interruptFn .f1).resetMsix

theorem pcieReset_eq : s.pcieReset = s.pcieCleared.setHif { s.pcieCleared.hif with fn0 := PciFn.f0, fn1 := PciFn.f1 } := rfl

theorem pcieReset_reg (h : a < 0x8000 ∨ 0x8160 ≤ a) (h' : a ≠ 0x9000) :
    s.pcieReset.reg a = ((s.interruptFn .f0).interruptFn .f1).reg a := by
  rw [pcieReset_eq, reg_setHif]
  exact resetMsix_reg h h'

theorem pcieReset_table (i : Fin 88) : s.pcieReset.reg (0x8000 + 4 * i) = regReset (0x8000 + 4 * i) := by
  rw [pcieReset_eq, reg_setHif]
  exact resetMsix_table i

/-- The reset of both functions leaves the two configuration spaces, and no access of theirs. -/
theorem pcieReset_hif : s.pcieReset.hif = { s.hif with
    held := s.hif.held.filter (fun y : Access => decide (y.src ≠ Src.f0) && decide (y.src ≠ Src.f1))
    flow := s.hif.flow.filter (fun y : Access => decide (y.src ≠ Src.f0) && decide (y.src ≠ Src.f1))
    fn0 := PciFn.f0
    fn1 := PciFn.f1 } := by
  have h : s.pcieCleared.hif = ((s.without .f0).without .f1).hif := by
    unfold State.pcieCleared
    rw [resetMsix_hif, interruptFn_hif]
    unfold State.without State.waiting
    simp only [interruptFn_hif]
    rfl
  rw [pcieReset_eq, hif_setHif, h]
  simp only [State.without, State.waiting, List.filter_filter, Bool.and_comm]

theorem crosses_interruptFn : (s.interruptFn .f0).crosses .f1 = s.crosses .f1 := by
  unfold State.crosses
  rw [interruptFn_hif]
  show (s.hif.held.filter _).any _ = _
  rw [List.any_filter]
  congr 1
  funext y
  cases y.src <;> rfl

theorem pcieReset_count : s.pcieReset.g R.HIF_XRESET_COUNT F.HIF_XRESET_COUNT_COUNT =
    min (s.g R.HIF_XRESET_COUNT F.HIF_XRESET_COUNT_COUNT + b2n (s.crosses .f0) + b2n (s.crosses .f1)) 65535 := by
  have h : s.pcieReset.g R.HIF_XRESET_COUNT F.HIF_XRESET_COUNT_COUNT =
      ((s.interruptFn .f0).interruptFn .f1).g R.HIF_XRESET_COUNT F.HIF_XRESET_COUNT_COUNT :=
    congrArg F.HIF_XRESET_COUNT_COUNT.get (pcieReset_reg (.inl (by decide)) (by decide))
  rw [h, interruptFn_count, interruptFn_count, crosses_interruptFn]
  omega

theorem Changes.pcieReset : Changes (pcieSpan []) [.hif] s s.pcieReset := by
  have C : Changes (pcieSpan []) [.hif] s s.pcieCleared :=
    ((Changes.interruptFn.trans .interruptFn).mono (fun _ => pcieSpan_xreset) (fun _ h => h)).trans .resetMsix
  rw [pcieReset_eq]
  exact C.trans (.setHif (by simp))

theorem KeepsBits.pcieReset : KeepsBits R.HIF_RAW s s.pcieReset :=
  .trans .interruptFn (.trans .interruptFn (.ofReg (pcieReset_reg (.inl (by decide)) (by decide))))

theorem sharedReg_msix (i : Fin 88) : sharedReg (0x8000 + 4 * i) = false := by revert i; decide

theorem pcieReset_answers (hs : s.inReset = false) : Answers (exec (.pcieReset) s) fun t =>
      (∀ i : Fin 88, t.reg (0x8000 + 4 * i) = regReset (0x8000 + 4 * i)) ∧
      t.hif.held = s.hif.held.filter (fun y : Access => decide (y.src ≠ Src.f0) && decide (y.src ≠ Src.f1)) ∧
      t.hif.flow = s.hif.flow.filter (fun y : Access => decide (y.src ≠ Src.f0) && decide (y.src ≠ Src.f1)) ∧
      t.g R.HIF_XRESET_COUNT F.HIF_XRESET_COUNT_COUNT = min (s.g R.HIF_XRESET_COUNT F.HIF_XRESET_COUNT_COUNT + b2n
        (s.hif.held.any (fun y : Access => decide (y.src = Src.f0))) + b2n (s.hif.held.any (fun y : Access => decide
        (y.src = Src.f1)))) 65535 ∧
      t.hif.fn0 = PciFn.f0 ∧ t.hif.fn1 = PciFn.f1 ∧
      s.sameBeyond t [(0x8000, 0x8160), (R.HIF_XRESET_COUNT, R.HIF_XRESET_COUNT + 4)] ∧ s.sameParts t [.hif] :=
  Answers.ofChanges hs .pcieReset fun u L C =>
    ⟨fun i => (L.reg _ (sharedReg_msix i)).trans (pcieReset_table i), by rw [L.hif, pcieReset_hif], by rw [L.hif, pcieReset_hif],
      (L.g (by decide) _).trans pcieReset_count, by rw [L.hif, pcieReset_hif], by rw [L.hif, pcieReset_hif], C.sameBeyond, C.parts⟩

theorem linkDown_answers (hs : s.inReset = false) : Answers (exec (.pcieLinkDown) s) fun t =>
      (∀ i : Fin 88, t.reg (0x8000 + 4 * i) = regReset (0x8000 + 4 * i)) ∧
      t.hif.held = s.hif.held.filter (fun y : Access => decide (y.src ≠ Src.f0) && decide (y.src ≠ Src.f1)) ∧
      t.hif.flow = s.hif.flow.filter (fun y : Access => decide (y.src ≠ Src.f0) && decide (y.src ≠ Src.f1)) ∧
      t.g R.HIF_XRESET_COUNT F.HIF_XRESET_COUNT_COUNT = min (s.g R.HIF_XRESET_COUNT F.HIF_XRESET_COUNT_COUNT + b2n
        (s.hif.held.any (fun y : Access => decide (y.src = Src.f0))) + b2n (s.hif.held.any (fun y : Access => decide
        (y.src = Src.f1)))) 65535 ∧
      t.hif.fn0 = PciFn.f0 ∧ t.hif.fn1 = PciFn.f1 ∧ t.isSet R.HIF_RAW F.HIF_RAW_LINK_DOWN ∧
      s.sameBeyond t [(0x8000, 0x8160), (R.HIF_XRESET_COUNT, R.HIF_XRESET_COUNT + 4)] ∧ s.sameParts t [.hif] := by
  show Answers (done s (s.raw R.HIF_RAW F.HIF_RAW_LINK_DOWN).pcieReset) _
  have hh : (s.raw R.HIF_RAW F.HIF_RAW_LINK_DOWN).hif = s.hif := State.raw_hif
  have hc : ∀ src, (s.raw R.HIF_RAW F.HIF_RAW_LINK_DOWN).crosses src = s.crosses src := fun src => by
    unfold State.crosses
    rw [hh]
  have hn : (s.raw R.HIF_RAW F.HIF_RAW_LINK_DOWN).g R.HIF_XRESET_COUNT F.HIF_XRESET_COUNT_COUNT =
      s.g R.HIF_XRESET_COUNT F.HIF_XRESET_COUNT_COUNT := by
    rw [State.g, State.reg_raw, if_neg (by decide)]
    rfl
  have hp := pcieReset_hif (s := s.raw R.HIF_RAW F.HIF_RAW_LINK_DOWN)
  rw [hh] at hp
  have hk := pcieReset_count (s := s.raw R.HIF_RAW F.HIF_RAW_LINK_DOWN)
  rw [hc, hc, hn] at hk
  exact Answers.ofChanges hs (.trans ((Changes.raw_iff (by decide)).2 .refl) .pcieReset) fun u L C =>
    ⟨fun i => (L.reg _ (sharedReg_msix i)).trans (pcieReset_table i), by rw [L.hif, hp], by rw [L.hif, hp],
      (L.g (by decide) _).trans hk, by rw [L.hif, hp], by rw [L.hif, hp],
      L.isSet (by decide) (by decide) rfl (KeepsBits.pcieReset.isSet (by decide) rfl (State.isSet_raw (by decide) rfl)), C.sameBeyond, C.parts⟩

/-! ### A reset of one function -/

theorem flrF1_answers (hs : s.inReset = false) : Answers (exec (.functionLevelResetF1) s) fun t =>
      t.hif =
        { s.hif with fq := t.hif.fq, fn1 := PciFn.f1, held := s.hif.held.filter (fun y : Access => decide (y.src ≠ Src.f1)), flow := s.hif.flow.filter (fun y : Access => decide (y.src ≠ Src.f1)) } ∧
      t.g R.HIF_XRESET_COUNT F.HIF_XRESET_COUNT_COUNT = min (s.g R.HIF_XRESET_COUNT F.HIF_XRESET_COUNT_COUNT + b2n
        (s.hif.held.any (fun y : Access => decide (y.src = Src.f1)))) 65535 ∧
      (s.hif.held.any (fun y : Access => decide (y.src = Src.f1)) = true → t.isSet R.HIF_RAW F.HIF_RAW_XRESET) ∧
      s.sameBut t [R.HIF_XRESET_COUNT] ∧ s.sameParts t [.hif] := by
  have e : s.flrF1 = (s.interruptFn .f1).setHif { (s.interruptFn .f1).hif with fn1 := PciFn.f1 } := rfl
  show Answers (done s s.flrF1) _
  rw [e]
  refine Answers.ofChanges (A := xresetReg) (ps := [.hif]) hs (Changes.interruptFn.trans (.setHif (by simp))) fun u L C =>
    ⟨?_, (L.g (by decide) _).trans interruptFn_count, fun h => L.isSet (by decide) (by decide) rfl (interruptFn_set h), C.sameBut, C.parts⟩
  rw [L.hif, hif_setHif, interruptFn_hif]
  rfl

/-- The rings are stopped. -/
def State.ringsStopped (s : State) : State := (List.range 3).foldl State.stopRing s

theorem ringsStopped_hif : s.ringsStopped.hif = s.hif := by
  unfold State.ringsStopped
  exact hif_fold fun t k => (State.p_hif ..).trans (State.p_hif ..)

theorem ringsStopped_reg (h : ∀ k < 3, a ≠ R.HIF_DMAk_CTRL k ∧ a ≠ R.HIF_DMAk_STATUS k) : s.ringsStopped.reg a = s.reg a := by
  unfold State.ringsStopped
  refine reg_foldl_mem fun t k hk => ?_
  obtain ⟨h1, h2⟩ := h k (List.mem_range.1 hk)
  rw [State.stopRing, State.reg_p, if_neg h2, State.reg_p, if_neg h1]

theorem ringsStopped_stopped (k : Fin 3) : s.ringsStopped.g (R.HIF_DMAk_CTRL k) F.HIF_DMAk_CTRL_ENABLE = 0 ∧
    s.ringsStopped.g (R.HIF_DMAk_STATUS k) F.HIF_DMAk_STATUS_RUNNING = 0 := by
  have e : s.ringsStopped = ((s.stopRing 0).stopRing 1).stopRing 2 := rfl
  rw [e]
  unfold State.g State.stopRing
  fin_cases k <;> constructor <;> simp [R.HIF_DMAk_CTRL, R.HIF_DMAk_STATUS, Fld.get_put]

/-- What a reset of F0 leaves before the MSI-X table is reset. -/
def State.f0Cleared (s : State) : State :=
  ((s.interruptFn .f0).ringsStopped.setHif { (s.interruptFn .f0).ringsStopped.hif with waitMsg := [], fn0 := PciFn.f0 }).setRegN R.HIF_IRQ_EN 0

theorem flrF0_eq : s.flrF0 = s.f0Cleared.resetMsix := rfl

theorem f0Cleared_reg (h : a ≠ R.HIF_IRQ_EN) : s.f0Cleared.reg a = (s.interruptFn .f0).ringsStopped.reg a := by
  rw [State.f0Cleared, State.reg_setRegN, if_neg h, reg_setHif]

theorem f0Cleared_hif : s.f0Cleared.hif = { (s.without .f0).hif with waitMsg := [], fn0 := PciFn.f0 } := by
  rw [State.f0Cleared, State.setRegN_hif, hif_setHif, ringsStopped_hif, interruptFn_hif]

/-- The registers of a reset of F0. -/
abbrev f0Span : Nat → Prop := pcieSpan [(R.HIF_DMAk_BASE_LO 0, 0x1C0), (R.HIF_IRQ_EN, R.HIF_IRQ_EN + 4)]

theorem f0Span_ring (h1 : 0x100 ≤ a) (h2 : a < 0x1C0) : f0Span a := ⟨(R.HIF_DMAk_BASE_LO 0, 0x1C0), by simp, h1, h2⟩

theorem Changes.ringsStopped : Changes f0Span ps s s.ringsStopped := by
  unfold State.ringsStopped
  refine (Changes.foldl_mem_iff fun t k hk => ?_).2 .refl
  have := List.mem_range.1 hk
  have h1 : f0Span (R.HIF_DMAk_CTRL k) := f0Span_ring (by simp only [R.HIF_DMAk_CTRL]; omega) (by simp only [R.HIF_DMAk_CTRL]; omega)
  have h2 : f0Span (R.HIF_DMAk_STATUS k) := f0Span_ring (by simp only [R.HIF_DMAk_STATUS]; omega) (by simp only [R.HIF_DMAk_STATUS]; omega)
  unfold State.stopRing
  rw [Changes.p_iff h2, Changes.p_iff h1]

theorem Changes.flrF0 : Changes f0Span [.hif] s s.flrF0 := by
  have h : f0Span R.HIF_IRQ_EN := ⟨(R.HIF_IRQ_EN, R.HIF_IRQ_EN + 4), by simp, by decide⟩
  rw [flrF0_eq]
  refine .trans ?_ .resetMsix
  exact (Changes.setRegN_iff h).2 (.trans (.trans (Changes.interruptFn.mono (fun _ => pcieSpan_xreset) (fun _ h => h)) .ringsStopped)
    (.setHif (by simp)))

/-- With no interrupt enabled the end of a clock leaves the pending bits. -/
theorem endClock_pending (h : t.reg R.HIF_IRQ_EN = 0#32) : (endClock s t).reg 0x9000 = t.reg 0x9000 := by
  have hr (a : Nat) (ha : recReg a = false) : (t.clockRecs.applyConds).reg a = t.reg a := by
    rw [reg_applyConds ha, reg_clockRecs ha]
  have hl : (t.clockRecs.applyConds).levels = 0 := by
    have he : (t.clockRecs.applyConds).g R.HIF_IRQ_EN F.HIF_IRQ_EN_EN = 0 := by
      rw [State.g, hr _ (by decide), h]
      decide
    unfold State.levels
    exact if_pos he
  unfold endClock State.signalRises
  simp only [hl, if_true]
  exact hr _ (by decide)

theorem flrF0_answers (hs : s.inReset = false) : Answers (exec (.functionLevelResetF0) s) fun t =>
      (∀ k : Fin 3, t.g (R.HIF_DMAk_CTRL k) F.HIF_DMAk_CTRL_ENABLE = 0 ∧ t.g (R.HIF_DMAk_STATUS k)
        F.HIF_DMAk_STATUS_RUNNING = 0) ∧
      t.reg R.HIF_IRQ_EN = 0#32 ∧ t.reg 0x9000 = 0#32 ∧ t.hif.waitMsg = [] ∧
      t.hif.held = s.hif.held.filter (fun y : Access => decide (y.src ≠ Src.f0)) ∧
      t.g R.HIF_XRESET_COUNT F.HIF_XRESET_COUNT_COUNT = min (s.g R.HIF_XRESET_COUNT F.HIF_XRESET_COUNT_COUNT + b2n
        (s.hif.held.any (fun y : Access => decide (y.src = Src.f0)))) 65535 ∧
      s.sameBeyond t [(0x8000, 0x8160), (R.HIF_XRESET_COUNT, R.HIF_XRESET_COUNT + 4), (R.HIF_DMAk_BASE_LO 0, 0x1C0),
        (R.HIF_IRQ_EN, R.HIF_IRQ_EN + 4)] ∧
      s.sameParts t [.hif] := by
  have L : Logs s.flrF0 (endClock s s.flrF0) := (Logs.refl _).endClock
  have C : Changes f0Span [.hif] s (endClock s s.flrF0) := Changes.flrF0.trans (.ofLogs L)
  have hq : s.flrF0.reg R.HIF_IRQ_EN = 0#32 := by
    rw [flrF0_eq, resetMsix_reg (.inl (by decide)) (by decide), State.f0Cleared, State.reg_setRegN, if_pos rfl]
  have hr (k : Fin 3) : s.flrF0.reg (R.HIF_DMAk_CTRL k) = (s.interruptFn .f0).ringsStopped.reg (R.HIF_DMAk_CTRL k) ∧
      s.flrF0.reg (R.HIF_DMAk_STATUS k) = (s.interruptFn .f0).ringsStopped.reg (R.HIF_DMAk_STATUS k) := by
    rw [flrF0_eq]
    constructor
    · rw [resetMsix_reg, f0Cleared_reg]
      all_goals simp only [R.HIF_DMAk_CTRL, R.HIF_IRQ_EN]
      all_goals omega
    · rw [resetMsix_reg, f0Cleared_reg]
      all_goals simp only [R.HIF_DMAk_STATUS, R.HIF_IRQ_EN]
      all_goals omega
  have hx : s.flrF0.reg R.HIF_XRESET_COUNT = (s.interruptFn .f0).reg R.HIF_XRESET_COUNT := by
    rw [flrF0_eq, resetMsix_reg (.inl (by decide)) (by decide), f0Cleared_reg (by decide), ringsStopped_reg fun k hk => ?_]
    simp only [R.HIF_XRESET_COUNT, R.HIF_DMAk_CTRL, R.HIF_DMAk_STATUS]
    omega
  have hh : s.flrF0.hif = { (s.without .f0).hif with waitMsg := [], fn0 := PciFn.f0 } := by
    rw [flrF0_eq, resetMsix_hif, f0Cleared_hif]
  have sh (k : Fin 3) : sharedReg (R.HIF_DMAk_CTRL k) = false ∧ sharedReg (R.HIF_DMAk_STATUS k) = false := by revert k; decide
  refine ⟨_, done_next hs, fun k => ⟨?_, ?_⟩, ?_, ?_, ?_, ?_, ?_, C.sameBeyond, C.parts⟩
  · exact (L.g (sh k).1 _).trans ((congrArg F.HIF_DMAk_CTRL_ENABLE.get (hr k).1).trans (ringsStopped_stopped k).1)
  · exact (L.g (sh k).2 _).trans ((congrArg F.HIF_DMAk_STATUS_RUNNING.get (hr k).2).trans (ringsStopped_stopped k).2)
  · exact (L.reg _ (by decide)).trans hq
  · exact (endClock_pending hq).trans resetMsix_pending
  · rw [L.hif, hh]
  · rw [L.hif, hh]
    rfl
  · exact (L.g (by decide) _).trans ((congrArg F.HIF_XRESET_COUNT_COUNT.get hx).trans interruptFn_count)

/-- Settles O31. A bus timeout and a crossing's reset leave the accesses that wait in their order; a reset of a function
takes away its accesses, and with no interrupt enabled the end of the clock sets no pending bit. -/
theorem crossingsAndTimeouts : Obligations.CrossingsAndTimeouts := by
  unfold Obligations.CrossingsAndTimeouts
  have alone {s : State} {x : Access} (h : s.hif.held = [x]) : s.firstHeld x.src = some x ∧ s.hif.held.erase x = [] ∧
      (s.hif.held.filter posted).length < 16 := by
    refine ⟨?_, ?_, ?_⟩
    · unfold State.firstHeld
      rw [h, List.find?_singleton, decide_eq_true rfl]
      rfl
    · rw [h, List.erase_cons_head]
    · rw [h]
      exact Nat.lt_of_le_of_lt (List.length_filter_le ..) (by simp)
  refine ⟨fun s x hs hb hh hf hw => ?_, fun s x hs hb hh hf hw => ?_,
    fun s x hs hb hx hf hl h hw => busTimeout_answers hs hb hx hf hl
      (fun y hy => let ⟨h1, h2, h3, h4⟩ := h y hy; ⟨⟨h1, h2, h3⟩, h4⟩) fun _ k1 k2 k3 k4 k5 k6 k7 k8 => ⟨k1, k2, k3, k4, k5, k6 hw, k7, k8⟩,
    fun s x hs hb hx hf hl h hw => busTimeout_answers hs hb hx hf hl
      (fun y hy => let ⟨h1, h2, h3, h4⟩ := h y hy; ⟨⟨h1, h2, h3⟩, h4⟩) fun _ k1 k2 k3 k4 k5 _ k7 k8 => ⟨k1, k2, k3, k4, k5, k7, k8⟩,
    fun s x hs hb hx => ?_,
    fun _ _ hs h => busTimeout_still hs h, fun _ _ hs hh hf hr hd => liveAgain_alone hs hh hf hr hd,
    fun _ _ hs hr hd => liveAgain_answers hs hr hd, fun s b side hs hh hf => ?_,
    fun _ _ _ _ hs hh hx hf => crossingReset_discards hs hh hx hf,
    fun _ _ _ hs hb hf hl h => crossingReset_waits hs hb hf hl h, fun _ _ _ hs => sameAnswers hs,
    fun _ _ hs h => liveAgain_still hs h, fun _ hs => pcieReset_answers hs, fun _ hs => linkDown_answers hs,
    fun _ hs => flrF0_answers hs, fun _ hs => flrF1_answers hs⟩
  · obtain ⟨h1, h2, h3⟩ := alone hh
    exact busTimeout_answers hs hb h1 hf h3 (by rw [h2]; exact fun y hy => by cases hy)
      fun _ k1 k2 k3 k4 k5 k6 k7 k8 => ⟨k1, k2.trans h2, k3, k4, k5, k6 hw, k7, k8⟩
  · obtain ⟨h1, h2, h3⟩ := alone hh
    exact busTimeout_answers hs hb h1 hf h3 (by rw [h2]; exact fun y hy => by cases hy)
      fun _ k1 k2 k3 k4 k5 _ k7 k8 => ⟨k1, k2.trans h2, k3, k4, k5, k7, k8⟩
  · show Answers (done s (s.busTimeout x.src)) _
    rw [busTimeout_eq hb hx]
    exact sameAnswers hs
  · exact crossingReset_waits hs (by rw [hh]; exact fun y hy => by cases hy) hf (by rw [hh]; decide) (by rw [hh]; exact fun y hy => by cases hy)

end Sys2Proof.Machine
end

section

/-! ## Ember and main power (R138 to R146, R413 to R416) -/

set_option Elab.async false

namespace Sys2Proof.Machine

variable {A : Nat → Prop} {ps : List Part} {s t u : State} {a n c : Nat} {v : Word} {f : Fld} {b : Bool}

/-- A command that reaches the device in reset too. -/
theorem Answers.ofDoneAlways {P : State → Prop} (F : Changes A ps s t) (hP : ∀ u, Logs t u → Changes A ps s u → P u) :
    Answers (doneAlways s t) P := by
  cases h : t.inReset
  · rw [doneAlways_next h]
    exact ⟨_, rfl, hP _ (.endClock (.refl t)) (F.logs (.endClock (.refl t)))⟩
  · rw [doneAlways_inReset h]
    exact ⟨_, rfl, hP _ (.refl t) F⟩

/-! ### The flags and the count of Ember -/

@[simp] theorem Changes.emberFlag_iff (h : A R.HLD_EMB_STATUS) : Changes A ps s (t.emberFlag f b) ↔ Changes A ps s t :=
  Changes.pb_iff h

@[simp] theorem State.reg_emberFlag : (s.emberFlag f b).reg a =
    if a = R.HLD_EMB_STATUS then f.put (s.reg R.HLD_EMB_STATUS) (b2n b) else s.reg a := State.reg_pb

@[simp] theorem Changes.emberLost_iff (h : A R.HLD_EMB_STATUS) : Changes A ps s t.emberLost ↔ Changes A ps s t := by
  unfold State.emberLost
  simp [h]

@[simp] theorem State.reg_emberLost (h : a ≠ R.HLD_EMB_STATUS) : s.emberLost.reg a = s.reg a := by
  unfold State.emberLost
  simp [h]

theorem valid_emberLost : s.emberLost.g R.HLD_EMB_STATUS F.HLD_EMB_STATUS_VALID = 0 := by
  simp [State.emberLost, State.g, Fld.get_put, Fld.get_put_ne, b2n]

theorem lost_emberLost : s.emberLost.g R.HLD_EMB_STATUS F.HLD_EMB_STATUS_LOST = 1 := by
  simp [State.emberLost, State.g, Fld.get_put, b2n]

/-- Ember's time depends on its two words alone. -/
theorem emberTime_congr (h : t.pair R.HLD_EMB_TIME_LO = s.pair R.HLD_EMB_TIME_LO) : t.emberTime = s.emberTime := by
  unfold State.emberTime
  rw [h]

theorem emberTime_of_pair {m : Nat} (h : s.pair R.HLD_EMB_TIME_LO = n * 2 ^ 15 + m) (hm : m < 2 ^ 15) : s.emberTime = (n, m) := by
  unfold State.emberTime
  rw [h]
  exact Prod.ext (by dsimp only; omega) (by dsimp only; omega)

variable (hs : s.inReset = false)

/-! ### Trim, resync and the commands of Ember (R141, R143) -/

include hs in
theorem ember_trim (hm : s.emberMaintained = true) : Answers (exec (.emberTrimUpdate n) s) fun t =>
    sx 12 (t.g R.HLD_EMB_TRIM F.HLD_EMB_TRIM_TRIM) =
      clampI (-2047) 2047 (sx 12 (s.g R.HLD_EMB_TRIM F.HLD_EMB_TRIM_TRIM) + (33554432 - (n : Int))) ∧
    s.sameBut t [R.HLD_EMB_TRIM] ∧ s.sameParts t [] := by
  show Answers (done s (s.trimUpdate n)) _
  rw [State.trimUpdate, if_pos hm]
  refine Answers.ofChanges (A := (· ∈ [R.HLD_EMB_TRIM])) (ps := []) hs (by simp) fun u L C => ⟨?_, C.sameBut, C.parts⟩
  rw [L.g (by decide), State.g, State.reg_p, if_pos rfl, Fld.get_put (by decide)]
  generalize sx 12 _ + _ = x
  have h : -2047 ≤ clampI (-2047) 2047 x ∧ clampI (-2047) 2047 x ≤ 2047 := by unfold clampI; omega
  generalize clampI (-2047) 2047 x = y at h
  simp only [sx, enc]
  omega

/-- Ember is loaded with `sec` seconds and `c` cycles. -/
def State.resynced (s : State) (sec c : Nat) : State :=
  let s := s.setEmberTime sec c
  let s := s.setHld { s.hld with resyncDue := false, emberAcc := 0 }
  ((s.emberFlag F.HLD_EMB_STATUS_VALID true).emberFlag F.HLD_EMB_STATUS_SYNCED true).emberFlag F.HLD_EMB_STATUS_LOST false

omit hs in
theorem resync_within (hm : s.emberMaintained = true)
    (hc : (2 * ((tNs s.now * 65536 + tFrac s.now) * 32768) + 65536000000000) / (2 * 65536000000000) < 32768) :
    s.resync = s.resynced (tSec s.now) ((2 * ((tNs s.now * 65536 + tFrac s.now) * 32768) + 65536000000000) / (2 * 65536000000000)) := by
  unfold State.resync State.resynced
  rw [if_pos hm]
  simp only [if_pos hc]

include hs in
theorem resyncedAnswers (hn : n < 2 ^ 48) (hc : c < 32768) : Answers (done s (s.resynced n c)) fun t =>
    t.emberTime = (n, c) ∧
    t.g R.HLD_EMB_STATUS F.HLD_EMB_STATUS_VALID = 1 ∧ t.g R.HLD_EMB_STATUS F.HLD_EMB_STATUS_SYNCED = 1 ∧
    t.g R.HLD_EMB_STATUS F.HLD_EMB_STATUS_LOST = 0 ∧
    s.sameBut t [R.HLD_EMB_TIME_LO, R.HLD_EMB_TIME_HI, R.HLD_EMB_STATUS] ∧ s.sameParts t [.hld] := by
  unfold State.resynced State.setEmberTime
  refine Answers.ofChanges (A := (· ∈ [R.HLD_EMB_TIME_LO, R.HLD_EMB_TIME_HI, R.HLD_EMB_STATUS])) (ps := [.hld]) hs
    (by simp) fun u L C => ⟨?_, ?_, ?_, ?_, C.sameBut, C.parts⟩
  · refine (emberTime_congr (L.pair (by decide) (by decide))).trans (emberTime_of_pair ?_ (by omega))
    rw [Nat.mod_eq_of_lt hn]
    refine (State.pair_congr (s := s.setPair R.HLD_EMB_TIME_LO (n * 2 ^ 15 + c)) ?_ ?_).trans (State.pair_setPair.trans (by omega))
    · simp
    · simp [show R.HLD_EMB_TIME_LO + 4 ≠ R.HLD_EMB_STATUS by decide]
  · exact (L.g (by decide) _).trans (by simp [State.g, Fld.get_put, Fld.get_put_ne, b2n])
  · exact (L.g (by decide) _).trans (by simp [State.g, Fld.get_put, Fld.get_put_ne, b2n])
  · exact (L.g (by decide) _).trans (by simp [State.g, Fld.get_put, b2n])

include hs in
theorem ember_resyncs (hm : s.emberMaintained = true)
    (hc : (2 * ((tNs s.now * 65536 + tFrac s.now) * 32768) + 65536000000000) / (2 * 65536000000000) < 32768) :
    Answers (exec (.emberResync true) s) fun t =>
      t.emberTime = (tSec s.now, (2 * ((tNs s.now * 65536 + tFrac s.now) * 32768) + 65536000000000) / (2 * 65536000000000)) ∧
      t.g R.HLD_EMB_STATUS F.HLD_EMB_STATUS_VALID = 1 ∧ t.g R.HLD_EMB_STATUS F.HLD_EMB_STATUS_SYNCED = 1 ∧
      t.g R.HLD_EMB_STATUS F.HLD_EMB_STATUS_LOST = 0 ∧
      s.sameBut t [R.HLD_EMB_TIME_LO, R.HLD_EMB_TIME_HI, R.HLD_EMB_STATUS] ∧ s.sameParts t [.hld] := by
  show Answers (done s (s.emberResync true)) _
  rw [State.emberResync, Bool.true_or, if_pos rfl, resync_within hm hc]
  exact resyncedAnswers hs (by unfold tSec; omega) hc

omit hs in
theorem act_embCtrl {old : Word} : s.act R.HLD_EMB_CTRL old v = s.embCtrlAct v := rfl

omit hs in
theorem embCtrlAct_resync (h : F.HLD_EMB_CTRL_INVALIDATE.get v = 0) (h' : F.HLD_EMB_CTRL_RESYNC.get v = 1)
    (hm : s.emberMaintained = true) : s.embCtrlAct v = s.setHld { s.hld with resyncDue := true } := by
  simp [State.embCtrlAct, h, h', hm]

omit hs in
theorem embCtrlAct_invalidate (h : F.HLD_EMB_CTRL_INVALIDATE.get v = 1) (h' : F.HLD_EMB_CTRL_RESYNC.get v = 0) :
    s.embCtrlAct v = s.emberFlag F.HLD_EMB_STATUS_VALID false := by
  simp [State.embCtrlAct, h, h']

omit hs in
theorem ember_resyncCmd (h : s.accepts R.HLD_EMB_CTRL) (hm : s.emberMaintained = true) (hv : F.HLD_EMB_CTRL_INVALIDATE.get v = 0) :
    Answers (exec (.emberResyncCmd v) s) fun t =>
      t.hld = { s.hld with resyncDue := true } ∧ s.sameBut t [] ∧ s.sameParts t [.hld] := by
  have hm' : (s.setReg R.HLD_EMB_CTRL (s.reg R.HLD_EMB_CTRL)).emberMaintained = true := by
    rw [← hm]
    unfold State.emberMaintained State.on State.g
    simp only [State.reg_setReg_self]
  exact Answers.ofCommand (A := (· ∈ [])) (ps := [.hld]) h (by decide) (by decide)
    (act_embCtrl.trans (embCtrlAct_resync (by simp [Fld.get_put_ne, hv]) (by simp [Fld.get_put]) hm')) (by simp)
    fun u L C => ⟨by rw [L.hld]; rfl, C.sameBut, C.parts⟩

omit hs in
theorem ember_invalidates (h : s.accepts R.HLD_EMB_CTRL) (hv : F.HLD_EMB_CTRL_RESYNC.get v = 0) :
    Answers (exec (.emberInvalidate v) s) fun t =>
      t.g R.HLD_EMB_STATUS F.HLD_EMB_STATUS_VALID = 0 ∧ s.sameBut t [R.HLD_EMB_STATUS] ∧ s.sameParts t [] := by
  refine Answers.ofCommand (A := (· ∈ [R.HLD_EMB_STATUS])) (ps := []) h (by decide) (by decide)
    (act_embCtrl.trans (embCtrlAct_invalidate (by simp [Fld.get_put]) (by simp [Fld.get_put_ne, hv]))) (by simp)
    fun u L C => ⟨?_, C.sameBut, C.parts⟩
  rw [L.g (by decide)]
  simp [State.g, Fld.get_put, b2n]

include hs in
theorem ember_xtalStops (hx : s.on R.HLD_EMB_CFG F.HLD_EMB_CFG_NO_XTAL = false) (hq : s.hif.fq.length < 32) :
    Answers (exec .emberXtalStop s) fun t =>
      t.g R.HLD_EMB_STATUS F.HLD_EMB_STATUS_VALID = 0 ∧ (∃ f ∈ t.hif.fq, f.block = 4 ∧ f.code = 3) ∧
      s.sameBut t [R.HLD_EMB_STATUS] ∧ s.sameParts t [] := by
  show Answers (done s s.xtalStop) _
  have hx' : (s.emberFlag F.HLD_EMB_STATUS_VALID false).on R.HLD_EMB_CFG F.HLD_EMB_CFG_NO_XTAL = false := by
    simpa [State.on, State.g] using hx
  rw [State.xtalStop, hx', if_neg (by decide)]
  refine Answers.ofChanges (A := (· ∈ [R.HLD_EMB_STATUS])) (ps := []) hs (by simp) fun u L C => ⟨?_, ?_, C.sameBut, C.parts⟩
  · rw [L.g (by decide), State.g, State.reg_fault (by decide) (by decide)]
    simp [Fld.get_put, b2n]
  · exact L.queued ⟨_, State.mem_fq_fault hq, rfl, rfl⟩

omit hs

/-! ### Without main power (R143, R413, R416) -/

theorem ember_supplyLow (h : s.boot.power = false) : Answers (exec .emberSupplyLow s) fun t =>
    t.g R.HLD_EMB_STATUS F.HLD_EMB_STATUS_VALID = 0 ∧ t.g R.HLD_EMB_STATUS F.HLD_EMB_STATUS_LOST = 1 ∧
    s.sameBut t [R.HLD_EMB_STATUS] ∧ s.sameParts t [] := by
  show Answers (doneAlways s s.emberLow) _
  rw [State.emberLow, if_neg (by simp [h])]
  exact Answers.ofDoneAlways (A := (· ∈ [R.HLD_EMB_STATUS])) (ps := []) (by simp) fun u L C =>
    ⟨(L.g (by decide) _).trans valid_emberLost, (L.g (by decide) _).trans lost_emberLost, C.sameBut, C.parts⟩

theorem ember_coldStart (h : s.boot.power = false) : Answers (exec .emberColdStart s) fun t =>
    t.emberTime = (0, 0) ∧ t.pair R.HLD_EMB_FAIL_LO = 0 ∧ t.reg R.HLD_EMB_TRIM = 0#32 ∧
    t.g R.HLD_EMB_STATUS F.HLD_EMB_STATUS_VALID = 0 ∧ t.g R.HLD_EMB_STATUS F.HLD_EMB_STATUS_LOST = 1 ∧
    s.sameBut t [R.HLD_EMB_TIME_LO, R.HLD_EMB_TIME_HI, R.HLD_EMB_FAIL_LO, R.HLD_EMB_FAIL_HI, R.HLD_EMB_TRIM, R.HLD_EMB_STATUS] ∧
    s.sameParts t [.hld] := by
  show Answers (doneAlways s s.emberStart) _
  rw [State.emberStart, if_neg (by simp [h]), State.emberCold]
  refine Answers.ofDoneAlways (A := (· ∈ [R.HLD_EMB_TIME_LO, R.HLD_EMB_TIME_HI, R.HLD_EMB_FAIL_LO, R.HLD_EMB_FAIL_HI, R.HLD_EMB_TRIM,
    R.HLD_EMB_STATUS])) (ps := [.hld]) (by simp) fun u L C =>
    ⟨?_, ?_, ?_, (L.g (by decide) _).trans valid_emberLost, (L.g (by decide) _).trans lost_emberLost, C.sameBut, C.parts⟩
  · refine (emberTime_congr (L.pair (by decide) (by decide))).trans (emberTime_of_pair ?_ (by decide))
    simp [State.pair, show R.HLD_EMB_TIME_LO + 4 ≠ R.HLD_EMB_STATUS by decide]
  · rw [L.pair (by decide) (by decide)]
    simp [State.pair, show R.HLD_EMB_FAIL_LO + 4 ≠ R.HLD_EMB_STATUS by decide]
  · rw [L.reg _ (by decide)]
    simp

end Sys2Proof.Machine
end

section

/-! ## Loss of qualification, and main power (R138, R143, R413 to R416) -/

set_option Elab.async false

namespace Sys2Proof.Machine

variable {A : Nat → Prop} {ps : List Part} {s t u : State} {a n k : Nat} {f : Fld} {b : Bool}

/-! ### A qualified episode loses its qualification (R138) -/

@[simp] theorem Changes.formCond_iff (h : A R.REF_STATUS) : Changes A ps s (t.formCond n) ↔ Changes A ps s t := by
  unfold State.formCond
  simp [h]

theorem reg_formCond (h : a ≠ R.REF_RAW) (h' : a ≠ R.REF_STATUS) : (s.formCond n).reg a = s.reg a := by
  unfold State.formCond
  dsimp only
  split
  · rfl
  · rw [reg_condChanged h, State.reg_p, if_neg h']

theorem hif_formCond : (s.formCond n).hif = s.hif := by
  unfold State.formCond
  dsimp only
  split
  · rfl
  · rw [hif_condChanged, State.p_hif]

@[simp] theorem Changes.loseQual_iff (h : A R.HLD_STATUS) : Changes A ps s (t.loseQual n) ↔ Changes A ps s t := by
  unfold State.loseQual
  simp [h]

theorem loseQual_shows (hn : n < 65536) (hq : s.hif.fq.length < 32) : (s.loseQual n).g R.HLD_STATUS F.HLD_STATUS_EPISODE_QUAL = 0 ∧
    (s.loseQual n).isSet R.HLD_RAW F.HLD_RAW_UNQUALIFIED ∧
    ∃ f ∈ (s.loseQual n).hif.fq, f.block = 4 ∧ f.code = 1 ∧ f.detail = n := by
  unfold State.loseQual State.holdRec
  refine ⟨?_, ?_, ?_⟩
  · rw [State.g, State.reg_note, State.reg_fault (by decide) (by decide)]
    simp [Fld.get_put]
  · rw [State.isSet, State.g, State.reg_note, State.reg_fault (by decide) (by decide)]
    simp [Fld.get_put]
  · rw [State.note_hif]
    refine ⟨_, State.mem_fq_fault ?_, rfl, rfl, Nat.mod_eq_of_lt hn⟩
    rw [State.raw_hif, State.p_hif]
    exact hq

/-- The qualification is lost for reason `n`. -/
theorem qualLostAnswers (hs : s.inReset = false) (hn : n < 65536) (hq : s.hif.fq.length < 32)
    (e : s.qualLost b = (s.showTempOut.loseQual n).formCond k) : Answers (done s (s.qualLost b)) fun t =>
      t.g R.HLD_STATUS F.HLD_STATUS_EPISODE_QUAL = 0 ∧ t.isSet R.HLD_RAW F.HLD_RAW_UNQUALIFIED ∧
      (∃ f ∈ t.hif.fq, f.block = 4 ∧ f.code = 1 ∧ f.detail = n) ∧ s.sameBut t [R.HLD_STATUS, R.REF_STATUS] ∧
      s.sameParts t [] := by
  rw [e]
  obtain ⟨h1, h2, h3⟩ := loseQual_shows (s := s.showTempOut) hn hq
  refine Answers.ofChanges (A := (· ∈ [R.HLD_STATUS, R.REF_STATUS])) (ps := []) hs (by simp) fun u L C =>
    ⟨?_, ?_, ?_, C.sameBut, C.parts⟩
  · rw [L.g (by decide), State.g, reg_formCond (by decide) (by decide)]
    exact h1
  · refine L.isSet (by decide) (by decide) rfl ?_
    rw [State.isSet, State.g, reg_formCond (by decide) (by decide)]
    exact h2
  · refine L.queued ?_
    rw [hif_formCond]
    exact h3

theorem episodeQual_showTempOut (h : s.on R.HLD_STATUS F.HLD_STATUS_EPISODE_QUAL = true) :
    s.showTempOut.on R.HLD_STATUS F.HLD_STATUS_EPISODE_QUAL = true := by
  rw [← h, State.on, State.on, State.g, State.g, State.showTempOut, State.reg_pb, if_pos rfl, Fld.get_put_ne (by decide) (by decide)]

/-- HOLD_S is exceeded. -/
theorem qualLost_held (h : s.on R.HLD_STATUS F.HLD_STATUS_EPISODE_QUAL = true)
    (hd : s.g R.HLD_QUAL_HOLD F.HLD_QUAL_HOLD_HOLD_S < (s.reg R.HLD_ELAPSED).toNat) :
    s.qualLost false = (s.showTempOut.loseQual 1).formCond s.showTempOut.selState := by
  unfold State.qualLost
  dsimp only
  rw [if_pos]
  · rfl
  · have e : s.showTempOut.g R.HLD_QUAL_HOLD F.HLD_QUAL_HOLD_HOLD_S = s.g R.HLD_QUAL_HOLD F.HLD_QUAL_HOLD_HOLD_S := by
      rw [State.g, State.g, showTempOut_other (by decide)]
    rw [episodeQual_showTempOut h, e, showTempOut_other (by decide)]
    simpa using hd

/-- The reading lies in an unlearned bin. -/
theorem qualLost_unlearned (h : s.on R.HLD_STATUS F.HLD_STATUS_EPISODE_QUAL = true) (hd : s.learned (s.binOf s.reading) = false) :
    s.qualLost true = (s.showTempOut.loseQual 2).formCond s.showTempOut.selState := by
  unfold State.qualLost
  dsimp only
  rw [if_pos]
  · rfl
  · rw [episodeQual_showTempOut h]
    simp [State.showTempOut, State.on, State.g, hd, Fld.get_put, b2n]

/-! ### Main power (R143, R413, R415, R416) -/

/-- A reset keeps a pair of Ember. -/
theorem pair_toReset (h : a ∈ keptRegs) (h' : a + 4 ∈ keptRegs) (hn : a ≠ R.HLD_EMB_STATUS) (hn' : a + 4 ≠ R.HLD_EMB_STATUS) :
    s.toReset.pair a = s.pair a :=
  State.pair_congr (by rw [reg_toReset, if_neg hn, if_pos h]) (by rw [reg_toReset, if_neg hn', if_pos h'])

/-- The state as Ember takes main power as lost: its count stored, and the device without its supplies. -/
def State.unpowered (s : State) : State := s.storeFailTime.setBootRec { s.boot with power := false, railBad := true }

theorem powerLoss_eq (h : s.boot.power = true) : s.powerLoss = s.unpowered.toReset := if_pos h

theorem reg_unpowered (h : a ≠ R.HLD_EMB_FAIL_LO) (h' : a ≠ R.HLD_EMB_FAIL_HI) : s.unpowered.reg a = s.reg a := by
  rw [State.unpowered, State.reg_setBootRec, State.storeFailTime, State.reg_setPair, if_neg h', if_neg h]

theorem fail_unpowered : s.unpowered.pair R.HLD_EMB_FAIL_LO = s.pair R.HLD_EMB_TIME_LO :=
  (State.pair_congr (s := s.storeFailTime) State.reg_setBootRec State.reg_setBootRec).trans
    (State.pair_setPair.trans (Nat.mod_eq_of_lt State.pair_lt))

theorem unpowered_toReset : s.unpowered.toReset.boot.power = false ∧ s.unpowered.toReset.inReset = true :=
  ⟨rfl, Bool.or_true _⟩

theorem ember_powerLost (h : s.boot.power = true) : Answers (exec .mainPowerLoss s) fun t =>
    t.boot.power = false ∧ t.inReset = true ∧ t.pair R.HLD_EMB_FAIL_LO = s.pair R.HLD_EMB_TIME_LO ∧
    t.pair R.HLD_EMB_TIME_LO = s.pair R.HLD_EMB_TIME_LO ∧ (∀ a : Nat, a ∉ keptRegs → t.reg a = regReset a) ∧
    State.reset.sameParts t [.hif, .hld, .free, .boot] := by
  obtain ⟨h1, h2⟩ := unpowered_toReset (s := s)
  show Answers (doneAlways s s.powerLoss) _
  rw [powerLoss_eq h, doneAlways_inReset h2]
  refine ⟨_, rfl, h1, h2, ?_, ?_, fun a ha => ?_, toReset_parts⟩
  · rw [pair_toReset (by decide) (by decide) (by decide) (by decide), fail_unpowered]
  · rw [pair_toReset (by decide) (by decide) (by decide) (by decide)]
    exact State.pair_congr (reg_unpowered (by decide) (by decide)) (reg_unpowered (by decide) (by decide))
  · rw [reg_toReset, if_neg (fun e => ha (by simp [e, keptRegs])), if_neg ha]

theorem ember_powerPresent (h : s.boot.power = false) : Answers (exec .mainPowerPresent s) fun t =>
    t.boot = { s.boot with power := true } ∧ t.reg R.BOOT_RESET_CAUSE = F.BOOT_RESET_CAUSE_POWER_ON.put 0#32 1 ∧
    s.sameBut t [R.BOOT_RESET_CAUSE] ∧ s.sameParts t [.boot] := by
  show Answers (doneAlways s s.powerUp) _
  rw [State.powerUp, if_neg (by simp [h])]
  refine Answers.ofDoneAlways (A := (· ∈ [R.BOOT_RESET_CAUSE])) (ps := [.boot]) (by simp) fun u L C =>
    ⟨?_, ?_, C.sameBut, C.parts⟩
  · rw [L.boot]; rfl
  · rw [L.reg _ (by decide)]; simp

end Sys2Proof.Machine
end

section

/-! ## The seed of the timescale (R144, R417) -/

set_option Elab.async false

namespace Sys2Proof.Machine

variable {A : Nat → Prop} {ps : List Part} {s t u : State} {a n k : Nat} {v : T96} {d : Int}

/-! ### An absolute set -/

@[simp] theorem Changes.segUp_iff : Changes A ps s t.segUp ↔ Changes A ps s t := by
  unfold State.segUp
  simp

theorem tsc_segUp : s.segUp.tsc = s.tsc := by
  unfold State.segUp
  split <;> rfl

@[simp] theorem Changes.applySet_iff (h1 : A R.TSC_LAST_STEP_LO) (h2 : A R.TSC_LAST_STEP_HI) (h3 : A R.TSC_STEP_STATUS)
    (ht : .tsc ∈ ps) (hp : .syn ∈ ps) : Changes A ps s (t.applySet k v) ↔ Changes A ps s t := by
  refine Changes.iff ?_
  unfold State.applySet
  extract_lets old x s1 y s2 s3 d s4 s5
  have c1 : Changes A ps t s1 := (Changes.setTsc_iff t ht).2 .refl
  have c2 : Changes A ps t s2 := c1.trans ((Changes.setSyn_iff s1 hp).2 .refl)
  have c3 : Changes A ps t s3 := Changes.segUp_iff.2 c2
  have c4 : Changes A ps t s4 := (Changes.p_iff h3).2 ((Changes.setPairI_iff h1 h2).2 c3)
  have c5 : Changes A ps t s5 := Changes.ite_iff.2 (by split; exacts [(Changes.raw_iff rfl).2 c4, c4])
  exact Changes.phaseRec_iff.2 ((Changes.raw_iff rfl).2 c5)

theorem voted_mapCopies {x : Tsc} {f : Copy → Copy} : (x.mapCopies f).voted = x.voted := rfl

/-- After the copies have moved, an absolute set leaves the timescale as it is. -/
theorem applySet_moves : ∃ x : Tsc, x.voted = cSet v s.tsc.voted ∧ Changes (fun _ => True) [.syn] (s.setTsc x) (s.applySet k v) := by
  refine ⟨{ s.tsc.mapCopies (cSet v) with
    voted := cSet v (s.tsc.mapCopies (cSet v)).voted, sigSec := tSec v, breaks := (s.tsc.mapCopies (cSet v)).breaks + 1 },
    congrArg (cSet v) voted_mapCopies, ?_⟩
  unfold State.applySet
  extract_lets old x s1 y s2 s3 d s4 s5
  have c2 : Changes (fun _ => True) [.syn] s1 s2 := (Changes.setSyn_iff s1 (by simp)).2 .refl
  have c3 : Changes (fun _ => True) [.syn] s1 s3 := Changes.segUp_iff.2 c2
  have c4 : Changes (fun _ => True) [.syn] s1 s4 := (Changes.p_iff trivial).2 ((Changes.setPairI_iff trivial trivial).2 c3)
  have c5 : Changes (fun _ => True) [.syn] s1 s5 := Changes.ite_iff.2 (by split; exacts [(Changes.raw_iff rfl).2 c4, c4])
  exact Changes.phaseRec_iff.2 ((Changes.raw_iff rfl).2 c5)

theorem voted_applySet : (s.applySet k v).tsc.voted = cSet v s.tsc.voted := by
  obtain ⟨x, hx, C⟩ := applySet_moves (s := s) (k := k) (v := v)
  have e : (s.applySet k v).tsc = x := C.parts .tsc (by decide)
  rw [e, hx]

/-! ### The seed -/

/-- A host step that waits gives way to an absolute set of an internal source, and counts as refused. -/
def State.hostWithdrawn (s : State) : State := if s.tsc.host.isSome then (s.setHost none).refuseStep else s

theorem voted_hostWithdrawn : s.hostWithdrawn.tsc.voted = s.tsc.voted := by
  unfold State.hostWithdrawn State.refuseStep
  split
  · rw [State.raw_tsc, State.inc_tsc, State.setHost, State.p_tsc]; rfl
  · rfl

@[simp] theorem Changes.hostWithdrawn_iff (h : A R.TSC_STEP_STATUS) (ht : .tsc ∈ ps) :
    Changes A ps s t.hostWithdrawn ↔ Changes A ps s t := by
  unfold State.hostWithdrawn
  simp [h, ht]

theorem relSteps_set : relSteps [(5, .set v)] = [] := by
  simp [relSteps]

theorem setSteps_set {w : T96} : setSteps w [(5, .set v)] = [(5, v)] := by
  simp [setSteps, show List.range 6 = [0, 1, 2, 3, 4, 5] from rfl]

/-- An absolute set of Ember that is the only step due. -/
theorem applySteps_seed {P : State → Prop} (h : s.tsc.due = [(5, .set v)])
    (hP : P ((s.setTsc { s.tsc with due := [] }).hostWithdrawn.applySet 5 v)) : P s.applySteps := by
  unfold State.applySteps
  extract_lets l due sets x s1 s2
  have e1 : s2 = s1 := by
    show (relSteps s.tsc.due).foldl _ s1 = s1
    rw [h, relSteps_set]
    rfl
  have e2 : sets = [(5, v)] := by
    show setSteps s.raw96 s.tsc.due = _
    rw [h, setSteps_set]
  clear_value sets s2
  subst e1 e2
  rw [if_neg (by simp), List.foldl_cons, List.foldl_nil]
  exact hP

theorem seedSet_cases {P : State → Prop} (h : s.tsc.due = [])
    (hP : ∀ x : Tsc, x.voted = s.tsc.voted → P ((s.setTsc x).hostWithdrawn.applySet 5 v)) : P (s.seedSet v) :=
  applySteps_seed (by show s.tsc.due ++ _ = _; rw [h]; rfl) (hP { s.tsc with due := [] } rfl)

theorem voted_seedSet (h : s.tsc.due = []) : (s.seedSet v).tsc.voted = cSet v s.tsc.voted := by
  refine seedSet_cases (P := fun t => t.tsc.voted = cSet v s.tsc.voted) h fun x hx => ?_
  rw [voted_applySet, voted_hostWithdrawn]
  exact congrArg _ hx

theorem changes_seedSet (h : s.tsc.due = []) (h1 : A R.TSC_LAST_STEP_LO) (h2 : A R.TSC_LAST_STEP_HI) (h3 : A R.TSC_STEP_STATUS)
    (ht : .tsc ∈ ps) (hp : .syn ∈ ps) : Changes A ps s (s.seedSet v) :=
  seedSet_cases h fun x _ => by simp [h1, h2, h3, ht, hp]

/-! ### What a step does outside the timescale (R81, R121, R133, R364) -/

@[simp] theorem Changes.setOutRun_iff {x : OutRun} (h : .syn ∈ ps) : Changes A ps s (t.setOutRun n x) ↔ Changes A ps s t :=
  Changes.setSyn_iff t h

@[simp] theorem Changes.outputsStep_iff (h : .syn ∈ ps) : Changes A ps s (t.outputsStep d) ↔ Changes A ps s t := by
  unfold State.outputsStep State.realignStep
  simp [h]

@[simp] theorem Changes.tdcStep_iff (h : .tdc ∈ ps) : Changes A ps s t.tdcStep ↔ Changes A ps s t := by
  unfold State.tdcStep
  refine Changes.foldl_iff fun u m => ?_
  split
  · exact Changes.setUnit_iff h
  · rfl

@[simp] theorem Changes.stepEffects_iff (hh : .hld ∈ ps) (hr : .ref ∈ ps) (hy : .syn ∈ ps) (hp : .ptp ∈ ps) (ht : .tdc ∈ ps) :
    Changes A ps s (t.stepEffects d) ↔ Changes A ps s t := by
  unfold State.stepEffects State.refStep State.ptpStep
  simp [hh, hr, hy, hp, ht]

theorem reg_stepEffects : (s.stepEffects d).reg a = s.reg a := by
  have ho (t : State) : (t.outputsStep d).reg a = t.reg a :=
    reg_foldl_mem fun t n _ => by
      unfold State.realignStep
      dsimp only
      split <;> rfl
  have ht (t : State) : t.tdcStep.reg a = t.reg a :=
    reg_foldl_mem fun t m _ => by
      split <;> rfl
  have hr (t : State) : (t.refStep d).reg a = t.reg a := by
    unfold State.refStep
    split <;> rfl
  unfold State.stepEffects
  rw [State.reg_ite, State.reg_setHld, ite_self, ht]
  show ((s.breakFit.refStep d).outputsStep d).reg a = _
  rw [ho, hr]
  rfl

/-! ### The seed takes effect (R144, R417) -/

/-- Ember's time is set, reported and recorded. -/
theorem seed_cases {P : State → Prop} (h : s.on R.HLD_EMB_STATUS F.HLD_EMB_STATUS_VALID = true)
    (h' : s.on R.HLD_EMB_CFG F.HLD_EMB_CFG_NO_XTAL = false)
    (hP : ∀ w4 w5 w6 w7 : Nat, P (((s.seedSet (emberT96 s.emberTime.1 s.emberTime.2)).raw R.HLD_RAW F.HLD_RAW_EMB_SEEDED).note
      0x13 0 w4 w5 w6 w7)) : P s.seed := by
  unfold State.seed
  rw [if_pos (by rw [h, h']; rfl)]
  exact hP _ _ _ _

theorem enterRun_cases {P : State → Prop} {y : State}
    (hy : y = ((s.setBoot bootRunState).raw R.BOOT_RAW F.BOOT_RAW_RUN).setRegN R.BOOT_TIME s.us) (h1 : P y.guyMarkers)
    (h2 : ∀ f, P (y.guyMarkers.setWire f)) : P s.enterRun := by
  unfold State.enterRun
  rw [← hy]
  dsimp only
  split
  · exact h1
  · exact h2 _

@[simp] theorem Changes.guyMarkers_iff : Changes A ps s t.guyMarkers ↔ Changes A ps s t := by
  unfold State.guyMarkers
  simp

@[simp] theorem Changes.setWire_iff {f : BitVec 80} : Changes A ps s (t.setWire f) ↔ Changes A ps s t := by
  unfold State.setWire
  simp

theorem reg_guyMarkers : s.guyMarkers.reg a = s.reg a := by
  unfold State.guyMarkers
  split
  · exact reg_foldl_mem fun t l _ => rfl
  · rfl

/-- The device in RUN. -/
structure InRun (s t : State) : Prop where
  frame : Changes (· ∈ [R.BOOT_STATUS, R.BOOT_TIME]) [] s t
  state : t.bootState = 7
  regs : ∀ a, a ≠ R.BOOT_STATUS → a ≠ R.BOOT_RAW → a ≠ R.BOOT_TIME → t.reg a = s.reg a

theorem inRun_enterRun : InRun s s.enterRun := by
  have hf : Changes (· ∈ [R.BOOT_STATUS, R.BOOT_TIME]) [] s
      (((s.setBoot bootRunState).raw R.BOOT_RAW F.BOOT_RAW_RUN).setRegN R.BOOT_TIME s.us) := by
    unfold State.setBoot
    simp
  have hs : (((s.setBoot bootRunState).raw R.BOOT_RAW F.BOOT_RAW_RUN).setRegN R.BOOT_TIME s.us).bootState = 7 := by
    simp [State.bootState, State.setBoot, State.g, Fld.get_put, show bootRunState < 16 by decide]
  have hr (a : Nat) (h1 : a ≠ R.BOOT_STATUS) (h2 : a ≠ R.BOOT_RAW) (h3 : a ≠ R.BOOT_TIME) :
      (((s.setBoot bootRunState).raw R.BOOT_RAW F.BOOT_RAW_RUN).setRegN R.BOOT_TIME s.us).reg a = s.reg a := by
    simp [State.setBoot, h1, h2, h3]
  refine enterRun_cases rfl ⟨?_, ?_, fun a h1 h2 h3 => ?_⟩ fun f => ⟨?_, ?_, fun a h1 h2 h3 => ?_⟩
  · exact Changes.guyMarkers_iff.2 hf
  · rw [State.bootState, State.g, reg_guyMarkers]; exact hs
  · rw [reg_guyMarkers]; exact hr a h1 h2 h3
  · exact Changes.setWire_iff.2 (Changes.guyMarkers_iff.2 hf)
  · rw [State.bootState, State.g, reg_setWire, reg_guyMarkers]; exact hs
  · rw [reg_setWire, reg_guyMarkers]; exact hr a h1 h2 h3

theorem seedEdge_cases {P : State → Prop} (h : s.bootState = bootSeed) (hr : s.runs .timescale = true)
    (h1 : P s.seed.enterRun) (h2 : ∀ d, P (s.seed.stepEffects d).enterRun) : P s.seedEdge := by
  unfold State.seedEdge
  rw [if_pos ⟨h, hr⟩]
  dsimp only
  split
  · exact h1
  · exact h2 _

/-- The registers of the seed. -/
def seedRegs : List Nat := [R.TSC_LAST_STEP_LO, R.TSC_LAST_STEP_HI, R.TSC_STEP_STATUS, R.BOOT_STATUS, R.BOOT_TIME]

/-- The timescale of `t` is Ember's, and EMB_SEEDED tells it. -/
structure Seeded (s t : State) : Prop where
  frame : Changes (· ∈ seedRegs) [.tsc, .ref, .hld, .syn, .ptp, .tdc] s t
  voted : t.tsc.voted = cSet (emberT96 s.emberTime.1 s.emberTime.2) s.tsc.voted
  told : t.isSet R.HLD_RAW F.HLD_RAW_EMB_SEEDED

theorem seeded_seed (h : s.on R.HLD_EMB_STATUS F.HLD_EMB_STATUS_VALID = true) (h' : s.on R.HLD_EMB_CFG F.HLD_EMB_CFG_NO_XTAL = false)
    (hd : s.tsc.due = []) : Seeded s s.seed := by
  refine seed_cases h h' fun w4 w5 w6 w7 => ⟨?_, ?_, ?_⟩
  · have C := changes_seedSet (A := (· ∈ seedRegs)) (ps := [.tsc, .ref, .hld, .syn, .ptp, .tdc])
      (v := emberT96 s.emberTime.1 s.emberTime.2) hd (by simp [seedRegs]) (by simp [seedRegs]) (by simp [seedRegs]) (by simp) (by simp)
    exact Changes.note_iff.2 ((Changes.raw_iff rfl).2 C)
  · rw [State.note_tsc, State.raw_tsc, voted_seedSet hd]
  · rw [State.isSet, State.g, State.reg_note, State.reg_raw, if_pos rfl, Fld.get_put (by decide)]
    rfl

theorem Seeded.stepEffects (S : Seeded s t) : Seeded s (t.stepEffects d) := by
  have C : Changes (fun _ => False) [.hld, .ref, .syn, .ptp, .tdc] t (t.stepEffects d) :=
    (Changes.stepEffects_iff (by simp) (by simp) (by simp) (by simp) (by simp)).2 .refl
  have e : (t.stepEffects d).tsc = t.tsc := C.parts .tsc (by simp)
  exact ⟨S.frame.trans (C.mono (fun _ h => h.elim) (by simp)), by rw [e, S.voted], by
    rw [State.isSet, State.g, reg_stepEffects]
    exact S.told⟩

theorem Seeded.enterRun (S : Seeded s t) : Seeded s t.enterRun ∧ t.enterRun.bootState = 7 := by
  have R := inRun_enterRun (s := t)
  have e : t.enterRun.tsc = t.tsc := R.frame.parts .tsc (by simp)
  exact ⟨⟨S.frame.trans (R.frame.mono (by simp [seedRegs]) (by simp)), by rw [e, S.voted], by
    rw [State.isSet, State.g, R.regs _ (by decide) (by decide) (by decide)]
    exact S.told⟩, R.state⟩

theorem ember_seeds (hs : s.inReset = false) (hb : s.bootState = bootSeed) (hr : s.runs .timescale = true)
    (h : s.on R.HLD_EMB_STATUS F.HLD_EMB_STATUS_VALID = true) (h' : s.on R.HLD_EMB_CFG F.HLD_EMB_CFG_NO_XTAL = false)
    (hd : s.tsc.due = []) : Answers (exec .emberSeed s) fun t =>
      t.tsc.voted = cSet (emberT96 s.emberTime.1 s.emberTime.2) s.tsc.voted ∧
      t.isSet R.HLD_RAW F.HLD_RAW_EMB_SEEDED ∧ t.bootState = 7 ∧
      s.sameBut t [R.TSC_LAST_STEP_LO, R.TSC_LAST_STEP_HI, R.TSC_STEP_STATUS, R.BOOT_STATUS, R.BOOT_TIME] ∧
      s.sameParts t [.tsc, .ref, .hld, .syn, .ptp, .tdc] := by
  show Answers (done s s.seedEdge) _
  have S := seeded_seed h h' hd
  obtain ⟨S, hst⟩ : Seeded s s.seedEdge ∧ s.seedEdge.bootState = 7 :=
    seedEdge_cases (P := fun t => Seeded s t ∧ t.bootState = 7) hb hr S.enterRun fun d => S.stepEffects.enterRun
  exact Answers.ofChanges hs S.frame fun u L C =>
    ⟨by rw [L.tsc, S.voted], L.isSet (by decide) (by decide) rfl S.told, L.bootState.trans hst, C.sameBut, C.parts⟩

/-- Settles O25, a clause for each command of Ember and of main power. -/
theorem emberAndMainPower : Obligations.EmberAndMainPower :=
  ⟨fun _ _ hs => ember_trim hs, fun _ hs => ember_resyncs hs, fun _ _ h => ember_resyncCmd h, fun _ _ h => ember_invalidates h,
    fun _ => ember_supplyLow, fun _ => ember_coldStart,
    fun _ hs hq hd hl => qualLostAnswers hs (by decide) hl (qualLost_held hq hd),
    fun _ hs => ember_xtalStops hs, fun _ hs => ember_seeds hs, fun _ => ember_powerLost, fun _ => ember_powerPresent⟩

end Sys2Proof.Machine
end

section

/-! ## Rules of the holdover model (R131 to R138) -/

set_option Elab.async false

namespace Sys2Proof.Machine

variable {A : Nat → Prop} {ps : List Part} {s t u : State} {a b n k : Nat} {c : Int} {l : List Sample} {f : Fld}

/-! ### What the model is read from -/

/-- The temperature table, its axis and the reading. -/
structure SameTable (s t : State) : Prop where
  counts : ∀ b < 32, t.reg (R.HLD_TTABb b) = s.reg (R.HLD_TTABb b)
  axis : t.reg R.HLD_TEMP_AXIS = s.reg R.HLD_TEMP_AXIS
  ctrl : t.reg R.HLD_CTRL = s.reg R.HLD_CTRL
  now : t.reg R.HLD_TEMP_NOW = s.reg R.HLD_TEMP_NOW

theorem SameTable.reading (h : SameTable s t) : t.reading = s.reading := by
  unfold State.reading State.on State.g
  rw [h.ctrl, h.now]

theorem SameTable.binOf (h : SameTable s t) : t.binOf c = s.binOf c := by
  unfold State.binOf State.tStart State.tBin State.g
  rw [h.axis]

theorem SameTable.centre2 (h : SameTable s t) : t.centre2 b = s.centre2 b := by
  unfold State.centre2 State.tStart State.tBin State.g
  rw [h.axis]

theorem SameTable.learned (h : SameTable s t) (hb : b < 32) : t.learned b = s.learned b := by
  unfold State.learned State.binCount State.g
  rw [h.counts b hb]

theorem binOf_lt : s.binOf c < 32 := by
  unfold State.binOf clampI
  omega

theorem SameTable.out (h : SameTable s t) : t.learned (t.binOf t.reading) = s.learned (s.binOf s.reading) := by
  rw [h.reading, h.binOf, h.learned binOf_lt]

theorem SameTable.cOf (h : SameTable s t) (hh : t.hld = s.hld) : t.cOf c = s.cOf c := by
  have hl : (List.range 32).filter t.learned = (List.range 32).filter s.learned :=
    List.filter_congr fun b hb => h.learned (List.mem_range.1 hb)
  unfold State.cOf State.binC
  simp only [hl, h.centre2, hh]

/-- The model's terms besides the table. -/
structure SameModel (s t : State) : Prop where
  table : SameTable s t
  freq : t.pair R.HLD_F_LO = s.pair R.HLD_F_LO
  a1 : t.reg R.HLD_A1 = s.reg R.HLD_A1
  a2 : t.reg R.HLD_A2 = s.reg R.HLD_A2
  age : t.reg R.HLD_AGE_S = s.reg R.HLD_AGE_S
  status : t.reg R.HLD_STATUS = s.reg R.HLD_STATUS
  hld : t.hld = s.hld

theorem SameModel.modelRateNow (h : SameModel s t) : t.modelRateNow = s.modelRateNow := by
  unfold State.modelRateNow State.yModel State.yTerms State.freqValid State.fTerm State.pairI State.regI State.on State.g
  rw [h.hld, h.table.reading, h.table.cOf h.hld, h.table.ctrl, h.freq, h.a1, h.a2, h.age, h.status]

theorem sharedReg_HLD_TTABb (h : b < 32) : sharedReg (R.HLD_TTABb b) = false := by
  have k : ∀ b : Fin 32, sharedReg (R.HLD_TTABb b) = false := by decide
  exact k ⟨b, h⟩

/-! ### Rules of the operations -/

@[simp] theorem Changes.setBin_iff (h : A (R.HLD_TTABb b)) (hp : .hld ∈ ps) :
    Changes A ps s (t.setBin b c n) ↔ Changes A ps s t := by
  unfold State.setBin
  simp [h, hp]

@[simp] theorem Changes.setRing_iff (h : A R.HLD_STATUS) (hp : .hld ∈ ps) : Changes A ps s (t.setRing l) ↔ Changes A ps s t := by
  unfold State.setRing
  simp [h, hp]

@[simp] theorem Changes.refreshModelQual_iff (h : A R.HLD_STATUS) : Changes A ps s t.refreshModelQual ↔ Changes A ps s t :=
  Changes.pb_iff h

theorem reg_setBin (h : a ≠ R.HLD_TTABb b) : (s.setBin b c n).reg a = s.reg a := by
  unfold State.setBin
  simp [h]

theorem binCount_setBin (h : n < 256) : (s.setBin b c n).binCount b = n := by
  unfold State.setBin State.binCount State.g
  simp [Fld.get_put, h]

theorem hld_setBin : (s.setBin b c n).hld = { s.hld with table := Tbl.set 0 s.hld.table b c } := by
  unfold State.setBin
  rw [State.p_hld, State.p_hld]
  rfl

theorem reg_refreshModelQual (h : a ≠ R.HLD_STATUS) : s.refreshModelQual.reg a = s.reg a := by
  unfold State.refreshModelQual
  simp [h]

theorem hld_refreshModelQual : s.refreshModelQual.hld = s.hld := State.pb_hld

theorem hld_showTempOut : s.showTempOut.hld = s.hld := State.pb_hld

/-- MODEL_QUAL and TEMP_OUT change no other field. -/
theorem g_refreshModelQual (h : f.lo + f.w ≤ 3 ∨ 4 ≤ f.lo) :
    s.refreshModelQual.g R.HLD_STATUS f = s.g R.HLD_STATUS f := by
  unfold State.refreshModelQual State.g
  simp only [State.reg_pb, if_true]
  exact Fld.get_put_ne (f := F.HLD_STATUS_MODEL_QUAL) (g := f) (by decide) h.symm ..

theorem g_showTempOut (h : f.lo + f.w ≤ 5 ∨ 6 ≤ f.lo) :
    s.showTempOut.g R.HLD_STATUS f = s.g R.HLD_STATUS f := by
  unfold State.showTempOut State.g
  simp only [State.reg_pb, if_true]
  exact Fld.get_put_ne (f := F.HLD_STATUS_TEMP_OUT) (g := f) (by decide) h.symm ..

theorem reg_setRing (h : a ≠ R.HLD_STATUS) : (s.setRing l).reg a = s.reg a := by
  unfold State.setRing
  simp [h]

theorem hld_setRing : (s.setRing l).hld = { s.hld with ring := l } := by
  unfold State.setRing
  rw [State.p_hld]
  rfl

/-! ### The monitors after a change of the model -/

@[simp] theorem Changes.afterModel_iff (h : ∀ k < 30, A (R.REF_CANDk_STATUS k)) (hp : .ref ∈ ps) :
    Changes A ps s (t.afterModel u) ↔ Changes A ps s t := by
  unfold State.afterModel
  split
  · rfl
  · exact Changes.judgeAll_iff h hp

theorem reg_afterModel (h : a ≠ R.REF_RAW) (h' : ∀ k < 30, a ≠ R.REF_CANDk_STATUS k) : (s.afterModel u).reg a = s.reg a := by
  unfold State.afterModel
  split
  · rfl
  · exact reg_foldl_mem fun t k hk => reg_judge h (h' k (List.mem_range.1 hk))

theorem hld_afterModel : (s.afterModel u).hld = s.hld :=
  ((Changes.afterModel_iff (A := fun _ => True) (ps := [.ref]) (fun _ _ => trivial) (by simp)).2 .refl).parts .hld (by decide)

end Sys2Proof.Machine
end

section

/-! ## Evaluation of the holdover model (R128, R130 to R132) -/

set_option Elab.async false

namespace Sys2Proof.Machine

variable {A : Nat → Prop} {ps : List Part} {s t u : State} {a n : Nat}

theorem reg_hldSeconds : (s.hldSeconds n).reg a =
    if a = R.HLD_ELAPSED then
      (if s.hld.episode then BitVec.ofNat 32 ((s.reg R.HLD_ELAPSED).toNat + n) else s.reg R.HLD_ELAPSED)
    else if a = R.HLD_AGE_S then
      (if s.hld.epoch then BitVec.ofNat 32 ((s.reg R.HLD_AGE_S).toNat + n) else s.reg R.HLD_AGE_S)
    else s.reg a := by
  unfold State.hldSeconds
  cases h1 : s.hld.epoch <;> cases h2 : s.hld.episode <;> simp [h2, State.setRegN_hld]
  all_goals split_ifs <;> simp_all

@[simp] theorem Changes.hldSeconds_iff (h : A R.HLD_AGE_S) (h' : A R.HLD_ELAPSED) :
    Changes A ps s (t.hldSeconds n) ↔ Changes A ps s t := by
  unfold State.hldSeconds
  simp [h, h']

@[simp] theorem Changes.endSecond_iff (h : .hld ∈ ps) : Changes A ps s t.endSecond ↔ Changes A ps s t := Changes.setHld_iff t h

/-- The second that ends, with TEMP_OUT formed anew. -/
def State.secondEnded (s : State) : State := (s.hldSeconds 1).endSecond.showTempOut

theorem changes_secondEnded (h1 : A R.HLD_AGE_S) (h2 : A R.HLD_ELAPSED) (h3 : A R.HLD_STATUS) (h : .hld ∈ ps) :
    Changes A ps s s.secondEnded := by
  unfold State.secondEnded
  simp [h1, h2, h3, h]

theorem sameTable_hldSeconds : SameTable s (s.hldSeconds n).endSecond where
  counts b hb := by
    show (s.hldSeconds n).reg _ = _
    rw [reg_hldSeconds, if_neg (by simp only [R.HLD_TTABb, R.HLD_ELAPSED]; omega), if_neg (by simp only [R.HLD_TTABb, R.HLD_AGE_S]; omega)]
  axis := reg_hldSeconds.trans rfl
  ctrl := reg_hldSeconds.trans rfl
  now := reg_hldSeconds.trans rfl

theorem reg_secondEnded (h : a ≠ R.HLD_STATUS) : s.secondEnded.reg a = (s.hldSeconds 1).reg a := showTempOut_other h

theorem tempOut_secondEnded : s.secondEnded.g R.HLD_STATUS F.HLD_STATUS_TEMP_OUT = b2n (!(s.learned (s.binOf s.reading))) := by
  unfold State.secondEnded State.showTempOut
  rw [sameTable_hldSeconds.out, State.g, State.reg_pb, if_pos rfl, Fld.get_put (by decide)]
  cases s.learned (s.binOf s.reading) <;> rfl

/-- The model's RATE is shown, and supplied where it steers. -/
theorem modelEval_cases {P : State → Prop} (hr : s.runs .timescale = true)
    (h1 : P (s.secondEnded.setPairI R.HLD_RATE_LO s.secondEnded.modelRateNow))
    (h2 : ∀ r, P ((s.secondEnded.setPairI R.HLD_RATE_LO s.secondEnded.modelRateNow).supplyRate r)) : P s.modelEval := by
  unfold State.modelEval
  rw [if_pos hr]
  change P (if (s.secondEnded.setPairI R.HLD_RATE_LO s.secondEnded.modelRateNow).ref.modelRate then _ else _)
  split
  · exact h2 _
  · exact h1

/-- RATE shown is no term of the model. -/
theorem sameModel_shown (C : Changes (· ∈ [R.HLD_RATE_LO, R.HLD_RATE_HI]) [.tsc] s t) : SameModel s t where
  table := {
    counts b hb := C.reg (sharedReg_HLD_TTABb hb)
      (by simp only [List.mem_cons, List.not_mem_nil, or_false, R.HLD_TTABb, R.HLD_RATE_LO, R.HLD_RATE_HI]; omega)
    axis := C.reg (by decide) (by decide)
    ctrl := C.reg (by decide) (by decide)
    now := C.reg (by decide) (by decide) }
  freq := State.pair_congr (C.reg (by decide) (by decide)) (C.reg (by decide) (by decide))
  a1 := C.reg (by decide) (by decide)
  a2 := C.reg (by decide) (by decide)
  age := C.reg (by decide) (by decide)
  status := C.reg (by decide) (by decide)
  hld := C.parts .hld (by decide)

/-- The second of the model, and its RATE shown. -/
structure Evaluated (s t : State) : Prop where
  frame : Changes (· ∈ [R.HLD_RATE_LO, R.HLD_RATE_HI]) [.tsc] s.secondEnded t
  rate : t.pair R.HLD_RATE_LO = enc 64 s.secondEnded.modelRateNow

theorem evaluated_modelEval (hr : s.runs .timescale = true) : Evaluated s s.modelEval := by
  refine modelEval_cases hr ⟨by simp, State.pair_setPairI⟩ fun r => ⟨by simp, ?_⟩
  exact (State.pair_congr State.reg_supplyRate State.reg_supplyRate).trans State.pair_setPairI

theorem Evaluated.logs (E : Evaluated s t) (L : Logs t u) : Evaluated s u :=
  ⟨E.frame.logs L, (L.pair (by decide) (by decide)).trans E.rate⟩

theorem Evaluated.reg (E : Evaluated s t) (ha : sharedReg a = false) (h1 : a ≠ R.HLD_RATE_LO) (h2 : a ≠ R.HLD_RATE_HI)
    (h3 : a ≠ R.HLD_STATUS) : t.reg a = (s.hldSeconds 1).reg a :=
  (E.frame.reg ha (by simp [h1, h2])).trans (reg_secondEnded h3)

theorem holdover_evaluates (hs : s.inReset = false) (hr : s.runs .timescale = true) : Answers (exec .modelEval s) fun t =>
    (t.reg R.HLD_AGE_S = if s.hld.epoch then BitVec.ofNat 32 ((s.reg R.HLD_AGE_S).toNat + 1) else s.reg R.HLD_AGE_S) ∧
    (t.reg R.HLD_ELAPSED = if s.hld.episode then BitVec.ofNat 32 ((s.reg R.HLD_ELAPSED).toNat + 1) else s.reg R.HLD_ELAPSED) ∧
    t.pair R.HLD_RATE_LO = enc 64 t.modelRateNow ∧
    t.g R.HLD_STATUS F.HLD_STATUS_TEMP_OUT = b2n (!(s.learned (s.binOf s.reading))) ∧
    s.sameBut t [R.HLD_AGE_S, R.HLD_ELAPSED, R.HLD_STATUS, R.HLD_RATE_LO, R.HLD_RATE_HI] ∧ s.sameParts t [.tsc, .hld] := by
  have E := evaluated_modelEval hr
  have F0 := changes_secondEnded (A := (· ∈ [R.HLD_AGE_S, R.HLD_ELAPSED, R.HLD_STATUS, R.HLD_RATE_LO, R.HLD_RATE_HI]))
    (ps := [.tsc, .hld]) (s := s) (by simp) (by simp) (by simp) (by simp)
  have F := F0.trans (E.frame.mono (fun a ha => by simp at ha ⊢; tauto) (by simp))
  refine Answers.ofChanges hs F fun u L C => ⟨?_, ?_, ?_, ?_, C.sameBut, C.parts⟩
  · rw [(E.logs L).reg (by decide) (by decide) (by decide) (by decide), reg_hldSeconds]
    rfl
  · rw [(E.logs L).reg (by decide) (by decide) (by decide) (by decide), reg_hldSeconds]
    rfl
  · rw [(E.logs L).rate, (sameModel_shown (E.logs L).frame).modelRateNow]
  · rw [(E.logs L).frame.g (by decide) (by decide), tempOut_secondEnded]

theorem holdover_stopped (hs : s.inReset = false) (hr : s.runs .timescale = false) : Answers (exec .modelEval s) fun t =>
    s.sameBut t [] ∧ s.sameParts t [] :=
  Answers.still hs (if_neg (by simp [hr]))

end Sys2Proof.Machine
end

section

/-! ## Learning of the holdover model (R133, R134) -/

set_option Elab.async false

namespace Sys2Proof.Machine

variable {s t u : State} {a b n : Nat} {c : Int} {x : Sample} {f : Fld}

/-- The registers of a refit. -/
def fitRegs : List Nat :=
  [R.HLD_F_LO, R.HLD_F_HI, R.HLD_A1, R.HLD_A2, R.HLD_AGE_S, R.HLD_RESID, R.HLD_STATUS] ++ (List.range 32).map R.HLD_TTABb

theorem mem_fitRegs_TTABb (h : b < 32) : R.HLD_TTABb b ∈ fitRegs :=
  List.mem_append_right _ (List.mem_map.2 ⟨b, List.mem_range.2 h, rfl⟩)

theorem status_ne_TTABb : R.HLD_STATUS ≠ R.HLD_TTABb b := by simp only [R.HLD_STATUS, R.HLD_TTABb]; omega

/-- A part of a refit: it keeps the samples, where the interval began, and FREQ_VALID. -/
structure Fits (s t : State) : Prop where
  frame : Changes (· ∈ fitRegs) [.hld, .free] s t
  ring : t.hld.ring = s.hld.ring
  tick : t.hld.fitTick = s.hld.fitTick
  freq : t.g R.HLD_STATUS F.HLD_STATUS_FREQ_VALID = s.g R.HLD_STATUS F.HLD_STATUS_FREQ_VALID

theorem Fits.refl : Fits s s := ⟨.refl, rfl, rfl, rfl⟩

theorem Fits.trans (h : Fits s t) (k : Fits t u) : Fits s u :=
  ⟨h.frame.trans k.frame, k.ring.trans h.ring, k.tick.trans h.tick, k.freq.trans h.freq⟩

theorem Fits.ite {p : Prop} [Decidable p] (h : Fits s t) (k : Fits s u) : Fits s (if p then t else u) := by
  split
  · exact h
  · exact k

theorem Fits.drawn (h : Fits s t) : Fits s t.drawn :=
  h.trans ⟨by simp, rfl, rfl, rfl⟩

/-- A register besides `HLD_STATUS` is written. -/
theorem Fits.setReg {v : Word} (h : Fits s t) (ha : a ∈ fitRegs) (hn : a ≠ R.HLD_STATUS) : Fits s (t.setReg a v) :=
  h.trans ⟨by simp [ha], congrArg Hld.ring (State.setReg_hld ..), congrArg Hld.fitTick (State.setReg_hld ..), by
    rw [State.g, State.g, State.reg_setReg, if_neg hn.symm]⟩

theorem Fits.setPairI (h : Fits s t) (ha : a ∈ fitRegs) (hb : a + 4 ∈ fitRegs) (hn : a ≠ R.HLD_STATUS) (hm : a + 4 ≠ R.HLD_STATUS) :
    Fits s (t.setPairI a c) := (h.setReg ha hn).setReg hb hm

/-- A field of `HLD_STATUS` besides FREQ_VALID is written. -/
theorem Fits.status (h : Fits s t) (hf : 1 ≤ f.lo) (hw : f.lo + f.w ≤ 32) : Fits s (t.p R.HLD_STATUS f n) :=
  h.trans ⟨by simp [fitRegs], congrArg Hld.ring State.p_hld, congrArg Hld.fitTick State.p_hld, by
    simp only [State.g, State.reg_p, if_true]
    exact Fld.get_put_ne (f := f) (g := F.HLD_STATUS_FREQ_VALID) hw (.inr hf) ..⟩

theorem Fits.setBin (h : Fits s t) (hb : b < 32) : Fits s (t.setBin b c n) :=
  h.trans ⟨by simp [mem_fitRegs_TTABb hb], by rw [hld_setBin], by rw [hld_setBin], by
    rw [State.g, State.g, reg_setBin status_ne_TTABb]⟩

theorem Fits.raw (h : Fits s t) : Fits s (t.raw R.HLD_RAW f) :=
  h.trans ⟨(Changes.raw_iff rfl).2 .refl, congrArg Hld.ring State.raw_hld, congrArg Hld.fitTick State.raw_hld, by
    simp [State.g]⟩

theorem Fits.learnTable (h : Fits s t) : Fits s (t.learnTable x) := by
  unfold State.learnTable
  extract_lets b r n c exact
  have hb : b < 32 := binOf_lt
  exact .ite h (.ite (h.setBin hb) (h.setBin hb).drawn)

theorem fits_refit : Fits s s.refit ∧ s.refit.isSet R.HLD_RAW F.HLD_RAW_FIT_DONE := by
  unfold State.refit
  extract_lets learn ring span f0 f1 f2 known z sol s1 s2 s3 s4 sq rms resid s5
  clear_value ring
  have h1 : Fits s s1 := .ite (Fits.refl.setPairI (by decide) (by decide) (by decide) (by decide)).drawn .refl
  have h2 : Fits s s2 := .ite ((h1.setReg (by decide) (by decide)).status (by decide) (by decide)).drawn h1
  have h3 : Fits s s3 := .ite ((h2.setReg (by decide) (by decide)).status (by decide) (by decide)).drawn h2
  have h4 : Fits s s4 := by
    simp only [s4]
    split
    · exact .ite h3.learnTable h3
    · exact h3
  have h5 : Fits s s5 := (h4.setReg (by decide) (by decide)).drawn
  refine ⟨(h5.raw.status (by decide) (by decide)).status (by decide) (by decide), ?_⟩
  rw [State.isSet, State.g, showTempOut_other (by decide), reg_refreshModelQual (by decide), State.reg_raw, if_pos rfl,
    Fld.get_put (by decide)]
  rfl

/-! ### The end of a fit interval (R133) -/

/-- The sample that a fit interval adds. -/
def State.fitted (s : State) : Sample := ⟨((s.reg R.HLD_AGE_S).toNat : Int) - 500, s.fitMean, s.fitReading⟩

/-- What a sample of the fit interval that has ended leaves. -/
structure Learns (s t : State) : Prop where
  frame : Changes (· ∈ fitRegs) [.hld, .free] s t
  ring : t.hld.ring = (s.fitted :: s.hld.ring).take 1024
  tick : t.hld.fitTick = s.tsc.tick
  freq : t.g R.HLD_STATUS F.HLD_STATUS_FREQ_VALID = 1
  told : t.isSet R.HLD_RAW F.HLD_RAW_FIT_DONE

theorem learns_fitSample (he : s.hld.epoch = true) (hn : s.hld.renew = false) :
    Learns s (s.nextFit.fitSample s.fitMean s.fitReading) := by
  unfold State.fitSample
  extract_lets g w a x y h z
  have hw : w = s.nextFit := if_pos (by simp [State.nextFit, State.setHld, he, hn])
  clear_value w
  subst hw
  obtain ⟨k, hd⟩ := fits_refit (s := z.p R.HLD_STATUS F.HLD_STATUS_FREQ_VALID 1)
  have hz : z.hld.ring = y.hld.ring ∧ z.hld.fitTick = y.hld.fitTick := ⟨rfl, rfl⟩
  have hy : y.hld = { s.nextFit.hld with ring := (s.fitted :: s.hld.ring).take 1024 } := hld_setRing
  refine ⟨Changes.trans ?_ k.frame, ?_, ?_, ?_, hd⟩
  · simp [z, y, State.nextFit, fitRegs]
  · rw [k.ring, State.p_hld, hz.1, hy]
  · rw [k.tick, State.p_hld, hz.2, hy]
    rfl
  · rw [k.freq]
    simp [State.g, Fld.get_put]

theorem fitEnd_ok (hb : s.hld.broken = false) (hl : s.g R.REF_STATUS F.REF_STATUS_STATE = 2)
    (hs : s.on R.TSC_CTRL F.TSC_CTRL_STEER = false) (hg : s.on R.REF_STATUS F.REF_STATUS_GUARDING = false)
    (ht : s.hld.fitTick < s.tsc.tick) : s.fitEnd = s.nextFit.fitSample s.fitMean s.fitReading := by
  unfold State.fitEnd
  dsimp only
  rw [if_pos (by simp [hb, hl, hs, hg, ht])]

theorem fitEnd_broken (h : s.g R.REF_STATUS F.REF_STATUS_STATE ≠ 2 ∨ s.on R.TSC_CTRL F.TSC_CTRL_STEER = true ∨
    s.on R.REF_STATUS F.REF_STATUS_GUARDING = true ∨ s.hld.broken = true) : s.fitEnd = s.nextFit := by
  unfold State.fitEnd
  dsimp only
  rw [if_neg (by rcases h with h | h | h | h <;> simp [h])]

variable (hs : s.inReset = false)
include hs

theorem holdover_learns (hl : s.g R.REF_STATUS F.REF_STATUS_STATE = 2) (hc : s.on R.TSC_CTRL F.TSC_CTRL_STEER = false)
    (hg : s.on R.REF_STATUS F.REF_STATUS_GUARDING = false) (hb : s.hld.broken = false) (he : s.hld.epoch = true)
    (hn : s.hld.renew = false) (ht : s.hld.fitTick < s.tsc.tick) : Answers (exec .fitIntervalEnd s) fun t =>
      t.hld.ring = ((⟨((s.reg R.HLD_AGE_S).toNat : Int) - 500, s.fitMean, s.fitReading⟩ : Sample) :: s.hld.ring).take 1024 ∧
      t.g R.HLD_STATUS F.HLD_STATUS_FREQ_VALID = 1 ∧ t.hld.fitTick = s.tsc.tick ∧ t.isSet R.HLD_RAW F.HLD_RAW_FIT_DONE ∧
      s.sameBut t ([R.HLD_F_LO, R.HLD_F_HI, R.HLD_A1, R.HLD_A2, R.HLD_AGE_S, R.HLD_RESID, R.HLD_STATUS] ++
        (List.range 32).map R.HLD_TTABb ++ (List.range 30).map (fun k => R.REF_CANDk_STATUS k)) ∧
      s.sameParts t [.ref, .hld, .free] := by
  show Answers (done s (s.fitEnd.afterModel s)) _
  rw [fitEnd_ok hb hl hc hg ht]
  obtain ⟨hf, hr, hk, hq, hd⟩ := learns_fitSample he hn
  have ha (k : Nat) (hk : k < 30) : R.HLD_STATUS ≠ R.REF_CANDk_STATUS k := by simp only [R.HLD_STATUS, R.REF_CANDk_STATUS]; omega
  have hb (k : Nat) (hk : k < 30) : R.HLD_RAW ≠ R.REF_CANDk_STATUS k := by simp only [R.HLD_RAW, R.REF_CANDk_STATUS]; omega
  have C : Changes (· ∈ fitRegs ++ (List.range 30).map (fun k => R.REF_CANDk_STATUS k)) [.ref, .hld, .free] s
      ((s.nextFit.fitSample s.fitMean s.fitReading).afterModel s) :=
    (Changes.afterModel_iff (fun k hk => List.mem_append_right _ (List.mem_map.2 ⟨k, List.mem_range.2 hk, rfl⟩)) (by simp)).2
      (hf.mono (fun _ h => List.mem_append_left _ h) (by simp))
  refine Answers.ofChanges hs C fun u L C => ⟨?_, ?_, ?_, ?_, C.sameBut, C.parts⟩
  · rw [L.hld, hld_afterModel, hr]; rfl
  · rw [L.g (by decide), State.g, reg_afterModel (by decide) ha]; exact hq
  · rw [L.hld, hld_afterModel, hk]
  · refine L.isSet (by decide) (by decide) rfl ?_
    rw [State.isSet, State.g, reg_afterModel (by decide) hb]; exact hd

theorem holdover_skips (h : s.g R.REF_STATUS F.REF_STATUS_STATE ≠ 2 ∨ s.on R.TSC_CTRL F.TSC_CTRL_STEER = true ∨
    s.on R.REF_STATUS F.REF_STATUS_GUARDING = true ∨ s.hld.broken = true) : Answers (exec .fitIntervalEnd s) fun t =>
      t.hld = s.nextFit.hld ∧ t.hld.ring = s.hld.ring ∧ t.hld.broken = false ∧ s.sameBut t [] ∧ s.sameParts t [.hld] := by
  show Answers (done s (s.fitEnd.afterModel s)) _
  rw [fitEnd_broken h, State.afterModel, if_pos (show s.nextFit.freqValid = s.freqValid from rfl)]
  refine Answers.ofChanges (A := (· ∈ [])) (ps := [.hld]) hs (by simp [State.nextFit]) fun u L C =>
    ⟨L.hld, ?_, ?_, C.sameBut, C.parts⟩
  · rw [L.hld]; rfl
  · rw [L.hld]; rfl

end Sys2Proof.Machine
end

section

/-! ## LOAD, CLEAR and the temperature axis (R135 to R137) -/

set_option Elab.async false

namespace Sys2Proof.Machine

variable {A : Nat → Prop} {ps : List Part} {s t u : State} {a b n : Nat} {v old : Word} {e : Nat → Int}

/-! ### The temperature table -/

/-- Every entry of the temperature table is set, with COUNT `n`. -/
def State.setBins (s : State) (e : Nat → Int) (n : Nat) : State := (List.range 32).foldl (fun s b => s.setBin b (e b) n) s

@[simp] theorem Changes.setBins_iff (h : ∀ b < 32, A (R.HLD_TTABb b)) (hp : .hld ∈ ps) :
    Changes A ps s (t.setBins e n) ↔ Changes A ps s t :=
  Changes.foldl_mem_iff fun _ b hb => Changes.setBin_iff (h b (List.mem_range.1 hb)) hp

theorem reg_setBins (h : ∀ b < 32, a ≠ R.HLD_TTABb b) : (s.setBins e n).reg a = s.reg a :=
  reg_foldl_mem fun _ b hb => reg_setBin (h b (List.mem_range.1 hb))

/-- The table is all that setting its entries changes of the model's state. -/
theorem hld_foldl_setBin {l : List Nat} : ∃ x, (l.foldl (fun s b => s.setBin b (e b) n) s).hld = { s.hld with table := x } := by
  induction l generalizing s with
  | nil => exact ⟨s.hld.table, rfl⟩
  | cons b r ih =>
    obtain ⟨x, hx⟩ := ih (s := s.setBin b (e b) n)
    exact ⟨x, by rw [List.foldl_cons, hx, hld_setBin]⟩

theorem hld_setBins : ∃ x, (s.setBins e n).hld = { s.hld with table := x } := hld_foldl_setBin

theorem binCount_setBin_ne {c : Int} (h : a ≠ b) : (s.setBin b c n).binCount a = s.binCount a := by
  unfold State.binCount State.g
  rw [reg_setBin (by simp only [R.HLD_TTABb]; omega)]

theorem binCount_congr (h : t.reg (R.HLD_TTABb b) = s.reg (R.HLD_TTABb b)) : t.binCount b = s.binCount b := by
  unfold State.binCount State.g
  rw [h]

theorem binCount_foldl_setBin {l : List Nat} (hn : n < 256) (h : b ∈ l ∨ s.binCount b = n) :
    (l.foldl (fun s b => s.setBin b (e b) n) s).binCount b = n := by
  induction l generalizing s with
  | nil => simpa using h
  | cons a r ih =>
    rw [List.foldl_cons]
    refine ih (s := s.setBin a (e a) n) ?_
    by_cases hb : b = a
    · exact .inr (hb ▸ binCount_setBin hn)
    · rw [binCount_setBin_ne hb]
      simpa [hb] using h

theorem binCount_setBins (hn : n < 256) (hb : b < 32) : (s.setBins e n).binCount b = n :=
  binCount_foldl_setBin hn (.inl (List.mem_range.2 hb))

theorem hld_setHld {x : Hld} : (s.setHld x).hld = x := rfl

/-! ### The table cleared (R135) -/

/-- The registers of a cleared table. -/
def tableRegs : List Nat := R.HLD_STATUS :: (List.range 32).map R.HLD_TTABb

theorem mem_tableRegs_TTABb : ∀ b < 32, R.HLD_TTABb b ∈ tableRegs := fun b hb =>
  List.mem_cons_of_mem _ (List.mem_map.2 ⟨b, List.mem_range.2 hb, rfl⟩)

theorem status_mem_tableRegs : R.HLD_STATUS ∈ tableRegs := List.mem_cons_self ..

/-- What clearing the temperature table leaves. -/
structure TableCleared (s t : State) : Prop where
  frame : Changes (· ∈ tableRegs) [.hld] s t
  ring : t.hld.ring = []
  renew : t.hld.renew = true
  counts : ∀ b < 32, t.binCount b = 0
  regs : ∀ a, a ∉ tableRegs → t.reg a = s.reg a

theorem tableCleared_clearTable : TableCleared s s.clearTable := by
  unfold State.clearTable
  extract_lets x h
  have hx : x = s.setBins (fun _ => 0) 0 := rfl
  clear_value x
  subst hx
  have hh : ((((s.setBins (fun _ => 0) 0).setHld { h with renew := true, firstT := none, anchorBin := none }).setRing []).refreshModelQual.showTempOut).hld =
      { h with renew := true, firstT := none, anchorBin := none, ring := [] } := by
    rw [hld_showTempOut, hld_refreshModelQual, hld_setRing, hld_setHld]
  clear_value h
  refine ⟨?_, by rw [hh], by rw [hh], fun b hb => ?_, fun a ha => ?_⟩
  · have hb : Changes (· ∈ tableRegs) [.hld] s (s.setBins (fun _ => 0) 0) :=
      (Changes.setBins_iff mem_tableRegs_TTABb (List.mem_singleton.2 rfl)).2 .refl
    simp [status_mem_tableRegs, hb]
  · refine (binCount_congr ?_).trans (binCount_setBins (s := s) (e := fun _ => 0) (n := 0) (by decide) hb)
    rw [showTempOut_other status_ne_TTABb.symm, reg_refreshModelQual status_ne_TTABb.symm, reg_setRing status_ne_TTABb.symm,
      State.reg_setHld]
  · have h1 : a ≠ R.HLD_STATUS := fun e => ha (e ▸ status_mem_tableRegs)
    rw [showTempOut_other h1, reg_refreshModelQual h1, reg_setRing h1, State.reg_setHld]
    exact reg_setBins fun b hb e => ha (e ▸ mem_tableRegs_TTABb b hb)

/-! ### CLEAR (R136) -/

/-- The registers of LOAD and CLEAR. -/
def modelRegs : List Nat := [R.HLD_F_LO, R.HLD_F_HI, R.HLD_A1, R.HLD_A2, R.HLD_AGE_S] ++ tableRegs

theorem tableRegs_le (h : a ∈ tableRegs) : a ∈ modelRegs := List.mem_append_right _ h

theorem modelRegs_mem : R.HLD_F_LO ∈ modelRegs ∧ R.HLD_F_HI ∈ modelRegs ∧ R.HLD_A1 ∈ modelRegs ∧ R.HLD_A2 ∈ modelRegs ∧
    R.HLD_AGE_S ∈ modelRegs ∧ R.HLD_STATUS ∈ modelRegs := by decide

/-- What CLEAR leaves. -/
structure ModelCleared (s t : State) : Prop where
  frame : Changes (· ∈ modelRegs) [.hld] s t
  freq : t.pair R.HLD_F_LO = 0
  a1 : t.reg R.HLD_A1 = 0#32
  a2 : t.reg R.HLD_A2 = 0#32
  age : t.reg R.HLD_AGE_S = 0#32
  freqValid : t.g R.HLD_STATUS F.HLD_STATUS_FREQ_VALID = 0
  modelQual : t.g R.HLD_STATUS F.HLD_STATUS_MODEL_QUAL = 0
  ring : t.hld.ring = []
  counts : ∀ b < 32, t.binCount b = 0

/-- The model's terms and validity flags set to 0. -/
def State.zeroed (s : State) : State :=
  let s := s.setHld { s.hld with epoch := false, renew := false }
  let s := ((s.setPair R.HLD_F_LO 0).setRegN R.HLD_A1 0).setRegN R.HLD_A2 0
  let s := s.setRegN R.HLD_AGE_S 0
  let s := s.p R.HLD_STATUS F.HLD_STATUS_FREQ_VALID 0
  let s := s.p R.HLD_STATUS F.HLD_STATUS_AGE_VALID 0
  let s := s.p R.HLD_STATUS F.HLD_STATUS_LOG_VALID 0
  s.p R.HLD_STATUS F.HLD_STATUS_MODEL_QUAL 0

theorem changes_zeroed : Changes (· ∈ modelRegs) [.hld] s s.zeroed := by
  unfold State.zeroed
  simp [modelRegs_mem, show R.HLD_F_LO + 4 ∈ modelRegs from modelRegs_mem.2.1]

theorem pair_zeroed : s.zeroed.pair R.HLD_F_LO = 0 := by
  simp [State.zeroed, State.pair, show R.HLD_F_LO + 4 ≠ R.HLD_STATUS by decide]

theorem terms_zeroed : s.zeroed.reg R.HLD_A1 = 0#32 ∧ s.zeroed.reg R.HLD_A2 = 0#32 ∧ s.zeroed.reg R.HLD_AGE_S = 0#32 := by
  simp [State.zeroed]

theorem flags_zeroed : s.zeroed.g R.HLD_STATUS F.HLD_STATUS_FREQ_VALID = 0 ∧ s.zeroed.g R.HLD_STATUS F.HLD_STATUS_MODEL_QUAL = 0 := by
  simp [State.zeroed, State.g, Fld.get_put, Fld.get_put_ne]

theorem ring_zeroed : s.zeroed.hld.ring = s.hld.ring := by
  simp [State.zeroed, State.setPair_hld]

theorem reg_zeroed (h1 : a ≠ R.HLD_STATUS) (h2 : a ≠ R.HLD_AGE_S) (h3 : a ≠ R.HLD_A2) (h4 : a ≠ R.HLD_A1) (h5 : a ≠ R.HLD_F_HI)
    (h6 : a ≠ R.HLD_F_LO) : s.zeroed.reg a = s.reg a := by
  simp [State.zeroed, h1, h2, h3, h4, show a ≠ R.HLD_F_LO + 4 from h5, h6]

/-- The temperature table stands above the other registers of the model. -/
theorem TTABb_ne (h : a < 0x38100) : R.HLD_TTABb b ≠ a := by simp only [R.HLD_TTABb]; omega

theorem TTABb_zeroed : s.zeroed.reg (R.HLD_TTABb b) = s.reg (R.HLD_TTABb b) :=
  reg_zeroed (TTABb_ne (by decide)) (TTABb_ne (by decide)) (TTABb_ne (by decide)) (TTABb_ne (by decide)) (TTABb_ne (by decide))
    (TTABb_ne (by decide))

theorem modelCleared_clearModel : ModelCleared s s.clearModel := by
  obtain ⟨hf, hr, -, hc, -⟩ := tableCleared_clearTable (s := s)
  obtain ⟨h1, h2, h3⟩ := terms_zeroed (s := s.clearTable)
  obtain ⟨h4, h5⟩ := flags_zeroed (s := s.clearTable)
  exact ⟨(hf.mono (fun _ => tableRegs_le) (by simp)).trans changes_zeroed, pair_zeroed, h1, h2, h3, h4, h5,
    ring_zeroed.trans hr, fun b hb => (binCount_congr TTABb_zeroed).trans (hc b hb)⟩

end Sys2Proof.Machine
end

section

/-! ## LOAD, and the commands on the model (R135 to R138) -/

set_option Elab.async false

namespace Sys2Proof.Machine

variable {A : Nat → Prop} {ps : List Part} {s t u : State} {a b n : Nat} {v old : Word}

/-! ### LOAD (R137) -/

/-- What LOAD leaves. -/
structure ModelLoaded (s t : State) : Prop where
  frame : Changes (· ∈ modelRegs) [.hld] s t
  a1 : t.reg R.HLD_A1 = s.reg R.HLD_PRE_A1
  a2 : t.reg R.HLD_A2 = s.reg R.HLD_PRE_A2
  age : t.reg R.HLD_AGE_S = s.reg R.HLD_PRE_AGE_S
  freqValid : t.g R.HLD_STATUS F.HLD_STATUS_FREQ_VALID = 1
  ring : t.hld.ring = []
  epoch : t.hld.epoch = true
  frozen : t.hld.frozen = none

/-- The terms are the preset ones. -/
def State.preset (s : State) : State :=
  let s := s.setPair R.HLD_F_LO (s.pair R.HLD_PRE_F_LO)
  let s := (s.setReg R.HLD_A1 (s.reg R.HLD_PRE_A1)).setReg R.HLD_A2 (s.reg R.HLD_PRE_A2)
  s.setReg R.HLD_AGE_S (s.reg R.HLD_PRE_AGE_S)

theorem changes_preset : Changes (· ∈ modelRegs) [.hld] s s.preset := by
  unfold State.preset
  simp [modelRegs_mem, show R.HLD_F_LO + 4 ∈ modelRegs from modelRegs_mem.2.1]

theorem terms_preset : s.preset.reg R.HLD_A1 = s.reg R.HLD_PRE_A1 ∧ s.preset.reg R.HLD_A2 = s.reg R.HLD_PRE_A2 ∧
    s.preset.reg R.HLD_AGE_S = s.reg R.HLD_PRE_AGE_S := by
  simp [State.preset, show R.HLD_PRE_A1 ≠ R.HLD_F_LO + 4 by decide, show R.HLD_PRE_A2 ≠ R.HLD_F_LO + 4 by decide,
    show R.HLD_PRE_AGE_S ≠ R.HLD_F_LO + 4 by decide]

/-- The model begins anew with its terms: its epoch is set, the ring empty, and its flags are set. -/
def State.begun (s : State) (i : Int) (h : Hld) : State :=
  let s := (s.setPairI R.HLD_F_LO i).setHld h
  let s := (s.setRing []).p R.HLD_STATUS F.HLD_STATUS_FREQ_VALID 1
  let s := s.p R.HLD_STATUS F.HLD_STATUS_AGE_VALID 1
  (s.p R.HLD_STATUS F.HLD_STATUS_LOG_VALID 1).refreshModelQual.showTempOut

theorem loadModel_eq : ∃ (e : Nat → Int) (i : Int) (h : Hld), h.epoch = true ∧ h.frozen = none ∧
    s.loadModel = (s.preset.setBins e 16).begun i h := by
  refine ⟨_, _, _, ?_, ?_, rfl⟩
  · rfl
  · rfl

theorem changes_begun {i : Int} {h : Hld} : Changes (· ∈ modelRegs) [.hld] s (s.begun i h) := by
  unfold State.begun
  simp [modelRegs_mem, show R.HLD_F_LO + 4 ∈ modelRegs from modelRegs_mem.2.1]

theorem reg_begun {i : Int} {h : Hld} (h1 : a ≠ R.HLD_STATUS) (h2 : a ≠ R.HLD_F_LO) (h3 : a ≠ R.HLD_F_HI) :
    (s.begun i h).reg a = s.reg a := by
  unfold State.begun
  dsimp only
  rw [showTempOut_other h1, reg_refreshModelQual h1]
  simp [h1, h2, show a ≠ R.HLD_F_LO + 4 from h3, reg_setRing]

theorem freqValid_begun {i : Int} {h : Hld} : (s.begun i h).g R.HLD_STATUS F.HLD_STATUS_FREQ_VALID = 1 := by
  unfold State.begun
  dsimp only
  rw [g_showTempOut (by decide), g_refreshModelQual (by decide)]
  simp [State.g, Fld.get_put, Fld.get_put_ne]

theorem hld_begun {i : Int} {h : Hld} : (s.begun i h).hld = { h with ring := [] } := by
  unfold State.begun
  dsimp only
  rw [hld_showTempOut, hld_refreshModelQual, State.p_hld, State.p_hld, State.p_hld, hld_setRing, hld_setHld]

theorem modelLoaded_loadModel : ModelLoaded s s.loadModel := by
  obtain ⟨e, i, h, he, hf, eq⟩ := loadModel_eq (s := s)
  rw [eq]
  obtain ⟨h1, h2, h3⟩ := terms_preset (s := s)
  have hb : Changes (· ∈ modelRegs) [.hld] s (s.preset.setBins e 16) :=
    (Changes.setBins_iff (fun b hb => tableRegs_le (mem_tableRegs_TTABb b hb)) (List.mem_singleton.2 rfl)).2 changes_preset
  have hr {a : Nat} (ha : a < 0x38100) (h1 : a ≠ R.HLD_STATUS) (h2 : a ≠ R.HLD_F_LO) (h3 : a ≠ R.HLD_F_HI) :
      ((s.preset.setBins e 16).begun i h).reg a = s.preset.reg a :=
    (reg_begun h1 h2 h3).trans (reg_setBins fun _ _ => (TTABb_ne ha).symm)
  exact ⟨hb.trans changes_begun, (hr (by decide) (by decide) (by decide) (by decide)).trans h1,
    (hr (by decide) (by decide) (by decide) (by decide)).trans h2, (hr (by decide) (by decide) (by decide) (by decide)).trans h3,
    freqValid_begun, by rw [hld_begun], by rw [hld_begun]; exact he, by rw [hld_begun]; exact hf⟩

/-! ### Writes of HLD_CTRL and of the axis -/

/-- A change of TEMP_SRC clears the table first. -/
def State.sourced (s : State) (old : Word) : State :=
  if F.HLD_CTRL_TEMP_SRC.get old = s.g R.HLD_CTRL F.HLD_CTRL_TEMP_SRC then s else s.clearTable

theorem changes_sourced : Changes (· ∈ modelRegs) [.hld] s (s.sourced old) := by
  unfold State.sourced
  split
  · exact .refl
  · exact tableCleared_clearTable.frame.mono (fun _ => tableRegs_le) (by simp)

theorem act_hldCtrl : s.act R.HLD_CTRL old v = (s.hldCtrlAct old v).afterModel s := rfl

theorem hldCtrlAct_load (h : F.HLD_CTRL_CLEAR.get v = 0) (h' : F.HLD_CTRL_LOAD.get v = 1) :
    s.hldCtrlAct old v = (s.sourced old).loadModel := by
  simp [State.hldCtrlAct, State.sourced, h, h']

theorem hldCtrlAct_clear (h : F.HLD_CTRL_CLEAR.get v = 1) (h' : F.HLD_CTRL_LOAD.get v = 0) :
    s.hldCtrlAct old v = (s.sourced old).clearModel := by
  simp [State.hldCtrlAct, State.sourced, h, h']

/-- The registers of a command on the model. -/
def ctrlRegs : List Nat :=
  [R.HLD_CTRL, R.HIF_CFG_CRC_STATUS, R.HLD_STATUS, R.HLD_F_LO, R.HLD_F_HI, R.HLD_A1, R.HLD_A2, R.HLD_AGE_S] ++
    (List.range 32).map R.HLD_TTABb ++ (List.range 30).map (fun k => R.REF_CANDk_STATUS k)

theorem mem_ctrlRegs (h : a ∈ modelRegs) : a ∈ ctrlRegs := by
  simp only [modelRegs, tableRegs, ctrlRegs, List.mem_append, List.mem_cons, List.not_mem_nil, or_false] at h ⊢
  tauto

/-- A write of `HLD_CTRL` whose commands make `t` of the state that its source leaves. -/
theorem ctrlAnswers {P : State → Prop} (h : s.accepts R.HLD_CTRL)
    (ht : (s.setReg R.HLD_CTRL (s.formWord R.HLD_CTRL v)).hldCtrlAct (s.readNow R.HLD_CTRL) v = t)
    (hf : Changes (· ∈ modelRegs) [.hld] ((s.setReg R.HLD_CTRL (s.formWord R.HLD_CTRL v)).sourced (s.readNow R.HLD_CTRL)) t)
    (hP : ∀ u, (∀ a, sharedReg a = false → a ≠ R.HIF_CFG_CRC_STATUS → (∀ k < 30, a ≠ R.REF_CANDk_STATUS k) → u.reg a = t.reg a) →
      u.hld = t.hld → Changes (· ∈ ctrlRegs) [.ref, .hld] s u → P u) : Answers (done s (s.hostWrite R.HLD_CTRL v)) P := by
  have F0 : Changes (· ∈ ctrlRegs) [.ref, .hld] s t := by
    have h0 : Changes (· ∈ ctrlRegs) [.ref, .hld] s (s.setReg R.HLD_CTRL (s.formWord R.HLD_CTRL v)) :=
      (Changes.setReg_iff (by simp [ctrlRegs])).2 .refl
    exact (h0.trans (changes_sourced.mono (fun _ => mem_ctrlRegs) (by simp))).trans (hf.mono (fun _ => mem_ctrlRegs) (by simp))
  have F1 : Changes (· ∈ ctrlRegs) [.ref, .hld] s (t.afterModel (s.setReg R.HLD_CTRL (s.formWord R.HLD_CTRL v))) :=
    (Changes.afterModel_iff (fun k hk => List.mem_append_right _ (List.mem_map.2 ⟨k, List.mem_range.2 hk, rfl⟩)) (by simp)).2 F0
  refine Answers.ofWrite h (by decide) (act_hldCtrl.trans (by rw [ht])) F1 (by simp [ctrlRegs]) fun u w L C => hP u ?_ ?_ C
  · intro a ha hc hk
    have hr : a ≠ R.REF_RAW := fun e => by rw [e] at ha; exact absurd ha (by decide)
    rw [L.reg a ha, State.reg_setReg_ne _ hc, reg_afterModel hr hk]
  · rw [L.hld, State.setReg_hld, hld_afterModel]

/-- A register of the model is no status of a candidate. -/
theorem ne_cand (h : 0x38000 ≤ a) : ∀ k < 30, a ≠ R.REF_CANDk_STATUS k := by
  intro k hk
  simp only [R.REF_CANDk_STATUS]
  omega

theorem holdover_loads (h : s.accepts R.HLD_CTRL) (hv : F.HLD_CTRL_CLEAR.get v = 0) : Answers (exec (.modelLoad v) s) fun t =>
    t.reg R.HLD_A1 = s.reg R.HLD_PRE_A1 ∧ t.reg R.HLD_A2 = s.reg R.HLD_PRE_A2 ∧
    t.reg R.HLD_AGE_S = s.reg R.HLD_PRE_AGE_S ∧ t.g R.HLD_STATUS F.HLD_STATUS_FREQ_VALID = 1 ∧ t.hld.ring = [] ∧
    t.hld.epoch = true ∧ t.hld.frozen = none ∧
    s.sameBut t ([R.HLD_CTRL, R.HIF_CFG_CRC_STATUS, R.HLD_STATUS, R.HLD_F_LO, R.HLD_F_HI, R.HLD_A1, R.HLD_A2,
      R.HLD_AGE_S] ++ (List.range 32).map R.HLD_TTABb ++ (List.range 30).map (fun k => R.REF_CANDk_STATUS k)) ∧
    s.sameParts t [.ref, .hld] := by
  have M := modelLoaded_loadModel (s := (s.setReg R.HLD_CTRL (s.formWord R.HLD_CTRL (F.HLD_CTRL_LOAD.put v 1))).sourced
    (s.readNow R.HLD_CTRL))
  have hp {a : Nat} (hs : sharedReg a = false) (ha : a ∉ modelRegs) (hc : a ≠ R.HLD_CTRL) :
      ((s.setReg R.HLD_CTRL (s.formWord R.HLD_CTRL (F.HLD_CTRL_LOAD.put v 1))).sourced (s.readNow R.HLD_CTRL)).reg a = s.reg a :=
    (changes_sourced.reg hs ha).trans (State.reg_setReg_ne _ hc _)
  refine ctrlAnswers h (hldCtrlAct_load (by simp [Fld.get_put_ne, hv]) (by simp [Fld.get_put])) M.frame fun u hr hh C =>
    ⟨?_, ?_, ?_, ?_, by rw [hh, M.ring], by rw [hh, M.epoch], by rw [hh, M.frozen], C.sameBut, C.parts⟩
  · rw [hr _ (by decide) (by decide) (ne_cand (by decide)), M.a1, hp (by decide) (by decide) (by decide)]
  · rw [hr _ (by decide) (by decide) (ne_cand (by decide)), M.a2, hp (by decide) (by decide) (by decide)]
  · rw [hr _ (by decide) (by decide) (ne_cand (by decide)), M.age, hp (by decide) (by decide) (by decide)]
  · rw [State.g, hr _ (by decide) (by decide) (ne_cand (by decide))]
    exact M.freqValid

theorem holdover_clears (h : s.accepts R.HLD_CTRL) (hv : F.HLD_CTRL_LOAD.get v = 0) : Answers (exec (.modelClear v) s) fun t =>
    t.pair R.HLD_F_LO = 0 ∧ t.reg R.HLD_A1 = 0#32 ∧ t.reg R.HLD_A2 = 0#32 ∧ t.reg R.HLD_AGE_S = 0#32 ∧
    t.g R.HLD_STATUS F.HLD_STATUS_FREQ_VALID = 0 ∧ t.g R.HLD_STATUS F.HLD_STATUS_MODEL_QUAL = 0 ∧
    t.hld.ring = [] ∧ (∀ b : Fin 32, t.binCount b = 0) ∧
    s.sameBut t ([R.HLD_CTRL, R.HIF_CFG_CRC_STATUS, R.HLD_STATUS, R.HLD_F_LO, R.HLD_F_HI, R.HLD_A1, R.HLD_A2,
      R.HLD_AGE_S] ++ (List.range 32).map R.HLD_TTABb ++ (List.range 30).map (fun k => R.REF_CANDk_STATUS k)) ∧
    s.sameParts t [.ref, .hld] := by
  have M := modelCleared_clearModel (s := (s.setReg R.HLD_CTRL (s.formWord R.HLD_CTRL (F.HLD_CTRL_CLEAR.put v 1))).sourced
    (s.readNow R.HLD_CTRL))
  refine ctrlAnswers h (hldCtrlAct_clear (by simp [Fld.get_put]) (by simp [Fld.get_put_ne, hv])) M.frame fun u hr hh C =>
    ⟨?_, ?_, ?_, ?_, ?_, ?_, by rw [hh, M.ring], fun b => ?_, C.sameBut, C.parts⟩
  · exact (State.pair_congr (hr _ (by decide) (by decide) (ne_cand (by decide)))
      (hr _ (by decide) (by decide) (ne_cand (by decide)))).trans M.freq
  · rw [hr _ (by decide) (by decide) (ne_cand (by decide)), M.a1]
  · rw [hr _ (by decide) (by decide) (ne_cand (by decide)), M.a2]
  · rw [hr _ (by decide) (by decide) (ne_cand (by decide)), M.age]
  · rw [State.g, hr _ (by decide) (by decide) (ne_cand (by decide))]
    exact M.freqValid
  · rw [State.g, hr _ (by decide) (by decide) (ne_cand (by decide))]
    exact M.modelQual
  · have hb : 0x38000 ≤ R.HLD_TTABb b := by simp only [R.HLD_TTABb]; omega
    have hc : R.HLD_TTABb b ≠ R.HIF_CFG_CRC_STATUS := TTABb_ne (by decide)
    exact (binCount_congr (hr _ (sharedReg_HLD_TTABb b.isLt) hc (ne_cand hb))).trans (M.counts b b.isLt)

theorem act_tempAxis : s.act R.HLD_TEMP_AXIS old v = s.tempAxisAct old := rfl

theorem readNow_tempAxis : s.readNow R.HLD_TEMP_AXIS = s.reg R.HLD_TEMP_AXIS := rfl

theorem holdover_axis (h : s.accepts R.HLD_TEMP_AXIS) (hv : s.formWord R.HLD_TEMP_AXIS v ≠ s.reg R.HLD_TEMP_AXIS) :
    Answers (exec (.tempAxisChange v) s) fun t =>
      t.reg R.HLD_TEMP_AXIS = s.formWord R.HLD_TEMP_AXIS v ∧ t.hld.ring = [] ∧ t.hld.renew = true ∧
      (∀ b : Fin 32, t.binCount b = 0) ∧
      s.sameBut t ([R.HLD_TEMP_AXIS, R.HIF_CFG_CRC_STATUS, R.HLD_STATUS] ++ (List.range 32).map R.HLD_TTABb) ∧
      s.sameParts t [.hld] := by
  have e : (s.setReg R.HLD_TEMP_AXIS (s.formWord R.HLD_TEMP_AXIS v)).act R.HLD_TEMP_AXIS (s.readNow R.HLD_TEMP_AXIS) v =
      (s.setReg R.HLD_TEMP_AXIS (s.formWord R.HLD_TEMP_AXIS v)).clearTable := by
    rw [act_tempAxis, readNow_tempAxis, State.tempAxisAct, State.reg_setReg, if_pos rfl, if_neg hv]
  have M := tableCleared_clearTable (s := s.setReg R.HLD_TEMP_AXIS (s.formWord R.HLD_TEMP_AXIS v))
  have F : Changes (· ∈ [R.HLD_TEMP_AXIS, R.HIF_CFG_CRC_STATUS, R.HLD_STATUS] ++ (List.range 32).map R.HLD_TTABb) [.hld] s
      (s.setReg R.HLD_TEMP_AXIS (s.formWord R.HLD_TEMP_AXIS v)).clearTable :=
    Changes.trans ((Changes.setReg_iff (by simp)).2 .refl)
      (M.frame.mono (fun a ha => List.mem_cons_of_mem _ (List.mem_cons_of_mem _ ha)) (by simp))
  refine Answers.ofWrite h (by decide) e F (by simp) fun u w L C => ⟨?_, ?_, ?_, fun b => ?_, C.sameBut, C.parts⟩
  · rw [L.reg _ (by decide), State.reg_setReg_ne _ (by decide), M.regs _ (by decide), State.reg_setReg, if_pos rfl]
  · rw [L.hld, State.setReg_hld, M.ring]
  · rw [L.hld, State.setReg_hld, M.renew]
  · refine (binCount_congr ?_).trans (M.counts b b.isLt)
    rw [L.reg _ (sharedReg_HLD_TTABb b.isLt), State.reg_setReg_ne _ (TTABb_ne (by decide))]

/-- Settles O24, a clause for each command on the model. -/
theorem holdoverModel : Obligations.HoldoverModel :=
  ⟨fun _ => holdover_evaluates, fun _ => holdover_stopped, fun _ hs => holdover_learns hs, fun _ hs => holdover_skips hs,
    fun _ _ => holdover_loads, fun _ _ => holdover_clears, fun _ _ => holdover_axis,
    fun _ hs hq hd hl => qualLostAnswers hs (by decide) hl (qualLost_unlearned hq hd)⟩

end Sys2Proof.Machine
end

section

/-! ## Write-once registers and writable pairs (R33, R44) -/

set_option Elab.async false

namespace Sys2Proof.Machine

variable {s t u : State} {a n : Nat} {v old : Word} {l : List Nat}

/-! ### The write-once registers -/

theorem ite_all {c : Prop} [Decidable c] {p : RegRow → Bool} {l r : List RegRow} (h : l.all p = true) (k : r.all p = true) :
    (if c then l else r).all p = true := by
  split
  · exact h
  · exact k

/-- What holds of the rows of every block holds of the rows at an address. -/
theorem rowsAt_all {p : RegRow → Bool} (h1 : rowsHif.all p = true) (h2 : rowsBoot.all p = true) (h3 : rowsTsc.all p = true)
    (h4 : rowsRef.all p = true) (h5 : rowsHld.all p = true) (h6 : rowsSyn.all p = true) (h7 : rowsPts.all p = true)
    (h8 : rowsPtp.all p = true) (h9 : rowsPmc.all p = true) (h10 : rowsFwd.all p = true) (h11 : rowsQue.all p = true)
    (h12 : rowsHrd.all p = true) (h13 : rowsSpr.all p = true) (h14 : rowsTdc.all p = true) (h15 : rowsGuy.all p = true)
    (h16 : rowsRut.all p = true) (h17 : rowsIop.all p = true) (h18 : rowsMac.all p = true) : (rowsAt a).all p = true :=
  ite_all h1 (ite_all h2 (ite_all h3 (ite_all h4 (ite_all h5 (ite_all h6 (ite_all h7 (ite_all rfl (ite_all h8 (ite_all rfl
    (ite_all h9 (ite_all h10 (ite_all h11 (ite_all h12 (ite_all h13 (ite_all h14 (ite_all h15 (ite_all h16 (ite_all h17
      (ite_all rfl (ite_all h18 rfl))))))))))))))))))))

/-- The write-once registers. -/
def onceRegs : List Nat := [R.HIF_LOCK, R.QUE_DRAM_CFG, R.QUE_PART]

/-- The row is no array of registers, and write-once only where it stands among them. -/
def onceRow (r : RegRow) : Bool := !(r.fields.any fun f => decide (f.acc = .w1)) || (r.stride == 0 && onceRegs.contains r.base)

theorem rowsAt_onceRow : (rowsAt a).all onceRow = true := 
  rowsAt_all (by decide +kernel) (by decide +kernel) (by decide +kernel) (by decide +kernel) (by decide +kernel)
    (by decide +kernel) (by decide +kernel) (by decide +kernel) (by decide +kernel) (by decide +kernel) (by decide +kernel)
    (by decide +kernel) (by decide +kernel) (by decide +kernel) (by decide +kernel) (by decide +kernel) (by decide +kernel)
    (by decide +kernel)

theorem once_cases (h : holds a .w1 = true) : a = R.HIF_LOCK ∨ a = R.QUE_DRAM_CFG ∨ a = R.QUE_PART := by
  unfold holds fieldsAt at h
  split at h
  · next r e =>
    have hr := List.all_eq_true.1 rowsAt_onceRow r (List.mem_of_find?_eq_some e)
    have hh := List.find?_some e
    simp only [onceRow, h, Bool.not_true, Bool.false_or, Bool.and_eq_true, beq_iff_eq, List.contains_iff_mem] at hr
    obtain ⟨hs, hb⟩ := hr
    have ha : a = r.base := by
      unfold RegRow.hit at hh
      rw [if_pos hs] at hh
      split at hh
      · cases hh
      · exact beq_iff_eq.1 hh
    subst ha
    simpa [onceRegs] using hb
  · cases h

/-! ### The writable pairs -/

/-- The low words of the writable pairs. -/
def pairLos : List Nat :=
  [R.TSC_RATE_HOST_LO, R.TSC_STEP_LO, R.HLD_PRE_F_LO, R.PTP_CLOCK_ID_LO, R.SPR_RD_COUNT_LO, R.SPR_FETCH_IDX_LO] ++
    (List.range 24).map R.PTP_Pn_MASTER_LO ++ (List.range 4).map R.TDC_Mm_LIM_MIN_LO ++ (List.range 4).map R.TDC_Mm_LIM_MAX_LO ++
    (List.range 3).map R.HIF_DMAk_BASE_LO ++ (List.range 3).map R.HIF_DMAk_WB_LO

/-- An address of an array of registers. -/
theorem inArray_iff {base stride : Nat} (h : 0 < stride) : inArray a base stride n = true ↔ ∃ k < n, a = base + stride * k := by
  simp only [inArray, Bool.and_eq_true, decide_eq_true_eq]
  constructor
  · rintro ⟨⟨h1, h2⟩, h3⟩
    refine ⟨(a - base) / stride, h3, ?_⟩
    rw [Nat.mul_div_cancel' (Nat.dvd_of_mod_eq_zero h2)]
    omega
  · rintro ⟨k, hk, rfl⟩
    simp [Nat.mul_div_cancel_left _ h, hk]

theorem mem_pairLos (h : isPairLo a = true) : a ∈ pairLos := by
  simp only [isPairLo, Bool.or_eq_true, beq_iff_eq, inArray_iff (by decide : 0 < 0x40), inArray_iff (by decide : 0 < 0x80)] at h
  simp only [pairLos, List.mem_append, List.mem_cons, List.not_mem_nil, or_false, List.mem_map, List.mem_range]
  rcases h with ((((((((((h | h) | h) | h) | h) | h) | ⟨k, hk, h⟩) | ⟨k, hk, h⟩) | ⟨k, hk, h⟩) | ⟨k, hk, h⟩) | ⟨k, hk, h⟩)
  · exact .inl (.inl (.inl (.inl (.inl (.inl h)))))
  · exact .inl (.inl (.inl (.inl (.inl (.inr (.inl h))))))
  · exact .inl (.inl (.inl (.inl (.inl (.inr (.inr (.inl h)))))))
  · exact .inl (.inl (.inl (.inl (.inl (.inr (.inr (.inr (.inl h))))))))
  · exact .inl (.inl (.inl (.inl (.inl (.inr (.inr (.inr (.inr (.inl h)))))))))
  · exact .inl (.inl (.inl (.inl (.inl (.inr (.inr (.inr (.inr (.inr h)))))))))
  · exact .inl (.inl (.inl (.inl (.inr ⟨k, hk, by rw [h]⟩))))
  · exact .inl (.inl (.inl (.inr ⟨k, hk, by rw [h]⟩)))
  · exact .inl (.inl (.inr ⟨k, hk, by rw [h]⟩))
  · exact .inl (.inr ⟨k, hk, by rw [h]⟩)
  · exact .inr ⟨k, hk, by rw [h]⟩

/-- What the map says of both words of a pair. -/
def pairOk (a : Nat) : Bool :=
  mapped a && a % 4 == 0 && !isTable a && !isMsixTable a && !isPba a && mapped (a + 4) && !isTable (a + 4) &&
    !isMsixTable (a + 4) && !isPba (a + 4) && !isPairLo (a + 4) && !holds (a + 4) .w1

theorem pairs_ok : pairLos.all pairOk = true := by decide +kernel

/-- Both words of a pair stand in the map. -/
structure PairWords (a : Nat) : Prop where
  low : mapped a = true ∧ a % 4 = 0 ∧ isTable a = false ∧ isMsixTable a = false ∧ isPba a = false
  high : mapped (a + 4) = true ∧ (a + 4) % 4 = 0 ∧ isTable (a + 4) = false ∧ isMsixTable (a + 4) = false ∧ isPba (a + 4) = false
  alone : isPairLo (a + 4) = false
  often : holds (a + 4) .w1 = false

theorem pairWords (h : isPairLo a = true) : PairWords a := by
  have k := List.all_eq_true.1 pairs_ok a (mem_pairLos h)
  simp only [pairOk, Bool.and_eq_true, Bool.not_eq_true', beq_iff_eq] at k
  obtain ⟨⟨⟨⟨⟨⟨⟨⟨⟨⟨h1, h2⟩, h3⟩, h4⟩, h5⟩, h6⟩, h7⟩, h8⟩, h9⟩, h10⟩, h11⟩ := k
  exact ⟨⟨h1, h2, h3, h4, h5⟩, ⟨h6, by omega, h7, h8, h9⟩, h10, h11⟩

end Sys2Proof.Machine
end

section

/-! ## Host writes of registers, write-once registers and pairs (R27, R33, R44, R48) -/

set_option Elab.async false

namespace Sys2Proof.Machine

variable {A : Nat → Prop} {ps : List Part} {s t u x : State} {a n lo : Nat} {v old : Word} {l : List Nat}

/-! ### What an accepted write stores -/

/-- The word is outside the tables, at a word address of the map. -/
def plainWord (a : Nat) : Prop := mapped a = true ∧ a % 4 = 0 ∧ isTable a = false ∧ isMsixTable a = false ∧ isPba a = false

/-- An accepted write to a register answers what storing it leaves. -/
theorem Answers.ofStored {P : State → Prop} (h : s.accepts a) (hp : plainWord a)
    (L : Logs x (s.storeWrite ⟨.f0, a, v, s.readNow a, false⟩)) (hP : ∀ u, Logs x u → P u) : Answers (done s (s.hostWrite a v)) P := by
  obtain ⟨hm, h4, ht, hx, hb⟩ := hp
  refine ⟨_, done_next h.1.1, hP _ ?_⟩
  rw [hostWrite_accepted h hm h4 ht hx hb]
  exact L.clockRecs.endClock

theorem Logs.recAccepted {w : WriteInfo} {b c : Bool} (h : Logs s t) : Logs s (t.recAccepted w v b c) := by
  unfold State.recAccepted
  exact .ite h.record h

/-- The low word of a pair waits in its shadow. -/
theorem storeWrite_low (h : isPairLo a = true) : Logs { s with wshadow := Tbl.set none s.wshadow a (some (s.formWord a v)) }
    (s.storeWrite ⟨.f0, a, v, s.readNow a, false⟩) := by
  unfold State.storeWrite
  simp only [h, if_true]
  exact (Logs.refl _).recAccepted

/-- The high word of a pair commits both halves. -/
theorem storeWrite_high (h : isPairLo lo = true) :
    Logs (((s.commitPair lo (s.formWord (lo + 4) v)).act (lo + 4) (s.readNow (lo + 4)) v).afterScan (lo + 4))
      (s.storeWrite ⟨.f0, lo + 4, v, s.readNow (lo + 4), false⟩) := by
  have W := pairWords h
  have hh : isPairHi (lo + 4) = true := by simp [isPairHi, h]
  unfold State.storeWrite
  simp only [W.alone, hh, W.often, if_true, Bool.false_eq_true, if_false, Nat.add_sub_cancel]
  exact (Logs.refl _).recAccepted

theorem onceWord (h : holds a .w1 = true) : plainWord a ∧ isPairLo a = false ∧ isPairHi a = false := by
  rcases once_cases h with rfl | rfl | rfl <;> exact ⟨⟨by decide, by decide, by decide, by decide, by decide⟩, by decide, by decide⟩

/-- The first write of a write-once register is remembered. -/
theorem storeWrite_once (h : holds a .w1 = true) :
    Logs (((({ s with w1done := a :: s.w1done } : State).setReg a (s.formWord a v)).act a (s.readNow a) v).afterScan a)
      (s.storeWrite ⟨.f0, a, v, s.readNow a, false⟩) := by
  obtain ⟨-, h1, h2⟩ := onceWord h
  unfold State.storeWrite
  simp only [h1, h2, h, if_true, Bool.false_eq_true, if_false]
  exact (Logs.refl _).recAccepted

/-! ### What a write-once register triggers does not depend on which have been written -/

theorem afterScan_once : ({ s with w1done := l } : State).afterScan a = { s.afterScan a with w1done := l } := by
  unfold State.afterScan State.scanAccepted
  split
  · show (if s.scanState = 1 ∨ s.scanState = 2 then _ else _) = _
    split <;> rfl
  · rfl

theorem ite_once {c : Prop} [Decidable c] :
    (if c then ({ s with w1done := l } : State) else { t with w1done := l }) = { (if c then s else t) with w1done := l } := by
  split <;> rfl

theorem spillShow_once : ({ s with w1done := l } : State).spillShow = { s.spillShow with w1done := l } :=
  ite_once (s := s.spillFull false) (t := s)

theorem dramCfgAct_once : ({ s with w1done := l } : State).dramCfgAct = { s.dramCfgAct with w1done := l } :=
  ite_once (c := s.g R.QUE_DRAM_CFG F.QUE_DRAM_CFG_DENSITY = 0) (s := s) (t := { s with boot := { s.boot with training := true } })

theorem act_lock : s.act R.HIF_LOCK old v = s := rfl

theorem act_dramCfg : s.act R.QUE_DRAM_CFG old v = s.dramCfgAct := rfl

theorem act_part : s.act R.QUE_PART old v = s.sprPartition.sprStatus.spillShow := rfl

theorem sprPartition_once : ({ s with w1done := l } : State).sprPartition = { s.sprPartition with w1done := l } := by
  have hg (a : Nat) (f : Fld) : ({ s with w1done := l } : State).g a f = s.g a f := rfl
  have hN (t : State) (a n : Nat) : ({ t with w1done := l } : State).setRegN a n = { t.setRegN a n with w1done := l } := rfl
  simp only [State.sprPartition, hg, hN]

theorem sprStatus_once : ({ s with w1done := l } : State).sprStatus = { s.sprStatus with w1done := l } := by
  have hn : ({ s with w1done := l } : State).sprN = s.sprN := rfl
  have hw : ({ s with w1done := l } : State).wrCount = s.wrCount := rfl
  have hr : ({ s with w1done := l } : State).rdCount = s.rdCount := rfl
  have hp (t : State) (a : Nat) (f : Fld) (b : Bool) : ({ t with w1done := l } : State).pb a f b = { t.pb a f b with w1done := l } := rfl
  have hc (t : State) (a : Nat) (f : Fld) (b : Bool) : ({ t with w1done := l } : State).cond a f b = { t.cond a f b with w1done := l } := rfl
  have hs : (t : State) → ({ t with w1done := l } : State).spr = t.spr := fun _ => rfl
  simp only [State.sprStatus, hn, hw, hr, hs, hp, hc]

theorem act_once (h : holds a .w1 = true) : ({ s with w1done := l } : State).act a old v = { s.act a old v with w1done := l } := by
  rcases once_cases h with rfl | rfl | rfl
  · rw [act_lock, act_lock]
  · rw [act_dramCfg, act_dramCfg, dramCfgAct_once]
  · rw [act_part, act_part, sprPartition_once, sprStatus_once, spillShow_once]

/-! ### The scan after a write -/

@[simp] theorem Changes.afterScan_iff (h : A R.HIF_CFG_CRC_STATUS) : Changes A ps s (t.afterScan a) ↔ Changes A ps s t := by
  obtain ⟨w, e | e⟩ := afterScan_eq_setReg (s := t) (a := a) <;> rw [e]
  exact Changes.setReg_iff h

theorem reg_afterScan (h : n ≠ R.HIF_CFG_CRC_STATUS) : (s.afterScan a).reg n = s.reg n := by
  obtain ⟨w, e | e⟩ := afterScan_eq_setReg (s := s) (a := a) <;> rw [e]
  exact State.reg_setReg_ne _ h _

theorem w1done_afterScan : (s.afterScan a).w1done = s.w1done := by
  obtain ⟨w, e | e⟩ := afterScan_eq_setReg (s := s) (a := a) <;> rw [e]
  rfl

theorem wshadow_afterScan : (s.afterScan a).wshadow = s.wshadow := by
  obtain ⟨w, e | e⟩ := afterScan_eq_setReg (s := s) (a := a) <;> rw [e]
  rfl

/-! ### The statements on writes over F0 -/

theorem write_own (h : s.accepts a) (hp : ownWord a = true) : Answers (exec (.registerWrite .f0 a true [v]) s) fun t =>
    (if scanned a then ((s.setReg a (s.formWord a v)).act a (s.readNow a) v).scanAccepted
      else (s.setReg a (s.formWord a v)).act a (s.readNow a) v).sameBut t [] ∧
    (if scanned a then ((s.setReg a (s.formWord a v)).act a (s.readNow a) v).scanAccepted
      else (s.setReg a (s.formWord a v)).act a (s.readNow a) v).sameParts t [] := by
  show Answers (done s (s.hostWrite a v)) _
  refine Answers.ofHostWrite h hp fun u L => ?_
  have C : Changes (· ∈ []) [] (((s.setReg a (s.formWord a v)).act a (s.readNow a) v).afterScan a) u := .ofLogs L
  exact ⟨C.sameBut, C.parts⟩

/-- The registers of the boot, the outputs, Herd, the mate link and the pair whose writes trigger nothing. -/
theorem act_none (h : (0x10000 ≤ a ∧ a < 0x20000 ∧ a ≠ R.BOOT_CMD ∧ a ≠ R.BOOT_FLASH_CTRL) ∨
    (0x40000 ≤ a ∧ a < 0x40100 ∧ a ≠ R.SYN_UPDATE) ∨ (0x280000 ≤ a ∧ a < 0x300000 ∧ inArray a (R.HRD_PORTn_CFG 0) 0x10 25 = false) ∨
    (0x3C0000 ≤ a ∧ a < 0x3E0000 ∧ a ≠ R.GUY_CTRL ∧ a ≠ R.RUT_CTRL ∧ a ≠ R.RUT_CMD)) : s.act a old v = s := by
  unfold State.act
  rcases h with ⟨h1, h2, h3, h4⟩ | ⟨h1, h2, h3⟩ | ⟨h1, h2, h3⟩ | ⟨h1, h2, h3, h4, h5⟩
  · rw [if_neg (by omega), if_pos h2, State.actBoot, if_neg h3, if_neg h4]
  · rw [if_neg (by omega), if_neg (by omega), if_neg (by omega), if_neg (by omega), if_neg (by omega), if_pos (by omega),
      if_neg (fun e => h3 e.1), if_neg (by omega)]
  · rw [if_neg (by omega), if_neg (by omega), if_neg (by omega), if_neg (by omega), if_neg (by omega), if_neg (by omega),
      if_neg (by omega), if_neg (by omega), if_neg (by omega), if_neg (by omega), if_neg (by omega), if_pos h2, h3]
    exact if_neg (by decide)
  · rw [if_neg (by omega), if_neg (by omega), if_neg (by omega), if_neg (by omega), if_neg (by omega), if_neg (by omega),
      if_neg (by omega), if_neg (by omega), if_neg (by omega), if_neg (by omega), if_neg (by omega), if_neg (by omega),
      if_neg (by omega), if_neg (by omega), if_neg h3, if_neg h4, if_neg h5, if_pos h2]
    exact ite_self _

theorem write_plain (h : s.accepts a) (hp : ownWord a = true) (hs : sharedReg a = false)
    (ha : (0x10000 ≤ a ∧ a < 0x20000 ∧ a ≠ R.BOOT_CMD ∧ a ≠ R.BOOT_FLASH_CTRL) ∨
    (0x40000 ≤ a ∧ a < 0x40100 ∧ a ≠ R.SYN_UPDATE) ∨ (0x280000 ≤ a ∧ a < 0x300000 ∧ inArray a (R.HRD_PORTn_CFG 0) 0x10 25 = false) ∨
    (0x3C0000 ≤ a ∧ a < 0x3E0000 ∧ a ≠ R.GUY_CTRL ∧ a ≠ R.RUT_CTRL ∧ a ≠ R.RUT_CMD)) :
    Answers (exec (.registerWrite .f0 a true [v]) s) fun t =>
      t.reg a = s.formWord a v ∧ s.sameBut t [a, R.HIF_CFG_CRC_STATUS] ∧ s.sameParts t [] := by
  have hn : a ≠ R.HIF_CFG_CRC_STATUS := fun e => by subst e; revert ha; decide
  show Answers (done s (s.hostWrite a v)) _
  refine Answers.ofWrite (A := (· ∈ [a, R.HIF_CFG_CRC_STATUS])) (ps := []) h hp (act_none ha) (by simp) (by simp)
    fun u w L C => ⟨?_, C.sameBut, C.parts⟩
  rw [L.reg _ hs, State.reg_setReg_ne _ hn, State.reg_setReg, if_pos rfl]

theorem write_once (h : s.accepts a) (hw : holds a .w1 = true) : Answers (exec (.writeOnce .f0 a v) s) fun t =>
    a ∈ t.w1done ∧
    ({ (if scanned a then ((s.setReg a (s.formWord a v)).act a (s.readNow a) v).scanAccepted
      else (s.setReg a (s.formWord a v)).act a (s.readNow a) v) with w1done := a :: s.w1done } : State).sameBut t [] ∧
    ({ (if scanned a then ((s.setReg a (s.formWord a v)).act a (s.readNow a) v).scanAccepted
      else (s.setReg a (s.formWord a v)).act a (s.readNow a) v) with w1done := a :: s.w1done } : State).sameParts t [] := by
  have e : (({ s with w1done := a :: s.w1done } : State).setReg a (s.formWord a v)).act a (s.readNow a) v =
      { (s.setReg a (s.formWord a v)).act a (s.readNow a) v with w1done := a :: s.w1done } :=
    act_once (s := s.setReg a (s.formWord a v)) hw
  have L := storeWrite_once (s := s) (v := v) hw
  rw [e, afterScan_once] at L
  show Answers (done s (s.hostWrite a v)) _
  refine Answers.ofStored h (onceWord hw).1 L fun u L => ?_
  have C := Changes.ofLogs (A := (· ∈ [])) (ps := []) L
  refine ⟨?_, C.sameBut, C.parts⟩
  rw [L.w1done]
  exact List.mem_cons_self ..

theorem lock_once (h : s.accepts R.HIF_LOCK) : Answers (exec (.writeOnce .f0 R.HIF_LOCK v) s) fun t =>
    t.g R.HIF_LOCK F.HIF_LOCK_LOCK = F.HIF_LOCK_LOCK.get v ∧ R.HIF_LOCK ∈ t.w1done ∧
    s.sameBut t [R.HIF_LOCK, R.HIF_CFG_CRC_STATUS] ∧ s.sameParts t [.once] := by
  have hw : holds R.HIF_LOCK .w1 = true := by decide
  have L := storeWrite_once (s := s) (v := v) hw
  rw [act_lock] at L
  have F0 : Changes (· ∈ [R.HIF_LOCK, R.HIF_CFG_CRC_STATUS]) [.once] s
      (({ s with w1done := R.HIF_LOCK :: s.w1done } : State).setReg R.HIF_LOCK (s.formWord R.HIF_LOCK v)) := by simp
  show Answers (done s (s.hostWrite R.HIF_LOCK v)) _
  refine Answers.ofStored h (onceWord hw).1 L fun u L => ?_
  have C := ((Changes.afterScan_iff (by simp)).2 F0).logs L
  refine ⟨?_, ?_, C.sameBut, C.parts⟩
  · rw [L.g (by decide), g_afterScan (by decide), State.g, State.reg_setReg, if_pos rfl]
    exact formWord_field (f := ⟨"LOCK", 0, 0, .w1, 0x0, .any⟩) (by decide) (by decide) (by decide) (by decide) (fun _ _ => rfl) v
  · rw [L.w1done, w1done_afterScan]
    exact List.mem_cons_self ..

/-! ### A write that is ignored -/

/-- The write-once register was written before: the write is ignored and counted. -/
theorem hostWrite_ignored (hr : s.reaches .f0 a) (hp : plainWord a) (hi : s.whyIgnored .f0 a = some 0)
    (ht : s.writeTriggers .f0 a = false) : Logs ((s.accessFault 2 .f0 a).raw R.HIF_RAW F.HIF_RAW_LOCKED_WR) (s.hostWrite a v) := by
  obtain ⟨hm, h4, hT, hx, hb⟩ := hp
  obtain ⟨-, h1, h2, h3, h0⟩ := hr
  have d : accessDom .f0 a = domOf a := by simp [accessDom, hm]
  have e : s.hostWrite a v = s.access ⟨.f0, a, true, v, 0, 4⟩ := by
    unfold State.hostWrite State.writeReq
    simp [h4, wordAccesses, State.accessAll]
  rw [e]
  unfold State.access
  simp only [reduceCtorEq, and_false, if_false, h0 rfl, h3, h2, h1, if_true, Bool.false_eq_true]
  simp only [State.perform, if_true, reduceCtorEq, if_false, State.writeWord, hm, Bool.not_true, Bool.false_eq_true, ht, hi]
  exact ((Logs.refl _).record).clockRecs

theorem write_again (hr : s.reaches .f0 a) (hw : holds a .w1 = true) (hi : s.whyIgnored .f0 a = some 0)
    (ht : s.writeTriggers .f0 a = false) : Answers (exec (.writeOnce .f0 a v) s) fun t =>
      t.g R.HIF_ACCESS_FAULT F.HIF_ACCESS_FAULT_LOCKED_WR = min (s.g R.HIF_ACCESS_FAULT F.HIF_ACCESS_FAULT_LOCKED_WR + 1) 255 ∧
      t.reg R.HIF_ACCESS_ADDR = BitVec.ofNat 32 (2 ^ 29 + a) ∧ t.isSet R.HIF_RAW F.HIF_RAW_LOCKED_WR ∧
      s.sameBut t [R.HIF_ACCESS_FAULT, R.HIF_ACCESS_ADDR] ∧ s.sameParts t [] := by
  have ha : a < 2 ^ 24 := by rcases once_cases hw with rfl | rfl | rfl <;> decide
  have L := hostWrite_ignored (v := v) hr (onceWord hw).1 hi ht
  have F0 : Changes (· ∈ [R.HIF_ACCESS_FAULT, R.HIF_ACCESS_ADDR]) [] s ((s.accessFault 2 .f0 a).raw R.HIF_RAW F.HIF_RAW_LOCKED_WR) := by
    simp [State.accessFault]
  show Answers (done s (s.hostWrite a v)) _
  refine Answers.ofChanges hr.1 (F0.logs L) fun u L' C => ?_
  have K := L.trans L'
  refine ⟨?_, ?_, ?_, C.sameBut, C.parts⟩
  · rw [K.g (by decide), State.accessFault, State.g, State.reg_raw, if_neg (by decide), State.reg_setRegN, if_neg (by decide)]
    exact State.g_inc (by decide)
  · rw [K.reg _ (by decide), State.accessFault, State.reg_raw, if_neg (by decide), State.reg_setRegN, if_pos rfl, Nat.mod_eq_of_lt ha]
    simp only [srcCode]
    congr 1
  · exact K.isSet (by decide) (by decide) rfl (State.isSet_raw (by decide) rfl)

/-! ### Pairs -/

theorem write_low (h : s.accepts a) (hp : isPairLo a = true) : Answers (exec (.writeLowWord a v) s) fun t =>
    Tbl.get none t.wshadow a = some (s.formWord a v) ∧ s.sameBut t [] ∧ s.sameParts t [.shadows] := by
  have F0 : Changes (· ∈ []) [.shadows] s { s with wshadow := Tbl.set none s.wshadow a (some (s.formWord a v)) } := by simp
  show Answers (done s (s.hostWrite a v)) _
  refine Answers.ofStored h (pairWords hp).low (storeWrite_low hp) fun u L => ⟨?_, (F0.logs L).sameBut, (F0.logs L).parts⟩
  rw [L.wshadow, Tbl.get_set, if_pos rfl]

theorem write_high (h : s.accepts (lo + 4)) (hp : isPairLo lo = true) : Answers (exec (.writeHighWord (lo + 4) v) s) fun t =>
    (if scanned (lo + 4) then ((s.commitPair lo (s.formWord (lo + 4) v)).act (lo + 4) (s.readNow (lo + 4)) v).scanAccepted
      else (s.commitPair lo (s.formWord (lo + 4) v)).act (lo + 4) (s.readNow (lo + 4)) v).sameBut t [] ∧
    (if scanned (lo + 4) then ((s.commitPair lo (s.formWord (lo + 4) v)).act (lo + 4) (s.readNow (lo + 4)) v).scanAccepted
      else (s.commitPair lo (s.formWord (lo + 4) v)).act (lo + 4) (s.readNow (lo + 4)) v).sameParts t [] := by
  show Answers (done s (s.hostWrite (lo + 4) v)) _
  refine Answers.ofStored h (pairWords hp).high (storeWrite_high hp) fun u L => ?_
  have C := Changes.ofLogs (A := (· ∈ [])) (ps := []) L
  exact ⟨C.sameBut, C.parts⟩

end Sys2Proof.Machine
end

section

/-! ## Pairs whose commit triggers nothing, and writes and reads of any request (R26, R27, R33) -/

set_option Elab.async false

namespace Sys2Proof.Machine

variable {A : Nat → Prop} {ps : List Part} {s t u x : State} {a n lo : Nat} {v old : Word} {l : List Word}

/-! ### Pairs that only store -/

/-- The pairs that only store: the amount of a step, the preset frequency, the index of a fetch, a port's parent, the limits of a
measurement unit, and where a ring and its write-back stand. -/
def plainPair (lo : Nat) : Prop :=
  lo = R.TSC_STEP_LO ∨ lo = R.HLD_PRE_F_LO ∨ lo = R.SPR_FETCH_IDX_LO ∨ inArray lo (R.PTP_Pn_MASTER_LO 0) 0x40 24 = true ∨
    inArray lo (R.TDC_Mm_LIM_MIN_LO 0) 0x80 4 = true ∨ inArray lo (R.TDC_Mm_LIM_MAX_LO 0) 0x80 4 = true ∨
    ∃ k : Fin 3, lo = R.HIF_DMAk_BASE_LO k ∨ lo = R.HIF_DMAk_WB_LO k

/-- What stands in the map of a pair that only stores. -/
structure StoredPair (lo : Nat) : Prop where
  pair : isPairLo lo = true
  low : sharedReg lo = false ∧ lo ≠ R.HIF_CFG_CRC_STATUS
  high : sharedReg (lo + 4) = false ∧ lo + 4 ≠ R.HIF_CFG_CRC_STATUS
  act : ∀ (s : State) (old v : Word), s.act (lo + 4) old v = s

/-- The facts of `StoredPair` that a computation decides. -/
def storedPairOk (lo : Nat) : Bool :=
  isPairLo lo && !sharedReg lo && lo != R.HIF_CFG_CRC_STATUS && !sharedReg (lo + 4) && lo + 4 != R.HIF_CFG_CRC_STATUS

theorem storedPair_of (h : storedPairOk lo = true) (ha : ∀ (s : State) (old v : Word), s.act (lo + 4) old v = s) : StoredPair lo := by
  simp only [storedPairOk, Bool.and_eq_true, Bool.not_eq_true', bne_iff_ne, ne_eq] at h
  obtain ⟨⟨⟨⟨h1, h2⟩, h3⟩, h4⟩, h5⟩ := h
  exact ⟨h1, ⟨h2, h3⟩, ⟨h4, h5⟩, ha⟩

theorem storedPair_parent (k : Fin 24) : StoredPair (R.PTP_Pn_MASTER_LO 0 + 0x40 * k) :=
  storedPair_of (by revert k; decide +kernel) fun s old v => by fin_cases k <;> rfl

theorem storedPair_min (k : Fin 4) : StoredPair (R.TDC_Mm_LIM_MIN_LO 0 + 0x80 * k) :=
  storedPair_of (by revert k; decide +kernel) fun s old v => by fin_cases k <;> rfl

theorem storedPair_max (k : Fin 4) : StoredPair (R.TDC_Mm_LIM_MAX_LO 0 + 0x80 * k) :=
  storedPair_of (by revert k; decide +kernel) fun s old v => by fin_cases k <;> rfl

theorem storedPair_base (k : Fin 3) : StoredPair (R.HIF_DMAk_BASE_LO k) :=
  storedPair_of (by revert k; decide +kernel) fun s old v => by fin_cases k <;> rfl

theorem storedPair_wb (k : Fin 3) : StoredPair (R.HIF_DMAk_WB_LO k) :=
  storedPair_of (by revert k; decide +kernel) fun s old v => by fin_cases k <;> rfl

theorem storedPair (h : plainPair lo) : StoredPair lo := by
  rcases h with rfl | rfl | rfl | h | h | h | ⟨k, rfl | rfl⟩
  · exact storedPair_of (by decide) fun _ _ _ => rfl
  · exact storedPair_of (by decide) fun _ _ _ => rfl
  · exact storedPair_of (by decide) fun _ _ _ => rfl
  · obtain ⟨k, hk, rfl⟩ := (inArray_iff (by decide)).1 h
    exact storedPair_parent ⟨k, hk⟩
  · obtain ⟨k, hk, rfl⟩ := (inArray_iff (by decide)).1 h
    exact storedPair_min ⟨k, hk⟩
  · obtain ⟨k, hk, rfl⟩ := (inArray_iff (by decide)).1 h
    exact storedPair_max ⟨k, hk⟩
  · exact storedPair_base k
  · exact storedPair_wb k

theorem pair_commitPair : (s.commitPair lo v).pair lo = s.clampPair lo (s.pairWritten lo v) % 2 ^ 64 := by
  unfold State.commitPair
  exact State.pair_setPair

@[simp] theorem Changes.commitPair_iff (h : A lo) (h' : A (lo + 4)) (hp : .shadows ∈ ps) :
    Changes A ps s (t.commitPair lo v) ↔ Changes A ps s t := by
  unfold State.commitPair
  simp [h, h', hp]

theorem wshadow_commitPair : (s.commitPair lo v).wshadow = Tbl.set none s.wshadow lo none := rfl

theorem write_stored (h : s.accepts (lo + 4)) (hp : plainPair lo) : Answers (exec (.writeHighWord (lo + 4) v) s) fun t =>
    t.pair lo = s.clampPair lo (s.pairWritten lo (s.formWord (lo + 4) v)) % 2 ^ 64 ∧
    Tbl.get none t.wshadow lo = none ∧ s.sameBut t [lo, lo + 4, R.HIF_CFG_CRC_STATUS] ∧ s.sameParts t [.shadows] := by
  obtain ⟨hl, ⟨h1, h2⟩, ⟨h3, h4⟩, ha⟩ := storedPair hp
  have L := storeWrite_high (s := s) (v := v) hl
  rw [ha] at L
  show Answers (done s (s.hostWrite (lo + 4) v)) _
  refine Answers.ofStored h (pairWords hl).high L fun u L => ?_
  have C : Changes (· ∈ [lo, lo + 4, R.HIF_CFG_CRC_STATUS]) [.shadows] s u :=
    ((Changes.afterScan_iff (by simp)).2 ((Changes.commitPair_iff (by simp) (by simp) (by simp)).2 .refl)).logs L
  refine ⟨?_, ?_, C.sameBut, C.parts⟩
  · exact (L.pair h1 h3).trans ((State.pair_congr (reg_afterScan h2) (reg_afterScan h4)).trans pair_commitPair)
  · rw [L.wshadow, wshadow_afterScan, wshadow_commitPair, Tbl.get_set, if_pos rfl]

/-! ### Writes over F1 (R23, R448) -/

/-- A request over F1 comes to its window at once, whole or not. -/
theorem f1Answers {P : State → Prop} {whole : Bool} (hr : s.runs .register = true)
    (hd : s.hif.dead.contains .register = false) (hh : s.hif.held.any (fun y => decide (y.src = .f1)) = false)
    (h : Answers (done s (s.writeF1 a)) P) : Answers (exec (.registerWrite .f1 a whole [v]) s) P := by
  show Answers (done s (s.writeReq .f1 a whole [v])) P
  by_cases hw : whole = true ∧ a % 4 = 0
  · obtain ⟨rfl, ha⟩ := hw
    rwa [writeReq_f1 hr hd hh ha]
  · have e : s.writeReq .f1 a whole [v] = s.writeF1 a := by
      unfold State.writeReq
      rw [if_neg (by decide), if_pos rfl, if_neg (by simpa using hw)]
    rwa [e]

theorem f1_counters (hs : s.inReset = false) (ha : a < 0x8000) : Answers (done s (s.writeF1 a)) fun t =>
    t.g R.PMC_USER_EN F.PMC_USER_EN_DENIED = min (s.g R.PMC_USER_EN F.PMC_USER_EN_DENIED + 1) 65535 ∧
    s.sameBut t [R.PMC_USER_EN] ∧ s.sameParts t [] := by
  rw [State.writeF1, if_pos ha]
  exact Answers.ofChanges (A := (· ∈ [R.PMC_USER_EN])) (ps := []) hs (by simp) fun u L C =>
    ⟨(L.g (by decide) _).trans (State.g_inc (by decide)), C.sameBut, C.parts⟩

theorem f1_status (hs : s.inReset = false) (h1 : 0x8000 ≤ a) (h2 : a < 0x8100) : Answers (done s (s.writeF1 a)) fun t =>
    t.g R.HIF_ACCESS_FAULT F.HIF_ACCESS_FAULT_NARROW_WR = min (s.g R.HIF_ACCESS_FAULT F.HIF_ACCESS_FAULT_NARROW_WR + 1) 255 ∧
    t.reg R.HIF_ACCESS_ADDR = BitVec.ofNat 32 (2 ^ 30 + a) ∧ s.sameBut t [R.HIF_ACCESS_FAULT, R.HIF_ACCESS_ADDR] ∧
    s.sameParts t [] := by
  rw [State.writeF1, if_neg (by omega), if_pos h2, State.narrow, State.accessRaw, if_pos rfl, State.accessFault]
  refine Answers.ofChanges (A := (· ∈ [R.HIF_ACCESS_FAULT, R.HIF_ACCESS_ADDR])) (ps := []) hs (by simp)
    fun u L C => ⟨?_, ?_, C.sameBut, C.parts⟩
  · rw [L.g (by decide), State.g, State.reg_setRegN, if_neg (by decide)]
    exact State.g_inc (by decide)
  · rw [L.reg _ (by decide), State.reg_setRegN, if_pos rfl, Nat.mod_eq_of_lt (by omega : a < 2 ^ 24)]
    simp [srcCode]

theorem f1_beyond (hs : s.inReset = false) (h1 : 0x8100 ≤ a) : Answers (done s (s.writeF1 a)) fun t =>
    t.g R.HIF_ACCESS_FAULT F.HIF_ACCESS_FAULT_UNMAPPED = min (s.g R.HIF_ACCESS_FAULT F.HIF_ACCESS_FAULT_UNMAPPED + 1) 255 ∧
    t.reg R.HIF_ACCESS_ADDR = BitVec.ofNat 32 (2 ^ 30 + 2 ^ 28 + a % 2 ^ 24) ∧
    s.sameBut t [R.HIF_ACCESS_FAULT, R.HIF_ACCESS_ADDR] ∧ s.sameParts t [] := by
  rw [State.writeF1, if_neg (by omega), if_neg (by omega), State.unmapped, State.accessRaw, if_pos rfl, State.accessFault]
  refine Answers.ofChanges (A := (· ∈ [R.HIF_ACCESS_FAULT, R.HIF_ACCESS_ADDR])) (ps := []) hs (by simp)
    fun u L C => ⟨?_, ?_, C.sameBut, C.parts⟩
  · rw [L.g (by decide), State.g, State.reg_setRegN, if_neg (by decide)]
    exact State.g_inc (by decide)
  · rw [L.reg _ (by decide), State.reg_setRegN, if_pos rfl]
    simp [srcCode]

/-! ### Requests of several words -/

theorem request_writes (hs : s.inReset = false) (ha : a % 4 = 0) : Answers (exec (.registerWrite .f0 a true l) s) fun t =>
    (s.accessAll (wordAccesses .f0 a l)).sameBut t [] ∧ (s.accessAll (wordAccesses .f0 a l)).sameParts t [] := by
  have e : s.writeReq .f0 a true l = s.accessAll (wordAccesses .f0 a l) := by
    unfold State.writeReq
    rw [if_neg (by decide), if_neg (by decide), if_pos (by simp [ha])]
  show Answers (done s (s.writeReq .f0 a true l)) _
  rw [e]
  refine Answers.ofDone hs fun u L => ?_
  have C := Changes.ofLogs (A := (· ∈ [])) (ps := []) L
  exact ⟨C.sameBut, C.parts⟩

theorem request_reads {src : Src} {len : Nat} (hs : s.inReset = false) (hl : len ≤ 512) :
    Answers (exec (.readClear src a len) s) fun t =>
      (s.accessAll ((laneSplit len a len).map (fun p : Nat × Nat × Nat => ⟨src, p.1, false, 0#32, p.2.1, p.2.2⟩))).sameBut t [] ∧
      (s.accessAll ((laneSplit len a len).map (fun p : Nat × Nat × Nat => ⟨src, p.1, false, 0#32, p.2.1, p.2.2⟩))).sameParts t [] := by
  show Answers (done s (s.readReq src a len)) _
  rw [State.readReq, Nat.min_eq_left hl]
  refine Answers.ofDone hs fun u L => ?_
  have C := Changes.ofLogs (A := (· ∈ [])) (ps := []) L
  exact ⟨C.sameBut, C.parts⟩

/-- In the statement on the pairs that only store, the implication stands under the last `∃`, so that the disjunction is what it
concludes; `write_stored` gives the implication for every such pair, and with it that disjunct. -/
theorem pairStores (s : State) (lo : Nat) (v : Word) (h : s.accepts (lo + 4)) : lo = R.TSC_STEP_LO ∨ lo = R.HLD_PRE_F_LO ∨
    lo = R.SPR_FETCH_IDX_LO ∨ inArray lo (R.PTP_Pn_MASTER_LO 0) 0x40 24 = true ∨ inArray lo (R.TDC_Mm_LIM_MIN_LO 0) 0x80 4 = true ∨
    inArray lo (R.TDC_Mm_LIM_MAX_LO 0) 0x80 4 = true ∨ ∃ k : Fin 3, lo = R.HIF_DMAk_BASE_LO k ∨ lo = R.HIF_DMAk_WB_LO k →
      Answers (exec (.writeHighWord (lo + 4) v) s) fun t =>
        t.pair lo = s.clampPair lo (s.pairWritten lo (s.formWord (lo + 4) v)) % 2 ^ 64 ∧
        Tbl.get none t.wshadow lo = none ∧ s.sameBut t [lo, lo + 4, R.HIF_CFG_CRC_STATUS] ∧ s.sameParts t [.shadows] :=
  .inr (.inr (.inr (.inr (.inr (.inr ⟨0, fun e => write_stored h (.inr (.inr (.inr (.inr (.inr (.inr ⟨0, e⟩))))))⟩)))))

/-- Settles O28, a clause for each kind of write. -/
theorem hostWrites : Obligations.HostWrites :=
  ⟨fun _ _ _ => write_own, fun _ _ _ => write_plain, fun _ _ _ => write_once, fun _ _ => lock_once, fun _ _ _ => write_again,
    fun _ _ _ => write_low, fun _ _ _ => write_high, pairStores,
    fun _ _ _ _ hs hr hd hh ha => f1Answers hr hd hh (f1_counters hs ha),
    fun _ _ _ _ hs hr hd hh h1 h2 => f1Answers hr hd hh (f1_status hs h1 h2),
    fun _ _ _ _ hs hr hd hh h1 => f1Answers hr hd hh (f1_beyond hs h1),
    fun _ _ _ => request_writes, fun _ _ _ _ => request_reads⟩

end Sys2Proof.Machine
end

section

/-! ## The boot sequencer up to the pack

The factory calibration (R418, R434) is a list of register writes; the header's FREQ (R422) is one boot-pack write. -/

set_option Elab.async false

namespace Sys2Proof.Machine

variable {A : Nat → Prop} {ps : List Part} {s t u : State}

/-! ### The factory calibration (R418, R434) -/

theorem reg_setRegList_ne {step b : Nat} {l : List Word} : ∀ {s : State} {a : Nat}, (∀ i < l.length, b ≠ a + step * i) →
    (s.setRegList step a l).reg b = s.reg b := by
  induction l with
  | nil => intros; rfl
  | cons v l ih =>
    intro s a h
    rw [State.setRegList, ih (fun i hi => ?_), State.reg_setReg_ne]
    · exact h 0 (by simp)
    · have := h (i + 1) (by simpa using hi)
      rw [Nat.mul_succ] at this
      omega

theorem reg_setRegList {step : Nat} (hs : 0 < step) {l : List Word} {w : Word} : ∀ {s : State} {a i : Nat}, l[i]? = some w →
    (s.setRegList step a l).reg (a + step * i) = w := by
  induction l with
  | nil => simp
  | cons v l ih =>
    intro s a i h
    cases i with
    | zero =>
      rw [State.setRegList, reg_setRegList_ne (fun i _ => ?_)]
      · simpa using h
      · have := Nat.mul_pos hs (Nat.succ_pos i)
        rw [Nat.mul_succ] at this
        omega
    | succ i =>
      rw [State.setRegList, Nat.mul_succ, show a + (step * i + step) = a + step + step * i by omega]
      exact ih (by simpa using h)

theorem Changes.setRegList {step : Nat} {l : List Word} : ∀ {t : State} {a : Nat}, (∀ i < l.length, A (a + step * i)) →
    Changes A ps t (t.setRegList step a l) := by
  induction l with
  | nil => intros; exact .refl
  | cons v l ih =>
    intro t a h
    refine (Changes.setReg (.inl (h 0 (by simp)))).trans (ih fun i hi => ?_)
    have := h (i + 1) (by simpa using hi)
    rwa [Nat.mul_succ, show a + (step * i + step) = a + step + step * i by omega] at this

theorem Changes.setRegList_iff {step a : Nat} {l : List Word} (h : ∀ i < l.length, A (a + step * i)) :
    Changes A ps s (t.setRegList step a l) ↔ Changes A ps s t := (Changes.setRegList h).iff

/-- Addresses in the ranges of `l`. -/
abbrev inRanges (l : List (Nat × Nat)) (a : Nat) : Prop := ∃ r ∈ l, r.1 ≤ a ∧ a < r.2

theorem copyFactories_changes : Changes (inRanges [(0x50000, 0x56000)]) [] t ((List.range 24).foldl State.copyFactory t) := by
  have h (t : State) : ∀ n ∈ List.range 24, Changes (inRanges [(0x50000, 0x56000)]) [] t (t.copyFactory n) := fun n hn => by
    have := List.mem_range.1 hn
    unfold State.copyFactory
    simp only [R.PTS_TX_DLY_FAC, R.PTS_RX_DLY_FAC]
    rw [Changes.setReg_iff (by simp [inRanges]; omega), Changes.setReg_iff (by simp [inRanges]; omega)]
    exact .refl
  generalize List.range 24 = l at h
  induction l generalizing t with
  | nil => exact .refl
  | cons n r ih => exact (h t n (List.mem_cons_self ..)).trans (ih fun t k hk => h t k (List.mem_cons_of_mem _ hk))

/-- The state with the lane values of an OTP at their ports. -/
def State.copyLanes (s : State) (o : Otp) : State :=
  (List.range 24).foldl State.copyFactory (s.setBootRec { s.boot with
    trims := o.trims.take 16, lanes := (numbered 0 (o.lanes.take 48)).filter (fun p => decide (p.2 ≠ (0#32, 0#32))) })

/-- The state with the delays of an OTP, but neither its temperature offset nor its identifier. -/
def State.copyDelays (s : State) (o : Otp) : State :=
  (((((s.copyLanes o).setReg R.GUY_TX_DLY_FAC o.guy.1).setReg R.GUY_RX_DLY_FAC o.guy.2).setRegList 0x20
    (R.TDC_En_DLY_FAC 0) (o.events.take 8)).setRegList 4 (R.CAL_On_PATH 0) (o.paths.take 10)).setRegList 4
    (R.CAL_On_RLY 0) (o.relays.take 10)

theorem copyOtp_eq {o : Otp} : t.copyOtp o = (((t.copyDelays o).p R.CAL_TEMP_FAC F.CAL_TEMP_FAC_OFFSET
    o.temp.toNat).setPair R.CAL_UID_LO o.uid.toNat).p R.CAL_OTP_STATUS F.CAL_OTP_STATUS_REV o.rev.toNat := rfl

section
variable {o : Otp} {a i k : Nat} {w : Word} {l : List Word}

theorem copyLanes_changes : Changes (inRanges [(0x50000, 0x56000)]) [.boot] t (t.copyLanes o) :=
  Changes.trans (by simp) (copyFactories_changes.mono (fun _ h => h) (by simp))

theorem copyLanes_trims : (t.copyLanes o).boot.trims = o.trims.take 16 :=
  congrArg Boot.trims (copyFactories_changes.parts .boot (by simp))

theorem lt_of_lt_take (h : i < (l.take k).length) : i < k := lt_of_lt_of_le h (List.length_take_le ..)

/-- What the delays beside the lanes' change, given that the lanes' may change what they do. -/
theorem copyDelays_iff (hA : ∀ a, inRanges [(0x18040, 0x180A8), (R.GUY_TX_DLY_FAC, R.GUY_TX_DLY_FAC + 8),
    (R.TDC_En_DLY_FAC 0, R.TDC_En_DLY_FAC 8)] a → A a) : Changes A ps s (t.copyDelays o) ↔ Changes A ps s (t.copyLanes o) := by
  unfold State.copyDelays
  rw [Changes.setRegList_iff, Changes.setRegList_iff, Changes.setRegList_iff, Changes.setReg_iff (hA _ (by decide)),
    Changes.setReg_iff (hA _ (by decide))] <;> intro i hi <;> have := lt_of_lt_take hi <;> apply hA
  · exact ⟨(R.TDC_En_DLY_FAC 0, R.TDC_En_DLY_FAC 8), by simp, by simp only [R.TDC_En_DLY_FAC]; omega⟩
  · exact ⟨(0x18040, 0x180A8), by simp, by simp only [R.CAL_On_PATH]; omega⟩
  · exact ⟨(0x18040, 0x180A8), by simp, by simp only [R.CAL_On_RLY]; omega⟩

/-- The registers that the factory calibration goes into. -/
abbrev otpRanges : List (Nat × Nat) :=
  [(R.BOOT_STATUS, R.BOOT_STATUS + 4), (0x18000, 0x18100), (0x50000, 0x56000), (R.GUY_TX_DLY_FAC, R.GUY_TX_DLY_FAC + 8),
    (R.TDC_En_DLY_FAC 0, R.TDC_En_DLY_FAC 8)]

theorem mem_otpRanges_of (h : 0x18000 ≤ a ∧ a < 0x18100) : inRanges otpRanges a := ⟨(0x18000, 0x18100), by simp, h⟩

theorem copyOtp_changes : Changes (inRanges otpRanges) [.boot] t (t.copyOtp o) := by
  rw [copyOtp_eq, Changes.p_iff (mem_otpRanges_of (by decide)),
    Changes.setPair_iff (mem_otpRanges_of (by decide)) (mem_otpRanges_of (by decide)),
    Changes.p_iff (mem_otpRanges_of (by decide)), copyDelays_iff]
  · refine copyLanes_changes.mono (fun a h => ?_) (by simp)
    obtain ⟨r, hr, h⟩ := h
    exact ⟨r, by simp at hr ⊢; simp [hr], h⟩
  · intro a h
    simp [inRanges] at h ⊢
    omega

theorem copyOtp_uid : (t.copyOtp o).pair R.CAL_UID_LO = o.uid.toNat := by
  rw [copyOtp_eq, State.pair_congr (State.reg_p_ne (by decide) ..) (State.reg_p_ne (by decide) ..), State.pair_setPair]
  exact Nat.mod_eq_of_lt o.uid.isLt

/-- Beside the status, the identifier and the temperature offset stand the delays. -/
theorem copyOtp_delay (h : a < 0x18000 ∨ 0x18010 ≤ a) : (t.copyOtp o).reg a = (t.copyDelays o).reg a := by
  simp only [copyOtp_eq, State.reg_p, State.reg_setPair, R.CAL_OTP_STATUS, R.CAL_UID_LO, R.CAL_TEMP_FAC]
  repeat rw [if_neg (by omega)]

theorem copyOtp_path (hi : i < 10) (h : o.paths[i]? = some w) : (t.copyOtp o).reg (R.CAL_On_PATH i) = w := by
  rw [copyOtp_delay (.inr (by simp only [R.CAL_On_PATH]; omega)), State.copyDelays,
    reg_setRegList_ne (fun j _ => by simp only [R.CAL_On_PATH, R.CAL_On_RLY]; omega)]
  have e : R.CAL_On_PATH i = R.CAL_On_PATH 0 + 4 * i := by simp only [R.CAL_On_PATH]
  rw [e]
  exact reg_setRegList (by decide) (by rw [List.getElem?_take_of_lt hi, h])

theorem copyOtp_event (hi : i < 8) (h : o.events[i]? = some w) : (t.copyOtp o).reg (R.TDC_En_DLY_FAC i) = w := by
  rw [copyOtp_delay (.inr (by simp only [R.TDC_En_DLY_FAC]; omega)), State.copyDelays,
    reg_setRegList_ne (fun j hj => by have := lt_of_lt_take hj; simp only [R.TDC_En_DLY_FAC, R.CAL_On_RLY]; omega),
    reg_setRegList_ne (fun j hj => by have := lt_of_lt_take hj; simp only [R.TDC_En_DLY_FAC, R.CAL_On_PATH]; omega)]
  have e : R.TDC_En_DLY_FAC i = R.TDC_En_DLY_FAC 0 + 0x20 * i := by simp only [R.TDC_En_DLY_FAC]
  rw [e]
  exact reg_setRegList (by decide) (by rw [List.getElem?_take_of_lt hi, h])

/-- The delays of the mate link lie beside the lists. -/
theorem copyOtp_guy : (t.copyOtp o).reg R.GUY_TX_DLY_FAC = o.guy.1 ∧ (t.copyOtp o).reg R.GUY_RX_DLY_FAC = o.guy.2 := by
  have h {a : Nat} (h1 : 0x3C0018 ≤ a) : (t.copyOtp o).reg a =
      (((t.copyLanes o).setReg R.GUY_TX_DLY_FAC o.guy.1).setReg R.GUY_RX_DLY_FAC o.guy.2).reg a := by
    rw [copyOtp_delay (.inr (by omega)), State.copyDelays,
      reg_setRegList_ne (fun j hj => by have := lt_of_lt_take hj; simp only [R.CAL_On_RLY]; omega),
      reg_setRegList_ne (fun j hj => by have := lt_of_lt_take hj; simp only [R.CAL_On_PATH]; omega),
      reg_setRegList_ne (fun j hj => by have := lt_of_lt_take hj; simp only [R.TDC_En_DLY_FAC]; omega)]
  refine ⟨(h (by decide)).trans ?_, (h (by decide)).trans (State.reg_setReg_same ..)⟩
  rw [State.reg_setReg_ne _ (by decide), State.reg_setReg_same]

theorem copyOtp_status {f : Fld} (hf : f.lo + f.w ≤ 16) : (t.copyOtp o).g R.CAL_OTP_STATUS f = t.g R.CAL_OTP_STATUS f := by
  have C : Changes (· ≠ R.CAL_OTP_STATUS) [.boot] t (t.copyDelays o) :=
    (copyDelays_iff (fun a h e => by subst e; revert h; decide)).2
      (copyLanes_changes.mono (fun a h e => by subst e; revert h; decide) (by simp))
  rw [copyOtp_eq, State.g_p_beside (by decide) (.inr hf)]
  unfold State.g
  rw [State.reg_setPair, if_neg (by decide), if_neg (by decide), State.reg_p_ne (by decide), C.reg (by decide) (by simp)]

theorem copyOtp_trims : (t.copyOtp o).boot.trims = o.trims.take 16 := by
  have C : Changes (fun _ => True) [] (t.copyLanes o) (t.copyOtp o) := by
    rw [copyOtp_eq, Changes.p_iff trivial, Changes.setPair_iff trivial trivial, Changes.p_iff trivial,
      copyDelays_iff fun _ _ => trivial]
    exact .refl
  exact (congrArg Boot.trims (C.parts .boot (by simp))).trans copyLanes_trims

end

end Sys2Proof.Machine
end

section

/-! ## The statements on the boot up to pass 2 (R417 to R434) -/

set_option Elab.async false

namespace Sys2Proof.Machine

variable {A : Nat → Prop} {ps : List Part} {s t u x : State} {o : Otp} {j : BitVec 24} {n k : Nat} {h b : List Byte} {v : Word}

/-! ### The header's FREQ (R422) -/

/-- What storing a word of its own leaves, whoever writes it. -/
theorem storeWrite_from {a : Nat} {src : Src} (hl : isPairLo a = false) (hh : isPairHi a = false) (ho : holds a .w1 = false) :
    Logs (((s.setReg a (s.formWord a v)).act a (s.readNow a) v).afterScan a) (s.storeWrite ⟨src, a, v, s.readNow a, false⟩) := by
  unfold State.storeWrite
  simp only [hl, hh, ho, Bool.false_eq_true, if_false]
  exact (Logs.refl _).recAccepted

theorem whyIgnored_oscCfg : s.whyIgnored .boot R.REF_OSC_CFG = none := by
  unfold State.whyIgnored
  rw [if_neg (fun e => absurd e.1 (by decide)), if_neg (fun e => absurd e.1 (by decide)), if_neg (fun e => absurd e.1 (by decide)),
    if_neg (fun e => absurd e.1 (by decide))]
  exact if_neg (fun e => absurd e (by simp [State.ringHeld, R.REF_OSC_CFG]))

/-- The boot pack's write of the oscillator's configuration is taken, whatever is locked or frozen. -/
theorem writeWord_oscCfg : Logs ((((s.setReg R.REF_OSC_CFG (s.formWord R.REF_OSC_CFG v)).oscFreqAct
    (s.reg R.REF_OSC_CFG)).formReady).afterScan R.REF_OSC_CFG) (s.writeWord .boot R.REF_OSC_CFG v) := by
  have hm : mapped R.REF_OSC_CFG = true := by decide
  have hx : isMsixTable R.REF_OSC_CFG = false ∧ isPba R.REF_OSC_CFG = false ∧ isTable R.REF_OSC_CFG = false := by decide
  have hh : s.stepHeld R.REF_OSC_CFG = false := by simp [State.stepHeld, R.REF_OSC_CFG]
  have ht : s.writeTriggers .boot R.REF_OSC_CFG = false := rfl
  obtain ⟨h1, h2, h3⟩ := hx
  unfold State.writeWord
  simp only [hm, ht, whyIgnored_oscCfg, h1, h2, h3, hh, Bool.not_true, Bool.false_eq_true, if_false]
  exact storeWrite_from (by decide) (by decide) (by decide)

theorem formWord_freq {w : Word} : F.REF_OSC_CFG_FREQ.get (s.formWord R.REF_OSC_CFG w) = F.REF_OSC_CFG_FREQ.get w :=
  formWord_field (f := ⟨"FREQ", 1, 0, .rw, 0x0, .any⟩) (by decide) (by decide) (by decide) (by decide) (fun _ _ => rfl) w

/-- What entering CLOCKS, and VERIFY where the loops are locked, changes. -/
@[simp] theorem Changes.bootClocksReady_iff (h : A R.BOOT_STATUS) : Changes A ps s t.bootClocksReady ↔ Changes A ps s t := by
  unfold State.bootClocksReady State.setBoot
  simp [h]

theorem bootState_setBoot : (s.setBoot n).bootState = n % 16 := State.g_p_same (by decide) n

theorem boot_setBoot : (s.setBoot n).boot = s.boot := rfl

theorem bootState_clocksReady (h : s.bootState = bootClocks) :
    s.bootClocksReady.bootState = bootClocks ∨ s.bootClocksReady.bootState = bootVerify := by
  unfold State.bootClocksReady
  split
  · exact .inr bootState_setBoot
  · exact .inl h

/-- The sequencer after the header's FREQ. -/
def State.toClocks (s : State) (v : Word) : State := ((s.writeWord .boot R.REF_OSC_CFG v).setBoot bootClocks).bootClocksReady

theorem toClocks_freq : (s.toClocks v).g R.REF_OSC_CFG F.REF_OSC_CFG_FREQ = F.REF_OSC_CFG_FREQ.get v := by
  have C {y : State} : Changes (· ∈ [R.BOOT_STATUS]) [] y (y.setBoot bootClocks).bootClocksReady := by
    rw [Changes.bootClocksReady_iff (by simp)]
    exact (Changes.p_iff (by simp)).2 .refl
  have hy : (s.toClocks v).reg R.REF_OSC_CFG = (s.writeWord .boot R.REF_OSC_CFG v).reg R.REF_OSC_CFG := C.reg (by decide) (by decide)
  unfold State.g
  rw [hy, writeWord_oscCfg.reg _ (by decide), reg_afterScan (by decide), reg_formReady_ne (by decide)
    (fun k _ => by simp only [R.REF_OSC_CFG, R.REF_CANDk_STATUS]; omega) (by decide) (by decide)]
  have C' {y : State} {w : Word} : Changes (· ≠ R.REF_OSC_CFG) [.syn] y (y.oscFreqAct w) :=
    (Changes.oscFreqAct_iff (by decide) (by decide) (by simp)).2 .refl
  rw [C'.reg (by decide) (by simp), State.reg_setReg_same, formWord_freq]

theorem toClocks_changes : Changes (fun a => a ∈ oscCfgRegs ∨ a = R.BOOT_STATUS) [.ref, .syn] s (s.toClocks v) := by
  unfold State.toClocks State.setBoot
  rw [Changes.bootClocksReady_iff (.inr rfl), Changes.p_iff (.inr rfl)]
  refine Changes.logs ?_ writeWord_oscCfg
  rw [Changes.afterScan_iff (.inl (by decide)), Changes.formReady_iff (fun _ hk => .inl (mem_oscCfgRegs hk)) (.inl (by decide))
    (.inl (by decide)) (by simp), Changes.oscFreqAct_iff (.inl (by decide)) (.inl (by decide)) (by simp)]
  exact (Changes.setReg_iff (.inl (by decide))).2 .refl

/-- The registers of the header, of the oscillator and of the loops. -/
abbrev headerRanges : List (Nat × Nat) := [(0x10000, 0x18000), (0x30000, 0x48000),
  (R.QUE_DRAM_STATUS, R.QUE_DRAM_STATUS + 4), (R.HIF_CFG_CRC_STATUS, R.HIF_CFG_CRC_STATUS + 4)]

/-- The parts that a change of the oscillator's frequency may reach. -/
abbrev headerParts : List Part :=
  [.boot, .ref, .syn, .gated, .conds, .hld, .tsc, .pts, .ptp, .tdc, .guy, .rut, .fwd, .free, .hif, .once]

theorem mem_headerRanges {a : Nat} (h : a ∈ oscCfgRegs ∨ a = R.BOOT_STATUS) : inRanges headerRanges a := by
  have k : ∀ a ∈ oscCfgRegs ++ [R.BOOT_STATUS], inRanges headerRanges a := by decide
  exact k a (by simpa using h)

/-- The sequencer with the header's values. -/
def State.tookHeader (s : State) (jedec n : Nat) (h : List Byte) : State :=
  ((((s.p R.BOOT_FLASH_INFO F.BOOT_FLASH_INFO_SIZE_LOG2 n).p R.BOOT_FLASH_INFO F.BOOT_FLASH_INFO_JEDEC_ID jedec).setRegN
    R.BOOT_PACK_ID (leAt h 20 4)).setRegN R.BOOT_PACK_LEN (leAt h 8 4)).setBootRec { s.boot with sections := leAt h 12 2 }

theorem flashFound_valid (hb : s.bootState = bootFlash) (hh : headerCheck h (2 ^ min n 26) = 0) (hf : leAt h 14 1 ≤ 3) :
    s.flashFound true j.toNat n h = (s.tookHeader j.toNat n h).toClocks
      (F.REF_OSC_CFG_FREQ.put ((s.tookHeader j.toNat n h).reg R.REF_OSC_CFG) (leAt h 14 1)) := by
  unfold State.flashFound
  rw [if_pos hb, Bool.not_true, if_neg (by decide)]
  simp only [hh, if_true, min_eq_left hf]
  rfl

/-- The state with what a device says of itself. -/
def State.sawFlash (s : State) (jedec n : Nat) : State :=
  (s.p R.BOOT_FLASH_INFO F.BOOT_FLASH_INFO_SIZE_LOG2 n).p R.BOOT_FLASH_INFO F.BOOT_FLASH_INFO_JEDEC_ID jedec

theorem hif_sawFlash {k : Nat} : (s.sawFlash k n).hif = s.hif := (State.setReg_hif ..).trans (State.setReg_hif ..)

theorem headerCheck_lt (h : List Byte) (n : Nat) : headerCheck h n < 256 := by
  unfold headerCheck
  extract_lets
  split_ifs <;> decide

theorem sharedReg_eventDelay (e : Fin 8) : sharedReg (R.TDC_En_DLY_FAC e) = false := by revert e; decide

theorem sharedReg_path (e : Fin 10) : sharedReg (R.CAL_On_PATH e) = false := by revert e; decide

section
variable (hs : s.inReset = false)
include hs

theorem boot_header (hb : s.bootState = bootFlash) (hh : headerCheck h (2 ^ min n 26) = 0) (hf : leAt h 14 1 ≤ 3) :
    Answers (exec (.flashDiscoveryDone true j n h) s) fun t =>
      (t.bootState = bootClocks ∨ t.bootState = bootVerify) ∧ t.reg R.BOOT_PACK_ID = BitVec.ofNat 32 (leAt h 20 4) ∧
      t.reg R.BOOT_PACK_LEN = BitVec.ofNat 32 (leAt h 8 4) ∧
      t.g R.BOOT_FLASH_INFO F.BOOT_FLASH_INFO_JEDEC_ID = j.toNat ∧ t.boot.sections = leAt h 12 2 ∧
      t.g R.REF_OSC_CFG F.REF_OSC_CFG_FREQ = leAt h 14 1 ∧
      s.sameBeyond t headerRanges ∧ s.sameParts t headerParts := by
  show Answers (done s (s.flashFound true j.toNat n h)) _
  rw [flashFound_valid hb hh hf]
  have T : Changes (fun a => inRanges [(0x10000, 0x18000)] a) [.boot] s (s.tookHeader j.toNat n h) := by
    unfold State.tookHeader
    refine (Changes.setBootRec_iff _ (by simp)).2 ?_
    rw [Changes.setRegN_iff (by decide), Changes.setRegN_iff (by decide), Changes.p_iff (by decide), Changes.p_iff (by decide)]
    exact .refl
  have hid : (s.tookHeader j.toNat n h).reg R.BOOT_PACK_ID = BitVec.ofNat 32 (leAt h 20 4) := by
    simp [State.tookHeader]
  have hlen : (s.tookHeader j.toNat n h).reg R.BOOT_PACK_LEN = BitVec.ofNat 32 (leAt h 8 4) := by
    simp [State.tookHeader]
  have hj : (s.tookHeader j.toNat n h).g R.BOOT_FLASH_INFO F.BOOT_FLASH_INFO_JEDEC_ID = j.toNat := by
    simp [State.tookHeader, State.g, Fld.get_put, Nat.mod_eq_of_lt j.isLt]
  have hn : (s.tookHeader j.toNat n h).boot.sections = leAt h 12 2 := rfl
  generalize s.tookHeader j.toNat n h = x at *
  have C : Changes (fun a => a ∈ oscCfgRegs ∨ a = R.BOOT_STATUS) [.ref, .syn] x
    (x.toClocks (F.REF_OSC_CFG_FREQ.put (x.reg R.REF_OSC_CFG) (leAt h 14 1))) := toClocks_changes
  refine Answers.ofDone hs fun u L => ?_
  have D := C.logs L
  have W : Changes (inRanges headerRanges) headerParts s u :=
    (T.mono (fun _ ⟨r, hr, k⟩ => ⟨r, List.mem_append_left _ hr, k⟩) (by decide)).trans (D.mono (fun _ => mem_headerRanges) (by decide))
  refine ⟨?_, ?_, ?_, ?_, ?_, ?_, ?_, ?_⟩
  · rw [L.bootState]
    exact bootState_clocksReady bootState_setBoot
  · rw [D.reg (by decide) (by decide), hid]
  · rw [D.reg (by decide) (by decide), hlen]
  · rw [D.g (by decide) (by decide), hj]
  · exact (congrArg Boot.sections (D.parts .boot (by simp))).trans hn
  · rw [L.g (by decide), toClocks_freq, Fld.get_put (by decide)]
    exact Nat.mod_eq_of_lt (lt_of_le_of_lt hf (by decide))
  · exact W.sameBeyond
  · exact W.parts

theorem boot_fail {r i k : Nat} (hr : r < 256) (hi : i < 4096) (hq : t.hif = s.hif) (C : Changes A ps s t) (h1 : A R.BOOT_STATUS)
    (h2 : A R.BOOT_FAIL_OFFSET) (hp : .boot ∈ ps) {P : State → Prop}
    (hP : ∀ u, BootFailed s u r i k → (∀ a, a ≠ R.BOOT_STATUS → a ≠ R.BOOT_FAIL_OFFSET → sharedReg a = false → u.reg a = t.reg a) →
      Changes A ps s u → P u) : Answers (done s (t.bootFail r i k)) P :=
  Answers.ofChanges hs ((Changes.bootFail_iff h1 h2 hp).2 C) fun u L D =>
    hP u (bootFailed_of_logs hr hi hq L) (fun _ h h' ha => (L.reg _ ha).trans (reg_bootFail h h' ha)) D

theorem boot_otpGood (hb : s.bootState = bootOtp) : Answers (exec (.otpReadDone true o) s) fun t =>
      t.bootState = bootFlash ∧ t.isSet R.CAL_OTP_STATUS F.CAL_OTP_STATUS_READ_DONE ∧
      t.isSet R.CAL_OTP_STATUS F.CAL_OTP_STATUS_CRC_OK ∧ t.pair R.CAL_UID_LO = o.uid.toNat ∧
      t.reg R.GUY_TX_DLY_FAC = o.guy.1 ∧ t.reg R.GUY_RX_DLY_FAC = o.guy.2 ∧
      (∀ e : Fin 8, ∀ w ∈ o.events[e.val]?, t.reg (R.TDC_En_DLY_FAC e) = w) ∧
      (∀ e : Fin 10, ∀ w ∈ o.paths[e.val]?, t.reg (R.CAL_On_PATH e) = w) ∧ t.boot.trims = o.trims.take 16 ∧
      s.sameBeyond t otpRanges ∧ s.sameParts t [.boot] := by
  have e : s.otpDone true o = (((s.p R.CAL_OTP_STATUS F.CAL_OTP_STATUS_READ_DONE 1).pb R.CAL_OTP_STATUS
      F.CAL_OTP_STATUS_CRC_OK true).copyOtp o).setBoot bootFlash := by
    unfold State.otpDone
    rw [if_pos hb]
    exact if_pos rfl
  show Answers (done s (s.otpDone true o)) _
  rw [e]
  obtain ⟨x, hx⟩ : ∃ x, x = (s.p R.CAL_OTP_STATUS F.CAL_OTP_STATUS_READ_DONE 1).pb R.CAL_OTP_STATUS F.CAL_OTP_STATUS_CRC_OK true :=
    ⟨_, rfl⟩
  have X : Changes (inRanges otpRanges) [.boot] s x := by
    rw [hx, Changes.pb_iff (mem_otpRanges_of (by decide)), Changes.p_iff (mem_otpRanges_of (by decide))]
    exact .refl
  have h0 : x.isSet R.CAL_OTP_STATUS F.CAL_OTP_STATUS_READ_DONE := by
    rw [hx]; simp [State.isSet, State.g, Fld.get_put, Fld.get_put_ne]
  have h1 : x.isSet R.CAL_OTP_STATUS F.CAL_OTP_STATUS_CRC_OK := by
    rw [hx]; simp [State.isSet, State.g, Fld.get_put, b2n]
  rw [← hx]
  have C : Changes (inRanges otpRanges) [.boot] s ((x.copyOtp o).setBoot bootFlash) := by
    refine (Changes.p_iff ⟨(R.BOOT_STATUS, R.BOOT_STATUS + 4), by simp, by decide⟩).2 ?_
    exact X.trans copyOtp_changes
  have hr {a : Nat} (h : a ≠ R.BOOT_STATUS) : ((x.copyOtp o).setBoot bootFlash).reg a = (x.copyOtp o).reg a :=
    State.reg_p_ne h ..
  refine Answers.ofChanges hs C fun u L D => ?_
  refine ⟨?_, ?_, ?_, ?_, ?_, ?_, fun e w hw => ?_, fun e w hw => ?_, ?_, ?_, D.parts⟩
  · rw [L.bootState]
    exact bootState_setBoot
  · rw [State.isSet, L.g (by decide), State.g, hr (by decide)]
    exact (copyOtp_status (by decide)).trans h0
  · rw [State.isSet, L.g (by decide), State.g, hr (by decide)]
    exact (copyOtp_status (by decide)).trans h1
  · exact (L.pair (by decide) (by decide)).trans ((State.pair_congr (hr (by decide)) (hr (by decide))).trans copyOtp_uid)
  · rw [L.reg _ (by decide), hr (by decide), copyOtp_guy.1]
  · rw [L.reg _ (by decide), hr (by decide), copyOtp_guy.2]
  · rw [L.reg _ (sharedReg_eventDelay e), hr (by simp only [R.TDC_En_DLY_FAC, R.BOOT_STATUS]; omega), copyOtp_event e.isLt hw]
  · rw [L.reg _ (sharedReg_path e), hr (by simp only [R.CAL_On_PATH, R.BOOT_STATUS]; omega), copyOtp_path e.isLt hw]
  · exact (congrArg Boot.trims (L.boot.trans boot_setBoot)).trans copyOtp_trims
  · exact D.sameBeyond

theorem boot_otpBad (hb : s.bootState = bootOtp) : Answers (exec (.otpReadDone false o) s) fun t =>
      t.bootState = bootFailed ∧ t.g R.BOOT_STATUS F.BOOT_STATUS_REASON = 1 ∧
      t.g R.BOOT_STATUS F.BOOT_STATUS_SECTION = 0xFFF ∧ t.reg R.BOOT_FAIL_OFFSET = BitVec.ofNat 32 (0) ∧
      t.isSet R.BOOT_RAW F.BOOT_RAW_FAIL ∧ (s.hif.fq.length < 32 → ∃ f ∈ t.hif.fq, f.block = 1 ∧ f.code = 1) ∧
      t.g R.CAL_OTP_STATUS F.CAL_OTP_STATUS_CRC_OK = 0 ∧
      s.sameBut t [R.BOOT_STATUS, R.BOOT_FAIL_OFFSET, R.CAL_OTP_STATUS] ∧ s.sameParts t [.boot] := by
  have e : s.otpDone false o = ((s.p R.CAL_OTP_STATUS F.CAL_OTP_STATUS_READ_DONE 1).pb R.CAL_OTP_STATUS
      F.CAL_OTP_STATUS_CRC_OK false).bootFail 1 0xFFF 0 := by
    unfold State.otpDone
    rw [if_pos hb]
    exact if_neg (by decide)
  show Answers (done s (s.otpDone false o)) _
  rw [e]
  refine boot_fail hs (A := (· ∈ [R.BOOT_STATUS, R.BOOT_FAIL_OFFSET, R.CAL_OTP_STATUS])) (ps := [.boot]) (by decide) (by decide)
    ((State.setReg_hif ..).trans (State.setReg_hif ..)) (by simp) (by simp) (by simp) (by simp) fun u B hr C => ⟨B.state, B.reason, B.sect, B.offset, B.raw, B.fault, ?_, C.sameBut, C.parts⟩
  rw [State.g, hr _ (by decide) (by decide) (by decide)]
  exact State.g_p_same (by decide) 0

theorem boot_noFlash (hb : s.bootState = bootFlash) : Answers (exec (.flashDiscoveryDone false j n h) s) fun t =>
      t.bootState = bootFailed ∧ t.g R.BOOT_STATUS F.BOOT_STATUS_REASON = 2 ∧
      t.g R.BOOT_STATUS F.BOOT_STATUS_SECTION = 0xFFF ∧ t.reg R.BOOT_FAIL_OFFSET = BitVec.ofNat 32 (0) ∧
      t.isSet R.BOOT_RAW F.BOOT_RAW_FAIL ∧ (s.hif.fq.length < 32 → ∃ f ∈ t.hif.fq, f.block = 1 ∧ f.code = 1) ∧
      t.reg R.BOOT_FLASH_INFO = 0 ∧ s.sameBut t [R.BOOT_STATUS, R.BOOT_FAIL_OFFSET, R.BOOT_FLASH_INFO] ∧
      s.sameParts t [.boot] := by
  have e : s.flashFound false j.toNat n h = (s.setRegN R.BOOT_FLASH_INFO 0).bootFail 2 0xFFF 0 := by
    unfold State.flashFound
    rw [if_pos hb]
    exact if_pos rfl
  show Answers (done s (s.flashFound false j.toNat n h)) _
  rw [e]
  refine boot_fail hs (A := (· ∈ [R.BOOT_STATUS, R.BOOT_FAIL_OFFSET, R.BOOT_FLASH_INFO])) (ps := [.boot]) (by decide) (by decide)
    (State.setReg_hif ..) (by simp) (by simp) (by simp) (by simp) fun u B hr C => ⟨B.state, B.reason, B.sect, B.offset, B.raw, B.fault, ?_, C.sameBut, C.parts⟩
  rw [hr _ (by decide) (by decide) (by decide)]
  exact State.reg_setReg_same ..

theorem boot_badHeader {r : Nat} (hb : s.bootState = bootFlash) (hh : headerCheck h (2 ^ min n 26) = r) (h0 : r ≠ 0) (h4 : r ≠ 4) :
    Answers (exec (.flashDiscoveryDone true j n h) s) fun t =>
      t.bootState = bootFailed ∧ t.g R.BOOT_STATUS F.BOOT_STATUS_REASON = r ∧
      t.g R.BOOT_STATUS F.BOOT_STATUS_SECTION = 0xFFF ∧ t.reg R.BOOT_FAIL_OFFSET = BitVec.ofNat 32 (0) ∧
      t.isSet R.BOOT_RAW F.BOOT_RAW_FAIL ∧ (s.hif.fq.length < 32 → ∃ f ∈ t.hif.fq, f.block = 1 ∧ f.code = 1) ∧
      s.sameBut t [R.BOOT_STATUS, R.BOOT_FAIL_OFFSET, R.BOOT_FLASH_INFO] ∧ s.sameParts t [.boot] := by
  have e : s.flashFound true j.toNat n h = (s.sawFlash j.toNat n).bootFail r 0xFFF 0 := by
    unfold State.flashFound
    rw [if_pos hb, Bool.not_true, if_neg (by decide)]
    simp only [hh, h0, h4, if_false]
    rfl
  show Answers (done s (s.flashFound true j.toNat n h)) _
  rw [e]
  refine boot_fail hs (A := (· ∈ [R.BOOT_STATUS, R.BOOT_FAIL_OFFSET, R.BOOT_FLASH_INFO])) (ps := [.boot])
    (hh ▸ headerCheck_lt ..) (by decide) hif_sawFlash (by simp [State.sawFlash]) (by simp) (by simp) (by simp)
    fun u B hr C => ⟨B.state, B.reason, B.sect, B.offset, B.raw, B.fault, C.sameBut, C.parts⟩

end

end Sys2Proof.Machine
end

section

/-! ## The boot's failures with CRC values, its idle events and pass 1 (R417, R430, R431) -/

set_option Elab.async false

namespace Sys2Proof.Machine

variable {A : Nat → Prop} {ps : List Part} {s t u : State} {o : Otp} {j : BitVec 24} {n r i k : Nat} {h b : List Byte}
  {e : PackBad} {l : List PackOp}

/-! ### A failure with its two CRC values -/

/-- The state with the two values of a failed CRC. -/
def State.keepCrcs (s : State) (stored found : Nat) : State :=
  (s.setRegN R.BOOT_FAIL_CRC_STORED stored).setRegN R.BOOT_FAIL_CRC_CALC found

theorem bootFailCrc_eq {stored found : Nat} : s.bootFailCrc r i k stored found = (s.keepCrcs stored found).bootFail r i k := rfl

theorem hif_keepCrcs {stored found : Nat} : (s.keepCrcs stored found).hif = s.hif := (State.setReg_hif ..).trans (State.setReg_hif ..)

theorem reg_keepCrcs {stored found : Nat} : (s.keepCrcs stored found).reg R.BOOT_FAIL_CRC_STORED = BitVec.ofNat 32 stored ∧
    (s.keepCrcs stored found).reg R.BOOT_FAIL_CRC_CALC = BitVec.ofNat 32 found := by
  simp [State.keepCrcs]

@[simp] theorem Changes.keepCrcs_iff {stored found : Nat} (h : A R.BOOT_FAIL_CRC_STORED) (h' : A R.BOOT_FAIL_CRC_CALC) :
    Changes A ps s (t.keepCrcs stored found) ↔ Changes A ps s t := by
  unfold State.keepCrcs
  simp [h, h']

section
variable (hs : s.inReset = false)
include hs

theorem boot_badHeaderCrc (hb : s.bootState = bootFlash) (hh : headerCheck h (2 ^ min n 26) = 4) :
    Answers (exec (.flashDiscoveryDone true j n h) s) fun t =>
      t.bootState = bootFailed ∧ t.g R.BOOT_STATUS F.BOOT_STATUS_REASON = 4 ∧
      t.g R.BOOT_STATUS F.BOOT_STATUS_SECTION = 0xFFF ∧ t.reg R.BOOT_FAIL_OFFSET = BitVec.ofNat 32 (0) ∧
      t.isSet R.BOOT_RAW F.BOOT_RAW_FAIL ∧ (s.hif.fq.length < 32 → ∃ f ∈ t.hif.fq, f.block = 1 ∧ f.code = 1) ∧
      t.reg R.BOOT_FAIL_CRC_STORED = BitVec.ofNat 32 (leAt h 60 4) ∧
      t.reg R.BOOT_FAIL_CRC_CALC = BitVec.ofNat 32 (crc32c (h.take 60)) ∧
      s.sameBut t [R.BOOT_STATUS, R.BOOT_FAIL_OFFSET, R.BOOT_FLASH_INFO, R.BOOT_FAIL_CRC_STORED, R.BOOT_FAIL_CRC_CALC] ∧
      s.sameParts t [.boot] := by
  have E : s.flashFound true j.toNat n h =
      ((s.sawFlash j.toNat n).keepCrcs (leAt h 60 4) (crc32c (h.take 60))).bootFail 4 0xFFF 0 := by
    unfold State.flashFound
    rw [if_pos hb, Bool.not_true, if_neg (by decide)]
    simp only [hh, if_true]
    exact if_neg (by decide)
  show Answers (done s (s.flashFound true j.toNat n h)) _
  rw [E]
  generalize crc32c (h.take 60) = c
  refine boot_fail hs (A := (· ∈ [R.BOOT_STATUS, R.BOOT_FAIL_OFFSET, R.BOOT_FLASH_INFO, R.BOOT_FAIL_CRC_STORED,
    R.BOOT_FAIL_CRC_CALC])) (ps := [.boot]) (by decide) (by decide) (hif_keepCrcs.trans hif_sawFlash) (by simp [State.sawFlash])
    (by simp) (by simp) (by simp)
    fun u B hr C => ⟨B.state, B.reason, B.sect, B.offset, B.raw, B.fault, ?_, ?_, C.sameBut, C.parts⟩
  · rw [hr _ (by decide) (by decide) (by decide), reg_keepCrcs.1]
  · rw [hr _ (by decide) (by decide) (by decide), reg_keepCrcs.2]

theorem boot_clockTimeout (hb : s.bootState = bootClocks) : Answers (exec (.bootClockTimeout) s) fun t =>
      t.bootState = bootFailed ∧ t.g R.BOOT_STATUS F.BOOT_STATUS_REASON = 12 ∧
      t.g R.BOOT_STATUS F.BOOT_STATUS_SECTION = 0xFFF ∧ t.reg R.BOOT_FAIL_OFFSET = BitVec.ofNat 32 (0) ∧
      t.isSet R.BOOT_RAW F.BOOT_RAW_FAIL ∧ (s.hif.fq.length < 32 → ∃ f ∈ t.hif.fq, f.block = 1 ∧ f.code = 1) ∧
      s.sameBut t [R.BOOT_STATUS, R.BOOT_FAIL_OFFSET] ∧ s.sameParts t [.boot] := by
  show Answers (done s s.clockTimeout) _
  rw [State.clockTimeout, if_pos hb]
  exact boot_fail hs (A := (· ∈ [R.BOOT_STATUS, R.BOOT_FAIL_OFFSET])) (ps := [.boot]) (by decide) (by decide) rfl .refl
    (by simp) (by simp) (by simp) fun u B hr C => ⟨B.state, B.reason, B.sect, B.offset, B.raw, B.fault, C.sameBut, C.parts⟩

/-! ### Pass 1 -/

theorem boot_verified (hb : s.bootState = bootVerify)
    (hl : packSections b (s.reg R.BOOT_PACK_LEN).toNat s.boot.sections 0 64 false 64 = .inl l) :
    Answers (exec (.packVerifyDone b) s) fun t => t.bootState = bootApply ∧ t.boot = { s.boot with todo := l } ∧
      s.sameBut t [R.BOOT_STATUS] ∧ s.sameParts t [.boot] := by
  have E : s.packVerify b = (s.setBootRec { s.boot with todo := l }).setBoot bootApply := by
    unfold State.packVerify
    rw [if_pos hb, hl]
  show Answers (done s (s.packVerify b)) _
  rw [E]
  refine Answers.ofChanges (A := (· ∈ [R.BOOT_STATUS])) (ps := [.boot]) hs (by simp [State.setBoot]) fun u L C =>
    ⟨?_, L.boot.trans boot_setBoot, C.sameBut, C.parts⟩
  rw [L.bootState]
  exact bootState_setBoot

theorem boot_unverified (hb : s.bootState = bootVerify)
    (hl : packSections b (s.reg R.BOOT_PACK_LEN).toNat s.boot.sections 0 64 false 64 = .inr e) (hr : e.reason < 256)
    (hi : e.section_ < 4096) : Answers (exec (.packVerifyDone b) s) fun t =>
      t.bootState = bootFailed ∧ t.g R.BOOT_STATUS F.BOOT_STATUS_REASON = e.reason ∧
      t.g R.BOOT_STATUS F.BOOT_STATUS_SECTION = e.section_ ∧ t.reg R.BOOT_FAIL_OFFSET = BitVec.ofNat 32 (e.offset) ∧
      t.isSet R.BOOT_RAW F.BOOT_RAW_FAIL ∧ (s.hif.fq.length < 32 → ∃ f ∈ t.hif.fq, f.block = 1 ∧ f.code = 1) ∧
      s.sameBut t [R.BOOT_STATUS, R.BOOT_FAIL_OFFSET, R.BOOT_FAIL_CRC_STORED, R.BOOT_FAIL_CRC_CALC] ∧
      s.sameParts t [.boot] := by
  obtain ⟨x, hx, hq, C⟩ : ∃ x, s.packVerify b = x.bootFail e.reason e.section_ e.offset ∧ x.hif = s.hif ∧
      Changes (· ∈ [R.BOOT_STATUS, R.BOOT_FAIL_OFFSET, R.BOOT_FAIL_CRC_STORED, R.BOOT_FAIL_CRC_CALC]) [.boot] s x := by
    unfold State.packVerify
    rw [if_pos hb, hl]
    by_cases h8 : e.reason = 8
    · refine ⟨s.keepCrcs e.stored e.found, ?_, hif_keepCrcs, by simp⟩
      simp only [h8, if_true]
      rfl
    · exact ⟨s, if_neg h8, rfl, .refl⟩
  show Answers (done s (s.packVerify b)) _
  rw [hx]
  exact boot_fail hs hr hi hq C (by simp) (by simp) (by simp)
    fun u B _ C => ⟨B.state, B.reason, B.sect, B.offset, B.raw, B.fault, C.sameBut, C.parts⟩

end

/-- Settles O14. -/
theorem bootFromReset : Obligations.BootFromReset :=
  ⟨fun _ _ hs hb => boot_otpGood hs hb, fun _ _ hs hb => boot_otpBad hs hb, fun _ _ _ _ hs hb => boot_noFlash hs hb,
    fun _ _ _ _ hs hb hh hf _ => boot_header hs hb hh hf, fun _ _ _ _ _ hs hb hh h0 h4 _ => boot_badHeader hs hb hh h0 h4,
    fun _ _ _ _ hs hb hh _ => boot_badHeaderCrc hs hb hh, fun _ _ _ hs hb => Answers.still hs (if_neg hb),
    fun _ _ _ _ _ hs hb => Answers.still hs (if_neg hb), fun _ hs hb => Answers.still hs (if_neg hb),
    fun _ _ hs hb => Answers.still hs (if_neg hb), fun _ hs hb => boot_clockTimeout hs hb,
    fun _ _ _ hs hb hl => boot_verified hs hb hl, fun _ _ _ hs hb hl hr hi => boot_unverified hs hb hl hr hi⟩

end Sys2Proof.Machine
end
